-- ==== Sys2Proof/Word.lean ====
section
/-! DEFINITION. The word and byte types of the FZ-A128 and the plainest arithmetic on them (00_scope.md R5, R6). -/

namespace Sys2Proof

/-- A register word: registers are 32 bits wide (R6). -/
abbrev Word := BitVec 32

/-- One byte of memory. -/
abbrev Byte := BitVec 8

end Sys2Proof
end

