-- ==== Sys2Proof/Syntax.lean ====
section
/-! DEFINITION. The commands the FZ-A128 takes, one constructor per row of the operations table, and the types of their
operands. -/

namespace Sys2Proof

/-- The roles of 17_roles_security_audit.md R416. -/
inductive Role where
  | operator | installer | maker | device | none
  deriving DecidableEq, Repr

/-- The 18 register initiators of 21_register_map.md R511: the management processor, the I3C port and the execution
slots of the host window bridge; and a control queue pair on which a command message came (11_host_window_bridge.md
R279). -/
inductive Ini where
  | mgt | i3c | slot (k : Nat) | host (q : Nat)
  deriving DecidableEq, Repr

/-- Who sends an access or a management command: an initiator and the session it speaks for (0 for none, R421). -/
structure Src where
  ini : Ini
  session : Nat
  deriving DecidableEq, Repr

/-- A Usmas segment as it arrives on a lane (R60): bytes 1 to 7 of its start block, its payload, whether one of its
blocks lies in an uncorrectable codeword, and what the CSI-2 checks named by R75 find: the header completed here is
clean (0), corrected (1, the payload then holds the corrected header) or beyond correction (2), and whether the
long-packet CRC of the packet completed here fails. -/
structure Segment where
  hdr : List Nat
  payload : List Nat
  fecBad : Bool
  ecc : Nat
  crcBad : Bool
  deriving DecidableEq, Repr

/-- A lane training sequence as it arrives (R38): its 16 characters, whether character 0 is a control character, and
whether any of them is a code violation or disparity error. -/
structure Lts where
  chars : List Nat
  k0 : Bool
  violation : Bool
  deriving DecidableEq, Repr

/-- Who has read an input line of a stripe (R125): the pipe that runs it, or the copy in progress on a lane. -/
inductive Reader where
  | pipe (p : Nat)
  | copy (lane : Nat)
  deriving DecidableEq, Repr

/-- The place of a SEND packet in its message (10_egress_delivery.md R263). -/
inductive SendPos where
  | only | first | middle | last
  deriving DecidableEq, Repr

/-- A received SEND packet (R261, R263): its place in its message, whether it bears the CE mark, and its payload. -/
structure SendIn where
  pos : SendPos
  ce : Bool
  data : List Nat
  deriving DecidableEq, Repr

/-- A received CNP (R261): its queue pair and whether it bears the CE mark. -/
structure CnpIn where
  q : Nat
  ce : Bool
  deriving DecidableEq, Repr

/-- What a NAK reports (R261): a PSN sequence error, receiver not ready, remote access error, remote operational error or
invalid request. -/
inductive Nak where
  | sequence | rnr | access | operational | invalid
  deriving DecidableEq, Repr

/-- A NAK's report and its syndrome byte (R261, R262). -/
structure NakSyn where
  kind : Nak
  syn : Nat
  deriving DecidableEq, Repr

/-- A rising Z edge of an encoder and the clocks for which the synchroniser has shown it (04_sync_and_tagging.md R93,
R96). -/
structure ZEdge where
  n : Nat
  held : Nat
  deriving DecidableEq, Repr

/-- What error checking finds in the DRAM or on its links (14_memory_subsystem.md R350, R352): nothing, a corrected read
link error, an uncorrectable one whose re-read succeeds or fails, and with inline ECC a single-bit or a double-bit
error. -/
inductive MemErr where
  | none | linkCorrected | linkRetried | linkFailed | single | double
  deriving DecidableEq, Repr

/-- What a pass of reads over NAND finds (13_storage_job_library.md R318): the channel and LUN, the ladder step at which
the worst codeword decoded, the most corrected bits of a codeword, the number of codewords corrected, and whether a
codeword was uncorrectable. -/
structure NandRead where
  ch : Nat
  lun : Nat
  step : Nat
  bits : Nat
  corrected : Nat
  uncorrectable : Bool
  deriving DecidableEq, Repr

/-- The reads of a recorder export (R319, R340): the pass over NAND, and the entries in uncorrectable codewords. -/
structure RecRead where
  r : NandRead
  lost : List Nat
  deriving DecidableEq, Repr

/-- The parameter page of a CE position (13_storage_job_library.md R315, R316): whether it passes R315 and its CRC, LUNs,
GiB per LUN, planes, QLC, block endurance, read-retry levels, NV-LPDDR4, transfer rate in 10 MT/s, and a number standing
for every other field but serial and manufacturing data. -/
structure DiePage where
  ok : Bool
  luns : Nat
  gib : Nat
  planes : Nat
  qlc : Bool
  rated : Nat
  retry : Nat
  lpddr4 : Bool
  rate : Nat
  other : Nat
  deriving DecidableEq, Repr

/-- What a mount finds (13_storage_job_library.md R316, R327): the parameter page of each CE position by 8 × channel + CE,
blocks of the initial spare pool, sequences of open-segment entries whose CRC fails, and whether settings or audit
records were lost. -/
structure Mount where
  ces : List (Nat × DiePage)
  spare : Nat
  badEntries : List Nat
  settingsLost : Bool
  auditGap : Bool
  deriving DecidableEq, Repr

/-- The verdicts of the two signatures of a hamper, a login or an image: RSA-3072 and SLH-DSA. -/
structure Sigs where
  rsa : Bool
  slh : Bool
  deriving DecidableEq, Repr

/-- The verdicts on a boot image (16_boot_image.md R407): its own two signatures, and Krelabo's two on the firmware. -/
structure Verdicts where
  img : Sigs
  fw : Sigs
  deriving DecidableEq, Repr

/-- Contents that the board programs into a slot of the NOR through its own access: the slot, its bytes and its status
word. -/
structure NorSlot where
  slot : Nat
  image : List Nat
  status : Nat
  deriving DecidableEq, Repr

/-- What the boot engine meets at the NOR (16_boot_image.md R394): whether valid SFDP answers, whether it stays in
1S-1S-1S, the size of a slot in bytes, slots programmed by the board since the last read, and the verdicts on slots A
and B. -/
structure Nor where
  found : Bool
  slow : Bool
  size : Nat
  placed : List NorSlot
  a : Verdicts
  b : Verdicts
  deriving DecidableEq, Repr

/-- A bit that memory BIST finds failing (19_self_test.md R466): unit, macro within it, row, bit (column), and the march
element (1 to 6) that found it. -/
structure BadBit where
  unit : Nat
  macro_ : Nat
  row : Nat
  bit : Nat
  element : Nat
  deriving DecidableEq, Repr

/-- What a self-test found when it ended (19_self_test.md R466 to R471): whether it is the rolling test's, whether every
macro was tested and the failing bits, logic patterns applied, the MISR and whether it equals the expected signature, and
whether every analogue measurement was made, the items that failed, and the values by the word of `BIST_ABIST_SEL`. -/
structure TestData where
  rolling : Bool
  memory : Bool
  bad : List BadBit
  applied : Nat
  misr : Nat
  expected : Bool
  analogue : Bool
  items : List Nat
  values : List (Nat × Nat)
  deriving DecidableEq, Repr

/-- The commands of the block: one constructor per row of the operations table. The rule after each names its owner. Those that
the audit queue can hold come first. -/
inductive Instr where
  /-- `LANE_ENABLE` (R43): LANE_CTRL.ENABLE written from 0 to 1 takes a lane out of DISABLED into DETECT. -/
  | laneEnable (lane : Nat) (src : Src)
  /-- `LANE_DISABLE` (R43): LANE_CTRL.ENABLE written 0 squelches the lane and puts it in DISABLED. -/
  | laneDisable (lane : Nat) (src : Src)
  /-- `LANE_RETRAIN` (R43): LANE_CTRL.RETRAIN written 1 returns the lane to DETECT and clears its fail count and exclusions. -/
  | laneRetrain (lane : Nat) (src : Src)
  /-- `LANE_EQ_COMMIT` (R37): LANE_EQ_RX2.COMMIT checks the staged equalisation entry and stores it as an installer override. -/
  | laneEqCommit (lane : Nat) (src : Src)
  /-- `EYE_SCAN_START` (R55): LANE_EYE_CTRL.START begins an eye-scan point, or aborts it when the conditions fail. -/
  | eyeScanStart (lane : Nat) (src : Src)
  /-- `QUEUE_WM_WRITE` (R83): An accepted write to ING_QUEUE_HWM or ING_QUEUE_LWM re-evaluates ABOVE at once. -/
  | queueWmWrite (lane : Nat) (high : Bool) (v : Nat) (src : Src)
  /-- `CH_APPLY` (R77): ING_CH_CFG.APPLY marks the channel shadow pending, or is refused with RANGE. -/
  | chApply (c : Nat) (src : Src)
  /-- `ENC_PRESET` (R96): SYN_ENC_PRESET_HI.LOAD loads a new position, or is refused with STATE. -/
  | encPreset (n v : Nat) (src : Src)
  /-- `CTX_GO` (R132): PIPE_CTX_COMMIT.GO checks the bank and makes it PENDING, optionally issuing the ingress APPLY. -/
  | ctxGo (x mode : Nat) (withIng : Bool) (src : Src)
  /-- `CTX_CANCEL` (R132): PIPE_CTX_COMMIT.CANCEL returns a PENDING bank to FREE. -/
  | ctxCancel (x : Nat) (src : Src)
  /-- `PIPE_FENCE` (R147): PIPE_CTRL.FENCE written 1 stops dispatch of new stripes to the pipe. -/
  | pipeFence (p : Nat) (src : Src)
  /-- `PIPE_UNFENCE` (R147): PIPE_CTRL.FENCE written 0 returns the pipe to scheduling. -/
  | pipeUnfence (p : Nat) (src : Src)
  /-- `PIPE_RESET` (R148): PIPE_CTRL.RESET resets the pipe, losing a running stripe and completing open requests with TARGET_RESET. -/
  | pipeReset (p : Nat) (src : Src)
  /-- `MRG_GO` (R198): MRG_COMMIT.GO checks a layout bank and makes it PENDING. -/
  | mrgGo (k mode : Nat) (src : Src)
  /-- `MRG_CANCEL` (R197): MRG_COMMIT.CANCEL returns a pending layout bank to FREE. -/
  | mrgCancel (k : Nat) (src : Src)
  /-- `REF_GO` (R204): REF_COMMIT.GO checks a comparison bank and makes it PENDING. -/
  | refGo (k mode : Nat) (src : Src)
  /-- `REF_CANCEL` (R203): REF_COMMIT.CANCEL returns a pending comparison bank to FREE. -/
  | refCancel (k : Nat) (src : Src)
  /-- `REF_FENCE` (R224): REF_CTRL.FENCE makes later blanket frames take the no-bank path. -/
  | refFence (src : Src)
  /-- `REF_RESET` (R224): REF_CTRL.RESET resets the engine; bands in progress are lost and tracking returns to DX0, DY0. -/
  | refReset (src : Src)
  /-- `PROF_COMMIT` (R245): TSL_PROF_CTRL.COMMIT checks staged profile values and makes them pending. -/
  | profCommit (k : Nat) (src : Src)
  /-- `TSL_FENCE` (R249): TSL_CTRL.FENCE sends new products down the raw path and refuses decodes. -/
  | tslFence (src : Src)
  /-- `TSL_RESET` (R249): TSL_CTRL.RESET loses open products with CODEC_RESET drop records and resets profile steps. -/
  | tslReset (src : Src)
  /-- `QP_ENABLE` (R262): EGR_QP_CFG.EN takes a queue pair from RESET to RTS, or is refused. -/
  | qpEnable (q : Nat) (src : Src)
  /-- `QP_RESET` (R264): EGR_QP_CFG.RESET returns a queue pair to RESET with late errors and refusals. -/
  | qpReset (q : Nat) (src : Src)
  /-- `CLASS_DELAY_SET` (R272): A write to EGR_CLASS_DELAY with SET 1 stores DELAY_FLAG_US into the selected class. -/
  | classDelaySet (p sel v : Nat) (src : Src)
  /-- `EGR_FENCE` (R277): EGR_CTRL.FENCE refuses new deliveries with FENCED. -/
  | egrFence (src : Src)
  /-- `EGR_RESET` (R277): EGR_CTRL.RESET resets every queue pair and refuses queued deliveries with EGR_RESET. -/
  | egrReset (src : Src)
  /-- `WIN_COMMIT` (R284): BRG_WIN_CFG.COMMIT checks staged window values and makes them pending. -/
  | winCommit (w : Nat) (src : Src)
  /-- `BRG_FENCE` (R294): BRG_CTRL.FENCE makes new requests complete BUSY. -/
  | brgFence (src : Src)
  /-- `BRG_RESET` (R294): BRG_CTRL.RESET answers executing and waiting requests TARGET_RESET and discards read-ahead. -/
  | brgReset (src : Src)
  /-- `JOB_SELECT` (R301): Command 0x10 selects a job-table entry. -/
  | jobSelect (i : Nat) (src : Src)
  /-- `JOB_LOAD` (R311): Command 0x11 loads a hamper into NEXT without arming. -/
  | jobLoad (num : Nat) (src : Src)
  /-- `JOB_ARM` (R305): Command 0x12 arms a LOADED NEXT at a mark input, or immediately. -/
  | jobArm (m : Nat) (immediate : Bool) (src : Src)
  /-- `JOB_CANCEL` (R311): Command 0x13 empties NEXT. -/
  | jobCancel (src : Src)
  /-- `JOB_STOP` (R298): Command 0x14 arms job ID 0, stopping the running job at its edge. -/
  | jobStop (m : Nat) (immediate : Bool) (src : Src)
  /-- `LIB_PUT` (R334): Command 0x20 checks and stores a hamper from staging. -/
  | libPut (addr len : Nat) (sigs : Sigs) (src : Src)
  /-- `LIB_DELETE` (R334): Command 0x21 removes a stored hamper. -/
  | libDelete (num : Nat) (src : Src)
  /-- `REC_KEEP` (R339): Command 0x32 sets the kept flag of entries, within KEEP_MAX_PCT. -/
  | recKeep (first count : Nat) (src : Src)
  /-- `REC_RELEASE` (R340): Command 0x33 clears the kept flag of entries. -/
  | recRelease (first count : Nat) (src : Src)
  /-- `REC_GIB_WRITE` (R321): A write of REC_GIB resizes the recorder, freeing old segments or refusing with NOSPACE. -/
  | recGibWrite (v : Nat) (src : Src)
  /-- `STO_FENCE` (R344): STO_CTRL.FENCE refuses new commands and misses new recorder copies. -/
  | stoFence (src : Src)
  /-- `STO_RESET` (R344): STO_CTRL.RESET waits up to 10 ms for programs and erases, then resets and remounts the store. -/
  | stoReset (src : Src)
  /-- `MEM_FENCE` (R361): MEM_CTRL.FENCE refuses non-management transactions, or is refused while a job runs. -/
  | memFence (src : Src)
  /-- `MEM_RESET` (R361): MEM_CTRL.RESET puts ranks in self-refresh, resets and retrains controllers and PHYs. -/
  | memReset (src : Src)
  /-- `FAB_PORT_WAKE` (R387): FAB_PORT_CTRL.WAKE ends ASLEEP; the lanes send rung-0 LTS. -/
  | fabPortWake (p : Nat) (src : Src)
  /-- `FAB_FENCE` (R391): FAB_CTRL.FENCE stops originating seam, bulk and control traffic. -/
  | fabFence (src : Src)
  /-- `FAB_RESET` (R391): FAB_CTRL.RESET sends LINK_RESET and discards the link-layer buffers. -/
  | fabReset (src : Src)
  /-- `FW_UPDATE` (R411): Command 0x50 verifies a staged image for the inactive slot. -/
  | fwUpdate (addr len : Nat) (src : Src)
  /-- `FW_ACTIVATE` (R411): Command 0x51 restarts management from the new slot's firmware. -/
  | fwActivate (src : Src)
  /-- `LOGIN_FINISH` (R424): Command 0x02 checks the signed login and opens a session with an encrypted key. -/
  | loginFinish (msg : List Nat) (sigs : Sigs) (src : Src)
  /-- `LOGOUT` (R425): Command 0x03 ends the session and zeroises its key. -/
  | logout (src : Src)
  /-- `AUDIT_RELEASE` (R434): Command 0x42 frees the oldest audit groups under the hold policy. -/
  | auditRelease (first groups : Nat) (src : Src)
  /-- `FUSE_PROGRAM` (R419): Command 0x60 programs a fuse field, or is refused. -/
  | fuseProgram (field value : Nat) (src : Src)
  /-- `TEST_UNLOCK` (R435): Command 0x61 ends sessions, zeroises the key store and enables test paths. -/
  | testUnlock (src : Src)
  /-- `DECOMMISSION` (R436): Command 0x62 wipes NAND, LPDDR5X and keys, programs DECOM and resets the device. -/
  | decommission (uid : Nat) (src : Src)
  /-- `BIST_RUN` (R474): Command 0x70 or BIST_CTRL.START starts a field test of a unit, or is refused. -/
  | bistRun (unit kinds level : Nat) (src : Src)
  /-- `BIST_STOP` (R474): Command 0x71 or BIST_CTRL.STOP ends the running field test INCOMPLETE. -/
  | bistStop (src : Src)
  /-- `MGT_RESTART` (R485): PWR_CTRL.MGT_RESTART from a maker restarts the management complex. -/
  | mgtRestart (src : Src)
  /-- `PWR_RTC_SET` (R503): Command 0x7A sets the RTC and RTC_VALID. -/
  | pwrRtcSet (sec : Nat) (src : Src)
  /-- `PWR_RESET` (R503): Command 0x7B causes a device reset after its audit record is durable. -/
  | pwrReset (uid : Nat) (src : Src)
  /-- `PIPE_GATE` (R499): A write to PWR_GATE powers a fenced pipe down or up. -/
  | pipeGate (v : Nat) (src : Src)
  /-- `REGISTER_WRITE` (R508): A write to a register with no row of its own is checked and stored or refused. -/
  | registerWrite (a v : Nat) (src : Src)
  /-- `SIGNAL_DETECT` (R43): Signal appears on a lane receiver; in DETECT it starts training, and it also ends receive nap or an ASLEEP fabric hold. -/
  | signalDetect (lane : Nat)
  /-- `LOSS_OF_SIGNAL` (R44): Differential amplitude stays below the signal-detect threshold for 2 us; the lane returns to DETECT and sends propose LTS at rung 0. -/
  | lossOfSignal (lane : Nat)
  /-- `CDR_LOCK` (R43): The lane CDR locks at the present rung, which allows the state machine to advance. -/
  | cdrLock (lane : Nat)
  /-- `CDR_UNLOCK` (R43): The CDR loses lock on an ACTIVE lane; the lane returns to DETECT with reason CDR_UNLOCK. -/
  | cdrUnlock (lane : Nat)
  /-- `OFFSET_MEASURE_DONE` (R31): The 8 us frequency-offset measurement at rung 0 completes and may allow entry to NEGOTIATE. -/
  | offsetMeasureDone (lane : Nat) (ppm : Int)
  /-- `LTS_RECEIVED` (R39): A lane training sequence is received and checked; propose, acknowledge and step LTS drive detection, negotiation and stepping. -/
  | ltsReceived (lane : Nat) (l : Lts)
  /-- `RATE_CHANGE` (R41): The last step LTS has been sent; the lane changes rate and loads the equalisation of the new rung. -/
  | rateChange (lane : Nat)
  /-- `BLOCK_LOCK` (R42): Block lock or RS codeword alignment is gained in STEP; the lane enters VERIFY and opens the 1 ms window. -/
  | blockLock (lane : Nat)
  /-- `VERIFY_WINDOW_END` (R42): The 1 ms verification window ends and the lane sends its verdict in a lane control block. -/
  | verifyWindowEnd (lane hdrErrs uncorr corr : Nat)
  /-- `VERDICT_RECEIVED` (R42): A partner's verify pass or fail lane control block arrives; the lane goes ACTIVE, steps down or backs off. -/
  | verdictReceived (lane : Nat) (pass : Bool)
  /-- `VERDICT_TIMEOUT` (R42): No verdict has arrived 100 us after the local window; it counts as a fail. -/
  | verdictTimeout (lane : Nat)
  /-- `NEGOTIATE_TIMEOUT` (R43): The 2 ms negotiate timer expires; the lane enters BACKOFF. -/
  | negotiateTimeout (lane : Nat)
  /-- `NO_LTS` (R43): Signal has been present for 10 ms without entry to NEGOTIATE; the lane enters BACKOFF. -/
  | noLts (lane : Nat)
  /-- `STEP_TIMEOUT` (R43): 5 ms pass in STEP or VERIFY without both verdicts; the lane excludes the rung and renegotiates, or backs off. -/
  | stepTimeout (lane : Nat)
  /-- `ALIGN_LOSS` (R43): An ACTIVE lane loses block lock or codeword alignment and returns to DETECT. -/
  | alignLoss (lane : Nat)
  /-- `NAP_TIMEOUT` (R43): A receiver has napped longer than NAP_TIMEOUT_MS; the lane leaves ACTIVE. -/
  | napTimeout (lane : Nat)
  /-- `BACKOFF_EXPIRY` (R45): The BACKOFF wait chosen by the fail count elapses; the lane returns to DETECT. -/
  | backoffExpiry (lane : Nat)
  /-- `ACTIVE_STABLE` (R45): A lane has been ACTIVE for 1 s without a break; its fail count returns to 0. -/
  | activeStable (lane : Nat)
  /-- `LANE_CLR_CNT` (R515): LANE_CTRL.CLR_CNT clears the four lane counters. -/
  | laneClrCnt (lane : Nat) (src : Src)
  /-- `IDLE_TRIM` (R50): 600 s of idle or a 15 C junction change since the last trim starts a slicer trim pass on the idle sets. -/
  | idleTrim (lane idleMs : Nat) (dTj : Int)
  /-- `TRIM_PASS_END` (R56): A trim pass ends; a preempted eye-scan point restarts from zero. -/
  | trimPassEnd (lane : Nat)
  /-- `SERVICE_TRIM` (R51): Every 100 ms while payload flows, one slicer is corrected by the offset sampler. -/
  | serviceTrim (lane : Nat)
  /-- `TX_NAP` (R52): A fabric transmitter with TX_NAP_EN has sent only idle for 100 us; it sends nap blocks and powers down its driver. -/
  | txNap (lane : Nat)
  /-- `TX_WAKE` (R52): Payload arrives for a napping transmitter; it sends wake blocks and then idle sets. -/
  | txWake (lane : Nat)
  /-- `RX_NAP` (R52): After two nap control blocks, a receiver enters receive nap and holds its CDR and trim. -/
  | rxNap (lane : Nat)
  /-- `EYE_SCAN_DONE` (R55): An eye-scan point completes its samples and sets DONE. -/
  | eyeScanDone (lane mismatches : Nat)
  /-- `SEGMENT_RECEIVED` (R62): A Usmas segment arrives whole; it is checked, reassembled into CSI-2 packets and stored into the channel frame and the ingress queue. -/
  | segmentReceived (lane : Nat) (seg : Segment)
  /-- `HELLO_RECEIVED` (R72): A head's HELLO arrives and moves the lane's Usmas state by version overlap. -/
  | helloReceived (lane : Nat) (arg : List Nat)
  /-- `TRIG_ACK_RECEIVED` (R67): A TRIG_ACK symbol arrives from a head, or is ignored outside RUN or without minor bit 0. -/
  | trigAckReceived (lane : Nat) (arg : List Nat)
  /-- `STATUS_RECEIVED` (R67): A head STATUS symbol updates ING_LANE_HEAD, or is ignored outside RUN or without minor bit 1. -/
  | statusReceived (lane : Nat) (arg : List Nat)
  /-- `USMAS_SYMBOL_BAD` (R65): An unknown, misdirected or malformed Usmas symbol is ignored and counted. -/
  | usmasSymbolBad (lane code : Nat) (arg : List Nat)
  /-- `HELLO_SEND` (R72): Every 100 us on an ACTIVE ingress lane, the FZ-A128 sends HELLO with its versions and VC mask. -/
  | helloSend (lane : Nat)
  /-- `PAUSE_REPEAT` (R68): Every 1 us the current pause state is sent again on the lane. -/
  | pauseRepeat (lane : Nat)
  /-- `FRAME_TIMEOUT` (R79): No packet arrives on the VC for FRAME_TIMEOUT_US while a frame is open; the frame closes with an implied FE. -/
  | frameTimeout (c : Nat)
  /-- `POINTER_MISMATCH` (R86): The duplicated queue pointers disagree; the queue is reset and lost lines are delivered as filled lines. -/
  | pointerMismatch (lane : Nat)
  /-- `QUEUE_FLUSH` (R87): ING_QUEUE_CTRL.FLUSH written 1 starts a flush, which waits for the open packet's EOP. -/
  | queueFlush (lane : Nat) (src : Src)
  /-- `FLUSH_LIMIT` (R87): A waiting flush reaches 4,096 words or 20 us, truncates the packet and takes effect. -/
  | flushLimit (lane : Nat)
  /-- `ING_CLR_CNT` (R515): ING_QUEUE_CTRL.CLR_CNT clears ING_QUEUE_CROSS and the lane counters. -/
  | ingClrCnt (lane : Nat) (src : Src)
  /-- `PLAY_START` (R90): ING_PLAY_CTRL.START starts a replay source, or is refused. -/
  | playStart (k : Nat) (src : Src)
  /-- `PLAY_STOP` (R90): ING_PLAY_CTRL.STOP ends the replay after the current frame. -/
  | playStop (k : Nat) (src : Src)
  /-- `PLAY_RECORD_READ` (R91): A replay record header read completes; the frame binds, or a bad record is skipped. -/
  | playRecordRead (k : Nat)
  /-- `PLAY_PACE` (R90): The pacing time of a replay stripe arrives, and the stripe may become eligible. -/
  | playPace (k lines : Nat)
  /-- `ENCODER_COUNT` (R94): A filtered A or B edge changes the 48-bit position, or counts an illegal transition. -/
  | encoderCount (n : Nat) (levels : Bool × Bool) (held : Nat)
  /-- `ENCODER_Z` (R96): A rising Z edge latches the position into SYN_ENC_ZPOS. -/
  | encoderZ (e : ZEdge)
  /-- `MARK_EDGE` (R98): A filtered mark edge is accepted or rejected by lockout; an accepted one records position and time and is distributed. -/
  | markEdge (m : Nat) (rising : Bool) (held : Nat)
  /-- `TRIGGER_FIRE` (R100): A generator reaches its next position or time and fires; the fire is sent or not sent under R103. -/
  | triggerFire (c : Nat)
  /-- `TRIG_PULSE_END` (R105): A TRIG_OUT pulse ends after WIDTH_NS. -/
  | trigPulseEnd (pin : Nat)
  /-- `PITCH_COMMIT` (R101): A write of SYN_CH_PITCH_INT commits both pitch halves, possibly arming the generator, or is refused. -/
  | pitchCommit (c v : Nat) (src : Src)
  /-- `TRIG_ENABLE` (R102): SYN_CH_TRIG_CFG.EN written 0 to 1 arms a generator with ARM 0. -/
  | trigEnable (c : Nat) (src : Src)
  /-- `TRIG_DISABLE` (R101): SYN_CH_TRIG_CFG.EN written 1 to 0 stops the generator in the same clock. -/
  | trigDisable (c : Nat) (src : Src)
  /-- `TB_STEP` (R109): A write of SYN_TB_STEP_HI applies a signed step to the device time, or is refused. -/
  | tbStep (v : Nat) (src : Src)
  /-- `TB_SLEW` (R109): A write of SYN_TB_SLEW sets the amount to remove by a 100 ppm rate offset. -/
  | tbSlew (v : Nat) (src : Src)
  /-- `PTP_RX_STAMP` (R111): A received PTP event message of the configured transport reaches firmware with its receive time. -/
  | ptpRxStamp (transport domain msgType seqId stamp : Nat)
  /-- `PTP_TXTS_POP` (R111): SYN_PTP_TXTS_POP removes the head transmit stamp. -/
  | ptpTxtsPop (src : Src)
  /-- `STRIPE_DISPATCH` (R134): A free pipe, or one with 512 clocks left, chooses the next eligible stripe and loads its bank. -/
  | stripeDispatch (p : Nat)
  /-- `STRIPE_COMPLETE` (R140): A pipe finishes a stripe; lines are released, outputs pass on and draining banks may become FREE. -/
  | stripeComplete (p : Nat)
  /-- `FRAME_MODE_LINE` (R128): A held frame-mode pipe processes a line once the r lines below it are present. -/
  | frameModeLine (p : Nat)
  /-- `EXPOSURE_LINE_STORED` (R129): An earlier-exposure line copy into the frame store completes and the queue line is released. -/
  | exposureLineStored (c e y : Nat)
  /-- `HOLD_COPY` (R137): An undispatched eligible stripe on a lane at or above HOLD_WM starts copying to the holding store. -/
  | holdCopy (lane : Nat)
  /-- `HOLD_COPY_DONE` (R137): A holding-store copy completes. -/
  | holdCopyDone (lane : Nat)
  /-- `SPILL_COPY_DONE` (R138): A spill copy to LPDDR5X completes. -/
  | spillCopyDone (lane : Nat)
  /-- `CTX_WINDOW_WRITE` (R131): A write through the context store window stores into a FREE bank, or is refused. -/
  | ctxWindowWrite (addr : Nat) (data : List Nat) (src : Src)
  /-- `ROLL_START` (R145): PIPE_ROLL_CTRL.START withdraws a pipe for rolling self-test, or is refused. -/
  | rollStart (p : Nat) (auto : Bool) (src : Src)
  /-- `ROLL_STOP` (R144): PIPE_ROLL_CTRL.STOP ends the rolling test INCOMPLETE and returns the pipe. -/
  | rollStop (src : Src)
  /-- `PIPE_FENCE_DONE` (R147): A fenced pipe completes its taken stripes, enters FENCED and sets FENCE_DONE. -/
  | pipeFenceDone (p : Nat)
  /-- `PIPE_CLR_CNT` (R515): PIPE_CTRL.CLR_CNT clears the pipe and stage counters. -/
  | pipeClrCnt (p : Nat) (src : Src)
  /-- `TILE_LINE_EMIT` (R192): A tile line whose member rows are all present is resampled, blended and emitted to the comparison engine. -/
  | tileLineEmit (k seq c : Nat)
  /-- `JOIN_WINDOW_CLOSE` (R189): JOIN_US after a blanket frame opens, its join window closes and missing members are absent. -/
  | joinWindowClose (k seq : Nat)
  /-- `SEAM_PACKET_SEND` (R195): The sender device sends a posted seam packet once up to 16 rows of its seam columns are complete. -/
  | seamPacketSend (k seq side : Nat)
  /-- `SEAM_PACKET_RECEIVED` (R196): The owner matches an arriving seam packet to an open blanket frame, or discards it as late. -/
  | seamPacketReceived (data : List Nat)
  /-- `SEAM_WAIT_EXPIRY` (R196): No matching seam packet arrives within EXT_WAIT_US; the group is completed one-sided. -/
  | seamWaitExpiry (k seq side : Nat)
  /-- `LAYOUT_WINDOW_WRITE` (R197): A write through the layout window stores into a FREE bank, or is refused. -/
  | layoutWindowWrite (addr : Nat) (data : List Nat) (src : Src)
  /-- `MRG_CLR_CNT` (R515): MRG_CTRL.CLR_CNT clears the counters of all blankets. -/
  | mrgClrCnt (src : Src)
  /-- `HOLD_MAX_READ` (R513): A read of MRG_BL_STATUS returns HOLD_MAX and clears it. -/
  | holdMaxRead (k : Nat) (src : Src)
  /-- `ALIGNMENT_TILE` (R209): A 64x64 part of a tile is aligned to the reference, its residual, statistics, candidates and patches are formed and handed on. -/
  | alignmentTile (k seq a t : Nat) (memErr : Bool)
  /-- `SLOT_LOAD` (R202): REF_SLOT_CTRL.LOAD opens a reference slot for writing, or is refused. -/
  | slotLoad (sl : Nat) (src : Src)
  /-- `SLOT_DONE` (R202): REF_SLOT_CTRL.DONE starts the check of the loaded reference image. -/
  | slotDone (sl : Nat) (src : Src)
  /-- `SLOT_CHECK_DONE` (R202): The DONE check finishes and the slot becomes READY, or EMPTY with INTEGRITY. -/
  | slotCheckDone (sl : Nat)
  /-- `SLOT_CLEAR` (R202): REF_SLOT_CTRL.CLEAR empties an unused slot. -/
  | slotClear (sl : Nat) (src : Src)
  /-- `CMP_WINDOW_WRITE` (R203): A write through the comparison bank window stores into a FREE bank, or is refused. -/
  | cmpWindowWrite (addr : Nat) (data : List Nat) (src : Src)
  /-- `REF_CLR_CNT` (R515): REF_CTRL.CLR_CNT clears the comparison counters. -/
  | refClrCnt (src : Src)
  /-- `PRODUCT_DONE` (R240): The last tile of a product is coded, raw where coding is longer, and handed to egress or the recorder. -/
  | productDone (i : Nat)
  /-- `TSL_CLR_CNT` (R515): TSL_CTRL.CLR_CNT clears the codec counters. -/
  | tslClrCnt (src : Src)
  /-- `DELIVERY_START` (R271): The first byte of a delivery reaches egress; space is reserved in its class queue, or it is refused. -/
  | deliveryStart (i : Nat)
  /-- `CLASS_B_BUDGET_EXPIRY` (R271): A class B delivery's first packet has not left BUDGET_US after its first byte; it is refused CLASS_B_LATE. -/
  | classBBudgetExpiry (st dseq : Nat)
  /-- `PORT_SEND` (R270): A port sends its next packet, chosen by control priority, class shares and stream round robin. -/
  | portSend (p : Nat) (ptp : Option (Nat × Nat))
  /-- `ACK_RECEIVED` (R262): An advancing ACK frees acknowledged bytes of a queue pair and resets its retry counter. -/
  | ackReceived (q psn : Nat) (ce : Bool)
  /-- `NAK_RECEIVED` (R262): A NAK causes a resend, an RNR wait, or entry to ERROR with late errors. -/
  | nakReceived (q psn : Nat) (nak : NakSyn) (ce : Bool)
  /-- `QP_RETRY_TIMEOUT` (R262): No advancing ACK arrives within the timeout; the queue pair resends or enters ERROR. -/
  | qpRetryTimeout (q : Nat)
  /-- `RNR_TIMER` (R262): The RNR NAK timer elapses and the SEND is resent. -/
  | rnrTimer (q : Nat)
  /-- `CNP_RECEIVED` (R266): A CNP reduces the queue pair's current rate, at most once per 50 us. -/
  | cnpReceived (cnp : CnpIn)
  /-- `CNP_RATE_INC` (R266): After INC_US without reaction, the queue pair's rate rises by INC. -/
  | cnpRateInc (q : Nat)
  /-- `EGRESS_LINK_DOWN` (R262): An egress port link goes down; queue-pair timers stop. -/
  | egressLinkDown (p : Nat)
  /-- `EGRESS_LINK_UP` (R262): An egress port link comes up; queue pairs resend from their oldest unacknowledged PSN. -/
  | egressLinkUp (p : Nat)
  /-- `PAUSE_FRAME_RECEIVED` (R253): A received PAUSE or PFC frame is honoured when enabled. -/
  | pauseFrameReceived (p : Nat) (pfc : Bool) (prio ns : Nat)
  /-- `RX_FRAME_DISCARD` (R261): A received frame with a bad FCS, unsupported opcode, bad P_Key or ICRC is discarded and counted. -/
  | rxFrameDiscard (p : Nat)
  /-- `CREDIT_BLOCK` (R258): A credit block on a control queue pair applies each consumer index in order, or is discarded whole. -/
  | creditBlock (q : Nat) (snd : SendIn)
  /-- `STR_CONS_WRITE` (R258): A write of EGR_STR_CONS returns the consumer index, or sets CONS_BAD. -/
  | strConsWrite (st c : Nat) (src : Src)
  /-- `EGR_DROP_POP` (R273): EGR_DROP_POP removes the head drop record. -/
  | egrDropPop (src : Src)
  /-- `EGR_LATE_POP` (R265): EGR_LATE_POP removes the head late-error entry. -/
  | egrLatePop (src : Src)
  /-- `EGR_CLR_CNT` (R515): EGR_CTRL.CLR_CNT clears the egress counters. -/
  | egrClrCnt (src : Src)
  /-- `BAD_MESSAGE` (R279): A control-queue-pair message of unknown or wrong-direction type, or wrong length, is discarded and counted. -/
  | badMessage (q : Nat) (snd : SendIn)
  /-- `ACCESS_REQUEST` (R282): An access request is checked and executed in hardware as internal pieces. -/
  | accessRequest (q : Nat) (snd : SendIn)
  /-- `PIECE_COMPLETE` (R287): An internal piece completes; the request continues, stops on failure, or replies. -/
  | pieceComplete (k addr : Nat) (err : MemErr)
  /-- `PIECE_TIMEOUT` (R292): A piece does not complete within BRG_TIMEOUT_US and completes with TIMEOUT. -/
  | pieceTimeout (k addr : Nat)
  /-- `READAHEAD_EXPIRY` (R290): 100 us after a fetch, held read-ahead is discarded and counted. -/
  | readaheadExpiry (q : Nat)
  /-- `COMMAND_MESSAGE` (R279): A command message on a control queue pair is authenticated and passed to firmware, or answered BUSY. -/
  | commandMessage (q : Nat) (snd : SendIn)
  /-- `WIN_COMMIT_APPLY` (R284): Once no request executes through the window, pending values apply and are audited. -/
  | winCommitApply (w : Nat)
  /-- `BRG_CLR_CNT` (R515): BRG_CTRL.CLR_CNT clears the bridge counters. -/
  | brgClrCnt (src : Src)
  /-- `JOB_STB` (R300): A filtered rising edge of JOB_STB samples JOB_SEL and makes a selection, or is latched or ignored. -/
  | jobStb (i : Nat)
  /-- `JOB_LOAD_DONE` (R299): Loading of NEXT ends; admission runs and NEXT becomes LOADED or EMPTY. -/
  | jobLoadDone (sigs : Sigs) (r : NandRead)
  /-- `JOB_QUERY` (R311): Command 0x15 returns the job status registers and the refusal record. -/
  | jobQuery (src : Src)
  /-- `JOB_CTRL_ARM` (R305): JOB_CTRL.ARM arms NEXT with JOB_ARM_TIME and MARK. -/
  | jobCtrlArm (m : Nat) (immediate stop : Bool) (src : Src)
  /-- `JOB_CTRL_CANCEL` (R299): JOB_CTRL.CANCEL empties NEXT. -/
  | jobCtrlCancel (src : Src)
  /-- `SET_NEXT` (R299): JOB_CTRL.SET_NEXT records the firmware's NEXT state, or is refused while ARMED. -/
  | setNext (v : Nat) (src : Src)
  /-- `JOB_MSG_PREPARE` (R310): A follower receives PREPARE and loads the named hamper, answering once LOADED or failed. -/
  | jobMsgPrepare (node tag m job num : Nat)
  /-- `JOB_MSG_ARM` (R310): A follower receives ARM with Tarm and arms, or refuses. -/
  | jobMsgArm (node tag m job tarm : Nat)
  /-- `JOB_MSG_CANCEL` (R310): A follower receives CANCEL and empties NEXT, or answers STATE after its switch. -/
  | jobMsgCancel (node tag job : Nat)
  /-- `NAND_MOUNT` (R316): The storage controller reads parameter pages, trains interfaces and mounts the store. -/
  | nandMount (m : Mount)
  /-- `PATROL_SCRUB` (R322): The patrol reads a due block, restamps or relocates it. -/
  | patrolScrub (b : Nat) (r : NandRead)
  /-- `BLOCK_OVERDUE` (R323): A block becomes SCRUB_DAYS old and catch-up begins. -/
  | blockOverdue (b : Nat)
  /-- `CATCHUP_SCRUB` (R323): An overdue block is scrubbed with guaranteed read share. -/
  | catchupScrub (b : Nat) (r : NandRead)
  /-- `WEAR_LEVEL` (R324): Erase counts differ by more than WL_DELTA; the least-worn valid block is relocated. -/
  | wearLevel (r : NandRead)
  /-- `PROGRAM_FAIL` (R326): A NAND program fails; data is rewritten and the block retired. -/
  | programFail (b ch lun : Nat)
  /-- `ERASE_FAIL` (R326): A NAND erase fails and the block is retired. -/
  | eraseFail (b ch lun : Nat)
  /-- `LIB_LIST` (R335): Command 0x22 returns directory entries. -/
  | libList (first count : Nat) (src : Src)
  /-- `LIB_GET` (R334): Command 0x23 exports a hamper image to staging or a stream. -/
  | libGet (num stream addr : Nat) (r : NandRead) (src : Src)
  /-- `LIB_VERIFY` (R332): Command 0x24 runs the hamper checks on a stored hamper and sets or clears its damaged flag. -/
  | libVerify (num : Nat) (sigs : Sigs) (r : NandRead) (src : Src)
  /-- `REC_QUERY` (R340): Command 0x30 returns the recorder's oldest, newest, kept and missed figures. -/
  | recQuery (src : Src)
  /-- `REC_GET` (R340): Command 0x31 exports recorder entries with gap entries for absent sequences. -/
  | recGet (first count : Nat) (dest : Nat × Nat) (r : RecRead) (src : Src)
  /-- `STO_CLR_CNT` (R515): STO_CTRL.CLR_CNT clears the storage counters. -/
  | stoClrCnt (src : Src)
  /-- `MEMORY_TRANSACTION` (R356): A network transaction reaches a memory controller, with ECC correction, region checks and completion status. -/
  | memoryTransaction (blk : Nat) (src : Src) (cls addr len : Nat) (data : Option (List Nat)) (err : MemErr) (busy : Bool)
  /-- `PRIORITY_PROMOTE` (R357): A class 2 or 3 request that has waited 20 us is served as class 1. -/
  | priorityPromote (i : Nat)
  /-- `MR4_POLL` (R353): Every 16 ms each channel's MR4 is read and its refresh level set. -/
  | mr4Poll (ch level : Nat)
  /-- `REFRESH` (R353): A refresh falls due and is performed. -/
  | refresh (ch : Nat)
  /-- `WRITE_LINK_POLL` (R350): Once per second the DRAM write-link error count is read and added. -/
  | writeLinkPoll (ch n : Nat)
  /-- `MEM_CLR_CNT` (R515): MEM_CTRL.CLR_CNT clears the memory counters. -/
  | memClrCnt (src : Src)
  /-- `FAB_PACKET_RECEIVED` (R368): A Botex packet ends; its CRC is checked, it is acknowledged or NAKed, forwarded or consumed. -/
  | fabPacketReceived (p : Nat) (hdr data : List Nat) (crcBad poison cut : Bool) (stamp : Nat)
  /-- `FAB_ACK` (R368): An ACK symbol frees replay-buffer packets. -/
  | fabAck (p : Nat) (arg : List Nat)
  /-- `FAB_NAK` (R368): A NAK symbol resends the named packet and later ones. -/
  | fabNak (p : Nat) (arg : List Nat)
  /-- `FAB_CREDIT` (R369): A CREDIT symbol returns receive-buffer credits for a class. -/
  | fabCredit (p : Nat) (arg : List Nat)
  /-- `FAB_ALIGN` (R367): An ALIGN symbol deskews the lanes of a two-lane port, and a returning lane joins. -/
  | fabAlign (p : Nat) (arg : List Nat)
  /-- `LINK_RESET` (R390): A LINK_RESET symbol discards packets awaiting ACK and re-advertises credits. -/
  | linkReset (p : Nat) (arg : List Nat)
  /-- `FAB_SLEEP_SYMBOL` (R387): A SLEEP symbol from a sleeping neighbour holds the port ASLEEP. -/
  | fabSleepSymbol (p : Nat) (arg : List Nat)
  /-- `FAB_REPLAY_TIMEOUT` (R368): 20 us without ACK; the oldest unacknowledged packet is resent once. -/
  | fabReplayTimeout (p : Nat)
  /-- `WAYMARK_SEND` (R373): Every 1 ms each port that is up sends a waymark. -/
  | waymarkSend (p : Nat)
  /-- `WAYMARK_RECEIVED` (R373): A waymark sets the port's neighbour, version and admission state. -/
  | waymarkReceived (p : Nat) (data : List Nat)
  /-- `NEIGHBOUR_LOST` (R388): No waymark for 3.5 ms or lanes down; routes through the port are removed and its packets discarded. -/
  | neighbourLost (p : Nat)
  /-- `LINK_STATE_RECEIVED` (R375): A link-state record is stored and forwarded once, or discarded as seen. -/
  | linkStateReceived (p : Nat) (data : List Nat)
  /-- `LINK_STATE_EXPIRY` (R375): A link-state record not refreshed for 350 ms is withdrawn. -/
  | linkStateExpiry (origin : Nat)
  /-- `ID_TABLE_RECEIVED` (R376): A node adopts the ID table of highest epoch from its root. -/
  | idTableReceived (p : Nat) (data : List Nat)
  /-- `ROUTE_COMMIT` (R377): FAB_ROUTE_COMMIT swaps in the staged route table and broadcast mask in one clock. -/
  | routeCommit (mask : Nat) (src : Src)
  /-- `CTRL_REQUEST_RECEIVED` (R378): A control request is served by hardware or firmware and answered. -/
  | ctrlRequestReceived (p : Nat) (data : List Nat)
  /-- `CTRL_REPLY_RECEIVED` (R378): A control reply completes its request, or is dropped as late. -/
  | ctrlReplyReceived (p : Nat) (data : List Nat)
  /-- `CTRL_TIMEOUT` (R378): A control request has no reply after CTRL_TIMEOUT_MS and completes TIMEOUT. -/
  | ctrlTimeout (tag : Nat)
  /-- `TIME_REQUEST_RECEIVED` (R379): A parent answers a time request with its receive and departure times. -/
  | timeRequestReceived (p : Nat) (data : List Nat) (stamp : Nat)
  /-- `TIME_RESPONSE_RECEIVED` (R379): A time response yields offset and delay, and may step, slew or change the lock state. -/
  | timeResponseReceived (p : Nat) (data : List Nat) (stamp : Nat)
  /-- `BULK_PACKET_RECEIVED` (R383): A bulk packet writes into the fabric receive window, or is discarded with a late error. -/
  | bulkPacketReceived (p : Nat) (data : List Nat)
  /-- `BULK_COMMIT` (R383): A bulk commit request is answered OK or FAR_ERROR and the transfer is forgotten. -/
  | bulkCommit (node tag id packets bytes : Nat)
  /-- `LATE_ERROR_RECEIVED` (R384): A late error enters FAB_LATE_ERR and may complete a request with FAR_ERROR. -/
  | lateErrorReceived (p : Nat) (data : List Nat)
  /-- `FAB_LATE_POP` (R384): FAB_LATE_POP removes the head late-error entry. -/
  | fabLatePop (src : Src)
  /-- `FAB_CLR_CNT` (R515): FAB_CTRL.CLR_CNT clears the fabric counters. -/
  | fabClrCnt (src : Src)
  /-- `BOOT_READ` (R407): After device reset the boot engine discovers the NOR, orders the slots and verifies them in turn. -/
  | bootRead (nor : Nor)
  /-- `UPDATE_VERIFY_DONE` (R411): Verification of the staged image ends; programming begins or the update fails. -/
  | updateVerifyDone (v : Verdicts)
  /-- `UPDATE_PROGRAM_DONE` (R411): Programming of the inactive slot completes and readback begins. -/
  | updateProgramDone (ok : Bool)
  /-- `UPDATE_READBACK_DONE` (R411): Readback verification ends; the update is READY or fails. -/
  | updateReadbackDone (v : Verdicts)
  /-- `FW_CONFIRM` (R411): BOOT_CTRL.CONFIRM marks the trial slot CONFIRMED. -/
  | fwConfirm (src : Src)
  /-- `LOGIN_BEGIN` (R423): Command 0x01 returns a single-use nonce. -/
  | loginBegin (role key major : Nat) (src : Src)
  /-- `SESSION_IDLE_TIMEOUT` (R425): No request of a session is accepted for SESSION_IDLE_S; it ends. -/
  | sessionIdleTimeout (n : Nat)
  /-- `LOCKOUT_EXPIRY` (R424): 60 s after the eighth failure, LOGIN_BEGIN for the key is allowed again. -/
  | lockoutExpiry (role key : Nat)
  /-- `ATTEST` (R427): Command 0x04 returns a signed attestation report. -/
  | attest (nonce : List Nat) (keys : Bool) (src : Src)
  /-- `ATTEST_KEYS_READY` (R426): Derivation of the attestation keys from DUS completes. -/
  | attestKeysReady (ms : Nat)
  /-- `AUDIT_READ` (R434): Command 0x40 exports audit records and signed heads. -/
  | auditRead (first count stream addr : Nat) (src : Src)
  /-- `AUDIT_SIGN` (R433): Command 0x41 returns a signed head of the last durable record. -/
  | auditSign (src : Src)
  /-- `PAGE_WRITE` (R441): A write transfer sets the page pointer and writes page bytes, possibly issuing an indirect write. -/
  | pageWrite (data : List Nat)
  /-- `PAGE_READ` (R441): A read transfer returns page bytes, possibly issuing an indirect read. -/
  | pageRead (n : Nat)
  /-- `INDIRECT_COMPLETE` (R442): An indirect access completes; the address advances or stays and the status is recorded. -/
  | indirectComplete (late : Bool) (err : MemErr)
  /-- `PORT_BIND` (R446): Command 0x05 binds the session's role to the management port. -/
  | portBind (src : Src)
  /-- `PORT_UNBIND` (R446): Command 0x06 ends the port binding. -/
  | portUnbind (src : Src)
  /-- `EVT_FORWARD` (R450): Command 0x07 enables or disables forwarding of management events to a queue pair. -/
  | evtForward (q : Nat) (enable : Bool) (src : Src)
  /-- `ENTDAA` (R440): ENTDAA assigns a dynamic address and moves the port to I3C mode. -/
  | entdaa (addr : Nat)
  /-- `SETDASA` (R440): SETDASA assigns a dynamic address from the static one. -/
  | setdasa (static addr : Nat)
  /-- `ENEC` (R439): ENEC enables in-band interrupts. -/
  | enec (ev : Nat) (direct : Bool)
  /-- `DISEC` (R439): DISEC disables in-band interrupts. -/
  | disec (ev : Nat) (direct : Bool)
  /-- `RSTACT` (R457): RSTACT sets the action of the next target reset pattern. -/
  | rstact (v : Nat)
  /-- `CCC_UNSUPPORTED` (R439): An unsupported direct CCC is not acknowledged and a broadcast one is ignored. -/
  | cccUnsupported (direct : Bool)
  /-- `IBI_RETRY` (R452): An IBI not acknowledged is retried at the next bus-available condition. -/
  | ibiRetry (k : Nat) (acked : Bool)
  /-- `EVQ_POP` (R20): MGT_EVQ_POP removes the head event entry, or completes RIGHTS from another initiator. -/
  | evqPop (src : Src)
  /-- `BIST_RESULT` (R477): Command 0x72 returns a unit's result record. -/
  | bistResult (unit : Nat) (src : Src)
  /-- `BIST_LOG` (R467): Command 0x73 returns fail-log entries, newest first. -/
  | bistLog (count : Nat) (src : Src)
  /-- `BIST_TEST_END` (R476): A test ends; the unit is reset, its result and health are recorded, and a failed pipe is fenced. -/
  | bistTestEnd (d : TestData)
  /-- `BIST_TIMEOUT` (R476): A test still running 4.6 s after start ends with the timeout flag. -/
  | bistTimeout (d : TestData)
  /-- `POWER_ON` (R481): Rails come up in sequence and RESET_N is released, starting a device reset. -/
  | powerOn (bad : List BadBit) (max avs : Nat)
  /-- `RESET_PIN` (R484): RESET_N low for 10 us causes a device reset. -/
  | resetPin (bad : List BadBit)
  /-- `MGT_RESTART_DONE` (R11): The management complex is back, checks its code and serves the latched job selection first. -/
  | mgtRestartDone (sramOk : Bool) (fw : Sigs)
  /-- `PWR_SLEEP` (R492): Command 0x78 requests SLEEP with a wake mask and alarm, or is refused. -/
  | pwrSleep (mask alarm : Nat) (src : Src)
  /-- `PWR_CTRL_SLEEP` (R491): PWR_CTRL.SLEEP written by the management processor requests SLEEP. -/
  | pwrCtrlSleep (src : Src)
  /-- `SLEEP_ENTERED` (R493): The entry steps complete and the device is in SLEEP. -/
  | sleepEntered (field rolling : TestData)
  /-- `WAKE_PIN` (R496): A filtered rising edge of WAKE wakes the device. -/
  | wakePin (ticks : Nat)
  /-- `ADDRESS_MATCH_WAKE` (R458): A transaction to the device address in SLEEP is not acknowledged and wakes the device. -/
  | addressMatchWake (ticks : Nat)
  /-- `BOTEX_WAKE` (R496): Signal present for 10 us on a fabric lane wakes the device. -/
  | botexWake (lane ticks : Nat)
  /-- `RTC_ALARM` (R496): RTC seconds reach the alarm and wake the device. -/
  | rtcAlarm (ticks : Nat)
  /-- `WAKE_DONE` (R496): Wake steps complete, the device time is reloaded and the device is ACTIVE. -/
  | wakeDone (copyOk : Bool) (fw : Sigs) (full : Nat)
  /-- `PWR_QUERY` (R503): Command 0x79 returns the power status registers. -/
  | pwrQuery (src : Src)
  /-- `PWR_CLR_CNT` (R515): PWR_CTRL.CLR_CNT clears the PWR_CNT_STALE registers. -/
  | pwrClrCnt (src : Src)
  /-- `TEMP_SAMPLE` (R500): Every 1 ms the on-die sensors are read and TJ_WARN and TJ_OVER updated. -/
  | tempSample (temps : List Nat)
  /-- `STICKY_CLEAR` (R514): A W1C write clears sticky bits, unless an occurrence in the same clock sets them again. -/
  | stickyClear (a mask : Nat) (src : Src)
  /-- `LO_READ_LATCH` (R511): A read of a _LO register snapshots the value and latches the _HI half for that initiator. -/
  | loReadLatch (a : Nat) (src : Src)
  /-- `HI_WRITE_APPLY` (R512): A write to a _HI register applies it together with the staged _LO half in one clock. -/
  | hiWriteApply (a v : Nat) (src : Src)
  /-- `INPUT_LINE_RELEASE` (R125): A pipe, or a holding or spill copy, finishes reading an input line partway through its stripe; the line's words are released from the ingress queue and the level may fall to LWM, clearing ABOVE, FC_OUT and sending PAUSE 0. -/
  | inputLineRelease (r : Reader) (y : Nat)
  /-- `OUTPUT_PORT_SERVE` (R370): A fabric output port that finishes a packet, or is idle with packets queued, starts the next packet in strict class order with the bulk share guaranteed per 100 us. -/
  | outputPortServe (p : Nat)
  /-- `BLOCK_RESET_DONE` (R148): The reset of a pipe or other block, which lasts at most 2 us (10 ms for storage), ends and register accesses and requests to the block are served again. -/
  | blockResetDone (u : Nat)
  /-- `SPEED_SAMPLE` (R97): Every 1 ms the signed count change of the last millisecond is stored in SPEED. -/
  | speedSample
  /-- `SLEW_DONE` (R109): The slew amount is consumed and the rate returns to RATE. -/
  | slewDone
  /-- `ROLL_WITHDRAWN` (R144): The withdrawn pipe finishes its stripes, and the BIST controller starts testing it. -/
  | rollWithdrawn
  /-- `ROLL_INTERVAL` (R144): With AUTO 1, INTERVAL_S elapses and the next pipe is withdrawn for test. -/
  | rollInterval
  /-- `MEMBER_ROW_ARRIVAL` (R183): A member's merger ROI row reaches the blanket merger, is stored and may overflow a seam hold. -/
  | memberRowArrival
  /-- `REF_FENCE_DONE` (R224): Frames already bound complete and REF FENCED reads 1. -/
  | refFenceDone
  /-- `TSL_FENCE_DONE` (R249): Open products complete and TSL FENCED reads 1. -/
  | tslFenceDone
  /-- `EGR_FENCE_DONE` (R277): Queued deliveries complete and EGR FENCED reads 1. -/
  | egrFenceDone
  /-- `BRG_FENCE_DONE` (R294): Executing and waiting requests complete and BRG FENCED reads 1. -/
  | brgFenceDone
  /-- `DRAIN_DONE` (R297): The outgoing job has no frame bound to any bank; draining ends and a latched selection is served. -/
  | drainDone
  /-- `START_ENTRY_SELECT` (R302): After boot, firmware selects the lowest job-table entry with the start flag and arms it immediately. -/
  | startEntrySelect
  /-- `PREPARE_TIMEOUT` (R309): Followers have not answered PREPARE within PREP_100MS; the leader cancels. -/
  | prepareTimeout
  /-- `PREPARE_RESEND` (R385): Every 100 ms the leader resends a PREPARE answered BUSY. -/
  | prepareResend
  /-- `ARM_DEADLINE` (R309): ARM answers are still outstanding less than 1 ms before Tarm; the leader cancels. -/
  | armDeadline
  /-- `RECORDER_PROGRAM` (R339): Staged recorder entries are programmed into the ring, taking the oldest unkept segment when full. -/
  | recorderProgram
  /-- `STO_FENCE_DONE` (R344): Operations in progress complete and STO FENCED reads 1. -/
  | stoFenceDone
  /-- `MEM_FENCE_DONE` (R361): Transactions in progress complete and MEM FENCED reads 1. -/
  | memFenceDone
  /-- `MEM_RESET_DONE` (R361): Ranks leave self-refresh after a memory reset. -/
  | memResetDone
  /-- `ROOT_UPDATE` (R374): Every 1 ms the node recomputes root, epoch, distance and parent. -/
  | rootUpdate
  /-- `LINK_STATE_SEND` (R375): On a port change or every 100 ms the node floods its link-state record. -/
  | linkStateSend
  /-- `ID_ASSIGN` (R376): The root's firmware assigns node IDs and broadcasts an ID table. -/
  | idAssign
  /-- `TIME_REQUEST_SEND` (R379): Every 125 us a non-root node sends a time request to its parent. -/
  | timeRequestSend
  /-- `TIME_RATE_CORRECT` (R380): Every 8 ms a locked-source node corrects RATE from the mean offset. -/
  | timeRateCorrect
  /-- `FAB_FENCE_DONE` (R391): Outstanding requests complete and FAB FENCED reads 1. -/
  | fabFenceDone
  /-- `FIRMWARE_START` (R409): The verified slot is applied and firmware starts; installer settings are reapplied. -/
  | firmwareStart
  /-- `CONFIRM_TIMEOUT` (R411): CONFIRM_S elapses unconfirmed; the slot is rejected and the former firmware restarts. -/
  | confirmTimeout
  /-- `AUDIT_RECORD_DURABLE` (R432): An audit record becomes durable; the recorded change takes effect and completes. -/
  | auditRecordDurable
  /-- `HEAD_SIGN_DONE` (R433): A signed head for a multiple-of-4,096 record is stored with its group. -/
  | headSignDone
  /-- `RNG_FAIL` (R420): An entropy health test fails; commands needing random bits complete INTEGRITY. -/
  | rngFail
  /-- `INDIRECT_TIMEOUT` (R445): In I2C mode an indirect read has not completed after 2 ms and returns TIMEOUT. -/
  | indirectTimeout
  /-- `CMD_SUBMIT` (R447): SUBMIT authenticates the buffered command and executes it. -/
  | cmdSubmit
  /-- `CMD_ACK` (R447): ACK returns the command state from DONE or DISCARDED to IDLE. -/
  | cmdAck
  /-- `RSTDAA` (R440): RSTDAA returns the port to I2C mode at the static address. -/
  | rstdaa
  /-- `GETPID` (R440): GETPID returns the provisional ID. -/
  | getpid
  /-- `GETBCR` (R440): GETBCR returns 0x2F. -/
  | getbcr
  /-- `GETDCR` (R440): GETDCR returns 0x00. -/
  | getdcr
  /-- `GETSTATUS` (R440): GETSTATUS returns pending IBI causes, the protocol error bit and the state byte. -/
  | getstatus
  /-- `GETMXDS` (R440): GETMXDS returns the maximum data speeds. -/
  | getmxds
  /-- `SCL_TIMEOUT` (R454): SCL stays low 35-38 ms; the transfer is abandoned and SCL_TO set. -/
  | sclTimeout
  /-- `SDA_TIMEOUT` (R454): SDA stays low 35-38 ms; the transfer is abandoned and SDA_TO set. -/
  | sdaTimeout
  /-- `BUS_ABORT` (R455): A START or STOP inside a byte or in the acknowledge slot aborts the transfer. -/
  | busAbort
  /-- `SDA_RELEASE` (R456): SCL high for 1 ms while driving SDA; the FZ-A128 releases SDA. -/
  | sdaRelease
  /-- `TARGET_RESET_PATTERN` (R457): The I3C target reset pattern resets the port or the whole device per RSTACT. -/
  | targetResetPattern
  /-- `VAON_LOSS` (R482): VAON falls below 1.5 V and the thermos is cleared. -/
  | vaonLoss
  /-- `RAIL_LOSS` (R502): Rails other than VAON are lost; LPDDR5X contents are lost. -/
  | railLoss
  /-- `CRYSTAL_STOP` (R490): The RC oscillator sees the 32.768 kHz crystal stopped for over 1 ms; RTC_VALID clears. -/
  | crystalStop
  /-- `LOCKSTEP_MISMATCH` (R485): The two management cores disagree and the management complex restarts. -/
  | lockstepMismatch
  /-- `WATCHDOG_TIMEOUT` (R485): The management watchdog is not kicked for 1 s and the complex restarts. -/
  | watchdogTimeout
  /-- `SLEEP_DRAIN_DONE` (R493): The data plane has drained during entry; the entry steps continue. -/
  | sleepDrainDone
  /-- `SLEEP_DRAIN_LIMIT` (R493): DRAIN_MS elapses; remaining frames and deliveries are refused and DRAIN_CUT set. -/
  | sleepDrainLimit
  /-- `TRIGGER_RESUME` (R498): At the first timebase step, ACTIVE with SRC 0, or RESUME_MS, suspended generators re-arm. -/
  | triggerResume
  /-- `THERMAL_TRIP` (R501): 115 C for 1 ms, or DRAM level 3 for 10 s, stops lanes, memory and NAND and holds the device in reset. -/
  | thermalTrip
  deriving DecidableEq, Repr

end Sys2Proof
end

