-- ==== Sys2Proof/WellFormed.lean ====
section
/-! DEFINITION. Well-formed commands: operands that name something the device has, and bytes that are bytes. The meanings are
total and take any operands. -/

namespace Sys2Proof

/-- An index of one of `n` things. -/
def below (n i : Nat) : Bool := decide (i < n)

/-- A list of bytes. -/
def okBytes (l : List Nat) : Bool := l.all fun b => decide (b < 256)

/-- A segment of bytes, with 7 header bytes and an ECC verdict of 0 to 2 (03_camera_ingress.md R60, R75). -/
def okSegment (g : Segment) : Bool := okBytes g.hdr && okBytes g.payload && g.hdr.length == 7 && decide (g.ecc < 3)

/-- A command is well formed. -/
def Instr.wf : Instr → Bool
  | .signalDetect lane => below 48 lane
  | .lossOfSignal lane => below 48 lane
  | .cdrLock lane => below 48 lane
  | .cdrUnlock lane => below 48 lane
  | .offsetMeasureDone lane _ => below 48 lane
  | .ltsReceived lane _ => below 48 lane
  | .rateChange lane => below 48 lane
  | .blockLock lane => below 48 lane
  | .verifyWindowEnd lane _ _ _ => below 48 lane
  | .verdictReceived lane _ => below 48 lane
  | .verdictTimeout lane => below 48 lane
  | .negotiateTimeout lane => below 48 lane
  | .noLts lane => below 48 lane
  | .stepTimeout lane => below 48 lane
  | .alignLoss lane => below 48 lane
  | .napTimeout lane => below 48 lane
  | .backoffExpiry lane => below 48 lane
  | .activeStable lane => below 48 lane
  | .laneEnable lane _ => below 48 lane
  | .laneDisable lane _ => below 48 lane
  | .laneRetrain lane _ => below 48 lane
  | .laneClrCnt lane _ => below 48 lane
  | .laneEqCommit lane _ => below 48 lane
  | .idleTrim lane _ _ => below 48 lane
  | .trimPassEnd lane => below 48 lane
  | .serviceTrim lane => below 48 lane
  | .txNap lane => below 48 lane
  | .txWake lane => below 48 lane
  | .rxNap lane => below 48 lane
  | .eyeScanStart lane _ => below 48 lane
  | .eyeScanDone lane _ => below 48 lane
  | .segmentReceived lane seg => below 32 lane && okSegment seg
  | .helloReceived lane arg => below 32 lane && okBytes arg
  | .trigAckReceived lane arg => below 32 lane && okBytes arg
  | .statusReceived lane arg => below 32 lane && okBytes arg
  | .usmasSymbolBad lane _ arg => below 32 lane && okBytes arg
  | .helloSend lane => below 32 lane
  | .pauseRepeat lane => below 32 lane
  | .frameTimeout c => below 128 c
  | .pointerMismatch lane => below 32 lane
  | .queueFlush lane _ => below 32 lane
  | .flushLimit lane => below 32 lane
  | .ingClrCnt lane _ => below 32 lane
  | .queueWmWrite lane _ _ _ => below 32 lane
  | .chApply c _ => below 128 c
  | .playStart k _ => below 4 k
  | .playStop k _ => below 4 k
  | .playRecordRead k => below 4 k
  | .playPace k _ => below 4 k
  | .encoderCount n _ _ => below 4 n
  | .encoderZ e => below 4 e.n
  | .encPreset n _ _ => below 4 n
  | .speedSample => true
  | .markEdge m _ _ => below 4 m
  | .triggerFire c => below 128 c
  | .trigPulseEnd _ => true
  | .pitchCommit c _ _ => below 128 c
  | .trigEnable c _ => below 128 c
  | .trigDisable c _ => below 128 c
  | .tbStep _ _ => true
  | .tbSlew _ _ => true
  | .slewDone => true
  | .ptpRxStamp _ _ _ _ _ => true
  | .ptpTxtsPop _ => true
  | .stripeDispatch p => below 8 p
  | .stripeComplete p => below 8 p
  | .frameModeLine p => below 8 p
  | .exposureLineStored c _ _ => below 132 c
  | .holdCopy lane => below 32 lane
  | .holdCopyDone lane => below 32 lane
  | .spillCopyDone lane => below 32 lane
  | .ctxWindowWrite _ data _ => okBytes data
  | .ctxGo x _ _ _ => below 132 x
  | .ctxCancel x _ => below 132 x
  | .rollStart p _ _ => below 8 p
  | .rollStop _ => true
  | .rollWithdrawn => true
  | .rollInterval => true
  | .pipeFence p _ => below 8 p
  | .pipeFenceDone p => below 8 p
  | .pipeUnfence p _ => below 8 p
  | .pipeReset p _ => below 8 p
  | .pipeClrCnt p _ => below 8 p
  | .memberRowArrival => true
  | .tileLineEmit k _ _ => below 8 k
  | .joinWindowClose k _ => below 8 k
  | .seamPacketSend k _ _ => below 8 k
  | .seamPacketReceived data => okBytes data
  | .seamWaitExpiry k _ _ => below 8 k
  | .layoutWindowWrite _ data _ => okBytes data
  | .mrgGo k _ _ => below 8 k
  | .mrgCancel k _ => below 8 k
  | .mrgClrCnt _ => true
  | .holdMaxRead k _ => below 8 k
  | .alignmentTile k _ _ _ _ => below 8 k
  | .slotLoad sl _ => below 2 sl
  | .slotDone sl _ => below 2 sl
  | .slotCheckDone sl => below 2 sl
  | .slotClear sl _ => below 2 sl
  | .cmpWindowWrite _ data _ => okBytes data
  | .refGo k _ _ => below 8 k
  | .refCancel k _ => below 8 k
  | .refFence _ => true
  | .refFenceDone => true
  | .refReset _ => true
  | .refClrCnt _ => true
  | .productDone _ => true
  | .profCommit k _ => below 16 k
  | .tslFence _ => true
  | .tslFenceDone => true
  | .tslReset _ => true
  | .tslClrCnt _ => true
  | .deliveryStart _ => true
  | .classBBudgetExpiry st _ => below 256 st
  | .portSend p _ => below 8 p
  | .ackReceived q _ _ => below 256 q
  | .nakReceived q _ _ _ => below 256 q
  | .qpRetryTimeout q => below 256 q
  | .rnrTimer q => below 256 q
  | .cnpReceived cnp => below 256 cnp.q
  | .cnpRateInc q => below 256 q
  | .qpEnable q _ => below 256 q
  | .qpReset q _ => below 256 q
  | .egressLinkDown p => below 8 p
  | .egressLinkUp p => below 8 p
  | .pauseFrameReceived p _ _ _ => below 8 p
  | .rxFrameDiscard p => below 8 p
  | .creditBlock q snd => below 256 q && okBytes snd.data
  | .strConsWrite st c _ => below 256 st && below (2 ^ 32) c
  | .egrDropPop _ => true
  | .egrLatePop _ => true
  | .classDelaySet p _ _ _ => below 8 p
  | .egrFence _ => true
  | .egrFenceDone => true
  | .egrReset _ => true
  | .egrClrCnt _ => true
  | .badMessage q snd => below 256 q && okBytes snd.data
  | .accessRequest q snd => below 256 q && okBytes snd.data
  | .pieceComplete k _ _ => below 16 k
  | .pieceTimeout k _ => below 16 k
  | .readaheadExpiry q => below 256 q
  | .commandMessage q snd => below 256 q && okBytes snd.data
  | .winCommit w _ => below 16 w
  | .winCommitApply w => below 16 w
  | .brgFence _ => true
  | .brgFenceDone => true
  | .brgReset _ => true
  | .brgClrCnt _ => true
  | .jobStb _ => true
  | .jobSelect _ _ => true
  | .jobLoad _ _ => true
  | .jobLoadDone _ _ => true
  | .jobArm m _ _ => below 4 m
  | .jobCancel _ => true
  | .jobStop m _ _ => below 4 m
  | .jobQuery _ => true
  | .jobCtrlArm m _ _ _ => below 4 m
  | .jobCtrlCancel _ => true
  | .setNext _ _ => true
  | .drainDone => true
  | .startEntrySelect => true
  | .jobMsgPrepare _ _ m _ _ => below 4 m
  | .jobMsgArm _ _ m _ _ => below 4 m
  | .jobMsgCancel _ _ _ => true
  | .prepareTimeout => true
  | .prepareResend => true
  | .armDeadline => true
  | .nandMount _ => true
  | .patrolScrub _ _ => true
  | .blockOverdue _ => true
  | .catchupScrub _ _ => true
  | .wearLevel _ => true
  | .programFail _ _ _ => true
  | .eraseFail _ _ _ => true
  | .libPut _ _ _ _ => true
  | .libDelete _ _ => true
  | .libList _ _ _ => true
  | .libGet _ _ _ _ _ => true
  | .libVerify _ _ _ _ => true
  | .recorderProgram => true
  | .recQuery _ => true
  | .recGet _ _ _ _ _ => true
  | .recKeep _ _ _ => true
  | .recRelease _ _ _ => true
  | .recGibWrite _ _ => true
  | .stoFence _ => true
  | .stoFenceDone => true
  | .stoReset _ => true
  | .stoClrCnt _ => true
  | .memoryTransaction _ _ _ _ _ data _ _ => okBytes (data.getD [])
  | .priorityPromote _ => true
  | .mr4Poll ch _ => below 16 ch
  | .refresh ch => below 16 ch
  | .writeLinkPoll ch _ => below 16 ch
  | .memFence _ => true
  | .memFenceDone => true
  | .memReset _ => true
  | .memResetDone => true
  | .memClrCnt _ => true
  | .fabPacketReceived p hdr data _ _ _ _ => below 8 p && okBytes hdr && okBytes data
  | .fabAck p arg => below 8 p && okBytes arg
  | .fabNak p arg => below 8 p && okBytes arg
  | .fabCredit p arg => below 8 p && okBytes arg
  | .fabAlign p arg => below 8 p && okBytes arg
  | .linkReset p arg => below 8 p && okBytes arg
  | .fabSleepSymbol p arg => below 8 p && okBytes arg
  | .fabReplayTimeout p => below 8 p
  | .waymarkSend p => below 8 p
  | .waymarkReceived p data => below 8 p && okBytes data
  | .neighbourLost p => below 8 p
  | .rootUpdate => true
  | .linkStateSend => true
  | .linkStateReceived p data => below 8 p && okBytes data
  | .linkStateExpiry _ => true
  | .idAssign => true
  | .idTableReceived p data => below 8 p && okBytes data
  | .routeCommit _ _ => true
  | .ctrlRequestReceived p data => below 8 p && okBytes data
  | .ctrlReplyReceived p data => below 8 p && okBytes data
  | .ctrlTimeout _ => true
  | .timeRequestSend => true
  | .timeRequestReceived p data _ => below 8 p && okBytes data
  | .timeResponseReceived p data _ => below 8 p && okBytes data
  | .timeRateCorrect => true
  | .bulkPacketReceived p data => below 8 p && okBytes data
  | .bulkCommit _ _ _ _ _ => true
  | .lateErrorReceived p data => below 8 p && okBytes data
  | .fabLatePop _ => true
  | .fabPortWake p _ => below 8 p
  | .fabFence _ => true
  | .fabFenceDone => true
  | .fabReset _ => true
  | .fabClrCnt _ => true
  | .bootRead _ => true
  | .firmwareStart => true
  | .fwUpdate _ _ _ => true
  | .updateVerifyDone _ => true
  | .updateProgramDone _ => true
  | .updateReadbackDone _ => true
  | .fwActivate _ => true
  | .fwConfirm _ => true
  | .confirmTimeout => true
  | .loginBegin _ _ _ _ => true
  | .loginFinish msg _ _ => okBytes msg
  | .logout _ => true
  | .sessionIdleTimeout _ => true
  | .lockoutExpiry _ _ => true
  | .attest nonce _ _ => okBytes nonce
  | .attestKeysReady _ => true
  | .auditRecordDurable => true
  | .headSignDone => true
  | .auditRead _ _ _ _ _ => true
  | .auditSign _ => true
  | .auditRelease _ _ _ => true
  | .fuseProgram _ _ _ => true
  | .testUnlock _ => true
  | .decommission _ _ => true
  | .rngFail => true
  | .pageWrite data => okBytes data
  | .pageRead _ => true
  | .indirectComplete _ _ => true
  | .indirectTimeout => true
  | .cmdSubmit => true
  | .cmdAck => true
  | .portBind _ => true
  | .portUnbind _ => true
  | .evtForward q _ _ => below 256 q
  | .entdaa _ => true
  | .setdasa _ _ => true
  | .rstdaa => true
  | .enec _ _ => true
  | .disec _ _ => true
  | .getpid => true
  | .getbcr => true
  | .getdcr => true
  | .getstatus => true
  | .getmxds => true
  | .rstact _ => true
  | .cccUnsupported _ => true
  | .ibiRetry k _ => below 3 k
  | .sclTimeout => true
  | .sdaTimeout => true
  | .busAbort => true
  | .sdaRelease => true
  | .targetResetPattern => true
  | .evqPop _ => true
  | .bistRun unit _ _ _ => below 33 unit
  | .bistStop _ => true
  | .bistResult unit _ => below 33 unit
  | .bistLog _ _ => true
  | .bistTestEnd _ => true
  | .bistTimeout _ => true
  | .powerOn _ _ _ => true
  | .resetPin _ => true
  | .vaonLoss => true
  | .railLoss => true
  | .crystalStop => true
  | .lockstepMismatch => true
  | .watchdogTimeout => true
  | .mgtRestart _ => true
  | .mgtRestartDone _ _ => true
  | .pwrSleep _ _ _ => true
  | .pwrCtrlSleep _ => true
  | .sleepDrainDone => true
  | .sleepDrainLimit => true
  | .sleepEntered _ _ => true
  | .wakePin _ => true
  | .addressMatchWake _ => true
  | .botexWake lane _ => below 48 lane
  | .rtcAlarm _ => true
  | .wakeDone _ _ _ => true
  | .triggerResume => true
  | .pwrQuery _ => true
  | .pwrRtcSet _ _ => true
  | .pwrReset _ _ => true
  | .pipeGate _ _ => true
  | .pwrClrCnt _ => true
  | .tempSample temps => okBytes temps
  | .thermalTrip => true
  | .registerWrite a v _ => below (2 ^ 40) a && below (2 ^ 32) v
  | .stickyClear a mask _ => below (2 ^ 40) a && below (2 ^ 32) mask
  | .loReadLatch a _ => below (2 ^ 40) a
  | .hiWriteApply a v _ => below (2 ^ 40) a && below (2 ^ 32) v
  | .inputLineRelease _ _ => true
  | .outputPortServe p => below 8 p
  | .blockResetDone u => below 33 u

end Sys2Proof
end

