-- ==== Sys2Proof/Machine/Fld.lean ====
section
/-! DEFINITION. What a register field and a row of the register map are. -/

namespace Sys2Proof.Machine

/-- A field: a cell of `width` bits per instance that reads `reset` until it is written. `id` is 32 times the address
of the register in instance 0 plus the field's lowest bit; internal cells lie above the 40-bit space. -/
structure Fld where
  id : Nat
  width : Nat
  reset : Nat
  deriving DecidableEq, Repr

/-- How a field answers an access (00_scope.md R6). `cnt` is a read-only saturating counter (R515), `vw` a read-only
value computed from other state. -/
inductive Access where
  | rw | ro | wo | w1c | rc | cnt | vw
  deriving DecidableEq, Repr

/-- Bits `lo` to `lo + len - 1` of a register hold bits `shift` and up of a field; `role` is the least role that may
change it (17_roles_security_audit.md R417). -/
structure RegField where
  lo : Nat
  len : Nat
  fld : Fld
  shift : Nat
  acc : Access
  role : Role
  deriving DecidableEq, Repr

/-- A register at `base`, repeated `count` times every `stride` bytes; where `sub` is 4 each byte of it is an instance
of its own. -/
structure RegRow where
  base : Nat
  stride : Nat
  count : Nat
  sub : Nat
  fields : List RegField
  deriving DecidableEq, Repr

end Sys2Proof.Machine
end

