-- ==== Sys2Proof/Machine/Fields.lean ====
section
/-! DEFINITION. The register fields of the FZ-A128 as the field tables of the chapters give them, and the internal
scalar cells the chapters' rules imply. Each is one cell per instance of `State.cells`. -/

namespace Sys2Proof.Machine

/-- `MGT_EVQ_STATUS.LEVEL` (01_frame_journey.md R17). -/
def Fld.MGT_EVQ_STATUS_LEVEL : Fld := ⟨32768, 11, 0⟩
/-- `MGT_EVQ_STATUS.EMPTY` (01_frame_journey.md R17). -/
def Fld.MGT_EVQ_STATUS_EMPTY : Fld := ⟨32784, 1, 1⟩
/-- `MGT_EVQ_STATUS.FULL` (01_frame_journey.md R17). -/
def Fld.MGT_EVQ_STATUS_FULL : Fld := ⟨32785, 1, 0⟩
/-- `MGT_EVQ_STATUS.OVF` (01_frame_journey.md R17). -/
def Fld.MGT_EVQ_STATUS_OVF : Fld := ⟨32786, 1, 0⟩
/-- `MGT_EVQ_POP.POP` (01_frame_journey.md R20). -/
def Fld.MGT_EVQ_POP : Fld := ⟨32896, 1, 0⟩
/-- `MGT_EVQ_LOST.COUNT` (01_frame_journey.md R18). -/
def Fld.MGT_EVQ_LOST : Fld := ⟨33024, 32, 0⟩
/-- `MGT_EVQ_NEXT_SEQ.SEQ` (01_frame_journey.md R18). -/
def Fld.MGT_EVQ_NEXT_SEQ : Fld := ⟨33152, 16, 0⟩
/-- `MGT_EVQ_HEAD.DATA` (01_frame_journey.md R20). -/
def Fld.MGT_EVQ_HEAD : Fld := ⟨33280, 32, 0⟩
/-- `MGT_I3C_STATUS.DYN_ADDR` (18_i3c_management_port.md R440). -/
def Fld.MGT_I3C_STATUS_DYN_ADDR : Fld := ⟨49152, 7, 0⟩
/-- `MGT_I3C_STATUS.DA_VALID` (18_i3c_management_port.md R440). -/
def Fld.MGT_I3C_STATUS_DA_VALID : Fld := ⟨49159, 1, 0⟩
/-- `MGT_I3C_STATUS.ADDR_SEL` (18_i3c_management_port.md R440). -/
def Fld.MGT_I3C_STATUS_ADDR_SEL : Fld := ⟨49160, 2, 0⟩
/-- `MGT_I3C_STATUS.IBI_EN` (18_i3c_management_port.md R440). -/
def Fld.MGT_I3C_STATUS_IBI_EN : Fld := ⟨49162, 1, 0⟩
/-- `MGT_I3C_STATUS.BOUND` (18_i3c_management_port.md R440). -/
def Fld.MGT_I3C_STATUS_BOUND : Fld := ⟨49163, 1, 0⟩
/-- `MGT_I3C_STATUS.BOUND_SESSION` (18_i3c_management_port.md R440). -/
def Fld.MGT_I3C_STATUS_BOUND_SESSION : Fld := ⟨49168, 16, 0⟩
/-- `MGT_I3C_CFG.RST_DEV_EN` (18_i3c_management_port.md R457). -/
def Fld.MGT_I3C_CFG_RST_DEV_EN : Fld := ⟨49280, 1, 0⟩
/-- `MGT_I3C_EVENTS.EV` (18_i3c_management_port.md R461). -/
def Fld.MGT_I3C_EVENTS_EV : Fld := ⟨49408, 7, 0⟩
/-- `MGT_I3C_EVENT_EN.EN` (18_i3c_management_port.md R461). -/
def Fld.MGT_I3C_EVENT_EN : Fld := ⟨49536, 8, 255⟩
/-- `MGT_I3C_CNT_XFER.COUNT` (18_i3c_management_port.md R441). -/
def Fld.MGT_I3C_CNT_XFER : Fld := ⟨49664, 32, 0⟩
/-- `MGT_I3C_CNT_ABORT.COUNT` (18_i3c_management_port.md R454). -/
def Fld.MGT_I3C_CNT_ABORT : Fld := ⟨49792, 32, 0⟩
/-- `MGT_I3C_CNT_TIMEOUT.COUNT` (18_i3c_management_port.md R445). -/
def Fld.MGT_I3C_CNT_TIMEOUT : Fld := ⟨49920, 32, 0⟩
/-- `MGT_I3C_CNT_IBI_NACK.COUNT` (18_i3c_management_port.md R452). -/
def Fld.MGT_I3C_CNT_IBI_NACK : Fld := ⟨50048, 32, 0⟩
/-- `MGT_REJ_STATUS.LEVEL` (18_i3c_management_port.md R451). -/
def Fld.MGT_REJ_STATUS_LEVEL : Fld := ⟨57344, 7, 0⟩
/-- `MGT_REJ_STATUS.REJECTED` (18_i3c_management_port.md R451). -/
def Fld.MGT_REJ_STATUS_REJECTED : Fld := ⟨57352, 1, 0⟩
/-- `MGT_REJ_STATUS.TOTAL` (18_i3c_management_port.md R451). -/
def Fld.MGT_REJ_STATUS_TOTAL : Fld := ⟨57360, 16, 0⟩
/-- `MGT_REJ_SEL.INDEX` (18_i3c_management_port.md R451). -/
def Fld.MGT_REJ_SEL_INDEX : Fld := ⟨57472, 6, 0⟩
/-- `MGT_REJ_ENTRY.DATA` (18_i3c_management_port.md R451). -/
def Fld.MGT_REJ_ENTRY : Fld := ⟨57856, 32, 0⟩
/-- 20_power_sleep_reset.md R486; internal, no register: generation of a block instance; instance is the interface index of R488 -/
def Fld.MGT_H_GEN : Fld := ⟨35184372088832, 8, 0⟩
/-- 18_i3c_management_port.md R441; internal, no register: page pointer -/
def Fld.I3C_H_PTR : Fld := ⟨35184372088833, 8, 0⟩
/-- 18_i3c_management_port.md R452; internal, no register: page byte 0x10 -/
def Fld.I3C_H_NOTIFY : Fld := ⟨35184372088834, 8, 7⟩
/-- 18_i3c_management_port.md R447; internal, no register: command state, page byte 0x41 -/
def Fld.I3C_H_CMD : Fld := ⟨35184372088835, 2, 0⟩
/-- 18_i3c_management_port.md R447; internal, no register: reply length, page bytes 0x44 to 0x47 -/
def Fld.I3C_H_REPLY : Fld := ⟨35184372088836, 32, 0⟩
/-- 18_i3c_management_port.md R441; internal, no register: page bytes 0x7E and 0x7F -/
def Fld.I3C_H_BUF_OFF : Fld := ⟨35184372088837, 16, 0⟩
/-- 18_i3c_management_port.md R442; internal, no register: indirect address, page bytes 0xF0 to 0xF4 -/
def Fld.I3C_H_IADDR : Fld := ⟨35184372088838, 40, 0⟩
/-- 18_i3c_management_port.md R442; internal, no register: indirect data as written, page bytes 0xF8 to 0xFB -/
def Fld.I3C_H_IDATA : Fld := ⟨35184372088839, 32, 0⟩
/-- 18_i3c_management_port.md R444; internal, no register: an indirect access is pending -/
def Fld.I3C_H_BUSY : Fld := ⟨35184372088840, 1, 0⟩
/-- 18_i3c_management_port.md R442; internal, no register: address of the pending access -/
def Fld.I3C_H_PADDR : Fld := ⟨35184372088841, 40, 0⟩
/-- 18_i3c_management_port.md R442; internal, no register: the pending access is a write -/
def Fld.I3C_H_PWRITE : Fld := ⟨35184372088842, 1, 0⟩
/-- 18_i3c_management_port.md R445; internal, no register: accesses given up whose completion will be dropped with LATE_DROP -/
def Fld.I3C_H_PLATE : Fld := ⟨35184372088843, 8, 0⟩
/-- 20_power_sleep_reset.md R487; internal, no register: accesses to a block since reset whose completion will be dropped as stale -/
def Fld.I3C_H_PSTALE : Fld := ⟨35184372088844, 8, 0⟩
/-- 18_i3c_management_port.md R442; internal, no register: the address was written while the read is pending; its data is discarded -/
def Fld.I3C_H_PDROP : Fld := ⟨35184372088845, 1, 0⟩
/-- 18_i3c_management_port.md R453; internal, no register: bytes that a stretched I2C read has still to send -/
def Fld.I3C_H_RLEFT : Fld := ⟨35184372088846, 16, 0⟩
/-- 18_i3c_management_port.md R442; internal, no register: data of the pending write -/
def Fld.I3C_H_PDATA : Fld := ⟨35184372088847, 32, 0⟩
/-- 18_i3c_management_port.md R442; internal, no register: 0, or 1 more than the outputs given when the pending write reached its target; its status is awaited -/
def Fld.I3C_H_PMADE : Fld := ⟨35184372088848, 64, 0⟩
/-- 18_i3c_management_port.md R443; internal, no register: read data is held -/
def Fld.I3C_H_HELD : Fld := ⟨35184372088849, 1, 0⟩
/-- 18_i3c_management_port.md R443; internal, no register: status of the held read -/
def Fld.I3C_H_HSTAT : Fld := ⟨35184372088850, 8, 0⟩
/-- 18_i3c_management_port.md R443; internal, no register: data of the held read -/
def Fld.I3C_H_HDATA : Fld := ⟨35184372088851, 32, 0⟩
/-- 18_i3c_management_port.md R442; internal, no register: last status, page byte 0xFC -/
def Fld.I3C_H_LAST : Fld := ⟨35184372088852, 8, 0⟩
/-- 18_i3c_management_port.md R442; internal, no register: completed indirect accesses, page bytes 0xFE and 0xFF -/
def Fld.I3C_H_DONE : Fld := ⟨35184372088853, 16, 0⟩
/-- 18_i3c_management_port.md R440; internal, no register: 1 in I3C mode (a dynamic address is assigned) -/
def Fld.I3C_H_MODE : Fld := ⟨35184372088854, 1, 0⟩
/-- 18_i3c_management_port.md R457; internal, no register: last RSTACT defining byte -/
def Fld.I3C_H_RSTACT : Fld := ⟨35184372088855, 8, 1⟩
/-- 18_i3c_management_port.md R440; internal, no register: protocol error since the last GETSTATUS -/
def Fld.I3C_H_PROTERR : Fld := ⟨35184372088856, 1, 0⟩
/-- 18_i3c_management_port.md R452; internal, no register: enabled causes true when last looked at -/
def Fld.I3C_H_CAUSE : Fld := ⟨35184372088857, 3, 0⟩
/-- 18_i3c_management_port.md R452; internal, no register: IBIs waiting to be raised again -/
def Fld.I3C_H_IBI : Fld := ⟨35184372088858, 3, 0⟩
/-- 18_i3c_management_port.md R456; internal, no register: a transfer was left unfinished -/
def Fld.I3C_H_SDA : Fld := ⟨35184372088859, 1, 0⟩
/-- 18_i3c_management_port.md R452; internal, no register: IRQ_N is driven low -/
def Fld.MGT_H_IRQ : Fld := ⟨35184372088860, 1, 0⟩
/-- 18_i3c_management_port.md R440; internal, no register: level of the pins ADDR_SEL -/
def Fld.MGT_H_PINSEL : Fld := ⟨35184372088861, 2, 0⟩
/-- `LANE_ID.LANE` (02_lane_complex.md R22). -/
def Fld.LANE_ID_LANE : Fld := ⟨33554432, 6, 0⟩
/-- `LANE_ID.QUAD` (02_lane_complex.md R22). -/
def Fld.LANE_ID_QUAD : Fld := ⟨33554440, 4, 0⟩
/-- `LANE_ID.ROLE` (02_lane_complex.md R22). -/
def Fld.LANE_ID_ROLE : Fld := ⟨33554444, 3, 0⟩
/-- `LANE_ID.PORT` (02_lane_complex.md R22). -/
def Fld.LANE_ID_PORT : Fld := ⟨33554448, 4, 15⟩
/-- `LANE_CTRL.ENABLE` (02_lane_complex.md R43). -/
def Fld.LANE_CTRL_ENABLE : Fld := ⟨33554560, 1, 0⟩
/-- `LANE_CTRL.RETRAIN` (02_lane_complex.md R43). -/
def Fld.LANE_CTRL_RETRAIN : Fld := ⟨33554561, 1, 0⟩
/-- `LANE_CTRL.CLR_CNT` (02_lane_complex.md R43). -/
def Fld.LANE_CTRL_CLR_CNT : Fld := ⟨33554562, 1, 0⟩
/-- `LANE_CTRL.MAX_RUNG` (02_lane_complex.md R43). -/
def Fld.LANE_CTRL_MAX_RUNG : Fld := ⟨33554564, 3, 0⟩
/-- `LANE_CTRL.TX_NAP_EN` (02_lane_complex.md R43). -/
def Fld.LANE_CTRL_TX_NAP_EN : Fld := ⟨33554568, 1, 0⟩
/-- `LANE_CTRL.NAP_TIMEOUT_MS` (02_lane_complex.md R43). -/
def Fld.LANE_CTRL_NAP_TIMEOUT_MS : Fld := ⟨33554576, 16, 1000⟩
/-- `LANE_STATUS.STATE` (02_lane_complex.md R43). -/
def Fld.LANE_STATUS_STATE : Fld := ⟨33554688, 3, 0⟩
/-- `LANE_STATUS.RUNG` (02_lane_complex.md R43). -/
def Fld.LANE_STATUS_RUNG : Fld := ⟨33554692, 3, 0⟩
/-- `LANE_STATUS.PARTNER_MASK` (02_lane_complex.md R43). -/
def Fld.LANE_STATUS_PARTNER_MASK : Fld := ⟨33554696, 5, 0⟩
/-- `LANE_STATUS.LEADER` (02_lane_complex.md R43). -/
def Fld.LANE_STATUS_LEADER : Fld := ⟨33554701, 1, 0⟩
/-- `LANE_STATUS.SIG` (02_lane_complex.md R43). -/
def Fld.LANE_STATUS_SIG : Fld := ⟨33554702, 1, 0⟩
/-- `LANE_STATUS.CDR_LOCK` (02_lane_complex.md R43). -/
def Fld.LANE_STATUS_CDR_LOCK : Fld := ⟨33554703, 1, 0⟩
/-- `LANE_STATUS.TX_NAP` (02_lane_complex.md R43). -/
def Fld.LANE_STATUS_TX_NAP : Fld := ⟨33554704, 1, 0⟩
/-- `LANE_STATUS.RX_NAP` (02_lane_complex.md R43). -/
def Fld.LANE_STATUS_RX_NAP : Fld := ⟨33554705, 1, 0⟩
/-- `LANE_STATUS.EXCLUDED` (02_lane_complex.md R43). -/
def Fld.LANE_STATUS_EXCLUDED : Fld := ⟨33554706, 5, 0⟩
/-- `LANE_STATUS.FAIL_COUNT` (02_lane_complex.md R43). -/
def Fld.LANE_STATUS_FAIL_COUNT : Fld := ⟨33554712, 8, 0⟩
/-- `LANE_REASON.LAST` (02_lane_complex.md R47). -/
def Fld.LANE_REASON_LAST : Fld := ⟨33554816, 8, 0⟩
/-- `LANE_REASON.RUNG` (02_lane_complex.md R47). -/
def Fld.LANE_REASON_RUNG : Fld := ⟨33554824, 3, 0⟩
/-- `LANE_REASON.BACKOFF_LEFT_MS` (02_lane_complex.md R47). -/
def Fld.LANE_REASON_BACKOFF_LEFT_MS : Fld := ⟨33554832, 16, 0⟩
/-- `LANE_EVENTS.EV` (02_lane_complex.md R57). -/
def Fld.LANE_EVENTS_EV : Fld := ⟨33554944, 8, 0⟩
/-- `LANE_EVENT_EN.EN` (02_lane_complex.md R57). -/
def Fld.LANE_EVENT_EN : Fld := ⟨33555072, 8, 87⟩
/-- `LANE_EQ_SEL.RUNG` (02_lane_complex.md R37). -/
def Fld.LANE_EQ_SEL_RUNG : Fld := ⟨33555328, 3, 0⟩
/-- `LANE_EQ_TX.PRE2` (02_lane_complex.md R35). -/
def Fld.LANE_EQ_TX_PRE2 : Fld := ⟨33555456, 8, 0⟩
/-- `LANE_EQ_TX.PRE1` (02_lane_complex.md R35). -/
def Fld.LANE_EQ_TX_PRE1 : Fld := ⟨33555464, 8, 250⟩
/-- `LANE_EQ_TX.MAIN` (02_lane_complex.md R35). -/
def Fld.LANE_EQ_TX_MAIN : Fld := ⟨33555472, 8, 48⟩
/-- `LANE_EQ_TX.POST1` (02_lane_complex.md R35). -/
def Fld.LANE_EQ_TX_POST1 : Fld := ⟨33555480, 8, 247⟩
/-- `LANE_EQ_RX.CTLE` (02_lane_complex.md R35). -/
def Fld.LANE_EQ_RX_CTLE : Fld := ⟨33555584, 8, 12⟩
/-- `LANE_EQ_RX.VGA` (02_lane_complex.md R35). -/
def Fld.LANE_EQ_RX_VGA : Fld := ⟨33555592, 8, 32⟩
/-- `LANE_EQ_RX.DFE1` (02_lane_complex.md R35). -/
def Fld.LANE_EQ_RX_DFE1 : Fld := ⟨33555600, 8, 0⟩
/-- `LANE_EQ_RX.DFE2` (02_lane_complex.md R35). -/
def Fld.LANE_EQ_RX_DFE2 : Fld := ⟨33555608, 8, 0⟩
/-- `LANE_EQ_RX2.DFE3` (02_lane_complex.md R35). -/
def Fld.LANE_EQ_RX2_DFE3 : Fld := ⟨33555712, 8, 0⟩
/-- `LANE_EQ_RX2.RX_INV` (02_lane_complex.md R35). -/
def Fld.LANE_EQ_RX2_RX_INV : Fld := ⟨33555720, 1, 0⟩
/-- `LANE_EQ_RX2.TX_INV` (02_lane_complex.md R35). -/
def Fld.LANE_EQ_RX2_TX_INV : Fld := ⟨33555721, 1, 0⟩
/-- `LANE_EQ_RX2.SRC` (02_lane_complex.md R35). -/
def Fld.LANE_EQ_RX2_SRC : Fld := ⟨33555724, 2, 1⟩
/-- `LANE_EQ_RX2.COMMIT` (02_lane_complex.md R35). -/
def Fld.LANE_EQ_RX2_COMMIT : Fld := ⟨33555726, 1, 0⟩
/-- `LANE_CNT_CORR.COUNT` (02_lane_complex.md R45). -/
def Fld.LANE_CNT_CORR : Fld := ⟨33555968, 32, 0⟩
/-- `LANE_CNT_UNCORR.COUNT` (02_lane_complex.md R45). -/
def Fld.LANE_CNT_UNCORR : Fld := ⟨33556096, 32, 0⟩
/-- `LANE_CNT_LOS.COUNT` (02_lane_complex.md R45). -/
def Fld.LANE_CNT_LOS : Fld := ⟨33556224, 32, 0⟩
/-- `LANE_CNT_FAIL.COUNT` (02_lane_complex.md R45). -/
def Fld.LANE_CNT_FAIL : Fld := ⟨33556352, 32, 0⟩
/-- `LANE_IDLE.IDLE_MS` (02_lane_complex.md R50). -/
def Fld.LANE_IDLE_IDLE_MS : Fld := ⟨33556480, 24, 0⟩
/-- `LANE_IDLE.DTJ` (02_lane_complex.md R50). -/
def Fld.LANE_IDLE_DTJ : Fld := ⟨33556504, 8, 0⟩
/-- `LANE_EYE_CTRL.PHASE` (02_lane_complex.md R55). -/
def Fld.LANE_EYE_CTRL_PHASE : Fld := ⟨33556992, 6, 0⟩
/-- `LANE_EYE_CTRL.VOLT` (02_lane_complex.md R55). -/
def Fld.LANE_EYE_CTRL_VOLT : Fld := ⟨33557000, 7, 0⟩
/-- `LANE_EYE_CTRL.EYE` (02_lane_complex.md R55). -/
def Fld.LANE_EYE_CTRL_EYE : Fld := ⟨33557008, 2, 1⟩
/-- `LANE_EYE_CTRL.LOG2_SAMPLES` (02_lane_complex.md R55). -/
def Fld.LANE_EYE_CTRL_LOG2_SAMPLES : Fld := ⟨33557012, 5, 20⟩
/-- `LANE_EYE_CTRL.START` (02_lane_complex.md R55). -/
def Fld.LANE_EYE_CTRL_START : Fld := ⟨33557023, 1, 0⟩
/-- `LANE_EYE_STATUS.BUSY` (02_lane_complex.md R56). -/
def Fld.LANE_EYE_STATUS_BUSY : Fld := ⟨33557120, 1, 0⟩
/-- `LANE_EYE_STATUS.DONE` (02_lane_complex.md R56). -/
def Fld.LANE_EYE_STATUS_DONE : Fld := ⟨33557121, 1, 0⟩
/-- `LANE_EYE_STATUS.ABORTED` (02_lane_complex.md R56). -/
def Fld.LANE_EYE_STATUS_ABORTED : Fld := ⟨33557122, 1, 0⟩
/-- `LANE_EYE_STATUS.ABORT_REASON` (02_lane_complex.md R56). -/
def Fld.LANE_EYE_STATUS_ABORT_REASON : Fld := ⟨33557124, 4, 0⟩
/-- `LANE_EYE_STATUS.RESTARTS` (02_lane_complex.md R56). -/
def Fld.LANE_EYE_STATUS_RESTARTS : Fld := ⟨33557128, 8, 0⟩
/-- `LANE_EYE_ERR.COUNT` (02_lane_complex.md R55). -/
def Fld.LANE_EYE_ERR : Fld := ⟨33557248, 32, 0⟩
/-- 02_lane_complex.md R43; internal, no register: consecutive valid training sequences received, saturating at 7 -/
def Fld.LANE_H_LTS_RUN : Fld := ⟨35184373137438, 3, 0⟩
/-- 02_lane_complex.md R41; internal, no register: consecutive acknowledge sequences carrying the proposed rung -/
def Fld.LANE_H_ACK_RUN : Fld := ⟨35184373137439, 4, 0⟩
/-- 02_lane_complex.md R41; internal, no register: step sequences received by a follower -/
def Fld.LANE_H_STEP_RUN : Fld := ⟨35184373137440, 5, 0⟩
/-- 02_lane_complex.md R41; internal, no register: the 16 step sequences are being sent, so a rate change is due -/
def Fld.LANE_H_STEP_SENT : Fld := ⟨35184373137441, 1, 0⟩
/-- 02_lane_complex.md R41; internal, no register: the rung proposed or acknowledged -/
def Fld.LANE_H_RUNG_AGREED : Fld := ⟨35184373137442, 3, 0⟩
/-- 02_lane_complex.md R31; internal, no register: the 8 us offset measurement is complete -/
def Fld.LANE_H_OFFS_DONE : Fld := ⟨35184373137443, 1, 0⟩
/-- 02_lane_complex.md R31; internal, no register: the measured difference exceeds 200 ppm -/
def Fld.LANE_H_OFFS_BAD : Fld := ⟨35184373137444, 1, 0⟩
/-- 02_lane_complex.md R43; internal, no register: block lock or codeword alignment holds -/
def Fld.LANE_H_BLOCK : Fld := ⟨35184373137445, 1, 0⟩
/-- 02_lane_complex.md R42; internal, no register: local verdict: 0 none, 1 pass, 2 fail -/
def Fld.LANE_H_VERD_L : Fld := ⟨35184373137446, 2, 0⟩
/-- 02_lane_complex.md R42; internal, no register: partner's verdict: 0 none, 1 pass, 2 fail -/
def Fld.LANE_H_VERD_P : Fld := ⟨35184373137447, 2, 0⟩
/-- 02_lane_complex.md R43; internal, no register: the lane has been ACTIVE for 1 s -/
def Fld.LANE_H_STABLE : Fld := ⟨35184373137448, 1, 0⟩
/-- 02_lane_complex.md R25; internal, no register: rung limit set by the port's other lane -/
def Fld.LANE_H_LIMIT : Fld := ⟨35184373137449, 3, 4⟩
/-- 02_lane_complex.md R54; internal, no register: training on wake proposes the kept rung first -/
def Fld.LANE_H_RESUME : Fld := ⟨35184373137450, 1, 0⟩
/-- 02_lane_complex.md R50; internal, no register: a trim pass runs -/
def Fld.LANE_H_TRIM : Fld := ⟨35184373137451, 1, 0⟩
/-- 02_lane_complex.md R51; internal, no register: slicer the next service trim corrects -/
def Fld.LANE_H_SLICER : Fld := ⟨35184373137452, 8, 0⟩
/-- 02_lane_complex.md R43; internal, no register: the lane has failed STEP or VERIFY and is back at rung 0, but has not entered NEGOTIATE again -/
def Fld.LANE_H_RETURN : Fld := ⟨35184373137453, 1, 0⟩
/-- 02_lane_complex.md R49; internal, no register: the receiver has seen only idle sets since the last payload -/
def Fld.LANE_H_IDLE : Fld := ⟨35184373137454, 1, 0⟩
/-- 02_lane_complex.md R45; internal, no register: the device's running time in ns at which the wait in BACKOFF ends -/
def Fld.LANE_H_BOEND : Fld := ⟨35184373137455, 64, 0⟩
/-- `ING_LANE_STATUS.USMAS_STATE` (03_camera_ingress.md R72). -/
def Fld.ING_LANE_STATUS_USMAS_STATE : Fld := ⟨41943040, 2, 0⟩
/-- `ING_LANE_STATUS.VER` (03_camera_ingress.md R72). -/
def Fld.ING_LANE_STATUS_VER : Fld := ⟨41943044, 2, 0⟩
/-- `ING_LANE_STATUS.MINOR` (03_camera_ingress.md R72). -/
def Fld.ING_LANE_STATUS_MINOR : Fld := ⟨41943048, 8, 0⟩
/-- `ING_LANE_STATUS.HEAD_VC` (03_camera_ingress.md R72). -/
def Fld.ING_LANE_STATUS_HEAD_VC : Fld := ⟨41943056, 4, 0⟩
/-- `ING_LANE_STATUS.PAUSED` (03_camera_ingress.md R72). -/
def Fld.ING_LANE_STATUS_PAUSED : Fld := ⟨41943060, 1, 0⟩
/-- `ING_QUEUE_CTRL.FLUSH` (03_camera_ingress.md R87). -/
def Fld.ING_QUEUE_CTRL_FLUSH : Fld := ⟨41943168, 1, 0⟩
/-- `ING_QUEUE_CTRL.PAUSE_EN` (03_camera_ingress.md R87). -/
def Fld.ING_QUEUE_CTRL_PAUSE_EN : Fld := ⟨41943169, 1, 1⟩
/-- `ING_QUEUE_CTRL.CLR_CNT` (03_camera_ingress.md R87). -/
def Fld.ING_QUEUE_CTRL_CLR_CNT : Fld := ⟨41943170, 1, 0⟩
/-- `ING_QUEUE_LEVEL.LEVEL` (03_camera_ingress.md R81). -/
def Fld.ING_QUEUE_LEVEL_LEVEL : Fld := ⟨41943296, 17, 0⟩
/-- `ING_QUEUE_LEVEL.ABOVE` (03_camera_ingress.md R81). -/
def Fld.ING_QUEUE_LEVEL_ABOVE : Fld := ⟨41943313, 1, 0⟩
/-- `ING_QUEUE_LEVEL.FLUSHING` (03_camera_ingress.md R81). -/
def Fld.ING_QUEUE_LEVEL_FLUSHING : Fld := ⟨41943314, 1, 0⟩
/-- `ING_QUEUE_LEVEL.DESC` (03_camera_ingress.md R81). -/
def Fld.ING_QUEUE_LEVEL_DESC : Fld := ⟨41943315, 13, 0⟩
/-- `ING_QUEUE_HWM.WM` (03_camera_ingress.md R83). -/
def Fld.ING_QUEUE_HWM : Fld := ⟨41943424, 17, 61440⟩
/-- `ING_QUEUE_LWM.WM` (03_camera_ingress.md R83). -/
def Fld.ING_QUEUE_LWM : Fld := ⟨41943552, 17, 57344⟩
/-- `ING_QUEUE_EVENTS.EV` (03_camera_ingress.md R92). -/
def Fld.ING_QUEUE_EVENTS_EV : Fld := ⟨41943680, 6, 0⟩
/-- `ING_QUEUE_CROSS.COUNT` (03_camera_ingress.md R83). -/
def Fld.ING_QUEUE_CROSS_COUNT : Fld := ⟨41943808, 16, 0⟩
/-- `ING_QUEUE_CROSS.RESETS` (03_camera_ingress.md R83). -/
def Fld.ING_QUEUE_CROSS_RESETS : Fld := ⟨41943824, 16, 0⟩
/-- `ING_LANE_CNT_SEGERR.COUNT` (03_camera_ingress.md R62). -/
def Fld.ING_LANE_CNT_SEGERR : Fld := ⟨41944064, 32, 0⟩
/-- `ING_LANE_CNT_SEGLOST.COUNT` (03_camera_ingress.md R62). -/
def Fld.ING_LANE_CNT_SEGLOST : Fld := ⟨41944192, 32, 0⟩
/-- `ING_LANE_CNT_ECC.CORR` (03_camera_ingress.md R75). -/
def Fld.ING_LANE_CNT_ECC_CORR : Fld := ⟨41944320, 16, 0⟩
/-- `ING_LANE_CNT_ECC.UNCORR` (03_camera_ingress.md R75). -/
def Fld.ING_LANE_CNT_ECC_UNCORR : Fld := ⟨41944336, 16, 0⟩
/-- `ING_LANE_CNT_DISCARD.COUNT` (03_camera_ingress.md R63). -/
def Fld.ING_LANE_CNT_DISCARD : Fld := ⟨41944448, 32, 0⟩
/-- `ING_LANE_CNT_OVF.COUNT` (03_camera_ingress.md R82). -/
def Fld.ING_LANE_CNT_OVF : Fld := ⟨41944576, 32, 0⟩
/-- `ING_LANE_HEAD.TEMP` (03_camera_ingress.md R67). -/
def Fld.ING_LANE_HEAD_TEMP : Fld := ⟨41944704, 8, 0⟩
/-- `ING_LANE_HEAD.FILL` (03_camera_ingress.md R67). -/
def Fld.ING_LANE_HEAD_FILL : Fld := ⟨41944712, 8, 0⟩
/-- `ING_LANE_HEAD.FAULT` (03_camera_ingress.md R67). -/
def Fld.ING_LANE_HEAD_FAULT : Fld := ⟨41944720, 1, 0⟩
/-- `ING_LANE_HEAD.VALID` (03_camera_ingress.md R67). -/
def Fld.ING_LANE_HEAD_VALID : Fld := ⟨41944735, 1, 0⟩
/-- 03_camera_ingress.md R82; internal, no register: packets of the lane are discarded until the level falls to LWM -/
def Fld.ING_H_FULL : Fld := ⟨35184373399600, 1, 0⟩
/-- 03_camera_ingress.md R62; internal, no register: a sequence reference is held -/
def Fld.ING_H_SEQ_VALID : Fld := ⟨35184373399601, 1, 0⟩
/-- 03_camera_ingress.md R62; internal, no register: sequence number of the last accepted segment -/
def Fld.ING_H_SEQ : Fld := ⟨35184373399602, 8, 0⟩
/-- 03_camera_ingress.md R87; internal, no register: bytes received while the flush waits; 32 make a word -/
def Fld.ING_H_FLUSH_BYTES : Fld := ⟨35184373399603, 18, 0⟩
/-- 03_camera_ingress.md R86; internal, no register: write pointer, first copy -/
def Fld.ING_H_WPTR_A : Fld := ⟨35184373399604, 17, 0⟩
/-- 03_camera_ingress.md R86; internal, no register: write pointer, second copy -/
def Fld.ING_H_WPTR_B : Fld := ⟨35184373399605, 17, 0⟩
/-- 03_camera_ingress.md R86; internal, no register: read pointer, first copy -/
def Fld.ING_H_RPTR_A : Fld := ⟨35184373399606, 17, 0⟩
/-- 03_camera_ingress.md R86; internal, no register: read pointer, second copy -/
def Fld.ING_H_RPTR_B : Fld := ⟨35184373399607, 17, 0⟩
/-- `ING_CH_CFG.EN` (03_camera_ingress.md R76). -/
def Fld.ING_CH_CFG_EN : Fld := ⟨42467328, 1, 0⟩
/-- `ING_CH_CFG.LS_MODE` (03_camera_ingress.md R76). -/
def Fld.ING_CH_CFG_LS_MODE : Fld := ⟨42467329, 1, 0⟩
/-- `ING_CH_CFG.EXPOSURES` (03_camera_ingress.md R76). -/
def Fld.ING_CH_CFG_EXPOSURES : Fld := ⟨42467330, 2, 0⟩
/-- `ING_CH_CFG.APPLY` (03_camera_ingress.md R76). -/
def Fld.ING_CH_CFG_APPLY : Fld := ⟨42467332, 1, 0⟩
/-- `ING_CH_CFG.DT` (03_camera_ingress.md R76). -/
def Fld.ING_CH_CFG_DT : Fld := ⟨42467336, 6, 44⟩
/-- `ING_CH_SIZE.WIDTH` (03_camera_ingress.md R76). -/
def Fld.ING_CH_SIZE_WIDTH : Fld := ⟨42467456, 16, 0⟩
/-- `ING_CH_SIZE.HEIGHT` (03_camera_ingress.md R76). -/
def Fld.ING_CH_SIZE_HEIGHT : Fld := ⟨42467472, 16, 0⟩
/-- `ING_CH_FILL.FILL` (03_camera_ingress.md R76). -/
def Fld.ING_CH_FILL : Fld := ⟨42467584, 20, 0⟩
/-- `ING_CH_TIMEOUT.FRAME_TIMEOUT_US` (03_camera_ingress.md R76). -/
def Fld.ING_CH_TIMEOUT_FRAME_TIMEOUT_US : Fld := ⟨42467712, 24, 10000⟩
/-- `ING_CH_STATUS.OPEN` (03_camera_ingress.md R79). -/
def Fld.ING_CH_STATUS_OPEN : Fld := ⟨42467840, 1, 0⟩
/-- `ING_CH_STATUS.EXPOSURE` (03_camera_ingress.md R79). -/
def Fld.ING_CH_STATUS_EXPOSURE : Fld := ⟨42467841, 2, 0⟩
/-- `ING_CH_STATUS.SHADOW_PENDING` (03_camera_ingress.md R79). -/
def Fld.ING_CH_STATUS_SHADOW_PENDING : Fld := ⟨42467843, 1, 0⟩
/-- `ING_CH_STATUS.LINES` (03_camera_ingress.md R79). -/
def Fld.ING_CH_STATUS_LINES : Fld := ⟨42467856, 16, 0⟩
/-- `ING_CH_FNUM.LAST_FN` (03_camera_ingress.md R79). -/
def Fld.ING_CH_FNUM_LAST_FN : Fld := ⟨42467968, 16, 0⟩
/-- `ING_CH_FLAGS.EV` (03_camera_ingress.md R92). -/
def Fld.ING_CH_FLAGS_EV : Fld := ⟨42468096, 10, 0⟩
/-- `ING_CH_CNT_FRAMES.COUNT` (03_camera_ingress.md R79). -/
def Fld.ING_CH_CNT_FRAMES : Fld := ⟨42468352, 32, 0⟩
/-- `ING_CH_CNT_CRC.COUNT` (03_camera_ingress.md R75). -/
def Fld.ING_CH_CNT_CRC : Fld := ⟨42468480, 32, 0⟩
/-- `ING_CH_CNT_BAD.COUNT` (03_camera_ingress.md R79). -/
def Fld.ING_CH_CNT_BAD : Fld := ⟨42468608, 32, 0⟩
/-- `ING_CH_CNT_FNGAP.COUNT` (03_camera_ingress.md R79). -/
def Fld.ING_CH_CNT_FNGAP : Fld := ⟨42468736, 32, 0⟩
/-- 03_camera_ingress.md R76; internal, no register: applied EN -/
def Fld.ING_CH_H_EN : Fld := ⟨35184373399608, 1, 0⟩
/-- 03_camera_ingress.md R76; internal, no register: applied LS_MODE -/
def Fld.ING_CH_H_LS_MODE : Fld := ⟨35184373399609, 1, 0⟩
/-- 03_camera_ingress.md R76; internal, no register: applied EXPOSURES -/
def Fld.ING_CH_H_EXPOSURES : Fld := ⟨35184373399610, 2, 0⟩
/-- 03_camera_ingress.md R76; internal, no register: applied DT -/
def Fld.ING_CH_H_DT : Fld := ⟨35184373399611, 6, 44⟩
/-- 03_camera_ingress.md R76; internal, no register: applied WIDTH -/
def Fld.ING_CH_H_WIDTH : Fld := ⟨35184373399612, 16, 0⟩
/-- 03_camera_ingress.md R76; internal, no register: applied HEIGHT -/
def Fld.ING_CH_H_HEIGHT : Fld := ⟨35184373399613, 16, 0⟩
/-- 03_camera_ingress.md R76; internal, no register: applied FILL -/
def Fld.ING_CH_H_FILL : Fld := ⟨35184373399614, 20, 0⟩
/-- 03_camera_ingress.md R76; internal, no register: applied FRAME_TIMEOUT_US -/
def Fld.ING_CH_H_TIMEOUT : Fld := ⟨35184373399615, 24, 10000⟩
/-- 03_camera_ingress.md R79; internal, no register: an exposure-0 frame number has been accepted -/
def Fld.ING_CH_H_FN_VALID : Fld := ⟨35184373399616, 1, 0⟩
/-- 03_camera_ingress.md R79; internal, no register: frame number of the last exposure-0 FS -/
def Fld.ING_CH_H_FN0 : Fld := ⟨35184373399617, 16, 0⟩
/-- 03_camera_ingress.md R76; internal, no register: the channel's switch point has come and its shadow waits for the next FS -/
def Fld.ING_CH_H_SWITCH : Fld := ⟨35184373399618, 1, 0⟩
/-- 04_sync_and_tagging.md R114; internal, no register: frame sequence of the next frame of the channel -/
def Fld.ING_CH_H_SEQ : Fld := ⟨35184373399619, 32, 0⟩
/-- `ING_PLAY_ADDR_LO.ADDR` (03_camera_ingress.md R90). -/
def Fld.ING_PLAY_ADDR : Fld := ⟨42991616, 40, 0⟩
/-- `ING_PLAY_FRAME_STRIDE.FRAME_STRIDE` (03_camera_ingress.md R90). -/
def Fld.ING_PLAY_FRAME_STRIDE : Fld := ⟨42991872, 32, 0⟩
/-- `ING_PLAY_CTRL.COUNT` (03_camera_ingress.md R90). -/
def Fld.ING_PLAY_CTRL_COUNT : Fld := ⟨42992000, 16, 1⟩
/-- `ING_PLAY_CTRL.LOOP` (03_camera_ingress.md R90). -/
def Fld.ING_PLAY_CTRL_LOOP : Fld := ⟨42992016, 1, 0⟩
/-- `ING_PLAY_CTRL.START` (03_camera_ingress.md R90). -/
def Fld.ING_PLAY_CTRL_START : Fld := ⟨42992017, 1, 0⟩
/-- `ING_PLAY_CTRL.STOP` (03_camera_ingress.md R90). -/
def Fld.ING_PLAY_CTRL_STOP : Fld := ⟨42992018, 1, 0⟩
/-- `ING_PLAY_LINE_TIME.LINE_TIME_NS` (03_camera_ingress.md R90). -/
def Fld.ING_PLAY_LINE_TIME_LINE_TIME_NS : Fld := ⟨42992128, 24, 0⟩
/-- `ING_PLAY_STATUS.STATE` (03_camera_ingress.md R90). -/
def Fld.ING_PLAY_STATUS_STATE : Fld := ⟨42992256, 2, 0⟩
/-- `ING_PLAY_STATUS.EV` (03_camera_ingress.md R90). -/
def Fld.ING_PLAY_STATUS_EV : Fld := ⟨42992258, 2, 0⟩
/-- `ING_PLAY_STATUS.FRAMES_DONE` (03_camera_ingress.md R90). -/
def Fld.ING_PLAY_STATUS_FRAMES_DONE : Fld := ⟨42992272, 16, 0⟩
/-- `ING_PLAY_CNT_SKIP.COUNT` (03_camera_ingress.md R91). -/
def Fld.ING_PLAY_CNT_SKIP : Fld := ⟨42992384, 32, 0⟩
/-- 03_camera_ingress.md R90; internal, no register: index of the record read next -/
def Fld.ING_PLAY_H_INDEX : Fld := ⟨35184373399620, 17, 0⟩
/-- 03_camera_ingress.md R90; internal, no register: address of the record in flight -/
def Fld.ING_PLAY_H_REC : Fld := ⟨35184373399621, 40, 0⟩
/-- 03_camera_ingress.md R89; internal, no register: frame number of the record in flight -/
def Fld.ING_PLAY_H_FN : Fld := ⟨35184373399622, 16, 0⟩
/-- `ING_FC_MAP.QUEUE` (03_camera_ingress.md R84). -/
def Fld.ING_FC_MAP_QUEUE : Fld := ⟨43515904, 5, 0⟩
/-- `ING_FC_MAP.INV` (03_camera_ingress.md R84). -/
def Fld.ING_FC_MAP_INV : Fld := ⟨43515909, 1, 0⟩
/-- `ING_FC_MAP.EN` (03_camera_ingress.md R84). -/
def Fld.ING_FC_MAP_EN : Fld := ⟨43515911, 1, 0⟩
/-- `ING_EVENT_EN.LANE` (03_camera_ingress.md R92). -/
def Fld.ING_EVENT_EN_LANE : Fld := ⟨43516160, 5, 31⟩
/-- `ING_EVENT_EN.CH` (03_camera_ingress.md R92). -/
def Fld.ING_EVENT_EN_CH : Fld := ⟨43516168, 10, 1021⟩
/-- `ING_EVENT_EN.PLAY` (03_camera_ingress.md R92). -/
def Fld.ING_EVENT_EN_PLAY : Fld := ⟨43516184, 2, 3⟩
/-- `SEC_STATUS.ATTEST_READY` (17_roles_security_audit.md R426). -/
def Fld.SEC_STATUS_ATTEST_READY : Fld := ⟨2097152, 1, 0⟩
/-- `SEC_STATUS.TEST_UNLOCKED` (17_roles_security_audit.md R426). -/
def Fld.SEC_STATUS_TEST_UNLOCKED : Fld := ⟨2097153, 1, 0⟩
/-- `SEC_STATUS.TEST_SINCE_POWER` (17_roles_security_audit.md R426). -/
def Fld.SEC_STATUS_TEST_SINCE_POWER : Fld := ⟨2097154, 1, 0⟩
/-- `SEC_STATUS.WIPE_PENDING` (17_roles_security_audit.md R426). -/
def Fld.SEC_STATUS_WIPE_PENDING : Fld := ⟨2097155, 1, 0⟩
/-- `SEC_STATUS.SESSIONS` (17_roles_security_audit.md R426). -/
def Fld.SEC_STATUS_SESSIONS : Fld := ⟨2097156, 5, 0⟩
/-- `SEC_STATUS.ATTEST_MS` (17_roles_security_audit.md R426). -/
def Fld.SEC_STATUS_ATTEST_MS : Fld := ⟨2097168, 16, 0⟩
/-- `SEC_FUSE_UID_LO.UID` (17_roles_security_audit.md R418). -/
def Fld.SEC_FUSE_UID : Fld := ⟨2097280, 64, 0⟩
/-- `SEC_FUSE_STATE.SEAL` (17_roles_security_audit.md R418). -/
def Fld.SEC_FUSE_STATE_SEAL : Fld := ⟨2097536, 4, 0⟩
/-- `SEC_FUSE_STATE.REVOKE` (17_roles_security_audit.md R418). -/
def Fld.SEC_FUSE_STATE_REVOKE : Fld := ⟨2097540, 4, 0⟩
/-- `SEC_FUSE_STATE.GEN0_REVOKED` (17_roles_security_audit.md R418). -/
def Fld.SEC_FUSE_STATE_GEN0_REVOKED : Fld := ⟨2097544, 1, 0⟩
/-- `SEC_FUSE_STATE.SCAN_OFF` (17_roles_security_audit.md R418). -/
def Fld.SEC_FUSE_STATE_SCAN_OFF : Fld := ⟨2097545, 1, 0⟩
/-- `SEC_FUSE_STATE.SVN_MIN` (17_roles_security_audit.md R418). -/
def Fld.SEC_FUSE_STATE_SVN_MIN : Fld := ⟨2097546, 6, 0⟩
/-- `SEC_FUSE_STATE.DECOM` (17_roles_security_audit.md R418). -/
def Fld.SEC_FUSE_STATE_DECOM : Fld := ⟨2097552, 8, 0⟩
/-- `SEC_FUSE_STATE.DUS_PRESENT` (17_roles_security_audit.md R418). -/
def Fld.SEC_FUSE_STATE_DUS_PRESENT : Fld := ⟨2097560, 1, 1⟩
/-- `SEC_CFG.SESSION_IDLE_S` (17_roles_security_audit.md R425). -/
def Fld.SEC_CFG_SESSION_IDLE_S : Fld := ⟨2097664, 17, 900⟩
/-- `SEC_CFG.AUDIT_POLICY` (17_roles_security_audit.md R425). -/
def Fld.SEC_CFG_AUDIT_POLICY : Fld := ⟨2097681, 1, 0⟩
/-- `SEC_AUDIT_SEQ_LO.SEQ` (17_roles_security_audit.md R431). -/
def Fld.SEC_AUDIT_SEQ : Fld := ⟨2097792, 64, 0⟩
/-- `SEC_AUDIT_OLDEST_LO.SEQ` (17_roles_security_audit.md R434). -/
def Fld.SEC_AUDIT_OLDEST : Fld := ⟨2098048, 64, 0⟩
/-- `SEC_AUDIT_SIGNED_LO.SEQ` (17_roles_security_audit.md R433). -/
def Fld.SEC_AUDIT_SIGNED : Fld := ⟨2098304, 64, 0⟩
/-- `SEC_AUDIT_HEAD.DATA` (17_roles_security_audit.md R431). -/
def Fld.SEC_AUDIT_HEAD : Fld := ⟨2098688, 32, 0⟩
/-- `SEC_ATTEST_PK.DATA` (17_roles_security_audit.md R426). -/
def Fld.SEC_ATTEST_PK : Fld := ⟨2099712, 32, 0⟩
/-- `SEC_CNT_LOGIN_OK.COUNT` (17_roles_security_audit.md R424). -/
def Fld.SEC_CNT_LOGIN_OK : Fld := ⟨2100736, 32, 0⟩
/-- `SEC_CNT_LOGIN_FAIL.COUNT` (17_roles_security_audit.md R424). -/
def Fld.SEC_CNT_LOGIN_FAIL : Fld := ⟨2100864, 32, 0⟩
/-- `SEC_CNT_AUDIT_REFUSED.COUNT` (17_roles_security_audit.md R432). -/
def Fld.SEC_CNT_AUDIT_REFUSED : Fld := ⟨2100992, 32, 0⟩
/-- `SEC_AUDIT_QUEUE.LEVEL` (17_roles_security_audit.md R432). -/
def Fld.SEC_AUDIT_QUEUE_LEVEL : Fld := ⟨2101120, 9, 0⟩
/-- `SEC_EVENTS.EV` (17_roles_security_audit.md R438). -/
def Fld.SEC_EVENTS_EV : Fld := ⟨2101248, 7, 0⟩
/-- `SEC_EVENT_EN.EN` (17_roles_security_audit.md R438). -/
def Fld.SEC_EVENT_EN : Fld := ⟨2101376, 7, 95⟩
/-- 17_roles_security_audit.md R418; internal, no register: fuse field SVN -/
def Fld.SEC_H_FUSE_SVN : Fld := ⟨35184372154439, 63, 0⟩
/-- 17_roles_security_audit.md R418; internal, no register: fuse field DECOM -/
def Fld.SEC_H_FUSE_DECOM : Fld := ⟨35184372154440, 8, 0⟩
/-- 17_roles_security_audit.md R420; internal, no register: a health test has failed since reset -/
def Fld.SEC_H_RNG_BAD : Fld := ⟨35184372154441, 1, 0⟩
/-- 17_roles_security_audit.md R421; internal, no register: number of the last session issued -/
def Fld.SEC_H_LAST_SESSION : Fld := ⟨35184372154442, 16, 0⟩
/-- `SYN_ENC_CFG.MODE` (04_sync_and_tagging.md R94). -/
def Fld.SYN_ENC_CFG_MODE : Fld := ⟨50331648, 2, 0⟩
/-- `SYN_ENC_CFG.REVERSE` (04_sync_and_tagging.md R94). -/
def Fld.SYN_ENC_CFG_REVERSE : Fld := ⟨50331650, 1, 0⟩
/-- `SYN_ENC_CFG.FILTER` (04_sync_and_tagging.md R94). -/
def Fld.SYN_ENC_CFG_FILTER : Fld := ⟨50331656, 8, 12⟩
/-- `SYN_ENC_POS_LO.POS` (04_sync_and_tagging.md R96). -/
def Fld.SYN_ENC_POS : Fld := ⟨50331776, 48, 0⟩
/-- `SYN_ENC_PRESET_LO.POS` (04_sync_and_tagging.md R96). -/
def Fld.SYN_ENC_PRESET : Fld := ⟨50332032, 48, 0⟩
/-- `SYN_ENC_PRESET_HI.LOAD` (04_sync_and_tagging.md R96). -/
def Fld.SYN_ENC_PRESET_HI_LOAD : Fld := ⟨50332191, 1, 0⟩
/-- `SYN_ENC_ZPOS_LO.POS` (04_sync_and_tagging.md R96). -/
def Fld.SYN_ENC_ZPOS : Fld := ⟨50332288, 48, 0⟩
/-- `SYN_ENC_STATUS.SPEED` (04_sync_and_tagging.md R97). -/
def Fld.SYN_ENC_STATUS_SPEED : Fld := ⟨50332544, 24, 0⟩
/-- `SYN_ENC_STATUS.QUAD_ERR` (04_sync_and_tagging.md R97). -/
def Fld.SYN_ENC_STATUS_QUAD_ERR : Fld := ⟨50332568, 1, 0⟩
/-- `SYN_ENC_CNT_ERR.COUNT` (04_sync_and_tagging.md R95). -/
def Fld.SYN_ENC_CNT_ERR : Fld := ⟨50332672, 32, 0⟩
/-- 04_sync_and_tagging.md R93; internal, no register: filtered level of input A -/
def Fld.SYN_ENC_H_A : Fld := ⟨35184373661771, 1, 0⟩
/-- 04_sync_and_tagging.md R93; internal, no register: filtered level of input B -/
def Fld.SYN_ENC_H_B : Fld := ⟨35184373661772, 1, 0⟩
/-- 04_sync_and_tagging.md R93; internal, no register: filtered level of input Z -/
def Fld.SYN_ENC_H_Z : Fld := ⟨35184373661773, 1, 0⟩
/-- 04_sync_and_tagging.md R97; internal, no register: position at the last full millisecond -/
def Fld.SYN_ENC_H_MSPOS : Fld := ⟨35184373661774, 48, 0⟩
/-- `SYN_MARK_CFG.EN` (04_sync_and_tagging.md R98). -/
def Fld.SYN_MARK_CFG_EN : Fld := ⟨50364416, 1, 0⟩
/-- `SYN_MARK_CFG.EDGE` (04_sync_and_tagging.md R98). -/
def Fld.SYN_MARK_CFG_EDGE : Fld := ⟨50364417, 2, 1⟩
/-- `SYN_MARK_CFG.ENC` (04_sync_and_tagging.md R98). -/
def Fld.SYN_MARK_CFG_ENC : Fld := ⟨50364419, 2, 0⟩
/-- `SYN_MARK_CFG.FILTER` (04_sync_and_tagging.md R98). -/
def Fld.SYN_MARK_CFG_FILTER : Fld := ⟨50364424, 8, 12⟩
/-- `SYN_MARK_CFG.LOCKOUT` (04_sync_and_tagging.md R98). -/
def Fld.SYN_MARK_CFG_LOCKOUT : Fld := ⟨50364432, 16, 0⟩
/-- `SYN_MARK_SEQ.SEQ` (04_sync_and_tagging.md R99). -/
def Fld.SYN_MARK_SEQ : Fld := ⟨50364544, 32, 0⟩
/-- `SYN_MARK_TIME_LO.TIME` (04_sync_and_tagging.md R99). -/
def Fld.SYN_MARK_TIME : Fld := ⟨50364672, 64, 0⟩
/-- `SYN_MARK_POS_LO.POS` (04_sync_and_tagging.md R99). -/
def Fld.SYN_MARK_POS : Fld := ⟨50364928, 48, 0⟩
/-- `SYN_MARK_CNT_LOCKOUT.CNT` (04_sync_and_tagging.md R98). -/
def Fld.SYN_MARK_CNT_LOCKOUT_CNT : Fld := ⟨50365184, 31, 0⟩
/-- `SYN_MARK_CNT_LOCKOUT.LOCKOUT` (04_sync_and_tagging.md R98). -/
def Fld.SYN_MARK_CNT_LOCKOUT_LOCKOUT : Fld := ⟨50365215, 1, 0⟩
/-- 04_sync_and_tagging.md R98; internal, no register: a mark has been accepted since reset or EN -/
def Fld.SYN_MARK_H_PREV : Fld := ⟨35184373661775, 1, 0⟩
/-- `SYN_TB_TIME_LO.TIME` (04_sync_and_tagging.md R108). -/
def Fld.SYN_TB_TIME : Fld := ⟨50397184, 64, 0⟩
/-- `SYN_TB_RATE.RATE` (04_sync_and_tagging.md R108). -/
def Fld.SYN_TB_RATE : Fld := ⟨50397440, 32, 3579139413⟩
/-- `SYN_TB_STEP_LO.STEP` (04_sync_and_tagging.md R109). -/
def Fld.SYN_TB_STEP : Fld := ⟨50397568, 64, 0⟩
/-- `SYN_TB_SLEW.SLEW` (04_sync_and_tagging.md R109). -/
def Fld.SYN_TB_SLEW : Fld := ⟨50397824, 32, 0⟩
/-- `SYN_TB_CTRL.SRC` (04_sync_and_tagging.md R109). -/
def Fld.SYN_TB_CTRL_SRC : Fld := ⟨50397952, 2, 0⟩
/-- `SYN_PTP_CFG.EN` (04_sync_and_tagging.md R111). -/
def Fld.SYN_PTP_CFG_EN : Fld := ⟨50405376, 1, 0⟩
/-- `SYN_PTP_CFG.TRANSPORT` (04_sync_and_tagging.md R111). -/
def Fld.SYN_PTP_CFG_TRANSPORT : Fld := ⟨50405377, 2, 1⟩
/-- `SYN_PTP_CFG.P2P` (04_sync_and_tagging.md R111). -/
def Fld.SYN_PTP_CFG_P2P : Fld := ⟨50405379, 1, 0⟩
/-- `SYN_PTP_CFG.DOMAIN` (04_sync_and_tagging.md R111). -/
def Fld.SYN_PTP_CFG_DOMAIN : Fld := ⟨50405384, 8, 0⟩
/-- `SYN_PTP_TXTS_INFO.SEQ_ID` (04_sync_and_tagging.md R111). -/
def Fld.SYN_PTP_TXTS_INFO_SEQ_ID : Fld := ⟨50405504, 16, 0⟩
/-- `SYN_PTP_TXTS_INFO.MSG_TYPE` (04_sync_and_tagging.md R111). -/
def Fld.SYN_PTP_TXTS_INFO_MSG_TYPE : Fld := ⟨50405520, 4, 0⟩
/-- `SYN_PTP_TXTS_INFO.VALID` (04_sync_and_tagging.md R111). -/
def Fld.SYN_PTP_TXTS_INFO_VALID : Fld := ⟨50405535, 1, 0⟩
/-- `SYN_PTP_TXTS_LO.TIME` (04_sync_and_tagging.md R111). -/
def Fld.SYN_PTP_TXTS : Fld := ⟨50405632, 64, 0⟩
/-- `SYN_PTP_TXTS_POP.POP` (04_sync_and_tagging.md R111). -/
def Fld.SYN_PTP_TXTS_POP : Fld := ⟨50405888, 1, 0⟩
/-- `SYN_PTP_STATUS.LEVEL` (04_sync_and_tagging.md R111). -/
def Fld.SYN_PTP_STATUS_LEVEL : Fld := ⟨50406016, 5, 0⟩
/-- `SYN_PTP_STATUS.TS_OVF` (04_sync_and_tagging.md R111). -/
def Fld.SYN_PTP_STATUS_TS_OVF : Fld := ⟨50406024, 1, 0⟩
/-- `SYN_PTP_STATUS.LOST` (04_sync_and_tagging.md R111). -/
def Fld.SYN_PTP_STATUS_LOST : Fld := ⟨50406032, 16, 0⟩
/-- 04_sync_and_tagging.md R108; internal, no register: fraction of the device time -/
def Fld.SYN_TB_H_FRAC : Fld := ⟨35184373661776, 32, 0⟩
/-- 04_sync_and_tagging.md R109; internal, no register: fraction of a ns already slewed -/
def Fld.SYN_TB_H_SLEWFRAC : Fld := ⟨35184373661777, 32, 0⟩
/-- `SYN_CH_TRIG_CFG.EN` (04_sync_and_tagging.md R102). -/
def Fld.SYN_CH_TRIG_CFG_EN : Fld := ⟨50462720, 1, 0⟩
/-- `SYN_CH_TRIG_CFG.MODE` (04_sync_and_tagging.md R102). -/
def Fld.SYN_CH_TRIG_CFG_MODE : Fld := ⟨50462721, 1, 0⟩
/-- `SYN_CH_TRIG_CFG.ENC` (04_sync_and_tagging.md R102). -/
def Fld.SYN_CH_TRIG_CFG_ENC : Fld := ⟨50462722, 2, 0⟩
/-- `SYN_CH_TRIG_CFG.ARM` (04_sync_and_tagging.md R102). -/
def Fld.SYN_CH_TRIG_CFG_ARM : Fld := ⟨50462724, 1, 0⟩
/-- `SYN_CH_TRIG_CFG.MARK` (04_sync_and_tagging.md R102). -/
def Fld.SYN_CH_TRIG_CFG_MARK : Fld := ⟨50462725, 2, 0⟩
/-- `SYN_CH_TRIG_CFG.INHIBIT` (04_sync_and_tagging.md R102). -/
def Fld.SYN_CH_TRIG_CFG_INHIBIT : Fld := ⟨50462727, 1, 0⟩
/-- `SYN_CH_TRIG_CFG.DEST` (04_sync_and_tagging.md R102). -/
def Fld.SYN_CH_TRIG_CFG_DEST : Fld := ⟨50462728, 2, 0⟩
/-- `SYN_CH_PITCH_INT.PITCH_INT` (04_sync_and_tagging.md R101). -/
def Fld.SYN_CH_PITCH_INT : Fld := ⟨50462848, 32, 0⟩
/-- `SYN_CH_PITCH_FRAC.PITCH_FRAC` (04_sync_and_tagging.md R101). -/
def Fld.SYN_CH_PITCH_FRAC : Fld := ⟨50462976, 16, 0⟩
/-- `SYN_CH_OFFSET.OFFSET` (04_sync_and_tagging.md R100). -/
def Fld.SYN_CH_OFFSET : Fld := ⟨50463104, 32, 0⟩
/-- `SYN_CH_FS_DELAY.FS_DELAY_NS` (04_sync_and_tagging.md R113). -/
def Fld.SYN_CH_FS_DELAY_FS_DELAY_NS : Fld := ⟨50463232, 24, 0⟩
/-- `SYN_CH_FS_LATE.FS_LATE_NS` (04_sync_and_tagging.md R113). -/
def Fld.SYN_CH_FS_LATE_FS_LATE_NS : Fld := ⟨50463360, 24, 0⟩
/-- `SYN_CH_MATCH.MATCH_WINDOW_US` (04_sync_and_tagging.md R112). -/
def Fld.SYN_CH_MATCH_MATCH_WINDOW_US : Fld := ⟨50463488, 24, 20000⟩
/-- `SYN_CH_STATUS.ARMED` (04_sync_and_tagging.md R103). -/
def Fld.SYN_CH_STATUS_ARMED : Fld := ⟨50463616, 1, 0⟩
/-- `SYN_CH_STATUS.PENDING` (04_sync_and_tagging.md R103). -/
def Fld.SYN_CH_STATUS_PENDING : Fld := ⟨50463617, 3, 0⟩
/-- `SYN_CH_STATUS.EV` (04_sync_and_tagging.md R103). -/
def Fld.SYN_CH_STATUS_EV : Fld := ⟨50463620, 4, 0⟩
/-- `SYN_CH_STATUS.TRIG_SEQ` (04_sync_and_tagging.md R103). -/
def Fld.SYN_CH_STATUS_TRIG_SEQ : Fld := ⟨50463632, 16, 0⟩
/-- `SYN_CH_CNT_TRIG.COUNT` (04_sync_and_tagging.md R103). -/
def Fld.SYN_CH_CNT_TRIG : Fld := ⟨50463744, 32, 0⟩
/-- `SYN_CH_CNT_NOTSENT.NOT_RUN` (04_sync_and_tagging.md R103). -/
def Fld.SYN_CH_CNT_NOTSENT_NOT_RUN : Fld := ⟨50463872, 11, 0⟩
/-- `SYN_CH_CNT_NOTSENT.INHIBIT` (04_sync_and_tagging.md R103). -/
def Fld.SYN_CH_CNT_NOTSENT_INHIBIT : Fld := ⟨50463883, 11, 0⟩
/-- `SYN_CH_CNT_NOTSENT.PIN_BUSY` (04_sync_and_tagging.md R103). -/
def Fld.SYN_CH_CNT_NOTSENT_PIN_BUSY : Fld := ⟨50463894, 10, 0⟩
/-- `SYN_CH_CNT_MATCH.UNMATCHED` (04_sync_and_tagging.md R112). -/
def Fld.SYN_CH_CNT_MATCH_UNMATCHED : Fld := ⟨50464000, 16, 0⟩
/-- `SYN_CH_CNT_MATCH.ORPHAN` (04_sync_and_tagging.md R112). -/
def Fld.SYN_CH_CNT_MATCH_ORPHAN : Fld := ⟨50464016, 16, 0⟩
/-- `SYN_CH_LAST_DEP_LO.TIME` (04_sync_and_tagging.md R107). -/
def Fld.SYN_CH_LAST_DEP : Fld := ⟨50464128, 64, 0⟩
/-- 04_sync_and_tagging.md R101; internal, no register: committed pitch, integer part in the upper 32 bits -/
def Fld.SYN_CH_H_PITCH : Fld := ⟨35184373661778, 48, 0⟩
/-- 04_sync_and_tagging.md R101; internal, no register: a pitch has been committed since reset -/
def Fld.SYN_CH_H_HASPITCH : Fld := ⟨35184373661779, 1, 0⟩
/-- 04_sync_and_tagging.md R100; internal, no register: next fire, 16 fraction bits -/
def Fld.SYN_CH_H_NEXT : Fld := ⟨35184373661780, 80, 0⟩
/-- 04_sync_and_tagging.md R101; internal, no register: mode in which the generator is armed -/
def Fld.SYN_CH_H_AMODE : Fld := ⟨35184373661781, 1, 0⟩
/-- 04_sync_and_tagging.md R101; internal, no register: encoder with which the generator is armed -/
def Fld.SYN_CH_H_AENC : Fld := ⟨35184373661782, 2, 0⟩
/-- `SYN_TRIG_MAP.CH` (04_sync_and_tagging.md R104). -/
def Fld.SYN_TRIG_MAP_CH : Fld := ⟨50724864, 7, 0⟩
/-- `SYN_TRIG_MAP.EN` (04_sync_and_tagging.md R104). -/
def Fld.SYN_TRIG_MAP_EN : Fld := ⟨50724871, 1, 0⟩
/-- `SYN_TRIG_WIDTH.WIDTH_NS` (04_sync_and_tagging.md R105). -/
def Fld.SYN_TRIG_WIDTH_WIDTH_NS : Fld := ⟨50725376, 16, 1000⟩
/-- `SYN_EVENT_EN.ENC_MARK` (04_sync_and_tagging.md R118). -/
def Fld.SYN_EVENT_EN_ENC_MARK : Fld := ⟨50725504, 2, 3⟩
/-- `SYN_EVENT_EN.CH` (04_sync_and_tagging.md R118). -/
def Fld.SYN_EVENT_EN_CH : Fld := ⟨50725506, 4, 15⟩
/-- `SYN_EVENT_EN.PTP` (04_sync_and_tagging.md R118). -/
def Fld.SYN_EVENT_EN_PTP : Fld := ⟨50725510, 1, 1⟩
/-- 05_pipeline_contexts.md R134; internal, no register: clocks of CLK_PIX that the device has run since its reset: time that no step of the timebase moves -/
def Fld.SYN_H_CLK : Fld := ⟨35184373661783, 64, 0⟩
/-- 04_sync_and_tagging.md R105; internal, no register: a TRIG_OUT pin is in its pulse; instance is the pin -/
def Fld.SYN_H_PULSE : Fld := ⟨35184373661784, 1, 0⟩
/-- 04_sync_and_tagging.md R105; internal, no register: running clock at which the pulse of a trigger pin is over -/
def Fld.SYN_H_PEND : Fld := ⟨35184373661785, 64, 0⟩
/-- 03_camera_ingress.md R84; internal, no register: level of an FC_OUT pin; instance is the pin -/
def Fld.SYN_H_FCPIN : Fld := ⟨35184373661786, 1, 0⟩
/-- `STO_CH_STATUS.CE_PRESENT` (13_storage_job_library.md R316). -/
def Fld.STO_CH_STATUS_CE_PRESENT : Fld := ⟨176160768, 8, 0⟩
/-- `STO_CH_STATUS.CE_EXCLUDED` (13_storage_job_library.md R316). -/
def Fld.STO_CH_STATUS_CE_EXCLUDED : Fld := ⟨176160776, 8, 0⟩
/-- `STO_CH_STATUS.IFACE` (13_storage_job_library.md R316). -/
def Fld.STO_CH_STATUS_IFACE : Fld := ⟨176160784, 2, 0⟩
/-- `STO_CH_STATUS.RATE` (13_storage_job_library.md R316). -/
def Fld.STO_CH_STATUS_RATE : Fld := ⟨176160788, 12, 0⟩
/-- `STO_CH_CNT_CORR.COUNT` (13_storage_job_library.md R318). -/
def Fld.STO_CH_CNT_CORR : Fld := ⟨176160896, 32, 0⟩
/-- `STO_CH_CNT_RETRY.COUNT` (13_storage_job_library.md R318). -/
def Fld.STO_CH_CNT_RETRY : Fld := ⟨176161024, 32, 0⟩
/-- `STO_CH_CNT_SOFT.COUNT` (13_storage_job_library.md R318). -/
def Fld.STO_CH_CNT_SOFT : Fld := ⟨176161152, 32, 0⟩
/-- `STO_CH_CNT_UNCORR.COUNT` (13_storage_job_library.md R319). -/
def Fld.STO_CH_CNT_UNCORR : Fld := ⟨176161280, 32, 0⟩
/-- `STO_CH_CNT_PFAIL.COUNT` (13_storage_job_library.md R326). -/
def Fld.STO_CH_CNT_PFAIL : Fld := ⟨176161408, 32, 0⟩
/-- `STO_CH_CNT_EFAIL.COUNT` (13_storage_job_library.md R326). -/
def Fld.STO_CH_CNT_EFAIL : Fld := ⟨176161536, 32, 0⟩
/-- `STO_GEOM.LUNS` (13_storage_job_library.md R316). -/
def Fld.STO_GEOM_LUNS : Fld := ⟨176193536, 8, 0⟩
/-- `STO_GEOM.PLANES` (13_storage_job_library.md R316). -/
def Fld.STO_GEOM_PLANES : Fld := ⟨176193544, 2, 0⟩
/-- `STO_GEOM.QLC` (13_storage_job_library.md R316). -/
def Fld.STO_GEOM_QLC : Fld := ⟨176193546, 1, 0⟩
/-- `STO_GEOM.RAW_GIB` (13_storage_job_library.md R316). -/
def Fld.STO_GEOM_RAW_GIB : Fld := ⟨176193552, 14, 0⟩
/-- `STO_SPACE.USABLE_GIB` (13_storage_job_library.md R321). -/
def Fld.STO_SPACE_USABLE_GIB : Fld := ⟨176193664, 16, 0⟩
/-- `STO_SPACE.REC_GIB_NOW` (13_storage_job_library.md R321). -/
def Fld.STO_SPACE_REC_GIB_NOW : Fld := ⟨176193680, 16, 0⟩
/-- `STO_LIB_STATUS.HAMPERS` (13_storage_job_library.md R333). -/
def Fld.STO_LIB_STATUS_HAMPERS : Fld := ⟨176193792, 13, 0⟩
/-- `STO_LIB_STATUS.LIB_FREE_GIB` (13_storage_job_library.md R333). -/
def Fld.STO_LIB_STATUS_LIB_FREE_GIB : Fld := ⟨176193808, 16, 0⟩
/-- `STO_WEAR.RATED` (13_storage_job_library.md R325). -/
def Fld.STO_WEAR_RATED : Fld := ⟨176193920, 16, 0⟩
/-- `STO_WEAR.LIFE_PCT` (13_storage_job_library.md R325). -/
def Fld.STO_WEAR_LIFE_PCT : Fld := ⟨176193936, 8, 0⟩
/-- `STO_WEAR.SPARE_PCT` (13_storage_job_library.md R325). -/
def Fld.STO_WEAR_SPARE_PCT : Fld := ⟨176193944, 8, 0⟩
/-- `STO_ERASE.MIN` (13_storage_job_library.md R324). -/
def Fld.STO_ERASE_MIN : Fld := ⟨176194048, 16, 0⟩
/-- `STO_ERASE.MAX` (13_storage_job_library.md R324). -/
def Fld.STO_ERASE_MAX : Fld := ⟨176194064, 16, 0⟩
/-- `STO_SCRUB.OLDEST_DAYS` (13_storage_job_library.md R322). -/
def Fld.STO_SCRUB_OLDEST_DAYS : Fld := ⟨176194176, 16, 0⟩
/-- `STO_SCRUB.CATCHUP_ACTIVE` (13_storage_job_library.md R322). -/
def Fld.STO_SCRUB_CATCHUP_ACTIVE : Fld := ⟨176194192, 1, 0⟩
/-- `STO_SCRUB.RTC_VALID` (13_storage_job_library.md R322). -/
def Fld.STO_SCRUB_RTC_VALID : Fld := ⟨176194193, 1, 0⟩
/-- `STO_CFG0.SCRUB_DAYS` (13_storage_job_library.md R322). -/
def Fld.STO_CFG0_SCRUB_DAYS : Fld := ⟨176194560, 8, 14⟩
/-- `STO_CFG0.CATCHUP_PCT` (13_storage_job_library.md R322). -/
def Fld.STO_CFG0_CATCHUP_PCT : Fld := ⟨176194568, 7, 25⟩
/-- `STO_CFG0.LOAD_PCT` (13_storage_job_library.md R322). -/
def Fld.STO_CFG0_LOAD_PCT : Fld := ⟨176194576, 7, 55⟩
/-- `STO_CFG1.REC_GIB` (13_storage_job_library.md R321). -/
def Fld.STO_CFG1_REC_GIB : Fld := ⟨176194688, 16, 0⟩
/-- `STO_CFG1.KEEP_MAX_PCT` (13_storage_job_library.md R321). -/
def Fld.STO_CFG1_KEEP_MAX_PCT : Fld := ⟨176194704, 7, 10⟩
/-- `STO_CFG2.AUTO_KEEP_PIX` (13_storage_job_library.md R339). -/
def Fld.STO_CFG2_AUTO_KEEP_PIX : Fld := ⟨176194816, 16, 0⟩
/-- `STO_CFG2.WL_DELTA` (13_storage_job_library.md R339). -/
def Fld.STO_CFG2_WL_DELTA : Fld := ⟨176194832, 16, 200⟩
/-- `STO_REC_NEWEST_LO.SEQ` (13_storage_job_library.md R338). -/
def Fld.STO_REC_NEWEST : Fld := ⟨176195072, 64, 0⟩
/-- `STO_REC_OLDEST_LO.SEQ` (13_storage_job_library.md R339). -/
def Fld.STO_REC_OLDEST : Fld := ⟨176195328, 64, 0⟩
/-- `STO_REC_STATUS.KEPT_SEGS` (13_storage_job_library.md R339). -/
def Fld.STO_REC_STATUS_KEPT_SEGS : Fld := ⟨176195584, 24, 0⟩
/-- `STO_REC_STATUS.STAGE_PCT` (13_storage_job_library.md R339). -/
def Fld.STO_REC_STATUS_STAGE_PCT : Fld := ⟨176195608, 7, 0⟩
/-- `STO_CNT_RELOC.COUNT` (13_storage_job_library.md R322). -/
def Fld.STO_CNT_RELOC : Fld := ⟨176196096, 32, 0⟩
/-- `STO_CNT_RETIRED.COUNT` (13_storage_job_library.md R326). -/
def Fld.STO_CNT_RETIRED : Fld := ⟨176196224, 32, 0⟩
/-- `STO_CNT_REC_MISSED.COUNT` (13_storage_job_library.md R337). -/
def Fld.STO_CNT_REC_MISSED : Fld := ⟨176196352, 32, 0⟩
/-- `STO_CNT_AUTOKEEP_SKIP.COUNT` (13_storage_job_library.md R339). -/
def Fld.STO_CNT_AUTOKEEP_SKIP : Fld := ⟨176196480, 32, 0⟩
/-- `STO_CNT_SCRUB.COUNT` (13_storage_job_library.md R322). -/
def Fld.STO_CNT_SCRUB : Fld := ⟨176196608, 32, 0⟩
/-- `STO_LIB_RESULT.STATUS` (13_storage_job_library.md R332). -/
def Fld.STO_LIB_RESULT_STATUS : Fld := ⟨176197120, 8, 0⟩
/-- `STO_LIB_RESULT.STEP` (13_storage_job_library.md R332). -/
def Fld.STO_LIB_RESULT_STEP : Fld := ⟨176197128, 3, 0⟩
/-- `STO_LIB_RESULT.NUMBER` (13_storage_job_library.md R332). -/
def Fld.STO_LIB_RESULT_NUMBER : Fld := ⟨176197136, 12, 0⟩
/-- `STO_CTRL.FENCE` (13_storage_job_library.md R344). -/
def Fld.STO_CTRL_FENCE : Fld := ⟨176197248, 1, 0⟩
/-- `STO_CTRL.RESET` (13_storage_job_library.md R344). -/
def Fld.STO_CTRL_RESET : Fld := ⟨176197249, 1, 0⟩
/-- `STO_CTRL.CLR_CNT` (13_storage_job_library.md R344). -/
def Fld.STO_CTRL_CLR_CNT : Fld := ⟨176197250, 1, 0⟩
/-- `STO_CTRL.FENCED` (13_storage_job_library.md R344). -/
def Fld.STO_CTRL_FENCED : Fld := ⟨176197256, 1, 0⟩
/-- `STO_EVENTS.EV` (13_storage_job_library.md R345). -/
def Fld.STO_EVENTS_EV : Fld := ⟨176197376, 13, 0⟩
/-- `STO_EVENT_EN.EN` (13_storage_job_library.md R345). -/
def Fld.STO_EVENT_EN : Fld := ⟨176197504, 13, 8191⟩
/-- 13_storage_job_library.md R326; internal, no register: the storage controller is read-only -/
def Fld.STO_H_READONLY : Fld := ⟨35184377593947, 1, 0⟩
/-- 13_storage_job_library.md R326; internal, no register: blocks left in the spare pool -/
def Fld.STO_H_SPARE : Fld := ⟨35184377593948, 32, 0⟩
/-- 13_storage_job_library.md R326; internal, no register: blocks of the initial spare pool -/
def Fld.STO_H_SPARE0 : Fld := ⟨35184377593949, 32, 0⟩
/-- 13_storage_job_library.md R338; internal, no register: entry sequence of the next recorder entry -/
def Fld.STO_H_SEQ : Fld := ⟨35184377593950, 64, 0⟩
/-- 13_storage_job_library.md R337; internal, no register: copies missed in the run not yet closed -/
def Fld.STO_H_MISSRUN : Fld := ⟨35184377593951, 32, 0⟩
/-- 13_storage_job_library.md R316; internal, no register: the store is mounted -/
def Fld.STO_H_MOUNTED : Fld := ⟨35184377593952, 1, 0⟩
/-- 13_storage_job_library.md R338; internal, no register: bytes used in the open recorder segment -/
def Fld.STO_H_SEGFILL : Fld := ⟨35184377593953, 27, 0⟩
/-- 13_storage_job_library.md R339; internal, no register: number of the open recorder segment -/
def Fld.STO_H_SEGOPEN : Fld := ⟨35184377593954, 32, 0⟩
/-- 13_storage_job_library.md R318; internal, no register: read-retry levels of the dies -/
def Fld.STO_H_RETRY : Fld := ⟨35184377593955, 4, 0⟩
/-- 13_storage_job_library.md R320; internal, no register: number of the next library segment -/
def Fld.STO_H_LIBSEG : Fld := ⟨35184377593956, 32, 0⟩
/-- 13_storage_job_library.md R327; internal, no register: a recorder segment is open -/
def Fld.STO_H_SEGLIVE : Fld := ⟨35184377593957, 1, 0⟩
/-- 16_boot_image.md R401; internal, no register: highest NV-LPDDR4 rate of the device record, MT/s -/
def Fld.STO_H_MAXRATE : Fld := ⟨35184377593958, 16, 2400⟩
/-- 13_storage_job_library.md R325; internal, no register: thresholds of LIFE_PCT already reported -/
def Fld.STO_H_WEARBITS : Fld := ⟨35184377593959, 2, 0⟩
/-- `JOB_STATUS.CUR_STATE` (12_jobs_and_autonomy.md R297). -/
def Fld.JOB_STATUS_CUR_STATE : Fld := ⟨10485760, 2, 0⟩
/-- `JOB_STATUS.DRAINING` (12_jobs_and_autonomy.md R297). -/
def Fld.JOB_STATUS_DRAINING : Fld := ⟨10485762, 1, 0⟩
/-- `JOB_STATUS.NEXT_STATE` (12_jobs_and_autonomy.md R297). -/
def Fld.JOB_STATUS_NEXT_STATE : Fld := ⟨10485764, 2, 0⟩
/-- `JOB_STATUS.NEXT_STOP` (12_jobs_and_autonomy.md R297). -/
def Fld.JOB_STATUS_NEXT_STOP : Fld := ⟨10485766, 1, 0⟩
/-- `JOB_STATUS.ROLE` (12_jobs_and_autonomy.md R297). -/
def Fld.JOB_STATUS_ROLE : Fld := ⟨10485768, 2, 0⟩
/-- `JOB_STATUS.SW_MARK` (12_jobs_and_autonomy.md R297). -/
def Fld.JOB_STATUS_SW_MARK : Fld := ⟨10485770, 2, 0⟩
/-- `JOB_IDS.CUR_ID` (12_jobs_and_autonomy.md R297). -/
def Fld.JOB_IDS_CUR_ID : Fld := ⟨10485888, 16, 0⟩
/-- `JOB_IDS.NEXT_ID` (12_jobs_and_autonomy.md R297). -/
def Fld.JOB_IDS_NEXT_ID : Fld := ⟨10485904, 16, 0⟩
/-- `JOB_HAMPERS.CUR_HAMPER` (12_jobs_and_autonomy.md R297). -/
def Fld.JOB_HAMPERS_CUR_HAMPER : Fld := ⟨10486016, 12, 0⟩
/-- `JOB_HAMPERS.NEXT_HAMPER` (12_jobs_and_autonomy.md R297). -/
def Fld.JOB_HAMPERS_NEXT_HAMPER : Fld := ⟨10486032, 12, 0⟩
/-- `JOB_OUT_ID.OUT_ID` (12_jobs_and_autonomy.md R297). -/
def Fld.JOB_OUT_ID : Fld := ⟨10486144, 16, 0⟩
/-- `JOB_ARM_TIME_LO.TIME` (12_jobs_and_autonomy.md R305). -/
def Fld.JOB_ARM_TIME : Fld := ⟨10486272, 64, 0⟩
/-- `JOB_SW_TIME_LO.TIME` (12_jobs_and_autonomy.md R306). -/
def Fld.JOB_SW_TIME : Fld := ⟨10486528, 64, 0⟩
/-- `JOB_SW_POS_LO.POS` (12_jobs_and_autonomy.md R306). -/
def Fld.JOB_SW_POS : Fld := ⟨10486784, 48, 0⟩
/-- `JOB_SW_SEQ.SEQ` (12_jobs_and_autonomy.md R306). -/
def Fld.JOB_SW_SEQ : Fld := ⟨10487040, 32, 0⟩
/-- `JOB_SEL_LATCH.INDEX` (12_jobs_and_autonomy.md R299). -/
def Fld.JOB_SEL_LATCH_INDEX : Fld := ⟨10487296, 8, 0⟩
/-- `JOB_SEL_LATCH.SOURCE` (12_jobs_and_autonomy.md R299). -/
def Fld.JOB_SEL_LATCH_SOURCE : Fld := ⟨10487304, 2, 0⟩
/-- `JOB_SEL_LATCH.VALID` (12_jobs_and_autonomy.md R299). -/
def Fld.JOB_SEL_LATCH_VALID : Fld := ⟨10487312, 1, 0⟩
/-- `JOB_CFG.LAG_US` (12_jobs_and_autonomy.md R307). -/
def Fld.JOB_CFG_LAG_US : Fld := ⟨10487808, 16, 200⟩
/-- `JOB_CFG.ARM_LEAD_MS` (12_jobs_and_autonomy.md R307). -/
def Fld.JOB_CFG_ARM_LEAD_MS : Fld := ⟨10487824, 8, 5⟩
/-- `JOB_CFG.PREP_100MS` (12_jobs_and_autonomy.md R307). -/
def Fld.JOB_CFG_PREP_100MS : Fld := ⟨10487832, 8, 20⟩
/-- `JOB_CTRL.ARM` (12_jobs_and_autonomy.md R299). -/
def Fld.JOB_CTRL_ARM : Fld := ⟨10487936, 1, 0⟩
/-- `JOB_CTRL.CANCEL` (12_jobs_and_autonomy.md R299). -/
def Fld.JOB_CTRL_CANCEL : Fld := ⟨10487937, 1, 0⟩
/-- `JOB_CTRL.IMMEDIATE` (12_jobs_and_autonomy.md R299). -/
def Fld.JOB_CTRL_IMMEDIATE : Fld := ⟨10487938, 1, 0⟩
/-- `JOB_CTRL.STOP` (12_jobs_and_autonomy.md R299). -/
def Fld.JOB_CTRL_STOP : Fld := ⟨10487939, 1, 0⟩
/-- `JOB_CTRL.MARK` (12_jobs_and_autonomy.md R299). -/
def Fld.JOB_CTRL_MARK : Fld := ⟨10487940, 2, 0⟩
/-- `JOB_CTRL.SET_NEXT` (12_jobs_and_autonomy.md R299). -/
def Fld.JOB_CTRL_SET_NEXT : Fld := ⟨10487942, 2, 0⟩
/-- `JOB_REFUSE.DATA` (12_jobs_and_autonomy.md R304). -/
def Fld.JOB_REFUSE : Fld := ⟨10489856, 32, 0⟩
/-- `JOB_EVENTS.EV` (12_jobs_and_autonomy.md R314). -/
def Fld.JOB_EVENTS_EV : Fld := ⟨10490880, 7, 0⟩
/-- `JOB_EVENT_EN.EN` (12_jobs_and_autonomy.md R314). -/
def Fld.JOB_EVENT_EN : Fld := ⟨10491008, 7, 126⟩
/-- `JOB_CNT_REFUSED.COUNT` (12_jobs_and_autonomy.md R304). -/
def Fld.JOB_CNT_REFUSED : Fld := ⟨10491392, 32, 0⟩
/-- `JOB_CNT_LOAD_FAIL.COUNT` (12_jobs_and_autonomy.md R299). -/
def Fld.JOB_CNT_LOAD_FAIL : Fld := ⟨10491520, 32, 0⟩
/-- `JOB_CNT_REPLACED.COUNT` (12_jobs_and_autonomy.md R299). -/
def Fld.JOB_CNT_REPLACED : Fld := ⟨10491648, 32, 0⟩
/-- `JOB_CNT_REPEAT.COUNT` (12_jobs_and_autonomy.md R301). -/
def Fld.JOB_CNT_REPEAT : Fld := ⟨10491776, 32, 0⟩
/-- 12_jobs_and_autonomy.md R301; internal, no register: job-table entry NEXT was selected from, 256 for none -/
def Fld.JOB_H_ENTRY : Fld := ⟨35184372416616, 9, 256⟩
/-- 12_jobs_and_autonomy.md R301; internal, no register: arming was requested -/
def Fld.JOB_H_WANT : Fld := ⟨35184372416617, 1, 0⟩
/-- 12_jobs_and_autonomy.md R302; internal, no register: that arming is immediate -/
def Fld.JOB_H_IMMED : Fld := ⟨35184372416618, 1, 0⟩
/-- 12_jobs_and_autonomy.md R305; internal, no register: switch mark input of that arming -/
def Fld.JOB_H_MARK : Fld := ⟨35184372416619, 2, 0⟩
/-- 12_jobs_and_autonomy.md R305; internal, no register: clock in which NEXT became ARMED -/
def Fld.JOB_H_ARMCLK : Fld := ⟨35184372416620, 64, 0⟩
/-- 12_jobs_and_autonomy.md R309; internal, no register: interval between the last two accepted edges of a mark; instance is the mark -/
def Fld.JOB_H_INTERVAL : Fld := ⟨35184372416621, 64, 0⟩
/-- 12_jobs_and_autonomy.md R309; internal, no register: device time of the last accepted edge of a mark; instance is the mark -/
def Fld.JOB_H_MARKTIME : Fld := ⟨35184372416622, 64, 0⟩
/-- 01_frame_journey.md R11; internal, no register: hamper that a latched fabric message names -/
def Fld.JOB_H_LATCHH : Fld := ⟨35184372416623, 12, 0⟩
/-- 01_frame_journey.md R11; internal, no register: switch mark input of a latched fabric message -/
def Fld.JOB_H_LATCHM : Fld := ⟨35184372416624, 2, 0⟩
/-- 01_frame_journey.md R11; internal, no register: operation of a latched fabric message: 1 PREPARE, 2 ARM, 3 CANCEL -/
def Fld.JOB_H_LATCHO : Fld := ⟨35184372416625, 2, 1⟩
/-- 01_frame_journey.md R11; internal, no register: job ID of a latched fabric message -/
def Fld.JOB_H_LATCHJ : Fld := ⟨35184372416626, 16, 0⟩
/-- 01_frame_journey.md R11; internal, no register: arming time of a latched ARM -/
def Fld.JOB_H_LATCHT : Fld := ⟨35184372416627, 64, 0⟩
/-- 12_jobs_and_autonomy.md R307; internal, no register: the channel's first frame of the new job has not come; instance is the channel -/
def Fld.JOB_H_SWPEND : Fld := ⟨35184372416628, 1, 0⟩
/-- 12_jobs_and_autonomy.md R307; internal, no register: running time at which the last switch edge was accepted -/
def Fld.JOB_H_SWEDGE : Fld := ⟨35184372416629, 64, 0⟩
/-- `JOB_TRIG_CFG.EN` (12_jobs_and_autonomy.md R306). -/
def Fld.JOB_TRIG_CFG_EN : Fld := ⟨10616832, 1, 0⟩
/-- `JOB_TRIG_CFG.MODE` (12_jobs_and_autonomy.md R306). -/
def Fld.JOB_TRIG_CFG_MODE : Fld := ⟨10616833, 1, 0⟩
/-- `JOB_TRIG_CFG.ENC` (12_jobs_and_autonomy.md R306). -/
def Fld.JOB_TRIG_CFG_ENC : Fld := ⟨10616834, 2, 0⟩
/-- `JOB_TRIG_CFG.ARM` (12_jobs_and_autonomy.md R306). -/
def Fld.JOB_TRIG_CFG_ARM : Fld := ⟨10616836, 1, 0⟩
/-- `JOB_TRIG_CFG.MARK` (12_jobs_and_autonomy.md R306). -/
def Fld.JOB_TRIG_CFG_MARK : Fld := ⟨10616837, 2, 0⟩
/-- `JOB_TRIG_CFG.INHIBIT` (12_jobs_and_autonomy.md R306). -/
def Fld.JOB_TRIG_CFG_INHIBIT : Fld := ⟨10616839, 1, 0⟩
/-- `JOB_TRIG_CFG.DEST` (12_jobs_and_autonomy.md R306). -/
def Fld.JOB_TRIG_CFG_DEST : Fld := ⟨10616840, 2, 0⟩
/-- `JOB_TRIG_PITCH_INT.PITCH_INT` (12_jobs_and_autonomy.md R306). -/
def Fld.JOB_TRIG_PITCH_INT : Fld := ⟨10616960, 32, 0⟩
/-- `JOB_TRIG_PITCH_FRAC.PITCH_FRAC` (12_jobs_and_autonomy.md R306). -/
def Fld.JOB_TRIG_PITCH_FRAC : Fld := ⟨10617088, 16, 0⟩
/-- `JOB_TRIG_OFFSET.OFFSET` (12_jobs_and_autonomy.md R306). -/
def Fld.JOB_TRIG_OFFSET : Fld := ⟨10617216, 32, 0⟩
/-- `BOOT_STATUS.STATE` (16_boot_image.md R408). -/
def Fld.BOOT_STATUS_STATE : Fld := ⟨8388608, 2, 0⟩
/-- `BOOT_STATUS.ACTIVE` (16_boot_image.md R408). -/
def Fld.BOOT_STATUS_ACTIVE : Fld := ⟨8388610, 1, 0⟩
/-- `BOOT_STATUS.TRIAL` (16_boot_image.md R408). -/
def Fld.BOOT_STATUS_TRIAL : Fld := ⟨8388611, 1, 0⟩
/-- `BOOT_STATUS.PROVISIONED` (16_boot_image.md R408). -/
def Fld.BOOT_STATUS_PROVISIONED : Fld := ⟨8388612, 1, 0⟩
/-- `BOOT_STATUS.CONFIG_PENDING` (16_boot_image.md R408). -/
def Fld.BOOT_STATUS_CONFIG_PENDING : Fld := ⟨8388613, 1, 0⟩
/-- `BOOT_STATUS.NOR_SLOW` (16_boot_image.md R408). -/
def Fld.BOOT_STATUS_NOR_SLOW : Fld := ⟨8388614, 1, 0⟩
/-- `BOOT_STATUS.MAP_BAD` (16_boot_image.md R408). -/
def Fld.BOOT_STATUS_MAP_BAD : Fld := ⟨8388615, 1, 0⟩
/-- `BOOT_STATUS.FW_SRC` (16_boot_image.md R408). -/
def Fld.BOOT_STATUS_FW_SRC : Fld := ⟨8388616, 2, 0⟩
/-- `BOOT_STATUS.BOOT_US` (16_boot_image.md R408). -/
def Fld.BOOT_STATUS_BOOT_US : Fld := ⟨8388624, 16, 0⟩
/-- `BOOT_RESULT.STATUS` (16_boot_image.md R407). -/
def Fld.BOOT_RESULT_STATUS : Fld := ⟨8388736, 8, 255⟩
/-- `BOOT_RESULT.STEP` (16_boot_image.md R407). -/
def Fld.BOOT_RESULT_STEP : Fld := ⟨8388744, 4, 15⟩
/-- `BOOT_RESULT.SLOT_STATE` (16_boot_image.md R407). -/
def Fld.BOOT_RESULT_SLOT_STATE : Fld := ⟨8388748, 2, 0⟩
/-- `BOOT_SEQ.SEQ` (16_boot_image.md R396). -/
def Fld.BOOT_SEQ : Fld := ⟨8388992, 32, 0⟩
/-- `BOOT_FW_VERSION.VERSION` (16_boot_image.md R404). -/
def Fld.BOOT_FW_VERSION : Fld := ⟨8389248, 32, 0⟩
/-- `BOOT_FW_SVN.SVN` (16_boot_image.md R404). -/
def Fld.BOOT_FW_SVN_SVN : Fld := ⟨8389376, 6, 0⟩
/-- `BOOT_FW_SVN.SVN_MIN` (16_boot_image.md R404). -/
def Fld.BOOT_FW_SVN_SVN_MIN : Fld := ⟨8389384, 6, 0⟩
/-- `BOOT_FW_SVN.KEY_GEN` (16_boot_image.md R404). -/
def Fld.BOOT_FW_SVN_KEY_GEN : Fld := ⟨8389392, 1, 0⟩
/-- `BOOT_DIGEST.DATA` (16_boot_image.md R399). -/
def Fld.BOOT_DIGEST : Fld := ⟨8389632, 32, 0⟩
/-- `BOOT_FW_DIGEST.DATA` (16_boot_image.md R404). -/
def Fld.BOOT_FW_DIGEST : Fld := ⟨8390656, 32, 0⟩
/-- `BOOT_UPD_STATUS.UPD_STATE` (16_boot_image.md R411). -/
def Fld.BOOT_UPD_STATUS_UPD_STATE : Fld := ⟨8391680, 3, 0⟩
/-- `BOOT_UPD_STATUS.LAST_STATUS` (16_boot_image.md R411). -/
def Fld.BOOT_UPD_STATUS_LAST_STATUS : Fld := ⟨8391688, 8, 0⟩
/-- `BOOT_UPD_STATUS.LAST_STEP` (16_boot_image.md R411). -/
def Fld.BOOT_UPD_STATUS_LAST_STEP : Fld := ⟨8391696, 4, 15⟩
/-- `BOOT_CTRL.CONFIRM` (16_boot_image.md R411). -/
def Fld.BOOT_CTRL_CONFIRM : Fld := ⟨8391808, 1, 0⟩
/-- `BOOT_CTRL.CONFIRM_S` (16_boot_image.md R411). -/
def Fld.BOOT_CTRL_CONFIRM_S : Fld := ⟨8391824, 16, 60⟩
/-- `BOOT_EVENTS.EV` (16_boot_image.md R415). -/
def Fld.BOOT_EVENTS_EV : Fld := ⟨8391936, 7, 0⟩
/-- `BOOT_EVENT_EN.EN` (16_boot_image.md R415). -/
def Fld.BOOT_EVENT_EN : Fld := ⟨8392064, 7, 127⟩
/-- 16_boot_image.md R396; internal, no register: thermos trial bit of a slot; instance is the slot -/
def Fld.BOOT_H_TRIALBIT : Fld := ⟨35184372351094, 1, 0⟩
/-- 16_boot_image.md R411; internal, no register: slot that was active before the trial -/
def Fld.BOOT_H_FORMER : Fld := ⟨35184372351095, 1, 0⟩
/-- 16_boot_image.md R407; internal, no register: a slot has passed every step since device reset -/
def Fld.BOOT_H_PASSED : Fld := ⟨35184372351096, 1, 0⟩
/-- 21_register_map.md R517; internal, no register: settings kept in NAND have been reapplied since device reset -/
def Fld.BOOT_H_SETTLED : Fld := ⟨35184372351097, 1, 0⟩
/-- 22_electrical_package.md R533; internal, no register: state of the TAP controller of IEEE 1149.1, 0 Test-Logic-Reset -/
def Fld.JTAG_H_TAP : Fld := ⟨35184372351098, 4, 0⟩
/-- 22_electrical_package.md R533; internal, no register: level of TRST_N -/
def Fld.JTAG_H_TRST : Fld := ⟨35184372351099, 1, 1⟩
/-- 22_electrical_package.md R533; internal, no register: instruction: 0 BYPASS, 1 IDCODE, 2 SAMPLE/PRELOAD, 3 EXTEST, 4 CLAMP, 5 HIGHZ -/
def Fld.JTAG_H_IR : Fld := ⟨35184372351100, 3, 1⟩
/-- 22_electrical_package.md R533; internal, no register: bypass register -/
def Fld.JTAG_H_BYPASS : Fld := ⟨35184372351101, 1, 0⟩
/-- 22_electrical_package.md R533; internal, no register: boundary-scan register; instance is the CMOS ball -/
def Fld.JTAG_H_BSR : Fld := ⟨35184372351102, 1, 0⟩
/-- 16_boot_image.md R403; internal, no register: lane whose recovered clock drives RCLKOUT, 0xFF for none -/
def Fld.BOOT_H_RCLK : Fld := ⟨35184372351103, 8, 255⟩
/-- 16_boot_image.md R410; internal, no register: the running restart takes its code from the NOR (activation or rollback) -/
def Fld.BOOT_H_FROMNOR : Fld := ⟨35184372351104, 1, 0⟩
/-- 01_frame_journey.md R10; internal, no register: the management complex does not run firmware (before its start, or in a restart) -/
def Fld.BOOT_H_AWAY : Fld := ⟨35184372351105, 1, 1⟩
/-- 20_power_sleep_reset.md R485; internal, no register: a management restart is in progress -/
def Fld.BOOT_H_RESTARTING : Fld := ⟨35184372351106, 1, 0⟩
/-- 16_boot_image.md R411; internal, no register: device time at which the trial firmware started -/
def Fld.BOOT_H_STARTED : Fld := ⟨35184372351107, 64, 0⟩
/-- `PWR_STATUS.STATE` (20_power_sleep_reset.md R491). -/
def Fld.PWR_STATUS_STATE : Fld := ⟨4194304, 2, 0⟩
/-- `PWR_STATUS.WAKE_SRC` (20_power_sleep_reset.md R491). -/
def Fld.PWR_STATUS_WAKE_SRC : Fld := ⟨4194308, 4, 15⟩
/-- `PWR_STATUS.RESET_CAUSE` (20_power_sleep_reset.md R491). -/
def Fld.PWR_STATUS_RESET_CAUSE : Fld := ⟨4194312, 8, 0⟩
/-- `PWR_STATUS.MGT_RESTARTS` (20_power_sleep_reset.md R491). -/
def Fld.PWR_STATUS_MGT_RESTARTS : Fld := ⟨4194320, 16, 0⟩
/-- `PWR_CTRL.SLEEP` (20_power_sleep_reset.md R491). -/
def Fld.PWR_CTRL_SLEEP : Fld := ⟨4194432, 1, 0⟩
/-- `PWR_CTRL.MGT_RESTART` (20_power_sleep_reset.md R491). -/
def Fld.PWR_CTRL_MGT_RESTART : Fld := ⟨4194433, 1, 0⟩
/-- `PWR_CTRL.CLR_CNT` (20_power_sleep_reset.md R491). -/
def Fld.PWR_CTRL_CLR_CNT : Fld := ⟨4194434, 1, 0⟩
/-- `PWR_CFG.WAKE_EN` (20_power_sleep_reset.md R496). -/
def Fld.PWR_CFG_WAKE_EN : Fld := ⟨4194560, 4, 15⟩
/-- `PWR_CFG.DRAIN_MS` (20_power_sleep_reset.md R496). -/
def Fld.PWR_CFG_DRAIN_MS : Fld := ⟨4194568, 8, 200⟩
/-- `PWR_CFG.RESUME_MS` (20_power_sleep_reset.md R496). -/
def Fld.PWR_CFG_RESUME_MS : Fld := ⟨4194576, 16, 1000⟩
/-- `PWR_RTC_LO.SEC` (20_power_sleep_reset.md R490). -/
def Fld.PWR_RTC_SEC : Fld := ⟨4194816, 48, 0⟩
/-- `PWR_RTC_HI.TICKS` (20_power_sleep_reset.md R490). -/
def Fld.PWR_RTC_HI_TICKS : Fld := ⟨4194960, 15, 0⟩
/-- `PWR_RTC_HI.RTC_VALID` (20_power_sleep_reset.md R490). -/
def Fld.PWR_RTC_HI_RTC_VALID : Fld := ⟨4194975, 1, 0⟩
/-- `PWR_ALARM_LO.ALARM` (20_power_sleep_reset.md R496). -/
def Fld.PWR_ALARM : Fld := ⟨4195072, 48, 0⟩
/-- `PWR_SLEEP_LAST.SECONDS` (20_power_sleep_reset.md R490). -/
def Fld.PWR_SLEEP_LAST_SECONDS : Fld := ⟨4195328, 32, 0⟩
/-- `PWR_SLEEP_COUNT.COUNT` (20_power_sleep_reset.md R490). -/
def Fld.PWR_SLEEP_COUNT : Fld := ⟨4195456, 32, 0⟩
/-- `PWR_THERM_STATUS.MAX` (20_power_sleep_reset.md R500). -/
def Fld.PWR_THERM_STATUS_MAX : Fld := ⟨4195840, 8, 0⟩
/-- `PWR_THERM_STATUS.SENSOR` (20_power_sleep_reset.md R500). -/
def Fld.PWR_THERM_STATUS_SENSOR : Fld := ⟨4195848, 8, 0⟩
/-- `PWR_THERM_CFG.TJ_WARN` (20_power_sleep_reset.md R500). -/
def Fld.PWR_THERM_CFG_TJ_WARN : Fld := ⟨4195968, 8, 95⟩
/-- `PWR_TEMP.T` (20_power_sleep_reset.md R500). -/
def Fld.PWR_TEMP_T : Fld := ⟨4196096, 8, 0⟩
/-- `PWR_GATE.GATE` (20_power_sleep_reset.md R499). -/
def Fld.PWR_GATE : Fld := ⟨4196352, 8, 0⟩
/-- `PWR_AVS.CODE` (20_power_sleep_reset.md R483). -/
def Fld.PWR_AVS_CODE : Fld := ⟨4196480, 5, 16⟩
/-- `PWR_EVENTS.EV` (20_power_sleep_reset.md R504). -/
def Fld.PWR_EVENTS_EV : Fld := ⟨4196864, 9, 0⟩
/-- `PWR_EVENT_EN.EN` (20_power_sleep_reset.md R504). -/
def Fld.PWR_EVENT_EN : Fld := ⟨4196992, 9, 510⟩
/-- `PWR_CNT_STALE.COUNT` (20_power_sleep_reset.md R487). -/
def Fld.PWR_CNT_STALE : Fld := ⟨4202496, 32, 0⟩
/-- 20_power_sleep_reset.md R491; internal, no register: power state: 0 ACTIVE, 1 ENTERING, 2 SLEEP, 3 WAKING -/
def Fld.PWR_H_STATE : Fld := ⟨35184372220036, 3, 0⟩
/-- 20_power_sleep_reset.md R491; internal, no register: source of a wake event latched during ENTERING, 16 for none -/
def Fld.PWR_H_LATCHED : Fld := ⟨35184372220037, 5, 16⟩
/-- 20_power_sleep_reset.md R493; internal, no register: device time at which the entry to SLEEP began -/
def Fld.PWR_H_ENTERT : Fld := ⟨35184372220038, 64, 0⟩
/-- 20_power_sleep_reset.md R498; internal, no register: the timebase has been stepped since the entry to SLEEP began -/
def Fld.PWR_H_STEPPED : Fld := ⟨35184372220039, 1, 0⟩
/-- 20_power_sleep_reset.md R502; internal, no register: the rails other than VAON are down -/
def Fld.PWR_H_OFF : Fld := ⟨35184372220040, 1, 0⟩
/-- 20_power_sleep_reset.md R493; internal, no register: step 2 of the entry has ended -/
def Fld.PWR_H_DRAINED : Fld := ⟨35184372220041, 1, 0⟩
/-- 20_power_sleep_reset.md R492; internal, no register: device time an encoder last showed a non-zero SPEED; instance is the encoder -/
def Fld.PWR_H_MOVET : Fld := ⟨35184372220042, 64, 0⟩
/-- 20_power_sleep_reset.md R492; internal, no register: that encoder has ever shown a non-zero SPEED; instance is the encoder -/
def Fld.PWR_H_MOVEV : Fld := ⟨35184372220043, 1, 0⟩
/-- 20_power_sleep_reset.md R490; internal, no register: device time at which the timebase stopped (thermos) -/
def Fld.PWR_H_STOPT : Fld := ⟨35184372220044, 64, 0⟩
/-- 20_power_sleep_reset.md R496; internal, no register: running time of the wake event -/
def Fld.PWR_H_WAKET : Fld := ⟨35184372220045, 64, 0⟩
/-- 20_power_sleep_reset.md R490; internal, no register: RTC ticks at which the timebase stopped (thermos) -/
def Fld.PWR_H_STOPR : Fld := ⟨35184372220046, 63, 0⟩
/-- 20_power_sleep_reset.md R490; internal, no register: fraction of an RTC tick gathered, in parts of 1,200,000,000 -/
def Fld.PWR_H_RTCACC : Fld := ⟨35184372220047, 32, 0⟩
/-- 20_power_sleep_reset.md R498; internal, no register: trigger generators are suspended -/
def Fld.PWR_H_SUSPEND : Fld := ⟨35184372220048, 1, 0⟩
/-- 20_power_sleep_reset.md R498; internal, no register: clocks since ACTIVE while generators are suspended -/
def Fld.PWR_H_ACTIVET : Fld := ⟨35184372220049, 64, 0⟩
/-- 20_power_sleep_reset.md R498; internal, no register: marks whose next accepted edge every bank with MODEL_EN adopts; bit m is mark input m -/
def Fld.PWR_H_ADOPT : Fld := ⟨35184372220050, 4, 0⟩
/-- 20_power_sleep_reset.md R501; internal, no register: thermal trip flag (thermos) -/
def Fld.PWR_H_TRIP : Fld := ⟨35184372220051, 1, 0⟩
/-- 20_power_sleep_reset.md R501; internal, no register: the device is held in reset after a trip -/
def Fld.PWR_H_HELD : Fld := ⟨35184372220052, 1, 0⟩
/-- 20_power_sleep_reset.md R500; internal, no register: MAX stands above TJ_WARN (hysteresis) -/
def Fld.PWR_H_OVER : Fld := ⟨35184372220053, 1, 0⟩
/-- 20_power_sleep_reset.md R500; internal, no register: MAX stands above 105 degrees C (hysteresis) -/
def Fld.PWR_H_OVER2 : Fld := ⟨35184372220054, 1, 0⟩
/-- 13_storage_job_library.md R322; internal, no register: oldest scrub stamp (thermos), RTC seconds -/
def Fld.PWR_H_SCRUBT : Fld := ⟨35184372220055, 48, 0⟩
/-- 02_lane_complex.md R54; internal, no register: rung at which a lane was ACTIVE on entry to SLEEP (thermos); instance is the lane -/
def Fld.PWR_H_KEPT_RUNG : Fld := ⟨35184372220056, 3, 0⟩
/-- 20_power_sleep_reset.md R489; internal, no register: reset of a block in progress; instance is the unit number of R462 -/
def Fld.PWR_H_RESETTING : Fld := ⟨35184372220057, 1, 0⟩
/-- 19_self_test.md R475; internal, no register: unit under field test, 63 for none -/
def Fld.BIST_H_UNIT : Fld := ⟨35184372220058, 6, 63⟩
/-- `BIST_CTRL.UNIT` (19_self_test.md R474). -/
def Fld.BIST_CTRL_UNIT : Fld := ⟨6291456, 6, 0⟩
/-- `BIST_CTRL.KINDS` (19_self_test.md R474). -/
def Fld.BIST_CTRL_KINDS : Fld := ⟨6291464, 3, 0⟩
/-- `BIST_CTRL.LEVEL` (19_self_test.md R474). -/
def Fld.BIST_CTRL_LEVEL : Fld := ⟨6291468, 2, 0⟩
/-- `BIST_CTRL.START` (19_self_test.md R474). -/
def Fld.BIST_CTRL_START : Fld := ⟨6291472, 1, 0⟩
/-- `BIST_CTRL.STOP` (19_self_test.md R474). -/
def Fld.BIST_CTRL_STOP : Fld := ⟨6291473, 1, 0⟩
/-- `BIST_STATUS.STATE` (19_self_test.md R474). -/
def Fld.BIST_STATUS_STATE : Fld := ⟨6291584, 2, 0⟩
/-- `BIST_STATUS.UNIT` (19_self_test.md R474). -/
def Fld.BIST_STATUS_UNIT : Fld := ⟨6291592, 6, 0⟩
/-- `BIST_STATUS.POWERON` (19_self_test.md R474). -/
def Fld.BIST_STATUS_POWERON : Fld := ⟨6291600, 1, 0⟩
/-- `BIST_STATUS.DEGRADED` (19_self_test.md R474). -/
def Fld.BIST_STATUS_DEGRADED : Fld := ⟨6291601, 1, 0⟩
/-- `BIST_STATUS.LAST` (19_self_test.md R474). -/
def Fld.BIST_STATUS_LAST : Fld := ⟨6291608, 8, 0⟩
/-- `BIST_CFG.ROLL_LEVEL` (19_self_test.md R474). -/
def Fld.BIST_CFG_ROLL_LEVEL : Fld := ⟨6291712, 2, 1⟩
/-- `BIST_SEL.UNIT` (19_self_test.md R477). -/
def Fld.BIST_SEL_UNIT : Fld := ⟨6291840, 6, 0⟩
/-- `BIST_RESULT.DATA` (19_self_test.md R477). -/
def Fld.BIST_RESULT : Fld := ⟨6291968, 32, 0⟩
/-- `BIST_HEALTH.UNITS` (19_self_test.md R476). -/
def Fld.BIST_HEALTH_UNITS : Fld := ⟨6292992, 32, 0⟩
/-- `BIST_REPAIR.ROWS` (19_self_test.md R466). -/
def Fld.BIST_REPAIR_ROWS : Fld := ⟨6293504, 16, 0⟩
/-- `BIST_REPAIR.COLS` (19_self_test.md R466). -/
def Fld.BIST_REPAIR_COLS : Fld := ⟨6293520, 16, 0⟩
/-- `BIST_LOG_STATUS.LEVEL` (19_self_test.md R467). -/
def Fld.BIST_LOG_STATUS_LEVEL : Fld := ⟨6294016, 7, 0⟩
/-- `BIST_LOG_STATUS.TOTAL` (19_self_test.md R467). -/
def Fld.BIST_LOG_STATUS_TOTAL : Fld := ⟨6294032, 16, 0⟩
/-- `BIST_LOG_SEL.INDEX` (19_self_test.md R467). -/
def Fld.BIST_LOG_SEL_INDEX : Fld := ⟨6294144, 6, 0⟩
/-- `BIST_LOG_ENTRY.DATA` (19_self_test.md R467). -/
def Fld.BIST_LOG_ENTRY : Fld := ⟨6294528, 32, 0⟩
/-- `BIST_ABIST_SEL.UNIT` (19_self_test.md R471). -/
def Fld.BIST_ABIST_SEL_UNIT : Fld := ⟨6295552, 6, 0⟩
/-- `BIST_ABIST_SEL.ITEM` (19_self_test.md R471). -/
def Fld.BIST_ABIST_SEL_ITEM : Fld := ⟨6295560, 4, 0⟩
/-- `BIST_ABIST_SEL.LANE` (19_self_test.md R471). -/
def Fld.BIST_ABIST_SEL_LANE : Fld := ⟨6295564, 2, 0⟩
/-- `BIST_ABIST_SEL.RUNG` (19_self_test.md R471). -/
def Fld.BIST_ABIST_SEL_RUNG : Fld := ⟨6295568, 3, 0⟩
/-- `BIST_ABIST_VAL.VALUE` (19_self_test.md R471). -/
def Fld.BIST_ABIST_VAL_VALUE : Fld := ⟨6295680, 32, 2147483648⟩
/-- `BIST_EVENTS.EV` (19_self_test.md R479). -/
def Fld.BIST_EVENTS_EV : Fld := ⟨6296064, 4, 0⟩
/-- `BIST_EVENT_EN.EN` (19_self_test.md R479). -/
def Fld.BIST_EVENT_EN : Fld := ⟨6296192, 4, 14⟩
/-- 19_self_test.md R477; internal, no register: run number of the last test started -/
def Fld.BIST_H_RUN : Fld := ⟨35184372285595, 32, 0⟩
/-- 19_self_test.md R477; internal, no register: run number of the running field test -/
def Fld.BIST_H_FRUN : Fld := ⟨35184372285596, 32, 0⟩
/-- 19_self_test.md R474; internal, no register: kinds of the running field test -/
def Fld.BIST_H_KINDS : Fld := ⟨35184372285597, 3, 0⟩
/-- 19_self_test.md R474; internal, no register: level of the running field test -/
def Fld.BIST_H_LEVEL : Fld := ⟨35184372285598, 2, 0⟩
/-- 19_self_test.md R477; internal, no register: device time at which the running field test started -/
def Fld.BIST_H_T0 : Fld := ⟨35184372285599, 64, 0⟩
/-- 19_self_test.md R474; internal, no register: the running field test is to end INCOMPLETE -/
def Fld.BIST_H_STOPPED : Fld := ⟨35184372285600, 1, 0⟩
/-- 19_self_test.md R477; internal, no register: run number of the running rolling test -/
def Fld.BIST_H_ROLLRUN : Fld := ⟨35184372285601, 32, 0⟩
/-- 19_self_test.md R477; internal, no register: device time at which the running rolling test started -/
def Fld.BIST_H_ROLLT0 : Fld := ⟨35184372285602, 64, 0⟩
/-- 19_self_test.md R476; internal, no register: health of a unit; instance is the unit number of R462 -/
def Fld.BIST_H_HEALTH : Fld := ⟨35184372285603, 2, 0⟩
/-- `FAB_PORT_STATUS.STATE` (15_botex_fabric.md R364). -/
def Fld.FAB_PORT_STATUS_STATE : Fld := ⟨150994944, 3, 0⟩
/-- `FAB_PORT_STATUS.VER` (15_botex_fabric.md R364). -/
def Fld.FAB_PORT_STATUS_VER : Fld := ⟨150994948, 2, 0⟩
/-- `FAB_PORT_STATUS.LANES` (15_botex_fabric.md R364). -/
def Fld.FAB_PORT_STATUS_LANES : Fld := ⟨150994950, 2, 0⟩
/-- `FAB_PORT_STATUS.NEIGH_ID` (15_botex_fabric.md R364). -/
def Fld.FAB_PORT_STATUS_NEIGH_ID : Fld := ⟨150994952, 8, 253⟩
/-- `FAB_PORT_STATUS.PARENT` (15_botex_fabric.md R364). -/
def Fld.FAB_PORT_STATUS_PARENT : Fld := ⟨150994960, 1, 0⟩
/-- `FAB_PORT_NEIGH_LO.UID` (15_botex_fabric.md R373). -/
def Fld.FAB_PORT_NEIGH : Fld := ⟨150995072, 64, 0⟩
/-- `FAB_PORT_CFG.ASYM` (15_botex_fabric.md R379). -/
def Fld.FAB_PORT_CFG_ASYM : Fld := ⟨150995328, 16, 0⟩
/-- `FAB_PORT_CTRL.WAKE` (15_botex_fabric.md R387). -/
def Fld.FAB_PORT_CTRL_WAKE : Fld := ⟨150995456, 1, 0⟩
/-- `FAB_PORT_CNT_TX.COUNT` (15_botex_fabric.md R368). -/
def Fld.FAB_PORT_CNT_TX : Fld := ⟨150995968, 32, 0⟩
/-- `FAB_PORT_CNT_RX.COUNT` (15_botex_fabric.md R368). -/
def Fld.FAB_PORT_CNT_RX : Fld := ⟨150996096, 32, 0⟩
/-- `FAB_PORT_CNT_RETRY.COUNT` (15_botex_fabric.md R368). -/
def Fld.FAB_PORT_CNT_RETRY : Fld := ⟨150996224, 32, 0⟩
/-- `FAB_PORT_CNT_POISON.COUNT` (15_botex_fabric.md R368). -/
def Fld.FAB_PORT_CNT_POISON : Fld := ⟨150996352, 32, 0⟩
/-- `FAB_PORT_CNT_CRC.COUNT` (15_botex_fabric.md R365). -/
def Fld.FAB_PORT_CNT_CRC : Fld := ⟨150996480, 32, 0⟩
/-- `FAB_NODE.NODE_ID` (15_botex_fabric.md R376). -/
def Fld.FAB_NODE_NODE_ID : Fld := ⟨151126016, 8, 253⟩
/-- `FAB_NODE.ROOT` (15_botex_fabric.md R376). -/
def Fld.FAB_NODE_ROOT : Fld := ⟨151126024, 1, 0⟩
/-- `FAB_NODE.TIME_LOCKED` (15_botex_fabric.md R376). -/
def Fld.FAB_NODE_TIME_LOCKED : Fld := ⟨151126025, 1, 0⟩
/-- `FAB_NODE.DEPTH` (15_botex_fabric.md R376). -/
def Fld.FAB_NODE_DEPTH : Fld := ⟨151126026, 6, 0⟩
/-- `FAB_NODE.NODES` (15_botex_fabric.md R376). -/
def Fld.FAB_NODE_NODES : Fld := ⟨151126032, 7, 0⟩
/-- `FAB_UID_LO.UID` (15_botex_fabric.md R373). -/
def Fld.FAB_UID_LO_UID : Fld := ⟨151126144, 32, 0⟩
/-- `FAB_UID_HI.UID` (15_botex_fabric.md R373). -/
def Fld.FAB_UID_HI_UID : Fld := ⟨151126272, 32, 0⟩
/-- `FAB_ROOT_LO.UID` (15_botex_fabric.md R374). -/
def Fld.FAB_ROOT : Fld := ⟨151126400, 64, 0⟩
/-- `FAB_PIN.PIN_ID` (15_botex_fabric.md R376). -/
def Fld.FAB_PIN_PIN_ID : Fld := ⟨151126656, 6, 0⟩
/-- `FAB_PIN.PIN_EN` (15_botex_fabric.md R376). -/
def Fld.FAB_PIN_PIN_EN : Fld := ⟨151126664, 1, 0⟩
/-- `FAB_CFG.HOP_LIMIT` (15_botex_fabric.md R371). -/
def Fld.FAB_CFG_HOP_LIMIT : Fld := ⟨151126784, 6, 16⟩
/-- `FAB_CFG.CTRL_TIMEOUT_MS` (15_botex_fabric.md R371). -/
def Fld.FAB_CFG_CTRL_TIMEOUT_MS : Fld := ⟨151126792, 8, 10⟩
/-- `FAB_CFG.BULK_MIN_PCT` (15_botex_fabric.md R371). -/
def Fld.FAB_CFG_BULK_MIN_PCT : Fld := ⟨151126800, 7, 10⟩
/-- `FAB_TIME_OFFSET.OFFSET` (15_botex_fabric.md R379). -/
def Fld.FAB_TIME_OFFSET : Fld := ⟨151127040, 32, 0⟩
/-- `FAB_TIME_DELAY.DELAY` (15_botex_fabric.md R379). -/
def Fld.FAB_TIME_DELAY : Fld := ⟨151127168, 32, 0⟩
/-- `FAB_CTRL.FENCE` (15_botex_fabric.md R391). -/
def Fld.FAB_CTRL_FENCE : Fld := ⟨151127296, 1, 0⟩
/-- `FAB_CTRL.RESET` (15_botex_fabric.md R391). -/
def Fld.FAB_CTRL_RESET : Fld := ⟨151127297, 1, 0⟩
/-- `FAB_CTRL.CLR_CNT` (15_botex_fabric.md R391). -/
def Fld.FAB_CTRL_CLR_CNT : Fld := ⟨151127298, 1, 0⟩
/-- `FAB_CTRL.FENCED` (15_botex_fabric.md R391). -/
def Fld.FAB_CTRL_FENCED : Fld := ⟨151127304, 1, 0⟩
/-- `FAB_EVENTS.EV` (15_botex_fabric.md R392). -/
def Fld.FAB_EVENTS_EV : Fld := ⟨151127424, 10, 0⟩
/-- `FAB_EVENT_EN.EN` (15_botex_fabric.md R392). -/
def Fld.FAB_EVENT_EN : Fld := ⟨151127552, 10, 1023⟩
/-- `FAB_RX_WIN_BASE_LO.BASE` (15_botex_fabric.md R383). -/
def Fld.FAB_RX_WIN_BASE : Fld := ⟨151128064, 40, 0⟩
/-- `FAB_RX_WIN_SIZE.SIZE_MIB` (15_botex_fabric.md R383). -/
def Fld.FAB_RX_WIN_SIZE_SIZE_MIB : Fld := ⟨151128320, 16, 0⟩
/-- `FAB_CNT_LATE_REPLY.COUNT` (15_botex_fabric.md R378). -/
def Fld.FAB_CNT_LATE_REPLY : Fld := ⟨151128448, 32, 0⟩
/-- `FAB_CNT_LATE_LOST.COUNT` (15_botex_fabric.md R384). -/
def Fld.FAB_CNT_LATE_LOST : Fld := ⟨151128576, 32, 0⟩
/-- `FAB_ROUTE.PORT` (15_botex_fabric.md R377). -/
def Fld.FAB_ROUTE_PORT : Fld := ⟨151257088, 4, 15⟩
/-- `FAB_ROUTE.HOPS` (15_botex_fabric.md R377). -/
def Fld.FAB_ROUTE_HOPS : Fld := ⟨151257096, 6, 0⟩
/-- `FAB_ROUTE_COMMIT.COMMIT` (15_botex_fabric.md R377). -/
def Fld.FAB_ROUTE_COMMIT_COMMIT : Fld := ⟨151265280, 1, 0⟩
/-- `FAB_ROUTE_COMMIT.BCAST_MASK` (15_botex_fabric.md R377). -/
def Fld.FAB_ROUTE_COMMIT_BCAST_MASK : Fld := ⟨151265288, 8, 0⟩
/-- `FAB_ROUTE_COMMIT.EPOCH` (15_botex_fabric.md R377). -/
def Fld.FAB_ROUTE_COMMIT_EPOCH : Fld := ⟨151265296, 16, 0⟩
/-- `FAB_LATE_STATUS.LEVEL` (15_botex_fabric.md R384). -/
def Fld.FAB_LATE_STATUS_LEVEL : Fld := ⟨151388160, 9, 0⟩
/-- `FAB_LATE_STATUS.EMPTY` (15_botex_fabric.md R384). -/
def Fld.FAB_LATE_STATUS_EMPTY : Fld := ⟨151388176, 1, 1⟩
/-- `FAB_LATE_STATUS.OVF` (15_botex_fabric.md R384). -/
def Fld.FAB_LATE_STATUS_OVF : Fld := ⟨151388177, 1, 0⟩
/-- `FAB_LATE_POP.POP` (15_botex_fabric.md R384). -/
def Fld.FAB_LATE_POP : Fld := ⟨151388288, 1, 0⟩
/-- `FAB_LATE_HEAD.DATA` (15_botex_fabric.md R384). -/
def Fld.FAB_LATE_HEAD : Fld := ⟨151388672, 32, 0⟩
/-- 15_botex_fabric.md R377; internal, no register: staged output port of a node; instance is the node -/
def Fld.FAB_H_SPORT : Fld := ⟨35184376807588, 4, 15⟩
/-- 15_botex_fabric.md R377; internal, no register: staged path length of a node; instance is the node -/
def Fld.FAB_H_SHOPS : Fld := ⟨35184376807589, 6, 0⟩
/-- 15_botex_fabric.md R377; internal, no register: staged broadcast mask -/
def Fld.FAB_H_SMASK : Fld := ⟨35184376807590, 8, 0⟩
/-- 15_botex_fabric.md R374; internal, no register: root epoch held -/
def Fld.FAB_H_EPOCH : Fld := ⟨35184376807591, 32, 0⟩
/-- 15_botex_fabric.md R374; internal, no register: parent port, 15 for none -/
def Fld.FAB_H_PARENT : Fld := ⟨35184376807592, 4, 15⟩
/-- 15_botex_fabric.md R375; internal, no register: link-state sequence of the last record originated -/
def Fld.FAB_H_LSSEQ : Fld := ⟨35184376807593, 32, 0⟩
/-- 15_botex_fabric.md R376; internal, no register: epoch of the ID table adopted -/
def Fld.FAB_H_TABEPOCH : Fld := ⟨35184376807594, 32, 0⟩
/-- 15_botex_fabric.md R378; internal, no register: tag of the next control request -/
def Fld.FAB_H_TAG : Fld := ⟨35184376807595, 32, 0⟩
/-- 15_botex_fabric.md R379; internal, no register: number of the last time exchange -/
def Fld.FAB_H_XCHG : Fld := ⟨35184376807596, 32, 0⟩
/-- 15_botex_fabric.md R379; internal, no register: departure time of the last time request, in 1/16 ns -/
def Fld.FAB_H_T1 : Fld := ⟨35184376807597, 68, 0⟩
/-- 15_botex_fabric.md R379; internal, no register: that request has left and its exchange stands -/
def Fld.FAB_H_T1OK : Fld := ⟨35184376807598, 1, 0⟩
/-- 15_botex_fabric.md R380; internal, no register: sum of the offsets since the last rate correction (two's complement, 1/16 ns) -/
def Fld.FAB_H_SUM : Fld := ⟨35184376807599, 64, 0⟩
/-- 15_botex_fabric.md R380; internal, no register: exchanges since the last rate correction -/
def Fld.FAB_H_CNT : Fld := ⟨35184376807600, 7, 0⟩
/-- 15_botex_fabric.md R380; internal, no register: consecutive offsets within 2 ns -/
def Fld.FAB_H_GOOD : Fld := ⟨35184376807601, 7, 0⟩
/-- 15_botex_fabric.md R380; internal, no register: consecutive offsets outside 8 ns -/
def Fld.FAB_H_BAD : Fld := ⟨35184376807602, 4, 0⟩
/-- 15_botex_fabric.md R380; internal, no register: the first offset since joining has not been removed -/
def Fld.FAB_H_FIRST : Fld := ⟨35184376807603, 1, 0⟩
/-- 15_botex_fabric.md R368; internal, no register: next link sequence a port expects; instance is the port -/
def Fld.FAB_H_RXSEQ : Fld := ⟨35184376807604, 8, 0⟩
/-- 15_botex_fabric.md R366; internal, no register: next link sequence a port sends; instance is the port -/
def Fld.FAB_H_TXSEQ : Fld := ⟨35184376807605, 8, 0⟩
/-- 15_botex_fabric.md R368; internal, no register: a port awaits the resent packet; instance is the port -/
def Fld.FAB_H_NAKKED : Fld := ⟨35184376807606, 1, 0⟩
/-- 15_botex_fabric.md R369; internal, no register: credits a port holds of its neighbour; instance is 4 times the port plus the class -/
def Fld.FAB_H_CREDIT : Fld := ⟨35184376807607, 16, 0⟩
/-- 15_botex_fabric.md R367; internal, no register: alignment count of a port -/
def Fld.FAB_H_ALIGN : Fld := ⟨35184376807608, 8, 0⟩
/-- 15_botex_fabric.md R368; internal, no register: running time of the last ACK, of the last resend, or of the first packet sent that waits for an ACK; instance is the port -/
def Fld.FAB_H_ACKT : Fld := ⟨35184376807609, 64, 0⟩
/-- 15_botex_fabric.md R385; internal, no register: UID of this node's leader, from the boot image -/
def Fld.FAB_H_LEADER : Fld := ⟨35184376807610, 64, 0⟩
/-- `PIPE_STATUS.STATE` (05_pipeline_contexts.md R147). -/
def Fld.PIPE_STATUS_STATE : Fld := ⟨67108864, 3, 0⟩
/-- `PIPE_STATUS.CTX` (05_pipeline_contexts.md R147). -/
def Fld.PIPE_STATUS_CTX : Fld := ⟨67108872, 8, 0⟩
/-- `PIPE_STATUS.STRIPE` (05_pipeline_contexts.md R147). -/
def Fld.PIPE_STATUS_STRIPE : Fld := ⟨67108880, 8, 0⟩
/-- `PIPE_STATUS.BANK` (05_pipeline_contexts.md R147). -/
def Fld.PIPE_STATUS_BANK : Fld := ⟨67108888, 1, 0⟩
/-- `PIPE_CTRL.FENCE` (05_pipeline_contexts.md R147). -/
def Fld.PIPE_CTRL_FENCE : Fld := ⟨67108992, 1, 0⟩
/-- `PIPE_CTRL.RESET` (05_pipeline_contexts.md R147). -/
def Fld.PIPE_CTRL_RESET : Fld := ⟨67108993, 1, 0⟩
/-- `PIPE_CTRL.CLR_CNT` (05_pipeline_contexts.md R147). -/
def Fld.PIPE_CTRL_CLR_CNT : Fld := ⟨67108994, 1, 0⟩
/-- `PIPE_CNT_STRIPES.COUNT` (05_pipeline_contexts.md R140). -/
def Fld.PIPE_CNT_STRIPES : Fld := ⟨67109120, 32, 0⟩
/-- `PIPE_CNT_BUSY.COUNT` (05_pipeline_contexts.md R119). -/
def Fld.PIPE_CNT_BUSY : Fld := ⟨67109248, 32, 0⟩
/-- `PIPE_CNT_LOST.COUNT` (05_pipeline_contexts.md R148). -/
def Fld.PIPE_CNT_LOST : Fld := ⟨67109376, 32, 0⟩
/-- `PIPE_EVENTS.EV` (05_pipeline_contexts.md R149). -/
def Fld.PIPE_EVENTS_EV : Fld := ⟨67109504, 3, 0⟩
/-- `PIPE_STG_CNT_DPC_STATIC.COUNT` (06_pixel_corrections.md R164). -/
def Fld.PIPE_STG_CNT_DPC_STATIC : Fld := ⟨67117056, 32, 0⟩
/-- `PIPE_STG_CNT_DPC_DYN.COUNT` (06_pixel_corrections.md R164). -/
def Fld.PIPE_STG_CNT_DPC_DYN : Fld := ⟨67117184, 32, 0⟩
/-- `PIPE_STG_CNT_MERGE_MISS.COUNT` (06_pixel_corrections.md R158). -/
def Fld.PIPE_STG_CNT_MERGE_MISS : Fld := ⟨67117312, 32, 0⟩
/-- `PIPE_STG_CNT_FALLBACK.COUNT` (06_pixel_corrections.md R152). -/
def Fld.PIPE_STG_CNT_FALLBACK : Fld := ⟨67117440, 32, 0⟩
/-- `PIPE_STG_CNT_COMP_CLIP.COUNT` (06_pixel_corrections.md R160). -/
def Fld.PIPE_STG_CNT_COMP_CLIP : Fld := ⟨67117568, 32, 0⟩
/-- `PIPE_STG_CNT_LSC_CLIP.COUNT` (06_pixel_corrections.md R166). -/
def Fld.PIPE_STG_CNT_LSC_CLIP : Fld := ⟨67117696, 32, 0⟩
/-- `PIPE_STG_CNT_DM_CLIP.COUNT` (06_pixel_corrections.md R168). -/
def Fld.PIPE_STG_CNT_DM_CLIP : Fld := ⟨67117824, 32, 0⟩
/-- `PIPE_STG_CNT_IRS_CLIP.COUNT` (06_pixel_corrections.md R170). -/
def Fld.PIPE_STG_CNT_IRS_CLIP : Fld := ⟨67117952, 32, 0⟩
/-- `PIPE_STG_CNT_CCM_CLIP.COUNT` (06_pixel_corrections.md R171). -/
def Fld.PIPE_STG_CNT_CCM_CLIP : Fld := ⟨67118080, 32, 0⟩
/-- `PIPE_STG_CNT_TAP.COUNT` (06_pixel_corrections.md R177). -/
def Fld.PIPE_STG_CNT_TAP : Fld := ⟨67118208, 32, 0⟩
/-- `PIPE_STG_CNT_TAP_DROP.COUNT` (06_pixel_corrections.md R178). -/
def Fld.PIPE_STG_CNT_TAP_DROP : Fld := ⟨67118336, 32, 0⟩
/-- 05_pipeline_contexts.md R147; internal, no register: 0 IDLE, 1 RUNNING, 2 FENCED, 3 ROLL_TEST, 4 RESET; HELD is derived -/
def Fld.PIPE_H_STATE : Fld := ⟨35184374186171, 3, 0⟩
/-- 05_pipeline_contexts.md R119; internal, no register: busy clocks below 1,024 -/
def Fld.PIPE_H_BUSY : Fld := ⟨35184374186172, 10, 0⟩
/-- 05_pipeline_contexts.md R120; internal, no register: the context slot a pipe runs from, or ran from last -/
def Fld.PIPE_H_SLOT : Fld := ⟨35184374186173, 1, 0⟩
/-- `PIPE_SCH_CFG.ADMIT_PCT` (05_pipeline_contexts.md R137). -/
def Fld.PIPE_SCH_CFG_ADMIT_PCT : Fld := ⟨83886080, 7, 95⟩
/-- `PIPE_SCH_CFG.HOLD_WM` (05_pipeline_contexts.md R137). -/
def Fld.PIPE_SCH_CFG_HOLD_WM : Fld := ⟨83886088, 17, 48000⟩
/-- `PIPE_SCH_STATUS.HOLD_KIB` (05_pipeline_contexts.md R137). -/
def Fld.PIPE_SCH_STATUS_HOLD_KIB : Fld := ⟨83886208, 14, 0⟩
/-- `PIPE_SCH_STATUS.SPILL_MIB` (05_pipeline_contexts.md R137). -/
def Fld.PIPE_SCH_STATUS_SPILL_MIB : Fld := ⟨83886224, 14, 0⟩
/-- `PIPE_SPILL_BASE_LO.BASE` (05_pipeline_contexts.md R138). -/
def Fld.PIPE_SPILL_BASE : Fld := ⟨83886336, 40, 0⟩
/-- `PIPE_SPILL_SIZE.SIZE_MIB` (05_pipeline_contexts.md R138). -/
def Fld.PIPE_SPILL_SIZE_SIZE_MIB : Fld := ⟨83886592, 14, 0⟩
/-- `PIPE_CTX_SEL.CTX` (05_pipeline_contexts.md R132). -/
def Fld.PIPE_CTX_SEL_CTX : Fld := ⟨83887104, 8, 0⟩
/-- `PIPE_CTX_STATE.BANK0` (05_pipeline_contexts.md R132). -/
def Fld.PIPE_CTX_STATE_BANK0 : Fld := ⟨83887232, 2, 0⟩
/-- `PIPE_CTX_STATE.BANK1` (05_pipeline_contexts.md R132). -/
def Fld.PIPE_CTX_STATE_BANK1 : Fld := ⟨83887234, 2, 0⟩
/-- `PIPE_CTX_STATE.MODE` (05_pipeline_contexts.md R132). -/
def Fld.PIPE_CTX_STATE_MODE : Fld := ⟨83887236, 1, 0⟩
/-- `PIPE_CTX_STATE.BOUND0` (05_pipeline_contexts.md R132). -/
def Fld.PIPE_CTX_STATE_BOUND0 : Fld := ⟨83887240, 8, 0⟩
/-- `PIPE_CTX_STATE.BOUND1` (05_pipeline_contexts.md R132). -/
def Fld.PIPE_CTX_STATE_BOUND1 : Fld := ⟨83887248, 8, 0⟩
/-- `PIPE_CTX_COMMIT.CTX` (05_pipeline_contexts.md R132). -/
def Fld.PIPE_CTX_COMMIT_CTX : Fld := ⟨83887360, 8, 0⟩
/-- `PIPE_CTX_COMMIT.MODE` (05_pipeline_contexts.md R132). -/
def Fld.PIPE_CTX_COMMIT_MODE : Fld := ⟨83887368, 1, 0⟩
/-- `PIPE_CTX_COMMIT.WITH_ING` (05_pipeline_contexts.md R132). -/
def Fld.PIPE_CTX_COMMIT_WITH_ING : Fld := ⟨83887369, 1, 0⟩
/-- `PIPE_CTX_COMMIT.CANCEL` (05_pipeline_contexts.md R132). -/
def Fld.PIPE_CTX_COMMIT_CANCEL : Fld := ⟨83887370, 1, 0⟩
/-- `PIPE_CTX_COMMIT.GO` (05_pipeline_contexts.md R132). -/
def Fld.PIPE_CTX_COMMIT_GO : Fld := ⟨83887391, 1, 0⟩
/-- `PIPE_DEMAND_CUR.CLK_PER_MS` (05_pipeline_contexts.md R142). -/
def Fld.PIPE_DEMAND_CUR_CLK_PER_MS : Fld := ⟨83887616, 24, 0⟩
/-- `PIPE_DEMAND_CUR.PCT` (05_pipeline_contexts.md R142). -/
def Fld.PIPE_DEMAND_CUR_PCT : Fld := ⟨83887640, 7, 0⟩
/-- `PIPE_DEMAND_NEXT.CLK_PER_MS` (05_pipeline_contexts.md R142). -/
def Fld.PIPE_DEMAND_NEXT_CLK_PER_MS : Fld := ⟨83887744, 24, 0⟩
/-- `PIPE_DEMAND_NEXT.PCT` (05_pipeline_contexts.md R142). -/
def Fld.PIPE_DEMAND_NEXT_PCT : Fld := ⟨83887768, 7, 0⟩
/-- `PIPE_ROLL_CTRL.PIPE` (05_pipeline_contexts.md R144). -/
def Fld.PIPE_ROLL_CTRL_PIPE : Fld := ⟨83888128, 3, 0⟩
/-- `PIPE_ROLL_CTRL.AUTO` (05_pipeline_contexts.md R144). -/
def Fld.PIPE_ROLL_CTRL_AUTO : Fld := ⟨83888131, 1, 0⟩
/-- `PIPE_ROLL_CTRL.START` (05_pipeline_contexts.md R144). -/
def Fld.PIPE_ROLL_CTRL_START : Fld := ⟨83888132, 1, 0⟩
/-- `PIPE_ROLL_CTRL.STOP` (05_pipeline_contexts.md R144). -/
def Fld.PIPE_ROLL_CTRL_STOP : Fld := ⟨83888133, 1, 0⟩
/-- `PIPE_ROLL_CTRL.INTERVAL_S` (05_pipeline_contexts.md R144). -/
def Fld.PIPE_ROLL_CTRL_INTERVAL_S : Fld := ⟨83888144, 16, 3600⟩
/-- `PIPE_ROLL_STATUS.STATE` (05_pipeline_contexts.md R144). -/
def Fld.PIPE_ROLL_STATUS_STATE : Fld := ⟨83888256, 2, 0⟩
/-- `PIPE_ROLL_STATUS.PIPE` (05_pipeline_contexts.md R144). -/
def Fld.PIPE_ROLL_STATUS_PIPE : Fld := ⟨83888260, 3, 0⟩
/-- `PIPE_ROLL_STATUS.RESULT` (05_pipeline_contexts.md R144). -/
def Fld.PIPE_ROLL_STATUS_RESULT : Fld := ⟨83888264, 2, 0⟩
/-- `PIPE_ROLL_STATUS.TESTS` (05_pipeline_contexts.md R144). -/
def Fld.PIPE_ROLL_STATUS_TESTS : Fld := ⟨83888272, 16, 0⟩
/-- `PIPE_CNT_HELD.COUNT` (05_pipeline_contexts.md R137). -/
def Fld.PIPE_CNT_HELD : Fld := ⟨83888640, 32, 0⟩
/-- `PIPE_CNT_SPILL.COUNT` (05_pipeline_contexts.md R138). -/
def Fld.PIPE_CNT_SPILL : Fld := ⟨83888768, 32, 0⟩
/-- `PIPE_CNT_DELAYED.COUNT` (05_pipeline_contexts.md R139). -/
def Fld.PIPE_CNT_DELAYED : Fld := ⟨83888896, 32, 0⟩
/-- `PIPE_CNT_REFUSED.COUNT` (05_pipeline_contexts.md R141). -/
def Fld.PIPE_CNT_REFUSED : Fld := ⟨83889024, 32, 0⟩
/-- `PIPE_CNT_NOCTX.COUNT` (05_pipeline_contexts.md R133). -/
def Fld.PIPE_CNT_NOCTX : Fld := ⟨83889152, 32, 0⟩
/-- `PIPE_SCH_EVENTS.EV` (05_pipeline_contexts.md R149). -/
def Fld.PIPE_SCH_EVENTS_EV : Fld := ⟨83889664, 4, 0⟩
/-- `PIPE_EVENT_EN.PIPE` (05_pipeline_contexts.md R149). -/
def Fld.PIPE_EVENT_EN_PIPE : Fld := ⟨83889792, 2, 3⟩
/-- `PIPE_EVENT_EN.CTX` (05_pipeline_contexts.md R149). -/
def Fld.PIPE_EVENT_EN_CTX : Fld := ⟨83889794, 4, 15⟩
/-- `PIPE_EVENT_EN.ROLL` (05_pipeline_contexts.md R149). -/
def Fld.PIPE_EVENT_EN_ROLL : Fld := ⟨83889798, 1, 1⟩
/-- 05_pipeline_contexts.md R132; internal, no register: state of a context bank: 0 FREE, 1 PENDING, 2 APPLIED, 3 DRAINING; instance 2 × context + bank -/
def Fld.PIPE_H_BANK_STATE : Fld := ⟨35184374710462, 2, 0⟩
/-- 05_pipeline_contexts.md R130; internal, no register: frames bound to a context bank; instance 2 × context + bank -/
def Fld.PIPE_H_BOUND : Fld := ⟨35184374710463, 16, 0⟩
/-- 05_pipeline_contexts.md R132; internal, no register: landing mode of a pending bank; instance 2 × context + bank -/
def Fld.PIPE_H_MODE : Fld := ⟨35184374710464, 1, 0⟩
/-- 05_pipeline_contexts.md R133; internal, no register: 1 + bank most recently applied of a context; instance is the context -/
def Fld.PIPE_H_LASTBANK : Fld := ⟨35184374710465, 2, 0⟩
/-- `MEM_STATUS.USABLE_GIB` (14_memory_subsystem.md R348). -/
def Fld.MEM_STATUS_USABLE_GIB : Fld := ⟨167772160, 7, 0⟩
/-- `MEM_STATUS.RATE` (14_memory_subsystem.md R348). -/
def Fld.MEM_STATUS_RATE : Fld := ⟨167772168, 8, 0⟩
/-- `MEM_STATUS.ECC_INLINE` (14_memory_subsystem.md R348). -/
def Fld.MEM_STATUS_ECC_INLINE : Fld := ⟨167772176, 1, 0⟩
/-- `MEM_STATUS.RANKS` (14_memory_subsystem.md R348). -/
def Fld.MEM_STATUS_RANKS : Fld := ⟨167772177, 2, 0⟩
/-- `MEM_STATUS.DIE_GBIT` (14_memory_subsystem.md R348). -/
def Fld.MEM_STATUS_DIE_GBIT : Fld := ⟨167772180, 4, 0⟩
/-- `MEM_STATUS.TRAINED` (14_memory_subsystem.md R348). -/
def Fld.MEM_STATUS_TRAINED : Fld := ⟨167772184, 1, 0⟩
/-- `MEM_CFG.ADMIT_PCT` (14_memory_subsystem.md R358). -/
def Fld.MEM_CFG_ADMIT_PCT : Fld := ⟨167772288, 7, 90⟩
/-- `MEM_CFG.MGT_RESERVE` (14_memory_subsystem.md R358). -/
def Fld.MEM_CFG_MGT_RESERVE : Fld := ⟨167772296, 8, 20⟩
/-- `MEM_CTRL.FENCE` (14_memory_subsystem.md R361). -/
def Fld.MEM_CTRL_FENCE : Fld := ⟨167772416, 1, 0⟩
/-- `MEM_CTRL.RESET` (14_memory_subsystem.md R361). -/
def Fld.MEM_CTRL_RESET : Fld := ⟨167772417, 1, 0⟩
/-- `MEM_CTRL.CLR_CNT` (14_memory_subsystem.md R361). -/
def Fld.MEM_CTRL_CLR_CNT : Fld := ⟨167772418, 1, 0⟩
/-- `MEM_CTRL.FENCED` (14_memory_subsystem.md R361). -/
def Fld.MEM_CTRL_FENCED : Fld := ⟨167772424, 1, 0⟩
/-- `MEM_FS_BASE_LO.BASE` (14_memory_subsystem.md R355). -/
def Fld.MEM_FS_BASE : Fld := ⟨167772672, 40, 0⟩
/-- `MEM_FS_SIZE.SIZE_MIB` (14_memory_subsystem.md R355). -/
def Fld.MEM_FS_SIZE_SIZE_MIB : Fld := ⟨167772928, 16, 0⟩
/-- `MEM_FS_USED.BLOCKS` (14_memory_subsystem.md R355). -/
def Fld.MEM_FS_USED_BLOCKS : Fld := ⟨167773056, 16, 0⟩
/-- `MEM_STAGE_BASE_LO.BASE` (14_memory_subsystem.md R352). -/
def Fld.MEM_STAGE_BASE : Fld := ⟨167773184, 40, 0⟩
/-- `MEM_STAGE_SIZE.SIZE_MIB` (14_memory_subsystem.md R352). -/
def Fld.MEM_STAGE_SIZE_SIZE_MIB : Fld := ⟨167773440, 16, 0⟩
/-- `MEM_DEMAND_CUR.DEMAND` (14_memory_subsystem.md R358). -/
def Fld.MEM_DEMAND_CUR_DEMAND : Fld := ⟨167773696, 16, 0⟩
/-- `MEM_DEMAND_NEXT.DEMAND` (14_memory_subsystem.md R358). -/
def Fld.MEM_DEMAND_NEXT_DEMAND : Fld := ⟨167773824, 16, 0⟩
/-- `MEM_CAPACITY.CAP` (14_memory_subsystem.md R358). -/
def Fld.MEM_CAPACITY_CAP : Fld := ⟨167773952, 16, 0⟩
/-- `MEM_CNT_CE.COUNT` (14_memory_subsystem.md R352). -/
def Fld.MEM_CNT_CE : Fld := ⟨167774208, 32, 0⟩
/-- `MEM_CNT_UE.COUNT` (14_memory_subsystem.md R352). -/
def Fld.MEM_CNT_UE : Fld := ⟨167774336, 32, 0⟩
/-- `MEM_CNT_LINK.COUNT` (14_memory_subsystem.md R350). -/
def Fld.MEM_CNT_LINK : Fld := ⟨167774464, 32, 0⟩
/-- `MEM_CNT_DENIED.COUNT` (14_memory_subsystem.md R354). -/
def Fld.MEM_CNT_DENIED : Fld := ⟨167774592, 32, 0⟩
/-- `MEM_CNT_FS_FULL.COUNT` (14_memory_subsystem.md R355). -/
def Fld.MEM_CNT_FS_FULL : Fld := ⟨167774720, 32, 0⟩
/-- `MEM_ERR_ADDR_LO.ADDR` (14_memory_subsystem.md R352). -/
def Fld.MEM_ERR_ADDR : Fld := ⟨167774976, 40, 0⟩
/-- `MEM_TEMP.LEVELS` (14_memory_subsystem.md R353). -/
def Fld.MEM_TEMP_LEVELS : Fld := ⟨167775232, 32, 0⟩
/-- `MEM_MON_REF.COUNT` (14_memory_subsystem.md R359). -/
def Fld.MEM_MON_REF : Fld := ⟨167775744, 32, 0⟩
/-- `MEM_MON_FS.COUNT` (14_memory_subsystem.md R359). -/
def Fld.MEM_MON_FS : Fld := ⟨167775872, 32, 0⟩
/-- `MEM_MON_EGR.COUNT` (14_memory_subsystem.md R359). -/
def Fld.MEM_MON_EGR : Fld := ⟨167776000, 32, 0⟩
/-- `MEM_MON_SPILL.COUNT` (14_memory_subsystem.md R359). -/
def Fld.MEM_MON_SPILL : Fld := ⟨167776128, 32, 0⟩
/-- `MEM_MON_OTHER.COUNT` (14_memory_subsystem.md R359). -/
def Fld.MEM_MON_OTHER : Fld := ⟨167776256, 32, 0⟩
/-- `MEM_EVENTS.EV` (14_memory_subsystem.md R363). -/
def Fld.MEM_EVENTS_EV : Fld := ⟨167776768, 7, 0⟩
/-- `MEM_EVENT_EN.EN` (14_memory_subsystem.md R363). -/
def Fld.MEM_EVENT_EN : Fld := ⟨167776896, 7, 126⟩
/-- 14_memory_subsystem.md R359; internal, no register: bytes moved in the running millisecond; instance 0 references, 1 frame store, 2 retry buffer, 3 spill, 4 all else -/
def Fld.MEM_H_MONACC : Fld := ⟨35184377331906, 32, 0⟩
/-- 14_memory_subsystem.md R359; internal, no register: number of the running millisecond -/
def Fld.MEM_H_MONT : Fld := ⟨35184377331907, 64, 0⟩
/-- 14_memory_subsystem.md R361; internal, no register: the ranks are in self-refresh -/
def Fld.MEM_H_SELF : Fld := ⟨35184377331908, 1, 0⟩
/-- 14_memory_subsystem.md R353; internal, no register: refreshes performed; instance is the channel -/
def Fld.MEM_H_REFRESHED : Fld := ⟨35184377331909, 32, 0⟩
/-- 20_power_sleep_reset.md R501; internal, no register: device time since which a channel stands at level 3; instance is the channel -/
def Fld.MEM_H_HOT : Fld := ⟨35184377331910, 64, 0⟩
/-- `MRG_BL_STATUS.BANK0` (07_blanket_merger.md R197). -/
def Fld.MRG_BL_STATUS_BANK0 : Fld := ⟨100663296, 2, 0⟩
/-- `MRG_BL_STATUS.BANK1` (07_blanket_merger.md R197). -/
def Fld.MRG_BL_STATUS_BANK1 : Fld := ⟨100663298, 2, 0⟩
/-- `MRG_BL_STATUS.OPEN` (07_blanket_merger.md R197). -/
def Fld.MRG_BL_STATUS_OPEN : Fld := ⟨100663300, 2, 0⟩
/-- `MRG_BL_STATUS.HOLD_MAX` (07_blanket_merger.md R197). -/
def Fld.MRG_BL_STATUS_HOLD_MAX : Fld := ⟨100663312, 16, 0⟩
/-- `MRG_BL_SEQ.SEQ` (07_blanket_merger.md R189). -/
def Fld.MRG_BL_SEQ : Fld := ⟨100663424, 32, 0⟩
/-- `MRG_BL_EVENTS.EV` (07_blanket_merger.md R199). -/
def Fld.MRG_BL_EVENTS_EV : Fld := ⟨100663552, 5, 0⟩
/-- `MRG_CNT_ABSENT.COUNT` (07_blanket_merger.md R190). -/
def Fld.MRG_CNT_ABSENT : Fld := ⟨100663808, 32, 0⟩
/-- `MRG_CNT_SEAM_MISS.COUNT` (07_blanket_merger.md R194). -/
def Fld.MRG_CNT_SEAM_MISS : Fld := ⟨100663936, 32, 0⟩
/-- `MRG_CNT_SEAM_LATE.COUNT` (07_blanket_merger.md R196). -/
def Fld.MRG_CNT_SEAM_LATE : Fld := ⟨100664064, 32, 0⟩
/-- `MRG_CNT_LATE.COUNT` (07_blanket_merger.md R189). -/
def Fld.MRG_CNT_LATE : Fld := ⟨100664192, 32, 0⟩
/-- `MRG_CNT_NOLAYOUT.COUNT` (07_blanket_merger.md R197). -/
def Fld.MRG_CNT_NOLAYOUT : Fld := ⟨100664320, 32, 0⟩
/-- `MRG_CNT_TILES.COUNT` (07_blanket_merger.md R192). -/
def Fld.MRG_CNT_TILES : Fld := ⟨100664448, 32, 0⟩
/-- 07_blanket_merger.md R197; internal, no register: state of a layout bank; instance 2 × blanket + bank -/
def Fld.MRG_H_BANK_STATE : Fld := ⟨35184375234759, 2, 0⟩
/-- 07_blanket_merger.md R197; internal, no register: landing mode of a pending layout bank; instance 2 × blanket + bank -/
def Fld.MRG_H_MODE : Fld := ⟨35184375234760, 1, 0⟩
/-- 07_blanket_merger.md R195; internal, no register: next sequence tag of a seam; instance 2 × blanket + side, 0 left and 1 right -/
def Fld.MRG_H_SEAM_TAG : Fld := ⟨35184375234761, 32, 0⟩
/-- `MRG_COMMIT.BLANKET` (07_blanket_merger.md R197). -/
def Fld.MRG_COMMIT_BLANKET : Fld := ⟨100728832, 3, 0⟩
/-- `MRG_COMMIT.MODE` (07_blanket_merger.md R197). -/
def Fld.MRG_COMMIT_MODE : Fld := ⟨100728840, 1, 0⟩
/-- `MRG_COMMIT.CANCEL` (07_blanket_merger.md R197). -/
def Fld.MRG_COMMIT_CANCEL : Fld := ⟨100728842, 1, 0⟩
/-- `MRG_COMMIT.GO` (07_blanket_merger.md R197). -/
def Fld.MRG_COMMIT_GO : Fld := ⟨100728863, 1, 0⟩
/-- `MRG_STORE.USED_KIB` (07_blanket_merger.md R193). -/
def Fld.MRG_STORE_USED_KIB : Fld := ⟨100728960, 14, 0⟩
/-- `MRG_STORE.RESERVED_KIB` (07_blanket_merger.md R193). -/
def Fld.MRG_STORE_RESERVED_KIB : Fld := ⟨100728976, 14, 0⟩
/-- `MRG_CTRL.CLR_CNT` (21_register_map.md R515). -/
def Fld.MRG_CTRL_CLR_CNT : Fld := ⟨100729088, 1, 0⟩
/-- `MRG_EVENT_EN.EN` (07_blanket_merger.md R199). -/
def Fld.MRG_EVENT_EN : Fld := ⟨100729216, 5, 31⟩
/-- `REF_BL_STATUS.BANK0` (08_reference_comparison.md R203). -/
def Fld.REF_BL_STATUS_BANK0 : Fld := ⟨109051904, 2, 0⟩
/-- `REF_BL_STATUS.BANK1` (08_reference_comparison.md R203). -/
def Fld.REF_BL_STATUS_BANK1 : Fld := ⟨109051906, 2, 0⟩
/-- `REF_BL_STATUS.SLOT` (08_reference_comparison.md R203). -/
def Fld.REF_BL_STATUS_SLOT : Fld := ⟨109051908, 1, 0⟩
/-- `REF_BL_STATUS.MPOS_PROV` (08_reference_comparison.md R203). -/
def Fld.REF_BL_STATUS_MPOS_PROV : Fld := ⟨109051909, 1, 0⟩
/-- `REF_BL_STATUS.TX` (08_reference_comparison.md R203). -/
def Fld.REF_BL_STATUS_TX : Fld := ⟨109051912, 8, 0⟩
/-- `REF_BL_STATUS.TY` (08_reference_comparison.md R203). -/
def Fld.REF_BL_STATUS_TY : Fld := ⟨109051920, 8, 0⟩
/-- `REF_BL_SEQ.SEQ` (08_reference_comparison.md R212). -/
def Fld.REF_BL_SEQ : Fld := ⟨109052032, 32, 0⟩
/-- `REF_BL_EVENTS.EV` (08_reference_comparison.md R225). -/
def Fld.REF_BL_EVENTS_EV : Fld := ⟨109052160, 6, 0⟩
/-- `REF_CNT_TILES.COUNT` (08_reference_comparison.md R209). -/
def Fld.REF_CNT_TILES : Fld := ⟨109052416, 32, 0⟩
/-- `REF_CNT_ALIGN_FAIL.COUNT` (08_reference_comparison.md R210). -/
def Fld.REF_CNT_ALIGN_FAIL : Fld := ⟨109052544, 32, 0⟩
/-- `REF_CNT_REFERR.COUNT` (08_reference_comparison.md R210). -/
def Fld.REF_CNT_REFERR : Fld := ⟨109052672, 32, 0⟩
/-- `REF_CNT_CAND.COUNT` (08_reference_comparison.md R219). -/
def Fld.REF_CNT_CAND : Fld := ⟨109052800, 32, 0⟩
/-- `REF_CNT_CAND_SKIP.COUNT` (08_reference_comparison.md R219). -/
def Fld.REF_CNT_CAND_SKIP : Fld := ⟨109052928, 32, 0⟩
/-- `REF_CNT_PATCH_SKIP.COUNT` (08_reference_comparison.md R219). -/
def Fld.REF_CNT_PATCH_SKIP : Fld := ⟨109053056, 32, 0⟩
/-- `REF_CNT_NOREF.COUNT` (08_reference_comparison.md R223). -/
def Fld.REF_CNT_NOREF : Fld := ⟨109053184, 32, 0⟩
/-- `REF_CNT_MARK_STRAY.COUNT` (08_reference_comparison.md R205). -/
def Fld.REF_CNT_MARK_STRAY : Fld := ⟨109053312, 32, 0⟩
/-- `REF_CNT_CCLIP.COUNT` (08_reference_comparison.md R207). -/
def Fld.REF_CNT_CCLIP : Fld := ⟨109053440, 32, 0⟩
/-- `REF_BL_MARK_LO.MPOS` (08_reference_comparison.md R205). -/
def Fld.REF_BL_MARK : Fld := ⟨109053568, 48, 0⟩
/-- 08_reference_comparison.md R203; internal, no register: state of a comparison bank; instance 2 × blanket + bank -/
def Fld.REF_H_BANK_STATE : Fld := ⟨35184375496906, 2, 0⟩
/-- 08_reference_comparison.md R203; internal, no register: landing mode of a pending comparison bank; instance 2 × blanket + bank -/
def Fld.REF_H_MODE : Fld := ⟨35184375496907, 1, 0⟩
/-- 08_reference_comparison.md R212; internal, no register: tracking offset TX of a comparison bank; instance 2 × blanket + bank -/
def Fld.REF_H_TX : Fld := ⟨35184375496908, 8, 0⟩
/-- 08_reference_comparison.md R212; internal, no register: tracking offset TY of a comparison bank; instance 2 × blanket + bank -/
def Fld.REF_H_TY : Fld := ⟨35184375496909, 8, 0⟩
/-- 08_reference_comparison.md R205; internal, no register: mpos of a comparison bank is provisional; instance 2 × blanket + bank -/
def Fld.REF_H_PROV : Fld := ⟨35184375496910, 1, 0⟩
/-- 08_reference_comparison.md R223; internal, no register: 1 + comparison bank most recently applied of a blanket -/
def Fld.REF_H_LASTBANK : Fld := ⟨35184375496911, 2, 0⟩
/-- 08_reference_comparison.md R205; internal, no register: position of the mark edge at the last switch point -/
def Fld.REF_H_SWPOS : Fld := ⟨35184375496912, 48, 0⟩
/-- `REF_COMMIT.BLANKET` (08_reference_comparison.md R203). -/
def Fld.REF_COMMIT_BLANKET : Fld := ⟨109117440, 3, 0⟩
/-- `REF_COMMIT.MODE` (08_reference_comparison.md R203). -/
def Fld.REF_COMMIT_MODE : Fld := ⟨109117448, 1, 0⟩
/-- `REF_COMMIT.CANCEL` (08_reference_comparison.md R203). -/
def Fld.REF_COMMIT_CANCEL : Fld := ⟨109117450, 1, 0⟩
/-- `REF_COMMIT.GO` (08_reference_comparison.md R203). -/
def Fld.REF_COMMIT_GO : Fld := ⟨109117471, 1, 0⟩
/-- `REF_LIMIT.THR_Y_POS_MAX` (08_reference_comparison.md R204). -/
def Fld.REF_LIMIT_THR_Y_POS_MAX : Fld := ⟨109119488, 8, 255⟩
/-- `REF_LIMIT.THR_Y_NEG_MAX` (08_reference_comparison.md R204). -/
def Fld.REF_LIMIT_THR_Y_NEG_MAX : Fld := ⟨109119496, 8, 255⟩
/-- `REF_LIMIT.THR_C_MAX` (08_reference_comparison.md R204). -/
def Fld.REF_LIMIT_THR_C_MAX : Fld := ⟨109119504, 8, 255⟩
/-- `REF_LIMIT.MIN_PIX_MAX` (08_reference_comparison.md R204). -/
def Fld.REF_LIMIT_MIN_PIX_MAX : Fld := ⟨109119512, 8, 0⟩
/-- `REF_CTRL.FENCE` (08_reference_comparison.md R224). -/
def Fld.REF_CTRL_FENCE : Fld := ⟨109121536, 1, 0⟩
/-- `REF_CTRL.RESET` (08_reference_comparison.md R224). -/
def Fld.REF_CTRL_RESET : Fld := ⟨109121537, 1, 0⟩
/-- `REF_CTRL.CLR_CNT` (08_reference_comparison.md R224). -/
def Fld.REF_CTRL_CLR_CNT : Fld := ⟨109121538, 1, 0⟩
/-- `REF_CTRL.FENCED` (08_reference_comparison.md R224). -/
def Fld.REF_CTRL_FENCED : Fld := ⟨109121544, 1, 0⟩
/-- `REF_DEMAND_CUR.DRAM` (08_reference_comparison.md R222). -/
def Fld.REF_DEMAND_CUR_DRAM : Fld := ⟨109121664, 16, 0⟩
/-- `REF_DEMAND_CUR.RATE` (08_reference_comparison.md R222). -/
def Fld.REF_DEMAND_CUR_RATE : Fld := ⟨109121680, 16, 0⟩
/-- `REF_DEMAND_NEXT.DRAM` (08_reference_comparison.md R222). -/
def Fld.REF_DEMAND_NEXT_DRAM : Fld := ⟨109121792, 16, 0⟩
/-- `REF_DEMAND_NEXT.RATE` (08_reference_comparison.md R222). -/
def Fld.REF_DEMAND_NEXT_RATE : Fld := ⟨109121808, 16, 0⟩
/-- `REF_EVENT_EN.EN` (08_reference_comparison.md R225). -/
def Fld.REF_EVENT_EN : Fld := ⟨109121920, 6, 63⟩
/-- `REF_SLOT_BASE_LO.BASE` (08_reference_comparison.md R202). -/
def Fld.REF_SLOT_BASE : Fld := ⟨109117952, 40, 0⟩
/-- `REF_SLOT_SIZE.SIZE_MIB` (08_reference_comparison.md R202). -/
def Fld.REF_SLOT_SIZE_SIZE_MIB : Fld := ⟨109118208, 16, 0⟩
/-- `REF_SLOT_CTRL.STATE` (08_reference_comparison.md R202). -/
def Fld.REF_SLOT_CTRL_STATE : Fld := ⟨109118336, 2, 0⟩
/-- `REF_SLOT_CTRL.USED` (08_reference_comparison.md R202). -/
def Fld.REF_SLOT_CTRL_USED : Fld := ⟨109118338, 1, 0⟩
/-- `REF_SLOT_CTRL.CHECKING` (08_reference_comparison.md R202). -/
def Fld.REF_SLOT_CTRL_CHECKING : Fld := ⟨109118339, 1, 0⟩
/-- `REF_SLOT_CTRL.LOAD` (08_reference_comparison.md R202). -/
def Fld.REF_SLOT_CTRL_LOAD : Fld := ⟨109118340, 1, 0⟩
/-- `REF_SLOT_CTRL.DONE` (08_reference_comparison.md R202). -/
def Fld.REF_SLOT_CTRL_DONE : Fld := ⟨109118341, 1, 0⟩
/-- `REF_SLOT_CTRL.CLEAR` (08_reference_comparison.md R202). -/
def Fld.REF_SLOT_CTRL_CLEAR : Fld := ⟨109118342, 1, 0⟩
/-- `TSL_PROF_NEAR.NEAR` (09_teasel_codec.md R245). -/
def Fld.TSL_PROF_NEAR : Fld := ⟨117440512, 32, 0⟩
/-- `TSL_PROF_THR_LO.THR` (09_teasel_codec.md R245). -/
def Fld.TSL_PROF_THR_LO_THR : Fld := ⟨117440640, 32, 1077952576⟩
/-- `TSL_PROF_THR_HI.THR` (09_teasel_codec.md R245). -/
def Fld.TSL_PROF_THR_HI_THR : Fld := ⟨117440768, 24, 4210752⟩
/-- `TSL_PROF_CTRL.CLASS` (09_teasel_codec.md R245). -/
def Fld.TSL_PROF_CTRL_CLASS : Fld := ⟨117440896, 2, 0⟩
/-- `TSL_PROF_CTRL.ESC_EN` (09_teasel_codec.md R245). -/
def Fld.TSL_PROF_CTRL_ESC_EN : Fld := ⟨117440898, 1, 0⟩
/-- `TSL_PROF_CTRL.COMMIT` (09_teasel_codec.md R245). -/
def Fld.TSL_PROF_CTRL_COMMIT : Fld := ⟨117440899, 1, 0⟩
/-- `TSL_PROF_CTRL.HOLD_TILES` (09_teasel_codec.md R245). -/
def Fld.TSL_PROF_CTRL_HOLD_TILES : Fld := ⟨117440912, 16, 64⟩
/-- `TSL_PROF_STATUS.STEP` (09_teasel_codec.md R244). -/
def Fld.TSL_PROF_STATUS_STEP : Fld := ⟨117441024, 3, 0⟩
/-- `TSL_PROF_STATUS.NEAR` (09_teasel_codec.md R244). -/
def Fld.TSL_PROF_STATUS_NEAR : Fld := ⟨117441028, 4, 0⟩
/-- `TSL_PROF_STATUS.PENDING` (09_teasel_codec.md R244). -/
def Fld.TSL_PROF_STATUS_PENDING : Fld := ⟨117441032, 1, 0⟩
/-- `TSL_PROF_STATUS.UPS` (09_teasel_codec.md R244). -/
def Fld.TSL_PROF_STATUS_UPS : Fld := ⟨117441040, 16, 0⟩
/-- 09_teasel_codec.md R245; internal, no register: NEAR values of a pending commit -/
def Fld.TSL_PROF_P_NEAR : Fld := ⟨35184375759057, 32, 0⟩
/-- 09_teasel_codec.md R245; internal, no register: thresholds of a pending commit -/
def Fld.TSL_PROF_P_THR : Fld := ⟨35184375759058, 56, 0⟩
/-- 09_teasel_codec.md R245; internal, no register: class, ESC_EN and HOLD_TILES of a pending commit, as in TSL_PROF_CTRL -/
def Fld.TSL_PROF_P_CTRL : Fld := ⟨35184375759059, 32, 0⟩
/-- 09_teasel_codec.md R244; internal, no register: NEAR values in effect -/
def Fld.TSL_PROF_H_NEAR : Fld := ⟨35184375759060, 32, 0⟩
/-- 09_teasel_codec.md R244; internal, no register: thresholds in effect -/
def Fld.TSL_PROF_H_THR : Fld := ⟨35184375759061, 56, 18085043209519168⟩
/-- 09_teasel_codec.md R244; internal, no register: class, ESC_EN and HOLD_TILES in effect, as in TSL_PROF_CTRL -/
def Fld.TSL_PROF_H_CTRL : Fld := ⟨35184375759062, 32, 4194304⟩
/-- 09_teasel_codec.md R244; internal, no register: quiet products -/
def Fld.TSL_PROF_H_QUIET : Fld := ⟨35184375759063, 17, 0⟩
/-- `TSL_CTRL.FENCE` (09_teasel_codec.md R249). -/
def Fld.TSL_CTRL_FENCE : Fld := ⟨117473280, 1, 0⟩
/-- `TSL_CTRL.RESET` (09_teasel_codec.md R249). -/
def Fld.TSL_CTRL_RESET : Fld := ⟨117473281, 1, 0⟩
/-- `TSL_CTRL.CLR_CNT` (09_teasel_codec.md R249). -/
def Fld.TSL_CTRL_CLR_CNT : Fld := ⟨117473282, 1, 0⟩
/-- `TSL_CTRL.FENCED` (09_teasel_codec.md R249). -/
def Fld.TSL_CTRL_FENCED : Fld := ⟨117473288, 1, 0⟩
/-- `TSL_LIMITS.NEAR_CAP` (09_teasel_codec.md R246). -/
def Fld.TSL_LIMITS_NEAR_CAP : Fld := ⟨117473408, 4, 0⟩
/-- `TSL_LIMITS.REC_NEAR` (09_teasel_codec.md R246). -/
def Fld.TSL_LIMITS_REC_NEAR : Fld := ⟨117473416, 4, 0⟩
/-- `TSL_DEMAND_CUR.ENC` (09_teasel_codec.md R248). -/
def Fld.TSL_DEMAND_CUR_ENC : Fld := ⟨117473536, 16, 0⟩
/-- `TSL_DEMAND_CUR.DEC` (09_teasel_codec.md R248). -/
def Fld.TSL_DEMAND_CUR_DEC : Fld := ⟨117473552, 16, 0⟩
/-- `TSL_DEMAND_NEXT.ENC` (09_teasel_codec.md R248). -/
def Fld.TSL_DEMAND_NEXT_ENC : Fld := ⟨117473664, 16, 0⟩
/-- `TSL_DEMAND_NEXT.DEC` (09_teasel_codec.md R248). -/
def Fld.TSL_DEMAND_NEXT_DEC : Fld := ⟨117473680, 16, 0⟩
/-- `TSL_OPEN.NOW` (09_teasel_codec.md R248). -/
def Fld.TSL_OPEN_NOW : Fld := ⟨117473792, 14, 0⟩
/-- `TSL_OPEN.ADMITTED` (09_teasel_codec.md R248). -/
def Fld.TSL_OPEN_ADMITTED : Fld := ⟨117473808, 14, 0⟩
/-- `TSL_CNT_ENC.COUNT` (09_teasel_codec.md R226). -/
def Fld.TSL_CNT_ENC : Fld := ⟨117474304, 32, 0⟩
/-- `TSL_CNT_RAW.COUNT` (09_teasel_codec.md R240). -/
def Fld.TSL_CNT_RAW : Fld := ⟨117474432, 32, 0⟩
/-- `TSL_CNT_BYPASS.COUNT` (09_teasel_codec.md R249). -/
def Fld.TSL_CNT_BYPASS : Fld := ⟨117474560, 32, 0⟩
/-- `TSL_CNT_DEC.COUNT` (09_teasel_codec.md R238). -/
def Fld.TSL_CNT_DEC : Fld := ⟨117474688, 32, 0⟩
/-- `TSL_CNT_DEC_ERR.COUNT` (09_teasel_codec.md R242). -/
def Fld.TSL_CNT_DEC_ERR : Fld := ⟨117474816, 32, 0⟩
/-- `TSL_CNT_LOST.COUNT` (09_teasel_codec.md R249). -/
def Fld.TSL_CNT_LOST : Fld := ⟨117474944, 32, 0⟩
/-- `TSL_DEC_ERR_INFO.CODE` (09_teasel_codec.md R242). -/
def Fld.TSL_DEC_ERR_INFO_CODE : Fld := ⟨117475328, 4, 0⟩
/-- `TSL_DEC_ERR_INFO.REQUESTER` (09_teasel_codec.md R242). -/
def Fld.TSL_DEC_ERR_INFO_REQUESTER : Fld := ⟨117475332, 4, 0⟩
/-- `TSL_DEC_ERR_INFO.LINE` (09_teasel_codec.md R242). -/
def Fld.TSL_DEC_ERR_INFO_LINE : Fld := ⟨117475344, 16, 0⟩
/-- `TSL_EVENTS.EV` (09_teasel_codec.md R251). -/
def Fld.TSL_EVENTS_EV : Fld := ⟨117475456, 3, 0⟩
/-- `TSL_EVENT_EN.EN` (09_teasel_codec.md R251). -/
def Fld.TSL_EVENT_EN : Fld := ⟨117475584, 3, 7⟩
/-- 09_teasel_codec.md R226; internal, no register: number that the next product for egress is known by -/
def Fld.TSL_H_PID : Fld := ⟨35184375759064, 32, 0⟩
/-- `EGR_PORT_STATUS.LINK` (10_egress_delivery.md R252). -/
def Fld.EGR_PORT_STATUS_LINK : Fld := ⟨134217728, 1, 0⟩
/-- `EGR_PORT_STATUS.ALIGN` (10_egress_delivery.md R252). -/
def Fld.EGR_PORT_STATUS_ALIGN : Fld := ⟨134217729, 1, 0⟩
/-- `EGR_PORT_STATUS.LINK_DOWN` (10_egress_delivery.md R252). -/
def Fld.EGR_PORT_STATUS_LINK_DOWN : Fld := ⟨134217730, 1, 0⟩
/-- `EGR_PORT_STATUS.MODE` (10_egress_delivery.md R252). -/
def Fld.EGR_PORT_STATUS_MODE : Fld := ⟨134217732, 2, 0⟩
/-- `EGR_PORT_CFG.PAUSE_EN` (10_egress_delivery.md R253). -/
def Fld.EGR_PORT_CFG_PAUSE_EN : Fld := ⟨134217856, 1, 0⟩
/-- `EGR_PORT_CFG.PFC_EN` (10_egress_delivery.md R253). -/
def Fld.EGR_PORT_CFG_PFC_EN : Fld := ⟨134217857, 1, 0⟩
/-- `EGR_PORT_CFG.PFC_PRIO` (10_egress_delivery.md R253). -/
def Fld.EGR_PORT_CFG_PFC_PRIO : Fld := ⟨134217858, 3, 3⟩
/-- `EGR_PORT_VLAN.VID` (10_egress_delivery.md R253). -/
def Fld.EGR_PORT_VLAN_VID : Fld := ⟨134217984, 12, 0⟩
/-- `EGR_PORT_VLAN.PCP` (10_egress_delivery.md R253). -/
def Fld.EGR_PORT_VLAN_PCP : Fld := ⟨134217996, 3, 0⟩
/-- `EGR_PORT_VLAN.VLAN_EN` (10_egress_delivery.md R253). -/
def Fld.EGR_PORT_VLAN_VLAN_EN : Fld := ⟨134217999, 1, 0⟩
/-- `EGR_PORT_MAC_LO.MAC` (10_egress_delivery.md R261). -/
def Fld.EGR_PORT_MAC : Fld := ⟨134218240, 48, 0⟩
/-- `EGR_PORT_IP0.IP` (10_egress_delivery.md R261). -/
def Fld.EGR_PORT_IP0_IP : Fld := ⟨134218496, 32, 0⟩
/-- `EGR_PORT_IP1.IP` (10_egress_delivery.md R261). -/
def Fld.EGR_PORT_IP1_IP : Fld := ⟨134218624, 32, 0⟩
/-- `EGR_PORT_IP2.IP` (10_egress_delivery.md R261). -/
def Fld.EGR_PORT_IP2_IP : Fld := ⟨134218752, 32, 0⟩
/-- `EGR_PORT_IP3.IP` (10_egress_delivery.md R261). -/
def Fld.EGR_PORT_IP3_IP : Fld := ⟨134218880, 32, 0⟩
/-- `EGR_CLASS_SHARE.SHARE_A` (10_egress_delivery.md R270). -/
def Fld.EGR_CLASS_SHARE_SHARE_A : Fld := ⟨134219264, 7, 50⟩
/-- `EGR_CLASS_SHARE.SHARE_B` (10_egress_delivery.md R270). -/
def Fld.EGR_CLASS_SHARE_SHARE_B : Fld := ⟨134219272, 7, 30⟩
/-- `EGR_CLASS_SHARE.SHARE_C` (10_egress_delivery.md R270). -/
def Fld.EGR_CLASS_SHARE_SHARE_C : Fld := ⟨134219280, 7, 10⟩
/-- `EGR_CLASS_SIZE.SIZE_A` (10_egress_delivery.md R268). -/
def Fld.EGR_CLASS_SIZE_SIZE_A : Fld := ⟨134219392, 10, 256⟩
/-- `EGR_CLASS_SIZE.SIZE_B` (10_egress_delivery.md R268). -/
def Fld.EGR_CLASS_SIZE_SIZE_B : Fld := ⟨134219402, 10, 512⟩
/-- `EGR_CLASS_SIZE.SIZE_C` (10_egress_delivery.md R268). -/
def Fld.EGR_CLASS_SIZE_SIZE_C : Fld := ⟨134219412, 10, 64⟩
/-- `EGR_CLASS_FILL.FILL_A` (10_egress_delivery.md R269). -/
def Fld.EGR_CLASS_FILL_FILL_A : Fld := ⟨134219520, 7, 0⟩
/-- `EGR_CLASS_FILL.FILL_B` (10_egress_delivery.md R269). -/
def Fld.EGR_CLASS_FILL_FILL_B : Fld := ⟨134219528, 7, 0⟩
/-- `EGR_CLASS_FILL.FILL_C` (10_egress_delivery.md R269). -/
def Fld.EGR_CLASS_FILL_FILL_C : Fld := ⟨134219536, 7, 0⟩
/-- `EGR_CLASS_DELAY.DELAY_FLAG_US` (10_egress_delivery.md R272). -/
def Fld.EGR_CLASS_DELAY_DELAY_FLAG_US : Fld := ⟨134219648, 24, 5000⟩
/-- `EGR_CLASS_DELAY.SET` (10_egress_delivery.md R272). -/
def Fld.EGR_CLASS_DELAY_SET : Fld := ⟨134219678, 1, 0⟩
/-- `EGR_CLASS_DELAY.SEL` (10_egress_delivery.md R272). -/
def Fld.EGR_CLASS_DELAY_SEL : Fld := ⟨134219679, 1, 0⟩
/-- `EGR_PORT_CNT_TX.COUNT` (10_egress_delivery.md R270). -/
def Fld.EGR_PORT_CNT_TX : Fld := ⟨134219776, 32, 0⟩
/-- `EGR_PORT_CNT_RXBAD.COUNT` (10_egress_delivery.md R261). -/
def Fld.EGR_PORT_CNT_RXBAD : Fld := ⟨134219904, 32, 0⟩
/-- `EGR_PORT_CNT_PAUSE.COUNT` (10_egress_delivery.md R253). -/
def Fld.EGR_PORT_CNT_PAUSE : Fld := ⟨134220032, 32, 0⟩
/-- `EGR_PORT_CNT_CE.COUNT` (10_egress_delivery.md R261). -/
def Fld.EGR_PORT_CNT_CE : Fld := ⟨134220160, 32, 0⟩
/-- 10_egress_delivery.md R272; internal, no register: DELAY_FLAG_US of class A -/
def Fld.EGR_CLASS_H_DELAY_A : Fld := ⟨35184376283353, 24, 5000⟩
/-- 10_egress_delivery.md R272; internal, no register: DELAY_FLAG_US of classes B and C -/
def Fld.EGR_CLASS_H_DELAY_B : Fld := ⟨35184376283354, 24, 5000⟩
/-- 10_egress_delivery.md R270; internal, no register: credit of a class in bytes, 65,536 above its value; instance 4 × port + class -/
def Fld.EGR_PORT_H_CREDIT : Fld := ⟨35184376283355, 32, 65536⟩
/-- 10_egress_delivery.md R270; internal, no register: device time at which credit was last gained; instance 4 × port + class -/
def Fld.EGR_PORT_H_CREDT : Fld := ⟨35184376283356, 64, 0⟩
/-- 10_egress_delivery.md R270; internal, no register: stream last served; instance 4 × port + class -/
def Fld.EGR_PORT_H_LAST : Fld := ⟨35184376283357, 8, 0⟩
/-- 10_egress_delivery.md R253; internal, no register: device time until which a received PAUSE or PFC frame stops the port -/
def Fld.EGR_PORT_H_PAUSE : Fld := ⟨35184376283358, 64, 0⟩
/-- `EGR_STR_CFG.EN` (10_egress_delivery.md R255). -/
def Fld.EGR_STR_CFG_EN : Fld := ⟨136314880, 1, 0⟩
/-- `EGR_STR_CFG.KIND` (10_egress_delivery.md R255). -/
def Fld.EGR_STR_CFG_KIND : Fld := ⟨136314881, 4, 0⟩
/-- `EGR_STR_CFG.FORMAT` (10_egress_delivery.md R255). -/
def Fld.EGR_STR_CFG_FORMAT : Fld := ⟨136314885, 1, 0⟩
/-- `EGR_STR_CFG.PROFILE` (10_egress_delivery.md R255). -/
def Fld.EGR_STR_CFG_PROFILE : Fld := ⟨136314886, 4, 0⟩
/-- `EGR_STR_CFG.QP` (10_egress_delivery.md R255). -/
def Fld.EGR_STR_CFG_QP : Fld := ⟨136314890, 8, 0⟩
/-- `EGR_STR_RATE.RATE_MBPS` (10_egress_delivery.md R255). -/
def Fld.EGR_STR_RATE_RATE_MBPS : Fld := ⟨136315008, 16, 0⟩
/-- `EGR_STR_RATE.BUDGET_MS` (10_egress_delivery.md R255). -/
def Fld.EGR_STR_RATE_BUDGET_MS : Fld := ⟨136315024, 16, 25⟩
/-- `EGR_STR_VA_LO.VA` (10_egress_delivery.md R258). -/
def Fld.EGR_STR_VA : Fld := ⟨136315136, 64, 0⟩
/-- `EGR_STR_RKEY.RKEY` (10_egress_delivery.md R258). -/
def Fld.EGR_STR_RKEY : Fld := ⟨136315392, 32, 0⟩
/-- `EGR_STR_SLOTS.SLOTS` (10_egress_delivery.md R258). -/
def Fld.EGR_STR_SLOTS : Fld := ⟨136315520, 21, 0⟩
/-- `EGR_STR_SLOT_BYTES.SLOT_BYTES` (10_egress_delivery.md R258). -/
def Fld.EGR_STR_SLOT_BYTES : Fld := ⟨136315648, 32, 0⟩
/-- `EGR_STR_PROD.P` (10_egress_delivery.md R258). -/
def Fld.EGR_STR_PROD_P : Fld := ⟨136315776, 32, 0⟩
/-- `EGR_STR_CONS.C` (10_egress_delivery.md R258). -/
def Fld.EGR_STR_CONS_C : Fld := ⟨136315904, 32, 0⟩
/-- `EGR_STR_STATUS.CARRY` (10_egress_delivery.md R274). -/
def Fld.EGR_STR_STATUS_CARRY : Fld := ⟨136316032, 16, 0⟩
/-- `EGR_STR_STATUS.EV` (10_egress_delivery.md R274). -/
def Fld.EGR_STR_STATUS_EV : Fld := ⟨136316048, 3, 0⟩
/-- `EGR_STR_CNT_DELIV.COUNT` (10_egress_delivery.md R259). -/
def Fld.EGR_STR_CNT_DELIV : Fld := ⟨136316160, 32, 0⟩
/-- `EGR_STR_CNT_DROP.COUNT` (10_egress_delivery.md R271). -/
def Fld.EGR_STR_CNT_DROP : Fld := ⟨136316288, 32, 0⟩
/-- 10_egress_delivery.md R259; internal, no register: delivery sequence of the stream's next delivery -/
def Fld.EGR_STR_H_SEQ : Fld := ⟨35184376348895, 32, 0⟩
/-- `EGR_QP_CFG.EN` (10_egress_delivery.md R262). -/
def Fld.EGR_QP_CFG_EN : Fld := ⟨138412032, 1, 0⟩
/-- `EGR_QP_CFG.RESET` (10_egress_delivery.md R262). -/
def Fld.EGR_QP_CFG_RESET : Fld := ⟨138412033, 1, 0⟩
/-- `EGR_QP_CFG.MODE` (10_egress_delivery.md R262). -/
def Fld.EGR_QP_CFG_MODE : Fld := ⟨138412034, 1, 0⟩
/-- `EGR_QP_CFG.CTRL` (10_egress_delivery.md R262). -/
def Fld.EGR_QP_CFG_CTRL : Fld := ⟨138412035, 1, 0⟩
/-- `EGR_QP_CFG.PORT` (10_egress_delivery.md R262). -/
def Fld.EGR_QP_CFG_PORT : Fld := ⟨138412036, 3, 0⟩
/-- `EGR_QP_CFG.MTU` (10_egress_delivery.md R262). -/
def Fld.EGR_QP_CFG_MTU : Fld := ⟨138412039, 2, 2⟩
/-- `EGR_QP_CFG.RETRY_CNT` (10_egress_delivery.md R262). -/
def Fld.EGR_QP_CFG_RETRY_CNT : Fld := ⟨138412041, 3, 7⟩
/-- `EGR_QP_CFG.RNR_RETRY` (10_egress_delivery.md R262). -/
def Fld.EGR_QP_CFG_RNR_RETRY : Fld := ⟨138412044, 3, 7⟩
/-- `EGR_QP_CFG.TIMEOUT` (10_egress_delivery.md R262). -/
def Fld.EGR_QP_CFG_TIMEOUT : Fld := ⟨138412047, 5, 10⟩
/-- `EGR_QP_CFG.DSCP` (10_egress_delivery.md R262). -/
def Fld.EGR_QP_CFG_DSCP : Fld := ⟨138412052, 6, 26⟩
/-- `EGR_QP_DEST_QPN.DEST` (10_egress_delivery.md R262). -/
def Fld.EGR_QP_DEST_QPN_DEST : Fld := ⟨138412160, 32, 0⟩
/-- `EGR_QP_STATUS.STATE` (10_egress_delivery.md R262). -/
def Fld.EGR_QP_STATUS_STATE : Fld := ⟨138412288, 2, 0⟩
/-- `EGR_QP_STATUS.SYNDROME` (10_egress_delivery.md R262). -/
def Fld.EGR_QP_STATUS_SYNDROME : Fld := ⟨138412290, 8, 0⟩
/-- `EGR_QP_MAC_LO.MAC` (10_egress_delivery.md R262). -/
def Fld.EGR_QP_MAC : Fld := ⟨138412544, 48, 0⟩
/-- `EGR_QP_IP0.IP` (10_egress_delivery.md R262). -/
def Fld.EGR_QP_IP0_IP : Fld := ⟨138412800, 32, 0⟩
/-- `EGR_QP_IP1.IP` (10_egress_delivery.md R262). -/
def Fld.EGR_QP_IP1_IP : Fld := ⟨138412928, 32, 0⟩
/-- `EGR_QP_IP2.IP` (10_egress_delivery.md R262). -/
def Fld.EGR_QP_IP2_IP : Fld := ⟨138413056, 32, 0⟩
/-- `EGR_QP_IP3.IP` (10_egress_delivery.md R262). -/
def Fld.EGR_QP_IP3_IP : Fld := ⟨138413184, 32, 0⟩
/-- `EGR_QP_PSN.PSN_INIT` (10_egress_delivery.md R262). -/
def Fld.EGR_QP_PSN_PSN_INIT : Fld := ⟨138413312, 24, 0⟩
/-- `EGR_QP_RATE.RC_MBPS` (10_egress_delivery.md R266). -/
def Fld.EGR_QP_RATE_RC_MBPS : Fld := ⟨138413440, 32, 0⟩
/-- `EGR_QP_CNT_RETX.COUNT` (10_egress_delivery.md R262). -/
def Fld.EGR_QP_CNT_RETX : Fld := ⟨138413568, 32, 0⟩
/-- `EGR_QP_CNT_CNP.COUNT` (10_egress_delivery.md R266). -/
def Fld.EGR_QP_CNT_CNP : Fld := ⟨138413696, 32, 0⟩
/-- 10_egress_delivery.md R262; internal, no register: next PSN -/
def Fld.EGR_QP_H_PSN : Fld := ⟨35184376414432, 24, 0⟩
/-- 10_egress_delivery.md R262; internal, no register: retransmissions since the last advancing ACK -/
def Fld.EGR_QP_H_RETRY : Fld := ⟨35184376414433, 3, 0⟩
/-- 10_egress_delivery.md R262; internal, no register: RNR NAKs for the SEND in progress -/
def Fld.EGR_QP_H_RNR : Fld := ⟨35184376414434, 3, 0⟩
/-- 10_egress_delivery.md R262; internal, no register: the RNR timer runs -/
def Fld.EGR_QP_H_RNRWAIT : Fld := ⟨35184376414435, 1, 0⟩
/-- 10_egress_delivery.md R262; internal, no register: PSN that the RNR NAK named -/
def Fld.EGR_QP_H_RNRPSN : Fld := ⟨35184376414436, 24, 0⟩
/-- 10_egress_delivery.md R266; internal, no register: device time of the last reaction to a CNP -/
def Fld.EGR_QP_H_CNPT : Fld := ⟨35184376414437, 64, 0⟩
/-- 10_egress_delivery.md R266; internal, no register: a reaction has been made since EN -/
def Fld.EGR_QP_H_CNPV : Fld := ⟨35184376414438, 1, 0⟩
/-- 10_egress_delivery.md R267; internal, no register: sequence of the next datagram -/
def Fld.EGR_QP_H_DGRAM : Fld := ⟨35184376414439, 32, 0⟩
/-- `EGR_CTRL.FENCE` (10_egress_delivery.md R277). -/
def Fld.EGR_CTRL_FENCE : Fld := ⟨140509184, 1, 0⟩
/-- `EGR_CTRL.RESET` (10_egress_delivery.md R277). -/
def Fld.EGR_CTRL_RESET : Fld := ⟨140509185, 1, 0⟩
/-- `EGR_CTRL.CLR_CNT` (10_egress_delivery.md R277). -/
def Fld.EGR_CTRL_CLR_CNT : Fld := ⟨140509186, 1, 0⟩
/-- `EGR_CTRL.FENCED` (10_egress_delivery.md R277). -/
def Fld.EGR_CTRL_FENCED : Fld := ⟨140509192, 1, 0⟩
/-- `EGR_CNP_CFG.DEC` (10_egress_delivery.md R266). -/
def Fld.EGR_CNP_CFG_DEC : Fld := ⟨140509312, 8, 64⟩
/-- `EGR_CNP_CFG.INC_US` (10_egress_delivery.md R266). -/
def Fld.EGR_CNP_CFG_INC_US : Fld := ⟨140509320, 8, 55⟩
/-- `EGR_CNP_CFG.INC` (10_egress_delivery.md R266). -/
def Fld.EGR_CNP_CFG_INC : Fld := ⟨140509328, 16, 400⟩
/-- `EGR_CNP_RMIN.RMIN` (10_egress_delivery.md R266). -/
def Fld.EGR_CNP_RMIN : Fld := ⟨140509440, 16, 100⟩
/-- `EGR_DROP_STREAM.DROP_STREAM` (10_egress_delivery.md R273). -/
def Fld.EGR_DROP_STREAM : Fld := ⟨140509568, 8, 0⟩
/-- `EGR_RETRY_BASE_LO.BASE` (10_egress_delivery.md R268). -/
def Fld.EGR_RETRY_BASE : Fld := ⟨140510208, 40, 0⟩
/-- `EGR_RETRY_SIZE.SIZE_MIB` (10_egress_delivery.md R268). -/
def Fld.EGR_RETRY_SIZE_SIZE_MIB : Fld := ⟨140510464, 16, 0⟩
/-- `EGR_DEMAND_CUR.CLASS_A` (10_egress_delivery.md R275). -/
def Fld.EGR_DEMAND_CUR_CLASS_A : Fld := ⟨140510592, 16, 0⟩
/-- `EGR_DEMAND_CUR.DRAM` (10_egress_delivery.md R275). -/
def Fld.EGR_DEMAND_CUR_DRAM : Fld := ⟨140510608, 16, 0⟩
/-- `EGR_DEMAND_NEXT.CLASS_A` (10_egress_delivery.md R275). -/
def Fld.EGR_DEMAND_NEXT_CLASS_A : Fld := ⟨140510720, 16, 0⟩
/-- `EGR_DEMAND_NEXT.DRAM` (10_egress_delivery.md R275). -/
def Fld.EGR_DEMAND_NEXT_DRAM : Fld := ⟨140510736, 16, 0⟩
/-- `EGR_DROP_STATUS.LEVEL` (10_egress_delivery.md R273). -/
def Fld.EGR_DROP_STATUS_LEVEL : Fld := ⟨140517376, 9, 0⟩
/-- `EGR_DROP_STATUS.EMPTY` (10_egress_delivery.md R273). -/
def Fld.EGR_DROP_STATUS_EMPTY : Fld := ⟨140517392, 1, 1⟩
/-- `EGR_DROP_STATUS.OVF` (10_egress_delivery.md R273). -/
def Fld.EGR_DROP_STATUS_OVF : Fld := ⟨140517393, 1, 0⟩
/-- `EGR_DROP_POP.POP` (10_egress_delivery.md R273). -/
def Fld.EGR_DROP_POP : Fld := ⟨140517504, 1, 0⟩
/-- `EGR_DROP_HEAD.DATA` (10_egress_delivery.md R273). -/
def Fld.EGR_DROP_HEAD : Fld := ⟨140517888, 32, 0⟩
/-- `EGR_LATE_STATUS.LEVEL` (10_egress_delivery.md R265). -/
def Fld.EGR_LATE_STATUS_LEVEL : Fld := ⟨140525568, 9, 0⟩
/-- `EGR_LATE_STATUS.EMPTY` (10_egress_delivery.md R265). -/
def Fld.EGR_LATE_STATUS_EMPTY : Fld := ⟨140525584, 1, 1⟩
/-- `EGR_LATE_STATUS.OVF` (10_egress_delivery.md R265). -/
def Fld.EGR_LATE_STATUS_OVF : Fld := ⟨140525585, 1, 0⟩
/-- `EGR_LATE_POP.POP` (10_egress_delivery.md R265). -/
def Fld.EGR_LATE_POP : Fld := ⟨140525696, 1, 0⟩
/-- `EGR_LATE_HEAD.DATA` (10_egress_delivery.md R265). -/
def Fld.EGR_LATE_HEAD : Fld := ⟨140526080, 32, 0⟩
/-- `EGR_EVENT_EN.PORT` (10_egress_delivery.md R278). -/
def Fld.EGR_EVENT_EN_PORT : Fld := ⟨140533760, 1, 1⟩
/-- `EGR_EVENT_EN.QP` (10_egress_delivery.md R278). -/
def Fld.EGR_EVENT_EN_QP : Fld := ⟨140533761, 1, 1⟩
/-- `EGR_EVENT_EN.STR` (10_egress_delivery.md R278). -/
def Fld.EGR_EVENT_EN_STR : Fld := ⟨140533762, 3, 5⟩
/-- `EGR_EVENT_EN.LOG` (10_egress_delivery.md R278). -/
def Fld.EGR_EVENT_EN_LOG : Fld := ⟨140533765, 2, 3⟩
/-- 10_egress_delivery.md R252; internal, no register: port mode read from the boot image -/
def Fld.EGR_H_MODE : Fld := ⟨35184376479976, 2, 0⟩
/-- 10_egress_delivery.md R278; internal, no register: sticky bit LATE_ERR, cleared when the log is empty -/
def Fld.EGR_H_LATE_ERR : Fld := ⟨35184376479977, 1, 0⟩
/-- 10_egress_delivery.md R265; internal, no register: late-error entries that a full log refused -/
def Fld.EGR_H_LATE_LOST : Fld := ⟨35184376479978, 32, 0⟩
/-- 10_egress_delivery.md R273; internal, no register: drop records that a full log refused -/
def Fld.EGR_H_DROP_LOST : Fld := ⟨35184376479979, 32, 0⟩
/-- `BRG_WIN_BASE_LO.BASE` (11_host_window_bridge.md R284). -/
def Fld.BRG_WIN_BASE : Fld := ⟨142606336, 40, 0⟩
/-- `BRG_WIN_CFG.EN` (11_host_window_bridge.md R284). -/
def Fld.BRG_WIN_CFG_EN : Fld := ⟨142606592, 1, 0⟩
/-- `BRG_WIN_CFG.READ_ONLY` (11_host_window_bridge.md R284). -/
def Fld.BRG_WIN_CFG_READ_ONLY : Fld := ⟨142606593, 1, 0⟩
/-- `BRG_WIN_CFG.MIN_ROLE` (11_host_window_bridge.md R284). -/
def Fld.BRG_WIN_CFG_MIN_ROLE : Fld := ⟨142606594, 2, 0⟩
/-- `BRG_WIN_CFG.SWAP` (11_host_window_bridge.md R284). -/
def Fld.BRG_WIN_CFG_SWAP : Fld := ⟨142606596, 2, 0⟩
/-- `BRG_WIN_CFG.PREFETCH` (11_host_window_bridge.md R284). -/
def Fld.BRG_WIN_CFG_PREFETCH : Fld := ⟨142606598, 1, 0⟩
/-- `BRG_WIN_CFG.RA_GRANULES` (11_host_window_bridge.md R284). -/
def Fld.BRG_WIN_CFG_RA_GRANULES : Fld := ⟨142606600, 4, 0⟩
/-- `BRG_WIN_CFG.LOG2_SIZE` (11_host_window_bridge.md R284). -/
def Fld.BRG_WIN_CFG_LOG2_SIZE : Fld := ⟨142606606, 6, 28⟩
/-- `BRG_WIN_CFG.COMMIT` (11_host_window_bridge.md R284). -/
def Fld.BRG_WIN_CFG_COMMIT : Fld := ⟨142606623, 1, 0⟩
/-- `BRG_WIN_STATUS.PENDING` (11_host_window_bridge.md R284). -/
def Fld.BRG_WIN_STATUS_PENDING : Fld := ⟨142606720, 1, 0⟩
/-- `BRG_WIN_STATUS.ACTIVE` (11_host_window_bridge.md R284). -/
def Fld.BRG_WIN_STATUS_ACTIVE : Fld := ⟨142606728, 5, 0⟩
/-- 11_host_window_bridge.md R286; internal, no register: messages that have arrived; the place of the next one -/
def Fld.BRG_H_ORDER : Fld := ⟨35184376545516, 64, 0⟩
/-- 11_host_window_bridge.md R284; internal, no register: staging differs from the applied values or was written -/
def Fld.BRG_WIN_S_HAVE : Fld := ⟨35184376545517, 1, 0⟩
/-- 11_host_window_bridge.md R284; internal, no register: staged BASE -/
def Fld.BRG_WIN_S_BASE : Fld := ⟨35184376545518, 40, 0⟩
/-- 11_host_window_bridge.md R284; internal, no register: staged BRG_WIN_CFG, bits 19 to 0 -/
def Fld.BRG_WIN_S_CFG : Fld := ⟨35184376545519, 20, 0⟩
/-- 11_host_window_bridge.md R284; internal, no register: pending BASE -/
def Fld.BRG_WIN_P_BASE : Fld := ⟨35184376545520, 40, 0⟩
/-- 11_host_window_bridge.md R284; internal, no register: pending BRG_WIN_CFG, bits 19 to 0 -/
def Fld.BRG_WIN_P_CFG : Fld := ⟨35184376545521, 20, 0⟩
/-- `BRG_CTRL.FENCE` (11_host_window_bridge.md R294). -/
def Fld.BRG_CTRL_FENCE : Fld := ⟨142639104, 1, 0⟩
/-- `BRG_CTRL.RESET` (11_host_window_bridge.md R294). -/
def Fld.BRG_CTRL_RESET : Fld := ⟨142639105, 1, 0⟩
/-- `BRG_CTRL.CLR_CNT` (11_host_window_bridge.md R294). -/
def Fld.BRG_CTRL_CLR_CNT : Fld := ⟨142639106, 1, 0⟩
/-- `BRG_CTRL.FENCED` (11_host_window_bridge.md R294). -/
def Fld.BRG_CTRL_FENCED : Fld := ⟨142639112, 1, 0⟩
/-- `BRG_TIMEOUT.BRG_TIMEOUT_US` (11_host_window_bridge.md R292). -/
def Fld.BRG_TIMEOUT_BRG_TIMEOUT_US : Fld := ⟨142639232, 16, 1000⟩
/-- `BRG_STATUS.EXECUTING` (11_host_window_bridge.md R286). -/
def Fld.BRG_STATUS_EXECUTING : Fld := ⟨142639360, 5, 0⟩
/-- `BRG_STATUS.WAITING` (11_host_window_bridge.md R286). -/
def Fld.BRG_STATUS_WAITING : Fld := ⟨142639376, 12, 0⟩
/-- `BRG_EVENTS.EV` (11_host_window_bridge.md R296). -/
def Fld.BRG_EVENTS_EV : Fld := ⟨142639488, 6, 0⟩
/-- `BRG_EVENT_EN.EN` (11_host_window_bridge.md R296). -/
def Fld.BRG_EVENT_EN : Fld := ⟨142639616, 6, 63⟩
/-- `BRG_CNT_REQ.COUNT` (11_host_window_bridge.md R295). -/
def Fld.BRG_CNT_REQ : Fld := ⟨142640128, 32, 0⟩
/-- `BRG_CNT_ERR.COUNT` (11_host_window_bridge.md R281). -/
def Fld.BRG_CNT_ERR : Fld := ⟨142640256, 32, 0⟩
/-- `BRG_CNT_BAD.COUNT` (11_host_window_bridge.md R279). -/
def Fld.BRG_CNT_BAD : Fld := ⟨142640384, 32, 0⟩
/-- `BRG_CNT_AUTH_FAIL.COUNT` (11_host_window_bridge.md R282). -/
def Fld.BRG_CNT_AUTH_FAIL : Fld := ⟨142640512, 32, 0⟩
/-- `BRG_CNT_LATE.COUNT` (11_host_window_bridge.md R292). -/
def Fld.BRG_CNT_LATE : Fld := ⟨142640640, 32, 0⟩
/-- `BRG_CNT_REPLY_LOST.COUNT` (11_host_window_bridge.md R293). -/
def Fld.BRG_CNT_REPLY_LOST : Fld := ⟨142640768, 32, 0⟩
/-- `BRG_PREFETCH_HIT.COUNT` (11_host_window_bridge.md R289). -/
def Fld.BRG_PREFETCH_HIT : Fld := ⟨142640896, 32, 0⟩
/-- `BRG_PREFETCH_DISCARD.COUNT` (11_host_window_bridge.md R290). -/
def Fld.BRG_PREFETCH_DISCARD : Fld := ⟨142641024, 32, 0⟩

end Sys2Proof.Machine
end

