-- ==== Sys2Proof/Config.lean ====
section
/-! DEFINITION. What the FZ-A128 fixes as constants, and the free values: the values its manual leaves open, as
constants without a body. -/

namespace Sys2Proof.Config

/-- A value the manual leaves open, drawn in the order the machine meets it (the index is `State.fresh`). -/
opaque freeNat : Nat → Nat

/-- SHA-256 (named by R431, R397 and others, defined by a standard the manual does not repeat): uninterpreted. -/
opaque sha256 : List Nat → List Nat

/-- HMAC-SHA-256 of a message under a session key (R280): uninterpreted. -/
opaque hmac : Nat → List Nat → List Nat

/-- CRC-32 with polynomial 0x04C1_1DB7 (R317): the manual states the polynomial, and neither the initial value nor the
reflection. -/
opaque crc32 : List Nat → Nat

/-- The device's attestation public keys (R426), derived from its secret: RSA modulus and SLH-DSA public key. -/
opaque attestModulus : List Nat
opaque attestSlh : List Nat

/-- Entries of the event queue (R17). -/
def evqDepth : Nat := 1024

/-- Words of one ingress queue (R81). -/
def queueWords : Nat := 65536

/-- Line descriptors of one ingress queue (R81). -/
def queueDescs : Nat := 4096

end Sys2Proof.Config
end

