-- ==== Sys2Proof/Machine/State.lean ====
section
/-! DEFINITION. The state of the FZ-A128 as plain data. Scalar registers and scalar internal state are cells
(`State.cells`, named in Fields.lean); what has structure (queues, frames, tables, logs) is typed below, block by
block. -/

namespace Sys2Proof.Machine

/-- The shared status codes (18_i3c_management_port.md R448). -/
inductive Status where
  | ok | busy | state | rights | range | selftest | targetReset | timeout | farError | integrity | version | nospace
  deriving DecidableEq, Repr

/-- An entry of the event queue (01_frame_journey.md R18): bytes 16 to 31 are `arg` as one little-endian number. -/
structure Ev where
  time : Nat
  block : Nat
  inst : Nat
  code : Nat
  seq : Nat
  arg : Nat
  deriving DecidableEq, Repr

/-- What an egress packet is (R260, R261, R267). -/
inductive PktOp where
  | writeFirst | writeMiddle | writeLast | writeOnly | writeImm | sendFirst | sendMiddle | sendLast | sendOnly | ack
  | datagram
  deriving DecidableEq, Repr

/-- The headers of an egress packet (10_egress_delivery.md R253, R258, R261, R267): VID and PCP of its 802.1Q tag, MAC and IP
addresses, DSCP and ECN codepoint, UDP ports, and over RC the destination queue pair, the P_Key and the remote key of a
write. -/
structure NetHdr where
  vlan : Option (Nat × Nat)
  srcMac : Nat
  destMac : Nat
  srcIp : List Nat
  destIp : List Nat
  dscp : Nat
  ecn : Nat
  srcPort : Nat
  destPort : Nat
  destQpn : Nat
  pKey : Nat
  rKey : Nat
  deriving DecidableEq, Repr

/-- What the device sends on its links and pins, and the replies it gives: the model's own record, oldest first. -/
inductive Out where
  /-- a register access or command completes with a status (R448) -/
  | status (src : Src) (cmd : Nat) (st : Status)
  /-- reply data of a command or access, little-endian bytes -/
  | reply (src : Src) (cmd : Nat) (data : List Nat)
  /-- a lane sends this training sequence (R38), its 16 characters: a step sequence 16 times, any other back to back until
  it sends something else -/
  | lts (lane : Nat) (chars : List Nat)
  /-- `n` lane control blocks with command `cmd` (R42) -/
  | laneCtl (lane cmd n : Nat)
  /-- a Usmas symbol towards a head (R65): code and argument bytes -/
  | usmas (lane code : Nat) (arg : List Nat)
  /-- a trigger pulse starts on pin TRIG_OUT (R104) -/
  | trigPin (pin : Nat)
  /-- a received PTP event message reaches the firmware with its receive time (R111) -/
  | ptpRx (msgType seqId stamp : Nat)
  /-- an egress port sends a data packet: queue pair, PSN, what it is, stream, delivery sequence, the host virtual address
  it is written to (0 for a SEND or datagram), data; a WRITE with immediate has its 4 immediate bytes first -/
  | packet (port qp psn : Nat) (op : PktOp) (stream dseq va : Nat) (data : List Nat) (hdr : NetHdr)
  /-- an egress port sends a PTP event message of the firmware -/
  | ptpTx (port msgType seqId stamp : Nat)
  /-- a memory transaction of a hardware block completes -/
  | memory (block addr : Nat) (st : Status) (data : List Nat)
  /-- an in-band interrupt on the I3C bus with its mandatory data byte (R452) -/
  | ibi (byte : Nat)
  /-- the I3C target answers a transfer or a common command code: acknowledged or not, and the bytes it sends -/
  | i3c (ack : Bool) (data : List Nat)
  /-- a fabric port sends a symbol (R365): code and argument bytes -/
  | symbol (port code : Nat) (arg : List Nat)
  /-- a fabric port sends a packet (R366): class, link sequence, packet bytes, and whether it ends poisoned -/
  | fabPacket (port cls lseq : Nat) (data : List Nat) (poison : Bool)
  /-- a management message of another node reaches the firmware (R378) -/
  | fabMessage (node tag : Nat) (data : List Nat)
  /-- an output pin takes a level -/
  | pin (name : String) (i level : Nat)
  deriving DecidableEq, Repr

/-! ### Lane complex -/

/-- Equaliser settings of a lane and rung (R35); signed fields are two's complement bytes; `src` is the code of
`LANE_EQ_RX2.SRC`. -/
structure EqEntry where
  pre2 : Nat
  pre1 : Nat
  main : Nat
  post1 : Nat
  ctle : Nat
  vga : Nat
  dfe1 : Nat
  dfe2 : Nat
  dfe3 : Nat
  rxInv : Nat
  txInv : Nat
  src : Nat
  deriving DecidableEq, Repr

/-- Equalisation table with its overrides, and the settings each lane has loaded (R34, R37). -/
structure LaneS where
  /-- entry of lane `n` and rung `r` at key `5 * n + r`; a pair not listed has the defaults of R36 -/
  eqTable : List (Nat × EqEntry)
  /-- settings in effect on a lane -/
  eqLoaded : List (Nat × EqEntry)
  /-- overrides kept as installer settings in NAND (R37) -/
  eqKept : List (Nat × EqEntry)
  deriving DecidableEq, Repr

/-! ### Frames -/

/-- The 32-byte frame tag (R114), field by field. -/
structure Tag where
  stream : Nat
  source : Nat
  seq : Nat
  pos : Nat
  job : Nat
  time : Nat
  expMask : Nat
  near : Nat
  dropped : Nat
  flags : Nat
  deriving DecidableEq, Repr

/-- Where the bytes of a line are: ingress queue, holding store, spill region, multi-exposure frame store, or no longer
held (R81, R129, R137, R138). -/
inductive Home where
  | queue | hold | spill | store | released
  deriving DecidableEq, Repr

/-- A line of a frame as ingress hands it on (R78): exposure, line number from 0, line state 0 to 3, pixels received,
queue words it holds, its unpacked pixel codes (none while its bytes are in LPDDR5X), where it is held, whether a pipe has
begun a stripe with it, and the stretches of LPDDR5X that hold its packed bytes. -/
structure Line where
  exp : Nat
  no : Nat
  state : Nat
  px : Nat
  words : Nat
  data : List Nat
  home : Home
  begun : Bool
  addr : List (Nat × Nat)
  deriving DecidableEq, Repr

/-- What the scheduler keeps of a frame: the bank it is bound to (none when it was refused for want of a context), a
refusal, the forced classic order (R152), stripes noted as eligible with their eligibility time, stripes started,
finished and lost, lines a replay source may have fetched, lines a held pipe has produced, the overload-delayed
flag, whether the frame is tapped, whether its tap was abandoned, the number of its first tap record (R177), and the
blocks of the frame store it has reserved (14_memory_subsystem.md R355). -/
structure FrameWork where
  bank : Option Nat
  refused : Bool
  classic : Bool
  elig : List (Nat × Nat)
  started : List Nat
  done : List Nat
  lost : List Nat
  paced : Nat
  linesOut : Nat
  delayed : Bool
  tapped : Bool
  tapDropped : Bool
  tapSlot : Nat
  blocks : List (Nat × Nat)
  deriving DecidableEq, Repr

/-- A channel or replay frame from its FS until the device is done with it. -/
structure Frame where
  /-- the source: 0–127 for CH, 128–131 for PLAY -/
  ch : Nat
  tag : Tag
  fn : Nat
  exps : Nat
  dt : Nat
  width : Nat
  height : Nat
  fill : Nat
  lsMode : Nat
  /-- masks over exposures: begun, ended, those of which a line was received, and those recorded as present (R79, R80) -/
  begun : Nat
  ended : Nat
  got : Nat
  present : Nat
  /-- number of the next line of each exposure -/
  next : List Nat
  /-- exposures whose next long packet an LS has condemned (R79) -/
  condemned : Nat
  lines : List Line
  /-- lines recorded as missing (exposure, line) below the last exposure (R129) -/
  missing : List (Nat × Nat)
  /-- embedded data packets held for tap T1 (R74) -/
  embedded : List (List Nat)
  extra : Nat
  closed : Bool
  /-- scheduler's view of the frame -/
  work : FrameWork
  deriving DecidableEq, Repr

/-! ### Camera ingress -/

/-- What becomes of the payload of the open packet: a line is being written to the frame, embedded data is collected,
the bytes only pass by, the line has overflowed the queue, or a full queue discards the packet whole. -/
inductive Disp where
  | line (no : Nat) | embedded | pass | overflow (no : Nat) | dropped
  deriving DecidableEq, Repr

/-- The CSI-2 packet open on a lane (R63): its virtual channel and exposure index, the bytes received, what its header
decided, bytes that came after the queue was full, and whether surplus bytes have been counted. -/
structure Packet where
  vc : Nat
  exp : Nat
  bytes : List Nat
  disp : Option Disp
  lost : Nat
  overLong : Bool
  deriving DecidableEq, Repr

/-- Camera ingress beyond its registers. -/
structure IngS where
  /-- packet open on a lane -/
  packets : List (Nat × Packet)
  /-- the last HELLO accepted on a lane: its argument bytes -/
  hello : List (Nat × List Nat)
  deriving DecidableEq, Repr

/-! ### Sync and tagging -/

/-- A sent fire waiting for its frame (R112), with `JOB_SW_SEQ` when it was made (12_jobs_and_autonomy.md R307). -/
structure Fire where
  dep : Nat
  pos : Nat
  seq : Nat
  sw : Nat
  deriving DecidableEq, Repr

/-- A stamp of a transmitted PTP event message (R111). -/
structure PtpStamp where
  seqId : Nat
  msgType : Nat
  time : Nat
  deriving DecidableEq, Repr

/-- Sync unit beyond its registers: the match list of each channel, oldest first, and the PTP stamp queue. -/
structure SynS where
  fires : List (Nat × List Fire)
  stamps : List PtpStamp
  deriving DecidableEq, Repr

/-! ### Pipes -/

/-- A stripe of a frame: the frame's source and sequence, the stripe number, and its bank. -/
structure StripeRef where
  ch : Nat
  seq : Nat
  k : Nat
  bank : Nat
  deriving DecidableEq, Repr

/-- A copy in progress on a lane (R137, R138): the stripe, whether it goes to the spill region, and the start time. -/
structure CopyJob where
  stripe : StripeRef
  spill : Bool
  start : Nat
  deriving DecidableEq, Repr

/-- Store taken by a copied stripe, in bytes, and its stretches of the spill region. -/
structure HoldUse where
  stripe : StripeRef
  spill : Bool
  bytes : Nat
  ext : List (Nat × Nat)
  deriving DecidableEq, Repr

/-- A row of a region of interest on its way to the merger or to an egress delivery (R174): source, frame sequence,
region, row of the frame, its samples plane by plane, and whether the row was received (a filled row is masked). -/
structure RoiRow where
  ch : Nat
  seq : Nat
  roi : Nat
  y : Nat
  planes : List (List Nat)
  filled : Bool
  tag : Tag
  deriving DecidableEq, Repr

/-- A tap line of a frame whose record is not complete: source, sequence, exposure, row and bytes (R175). -/
structure TapLine where
  ch : Nat
  seq : Nat
  exp : Nat
  y : Nat
  bytes : List Nat
  deriving DecidableEq, Repr

/-- A complete tap record on its way to an egress delivery (R177): stream, source, sequence, tag and bytes. -/
structure TapRecord where
  stream : Nat
  ch : Nat
  seq : Nat
  tag : Tag
  bytes : List Nat
  deriving DecidableEq, Repr

/-- Pipes and scheduler beyond their registers. -/
structure PipeS where
  /-- stripe running on a pipe -/
  running : List (Nat × StripeRef)
  /-- stripe assigned to a pipe's other context slot -/
  next : List (Nat × StripeRef)
  /-- context and bank held by slot `i` of pipe `p`, at key 2 × p + i (R120) -/
  slot : List (Nat × (Nat × Nat))
  copies : List (Nat × CopyJob)
  holds : List HoldUse
  /-- rows that have left the pipes for the merger, oldest first -/
  toMerger : List RoiRow
  /-- rows that have left the pipes for egress, oldest first -/
  toEgress : List RoiRow
  /-- regions of frames whose delivery has been offered to egress: source, sequence, region -/
  offered : List (Nat × Nat × Nat)
  /-- tap lines of frames on their way to egress (R178) -/
  tapQueue : List TapLine
  /-- tap records for egress, oldest first -/
  tapDone : List TapRecord
  /-- tap records of bank `b` of context `x` since it was applied, at key 2 × x + b (R177) -/
  tapCount : List (Nat × Nat)
  deriving DecidableEq, Repr

/-! ### Blanket merger -/

/-- A member of an open blanket frame: its index in the layout, its frame and tag, the part of its region that lies in the
frame, whether its frame has left the pipes, and whether it is absent (R183, R189, R190). -/
structure Member where
  m : Nat
  ch : Nat
  seq : Nat
  tag : Tag
  x0 : Nat
  y0 : Nat
  w : Nat
  h : Nat
  done : Bool
  absent : Bool
  deriving DecidableEq, Repr

/-- A member row in the merger's store: 8-bit samples plane by plane (R184). -/
structure MRow where
  m : Nat
  y : Nat
  planes : List (List Nat)
  masked : Bool
  deriving DecidableEq, Repr

/-- A row that came over an external seam: side 0 left or 1 right, blanket row, first column, the samples of each column
and which columns are valid (R195). -/
structure SeamRow where
  side : Nat
  v : Nat
  u0 : Nat
  px : List (List Nat)
  ok : List Bool
  deriving DecidableEq, Repr

/-- A tile column of an open blanket frame: its next row, the lines of the tile being formed with their validity, and the
trailer's flags and members so far (R192), and how many of the tile's bands, from its first, a reset of the comparison
engine has cut off (R224). -/
structure TileCol where
  col : Nat
  next : Nat
  lines : List (List (List Nat) × List Bool)
  flags : Nat
  members : Nat
  cut : Nat
  deriving DecidableEq, Repr

/-- An open blanket frame (R189): blanket, layout bank, sequence, time and job, join window, members, stored rows, rows
from neighbours, tile columns, absent members, the seam flag, and the rows sent over each external seam. -/
structure BFrame where
  k : Nat
  bank : Nat
  seq : Nat
  t0 : Nat
  job : Nat
  window : Bool
  members : List Member
  rows : List MRow
  remote : List SeamRow
  cols : List TileCol
  absent : Nat
  seamMissing : Bool
  sentL : Nat
  sentR : Nat
  deriving DecidableEq, Repr

/-! ### Reference comparison -/

/-- A blanket frame in comparison (R203 to R212): the bank and slot it is bound to (none: no products), its reference
position, tracking offset in force, tag, the alignment tiles it has and those done, candidates so far,
the integer offsets that count for tracking, and whether its last tile has come. -/
structure RefFrame where
  k : Nat
  seq : Nat
  job : Nat
  bank : Option Nat
  mpos : Nat
  tx : Int
  ty : Int
  tag : Tag
  tiles : Nat
  doneTiles : Nat
  cands : Nat
  offs : List (Int × Int)
  closed : Bool
  /-- alignment has begun: position and tracking are fixed -/
  begun : Bool
  /-- the comparison bank that landed at this frame with a provisional mark position (R205) -/
  lands : Option Nat
  deriving DecidableEq, Repr

/-- What the engine keeps of a finished alignment tile of a blanket tile: its place 0 to 15, statistics record, cause, and
residual samples with their masks for Y, Cb and Cr (R213, R215, R216). -/
structure RefPart where
  i : Nat
  stat : List Nat
  cause : Nat
  res : List (List Int)
  ok : List (List Bool)
  deriving DecidableEq, Repr

/-- A blanket tile handed on by the merger (R192), with its header's P and job ID and its trailer's valid pixels, flags and
members, and the parts of it that are compared. -/
structure RefTile where
  k : Nat
  planes : Nat
  job : Nat
  seq : Nat
  row : Nat
  col : Nat
  lines : List (List (List Nat) × List Bool)
  valid : Nat
  flags : Nat
  members : Nat
  /-- bands, from the tile's first, that a reset of the engine has cut off (R224) -/
  cut : Nat
  /-- its residual product has been started -/
  sent : Bool
  parts : List RefPart
  deriving DecidableEq, Repr

/-- Reference comparison beyond its registers: frames and tiles in comparison, and the adopted mark positions of a
comparison bank (2 × blanket + bank), newest first, at most four (R205), and who waits for the check of a slot (R202). -/
structure RefS where
  frames : List RefFrame
  tiles : List RefTile
  marks : List (Nat × List Nat)
  checks : List (Nat × Src)
  deriving DecidableEq, Repr

/-! ### Codec -/

/-- One plane of a product on its way to the encoder: type, component, samples and validity (R226). -/
structure Plane where
  ty : Nat
  comp : Nat
  rows : List (List Int)
  mask : List (List Bool)
  deriving DecidableEq, Repr

/-- An open product (R226, R244): its stream and kind, blanket and frame, tile row and column, the bytes that travel
uncoded before its tiles, its planes as far as they have arrived, whether all of them have (R247), the NEAR fixed at its
start, whether it takes the raw path, whether it is the recorder's copy, and the tag it is delivered under. -/
structure Product where
  stream : Nat
  kind : Nat
  k : Nat
  fseq : Nat
  row : Nat
  col : Nat
  head : List Nat
  planes : List Plane
  whole : Bool
  near : Nat
  bypass : Bool
  copy : Bool
  tag : Tag
  /-- the number its delivery knows it by (R271) -/
  id : Nat
  deriving DecidableEq, Repr

/-! ### Egress -/

/-- Something for egress whose first byte has not arrived (R255): the next deliveries, in order. `largest` is the largest
size its kind could have taken (R240, R271). -/
structure Offer where
  stream : Nat
  kind : Nat
  source : Nat
  fseq : Nat
  tag : Tag
  payload : List Nat
  coded : Bool
  near : Nat
  planes : Nat
  row : Nat
  col : Nat
  w : Nat
  h : Nat
  largest : Nat
  /-- bytes are still to come: of open product `id`, or of region `id` of a frame in the pipes -/
  open' : Bool
  id : Nat
  deriving DecidableEq, Repr

/-- A delivery the engine has taken on (R259 to R274): its offer, class, port and queue pair, delivery sequence,
dropped-before count, the time its first byte was queued, whether its first packet has left, the bytes sent of its
payload, its slot, whether its descriptor has left, the delayed flag, the bytes of its payload, the stretches of its class
queue it still holds (payload, then descriptor) with the bytes it has given up at their front, and, of a delivery that
comes row by row, the bytes of a row and the rows that have come (R268, R271). Its bytes lie in those stretches. -/
structure Delivery where
  o : Offer
  cls : Nat
  port : Nat
  qp : Nat
  dseq : Nat
  before : Nat
  queuedAt : Nat
  started : Bool
  sent : Nat
  slot : Nat
  finished : Bool
  delayed : Bool
  len : Nat
  ext : List (Nat × Nat)
  gone : Nat
  unit : Nat
  rows : List Nat
  deriving DecidableEq, Repr

/-- Deliveries of one frame on one stream (R257, R274): delivered and refused so far, the largest NEAR, the
dropped-before count its deliveries carry, and whether one of them was overload-delayed (R272). -/
structure StrFrame where
  stream : Nat
  source : Nat
  fseq : Nat
  taken : Nat
  refused : Nat
  near : Nat
  before : Nat
  delayed : Bool
  deriving DecidableEq, Repr

/-- A packet sent on a queue pair and not acknowledged (R262): its PSN, what it is, the delivery it belongs to (stream 0
for a SEND), the address it writes, the bytes it carries that no class queue holds (a SEND's data, an immediate value), and
the place of the others in the delivery's stretches. -/
structure Pkt where
  qp : Nat
  psn : Nat
  op : PktOp
  stream : Nat
  dseq : Nat
  va : Nat
  data : List Nat
  off : Nat
  n : Nat
  deriving DecidableEq, Repr

/-- A message or acknowledgement waiting on a control queue pair (R263, R270): the bytes still to send, and whether some
have been sent. -/
structure CtlMsg where
  qp : Nat
  isAck : Bool
  data : List Nat
  begun : Bool
  deriving DecidableEq, Repr

/-- Egress beyond its registers. -/
structure EgrS where
  offers : List Offer
  /-- deliveries taken on and not yet acknowledged, in queue order -/
  queue : List Delivery
  frames : List StrFrame
  /-- sources and sequences of frames in the order their FS or blanket opening was accepted (R274) -/
  order : List (Nat × Nat)
  /-- latest frame counted in a stream's carry (R274) -/
  carried : List (Nat × (Nat × Nat))
  /-- blanket frames that have ended and whose end-of-frame deliveries wait for open products: blanket, sequence, streams,
  final tag (R257) -/
  ends : List (Nat × Nat × List Nat × Tag)
  drops : List (List Nat)
  late : List (List Nat)
  pkts : List Pkt
  /-- PSNs to send again on a queue pair -/
  resend : List (Nat × List Nat)
  ctl : List CtlMsg
  /-- packets that count against a queue pair's rate: queue pair, time, bytes (R266) -/
  sends : List (Nat × Nat × Nat)
  /-- control packets of the last 100 µs: port, time, bytes (R270) -/
  ctlSends : List (Nat × Nat × Nat)
  /-- the message in reassembly on a control queue pair (R263) -/
  parts : List (Nat × List Nat)
  deriving DecidableEq, Repr

/-! ### Host window bridge -/

/-- A piece of a request (R285 to R287): its internal address and length, whether it has been issued and when, how many
outputs the device had given when the access was made (none: not yet made), its status, and the data read. -/
structure Piece where
  addr : Nat
  len : Nat
  issued : Option Nat
  made : Option Nat
  status : Option Status
  data : List Nat
  deriving DecidableEq, Repr

/-- An access request that passed the checks (R280, R282): its queue pair, version byte, session, counter, tag, op, window,
internal start address and length, write data in internal order, swap element, prefetch and the end of the fetch, the pieces of
the phase in progress, whether that phase is the read-back of op 3, whether its reply can no longer be sent, and whether
its queue pair has been reset since; `role` is the session's role, `order` its place among the messages of all queue
pairs. -/
structure BrgReq where
  qp : Nat
  order : Nat
  role : Role
  ver : Nat
  session : Nat
  ctr : Nat
  tag : Nat
  op : Nat
  win : Nat
  addr : Nat
  len : Nat
  data : List Nat
  elem : Nat
  prefetch : Bool
  fetchEnd : Nat
  pieces : List Piece
  readBack : Bool
  lost : Bool
  gone : Bool
  deriving DecidableEq, Repr

/-- Read-ahead held for a control queue pair (R289): its window, session, the fetch time, and the held bytes by internal
address. -/
structure ReadAhead where
  win : Nat
  session : Nat
  time : Nat
  bytes : List (Nat × Nat)
  deriving DecidableEq, Repr

/-- A command message passed to firmware and not yet answered (R279): queue pair, place among the messages, version byte,
session, counter, tag and command code. -/
structure HostCmd where
  qp : Nat
  order : Nat
  ver : Nat
  session : Nat
  ctr : Nat
  tag : Nat
  code : Nat
  deriving DecidableEq, Repr

/-- A piece whose completion will be dropped (R292, 20_power_sleep_reset.md R487): slot, address, length, queue pair or
0xFFFF once that was reset, session and tag, the data of a write its target may still carry out, and whether it belongs to
an older generation. -/
structure LatePiece where
  slot : Nat
  addr : Nat
  len : Nat
  qp : Nat
  session : Nat
  tag : Nat
  data : Option (List Nat)
  stale : Bool
  deriving DecidableEq, Repr

/-- The bridge beyond its registers: requests in the 16 execution slots, requests waiting in order of arrival, read-ahead
of a control queue pair, pieces whose completion will come too late, and commands with firmware. -/
structure BrgS where
  slots : List (Nat × BrgReq)
  wait : List BrgReq
  ahead : List (Nat × ReadAhead)
  late : List LatePiece
  cmds : List HostCmd
  deriving DecidableEq, Repr

/-! ### Storage -/

/-- A stored hamper (13_storage_job_library.md R333): its number, image without the data of its reference, where that data
stands in the image, the reference digest, its length as uploaded, whether it is marked damaged, its upload time, and its
segments. -/
structure Hamper where
  num : Nat
  image : List Nat
  refAt : Nat
  digest : List Nat
  length : Nat
  damaged : Bool
  uploaded : Nat
  segs : List Nat
  deriving DecidableEq, Repr

/-- A reference object (R333): its section digest, bytes and segments. -/
structure RefObj where
  digest : List Nat
  bytes : List Nat
  segs : List Nat
  deriving DecidableEq, Repr

/-- A recorder entry (R338): sequence, device time, job, blanket, the flags of byte 23, tag, candidate record, coded patch,
the missed count of a gap entry, and the segment that holds it (0 while it is staged). -/
structure RecEntry where
  seq : Nat
  time : Nat
  job : Nat
  k : Nat
  flags : Nat
  tag : List Nat
  cand : List Nat
  patch : List Nat
  missed : Nat
  seg : Nat
  deriving DecidableEq, Repr

/-- A NAND block, of the size of one segment in this model: number, region (0 free, 4 library, 5 recorder), the segment it
holds, erase count, scrub stamp in RTC seconds, the ladder step that last succeeded, and whether it is retired. -/
structure NandBlk where
  id : Nat
  region : Nat
  seg : Nat
  erases : Nat
  stamp : Nat
  step : Nat
  retired : Bool
  deriving DecidableEq, Repr

/-- Storage beyond its registers. Everything but `staged` lies in NAND. -/
structure StoS where
  hampers : List Hamper
  refs : List RefObj
  /-- blocks that hold data or have been erased -/
  blocks : List NandBlk
  /-- recorder entries in staging SRAM, oldest first -/
  staged : List RecEntry
  /-- recorder entries in the ring, oldest first -/
  entries : List RecEntry
  /-- segments of the ring in the order they were filled; the last is open -/
  ring : List Nat
  /-- settings kept in NAND (R37, R284, STO_CFG0 to 2, SEC_CFG): register address and value -/
  settings : List (Nat × Nat)
  deriving DecidableEq, Repr

/-! ### Memory -/

/-- A memory transaction that waits in its channel's controller (14_memory_subsystem.md R356, R357): the block that sent it
(interface index of 20_power_sleep_reset.md R488; 255 for an access of `src`) and its generation, the class, address,
length, the data of a write, its arrival time, and whether it is served as class 1 by now. -/
structure MemReq where
  blk : Nat
  gen : Nat
  src : Src
  cls : Nat
  addr : Nat
  len : Nat
  data : Option (List Nat)
  born : Nat
  promoted : Bool
  deriving DecidableEq, Repr

/-! ### Management port -/

/-- A latched upper half of a register read (21_register_map.md R511): initiator, address of the `_HI` partner, value. A
staged lower half of a register write (R512) has the same form. -/
structure Latch where
  ini : Ini
  addr : Nat
  value : Nat
  deriving DecidableEq, Repr

/-- Event forwarding of a session (18_i3c_management_port.md R450): queue pair, session, outgoing counter, and whether it
is enabled. -/
structure Forward where
  qp : Nat
  session : Nat
  ctr : Nat
  on : Bool
  deriving DecidableEq, Repr

/-- The management port and the register network beyond their registers: read latches (one per initiator, as a read of
`_HI` must follow its `_LO` directly), staged lower halves, the rejected-command log newest first (R451), and event
forwarding. -/
structure MgtS where
  latches : List Latch
  staged : List Latch
  rejected : List (List Nat)
  forward : List Forward
  deriving DecidableEq, Repr

/-! ### Security -/

/-- An open session (17_roles_security_audit.md R421). -/
structure Session where
  num : Nat
  role : Role
  key : Nat
  major : Nat
  /-- last accepted counter (R282) -/
  ctr : Nat
  /-- device time at which its last request was accepted (R425) -/
  seen : Nat
  /-- the 32-byte session key, as a number -/
  secret : Nat
  deriving DecidableEq, Repr

/-- A nonce of LOGIN_BEGIN: its value, the key it was drawn for, and the device time it was drawn (R423). -/
structure Nonce where
  value : Nat
  role : Role
  key : Nat
  major : Nat
  born : Nat
  deriving DecidableEq, Repr

/-- An audit record before it is made durable (R430); `old` and `new` are bytes 24–39 and 40–55. -/
structure AuditRec where
  role : Role
  action : Nat
  session : Nat
  cls : Nat
  obj : Nat
  old : List Nat
  new : List Nat
  deriving DecidableEq, Repr

/-- A queued record, who waits for it, and the change that takes effect once it is durable (R432); a job switch waits
for nothing. -/
structure AuditItem where
  record : AuditRec
  src : Src
  effect : Option Instr
  isSwitch : Bool
  deriving DecidableEq, Repr

/-- Security beyond its registers. -/
structure SecS where
  sessions : List Session
  /-- outstanding nonces, oldest first (at most 4) -/
  nonces : List Nonce
  /-- login failures of a key: role, key index and device time (R424) -/
  failures : List (Role × Nat × Nat)
  /-- role keys provisioned by the boot image (R402) -/
  keys : List (Role × Nat)
  /-- audit queue, oldest first (R432) -/
  queue : List AuditItem
  /-- durable records, as sequence and 64 bytes, oldest first (R430, R434) -/
  ring : List (Nat × List Nat)
  /-- chain head of the last durable record, 32 bytes (R431) -/
  head : List Nat
  /-- sequences whose head is due and not yet signed (R433) -/
  headsDue : List (Nat × List Nat)
  /-- signed heads stored: sequence, and body with signature block (R433) -/
  signed : List (Nat × List Nat)
  /-- fuse fields MAKER_HASH0–3 (R418) -/
  makerHash : List Nat
  deriving DecidableEq, Repr

/-! ### Jobs -/

/-- An entry of the job table (16_boot_image.md R406): the hamper number, 0xFFFF for an empty entry, and the flags. -/
structure JobEntry where
  hamper : Nat
  flags : Nat
  deriving DecidableEq, Repr

/-- What the leader knows of a follower in the job exchange in progress (12_jobs_and_autonomy.md R309): its UID, the
operation last sent (1 PREPARE, 2 ARM), the node and tag of the request that is out, and the status of its answer. -/
structure Peer where
  uid : Nat
  op : Nat
  node : Nat
  tag : Nat
  out : Bool
  answer : Option Status
  deriving DecidableEq, Repr

/-- The job unit beyond its registers: the hampers of CURRENT and NEXT (without the data of their references), the
`JOB_LOAD` that waits for its reply, the node and tag of a PREPARE that waits for its answer, the exchange with the
followers, the job table and the follower UIDs of the boot image. -/
structure JobS where
  cur : List Nat
  next : List Nat
  waiting : Option Src
  prepare : Option (Nat × Nat)
  peers : List Peer
  table : List JobEntry
  followers : List Nat
  deriving DecidableEq, Repr

/-! ### Fabric -/

/-- A fabric packet held at a port (15_botex_fabric.md R366): class, bytes, the port whose receive buffer holds it, whether it
ends poisoned, and whether this node is its source. -/
structure FabPkt where
  cls : Nat
  data : List Nat
  inPort : Option Nat
  poison : Bool
  own : Bool
  deriving DecidableEq, Repr

/-- A packet in the replay buffer (R368): link sequence, packet, whether it has been resent, and whether a resend is
queued. -/
structure FabSent where
  lseq : Nat
  pkt : FabPkt
  resent : Bool
  due : Bool
  deriving DecidableEq, Repr

/-- A port's output queue and replay buffer, oldest first, and its packets of the last 100 µs (R370): running time, class and
bytes. -/
structure FabPort where
  queue : List FabPkt
  sent : List FabSent
  share : List (Nat × Nat × Nat)
  deriving DecidableEq, Repr

/-- The last waymark of a port's neighbour (R373), the time it came, and the time its root epoch last advanced. -/
structure Waymark where
  uid : Nat
  port : Nat
  node : Nat
  pin : Nat
  dist : Nat
  root : Nat
  epoch : Nat
  seen : Nat
  advanced : Nat
  deriving DecidableEq, Repr

/-- A link-state record (R375): origin, sequence, body and the time it came. -/
structure LsRecord where
  origin : Nat
  seq : Nat
  body : List Nat
  seen : Nat
  deriving DecidableEq, Repr

/-- An entry of the ID table (R376): UID, ID (253 for none) and flags. -/
structure IdEntry where
  uid : Nat
  id : Nat
  flags : Nat
  deriving DecidableEq, Repr

/-- An outstanding control request of this node (R378). -/
structure FabReq where
  tag : Nat
  node : Nat
  service : Nat
  born : Nat
  deriving DecidableEq, Repr

/-- A control request that has completed, for the firmware (R378): status and reply data. -/
structure FabAnswer where
  req : FabReq
  status : Status
  data : List Nat
  deriving DecidableEq, Repr

/-- An open bulk transfer (R383): source, transfer ID, the packet indexes received, and bytes. -/
structure Bulk where
  node : Nat
  id : Nat
  idx : List Nat
  bytes : Nat
  deriving DecidableEq, Repr

/-- The fabric beyond its registers. `memory` is the root's memory of nodes that left: UID, ID and time. -/
structure FabS where
  ports : List (Nat × FabPort)
  marks : List (Nat × Waymark)
  db : List LsRecord
  table : List IdEntry
  memory : List (Nat × Nat × Nat)
  reqs : List FabReq
  answers : List FabAnswer
  bulk : List Bulk
  late : List (List Nat)
  admitted : List Nat
  deriving DecidableEq, Repr

/-! ### Boot -/

/-- A slot of the NOR (R395): the bytes of its image from the slot's start, and its status word. -/
structure BootSlot where
  image : List Nat
  status : Nat
  deriving DecidableEq, Repr

/-- Boot beyond its registers: the two slots, the size of a slot, the record digests of the image applied at reset by type, the firmware code in the code SRAM, and the update in progress: who
asked, and the staged image. -/
structure BootS where
  slots : List (Nat × BootSlot)
  size : Nat
  applied : List (Nat × List Nat)
  code : List Nat
  updater : Option Src
  staged : List Nat
  /-- records of the image applied at reset, by type, without the firmware's -/
  records : List (Nat × List Nat)
  deriving DecidableEq, Repr

/-! ### Self-test -/

/-- Self-test beyond its registers (19_self_test.md R466, R467, R471, R477): the last result record of a unit (32 bytes), the
fail log newest first (16 bytes an entry), the values of the analogue items by the word of `BIST_ABIST_SEL`, spare rows and
columns in use by 65,536 × unit + macro, and the failing bits of the silicon as last found, repaired or not. -/
structure BistS where
  records : List (Nat × List Nat)
  log : List (List Nat)
  values : List (Nat × Nat)
  spares : List (Nat × (Nat × Nat))
  faults : List BadBit
  deriving DecidableEq, Repr

/-! ### The machine -/

/-- The state of the device. -/
structure State where
  /-- register fields and internal scalars: field id and instance, and the value where it is not the reset value -/
  cells : List ((Nat × Nat) × Nat)
  /-- the addressed memories (context store, layout and comparison banks, LPDDR5X), in canonical form -/
  mem : List Host.Cell
  /-- 64-bit words of LPDDR5X that hold a double-bit error, by address / 8 (14_memory_subsystem.md R352), rising -/
  bad : List Nat
  /-- the event queue (R17), oldest first -/
  evq : List Ev
  lane : LaneS
  /-- frames in flight, in the order they opened -/
  frames : List Frame
  ing : IngS
  syn : SynS
  pipe : PipeS
  /-- open blanket frames, oldest first (R189) -/
  blankets : List BFrame
  ref : RefS
  /-- open products, oldest first -/
  products : List Product
  egr : EgrS
  brg : BrgS
  /-- memory transactions waiting, oldest first -/
  memq : List MemReq
  sto : StoS
  job : JobS
  fab : FabS
  boot : BootS
  bist : BistS
  mgt : MgtS
  sec : SecS
  /-- the model's own: what the device has sent, oldest first -/
  out : List Out
  /-- the model's own: how many free values have been drawn -/
  fresh : Nat
  /-- the queue of waiting commands, first in first out -/
  pending : List Instr
  deriving DecidableEq, Repr

/-- Why the machine stops with a fault. No command of this block does: the manual gives every command an effect or a
status. The one constructor is kept so that the type is not empty. -/
inductive Fault where
  /-- raised by nothing; safe -/
  | none
  deriving DecidableEq, Repr

/-- Why a command has no meaning. -/
inductive Refusal where
  /-- the command has no arm yet; safe -/
  | notModelled (mnemonic : String)
  deriving DecidableEq, Repr

/-- The device right after device reset: every cell at its reset value, memory and queues empty. One cell differs from
the reset value of its field in the other instances: `BRG_WIN_CFG.EN` of window 0 (R284), bit 0 of the register at
0x00_0044_0008. -/
def State.reset : State where
  cells := [((32 * 0x440008, 0), 1)]
  mem := []
  bad := []
  evq := []
  lane := ⟨[], [], []⟩
  frames := []
  ing := ⟨[], []⟩
  syn := ⟨[], []⟩
  pipe := ⟨[], [], [], [], [], [], [], [], [], [], []⟩
  blankets := []
  ref := ⟨[], [], [], []⟩
  products := []
  egr := ⟨[], [], [], [], [], [], [], [], [], [], [], [], [], []⟩
  brg := ⟨[], [], [], [], []⟩
  memq := []
  sto := ⟨[], [], [], [], [], [], []⟩
  job := ⟨[], [], none, none, [], [], []⟩
  fab := ⟨[], [], [], [], [], [], [], [], [], []⟩
  boot := ⟨[], 0, [], [], none, [], []⟩
  bist := ⟨[], [], [], [], []⟩
  mgt := ⟨[], [], [], []⟩
  sec := ⟨[], [], [], [], [], [], List.replicate 32 0, [], [], [0, 0, 0, 0]⟩
  out := []
  fresh := 0
  pending := []

end Sys2Proof.Machine
end

