-- ==== Sys2Proof/Machine/Ops.lean ====
section
/-! DEFINITION. The shared operations: tables, cells, memory bytes, outputs, free values, counters, sticky bits and the
event queue. -/

namespace Sys2Proof.Machine

/-- What a meaning answers. -/
abbrev Res := Host.Outcome State Fault Refusal

/-! ### Tables: association lists with rising keys -/

/-- The value at key `k`, or `d` where the table lists none. -/
def tabGet {α : Type} (t : List (Nat × α)) (k : Nat) (d : α) : α :=
  match t with
  | [] => d
  | (k', v) :: r => if k' = k then v else tabGet r k d

/-- Enter `v` at key `k`, before the first larger key. -/
def tabInsert {α : Type} (t : List (Nat × α)) (k : Nat) (v : α) : List (Nat × α) :=
  match t with
  | [] => [(k, v)]
  | (k', v') :: r => if k < k' then (k, v) :: (k', v') :: r else (k', v') :: tabInsert r k v

/-- Remove key `k`. -/
def tabErase {α : Type} (t : List (Nat × α)) (k : Nat) : List (Nat × α) :=
  t.filter fun e => decide (e.1 ≠ k)

/-- The table with `v` at key `k`. -/
def tabPut {α : Type} (t : List (Nat × α)) (k : Nat) (v : α) : List (Nat × α) :=
  tabInsert (tabErase t k) k v

/-! ### Cells -/

/-- Order of cells: by field, then by instance. -/
def cellLt (a b : Nat × Nat) : Bool := a.1 < b.1 || (a.1 == b.1 && a.2 < b.2)

/-- The value of a cell, or `d` where it is not listed. -/
def cellGet (t : List ((Nat × Nat) × Nat)) (k : Nat × Nat) (d : Nat) : Nat :=
  match t with
  | [] => d
  | (k', v) :: r => if k' = k then v else cellGet r k d

/-- Enter a cell before the first larger one. -/
def cellInsert (t : List ((Nat × Nat) × Nat)) (k : Nat × Nat) (v : Nat) : List ((Nat × Nat) × Nat) :=
  match t with
  | [] => [(k, v)]
  | (k', v') :: r => if cellLt k k' then (k, v) :: (k', v') :: r else (k', v') :: cellInsert r k v

/-- The cells with `v` at `k`; a value equal to the reset value `d` is not listed. -/
def cellPut (t : List ((Nat × Nat) × Nat)) (k : Nat × Nat) (d v : Nat) : List ((Nat × Nat) × Nat) :=
  let t' := t.filter fun e => decide (e.1 ≠ k)
  if v = d then t' else cellInsert t' k v

/-- The value of field `f` in instance `i`. -/
def State.get (s : State) (f : Fld) (i : Nat := 0) : Nat := cellGet s.cells (f.id, i) f.reset

/-- Field `f` of instance `i` takes the low `f.width` bits of `v`. -/
def State.set (s : State) (f : Fld) (i v : Nat) : State :=
  { s with cells := cellPut s.cells (f.id, i) f.reset (v % 2 ^ f.width) }

/-- A one-bit field as a truth value. -/
def State.on (s : State) (f : Fld) (i : Nat := 0) : Bool := s.get f i != 0

/-- A field takes its reset value (a counter clears, R515). -/
def State.clear (s : State) (f : Fld) (i : Nat := 0) : State := s.set f i 0

/-- Add to a saturating counter (21_register_map.md R515). -/
def State.add (s : State) (f : Fld) (i n : Nat) : State := s.set f i (min (s.get f i + n) (2 ^ f.width - 1))

/-- Add one to a saturating counter. -/
def State.inc (s : State) (f : Fld) (i : Nat := 0) : State := s.add f i 1

/-- Add to a modular counter. -/
def State.bump (s : State) (f : Fld) (i n : Nat) : State := s.set f i (s.get f i + n)

/-- Set bit `k` of a field. -/
def State.setBit (s : State) (f : Fld) (i k : Nat) : State := s.set f i (s.get f i ||| 2 ^ k)

/-- Clear bit `k` of a field. -/
def State.clearBit (s : State) (f : Fld) (i k : Nat) : State :=
  s.set f i (if (s.get f i).testBit k then s.get f i - 2 ^ k else s.get f i)

/-- Bit `k` of a field. -/
def State.bit (s : State) (f : Fld) (i k : Nat) : Bool := (s.get f i).testBit k

/-! ### Numbers -/

/-- `v` of `w` bits read as two's complement. -/
def toSigned (w v : Nat) : Int :=
  if v % 2 ^ w < 2 ^ (w - 1) then ((v % 2 ^ w : Nat) : Int) else ((v % 2 ^ w : Nat) : Int) - ((2 ^ w : Nat) : Int)

/-- The `w` low bits of an integer as a natural number. -/
def ofSigned (w : Nat) (x : Int) : Nat := (x % ((2 ^ w : Nat) : Int)).toNat

/-- `a / b` rounded up. -/
def ceilDiv (a b : Nat) : Nat := (a + b - 1) / b

/-- Bits `lo` to `lo + len - 1`. -/
def bits (v lo len : Nat) : Nat := v / 2 ^ lo % 2 ^ len

/-- Little-endian number of a list of bytes. -/
def leNat : List Nat → Nat
  | [] => 0
  | b :: r => b % 256 + 256 * leNat r

/-- `n` little-endian bytes of a number. -/
def leBytes : Nat → Nat → List Nat
  | 0, _ => []
  | n + 1, v => v % 256 :: leBytes n (v / 256)

/-- Bytes `i` to `i + n - 1` of a list as a little-endian number; bytes beyond its end read 0. -/
def leAt (l : List Nat) (i n : Nat) : Nat := leNat ((l.drop i).take n)

/-- How many of the low `n` bits are set. -/
def bitsSet (v : Nat) : Nat → Nat
  | 0 => 0
  | n + 1 => (if v.testBit n then 1 else 0) + bitsSet v n

/-- Enter a value in a rising list. -/
def sortIn (v : Nat) : List Nat → List Nat
  | [] => [v]
  | w :: r => if v ≤ w then v :: w :: r else w :: sortIn v r

/-- Bit-serial CRC step for the polynomial 0x1021, most significant bit first. -/
def crc16Bit (c : Nat) (b : Bool) : Nat :=
  let x := if (c.testBit 15) != b then 0x1021 else 0
  (c * 2 % 65536) ^^^ x

/-- One byte of the same CRC. -/
def crc16Byte (c b : Nat) : Nat :=
  [7, 6, 5, 4, 3, 2, 1, 0].foldl (fun c k => crc16Bit c (b.testBit k)) c

/-- CRC-16 with polynomial 0x1021, initial value 0xFFFF and no reflection (R38, R60). -/
def crc16 (l : List Nat) : Nat := l.foldl crc16Byte 0xFFFF

/-! ### Memory -/

/-- The byte at address `a`; a byte nothing has written reads 0. -/
def memGet (m : List Host.Cell) (a : Nat) : BitVec 8 :=
  match m with
  | [] => 0
  | (a', b) :: r => if a' = a then b else memGet r a

/-- Enter a byte before the first larger address. -/
def memInsert (m : List Host.Cell) (a : Nat) (b : BitVec 8) : List Host.Cell :=
  match m with
  | [] => [(a, b)]
  | (a', b') :: r => if a < a' then (a, b) :: (a', b') :: r else (a', b') :: memInsert r a b

/-- The memory with byte `b` at address `a`; a byte equal to what an unlisted address reads as is not listed. -/
def memPut (m : List Host.Cell) (a : Nat) (b : BitVec 8) : List Host.Cell :=
  let m' := m.filter fun e => decide (e.1 ≠ a)
  if b = 0 then m' else memInsert m' a b

/-- The canonical form of a memory: addresses strictly rising and no listed byte 0. -/
def Memory.wf : List Host.Cell → Bool
  | [] => true
  | [(_, b)] => b != 0
  | (a, b) :: (a', b') :: r => b != 0 && a < a' && Memory.wf ((a', b') :: r)

/-- One byte of memory as a number. -/
def State.memByte (s : State) (a : Nat) : Nat := (memGet s.mem a).toNat

/-- Store one byte. -/
def State.putByte (s : State) (a v : Nat) : State := { s with mem := memPut s.mem a (BitVec.ofNat 8 v) }

/-- Store bytes at rising addresses. -/
def State.putBytes (s : State) (a : Nat) (l : List Nat) : State :=
  match l with
  | [] => s
  | b :: r => (s.putByte a b).putBytes (a + 1) r

/-- `n` bytes from rising addresses. -/
def State.memBytes (s : State) (a : Nat) : Nat → List Nat
  | 0 => []
  | n + 1 => s.memByte a :: s.memBytes (a + 1) n

/-- `n` bytes of memory as a little-endian number. -/
def State.memLe (s : State) (a n : Nat) : Nat := leNat (s.memBytes a n)

/-! ### Outputs and free values -/

/-- Record something the device sends. -/
def State.emit (s : State) (o : Out) : State := { s with out := s.out ++ [o] }

/-- The next free value. -/
def State.free (s : State) : Nat := Config.freeNat s.fresh

/-- Move on to the next free value. -/
def State.drawn (s : State) : State := { s with fresh := s.fresh + 1 }

/-! ### The event queue and sticky bits -/

/-- The device time in ns (04_sync_and_tagging.md R108). -/
def State.now (s : State) : Nat := s.get .SYN_TB_TIME

/-- The time in ns that the device has run, by its own clock: no step of the timebase moves it. Durations are counted
in it. -/
def State.elapsed (s : State) : Nat := s.get .SYN_H_CLK * 5 / 6

/-- Payload on a lane ends the idle of its receiver (02_lane_complex.md R49). -/
def State.lanePayload (s : State) (n : Nat) : State := (s.set .LANE_H_IDLE n 0).set .LANE_IDLE_IDLE_MS n 0

/-- The causes of a notification that are true and enabled (18_i3c_management_port.md R452): bit 0 `EVQ`, bit 1 `CMD`, bit 2
`FLAGS`. -/
def State.notifyCauses (s : State) : Nat :=
  let evq := if s.evq.isEmpty then 0 else 1
  let cmd := if s.get .I3C_H_CMD ≥ 2 then 2 else 0
  let flags := if s.get .MGT_I3C_EVENTS_EV = 0 then 0 else 4
  (evq + cmd + flags) &&& s.get .I3C_H_NOTIFY

/-- `IRQ_N` is low: an enabled cause is true, boot has failed, or a thermal trip holds the device; released in SLEEP
(R452, R459, 20_power_sleep_reset.md R501). -/
def State.irqLow (s : State) : Bool :=
  (s.notifyCauses != 0 && s.get .PWR_H_STATE != 2) || s.get .BOOT_STATUS_STATE == 2 || s.on .PWR_H_HELD

/-- `IRQ_N` follows the causes; in I3C mode with interrupts enabled a cause that has become true raises one in-band
interrupt (R452). -/
def State.notify (s : State) : State :=
  let now := s.notifyCauses
  let fresh := now &&& (7 ^^^ s.get .I3C_H_CAUSE)
  let irq := s.irqLow
  let s := s.set .I3C_H_CAUSE 0 now
  let s := if s.on .MGT_I3C_STATUS_DA_VALID && s.on .MGT_I3C_STATUS_IBI_EN then
      [0, 1, 2].foldl (fun s k => if fresh.testBit k then
        (s.setBit .I3C_H_IBI 0 k).emit (.ibi (0xA1 + k)) else s) s
    else s
  let s := s.set .I3C_H_IBI 0 (s.get .I3C_H_IBI &&& now)
  if irq != s.on .MGT_H_IRQ then (s.set .MGT_H_IRQ 0 (if irq then 1 else 0)).emit (.pin "IRQ_N" 0 (if irq then 0 else 1))
  else s

/-- An event enters the queue with the next sequence number, or is lost when the queue is full
(01_frame_journey.md R17, R18). -/
def State.event (s : State) (block inst code arg : Nat) : State :=
  let seq := s.get .MGT_EVQ_NEXT_SEQ
  let s := s.bump .MGT_EVQ_NEXT_SEQ 0 1
  if s.evq.length < Config.evqDepth then
    ({ s with evq := s.evq ++ [⟨s.now, block, inst, code, seq, arg⟩] } : State).notify
  else (s.inc .MGT_EVQ_LOST).set .MGT_EVQ_STATUS_OVF 0 1

/-- A byte field of an event argument: value `v` at argument byte `b` (16 to 31). -/
def argAt (b v : Nat) : Nat := v * 256 ^ (b - 16)

/-- An occurrence of sticky bit `k` of field `ev`: the bit sets, and an event is raised when it was 0 and bit `ek` of
the enable field is 1 (R57, 21_register_map.md R514). -/
def State.sticky (s : State) (ev : Fld) (i k : Nat) (en : Fld) (ei ek block inst code arg : Nat) : State :=
  let was := s.bit ev i k
  let s := s.setBit ev i k
  if !was && s.bit en ei ek then s.event block inst code arg else s

end Sys2Proof.Machine
end

