-- ==== Sys2Proof/Machine/Flags.lean ====
section
/-! DEFINITION. Flag computations: the flags of the frame tag (R115) and the sticky bits that mirror them. -/

namespace Sys2Proof.Machine

/-- Set bit `k` of a tag's flags; a flag once set is never cleared (R115). -/
def Tag.flag (t : Tag) (k : Nat) : Tag := { t with flags := t.flags ||| 2 ^ k }

/-- Set a flag of a frame. -/
def Frame.flag (f : Frame) (k : Nat) : Frame := { f with tag := f.tag.flag k }

/-- The frame of source `c` that is open. -/
def State.openFrame (s : State) (c : Nat) : Option Frame := s.frames.find? fun f => f.ch == c && !f.closed

/-- Change every frame that meets a condition. -/
def State.mapFrames (s : State) (p : Frame → Bool) (g : Frame → Frame) : State :=
  { s with frames := s.frames.map fun f => if p f then g f else f }

/-- Change the open frame of source `c`. -/
def State.onOpen (s : State) (c : Nat) (g : Frame → Frame) : State :=
  s.mapFrames (fun f => f.ch == c && !f.closed) g

/-- Sticky bit `k` of `ING_CH_FLAGS` (03_camera_ingress.md R92), with the frame sequence and a count of lines. -/
def State.chFlag (s : State) (c k seq n : Nat) : State :=
  if c < 128 then
    s.sticky .ING_CH_FLAGS_EV c k .ING_EVENT_EN_CH 0 k 0x0014 c (0x0011 + k) (argAt 16 seq + argAt 20 (n % 65536))
  else s

/-- The open frame of channel `c` receives tag flag `k` (0 to 8), which sets the channel's sticky bit (R92). -/
def State.flagOpen (s : State) (c k n : Nat) : State :=
  match s.openFrame c with
  | some f => (s.onOpen c fun f => f.flag k).chFlag c k f.tag.seq n
  | none => s

/-- Sticky bit `k` of `ING_QUEUE_EVENTS`; bits 0 to 4 have an event code (R92). -/
def State.queueEvent (s : State) (n k lines : Nat) : State :=
  if k < 5 then
    s.sticky .ING_QUEUE_EVENTS_EV n k .ING_EVENT_EN_LANE 0 k 0x0014 n (0x0001 + k)
      (argAt 16 (s.get .ING_QUEUE_LEVEL_LEVEL n) + argAt 20 (lines % 65536))
  else s.setBit .ING_QUEUE_EVENTS_EV n k

end Sys2Proof.Machine
end

