-- ==== Sys2Proof/Machine/Dram.lean ====
section
/-! DEFINITION. What the blocks of the device read and write in LPDDR5X (01_frame_journey.md R12,
14_memory_subsystem.md R349 to R352): channels, the monitors, words with an uncorrectable error, and stretches of a region
given to what is stored in it. -/

namespace Sys2Proof.Machine

/-- The first internal address of LPDDR5X (R348). -/
def memBase : Nat := 0x1000000000

/-- An address of LPDDR5X less its base 2^36 (R349); the window lies in one block of 2^36 bytes, so these are its low bits. -/
def memAddr (addr : Nat) : Nat := addr % 2 ^ 36

/-- The channel a memory address maps to (R349). -/
def memChannel (addr : Nat) : Nat :=
  let a := memAddr addr
  bits a 8 4 ^^^ bits a 12 4 ^^^ bits a 20 4

/-- The offset within that channel (R349). -/
def memOffset (addr : Nat) : Nat :=
  let a := memAddr addr
  a / 2 ^ 12 * 256 + a % 256

/-- Sticky bit `k` of `MEM_EVENTS` with its event (R363). -/
def State.memEvent (s : State) (k inst addr level : Nat) : State :=
  s.sticky .MEM_EVENTS_EV 0 k .MEM_EVENT_EN 0 k 0x0050 inst (k + 1) (argAt 16 addr + argAt 21 level)

/-! ### Monitors -/

/-- Which monitor counts a transaction: reference slot, frame store, retry buffer, spill region, or all else (`MEM_MON`). -/
def State.memConsumer (s : State) (addr : Nat) : Nat :=
  let within (base size : Nat) : Bool := base ≤ addr && addr < base + size * 2 ^ 20
  if (List.range 2).any fun i => within (s.get .REF_SLOT_BASE i) (s.get .REF_SLOT_SIZE_SIZE_MIB i) then 0
  else if within (s.get .MEM_FS_BASE) (s.get .MEM_FS_SIZE_SIZE_MIB) then 1
  else if within (s.get .EGR_RETRY_BASE) (s.get .EGR_RETRY_SIZE_SIZE_MIB) then 2
  else if within (s.get .PIPE_SPILL_BASE) (s.get .PIPE_SPILL_SIZE_SIZE_MIB) then 3
  else 4

/-- The registers of the monitors, instance by instance. -/
def memMonReg (c : Nat) : Fld :=
  match c with
  | 0 => .MEM_MON_REF | 1 => .MEM_MON_FS | 2 => .MEM_MON_EGR | 3 => .MEM_MON_SPILL | _ => .MEM_MON_OTHER

/-- The monitors show the last full millisecond. -/
def State.memMonRoll (s : State) : State :=
  let t := s.elapsed / 1000000
  let was := s.get .MEM_H_MONT
  if t = was then s
  else
    let s := (List.range 5).foldl (fun s c =>
      let v := if t = was + 1 then s.get .MEM_H_MONACC c / 1000 else 0
      (s.set (memMonReg c) 0 v).set .MEM_H_MONACC c 0) s
    s.set .MEM_H_MONT 0 t

/-- Bytes moved are counted for their consumer. -/
def State.memCount (s : State) (addr len : Nat) : State := s.memMonRoll.add .MEM_H_MONACC (s.memConsumer addr) len

/-! ### Reads and writes of the blocks -/

/-- Usable capacity in bytes (R348). -/
def State.memUsable (s : State) : Nat := s.get .MEM_STATUS_USABLE_GIB * 2 ^ 30

/-- A write into the management region that is denied is counted (R354). -/
def State.memDenied (s : State) (addr len : Nat) (write : Bool) (st : Status) : State :=
  if st == .rights && write && decide (memBase ≤ addr) && decide (addr < memBase + 2 ^ 30) && decide (0 < len) then
    (s.inc .MEM_CNT_DENIED).memEvent 5 0xFFFF addr 0
  else s

/-- The controllers take a block's transaction on `n` bytes at `a` (R348, R359, R361): inside the usable capacity, not asleep, in
reset, fenced or under test. -/
def State.memOpen (s : State) (a n : Nat) : Bool :=
  memBase ≤ a && a + n ≤ memBase + s.memUsable && !s.on .PWR_H_RESETTING 16 && s.get .PWR_H_STATE < 2 &&
    !s.on .MEM_CTRL_FENCE && s.get .BIST_H_UNIT != 16

/-- Bytes are written; a 64-bit word they cover whole has no error any more (R351, R352). -/
def State.dramWrite (s : State) (a : Nat) (l : List Nat) : State :=
  let s := (s.memCount a l.length).putBytes a l
  { s with bad := s.bad.filter fun w => !(decide (a ≤ 8 * w) && decide (8 * w + 8 ≤ a + l.length)) }

/-- A block other than the management processor writes (R354): what the controllers refuse is not stored, and a write into the
management region is denied and counted. -/
def State.blockWrite (s : State) (a : Nat) (l : List Nat) : State :=
  if !s.memOpen a l.length then s
  else if a < memBase + 2 ^ 30 then s.memDenied a l.length true .rights
  else s.dramWrite a l

/-- A read meets a double-bit error (R352): counted, its address recorded, `UE`. -/
def State.readBad (s : State) (a : Nat) : State :=
  ((s.inc .MEM_CNT_UE).set .MEM_ERR_ADDR 0 a).memEvent 1 (memChannel a) a 0

/-- Words with a double-bit error that a read of `n` bytes at `a` meets. -/
def State.badIn (s : State) (a n : Nat) : List Nat :=
  s.bad.filter fun w => decide (a < 8 * w + 8) && decide (8 * w < a + n)

/-- A block reads `n` bytes (R352): each granule with a double-bit error counts, and the answer then is none, as it is where
the controllers refuse the read. -/
def State.dramRead (s : State) (a n : Nat) : State × Option (List Nat) :=
  if !s.memOpen a n then (s, none) else
  let s := s.memCount a n
  match ((s.badIn a n).map fun w => w / 32).eraseDups with
  | [] => (s, some (s.memBytes a n))
  | gs => (gs.foldl (fun s g => s.readBad (max a (256 * g))) s, none)

/-! ### Stretches of a region -/

/-- Free stretches of `[lo, hi)` beside the used ones, which rise (first address and length). -/
def gaps (lo hi : Nat) : List (Nat × Nat) → List (Nat × Nat)
  | [] => if lo < hi then [(lo, hi - lo)] else []
  | (a, n) :: r =>
    let tail := gaps (max lo (a + n)) hi r
    if lo < a && lo < hi then (lo, min a hi - lo) :: tail else tail

/-- The first `n` bytes of stretches. -/
def takeExt (n : Nat) : List (Nat × Nat) → List (Nat × Nat)
  | [] => []
  | (a, m) :: r => if n = 0 then [] else (a, min n m) :: takeExt (n - min n m) r

/-- Stretches without their first `n` bytes. -/
def dropExt (n : Nat) : List (Nat × Nat) → List (Nat × Nat)
  | [] => []
  | (a, m) :: r => if m ≤ n then dropExt (n - m) r else (a + n, m - n) :: r

/-- `n` bytes from byte `off` on of stretches. -/
def subExt (off n : Nat) (ext : List (Nat × Nat)) : List (Nat × Nat) := takeExt n (dropExt off ext)

/-- Bytes of stretches. -/
def extSize (ext : List (Nat × Nat)) : Nat := ext.foldl (fun a e => a + e.2) 0

/-- `n` bytes of `[lo, hi)` that nothing uses, the lowest first. DESIGN CHOICE: the manual does not say where in a region a
stored item lies. -/
def placeExt (lo hi n : Nat) (used : List (Nat × Nat)) : List (Nat × Nat) :=
  takeExt n (gaps lo hi ((used.filter fun e => decide (0 < e.2)).foldl (fun t e => tabInsert t e.1 e.2) []))

/-- Bytes are written to stretches, in order. -/
def State.extWrite (s : State) (l : List Nat) : List (Nat × Nat) → State
  | [] => s
  | (a, m) :: r => (s.blockWrite a (l.take m)).extWrite (l.drop m) r

/-- The bytes of stretches are read, in order; none where a read meets an error. -/
def State.extRead (s : State) : List (Nat × Nat) → State × Option (List Nat)
  | [] => (s, some [])
  | (a, m) :: r =>
    let q := s.dramRead a m
    let t := q.1.extRead r
    (t.1, match q.2, t.2 with | some x, some y => some (x ++ y) | _, _ => none)

end Sys2Proof.Machine
end

