-- ==== Sys2Proof/Machine/BrgOps.lean ====
section
/-! DEFINITION. Shared operations of the host window bridge (11_host_window_bridge.md): messages on control queue pairs,
held read-ahead, the pieces of a request and its reply, and what becomes of requests when a queue pair or a session
goes. -/

namespace Sys2Proof.Machine

/-- Code of a status in replies and registers (18_i3c_management_port.md R448). -/
def statusCode : Status → Nat
  | .ok => 0 | .busy => 1 | .state => 2 | .rights => 3 | .range => 4 | .selftest => 5 | .targetReset => 6 | .timeout => 7
  | .farError => 8 | .integrity => 9 | .version => 10 | .nospace => 11

/-- The session key of an open session. -/
def State.secretOf (s : State) (n : Nat) : Option Nat := (s.sec.sessions.find? fun x => x.num == n).map (·.secret)

/-- The HMAC of a message under a session key (11_host_window_bridge.md R280), 32 bytes. -/
def macOf (secret : Nat) (m : List Nat) : List Nat := (List.range 32).map fun i => ((Config.hmac secret m).getD i 0) % 256

/-- A message with its HMAC under a session's key (11_host_window_bridge.md R280); zero on session 0 (R422). -/
def State.sealMsg (s : State) (session : Nat) (m : List Nat) : List Nat :=
  m ++ match s.secretOf session with | some k => macOf k m | none => List.replicate 32 0

/-! ### Control queue pairs -/

/-- A message to the host on a control queue pair (R263). -/
def State.sendCtl (s : State) (q : Nat) (data : List Nat) : State :=
  { s with egr := { s.egr with ctl := s.egr.ctl ++ [⟨q, false, data, false⟩] } }

/-- An acknowledgement on a control queue pair. -/
def State.sendAck (s : State) (q : Nat) : State :=
  { s with egr := { s.egr with ctl := s.egr.ctl ++ [⟨q, true, [], false⟩] } }

/-! ### Events and read-ahead -/

/-- Sticky bit `bit` of `BRG_EVENTS` with its event (R296): queue pair, session, tag and status. -/
def State.brgEvent (s : State) (bit qp session tag st : Nat) : State :=
  s.sticky .BRG_EVENTS_EV 0 bit .BRG_EVENT_EN 0 bit 0x0044 qp (bit + 1) (argAt 16 session + argAt 18 tag + argAt 22 st)

/-- Words of held bytes. -/
def wordsOf (l : List (Nat × Nat)) : Nat := ((l.map fun b => b.1 / 4).eraseDups).length

/-- Held bytes are discarded without having been returned (R290). -/
def State.countDiscard (s : State) (q session : Nat) (l : List (Nat × Nat)) : State :=
  if l.isEmpty then s else (s.add .BRG_PREFETCH_DISCARD 0 (wordsOf l)).brgEvent 4 q session 0 0

/-- The read-ahead of a queue pair is discarded (R290). -/
def State.dropAhead (s : State) (q : Nat) : State :=
  match s.brg.ahead.find? fun e => e.1 == q with
  | none => s
  | some (_, r) =>
    ({ s with brg := { s.brg with ahead := tabErase s.brg.ahead q } } : State).countDiscard q r.session r.bytes

/-- The read-ahead of every queue pair that meets a condition is discarded. -/
def State.dropAheadIf (s : State) (p : Nat → ReadAhead → Bool) : State :=
  (s.brg.ahead.filter fun e => p e.1 e.2).foldl (fun s e => s.dropAhead e.1) s

/-! ### Requests and pieces -/

/-- The payload byte index `i` of a data-invariant mapping with element `e` (R288): its own inverse. -/
def swapIndex (e i : Nat) : Nat := e * (i / e) + (e - 1 - i % e)

/-- Payload in internal order, or internal bytes in payload order (R288); element 0 or 1 leaves the order. -/
def swapBytes (e : Nat) (l : List Nat) : List Nat :=
  if e ≤ 1 then l else (List.range l.length).map fun i => l.getD (swapIndex e i) 0

/-- The bytes no piece crosses (R285): one register, a 64-byte granule of the store, a 256-byte granule of memory. -/
def granule (addr : Nat) : Nat := if addr < 0x10000000 then 4 else if addr < 0x20000000 then 64 else 256

/-- Pieces outstanding at once (R286). -/
def maxOutstanding (addr : Nat) : Nat := if addr < 0x10000000 then 1 else 8

/-- A range cut into pieces in ascending address order (R285). -/
def cutPieces : Nat → Nat → Nat → List Piece
  | 0, _, _ => []
  | fuel + 1, addr, len =>
    if len = 0 then []
    else
      let n := min len (granule addr - addr % granule addr)
      ⟨addr, n, none, none, none, []⟩ :: cutPieces fuel (addr + n) (len - n)

/-- A piece has completed with a failure that counts: read-ahead beyond the request that fails is simply not held
(R289). -/
def BrgReq.failed (r : BrgReq) (p : Piece) : Bool :=
  match p.status with
  | none | some .ok => false
  | some _ => decide (p.addr < r.addr + r.len)

/-- The phase in progress writes. -/
def BrgReq.writing (r : BrgReq) : Bool := r.op != 1 && !r.readBack

/-- The bytes read so far, by internal address. -/
def BrgReq.readBytes (r : BrgReq) : List (Nat × Nat) :=
  r.pieces.flatMap fun p => if p.status == some .ok then
    (List.range p.data.length).map fun i => (p.addr + i, p.data.getD i 0) else []

/-- `n` bytes read from the request's start, in payload order. -/
def BrgReq.payload (r : BrgReq) (n : Nat) : List Nat :=
  let l := r.readBytes.filter fun b => r.addr ≤ b.1 && b.1 < r.addr + n
  swapBytes r.elem (l.map (·.2))

/-- A reply that cannot be sent (R293). -/
def State.replyLost (s : State) (r : BrgReq) : State :=
  (s.inc .BRG_CNT_REPLY_LOST).brgEvent 3 r.qp r.session r.tag 0

/-- The 32-byte header of an access reply (R281). -/
def BrgReq.header (r : BrgReq) (st flags done fail : Nat) : List Nat :=
  [0x11, r.ver] ++ leBytes 2 r.session ++ leBytes 8 r.ctr ++ leBytes 4 r.tag ++ [st, flags, 0, 0] ++ leBytes 4 done ++
    leBytes 5 fail ++ [0, 0, 0]

/-- A request is answered on its queue pair, unless its reply can no longer be sent (R281, R293). -/
def State.brgReply (s : State) (r : BrgReq) (st : Status) (flags done fail : Nat) (data : List Nat) : State :=
  if r.lost then s.replyLost r
  else
    let s := if st = .ok then s else s.inc .BRG_CNT_ERR
    s.sendCtl r.qp (s.sealMsg r.session (r.header (statusCode st) flags done fail ++ data))

/-- The reply of a phase that has ended (R287, R288): status, flags and bytes done as the lowest failed piece leaves them;
whole elements only. -/
def State.brgAnswer (s : State) (r : BrgReq) : State :=
  match r.pieces.find? r.failed with
  | none => s.brgReply r .ok 0 r.len 0 (if r.op = 2 then [] else r.payload r.len)
  | some p =>
    let below := p.addr - r.addr
    let done := if r.elem ≤ 1 then below else below / r.elem * r.elem
    let above := r.pieces.any fun x => x.status == some .ok && decide (r.addr + done < x.addr + x.len) &&
      decide (x.addr < r.addr + r.len)
    let unknown := r.writing && p.status == some .timeout
    let inWrite := r.op == 3 && r.writing
    let flags := (if above then 1 else 0) + (if unknown then 2 else 0) + (if inWrite then 8 else 0)
    let st := p.status.getD .ok
    if inWrite then s.brgReply r st flags 0 p.addr []
    else s.brgReply r st flags done p.addr (if r.op = 2 then [] else r.payload done)

/-- After a read, the fetched bytes beyond the last one returned are held (R289). -/
def State.holdAhead (s : State) (r : BrgReq) : State :=
  let l := r.readBytes.filter fun b => r.addr + r.len ≤ b.1
  if r.prefetch && r.op == 1 && !r.lost && !l.isEmpty && (r.pieces.find? r.failed).isNone then
    { s with brg := { s.brg with ahead := tabPut s.brg.ahead r.qp ⟨r.win, r.session, s.elapsed, l⟩ } }
  else s

/-- The first piece not yet issued is issued. -/
def issueOne (t : Nat) : List Piece → List Piece
  | [] => []
  | p :: l => if p.issued.isNone then { p with issued := some t } :: l else p :: issueOne t l

/-- Pieces issued and not complete. -/
def BrgReq.open (r : BrgReq) : Nat := (r.pieces.filter fun p => p.issued.isSome && p.status.isNone).length

/-- Pieces are issued up to the limit while none has failed (R286, R287). -/
def BrgReq.issue (r : BrgReq) (t : Nat) : Nat → BrgReq
  | 0 => r
  | fuel + 1 =>
    if r.pieces.any r.failed || maxOutstanding r.addr ≤ r.open then r
    else ({ r with pieces := issueOne t r.pieces } : BrgReq).issue t fuel

/-- A request that starts, served from read-ahead where the buffer holds all of it (R289), else given a slot. -/
def State.brgBegin (s : State) (r : BrgReq) (k : Nat) : State :=
  let s := s.inc .BRG_CNT_REQ
  let held := (s.brg.ahead.find? fun e => e.1 == r.qp).map (·.2)
  let fits := match held with
    | none => false
    | some h => h.win == r.win && (List.range r.len).all fun i => h.bytes.any fun b => b.1 == r.addr + i
  if r.op = 1 && fits then
    match held with
    | none => s
    | some h =>
      let inR (b : Nat × Nat) : Bool := r.addr ≤ b.1 && b.1 < r.addr + r.len
      let rest := h.bytes.filter fun b => !inR b
      let data := (h.bytes.filter inR).map (·.2)
      let tab := if rest.isEmpty then tabErase s.brg.ahead r.qp else tabPut s.brg.ahead r.qp { h with bytes := rest }
      (({ s with brg := { s.brg with ahead := tab } } : State).inc .BRG_PREFETCH_HIT).brgReply r .ok 4 r.len 0
        (swapBytes r.elem data)
  else
    let s := if r.op = 1 then s.dropAhead r.qp else s
    let r := r.issue s.elapsed r.pieces.length
    { s with brg := { s.brg with slots := tabPut s.brg.slots k r } }

/-- The waiting request that may start: the oldest whose queue pair has nothing executing and no earlier command with
firmware (R286). -/
def State.brgReady (s : State) : Option BrgReq :=
  s.brg.wait.find? fun r => !(s.brg.slots.any fun e => e.2.qp == r.qp) &&
    !(s.brg.cmds.any fun c => c.qp == r.qp && decide (c.order < r.order))

/-- Waiting requests start while one may and a slot is free. -/
def State.brgStartN (s : State) : Nat → State
  | 0 => s
  | fuel + 1 =>
    match s.brgReady, (List.range 16).find? fun k => !(s.brg.slots.any fun e => e.1 == k) with
    | some r, some k =>
      let s : State := { s with brg := { s.brg with wait := s.brg.wait.filter fun x => x.order != r.order } }
      (s.brgBegin r k).brgStartN fuel
    | _, _ => s

/-- Waiting requests start. -/
def State.brgStart (s : State) : State := s.brgStartN s.brg.wait.length

/-- The request of slot `k` goes on after a piece has completed: more pieces, the read-back of op 3, or the reply
(R286, R287). -/
def State.brgAdvance (s : State) (k : Nat) : State :=
  match s.brg.slots.find? fun e => e.1 == k with
  | none => s
  | some (_, r) =>
    let r := r.issue s.elapsed r.pieces.length
    if r.open ≠ 0 then { s with brg := { s.brg with slots := tabPut s.brg.slots k r } }
    else if r.op = 3 && r.writing && !(r.pieces.any r.failed) then
      let r' : BrgReq := { r with readBack := true, pieces := cutPieces r.len r.addr r.len }
      { s with brg := { s.brg with slots := tabPut s.brg.slots k (r'.issue s.elapsed r'.pieces.length) } }
    else
      let s : State := { s with brg := { s.brg with slots := tabErase s.brg.slots k } }
      ((s.brgAnswer r).holdAhead r).brgStart

/-- The piece at `addr` of slot `k` completes. -/
def State.pieceDone (s : State) (k addr : Nat) (st : Status) (data : List Nat) : State :=
  let f (p : Piece) : Piece := if p.addr == addr && p.status.isNone then { p with status := some st, data := data } else p
  let g (r : BrgReq) : BrgReq := { r with pieces := r.pieces.map f }
  let slots := s.brg.slots.map fun e => if e.1 == k then (e.1, g e.2) else e
  ({ s with brg := { s.brg with slots := slots } } : State).brgAdvance k

/-- What the completion of a piece will find when it comes after the piece was given up. -/
def lateOf (k : Nat) (r : BrgReq) (p : Piece) (stale : Bool) : LatePiece :=
  let data := if r.writing && p.made.isNone then some ((r.data.drop (p.addr - r.addr)).take p.len) else none
  ⟨k, p.addr, p.len, if r.gone then 0xFFFF else r.qp, r.session, r.tag, data, stale⟩

/-- Requests that meet a condition lose their way back (R293): executing ones run on without a reply, waiting ones are
discarded unexecuted. -/
def State.loseRequests (s : State) (p : BrgReq → Bool) : State :=
  let gone := s.brg.wait.filter p
  let slots := s.brg.slots.map fun e => if p e.2 then (e.1, { e.2 with lost := true }) else e
  gone.foldl State.replyLost { s with brg := { s.brg with wait := s.brg.wait.filter fun r => !p r, slots := slots } }

/-- Commands with firmware that meet a condition cannot be answered any more (R293). -/
def State.loseCmds (s : State) (p : HostCmd → Bool) : State :=
  let gone := s.brg.cmds.filter p
  gone.foldl (fun s c => (s.inc .BRG_CNT_REPLY_LOST).brgEvent 3 c.qp c.session c.tag 0)
    { s with brg := { s.brg with cmds := s.brg.cmds.filter fun c => !p c } }

/-- A queue pair leaves RTS (R290, R293). -/
def State.brgQpGone (s : State) (q : Nat) : State :=
  ((s.dropAhead q).loseRequests fun r => r.qp == q).loseCmds fun c => c.qp == q

/-- A queue pair is reset: late completions of its requests name no queue pair any more (R296). -/
def State.brgQpReset (s : State) (q : Nat) : State :=
  { s with brg := { s.brg with
    late := s.brg.late.map fun e => if e.qp = q then { e with qp := 0xFFFF } else e
    slots := s.brg.slots.map fun e => if e.2.qp = q then (e.1, { e.2 with gone := true }) else e } }

/-- A session ends (R290, R293). -/
def State.brgSessionEnd (s : State) (n : Nat) : State :=
  ((s.dropAheadIf fun _ r => r.session == n).loseRequests fun r => r.session == n).loseCmds fun c => c.session == n

end Sys2Proof.Machine
end

