-- ==== Sys2Proof/Machine/Operands.lean ====
section
/-! DEFINITION. Operand forms: who asks (initiator, session, role) and what the role permits
(17_roles_security_audit.md R416, R417), and the way a recorded change goes through the audit queue (R429 to R432). -/

namespace Sys2Proof.Machine

/-- The open session with number `n`. -/
def State.session (s : State) (n : Nat) : Option Session := s.sec.sessions.find? fun x => x.num == n

/-- The role an access carries (R416): the management processor has role device, a session its own role, also for
the rest of a request it had executing when it ended (11_host_window_bridge.md R293), anything else role none. -/
def State.roleOf (s : State) (src : Src) : Role :=
  match src.ini with
  | .mgt => .device
  | .slot k => match s.session src.session, s.brg.slots.find? (fun e => e.1 == k) with
    | some x, _ => x.role
    | none, some (_, r) => if r.session == src.session then r.role else .none
    | none, none => .none
  | _ => match s.session src.session with
    | some x => x.role
    | none => .none

/-- Rank of a role: each higher role may do everything a lower one may, and device passes every check (R416). -/
def roleRank : Role → Nat
  | .none => 0 | .operator => 1 | .installer => 2 | .maker => 3 | .device => 4

/-- The access has at least role `r`. -/
def State.mayAs (s : State) (src : Src) (r : Role) : Bool := roleRank r ≤ roleRank (s.roleOf src)

/-- Code of a role in records (R416). -/
def roleCode : Role → Nat
  | .operator => 0 | .installer => 1 | .maker => 2 | .device => 3 | .none => 0xFF

/-! ### Statuses -/

/-- The 32-byte header of a command reply (R447). -/
def cmdReplyHeader (ver session ctr tag code st len : Nat) : List Nat :=
  [0x21, ver] ++ leBytes 2 session ++ leBytes 8 ctr ++ leBytes 4 tag ++ [code, st] ++ List.replicate 10 0 ++ leBytes 4 len

/-- The data of the reply just given to a source for a command. -/
def State.lastReply (s : State) (src : Src) (cmd : Nat) : List Nat :=
  match s.out.getLast? with
  | some (.reply src' cmd' d) => if src' == src && cmd' == cmd then d else []
  | _ => []

/-- Where the model keeps the command buffer of the management port (R441): above the 40-bit space. -/
def cmdBuf : Nat := 2 ^ 40

/-- The word of `JOB_STATUS`. -/
def State.jobStatusWord (s : State) : Nat :=
  s.get .JOB_STATUS_CUR_STATE + 4 * s.get .JOB_STATUS_DRAINING + 16 * s.get .JOB_STATUS_NEXT_STATE +
    64 * s.get .JOB_STATUS_NEXT_STOP + 256 * s.get .JOB_STATUS_ROLE + 1024 * s.get .JOB_STATUS_SW_MARK

/-- Argument of a port event (R461). -/
def State.portArg (s : State) (cmd : Nat) : Nat :=
  argAt 16 (s.get .I3C_H_PTR) + argAt 17 cmd + argAt 18 (s.get .I3C_H_IADDR)

/-- Sticky bit `k` of the port flags, `MGT_I3C_EVENTS` and page byte 0x0D (R461). -/
def State.portFlag (s : State) (k : Nat) : State :=
  (s.sticky .MGT_I3C_EVENTS_EV 0 k .MGT_I3C_EVENT_EN 0 k 0 0xFFFF (0x21 + k) (s.portArg 0)).notify

/-- An entry of the rejected-command log (R451). -/
def State.rejected (s : State) (session role transport code tag ctr : Nat) : State :=
  let e := leBytes 8 s.now ++ leBytes 2 session ++ [role, transport, code, 0] ++ leBytes 4 tag ++ leBytes 4 (ctr % 2 ^ 32) ++
    leBytes 4 s.jobStatusWord ++ List.replicate 6 0
  let s : State := { s with mgt := { s.mgt with rejected := (e :: s.mgt.rejected).take 64 } }
  let s := s.inc .MGT_REJ_STATUS_TOTAL
  let was := s.on .MGT_REJ_STATUS_REJECTED
  let s := s.set .MGT_REJ_STATUS_REJECTED 0 1
  if !was && s.bit .MGT_I3C_EVENT_EN 0 7 then s.event 0 0xFFFF 0x28 (s.portArg code) else s

/-- A command that came as a message on a control queue pair is answered there (11_host_window_bridge.md R279). -/
def State.hostReply (s : State) (q session cmd : Nat) (st : Status) : State :=
  match s.brg.cmds.find? fun c => c.qp == q && c.session == session && c.code == cmd with
  | none => s
  | some c =>
    let data := s.lastReply ⟨.host q, session⟩ cmd
    let m := cmdReplyHeader c.ver c.session c.ctr c.tag c.code (statusCode st) data.length ++ data
    let msg : CtlMsg := ⟨q, false, s.sealMsg session m, false⟩
    let s : State := { s with
      brg := { s.brg with cmds := s.brg.cmds.filter (· != c) },
      egr := { s.egr with ctl := s.egr.ctl ++ [msg] } }
    let s := s.brgStart
    if st = .state then s.rejected session (roleCode (s.roleOf ⟨.host q, session⟩)) 0 cmd c.tag c.ctr else s

/-- The reply to the command in the buffer is written, and its state is DONE (R447). -/
def State.bufReply (s : State) (session cmd : Nat) (st : Status) (data : List Nat) : State :=
  let tag := s.memLe (cmdBuf + 12) 4
  let ctr := s.memLe (cmdBuf + 4) 8
  let m := s.sealMsg session (cmdReplyHeader (s.memByte (cmdBuf + 1)) session ctr tag cmd (statusCode st) data.length ++ data)
  let s := if st = .state then s.rejected session (roleCode (s.roleOf ⟨.i3c, session⟩)) 1 cmd tag ctr else s
  (((s.putBytes cmdBuf m).set .I3C_H_REPLY 0 m.length).set .I3C_H_CMD 0 2).notify

/-- A command of the I3C port is answered in the command buffer (R447). -/
def State.i3cReply (s : State) (session cmd : Nat) (st : Status) : State :=
  if s.get .I3C_H_CMD = 1 && cmd ≠ 0 && cmd == s.memByte (cmdBuf + 16) then
    s.bufReply session cmd st (s.lastReply ⟨.i3c, session⟩ cmd)
  else s

/-- An access or command completes with a status. -/
def State.answer (s : State) (src : Src) (cmd : Nat) (st : Status) : State :=
  match src.ini with
  | .host q => (s.hostReply q src.session cmd st).emit (.status src cmd st)
  | .i3c => (s.i3cReply src.session cmd st).emit (.status src cmd st)
  | _ => s.emit (.status src cmd st)

/-- A unit of 19_self_test.md R462 (0–7 pipes, 8 ING, 9 SYN, 10 MRG, 11 REF, 12 TSL, 13 EGR, 14 BRG, 15 FAB, 16 MEM,
17 STO, 18 MGT, 19 SEC, 20–31 lane quads, 32 CLK) is in reset, a pipe is power-gated
(20_power_sleep_reset.md R499), or the management complex is away (01_frame_journey.md R10). -/
def State.unitDown (s : State) (u : Nat) : Bool :=
  if u < 8 then s.get .PIPE_H_STATE u == 4 || s.bit .PWR_GATE 0 u
  else s.on .PWR_H_RESETTING u || (u == 18 && s.on .BOOT_H_AWAY)

/-- A unit is under self-test (R464): the field test's unit, or a pipe withdrawn for a rolling test
(05_pipeline_contexts.md R146). -/
def State.inTest (s : State) (u : Nat) : Bool :=
  s.get .BIST_H_UNIT == u || (decide (u < 8) && (s.get .PIPE_H_STATE u == 3 ||
    (s.get .PIPE_ROLL_STATUS_STATE == 1 && s.get .PIPE_ROLL_STATUS_PIPE == u)))

/-- Boot has failed: every access but a read of the `BOOT` block completes with STATE (16_boot_image.md R408). -/
def State.bootFailed (s : State) : Bool := s.get .BOOT_STATUS_STATE == 2

/-- The device cannot be reached: it sleeps, is held in reset, or has no power (20_power_sleep_reset.md R494, R501,
R502). -/
def State.unreachable (s : State) : Bool := s.get .PWR_H_STATE == 2 || s.on .PWR_H_HELD || s.on .PWR_H_OFF

/-- The common checks of an access that changes something of unit `u` (21_register_map.md R508): STATE after a failed boot,
TARGET_RESET, SELFTEST, then RIGHTS below role `r`. -/
def State.gate (s : State) (src : Src) (r : Role) (u : Nat) : Status :=
  if s.bootFailed then .state
  else if s.unreachable || s.unitDown u then .targetReset
  else if s.inTest u then .selftest
  else if s.mayAs src r then .ok else .rights

/-- The checks of a command that management firmware serves (01_frame_journey.md R10, 19_self_test.md R464): STATE after a
failed boot, BUSY while the
management complex is away, TARGET_RESET while unit `u` that would serve it is in reset, SELFTEST while it is under test,
then RIGHTS below role `r`. -/
def State.fwGate (s : State) (src : Src) (r : Role) (u : Nat) : Status :=
  if s.bootFailed then .state
  else if s.unreachable then .targetReset
  else if s.on .BOOT_H_AWAY then .busy
  else if s.unitDown u then .targetReset
  else if s.inTest u then .selftest
  else if s.mayAs src r then .ok else .rights

/-- Settings kept in NAND are not yet reapplied: writes of a session to their registers complete with BUSY
(21_register_map.md R517). -/
def State.settingsBusy (s : State) (src : Src) : Bool := !s.on .BOOT_H_SETTLED && s.roleOf src != .device

/-- First 16 bytes of the SHA-256 of a register word as stored, little-endian (R430). -/
def valueDigest (v : Nat) : List Nat := (Config.sha256 (leBytes 4 v)).take 16

/-- 16 zero bytes: a record without a value. -/
def noValue : List Nat := List.replicate 16 0

/-- A record of this access (R430). -/
def State.auditRec (s : State) (src : Src) (action cls obj : Nat) (old new : List Nat) : AuditRec :=
  ⟨s.roleOf src, action, if src.ini = .mgt then 0 else src.session, cls, obj, old, new⟩

/-- Records in the audit queue that are not switch records (at most 256, R432). -/
def State.auditWaiting (s : State) : Nat := (s.sec.queue.filter fun q => !q.isSwitch).length

/-- Record of a write of `v` to the register at `a`, with the value it replaces left out. -/
def State.writeRec (s : State) (src : Src) (a v : Nat) : AuditRec := s.auditRec src 1 1 a noValue (valueDigest v)

/-- Records the audit ring holds (R434): 1,816 groups of 4,096. -/
def auditCapacity : Nat := 7438336

/-- Records held: from the oldest to the last durable one. -/
def State.auditHeld (s : State) : Nat :=
  if s.get .SEC_AUDIT_OLDEST = 0 then 0 else s.get .SEC_AUDIT_SEQ + 1 - s.get .SEC_AUDIT_OLDEST

/-- The ring is full under the hold policy (R434). -/
def State.ringHeld (s : State) : Bool := s.on .SEC_CFG_AUDIT_POLICY && decide (auditCapacity ≤ s.auditHeld)

/-- No change that needs a record is accepted (R432): the queue is full, the storage is read-only, or the ring is held. -/
def State.auditClosed (s : State) : Bool :=
  decide (256 ≤ s.auditWaiting) || s.on .STO_H_READONLY || s.ringHeld

/-- Address of `REF_SLOT_CTRL` of a slot (08_reference_comparison.md R202). -/
def slotCtrl (sl : Nat) : Nat := 0x34081C + 0x10 * sl

/-- The reply of a command that has begun comes later: a load of NEXT (12_jobs_and_autonomy.md R311), a firmware update
(16_boot_image.md R411), the check of a slot (08_reference_comparison.md R202). -/
def State.deferred (s : State) (src : Src) (cmd : Nat) : Bool :=
  (cmd == 0x11 && s.job.waiting == some src) || (cmd == 0x50 && s.boot.updater == some src) ||
    s.ref.checks.any fun e => e.2 == src && cmd == slotCtrl e.1

/-- A command or access completes with OK after its effect, unless the effect completed it with a status of its own. -/
def State.completed (s : State) (src : Src) (cmd : Nat) (eff : State → State) : State :=
  let t := eff s
  let said := (t.out.drop s.out.length).any fun o => match o with | .status src' cmd' _ => src' == src && cmd' == cmd | _ => false
  if said || t.deferred src cmd then t else t.answer src cmd .ok

/-- A recorded change (R429, R432). Role device makes it at once. From a session it waits in the audit queue, where
the command is kept, and takes effect when its record is durable; it completes with STATE while no record can be
made. -/
def State.recorded (s : State) (src : Src) (cmd : Nat) (i : Instr) (r : AuditRec) (eff : State → State) : State :=
  if s.roleOf src = .device then s.completed src cmd eff
  else if s.auditClosed then (s.inc .SEC_CNT_AUDIT_REFUSED).answer src cmd .state
  else { s with sec := { s.sec with queue := s.sec.queue ++ [⟨r, src, some i, false⟩] } }

/-- A record that no change waits for: a login, a session's end and the like (R429). -/
def State.note (s : State) (src : Src) (r : AuditRec) : State :=
  if s.auditClosed then s.inc .SEC_CNT_AUDIT_REFUSED
  else { s with sec := { s.sec with queue := s.sec.queue ++ [⟨r, src, none, false⟩] } }

end Sys2Proof.Machine
end

