-- ==== Sys2Proof/Machine/NetOps.lean ====
section
/-! DEFINITION. The on-chip network's mechanism behind a block reset (20_power_sleep_reset.md R486 to R489): generations,
open requests that complete with TARGET_RESET, and completions that are dropped as stale. -/

namespace Sys2Proof.Machine

/-- Interface index of R488 of a unit of 19_self_test.md R462. -/
def unitBlock (u : Nat) : Nat :=
  if u < 8 then 8 + u else match u with
  | 8 => 6 | 9 => 7 | 10 => 16 | 11 => 17 | 12 => 18 | 13 => 19 | 14 => 20 | 15 => 21 | 16 => 22 | 17 => 23 | 18 => 0 | _ => 1

/-- Interface index of the block behind an internal address (21_register_map.md R505); 255 where no block of R488 lies
there. -/
def addrBlock (a : Nat) : Nat :=
  if a < 0x60000 then a / 0x10000
  else if a < 0x140000 then 255
  else if a < 0x180000 then 6
  else if a < 0x200000 then 7
  else if a < 0x280000 then 8 + (a - 0x200000) / 0x10000
  else if a < 0x300000 then 255
  else if a < 0x340000 then 16
  else if a < 0x380000 then 17
  else if a < 0x400000 then 18
  else if a < 0x440000 then 19
  else if a < 0x480000 then 20
  else if a < 0x500000 then 21
  else if a < 0x540000 then 22
  else if a < 0x580000 then 23
  else if 0x1000000000 ≤ a && a < 0x2000000000 then 22
  else 255

/-- Sticky bit `k` of `PWR_EVENTS` with its event (R504). -/
def State.pwrEvent (s : State) (k inst src16 secs : Nat) : State :=
  s.sticky .PWR_EVENTS_EV 0 k .PWR_EVENT_EN 0 k 0x0002 inst (k + 1)
    (argAt 16 src16 + argAt 17 (s.get .PWR_THERM_STATUS_MAX) + argAt 18 (secs % 2 ^ 32))

/-- Sticky bit `k` of `SEC_EVENTS` with its event (17_roles_security_audit.md R438). -/
def State.secEvent (s : State) (k session role key : Nat) : State :=
  s.sticky .SEC_EVENTS_EV 0 k .SEC_EVENT_EN 0 k 0x0001 0xFFFF (k + 1)
    (argAt 16 session + argAt 18 role + argAt 19 key + argAt 20 (s.get .SEC_AUDIT_SEQ))

/-- A completion is dropped at the interface of block `b` (R487). -/
def State.staleDrop (s : State) (b : Nat) : State := (s.inc .PWR_CNT_STALE b).pwrEvent 5 b 0 0

/-- The port's pending indirect access completes (18_i3c_management_port.md R442, R443): a read is held until it is sent, a
write is complete at once. -/
def State.indirectDone (s : State) (st : Status) (data : Nat) : State :=
  let s := (s.set .I3C_H_BUSY 0 0).set .I3C_H_PMADE 0 0
  if s.on .I3C_H_PWRITE then
    let s := (s.set .I3C_H_LAST 0 (statusCode st)).bump .I3C_H_DONE 0 1
    if st = .ok && s.get .I3C_H_IADDR = s.get .I3C_H_PADDR then s.bump .I3C_H_IADDR 0 4 else s
  else if s.on .I3C_H_PDROP then s.set .I3C_H_PDROP 0 0
  else
    ((s.set .I3C_H_HELD 0 1).set .I3C_H_HSTAT 0 (statusCode st)).set .I3C_H_HDATA 0 (if st = .ok then data else 0xFFFFFFFF)

/-- A memory transaction completes: to its block, or as a reply and status of its source. -/
def State.memDone (s : State) (r : MemReq) (st : Status) (data : List Nat) : State :=
  if r.blk < 24 then
    if r.gen = s.get .MGT_H_GEN r.blk then s.emit (.memory r.blk r.addr st data) else s.staleDrop r.blk
  else
    let s := if st = .ok && r.data.isNone then s.emit (.reply r.src r.addr data) else s
    s.answer r.src r.addr st

/-- The generation of block `b` changes (R486, R487): every open request to it completes with TARGET_RESET in the same
clock; the completions that come later are dropped. -/
def State.newGeneration (s : State) (b : Nat) : State :=
  let s := s.bump .MGT_H_GEN b 1
  let hit := s.brg.slots.flatMap fun e => (e.2.pieces.filter fun p =>
    p.issued.isSome && p.status.isNone && addrBlock p.addr == b).map fun p => (e.1, e.2, p)
  let s : State := { s with brg := { s.brg with late := s.brg.late ++ hit.map fun h => lateOf h.1 h.2.1 h.2.2 true } }
  let s := hit.foldl (fun s h => s.pieceDone h.1 h.2.2.addr .targetReset []) s
  let s := if s.on .I3C_H_BUSY && addrBlock (s.get .I3C_H_PADDR) == b then
      (s.indirectDone .targetReset 0).inc .I3C_H_PSTALE else s
  if b = 22 then
    let q := s.memq
    q.foldl (fun s r => s.memDone r .targetReset []) { s with memq := [] }
  else s

/-- The reset of a block begins (R489): register accesses to unit `u` complete with TARGET_RESET until it has ended, and its
generation changes. -/
def State.blockReset (s : State) (u : Nat) : State := (s.set .PWR_H_RESETTING u 1).newGeneration (unitBlock u)

/-! ### Reset of the host window bridge (11_host_window_bridge.md R294) -/

/-- Flags and bytes done of an executing request that the reset cuts off. -/
def BrgReq.cutOff (r : BrgReq) : Nat × Nat :=
  let below := match r.pieces.find? fun p => p.status != some .ok && decide (p.addr < r.addr + r.len) with
    | some p => p.addr - r.addr
    | none => r.len
  let done := if r.elem ≤ 1 then below else below / r.elem * r.elem
  let above := r.pieces.any fun x => x.status == some .ok && decide (r.addr + done < x.addr + x.len) &&
    decide (x.addr < r.addr + r.len)
  (above.toNat + (if r.open ≠ 0 then 2 else 0) + (if r.op == 3 && r.writing then 8 else 0),
    if r.op == 3 && r.writing then 0 else done)

/-- An executing request is answered with TARGET_RESET; completions of its outstanding pieces will come late. -/
def State.brgCutOff (s : State) (k : Nat) (r : BrgReq) : State :=
  let out := (r.pieces.filter fun p => p.issued.isSome && p.status.isNone).map fun p => lateOf k r p false
  let s : State := { s with brg := { s.brg with slots := tabErase s.brg.slots k, late := s.brg.late ++ out } }
  let q := r.cutOff
  s.brgReply r .targetReset q.1 q.2 0 (if r.op = 2 || q.2 = 0 then [] else r.payload q.2)

/-- The bridge resets: requests executing and waiting are answered, read-ahead is discarded. -/
def effBrgReset (s : State) : State :=
  let waiting := s.brg.wait
  let s : State := { s with brg := { s.brg with wait := [] } }
  let s := s.brg.slots.foldl (fun s e => s.brgCutOff e.1 e.2) s
  let s := waiting.foldl (fun s r => s.brgReply r .targetReset 0 0 0 []) s
  (s.dropAheadIf fun _ _ => true).blockReset 14

end Sys2Proof.Machine
end

