-- ==== Sys2Proof/Machine/Sync.lean ====
section
/-! DEFINITION. Encoders, trigger generators, timebase and PTP stamps (04_sync_and_tagging.md). The mark edge stands in
Mark.lean, since other blocks act on it. -/

namespace Sys2Proof.Machine

/-! ### Encoders -/

/-- The signed count of a change of the filtered inputs from (`a0`, `b0`) to (`a`, `b`) under `MODE` (R94); in the
quadrature modes the forward direction is A leading B. -/
def encoderStep (mode : Nat) (a0 b0 a b : Bool) : Int :=
  let aEdge := a0 != a
  let bEdge := b0 != b
  match mode with
  | 0 => if aEdge then (if a != b then 1 else -1) else if bEdge then (if a == b then 1 else -1) else 0
  | 1 => if aEdge then (if a != b then 1 else -1) else 0
  | 2 => if aEdge && a then (if b then -1 else 1) else 0
  | _ => if aEdge && a then (if b then -1 else 1) else 0

/-- The filter of an encoder's inputs accepts a level that the synchroniser has shown for `held` consecutive clocks (R93). -/
def State.encFiltered (s : State) (n held : Nat) : Bool := decide (s.get .SYN_ENC_CFG_FILTER n + 1 ≤ held)

/-- The synchronised levels of A and B of encoder `n`, held for `held` clocks, become the filtered ones (R93 to R95). -/
def execEncoderCount (n : Nat) (levels : Bool × Bool) (held : Nat) (s : State) : Res :=
  let a := levels.1
  let b := levels.2
  if !s.encFiltered n held then .next s else
  let a0 := s.on .SYN_ENC_H_A n
  let b0 := s.on .SYN_ENC_H_B n
  let mode := s.get .SYN_ENC_CFG_MODE n
  let s' := (s.set .SYN_ENC_H_A n a.toNat).set .SYN_ENC_H_B n b.toNat
  if mode < 3 && (a0 != a) && (b0 != b) then
    .next (((s'.inc .SYN_ENC_CNT_ERR n).sticky .SYN_ENC_STATUS_QUAD_ERR n 0 .SYN_EVENT_EN_ENC_MARK 0 0 0x0018 n 0x0001
      (argAt 16 (s.get .SYN_ENC_POS n % 2 ^ 32))))
  else
    let d := encoderStep mode a0 b0 a b
    let d := if s.on .SYN_ENC_CFG_REVERSE n then -d else d
    .next (s'.set .SYN_ENC_POS n (ofSigned 48 ((s.get .SYN_ENC_POS n : Int) + d)))

/-- A rising Z edge that the filter accepts latches the position and never alters it (R96). -/
def execEncoderZ (e : ZEdge) (s : State) : Res :=
  if !s.encFiltered e.n e.held then .next s else
  .next (s.set .SYN_ENC_ZPOS e.n (s.get .SYN_ENC_POS e.n))

/-- Mark input `m` is enabled: `EN` with an `EDGE` other than 0 (R98). -/
def State.markOn (s : State) (m : Nat) : Bool := s.on .SYN_MARK_CFG_EN m && s.get .SYN_MARK_CFG_EDGE m != 0

/-- Some enabled trigger generator or mark input uses encoder `n` (R96): a generator the one it names, and while armed the
one it was armed with (R101). -/
def State.encoderUsed (s : State) (n : Nat) : Bool :=
  ((List.range 128).any fun c => s.on .SYN_CH_TRIG_CFG_EN c && (s.get .SYN_CH_TRIG_CFG_ENC c == n ||
    (s.on .SYN_CH_STATUS_ARMED c && s.get .SYN_CH_H_AENC c == n))) ||
  ((List.range 4).any fun m => s.markOn m && s.get .SYN_MARK_CFG_ENC m == n)

/-- The preset of an encoder position takes effect, or is refused (R96). -/
def effEncPreset (n v : Nat) (src : Src) (s : State) : State :=
  if s.encoderUsed n then s.answer src 0 .state
  else (s.set .SYN_ENC_PRESET n v).set .SYN_ENC_POS n v

/-- `SYN_ENC_PRESET` with `LOAD`: an installer loads a new position (R96). -/
def execEncPreset (n v : Nat) (src : Src) (s : State) : Res :=
  if s.gate src .installer 9 ≠ .ok then .next (s.answer src 0 (s.gate src .installer 9))
  else if s.encoderUsed n then .next (s.answer src 0 .state)
  else .next (s.recorded src 0 (.encPreset n v src)
    (s.auditRec src 1 1 (0x180010 + 0x40 * n) (valueDigest (s.get .SYN_ENC_POS n)) (valueDigest v)) (effEncPreset n v src))

/-- Store the signed count change of the last full millisecond of one encoder; a change other than 0 is remembered for the
checks of sleep (20_power_sleep_reset.md R492). DESIGN CHOICE: a preset loaded inside the millisecond counts with the jump
it makes. -/
def State.speedSample (s : State) (n : Nat) : State :=
  let v := ofSigned 24 (toSigned 48 (s.get .SYN_ENC_POS n + 2 ^ 48 - s.get .SYN_ENC_H_MSPOS n))
  let s := (s.set .SYN_ENC_STATUS_SPEED n v).set .SYN_ENC_H_MSPOS n (s.get .SYN_ENC_POS n)
  if v = 0 then s else (s.set .PWR_H_MOVEV n 1).set .PWR_H_MOVET n s.elapsed

/-- Every millisecond of device time the speed of each encoder is stored (R97). -/
def execSpeedSample (s : State) : Res :=
  .next ((List.range 4).foldl State.speedSample s)

/-! ### Trigger generators -/

/-- The trigger pins mapped to channel `c` (R104). -/
def State.pinsOf (s : State) (c : Nat) : List Nat :=
  (List.range 16).filter fun j => s.on .SYN_TRIG_MAP_EN j && s.get .SYN_TRIG_MAP_CH j == c

/-- Trigger generators that run: enabled and not suspended by a SLEEP (20_power_sleep_reset.md R498). -/
def State.genOn (s : State) (c : Nat) : Bool := s.on .SYN_CH_TRIG_CFG_EN c && !s.on .PWR_H_SUSPEND

/-- A generator arms with base `pos` or `time` (R100, R102): MODE and ENC take effect now, and the first fire lies at
the base plus OFFSET. -/
def State.armAt (s : State) (c pos time : Nat) : State :=
  let mode := s.get .SYN_CH_TRIG_CFG_MODE c
  let off := s.get .SYN_CH_OFFSET c
  let nxt := if mode = 0 then (pos + off) % 2 ^ 48 * 65536 else (time + off) * 65536
  (((s.set .SYN_CH_H_AMODE c mode).set .SYN_CH_H_AENC c (s.get .SYN_CH_TRIG_CFG_ENC c)).set .SYN_CH_H_NEXT c nxt).set
    .SYN_CH_STATUS_ARMED c 1

/-- Arm with the present position and time as the base. -/
def State.armNow (s : State) (c : Nat) : State :=
  s.armAt c (s.get .SYN_ENC_POS (s.get .SYN_CH_TRIG_CFG_ENC c)) s.now

/-- Arm by an accepted edge of mark `m`: the base is the mark's recorded position or time (R102); a generator without a
pitch, or already armed, stays as it is. -/
def State.armByMark (s : State) (m c : Nat) : State :=
  if s.genOn c && s.on .SYN_CH_TRIG_CFG_ARM c && s.get .SYN_CH_TRIG_CFG_MARK c == m &&
      s.on .SYN_CH_H_HASPITCH c && !s.on .SYN_CH_STATUS_ARMED c then
    s.armAt c (s.get .SYN_MARK_POS m) (s.get .SYN_MARK_TIME m)
  else s

/-- Arm every generator that waits for mark `m`. -/
def State.armAllByMark (s : State) (m : Nat) : State := (List.range 128).foldl (fun s c => s.armByMark m c) s

/-- The generator has reached its next position or time (R100). -/
def State.fireDue (s : State) (c : Nat) : Bool :=
  s.genOn c && s.on .SYN_CH_STATUS_ARMED c &&
  (let nxt := s.get .SYN_CH_H_NEXT c / 65536
   if s.get .SYN_CH_H_AMODE c = 0 then
     decide ((s.get .SYN_ENC_POS (s.get .SYN_CH_H_AENC c) + 2 ^ 48 - nxt % 2 ^ 48) % 2 ^ 48 < 2 ^ 47)
   else decide (nxt ≤ s.now))

/-- The whole ns from the firing clock to the departure that R106 and R107 allow: least value and number of values,
for a pin (rung 0) and for Usmas at each rung. -/
def departureBounds : Nat → Nat × Nat
  | 0 => (4, 3)
  | 1 => (135, 52)
  | 2 => (70, 22)
  | 3 => (57, 17)
  | _ => (55, 16)

/-- The `ORPHAN` count and sticky bit of a discarded match entry (R112). -/
def State.orphan (s : State) (c seq : Nat) : State :=
  (s.inc .SYN_CH_CNT_MATCH_ORPHAN c).sticky .SYN_CH_STATUS_EV c 3 .SYN_EVENT_EN_CH 0 3 0x0018 c 0x0014 (argAt 16 seq)

/-- The match list of a channel. -/
def State.firesOf (s : State) (c : Nat) : List Fire := tabGet s.syn.fires c []

/-- Replace the match list of a channel. -/
def State.setFires (s : State) (c : Nat) (l : List Fire) : State :=
  { s with syn := { s.syn with fires := tabPut s.syn.fires c l } }

/-- A sent fire enters the match list; a fifth entry discards the oldest, which is an orphan (R112). -/
def State.addFire (s : State) (c : Nat) (f : Fire) : State :=
  match s.firesOf c with
  | [] => s.setFires c [f]
  | g :: r => if r.length < 3 then s.setFires c (g :: r ++ [f]) else (s.setFires c (r ++ [f])).orphan c g.seq

/-- The argument of a TRIGGER symbol: VC, exposures (0 under version 1) and trigger sequence (R65, R104). -/
def State.triggerArg (s : State) (c seq : Nat) : List Nat :=
  let e := if s.get .ING_LANE_STATUS_VER (c / 4) = 1 then 0 else s.get .ING_CH_H_EXPOSURES c
  [c % 4 + 4 * e, seq % 256, seq / 256, 0, 0]

/-- `WIDTH_NS` in whole clocks of `CLK_PIX`, rounded to the nearest (R105). -/
def State.pulseClocks (s : State) : Nat := (s.get .SYN_TRIG_WIDTH_WIDTH_NS * 6 + 2) / 5

/-- A pulse starts on trigger pin `j` (R104, R105). -/
def State.startPulse (s : State) (j : Nat) : State :=
  ((s.set .SYN_H_PULSE j 1).set .SYN_H_PEND j (s.get .SYN_H_CLK + s.pulseClocks)).emit (.trigPin j)

/-- Trigger pin `j` is in its pulse (R103, R105). -/
def State.inPulse (s : State) (j : Nat) : Bool := s.on .SYN_H_PULSE j && decide (s.get .SYN_H_CLK < s.get .SYN_H_PEND j)

/-- Trigger pin `j` drives 0 again. -/
def State.pinLow (s : State) (j : Nat) : State :=
  if s.on .SYN_H_PULSE j then (s.set .SYN_H_PULSE j 0).emit (.pin "TRIG_OUT" j 0) else s

/-- The fire goes out (R104): a TRIGGER symbol, pulses on the mapped pins, or both. -/
def State.sendTrigger (s : State) (c seq : Nat) : State :=
  let dest := s.get .SYN_CH_TRIG_CFG_DEST c
  let s := if dest = 1 then s else s.emit (.usmas (c / 4) 0x54 (s.triggerArg c seq))
  if dest = 0 then s
  else (s.pinsOf c).foldl (fun s j => s.startPulse j) s

/-- The fire is sent (R103, R104): the departure time is recorded (R107) and the match entry made (R112). The latency
within its bounds is a free value. -/
def State.fireSent (s : State) (c seq : Nat) : State :=
  let bd := departureBounds (if s.get .SYN_CH_TRIG_CFG_DEST c = 1 then 0 else s.get .LANE_STATUS_RUNG (c / 4))
  let dep := s.now + bd.1 + s.free % bd.2
  let enc := if s.get .SYN_CH_H_AMODE c = 0 then s.get .SYN_CH_H_AENC c else s.get .SYN_CH_TRIG_CFG_ENC c
  let pos := s.get .SYN_ENC_POS enc
  (((s.drawn.sendTrigger c seq).inc .SYN_CH_CNT_TRIG c).set .SYN_CH_LAST_DEP c dep).addFire c ⟨dep, pos, seq, s.get .JOB_SW_SEQ⟩

/-- A pin that is not mapped drives 0 (R105). -/
def State.unmapPins (s : State) : State :=
  (List.range 16).foldl (fun s j => if s.on .SYN_TRIG_MAP_EN j then s else s.pinLow j) s

/-- What becomes of a fire (R103): the first row that matches. -/
def State.fireOutcome (s : State) (c seq : Nat) : State :=
  let dest := s.get .SYN_CH_TRIG_CFG_DEST c
  let note := fun (s : State) (k : Nat) =>
    s.sticky .SYN_CH_STATUS_EV c k .SYN_EVENT_EN_CH 0 k 0x0018 c (0x0011 + k) (argAt 16 seq)
  if dest ≠ 1 && s.get .ING_LANE_STATUS_USMAS_STATE (c / 4) ≠ 2 then note (s.inc .SYN_CH_CNT_NOTSENT_NOT_RUN c) 0
  else if s.on .SYN_CH_TRIG_CFG_INHIBIT c && s.on .ING_QUEUE_LEVEL_ABOVE (c / 4) then
    note (s.inc .SYN_CH_CNT_NOTSENT_INHIBIT c) 1
  else if dest ≠ 0 && (s.pinsOf c).any s.inPulse then
    note (s.inc .SYN_CH_CNT_NOTSENT_PIN_BUSY c) 1
  else s.fireSent c seq

/-- A generator reaches its next position or time and fires (R100, R103); nothing is due otherwise. -/
def execTriggerFire (c : Nat) (s : State) : Res :=
  if s.fireDue c then
    let seq := (s.get .SYN_CH_STATUS_TRIG_SEQ c + 1) % 65536
    let nxt := s.get .SYN_CH_H_NEXT c + s.get .SYN_CH_H_PITCH c
    let nxt := if s.get .SYN_CH_H_AMODE c = 0 then nxt % 2 ^ 64 else nxt
    .next (((s.set .SYN_CH_STATUS_TRIG_SEQ c seq).set .SYN_CH_H_NEXT c nxt).fireOutcome c seq)
  else .next s

/-- A trigger pin ends its pulse once that has lasted `WIDTH_NS` (R105). -/
def execTrigPulseEnd (pin : Nat) (s : State) : Res :=
  if s.inPulse pin then .next s else .next (s.pinLow pin)

/-- The pitch lies in the range of a mode (R101). -/
def pitchOk (mode p : Nat) : Bool :=
  decide ((if mode = 0 then 65536 else 65536000) ≤ p) && decide (p ≤ (2 ^ 32 - 1) * 65536)

/-- A write of `SYN_CH_PITCH_INT` commits both halves of the pitch, or is refused with RANGE (R101). -/
def State.pitchCommit (s : State) (c v : Nat) : State :=
  let p := v % 2 ^ 32 * 65536 + s.get .SYN_CH_PITCH_FRAC c
  let s' := ((s.set .SYN_CH_PITCH_INT c v).set .SYN_CH_H_PITCH c p).set .SYN_CH_H_HASPITCH c 1
  if !s.on .SYN_CH_H_HASPITCH c && s.on .SYN_CH_TRIG_CFG_EN c && !s.on .SYN_CH_TRIG_CFG_ARM c then s'.armNow c else s'

/-- The checks of a pitch commit (R101): the mode held now and, while armed, the mode armed. -/
def State.pitchAllowed (s : State) (c v : Nat) : Bool :=
  let p := v % 2 ^ 32 * 65536 + s.get .SYN_CH_PITCH_FRAC c
  pitchOk (s.get .SYN_CH_TRIG_CFG_MODE c) p &&
  (!s.on .SYN_CH_STATUS_ARMED c || pitchOk (s.get .SYN_CH_H_AMODE c) p)

/-- The command form of the pitch commit (R101). -/
def execPitchCommit (c v : Nat) (src : Src) (s : State) : Res :=
  if s.gate src .operator 9 ≠ .ok then .next (s.answer src 0 (s.gate src .operator 9))
  else if !s.pitchAllowed c v then .next (s.answer src 0 .range)
  else .next ((s.pitchCommit c v).answer src 0 .ok)

/-- `EN` of a generator goes from 0 to 1: with `ARM` 0 it arms, once it has a pitch (R101, R102). -/
def State.trigEnable (s : State) (c : Nat) : State :=
  let s' := s.set .SYN_CH_TRIG_CFG_EN c 1
  if !s.on .SYN_CH_TRIG_CFG_EN c && !s.on .SYN_CH_TRIG_CFG_ARM c && s.on .SYN_CH_H_HASPITCH c then s'.armNow c else s'

/-- `EN` of a generator goes to 0: it stops in the same clock (R101). -/
def State.trigDisable (s : State) (c : Nat) : State :=
  (s.set .SYN_CH_TRIG_CFG_EN c 0).set .SYN_CH_STATUS_ARMED c 0

/-- A trigger generator is enabled. -/
def execTrigEnable (c : Nat) (src : Src) (s : State) : Res :=
  if s.gate src .operator 9 ≠ .ok then .next (s.answer src 0 (s.gate src .operator 9)) else .next ((s.trigEnable c).answer src 0 .ok)

/-- A trigger generator is disabled. -/
def execTrigDisable (c : Nat) (src : Src) (s : State) : Res :=
  if s.gate src .operator 9 ≠ .ok then .next (s.answer src 0 (s.gate src .operator 9)) else .next ((s.trigDisable c).answer src 0 .ok)

/-! ### Timebase -/

/-- Add a signed number of ns to the device time; the caller has checked that it stays in range. -/
def State.addTime (s : State) (d : Int) : State := s.set .SYN_TB_TIME 0 ((s.now : Int) + d).toNat

/-- The status a step of the timebase completes with (R109). -/
def State.stepStatus (s : State) (d : Int) : Status :=
  if s.get .SYN_TB_CTRL_SRC = 2 then .state
  else if (s.now : Int) + d < 0 || (s.now : Int) + d > 2 ^ 64 - 1 then .range
  else if d < 0 && (List.range 128).any (fun c => s.genOn c) then .state
  else .ok

/-- The device time is stepped. -/
def State.stepTime (s : State) (d : Int) : State := (s.addTime d).set .PWR_H_STEPPED 0 1

/-- Writing `SYN_TB_STEP_HI` applies the signed 64-bit step in one clock, or refuses it (R109). -/
def execTbStep (v : Nat) (src : Src) (s : State) : Res :=
  if s.gate src .operator 9 ≠ .ok then .next (s.answer src 0 (s.gate src .operator 9))
  else match s.stepStatus (toSigned 64 v) with
    | .ok => .next ((s.stepTime (toSigned 64 v)).answer src 0 .ok)
    | st => .next (s.answer src 0 st)

/-- A slew replaces the amount that remains (R109). -/
def State.slewTo (s : State) (v : Nat) : State := (s.set .SYN_TB_SLEW 0 v).set .SYN_TB_H_SLEWFRAC 0 0

/-- A slew by an exact amount in units of 2^-32 ns replaces the amount that remains. -/
def State.slewBy (s : State) (d : Int) : State :=
  let whole := ceilDiv d.natAbs (2 ^ 32)
  (s.set .SYN_TB_SLEW 0 (ofSigned 32 (if d < 0 then -(whole : Int) else whole))).set .SYN_TB_H_SLEWFRAC 0
    (whole * 2 ^ 32 - d.natAbs)

/-- A slew is written, or refused under `SRC` 2 (R109). -/
def execTbSlew (v : Nat) (src : Src) (s : State) : Res :=
  if s.gate src .operator 9 ≠ .ok then .next (s.answer src 0 (s.gate src .operator 9))
  else if s.get .SYN_TB_CTRL_SRC = 2 then .next (s.answer src 0 .state)
  else .next ((s.slewTo v).answer src 0 .ok)

/-- The slew has been consumed by the clocks (R109), and the rate is `RATE` again; while some of it remains it goes on. -/
def execSlewDone (s : State) : Res :=
  if s.get .SYN_TB_SLEW = 0 then .next (s.set .SYN_TB_H_SLEWFRAC 0 0) else .next s

/-- The real-time clock moves on by one clock of `CLK_PIX` (20_power_sleep_reset.md R490): 32,768 ticks make a second. -/
def State.rtcTick (s : State) : State :=
  let a := s.get .PWR_H_RTCACC + 32768
  if a < 1200000000 then s.set .PWR_H_RTCACC 0 a
  else
    let t := s.get .PWR_RTC_HI_TICKS + 1
    let s := (s.set .PWR_H_RTCACC 0 (a - 1200000000)).set .PWR_RTC_HI_TICKS 0 (t % 32768)
    if t = 32768 then s.bump .PWR_RTC_SEC 0 1 else s

/-- What remains of the slew in units of 2^-32 ns. -/
def State.slewLeft (s : State) : Nat :=
  (toSigned 32 (s.get .SYN_TB_SLEW)).natAbs * 2 ^ 32 - s.get .SYN_TB_H_SLEWFRAC

/-- The device time moves on by one clock of `CLK_PIX` (R108, R109): it gains `RATE`, and a slew in progress adds or takes
away 100 parts in a million of it, at most what remains. -/
def State.timeTick (s : State) : State :=
  let rate := s.get .SYN_TB_RATE
  let slew := toSigned 32 (s.get .SYN_TB_SLEW)
  let mv := min (rate / 10000) s.slewLeft
  let inc := if slew < 0 then rate - mv else rate + mv
  let t := s.now * 2 ^ 32 + s.get .SYN_TB_H_FRAC + inc
  let left := s.slewLeft - mv
  let whole := ceilDiv left (2 ^ 32)
  (((s.set .SYN_TB_TIME 0 (min (t / 2 ^ 32) (2 ^ 64 - 1))).set .SYN_TB_H_FRAC 0 (t % 2 ^ 32)).set
    .SYN_TB_H_SLEWFRAC 0 (whole * 2 ^ 32 - left)).set .SYN_TB_SLEW 0
      (ofSigned 32 (if slew < 0 then -(whole : Int) else whole))

/-- One clock of `CLK_PIX`: the real-time clock always runs, the device time stops in SLEEP and while waking (R108,
20_power_sleep_reset.md R491). -/
def State.tick (s : State) : State :=
  let s := s.rtcTick
  let s := if s.get .PWR_H_STATE = 2 then s else s.bump .SYN_H_CLK 0 1
  if s.get .PWR_H_STATE = 2 || s.get .PWR_H_STATE = 3 then s
  else (if s.on .PWR_H_SUSPEND then s.bump .PWR_H_ACTIVET 0 1 else s).timeTick

/-! ### PTP stamps -/

/-- The PTP event messages: Sync, Delay_Req, Pdelay_Req and Pdelay_Resp, message types 0 to 3 (R111; the numbers are those of
IEEE 1588-2019, PRESUMED). -/
def ptpEventMsg (msgType : Nat) : Bool := decide (msgType < 4)

/-- A PTP message of port 0 arrives; an event message of the configured transport and domain reaches the firmware with its
receive time (R111). -/
def execPtpRxStamp (transport domain msgType seqId stamp : Nat) (s : State) : Res :=
  if ptpEventMsg msgType && s.on .SYN_PTP_CFG_EN && s.get .SYN_PTP_CFG_TRANSPORT == transport && s.get .SYN_PTP_CFG_DOMAIN == domain then
    .next (s.emit (.ptpRx msgType seqId stamp))
  else .next s

/-- A transmitted PTP event message is stamped into the 16-entry queue, or the stamp is lost and counted (R111). -/
def State.ptpTxStamp (s : State) (st : PtpStamp) : State :=
  if s.syn.stamps.length < 16 then { s with syn := { s.syn with stamps := s.syn.stamps ++ [st] } }
  else (s.inc .SYN_PTP_STATUS_LOST).sticky .SYN_PTP_STATUS_TS_OVF 0 0 .SYN_EVENT_EN_PTP 0 0 0x0018 0xFFFF 0x0021 0

/-- The oldest transmit stamp is popped (R111). -/
def State.ptpPop (s : State) : State := { s with syn := { s.syn with stamps := s.syn.stamps.drop 1 } }

/-- `SYN_PTP_TXTS_POP` removes the head stamp; it is ignored when the queue is empty (R111). -/
def execPtpTxtsPop (src : Src) (s : State) : Res :=
  if s.gate src .operator 9 ≠ .ok then .next (s.answer src 0 (s.gate src .operator 9))
  else .next (s.ptpPop.answer src 0 .ok)

/-! ### Frame-start time and position -/

/-- Discard the entries older than the match window (R112). -/
def State.dropOldFires (s : State) (c : Nat) : List Fire → State
  | [] => s.setFires c []
  | f :: r =>
    if f.dep + s.get .SYN_CH_MATCH_MATCH_WINDOW_US c * 1000 < s.now then (s.orphan c f.seq).dropOldFires c r
    else s.setFires c (f :: r)

/-- The position and time of a frame whose FS is accepted (R112, R113): the oldest entry in the window is taken. DESIGN
CHOICE: a device time below `FS_LATE_NS` gives the time 0. -/
def State.fsMatch (s : State) (c : Nat) : State × Nat × Nat :=
  let s := s.dropOldFires c (s.firesOf c)
  let late := s.now - s.get .SYN_CH_FS_LATE_FS_LATE_NS c
  let pos := s.get .SYN_ENC_POS (s.get .SYN_CH_TRIG_CFG_ENC c)
  let none' : State × Nat × Nat :=
    if s.on .SYN_CH_TRIG_CFG_EN c then
      ((s.inc .SYN_CH_CNT_MATCH_UNMATCHED c).sticky .SYN_CH_STATUS_EV c 2 .SYN_EVENT_EN_CH 0 2 0x0018 c 0x0013
        (argAt 16 (s.get .SYN_CH_STATUS_TRIG_SEQ c)), pos, late)
    else (s, pos, late)
  match s.firesOf c with
  | f :: r => if f.dep < s.now then (s.setFires c r, f.pos, f.dep + s.get .SYN_CH_FS_DELAY_FS_DELAY_NS c) else none'
  | [] => none'

end Sys2Proof.Machine
end

