-- ==== Sys2Proof/Machine/FabOps.lean ====
section
/-! DEFINITION. Shared operations of the Botex fabric (15_botex_fabric.md): ports, packets, late errors, control requests,
and what becomes of a port whose lanes come and go. -/

namespace Sys2Proof.Machine

/-! ### Ports -/

/-- The two lanes of a fabric port (02_lane_complex.md R24). -/
def portLanes (p : Nat) : Nat × Nat := if p < 4 then (40 + 2 * p, 41 + 2 * p) else (16 + 2 * p, 17 + 2 * p)

/-- The fabric port of a lane. -/
def lanePort (n : Nat) : Nat := if 40 ≤ n then (n - 40) / 2 else (n - 16) / 2

/-- Botex traffic has come on the lanes that a port carries it on: they are not idle (02_lane_complex.md R49). -/
def State.portPayload (s : State) (p : Nat) : State :=
  let on := if s.get .FAB_PORT_STATUS_LANES p = 0 then
      (if s.get .LANE_STATUS_STATE (portLanes p).1 = 5 then 1 else 0) +
        if s.get .LANE_STATUS_STATE (portLanes p).2 = 5 then 2 else 0
    else s.get .FAB_PORT_STATUS_LANES p
  let s := if on.testBit 0 then s.lanePayload (portLanes p).1 else s
  if on.testBit 1 then s.lanePayload (portLanes p).2 else s

/-- The ports that the roles of the lane quads give the device. -/
def State.fabPorts (s : State) : List Nat :=
  (List.range 8).filter fun p => s.get .LANE_ID_ROLE (portLanes p).1 == 3

/-- A lane is ACTIVE. -/
def State.laneOn (s : State) (n : Nat) : Bool := s.get .LANE_STATUS_STATE n == 5

/-- The lanes of a port that are ACTIVE, as bits. -/
def State.portOn (s : State) (p : Nat) : Nat :=
  (if s.laneOn (portLanes p).1 then 1 else 0) + if s.laneOn (portLanes p).2 then 2 else 0

/-- Both lanes of a port are ACTIVE at one rung (R367). -/
def State.portPaired (s : State) (p : Nat) : Bool :=
  s.portOn p == 3 && s.get .LANE_STATUS_RUNG (portLanes p).1 == s.get .LANE_STATUS_RUNG (portLanes p).2

/-- Codes of `FAB_PORT_STATUS.STATE` (R364). -/
abbrev portDown : Nat := 0
abbrev portNoVersion : Nat := 1
abbrev portLoop : Nat := 2
abbrev portUpOne : Nat := 3
abbrev portUpTwo : Nat := 4
abbrev portAsleep : Nat := 5

/-- State of a port. -/
def State.portState (s : State) (p : Nat) : Nat := s.get .FAB_PORT_STATUS_STATE p

/-- The port is UP_ONE or UP_TWO. -/
def State.fabUp (s : State) (p : Nat) : Bool := s.portState p == portUpOne || s.portState p == portUpTwo

/-- Ports that are up. -/
def State.upPorts (s : State) : List Nat := (List.range 8).filter s.fabUp

/-- The queue and replay buffer of a port. -/
def State.fabPort (s : State) (p : Nat) : FabPort := tabGet s.fab.ports p ⟨[], [], []⟩

/-- Change the queue and replay buffer of a port. -/
def State.setPort (s : State) (p : Nat) (x : FabPort) : State :=
  { s with fab := { s.fab with ports := tabPut s.fab.ports p x } }

/-- This node's ID, 253 for none. -/
def State.node (s : State) : Nat := s.get .FAB_NODE_NODE_ID

/-- This device's UID. -/
def State.uid (s : State) : Nat := s.get .SEC_FUSE_UID

/-- Sticky bit `k` of `FAB_EVENTS` with its event (R392). -/
def State.fabEvent (s : State) (k inst uid node cause : Nat) : State :=
  s.sticky .FAB_EVENTS_EV 0 k .FAB_EVENT_EN 0 k 0x0048 inst (if k < 3 then k + 1 else k + 14)
    (argAt 16 uid + argAt 24 node + argAt 25 cause)

/-! ### Packets -/

/-- The network header (R371). -/
def netHeader (type dst src hops flags len tag : Nat) : List Nat :=
  [1, type, dst, src, hops, flags] ++ leBytes 2 len ++ leBytes 4 tag ++ [0, 0, 0, 0]

/-- A packet of this node. -/
def State.ownPacket (s : State) (type dst flags tag : Nat) (body : List Nat) : List Nat :=
  netHeader type dst s.node (s.get .FAB_CFG_HOP_LIMIT) flags body.length tag ++ body

/-- Body of a packet. -/
def pktBody (d : List Nat) : List Nat := (d.drop 16).take (leAt d 6 2)

/-- The largest packet of a class (R369). -/
def classMax : Nat → Nat
  | 0 => 64 | 1 => 2048 | 2 => 12848 | _ => 16384

/-- The receive buffer of a class in credits of 64 bytes (R369). -/
def classCredits : Nat → Nat
  | 0 => 32 | 1 => 512 | 2 => 2048 | _ => 1024

/-- Credits that a packet takes (R369). -/
def pktCredits (d : List Nat) : Nat := ceilDiv d.length 64

/-- A `CREDIT` symbol (R365). -/
def State.sendCredit (s : State) (p cls n : Nat) : State :=
  if s.fabUp p then s.emit (.symbol p 0x43 [cls, n % 256, n / 256, 0, 0]) else s

/-- The receive buffer of the port that held a packet gets its space back (R369). -/
def State.releasePkt (s : State) (k : FabPkt) : State :=
  match k.inPort with
  | some p => s.sendCredit p k.cls (pktCredits k.data)
  | none => s

/-- The port advertises its full buffers (R369). -/
def State.advertise (s : State) (p : Nat) : State :=
  [0, 1, 2, 3].foldl (fun s c => s.sendCredit p c (classCredits c)) s

/-- A packet joins the output queue of a port. -/
def State.fabQueue (s : State) (p : Nat) (k : FabPkt) : State :=
  let x := s.fabPort p
  s.setPort p { x with queue := x.queue ++ [k] }

/-- Route to a node: its output port, if it has one that is up (R377). -/
def State.routeTo (s : State) (node : Nat) : Option Nat :=
  if node < 64 && s.get .FAB_ROUTE_PORT node < 8 && s.fabUp (s.get .FAB_ROUTE_PORT node) then
    some (s.get .FAB_ROUTE_PORT node)
  else none

/-! ### Late errors -/

/-- A late-error body (R384) about a packet. -/
def State.lateBody (s : State) (d : List Nat) (cls cause port : Nat) : List Nat :=
  leBytes 8 s.now ++ (d.drop 8).take 4 ++ [d.getD 1 0, cls, cause, s.node, d.getD 2 0, port] ++ List.replicate 14 0

/-- A control request of this node completes (R378). -/
def State.reqDone (s : State) (tag : Nat) (st : Status) (data : List Nat) : State :=
  match s.fab.reqs.find? fun r => r.tag == tag with
  | none => s
  | some r => { s with fab := { s.fab with reqs := s.fab.reqs.filter fun x => x.tag != tag,
                                           answers := s.fab.answers ++ [⟨r, st, data⟩] } }

/-- An entry for `FAB_LATE_ERR` (R384); one about a request of this node completes it with FAR_ERROR (R378). -/
def State.lateEnter (s : State) (e : List Nat) : State :=
  let cause := e.getD 14 0
  let s : State :=
    if s.fab.late.length < 256 then
      ({ s with fab := { s.fab with late := s.fab.late ++ [e] } } : State).fabEvent 8 0xFFFF 0 (e.getD 15 0) cause
    else ((s.inc .FAB_CNT_LATE_LOST).set .FAB_LATE_STATUS_OVF 0 1).fabEvent 9 0xFFFF 0 (e.getD 15 0) cause
  if e.getD 12 0 = 0x20 then s.reqDone (leAt e 8 4) .farError [] else s

/-- A packet is discarded with a cause (R384): logged here when this node sent it, else reported to its source. A time
or poisoned packet is lost silently, a late error is only counted. -/
def State.fabDiscard (s : State) (k : FabPkt) (cause port : Nat) : State :=
  let s := s.releasePkt k
  let e := s.lateBody k.data k.cls cause port
  if k.poison || k.cls = 0 then s
  else if k.data.getD 1 0 = 0x50 then s.inc .FAB_CNT_LATE_LOST
  else if k.own then s.lateEnter e
  else
    match s.routeTo (k.data.getD 3 0) with
    | some p => s.fabQueue p ⟨1, s.ownPacket 0x50 (k.data.getD 3 0) 0 (leAt k.data 8 4) e, none, false, true⟩
    | none => s.inc .FAB_CNT_LATE_LOST

/-- This node sends a packet to a node (R369, R371, R376, R377): over its route, or discarded at its origin. -/
def State.fabSend (s : State) (type cls dst flags tag : Nat) (body : List Nat) : State :=
  let k : FabPkt := ⟨cls, s.ownPacket type dst flags tag body, none, false, true⟩
  if classMax cls < k.data.length then s.fabDiscard k 9 0xFF
  else match s.routeTo dst with
    | some p => if s.node = 253 then s.fabDiscard k 2 0xFF else s.fabQueue p k
    | none => s.fabDiscard k 2 0xFF

/-- A broadcast of this node goes out on every tree port (R377). -/
def State.fabBroadcast (s : State) (type tag : Nat) (body : List Nat) : State :=
  let mask := s.get .FAB_ROUTE_COMMIT_BCAST_MASK
  (s.upPorts.filter fun p => mask.testBit p).foldl (fun s p =>
    s.fabQueue p ⟨1, s.ownPacket type 255 0 tag body, none, false, true⟩) s

/-- A control request of this node (R378, R391): refused with BUSY while 64 are out; a fenced node logs the attempt, which
completes with FAR_ERROR. The tag of the request. -/
def State.ctrlSend (s : State) (node service : Nat) (data : List Nat) : State × Option Nat :=
  let tag := s.get .FAB_H_TAG
  let body := [service, 0, 0, 0] ++ data
  if 64 ≤ s.fab.reqs.length then (s, none)
  else
    let s : State := s.bump .FAB_H_TAG 0 1
    let s : State := { s with fab := { s.fab with reqs := s.fab.reqs ++ [⟨tag, node, service, s.elapsed⟩] } }
    if s.on .FAB_CTRL_FENCE then (s.fabDiscard ⟨1, s.ownPacket 0x20 node 0 tag body, none, false, true⟩ 5 0xFF, some tag)
    else (s.fabSend 0x20 1 node 0 tag body, some tag)

/-- A control reply of this node (R378). -/
def State.ctrlReply (s : State) (node tag service : Nat) (st : Status) (data : List Nat) : State :=
  s.fabSend 0x21 1 node 1 tag ([service, statusCode st, 0, 0] ++ data)

/-! ### Link state -/

/-- Body of this node's link-state record (R375). -/
def State.lsBody (s : State) (seq : Nat) : List Nat :=
  let ports := s.fabPorts
  let pin := if s.on .FAB_PIN_PIN_EN then s.get .FAB_PIN_PIN_ID else 0xFF
  let entry (p : Nat) : List Nat :=
    [p, s.portState p, s.get .FAB_PORT_STATUS_VER p, s.get .FAB_PORT_STATUS_LANES p] ++
      leBytes 8 (s.get .FAB_PORT_NEIGH p) ++ [(tabGet s.fab.marks p ⟨0, 0, 0, 0, 0, 0, 0, 0, 0⟩).port, 0, 0, 0]
  leBytes 8 s.uid ++ leBytes 4 seq ++ [s.node, pin, 0x21, ports.length] ++ ports.flatMap entry

/-- A node of the link-state database as the firmware sees it: UID, ID held, pinned ID (none: unpinned), and the UID that each
of its up ports names. -/
abbrev NodeRec := Nat × Nat × Option Nat × List Nat

/-- A node from the body of its record. -/
def nodeRec (b : List Nat) : NodeRec :=
  let ports := (List.range (b.getD 15 0)).map fun i => (b.drop (16 + 16 * i)).take 16
  let ups := ports.filter fun e => e.getD 1 0 == portUpOne || e.getD 1 0 == portUpTwo
  (leAt b 0 8, b.getD 12 253, if b.getD 13 0xFF < 64 then some (b.getD 13 0) else none, ups.map fun e => leAt e 4 8)

/-- All nodes the database lists, this one included. -/
def State.nodes (s : State) : List NodeRec := nodeRec (s.lsBody 0) :: s.fab.db.map fun r => nodeRec r.body

/-- Distances in hops over the database: breadth first from the nodes in `known`, at most `fuel` rounds. -/
def distances (nodes : List NodeRec) (known : List (Nat × Nat)) (round : Nat) : Nat → List (Nat × Nat)
  | 0 => known
  | fuel + 1 =>
    let edge := (nodes.filter fun n => known.any fun k => k.1 == n.1 && k.2 == round).flatMap fun n => n.2.2.2
    let new := (nodes.filter fun n => edge.contains n.1 && !(known.any fun k => k.1 == n.1)).map fun n => (n.1, round + 1)
    if new.isEmpty then known else distances nodes (known ++ new) (round + 1) fuel

/-- The node ID of a UID: of the adopted table, else of its own record. -/
def State.idOfNode (s : State) (n : NodeRec) : Nat :=
  match s.fab.table.find? fun e => e.uid == n.1 with
  | some e => e.id
  | none => n.2.1

/-- Hops to every node over each port that is up: the port, and distances from this node through its neighbour. -/
def State.portReach (s : State) : List (Nat × List (Nat × Nat)) :=
  s.upPorts.map fun p => (p, distances s.nodes [(s.get .FAB_PORT_NEIGH p, 1)] 1 63)

/-- The firmware's shortest path to node `d` (R377): output port, the lowest on a tie, and hops; none where no path leads. -/
def bestRoute (reach : List (Nat × List (Nat × Nat))) (uid : Nat) : Nat × Nat :=
  reach.foldl (fun a r => match r.2.find? fun k => k.1 == uid with
    | some k => if a.1 = 0xF || k.2 < a.2 then (r.1, k.2) else a
    | none => a) (0xF, 0)

/-- Management firmware computes the routes over the link-state database and writes them to the staged table (R377); none does
so while the management complex is away. -/
def State.stageRoutes (s : State) : State :=
  if s.on .BOOT_H_AWAY then s
  else
    let reach := s.portReach
    let others := s.nodes.filter fun n => n.1 != s.uid
    (List.range 64).foldl (fun s d =>
      let r := match others.find? fun n => s.idOfNode n == d with
        | some n => bestRoute reach n.1
        | none => (0xF, 0)
      (s.set .FAB_H_SPORT d r.1).set .FAB_H_SHOPS d (min 63 r.2)) s

/-- This node floods its link-state record (R375). -/
def State.lsSend (s : State) : State :=
  let s := s.bump .FAB_H_LSSEQ 0 1
  let seq := s.get .FAB_H_LSSEQ
  let body := s.lsBody seq
  s.upPorts.foldl (fun s p => s.fabQueue p ⟨1, s.ownPacket 0x02 255 0 seq body, none, false, true⟩) s

/-- A port has changed: the firmware recomputes its routes (R377) and the record is flooded (R375). -/
def State.portChanged (s : State) : State := s.stageRoutes.lsSend

/-! ### Neighbours -/

/-- A port loses its neighbour (R373, R377, R388): its routes are none, its packets are discarded, and if it had a
neighbour `PORT_DOWN` is raised;
a lost parent leaves holdover (R381). `st` is the state the port takes. -/
def State.neighbourLost (s : State) (p st : Nat) : State :=
  let s := (List.range 64).foldl (fun s d => if s.get .FAB_ROUTE_PORT d = p then s.set .FAB_ROUTE_PORT d 0xF else s) s
  let x := s.fabPort p
  let uid := s.get .FAB_PORT_NEIGH p
  let id := s.get .FAB_PORT_STATUS_NEIGH_ID p
  let had := s.fab.marks.any fun e => e.1 == p
  let s : State := { s with fab := { s.fab with ports := tabErase s.fab.ports p, marks := tabErase s.fab.marks p } }
  let s := s.set .FAB_PORT_STATUS_STATE p st
  let s := (x.sent.map (·.pkt) ++ x.queue).foldl (fun s k => s.fabDiscard k 4 p) s
  let s := [0, 1, 2, 3].foldl (fun s c => s.set .FAB_H_CREDIT (4 * p + c) 0) s
  let s := [Fld.FAB_H_TXSEQ, .FAB_H_RXSEQ, .FAB_H_NAKKED, .FAB_PORT_NEIGH, .FAB_PORT_STATUS_VER, .FAB_PORT_STATUS_LANES,
    .FAB_PORT_STATUS_PARENT].foldl (fun s f => s.set f p 0) s
  let s := s.set .FAB_PORT_STATUS_NEIGH_ID p 0xFD
  let s := if had then (s.fabEvent 0 p uid id 0).fabEvent 3 0xFFFF uid id 0 else s
  let s := if s.get .FAB_H_PARENT = p then (s.set .FAB_H_PARENT 0 15).set .FAB_H_T1OK 0 0 else s
  s.portChanged

/-- A lane of a fabric port is ACTIVE (R364, R373): waymarks can pass; a lane that returns to a port that is up joins at the
next `ALIGN` (R367). -/
def State.fabLaneUp (s : State) (n : Nat) : State :=
  let p := lanePort n
  if s.portState p = portDown then (s.set .FAB_PORT_STATUS_STATE p portNoVersion).portChanged else s

/-- A lane of a fabric port leaves ACTIVE (R364, R367): with the other lane the port goes on at UP_ONE and sends again what
was not completely received, which is no retry; without it the neighbour is lost. -/
def State.fabLaneDown (s : State) (n : Nat) : State :=
  let p := lanePort n
  let k := n % 2
  let other := s.laneOn (if k = 0 then n + 1 else n - 1)
  if s.portState p = portDown || s.portState p = portAsleep then s
  else if !other then s.neighbourLost p portDown
  else if s.fabUp p && s.bit .FAB_PORT_STATUS_LANES p k then
    let x := s.fabPort p
    let s := s.setPort p { x with sent := x.sent.map fun e => { e with due := true } }
    ((s.set .FAB_PORT_STATUS_STATE p portUpOne).set .FAB_PORT_STATUS_LANES p (2 - k)).portChanged
  else s

/-! ### Seams -/

/-- A seam's neighbour cannot be reached: no route leads to its node (07_blanket_merger.md R196, R388). -/
def State.neighbourGone (s : State) (node : Nat) : Bool := (s.routeTo node).isNone

/-- A seam packet of this node (R381, R382, R391): none while the node is neither the root nor time locked. -/
def State.sendSeam (s : State) (node : Nat) (data : List Nat) : State :=
  if !s.on .FAB_NODE_ROOT && !s.on .FAB_NODE_TIME_LOCKED then s
  else if s.on .FAB_CTRL_FENCE then s.fabDiscard ⟨2, s.ownPacket 0x30 node 0 (leAt data 0 4) data, none, false, true⟩ 5 0xFF
  else s.fabSend 0x30 2 node 0 (leAt data 0 4) data

end Sys2Proof.Machine
end

