-- ==== Sys2Proof/Machine/Codec.lean ====
section
/-! DEFINITION. The Teasel bitstream (09_teasel_codec.md R227 to R243): encoder and decoder of one tile, as functions of
bytes and samples. -/

namespace Sys2Proof.Machine

/-! ### Types and derived quantities (R229) -/

/-- Lowest and highest value, middle value, and thresholds of a sample type. -/
def tLo (ty : Nat) : Int := if ty = 1 then -255 else 0
def tHi (ty : Nat) : Int := if ty = 2 then 65535 else 255
def tMid (ty : Nat) : Int := if ty = 0 then 128 else if ty = 1 then 0 else 32768
def tThr (ty : Nat) : Nat × Nat × Nat := if ty = 0 then (2, 6, 18) else if ty = 1 then (3, 8, 24) else (16, 64, 256)

/-- Quantisation step `Q`. -/
def qStep (near : Nat) : Nat := 2 * near + 1

/-- `RANGEQ`. -/
def rangeQ (ty near : Nat) : Nat := ((tHi ty - tLo ty).toNat + 2 * near) / qStep near + 1

/-- Smallest `n` from `n0` on with `2^n ≥ v`, within `fuel` steps. -/
def bitsFor (v : Nat) : Nat → Nat → Nat
  | 0, n => n
  | fuel + 1, n => if v ≤ 2 ^ n then n else bitsFor v fuel (n + 1)

/-- `QBPP`. -/
def qBpp (ty near : Nat) : Nat := bitsFor (rangeQ ty near) 17 1

/-- `A_INIT`. -/
def aInit (ty near : Nat) : Nat := max 2 ((rangeQ ty near + 32) / 64)

/-! ### Prediction (R231 to R233) -/

/-- The neighbours a, b, c, d of sample `x` of a line of `w`, with `prev` the line above (none on line 0) and `cur` the
samples of this line so far. -/
def neighbours (mid : Int) (prev : Option (List Int)) (cur : List Int) (w x : Nat) : Int × Int × Int × Int :=
  match prev with
  | none =>
    let a := if x = 0 then mid else cur.getD (x - 1) mid
    (a, a, a, a)
  | some p =>
    let b := p.getD x mid
    let a := if x = 0 then b else cur.getD (x - 1) mid
    let c := if x = 0 then b else p.getD (x - 1) mid
    let d := if x + 1 = w then b else p.getD (x + 1) mid
    (a, b, c, d)

/-- The median edge predictor (R232). -/
def medEdge (a b c : Int) : Int :=
  if max a b ≤ c then min a b else if c ≤ min a b then max a b else a + b - c

/-- A quantised gradient (R233). -/
def quantGrad (ty near : Nat) (g : Int) : Int :=
  let t := tThr ty
  let m := g.natAbs
  let n : Nat := if m ≤ near then 0 else if m < t.1 + near then 1 else if m < t.2.1 + 2 * near then 2
    else if m < t.2.2 + 3 * near then 3 else 4
  if g < 0 then -(n : Int) else n

/-- Context and sign of three quantised gradients that are not all 0 (R233). -/
def contextOf (q1 q2 q3 : Int) : Nat × Int :=
  let neg := q1 < 0 || (q1 == 0 && (q2 < 0 || (q2 == 0 && q3 < 0)))
  let s : Int := if neg then -1 else 1
  ((81 * (s * q1) + 9 * (s * q2) + s * q3 - 1).toNat, s)

/-! ### Error quantisation (R234) -/

/-- The quantised error of a sample, wrapped. -/
def quantErr (ty near : Nat) (e : Int) : Int :=
  let r := rangeQ ty near
  let n : Int := ((e.natAbs + near) / qStep near : Nat)
  let eq := if e < 0 then -n else n
  let eq := if eq < 0 then eq + r else eq
  if ((r + 1) / 2 : Nat) ≤ eq then eq - r else eq

/-- The coded value of a quantised error. -/
def foldErr (eq : Int) : Nat := if 0 ≤ eq then (2 * eq).toNat else (-2 * eq - 1).toNat

/-- The quantised error of a coded value. -/
def unfoldErr (m : Nat) : Int := if m % 2 = 0 then (m / 2 : Nat) else -(((m + 1) / 2 : Nat) : Int)

/-- Reconstruction of a sample. -/
def reconstruct (ty near : Nat) (p s eq : Int) : Int :=
  let q : Int := qStep near
  let rx := p + s * eq * q
  let rx := if rx < tLo ty - near then rx + rangeQ ty near * q else rx
  let rx := if tHi ty + near < rx then rx - rangeQ ty near * q else rx
  min (max rx (tLo ty)) (tHi ty)

/-! ### Golomb-Rice codes and their state (R235, R236) -/

/-- Counts A and N of a context or of the run state. -/
abbrev Counts := Nat × Nat

/-- Smallest `k` with `N · 2^k ≥ A`. -/
def riceFrom (c : Counts) : Nat → Nat → Nat
  | 0, k => k
  | fuel + 1, k => if c.1 ≤ c.2 * 2 ^ k then k else riceFrom c fuel (k + 1)

/-- The Rice parameter of a state. -/
def riceK (c : Counts) : Nat := riceFrom c 40 0

/-- The state after a value of size `v`. -/
def riceUpdate (c : Counts) (v : Nat) : Counts :=
  if c.2 + 1 = 64 then ((c.1 + v) / 2, 32) else (c.1 + v, c.2 + 1)

/-- `n` bits of `v`, most significant first. -/
def msbBits : Nat → Nat → List Bool
  | 0, _ => []
  | n + 1, v => v.testBit n :: msbBits n v

/-- The code of `m` with parameter `k` and an escape field of `esc` bits. -/
def riceCode (k esc m : Nat) : List Bool :=
  if m / 2 ^ k < 23 then List.replicate (m / 2 ^ k) false ++ [true] ++ msbBits k (m % 2 ^ k)
  else List.replicate 23 false ++ [true] ++ msbBits esc m

/-- Number of a list of bits, most significant first. -/
def bitsVal (l : List Bool) : Nat := l.foldl (fun a b => 2 * a + if b then 1 else 0) 0

/-- `n` bits off the front; check 5 where they run out (R242). -/
def takeBits (n : Nat) (l : List Bool) : Except Nat (Nat × List Bool) :=
  if l.length < n then .error 5 else .ok (bitsVal (l.take n), l.drop n)

/-- Zeros before the first 1, at most 23: checks 3 and 5 (R242). -/
def leadZeros : Nat → List Bool → Except Nat (Nat × List Bool)
  | _, [] => .error 5
  | z, true :: r => .ok (z, r)
  | z, false :: r => if 23 ≤ z then .error 3 else leadZeros (z + 1) r

/-- Read a code. -/
def readRice (k esc : Nat) (l : List Bool) : Except Nat (Nat × List Bool) :=
  match leadZeros 0 l with
  | .error e => .error e
  | .ok (z, r) =>
    if z < 23 then
      match takeBits k r with
      | .error e => .error e
      | .ok (v, r) => .ok (z * 2 ^ k + v, r)
    else takeBits esc r

/-- What coding keeps inside a tile: contexts by number and the run state. -/
structure CodeSt where
  ctx : List (Nat × Counts)
  run : Counts
  deriving DecidableEq, Repr

/-- The state at the start of a tile. -/
def CodeSt.start : CodeSt := ⟨[], (4, 1)⟩

/-- Counts of a context. -/
def CodeSt.counts (c : CodeSt) (ty near i : Nat) : Counts := tabGet c.ctx i (aInit ty near, 1)

/-- A context after a sample. -/
def CodeSt.update (c : CodeSt) (ty near i v : Nat) : CodeSt :=
  { c with ctx := tabPut c.ctx i (riceUpdate (c.counts ty near i) v) }

/-! ### Encoder -/

/-- Code one sample in a context: bits, reconstruction and the new state. -/
def encodeSample (ty near i : Nat) (p s x : Int) (c : CodeSt) : List Bool × Int × CodeSt :=
  let eq := quantErr ty near (s * (x - p))
  (riceCode (riceK (c.counts ty near i)) (qBpp ty near) (foldErr eq), reconstruct ty near p s eq,
    c.update ty near i eq.natAbs)

/-- Code the rest of a line (R233 to R237): `xs` are the samples still to code, `cur` those reconstructed. -/
def encodeLine (ty near w : Nat) (prev : Option (List Int)) :
    Nat → List Int → List Int → CodeSt → List Bool × List Int × CodeSt
  | 0, _, cur, c => ([], cur, c)
  | fuel + 1, xs, cur, c =>
    match xs with
    | [] => ([], cur, c)
    | x :: rest =>
      let (a, b, cc, d) := neighbours (tMid ty) prev cur w cur.length
      let q1 := quantGrad ty near (d - b)
      let q2 := quantGrad ty near (b - cc)
      let q3 := quantGrad ty near (cc - a)
      if q1 = 0 && q2 = 0 && q3 = 0 then
        let l := (xs.takeWhile fun v => decide ((v - a).natAbs ≤ near)).length
        if l = xs.length then
          ([true], cur ++ List.replicate l a, { c with run := riceUpdate c.run l })
        else
          let head := [false] ++ riceCode (riceK c.run) 8 l
          let c := { c with run := riceUpdate c.run l }
          let (bs, rx, c) := encodeSample ty near 364 a 1 ((xs.drop l).headD 0) c
          let (more, cur, c) := encodeLine ty near w prev fuel (xs.drop (l + 1)) (cur ++ List.replicate l a ++ [rx]) c
          (head ++ bs ++ more, cur, c)
      else
        let (i, s) := contextOf q1 q2 q3
        let (bs, rx, c) := encodeSample ty near i (medEdge a b cc) s x c
        let (more, cur, c) := encodeLine ty near w prev fuel rest (cur ++ [rx]) c
        (bs ++ more, cur, c)

/-- Code lines one after the other. -/
def encodeLines (ty near w : Nat) : Option (List Int) → List (List Int) → CodeSt → List Bool
  | _, [], _ => []
  | prev, l :: ls, c =>
    let (bs, rec', c) := encodeLine ty near w prev (w + 1) l [] c
    bs ++ encodeLines ty near w (some rec') ls c

/-- The mask section (R230). -/
def maskBits (m : List (List Bool)) : List Bool := m.flatMap fun l => if l.all id then [true] else false :: l

/-- Bits packed into bytes from the most significant bit. -/
def packMsb : Nat → List Bool → List Nat
  | 0, _ => []
  | n + 1, l => bitsVal ((l.take 8) ++ List.replicate (8 - (l.take 8).length) false) :: packMsb n (l.drop 8)

/-- A raw sample (R239). -/
def rawBits (ty : Nat) (v : Int) : List Bool := msbBits (qBpp ty 0) (ofSigned (qBpp ty 0) v)

/-- A tile's header and body with its length and check filled in (R227, R228). -/
def sealTile (ty near flags w h comp : Nat) (body : List Bool) : List Nat :=
  let n := 16 + 4 * ceilDiv body.length 32
  let head := [1, ty, near, flags] ++ leBytes 2 w ++ leBytes 2 h ++ leBytes 4 n
  let tail := [comp, 0] ++ packMsb (n - 16) body
  head ++ leBytes 2 (crc16 (head ++ tail)) ++ tail

/-- A coded tile: its bytes, the NEAR of its header, and whether it is raw. -/
structure Coded where
  bytes : List Nat
  near : Nat
  raw : Bool
  deriving DecidableEq, Repr

/-- The encoder of the FZ-A128 (R239, R240, R243); `raw` forces the raw path (R249), on which a wholly masked tile too has
`RAW` 1 (DEDUCED: its mask mode is 1 under R243, so its body is empty under R228). -/
def encodeTile (ty near comp : Nat) (raw : Bool) (rows : List (List Int)) (mask : List (List Bool)) : Coded :=
  let h := rows.length
  let w := (rows.headD []).length
  let all := mask.all fun l => l.all id
  let none' := mask.all fun l => l.all fun b => !b
  if none' && h ≠ 0 then ⟨sealTile ty 0 (if raw then 5 else 1) w h comp [], 0, raw⟩
  else
    let mode := if all then 0 else 2
    let m := if all then [] else maskBits mask
    let rawBody := m ++ rows.flatMap fun l => l.flatMap (rawBits ty)
    let body := m ++ encodeLines ty near w none rows CodeSt.start
    if raw || rawBody.length < body.length then ⟨sealTile ty 0 (mode + 4) w h comp rawBody, 0, true⟩
    else ⟨sealTile ty near mode w h comp body, near, false⟩

/-! ### Decoder (R238, R242) -/

/-- A decoded tile: type, NEAR, size, samples and mask, and the bytes it takes. -/
structure Tile where
  ty : Nat
  near : Nat
  w : Nat
  h : Nat
  rows : List (List Int)
  mask : List (List Bool)
  length : Nat
  deriving DecidableEq, Repr

/-- Bits of bytes, most significant first. -/
def byteBits (l : List Nat) : List Bool := l.flatMap (msbBits 8)

/-- Read the mask section of `h` lines of `w` samples. -/
def readMask (w : Nat) : Nat → List Bool → Except Nat (List (List Bool) × List Bool)
  | 0, l => .ok ([], l)
  | n + 1, l =>
    match l with
    | [] => .error 5
    | true :: r =>
      match readMask w n r with
      | .error e => .error e
      | .ok (m, r) => .ok (List.replicate w true :: m, r)
    | false :: r =>
      if r.length < w then .error 5
      else match readMask w n (r.drop w) with
        | .error e => .error e
        | .ok (m, r') => .ok (r.take w :: m, r')

/-- Read one sample in a context. -/
def decodeSample (ty near i : Nat) (p s : Int) (c : CodeSt) (l : List Bool) :
    Except Nat (Int × CodeSt × List Bool) :=
  match readRice (riceK (c.counts ty near i)) (qBpp ty near) l with
  | .error e => .error e
  | .ok (m, r) =>
    if rangeQ ty near ≤ m then .error 4
    else
      let eq := unfoldErr m
      .ok (reconstruct ty near p s eq, c.update ty near i eq.natAbs, r)

/-- Read the rest of a line. -/
def decodeLine (ty near w : Nat) (prev : Option (List Int)) :
    Nat → List Int → CodeSt → List Bool → Except Nat (List Int × CodeSt × List Bool)
  | 0, cur, c, l => .ok (cur, c, l)
  | fuel + 1, cur, c, l =>
    if w ≤ cur.length then .ok (cur, c, l)
    else
      let (a, b, cc, d) := neighbours (tMid ty) prev cur w cur.length
      let q1 := quantGrad ty near (d - b)
      let q2 := quantGrad ty near (b - cc)
      let q3 := quantGrad ty near (cc - a)
      let left := w - cur.length
      if q1 = 0 && q2 = 0 && q3 = 0 then
        match l with
        | [] => .error 5
        | true :: r => .ok (cur ++ List.replicate left a, { c with run := riceUpdate c.run left }, r)
        | false :: r =>
          match readRice (riceK c.run) 8 r with
          | .error e => .error e
          | .ok (n, r) =>
            if left ≤ n then .error 4
            else
              let c := { c with run := riceUpdate c.run n }
              match decodeSample ty near 364 a 1 c r with
              | .error e => .error e
              | .ok (x, c, r) => decodeLine ty near w prev fuel (cur ++ List.replicate n a ++ [x]) c r
      else
        let (i, s) := contextOf q1 q2 q3
        match decodeSample ty near i (medEdge a b cc) s c l with
        | .error e => .error e
        | .ok (x, c, r) => decodeLine ty near w prev fuel (cur ++ [x]) c r

/-- Read lines one after the other; a failure names its check and the line `y`. -/
def decodeLines (ty near w : Nat) : Nat → Nat → Option (List Int) → CodeSt → List Bool →
    Except (Nat × Nat) (List (List Int) × List Bool)
  | 0, _, _, _, l => .ok ([], l)
  | n + 1, y, prev, c, l =>
    match decodeLine ty near w prev (w + 1) [] c l with
    | .error e => .error (e, y)
    | .ok (row, c, l) =>
      match decodeLines ty near w n (y + 1) (some row) c l with
      | .error e => .error e
      | .ok (rows, l) => .ok (row :: rows, l)

/-- Read raw lines (R239). -/
def rawLines (ty w : Nat) : Nat → Nat → List Bool → Except (Nat × Nat) (List (List Int) × List Bool)
  | 0, _, l => .ok ([], l)
  | n + 1, y, l =>
    let b := qBpp ty 0
    if l.length < w * b then .error (5, y)
    else
      let row := (List.range w).map fun x =>
        let v := bitsVal ((l.drop (x * b)).take b)
        if ty = 1 then toSigned 9 v else (v : Int)
      match rawLines ty w n (y + 1) (l.drop (w * b)) with
      | .error e => .error e
      | .ok (rows, l) => .ok (row :: rows, l)

/-- The header checks, in the order of R242: the code of the first that fails. -/
def headerCheck (b : List Nat) : Option Nat :=
  let g := fun i => b.getD i 0
  let n := leAt b 8 4
  let w := leAt b 4 2
  let h := leAt b 6 2
  if b.length < 16 || g 0 ≠ 1 || 2 < g 1 || 16 ≤ g 2 || g 3 % 4 = 3 || 8 ≤ g 3 || w = 0 || 256 < w || h = 0 || 256 < h ||
      g 15 ≠ 0 || n % 4 ≠ 0 || n < 16 || b.length < n then some 1
  else if crc16 (b.take 12 ++ (b.take n).drop 14) ≠ leAt b 12 2 then some 2
  else none

/-- Decode the tile at the front of `b`; `near0` requires NEAR 0 (R238, R242). The error names the check and the line. -/
def decodeTile (near0 : Bool) (b : List Nat) : Except (Nat × Nat) Tile :=
  match headerCheck b with
  | some e => .error (e, 0)
  | none =>
    let ty := b.getD 1 0
    let near := b.getD 2 0
    let mode := b.getD 3 0 % 4
    let raw := (b.getD 3 0).testBit 2
    let w := leAt b 4 2
    let h := leAt b 6 2
    let n := leAt b 8 4
    if near ≠ 0 && (near0 || raw || mode == 1) then .error (7, 0)
    else if mode = 1 then
      if n ≠ 16 then .error (6, 0)
      else .ok ⟨ty, near, w, h, List.replicate h (List.replicate w (tMid ty)), List.replicate h (List.replicate w false), n⟩
    else
      let body := byteBits ((b.take n).drop 16)
      let mask := if mode = 2 then readMask w h body else .ok (List.replicate h (List.replicate w true), body)
      match mask with
      | .error e => .error (e, 0)
      | .ok (m, l) =>
        let res := if raw then rawLines ty w h 0 l else decodeLines ty near w h 0 none CodeSt.start l
        match res with
        | .error e => .error e
        | .ok (rows, l) =>
          if l.any id then .error (6, h - 1) else .ok ⟨ty, near, w, h, rows, m, n⟩

end Sys2Proof.Machine
end

