-- ==== Sys2Proof/Machine/Pixel.lean ====
section
/-! DEFINITION. The arithmetic of a pixel pipe (06_pixel_corrections.md): each stage as a function of the frame's samples
and the bank the frame is bound to. Coordinates are integers, so that a neighbourhood may reach beyond the frame. -/

namespace Sys2Proof.Machine

/-! ### The bank -/

/-- Address of a context bank (R122). -/
def bankBase (ctx b : Nat) : Nat := 0x10000000 + ctx * 0x10000 + b * 0x8000

/-- A little-endian parameter of a bank: `n` bytes at offset `off`. -/
def State.par (s : State) (base off n : Nat) : Nat := s.memLe (base + off) n

/-- An enable bit of byte 16 (R181). -/
def State.enab (s : State) (base k : Nat) : Bool := (s.par base 16 1).testBit k

/-- `MOSAIC` (R154). -/
def State.mosaic (s : State) (base : Nat) : Nat := s.par base 17 1 % 4

/-- Period of a mosaic: 1, 2 or 4 (R153). -/
def period (m : Nat) : Nat := if m = 0 then 1 else if m = 3 then 4 else 2

/-- Rounding of R151: half upward. -/
def roundShift (v : Int) (n : Nat) : Int := (v + (2 ^ (n - 1) : Nat)) / ((2 ^ n : Nat) : Int)

/-- `v` held between 0 and `hi`. -/
def clampTo (hi : Nat) (v : Int) : Nat := min v.toNat hi

/-! ### Samples -/

/-- Bits of a frame's pixels. -/
def Frame.depth (f : Frame) : Nat :=
  match f.dt with
  | 0x2A => 8 | 0x2B => 10 | 0x2C => 12 | 0x2D => 14 | 0x2E => 16 | _ => 20

/-- The line of an exposure, when ingress handed one on. -/
def Frame.line? (f : Frame) (e y : Nat) : Option Line := f.lines.find? fun l => l.exp == e && l.no == y

/-- Raw code of a pixel: the received one, else `FILL` (R78). -/
def Frame.raw (f : Frame) (e x y : Nat) : Nat :=
  let fill := f.fill % 2 ^ f.depth
  match f.line? e y with
  | some l => if x < l.px then l.data.getD x fill else fill
  | none => fill

/-- The sample normalised to 20 bits (R150). -/
def Frame.x20 (f : Frame) (e x y : Nat) : Nat := f.raw e x y * 2 ^ (20 - f.depth)

/-- The row or column that stands for one outside `[0, n)` (R153). -/
def edge (n p : Nat) (y : Int) : Nat :=
  if 0 ≤ y && y < n then y.toNat
  else if y < 0 then
    let r := (y % (p : Int)).toNat
    if r < n then r else 0
  else
    let r := ((n : Int) - 1) - (((n : Int) - 1 - y) % (p : Int))
    if 0 ≤ r then r.toNat else n - 1

/-- Colour of a pattern position: 0 R or Y, 1 G, 2 B, 3 X (R154). -/
def patternColour (m row col : Nat) : Nat :=
  match m with
  | 0 => 0
  | 1 => [[0, 1], [1, 2]].getD row [] |>.getD col 0
  | 2 => [[0, 1], [3, 2]].getD row [] |>.getD col 0
  | _ => [[2, 1, 0, 1], [1, 3, 1, 3], [0, 1, 2, 1], [1, 3, 1, 3]].getD row [] |>.getD col 0

/-- Pattern position of a pixel (R154). -/
def State.sitePos (s : State) (base x y : Nat) : Nat × Nat :=
  let b := s.par base 17 1
  let p := period (b % 4)
  ((y + b / 16 % 4) % p, (x + b / 4 % 4) % p)

/-- Colour at a pixel. -/
def State.siteColour (s : State) (base x y : Nat) : Nat :=
  let p := s.sitePos base x y
  patternColour (s.mosaic base) p.1 p.2

/-- CFA position `q` of a pixel: 4 × row + column (R154). -/
def State.cfa (s : State) (base x y : Nat) : Nat :=
  let p := s.sitePos base x y
  4 * p.1 + p.2

/-! ### Linearise, merge, compand -/

/-- Interpolation between two knots (R155). -/
def linearise (k0 k1 f : Nat) : Nat :=
  ((k0 : Int) + (((k1 : Int) - k0) * f + 2048) / 4096).toNat

/-- The linearised value of an exposure's pixel (R155). -/
def State.lin (s : State) (base : Nat) (f : Frame) (e x y : Nat) : Nat :=
  let v := f.x20 e x y
  if s.enab base 1 then
    let k := fun i => s.par base (0x40 + e * 1028 + 4 * i) 4
    linearise (k (v / 4096)) (k (v / 4096 + 1)) (v % 4096)
  else v

/-- An exposure brought to the scale of exposure 0 (R156). -/
def scaleExp (l ped ratio : Nat) : Nat := ((l - ped) * ratio + 128) / 256

/-- One blend towards a longer exposure (R157): `a` is its trust. -/
def mergeBlend (sv a acc k : Nat) : Nat := (sv * a + acc * (2 ^ k - a) + 2 ^ k / 2) / 2 ^ k

/-- Trust of an exposure (R157). -/
def trust (sat l kw : Nat) : Nat := min (sat - l) kw

/-- `RATIOe` (R156). -/
def State.ratio (s : State) (base e : Nat) : Nat := if e = 0 then 256 else s.par base (0x105A + 2 * (e - 1)) 2

/-- The line of an earlier exposure counts as missing (R158). -/
def Frame.expMissing (f : Frame) (e y : Nat) : Bool :=
  match f.line? e y with
  | some l => l.state == 3
  | none => true

/-- The merged value (R157), from the shortest exposure upward. -/
def State.merged (s : State) (base : Nat) (f : Frame) (x y : Nat) : Nat :=
  let ped := s.par base 0x1050 4
  let sat := s.par base 0x1054 4
  let k := s.par base 0x1058 1
  let sv := fun e => scaleExp (s.lin base f e x y) ped (s.ratio base e)
  (List.range (f.exps - 1)).reverse.foldl
    (fun acc e => mergeBlend (sv e) (if f.expMissing e y then 0 else trust sat (s.lin base f e x y) (2 ^ k)) acc k)
    (sv (f.exps - 1))

/-- Start, output start and shift of a compander segment (R159). -/
def State.segment (s : State) (base j : Nat) : Nat × Nat × Nat :=
  (s.par base (0x1060 + 8 * j) 4, s.par base (0x1064 + 8 * j) 2, s.par base (0x1066 + 8 * j) 1)

/-- The code of a value in a segment, before the clip (R160). -/
def compandIn (seg : Nat × Nat × Nat) (m : Nat) : Nat :=
  seg.2.1 + (m - seg.1 + if seg.2.2 = 0 then 0 else 2 ^ (seg.2.2 - 1)) / 2 ^ seg.2.2

/-- The segment a value lies in: the largest with a start not above it (R160). -/
def State.segmentOf (s : State) (base m : Nat) : Nat × Nat × Nat :=
  ((List.range 8).foldl (fun acc j => if (s.segment base j).1 ≤ m then s.segment base j else acc) (s.segment base 0))

/-- The compander's code before the clip at 65,535. -/
def State.compandRaw (s : State) (base m : Nat) : Nat := compandIn (s.segmentOf base m) m

/-- The order in force for a frame is the classic one (R150, R152). -/
def State.isClassic (s : State) (base : Nat) (f : Frame) : Bool := s.enab base 0 || f.work.classic

/-- Value entering black level (R150). -/
def State.entering (s : State) (base : Nat) (f : Frame) (x y : Nat) : Nat :=
  if s.isClassic base f then f.x20 (f.exps - 1) x y
  else if f.exps = 1 then s.lin base f 0 x y
  else min (s.compandRaw base (s.merged base f x y)) 65535 * 16

/-! ### Black level, defects, shading -/

/-- After black level (R161). -/
def State.black (s : State) (base : Nat) (f : Frame) (x y : Nat) : Nat :=
  let q := s.cfa base x y
  let t := if s.isClassic base f then 0x10E0 else 0x10A0
  s.entering base f x y - s.par base (t + 4 * q) 4

/-- The same at coordinates that may lie outside the frame (R153). -/
def State.blackAt (s : State) (base : Nat) (f : Frame) (x y : Int) : Nat :=
  let p := period (s.mosaic base)
  s.black base f (edge f.width p x) (edge f.height p y)

/-- Offsets of the four nearest same-colour neighbours (R163). -/
def n4 (m colour : Nat) : List (Int × Int) :=
  if m = 0 then [(1, 0), (-1, 0), (0, 1), (0, -1)]
  else if (m = 1 || m = 3) && colour = 1 then [(1, 1), (1, -1), (-1, 1), (-1, -1)]
  else if m = 3 && (colour = 0 || colour = 2) then [(2, 2), (2, -2), (-2, 2), (-2, -2)]
  else [(2, 0), (-2, 0), (0, 2), (0, -2)]

/-- Detection threshold (R164). -/
def dpcThr (abs rel u : Nat) : Nat := abs + u * rel / 256

/-- What defect correction does with a pixel (R164): 0 unchanged, 1 static, 2 dynamic; `kind` is the map's entry. -/
def dpcCase (staticEn dynEn : Bool) (kind : Option Nat) (v abs rel : Nat) (ns : List Nat) : Nat :=
  let n0 := ns.getD 0 0
  let n3 := ns.getD 3 0
  if staticEn && kind = some 1 then 0
  else if staticEn && kind = some 0 then 1
  else if dynEn && decide (n3 + dpcThr abs rel n3 < v) then 2
  else if dynEn && decide (v + dpcThr abs rel n0 < n0) then 2
  else 0

/-- The replacement: the median of four (R164). -/
def dpcValue (ns : List Nat) : Nat := (ns.getD 1 0 + ns.getD 2 0 + 1) / 2

/-- Kind of the static map's entry for a pixel (R162). -/
def State.dpcKind (s : State) (base x y : Nat) : Option Nat :=
  (((List.range (s.par base 20 2)).map fun i => s.par base (0x6000 + 4 * i) 4).find? fun e =>
    e % 2 ^ 14 == x && e / 2 ^ 14 % 2 ^ 16 == y).map (· / 2 ^ 30)

/-- Case and value of a pixel in defect correction. -/
def State.dpc (s : State) (base : Nat) (f : Frame) (x y : Nat) : Nat × Nat :=
  let v := s.black base f x y
  if !s.enab base 2 && !s.enab base 3 then (0, v)
  else
    let ns := (n4 (s.mosaic base) (s.siteColour base x y)).foldl
      (fun l d => sortIn (s.blackAt base f (x + d.1) (y + d.2)) l) []
    let c := dpcCase (s.enab base 2) (s.enab base 3) (s.dpcKind base x y) v (s.par base 0x1120 4) (s.par base 0x1124 1) ns
    (c, if c = 0 then v else dpcValue ns)

/-- Position on the shading grid along one axis: cell and fraction in 1/64 (R165). -/
def gridPos (x n : Nat) : Nat × Nat :=
  let u := if n ≤ 1 then 0 else x * 32 * 65536 / (n - 1)
  let i := min (u / 65536) 31
  (i, (u - i * 65536 + 512) / 1024)

/-- Bilinear gain from four nodes (R166). -/
def lscGain (g00 g10 g01 g11 fx fy : Nat) : Nat :=
  (g00 * (64 - fx) * (64 - fy) + g10 * fx * (64 - fy) + g01 * (64 - fx) * fy + g11 * fx * fy + 2048) / 4096

/-- Value after the gain, before the clip (R166). -/
def lscApply (w g : Nat) : Nat := (w * g + 512) / 1024

/-- Value after shading before its clip; bypassed, the value itself. -/
def State.shadeRaw (s : State) (base : Nat) (f : Frame) (x y : Nat) : Nat :=
  let w := (s.dpc base f x y).2
  if s.enab base 4 then
    let pl := s.par base (0x1128 + s.cfa base x y) 1
    let gx := gridPos x f.width
    let gy := gridPos y f.height
    let node := fun i j => s.par base (0x2000 + pl * 2178 + 2 * (33 * j + i)) 2
    lscApply w (lscGain (node gx.1 gy.1) (node (gx.1 + 1) gy.1) (node gx.1 (gy.1 + 1)) (node (gx.1 + 1) (gy.1 + 1))
      gx.2 gy.2)
  else w

/-- Value entering demosaic (R166). -/
def State.shaded (s : State) (base : Nat) (f : Frame) (x y : Nat) : Nat := min (s.shadeRaw base f x y) (2 ^ 20 - 1)

/-- The same outside the frame. -/
def State.shadedAt (s : State) (base : Nat) (f : Frame) (x y : Int) : Nat :=
  let p := period (s.mosaic base)
  s.shaded base f (edge f.width p x) (edge f.height p y)

/-! ### Colour reconstruction -/

/-- Offsets of a 5 × 5 window, row by row. -/
def window5 : List (Int × Int) :=
  [-2, -1, 0, 1, 2].flatMap fun dy => [-2, -1, 0, 1, 2].map fun dx => ((dx : Int), (dy : Int))

/-- The kernels of R168, rows −2 to +2. -/
def kernelG : List Int := [0, 0, -2, 0, 0, 0, 0, 4, 0, 0, -2, 4, 8, 4, -2, 0, 0, 4, 0, 0, 0, 0, -2, 0, 0]
def kernelH : List Int := [0, 0, 1, 0, 0, 0, -2, 0, -2, 0, -2, 8, 10, 8, -2, 0, -2, 0, -2, 0, 0, 0, 1, 0, 0]
def kernelV : List Int := [0, 0, -2, 0, 0, 0, -2, 8, -2, 0, 1, 0, 10, 0, 1, 0, -2, 8, -2, 0, 0, 0, -2, 0, 0]
def kernelD : List Int := [0, 0, -3, 0, 0, 0, 4, 0, 4, 0, -3, 0, 12, 0, -3, 0, 4, 0, 4, 0, 0, 0, -3, 0, 0]

/-- A kernel over the window's values, scaled by 16 and rounded (R168). -/
def convolve (k : List Int) (w : List Nat) : Int :=
  (((k.zip w).foldl (fun a p => a + p.1 * (p.2 : Int)) 0) + 8) / 16

/-- The kernel that gives colour `c` at a Bayer position, or none where the colour is native (R168). -/
def bayerKernel (row col c : Nat) : Option (List Int) :=
  match row, col, c with
  | 0, 0, 1 => some kernelG
  | 0, 0, 2 => some kernelD
  | 1, 1, 0 => some kernelD
  | 1, 1, 1 => some kernelG
  | 0, 1, 0 => some kernelH
  | 0, 1, 2 => some kernelV
  | 1, 0, 0 => some kernelV
  | 1, 0, 2 => some kernelH
  | _, _, _ => none

/-- Squared distance of an offset. -/
def dist2 (d : Int × Int) : Nat := (d.1 * d.1 + d.2 * d.2).toNat

/-- Integer mean (R151). -/
def meanOf (l : List Nat) : Nat := (l.foldl (· + ·) 0 + l.length / 2) / l.length

/-- Mean of the nearest samples of a colour in the window (R169). -/
def State.nearestMean (s : State) (base : Nat) (f : Frame) (x y c : Nat) : Nat :=
  let p := period (s.mosaic base)
  let hits := window5.filter fun d =>
    s.siteColour base (edge f.width p (x + d.1)) (edge f.height p (y + d.2)) == c
  let m := hits.foldl (fun m d => min m (dist2 d)) 99
  meanOf ((hits.filter fun d => dist2 d == m).map fun d => s.shadedAt base f (x + d.1) (y + d.2))

/-- A plane after demosaic before the clamp (R168, R169). -/
def State.planeRaw (s : State) (base : Nat) (f : Frame) (x y c : Nat) : Int :=
  let own := s.siteColour base x y
  if s.mosaic base = 0 || own = c then (s.shaded base f x y : Int)
  else if s.mosaic base = 1 then
    let p := s.sitePos base x y
    match bayerKernel p.1 p.2 c with
    | some k => convolve k (window5.map fun d => s.shadedAt base f (x + d.1) (y + d.2))
    | none => (s.shaded base f x y : Int)
  else (s.nearestMean base f x y c : Int)

/-- A plane after demosaic. -/
def State.plane (s : State) (base : Nat) (f : Frame) (x y c : Nat) : Nat :=
  clampTo (2 ^ 20 - 1) (s.planeRaw base f x y c)

/-- Planes a mosaic produces (R154). -/
def planeCount (m : Nat) : Nat := if m = 0 then 1 else if m = 1 then 3 else 4

/-- IR subtraction before its clamp (R170). -/
def irSub (p k ir : Nat) : Int := (p : Int) - ((k * ir + 2048) / 4096 : Nat)

/-- A plane after IR subtraction. -/
def State.afterIr (s : State) (base : Nat) (f : Frame) (x y c : Nat) : Nat :=
  let v := s.plane base f x y c
  if s.enab base 6 && s.mosaic base = 3 && c < 3 then
    (irSub v (s.par base (0x1138 + 2 * c) 2) (s.plane base f x y 3)).toNat
  else v

/-- A row of the colour matrix on a pixel before the clamp (R171). -/
def matrixRow (c0 c1 c2 c3 : Int) (r g b x : Nat) : Int := (c0 * r + c1 * g + c2 * b + c3 * x + 2048) / 4096

/-- A plane after the colour matrix, before its clamp. -/
def State.ccmRaw (s : State) (base : Nat) (f : Frame) (x y c : Nat) : Int :=
  let m := s.mosaic base
  let v := fun c => s.afterIr base f x y c
  let k := fun i => toSigned 16 (s.par base (0x1140 + 2 * i) 2)
  if !s.enab base 5 || c = 3 then (v c : Int)
  else if m = 0 then matrixRow (k 0) 0 0 0 (v 0) 0 0 0
  else matrixRow (k (4 * c)) (k (4 * c + 1)) (k (4 * c + 2)) (k (4 * c + 3)) (v 0) (v 1) (v 2) (if m = 1 then 0 else v 3)

/-- Output of a plane as u16 (R172). -/
def outValue (v : Nat) : Nat := min ((v + 8) / 16) 65535

/-- A plane of a pixel as it leaves the pipe. -/
def State.outPlane (s : State) (base : Nat) (f : Frame) (x y c : Nat) : Nat :=
  outValue (clampTo (2 ^ 20 - 1) (s.ccmRaw base f x y c))

/-! ### Counters of a row (R540) -/

/-- How many of the pixels of row `y` meet a condition. -/
def countRow (w y : Nat) (p : Nat → Nat → Nat) : Nat := (List.range w).foldl (fun a x => a + p x y) 0

/-- Counts of the stage counters for row `y`: static, dynamic, merge miss, compander, shading, demosaic, IR, matrix. -/
def State.rowCounts (s : State) (base : Nat) (f : Frame) (y : Nat) : List Nat :=
  let w := f.width
  let m := s.mosaic base
  let cls := s.isClassic base f
  let pl := List.range (planeCount m)
  [ countRow w y fun x y => if (s.dpc base f x y).1 = 1 then 1 else 0,
    countRow w y fun x y => if (s.dpc base f x y).1 = 2 then 1 else 0,
    if cls then 0 else ((List.range (f.exps - 1)).filter fun e => f.expMissing e y).length,
    if cls || f.exps = 1 then 0
      else countRow w y fun x y => if 65535 < s.compandRaw base (s.merged base f x y) then 1 else 0,
    countRow w y fun x y => if 2 ^ 20 - 1 < s.shadeRaw base f x y then 1 else 0,
    if m = 1 then countRow w y fun x y =>
      (pl.filter fun c => s.planeRaw base f x y c < 0 || 2 ^ 20 - 1 < s.planeRaw base f x y c).length else 0,
    if s.enab base 6 && m = 3 then countRow w y fun x y => ([0, 1, 2].filter fun c =>
      irSub (s.plane base f x y c) (s.par base (0x1138 + 2 * c) 2) (s.plane base f x y 3) < 0).length else 0,
    if s.enab base 5 then countRow w y fun x y => (pl.filter fun c =>
      c != 3 && (s.ccmRaw base f x y c < 0 || 2 ^ 20 - 1 < s.ccmRaw base f x y c)).length else 0 ]

/-! ### Regions and stage checks -/

/-- A region record (R173): X0, Y0, width, height, destination, planes, stream. -/
structure Roi where
  x0 : Nat
  y0 : Nat
  w : Nat
  h : Nat
  dest : Nat
  planes : Nat
  stream : Nat
  deriving DecidableEq, Repr

/-- Region `i` of a bank. -/
def State.roi (s : State) (base i : Nat) : Roi :=
  let g := fun o n => s.par base (0x1190 + 16 * i + o) n
  ⟨g 0 2, g 2 2, g 4 2, g 6 2, g 8 1, g 9 1, g 10 2⟩

/-- The regions of a bank. -/
def State.rois (s : State) (base : Nat) : List Roi := (List.range (s.par base 18 1)).map (s.roi base)

/-- Columns of a region inside a frame (R174). -/
def Roi.cols (r : Roi) (f : Frame) : List Nat := (List.range (min r.w (f.width - r.x0))).map (r.x0 + ·)

/-- A row of the frame lies in the region's intersection with it (R174). -/
def Roi.hasRow (r : Roi) (f : Frame) (y : Nat) : Bool :=
  decide (r.y0 ≤ y) && decide (y < r.y0 + r.h) && decide (y < f.height) && decide (r.x0 < f.width)

/-- The samples of a region's row, plane by plane in the order R, G, B, X. -/
def State.roiRow (s : State) (base : Nat) (f : Frame) (r : Roi) (y : Nat) : List (List Nat) :=
  ([0, 1, 2, 3].filter fun c => r.planes.testBit c).map fun c => (r.cols f).map fun x => s.outPlane base f x y c

/-- All bytes of a range of the bank are 0. -/
def State.zeros (s : State) (base off n : Nat) : Bool := (s.memBytes (base + off) n).all (· == 0)

/-- Consecutive entries of a list meet a relation. -/
def adjacent (p : Nat → Nat → Bool) : List Nat → Bool
  | a :: b :: r => p a b && adjacent p (b :: r)
  | _ => true

/-- The compander's conditions (R159). -/
def State.compandOk (s : State) (base : Nat) : Bool :=
  let x := fun j => (s.segment base j).1
  let y := fun j => (s.segment base j).2.1
  let sh := fun j => (s.segment base j).2.2
  x 0 == 0 && y 0 == 0 && (List.range 8).all (fun j => decide (sh j ≤ 12) && decide (x j < 2 ^ 28)) &&
    (List.range 7).all (fun j => decide (x j < x (j + 1)) && (x (j + 1) - x j) % 2 ^ sh j == 0 &&
      y (j + 1) == y j + (x (j + 1) - x j) / 2 ^ sh j)

/-- A region record is admissible (R173, R174, R181). -/
def State.roiOk (s : State) (base i : Nat) : Bool :=
  let r := s.roi base i
  let m := s.mosaic base
  let allowed := (if m = 0 then 1 else 7) + (if (s.par base 17 1).testBit 6 then 8 else 0)
  let colour := if m = 0 then 1 else 7
  decide (1 ≤ r.w) && decide (1 ≤ r.h) && decide (1 ≤ r.dest) && decide (r.dest ≤ 3) && r.planes &&& allowed == r.planes &&
    (r.dest.testBit 1 || r.stream == 0) && (!r.dest.testBit 0 || r.planes &&& colour == colour) &&
    s.zeros base (0x1190 + 16 * i + 12) 4

/-- The tap fields are admissible (R182). -/
def State.tapOk (s : State) (base : Nat) : Bool :=
  let pt := s.par base 0x1290 1
  let dest := s.par base 0x1291 1
  let addr := s.par base 0x1298 8
  let stride := s.par base 0x12A0 4
  let slots := s.par base 0x12A4 2
  decide (pt ≤ 6) && (pt == 0 ||
    ((dest == 1 || dest == 2) && decide (1 ≤ s.par base 0x1294 2) &&
     (pt != 6 || decide (s.par base 0x1292 1 < s.par base 18 1)) &&
     (dest != 2 || (addr % 64 == 0 && stride % 64 == 0 && decide (1 ≤ slots) && decide (0x1000000000 ≤ addr) &&
       decide (addr + slots * stride ≤ 0x2000000000)))))

/-- The stage checks of `GO` (R182). -/
def State.stageOk (s : State) (base : Nat) : Bool :=
  let b17 := s.par base 17 1
  let m := b17 % 4
  let p := period m
  let u20 := fun off => decide (s.par base off 4 < 2 ^ 20)
  decide (b17 / 4 % 4 < p) && decide (b17 / 16 % 4 < p) && (!b17.testBit 6 || m == 2 || m == 3) &&
    (!s.enab base 6 || m == 3) &&
    (List.range 1028).all (fun i => u20 (0x40 + 4 * i)) && u20 0x1050 && u20 0x1054 &&
    (List.range 32).all (fun i => u20 (0x10A0 + 4 * i)) && u20 0x1120 &&
    decide (s.par base 0x1058 1 ≤ 16) && decide (0x100 ≤ s.ratio base 1) &&
    decide (s.ratio base 1 ≤ s.ratio base 2) && decide (s.ratio base 2 ≤ s.ratio base 3) && s.compandOk base &&
    decide (s.par base 20 2 ≤ 2048) &&
    (let es := (List.range (s.par base 20 2)).map fun i => s.par base (0x6000 + 4 * i) 4
     es.all (fun e => decide (e / 2 ^ 30 ≤ 1)) && adjacent (fun a b => decide (a % 2 ^ 30 < b % 2 ^ 30)) es) &&
    (List.range 4356).all (fun i => decide (s.par base (0x2000 + 2 * i) 2 ≤ 4095)) &&
    (List.range 16).all (fun q => decide (s.par base (0x1128 + q) 1 ≤ 3) && (m != 0 || s.par base (0x1128 + q) 1 == 0)) &&
    decide (s.par base 18 1 ≤ 16) && (List.range (s.par base 18 1)).all (s.roiOk base) &&
    decide (((s.rois base).filter fun r => r.dest.testBit 0).length ≤ 1) && s.tapOk base &&
    !(s.enab base 7) && !b17.testBit 7 &&
    (List.range 8).all (fun j => s.zeros base (0x1067 + 8 * j) 1) &&
    [(19, 1), (22, 42), (0x1059, 1), (0x1125, 3), (0x113E, 2), (0x1158, 56), (0x1293, 1), (0x12A6, 10), (0x12B0, 3408),
     (0x4208, 7672)].all (fun z => s.zeros base z.1 z.2)

/-! ### Packed lines -/

/-- Pixels and bytes of a pixel group of a pixel data type (R74). -/
def dtGroup : Nat → Option (Nat × Nat)
  | 0x2A => some (1, 1)
  | 0x2B => some (4, 5)
  | 0x2C => some (2, 3)
  | 0x2D => some (4, 7)
  | 0x2E => some (1, 2)
  | 0x2F => some (2, 5)
  | _ => none

/-- Bits of a pixel of a data type. -/
def dtBits : Nat → Nat
  | 0x2A => 8
  | 0x2B => 10
  | 0x2C => 12
  | 0x2D => 14
  | 0x2E => 16
  | _ => 20

/-- The pixels of one whole group (R538): CSI-2's packing for RAW8 to RAW16 is the standard's (PRESUMED), RAW20's is
given. -/
def unpackGroup (dt : Nat) (b : List Nat) : List Nat :=
  let g := fun i => b.getD i 0
  match dt with
  | 0x2A => [g 0]
  | 0x2B => [0, 1, 2, 3].map fun i => g i * 4 + bits (g 4) (2 * i) 2
  | 0x2C => [g 0 * 16 + bits (g 2) 0 4, g 1 * 16 + bits (g 2) 4 4]
  | 0x2D =>
    let low := g 4 + 256 * g 5 + 65536 * g 6
    [0, 1, 2, 3].map fun i => g i * 64 + bits low (6 * i) 6
  | 0x2E => [g 0 + 256 * g 1]
  | _ => [g 0 * 4096 + g 1 * 16 + bits (g 4) 0 4, g 2 * 4096 + g 3 * 16 + bits (g 4) 4 4]

/-- The pixels of the first `n` whole groups of a payload (R78: a pixel counts only within a whole group). -/
def unpackGroups (dt gb : Nat) : Nat → List Nat → List Nat
  | 0, _ => []
  | n + 1, b => unpackGroup dt (b.take gb) ++ unpackGroups dt gb n (b.drop gb)

/-- The pixels of a payload. -/
def unpack (dt : Nat) (b : List Nat) : List Nat :=
  match dtGroup dt with
  | some (_, gb) => unpackGroups dt gb (b.length / gb) b
  | none => []

/-- Payload bytes of a line of `w` pixels. -/
def lineBytes (dt w : Nat) : Nat :=
  match dtGroup dt with
  | some (gp, gb) => w / gp * gb
  | none => 0

/-- Pack the pixels of a line as its data type packs them (R89, R538): the inverse of unpacking, group by group. -/
def packLine (dt : Nat) (fuel : Nat) (px : List Nat) : List Nat :=
  match fuel with
  | 0 => []
  | fuel + 1 =>
    match px with
    | [] => []
    | _ =>
      let p := fun i => px.getD i 0
      match dt with
      | 0x2A => p 0 :: packLine dt fuel (px.drop 1)
      | 0x2B => [p 0 / 4, p 1 / 4, p 2 / 4, p 3 / 4, p 0 % 4 + p 1 % 4 * 4 + p 2 % 4 * 16 + p 3 % 4 * 64] ++
          packLine dt fuel (px.drop 4)
      | 0x2C => [p 0 / 16, p 1 / 16, p 0 % 16 + p 1 % 16 * 16] ++ packLine dt fuel (px.drop 2)
      | 0x2D =>
        let low := p 0 % 64 + p 1 % 64 * 64 + p 2 % 64 * 4096 + p 3 % 64 * 262144
        [p 0 / 64, p 1 / 64, p 2 / 64, p 3 / 64] ++ leBytes 3 low ++ packLine dt fuel (px.drop 4)
      | 0x2E => leBytes 2 (p 0) ++ packLine dt fuel (px.drop 1)
      | _ => [p 0 / 4096, p 0 / 16 % 256, p 1 / 4096, p 1 / 16 % 256, p 0 % 16 + p 1 % 16 * 16] ++
          packLine dt fuel (px.drop 2)

/-! ### Taps -/

/-- The bytes a tap copies for row `y` of exposure `e` (R175). -/
def State.tapLine (s : State) (base : Nat) (f : Frame) (pt e y : Nat) : List Nat :=
  let xs := List.range f.width
  match pt with
  | 1 => packLine f.dt f.width (xs.map fun x => f.raw e x y)
  | 2 => xs.flatMap fun x => leBytes 3 (if s.isClassic base f then f.x20 e x y else s.lin base f e x y)
  | 3 => xs.flatMap fun x => leBytes 3 (s.entering base f x y)
  | 4 => xs.flatMap fun x => leBytes 3 (s.shaded base f x y)
  | 5 => xs.flatMap fun x => (List.range (planeCount (s.mosaic base))).flatMap fun c => leBytes 3 (s.plane base f x y c)
  | _ =>
    let r := s.roi base (s.par base 0x1292 1)
    if r.hasRow f y then
      (r.cols f).flatMap fun x => ([0, 1, 2, 3].filter fun c => r.planes.testBit c).flatMap fun c =>
        leBytes 2 (s.outPlane base f x y c)
    else []

end Sys2Proof.Machine
end

