-- ==== Sys2Proof/Machine/EgrOps.lean ====
section
/-! DEFINITION. Shared operations of egress (10_egress_delivery.md): class queues, drop records and dropped-before counts,
offers, late errors, and messages on control queue pairs. -/

namespace Sys2Proof.Machine

/-! ### Streams, classes, ports -/

/-- Queue pair and port of a stream. -/
def State.strQp (s : State) (st : Nat) : Nat := s.get .EGR_STR_CFG_QP st
def State.strPort (s : State) (st : Nat) : Nat := s.get .EGR_QP_CFG_PORT (s.strQp st)

/-- Class of a kind (R255): 0 A, 1 B, 2 C. -/
def kindClass (kind : Nat) : Nat := if kind = 4 || kind = 5 then 1 else if kind = 6 then 2 else 0

/-- Size of a class queue in bytes (R268). -/
def State.classSize (s : State) (p cls : Nat) : Nat :=
  (if cls = 0 then s.get .EGR_CLASS_SIZE_SIZE_A p else if cls = 1 then s.get .EGR_CLASS_SIZE_SIZE_B p
    else s.get .EGR_CLASS_SIZE_SIZE_C p) * 2 ^ 20

/-- Bytes a delivery holds in its class queue, those reserved for it among them (R269, R271). -/
def Delivery.held (d : Delivery) : Nat := extSize d.ext

/-- Bytes held in a class queue (R269). -/
def State.classHeld (s : State) (p cls : Nat) : Nat :=
  (s.egr.queue.filter fun d => d.port == p && d.cls == cls).foldl (fun a d => a + d.held) 0

/-- The part of the retry buffer that a class queue takes (R268). DESIGN CHOICE: the queues lie port after port, A, B and C
of each, from `EGR_RETRY_BASE` on. -/
def State.classPart (s : State) (p cls : Nat) : Nat × Nat :=
  let base := s.get .EGR_RETRY_BASE
  let stop := base + s.get .EGR_RETRY_SIZE_SIZE_MIB * 2 ^ 20
  let before := ((List.range p).flatMap fun i => [0, 1, 2].map fun c => (i, c)) ++ (List.range cls).map fun c => (p, c)
  let lo := before.foldl (fun a q => a + s.classSize q.1 q.2) base
  (lo, min stop (lo + s.classSize p cls))

/-- Stretches of a class queue for `n` bytes. -/
def State.reserve (s : State) (p cls n : Nat) : List (Nat × Nat) :=
  let q := s.classPart p cls
  placeExt q.1 q.2 n ((s.egr.queue.filter fun d => d.port == p && d.cls == cls).flatMap (·.ext))

/-- A class queue can reserve `n` bytes (R271). -/
def State.canReserve (s : State) (p cls n : Nat) : Bool := extSize (s.reserve p cls n) == n

/-- The fill F of a class queue, in 1/64 (R269). -/
def State.classFill (s : State) (p cls : Nat) : Nat :=
  if s.classSize p cls = 0 then 64 else min 64 (64 * s.classHeld p cls / s.classSize p cls)

/-- Event of a stream: 0 DROP, 1 RING_FULL, 2 CONS_BAD (R278). -/
def State.strEvent (s : State) (st bit dseq cause : Nat) : State :=
  s.sticky .EGR_STR_STATUS_EV st bit .EGR_EVENT_EN_STR 0 bit 0x0040 st (0x0021 + bit) (argAt 16 dseq + argAt 20 cause)

/-! ### The order of frames (R274) -/

/-- A frame's FS, or a blanket's opening, is accepted. -/
def State.frameAccepted (s : State) (source seq : Nat) : State :=
  { s with egr := { s.egr with order := s.egr.order ++ [(source, seq)] } }

/-- Place of a frame in that order. -/
def State.frameOrd (s : State) (source seq : Nat) : Nat := s.egr.order.idxOf (source, seq)

/-- Frame `b` follows frame `a` (R274). -/
def State.follows (s : State) (a b : Nat × Nat) : Bool :=
  if a.1 = b.1 then decide (a.2 < b.2) else decide (s.frameOrd a.1 a.2 < s.frameOrd b.1 b.2)

/-! ### Counts of a frame on a stream -/

/-- What the engine keeps of a frame on a stream. -/
def State.strFrame (s : State) (st source fseq : Nat) : Option StrFrame :=
  s.egr.frames.find? fun f => f.stream == st && f.source == source && f.fseq == fseq

/-- Change it, or begin it. -/
def State.onStrFrame (s : State) (st source fseq : Nat) (g : StrFrame → StrFrame) : State :=
  match s.strFrame st source fseq with
  | some _ => { s with egr := { s.egr with
      frames := s.egr.frames.map fun f => if f.stream == st && f.source == source && f.fseq == fseq then g f else f } }
  | none => { s with egr := { s.egr with frames := s.egr.frames ++ [g ⟨st, source, fseq, 0, 0, 0, 0, false⟩] } }

/-- `n` refused whole frames, the last of them this one, add to the count of the first delivery queued on the stream whose
frame follows it, with the other deliveries of that frame; or else to the stream's carry (R274). -/
def State.countDropped (s : State) (st source fseq n : Nat) : State :=
  let hit := s.egr.queue.find? fun d => d.o.stream == st && !d.finished && s.follows (source, fseq) (d.o.source, d.o.fseq)
  match hit with
  | some d =>
    let up := fun (e : Delivery) => if e.o.stream == st && e.o.source == d.o.source && e.o.fseq == d.o.fseq then
      { e with before := min (e.before + n) 0xFFFF } else e
    ({ s with egr := { s.egr with queue := s.egr.queue.map up } } : State).onStrFrame st d.o.source d.o.fseq fun f =>
      { f with before := min (f.before + n) 0xFFFF }
  | none =>
    let last := tabGet s.egr.carried st (source, fseq)
    let latest := if s.follows last (source, fseq) then (source, fseq) else last
    ({ s with egr := { s.egr with carried := tabPut s.egr.carried st latest } } : State).add .EGR_STR_STATUS_CARRY st n

/-! ### Drop records (R273) -/

/-- The 32 bytes of a drop record. -/
def dropRecord (time stream source seq dseq cause cls row col bytes : Nat) : List Nat :=
  leBytes 8 time ++ leBytes 2 stream ++ leBytes 2 source ++ leBytes 4 seq ++ leBytes 4 dseq ++ [cause, cls] ++
    leBytes 2 row ++ leBytes 2 col ++ [0, 0] ++ leBytes 4 bytes

/-- An offer of one drop record on a drop stream. -/
def dropOffer (st source seq : Nat) (r : List Nat) : Offer :=
  ⟨st, 7, source, seq, ⟨st, source, seq, 0, 0, 0, 0, 0, 0, 0⟩, r, false, 0, 0, 0xFFFF, 0xFFFF, 0, 0, 32,
    false, 0⟩

/-- Ports whose drop stream takes a record of stream `st`: its own port, every port for stream 0 (R133, R273). -/
def State.dropPorts (s : State) (st : Nat) : List Nat :=
  (if st = 0 then List.range 8 else [s.strPort st]).filter fun p => s.get .EGR_DROP_STREAM p != 0

/-- A drop record enters the log, or is lost when it is full (R273). -/
def State.logDrop (s : State) (r : List Nat) (dseq cause : Nat) : State :=
  if s.egr.drops.length < 256 then { s with egr := { s.egr with drops := s.egr.drops ++ [r] } }
  else (s.inc .EGR_H_DROP_LOST).sticky .EGR_DROP_STATUS_OVF 0 0 .EGR_EVENT_EN_LOG 0 0 0x0040 0xFFFF 0x0031
    (argAt 16 dseq + argAt 20 cause)

/-- Class byte of a drop record: the class of the stream's kind; 0xFF where the record names no stream (R255, R273). -/
def State.strClass (s : State) (st : Nat) : Nat := if st = 0 then 0xFF else kindClass (s.get .EGR_STR_CFG_KIND st)

/-- A refusal on a stream: its record is logged and delivered on the drop stream, `DROP` sets, and a whole frame counts in
dropped-before (R273, R274). `whole` says that the whole frame is lost. -/
def State.drop (s : State) (st source seq dseq cause row col bytes : Nat) (whole : Bool) : State :=
  let r := dropRecord s.now st source seq dseq cause (s.strClass st) row col bytes
  let shown := if dseq = 0xFFFFFFFF then 0 else dseq
  let s := s.logDrop r shown cause
  let s := if st = 0 then s else s.strEvent st 0 shown cause
  let s := if dseq = 0xFFFFFFFF then s else s.inc .EGR_STR_CNT_DROP st
  let more := (s.dropPorts st).map fun p => dropOffer (s.get .EGR_DROP_STREAM p) source seq r
  let s : State := { s with egr := { s.egr with offers := s.egr.offers ++ more } }
  if whole && st ≠ 0 then s.countDropped st source seq 1 else s

/-! ### Offers -/

/-- Something reaches egress. -/
def State.offer (s : State) (o : Offer) : State := { s with egr := { s.egr with offers := s.egr.offers ++ [o] } }

/-- A sample of a region delivery in the stream's format (R256). -/
def roiSample (format v : Nat) : List Nat := if format = 1 then [min ((v + 128) / 256) 255] else leBytes 2 v

/-- Planes of a region. -/
def Roi.planeCount (r : Roi) : Nat := ([0, 1, 2, 3].filter fun c => r.planes.testBit c).length

/-- The rows of a frame that a region delivery carries. -/
def Roi.rowsIn (r : Roi) (f : Frame) : List Nat := (List.range f.height).filter fun y => r.hasRow f y

/-- Bytes of a row of a region delivery. -/
def Roi.rowSize (r : Roi) (f : Frame) (format : Nat) : Nat := (r.cols f).length * r.planeCount * (2 - format)

/-- A row of a region delivery: planes interleaved, 0 where its stripe was lost (R256). -/
def Roi.rowBytes (r : Roi) (f : Frame) (format : Nat) (planes : List (List Nat)) : List Nat :=
  if planes.isEmpty then List.replicate (r.rowSize f format) 0
  else (List.range (r.cols f).length).flatMap fun x => planes.flatMap fun p => roiSample format (p.getD x 0)

/-- The rows of region `i` of a frame that have left the pipes and wait. -/
def State.roiWaiting (s : State) (f : Frame) (i : Nat) : List RoiRow :=
  s.pipe.toEgress.filter fun q => q.ch == f.ch && q.seq == f.tag.seq && q.roi == i

/-- The payload of a region delivery none of whose bytes egress has taken: rows in order (R256). -/
def State.roiPayload (s : State) (f : Frame) (r : Roi) (i format : Nat) : List Nat :=
  (r.rowsIn f).flatMap fun y =>
    r.rowBytes f format (match (s.roiWaiting f i).find? fun q => q.y == y with | some q => q.planes | none => [])

/-- The delivery of a region of a frame: its offer or itself. -/
def Offer.isRoi (o : Offer) (f : Frame) (stream i : Nat) : Bool :=
  o.kind == 4 && o.stream == stream && o.source == f.ch && o.fseq == f.tag.seq && o.id == i

/-- The offer of a region of a frame, from its first row on (R256, R271). -/
def State.roiOffer (s : State) (f : Frame) (r : Roi) (i : Nat) (pl : List Nat) (open' : Bool) : Offer :=
  let fmt := s.get .EGR_STR_CFG_FORMAT r.stream
  Offer.mk r.stream 4 f.ch f.tag.seq f.tag pl false 0 r.planeCount 0xFFFF 0xFFFF (r.cols f).length (min r.h (f.height - r.y0))
    ((r.rowsIn f).length * r.rowSize f fmt) open' i

/-- Bytes enter a delivery's stretches, `off` bytes from the start of its payload. -/
def State.imageWrite (s : State) (d : Delivery) (off : Nat) (l : List Nat) : State :=
  s.extWrite l (subExt (off - d.gone) l.length d.ext)

/-- Change the delivery `dseq` of stream `st`. -/
def State.onDelivery (s : State) (st dseq : Nat) (g : Delivery → Delivery) : State :=
  { s with egr := { s.egr with queue := s.egr.queue.map fun d => if d.o.stream == st && d.dseq == dseq then g d else d } }

/-- Rows of a region that have left the pipes pass on (R256, R268): the first makes the offer, later ones wait until egress
takes it on, enter its queue, or are discarded where it was refused (R271). -/
def State.roiFlow (s : State) (base : Nat) (f : Frame) (i : Nat) : State :=
  let r := s.roi base i
  let key := (f.ch, f.tag.seq, i)
  let rows := s.roiWaiting f i
  if rows.isEmpty || !r.dest.testBit 1 then s
  else if !s.pipe.offered.contains key then
    { s with pipe := { s.pipe with offered := s.pipe.offered ++ [key] },
             egr := { s.egr with offers := s.egr.offers ++ [s.roiOffer f r i [] true] } }
  else if s.egr.offers.any fun o => o.isRoi f r.stream i then s
  else
    let gone (s : State) : State := { s with pipe := { s.pipe with
      toEgress := s.pipe.toEgress.filter fun q => !(q.ch == f.ch && q.seq == f.tag.seq && q.roi == i) } }
    match s.egr.queue.find? fun d => d.o.isRoi f r.stream i with
    | none => gone s
    | some d =>
      let fmt := s.get .EGR_STR_CFG_FORMAT r.stream
      let s := rows.foldl (fun s q => s.imageWrite d ((q.y - r.y0) * d.unit) (r.rowBytes f fmt q.planes)) s
      gone (s.onDelivery r.stream d.dseq fun d => { d with rows := d.rows ++ rows.map (·.y - r.y0) })

/-- Rows of every region of a frame pass on. -/
def State.roiFlows (s : State) (base : Nat) (f : Frame) : State :=
  (List.range (s.par base 18 1)).foldl (fun s i => s.roiFlow base f i) s

/-- A frame has left the pipes: the delivery of a region is complete, with its final tag (R256). -/
def State.roiClose (s : State) (base : Nat) (f : Frame) (i : Nat) : State :=
  let r := s.roi base i
  let key := (f.ch, f.tag.seq, i)
  let whole := s.roiOffer f r i (s.roiPayload f r i (s.get .EGR_STR_CFG_FORMAT r.stream)) false
  let sent := s.pipe.offered.contains key
  let s : State := { s with pipe := { s.pipe with
    toEgress := s.pipe.toEgress.filter fun q => !(q.ch == f.ch && q.seq == f.tag.seq && q.roi == i)
    offered := s.pipe.offered.filter (· != key) } }
  if !r.dest.testBit 1 || (r.rowsIn f).isEmpty then s
  else if !sent then { s with egr := { s.egr with offers := s.egr.offers ++ [whole] } }
  else { s with egr := { s.egr with
    offers := s.egr.offers.map fun o => if o.isRoi f r.stream i then whole else o
    queue := s.egr.queue.map fun d =>
      if d.o.isRoi f r.stream i then { d with o := { d.o with tag := f.tag, open' := false } } else d } }

/-- A frame has left the pipes: its region deliveries are complete, and its tap records are offered to egress (R255,
R256). -/
def State.roiOffers (s : State) (f : Frame) : State :=
  match f.work.bank with
  | none => s
  | some b =>
    let base := bankBase f.ch b
    let s := (List.range (s.par base 18 1)).foldl (fun s i => s.roiClose base f i) s
    let taps := (s.pipe.tapDone.filter fun t => t.ch == f.ch && t.seq == f.tag.seq).map fun t =>
      Offer.mk t.stream 5 t.ch t.seq t.tag t.bytes false 0 1 0xFFFF 0xFFFF (leAt t.bytes 32 2) (leAt t.bytes 34 2)
        t.bytes.length false 0
    { s with
      pipe := { s.pipe with tapDone := s.pipe.tapDone.filter fun t => !(t.ch == f.ch && t.seq == f.tag.seq) },
      egr := { s.egr with offers := s.egr.offers ++ taps } }

/-! ### Late errors (R265) -/

/-- A late-error entry enters its log, or is refused when the log is full. -/
def State.lateError (s : State) (q st dseq psn cause : Nat) : State :=
  let e := leBytes 8 s.now ++ leBytes 2 q ++ leBytes 2 st ++ leBytes 4 dseq ++ leBytes 3 psn ++ [cause,
    s.get .EGR_QP_STATUS_SYNDROME q] ++ List.replicate 11 0
  let s := s.sticky .EGR_H_LATE_ERR 0 0 .EGR_EVENT_EN_LOG 0 1 0x0040 0xFFFF 0x0032 (argAt 16 dseq + argAt 20 cause)
  if s.egr.late.length < 256 then { s with egr := { s.egr with late := s.egr.late ++ [e] } }
  else (s.inc .EGR_H_LATE_LOST).set .EGR_LATE_STATUS_OVF 0 1

/-! ### Queue pairs -/

/-- The port rate in MB/s (R252). -/
def State.portRate (s : State) : Nat :=
  match s.get .EGR_H_MODE with
  | 0 => 50000 | 1 => 25000 | 2 => 12500 | _ => 6250

/-- Ports of the port mode (R252). -/
def State.portCount (s : State) : Nat := 2 ^ s.get .EGR_H_MODE

/-- Queue pairs of a port that are RTS (R254). -/
def State.portQps (s : State) (p : Nat) : List Nat :=
  (List.range 256).filter fun q => s.get .EGR_QP_STATUS_STATE q == 1 && s.get .EGR_QP_CFG_PORT q == p

/-- MTU of a queue pair in bytes. -/
def State.qpMtu (s : State) (q : Nat) : Nat := 1024 * 2 ^ s.get .EGR_QP_CFG_MTU q

/-- A queue pair's destination address is IPv6. -/
def State.qpIpv6 (s : State) (q : Nat) : Bool :=
  s.get .EGR_QP_IP0_IP q != 0 || s.get .EGR_QP_IP1_IP q != 0 || s.get .EGR_QP_IP2_IP q != 0

/-- The MTU that the usable rate of a port takes (R254). -/
def State.portMtu (s : State) (p : Nat) : Nat :=
  match (s.portQps p).map s.qpMtu with
  | [] => 4096
  | a :: r => r.foldl min a

/-- The overhead H of a port (R254). -/
def State.portOverhead (s : State) (p : Nat) : Nat :=
  98 + (if (s.portQps p).any s.qpIpv6 then 20 else 0) + (if s.on .EGR_PORT_VLAN_VLAN_EN p then 4 else 0)

/-- The usable rate U of a port in MB/s, as numerator and denominator (R254). -/
def State.portUsable (s : State) (p : Nat) : Nat × Nat :=
  (s.portRate * s.portMtu p, s.portMtu p + s.portOverhead p)

/-- What counts as lost with a class B delivery that is refused or cut off (R264, R274): its frame, and the count it held,
unless another delivery of its frame shows that. -/
def State.countLost (s : State) (d : Delivery) : State :=
  let o := d.o
  let shown := s.egr.queue.any (fun e => e.o.stream == o.stream && e.o.source == o.source && e.o.fseq == o.fseq &&
      e.dseq != d.dseq) ||
    decide ((if d.finished then 1 else 0) < (match s.strFrame o.stream o.source o.fseq with | some f => f.taken | none => 0))
  if shown then s.countDropped o.stream o.source o.fseq 1
  else (s.countDropped o.stream o.source o.fseq (1 + d.before)).onStrFrame o.stream o.source o.fseq fun f => { f with before := 0 }

/-- A delivery leaves its class queue, with what it holds there. -/
def State.unqueue (s : State) (d : Delivery) : State :=
  { s with egr := { s.egr with queue := s.egr.queue.filter fun e => !(e.o.stream == d.o.stream && e.dseq == d.dseq) } }

/-- A delivery that can no longer be sent whole: cut off with a late error, it counts as refused for dropped-before
(R264). -/
def State.cutDelivery (s : State) (d : Delivery) (psn cause : Nat) : State :=
  let s := (s.unqueue d).lateError d.qp d.o.stream d.dseq psn cause
  if d.cls = 1 then s.countLost d
  else s.onStrFrame d.o.stream d.o.source d.o.fseq fun f => { f with refused := f.refused + 1 }

/-- A queued delivery is refused: it leaves its queue with a drop record; a refused drop record leaves no other
(R271, R273). -/
def State.refuseQueued (s : State) (d : Delivery) (cause : Nat) : State :=
  let s := s.unqueue d
  if d.o.kind = 7 then s.inc .EGR_STR_CNT_DROP d.o.stream
  else
    let s := if d.cls = 1 then s
      else s.onStrFrame d.o.stream d.o.source d.o.fseq fun f => { f with refused := f.refused + 1 }
    let s := s.drop d.o.stream d.o.source d.o.fseq d.dseq cause d.o.row d.o.col d.len false
    if d.cls = 1 then s.countLost d else s

/-- The first delivery of a stream that still has something to send. -/
def State.strHead (s : State) (st : Nat) : Option Delivery := s.egr.queue.find? fun d => d.o.stream == st && !d.finished

/-- Deliveries that reach the head of their stream and whose queue pair is not RTS are refused (R264). -/
def State.refuseHeads (s : State) (st : Nat) : Nat → State
  | 0 => s
  | n + 1 =>
    match s.strHead st with
    | some d => if !d.started && s.get .EGR_QP_STATUS_STATE d.qp ≠ 1 then (s.refuseQueued d 9).refuseHeads st n else s
    | none => s

/-- The delivery behind the one that has left its stream's head is seen to. -/
def State.nextHead (s : State) (st : Nat) : State := s.refuseHeads st s.egr.queue.length

/-- Queue pair `q`, which is no longer RTS, stops (R264): deliveries it has begun are cut off, queued ones refused as they
reach the head of their stream, or all at once in a reset of the engine (R277), and its packets and messages forgotten. -/
def State.qpStop (s : State) (q cause : Nat) : State :=
  let first := match s.egr.pkts.find? fun p => p.qp == q with
    | some p => p.psn
    | none => s.get .EGR_QP_H_PSN q
  let mine := s.egr.queue.filter fun d => d.qp == q
  let psnOf := fun (d : Delivery) => match s.egr.pkts.find? fun p => p.qp == q && p.stream == d.o.stream && p.dseq == d.dseq with
    | some p => p.psn
    | none => first
  let s := (mine.filter fun d => d.started).foldl (fun t d => t.cutDelivery d (psnOf d) cause) s
  let s := if cause = 7 then (mine.filter fun d => !d.started).foldl (fun t d => t.refuseQueued d 13) s
    else ((mine.map (·.o.stream)).eraseDups).foldl (fun t st => t.nextHead st) s
  let s := s.brgQpGone q
  { s with egr := { s.egr with
    pkts := s.egr.pkts.filter fun p => p.qp != q,
    resend := tabErase s.egr.resend q,
    ctl := s.egr.ctl.filter fun c => c.qp != q,
    parts := tabErase s.egr.parts q } }

/-- Entry to ERROR (R262, R278). -/
def State.qpError (s : State) (q cause : Nat) : State :=
  let s := (s.set .EGR_QP_STATUS_STATE q 2).qpStop q cause
  if s.on .EGR_EVENT_EN_QP then s.event 0x0040 q 0x0011 (argAt 20 cause) else s

/-- The outstanding packets of a queue pair from `psn` on are sent again (R262). -/
def State.qpResend (s : State) (q psn : Nat) : State :=
  let l := ((s.egr.pkts.filter fun p => p.qp == q).map (·.psn)).dropWhile fun p => p != psn
  { s with egr := { s.egr with resend := tabPut s.egr.resend q l } }

/-- A retransmission that the retry counter still allows, else ERROR (R262). -/
def State.qpRetry (s : State) (q psn : Nat) : State :=
  if s.get .EGR_QP_H_RETRY q < s.get .EGR_QP_CFG_RETRY_CNT q then
    ((s.inc .EGR_QP_H_RETRY q).inc .EGR_QP_CNT_RETX q).qpResend q psn
  else s.qpError q 1

/-! ### End of a blanket frame (R257) -/

/-- The end-of-frame offer of a stream; its counts are taken when the engine takes it on. -/
def eofOffer (k fseq : Nat) (tag : Tag) (st : Nat) : Offer :=
  ⟨st, 8, 0x100 + k, fseq, { tag with stream := st }, [], false, 0, 0, 0xFFFF, 0xFFFF, 0, 0, 0, false, 0⟩

/-- End-of-frame deliveries of ended blanket frames that have no open product left are offered. -/
def State.eofCheck (s : State) : State :=
  let ready := fun (e : Nat × Nat × List Nat × Tag) =>
    !(s.products.any fun p => p.k == e.1 && p.fseq == e.2.1 && !p.copy)
  let due := s.egr.ends.filter ready
  { s with egr := { s.egr with
    ends := s.egr.ends.filter fun e => !ready e,
    offers := s.egr.offers ++ due.flatMap fun e => e.2.2.1.map fun st => eofOffer e.1 e.2.1 e.2.2.2 st } }

end Sys2Proof.Machine
end

