-- ==== Sys2Proof/Machine/RefOps.lean ====
section
/-! DEFINITION. Shared operations of the comparison engine (08_reference_comparison.md): comparison banks, the mark
position and what happens when a blanket frame opens. -/

namespace Sys2Proof.Machine

/-- Address of comparison bank `b` of blanket `k` (R203). -/
def cmpBase (k b : Nat) : Nat := 0x350000 + k * 0x1000 + b * 0x800

/-- State of a comparison bank: 0 FREE, 1 PENDING, 2 APPLIED, 3 DRAINING (R203). -/
def State.cmpState (s : State) (k b : Nat) : Nat := s.get .REF_H_BANK_STATE (2 * k + b)

/-- The APPLIED comparison bank of a blanket. -/
def State.cmpApplied (s : State) (k : Nat) : Option Nat := [0, 1].find? fun b => s.cmpState k b == 2

/-- The PENDING comparison bank of a blanket. -/
def State.cmpPending (s : State) (k : Nat) : Option Nat := [0, 1].find? fun b => s.cmpState k b == 1

/-- The bank `REF_COMMIT` acts on. -/
def State.cmpCommitBank (s : State) (k : Nat) : Nat :=
  match s.cmpApplied k with
  | some b => 1 - b
  | none => 0

/-- Blanket frames bound to a comparison bank. -/
def State.cmpBound (s : State) (k b : Nat) : Nat :=
  (s.ref.frames.filter fun f => f.k == k && f.bank == some b).length

/-- `JOB_ID` of a comparison bank. -/
def State.cmpJob (s : State) (k b : Nat) : Nat := s.par (cmpBase k b) 0 2

/-- A DRAINING comparison bank with no blanket frame bound is FREE (R203). -/
def State.cmpSettle (s : State) (k : Nat) : State :=
  [0, 1].foldl (fun s b => if s.cmpState k b = 3 && s.cmpBound k b = 0 then s.set .REF_H_BANK_STATE (2 * k + b) 0 else s) s

/-- Encoder of a mark input's position, as recorded at its last accepted edge (R99, R205). -/
def State.markInput (s : State) (k b : Nat) : Nat := s.par (cmpBase k b) 16 1 % 4

/-- A pending comparison bank lands at the opening of a blanket frame with tag position `pos` (R203, R205); its mark
position is provisional where `REF_H_PROV` then reads 1. -/
def State.cmpLand (s : State) (k b pos : Nat) : State :=
  let s := match s.cmpApplied k with
    | some a => s.set .REF_H_BANK_STATE (2 * k + a) 3
    | none => s
  let i := 2 * k + b
  let mode := s.get .REF_H_MODE i
  let m := s.markInput k b
  let seen := s.on .SYN_MARK_H_PREV m
  let mpos := if mode = 1 then s.get .REF_H_SWPOS else if seen then s.get .SYN_MARK_POS m else pos
  let s := ((s.set .REF_H_BANK_STATE i 2).set .REF_H_LASTBANK k (b + 1)).set .REF_H_PROV i
    (if mode = 0 && !seen then 1 else 0)
  let s := (s.set .REF_H_TX i (s.par (cmpBase k b) 19 1)).set .REF_H_TY i (s.par (cmpBase k b) 20 1)
  ({ s with ref := { s.ref with marks := tabPut s.ref.marks i [mpos] } } : State).cmpSettle k

/-- Sticky bit `bit` of a blanket in comparison with its event (R225). -/
def State.refEvent (s : State) (k bit seq a t : Nat) : State :=
  s.sticky .REF_BL_EVENTS_EV k bit .REF_EVENT_EN 0 bit 0x0034 k (bit + 1) (argAt 16 seq + argAt 20 a + argAt 22 t)

/-- Streams of a comparison bank. -/
def State.cmpStreams (s : State) (k b : Nat) : List Nat :=
  [36, 38, 40, 42].map fun o => s.par (cmpBase k b) o 2

/-- The mark position a blanket frame uses: the latest adopted one that does not exceed its tag position, forward modulo
2^48 (R205); the oldest kept where none qualifies. -/
def State.mposFor (s : State) (k b pos : Nat) : Nat :=
  let l := tabGet s.ref.marks (2 * k + b) []
  match l.find? fun m => decide ((pos + 2 ^ 48 - m) % 2 ^ 48 < 2 ^ 47) with
  | some m => m
  | none => l.getLastD 0

/-- A blanket frame opens (R203, R223): a pending bank lands where its mode allows, and the frame binds to the APPLIED bank
of its job, unless the engine is fenced; without one it gives no products and is dropped with NO_REF. -/
def State.refOpen (s : State) (k seq job : Nat) (tag : Tag) : State :=
  let pend := (s.cmpPending k).filter fun b => s.get .REF_H_MODE (2 * k + b) == 0 || s.cmpJob k b == job
  let s := match pend with
    | some b => s.cmpLand k b tag.pos
    | none => s
  let lands := pend.filter fun b => s.on .REF_H_PROV (2 * k + b)
  let bank := match s.cmpApplied k with
    | some b => if s.cmpJob k b = job && !s.on .REF_CTRL_FENCE then some b else none
    | none => none
  let s : State := { s with ref := { s.ref with
    frames := s.ref.frames ++ [⟨k, seq, job, bank, 0, 0, 0, tag, 0, 0, 0, [], false, false, lands⟩] } }
  match bank with
  | some _ => s
  | none =>
    let s := (s.inc .REF_CNT_NOREF k).refEvent k 2 seq 0xFFFF 0xFFFF
    let last := s.get .REF_H_LASTBANK k
    let streams := if last = 0 then [] else (s.cmpStreams k (last - 1)).eraseDups
    streams.foldl (fun s st => s.drop st (0x100 + k) seq 0xFFFFFFFF 3 0xFFFF 0xFFFF 0 true) s

/-- The frame of a blanket in comparison. -/
def State.refFrame? (s : State) (k seq : Nat) : Option RefFrame := s.ref.frames.find? fun f => f.k == k && f.seq == seq

/-- Change a frame in comparison. -/
def State.onRefFrame (s : State) (k seq : Nat) (g : RefFrame → RefFrame) : State :=
  { s with ref := { s.ref with frames := s.ref.frames.map fun f => if f.k == k && f.seq == seq then g f else f } }

/-- The tag of a blanket frame changes with its members (R116, R191); a provisional mark position taken from this frame
follows its tag position (R205). -/
def State.refTag (s : State) (k seq : Nat) (tag : Tag) : State :=
  match s.refFrame? k seq with
  | none => s
  | some f =>
    let s := match f.lands with
      | none => s
      | some b =>
        let i := 2 * k + b
        let l := tabGet s.ref.marks i []
        if l.getLast? = some f.tag.pos then
          { s with ref := { s.ref with marks := tabPut s.ref.marks i (l.dropLast ++ [tag.pos]) } }
        else s
    s.onRefFrame k seq fun g => { g with
      tag := tag, mpos := if f.lands.isSome && g.begun && g.mpos == g.tag.pos then tag.pos else g.mpos }

/-- The merger has emitted the last tile of a blanket frame: a frame without a bank or without tiles ends here. -/
def State.refEnd (s : State) (k seq : Nat) : State :=
  ({ s with ref := { s.ref with frames := s.ref.frames.filter fun f =>
      !(f.k == k && f.seq == seq && f.closed && (f.bank.isNone || f.doneTiles == f.tiles)) } } : State).cmpSettle k

/-- A blanket tile reaches the engine (R192); tiles of a frame without a bank go no further. -/
def State.refTile (s : State) (t : RefTile) : State :=
  match s.refFrame? t.k t.seq with
  | some f =>
    if f.bank.isSome then
      let s := s.onRefFrame t.k t.seq fun f => { f with tiles := f.tiles + 16 }
      { s with ref := { s.ref with tiles := s.ref.tiles ++ [t] } }
    else s
  | none => s

/-- An accepted edge of mark input `m` at position `p` (R205): adopted by every bank in use that follows the input, or
counted as stray; the first edge after a resume from SLEEP is adopted unchecked (20_power_sleep_reset.md R498). -/
def State.markAdopt (s : State) (m p : Nat) : State :=
  (List.range 16).foldl (fun s i =>
    let k := i / 2
    let b := i % 2
    let base := cmpBase k b
    let live := s.cmpState k b == 2 || s.cmpState k b == 3
    let take := fun (s : State) => { s with ref := { s.ref with
      marks := tabPut s.ref.marks i ((p :: tabGet s.ref.marks i []).take 4) } }
    if !live || s.markInput k b ≠ m then s
    else if s.on .REF_H_PROV i then (take s).set .REF_H_PROV i 0
    else if !(s.par base 16 1).testBit 7 then s
    else if s.bit .PWR_H_ADOPT 0 m then take s
    else
      let slot := s.get .REF_SLOT_BASE (s.par base 2 1)
      let rows := s.memLe (slot + 12) 4
      let old := (tabGet s.ref.marks i []).headD 0
      let r := (((p + 2 ^ 48 - old) % 2 ^ 48 * s.par base 4 4 + 2 ^ 23) / 2 ^ 24) % max 1 rows
      let tol := s.par base 17 1
      if r ≤ tol || rows ≤ r + tol then take s
      else (s.inc .REF_CNT_MARK_STRAY k).refEvent k 3 0 0xFFFF 0xFFFF) s

end Sys2Proof.Machine
end

