-- ==== Sys2Proof/Machine/Align.lean ====
section
/-! DEFINITION. The arithmetic of the comparison (08_reference_comparison.md): the reference image, colour, the alignment
search, residuals and records. -/

namespace Sys2Proof.Machine

/-! ### The reference image (R200 to R202) -/

/-- A field of a slot's header. -/
def State.refHdr (s : State) (slot off n : Nat) : Nat := s.memLe (slot + off) n

def State.refW (s : State) (slot : Nat) : Nat := s.refHdr slot 8 4
def State.refRows (s : State) (slot : Nat) : Nat := s.refHdr slot 12 4
def State.refChroma (s : State) (slot : Nat) : Bool := (s.refHdr slot 4 1).testBit 0

/-- The header's conditions (R200). -/
def State.refHeaderOk (s : State) (slot : Nat) : Bool :=
  let w := s.refW slot
  let h := s.refRows slot
  s.refHdr slot 0 4 == 1 && decide (s.refHdr slot 4 1 ≤ 1) && (s.memBytes (slot + 5) 3).all (· == 0) &&
    decide (64 ≤ w) && decide (w ≤ 131072) && decide (64 ≤ h) && decide (h ≤ 1048576) &&
    s.refHdr slot 16 4 == ceilDiv w 64 && s.refHdr slot 20 4 == ceilDiv h 64 &&
    s.refHdr slot 24 8 % 64 == 0 && s.refHdr slot 32 8 % 64 == 0 && s.refHdr slot 40 8 % 64 == 0 &&
    (s.memBytes (slot + 48) 16).all (· == 0)

/-- Address of the index entry of reference block (bx, by) (R201). -/
def State.refEntryAt (s : State) (slot bx by' : Nat) : Nat :=
  slot + s.refHdr slot 24 8 + 8 * (by' * s.refHdr slot 16 4 + bx)

/-- Index entry of reference block (bx, by) (R201). -/
def State.refEntry (s : State) (slot bx by' : Nat) : Nat := s.memLe (s.refEntryAt slot bx by') 8

/-- What the check of `DONE` requires of the image (R202). -/
def State.refImageOk (s : State) (slot size : Nat) : Bool :=
  let cols := s.refHdr slot 16 4
  let n := s.refHdr slot 20 4 * cols
  let data := s.refHdr slot 40 8
  s.refHeaderOk slot && decide (s.refHdr slot 24 8 + 8 * n ≤ size) && decide (s.refHdr slot 32 8 + data ≤ size) &&
    (List.range n).all fun i =>
      let e := s.memLe (slot + s.refHdr slot 24 8 + 8 * i) 8
      decide (1 ≤ bits e 32 16) && bits e 52 12 == 0 && decide (64 * (bits e 0 32 + bits e 32 16) ≤ data)

/-- A decoded reference block: its Y, Cb and Cr samples. -/
structure RefBlock where
  y : List (List Int)
  cb : List (List Int)
  cr : List (List Int)
  deriving DecidableEq, Repr

/-- A reference tile of side `n`; a tile of another shape fails check 1 (R226). -/
def refTileOf (n : Nat) (b : List Nat) : Except (Nat × Nat) Tile :=
  match decodeTile true b with
  | .error e => .error e
  | .ok t => if t.ty = 0 && t.w = n && t.h = n then .ok t else .error (1, 0)

/-- Decode the bytes of a reference block: its tiles in order (R201, R226). -/
def refBlockOf (chroma : Bool) (b : List Nat) : Except (Nat × Nat) RefBlock :=
  match refTileOf 64 b with
  | .error e => .error e
  | .ok y =>
    if !chroma then .ok ⟨y.rows, [], []⟩
    else match refTileOf 32 (b.drop y.length) with
      | .error e => .error e
      | .ok cb => match refTileOf 32 (b.drop (y.length + cb.length)) with
        | .error e => .error e
        | .ok cr => .ok ⟨y.rows, cb.rows, cr.rows⟩

/-- The engine reads the index entry and the bytes of a reference block (R201, R352); none where a read meets an
uncorrectable error. -/
def State.refRead (s : State) (slot bx by' : Nat) : State × Option (List Nat) :=
  let q := s.dramRead (s.refEntryAt slot bx by') 8
  match q.2 with
  | none => (q.1, none)
  | some e =>
    let n := leNat e
    q.1.dramRead (slot + s.refHdr slot 32 8 + 64 * bits n 0 32) (64 * bits n 32 16)

/-- The decoded blocks a tile needs, with the planes' sizes. -/
structure RefView where
  w : Nat
  h : Nat
  blocks : List ((Nat × Nat) × RefBlock)
  deriving DecidableEq, Repr

/-- A column clamped to a plane of `n` columns (R206). -/
def clampCol (n : Nat) (x : Int) : Nat := min x.toNat (n - 1)

/-- A row taken modulo a plane of `n` rows (R206). -/
def wrapRow (n : Nat) (y : Int) : Nat := (y % ((max 1 n : Nat) : Int)).toNat

/-- A block of a view. -/
def RefView.block (v : RefView) (bx by' : Nat) : RefBlock :=
  match v.blocks.find? fun e => e.1 == (bx, by') with
  | some e => e.2
  | none => ⟨[], [], []⟩

/-- A sample of a plane: 0 Y, 1 Cb, 2 Cr (R206). -/
def RefView.at (v : RefView) (plane : Nat) (x y : Int) : Int :=
  if plane = 0 then
    let cx := clampCol v.w x
    let cy := wrapRow v.h y
    (((v.block (cx / 64) (cy / 64)).y.getD (cy % 64) []).getD (cx % 64) 0)
  else
    let cx := clampCol ((v.w + 1) / 2) x
    let cy := wrapRow ((v.h + 1) / 2) y
    let b := v.block (cx / 32) (cy / 32)
    (((if plane = 1 then b.cb else b.cr).getD (cy % 32) []).getD (cx % 32) 0)

/-- Bilinear resampling at (x16, y16) in 1/16 sample (R213). -/
def RefView.sample (v : RefView) (plane : Nat) (x16 y16 : Int) : Int :=
  let x0 := x16 / 16
  let fx := x16 % 16
  let y0 := y16 / 16
  let fy := y16 % 16
  (v.at plane x0 y0 * (16 - fx) * (16 - fy) + v.at plane (x0 + 1) y0 * fx * (16 - fy) +
    v.at plane x0 (y0 + 1) * (16 - fx) * fy + v.at plane (x0 + 1) (y0 + 1) * fx * fy + 128) / 256

/-- Reference Y at local pixel (x, y) for origin (rx, ry) and offset (ox, oy) (R213). -/
def RefView.luma (v : RefView) (rx ry ox oy : Int) (x y : Nat) : Int :=
  v.sample 0 ((rx + x) * 16 + ox) ((ry + y) * 16 + oy)

/-- Reference chroma at local chroma sample (i, j) (R213). -/
def RefView.chroma (v : RefView) (plane : Nat) (rx ry ox oy : Int) (i j : Nat) : Int :=
  v.sample plane (((rx + 2 * i) * 16 + ox + 1) / 2) (((ry + 2 * j) * 16 + oy + 1) / 2)

/-- All pairs of a column and a row of blocks. -/
def blockPairs (xs ys : List Nat) : List (Nat × Nat) := xs.eraseDups.flatMap fun x => ys.eraseDups.map fun y => (x, y)

/-- Reference blocks whose luma the stages of R209 read, within ±16 px of the predicted place, or, where the search is
skipped, those under the tile itself (R210, R213). A sample of weight 0 in R213 makes no block needed. -/
def lumaBlocks (w h : Nat) (skip : Bool) (rx ry : Int) : List (Nat × Nat) :=
  let r : List Int := if skip then (List.range 64).map Int.ofNat else (List.range 96).map fun (i : Nat) => (i : Int) - 16
  blockPairs (r.map fun i => clampCol w (rx + i) / 64) (r.map fun i => wrapRow h (ry + i) / 64)

/-- The chroma samples of one axis that R213 reads for origin `r` and offset `o`. -/
def chromaReach (r o : Int) : List Int :=
  (List.range 32).flatMap fun (i : Nat) =>
    let c := ((r + 2 * i) * 16 + o + 1) / 2
    if c % 16 = 0 then [c / 16] else [c / 16, c / 16 + 1]

/-- Reference blocks whose chroma is resampled for the offset used (R213). -/
def chromaBlocks (w h : Nat) (rx ry ox oy : Int) : List (Nat × Nat) :=
  blockPairs ((chromaReach rx ox).map fun i => clampCol ((w + 1) / 2) i / 32)
    ((chromaReach ry oy).map fun i => wrapRow ((h + 1) / 2) i / 32)

/-! ### Colour (R207) -/

/-- Luma of a pixel. -/
def lumaOf (ky : List Int) (px : List Nat) : Nat :=
  match px with
  | [y] => y
  | _ => (((ky.getD 0 0 * px.getD 0 0 + ky.getD 1 0 * px.getD 1 0 + ky.getD 2 0 * px.getD 2 0 + 8192) / 16384)).toNat

/-- A chroma value before the clamp. -/
def chromaRaw (k : List Int) (px : List Nat) : Int :=
  (k.getD 0 0 * px.getD 0 0 + k.getD 1 0 * px.getD 1 0 + k.getD 2 0 * px.getD 2 0 + 8192) / 16384 + 128

/-- A chroma value. -/
def chromaOf (k : List Int) (px : List Nat) : Nat := min (chromaRaw k px).toNat 255

/-- Conversion coefficients of a comparison bank, from byte `o` on (R203). -/
def State.cmpCoef (s : State) (base o : Nat) : List Int := [0, 2, 4].map fun j => toSigned 16 (s.par base (o + j) 2)

/-! ### Grids of samples -/

/-- A square grid of samples, row by row, and which of them count. -/
structure Grid where
  v : List (List Int)
  ok : List (List Bool)
  deriving DecidableEq, Repr

def Grid.at (g : Grid) (x y : Nat) : Int := (g.v.getD y []).getD x 0
def Grid.okAt (g : Grid) (x y : Nat) : Bool := (g.ok.getD y []).getD x false

/-- The integer mean of four samples (06_pixel_corrections.md R151). -/
def mean4 (a b c d : Int) : Int := (a + b + c + d + 2) / 4

/-- The next coarser level of a grid of side `2 * n` (R208). -/
def Grid.half (g : Grid) (n : Nat) : Grid :=
  ⟨(List.range n).map fun y => (List.range n).map fun x =>
      mean4 (g.at (2 * x) (2 * y)) (g.at (2 * x + 1) (2 * y)) (g.at (2 * x) (2 * y + 1)) (g.at (2 * x + 1) (2 * y + 1)),
   (List.range n).map fun y => (List.range n).map fun x =>
      g.okAt (2 * x) (2 * y) && g.okAt (2 * x + 1) (2 * y) && g.okAt (2 * x) (2 * y + 1) && g.okAt (2 * x + 1) (2 * y + 1)⟩

/-- Sum over the valid samples of a grid of side `n`. -/
def Grid.sum (g : Grid) (n : Nat) (f : Nat → Nat → Int → Nat) : Nat :=
  (List.range n).foldl (fun a y => (List.range n).foldl (fun a x => if g.okAt x y then a + f x y (g.at x y) else a) a) 0

/-- The sum of absolute differences against `ref` (R208). -/
def Grid.sad (g : Grid) (n : Nat) (ref : Nat → Nat → Int) : Nat := g.sum n fun x y b => (b - ref x y).natAbs

/-! ### The search (R208, R209) -/

/-- A reference sample of a level relative to the predicted origin. -/
def RefView.level (v : RefView) (rx ry : Int) : Nat → Int → Int → Int
  | 0, x, y => v.at 0 (rx + x) (ry + y)
  | n + 1, x, y => mean4 (v.level rx ry n (2 * x) (2 * y)) (v.level rx ry n (2 * x + 1) (2 * y))
      (v.level rx ry n (2 * x) (2 * y + 1)) (v.level rx ry n (2 * x + 1) (2 * y + 1))

/-- Candidate `p` of cost `cp` comes before `q` of cost `cq`: lower cost, then the stage centre, then the smallest
|x| + |y|, then the smallest y, then the smallest x (R209). -/
def before (c : Int × Int) (p : Int × Int) (cp : Nat) (q : Int × Int) (cq : Nat) : Bool :=
  if cp ≠ cq then decide (cp < cq)
  else if p = c then true
  else if q = c then false
  else
    let a := p.1.natAbs + p.2.natAbs
    let b := q.1.natAbs + q.2.natAbs
    if a ≠ b then decide (a < b) else if p.2 ≠ q.2 then decide (p.2 < q.2) else decide (p.1 < q.1)

/-- The best candidate of a stage, and its cost. -/
def bestOf (cost : Int × Int → Nat) (c : Int × Int) (cands : List (Int × Int)) : (Int × Int) × Nat :=
  cands.foldl (fun b p => let k := cost p; if before c p k b.1 b.2 then (p, k) else b) (c, cost c)

/-- Centre plus `s` × [−n, n]², kept within ±`r`. -/
def around (c : Int × Int) (s : Int) (n : Nat) (r : Nat) : List (Int × Int) :=
  let d := (List.range (2 * n + 1)).map fun (i : Nat) => ((i : Int) - n) * s
  (d.flatMap fun dy => d.map fun dx => (c.1 + dx, c.2 + dy)).filter fun p => decide (p.1.natAbs ≤ r) && decide (p.2.natAbs ≤ r)

/-- Stages 1 to 3: the integer offset (R209). -/
def searchInt (v : RefView) (g : Grid) (rx ry : Int) : Int × Int :=
  let g1 := g.half 32
  let g2 := g1.half 16
  let c1 := (bestOf (fun p => g2.sad 16 fun x y => v.level rx ry 2 (x + p.1) (y + p.2)) (0, 0) (around (0, 0) 1 4 4)).1
  let m2 := (2 * c1.1, 2 * c1.2)
  let c2 := (bestOf (fun p => g1.sad 32 fun x y => v.level rx ry 1 (x + p.1) (y + p.2)) m2 (around m2 1 1 8)).1
  let m3 := (2 * c2.1, 2 * c2.2)
  (bestOf (fun p => g.sad 64 fun x y => v.level rx ry 0 (x + p.1) (y + p.2)) m3 (around m3 1 1 16)).1

/-- Stage 4: the found offset in 1/16 px and its SAD (R209). -/
def searchFine (v : RefView) (g : Grid) (rx ry : Int) (i : Int × Int) : (Int × Int) × Nat :=
  let cost := fun (p : Int × Int) => g.sad 64 fun x y => v.luma rx ry p.1 p.2 x y
  [8, 4, 2, 1].foldl (fun b s => bestOf cost b.1 (around b.1 s 1 256)) ((16 * i.1, 16 * i.2), 0)

/-- How an alignment tile is aligned: its cause, the offset used and the integer offset (R209, R210). -/
structure Aligned where
  cause : Nat
  off : Int × Int
  int : Int × Int
  deriving DecidableEq, Repr

/-- Align a tile: `skip` is the cause that skips the search, 0 where it runs; `sadMax` and `valid` are those of R210. -/
def RefView.align (v : RefView) (y : Grid) (skip sadMax valid : Nat) (rx ry : Int) : Aligned :=
  if skip ≠ 0 then ⟨skip, (0, 0), (0, 0)⟩
  else
    let int := searchInt v y rx ry
    let fine := searchFine v y rx ry int
    if int.1.natAbs = 16 || int.2.natAbs = 16 then ⟨3, (0, 0), int⟩
    else if sadMax * valid < 16 * fine.2 then ⟨4, (0, 0), int⟩
    else ⟨0, fine.1, int⟩

/-! ### Tracking (R212) -/

/-- Enter a number into a rising list. -/
def insertInt (v : Int) : List Int → List Int
  | [] => [v]
  | a :: r => if v ≤ a then v :: a :: r else a :: insertInt v r

/-- The lower median. -/
def lowerMedian (l : List Int) : Int := (l.foldl (fun a v => insertInt v a) []).getD ((l.length - 1) / 2) 0

/-- Clamp to ±m. -/
def clampSym (m : Nat) (v : Int) : Int := max (-(m : Int)) (min (m : Int) v)

/-! ### Records -/

/-- The header of a statistics packet and of a residual product (R215). -/
def State.refHeader (s : State) (f : RefFrame) (b row col : Nat) : List Nat :=
  [f.k, s.par (cmpBase f.k b) 3 1] ++ leBytes 2 f.job ++ leBytes 4 f.seq ++ leBytes 2 row ++ leBytes 2 col ++
    [ofSigned 8 f.tx, ofSigned 8 f.ty, 0, 0]

/-- What the comparison of one alignment tile finds. -/
structure Found where
  cause : Nat
  off : Int × Int
  int : Int × Int
  sad : Nat
  valid : Nat
  zone : Nat
  sum : Int
  sq : Nat
  peakY : Int
  peakAt : Nat × Nat
  peakCb : Nat
  peakCr : Nat
  exceed : Nat
  box : Nat × Nat × Nat × Nat
  deriving DecidableEq, Repr

/-- The 32-byte statistics record (R216); `cand` is byte 30. -/
def Found.stat (q : Found) (a t cand : Nat) : List Nat :=
  leBytes 2 a ++ leBytes 2 t ++ leBytes 2 (ofSigned 16 q.off.1) ++ leBytes 2 (ofSigned 16 q.off.2) ++ leBytes 4 q.sad ++
    leBytes 2 q.valid ++ [q.cause, q.zone] ++ leBytes 4 (ofSigned 32 q.sum) ++ leBytes 4 q.sq ++
    [q.peakY.natAbs, q.peakCb, q.peakCr, 0] ++ leBytes 2 q.exceed ++ [cand, 0]

/-- The 32-byte candidate record (R218). -/
def Found.cand (q : Found) (seq a t patch flags : Nat) : List Nat :=
  leBytes 4 seq ++ leBytes 2 a ++ leBytes 2 t ++ [q.box.1, q.box.2.1, q.box.2.2.1, q.box.2.2.2] ++ leBytes 2 q.exceed ++
    leBytes 2 (ofSigned 16 q.peakY) ++ [q.peakAt.1, q.peakAt.2, q.peakCb, q.peakCr, q.zone % 16 + 16 * q.cause, flags] ++
    leBytes 2 patch ++ leBytes 2 (ofSigned 16 q.off.1) ++ leBytes 2 (ofSigned 16 q.off.2) ++ leBytes 4 0

end Sys2Proof.Machine
end

