-- ==== Sys2Proof/Machine/MrgOps.lean ====
section
/-! DEFINITION. Shared operations of the blanket merger (07_blanket_merger.md): layouts, joining, the values of a blanket
pixel, and the emission of tile lines. -/

namespace Sys2Proof.Machine

/-! ### Layout banks -/

/-- Address of layout bank `b` of blanket `k`. -/
def layBase (k b : Nat) : Nat := 0x310000 + k * 0x4000 + b * 0x2000

/-- State of a layout bank (R197). -/
def State.layState (s : State) (k b : Nat) : Nat := s.get .MRG_H_BANK_STATE (2 * k + b)

/-- The APPLIED layout bank of a blanket. -/
def State.layApplied (s : State) (k : Nat) : Option Nat := [0, 1].find? fun b => s.layState k b == 2

/-- The PENDING layout bank of a blanket. -/
def State.layPending (s : State) (k : Nat) : Option Nat := [0, 1].find? fun b => s.layState k b == 1

/-- The bank `MRG_COMMIT` acts on. -/
def State.layCommitBank (s : State) (k : Nat) : Nat :=
  match s.layApplied k with
  | some b => 1 - b
  | none => 0

/-- Blanket frames bound to a layout bank. -/
def State.layBound (s : State) (k b : Nat) : Nat := (s.blankets.filter fun f => f.k == k && f.bank == b).length

/-- A DRAINING layout bank with no blanket frame bound is FREE (R197). -/
def State.laySettle (s : State) (k : Nat) : State :=
  [0, 1].foldl (fun s b => if s.layState k b = 3 && s.layBound k b = 0 then s.set .MRG_H_BANK_STATE (2 * k + b) 0 else s) s

/-- A pending layout bank lands (R197). -/
def State.layLand (s : State) (k b : Nat) : State :=
  let s := match s.layApplied k with
    | some a => s.set .MRG_H_BANK_STATE (2 * k + a) 3
    | none => s
  (s.set .MRG_H_BANK_STATE (2 * k + b) 2).laySettle k

/-- Header fields of a layout. -/
def State.layJob (s : State) (base : Nat) : Nat := s.par base 0 2
def State.layMembers (s : State) (base : Nat) : Nat := s.par base 2 1
def State.layPlanes (s : State) (base : Nat) : Nat := s.par base 3 1
def State.layBw (s : State) (base : Nat) : Nat := s.par base 4 4
def State.layBh (s : State) (base : Nat) : Nat := s.par base 8 2
def State.layHold (s : State) (base : Nat) : Nat := s.par base 10 2
def State.layU0 (s : State) (base : Nat) : Nat := s.par base 12 4
def State.layU1 (s : State) (base : Nat) : Nat := s.par base 16 4
def State.layJoinNs (s : State) (base : Nat) : Nat := s.par base 20 4
def State.layExt (s : State) (base k : Nat) : Bool := (s.par base 28 1).testBit k
def State.layFill (s : State) (base : Nat) : Nat := s.par base 29 1

/-- Source context of member `m`. -/
def State.layCtx (s : State) (base m : Nat) : Nat := s.par base (0x40 + 64 * m) 2

/-- Members of a layout that have context `c`. -/
def State.layFind (s : State) (base c : Nat) : Option Nat :=
  (List.range (s.layMembers base)).find? fun m => s.layCtx base m == c

/-- Centre and width of a seam record at offset `off`. -/
def State.seamAt (s : State) (base off : Nat) : Nat × Nat := (s.par base off 4, s.par base (off + 4) 2)

/-- Internal seam `j`; the external seams left and right. -/
def State.seamIn (s : State) (base j : Nat) : Nat × Nat := s.seamAt base (0x840 + 16 * j)
def State.seamL (s : State) (base : Nat) : Nat × Nat := s.seamAt base 0xA30
def State.seamR (s : State) (base : Nat) : Nat × Nat := s.seamAt base 0xA40

/-- Start and end of a seam's band (R186). -/
def bandLo (q : Nat × Nat) : Nat := q.1 - q.2 / 2
def bandHi (q : Nat × Nat) : Nat := q.1 + q.2 / 2

/-- The columns member `m` owns (R186). -/
def State.owned (s : State) (base m : Nat) : Nat × Nat :=
  let n := s.layMembers base
  (if m = 0 then (if s.layExt base 0 then bandLo (s.seamL base) else s.layU0 base) else bandLo (s.seamIn base (m - 1)),
   if m + 1 = n then (if s.layExt base 1 then bandHi (s.seamR base) else s.layU1 base) else bandHi (s.seamIn base m))

/-- Member `m` owns column `u`. -/
def State.owns (s : State) (base m u : Nat) : Bool :=
  decide ((s.owned base m).1 ≤ u) && decide (u < (s.owned base m).2)

/-- The tile column of a seam. -/
def seamCol (q : Nat × Nat) : Nat := bandLo q / 256

/-- This device owns the external seam on a side: 0 left, 1 right (R195). -/
def State.ownsExt (s : State) (base side : Nat) : Bool := s.layExt base side && s.layExt base (side + 2)

/-- The external seam on a side. -/
def State.seamExt (s : State) (base side : Nat) : Nat × Nat := if side = 0 then s.seamL base else s.seamR base

/-- The tile columns this device emits (R192, R195): those of its segment and of the external seams it owns, without those
of the seams it sends. -/
def State.tileCols (s : State) (base : Nat) : List Nat :=
  let lo := s.layU0 base / 256
  let mine := (List.range (ceilDiv (s.layU1 base) 256 - lo)).map (lo + ·)
  let ext := [0, 1].filter fun d => s.ownsExt base d && !mine.contains (seamCol (s.seamExt base d))
  (mine.filter fun c => [0, 1].all fun d =>
    !(s.layExt base d && !s.ownsExt base d && seamCol (s.seamExt base d) == c)) ++ ext.map fun d => seamCol (s.seamExt base d)

/-! ### Members -/

/-- The merger region of a frame under its bank: the part inside the frame (R183). -/
def State.mrgRoi (s : State) (base : Nat) (f : Frame) : Nat × Nat × Nat × Nat :=
  match (s.rois base).find? fun r => r.dest.testBit 0 with
  | some r => (r.x0, r.y0, min r.w (f.width - r.x0), min r.h (f.height - r.y0))
  | none => (0, 0, 0, 0)

/-- The blanket tag over the members that joined (R116, R191). DESIGN CHOICE: of several frames with the earliest time the
one that joined first gives position and time. -/
def BFrame.tag (f : BFrame) : Tag :=
  let ms := f.members
  let first := ms.foldl (fun (a : Option Tag) m => match a with
    | none => some m.tag
    | some t => if m.tag.time < t.time then some m.tag else some t) none
  let t := first.getD ⟨0, 0, 0, 0, 0, 0, 0, 0, 0, 0⟩
  let flags := ms.foldl (fun a m => a ||| (m.tag.flags &&& 0x13FF)) 0
  ⟨0, 0x100 + f.k, f.seq, t.pos, f.job, t.time, ms.foldl (fun a m => a &&& m.tag.expMask) 15, 0, 0,
    flags ||| (if f.absent ≠ 0 || f.seamMissing then 2 ^ 13 else 0)⟩

/-- Change an open blanket frame; the comparison engine sees its tag. -/
def State.onBlanket (s : State) (k seq : Nat) (g : BFrame → BFrame) : State :=
  let s : State := { s with blankets := s.blankets.map fun f => if f.k == k && f.seq == seq then g f else f }
  match s.blankets.find? fun f => f.k == k && f.seq == seq with
  | some f => s.refTag k seq f.tag
  | none => s

/-- An open blanket frame. -/
def State.blanket? (s : State) (k seq : Nat) : Option BFrame := s.blankets.find? fun f => f.k == k && f.seq == seq

/-- Sticky bit of a blanket with its event (R199). -/
def State.mrgEvent (s : State) (k bit seq m : Nat) : State :=
  s.sticky .MRG_BL_EVENTS_EV k bit .MRG_EVENT_EN 0 bit 0x0030 k (bit + 1) (argAt 16 seq + argAt 20 m)

/-- Member `m` is absent from a blanket frame (R190): counted once. -/
def State.memberAbsent (s : State) (k seq m : Nat) : State :=
  match s.blanket? k seq with
  | some f =>
    if f.absent.testBit m then s
    else
      let s := s.onBlanket k seq fun f => { f with
        absent := f.absent ||| 2 ^ m,
        members := f.members.map fun x => if x.m == m then { x with absent := true } else x }
      (s.inc .MRG_CNT_ABSENT k).mrgEvent k 0 seq m
  | none => s

/-! ### The value of a blanket pixel -/

/-- The tone table (R184). -/
def tone (knot : Nat → Nat) (v : Nat) : Nat :=
  let i := v / 256
  let t := ((knot i : Int) + (((knot (i + 1) : Int) - knot i) * (v % 256) + 128) / 256).toNat
  min ((t + 128) / 256) 255

/-- A sample through the layout's tone table of plane `p`. -/
def State.toned (s : State) (base p v : Nat) : Nat := tone (fun i => s.par base (0xC00 + p * 514 + 2 * i) 2) v

/-- Source position of a blanket pixel in a member, in 2^-16 px (R185). -/
def State.srcPos (s : State) (base m u v : Nat) : Int × Int :=
  let r := 0x40 + 64 * m
  let g := fun o => toSigned 32 (s.par base (r + o) 4)
  (g 4 * u + g 8 * v + toSigned 64 (s.par base (r + 20) 8), g 12 * u + g 16 * v + toSigned 64 (s.par base (r + 28) 8))

/-- A stored sample of a member, when it is available (R183). -/
def BFrame.sample (f : BFrame) (m p : Nat) (x y : Int) : Option Nat :=
  match f.members.find? fun q => q.m == m && !q.absent with
  | none => none
  | some q =>
    if decide ((q.x0 : Int) ≤ x) && decide (x < q.x0 + q.w) && decide ((q.y0 : Int) ≤ y) && decide (y < q.y0 + q.h) then
      match f.rows.find? fun r => r.m == m && r.y == y.toNat with
      | some r => if r.masked then none else some ((r.planes.getD p []).getD (x.toNat - q.x0) 0)
      | none => none
    else none

/-- Bilinear value on the 1/16 px grid (R185); none where a sample with a weight is unavailable. -/
def bilinear (q : Int → Int → Option Nat) (x16 y16 : Int) : Option Nat :=
  let x0 := x16 / 16
  let y0 := y16 / 16
  let fx := (x16 % 16).toNat
  let fy := (y16 % 16).toNat
  let terms := [((16 - fx) * (16 - fy), x0, y0), (fx * (16 - fy), x0 + 1, y0), ((16 - fx) * fy, x0, y0 + 1),
    (fx * fy, x0 + 1, y0 + 1)].filter fun t => t.1 ≠ 0
  let sum := terms.foldl (fun (a : Option Nat) t => match a, q t.2.1 t.2.2 with
    | some a, some v => some (a + v * t.1)
    | _, _ => none) (some 128)
  sum.map (· / 256)

/-- The value of member `m` at a blanket pixel, plane `p` (R185). -/
def State.memberVal (s : State) (base : Nat) (f : BFrame) (m u v p : Nat) : Option Nat :=
  let q := s.srcPos base m u v
  bilinear (f.sample m p) ((q.1 + 2048) / 4096) ((q.2 + 2048) / 4096)

/-- The value a neighbour sent for a blanket pixel (R195, R196). -/
def BFrame.remoteVal (f : BFrame) (side u v p : Nat) : Option Nat :=
  match f.remote.find? fun r => r.side == side && r.v == v && decide (r.u0 ≤ u) && decide (u < r.u0 + r.px.length) with
  | some r => if r.ok.getD (u - r.u0) false then some ((r.px.getD (u - r.u0) []).getD p 0) else none
  | none => none

/-- The blend inside a band (R187). -/
def blend (l r i band : Nat) : Nat :=
  let w := (2 * i + 1) * 256 / band
  (l * (512 - w) + r * w + 256) / 512

/-- One of two sides, both blended, or none (R187): the value and whether only one side was there. -/
def blendOpt (l r : Option Nat) (i band : Nat) : Option Nat × Bool :=
  match l, r with
  | some a, some b => (some (blend a b i band), false)
  | some a, none => (some a, true)
  | none, some b => (some b, true)
  | none, none => (none, false)

/-- What each side of a pixel is: a member, a neighbour, or nothing. -/
inductive Side where
  | member (m : Nat)
  | remote (d : Nat)
  deriving DecidableEq, Repr

/-- The sides that own column `u` from left to right, and the band they share (R186, R195). -/
def State.sidesOf (s : State) (base u : Nat) : List Side :=
  let far := fun (d : Nat) => s.ownsExt base d && seamCol (s.seamExt base d) == u / 256
  (if far 0 && decide (u < bandHi (s.seamL base)) then [Side.remote 0] else []) ++
  ((List.range (s.layMembers base)).filter fun m => s.owns base m u).map Side.member ++
  (if far 1 && decide (bandLo (s.seamR base) ≤ u) then [Side.remote 1] else [])

/-- The band between two sides. -/
def State.bandOf (s : State) (base : Nat) : Side → Side → Nat × Nat
  | .remote _, .member _ => s.seamL base
  | .member _, .remote _ => s.seamR base
  | .member m, _ => s.seamIn base m
  | .remote _, _ => s.seamL base

/-- Value of a side at a pixel; the sides in `off` count as unavailable (R194). -/
def State.sideVal (s : State) (base : Nat) (f : BFrame) (off : List Side) (q : Side) (u v p : Nat) : Option Nat :=
  if off.contains q then none
  else match q with
    | .member m => s.memberVal base f m u v p
    | .remote d => f.remoteVal d u v p

/-- A plane of a blanket pixel: its value, and whether a band pixel had one side only. -/
def State.pixelPlane (s : State) (base : Nat) (f : BFrame) (off : List Side) (u v p : Nat) : Option Nat × Bool :=
  match s.sidesOf base u with
  | [] => (none, false)
  | [q] => (s.sideVal base f off q u v p, false)
  | l :: r :: _ =>
    let b := s.bandOf base l r
    blendOpt (s.sideVal base f off l u v p) (s.sideVal base f off r u v p) (u - bandLo b) b.2

/-- A blanket pixel: its planes when valid, and the one-sided mark. -/
def State.pixel (s : State) (base : Nat) (f : BFrame) (off : List Side) (u v : Nat) : Option (List Nat) × Bool :=
  let ps := (List.range (s.layPlanes base)).map fun p => s.pixelPlane base f off u v p
  if s.layBw base ≤ u || (ps.any fun q => q.1.isNone) then (none, false)
  else (some (ps.map fun q => q.1.getD 0), ps.any (·.2))

/-! ### Tile lines -/

/-- The members whose columns meet tile column `c`. -/
def State.colMembers (s : State) (base c : Nat) : List Nat :=
  (List.range (s.layMembers base)).filter fun m =>
    decide ((s.owned base m).1 < 256 * c + 256) && decide (256 * c < (s.owned base m).2)

/-- Source rows that row `v` of tile column `c` needs from member `m` (R185, R192). -/
def State.needRows (s : State) (base m c v : Nat) : List Nat :=
  let o := s.owned base m
  let lo := max o.1 (256 * c)
  let hi := min o.2 (256 * c + 256) - 1
  let ys := [lo, hi].flatMap fun u =>
    let y16 := ((s.srcPos base m u v).2 + 2048) / 4096
    if y16 % 16 = 0 then [y16 / 16] else [y16 / 16, y16 / 16 + 1]
  let a := ys.foldl min (ys.headD 0)
  let b := ys.foldl max (ys.headD 0)
  (List.range (b - a + 1).toNat).filterMap fun (i : Nat) => if 0 ≤ a + (i : Int) then some (a + (i : Int)).toNat else none

/-- Member `m` has delivered what row `v` of a tile column needs, or will never deliver it. -/
def State.memberReady (s : State) (base : Nat) (f : BFrame) (m c v : Nat) : Bool :=
  if f.absent.testBit m then true
  else match f.members.find? fun q => q.m == m with
    | none => !f.window
    | some q => (q.done && !(s.pipe.toMerger.any fun r => r.ch == q.ch && r.seq == q.seq)) || (s.needRows base m c v).all fun y =>
        decide (y < q.y0) || decide (q.y0 + q.h ≤ y) || f.rows.any fun r => r.m == m && r.y == y

/-- The neighbour's rows are there, or no neighbour can send them (R196). -/
def State.remoteReady (s : State) (base : Nat) (f : BFrame) (d v : Nat) : Bool :=
  (f.remote.any fun r => r.side == d && r.v == v) || s.neighbourGone (s.par base (30 + d) 1)

/-- A side of a seam is ready for row `v` of a tile column. -/
def State.sideReady (s : State) (base : Nat) (f : BFrame) (c v : Nat) : Side → Bool
  | .member m => s.memberReady base f m c v
  | .remote d => s.remoteReady base f d v

/-- Sides that tile column `c` takes pixels from. -/
def State.colSides (s : State) (base c : Nat) : List Side :=
  (if s.ownsExt base 0 && seamCol (s.seamL base) == c then [Side.remote 0] else []) ++
  (s.colMembers base c).map Side.member ++
  (if s.ownsExt base 1 && seamCol (s.seamR base) == c then [Side.remote 1] else [])

/-- Row `v` of tile column `c` can be emitted. -/
def State.lineReady (s : State) (base : Nat) (f : BFrame) (c v : Nat) : Bool :=
  (s.colSides base c).all (s.sideReady base f c v)

/-- The seams of a layout: tile column and the two sides (R186, R195). -/
def State.seams (s : State) (base : Nat) : List (Nat × Side × Side) :=
  ((List.range (s.layMembers base - 1)).map fun j => (seamCol (s.seamIn base j), Side.member j, Side.member (j + 1))) ++
  (if s.ownsExt base 0 then [(seamCol (s.seamL base), Side.remote 0, Side.member 0)] else []) ++
  (if s.ownsExt base 1 then [(seamCol (s.seamR base), Side.member (s.layMembers base - 1), Side.remote 1)] else [])

/-- A row of the seam columns as the sender gives it (R195): the samples of each column and its validity. -/
def State.seamRow (s : State) (base : Nat) (f : BFrame) (u0 w v : Nat) : List (List Nat) × List Bool :=
  let m := fun u => ((List.range (s.layMembers base)).filter fun m => s.owns base m u).headD 0
  let vals := (List.range w).map fun n => (List.range (s.layPlanes base)).map fun p =>
    s.memberVal base f (m (u0 + n)) (u0 + n) v p
  (vals.map fun l => l.map fun o => o.getD 0, vals.map fun l => l.all Option.isSome)

/-- The columns of the seam's tile column that the sender's members own: on its left seam those from the band start on,
on its right seam those up to the band end (R195). -/
def State.seamSpan (s : State) (base side : Nat) : Nat × Nat :=
  let q := s.seamExt base side
  let c := 256 * seamCol q
  if side = 0 then (bandLo q, c + 256 - bandLo q) else (c, bandHi q - c)

/-- Validity bits packed into bytes, the first in bit 0. -/
def packBits : Nat → List Bool → List Nat
  | 0, _ => []
  | n + 1, l => ((l.take 8).zip [1, 2, 4, 8, 16, 32, 64, 128]).foldl (fun a q => if q.1 then a + q.2 else a) 0 ::
      packBits n (l.drop 8)

/-- The rows of its external seams that this device sends are all out (R195). -/
def State.seamsSent (s : State) (f : BFrame) : Bool :=
  let base := layBase f.k f.bank
  [0, 1].all fun d => !s.layExt base d || s.ownsExt base d ||
    decide (s.layBh base ≤ if d = 0 then f.sentL else f.sentR)

/-- The blanket frame is complete: every tile has been emitted and every seam row sent; its bank and the frame in comparison
are told. -/
def State.blanketEnd (s : State) (k seq : Nat) : State :=
  match s.blanket? k seq with
  | none => s
  | some f =>
    if (f.cols.all fun c => decide (s.layBh (layBase k f.bank) ≤ c.next)) && s.seamsSent f then
      let s : State := { s with blankets := s.blankets.filter fun g => !(g.k == k && g.seq == seq) }
      ((s.laySettle k).onRefFrame k seq fun g => { g with closed := true }).refEnd k seq
    else s

/-- The first row of member `m` that a line still to be emitted or a seam row still to be sent needs (R193); none when
nothing needs it any more. -/
def State.firstNeeded (s : State) (base : Nat) (f : BFrame) (m : Nat) : Option Nat :=
  let cols := (f.cols.filter fun t => (s.colMembers base t.col).contains m && decide (t.next < s.layBh base)).map fun t =>
    (t.col, t.next)
  let sent := ([0, 1].filter fun d => s.layExt base d && !s.ownsExt base d).map fun d =>
    (seamCol (s.seamExt base d), if d = 0 then f.sentL else f.sentR)
  let seam := sent.filter fun q => (s.colMembers base q.1).contains m && decide (q.2 < s.layBh base)
  (cols ++ seam).foldl (fun (a : Option Nat) q => match s.needRows base m q.1 q.2 with
    | [] => some 0
    | y :: _ => some (match a with | some b => min b y | none => y)) none

/-- Rows that nothing needs any more leave the merger's store (R193). -/
def State.trimRows (s : State) (k seq : Nat) : State :=
  match s.blanket? k seq with
  | none => s
  | some f =>
    let base := layBase k f.bank
    let keep (r : MRow) : Bool := match s.firstNeeded base f r.m with | some y => decide (y ≤ r.y) | none => false
    let live (r : SeamRow) : Bool := f.cols.any fun t =>
      t.col == seamCol (s.seamExt base r.side) && decide (t.next ≤ r.v)
    { s with blankets := s.blankets.map fun g => if g.k == k && g.seq == seq then
        { g with rows := g.rows.filter keep, remote := g.remote.filter live } else g }

/-- A side of a seam that is absent or gone: an absent member, or a neighbour that no route leads to (R190, R196). -/
def State.sideGone (s : State) (base : Nat) (f : BFrame) : Side → Bool
  | .member m => f.absent.testBit m
  | .remote d => s.neighbourGone (s.par base (30 + d) 1)

/-- Tile column `c` has a seam on a side of which a member is absent: it counts as missing (R190). -/
def State.seamAbsent (s : State) (base : Nat) (f : BFrame) (c : Nat) : Bool :=
  (s.seams base).any fun q => q.1 == c && [q.2.1, q.2.2].any fun d => match d with
    | .member m => f.absent.testBit m
    | .remote _ => false

/-- Emit row `v`, the next of tile column `c`, with the sides in `off` unavailable (R187, R192). `miss` marks the
trailer's seam-missing bit; a seam beside an absent member counts as missing too (R190). -/
def State.emitLine (s : State) (k seq c : Nat) (off : List Side) (miss : Bool) : State :=
  match s.blanket? k seq with
  | none => s
  | some f =>
    match f.cols.find? fun t => t.col == c with
    | none => s
    | some t =>
      let base := layBase k f.bank
      let v := t.next
      let px := (List.range 256).map fun n => s.pixel base f off (256 * c + n) v
      let fill := List.replicate (s.layPlanes base) (s.layFill base)
      let line := (px.map fun q => q.1.getD fill, px.map fun q => q.1.isSome)
      let used := (s.colMembers base c).filter fun m => !off.contains (.member m) &&
        (List.range 256).any fun n => s.owns base m (256 * c + n) && (s.memberVal base f m (256 * c + n) v 0).isSome
      let gone := (s.colMembers base c).any fun m => f.absent.testBit m
      let lost := !miss && s.seamAbsent base f c
      let miss := miss || lost
      let s := if lost then s.inc .MRG_CNT_SEAM_MISS k else s
      let flags := t.flags ||| (if miss then 1 else 0) ||| (if px.any (·.1.isNone) then 2 else 0) |||
        (if gone then 4 else 0) ||| (if px.any (·.2) then 8 else 0)
      let t' : TileCol := ⟨c, v + 1, t.lines ++ [line], flags, used.foldl (fun a m => a ||| 2 ^ m) t.members, t.cut⟩
      let full := t'.lines.length = 256
      let put := fun (x : TileCol) => s.onBlanket k seq fun f => { f with
        seamMissing := f.seamMissing || miss
        cols := f.cols.map fun q => if q.col == c then x else q }
      if full then
        let s := (put { t' with lines := [], flags := 0, members := 0, cut := 0 }).inc .MRG_CNT_TILES k
        let valid := t'.lines.foldl (fun a l => a + (l.2.filter id).length) 0
        (s.refTile ⟨k, s.layPlanes base, f.job, seq, v / 256, c, t'.lines, valid, t'.flags, t'.members, t'.cut, false, []⟩).blanketEnd k seq
      else (put t').trimRows k seq

/-- Emit lines of a tile column while `cond` holds, at most `n` of them. -/
def State.emitWhile (s : State) (k seq c : Nat) (cond : State → BFrame → Nat → Bool) (off : List Side) (miss : Bool) :
    Nat → State
  | 0 => s
  | n + 1 =>
    match s.blanket? k seq with
    | none => s
    | some f =>
      match f.cols.find? fun t => t.col == c with
      | none => s
      | some t =>
        if t.next < s.layBh (layBase k f.bank) && cond s f t.next then
          (s.emitLine k seq c off miss).emitWhile k seq c cond off miss n
        else s

/-- A member that has not delivered counts as absent, but the rows it did deliver stay available (R189, R190). -/
def State.memberAbsentEarly (s : State) (k seq m : Nat) : State :=
  match s.blanket? k seq with
  | some f =>
    if f.absent.testBit m then s
    else ((s.onBlanket k seq fun f => { f with absent := f.absent ||| 2 ^ m }).inc .MRG_CNT_ABSENT k).mrgEvent k 0 seq m
  | none => s

/-- The sender posts the next packet of a seam, of up to 16 rows whose columns are complete (R195); with `all` rows still
missing go out as unavailable. -/
def State.seamSend (s : State) (k seq side : Nat) (all : Bool) : State :=
  match s.blanket? k seq with
  | none => s
  | some f =>
    let base := layBase k f.bank
    let v0 := if side = 0 then f.sentL else f.sentR
    let sp := s.seamSpan base side
    let ms := (List.range (s.layMembers base)).filter fun m =>
      decide ((s.owned base m).1 < sp.1 + sp.2) && decide (sp.1 < (s.owned base m).2)
    let ready := ((List.range 16).takeWhile fun i => decide (v0 + i < s.layBh base) &&
      (all || ms.all fun m => s.memberReady base f m (seamCol (s.seamExt base side)) (v0 + i))).length
    if !s.layExt base side || s.ownsExt base side || ready = 0 then s
    else
      let rows := (List.range ready).map fun i => s.seamRow base f sp.1 sp.2 (v0 + i)
      let i := 2 * k + side
      let data := leBytes 4 (s.get .MRG_H_SEAM_TAG i) ++ [s.par base (32 + side) 1, s.layPlanes base, ready, 0] ++
        leBytes 8 f.t0 ++ leBytes 2 f.job ++ leBytes 2 v0 ++ leBytes 4 sp.1 ++ leBytes 2 sp.2 ++ List.replicate 6 0 ++
        rows.flatMap (fun r => r.1.flatten) ++ rows.flatMap fun r => packBits (ceilDiv sp.2 8) r.2
      let s := (s.bump .MRG_H_SEAM_TAG i 1).onBlanket k seq fun f =>
        if side = 0 then { f with sentL := v0 + ready } else { f with sentR := v0 + ready }
      ((s.sendSeam (s.par base (30 + side) 1) data).trimRows k seq).blanketEnd k seq

/-- The tags of a blanket frame's members as their frames stand: flags that a frame has taken since it joined count
(R191). -/
def State.freshTags (s : State) (f : BFrame) : BFrame :=
  { f with members := f.members.map fun q => match s.frames.find? fun g => g.ch == q.ch && g.tag.seq == q.seq with
    | some g => { q with tag := g.tag }
    | none => q }

/-- A blanket frame is closed early (R189): its missing members are absent and every remaining row is emitted with what
is there. DESIGN CHOICE: seam rows that are still to be sent go out at once in the same way. -/
def State.closeEarly (s : State) (k seq : Nat) : State :=
  match s.blanket? k seq with
  | none => s
  | some f =>
    let base := layBase k f.bank
    let s := s.onBlanket k seq s.freshTags
    let s := ((List.range (s.layMembers base)).filter fun m =>
      !(f.members.any fun q => q.m == m && q.done)).foldl (fun s m => s.memberAbsentEarly k seq m) s
    let s := [0, 1].foldl (fun s d => (List.range (s.layBh base)).foldl (fun s _ => s.seamSend k seq d true) s) s
    f.cols.foldl (fun s t => s.emitWhile k seq t.col (fun _ _ _ => true) [] false (s.layBh base)) s

/-! ### Joining -/

/-- Difference of two times. -/
def absDiff (a b : Nat) : Nat := max a b - min a b

/-- A blanket frame of blanket `k` opens with a frame of member `m` (R189). DEDUCED: the first carries sequence 1, since
`MRG_BL_SEQ`, 0 at reset, is that of the last one opened. -/
def State.blanketOpen (s : State) (k bank m : Nat) (f : Frame) : State :=
  let s := match s.blankets.filter fun b => b.k == k with
    | a :: _ :: _ => s.closeEarly k a.seq
    | _ => s
  let seq := (s.get .MRG_BL_SEQ k + 1) % 2 ^ 32
  let base := layBase k bank
  let ctxBase := bankBase f.ch (f.work.bank.getD 0)
  let r := s.mrgRoi ctxBase f
  let b : BFrame := ⟨k, bank, seq, f.tag.time, f.tag.job, true,
    [⟨m, f.ch, f.tag.seq, f.tag, r.1, r.2.1, r.2.2.1, r.2.2.2, false, false⟩], [], [],
    (s.tileCols base).map fun c => ⟨c, 0, [], 0, 0, 0⟩, 0, false, 0, 0⟩
  let b := if s.layMembers base = 1 then { b with window := false } else b
  let s := (s.set .MRG_BL_SEQ k seq).frameAccepted (0x100 + k) seq
  ({ s with blankets := s.blankets ++ [b] } : State).refOpen k seq f.tag.job b.tag

/-- A frame of member `m` joins an open blanket frame; the window closes when all have joined (R189). -/
def State.blanketAdd (s : State) (k seq m : Nat) (f : Frame) : State :=
  let ctxBase := bankBase f.ch (f.work.bank.getD 0)
  let r := s.mrgRoi ctxBase f
  s.onBlanket k seq fun b =>
    let ms := b.members ++ [⟨m, f.ch, f.tag.seq, f.tag, r.1, r.2.1, r.2.2.1, r.2.2.2, false, false⟩]
    { b with members := ms, window := decide (ms.length < s.layMembers (layBase k b.bank)) }

/-- An absence that no blanket frame records (R190). -/
def State.noteAbsent (s : State) (k m : Nat) : State := (s.inc .MRG_CNT_ABSENT k).mrgEvent k 0 0 m

/-- A bound frame meets blanket `k` (R189, R197). A pending bank lands with the blanket frame that opens, which binds to it
where it has the frame's job; DESIGN CHOICE: in `MODE` 0 it lands also where that is a frame of the old bank's job, which
then binds to the old bank. -/
def State.joinOne (s : State) (f : Frame) (k : Nat) : State :=
  let listed := fun (b : Nat) => s.layState k b ≠ 0 && (s.layFind (layBase k b) f.ch).isSome
  if !(listed 0 || listed 1) then s
  else
    let memberOf := fun (b : BFrame) => (s.layFind (layBase k b.bank) f.ch).getD 0
    let near := s.blankets.filter fun b => b.k == k && b.job == f.tag.job &&
      decide (absDiff f.tag.time b.t0 ≤ s.layJoinNs (layBase k b.bank)) && (s.layFind (layBase k b.bank) f.ch).isSome &&
      !(b.members.any fun q => q.m == memberOf b)
    match near.find? fun b => b.window with
    | some b => s.blanketAdd k b.seq (memberOf b) f
    | none =>
      match near.head? with
      | some b => (s.inc .MRG_CNT_LATE k).mrgEvent k 3 b.seq (memberOf b)
      | none =>
        let takes := fun (b : Option Nat) => match b with
          | some b => if s.layJob (layBase k b) = f.tag.job then (s.layFind (layBase k b) f.ch).map fun m => (b, m) else none
          | none => none
        match takes (s.layPending k), takes (s.layApplied k) with
        | some (p, m), _ => (s.layLand k p).blanketOpen k p m f
        | none, some (a, m) =>
          let t := s.blanketOpen k a m f
          match s.layPending k with
          | some p => if s.get .MRG_H_MODE (2 * k + p) = 0 then t.layLand k p else t
          | none => t
        | none, none =>
          if (s.layApplied k).any fun a => s.layJob (layBase k a) == f.tag.job then s
          else
            let m := (((s.layApplied k).bind fun a => s.layFind (layBase k a) f.ch)).getD 0xFF
            ((s.inc .MRG_CNT_NOLAYOUT k).mrgEvent k 4 0 m).noteAbsent k m

/-- A bound frame joins the blankets its source is a member of. -/
def State.blanketJoin (s : State) (f : Frame) : State := (List.range 8).foldl (fun s k => s.joinOne f k) s

/-- A frame is refused: it is absent from the blanket frames it has joined (R141, R190). -/
def State.blanketAbsent (s : State) (f : Frame) : State :=
  s.blankets.foldl (fun s b => match b.members.find? fun q => q.ch == f.ch && q.seq == f.tag.seq with
    | some q => s.memberAbsent b.k b.seq q.m
    | none => s) s

/-- A frame has left the pipes: its tag is final for its blanket frames, and rows it has not sent never come. -/
def State.blanketPiped (s : State) (f : Frame) : State :=
  s.blankets.foldl (fun s b => s.onBlanket b.k b.seq fun b => { b with
    members := b.members.map fun q => if q.ch == f.ch && q.seq == f.tag.seq then { q with tag := f.tag, done := true } else q }) s

end Sys2Proof.Machine
end

