-- ==== Sys2Proof/Machine/PipeOps.lean ====
section
/-! DEFINITION. Shared operations of the pixel pipes and the stripe scheduler (05_pipeline_contexts.md): context banks
and their states, stripes and halos, eligibility, and the refusal of a frame. -/

namespace Sys2Proof.Machine

/-! ### Context banks -/

/-- State of a bank: 0 FREE, 1 PENDING, 2 APPLIED, 3 DRAINING (R132). -/
def State.bankState (s : State) (x b : Nat) : Nat := s.get .PIPE_H_BANK_STATE (2 * x + b)

/-- The APPLIED bank of a context. -/
def State.appliedBank (s : State) (x : Nat) : Option Nat := [0, 1].find? fun b => s.bankState x b == 2

/-- The PENDING bank of a context. -/
def State.pendingBank (s : State) (x : Nat) : Option Nat := [0, 1].find? fun b => s.bankState x b == 1

/-- The bank `PIPE_CTX_COMMIT` acts on (R132). -/
def State.commitBank (s : State) (x : Nat) : Nat :=
  match s.appliedBank x with
  | some b => 1 - b
  | none => 0

/-- Frames bound to a bank (R130). -/
def State.bound (s : State) (x b : Nat) : Nat := s.get .PIPE_H_BOUND (2 * x + b)

/-- A PENDING bank lands (R132): the former APPLIED bank drains, or is FREE when no frame is bound to it. Records of its
tap count from here (R177), and a slot of a pipe that holds its older content holds the bank no more (DESIGN CHOICE). -/
def State.landBank (s : State) (x b : Nat) : State :=
  let s := match s.appliedBank x with
    | some a => s.set .PIPE_H_BANK_STATE (2 * x + a) (if s.bound x a = 0 then 0 else 3)
    | none => s
  let s := (s.set .PIPE_H_BANK_STATE (2 * x + b) 2).set .PIPE_H_LASTBANK x (b + 1)
  { s with pipe := { s.pipe with tapCount := tabPut s.pipe.tapCount (2 * x + b) 0,
                                 slot := s.pipe.slot.filter fun e => e.2 != (x, b) } }

/-- The last frame bound to a bank is done with it (R132). -/
def State.unbind (s : State) (x b : Nat) : State :=
  let n := s.bound x b - 1
  let s := s.set .PIPE_H_BOUND (2 * x + b) n
  if n = 0 && s.bankState x b = 3 then s.set .PIPE_H_BANK_STATE (2 * x + b) 0 else s

/-- Header fields of a bank (R122). -/
def State.bankMux (s : State) (x b : Nat) : Bool := (s.par (bankBase x b) 2 1).testBit 0
def State.bankPrio (s : State) (x b : Nat) : Nat := s.par (bankBase x b) 2 1 / 2 % 4
def State.bankSpill (s : State) (x b : Nat) : Bool := (s.par (bankBase x b) 2 1).testBit 3
def State.bankLines (s : State) (x b : Nat) : Nat := s.par (bankBase x b) 3 1
def State.bankMask (s : State) (x b : Nat) : Nat := s.par (bankBase x b) 4 1
def State.bankJob (s : State) (x b : Nat) : Nat := s.par (bankBase x b) 0 2

/-- A bank is in use: APPLIED, or DRAINING. -/
def State.bankLive (s : State) (x b : Nat) : Bool := s.bankState x b == 2 || s.bankState x b == 3

/-- The context that holds a pipe in frame mode (R128). -/
def State.holder (s : State) (p : Nat) : Option Nat :=
  (List.range 132).find? fun x => [0, 1].any fun b => s.bankLive x b && s.bankMux x b && (s.bankMask x b).testBit p

/-! ### Stripes -/

/-- Halo radius of a frame under a bank (R539). -/
def State.radius (s : State) (x b : Nat) : Nat :=
  if (s.enab (bankBase x b) 2 || s.enab (bankBase x b) 3) && s.mosaic (bankBase x b) != 0 then 4 else 2

/-- Stripes of a frame of `h` lines (R124). -/
def stripeCount (h sl : Nat) : Nat := ceilDiv h sl

/-- First and last-plus-one input line of stripe `k` (R124). -/
def stripeIn (h sl r k : Nat) : Nat × Nat := (k * sl, min (k * sl + sl + 2 * r) h)

/-- First and last-plus-one output line of stripe `k` of `m` (R124). -/
def stripeOut (h sl r m k : Nat) : Nat × Nat :=
  (if k = 0 then 0 else k * sl + r, if k + 1 = m then h else min (k * sl + sl + r) h)

/-- The stripes of a frame that are scheduled: those with an output range that is not empty (R124). -/
def stripesOf (h sl r : Nat) : List Nat :=
  (List.range (stripeCount h sl)).filter fun k =>
    (stripeOut h sl r (stripeCount h sl) k).1 < (stripeOut h sl r (stripeCount h sl) k).2

/-- Cost of a stripe in pipe clocks (R119). -/
def stripeCost (e l w : Nat) : Nat := max (e * l * ceilDiv w 16 + 64) 512

/-- Scheduled stripes of a bound frame. -/
def State.frameStripes (s : State) (f : Frame) (b : Nat) : List Nat :=
  stripesOf f.height (s.bankLines f.ch b) (s.radius f.ch b)

/-- A line of the final exposure is present: received whole, and not the one being written (R127). -/
def State.linePresent (s : State) (f : Frame) (y : Nat) : Bool :=
  (f.lines.any fun l => l.exp + 1 == f.exps && l.no == y) &&
  !(match s.ing.packets.find? fun e => e.1 == f.ch / 4 with
    | some (_, p) => decide (f.ch < 128) && p.vc == f.ch % 4 && p.exp + 1 == f.exps && p.disp == some (.line y) && !f.closed
    | none => false)

/-- A line of an earlier exposure has been stored or recorded as missing (R129). -/
def Frame.earlierSettled (f : Frame) (y : Nat) : Bool :=
  (List.range (f.exps - 1)).all fun e =>
    f.missing.contains (e, y) || f.lines.any fun l => l.exp == e && l.no == y && l.home != .queue

/-- Stripe `k` has all it needs (R127): its lines are there, or its frame has closed; a replay source's pacing allows
it. -/
def State.stripeReady (s : State) (f : Frame) (b k : Nat) : Bool :=
  let r := stripeIn f.height (s.bankLines f.ch b) (s.radius f.ch b) k
  let ys := (List.range (r.2 - r.1)).map (r.1 + ·)
  if 128 ≤ f.ch then decide (r.2 ≤ f.work.paced)
  else (f.closed || ys.all (s.linePresent f)) && (f.exps == 1 || f.work.classic || ys.all f.earlierSettled)

/-- Change a frame named by source and sequence. -/
def State.onFrame (s : State) (c seq : Nat) (g : Frame → Frame) : State :=
  s.mapFrames (fun f => f.ch == c && f.tag.seq == seq) g

/-- A frame named by source and sequence. -/
def State.frame? (s : State) (c seq : Nat) : Option Frame := s.frames.find? fun f => f.ch == c && f.tag.seq == seq

/-- Bytes a line takes in the frame store, the holding store or the spill region (R137, R355). -/
def Frame.lineStride (f : Frame) : Nat := 32 * ceilDiv (lineBytes f.dt f.width) 32

/-- A line of a frame moves into stretches of LPDDR5X, packed as received (R129, R138). -/
def State.lineToMem (s : State) (f : Frame) (l : Line) (home : Home) (ext : List (Nat × Nat)) : State :=
  let b := packLine f.dt l.px l.data
  let at' := takeExt b.length ext
  (s.extWrite b at').onFrame f.ch f.tag.seq fun f => { f with lines := f.lines.map fun x =>
    if x.exp == l.exp && x.no == l.no then { x with home := home, words := 0, data := [], addr := at' } else x }

/-- A line is read back from LPDDR5X. One that an uncorrectable error hits counts as missing (06_pixel_corrections.md R158);
DESIGN CHOICE: so does a spilled one, whose case the manual does not state. -/
def State.lineFromMem (s : State) (f : Frame) (l : Line) : State × Line :=
  if l.addr.isEmpty then (s, l)
  else
    let q := s.extRead l.addr
    (q.1, match q.2 with
      | some b => { l with data := (unpack f.dt b).take l.px }
      | none => { l with state := 3, px := 0, data := [] })

/-- The lines `lo` to `hi - 1` of a frame that lie in LPDDR5X are read back for a pipe. -/
def State.loadLines (s : State) (c seq lo hi : Nat) : State :=
  match s.frame? c seq with
  | none => s
  | some f =>
    let r := f.lines.foldl (fun (a : State × List Line) l =>
      if lo ≤ l.no && l.no < hi then
        let q := a.1.lineFromMem f l
        (q.1, a.2 ++ [q.2])
      else (a.1, a.2 ++ [l])) (s, [])
    r.1.onFrame c seq fun f => { f with lines := r.2 }

/-- Note the stripes of a frame that have become eligible, with the present clock (R127, R134). -/
def State.noteFrame (s : State) (f : Frame) : Frame :=
  match f.work.bank with
  | none => f
  | some b =>
    if f.work.refused || s.bankMux f.ch b then f
    else
      let new := (s.frameStripes f b).filter fun k =>
        !(f.work.elig.any fun e => e.1 == k) && s.stripeReady f b k
      { f with work := { f.work with elig := f.work.elig ++ new.map fun k => (k, s.get .SYN_H_CLK) } }

/-- Note all newly eligible stripes. -/
def State.noteEligible (s : State) : State := { s with frames := s.frames.map s.noteFrame }

/-- A frame has left the pipes: its tag is final for the blanket frames it joined and for its egress deliveries. -/
def State.framePiped (s : State) (f : Frame) : State := (s.blanketPiped f).roiOffers f

/-! ### Refusal and completion of a frame -/

/-- Streams a bank's frames feed: its regions with an egress destination and its tap to egress (R133). -/
def State.bankStreams (s : State) (x b : Nat) : List Nat :=
  let base := bankBase x b
  let rois := ((s.rois base).filter fun r => r.dest.testBit 1).map (·.stream)
  let tap := if s.par base 0x1290 1 != 0 && s.par base 0x1291 1 == 1 then [s.par base 0x1296 2] else []
  (rois ++ tap).eraseDups

/-- Streams that a bound frame would feed: those of its bank, the tap's only for a frame that is tapped (R141). -/
def State.frameStreams (s : State) (f : Frame) : List Nat :=
  match f.work.bank with
  | none => []
  | some b =>
    let base := bankBase f.ch b
    let rois := ((s.rois base).filter fun r => r.dest.testBit 1).map (·.stream)
    (rois ++ if f.work.tapped && s.par base 0x1291 1 == 1 then [s.par base 0x1296 2] else []).eraseDups

/-- Sticky bit `k` of the scheduler with a frame's sequence, context and stripe (R149). -/
def State.schEvent (s : State) (k seq x stripe : Nat) : State :=
  s.sticky .PIPE_SCH_EVENTS_EV 0 k .PIPE_EVENT_EN_CTX 0 k 0x0020 x (0x0011 + k)
    (argAt 16 seq + argAt 20 x + argAt 22 stripe)

/-- Drop records of a refused frame, one per stream it would have fed (R133, R141). -/
def State.dropFrame (s : State) (f : Frame) (streams : List Nat) (cause : Nat) : State :=
  streams.foldl (fun s st => s.drop st f.ch f.tag.seq 0xFFFFFFFF cause 0xFFFF 0xFFFF 0 true) s

/-- Lines of a frame are released wherever they are held, and its blocks of the frame store (R355). -/
def Frame.releaseAll (f : Frame) : Frame :=
  { f with lines := f.lines.map fun l => { l with home := .released, words := 0, addr := [] },
           work := { f.work with blocks := [] } }

/-- Store taken for a stripe of a frame is given back. -/
def State.freeHolds (s : State) (p : StripeRef → Bool) : State :=
  { s with pipe := { s.pipe with holds := s.pipe.holds.filter fun h => !p h.stripe,
                                 copies := s.pipe.copies.filter fun c => !p c.2.stripe } }

/-- One whole frame is refused (R133, R141): its lines are released and the rest is discarded as it arrives, a stripe of it
that waits in a pipe's other slot is given up, its binding ends, its drop records are passed on, and the merger is told. -/
def State.refuseFrame (s : State) (f : Frame) (cause : Nat) (streams : List Nat) : State :=
  let s := s.onFrame f.ch f.tag.seq fun f =>
    { f.releaseAll with work := { f.work with refused := true, bank := none } }
  let s := s.freeHolds fun r => r.ch == f.ch && r.seq == f.tag.seq
  let s : State := { s with pipe := { s.pipe with
    next := s.pipe.next.filter fun q => !(q.2.ch == f.ch && q.2.seq == f.tag.seq) } }
  let s := match f.work.bank with | some b => s.unbind f.ch b | none => s
  (s.dropFrame f streams cause).blanketAbsent f

/-! ### What ingress reports -/

/-- A frame that starts now lands the PENDING bank (R132): `MODE` 0, or a replay source's, which knows no switch point. -/
def State.landsNow (s : State) (x b : Nat) : Bool := s.get .PIPE_H_MODE (2 * x + b) == 0 || decide (128 ≤ x)

/-- A frame that starts now finds an APPLIED bank (R130, R132). -/
def State.appliedOrLanding (s : State) (x : Nat) : Bool :=
  (s.appliedBank x).isSome || (match s.pendingBank x with | some b => s.landsNow x b | none => false)

/-- A frame opens (R130, R132, R133, R152): a bank that lands with it lands, the frame binds to the APPLIED bank, takes its
job ID and joins its blanket; without one it is refused. `blocks` are those of the frame store for its earlier exposures,
none where it cannot take them. -/
def State.bindFrame (s : State) (f : Frame) (blocks : Option (List (Nat × Nat))) : State :=
  let x := f.ch
  let s := match s.pendingBank x with
    | some b => if s.landsNow x b then s.landBank x b else s
    | none => s
  match s.appliedBank x with
  | some b =>
    let s := s.set .PIPE_H_BOUND (2 * x + b) (s.bound x b + 1)
    let every := s.par (bankBase x b) 0x1294 2
    let tapped := s.par (bankBase x b) 0x1290 1 != 0 && every != 0 && f.tag.seq % every == 0
    let classic := f.exps ≠ 1 && blocks.isNone
    let flag := classic || s.enab (bankBase x b) 0
    let s := s.onFrame x f.tag.seq fun f =>
      let f := { f with tag := { f.tag with job := s.bankJob x b },
                        work := { f.work with bank := some b, classic := classic, tapped := tapped,
                                              blocks := blocks.getD [] } }
      if flag then f.flag 12 else f
    match s.frame? x f.tag.seq with
    | some g => s.blanketJoin g
    | none => s
  | none =>
    let last := s.get .PIPE_H_LASTBANK x
    let streams := if last = 0 then [0] else s.bankStreams x (last - 1)
    ((s.inc .PIPE_CNT_NOCTX).schEvent 3 f.tag.seq x 0).refuseFrame f 2 streams

/-- Bytes of the frame store that a frame's earlier exposures need, in whole blocks of 2 MiB (R129, R355). -/
def Frame.storeNeed (f : Frame) : Nat := ceilDiv ((f.exps - 1) * f.height * f.lineStride) (2 ^ 21) * 2 ^ 21

/-- Blocks of the frame store in use (R355). -/
def State.storeUsed (s : State) : Nat := s.frames.foldl (fun a f => a + extSize f.work.blocks) 0 / 2 ^ 21

/-- Blocks of the frame store for a frame's earlier exposures, none where they are not free (R355). -/
def State.storeTake (s : State) (f : Frame) : Option (List (Nat × Nat)) :=
  let lo := s.get .MEM_FS_BASE
  let ext := placeExt lo (lo + s.get .MEM_FS_SIZE_SIZE_MIB * 2 ^ 20) f.storeNeed (s.frames.flatMap fun g => g.work.blocks)
  if extSize ext = f.storeNeed then some ext else none

/-- A frame that finds no room in the frame store: counted, and `FS_FULL` set (R355, R363). -/
def State.storeFull (s : State) : State :=
  (s.inc .MEM_CNT_FS_FULL).sticky .MEM_EVENTS_EV 0 4 .MEM_EVENT_EN 0 4 0x0050 0xFFFF 0x0005 0

/-- The frame that has just opened on a source is bound. -/
def State.frameOpened (s : State) (c : Nat) : State :=
  match s.openFrame c with
  | none => s
  | some f =>
    let s := s.frameAccepted f.ch f.tag.seq
    let blocks := s.storeTake f
    (if f.exps ≠ 1 && blocks.isNone && (s.appliedOrLanding c) then s.storeFull else s).bindFrame f blocks

/-- A frame has closed: what is left of it becomes eligible (R127); one that the device is done with leaves. -/
def State.frameClosed (s : State) (c : Nat) : State :=
  ({ s with frames := s.frames.filter fun f => !(f.ch == c && f.closed && f.work.bank.isNone) } : State).noteEligible

end Sys2Proof.Machine
end

