-- ==== Sys2Proof/Machine/IngOps.lean ====
section
/-! DEFINITION. Shared operations of camera ingress (03_camera_ingress.md): queue level and watermarks, pixel unpacking,
lines, and the opening and closing of frames. -/

namespace Sys2Proof.Machine

/-! ### Channels and data types -/

/-- Channel `c` exists: its lane has role ingress and is enabled (R58). -/
def State.channelExists (s : State) (c : Nat) : Bool :=
  decide (c < 128) && s.get .LANE_ID_ROLE (c / 4) == 1 && s.on .LANE_CTRL_ENABLE (c / 4)

/-! ### Queue level, watermarks and pins -/

/-- Lines of lane `n` that hold queue words. -/
def State.queued (s : State) (n : Nat) : List Line :=
  (s.frames.filter fun f => f.ch / 4 == n && f.ch < 128).flatMap fun f => f.lines.filter fun l => l.home == .queue

/-- Words held in the queue of a lane. -/
def State.wordsHeld (s : State) (n : Nat) : Nat := (s.queued n).foldl (fun a l => a + l.words) 0

/-- Each mapped FC_OUT pin follows `ABOVE` of its queue; an unmapped pin drives 0 (R84). -/
def State.fcPin (s : State) (j : Nat) : State :=
  let above := s.get .ING_QUEUE_LEVEL_ABOVE (s.get .ING_FC_MAP_QUEUE j)
  let inv := s.get .ING_FC_MAP_INV j
  let v := if s.on .ING_FC_MAP_EN j then (above + inv) % 2 else 0
  if s.get .SYN_H_FCPIN j = v then s else (s.set .SYN_H_FCPIN j v).emit (.pin "FC_OUT" j v)

/-- Bring all FC_OUT pins up to date. -/
def State.fcPins (s : State) : State := (List.range 8).foldl State.fcPin s

/-- Send the pause state of a lane (R68); a lane that is not ACTIVE carries no symbol (02_lane_complex.md R28). -/
def State.sendPause (s : State) (n p : Nat) : State :=
  if s.get .LANE_STATUS_STATE n = 5 then (s.set .ING_LANE_STATUS_PAUSED n p).emit (.usmas n 0x50 [p, 0, 0, 0, 0]) else s

/-- The watermark state of a queue follows its level (R83): a setting counts, sets the sticky bit and raises its event;
either change moves the pins and sends the pause state. -/
def State.evalWatermark (s : State) (n : Nat) : State :=
  let level := s.get .ING_QUEUE_LEVEL_LEVEL n
  if !s.on .ING_QUEUE_LEVEL_ABOVE n && decide (s.get .ING_QUEUE_HWM n ≤ level) then
    let s := (((s.set .ING_QUEUE_LEVEL_ABOVE n 1).inc .ING_QUEUE_CROSS_COUNT n).queueEvent n 0 0).fcPins
    if s.on .ING_QUEUE_CTRL_PAUSE_EN n then s.sendPause n 1 else s
  else if s.on .ING_QUEUE_LEVEL_ABOVE n && decide (level ≤ s.get .ING_QUEUE_LWM n) then
    let s := (s.set .ING_QUEUE_LEVEL_ABOVE n 0).fcPins
    if s.on .ING_QUEUE_CTRL_PAUSE_EN n then s.sendPause n 0 else s
  else s

/-- The level and the descriptors in use of a queue after its lines have changed; discarding ends once the level has
fallen to `LWM` (R81, R82). The pointers move with the words. -/
def State.relevel (s : State) (n : Nat) : State :=
  let old := s.get .ING_QUEUE_LEVEL_LEVEL n
  let new := s.wordsHeld n
  let s := (s.set .ING_QUEUE_LEVEL_LEVEL n new).set .ING_QUEUE_LEVEL_DESC n (s.queued n).length
  let s := (s.bump .ING_H_WPTR_A n (new - old)).bump .ING_H_WPTR_B n (new - old)
  let s := (s.bump .ING_H_RPTR_A n (old - new)).bump .ING_H_RPTR_B n (old - new)
  (if new ≤ s.get .ING_QUEUE_LWM n then s.set .ING_H_FULL n 0 else s).evalWatermark n

/-! ### Lines -/

/-- Put a line in the place of the one with its exposure and number, or at the end. -/
def Frame.putLine (f : Frame) (l : Line) : Frame :=
  if f.lines.any fun x => x.exp == l.exp && x.no == l.no then
    { f with lines := f.lines.map fun x => if x.exp == l.exp && x.no == l.no then l else x }
  else { f with lines := f.lines ++ [l] }

/-- A filled line: no pixel received, no queue space (R78 state 3). -/
def filledLine (e n : Nat) : Line := ⟨e, n, 3, 0, 0, [], .released, false, []⟩

/-- Number of the next line of an exposure. -/
def Frame.nextNo (f : Frame) (e : Nat) : Nat := f.next.getD e 0

/-- The next line number of an exposure moves on. -/
def Frame.setNext (f : Frame) (e n : Nat) : Frame := { f with next := f.next.set e n }

/-- The lines `a` to `b - 1` of exposure `e` were never received: filled in the last exposure, recorded as missing in an
earlier one (R79, R129). -/
def Frame.missLines (f : Frame) (e a b : Nat) : Frame :=
  let ns := (List.range (b - a)).map (a + ·)
  if e + 1 = f.exps then ns.foldl (fun f n => f.putLine (filledLine e n)) f
  else { f with missing := f.missing ++ ns.map fun n => (e, n) }

/-- Lines of an exposure that the frame has not received and not yet filled or recorded. -/
def Frame.missRest (f : Frame) (e : Nat) : Frame :=
  (f.missLines e (f.nextNo e) f.height).setNext e f.height

/-- The frame has a filled line in its last exposure. -/
def Frame.hasFilled (f : Frame) : Bool := f.lines.any fun l => l.exp + 1 == f.exps && l.state == 3

/-- Lines that the close of the frame finds missing: those of every exposure still open, up to `HEIGHT` (R79). -/
def Frame.restLines (f : Frame) : Nat :=
  (List.range f.exps).foldl (fun n e => if f.ended.testBit e then n else n + (f.height - f.nextNo e)) 0

/-- Filled lines of the last exposure (R79). -/
def Frame.filledLines (f : Frame) : Nat := (f.lines.filter fun l => l.exp + 1 == f.exps && l.state == 3).length

/-! ### Opening and closing frames -/

/-- An exposure of the frame ends: its missing lines are settled (R79). -/
def Frame.endExposure (f : Frame) (e : Nat) : Frame :=
  { f.missRest e with ended := f.ended ||| 2 ^ e }

/-- Close the open frame of channel `c` (R79, R80); `implied` marks an implied FE. An exposure is present when a line of it
was received, also where a flush or a queue reset has taken the line since. -/
def State.closeFrame (s : State) (c : Nat) (implied : Bool) : State :=
  match s.openFrame c with
  | none => s
  | some f =>
    let f1 := (List.range f.exps).foldl (fun (g : Frame) e => if g.ended.testBit e then g else g.endExposure e) f
    let s := s.onOpen c fun _ => f1
    let s := if f1.hasFilled then s.flagOpen c 4 f1.filledLines else s
    let s := if implied then s.flagOpen c 6 f.restLines else s
    let flags := match s.openFrame c with | some g => g.tag.flags | none => 0
    let s := if c < 128 then (s.inc .ING_CH_CNT_FRAMES c).set .ING_CH_STATUS_OPEN c 0 else s
    let s := if c < 128 && flags / 4 % 128 ≠ 0 then s.inc .ING_CH_CNT_BAD c else s
    let s := s.onOpen c fun g =>
      { g with present := g.got, tag := { g.tag with expMask := g.got }, closed := true }
    s.frameClosed c

/-- The applied configuration takes the shadow (R76). -/
def State.applyShadow (s : State) (c : Nat) : State :=
  let cp := fun (s : State) (p : Fld × Fld) => s.set p.2 c (s.get p.1 c)
  let s := [(Fld.ING_CH_CFG_EN, Fld.ING_CH_H_EN), (.ING_CH_CFG_LS_MODE, .ING_CH_H_LS_MODE),
    (.ING_CH_CFG_EXPOSURES, .ING_CH_H_EXPOSURES), (.ING_CH_CFG_DT, .ING_CH_H_DT),
    (.ING_CH_SIZE_WIDTH, .ING_CH_H_WIDTH), (.ING_CH_SIZE_HEIGHT, .ING_CH_H_HEIGHT),
    (.ING_CH_FILL, .ING_CH_H_FILL), (.ING_CH_TIMEOUT_FRAME_TIMEOUT_US, .ING_CH_H_TIMEOUT)].foldl cp s
  s.set .ING_CH_STATUS_SHADOW_PENDING c 0

/-- `APPLY` has been written, and the shadow waits for the next FS of exposure 0 (R76). -/
def State.shadowDue (s : State) (c : Nat) : Bool :=
  s.on .ING_CH_STATUS_SHADOW_PENDING c

/-- The frame opens at its FS (R79, R114): number recorded, gap counted, tag opened with position and time. DEDUCED: the
first frame of a channel carries sequence 0, the value of the count before it, as 04_sync_and_tagging.md R114 has it. -/
def State.openAt (s : State) (c fn : Nat) : State :=
  let gap := s.on .ING_CH_H_FN_VALID c && fn != (s.get .ING_CH_H_FN0 c + 1) % 65536
  let seq := s.get .ING_CH_H_SEQ c
  let s := ((s.bump .ING_CH_H_SEQ c 1).set .ING_CH_FNUM_LAST_FN c fn).set .ING_CH_H_FN0 c fn
  let s := s.set .ING_CH_H_FN_VALID c 1
  let s := if gap then (s.inc .ING_CH_CNT_FNGAP c).chFlag c 9 seq 0 else s
  let m := s.fsMatch c
  let s := m.1
  let f : Frame := {
    ch := c, tag := ⟨0, c, seq, m.2.1, s.get .JOB_IDS_CUR_ID, m.2.2, 0, 0, 0, 0⟩, fn := fn,
    exps := s.get .ING_CH_H_EXPOSURES c + 1, dt := s.get .ING_CH_H_DT c, width := s.get .ING_CH_H_WIDTH c,
    height := s.get .ING_CH_H_HEIGHT c, fill := s.get .ING_CH_H_FILL c, lsMode := s.get .ING_CH_H_LS_MODE c,
    begun := 1, ended := 0, got := 0, present := 0, next := [0, 0, 0, 0], condemned := 0, lines := [], missing := [],
    embedded := [], extra := 0, closed := false,
    work := ⟨none, false, false, [], [], [], [], 0, 0, false, false, false, 0, []⟩ }
  let s : State := { s with frames := s.frames ++ [f] }
  let s := ((s.set .ING_CH_STATUS_OPEN c 1).set .ING_CH_STATUS_EXPOSURE c 0).set .ING_CH_STATUS_LINES c 0
  s.frameOpened c

end Sys2Proof.Machine
end

