-- ==== Sys2Proof/Machine/Ingress.lean ====
section
/-! DEFINITION. Camera ingress: segments, packets, frames, queues and replay (03_camera_ingress.md). -/

namespace Sys2Proof.Machine

/-! ### Packets -/

/-- The packet open on a lane. -/
def State.packet (s : State) (n : Nat) : Option Packet :=
  (s.ing.packets.find? fun e => e.1 == n).map (·.2)

/-- The lane's open packet becomes `p`. -/
def State.setPacket (s : State) (n : Nat) (p : Packet) : State :=
  { s with ing := { s.ing with packets := tabPut s.ing.packets n p } }

/-- The lane has no open packet. -/
def State.noPacket (s : State) (n : Nat) : State :=
  { s with ing := { s.ing with packets := tabErase s.ing.packets n } }

/-- A discarded packet or segment is counted (R63). -/
def State.discard (s : State) (n : Nat) : State := s.inc .ING_LANE_CNT_DISCARD n

/-- Word count of a packet's header. -/
def Packet.wc (p : Packet) : Nat := leAt p.bytes 1 2

/-- Data type of a packet's header; the upper two bits of its first byte are the VC (R74). -/
def Packet.dt (p : Packet) : Nat := p.bytes.getD 0 0 % 64

/-- The packet is long: its data type is 0x10 or above. -/
def Packet.isLong (p : Packet) : Bool := decide (16 ≤ p.dt)

/-- Bytes a packet of this header may have. -/
def Packet.limit (p : Packet) : Nat := if p.isLong then 4 + p.wc + 2 else 4

/-- Payload bytes received that belong to the word count. -/
def Packet.payload (p : Packet) : List Nat := (p.bytes.drop 4).take p.wc

/-- An FS of exposure 0 that comes now belongs to the new job (12_jobs_and_autonomy.md R307): it is matched to a fire made
after the switch, or it is unmatched and comes more than `LAG_US` after the switch edge. -/
def State.newJobFs (s : State) (c : Nat) : Bool :=
  let lag := decide (s.get .JOB_H_SWEDGE + s.get .JOB_CFG_LAG_US * 1000 < s.elapsed)
  s.on .JOB_H_SWPEND c &&
    match (s.firesOf c).find? fun f => decide (s.now ≤ f.dep + s.get .SYN_CH_MATCH_MATCH_WINDOW_US c * 1000) with
    | some f => if f.dep < s.now then f.sw == s.get .JOB_SW_SEQ else lag
    | none => lag

/-- The channel's switch point lands its shadow and a bank committed with `MODE` 1 (R76, R132, R307). -/
def State.switchPoint (s : State) (c : Nat) : State :=
  if s.newJobFs c then
    let s := s.set .JOB_H_SWPEND c 0
    let s := if s.on .ING_CH_H_SWITCH c then (s.applyShadow c).set .ING_CH_H_SWITCH c 0 else s
    match s.pendingBank c with
    | some b => if s.get .PIPE_H_MODE (2 * c + b) = 1 then s.landBank c b else s
    | none => s
  else s

/-- An FS of exposure 0 at step 4 of R75: an open frame closes with implied FE, then a waiting shadow applies (R76), at the
channel's switch point with the bank of the new job. -/
def State.fsStep4 (s : State) (c : Nat) : State :=
  let s := s.closeFrame c true
  let s := if s.shadowDue c then s.applyShadow c else s
  s.switchPoint c

/-- The frame rules for an FS that the channel accepts (R79). -/
def State.fsRule (s : State) (c e fn : Nat) : State :=
  if e = 0 then s.openAt c fn
  else match s.openFrame c with
    | some f =>
      if e < f.exps && !f.begun.testBit e then
        ((s.onOpen c fun f => { f with begun := f.begun ||| 2 ^ e }).set .ING_CH_STATUS_EXPOSURE c e).set
          .ING_CH_FNUM_LAST_FN c fn
      else s.discard (c / 4)
    | none => s.discard (c / 4)

/-- The frame rules for an FE (R79). -/
def State.feRule (s : State) (c e : Nat) : State :=
  match s.openFrame c with
  | none => s.discard (c / 4)
  | some f =>
    if e + 1 = f.exps then s.closeFrame c false
    else if e < f.exps && f.begun.testBit e && !f.ended.testBit e then s.onOpen c fun f => f.endExposure e
    else s.discard (c / 4)

/-- The frame rules for an LS (R79): with `LS_MODE` 1 the number says which line comes next, counting from 1. -/
def State.lsRule (s : State) (c e num : Nat) : State :=
  match s.openFrame c with
  | none => s
  | some f =>
    if f.lsMode = 0 || !(e < f.exps && f.begun.testBit e && !f.ended.testBit e) then s
    else
      let x := f.nextNo e + 1
      if num > x then
        let upto := min (num - 1) f.height
        let s := s.onOpen c fun f => (f.missLines e (x - 1) upto).setNext e upto
        if e + 1 = f.exps && upto > x - 1 then s.flagOpen c 4 (upto - (x - 1)) else s
      else if num < x then s.onOpen c fun f => { f with condemned := f.condemned ||| 2 ^ e }
      else s

/-- A line of the open frame will not be received (R79): its position stays missing. -/
def State.passLine (s : State) (c e no : Nat) : State := s.onOpen c fun f => (f.missLines e no (no + 1)).setNext e (no + 1)

/-- A line that the full queue cannot take (R82): filled in the last exposure, whose frame is then a short frame, recorded as
missing in an earlier one. -/
def State.missLine (s : State) (c e no : Nat) : State :=
  let last := match s.openFrame c with | some f => e + 1 == f.exps | none => false
  if last then (s.passLine c e no).flagOpen c 4 1 else s.passLine c e no

/-- A long packet of a pixel type or of embedded data meets the frame rules (R79) and the queue (R82): the answer says what
becomes of its payload. -/
def State.lineRule (s : State) (c e dt : Nat) : State × Disp :=
  let lane := c / 4
  match s.openFrame c with
  | none => (s.discard lane, .pass)
  | some f =>
    let no := f.nextNo e
    if !(e < f.exps && f.begun.testBit e && !f.ended.testBit e) then (s.discard lane, .pass)
    else if f.condemned.testBit e then
      ((s.onOpen c fun f => { f with condemned := f.condemned - 2 ^ e }).discard lane, .pass)
    else if dt = 0x12 then
      if s.on .ING_H_FULL lane then (s, .dropped)
      else if f.embedded.length < 4 then (s, .embedded) else (s.discard lane, .pass)
    else if dt ≠ f.dt then
      ((if no < f.height then s.passLine c e no else s).discard lane, .pass)
    else
      if f.height ≤ no then ((s.onOpen c fun f => { f with extra := f.extra + 1 }).flagOpen c 5 (f.extra + 1), .pass)
      else
        let s := (s.onOpen c fun f => f.setNext e (no + 1)).set .ING_CH_STATUS_LINES c (no + 1)
        if s.on .ING_H_FULL lane then (s.missLine c e no, .dropped)
        else if f.work.bank.isNone then (s.onOpen c fun f => f.putLine ⟨e, no, 0, 0, 0, [], .released, false, []⟩, .line no)
        else if Config.queueDescs ≤ s.get .ING_QUEUE_LEVEL_DESC lane ||
            Config.queueWords ≤ s.get .ING_QUEUE_LEVEL_LEVEL lane then
          let s := (s.set .ING_H_FULL lane 1).queueEvent lane 3 1
          (s.missLine c e no, .overflow no)
        else (s.onOpen c fun f => f.putLine ⟨e, no, 0, 0, 0, [], .queue, false, []⟩, .line no)

/-- The checks of R75 once the 4-byte header is complete. `ecc` is what the header check found. A corrected header flags the
open frame of the channel at step 1; DEDUCED: that of an FS of exposure 0 flags the frame it opens. While the queue
discards whole packets (R82), only FS and FE still pass. -/
def State.headerChecks (s : State) (n : Nat) (p : Packet) (ecc : Nat) : State × Disp :=
  let c := 4 * n + p.vc
  let b0 := p.bytes.getD 0 0
  let num := leAt p.bytes 1 2
  let pixel := (dtGroup p.dt).isSome
  let known := pixel || p.dt < 4 || p.dt == 0x12
  if ecc = 2 then (s.inc .ING_LANE_CNT_ECC_UNCORR n, .pass)
  else
    let opens := p.dt = 0 && p.exp = 0
    let s := if ecc = 1 then s.inc .ING_LANE_CNT_ECC_CORR n else s
    let s := if ecc = 1 && !opens then s.flagOpen c 1 0 else s
    if p.bytes.getD 3 0 / 64 ≠ 0 || b0 / 64 ≠ p.vc then (s.discard n, .pass)
    else if !known then (s.discard n, .pass)
    else
      let s := if opens then s.fsStep4 c else s
      if !s.on .ING_CH_H_EN c then (s.discard n, .pass)
      else if p.dt = 0 then
        let s := s.fsRule c p.exp num
        (if ecc = 1 && opens then s.flagOpen c 1 0 else s, .pass)
      else if p.dt = 1 then (s.feRule c p.exp, .pass)
      else if p.dt < 16 && s.on .ING_H_FULL n then (s, .dropped)
      else if p.dt = 2 then (s.lsRule c p.exp num, .pass)
      else if p.dt = 3 then (s, .pass)
      else s.lineRule c p.exp p.dt

/-- Store what the queue can take of the line being written (R81, R82): whole words of the packed payload up to the
line's bytes; where the room ends, the line has overflowed and the queue counts as full. -/
def State.storeBytes (s : State) (n : Nat) (p : Packet) : State × Packet :=
  match p.disp with
  | some (.line no) =>
    let c := 4 * n + p.vc
    match s.openFrame c with
    | none => (s, p)
    | some f =>
      if f.work.bank.isNone then (s, p) else
      let have' := ((f.lines.find? fun l => l.exp == p.exp && l.no == no).map (·.words)).getD 0
      let want := ceilDiv (min p.payload.length (lineBytes f.dt f.width)) 32
      let room := Config.queueWords - s.get .ING_QUEUE_LEVEL_LEVEL n
      let words := min want (have' + room)
      let upd := fun (f : Frame) => { f with lines := f.lines.map fun l =>
        if l.exp == p.exp && l.no == no then { l with words := words } else l }
      let s := (s.onOpen c upd).relevel n
      if words < want then
        ((s.set .ING_H_FULL n 1).queueEvent n 3 1, { p with disp := some (.overflow no), lost := 4 + 32 * words })
      else (s, p)
  | _ => (s, p)

/-- A long packet of the open frame failed its CRC or was cut short (R64, R75): counted, and the frame is flagged. -/
def State.crcError (s : State) (c : Nat) : State := (s.flagOpen c 0 1).inc .ING_CH_CNT_CRC c

/-- The line of a packet that ends is settled (R64, R78): its pixels, its state and the flags of its frame. `keep` is
how many payload bytes were stored. -/
def State.endLine (s : State) (n : Nat) (p : Packet) (no keep : Nat) (crc : Bool) : State :=
  let c := 4 * n + p.vc
  match s.openFrame c with
  | none => s
  | some f =>
    let all := unpack f.dt (p.payload.take keep)
    let px := all.take f.width
    let st := if px.length = 0 then 3 else if px.length < f.width then 1 else if f.width < all.length then 2 else 0
    let words := if st = 3 then 0 else ceilDiv (min (p.payload.take keep).length (lineBytes f.dt f.width)) 32
    let s := if st = 3 then s else s.onOpen c fun f => { f with got := f.got ||| 2 ^ p.exp }
    let s := s.onOpen c fun f =>
      if st = 3 && p.exp + 1 < f.exps then
        { f with lines := f.lines.filter fun l => !(l.exp == p.exp && l.no == no),
                 missing := f.missing ++ [(p.exp, no)] }
      else if f.work.bank.isNone || (f.work.classic && p.exp + 1 < f.exps) then
        f.putLine ⟨p.exp, no, st, px.length, 0, px, .released, false, []⟩
      else f.putLine ⟨p.exp, no, st, px.length, words, px, if st = 3 then .released else .queue, false, []⟩
    let s := if st = 1 then s.flagOpen c 2 1 else if st = 2 then s.flagOpen c 3 1
      else if st = 3 && p.exp + 1 = f.exps then s.flagOpen c 4 1 else s
    let s := if crc then s.crcError c else s
    s.relevel n

/-- A packet ends: with its EOP, or cut short (`cut`). `crcBad` is the verdict of the long-packet CRC. Words the queue could
not store count here (R82); they hold payload, up to the line's bytes (DEDUCED). DESIGN CHOICE: a packet cut before its 4
header bytes are complete counts one `DISCARD`, as one that EOP ends there does (R63). -/
def State.endPacket (s : State) (n : Nat) (p : Packet) (cut crcBad : Bool) : State :=
  let s := s.noPacket n
  let c := 4 * n + p.vc
  let short := cut || decide (p.bytes.length < p.limit)
  match p.disp with
  | none => s.discard n
  | some .pass => s
  | some .embedded =>
    let s := s.onOpen c fun f => { f with embedded := f.embedded ++ [p.payload] }
    if short || crcBad then s.crcError c else s
  | some (.line no) => s.endLine n p no p.wc (short || crcBad)
  | some .dropped => if p.isLong then s.add .ING_LANE_CNT_OVF n (ceilDiv p.payload.length 32) else s
  | some (.overflow no) =>
    let line := ((s.openFrame c).map fun f => lineBytes f.dt f.width).getD p.wc
    let s := s.add .ING_LANE_CNT_OVF n (ceilDiv (min p.payload.length line + 4 - p.lost) 32)
    match (s.openFrame c).bind fun f => f.lines.find? fun l => l.exp == p.exp && l.no == no && l.state != 3 with
    | some l => s.endLine n p no (32 * l.words) (short || crcBad)
    | none => if short || crcBad then s.crcError c else s

/-- The open packet of a lane is cut (R63, R85). -/
def State.cutPacket (s : State) (n : Nat) : State :=
  match s.packet n with
  | some p => s.endPacket n p true false
  | none => s

/-- Held lines that no pipe has begun become filled lines (R86, R87); the answer counts those of a frame. -/
def Frame.loseLines (f : Frame) : Frame × Nat :=
  let lost := fun (l : Line) => l.home == .queue && !l.begun
  let n := (f.lines.filter lost).length
  ({ f with lines := f.lines.map fun l => if lost l then filledLine l.exp l.no else l }, n)

/-- Every frame of a lane that held lines loses them and takes the flags of the happening (flag 4, short frame, only with
a line filled); with `openToo` the open ones take them anyway. -/
def State.loseQueue (s : State) (n : Nat) (flags : List Nat) (openToo : Bool) : State :=
  let chs := [0, 1, 2, 3].map (4 * n + ·)
  let hit := fun (f : Frame) => chs.contains f.ch && (decide (0 < f.loseLines.2) || (openToo && !f.closed))
  let struck := s.frames.filter hit
  let own := fun (f : Frame) => flags.filter fun k => k != 4 || decide (0 < f.loseLines.2)
  let s := s.mapFrames hit fun f => (own f).foldl Frame.flag f.loseLines.1
  struck.foldl (fun s f => (own f).foldl (fun s k => s.chFlag f.ch k f.tag.seq f.loseLines.2) s) s

/-- Open frames of a lane close with implied FE. -/
def State.closeLane (s : State) (n : Nat) : State :=
  [0, 1, 2, 3].foldl (fun s v => s.closeFrame (4 * n + v) true) s

/-- The flush takes effect (R87 steps 2 to 4). -/
def State.flushEffect (s : State) (n : Nat) : State :=
  let s := (s.loseQueue n [8, 4] false).closeLane n
  ((s.set .ING_QUEUE_LEVEL_FLUSHING n 0).relevel n).queueEvent n 5 0

/-- The open packet of a lane is cut by what follows it; a flush that waited for its end takes effect (R87). -/
def State.cutAwaited (s : State) (n : Nat) : State :=
  let s := s.cutPacket n
  if s.on .ING_QUEUE_LEVEL_FLUSHING n then s.flushEffect n else s

/-- Bytes join the open packet; surplus bytes are discarded and counted once (R63). DESIGN CHOICE: for a packet discarded at
an uncorrectable header the limit is that of the header as received; the spec does not say. -/
def State.appendBytes (s : State) (n : Nat) (p : Packet) (pl : List Nat) (ecc : Nat) : State × Packet :=
  let all := p.bytes ++ pl
  let hdr := p.disp.isNone && decide (4 ≤ all.length)
  let p' := { p with bytes := all }
  let r : State × Packet :=
    if hdr then
      let d := s.headerChecks n p' ecc
      (d.1, { p' with disp := some d.2, lost := match d.2 with | .overflow _ => 4 | _ => 0 })
    else (s, p')
  let p := r.2
  if p.disp.isSome && decide (p.limit < p.bytes.length) then
    let q := { p with bytes := p.bytes.take p.limit, overLong := true }
    (if p.overLong then r.1 else r.1.discard n, q)
  else (r.1, p)

/-- A segment of the right order is reassembled (R63). -/
def State.reassemble (s : State) (n : Nat) (seg : Segment) : State :=
  let fl := seg.hdr.getD 0 0
  let vc := fl % 4
  let ex := fl / 4 % 4
  let sop := fl.testBit 4
  let eop := fl.testBit 5
  let pl := seg.payload.take (leAt seg.hdr 1 2)
  let go := fun (s : State) (p : Packet) =>
    let r := s.appendBytes n p pl seg.ecc
    let r := r.1.storeBytes n r.2
    if eop then r.1.endPacket n r.2 false seg.crcBad else r.1.setPacket n r.2
  if sop then go (s.cutAwaited n) ⟨vc, ex, [], none, 0, false⟩
  else match s.packet n with
    | none => s.discard n
    | some p => if p.vc = vc && p.exp = ex then go s p else (s.cutPacket n).discard n

/-- The segment fails the checks of R62. -/
def segBad (g : Segment) : Bool :=
  let len := leAt g.hdr 1 2
  crc16 (g.hdr.take 5) != leAt g.hdr 5 2 || len == 0 || decide (800 < len) || g.hdr.getD 4 0 != 0 ||
    decide (64 ≤ g.hdr.getD 0 0) || g.fecBad

/-- Version 3's sequence check (R62): a gap is counted and cuts the open packet; the number is the next reference. -/
def State.segSequence (s : State) (n seq : Nat) : State :=
  if s.get .ING_LANE_STATUS_VER n = 3 then
    let want := (s.get .ING_H_SEQ n + 1) % 256
    let s' := if s.on .ING_H_SEQ_VALID n && seq != want then
      (s.add .ING_LANE_CNT_SEGLOST n ((seq + 256 - want) % 256)).cutAwaited n else s
    (s'.set .ING_H_SEQ n seq).set .ING_H_SEQ_VALID n 1
  else s

/-! ### Flush and reset -/

/-- After a segment, a waiting flush takes effect once no packet is open, or when its 4,096 words are reached (R87). -/
def State.flushAfter (s : State) (n bytes : Nat) : State :=
  if !s.on .ING_QUEUE_LEVEL_FLUSHING n then s
  else if (s.packet n).isNone then s.flushEffect n
  else
    let s := s.add .ING_H_FLUSH_BYTES n bytes
    if decide (4096 * 32 ≤ s.get .ING_H_FLUSH_BYTES n) then ((s.cutPacket n).queueEvent n 2 1).flushEffect n else s

/-- A Usmas segment arrives whole (R62, R63, R73). -/
def execSegmentReceived (lane : Nat) (seg : Segment) (s : State) : Res :=
  if segBad seg then .next (s.inc .ING_LANE_CNT_SEGERR lane)
  else if s.get .ING_LANE_STATUS_USMAS_STATE lane ≠ 2 then .next (s.discard lane)
  else .next ((((s.lanePayload lane).segSequence lane (seg.hdr.getD 3 0)).reassemble lane seg).flushAfter lane
    (leAt seg.hdr 1 2)).noteEligible

/-- The flush's limit of words or time is reached: the packet is cut as a padded line, `FLUSH_TRUNC` sets, and the flush
takes effect (R87). -/
def execFlushLimit (lane : Nat) (s : State) : Res :=
  if s.on .ING_QUEUE_LEVEL_FLUSHING lane then
    let s := if (s.packet lane).isSome then (s.cutPacket lane).queueEvent lane 2 1 else s
    .next (s.flushEffect lane)
  else .next s

/-- The flush of a queue begins; with no packet open it takes effect at once (R87). -/
def effQueueFlush (lane : Nat) (s : State) : State :=
  if s.on .ING_QUEUE_LEVEL_FLUSHING lane then s
  else
    let s := (s.set .ING_QUEUE_LEVEL_FLUSHING lane 1).set .ING_H_FLUSH_BYTES lane 0
    if (s.packet lane).isNone then s.flushEffect lane else s

/-- `ING_QUEUE_CTRL.FLUSH` (R87): from operator up. -/
def execQueueFlush (lane : Nat) (src : Src) (s : State) : Res :=
  if s.gate src .operator 8 ≠ .ok then .next (s.answer src 0 (s.gate src .operator 8)) else .next ((effQueueFlush lane s).answer src 0 .ok)

/-- Held lines of a lane that no pipe has begun. -/
def State.losable (s : State) (n : Nat) : Nat := ((s.queued n).filter fun l => !l.begun).length

/-- The two copies of a queue pointer differ: the queue resets (R86); a waiting flush completes in the same clock
(R88). -/
def execPointerMismatch (lane : Nat) (s : State) : Res :=
  let lost := s.losable lane
  let s := (s.noPacket lane).loseQueue lane [7, 4] true
  let s := s.closeLane lane
  let s := [Fld.ING_H_WPTR_A, .ING_H_WPTR_B, .ING_H_RPTR_A, .ING_H_RPTR_B].foldl (fun s f => s.set f lane 0)
    (s.relevel lane)
  let s := (s.inc .ING_QUEUE_CROSS_RESETS lane).queueEvent lane 1 lost
  .next (if s.on .ING_QUEUE_LEVEL_FLUSHING lane then
    (s.set .ING_QUEUE_LEVEL_FLUSHING lane 0).queueEvent lane 5 0 else s)

/-! ### Usmas state and symbols -/

/-- The Usmas state of a lane leaves RUN or the lane leaves ACTIVE (R72, R85): the open packet is cut, open frames close
with implied FE, and a waiting flush takes effect in the same clock (R88). -/
def State.usmasCut (s : State) (n : Nat) : State :=
  let s := (s.cutPacket n).closeLane n
  let s := s.set .ING_LANE_HEAD_VALID n 0
  if s.on .ING_QUEUE_LEVEL_FLUSHING n then s.flushEffect n else s

/-- The HELLO this device sends (R72): versions 1 to 3, minor bits 0 and 1, and the mask of channels enabled. -/
def State.hello (s : State) (n : Nat) : List Nat :=
  let mask := (List.range 4).foldl (fun m v => if s.on .ING_CH_H_EN (4 * n + v) then m ||| 2 ^ v else m) 0
  [1, 3, 3, mask, 0]

/-- A HELLO is evaluated as in WAIT_HELLO (R72): the highest common major version is agreed, or there is none. DEDUCED: with
no version agreed `MINOR` holds 0 as `VER` does; the spec says only what it holds when bits are agreed. -/
def State.helloEval (s : State) (n : Nat) (arg : List Nat) : State :=
  let lo := arg.getD 0 0
  let hi := min (arg.getD 1 0) 3
  let s := s.set .ING_LANE_STATUS_HEAD_VC n (arg.getD 3 0)
  if lo ≤ hi && 1 ≤ hi then
    let s := { s with ing := { s.ing with hello := tabPut s.ing.hello n arg } }
    (((s.set .ING_LANE_STATUS_USMAS_STATE n 2).set .ING_LANE_STATUS_VER n hi).set .ING_LANE_STATUS_MINOR n
      (arg.getD 2 0 % 4)).set .ING_H_SEQ_VALID n 0
  else if s.get .ING_LANE_STATUS_USMAS_STATE n = 3 then s
  else (((s.set .ING_LANE_STATUS_USMAS_STATE n 3).set .ING_LANE_STATUS_VER n 0).set .ING_LANE_STATUS_MINOR n 0).queueEvent
    n 4 0

/-- What a HELLO says (R65, R71): lowest and highest major version, the minor bits that are not reserved, and the VC mask. -/
def helloArg (a : List Nat) : List Nat := [a.getD 0 0, a.getD 1 0, a.getD 2 0 % 4, a.getD 3 0 % 16, 0]

/-- A HELLO arrives (R72): a different one in RUN ends the frames and is evaluated anew. One whose byte 7 is not 0 is ignored
and counted (R65). -/
def execHelloReceived (lane : Nat) (hello : List Nat) (s : State) : Res :=
  let arg := helloArg hello
  if hello.getD 4 0 ≠ 0 then .next (s.inc .ING_LANE_CNT_SEGERR lane)
  else match s.get .ING_LANE_STATUS_USMAS_STATE lane with
  | 0 => .next s
  | 2 =>
    if tabGet s.ing.hello lane [] = arg then .next s
    else .next (((s.usmasCut lane).set .ING_LANE_STATUS_USMAS_STATE lane 1).helloEval lane arg)
  | _ => .next (s.helloEval lane arg)

/-- A TRIG_ACK answers a TRIGGER and changes nothing the device keeps (R65, R67); outside RUN or without minor bit 0 it
is ignored. -/
def execTrigAckReceived (lane : Nat) (arg : List Nat) (s : State) : Res :=
  if arg.getD 3 0 = 0 && arg.getD 4 0 = 0 then .next s else .next (s.inc .ING_LANE_CNT_SEGERR lane)

/-- A STATUS is kept in `ING_LANE_HEAD` while RUN with minor bit 1 agreed (R65, R67). DEDUCED: the table of R65 gives no 0 for
bytes 6 and 7 nor for bits 7:1 of byte 5, so nothing there makes it malformed. -/
def execStatusReceived (lane : Nat) (arg : List Nat) (s : State) : Res :=
  if s.get .ING_LANE_STATUS_USMAS_STATE lane = 2 && s.bit .ING_LANE_STATUS_MINOR lane 1 then
    .next ((((s.set .ING_LANE_HEAD_TEMP lane (arg.getD 0 0)).set .ING_LANE_HEAD_FILL lane (arg.getD 1 0)).set
      .ING_LANE_HEAD_FAULT lane (arg.getD 2 0 % 2)).set .ING_LANE_HEAD_VALID lane 1)
  else .next s

/-- A symbol of an unknown code, of the wrong direction, or with non-zero bytes where 0 is given is counted (R65). -/
def execUsmasSymbolBad (lane code : Nat) (arg : List Nat) (s : State) : Res :=
  if code = 0x53 || (code = 0x48 && arg.getD 4 0 = 0) || (code = 0x41 && arg.getD 3 0 = 0 && arg.getD 4 0 = 0) then .next s
  else .next (s.inc .ING_LANE_CNT_SEGERR lane)

/-- While a lane is ACTIVE the device sends HELLO every 100 µs (R72). -/
def execHelloSend (lane : Nat) (s : State) : Res :=
  if s.get .LANE_STATUS_STATE lane = 5 && s.get .LANE_ID_ROLE lane = 1 then
    .next (s.emit (.usmas lane 0x48 (s.hello lane)))
  else .next s

/-- While `PAUSE_EN` is 1 the pause state is repeated every 1 µs (R68). -/
def execPauseRepeat (lane : Nat) (s : State) : Res :=
  if s.on .ING_QUEUE_CTRL_PAUSE_EN lane then .next (s.sendPause lane (s.get .ING_QUEUE_LEVEL_ABOVE lane)) else .next s

/-- A write of 0 to `PAUSE_EN` sends PAUSE 0 and stops the repeats (R68). DESIGN CHOICE: a write of 1 sends the pause state at
once; the spec names only changes of `ABOVE` and the repeat every 1 µs. -/
def State.pauseEnWrite (s : State) (n v : Nat) : State :=
  let was := s.on .ING_QUEUE_CTRL_PAUSE_EN n
  let s := s.set .ING_QUEUE_CTRL_PAUSE_EN n v
  if was && v = 0 then s.sendPause n 0
  else if !was && v = 1 then s.sendPause n (s.get .ING_QUEUE_LEVEL_ABOVE n) else s

/-- The lane reports up to ingress: Usmas waits for a HELLO (R72). -/
def State.ingLaneUp (s : State) (n : Nat) : State :=
  (s.set .ING_LANE_STATUS_USMAS_STATE n 1).emit (.usmas n 0x48 (s.hello n))

/-- The lane reports down to ingress (R72, R85). -/
def State.ingLaneDown (s : State) (n : Nat) : State :=
  let s := if s.get .ING_LANE_STATUS_USMAS_STATE n = 2 then s.usmasCut n else s
  ((s.set .ING_LANE_STATUS_USMAS_STATE n 0).set .ING_LANE_STATUS_VER n 0).set .ING_LANE_STATUS_MINOR n 0

/-! ### Frames, counters and settings -/

/-- No packet on the channel for its timeout: implied FE (R79); a timeout of 0 is none. -/
def execFrameTimeout (c : Nat) (s : State) : Res :=
  let busy := match s.packet (c / 4) with | some p => p.vc == c % 4 | none => false
  if s.get .ING_CH_H_TIMEOUT c = 0 || busy then .next s else .next (s.closeFrame c true)

/-- `CLR_CNT` of a lane clears the crossing counter, the lane counters and those of its channels (R515). -/
def State.ingClrCnt (s : State) (n : Nat) : State :=
  let s := [Fld.ING_QUEUE_CROSS_COUNT, .ING_QUEUE_CROSS_RESETS, .ING_LANE_CNT_SEGERR, .ING_LANE_CNT_SEGLOST,
    .ING_LANE_CNT_ECC_CORR, .ING_LANE_CNT_ECC_UNCORR, .ING_LANE_CNT_DISCARD, .ING_LANE_CNT_OVF].foldl
      (fun s f => s.set f n 0) s
  [0, 1, 2, 3].foldl (fun s v => [Fld.ING_CH_CNT_FRAMES, .ING_CH_CNT_CRC, .ING_CH_CNT_BAD, .ING_CH_CNT_FNGAP].foldl
    (fun s f => s.set f (4 * n + v) 0) s) s

/-- The command form of `CLR_CNT`. -/
def execIngClrCnt (lane : Nat) (src : Src) (s : State) : Res :=
  if s.gate src .operator 8 ≠ .ok then .next (s.answer src 0 (s.gate src .operator 8)) else .next ((s.ingClrCnt lane).answer src 0 .ok)

/-- A watermark write would be refused (R83). -/
def State.wmBad (s : State) (lane : Nat) (high : Bool) (v : Nat) : Bool :=
  let h := if high then v else s.get .ING_QUEUE_HWM lane
  let l := if high then s.get .ING_QUEUE_LWM lane else v
  decide (h ≤ l) || decide (64512 < h)

/-- The watermark takes its new value and the state is evaluated anew (R83). -/
def effQueueWmWrite (lane : Nat) (high : Bool) (v : Nat) (src : Src) (s : State) : State :=
  if s.wmBad lane high v then s.answer src 0 .range
  else (s.set (if high then .ING_QUEUE_HWM else .ING_QUEUE_LWM) lane v).evalWatermark lane

/-- A write to `ING_QUEUE_HWM` or `ING_QUEUE_LWM` by an installer (R83). -/
def execQueueWmWrite (lane : Nat) (high : Bool) (v : Nat) (src : Src) (s : State) : Res :=
  let f : Fld := if high then .ING_QUEUE_HWM else .ING_QUEUE_LWM
  if s.gate src .installer 8 ≠ .ok then .next (s.answer src 0 (s.gate src .installer 8))
  else if s.wmBad lane high v then .next (s.answer src 0 .range)
  else .next (s.recorded src 0 (.queueWmWrite lane high v src)
    (s.auditRec src 1 1 (f.id / 32 + 0x100 * lane) (valueDigest (s.get f lane)) (valueDigest v))
    (effQueueWmWrite lane high v src))

/-- The shadow of a channel is not a configuration that may be applied (R77). -/
def State.applyBad (s : State) (c : Nat) : Bool :=
  let w := s.get .ING_CH_SIZE_WIDTH c
  match dtGroup (s.get .ING_CH_CFG_DT c) with
  | none => true
  | some (gp, _) => decide (w < 16) || decide (16384 < w) || w % gp != 0 || s.get .ING_CH_SIZE_HEIGHT c == 0

/-- The shadow is to apply at the channel's next FS (R76), unless it may not (R77). -/
def effChApply (c : Nat) (src : Src) (s : State) : State :=
  if s.applyBad c then s.answer src 0 .range else s.set .ING_CH_STATUS_SHADOW_PENDING c 1

/-- A write of 1 to `ING_CH_CFG.APPLY` (R76, R77), recorded (17_roles_security_audit.md R429). -/
def execChApply (c : Nat) (src : Src) (s : State) : Res :=
  if s.gate src .operator 8 ≠ .ok then .next (s.answer src 0 (s.gate src .operator 8))
  else if s.applyBad c then .next (s.answer src 0 .range)
  else .next (s.recorded src 0 (.chApply c src) (s.auditRec src 2 1 (0x144000 + 0x40 * c) noValue noValue)
    (effChApply c src))

end Sys2Proof.Machine
end

