-- ==== Sys2Proof/Machine/Pipe.lean ====
section
/-! DEFINITION. Pixel pipes and the stripe scheduler (05_pipeline_contexts.md): dispatch, completion, taps, holding and
spill, context banks, the rolling self-test, fence and reset. -/

namespace Sys2Proof.Machine

/-! ### Taps (06_pixel_corrections.md R175 to R178) -/

/-- Exposures a frame's tap writes a record for. -/
def tapExps (pt : Nat) (f : Frame) : List Nat := if pt ≤ 2 then List.range f.exps else [f.exps - 1]

/-- Bytes of a tag as stored (R114). -/
def Tag.bytes (t : Tag) : List Nat :=
  leBytes 2 t.stream ++ leBytes 2 t.source ++ leBytes 4 t.seq ++ leBytes 6 t.pos ++ leBytes 2 t.job ++
    leBytes 8 t.time ++ [t.expMask % 256, t.near % 256] ++ leBytes 2 t.dropped ++ leBytes 4 t.flags

/-- Bytes of one line of the tap's record, before the stride is rounded up. -/
def State.tapWidth (s : State) (base : Nat) (f : Frame) : Nat :=
  let pt := s.par base 0x1290 1
  let r := s.roi base (s.par base 0x1292 1)
  if pt = 1 then lineBytes f.dt f.width
  else if pt = 5 then 3 * planeCount (s.mosaic base) * f.width
  else if pt = 6 then 2 * ([0, 1, 2, 3].filter fun c => r.planes.testBit c).length * (r.cols f).length
  else 3 * f.width

/-- Line stride of the tap's record (R176). -/
def State.tapStride (s : State) (base : Nat) (f : Frame) : Nat := 32 * ceilDiv (s.tapWidth base f) 32

/-- Rows of the tap's record. -/
def State.tapRows (s : State) (base : Nat) (f : Frame) : List Nat :=
  if s.par base 0x1290 1 = 6 then
    (List.range f.height).filter fun y => (s.roi base (s.par base 0x1292 1)).hasRow f y
  else List.range f.height

/-- The 64-byte header of a tap record (R89, R176); `w` is the width it shows. -/
def State.tapHeader (s : State) (base : Nat) (f : Frame) (e w : Nat) : List Nat :=
  let pt := s.par base 0x1290 1
  let roi := s.par base 0x1292 1
  let r := s.roi base roi
  let dt := if pt = 1 then f.dt else if pt < 5 then 0x80 else if pt = 5 then 0x81 else 0x82
  let planes := if pt < 5 then 1 else if pt = 5 then planeCount (s.mosaic base)
    else ([0, 1, 2, 3].filter fun c => r.planes.testBit c).length
  f.tag.bytes ++ leBytes 2 w ++ leBytes 2 (s.tapRows base f).length ++ [dt, e] ++ leBytes 2 f.fn ++
    leBytes 4 (s.tapStride base f) ++
    (if pt = 1 then List.replicate 20 0
     else [planes, pt, if pt = 6 then roi else 0] ++ List.replicate 17 0)

/-- Width a complete record shows. -/
def State.tapShown (s : State) (base : Nat) (f : Frame) : Nat :=
  if s.par base 0x1290 1 = 6 then ((s.roi base (s.par base 0x1292 1)).cols f).length else f.width

/-- Address of the record of a tapped frame's exposure in LPDDR5X (R177). -/
def State.tapAddr (s : State) (base : Nat) (f : Frame) (e : Nat) : Nat :=
  let i := f.work.tapSlot + (if s.par base 0x1290 1 ≤ 2 then e else 0)
  s.par base 0x1298 8 + i % max 1 (s.par base 0x12A4 2) * s.par base 0x12A0 4

/-- The first stripe of a tapped frame starts: a record in memory takes the next number and gets its header with width 0
(R177). A frame refused before that takes no number (R178). -/
def State.tapBegin (s : State) (base : Nat) (f : Frame) : State :=
  if f.work.tapped && !f.work.tapDropped && s.par base 0x1291 1 == 2 then
    let es := tapExps (s.par base 0x1290 1) f
    let key := 2 * f.ch + f.work.bank.getD 0
    let n := tabGet s.pipe.tapCount key 0
    let f := { f with work := { f.work with tapSlot := n } }
    let s := s.onFrame f.ch f.tag.seq fun g => { g with work := { g.work with tapSlot := n } }
    let s : State := { s with pipe := { s.pipe with tapCount := tabPut s.pipe.tapCount key (n + es.length) } }
    es.foldl (fun t e => t.blockWrite (s.tapAddr base f e) (s.tapHeader base f e 0)) s
  else s

/-- A tapped frame is abandoned in the page of pipe `p` (R178). -/
def State.tapAbandon (s : State) (base p : Nat) (f : Frame) : State :=
  if f.work.tapped && !f.work.tapDropped then
    let s := (s.onFrame f.ch f.tag.seq fun f => { f with work := { f.work with tapDropped := true } }).inc
      .PIPE_STG_CNT_TAP_DROP p
    let s : State := { s with pipe := { s.pipe with
      tapQueue := s.pipe.tapQueue.filter fun t => !(t.ch == f.ch && t.seq == f.tag.seq) } }
    if s.par base 0x1291 1 = 1 then
      s.drop (s.par base 0x1296 2) f.ch f.tag.seq 0xFFFFFFFF 5 0xFFFF 0xFFFF 0 true
    else s
  else s

/-- Stripe rows of a tapped frame go to its record (R175 to R178); abandoned when the 1 MiB tap queue cannot take the
stripe's lines or the record exceeds its slot. What earlier stripes left in the queue is gone by then: its writes go ahead of
the pipes (14_memory_subsystem.md R357). -/
def State.tapRowsOut (s : State) (base p : Nat) (f : Frame) (ys : List Nat) : State :=
  if f.work.tapped && !f.work.tapDropped then
    let pt := s.par base 0x1290 1
    let stride := s.tapStride base f
    let rows := ys.filter fun y => (s.tapRows base f).contains y
    let y0 := (s.tapRows base f).headD 0
    let big := s.par base 0x1291 1 == 2 && decide (s.par base 0x12A0 4 < 64 + (s.tapRows base f).length * stride)
    if big || decide (2 ^ 20 < (tapExps pt f).length * rows.length * stride) then s.tapAbandon base p f
    else
      let lines := (tapExps pt f).flatMap fun e => rows.map fun y => TapLine.mk f.ch f.tag.seq e y (s.tapLine base f pt e y)
      if s.par base 0x1291 1 = 2 then
        lines.foldl (fun t l => t.blockWrite (s.tapAddr base f l.exp + 64 + (l.y - y0) * stride) l.bytes) s
      else { s with pipe := { s.pipe with tapQueue := s.pipe.tapQueue ++ lines } }
  else s

/-- The last line of a tapped frame is written: the record is completed (R177). -/
def State.tapEnd (s : State) (base p : Nat) (f : Frame) : State :=
  if f.work.tapped && !f.work.tapDropped then
    let es := tapExps (s.par base 0x1290 1) f
    let s := s.add .PIPE_STG_CNT_TAP p es.length
    if s.par base 0x1291 1 = 2 then
      es.foldl (fun t e => t.blockWrite (s.tapAddr base f e) (s.tapHeader base f e (s.tapShown base f))) s
    else
      let mine := fun (e y : Nat) => s.pipe.tapQueue.find? fun t => t.ch == f.ch && t.seq == f.tag.seq && t.exp == e && t.y == y
      let stride := s.tapStride base f
      let recs := es.map fun e => TapRecord.mk (s.par base 0x1296 2) f.ch f.tag.seq (f.tag.flag 11)
        (s.tapHeader base f e (s.tapShown base f) ++ (s.tapRows base f).flatMap fun y =>
          let b := match mine e y with | some t => t.bytes | none => []
          b ++ List.replicate (stride - b.length) 0)
      { s with pipe := { s.pipe with
        tapQueue := s.pipe.tapQueue.filter fun t => !(t.ch == f.ch && t.seq == f.tag.seq),
        tapDone := s.pipe.tapDone ++ recs } }
  else s

/-! ### Rows that leave a pipe -/

/-- Output rows of stripe `k` of a frame under bank `b`: the first, and one more than the last (R124). -/
def State.outRows (s : State) (f : Frame) (b k : Nat) : Nat × Nat :=
  let sl := s.bankLines f.ch b
  stripeOut f.height sl (s.radius f.ch b) (stripeCount f.height sl) k

/-- A row is masked: its line, or one within 2 rows of it, is a filled line, or was lost with its stripe
(07_blanket_merger.md R183). -/
def State.rowMasked (s : State) (f : Frame) (y : Nat) : Bool :=
  (f.lines.any fun l => l.exp + 1 == f.exps && l.state == 3 && decide (l.no ≤ y + 2) && decide (y ≤ l.no + 2)) ||
  f.work.lost.any fun k =>
    let o := s.outRows f (f.work.bank.getD 0) k
    decide (o.1 ≤ y + 2) && decide (y < o.2 + 2)

/-- The rows of a frame's regions on output row `y`; a lost row has no samples. -/
def State.roiRowsOf (s : State) (base : Nat) (f : Frame) (y : Nat) (lost : Bool) (bit : Nat) : List RoiRow :=
  ((List.range (s.par base 18 1)).filter fun i => (s.roi base i).dest.testBit bit && (s.roi base i).hasRow f y).map fun i =>
    ⟨f.ch, f.tag.seq, i, y, if lost then [] else s.roiRow base f (s.roi base i) y, lost || s.rowMasked f y, f.tag⟩

/-- Output rows pass on to the merger and to egress (R140, R174). -/
def State.rowsOut (s : State) (base : Nat) (f : Frame) (ys : List Nat) (lost : Bool) : State :=
  ({ s with pipe := { s.pipe with
    toMerger := s.pipe.toMerger ++ ys.flatMap fun y => s.roiRowsOf base f y lost 0,
    toEgress := s.pipe.toEgress ++ ys.flatMap fun y => s.roiRowsOf base f y lost 1 } } : State).roiFlows base f

/-- The stage counters of pipe `p` take the counts of output rows (R540). -/
def State.countRows (s : State) (base p : Nat) (f : Frame) (ys : List Nat) : State :=
  ys.foldl (fun t y =>
    (([Fld.PIPE_STG_CNT_DPC_STATIC, .PIPE_STG_CNT_DPC_DYN, .PIPE_STG_CNT_MERGE_MISS, .PIPE_STG_CNT_COMP_CLIP,
      .PIPE_STG_CNT_LSC_CLIP, .PIPE_STG_CNT_DM_CLIP, .PIPE_STG_CNT_IRS_CLIP, .PIPE_STG_CNT_CCM_CLIP].zip
        (s.rowCounts base f y)).foldl (fun t q => t.add q.1 p q.2) t)) s

/-- Busy clocks, counted in units of 1,024 (R119). -/
def State.busy (s : State) (p n : Nat) : State :=
  let t := s.get .PIPE_H_BUSY p + n
  (s.set .PIPE_H_BUSY p (t % 1024)).add .PIPE_CNT_BUSY p (t / 1024)

/-! ### The end of a frame in the pipes -/

/-- Sticky bit of `ING_PLAY_STATUS`: 0 DONE, 1 ERROR (R92). -/
def State.playEvent (s : State) (k bit : Nat) : State :=
  s.sticky .ING_PLAY_STATUS_EV k bit .ING_EVENT_EN_PLAY 0 bit 0x0014 (128 + k) (0x0021 + bit) 0

/-- The replay of a source ends (R90). -/
def State.playEnd (s : State) (k : Nat) : State := (s.set .ING_PLAY_STATUS_STATE k 0).playEvent k 0

/-- The source moves to its next record, or its replay ends; a `COUNT` of 0 means 65,536 (R90). -/
def State.playNext (s : State) (k : Nat) : State :=
  let i := s.get .ING_PLAY_H_INDEX k + 1
  if s.get .ING_PLAY_STATUS_STATE k = 2 then s.playEnd k
  else if (if s.get .ING_PLAY_CTRL_COUNT k = 0 then 65536 else s.get .ING_PLAY_CTRL_COUNT k) ≤ i then
    if s.on .ING_PLAY_CTRL_LOOP k then s.set .ING_PLAY_H_INDEX k 0 else s.playEnd k
  else s.set .ING_PLAY_H_INDEX k i

/-- The replay frame in flight is complete: counted, closed and gone, and the next record's turn comes (R90). -/
def State.playFrameDone (s : State) (k : Nat) : State :=
  match s.openFrame (128 + k) with
  | some f =>
    if f.work.bank.isNone then
      let s : State := { s with frames := s.frames.filter fun g => !(g.ch == 128 + k && g.tag.seq == f.tag.seq) }
      (s.inc .ING_PLAY_STATUS_FRAMES_DONE k).playNext k
    else s
  | none => s


/-- A frame whose rows have all left the pipes: its tap record completes, its lines and its bank are given up, and when it
has closed it leaves the device (R130, R132). -/
def State.finishFrame (s : State) (c seq p : Nat) : State :=
  match s.frame? c seq with
  | none => s
  | some f =>
    match f.work.bank with
    | none => s
    | some b =>
      let s := s.tapEnd (bankBase c b) p f
      let s := s.freeHolds fun r => r.ch == c && r.seq == seq
      let s := (s.onFrame c seq fun f => { f.releaseAll with work := { f.work with bank := none } }).unbind c b
      let s := (s.framePiped f)
      let s : State := { s with frames := s.frames.filter fun g => !(g.ch == c && g.tag.seq == seq && g.closed) }
      if c < 128 then s.relevel (c / 4) else s.playFrameDone (c - 128)

/-- Every scheduled stripe of the frame has completed or been lost. -/
def State.allDone (s : State) (f : Frame) (b : Nat) : Bool :=
  (s.frameStripes f b).all fun k => f.work.done.contains k || f.work.lost.contains k

/-- The lines a stripe gives up (R125): its input but for a halo that stripe `k + 1` will read. -/
def State.stripeFrees (s : State) (f : Frame) (b k : Nat) : List Nat :=
  let sl := s.bankLines f.ch b
  let r := stripeIn f.height sl (s.radius f.ch b) k
  let hi := if (s.frameStripes f b).contains (k + 1) then min r.2 (k * sl + sl) else r.2
  (List.range (hi - r.1)).map (r.1 + ·)

/-- Lines of a frame, named by number, are released in every exposure. -/
def State.releaseLines (s : State) (c seq : Nat) (ys : List Nat) : State :=
  let s := s.onFrame c seq fun f => { f with lines := f.lines.map fun l =>
    if (ys.contains l.no) then { l with home := .released, words := 0, addr := [] } else l }
  if c < 128 then s.relevel (c / 4) else s

/-! ### Dispatch -/

/-- A stripe may run on pipe `p`. -/
def State.mayRun (s : State) (x b p : Nat) : Bool := (s.bankMask x b).testBit p

/-- Pipe `p` takes stripes: not fenced, not withdrawn for a rolling test, not in reset (R144, R147). -/
def State.takesWork (s : State) (p : Nat) : Bool :=
  !s.on .PIPE_CTRL_FENCE p && decide (s.get .PIPE_H_STATE p ≤ 1) &&
    !((s.get .PIPE_ROLL_STATUS_STATE == 1 || s.get .PIPE_ROLL_STATUS_STATE == 2) && s.get .PIPE_ROLL_STATUS_PIPE == p)

/-- A pipe held in frame mode takes stripes of its holder alone (R128). -/
def State.heldFor (s : State) (p c : Nat) : Bool := match s.holder p with | some x => x == c | none => true

/-- Stripes that are eligible and neither started nor assigned, in no order: priority, eligibility time, context, stripe,
sequence, bank. -/
def State.waiting (s : State) : List (Nat × Nat × StripeRef) :=
  s.frames.flatMap fun f => match f.work.bank with
    | none => []
    | some b => (f.work.elig.filter fun e => !f.work.started.contains e.1 && !f.work.lost.contains e.1 &&
        !(s.pipe.next.any fun q => q.2.ch == f.ch && q.2.seq == f.tag.seq && q.2.k == e.1)).map fun e =>
          (s.bankPrio f.ch b, e.2, ⟨f.ch, f.tag.seq, e.1, b⟩)

/-- The order of R134; stripes that it leaves equal come in the order of their frames (DESIGN CHOICE). -/
def stripeBefore (a b : Nat × Nat × StripeRef) : Bool :=
  if a.1 ≠ b.1 then a.1 < b.1
  else if a.2.1 ≠ b.2.1 then a.2.1 < b.2.1
  else if a.2.2.ch ≠ b.2.2.ch then a.2.2.ch < b.2.2.ch
  else if a.2.2.k ≠ b.2.2.k then a.2.2.k < b.2.2.k
  else a.2.2.seq < b.2.2.seq

/-- The first of a list in the order of R134. -/
def firstStripe : List (Nat × Nat × StripeRef) → Option (Nat × Nat × StripeRef)
  | [] => none
  | a :: r => match firstStripe r with
    | none => some a
    | some b => if stripeBefore a b then some a else some b

/-- Stripes of one frame are dispatched in stripe order (R134): `k` is the first of its frame that waits. -/
def State.inOrder (s : State) (r : StripeRef) : Bool :=
  match s.frame? r.ch r.seq with
  | some f => (s.frameStripes f r.bank).all fun k => k ≥ r.k || f.work.started.contains k || f.work.lost.contains k ||
      s.pipe.next.any fun q => q.2.ch == r.ch && q.2.seq == r.seq && q.2.k == k
  | none => false

/-- The stripe that pipe `p` chooses now (R134). -/
def State.choose (s : State) (p : Nat) : Option (Nat × Nat × StripeRef) :=
  firstStripe (s.waiting.filter fun w => s.mayRun w.2.2.ch w.2.2.bank p && s.heldFor p w.2.2.ch && s.inOrder w.2.2)

/-- A line of a replay record, fetched from LPDDR5X when its stripe is dispatched (R127, R89); one that an uncorrectable
error hits is a filled line (03_camera_ingress.md R91). -/
def State.fetchLine (s : State) (f : Frame) (addr stride y : Nat) : State × Line :=
  let q := s.dramRead (addr + 64 + y * stride) (lineBytes f.dt f.width)
  match q.2 with
  | some b =>
    let px := (unpack f.dt b).take f.width
    (q.1, ⟨0, y, 0, px.length, 0, px, .store, true, []⟩)
  | none => (q.1, filledLine 0 y)

/-- The record address and stride of a replay source's frame in flight (R90). -/
def State.playRecord (s : State) (k : Nat) : Nat × Nat :=
  let a := s.get .ING_PLAY_H_REC k
  (a, s.memLe (a + 40) 4)

/-- The lines `lo` to `hi - 1` come to a pipe from LPDDR5X: those of a replay frame from its record, those of a channel's
frame that lie in the frame store or the spill region. -/
def State.fetchLines (s : State) (c seq lo hi : Nat) : State :=
  match s.frame? c seq with
  | some f =>
    if c < 128 then s.loadLines c seq lo hi
    else
      let rec' := s.playRecord (c - 128)
      let new := ((List.range (hi - lo)).map (lo + ·)).filter fun y => (f.line? 0 y).isNone
      let r := new.foldl (fun (a : State × List Line) y =>
        let q := a.1.fetchLine f rec'.1 rec'.2 y
        (q.1, a.2 ++ [q.2])) (s, [])
      r.1.onFrame c seq fun f => { f with lines := f.lines ++ r.2 }
  | none => s

/-- A frame receives the overload-delayed flag, counted once (R139, R115). -/
def State.delayFrame (s : State) (r : StripeRef) : State :=
  match s.frame? r.ch r.seq with
  | some f =>
    if f.work.delayed then s
    else
      let s := s.onFrame r.ch r.seq fun f => { f.flag 9 with work := { f.work with delayed := true } }
      (s.inc .PIPE_CNT_DELAYED).schEvent 1 r.seq r.ch r.k
  | none => s

/-- Bytes a stripe takes in the holding store or the spill region. -/
def State.stripeBytes (s : State) (r : StripeRef) : Nat :=
  match s.frame? r.ch r.seq with
  | some f =>
    let q := stripeIn f.height (s.bankLines r.ch r.bank) (s.radius r.ch r.bank) r.k
    (q.2 - q.1) * f.lineStride
  | none => 0

/-- A line of the final exposure of a copied stripe leaves the queue: into the holding store, or into the stripe's stretches
of the spill region (R137, R138). -/
def State.copyLine (s : State) (r : StripeRef) (spill : Bool) (y : Nat) : State :=
  match s.frame? r.ch r.seq with
  | none => s
  | some f =>
    let lo := (stripeIn f.height (s.bankLines r.ch r.bank) (s.radius r.ch r.bank) r.k).1
    match f.lines.find? fun l => l.no == y && l.exp + 1 == f.exps && l.home == .queue with
    | none => s
    | some l =>
      if spill then
        let ext := match s.pipe.holds.find? fun h => h.stripe == r with | some h => h.ext | none => []
        s.lineToMem f l .spill (subExt ((y - lo) * f.lineStride) f.lineStride ext)
      else s.onFrame r.ch r.seq fun f => { f with lines := f.lines.map fun x =>
        if x.exp == l.exp && x.no == y then { x with home := .hold, words := 0 } else x }

/-- Lines of the final exposure that a copy of stripe `r` moves, the first `n` of its input: the halo of a following
stripe stays in the queue as well (R125, R137). -/
def State.moveLines (s : State) (r : StripeRef) (n : Nat) (spill : Bool) : State :=
  match s.frame? r.ch r.seq with
  | some f =>
    let lo := (stripeIn f.height (s.bankLines r.ch r.bank) (s.radius r.ch r.bank) r.k).1
    let ys := (s.stripeFrees f r.bank r.k).filter fun y => y < lo + n
    (ys.foldl (fun s y => s.copyLine r spill y) s).relevel (r.ch / 4)
  | none => s

/-- A copy that its stripe's start stops (R137, R138): the lines copied in the time since it began, at 32 bytes per clock
of 1.2 GHz, stay in the store; the rest is read from the queue. -/
def State.stopCopy (s : State) (r : StripeRef) : State :=
  match s.pipe.copies.find? fun c => c.2.stripe == r with
  | none => s
  | some (lane, c) =>
    let line := match s.frame? r.ch r.seq with | some f => f.lineStride | none => 1
    let got := min ((s.elapsed - c.start) * 384 / 10) (s.stripeBytes r)
    let s := ({ s with pipe := { s.pipe with copies := tabErase s.pipe.copies lane } } : State).moveLines r
      (got / max line 1) c.spill
    { s with pipe := { s.pipe with holds := s.pipe.holds.map fun h =>
      if h.stripe == r then { h with bytes := got, ext := takeExt got h.ext } else h } }

/-- The bank in the slot of pipe `p` that it does not run from (R120). -/
def State.otherSlot (s : State) (p : Nat) : Nat × Nat :=
  tabGet s.pipe.slot (2 * p + (1 - s.get .PIPE_H_SLOT p)) (999, 0)

/-- A bank is loaded into that slot (R120). -/
def State.loadSlot (s : State) (p x b : Nat) : State :=
  { s with pipe := { s.pipe with slot := tabPut s.pipe.slot (2 * p + (1 - s.get .PIPE_H_SLOT p)) (x, b) } }

/-- Pipe `p` goes over to its other slot, which holds the bank (R120). -/
def State.turnSlot (s : State) (p x b : Nat) : State :=
  let s := if s.otherSlot p = (x, b) then s else s.loadSlot p x b
  s.set .PIPE_H_SLOT p (1 - s.get .PIPE_H_SLOT p)

/-- A stripe starts on pipe `p`, from its other slot (R119, R120, R139). -/
def State.startStripe (s : State) (p : Nat) (r : StripeRef) : State :=
  match s.frame? r.ch r.seq with
  | none => s
  | some f =>
    let base := bankBase r.ch r.bank
    let late := match f.work.elig.find? fun e => e.1 == r.k with
      | some e => decide (s.par base 8 4 * 1200 < s.get .SYN_H_CLK - e.2)
      | none => false
    let s := if f.work.started.isEmpty then s.tapBegin base f else s
    let q := stripeIn f.height (s.bankLines r.ch r.bank) (s.radius r.ch r.bank) r.k
    let s := ((s.stopCopy r).fetchLines r.ch r.seq q.1 q.2).turnSlot p r.ch r.bank
    let s := s.onFrame r.ch r.seq fun f =>
      { f with work := { f.work with started := f.work.started ++ [r.k] },
                                     lines := f.lines.map fun l => if q.1 ≤ l.no && l.no < q.2 then { l with begun := true } else l }
    let s := if late then s.delayFrame r else s
    let s := if r.k = 0 && s.isClassic base f then s.inc .PIPE_STG_CNT_FALLBACK p else s
    let s : State := { s with pipe := { s.pipe with running := tabPut s.pipe.running p r } }
    (((s.set .PIPE_H_STATE p 1).set .PIPE_STATUS_CTX p r.ch).set .PIPE_STATUS_STRIPE p r.k).set .PIPE_STATUS_BANK p r.bank

/-- Idle pipes that a stripe may start on. -/
def State.idleFor (s : State) (r : StripeRef) : List Nat :=
  (List.range 8).filter fun p => s.takesWork p && s.heldFor p r.ch && s.get .PIPE_H_STATE p == 0 && s.mayRun r.ch r.bank p

/-- The pipe of R135: the one whose other slot holds the stripe's bank, else the lowest numbered. -/
def State.pickPipe (s : State) (r : StripeRef) : Option Nat :=
  match (s.idleFor r).find? fun p => s.otherSlot p == (r.ch, r.bank) with
  | some p => some p
  | none => (s.idleFor r).head?

/-- Pipe `p` chooses (R134, R135): an idle pipe's choice starts at once on the pipe of R135; a running pipe's fills its
other slot. -/
def execStripeDispatch (p : Nat) (s : State) : Res :=
  let s := s.noteEligible
  if !s.takesWork p then .next s
  else match s.choose p with
    | none => .next s
    | some (_, _, r) =>
      if s.get .PIPE_H_STATE p = 0 then
        match s.pickPipe r with
        | some q => .next (s.startStripe q r)
        | none => .next s
      else if (s.pipe.next.any fun q => q.1 == p) then .next s
      else .next (({ s with pipe := { s.pipe with next := tabPut s.pipe.next p r } } : State).loadSlot p r.ch r.bank)

/-- Pipe `p` has no running stripe any more: the stripe in its other slot starts, or it is idle. -/
def State.pipeAdvance (s : State) (p : Nat) : State :=
  let s : State := { s with pipe := { s.pipe with running := tabErase s.pipe.running p } }
  match s.pipe.next.find? fun q => q.1 == p with
  | some (_, r) =>
    ({ s with pipe := { s.pipe with next := tabErase s.pipe.next p } } : State).startStripe p r
  | none => s.set .PIPE_H_STATE p 0

/-- Pipe `p` finishes its stripe (R125, R132, R140, R540). -/
def execStripeComplete (p : Nat) (s : State) : Res :=
  match s.pipe.running.find? fun q => q.1 == p with
  | none => .next s
  | some (_, r) =>
    match s.frame? r.ch r.seq with
    | none => .next (s.pipeAdvance p)
    | some f =>
      let base := bankBase r.ch r.bank
      let sl := s.bankLines r.ch r.bank
      let o := stripeOut f.height sl (s.radius r.ch r.bank) (stripeCount f.height sl) r.k
      let i := stripeIn f.height sl (s.radius r.ch r.bank) r.k
      let ys := (List.range (o.2 - o.1)).map (o.1 + ·)
      let frees := s.stripeFrees f r.bank r.k
      let s := ((s.countRows base p f ys).rowsOut base f ys false).tapRowsOut base p f ys
      let s := (s.inc .PIPE_CNT_STRIPES p).busy p (stripeCost f.exps (i.2 - i.1) f.width)
      let s := s.onFrame r.ch r.seq fun f => { f with work := { f.work with done := f.work.done ++ [r.k] } }
      let s := (s.freeHolds fun q => q == r).releaseLines r.ch r.seq frees
      let s := match s.frame? r.ch r.seq with
        | some g => if s.allDone g r.bank then s.finishFrame r.ch r.seq p else s
        | none => s
      .next (s.pipeAdvance p)

/-- The oldest frame that the holder `x` of pipe `p` processes there (R128). -/
def State.heldFrame (s : State) (p x : Nat) : Option Frame :=
  s.frames.find? fun f => f.ch == x && f.work.bank.any (fun b => s.bankMux x b && (s.bankMask x b).testBit p)

/-- The lines that the next line of a frame-mode frame reads are there (R127, R128). -/
def State.windowReady (s : State) (x : Nat) (f : Frame) : Bool :=
  let y := f.work.linesOut
  let hi := min (y + s.radius x (f.work.bank.getD 0) + 1) f.height
  let win := (List.range (hi - y)).map (y + ·)
  if 128 ≤ x then decide (hi ≤ f.work.paced)
  else (f.closed || win.all (s.linePresent f)) && (f.exps == 1 || f.work.classic || win.all f.earlierSettled)

/-- Pipe `p` takes the lines of that window in: the first line of a tapped frame begins its record, and the frame's bank
comes into the slot it runs from. -/
def State.frameModeIn (s : State) (p x : Nat) (f : Frame) : State :=
  let b := f.work.bank.getD 0
  let base := bankBase x b
  let y := f.work.linesOut
  let r := s.radius x b
  let s := if y = 0 then s.tapBegin base f else s
  let s := if y = 0 && s.isClassic base f then s.inc .PIPE_STG_CNT_FALLBACK p else s
  let s := s.fetchLines x f.tag.seq (if 128 ≤ x then 0 else y - r) (min (y + r + 1) f.height)
  if tabGet s.pipe.slot (2 * p + s.get .PIPE_H_SLOT p) (999, 0) = (x, b) then s else s.turnSlot p x b

/-- The held pipe `p` processes the next line of its holder's oldest frame that names it, once the lines of its window are
present and no stripe runs on it (R128). -/
def execFrameModeLine (p : Nat) (s : State) : Res :=
  match s.holder p with
  | none => .next s
  | some x =>
    match s.heldFrame p x with
    | none => .next s
    | some f =>
      if !s.windowReady x f || s.get .PIPE_H_STATE p ≠ 0 then .next s
      else
        let base := bankBase x (f.work.bank.getD 0)
        let y := f.work.linesOut
        let r := s.radius x (f.work.bank.getD 0)
        let s := s.frameModeIn p x f
        let f := (s.frame? x f.tag.seq).getD f
        let s := (((s.countRows base p f [y]).rowsOut base f [y] false).tapRowsOut base p f [y]).busy p
          (f.exps * ceilDiv f.width 16)
        let s := s.onFrame x f.tag.seq fun f =>
          { f with work := { f.work with linesOut := y + 1, started := [0] } }
        let s := if r ≤ y then s.releaseLines x f.tag.seq [y - r] else s
        .next (if y + 1 = f.height then s.finishFrame x f.tag.seq p else s)

/-! ### Lines -/

/-- The copy of a line of an earlier exposure into the frame store completes; the line is released from the queue
(R129). -/
def execExposureLineStored (c e y : Nat) (s : State) : Res :=
  let hit := fun (f : Frame) => f.ch == c && f.work.bank.isSome && !f.work.classic && decide (e + 1 < f.exps) &&
    f.lines.any fun l => l.exp == e && l.no == y && l.home == .queue
  match s.frames.find? hit with
  | none => .next s
  | some g =>
    match g.line? e y with
    | none => .next s
    | some l =>
      let s := s.lineToMem g l .store (subExt ((e * g.height + y) * g.lineStride) g.lineStride g.work.blocks)
      .next ((s.relevel (c / 4)).noteEligible)

/-- A pipe, or a copy, has read input line `y` of its stripe: the line leaves the queue, unless it is a halo line that the
next stripe will read (R125). -/
def execInputLineRelease (r : Reader) (y : Nat) (s : State) : Res :=
  let one := fun (st : StripeRef) (g : State → State) =>
    match s.frame? st.ch st.seq with
    | none => s
    | some f => if (s.stripeFrees f st.bank st.k).contains y && decide (st.ch < 128) then (g s).relevel (st.ch / 4) else s
  let gone := fun (st : StripeRef) (s : State) => s.onFrame st.ch st.seq fun f => { f with lines := f.lines.map fun l =>
    if l.no == y && l.exp + 1 == f.exps && l.home == .queue then { l with home := .released, words := 0 } else l }
  match r with
  | .pipe p => match s.pipe.running.find? fun q => q.1 == p with
    | some (_, st) => .next (one st (gone st))
    | none => .next s
  | .copy lane => match s.pipe.copies.find? fun q => q.1 == lane with
    | some (_, c) => .next (one c.stripe fun s => s.copyLine c.stripe c.spill y)
    | none => .next s

/-! ### Holding store and spill region -/

/-- Bytes in use in the holding store, or in the spill region. -/
def State.storeBytesUsed (s : State) (spill : Bool) : Nat :=
  (s.pipe.holds.filter fun h => h.spill == spill).foldl (fun a h => a + h.bytes) 0

/-- Eligible stripes of a lane that are in no pipe and in no store: stripe mode only, a channel of the lane. -/
def State.holdable (s : State) (lane : Nat) : List (Nat × Nat × StripeRef) :=
  s.waiting.filter fun w => w.2.2.ch / 4 == lane && decide (w.2.2.ch < 128) &&
    !(s.pipe.holds.any fun h => h.stripe == w.2.2)

/-- A copy of a stripe begins on its lane (R137, R138). -/
def State.beginCopy (s : State) (lane : Nat) (r : StripeRef) (spill : Bool) : State :=
  let lo := s.get .PIPE_SPILL_BASE
  let ext := if spill then
      placeExt lo (lo + s.get .PIPE_SPILL_SIZE_SIZE_MIB * 2 ^ 20) (s.stripeBytes r) (s.pipe.holds.flatMap fun h => h.ext)
    else []
  { s with pipe := { s.pipe with copies := tabPut s.pipe.copies lane ⟨r, spill, s.elapsed⟩,
                                 holds := s.pipe.holds ++ [⟨r, spill, s.stripeBytes r, ext⟩] } }

/-- The frame that R141 refuses on a lane: of its bound stripe-mode frames with no stripe started, the newest of highest
`PRIO` value. -/
def State.victim (s : State) (lane : Nat) : Option Frame :=
  let cand := s.frames.filter fun f => f.ch / 4 == lane && f.ch < 128 && f.work.started.isEmpty &&
    (match f.work.bank with | some b => !s.bankMux f.ch b | none => false)
  let prio := fun (f : Frame) => s.bankPrio f.ch (f.work.bank.getD 0)
  cand.foldl (fun (a : Option Frame) f => match a with
    | none => some f
    | some g => if prio g ≤ prio f then some f else some g) none

/-- On a lane at or above `HOLD_WM` the first undispatched eligible stripe starts to be copied to the holding store; where
that lacks room, to the spill region; where neither can take it, one frame of the lane is refused (R137, R138, R141). -/
def execHoldCopy (lane : Nat) (s : State) : Res :=
  let s := s.noteEligible
  if s.get .ING_QUEUE_LEVEL_LEVEL lane < s.get .PIPE_SCH_CFG_HOLD_WM || (s.pipe.copies.any fun c => c.1 == lane) then .next s
  else match firstStripe (s.holdable lane) with
    | none => .next s
    | some (_, _, r) =>
      let n := s.stripeBytes r
      if s.storeBytesUsed false + n ≤ 12 * 2 ^ 20 then .next ((s.beginCopy lane r false).inc .PIPE_CNT_HELD)
      else if s.bankSpill r.ch r.bank && s.storeBytesUsed true + n ≤ s.get .PIPE_SPILL_SIZE_SIZE_MIB * 2 ^ 20 then
        .next ((((s.beginCopy lane r true).inc .PIPE_CNT_SPILL).schEvent 0 r.seq r.ch r.k).delayFrame r)
      else match s.victim lane with
        | none => .next s
        | some f =>
          let streams := s.frameStreams f
          .next ((((s.inc .PIPE_CNT_REFUSED).schEvent 2 f.tag.seq f.ch 0).refuseFrame f 1 streams).relevel lane)

/-- A copy on a lane completes: its lines have left the queue, but for a halo (R137, R138). -/
def State.copyDone (s : State) (lane : Nat) (spill : Bool) : State :=
  match s.pipe.copies.find? fun c => c.1 == lane && c.2.spill == spill with
  | none => s
  | some (_, c) =>
    let s : State := { s with pipe := { s.pipe with copies := tabErase s.pipe.copies lane } }
    s.moveLines c.stripe 65536 spill

/-- A copy to the holding store completes (R137). -/
def execHoldCopyDone (lane : Nat) (s : State) : Res := .next (s.copyDone lane false)

/-- A copy to the spill region completes (R138). -/
def execSpillCopyDone (lane : Nat) (s : State) : Res := .next (s.copyDone lane true)

/-! ### Context banks -/

/-- A write of bytes through the context store window (R131): from installer up, into a FREE bank; the tail above the last
context takes no value (21_register_map.md R506). -/
def State.ctxStore (s : State) (addr : Nat) (data : List Nat) (src : Src) : State × Status :=
  let off := addr - 0x10000000
  let x := off / 0x10000
  let b := off / 0x8000 % 2
  if s.gate src .installer 99 ≠ .ok then (s, s.gate src .installer 99)
  else if addr < 0x10000000 || 0x20000000 < addr + data.length || 0x8000 < off % 0x8000 + data.length then (s, .range)
  else if 132 ≤ x then (s, .ok)
  else if s.bankState x b ≠ 0 then (s, .state)
  else (s.putBytes addr data, .ok)

/-- The command form. -/
def execCtxWindowWrite (addr : Nat) (data : List Nat) (src : Src) (s : State) : Res :=
  let q := s.ctxStore addr data src
  .next (q.1.answer src 0 q.2)

/-- The header checks of `GO` (R132). -/
def State.ctxHeaderOk (s : State) (x b : Nat) : Bool :=
  let base := bankBase x b
  let mask := s.bankMask x b
  let sl := s.bankLines x b
  decide (16 ≤ sl) && decide (sl ≤ 128) && sl % 4 == 0 && mask != 0 && decide (s.par base 2 1 < 16) &&
    (!s.bankMux x b || ((List.range 8).any fun p => mask == 2 ^ p &&
      (match s.holder p with | some y => y == x | none => true))) &&
    s.zeros base 5 3 && s.zeros base 12 4

/-- The pipe under rolling test or being withdrawn for one. -/
def State.rollPipe (s : State) : Option Nat :=
  if s.get .PIPE_ROLL_STATUS_STATE = 1 || s.get .PIPE_ROLL_STATUS_STATE = 2 then some (s.get .PIPE_ROLL_STATUS_PIPE)
  else none

/-- The bank's `PIPE_MASK` names only the pipe under rolling test. -/
def State.onlyRolling (s : State) (mask : Nat) : Bool :=
  match s.rollPipe with
  | some p => mask == 2 ^ p
  | none => false

/-- What `GO` answers on context `x` (R132). -/
def State.ctxGoCheck (s : State) (x : Nat) (withIng : Bool) : Status :=
  let b := s.commitBank x
  if 132 ≤ x then .range
  else if s.bankState x b ≠ 0 then .state
  else if !s.ctxHeaderOk x b || !s.stageOk (bankBase x b) || (withIng && (decide (128 ≤ x) || s.applyBad x)) then .range
  else if s.onlyRolling (s.bankMask x b) then .selftest
  else .ok

/-- The committed bank becomes PENDING, with the ingress `APPLY` in the same clock when asked (R132). -/
def effCtxGo (x mode : Nat) (withIng : Bool) (src : Src) (s : State) : State :=
  if s.ctxGoCheck x withIng = .ok then
    let k := 2 * x + s.commitBank x
    let s := (s.set .PIPE_H_BANK_STATE k 1).set .PIPE_H_MODE k mode
    if withIng then s.set .ING_CH_STATUS_SHADOW_PENDING x 1 else s
  else s.answer src 0 (s.ctxGoCheck x withIng)

/-- Bytes of a context bank. -/
def State.bankBytes (s : State) (x b : Nat) : List Nat := s.memBytes (bankBase x b) 0x8000

/-- First 16 bytes of the SHA-256 of bytes (R430). -/
def digest16 (l : List Nat) : List Nat := (Config.sha256 l).take 16

/-- `PIPE_CTX_COMMIT.GO` (R132), by an installer. -/
def execCtxGo (x mode : Nat) (withIng : Bool) (src : Src) (s : State) : Res :=
  let b := s.commitBank x
  if !s.mayAs src .installer then .next (s.answer src 0 .rights)
  else if s.ctxGoCheck x withIng ≠ .ok then .next (s.answer src 0 (s.ctxGoCheck x withIng))
  else .next (s.recorded src 0 (.ctxGo x mode withIng src)
    (s.auditRec src 2 2 (bankBase x b) (digest16 (s.bankBytes x (1 - b))) (digest16 (s.bankBytes x b)))
    (effCtxGo x mode withIng src))

/-- What `CANCEL` answers (R132). -/
def State.ctxCancelCheck (s : State) (x : Nat) : Status :=
  if 132 ≤ x then .range else if s.bankState x (s.commitBank x) = 1 then .ok else .state

/-- The pending bank is FREE again (R132). -/
def effCtxCancel (x : Nat) (src : Src) (s : State) : State :=
  if s.ctxCancelCheck x = .ok then s.set .PIPE_H_BANK_STATE (2 * x + s.commitBank x) 0
  else s.answer src 0 (s.ctxCancelCheck x)

/-- `PIPE_CTX_COMMIT.CANCEL` (R132), by an installer. -/
def execCtxCancel (x : Nat) (src : Src) (s : State) : Res :=
  if !s.mayAs src .installer then .next (s.answer src 0 .rights)
  else if s.ctxCancelCheck x ≠ .ok then .next (s.answer src 0 (s.ctxCancelCheck x))
  else .next (s.recorded src 0 (.ctxCancel x src)
    (s.auditRec src 1 2 (bankBase x (s.commitBank x)) noValue noValue) (effCtxCancel x src))

/-! ### Admission (R142, R143) -/

/-- What admission takes of one context: its demand in pipe clocks per second, its `PIPE_MASK`, and for the stripe fit its
lane and words (none for a frame-mode or replay context). -/
structure PipeLoad where
  demand : Nat
  mask : Nat
  fit : Option (Nat × Nat)
  deriving DecidableEq, Repr

/-- Demand of a stripe-mode source at `f` millihertz (R142). -/
def stripeDemand (f e h w sl r : Nat) : Nat :=
  ceilDiv (f * (((stripesOf h sl r).map fun k =>
    stripeCost e ((stripeIn h sl r k).2 - (stripeIn h sl r k).1) w).foldl (· + ·) 0)) 1000

/-- Pipes that admission may count on: P0 to P7 but those to be taken away (R143). -/
def availPipes (less : List Nat) : List Nat := (List.range 8).filter fun p => !less.contains p

/-- Mask of a list of pipes. -/
def maskOf (l : List Nat) : Nat := l.foldl (fun m p => m ||| 2 ^ p) 0

/-- The first set of available pipes that a job overloads: its mask, demand and capacity (R143). -/
def State.pipeRateFail (s : State) (less : List Nat) (l : List PipeLoad) : Option (Nat × Nat × Nat) :=
  let avail := maskOf (availPipes less)
  let sets := (List.range 256).filter fun u => u != 0 && u &&& avail == u
  let bits' := fun (u : Nat) => ((List.range 8).filter fun p => u.testBit p).length
  let cap := fun u => bits' u * 1200000000 * s.get .PIPE_SCH_CFG_ADMIT_PCT / 100
  let dem := fun u => (l.filter fun c => (c.mask &&& avail) &&& u == c.mask &&& avail).foldl (fun a c => a + c.demand) 0
  (sets.find? fun u => decide (cap u < dem u)).map fun u => (u, dem u, cap u)

/-- The first lane whose stripes do not fit under `HWM`: lane, words, limit (R143). -/
def State.stripeFitFail (s : State) (hwm : Nat → Nat) (l : List PipeLoad) : Option (Nat × Nat × Nat) :=
  let words := fun n => (l.filterMap fun c => c.fit).foldl (fun a q => if q.1 = n then a + q.2 else a) 0
  let _ := s
  ((List.range 32).find? fun n => decide (hwm n < words n)).map fun n => (n, words n, hwm n)

/-! ### Rolling self-test -/

/-- Pipe `p` may be withdrawn for a rolling test (R145): not fenced or held, and no applied or pending bank names only
it. -/
def State.rollable (s : State) (p : Nat) : Bool :=
  !s.on .PIPE_CTRL_FENCE p && decide (s.get .PIPE_H_STATE p ≤ 1) && (s.holder p).isNone &&
    (List.range 264).all fun k => !(s.get .PIPE_H_BANK_STATE k == 1 || s.get .PIPE_H_BANK_STATE k == 2) ||
      s.bankMask (k / 2) (k % 2) != 2 ^ p

/-- The withdrawal of a pipe begins, and with it a self-test run (R144, 19_self_test.md R477). -/
def State.rollBegin (s : State) (p : Nat) : State :=
  let s := s.bump .BIST_H_RUN 0 1
  let sets : List (Fld × Nat) := [(.BIST_H_ROLLRUN, s.get .BIST_H_RUN), (.BIST_H_ROLLT0, s.elapsed),
    (.PIPE_ROLL_STATUS_STATE, 1), (.PIPE_ROLL_STATUS_PIPE, p)]
  sets.foldl (fun s q => s.set q.1 0 q.2) s

/-- The withdrawn pipe has finished its stripes, and the BIST controller tests it (R144). -/
def execRollWithdrawn (s : State) : Res :=
  let p := s.get .PIPE_ROLL_STATUS_PIPE
  if s.get .PIPE_ROLL_STATUS_STATE = 1 && s.get .PIPE_H_STATE p = 0 && !(s.pipe.next.any fun q => q.1 == p) then
    .next ((s.set .PIPE_ROLL_STATUS_STATE 0 2).set .PIPE_H_STATE p 3)
  else .next s

/-- `INTERVAL_S` in ns; 0 acts as 1. -/
def State.rollGap (s : State) : Nat := max 1 (s.get .PIPE_ROLL_CTRL_INTERVAL_S) * 1000000000

/-- With `AUTO` 1 the interval since the last withdrawal has passed: the next pipe in turn that may be withdrawn is
(R144). -/
def execRollInterval (s : State) : Res :=
  if s.get .PIPE_ROLL_STATUS_STATE = 3 && s.on .PIPE_ROLL_CTRL_AUTO && decide (s.get .BIST_H_ROLLT0 + s.rollGap ≤ s.elapsed) then
    let p := s.get .PIPE_ROLL_STATUS_PIPE
    match ((List.range 8).map fun i => (p + 1 + i) % 8).find? s.rollable with
    | some q => .next (s.rollBegin q)
    | none => .next s
  else .next s

/-! ### Fence, reset, counters -/

/-- Record of a write of `v` to `PIPE_CTRL` of pipe `p`. -/
def State.pipeCtrlRec (s : State) (p : Nat) (src : Src) (v : Nat) : AuditRec :=
  s.auditRec src 1 1 (0x200004 + 0x10000 * p) (valueDigest (s.get .PIPE_CTRL_FENCE p)) (valueDigest v)

/-- The fence stops dispatch to the pipe (R147). -/
def effPipeFence (p : Nat) (src : Src) (s : State) : State :=
  if (s.holder p).isSome then s.answer src 0 .state else s.set .PIPE_CTRL_FENCE p 1

/-- `PIPE_CTRL.FENCE` written 1 (R146, R147). -/
def execPipeFence (p : Nat) (src : Src) (s : State) : Res :=
  if s.gate src .installer p ≠ .ok then .next (s.answer src 0 (s.gate src .installer p))
  else if (s.holder p).isSome then .next (s.answer src 0 .state)
  else .next (s.recorded src 0 (.pipeFence p src) (s.pipeCtrlRec p src 1) (effPipeFence p src))

/-- The fenced pipe has completed its stripes: FENCED, and `FENCE_DONE` sets (R147). -/
def execPipeFenceDone (p : Nat) (s : State) : Res :=
  if s.on .PIPE_CTRL_FENCE p && s.get .PIPE_H_STATE p == 0 && !(s.pipe.next.any fun q => q.1 == p) then
    .next ((s.set .PIPE_H_STATE p 2).sticky .PIPE_EVENTS_EV p 1 .PIPE_EVENT_EN_PIPE 0 1 0x0020 p 0x0002 0)
  else .next s

/-- The pipe is back in scheduling (R147). -/
def effPipeUnfence (p : Nat) (s : State) : State :=
  let s := s.set .PIPE_CTRL_FENCE p 0
  if s.get .PIPE_H_STATE p = 2 then s.set .PIPE_H_STATE p 0 else s

/-- `PIPE_CTRL.FENCE` written 0 (R147). -/
def execPipeUnfence (p : Nat) (src : Src) (s : State) : Res :=
  if s.gate src .installer p ≠ .ok then .next (s.answer src 0 (s.gate src .installer p))
  else .next (s.recorded src 0 (.pipeUnfence p src) (s.pipeCtrlRec p src 0) (effPipeUnfence p))

/-- Rows beside lost ones that are on their way to the merger, or in its store, are masked (07_blanket_merger.md R183). -/
def State.maskNear (s : State) (c seq : Nat) (o : Nat × Nat) : State :=
  let near (y : Nat) : Bool := decide (o.1 ≤ y + 2) && decide (y < o.2 + 2)
  { s with
    pipe := { s.pipe with toMerger := s.pipe.toMerger.map fun r =>
      if r.ch == c && r.seq == seq && near r.y then { r with filled := true } else r }
    blankets := s.blankets.map fun b => { b with rows := b.rows.map fun r =>
      if (b.members.any fun m => m.m == r.m && m.ch == c && m.seq == seq) && near r.y then { r with masked := true } else r } }

/-- The stripe that a reset pipe was running is lost (R148): its rows pass on as filled, its frame is short, its lines
are released. -/
def State.loseStripe (s : State) (p : Nat) (r : StripeRef) : State :=
  match s.frame? r.ch r.seq with
  | none => s
  | some f =>
    let base := bankBase r.ch r.bank
    let o := s.outRows f r.bank r.k
    let frees := s.stripeFrees f r.bank r.k
    let s := s.maskNear r.ch r.seq o
    let s := s.onFrame r.ch r.seq fun f => { f.flag 4 with work := { f.work with lost := f.work.lost ++ [r.k] } }
    let s := (s.chFlag r.ch 4 r.seq (o.2 - o.1)).rowsOut base (f.flag 4) ((List.range (o.2 - o.1)).map (o.1 + ·)) true
    let s := s.tapAbandon base p f
    let s := (s.freeHolds fun q => q == r).releaseLines r.ch r.seq frees
    let s := (s.inc .PIPE_CNT_LOST p).sticky .PIPE_EVENTS_EV p 0 .PIPE_EVENT_EN_PIPE 0 0 0x0020 p 0x0001
      (argAt 16 r.seq + argAt 20 r.ch + argAt 22 r.k)
    match s.frame? r.ch r.seq with
    | some g => if s.allDone g r.bank then s.finishFrame r.ch r.seq p else s
    | none => s

/-- The pipe resets in this clock (R148): a running stripe is lost, an assigned one waits again. -/
def effPipeReset (p : Nat) (s : State) : State :=
  let s := match s.pipe.running.find? fun q => q.1 == p with
    | some (_, r) => s.loseStripe p r
    | none => s
  let s : State := { s with pipe := { s.pipe with running := tabErase s.pipe.running p, next := tabErase s.pipe.next p,
                                                  slot := tabErase (tabErase s.pipe.slot (2 * p)) (2 * p + 1) } }
  (s.set .PIPE_H_STATE p 4).newGeneration (8 + p)

/-- `PIPE_CTRL.RESET` (R148). -/
def execPipeReset (p : Nat) (src : Src) (s : State) : Res :=
  if s.gate src .installer p ≠ .ok then .next (s.answer src 0 (s.gate src .installer p))
  else .next (s.recorded src 0 (.pipeReset p src) (s.pipeCtrlRec p src 2) (effPipeReset p))

/-- The reset of a pipe ends (R148): a pipe whose fence is still written is FENCED again once its done event comes. -/
def State.pipeResetDone (s : State) (p : Nat) : State :=
  if s.get .PIPE_H_STATE p = 4 then s.set .PIPE_H_STATE p 0 else s

/-- `CLR_CNT` clears the pipe and stage counters (R515). -/
def State.pipeClrCnt (s : State) (p : Nat) : State :=
  [Fld.PIPE_CNT_STRIPES, .PIPE_CNT_BUSY, .PIPE_CNT_LOST, .PIPE_STG_CNT_DPC_STATIC, .PIPE_STG_CNT_DPC_DYN,
    .PIPE_STG_CNT_MERGE_MISS, .PIPE_STG_CNT_FALLBACK, .PIPE_STG_CNT_COMP_CLIP, .PIPE_STG_CNT_LSC_CLIP,
    .PIPE_STG_CNT_DM_CLIP, .PIPE_STG_CNT_IRS_CLIP, .PIPE_STG_CNT_CCM_CLIP, .PIPE_STG_CNT_TAP,
    .PIPE_STG_CNT_TAP_DROP].foldl (fun s f => s.set f p 0) s

/-- The command form of `CLR_CNT`. -/
def execPipeClrCnt (p : Nat) (src : Src) (s : State) : Res :=
  if s.gate src .operator p ≠ .ok then .next (s.answer src 0 (s.gate src .operator p))
  else .next ((s.pipeClrCnt p).answer src 0 .ok)

/-! ### Replay (03_camera_ingress.md R89 to R91) -/

/-- A field of the record header at `a`. -/
def State.recField (s : State) (a o n : Nat) : Nat := s.memLe (a + o) n

/-- Bytes of the record at `a`. -/
def State.recSize (s : State) (a : Nat) : Nat := 64 + s.recField a 34 2 * s.recField a 40 4

/-- A range lies in LPDDR5X. -/
def inDram (a n : Nat) : Bool := decide (0x1000000000 ≤ a) && decide (a + n ≤ 0x2000000000)

/-- The record at `a` passes the checks of R91. -/
def State.recOk (s : State) (a : Nat) : Bool :=
  let w := s.recField a 32 2
  match dtGroup (s.recField a 36 1) with
  | none => false
  | some (gp, _) => decide (16 ≤ w) && decide (w ≤ 16384) && w % gp == 0 && s.recField a 34 2 != 0 &&
      decide (lineBytes (s.recField a 36 1) w ≤ s.recField a 40 4) && inDram a (s.recSize a)

/-- Address of record `i` of a replay source (R90). -/
def State.recAddr (s : State) (k i : Nat) : Nat := s.get .ING_PLAY_ADDR k + i * s.get .ING_PLAY_FRAME_STRIDE k

/-- What `START` answers (R90). -/
def State.playStartCheck (s : State) (k : Nat) : Status :=
  let a := s.get .ING_PLAY_ADDR k
  if s.get .ING_PLAY_STATUS_STATE k ≠ 0 then .state
  else if a % 64 ≠ 0 || !inDram a 64 || !inDram a (s.recSize a) then .range
  else .ok

/-- A replay starts (R90). -/
def State.playBegin (s : State) (k : Nat) : State :=
  (((s.set .ING_PLAY_STATUS_STATE k 1).set .ING_PLAY_STATUS_FRAMES_DONE k 0).set .ING_PLAY_H_INDEX k 0).set
    .ING_CH_H_SEQ (128 + k) 0

/-- `ING_PLAY_CTRL.START` (R90). -/
def execPlayStart (k : Nat) (src : Src) (s : State) : Res :=
  if s.gate src .operator 8 ≠ .ok then .next (s.answer src 0 (s.gate src .operator 8))
  else if s.playStartCheck k ≠ .ok then .next (s.answer src 0 (s.playStartCheck k))
  else .next ((s.playBegin k).answer src 0 .ok)

/-- A frame of the source is in flight. -/
def State.playBusy (s : State) (k : Nat) : Bool := (s.openFrame (128 + k)).isSome

/-- The replay ends after the current frame (R90). -/
def State.playHalt (s : State) (k : Nat) : State :=
  if s.get .ING_PLAY_STATUS_STATE k = 0 then s
  else if s.playBusy k then s.set .ING_PLAY_STATUS_STATE k 2
  else s.playEnd k

/-- `ING_PLAY_CTRL.STOP` (R90). -/
def execPlayStop (k : Nat) (src : Src) (s : State) : Res :=
  if s.gate src .operator 8 ≠ .ok then .next (s.answer src 0 (s.gate src .operator 8))
  else .next ((s.playHalt k).answer src 0 .ok)

/-- The tag of a replay frame (04_sync_and_tagging.md R117). -/
def replayTag (k seq : Nat) (b : List Nat) : Tag :=
  let z := b.all (· == 0)
  let g := fun o n => if z then 0 else leAt b o n
  ⟨0, 128 + k, seq, g 8 6, 0, g 16 8, 0, 0, 0, g 28 4 % 512 ||| 1024⟩

/-- A record is skipped (R91). -/
def State.playSkip (s : State) (k : Nat) : State := ((s.inc .ING_PLAY_CNT_SKIP k).playEvent k 1).playNext k

/-- A record header has been read (R91, R117, R130): the frame opens and binds, or the record is skipped. DESIGN CHOICE: a
header whose read meets an uncorrectable error fails the checks. -/
def execPlayRecordRead (k : Nat) (s : State) : Res :=
  let a := s.recAddr k (s.get .ING_PLAY_H_INDEX k)
  let h := s.dramRead a 64
  if s.get .ING_PLAY_STATUS_STATE k = 0 || s.playBusy k then .next s
  else if !inDram a 64 then .next (s.playSkip k)
  else if h.2.isNone || !s.recOk a then .next (h.1.playSkip k)
  else
      let s := h.1
      let c := 128 + k
      let seq := s.get .ING_CH_H_SEQ c
      let h := s.recField a 34 2
      let f : Frame := {
        ch := c, tag := replayTag k seq (s.memBytes a 32), fn := s.recField a 38 2, exps := 1, dt := s.recField a 36 1,
        width := s.recField a 32 2, height := h, fill := 0, lsMode := 0, begun := 1, ended := 0, got := 1, present := 1,
        next := [h, 0, 0, 0], condemned := 0, lines := [], missing := [], embedded := [], extra := 0, closed := false,
        work := ⟨none, false, false, [], [], [], [],
          if s.get .ING_PLAY_LINE_TIME_LINE_TIME_NS k = 0 then h else 0, 0, false, false, false, 0, []⟩ }
      let s := ((s.bump .ING_CH_H_SEQ c 1).set .ING_PLAY_H_REC k a).set .ING_PLAY_H_FN k f.fn
      let s := ({ s with frames := s.frames ++ [f] } : State).frameOpened c
      .next (s.noteEligible.playFrameDone k)

/-- The pacing time of lines of the replay frame has come: its first `lines` lines may be fetched (R90). -/
def execPlayPace (k lines : Nat) (s : State) : Res :=
  .next (s.onOpen (128 + k) fun f =>
    { f with work := { f.work with paced := max f.work.paced (min lines f.height) } }).noteEligible

end Sys2Proof.Machine
end

