-- ==== Sys2Proof/Machine/Mrg.lean ====
section
/-! DEFINITION. Blanket merger: member rows, tile lines, seams between devices, layout banks (07_blanket_merger.md). -/

namespace Sys2Proof.Machine

/-! ### Rows and tile lines -/

/-- Rows of a seam that are held: the early side has them and the other has not (R194). The answer counts tile lines from
the next one on that side `a` is ready for, while side `b` is not. -/
def State.heldRows (s : State) (base : Nat) (f : BFrame) (c : Nat) (a b : Side) (fuel v : Nat) : Nat :=
  match fuel with
  | 0 => 0
  | fuel + 1 =>
    if s.layBh base ≤ v then 0
    else if s.sideReady base f c v a then
      (if s.sideReady base f c v b then 0 else 1) + s.heldRows base f c a b fuel (v + 1)
    else 0

/-- `HOLD_MAX` follows the rows held at a seam; while more than `HOLD_LINES` are, the oldest tile line is completed without the
late side (R194). A side that is absent or gone is never early: its lines leave with the other side's rows. One row readies
two lines at most (R198), so `fuel` 4 covers what an arrival can do. -/
def State.seamCheck (s : State) (k seq : Nat) (q : Nat × Side × Side) : Nat → State
  | 0 => s
  | fuel + 1 =>
  match s.blanket? k seq with
  | none => s
  | some f =>
    let base := layBase k f.bank
    let v := match f.cols.find? fun t => t.col == q.1 with | some t => t.next | none => s.layBh base
    let one := fun (s : State) (a b : Side) =>
      let held := s.heldRows base f q.1 a b (s.layHold base + 2) v
      let s := s.set .MRG_BL_STATUS_HOLD_MAX k (max (s.get .MRG_BL_STATUS_HOLD_MAX k) (min held (s.layHold base)))
      if s.layHold base < held then
        (((s.emitLine k seq q.1 [b] true).inc .MRG_CNT_SEAM_MISS k).mrgEvent k 1 seq 0xFF).seamCheck k seq q fuel
      else s
    if s.sideGone base f q.2.1 || s.sideGone base f q.2.2 then s
    else if s.sideReady base f q.1 v q.2.1 && !s.sideReady base f q.1 v q.2.2 then one s q.2.1 q.2.2
    else if s.sideReady base f q.1 v q.2.2 && !s.sideReady base f q.1 v q.2.1 then one s q.2.2 q.2.1
    else s

/-- A member's region row reaches the merger (R183, R184): it passes the tone table and is stored for the blanket frame
its frame has joined; a row of a frame that joined none is discarded (R189). -/
def execMemberRowArrival (s : State) : Res :=
  match s.pipe.toMerger with
  | [] => .next s
  | r :: rest =>
    let s : State := { s with pipe := { s.pipe with toMerger := rest } }
    .next (s.blankets.foldl (fun s b =>
      match b.members.find? fun q => q.ch == r.ch && q.seq == r.seq && !q.absent with
      | none => s
      | some q =>
        let base := layBase b.k b.bank
        let n := s.layPlanes base
        let planes := ((r.planes.take n).zip (List.range n)).map fun x => x.1.map (s.toned base x.2)
        let s := s.onBlanket b.k b.seq fun b => { b with rows := b.rows ++ [⟨q.m, r.y, planes, r.filled⟩] }
        ((s.seams base).foldl (fun s q => s.seamCheck b.k b.seq q 4) s).trimRows b.k b.seq) s)

/-- Row by row, tile column `c` of a blanket frame emits its next tile line when all that the line needs is there
(R192); a line whose neighbour is gone is one-sided (R196). -/
def execTileLineEmit (k seq c : Nat) (s : State) : Res :=
  match s.blanket? k seq with
  | none => .next s
  | some f =>
    match f.cols.find? fun t => t.col == c with
    | none => .next s
    | some t =>
      let base := layBase k f.bank
      if s.layBh base ≤ t.next || !s.lineReady base f c t.next then .next s
      else
        let gone := [0, 1].filter fun d => s.ownsExt base d && seamCol (s.seamExt base d) == c &&
          !(f.remote.any fun r => r.side == d && r.v == t.next)
        if gone.isEmpty then .next (s.emitLine k seq c [] false)
        else .next (((s.emitLine k seq c (gone.map Side.remote) true).inc .MRG_CNT_SEAM_MISS k).mrgEvent k 2 seq 0xFF)

/-- `JOIN_US` after a blanket frame opened its join window closes; members that have not joined are absent
(R189, R190). -/
def execJoinWindowClose (k seq : Nat) (s : State) : Res :=
  match s.blanket? k seq with
  | none => .next s
  | some f =>
    if !f.window then .next s
    else
      let s := s.onBlanket k seq fun f => { f with window := false }
      let missing := (List.range (s.layMembers (layBase k f.bank))).filter fun m => !(f.members.any fun q => q.m == m)
      .next (missing.foldl (fun s m => s.memberAbsent k seq m) s)

/-! ### Seams between devices -/

/-- The sender posts the next packet of a seam (R195). -/
def execSeamPacketSend (k seq side : Nat) (s : State) : Res := .next (s.seamSend k seq side false)

/-- Rows of a seam packet (R195). -/
def seamRows (side : Nat) (b : List Nat) : List SeamRow :=
  let p := b.getD 5 0
  let n := b.getD 6 0
  let v0 := leAt b 18 2
  let u0 := leAt b 20 4
  let w := leAt b 24 2
  let m0 := 32 + n * w * p
  (List.range n).map fun i =>
    ⟨side, v0 + i, u0,
      (List.range w).map fun x => (List.range p).map fun q => b.getD (32 + (i * w + x) * p + q) 0,
      (List.range w).map fun x => (b.getD (m0 + i * ceilDiv w 8 + x / 8) 0).testBit (x % 8)⟩

/-- A seam packet reaches its owner (R196): kept for the open blanket frame it matches, or discarded as late. -/
def State.seamReceived (s : State) (b : List Nat) : State :=
  let k := b.getD 4 0 % 8
  let t0 := leAt b 8 8
  let job := leAt b 16 2
  let c := leAt b 20 4 / 256
  let hit := s.blankets.find? fun f => f.k == k && f.job == job &&
    decide (absDiff t0 f.t0 ≤ s.layJoinNs (layBase k f.bank)) &&
    [0, 1].any fun d => s.ownsExt (layBase k f.bank) d && seamCol (s.seamExt (layBase k f.bank) d) == c
  match hit with
  | none => s.inc .MRG_CNT_SEAM_LATE k
  | some f =>
    let base := layBase k f.bank
    let side := if s.ownsExt base 0 && seamCol (s.seamL base) == c then 0 else 1
    let next := match f.cols.find? fun t => t.col == c with | some t => t.next | none => 0
    let last := leAt b 18 2 + b.getD 6 0 - 1
    if min (s.layBh base) (last / 16 * 16 + 16) ≤ next then s.inc .MRG_CNT_SEAM_LATE k
    else
      let rows := (seamRows side b).filter fun r => decide (next ≤ r.v)
      let s := s.onBlanket k f.seq fun f => { f with remote := f.remote ++ rows }
      (s.seams base).foldl (fun s q => s.seamCheck k f.seq q 32) s

/-- A seam packet arrives from the fabric (R196, R382). -/
def execSeamPacketReceived (data : List Nat) (s : State) : Res := .next (s.seamReceived data)

/-- `EXT_WAIT_US` has passed since the own side of a 16-row group was ready: the rest of the group is completed, one-sided
where no packet brought a row (R196, R194). -/
def execSeamWaitExpiry (k seq side : Nat) (s : State) : Res :=
  match s.blanket? k seq with
  | none => .next s
  | some f =>
    let base := layBase k f.bank
    let c := seamCol (s.seamExt base side)
    match f.cols.find? fun t => t.col == c with
    | none => .next s
    | some t =>
      let stop := min (s.layBh base) (t.next / 16 * 16 + 16)
      let vs := (List.range (stop - t.next)).map (t.next + ·)
      let own := (s.colSides base c).filter (· != Side.remote side)
      let here (v : Nat) : Bool := f.remote.any fun r => r.side == side && r.v == v
      if !s.ownsExt base side || vs.isEmpty || vs.all here || !(vs.all fun v => own.all (s.sideReady base f c v)) then .next s
      else
        .next (vs.foldl (fun s v =>
          if here v then s.emitLine k seq c [] false
          else ((s.emitLine k seq c [.remote side] true).inc .MRG_CNT_SEAM_MISS k).mrgEvent k 2 seq 0xFF) s)

/-! ### Layout banks -/

/-- A write of bytes through the layout window (R197). -/
def State.layStore (s : State) (addr : Nat) (data : List Nat) (src : Src) : State × Status :=
  let off := addr - 0x310000
  let k := off / 0x4000
  let b := off / 0x2000 % 2
  if s.gate src .installer 10 ≠ .ok then (s, s.gate src .installer 10)
  else if addr < 0x310000 || 8 ≤ k || 0x2000 < off % 0x2000 + data.length then (s, .range)
  else if s.layState k b ≠ 0 then (s, .state)
  else (s.putBytes addr data, .ok)

/-- The command form. -/
def execLayoutWindowWrite (addr : Nat) (data : List Nat) (src : Src) (s : State) : Res :=
  let q := s.layStore addr data src
  .next (q.1.answer src 0 q.2)

/-- The context bank a layout's member refers to: the one of its context that is not FREE and has the layout's job. -/
def State.memberBank (s : State) (x job : Nat) : Option Nat :=
  [0, 1].find? fun b => s.bankState x b != 0 && s.bankJob x b == job

/-- The members' conditions of R198. -/
def State.layMembersOk (s : State) (base : Nat) : Bool :=
  let ms := List.range (s.layMembers base)
  let p := s.layPlanes base
  ms.all fun m =>
    let r := 0x40 + 64 * m
    let x := s.layCtx base m
    let g := fun o => toSigned 32 (s.par base (r + o) 4)
    let w := (s.owned base m).2 - (s.owned base m).1
    decide (x < 132) && !(ms.any fun n => n != m && s.layCtx base n == x) &&
      (match s.memberBank x (s.layJob base) with
        | some b => ((s.rois (bankBase x b)).any fun q => q.dest.testBit 0 && q.planes % 8 == (if p = 3 then 7 else 1)) &&
            ((s.mosaic (bankBase x b) == 0) == (p == 1))
        | none => false) &&
      decide (32768 ≤ g 4) && decide (g 4 ≤ 131072) && decide (32768 ≤ g 16) && decide (g 16 ≤ 131072) &&
      decide ((g 8).natAbs ≤ 4096) && decide ((g 12).natAbs ≤ 4096) && decide (ceilDiv ((g 12).natAbs * w) 65536 ≤ 12) &&
      s.zeros base (r + 2) 2 && s.zeros base (r + 36) 28

/-- A seam's own conditions: its width, and its band inside one tile column (R198). -/
def bandOk (q : Nat × Nat) : Bool :=
  (q.2 == 0 || [2, 4, 8, 16, 32, 64, 128, 256].contains q.2) && decide (q.2 / 2 ≤ q.1) &&
    (q.2 == 0 || bandLo q / 256 == (bandHi q - 1) / 256)

/-- All seams of a layout from left to right. -/
def State.allSeams (s : State) (base : Nat) : List (Nat × Nat) :=
  (if s.layExt base 0 then [s.seamL base] else []) ++ (List.range (s.layMembers base - 1)).map (s.seamIn base) ++
    (if s.layExt base 1 then [s.seamR base] else [])

/-- The seams' conditions of R198. -/
def State.laySeamsOk (s : State) (base : Nat) : Bool :=
  let q := s.allSeams base
  q.all bandOk && adjacent (fun i j => decide (bandHi (q.getD i (0, 0)) ≤ bandLo (q.getD j (0, 0))) &&
      decide ((q.getD i (0, 0)).1 < (q.getD j (0, 0)).1)) (List.range q.length) &&
    (List.range (s.layMembers base)).all fun m =>
      let lo := if m = 0 then (if s.layExt base 0 then bandHi (s.seamL base) else s.layU0 base)
        else bandHi (s.seamIn base (m - 1))
      let hi := if m + 1 = s.layMembers base then (if s.layExt base 1 then bandLo (s.seamR base) else s.layU1 base)
        else bandLo (s.seamIn base m)
      decide (lo < hi)

/-- `GO`'s checks on a layout bank (R198). -/
def State.layOk (s : State) (base : Nat) : Bool :=
  let n := s.layMembers base
  let p := s.layPlanes base
  let bw := s.layBw base
  let bh := s.layBh base
  let u0 := s.layU0 base
  let u1 := s.layU1 base
  let ext := s.par base 28 1
  decide (1 ≤ n) && decide (n ≤ 32) && (p == 1 || p == 3) && decide (256 ≤ bw) && decide (bw ≤ 131072) &&
    decide (256 ≤ bh) && decide (bh ≤ 16384) && bh % 256 == 0 && decide (16 ≤ s.layHold base) &&
    decide (s.layHold base ≤ 512) && u0 % 256 == 0 && (u1 % 256 == 0 || u1 == bw) && decide (u0 < u1) && decide (u1 ≤ bw) &&
    decide (ext < 16) && (!ext.testBit 2 || ext.testBit 0) && (!ext.testBit 3 || ext.testBit 1) &&
    decide (s.par base 30 1 < 64) && decide (s.par base 31 1 < 64) && decide (s.par base 32 1 < 8) &&
    decide (s.par base 33 1 < 8) && s.zeros base 34 30 && s.layMembersOk base && s.laySeamsOk base &&
    (List.range (n - 1)).all (fun j => s.zeros base (0x840 + 16 * j + 6) 10) &&
    [(0xA36, 10), (0xA46, 10), (0xA50, 432), (0x1206, 3578)].all fun z => s.zeros base z.1 z.2

/-- What `GO` answers (R197, R198). -/
def State.mrgGoCheck (s : State) (k : Nat) : Status :=
  let b := s.layCommitBank k
  if 8 ≤ k then .range else if s.layState k b ≠ 0 then .state else if s.layOk (layBase k b) then .ok else .range

/-- The committed layout bank becomes PENDING. -/
def effMrgGo (k mode : Nat) (src : Src) (s : State) : State :=
  if s.mrgGoCheck k = .ok then
    let i := 2 * k + s.layCommitBank k
    (s.set .MRG_H_BANK_STATE i 1).set .MRG_H_MODE i mode
  else s.answer src 0 (s.mrgGoCheck k)

/-- `MRG_COMMIT.GO` (R197). -/
def execMrgGo (k mode : Nat) (src : Src) (s : State) : Res :=
  let b := s.layCommitBank k
  if s.gate src .installer 10 ≠ .ok then .next (s.answer src 0 (s.gate src .installer 10))
  else if s.mrgGoCheck k ≠ .ok then .next (s.answer src 0 (s.mrgGoCheck k))
  else .next (s.recorded src 0 (.mrgGo k mode src)
    (s.auditRec src 2 2 (layBase k b) (digest16 (s.memBytes (layBase k (1 - b)) 0x2000))
      (digest16 (s.memBytes (layBase k b) 0x2000))) (effMrgGo k mode src))

/-- What `CANCEL` answers. -/
def State.mrgCancelCheck (s : State) (k : Nat) : Status :=
  if 8 ≤ k then .range else if s.layState k (s.layCommitBank k) = 1 then .ok else .state

/-- The pending layout bank is FREE again. -/
def effMrgCancel (k : Nat) (src : Src) (s : State) : State :=
  if s.mrgCancelCheck k = .ok then s.set .MRG_H_BANK_STATE (2 * k + s.layCommitBank k) 0
  else s.answer src 0 (s.mrgCancelCheck k)

/-- `MRG_COMMIT.CANCEL` (R197). -/
def execMrgCancel (k : Nat) (src : Src) (s : State) : Res :=
  if s.gate src .installer 10 ≠ .ok then .next (s.answer src 0 (s.gate src .installer 10))
  else if s.mrgCancelCheck k ≠ .ok then .next (s.answer src 0 (s.mrgCancelCheck k))
  else .next (s.recorded src 0 (.mrgCancel k src) (s.auditRec src 1 2 (layBase k (s.layCommitBank k)) noValue noValue)
    (effMrgCancel k src))

/-! ### Counters and status -/

/-- `CLR_CNT` clears the counters of all blankets (R515). -/
def State.mrgClrCnt (s : State) : State :=
  (List.range 8).foldl (fun s k => [Fld.MRG_CNT_ABSENT, .MRG_CNT_SEAM_MISS, .MRG_CNT_SEAM_LATE, .MRG_CNT_LATE,
    .MRG_CNT_NOLAYOUT, .MRG_CNT_TILES].foldl (fun s f => s.set f k 0) s) s

/-- The command form of `CLR_CNT`. -/
def execMrgClrCnt (src : Src) (s : State) : Res :=
  if s.gate src .operator 10 ≠ .ok then .next (s.answer src 0 (s.gate src .operator 10)) else .next (s.mrgClrCnt.answer src 0 .ok)

/-- The word `MRG_BL_STATUS` reads as. -/
def State.mrgStatusWord (s : State) (k : Nat) : Nat :=
  s.layState k 0 + 4 * s.layState k 1 + 16 * (s.blankets.filter fun b => b.k == k).length +
    65536 * s.get .MRG_BL_STATUS_HOLD_MAX k

/-- A read of `MRG_BL_STATUS` returns `HOLD_MAX` and clears it (R513). -/
def execHoldMaxRead (k : Nat) (src : Src) (s : State) : Res :=
  .next (((s.emit (.reply src 0 (leBytes 4 (s.mrgStatusWord k)))).set .MRG_BL_STATUS_HOLD_MAX k 0).answer src 0 .ok)

/-- Bytes of member rows in the merger's store. -/
def State.mrgUsed (s : State) : Nat :=
  s.blankets.foldl (fun a b => b.rows.foldl (fun a r => a + (r.planes.foldl (fun a p => a + p.length) 0)) a) 0

/-- The quantities `I` and `S` of a layout (R193), with the widths of the members' regions. -/
def State.mrgStore (s : State) (base : Nat) (width : Nat → Nat) : Nat × Nat :=
  let p := s.layPlanes base
  let g := fun m o => (toSigned 32 (s.par base (0x40 + 64 * m + o) 4)).natAbs
  let ms := List.range (s.layMembers base)
  (ms.foldl (fun a m => a + width m * p * (ceilDiv (g m 12 * ((s.owned base m).2 - (s.owned base m).1)) 65536 +
      ceilDiv (g m 16) 65536 + 3)) 0,
   (s.layMembers base - 1 + ([0, 1].filter fun d => s.ownsExt base d).length) * 512 * p * s.layHold base)

end Sys2Proof.Machine
end

