-- ==== Sys2Proof/Machine/Egr.lean ====
section
/-! DEFINITION. Egress (10_egress_delivery.md): deliveries into host rings, the RoCEv2 and UDP senders, queue pairs,
classes, refusals, and the logs. -/

namespace Sys2Proof.Machine

/-! ### Deliveries (R255, R259, R271, R274) -/

/-- The bytes of payload that a class queue reserves for a delivery at its first byte: the largest size a coded product can
take, else its own (R271). -/
def Offer.size (o : Offer) : Nat := max o.largest o.payload.length

/-- Why a delivery is refused at its first byte, in the order of R271; fenced too once the drain of an entry to SLEEP has
ended (20_power_sleep_reset.md R493). -/
def State.refusal (s : State) (o : Offer) : Option Nat :=
  let st := o.stream
  let q := s.strQp st
  let p := s.strPort st
  let cls := kindClass o.kind
  let fits := s.canReserve p cls (o.size + 64)
  if s.on .EGR_CTRL_FENCE || (s.get .PWR_H_STATE == 1 && s.on .PWR_H_DRAINED) then some 12
  else if !s.on .EGR_STR_CFG_EN st then some 11
  else if s.get .EGR_QP_STATUS_STATE q ≠ 1 then some 9
  else if s.get .EGR_STR_SLOT_BYTES st < (if o.open' then o.size else o.payload.length) + 64 then some 10
  else if cls = 0 && !fits then some 6
  else if cls = 1 && !fits then some 7
  else none

/-- The class queue has space for a class C transfer, which otherwise waits (R271). -/
def State.classCWaits (s : State) (o : Offer) : Bool :=
  kindClass o.kind == 2 && !s.canReserve (s.strPort o.stream) 2 (o.size + 64)

/-- The first delivery of its frame on the stream takes the carry where it follows the frames counted there; the others
repeat its count (R274). -/
def State.takeCarry (s : State) (o : Offer) : State :=
  let known := s.egr.queue.any (fun d => d.o.stream == o.stream && d.o.source == o.source && d.o.fseq == o.fseq) ||
    (match s.strFrame o.stream o.source o.fseq with | some f => decide (0 < f.taken) | none => false)
  let n := s.get .EGR_STR_STATUS_CARRY o.stream
  let after := match s.egr.carried.find? fun e => e.1 == o.stream with
    | some e => s.follows e.2 (o.source, o.fseq)
    | none => false
  if !known && decide (0 < n) && after then
    let s : State := { s with egr := { s.egr with carried := tabErase s.egr.carried o.stream } }
    (s.set .EGR_STR_STATUS_CARRY o.stream 0).onStrFrame o.stream o.source o.fseq fun f =>
      { f with before := min (f.before + n) 0xFFFF }
  else s.onStrFrame o.stream o.source o.fseq id

/-- The engine takes a delivery on: it reserves its space in its class queue, gives back what a delivery that is whole
already does not need, and the bytes there are enter the queue (R268, R271). -/
def State.takeOn (s : State) (o : Offer) (dseq : Nat) : State :=
  let s := s.takeCarry o
  let before := match s.strFrame o.stream o.source o.fseq with | some f => f.before | none => 0
  let p := s.strPort o.stream
  let cls := kindClass o.kind
  let len := if o.kind = 4 then o.size else o.payload.length
  let ext := s.reserve p cls (o.size + 64)
  let rows := if o.kind = 4 then o.size / max 1 (o.w * o.planes * (2 - s.get .EGR_STR_CFG_FORMAT o.stream)) else 1
  let d : Delivery := ⟨{ o with payload := [] }, cls, p, s.strQp o.stream, dseq, before, s.elapsed, false, 0, 0, false, false,
    len, if o.open' then ext else takeExt (len + 64) ext, 0, len / max 1 rows, []⟩
  let s : State := { s with egr := { s.egr with queue := s.egr.queue ++ [d] } }
  let s := s.imageWrite d 0 o.payload
  if o.kind = 4 && o.open' then
    match s.frames.find? fun f => f.ch == o.source && f.tag.seq == o.fseq with
    | some f => match f.work.bank with
      | some b => s.roiFlow (bankBase f.ch b) f o.id
      | none => s
    | none => s
  else s

/-- The first byte of offer `i`, the next one of its stream, arrives (R271): the delivery takes the stream's next sequence
number and is queued, or refused with the first cause that applies. -/
def execDeliveryStart (i : Nat) (s : State) : Res :=
  match s.egr.offers[i]? with
  | none => .next s
  | some o =>
    if (s.egr.offers.take i).any (fun e => e.stream == o.stream) || s.classCWaits o && (s.refusal o).isNone then .next s
    else
      let dseq := s.get .EGR_STR_H_SEQ o.stream
      let s : State := { s with egr := { s.egr with offers := s.egr.offers.take i ++ s.egr.offers.drop (i + 1) } }
      let s := s.bump .EGR_STR_H_SEQ o.stream 1
      match s.refusal o with
      | none => .next (s.takeOn o dseq)
      | some cause =>
        if o.kind = 7 then .next (s.inc .EGR_STR_CNT_DROP o.stream)
        else
          let cls := kindClass o.kind
          let s := if cls = 0 then s.onStrFrame o.stream o.source o.fseq fun f => { f with refused := f.refused + 1 } else s
          .next (s.drop o.stream o.source o.fseq dseq cause o.row o.col (if o.open' && cls = 0 then 0 else o.size) (cls = 1))

/-- A class B delivery whose first packet has not left when its budget ends is refused (R271). -/
def execClassBBudgetExpiry (st dseq : Nat) (s : State) : Res :=
  match s.egr.queue.find? fun d => d.o.stream == st && d.dseq == dseq with
  | some d =>
    if d.cls = 1 && !d.started && decide (d.queuedAt + 1000000 * s.get .EGR_STR_RATE_BUDGET_MS st ≤ s.elapsed) then
      .next ((s.refuseQueued d 8).nextHead st)
    else .next s
  | none => .next s

/-! ### The slot image (R259) -/

/-- The delivery's tag as its descriptor shows it: stream, the largest NEAR so far, the dropped-before count and the
overload-delayed flag. -/
def State.descTag (s : State) (d : Delivery) : Tag :=
  let f := (s.strFrame d.o.stream d.o.source d.o.fseq).getD ⟨0, 0, 0, 0, 0, 0, 0, false⟩
  let t := { d.o.tag with stream := d.o.stream, near := max d.o.near (max f.near d.o.tag.near), dropped := d.before }
  if d.delayed || (d.o.kind = 8 && f.delayed) then t.flag 9 else t

/-- The 64-byte descriptor (R259). -/
def State.descriptor (s : State) (d : Delivery) : List Nat :=
  let o := d.o
  let f := (s.strFrame o.stream o.source o.fseq).getD ⟨0, 0, 0, 0, 0, 0, 0, false⟩
  let fmt := if o.kind = 4 && s.on .EGR_STR_CFG_FORMAT o.stream then 2 else 0
  let prov := if o.kind ≤ 3 then 4 else 0
  let tile := o.kind = 0 || o.kind = 1 || o.kind = 3
  let size := o.kind = 4 || o.kind = 5
  (s.descTag d).bytes ++ leBytes 4 d.len ++ leBytes 4 d.dseq ++
    [o.kind, (if o.coded then 1 else 0) + fmt + prov, o.near, o.planes] ++
    leBytes 2 (if tile then o.row else 0xFFFF) ++ leBytes 2 (if tile then o.col else 0xFFFF) ++
    leBytes 4 (if size then o.w else 0) ++ leBytes 4 (if size then o.h else 0) ++
    leBytes 4 (if o.kind = 8 then f.taken else 0) ++ leBytes 2 (if o.kind = 8 then f.refused else 0) ++ [0, 0]

/-- The immediate value of a descriptor write (R260). -/
def Delivery.immediate (d : Delivery) : Nat := d.o.stream % 256 * 2 ^ 24 + d.o.kind % 16 * 2 ^ 20 + d.slot % 2 ^ 20

/-- The 24-byte header of a datagram (R267) at image offset `off`. -/
def State.datagramHeader (s : State) (d : Delivery) (off : Nat) (first last : Bool) : List Nat :=
  leBytes 2 d.o.stream ++ [d.o.kind, (if first then 1 else 0) + (if last then 2 else 0)] ++ leBytes 4 d.dseq ++
    leBytes 4 off ++ leBytes 4 (d.len + 64) ++ leBytes 4 (s.get .EGR_QP_H_DGRAM d.qp) ++ leBytes 4 0

/-- A packet about to be sent: what it is, the address it writes, the bytes before those of the class queue, the place of
these in the delivery's stretches, and whether it completes the delivery with its descriptor. -/
structure Cut where
  op : PktOp
  va : Nat
  pre : List Nat
  off : Nat
  n : Nat
  last : Bool
  deriving DecidableEq, Repr

/-- The position of a packet in its message. -/
def writeOp (first last : Bool) : PktOp :=
  if first && last then .writeOnly else if first then .writeFirst else if last then .writeLast else .writeMiddle

/-- The same for a SEND. -/
def sendOp (first last : Bool) : PktOp :=
  if first && last then .sendOnly else if first then .sendFirst else if last then .sendLast else .sendMiddle

/-- The next packet of a delivery (R260, R267): its payload by RDMA WRITE messages of at most 64 KiB, then the descriptor
with immediate; or datagrams, descriptor last. -/
def State.nextCut (s : State) (d : Delivery) : Cut :=
  let mtu := s.qpMtu d.qp
  if s.on .EGR_QP_CFG_MODE d.qp then
    if d.sent < d.len then
      let n := min (mtu - 24) (d.len - d.sent)
      ⟨.datagram, 0, s.datagramHeader d (64 + d.sent) (d.sent = 0) false, d.sent, n, false⟩
    else ⟨.datagram, 0, s.datagramHeader d 0 (d.len = 0) true, d.len, 64, true⟩
  else
    let va := s.get .EGR_STR_VA d.o.stream + d.slot * s.get .EGR_STR_SLOT_BYTES d.o.stream
    if d.sent < d.len then
      let stop := min d.len ((d.sent / 65536 + 1) * 65536)
      let n := min mtu (stop - d.sent)
      ⟨writeOp (d.sent % 65536 = 0) (d.sent + n = stop), va + 64 + d.sent, [], d.sent, n, false⟩
    else ⟨.writeImm, va, leBytes 4 d.immediate, d.len, 64, true⟩

/-- Bytes of a delivery's payload that are in its class queue, from its first on. -/
def Delivery.have (d : Delivery) : Nat :=
  if d.o.open' then d.unit * ((List.range (d.len / max 1 d.unit)).takeWhile fun i => d.rows.contains i).length else d.len

/-- The bytes of the next packet are in the class queue; a product's, once it has closed (DESIGN CHOICE: its length is not
known before). -/
def State.cutThere (s : State) (d : Delivery) : Bool :=
  let c := s.nextCut d
  if d.o.open' then d.o.kind == 4 && !c.last && decide (c.off + c.n ≤ d.have) else true

/-- Bytes of a delivery are read from its class queue, `n` from `off` on; bytes that an uncorrectable error hits are free
values. -/
def State.imageRead (s : State) (d : Delivery) (off n : Nat) : State × List Nat :=
  let q := s.extRead (subExt (off - d.gone) n d.ext)
  match q.2 with
  | some l => (q.1, l)
  | none => (q.1.drawn, leBytes n q.1.free)

/-! ### Sending (R262, R266, R270) -/

/-- The bytes that a packet with `n` bytes of payload takes on the wire, as H of R254 reckons them. -/
def State.wireBytes (s : State) (p q : Nat) (op : PktOp) (n : Nat) : Nat :=
  let net := 20 + 18 + (if s.on .EGR_PORT_VLAN_VLAN_EN p then 4 else 0) + (if s.qpIpv6 q then 40 else 20) + 8
  net + n + match op with
    | .datagram => 0
    | .writeFirst | .writeOnly | .writeImm => 12 + 16 + 4
    | .ack => 12 + 4 + 4
    | _ => 12 + 4

/-- Packets that still count against the current rate of a queue pair (R266): those of the last 4 µs, and one that takes
longer at that rate for as long as it takes. -/
def State.rateOpen (s : State) (q : Nat) : List (Nat × Nat × Nat) :=
  s.egr.sends.filter fun e => e.1 == q &&
    decide (s.elapsed < e.2.1 + max 4000 (e.2.2 * 1000 / max 1 (s.get .EGR_QP_RATE_RC_MBPS q)))

/-- Room for `n` bytes within the current rate over any 4 µs (R266). -/
def State.rateOk (s : State) (q n : Nat) : Bool :=
  let l := s.rateOpen q
  s.on .EGR_QP_CFG_MODE q || l.isEmpty ||
    decide (l.foldl (fun a e => a + e.2.2) n ≤ 4 * s.get .EGR_QP_RATE_RC_MBPS q)

/-- Count `n` bytes against the rate. -/
def State.rateUse (s : State) (q n : Nat) : State :=
  { s with egr := { s.egr with sends := (s.egr.sends.filter fun e => e.1 != q) ++ s.rateOpen q ++ [(q, s.elapsed, n)] } }

/-- The headers of a packet (R253, R258, R261, R267). PRESUMED: ECT(0) is the codepoint 2; over UDP mode the source port is
that of R261 too. -/
def State.netHdr (s : State) (p q : Nat) (op : PktOp) (st : Nat) : NetHdr :=
  let udp := op = .datagram
  let write := [PktOp.writeFirst, .writeOnly, .writeImm].contains op
  { vlan := if s.on .EGR_PORT_VLAN_VLAN_EN p then some (s.get .EGR_PORT_VLAN_VID p, s.get .EGR_PORT_VLAN_PCP p) else none
    srcMac := s.get .EGR_PORT_MAC p
    destMac := s.get .EGR_QP_MAC q
    srcIp := [Fld.EGR_PORT_IP0_IP, .EGR_PORT_IP1_IP, .EGR_PORT_IP2_IP, .EGR_PORT_IP3_IP].map fun f => s.get f p
    destIp := [Fld.EGR_QP_IP0_IP, .EGR_QP_IP1_IP, .EGR_QP_IP2_IP, .EGR_QP_IP3_IP].map fun f => s.get f q
    dscp := s.get .EGR_QP_CFG_DSCP q
    ecn := 2
    srcPort := 0xC000 + q
    destPort := if udp then s.get .EGR_QP_DEST_QPN_DEST q / 65536 else 4791
    destQpn := if udp then 0 else s.get .EGR_QP_DEST_QPN_DEST q % 2 ^ 24
    pKey := if udp then 0 else 0xFFFF
    rKey := if write then s.get .EGR_STR_RKEY st else 0 }

/-- A new packet leaves on a queue pair: it takes the next PSN and, over RC, is kept until acknowledged. Its payload is `pre`
and `n` bytes, read from `off` on of its delivery's stretches, `bytes`. -/
def State.sendNew (s : State) (p q : Nat) (op : PktOp) (st dseq va : Nat) (pre : List Nat) (off n : Nat)
    (bytes : List Nat) : State :=
  let psn := s.get .EGR_QP_H_PSN q
  let data := pre ++ bytes
  let s := ((s.emit (.packet p q psn op st dseq va data (s.netHdr p q op st))).inc .EGR_PORT_CNT_TX p).rateUse q
    (s.wireBytes p q op data.length)
  if op = .datagram then s.bump .EGR_QP_H_DGRAM q 1
  else if op = .ack then s
  else
    let s : State := { s with egr := { s.egr with pkts := s.egr.pkts ++ [⟨q, psn, op, st, dseq, va, pre, off, n⟩] } }
    s.bump .EGR_QP_H_PSN q 1

/-- Nothing stops a queue pair from sending something new: RTS, no retransmission due, no RNR wait (R262). -/
def State.qpFree (s : State) (q : Nat) : Bool :=
  s.get .EGR_QP_STATUS_STATE q == 1 && (tabGet s.egr.resend q []).isEmpty && !s.on .EGR_QP_H_RNRWAIT q

/-- A delivery inside a WRITE message. -/
def State.midMessage (s : State) (d : Delivery) : Bool :=
  d.started && !d.finished && !s.on .EGR_QP_CFG_MODE d.qp && decide (d.sent < d.len) && d.sent % 65536 != 0

/-- Another message is in progress on the queue pair: messages never interleave there (R270). -/
def State.qpMid (s : State) (q : Nat) (d : Delivery) : Bool :=
  (s.egr.queue.any fun e => e.qp == q && s.midMessage e && !(e.o.stream == d.o.stream && e.dseq == d.dseq)) ||
    (s.egr.ctl.any fun c => c.qp == q && c.begun)

/-- The ring of the delivery's stream has a free slot (R258); a UDP destination has no ring credit. -/
def State.slotFree (s : State) (d : Delivery) : Bool :=
  s.on .EGR_QP_CFG_MODE d.qp || decide ((s.get .EGR_STR_PROD_P d.o.stream + 2 ^ 32 - s.get .EGR_STR_CONS_C d.o.stream) % 2 ^ 32 <
    s.get .EGR_STR_SLOTS d.o.stream)

/-- The delivery's next packet is sendable (R270). -/
def State.sendable (s : State) (d : Delivery) : Bool :=
  let c := s.nextCut d
  s.qpFree d.qp && !s.qpMid d.qp d && (d.started || s.slotFree d) && s.cutThere d &&
    s.rateOk d.qp (s.wireBytes d.port d.qp c.op (c.pre.length + c.n))

/-- Heads of the streams of a class on a port, by stream. -/
def State.heads (s : State) (p cls : Nat) : List Delivery :=
  ((List.range 256).filterMap s.strHead).filter fun d => d.port == p && d.cls == cls

/-- The delivery of a class whose packet is next: a message in progress, else the next stream in turn (R270). -/
def State.classNext (s : State) (p cls : Nat) : Option Delivery :=
  let h := (s.heads p cls).filter s.sendable
  let last := s.get .EGR_PORT_H_LAST (4 * p + cls)
  match h.find? s.midMessage with
  | some d => some d
  | none => match h.find? fun d => decide (last < d.o.stream) with
    | some d => some d
    | none => h.head?

/-- The next packet to send again of a queue pair: its place in the order of PSNs, where its rate allows it (R262, R266). -/
def State.resendHead (s : State) (e : Nat × List Nat) : Option Pkt :=
  if s.get .EGR_QP_STATUS_STATE e.1 == 1 && !s.on .EGR_QP_H_RNRWAIT e.1 then
    match e.2 with
    | psn :: _ => (s.egr.pkts.find? fun k => k.qp == e.1 && k.psn == psn).filter fun k =>
        s.rateOk k.qp (s.wireBytes (s.get .EGR_QP_CFG_PORT k.qp) k.qp k.op (k.data.length + k.n))
    | [] => none
  else none

/-- The next packet of a class, or with class 3 of the control messages, that a port sends again (R262, R270). -/
def State.resendNext (s : State) (p cls : Nat) : Option Pkt :=
  (s.egr.resend.filterMap fun e => if s.get .EGR_QP_CFG_PORT e.1 == p then
    (s.resendHead e).filter fun k => (if k.stream = 0 then 3 else
      match s.egr.queue.find? fun d => d.o.stream == k.stream && d.dseq == k.dseq with
      | some d => d.cls
      | none => 0) == cls
    else none).head?

/-- A class has a packet that a port may send. -/
def State.classReady (s : State) (p cls : Nat) : Bool := (s.resendNext p cls).isSome || (s.classNext p cls).isSome

/-- Each class with a sendable packet gains credit at its share of the usable rate, up to two MTU (R270). -/
def State.gainCredit (s : State) (p : Nat) : State :=
  [0, 1, 2].foldl (fun s c =>
    let i := 4 * p + c
    let share := if c = 0 then s.get .EGR_CLASS_SHARE_SHARE_A p else if c = 1 then s.get .EGR_CLASS_SHARE_SHARE_B p
      else s.get .EGR_CLASS_SHARE_SHARE_C p
    let gain := (s.elapsed - s.get .EGR_PORT_H_CREDT i) * (s.portUsable p).1 * share / (100000 * (s.portUsable p).2)
    let s' := if s.classReady p c then
      s.set .EGR_PORT_H_CREDIT i (min (s.get .EGR_PORT_H_CREDIT i + gain) (65536 + 2 * s.portMtu p)) else s
    s'.set .EGR_PORT_H_CREDT i s.elapsed) s

/-- The class that sends next: A, B, C among those with positive credit, else among all (R270). -/
def State.pickClass (s : State) (p : Nat) : Option Nat :=
  match [0, 1, 2].find? fun c => decide (65536 < s.get .EGR_PORT_H_CREDIT (4 * p + c)) && s.classReady p c with
  | some c => some c
  | none => [0, 1, 2].find? fun c => s.classReady p c

/-- The first packet of a delivery leaves: it takes its slot, and a late one is overload-delayed (R272). -/
def State.startDelivery (s : State) (d : Delivery) : State :=
  let lim := if d.cls = 0 then s.get .EGR_CLASS_H_DELAY_A d.port else s.get .EGR_CLASS_H_DELAY_B d.port
  let late := decide (d.queuedAt + 1000 * lim < s.elapsed)
  let slot := s.get .EGR_STR_PROD_P d.o.stream % max 1 (s.get .EGR_STR_SLOTS d.o.stream)
  let s := s.onDelivery d.o.stream d.dseq fun d => { d with started := true, slot := slot, delayed := late }
  if late && decide (d.o.kind ≤ 3) then s.onStrFrame d.o.stream d.o.source d.o.fseq fun f => { f with delayed := true } else s

/-- The descriptor has left (R258, R259): the producer index rises; over UDP the delivery is complete and its bytes are
free. -/
def State.deliverySent (s : State) (d : Delivery) : State :=
  let st := d.o.stream
  let s := s.bump .EGR_STR_PROD_P st 1
  let s := if d.o.kind = 8 then
      { s with egr := { s.egr with frames := s.egr.frames.filter fun f =>
        !(f.stream == st && f.source == d.o.source && f.fseq == d.o.fseq) } }
    else s.onStrFrame st d.o.source d.o.fseq fun f => { f with taken := f.taken + 1, near := max f.near d.o.near }
  let s := if s.on .EGR_QP_CFG_MODE d.qp then (s.unqueue d).inc .EGR_STR_CNT_DELIV st
    else s.onDelivery st d.dseq fun d => { d with finished := true }
  s.nextHead st

/-- `n` bytes at the front of what a delivery holds in its class queue are free. -/
def Delivery.release (d : Delivery) (n : Nat) : Delivery := { d with ext := dropExt n d.ext, gone := d.gone + n }

/-- One packet of a delivery leaves. -/
def State.sendData (s : State) (p : Nat) (d : Delivery) : State :=
  let s := if d.started then s else s.startDelivery d
  match s.egr.queue.find? fun e => e.o.stream == d.o.stream && e.dseq == d.dseq with
  | none => s
  | some d =>
    let c := s.nextCut d
    let i := 4 * p + d.cls
    let s := if c.last then s.imageWrite d d.len (s.descriptor d) else s
    let r := s.imageRead d c.off c.n
    let s := r.1.sendNew p d.qp c.op d.o.stream d.dseq c.va c.pre c.off c.n r.2
    let s := s.set .EGR_PORT_H_CREDIT i (s.get .EGR_PORT_H_CREDIT i - (c.pre.length + c.n))
    let s := s.set .EGR_PORT_H_LAST i d.o.stream
    let udp := s.on .EGR_QP_CFG_MODE d.qp
    let s := s.onDelivery d.o.stream d.dseq fun d =>
      let d := if udp then d.release c.n else d
      if c.last then d else { d with sent := d.sent + c.n }
    if c.last then s.deliverySent d else s

/-- Control packets of a port in the last 100 µs. -/
def State.ctlOpen (s : State) (p : Nat) : List (Nat × Nat × Nat) :=
  s.egr.ctlSends.filter fun e => e.1 == p && decide (s.elapsed < e.2.1 + 100000)

/-- A port may send `n` more control bytes: 1 % of its rate over any 100 µs (R270). -/
def State.ctlRoom (s : State) (p n : Nat) : Bool := decide ((s.ctlOpen p).foldl (fun a e => a + e.2.2) n ≤ s.portRate)

/-- Count `n` control bytes. -/
def State.ctlUse (s : State) (p n : Nat) : State :=
  { s with egr := { s.egr with ctlSends := (s.egr.ctlSends.filter fun e => e.1 != p) ++ s.ctlOpen p ++ [(p, s.elapsed, n)] } }

/-- The wire bytes of the next packet of a control message. -/
def State.ctlBytes (s : State) (p : Nat) (c : CtlMsg) : Nat :=
  s.wireBytes p c.qp (if c.isAck then .ack else .sendOnly) (min c.data.length (s.qpMtu c.qp))

/-- The next control message of a port. -/
def State.ctlNext (s : State) (p : Nat) : Option (Nat × CtlMsg) :=
  ((List.range s.egr.ctl.length).zip s.egr.ctl).find? fun e =>
    let c := e.2
    s.get .EGR_QP_CFG_PORT c.qp == p && s.qpFree c.qp &&
      !(s.egr.ctl.take e.1).any (fun b => b.qp == c.qp) && !(s.egr.queue.any fun d => d.qp == c.qp && s.midMessage d) &&
      s.rateOk c.qp (s.ctlBytes p c) && s.ctlRoom p (s.ctlBytes p c)

/-- One packet of a control message leaves (R263). -/
def State.sendCtlPacket (s : State) (p i : Nat) (c : CtlMsg) : State :=
  let mtu := s.qpMtu c.qp
  let now := c.data.take mtu
  let rest := c.data.drop mtu
  let op := if c.isAck then PktOp.ack else sendOp (!c.begun) rest.isEmpty
  let s := (s.sendNew p c.qp op 0 0 0 now 0 0 []).ctlUse p (s.ctlBytes p c)
  let left := if rest.isEmpty then [] else [{ c with data := rest, begun := true }]
  { s with egr := { s.egr with ctl := s.egr.ctl.take i ++ left ++ s.egr.ctl.drop (i + 1) } }

/-- A packet leaves again, its bytes from the retry buffer (R262, R268). -/
def State.sendAgain (s : State) (p : Nat) (k : Pkt) : State :=
  let r := match s.egr.queue.find? fun d => d.o.stream == k.stream && d.dseq == k.dseq with
    | some d => s.imageRead d k.off k.n
    | none => (s, [])
  let data := k.data ++ r.2
  let s := ((r.1.emit (.packet p k.qp k.psn k.op k.stream k.dseq k.va data (s.netHdr p k.qp k.op k.stream))).inc
    .EGR_PORT_CNT_TX p).rateUse k.qp (s.wireBytes p k.qp k.op data.length)
  let l := (tabGet s.egr.resend k.qp []).drop 1
  { s with egr := { s.egr with
    resend := if l.isEmpty then tabErase s.egr.resend k.qp else tabPut s.egr.resend k.qp l } }

/-- Streams whose next delivery waits for a slot (`RING_FULL`, R278). -/
def State.markRingFull (s : State) (p : Nat) : State :=
  [0, 1, 2].foldl (fun s c => (s.heads p c).foldl (fun s d =>
    if !d.started && s.qpFree d.qp && !s.slotFree d then s.strEvent d.o.stream 1 d.dseq 0 else s) s) s

/-- A packet of a class leaves on a port: one to send again, else the next of the delivery whose turn it is. -/
def State.sendClass (s : State) (p c : Nat) : State :=
  match s.resendNext p c with
  | some k =>
    let i := 4 * p + c
    (s.sendAgain p k).set .EGR_PORT_H_CREDIT i (s.get .EGR_PORT_H_CREDIT i - (k.data.length + k.n))
  | none => match s.classNext p c with
    | some d => s.sendData p d
    | none => s

/-- A port sends its next packet (R270): time packets, control packets, then the classes, in each of them packets to send
again before new ones (DESIGN CHOICE). `ptp` is a PTP event message the firmware has for the port: its type and sequence, stamped as it leaves (R111). -/
def execPortSend (p : Nat) (ptp : Option (Nat × Nat)) (s : State) : Res :=
  if s.portCount ≤ p || !s.on .EGR_PORT_STATUS_LINK p then .next s
  else if s.elapsed < s.get .EGR_PORT_H_PAUSE p then .next s
  else
    let s := s.markRingFull p
    let other : State :=
      let again := (s.resendNext p 3).filter fun k => s.ctlRoom p (s.wireBytes p k.qp k.op k.data.length)
      match again with
      | some k => (s.sendAgain p k).ctlUse p (s.wireBytes p k.qp k.op k.data.length)
      | none => match s.ctlNext p with
        | some (i, c) => s.sendCtlPacket p i c
        | none =>
          let s := s.gainCredit p
          match s.pickClass p with
          | some c => s.sendClass p c
          | none => s
    match ptp with
    | some (t, n) =>
      if p = 0 && s.ctlRoom p 98 then
        let s := ((s.emit (.ptpTx p t n s.now)).inc .EGR_PORT_CNT_TX p).ctlUse p 98
        .next (if s.on .SYN_PTP_CFG_EN && ptpEventMsg t then s.ptpTxStamp ⟨n, t, s.now⟩ else s)
      else .next other
    | none => .next other

/-! ### Acknowledgements (R262) -/

/-- A delivery whose descriptor is acknowledged is complete; the others free the bytes acknowledged. -/
def State.ackPacket (s : State) (k : Pkt) : State :=
  if k.stream = 0 then s
  else if k.op = .writeImm then
    ({ s with egr := { s.egr with queue := s.egr.queue.filter fun e => !(e.o.stream == k.stream && e.dseq == k.dseq) } } :
      State).inc .EGR_STR_CNT_DELIV k.stream
  else s.onDelivery k.stream k.dseq fun d => d.release k.n

/-- A CE mark on a received packet is counted (R261). -/
def State.countCe (s : State) (q : Nat) (ce : Bool) : State :=
  if ce then s.inc .EGR_PORT_CNT_CE (s.get .EGR_QP_CFG_PORT q) else s

/-- An ACK for PSN `psn` (R262): where it is outstanding, it and every earlier packet of the queue pair are acknowledged. -/
def execAckReceived (q psn : Nat) (ce : Bool) (s : State) : Res :=
  let s := s.countCe q ce
  let mine := s.egr.pkts.filter fun k => k.qp == q
  if s.get .EGR_QP_STATUS_STATE q ≠ 1 || !(mine.any fun k => k.psn == psn) then .next s
  else
    let n := (mine.map (·.psn)).idxOf psn + 1
    let acked := mine.take n
    let left := (mine.drop n).map (·.psn)
    let s := acked.foldl (fun s k => s.ackPacket k) s
    let again := (tabGet s.egr.resend q []).filter fun x => left.contains x
    let again := if again.isEmpty then tabErase s.egr.resend q else tabPut s.egr.resend q again
    let kept := s.egr.pkts.filter fun k => !(k.qp == q && !left.contains k.psn)
    let s : State := { s with egr := { s.egr with pkts := kept, resend := again } }
    .next ((s.set .EGR_QP_H_RETRY q 0).set .EGR_QP_H_RNR q 0)

/-- The oldest unacknowledged PSN of a queue pair. -/
def State.oldest (s : State) (q : Nat) : Option Nat := (s.egr.pkts.find? fun k => k.qp == q).map (·.psn)

/-- A NAK (R262): a sequence error resends from its PSN, RNR waits for its timer and then resends from its PSN, the others
end in ERROR. A UDP destination takes none (R267). -/
def execNakReceived (q psn : Nat) (nak : NakSyn) (ce : Bool) (s : State) : Res :=
  let s := s.countCe q ce
  if s.get .EGR_QP_STATUS_STATE q ≠ 1 || s.on .EGR_QP_CFG_MODE q then .next s
  else
    let s := s.set .EGR_QP_STATUS_SYNDROME q nak.syn
    match nak.kind with
    | .sequence => if s.egr.pkts.any fun k => k.qp == q && k.psn == psn then .next (s.qpRetry q psn) else .next s
    | .rnr =>
      if !(s.egr.pkts.any fun k => k.qp == q && k.psn == psn) then .next s
      else if s.get .EGR_QP_CFG_RNR_RETRY q = 7 || s.get .EGR_QP_H_RNR q < s.get .EGR_QP_CFG_RNR_RETRY q then
        .next (((s.inc .EGR_QP_H_RNR q).set .EGR_QP_H_RNRWAIT q 1).set .EGR_QP_H_RNRPSN q psn)
      else .next (s.qpError q 2)
    | .access => .next (s.qpError q 3)
    | .operational => .next (s.qpError q 4)
    | .invalid => .next (s.qpError q 5)

/-- No advancing ACK within the timeout (R262); timers stand still while the link is down. -/
def execQpRetryTimeout (q : Nat) (s : State) : Res :=
  match s.oldest q with
  | some psn =>
    if s.get .EGR_QP_STATUS_STATE q = 1 && s.on .EGR_PORT_STATUS_LINK (s.get .EGR_QP_CFG_PORT q) &&
        !s.on .EGR_QP_H_RNRWAIT q then .next (s.qpRetry q psn)
    else .next s
  | none => .next s

/-- The NAK's timer has run: the SEND goes out again (R262); timers stand still while the link is down. -/
def execRnrTimer (q : Nat) (s : State) : Res :=
  if s.get .EGR_QP_STATUS_STATE q = 1 && s.on .EGR_QP_H_RNRWAIT q && s.on .EGR_PORT_STATUS_LINK (s.get .EGR_QP_CFG_PORT q) then
    let s := s.set .EGR_QP_H_RNRWAIT q 0
    let psn := s.get .EGR_QP_H_RNRPSN q
    if s.egr.pkts.any fun k => k.qp == q && k.psn == psn then .next ((s.inc .EGR_QP_CNT_RETX q).qpResend q psn)
    else .next s
  else .next s

/-- A CNP lowers the current rate, at most once in 50 µs (R266); a UDP destination does not react (R267). -/
def execCnpReceived (cnp : CnpIn) (s : State) : Res :=
  let q := cnp.q
  let s := s.countCe q cnp.ce
  if s.get .EGR_QP_STATUS_STATE q = 1 && !s.on .EGR_QP_CFG_MODE q && (!s.on .EGR_QP_H_CNPV q || decide (50000 ≤ s.elapsed - s.get .EGR_QP_H_CNPT q)) then
    let rc := max (s.get .EGR_QP_RATE_RC_MBPS q * (256 - s.get .EGR_CNP_CFG_DEC) / 256) (s.get .EGR_CNP_RMIN)
    .next ((((s.set .EGR_QP_RATE_RC_MBPS q rc).set .EGR_QP_H_CNPT q s.elapsed).set .EGR_QP_H_CNPV q 1).inc .EGR_QP_CNT_CNP q)
  else .next s

/-- `INC_US` have passed without a reaction: the current rate rises (R266); timers stand still while the link is down
(R262). -/
def execCnpRateInc (q : Nat) (s : State) : Res :=
  if s.get .EGR_QP_STATUS_STATE q = 1 && s.on .EGR_PORT_STATUS_LINK (s.get .EGR_QP_CFG_PORT q) && (!s.on .EGR_QP_H_CNPV q ||
      decide (1000 * s.get .EGR_CNP_CFG_INC_US ≤ s.elapsed - s.get .EGR_QP_H_CNPT q)) then
    .next (s.set .EGR_QP_RATE_RC_MBPS q (min (s.get .EGR_QP_RATE_RC_MBPS q + s.get .EGR_CNP_CFG_INC) s.portRate))
  else .next s

/-! ### Queue pairs -/

/-- The destination check of `EN` (R262). -/
def State.qpDestOk (s : State) (q : Nat) : Bool :=
  let p := s.get .EGR_QP_CFG_PORT q
  let mac := s.get .EGR_QP_MAC q
  let own6 := s.get .EGR_PORT_IP0_IP p != 0 || s.get .EGR_PORT_IP1_IP p != 0 || s.get .EGR_PORT_IP2_IP p != 0
  let d := s.get .EGR_QP_DEST_QPN_DEST q
  decide (p < s.portCount) && decide (s.get .EGR_QP_CFG_MTU q ≤ 2) && mac != 0 && !(mac.testBit 40) &&
    (s.qpIpv6 q || s.get .EGR_QP_IP3_IP q != 0) && s.qpIpv6 q == own6 &&
    (if s.on .EGR_QP_CFG_MODE q then decide (0 < d / 65536) else decide (2 ≤ d % 2 ^ 24))

/-- What `EN` answers (R262). -/
def State.qpEnableCheck (s : State) (q : Nat) : Status :=
  if 256 ≤ q then .range else if s.get .EGR_QP_STATUS_STATE q ≠ 0 then .state
  else if s.qpDestOk q then .ok else .range

/-- A queue pair enters RTS: PSN, full rate, no retries. -/
def effQpEnable (q : Nat) (src : Src) (s : State) : State :=
  if s.qpEnableCheck q ≠ .ok then s.answer src 0 (s.qpEnableCheck q)
  else
    let s := ((s.set .EGR_QP_STATUS_STATE q 1).set .EGR_QP_H_PSN q (s.get .EGR_QP_PSN_PSN_INIT q)).set .EGR_QP_RATE_RC_MBPS q s.portRate
    [Fld.EGR_QP_H_RETRY, .EGR_QP_H_RNR, .EGR_QP_H_RNRWAIT, .EGR_QP_H_CNPV, .EGR_QP_H_DGRAM].foldl (fun s f => s.set f q 0)
      { s with egr := { s.egr with sends := s.egr.sends.filter fun e => e.1 != q } }

/-- `EGR_QP_CFG.EN` (R262). -/
def execQpEnable (q : Nat) (src : Src) (s : State) : Res :=
  if s.gate src .installer 13 ≠ .ok then .next (s.answer src 0 (s.gate src .installer 13))
  else if s.qpEnableCheck q ≠ .ok then .next (s.answer src 0 (s.qpEnableCheck q))
  else .next (s.recorded src 0 (.qpEnable q src) (s.writeRec src (0x420000 + 0x80 * q) 1) (effQpEnable q src))

/-- A queue pair returns to RESET (R262, R264). -/
def effQpReset (q : Nat) (s : State) : State := ((s.set .EGR_QP_STATUS_STATE q 0).qpStop q 6).brgQpReset q

/-- `EGR_QP_CFG.RESET` (R264). -/
def execQpReset (q : Nat) (src : Src) (s : State) : Res :=
  if s.gate src .installer 13 ≠ .ok then .next (s.answer src 0 (s.gate src .installer 13))
  else if 256 ≤ q then .next (s.answer src 0 .range)
  else .next (s.recorded src 0 (.qpReset q src) (s.writeRec src (0x420000 + 0x80 * q) 2) (effQpReset q))

/-! ### Ports -/

/-- An egress port's link goes down (R262, R278): its queue pairs' timers stop. -/
def execEgressLinkDown (p : Nat) (s : State) : Res :=
  if s.on .EGR_PORT_STATUS_LINK p then
    let s := (s.set .EGR_PORT_STATUS_LINK p 0).set .EGR_PORT_STATUS_ALIGN p 0
    .next (s.sticky .EGR_PORT_STATUS_LINK_DOWN p 0 .EGR_EVENT_EN_PORT 0 0 0x0040 p 0x0001 0)
  else .next s

/-- It comes up: queue pairs resend from their oldest unacknowledged PSN (R262). -/
def execEgressLinkUp (p : Nat) (s : State) : Res :=
  if s.portCount ≤ p then .next s
  else
    let s := (s.set .EGR_PORT_STATUS_LINK p 1).set .EGR_PORT_STATUS_ALIGN p 1
    .next ((s.portQps p).foldl (fun s q => match s.oldest q with | some psn => s.qpResend q psn | none => s) s)

/-- A PAUSE frame, or a PFC frame for priority `prio`, stops the port for `ns` when honoured (R253). -/
def execPauseFrameReceived (p : Nat) (pfc : Bool) (prio ns : Nat) (s : State) : Res :=
  let honour := if pfc then s.on .EGR_PORT_CFG_PFC_EN p && prio == s.get .EGR_PORT_CFG_PFC_PRIO p else s.on .EGR_PORT_CFG_PAUSE_EN p
  if honour then .next ((s.inc .EGR_PORT_CNT_PAUSE p).set .EGR_PORT_H_PAUSE p (s.elapsed + ns)) else .next s

/-- A received frame that R253 or R261 discards is counted. -/
def execRxFrameDiscard (p : Nat) (s : State) : Res := .next (s.inc .EGR_PORT_CNT_RXBAD p)

/-! ### Rings -/

/-- A consumer index comes back (R258): a value that would make P − C negative or greater than SLOTS is ignored. -/
def State.consReturn (s : State) (st c : Nat) : State :=
  if (s.get .EGR_STR_PROD_P st + 2 ^ 32 - c % 2 ^ 32) % 2 ^ 32 ≤ s.get .EGR_STR_SLOTS st then s.set .EGR_STR_CONS_C st c
  else s.strEvent st 2 0 0

/-- A write of `EGR_STR_CONS`, by any session (R258). -/
def execStrConsWrite (st c : Nat) (src : Src) (s : State) : Res :=
  if st = 0 || 256 ≤ st then .next (s.answer src 0 .range)
  else if s.gate src .operator 13 ≠ .ok then .next (s.answer src 0 (s.gate src .operator 13))
  else .next ((s.consReturn st c).answer src 0 .ok)

/-! ### Logs and settings -/

/-- `EGR_DROP_POP` removes the head drop record; ignored while empty (R273). -/
def execEgrDropPop (src : Src) (s : State) : Res :=
  if s.gate src .operator 13 ≠ .ok then .next (s.answer src 0 (s.gate src .operator 13))
  else .next (({ s with egr := { s.egr with drops := s.egr.drops.drop 1 } } : State).answer src 0 .ok)

/-- `EGR_LATE_POP` removes the head late-error entry (R265); `LATE_ERR` is clear once the log is empty. -/
def execEgrLatePop (src : Src) (s : State) : Res :=
  if s.gate src .operator 13 ≠ .ok then .next (s.answer src 0 (s.gate src .operator 13))
  else
    let s : State := { s with egr := { s.egr with late := s.egr.late.drop 1 } }
    .next ((if s.egr.late.isEmpty then s.set .EGR_H_LATE_ERR 0 0 else s).answer src 0 .ok)

/-- `DELAY_FLAG_US` of the class that `SEL` names takes a value (R272). -/
def effClassDelaySet (p sel v : Nat) (s : State) : State :=
  let s := s.set .EGR_CLASS_DELAY_SEL p sel
  if sel = 1 then s.set .EGR_CLASS_H_DELAY_A p v else s.set .EGR_CLASS_H_DELAY_B p v

/-- A write of `EGR_CLASS_DELAY` with `SET` 1 (R272). -/
def execClassDelaySet (p sel v : Nat) (src : Src) (s : State) : Res :=
  if s.gate src .installer 13 ≠ .ok then .next (s.answer src 0 (s.gate src .installer 13))
  else if s.portCount ≤ p then .next (s.answer src 0 .range)
  else .next (s.recorded src 0 (.classDelaySet p sel v src)
    (s.writeRec src (0x40003C + 0x400 * p) (v % 2 ^ 24 + 2 ^ 30 + sel % 2 * 2 ^ 31)) (effClassDelaySet p sel v))

/-! ### Fence, reset and counters -/

/-- `EGR_CTRL.FENCE` takes 1 (R277). -/
def effEgrFence (s : State) : State :=
  (List.range 256).foldl (fun s q => if s.on .EGR_QP_CFG_CTRL q && s.get .EGR_QP_STATUS_STATE q == 1 then effQpReset q s
    else s) (s.set .EGR_CTRL_FENCE 0 1)

/-- `EGR_CTRL.FENCE` written 1: new deliveries are refused with FENCED (R277). -/
def execEgrFence (src : Src) (s : State) : Res :=
  if s.gate src .installer 13 ≠ .ok then .next (s.answer src 0 (s.gate src .installer 13))
  else .next (s.recorded src 0 (.egrFence src) (s.writeRec src 0x430000 1) effEgrFence)

/-- Queued deliveries have completed: FENCED reads 1 (R277). -/
def execEgrFenceDone (s : State) : Res :=
  if s.on .EGR_CTRL_FENCE && s.egr.queue.isEmpty then .next (s.set .EGR_CTRL_FENCED 0 1) else .next s

/-- Every queue pair enters RESET with late errors, and queued deliveries are refused (R277). -/
def effEgrReset (s : State) : State :=
  let s := (List.range 256).foldl (fun s q => if s.get .EGR_QP_STATUS_STATE q = 0 then s
    else ((s.set .EGR_QP_STATUS_STATE q 0).qpStop q 7).brgQpReset q) s
  s.blockReset 13

/-- `EGR_CTRL.RESET` (R277). -/
def execEgrReset (src : Src) (s : State) : Res :=
  if s.gate src .installer 13 ≠ .ok then .next (s.answer src 0 (s.gate src .installer 13))
  else .next (s.recorded src 0 (.egrReset src) (s.writeRec src 0x430000 2) effEgrReset)

/-- `CLR_CNT` clears the egress counters (R515). -/
def State.egrClrCnt (s : State) : State :=
  let s := (List.range 8).foldl (fun s p => [Fld.EGR_PORT_CNT_TX, .EGR_PORT_CNT_RXBAD, .EGR_PORT_CNT_PAUSE,
    .EGR_PORT_CNT_CE].foldl (fun s f => s.set f p 0) s) s
  (List.range 256).foldl (fun s i => [Fld.EGR_STR_CNT_DELIV, .EGR_STR_CNT_DROP, .EGR_QP_CNT_RETX,
    .EGR_QP_CNT_CNP].foldl (fun s f => s.set f i 0) s) s

/-- The command form of `CLR_CNT`. -/
def execEgrClrCnt (src : Src) (s : State) : Res :=
  if s.gate src .operator 13 ≠ .ok then .next (s.answer src 0 (s.gate src .operator 13))
  else .next (s.egrClrCnt.answer src 0 .ok)

end Sys2Proof.Machine
end

