-- ==== Sys2Proof/Machine/StoOps.lean ====
section
/-! DEFINITION. Shared operations of storage (13_storage_job_library.md): NAND blocks, hampers and their checks, and the
evidence recorder. -/

namespace Sys2Proof.Machine

/-- Sticky bit `k` of `STO_EVENTS` with its event (R345). -/
def State.stoEvent (s : State) (k inst arg lun : Nat) : State :=
  s.sticky .STO_EVENTS_EV 0 k .STO_EVENT_EN 0 k 0x0054 inst (k + 1) (argAt 16 (arg % 2 ^ 32) + argAt 20 lun)

/-- RTC seconds. -/
def State.rtc (s : State) : Nat := s.get .PWR_RTC_SEC

/-! ### Blocks -/

/-- Bytes of a segment (R320). -/
def segBytes : Nat := 64 * 2 ^ 20

/-- Blocks of the device: one for each 64 MiB of raw capacity. -/
def State.blockCount (s : State) : Nat := s.get .STO_GEOM_RAW_GIB * 16

/-- Replace a block's record. -/
def State.putBlk (s : State) (b : NandBlk) : State :=
  { s with sto := { s.sto with blocks := s.sto.blocks.filter (fun x => x.id != b.id) ++ [b] } }

/-- The block record with number `i`; one not listed is free and has never been erased. -/
def State.blk (s : State) (i : Nat) : NandBlk :=
  match s.sto.blocks.find? fun b => b.id == i with
  | some b => b
  | none => ⟨i, 0, 0, 0, 0, 0, false⟩

/-- The first block number that no record names, among the `n` first. -/
def State.unusedBlk (s : State) : Nat → Option Nat
  | 0 => none
  | n + 1 => match s.unusedBlk n with
    | some i => some i
    | none => if s.sto.blocks.any (fun b => b.id == n) then none else some n

/-- The free block of lowest erase count (R324). -/
def State.freeBlk (s : State) : Option NandBlk :=
  match s.unusedBlk (min s.blockCount (s.sto.blocks.length + 1)) with
  | some i => some (s.blk i)
  | none =>
    let free := s.sto.blocks.filter fun b => b.region == 0 && !b.retired
    match free with
    | [] => none
    | b :: r => some (r.foldl (fun m x => if x.erases < m.erases then x else m) b)

/-- Mean erase count as a percentage of the endurance (R325), at most 255. -/
def State.lifePct (s : State) : Nat :=
  let sum := s.sto.blocks.foldl (fun n b => n + b.erases) 0
  let d := s.blockCount * s.get .STO_WEAR_RATED
  if d = 0 then 0 else min 255 (sum * 100 / d)

/-- The thresholds of R325 are reported as the mean reaches them. -/
def State.wearCheck (s : State) : State :=
  let v := s.lifePct
  let s := if 80 ≤ v && !s.bit .STO_H_WEARBITS 0 0 then (s.setBit .STO_H_WEARBITS 0 0).stoEvent 3 0xFFFF 0 0xFF else s
  if 95 ≤ v && !s.bit .STO_H_WEARBITS 0 1 then (s.setBit .STO_H_WEARBITS 0 1).stoEvent 4 0xFFFF 0 0xFF else s

/-- A new block takes segment `seg` of a region (R322, R324). -/
def State.takeBlk (s : State) (region seg : Nat) : Option State :=
  s.freeBlk.map fun b => s.putBlk { b with region := region, seg := seg, stamp := s.rtc, step := 0 }

/-- A block is erased and free again. -/
def State.freeBlkId (s : State) (i : Nat) : State :=
  let b := s.blk i
  (s.putBlk { b with region := 0, seg := 0, erases := b.erases + 1, step := 0 }).wearCheck

/-- The block that holds segment `seg` of a region. -/
def State.blkOf (s : State) (region seg : Nat) : Option NandBlk :=
  s.sto.blocks.find? fun b => b.region == region && b.seg == seg && !b.retired

/-- The block of a segment is erased. -/
def State.freeSeg (s : State) (region seg : Nat) : State :=
  match s.blkOf region seg with
  | some b => s.freeBlkId b.id
  | none => s

/-- A block is retired (R326): the spare pool shrinks; below a quarter SPARE_LOW, empty read-only. -/
def State.retire (s : State) (i ch lun : Nat) : State :=
  let b := s.blk i
  let s := s.putBlk { b with region := 0, seg := 0, retired := true }
  let s := (s.inc .STO_CNT_RETIRED).stoEvent 2 ch 0 lun
  let s := s.set .STO_H_SPARE 0 (s.get .STO_H_SPARE - 1)
  let s := if s.get .STO_H_SPARE * 4 < s.get .STO_H_SPARE0 then s.stoEvent 5 0xFFFF 0 0xFF else s
  if s.get .STO_H_SPARE = 0 then s.set .STO_H_READONLY 0 1 else s

/-- The valid data of a block moves to a fresh block (R322, R324); where none is free it stays. -/
def State.relocate (s : State) (i : Nat) : State :=
  let b := s.blk i
  match s.takeBlk b.region b.seg with
  | none => s
  | some t => (t.inc .STO_CNT_RELOC).freeBlkId i

/-- The counters of a pass of reads (R318). -/
def State.readCount (s : State) (r : NandRead) : State :=
  let s := s.add .STO_CH_CNT_CORR r.ch r.corrected
  let s := if 0 < r.step then s.inc .STO_CH_CNT_RETRY r.ch else s
  let s := if 0 < r.step && r.step = s.get .STO_H_RETRY + 1 then s.inc .STO_CH_CNT_SOFT r.ch else s
  if r.uncorrectable then (s.inc .STO_CH_CNT_UNCORR r.ch).stoEvent 1 r.ch 0 r.lun else s

/-- A hamper is marked damaged (R319). -/
def State.damage (s : State) (p : Hamper → Bool) : State :=
  let f (s : State) (h : Hamper) : State :=
    ({ s with sto := { s.sto with hampers := s.sto.hampers.map fun x =>
        if x.num == h.num then { x with damaged := true } else x } } : State).stoEvent 10 0xFFFF h.num 0xFF
  (s.sto.hampers.filter fun h => p h && !h.damaged).foldl f s

/-- Data of a segment is lost to an uncorrectable codeword (R319): the library's hampers that use it are damaged, the
recorder's entries in it are lost. -/
def State.segLost (s : State) (region seg : Nat) : State :=
  if region = 4 then
    s.damage fun h => h.segs.contains seg || s.sto.refs.any fun r => r.digest == h.digest && r.segs.contains seg
  else { s with sto := { s.sto with entries := s.sto.entries.filter fun e => e.seg != seg } }

/-! ### Capacity -/

/-- Segments the library may occupy (R321). -/
def State.libSegs (s : State) : Nat :=
  (s.get .STO_SPACE_USABLE_GIB - 2 - s.get .STO_SPACE_REC_GIB_NOW) * 16

/-- Segments the library occupies. -/
def State.libUsed (s : State) : Nat :=
  let n := s.sto.hampers.foldl (fun n h => n + h.segs.length) 0
  s.sto.refs.foldl (fun n r => n + r.segs.length) n

/-- Take blocks for `n` new library segments; the segment numbers are the lowest that no block of the library names. -/
def State.takeLib (s : State) : Nat → Option (State × List Nat)
  | 0 => some (s, [])
  | n + 1 =>
    match s.takeLib n with
    | none => none
    | some (t, l) =>
      let seg := t.get .STO_H_LIBSEG
      match (t.bump .STO_H_LIBSEG 0 1).takeBlk 4 seg with
      | none => none
      | some t' => some (t', l ++ [seg])

/-! ### Hampers -/

/-- A row of a hamper's section table (R328). -/
structure Section where
  type : Nat
  inst : Nat
  byDigest : Bool
  off : Nat
  len : Nat
  digest : List Nat
  deriving DecidableEq, Repr

/-- Number of sections. -/
def hamperN (h : List Nat) : Nat := leAt h 14 2

/-- The section table. -/
def sectionsOf (h : List Nat) : List Section :=
  (List.range (hamperN h)).map fun i =>
    let e := (h.drop (128 + 64 * i)).take 64
    ⟨leAt e 0 2, leAt e 2 2, (leAt e 4 4).testBit 0, leAt e 8 8, leAt e 16 8, (e.drop 24).take 32⟩

/-- The bytes of a section. -/
def sectionData (h : List Nat) (q : Section) : List Nat := (h.drop q.off).take q.len

/-- The section of a type and instance. -/
def sectionOf (h : List Nat) (type inst : Nat) : Option Section :=
  (sectionsOf h).find? fun q => q.type == type && q.inst == inst

/-- The length the format gives a section type, where it gives one (R329). -/
def sectionLen : Nat → Option Nat
  | 1 => some 1040 | 2 => some 32768 | 3 => some 16 | 4 => some 16 | 5 => some 8192 | 6 => some 2048 | _ => none

/-- Digest of a section (R330): SHA-256 over the digests of its chunks of 16 MiB. -/
def chunkDigests (l : List Nat) : Nat → List Nat
  | 0 => []
  | n + 1 => if l.isEmpty then [] else Config.sha256 (l.take (2 ^ 24)) ++ chunkDigests (l.drop (2 ^ 24)) n

/-- Digest of a section's bytes. -/
def sectionDigest (l : List Nat) : List Nat := Config.sha256 (chunkDigests l (ceilDiv l.length (2 ^ 24)))

/-- Two sections do not overlap. -/
def apart (a b : Section) : Bool := a.off + a.len ≤ b.off || b.off + b.len ≤ a.off

/-- Every two of a list of sections keep apart. -/
def allApart : List Section → Bool
  | [] => true
  | a :: r => r.all (apart a) && allApart r

/-- Step 1 of R332: magic, lengths, sections inside the hamper, aligned and apart, and the signature block. -/
def hamperStep1 (h : List Nat) : Bool :=
  let n := hamperN h
  let q := sectionsOf h
  let sigAt := 128 + 64 * n
  h.take 4 == [0x46, 0x5A, 0x48, 0x50] && decide (3 ≤ n) && decide (n ≤ 512) && leAt h 16 8 == h.length &&
  decide (sigAt + 8256 ≤ h.length) &&
  (q.all fun x => x.off % 64 == 0 && decide (sigAt + 8256 ≤ x.off) && decide (x.off + x.len ≤ h.length) &&
    (match sectionLen x.type with | some l => x.len == l | none => true) && (!x.byDigest || x.len == 0)) &&
  allApart q && (h.drop sigAt).take 4 == [0x46, 0x5A, 0x53, 0x47] && leAt h (sigAt + 4) 2 == 384 &&
  leAt h (sigAt + 6) 2 == 7856

/-- Step 2 of R332 with what each major admits (R329). -/
def hamperStep2 (h : List Nat) : Bool :=
  let major := h.getD 4 0
  let q := sectionsOf h
  let plain (x : Section) : Bool :=
    match x.type with
    | 6 => (sectionData h x).getD 3 0 == 0
    | 7 => !((sectionData h x).getD 4 0).testBit 0
    | _ => true
  decide (1 ≤ major) && decide (major ≤ 3) && h.getD 7 0 == 0 && (q.all fun x => decide (1 ≤ x.type) && decide (x.type ≤ 7)) &&
  (q.all fun x => !x.byDigest || (major == 3 && x.type == 7)) && (major != 1 || q.all plain)

/-- The role a hamper's header names (R328). -/
def hamperRole (h : List Nat) : Role :=
  match h.getD 12 0 with | 0 => .operator | 1 => .installer | 2 => .maker | _ => .none

/-- The number of a hamper. -/
def hamperNum (h : List Nat) : Nat := leAt h 10 2

/-- Step 6 of R332: the job ID, one type 1 and one type 7, no pair twice, the job ID of every bank, a bank for every enabled
channel, and the reference named by digest. -/
def State.hamperStep6 (s : State) (h : List Nat) : Bool :=
  let q := sectionsOf h
  let job := leAt h 8 2
  let count (t : Nat) : Nat := (q.filter fun x => x.type == t).length
  let pairs := q.map fun x => (x.type, x.inst)
  let limit (t : Nat) : Nat := if t = 5 || t = 6 then 8 else if t = 1 || t = 7 then 1 else 128
  job != 0 && count 1 == 1 && count 7 == 1 && pairs.eraseDups.length == pairs.length && decide (hamperNum h < 4096) &&
  (q.all fun x => decide (x.inst < limit x.type)) &&
  (q.all fun x => (x.type != 2 && x.type != 5 && x.type != 6) || leAt (sectionData h x) 0 2 == job) &&
  (q.all fun x => x.type != 3 || !((sectionData h x).getD 0 0).testBit 0 || q.any fun y => y.type == 2 && y.inst == x.inst) &&
  (q.all fun x => !x.byDigest || s.sto.refs.any fun r => r.digest == x.digest)

/-- Step 7 of R332: every section digest of the data at hand. -/
def hamperStep7 (h : List Nat) : Bool :=
  (sectionsOf h).all fun x => x.byDigest || sectionDigest (sectionData h x) == x.digest

/-- The checks of R332 on a whole image; `rights` stands for the session's rights under R335. The step and status of the
first failure. -/
def State.hamperCheck (s : State) (h : List Nat) (sigs : Sigs) (rights : Bool) : Option (Nat × Status) :=
  if !hamperStep1 h then some (1, .integrity)
  else if !hamperStep2 h then some (2, .version)
  else if !(s.sec.keys.contains (hamperRole h, h.getD 13 0)) || !rights then some (3, .rights)
  else if !sigs.rsa then some (4, .integrity)
  else if !sigs.slh then some (5, .integrity)
  else if !s.hamperStep6 h then some (6, .range)
  else if !hamperStep7 h then some (7, .integrity)
  else none

/-- The result of a check is recorded (R332). -/
def State.libResult (s : State) (r : Option (Nat × Status)) (num : Nat) : State :=
  let v := r.getD (0, .ok)
  ((s.set .STO_LIB_RESULT_STATUS 0 (statusCode v.2)).set .STO_LIB_RESULT_STEP 0 v.1).set .STO_LIB_RESULT_NUMBER 0 num

/-- A stored hamper. -/
def State.hamper? (s : State) (num : Nat) : Option Hamper := s.sto.hampers.find? fun h => h.num == num

/-- The reference object of a digest. -/
def State.refObj? (s : State) (d : List Nat) : Option RefObj := s.sto.refs.find? fun r => r.digest == d

/-- The full image of a stored hamper: with its reference's data where it was uploaded with it, else in the by-digest form
(R334). -/
def State.fullImage (s : State) (h : Hamper) : List Nat :=
  if h.image.length = h.length then h.image
  else
    let data := ((s.refObj? h.digest).map (·.bytes)).getD []
    h.image.take h.refAt ++ data ++ h.image.drop h.refAt

/-- The checks of a stored hamper with the stored reference behind a by-digest section (R332). -/
def State.storedCheck (s : State) (h : Hamper) (sigs : Sigs) : Option (Nat × Status) :=
  match s.hamperCheck (s.fullImage h) sigs true with
  | some r => some r
  | none => match s.refObj? h.digest with
    | some o => if sectionDigest o.bytes == h.digest then none else some (7, .integrity)
    | none => some (6, .range)

/-- A hamper is CURRENT's or NEXT's. -/
def State.hamperInUse (s : State) (num : Nat) : Bool :=
  (s.get .JOB_STATUS_CUR_STATE == 1 && s.get .JOB_HAMPERS_CUR_HAMPER == num) ||
  (s.get .JOB_STATUS_NEXT_STATE != 0 && !s.on .JOB_STATUS_NEXT_STOP && s.get .JOB_HAMPERS_NEXT_HAMPER == num)

/-! ### Evidence recorder -/

/-- Length of an entry (R338): a multiple of 32. -/
def RecEntry.len (e : RecEntry) : Nat := 32 * ceilDiv (96 + e.patch.length) 32

/-- The bytes of an entry (R338). -/
def RecEntry.bytes (e : RecEntry) : List Nat :=
  let pad (n : Nat) (l : List Nat) : List Nat := (l ++ List.replicate n 0).take n
  let head := leBytes 4 e.len ++ leBytes 8 e.seq ++ leBytes 8 e.time ++ leBytes 2 e.job ++ [e.k, e.flags]
  let cand := if e.flags.testBit 2 then leBytes 4 e.missed else e.cand
  let tail := [0, 0, 0, 0] ++ pad 32 e.tag ++ pad 32 cand ++ pad (e.len - 96) e.patch
  head ++ leBytes 4 (Config.crc32 (head ++ [0, 0, 0, 0] ++ tail)) ++ tail

/-- Bytes in staging (R337). -/
def State.stagedBytes (s : State) : Nat := s.sto.staged.foldl (fun n e => n + e.len) 0

/-- An entry goes to staging with the next sequence number. -/
def State.stage (s : State) (e : RecEntry) : State :=
  let s := s.bump .STO_H_SEQ 0 1
  { s with sto := { s.sto with staged := s.sto.staged ++ [{ e with seq := s.get .STO_H_SEQ, time := s.now }] } }

/-- The gap entry that closes a run of `n` missed copies (R337). -/
def gapEntry (n : Nat) : RecEntry := ⟨0, 0, 0, 0, 4, [], [], [], n, 0⟩

/-- A run of missed copies is closed. -/
def State.closeRun (s : State) : State :=
  let n := s.get .STO_H_MISSRUN
  if n = 0 then s else (s.set .STO_H_MISSRUN 0 0).stage (gapEntry n)

/-- `n` copies are missed (R337). -/
def State.missCopies (s : State) (n : Nat) : State :=
  if n = 0 then s
  else ((s.add .STO_CNT_REC_MISSED 0 n).add .STO_H_MISSRUN 0 n).stoEvent 8 0xFFFF (s.get .STO_H_SEQ) 0xFF

/-- A recorder copy of a candidate, with its patch unless that is empty (R337): staged while there is room, else missed;
missed too while the controller is fenced, in reset, under test or read-only (R343). -/
def State.recorderCopy (s : State) (k job : Nat) (tag cand patch : List Nat) : State :=
  let e : RecEntry := ⟨0, 0, job, k, if patch.isEmpty then 0 else 2, tag, cand, patch, 0, 0⟩
  let gap := if s.get .STO_H_MISSRUN = 0 then 0 else 96
  let off := s.on .STO_CTRL_FENCE || s.unitDown 17 || s.inTest 17 || s.on .STO_H_READONLY
  if off || 16 * 2 ^ 20 < s.stagedBytes + gap + e.len then s.missCopies 1
  else s.closeRun.stage e

/-- Segments of the ring. -/
def State.ringSize (s : State) : Nat := s.get .STO_SPACE_REC_GIB_NOW * 16

/-- A segment holds a kept entry. -/
def State.segKept (s : State) (seg : Nat) : Bool := s.sto.entries.any fun e => e.seg == seg && e.flags.testBit 0

/-- Kept segments. -/
def State.keptSegs (s : State) : Nat := (s.sto.ring.filter s.segKept).length

/-- One more kept segment is within `KEEP_MAX_PCT` (R339). -/
def State.keepFits (s : State) (n : Nat) : Bool := decide (n * 100 ≤ s.get .STO_CFG1_KEEP_MAX_PCT * s.ringSize)

/-- The entries of a segment are erased and its block freed (R339). -/
def State.dropSeg (s : State) (seg : Nat) : State :=
  ({ s with sto := { s.sto with
      entries := s.sto.entries.filter fun e => e.seg != seg,
      ring := s.sto.ring.filter (· != seg) } } : State).freeSeg 5 seg

/-- The oldest segment that holds no kept entry, the open one apart. -/
def State.oldestFree (s : State) : Option Nat := (s.sto.ring.dropLast).find? fun g => !s.segKept g

/-- A next segment is opened (R339): a new one while the ring has room, else the oldest unkept one is taken. -/
def State.openSeg (s : State) : Option State :=
  let s' := if s.sto.ring.length < s.ringSize then some s
    else match s.sto.ring.find? fun g => !s.segKept g with
      | some g => some (s.dropSeg g)
      | none => none
  match s' with
  | none => none
  | some t =>
    if t.ringSize ≤ t.sto.ring.length then none
    else
      let g := t.get .STO_H_SEGOPEN + 1
      let t := ((t.set .STO_H_SEGOPEN 0 g).set .STO_H_SEGFILL 0 0)
      (t.takeBlk 5 g).map fun u => { u with sto := { u.sto with ring := u.sto.ring ++ [g] } }

/-- An entry programmed into the open segment; a candidate with enough pixels is kept unless the limit forbids it
(R339). -/
def State.putEntry (s : State) (e : RecEntry) : State :=
  let g := s.get .STO_H_SEGOPEN
  let want := !e.flags.testBit 2 && s.get .STO_CFG2_AUTO_KEEP_PIX != 0 &&
    decide (s.get .STO_CFG2_AUTO_KEEP_PIX ≤ leAt e.cand 12 2)
  let fits := s.segKept g || s.keepFits (s.keptSegs + 1)
  let flags := if want && fits then e.flags ||| 9 else e.flags
  let s : State := { s with sto := { s.sto with entries := s.sto.entries ++ [{ e with flags := flags, seg := g }] } }
  let s := s.add .STO_H_SEGFILL 0 e.len
  if want && !fits then (s.inc .STO_CNT_AUTOKEEP_SKIP).stoEvent 9 0xFFFF e.seq 0xFF else s

/-- Staged entries go into the ring (R338, R339), a new segment opened where one does not fit; they stay staged where none
can be. -/
def State.programStaged (s : State) : Nat → State
  | 0 => s
  | fuel + 1 =>
    match s.sto.staged with
    | [] => s
    | e :: r =>
      let room := !s.sto.ring.isEmpty && decide (s.get .STO_H_SEGFILL + e.len ≤ segBytes) && s.on .STO_H_SEGLIVE
      if room then
        (({ s with sto := { s.sto with staged := r } } : State).putEntry e).programStaged fuel
      else match s.openSeg with
        | none => s
        | some t =>
          ((({ t with sto := { t.sto with staged := r } } : State).set .STO_H_SEGLIVE 0 1).putEntry e).programStaged fuel

/-- The open segment is padded and closed (R327). -/
def State.closeSeg (s : State) : State := s.set .STO_H_SEGLIVE 0 0

/-- A setting kept in NAND takes a value (R327, 21_register_map.md R517). -/
def State.keepSetting (s : State) (addr v : Nat) : State :=
  { s with sto := { s.sto with settings := tabPut s.sto.settings addr v } }

end Sys2Proof.Machine
end

