-- ==== Sys2Proof/Machine/Tsl.lean ====
section
/-! DEFINITION. The Teasel codec as a block (09_teasel_codec.md): NEAR profiles, products, the decoder's requests, fence
and reset. -/

namespace Sys2Proof.Machine

/-! ### Profiles (R244 to R246) -/

/-- NEAR of step `j` and threshold `j` (1 to 7) in a profile's values. -/
def profNear (v j : Nat) : Nat := bits v (4 * j) 4
def profThr (v j : Nat) : Nat := bits v (8 * (j - 1)) 8

/-- The step a fill calls for (R244). -/
def profStep (thr f : Nat) : Nat := ([7, 6, 5, 4, 3, 2, 1].find? fun j => decide (profThr thr j ≤ f)).getD 0

/-- A pending commit takes effect (R245). -/
def State.profApply (s : State) (p : Nat) : State :=
  if s.on .TSL_PROF_STATUS_PENDING p then
    (((s.set .TSL_PROF_H_NEAR p (s.get .TSL_PROF_P_NEAR p)).set .TSL_PROF_H_THR p (s.get .TSL_PROF_P_THR p)).set
      .TSL_PROF_H_CTRL p (s.get .TSL_PROF_P_CTRL p)).set .TSL_PROF_STATUS_PENDING p 0
  else s

/-- The ladder at a product start with fill `f` (R244): a rise is taken at once and counted, a fall after `HOLD_TILES`
quiet products; step 7 sets `TOP_STEP`. -/
def State.ladder (s : State) (p f : Nat) : State :=
  let ctrl := s.get .TSL_PROF_H_CTRL p
  let step := s.get .TSL_PROF_STATUS_STEP p
  let t := profStep (s.get .TSL_PROF_H_THR p) f
  let hold := max 1 (ctrl / 65536)
  if !ctrl.testBit 2 then s.set .TSL_PROF_STATUS_STEP p 0
  else if step < t then
    let s := (((s.set .TSL_PROF_STATUS_STEP p t).set .TSL_PROF_H_QUIET p 0).inc .TSL_PROF_STATUS_UPS p)
    if t = 7 then s.sticky .TSL_EVENTS_EV 0 1 .TSL_EVENT_EN 0 1 0x0038 p 0x0002 (argAt 16 p + argAt 17 f) else s
  else if t < step then
    let q := s.get .TSL_PROF_H_QUIET p + 1
    if hold ≤ q then (s.set .TSL_PROF_STATUS_STEP p (step - 1)).set .TSL_PROF_H_QUIET p 0 else s.set .TSL_PROF_H_QUIET p q
  else s.set .TSL_PROF_H_QUIET p 0

/-- NEAR of the profile's present step under the cap. -/
def State.profValue (s : State) (p : Nat) : Nat :=
  min (profNear (s.get .TSL_PROF_H_NEAR p) (s.get .TSL_PROF_STATUS_STEP p)) (s.get .TSL_LIMITS_NEAR_CAP)

/-- The checks of `COMMIT` on the staged values (R245). -/
def State.profOk (s : State) (p : Nat) : Bool :=
  let n := s.get .TSL_PROF_NEAR p
  let t := s.get .TSL_PROF_THR_LO_THR p + 2 ^ 32 * s.get .TSL_PROF_THR_HI_THR p
  s.get .TSL_PROF_CTRL_CLASS p != 3 &&
    (List.range 7).all (fun j => decide (profNear n j ≤ profNear n (j + 1))) &&
    (List.range 8).all (fun j => decide (profNear n j ≤ s.get .TSL_LIMITS_NEAR_CAP)) &&
    [1, 2, 3, 4, 5, 6].all (fun j => decide (profThr t j ≤ profThr t (j + 1))) &&
    [1, 2, 3, 4, 5, 6, 7].all fun j => decide (1 ≤ profThr t j) && decide (profThr t j ≤ 64)

/-- Staged values become pending, in place of values already pending (R245). -/
def effProfCommit (k : Nat) (src : Src) (s : State) : State :=
  if !s.profOk k then s.answer src 0 .range
  else
    let ctrl := s.get .TSL_PROF_CTRL_CLASS k + 4 * s.get .TSL_PROF_CTRL_ESC_EN k + 65536 * s.get .TSL_PROF_CTRL_HOLD_TILES k
    (((s.set .TSL_PROF_P_NEAR k (s.get .TSL_PROF_NEAR k)).set .TSL_PROF_P_THR k
      (s.get .TSL_PROF_THR_LO_THR k + 2 ^ 32 * s.get .TSL_PROF_THR_HI_THR k)).set .TSL_PROF_P_CTRL k ctrl).set
      .TSL_PROF_STATUS_PENDING k 1

/-- `TSL_PROF_CTRL.COMMIT` (R245). -/
def execProfCommit (k : Nat) (src : Src) (s : State) : Res :=
  if 16 ≤ k then .next (s.answer src 0 .range)
  else if s.gate src .installer 12 ≠ .ok then .next (s.answer src 0 (s.gate src .installer 12))
  else if !s.profOk k then .next (s.answer src 0 .range)
  else .next (s.recorded src 0 (.profCommit k src) (s.auditRec src 2 1 (0x38000C + 0x20 * k) noValue noValue)
    (effProfCommit k src))

/-! ### Products (R226, R240, R244, R249) -/

/-- New products bypass the encoders (R249, R250): the block is fenced or under test. -/
def State.tslBypass (s : State) : Bool := s.on .TSL_CTRL_FENCE || s.inTest 12

/-- The largest size a coded product can take (R240). -/
def productLargest (kind n : Nat) : Nat :=
  if kind = 0 then 16 + 81968 + (if n = 3 then 2 * 20512 else 0)
  else 32 + (if n = 2 then 1 else 3) * 4632 + 4112 + (if n = 6 then 2 * 1040 else 0)

/-- A product starts, and with it the delivery that will bring it: a bypassed one is packed raw; a recorder copy takes `REC_NEAR` under the cap; any other runs its
stream's ladder and keeps the NEAR it finds to its last tile (R244, R246). -/
def State.startProduct (s : State) (q : Product) : State :=
  let id := s.get .TSL_H_PID + 1
  let n := q.planes.length
  let add := fun (s : State) (q : Product) =>
    let s : State := { s with products := s.products ++ [{ q with id := id }] }
    if q.copy then s
    else (s.set .TSL_H_PID 0 id).offer ⟨q.stream, q.kind, 0x100 + q.k, q.fseq, q.tag, [], true, 0, n, q.row, q.col, 0, 0,
      productLargest q.kind n, true, id⟩
  if s.tslBypass then add (s.inc .TSL_CNT_BYPASS) { q with near := 0, bypass := true }
  else if q.copy then add s { q with near := min (s.get .TSL_LIMITS_REC_NEAR) (s.get .TSL_LIMITS_NEAR_CAP) }
  else
    let p := s.get .EGR_STR_CFG_PROFILE q.stream
    let s := s.profApply p
    let s := s.ladder p (s.classFill (s.strPort q.stream) (s.get .TSL_PROF_H_CTRL p % 4))
    let near := s.profValue p
    add (s.set .TSL_PROF_STATUS_NEAR p near) { q with near := near }

/-- The tiles of a product, coded in order (R226, R240). -/
def Product.coded (q : Product) : List Coded :=
  q.planes.map fun p => encodeTile p.ty q.near p.comp q.bypass p.rows p.mask

/-- More lines of a residual product arrive (R247): its planes as far as they have come; a product that has come whole is
the last of the open ones. -/
def State.feedProduct (s : State) (q : Product) : State :=
  let same := fun (e : Product) => e.kind == 0 && e.k == q.k && e.fseq == q.fseq && e.row == q.row && e.col == q.col
  match s.products.find? same with
  | none => s
  | some e =>
    let e := { e with planes := q.planes, whole := q.whole, tag := q.tag }
    if q.whole then { s with products := (s.products.filter fun x => !same x) ++ [e] }
    else { s with products := s.products.map fun x => if same x then e else x }

/-- Tile states in use (R247): one for each plane of a residual product, and of the 512 reserved ones those that patches
and recorder copies fill. -/
def State.openStates (s : State) : Nat :=
  let n := fun (p : Product → Bool) => (s.products.filter fun q => !q.bypass && p q).foldl (fun n q => n + q.planes.length) 0
  n (fun q => q.kind == 0) + min 512 (n fun q => q.kind != 0)

/-- The offer or delivery of an open product. -/
def Offer.isProduct (o : Offer) (id : Nat) : Bool := o.open' && o.kind != 4 && o.id == id

/-- A product closes (R271): its bytes fill the delivery that was opened for it, which gives back the space it does not need;
where that was refused they are discarded. -/
def State.productClose (s : State) (q : Product) (near : Nat) (data : List Nat) : State :=
  let done := fun (o : Offer) => { o with near := near, tag := q.tag, open' := false }
  let s := match s.egr.queue.find? fun d => d.o.isProduct q.id with
    | some d =>
      (s.imageWrite d 0 data).onDelivery q.stream d.dseq fun d =>
        { d with o := done d.o, len := data.length, unit := data.length, ext := takeExt (data.length + 64) d.ext }
    | none => s
  let fill := fun (o : Offer) => if o.isProduct q.id then { done o with payload := data, largest := data.length } else o
  { s with egr := { s.egr with offers := s.egr.offers.map fill } }

/-- The last tile of open product `i`, the next of its stream, is coded: the product is handed to egress or, a copy, to the
recorder (R240, R337). -/
def execProductDone (i : Nat) (s : State) : Res :=
  match s.products[i]? with
  | none => .next s
  | some q =>
    if !q.whole || (s.products.take i).any (fun e => e.whole && e.stream == q.stream && e.copy == q.copy) then .next s
    else
      let tiles := q.coded
      let s : State := { s with products := s.products.take i ++ s.products.drop (i + 1) }
      let s := if q.bypass then s
        else (s.add .TSL_CNT_ENC 0 tiles.length).add .TSL_CNT_RAW 0 (tiles.filter (·.raw)).length
      let body := tiles.flatMap (·.bytes)
      if q.copy then .next (s.recorderCopy q.k q.tag.job q.tag.bytes q.head body)
      else
        let near := tiles.foldl (fun a t => max a t.near) 0
        .next (s.productClose q near (q.head ++ body)).eofCheck

/-! ### Fence, reset, counters -/

/-- `TSL_CTRL.FENCE` takes 1. -/
def effTslFence (s : State) : State := s.set .TSL_CTRL_FENCE 0 1

/-- `TSL_CTRL.FENCE` written 1 (R249). -/
def execTslFence (src : Src) (s : State) : Res :=
  if s.gate src .installer 12 ≠ .ok then .next (s.answer src 0 (s.gate src .installer 12))
  else .next (s.recorded src 0 (.tslFence src) (s.writeRec src 0x380400 1) effTslFence)

/-- Products already open have completed: FENCED reads 1 (R249). -/
def execTslFenceDone (s : State) : Res :=
  if s.on .TSL_CTRL_FENCE && !(s.products.any fun q => !q.bypass) then .next (s.set .TSL_CTRL_FENCED 0 1) else .next s

/-- An open product is lost (R249): a drop record for an egress product, which stands for the whole frame when nothing of
the frame has been handed on or lost on its stream before (R274). -/
def State.loseProduct (s : State) (q : Product) : State :=
  let s := s.inc .TSL_CNT_LOST
  if q.copy then s
  else
    let src := 0x100 + q.k
    let mine := fun (o : Offer) => o.stream == q.stream && o.source == src && o.fseq == q.fseq
    let dseq := match s.egr.queue.find? fun d => d.o.isProduct q.id with | some d => d.dseq | none => 0xFFFFFFFF
    let known := dseq != 0xFFFFFFFF || s.egr.offers.any fun o => o.isProduct q.id
    let s : State := { s with egr := { s.egr with
      queue := s.egr.queue.filter fun d => !d.o.isProduct q.id
      offers := s.egr.offers.filter fun o => !o.isProduct q.id } }
    let whole := (match s.strFrame q.stream src q.fseq with | some f => f.taken == 0 && f.refused == 0 | none => true) &&
      !(s.egr.offers.any fun o => mine o && !o.open') && !(s.egr.queue.any fun d => mine d.o && !d.o.open')
    let s := if known then s.onStrFrame q.stream src q.fseq fun f => { f with refused := f.refused + 1 } else s
    (s.drop q.stream src q.fseq dseq 4 q.row q.col 0 whole).nextHead q.stream

/-- The codec is reset: open products are lost and profile steps return to 0 (R249). -/
def effTslReset (s : State) : State :=
  let lost := s.products.filter fun q => !q.bypass
  let s : State := { s with products := s.products.filter (·.bypass) }
  let s := lost.foldl State.loseProduct s
  let s := if lost.isEmpty then s
    else s.sticky .TSL_EVENTS_EV 0 2 .TSL_EVENT_EN 0 2 0x0038 0xFFFF 0x0003 (argAt 16 (min lost.length 65535))
  let s := (List.range 16).foldl (fun s p => (s.set .TSL_PROF_STATUS_STEP p 0).set .TSL_PROF_H_QUIET p 0) s
  (s.blockReset 12).eofCheck

/-- `TSL_CTRL.RESET` (R249). -/
def execTslReset (src : Src) (s : State) : Res :=
  if s.gate src .installer 12 ≠ .ok then .next (s.answer src 0 (s.gate src .installer 12))
  else .next (s.recorded src 0 (.tslReset src) (s.writeRec src 0x380400 2) effTslReset)

/-- `CLR_CNT` clears the codec counters (R515). -/
def State.tslClrCnt (s : State) : State :=
  [Fld.TSL_CNT_ENC, .TSL_CNT_RAW, .TSL_CNT_BYPASS, .TSL_CNT_DEC, .TSL_CNT_DEC_ERR, .TSL_CNT_LOST].foldl
    (fun s f => s.set f 0 0) s

/-- The command form of `CLR_CNT`. -/
def execTslClrCnt (src : Src) (s : State) : Res :=
  if s.gate src .operator 12 ≠ .ok then .next (s.answer src 0 (s.gate src .operator 12))
  else .next (s.tslClrCnt.answer src 0 .ok)

/-! ### Decode requests (R238, R242, R249) -/

/-- A decoder discards a tile: counted, its code and line kept, `DEC_ERR` (R242). `who` is 0 for the comparison engine. -/
def State.decodeError (s : State) (blanket who code line : Nat) : State :=
  let s := (((s.inc .TSL_CNT_DEC_ERR).set .TSL_DEC_ERR_INFO_CODE 0 code).set .TSL_DEC_ERR_INFO_REQUESTER 0 who).set
    .TSL_DEC_ERR_INFO_LINE 0 line
  s.sticky .TSL_EVENTS_EV 0 0 .TSL_EVENT_EN 0 0 0x0038 blanket 0x0001 (argAt 16 code + argAt 17 who + argAt 18 line)

end Sys2Proof.Machine
end

