-- ==== Sys2Proof/Machine/Ref.lean ====
section
/-! DEFINITION. Reference comparison (08_reference_comparison.md): slots, comparison banks, the comparison of alignment
tiles and its products, fence and reset. -/

namespace Sys2Proof.Machine

/-! ### Slots (R202) -/

/-- A comparison bank that is not FREE names the slot. -/
def State.slotUsed (s : State) (sl : Nat) : Bool :=
  (List.range 16).any fun i => s.cmpState (i / 2) (i % 2) != 0 && s.par (cmpBase (i / 2) (i % 2)) 2 1 == sl

/-- The common checks of a slot command. -/
def State.slotGate (s : State) (sl : Nat) (src : Src) : Status :=
  if 2 ≤ sl then .range else s.gate src .operator 11

/-- `LOAD` opens a slot for writing unless it is used or already loading (R202). -/
def State.slotLoad (s : State) (sl : Nat) : State × Status :=
  if s.slotUsed sl || s.get .REF_SLOT_CTRL_STATE sl = 1 then (s, .state) else (s.set .REF_SLOT_CTRL_STATE sl 1, .ok)

/-- The command form. -/
def execSlotLoad (sl : Nat) (src : Src) (s : State) : Res :=
  if s.slotGate sl src ≠ .ok then .next (s.answer src (slotCtrl sl) (s.slotGate sl src))
  else let q := s.slotLoad sl; .next (q.1.answer src (slotCtrl sl) q.2)

/-- `DONE` starts the check of a loading slot (R202); the write completes when the check ends. -/
def State.slotDone (s : State) (sl : Nat) (src : Src) : State × Status :=
  if s.get .REF_SLOT_CTRL_STATE sl ≠ 1 || s.on .REF_SLOT_CTRL_CHECKING sl then (s, .state)
  else
    let s := s.set .REF_SLOT_CTRL_CHECKING sl 1
    ({ s with ref := { s.ref with checks := tabPut s.ref.checks sl src } }, .ok)

/-- The command form. -/
def execSlotDone (sl : Nat) (src : Src) (s : State) : Res :=
  if s.slotGate sl src ≠ .ok then .next (s.answer src (slotCtrl sl) (s.slotGate sl src))
  else
    let q := s.slotDone sl src
    if q.2 = .ok then .next q.1 else .next (q.1.answer src (slotCtrl sl) q.2)

/-- What the check of `DONE` finds in a slot. -/
def State.slotOk (s : State) (sl : Nat) : Bool :=
  s.refImageOk (s.get .REF_SLOT_BASE sl) (s.get .REF_SLOT_SIZE_SIZE_MIB sl * 2 ^ 20)

/-- The check ends: READY, or EMPTY with INTEGRITY (R202). -/
def execSlotCheckDone (sl : Nat) (s : State) : Res :=
  if s.on .REF_SLOT_CTRL_CHECKING sl then
    let good := s.slotOk sl
    let src := tabGet s.ref.checks sl ⟨.mgt, 0⟩
    let s := (s.set .REF_SLOT_CTRL_CHECKING sl 0).set .REF_SLOT_CTRL_STATE sl (if good then 2 else 0)
    let s : State := { s with ref := { s.ref with checks := tabErase s.ref.checks sl } }
    .next (s.answer src (slotCtrl sl) (if good then .ok else .integrity))
  else .next s

/-- `CLEAR` empties a slot that is not used (R202); a check in progress ends with STATE. -/
def State.slotClear (s : State) (sl : Nat) (src : Src) : State × Status :=
  if s.slotUsed sl then (s, .state)
  else
    let s := if s.on .REF_SLOT_CTRL_CHECKING sl then s.answer (tabGet s.ref.checks sl src) (slotCtrl sl) .state else s
    let s := (s.set .REF_SLOT_CTRL_STATE sl 0).set .REF_SLOT_CTRL_CHECKING sl 0
    ({ s with ref := { s.ref with checks := tabErase s.ref.checks sl } }, .ok)

/-- The command form. -/
def execSlotClear (sl : Nat) (src : Src) (s : State) : Res :=
  if s.slotGate sl src ≠ .ok then .next (s.answer src (slotCtrl sl) (s.slotGate sl src))
  else let q := s.slotClear sl src; .next (q.1.answer src (slotCtrl sl) q.2)

/-! ### Comparison banks (R203, R204) -/

/-- A write of bytes through the comparison bank window (R203). -/
def State.cmpStore (s : State) (addr : Nat) (data : List Nat) (src : Src) : State × Status :=
  let off := addr - 0x350000
  let k := off / 0x1000
  let b := off / 0x800 % 2
  if addr < 0x350000 || 8 ≤ k || 0x800 < off % 0x800 + data.length then (s, .range)
  else if s.gate src .installer 11 ≠ .ok then (s, s.gate src .installer 11)
  else if s.cmpState k b ≠ 0 then (s, .state)
  else (s.putBytes addr data, .ok)

/-- The command form. -/
def execCmpWindowWrite (addr : Nat) (data : List Nat) (src : Src) (s : State) : Res :=
  let q := s.cmpStore addr data src
  .next (q.1.answer src 0 q.2)

/-- The colour conditions of R204. -/
def State.cmpColourOk (s : State) (k base slot : Nat) : Bool :=
  let cs := s.par base 3 1
  let sum := fun (l : List Int) => l.foldl (· + ·) 0
  let ky := s.cmpCoef base 64
  decide (cs ≤ 1) &&
    (cs == 0 || (s.refChroma slot && [0, 1].any fun b => s.layState k b != 0 &&
      s.layJob (layBase k b) == s.par base 0 2 && s.layPlanes (layBase k b) == 3)) &&
    ky.all (fun c => decide (0 ≤ c)) && sum ky == 16384 && sum (s.cmpCoef base 70) == 0 && sum (s.cmpCoef base 76) == 0

/-- Threshold set `n` lies within the installer's limits (R204). -/
def State.cmpSetOk (s : State) (base n : Nat) : Bool :=
  let o := 128 + 16 * n
  let g := fun i => s.par base (o + i) 1
  let px := s.par base (o + 4) 2
  let lim := s.get .REF_LIMIT_MIN_PIX_MAX n
  decide (1 ≤ g 0) && decide (g 0 ≤ s.get .REF_LIMIT_THR_Y_POS_MAX n) && decide (1 ≤ g 1) &&
    decide (g 1 ≤ s.get .REF_LIMIT_THR_Y_NEG_MAX n) && decide (1 ≤ g 2) && decide (g 2 ≤ s.get .REF_LIMIT_THR_C_MAX n) &&
    decide (1 ≤ px) && (lim == 0 || decide (px ≤ 16 * lim)) && s.zeros base (o + 3) 1 && s.zeros base (o + 6) 10

/-- `GO`'s checks on a comparison bank (R204). -/
def State.cmpOk (s : State) (k base : Nat) : Bool :=
  let sl := s.par base 2 1
  let tmax := s.par base 18 1
  let minv := s.par base 24 2
  decide (sl < 2) && s.get .REF_SLOT_CTRL_STATE sl == 2 && s.cmpColourOk k base (s.get .REF_SLOT_BASE sl) &&
    s.par base 4 4 != 0 && decide (tmax ≤ 32) && decide ((toSigned 8 (s.par base 19 1)).natAbs ≤ tmax) &&
    decide ((toSigned 8 (s.par base 20 1)).natAbs ≤ tmax) && decide (1 ≤ minv) && decide (minv ≤ 4096) &&
    (List.range 16).all (s.cmpSetOk base) && s.par base 16 1 / 4 % 32 == 0 && decide (s.par base 21 1 ≤ 1) &&
    [(27, 1), (34, 2), (44, 20), (82, 46), (384, 1664)].all fun z => s.zeros base z.1 z.2

/-- What `GO` answers. -/
def State.refGoCheck (s : State) (k : Nat) : Status :=
  let b := s.cmpCommitBank k
  if 8 ≤ k then .range else if s.cmpState k b ≠ 0 then .state else if s.cmpOk k (cmpBase k b) then .ok else .range

/-- The committed comparison bank becomes PENDING. -/
def effRefGo (k mode : Nat) (src : Src) (s : State) : State :=
  if s.refGoCheck k = .ok then
    let i := 2 * k + s.cmpCommitBank k
    (s.set .REF_H_BANK_STATE i 1).set .REF_H_MODE i mode
  else s.answer src 0 (s.refGoCheck k)

/-- `REF_COMMIT.GO` (R203, R204). -/
def execRefGo (k mode : Nat) (src : Src) (s : State) : Res :=
  let b := s.cmpCommitBank k
  if s.gate src .installer 11 ≠ .ok then .next (s.answer src 0 (s.gate src .installer 11))
  else if s.refGoCheck k ≠ .ok then .next (s.answer src 0 (s.refGoCheck k))
  else .next (s.recorded src 0 (.refGo k mode src)
    (s.auditRec src 2 2 (cmpBase k b) (digest16 (s.memBytes (cmpBase k (1 - b)) 0x800))
      (digest16 (s.memBytes (cmpBase k b) 0x800))) (effRefGo k mode src))

/-- What `CANCEL` answers. -/
def State.refCancelCheck (s : State) (k : Nat) : Status :=
  if 8 ≤ k then .range else if s.cmpState k (s.cmpCommitBank k) = 1 then .ok else .state

/-- The pending comparison bank is FREE again. -/
def effRefCancel (k : Nat) (src : Src) (s : State) : State :=
  if s.refCancelCheck k = .ok then s.set .REF_H_BANK_STATE (2 * k + s.cmpCommitBank k) 0
  else s.answer src 0 (s.refCancelCheck k)

/-- `REF_COMMIT.CANCEL` (R203). -/
def execRefCancel (k : Nat) (src : Src) (s : State) : Res :=
  if s.gate src .installer 11 ≠ .ok then .next (s.answer src 0 (s.gate src .installer 11))
  else if s.refCancelCheck k ≠ .ok then .next (s.answer src 0 (s.refCancelCheck k))
  else .next (s.recorded src 0 (.refCancel k src) (s.auditRec src 1 2 (cmpBase k (s.cmpCommitBank k)) noValue noValue)
    (effRefCancel k src))

/-! ### The comparison of an alignment tile (R206 to R217) -/

/-- The predicted reference origin of alignment tile (a, t) of a frame (R206). -/
def State.predicted (s : State) (f : RefFrame) (base a t rows : Nat) : Int × Int :=
  let ybase : Nat := ((f.tag.pos + 2 ^ 48 - f.mpos) % 2 ^ 48 * s.par base 4 4 + 2 ^ 23) / 2 ^ 24
  ((64 * a : Int) - toSigned 32 (s.par base 8 4) + f.tx,
   ((ybase : Int) + toSigned 32 (s.par base 12 4) + f.ty + 64 * t) % ((max 1 rows : Nat) : Int))

/-- The 64×64 pixels of part `i` of a blanket tile, and which are valid. -/
def RefTile.part (t : RefTile) (i : Nat) : List (List (List Nat)) × List (List Bool) :=
  let ls := (t.lines.drop (64 * (i / 4))).take 64
  (ls.map fun l => (l.1.drop (64 * (i % 4))).take 64, ls.map fun l => (l.2.drop (64 * (i % 4))).take 64)

/-- Chroma of a part: converted, averaged over 2×2, valid where all four pixels are (R207). -/
def chromaGrid (k : List Int) (px : List (List (List Nat))) (ok : List (List Bool)) : Grid :=
  (Grid.mk (px.map fun r => r.map fun p => (chromaOf k p : Int)) ok).half 32

/-- Chroma values of valid pixels that the clamp changes. -/
def clampCount (k : List Int) (px : List (List (List Nat))) (ok : List (List Bool)) : Nat :=
  ((px.zip ok).foldl (fun a r => a + ((r.1.zip r.2).filter fun q =>
    q.2 && (decide (chromaRaw k q.1 < 0) || decide (255 < chromaRaw k q.1))).length) 0)

/-- A residual grid of side `n`: blanket minus reference, 0 where not valid (R213). -/
def residual (n : Nat) (g : Grid) (ref : Nat → Nat → Int) : Grid :=
  ⟨(List.range n).map fun y => (List.range n).map fun x => if g.okAt x y then g.at x y - ref x y else 0, g.ok⟩

/-- Largest magnitude of a grid's valid samples. -/
def Grid.peak (g : Grid) (n : Nat) : Nat :=
  (List.range n).foldl (fun a y => (List.range n).foldl (fun a x => if g.okAt x y then max a (g.at x y).natAbs else a) a) 0

/-- The valid sample of largest magnitude, the first in row-major order on a tie, with its column and row (R218). -/
def Grid.peakAt (g : Grid) (n : Nat) : Int × (Nat × Nat) :=
  (List.range n).foldl (fun b y => (List.range n).foldl (fun b x =>
    if g.okAt x y && decide (b.1.natAbs < (g.at x y).natAbs) then (g.at x y, (x, y)) else b) b) (0, (0, 0))

/-- Box of a list of pixels: first and last column, first and last row. -/
def boxOf (l : List (Nat × Nat)) : Nat × Nat × Nat × Nat :=
  match l with
  | [] => (0, 0, 0, 0)
  | p :: r => r.foldl (fun b q => (min b.1 q.1, max b.2.1 q.1, min b.2.2.1 q.2, max b.2.2.2 q.2)) (p.1, p.1, p.2, p.2)

/-- What an alignment tile yields: the record's values, residual grids for Y, Cb and Cr, and the reference resampled at
the offset used. -/
structure Compared where
  found : Found
  resY : Grid
  resC : List Grid
  refY : List (List Int)
  refC : List (List (List Int))
  deriving DecidableEq, Repr

/-- A grid of side `n` with nothing valid and all 0. -/
def maskedGrid (n : Nat) : Grid := ⟨List.replicate n (List.replicate n 0), List.replicate n (List.replicate n false)⟩

/-- An alignment tile without a comparison, of cause 5 or 7: everything masked (R210, R224). -/
def maskedTile (cause valid zone : Nat) (cs : Bool) : Compared :=
  ⟨⟨cause, (0, 0), (0, 0), 0, valid, zone, 0, 0, 0, (0, 0), 0, 0, 0, (0, 0, 0, 0)⟩, maskedGrid 64,
   if cs then [maskedGrid 32, maskedGrid 32] else [], [], []⟩

/-- Zone of the reference block that luma position (x, y) lies in (R217). -/
def State.zoneAt (s : State) (slot : Nat) (x y : Int) : Nat :=
  bits (s.refEntry slot (clampCol (s.refW slot) x / 64) (wrapRow (s.refRows slot) y / 64)) 48 4

/-- Luma of the pixels of an alignment tile (R207). -/
def State.lumaGrid (s : State) (base : Nat) (px : List (List (List Nat))) (ok : List (List Bool)) : Grid :=
  ⟨px.map fun r => r.map fun p => (lumaOf (s.cmpCoef base 64) p : Int), ok⟩

/-- Valid samples of a tile's luma. -/
def Grid.valid (y : Grid) : Nat := y.sum 64 fun _ _ _ => 1

/-- The cause that skips the search: 2 FEW_VALID, 1 FLAT; 0 where the search runs (R210). -/
def State.skipCause (s : State) (base : Nat) (y : Grid) : Nat :=
  let top := (List.range 64).foldl (fun a j => (List.range 64).foldl (fun a i =>
    if y.okAt i j then max a (y.at i j) else a) a) 0
  let low := (List.range 64).foldl (fun a j => (List.range 64).foldl (fun a i =>
    if y.okAt i j then min a (y.at i j) else a) a) 255
  if y.valid < s.par base 24 2 then 2 else if top - low < (s.par base 26 1 : Int) then 1 else 0

/-- Compare the 64×64 pixels of an aligned tile with the reference at its predicted origin (R207 to R217). -/
def State.compare (s : State) (base slot : Nat) (v : RefView) (al : Aligned) (rx ry : Int) (px : List (List (List Nat)))
    (ok : List (List Bool)) : Compared :=
  let cs := s.par base 3 1 = 1
  let y := s.lumaGrid base px ok
  let valid := y.valid
  let cause := al.cause
  let off := al.off
  let int := al.int
  let zone := s.zoneAt slot (rx + 32 + int.1) (ry + 32 + int.2)
  let refY := (List.range 64).map fun j => (List.range 64).map fun i => v.luma rx ry off.1 off.2 i j
  let refC := if cs then [1, 2].map fun p => (List.range 32).map fun j => (List.range 32).map fun i =>
    v.chroma p rx ry off.1 off.2 i j else []
  let resY := residual 64 y fun i j => (refY.getD j []).getD i 0
  let resC := (if cs then [(1, 70), (2, 76)] else []).map fun e =>
    residual 32 (chromaGrid (s.cmpCoef base e.2) px ok) fun i j => ((refC.getD (e.1 - 1) []).getD j []).getD i 0
  let o := 128 + 16 * zone
  let pos : Int := s.par base o 1
  let neg : Int := s.par base (o + 1) 1
  let thrC := s.par base (o + 2) 1
  let above := fun (i j : Nat) => resY.okAt i j && (decide (pos < resY.at i j) || decide (resY.at i j < -neg) ||
    resC.any fun g => g.okAt (i / 2) (j / 2) && decide (thrC < (g.at (i / 2) (j / 2)).natAbs))
  let list := (List.range 64).flatMap fun j => ((List.range 64).filter fun i => above i j).map fun i => (i, j)
  let peak := resY.peakAt 64
  ⟨⟨cause, off, int, y.sad 64 fun i j => (refY.getD j []).getD i 0, valid, zone,
      resY.v.foldl (fun a r => r.foldl (· + ·) a) 0,
      resY.v.foldl (fun a r => r.foldl (fun a x => a + x.natAbs * x.natAbs) a) 0, peak.1, peak.2,
      (resC.headD (maskedGrid 1)).peak 32, ((resC.drop 1).headD (maskedGrid 1)).peak 32, list.length, boxOf list⟩,
    resY, resC, refY, refC⟩

/-! ### Products (R215 to R220) -/

/-- The frame's alignment begins: its mark position and the tracking offset in force are fixed (R205, R212). -/
def State.refBegin (s : State) (k seq : Nat) : State :=
  match s.refFrame? k seq with
  | some f => match f.bank with
    | some b => if f.begun then s else s.onRefFrame k seq fun f => { f with
        begun := true, mpos := s.mposFor k b f.tag.pos,
        tx := toSigned 8 (s.get .REF_H_TX (2 * k + b)), ty := toSigned 8 (s.get .REF_H_TY (2 * k + b)) }
    | none => s
  | none => s

/-- Stream of a product: 0 `STREAM_RES`, 1 `STREAM_STAT`, 2 `STREAM_CAND`, 3 `STREAM_PATCH`. -/
def State.cmpStream (s : State) (k b i : Nat) : Nat := s.par (cmpBase k b) (36 + 2 * i) 2

/-- A product that travels uncoded is offered to egress (R216, R218); stream 0 stands for none. -/
def State.offerPlain (s : State) (f : RefFrame) (st kind row col : Nat) (data : List Nat) : State :=
  if st = 0 then s
  else s.offer ⟨st, kind, 0x100 + f.k, f.seq, f.tag, data, false, 0, 0, row, col, 0, 0, data.length, false, 0⟩

/-- Planes of an evidence patch (R220, R226): the blanket's with the patch mask, then the reference's. -/
def patchPlanes (px : List (List (List Nat))) (ok : List (List Bool)) (c : Compared) : List Plane :=
  let n := ((px.headD []).headD []).length
  let full := fun (m : Nat) => List.replicate m (List.replicate m true)
  ((List.range n).map fun i => ⟨0, if n = 1 then 0 else 3 + i, px.map fun r => r.map fun p => (p.getD i 0 : Int), ok⟩) ++
    [⟨0, 0, c.refY, full 64⟩] ++
    (if c.refC.isEmpty then [] else [⟨0, 1, c.refC.getD 0 [], full 32⟩, ⟨0, 2, c.refC.getD 1 [], full 32⟩])

/-- The tile yields a candidate (R217, R218). -/
def State.yieldsCand (s : State) (base : Nat) (q : Found) : Bool :=
  if q.cause ≤ 2 then decide (s.par base (128 + 16 * q.zone + 4) 2 ≤ q.exceed)
  else (q.cause == 3 || q.cause == 4) && (s.par base 21 1).testBit 0

/-- A candidate is numbered and emitted, with a patch while fewer than `PATCH_MAX` came before it; beyond `CAND_MAX` it is
suppressed (R219). Answers byte 30 of the statistics record. -/
def State.emitCand (s : State) (f : RefFrame) (b a t : Nat) (tile : RefTile) (px : List (List (List Nat)))
    (ok : List (List Bool)) (c : Compared) : State × Nat :=
  let base := cmpBase f.k b
  let n := f.cands
  let q := if c.found.cause ≤ 2 then c.found else { c.found with box := (0, 63, 0, 63) }
  let patch := decide (n < s.par base 32 2)
  let s := s.onRefFrame f.k f.seq fun f => { f with cands := f.cands + 1 }
  if !patch && decide (s.par base 30 2 ≤ n) then ((s.inc .REF_CNT_CAND_SKIP f.k).refEvent f.k 4 f.seq a t, 2)
  else
    let flags := (if patch then 1 else 0) + (if 3 ≤ q.cause then 2 else 0) + (if q.valid < 4096 then 4 else 0) +
      (if tile.flags.testBit 0 then 8 else 0)
    let r := q.cand f.seq a t (if patch then n else 0xFFFF) flags
    let s := s.inc .REF_CNT_CAND f.k
    let s := s.offerPlain f (s.cmpStream f.k b 2) 2 tile.row tile.col r
    if patch then
      let st := s.cmpStream f.k b 3
      let p : Product := ⟨st, 3, f.k, f.seq, tile.row, tile.col, r, patchPlanes px ok c, true, 0, false, false, f.tag, 0⟩
      ((if st = 0 then s else s.startProduct p).startProduct { p with copy := true }, 1)
    else ((s.inc .REF_CNT_PATCH_SKIP f.k).recorderCopy f.k f.job f.tag.bytes r [], 1)

/-- A plane of a residual product put together from the parts of a blanket tile, `m` samples to a part's side (R215). -/
def joinParts (parts : List RefPart) (pl m : Nat) : List (List Int) × List (List Bool) :=
  let part := fun (i : Nat) => (parts.find? fun p => p.i == i).getD ⟨i, [], 0, [], []⟩
  ((List.range (4 * m)).map fun y => [0, 1, 2, 3].flatMap fun c =>
      ((((part (4 * (y / m) + c)).res.getD pl []).drop (m * (y % m))).take m),
   (List.range (4 * m)).map fun y => [0, 1, 2, 3].flatMap fun c =>
      ((((part (4 * (y / m) + c)).ok.getD pl []).drop (m * (y % m))).take m))

/-- The residuals of the leading bands of a blanket tile that are complete go to the codec (R215, R247). DESIGN CHOICE: the
product starts with the first of them that has a part of another cause than 5, since a tile with cause 5 alone sends no
residual tile. -/
def State.feedTile (s : State) (f : RefFrame) (b : Nat) (t : RefTile) : State × RefTile :=
  let bands := ((List.range 4).takeWhile fun j => (List.range 4).all fun c => t.parts.any fun p => p.i == 4 * j + c).length
  let st := s.cmpStream f.k b 0
  if st = 0 || bands = 0 then (s, t)
  else
    let plane := fun (ty i m : Nat) =>
      let j := joinParts t.parts i m
      Plane.mk ty i (j.1.take (m * bands)) (j.2.take (m * bands))
    let planes := plane 1 0 64 :: (if s.par (cmpBase f.k b) 3 1 = 1 then [plane 1 1 32, plane 1 2 32] else [])
    let p : Product := ⟨st, 0, f.k, f.seq, t.row, t.col, s.refHeader f b t.row t.col, planes, bands == 4, 0, false, false, f.tag, 0⟩
    if t.sent then (s.feedProduct p, t)
    else if t.parts.any fun q => decide (q.i < 4 * bands) && q.cause != 5 then (s.startProduct p, { t with sent := true })
    else (s, t)

/-- All parts of a blanket tile are compared: the statistics packet goes out (R216). -/
def State.tileDone (s : State) (f : RefFrame) (b : Nat) (t : RefTile) : State :=
  let head := s.refHeader f b t.row t.col
  let recs := (List.range 16).flatMap fun i => ((t.parts.find? fun p => p.i == i).map (·.stat)).getD []
  let s := s.offerPlain f (s.cmpStream f.k b 1) 1 t.row t.col (head ++ recs)
  { s with ref := { s.ref with tiles := s.ref.tiles.filter fun u =>
    !(u.k == t.k && u.seq == t.seq && u.row == t.row && u.col == t.col) } }

/-- The last alignment tile of a bound blanket frame is done: tracking follows the median of its offsets, its end-of-frame
deliveries are due, and its bank may drain (R203, R212, R257). -/
def State.refFinish (s : State) (k seq : Nat) : State :=
  match s.refFrame? k seq with
  | none => s
  | some f => match f.bank with
    | none => s
    | some b =>
      if !(f.closed && f.doneTiles == f.tiles) then s
      else
        let base := cmpBase k b
        let s := if decide (s.par base 22 2 ≤ f.offs.length) && !f.offs.isEmpty then
            let m := s.par base 18 1
            let step := fun (s : State) (fl : Fld) (v : Int) =>
              s.set fl (2 * k + b) (ofSigned 8 (clampSym m (toSigned 8 (s.get fl (2 * k + b)) + v)))
            step (step s .REF_H_TX (lowerMedian (f.offs.map (·.1)))) .REF_H_TY (lowerMedian (f.offs.map (·.2)))
          else s
        let s := s.set .REF_BL_SEQ k seq
        let streams := ((s.cmpStreams k b).filter (· != 0)).eraseDups
        let s : State := { s with egr := { s.egr with ends := s.egr.ends ++ [(k, seq, streams, f.tag)] } }
        (s.refEnd k seq).eofCheck

/-- A compared part is entered in its blanket tile, and what is then complete goes on. -/
def State.partDone (s : State) (f : RefFrame) (b : Nat) (t : RefTile) (p : RefPart) : State :=
  let (s, t) := s.feedTile f b { t with parts := t.parts ++ [p] }
  let s : State := { s with ref := { s.ref with tiles := s.ref.tiles.map fun u =>
    if u.k == t.k && u.seq == t.seq && u.row == t.row && u.col == t.col then t else u } }
  let s := s.onRefFrame f.k f.seq fun f => { f with doneTiles := f.doneTiles + 1 }
  if t.parts.length = 16 then (s.tileDone f b t).refFinish f.k f.seq else s

/-- Part `i` of a blanket tile is lost: cause 7, masked, no candidates (R224). -/
def State.lostPart (s : State) (f : RefFrame) (b : Nat) (u : RefTile) (i : Nat) : State :=
  let c := maskedTile 7 0 0 (s.par (cmpBase u.k b) 3 1 = 1)
  s.partDone f b u ⟨i, c.found.stat (4 * u.col + i % 4) (4 * u.row + i / 4) 0, 7,
    (c.resY :: c.resC).map fun g => g.v.flatten, (c.resY :: c.resC).map fun g => g.ok.flatten⟩

/-- One more reference block of a view is read and decoded; none when its read or its decoding fails. Failures and decoded
tiles are counted. -/
def State.fetchBlock (k slot : Nat) (a : State × Option RefView) (p : Nat × Nat) : State × Option RefView :=
  match a.2 with
  | some v =>
    if v.blocks.any fun e => e.1 == p then a
    else
      let q := a.1.refRead slot p.1 p.2
      let chroma := a.1.refChroma slot
      match q.2 with
      | none => (q.1, none)
      | some l => match refBlockOf chroma l with
        | .ok b => (q.1.add .TSL_CNT_DEC 0 (if chroma then 3 else 1), some { v with blocks := v.blocks ++ [(p, b)] })
        | .error e => (q.1.decodeError k 0 e.1 e.2, none)
  | none => a

/-- An alignment tile is aligned (R209, R210): the reference blocks that its stages and the resampling at the offset used
need are read and decoded; none when one of them fails or the codec refuses (R242, R249). -/
def State.fetchRef (s : State) (k base slot : Nat) (rx ry : Int) (y : Grid) (memErr : Bool) :
    State × Option (RefView × Aligned) :=
  if memErr || s.tslBypass || s.unitDown 12 then (s, none)
  else
    let w := s.refW slot
    let h := s.refRows slot
    let skip := s.skipCause base y
    let q := (lumaBlocks w h (skip ≠ 0) rx ry).foldl (State.fetchBlock k slot) (s, some ⟨w, h, []⟩)
    match q.2 with
    | none => (q.1, none)
    | some v =>
      let al := v.align y skip (s.par base 28 2) y.valid rx ry
      let more := if s.par base 3 1 = 1 then chromaBlocks w h rx ry al.off.1 al.off.2 else []
      let q := more.foldl (State.fetchBlock k slot) (q.1, some v)
      (q.1, q.2.map fun v => (v, al))

/-- What the comparison of an alignment tile counts: a failed alignment or reference with its event (R210), and the offset
it found for the bank's tracking offset (R212). -/
def State.countFound (s : State) (k seq a t : Nat) (c : Found) : State :=
  let s := if c.cause = 3 || c.cause = 4 then (s.inc .REF_CNT_ALIGN_FAIL k).refEvent k 0 seq a t
    else if c.cause = 5 then (s.inc .REF_CNT_REFERR k).refEvent k 1 seq a t else s
  if c.cause = 0 || c.cause = 3 then s.onRefFrame k seq fun f => { f with offs := f.offs ++ [c.int] } else s

/-- Alignment tile (a, t) of blanket frame (k, seq) is compared (R206 to R220). `memErr` says that a read of a reference
block it needs returned an uncorrectable error. -/
def execAlignmentTile (k seq a t : Nat) (memErr : Bool) (s : State) : Res :=
  let i := 4 * (t % 4) + a % 4
  match s.ref.tiles.find? fun u => u.k == k && u.seq == seq && u.row == t / 4 && u.col == a / 4 with
  | none => .next s
  | some u =>
    if u.parts.any fun p => p.i == i then .next s
    else
      let s := s.refBegin k seq
      match s.refFrame? k seq with
      | none => .next s
      | some f => match f.bank with
        | none => .next s
        | some b =>
          let base := cmpBase k b
          let slot := s.get .REF_SLOT_BASE (s.par base 2 1)
          let cs := s.par base 3 1 = 1
          if t % 4 < u.cut then .next (s.lostPart f b u i)
          else
          let (px, ok) := u.part i
          let (rx, ry) := s.predicted f base a t (s.refRows slot)
          let s := s.inc .REF_CNT_TILES k
          let s := if cs then s.add .REF_CNT_CCLIP k (clampCount (s.cmpCoef base 70) px ok + clampCount (s.cmpCoef base 76) px ok)
            else s
          let y := s.lumaGrid base px ok
          let (s, view) := s.fetchRef k base slot rx ry y memErr
          let c := match view with
            | some v => s.compare base slot v.1 v.2 rx ry px ok
            | none => maskedTile 5 y.valid (s.zoneAt slot (rx + 32) (ry + 32)) cs
          let cause := c.found.cause
          let s := s.countFound k seq a t c.found
          let (s, n) := if s.yieldsCand base c.found then s.emitCand f b a t u px ok c else (s, 0)
          .next (s.partDone f b u ⟨i, c.found.stat a t n, cause, (c.resY :: c.resC).map fun g => g.v.flatten,
            (c.resY :: c.resC).map fun g => g.ok.flatten⟩)

/-! ### Fence, reset, counters (R224) -/

/-- `REF_CTRL.FENCE` takes 1. -/
def effRefFence (s : State) : State := s.set .REF_CTRL_FENCE 0 1

/-- `REF_CTRL.FENCE` written 1 (R224). -/
def execRefFence (src : Src) (s : State) : Res :=
  if s.gate src .installer 11 ≠ .ok then .next (s.answer src 0 (s.gate src .installer 11))
  else .next (s.recorded src 0 (.refFence src) (s.writeRec src 0x340880 1) effRefFence)

/-- Frames already bound are complete: FENCED reads 1 (R224). -/
def execRefFenceDone (s : State) : Res :=
  if s.on .REF_CTRL_FENCE && !(s.ref.frames.any fun f => f.bank.isSome) then .next (s.set .REF_CTRL_FENCED 0 1) else .next s

/-- The parts of a blanket tile that are not compared are lost: cause 7, masked, no candidates (R224). -/
def State.loseTile (s : State) (t : RefTile) : State :=
  (List.range 16).foldl (fun s i =>
    match s.ref.tiles.find? fun u => u.k == t.k && u.seq == t.seq && u.row == t.row && u.col == t.col with
    | none => s
    | some u =>
      if u.parts.any fun p => p.i == i then s
      else
        let s := s.refBegin u.k u.seq
        match s.refFrame? u.k u.seq with
        | none => s
        | some f => match f.bank with
          | none => s
          | some b => s.lostPart f b u i) s

/-- The comparison engine takes the lines of a blanket frame's tile columns: the frame is bound to a bank. -/
def State.refTakes (s : State) (k seq : Nat) : Bool := s.ref.frames.any fun f => f.k == k && f.seq == seq && f.bank.isSome

/-- The bands of unfinished tiles whose lines have begun to arrive are cut off (R224). -/
def State.cutBands (s : State) (f : BFrame) : BFrame :=
  if s.refTakes f.k f.seq then
    { f with cols := f.cols.map fun c => { c with cut := max c.cut (ceilDiv c.lines.length 64) } }
  else f

/-- The engine is reset: bands in progress are lost, `LOST` sets for their blanket frames, tracking returns to its initial
offset, and a check of a slot that someone waits for completes with TARGET_RESET (R224). -/
def effRefReset (s : State) : State :=
  let lost := s.ref.tiles.map (fun t => (t.k, t.seq)) ++
    ((s.blankets.filter fun f => s.refTakes f.k f.seq && f.cols.any fun c => !c.lines.isEmpty).map fun f => (f.k, f.seq))
  let s := s.ref.tiles.foldl State.loseTile s
  let s : State := { s with blankets := s.blankets.map s.cutBands }
  let s := lost.eraseDups.foldl (fun s q => s.refEvent q.1 5 q.2 0xFFFF 0xFFFF) s
  let s := s.ref.checks.foldl (fun s e => s.answer e.2 (slotCtrl e.1) .targetReset) s
  let s := [0, 1].foldl (fun s sl => s.set .REF_SLOT_CTRL_CHECKING sl 0) s
  let s : State := { s with ref := { s.ref with checks := [] } }
  let s := (List.range 16).foldl (fun s i =>
    let base := cmpBase (i / 2) (i % 2)
    (s.set .REF_H_TX i (s.par base 19 1)).set .REF_H_TY i (s.par base 20 1)) s
  s.blockReset 11

/-- `REF_CTRL.RESET` (R224). -/
def execRefReset (src : Src) (s : State) : Res :=
  if s.gate src .installer 11 ≠ .ok then .next (s.answer src 0 (s.gate src .installer 11))
  else .next (s.recorded src 0 (.refReset src) (s.writeRec src 0x340880 2) effRefReset)

/-- `CLR_CNT` clears the counters of all blankets (R515). -/
def State.refClrCnt (s : State) : State :=
  (List.range 8).foldl (fun s k => [Fld.REF_CNT_TILES, .REF_CNT_ALIGN_FAIL, .REF_CNT_REFERR, .REF_CNT_CAND,
    .REF_CNT_CAND_SKIP, .REF_CNT_PATCH_SKIP, .REF_CNT_NOREF, .REF_CNT_MARK_STRAY, .REF_CNT_CCLIP].foldl
    (fun s f => s.set f k 0) s) s

/-- The command form of `CLR_CNT`. -/
def execRefClrCnt (src : Src) (s : State) : Res :=
  if s.gate src .operator 11 ≠ .ok then .next (s.answer src 0 (s.gate src .operator 11))
  else .next (s.refClrCnt.answer src 0 .ok)

end Sys2Proof.Machine
end

