-- ==== Sys2Proof/Machine/JobOps.lean ====
section
/-! DEFINITION. Shared operations of the job unit (12_jobs_and_autonomy.md): the two slots, admission, loading, arming and
the switch. -/

namespace Sys2Proof.Machine

/-! ### Slots and events -/

/-- Codes of `JOB_STATUS.NEXT_STATE` (R297). -/
abbrev nextEmpty : Nat := 0
abbrev nextLoading : Nat := 1
abbrev nextLoaded : Nat := 2
abbrev nextArmed : Nat := 3

/-- State of NEXT. -/
def State.nextState (s : State) : Nat := s.get .JOB_STATUS_NEXT_STATE

/-- CURRENT is RUNNING. -/
def State.jobRuns (s : State) : Bool := s.on .JOB_STATUS_CUR_STATE

/-- The device is a leader, a follower (R309). -/
def State.isLeader (s : State) : Bool := s.get .JOB_STATUS_ROLE == 1
def State.isFollower (s : State) : Bool := s.get .JOB_STATUS_ROLE == 2

/-- Sticky bit `k` of `JOB_EVENTS` with its event (R314). -/
def State.jobEvent (s : State) (k job out st res node : Nat) : State :=
  s.sticky .JOB_EVENTS_EV 0 k .JOB_EVENT_EN 0 k 0x0005 0xFFFF (k + 1)
    (argAt 16 job + argAt 18 out + argAt 20 st + argAt 21 res + argAt 22 node + argAt 24 (s.get .JOB_SW_SEQ))

/-- Entry `i` of the job table; one not listed is empty (16_boot_image.md R406). -/
def State.jobEntry (s : State) (i : Nat) : JobEntry := s.job.table.getD i ⟨0xFFFF, 0⟩

/-- The entry's arm flag and switch mark input (R406). -/
def JobEntry.arm (e : JobEntry) : Bool := e.flags.testBit 0
def JobEntry.start (e : JobEntry) : Bool := e.flags.testBit 1
def JobEntry.mark (e : JobEntry) : Nat := bits e.flags 2 2

/-- Job ID in a hamper's header. -/
def hamperJob (h : List Nat) : Nat := leAt h 8 2

/-- Pending banks of the job in NEXT are cancelled (R299). -/
def State.cancelBanks (s : State) (job : Nat) : State :=
  let drop (s : State) (f : Fld) (i : Nat) (mine : Bool) : State := if s.get f i == 1 && mine then s.set f i 0 else s
  let s := (List.range 256).foldl (fun s i => drop s .PIPE_H_BANK_STATE i
    (s.get .PIPE_H_MODE i == 1 && s.bankJob (i / 2) (i % 2) == job)) s
  let s := (List.range 16).foldl (fun s i => drop s .MRG_H_BANK_STATE i
    (s.get .MRG_H_MODE i == 1 && s.layJob (layBase (i / 2) (i % 2)) == job)) s
  (List.range 16).foldl (fun s i => drop s .REF_H_BANK_STATE i
    (s.get .REF_H_MODE i == 1 && s.cmpJob (i / 2) (i % 2) == job)) s

/-- The staged trigger records are cleared (R299). -/
def State.clearStaged (s : State) : State :=
  (List.range 128).foldl (fun s c => [Fld.JOB_TRIG_CFG_EN, .JOB_TRIG_CFG_MODE, .JOB_TRIG_CFG_ENC, .JOB_TRIG_CFG_ARM,
    .JOB_TRIG_CFG_MARK, .JOB_TRIG_CFG_INHIBIT, .JOB_TRIG_CFG_DEST, .JOB_TRIG_PITCH_INT, .JOB_TRIG_PITCH_FRAC,
    .JOB_TRIG_OFFSET].foldl (fun s f => s.set f c 0) s) s

/-- The fields of NEXT are those of an empty slot. -/
def State.nextClear (s : State) : State :=
  let s := [Fld.JOB_STATUS_NEXT_STATE, .JOB_STATUS_NEXT_STOP, .JOB_IDS_NEXT_ID, .JOB_HAMPERS_NEXT_HAMPER, .JOB_H_WANT,
    .JOB_H_IMMED, .PIPE_DEMAND_NEXT_CLK_PER_MS, .PIPE_DEMAND_NEXT_PCT, .REF_DEMAND_NEXT_DRAM, .REF_DEMAND_NEXT_RATE,
    .TSL_DEMAND_NEXT_ENC, .TSL_DEMAND_NEXT_DEC, .EGR_DEMAND_NEXT_CLASS_A, .EGR_DEMAND_NEXT_DRAM,
    .MEM_DEMAND_NEXT_DEMAND].foldl (fun s f => s.set f 0 0) s
  { s.set .JOB_H_ENTRY 0 256 with job := { s.job with next := [] } }

/-- Bytes of the refusal record held (R304). -/
def State.refuseRecord (s : State) : List Nat := (List.range 8).flatMap fun i => leBytes 4 (s.get .JOB_REFUSE i)

/-- Hold a refusal record (R304). -/
def State.setRefuse (s : State) (r : List Nat) : State :=
  (List.range 8).foldl (fun s i => s.set .JOB_REFUSE i (leAt r (4 * i) 4)) s

/-- The load of NEXT has ended: the `JOB_LOAD` or PREPARE that waits for it is answered, with the refusal record after
RANGE of an admission (R310, R311). -/
def State.loadEnded (s : State) (st : Status) (record : Bool) : State :=
  let data := if record then s.refuseRecord else []
  let w := s.job.waiting
  let p := s.job.prepare
  let s : State := { s with job := { s.job with waiting := none, prepare := none } }
  let s := match w with
    | some src => (if record then s.emit (.reply src 0x11 data) else s).answer src 0x11 st
    | none => s
  match p with
  | some (node, tag) => s.ctrlReply node tag 1 st data
  | none => s

/-- NEXT becomes EMPTY by a cancel or another selection (R299): its banks and staged records go, and a load that runs ends
with STATE (R311). -/
def State.cancelNext (s : State) : State :=
  let s := if s.nextState = nextEmpty then s else (s.cancelBanks (s.get .JOB_IDS_NEXT_ID)).clearStaged
  s.nextClear.loadEnded .state false

/-! ### What a job declares -/

/-- Declared highest frame rate in mHz and shortest line time in ns of a channel (13_storage_job_library.md R329). -/
def declared (h : List Nat) (c : Nat) : Nat × Nat :=
  match sectionOf h 1 0 with
  | some q => (leAt (sectionData h q) (16 + 8 * c) 4, leAt (sectionData h q) (20 + 8 * c) 4)
  | none => (0, 0)

/-- The ingress shadow of a channel in a hamper: its four register words. -/
def hamperShadow (h : List Nat) (c : Nat) : Option (List Nat) :=
  (sectionOf h 3 c).map fun q => (List.range 4).map fun i => leAt (sectionData h q) (4 * i) 4

/-- What admission reckons with for one channel that a job enables: its bank, declared rate and line time, and a frame of
the shape its shadow gives. -/
structure JobCtx where
  c : Nat
  b : Nat
  mhz : Nat
  ns : Nat
  f : Frame
  deriving DecidableEq, Repr

/-- A frame of the shape of a shadow. -/
def shadowFrame (c : Nat) (w : List Nat) : Frame :=
  { ch := c, tag := ⟨0, c, 0, 0, 0, 0, 0, 0, 0, 0⟩, fn := 0, exps := bits (w.getD 0 0) 2 2 + 1, dt := bits (w.getD 0 0) 8 6,
    width := bits (w.getD 1 0) 0 16, height := bits (w.getD 1 0) 16 16, fill := 0, lsMode := 0, begun := 0, ended := 0,
    got := 0, present := 0, next := [0, 0, 0, 0], condemned := 0, lines := [], missing := [], embedded := [], extra := 0,
    closed := false, work := ⟨none, false, false, [], [], [], [], 0, 0, false, false, false, 0, []⟩ }

/-- The contexts a job enables (R142): channels whose shadow has `EN` 1, with the bank of the job's ID. -/
def State.jobCtxs (s : State) (h : List Nat) : List JobCtx :=
  (List.range 128).filterMap fun c =>
    match hamperShadow h c, s.memberBank c (hamperJob h) with
    | some w, some b => if (w.getD 0 0).testBit 0 then
        some ⟨c, b, (declared h c).1, (declared h c).2, shadowFrame c w⟩ else none
    | _, _ => none

/-- The layout and comparison banks of a job: blanket and bank base. -/
def State.jobLayouts (s : State) (h : List Nat) : List (Nat × Nat) :=
  (List.range 8).filterMap fun k => ([0, 1].find? fun b =>
    s.layState k b != 0 && s.layJob (layBase k b) == hamperJob h).map fun b => (k, layBase k b)
def State.jobCmps (s : State) (h : List Nat) : List (Nat × Nat) :=
  (List.range 8).filterMap fun k => ([0, 1].find? fun b =>
    s.cmpState k b != 0 && s.cmpJob k b == hamperJob h).map fun b => (k, cmpBase k b)

/-- The highest declared frame rate among a blanket's members, in mHz (R221). -/
def State.blanketRate (s : State) (h : List Nat) (base : Nat) : Nat :=
  (List.range (s.layMembers base)).foldl (fun m i =>
    let c := s.layCtx base i
    if c < 128 then max m (declared h c).1 else m) 0

/-- Sum of a list of numbers. -/
def total (l : List Nat) : Nat := l.foldl (· + ·) 0

/-! ### Demands -/

/-- Demand of a context on the pipes (R142). -/
def State.pipeLoad (s : State) (x : JobCtx) : PipeLoad :=
  let sl := s.bankLines x.c x.b
  let r := s.radius x.c x.b
  if s.bankMux x.c x.b then ⟨1200000000, s.bankMask x.c x.b, none⟩
  else ⟨stripeDemand x.mhz x.f.exps x.f.height x.f.width sl r, s.bankMask x.c x.b,
    some (x.c / 4, (sl + 2 * r) * ceilDiv (lineBytes x.f.dt x.f.width) 32)⟩

/-- The first frame-mode context whose lines come too fast (R142): mask, clocks needed, clocks of a line. -/
def State.lineFail (s : State) (l : List JobCtx) : Option (Nat × Nat × Nat) :=
  (l.find? fun x => s.bankMux x.c x.b && decide (x.ns * 6 / 5 < x.f.exps * ceilDiv x.f.width 16)).map fun x =>
    (s.bankMask x.c x.b, x.f.exps * ceilDiv x.f.width 16, x.ns * 6 / 5)

/-- The merger quantities I and S of a job (R193). -/
def State.mrgDemand (s : State) (h : List Nat) : Nat × Nat :=
  let width (base m : Nat) : Nat :=
    let c := s.layCtx base m
    match s.memberBank c (hamperJob h) with
    | some b => match (s.rois (bankBase c b)).find? fun q => q.dest.testBit 0 with
      | some q => q.w
      | none => 0
    | none => 0
  (s.jobLayouts h).foldl (fun a q =>
    let r := s.mrgStore q.2 (width q.2)
    (a.1 + r.1, a.2 + r.2)) (0, 0)

/-- Blanket pixels of a job per second (R221). -/
def State.refRate (s : State) (h : List Nat) : Nat :=
  ceilDiv (total ((s.jobLayouts h).map fun q =>
    s.blanketRate h q.2 * (256 * ceilDiv (s.layU1 q.2 - s.layU0 q.2) 256) * s.layBh q.2)) 1000

/-- N of R222 for a blanket height. -/
def bandRows (bh : Nat) : Nat := ceilDiv (bh + 35) 64 + 1

/-- The layout of a blanket in a job. -/
def State.layoutOf (s : State) (h : List Nat) (k : Nat) : Option Nat := ((s.jobLayouts h).find? fun q => q.1 == k).map (·.2)

/-- The largest total of block lengths over `n` consecutive block rows taken cyclically (R222), in bytes. -/
def State.refBw (s : State) (slot n : Nat) : Nat :=
  let cols := s.refHdr slot 16 4
  let rows := s.refHdr slot 20 4
  let row := fun y => total ((List.range cols).map fun x => 64 * bits (s.refEntry slot x y) 32 16)
  let sums := (List.range rows).map row
  (List.range rows).foldl (fun m y => max m (total ((List.range n).map fun i => sums.getD ((y + i) % max 1 rows) 0))) 0

/-- Reference reads of a job in bytes per second (R222). -/
def State.refDram (s : State) (h : List Nat) : Nat :=
  ceilDiv (total ((s.jobCmps h).map fun q =>
    match s.layoutOf h q.1 with
    | none => 0
    | some lay =>
      let slot := s.get .REF_SLOT_BASE (s.par q.2 2 1)
      let n := bandRows (s.layBh lay)
      s.blanketRate h lay * (s.refBw slot n + 8 * n * s.refHdr slot 16 4))) 1000

/-- Encode demand of a job in samples per second (R248). -/
def State.encDemand (s : State) (h : List Nat) : Nat :=
  ceilDiv (total ((s.jobCmps h).map fun q =>
    match s.layoutOf h q.1 with
    | none => 0
    | some lay =>
      let cs := s.par q.2 3 1
      let tiles := (s.tileCols lay).length * (s.layBh lay / 256)
      let patch := 4096 * s.layPlanes lay + 4096 + 2048 * cs
      s.blanketRate h lay * (tiles * (65536 + 32768 * cs) + 2 * s.par q.2 32 2 * patch))) 1000

/-- Decode demand of a job in samples per second (R248). -/
def State.decDemand (s : State) (h : List Nat) : Nat :=
  ceilDiv (total ((s.jobCmps h).map fun q =>
    match s.layoutOf h q.1 with
    | none => 0
    | some lay =>
      let slot := s.get .REF_SLOT_BASE (s.par q.2 2 1)
      s.blanketRate h lay * bandRows (s.layBh lay) * s.refHdr slot 16 4 *
        (4096 + if s.refChroma slot then 2048 else 0))) 1000

/-- Tile columns times planes of a blanket in a job (R248). -/
def State.openOf (s : State) (h : List Nat) (k : Nat) : Nat :=
  match s.layoutOf h k, (s.jobCmps h).find? fun q => q.1 == k with
  | some lay, some q => (s.tileCols lay).length * (if s.par q.2 3 1 = 1 then 3 else 1)
  | _, _ => 0

/-- Tile states of both slots (R248). -/
def State.openDemand (s : State) (cur next : List Nat) : Nat :=
  total ((List.range 8).map fun k => 2 * max (s.openOf cur k) (s.openOf next k))

/-- A use that a job makes of a stream: stream, kind, and the largest delivery (R255, R275). -/
def State.jobUses (s : State) (h : List Nat) : List (Nat × Nat × Nat) :=
  let roi := (s.jobCtxs h).flatMap fun x =>
    ((s.rois (bankBase x.c x.b)).filter fun q => q.dest.testBit 1).map fun q =>
      let n := ([0, 1, 2, 3].filter fun c => q.planes.testBit c).length
      (q.stream, 4, q.w * q.h * n * (if s.on .EGR_STR_CFG_FORMAT q.stream then 1 else 2))
  let tap := (s.jobCtxs h).flatMap fun x =>
    let base := bankBase x.c x.b
    if s.par base 0x1290 1 != 0 && s.par base 0x1291 1 == 1 then
      [(s.par base 0x1296 2, 5, 64 + (s.tapRows base x.f).length * s.tapStride base x.f)] else []
  let cmp := (s.jobCmps h).flatMap fun q =>
    [(s.par q.2 36 2, 0, 123008), (s.par q.2 38 2, 1, 528), (s.par q.2 40 2, 2, 32), (s.par q.2 42 2, 3, 20120)].filter
      fun u => u.1 != 0
  roi ++ tap ++ cmp

/-- Class A rate declared on a port by the streams of a job and the port's drop stream, in MB/s (R275). -/
def State.classA (s : State) (h : List Nat) (p : Nat) : Nat :=
  let st := ((s.jobUses h).filter fun u => kindClass u.2.1 == 0 && s.strPort u.1 == p).map fun u => u.1
  let d := s.get .EGR_DROP_STREAM p
  total ((st ++ if d = 0 then [] else [d]).eraseDups.map fun x => s.get .EGR_STR_RATE_RATE_MBPS x)

/-- Class B offered on a port by a job's taps, in bytes per second: every `TAP_EVERY`th frame (R177, R268). -/
def State.tapOffered (s : State) (h : List Nat) (p : Nat) : Nat :=
  total ((s.jobCtxs h).map fun x =>
    let base := bankBase x.c x.b
    if s.par base 0x1290 1 != 0 && s.par base 0x1291 1 == 1 && s.strPort (s.par base 0x1296 2) == p then
      ceilDiv (x.mhz * (64 + 64 + (s.tapRows base x.f).length * s.tapStride base x.f)) (1000 * max 1 (s.par base 0x1294 2))
    else 0)

/-- Class B offered on a port by a job, in bytes per second (R268, R275). -/
def State.classB (s : State) (h : List Nat) (p : Nat) : Nat :=
  ceilDiv (total ((s.jobCtxs h).map fun x =>
    x.mhz * total (((s.rois (bankBase x.c x.b)).filter fun q => q.dest.testBit 1 && s.strPort q.stream == p).map fun q =>
      let n := ([0, 1, 2, 3].filter fun c => q.planes.testBit c).length
      q.w * q.h * n * (if s.on .EGR_STR_CFG_FORMAT q.stream then 1 else 2) + 64))) 1000 + s.tapOffered h p

/-- Retry-buffer traffic of a job in bytes per second (R268). -/
def State.egrDram (s : State) (h : List Nat) : Nat :=
  if h.isEmpty then 0
  else 2 * total ((List.range s.portCount).map fun p =>
    min ((s.portUsable p).1 * 1000000 / (s.portUsable p).2) (s.classA h p * 1000000 + s.classB h p))

/-- Frame-store traffic of a job in bytes per second (14_memory_subsystem.md R358). -/
def State.storeDram (s : State) (h : List Nat) : Nat :=
  ceilDiv (total ((s.jobCtxs h).map fun x =>
    2 * x.mhz * (x.f.exps - 1) * x.f.height * lineBytes x.f.dt x.f.width)) 1000

/-- Replay traffic: the paced sources that run (R358). -/
def State.playDram (s : State) : Nat :=
  total ((List.range 4).map fun k =>
    let ns := s.get .ING_PLAY_LINE_TIME_LINE_TIME_NS k
    let a := s.recAddr k (s.get .ING_PLAY_H_INDEX k)
    if ns = 0 || s.get .ING_PLAY_STATUS_STATE k = 0 then 0
    else ceilDiv (1000000000 * lineBytes (s.recField a 36 1) (s.recField a 32 2)) ns)

/-- Storage read rate in bytes per second (13_storage_job_library.md R341). -/
def State.storageRate (s : State) : Nat := if s.on .STO_GEOM_QLC then 12000000000 else 14000000000

/-- Memory demand D in bytes per second (R358). -/
def State.memDemand (s : State) (cur next : List Nat) : Nat :=
  s.refDram cur + s.refDram next + s.storeDram cur + s.storeDram next + max (s.egrDram cur) (s.egrDram next) + s.playDram +
    s.get .STO_CFG0_LOAD_PCT * s.storageRate / 100 + s.get .MEM_CFG_MGT_RESERVE * 100000000

/-- Sustained memory bandwidth in bytes per second by data rate (R347), 79.8 % of the peak. -/
def State.memBs (s : State) : Nat :=
  match s.get .MEM_STATUS_RATE with
  | 64 => 163400000000 | 75 => 191500000000 | 85 => 217900000000 | 96 => 245000000000 | _ => 0

/-- Memory capacity for admission (R358). -/
def State.memCapacity (s : State) : Nat :=
  let c := s.memBs * s.get .MEM_CFG_ADMIT_PCT / 100
  if s.on .MEM_STATUS_ECC_INLINE then c * 1000 / 1125 else c

/-! ### Admission -/

/-- A check of admission that fails: resource code, instance, demand, capacity (R304). -/
abbrev Refuse := Nat × Nat × Nat × Nat

/-- The first failure among pipes, over the sets of pipes to be taken away (R143, R145). -/
def State.pipeAdmit (s : State) (h : List Nat) (less : List (List Nat)) : Option Refuse :=
  let l := s.jobCtxs h
  match s.lineFail l with
  | some (m, d, c) => some (1, m, d, c)
  | none =>
    let loads := l.map s.pipeLoad
    match less.findSome? fun w => s.pipeRateFail w loads with
    | some (m, d, c) => some (1, m, d, c)
    | none => match s.stripeFitFail (fun n => s.get .ING_QUEUE_HWM n) loads with
      | some (n, d, c) => some (2, n, d, c)
      | none => none

/-- Pipes that an admission must do without (R143): the one under test; at an arm the fenced ones too (R147), and each pipe in
turn while the rolling test runs by itself (R145). -/
def State.pipesLess (s : State) (arm : Bool) : List (List Nat) :=
  let roll := match s.rollPipe with | some p => [p] | none => []
  let fenced := (List.range 8).filter fun p => s.on .PIPE_CTRL_FENCE p
  if !arm then [roll]
  else if s.on .PIPE_ROLL_CTRL_AUTO && s.get .PIPE_ROLL_STATUS_STATE != 0 then (List.range 8).map fun p => p :: fenced
  else [roll ++ fenced]

/-- The streams' checks (R275), in ascending order within each resource. -/
def State.egrAdmit (s : State) (cur next : List Nat) : Option Refuse :=
  let uses := s.jobUses next
  let order := (List.range 256).flatMap fun st => uses.filter fun u => u.1 == st
  let bad := order.find? fun u =>
    let k := s.get .EGR_STR_CFG_KIND u.1
    !s.on .EGR_STR_CFG_EN u.1 || k != u.2.1 ||
      ((k == 0 || k == 3) && s.get .TSL_PROF_H_CTRL (s.get .EGR_STR_CFG_PROFILE u.1) % 4 != kindClass k)
  match bad with
  | some u => some (10, u.1, 0, 0)
  | none =>
    match order.find? fun u => decide (s.get .EGR_STR_SLOT_BYTES u.1 < 64 + u.2.2) with
    | some u => some (11, u.1, 64 + u.2.2, s.get .EGR_STR_SLOT_BYTES u.1)
    | none =>
      let ports := List.range s.portCount
      let largest (p : Nat) : Nat := ((uses.filter fun u => kindClass u.2.1 == 1 && s.strPort u.1 == p).map fun u =>
        u.2.2).foldl max 0
      match ports.find? fun p => decide (s.classSize p 1 < largest p) with
      | some p => some (12, p, largest p, s.classSize p 1)
      | none =>
        let a (p : Nat) : Nat := max (s.classA cur p) (s.classA next p) * 1000000
        let cap (p : Nat) : Nat := s.get .EGR_CLASS_SHARE_SHARE_A p * (s.portUsable p).1 * 10000 / (s.portUsable p).2
        match ports.find? fun p => decide (cap p < a p) with
        | some p => some (13, p, a p, cap p)
        | none => none

/-- A slot holds an image of the wanted bytes' digest (R303 step 6). -/
def State.slotHolds (s : State) (sl len : Nat) (digest : List Nat) : Bool :=
  s.get .REF_SLOT_CTRL_STATE sl == 2 && !s.slotUsed sl &&
    sectionDigest (s.memBytes (s.get .REF_SLOT_BASE sl) len) == digest

/-- The reference slot that the job loads into: the one that CURRENT's comparison banks do not name; where they name none,
the one that holds the image already, or the first not in use. -/
def State.spareSlot (s : State) (len : Nat) (digest : List Nat) : Nat :=
  let named := (if s.jobRuns then s.jobCmps s.job.cur else []).map fun q => s.par q.2 2 1
  if named.contains 0 then 1 else if named.contains 1 then 0
  else if s.slotHolds 1 len digest then 1 else if s.slotUsed 0 then 1 else 0

/-- Admission of the job in NEXT beside the one in CURRENT (R304): the checks in the order of the table. `arm` says that it
runs at an arm. -/
def State.admission (s : State) (arm : Bool) : Option Refuse :=
  let cur := if s.jobRuns then s.job.cur else []
  let next := s.job.next
  let m := s.mrgDemand next
  let mc := s.mrgDemand cur
  let store := if arm && !cur.isEmpty then mc.1 + m.1 + max mc.2 m.2 else 2 * m.1 + m.2
  let rate := s.refRate cur + s.refRate next
  let ref := sectionOf next 7 0
  let named := (s.jobCmps next).map fun q => s.par q.2 2 1
  let slot := if named.isEmpty && (sectionsOf next).any (fun q => q.type == 6) then
      [s.spareSlot (match ref with | some q => q.len | none => 0) (match ref with | some q => q.digest | none => [])]
    else named
  let size := match s.refObj? (match sectionOf next 7 0 with | some q => q.digest | none => []) with
    | some r => r.bytes.length
    | none => match sectionOf next 7 0 with | some q => q.len | none => 0
  let slotBytes (sl : Nat) : Nat := s.get .REF_SLOT_SIZE_SIZE_MIB sl * 2 ^ 20
  if s.on .JOB_STATUS_NEXT_STOP then none
  else match s.pipeAdmit next (s.pipesLess arm) with
    | some r => some r
    | none =>
      if 8388608 < store then some (3, 0xFFFF, store, 8388608)
      else if 144000000000 < rate then some (4, 0xFFFF, rate, 144000000000)
      else match slot.find? fun sl => decide (slotBytes sl < size) with
        | some sl => some (5, sl, size, slotBytes sl)
        | none =>
          let enc := s.encDemand cur + s.encDemand next
          let dec := s.decDemand cur + s.decDemand next
          let opn := s.openDemand cur next
          let mem := s.memDemand cur next
          if 230400000000 < enc then some (6, 0xFFFF, enc, 230400000000)
          else if 307200000000 < dec then some (7, 0xFFFF, dec, 307200000000)
          else if 7680 < opn then some (8, 0xFFFF, opn, 7680)
          else if s.memCapacity < mem then some (9, 0xFFFF, mem, s.memCapacity)
          else s.egrAdmit cur next

/-- The 32-byte refusal record (R304). -/
def refuseBytes (r : Refuse) (occasion job hamper node : Nat) : List Nat :=
  [r.1, occasion] ++ leBytes 2 job ++ leBytes 4 r.2.1 ++ leBytes 8 r.2.2.1 ++ leBytes 8 r.2.2.2 ++ leBytes 2 hamper ++
    [node, 0, 0, 0, 0, 0]

/-- An admission fails: its record is held, counted and `ADMIT_REFUSED` set (R304, R314). -/
def State.refused (s : State) (r : Refuse) (occasion : Nat) : State :=
  let job := s.get .JOB_IDS_NEXT_ID
  ((s.setRefuse (refuseBytes r occasion job (s.get .JOB_HAMPERS_NEXT_HAMPER) 0xFF)).inc .JOB_CNT_REFUSED).jobEvent 2 job
    (s.get .JOB_OUT_ID) (statusCode .range) r.1 0xFF

/-- `a / b` to the nearest whole number. -/
def nearestDiv (a b : Nat) : Nat := (a + b / 2) / b

/-- The demand registers show what the last admission of NEXT reckoned. DEDUCED: figures in a unit are rounded to the
nearest, as the manual's figures for the carton line are. -/
def State.showDemand (s : State) : State :=
  let h := s.job.next
  let cur := if s.jobRuns then s.job.cur else []
  let d := total ((s.jobCtxs h).map fun x => (s.pipeLoad x).demand)
  let m := s.mrgDemand h
  let mc := s.mrgDemand cur
  let a := total ((List.range s.portCount).map fun p => s.classA h p)
  let sets : List (Fld × Nat) := [(.PIPE_DEMAND_NEXT_CLK_PER_MS, d / 1000), (.PIPE_DEMAND_NEXT_PCT, ceilDiv (d * 100) 9600000000),
    (.REF_DEMAND_NEXT_DRAM, nearestDiv (s.refDram h) 100000000), (.REF_DEMAND_NEXT_RATE, nearestDiv (s.refRate h) 10000000),
    (.TSL_DEMAND_NEXT_ENC, nearestDiv (s.encDemand h) 100000000), (.TSL_DEMAND_NEXT_DEC, nearestDiv (s.decDemand h) 100000000),
    (.EGR_DEMAND_NEXT_CLASS_A, nearestDiv a 10), (.EGR_DEMAND_NEXT_DRAM, nearestDiv (s.egrDram h) 100000000),
    (.MEM_DEMAND_NEXT_DEMAND, nearestDiv (s.memDemand cur h) 100000000), (.TSL_OPEN_ADMITTED, s.openDemand cur h),
    (.MRG_STORE_RESERVED_KIB, (if cur.isEmpty then 2 * m.1 + m.2 else mc.1 + m.1 + max mc.2 m.2) / 1024)]
  sets.foldl (fun s q => s.set q.1 0 q.2) s

/-! ### The switch -/

/-- A staged trigger record takes effect and re-arms its generator (R306); `pos` and `time` are the edge's. -/
def State.loadTrig (s : State) (pos time c : Nat) : State :=
  let get := fun f => s.get f c
  let mode := get .JOB_TRIG_CFG_MODE
  let enc := get .JOB_TRIG_CFG_ENC
  let off := get .JOB_TRIG_OFFSET
  let same := s.on .SYN_CH_TRIG_CFG_EN c && s.on .SYN_CH_STATUS_ARMED c && s.get .SYN_CH_H_AMODE c == mode &&
    (mode == 1 || s.get .SYN_CH_H_AENC c == enc)
  let old := s.get .SYN_CH_H_NEXT c
  let new := if mode = 0 then (pos + off) % 2 ^ 48 * 65536 else (time + off) * 65536
  let later := if mode = 0 then decide ((old + 2 ^ 64 - new) % 2 ^ 64 < 2 ^ 63) else decide (new ≤ old)
  let nxt := if same && later then old else new
  let regs : List (Fld × Nat) := [(.SYN_CH_TRIG_CFG_MODE, mode), (.SYN_CH_TRIG_CFG_ENC, enc),
    (.SYN_CH_TRIG_CFG_ARM, get .JOB_TRIG_CFG_ARM), (.SYN_CH_TRIG_CFG_MARK, get .JOB_TRIG_CFG_MARK),
    (.SYN_CH_TRIG_CFG_INHIBIT, get .JOB_TRIG_CFG_INHIBIT), (.SYN_CH_TRIG_CFG_DEST, get .JOB_TRIG_CFG_DEST),
    (.SYN_CH_PITCH_INT, get .JOB_TRIG_PITCH_INT), (.SYN_CH_PITCH_FRAC, get .JOB_TRIG_PITCH_FRAC), (.SYN_CH_OFFSET, off),
    (.SYN_CH_H_PITCH, get .JOB_TRIG_PITCH_INT * 65536 + get .JOB_TRIG_PITCH_FRAC), (.SYN_CH_H_HASPITCH, 1)]
  let arms : List (Fld × Nat) := [(.SYN_CH_TRIG_CFG_EN, 1), (.SYN_CH_H_AMODE, mode), (.SYN_CH_H_AENC, enc),
    (.SYN_CH_H_NEXT, nxt), (.SYN_CH_STATUS_ARMED, 1)]
  let s' := regs.foldl (fun s q => s.set q.1 c q.2) s
  if s.on .JOB_TRIG_CFG_EN c then arms.foldl (fun s q => s.set q.1 c q.2) s' else s'.trigDisable c

/-- The record of a job switch (17_roles_security_audit.md R430, R432): in one of the 16 places that only switch records
use; where it cannot be made, the loss is counted and reported. -/
def State.switchRecord (s : State) (job out seq time : Nat) : State :=
  let n := (s.sec.queue.filter fun q => q.isSwitch).length
  if 16 ≤ n || s.on .STO_H_READONLY || s.ringHeld then
    (s.inc .SEC_CNT_AUDIT_REFUSED).secEvent 3 0 3 0xFF
  else
    let r : AuditRec := ⟨.device, 7, 0, 7, job, leBytes 2 out ++ List.replicate 14 0,
      leBytes 4 seq ++ leBytes 8 time ++ [0, 0, 0, 0]⟩
    { s with sec := { s.sec with queue := s.sec.queue ++ [⟨r, ⟨.mgt, 0⟩, none, true⟩] } }

/-- The switch edge (R306, R307): mark input, recorded position and time. NEXT becomes CURRENT, the generators take the
staged records, every channel waits for its first frame of the new job, and the switch is recorded. -/
def State.jobSwitch (s : State) (m pos time : Nat) : State :=
  let stop := s.on .JOB_STATUS_NEXT_STOP
  let out := if s.jobRuns then s.get .JOB_IDS_CUR_ID else 0
  let job := s.get .JOB_IDS_NEXT_ID
  let next := s.job.next
  let hamper := s.get .JOB_HAMPERS_NEXT_HAMPER
  let wasOn := fun c => s.on .ING_CH_H_EN c
  let s := if stop then (List.range 128).foldl (fun s c => s.trigDisable c) s
    else (List.range 128).foldl (fun s c => s.loadTrig pos time c) s
  let s := if stop then s else (List.range 128).foldl (fun s c =>
    let s := s.set .JOB_H_SWPEND c 1
    if (hamperShadow next c).isSome || wasOn c then s.set .ING_CH_H_SWITCH c 1 else s) s
  let dem : List (Fld × Fld) := [(.PIPE_DEMAND_CUR_CLK_PER_MS, .PIPE_DEMAND_NEXT_CLK_PER_MS),
    (.PIPE_DEMAND_CUR_PCT, .PIPE_DEMAND_NEXT_PCT), (.REF_DEMAND_CUR_DRAM, .REF_DEMAND_NEXT_DRAM),
    (.REF_DEMAND_CUR_RATE, .REF_DEMAND_NEXT_RATE), (.TSL_DEMAND_CUR_ENC, .TSL_DEMAND_NEXT_ENC),
    (.TSL_DEMAND_CUR_DEC, .TSL_DEMAND_NEXT_DEC), (.EGR_DEMAND_CUR_CLASS_A, .EGR_DEMAND_NEXT_CLASS_A),
    (.EGR_DEMAND_CUR_DRAM, .EGR_DEMAND_NEXT_DRAM), (.MEM_DEMAND_CUR_DEMAND, .MEM_DEMAND_NEXT_DEMAND)]
  let s := dem.foldl (fun s q => s.set q.1 0 (s.get q.2)) s
  let seq := s.get .JOB_SW_SEQ + 1
  let s := s.nextClear
  let sets : List (Fld × Nat) := [(.JOB_STATUS_CUR_STATE, if stop then 0 else 1), (.JOB_IDS_CUR_ID, job),
    (.JOB_HAMPERS_CUR_HAMPER, if stop then 0 else hamper), (.JOB_STATUS_DRAINING, if out = 0 then 0 else 1),
    (.JOB_OUT_ID, out), (.JOB_SW_TIME, time), (.JOB_SW_POS, pos), (.JOB_STATUS_SW_MARK, m), (.JOB_SW_SEQ, seq),
    (.REF_H_SWPOS, pos), (.JOB_H_SWEDGE, s.elapsed)]
  let s := sets.foldl (fun s q => s.set q.1 0 q.2) s
  let s : State := { s with job := { s.job with cur := if stop then [] else next, peers := [] } }
  (s.jobEvent 0 job out 0 0 0xFF).switchRecord job out (s.get .JOB_SW_SEQ) time

/-- An accepted edge of mark `m` at `time`, position `pos`, is the switch edge of an ARMED NEXT (R305). -/
def State.switchEdge (s : State) (m time : Nat) : Bool :=
  s.nextState == nextArmed && s.get .JOB_STATUS_SW_MARK == m && decide (s.get .JOB_H_ARMCLK < s.get .SYN_H_CLK) &&
    decide (s.get .JOB_ARM_TIME ≤ time)

/-! ### Arming -/

/-- The staged pitches lie in the range of their modes (04_sync_and_tagging.md R101). -/
def State.stagedPitchOk (s : State) : Bool :=
  s.on .JOB_STATUS_NEXT_STOP || (List.range 128).all fun c => !s.on .JOB_TRIG_CFG_EN c ||
    pitchOk (s.get .JOB_TRIG_CFG_MODE c) (s.get .JOB_TRIG_PITCH_INT c * 65536 + s.get .JOB_TRIG_PITCH_FRAC c)

/-- NEXT is armed (R299, R305), or the arm is refused: with STATE when NEXT is not LOADED, the mark input is not enabled or
an immediate arm meets a running CURRENT; with RANGE when admission fails. -/
def State.armNext (s : State) (m : Nat) (immediate : Bool) (tarm : Nat) : State × Status :=
  if s.nextState ≠ nextLoaded || (immediate && s.jobRuns) || (!immediate && !s.markOn m) then (s, .state)
  else if !s.stagedPitchOk then (s, .range)
  else match s.admission true with
    | some r => (s.refused r 1, .range)
    | none =>
      let s := if s.on .JOB_STATUS_NEXT_STOP then s else s.showDemand
      let s := (((s.set .JOB_STATUS_NEXT_STATE 0 nextArmed).set .JOB_STATUS_SW_MARK 0 m).set .JOB_H_ARMCLK 0 (s.get .SYN_H_CLK)).set
        .JOB_ARM_TIME 0 tarm
      if immediate then (s.jobSwitch m (s.get .SYN_ENC_POS (s.get .SYN_MARK_CFG_ENC m)) s.now, .ok) else (s, .ok)

/-- NEXT becomes a stop that is LOADED: job ID 0 (R298). -/
def State.loadStop (s : State) : State :=
  ((s.nextClear.set .JOB_STATUS_NEXT_STATE 0 nextLoaded).set .JOB_STATUS_NEXT_STOP 0 1)

/-! ### Followers (R309, R310, R385) -/

/-- A job message (R310). -/
def jobMessage (op m job hamper tarm : Nat) : List Nat :=
  [op, m] ++ leBytes 2 job ++ leBytes 2 hamper ++ [0, 0] ++ leBytes 8 tarm ++ List.replicate 16 0

/-- The node ID that a UID holds. -/
def State.nodeOf (s : State) (uid : Nat) : Option Nat :=
  (s.fab.table.find? fun e => e.uid == uid && decide (e.id < 64)).map (·.id)

/-- The UID that holds a node ID; 0 when none does. -/
def State.uidOf (s : State) (node : Nat) : Nat := ((s.fab.table.find? fun e => e.id == node).map (·.uid)).getD 0

/-- A message to one follower, whose answer is awaited; one that cannot be resolved does not answer. -/
def State.peerSend (s : State) (uid op : Nat) (data : List Nat) : State :=
  let others := s.job.peers.filter fun q => q.uid != uid
  match s.nodeOf uid with
  | none => { s with job := { s.job with peers := others ++ [⟨uid, op, 253, 0, false, none⟩] } }
  | some node =>
    match s.ctrlSend node 1 data with
    | (s, some tag) => { s with job := { s.job with peers := others ++ [⟨uid, op, node, tag, true, none⟩] } }
    | (s, none) => { s with job := { s.job with peers := others ++ [⟨uid, op, node, 0, false, some .busy⟩] } }

/-- A message to every listed follower. -/
def State.leaderSend (s : State) (op : Nat) (data : List Nat) : State :=
  if s.isLeader then s.job.followers.foldl (fun s u => s.peerSend u op data) s else s

/-- The arming time a leader chooses (R309): midway between expected marks and at least the lead ahead. -/
def State.chooseTarm (s : State) (m : Nat) : Nat :=
  let least := s.now + s.get .JOB_CFG_ARM_LEAD_MS * 1000000
  let i := s.get .JOB_H_INTERVAL m
  let t0 := s.get .JOB_H_MARKTIME m + i / 2
  if i = 0 then least else if least ≤ t0 then t0 else t0 + ceilDiv (least - t0) i * i

/-- The leader cancels: its NEXT is EMPTY and every follower gets CANCEL (R309). -/
def State.leaderCancel (s : State) : State :=
  let job := s.get .JOB_IDS_NEXT_ID
  let h := s.get .JOB_HAMPERS_NEXT_HAMPER
  let s := if s.nextState = nextEmpty then s else s.cancelNext
  s.leaderSend 3 (jobMessage 3 0 job h 0)

/-- Arming that was requested takes place (R301, R305, R309): at once on a device without followers to wait for, else when
every follower has answered OK; the leader then sends ARM. -/
def State.tryArm (s : State) : State :=
  if s.nextState ≠ nextLoaded || !s.on .JOB_H_WANT then s
  else
    let m := s.get .JOB_H_MARK
    let immed := s.on .JOB_H_IMMED
    let job := s.get .JOB_IDS_NEXT_ID
    let h := s.get .JOB_HAMPERS_NEXT_HAMPER
    let ready := s.job.peers.all fun p => p.op == 1 && p.answer == some .ok
    if s.isLeader && !immed && !ready then s
    else
      let tarm := if s.isLeader && !s.job.followers.isEmpty then s.chooseTarm m else s.now
      let peers := s.job.peers
      match s.armNext m immed tarm with
      | (s, .ok) =>
        if s.isLeader then
          let s : State := { s with job := { s.job with peers := peers } }
          if immed then s else s.leaderSend 2 (jobMessage 2 m job h tarm)
        else s
      | (s, _) => if s.isLeader && !s.job.followers.isEmpty then s.leaderCancel else s

/-! ### Selection and loading -/

/-- What `JOB_SEL_LATCH` keeps of a fabric message: operation, job ID, hamper, switch mark input and arming time (R310). -/
structure FabSel where
  op : Nat
  job : Nat
  hamper : Nat
  mark : Nat
  tarm : Nat
  deriving DecidableEq, Repr

/-- A selection or fabric message is held in `JOB_SEL_LATCH` (R11, R299): the newest replaces an older one, which is counted
and reported. -/
def State.latchSel (s : State) (source i : Nat) (m : FabSel) : State :=
  let s := if s.on .JOB_SEL_LATCH_VALID then
      (s.inc .JOB_CNT_REPLACED).jobEvent 3 (s.get .JOB_IDS_NEXT_ID) (s.get .JOB_OUT_ID) 0 0 0xFF else s
  let sets : List (Fld × Nat) := [(.JOB_SEL_LATCH_INDEX, i), (.JOB_SEL_LATCH_SOURCE, source), (.JOB_SEL_LATCH_VALID, 1),
    (.JOB_H_LATCHO, m.op), (.JOB_H_LATCHJ, m.job), (.JOB_H_LATCHH, m.hamper), (.JOB_H_LATCHM, m.mark), (.JOB_H_LATCHT, m.tarm)]
  sets.foldl (fun s q => s.set q.1 0 q.2) s

/-- NEXT begins LOADING a hamper (R299, R303); its work is done when `JOB_LOAD_DONE` comes. A leader sends PREPARE for a
selection. -/
def State.startLoad (s : State) (h : Hamper) (entry m : Nat) (want immed : Bool) : State :=
  let job := hamperJob h.image
  let sets : List (Fld × Nat) := [(.JOB_STATUS_NEXT_STATE, nextLoading), (.JOB_STATUS_NEXT_STOP, 0),
    (.JOB_IDS_NEXT_ID, job), (.JOB_HAMPERS_NEXT_HAMPER, h.num), (.JOB_H_ENTRY, entry), (.JOB_H_WANT, want.toNat),
    (.JOB_H_IMMED, immed.toNat), (.JOB_H_MARK, m)]
  let s := sets.foldl (fun s q => s.set q.1 0 q.2) s
  let s : State := { s with job := { s.job with next := h.image, peers := [] } }
  if entry < 256 then s.leaderSend 1 (jobMessage 1 m job h.num 0) else s

/-- A load has failed before it began, or fails (R299, R314). -/
def State.loadFail (s : State) (st : Status) : State :=
  (s.inc .JOB_CNT_LOAD_FAIL).jobEvent 1 (s.get .JOB_IDS_NEXT_ID) (s.get .JOB_OUT_ID) (statusCode st) 0 0xFF

/-- A selection of index `i` has the first outcome of R301 that applies. `source` is 0 pins, 1 host, 2 fabric. -/
def State.selectJob (s : State) (source i : Nat) (immed : Bool) : State × Status :=
  let e := s.jobEntry i
  let s := (s.set .JOB_SEL_LATCH_INDEX 0 i).set .JOB_SEL_LATCH_SOURCE 0 source
  match s.hamper? e.hamper with
  | none => (s.loadFail .range, .range)
  | some h =>
    let mine := s.get .JOB_H_ENTRY == i && s.nextState != nextEmpty
    if s.jobRuns && hamperJob h.image == s.get .JOB_IDS_CUR_ID then
      ((if s.nextState = nextEmpty then s else if s.isLeader then s.leaderCancel else s.cancelNext), .ok)
    else if mine && s.nextState == nextArmed then (s.inc .JOB_CNT_REPEAT, .ok)
    else if mine then ((s.set .JOB_H_WANT 0 1).tryArm, .ok)
    else
      let s := if s.nextState = nextEmpty then s else if s.isLeader then s.leaderCancel else s.cancelNext
      if s.on .JOB_STATUS_DRAINING then (s.latchSel source i ⟨1, 0, 0, e.mark, 0⟩, .ok)
      else if hamperJob h.image = 0 then (s.loadFail .range, .range)
      else (s.startLoad h i e.mark (e.arm || immed) immed, .ok)

/-- A hamper that a fabric message names is loaded, without arming (R310). -/
def State.prepareJob (s : State) (m job num : Nat) : State × Status :=
  match s.hamper? num with
  | none => (s.loadFail .range, .range)
  | some h =>
    if hamperJob h.image ≠ job || job = 0 then (s, .range)
    else if s.jobRuns && s.get .JOB_IDS_CUR_ID == job then (s, .state)
    else if s.get .JOB_HAMPERS_NEXT_HAMPER == num && (s.nextState == nextLoading || s.nextState == nextLoaded) &&
        !s.on .JOB_STATUS_NEXT_STOP then (s, .ok)
    else
      let s := if s.nextState = nextEmpty then s else s.cancelNext
      if s.on .JOB_STATUS_DRAINING then (s.latchSel 2 0 ⟨1, job, num, m, 0⟩, .ok) else (s.startLoad h 256 m false false, .ok)

/-- An ARM message is served (R310): job ID 0 means stop; TIMEOUT when the arming time lies less than 100 µs ahead. The last
part of the answer says that admission fails. -/
def State.armMessage (s : State) (m job tarm : Nat) : State × Status × Bool :=
  if tarm < s.now + 100000 then (s, .timeout, false)
  else if job = 0 then
    if !s.jobRuns || s.nextState ≠ nextEmpty then (s, .state, false)
    else match s.loadStop.armNext m false tarm with
      | (t, .ok) => (t, .ok, false)
      | (_, _) => (s, .state, false)
  else if s.get .JOB_IDS_NEXT_ID ≠ job then (s, .state, false)
  else
    let full := s.nextState == nextLoaded && s.stagedPitchOk && (s.admission true).isSome
    match s.armNext m false tarm with
    | (s, st) => (s, st, full && st == .range)

/-- A CANCEL message is served (R310): STATE when it comes after the switch edge. -/
def State.cancelMessage (s : State) (job : Nat) : State × Status :=
  if s.nextState ≠ nextEmpty then (s.cancelNext, .ok)
  else if s.jobRuns && s.get .JOB_IDS_CUR_ID == job && job != 0 then (s, .state) else (s, .ok)

/-- The firmware serves no selection: the management complex is away, or settings are not yet reapplied
(21_register_map.md R517). -/
def State.mgtAbsent (s : State) : Bool := s.on .BOOT_H_AWAY || !s.on .BOOT_H_SETTLED

/-- The held selection is served (R11, R299, R465). -/
def State.serveLatch (s : State) : State :=
  let fab := s.get .JOB_SEL_LATCH_SOURCE == 2
  let op := if fab then s.get .JOB_H_LATCHO else 1
  if !s.on .JOB_SEL_LATCH_VALID || s.mgtAbsent || (op == 1 && s.on .JOB_STATUS_DRAINING) then s
  else
    let s := s.set .JOB_SEL_LATCH_VALID 0 0
    let m := s.get .JOB_H_LATCHM
    let job := s.get .JOB_H_LATCHJ
    if fab then
      if op = 2 then (s.armMessage m job (s.get .JOB_H_LATCHT)).1
      else if op = 3 then (s.cancelMessage job).1
      else match s.prepareJob m job (s.get .JOB_H_LATCHH) with
        | (s, .ok) => if s.nextState = nextLoaded then s.loadEnded .ok false else s
        | (s, st) => s.loadEnded st false
    else (s.selectJob (s.get .JOB_SEL_LATCH_SOURCE) (s.get .JOB_SEL_LATCH_INDEX) false).1

/-- Selections from pins and fabric are held while `ING`, `SYN` or `MRG` is under test (19_self_test.md R465). -/
def State.selHeld (s : State) : Bool := s.inTest 8 || s.inTest 9 || s.inTest 10

/-! ### Loading (R303) -/

/-- Words of a channel's ingress shadow are written, without `APPLY` (R76). -/
def State.putShadow (s : State) (c : Nat) (w : List Nat) : State :=
  let g := fun i lo n => bits (w.getD i 0) lo n
  let sets : List (Fld × Nat) := [(.ING_CH_CFG_EN, g 0 0 1), (.ING_CH_CFG_LS_MODE, g 0 1 1), (.ING_CH_CFG_EXPOSURES, g 0 2 2),
    (.ING_CH_CFG_DT, g 0 8 6), (.ING_CH_SIZE_WIDTH, g 1 0 16), (.ING_CH_SIZE_HEIGHT, g 1 16 16), (.ING_CH_FILL, g 2 0 20),
    (.ING_CH_TIMEOUT_FRAME_TIMEOUT_US, g 3 0 24)]
  sets.foldl (fun s q => s.set q.1 c q.2) s

/-- A trigger record is staged. -/
def State.putTrig (s : State) (c : Nat) (w : List Nat) : State :=
  let g := fun lo n => bits (w.getD 0 0) lo n
  let sets : List (Fld × Nat) := [(.JOB_TRIG_CFG_EN, g 0 1), (.JOB_TRIG_CFG_MODE, g 1 1), (.JOB_TRIG_CFG_ENC, g 2 2),
    (.JOB_TRIG_CFG_ARM, g 4 1), (.JOB_TRIG_CFG_MARK, g 5 2), (.JOB_TRIG_CFG_INHIBIT, g 7 1), (.JOB_TRIG_CFG_DEST, g 8 2),
    (.JOB_TRIG_PITCH_INT, w.getD 1 0), (.JOB_TRIG_PITCH_FRAC, w.getD 2 0), (.JOB_TRIG_OFFSET, w.getD 3 0)]
  sets.foldl (fun s q => s.set q.1 c q.2) s

/-- A state and the first status that is not OK. -/
abbrev Try := State × Status

/-- Go on with a step while all went well. -/
def Try.andThen (t : Try) (g : State → Try) : Try := if t.2 = .ok then g t.1 else t

/-- Step 2 of R303 for one context. -/
def State.loadCtx (s : State) (c : Nat) (data : List Nat) : Try :=
  let s := match s.pendingBank c with
    | some b => s.set .PIPE_H_BANK_STATE (2 * c + b) 0
    | none => s
  let b := s.commitBank c
  if s.bankState c b ≠ 0 then (s, .state)
  else
    let s := s.putBytes (bankBase c b) data
    if s.ctxGoCheck c false = .ok then (effCtxGo c 1 false ⟨.mgt, 0⟩ s, .ok) else (s, s.ctxGoCheck c false)

/-- Steps 3 and 4 of R303 for one channel. -/
def State.loadChannel (s : State) (h : List Nat) (c : Nat) : Try :=
  let trig := match sectionOf h 4 c with
    | some q => (List.range 4).map fun i => leAt (sectionData h q) (4 * i) 4
    | none => [0, 0, 0, 0]
  let s := s.putTrig c trig
  match hamperShadow h c with
  | some w =>
    let s := s.putShadow c w
    if s.on .ING_CH_CFG_EN c && s.applyBad c then (s, .range) else (s, .ok)
  | none => (if s.on .ING_CH_H_EN c then s.set .ING_CH_CFG_EN c 0 else s, .ok)

/-- Step 5 of R303 for a layout bank. -/
def State.loadLayout (s : State) (k : Nat) (data : List Nat) : Try :=
  let s := match s.layPending k with
    | some b => s.set .MRG_H_BANK_STATE (2 * k + b) 0
    | none => s
  let b := s.layCommitBank k
  if s.layState k b ≠ 0 then (s, .state)
  else
    let s := s.putBytes (layBase k b) data
    if s.mrgGoCheck k = .ok then (effMrgGo k 1 ⟨.mgt, 0⟩ s, .ok) else (s, s.mrgGoCheck k)

/-- Step 5 of R303 for a comparison bank, which names slot `sl`. -/
def State.loadCmp (s : State) (k sl : Nat) (data : List Nat) : Try :=
  let s := match s.cmpPending k with
    | some b => s.set .REF_H_BANK_STATE (2 * k + b) 0
    | none => s
  let b := s.cmpCommitBank k
  if s.cmpState k b ≠ 0 then (s, .state)
  else
    let s := s.putBytes (cmpBase k b) (data.set 2 sl)
    if s.refGoCheck k = .ok then (effRefGo k 1 ⟨.mgt, 0⟩ s, .ok) else (s, s.refGoCheck k)

/-- Step 6 of R303: the reference is copied into the slot and checked (R202), unless the slot holds it. -/
def State.loadRef (s : State) (sl : Nat) (data digest : List Nat) : Try :=
  let size := s.get .REF_SLOT_SIZE_SIZE_MIB sl * 2 ^ 20
  if s.slotHolds sl data.length digest then (s, .ok)
  else if s.slotUsed sl then (s, .state)
  else if size < data.length then (s, .ok)
  else
    let s := (s.blockWrite (s.get .REF_SLOT_BASE sl) data).set .REF_SLOT_CTRL_STATE sl 1
    if s.slotOk sl then (s.set .REF_SLOT_CTRL_STATE sl 2, .ok) else (s.set .REF_SLOT_CTRL_STATE sl 0, .integrity)

/-- The hamper of NEXT is written into banks, shadows, staged records and the reference slot (R303). -/
def State.loadBanks (s : State) (h ref : List Nat) : Try :=
  let digest := match sectionOf h 7 0 with | some q => q.digest | none => []
  let sl := s.spareSlot ref.length digest
  let each (t : Nat) (g : State → Section → Try) (s : State) : Try :=
    ((sectionsOf h).filter fun q => q.type == t).foldl (fun r q => r.andThen fun s => g s q) (s, .ok)
  let t := each 2 (fun s q => s.loadCtx q.inst (sectionData h q)) s
  let t := t.andThen fun s => (List.range 128).foldl (fun r c => r.andThen fun s => s.loadChannel h c) (s, .ok)
  let t := t.andThen (each 5 fun s q => s.loadLayout q.inst (sectionData h q))
  let t := t.andThen fun s => s.loadRef sl ref digest
  let fits := decide (ref.length ≤ s.get .REF_SLOT_SIZE_SIZE_MIB sl * 2 ^ 20)
  t.andThen (each 6 fun s q => if fits then s.loadCmp q.inst sl (sectionData h q) else (s, .ok))

/-! ### Answers of the followers -/

/-- A follower's answer, or the end of a request without one (R309, R310, R385). -/
def State.peerAnswer (s : State) (a : FabAnswer) : State :=
  match s.job.peers.find? fun p => p.out && p.tag == a.req.tag with
  | none => s
  | some p =>
    let s : State := { s with job := { s.job with peers := s.job.peers.map fun q =>
      if q.uid == p.uid then { q with out := false, answer := some a.status } else q } }
    match p.op with
    | 1 =>
      if a.status = .ok then
        if s.nextState = nextEmpty && s.jobRuns then
          s.peerSend p.uid 2 (jobMessage 2 (s.get .JOB_STATUS_SW_MARK) (s.get .JOB_IDS_CUR_ID)
            (s.get .JOB_HAMPERS_CUR_HAMPER) (s.chooseTarm (s.get .JOB_STATUS_SW_MARK)))
        else s.tryArm
      else if a.status = .busy then s
      else if s.nextState = nextEmpty then s
      else
        let s := if a.status = .range && a.data.length = 32 then
            ((s.setRefuse (a.data.set 26 p.node)).inc .JOB_CNT_REFUSED).jobEvent 2 (s.get .JOB_IDS_NEXT_ID)
              (s.get .JOB_OUT_ID) (statusCode .range) (a.data.getD 0 0) p.node else s
        s.leaderCancel
    | 2 =>
      if a.status = .ok || s.nextState ≠ nextArmed then s
      else
        let s := if a.status = .range && a.data.length = 32 then
            ((s.setRefuse (a.data.set 26 p.node)).inc .JOB_CNT_REFUSED).jobEvent 2 (s.get .JOB_IDS_NEXT_ID)
              (s.get .JOB_OUT_ID) (statusCode .range) (a.data.getD 0 0) p.node else s
        s.leaderCancel
    | _ => if a.status = .state then s.jobEvent 5 0 (s.get .JOB_OUT_ID) (statusCode .state) 0 p.node else s

/-- Firmware takes the control requests that have completed; those of the job unit are answers of followers. -/
def State.jobAnswers (s : State) : State :=
  let l := s.fab.answers
  l.foldl State.peerAnswer ({ s with fab := { s.fab with answers := [] } } : State)

end Sys2Proof.Machine
end

