-- ==== Sys2Proof/Machine/Job.lean ====
section
/-! DEFINITION. The job commands (12_jobs_and_autonomy.md): selection, loading, arming, the messages of the fabric leader and
the rolling self-test's start. -/

namespace Sys2Proof.Machine

/-! ### Pins and the end of draining -/

/-- A filtered rising edge of `JOB_STB` with `JOB_SEL` at `i` (R300): ignored in SLEEP, on its
entry and in BOOT_FAILED (18_i3c_management_port.md R459, 20_power_sleep_reset.md R502), counted by a follower (R309), latched while the management complex is away (R11), while
`ING`, `SYN` or `MRG` is under test (19_self_test.md R465) or while draining (R299), else a selection. -/
def execJobStb (i : Nat) (s : State) : Res :=
  let i := i % 256
  if s.get .PWR_H_STATE = 1 || s.get .PWR_H_STATE = 2 || s.get .BOOT_STATUS_STATE = 2 then .next s
  else if s.isFollower then
    .next ((s.inc .JOB_CNT_REPEAT).jobEvent 6 (s.get .JOB_IDS_NEXT_ID) (s.get .JOB_OUT_ID) 0 0 0xFF)
  else if s.mgtAbsent || s.selHeld then .next (s.latchSel 0 i ⟨1, 0, 0, 0, 0⟩)
  else .next (s.selectJob 0 i false).1

/-- A bank of the outgoing job has a frame bound to it (R297). -/
def State.draining (s : State) : Bool :=
  let out := s.get .JOB_OUT_ID
  ((List.range 264).any fun i => s.get .PIPE_H_BANK_STATE i != 0 && s.bankJob (i / 2) (i % 2) == out &&
    s.get .PIPE_H_BOUND i != 0) ||
  (List.range 16).any fun i =>
    (s.layState (i / 2) (i % 2) != 0 && s.layJob (layBase (i / 2) (i % 2)) == out && s.layBound (i / 2) (i % 2) != 0) ||
    (s.cmpState (i / 2) (i % 2) != 0 && s.cmpJob (i / 2) (i % 2) == out && s.cmpBound (i / 2) (i % 2) != 0)

/-- No frame is bound to a bank of the outgoing job any more: draining ends and a held selection is served (R297, R299). -/
def execDrainDone (s : State) : Res :=
  if s.on .JOB_STATUS_DRAINING && !s.draining then
    let out := s.get .JOB_OUT_ID
    let s := (s.set .JOB_STATUS_DRAINING 0 0).set .JOB_OUT_ID 0 0
    .next (s.jobEvent 4 (s.get .JOB_IDS_CUR_ID) out 0 0 0xFF).serveLatch
  else .next s

/-- After boot the firmware selects the lowest entry whose start flag is 1, and arms it immediately (R302). -/
def execStartEntrySelect (s : State) : Res :=
  if s.isFollower || s.mgtAbsent then .next s
  else match (List.range 256).find? fun i => (s.jobEntry i).start with
    | some i => .next (s.selectJob 1 i true).1
    | none => .next s

/-! ### Commands 0x10 to 0x15 -/

/-- The statuses that every job command can complete with first (R311): BUSY, SELFTEST for a selection or load, RIGHTS. -/
def State.jobGate (s : State) (src : Src) (load : Bool) : Status :=
  if s.bootFailed then .state
  else if s.unreachable then .targetReset
  else if s.on .BOOT_H_AWAY || (load && s.mgtAbsent) then .busy
  else if load && (s.inTest 17 || s.selHeld) then .selftest
  else if s.mayAs src .operator then .ok else .rights

/-- The audit record of a job command (17_roles_security_audit.md R429). -/
def State.jobRec (s : State) (src : Src) (job : Nat) : AuditRec := s.auditRec src 3 7 job noValue noValue

/-- A selection by command takes effect. -/
def effJobSelect (i : Nat) (src : Src) (s : State) : State :=
  match s.selectJob 1 (i % 256) false with
  | (s, .ok) => s
  | (s, st) => s.answer src 0x10 st

/-- Command 0x10 (R301, R311). -/
def execJobSelect (i : Nat) (src : Src) (s : State) : Res :=
  let g := s.jobGate src true
  if g ≠ .ok then .next (s.answer src 0x10 g)
  else if s.isFollower then .next (s.answer src 0x10 .state)
  else match s.hamper? (s.jobEntry (i % 256)).hamper with
    | none => .next ((s.loadFail .range).answer src 0x10 .range)
    | some h => .next (s.recorded src 0x10 (.jobSelect i src) (s.jobRec src (hamperJob h.image)) (effJobSelect i src))

/-- What `JOB_LOAD` answers at once (R298, R299, R311). -/
def State.loadCheck (s : State) (num : Nat) : Status :=
  if s.isFollower || s.nextState ≠ nextEmpty || s.on .JOB_STATUS_DRAINING then .state
  else match s.hamper? num with
    | none => .range
    | some h =>
      if hamperJob h.image = 0 then .range
      else if s.jobRuns && hamperJob h.image = s.get .JOB_IDS_CUR_ID then .state else .ok

/-- A load by command begins; its reply is sent when it ends. -/
def effJobLoad (num : Nat) (src : Src) (s : State) : State :=
  if s.loadCheck num ≠ .ok then s.answer src 0x11 (s.loadCheck num)
  else match s.hamper? num with
    | some h =>
      let s := s.startLoad h 256 0 false false
      { s with job := { s.job with waiting := some src } }
    | none => s.answer src 0x11 .range

/-- Command 0x11 (R299, R303, R311). -/
def execJobLoad (num : Nat) (src : Src) (s : State) : Res :=
  let g := s.jobGate src true
  let num := num % 4096
  if g ≠ .ok then .next (s.answer src 0x11 g)
  else if s.loadCheck num ≠ .ok then .next (s.answer src 0x11 (s.loadCheck num))
  else
    let job := match s.hamper? num with | some h => hamperJob h.image | none => 0
    .next (s.recorded src 0x11 (.jobLoad num src) (s.jobRec src job) (effJobLoad num src))

/-- NEXT is armed by command; a leader arms with its followers (R305, R309). -/
def State.armCommand (s : State) (m : Nat) (immediate : Bool) : State × Status :=
  if s.isLeader && !s.job.peers.isEmpty && !immediate then
    if s.nextState ≠ nextLoaded || !s.markOn m then (s, .state)
    else ((((s.set .JOB_H_WANT 0 1).set .JOB_H_MARK 0 m).tryArm), .ok)
  else s.armNext m immediate s.now

/-- An arm by command takes effect, or is refused; RANGE of an admission comes with the refusal record. -/
def effJobArm (m : Nat) (immediate : Bool) (src : Src) (s : State) : State :=
  let full := s.nextState == nextLoaded && s.stagedPitchOk && (s.admission true).isSome
  match s.armCommand (m % 4) immediate with
  | (s, .ok) => s
  | (s, st) => (if full && st = .range then s.emit (.reply src 0x12 s.refuseRecord) else s).answer src 0x12 st

/-- Command 0x12 (R299, R304, R305, R311). -/
def execJobArm (m : Nat) (immediate : Bool) (src : Src) (s : State) : Res :=
  let g := s.jobGate src false
  if g ≠ .ok then .next (s.answer src 0x12 g)
  else if s.isFollower then .next (s.answer src 0x12 .state)
  else if (s.armNext (m % 4) immediate s.now).2 ≠ .ok then .next (effJobArm m immediate src s)
  else .next (s.recorded src 0x12 (.jobArm m immediate src) (s.jobRec src (s.get .JOB_IDS_NEXT_ID))
    (effJobArm m immediate src))

/-- A cancel by command takes effect (R299, R309). -/
def effJobCancel (src : Src) (s : State) : State :=
  if s.nextState = nextEmpty then s.answer src 0x13 .state
  else if s.isLeader then s.leaderCancel else s.cancelNext

/-- Command 0x13 (R311). -/
def execJobCancel (src : Src) (s : State) : Res :=
  let g := s.jobGate src false
  if g ≠ .ok then .next (s.answer src 0x13 g)
  else if s.isFollower || s.nextState = nextEmpty then .next (s.answer src 0x13 .state)
  else .next (s.recorded src 0x13 (.jobCancel src) (s.jobRec src (s.get .JOB_IDS_NEXT_ID)) (effJobCancel src))

/-- NEXT is armed as a stop (R298); an immediate stop meets a running CURRENT and is refused (R299). -/
def State.stopArm (s : State) (m : Nat) (immediate : Bool) : State × Status :=
  if !s.jobRuns || s.nextState ≠ nextEmpty then (s, .state)
  else
    let lead := s.isLeader && !s.job.followers.isEmpty
    let tarm := if lead then s.chooseTarm m else s.now
    match s.loadStop.armNext m immediate tarm with
    | (t, .ok) => ((if lead then t.leaderSend 2 (jobMessage 2 m 0 0 tarm) else t), .ok)
    | (_, _) => (s, .state)

/-- A stop by command takes effect. -/
def effJobStop (m : Nat) (immediate : Bool) (src : Src) (s : State) : State :=
  match s.stopArm (m % 4) immediate with
  | (s, .ok) => s
  | (s, st) => s.answer src 0x14 st

/-- Command 0x14 (R298, R311). -/
def execJobStop (m : Nat) (immediate : Bool) (src : Src) (s : State) : Res :=
  let g := s.jobGate src false
  if g ≠ .ok then .next (s.answer src 0x14 g)
  else if s.isFollower || (s.stopArm (m % 4) immediate).2 ≠ .ok then .next (s.answer src 0x14 .state)
  else .next (s.recorded src 0x14 (.jobStop m immediate src) (s.jobRec src 0) (effJobStop m immediate src))

/-- The job registers 0x000 to 0x02B as bytes (R311). -/
def State.jobWords (s : State) : List Nat :=
  leBytes 4 s.jobStatusWord ++ leBytes 4 (s.get .JOB_IDS_CUR_ID + 65536 * s.get .JOB_IDS_NEXT_ID) ++
    leBytes 4 (s.get .JOB_HAMPERS_CUR_HAMPER + 65536 * s.get .JOB_HAMPERS_NEXT_HAMPER) ++ leBytes 4 (s.get .JOB_OUT_ID) ++
    leBytes 8 (s.get .JOB_ARM_TIME) ++ leBytes 8 (s.get .JOB_SW_TIME) ++ leBytes 8 (s.get .JOB_SW_POS) ++
    leBytes 4 (s.get .JOB_SW_SEQ)

/-- Command 0x15 (R311). -/
def execJobQuery (src : Src) (s : State) : Res :=
  let g := s.jobGate src false
  if g ≠ .ok then .next (s.answer src 0x15 g)
  else .next ((s.emit (.reply src 0x15 (s.jobWords ++ s.refuseRecord))).answer src 0x15 .ok)

/-! ### `JOB_CTRL` -/

/-- Address under which a write of `JOB_CTRL` completes. -/
abbrev jobCtrl : Nat := 0x050044

/-- NEXT is armed with `JOB_ARM_TIME` and a mark; with `stop` the job armed is job ID 0 (R304, R305). -/
def State.ctrlArm (s : State) (m : Nat) (immediate stop : Bool) : State × Status :=
  if s.nextState ≠ nextLoaded then (s, .state)
  else
    let t := if stop then s.loadStop else s
    match t.armNext (m % 4) immediate (s.get .JOB_ARM_TIME) with
    | (t, .ok) => (t, .ok)
    | (t, st) => (if stop then s else t, st)

/-- `JOB_CTRL.ARM`, by the management processor only. -/
def execJobCtrlArm (m : Nat) (immediate stop : Bool) (src : Src) (s : State) : Res :=
  if s.roleOf src ≠ .device then .next (s.answer src jobCtrl .rights)
  else let q := s.ctrlArm m immediate stop; .next (q.1.answer src jobCtrl q.2)

/-- NEXT is emptied (R299). -/
def State.ctrlCancel (s : State) : State := if s.nextState = nextEmpty then s else s.cancelNext

/-- `JOB_CTRL.CANCEL`. -/
def execJobCtrlCancel (src : Src) (s : State) : Res :=
  if s.roleOf src ≠ .device then .next (s.answer src jobCtrl .rights)
  else .next (s.ctrlCancel.answer src jobCtrl .ok)

/-- `SET_NEXT` (R299): 1 EMPTY, 2 LOADING, 3 LOADED; STATE while ARMED. -/
def State.ctrlSetNext (s : State) (v : Nat) : State × Status :=
  if v % 4 = 0 then (s, .ok)
  else if s.nextState = nextArmed then (s, .state)
  else (s.set .JOB_STATUS_NEXT_STATE 0 (v % 4 - 1), .ok)

/-- `JOB_CTRL.SET_NEXT`. -/
def execSetNext (v : Nat) (src : Src) (s : State) : Res :=
  if s.roleOf src ≠ .device then .next (s.answer src jobCtrl .rights)
  else let q := s.ctrlSetNext v; .next (q.1.answer src jobCtrl q.2)

/-! ### The end of a load -/

/-- A load fails (R299): the banks written so far are cancelled, the failure is reported, and a leader cancels everywhere. -/
def State.loadFails (s : State) (st : Status) : State :=
  let lead := s.isLeader && !s.job.peers.isEmpty
  let s := ((s.cancelBanks (s.get .JOB_IDS_NEXT_ID)).clearStaged).loadFail st
  let s := s.loadEnded st false
  if lead then s.leaderCancel else s.nextClear

/-- Loading of NEXT ends (R299, R303, R304, 13_storage_job_library.md R332, R336): the stored hamper's checks with the
verdicts of its signatures and what the reads found, the writes of R303, admission, and the arming that was requested. -/
def execJobLoadDone (sigs : Sigs) (r : NandRead) (s : State) : Res :=
  let num := s.get .JOB_HAMPERS_NEXT_HAMPER
  if s.nextState ≠ nextLoading then .next s
  else match s.hamper? num with
    | none => .next (s.loadFails .range)
    | some h =>
      let s := s.readCount r
      if r.uncorrectable then .next ((s.damage fun x => x.num == num).loadFails .integrity)
      else if h.damaged then .next (s.loadFails .integrity)
      else
        let c := s.storedCheck h sigs
        let s := s.libResult c num
        match c with
        | some (_, st) => .next (s.loadFails st)
        | none =>
          let ref := ((s.refObj? h.digest).map (·.bytes)).getD []
          match s.loadBanks h.image ref with
          | (s, .ok) =>
            match s.admission false with
            | some q =>
              let lead := s.isLeader && !s.job.peers.isEmpty
              let s := ((s.cancelBanks (s.get .JOB_IDS_NEXT_ID)).clearStaged).refused q 0
              let s := s.loadEnded .range true
              .next (if lead then s.leaderCancel else s.nextClear)
            | none => .next (((s.showDemand.set .JOB_STATUS_NEXT_STATE 0 nextLoaded).loadEnded .ok false).tryArm)
          | (s, st) => .next (s.loadFails st)

/-! ### Messages of the leader (R309, R310, R385) -/

/-- What a job message meets before it is served: the node is fenced, or the sender is not this follower's leader, or the
management complex is away. -/
def State.msgGate (s : State) (node : Nat) : Status :=
  if s.inTest 15 then .selftest
  else if s.on .FAB_CTRL_FENCE || s.mgtAbsent then .busy
  else if s.isFollower && s.uidOf node == s.get .FAB_H_LEADER then .ok else .rights

/-- A job message of this follower's leader is latched: the management complex is away (R11). -/
def State.msgLatches (s : State) (node : Nat) : Bool :=
  s.mgtAbsent && !s.on .FAB_CTRL_FENCE && s.isFollower && s.uidOf node == s.get .FAB_H_LEADER

/-- A PREPARE (R310): answered once NEXT is LOADED or the load has failed; latched while the management complex is away
(R11) or a test holds selections (R465). -/
def State.msgPrepare (s : State) (node tag m job num : Nat) : State :=
  let g := s.msgGate node
  if g = .busy && s.msgLatches node then (s.latchSel 2 0 ⟨1, job, num, m, 0⟩).ctrlReply node tag 1 .busy []
  else if g ≠ .ok then s.ctrlReply node tag 1 g []
  else if s.selHeld then
    let s := s.latchSel 2 0 ⟨1, job, num, m, 0⟩
    { s with job := { s.job with prepare := some (node, tag) } }
  else
    match s.prepareJob m job num with
    | (s, .ok) =>
      if s.nextState = nextLoaded then s.ctrlReply node tag 1 .ok []
      else { s with job := { s.job with prepare := some (node, tag) } }
    | (s, st) => s.ctrlReply node tag 1 st []

/-- An ARM (R310); latched while the management complex is away (R11), and answered with BUSY. -/
def State.msgArm (s : State) (node tag m job tarm : Nat) : State :=
  let g := s.msgGate node
  if g = .busy && s.msgLatches node then (s.latchSel 2 0 ⟨2, job, 0, m, tarm⟩).ctrlReply node tag 1 g []
  else if g ≠ .ok then s.ctrlReply node tag 1 g []
  else match s.armMessage m job tarm with
    | (s, st, record) => s.ctrlReply node tag 1 st (if record then s.refuseRecord else [])

/-- A CANCEL (R310); latched while the management complex is away (R11), and answered with BUSY. -/
def State.msgCancel (s : State) (node tag job : Nat) : State :=
  let g := s.msgGate node
  if g = .busy && s.msgLatches node then (s.latchSel 2 0 ⟨3, job, 0, 0, 0⟩).ctrlReply node tag 1 g []
  else if g ≠ .ok then s.ctrlReply node tag 1 g []
  else match s.cancelMessage job with
    | (s, st) => s.ctrlReply node tag 1 st []

/-- A follower receives PREPARE from node `node` under tag `tag`. -/
def execJobMsgPrepare (node tag m job num : Nat) (s : State) : Res :=
  .next (s.msgPrepare node tag (m % 4) job num).jobAnswers

/-- A follower receives ARM. -/
def execJobMsgArm (node tag m job tarm : Nat) (s : State) : Res :=
  .next (s.msgArm node tag (m % 4) job tarm).jobAnswers

/-- A follower receives CANCEL. -/
def execJobMsgCancel (node tag job : Nat) (s : State) : Res :=
  .next (s.msgCancel node tag job).jobAnswers

/-- The followers have not all answered PREPARE with OK within `PREP_100MS` (R309): the leader cancels. -/
def execPrepareTimeout (s : State) : Res :=
  if s.isLeader && s.nextState != nextArmed && s.job.peers.any fun p => p.op == 1 && p.answer != some .ok then
    .next s.leaderCancel.jobAnswers
  else .next s

/-- Every 100 ms a PREPARE answered BUSY is sent again (R385). -/
def execPrepareResend (s : State) : Res :=
  let busy := s.job.peers.filter fun p => p.op == 1 && p.answer == some .busy
  if s.isLeader then
    .next (busy.foldl (fun s p => s.peerSend p.uid 1 (jobMessage 1 (s.get .JOB_H_MARK) (s.get .JOB_IDS_NEXT_ID)
      (s.get .JOB_HAMPERS_NEXT_HAMPER) 0)) s).jobAnswers
  else .next s

/-- ARM answers are outstanding less than 1 ms before the arming time (R309): the leader cancels. -/
def execArmDeadline (s : State) : Res :=
  if s.isLeader && s.nextState == nextArmed && decide (s.get .JOB_ARM_TIME < s.now + 1000000) &&
      s.job.peers.any fun p => p.op == 2 && p.answer != some .ok then
    .next s.leaderCancel.jobAnswers
  else .next s

/-! ### The start of a rolling self-test (05_pipeline_contexts.md R144, R145) -/

/-- Admission without pipe `p` of the jobs that may run: CURRENT, and NEXT when it is LOADED or ARMED (R145, R312). -/
def State.rollAdmit (s : State) (p : Nat) : Option (Refuse × Bool) :=
  let check (h : List Nat) (next : Bool) : Option (Refuse × Bool) := (s.pipeAdmit h [[p]]).map fun r => (r, next)
  let cur := if s.jobRuns then check s.job.cur false else none
  match cur with
  | some r => some r
  | none => if (s.nextState == nextLoaded || s.nextState == nextArmed) && !s.on .JOB_STATUS_NEXT_STOP then
      check s.job.next true else none

/-- The refusal of a rolling test is held as a record (R145, R304). -/
def State.rollRefused (s : State) (r : Refuse) (next : Bool) : State :=
  let job := s.get (if next then .JOB_IDS_NEXT_ID else .JOB_IDS_CUR_ID)
  let h := s.get (if next then .JOB_HAMPERS_NEXT_HAMPER else .JOB_HAMPERS_CUR_HAMPER)
  ((s.setRefuse (refuseBytes r 2 job h 0xFF)).inc .JOB_CNT_REFUSED).jobEvent 2 job (s.get .JOB_OUT_ID)
    (statusCode .range) r.1 0xFF

/-- A rolling test begins, or is refused (R145). -/
def effRollStart (p : Nat) (auto : Bool) (src : Src) (s : State) : State :=
  if s.rollPipe.isSome || !s.rollable p || s.inTest p then s.answer src 0 .state
  else match s.rollAdmit p with
    | some (r, next) =>
      let s := s.rollRefused r next
      (s.emit (.reply src 0 s.refuseRecord)).answer src 0 .range
    | none => ((s.set .PIPE_ROLL_CTRL_AUTO 0 auto.toNat).set .PIPE_ROLL_CTRL_PIPE 0 p).rollBegin p

/-- `PIPE_ROLL_CTRL.START` for pipe `p` (R144, R145). -/
def execRollStart (p : Nat) (auto : Bool) (src : Src) (s : State) : Res :=
  if !s.mayAs src .operator then .next (s.answer src 0 .rights)
  else if 8 ≤ p then .next (s.answer src 0 .range)
  else .next (s.completed src 0 (effRollStart p auto src))

end Sys2Proof.Machine
end

