-- ==== Sys2Proof/Machine/LaneOps.lean ====
section
/-! DEFINITION. Shared operations of the lane complex (02_lane_complex.md): states, reasons, events, and what the layer
above learns. -/

namespace Sys2Proof.Machine

/-- Codes of `LANE_STATUS.STATE`. -/
abbrev laneDisabled : Nat := 0
abbrev laneDetect : Nat := 1
abbrev laneNegotiate : Nat := 2
abbrev laneStep : Nat := 3
abbrev laneVerify : Nat := 4
abbrev laneActive : Nat := 5
abbrev laneBackoff : Nat := 6

/-- Reason codes (R47). -/
abbrev Reason.los : Nat := 0x01
abbrev Reason.cdrUnlock : Nat := 0x02
abbrev Reason.alignLoss : Nat := 0x03
abbrev Reason.noLts : Nat := 0x04
abbrev Reason.protocolMismatch : Nat := 0x05
abbrev Reason.noCommonRung : Nat := 0x06
abbrev Reason.loopback : Nat := 0x07
abbrev Reason.negotiateTimeout : Nat := 0x08
abbrev Reason.verifyFail : Nat := 0x09
abbrev Reason.napTimeout : Nat := 0x0A
abbrev Reason.softwareRetrain : Nat := 0x0B
abbrev Reason.disabled : Nat := 0x0C
abbrev Reason.resumeFail : Nat := 0x0D
abbrev Reason.freqOffset : Nat := 0x0E

/-- State of a lane. -/
def State.laneState (s : State) (n : Nat) : Nat := s.get .LANE_STATUS_STATE n

/-- Sticky bit `k` of `LANE_EVENTS` (R57), with reason, rung, state and fail count. -/
def State.laneEvent (s : State) (n k : Nat) : State :=
  s.sticky .LANE_EVENTS_EV n k .LANE_EVENT_EN n k 0x0010 n (k + 1)
    (argAt 16 (s.get .LANE_REASON_LAST n) + argAt 17 (s.get .LANE_STATUS_RUNG n) +
     argAt 18 (s.get .LANE_STATUS_STATE n) + argAt 19 (s.get .LANE_STATUS_FAIL_COUNT n))

/-- Record a reason and the rung at which it arose (R47). -/
def State.reason (s : State) (n r : Nat) : State :=
  (s.set .LANE_REASON_LAST n r).set .LANE_REASON_RUNG n (s.get .LANE_STATUS_RUNG n)

/-- Defaults of R36: `PRE1` −6, `MAIN` 48, `POST1` −9, `CTLE` 12, `VGA` 32, the rest 0. -/
def EqEntry.default (src : Nat) : EqEntry := ⟨0, 0xFA, 48, 0xF7, 12, 32, 0, 0, 0, 0, 0, src⟩

/-- The entry of a lane and rung (R36, R37). DESIGN CHOICE: the spec says nothing of `LANE_EQ_SEL.RUNG` 5 to 7, which name
no rung; the defaults of R36 stand there, as for a pair without an entry. -/
def State.eqEntry (s : State) (n r : Nat) : EqEntry :=
  if r ≤ 4 then tabGet s.lane.eqTable (5 * n + r) (EqEntry.default 1) else EqEntry.default 1

/-- Every field lies in its range, and the transmit taps together do not exceed 63 (R35, R36). -/
def eqValid (e : EqEntry) : Bool :=
  let p2 := toSigned 8 e.pre2
  let p1 := toSigned 8 e.pre1
  let po := toSigned 8 e.post1
  let dfe := fun (v : Nat) => decide (-32 ≤ toSigned 8 v) && decide (toSigned 8 v ≤ 31)
  decide (-8 ≤ p2) && decide (p2 ≤ 0) && decide (-16 ≤ p1) && decide (p1 ≤ 0) && decide (24 ≤ e.main) &&
    decide (e.main ≤ 63) && decide (-24 ≤ po) && decide (po ≤ 0) && decide (e.ctle ≤ 31) && decide (e.vga ≤ 63) &&
    dfe e.dfe1 && dfe e.dfe2 && dfe e.dfe3 && decide (e.rxInv ≤ 1) && decide (e.txInv ≤ 1) &&
    decide (-p2 - p1 + (e.main : Int) - po ≤ 63)

/-- The settings of a lane and rung as they take effect: no DFE at rungs 0 and 1 (R36). -/
def State.eqInEffect (s : State) (n r : Nat) : EqEntry :=
  if r ≤ 1 then { s.eqEntry n r with dfe1 := 0, dfe2 := 0, dfe3 := 0 } else s.eqEntry n r

/-- The lane loads the settings of a rung (R34). -/
def State.loadEq (s : State) (n r : Nat) : State :=
  { s with lane := { s.lane with eqLoaded := tabPut s.lane.eqLoaded n (s.eqInEffect n r) } }

/-- The staging registers show the entry of the selected rung (R37). -/
def State.showEq (s : State) (n : Nat) : State :=
  let e := s.eqEntry n (s.get .LANE_EQ_SEL_RUNG n)
  [(Fld.LANE_EQ_TX_PRE2, e.pre2), (.LANE_EQ_TX_PRE1, e.pre1), (.LANE_EQ_TX_MAIN, e.main), (.LANE_EQ_TX_POST1, e.post1),
   (.LANE_EQ_RX_CTLE, e.ctle), (.LANE_EQ_RX_VGA, e.vga), (.LANE_EQ_RX_DFE1, e.dfe1), (.LANE_EQ_RX_DFE2, e.dfe2),
   (.LANE_EQ_RX2_DFE3, e.dfe3), (.LANE_EQ_RX2_RX_INV, e.rxInv), (.LANE_EQ_RX2_TX_INV, e.txInv),
   (.LANE_EQ_RX2_SRC, e.src)].foldl (fun s p => s.set p.1 n p.2) s

/-- The lane's role is egress. -/
def State.isEgress (s : State) (n : Nat) : Bool := s.get .LANE_ID_ROLE n == 2

/-- Protocol code of the lane's role (R38): 1 Usmas, 2 Botex. -/
def State.protocol (s : State) (n : Nat) : Nat := if s.get .LANE_ID_ROLE n = 3 then 2 else 1

/-- The tiebreak this end sends: bits 47 to 0 of its UID (R38). -/
def State.tiebreak (s : State) : Nat := s.get .SEC_FUSE_UID % 2 ^ 48

/-- The rungs this device supports: 0 to 4. -/
def State.ownMask (_ : State) : Nat := 0x1F

/-- A training sequence this end sends (R38). Flag bit 0 is 0: the lanes transmit from `CLK_REF`, whether or not the board
derives that from a neighbour (DEDUCED). Character 6 is the lane's number (DESIGN CHOICE: the spec says lane or port
number). -/
def State.ltsChars (s : State) (n typ req : Nat) (resume : Bool) : List Nat :=
  let flags := (if s.get .LANE_H_LTS_RUN n = 0 then 0 else 2) + (if resume then 4 else 0)
  let body := [typ, s.protocol n, s.ownMask, req, flags, n, 0] ++ leBytes 6 s.tiebreak
  0xBC :: body ++ leBytes 2 (crc16 body)

/-- The lane sends a training sequence. -/
def State.sendLts (s : State) (n typ req : Nat) (resume : Bool) : State := s.emit (.lts n (s.ltsChars n typ req resume))

/-- Propose sequences that name no rung yet, as a lane in DETECT sends them (R43). -/
def State.sayDetect (s : State) (n : Nat) : State := s.sendLts n 0x4C 0xFF (s.on .LANE_H_RESUME n)

/-- The receiver goes back to rung 0: a CDR that was locked at another rung has to lock anew, and the rung-0 settings are
loaded (R34). -/
def State.toRung0 (s : State) (n : Nat) : State :=
  let s := if s.get .LANE_STATUS_RUNG n = 0 then s else s.set .LANE_STATUS_CDR_LOCK n 0
  (s.set .LANE_STATUS_RUNG n 0).loadEq n 0

/-- Entry to DETECT (R43): rung-0 settings, propose sequences, and counting anew. An egress lane stays at rung 3 and sends
no training sequence (R27, R46). -/
def State.enterDetect (s : State) (n : Nat) : State :=
  let s := [Fld.LANE_H_LTS_RUN, .LANE_H_ACK_RUN, .LANE_H_STEP_RUN, .LANE_H_STEP_SENT, .LANE_H_OFFS_DONE, .LANE_H_BLOCK,
    .LANE_H_RETURN].foldl (fun s f => s.set f n 0) s
  let s := s.set .LANE_STATUS_STATE n laneDetect
  if s.isEgress n then (s.set .LANE_STATUS_RUNG n 3).loadEq n 3 else (s.toRung0 n).sayDetect n

/-- Consecutive valid sequences and the offset measurement start over. -/
def State.ltsBroken (s : State) (n : Nat) : State :=
  (s.set .LANE_H_LTS_RUN n 0).set .LANE_H_OFFS_DONE n 0

/-- Wait in BACKOFF by fail count, ms (R45). -/
def backoffWait (fails : Nat) : Nat := if fails ≤ 1 then 10 else if fails = 2 then 100 else 1000

/-- Entry to BACKOFF (R43, R45): the lane falls back to rung 0 and its settings. -/
def State.backoff (s : State) (n r : Nat) : State :=
  let s := (s.reason n r).inc .LANE_STATUS_FAIL_COUNT n
  let s := (s.inc .LANE_CNT_FAIL n).laneEvent n 1
  let s := (s.set .LANE_STATUS_STATE n laneBackoff).set .LANE_H_BOEND n
    (s.elapsed + 1000000 * backoffWait (s.get .LANE_STATUS_FAIL_COUNT n))
  (s.set .LANE_H_RETURN n 0).toRung0 n

/-- What is left of the wait in BACKOFF, ms; 0 in every other state (`LANE_REASON.BACKOFF_LEFT_MS`). -/
def State.backoffLeft (s : State) (n : Nat) : Nat :=
  if s.laneState n = laneBackoff then ceilDiv (s.get .LANE_H_BOEND n - s.elapsed) 1000000 else 0

/-- The highest rung this end proposes or accepts: `MAX_RUNG`, and the limit of the port's other lane (R25, R41). -/
def State.rungLimit (s : State) (n : Nat) : Nat := min (s.get .LANE_CTRL_MAX_RUNG n) (s.get .LANE_H_LIMIT n)

/-- A rung is eligible (R41). -/
def State.rungOk (s : State) (n r : Nat) : Bool :=
  s.ownMask.testBit r && s.bit .LANE_STATUS_PARTNER_MASK n r && decide (r ≤ s.rungLimit n) &&
    !s.bit .LANE_STATUS_EXCLUDED n r

/-- The highest eligible rung from 1 to 4 below `b`, or 0 (R41). -/
def State.bestRung (s : State) (n b : Nat) : Nat :=
  ([4, 3, 2, 1].find? fun r => decide (r < b) && s.rungOk n r).getD 0

/-- A rung is excluded (R43, R57). -/
def State.exclude (s : State) (n r : Nat) : State := (s.setBit .LANE_STATUS_EXCLUDED n r).laneEvent n 2

/-- STEP or VERIFY has failed (R43): with an eligible lower rung the lane excludes this one and goes back to rung 0, to enter
NEGOTIATE once its CDR has locked there and the offset is measured anew (R31, and the worked example of the chapter; until
then `STATE` shows the state that failed, DEDUCED); else it backs off. A failed resume continues with the normal choice and
never backs off here (R54). -/
def State.stepFail (s : State) (n : Nat) : State :=
  let r := s.get .LANE_STATUS_RUNG n
  let resume := s.on .LANE_H_RESUME n
  let s := s.set .LANE_H_RESUME n 0
  if resume || s.bestRung n r ≠ 0 then
    let s := if resume then s.reason n Reason.resumeFail else s
    let s := s.exclude n r
    let s := [Fld.LANE_H_ACK_RUN, .LANE_H_STEP_RUN, .LANE_H_STEP_SENT, .LANE_H_BLOCK, .LANE_H_VERD_L, .LANE_H_VERD_P,
      .LANE_H_OFFS_DONE].foldl (fun s f => s.set f n 0) s
    ((s.set .LANE_H_RETURN n 1).toRung0 n).sayDetect n
  else s.backoff n Reason.verifyFail

/-- A scan point ends because the lane leaves ACTIVE (R56). -/
def State.eyeAbort (s : State) (n : Nat) : State :=
  ((s.set .LANE_EYE_STATUS_BUSY n 0).set .LANE_EYE_STATUS_ABORTED n 1).set .LANE_EYE_STATUS_ABORT_REASON n 2

/-- `RCLKOUT_P/N` carries the recovered clock of the lane that the boot image names only while that lane is ACTIVE
(22_electrical_package.md R526). -/
def State.rclkPin (s : State) (n v : Nat) : State := if s.get .BOOT_H_RCLK = n then s.emit (.pin "RCLKOUT" n v) else s

/-- The lane leaves ACTIVE: counted, its event set, a scan ended, and the owning block told in the same clock (R44). -/
def State.laneDown (s : State) (n : Nat) : State :=
  let s := ((s.inc .LANE_CNT_LOS n).laneEvent n 0).rclkPin n 0
  let s := if s.on .LANE_EYE_STATUS_BUSY n then
    s.eyeAbort n else s
  let s := [Fld.LANE_STATUS_TX_NAP, .LANE_STATUS_RX_NAP, .LANE_H_TRIM].foldl (fun s f => s.set f n 0) s
  match s.get .LANE_ID_ROLE n with
  | 1 => s.ingLaneDown n
  | 3 => (s.fabLaneDown n).jobAnswers
  | _ => s

/-- The port of a fabric lane and the port's other lane (R24). -/
def otherLane (n : Nat) : Nat := if n % 2 = 0 then n + 1 else n - 1

/-- Both lanes of a fabric port are ACTIVE at different rungs: the leader of the one at the higher rung retrains it,
limited to the lower (R25). It is the retraining of R43: reason `SOFTWARE_RETRAIN`, fail count and exclusions cleared (DESIGN
CHOICE: the spec names no reason for it). The limit holds until the lane is ACTIVE again, or is enabled or retrained by
software. -/
def State.matchRungs (s : State) (n : Nat) : State :=
  let m := otherLane n
  let hi := if s.get .LANE_STATUS_RUNG m < s.get .LANE_STATUS_RUNG n then n else m
  let lo := if hi = n then m else n
  if s.laneState m = laneActive && s.get .LANE_STATUS_RUNG m ≠ s.get .LANE_STATUS_RUNG n && s.on .LANE_STATUS_LEADER hi
  then
    let s := s.set .LANE_H_LIMIT hi (s.get .LANE_STATUS_RUNG lo)
    let s := (s.reason hi Reason.softwareRetrain).laneDown hi
    ((s.set .LANE_STATUS_FAIL_COUNT hi 0).set .LANE_STATUS_EXCLUDED hi 0).enterDetect hi
  else s

/-- Both verdicts pass, or an egress lane locks: the lane is ACTIVE and the owning block learns of it (R43, R46). -/
def State.laneUp (s : State) (n : Nat) : State :=
  let s := [Fld.LANE_H_STABLE, .LANE_H_RESUME, .LANE_H_VERD_L, .LANE_H_VERD_P, .LANE_IDLE_IDLE_MS, .LANE_IDLE_DTJ].foldl
    (fun s f => s.set f n 0) s
  let s := (s.laneEvent n 3).rclkPin n 1
  let s := ((s.set .LANE_STATUS_STATE n laneActive).set .LANE_H_LIMIT n 4).set .LANE_H_IDLE n 0
  match s.get .LANE_ID_ROLE n with
  | 1 => s.ingLaneUp n
  | 3 => ((s.fabLaneUp n).jobAnswers).matchRungs n
  | _ => s

/-- A lane is held as `ENABLE` 0 holds it (R43; 15_botex_fabric.md R387): DISABLED, its transmitter squelched. -/
def State.laneHold (s : State) (n : Nat) : State :=
  let s := s.reason n Reason.disabled
  let s := if s.laneState n = laneActive then s.laneDown n else s
  (s.set .LANE_H_RETURN n 0).set .LANE_STATUS_STATE n laneDisabled

/-- Both lanes of a fabric port are held (15_botex_fabric.md R387). -/
def State.portLanesHold (s : State) (p : Nat) : State := [(portLanes p).1, (portLanes p).2].foldl State.laneHold s

/-- A port that is ASLEEP is released (15_botex_fabric.md R387): its enabled lanes return to DETECT and send rung-0
sequences. -/
def State.fabUnhold (s : State) (p : Nat) : State :=
  if s.portState p ≠ portAsleep then s
  else [(portLanes p).1, (portLanes p).2].foldl (fun s n =>
    if s.on .LANE_CTRL_ENABLE n && s.laneState n == laneDisabled then
      ((s.set .LANE_STATUS_FAIL_COUNT n 0).set .LANE_STATUS_EXCLUDED n 0).enterDetect n else s)
    (s.set .FAB_PORT_STATUS_STATE p portDown) |>.portChanged

/-- ACTIVE is left for DETECT (R43): a rung that lasted less than 1 s is excluded, otherwise the exclusions clear. -/
def State.leaveActive (s : State) (n r : Nat) : State :=
  let rung := s.get .LANE_STATUS_RUNG n
  let s := s.reason n r
  let s := if s.get .LANE_ID_ROLE n = 2 then s
    else if s.on .LANE_H_STABLE n then s.set .LANE_STATUS_EXCLUDED n 0 else s.exclude n rung
  (s.laneDown n).enterDetect n

/-- ACTIVE is left because receive nap lasted too long (R43). -/
def State.leaveActiveNap (s : State) (n : Nat) : State :=
  (((s.reason n Reason.napTimeout).laneEvent n 6).laneDown n).enterDetect n

end Sys2Proof.Machine
end

