-- ==== Sys2Proof/Machine/Lane.lean ====
section
/-! DEFINITION. Lanes: training, verification, idle, nap and eye scan (02_lane_complex.md). -/

namespace Sys2Proof.Machine

/-! ### Negotiation -/

/-- The leader proposes the next rung below `r` that is eligible, or ends the attempt (R41). -/
def State.proposeBelow (s : State) (n r : Nat) : State :=
  match s.bestRung n r with
  | 0 => s.backoff n Reason.noCommonRung
  | r => ((s.set .LANE_H_RUNG_AGREED n r).set .LANE_H_ACK_RUN n 0).sendLts n 0x4C r false

/-- The first proposal of the leader: the kept rung with the resume flag on a wake (R54), else the normal choice. -/
def State.proposeFirst (s : State) (n : Nat) : State :=
  let kept := s.get .PWR_H_KEPT_RUNG n
  if s.on .LANE_H_RESUME n && kept ≠ 0 then
    ((s.set .LANE_H_RUNG_AGREED n kept).set .LANE_H_ACK_RUN n 0).sendLts n 0x4C kept true
  else (s.set .LANE_H_RESUME n 0).proposeBelow n 5

/-- Entry to NEGOTIATE (R31, R43); a failed offset ends the attempt there. -/
def State.enterNegotiate (s : State) (n : Nat) : State :=
  let s := [Fld.LANE_H_RETURN, .LANE_H_STEP_SENT, .LANE_H_STEP_RUN, .LANE_H_ACK_RUN, .LANE_H_RUNG_AGREED].foldl
    (fun s f => s.set f n 0) (s.set .LANE_STATUS_STATE n laneNegotiate)
  if s.on .LANE_H_OFFS_BAD n then s.backoff n Reason.freqOffset
  else if s.on .LANE_STATUS_LEADER n then s.proposeFirst n else s

/-- NEGOTIATE is entered once its conditions hold (R31, R43): in DETECT a signal, CDR lock, four valid sequences in a row and
the offset measurement; after a failed STEP or VERIFY, CDR lock at rung 0 and the measurement. -/
def State.tryNegotiate (s : State) (n : Nat) : State :=
  let measured := s.on .LANE_STATUS_CDR_LOCK n && s.on .LANE_H_OFFS_DONE n
  if s.laneState n = laneDetect && s.on .LANE_STATUS_SIG n && measured && decide (4 ≤ s.get .LANE_H_LTS_RUN n) then
    s.enterNegotiate n
  else if s.on .LANE_H_RETURN n && measured then s.enterNegotiate n
  else s

/-- An egress lane with signal and CDR lock in DETECT is ACTIVE at rung 3 (R46). -/
def State.tryEgress (s : State) (n : Nat) : State :=
  if s.isEgress n && s.laneState n = laneDetect && s.on .LANE_STATUS_SIG n && s.on .LANE_STATUS_CDR_LOCK n then
    s.laneUp n
  else s

/-- STEP gives way to VERIFY once the CDR is locked and blocks or codewords align (R43). -/
def State.tryVerify (s : State) (n : Nat) : State :=
  if s.laneState n = laneStep && !s.on .LANE_H_RETURN n && s.on .LANE_STATUS_CDR_LOCK n && s.on .LANE_H_BLOCK n then
    s.set .LANE_STATUS_STATE n laneVerify
  else s

/-- A scan point in progress is abandoned by a trim and restarts when it ends (R56). -/
def State.eyePreempt (s : State) (n : Nat) : State :=
  if s.on .LANE_EYE_STATUS_BUSY n then
    ((s.inc .LANE_EYE_STATUS_RESTARTS n).set .LANE_EYE_ERR n 0).laneEvent n 7
  else s

/-- A trim pass is due on an ACTIVE lane: 600 s of idle, or a junction temperature changed by 15 °C (R50). -/
def State.trimDue (s : State) (n : Nat) : Bool :=
  let d := toSigned 8 (s.get .LANE_IDLE_DTJ n)
  s.laneState n == laneActive && (decide (600000 ≤ s.get .LANE_IDLE_IDLE_MS n) || decide (15 ≤ d) || decide (d ≤ -15))

/-- A trim pass that is due starts (R50, R53); in receive nap it is held until the wake (R52). -/
def State.trimIfDue (s : State) (n : Nat) : State :=
  if s.trimDue n && !s.on .LANE_STATUS_RX_NAP n && !s.on .LANE_H_TRIM n then
    ((s.set .LANE_H_TRIM n 1).eyePreempt n).laneEvent n 5
  else s

/-- Signal appears on a receiver (R43, R46, R52): it ends receive nap, and a trim pass that fell due in the nap runs before
trimming resumes (R53). -/
def execSignalDetect (lane : Nat) (s : State) : Res :=
  let woken := s.on .LANE_STATUS_RX_NAP lane
  let s := (s.set .LANE_STATUS_SIG lane 1).set .LANE_STATUS_RX_NAP lane 0
  let s := if woken then s.trimIfDue lane else s
  let s := if s.get .LANE_ID_ROLE lane = 3 then s.fabUnhold (lanePort lane) else s
  .next (if s.isEgress lane then s.tryEgress lane else s.tryNegotiate lane)

/-- Loss of signal (R43, R44, R46): ignored in receive nap (R52); ACTIVE, NEGOTIATE, STEP and VERIFY return to DETECT. -/
def execLossOfSignal (lane : Nat) (s : State) : Res :=
  if s.on .LANE_STATUS_RX_NAP lane then .next s
  else
    let s := ((s.set .LANE_STATUS_SIG lane 0).set .LANE_STATUS_CDR_LOCK lane 0).ltsBroken lane
    let st := s.laneState lane
    .next (if st = laneActive then s.leaveActive lane Reason.los
      else if st = laneNegotiate || st = laneStep || st = laneVerify then (s.reason lane Reason.los).enterDetect lane
      else s)

/-- The CDR locks; at rung 0 the offset measurement starts (R31). -/
def execCdrLock (lane : Nat) (s : State) : Res :=
  let s := s.set .LANE_STATUS_CDR_LOCK lane 1
  .next (if s.isEgress lane then s.tryEgress lane
    else if s.laneState lane = laneDetect || s.on .LANE_H_RETURN lane then s.set .LANE_H_OFFS_DONE lane 0
    else s.tryVerify lane)

/-- The CDR unlocks (R43, R46); in receive nap the CDR is held (R52). -/
def execCdrUnlock (lane : Nat) (s : State) : Res :=
  if s.on .LANE_STATUS_RX_NAP lane then .next s
  else
    let s := (s.set .LANE_STATUS_CDR_LOCK lane 0).set .LANE_H_OFFS_DONE lane 0
    .next (if s.laneState lane = laneActive then s.leaveActive lane Reason.cdrUnlock else s)

/-- The 8 µs offset measurement is complete (R31): its result in ppm. In NEGOTIATE a difference beyond 200 ppm ends the
attempt. -/
def execOffsetMeasureDone (lane : Nat) (ppm : Int) (s : State) : Res :=
  if s.on .LANE_STATUS_CDR_LOCK lane && !s.isEgress lane then
    let s := (s.set .LANE_H_OFFS_DONE lane 1).set .LANE_H_OFFS_BAD lane (decide (ppm < -200 ∨ 200 < ppm)).toNat
    .next (if s.laneState lane = laneNegotiate && s.on .LANE_H_OFFS_BAD lane then s.backoff lane Reason.freqOffset
      else s.tryNegotiate lane)
  else .next s

/-- A training sequence is valid (R39): the comma, no violation, and the check over characters 1 to 13. -/
def ltsValid (l : Lts) : Bool :=
  l.k0 && l.chars.getD 0 0 == 0xBC && !l.violation && l.chars.length == 16 &&
    crc16 ((l.chars.drop 1).take 13) == leAt l.chars 14 2

/-- A sequence that arrives in NEGOTIATE (R40, R41): its type, requested rung, tiebreak and resume flag. -/
def State.negotiate (s : State) (n typ req peer : Nat) (resume : Bool) : State :=
  if peer = s.tiebreak then s.backoff n Reason.loopback
  else if s.on .LANE_STATUS_LEADER n then
    if typ = 0x41 && !s.on .LANE_H_STEP_SENT n then
      if req = s.get .LANE_H_RUNG_AGREED n then
        let s := s.add .LANE_H_ACK_RUN n 1
        if decide (8 ≤ s.get .LANE_H_ACK_RUN n) then
          (s.set .LANE_H_STEP_SENT n 1).sendLts n 0x53 req (s.on .LANE_H_RESUME n)
        else s
      else if req = 0xFF then
        let s := if s.on .LANE_H_RESUME n then
          ((s.set .LANE_H_RESUME n 0).reason n Reason.resumeFail).proposeBelow n 5
          else s.proposeBelow n (s.get .LANE_H_RUNG_AGREED n)
        s
      else s.set .LANE_H_ACK_RUN n 0
    else s.set .LANE_H_ACK_RUN n 0
  else if typ = 0x4C then
    let ok := s.ownMask.testBit req && decide (1 ≤ req) && decide (req ≤ s.rungLimit n)
    let s := if resume then s else s.set .LANE_H_RESUME n 0
    (s.set .LANE_H_RUNG_AGREED n (if ok then req else 0)).sendLts n 0x41 (if ok then req else 0xFF) resume
  else if typ = 0x53 && s.get .LANE_H_RUNG_AGREED n ≠ 0 then
    let s := s.add .LANE_H_STEP_RUN n 1
    if s.get .LANE_H_STEP_RUN n = 2 then
      (s.set .LANE_H_STEP_SENT n 1).sendLts n 0x53 (s.get .LANE_H_RUNG_AGREED n) resume
    else s
  else s

/-- A run of valid sequences begins or ends in DETECT: what the lane sends says so in flag bit 1 (R38). -/
def State.ltsRun (s : State) (n : Nat) (valid : Bool) : State :=
  let before := s.get .LANE_H_LTS_RUN n
  let s := if valid then s.add .LANE_H_LTS_RUN n 1 else s.set .LANE_H_LTS_RUN n 0
  if s.laneState n = laneDetect && (before == 0) == valid then s.sayDetect n else s

/-- A training sequence arrives (R38 to R41, R43); an egress lane has no training (R27). -/
def execLtsReceived (lane : Nat) (l : Lts) (s : State) : Res :=
  let st := s.laneState lane
  if st = laneDisabled || st = laneBackoff || s.isEgress lane then .next s
  else if !ltsValid l then .next ((s.ltsRun lane false).set .LANE_H_ACK_RUN lane 0)
  else
    let peer := leAt l.chars 8 6
    let s := ((s.set .LANE_STATUS_PARTNER_MASK lane (l.chars.getD 3 0)).set .LANE_STATUS_LEADER lane
      (decide (peer < s.tiebreak)).toNat).ltsRun lane true
    .next (if st = laneDetect then
        if l.chars.getD 2 0 ≠ s.protocol lane then s.backoff lane Reason.protocolMismatch else s.tryNegotiate lane
      else if st = laneNegotiate then
        s.negotiate lane (l.chars.getD 1 0) (l.chars.getD 4 0) peer ((l.chars.getD 5 0).testBit 2)
      else s)

/-- The last step sequence has been sent (R41, R43): the lane changes rate and loads the new rung's settings; no verdict on
the new rung is in yet. -/
def execRateChange (lane : Nat) (s : State) : Res :=
  if s.laneState lane = laneNegotiate && s.on .LANE_H_STEP_SENT lane then
    let r := s.get .LANE_H_RUNG_AGREED lane
    let s := (s.set .LANE_STATUS_STATE lane laneStep).set .LANE_STATUS_RUNG lane r
    let s := [Fld.LANE_STATUS_CDR_LOCK, .LANE_H_BLOCK, .LANE_H_STEP_SENT, .LANE_H_VERD_L, .LANE_H_VERD_P].foldl
      (fun s f => s.set f lane 0) s
    .next (s.loadEq lane r)
  else .next s

/-- Block lock or codeword alignment is gained (R42, R43). -/
def execBlockLock (lane : Nat) (s : State) : Res :=
  if s.on .LANE_H_RETURN lane then .next s else .next ((s.set .LANE_H_BLOCK lane 1).tryVerify lane)

/-! ### Verification -/

/-- The window passes (R42): no sync-header error at rungs 1 and 2; no uncorrectable codeword and at most 10^-5 of the
symbols corrected at rungs 3 and 4. -/
def windowPass (rung hdrErrs uncorr corr : Nat) : Bool :=
  if rung ≤ 2 then hdrErrs == 0 else uncorr == 0 && decide (corr ≤ if rung = 3 then 53 else 56)

/-- The local window ends (R42): the verdict goes to the partner; a fail ends the step (R43), a pass waits for the
partner's or makes the lane ACTIVE. -/
def execVerifyWindowEnd (lane hdrErrs uncorr corr : Nat) (s : State) : Res :=
  if s.laneState lane = laneVerify && !s.on .LANE_H_RETURN lane then
    let s := (s.add .LANE_CNT_CORR lane corr).add .LANE_CNT_UNCORR lane uncorr
    if windowPass (s.get .LANE_STATUS_RUNG lane) hdrErrs uncorr corr then
      let s := (s.set .LANE_H_VERD_L lane 1).emit (.laneCtl lane 0x564F4B 1)
      .next (if s.get .LANE_H_VERD_P lane = 1 then s.laneUp lane
        else if s.get .LANE_H_VERD_P lane = 2 then s.stepFail lane else s)
    else .next ((s.emit (.laneCtl lane 0x564E4B 1)).stepFail lane)
  else .next s

/-- The partner's verdict arrives (R42, R43). -/
def execVerdictReceived (lane : Nat) (pass : Bool) (s : State) : Res :=
  if s.on .LANE_H_RETURN lane then .next s
  else if s.laneState lane = laneVerify then
    if pass then
      .next (if s.get .LANE_H_VERD_L lane = 1 then s.laneUp lane else s.set .LANE_H_VERD_P lane 1)
    else .next (s.stepFail lane)
  else if s.laneState lane = laneStep then
    .next (if pass then s.set .LANE_H_VERD_P lane 1 else s.stepFail lane)
  else .next s

/-- 100 µs after the local window no verdict has come: it counts as a fail (R42). -/
def execVerdictTimeout (lane : Nat) (s : State) : Res :=
  .next (if s.laneState lane = laneVerify && !s.on .LANE_H_RETURN lane && s.get .LANE_H_VERD_L lane ≠ 0 && s.get .LANE_H_VERD_P lane = 0 then
    s.stepFail lane else s)

/-- The 2 ms negotiate timer expires (R43). -/
def execNegotiateTimeout (lane : Nat) (s : State) : Res :=
  .next (if s.laneState lane = laneNegotiate then s.backoff lane Reason.negotiateTimeout else s)

/-- Signal has been present in DETECT for 10 ms without entry to NEGOTIATE (R43). -/
def execNoLts (lane : Nat) (s : State) : Res :=
  .next (if s.laneState lane = laneDetect && s.on .LANE_STATUS_SIG lane && !s.isEgress lane then
    s.backoff lane Reason.noLts else s)

/-- 5 ms since entry to STEP without both verdicts (R43). -/
def execStepTimeout (lane : Nat) (s : State) : Res :=
  .next (if (s.laneState lane = laneStep || s.laneState lane = laneVerify) && !s.on .LANE_H_RETURN lane then s.stepFail lane
    else s)

/-- Block lock or codeword alignment is lost in ACTIVE (R43); not in receive nap, where no signal comes (R52). -/
def execAlignLoss (lane : Nat) (s : State) : Res :=
  .next (if s.laneState lane = laneActive && !s.isEgress lane && !s.on .LANE_STATUS_RX_NAP lane then
    (s.set .LANE_H_BLOCK lane 0).leaveActive lane Reason.alignLoss else s)

/-- The receiver has napped longer than its timeout (R43, R53). -/
def execNapTimeout (lane : Nat) (s : State) : Res :=
  .next (if s.laneState lane = laneActive && s.on .LANE_STATUS_RX_NAP lane then
    (s.set .LANE_STATUS_RX_NAP lane 0).leaveActiveNap lane else s)

/-- The wait in BACKOFF has elapsed (R43, R45). -/
def execBackoffExpiry (lane : Nat) (s : State) : Res :=
  .next (if s.laneState lane = laneBackoff then s.enterDetect lane else s)

/-- The lane has been ACTIVE for 1 s without a break: the fail count returns to 0 (R45). -/
def execActiveStable (lane : Nat) (s : State) : Res :=
  .next (if s.laneState lane = laneActive then (s.set .LANE_H_STABLE lane 1).set .LANE_STATUS_FAIL_COUNT lane 0 else s)

/-! ### Control -/

/-- Record of a write to `LANE_CTRL`. -/
def State.laneCtrlRec (s : State) (lane : Nat) (src : Src) (old new : Nat) : AuditRec :=
  s.auditRec src 1 1 (0x100004 + 0x1000 * lane) (valueDigest old) (valueDigest new)

/-- The lane enters DETECT by command; an egress lane that has signal and lock is ACTIVE at once (R46). -/
def State.retry (s : State) (n : Nat) : State := (s.enterDetect n).tryEgress n

/-- `ENABLE` written 1 (R43): the lane trains unless its quad is off. -/
def effLaneEnable (lane : Nat) (s : State) : State :=
  let s := s.set .LANE_CTRL_ENABLE lane 1
  if s.laneState lane = laneDisabled && s.get .LANE_ID_ROLE lane ≠ 0 then
    (((s.set .LANE_STATUS_FAIL_COUNT lane 0).set .LANE_STATUS_EXCLUDED lane 0).set .LANE_H_LIMIT lane 4).retry lane
  else s

/-- `ENABLE` written 0 (R43): the transmitter is squelched. -/
def effLaneDisable (lane : Nat) (s : State) : State :=
  (s.set .LANE_CTRL_ENABLE lane 0).laneHold lane

/-- `RETRAIN` written 1 (R43). -/
def effLaneRetrain (lane : Nat) (s : State) : State :=
  let st := s.laneState lane
  if st = laneDisabled || st = laneBackoff then s
  else
    let s := s.reason lane Reason.softwareRetrain
    let s := if st = laneActive then s.laneDown lane else s
    (((s.set .LANE_STATUS_FAIL_COUNT lane 0).set .LANE_STATUS_EXCLUDED lane 0).set .LANE_H_LIMIT lane 4).retry lane

/-- `LANE_CTRL.ENABLE` goes to 1: installer, recorded (R43, R429). -/
def execLaneEnable (lane : Nat) (src : Src) (s : State) : Res :=
  if s.gate src .installer (20 + lane / 4) ≠ .ok then .next (s.answer src 0 (s.gate src .installer (20 + lane / 4)))
  else .next (s.recorded src 0 (.laneEnable lane src) (s.laneCtrlRec lane src (s.get .LANE_CTRL_ENABLE lane) 1)
    (effLaneEnable lane))

/-- `LANE_CTRL.ENABLE` goes to 0: installer, recorded. -/
def execLaneDisable (lane : Nat) (src : Src) (s : State) : Res :=
  if s.gate src .installer (20 + lane / 4) ≠ .ok then .next (s.answer src 0 (s.gate src .installer (20 + lane / 4)))
  else .next (s.recorded src 0 (.laneDisable lane src) (s.laneCtrlRec lane src (s.get .LANE_CTRL_ENABLE lane) 0)
    (effLaneDisable lane))

/-- `LANE_CTRL.RETRAIN` written 1: installer, recorded. -/
def execLaneRetrain (lane : Nat) (src : Src) (s : State) : Res :=
  if s.gate src .installer (20 + lane / 4) ≠ .ok then .next (s.answer src 0 (s.gate src .installer (20 + lane / 4)))
  else .next (s.recorded src 0 (.laneRetrain lane src) (s.laneCtrlRec lane src 0 2) (effLaneRetrain lane))

/-- `LANE_CTRL.CLR_CNT` clears the four lane counters (R515). -/
def State.laneClrCnt (s : State) (lane : Nat) : State :=
  [Fld.LANE_CNT_CORR, .LANE_CNT_UNCORR, .LANE_CNT_LOS, .LANE_CNT_FAIL].foldl (fun s f => s.set f lane 0) s

/-- The command form of `CLR_CNT`. -/
def execLaneClrCnt (lane : Nat) (src : Src) (s : State) : Res :=
  if s.gate src .operator (20 + lane / 4) ≠ .ok then .next (s.answer src 0 (s.gate src .operator (20 + lane / 4))) else .next ((s.laneClrCnt lane).answer src 0 .ok)

/-! ### Equalisation overrides -/

/-- The settings the three staging registers of a lane hold (R37). -/
def State.eqStaged (s : State) (n : Nat) : EqEntry :=
  ⟨s.get .LANE_EQ_TX_PRE2 n, s.get .LANE_EQ_TX_PRE1 n, s.get .LANE_EQ_TX_MAIN n, s.get .LANE_EQ_TX_POST1 n,
   s.get .LANE_EQ_RX_CTLE n, s.get .LANE_EQ_RX_VGA n, s.get .LANE_EQ_RX_DFE1 n, s.get .LANE_EQ_RX_DFE2 n,
   s.get .LANE_EQ_RX2_DFE3 n, s.get .LANE_EQ_RX2_RX_INV n, s.get .LANE_EQ_RX2_TX_INV n, 3⟩

/-- The override of the selected rung is stored (R37): in effect at the lane's next load of that rung, and kept as an
installer setting. -/
def effLaneEqCommit (lane : Nat) (src : Src) (s : State) : State :=
  if !eqValid (s.eqStaged lane) || decide (4 < s.get .LANE_EQ_SEL_RUNG lane) then s.answer src 0 .range
  else
    let k := 5 * lane + s.get .LANE_EQ_SEL_RUNG lane
    let e := s.eqStaged lane
    ({ s with lane := { s.lane with eqTable := tabPut s.lane.eqTable k e,
                                    eqKept := tabPut s.lane.eqKept k e } } : State).set .LANE_EQ_RX2_SRC lane 3

/-- `LANE_EQ_RX2.COMMIT` (R36, R37): RIGHTS below installer, RANGE for an override that fails R36. -/
def execLaneEqCommit (lane : Nat) (src : Src) (s : State) : Res :=
  if s.gate src .installer (20 + lane / 4) ≠ .ok then .next (s.answer src 0 (s.gate src .installer (20 + lane / 4)))
  else if s.settingsBusy src then .next (s.answer src 0 .busy)
  else if !eqValid (s.eqStaged lane) || decide (4 < s.get .LANE_EQ_SEL_RUNG lane) then .next (s.answer src 0 .range)
  else .next (s.recorded src 0 (.laneEqCommit lane src)
    (s.auditRec src 2 1 (0x100028 + 0x1000 * lane) noValue noValue) (effLaneEqCommit lane src))

/-! ### Idle, nap and eye scan -/

/-- A change of temperature as `LANE_IDLE.DTJ` holds it: one beyond its 8 bits shows the nearest value (DESIGN CHOICE: the
spec gives the field no rule for that). -/
def dtjOf (d : Int) : Nat := ofSigned 8 (max (-128) (min 127 d))

/-- A receiver that sees only idle sets has idled this long, at this change of junction temperature since the last trim (R49):
600 s or 15 °C call for a trim pass on the idle sets (R50). -/
def execIdleTrim (lane idleMs : Nat) (dTj : Int) (s : State) : Res :=
  let s := (s.set .LANE_IDLE_IDLE_MS lane (min idleMs 0xFFFFFF)).set .LANE_IDLE_DTJ lane (dtjOf dTj)
  .next ((s.set .LANE_H_IDLE lane 1).trimIfDue lane)

/-- The trim pass ends: the new offsets hold, and idle and temperature count from here (R50, R56). -/
def execTrimPassEnd (lane : Nat) (s : State) : Res :=
  if s.on .LANE_H_TRIM lane then
    .next (((s.set .LANE_H_TRIM lane 0).set .LANE_IDLE_IDLE_MS lane 0).set .LANE_IDLE_DTJ lane 0)
  else .next s

/-- The in-service trim corrects one slicer while payload flows (R51): it holds in idle (R49) and in receive nap (R52), and
waits for a scan or a trim pass to end (R53, R56). -/
def execServiceTrim (lane : Nat) (s : State) : Res :=
  if s.laneState lane = laneActive && !s.on .LANE_H_IDLE lane && !s.on .LANE_STATUS_RX_NAP lane &&
      !s.on .LANE_EYE_STATUS_BUSY lane && !s.on .LANE_H_TRIM lane then
    .next (((s.bump .LANE_H_SLICER lane 1).set .LANE_IDLE_IDLE_MS lane 0).set .LANE_IDLE_DTJ lane 0)
  else .next s

/-- The transmitter of a fabric lane naps after 100 µs of idle (R52): 16 nap control blocks. -/
def execTxNap (lane : Nat) (s : State) : Res :=
  if s.laneState lane = laneActive && s.get .LANE_ID_ROLE lane = 3 && s.on .LANE_CTRL_TX_NAP_EN lane &&
      !s.on .LANE_STATUS_TX_NAP lane then
    .next ((s.set .LANE_STATUS_TX_NAP lane 1).emit (.laneCtl lane 0x4E4150 16))
  else .next s

/-- The transmitter wakes on the first payload (R52): 64 wake control blocks. -/
def execTxWake (lane : Nat) (s : State) : Res :=
  if s.on .LANE_STATUS_TX_NAP lane then
    .next ((s.set .LANE_STATUS_TX_NAP lane 0).emit (.laneCtl lane 0x57414B 64))
  else .next s

/-- Two nap blocks have arrived: the receiver naps (R52). -/
def execRxNap (lane : Nat) (s : State) : Res :=
  if s.laneState lane = laneActive && !s.isEgress lane then .next (s.set .LANE_STATUS_RX_NAP lane 1) else .next s

/-- A scan point starts, or ends at once with ABORTED (R55, R56). DESIGN CHOICE: the spec gives no order of the reasons; a
start that is both outside ACTIVE and out of range reports 1. -/
def effEyeScanStart (lane : Nat) (s : State) : State :=
  if s.on .LANE_EYE_STATUS_BUSY lane then s
  else
    let s := s.set .LANE_EYE_ERR lane 0
    let lg := s.get .LANE_EYE_CTRL_LOG2_SAMPLES lane
    let why := if s.laneState lane ≠ laneActive || s.get .LANE_STATUS_RUNG lane = 0 then 1
      else if lg < 10 || 30 < lg || s.get .LANE_EYE_CTRL_EYE lane = 3 then 3 else 0
    if why ≠ 0 then (s.set .LANE_EYE_STATUS_ABORTED lane 1).set .LANE_EYE_STATUS_ABORT_REASON lane why
    else (s.set .LANE_EYE_STATUS_BUSY lane 1).set .LANE_EYE_STATUS_RESTARTS lane 0

/-- `LANE_EYE_CTRL.START` by an installer, recorded; ignored while BUSY (R55, R56). -/
def execEyeScanStart (lane : Nat) (src : Src) (s : State) : Res :=
  if s.gate src .installer (20 + lane / 4) ≠ .ok then .next (s.answer src 0 (s.gate src .installer (20 + lane / 4)))
  else .next (s.recorded src 0 (.eyeScanStart lane src)
    (s.auditRec src 1 1 (0x100050 + 0x1000 * lane) noValue noValue) (effEyeScanStart lane))

/-- The scan point is complete with its count of mismatches (R55). -/
def execEyeScanDone (lane mismatches : Nat) (s : State) : Res :=
  if s.on .LANE_EYE_STATUS_BUSY lane && !s.on .LANE_H_TRIM lane then
    .next (((s.set .LANE_EYE_STATUS_BUSY lane 0).set .LANE_EYE_STATUS_DONE lane 1).set .LANE_EYE_ERR lane
      (min mismatches 0xFFFFFFFF))
  else .next s

end Sys2Proof.Machine
end

