-- ==== Sys2Proof/Machine/Mem.lean ====
section
/-! DEFINITION. LPDDR5X memory and the on-chip network (14_memory_subsystem.md). -/

namespace Sys2Proof.Machine

/-- A network transaction is well formed (R356): inside the usable capacity, 32 to 256 bytes of one 256-byte granule; pieces
of the bridge and words of the management port may be shorter. -/
def State.memRange (s : State) (blk : Nat) (src : Src) (addr len : Nat) : Bool :=
  let least := if blk < 24 then 32 else match src.ini with | .mgt => 32 | _ => 1
  memBase ≤ addr && addr + len ≤ memBase + s.memUsable && least ≤ len && len ≤ 256 && addr / 256 == (addr + len - 1) / 256

/-- A write into the management region is allowed (R354): from the management processor, or from a bridge session of role
maker while the management complex is there (R362). -/
def State.mgtRegionOk (s : State) (blk : Nat) (src : Src) : Bool :=
  if blk < 24 then blk == 0
  else match src.ini with
    | .mgt => true
    | .slot _ => s.mayAs src .maker && !s.on .BOOT_H_AWAY
    | _ => false

/-- The initiator is the management processor. -/
def isMgt (blk : Nat) (src : Src) : Bool := if blk < 24 then blk == 0 else src.ini == .mgt

/-- The checks a transaction meets on arrival (R348, R354, R359, R361, R362, in the order of 21_register_map.md R508). -/
def State.memCheck (s : State) (blk : Nat) (src : Src) (addr len : Nat) (write : Bool) : Status :=
  if !s.memRange blk src addr len then .range
  else if s.unitDown 16 || s.get .PWR_H_STATE ≥ 2 || (s.on .MEM_CTRL_FENCE && !isMgt blk src) then .targetReset
  else if s.inTest 16 then .selftest
  else if 24 ≤ blk && !s.mayAs src .operator then .rights
  else if write && addr < memBase + 2 ^ 30 && !s.mgtRegionOk blk src then .rights
  else .ok

/-- The controller carries a transaction out (R350, R352): a write stores its bytes; a read meets what error checking finds
and gives its status with its data. Inline ECC findings exist only where inline ECC is selected; a double-bit error stays
in its word until the word is written (R352). -/
def State.memPerform (s : State) (addr len : Nat) (data : Option (List Nat)) (err : MemErr) : State × Status × List Nat :=
  match data with
  | some d => (s.dramWrite addr (d.take len), .ok, [])
  | none =>
    let s := s.memCount addr len
    let bytes := s.memBytes addr len
    let ecc := s.on .MEM_STATUS_ECC_INLINE
    if !(s.badIn addr len).isEmpty then (s.readBad addr, .integrity, []) else
    match err with
    | .linkCorrected => (s.inc .MEM_CNT_LINK, .ok, bytes)
    | .linkFailed => (s, .integrity, [])
    | .single =>
      if ecc then ((s.inc .MEM_CNT_CE).memEvent 0 (memChannel addr) addr 0, .ok, bytes) else (s, .ok, bytes)
    | .double =>
      if ecc then (({ s with bad := sortIn (addr / 8) s.bad } : State).readBad addr, .integrity, [])
      else (s, .ok, bytes)
    | .none | .linkRetried => (s, .ok, bytes)

/-- An access that is carried out at once: a piece of the bridge or a word of the management port. -/
def State.memAccess (s : State) (src : Src) (addr len : Nat) (data : Option (List Nat)) (err : MemErr) :
    State × Status × List Nat :=
  let st := s.memCheck 255 src addr len data.isSome
  if st = .ok then s.memPerform addr len data err else (s.memDenied addr len data.isSome st, st, [])

/-- The class a waiting request is served as (R357). -/
def MemReq.class (r : MemReq) : Nat := if r.promoted && 1 < r.cls then 1 else r.cls

/-- Two requests of one initiator to one granule, which keep their order (R356). -/
def MemReq.sameGranule (r q : MemReq) : Bool :=
  r.blk == q.blk && (decide (r.blk < 24) || r.src.ini == q.src.ini) && r.addr / 256 == q.addr / 256

/-- The request of a channel that is served next: the lowest class, the oldest within it (R357), after an older one of the
same initiator to the same granule (R356). -/
def memNext (q : List MemReq) (ch : Nat) : Option Nat :=
  let mine := (List.range q.length).filter fun i => match q[i]? with
    | some r => memChannel r.addr == ch
    | none => false
  let cls (i : Nat) : Nat := match q[i]? with | some r => r.class | none => 4
  let least := (mine.map cls).foldl min 4
  match mine.find? fun i => cls i == least with
  | none => none
  | some i => match q[i]? with
    | none => none
    | some r => some ((mine.find? fun j => match q[j]? with | some x => r.sameGranule x | none => false).getD i)

/-- The channel serves every request that waits at it, in order; what error checking finds is of the last one to have
arrived. -/
def State.memServe (s : State) (ch : Nat) (err : MemErr) : Nat → State
  | 0 => s
  | fuel + 1 =>
    match memNext s.memq ch with
    | none => s
    | some i =>
      match s.memq[i]? with
      | none => s
      | some r =>
        let newest := !((s.memq.drop (i + 1)).any fun x => memChannel x.addr == ch)
        let s : State := { s with memq := s.memq.eraseIdx i }
        let res := s.memPerform r.addr r.len r.data (if newest then err else .none)
        (res.1.memDone r res.2.1 res.2.2).memServe ch (if newest then .none else err) fuel

/-- A transaction reaches its controller (R356). It is refused, waits while the channel is busy, or the channel serves all
that wait. -/
def execMemoryTransaction (blk : Nat) (src : Src) (cls addr len : Nat) (data : Option (List Nat)) (err : MemErr)
    (busy : Bool) (s : State) : Res :=
  let r : MemReq := ⟨if blk < 24 then blk else 255, s.get .MGT_H_GEN blk, src, min cls 3, addr, len, data, s.elapsed, false⟩
  let st := s.memCheck blk src addr len data.isSome
  if st ≠ .ok then .next ((s.memDenied addr len data.isSome st).memDone r st [])
  else
    let s : State := { s with memq := s.memq ++ [r] }
    if busy then .next s else .next (s.memServe (memChannel addr) err s.memq.length)

/-- A waiting request of class 2 or 3 has waited 20 µs and counts as class 1 (R357). -/
def execPriorityPromote (i : Nat) (s : State) : Res :=
  let up (r : MemReq) : MemReq := if r.born + 20000 ≤ s.elapsed then { r with promoted := true } else r
  .next { s with memq := s.memq.modify i up }

/-- MR4 of a channel is read and sets its level (R353); a rise sets THERM, level 3 THERM_HIGH. -/
def execMr4Poll (ch level : Nat) (s : State) : Res :=
  if 16 ≤ ch || 4 ≤ level || s.on .MEM_H_SELF then .next s
  else
    let v := s.get .MEM_TEMP_LEVELS
    let was := bits v (2 * ch) 2
    let s := s.set .MEM_TEMP_LEVELS 0 (v - was * 2 ^ (2 * ch) + level * 2 ^ (2 * ch))
    let s := if level = 3 && was < 3 then s.set .MEM_H_HOT ch s.elapsed else s
    let s := if was < level then s.memEvent 2 ch 0 level else s
    .next (if level = 3 && was < 3 then s.memEvent 3 0xFFFF 0 level else s)

/-- A refresh of a channel falls due and is performed, ahead of any transaction (R353, R362); in self-refresh the DRAM
refreshes itself. -/
def execRefresh (ch : Nat) (s : State) : Res :=
  if 16 ≤ ch || s.on .MEM_H_SELF then .next s else .next (s.inc .MEM_H_REFRESHED ch)

/-- The DRAM's write-link error count since the last poll is added (R350). -/
def execWriteLinkPoll (ch n : Nat) (s : State) : Res :=
  if 16 ≤ ch || s.on .MEM_H_SELF then .next s else .next (s.add .MEM_CNT_LINK 0 n)

/-- A job runs in CURRENT or loads into NEXT, which keeps the memory from being fenced (R361). -/
def State.memNeeded (s : State) : Bool := s.get .JOB_STATUS_CUR_STATE == 1 || s.get .JOB_STATUS_NEXT_STATE == 1

/-- `MEM_CTRL.FENCE` takes 1 (R361). -/
def effMemFence (src : Src) (s : State) : State :=
  if s.memNeeded then s.answer src 0 .state else s.set .MEM_CTRL_FENCE 0 1

/-- `MEM_CTRL.FENCE` written 1 (R361). -/
def execMemFence (src : Src) (s : State) : Res :=
  if s.gate src .installer 16 ≠ .ok then .next (s.answer src 0 (s.gate src .installer 16))
  else if s.memNeeded then .next (s.answer src 0 .state)
  else .next (s.recorded src 0 (.memFence src) (s.writeRec src 0x500008 1) (effMemFence src))

/-- Transactions in progress have completed: FENCED reads 1 (R361). -/
def execMemFenceDone (s : State) : Res :=
  if s.on .MEM_CTRL_FENCE && s.memq.all (fun r => isMgt r.blk r.src) then .next (s.set .MEM_CTRL_FENCED 0 1) else .next s

/-- The controllers and PHYs reset, the ranks in self-refresh (R361). -/
def effMemReset (src : Src) (s : State) : State :=
  if !s.on .MEM_CTRL_FENCED then s.answer src 0 .state
  else ((s.set .MEM_H_SELF 0 1).set .MEM_STATUS_TRAINED 0 0).blockReset 16

/-- `MEM_CTRL.RESET` (R361). -/
def execMemReset (src : Src) (s : State) : Res :=
  if s.gate src .installer 16 ≠ .ok then .next (s.answer src 0 (s.gate src .installer 16))
  else if !s.on .MEM_CTRL_FENCED then .next (s.answer src 0 .state)
  else .next (s.recorded src 0 (.memReset src) (s.writeRec src 0x500008 (2 + s.get .MEM_CTRL_FENCE)) (effMemReset src))

/-- The ranks have left self-refresh: the reset is over (R361). -/
def execMemResetDone (s : State) : Res :=
  if s.on .PWR_H_RESETTING 16 then
    .next (((s.set .PWR_H_RESETTING 16 0).set .MEM_H_SELF 0 0).set .MEM_STATUS_TRAINED 0 1)
  else .next s

/-- `CLR_CNT` clears the memory counters (R515). -/
def State.memClrCnt (s : State) : State :=
  [Fld.MEM_CNT_CE, .MEM_CNT_UE, .MEM_CNT_LINK, .MEM_CNT_DENIED, .MEM_CNT_FS_FULL].foldl (fun s f => s.set f 0 0) s

/-- The command form of `CLR_CNT`. -/
def execMemClrCnt (src : Src) (s : State) : Res :=
  if s.gate src .operator 16 ≠ .ok then .next (s.answer src 0 (s.gate src .operator 16))
  else .next (s.memClrCnt.answer src 0 .ok)

end Sys2Proof.Machine
end

