-- ==== Sys2Proof/Machine/FabNet.lean ====
section
/-! DEFINITION. What a fabric node does with a packet addressed to it or passing through it (15_botex_fabric.md R371 to R385):
waymarks, link state, ID tables, time exchanges, control requests, bulk transfers, late errors and forwarding. -/

namespace Sys2Proof.Machine

/-! ### Waymarks (R373, R386) -/

/-- Body of this node's waymark on a port. -/
def State.waymarkBody (s : State) (p : Nat) : List Nat :=
  let pin := if s.on .FAB_PIN_PIN_EN then s.get .FAB_PIN_PIN_ID else 0xFF
  leBytes 8 s.uid ++ [1, 2, 0, p, s.node, pin, s.get .FAB_NODE_DEPTH, 0] ++ leBytes 8 (s.get .FAB_ROOT) ++
    leBytes 4 (s.get .FAB_H_EPOCH) ++ [0, 0, 0, 0]

/-- The highest major of both, 0 when the ranges do not overlap (R386). -/
def agreedMajor (lo hi : Nat) : Nat := if max lo 1 ≤ min hi 2 then min hi 2 else 0

/-- The epoch a neighbour advertises has advanced beyond the one recorded, for the same root; epochs are compared modulo
2^32. -/
def Waymark.advances (old : Waymark) (root epoch : Nat) : Bool :=
  old.root != root || (old.epoch != epoch && decide ((epoch + 2 ^ 32 - old.epoch) % 2 ^ 32 < 2 ^ 31))

/-- A waymark of a neighbour (R364, R373, R386): recorded, and the port takes the state it calls for. -/
def State.waymarkIn (s : State) (p : Nat) (b : List Nat) : State :=
  let uid := leAt b 0 8
  let root := leAt b 16 8
  let epoch := leAt b 24 4
  let old := s.fab.marks.find? fun e => e.1 == p
  let adv := match old with
    | some (_, o) => if o.advances root epoch then s.elapsed else o.advanced
    | none => s.elapsed
  let w : Waymark := ⟨uid, b.getD 11 0, b.getD 12 0, b.getD 13 0, b.getD 14 0, root, epoch, s.elapsed, adv⟩
  let was := s.portState p
  let known := s.get .FAB_PORT_NEIGH p
  let ver := agreedMajor (b.getD 8 0) (b.getD 9 0)
  let admitted := s.fab.admitted.isEmpty || s.fab.admitted.contains uid
  let st := if uid = s.uid then portLoop
    else if ver = 0 || !admitted then portNoVersion
    else if s.fabUp p then (if ver = 2 then was else portUpOne)
    else if ver = 2 && s.portPaired p then portUpTwo else portUpOne
  let lanes := if st = portUpTwo then 3 else if s.portOn p % 2 = 1 then 1 else s.portOn p
  let up := st == portUpOne || st == portUpTwo
  let wasUp := s.fabUp p
  let s : State := { s with fab := { s.fab with marks := tabPut s.fab.marks p w } }
  let sets : List (Fld × Nat) := [(.FAB_PORT_NEIGH, uid), (.FAB_PORT_STATUS_NEIGH_ID, w.node), (.FAB_PORT_STATUS_VER, ver),
    (.FAB_PORT_STATUS_STATE, st), (.FAB_PORT_STATUS_LANES, if up then lanes else 0)]
  let s := sets.foldl (fun s q => s.set q.1 p q.2) s
  let s := if st = portNoVersion && (old.isNone || was != portNoVersion) then s.fabEvent 1 p uid w.node 0 else s
  let s := if up && !wasUp then s.advertise p else s
  if st != was || known != uid then (s.fabEvent 3 0xFFFF uid w.node 0).portChanged else s

/-! ### Link state (R375) -/

/-- A packet with its hop limit lowered by one. -/
def hopped (d : List Nat) : List Nat := d.set 4 (d.getD 4 0 - 1)

/-- Copies of a broadcast go out on the ports of a list, unless its hop limit is used up. -/
def State.fanOut (s : State) (ports : List Nat) (d : List Nat) : State :=
  if d.getD 4 0 ≤ 1 then s
  else ports.foldl (fun s q => s.fabQueue q ⟨1, hopped d, none, false, false⟩) s

/-- The record of an origin. -/
def State.lsRecord (s : State) (uid : Nat) : Option LsRecord := s.fab.db.find? fun r => r.origin == uid

/-- A link-state record arrives: seen before it is discarded, else kept and flooded on. -/
def State.linkStateIn (s : State) (p : Nat) (d : List Nat) : State :=
  let b := pktBody d
  let origin := leAt b 0 8
  let seq := leAt b 8 4
  let old := s.lsRecord origin
  let seen := match old with
    | some r => decide ((r.seq + 2 ^ 32 - seq) % 2 ^ 32 < 2 ^ 31)
    | none => false
  if origin = s.uid || seen then s
  else
    let same := match old with
      | some r => r.body.take 8 == b.take 8 && r.body.drop 12 == b.drop 12
      | none => false
    let s : State := { s with fab := { s.fab with
      db := s.fab.db.filter (fun r => r.origin != origin) ++ [⟨origin, seq, b, s.elapsed⟩] } }
    let s := s.fanOut (s.upPorts.filter (· != p)) d
    if same then s else (s.fabEvent 3 0xFFFF origin (b.getD 12 0xFF) 0).stageRoutes

/-! ### ID tables (R376, R385, R389) -/

/-- Bytes of an ID table's entries. -/
def tableBody (epoch : Nat) (l : List IdEntry) : List Nat :=
  leBytes 4 epoch ++ leBytes 2 l.length ++ [0, 0] ++
    l.flatMap fun e => leBytes 8 e.uid ++ [e.id, e.flags] ++ List.replicate 6 0

/-- Entries of an ID table. -/
def tableEntries (b : List Nat) : List IdEntry :=
  (List.range (leAt b 4 2)).map fun i => ⟨leAt b (8 + 16 * i) 8, b.getD (16 + 16 * i) 253, b.getD (17 + 16 * i) 0⟩

/-- This node adopts an ID table. A leader whose CURRENT runs brings in a listed follower that has joined (R385). -/
def State.adoptTable (s : State) (epoch : Nat) (l : List IdEntry) : State :=
  let old := s.fab.table
  let s := { (s.set .FAB_H_TABEPOCH 0 epoch) with fab := { s.fab with table := l } }
  let s := s.set .FAB_NODE_NODES 0 (l.filter fun e => decide (e.id < 64)).length
  let s := match l.find? fun e => e.uid == s.uid with
    | none => s
    | some e =>
      let s := s.set .FAB_NODE_NODE_ID 0 e.id
      let s := if e.flags.testBit 1 then s.fabEvent 5 0xFFFF s.uid e.id 0 else s
      if e.id = 253 then s.fabEvent 6 0xFFFF s.uid 0xFF 0 else s
  let s := s.stageRoutes
  let has (t : List IdEntry) (u : Nat) : Bool := t.any fun e => e.uid == u && decide (e.id < 64)
  if s.isLeader && s.jobRuns then
    (s.job.followers.filter fun u => has l u && !has old u).foldl (fun s u => s.peerSend u 1
      (jobMessage 1 (s.get .JOB_STATUS_SW_MARK) (s.get .JOB_IDS_CUR_ID) (s.get .JOB_HAMPERS_CUR_HAMPER) 0)) s
  else s

/-- An ID table arrives: forwarded on the tree, and adopted by the firmware when it comes from the current root with a higher
epoch. -/
def State.idTableIn (s : State) (p : Nat) (d : List Nat) : State :=
  let b := pktBody d
  let l := tableEntries b
  let epoch := leAt b 0 4
  let mask := s.get .FAB_ROUTE_COMMIT_BCAST_MASK
  let s := s.fanOut (s.upPorts.filter fun q => mask.testBit q && q != p) d
  let fromRoot := l.any fun e => e.uid == s.get .FAB_ROOT && e.id == d.getD 3 253
  if s.on .BOOT_H_AWAY || !fromRoot || s.on .FAB_NODE_ROOT || epoch ≤ s.get .FAB_H_TABEPOCH ||
      b.length < 8 + 16 * l.length then s
  else s.adoptTable epoch l

/-! ### Fabric time (R379 to R381) -/

/-- The device time in 1/16 ns. -/
def State.now16 (s : State) : Nat := s.now * 16 + s.get .SYN_TB_H_FRAC / 2 ^ 28

/-- This node's own port correction towards its parent, in 1/16 ns. -/
def State.asym (s : State) (p : Nat) : Int := toSigned 16 (s.get .FAB_PORT_CFG_ASYM p)

/-- A parent answers a time request with its receive time; the departure time is filled in when the response leaves. -/
def State.timeRequestIn (s : State) (p : Nat) (d : List Nat) (stamp : Nat) : State :=
  let t2 := min stamp s.now16
  let frac := if s.get .FAB_PORT_STATUS_VER p = 2 then t2 % 16 else 0
  let body := (d.drop 8).take 4 ++ [0, 0, 0, 0] ++ leBytes 8 (t2 / 16) ++ leBytes 8 0 ++ [frac] ++ List.replicate 7 0
  s.fabQueue p ⟨0, s.ownPacket 0x11 254 0 (leAt d 8 4) body, none, false, true⟩

/-- The departure time of a time response is entered when its start block leaves. -/
def State.stampDeparture (s : State) (p : Nat) (d : List Nat) : List Nat :=
  let frac := if s.get .FAB_PORT_STATUS_VER p = 2 then s.now16 % 16 * 16 else 0
  d.take 32 ++ leBytes 8 s.now ++ [d.getD 40 0 % 16 + frac] ++ d.drop 41

/-- Offset and delay of an exchange in 1/16 ns (R379). -/
def exchange (t1 t2 t3 t4 asym : Int) : Int × Int :=
  (((t4 - t3) - (t2 - t1) - asym) / 2, ((t4 - t1) - (t3 - t2)) / 2)

/-- The first offset is removed (R380): by a step while no trigger generator is enabled, else by a slew. -/
def State.removeOffset (s : State) (off : Int) : State :=
  if (List.range 128).any fun c => s.genOn c then
    s.slewBy (-(off * 2 ^ 28))
  else
    let t := ((s.now * 2 ^ 32 + s.get .SYN_TB_H_FRAC : Nat) : Int) - off * 2 ^ 28
    (s.set .SYN_TB_TIME 0 (t.toNat / 2 ^ 32)).set .SYN_TB_H_FRAC 0 (t.toNat % 2 ^ 32)

/-- The node is no longer time locked. -/
def State.timeUnlock (s : State) : State :=
  let was := s.on .FAB_NODE_TIME_LOCKED
  let s := (s.set .FAB_NODE_TIME_LOCKED 0 0).set .FAB_H_GOOD 0 0
  if was then s.fabEvent 7 0xFFFF s.uid s.node 0 else s

/-- A node that steers by the fabric uses an offset (R380). -/
def State.useOffset (s : State) (off : Int) : State :=
  let first := s.on .FAB_H_FIRST
  let s := if first then ((s.set .FAB_H_FIRST 0 0).set .PWR_H_STEPPED 0 1).removeOffset off
    else (s.set .FAB_H_SUM 0 (ofSigned 64 (toSigned 64 (s.get .FAB_H_SUM) + off))).set .FAB_H_CNT 0
      (min 127 (s.get .FAB_H_CNT + 1))
  let good := if off.natAbs ≤ 32 then min 64 (s.get .FAB_H_GOOD + 1) else 0
  let bad := if 128 < off.natAbs then min 8 (s.get .FAB_H_BAD + 1) else 0
  let s := (s.set .FAB_H_GOOD 0 good).set .FAB_H_BAD 0 bad
  if good = 64 then s.set .FAB_NODE_TIME_LOCKED 0 1 else if bad = 8 then s.timeUnlock else s

/-- A time response arrives at port `p`: an exchange that stands ends with its offset and delay. -/
def State.timeResponseIn (s : State) (p : Nat) (d : List Nat) (stamp : Nat) : State :=
  let b := pktBody d
  if !s.on .FAB_H_T1OK || p ≠ s.get .FAB_H_PARENT || leAt b 0 4 ≠ s.get .FAB_H_XCHG then s
  else
    let frac := if s.get .FAB_PORT_STATUS_VER p = 2 then b.getD 24 0 else 0
    let t2 := leAt b 8 8 * 16 + frac % 16
    let t3 := leAt b 16 8 * 16 + frac / 16
    let r := exchange (s.get .FAB_H_T1) t2 t3 (min stamp s.now16) (s.asym p)
    let s := ((s.set .FAB_H_T1OK 0 0).set .FAB_TIME_OFFSET 0 (ofSigned 32 r.1)).set .FAB_TIME_DELAY 0 (ofSigned 32 r.2)
    if s.get .SYN_TB_CTRL_SRC = 2 && !s.on .FAB_NODE_ROOT then s.useOffset r.1 else s

/-! ### Control requests and bulk transfers (R378, R383) -/

/-- The status with a code; an unknown code counts as FAR_ERROR. -/
def statusOf : Nat → Status
  | 0 => .ok | 1 => .busy | 2 => .state | 3 => .rights | 4 => .range | 5 => .selftest | 6 => .targetReset | 7 => .timeout
  | 8 => .farError | 9 => .integrity | 10 => .version | 11 => .nospace | _ => .farError

/-- A bulk commit: OK when exactly that many distinct packets and bytes have come; the transfer is forgotten. -/
def State.bulkCommit (s : State) (node tag id packets bytes : Nat) : State :=
  let st : Status := if s.inTest 15 then .selftest else if s.on .FAB_CTRL_FENCE then .busy
    else match s.fab.bulk.find? fun t => t.node == node && t.id == id with
      | some t => if t.idx.length = packets && t.bytes = bytes then .ok else .farError
      | none => if packets = 0 && bytes = 0 then .ok else .farError
  let s : State := if st = .ok || st = .farError then
      { s with fab := { s.fab with bulk := s.fab.bulk.filter fun t => !(t.node == node && t.id == id) } } else s
  s.ctrlReply node tag 3 st []

/-- A control request addressed to this node. -/
def State.ctrlRequestIn (s : State) (d : List Nat) : State :=
  let b := pktBody d
  let node := d.getD 3 0
  let tag := leAt d 8 4
  let v := b.drop 4
  match b.getD 0 0 with
  | 1 => match v.getD 0 0 with
    | 1 => s.msgPrepare node tag (v.getD 1 0 % 4) (leAt v 2 2) (leAt v 4 2)
    | 2 => s.msgArm node tag (v.getD 1 0 % 4) (leAt v 2 2) (leAt v 8 8)
    | 3 => s.msgCancel node tag (leAt v 2 2)
    | _ => s.ctrlReply node tag 1 .range []
  | 2 => if s.inTest 15 then s.ctrlReply node tag 2 .selftest []
    else if s.on .FAB_CTRL_FENCE || s.on .BOOT_H_AWAY then s.ctrlReply node tag 2 .busy []
    else s.emit (.fabMessage node tag v)
  | 3 => s.bulkCommit node tag (leAt v 0 2) (leAt v 4 4) (leAt v 8 8)
  | n => s.ctrlReply node tag n (if s.inTest 15 then .selftest else if s.on .FAB_CTRL_FENCE then .busy else .range) []

/-- A control reply addressed to this node; one that no request waits for is dropped and counted. -/
def State.ctrlReplyIn (s : State) (d : List Nat) : State :=
  let b := pktBody d
  let tag := leAt d 8 4
  if s.fab.reqs.any fun r => r.tag == tag then s.reqDone tag (statusOf (b.getD 1 0)) (b.drop 4)
  else s.inc .FAB_CNT_LATE_REPLY

/-- Data of a bulk packet goes into LPDDR5X while the memory takes it. -/
def State.bulkStore (s : State) (addr : Nat) (data : List Nat) : State × Bool :=
  (s.blockWrite addr data, s.memOpen addr data.length && decide (memBase + 2 ^ 30 ≤ addr))

/-- A bulk packet addressed to this node (R383, R391). -/
def State.bulkIn (s : State) (p : Nat) (d : List Nat) : State :=
  let b := pktBody d
  let node := d.getD 3 0
  let id := leAt b 0 2
  let idx := leAt b 4 4
  let off := leAt b 8 8
  let data := b.drop 16
  let k : FabPkt := ⟨3, d, none, false, false⟩
  let t := s.fab.bulk.find? fun t => t.node == node && t.id == id
  let others := s.fab.bulk.filter fun t => !(t.node == node && t.id == id)
  let win := s.get .FAB_RX_WIN_SIZE_SIZE_MIB * 2 ^ 20
  if s.on .FAB_CTRL_FENCE then s.fabDiscard k 5 p
  else if win = 0 || win < off + data.length then s.fabDiscard k 7 p
  else if t.isNone && 16 ≤ (s.fab.bulk.filter fun t => t.node == node).length then s.fabDiscard k 8 p
  else
    match s.bulkStore (s.get .FAB_RX_WIN_BASE + off) data with
    | (s, stored) =>
      let t := t.getD ⟨node, id, [], 0⟩
      let t := if !stored || t.idx.contains idx then t else { t with idx := t.idx ++ [idx], bytes := t.bytes + data.length }
      { s with fab := { s.fab with bulk := others ++ [t] } }

/-! ### A packet that has been received whole (R371, R372, R377) -/

/-- The class of a packet type, if the type is known. -/
def typeClass : Nat → Option Nat
  | 0x01 => some 1 | 0x02 => some 1 | 0x03 => some 1 | 0x10 => some 0 | 0x11 => some 0 | 0x20 => some 1 | 0x21 => some 1
  | 0x30 => some 2 | 0x40 => some 3 | 0x50 => some 1 | _ => none

/-- The packet is discarded and counted as unknown. -/
def State.fabUnknown (s : State) (p : Nat) : State := s.inc .FAB_PORT_CNT_CRC p

/-- The packet of this node's own ID is served. -/
def State.fabServed (s : State) (p : Nat) (d : List Nat) : State :=
  match d.getD 1 0 with
  | 0x20 => s.ctrlRequestIn d
  | 0x21 => s.ctrlReplyIn d
  | 0x30 => if s.on .FAB_CTRL_FENCE then s.fabDiscard ⟨2, d, none, false, false⟩ 5 p else s.seamReceived (pktBody d)
  | 0x40 => s.bulkIn p d
  | 0x50 => s.lateEnter ((pktBody d).take 32)
  | _ => s.fabUnknown p

/-- A packet passes on towards another node (R377). -/
def State.fabForward (s : State) (p cls : Nat) (d : List Nat) (poison : Bool) : State :=
  let k : FabPkt := ⟨cls, hopped d, some p, poison, false⟩
  if d.getD 4 0 ≤ 1 then s.fabDiscard k 3 p
  else match s.routeTo (d.getD 2 0) with
    | some q => s.fabQueue q k
    | none => s.fabDiscard k 2 p

/-- A packet of class `cls` has been received whole on port `p`; `stamp` is the time of its start block at the ball in
1/16 ns. -/
def State.netReceive (s : State) (p cls : Nat) (d : List Nat) (stamp : Nat) : State :=
  let taken := s.sendCredit p cls (pktCredits d)
  let ty := d.getD 1 0
  let dst := d.getD 2 0
  if d.getD 0 0 ≠ 1 || typeClass ty ≠ some cls || d.length ≠ 16 + leAt d 6 2 then taken.fabUnknown p
  else if !s.fabUp p && ty ≠ 0x01 then taken
  else if dst = 254 then
    match ty with
    | 0x01 => if d.length = 48 then taken.waymarkIn p (pktBody d) else taken.fabUnknown p
    | 0x10 => taken.timeRequestIn p d stamp
    | 0x11 => taken.timeResponseIn p d stamp
    | _ => taken.fabUnknown p
  else if dst = 255 then
    match ty with
    | 0x02 => taken.linkStateIn p d
    | 0x03 => taken.idTableIn p d
    | _ => taken.fabUnknown p
  else if dst = s.node && dst < 64 then taken.fabServed p d
  else s.fabForward p cls d false

/-- The received packet is of type `ty`: the meaning of the commands that name one type. -/
def State.netTyped (s : State) (p ty : Nat) (d : List Nat) (stamp : Nat) : State :=
  if d.getD 1 0 = ty && (s.portState p != portDown && s.portState p != portAsleep) then
    ((s.portPayload p).netReceive p ((typeClass ty).getD 1) d stamp).jobAnswers
  else s

end Sys2Proof.Machine
end

