-- ==== Sys2Proof/Machine/Fab.lean ====
section
/-! DEFINITION. The fabric's commands (15_botex_fabric.md): the link layer of a port, discovery, IDs, routes, time, fence and
reset. -/

namespace Sys2Proof.Machine

/-! ### Link layer: receiving (R365 to R369) -/

/-- The link header is well formed (R366). -/
def linkHeaderOk (h d : List Nat) : Bool :=
  h.length == 7 && decide (h.getD 0 0 < 4) && h.getD 4 0 == 0 && crc16 (h.take 5) == leAt h 5 2 && leAt h 1 2 == d.length &&
    decide (16 ≤ d.length) && decide (d.length ≤ 16384)

/-- A packet fails its check on a port (R368): counted; the first failure asks for the packet again and holds back later ones,
the second gives it up. -/
def State.linkBad (s : State) (p lseq : Nat) : State :=
  let s := (s.inc .FAB_PORT_CNT_CRC p).emit (.symbol p 0x4E [lseq, 0, 0, 0, 0])
  if s.on .FAB_H_NAKKED p then (s.set .FAB_H_RXSEQ p (lseq + 1)).set .FAB_H_NAKKED p 0
  else (s.set .FAB_H_RXSEQ p lseq).set .FAB_H_NAKKED p 1

/-- A Botex packet ends (R366, R368): `hdr` are bytes 1 to 7 of its start block, `crcBad` says that its CRC-32 fails, `poison`
that its `END` is poisoned, `cut` that its copy had begun to leave before its end, `stamp` when its start block came. -/
def execFabPacketReceived (p : Nat) (hdr data : List Nat) (crcBad poison cut : Bool) (stamp : Nat) (s : State) : Res :=
  let p := p % 8
  let s := s.portPayload p
  let exp := s.get .FAB_H_RXSEQ p
  let cls := hdr.getD 0 0
  let lseq := hdr.getD 3 0 % 256
  let back := s.sendCredit p cls (pktCredits data)
  let old := decide (128 ≤ (lseq + 256 - exp) % 256)
  let held := s.on .FAB_H_NAKKED p && lseq != exp
  if s.portState p = portDown || s.portState p = portAsleep then .next s
  else if !linkHeaderOk hdr data then .next (s.linkBad p exp)
  else if held then .next back
  else if crcBad then
    if old then .next (back.inc .FAB_PORT_CNT_CRC p)
    else
      let dst := data.getD 2 0
      let transit := cut && dst < 64 && dst != s.node && s.fabUp p
      .next ((if transit then (s.fabForward p cls data true) else back).linkBad p lseq).jobAnswers
  else if old then .next (back.emit (.symbol p 0x41 [(exp + 255) % 256, 0, 0, 0, 0]))
  else
    let take (s : State) : State := ((((s.set .FAB_H_RXSEQ p (lseq + 1)).set .FAB_H_NAKKED p 0).emit
      (.symbol p 0x41 [lseq, 0, 0, 0, 0])).inc .FAB_PORT_CNT_RX p)
    if poison then .next ((take back).inc .FAB_PORT_CNT_POISON p)
    else .next ((take s).netReceive p cls data stamp).jobAnswers

/-- A symbol with a non-zero reserved byte, or one its port's version lacks, is ignored and counted (R365). -/
def State.symbolBad (s : State) (p : Nat) : State := s.inc .FAB_PORT_CNT_CRC p

/-- Argument bytes from index `i` on are 0. -/
def argZero (arg : List Nat) (i : Nat) : Bool := (arg.drop i).all (· == 0)

/-- `ACK` frees the packets it covers (R368). -/
def execFabAck (p : Nat) (arg : List Nat) (s : State) : Res :=
  let p := p % 8
  let x := s.fabPort p
  let l := arg.getD 0 0 % 256
  let s' := s.set .FAB_H_ACKT p s.elapsed
  if !argZero arg 1 then .next (s.symbolBad p)
  else .next (s'.setPort p { x with sent := x.sent.filter fun e => decide (128 ≤ (l + 256 - e.lseq) % 256) })

/-- A packet of the replay buffer is given up at this hop after its resend (R368, R384). -/
def State.hopRetry (s : State) (p lseq : Nat) : State :=
  let x := s.fabPort p
  match x.sent.find? fun e => e.lseq == lseq with
  | none => s
  | some e =>
    let s := s.setPort p { x with sent := x.sent.filter fun e => e.lseq != lseq }
    let s := (s.inc .FAB_PORT_CNT_RETRY p).fabEvent 2 p (s.get .FAB_PORT_NEIGH p) (s.get .FAB_PORT_STATUS_NEIGH_ID p)
      (if e.pkt.cls = 0 then 0 else 1)
    s.fabDiscard e.pkt 1 p

/-- `NAK` makes the port send the named packet and all later ones again, each at most once; a resend already queued stays one
(R368, R390). -/
def execFabNak (p : Nat) (arg : List Nat) (s : State) : Res :=
  let p := p % 8
  let x := s.fabPort p
  let l := arg.getD 0 0 % 256
  if !argZero arg 1 then .next (s.symbolBad p)
  else match x.sent.find? fun e => e.lseq == l with
    | none => .next s
    | some e =>
      if e.due then .next s
      else if e.resent then .next (s.hopRetry p l).jobAnswers
      else .next (s.setPort p { x with sent := x.sent.map fun e =>
        if (e.lseq + 256 - l) % 256 < 128 && !e.resent then { e with resent := true, due := true } else e })

/-- 20 µs have passed on a port since the last `ACK`, the last resend, and the first packet that waits for an `ACK`. -/
def State.ackOverdue (s : State) (p : Nat) : Bool := decide (s.get .FAB_H_ACKT p + 20000 ≤ s.elapsed)

/-- 20 µs without `ACK`: the oldest unacknowledged packet is sent again, or given up (R368). -/
def execFabReplayTimeout (p : Nat) (s : State) : Res :=
  let p := p % 8
  let x := s.fabPort p
  match x.sent with
  | [] => .next s
  | e :: r =>
    if e.due || !s.ackOverdue p then .next s
    else if e.resent then .next (s.hopRetry p e.lseq).jobAnswers
    else .next (s.setPort p { x with sent := { e with resent := true, due := true } :: r })

/-- `CREDIT` returns credits of a class (R369). -/
def execFabCredit (p : Nat) (arg : List Nat) (s : State) : Res :=
  let p := p % 8
  let cls := arg.getD 0 0
  if 4 ≤ cls || !argZero arg 3 then .next (s.symbolBad p)
  else .next (s.add .FAB_H_CREDIT (4 * p + cls) (arg.getD 1 0 % 256 + 256 * (arg.getD 2 0 % 256)))

/-- `ALIGN` (R367): the receiver aligns its lanes; a lane that has returned to one rung with the other joins. -/
def execFabAlign (p : Nat) (arg : List Nat) (s : State) : Res :=
  let p := p % 8
  if 2 ≤ arg.getD 0 0 || !argZero arg 2 then .next (s.symbolBad p)
  else
    let s := s.set .FAB_H_ALIGN p (arg.getD 1 0)
    if s.portState p = portUpOne && s.get .FAB_PORT_STATUS_VER p = 2 && s.portPaired p then
      .next ((s.set .FAB_PORT_STATUS_STATE p portUpTwo).set .FAB_PORT_STATUS_LANES p 3).portChanged
    else .next s

/-- The sequences and credits of a port start over, and its buffers are advertised (R369). -/
def State.linkRestart (s : State) (p : Nat) : State :=
  let s := [0, 1, 2, 3].foldl (fun s c => s.set .FAB_H_CREDIT (4 * p + c) 0) s
  ((((s.set .FAB_H_TXSEQ p 0).set .FAB_H_RXSEQ p 0).set .FAB_H_NAKKED p 0)).advertise p

/-- `LINK_RESET` of the neighbour (R390): packets that wait for `ACK` are discarded. -/
def execLinkReset (p : Nat) (arg : List Nat) (s : State) : Res :=
  let p := p % 8
  let x := s.fabPort p
  if !argZero arg 0 then .next (s.symbolBad p)
  else if !s.fabUp p then .next s
  else
    let s := (s.setPort p { x with sent := [] }).linkRestart p
    .next (x.sent.foldl (fun s e => s.fabDiscard e.pkt 6 p) s).jobAnswers

/-- `SLEEP` of a version-2 neighbour (R387): the port is held ASLEEP, its lanes as disabled ones, the neighbour lost. -/
def execFabSleepSymbol (p : Nat) (arg : List Nat) (s : State) : Res :=
  let p := p % 8
  if !argZero arg 0 || s.get .FAB_PORT_STATUS_VER p ≠ 2 then .next (s.symbolBad p)
  else if !s.fabUp p then .next s
  else
    let s := s.neighbourLost p portAsleep
    .next (s.portLanesHold p).jobAnswers

/-! ### Link layer: sending (R366, R368 to R370) -/

/-- The port may start a packet: its credits cover it; in NO_VERSION and LOOP only waymarks pass (R364, R369). -/
def State.fabSendable (s : State) (p : Nat) (k : FabPkt) : Bool :=
  if s.fabUp p then decide (pktCredits k.data ≤ s.get .FAB_H_CREDIT (4 * p + k.cls)) else k.data.getD 1 0 == 0x01

/-- Credits of a packet that leaves are used up. -/
def State.useCredits (s : State) (p : Nat) (k : FabPkt) : State :=
  if s.fabUp p then
    s.set .FAB_H_CREDIT (4 * p + k.cls) (s.get .FAB_H_CREDIT (4 * p + k.cls) - pktCredits k.data) else s

/-- What a port has sent in the last 100 µs (R370). -/
def State.shareOpen (s : State) (p : Nat) : List (Nat × Nat × Nat) :=
  (s.fabPort p).share.filter fun e => decide (s.elapsed < e.1 + 100000)

/-- A packet that a port sends counts for its last 100 µs (R370). -/
def State.countShare (s : State) (p : Nat) (k : FabPkt) : State :=
  s.setPort p { s.fabPort p with share := s.shareOpen p ++ [(s.elapsed, k.cls, k.data.length)] }

/-- The classes in the order a port serves them (R370): bulk first while it has had less than its share of what the port sent
in the last 100 µs. -/
def State.classOrder (s : State) (p : Nat) : List Nat :=
  let l := s.shareOpen p
  let bytes (l : List (Nat × Nat × Nat)) : Nat := (l.map fun e => e.2.2).sum
  if bytes (l.filter fun e => e.2.1 == 3) * 100 < s.get .FAB_CFG_BULK_MIN_PCT * bytes l then [3, 0, 1, 2] else [0, 1, 2, 3]

/-- A packet leaves a port for the first time. -/
def State.fabSendNew (s : State) (p : Nat) (k : FabPkt) : State :=
  let ty := k.data.getD 1 0
  let data := if ty = 0x11 && k.own then s.stampDeparture p k.data else k.data
  let s := if ty = 0x10 && k.own && leAt k.data 8 4 = s.get .FAB_H_XCHG then
    (s.set .FAB_H_T1 0 s.now16).set .FAB_H_T1OK 0 1 else s
  let l := s.get .FAB_H_TXSEQ p
  let x := s.fabPort p
  let e : FabSent := ⟨l, { k with data := data, inPort := none }, false, false⟩
  let s := if x.sent.isEmpty then s.set .FAB_H_ACKT p s.elapsed else s
  let s := s.setPort p { x with queue := x.queue.erase k, sent := x.sent ++ [e] }
  let s := (((s.useCredits p k).countShare p k).bump .FAB_H_TXSEQ p 1).inc .FAB_PORT_CNT_TX p
  (s.releasePkt k).emit (.fabPacket p k.cls l data k.poison)

/-- An output port serves its packets (R370): resends first, then the classes in order, each packet only with credits for the
whole of it and room in the replay buffer. -/
def execOutputPortServe (p : Nat) (s : State) : Res :=
  let p := p % 8
  let x := s.fabPort p
  let held := x.sent.foldl (fun a e => a + e.pkt.data.length) 0
  if s.portState p = portDown || s.portState p = portAsleep then .next s
  else match x.sent.find? fun e => e.due with
    | some e =>
      if !s.fabSendable p e.pkt then .next s
      else
        let s := (s.set .FAB_H_ACKT p s.elapsed).setPort p { x with sent := x.sent.map fun q => if q.lseq = e.lseq then { q with due := false } else q }
        .next ((((s.useCredits p e.pkt).countShare p e.pkt).inc .FAB_PORT_CNT_TX p).emit
          (.fabPacket p e.pkt.cls e.lseq e.pkt.data e.pkt.poison))
    | none =>
      let pick := (s.classOrder p).findSome? fun c => x.queue.find? fun k => k.cls == c && s.fabSendable p k
      match pick with
      | some k => if x.sent.length < 128 && held + k.data.length ≤ 262144 then .next (s.fabSendNew p k) else .next s
      | none => .next s

/-! ### Discovery and root (R373, R374) -/

/-- Every port that is not DOWN or ASLEEP sends a waymark every 1 ms. -/
def execWaymarkSend (p : Nat) (s : State) : Res :=
  let p := p % 8
  if s.portState p = portDown || s.portState p = portAsleep then .next s
  else .next (s.fabQueue p ⟨1, s.ownPacket 0x01 254 0 0 (s.waymarkBody p), none, false, true⟩)

/-- A waymark arrives. -/
def execWaymarkReceived (p : Nat) (data : List Nat) (s : State) : Res := .next (s.netTyped (p % 8) 0x01 data 0)

/-- A port has heard no waymark for 3.5 ms, or its lanes are down (R373, R388). -/
def execNeighbourLost (p : Nat) (s : State) : Res :=
  let p := p % 8
  if s.portState p = portDown || s.portState p = portAsleep then .next s
  else if s.portOn p = 0 then .next (s.neighbourLost p portDown).jobAnswers
  else match s.fab.marks.find? fun e => e.1 == p with
    | some (_, w) => if w.seen + 3500000 ≤ s.elapsed then .next (s.neighbourLost p portNoVersion).jobAnswers else .next s
    | none => .next s

/-- Neighbours whose advertised root epoch advanced within the last 5 ms. -/
def State.freshMarks (s : State) : List (Nat × Waymark) :=
  s.fab.marks.filter fun e => s.fabUp e.1 && decide (s.elapsed ≤ e.2.advanced + 5000000)

/-- What a node reckons every 1 ms (R374): root UID, epoch, distance and parent port. -/
def State.rootReckoned (s : State) : Nat × Nat × Nat × Nat :=
  let fresh := s.freshMarks
  let root := fresh.foldl (fun a e => min a e.2.root) s.uid
  let adv := fresh.filter fun e => e.2.root == root
  let least := adv.foldl (fun a e => min a e.2.dist) 64
  let own := (s.uid, (s.get .FAB_H_EPOCH + 1) % 2 ^ 32, 0, 15)
  if root = s.uid || 63 ≤ least then own
  else match adv.find? fun e => e.2.dist == least with
    | some e => (root, e.2.epoch, least + 1, e.1)
    | none => own

/-- Root, epoch, distance and parent are updated (R374); another root or parent ends the exchange in progress and holds over
(R380, R390). -/
def execRootUpdate (s : State) : Res :=
  let r := s.rootReckoned
  let newRoot := s.get .FAB_ROOT != r.1
  let newParent := s.get .FAB_H_PARENT != r.2.2.2
  let sets : List (Fld × Nat) := [(.FAB_ROOT, r.1), (.FAB_H_EPOCH, r.2.1), (.FAB_NODE_DEPTH, r.2.2.1), (.FAB_H_PARENT, r.2.2.2),
    (.FAB_NODE_ROOT, (r.1 == s.uid).toNat)]
  let s := sets.foldl (fun s q => s.set q.1 0 q.2) s
  let s := (List.range 8).foldl (fun s p => s.set .FAB_PORT_STATUS_PARENT p (p == r.2.2.2).toNat) s
  let s := if newRoot || newParent then
      ((((s.set .FAB_H_T1OK 0 0).set .FAB_H_FIRST 0 1).set .FAB_H_BAD 0 0).set .FAB_H_SUM 0 0).set .FAB_H_CNT 0 0 |>.timeUnlock
    else s
  .next (if newRoot then (s.set .FAB_H_TABEPOCH 0 0).fabEvent 4 0xFFFF r.1 0xFF 0 else s)

/-! ### Link state and IDs (R375, R376) -/

/-- This node's link-state record is flooded, on a change of a port and every 100 ms. -/
def execLinkStateSend (s : State) : Res := .next s.lsSend

/-- A link-state record arrives. -/
def execLinkStateReceived (p : Nat) (data : List Nat) (s : State) : Res := .next (s.netTyped (p % 8) 0x02 data 0)

/-- A record that was not refreshed for 350 ms is withdrawn; the root remembers the ID of its origin (R376 step 3). -/
def execLinkStateExpiry (origin : Nat) (s : State) : Res :=
  match s.lsRecord origin with
  | none => .next s
  | some r =>
    if s.elapsed < r.seen + 350000000 then .next s
    else
      let id := match s.fab.table.find? fun e => e.uid == origin with | some e => e.id | none => r.body.getD 12 253
      let mem := if s.on .FAB_NODE_ROOT && id < 64 then
          s.fab.memory.filter (fun m => m.1 != origin) ++ [(origin, id, s.elapsed)] else s.fab.memory
      let s : State := { s with fab := { s.fab with db := s.fab.db.filter fun x => x.origin != origin, memory := mem } }
      .next (s.fabEvent 3 0xFFFF origin 0xFF 0).stageRoutes

/-- Insertion by distance, then UID. -/
def byDistance (dist : Nat → Nat) (n : NodeRec) : List NodeRec → List NodeRec
  | [] => [n]
  | m :: r => if dist n.1 < dist m.1 || (dist n.1 == dist m.1 && n.1 < m.1) then n :: m :: r else m :: byDistance dist n r

/-- IDs that entries of a table hold. -/
def heldIds (l : List IdEntry) : List Nat := (l.filter fun e => decide (e.id < 64)).map (·.id)

/-- The assignment of R376 over the database. -/
def State.assignIds (s : State) : List IdEntry :=
  let nodes := s.nodes
  let dist := fun u => ((distances nodes [(s.uid, 0)] 0 64).find? fun k => k.1 == u).map (·.2) |>.getD 64
  let nodes := nodes.foldl (fun l n => byDistance dist n l) []
  let keeps (n : NodeRec) : Bool := match n.2.2.1 with
    | some i => !(nodes.any fun m => m.2.2.1 == some i && decide (m.1 < n.1))
    | none => false
  let flags (n : NodeRec) : Nat := match n.2.2.1 with | some _ => if keeps n then 1 else 2 | none => 0
  let put (l : List IdEntry) (n : NodeRec) (id : Nat) : List IdEntry := l ++ [⟨n.1, id, flags n⟩]
  let lacks (l : List IdEntry) : List NodeRec := nodes.filter fun n => !(l.any fun e => e.uid == n.1)
  let one := (nodes.filter keeps).foldl (fun l n => put l n (n.2.2.1.getD 253)) []
  let two := (lacks one).foldl (fun l n =>
    if n.2.1 < 64 && !(heldIds one).contains n.2.1 && !(nodes.any fun m => m.2.1 == n.2.1 && decide (m.1 < n.1)) then
      put l n n.2.1 else l) one
  let three := (lacks two).foldl (fun l n => match s.fab.memory.find? fun m => m.1 == n.1 with
    | some (_, id, t) => if s.elapsed ≤ t + 600000000000 && !(heldIds l).contains id then put l n id else l
    | none => l) two
  (lacks three).foldl (fun l n => put l n (((List.range 64).find? fun i => !(heldIds l).contains i).getD 253)) three

/-- The root's firmware assigns node IDs and broadcasts the table. -/
def execIdAssign (s : State) : Res :=
  if !s.on .FAB_NODE_ROOT || s.on .BOOT_H_AWAY then .next s
  else
    let epoch := (s.get .FAB_H_TABEPOCH + 1) % 2 ^ 32
    let l := s.assignIds
    let s := s.adoptTable epoch l
    .next (s.fabBroadcast 0x03 epoch (tableBody epoch l)).jobAnswers

/-- An ID table arrives. -/
def execIdTableReceived (p : Nat) (data : List Nat) (s : State) : Res := .next (s.netTyped (p % 8) 0x03 data 0)

/-- `FAB_ROUTE_COMMIT` (R377): the staged table and the broadcast mask take effect in one clock. -/
def State.routeCommit (s : State) (mask : Nat) : State :=
  let s := (List.range 64).foldl (fun s d =>
    (s.set .FAB_ROUTE_PORT d (s.get .FAB_H_SPORT d)).set .FAB_ROUTE_HOPS d (s.get .FAB_H_SHOPS d)) (s.set .FAB_H_SMASK 0 mask)
  (s.set .FAB_ROUTE_COMMIT_BCAST_MASK 0 mask).inc .FAB_ROUTE_COMMIT_EPOCH

/-- The command form: only the management processor writes the route table. -/
def execRouteCommit (mask : Nat) (src : Src) (s : State) : Res :=
  let g := s.gate src .device 15
  if g ≠ .ok then .next (s.answer src 0x482100 g) else .next ((s.routeCommit mask).answer src 0x482100 .ok)

/-! ### Control requests (R378) -/

/-- A control request arrives. -/
def execCtrlRequestReceived (p : Nat) (data : List Nat) (s : State) : Res := .next (s.netTyped (p % 8) 0x20 data 0)

/-- A control reply arrives. -/
def execCtrlReplyReceived (p : Nat) (data : List Nat) (s : State) : Res := .next (s.netTyped (p % 8) 0x21 data 0)

/-- A request that waits for the answer to a PREPARE, which has a limit of its own (12_jobs_and_autonomy.md R309). -/
def State.isPrepare (s : State) (tag : Nat) : Bool := s.job.peers.any fun p => p.out && p.tag == tag && p.op == 1

/-- No reply within `CTRL_TIMEOUT_MS`: the request completes with TIMEOUT. -/
def execCtrlTimeout (tag : Nat) (s : State) : Res :=
  match s.fab.reqs.find? fun r => r.tag == tag with
  | none => .next s
  | some r =>
    if s.elapsed < r.born + s.get .FAB_CFG_CTRL_TIMEOUT_MS * 1000000 || s.isPrepare tag then .next s
    else .next (s.reqDone tag .timeout []).jobAnswers

/-! ### Time (R379, R380) -/

/-- A node that is not the root sends a time request to its parent every 125 µs. -/
def execTimeRequestSend (s : State) : Res :=
  let p := s.get .FAB_H_PARENT
  if s.on .FAB_NODE_ROOT || 8 ≤ p || !s.fabUp p then .next s
  else
    let s := (s.bump .FAB_H_XCHG 0 1).set .FAB_H_T1OK 0 0
    .next (s.fabQueue p ⟨0, s.ownPacket 0x10 254 0 (s.get .FAB_H_XCHG) [], none, false, true⟩)

/-- A time request arrives. -/
def execTimeRequestReceived (p : Nat) (data : List Nat) (stamp : Nat) (s : State) : Res :=
  .next (s.netTyped (p % 8) 0x10 data stamp)

/-- A time response arrives. -/
def execTimeResponseReceived (p : Nat) (data : List Nat) (stamp : Nat) (s : State) : Res :=
  .next (s.netTyped (p % 8) 0x11 data stamp)

/-- Every 8 ms `RATE` is corrected from the mean offset of the last 64 exchanges; by how much the manual does not say, so the
new rate is a free value. -/
def execTimeRateCorrect (s : State) : Res :=
  if s.get .SYN_TB_CTRL_SRC ≠ 2 || s.on .FAB_NODE_ROOT || s.get .FAB_H_CNT < 64 then .next s
  else .next ((((s.set .SYN_TB_RATE 0 s.free).drawn).set .FAB_H_SUM 0 0).set .FAB_H_CNT 0 0)

/-! ### Bulk transfers and late errors (R383, R384) -/

/-- A bulk packet arrives. -/
def execBulkPacketReceived (p : Nat) (data : List Nat) (s : State) : Res := .next (s.netTyped (p % 8) 0x40 data 0)

/-- A bulk commit request is served. -/
def execBulkCommit (node tag id packets bytes : Nat) (s : State) : Res :=
  .next (s.bulkCommit node tag id packets bytes).jobAnswers

/-- A late error arrives. -/
def execLateErrorReceived (p : Nat) (data : List Nat) (s : State) : Res := .next (s.netTyped (p % 8) 0x50 data 0)

/-- `FAB_LATE_POP` removes the head entry; it is ignored while the log is empty. -/
def execFabLatePop (src : Src) (s : State) : Res :=
  let g := s.gate src .operator 15
  if g ≠ .ok then .next (s.answer src 0x483004 g)
  else .next (({ s with fab := { s.fab with late := s.fab.late.drop 1 } } : State).answer src 0x483004 .ok)

/-! ### Wake, fence and reset (R387, R391) -/

/-- `FAB_PORT_CTRL.WAKE` written 1 takes effect. -/
def effFabPortWake (p : Nat) (s : State) : State := s.fabUnhold (p % 8)

/-- `FAB_PORT_CTRL.WAKE` ends ASLEEP; installer, recorded. -/
def execFabPortWake (p : Nat) (src : Src) (s : State) : Res :=
  let a := 0x480010 + 0x100 * (p % 8)
  let g := s.gate src .installer 15
  if g ≠ .ok then .next (s.answer src a g)
  else .next (s.recorded src a (.fabPortWake p src) (s.writeRec src a 1) (effFabPortWake p))

/-- Address of `FAB_CTRL`. -/
abbrev fabCtrl : Nat := 0x481028

/-- `FAB_CTRL.FENCE` takes 1. -/
def effFabFence (s : State) : State := s.set .FAB_CTRL_FENCE 0 1

/-- `FAB_CTRL.FENCE` written 1; installer, recorded. -/
def execFabFence (src : Src) (s : State) : Res :=
  let g := s.gate src .installer 15
  if g ≠ .ok then .next (s.answer src fabCtrl g)
  else .next (s.recorded src fabCtrl (.fabFence src) (s.writeRec src fabCtrl 1) effFabFence)

/-- The node's outstanding requests have completed: FENCED reads 1. -/
def execFabFenceDone (s : State) : Res :=
  if s.on .FAB_CTRL_FENCE && s.fab.reqs.isEmpty then .next (s.set .FAB_CTRL_FENCED 0 1) else .next s

/-- The link layer resets: buffers are discarded, posted packets reported to their sources, requests complete. -/
def effFabReset (s : State) : State :=
  let held := s.fab.ports.flatMap fun e => (e.2.sent.map (fun q => (e.1, q.pkt)) ++ e.2.queue.map fun k => (e.1, k))
  let s : State := { s with fab := { s.fab with ports := [] } }
  let s := s.upPorts.foldl (fun s p => (s.emit (.symbol p 0x52 [0, 0, 0, 0, 0])).linkRestart p) s
  let posted := held.filter fun q => q.2.data.getD 1 0 == 0x30 || q.2.data.getD 1 0 == 0x40
  let s := posted.foldl (fun s q => s.fabDiscard { q.2 with inPort := none } 6 q.1) s
  let s := s.fab.reqs.foldl (fun s r => s.reqDone r.tag .targetReset []) s
  (((s.set .FAB_H_T1OK 0 0).blockReset 15)).jobAnswers

/-- `FAB_CTRL.RESET`; installer, recorded. -/
def execFabReset (src : Src) (s : State) : Res :=
  let g := s.gate src .installer 15
  if g ≠ .ok then .next (s.answer src fabCtrl g)
  else .next (s.recorded src fabCtrl (.fabReset src) (s.writeRec src fabCtrl (2 + s.get .FAB_CTRL_FENCE)) effFabReset)

/-- `CLR_CNT` clears the fabric counters (R515). -/
def State.fabClrCnt (s : State) : State :=
  let s := (List.range 8).foldl (fun s p => [Fld.FAB_PORT_CNT_TX, .FAB_PORT_CNT_RX, .FAB_PORT_CNT_RETRY, .FAB_PORT_CNT_POISON,
    .FAB_PORT_CNT_CRC].foldl (fun s f => s.set f p 0) s) s
  (s.set .FAB_CNT_LATE_REPLY 0 0).set .FAB_CNT_LATE_LOST 0 0

/-- The command form of `CLR_CNT`. -/
def execFabClrCnt (src : Src) (s : State) : Res :=
  let g := s.gate src .operator 15
  if g ≠ .ok then .next (s.answer src fabCtrl g) else .next (s.fabClrCnt.answer src fabCtrl .ok)

end Sys2Proof.Machine
end

