-- ==== Sys2Proof/Machine/SecOps.lean ====
section
/-! DEFINITION. Shared operations of security (17_roles_security_audit.md): audit records and their chain, the end of
sessions, and the fuses as the checks read them. -/

namespace Sys2Proof.Machine

/-! ### Fuses -/

/-- The lowest security version accepted: the bits set in the fuse field `SVN` (R418). -/
def State.svnMin (s : State) : Nat := bitsSet (s.get .SEC_H_FUSE_SVN) 63

/-- Decommissions completed: the bits set in `DECOM` (R418). -/
def State.decoms (s : State) : Nat := bitsSet (s.get .SEC_H_FUSE_DECOM) 8

/-- A maker slot is blank for step 4 of R407 while its `SEAL` bit is 0 (R418). -/
def State.slotBlank (s : State) (k : Nat) : Bool := !s.bit .SEC_FUSE_STATE_SEAL 0 k

/-- The hash in maker slot `k`, as a little-endian number of 32 bytes. -/
def State.makerHash (s : State) (k : Nat) : Nat := s.sec.makerHash.getD k 0

/-! ### Audit records (R430, R431) -/

/-- A list cut or filled with zeros to `n` bytes. -/
def fit (n : Nat) (l : List Nat) : List Nat := (List.range n).map fun i => l.getD i 0 % 256

/-- The 64 bytes of a record with its sequence, the time and the chain head before it. -/
def AuditRec.bytes (r : AuditRec) (seq sec ticks : Nat) (head : List Nat) : List Nat :=
  leBytes 8 seq ++ leBytes 4 (sec % 2 ^ 32) ++ leBytes 2 (2 * ticks) ++ [roleCode r.role, r.action] ++ leBytes 2 r.session ++
    leBytes 2 r.cls ++ leBytes 4 (r.obj % 2 ^ 32) ++ fit 16 r.old ++ fit 16 r.new ++ fit 8 head

/-- The oldest group of 4,096 records is erased (R434). -/
def State.dropGroup (s : State) : State :=
  let old := s.get .SEC_AUDIT_OLDEST + 4096
  ({ s with sec := { s.sec with ring := s.sec.ring.filter (fun e => old ≤ e.1),
                                signed := s.sec.signed.filter fun e => old ≤ e.1 } } : State).set .SEC_AUDIT_OLDEST 0 old

/-- A record joins the chain (R430, R431): under the wrap policy a full ring loses its oldest group first, and at a multiple
of 4,096 a signed head is due (R433). -/
def State.appendRecord (s : State) (r : AuditRec) : State :=
  let s := if auditCapacity ≤ s.auditHeld then s.dropGroup.secEvent 2 r.session (roleCode r.role) 0xFF else s
  let seq := s.get .SEC_AUDIT_SEQ + 1
  let b := r.bytes seq s.rtc (s.get .PWR_RTC_HI_TICKS) s.sec.head
  let head := Config.sha256 (s.sec.head ++ b)
  let due := if seq % 4096 = 0 then s.sec.headsDue ++ [(seq, head)] else s.sec.headsDue
  let s : State := { s with sec := { s.sec with ring := s.sec.ring ++ [(seq, b)], head := head, headsDue := due } }
  let s := if s.get .SEC_AUDIT_OLDEST = 0 then s.set .SEC_AUDIT_OLDEST 0 seq else s
  s.set .SEC_AUDIT_SEQ 0 seq

/-- The 64-byte body of a signed head (R433). -/
def State.headBody (s : State) (seq : Nat) (head : List Nat) : List Nat :=
  [0x46, 0x5A, 0x41, 0x48, 1, 0, 0, 0] ++ leBytes 8 (s.get .SEC_FUSE_UID) ++ leBytes 8 seq ++ fit 32 head ++
    leBytes 4 (s.rtc % 2 ^ 32) ++ [0, 0, 0, 0]

/-! ### Sessions (R421, R425) -/

/-- A session ends: its key goes, the bridge drops what it holds for it (11_host_window_bridge.md R290, R293), and a
binding and event forwarding of it end (18_i3c_management_port.md R446, R450). -/
def State.endSession (s : State) (n : Nat) : State :=
  let s := s.brgSessionEnd n
  let s : State := { s with
    sec := { s.sec with sessions := s.sec.sessions.filter fun x => x.num != n }
    mgt := { s.mgt with forward := s.mgt.forward.filter fun f => f.session != n } }
  if s.get .MGT_I3C_STATUS_BOUND_SESSION = n then s.set .MGT_I3C_STATUS_BOUND_SESSION 0 0 else s

/-- Record of a session's end (R429, R430). -/
def sessionEndRec (x : Session) : AuditRec :=
  ⟨x.role, 6, x.num, 8, roleCode x.role * 256 + x.key, noValue, noValue⟩

/-- Every session ends, each with its record. -/
def State.endAllSessions (s : State) : State :=
  s.sec.sessions.foldl (fun s x => (s.note ⟨.mgt, 0⟩ (sessionEndRec x)).endSession x.num) s

end Sys2Proof.Machine
end

