-- ==== Sys2Proof/Machine/BistOps.lean ====
section
/-! DEFINITION. Shared operations of built-in self-test (19_self_test.md): repair of memories from their spares, the fail log,
result records, health, and the power-on test. -/

namespace Sys2Proof.Machine

/-! ### Repair (R466) -/

/-- A failing macro's analysis: what was found and what repairs it, as kind, row, bit, repair used and march element (R467),
with the spare rows and columns left; `none` where the spares do not suffice. -/
abbrev Finding := Nat × Nat × Nat × Nat × Nat

/-- Values of a list that occur at least twice, each once, in rising order of first occurrence. -/
def twice (l : List Nat) : List Nat := (l.filter fun x => decide (2 ≤ l.count x)).eraseDups

/-- Spares are allocated in the order of R466 to the failing bits of one macro with `r` spare rows and `c` spare columns
left. -/
def allocSpares (bad : List BadBit) (r c : Nat) : Option (List Finding) :=
  let elem (f : BadBit → Bool) : Nat := match bad.find? f with | some b => b.element | none => 0
  let rows := twice (bad.map (·.row))
  let rest := bad.filter fun b => !rows.contains b.row
  let cols := twice (rest.map (·.bit))
  let single := rest.filter fun b => !cols.contains b.bit
  let left := r - rows.length
  let byRow := single.take left
  let byCol := single.drop left
  if r < rows.length || c < cols.length + byCol.length then none
  else some (rows.map (fun y => (2, y, 0xFFFF, 1, elem fun b => b.row == y)) ++
    cols.map (fun x => (3, 0xFFFF, x, 2, elem fun b => b.bit == x)) ++
    byRow.map (fun b => (1, b.row, b.bit, 1, b.element)) ++ byCol.map fun b => (1, b.row, b.bit, 2, b.element))

/-- A fail-log entry (R467). -/
def failEntry (u m run : Nat) (f : Finding) : List Nat :=
  [u, f.1] ++ leBytes 2 m ++ leBytes 2 f.2.1 ++ leBytes 2 f.2.2.1 ++ [f.2.2.2.1, f.2.2.2.2, 0, 0] ++ leBytes 4 run

/-- An entry joins the fail log, a ring of 64 (R467). -/
def State.failLog (s : State) (e : List Nat) : State :=
  ({ s with bist := { s.bist with log := (e :: s.bist.log).take 64 } } : State).inc .BIST_LOG_STATUS_TOTAL

/-- Spare rows and columns that macro `m` of unit `u` has in use. -/
def State.sparesOf (s : State) (u m : Nat) : Nat × Nat := tabGet s.bist.spares (65536 * u + m) (0, 0)

/-- What memory BIST leaves: the state, whether a macro was repaired, whether one is unrepairable, and the entries made. -/
structure Repaired where
  s : State
  repaired : Bool
  failed : Bool
  entries : Nat
  deriving DecidableEq, Repr

/-- One macro is repaired (R466): an entry says that it failed, and one for each repair decision what it took; an
unrepairable macro takes no spare. -/
def Repaired.fixMacro (q : Repaired) (u run : Nat) (bad : List BadBit) (m : Nat) : Repaired :=
  let mine := bad.filter fun b => b.macro_ == m
  let used := q.s.sparesOf u m
  match allocSpares mine (2 - used.1) (2 - used.2) with
  | none =>
    let b := mine.headD ⟨u, m, 0, 0, 0⟩
    ⟨q.s.failLog (failEntry u m run (4, b.row, b.bit, 0, b.element)), q.repaired, true, q.entries + 1⟩
  | some fs =>
    let head := fs.headD (1, 0, 0, 0, 0)
    let s := q.s.failLog (failEntry u m run (head.1, head.2.1, head.2.2.1, 0, head.2.2.2.2))
    let s := fs.foldl (fun s f => s.failLog (failEntry u m run f)) s
    let r := (fs.filter fun f => f.2.2.2.1 == 1).length
    let c := (fs.filter fun f => f.2.2.2.1 == 2).length
    let s : State := { s with bist := { s.bist with spares := tabPut s.bist.spares (65536 * u + m) (used.1 + r, used.2 + c) } }
    ⟨(s.add .BIST_REPAIR_ROWS 0 r).add .BIST_REPAIR_COLS 0 c, true, q.failed, q.entries + 1 + fs.length⟩

/-- Memory BIST of unit `u` has found these failing bits. -/
def State.repairUnit (s : State) (u run : Nat) (bad : List BadBit) : Repaired :=
  let mine := (bad.filter fun b => b.unit == u).eraseDups
  (mine.map (·.macro_)).eraseDups.foldl (fun q m => q.fixMacro u run mine m) ⟨s, false, false, 0⟩

/-! ### Results (R470, R476, R477) -/

/-- Logic BIST patterns of a level (R469). -/
def patternsOf (level : Nat) : Nat := 16384 * 4 ^ (level % 4)

/-- The overall result of three kinds (R470). -/
def overallOf (m l a : Nat) : Nat :=
  if m = 2 || l = 2 || a = 2 then 2 else if m = 3 || l = 3 || a = 3 then 3 else 1

/-- Result byte 2 of a record. -/
def resultByte (m l a : Nat) : Nat := m + 4 * l + 16 * a + 64 * overallOf m l a

/-- A result record is kept for its unit, and the unit's health is its overall result (R476, R477). -/
def State.putRecord (s : State) (u : Nat) (rec : List Nat) (overall : Nat) : State :=
  let s : State := { s with bist := { s.bist with records := tabPut s.bist.records u (fit 32 rec) } }
  let s := s.set .BIST_H_HEALTH u overall
  s.set .BIST_STATUS_DEGRADED 0 (if (List.range 33).any fun u => s.get .BIST_H_HEALTH u == 2 then 1 else 0)

/-- The next run number (R477). -/
def State.nextRun (s : State) : State := s.bump .BIST_H_RUN 0 1

/-! ### The power-on test (R468) -/

/-- Memory BIST of one unit in the power-on test. -/
def State.powerOnUnit (s : State) (u : Nat) : State :=
  let run := s.get .BIST_H_RUN
  let q := s.repairUnit u run s.bist.faults
  let res := if q.failed then 2 else 1
  let flags := q.repaired.toNat + 2 * q.failed.toNat + 64
  let s := q.s.putRecord u ([u, 1, resultByte res 0 0, flags] ++ List.replicate 16 0 ++ leBytes 2 q.entries ++ [0, 0] ++
    leBytes 8 q.s.now) res
  if q.failed then (if u < 8 then (s.set .PIPE_CTRL_FENCE u 1).set .PIPE_H_STATE u 2 else s.set .BOOT_STATUS_STATE 0 2) else s

/-- The power-on test of all memories (R468): pipes beyond repair start fenced, any other unit beyond repair stops the boot.
`POWERON` reads 1 when every macro passes or is repaired. -/
def State.powerOnTest (s : State) : State :=
  let s := (List.range 20).foldl (fun s u => s.powerOnUnit u) s.nextRun
  let ok := (List.range 20).all fun u => s.get .BIST_H_HEALTH u == 1
  (s.set .BIST_STATUS_POWERON 0 ok.toNat).notify

/-! ### Data state of units without a reset bit (R476) -/

/-- Data state of the camera ingress: its queues and open frames. -/
def State.ingData (s : State) : State :=
  let s : State := { s with frames := [], ing := { s.ing with packets := [] } }
  let s := (List.range 32).foldl (fun s n => [Fld.ING_QUEUE_LEVEL_LEVEL, .ING_QUEUE_LEVEL_ABOVE, .ING_QUEUE_LEVEL_FLUSHING,
    .ING_QUEUE_LEVEL_DESC, .ING_H_FULL, .ING_H_FLUSH_BYTES, .ING_H_WPTR_A, .ING_H_WPTR_B, .ING_H_RPTR_A,
    .ING_H_RPTR_B].foldl (fun s f => s.set f n 0) s) s
  (List.range 128).foldl (fun s c => [Fld.ING_CH_STATUS_OPEN, .ING_CH_STATUS_EXPOSURE,
    .ING_CH_STATUS_LINES].foldl (fun s f => s.set f c 0) s) s

/-- Data state of the sync unit: fires that wait for their frames. Timebase and encoders are never touched (R463). -/
def State.synData (s : State) : State := { s with syn := { s.syn with fires := [] } }

/-- Data state of the merger: open blanket frames and rows on their way to it. -/
def State.mrgData (s : State) : State := { s with blankets := [], pipe := { s.pipe with toMerger := [] } }

end Sys2Proof.Machine
end

