-- ==== Sys2Proof/Machine/PwrOps.lean ====
section
/-! DEFINITION. Shared operations of power and reset (20_power_sleep_reset.md): device reset and what it leaves, the restart of
the management complex, and the wipe of a decommission. -/

namespace Sys2Proof.Machine

/-! ### Device reset (R484) -/

/-- Cells that device reset leaves: the thermos (R490), the fuses (17_roles_security_audit.md R418), the pins as sampled,
and what storage keeps in NAND (13_storage_job_library.md R327). -/
def keptFields : List Fld := [
  .PWR_RTC_SEC, .PWR_RTC_HI_TICKS, .PWR_RTC_HI_RTC_VALID, .PWR_H_RTCACC, .PWR_ALARM, .PWR_SLEEP_LAST_SECONDS, .PWR_SLEEP_COUNT,
  .PWR_H_STOPT, .PWR_H_STOPR, .PWR_H_SCRUBT, .BOOT_H_TRIALBIT, .SEC_AUDIT_SEQ, .SEC_AUDIT_OLDEST, .SEC_AUDIT_SIGNED,
  .SEC_STATUS_TEST_SINCE_POWER, .SEC_STATUS_WIPE_PENDING, .MGT_I3C_STATUS_DYN_ADDR, .MGT_I3C_STATUS_DA_VALID,
  .MGT_I3C_STATUS_IBI_EN, .PWR_H_KEPT_RUNG, .MEM_TEMP_LEVELS, .PWR_AVS_CODE, .PWR_STATUS_RESET_CAUSE, .PWR_H_TRIP,
  .JTAG_H_TAP, .JTAG_H_TRST, .JTAG_H_IR, .JTAG_H_BYPASS, .JTAG_H_BSR,
  .SEC_FUSE_UID, .SEC_FUSE_STATE_SEAL, .SEC_FUSE_STATE_REVOKE, .SEC_FUSE_STATE_GEN0_REVOKED, .SEC_FUSE_STATE_SCAN_OFF,
  .SEC_FUSE_STATE_DUS_PRESENT, .SEC_H_FUSE_SVN, .SEC_H_FUSE_DECOM, .MGT_H_PINSEL,
  .STO_H_SEQ, .STO_H_SEGFILL, .STO_H_SEGOPEN, .STO_H_LIBSEG, .STO_H_SEGLIVE, .STO_H_SPARE, .STO_H_SPARE0, .STO_H_WEARBITS]

/-- The base of LPDDR5X (14_memory_subsystem.md R348). -/
abbrev dramBase : Nat := 0x1000000000

/-- The device domain clears (R484): everything takes its reset value but the thermos, the fuses, NAND, the NOR and the bytes
of LPDDR5X; the pins `ADDR_SEL` are sampled (18_i3c_management_port.md R440). -/
def State.clearDevice (s : State) : State :=
  let ids := keptFields.map Fld.id
  let cells := s.cells.filter fun c => ids.contains c.1.1
  let t : State := { State.reset with
    cells := cells
    mem := s.mem.filter fun c => dramBase ≤ c.1 && c.1 < 2 * dramBase
    bad := s.bad
    lane := { State.reset.lane with eqKept := s.lane.eqKept }
    sto := { s.sto with staged := [] }
    boot := { State.reset.boot with slots := s.boot.slots, size := s.boot.size }
    sec := { State.reset.sec with ring := s.sec.ring, head := s.sec.head, headsDue := s.sec.headsDue,
                                  signed := s.sec.signed, makerHash := s.sec.makerHash }
    bist := { State.reset.bist with faults := s.bist.faults }
    out := s.out, fresh := s.fresh, pending := s.pending }
  let t := (t.set .BRG_WIN_CFG_EN 0 1).set .MGT_I3C_STATUS_ADDR_SEL 0 (s.get .MGT_H_PINSEL)
  let t := t.set .I3C_H_MODE 0 (t.get .MGT_I3C_STATUS_DA_VALID)
  if s.on .MGT_H_IRQ then t.emit (.pin "IRQ_N" 0 1) else t

/-- Device reset (R484): the cause is recorded and the power-on test runs before the release (19_self_test.md R468). -/
def State.deviceReset (s : State) (cause : Nat) : State :=
  (s.clearDevice.set .PWR_STATUS_RESET_CAUSE 0 cause).powerOnTest

/-! ### Boot slots (16_boot_image.md) -/

/-- A slot of the NOR; one not listed is erased. -/
def State.bootSlot (s : State) (n : Nat) : BootSlot := tabGet s.boot.slots n ⟨[], 0xFFFFFFFF⟩

/-- Code of a slot's state (R395, `BOOT_RESULT.SLOT_STATE`): 0 `TRIAL`, 1 `CONFIRMED`, 2 `REJECTED`, 3 no header. -/
def BootSlot.state (b : BootSlot) : Nat :=
  if b.image.take 4 != [0x46, 0x5A, 0x42, 0x49] then 3
  else if b.status = 0xFFFFFFFF then 0 else if b.status = 0x5A5A5A5A then 1 else 2

/-- Image sequence of a slot's header; 0 when absent. -/
def BootSlot.seq (b : BootSlot) : Nat := if b.state = 3 then 0 else leAt b.image 8 4

/-- A slot takes contents, and its registers show them. -/
def State.putSlot (s : State) (n : Nat) (b : BootSlot) : State :=
  let s : State := { s with boot := { s.boot with slots := tabPut s.boot.slots n b } }
  (s.set .BOOT_RESULT_SLOT_STATE n b.state).set .BOOT_SEQ n b.seq

/-- A slot's status word is programmed; bits only clear (R395). -/
def State.slotStatus (s : State) (n v : Nat) : State :=
  let b := s.bootSlot n
  s.putSlot n { b with status := b.status &&& v }

/-- Sticky bit `k` of `BOOT_EVENTS` with its event (R415). -/
def State.bootEvent (s : State) (k inst status step seq : Nat) : State :=
  s.sticky .BOOT_EVENTS_EV 0 k .BOOT_EVENT_EN 0 k 0x0004 inst (k + 1) (argAt 16 status + argAt 17 step + argAt 18 seq)

/-- The active slot, and the slot that is not. -/
def State.activeSlot (s : State) : Nat := s.get .BOOT_STATUS_ACTIVE
def State.idleSlot (s : State) : Nat := 1 - s.activeSlot

/-- An update ends in failure (R411): its outcome is recorded and `UPDATE_FAIL` raised; a slot that was touched is
rejected. -/
def State.updateFail (s : State) (st : Status) (step : Nat) (touched : Bool) : State :=
  let n := s.idleSlot
  let seq := if s.boot.staged.isEmpty then (s.bootSlot n).seq else leAt s.boot.staged 8 4
  let s := if touched then s.slotStatus n 0 else s
  let s := ((s.set .BOOT_UPD_STATUS_UPD_STATE 0 0).set .BOOT_UPD_STATUS_LAST_STATUS 0 (statusCode st)).set
    .BOOT_UPD_STATUS_LAST_STEP 0 step
  let s : State := { s with boot := { s.boot with staged := [], updater := none } }
  s.bootEvent 3 n (statusCode st) step seq

/-! ### Restart of the management complex (R485, 01_frame_journey.md R10) -/

/-- A queued change is one that firmware serves as a command, so that a restart may lose its effect: neither a register
write nor a commit nor a job switch. -/
def AuditItem.isCommand (q : AuditItem) : Bool := q.record.action != 1 && q.record.action != 2 && q.record.action != 7

/-- The commands open to the management complex complete with TARGET_RESET (R10). -/
def State.dropCommands (s : State) : State :=
  let s : State := { s with sec := { s.sec with
    queue := s.sec.queue.map fun q => if q.isCommand then { q with effect := none } else q } }
  let s := s.brg.cmds.foldl (fun s c => s.answer ⟨.host c.qp, c.session⟩ c.code .targetReset) s
  let s := if s.get .I3C_H_CMD = 1 then
      s.answer ⟨.i3c, s.memLe (cmdBuf + 2) 2⟩ (s.memByte (cmdBuf + 16)) .targetReset else s
  match s.job.prepare with
  | some (node, tag) => ({ s with job := { s.job with prepare := none } } : State).ctrlReply node tag 1 .targetReset []
  | none => s

/-- A load in progress is given up (12_jobs_and_autonomy.md R299): NEXT is EMPTY, and the selection that caused it stays in
`JOB_SEL_LATCH` unless a newer one is held. -/
def State.dropLoad (s : State) : State :=
  if s.nextState ≠ nextLoading then s
  else
    let entry := s.get .JOB_H_ENTRY
    let byCommand := s.job.waiting.isSome
    let num := s.get .JOB_HAMPERS_NEXT_HAMPER
    let job := s.get .JOB_IDS_NEXT_ID
    let m := s.get .JOB_H_MARK
    let s := ((s.cancelBanks (s.get .JOB_IDS_NEXT_ID)).clearStaged).nextClear
    let s : State := { s with job := { s.job with waiting := none, peers := [] } }
    if byCommand || s.on .JOB_SEL_LATCH_VALID then s
    else if entry < 256 then (s.set .JOB_SEL_LATCH_INDEX 0 entry).set .JOB_SEL_LATCH_VALID 0 1
    else
      let sets : List (Fld × Nat) := [(.JOB_SEL_LATCH_SOURCE, 2), (.JOB_H_LATCHO, 1), (.JOB_H_LATCHJ, job),
        (.JOB_H_LATCHH, num), (.JOB_H_LATCHM, m), (.JOB_SEL_LATCH_VALID, 1)]
      sets.foldl (fun s q => s.set q.1 0 q.2) s

/-- The management complex restarts (R485): it is away until `MGT_RESTART_DONE`. `fromNor` says that activation or rollback
takes the code from a slot (16_boot_image.md R410). -/
def State.mgtRestart (s : State) (fromNor : Bool) : State :=
  let s := (s.inc .PWR_STATUS_MGT_RESTARTS).pwrEvent 6 0xFFFF 0 0
  let s := if fromNor then s.set .BOOT_H_FROMNOR 0 1 else s
  let s := s.dropCommands.dropLoad
  let upd := s.get .BOOT_UPD_STATUS_UPD_STATE
  let s := if 1 ≤ upd && upd ≤ 4 then s.updateFail .targetReset 0xF (decide (2 ≤ upd)) else s
  ((s.set .BOOT_H_AWAY 0 1).set .BOOT_H_RESTARTING 0 1).newGeneration 0

/-! ### The wipe of a decommission (17_roles_security_audit.md R436) -/

/-- Every NAND block of the library, recorder, settings and audit regions is erased (step 3). -/
def State.wipeNand (s : State) : State :=
  let blocks := s.sto.blocks.map fun b => if b.region = 0 then b else { b with region := 0, seg := 0, erases := b.erases + 1, step := 0 }
  { s with
    sto := ⟨[], [], blocks, [], [], [], []⟩
    lane := { s.lane with eqKept := [] }
    sec := { s.sec with ring := [], headsDue := [], signed := [] } }

/-- Steps 3 to 5: NAND is erased, LPDDR5X reads zero, the key store is empty, the next `DECOM` bit is programmed, the new
chain begins with the record of the final head, `WIPE_PENDING` clears and the device resets. -/
def State.wipe (s : State) : State :=
  let seq := s.get .SEC_AUDIT_SEQ
  let final := (Config.sha256 (leBytes 8 seq ++ fit 32 s.sec.head)).take 16
  let s := s.wipeNand
  let s : State := { s with
    mem := s.mem.filter fun c => !(decide (dramBase ≤ c.1) && decide (c.1 < 2 * dramBase))
    bad := []
    sec := { s.sec with sessions := [], keys := [], head := List.replicate 32 0 } }
  let s := s.setBit .SEC_H_FUSE_DECOM 0 s.decoms
  let s := ((s.set .SEC_AUDIT_SEQ 0 0).set .SEC_AUDIT_OLDEST 0 0).set .SEC_AUDIT_SIGNED 0 0
  let s := s.appendRecord ⟨.device, 10, 0, 0, 0, noValue, final⟩
  (s.set .SEC_STATUS_WIPE_PENDING 0 0).deviceReset 4

end Sys2Proof.Machine
end

