-- ==== Sys2Proof/Machine/RegTable.lean ====
section
/-! DEFINITION. The register map (21_register_map.md R505, R506): every register with its address, its repetition and
the bits of its fields, as the field tables of the chapters give them. -/

namespace Sys2Proof.Machine

/-- Registers of the pages called MGT. -/
def rowsMGT : List RegRow := [
  ⟨0x400, 0x0, 1, 1, [⟨0, 11, .MGT_EVQ_STATUS_LEVEL, 0, .vw, .operator⟩, ⟨16, 1, .MGT_EVQ_STATUS_EMPTY, 0, .vw, .operator⟩, ⟨17, 1, .MGT_EVQ_STATUS_FULL, 0, .vw, .operator⟩, ⟨18, 1, .MGT_EVQ_STATUS_OVF, 0, .w1c, .operator⟩]⟩,
  ⟨0x404, 0x0, 1, 1, [⟨0, 1, .MGT_EVQ_POP, 0, .wo, .operator⟩]⟩,
  ⟨0x408, 0x0, 1, 1, [⟨0, 32, .MGT_EVQ_LOST, 0, .cnt, .operator⟩]⟩,
  ⟨0x40C, 0x0, 1, 1, [⟨0, 16, .MGT_EVQ_NEXT_SEQ, 0, .ro, .operator⟩]⟩,
  ⟨0x410, 0x4, 8, 1, [⟨0, 32, .MGT_EVQ_HEAD, 0, .vw, .operator⟩]⟩,
  ⟨0x600, 0x0, 1, 1, [⟨0, 7, .MGT_I3C_STATUS_DYN_ADDR, 0, .ro, .operator⟩, ⟨7, 1, .MGT_I3C_STATUS_DA_VALID, 0, .ro, .operator⟩, ⟨8, 2, .MGT_I3C_STATUS_ADDR_SEL, 0, .ro, .operator⟩, ⟨10, 1, .MGT_I3C_STATUS_IBI_EN, 0, .ro, .operator⟩, ⟨11, 1, .MGT_I3C_STATUS_BOUND, 0, .vw, .operator⟩, ⟨16, 16, .MGT_I3C_STATUS_BOUND_SESSION, 0, .ro, .operator⟩]⟩,
  ⟨0x604, 0x0, 1, 1, [⟨0, 1, .MGT_I3C_CFG_RST_DEV_EN, 0, .rw, .maker⟩]⟩,
  ⟨0x608, 0x0, 1, 1, [⟨0, 7, .MGT_I3C_EVENTS_EV, 0, .w1c, .operator⟩]⟩,
  ⟨0x60C, 0x0, 1, 1, [⟨0, 8, .MGT_I3C_EVENT_EN, 0, .rw, .operator⟩]⟩,
  ⟨0x610, 0x0, 1, 1, [⟨0, 32, .MGT_I3C_CNT_XFER, 0, .cnt, .operator⟩]⟩,
  ⟨0x614, 0x0, 1, 1, [⟨0, 32, .MGT_I3C_CNT_ABORT, 0, .cnt, .operator⟩]⟩,
  ⟨0x618, 0x0, 1, 1, [⟨0, 32, .MGT_I3C_CNT_TIMEOUT, 0, .cnt, .operator⟩]⟩,
  ⟨0x61C, 0x0, 1, 1, [⟨0, 32, .MGT_I3C_CNT_IBI_NACK, 0, .cnt, .operator⟩]⟩,
  ⟨0x700, 0x0, 1, 1, [⟨0, 7, .MGT_REJ_STATUS_LEVEL, 0, .vw, .operator⟩, ⟨8, 1, .MGT_REJ_STATUS_REJECTED, 0, .w1c, .operator⟩, ⟨16, 16, .MGT_REJ_STATUS_TOTAL, 0, .cnt, .operator⟩]⟩,
  ⟨0x704, 0x0, 1, 1, [⟨0, 6, .MGT_REJ_SEL_INDEX, 0, .rw, .operator⟩]⟩,
  ⟨0x710, 0x4, 8, 1, [⟨0, 32, .MGT_REJ_ENTRY, 0, .vw, .operator⟩]⟩]

/-- Registers of the pages called LANE. -/
def rowsLANE : List RegRow := [
  ⟨0x100000, 0x1000, 48, 1, [⟨0, 6, .LANE_ID_LANE, 0, .vw, .operator⟩, ⟨8, 4, .LANE_ID_QUAD, 0, .vw, .operator⟩, ⟨12, 3, .LANE_ID_ROLE, 0, .ro, .operator⟩, ⟨16, 4, .LANE_ID_PORT, 0, .ro, .operator⟩]⟩,
  ⟨0x100004, 0x1000, 48, 1, [⟨0, 1, .LANE_CTRL_ENABLE, 0, .rw, .installer⟩, ⟨1, 1, .LANE_CTRL_RETRAIN, 0, .wo, .installer⟩, ⟨2, 1, .LANE_CTRL_CLR_CNT, 0, .wo, .operator⟩, ⟨4, 3, .LANE_CTRL_MAX_RUNG, 0, .rw, .installer⟩, ⟨8, 1, .LANE_CTRL_TX_NAP_EN, 0, .rw, .operator⟩, ⟨16, 16, .LANE_CTRL_NAP_TIMEOUT_MS, 0, .rw, .operator⟩]⟩,
  ⟨0x100008, 0x1000, 48, 1, [⟨0, 3, .LANE_STATUS_STATE, 0, .ro, .operator⟩, ⟨4, 3, .LANE_STATUS_RUNG, 0, .ro, .operator⟩, ⟨8, 5, .LANE_STATUS_PARTNER_MASK, 0, .ro, .operator⟩, ⟨13, 1, .LANE_STATUS_LEADER, 0, .ro, .operator⟩, ⟨14, 1, .LANE_STATUS_SIG, 0, .ro, .operator⟩, ⟨15, 1, .LANE_STATUS_CDR_LOCK, 0, .ro, .operator⟩, ⟨16, 1, .LANE_STATUS_TX_NAP, 0, .ro, .operator⟩, ⟨17, 1, .LANE_STATUS_RX_NAP, 0, .ro, .operator⟩, ⟨18, 5, .LANE_STATUS_EXCLUDED, 0, .ro, .operator⟩, ⟨24, 8, .LANE_STATUS_FAIL_COUNT, 0, .cnt, .operator⟩]⟩,
  ⟨0x10000C, 0x1000, 48, 1, [⟨0, 8, .LANE_REASON_LAST, 0, .ro, .operator⟩, ⟨8, 3, .LANE_REASON_RUNG, 0, .ro, .operator⟩, ⟨16, 16, .LANE_REASON_BACKOFF_LEFT_MS, 0, .vw, .operator⟩]⟩,
  ⟨0x100010, 0x1000, 48, 1, [⟨0, 8, .LANE_EVENTS_EV, 0, .w1c, .operator⟩]⟩,
  ⟨0x100014, 0x1000, 48, 1, [⟨0, 8, .LANE_EVENT_EN, 0, .rw, .operator⟩]⟩,
  ⟨0x10001C, 0x1000, 48, 1, [⟨0, 3, .LANE_EQ_SEL_RUNG, 0, .rw, .operator⟩]⟩,
  ⟨0x100020, 0x1000, 48, 1, [⟨0, 8, .LANE_EQ_TX_PRE2, 0, .rw, .installer⟩, ⟨8, 8, .LANE_EQ_TX_PRE1, 0, .rw, .installer⟩, ⟨16, 8, .LANE_EQ_TX_MAIN, 0, .rw, .installer⟩, ⟨24, 8, .LANE_EQ_TX_POST1, 0, .rw, .installer⟩]⟩,
  ⟨0x100024, 0x1000, 48, 1, [⟨0, 8, .LANE_EQ_RX_CTLE, 0, .rw, .installer⟩, ⟨8, 8, .LANE_EQ_RX_VGA, 0, .rw, .installer⟩, ⟨16, 8, .LANE_EQ_RX_DFE1, 0, .rw, .installer⟩, ⟨24, 8, .LANE_EQ_RX_DFE2, 0, .rw, .installer⟩]⟩,
  ⟨0x100028, 0x1000, 48, 1, [⟨0, 8, .LANE_EQ_RX2_DFE3, 0, .rw, .installer⟩, ⟨8, 1, .LANE_EQ_RX2_RX_INV, 0, .rw, .installer⟩, ⟨9, 1, .LANE_EQ_RX2_TX_INV, 0, .rw, .installer⟩, ⟨12, 2, .LANE_EQ_RX2_SRC, 0, .ro, .operator⟩, ⟨14, 1, .LANE_EQ_RX2_COMMIT, 0, .wo, .installer⟩]⟩,
  ⟨0x100030, 0x1000, 48, 1, [⟨0, 32, .LANE_CNT_CORR, 0, .cnt, .operator⟩]⟩,
  ⟨0x100034, 0x1000, 48, 1, [⟨0, 32, .LANE_CNT_UNCORR, 0, .cnt, .operator⟩]⟩,
  ⟨0x100038, 0x1000, 48, 1, [⟨0, 32, .LANE_CNT_LOS, 0, .cnt, .operator⟩]⟩,
  ⟨0x10003C, 0x1000, 48, 1, [⟨0, 32, .LANE_CNT_FAIL, 0, .cnt, .operator⟩]⟩,
  ⟨0x100040, 0x1000, 48, 1, [⟨0, 24, .LANE_IDLE_IDLE_MS, 0, .ro, .operator⟩, ⟨24, 8, .LANE_IDLE_DTJ, 0, .ro, .operator⟩]⟩,
  ⟨0x100050, 0x1000, 48, 1, [⟨0, 6, .LANE_EYE_CTRL_PHASE, 0, .rw, .installer⟩, ⟨8, 7, .LANE_EYE_CTRL_VOLT, 0, .rw, .installer⟩, ⟨16, 2, .LANE_EYE_CTRL_EYE, 0, .rw, .installer⟩, ⟨20, 5, .LANE_EYE_CTRL_LOG2_SAMPLES, 0, .rw, .installer⟩, ⟨31, 1, .LANE_EYE_CTRL_START, 0, .wo, .installer⟩]⟩,
  ⟨0x100054, 0x1000, 48, 1, [⟨0, 1, .LANE_EYE_STATUS_BUSY, 0, .ro, .operator⟩, ⟨1, 1, .LANE_EYE_STATUS_DONE, 0, .w1c, .operator⟩, ⟨2, 1, .LANE_EYE_STATUS_ABORTED, 0, .w1c, .operator⟩, ⟨4, 4, .LANE_EYE_STATUS_ABORT_REASON, 0, .ro, .operator⟩, ⟨8, 8, .LANE_EYE_STATUS_RESTARTS, 0, .cnt, .operator⟩]⟩,
  ⟨0x100058, 0x1000, 48, 1, [⟨0, 32, .LANE_EYE_ERR, 0, .ro, .operator⟩]⟩]

/-- Registers of the pages called ING. -/
def rowsING : List RegRow := [
  ⟨0x140000, 0x100, 32, 1, [⟨0, 2, .ING_LANE_STATUS_USMAS_STATE, 0, .ro, .operator⟩, ⟨4, 2, .ING_LANE_STATUS_VER, 0, .ro, .operator⟩, ⟨8, 8, .ING_LANE_STATUS_MINOR, 0, .ro, .operator⟩, ⟨16, 4, .ING_LANE_STATUS_HEAD_VC, 0, .ro, .operator⟩, ⟨20, 1, .ING_LANE_STATUS_PAUSED, 0, .ro, .operator⟩]⟩,
  ⟨0x140004, 0x100, 32, 1, [⟨0, 1, .ING_QUEUE_CTRL_FLUSH, 0, .wo, .operator⟩, ⟨1, 1, .ING_QUEUE_CTRL_PAUSE_EN, 0, .rw, .installer⟩, ⟨2, 1, .ING_QUEUE_CTRL_CLR_CNT, 0, .wo, .operator⟩]⟩,
  ⟨0x140008, 0x100, 32, 1, [⟨0, 17, .ING_QUEUE_LEVEL_LEVEL, 0, .ro, .operator⟩, ⟨17, 1, .ING_QUEUE_LEVEL_ABOVE, 0, .ro, .operator⟩, ⟨18, 1, .ING_QUEUE_LEVEL_FLUSHING, 0, .ro, .operator⟩, ⟨19, 13, .ING_QUEUE_LEVEL_DESC, 0, .ro, .operator⟩]⟩,
  ⟨0x14000C, 0x100, 32, 1, [⟨0, 17, .ING_QUEUE_HWM, 0, .rw, .installer⟩]⟩,
  ⟨0x140010, 0x100, 32, 1, [⟨0, 17, .ING_QUEUE_LWM, 0, .rw, .installer⟩]⟩,
  ⟨0x140014, 0x100, 32, 1, [⟨0, 6, .ING_QUEUE_EVENTS_EV, 0, .w1c, .operator⟩]⟩,
  ⟨0x140018, 0x100, 32, 1, [⟨0, 16, .ING_QUEUE_CROSS_COUNT, 0, .cnt, .operator⟩, ⟨16, 16, .ING_QUEUE_CROSS_RESETS, 0, .cnt, .operator⟩]⟩,
  ⟨0x140020, 0x100, 32, 1, [⟨0, 32, .ING_LANE_CNT_SEGERR, 0, .cnt, .operator⟩]⟩,
  ⟨0x140024, 0x100, 32, 1, [⟨0, 32, .ING_LANE_CNT_SEGLOST, 0, .cnt, .operator⟩]⟩,
  ⟨0x140028, 0x100, 32, 1, [⟨0, 16, .ING_LANE_CNT_ECC_CORR, 0, .cnt, .operator⟩, ⟨16, 16, .ING_LANE_CNT_ECC_UNCORR, 0, .cnt, .operator⟩]⟩,
  ⟨0x14002C, 0x100, 32, 1, [⟨0, 32, .ING_LANE_CNT_DISCARD, 0, .cnt, .operator⟩]⟩,
  ⟨0x140030, 0x100, 32, 1, [⟨0, 32, .ING_LANE_CNT_OVF, 0, .cnt, .operator⟩]⟩,
  ⟨0x140034, 0x100, 32, 1, [⟨0, 8, .ING_LANE_HEAD_TEMP, 0, .ro, .operator⟩, ⟨8, 8, .ING_LANE_HEAD_FILL, 0, .ro, .operator⟩, ⟨16, 1, .ING_LANE_HEAD_FAULT, 0, .ro, .operator⟩, ⟨31, 1, .ING_LANE_HEAD_VALID, 0, .ro, .operator⟩]⟩]

/-- Registers of the pages called INGCH. -/
def rowsINGCH : List RegRow := [
  ⟨0x144000, 0x40, 128, 1, [⟨0, 1, .ING_CH_CFG_EN, 0, .rw, .operator⟩, ⟨1, 1, .ING_CH_CFG_LS_MODE, 0, .rw, .operator⟩, ⟨2, 2, .ING_CH_CFG_EXPOSURES, 0, .rw, .operator⟩, ⟨4, 1, .ING_CH_CFG_APPLY, 0, .wo, .operator⟩, ⟨8, 6, .ING_CH_CFG_DT, 0, .rw, .operator⟩]⟩,
  ⟨0x144004, 0x40, 128, 1, [⟨0, 16, .ING_CH_SIZE_WIDTH, 0, .rw, .operator⟩, ⟨16, 16, .ING_CH_SIZE_HEIGHT, 0, .rw, .operator⟩]⟩,
  ⟨0x144008, 0x40, 128, 1, [⟨0, 20, .ING_CH_FILL, 0, .rw, .operator⟩]⟩,
  ⟨0x14400C, 0x40, 128, 1, [⟨0, 24, .ING_CH_TIMEOUT_FRAME_TIMEOUT_US, 0, .rw, .operator⟩]⟩,
  ⟨0x144010, 0x40, 128, 1, [⟨0, 1, .ING_CH_STATUS_OPEN, 0, .ro, .operator⟩, ⟨1, 2, .ING_CH_STATUS_EXPOSURE, 0, .ro, .operator⟩, ⟨3, 1, .ING_CH_STATUS_SHADOW_PENDING, 0, .ro, .operator⟩, ⟨16, 16, .ING_CH_STATUS_LINES, 0, .ro, .operator⟩]⟩,
  ⟨0x144014, 0x40, 128, 1, [⟨0, 16, .ING_CH_FNUM_LAST_FN, 0, .ro, .operator⟩]⟩,
  ⟨0x144018, 0x40, 128, 1, [⟨0, 10, .ING_CH_FLAGS_EV, 0, .w1c, .operator⟩]⟩,
  ⟨0x144020, 0x40, 128, 1, [⟨0, 32, .ING_CH_CNT_FRAMES, 0, .cnt, .operator⟩]⟩,
  ⟨0x144024, 0x40, 128, 1, [⟨0, 32, .ING_CH_CNT_CRC, 0, .cnt, .operator⟩]⟩,
  ⟨0x144028, 0x40, 128, 1, [⟨0, 32, .ING_CH_CNT_BAD, 0, .cnt, .operator⟩]⟩,
  ⟨0x14402C, 0x40, 128, 1, [⟨0, 32, .ING_CH_CNT_FNGAP, 0, .cnt, .operator⟩]⟩]

/-- Registers of the pages called INGPL. -/
def rowsINGPL : List RegRow := [
  ⟨0x148000, 0x40, 4, 1, [⟨0, 32, .ING_PLAY_ADDR, 0, .rw, .operator⟩]⟩,
  ⟨0x148004, 0x40, 4, 1, [⟨0, 8, .ING_PLAY_ADDR, 32, .rw, .operator⟩]⟩,
  ⟨0x148008, 0x40, 4, 1, [⟨0, 32, .ING_PLAY_FRAME_STRIDE, 0, .rw, .operator⟩]⟩,
  ⟨0x14800C, 0x40, 4, 1, [⟨0, 16, .ING_PLAY_CTRL_COUNT, 0, .rw, .operator⟩, ⟨16, 1, .ING_PLAY_CTRL_LOOP, 0, .rw, .operator⟩, ⟨17, 1, .ING_PLAY_CTRL_START, 0, .wo, .operator⟩, ⟨18, 1, .ING_PLAY_CTRL_STOP, 0, .wo, .operator⟩]⟩,
  ⟨0x148010, 0x40, 4, 1, [⟨0, 24, .ING_PLAY_LINE_TIME_LINE_TIME_NS, 0, .rw, .operator⟩]⟩,
  ⟨0x148014, 0x40, 4, 1, [⟨0, 2, .ING_PLAY_STATUS_STATE, 0, .ro, .operator⟩, ⟨2, 2, .ING_PLAY_STATUS_EV, 0, .w1c, .operator⟩, ⟨16, 16, .ING_PLAY_STATUS_FRAMES_DONE, 0, .cnt, .operator⟩]⟩,
  ⟨0x148018, 0x40, 4, 1, [⟨0, 32, .ING_PLAY_CNT_SKIP, 0, .cnt, .operator⟩]⟩]

/-- Registers of the pages called INGC. -/
def rowsINGC : List RegRow := [
  ⟨0x14C000, 0x4, 2, 4, [⟨0, 5, .ING_FC_MAP_QUEUE, 0, .rw, .installer⟩, ⟨5, 1, .ING_FC_MAP_INV, 0, .rw, .installer⟩, ⟨7, 1, .ING_FC_MAP_EN, 0, .rw, .installer⟩]⟩,
  ⟨0x14C008, 0x0, 1, 1, [⟨0, 5, .ING_EVENT_EN_LANE, 0, .rw, .operator⟩, ⟨8, 10, .ING_EVENT_EN_CH, 0, .rw, .operator⟩, ⟨24, 2, .ING_EVENT_EN_PLAY, 0, .rw, .operator⟩]⟩]

/-- Registers of the pages called SEC. -/
def rowsSEC : List RegRow := [
  ⟨0x10000, 0x0, 1, 1, [⟨0, 1, .SEC_STATUS_ATTEST_READY, 0, .ro, .operator⟩, ⟨1, 1, .SEC_STATUS_TEST_UNLOCKED, 0, .ro, .operator⟩, ⟨2, 1, .SEC_STATUS_TEST_SINCE_POWER, 0, .ro, .operator⟩, ⟨3, 1, .SEC_STATUS_WIPE_PENDING, 0, .ro, .operator⟩, ⟨4, 5, .SEC_STATUS_SESSIONS, 0, .vw, .operator⟩, ⟨16, 16, .SEC_STATUS_ATTEST_MS, 0, .ro, .operator⟩]⟩,
  ⟨0x10004, 0x0, 1, 1, [⟨0, 32, .SEC_FUSE_UID, 0, .ro, .operator⟩]⟩,
  ⟨0x10008, 0x0, 1, 1, [⟨0, 32, .SEC_FUSE_UID, 32, .ro, .operator⟩]⟩,
  ⟨0x1000C, 0x0, 1, 1, [⟨0, 4, .SEC_FUSE_STATE_SEAL, 0, .ro, .operator⟩, ⟨4, 4, .SEC_FUSE_STATE_REVOKE, 0, .ro, .operator⟩, ⟨8, 1, .SEC_FUSE_STATE_GEN0_REVOKED, 0, .ro, .operator⟩, ⟨9, 1, .SEC_FUSE_STATE_SCAN_OFF, 0, .ro, .operator⟩, ⟨10, 6, .SEC_FUSE_STATE_SVN_MIN, 0, .vw, .operator⟩, ⟨16, 8, .SEC_FUSE_STATE_DECOM, 0, .vw, .operator⟩, ⟨24, 1, .SEC_FUSE_STATE_DUS_PRESENT, 0, .ro, .operator⟩]⟩,
  ⟨0x10010, 0x0, 1, 1, [⟨0, 17, .SEC_CFG_SESSION_IDLE_S, 0, .rw, .maker⟩, ⟨17, 1, .SEC_CFG_AUDIT_POLICY, 0, .rw, .maker⟩]⟩,
  ⟨0x10014, 0x0, 1, 1, [⟨0, 32, .SEC_AUDIT_SEQ, 0, .ro, .operator⟩]⟩,
  ⟨0x10018, 0x0, 1, 1, [⟨0, 32, .SEC_AUDIT_SEQ, 32, .ro, .operator⟩]⟩,
  ⟨0x1001C, 0x0, 1, 1, [⟨0, 32, .SEC_AUDIT_OLDEST, 0, .ro, .operator⟩]⟩,
  ⟨0x10020, 0x0, 1, 1, [⟨0, 32, .SEC_AUDIT_OLDEST, 32, .ro, .operator⟩]⟩,
  ⟨0x10024, 0x0, 1, 1, [⟨0, 32, .SEC_AUDIT_SIGNED, 0, .ro, .operator⟩]⟩,
  ⟨0x10028, 0x0, 1, 1, [⟨0, 32, .SEC_AUDIT_SIGNED, 32, .ro, .operator⟩]⟩,
  ⟨0x10030, 0x4, 8, 1, [⟨0, 32, .SEC_AUDIT_HEAD, 0, .vw, .operator⟩]⟩,
  ⟨0x10050, 0x4, 8, 1, [⟨0, 32, .SEC_ATTEST_PK, 0, .ro, .operator⟩]⟩,
  ⟨0x10070, 0x0, 1, 1, [⟨0, 32, .SEC_CNT_LOGIN_OK, 0, .cnt, .operator⟩]⟩,
  ⟨0x10074, 0x0, 1, 1, [⟨0, 32, .SEC_CNT_LOGIN_FAIL, 0, .cnt, .operator⟩]⟩,
  ⟨0x10078, 0x0, 1, 1, [⟨0, 32, .SEC_CNT_AUDIT_REFUSED, 0, .cnt, .operator⟩]⟩,
  ⟨0x1007C, 0x0, 1, 1, [⟨0, 9, .SEC_AUDIT_QUEUE_LEVEL, 0, .vw, .operator⟩]⟩,
  ⟨0x10080, 0x0, 1, 1, [⟨0, 7, .SEC_EVENTS_EV, 0, .w1c, .operator⟩]⟩,
  ⟨0x10084, 0x0, 1, 1, [⟨0, 7, .SEC_EVENT_EN, 0, .rw, .operator⟩]⟩]

/-- Registers of the pages called SYNE. -/
def rowsSYNE : List RegRow := [
  ⟨0x180000, 0x40, 4, 1, [⟨0, 2, .SYN_ENC_CFG_MODE, 0, .rw, .installer⟩, ⟨2, 1, .SYN_ENC_CFG_REVERSE, 0, .rw, .installer⟩, ⟨8, 8, .SYN_ENC_CFG_FILTER, 0, .rw, .installer⟩]⟩,
  ⟨0x180004, 0x40, 4, 1, [⟨0, 32, .SYN_ENC_POS, 0, .ro, .operator⟩]⟩,
  ⟨0x180008, 0x40, 4, 1, [⟨0, 16, .SYN_ENC_POS, 32, .ro, .operator⟩]⟩,
  ⟨0x18000C, 0x40, 4, 1, [⟨0, 32, .SYN_ENC_PRESET, 0, .rw, .operator⟩]⟩,
  ⟨0x180010, 0x40, 4, 1, [⟨0, 16, .SYN_ENC_PRESET, 32, .rw, .operator⟩, ⟨31, 1, .SYN_ENC_PRESET_HI_LOAD, 0, .wo, .installer⟩]⟩,
  ⟨0x180014, 0x40, 4, 1, [⟨0, 32, .SYN_ENC_ZPOS, 0, .ro, .operator⟩]⟩,
  ⟨0x180018, 0x40, 4, 1, [⟨0, 16, .SYN_ENC_ZPOS, 32, .ro, .operator⟩]⟩,
  ⟨0x18001C, 0x40, 4, 1, [⟨0, 24, .SYN_ENC_STATUS_SPEED, 0, .ro, .operator⟩, ⟨24, 1, .SYN_ENC_STATUS_QUAD_ERR, 0, .w1c, .operator⟩]⟩,
  ⟨0x180020, 0x40, 4, 1, [⟨0, 32, .SYN_ENC_CNT_ERR, 0, .cnt, .operator⟩]⟩]

/-- Registers of the pages called SYNM. -/
def rowsSYNM : List RegRow := [
  ⟨0x180400, 0x40, 4, 1, [⟨0, 1, .SYN_MARK_CFG_EN, 0, .rw, .installer⟩, ⟨1, 2, .SYN_MARK_CFG_EDGE, 0, .rw, .installer⟩, ⟨3, 2, .SYN_MARK_CFG_ENC, 0, .rw, .installer⟩, ⟨8, 8, .SYN_MARK_CFG_FILTER, 0, .rw, .installer⟩, ⟨16, 16, .SYN_MARK_CFG_LOCKOUT, 0, .rw, .installer⟩]⟩,
  ⟨0x180404, 0x40, 4, 1, [⟨0, 32, .SYN_MARK_SEQ, 0, .ro, .operator⟩]⟩,
  ⟨0x180408, 0x40, 4, 1, [⟨0, 32, .SYN_MARK_TIME, 0, .ro, .operator⟩]⟩,
  ⟨0x18040C, 0x40, 4, 1, [⟨0, 32, .SYN_MARK_TIME, 32, .ro, .operator⟩]⟩,
  ⟨0x180410, 0x40, 4, 1, [⟨0, 32, .SYN_MARK_POS, 0, .ro, .operator⟩]⟩,
  ⟨0x180414, 0x40, 4, 1, [⟨0, 16, .SYN_MARK_POS, 32, .ro, .operator⟩]⟩,
  ⟨0x180418, 0x40, 4, 1, [⟨0, 31, .SYN_MARK_CNT_LOCKOUT_CNT, 0, .cnt, .operator⟩, ⟨31, 1, .SYN_MARK_CNT_LOCKOUT_LOCKOUT, 0, .w1c, .operator⟩]⟩]

/-- Registers of the pages called SYNC. -/
def rowsSYNC : List RegRow := [
  ⟨0x180800, 0x0, 1, 1, [⟨0, 32, .SYN_TB_TIME, 0, .ro, .operator⟩]⟩,
  ⟨0x180804, 0x0, 1, 1, [⟨0, 32, .SYN_TB_TIME, 32, .ro, .operator⟩]⟩,
  ⟨0x180808, 0x0, 1, 1, [⟨0, 32, .SYN_TB_RATE, 0, .rw, .operator⟩]⟩,
  ⟨0x18080C, 0x0, 1, 1, [⟨0, 32, .SYN_TB_STEP, 0, .wo, .operator⟩]⟩,
  ⟨0x180810, 0x0, 1, 1, [⟨0, 32, .SYN_TB_STEP, 32, .wo, .operator⟩]⟩,
  ⟨0x180814, 0x0, 1, 1, [⟨0, 32, .SYN_TB_SLEW, 0, .rw, .operator⟩]⟩,
  ⟨0x180818, 0x0, 1, 1, [⟨0, 2, .SYN_TB_CTRL_SRC, 0, .rw, .installer⟩]⟩,
  ⟨0x180900, 0x0, 1, 1, [⟨0, 1, .SYN_PTP_CFG_EN, 0, .rw, .installer⟩, ⟨1, 2, .SYN_PTP_CFG_TRANSPORT, 0, .rw, .installer⟩, ⟨3, 1, .SYN_PTP_CFG_P2P, 0, .rw, .installer⟩, ⟨8, 8, .SYN_PTP_CFG_DOMAIN, 0, .rw, .installer⟩]⟩,
  ⟨0x180904, 0x0, 1, 1, [⟨0, 16, .SYN_PTP_TXTS_INFO_SEQ_ID, 0, .vw, .operator⟩, ⟨16, 4, .SYN_PTP_TXTS_INFO_MSG_TYPE, 0, .vw, .operator⟩, ⟨31, 1, .SYN_PTP_TXTS_INFO_VALID, 0, .vw, .operator⟩]⟩,
  ⟨0x180908, 0x0, 1, 1, [⟨0, 32, .SYN_PTP_TXTS, 0, .vw, .operator⟩]⟩,
  ⟨0x18090C, 0x0, 1, 1, [⟨0, 32, .SYN_PTP_TXTS, 32, .vw, .operator⟩]⟩,
  ⟨0x180910, 0x0, 1, 1, [⟨0, 1, .SYN_PTP_TXTS_POP, 0, .wo, .operator⟩]⟩,
  ⟨0x180914, 0x0, 1, 1, [⟨0, 5, .SYN_PTP_STATUS_LEVEL, 0, .vw, .operator⟩, ⟨8, 1, .SYN_PTP_STATUS_TS_OVF, 0, .w1c, .operator⟩, ⟨16, 16, .SYN_PTP_STATUS_LOST, 0, .cnt, .operator⟩]⟩]

/-- Registers of the pages called SYNCH. -/
def rowsSYNCH : List RegRow := [
  ⟨0x181000, 0x40, 128, 1, [⟨0, 1, .SYN_CH_TRIG_CFG_EN, 0, .rw, .operator⟩, ⟨1, 1, .SYN_CH_TRIG_CFG_MODE, 0, .rw, .operator⟩, ⟨2, 2, .SYN_CH_TRIG_CFG_ENC, 0, .rw, .operator⟩, ⟨4, 1, .SYN_CH_TRIG_CFG_ARM, 0, .rw, .operator⟩, ⟨5, 2, .SYN_CH_TRIG_CFG_MARK, 0, .rw, .operator⟩, ⟨7, 1, .SYN_CH_TRIG_CFG_INHIBIT, 0, .rw, .operator⟩, ⟨8, 2, .SYN_CH_TRIG_CFG_DEST, 0, .rw, .operator⟩]⟩,
  ⟨0x181004, 0x40, 128, 1, [⟨0, 32, .SYN_CH_PITCH_INT, 0, .rw, .operator⟩]⟩,
  ⟨0x181008, 0x40, 128, 1, [⟨0, 16, .SYN_CH_PITCH_FRAC, 0, .rw, .operator⟩]⟩,
  ⟨0x18100C, 0x40, 128, 1, [⟨0, 32, .SYN_CH_OFFSET, 0, .rw, .operator⟩]⟩,
  ⟨0x181010, 0x40, 128, 1, [⟨0, 24, .SYN_CH_FS_DELAY_FS_DELAY_NS, 0, .rw, .operator⟩]⟩,
  ⟨0x181014, 0x40, 128, 1, [⟨0, 24, .SYN_CH_FS_LATE_FS_LATE_NS, 0, .rw, .operator⟩]⟩,
  ⟨0x181018, 0x40, 128, 1, [⟨0, 24, .SYN_CH_MATCH_MATCH_WINDOW_US, 0, .rw, .operator⟩]⟩,
  ⟨0x18101C, 0x40, 128, 1, [⟨0, 1, .SYN_CH_STATUS_ARMED, 0, .ro, .operator⟩, ⟨1, 3, .SYN_CH_STATUS_PENDING, 0, .vw, .operator⟩, ⟨4, 4, .SYN_CH_STATUS_EV, 0, .w1c, .operator⟩, ⟨16, 16, .SYN_CH_STATUS_TRIG_SEQ, 0, .ro, .operator⟩]⟩,
  ⟨0x181020, 0x40, 128, 1, [⟨0, 32, .SYN_CH_CNT_TRIG, 0, .cnt, .operator⟩]⟩,
  ⟨0x181024, 0x40, 128, 1, [⟨0, 11, .SYN_CH_CNT_NOTSENT_NOT_RUN, 0, .cnt, .operator⟩, ⟨11, 11, .SYN_CH_CNT_NOTSENT_INHIBIT, 0, .cnt, .operator⟩, ⟨22, 10, .SYN_CH_CNT_NOTSENT_PIN_BUSY, 0, .cnt, .operator⟩]⟩,
  ⟨0x181028, 0x40, 128, 1, [⟨0, 16, .SYN_CH_CNT_MATCH_UNMATCHED, 0, .cnt, .operator⟩, ⟨16, 16, .SYN_CH_CNT_MATCH_ORPHAN, 0, .cnt, .operator⟩]⟩,
  ⟨0x18102C, 0x40, 128, 1, [⟨0, 32, .SYN_CH_LAST_DEP, 0, .ro, .operator⟩]⟩,
  ⟨0x181030, 0x40, 128, 1, [⟨0, 32, .SYN_CH_LAST_DEP, 32, .ro, .operator⟩]⟩]

/-- Registers of the pages called SYNT. -/
def rowsSYNT : List RegRow := [
  ⟨0x183000, 0x4, 4, 4, [⟨0, 7, .SYN_TRIG_MAP_CH, 0, .rw, .installer⟩, ⟨7, 1, .SYN_TRIG_MAP_EN, 0, .rw, .installer⟩]⟩,
  ⟨0x183010, 0x0, 1, 1, [⟨0, 16, .SYN_TRIG_WIDTH_WIDTH_NS, 0, .rw, .operator⟩]⟩,
  ⟨0x183014, 0x0, 1, 1, [⟨0, 2, .SYN_EVENT_EN_ENC_MARK, 0, .rw, .operator⟩, ⟨2, 4, .SYN_EVENT_EN_CH, 0, .rw, .operator⟩, ⟨6, 1, .SYN_EVENT_EN_PTP, 0, .rw, .operator⟩]⟩]

/-- Registers of the pages called STOC. -/
def rowsSTOC : List RegRow := [
  ⟨0x540000, 0x40, 8, 1, [⟨0, 8, .STO_CH_STATUS_CE_PRESENT, 0, .ro, .operator⟩, ⟨8, 8, .STO_CH_STATUS_CE_EXCLUDED, 0, .ro, .operator⟩, ⟨16, 2, .STO_CH_STATUS_IFACE, 0, .ro, .operator⟩, ⟨20, 12, .STO_CH_STATUS_RATE, 0, .ro, .operator⟩]⟩,
  ⟨0x540004, 0x40, 8, 1, [⟨0, 32, .STO_CH_CNT_CORR, 0, .cnt, .operator⟩]⟩,
  ⟨0x540008, 0x40, 8, 1, [⟨0, 32, .STO_CH_CNT_RETRY, 0, .cnt, .operator⟩]⟩,
  ⟨0x54000C, 0x40, 8, 1, [⟨0, 32, .STO_CH_CNT_SOFT, 0, .cnt, .operator⟩]⟩,
  ⟨0x540010, 0x40, 8, 1, [⟨0, 32, .STO_CH_CNT_UNCORR, 0, .cnt, .operator⟩]⟩,
  ⟨0x540014, 0x40, 8, 1, [⟨0, 32, .STO_CH_CNT_PFAIL, 0, .cnt, .operator⟩]⟩,
  ⟨0x540018, 0x40, 8, 1, [⟨0, 32, .STO_CH_CNT_EFAIL, 0, .cnt, .operator⟩]⟩]

/-- Registers of the pages called STO. -/
def rowsSTO : List RegRow := [
  ⟨0x540400, 0x0, 1, 1, [⟨0, 8, .STO_GEOM_LUNS, 0, .ro, .operator⟩, ⟨8, 2, .STO_GEOM_PLANES, 0, .ro, .operator⟩, ⟨10, 1, .STO_GEOM_QLC, 0, .ro, .operator⟩, ⟨16, 14, .STO_GEOM_RAW_GIB, 0, .ro, .operator⟩]⟩,
  ⟨0x540404, 0x0, 1, 1, [⟨0, 16, .STO_SPACE_USABLE_GIB, 0, .ro, .operator⟩, ⟨16, 16, .STO_SPACE_REC_GIB_NOW, 0, .ro, .operator⟩]⟩,
  ⟨0x540408, 0x0, 1, 1, [⟨0, 13, .STO_LIB_STATUS_HAMPERS, 0, .vw, .operator⟩, ⟨16, 16, .STO_LIB_STATUS_LIB_FREE_GIB, 0, .vw, .operator⟩]⟩,
  ⟨0x54040C, 0x0, 1, 1, [⟨0, 16, .STO_WEAR_RATED, 0, .ro, .operator⟩, ⟨16, 8, .STO_WEAR_LIFE_PCT, 0, .vw, .operator⟩, ⟨24, 8, .STO_WEAR_SPARE_PCT, 0, .vw, .operator⟩]⟩,
  ⟨0x540410, 0x0, 1, 1, [⟨0, 16, .STO_ERASE_MIN, 0, .vw, .operator⟩, ⟨16, 16, .STO_ERASE_MAX, 0, .vw, .operator⟩]⟩,
  ⟨0x540414, 0x0, 1, 1, [⟨0, 16, .STO_SCRUB_OLDEST_DAYS, 0, .vw, .operator⟩, ⟨16, 1, .STO_SCRUB_CATCHUP_ACTIVE, 0, .vw, .operator⟩, ⟨17, 1, .STO_SCRUB_RTC_VALID, 0, .vw, .operator⟩]⟩,
  ⟨0x540420, 0x0, 1, 1, [⟨0, 8, .STO_CFG0_SCRUB_DAYS, 0, .rw, .installer⟩, ⟨8, 7, .STO_CFG0_CATCHUP_PCT, 0, .rw, .installer⟩, ⟨16, 7, .STO_CFG0_LOAD_PCT, 0, .rw, .installer⟩]⟩,
  ⟨0x540424, 0x0, 1, 1, [⟨0, 16, .STO_CFG1_REC_GIB, 0, .rw, .installer⟩, ⟨16, 7, .STO_CFG1_KEEP_MAX_PCT, 0, .rw, .installer⟩]⟩,
  ⟨0x540428, 0x0, 1, 1, [⟨0, 16, .STO_CFG2_AUTO_KEEP_PIX, 0, .rw, .installer⟩, ⟨16, 16, .STO_CFG2_WL_DELTA, 0, .rw, .installer⟩]⟩,
  ⟨0x540430, 0x0, 1, 1, [⟨0, 32, .STO_REC_NEWEST, 0, .vw, .operator⟩]⟩,
  ⟨0x540434, 0x0, 1, 1, [⟨0, 32, .STO_REC_NEWEST, 32, .vw, .operator⟩]⟩,
  ⟨0x540438, 0x0, 1, 1, [⟨0, 32, .STO_REC_OLDEST, 0, .vw, .operator⟩]⟩,
  ⟨0x54043C, 0x0, 1, 1, [⟨0, 32, .STO_REC_OLDEST, 32, .vw, .operator⟩]⟩,
  ⟨0x540440, 0x0, 1, 1, [⟨0, 24, .STO_REC_STATUS_KEPT_SEGS, 0, .vw, .operator⟩, ⟨24, 7, .STO_REC_STATUS_STAGE_PCT, 0, .vw, .operator⟩]⟩,
  ⟨0x540450, 0x0, 1, 1, [⟨0, 32, .STO_CNT_RELOC, 0, .cnt, .operator⟩]⟩,
  ⟨0x540454, 0x0, 1, 1, [⟨0, 32, .STO_CNT_RETIRED, 0, .cnt, .operator⟩]⟩,
  ⟨0x540458, 0x0, 1, 1, [⟨0, 32, .STO_CNT_REC_MISSED, 0, .cnt, .operator⟩]⟩,
  ⟨0x54045C, 0x0, 1, 1, [⟨0, 32, .STO_CNT_AUTOKEEP_SKIP, 0, .cnt, .operator⟩]⟩,
  ⟨0x540460, 0x0, 1, 1, [⟨0, 32, .STO_CNT_SCRUB, 0, .cnt, .operator⟩]⟩,
  ⟨0x540470, 0x0, 1, 1, [⟨0, 8, .STO_LIB_RESULT_STATUS, 0, .ro, .operator⟩, ⟨8, 3, .STO_LIB_RESULT_STEP, 0, .ro, .operator⟩, ⟨16, 12, .STO_LIB_RESULT_NUMBER, 0, .ro, .operator⟩]⟩,
  ⟨0x540474, 0x0, 1, 1, [⟨0, 1, .STO_CTRL_FENCE, 0, .rw, .installer⟩, ⟨1, 1, .STO_CTRL_RESET, 0, .wo, .installer⟩, ⟨2, 1, .STO_CTRL_CLR_CNT, 0, .wo, .operator⟩, ⟨8, 1, .STO_CTRL_FENCED, 0, .ro, .operator⟩]⟩,
  ⟨0x540478, 0x0, 1, 1, [⟨0, 13, .STO_EVENTS_EV, 0, .w1c, .operator⟩]⟩,
  ⟨0x54047C, 0x0, 1, 1, [⟨0, 13, .STO_EVENT_EN, 0, .rw, .operator⟩]⟩]

/-- Registers of the pages called JOB. -/
def rowsJOB : List RegRow := [
  ⟨0x50000, 0x0, 1, 1, [⟨0, 2, .JOB_STATUS_CUR_STATE, 0, .ro, .operator⟩, ⟨2, 1, .JOB_STATUS_DRAINING, 0, .ro, .operator⟩, ⟨4, 2, .JOB_STATUS_NEXT_STATE, 0, .ro, .operator⟩, ⟨6, 1, .JOB_STATUS_NEXT_STOP, 0, .ro, .operator⟩, ⟨8, 2, .JOB_STATUS_ROLE, 0, .ro, .operator⟩, ⟨10, 2, .JOB_STATUS_SW_MARK, 0, .ro, .operator⟩]⟩,
  ⟨0x50004, 0x0, 1, 1, [⟨0, 16, .JOB_IDS_CUR_ID, 0, .ro, .operator⟩, ⟨16, 16, .JOB_IDS_NEXT_ID, 0, .ro, .operator⟩]⟩,
  ⟨0x50008, 0x0, 1, 1, [⟨0, 12, .JOB_HAMPERS_CUR_HAMPER, 0, .ro, .operator⟩, ⟨16, 12, .JOB_HAMPERS_NEXT_HAMPER, 0, .ro, .operator⟩]⟩,
  ⟨0x5000C, 0x0, 1, 1, [⟨0, 16, .JOB_OUT_ID, 0, .ro, .operator⟩]⟩,
  ⟨0x50010, 0x0, 1, 1, [⟨0, 32, .JOB_ARM_TIME, 0, .rw, .operator⟩]⟩,
  ⟨0x50014, 0x0, 1, 1, [⟨0, 32, .JOB_ARM_TIME, 32, .rw, .operator⟩]⟩,
  ⟨0x50018, 0x0, 1, 1, [⟨0, 32, .JOB_SW_TIME, 0, .ro, .operator⟩]⟩,
  ⟨0x5001C, 0x0, 1, 1, [⟨0, 32, .JOB_SW_TIME, 32, .ro, .operator⟩]⟩,
  ⟨0x50020, 0x0, 1, 1, [⟨0, 32, .JOB_SW_POS, 0, .ro, .operator⟩]⟩,
  ⟨0x50024, 0x0, 1, 1, [⟨0, 16, .JOB_SW_POS, 32, .ro, .operator⟩]⟩,
  ⟨0x50028, 0x0, 1, 1, [⟨0, 32, .JOB_SW_SEQ, 0, .ro, .operator⟩]⟩,
  ⟨0x50030, 0x0, 1, 1, [⟨0, 8, .JOB_SEL_LATCH_INDEX, 0, .ro, .operator⟩, ⟨8, 2, .JOB_SEL_LATCH_SOURCE, 0, .ro, .operator⟩, ⟨16, 1, .JOB_SEL_LATCH_VALID, 0, .ro, .operator⟩]⟩,
  ⟨0x50040, 0x0, 1, 1, [⟨0, 16, .JOB_CFG_LAG_US, 0, .rw, .installer⟩, ⟨16, 8, .JOB_CFG_ARM_LEAD_MS, 0, .rw, .installer⟩, ⟨24, 8, .JOB_CFG_PREP_100MS, 0, .rw, .installer⟩]⟩,
  ⟨0x50044, 0x0, 1, 1, [⟨0, 1, .JOB_CTRL_ARM, 0, .wo, .operator⟩, ⟨1, 1, .JOB_CTRL_CANCEL, 0, .wo, .operator⟩, ⟨2, 1, .JOB_CTRL_IMMEDIATE, 0, .wo, .operator⟩, ⟨3, 1, .JOB_CTRL_STOP, 0, .wo, .operator⟩, ⟨4, 2, .JOB_CTRL_MARK, 0, .wo, .operator⟩, ⟨6, 2, .JOB_CTRL_SET_NEXT, 0, .wo, .operator⟩]⟩,
  ⟨0x50080, 0x4, 8, 1, [⟨0, 32, .JOB_REFUSE, 0, .ro, .operator⟩]⟩,
  ⟨0x500A0, 0x0, 1, 1, [⟨0, 7, .JOB_EVENTS_EV, 0, .w1c, .operator⟩]⟩,
  ⟨0x500A4, 0x0, 1, 1, [⟨0, 7, .JOB_EVENT_EN, 0, .rw, .operator⟩]⟩,
  ⟨0x500B0, 0x0, 1, 1, [⟨0, 32, .JOB_CNT_REFUSED, 0, .cnt, .operator⟩]⟩,
  ⟨0x500B4, 0x0, 1, 1, [⟨0, 32, .JOB_CNT_LOAD_FAIL, 0, .cnt, .operator⟩]⟩,
  ⟨0x500B8, 0x0, 1, 1, [⟨0, 32, .JOB_CNT_REPLACED, 0, .cnt, .operator⟩]⟩,
  ⟨0x500BC, 0x0, 1, 1, [⟨0, 32, .JOB_CNT_REPEAT, 0, .cnt, .operator⟩]⟩]

/-- Registers of the pages called JOBT. -/
def rowsJOBT : List RegRow := [
  ⟨0x51000, 0x10, 128, 1, [⟨0, 1, .JOB_TRIG_CFG_EN, 0, .rw, .operator⟩, ⟨1, 1, .JOB_TRIG_CFG_MODE, 0, .rw, .operator⟩, ⟨2, 2, .JOB_TRIG_CFG_ENC, 0, .rw, .operator⟩, ⟨4, 1, .JOB_TRIG_CFG_ARM, 0, .rw, .operator⟩, ⟨5, 2, .JOB_TRIG_CFG_MARK, 0, .rw, .operator⟩, ⟨7, 1, .JOB_TRIG_CFG_INHIBIT, 0, .rw, .operator⟩, ⟨8, 2, .JOB_TRIG_CFG_DEST, 0, .rw, .operator⟩]⟩,
  ⟨0x51004, 0x10, 128, 1, [⟨0, 32, .JOB_TRIG_PITCH_INT, 0, .rw, .operator⟩]⟩,
  ⟨0x51008, 0x10, 128, 1, [⟨0, 16, .JOB_TRIG_PITCH_FRAC, 0, .rw, .operator⟩]⟩,
  ⟨0x5100C, 0x10, 128, 1, [⟨0, 32, .JOB_TRIG_OFFSET, 0, .rw, .operator⟩]⟩]

/-- Registers of the pages called BOOT. -/
def rowsBOOT : List RegRow := [
  ⟨0x40000, 0x0, 1, 1, [⟨0, 2, .BOOT_STATUS_STATE, 0, .ro, .operator⟩, ⟨2, 1, .BOOT_STATUS_ACTIVE, 0, .ro, .operator⟩, ⟨3, 1, .BOOT_STATUS_TRIAL, 0, .ro, .operator⟩, ⟨4, 1, .BOOT_STATUS_PROVISIONED, 0, .ro, .operator⟩, ⟨5, 1, .BOOT_STATUS_CONFIG_PENDING, 0, .ro, .operator⟩, ⟨6, 1, .BOOT_STATUS_NOR_SLOW, 0, .ro, .operator⟩, ⟨7, 1, .BOOT_STATUS_MAP_BAD, 0, .ro, .operator⟩, ⟨8, 2, .BOOT_STATUS_FW_SRC, 0, .ro, .operator⟩, ⟨16, 16, .BOOT_STATUS_BOOT_US, 0, .ro, .operator⟩]⟩,
  ⟨0x40004, 0x4, 2, 1, [⟨0, 8, .BOOT_RESULT_STATUS, 0, .ro, .operator⟩, ⟨8, 4, .BOOT_RESULT_STEP, 0, .ro, .operator⟩, ⟨12, 2, .BOOT_RESULT_SLOT_STATE, 0, .ro, .operator⟩]⟩,
  ⟨0x4000C, 0x4, 2, 1, [⟨0, 32, .BOOT_SEQ, 0, .ro, .operator⟩]⟩,
  ⟨0x40014, 0x0, 1, 1, [⟨0, 32, .BOOT_FW_VERSION, 0, .ro, .operator⟩]⟩,
  ⟨0x40018, 0x0, 1, 1, [⟨0, 6, .BOOT_FW_SVN_SVN, 0, .ro, .operator⟩, ⟨8, 6, .BOOT_FW_SVN_SVN_MIN, 0, .vw, .operator⟩, ⟨16, 1, .BOOT_FW_SVN_KEY_GEN, 0, .ro, .operator⟩]⟩,
  ⟨0x40020, 0x4, 8, 1, [⟨0, 32, .BOOT_DIGEST, 0, .ro, .operator⟩]⟩,
  ⟨0x40040, 0x4, 8, 1, [⟨0, 32, .BOOT_FW_DIGEST, 0, .ro, .operator⟩]⟩,
  ⟨0x40060, 0x0, 1, 1, [⟨0, 3, .BOOT_UPD_STATUS_UPD_STATE, 0, .ro, .operator⟩, ⟨8, 8, .BOOT_UPD_STATUS_LAST_STATUS, 0, .ro, .operator⟩, ⟨16, 4, .BOOT_UPD_STATUS_LAST_STEP, 0, .ro, .operator⟩]⟩,
  ⟨0x40064, 0x0, 1, 1, [⟨0, 1, .BOOT_CTRL_CONFIRM, 0, .wo, .operator⟩, ⟨16, 16, .BOOT_CTRL_CONFIRM_S, 0, .rw, .maker⟩]⟩,
  ⟨0x40068, 0x0, 1, 1, [⟨0, 7, .BOOT_EVENTS_EV, 0, .w1c, .operator⟩]⟩,
  ⟨0x4006C, 0x0, 1, 1, [⟨0, 7, .BOOT_EVENT_EN, 0, .rw, .operator⟩]⟩]

/-- Registers of the pages called PWR. -/
def rowsPWR : List RegRow := [
  ⟨0x20000, 0x0, 1, 1, [⟨0, 2, .PWR_STATUS_STATE, 0, .ro, .operator⟩, ⟨4, 4, .PWR_STATUS_WAKE_SRC, 0, .ro, .operator⟩, ⟨8, 8, .PWR_STATUS_RESET_CAUSE, 0, .ro, .operator⟩, ⟨16, 16, .PWR_STATUS_MGT_RESTARTS, 0, .cnt, .operator⟩]⟩,
  ⟨0x20004, 0x0, 1, 1, [⟨0, 1, .PWR_CTRL_SLEEP, 0, .wo, .operator⟩, ⟨1, 1, .PWR_CTRL_MGT_RESTART, 0, .wo, .maker⟩, ⟨2, 1, .PWR_CTRL_CLR_CNT, 0, .wo, .operator⟩]⟩,
  ⟨0x20008, 0x0, 1, 1, [⟨0, 4, .PWR_CFG_WAKE_EN, 0, .rw, .installer⟩, ⟨8, 8, .PWR_CFG_DRAIN_MS, 0, .rw, .installer⟩, ⟨16, 16, .PWR_CFG_RESUME_MS, 0, .rw, .installer⟩]⟩,
  ⟨0x20010, 0x0, 1, 1, [⟨0, 32, .PWR_RTC_SEC, 0, .ro, .operator⟩]⟩,
  ⟨0x20014, 0x0, 1, 1, [⟨0, 16, .PWR_RTC_SEC, 32, .ro, .operator⟩, ⟨16, 15, .PWR_RTC_HI_TICKS, 0, .ro, .operator⟩, ⟨31, 1, .PWR_RTC_HI_RTC_VALID, 0, .ro, .operator⟩]⟩,
  ⟨0x20018, 0x0, 1, 1, [⟨0, 32, .PWR_ALARM, 0, .ro, .operator⟩]⟩,
  ⟨0x2001C, 0x0, 1, 1, [⟨0, 16, .PWR_ALARM, 32, .ro, .operator⟩]⟩,
  ⟨0x20020, 0x0, 1, 1, [⟨0, 32, .PWR_SLEEP_LAST_SECONDS, 0, .ro, .operator⟩]⟩,
  ⟨0x20024, 0x0, 1, 1, [⟨0, 32, .PWR_SLEEP_COUNT, 0, .ro, .operator⟩]⟩,
  ⟨0x20030, 0x0, 1, 1, [⟨0, 8, .PWR_THERM_STATUS_MAX, 0, .ro, .operator⟩, ⟨8, 8, .PWR_THERM_STATUS_SENSOR, 0, .ro, .operator⟩]⟩,
  ⟨0x20034, 0x0, 1, 1, [⟨0, 8, .PWR_THERM_CFG_TJ_WARN, 0, .rw, .installer⟩]⟩,
  ⟨0x20038, 0x4, 2, 4, [⟨0, 8, .PWR_TEMP_T, 0, .ro, .operator⟩]⟩,
  ⟨0x20040, 0x0, 1, 1, [⟨0, 8, .PWR_GATE, 0, .rw, .installer⟩]⟩,
  ⟨0x20044, 0x0, 1, 1, [⟨0, 5, .PWR_AVS_CODE, 0, .ro, .operator⟩]⟩,
  ⟨0x20050, 0x0, 1, 1, [⟨0, 9, .PWR_EVENTS_EV, 0, .w1c, .operator⟩]⟩,
  ⟨0x20054, 0x0, 1, 1, [⟨0, 9, .PWR_EVENT_EN, 0, .rw, .operator⟩]⟩,
  ⟨0x20100, 0x4, 24, 1, [⟨0, 32, .PWR_CNT_STALE, 0, .cnt, .operator⟩]⟩]

/-- Registers of the pages called BIST. -/
def rowsBIST : List RegRow := [
  ⟨0x30000, 0x0, 1, 1, [⟨0, 6, .BIST_CTRL_UNIT, 0, .rw, .operator⟩, ⟨8, 3, .BIST_CTRL_KINDS, 0, .rw, .operator⟩, ⟨12, 2, .BIST_CTRL_LEVEL, 0, .rw, .operator⟩, ⟨16, 1, .BIST_CTRL_START, 0, .wo, .operator⟩, ⟨17, 1, .BIST_CTRL_STOP, 0, .wo, .operator⟩]⟩,
  ⟨0x30004, 0x0, 1, 1, [⟨0, 2, .BIST_STATUS_STATE, 0, .ro, .operator⟩, ⟨8, 6, .BIST_STATUS_UNIT, 0, .ro, .operator⟩, ⟨16, 1, .BIST_STATUS_POWERON, 0, .ro, .operator⟩, ⟨17, 1, .BIST_STATUS_DEGRADED, 0, .ro, .operator⟩, ⟨24, 8, .BIST_STATUS_LAST, 0, .ro, .operator⟩]⟩,
  ⟨0x30008, 0x0, 1, 1, [⟨0, 2, .BIST_CFG_ROLL_LEVEL, 0, .rw, .installer⟩]⟩,
  ⟨0x3000C, 0x0, 1, 1, [⟨0, 6, .BIST_SEL_UNIT, 0, .rw, .operator⟩]⟩,
  ⟨0x30010, 0x4, 8, 1, [⟨0, 32, .BIST_RESULT, 0, .vw, .operator⟩]⟩,
  ⟨0x30030, 0x4, 3, 1, [⟨0, 32, .BIST_HEALTH_UNITS, 0, .vw, .operator⟩]⟩,
  ⟨0x30040, 0x0, 1, 1, [⟨0, 16, .BIST_REPAIR_ROWS, 0, .ro, .operator⟩, ⟨16, 16, .BIST_REPAIR_COLS, 0, .ro, .operator⟩]⟩,
  ⟨0x30050, 0x0, 1, 1, [⟨0, 7, .BIST_LOG_STATUS_LEVEL, 0, .vw, .operator⟩, ⟨16, 16, .BIST_LOG_STATUS_TOTAL, 0, .cnt, .operator⟩]⟩,
  ⟨0x30054, 0x0, 1, 1, [⟨0, 6, .BIST_LOG_SEL_INDEX, 0, .rw, .operator⟩]⟩,
  ⟨0x30060, 0x4, 4, 1, [⟨0, 32, .BIST_LOG_ENTRY, 0, .vw, .operator⟩]⟩,
  ⟨0x30080, 0x0, 1, 1, [⟨0, 6, .BIST_ABIST_SEL_UNIT, 0, .rw, .operator⟩, ⟨8, 4, .BIST_ABIST_SEL_ITEM, 0, .rw, .operator⟩, ⟨12, 2, .BIST_ABIST_SEL_LANE, 0, .rw, .operator⟩, ⟨16, 3, .BIST_ABIST_SEL_RUNG, 0, .rw, .operator⟩]⟩,
  ⟨0x30084, 0x0, 1, 1, [⟨0, 32, .BIST_ABIST_VAL_VALUE, 0, .vw, .operator⟩]⟩,
  ⟨0x30090, 0x0, 1, 1, [⟨0, 4, .BIST_EVENTS_EV, 0, .w1c, .operator⟩]⟩,
  ⟨0x30094, 0x0, 1, 1, [⟨0, 4, .BIST_EVENT_EN, 0, .rw, .operator⟩]⟩]

/-- Registers of the pages called FABP. -/
def rowsFABP : List RegRow := [
  ⟨0x480000, 0x100, 8, 1, [⟨0, 3, .FAB_PORT_STATUS_STATE, 0, .ro, .operator⟩, ⟨4, 2, .FAB_PORT_STATUS_VER, 0, .ro, .operator⟩, ⟨6, 2, .FAB_PORT_STATUS_LANES, 0, .ro, .operator⟩, ⟨8, 8, .FAB_PORT_STATUS_NEIGH_ID, 0, .ro, .operator⟩, ⟨16, 1, .FAB_PORT_STATUS_PARENT, 0, .ro, .operator⟩]⟩,
  ⟨0x480004, 0x100, 8, 1, [⟨0, 32, .FAB_PORT_NEIGH, 0, .ro, .operator⟩]⟩,
  ⟨0x480008, 0x100, 8, 1, [⟨0, 32, .FAB_PORT_NEIGH, 32, .ro, .operator⟩]⟩,
  ⟨0x48000C, 0x100, 8, 1, [⟨0, 16, .FAB_PORT_CFG_ASYM, 0, .rw, .installer⟩]⟩,
  ⟨0x480010, 0x100, 8, 1, [⟨0, 1, .FAB_PORT_CTRL_WAKE, 0, .wo, .installer⟩]⟩,
  ⟨0x480020, 0x100, 8, 1, [⟨0, 32, .FAB_PORT_CNT_TX, 0, .cnt, .operator⟩]⟩,
  ⟨0x480024, 0x100, 8, 1, [⟨0, 32, .FAB_PORT_CNT_RX, 0, .cnt, .operator⟩]⟩,
  ⟨0x480028, 0x100, 8, 1, [⟨0, 32, .FAB_PORT_CNT_RETRY, 0, .cnt, .operator⟩]⟩,
  ⟨0x48002C, 0x100, 8, 1, [⟨0, 32, .FAB_PORT_CNT_POISON, 0, .cnt, .operator⟩]⟩,
  ⟨0x480030, 0x100, 8, 1, [⟨0, 32, .FAB_PORT_CNT_CRC, 0, .cnt, .operator⟩]⟩]

/-- Registers of the pages called FAB. -/
def rowsFAB : List RegRow := [
  ⟨0x481000, 0x0, 1, 1, [⟨0, 8, .FAB_NODE_NODE_ID, 0, .ro, .operator⟩, ⟨8, 1, .FAB_NODE_ROOT, 0, .ro, .operator⟩, ⟨9, 1, .FAB_NODE_TIME_LOCKED, 0, .ro, .operator⟩, ⟨10, 6, .FAB_NODE_DEPTH, 0, .ro, .operator⟩, ⟨16, 7, .FAB_NODE_NODES, 0, .ro, .operator⟩]⟩,
  ⟨0x481004, 0x0, 1, 1, [⟨0, 32, .FAB_UID_LO_UID, 0, .vw, .operator⟩]⟩,
  ⟨0x481008, 0x0, 1, 1, [⟨0, 32, .FAB_UID_HI_UID, 0, .vw, .operator⟩]⟩,
  ⟨0x48100C, 0x0, 1, 1, [⟨0, 32, .FAB_ROOT, 0, .ro, .operator⟩]⟩,
  ⟨0x481010, 0x0, 1, 1, [⟨0, 32, .FAB_ROOT, 32, .ro, .operator⟩]⟩,
  ⟨0x481014, 0x0, 1, 1, [⟨0, 6, .FAB_PIN_PIN_ID, 0, .rw, .installer⟩, ⟨8, 1, .FAB_PIN_PIN_EN, 0, .rw, .installer⟩]⟩,
  ⟨0x481018, 0x0, 1, 1, [⟨0, 6, .FAB_CFG_HOP_LIMIT, 0, .rw, .installer⟩, ⟨8, 8, .FAB_CFG_CTRL_TIMEOUT_MS, 0, .rw, .installer⟩, ⟨16, 7, .FAB_CFG_BULK_MIN_PCT, 0, .rw, .installer⟩]⟩,
  ⟨0x481020, 0x0, 1, 1, [⟨0, 32, .FAB_TIME_OFFSET, 0, .ro, .operator⟩]⟩,
  ⟨0x481024, 0x0, 1, 1, [⟨0, 32, .FAB_TIME_DELAY, 0, .ro, .operator⟩]⟩,
  ⟨0x481028, 0x0, 1, 1, [⟨0, 1, .FAB_CTRL_FENCE, 0, .rw, .installer⟩, ⟨1, 1, .FAB_CTRL_RESET, 0, .wo, .installer⟩, ⟨2, 1, .FAB_CTRL_CLR_CNT, 0, .wo, .operator⟩, ⟨8, 1, .FAB_CTRL_FENCED, 0, .ro, .operator⟩]⟩,
  ⟨0x48102C, 0x0, 1, 1, [⟨0, 10, .FAB_EVENTS_EV, 0, .w1c, .operator⟩]⟩,
  ⟨0x481030, 0x0, 1, 1, [⟨0, 10, .FAB_EVENT_EN, 0, .rw, .operator⟩]⟩,
  ⟨0x481040, 0x0, 1, 1, [⟨0, 32, .FAB_RX_WIN_BASE, 0, .rw, .installer⟩]⟩,
  ⟨0x481044, 0x0, 1, 1, [⟨0, 8, .FAB_RX_WIN_BASE, 32, .rw, .installer⟩]⟩,
  ⟨0x481048, 0x0, 1, 1, [⟨0, 16, .FAB_RX_WIN_SIZE_SIZE_MIB, 0, .rw, .installer⟩]⟩,
  ⟨0x48104C, 0x0, 1, 1, [⟨0, 32, .FAB_CNT_LATE_REPLY, 0, .cnt, .operator⟩]⟩,
  ⟨0x481050, 0x0, 1, 1, [⟨0, 32, .FAB_CNT_LATE_LOST, 0, .cnt, .operator⟩]⟩,
  ⟨0x482000, 0x4, 64, 1, [⟨0, 4, .FAB_ROUTE_PORT, 0, .rw, .operator⟩, ⟨8, 6, .FAB_ROUTE_HOPS, 0, .rw, .operator⟩]⟩,
  ⟨0x482100, 0x0, 1, 1, [⟨0, 1, .FAB_ROUTE_COMMIT_COMMIT, 0, .wo, .operator⟩, ⟨8, 8, .FAB_ROUTE_COMMIT_BCAST_MASK, 0, .rw, .operator⟩, ⟨16, 16, .FAB_ROUTE_COMMIT_EPOCH, 0, .cnt, .operator⟩]⟩,
  ⟨0x483000, 0x0, 1, 1, [⟨0, 9, .FAB_LATE_STATUS_LEVEL, 0, .vw, .operator⟩, ⟨16, 1, .FAB_LATE_STATUS_EMPTY, 0, .vw, .operator⟩, ⟨17, 1, .FAB_LATE_STATUS_OVF, 0, .w1c, .operator⟩]⟩,
  ⟨0x483004, 0x0, 1, 1, [⟨0, 1, .FAB_LATE_POP, 0, .wo, .operator⟩]⟩,
  ⟨0x483010, 0x4, 8, 1, [⟨0, 32, .FAB_LATE_HEAD, 0, .vw, .operator⟩]⟩]

/-- Registers of the pages called PIPE. -/
def rowsPIPE : List RegRow := [
  ⟨0x200000, 0x10000, 8, 1, [⟨0, 3, .PIPE_STATUS_STATE, 0, .vw, .operator⟩, ⟨8, 8, .PIPE_STATUS_CTX, 0, .ro, .operator⟩, ⟨16, 8, .PIPE_STATUS_STRIPE, 0, .ro, .operator⟩, ⟨24, 1, .PIPE_STATUS_BANK, 0, .ro, .operator⟩]⟩,
  ⟨0x200004, 0x10000, 8, 1, [⟨0, 1, .PIPE_CTRL_FENCE, 0, .rw, .installer⟩, ⟨1, 1, .PIPE_CTRL_RESET, 0, .wo, .installer⟩, ⟨2, 1, .PIPE_CTRL_CLR_CNT, 0, .wo, .operator⟩]⟩,
  ⟨0x200008, 0x10000, 8, 1, [⟨0, 32, .PIPE_CNT_STRIPES, 0, .cnt, .operator⟩]⟩,
  ⟨0x20000C, 0x10000, 8, 1, [⟨0, 32, .PIPE_CNT_BUSY, 0, .cnt, .operator⟩]⟩,
  ⟨0x200010, 0x10000, 8, 1, [⟨0, 32, .PIPE_CNT_LOST, 0, .cnt, .operator⟩]⟩,
  ⟨0x200014, 0x10000, 8, 1, [⟨0, 3, .PIPE_EVENTS_EV, 0, .w1c, .operator⟩]⟩,
  ⟨0x200100, 0x10000, 8, 1, [⟨0, 32, .PIPE_STG_CNT_DPC_STATIC, 0, .cnt, .operator⟩]⟩,
  ⟨0x200104, 0x10000, 8, 1, [⟨0, 32, .PIPE_STG_CNT_DPC_DYN, 0, .cnt, .operator⟩]⟩,
  ⟨0x200108, 0x10000, 8, 1, [⟨0, 32, .PIPE_STG_CNT_MERGE_MISS, 0, .cnt, .operator⟩]⟩,
  ⟨0x20010C, 0x10000, 8, 1, [⟨0, 32, .PIPE_STG_CNT_FALLBACK, 0, .cnt, .operator⟩]⟩,
  ⟨0x200110, 0x10000, 8, 1, [⟨0, 32, .PIPE_STG_CNT_COMP_CLIP, 0, .cnt, .operator⟩]⟩,
  ⟨0x200114, 0x10000, 8, 1, [⟨0, 32, .PIPE_STG_CNT_LSC_CLIP, 0, .cnt, .operator⟩]⟩,
  ⟨0x200118, 0x10000, 8, 1, [⟨0, 32, .PIPE_STG_CNT_DM_CLIP, 0, .cnt, .operator⟩]⟩,
  ⟨0x20011C, 0x10000, 8, 1, [⟨0, 32, .PIPE_STG_CNT_IRS_CLIP, 0, .cnt, .operator⟩]⟩,
  ⟨0x200120, 0x10000, 8, 1, [⟨0, 32, .PIPE_STG_CNT_CCM_CLIP, 0, .cnt, .operator⟩]⟩,
  ⟨0x200124, 0x10000, 8, 1, [⟨0, 32, .PIPE_STG_CNT_TAP, 0, .cnt, .operator⟩]⟩,
  ⟨0x200128, 0x10000, 8, 1, [⟨0, 32, .PIPE_STG_CNT_TAP_DROP, 0, .cnt, .operator⟩]⟩]

/-- Registers of the pages called SCH. -/
def rowsSCH : List RegRow := [
  ⟨0x280000, 0x0, 1, 1, [⟨0, 7, .PIPE_SCH_CFG_ADMIT_PCT, 0, .rw, .installer⟩, ⟨8, 17, .PIPE_SCH_CFG_HOLD_WM, 0, .rw, .installer⟩]⟩,
  ⟨0x280004, 0x0, 1, 1, [⟨0, 14, .PIPE_SCH_STATUS_HOLD_KIB, 0, .vw, .operator⟩, ⟨16, 14, .PIPE_SCH_STATUS_SPILL_MIB, 0, .vw, .operator⟩]⟩,
  ⟨0x280008, 0x0, 1, 1, [⟨0, 32, .PIPE_SPILL_BASE, 0, .rw, .installer⟩]⟩,
  ⟨0x28000C, 0x0, 1, 1, [⟨0, 8, .PIPE_SPILL_BASE, 32, .rw, .installer⟩]⟩,
  ⟨0x280010, 0x0, 1, 1, [⟨0, 14, .PIPE_SPILL_SIZE_SIZE_MIB, 0, .rw, .installer⟩]⟩,
  ⟨0x280020, 0x0, 1, 1, [⟨0, 8, .PIPE_CTX_SEL_CTX, 0, .rw, .operator⟩]⟩,
  ⟨0x280024, 0x0, 1, 1, [⟨0, 2, .PIPE_CTX_STATE_BANK0, 0, .vw, .operator⟩, ⟨2, 2, .PIPE_CTX_STATE_BANK1, 0, .vw, .operator⟩, ⟨4, 1, .PIPE_CTX_STATE_MODE, 0, .vw, .operator⟩, ⟨8, 8, .PIPE_CTX_STATE_BOUND0, 0, .vw, .operator⟩, ⟨16, 8, .PIPE_CTX_STATE_BOUND1, 0, .vw, .operator⟩]⟩,
  ⟨0x280028, 0x0, 1, 1, [⟨0, 8, .PIPE_CTX_COMMIT_CTX, 0, .wo, .installer⟩, ⟨8, 1, .PIPE_CTX_COMMIT_MODE, 0, .wo, .installer⟩, ⟨9, 1, .PIPE_CTX_COMMIT_WITH_ING, 0, .wo, .installer⟩, ⟨10, 1, .PIPE_CTX_COMMIT_CANCEL, 0, .wo, .installer⟩, ⟨31, 1, .PIPE_CTX_COMMIT_GO, 0, .wo, .installer⟩]⟩,
  ⟨0x280030, 0x0, 1, 1, [⟨0, 24, .PIPE_DEMAND_CUR_CLK_PER_MS, 0, .ro, .operator⟩, ⟨24, 7, .PIPE_DEMAND_CUR_PCT, 0, .ro, .operator⟩]⟩,
  ⟨0x280034, 0x0, 1, 1, [⟨0, 24, .PIPE_DEMAND_NEXT_CLK_PER_MS, 0, .ro, .operator⟩, ⟨24, 7, .PIPE_DEMAND_NEXT_PCT, 0, .ro, .operator⟩]⟩,
  ⟨0x280040, 0x0, 1, 1, [⟨0, 3, .PIPE_ROLL_CTRL_PIPE, 0, .rw, .operator⟩, ⟨3, 1, .PIPE_ROLL_CTRL_AUTO, 0, .rw, .operator⟩, ⟨4, 1, .PIPE_ROLL_CTRL_START, 0, .wo, .operator⟩, ⟨5, 1, .PIPE_ROLL_CTRL_STOP, 0, .wo, .operator⟩, ⟨16, 16, .PIPE_ROLL_CTRL_INTERVAL_S, 0, .rw, .operator⟩]⟩,
  ⟨0x280044, 0x0, 1, 1, [⟨0, 2, .PIPE_ROLL_STATUS_STATE, 0, .ro, .operator⟩, ⟨4, 3, .PIPE_ROLL_STATUS_PIPE, 0, .ro, .operator⟩, ⟨8, 2, .PIPE_ROLL_STATUS_RESULT, 0, .ro, .operator⟩, ⟨16, 16, .PIPE_ROLL_STATUS_TESTS, 0, .cnt, .operator⟩]⟩,
  ⟨0x280050, 0x0, 1, 1, [⟨0, 32, .PIPE_CNT_HELD, 0, .cnt, .operator⟩]⟩,
  ⟨0x280054, 0x0, 1, 1, [⟨0, 32, .PIPE_CNT_SPILL, 0, .cnt, .operator⟩]⟩,
  ⟨0x280058, 0x0, 1, 1, [⟨0, 32, .PIPE_CNT_DELAYED, 0, .cnt, .operator⟩]⟩,
  ⟨0x28005C, 0x0, 1, 1, [⟨0, 32, .PIPE_CNT_REFUSED, 0, .cnt, .operator⟩]⟩,
  ⟨0x280060, 0x0, 1, 1, [⟨0, 32, .PIPE_CNT_NOCTX, 0, .cnt, .operator⟩]⟩,
  ⟨0x280070, 0x0, 1, 1, [⟨0, 4, .PIPE_SCH_EVENTS_EV, 0, .w1c, .operator⟩]⟩,
  ⟨0x280074, 0x0, 1, 1, [⟨0, 2, .PIPE_EVENT_EN_PIPE, 0, .rw, .operator⟩, ⟨2, 4, .PIPE_EVENT_EN_CTX, 0, .rw, .operator⟩, ⟨6, 1, .PIPE_EVENT_EN_ROLL, 0, .rw, .operator⟩]⟩]

/-- Registers of the pages called MEM. -/
def rowsMEM : List RegRow := [
  ⟨0x500000, 0x0, 1, 1, [⟨0, 7, .MEM_STATUS_USABLE_GIB, 0, .ro, .operator⟩, ⟨8, 8, .MEM_STATUS_RATE, 0, .ro, .operator⟩, ⟨16, 1, .MEM_STATUS_ECC_INLINE, 0, .ro, .operator⟩, ⟨17, 2, .MEM_STATUS_RANKS, 0, .ro, .operator⟩, ⟨20, 4, .MEM_STATUS_DIE_GBIT, 0, .ro, .operator⟩, ⟨24, 1, .MEM_STATUS_TRAINED, 0, .ro, .operator⟩]⟩,
  ⟨0x500004, 0x0, 1, 1, [⟨0, 7, .MEM_CFG_ADMIT_PCT, 0, .rw, .installer⟩, ⟨8, 8, .MEM_CFG_MGT_RESERVE, 0, .rw, .installer⟩]⟩,
  ⟨0x500008, 0x0, 1, 1, [⟨0, 1, .MEM_CTRL_FENCE, 0, .rw, .installer⟩, ⟨1, 1, .MEM_CTRL_RESET, 0, .wo, .installer⟩, ⟨2, 1, .MEM_CTRL_CLR_CNT, 0, .wo, .operator⟩, ⟨8, 1, .MEM_CTRL_FENCED, 0, .ro, .operator⟩]⟩,
  ⟨0x500010, 0x0, 1, 1, [⟨0, 32, .MEM_FS_BASE, 0, .rw, .installer⟩]⟩,
  ⟨0x500014, 0x0, 1, 1, [⟨0, 8, .MEM_FS_BASE, 32, .rw, .installer⟩]⟩,
  ⟨0x500018, 0x0, 1, 1, [⟨0, 16, .MEM_FS_SIZE_SIZE_MIB, 0, .rw, .installer⟩]⟩,
  ⟨0x50001C, 0x0, 1, 1, [⟨0, 16, .MEM_FS_USED_BLOCKS, 0, .vw, .operator⟩]⟩,
  ⟨0x500020, 0x0, 1, 1, [⟨0, 32, .MEM_STAGE_BASE, 0, .rw, .installer⟩]⟩,
  ⟨0x500024, 0x0, 1, 1, [⟨0, 8, .MEM_STAGE_BASE, 32, .rw, .installer⟩]⟩,
  ⟨0x500028, 0x0, 1, 1, [⟨0, 16, .MEM_STAGE_SIZE_SIZE_MIB, 0, .rw, .installer⟩]⟩,
  ⟨0x500030, 0x0, 1, 1, [⟨0, 16, .MEM_DEMAND_CUR_DEMAND, 0, .ro, .operator⟩]⟩,
  ⟨0x500034, 0x0, 1, 1, [⟨0, 16, .MEM_DEMAND_NEXT_DEMAND, 0, .ro, .operator⟩]⟩,
  ⟨0x500038, 0x0, 1, 1, [⟨0, 16, .MEM_CAPACITY_CAP, 0, .ro, .operator⟩]⟩,
  ⟨0x500040, 0x0, 1, 1, [⟨0, 32, .MEM_CNT_CE, 0, .cnt, .operator⟩]⟩,
  ⟨0x500044, 0x0, 1, 1, [⟨0, 32, .MEM_CNT_UE, 0, .cnt, .operator⟩]⟩,
  ⟨0x500048, 0x0, 1, 1, [⟨0, 32, .MEM_CNT_LINK, 0, .cnt, .operator⟩]⟩,
  ⟨0x50004C, 0x0, 1, 1, [⟨0, 32, .MEM_CNT_DENIED, 0, .cnt, .operator⟩]⟩,
  ⟨0x500050, 0x0, 1, 1, [⟨0, 32, .MEM_CNT_FS_FULL, 0, .cnt, .operator⟩]⟩,
  ⟨0x500058, 0x0, 1, 1, [⟨0, 32, .MEM_ERR_ADDR, 0, .ro, .operator⟩]⟩,
  ⟨0x50005C, 0x0, 1, 1, [⟨0, 8, .MEM_ERR_ADDR, 32, .ro, .operator⟩]⟩,
  ⟨0x500060, 0x0, 1, 1, [⟨0, 32, .MEM_TEMP_LEVELS, 0, .ro, .operator⟩]⟩,
  ⟨0x500070, 0x0, 1, 1, [⟨0, 32, .MEM_MON_REF, 0, .ro, .operator⟩]⟩,
  ⟨0x500074, 0x0, 1, 1, [⟨0, 32, .MEM_MON_FS, 0, .ro, .operator⟩]⟩,
  ⟨0x500078, 0x0, 1, 1, [⟨0, 32, .MEM_MON_EGR, 0, .ro, .operator⟩]⟩,
  ⟨0x50007C, 0x0, 1, 1, [⟨0, 32, .MEM_MON_SPILL, 0, .ro, .operator⟩]⟩,
  ⟨0x500080, 0x0, 1, 1, [⟨0, 32, .MEM_MON_OTHER, 0, .ro, .operator⟩]⟩,
  ⟨0x500090, 0x0, 1, 1, [⟨0, 7, .MEM_EVENTS_EV, 0, .w1c, .operator⟩]⟩,
  ⟨0x500094, 0x0, 1, 1, [⟨0, 7, .MEM_EVENT_EN, 0, .rw, .operator⟩]⟩]

/-- Registers of the pages called MRG. -/
def rowsMRG : List RegRow := [
  ⟨0x300000, 0x100, 8, 1, [⟨0, 2, .MRG_BL_STATUS_BANK0, 0, .vw, .operator⟩, ⟨2, 2, .MRG_BL_STATUS_BANK1, 0, .vw, .operator⟩, ⟨4, 2, .MRG_BL_STATUS_OPEN, 0, .vw, .operator⟩, ⟨16, 16, .MRG_BL_STATUS_HOLD_MAX, 0, .rc, .operator⟩]⟩,
  ⟨0x300004, 0x100, 8, 1, [⟨0, 32, .MRG_BL_SEQ, 0, .ro, .operator⟩]⟩,
  ⟨0x300008, 0x100, 8, 1, [⟨0, 5, .MRG_BL_EVENTS_EV, 0, .w1c, .operator⟩]⟩,
  ⟨0x300010, 0x100, 8, 1, [⟨0, 32, .MRG_CNT_ABSENT, 0, .cnt, .operator⟩]⟩,
  ⟨0x300014, 0x100, 8, 1, [⟨0, 32, .MRG_CNT_SEAM_MISS, 0, .cnt, .operator⟩]⟩,
  ⟨0x300018, 0x100, 8, 1, [⟨0, 32, .MRG_CNT_SEAM_LATE, 0, .cnt, .operator⟩]⟩,
  ⟨0x30001C, 0x100, 8, 1, [⟨0, 32, .MRG_CNT_LATE, 0, .cnt, .operator⟩]⟩,
  ⟨0x300020, 0x100, 8, 1, [⟨0, 32, .MRG_CNT_NOLAYOUT, 0, .cnt, .operator⟩]⟩,
  ⟨0x300024, 0x100, 8, 1, [⟨0, 32, .MRG_CNT_TILES, 0, .cnt, .operator⟩]⟩]

/-- Registers of the pages called MRGC. -/
def rowsMRGC : List RegRow := [
  ⟨0x300800, 0x0, 1, 1, [⟨0, 3, .MRG_COMMIT_BLANKET, 0, .wo, .installer⟩, ⟨8, 1, .MRG_COMMIT_MODE, 0, .wo, .installer⟩, ⟨10, 1, .MRG_COMMIT_CANCEL, 0, .wo, .installer⟩, ⟨31, 1, .MRG_COMMIT_GO, 0, .wo, .installer⟩]⟩,
  ⟨0x300804, 0x0, 1, 1, [⟨0, 14, .MRG_STORE_USED_KIB, 0, .vw, .operator⟩, ⟨16, 14, .MRG_STORE_RESERVED_KIB, 0, .ro, .operator⟩]⟩,
  ⟨0x300808, 0x0, 1, 1, [⟨0, 1, .MRG_CTRL_CLR_CNT, 0, .wo, .operator⟩]⟩,
  ⟨0x30080C, 0x0, 1, 1, [⟨0, 5, .MRG_EVENT_EN, 0, .rw, .operator⟩]⟩]

/-- Registers of the pages called REF. -/
def rowsREF : List RegRow := [
  ⟨0x340000, 0x100, 8, 1, [⟨0, 2, .REF_BL_STATUS_BANK0, 0, .vw, .operator⟩, ⟨2, 2, .REF_BL_STATUS_BANK1, 0, .vw, .operator⟩, ⟨4, 1, .REF_BL_STATUS_SLOT, 0, .vw, .operator⟩, ⟨5, 1, .REF_BL_STATUS_MPOS_PROV, 0, .vw, .operator⟩, ⟨8, 8, .REF_BL_STATUS_TX, 0, .vw, .operator⟩, ⟨16, 8, .REF_BL_STATUS_TY, 0, .vw, .operator⟩]⟩,
  ⟨0x340004, 0x100, 8, 1, [⟨0, 32, .REF_BL_SEQ, 0, .ro, .operator⟩]⟩,
  ⟨0x340008, 0x100, 8, 1, [⟨0, 6, .REF_BL_EVENTS_EV, 0, .w1c, .operator⟩]⟩,
  ⟨0x340010, 0x100, 8, 1, [⟨0, 32, .REF_CNT_TILES, 0, .cnt, .operator⟩]⟩,
  ⟨0x340014, 0x100, 8, 1, [⟨0, 32, .REF_CNT_ALIGN_FAIL, 0, .cnt, .operator⟩]⟩,
  ⟨0x340018, 0x100, 8, 1, [⟨0, 32, .REF_CNT_REFERR, 0, .cnt, .operator⟩]⟩,
  ⟨0x34001C, 0x100, 8, 1, [⟨0, 32, .REF_CNT_CAND, 0, .cnt, .operator⟩]⟩,
  ⟨0x340020, 0x100, 8, 1, [⟨0, 32, .REF_CNT_CAND_SKIP, 0, .cnt, .operator⟩]⟩,
  ⟨0x340024, 0x100, 8, 1, [⟨0, 32, .REF_CNT_PATCH_SKIP, 0, .cnt, .operator⟩]⟩,
  ⟨0x340028, 0x100, 8, 1, [⟨0, 32, .REF_CNT_NOREF, 0, .cnt, .operator⟩]⟩,
  ⟨0x34002C, 0x100, 8, 1, [⟨0, 32, .REF_CNT_MARK_STRAY, 0, .cnt, .operator⟩]⟩,
  ⟨0x340030, 0x100, 8, 1, [⟨0, 32, .REF_CNT_CCLIP, 0, .cnt, .operator⟩]⟩,
  ⟨0x340034, 0x100, 8, 1, [⟨0, 32, .REF_BL_MARK, 0, .vw, .operator⟩]⟩,
  ⟨0x340038, 0x100, 8, 1, [⟨0, 16, .REF_BL_MARK, 32, .vw, .operator⟩]⟩]

/-- Registers of the pages called REFC. -/
def rowsREFC : List RegRow := [
  ⟨0x340800, 0x0, 1, 1, [⟨0, 3, .REF_COMMIT_BLANKET, 0, .wo, .installer⟩, ⟨8, 1, .REF_COMMIT_MODE, 0, .wo, .installer⟩, ⟨10, 1, .REF_COMMIT_CANCEL, 0, .wo, .installer⟩, ⟨31, 1, .REF_COMMIT_GO, 0, .wo, .installer⟩]⟩,
  ⟨0x340840, 0x4, 16, 1, [⟨0, 8, .REF_LIMIT_THR_Y_POS_MAX, 0, .rw, .installer⟩, ⟨8, 8, .REF_LIMIT_THR_Y_NEG_MAX, 0, .rw, .installer⟩, ⟨16, 8, .REF_LIMIT_THR_C_MAX, 0, .rw, .installer⟩, ⟨24, 8, .REF_LIMIT_MIN_PIX_MAX, 0, .rw, .installer⟩]⟩,
  ⟨0x340880, 0x0, 1, 1, [⟨0, 1, .REF_CTRL_FENCE, 0, .rw, .installer⟩, ⟨1, 1, .REF_CTRL_RESET, 0, .wo, .installer⟩, ⟨2, 1, .REF_CTRL_CLR_CNT, 0, .wo, .operator⟩, ⟨8, 1, .REF_CTRL_FENCED, 0, .ro, .operator⟩]⟩,
  ⟨0x340884, 0x0, 1, 1, [⟨0, 16, .REF_DEMAND_CUR_DRAM, 0, .ro, .operator⟩, ⟨16, 16, .REF_DEMAND_CUR_RATE, 0, .ro, .operator⟩]⟩,
  ⟨0x340888, 0x0, 1, 1, [⟨0, 16, .REF_DEMAND_NEXT_DRAM, 0, .ro, .operator⟩, ⟨16, 16, .REF_DEMAND_NEXT_RATE, 0, .ro, .operator⟩]⟩,
  ⟨0x34088C, 0x0, 1, 1, [⟨0, 6, .REF_EVENT_EN, 0, .rw, .operator⟩]⟩]

/-- Registers of the pages called REFS. -/
def rowsREFS : List RegRow := [
  ⟨0x340810, 0x10, 2, 1, [⟨0, 32, .REF_SLOT_BASE, 0, .rw, .installer⟩]⟩,
  ⟨0x340814, 0x10, 2, 1, [⟨0, 8, .REF_SLOT_BASE, 32, .rw, .installer⟩]⟩,
  ⟨0x340818, 0x10, 2, 1, [⟨0, 16, .REF_SLOT_SIZE_SIZE_MIB, 0, .rw, .installer⟩]⟩,
  ⟨0x34081C, 0x10, 2, 1, [⟨0, 2, .REF_SLOT_CTRL_STATE, 0, .ro, .operator⟩, ⟨2, 1, .REF_SLOT_CTRL_USED, 0, .vw, .operator⟩, ⟨3, 1, .REF_SLOT_CTRL_CHECKING, 0, .ro, .operator⟩, ⟨4, 1, .REF_SLOT_CTRL_LOAD, 0, .wo, .operator⟩, ⟨5, 1, .REF_SLOT_CTRL_DONE, 0, .wo, .operator⟩, ⟨6, 1, .REF_SLOT_CTRL_CLEAR, 0, .wo, .operator⟩]⟩]

/-- Registers of the pages called TSL. -/
def rowsTSL : List RegRow := [
  ⟨0x380000, 0x20, 16, 1, [⟨0, 32, .TSL_PROF_NEAR, 0, .rw, .installer⟩]⟩,
  ⟨0x380004, 0x20, 16, 1, [⟨0, 32, .TSL_PROF_THR_LO_THR, 0, .rw, .installer⟩]⟩,
  ⟨0x380008, 0x20, 16, 1, [⟨0, 24, .TSL_PROF_THR_HI_THR, 0, .rw, .installer⟩]⟩,
  ⟨0x38000C, 0x20, 16, 1, [⟨0, 2, .TSL_PROF_CTRL_CLASS, 0, .rw, .installer⟩, ⟨2, 1, .TSL_PROF_CTRL_ESC_EN, 0, .rw, .installer⟩, ⟨3, 1, .TSL_PROF_CTRL_COMMIT, 0, .wo, .installer⟩, ⟨16, 16, .TSL_PROF_CTRL_HOLD_TILES, 0, .rw, .installer⟩]⟩,
  ⟨0x380010, 0x20, 16, 1, [⟨0, 3, .TSL_PROF_STATUS_STEP, 0, .ro, .operator⟩, ⟨4, 4, .TSL_PROF_STATUS_NEAR, 0, .ro, .operator⟩, ⟨8, 1, .TSL_PROF_STATUS_PENDING, 0, .ro, .operator⟩, ⟨16, 16, .TSL_PROF_STATUS_UPS, 0, .cnt, .operator⟩]⟩]

/-- Registers of the pages called TSLC. -/
def rowsTSLC : List RegRow := [
  ⟨0x380400, 0x0, 1, 1, [⟨0, 1, .TSL_CTRL_FENCE, 0, .rw, .installer⟩, ⟨1, 1, .TSL_CTRL_RESET, 0, .wo, .installer⟩, ⟨2, 1, .TSL_CTRL_CLR_CNT, 0, .wo, .operator⟩, ⟨8, 1, .TSL_CTRL_FENCED, 0, .ro, .operator⟩]⟩,
  ⟨0x380404, 0x0, 1, 1, [⟨0, 4, .TSL_LIMITS_NEAR_CAP, 0, .rw, .installer⟩, ⟨8, 4, .TSL_LIMITS_REC_NEAR, 0, .rw, .installer⟩]⟩,
  ⟨0x380408, 0x0, 1, 1, [⟨0, 16, .TSL_DEMAND_CUR_ENC, 0, .ro, .operator⟩, ⟨16, 16, .TSL_DEMAND_CUR_DEC, 0, .ro, .operator⟩]⟩,
  ⟨0x38040C, 0x0, 1, 1, [⟨0, 16, .TSL_DEMAND_NEXT_ENC, 0, .ro, .operator⟩, ⟨16, 16, .TSL_DEMAND_NEXT_DEC, 0, .ro, .operator⟩]⟩,
  ⟨0x380410, 0x0, 1, 1, [⟨0, 14, .TSL_OPEN_NOW, 0, .vw, .operator⟩, ⟨16, 14, .TSL_OPEN_ADMITTED, 0, .ro, .operator⟩]⟩,
  ⟨0x380420, 0x0, 1, 1, [⟨0, 32, .TSL_CNT_ENC, 0, .cnt, .operator⟩]⟩,
  ⟨0x380424, 0x0, 1, 1, [⟨0, 32, .TSL_CNT_RAW, 0, .cnt, .operator⟩]⟩,
  ⟨0x380428, 0x0, 1, 1, [⟨0, 32, .TSL_CNT_BYPASS, 0, .cnt, .operator⟩]⟩,
  ⟨0x38042C, 0x0, 1, 1, [⟨0, 32, .TSL_CNT_DEC, 0, .cnt, .operator⟩]⟩,
  ⟨0x380430, 0x0, 1, 1, [⟨0, 32, .TSL_CNT_DEC_ERR, 0, .cnt, .operator⟩]⟩,
  ⟨0x380434, 0x0, 1, 1, [⟨0, 32, .TSL_CNT_LOST, 0, .cnt, .operator⟩]⟩,
  ⟨0x380440, 0x0, 1, 1, [⟨0, 4, .TSL_DEC_ERR_INFO_CODE, 0, .ro, .operator⟩, ⟨4, 4, .TSL_DEC_ERR_INFO_REQUESTER, 0, .ro, .operator⟩, ⟨16, 16, .TSL_DEC_ERR_INFO_LINE, 0, .ro, .operator⟩]⟩,
  ⟨0x380444, 0x0, 1, 1, [⟨0, 3, .TSL_EVENTS_EV, 0, .w1c, .operator⟩]⟩,
  ⟨0x380448, 0x0, 1, 1, [⟨0, 3, .TSL_EVENT_EN, 0, .rw, .operator⟩]⟩]

/-- Registers of the pages called EGRP. -/
def rowsEGRP : List RegRow := [
  ⟨0x400000, 0x400, 8, 1, [⟨0, 1, .EGR_PORT_STATUS_LINK, 0, .ro, .operator⟩, ⟨1, 1, .EGR_PORT_STATUS_ALIGN, 0, .ro, .operator⟩, ⟨2, 1, .EGR_PORT_STATUS_LINK_DOWN, 0, .w1c, .operator⟩, ⟨4, 2, .EGR_PORT_STATUS_MODE, 0, .vw, .operator⟩]⟩,
  ⟨0x400004, 0x400, 8, 1, [⟨0, 1, .EGR_PORT_CFG_PAUSE_EN, 0, .rw, .installer⟩, ⟨1, 1, .EGR_PORT_CFG_PFC_EN, 0, .rw, .installer⟩, ⟨2, 3, .EGR_PORT_CFG_PFC_PRIO, 0, .rw, .installer⟩]⟩,
  ⟨0x400008, 0x400, 8, 1, [⟨0, 12, .EGR_PORT_VLAN_VID, 0, .rw, .installer⟩, ⟨12, 3, .EGR_PORT_VLAN_PCP, 0, .rw, .installer⟩, ⟨15, 1, .EGR_PORT_VLAN_VLAN_EN, 0, .rw, .installer⟩]⟩,
  ⟨0x400010, 0x400, 8, 1, [⟨0, 32, .EGR_PORT_MAC, 0, .rw, .installer⟩]⟩,
  ⟨0x400014, 0x400, 8, 1, [⟨0, 16, .EGR_PORT_MAC, 32, .rw, .installer⟩]⟩,
  ⟨0x400018, 0x400, 8, 1, [⟨0, 32, .EGR_PORT_IP0_IP, 0, .rw, .installer⟩]⟩,
  ⟨0x40001C, 0x400, 8, 1, [⟨0, 32, .EGR_PORT_IP1_IP, 0, .rw, .installer⟩]⟩,
  ⟨0x400020, 0x400, 8, 1, [⟨0, 32, .EGR_PORT_IP2_IP, 0, .rw, .installer⟩]⟩,
  ⟨0x400024, 0x400, 8, 1, [⟨0, 32, .EGR_PORT_IP3_IP, 0, .rw, .installer⟩]⟩,
  ⟨0x400030, 0x400, 8, 1, [⟨0, 7, .EGR_CLASS_SHARE_SHARE_A, 0, .rw, .installer⟩, ⟨8, 7, .EGR_CLASS_SHARE_SHARE_B, 0, .rw, .installer⟩, ⟨16, 7, .EGR_CLASS_SHARE_SHARE_C, 0, .rw, .installer⟩]⟩,
  ⟨0x400034, 0x400, 8, 1, [⟨0, 10, .EGR_CLASS_SIZE_SIZE_A, 0, .rw, .installer⟩, ⟨10, 10, .EGR_CLASS_SIZE_SIZE_B, 0, .rw, .installer⟩, ⟨20, 10, .EGR_CLASS_SIZE_SIZE_C, 0, .rw, .installer⟩]⟩,
  ⟨0x400038, 0x400, 8, 1, [⟨0, 7, .EGR_CLASS_FILL_FILL_A, 0, .vw, .operator⟩, ⟨8, 7, .EGR_CLASS_FILL_FILL_B, 0, .vw, .operator⟩, ⟨16, 7, .EGR_CLASS_FILL_FILL_C, 0, .vw, .operator⟩]⟩,
  ⟨0x40003C, 0x400, 8, 1, [⟨0, 24, .EGR_CLASS_DELAY_DELAY_FLAG_US, 0, .vw, .operator⟩, ⟨30, 1, .EGR_CLASS_DELAY_SET, 0, .wo, .installer⟩, ⟨31, 1, .EGR_CLASS_DELAY_SEL, 0, .rw, .operator⟩]⟩,
  ⟨0x400040, 0x400, 8, 1, [⟨0, 32, .EGR_PORT_CNT_TX, 0, .cnt, .operator⟩]⟩,
  ⟨0x400044, 0x400, 8, 1, [⟨0, 32, .EGR_PORT_CNT_RXBAD, 0, .cnt, .operator⟩]⟩,
  ⟨0x400048, 0x400, 8, 1, [⟨0, 32, .EGR_PORT_CNT_PAUSE, 0, .cnt, .operator⟩]⟩,
  ⟨0x40004C, 0x400, 8, 1, [⟨0, 32, .EGR_PORT_CNT_CE, 0, .cnt, .operator⟩]⟩]

/-- Registers of the pages called EGRS. -/
def rowsEGRS : List RegRow := [
  ⟨0x410000, 0x40, 256, 1, [⟨0, 1, .EGR_STR_CFG_EN, 0, .rw, .installer⟩, ⟨1, 4, .EGR_STR_CFG_KIND, 0, .rw, .installer⟩, ⟨5, 1, .EGR_STR_CFG_FORMAT, 0, .rw, .installer⟩, ⟨6, 4, .EGR_STR_CFG_PROFILE, 0, .rw, .installer⟩, ⟨10, 8, .EGR_STR_CFG_QP, 0, .rw, .installer⟩]⟩,
  ⟨0x410004, 0x40, 256, 1, [⟨0, 16, .EGR_STR_RATE_RATE_MBPS, 0, .rw, .installer⟩, ⟨16, 16, .EGR_STR_RATE_BUDGET_MS, 0, .rw, .installer⟩]⟩,
  ⟨0x410008, 0x40, 256, 1, [⟨0, 32, .EGR_STR_VA, 0, .rw, .installer⟩]⟩,
  ⟨0x41000C, 0x40, 256, 1, [⟨0, 32, .EGR_STR_VA, 32, .rw, .installer⟩]⟩,
  ⟨0x410010, 0x40, 256, 1, [⟨0, 32, .EGR_STR_RKEY, 0, .rw, .installer⟩]⟩,
  ⟨0x410014, 0x40, 256, 1, [⟨0, 21, .EGR_STR_SLOTS, 0, .rw, .installer⟩]⟩,
  ⟨0x410018, 0x40, 256, 1, [⟨0, 32, .EGR_STR_SLOT_BYTES, 0, .rw, .installer⟩]⟩,
  ⟨0x41001C, 0x40, 256, 1, [⟨0, 32, .EGR_STR_PROD_P, 0, .ro, .operator⟩]⟩,
  ⟨0x410020, 0x40, 256, 1, [⟨0, 32, .EGR_STR_CONS_C, 0, .rw, .operator⟩]⟩,
  ⟨0x410024, 0x40, 256, 1, [⟨0, 16, .EGR_STR_STATUS_CARRY, 0, .ro, .operator⟩, ⟨16, 3, .EGR_STR_STATUS_EV, 0, .w1c, .operator⟩]⟩,
  ⟨0x410028, 0x40, 256, 1, [⟨0, 32, .EGR_STR_CNT_DELIV, 0, .cnt, .operator⟩]⟩,
  ⟨0x41002C, 0x40, 256, 1, [⟨0, 32, .EGR_STR_CNT_DROP, 0, .cnt, .operator⟩]⟩]

/-- Registers of the pages called EGRQ. -/
def rowsEGRQ : List RegRow := [
  ⟨0x420000, 0x80, 256, 1, [⟨0, 1, .EGR_QP_CFG_EN, 0, .wo, .installer⟩, ⟨1, 1, .EGR_QP_CFG_RESET, 0, .wo, .installer⟩, ⟨2, 1, .EGR_QP_CFG_MODE, 0, .rw, .installer⟩, ⟨3, 1, .EGR_QP_CFG_CTRL, 0, .rw, .installer⟩, ⟨4, 3, .EGR_QP_CFG_PORT, 0, .rw, .installer⟩, ⟨7, 2, .EGR_QP_CFG_MTU, 0, .rw, .installer⟩, ⟨9, 3, .EGR_QP_CFG_RETRY_CNT, 0, .rw, .installer⟩, ⟨12, 3, .EGR_QP_CFG_RNR_RETRY, 0, .rw, .installer⟩, ⟨15, 5, .EGR_QP_CFG_TIMEOUT, 0, .rw, .installer⟩, ⟨20, 6, .EGR_QP_CFG_DSCP, 0, .rw, .installer⟩]⟩,
  ⟨0x420004, 0x80, 256, 1, [⟨0, 32, .EGR_QP_DEST_QPN_DEST, 0, .rw, .installer⟩]⟩,
  ⟨0x420008, 0x80, 256, 1, [⟨0, 2, .EGR_QP_STATUS_STATE, 0, .ro, .operator⟩, ⟨2, 8, .EGR_QP_STATUS_SYNDROME, 0, .ro, .operator⟩]⟩,
  ⟨0x420010, 0x80, 256, 1, [⟨0, 32, .EGR_QP_MAC, 0, .rw, .installer⟩]⟩,
  ⟨0x420014, 0x80, 256, 1, [⟨0, 16, .EGR_QP_MAC, 32, .rw, .installer⟩]⟩,
  ⟨0x420018, 0x80, 256, 1, [⟨0, 32, .EGR_QP_IP0_IP, 0, .rw, .installer⟩]⟩,
  ⟨0x42001C, 0x80, 256, 1, [⟨0, 32, .EGR_QP_IP1_IP, 0, .rw, .installer⟩]⟩,
  ⟨0x420020, 0x80, 256, 1, [⟨0, 32, .EGR_QP_IP2_IP, 0, .rw, .installer⟩]⟩,
  ⟨0x420024, 0x80, 256, 1, [⟨0, 32, .EGR_QP_IP3_IP, 0, .rw, .installer⟩]⟩,
  ⟨0x420028, 0x80, 256, 1, [⟨0, 24, .EGR_QP_PSN_PSN_INIT, 0, .rw, .installer⟩]⟩,
  ⟨0x42002C, 0x80, 256, 1, [⟨0, 32, .EGR_QP_RATE_RC_MBPS, 0, .ro, .operator⟩]⟩,
  ⟨0x420030, 0x80, 256, 1, [⟨0, 32, .EGR_QP_CNT_RETX, 0, .cnt, .operator⟩]⟩,
  ⟨0x420034, 0x80, 256, 1, [⟨0, 32, .EGR_QP_CNT_CNP, 0, .cnt, .operator⟩]⟩]

/-- Registers of the pages called EGRC. -/
def rowsEGRC : List RegRow := [
  ⟨0x430000, 0x0, 1, 1, [⟨0, 1, .EGR_CTRL_FENCE, 0, .rw, .installer⟩, ⟨1, 1, .EGR_CTRL_RESET, 0, .wo, .installer⟩, ⟨2, 1, .EGR_CTRL_CLR_CNT, 0, .wo, .operator⟩, ⟨8, 1, .EGR_CTRL_FENCED, 0, .ro, .operator⟩]⟩,
  ⟨0x430004, 0x0, 1, 1, [⟨0, 8, .EGR_CNP_CFG_DEC, 0, .rw, .installer⟩, ⟨8, 8, .EGR_CNP_CFG_INC_US, 0, .rw, .installer⟩, ⟨16, 16, .EGR_CNP_CFG_INC, 0, .rw, .installer⟩]⟩,
  ⟨0x430008, 0x0, 1, 1, [⟨0, 16, .EGR_CNP_RMIN, 0, .rw, .installer⟩]⟩,
  ⟨0x43000C, 0x4, 2, 4, [⟨0, 8, .EGR_DROP_STREAM, 0, .rw, .installer⟩]⟩,
  ⟨0x430020, 0x0, 1, 1, [⟨0, 32, .EGR_RETRY_BASE, 0, .rw, .installer⟩]⟩,
  ⟨0x430024, 0x0, 1, 1, [⟨0, 8, .EGR_RETRY_BASE, 32, .rw, .installer⟩]⟩,
  ⟨0x430028, 0x0, 1, 1, [⟨0, 16, .EGR_RETRY_SIZE_SIZE_MIB, 0, .rw, .installer⟩]⟩,
  ⟨0x43002C, 0x0, 1, 1, [⟨0, 16, .EGR_DEMAND_CUR_CLASS_A, 0, .ro, .operator⟩, ⟨16, 16, .EGR_DEMAND_CUR_DRAM, 0, .ro, .operator⟩]⟩,
  ⟨0x430030, 0x0, 1, 1, [⟨0, 16, .EGR_DEMAND_NEXT_CLASS_A, 0, .ro, .operator⟩, ⟨16, 16, .EGR_DEMAND_NEXT_DRAM, 0, .ro, .operator⟩]⟩,
  ⟨0x430100, 0x0, 1, 1, [⟨0, 9, .EGR_DROP_STATUS_LEVEL, 0, .vw, .operator⟩, ⟨16, 1, .EGR_DROP_STATUS_EMPTY, 0, .vw, .operator⟩, ⟨17, 1, .EGR_DROP_STATUS_OVF, 0, .w1c, .operator⟩]⟩,
  ⟨0x430104, 0x0, 1, 1, [⟨0, 1, .EGR_DROP_POP, 0, .wo, .operator⟩]⟩,
  ⟨0x430110, 0x4, 8, 1, [⟨0, 32, .EGR_DROP_HEAD, 0, .vw, .operator⟩]⟩,
  ⟨0x430200, 0x0, 1, 1, [⟨0, 9, .EGR_LATE_STATUS_LEVEL, 0, .vw, .operator⟩, ⟨16, 1, .EGR_LATE_STATUS_EMPTY, 0, .vw, .operator⟩, ⟨17, 1, .EGR_LATE_STATUS_OVF, 0, .w1c, .operator⟩]⟩,
  ⟨0x430204, 0x0, 1, 1, [⟨0, 1, .EGR_LATE_POP, 0, .wo, .operator⟩]⟩,
  ⟨0x430210, 0x4, 8, 1, [⟨0, 32, .EGR_LATE_HEAD, 0, .vw, .operator⟩]⟩,
  ⟨0x430300, 0x0, 1, 1, [⟨0, 1, .EGR_EVENT_EN_PORT, 0, .rw, .operator⟩, ⟨1, 1, .EGR_EVENT_EN_QP, 0, .rw, .operator⟩, ⟨2, 3, .EGR_EVENT_EN_STR, 0, .rw, .operator⟩, ⟨5, 2, .EGR_EVENT_EN_LOG, 0, .rw, .operator⟩]⟩]

/-- Registers of the pages called BRG. -/
def rowsBRG : List RegRow := [
  ⟨0x440000, 0x10, 16, 1, [⟨0, 32, .BRG_WIN_BASE, 0, .rw, .installer⟩]⟩,
  ⟨0x440004, 0x10, 16, 1, [⟨0, 8, .BRG_WIN_BASE, 32, .rw, .installer⟩]⟩,
  ⟨0x440008, 0x10, 16, 1, [⟨0, 1, .BRG_WIN_CFG_EN, 0, .rw, .installer⟩, ⟨1, 1, .BRG_WIN_CFG_READ_ONLY, 0, .rw, .installer⟩, ⟨2, 2, .BRG_WIN_CFG_MIN_ROLE, 0, .rw, .installer⟩, ⟨4, 2, .BRG_WIN_CFG_SWAP, 0, .rw, .installer⟩, ⟨6, 1, .BRG_WIN_CFG_PREFETCH, 0, .rw, .installer⟩, ⟨8, 4, .BRG_WIN_CFG_RA_GRANULES, 0, .rw, .installer⟩, ⟨14, 6, .BRG_WIN_CFG_LOG2_SIZE, 0, .rw, .installer⟩, ⟨31, 1, .BRG_WIN_CFG_COMMIT, 0, .wo, .installer⟩]⟩,
  ⟨0x44000C, 0x10, 16, 1, [⟨0, 1, .BRG_WIN_STATUS_PENDING, 0, .ro, .operator⟩, ⟨8, 5, .BRG_WIN_STATUS_ACTIVE, 0, .vw, .operator⟩]⟩]

/-- Registers of the pages called BRGC. -/
def rowsBRGC : List RegRow := [
  ⟨0x440400, 0x0, 1, 1, [⟨0, 1, .BRG_CTRL_FENCE, 0, .rw, .installer⟩, ⟨1, 1, .BRG_CTRL_RESET, 0, .wo, .installer⟩, ⟨2, 1, .BRG_CTRL_CLR_CNT, 0, .wo, .operator⟩, ⟨8, 1, .BRG_CTRL_FENCED, 0, .ro, .operator⟩]⟩,
  ⟨0x440404, 0x0, 1, 1, [⟨0, 16, .BRG_TIMEOUT_BRG_TIMEOUT_US, 0, .rw, .installer⟩]⟩,
  ⟨0x440408, 0x0, 1, 1, [⟨0, 5, .BRG_STATUS_EXECUTING, 0, .vw, .operator⟩, ⟨16, 12, .BRG_STATUS_WAITING, 0, .vw, .operator⟩]⟩,
  ⟨0x44040C, 0x0, 1, 1, [⟨0, 6, .BRG_EVENTS_EV, 0, .w1c, .operator⟩]⟩,
  ⟨0x440410, 0x0, 1, 1, [⟨0, 6, .BRG_EVENT_EN, 0, .rw, .operator⟩]⟩,
  ⟨0x440420, 0x0, 1, 1, [⟨0, 32, .BRG_CNT_REQ, 0, .cnt, .operator⟩]⟩,
  ⟨0x440424, 0x0, 1, 1, [⟨0, 32, .BRG_CNT_ERR, 0, .cnt, .operator⟩]⟩,
  ⟨0x440428, 0x0, 1, 1, [⟨0, 32, .BRG_CNT_BAD, 0, .cnt, .operator⟩]⟩,
  ⟨0x44042C, 0x0, 1, 1, [⟨0, 32, .BRG_CNT_AUTH_FAIL, 0, .cnt, .operator⟩]⟩,
  ⟨0x440430, 0x0, 1, 1, [⟨0, 32, .BRG_CNT_LATE, 0, .cnt, .operator⟩]⟩,
  ⟨0x440434, 0x0, 1, 1, [⟨0, 32, .BRG_CNT_REPLY_LOST, 0, .cnt, .operator⟩]⟩,
  ⟨0x440438, 0x0, 1, 1, [⟨0, 32, .BRG_PREFETCH_HIT, 0, .cnt, .operator⟩]⟩,
  ⟨0x44043C, 0x0, 1, 1, [⟨0, 32, .BRG_PREFETCH_DISCARD, 0, .cnt, .operator⟩]⟩]

/-- Every register of the map. -/
def regRows : List RegRow :=
  rowsMGT ++ rowsLANE ++ rowsING ++ rowsINGCH ++ rowsINGPL ++ rowsINGC ++ rowsSEC ++ rowsSYNE ++ rowsSYNM ++ rowsSYNC ++ rowsSYNCH ++ rowsSYNT ++ rowsSTOC ++ rowsSTO ++ rowsJOB ++ rowsJOBT ++ rowsBOOT ++ rowsPWR ++ rowsBIST ++ rowsFABP ++ rowsFAB ++ rowsPIPE ++ rowsSCH ++ rowsMEM ++ rowsMRG ++ rowsMRGC ++ rowsREF ++ rowsREFC ++ rowsREFS ++ rowsTSL ++ rowsTSLC ++ rowsEGRP ++ rowsEGRS ++ rowsEGRQ ++ rowsEGRC ++ rowsBRG ++ rowsBRGC

end Sys2Proof.Machine
end

