-- ==== Sys2Proof/Machine/RegPlain.lean ====
section
/-! DEFINITION. Finding a register by its address, and reading and writing its fields as cells, without the checks and side
effects of an access (21_register_map.md R505, R506). -/

namespace Sys2Proof.Machine

/-- The instance of a row at an address. -/
def RegRow.instAt (r : RegRow) (a : Nat) : Option Nat :=
  if a < r.base then none
  else if r.count ≤ 1 then (if a = r.base then some 0 else none)
  else if (a - r.base) % r.stride = 0 && decide ((a - r.base) / r.stride < r.count) then some ((a - r.base) / r.stride)
  else none

/-- The register at an address: its row and instance. -/
def regFind (a : Nat) : Option (RegRow × Nat) := regRows.findSome? fun r => (r.instAt a).map fun i => (r, i)

/-- The fields of instance `i` of a row, each with its own instance; in a row of bytes each byte is one. -/
def RegRow.parts (r : RegRow) (i : Nat) : List (Nat × RegField) :=
  if r.sub = 4 then (List.range 4).flatMap fun j => r.fields.map fun f => (4 * i + j, { f with lo := f.lo + 8 * j })
  else r.fields.map fun f => (i, f)

/-- The bits of a field that a register shows. -/
def State.fieldBits (s : State) (i : Nat) (f : RegField) : Nat := bits (s.get f.fld i) f.shift f.len

/-- The bits of a field that a register holds take a value. -/
def State.putField (s : State) (i : Nat) (f : RegField) (v : Nat) : State :=
  let old := s.get f.fld i
  s.set f.fld i (old - bits old f.shift f.len * 2 ^ f.shift + v % 2 ^ f.len * 2 ^ f.shift)

/-- The word of the register at `a` as its cells hold it; write-only fields read 0. -/
def State.plainWord (s : State) (a : Nat) : Nat :=
  match regFind a with
  | none => 0
  | some (r, i) => (r.parts i).foldl (fun n p => if p.2.acc = .wo then n else n + s.fieldBits p.1 p.2 * 2 ^ p.2.lo) 0

/-- The writable fields of the register at `a` take the bits of `v`. -/
def State.rawWrite (s : State) (a v : Nat) : State :=
  match regFind a with
  | none => s
  | some (r, i) => (r.parts i).foldl (fun s p =>
      if p.2.acc = .rw then s.putField p.1 p.2 (bits v p.2.lo p.2.len) else s) s

end Sys2Proof.Machine
end

