-- ==== Sys2Proof/Machine/BootOps.lean ====
section
/-! DEFINITION. The boot image (16_boot_image.md): its layout, the checks of R407, and what applying it sets. The framing of
header, record table and signature block is that of a hamper, and is read with the same functions. -/

namespace Sys2Proof.Machine

/-! ### Layout -/

/-- The image in a slot: as many bytes as its header says, an erased byte reading 0xFF; a length beyond the slot is left as
the slot's bytes stand. -/
def imageIn (b : BootSlot) (size : Nat) : List Nat :=
  let len := leAt b.image 16 8
  if size < len then b.image else (b.image ++ List.replicate (len - b.image.length) 0xFF).take len

/-- Bytes `i` to `i + n - 1` are all 0. -/
def zeroIn (l : List Nat) (i n : Nat) : Bool := ((l.drop i).take n).all (· == 0)

/-- Offset of the signature block: the end of the signed bytes (R399). -/
def signedEnd (h : List Nat) : Nat := 128 + 64 * hamperN h

/-- A signature block of the form of R331 with the magic `m` in byte 2 stands at `at'`. -/
def sigBlockOk (l : List Nat) (at' m : Nat) : Bool :=
  (l.drop at').take 4 == [0x46, 0x5A, m, 0x53] && leAt l (at' + 4) 2 == 384 && leAt l (at' + 6) 2 == 7856

/-- The bytes of the record of a type, where the image has one. -/
def recordOf (h : List Nat) (type : Nat) : Option (List Nat) := (sectionOf h type 0).map (sectionData h)

/-- SHA-256 of the signed part (`BOOT_DIGEST`). -/
def signedDigest (h : List Nat) : List Nat := Config.sha256 (h.take (signedEnd h))

/-! ### Records (R401 to R406) -/

/-- Quad roles as R21 permits them. -/
def quadOk (q role : Nat) : Bool :=
  if q < 6 then role ≤ 1 else if q < 8 then role == 0 || role == 1 || role == 3 else if q < 10 then role == 2
  else role == 0 || role == 3

/-- `MAX_RUNG` of a lane in the device record. -/
def devRung (d : List Nat) (n : Nat) : Nat := d.getD (20 + n / 2) 0 / 16 ^ (n % 2) % 16

/-- The device record (R401, R346). -/
def deviceOk (d : List Nat) : Bool :=
  d.length == 128 && ((List.range 12).all fun q => quadOk q (d.getD q 0)) && zeroIn d 18 2 &&
  ((List.range 48).all fun n =>
    let r := d.getD (n / 4) 0
    let m := devRung d n
    if r = 1 || r = 3 then decide (1 ≤ m) && decide (m ≤ 4) else m == 0) &&
  decide (d.getD 44 0 ≤ 3) && decide (d.getD 45 0 ≤ 3) && decide (1 ≤ d.getD 46 0) && decide (d.getD 46 0 ≤ 2) &&
  decide (1 ≤ d.getD 47 0) && decide (d.getD 47 0 ≤ 3) && !(d.getD 46 0 == 2 && d.getD 47 0 == 3) &&
  decide (d.getD 48 0 ≤ 1) && d.getD 49 0 == 0 && decide (800 ≤ leAt d 50 2) && decide (leAt d 50 2 ≤ 2400) && zeroIn d 52 76

/-- The framing of the equalisation table (R35); its entries do not fail the boot. -/
def eqTableOk (t : List Nat) : Bool :=
  t.length == 8 + 12 * leAt t 0 2 && decide (leAt t 0 2 ≤ 240) && leAt t 2 2 == 1 && zeroIn t 4 4

/-- The camera map (R405). -/
def cameraMapOk (m : List Nat) : Bool :=
  m.length == 4176 && leAt m 0 2 == 1 && zeroIn m 2 14 &&
  ((List.range 128).all fun c => decide (m.getD (16 + 32 * c) 0 ≤ 1) && zeroIn m (17 + 32 * c) 3 && zeroIn m (24 + 32 * c) 8) &&
  zeroIn m 4172 4

/-- Where the entry of a key stands in the credentials (R402). -/
def credEntries (c : List Nat) : List (List Nat) := (List.range (leAt c 0 2)).map fun i => (c.drop (16 + 448 * i)).take 448

/-- The role a code names in credentials, hampers and logins. -/
def roleOfCode : Nat → Role
  | 0 => .operator | 1 => .installer | 2 => .maker | _ => .none

/-- The (role, index) pairs of the credentials. -/
def credKeys (c : List Nat) : List (Role × Nat) := (credEntries c).map fun e => (roleOfCode (e.getD 0 0), e.getD 1 0)

/-- The role credentials (R402); `signer` is the image's signer key index. -/
def credentialsOk (c : List Nat) (signer : Nat) : Bool :=
  let n := leAt c 0 2
  c.length == 16 + 448 * n && decide (1 ≤ n) && decide (n ≤ 12) && zeroIn c 2 14 &&
  ((credEntries c).all fun e => decide (e.getD 0 0 ≤ 2) && decide (e.getD 1 0 ≤ 3) && zeroIn e 2 2 && leAt e 4 4 % 2 == 1 &&
    decide (3 ≤ leAt e 4 4) && decide (128 ≤ e.getD 8 0) && zeroIn e 424 24) &&
  (credKeys c).eraseDups.length == n && (credKeys c).contains (.maker, signer)

/-- A fabric record for a device with UID `uid` and the quad roles of `dev` (R403). -/
def fabricOk (f dev : List Nat) (uid : Nat) : Bool :=
  let role := f.getD 0 0
  let a := f.getD 3 0
  let n := f.getD 4 0
  let lane := f.getD 2 0
  let leader := leAt f 8 8
  f.length == 16 + 8 * (n + a) && decide (role ≤ 2) && (decide (f.getD 1 0 ≤ 63) || f.getD 1 0 == 0xFF) &&
  (lane == 0xFF || (decide (lane < 48) && dev.getD (lane / 4) 0 == 3)) && decide (a ≤ 64) && zeroIn f 5 3 &&
  (match role with
    | 0 => n == 0 && leader == 0
    | 1 => decide (1 ≤ n) && decide (n ≤ 63) && leader == 0
    | _ => n == 0 && leader != 0 && leader != uid)

/-- The job table (R406). -/
def jobTableOk (t : List Nat) : Bool :=
  t.length == 2048 && (List.range 256).all fun i =>
    let e := (t.drop (8 * i)).take 8
    (decide (leAt e 0 2 ≤ 4095) || leAt e 0 2 == 0xFFFF) && decide (e.getD 2 0 < 16) && zeroIn e 3 5

/-- Length of the code in a firmware record (R404). -/
def fwCodeLen (f : List Nat) : Nat := leAt f 16 4

/-- The code of a firmware record. -/
def fwCode (f : List Nat) : List Nat := (f.drop (64 + 8256)).take (fwCodeLen f)

/-- The fields of a firmware record (R404). -/
def firmwareOk (f : List Nat) : Bool :=
  f.take 4 == [0x46, 0x5A, 0x46, 0x57] && decide (f.getD 8 0 ≤ 63) && decide (f.getD 9 0 ≤ 1) && zeroIn f 10 6 &&
  decide (4 ≤ fwCodeLen f) && decide (fwCodeLen f ≤ 2 ^ 24) && zeroIn f 20 4 && zeroIn f 56 8 && sigBlockOk f 64 0x46 &&
  f.length == 64 + 8256 + fwCodeLen f

/-! ### Verification (R407) -/

/-- Step 1. -/
def imageStep1 (h : List Nat) (size : Nat) : Bool :=
  let n := hamperN h
  let q := sectionsOf h
  h.take 4 == [0x46, 0x5A, 0x42, 0x49] && decide (1 ≤ leAt h 8 4) && decide (leAt h 8 4 ≤ 0xFFFFFFFE) &&
  decide (4 ≤ n) && decide (n ≤ 16) && leAt h 16 8 == h.length && decide (signedEnd h + 8256 ≤ h.length) &&
  (q.all fun x => x.off % 64 == 0 && decide (signedEnd h + 8256 ≤ x.off) && decide (x.off + x.len ≤ h.length)) && allApart q &&
  decide (h.length + 4096 ≤ size) && sigBlockOk h (signedEnd h) 0x42

/-- Step 2: the format and the required minor bits. -/
def imageStep2 (h : List Nat) : Bool := h.getD 4 0 == 2 && h.getD 7 0 == 0

/-- Step 3: device class and bound UID. -/
def State.imageStep3 (s : State) (h : List Nat) : Bool :=
  leAt h 24 2 == 0x0080 && (leAt h 32 8 == 0 || leAt h 32 8 == s.get .SEC_FUSE_UID)

/-- No maker slot is programmed. -/
def State.allBlank (s : State) : Bool := (List.range 4).all s.slotBlank

/-- Step 4: the credentials entry of the signer hashes to its maker slot, which is not revoked; with all slots blank any
entry is accepted. -/
def State.imageStep4 (s : State) (h : List Nat) : Bool :=
  let k := h.getD 12 0
  let e := ((recordOf h 6).map credEntries).getD []
  match e.find? fun x => x.getD 0 0 == 2 && x.getD 1 0 == k with
  | none => false
  | some x => decide (k < 4) && (s.allBlank ||
      (!s.slotBlank k && !s.bit .SEC_FUSE_STATE_REVOKE 0 k && leNat (fit 32 (Config.sha256 x)) == s.makerHash k))

/-- Step 7: every record digest. -/
def imageStep7 (h : List Nat) : Bool := (sectionsOf h).all fun x => sectionDigest (sectionData h x) == x.digest

/-- Step 8: the firmware's key generation, Krelabo's signatures and the code digest. -/
def State.imageStep8 (s : State) (f : List Nat) (fw : Sigs) : Bool :=
  !(f.getD 9 0 == 0 && s.on .SEC_FUSE_STATE_GEN0_REVOKED) && fw.rsa && fw.slh &&
  Config.sha256 (fwCode f) == (f.drop 24).take 32

/-- Step 9: the security version. -/
def State.imageStep9 (s : State) (f : List Nat) : Bool := s.svnMin ≤ f.getD 8 0

/-- Step 10: the records required, no type twice, lengths, fields and reserved bytes. -/
def State.imageStep10 (s : State) (h : List Nat) : Bool :=
  let q := sectionsOf h
  let opt (t : Nat) (p : List Nat → Bool) : Bool := match recordOf h t with | some r => p r | none => true
  let req (t : Nat) (p : List Nat → Bool) : Bool := match recordOf h t with | some r => p r | none => false
  let dev := (recordOf h 1).getD []
  zeroIn h 5 1 && zeroIn h 13 1 && zeroIn h 26 6 && zeroIn h 80 48 &&
  (q.all fun x => decide (1 ≤ x.type) && decide (x.type ≤ 7) && x.inst == 0) &&
  ((List.range (hamperN h)).all fun i => zeroIn h (128 + 64 * i + 4) 4 && zeroIn h (128 + 64 * i + 56) 8) &&
  (q.map (·.type)).eraseDups.length == q.length &&
  req 1 deviceOk && req 2 firmwareOk && opt 3 eqTableOk && opt 4 cameraMapOk &&
  opt 5 (fun f => fabricOk f dev (s.get .SEC_FUSE_UID)) && req 6 (fun c => credentialsOk c (h.getD 12 0)) && opt 7 jobTableOk

/-- The steps of R407 from 1 on over an image, for a slot of `size` bytes: the first that fails and its status. -/
def State.imageCheck (s : State) (h : List Nat) (size : Nat) (v : Verdicts) : Option (Nat × Status) :=
  let f := recordOf h 2
  if !imageStep1 h size then some (1, .integrity)
  else if !imageStep2 h then some (2, .version)
  else if !s.imageStep3 h then some (3, .range)
  else if !s.imageStep4 h then some (4, .rights)
  else if !v.img.rsa then some (5, .integrity)
  else if !v.img.slh then some (6, .integrity)
  else if !imageStep7 h then some (7, .integrity)
  else if !(match f with | some f => s.imageStep8 f v.fw | none => true) then some (8, .integrity)
  else if !(match f with | some f => s.imageStep9 f | none => true) then some (9, .version)
  else if !s.imageStep10 h then some (10, .range)
  else none

/-! ### Applying (R408) -/

/-- Port of a lane (R24, R26, `LANE_ID.PORT`): 0xF for ingress and off. -/
def bootPort (role mode n : Nat) : Nat :=
  if role = 2 then (n - 32) / (8 / 2 ^ mode)
  else if role = 3 then (if 40 ≤ n then (n - 40) / 2 else (n - 16) / 2)
  else 0xF

/-- Capacity in GiB of the 16 channels (R346, R348): per rank 1, 2 or 4 GiB by the die, 7/8 of it with inline ECC. -/
def usableGib (ranks die ecc : Nat) : Nat :=
  let gib := 16 * ranks * 2 ^ (die - 1)
  if ecc = 1 then gib * 7 / 8 else gib

/-- The device record (R401). -/
def State.applyDevice (s : State) (d : List Nat) : State :=
  let mode := d.getD 44 0
  let s := (List.range 48).foldl (fun s n =>
    let role := d.getD (n / 4) 0
    (((s.set .LANE_ID_ROLE n role).set .LANE_ID_PORT n (bootPort role mode n)).set .LANE_CTRL_ENABLE n
      ((leAt d 12 6).testBit n).toNat).set .LANE_CTRL_MAX_RUNG n (devRung d n)) s
  let sets : List (Fld × Nat) := [
    (.EGR_H_MODE, mode), (.MEM_STATUS_RATE, [64, 75, 85, 96].getD (d.getD 45 0) 64),
    (.MEM_STATUS_RANKS, d.getD 46 0), (.MEM_STATUS_DIE_GBIT, d.getD 47 0), (.MEM_STATUS_ECC_INLINE, d.getD 48 0),
    (.MEM_STATUS_USABLE_GIB, usableGib (d.getD 46 0) (d.getD 47 0) (d.getD 48 0)), (.MEM_STATUS_TRAINED, 1),
    (.STO_H_MAXRATE, leAt d 50 2)]
  sets.foldl (fun s q => s.set q.1 0 q.2) s

/-- An entry of the equalisation table (R35, R36): an invalid one sets `EQ_BAD` on its lane and leaves the defaults; one that
repeats a lane and rung sets it too, and what the earlier entry gave stands. DESIGN CHOICE: an entry for lane 48 or above is
invalid and has no lane to set the bit on; the spec says nothing of it, and it leaves no trace. -/
def State.applyEq (s : State) (seen : List Nat) (e : List Nat) : State × List Nat :=
  let n := e.getD 0 0
  let r := e.getD 1 0
  let g (i : Nat) : Nat := e.getD i 0
  let q : EqEntry := ⟨g 2, g 3, g 4, g 5, g 6, g 7, g 8, g 9, g 10, g 11 % 2, g 11 / 2, 0⟩
  let put (q : EqEntry) : State := { s with lane := { s.lane with eqTable := tabPut s.lane.eqTable (5 * n + r) q } }
  if 48 ≤ n then (s, seen)
  else if 5 ≤ r || seen.contains (5 * n + r) then (s.laneEvent n 4, seen)
  else if !eqValid q then ((put (EqEntry.default 2)).laneEvent n 4, seen ++ [5 * n + r])
  else (put q, seen ++ [5 * n + r])

/-- The equalisation table; the staging registers of every lane show it (`table` in R516). -/
def State.applyEqTable (s : State) (t : List Nat) : State :=
  let s := ((List.range (leAt t 0 2)).foldl (fun q i => q.1.applyEq q.2 ((t.drop (8 + 12 * i)).take 12)) (s, ([] : List Nat))).1
  (List.range 48).foldl (fun s n => s.showEq n) s

/-- The fabric record (R403); the lane it names gives its recovered clock to `RCLKOUT_P/N` (02_lane_complex.md R32). -/
def State.applyFabric (s : State) (f : List Nat) : State :=
  let n := f.getD 4 0
  let uids (at' k : Nat) : List Nat := (List.range k).map fun i => leAt f (at' + 8 * i) 8
  let pin := f.getD 1 0
  let s := (((s.set .JOB_STATUS_ROLE 0 (f.getD 0 0)).set .FAB_H_LEADER 0 (leAt f 8 8)).set .BOOT_H_RCLK 0 (f.getD 2 0xFF))
  let s := if pin = 0xFF then s else (s.set .FAB_PIN_PIN_ID 0 pin).set .FAB_PIN_PIN_EN 0 1
  { s with job := { s.job with followers := uids 16 n }, fab := { s.fab with admitted := uids (16 + 8 * n) (f.getD 3 0) } }

/-- Registers that the camera map gives initial values (R405): address and place in the record. -/
def mapRegs : List (Nat × Nat) := [
  (0x14C000, 4112), (0x14C004, 4116), (0x183000, 4120), (0x183004, 4124), (0x183008, 4128), (0x18300C, 4132),
  (0x183010, 4136), (0x180000, 4140), (0x180040, 4144), (0x180080, 4148), (0x1800C0, 4152),
  (0x180400, 4156), (0x180440, 4160), (0x180480, 4164), (0x1804C0, 4168)]

/-- The camera map's register values (R405): the one that its register refuses, a `SYN_TRIG_WIDTH` below 10, is skipped and
sets `MAP_BAD`. -/
def State.applyMap (s : State) (m : List Nat) : State :=
  mapRegs.foldl (fun s q =>
    let v := leAt m q.2 4
    if q.1 = 0x183010 && decide (v % 65536 < 10) then s.set .BOOT_STATUS_MAP_BAD 0 1 else s.rawWrite q.1 v) s

/-- The job table (R406). -/
def jobTableOf (t : List Nat) : List JobEntry :=
  (List.range 256).map fun i => ⟨leAt t (8 * i) 2, t.getD (8 * i + 2) 0⟩

/-- Eight words of a digest into registers. -/
def State.putDigest (s : State) (f : Fld) (d : List Nat) : State :=
  (List.range 8).foldl (fun s i => s.set f i (leAt (fit 32 d) (4 * i) 4)) s

/-- The firmware of a record becomes the running code (R404, R410). -/
def State.loadFirmware (s : State) (f : List Nat) : State :=
  let s : State := { s with boot := { s.boot with code := fwCode f } }
  let s := ((s.set .BOOT_FW_VERSION 0 (leAt f 4 4)).set .BOOT_FW_SVN_SVN 0 (f.getD 8 0)).set .BOOT_FW_SVN_KEY_GEN 0 (f.getD 9 0)
  s.putDigest .BOOT_FW_DIGEST (Config.sha256 (fwCode f))

/-- The records of a verified image take effect, the firmware's among them (R400, R408). -/
def State.applyImage (s : State) (h : List Nat) : State :=
  let rec' (t : Nat) : List Nat := (recordOf h t).getD []
  let s := (s.applyDevice (rec' 1)).loadFirmware (rec' 2)
  let s := s.applyEqTable (rec' 3)
  let s := match recordOf h 4 with | some m => s.applyMap m | none => s
  let s := match recordOf h 5 with | some f => s.applyFabric f | none => s
  let table := match recordOf h 7 with | some t => jobTableOf t | none => []
  let s : State := { s with
    sec := { s.sec with keys := credKeys (rec' 6) }
    job := { s.job with table := table }
    boot := { s.boot with
      applied := (sectionsOf h).map fun x => (x.type, x.digest)
      records := ([1, 3, 4, 5, 6, 7].filterMap fun t => (recordOf h t).map fun r => (t, r)) } }
  (s.putDigest .BOOT_DIGEST (signedDigest h)).set .BOOT_STATUS_PROVISIONED 0 (if s.allBlank then 0 else 1)

end Sys2Proof.Machine
end

