-- ==== Sys2Proof/Machine/Sto.lean ====
section
/-! DEFINITION. Storage: NAND management, job library and evidence recorder (13_storage_job_library.md). -/

namespace Sys2Proof.Machine

/-! ### Mount -/

/-- CE positions in order, N0 first. -/
def mountOrder (m : Mount) : List (Nat × DiePage) :=
  (List.range 64).filterMap fun i => (m.ces.find? fun e => e.1 == i)

/-- A CE position agrees with the reference page (R316). -/
def diesAgree (a b : DiePage) : Bool := a == b

/-- Every stamp is taken as 0 (R323). -/
def State.stampsLost (s : State) : State :=
  let valid := s.sto.blocks.any fun b => b.region != 0
  let s : State := { s with sto := { s.sto with blocks := s.sto.blocks.map fun b => { b with stamp := 0 } } }
  let s := s.stoEvent 7 0xFFFF 0 0xFF
  if valid then s.stoEvent 6 0xFFFF 0 0xFF else s

/-- The rate an interface is trained to, in 10 MT/s (R315): NV-LPDDR4 no faster than the device record allows
(16_boot_image.md R401). -/
def State.nandRate (s : State) (d : DiePage) : Nat := if d.lpddr4 then min (min d.rate 240) (s.get .STO_H_MAXRATE / 10) else min d.rate 120

/-- Once after device reset, the firmware reapplies the settings kept in NAND (21_register_map.md R517) and the equalisation
overrides over the boot image's table (02_lane_complex.md R37); then it serves a selection that waits. -/
def State.applySettings (s : State) : State :=
  if s.on .BOOT_H_SETTLED then s
  else
    let s := s.sto.settings.foldl (fun s e => s.rawWrite e.1 e.2) s
    let s := s.lane.eqKept.foldl (fun (s : State) e =>
      { s with lane := { s.lane with eqTable := tabPut s.lane.eqTable e.1 e.2 } }) s
    let s := (List.range 48).foldl (fun s n => s.showEq n) s
    (s.set .BOOT_H_SETTLED 0 1).serveLatch

/-- A CE position counts: its parameter page passes and agrees with the reference page (R316). -/
def diesGood (ref : Option DiePage) (e : Nat × DiePage) : Bool :=
  match ref with | some r => e.2.ok && diesAgree e.2 r | none => false

/-- Channel `c` shows which of its positions `l` are present and excluded, and the interface and rate it is trained to
(R316); each excluded position is reported. -/
def State.mountChannel (s : State) (l : List (Nat × DiePage)) (ref : Option DiePage) (c : Nat) : State :=
  let mine := l.filter fun e => e.1 / 8 == c
  let mask (p : Nat × DiePage → Bool) : Nat := (mine.filter p).foldl (fun n e => n ||| 2 ^ (e.1 % 8)) 0
  let bad := mask fun e => !diesGood ref e
  let s := (s.set .STO_CH_STATUS_CE_PRESENT c (mask (diesGood ref))).set .STO_CH_STATUS_CE_EXCLUDED c bad
  let s := match mine.find? (diesGood ref) with
    | some e => (s.set .STO_CH_STATUS_IFACE c (if e.2.lpddr4 then 2 else 1)).set .STO_CH_STATUS_RATE c (s.nandRate e.2)
    | none => (s.set .STO_CH_STATUS_IFACE c 0).set .STO_CH_STATUS_RATE c 0
  (mine.filter fun e => !diesGood ref e).foldl (fun s _ => s.stoEvent 0 c 0 0xFF) s

/-- LUNs and raw GiB of the positions that count. -/
def dieLuns (dies : List (Nat × DiePage)) : Nat := dies.foldl (fun n e => n + e.2.luns) 0
def dieGib (dies : List (Nat × DiePage)) : Nat := dies.foldl (fun n e => n + e.2.luns * e.2.gib) 0

/-- The geometry that the reference page gives, and at the first mount the spare pool (R316, R321); with an empty pool the
store is read-only (R326). -/
def State.mountGeometry (s : State) (dies : List (Nat × DiePage)) (ref : Option DiePage) (spare : Nat) : State :=
  let s := (s.set .STO_GEOM_LUNS 0 (dieLuns dies)).set .STO_GEOM_RAW_GIB 0 (dieGib dies)
  let s : State := match ref with
    | some r => (((s.set .STO_GEOM_PLANES 0 (if r.planes = 4 then 2 else 1)).set .STO_GEOM_QLC 0 (if r.qlc then 1 else 0)).set
        .STO_WEAR_RATED 0 r.rated).set .STO_H_RETRY 0 r.retry
    | none => s
  let s := if s.get .STO_H_SPARE0 = 0 then (s.set .STO_H_SPARE0 0 spare).set .STO_H_SPARE 0 spare else s
  s.set .STO_H_READONLY 0 (s.get .STO_H_SPARE == 0 && s.get .STO_H_SPARE0 != 0).toNat

/-- What the mount finds lost: entries, audit records, settings and, without a valid clock, stamps (R319, R323, R327). -/
def State.mountLosses (s : State) (m : Mount) : State :=
  let s : State := { s with sto := { s.sto with entries := s.sto.entries.filter fun e => !m.badEntries.contains e.seq } }
  let s := s.closeSeg
  let s := if m.auditGap then s.stoEvent 11 0xFFFF 0 0xFF else s
  let s := if m.settingsLost then
      ({ s with sto := { s.sto with settings := [] }, lane := { s.lane with eqKept := [] } } : State).stoEvent 12 0xFFFF 0 0xFF
    else s
  if s.on .PWR_RTC_HI_RTC_VALID then s else s.stampsLost

/-- The controller reads the parameter pages, trains the interfaces and mounts the store (R316, R321, R323, R327), and
the settings are reapplied. Nothing happens before the firmware runs, or after a failed boot (16_boot_image.md R408,
R409). -/
def execNandMount (m : Mount) (s : State) : Res :=
  if s.get .BOOT_STATUS_STATE ≠ 1 then .next s else
  let l := mountOrder m
  let ref := (l.find? fun e => e.1 < 8 && e.2.ok).map (·.2)
  let dies := l.filter (diesGood ref)
  let s := (List.range 8).foldl (fun s c => s.mountChannel l ref c) s
  let s := (s.mountGeometry dies ref m.spare).mountLosses m
  let s := (s.set .STO_H_MOUNTED 0 1).applySettings
  .next ((s.set .STO_SPACE_USABLE_GIB 0 (dieGib dies * 93 / 100)).set .STO_SPACE_REC_GIB_NOW 0 (s.get .STO_CFG1_REC_GIB))

/-! ### Scrub, wear and bad blocks -/

/-- Age of a block in whole days (R322). -/
def State.blkDays (s : State) (b : NandBlk) : Nat := (s.rtc - b.stamp) / 86400

/-- A block with valid data is overdue (R323): by its age, or because its stamp is taken as 0. -/
def State.overdue (s : State) (b : NandBlk) : Bool :=
  b.region != 0 && !b.retired && (b.stamp == 0 || decide (s.get .STO_CFG0_SCRUB_DAYS ≤ s.blkDays b))

/-- A block with valid data is due (R322). -/
def State.dueBlk (s : State) (b : NandBlk) : Bool :=
  s.overdue b || (b.region != 0 && !b.retired && decide (s.get .STO_CFG0_SCRUB_DAYS ≤ s.blkDays b + 1))

/-- A block is read in full (R322): a new stamp when every codeword decoded early with at most 110 corrected bits, else
relocation; one with an uncorrectable codeword is retired after its readable data has moved (R319, R326). The read starts at
the step that the block remembers (R318). -/
def State.scrub (s : State) (i : Nat) (r : NandRead) : State :=
  let b := s.blk i
  let r : NandRead := { r with step := max b.step r.step }
  let s := (s.readCount r).inc .STO_CNT_SCRUB
  let s := s.putBlk { b with step := r.step }
  if r.uncorrectable then
    let s := s.segLost b.region b.seg
    match s.takeBlk b.region b.seg with
    | some t => (t.inc .STO_CNT_RELOC).retire i r.ch r.lun
    | none => s.retire i r.ch r.lun
  else if r.step ≤ 3 && r.bits ≤ 110 then s.putBlk { b with step := r.step, stamp := s.rtc }
  else s.relocate i

/-- The patrol reads a due block, the oldest first (R322). -/
def execPatrolScrub (b : Nat) (r : NandRead) (s : State) : Res :=
  let x := s.blk b
  if s.dueBlk x && !(s.sto.blocks.any fun y => s.dueBlk y && decide (y.stamp < x.stamp)) then .next (s.scrub b r)
  else .next s

/-- A block has become overdue (R323): the first one after it was cleared sets CATCHUP. -/
def execBlockOverdue (b : Nat) (s : State) : Res :=
  if s.overdue (s.blk b) then .next (s.stoEvent 6 0xFFFF 0 0xFF) else .next s

/-- An overdue block is scrubbed, the oldest first (R323). -/
def execCatchupScrub (b : Nat) (r : NandRead) (s : State) : Res :=
  let x := s.blk b
  if s.overdue x && !(s.sto.blocks.any fun y => s.overdue y && decide (y.stamp < x.stamp)) then .next (s.scrub b r)
  else .next s

/-- Largest and smallest erase count (R324). -/
def State.eraseRange (s : State) : Nat × Nat :=
  let l := s.sto.blocks.map (·.erases)
  let low := if s.sto.blocks.length < s.blockCount then 0 else match l with | [] => 0 | a :: r => r.foldl min a
  (low, l.foldl max 0)

/-- Erase counts differ by more than `WL_DELTA`: the block of smallest count that holds valid data is relocated (R324). -/
def execWearLevel (r : NandRead) (s : State) : Res :=
  let q := s.eraseRange
  let valid := s.sto.blocks.filter fun b => b.region != 0 && !b.retired
  if s.get .STO_CFG2_WL_DELTA < q.2 - q.1 then
    match valid with
    | [] => .next s
    | b :: l =>
      let m := l.foldl (fun m x => if x.erases < m.erases then x else m) b
      .next ((s.readCount r).relocate m.id)
  else .next s

/-- A program fails (R326): the page's data and the block's valid pages move, and the block is retired. -/
def execProgramFail (b ch lun : Nat) (s : State) : Res :=
  let x := s.blk b
  let s := s.inc .STO_CH_CNT_PFAIL ch
  if x.region = 0 then .next (s.retire b ch lun)
  else match s.takeBlk x.region x.seg with
    | some t => .next ((t.inc .STO_CNT_RELOC).retire b ch lun)
    | none => .next (s.retire b ch lun)

/-- An erase fails and the block is retired (R326). -/
def execEraseFail (b ch lun : Nat) (s : State) : Res :=
  let s := s.inc .STO_CH_CNT_EFAIL ch
  if (s.blk b).region = 0 then .next (s.retire b ch lun) else .next s

/-! ### Library commands -/

/-- The checks every storage command meets (R342 to R344): those of a firmware command, then BUSY while fenced or not
mounted. -/
def State.stoGate (s : State) (src : Src) : Status :=
  let g := s.fwGate src .operator 17
  if g ≠ .ok then g else if s.on .STO_CTRL_FENCE || !s.on .STO_H_MOUNTED then .busy else .ok

/-- A range lies in the hamper staging area (R334). -/
def State.inStaging (s : State) (addr len : Nat) : Bool :=
  decide (s.get .MEM_STAGE_BASE ≤ addr) &&
    decide (addr + len ≤ s.get .MEM_STAGE_BASE + s.get .MEM_STAGE_SIZE_SIZE_MIB * 2 ^ 20)

/-- The session may displace the stored hamper of a number (R335). -/
def State.mayReplace (s : State) (src : Src) (num : Nat) : Bool :=
  match s.hamper? num with
  | none => true
  | some h => s.mayAs src (hamperRole h.image)

/-- The library segments an upload needs: its body and, where new, its reference object (R333). -/
def State.segsNeeded (s : State) (h : List Nat) : Nat × Nat :=
  match sectionOf h 7 0 with
  | none => (ceilDiv h.length segBytes, 0)
  | some q =>
    (ceilDiv (h.length - q.len) segBytes,
      if q.byDigest || (s.refObj? q.digest).isSome then 0 else ceilDiv q.len segBytes)

/-- What refuses an upload, with the recorded result of the check (R332, R334). -/
def State.libPutCheck (s : State) (h : List Nat) (sigs : Sigs) (src : Src) : State × Status :=
  let num := hamperNum h
  if s.hamperInUse num then (s, .state)
  else
    let r := s.hamperCheck h sigs (s.mayReplace src num)
    let s := s.libResult r num
    match r with
    | some (_, st) => (s, st)
    | none =>
      let n := s.segsNeeded h
      if s.on .STO_H_READONLY || s.libSegs < s.libUsed + n.1 + n.2 then (s, .nospace) else (s, .ok)

/-- A reference object that no hamper names any more is freed (R333). -/
def State.freeRefs (s : State) : State :=
  let dead := s.sto.refs.filter fun r => !(s.sto.hampers.any fun h => h.digest == r.digest)
  let live := s.sto.refs.filter fun r => s.sto.hampers.any fun h => h.digest == r.digest
  let s : State := { s with sto := { s.sto with refs := live } }
  dead.foldl (fun s r => r.segs.foldl (fun s g => s.freeSeg 4 g) s) s

/-- A stored hamper leaves the library. -/
def State.removeHamper (s : State) (num : Nat) : State :=
  match s.hamper? num with
  | none => s
  | some h =>
    let s : State := { s with sto := { s.sto with hampers := s.sto.hampers.filter fun x => x.num != num } }
    (h.segs.foldl (fun s g => s.freeSeg 4 g) s).freeRefs

/-- A checked hamper is stored under its number, in place of one of that number (R327, R333, R334). -/
def State.storeHamper (s : State) (h : List Nat) : Option State :=
  let n := s.segsNeeded h
  match s.takeLib n.1, sectionOf h 7 0 with
  | some (t, body), some q =>
    match t.takeLib n.2 with
    | none => none
    | some (t, rsegs) =>
      let image := if q.byDigest then h else h.take q.off ++ h.drop (q.off + q.len)
      let new : Hamper := ⟨hamperNum h, image, q.off, q.digest, h.length, false, s.rtc, body⟩
      let refs := if n.2 = 0 then t.sto.refs else t.sto.refs ++ [⟨q.digest, sectionData h q, rsegs⟩]
      let old := (t.hamper? new.num).map (·.segs)
      let t : State := { t with sto := { t.sto with
        refs := refs, hampers := t.sto.hampers.filter (fun x => x.num != new.num) ++ [new] } }
      some (((old.getD []).foldl (fun s g => s.freeSeg 4 g) t).freeRefs)
  | _, _ => none

/-- Digest of a hamper's section table (R335). -/
def tableDigest (h : List Nat) : List Nat := (Config.sha256 ((h.drop 128).take (64 * hamperN h))).take 16

/-- The record of a change to hamper `num` (R335, 17_roles_security_audit.md R430). -/
def State.hamperRec (s : State) (src : Src) (num : Nat) (new : List Nat) : AuditRec :=
  s.auditRec src 3 3 num (match s.hamper? num with | some h => tableDigest h.image | none => noValue) new

/-- A hamper is stored once its record is durable (R335). -/
def effLibPut (addr len : Nat) (sigs : Sigs) (src : Src) (s : State) : State :=
  match s.dramRead addr len with
  | (s, none) => s.answer src 0x20 .integrity
  | (s, some h) =>
    let r := s.libPutCheck h sigs src
    if r.2 ≠ .ok then r.1.answer src 0x20 r.2
    else match r.1.storeHamper h with
      | some t => t
      | none => r.1.answer src 0x20 .nospace

/-- Command 0x20 (R334). -/
def execLibPut (addr len : Nat) (sigs : Sigs) (src : Src) (s : State) : Res :=
  let g := s.stoGate src
  if g ≠ .ok then .next (s.answer src 0x20 g)
  else if !s.inStaging addr len then .next (s.answer src 0x20 .range)
  else match s.dramRead addr len with
    | (s, none) => .next (s.answer src 0x20 .integrity)
    | (s, some h) =>
      let r := s.libPutCheck h sigs src
      if r.2 ≠ .ok then .next (r.1.answer src 0x20 r.2)
      else .next (r.1.recorded src 0x20 (.libPut addr len sigs src) (r.1.hamperRec src (hamperNum h) (tableDigest h))
        (effLibPut addr len sigs src))

/-- What refuses a deletion (R334): absent, rights, in use. -/
def State.libDeleteCheck (s : State) (num : Nat) (src : Src) : Status :=
  if (s.hamper? num).isNone then .range
  else if !s.mayReplace src num then .rights
  else if s.hamperInUse num then .state else .ok

/-- A hamper is removed once its record is durable. -/
def effLibDelete (num : Nat) (src : Src) (s : State) : State :=
  let st := s.libDeleteCheck num src
  if st ≠ .ok then s.answer src 0x21 st else s.removeHamper num

/-- Command 0x21 (R334, R335). -/
def execLibDelete (num : Nat) (src : Src) (s : State) : Res :=
  let g := s.stoGate src
  let st := if g ≠ .ok then g else s.libDeleteCheck num src
  if st ≠ .ok then .next (s.answer src 0x21 st)
  else .next (s.recorded src 0x21 (.libDelete num src) (s.hamperRec src num noValue) (effLibDelete num src))

/-- A directory entry (R335); all zeros for an empty number. -/
def State.dirEntry (s : State) (num : Nat) : List Nat :=
  match s.hamper? num with
  | none => List.replicate 64 0
  | some h =>
    let i := h.image
    let b (x : Bool) (k : Nat) : Nat := if x then 2 ^ k else 0
    let shared := (s.sto.hampers.filter fun x => x.digest == h.digest).length
    let cur := s.get .JOB_STATUS_CUR_STATE == 1 && s.get .JOB_HAMPERS_CUR_HAMPER == num
    let next := s.get .JOB_STATUS_NEXT_STATE != 0 && !s.on .JOB_STATUS_NEXT_STOP && s.get .JOB_HAMPERS_NEXT_HAMPER == num
    let flags := b h.damaged 0 + b (decide (1 < shared)) 1 + b cur 2 + b next 3
    let segs := h.segs.length + (match s.refObj? h.digest with | some r => r.segs.length | none => 0)
    leBytes 2 num ++ leBytes 2 (leAt i 8 2) ++ [i.getD 4 0, i.getD 12 0, i.getD 13 0, flags] ++ leBytes 8 h.length ++
      leBytes 8 h.uploaded ++ (h.digest ++ List.replicate 32 0).take 32 ++ leBytes 4 segs ++ [0, 0, 0, 0]

/-- Command 0x22: directory entries (R335). -/
def execLibList (first count : Nat) (src : Src) (s : State) : Res :=
  let g := s.stoGate src
  if g ≠ .ok then .next (s.answer src 0x22 g)
  else if 64 < count then .next (s.answer src 0x22 .range)
  else .next ((s.emit (.reply src 0x22 ((List.range count).flatMap fun i => s.dirEntry (first + i)))).answer src 0x22 .ok)

/-- An export goes to the staging area, or out on a stream of kind 6 (R334, 10_egress_delivery.md R255). -/
def State.exportTo (s : State) (src : Src) (cmd stream addr : Nat) (data : List Nat) : State :=
  let done (s : State) : State := (s.emit (.reply src cmd (leBytes 8 data.length))).answer src cmd .ok
  if stream = 0 then
    if s.inStaging addr data.length then done (s.dramWrite addr data) else s.answer src cmd .range
  else if 256 ≤ stream || !s.on .EGR_STR_CFG_EN stream || s.get .EGR_STR_CFG_KIND stream != 6 then s.answer src cmd .range
  else
    let tag : Tag := ⟨stream, 0, 0, 0, 0, 0, 0, 0, 0, 0⟩
    done (s.offer ⟨stream, 6, 0xFFFF, 0, tag, data, false, 0, 0, 0xFFFF, 0xFFFF, 0, 0, data.length, false, 0⟩)

/-- Command 0x23: a stored hamper is exported (R334). -/
def execLibGet (num stream addr : Nat) (r : NandRead) (src : Src) (s : State) : Res :=
  let g := s.stoGate src
  if g ≠ .ok then .next (s.answer src 0x23 g)
  else match s.hamper? num with
    | none => .next (s.answer src 0x23 .range)
    | some h =>
      let s := s.readCount r
      if r.uncorrectable then .next ((s.damage fun x => x.num == num).answer src 0x23 .integrity)
      else .next (s.exportTo src 0x23 stream addr (s.fullImage h))

/-- The damaged flag of a hamper takes a value. -/
def State.setDamaged (s : State) (num : Nat) (v : Bool) : State :=
  if v then s.damage fun h => h.num == num
  else
    let l := s.sto.hampers.map fun h => if h.num == num then { h with damaged := false } else h
    { s with sto := { s.sto with hampers := l } }

/-- Command 0x24: the checks run over a stored hamper (R334). -/
def execLibVerify (num : Nat) (sigs : Sigs) (r : NandRead) (src : Src) (s : State) : Res :=
  let g := s.stoGate src
  if g ≠ .ok then .next (s.answer src 0x24 g)
  else match s.hamper? num with
    | none => .next (s.answer src 0x24 .range)
    | some h =>
      let s := s.readCount r
      let c := if r.uncorrectable then some (7, Status.integrity) else s.storedCheck h sigs
      let s := (s.libResult c num).setDamaged num c.isSome
      .next ((s.emit (.reply src 0x24 [(c.getD (0, .ok)).1, 0, 0, 0])).answer src 0x24 (c.getD (0, .ok)).2)

/-! ### Recorder commands -/

/-- Staged entries are programmed (R338, R339). -/
def execRecorderProgram (s : State) : Res :=
  if s.unitDown 17 || s.on .STO_H_READONLY || !s.on .STO_H_MOUNTED then .next s
  else .next (s.programStaged s.sto.staged.length)

/-- Sequence of the oldest and of the newest entry present, 0 with none. -/
def State.recOldest (s : State) : Nat := match s.sto.entries with | [] => 0 | e :: _ => e.seq
def State.recNewest (s : State) : Nat := match s.sto.entries.getLast? with | none => 0 | some e => e.seq

/-- Command 0x30 (R340). -/
def execRecQuery (src : Src) (s : State) : Res :=
  let g := s.stoGate src
  if g ≠ .ok then .next (s.answer src 0x30 g)
  else
    let d := leBytes 8 s.recOldest ++ leBytes 8 s.recNewest ++ leBytes 4 s.keptSegs ++ leBytes 4 (s.get .STO_CNT_REC_MISSED)
    .next ((s.emit (.reply src 0x30 d)).answer src 0x30 .ok)

/-- The 32-byte gap entry of an absent sequence (R340). -/
def absentEntry (seq : Nat) : List Nat :=
  let head := leBytes 4 32 ++ leBytes 8 seq ++ List.replicate 8 0 ++ [0, 0, 0, 4]
  head ++ leBytes 4 (Config.crc32 (head ++ List.replicate 8 0)) ++ [0, 0, 0, 0]

/-- The entry of a sequence, present in the ring. -/
def State.entry? (s : State) (seq : Nat) : Option RecEntry := s.sto.entries.find? fun e => e.seq == seq

/-- Some entry of a range is present. -/
def State.anyEntry (s : State) (first count : Nat) : Bool :=
  s.sto.entries.any fun e => decide (first ≤ e.seq) && decide (e.seq < first + count)

/-- Entries whose codewords a read finds uncorrectable are lost (R319). -/
def State.entriesLost (s : State) (first count : Nat) (lost : List Nat) : State :=
  let gone (e : RecEntry) : Bool := decide (first ≤ e.seq) && decide (e.seq < first + count) && lost.contains e.seq
  { s with sto := { s.sto with entries := s.sto.entries.filter fun e => !gone e } }

/-- Command 0x31: entries are exported in order, absent ones as gap entries (R340); those that the read finds uncorrectable
are lost (R319). -/
def execRecGet (first count : Nat) (dest : Nat × Nat) (r : RecRead) (src : Src) (s : State) : Res :=
  let g := s.stoGate src
  if g ≠ .ok then .next (s.answer src 0x31 g)
  else
  let s := (s.readCount r.r).entriesLost first count r.lost
  if !s.anyEntry first count then .next (s.answer src 0x31 .range)
  else
    let d := (List.range count).flatMap fun i => match s.entry? (first + i) with
      | some e => e.bytes
      | none => absentEntry (first + i)
    .next (s.exportTo src 0x31 dest.1 dest.2 d)

/-- Kept segments once the entries of a range are kept. -/
def State.keptWith (s : State) (first count : Nat) : Nat :=
  (s.sto.ring.filter fun g => s.segKept g || s.sto.entries.any fun e =>
    e.seg == g && decide (first ≤ e.seq) && decide (e.seq < first + count)).length

/-- What refuses a keep (R339, R340). -/
def State.recKeepCheck (s : State) (first count : Nat) : Status :=
  if !s.anyEntry first count then .range
  else if s.keptSegs < s.keptWith first count && !s.keepFits (s.keptWith first count) then .nospace else .ok

/-- The kept flag of the entries of a range takes a value. -/
def State.setKept (s : State) (first count : Nat) (v : Bool) : State :=
  let f (e : RecEntry) : RecEntry :=
    if first ≤ e.seq && e.seq < first + count then
      { e with flags := if v then e.flags ||| 1 else e.flags - e.flags % 2 } else e
  { s with sto := { s.sto with entries := s.sto.entries.map f } }

/-- Entries are kept once the record is durable. -/
def effRecKeep (first count : Nat) (src : Src) (s : State) : State :=
  let st := s.recKeepCheck first count
  if st ≠ .ok then s.answer src 0x32 st else s.setKept first count true

/-- Command 0x32 (R339, R340). -/
def execRecKeep (first count : Nat) (src : Src) (s : State) : Res :=
  let g := s.stoGate src
  let st := if g ≠ .ok then g else s.recKeepCheck first count
  if st ≠ .ok then .next (s.answer src 0x32 st)
  else .next (s.recorded src 0x32 (.recKeep first count src) (s.auditRec src 3 4 (first % 2 ^ 32) noValue noValue)
    (effRecKeep first count src))

/-- Entries are released once the record is durable. -/
def effRecRelease (first count : Nat) (src : Src) (s : State) : State :=
  if s.anyEntry first count then s.setKept first count false else s.answer src 0x33 .range

/-- Command 0x33 (R340). -/
def execRecRelease (first count : Nat) (src : Src) (s : State) : Res :=
  let g := s.stoGate src
  if g ≠ .ok then .next (s.answer src 0x33 g)
  else if !s.anyEntry first count then .next (s.answer src 0x33 .range)
  else .next (s.recorded src 0x33 (.recRelease first count src) (s.auditRec src 3 4 (first % 2 ^ 32) noValue noValue)
    (effRecRelease first count src))

/-- The recorder may take `v` GiB (R321): the library keeps its segments and at least 16 GiB. -/
def State.recGibOk (s : State) (v : Nat) : Bool :=
  decide (2 + v + max 16 (ceilDiv s.libUsed 16) ≤ s.get .STO_SPACE_USABLE_GIB)

/-- The oldest unkept segments are freed while the ring is larger than its size (R321). -/
def State.shrinkRing (s : State) : Nat → State
  | 0 => s
  | fuel + 1 =>
    if s.sto.ring.length ≤ s.ringSize then s
    else match s.sto.ring.find? fun g => !s.segKept g with
      | some g => (s.dropSeg g).shrinkRing fuel
      | none => s

/-- `REC_GIB` takes a value (R321). -/
def effRecGibWrite (v : Nat) (src : Src) (s : State) : State :=
  if !s.recGibOk v then s.answer src 0x540424 .nospace
  else
    let s := (s.set .STO_CFG1_REC_GIB 0 v).set .STO_SPACE_REC_GIB_NOW 0 v
    let s := if s.sto.ring.length ≤ s.ringSize then s else s.closeSeg
    let s := s.shrinkRing s.sto.ring.length
    s.keepSetting 0x540424 (s.get .STO_CFG1_REC_GIB + 2 ^ 16 * s.get .STO_CFG1_KEEP_MAX_PCT)

/-- A write of `STO_CFG1.REC_GIB` (R321). -/
def execRecGibWrite (v : Nat) (src : Src) (s : State) : Res :=
  let g := s.gate src .installer 17
  if g ≠ .ok then .next (s.answer src 0x540424 g)
  else if s.settingsBusy src then .next (s.answer src 0x540424 .busy)
  else if !s.recGibOk (v % 65536) then .next (s.answer src 0x540424 .nospace)
  else .next (s.recorded src 0x540424 (.recGibWrite (v % 65536) src)
    (s.writeRec src 0x540424 (v % 65536 + 2 ^ 16 * s.get .STO_CFG1_KEEP_MAX_PCT)) (effRecGibWrite (v % 65536) src))

/-! ### Fence, reset and counters -/

/-- `STO_CTRL.FENCE` takes 1 (R344). -/
def effStoFence (s : State) : State := s.set .STO_CTRL_FENCE 0 1

/-- `STO_CTRL.FENCE` written 1 (R344). -/
def execStoFence (src : Src) (s : State) : Res :=
  if s.gate src .installer 17 ≠ .ok then .next (s.answer src 0 (s.gate src .installer 17))
  else .next (s.recorded src 0 (.stoFence src) (s.writeRec src 0x540474 1) effStoFence)

/-- Operations in progress have completed: FENCED reads 1 (R344). -/
def execStoFenceDone (s : State) : Res :=
  if s.on .STO_CTRL_FENCE then .next (s.set .STO_CTRL_FENCED 0 1) else .next s

/-- The controller resets (R344): staged copies are lost and closed by a gap entry, the open segment is closed, and the store
is to be mounted again. -/
def effStoReset (s : State) : State :=
  let n := (s.sto.staged.filter fun e => !e.flags.testBit 2).length
  let lost := s.sto.staged.foldl (fun n e => n + e.missed) 0
  let s := (({ s with sto := { s.sto with staged := [] } } : State).missCopies n).add .STO_H_MISSRUN 0 lost
  let s := s.closeRun
  ((s.closeSeg).set .STO_H_MOUNTED 0 0).blockReset 17

/-- `STO_CTRL.RESET` (R344). -/
def execStoReset (src : Src) (s : State) : Res :=
  if s.gate src .installer 17 ≠ .ok then .next (s.answer src 0 (s.gate src .installer 17))
  else .next (s.recorded src 0 (.stoReset src) (s.writeRec src 0x540474 2) effStoReset)

/-- `CLR_CNT` clears the storage counters (R515). -/
def State.stoClrCnt (s : State) : State :=
  let s := (List.range 8).foldl (fun s c => [Fld.STO_CH_CNT_CORR, .STO_CH_CNT_RETRY, .STO_CH_CNT_SOFT,
    .STO_CH_CNT_UNCORR, .STO_CH_CNT_PFAIL, .STO_CH_CNT_EFAIL].foldl (fun s f => s.set f c 0) s) s
  [Fld.STO_CNT_RELOC, .STO_CNT_RETIRED, .STO_CNT_REC_MISSED, .STO_CNT_AUTOKEEP_SKIP, .STO_CNT_SCRUB].foldl
    (fun s f => s.set f 0 0) s

/-- The command form of `CLR_CNT`. -/
def execStoClrCnt (src : Src) (s : State) : Res :=
  if s.gate src .operator 17 ≠ .ok then .next (s.answer src 0 (s.gate src .operator 17))
  else .next (s.stoClrCnt.answer src 0 .ok)

end Sys2Proof.Machine
end

