-- ==== Sys2Proof/Machine/Boot.lean ====
section
/-! DEFINITION. The single read of the NOR at start and the firmware update (16_boot_image.md). -/

namespace Sys2Proof.Machine

/-! ### The read at start -/

/-- The outcome of a slot's trial (R407): none failed, or the failing step and its status. -/
def State.slotResult (s : State) (n : Nat) (r : Option (Nat × Status)) : State :=
  match r with
  | none => (s.set .BOOT_RESULT_STATUS n 0).set .BOOT_RESULT_STEP n 0xF
  | some (step, st) => (s.set .BOOT_RESULT_STATUS n (statusCode st)).set .BOOT_RESULT_STEP n step

/-- The slots that may be tried, in order (R396): not rejected, with a header, by descending sequence, A first on equal. -/
def State.trialOrder (s : State) : List Nat :=
  let ok := [0, 1].filter fun n => (s.bootSlot n).state ≤ 1
  if ok == [0, 1] && decide ((s.bootSlot 0).seq < (s.bootSlot 1).seq) then [1, 0] else ok

/-- One slot is tried: the state, whether it passed, and the slot that has failed last. -/
def State.trySlot (s : State) (nor : Nor) (failed : Option Nat) (n : Nat) : State × Bool × Option Nat :=
  let b := s.bootSlot n
  if b.state = 0 && s.on .BOOT_H_TRIALBIT n then
    ((s.slotStatus n 0).bootEvent 1 n 0 0xF b.seq, false, failed)
  else
    let s := if b.state = 0 then s.set .BOOT_H_TRIALBIT n 1 else s
    let r := s.imageCheck (imageIn b s.boot.size) s.boot.size (if n = 0 then nor.a else nor.b)
    let s := s.slotResult n r
    match r with
    | some _ => (s, false, some n)
    | none =>
      let s := ((s.set .BOOT_STATUS_ACTIVE 0 n).set .BOOT_STATUS_TRIAL 0 (if b.state = 0 then 1 else 0)).set .BOOT_H_PASSED 0 1
      match failed with
      | some f => (s.bootEvent 0 f (s.get .BOOT_RESULT_STATUS f) (s.get .BOOT_RESULT_STEP f) (s.bootSlot f).seq, true, failed)
      | none => (s, true, failed)

/-- Slots are tried in order (R396, R407): a TRIAL slot whose trial bit is set is rejected and skipped, else its bit is set
before the trial. The first slot that passes becomes active; a pass after a failure raises `FALLBACK`. -/
def State.trySlots (s : State) (nor : Nor) (failed : Option Nat) : List Nat → State
  | [] => s
  | n :: rest =>
    let r := s.trySlot nor failed n
    if r.2.1 then r.1 else r.1.trySlots nor r.2.2 rest

/-- No slot has passed (R408). -/
def State.bootFail (s : State) : State := (s.set .BOOT_STATUS_STATE 0 2).notify

/-- The boot engine discovers the NOR, orders the slots and tries them (R394 to R397, R407, R408); once per device reset. -/
def execBootRead (nor : Nor) (s : State) : Res :=
  if s.get .BOOT_STATUS_STATE ≠ 0 || s.on .BOOT_H_PASSED || s.on .PWR_H_HELD then .next s
  else if !nor.found then
    .next ((s.slotResult 0 (some (0, .timeout))).slotResult 1 (some (0, .timeout))).bootFail
  else
    let s : State := { s with boot := { s.boot with size := nor.size } }
    let s := nor.placed.foldl (fun s p =>
      ({ s with boot := { s.boot with slots := tabPut s.boot.slots (p.slot % 2) ⟨p.image, p.status⟩ } } : State)) s
    let s := [0, 1].foldl (fun s n => s.putSlot n (s.bootSlot n)) s
    let s := if nor.slow then (s.set .BOOT_STATUS_NOR_SLOW 0 1).bootEvent 5 0xFFFF 0 0xF 0 else s
    let s := s.trySlots nor none s.trialOrder
    .next (if s.on .BOOT_H_PASSED then s else s.bootFail)

/-- The verified slot is applied and the firmware starts (R408 to R410): enabled lanes begin training; a decommission that
was cut off is resumed first (17_roles_security_audit.md R436). -/
def execFirmwareStart (s : State) : Res :=
  if s.get .BOOT_STATUS_STATE ≠ 0 || !s.on .BOOT_H_PASSED then .next s
  else if s.on .SEC_STATUS_WIPE_PENDING then .next s.wipe
  else
    let s := s.applyImage (imageIn (s.bootSlot s.activeSlot) s.boot.size)
    let sets : List (Fld × Nat) := [(.BOOT_STATUS_STATE, 1), (.BOOT_STATUS_FW_SRC, 0), (.BOOT_H_AWAY, 0),
      (.BOOT_STATUS_BOOT_US, min (s.elapsed / 10000) 0xFFFF), (.BOOT_H_STARTED, s.elapsed)]
    let s := sets.foldl (fun s q => s.set q.1 0 q.2) s
    .next ((List.range 48).foldl (fun s n => if s.on .LANE_CTRL_ENABLE n then effLaneEnable n s else s) s)

/-! ### Firmware update (R411) -/

/-- Update states. -/
abbrev updIdle : Nat := 0
abbrev updVerifying : Nat := 1
abbrev updProgramming : Nat := 2
abbrev updReadback : Nat := 3
abbrev updReady : Nat := 4
abbrev updTrial : Nat := 5

/-- State of the update. -/
def State.updState (s : State) : Nat := s.get .BOOT_UPD_STATUS_UPD_STATE

/-- `FW_UPDATE` may begin: the update is IDLE or READY, and the active slot is CONFIRMED. -/
def State.updateOk (s : State) : Bool :=
  (s.updState == updIdle || s.updState == updReady) && !s.on .BOOT_STATUS_TRIAL

/-- Verification of the staged image begins; the reply comes when it ends. -/
def effFwUpdate (addr len : Nat) (src : Src) (s : State) : State :=
  if !s.updateOk then s.answer src 0x50 .state
  else
    let s : State := { s with boot := { s.boot with updater := some src, staged := s.memBytes addr len } }
    s.set .BOOT_UPD_STATUS_UPD_STATE 0 updVerifying

/-- Command 0x50 (R411): a maker names the staged image. -/
def execFwUpdate (addr len : Nat) (src : Src) (s : State) : Res :=
  let g := s.fwGate src .maker 18
  if g ≠ .ok then .next (s.answer src 0x50 g)
  else if !s.inStaging addr len then .next (s.answer src 0x50 .range)
  else if !s.updateOk then .next (s.answer src 0x50 .state)
  else .next (s.recorded src 0x50 (.fwUpdate addr len src) (s.auditRec src 3 5 s.idleSlot noValue noValue)
    (effFwUpdate addr len src))

/-- The reply that a firmware update owes is given. -/
def State.updateReply (s : State) (st : Status) : State :=
  match s.boot.updater with
  | some src => ({ s with boot := { s.boot with updater := none } } : State).answer src 0x50 st
  | none => s

/-- Verification of the staged image ends (R411): the inactive slot is erased and programmed, or the update fails with the
status of the failing step, or VERSION where the sequence does not rise. -/
def execUpdateVerifyDone (v : Verdicts) (s : State) : Res :=
  if s.updState ≠ updVerifying then .next s
  else match s.imageCheck s.boot.staged s.boot.size v with
  | some (step, st) => .next ((s.updateReply st).updateFail st step false)
  | none =>
    if leAt s.boot.staged 8 4 ≤ (s.bootSlot s.activeSlot).seq then
      .next ((s.updateReply .version).updateFail .version 0xF false)
    else
      let s := s.updateReply .ok
      let s := (s.putSlot s.idleSlot ⟨[], 0xFFFFFFFF⟩).set .BOOT_H_TRIALBIT s.idleSlot 0
      .next (s.set .BOOT_UPD_STATUS_UPD_STATE 0 updProgramming)

/-- Programming of the inactive slot ends: readback begins, or a program or erase failure ends the update. -/
def execUpdateProgramDone (ok : Bool) (s : State) : Res :=
  if s.updState ≠ updProgramming then .next s
  else if !ok then .next (s.updateFail .integrity 0xF true)
  else .next ((s.putSlot s.idleSlot ⟨s.boot.staged, 0xFFFFFFFF⟩).set .BOOT_UPD_STATUS_UPD_STATE 0 updReadback)

/-- Readback ends (R411): the update is READY, with its audit record of the signed-message digests, or fails. -/
def execUpdateReadbackDone (v : Verdicts) (s : State) : Res :=
  if s.updState ≠ updReadback then .next s
  else
    let n := s.idleSlot
    let h := imageIn (s.bootSlot n) s.boot.size
    match s.imageCheck h s.boot.size v with
    | some (step, st) => .next (s.updateFail st step true)
    | none =>
      let old := signedDigest (imageIn (s.bootSlot s.activeSlot) s.boot.size)
      let s := s.note ⟨.mgt, 0⟩ ⟨.device, 3, 0, 5, n, old.take 16, (signedDigest h).take 16⟩
      let s := ((s.set .BOOT_UPD_STATUS_UPD_STATE 0 updReady).set .BOOT_UPD_STATUS_LAST_STATUS 0 0).set
        .BOOT_UPD_STATUS_LAST_STEP 0 0xF
      let s : State := { s with boot := { s.boot with staged := [] } }
      .next (s.bootEvent 2 n 0 0xF (s.bootSlot n).seq)

/-- A record other than the firmware's differs between an image and the one applied at reset (R413). -/
def State.configDiffers (s : State) (h : List Nat) : Bool :=
  let mine := s.boot.applied.filter fun e => e.1 != 2
  let its := ((sectionsOf h).filter fun x => x.type != 2).map fun x => (x.type, x.digest)
  !(mine.all its.contains && its.all mine.contains)

/-- The new slot becomes active and the management complex restarts from its firmware record (R411, R413). -/
def effFwActivate (src : Src) (s : State) : State :=
  if s.updState ≠ updReady then s.answer src 0x51 .state
  else
    let n := s.idleSlot
    let s := ((s.set .BOOT_H_FORMER 0 s.activeSlot).set .BOOT_STATUS_ACTIVE 0 n).set .BOOT_STATUS_TRIAL 0 1
    let s := s.set .BOOT_UPD_STATUS_UPD_STATE 0 updTrial
    let b := s.bootSlot n
    let s := if s.configDiffers (imageIn b s.boot.size) then
        (s.set .BOOT_STATUS_CONFIG_PENDING 0 1).bootEvent 4 n 0 0xF b.seq else s
    (s.answer src 0x51 .ok).mgtRestart true

/-- Command 0x51 (R411). -/
def execFwActivate (src : Src) (s : State) : Res :=
  let g := s.fwGate src .maker 18
  if g ≠ .ok then .next (s.answer src 0x51 g)
  else if s.updState ≠ updReady then .next (s.answer src 0x51 .state)
  else .next (s.recorded src 0x51 (.fwActivate src) (s.auditRec src 3 5 s.idleSlot noValue noValue) (effFwActivate src))

/-- Address of `BOOT_CTRL`. -/
abbrev bootCtrl : Nat := 0x40064

/-- The trial may be confirmed (R411, R414): the active slot is TRIAL, and an activation has not waited longer than
`CONFIRM_S`. -/
def State.confirmOk (s : State) : Bool :=
  s.on .BOOT_STATUS_TRIAL && (s.updState == updIdle || (s.updState == updTrial &&
    decide (s.elapsed ≤ s.get .BOOT_H_STARTED + s.get .BOOT_CTRL_CONFIRM_S * 1000000000)))

/-- The active slot is CONFIRMED and its trial bit cleared (R411). -/
def State.confirm (s : State) : State :=
  let n := s.activeSlot
  let s := ((s.slotStatus n 0x5A5A5A5A).set .BOOT_H_TRIALBIT n 0).set .BOOT_STATUS_TRIAL 0 0
  s.set .BOOT_UPD_STATUS_UPD_STATE 0 updIdle

/-- `BOOT_CTRL.CONFIRM`, by the management processor only (R411). -/
def execFwConfirm (src : Src) (s : State) : Res :=
  if s.fwGate src .device 18 ≠ .ok then .next (s.answer src bootCtrl (s.fwGate src .device 18))
  else if !s.confirmOk then .next (s.answer src bootCtrl .state)
  else .next (s.confirm.answer src bootCtrl .ok)

/-- The trial ends unconfirmed (R411): the slot is rejected and the former slot's firmware is restarted. -/
def State.rollBack (s : State) : State :=
  let n := s.activeSlot
  let f := s.get .BOOT_H_FORMER
  let s := (s.slotStatus n 0).bootEvent 1 n 0 0xF (s.bootSlot n).seq
  let s := (s.set .BOOT_STATUS_ACTIVE 0 f).set .BOOT_STATUS_TRIAL 0 0
  (s.set .BOOT_UPD_STATUS_UPD_STATE 0 updIdle).mgtRestart true

/-- `CONFIRM_S` has elapsed since the trial firmware started. -/
def execConfirmTimeout (s : State) : Res :=
  if s.updState = updTrial && !s.on .BOOT_H_AWAY &&
      decide (s.get .BOOT_H_STARTED + s.get .BOOT_CTRL_CONFIRM_S * 1000000000 ≤ s.elapsed) then .next s.rollBack
  else .next s

/-! ### The return of the management complex (R410, 01_frame_journey.md R11, 20_power_sleep_reset.md R485) -/

/-- The firmware of the active slot is taken from the NOR after steps 8 and 9 of R407, or not taken. -/
def State.reload (s : State) (fw : Sigs) : Option State :=
  match recordOf (imageIn (s.bootSlot s.activeSlot) s.boot.size) 2 with
  | some f => if s.imageStep8 f fw && s.imageStep9 f then some (s.loadFirmware f) else none
  | none => none

/-- The management complex is back: it recomputes the routes (15_botex_fabric.md R377) and serves the latched strobes first
(01_frame_journey.md R11). -/
def State.mgtBack (s : State) (source : Nat) : State :=
  let sets : List (Fld × Nat) := [(.BOOT_H_AWAY, 0), (.BOOT_H_RESTARTING, 0), (.BOOT_H_FROMNOR, 0),
    (.BOOT_STATUS_FW_SRC, source)]
  (sets.foldl (fun s q => s.set q.1 0 q.2) s).stageRoutes.serveLatch

/-- The restart ends (R410): after an activation or rollback with the slot's firmware, else with the code SRAM's code when
its digest matches, else with the active slot's firmware and `FW_RELOAD`. Where the slot's firmware does not pass, an
activation is rolled back, and otherwise the complex stays away. -/
def execMgtRestartDone (sramOk : Bool) (fw : Sigs) (s : State) : Res :=
  if !s.on .BOOT_H_RESTARTING || s.inTest 18 || s.get .PWR_H_STATE = 1 || s.get .PWR_H_STATE = 2 then .next s
  else if s.on .BOOT_H_FROMNOR then
    match s.reload fw with
    | some t => .next ((if t.updState = updTrial then t.set .BOOT_H_STARTED 0 t.elapsed else t).mgtBack 0)
    | none => if s.updState = updTrial then .next s.rollBack else .next s
  else if sramOk then .next (s.mgtBack 1)
  else
    let s := s.bootEvent 6 s.activeSlot 0 0xF (s.bootSlot s.activeSlot).seq
    match s.reload fw with
    | some t => .next (t.mgtBack 3)
    | none => .next s

end Sys2Proof.Machine
end

