-- ==== Sys2Proof/Machine/Sec.lean ====
section
/-! DEFINITION. Security (17_roles_security_audit.md): login and sessions, attestation, reading and signing the audit log, fuses,
test unlock and decommission. What becomes of a durable record stands in Audit.lean. -/

namespace Sys2Proof.Machine

/-! ### Login (R421 to R424) -/

/-- Ns in a second. -/
abbrev secNs : Nat := 1000000000

/-- Failures of a key in the 60 s up to a time. -/
def State.failuresBy (s : State) (role : Role) (key t : Nat) : Nat :=
  (s.sec.failures.filter fun f => f.1 == role && f.2.1 == key && decide (f.2.2 ≤ t) && decide (t < f.2.2 + 60 * secNs)).length

/-- A key is locked out: 60 s have not passed since an eighth failure within 60 s (R424). -/
def State.lockedKey (s : State) (role : Role) (key : Nat) : Bool :=
  s.sec.failures.any fun f => f.1 == role && f.2.1 == key && decide (s.elapsed < f.2.2 + 60 * secNs) &&
    decide (8 ≤ s.failuresBy role key f.2.2)

/-- What any command of the login session meets first (R422, R424, R435): the common checks of a command, STATE while a test is
unlocked, INTEGRITY after a health-test failure (R420). -/
def State.loginGate (s : State) (src : Src) : Status :=
  let g := s.fwGate src .none 19
  if g ≠ .ok then g
  else if s.on .SEC_STATUS_TEST_UNLOCKED then .state
  else if s.on .SEC_H_RNG_BAD then .integrity else .ok

/-- Command 0x01: a nonce for a key, and the UID (R423); BUSY for a locked key. A fifth nonce replaces the oldest. -/
def execLoginBegin (role key major : Nat) (src : Src) (s : State) : Res :=
  let g := s.loginGate src
  if g ≠ .ok then .next (s.answer src 0x01 g)
  else if s.lockedKey (roleOfCode role) key then .next (s.answer src 0x01 .busy)
  else
    let v := s.free % 2 ^ 256
    let keep := if s.sec.nonces.length < 4 then s.sec.nonces else s.sec.nonces.drop (s.sec.nonces.length - 3)
    let n : Nonce := ⟨v, roleOfCode role, key, major, s.elapsed⟩
    let s : State := { s.drawn with sec := { s.sec with nonces := keep ++ [n] } }
    .next ((s.emit (.reply src 0x01 (leBytes 32 v ++ leBytes 8 (s.get .SEC_FUSE_UID)))).answer src 0x01 .ok)

/-- The nonce of a login message. -/
def loginNonce (msg : List Nat) : Nat := leAt msg 12 32

/-- The nonce a login message names, while outstanding. -/
def State.nonceOf (s : State) (msg : List Nat) : Option Nonce := s.sec.nonces.find? fun n => n.value == loginNonce msg

/-- The checks of R424 on a login message: the first failure's status, or OK. -/
def State.loginCheck (s : State) (msg : List Nat) (sigs : Sigs) : Status :=
  match s.nonceOf msg with
  | none => .state
  | some n =>
    if leAt msg 4 8 ≠ s.get .SEC_FUSE_UID then .state
    else if n.born + 30 * secNs ≤ s.elapsed then .timeout
    else if !s.sec.keys.contains (roleOfCode (msg.getD 44 0), msg.getD 45 0) then .rights
    else if !(msg.getD 46 0 == 1 || msg.getD 46 0 == 2) then .version
    else if 16 ≤ s.sec.sessions.length then .busy
    else if !sigs.rsa || !sigs.slh then .integrity
    else .ok

/-- A login message is formed as R423 says: 64 bytes, its magic, and zeros at its end. -/
def loginFormed (msg : List Nat) : Bool := msg.length == 64 && msg.take 4 == [0x46, 0x5A, 0x4C, 0x47] && zeroIn msg 47 17

/-- Record of a login or login failure: object class 8, role and index (R430). -/
def loginRec (action session : Nat) (role : Role) (roleByte key : Nat) : AuditRec :=
  ⟨role, action, session, 8, roleByte * 256 + key, noValue, noValue⟩

/-- A login is refused (R424): recorded, counted and reported, and at the eighth failure within 60 s the key is locked. -/
def State.loginFails (s : State) (msg : List Nat) : State :=
  let role := roleOfCode (msg.getD 44 0)
  let key := msg.getD 45 0
  let s := (s.note ⟨.mgt, 0⟩ (loginRec 5 0 .none (msg.getD 44 0) key)).inc .SEC_CNT_LOGIN_FAIL
  let s : State := { s with sec := { s.sec with failures := s.sec.failures ++ [(role, key, s.elapsed)] } }
  let s := s.secEvent 0 0 (msg.getD 44 0) key
  if 8 ≤ s.failuresBy role key s.elapsed then s.secEvent 1 0 (msg.getD 44 0) key else s

/-- The number of a new session (R421): the lowest above the last one issued that is not open, wrapping past 65,535 and
skipping 0. -/
def State.newSession (s : State) : Nat :=
  let last := s.get .SEC_H_LAST_SESSION
  ((List.range 17).map (fun i => (last + i) % 65535 + 1)).find? (fun n => (s.session n).isNone) |>.getD 0

/-- The session opens once the login's record is durable (R423): its key and the encrypted key are drawn. -/
def effLoginFinish (msg : List Nat) (src : Src) (s : State) : State :=
  if s.on .SEC_STATUS_TEST_UNLOCKED then s.answer src 0x02 .state
  else if 16 ≤ s.sec.sessions.length then s.answer src 0x02 .busy
  else
    let n := s.newSession
    let secret := s.free % 2 ^ 256
    let s := s.drawn
    let cipher := leBytes 384 s.free
    let s := s.drawn
    let x : Session := ⟨n, roleOfCode (msg.getD 44 0), msg.getD 45 0, msg.getD 46 0, 0, s.elapsed, secret⟩
    let s : State := { s with sec := { s.sec with sessions := s.sec.sessions ++ [x] } }
    let s := (s.set .SEC_H_LAST_SESSION 0 n).inc .SEC_CNT_LOGIN_OK
    s.emit (.reply src 0x02 (leBytes 2 n ++ [msg.getD 46 0, 0] ++ leBytes 4 (s.get .SEC_CFG_SESSION_IDLE_S) ++ cipher))

/-- Command 0x02 (R423, R424): the nonce is consumed whatever the outcome of the checks. -/
def execLoginFinish (msg : List Nat) (sigs : Sigs) (src : Src) (s : State) : Res :=
  let g := s.loginGate src
  if g ≠ .ok then .next (s.answer src 0x02 g)
  else if !loginFormed msg then .next (s.answer src 0x02 .range)
  else
    let st := s.loginCheck msg sigs
    let s : State := { s with sec := { s.sec with nonces := s.sec.nonces.filter fun n => n.value != loginNonce msg } }
    if st ≠ .ok then .next ((s.loginFails msg).answer src 0x02 st)
    else .next (s.recorded src 0x02 (.loginFinish msg sigs src)
      (loginRec 4 s.newSession (roleOfCode (msg.getD 44 0)) (msg.getD 44 0) (msg.getD 45 0)) (effLoginFinish msg src))

/-- 60 s after the eighth failure a key may log in again (R424): failures older than 60 s are forgotten. While the key is
locked they still tell how long. -/
def execLockoutExpiry (role key : Nat) (s : State) : Res :=
  if s.lockedKey (roleOfCode role) key then .next s
  else .next { s with sec := { s.sec with failures := s.sec.failures.filter fun f =>
    !(f.1 == roleOfCode role && f.2.1 == key && decide (f.2.2 + 60 * secNs ≤ s.elapsed)) } }

/-! ### The end of a session (R425) -/

/-- The session of a source ends by `LOGOUT`: its reply is sent before its key goes. -/
def effLogout (src : Src) (s : State) : State := (s.answer src 0x03 .ok).endSession src.session

/-- Command 0x03 (R425). -/
def execLogout (src : Src) (s : State) : Res :=
  let g := s.fwGate src .operator 19
  if g ≠ .ok then .next (s.answer src 0x03 g)
  else match s.session src.session with
    | some x => .next (s.recorded src 0x03 (.logout src) (sessionEndRec x) (effLogout src))
    | none => .next (s.answer src 0x03 .rights)

/-- Something of a session is still being served (R437). -/
def State.sessionBusy (s : State) (n : Nat) : Bool :=
  (s.brg.slots.any fun e => e.2.session == n) || (s.brg.wait.any fun r => r.session == n) ||
  (s.brg.cmds.any fun c => c.session == n) || (s.get .I3C_H_CMD == 1 && s.memLe (cmdBuf + 2) 2 == n)

/-- No request of a session has been accepted for `SESSION_IDLE_S` (R425); a request that executes is completed first
(R437). -/
def execSessionIdleTimeout (n : Nat) (s : State) : Res :=
  match s.session n with
  | none => .next s
  | some x =>
    if x.seen + s.get .SEC_CFG_SESSION_IDLE_S * secNs ≤ s.elapsed && !s.sessionBusy n then
      .next ((s.note ⟨.mgt, 0⟩ (sessionEndRec x)).endSession n)
    else .next s

/-! ### Attestation (R426 to R428) -/

/-- The public keys in the order of the digest (R426): modulus, exponent 65,537, SLH-DSA key. -/
def attestKeys : List Nat := fit 384 Config.attestModulus ++ leBytes 4 65537 ++ fit 32 Config.attestSlh

/-- The attestation keys are derived from `DUS` (R426); not while a test is unlocked, which blocks `DUS` (R435). -/
def execAttestKeysReady (ms : Nat) (s : State) : Res :=
  if s.on .SEC_STATUS_TEST_UNLOCKED then .next s
  else
    let s := (s.set .SEC_STATUS_ATTEST_READY 0 1).set .SEC_STATUS_ATTEST_MS 0 ms
    .next (s.putDigest .SEC_ATTEST_PK (Config.sha256 attestKeys))

/-- An attestation signature block (R428): its two signatures are free values. -/
def State.signBlock (s : State) : State × List Nat :=
  let rsa := leBytes 384 s.free
  let s := s.drawn
  let slh := leBytes 17088 s.free
  (s.drawn, [0x46, 0x5A, 0x41, 0x53] ++ leBytes 2 384 ++ leBytes 2 17088 ++ rsa ++ slh)

/-- Words of eight registers as bytes. -/
def State.digestBytes (s : State) (f : Fld) : List Nat := (List.range 8).flatMap fun i => leBytes 4 (s.get f i)

/-- The 256-byte report (R427). -/
def State.report (s : State) (nonce : List Nat) : List Nat :=
  let b (f : Fld) (k : Nat) : Nat := if s.on f then 2 ^ k else 0
  let runs := s.jobRuns
  let h := s.job.cur
  [0x46, 0x5A, 0x41, 0x52, 1, 0, 0, 0] ++ leBytes 8 (s.get .SEC_FUSE_UID) ++ fit 32 nonce ++ leBytes 8 s.rtc ++
    leBytes 8 s.now ++ s.digestBytes .BOOT_DIGEST ++ s.digestBytes .BOOT_FW_DIGEST ++ leBytes 4 (s.get .BOOT_FW_VERSION) ++
    [s.get .BOOT_FW_SVN_SVN, s.svnMin, s.get .BOOT_FW_SVN_KEY_GEN,
     b .BOOT_STATUS_PROVISIONED 0 + b .BOOT_STATUS_ACTIVE 1 + b .BOOT_STATUS_TRIAL 2 + b .BOOT_STATUS_CONFIG_PENDING 3 +
       b .SEC_STATUS_TEST_SINCE_POWER 4 + b .SEC_FUSE_STATE_SCAN_OFF 5 + b .SEC_FUSE_STATE_GEN0_REVOKED 6,
     s.get .SEC_FUSE_STATE_SEAL + 16 * s.get .SEC_FUSE_STATE_REVOKE, s.decoms] ++
    leBytes 2 (if runs then s.get .JOB_IDS_CUR_ID else 0) ++ leBytes 2 (if runs then s.get .JOB_HAMPERS_CUR_HAMPER else 0) ++
    [0, 0] ++ (if runs then fit 32 (signedDigest h) else List.replicate 32 0) ++ leBytes 8 (s.get .SEC_AUDIT_SEQ) ++
    fit 32 s.sec.head ++ leBytes 8 (s.get .SEC_AUDIT_SIGNED) ++ List.replicate 32 0

/-- What a command that signs meets first: the common checks, BUSY until the keys are derived, INTEGRITY after a health-test
failure. -/
def State.signGate (s : State) (src : Src) (r : Role) : Status :=
  let g := s.fwGate src r 19
  if g ≠ .ok then g
  else if !s.on .SEC_STATUS_ATTEST_READY then .busy
  else if s.on .SEC_H_RNG_BAD then .integrity else .ok

/-- Command 0x04 (R427, R428), from any role. -/
def execAttest (nonce : List Nat) (keys : Bool) (src : Src) (s : State) : Res :=
  let g := s.signGate src .none
  if g ≠ .ok then .next (s.answer src 0x04 g)
  else if nonce.length ≠ 32 then .next (s.answer src 0x04 .range)
  else
    let body := s.report nonce
    let q := s.signBlock
    .next ((q.1.emit (.reply src 0x04 (body ++ q.2 ++ if keys then attestKeys else []))).answer src 0x04 .ok)

/-! ### The audit log (R433, R434) -/

/-- A head that is due is signed and stored (R433); it waits for the keys, and for the end of a test unlock (R437). -/
def execHeadSignDone (s : State) : Res :=
  match s.sec.headsDue with
  | [] => .next s
  | d :: rest =>
    if !s.on .SEC_STATUS_ATTEST_READY || s.on .SEC_STATUS_TEST_UNLOCKED || s.on .SEC_H_RNG_BAD then .next s
    else
      let body := s.headBody d.1 d.2
      let q := s.signBlock
      let s : State := q.1
      let s : State := { s with sec := { s.sec with headsDue := rest, signed := s.sec.signed ++ [(d.1, body ++ q.2)] } }
      .next ((s.set .SEC_AUDIT_SIGNED 0 d.1).secEvent 5 0 0 0xFF)

/-- A record of the ring with the signed head that follows it, body and signature block, where one is stored. -/
def State.auditEntry (s : State) (seq : Nat) : Option (List Nat) :=
  (s.sec.ring.find? fun e => e.1 == seq).map fun e =>
    e.2 ++ match s.sec.signed.find? fun h => h.1 == seq with | some h => h.2 | none => []

/-- Command 0x40: records and stored signed heads by sequence, absent ones as gap entries (R434, R340). -/
def execAuditRead (first count stream addr : Nat) (src : Src) (s : State) : Res :=
  let g := s.fwGate src .operator 19
  let any := s.sec.ring.any fun e => decide (first ≤ e.1) && decide (e.1 < first + count)
  if g ≠ .ok then .next (s.answer src 0x40 g)
  else if !any then .next (s.answer src 0x40 .range)
  else
    let d := (List.range count).flatMap fun i => (s.auditEntry (first + i)).getD (absentEntry (first + i))
    .next (s.exportTo src 0x40 stream addr d)

/-- Command 0x41: a signed head of the last durable record, not stored (R433). -/
def execAuditSign (src : Src) (s : State) : Res :=
  let g := s.signGate src .operator
  if g ≠ .ok then .next (s.answer src 0x41 g)
  else
    let body := s.headBody (s.get .SEC_AUDIT_SEQ) s.sec.head
    let q := s.signBlock
    .next ((q.1.emit (.reply src 0x41 (body ++ q.2))).answer src 0x41 .ok)

/-- What `AUDIT_RELEASE` meets: STATE under the wrap policy, RANGE unless it names the oldest groups. -/
def State.releaseCheck (s : State) (first groups : Nat) : Status :=
  if !s.on .SEC_CFG_AUDIT_POLICY then .state
  else if first ≠ s.get .SEC_AUDIT_OLDEST || groups = 0 || s.auditHeld < 4096 * groups then .range else .ok

/-- The oldest groups are freed (R434). -/
def effAuditRelease (first groups : Nat) (src : Src) (s : State) : State :=
  if s.releaseCheck first groups ≠ .ok then s.answer src 0x42 (s.releaseCheck first groups)
  else (List.range groups).foldl (fun s _ => s.dropGroup) s

/-- Command 0x42 (R434), by a maker. A held ring takes the command's record after the release that makes room for it. -/
def execAuditRelease (first groups : Nat) (src : Src) (s : State) : Res :=
  let g := s.fwGate src .maker 19
  let r := s.auditRec src 3 0 (first % 2 ^ 32) noValue noValue
  if g ≠ .ok then .next (s.answer src 0x42 g)
  else if s.releaseCheck first groups ≠ .ok then .next (s.answer src 0x42 (s.releaseCheck first groups))
  else if s.ringHeld then .next ((s.completed src 0x42 (effAuditRelease first groups src)).note src r)
  else .next (s.recorded src 0x42 (.auditRelease first groups src) r (effAuditRelease first groups src))

/-! ### Fuses (R418, R419) -/

/-- Value and width of the fuse field with a code of R449. -/
def State.fuse (s : State) (f : Nat) : Nat × Nat :=
  if f < 4 then (s.makerHash f, 256)
  else if f < 8 then ((s.bit .SEC_FUSE_STATE_SEAL 0 (f - 4)).toNat, 1)
  else if f < 12 then ((s.bit .SEC_FUSE_STATE_REVOKE 0 (f - 8)).toNat, 1)
  else if f = 12 then (s.get .SEC_FUSE_STATE_GEN0_REVOKED, 1)
  else if f = 13 then (s.get .SEC_H_FUSE_SVN, 63)
  else if f = 14 then (s.get .SEC_FUSE_STATE_SCAN_OFF, 1)
  else (s.get .SEC_H_FUSE_DECOM, 8)

/-- A run of set bits from bit 0. -/
def isRun (v : Nat) : Bool := v &&& (v + 1) == 0

/-- The maker slot that verified the active boot image: the signer of the image. -/
def State.bootSigner (s : State) : Nat := (s.bootSlot s.activeSlot).image.getD 12 0

/-- What refuses a fuse command (R419). -/
def State.fuseCheck (s : State) (f v : Nat) : Status :=
  if 16 ≤ f then .range
  else
    let q := s.fuse f
    if 2 ^ q.2 ≤ v || q.1 &&& v ≠ q.1 then .range
    else if (f = 13 || f = 15) && !isRun v then .range
    else if 4 ≤ f && f < 8 && v = 1 && s.makerHash (f - 4) = 0 then .state
    else if f < 4 && s.bit .SEC_FUSE_STATE_SEAL 0 f then .state
    else if 8 ≤ f && f < 12 && v = 1 && f - 8 = s.bootSigner then .state
    else if f = 12 && v = 1 && s.get .BOOT_FW_SVN_KEY_GEN = 0 then .state
    else if f = 13 && s.get .BOOT_FW_SVN_SVN < bitsSet v 63 then .state
    else .ok

/-- A fuse field takes a value. -/
def State.putFuse (s : State) (f v : Nat) : State :=
  if f < 4 then { s with sec := { s.sec with makerHash := s.sec.makerHash.set f v } }
  else if f < 8 then (if v = 1 then s.setBit .SEC_FUSE_STATE_SEAL 0 (f - 4) else s)
  else if f < 12 then (if v = 1 then s.setBit .SEC_FUSE_STATE_REVOKE 0 (f - 8) else s)
  else if f = 12 then s.set .SEC_FUSE_STATE_GEN0_REVOKED 0 v
  else if f = 13 then s.set .SEC_H_FUSE_SVN 0 v
  else if f = 14 then s.set .SEC_FUSE_STATE_SCAN_OFF 0 v
  else s.set .SEC_H_FUSE_DECOM 0 v

/-- The field is programmed, checked against the fuses as they then stand (R437). -/
def effFuseProgram (field value : Nat) (src : Src) (s : State) : State :=
  if s.fuseCheck field value ≠ .ok then s.answer src 0x60 (s.fuseCheck field value) else s.putFuse field value

/-- First 16 bytes of the SHA-256 of a fuse field's bytes. -/
def fuseDigest (q : Nat × Nat) : List Nat := (Config.sha256 (leBytes ((q.2 + 7) / 8) q.1)).take 16

/-- Command 0x60 (R419). -/
def execFuseProgram (field value : Nat) (src : Src) (s : State) : Res :=
  let g := s.fwGate src .maker 19
  if g ≠ .ok then .next (s.answer src 0x60 g)
  else if s.fuseCheck field value ≠ .ok then .next (s.answer src 0x60 (s.fuseCheck field value))
  else .next (s.recorded src 0x60 (.fuseProgram field value src)
    (s.auditRec src 8 6 field (fuseDigest (s.fuse field)) (fuseDigest (value, (s.fuse field).2)))
    (effFuseProgram field value src))

/-! ### Test unlock and decommission (R435, R436) -/

/-- CURRENT is IDLE and NEXT is EMPTY. -/
def State.jobsIdle (s : State) : Bool := !s.jobRuns && s.nextState == nextEmpty

/-- The test paths open (R435): every session ends, the key store is zeroised, and no key is derived until the next
reset. -/
def effTestUnlock (src : Src) (s : State) : State :=
  if s.on .SEC_FUSE_STATE_SCAN_OFF then s.answer src 0x61 .rights
  else if !s.jobsIdle then s.answer src 0x61 .state
  else
    let s := s.endAllSessions
    let s : State := { s with sec := { s.sec with keys := [], nonces := [] } }
    let s := ((s.set .SEC_STATUS_ATTEST_READY 0 0).set .SEC_STATUS_TEST_SINCE_POWER 0 1).set .SEC_STATUS_TEST_UNLOCKED 0 1
    s.secEvent 4 src.session (roleCode .maker) 0xFF

/-- Command 0x61 (R435). -/
def execTestUnlock (src : Src) (s : State) : Res :=
  let g := s.fwGate src .maker 19
  if g ≠ .ok then .next (s.answer src 0x61 g)
  else if s.on .SEC_FUSE_STATE_SCAN_OFF then .next (s.answer src 0x61 .rights)
  else if !s.jobsIdle then .next (s.answer src 0x61 .state)
  else .next (s.recorded src 0x61 (.testUnlock src) (s.auditRec src 9 0 0 noValue noValue) (effTestUnlock src))

/-- The decommission runs (R436): sessions end and the wipe follows. -/
def effDecommission (src : Src) (s : State) : State :=
  if !s.jobsIdle then s.answer src 0x62 .state
  else
    let s := (s.set .SEC_STATUS_WIPE_PENDING 0 1).answer src 0x62 .ok
    (s.sec.sessions.foldl (fun s x => s.endSession x.num) s).wipe

/-- Command 0x62 (R436). -/
def execDecommission (uid : Nat) (src : Src) (s : State) : Res :=
  let g := s.fwGate src .maker 19
  if g ≠ .ok then .next (s.answer src 0x62 g)
  else if uid ≠ s.get .SEC_FUSE_UID then .next (s.answer src 0x62 .range)
  else if !s.jobsIdle then .next (s.answer src 0x62 .state)
  else .next (s.recorded src 0x62 (.decommission uid src) (s.auditRec src 10 0 0 noValue noValue) (effDecommission src))

/-- A health test of the random source fails (R420). -/
def execRngFail (s : State) : Res := .next ((s.set .SEC_H_RNG_BAD 0 1).secEvent 6 0 0 0xFF)

end Sys2Proof.Machine
end

