-- ==== Sys2Proof/Machine/Bist.lean ====
section
/-! DEFINITION. Built-in self-test (19_self_test.md): field tests, the end of any test, and the end of a rolling test. -/

namespace Sys2Proof.Machine

/-! ### What may be tested (R462) -/

/-- Kinds a unit has: bit 0 memory, bit 1 logic, bit 2 analogue; 0 for an unknown unit. -/
def unitKinds (u : Nat) : Nat :=
  if u < 16 then 3 else if u = 16 then 7 else if u < 20 then 3 else if u < 33 then 4 else 0

/-- Kinds that only the JTAG instruction can start (R472): any of `SEC`, and logic of `MGT`. -/
def jtagOnly (u kinds : Nat) : Bool := u == 19 || (u == 18 && kinds.testBit 1)

/-- CURRENT `IDLE`, NEXT `EMPTY`, not draining, no replay. -/
def State.frontIdle (s : State) : Bool :=
  s.jobsIdle && !s.on .JOB_STATUS_DRAINING && (List.range 4).all fun p => s.get .ING_PLAY_STATUS_STATE p == 0

/-- The condition for a field test of a unit. -/
def State.testable (s : State) (u : Nat) : Bool :=
  if u < 8 then s.get .PIPE_H_STATE u == 2 && !s.bit .PWR_GATE 0 u
  else if u < 11 then s.frontIdle
  else match u with
    | 11 => s.on .REF_CTRL_FENCED
    | 12 => s.on .TSL_CTRL_FENCED
    | 13 => s.on .EGR_CTRL_FENCED
    | 14 => s.on .BRG_CTRL_FENCED
    | 15 => s.on .FAB_CTRL_FENCED
    | 16 => s.on .MEM_CTRL_FENCED
    | 17 => s.on .STO_CTRL_FENCED
    | 18 => s.updState == updIdle
    | 28 => s.on .EGR_CTRL_FENCED
    | 29 => s.on .EGR_CTRL_FENCED
    | 32 => true
    | _ => (List.range 4).all fun i => s.get .LANE_STATUS_STATE (4 * (u - 20) + i) == 0

/-- What a start meets (R474): RANGE, RIGHTS, BUSY or STATE. -/
def State.bistCheck (s : State) (u kinds : Nat) : Status :=
  if kinds = 0 || unitKinds u &&& kinds ≠ kinds then .range
  else if jtagOnly u kinds then .rights
  else if s.get .BIST_STATUS_STATE ≠ 0 then .busy
  else if s.testable u then .ok else .state

/-- A field test of a unit starts (R474, R475, R477); one of the management complex restarts it (R473). -/
def State.bistBegin (s : State) (u kinds level : Nat) : State :=
  let s := s.nextRun
  let sets : List (Fld × Nat) := [(.BIST_H_FRUN, s.get .BIST_H_RUN), (.BIST_H_UNIT, u), (.BIST_H_KINDS, kinds),
    (.BIST_H_LEVEL, level), (.BIST_H_T0, s.elapsed), (.BIST_H_STOPPED, 0), (.BIST_STATUS_STATE, 1), (.BIST_STATUS_UNIT, u)]
  sets.foldl (fun s q => s.set q.1 0 q.2) s

/-- A start takes effect or is refused; `BIST_STATUS.LAST` takes its status, and the reply carries the run number. -/
def State.bistStart (s : State) (u kinds level : Nat) (src : Src) (cmd : Nat) : State :=
  let st := s.bistCheck u kinds
  let s := s.set .BIST_STATUS_LAST 0 (statusCode st)
  if st ≠ .ok then s.answer src cmd st
  else
    let s := s.bistBegin u kinds level
    let s := if cmd = 0x70 then s.emit (.reply src cmd (leBytes 4 (s.get .BIST_H_FRUN))) else s
    let s := s.answer src cmd .ok
    if u = 18 then s.mgtRestart false else s

/-- The command's effect once its record is durable. -/
def effBistRun (unit kinds level : Nat) (src : Src) (s : State) : State := s.bistStart unit kinds level src 0x70

/-- A unit number that stands for no unit: what the BIST registers themselves belong to. -/
abbrev noUnit : Nat := 99

/-- Command 0x70 (R474), by an operator; RANGE for a level that R469 does not have (DESIGN CHOICE). -/
def execBistRun (unit kinds level : Nat) (src : Src) (s : State) : Res :=
  let g := s.fwGate src .operator noUnit
  let st := if g ≠ .ok then g else if 4 ≤ level then .range else s.bistCheck unit kinds
  if st ≠ .ok then .next ((s.set .BIST_STATUS_LAST 0 (statusCode st)).answer src 0x70 st)
  else .next (s.recorded src 0x70 (.bistRun unit kinds level src) (s.auditRec src 3 0 0 noValue noValue)
    (effBistRun unit kinds level src))

/-- The running field test is to end (R474). -/
def State.bistStop (s : State) (src : Src) (cmd : Nat) : State :=
  if s.get .BIST_STATUS_STATE = 0 then s.answer src cmd .state
  else ((s.set .BIST_H_STOPPED 0 1).set .BIST_STATUS_STATE 0 2).answer src cmd .ok

/-- The command's effect once its record is durable. -/
def effBistStop (src : Src) (s : State) : State := s.bistStop src 0x71

/-- Command 0x71 (R474), by an operator. -/
def execBistStop (src : Src) (s : State) : Res :=
  let g := s.fwGate src .operator noUnit
  if g ≠ .ok then .next (s.answer src 0x71 g)
  else if s.get .BIST_STATUS_STATE = 0 then .next (s.answer src 0x71 .state)
  else .next (s.recorded src 0x71 (.bistStop src) (s.auditRec src 3 0 0 noValue noValue) (effBistStop src))

/-- The result record of a unit; zeros where it has none. -/
def State.bistRecord (s : State) (u : Nat) : List Nat := tabGet s.bist.records u (List.replicate 32 0)

/-- Command 0x72 (R474, R477). -/
def execBistResult (unit : Nat) (src : Src) (s : State) : Res :=
  let g := s.fwGate src .operator noUnit
  if g ≠ .ok then .next (s.answer src 0x72 g)
  else if 33 ≤ unit then .next (s.answer src 0x72 .range)
  else .next ((s.emit (.reply src 0x72 (s.bistRecord unit))).answer src 0x72 .ok)

/-- Entry `i` of the fail log, 0 the newest; zeros where there is none. -/
def State.bistEntry (s : State) (i : Nat) : List Nat := s.bist.log.getD i (List.replicate 16 0)

/-- Command 0x73 (R467, R474). -/
def execBistLog (count : Nat) (src : Src) (s : State) : Res :=
  let g := s.fwGate src .operator noUnit
  if g ≠ .ok then .next (s.answer src 0x73 g)
  else if count = 0 || 64 < count then .next (s.answer src 0x73 .range)
  else .next ((s.emit (.reply src 0x73 ((List.range count).flatMap s.bistEntry))).answer src 0x73 .ok)

/-! ### The end of a test (R470, R476, R477) -/

/-- Result of a kind: 0 not requested, 3 not completed, 2 failed, 1 passed. -/
def kindResult (asked complete failed : Bool) : Nat := if !asked then 0 else if !complete then 3 else if failed then 2 else 1

/-- Sticky bit `k` of `BIST_EVENTS` with its event (R479). -/
def State.bistEvent (s : State) (k u run res : Nat) : State :=
  s.sticky .BIST_EVENTS_EV 0 k .BIST_EVENT_EN 0 k 0x0003 u (k + 1) (argAt 16 run + argAt 20 res)

/-- A unit is reset after its test as its reset bit does, and takes a new generation (R476,
20_power_sleep_reset.md R486). -/
def State.unitReset (s : State) (u : Nat) : State :=
  if u < 8 then effPipeReset u s
  else match u with
    | 8 => s.ingData.newGeneration 6
    | 9 => s.synData.newGeneration 7
    | 10 => s.mrgData.newGeneration 16
    | 11 => effRefReset s
    | 12 => effTslReset s
    | 13 => effEgrReset s
    | 14 => effBrgReset s
    | 15 => effFabReset s
    | 16 => effMemReset ⟨.mgt, 0⟩ s
    | 17 => effStoReset s
    | 18 => s.newGeneration 0
    | _ => s

/-- The record and health that a test leaves, its findings and its events; answers the state and the overall result. -/
def State.testOver (s : State) (u kinds level run flags : Nat) (d : TestData) : State × Nat :=
  let mine := d.bad.filter fun b => kinds.testBit 0 && b.unit == u
  let q := s.repairUnit u run mine
  let s : State := { q.s with bist := { q.s.bist with
    faults := (q.s.bist.faults ++ mine).eraseDups
    values := (q.s.bist.values.filter fun v => v.1 % 64 != u) ++ d.values.filter fun v => v.1 % 64 == u } }
  let prog := if kinds.testBit 1 then patternsOf level else 0
  let applied := min d.applied prog
  let m := kindResult (kinds.testBit 0) d.memory q.failed
  let l := kindResult (kinds.testBit 1) (applied == prog) (!d.expected)
  let a := kindResult (kinds.testBit 2) d.analogue (!d.items.isEmpty)
  let items := if kinds.testBit 2 then maskOf (d.items.filter fun i => decide (i < 16)) else 0
  let overall := overallOf m l a
  let res := resultByte m l a
  let s := s.putRecord u ([u, kinds, res, q.repaired.toNat + 2 * q.failed.toNat + flags] ++ leBytes 4 prog ++
    leBytes 4 applied ++ leBytes 8 d.misr ++ leBytes 2 q.entries ++ leBytes 2 items ++ leBytes 8 s.now) overall
  let s := if flags.testBit 5 then s else s.bistEvent 0 u run res
  let s := if overall = 2 then s.bistEvent 1 u run res else s
  let s := if q.repaired then s.bistEvent 2 u run res else s
  let s := if overall = 3 && !flags.testBit 5 then s.bistEvent 3 u run res else s
  (s, overall)

/-- A pipe that failed is fenced in the clock in which its test ends (R476). -/
def State.fenceFailed (s : State) (u overall : Nat) : State :=
  if u < 8 && overall = 2 then s.set .PIPE_CTRL_FENCE u 1 else s

/-- The field test in progress ends; `flags` are those of sleep and timeout. The unit is reset and answers again, and a
held selection is served (R465). -/
def State.fieldEnd (s : State) (flags : Nat) (d : TestData) : State :=
  let u := s.get .BIST_H_UNIT
  let flags := flags + (if s.on .BIST_H_STOPPED then 4 else 0)
  let q := s.testOver u (s.get .BIST_H_KINDS) (s.get .BIST_H_LEVEL) (s.get .BIST_H_FRUN) flags d
  let sets : List (Fld × Nat) := [(.BIST_H_UNIT, 63), (.BIST_STATUS_STATE, 0), (.BIST_STATUS_UNIT, 0), (.BIST_H_STOPPED, 0)]
  let s := sets.foldl (fun s q => s.set q.1 0 q.2) (q.1.fenceFailed u q.2)
  (s.unitReset u).serveLatch

/-- A rolling test of pipe `p` ends (05_pipeline_contexts.md R144, R149): counted, `ROLL_DONE` set with its event, and the
pipe, reset, goes back to scheduling. -/
def State.rollEnd (s : State) (flags : Nat) (d : TestData) : State :=
  let p := s.get .PIPE_ROLL_STATUS_PIPE
  let flags := flags + 32
  let q := s.testOver p 3 (s.get .BIST_CFG_ROLL_LEVEL) (s.get .BIST_H_ROLLRUN) flags d
  let s := ((q.1.set .PIPE_ROLL_STATUS_RESULT 0 q.2).inc .PIPE_ROLL_STATUS_TESTS).set .PIPE_ROLL_STATUS_STATE 0
    (if s.on .PIPE_ROLL_CTRL_AUTO then 3 else 0)
  let s := effPipeReset p (s.fenceFailed p q.2)
  s.sticky .PIPE_EVENTS_EV p 2 .PIPE_EVENT_EN_ROLL 0 0 0x0020 p 0x0021 (argAt 23 q.2)

/-- What a test that did nothing found. -/
def noData (rolling : Bool) : TestData := ⟨rolling, false, [], 0, 0, false, false, [], []⟩

/-- A test ends (R476): the rolling test's or the field test. -/
def execBistTestEnd (d : TestData) (s : State) : Res :=
  if d.rolling then
    if s.get .PIPE_ROLL_STATUS_STATE = 2 then .next (s.rollEnd 0 d) else .next s
  else if s.get .BIST_H_UNIT = 63 then .next s
  else .next (s.fieldEnd 0 d)

/-- 4.6 s. -/
abbrev testLimit : Nat := 4600000000

/-- A test still runs 4.6 s after it started (R476). -/
def execBistTimeout (d : TestData) (s : State) : Res :=
  if d.rolling then
    if s.get .PIPE_ROLL_STATUS_STATE = 2 && decide (s.get .BIST_H_ROLLT0 + testLimit ≤ s.elapsed) then .next (s.rollEnd 16 d)
    else .next s
  else if s.get .BIST_H_UNIT ≠ 63 && decide (s.get .BIST_H_T0 + testLimit ≤ s.elapsed) then .next (s.fieldEnd 16 d)
  else .next s

/-- What a test that is stopped has found: nothing, with patterns applied short of those programmed and the MISR as free
values. -/
def State.stoppedData (s : State) : TestData :=
  { noData true with applied := s.free % max 1 (patternsOf (s.get .BIST_CFG_ROLL_LEVEL)), misr := s.drawn.free % 2 ^ 64 }

/-- A rolling test whose pipe is still being withdrawn ends with nothing tested (R470, R478; 05_pipeline_contexts.md R144): the
pipe goes on at once. `flags` are those of stop or sleep. -/
def State.rollCancel (s : State) (flags : Nat) : State :=
  let p := s.get .PIPE_ROLL_STATUS_PIPE
  let q := s.testOver p 3 (s.get .BIST_CFG_ROLL_LEVEL) (s.get .BIST_H_ROLLRUN) (flags + 32) (noData true)
  let s := ((q.1.set .PIPE_ROLL_STATUS_RESULT 0 q.2).inc .PIPE_ROLL_STATUS_TESTS).set .PIPE_ROLL_STATUS_STATE 0
    (if s.on .PIPE_ROLL_CTRL_AUTO then 3 else 0)
  s.sticky .PIPE_EVENTS_EV p 2 .PIPE_EVENT_EN_ROLL 0 0 0x0020 p 0x0021 (argAt 23 q.2)

/-- The rolling test stops (05_pipeline_contexts.md R144): a pipe still being withdrawn returns at once with nothing
tested, a test in progress ends with `INCOMPLETE` and its pipe returns. -/
def effRollStop (s : State) : State :=
  let s := s.set .PIPE_ROLL_CTRL_AUTO 0 0
  let st := s.get .PIPE_ROLL_STATUS_STATE
  if st = 1 then s.rollCancel 4
  else if st = 2 then s.drawn.drawn.rollEnd 4 s.stoppedData
  else s.set .PIPE_ROLL_STATUS_STATE 0 0

/-- `PIPE_ROLL_CTRL.STOP`. -/
def execRollStop (src : Src) (s : State) : Res :=
  let g := s.gate src .operator noUnit
  if g ≠ .ok then .next (s.answer src 0 g) else .next ((effRollStop s).answer src 0 .ok)

end Sys2Proof.Machine
end

