-- ==== Sys2Proof/Machine/Pwr.lean ====
section
/-! DEFINITION. Power, sleep and reset (20_power_sleep_reset.md): causes of resets and restarts, the request and drain of SLEEP,
wake, power gating of pipes, and temperature. The end of the entry to SLEEP stands in Sleep.lean. -/

namespace Sys2Proof.Machine

/-! ### Resets and losses of power (R481, R482, R484, R490, R502) -/

/-- `MAX` in degrees C. -/
def State.maxTemp (s : State) : Int := toSigned 8 (s.get .PWR_THERM_STATUS_MAX)

/-- A device reset after which the silicon has these failing bits; a trip that lies before it shows as cause 6 and
`TRIP_SEEN` (R501). -/
def State.resetFrom (s : State) (cause : Nat) (bad : List BadBit) : State :=
  let trip := s.on .PWR_H_TRIP
  let s : State := { s with bist := { s.bist with faults := bad } }
  let s := s.deviceReset (if trip then 6 else cause)
  if trip then (s.set .PWR_H_TRIP 0 0).pwrEvent 7 0xFFFF 0 0 else s

/-- The rails come up and `RESET_N` is released (R481 to R483): the core voltage takes its fused code, and a device that
tripped stays held while it is hot (R501). `max` is the highest reading then. -/
def execPowerOn (bad : List BadBit) (max avs : Nat) (s : State) : Res :=
  let s := ((s.set .PWR_AVS_CODE 0 16).emit (.pin "AVS_VID" 0 16)).set .PWR_THERM_STATUS_MAX 0 max
  let s := s.set .PWR_H_OFF 0 0
  if s.on .PWR_H_TRIP && decide (95 < s.maxTemp) then .next (s.set .PWR_H_HELD 0 1).notify
  else
    let s := ((s.set .PWR_SLEEP_COUNT 0 0).set .SEC_STATUS_TEST_SINCE_POWER 0 0).resetFrom 0 bad
    .next ((s.set .PWR_AVS_CODE 0 (min avs 16)).emit (.pin "AVS_VID" 0 (min avs 16)))

/-- `RESET_N` has been low for 10 µs and is released (R484): a device reset, unless the device is without power or held hot
after a trip (R501). -/
def execResetPin (bad : List BadBit) (s : State) : Res :=
  if s.on .PWR_H_OFF || (s.on .PWR_H_TRIP && decide (95 < s.maxTemp)) then .next s
  else .next (s.resetFrom (if s.bootFailed then 5 else 1) bad)

/-- Cells of the thermos that are lost with `VAON` (R482, R490). -/
def thermosFields : List Fld := [
  .PWR_RTC_SEC, .PWR_RTC_HI_TICKS, .PWR_RTC_HI_RTC_VALID, .PWR_H_RTCACC, .PWR_ALARM, .PWR_SLEEP_LAST_SECONDS, .PWR_SLEEP_COUNT,
  .PWR_H_STOPT, .PWR_H_STOPR, .PWR_H_SCRUBT, .BOOT_H_TRIALBIT, .SEC_STATUS_TEST_SINCE_POWER, .SEC_STATUS_WIPE_PENDING,
  .MGT_I3C_STATUS_DYN_ADDR, .MGT_I3C_STATUS_DA_VALID, .MGT_I3C_STATUS_IBI_EN, .PWR_H_KEPT_RUNG, .MEM_TEMP_LEVELS,
  .PWR_AVS_CODE, .PWR_STATUS_RESET_CAUSE, .PWR_H_TRIP]

/-- `VAON` falls below 1.5 V: the thermos clears. -/
def execVaonLoss (s : State) : Res :=
  let ids := thermosFields.map Fld.id
  .next { s with cells := s.cells.filter fun c => !ids.contains c.1.1 }

/-- The rails other than `VAON` are lost (R482, R502): LPDDR5X loses its contents, and the device waits for a power-up. -/
def execRailLoss (s : State) : Res :=
  let s : State := { s with mem := s.mem.filter fun c => !(decide (dramBase ≤ c.1) && decide (c.1 < 2 * dramBase)) }
  .next (s.clearDevice.set .PWR_H_OFF 0 1)

/-- The crystal has stopped for more than 1 ms (R490). -/
def execCrystalStop (s : State) : Res := .next (s.set .PWR_RTC_HI_RTC_VALID 0 0)

/-! ### Restarts of the management complex (R485) -/

/-- The management complex runs firmware. -/
def State.mgtRuns (s : State) : Bool := s.get .BOOT_STATUS_STATE == 1 && !s.on .BOOT_H_AWAY && !s.unreachable

/-- The two cores disagree. -/
def execLockstepMismatch (s : State) : Res := if s.mgtRuns then .next (s.mgtRestart false) else .next s

/-- The watchdog has not been kicked for 1 s. -/
def execWatchdogTimeout (s : State) : Res := if s.mgtRuns then .next (s.mgtRestart false) else .next s

/-- Addresses of `PWR_CTRL` and `PWR_GATE`. -/
abbrev pwrCtrl : Nat := 0x20004
abbrev pwrGate : Nat := 0x20040

/-- The restart a maker asked for; the write completes first. -/
def effMgtRestart (src : Src) (s : State) : State := (s.answer src pwrCtrl .ok).mgtRestart false

/-- `PWR_CTRL.MGT_RESTART`; maker. -/
def execMgtRestart (src : Src) (s : State) : Res :=
  let g := s.gate src .maker noUnit
  if g ≠ .ok then .next (s.answer src pwrCtrl g)
  else .next (s.recorded src pwrCtrl (.mgtRestart src) (s.writeRec src pwrCtrl 2) (effMgtRestart src))

/-! ### The request for SLEEP (R491, R492) -/

/-- The power state, as `PWR_STATUS` shows it too. -/
def State.pwrState (s : State) (v : Nat) : State := (s.set .PWR_H_STATE 0 v).set .PWR_STATUS_STATE 0 v

/-- An encoder in use has moved in the last 10 ms. -/
def State.webMoves (s : State) : Bool :=
  (List.range 4).any fun n => s.encoderUsed n && s.on .PWR_H_MOVEV n && decide (s.elapsed < s.get .PWR_H_MOVET n + 10000000)

/-- Sleep is refused with STATE. -/
def State.sleepBarred (s : State) : Bool :=
  s.get .PWR_H_STATE != 0 || (1 ≤ s.updState && s.updState ≤ 3) || s.on .SEC_STATUS_TEST_UNLOCKED ||
    s.on .SEC_STATUS_WIPE_PENDING || s.webMoves

/-- Sleep is refused: `SLEEP_REFUSED` with the status. -/
def State.sleepRefused (s : State) (src : Src) (cmd : Nat) (st : Status) : State :=
  (if st = .targetReset then s else s.pwrEvent 1 0xFFFF (statusCode st) 0).answer src cmd st

/-- Entry begins (R493 step 1): NEXT is cancelled and every trigger generator suspended. -/
def State.sleepBegin (s : State) : State :=
  let sets : List (Fld × Nat) := [(.PWR_H_DRAINED, 0), (.PWR_H_LATCHED, 16), (.PWR_H_ENTERT, s.elapsed), (.PWR_H_STEPPED, 0),
    (.PWR_H_SUSPEND, 1), (.PWR_H_ACTIVET, 0)]
  let s := sets.foldl (fun s q => s.set q.1 0 q.2) (s.pwrState 1)
  if s.nextState = nextEmpty then s else s.cancelNext

/-- Command 0x78 (R492, R503), by an installer: the mask replaces `WAKE_EN`, and the alarm is set. -/
def execPwrSleep (mask alarm : Nat) (src : Src) (s : State) : Res :=
  let g := s.fwGate src .installer noUnit
  if g ≠ .ok then .next (s.sleepRefused src 0x78 g)
  else if mask.testBit 3 && alarm ≠ 0 && alarm ≤ s.get .PWR_RTC_SEC then .next (s.sleepRefused src 0x78 .range)
  else if s.sleepBarred then .next (s.sleepRefused src 0x78 .state)
  else .next ((((s.set .PWR_CFG_WAKE_EN 0 mask).set .PWR_ALARM 0 alarm).sleepBegin).answer src 0x78 .ok)

/-- `PWR_CTRL.SLEEP`, by the management processor only (R491). -/
def execPwrCtrlSleep (src : Src) (s : State) : Res :=
  let g := s.gate src .device noUnit
  if g ≠ .ok then .next (if g = .rights then s.answer src pwrCtrl g else s.sleepRefused src pwrCtrl g)
  else if s.sleepBarred then .next (s.sleepRefused src pwrCtrl .state)
  else .next (s.sleepBegin.answer src pwrCtrl .ok)

/-! ### The drain (R493 step 2) -/

/-- The data plane holds nothing. -/
def State.planeEmpty (s : State) : Bool :=
  s.frames.isEmpty && s.blankets.isEmpty && s.ref.frames.isEmpty && s.products.isEmpty && s.egr.offers.isEmpty &&
    s.egr.queue.isEmpty && s.pipe.holds.isEmpty && s.pipe.running.isEmpty && s.pipe.toMerger.isEmpty

/-- The data plane has drained. -/
def execSleepDrainDone (s : State) : Res :=
  if s.get .PWR_H_STATE = 1 && !s.on .PWR_H_DRAINED && s.planeEmpty then .next (s.set .PWR_H_DRAINED 0 1) else .next s

/-- Frames with no stripe started are refused with FENCED on their streams. -/
def State.refuseUnstarted (s : State) : State :=
  let gone := s.frames.filter fun f => f.work.started.isEmpty && !f.work.refused
  gone.foldl (fun s f => s.refuseFrame f 12 (s.bankStreams f.ch (f.work.bank.getD 0))) s

/-- `DRAIN_MS` has passed: frames with no stripe started and deliveries not started are refused with FENCED, and
`DRAIN_CUT` is set. -/
def execSleepDrainLimit (s : State) : Res :=
  if s.get .PWR_H_STATE = 1 && !s.on .PWR_H_DRAINED && decide (s.get .PWR_H_ENTERT + s.get .PWR_CFG_DRAIN_MS * 1000000 ≤ s.elapsed)
  then
    let s := (s.set .PWR_H_DRAINED 0 1).refuseUnstarted
    let waiting := s.egr.queue.filter fun d => !d.started
    let s := waiting.foldl (fun s d => s.refuseQueued d 12) s
    .next (s.pwrEvent 2 0xFFFF 0 0)
  else .next s

/-! ### Wake (R496, R497) -/

/-- The RTC moves on by ticks. -/
def State.rtcAdvance (s : State) (ticks : Nat) : State :=
  let t := s.get .PWR_RTC_HI_TICKS + ticks
  (s.set .PWR_RTC_HI_TICKS 0 (t % 32768)).bump .PWR_RTC_SEC 0 (t / 32768)

/-- RTC ticks since the RTC's zero. -/
def State.rtcTicks (s : State) : Nat := s.get .PWR_RTC_SEC * 32768 + s.get .PWR_RTC_HI_TICKS

/-- An enabled lane whose quad has a role trains on wake, with its kept rung first where it has one (02_lane_complex.md R23,
R54). -/
def State.wakeLane (s : State) (n : Nat) : State :=
  if s.on .LANE_CTRL_ENABLE n && s.get .LANE_ID_ROLE n ≠ 0 then
    (s.set .LANE_H_RESUME n (if s.get .PWR_H_KEPT_RUNG n = 0 then 0 else 1)).enterDetect n
  else s

/-- Wake steps begin: lanes train. -/
def State.wakeBegin (s : State) (source : Nat) : State :=
  let s := (((s.pwrState 3).set .PWR_STATUS_WAKE_SRC 0 source).set .PWR_H_LATCHED 0 16).set .PWR_H_WAKET 0 s.elapsed
  (List.range 48).foldl (fun s n => s.wakeLane n) s

/-- A wake event of an enabled source: it wakes the device from SLEEP, and is latched during entry (R491). -/
def State.wakeEvent (s : State) (source : Nat) : State :=
  if !s.bit .PWR_CFG_WAKE_EN 0 source then s
  else if s.get .PWR_H_STATE = 2 then s.wakeBegin source
  else if s.get .PWR_H_STATE = 1 && s.get .PWR_H_LATCHED = 16 then s.set .PWR_H_LATCHED 0 source
  else s

/-- A filtered rising edge of `WAKE`, `ticks` of the RTC later. -/
def execWakePin (ticks : Nat) (s : State) : Res := .next ((s.rtcAdvance ticks).wakeEvent 0)

/-- A transaction to the device's address in SLEEP (18_i3c_management_port.md R458): not acknowledged, and it wakes. -/
def execAddressMatchWake (ticks : Nat) (s : State) : Res :=
  let s := s.rtcAdvance ticks
  if s.get .PWR_H_STATE = 2 then .next ((s.emit (.i3c false [])).wakeEvent 1) else .next s

/-- Signal for 10 µs on a fabric lane: it wakes unless the lane's port is of version 1 (15_botex_fabric.md R387). -/
def execBotexWake (lane ticks : Nat) (s : State) : Res :=
  let s := s.rtcAdvance ticks
  if s.get .LANE_ID_ROLE lane = 3 && s.get .FAB_PORT_STATUS_VER (lanePort lane) ≠ 1 then .next (s.wakeEvent 2) else .next s

/-- RTC seconds reach the alarm. -/
def execRtcAlarm (ticks : Nat) (s : State) : Res :=
  let s := s.rtcAdvance ticks
  if s.get .PWR_ALARM ≠ 0 && s.get .PWR_ALARM ≤ s.get .PWR_RTC_SEC then .next (s.wakeEvent 3) else .next s

/-- Nanoseconds of RTC ticks, 30,517.578125 each, rounded (R497). -/
def ticksNs (n : Nat) : Nat := (n * 30517578125 + 500000) / 1000000

/-- Time on wake (R497, R502): the stored value plus the time slept, or without it where the RTC is not valid. -/
def State.wakeTime (s : State) : State :=
  let n := s.rtcTicks - s.get .PWR_H_STOPR
  let s := s.set .PWR_SLEEP_LAST_SECONDS 0 (min (n / 32768) (2 ^ 32 - 1))
  let s := s.set .SYN_TB_H_FRAC 0 0
  if s.on .PWR_RTC_HI_RTC_VALID then s.set .SYN_TB_TIME 0 (min (s.get .PWR_H_STOPT + ticksNs n) (2 ^ 64 - 1))
  else ((s.set .SYN_TB_TIME 0 (s.get .PWR_H_STOPT)).pwrEvent 8 0xFFFF 0 0).stampsLost

/-- The firmware's code is checked from its copy in LPDDR5X, or taken from the active slot (16_boot_image.md R410). -/
def State.wakeFirmware (s : State) (copyOk : Bool) (fw : Sigs) : State :=
  if copyOk then s.mgtBack 2
  else
    let s := s.bootEvent 6 s.activeSlot 0 0xF (s.bootSlot s.activeSlot).seq
    match s.reload fw with
    | some t => t.mgtBack 3
    | none => s

/-- No lane is waited for (R496): each is ACTIVE or has left its resume attempt, or 3.45 ms have passed since the wake
event. -/
def State.wakeLanesOver (s : State) : Bool :=
  decide (s.get .PWR_H_WAKET + 3450000 ≤ s.elapsed) ||
    (List.range 48).all fun n => s.laneState n == laneActive || !s.on .LANE_H_RESUME n

/-- The wake steps are complete: the device is ACTIVE (R496). `full` names the channels that ran full training
(14_memory_subsystem.md R360). -/
def execWakeDone (copyOk : Bool) (fw : Sigs) (full : Nat) (s : State) : Res :=
  if s.get .PWR_H_STATE ≠ 3 || !s.wakeLanesOver then .next s
  else
    let s := (s.set .MEM_H_SELF 0 0).set .MEM_STATUS_TRAINED 0 1
    let s := ((List.range 16).filter fun c => full.testBit c).foldl (fun s c => s.memEvent 6 c 0 0) s
    let s := ((s.wakeTime.pwrState 0).set .PWR_H_ACTIVET 0 0).set .PWR_H_STEPPED 0 0
    let s := s.pwrEvent 0 0xFFFF (s.get .PWR_STATUS_WAKE_SRC) (s.get .PWR_SLEEP_LAST_SECONDS)
    .next (s.wakeFirmware copyOk fw)

/-- Suspended generators resume (R498): after the first step of the timebase, when the source is the device's own, or
`RESUME_MS` after ACTIVE. -/
def State.resumeDue (s : State) : Bool :=
  s.on .PWR_H_STEPPED || s.get .SYN_TB_CTRL_SRC == 0 ||
    decide (max 1 (s.get .PWR_CFG_RESUME_MS) * 1200000 ≤ s.get .PWR_H_ACTIVET)

/-- A generator with `EN` 1 arms again under R102. -/
def State.rearm (s : State) (c : Nat) : State :=
  let s := s.set .SYN_CH_STATUS_ARMED c 0
  if s.on .SYN_CH_TRIG_CFG_EN c && !s.on .SYN_CH_TRIG_CFG_ARM c && s.on .SYN_CH_H_HASPITCH c then s.armNow c else s

/-- The moment of resume (R498): generators arm again, and the next edge of every mark is adopted unchecked. -/
def execTriggerResume (s : State) : Res :=
  if s.on .PWR_H_SUSPEND && s.get .PWR_H_STATE == 0 && s.resumeDue then
    .next ((List.range 128).foldl State.rearm ((s.set .PWR_H_SUSPEND 0 0).set .PWR_H_ADOPT 0 15))
  else .next s

/-! ### Commands (R503) -/

/-- Command 0x79: the registers from `PWR_STATUS` to `PWR_SLEEP_COUNT`. -/
def execPwrQuery (src : Src) (s : State) : Res :=
  let g := s.fwGate src .operator noUnit
  if g ≠ .ok then .next (s.answer src 0x79 g)
  else .next ((s.emit (.reply src 0x79 ((List.range 10).flatMap fun i => leBytes 4 (s.plainWord (0x20000 + 4 * i))))).answer
    src 0x79 .ok)

/-- The RTC takes a time and is valid (R490). -/
def effPwrRtcSet (sec : Nat) (s : State) : State :=
  let sets : List (Fld × Nat) := [(.PWR_RTC_SEC, sec), (.PWR_RTC_HI_TICKS, 0), (.PWR_H_RTCACC, 0), (.PWR_RTC_HI_RTC_VALID, 1)]
  sets.foldl (fun s q => s.set q.1 0 q.2) s

/-- Command 0x7A, by an installer; recorded. -/
def execPwrRtcSet (sec : Nat) (src : Src) (s : State) : Res :=
  let g := s.fwGate src .installer noUnit
  if g ≠ .ok then .next (s.answer src 0x7A g)
  else .next (s.recorded src 0x7A (.pwrRtcSet sec src) (s.auditRec src 3 0 0 noValue noValue) (effPwrRtcSet sec))

/-- The device resets; the command completes first. -/
def effPwrReset (src : Src) (s : State) : State := (s.answer src 0x7B .ok).deviceReset 2

/-- Command 0x7B, by a maker; after its record is durable. -/
def execPwrReset (uid : Nat) (src : Src) (s : State) : Res :=
  let g := s.fwGate src .maker noUnit
  if g ≠ .ok then .next (s.answer src 0x7B g)
  else if uid ≠ s.get .SEC_FUSE_UID then .next (s.answer src 0x7B .range)
  else .next (s.recorded src 0x7B (.pwrReset uid src) (s.auditRec src 3 0 0 noValue noValue) (effPwrReset src))

/-! ### Power gating of pipes (R499) -/

/-- Pipes that a write of `v` gates anew. -/
def State.newlyGated (s : State) (v : Nat) : List Nat := (List.range 8).filter fun p => v.testBit p && !s.bit .PWR_GATE 0 p

/-- A pipe is powered down: a new generation, and its context slots are lost. -/
def State.gatePipe (s : State) (p : Nat) : State :=
  ({ s with pipe := { s.pipe with slot := tabErase (tabErase s.pipe.slot (2 * p)) (2 * p + 1) } } : State).newGeneration (8 + p)

/-- `PWR_GATE` takes a value; STATE unless every pipe to be powered down reads FENCED. -/
def effPipeGate (v : Nat) (src : Src) (s : State) : State :=
  let l := s.newlyGated v
  if l.all fun p => s.get .PIPE_H_STATE p == 2 then l.foldl State.gatePipe (s.set .PWR_GATE 0 v)
  else s.answer src pwrGate .state

/-- A write of `PWR_GATE`, by an installer. -/
def execPipeGate (v : Nat) (src : Src) (s : State) : Res :=
  let g := s.gate src .installer noUnit
  if g ≠ .ok then .next (s.answer src pwrGate g)
  else if !(s.newlyGated v).all fun p => s.get .PIPE_H_STATE p == 2 then .next (s.answer src pwrGate .state)
  else .next (s.recorded src pwrGate (.pipeGate v src) (s.writeRec src pwrGate (v % 256)) (effPipeGate v src))

/-- `CLR_CNT` clears the counts of dropped completions (R515). -/
def State.pwrClrCnt (s : State) : State := (List.range 24).foldl (fun s b => s.set .PWR_CNT_STALE b 0) s

/-- The command form of `CLR_CNT`. -/
def execPwrClrCnt (src : Src) (s : State) : Res :=
  let g := s.gate src .operator noUnit
  if g ≠ .ok then .next (s.answer src pwrCtrl g) else .next (s.pwrClrCnt.answer src pwrCtrl .ok)

/-! ### Temperature (R500, R501) -/

/-- The sensor of the highest reading, the lowest number where several agree, and the reading. -/
def hottest (temps : List Nat) : Nat × Int :=
  (List.range 8).foldl (fun q i => if q.2 < toSigned 8 (temps.getD i 0) then (i, toSigned 8 (temps.getD i 0)) else q)
    (0, toSigned 8 (temps.getD 0 0))

/-- A threshold with hysteresis: whether it stands exceeded after a reading. -/
def exceeds (was : Bool) (t up down : Int) : Bool := if was then decide (down < t) else decide (up ≤ t)

/-- The eight sensors are read; `TJ_WARN` and `TJ_OVER` are set on crossing upward (R500). -/
def execTempSample (temps : List Nat) (s : State) : Res :=
  let s := (List.range 8).foldl (fun s i => s.set .PWR_TEMP_T i (temps.getD i 0)) s
  let h := hottest temps
  let s := (s.set .PWR_THERM_STATUS_MAX 0 (ofSigned 8 h.2)).set .PWR_THERM_STATUS_SENSOR 0 h.1
  let thr : Int := (s.get .PWR_THERM_CFG_TJ_WARN : Nat)
  let w := s.on .PWR_H_OVER
  let o := s.on .PWR_H_OVER2
  let w' := exceeds w h.2 thr (thr - 5)
  let o' := exceeds o h.2 105 100
  let s := (s.set .PWR_H_OVER 0 w'.toNat).set .PWR_H_OVER2 0 o'.toNat
  let s := if w' && !w then s.pwrEvent 3 0xFFFF 0 0 else s
  .next (if o' && !o then s.pwrEvent 4 0xFFFF 0 0 else s)

/-- A trip is due: 115 degrees C, or a DRAM channel at level 3 for 10 s. -/
def State.tripDue (s : State) : Bool :=
  decide (115 ≤ s.maxTemp) || (List.range 16).any fun c => bits (s.get .MEM_TEMP_LEVELS) (2 * c) 2 == 3 &&
    decide (s.get .MEM_H_HOT c + 10000000000 ≤ s.elapsed)

/-- A thermal trip (R501): lanes, LPDDR5X and NAND stop, the trip flag is set, and the device is held in reset with `IRQ_N`
low. The sensors are read on. -/
def execThermalTrip (s : State) : Res :=
  if s.on .PWR_H_HELD || s.on .PWR_H_OFF || !s.tripDue then .next s
  else
    let max := s.get .PWR_THERM_STATUS_MAX
    let sensor := s.get .PWR_THERM_STATUS_SENSOR
    let sets : List (Fld × Nat) := [(.PWR_THERM_STATUS_MAX, max), (.PWR_THERM_STATUS_SENSOR, sensor), (.MEM_H_SELF, 1),
      (.PWR_H_TRIP, 1), (.PWR_H_HELD, 1)]
    .next (sets.foldl (fun s q => s.set q.1 0 q.2) s.clearDevice).notify

end Sys2Proof.Machine
end

