-- ==== Sys2Proof/Machine/RegView.lean ====
section
/-! DEFINITION. Reading a register (21_register_map.md R505 to R513): how the space is decoded, the checks of an access, the
values that registers show of other state, and the latch of a 64-bit value. -/

namespace Sys2Proof.Machine

/-! ### The space (R505) -/

/-- An address in a range that is not decoded. -/
def notDecoded (a : Nat) : Bool :=
  (0x60000 ≤ a && a < 0x100000) || (0x130000 ≤ a && a < 0x140000) || (0x580000 ≤ a && a < 0x10000000) ||
    (0x20000000 ≤ a && a < 0x1000000000) || 0x2000000000 ≤ a

/-- The unit of 19_self_test.md R462 behind a register address; `noUnit` where the block is none. -/
def addrUnit (a : Nat) : Nat :=
  if a < 0x10000 then 18
  else if a < 0x20000 then 19
  else if a < 0x100000 then noUnit
  else if a < 0x140000 then 20 + (a - 0x100000) / 0x4000
  else if a < 0x180000 then 8
  else if a < 0x200000 then 9
  else if a < 0x280000 then (a - 0x200000) / 0x10000
  else if a < 0x300000 then noUnit
  else if a < 0x340000 then 10
  else if a < 0x380000 then 11
  else if a < 0x400000 then 12
  else if a < 0x440000 then 13
  else if a < 0x480000 then 14
  else if a < 0x500000 then 15
  else if a < 0x540000 then 16
  else 17

/-- A status register that stays readable while its unit is under test (19_self_test.md R464). -/
def testReadable (a : Nat) : Bool :=
  match regFind a with
  | some (r, _) => [0x200000, 0x500000, 0x100008, 0x480000].contains r.base
  | none => false

/-- What role none may read (17_roles_security_audit.md R416): the `BOOT` block, `SEC_STATUS` and the `SEC_FUSE_`
registers. -/
def openRead (a : Nat) : Bool := (0x40000 ≤ a && a < 0x50000) || (0x10000 ≤ a && a ≤ 0x1000C)

/-- The page of an egress port that the port mode lacks (10_egress_delivery.md R252, R506). -/
def State.absentPage (s : State) (a : Nat) : Bool :=
  0x400000 ≤ a && a < 0x402000 && s.portCount ≤ (a - 0x400000) / 0x400

/-- Steps 1 to 3 of R508 for a register access; after a failed boot only the `BOOT` block answers
(16_boot_image.md R408). -/
def State.regReach (s : State) (a : Nat) (write : Bool) : Status :=
  let u := addrUnit a
  if notDecoded a || a % 4 ≠ 0 then .range
  else if s.bootFailed && (write || !(0x40000 ≤ a && a < 0x50000)) then .state
  else if s.unreachable then .targetReset
  else if s.unitDown u && !(!write && decide (u < 8) && a % 0x10000 == 0 && s.get .PIPE_H_STATE u != 4) then .targetReset
  else if s.inTest u && (write || !testReadable a) then .selftest
  else .ok

/-! ### Values shown of other state -/

/-- Word `i` of the 32 bytes of an entry; zeros where there is none. -/
def wordOf (l : List Nat) (i : Nat) : Nat := leAt l (4 * i) 4

/-- The 32 bytes of an event (01_frame_journey.md R17). -/
def Ev.bytes (e : Ev) : List Nat :=
  leBytes 8 e.time ++ leBytes 2 e.block ++ leBytes 2 e.inst ++ leBytes 2 e.code ++ leBytes 2 e.seq ++ leBytes 16 e.arg

/-- Management and security. -/
def State.viewMgt (s : State) (i : Nat) : List (Fld × Nat) := [
  (.MGT_EVQ_STATUS_LEVEL, s.evq.length),
  (.MGT_EVQ_STATUS_EMPTY, s.evq.isEmpty.toNat),
  (.MGT_EVQ_STATUS_FULL, (decide (Config.evqDepth ≤ s.evq.length)).toNat),
  (.MGT_EVQ_HEAD, wordOf ((s.evq.head?.map Ev.bytes).getD []) i),
  (.MGT_I3C_STATUS_BOUND, (s.get .MGT_I3C_STATUS_BOUND_SESSION != 0).toNat),
  (.MGT_REJ_STATUS_LEVEL, s.mgt.rejected.length),
  (.MGT_REJ_ENTRY, wordOf (s.mgt.rejected.getD (s.get .MGT_REJ_SEL_INDEX) []) i),
  (.SEC_STATUS_SESSIONS, s.sec.sessions.length),
  (.SEC_FUSE_STATE_SVN_MIN, s.svnMin),
  (.SEC_FUSE_STATE_DECOM, s.get .SEC_H_FUSE_DECOM),
  (.SEC_AUDIT_HEAD, wordOf s.sec.head i),
  (.SEC_AUDIT_QUEUE_LEVEL, s.sec.queue.length),
  (.BOOT_FW_SVN_SVN_MIN, s.svnMin),
  (.BIST_RESULT, wordOf (s.bistRecord (s.get .BIST_SEL_UNIT)) i),
  (.BIST_HEALTH_UNITS, (List.range 16).foldl (fun n j => n + s.get .BIST_H_HEALTH (16 * i + j) * 4 ^ j) 0),
  (.BIST_LOG_STATUS_LEVEL, s.bist.log.length),
  (.BIST_LOG_ENTRY, wordOf (s.bistEntry (s.get .BIST_LOG_SEL_INDEX)) i),
  (.BIST_ABIST_VAL_VALUE, tabGet s.bist.values (s.plainWord 0x30080) 0x80000000)]

/-- Lanes, timebase and storage. -/
def State.viewFront (s : State) (i : Nat) : List (Fld × Nat) := [
  (.LANE_ID_LANE, i),
  (.LANE_ID_QUAD, i / 4),
  (.LANE_REASON_BACKOFF_LEFT_MS, s.backoffLeft i),
  (.SYN_PTP_TXTS_INFO_SEQ_ID, (s.syn.stamps.head?.map PtpStamp.seqId).getD 0),
  (.SYN_PTP_TXTS_INFO_MSG_TYPE, (s.syn.stamps.head?.map PtpStamp.msgType).getD 0),
  (.SYN_PTP_TXTS_INFO_VALID, (!s.syn.stamps.isEmpty).toNat),
  (.SYN_PTP_TXTS, (s.syn.stamps.head?.map PtpStamp.time).getD 0),
  (.SYN_PTP_STATUS_LEVEL, s.syn.stamps.length),
  (.SYN_CH_STATUS_PENDING, (s.firesOf i).length),
  (.STO_LIB_STATUS_HAMPERS, s.sto.hampers.length),
  (.STO_LIB_STATUS_LIB_FREE_GIB, (s.libSegs - s.libUsed) / 16),
  (.STO_WEAR_LIFE_PCT, s.lifePct),
  (.STO_WEAR_SPARE_PCT, if s.get .STO_H_SPARE0 = 0 then 0 else s.get .STO_H_SPARE * 100 / s.get .STO_H_SPARE0),
  (.STO_ERASE_MIN, min s.eraseRange.1 65535),
  (.STO_ERASE_MAX, min s.eraseRange.2 65535),
  (.STO_SCRUB_OLDEST_DAYS, min 65535 ((s.sto.blocks.filter fun b => b.region != 0 && !b.retired).foldl
    (fun n b => max n (s.blkDays b)) 0)),
  (.STO_SCRUB_CATCHUP_ACTIVE, (s.sto.blocks.any s.overdue).toNat),
  (.STO_SCRUB_RTC_VALID, s.get .PWR_RTC_HI_RTC_VALID),
  (.STO_REC_NEWEST, s.recNewest),
  (.STO_REC_OLDEST, s.recOldest),
  (.STO_REC_STATUS_KEPT_SEGS, s.keptSegs),
  (.STO_REC_STATUS_STAGE_PCT, s.stagedBytes * 100 / (16 * 2 ^ 20)),
  (.FAB_UID_LO_UID, s.uid % 2 ^ 32),
  (.FAB_UID_HI_UID, s.uid / 2 ^ 32),
  (.FAB_LATE_STATUS_LEVEL, s.fab.late.length),
  (.FAB_LATE_STATUS_EMPTY, s.fab.late.isEmpty.toNat),
  (.FAB_LATE_HEAD, wordOf (s.fab.late.headD []) i)]

/-- State of a pipe as `PIPE_STATUS` shows it (05_pipeline_contexts.md R147, 20_power_sleep_reset.md R499). -/
def State.pipeShown (s : State) (p : Nat) : Nat :=
  if s.bit .PWR_GATE 0 p then 2
  else if s.get .PIPE_H_STATE p ≤ 1 && (s.holder p).isSome then 5 else s.get .PIPE_H_STATE p

/-- Pipes, memory, merger, comparison and codec. -/
def State.viewPixel (s : State) (i : Nat) : List (Fld × Nat) :=
  let x := s.get .PIPE_CTX_SEL_CTX
  let shown (v : Nat) : Nat := if x < 132 then v else 0
  let cmp := (s.cmpApplied i).getD 0
  let live := (s.cmpApplied i).isSome
  let base := cmpBase i cmp
  [(.PIPE_STATUS_STATE, s.pipeShown i),
   (.PIPE_SCH_STATUS_HOLD_KIB, ceilDiv (s.storeBytesUsed false) 1024),
   (.PIPE_SCH_STATUS_SPILL_MIB, ceilDiv (s.storeBytesUsed true) (2 ^ 20)),
   (.PIPE_CTX_STATE_BANK0, shown (s.bankState x 0)),
   (.PIPE_CTX_STATE_BANK1, shown (s.bankState x 1)),
   (.PIPE_CTX_STATE_MODE, shown (match s.pendingBank x with | some b => s.get .PIPE_H_MODE (2 * x + b) | none => 0)),
   (.PIPE_CTX_STATE_BOUND0, shown (min 255 (s.bound x 0))),
   (.PIPE_CTX_STATE_BOUND1, shown (min 255 (s.bound x 1))),
   (.MEM_FS_USED_BLOCKS, s.storeUsed),
   (.MRG_BL_STATUS_BANK0, s.layState i 0),
   (.MRG_BL_STATUS_BANK1, s.layState i 1),
   (.MRG_BL_STATUS_OPEN, (s.blankets.filter fun b => b.k == i).length),
   (.MRG_STORE_USED_KIB, ceilDiv s.mrgUsed 1024),
   (.REF_BL_STATUS_BANK0, s.cmpState i 0),
   (.REF_BL_STATUS_BANK1, s.cmpState i 1),
   (.REF_BL_STATUS_SLOT, if live then s.par base 2 1 else 0),
   (.REF_BL_STATUS_MPOS_PROV, if live then s.get .REF_H_PROV (2 * i + cmp) else 0),
   (.REF_BL_STATUS_TX, if live then s.get .REF_H_TX (2 * i + cmp) else 0),
   (.REF_BL_STATUS_TY, if live then s.get .REF_H_TY (2 * i + cmp) else 0),
   (.REF_BL_MARK, if live then (tabGet s.ref.marks (2 * i + cmp) []).headD 0 else 0),
   (.REF_SLOT_CTRL_USED, (s.slotUsed i).toNat),
   (.TSL_OPEN_NOW, s.openStates)]

/-- Egress and the bridge. -/
def State.viewHost (s : State) (i : Nat) : List (Fld × Nat) := [
  (.EGR_PORT_STATUS_MODE, s.get .EGR_H_MODE),
  (.EGR_CLASS_FILL_FILL_A, s.classFill i 0),
  (.EGR_CLASS_FILL_FILL_B, s.classFill i 1),
  (.EGR_CLASS_FILL_FILL_C, s.classFill i 2),
  (.EGR_CLASS_DELAY_DELAY_FLAG_US, if s.on .EGR_CLASS_DELAY_SEL i then s.get .EGR_CLASS_H_DELAY_A i
    else s.get .EGR_CLASS_H_DELAY_B i),
  (.EGR_DROP_STATUS_LEVEL, s.egr.drops.length),
  (.EGR_DROP_STATUS_EMPTY, s.egr.drops.isEmpty.toNat),
  (.EGR_DROP_HEAD, wordOf (s.egr.drops.headD []) i),
  (.EGR_LATE_STATUS_LEVEL, s.egr.late.length),
  (.EGR_LATE_STATUS_EMPTY, s.egr.late.isEmpty.toNat),
  (.EGR_LATE_HEAD, wordOf (s.egr.late.headD []) i),
  (.BRG_WIN_STATUS_ACTIVE, (s.brg.slots.filter fun e => e.2.win == i).length),
  (.BRG_STATUS_EXECUTING, s.brg.slots.length),
  (.BRG_STATUS_WAITING, s.brg.wait.length)]

/-- The value of a field that is computed from other state. -/
def State.viewVal (s : State) (f : Fld) (i : Nat) : Nat :=
  let l := s.viewMgt i ++ s.viewFront i ++ s.viewPixel i ++ s.viewHost i
  match l.find? fun e => e.1.id == f.id with
  | some e => e.2
  | none => s.get f i

/-! ### The word of a register -/

/-- The bits of a field that a read shows; the next PSN of a queue pair stands in for `PSN_INIT` while it is RTS
(10_egress_delivery.md R262), and `TX_NAP_EN` reads 0 on ingress lanes (02_lane_complex.md R52). -/
def State.shownBits (s : State) (i : Nat) (f : RegField) : Nat :=
  if f.acc = .wo then 0
  else if f.acc = .vw then bits (s.viewVal f.fld i) f.shift f.len
  else if f.fld = .LANE_CTRL_TX_NAP_EN && s.get .LANE_ID_ROLE i == 1 then 0
  else if f.fld = .EGR_QP_PSN_PSN_INIT && s.get .EGR_QP_STATUS_STATE i == 1 then s.get .EGR_QP_H_PSN i
  else s.fieldBits i f

/-- What instance `i` of a row reads as. -/
def State.rowWord (s : State) (r : RegRow) (i : Nat) : Nat :=
  (r.parts i).foldl (fun n p => n + s.shownBits p.1 p.2 * 2 ^ p.2.lo) 0

/-- What the word at a register-class address reads as: a register, a bank of a window in the class, or a hole, which
reads 0 (R506). -/
def State.regWord (s : State) (a : Nat) : Nat :=
  if s.absentPage a then 0
  else if (0x310000 ≤ a && a < 0x330000) || (0x350000 ≤ a && a < 0x358000) then s.memLe a 4
  else match regFind a with
    | some (r, i) => s.rowWord r i
    | none => 0

/-- The field of a `_HI` register that continues the value of its `_LO` register, with its instance. -/
def upperField (a : Nat) : Option (Nat × RegField) :=
  match regFind a with
  | some (r, i) => (r.fields.find? fun f => f.shift == 32).map fun g => (i, g)
  | none => none

/-- The upper part of the value that the `_LO` register at `a` shows, when hardware changes that value (R511). -/
def State.upperHalf (s : State) (a : Nat) : Option Nat :=
  match regFind a, upperField (a + 4) with
  | some (r, _), some (i, g) =>
    match r.fields with
    | [f] =>
      if f.fld = g.fld && f.shift = 0 && (f.acc = .ro || f.acc = .vw || f.fld = .JOB_ARM_TIME) then some (s.shownBits i g)
      else none
    | _ => none
  | _, _ => none

/-- The word at `a` with the latched upper half of its value in place (R511). -/
def State.latchedWord (s : State) (a v : Nat) : Nat :=
  match upperField a with
  | some (i, g) => s.regWord a - s.shownBits i g * 2 ^ g.lo + v * 2 ^ g.lo
  | none => s.regWord a

/-- A read at a register-class address that has passed its checks (R511, R513): the word, the latch of this initiator, and
the one field that a read clears. -/
def State.regFetch (s : State) (a : Nat) (ini : Ini) : State × Nat :=
  let held := s.mgt.latches.find? fun l => l.ini == ini
  let w := match held with
    | some l => if l.addr = a then s.latchedWord a l.value else s.regWord a
    | none => s.regWord a
  let rest := s.mgt.latches.filter fun l => l.ini != ini
  let new := match s.upperHalf a with | some v => rest ++ [⟨ini, a + 4, v⟩] | none => rest
  let s : State := { s with mgt := { s.mgt with latches := new } }
  let s := if 0x300000 ≤ a && a < 0x300800 && a % 0x100 = 0 then s.set .MRG_BL_STATUS_HOLD_MAX ((a - 0x300000) / 0x100) 0 else s
  (s, w)

/-- A register read, with the checks of R508; the word is 0 unless the status is OK. -/
def State.regRead (s : State) (a : Nat) (src : Src) : State × Status × Nat :=
  let st := s.regReach a false
  if st ≠ .ok then (s, st, 0)
  else if s.roleOf src = .none && !openRead a then (s, .rights, 0)
  else let q := s.regFetch a src.ini; (q.1, .ok, q.2)

/-! ### The store and memory classes -/

/-- `n` bytes of the context store window: any role but none reads them (05_pipeline_contexts.md R131); the tail above
context 131 reads 0 (R506). -/
def State.storeRead (s : State) (a n : Nat) (src : Src) : Status × List Nat :=
  if s.bootFailed then (.state, [])
  else if s.unreachable then (.targetReset, [])
  else if s.roleOf src = .none then (.rights, [])
  else (.ok, s.memBytes a n)

end Sys2Proof.Machine
end

