-- ==== Sys2Proof/Machine/BrgWin.lean ====
section
/-! DEFINITION. Windows of the host window bridge (11_host_window_bridge.md R283, R284), and its fence, reset and counters
(R294). -/

namespace Sys2Proof.Machine

/-! ### Windows -/

/-- Addresses of the registers of window `w`. -/
def winLo (w : Nat) : Nat := 0x440000 + 0x10 * w
def winHi (w : Nat) : Nat := winLo w + 4
def winCfg (w : Nat) : Nat := winLo w + 8

/-- The fields of `BRG_WIN_CFG` in the places of the register. -/
def winFields : List (Fld × Nat × Nat) := [(.BRG_WIN_CFG_EN, 0, 1), (.BRG_WIN_CFG_READ_ONLY, 1, 1),
  (.BRG_WIN_CFG_MIN_ROLE, 2, 2), (.BRG_WIN_CFG_SWAP, 4, 2), (.BRG_WIN_CFG_PREFETCH, 6, 1),
  (.BRG_WIN_CFG_RA_GRANULES, 8, 4), (.BRG_WIN_CFG_LOG2_SIZE, 14, 6)]

/-- The applied `BRG_WIN_CFG` of a window. -/
def State.winWord (s : State) (w : Nat) : Nat := winFields.foldl (fun n f => n + s.get f.1 w * 2 ^ f.2.1) 0

/-- The staged base and configuration of a window: what has been written since the last commit, else the applied
values. -/
def State.winStaged (s : State) (w : Nat) : Nat × Nat :=
  if s.on .BRG_WIN_S_HAVE w then (s.get .BRG_WIN_S_BASE w, s.get .BRG_WIN_S_CFG w) else (s.get .BRG_WIN_BASE w, s.winWord w)

/-- Staged values of a window are written. -/
def State.winStage (s : State) (w base cfg : Nat) : State :=
  ((s.set .BRG_WIN_S_HAVE w 1).set .BRG_WIN_S_BASE w base).set .BRG_WIN_S_CFG w cfg

/-- Target class of an internal address (R285): 1 register, 2 store, 3 memory, 0 none. -/
def targetClass (a : Nat) : Nat :=
  if a < 0x10000000 then 1 else if a < 0x20000000 then 2
  else if 0x1000000000 ≤ a && a < 0x2000000000 then 3 else 0

/-- The conditions of R283 and R284 on a window's base and configuration. -/
def winOk (base cfg : Nat) : Bool :=
  let lg := bits cfg 14 6
  let cls := targetClass base
  12 ≤ lg && lg ≤ 36 && base % 2 ^ lg == 0 && cls != 0 && targetClass (base + 2 ^ lg - 1) == cls && bits cfg 2 2 != 3 &&
    (bits cfg 6 1 == 0 || cls != 1)

/-- No request is executing through the window. -/
def State.winFree (s : State) (w : Nat) : Bool := !(s.brg.slots.any fun e => e.2.win == w)

/-- The pending values of a window apply when no request executes through it (R284): they are kept in NAND, and read-ahead
through the window is discarded (R290). -/
def State.winApply (s : State) (w : Nat) : State :=
  if s.on .BRG_WIN_STATUS_PENDING w && s.winFree w then
    let base := s.get .BRG_WIN_P_BASE w
    let cfg := s.get .BRG_WIN_P_CFG w
    let s := winFields.foldl (fun s f => s.set f.1 w (bits cfg f.2.1 f.2.2)) (s.set .BRG_WIN_BASE w base)
    let s := (s.set .BRG_WIN_STATUS_PENDING w 0).dropAheadIf fun _ r => r.win == w
    ((s.keepSetting (winLo w) (base % 2 ^ 32)).keepSetting (winHi w) (base / 2 ^ 32)).keepSetting (winCfg w) cfg
  else s

/-- The staged values of a window are pending, and apply at once where nothing executes through it; they are refused
unless they pass R284. -/
def State.winCommit (s : State) (w : Nat) : State × Status :=
  let q := s.winStaged w
  if !winOk q.1 q.2 then (s, .range)
  else
    let s := ((s.set .BRG_WIN_P_BASE w q.1).set .BRG_WIN_P_CFG w q.2).set .BRG_WIN_STATUS_PENDING w 1
    ((s.set .BRG_WIN_S_HAVE w 0).winApply w, .ok)

/-- The commit's effect once its record is durable. -/
def effWinCommit (w : Nat) (src : Src) (s : State) : State :=
  let q := s.winCommit w
  q.1.answer src (winCfg w) q.2

/-- Record of a window commit. -/
def State.winRec (s : State) (w : Nat) (src : Src) : AuditRec :=
  s.auditRec src 2 1 (winCfg w) (valueDigest (s.winWord w)) (valueDigest (s.winStaged w).2)

/-- `BRG_WIN_CFG.COMMIT` by an installer, recorded (R284). -/
def execWinCommit (w : Nat) (src : Src) (s : State) : Res :=
  let g := s.gate src .installer 14
  if g ≠ .ok then .next (s.answer src (winCfg w) g)
  else if 16 ≤ w then .next (s.answer src (winCfg w) .range)
  else if s.settingsBusy src then .next (s.answer src (winCfg w) .busy)
  else if !winOk (s.winStaged w).1 (s.winStaged w).2 then .next (s.answer src (winCfg w) .range)
  else .next (s.recorded src (winCfg w) (.winCommit w src) (s.winRec w src) (effWinCommit w src))

/-- The first moment has come at which no request executes through the window (R284, R293). -/
def execWinCommitApply (w : Nat) (s : State) : Res := .next (s.winApply w)

/-! ### Fence, reset and counters (R294) -/

/-- Address of `BRG_CTRL`. -/
abbrev brgCtrl : Nat := 0x440400

/-- `BRG_CTRL.FENCE` takes 1: new requests are refused, and read-ahead is discarded (R290). -/
def effBrgFence (s : State) : State := (s.set .BRG_CTRL_FENCE 0 1).dropAheadIf fun _ _ => true

/-- `BRG_CTRL.FENCE` written 1; installer, recorded. -/
def execBrgFence (src : Src) (s : State) : Res :=
  let g := s.gate src .installer 14
  if g ≠ .ok then .next (s.answer src brgCtrl g)
  else .next (s.recorded src brgCtrl (.brgFence src) (s.writeRec src brgCtrl 1) effBrgFence)

/-- Requests executing and waiting have completed: FENCED reads 1. -/
def execBrgFenceDone (s : State) : Res :=
  if s.on .BRG_CTRL_FENCE && s.brg.slots.isEmpty && s.brg.wait.isEmpty then .next (s.set .BRG_CTRL_FENCED 0 1) else .next s

/-- `BRG_CTRL.RESET`; installer, recorded. -/
def execBrgReset (src : Src) (s : State) : Res :=
  let g := s.gate src .installer 14
  if g ≠ .ok then .next (s.answer src brgCtrl g)
  else .next (s.recorded src brgCtrl (.brgReset src) (s.writeRec src brgCtrl (2 + s.get .BRG_CTRL_FENCE)) effBrgReset)

/-- `CLR_CNT` clears the bridge counters (21_register_map.md R515). -/
def State.brgClrCnt (s : State) : State :=
  [Fld.BRG_CNT_REQ, .BRG_CNT_ERR, .BRG_CNT_BAD, .BRG_CNT_AUTH_FAIL, .BRG_CNT_LATE, .BRG_CNT_REPLY_LOST, .BRG_PREFETCH_HIT,
    .BRG_PREFETCH_DISCARD].foldl (fun s f => s.set f 0 0) s

/-- The command form of `CLR_CNT`. -/
def execBrgClrCnt (src : Src) (s : State) : Res :=
  let g := s.gate src .operator 14
  if g ≠ .ok then .next (s.answer src brgCtrl g) else .next (s.brgClrCnt.answer src brgCtrl .ok)

end Sys2Proof.Machine
end

