-- ==== Sys2Proof/Machine/RegWrite.lean ====
section
/-! DEFINITION. Writing a register (21_register_map.md R506 to R515): the checks of an access and of the field it changes, what
the write does at once, and its record. A register with commands of its own has their effects here too. -/

namespace Sys2Proof.Machine

/-! ### Values written -/

/-- The lower half that this initiator has staged for the `_HI` register at `a` (R512). -/
def State.stagedLo (s : State) (a : Nat) (ini : Ini) : Option Nat :=
  (s.mgt.staged.find? fun l => l.ini == ini && l.addr == a).map (·.value)

/-- `a` is a `_LO` register whose writes are staged: its value is written whole with the `_HI` half (R512). Windows stage by
R284. -/
def loStages (a : Nat) : Bool :=
  match regFind a, upperField (a + 4) with
  | some (r, _), some (_, g) => match r.fields with
    | [f] => f.fld == g.fld && f.shift == 0 && (g.acc == .rw || g.acc == .wo) && f.fld != .BRG_WIN_BASE
    | _ => false
  | _, _ => false

/-- The values of the fields that are staged beside what a read shows (the route table, R377, and the windows, R284): field,
and its staged value in instance `i`. -/
def State.stagedFields (s : State) (i : Nat) : List (Fld × Nat) :=
  let w := s.winStaged i
  [(.FAB_ROUTE_PORT, s.get .FAB_H_SPORT i), (.FAB_ROUTE_HOPS, s.get .FAB_H_SHOPS i),
   (.FAB_ROUTE_COMMIT_BCAST_MASK, s.get .FAB_H_SMASK), (.BRG_WIN_BASE, w.1)] ++
  winFields.map fun f => (f.1, bits w.2 f.2.1 f.2.2)

/-- The value that a write to a field replaces: what is staged, or what the register shows. -/
def State.storedBits (s : State) (i : Nat) (f : RegField) : Nat :=
  match (s.stagedFields i).find? fun e => e.1.id == f.fld.id with
  | some e => bits e.2 f.shift f.len
  | none => s.shownBits i f

/-- A field of the register at `a` changes with a write of `v` (R509): an RW field that gets another value, or a WO or W1C bit
written 1. -/
def State.fieldChanges (s : State) (p : Nat × RegField) (v : Nat) : Bool :=
  let n := bits v p.2.lo p.2.len
  match p.2.acc with
  | .rw => n != s.storedBits p.1 p.2
  | .wo | .w1c => n != 0
  | _ => false

/-- The fields that a write changes; a staged lower half counts with its `_HI` write. -/
def State.changes (s : State) (a v : Nat) (ini : Ini) : List (Nat × RegField) :=
  match regFind a with
  | none => []
  | some (r, i) =>
    let own := (r.parts i).filter fun p => s.fieldChanges p v
    let lo := match s.stagedLo a ini, regFind (a - 4) with
      | some w, some (r', i') => (r'.parts i').filter fun p => s.fieldChanges p w
      | _, _ => []
    own ++ lo

/-- The value that a field shared by a `_LO` and `_HI` register takes with a write of `v` to `_HI`. -/
def State.pairValue (s : State) (a v : Nat) (ini : Ini) (f : Fld) : Nat :=
  let i := match regFind a with | some (_, i) => i | none => 0
  let held := if f = .BRG_WIN_BASE then (s.winStaged i).1 else s.get f i
  let lo := match s.stagedLo a ini with | some w => w | none => held % 2 ^ 32
  match upperField a with
  | some (_, g) => bits v g.lo g.len * 2 ^ 32 + lo
  | none => lo

/-! ### Rights (R509) -/

/-- The higher of two roles. -/
def maxRole (a b : Role) : Role := if roleRank a < roleRank b then b else a

/-- Fields that only the management processor may write. -/
def mgtFields : List Fld := [.MGT_EVQ_POP, .JOB_ARM_TIME, .JOB_CTRL_ARM, .JOB_CTRL_CANCEL, .JOB_CTRL_IMMEDIATE, .JOB_CTRL_STOP,
  .JOB_CTRL_MARK, .JOB_CTRL_SET_NEXT, .JOB_TRIG_CFG_EN, .JOB_TRIG_CFG_MODE, .JOB_TRIG_CFG_ENC, .JOB_TRIG_CFG_ARM,
  .JOB_TRIG_CFG_MARK, .JOB_TRIG_CFG_INHIBIT, .JOB_TRIG_CFG_DEST, .JOB_TRIG_PITCH_INT, .JOB_TRIG_PITCH_FRAC,
  .JOB_TRIG_OFFSET, .FAB_ROUTE_PORT, .FAB_ROUTE_HOPS, .FAB_ROUTE_COMMIT_COMMIT, .FAB_ROUTE_COMMIT_BCAST_MASK,
  .PWR_CTRL_SLEEP, .BOOT_CTRL_CONFIRM]

/-- The least role that may change a field: `LANE_EQ_SEL` takes an installer too, though its table does not mark it
(02_lane_complex.md R37). -/
def fieldRole (f : RegField) : Role :=
  if mgtFields.any (fun g => g.id == f.fld.id) then .device
  else if f.fld = .LANE_EQ_SEL_RUNG then .installer else f.role

/-- The least role of a set of changed fields. -/
def leastRole (l : List (Nat × RegField)) : Role := l.foldl (fun r p => maxRole r (fieldRole p.2)) .operator

/-! ### The checks of the owning chapters -/

/-- A region of LPDDR5X lies below the usable capacity (14_memory_subsystem.md R354); one of size 0 is none. -/
def State.regionOk (s : State) (base mib : Nat) : Bool :=
  mib == 0 || (decide (memBase ≤ base) && decide (base + mib * 2 ^ 20 ≤ memBase + s.memUsable))

/-- A new value of a field that its table refuses with RANGE. -/
def fieldBad (f : Fld) (n : Nat) : Bool :=
  let within (lo hi : Nat) : Bool := n < lo || hi < n
  let l : List (Fld × Bool) := [
    (.LANE_CTRL_MAX_RUNG, within 1 4), (.SYN_TB_CTRL_SRC, n == 3), (.SYN_CH_TRIG_CFG_DEST, n == 3),
    (.JOB_TRIG_CFG_DEST, n == 3), (.SYN_TRIG_WIDTH_WIDTH_NS, decide (n < 10)), (.PIPE_SCH_CFG_ADMIT_PCT, within 50 100),
    (.PIPE_SCH_CFG_HOLD_WM, decide (65536 < n)), (.EGR_STR_CFG_KIND, decide (7 < n)),
    (.EGR_STR_SLOTS, within 0 1048576), (.BRG_TIMEOUT_BRG_TIMEOUT_US, decide (n < 10)),
    (.JOB_CFG_ARM_LEAD_MS, n == 0), (.STO_CFG0_SCRUB_DAYS, decide (n < 2)), (.STO_CFG0_CATCHUP_PCT, within 5 50),
    (.STO_CFG0_LOAD_PCT, within 10 80), (.STO_CFG1_KEEP_MAX_PCT, decide (90 < n)), (.STO_CFG2_WL_DELTA, within 50 5000),
    (.MEM_CFG_ADMIT_PCT, within 50 100), (.FAB_CFG_HOP_LIMIT, decide (n < 2)), (.FAB_CFG_CTRL_TIMEOUT_MS, n == 0),
    (.FAB_CFG_BULK_MIN_PCT, decide (50 < n)), (.BOOT_CTRL_CONFIRM_S, within 10 600),
    (.SEC_CFG_SESSION_IDLE_S, within 60 86400), (.PWR_CFG_DRAIN_MS, decide (n < 10)),
    (.PWR_THERM_CFG_TJ_WARN, within 60 104), (.MEM_FS_SIZE_SIZE_MIB, n % 2 == 1), (.MEM_STAGE_SIZE_SIZE_MIB, n % 2 == 1)]
  match l.find? fun e => e.1.id == f.id with
  | some e => e.2
  | none => false

/-- A base that is written with bits that must be 0. -/
def baseBad (f : Fld) (n : Nat) : Bool :=
  let l : List (Fld × Nat) := [(.PIPE_SPILL_BASE, 20), (.REF_SLOT_BASE, 12), (.EGR_STR_VA, 6), (.EGR_RETRY_BASE, 20),
    (.MEM_FS_BASE, 21), (.MEM_STAGE_BASE, 21), (.FAB_RX_WIN_BASE, 20)]
  match l.find? fun e => e.1.id == f.id with
  | some e => n % 2 ^ e.2 != 0
  | none => false

/-- The field that holds a region's base, beside the field of its size. -/
def regionFields : List (Fld × Fld) := [(.PIPE_SPILL_BASE, .PIPE_SPILL_SIZE_SIZE_MIB), (.REF_SLOT_BASE, .REF_SLOT_SIZE_SIZE_MIB),
  (.EGR_RETRY_BASE, .EGR_RETRY_SIZE_SIZE_MIB), (.MEM_FS_BASE, .MEM_FS_SIZE_SIZE_MIB),
  (.MEM_STAGE_BASE, .MEM_STAGE_SIZE_SIZE_MIB), (.FAB_RX_WIN_BASE, .FAB_RX_WIN_SIZE_SIZE_MIB)]

/-- RANGE by the value of a changed field alone, or of a region with it. -/
def State.valueBad (s : State) (a v : Nat) (ini : Ini) (p : Nat × RegField) : Bool :=
  let f := p.2.fld
  let n := if (upperField a).isSome && f.width > 32 then s.pairValue a v ini f else bits v p.2.lo p.2.len
  let region := match regionFields.find? fun q => q.1.id == f.id || q.2.id == f.id with
    | none => true
    | some q => if q.1.id = f.id then s.regionOk n (s.get q.2 p.1) else s.regionOk (s.get q.1 p.1) n
  fieldBad f n || baseBad f n || !region

/-- A bank that is not FREE names a stream (10_egress_delivery.md R277 and its coincidences). -/
def State.streamNamed (s : State) (st : Nat) : Bool :=
  ((List.range 264).any fun k => s.bankState (k / 2) (k % 2) != 0 && (s.bankStreams (k / 2) (k % 2)).contains st) ||
  (List.range 16).any fun k => s.cmpState (k / 2) (k % 2) != 0 && (s.cmpStreams (k / 2) (k % 2)).contains st

/-- Class queues of a port exceed the retry buffer (10_egress_delivery.md R268): sizes of all ports in MiB. -/
def State.classSum (s : State) : Nat :=
  (List.range s.portCount).foldl (fun n p => n + s.get .EGR_CLASS_SIZE_SIZE_A p + s.get .EGR_CLASS_SIZE_SIZE_B p +
    s.get .EGR_CLASS_SIZE_SIZE_C p) 0

/-- The checks on front-end registers (02, 03, 04). -/
def State.frontCheck (s : State) (r : RegRow) (i a v : Nat) (ini : Ini) : Status :=
  let bit (k : Nat) : Bool := v.testBit k
  match r.base with
  | 0x100028 =>
    let e : EqEntry := { s.eqStaged i with dfe3 := bits v 0 8, rxInv := bits v 8 1, txInv := bits v 9 1 }
    if bit 14 && (!eqValid e || decide (4 < s.get .LANE_EQ_SEL_RUNG i)) then .range else .ok
  | 0x14000C => if s.wmBad i true (bits v 0 17) && bits v 0 17 ≠ s.get .ING_QUEUE_HWM i then .range else .ok
  | 0x140010 => if s.wmBad i false (bits v 0 17) && bits v 0 17 ≠ s.get .ING_QUEUE_LWM i then .range else .ok
  | 0x144000 => if bit 4 && (s.rawWrite a v).applyBad i then .range else .ok
  | 0x14800C => if bit 17 then s.playStartCheck i else .ok
  | 0x180010 => if bit 31 && s.encoderUsed i then .state else .ok
  | 0x180808 => if s.get .SYN_TB_CTRL_SRC = 2 then .state else .ok
  | 0x180810 => s.stepStatus (toSigned 64 (s.pairValue a v ini .SYN_TB_STEP))
  | 0x180814 => if s.get .SYN_TB_CTRL_SRC = 2 then .state else .ok
  | 0x181004 => if s.pitchAllowed i v then .ok else .range
  | _ => .ok

/-- The checks on registers of management, jobs, power and self-test (12, 16, 19, 20). -/
def State.ctrlCheck (s : State) (r : RegRow) (i v : Nat) : Status :=
  let bit (k : Nat) : Bool := v.testBit k
  let _ := i
  match r.base with
  | 0x50010 | 0x50014 => if s.nextState = nextArmed then .state else .ok
  | 0x50044 =>
    let set := bits v 6 2
    if (bit 0 && bit 1) || (set ≠ 0 && (bit 0 || bit 1)) then .range
    else if set ≠ 0 && s.nextState = nextArmed then .state
    else .ok
  | 0x51000 | 0x51004 | 0x51008 | 0x5100C => if s.nextState = nextArmed then .state else .ok
  | 0x40064 => if bit 0 && !s.confirmOk then .state else .ok
  | 0x20004 => if bit 0 && s.sleepBarred then .state else .ok
  | 0x20040 => if (s.newlyGated (bits v 0 8)).all fun p => s.get .PIPE_H_STATE p == 2 then .ok else .state
  | 0x30000 =>
    if bit 16 then s.bistCheck (bits v 0 6) (bits v 8 3)
    else if bit 17 && s.get .BIST_STATUS_STATE = 0 then .state else .ok
  | _ => .ok

/-- A field of `BRG_WIN_CFG` as written: bits 19 to 0. -/
def winBits (v : Nat) : Nat := winFields.foldl (fun n f => n + bits v f.2.1 f.2.2 * 2 ^ f.2.1) 0

/-- The checks on data-path, memory, storage and host registers (05, 07 to 11, 13, 14). -/
def State.planeCheck (s : State) (r : RegRow) (i v : Nat) : Status :=
  let bit (k : Nat) : Bool := v.testBit k
  match r.base with
  | 0x200004 => if bit 0 && !s.on .PIPE_CTRL_FENCE i && (s.holder i).isSome then .state else .ok
  | 0x280028 =>
    if bit 31 && bit 10 then .range
    else if bit 31 then s.ctxGoCheck (bits v 0 8) (bit 9)
    else if bit 10 then s.ctxCancelCheck (bits v 0 8) else .ok
  | 0x280040 =>
    if bit 4 && (s.rollPipe.isSome || !s.rollable (bits v 0 3) || s.inTest (bits v 0 3)) then .state else .ok
  | 0x300800 =>
    if bit 31 && bit 10 then .range
    else if bit 31 then s.mrgGoCheck (bits v 0 3) else if bit 10 then s.mrgCancelCheck (bits v 0 3) else .ok
  | 0x340800 =>
    if bit 31 && bit 10 then .range
    else if bit 31 then s.refGoCheck (bits v 0 3) else if bit 10 then s.refCancelCheck (bits v 0 3) else .ok
  | 0x340810 | 0x340814 | 0x340818 => if s.get .REF_SLOT_CTRL_STATE i ≠ 0 then .state else .ok
  | 0x34081C =>
    if bit 6 then (if s.slotUsed i then .state else .ok)
    else if bit 4 then (s.slotLoad i).2
    else if bit 5 && (s.get .REF_SLOT_CTRL_STATE i ≠ 1 || s.on .REF_SLOT_CTRL_CHECKING i) then .state
    else .ok
  | 0x38000C => if bit 3 && !(s.rawWrite (0x38000C + 0x20 * i) v).profOk i then .range else .ok
  | 0x400030 =>
    if bits v 0 7 = 0 || 99 < bits v 0 7 + bits v 8 7 + bits v 16 7 then .range else .ok
  | 0x400034 =>
    if s.jobRuns then .state
    else if s.get .EGR_RETRY_SIZE_SIZE_MIB < (s.rawWrite (0x400034 + 0x400 * i) v).classSum then .range else .ok
  | 0x410000 | 0x410004 | 0x410008 | 0x41000C | 0x410010 | 0x410014 | 0x410018 => if s.streamNamed i then .state else .ok
  | 0x410020 => if i = 0 then .range else .ok
  | 0x420000 =>
    let cfg := 2 ^ 26 - 4
    let same := v &&& cfg = s.plainWord (0x420000 + 0x80 * i) &&& cfg
    if s.get .EGR_QP_STATUS_STATE i ≠ 0 && !(bit 1 && same) then .state
    else if bit 0 then (s.rawWrite (0x420000 + 0x80 * i) v).qpEnableCheck i else .ok
  | 0x420004 | 0x420010 | 0x420014 | 0x420018 | 0x42001C | 0x420020 | 0x420024 | 0x420028 =>
    if s.get .EGR_QP_STATUS_STATE i ≠ 0 then .state else .ok
  | 0x430020 | 0x430024 => if s.jobRuns then .state else .ok
  | 0x430028 => if s.jobRuns then .state else if bits v 0 16 < s.classSum then .range else .ok
  | 0x440008 => if bit 31 && !winOk (s.winStaged i).1 (winBits v) then .range else .ok
  | 0x500008 =>
    if bit 0 && !s.on .MEM_CTRL_FENCE && s.memNeeded then .state
    else if bit 1 && !s.on .MEM_CTRL_FENCED then .state else .ok
  | 0x500010 | 0x500014 | 0x500018 => if s.jobRuns then .state else .ok
  | 0x540424 =>
    let gib := bits v 0 16
    let pct := bits v 16 7
    if gib = s.get .STO_CFG1_REC_GIB && pct = s.get .STO_CFG1_KEEP_MAX_PCT then .ok
    else if gib ≠ s.get .STO_CFG1_REC_GIB && !s.recGibOk gib then .nospace
    else if pct * (gib * 16) < s.keptSegs * 100 then .nospace else .ok
  | _ => .ok

/-- Registers whose values the settings in NAND hold: not written by a session before they are reapplied (R517). -/
def keptRegister (base : Nat) : Bool :=
  [0x100020, 0x100024, 0x100028, 0x440000, 0x440004, 0x440008, 0x540420, 0x540424, 0x540428, 0x10010].contains base

/-- The checks of the owning chapters (step 5 of R508): of the values of the fields that the write changes, and of the
register. -/
def State.ownerCheck (s : State) (a v : Nat) (ini : Ini) : Status :=
  match regFind a with
  | none => .ok
  | some (r, i) =>
    if (s.changes a v ini).any fun p => s.valueBad a v ini p then .range
    else
      let st := s.frontCheck r i a v ini
      if st ≠ .ok then st else let st := s.ctrlCheck r i v; if st ≠ .ok then st else s.planeCheck r i v

/-! ### What a write does -/

/-- Fields whose new value the effects below give. -/
def hookFields : List Fld := [.LANE_CTRL_ENABLE, .ING_QUEUE_CTRL_PAUSE_EN, .ING_QUEUE_HWM, .ING_QUEUE_LWM, .SYN_CH_TRIG_CFG_EN,
  .SYN_CH_PITCH_INT, .SYN_TB_SLEW, .PIPE_CTRL_FENCE, .PWR_GATE, .FAB_CTRL_FENCE, .MEM_CTRL_FENCE, .REF_CTRL_FENCE,
  .TSL_CTRL_FENCE, .EGR_CTRL_FENCE, .STO_CTRL_FENCE, .BRG_CTRL_FENCE, .FAB_ROUTE_PORT, .FAB_ROUTE_HOPS,
  .FAB_ROUTE_COMMIT_BCAST_MASK, .EGR_STR_CONS_C, .STO_CFG1_REC_GIB, .BRG_WIN_BASE, .BRG_WIN_CFG_EN, .BRG_WIN_CFG_READ_ONLY,
  .BRG_WIN_CFG_MIN_ROLE, .BRG_WIN_CFG_SWAP, .BRG_WIN_CFG_PREFETCH, .BRG_WIN_CFG_RA_GRANULES, .BRG_WIN_CFG_LOG2_SIZE]

/-- The plain part of a write: RW fields take their bits, W1C bits written 1 clear. -/
def State.putFields (s : State) (l : List (Nat × RegField)) (v : Nat) : State :=
  l.foldl (fun s p =>
    let n := bits v p.2.lo p.2.len
    if hookFields.any (fun f => f.id == p.2.fld.id) then s
    else match p.2.acc with
      | .rw => s.putField p.1 p.2 n
      | .w1c => s.putField p.1 p.2 (s.fieldBits p.1 p.2 - (s.fieldBits p.1 p.2 &&& n))
      | _ => s) s

/-- Do a step where a bit of `v` is 1. -/
def State.ifBit (s : State) (v k : Nat) (g : State → State) : State := if v.testBit k then g s else s

/-- A fence bit of a block: set by `g`, or cleared with `FENCED`. -/
def State.fenceTo (s : State) (fence fenced : Fld) (v : Nat) (g : State → State) : State :=
  if v.testBit 0 then (if s.on fence then s else g s) else (s.set fence 0 0).set fenced 0 0

/-- Effects on front-end registers. -/
def State.frontWrite (s : State) (r : RegRow) (i v whole : Nat) (src : Src) : State :=
  match r.base with
  | 0x100004 =>
    let s := if s.get .LANE_CTRL_ENABLE i = bits v 0 1 then s else if v.testBit 0 then effLaneEnable i s else effLaneDisable i s
    (s.ifBit v 1 (effLaneRetrain i)).ifBit v 2 fun s => s.laneClrCnt i
  | 0x10001C => s.showEq i
  | 0x100028 => s.ifBit v 14 (effLaneEqCommit i src)
  | 0x100050 => s.ifBit v 31 (effEyeScanStart i)
  | 0x140004 =>
    let s := if s.get .ING_QUEUE_CTRL_PAUSE_EN i = bits v 1 1 then s else s.pauseEnWrite i (bits v 1 1)
    (s.ifBit v 0 (effQueueFlush i)).ifBit v 2 fun s => s.ingClrCnt i
  | 0x14000C => (s.set .ING_QUEUE_HWM i (bits v 0 17)).evalWatermark i
  | 0x140010 => (s.set .ING_QUEUE_LWM i (bits v 0 17)).evalWatermark i
  | 0x144000 => s.ifBit v 4 (effChApply i src)
  | 0x14800C => (s.ifBit v 17 fun s => s.playBegin i).ifBit v 18 fun s => s.playHalt i
  | 0x14C000 => s.fcPins
  | 0x180010 => s.ifBit v 31 (effEncPreset i whole src)
  | 0x180400 => s.ifBit v 0 fun s => s.set .SYN_MARK_H_PREV i 0
  | 0x180810 => s.stepTime (toSigned 64 whole)
  | 0x180814 => s.slewTo v
  | 0x180910 => s.ifBit v 0 fun s => s.ptpPop
  | 0x181000 =>
    if s.get .SYN_CH_TRIG_CFG_EN i = bits v 0 1 then s else if v.testBit 0 then s.trigEnable i else s.trigDisable i
  | 0x181004 => s.pitchCommit i v
  | 0x183000 => s.unmapPins
  | _ => s

/-- A management event message of an entry (18_i3c_management_port.md R450), for a session that forwards events. -/
def State.forwardEvent (s : State) (e : Ev) (f : Forward) : State :=
  if !f.on || s.get .EGR_QP_STATUS_STATE f.qp ≠ 1 then s
  else
    let ver := 16 * match s.session f.session with | some x => x.major | none => 1
    let m := 0x22 :: (cmdReplyHeader ver f.session (f.ctr + 1) 0 0 0 32).drop 1 ++ e.bytes
    let up (g : Forward) : Forward := if g.session = f.session then { g with ctr := g.ctr + 1 } else g
    let s : State := { s with mgt := { s.mgt with forward := s.mgt.forward.map up } }
    s.sendCtl f.qp (s.sealMsg f.session m)

/-- The head of the event queue is popped and forwarded (01_frame_journey.md R20, 18_i3c_management_port.md R450). -/
def State.evqPop (s : State) : State :=
  match s.evq with
  | [] => s
  | e :: rest =>
    let s := s.mgt.forward.foldl (fun s f => s.forwardEvent e f) s
    ({ s with evq := rest } : State).notify

/-- Code under which a register access is answered; the lowest addresses, where command codes lie, are set apart. -/
def regCode (a : Nat) : Nat := if a < 256 then 2 ^ 40 + a else a

/-- Effects on registers of management, jobs, power and self-test. -/
def State.ctrlWrite (s : State) (r : RegRow) (v : Nat) (src : Src) : State × Status :=
  let bit (k : Nat) : Bool := v.testBit k
  match r.base with
  | 0x404 => (s.ifBit v 0 State.evqPop, .ok)
  | 0x608 => (s.notify, .ok)
  | 0x50044 =>
    if bit 0 then s.ctrlArm (bits v 4 2) (bit 2) (bit 3)
    else if bit 1 then (s.ctrlCancel, .ok)
    else if bits v 6 2 = 0 then (s, .ok) else s.ctrlSetNext (bits v 6 2)
  | 0x40064 => (s.ifBit v 0 State.confirm, .ok)
  | 0x20004 =>
    let s := s.ifBit v 2 State.pwrClrCnt
    let s := s.ifBit v 0 State.sleepBegin
    (s.ifBit v 1 fun s => s.mgtRestart false, .ok)
  | 0x20040 => (effPipeGate (bits v 0 8) src s, .ok)
  | 0x30000 =>
    if bit 16 then
      let u := bits v 0 6
      let s := (s.set .BIST_STATUS_LAST 0 0).bistBegin u (bits v 8 3) (bits v 12 2)
      (if u = 18 then s.mgtRestart false else s, .ok)
    else if bit 17 then ((s.set .BIST_H_STOPPED 0 1).set .BIST_STATUS_STATE 0 2, .ok) else (s, .ok)
  | _ => (s, .ok)

/-- Effects on registers of the pixel plane. -/
def State.pixelWrite (s : State) (r : RegRow) (i v : Nat) (src : Src) : State × Status :=
  let bit (k : Nat) : Bool := v.testBit k
  match r.base with
  | 0x200004 =>
    let s := if s.get .PIPE_CTRL_FENCE i = bits v 0 1 then s else if bit 0 then effPipeFence i src s else effPipeUnfence i s
    ((s.ifBit v 1 (effPipeReset i)).ifBit v 2 fun s => s.pipeClrCnt i, .ok)
  | 0x280028 =>
    (if bit 31 then effCtxGo (bits v 0 8) (bits v 8 1) (bit 9) src s
      else if bit 10 then effCtxCancel (bits v 0 8) src s else s, .ok)
  | 0x280040 =>
    let p := bits v 0 3
    if bit 4 then match s.rollAdmit p with
      | some (r, next) => (s.rollRefused r next, .range)
      | none => ((effRollStart p (bit 3) src s).ifBit v 5 effRollStop, .ok)
    else (s.ifBit v 5 effRollStop, .ok)
  | 0x300800 =>
    (if bit 31 then effMrgGo (bits v 0 3) (bits v 8 1) src s else if bit 10 then effMrgCancel (bits v 0 3) src s else s, .ok)
  | 0x300808 => (s.ifBit v 0 State.mrgClrCnt, .ok)
  | 0x340800 =>
    (if bit 31 then effRefGo (bits v 0 3) (bits v 8 1) src s else if bit 10 then effRefCancel (bits v 0 3) src s else s, .ok)
  | 0x340880 =>
    let s := s.fenceTo .REF_CTRL_FENCE .REF_CTRL_FENCED v effRefFence
    ((s.ifBit v 1 effRefReset).ifBit v 2 State.refClrCnt, .ok)
  | 0x34081C =>
    if bit 6 then s.slotClear i src else if bit 4 then s.slotLoad i else if bit 5 then s.slotDone i src else (s, .ok)
  | 0x38000C => (s.ifBit v 3 (effProfCommit i src), .ok)
  | 0x380400 =>
    let s := s.fenceTo .TSL_CTRL_FENCE .TSL_CTRL_FENCED v effTslFence
    ((s.ifBit v 1 effTslReset).ifBit v 2 State.tslClrCnt, .ok)
  | _ => (s, .ok)

/-- Effects on registers of egress, the bridge, the fabric, memory and storage. -/
def State.hostWrite (s : State) (r : RegRow) (i v whole : Nat) (src : Src) : State :=
  match r.base with
  | 0x40003C => s.ifBit v 30 (effClassDelaySet i (bits v 31 1) (bits v 0 24))
  | 0x410020 => s.consReturn i v
  | 0x420000 => (s.ifBit v 1 (effQpReset i)).ifBit v 0 (effQpEnable i src)
  | 0x430000 =>
    let s := s.fenceTo .EGR_CTRL_FENCE .EGR_CTRL_FENCED v effEgrFence
    (s.ifBit v 1 effEgrReset).ifBit v 2 State.egrClrCnt
  | 0x430104 => s.ifBit v 0 fun s => { s with egr := { s.egr with drops := s.egr.drops.drop 1 } }
  | 0x430204 => s.ifBit v 0 fun s =>
    let s : State := { s with egr := { s.egr with late := s.egr.late.drop 1 } }
    if s.egr.late.isEmpty then s.set .EGR_H_LATE_ERR 0 0 else s
  | 0x440000 => s.winStage i (s.winStaged i).1 (s.winStaged i).2
  | 0x440004 => s.winStage i whole (s.winStaged i).2
  | 0x440008 =>
    let s := s.winStage i (s.winStaged i).1 (winBits v)
    s.ifBit v 31 fun s => (s.winCommit i).1
  | 0x440400 =>
    let s := s.fenceTo .BRG_CTRL_FENCE .BRG_CTRL_FENCED v effBrgFence
    (s.ifBit v 1 effBrgReset).ifBit v 2 State.brgClrCnt
  | 0x480010 => s.ifBit v 0 (effFabPortWake i)
  | 0x481028 =>
    let s := s.fenceTo .FAB_CTRL_FENCE .FAB_CTRL_FENCED v effFabFence
    (s.ifBit v 1 effFabReset).ifBit v 2 State.fabClrCnt
  | 0x482000 => (s.set .FAB_H_SPORT i (bits v 0 4)).set .FAB_H_SHOPS i (bits v 8 6)
  | 0x482100 =>
    let s := s.set .FAB_H_SMASK 0 (bits v 8 8)
    s.ifBit v 0 fun s => s.routeCommit (bits v 8 8)
  | 0x483004 => s.ifBit v 0 fun s => { s with fab := { s.fab with late := s.fab.late.drop 1 } }
  | 0x500008 =>
    let s := s.fenceTo .MEM_CTRL_FENCE .MEM_CTRL_FENCED v (effMemFence src)
    (s.ifBit v 1 (effMemReset src)).ifBit v 2 State.memClrCnt
  | 0x540420 => s.keepSetting 0x540420 (s.plainWord 0x540420)
  | 0x540424 =>
    let s := s.keepSetting 0x540424 (bits v 0 16 + 2 ^ 16 * bits v 16 7)
    if bits v 0 16 = s.get .STO_CFG1_REC_GIB then s else effRecGibWrite (bits v 0 16) src s
  | 0x540428 => s.keepSetting 0x540428 (s.plainWord 0x540428)
  | 0x540474 =>
    let s := s.fenceTo .STO_CTRL_FENCE .STO_CTRL_FENCED v effStoFence
    (s.ifBit v 1 effStoReset).ifBit v 2 State.stoClrCnt
  | 0x10010 => s.keepSetting 0x10010 (s.plainWord 0x10010)
  | _ => s

/-- Registers that do something only where a write changes them: the selection of an equalisation entry, and those whose
values are kept in NAND. -/
def onChange (base : Nat) : Bool := [0x10001C, 0x540420, 0x540428, 0x10010].contains base

/-- A write that has passed its checks: the fields, the lower half staged with it, and what the register does. -/
def State.regApply (s : State) (a v : Nat) (src : Src) : State × Status :=
  match regFind a with
  | none => (s, .ok)
  | some (r, i) =>
    let ch := s.changes a v src.ini
    let whole := match upperField a with | some (_, g) => s.pairValue a v src.ini g.fld | none => v
    let lo := (s.stagedLo a src.ini).getD 0
    let s : State := { s with mgt := { s.mgt with staged := s.mgt.staged.filter fun l => !(l.ini == src.ini && l.addr == a) } }
    let hi := (r.parts i).filter fun p => ch.contains p
    let low := ch.filter fun p => !(r.parts i).contains p
    let s := (s.putFields hi v).putFields low lo
    if ch.isEmpty && onChange r.base then (s, .ok)
    else
      let s := s.frontWrite r i v whole src
      let q := s.ctrlWrite r v src
      if q.2 ≠ .ok then q
      else
        let q := q.1.pixelWrite r i v src
        (q.1.hostWrite r i v whole src, q.2)

/-- A write of a `_LO` register is staged (R512); of a window's, into the window's staging (R284). -/
def State.regStage (s : State) (a v : Nat) (ini : Ini) : State :=
  if 0x440000 ≤ a && a < 0x440100 then
    let w := (a - 0x440000) / 0x10
    let q := s.winStaged w
    s.winStage w (q.1 / 2 ^ 32 * 2 ^ 32 + v) q.2
  else
    let rest := s.mgt.staged.filter fun l => !(l.ini == ini && l.addr == a + 4)
    { s with mgt := { s.mgt with staged := rest ++ [⟨ini, a + 4, v⟩] } }

/-! ### The write as a command -/

/-- The steps of R508 on a write. Any write to `MGT_EVQ_POP` but the management processor's completes with RIGHTS
(01_frame_journey.md R20). -/
def State.regWriteCheck (s : State) (a v : Nat) (src : Src) : Status :=
  let st := s.regReach a true
  if st ≠ .ok then st
  else if s.roleOf src = .none then .rights
  else if a = 0x404 && src.ini != .mgt then .rights
  else if !s.mayAs src (leastRole (s.changes a v src.ini)) then .rights
  else if s.absentPage a then .range
  else if (match regFind a with | some (r, _) => keptRegister r.base | none => false) && s.settingsBusy src then .busy
  else s.ownerCheck a v src.ini

/-- Registers that hold staged values: their writes are not recorded, only the commit is (17_roles_security_audit.md R429). -/
def stagingRegister (base : Nat) : Bool :=
  [0x100020, 0x100024, 0x100028, 0x380000, 0x380004, 0x380008, 0x38000C, 0x440000, 0x440004, 0x440008].contains base

/-- The bit of a register that commits or applies staged values. -/
def commitBit (base : Nat) : Option Nat :=
  match base with
  | 0x100028 => some 14 | 0x144000 => some 4 | 0x280028 => some 31 | 0x300800 => some 31 | 0x340800 => some 31
  | 0x38000C => some 3 | 0x440008 => some 31 | _ => none

/-- The write is a commit or apply. -/
def isCommit (base v : Nat) : Bool := match commitBit base with | some k => v.testBit k | none => false

/-- A write is recorded (17_roles_security_audit.md R429): it changes a field marked installer or maker, or it commits. -/
def State.regRecorded (s : State) (a v : Nat) (src : Src) : Bool :=
  match regFind a with
  | none => false
  | some (r, _) => isCommit r.base v || (!stagingRegister r.base &&
      (s.changes a v src.ini).any fun p => p.2.role == .installer || p.2.role == .maker)

/-- The bank that a commit of a context, layout or comparison bank names: its base and the other bank's, and its size. -/
def State.commitObj (s : State) (base v : Nat) : Option (Nat × Nat × Nat) :=
  match base with
  | 0x280028 => let x := bits v 0 8; let b := s.commitBank x; some (bankBase x b, bankBase x (1 - b), 0x8000)
  | 0x300800 => let k := bits v 0 3; let b := s.layCommitBank k; some (layBase k b, layBase k (1 - b), 0x2000)
  | 0x340800 => let k := bits v 0 3; let b := s.cmpCommitBank k; some (cmpBase k b, cmpBase k (1 - b), 0x800)
  | _ => none

/-- The record of a write (17_roles_security_audit.md R430). -/
def State.regRec (s : State) (a v : Nat) (src : Src) : AuditRec :=
  match regFind a with
  | none => s.writeRec src a v
  | some (r, _) =>
    if isCommit r.base v then match s.commitObj r.base v with
      | some (b, other, n) => s.auditRec src 2 2 (b % 2 ^ 32) (digest16 (s.memBytes other n)) (digest16 (s.memBytes b n))
      | none => s.auditRec src 2 1 a noValue noValue
    else s.auditRec src 1 1 a (valueDigest (s.regWord a)) (valueDigest v)

/-- The write takes effect once its record is durable: the owner's checks hold again by then, or it completes with their
status. -/
def effRegisterWrite (a v : Nat) (src : Src) (s : State) : State :=
  let st := s.ownerCheck a v src.ini
  if st ≠ .ok then s.answer src (regCode a) st
  else
    let q := s.regApply a v src
    if q.2 ≠ .ok then q.1.answer src (regCode a) q.2 else q.1

/-- A write of `v` to the register-class address `a`: refused, staged, made, or queued for its record (R508 to R512). -/
def State.registerWrite (s : State) (a v : Nat) (src : Src) : State :=
  let st := s.regWriteCheck a v src
  if st ≠ .ok then
    let s := if a = 0x30000 && v.testBit 16 then s.set .BIST_STATUS_LAST 0 (statusCode st) else s
    s.answer src (regCode a) st
  else if 0x310000 ≤ a && a < 0x330000 then
    let q := s.layStore a (leBytes 4 v) src
    q.1.answer src (regCode a) q.2
  else if 0x350000 ≤ a && a < 0x358000 then
    let q := s.cmpStore a (leBytes 4 v) src
    q.1.answer src (regCode a) q.2
  else if loStages a || (0x440000 ≤ a && a < 0x440100 && a % 0x10 = 0) then (s.regStage a v src.ini).answer src (regCode a) .ok
  else if s.regRecorded a v src then
    s.recorded src (regCode a) (.registerWrite a v src) (s.regRec a v src) (effRegisterWrite a v src)
  else s.completed src (regCode a) (effRegisterWrite a v src)

/-- A register write. -/
def execRegisterWrite (a v : Nat) (src : Src) (s : State) : Res := .next (s.registerWrite a (v % 2 ^ 32) src)

/-- The sticky bits of the register at `a`. -/
def stickyBits (a : Nat) : Nat :=
  match regFind a with
  | some (r, i) => (r.parts i).foldl (fun n p => if p.2.acc = .w1c then n + (2 ^ p.2.len - 1) * 2 ^ p.2.lo else n) 0
  | none => 0

/-- The RW fields of the register at `a` as they stand. -/
def State.rwBits (s : State) (a : Nat) : Nat :=
  match regFind a with
  | some (r, i) => (r.parts i).foldl (fun n p => if p.2.acc = .rw then n + s.shownBits p.1 p.2 * 2 ^ p.2.lo else n) 0
  | none => 0

/-- A W1C write clears the sticky bits of its mask (R514): a write of those bits and of every other field as it stands. -/
def execStickyClear (a mask : Nat) (src : Src) (s : State) : Res :=
  .next (s.registerWrite a (s.rwBits a + (mask % 2 ^ 32 &&& stickyBits a)) src)

/-- A read of a `_LO` register latches the upper half for its initiator (R511); at any other address of the class the read
has no such effect. -/
def execLoReadLatch (a : Nat) (src : Src) (s : State) : Res :=
  let q := s.regRead a src
  let s := if q.2.1 = .ok then q.1.emit (.reply src (regCode a) (leBytes 4 q.2.2)) else q.1
  .next (s.answer src (regCode a) q.2.1)

/-- A write of a `_HI` register applies it with the staged lower half in one clock (R512). -/
def execHiWriteApply (a v : Nat) (src : Src) (s : State) : Res := .next (s.registerWrite a (v % 2 ^ 32) src)

/-! ### The end of a block reset -/

/-- The reset of unit `u` ends (05_pipeline_contexts.md R148, 20_power_sleep_reset.md R489): accesses to it are served
again. The memory's reset has an end of its own. -/
def execBlockResetDone (u : Nat) (s : State) : Res :=
  if u < 8 then .next (s.pipeResetDone u) else if u = 16 then .next s else .next (s.set .PWR_H_RESETTING u 0)

end Sys2Proof.Machine
end

