-- ==== Sys2Proof/Machine/Bridge.lean ====
section
/-! DEFINITION. The host window bridge's commands (11_host_window_bridge.md): messages on control queue pairs, the checks of an
access request, its pieces at their targets, late completions and read-ahead. Each SEND packet of a
message is a command of the message's row (R263). -/

namespace Sys2Proof.Machine

/-! ### Messages (R258, R263, R279) -/

/-- A control queue pair takes messages: it is RTS, reliable-connected, and `CTRL` is 1. -/
def State.ctlReady (s : State) (q : Nat) : Bool :=
  decide (q < 256) && s.on .EGR_QP_CFG_CTRL q && !s.on .EGR_QP_CFG_MODE q && s.get .EGR_QP_STATUS_STATE q == 1

/-- A message of up to 32,768 bytes is received, acknowledged, and takes its place in arrival order. -/
def State.received (s : State) (q : Nat) : State := (s.sendAck q).bump .BRG_H_ORDER 0 1

/-- A message is discarded (R279). -/
def State.badMessage (s : State) (q : Nat) : State := (s.inc .BRG_CNT_BAD).brgEvent 5 q 0xFFFF 0 0

/-- The length of data that a message's header states: arguments of a command, write data of an access. -/
def headerData (m : List Nat) : Nat :=
  if m.getD 0 0 = 0x20 || m.getD 16 0 = 2 || m.getD 16 0 = 3 then leAt m 28 4 else 0

/-- A credit block as R258 lays it out. -/
def creditFormed (m : List Nat) : Bool :=
  m.length == 8 + 8 * m.getD 1 0 && m.getD 1 0 != 0 && (m.drop 2).take 6 == List.replicate 6 0

/-- A message is of a type that comes to the FZ-A128 and has the length its header says (R279, step 1 of R282). -/
def messageFormed (m : List Nat) : Bool :=
  decide (m.length ≤ 32768) && match m.getD 0 0 with
    | 0x01 => creditFormed m
    | 0x10 | 0x20 => m.length == 64 + headerData m
    | _ => false

/-- Bytes of the frame that brings a SEND packet with `n` bytes of payload (R253): Ethernet header and FCS, IP, UDP, BTH,
ICRC. -/
def State.sendFrame (s : State) (q n : Nat) : Nat := 18 + (if s.qpIpv6 q then 40 else 20) + 8 + 12 + 4 + n

/-- The message that a packet completes is no longer in parts, and is received. -/
def State.completeMsg (s : State) (q : Nat) : State :=
  ({ s with egr := { s.egr with parts := tabErase s.egr.parts q } } : State).received q

/-- The parts of a message that queue pair `q` has received so far. -/
def State.partsOf (s : State) (q : Nat) : Option (List Nat) := (s.egr.parts.find? fun e => e.1 == q).map (·.2)

/-- A SEND packet of a control queue pair arrives (R253, R263). A frame over 9,216 bytes is discarded and counted with the
bad frames. A First opens a message, in place of one left unfinished; a Middle goes on with it; a Last, or an Only,
completes it, and a complete message that `mine` takes is received and served by `act`. DESIGN CHOICE: a packet over the
queue pair's MTU discards its message, which is counted under R279; a Middle or Last without a message has no effect. -/
def State.sendPacket (s : State) (q : Nat) (pos : SendPos) (data : List Nat) (ce : Bool) (mine : List Nat → Bool)
    (act : State → List Nat → State) : State :=
  if !s.ctlReady q then s
  else
    let keep (s : State) (l : List Nat) : State := { s with egr := { s.egr with parts := tabPut s.egr.parts q l } }
    let kept := s.partsOf q
    let s := s.countCe q ce
    if 9216 < s.sendFrame q data.length then s.inc .EGR_PORT_CNT_RXBAD (s.get .EGR_QP_CFG_PORT q)
    else if s.qpMtu q < data.length then
      ({ s with egr := { s.egr with parts := tabErase s.egr.parts q } } : State).badMessage q
    else match pos, kept with
      | .only, _ => if mine data then act (s.completeMsg q) data else s
      | .first, _ => if mine data then keep s data else s
      | .middle, some l => keep s (l ++ data)
      | .last, some l => if mine (l ++ data) then act (s.completeMsg q) (l ++ data) else s
      | _, none => s

/-- One credit message (R258): the stream's consumer index. -/
def State.credit (s : State) (m : List Nat) : State :=
  let st := leAt m 0 2
  if st = 0 || 256 ≤ st then s else s.consReturn st (leAt m 4 4)

/-- A credit block is served: each of its messages in order, or it is discarded whole (R258). -/
def State.creditIn (q : Nat) (s : State) (data : List Nat) : State :=
  if !messageFormed data then s.badMessage q
  else (List.range (data.getD 1 0)).foldl (fun s i => s.credit (data.drop (8 + 8 * i))) s

/-- A packet of a credit block. -/
def execCreditBlock (q : Nat) (snd : SendIn) (s : State) : Res :=
  .next (s.sendPacket q snd.pos snd.data snd.ce (fun m => m.getD 0 0 == 0x01) (State.creditIn q))

/-- A packet of a message of an unknown type, of a type that goes to the host, or with a length that disagrees with its
header. -/
def execBadMessage (q : Nat) (snd : SendIn) (s : State) : Res :=
  .next (s.sendPacket q snd.pos snd.data snd.ce (fun m => !messageFormed m) fun s _ => s.badMessage q)

/-! ### Authentication (steps 2 to 5 of R282) -/

/-- What authentication finds: nothing to answer, a reply with a status, or acceptance. -/
inductive Auth where
  | discard | refuse (st : Status) | accept
  deriving DecidableEq, Repr

/-- Session 0 accepts three commands only (17_roles_security_audit.md R422). -/
def loginCommand (m : List Nat) : Bool := m.getD 0 0 == 0x20 && [0x01, 0x02, 0x04].contains (m.getD 16 0)

/-- Steps 2 to 5 of R282 on a message whose form is right; on session 0 neither counter nor HMAC is checked, and there is
no agreed major (17_roles_security_audit.md R422). -/
def State.authCheck (s : State) (m : List Nat) : Auth :=
  let n := leAt m 2 2
  if n = 0 then (if loginCommand m then .accept else .discard)
  else match s.session n with
    | none => .discard
    | some x =>
      let body := m.take (m.length - 32)
      if macOf x.secret body ≠ m.drop (m.length - 32) then .discard
      else if leAt m 4 8 ≤ x.ctr then .refuse .integrity
      else if m.getD 1 0 / 16 ≠ x.major then .refuse .version
      else .accept

/-- From step 4 onward the counter is accepted, and the session is not idle (R282, 17_roles_security_audit.md R425). -/
def State.acceptCounter (s : State) (m : List Nat) : State :=
  let f (x : Session) : Session :=
    if x.num == leAt m 2 2 && decide (x.ctr < leAt m 4 8) then { x with ctr := leAt m 4 8, seen := s.elapsed } else x
  { s with sec := { s.sec with sessions := s.sec.sessions.map f } }

/-- A message that fails authentication is counted and not answered (R282). -/
def State.authFail (s : State) (q : Nat) (m : List Nat) : State :=
  (s.inc .BRG_CNT_AUTH_FAIL).brgEvent 0 q (leAt m 2 2) (leAt m 12 4) 0

/-! ### Access requests (R280 to R289) -/

/-- Element of a window's data-invariant mapping (R288). -/
def swapElem (n : Nat) : Nat := match n with | 1 => 2 | 2 => 4 | 3 => 8 | _ => 1

/-- The end of a fetch (R289): the granule that holds the last byte, then `RA_GRANULES` more, up to a 4 KiB boundary. -/
def fetchStop (last ra : Nat) : Nat :=
  let g := ceilDiv last 64 * 64
  min (g + 64 * ra) (ceilDiv g 4096 * 4096)

/-- The request of a message, as its window maps it (R280, R283). -/
def State.requestOf (s : State) (q : Nat) (m : List Nat) : BrgReq :=
  let w := m.getD 17 0
  let op := m.getD 16 0
  let len := leAt m 28 4
  let addr := s.get .BRG_WIN_BASE w + leAt m 20 8
  let elem := swapElem (s.get .BRG_WIN_CFG_SWAP w)
  let pre := s.on .BRG_WIN_CFG_PREFETCH w && op == 1
  let stop := if pre then fetchStop (addr + len) (s.get .BRG_WIN_CFG_RA_GRANULES w) else addr + len
  let first := if pre then addr - addr % 64 else addr
  let data := if op = 2 || op = 3 then swapBytes elem ((m.drop 32).take len) else []
  let role := match s.session (leAt m 2 2) with | some x => x.role | none => .none
  { qp := q, order := s.get .BRG_H_ORDER, role := role, ver := m.getD 1 0, session := leAt m 2 2, ctr := leAt m 4 8,
    tag := leAt m 12 4, op := op, win := w, addr := addr, len := len, data := data, elem := elem, prefetch := pre,
    fetchEnd := stop, pieces := cutPieces (stop - first) first (stop - first), readBack := false, lost := false,
    gone := false }

/-- Steps 6 to 9 of R282. -/
def State.accessCheck (s : State) (r : BrgReq) (off : Nat) : Status :=
  let words := r.addr < 0x20000000
  if !(r.op == 1 || r.op == 2 || (r.op == 3 && r.ver / 16 == 2)) then .range
  else if 16 ≤ r.win || !s.on .BRG_WIN_CFG_EN r.win then .range
  else if r.len = 0 || s.qpMtu r.qp - 64 < r.len || 2 ^ s.get .BRG_WIN_CFG_LOG2_SIZE r.win < off + r.len then .range
  else if roleRank r.role < 1 + s.get .BRG_WIN_CFG_MIN_ROLE r.win || (r.op != 1 && s.on .BRG_WIN_CFG_READ_ONLY r.win) then
    .rights
  else if words && (r.addr % 4 ≠ 0 || r.len % 4 ≠ 0) then .range
  else if r.addr % r.elem ≠ 0 || r.len % r.elem ≠ 0 then .range
  else .ok

/-- Requests waiting on a queue pair. -/
def State.waitingOn (s : State) (q : Nat) : Nat := (s.brg.wait.filter fun r => r.qp == q).length

/-- The outcome of steps 6 to 10, and of a bridge reset in progress (R282, R294). -/
def State.admitAccess (s : State) (r : BrgReq) (off : Nat) : Status :=
  let st := s.accessCheck r off
  if st ≠ .ok then st
  else if s.unitDown 14 then .targetReset
  else if 8 ≤ s.waitingOn r.qp || s.on .BRG_CTRL_FENCE then .busy
  else .ok

/-- An access request: the steps of R282, then it waits its turn on its queue pair and starts when it may (R286). -/
def State.accessIn (q : Nat) (s : State) (data : List Nat) : State :=
  if !messageFormed data then s.badMessage q
  else
    let r := s.requestOf q data
    match s.authCheck data with
    | .discard => s.authFail q data
    | .refuse st => (s.acceptCounter data).brgReply r st 0 0 0 []
    | .accept =>
      let st := s.admitAccess r (leAt data 20 8)
      let s := s.acceptCounter data
      if st ≠ .ok then s.brgReply r st 0 0 0 []
      else ({ s with brg := { s.brg with wait := s.brg.wait ++ [r] } } : State).brgStart

/-- A packet of an access request. -/
def execAccessRequest (q : Nat) (snd : SendIn) (s : State) : Res :=
  .next (s.sendPacket q snd.pos snd.data snd.ce (fun m => m.getD 0 0 == 0x10) (State.accessIn q))

/-! ### Commands (R279) -/

/-- Lengths of the arguments of a command (18_i3c_management_port.md R449, 19_self_test.md R465, 20_power_sleep_reset.md
R503). -/
def argLengths : List (Nat × Nat) := [
  (0x01, 4), (0x02, 8320), (0x03, 0), (0x04, 36), (0x05, 0), (0x06, 0), (0x07, 4), (0x10, 4), (0x11, 4), (0x12, 4),
  (0x13, 0), (0x14, 4), (0x15, 0), (0x20, 16), (0x21, 4), (0x22, 4), (0x23, 16), (0x24, 4), (0x30, 0), (0x31, 24),
  (0x32, 16), (0x33, 16), (0x40, 24), (0x41, 0), (0x42, 16), (0x50, 16), (0x51, 0), (0x60, 36), (0x61, 0), (0x62, 8),
  (0x70, 4), (0x71, 0), (0x72, 4), (0x73, 4), (0x78, 12), (0x79, 0), (0x7A, 8), (0x7B, 8)]

/-- What stops an authenticated command before it is served: the management complex is away, an unknown code, or arguments of
another length (R279, 18_i3c_management_port.md R449). -/
def State.commandCheck (s : State) (m : List Nat) : Status :=
  if s.on .BOOT_H_AWAY then .busy
  else if argLengths.contains (m.getD 16 0, leAt m 28 4) then .ok else .range

/-- A command message is answered with a status and no data. -/
def State.cmdRefuse (s : State) (q : Nat) (m : List Nat) (st : Status) : State :=
  s.sendCtl q (s.sealMsg (leAt m 2 2)
    (cmdReplyHeader (m.getD 1 0) (leAt m 2 2) (leAt m 4 8) (leAt m 12 4) (m.getD 16 0) (statusCode st) 0))

/-- A command message: authenticated and passed to firmware, or answered. The command itself is the row of its code, sent by
this queue pair for this session. -/
def State.commandIn (q : Nat) (s : State) (data : List Nat) : State :=
  if !messageFormed data then s.badMessage q
  else match s.authCheck data with
    | .discard => s.authFail q data
    | .refuse st => (s.acceptCounter data).cmdRefuse q data st
    | .accept =>
      let s := s.acceptCounter data
      let st := if s.unitDown 14 then .targetReset else s.commandCheck data
      if st ≠ .ok then s.cmdRefuse q data st
      else
        let c : HostCmd := ⟨q, s.get .BRG_H_ORDER, data.getD 1 0, leAt data 2 2, leAt data 4 8, leAt data 12 4, data.getD 16 0⟩
        { s with brg := { s.brg with cmds := s.brg.cmds ++ [c] } }

/-- A packet of a command message. -/
def execCommandMessage (q : Nat) (snd : SendIn) (s : State) : Res :=
  .next (s.sendPacket q snd.pos snd.data snd.ce (fun m => m.getD 0 0 == 0x20) (State.commandIn q))

/-! ### Pieces at their targets (R285 to R287, R292) -/

/-- A bridge write discards the read-ahead that holds a byte it writes (R290). -/
def State.writtenOver (s : State) (addr len : Nat) : State :=
  s.dropAheadIf fun _ h => h.bytes.any fun b => addr ≤ b.1 && b.1 < addr + len

/-- A write of `data` at an internal address for a source: the state, and the status where the target gives it at once.
A register write answers through `Out.status`. -/
def State.targetWrite (s : State) (addr : Nat) (data : List Nat) (src : Src) : State × Option Status :=
  match targetClass addr with
  | 1 => (s.registerWrite addr (leAt data 0 4) src, none)
  | 2 => let q := s.ctxStore addr data src; (q.1, some q.2)
  | 3 => let q := s.memAccess src addr data.length (some data) .none; (q.1, some q.2.1)
  | _ => (s, some .range)

/-- A read of `n` bytes at an internal address for a source. -/
def State.targetRead (s : State) (addr n : Nat) (src : Src) (err : MemErr) : State × Status × List Nat :=
  match targetClass addr with
  | 1 => let q := s.regRead addr src; (q.1, q.2.1, leBytes 4 q.2.2)
  | 2 => let q := s.storeRead addr n src; (s, q.1, q.2)
  | 3 => s.memAccess src addr n none err
  | _ => (s, .range, [])

/-- The status that a write made when `n` outputs had been given has completed with. -/
def State.madeStatus (s : State) (n addr : Nat) (src : Src) : Option Status :=
  (s.out.drop n).findSome? fun o => match o with
    | .status src' cmd st => if src' = src && (cmd = regCode addr || cmd = 0) then some st else none
    | _ => none

/-- The data that a piece of a write phase carries. -/
def BrgReq.pieceData (r : BrgReq) (p : Piece) : List Nat := (r.data.drop (p.addr - r.addr)).take p.len

/-- The access of a piece is made: from then on its completion is only awaited. -/
def State.markMade (s : State) (k addr : Nat) : State :=
  let n := s.out.length
  let f (p : Piece) : Piece := if p.addr == addr && p.status.isNone then { p with made := some n } else p
  let slots := s.brg.slots.map fun e => if e.1 == k then (e.1, { e.2 with pieces := e.2.pieces.map f }) else e
  { s with brg := { s.brg with slots := slots } }

/-- Bases of the register blocks (21_register_map.md R505). -/
def blockBases : List Nat := [0x10000, 0x20000, 0x30000, 0x40000, 0x50000, 0x60000, 0x100000, 0x130000, 0x140000, 0x180000,
  0x200000, 0x300000, 0x340000, 0x380000, 0x400000, 0x440000, 0x480000, 0x500000, 0x540000, 0x580000]

/-- Two addresses lie in one register block. -/
def sameBlock (a b : Nat) : Bool := (blockBases.filter (· ≤ a)).length == (blockBases.filter (· ≤ b)).length

/-- An earlier write of slot `k` to the block of `addr`, given up by its request, still waits for its record: the writes of
one initiator to one block take effect in issue order (21_register_map.md R510, 17_roles_security_audit.md R432). -/
def State.writeAhead (s : State) (k addr : Nat) : Bool :=
  s.sec.queue.any fun e => e.src.ini == .slot k && e.effect.isSome && (e.record.cls == 1 || e.record.cls == 2) &&
    sameBlock e.record.obj addr

/-- An outstanding piece reaches its target, or, where a recorded write waits for its record, is looked at again. -/
def State.pieceAt (s : State) (k : Nat) (r : BrgReq) (p : Piece) (err : MemErr) : State :=
  let src : Src := ⟨.slot k, r.session⟩
  match p.made with
  | some n => match s.madeStatus n p.addr src with
    | some st => s.pieceDone k p.addr st []
    | none => s
  | none =>
    if r.writing && s.writeAhead k p.addr then s else
    let n := s.out.length
    let s := s.markMade k p.addr
    if r.writing then
      let q := (s.writtenOver p.addr p.len).targetWrite p.addr (r.pieceData p) src
      match q.2, q.1.madeStatus n p.addr src with
      | some st, _ => q.1.pieceDone k p.addr st []
      | none, some st => q.1.pieceDone k p.addr st []
      | none, none => q.1
    else
      let q := s.targetRead p.addr p.len src err
      q.1.pieceDone k p.addr q.2.1 (if q.2.1 = .ok then q.2.2 else [])

/-- A completion that nobody waits for (R292, 20_power_sleep_reset.md R487): a write its target had still to carry out is
carried out, unless its target was reset. -/
def State.lateAt (s : State) (e : LatePiece) : State :=
  if e.data.isSome && s.writeAhead e.slot e.addr then s else
  let s : State := { s with brg := { s.brg with late := s.brg.late.erase e } }
  let s := match e.data with
    | some d => if e.stale then s else ((s.writtenOver e.addr e.len).targetWrite e.addr d ⟨.slot e.slot, e.session⟩).1
    | none => s
  let s := if e.stale then s.staleDrop 20 else s
  (s.inc .BRG_CNT_LATE).brgEvent 2 e.qp e.session e.tag 0

/-- The outstanding piece at `addr` of slot `k`, with its request. -/
def State.openPiece (s : State) (k addr : Nat) : Option (BrgReq × Piece) :=
  match s.brg.slots.find? fun e => e.1 == k with
  | none => none
  | some (_, r) => (r.pieces.find? fun p => p.addr == addr && p.issued.isSome && p.status.isNone).map fun p => (r, p)

/-- An internal piece completes; one that was given up completes late. -/
def execPieceComplete (k addr : Nat) (err : MemErr) (s : State) : Res :=
  match s.openPiece k addr with
  | some (r, p) => .next (s.pieceAt k r p err)
  | none => match s.brg.late.find? fun e => e.slot == k && e.addr == addr with
    | some e => .next (s.lateAt e)
    | none => .next s

/-- A piece has not completed `BRG_TIMEOUT_US` after its issue (R292). -/
def execPieceTimeout (k addr : Nat) (s : State) : Res :=
  match s.openPiece k addr with
  | none => .next s
  | some (r, p) =>
    if s.elapsed < p.issued.getD 0 + s.get .BRG_TIMEOUT_BRG_TIMEOUT_US * 1000 then .next s
    else
      let s : State := { s with brg := { s.brg with late := s.brg.late ++ [lateOf k r p false] } }
      .next ((s.brgEvent 1 r.qp r.session r.tag (statusCode .timeout)).pieceDone k addr .timeout [])

/-- 100 µs have passed since the fetch (R290). -/
def execReadaheadExpiry (q : Nat) (s : State) : Res :=
  match s.brg.ahead.find? fun e => e.1 == q with
  | some (_, h) => if h.time + 100000 ≤ s.elapsed then .next (s.dropAhead q) else .next s
  | none => .next s

end Sys2Proof.Machine
end

