-- ==== Sys2Proof/Machine/I3c.lean ====
section
/-! DEFINITION. The management port (18_i3c_management_port.md): page transfers, the indirect window, commands in the buffer, the
common command codes, bus conditions, and the target reset pattern. A transfer row carries the bytes that are
committed; one cut short is followed by the row of what cut it. -/

namespace Sys2Proof.Machine

/-! ### The port -/

/-- Whom an indirect access speaks for (R446): the bound session, or none. -/
def State.portSrc (s : State) : Src := ⟨.i3c, s.get .MGT_I3C_STATUS_BOUND_SESSION⟩

/-- The static address (R440). -/
def State.staticAddr (s : State) : Nat := 0x58 + s.get .MGT_I3C_STATUS_ADDR_SEL

/-- Byte 0x0C of the page (R441, 21_register_map.md R517): 2 boot failed, 0 not yet settled, 3 management away, 1
running. -/
def State.stateByte (s : State) : Nat :=
  if s.bootFailed then 2 else if !s.on .BOOT_H_SETTLED then 0 else if s.on .BOOT_H_AWAY then 3 else 1

/-- A START: one that ends a transfer left unfinished sets RECOVERY (R456). -/
def State.busStart (s : State) : State :=
  let s := s.set .I3C_H_RLEFT 0 0
  if s.on .I3C_H_SDA then (s.set .I3C_H_SDA 0 0).portFlag 3 else s

/-- The target acknowledges and sends bytes, or does not acknowledge. -/
def State.i3cSend (s : State) (ack : Bool) (data : List Nat) : State := s.emit (.i3c ack data)

/-- A transfer to the device's address begins. -/
def State.transfer (s : State) : State := s.busStart.inc .MGT_I3C_CNT_XFER

/-- The page pointer moves on by one byte (R441). -/
def State.ptrNext (s : State) : State := s.bump .I3C_H_PTR 0 1

/-! ### The indirect window (R442 to R445) -/

/-- An indirect read is issued; at an address that is no multiple of 4 it completes with RANGE. -/
def State.indirectRead (s : State) : State :=
  let a := s.get .I3C_H_IADDR
  let s := ((s.set .I3C_H_PADDR 0 a).set .I3C_H_PWRITE 0 0).set .I3C_H_PDROP 0 0
  if a % 4 ≠ 0 then s.indirectDone .range 0 else s.set .I3C_H_BUSY 0 1

/-- An indirect write is issued when byte 0xFB is written, unless an access is pending (R442, R444). -/
def State.indirectWrite (s : State) : State :=
  if s.on .I3C_H_BUSY then (s.set .I3C_H_LAST 0 (statusCode .busy)).portFlag 6
  else
    let a := s.get .I3C_H_IADDR
    let s := ((s.set .I3C_H_PADDR 0 a).set .I3C_H_PWRITE 0 1).set .I3C_H_PDATA 0 (s.get .I3C_H_IDATA)
    let s := s.set .I3C_H_HELD 0 0
    if a % 4 ≠ 0 then s.indirectDone .range 0 else s.set .I3C_H_BUSY 0 1

/-- A byte of the indirect address is written (R442): data of a read not yet returned is discarded. -/
def State.writeAddr (s : State) (i v : Nat) : State :=
  let a := s.get .I3C_H_IADDR
  let s := s.set .I3C_H_IADDR 0 (a - bits a (8 * i) 8 * 2 ^ (8 * i) + v * 2 ^ (8 * i))
  let s := s.set .I3C_H_HELD 0 0
  if s.on .I3C_H_BUSY && !s.on .I3C_H_PWRITE then s.set .I3C_H_PDROP 0 1 else s

/-- A byte of the indirect data is written. -/
def State.writeData (s : State) (i v : Nat) : State :=
  let d := s.get .I3C_H_IDATA
  let s := s.set .I3C_H_IDATA 0 (d - bits d (8 * i) 8 * 2 ^ (8 * i) + v * 2 ^ (8 * i))
  if i = 3 then s.indirectWrite else s

/-- Byte 0xFB of a held read has been sent: the access completes (R442, R443). -/
def State.readSent (s : State) : State :=
  if !s.on .I3C_H_HELD then s
  else
    let st := s.get .I3C_H_HSTAT
    let s := ((s.set .I3C_H_HELD 0 0).set .I3C_H_LAST 0 st).bump .I3C_H_DONE 0 1
    if st = 0 then s.bump .I3C_H_IADDR 0 4 else s

/-! ### Commands in the buffer (R447) -/

/-- `SUBMIT` is ignored while a command executes. The message is authenticated as one over egress; a command that passes is
then the row of its code, sent by the port for the session. -/
def State.submit (s : State) : State :=
  if s.get .I3C_H_CMD = 1 then s
  else
    let len := 64 + s.memLe (cmdBuf + 28) 4
    let m := s.memBytes cmdBuf (min len 32769)
    let n := leAt m 2 2
    let discard (s : State) : State := ((s.set .I3C_H_REPLY 0 0).set .I3C_H_CMD 0 3).notify
    if m.getD 0 0 ≠ 0x20 || 32768 < len then discard (s.badMessage 0xFFFF)
    else match s.authCheck m with
      | .discard => discard (s.authFail 0xFFFF m)
      | .refuse st => (s.acceptCounter m).bufReply n (m.getD 16 0) st []
      | .accept =>
        let s := s.acceptCounter m
        let st := if s.unitDown 14 then .targetReset else s.commandCheck m
        if st ≠ .ok then s.bufReply n (m.getD 16 0) st []
        else (s.set .I3C_H_CMD 0 1).notify

/-- `ACK` returns DONE or DISCARDED to IDLE. -/
def State.ackCmd (s : State) : State := if 2 ≤ s.get .I3C_H_CMD then (s.set .I3C_H_CMD 0 0).notify else s

/-- `SUBMIT` written. -/
def execCmdSubmit (s : State) : Res := .next (if s.unreachable then s else s.submit)

/-- `ACK` written. -/
def execCmdAck (s : State) : Res := .next (if s.unreachable then s else s.ackCmd)

/-! ### Page transfers (R441) -/

/-- A byte of the buffer window is written (R441, R447). -/
def State.writeBuf (s : State) (i v : Nat) : State :=
  if s.get .I3C_H_CMD = 1 then s.portFlag 6
  else if s.get .I3C_H_BUF_OFF + i < 32768 then s.putByte (cmdBuf + s.get .I3C_H_BUF_OFF + i) v else s

/-- Flags of byte 0x0D written 1 clear. -/
def State.clearFlags (s : State) (v : Nat) : State :=
  let was := s.get .MGT_I3C_EVENTS_EV
  (s.set .MGT_I3C_EVENTS_EV 0 (was - (was &&& v))).notify

/-- Byte `p` of the page is written; a byte that is RO or reserved ignores it. -/
def State.pageStore (s : State) (p v : Nat) : State :=
  if p = 0x0D then s.clearFlags v
  else if p = 0x10 then (s.set .I3C_H_NOTIFY 0 (v % 8)).notify
  else if p = 0x40 then
    let s := if v.testBit 1 then s.ackCmd else s
    if v.testBit 0 then s.submit else s
  else if p = 0x7E then s.set .I3C_H_BUF_OFF 0 (s.get .I3C_H_BUF_OFF / 256 * 256 + v)
  else if p = 0x7F then s.set .I3C_H_BUF_OFF 0 (s.get .I3C_H_BUF_OFF % 256 + v % 128 * 256)
  else if 0x80 ≤ p && p ≤ 0xDF then s.writeBuf (p - 0x80) v
  else if 0xF0 ≤ p && p ≤ 0xF4 then s.writeAddr (p - 0xF0) v
  else if 0xF8 ≤ p && p ≤ 0xFB then s.writeData (p - 0xF8) v
  else s

/-- A byte of a little-endian value. -/
def byteOf (v i : Nat) : Nat := v / 256 ^ i % 256

/-- What byte `p` of the page reads as. -/
def State.pageByte (s : State) (p : Nat) : Nat :=
  let bound := s.get .MGT_I3C_STATUS_BOUND_SESSION
  if p ≤ 1 then byteOf 0x0080 p
  else if p = 2 then 1
  else if p = 3 then 0x21
  else if p ≤ 0x0B then byteOf (s.get .SEC_FUSE_UID) (p - 4)
  else if p = 0x0C then s.stateByte
  else if p = 0x0D then s.get .MGT_I3C_EVENTS_EV
  else if p ≤ 0x0F then byteOf (s.evq.length % 2048 + s.get .MGT_EVQ_STATUS_OVF * 2 ^ 15) (p - 0x0E)
  else if p = 0x10 then s.get .I3C_H_NOTIFY
  else if p = 0x11 then (if bound = 0 then 0 else 1 + 2 * (roleCode (s.roleOf s.portSrc) % 4))
  else if p ≤ 0x13 then byteOf bound (p - 0x12)
  else if p = 0x41 then s.get .I3C_H_CMD
  else if 0x44 ≤ p && p ≤ 0x47 then byteOf (s.get .I3C_H_REPLY) (p - 0x44)
  else if p = 0x7E || p = 0x7F then byteOf (s.get .I3C_H_BUF_OFF) (p - 0x7E)
  else if 0x80 ≤ p && p ≤ 0xDF then
    (if s.get .I3C_H_BUF_OFF + (p - 0x80) < 32768 then s.memByte (cmdBuf + s.get .I3C_H_BUF_OFF + (p - 0x80)) else 0)
  else if 0xF0 ≤ p && p ≤ 0xF4 then byteOf (s.get .I3C_H_IADDR) (p - 0xF0)
  else if p = 0xF7 then
    (if s.on .I3C_H_BUSY then 1 else if s.on .I3C_H_HELD then s.get .I3C_H_HSTAT else s.get .I3C_H_LAST)
  else if 0xF8 ≤ p && p ≤ 0xFB then
    byteOf (if s.on .I3C_H_HELD then s.get .I3C_H_HDATA else s.get .I3C_H_IDATA) (p - 0xF8)
  else if p = 0xFC then s.get .I3C_H_LAST
  else if p = 0xFE || p = 0xFF then byteOf (s.get .I3C_H_DONE) (p - 0xFE)
  else 0

/-- A read that reaches byte 0xF7 or 0xF8 issues an indirect read while none is pending or held (R443). -/
def State.reach (s : State) (p : Nat) : State :=
  if (p = 0xF7 || p = 0xF8) && !s.on .I3C_H_BUSY && !s.on .I3C_H_HELD then s.indirectRead else s

/-- A pending read. -/
def State.readPending (s : State) : Bool := s.on .I3C_H_BUSY && !s.on .I3C_H_PWRITE

/-- `n` bytes are read from the pointer onward: the bytes sent, ending early where I3C mode ends the read, or where I2C mode
stretches for the read just issued (R445). -/
def State.pageBytes (s : State) : Nat → List Nat → State × List Nat
  | 0, acc => (s, acc)
  | n + 1, acc =>
    let p := s.get .I3C_H_PTR
    let t := s.reach p
    if t.on .I3C_H_MODE && p = 0xF7 && t.on .I3C_H_BUSY then (t, acc ++ [1])
    else if !t.on .I3C_H_MODE && t.readPending && !s.on .I3C_H_BUSY then (t.set .I3C_H_RLEFT 0 (n + 1), acc)
    else
      let b := t.pageByte p
      let t := if p = 0xFB then t.readSent else t
      t.ptrNext.pageBytes n (acc ++ [b])

/-- A write transfer: the pointer, then bytes at it (R441). A device that cannot be reached does not acknowledge. -/
def execPageWrite (data : List Nat) (s : State) : Res :=
  if s.unreachable then .next (s.i3cSend false [])
  else
    let s := s.transfer
    match data with
    | [] => .next (s.i3cSend true [])
    | p :: rest =>
      let s := rest.foldl (fun s v => (s.pageStore (s.get .I3C_H_PTR) (v % 256)).ptrNext) (s.set .I3C_H_PTR 0 p)
      .next (s.i3cSend true [])

/-- A read transfer of up to `n` bytes (R441, R443, R445). -/
def execPageRead (n : Nat) (s : State) : Res :=
  if s.unreachable then .next (s.i3cSend false [])
  else
    let s := s.transfer
    let p := s.get .I3C_H_PTR
    let t := s.reach p
    if t.on .I3C_H_MODE && 0xF8 ≤ p && p ≤ 0xFB && t.readPending then .next (t.i3cSend false [])
    else
      let q := s.pageBytes n []
      .next (q.1.i3cSend true q.2)

/-- A stretched read goes on. -/
def State.goOn (s : State) : State :=
  let n := s.get .I3C_H_RLEFT
  if n = 0 then s
  else
    let q := (s.set .I3C_H_RLEFT 0 0).pageBytes n []
    q.1.i3cSend true q.2

/-- The pending access reaches its target. -/
def State.indirectAt (s : State) (err : MemErr) : State :=
  let a := s.get .I3C_H_PADDR
  let src := s.portSrc
  if !s.on .I3C_H_BUSY then s
  else if s.get .I3C_H_PMADE ≠ 0 then match s.madeStatus (s.get .I3C_H_PMADE - 1) a src with
    | some st => s.indirectDone st 0
    | none => s
  else if s.on .I3C_H_PWRITE then
    let n := s.out.length
    let q := (s.set .I3C_H_PMADE 0 (n + 1)).targetWrite a (leBytes 4 (s.get .I3C_H_PDATA)) src
    match q.2, q.1.madeStatus n a src with
    | some st, _ => q.1.indirectDone st 0
    | none, some st => q.1.indirectDone st 0
    | none, none => q.1
  else
    let q := s.targetRead a 4 src err
    (q.1.indirectDone q.2.1 (leNat q.2.2)).goOn

/-- An indirect access completes (R442, R443); `late` is the completion of one that was given up (R445, R457) or whose block has
been reset (20_power_sleep_reset.md R487). -/
def execIndirectComplete (late : Bool) (err : MemErr) (s : State) : Res :=
  if !late then .next (s.indirectAt err)
  else if s.get .I3C_H_PLATE ≠ 0 then
    .next (((s.set .I3C_H_PLATE 0 (s.get .I3C_H_PLATE - 1)).inc .MGT_I3C_CNT_TIMEOUT).portFlag 5)
  else if s.get .I3C_H_PSTALE ≠ 0 then .next ((s.set .I3C_H_PSTALE 0 (s.get .I3C_H_PSTALE - 1)).staleDrop 0)
  else .next s

/-- In I2C mode a read has not completed 2 ms after its issue (R445): 0xFF up to byte 0xFB, and TIMEOUT in 0xFC. -/
def execIndirectTimeout (s : State) : Res :=
  let n := s.get .I3C_H_RLEFT
  if n = 0 || !s.readPending then .next s
  else
    let k := min n (0xFC - s.get .I3C_H_PTR)
    let s := (((s.set .I3C_H_BUSY 0 0).set .I3C_H_PDROP 0 0).inc .I3C_H_PLATE).set .I3C_H_LAST 0 (statusCode .timeout)
    let q := ((s.set .I3C_H_RLEFT 0 0).bump .I3C_H_PTR 0 k).pageBytes (n - k) (List.replicate k 0xFF)
    .next (q.1.i3cSend true q.2)

/-! ### Commands of the port (R446, R450) -/

/-- Command 0x05: the session's role is bound to the port; over egress, STATE. -/
def execPortBind (src : Src) (s : State) : Res :=
  let g := s.fwGate src .operator 18
  if g ≠ .ok then .next (s.answer src 0x05 g)
  else if src.ini ≠ .i3c then .next (s.answer src 0x05 .state)
  else .next ((s.set .MGT_I3C_STATUS_BOUND_SESSION 0 src.session).answer src 0x05 .ok)

/-- Command 0x06: the binding ends; over egress, STATE. -/
def execPortUnbind (src : Src) (s : State) : Res :=
  let g := s.fwGate src .operator 18
  if g ≠ .ok then .next (s.answer src 0x06 g)
  else if src.ini ≠ .i3c then .next (s.answer src 0x06 .state)
  else .next ((s.set .MGT_I3C_STATUS_BOUND_SESSION 0 0).answer src 0x06 .ok)

/-- Command 0x07: the session's events go to a control queue pair, or no longer; over I3C, STATE. -/
def execEvtForward (q : Nat) (enable : Bool) (src : Src) (s : State) : Res :=
  let g := s.fwGate src .operator 18
  if g ≠ .ok then .next (s.answer src 0x07 g)
  else if src.ini = .i3c then .next (s.answer src 0x07 .state)
  else if 256 ≤ q || !s.on .EGR_QP_CFG_CTRL q then .next (s.answer src 0x07 .range)
  else
    let was := (s.mgt.forward.find? fun f => f.session == src.session).map (·.ctr)
    let rest := s.mgt.forward.filter fun f => f.session != src.session
    let s : State := { s with mgt := { s.mgt with forward := rest ++ [⟨q, src.session, was.getD 0, enable⟩] } }
    .next (s.answer src 0x07 .ok)

/-- `MGT_EVQ_POP` (01_frame_journey.md R20): the management processor's alone; like any register of `MGT` it is not there
while the management complex is away (R10). -/
def execEvqPop (src : Src) (s : State) : Res :=
  if s.regReach 0x404 true ≠ .ok then .next (s.answer src 0x404 (s.regReach 0x404 true))
  else if s.roleOf src ≠ .device then .next (s.answer src 0x404 .rights) else .next (s.evqPop.answer src 0x404 .ok)

/-! ### Common command codes (R439, R440) -/

/-- The provisional ID. -/
def State.pid (s : State) : Nat :=
  0x2C45 * 2 ^ 33 + 0x0080 * 2 ^ 16 + s.get .MGT_I3C_STATUS_ADDR_SEL * 2 ^ 14 + s.get .SEC_FUSE_UID % 2 ^ 14

/-- The 6 bytes of the provisional ID, most significant first. -/
def State.pidBytes (s : State) : List Nat := (leBytes 6 s.pid).reverse

/-- A common command code reaches the port, unless the device cannot be reached. -/
def State.ccc (s : State) (g : State → State) : Res := .next (if s.unreachable then s else g s.busStart)

/-- One that is directed to the dynamic address: not acknowledged without one. -/
def State.direct (s : State) (g : State → State) : Res :=
  s.ccc fun s => if s.on .MGT_I3C_STATUS_DA_VALID then g s else s.i3cSend false []

/-- A dynamic address is taken; the port is in I3C mode. -/
def State.takeAddr (s : State) (addr : Nat) : State :=
  ((s.set .MGT_I3C_STATUS_DYN_ADDR 0 addr).set .MGT_I3C_STATUS_DA_VALID 0 1).set .I3C_H_MODE 0 1

/-- ENTDAA: a port without a dynamic address sends its identity and takes one. -/
def execEntdaa (addr : Nat) (s : State) : Res :=
  s.ccc fun s => if s.on .MGT_I3C_STATUS_DA_VALID then s
    else (s.takeAddr addr).i3cSend true (s.pidBytes ++ [0x2F, 0x00])

/-- SETDASA to a static address. -/
def execSetdasa (static addr : Nat) (s : State) : Res :=
  s.ccc fun s => if static = s.staticAddr && !s.on .MGT_I3C_STATUS_DA_VALID then (s.takeAddr addr).i3cSend true []
    else s.i3cSend false []

/-- RSTDAA: back to I2C mode at the static address; a binding is kept (R460). -/
def execRstdaa (s : State) : Res :=
  s.ccc fun s => ((s.set .MGT_I3C_STATUS_DYN_ADDR 0 0).set .MGT_I3C_STATUS_DA_VALID 0 0).set .I3C_H_MODE 0 0

/-- The ENINT bit of ENEC and DISEC, and their acknowledgement when directed. -/
def State.enint (s : State) (ev v : Nat) (direct : Bool) : State :=
  if direct && !s.on .MGT_I3C_STATUS_DA_VALID then s.i3cSend false []
  else
    let s := if ev.testBit 0 then s.set .MGT_I3C_STATUS_IBI_EN 0 v else s
    if direct then s.i3cSend true [] else s

/-- ENEC. -/
def execEnec (ev : Nat) (direct : Bool) (s : State) : Res := s.ccc fun s => s.enint ev 1 direct

/-- DISEC. -/
def execDisec (ev : Nat) (direct : Bool) (s : State) : Res := s.ccc fun s => s.enint ev 0 direct

/-- GETPID. -/
def execGetpid (s : State) : Res := s.direct fun s => s.i3cSend true s.pidBytes

/-- GETBCR. -/
def execGetbcr (s : State) : Res := s.direct fun s => s.i3cSend true [0x2F]

/-- GETDCR. -/
def execGetdcr (s : State) : Res := s.direct fun s => s.i3cSend true [0x00]

/-- GETSTATUS: state byte, then causes now true and the protocol error since the last one. -/
def execGetstatus (s : State) : Res :=
  s.direct fun s => (s.set .I3C_H_PROTERR 0 0).i3cSend true
    [s.stateByte, bitsSet s.notifyCauses 3 + 32 * s.get .I3C_H_PROTERR]

/-- GETMXDS. -/
def execGetmxds (s : State) : Res := s.direct fun s => s.i3cSend true [0x00, 0x00]

/-- RSTACT with a defining byte of R457; another is not acknowledged. -/
def execRstact (v : Nat) (s : State) : Res :=
  s.ccc fun s => if v ≤ 2 then (s.set .I3C_H_RSTACT 0 v).i3cSend true [] else s.i3cSend false []

/-- Any other code: a direct one is not acknowledged, a broadcast one ignored. -/
def execCccUnsupported (direct : Bool) (s : State) : Res := s.ccc fun s => if direct then s.i3cSend false [] else s

/-! ### Interrupts and bus conditions (R452 to R457) -/

/-- An interrupt whose last attempt was lost is tried again while its cause is true (R452). -/
def execIbiRetry (k : Nat) (acked : Bool) (s : State) : Res :=
  if s.unreachable || !s.on .MGT_I3C_STATUS_DA_VALID || !s.on .MGT_I3C_STATUS_IBI_EN || !s.bit .I3C_H_IBI 0 k then .next s
  else
    let s := (s.inc .MGT_I3C_CNT_IBI_NACK).emit (.ibi (0xA1 + k))
    .next (if acked then s.clearBit .I3C_H_IBI 0 k else s)

/-- A transfer is abandoned and counted (R454, R455). -/
def State.abandon (s : State) (flag : Nat) : State :=
  (((s.set .I3C_H_RLEFT 0 0).set .I3C_H_SDA 0 0).inc .MGT_I3C_CNT_ABORT).portFlag flag

/-- SCL has stayed low for 35 to 38 ms. -/
def execSclTimeout (s : State) : Res := .next (if s.unreachable then s else s.abandon 0)

/-- SDA has stayed low for 35 to 38 ms. -/
def execSdaTimeout (s : State) : Res := .next (if s.unreachable then s else s.abandon 1)

/-- A START or STOP inside a byte or in the acknowledge slot (R455); in I3C mode a protocol error. -/
def execBusAbort (s : State) : Res :=
  if s.unreachable then .next s
  else .next (if s.on .I3C_H_MODE then (s.abandon 2).set .I3C_H_PROTERR 0 1 else s.abandon 2)

/-- SCL has been high for 1 ms while the target drove SDA, which it releases: the transfer is left unfinished (R456). -/
def execSdaRelease (s : State) : Res := .next (if s.unreachable then s else s.set .I3C_H_SDA 0 1)

/-- The pending access of a port that resets: a write is still carried out, and either completion will be dropped. -/
def State.indirectLose (s : State) : State :=
  if !s.on .I3C_H_BUSY then s
  else
    let s := if s.on .I3C_H_PWRITE && s.get .I3C_H_PMADE = 0 then
        (s.targetWrite (s.get .I3C_H_PADDR) (leBytes 4 (s.get .I3C_H_PDATA)) s.portSrc).1 else s
    ((s.set .I3C_H_BUSY 0 0).set .I3C_H_PMADE 0 0).inc .I3C_H_PLATE

/-- Peripheral reset (R457). -/
def State.portReset (s : State) : State :=
  let s := (s.set .I3C_H_RLEFT 0 0).indirectLose
  let s := ((s.set .I3C_H_PTR 0 0).set .I3C_H_BUF_OFF 0 0).set .I3C_H_HELD 0 0
  (s.set .MGT_I3C_STATUS_BOUND_SESSION 0 0).portFlag 4

/-- The target reset pattern (R457): its action is the last RSTACT's, and the next one's is a peripheral reset again. -/
def execTargetResetPattern (s : State) : Res :=
  if s.unreachable then .next s
  else
    let v := s.get .I3C_H_RSTACT
    let s := s.set .I3C_H_RSTACT 0 1
    .next (if v = 0 then s else if v = 2 && s.on .MGT_I3C_CFG_RST_DEV_EN then s.deviceReset 3 else s.portReset)

end Sys2Proof.Machine
end

