-- ==== Sys2Proof/Machine/Audit.lean ====
section
/-! DEFINITION. An audit record becomes durable, and the change that waited for it takes effect
(17_roles_security_audit.md R432). -/

namespace Sys2Proof.Machine

/-- The effect of a recorded change, and its completion. The commands that the audit queue can hold are listed; any other
has none here. -/
def State.applyRecorded (i : Instr) (s : State) : State :=
  match i with
  | .bistRun unit kinds level src => s.completed src 0x70 (effBistRun unit kinds level src)
  | .bistStop src => s.completed src 0x71 (effBistStop src)
  | .fwUpdate addr len src => s.completed src 0x50 (effFwUpdate addr len src)
  | .fwActivate src => s.completed src 0x51 (effFwActivate src)
  | .winCommit w src => s.completed src (winCfg w) (effWinCommit w src)
  | .brgFence src => s.completed src brgCtrl effBrgFence
  | .brgReset src => s.completed src brgCtrl effBrgReset
  | .qpEnable q src => s.completed src 0 (effQpEnable q src)
  | .qpReset q src => s.completed src 0 (effQpReset q)
  | .classDelaySet p sel v src => s.completed src 0 (effClassDelaySet p sel v)
  | .egrFence src => s.completed src 0 effEgrFence
  | .egrReset src => s.completed src 0 effEgrReset
  | .fabPortWake p src => s.completed src (0x480010 + 0x100 * (p % 8)) (effFabPortWake p)
  | .fabFence src => s.completed src fabCtrl effFabFence
  | .fabReset src => s.completed src fabCtrl effFabReset
  | .queueWmWrite lane high v src => s.completed src 0 (effQueueWmWrite lane high v src)
  | .chApply c src => s.completed src 0 (effChApply c src)
  | .jobSelect i src => s.completed src 0x10 (effJobSelect i src)
  | .jobLoad num src => s.completed src 0x11 (effJobLoad num src)
  | .jobArm m immediate src => s.completed src 0x12 (effJobArm m immediate src)
  | .jobCancel src => s.completed src 0x13 (effJobCancel src)
  | .jobStop m immediate src => s.completed src 0x14 (effJobStop m immediate src)
  | .laneEnable lane src => s.completed src 0 (effLaneEnable lane)
  | .laneDisable lane src => s.completed src 0 (effLaneDisable lane)
  | .laneRetrain lane src => s.completed src 0 (effLaneRetrain lane)
  | .laneEqCommit lane src => s.completed src 0 (effLaneEqCommit lane src)
  | .eyeScanStart lane src => s.completed src 0 (effEyeScanStart lane)
  | .memFence src => s.completed src 0 (effMemFence src)
  | .memReset src => s.completed src 0 (effMemReset src)
  | .mrgGo k mode src => s.completed src 0 (effMrgGo k mode src)
  | .mrgCancel k src => s.completed src 0 (effMrgCancel k src)
  | .ctxGo x mode withIng src => s.completed src 0 (effCtxGo x mode withIng src)
  | .ctxCancel x src => s.completed src 0 (effCtxCancel x src)
  | .pipeFence p src => s.completed src 0 (effPipeFence p src)
  | .pipeUnfence p src => s.completed src 0 (effPipeUnfence p)
  | .pipeReset p src => s.completed src 0 (effPipeReset p)
  | .mgtRestart src => s.completed src pwrCtrl (effMgtRestart src)
  | .pwrRtcSet sec src => s.completed src 0x7A (effPwrRtcSet sec)
  | .pwrReset _ src => s.completed src 0x7B (effPwrReset src)
  | .pipeGate v src => s.completed src pwrGate (effPipeGate v src)
  | .refGo k mode src => s.completed src 0 (effRefGo k mode src)
  | .refCancel k src => s.completed src 0 (effRefCancel k src)
  | .refFence src => s.completed src 0 effRefFence
  | .refReset src => s.completed src 0 effRefReset
  | .registerWrite a v src => s.completed src (regCode a) (effRegisterWrite a v src)
  | .loginFinish msg _ src => s.completed src 0x02 (effLoginFinish msg src)
  | .logout src => s.completed src 0x03 (effLogout src)
  | .auditRelease first groups src => s.completed src 0x42 (effAuditRelease first groups src)
  | .fuseProgram field value src => s.completed src 0x60 (effFuseProgram field value src)
  | .testUnlock src => s.completed src 0x61 (effTestUnlock src)
  | .decommission _ src => s.completed src 0x62 (effDecommission src)
  | .libPut addr len sigs src => s.completed src 0x20 (effLibPut addr len sigs src)
  | .libDelete num src => s.completed src 0x21 (effLibDelete num src)
  | .recKeep first count src => s.completed src 0x32 (effRecKeep first count src)
  | .recRelease first count src => s.completed src 0x33 (effRecRelease first count src)
  | .recGibWrite v src => s.completed src 0x540424 (effRecGibWrite v src)
  | .stoFence src => s.completed src 0 effStoFence
  | .stoReset src => s.completed src 0 effStoReset
  | .encPreset n v src => s.completed src 0 (effEncPreset n v src)
  | .profCommit k src => s.completed src 0 (effProfCommit k src)
  | .tslFence src => s.completed src 0 effTslFence
  | .tslReset src => s.completed src 0 effTslReset
  | _ => s

/-- The oldest queued record joins the chain, and its change takes effect. -/
def State.recordNext (s : State) : State :=
  match s.sec.queue with
  | [] => s
  | q :: rest =>
    let s := ({ s with sec := { s.sec with queue := rest } } : State).appendRecord q.record
    match q.effect with
    | some i => s.applyRecorded i
    | none => s

/-- Records can be made durable: the store is mounted, neither fenced, in reset, under test nor read-only (R432, R437), and
the ring has room (R434). -/
def State.canRecord (s : State) : Bool :=
  s.on .STO_H_MOUNTED && !s.on .STO_CTRL_FENCE && !s.unitDown 17 && !s.inTest 17 && !s.on .STO_H_READONLY && !s.ringHeld &&
    !s.unreachable

/-- The oldest queued record becomes durable. -/
def execAuditRecordDurable (s : State) : Res := .next (if s.canRecord then s.recordNext else s)

end Sys2Proof.Machine
end

