-- ==== Sys2Proof/Machine/Mark.lean ====
section
/-! DEFINITION. The mark edge (04_sync_and_tagging.md R98, R99) and all that follows from it. -/

namespace Sys2Proof.Machine

/-- `EDGE` of mark input `m` takes an edge of this direction: 1 rising, 2 falling, 3 both; 0 acts as
`EN` 0 (R98). -/
def State.edgeTaken (s : State) (m : Nat) (rising : Bool) : Bool :=
  match s.get .SYN_MARK_CFG_EDGE m with
  | 0 => false
  | 1 => rising
  | 2 => !rising
  | _ => true

/-- The lockout rejects an edge at the present position of the tied encoder (R98). -/
def State.lockedOut (s : State) (m : Nat) : Bool :=
  let d := toSigned 48 (s.get .SYN_ENC_POS (s.get .SYN_MARK_CFG_ENC m) + 2 ^ 48 - s.get .SYN_MARK_POS m)
  let l := s.get .SYN_MARK_CFG_LOCKOUT m
  l != 0 && s.on .SYN_MARK_H_PREV m && decide (d < (l : Int))

/-- An accepted edge: sequence, position and time are recorded (R99), comparison banks adopt it (R205), waiting generators
arm (R102), and an ARMED NEXT whose switch edge it is becomes CURRENT (R305, R306). -/
def State.markAccept (s : State) (m time : Nat) : State :=
  let pos := s.get .SYN_ENC_POS (s.get .SYN_MARK_CFG_ENC m)
  let seen := s.on .SYN_MARK_H_PREV m
  let last := s.get .JOB_H_MARKTIME m
  let sw := s.switchEdge m time
  let s := (((s.bump .SYN_MARK_SEQ m 1).set .SYN_MARK_TIME m time).set .SYN_MARK_POS m pos).set .SYN_MARK_H_PREV m 1
  let s := (if seen then s.set .JOB_H_INTERVAL m (time - last) else s).set .JOB_H_MARKTIME m time
  let s := (s.markAdopt m pos).clearBit .PWR_H_ADOPT 0 m
  let s := if sw then s.jobSwitch m pos time else s
  s.armAllByMark m

/-- The filter of mark input `m` accepts a level that the synchroniser has shown for `held` consecutive clocks (R98). -/
def State.markFiltered (s : State) (m held : Nat) : Bool := decide (s.get .SYN_MARK_CFG_FILTER m + 1 ≤ held)

/-- The recorded time of an edge accepted in this clock (R99): the device time less the delay of the synchroniser and the
filter, 3 + `FILTER` + 1 whole clocks (DEDUCED from R93's least level at the ball). -/
def State.ballTime (s : State) (m : Nat) : Nat :=
  (s.now * 2 ^ 32 + s.get .SYN_TB_H_FRAC - (s.get .SYN_MARK_CFG_FILTER m + 4) * s.get .SYN_TB_RATE) / 2 ^ 32

/-- An edge of mark input `m` whose level has held for `held` clocks (R98, R99): ignored before the filter accepts it, while the input is disabled,
the device sleeps or enters sleep (18_i3c_management_port.md R459, 20_power_sleep_reset.md R502), rejected by lockout, or accepted. -/
def execMarkEdge (m : Nat) (rising : Bool) (held : Nat) (s : State) : Res :=
  let m := m % 4
  if !s.markFiltered m held || !s.markOn m || !s.edgeTaken m rising || s.get .PWR_H_STATE = 1 || s.get .PWR_H_STATE = 2 ||
      s.get .BOOT_STATUS_STATE = 2 then
    .next s
  else if s.lockedOut m then
    let was := s.on .SYN_MARK_CNT_LOCKOUT_LOCKOUT m
    let s := (s.inc .SYN_MARK_CNT_LOCKOUT_CNT m).set .SYN_MARK_CNT_LOCKOUT_LOCKOUT m 1
    .next (if !was && s.bit .SYN_EVENT_EN_ENC_MARK 0 1 then
      s.event 0x0018 m 0x0002 (argAt 16 (s.get .SYN_ENC_POS (s.get .SYN_MARK_CFG_ENC m) % 2 ^ 32)) else s)
  else .next (s.markAccept m (s.ballTime m))

end Sys2Proof.Machine
end

