-- ==== Sys2Proof/Machine/Sleep.lean ====
section
/-! DEFINITION. The end of the entry to SLEEP (20_power_sleep_reset.md R493 steps 3 to 6, R494). -/

namespace Sys2Proof.Machine

/-- Step 3: every queue pair enters RESET. -/
def State.resetQps (s : State) : State :=
  (List.range 256).foldl (fun s q => if s.get .EGR_QP_STATUS_STATE q = 0 then s else effQpReset q s) s

/-- The audit queue is flushed, as far as records can be made. -/
def State.flushAudit (s : State) : Nat → State
  | 0 => s
  | n + 1 => if s.canRecord then s.recordNext.flushAudit n else s

/-- A test in progress ends with the sleep flag (19_self_test.md R478). -/
def State.endTests (s : State) (field rolling : TestData) : State :=
  let s := if s.get .BIST_H_UNIT = 63 then s else s.fieldEnd 8 field
  match s.get .PIPE_ROLL_STATUS_STATE with
  | 2 => s.rollEnd 8 rolling
  | 1 => s.rollCancel 8
  | _ => s

/-- Step 4: recorder, audit queue, sessions and tests. -/
def State.sleepStore (s : State) (field rolling : TestData) : State :=
  let s := s.endTests field rolling
  let s := (s.programStaged s.sto.staged.length).closeSeg
  let s := (s.flushAudit s.sec.queue.length).endAllSessions
  s.flushAudit s.sec.queue.length

/-- LPDDR5X serves what it has accepted and enters self-refresh (14_memory_subsystem.md R359). -/
def State.sleepMemory (s : State) : State :=
  ((List.range 16).foldl (fun s c => s.memServe c .none s.memq.length) s).set .MEM_H_SELF 0 1

/-- A lane keeps its rung and powers down (02_lane_complex.md R54); a scan on it ends (R56). -/
def State.sleepLane (s : State) (n : Nat) : State :=
  let kept := if s.laneState n = laneActive then s.get .LANE_STATUS_RUNG n else 0
  let s := s.set .PWR_H_KEPT_RUNG n kept
  let s := if s.on .LANE_EYE_STATUS_BUSY n then s.eyeAbort n else s
  let live := [Fld.LANE_STATUS_STATE, .LANE_STATUS_RUNG, .LANE_STATUS_SIG, .LANE_STATUS_CDR_LOCK, .LANE_STATUS_TX_NAP,
    .LANE_STATUS_RX_NAP, .LANE_H_RETURN, .LANE_H_IDLE, .LANE_H_LTS_RUN, .LANE_H_ACK_RUN, .LANE_H_STEP_RUN, .LANE_H_STEP_SENT,
    .LANE_H_OFFS_DONE, .LANE_H_BLOCK, .LANE_H_VERD_L, .LANE_H_VERD_P, .LANE_H_STABLE, .LANE_H_TRIM]
  let s := if s.laneState n = laneActive then s.rclkPin n 0 else s
  live.foldl (fun s f => s.set f n 0) s

/-- The live state of a camera link and its ingress queue. -/
def State.sleepIngress (s : State) (n : Nat) : State :=
  let live := [Fld.ING_LANE_STATUS_USMAS_STATE, .ING_LANE_STATUS_PAUSED, .ING_QUEUE_LEVEL_LEVEL, .ING_QUEUE_LEVEL_ABOVE, .ING_QUEUE_LEVEL_DESC,
    .ING_QUEUE_LEVEL_FLUSHING, .ING_H_FULL, .ING_H_SEQ_VALID, .ING_H_FLUSH_BYTES, .ING_H_WPTR_A, .ING_H_WPTR_B,
    .ING_H_RPTR_A, .ING_H_RPTR_B]
  live.foldl (fun s f => s.set f n 0) s

/-- Step 5: `SLEEP` goes out on ports of version 2 (15_botex_fabric.md R387), then lanes and links are down. The version of
a port is kept, for a version-1 port does not wake. -/
def State.sleepLinks (s : State) : State :=
  let s := (s.upPorts.filter fun p => s.get .FAB_PORT_STATUS_VER p == 2).foldl (fun s p => s.emit (.symbol p 0x5A [0, 0, 0, 0, 0])) s
  let s := (List.range 48).foldl (fun s n => s.sleepLane n) s
  let s := (List.range 32).foldl (fun s n => s.sleepIngress n) s
  let s := (List.range 8).foldl (fun s p =>
    let s := [Fld.FAB_PORT_STATUS_STATE, .FAB_PORT_STATUS_LANES, .FAB_PORT_STATUS_PARENT, .FAB_PORT_NEIGH, .FAB_H_RXSEQ,
      .FAB_H_TXSEQ, .FAB_H_NAKKED].foldl (fun s f => s.set f p 0) s
    let s := [0, 1, 2, 3].foldl (fun s c => s.set .FAB_H_CREDIT (4 * p + c) 0) s
    s.set .FAB_PORT_STATUS_NEIGH_ID p 0xFD) s
  let s := (List.range 8).foldl (fun s p => (s.set .EGR_PORT_STATUS_LINK p 0).set .EGR_PORT_STATUS_ALIGN p 0) s
  let s := (s.set .FAB_H_PARENT 0 15).set .FAB_H_T1OK 0 0
  { s with fab := { s.fab with ports := [], marks := [], reqs := [], bulk := [] } }

/-- What is lost in SLEEP (R494). The frames that the drain left end their binding to a bank, and a bank that drained is
FREE. -/
def State.sleepLoss (s : State) : State :=
  let s := s.frames.foldl (fun s f => match f.work.bank with | some b => s.unbind f.ch b | none => s) s
  let s : State := { s with
    frames := []
    ing := ⟨[], []⟩
    syn := { s.syn with fires := [], stamps := [] }
    pipe := { State.reset.pipe with tapCount := s.pipe.tapCount }
    blankets := []
    ref := { s.ref with frames := [], tiles := [] }
    products := []
    egr := { s.egr with
      offers := [], queue := [], frames := [], ends := [], pkts := [], resend := [], ctl := [], sends := [],
      ctlSends := [], parts := [] }
    brg := ⟨[], [], [], [], []⟩
    sec := { s.sec with nonces := [] } }
  let s := (List.range 8).foldl (fun s k => (s.laySettle k).cmpSettle k) s
  ((s.set .I3C_H_BUSY 0 0).set .I3C_H_RLEFT 0 0).set .BOOT_H_AWAY 0 1

/-- The alarm is enabled and already past (R502). -/
def State.alarmPast (s : State) : Bool :=
  s.bit .PWR_CFG_WAKE_EN 0 3 && s.get .PWR_ALARM != 0 && decide (s.get .PWR_ALARM ≤ s.get .PWR_RTC_SEC)

/-- Step 6: the output pins take their levels of SLEEP (22_electrical_package.md R523), the timebase stops, and the device sleeps; a wake event latched during entry wakes it at once, and so does an
alarm that is already past (R502). -/
def State.sleepNow (s : State) : State :=
  let s := ((List.range 16).foldl State.pinLow s).fcPins
  let s := (s.set .PWR_H_STOPT 0 s.now).set .PWR_H_STOPR 0 s.rtcTicks
  let s := ((s.inc .PWR_SLEEP_COUNT).pwrState 2).notify
  if s.get .PWR_H_LATCHED ≠ 16 then s.wakeBegin (s.get .PWR_H_LATCHED)
  else if s.alarmPast then s.wakeBegin 3 else s

/-- The entry steps complete (R491): step 2 has ended and no stripe runs. A recorded change of the flush that resets the
device ends the entry. -/
def execSleepEntered (field rolling : TestData) (s : State) : Res :=
  if s.get .PWR_H_STATE ≠ 1 || !s.on .PWR_H_DRAINED || !s.pipe.running.isEmpty then .next s
  else
    let s := s.resetQps.sleepStore field rolling
    if s.get .PWR_H_STATE ≠ 1 then .next s else .next s.dropCommands.sleepMemory.sleepLinks.sleepLoss.sleepNow

end Sys2Proof.Machine
end

