-- ==== Sys2Proof/Machine/Dispatch.lean ====
section
/-! DEFINITION. One arm per command: the meaning it has. -/

namespace Sys2Proof.Machine

/-- The effect of a command on everything but the queue of waiting commands. -/
def exec (i : Instr) (s : State) : Host.Outcome State Fault Refusal :=
  match i with
  | .signalDetect lane => Sys2Proof.Machine.execSignalDetect lane s
  | .lossOfSignal lane => Sys2Proof.Machine.execLossOfSignal lane s
  | .cdrLock lane => Sys2Proof.Machine.execCdrLock lane s
  | .cdrUnlock lane => Sys2Proof.Machine.execCdrUnlock lane s
  | .offsetMeasureDone lane ppm => Sys2Proof.Machine.execOffsetMeasureDone lane ppm s
  | .ltsReceived lane l => Sys2Proof.Machine.execLtsReceived lane l s
  | .rateChange lane => Sys2Proof.Machine.execRateChange lane s
  | .blockLock lane => Sys2Proof.Machine.execBlockLock lane s
  | .verifyWindowEnd lane hdrErrs uncorr corr => Sys2Proof.Machine.execVerifyWindowEnd lane hdrErrs uncorr corr s
  | .verdictReceived lane pass => Sys2Proof.Machine.execVerdictReceived lane pass s
  | .verdictTimeout lane => Sys2Proof.Machine.execVerdictTimeout lane s
  | .negotiateTimeout lane => Sys2Proof.Machine.execNegotiateTimeout lane s
  | .noLts lane => Sys2Proof.Machine.execNoLts lane s
  | .stepTimeout lane => Sys2Proof.Machine.execStepTimeout lane s
  | .alignLoss lane => Sys2Proof.Machine.execAlignLoss lane s
  | .napTimeout lane => Sys2Proof.Machine.execNapTimeout lane s
  | .backoffExpiry lane => Sys2Proof.Machine.execBackoffExpiry lane s
  | .activeStable lane => Sys2Proof.Machine.execActiveStable lane s
  | .laneEnable lane src => Sys2Proof.Machine.execLaneEnable lane src s
  | .laneDisable lane src => Sys2Proof.Machine.execLaneDisable lane src s
  | .laneRetrain lane src => Sys2Proof.Machine.execLaneRetrain lane src s
  | .laneClrCnt lane src => Sys2Proof.Machine.execLaneClrCnt lane src s
  | .laneEqCommit lane src => Sys2Proof.Machine.execLaneEqCommit lane src s
  | .idleTrim lane idleMs dTj => Sys2Proof.Machine.execIdleTrim lane idleMs dTj s
  | .trimPassEnd lane => Sys2Proof.Machine.execTrimPassEnd lane s
  | .serviceTrim lane => Sys2Proof.Machine.execServiceTrim lane s
  | .txNap lane => Sys2Proof.Machine.execTxNap lane s
  | .txWake lane => Sys2Proof.Machine.execTxWake lane s
  | .rxNap lane => Sys2Proof.Machine.execRxNap lane s
  | .eyeScanStart lane src => Sys2Proof.Machine.execEyeScanStart lane src s
  | .eyeScanDone lane mismatches => Sys2Proof.Machine.execEyeScanDone lane mismatches s
  | .segmentReceived lane seg => Sys2Proof.Machine.execSegmentReceived lane seg s
  | .helloReceived lane arg => Sys2Proof.Machine.execHelloReceived lane arg s
  | .trigAckReceived lane arg => Sys2Proof.Machine.execTrigAckReceived lane arg s
  | .statusReceived lane arg => Sys2Proof.Machine.execStatusReceived lane arg s
  | .usmasSymbolBad lane code arg => Sys2Proof.Machine.execUsmasSymbolBad lane code arg s
  | .helloSend lane => Sys2Proof.Machine.execHelloSend lane s
  | .pauseRepeat lane => Sys2Proof.Machine.execPauseRepeat lane s
  | .frameTimeout c => Sys2Proof.Machine.execFrameTimeout c s
  | .pointerMismatch lane => Sys2Proof.Machine.execPointerMismatch lane s
  | .queueFlush lane src => Sys2Proof.Machine.execQueueFlush lane src s
  | .flushLimit lane => Sys2Proof.Machine.execFlushLimit lane s
  | .ingClrCnt lane src => Sys2Proof.Machine.execIngClrCnt lane src s
  | .queueWmWrite lane high v src => Sys2Proof.Machine.execQueueWmWrite lane high v src s
  | .chApply c src => Sys2Proof.Machine.execChApply c src s
  | .playStart k src => Sys2Proof.Machine.execPlayStart k src s
  | .playStop k src => Sys2Proof.Machine.execPlayStop k src s
  | .playRecordRead k => Sys2Proof.Machine.execPlayRecordRead k s
  | .playPace k lines => Sys2Proof.Machine.execPlayPace k lines s
  | .encoderCount n levels held => Sys2Proof.Machine.execEncoderCount n levels held s
  | .encoderZ e => Sys2Proof.Machine.execEncoderZ e s
  | .encPreset n v src => Sys2Proof.Machine.execEncPreset n v src s
  | .speedSample => Sys2Proof.Machine.execSpeedSample s
  | .markEdge m rising held => Sys2Proof.Machine.execMarkEdge m rising held s
  | .triggerFire c => Sys2Proof.Machine.execTriggerFire c s
  | .trigPulseEnd pin => Sys2Proof.Machine.execTrigPulseEnd pin s
  | .pitchCommit c v src => Sys2Proof.Machine.execPitchCommit c v src s
  | .trigEnable c src => Sys2Proof.Machine.execTrigEnable c src s
  | .trigDisable c src => Sys2Proof.Machine.execTrigDisable c src s
  | .tbStep v src => Sys2Proof.Machine.execTbStep v src s
  | .tbSlew v src => Sys2Proof.Machine.execTbSlew v src s
  | .slewDone => Sys2Proof.Machine.execSlewDone s
  | .ptpRxStamp transport domain msgType seqId stamp => Sys2Proof.Machine.execPtpRxStamp transport domain msgType seqId stamp s
  | .ptpTxtsPop src => Sys2Proof.Machine.execPtpTxtsPop src s
  | .stripeDispatch p => Sys2Proof.Machine.execStripeDispatch p s
  | .stripeComplete p => Sys2Proof.Machine.execStripeComplete p s
  | .frameModeLine p => Sys2Proof.Machine.execFrameModeLine p s
  | .exposureLineStored c e y => Sys2Proof.Machine.execExposureLineStored c e y s
  | .holdCopy lane => Sys2Proof.Machine.execHoldCopy lane s
  | .holdCopyDone lane => Sys2Proof.Machine.execHoldCopyDone lane s
  | .spillCopyDone lane => Sys2Proof.Machine.execSpillCopyDone lane s
  | .ctxWindowWrite addr data src => Sys2Proof.Machine.execCtxWindowWrite addr data src s
  | .ctxGo x mode withIng src => Sys2Proof.Machine.execCtxGo x mode withIng src s
  | .ctxCancel x src => Sys2Proof.Machine.execCtxCancel x src s
  | .rollStart p auto src => Sys2Proof.Machine.execRollStart p auto src s
  | .rollStop src => Sys2Proof.Machine.execRollStop src s
  | .rollWithdrawn => Sys2Proof.Machine.execRollWithdrawn s
  | .rollInterval => Sys2Proof.Machine.execRollInterval s
  | .pipeFence p src => Sys2Proof.Machine.execPipeFence p src s
  | .pipeFenceDone p => Sys2Proof.Machine.execPipeFenceDone p s
  | .pipeUnfence p src => Sys2Proof.Machine.execPipeUnfence p src s
  | .pipeReset p src => Sys2Proof.Machine.execPipeReset p src s
  | .pipeClrCnt p src => Sys2Proof.Machine.execPipeClrCnt p src s
  | .memberRowArrival => Sys2Proof.Machine.execMemberRowArrival s
  | .tileLineEmit k seq c => Sys2Proof.Machine.execTileLineEmit k seq c s
  | .joinWindowClose k seq => Sys2Proof.Machine.execJoinWindowClose k seq s
  | .seamPacketSend k seq side => Sys2Proof.Machine.execSeamPacketSend k seq side s
  | .seamPacketReceived data => Sys2Proof.Machine.execSeamPacketReceived data s
  | .seamWaitExpiry k seq side => Sys2Proof.Machine.execSeamWaitExpiry k seq side s
  | .layoutWindowWrite addr data src => Sys2Proof.Machine.execLayoutWindowWrite addr data src s
  | .mrgGo k mode src => Sys2Proof.Machine.execMrgGo k mode src s
  | .mrgCancel k src => Sys2Proof.Machine.execMrgCancel k src s
  | .mrgClrCnt src => Sys2Proof.Machine.execMrgClrCnt src s
  | .holdMaxRead k src => Sys2Proof.Machine.execHoldMaxRead k src s
  | .alignmentTile k seq a t memErr => Sys2Proof.Machine.execAlignmentTile k seq a t memErr s
  | .slotLoad sl src => Sys2Proof.Machine.execSlotLoad sl src s
  | .slotDone sl src => Sys2Proof.Machine.execSlotDone sl src s
  | .slotCheckDone sl => Sys2Proof.Machine.execSlotCheckDone sl s
  | .slotClear sl src => Sys2Proof.Machine.execSlotClear sl src s
  | .cmpWindowWrite addr data src => Sys2Proof.Machine.execCmpWindowWrite addr data src s
  | .refGo k mode src => Sys2Proof.Machine.execRefGo k mode src s
  | .refCancel k src => Sys2Proof.Machine.execRefCancel k src s
  | .refFence src => Sys2Proof.Machine.execRefFence src s
  | .refFenceDone => Sys2Proof.Machine.execRefFenceDone s
  | .refReset src => Sys2Proof.Machine.execRefReset src s
  | .refClrCnt src => Sys2Proof.Machine.execRefClrCnt src s
  | .productDone ix => Sys2Proof.Machine.execProductDone ix s
  | .profCommit k src => Sys2Proof.Machine.execProfCommit k src s
  | .tslFence src => Sys2Proof.Machine.execTslFence src s
  | .tslFenceDone => Sys2Proof.Machine.execTslFenceDone s
  | .tslReset src => Sys2Proof.Machine.execTslReset src s
  | .tslClrCnt src => Sys2Proof.Machine.execTslClrCnt src s
  | .deliveryStart ix => Sys2Proof.Machine.execDeliveryStart ix s
  | .classBBudgetExpiry st dseq => Sys2Proof.Machine.execClassBBudgetExpiry st dseq s
  | .portSend p ptp => Sys2Proof.Machine.execPortSend p ptp s
  | .ackReceived q psn ce => Sys2Proof.Machine.execAckReceived q psn ce s
  | .nakReceived q psn nak ce => Sys2Proof.Machine.execNakReceived q psn nak ce s
  | .qpRetryTimeout q => Sys2Proof.Machine.execQpRetryTimeout q s
  | .rnrTimer q => Sys2Proof.Machine.execRnrTimer q s
  | .cnpReceived cnp => Sys2Proof.Machine.execCnpReceived cnp s
  | .cnpRateInc q => Sys2Proof.Machine.execCnpRateInc q s
  | .qpEnable q src => Sys2Proof.Machine.execQpEnable q src s
  | .qpReset q src => Sys2Proof.Machine.execQpReset q src s
  | .egressLinkDown p => Sys2Proof.Machine.execEgressLinkDown p s
  | .egressLinkUp p => Sys2Proof.Machine.execEgressLinkUp p s
  | .pauseFrameReceived p pfc prio ns => Sys2Proof.Machine.execPauseFrameReceived p pfc prio ns s
  | .rxFrameDiscard p => Sys2Proof.Machine.execRxFrameDiscard p s
  | .creditBlock q snd => Sys2Proof.Machine.execCreditBlock q snd s
  | .strConsWrite st c src => Sys2Proof.Machine.execStrConsWrite st c src s
  | .egrDropPop src => Sys2Proof.Machine.execEgrDropPop src s
  | .egrLatePop src => Sys2Proof.Machine.execEgrLatePop src s
  | .classDelaySet p sel v src => Sys2Proof.Machine.execClassDelaySet p sel v src s
  | .egrFence src => Sys2Proof.Machine.execEgrFence src s
  | .egrFenceDone => Sys2Proof.Machine.execEgrFenceDone s
  | .egrReset src => Sys2Proof.Machine.execEgrReset src s
  | .egrClrCnt src => Sys2Proof.Machine.execEgrClrCnt src s
  | .badMessage q snd => Sys2Proof.Machine.execBadMessage q snd s
  | .accessRequest q snd => Sys2Proof.Machine.execAccessRequest q snd s
  | .pieceComplete k addr err => Sys2Proof.Machine.execPieceComplete k addr err s
  | .pieceTimeout k addr => Sys2Proof.Machine.execPieceTimeout k addr s
  | .readaheadExpiry q => Sys2Proof.Machine.execReadaheadExpiry q s
  | .commandMessage q snd => Sys2Proof.Machine.execCommandMessage q snd s
  | .winCommit w src => Sys2Proof.Machine.execWinCommit w src s
  | .winCommitApply w => Sys2Proof.Machine.execWinCommitApply w s
  | .brgFence src => Sys2Proof.Machine.execBrgFence src s
  | .brgFenceDone => Sys2Proof.Machine.execBrgFenceDone s
  | .brgReset src => Sys2Proof.Machine.execBrgReset src s
  | .brgClrCnt src => Sys2Proof.Machine.execBrgClrCnt src s
  | .jobStb ix => Sys2Proof.Machine.execJobStb ix s
  | .jobSelect ix src => Sys2Proof.Machine.execJobSelect ix src s
  | .jobLoad num src => Sys2Proof.Machine.execJobLoad num src s
  | .jobLoadDone sigs r => Sys2Proof.Machine.execJobLoadDone sigs r s
  | .jobArm m immediate src => Sys2Proof.Machine.execJobArm m immediate src s
  | .jobCancel src => Sys2Proof.Machine.execJobCancel src s
  | .jobStop m immediate src => Sys2Proof.Machine.execJobStop m immediate src s
  | .jobQuery src => Sys2Proof.Machine.execJobQuery src s
  | .jobCtrlArm m immediate stop src => Sys2Proof.Machine.execJobCtrlArm m immediate stop src s
  | .jobCtrlCancel src => Sys2Proof.Machine.execJobCtrlCancel src s
  | .setNext v src => Sys2Proof.Machine.execSetNext v src s
  | .drainDone => Sys2Proof.Machine.execDrainDone s
  | .startEntrySelect => Sys2Proof.Machine.execStartEntrySelect s
  | .jobMsgPrepare node tag m job num => Sys2Proof.Machine.execJobMsgPrepare node tag m job num s
  | .jobMsgArm node tag m job tarm => Sys2Proof.Machine.execJobMsgArm node tag m job tarm s
  | .jobMsgCancel node tag job => Sys2Proof.Machine.execJobMsgCancel node tag job s
  | .prepareTimeout => Sys2Proof.Machine.execPrepareTimeout s
  | .prepareResend => Sys2Proof.Machine.execPrepareResend s
  | .armDeadline => Sys2Proof.Machine.execArmDeadline s
  | .nandMount m => Sys2Proof.Machine.execNandMount m s
  | .patrolScrub b r => Sys2Proof.Machine.execPatrolScrub b r s
  | .blockOverdue b => Sys2Proof.Machine.execBlockOverdue b s
  | .catchupScrub b r => Sys2Proof.Machine.execCatchupScrub b r s
  | .wearLevel r => Sys2Proof.Machine.execWearLevel r s
  | .programFail b ch lun => Sys2Proof.Machine.execProgramFail b ch lun s
  | .eraseFail b ch lun => Sys2Proof.Machine.execEraseFail b ch lun s
  | .libPut addr len sigs src => Sys2Proof.Machine.execLibPut addr len sigs src s
  | .libDelete num src => Sys2Proof.Machine.execLibDelete num src s
  | .libList first count src => Sys2Proof.Machine.execLibList first count src s
  | .libGet num stream addr r src => Sys2Proof.Machine.execLibGet num stream addr r src s
  | .libVerify num sigs r src => Sys2Proof.Machine.execLibVerify num sigs r src s
  | .recorderProgram => Sys2Proof.Machine.execRecorderProgram s
  | .recQuery src => Sys2Proof.Machine.execRecQuery src s
  | .recGet first count dest r src => Sys2Proof.Machine.execRecGet first count dest r src s
  | .recKeep first count src => Sys2Proof.Machine.execRecKeep first count src s
  | .recRelease first count src => Sys2Proof.Machine.execRecRelease first count src s
  | .recGibWrite v src => Sys2Proof.Machine.execRecGibWrite v src s
  | .stoFence src => Sys2Proof.Machine.execStoFence src s
  | .stoFenceDone => Sys2Proof.Machine.execStoFenceDone s
  | .stoReset src => Sys2Proof.Machine.execStoReset src s
  | .stoClrCnt src => Sys2Proof.Machine.execStoClrCnt src s
  | .memoryTransaction blk src cls addr len data err busy => Sys2Proof.Machine.execMemoryTransaction blk src cls addr len data err busy s
  | .priorityPromote ix => Sys2Proof.Machine.execPriorityPromote ix s
  | .mr4Poll ch level => Sys2Proof.Machine.execMr4Poll ch level s
  | .refresh ch => Sys2Proof.Machine.execRefresh ch s
  | .writeLinkPoll ch n => Sys2Proof.Machine.execWriteLinkPoll ch n s
  | .memFence src => Sys2Proof.Machine.execMemFence src s
  | .memFenceDone => Sys2Proof.Machine.execMemFenceDone s
  | .memReset src => Sys2Proof.Machine.execMemReset src s
  | .memResetDone => Sys2Proof.Machine.execMemResetDone s
  | .memClrCnt src => Sys2Proof.Machine.execMemClrCnt src s
  | .fabPacketReceived p hdr data crcBad poison cut stamp => Sys2Proof.Machine.execFabPacketReceived p hdr data crcBad poison cut stamp s
  | .fabAck p arg => Sys2Proof.Machine.execFabAck p arg s
  | .fabNak p arg => Sys2Proof.Machine.execFabNak p arg s
  | .fabCredit p arg => Sys2Proof.Machine.execFabCredit p arg s
  | .fabAlign p arg => Sys2Proof.Machine.execFabAlign p arg s
  | .linkReset p arg => Sys2Proof.Machine.execLinkReset p arg s
  | .fabSleepSymbol p arg => Sys2Proof.Machine.execFabSleepSymbol p arg s
  | .fabReplayTimeout p => Sys2Proof.Machine.execFabReplayTimeout p s
  | .waymarkSend p => Sys2Proof.Machine.execWaymarkSend p s
  | .waymarkReceived p data => Sys2Proof.Machine.execWaymarkReceived p data s
  | .neighbourLost p => Sys2Proof.Machine.execNeighbourLost p s
  | .rootUpdate => Sys2Proof.Machine.execRootUpdate s
  | .linkStateSend => Sys2Proof.Machine.execLinkStateSend s
  | .linkStateReceived p data => Sys2Proof.Machine.execLinkStateReceived p data s
  | .linkStateExpiry origin => Sys2Proof.Machine.execLinkStateExpiry origin s
  | .idAssign => Sys2Proof.Machine.execIdAssign s
  | .idTableReceived p data => Sys2Proof.Machine.execIdTableReceived p data s
  | .routeCommit mask src => Sys2Proof.Machine.execRouteCommit mask src s
  | .ctrlRequestReceived p data => Sys2Proof.Machine.execCtrlRequestReceived p data s
  | .ctrlReplyReceived p data => Sys2Proof.Machine.execCtrlReplyReceived p data s
  | .ctrlTimeout tag => Sys2Proof.Machine.execCtrlTimeout tag s
  | .timeRequestSend => Sys2Proof.Machine.execTimeRequestSend s
  | .timeRequestReceived p data stamp => Sys2Proof.Machine.execTimeRequestReceived p data stamp s
  | .timeResponseReceived p data stamp => Sys2Proof.Machine.execTimeResponseReceived p data stamp s
  | .timeRateCorrect => Sys2Proof.Machine.execTimeRateCorrect s
  | .bulkPacketReceived p data => Sys2Proof.Machine.execBulkPacketReceived p data s
  | .bulkCommit node tag id packets bytes => Sys2Proof.Machine.execBulkCommit node tag id packets bytes s
  | .lateErrorReceived p data => Sys2Proof.Machine.execLateErrorReceived p data s
  | .fabLatePop src => Sys2Proof.Machine.execFabLatePop src s
  | .fabPortWake p src => Sys2Proof.Machine.execFabPortWake p src s
  | .fabFence src => Sys2Proof.Machine.execFabFence src s
  | .fabFenceDone => Sys2Proof.Machine.execFabFenceDone s
  | .fabReset src => Sys2Proof.Machine.execFabReset src s
  | .fabClrCnt src => Sys2Proof.Machine.execFabClrCnt src s
  | .bootRead nor => Sys2Proof.Machine.execBootRead nor s
  | .firmwareStart => Sys2Proof.Machine.execFirmwareStart s
  | .fwUpdate addr len src => Sys2Proof.Machine.execFwUpdate addr len src s
  | .updateVerifyDone v => Sys2Proof.Machine.execUpdateVerifyDone v s
  | .updateProgramDone ok => Sys2Proof.Machine.execUpdateProgramDone ok s
  | .updateReadbackDone v => Sys2Proof.Machine.execUpdateReadbackDone v s
  | .fwActivate src => Sys2Proof.Machine.execFwActivate src s
  | .fwConfirm src => Sys2Proof.Machine.execFwConfirm src s
  | .confirmTimeout => Sys2Proof.Machine.execConfirmTimeout s
  | .loginBegin role key major src => Sys2Proof.Machine.execLoginBegin role key major src s
  | .loginFinish msg sigs src => Sys2Proof.Machine.execLoginFinish msg sigs src s
  | .logout src => Sys2Proof.Machine.execLogout src s
  | .sessionIdleTimeout n => Sys2Proof.Machine.execSessionIdleTimeout n s
  | .lockoutExpiry role key => Sys2Proof.Machine.execLockoutExpiry role key s
  | .attest nonce keys src => Sys2Proof.Machine.execAttest nonce keys src s
  | .attestKeysReady ms => Sys2Proof.Machine.execAttestKeysReady ms s
  | .auditRecordDurable => Sys2Proof.Machine.execAuditRecordDurable s
  | .headSignDone => Sys2Proof.Machine.execHeadSignDone s
  | .auditRead first count stream addr src => Sys2Proof.Machine.execAuditRead first count stream addr src s
  | .auditSign src => Sys2Proof.Machine.execAuditSign src s
  | .auditRelease first groups src => Sys2Proof.Machine.execAuditRelease first groups src s
  | .fuseProgram field value src => Sys2Proof.Machine.execFuseProgram field value src s
  | .testUnlock src => Sys2Proof.Machine.execTestUnlock src s
  | .decommission uid src => Sys2Proof.Machine.execDecommission uid src s
  | .rngFail => Sys2Proof.Machine.execRngFail s
  | .pageWrite data => Sys2Proof.Machine.execPageWrite data s
  | .pageRead n => Sys2Proof.Machine.execPageRead n s
  | .indirectComplete late err => Sys2Proof.Machine.execIndirectComplete late err s
  | .indirectTimeout => Sys2Proof.Machine.execIndirectTimeout s
  | .cmdSubmit => Sys2Proof.Machine.execCmdSubmit s
  | .cmdAck => Sys2Proof.Machine.execCmdAck s
  | .portBind src => Sys2Proof.Machine.execPortBind src s
  | .portUnbind src => Sys2Proof.Machine.execPortUnbind src s
  | .evtForward q enable src => Sys2Proof.Machine.execEvtForward q enable src s
  | .entdaa addr => Sys2Proof.Machine.execEntdaa addr s
  | .setdasa static addr => Sys2Proof.Machine.execSetdasa static addr s
  | .rstdaa => Sys2Proof.Machine.execRstdaa s
  | .enec ev direct => Sys2Proof.Machine.execEnec ev direct s
  | .disec ev direct => Sys2Proof.Machine.execDisec ev direct s
  | .getpid => Sys2Proof.Machine.execGetpid s
  | .getbcr => Sys2Proof.Machine.execGetbcr s
  | .getdcr => Sys2Proof.Machine.execGetdcr s
  | .getstatus => Sys2Proof.Machine.execGetstatus s
  | .getmxds => Sys2Proof.Machine.execGetmxds s
  | .rstact v => Sys2Proof.Machine.execRstact v s
  | .cccUnsupported direct => Sys2Proof.Machine.execCccUnsupported direct s
  | .ibiRetry k acked => Sys2Proof.Machine.execIbiRetry k acked s
  | .sclTimeout => Sys2Proof.Machine.execSclTimeout s
  | .sdaTimeout => Sys2Proof.Machine.execSdaTimeout s
  | .busAbort => Sys2Proof.Machine.execBusAbort s
  | .sdaRelease => Sys2Proof.Machine.execSdaRelease s
  | .targetResetPattern => Sys2Proof.Machine.execTargetResetPattern s
  | .evqPop src => Sys2Proof.Machine.execEvqPop src s
  | .bistRun unit kinds level src => Sys2Proof.Machine.execBistRun unit kinds level src s
  | .bistStop src => Sys2Proof.Machine.execBistStop src s
  | .bistResult unit src => Sys2Proof.Machine.execBistResult unit src s
  | .bistLog count src => Sys2Proof.Machine.execBistLog count src s
  | .bistTestEnd d => Sys2Proof.Machine.execBistTestEnd d s
  | .bistTimeout d => Sys2Proof.Machine.execBistTimeout d s
  | .powerOn bad max avs => Sys2Proof.Machine.execPowerOn bad max avs s
  | .resetPin bad => Sys2Proof.Machine.execResetPin bad s
  | .vaonLoss => Sys2Proof.Machine.execVaonLoss s
  | .railLoss => Sys2Proof.Machine.execRailLoss s
  | .crystalStop => Sys2Proof.Machine.execCrystalStop s
  | .lockstepMismatch => Sys2Proof.Machine.execLockstepMismatch s
  | .watchdogTimeout => Sys2Proof.Machine.execWatchdogTimeout s
  | .mgtRestart src => Sys2Proof.Machine.execMgtRestart src s
  | .mgtRestartDone sramOk fw => Sys2Proof.Machine.execMgtRestartDone sramOk fw s
  | .pwrSleep mask alarm src => Sys2Proof.Machine.execPwrSleep mask alarm src s
  | .pwrCtrlSleep src => Sys2Proof.Machine.execPwrCtrlSleep src s
  | .sleepDrainDone => Sys2Proof.Machine.execSleepDrainDone s
  | .sleepDrainLimit => Sys2Proof.Machine.execSleepDrainLimit s
  | .sleepEntered field rolling => Sys2Proof.Machine.execSleepEntered field rolling s
  | .wakePin ticks => Sys2Proof.Machine.execWakePin ticks s
  | .addressMatchWake ticks => Sys2Proof.Machine.execAddressMatchWake ticks s
  | .botexWake lane ticks => Sys2Proof.Machine.execBotexWake lane ticks s
  | .rtcAlarm ticks => Sys2Proof.Machine.execRtcAlarm ticks s
  | .wakeDone copyOk fw full => Sys2Proof.Machine.execWakeDone copyOk fw full s
  | .triggerResume => Sys2Proof.Machine.execTriggerResume s
  | .pwrQuery src => Sys2Proof.Machine.execPwrQuery src s
  | .pwrRtcSet sec src => Sys2Proof.Machine.execPwrRtcSet sec src s
  | .pwrReset uid src => Sys2Proof.Machine.execPwrReset uid src s
  | .pipeGate v src => Sys2Proof.Machine.execPipeGate v src s
  | .pwrClrCnt src => Sys2Proof.Machine.execPwrClrCnt src s
  | .tempSample temps => Sys2Proof.Machine.execTempSample temps s
  | .thermalTrip => Sys2Proof.Machine.execThermalTrip s
  | .registerWrite a v src => Sys2Proof.Machine.execRegisterWrite a v src s
  | .stickyClear a mask src => Sys2Proof.Machine.execStickyClear a mask src s
  | .loReadLatch a src => Sys2Proof.Machine.execLoReadLatch a src s
  | .hiWriteApply a v src => Sys2Proof.Machine.execHiWriteApply a v src s
  | .inputLineRelease r y => Sys2Proof.Machine.execInputLineRelease r y s
  | .outputPortServe p => Sys2Proof.Machine.execOutputPortServe p s
  | .blockResetDone u => Sys2Proof.Machine.execBlockResetDone u s

end Sys2Proof.Machine
end

