-- ==== Sys2Proof/Safety.lean ====
section
/-! DEFINITION. What a safe run keeps, and the words the statements use: frames, completion and answers. -/

namespace Sys2Proof.Machine

/-! ### What every step keeps -/

/-- The queues of fixed depth hold no more than the manual gives them: 1,024 events (01_frame_journey.md R17), 16 transmit
stamps (04_sync_and_tagging.md R111), 64 rejected commands (18_i3c_management_port.md R451), 4 outstanding nonces
(17_roles_security_audit.md R423) and 256 waiting records beside those of job switches (R432). -/
structure Bounded (s : State) : Prop where
  events : s.evq.length ≤ 1024
  stamps : s.syn.stamps.length ≤ 16
  rejected : s.mgt.rejected.length ≤ 64
  nonces : s.sec.nonces.length ≤ 4
  records : (s.sec.queue.filter fun q => !q.isSwitch).length ≤ 256

/-- The invariant: the addressed memory is in canonical form, and the queues of fixed depth keep within it. -/
structure Inv (s : State) : Prop where
  memory : Memory.wf s.mem = true
  bounded : Bounded s

/-! ### Frames -/

/-- The 64 KB page of the internal address space in which the block of a field lies (21_register_map.md R505); an internal
cell carries the page of its block. -/
def Fld.page (f : Fld) : Nat :=
  (if f.id < 2 ^ 45 then f.id / 2 ^ 21 else (f.id - 2 ^ 45) / 65536) % 128

/-- The parts of the state beside the cells and the queue of commands. -/
inductive Part where
  | mem | evq | lane | frames | ing | syn | pipe | blankets | ref | products | egr
  | brg | memq | sto | job | fab | boot | bist | mgt | sec | out | fresh | bad
  deriving DecidableEq, Repr

/-- A part is the same in both states. -/
def Part.same (p : Part) (s t : State) : Prop :=
  match p with
  | .mem => t.mem = s.mem
  | .evq => t.evq = s.evq
  | .lane => t.lane = s.lane
  | .frames => t.frames = s.frames
  | .ing => t.ing = s.ing
  | .syn => t.syn = s.syn
  | .pipe => t.pipe = s.pipe
  | .blankets => t.blankets = s.blankets
  | .ref => t.ref = s.ref
  | .products => t.products = s.products
  | .egr => t.egr = s.egr
  | .brg => t.brg = s.brg
  | .memq => t.memq = s.memq
  | .sto => t.sto = s.sto
  | .job => t.job = s.job
  | .fab => t.fab = s.fab
  | .boot => t.boot = s.boot
  | .bist => t.bist = s.bist
  | .mgt => t.mgt = s.mgt
  | .sec => t.sec = s.sec
  | .out => t.out = s.out
  | .fresh => t.fresh = s.fresh
  | .bad => t.bad = s.bad

/-- Going from `s` to `t`, only fields of the listed pages and the listed parts may have changed. -/
structure Touches (pages : List Nat) (parts : List Part) (s t : State) : Prop where
  cells : ∀ f i, f.page ∉ pages → t.get f i = s.get f i
  others : ∀ p : Part, p ∉ parts → p.same s t
  pending : t.pending = s.pending

/-- Only the listed cells may have changed, and no part. -/
structure OnlyCells (cs : List (Fld × Nat)) (s t : State) : Prop where
  cells : ∀ f i, (∀ c ∈ cs, ¬(c.1.id = f.id ∧ c.2 = i)) → t.get f i = s.get f i
  others : ∀ p : Part, p.same s t
  pending : t.pending = s.pending

/-! ### What a command may change -/

/-- Every page of the internal address space, and every part of the state. -/
def everyPage : List Nat := List.range 128
def everyPart : List Part := [.mem, .evq, .lane, .frames, .ing, .syn, .pipe, .blankets, .ref, .products, .egr, .brg, .memq, .sto, .job, .fab, .boot, .bist, .mgt, .sec, .out, .fresh, .bad]

/-- The pages whose registers, and the parts of the state, that a command may change: its own block's, those of the blocks
its effect reaches, page 0x00 with the event queue (01_frame_journey.md R17) and, for a command from the bridge, page 0x44 with
the replies. An effect that follows a durable record may be any recorded one (17_roles_security_audit.md R432). -/
def footprint (c : Sys2Proof.Instr) : List Nat × List Part :=
  match c with
  | .signalDetect .. | .lossOfSignal .. | .cdrLock .. | .cdrUnlock .. | .verifyWindowEnd .. | .verdictReceived .. |
    .alignLoss .. | .napTimeout .. | .laneEnable .. | .laneRetrain .. =>
    ([0x00, 0x01, 0x05, 0x10, 0x14, 0x18, 0x20, 0x28, 0x30, 0x34, 0x38, 0x43, 0x44, 0x48, 0x50], [.mem, .evq, .lane,
      .frames, .ing, .egr, .brg, .job, .fab, .mgt, .sec, .out])
  | .offsetMeasureDone .. | .ltsReceived .. | .verdictTimeout .. | .negotiateTimeout .. | .noLts .. |
    .stepTimeout .. =>
    ([0x00, 0x10], [.evq, .lane, .out])
  | .rateChange .. =>
    ([0x10], [.lane])
  | .blockLock .. | .activeStable .. | .trimPassEnd .. | .serviceTrim .. | .rxNap .. | .eyeScanDone .. =>
    ([0x10], [])
  | .backoffExpiry .. =>
    ([0x10], [.lane, .out])
  | .laneDisable .. | .fabSleepSymbol .. =>
    ([0x00, 0x01, 0x05, 0x10, 0x14, 0x18, 0x20, 0x28, 0x30, 0x34, 0x38, 0x43, 0x44, 0x48, 0x50], [.mem, .evq, .frames,
      .ing, .egr, .brg, .job, .fab, .mgt, .sec, .out])
  | .laneClrCnt .. =>
    ([0x00, 0x10, 0x44], [.mem, .evq, .egr, .brg, .mgt, .out])
  | .laneEqCommit .. =>
    ([0x00, 0x01, 0x10, 0x44], [.mem, .evq, .lane, .egr, .brg, .mgt, .sec, .out])
  | .idleTrim .. =>
    ([0x00, 0x10], [.evq, .out])
  | .txNap .. | .txWake .. =>
    ([0x10], [.out])
  | .eyeScanStart .. =>
    ([0x00, 0x01, 0x10, 0x44], [.mem, .evq, .egr, .brg, .mgt, .sec, .out])
  | .segmentReceived .. =>
    ([0x00, 0x05, 0x10, 0x14, 0x18, 0x28, 0x30, 0x34, 0x41, 0x43, 0x48, 0x50], [.evq, .frames, .ing, .syn, .pipe,
      .blankets, .ref, .egr, .job, .fab, .out])
  | .helloReceived .. | .pointerMismatch .. | .flushLimit .. =>
    ([0x00, 0x14, 0x18], [.evq, .frames, .ing, .out])
  | .trigAckReceived .. | .statusReceived .. | .usmasSymbolBad .. =>
    ([0x14], [])
  | .helloSend .. | .ptpRxStamp .. =>
    ([], [.out])
  | .pauseRepeat .. =>
    ([0x14], [.out])
  | .frameTimeout .. =>
    ([0x00, 0x14], [.evq, .frames, .out])
  | .queueFlush .. =>
    ([0x00, 0x14, 0x18, 0x44], [.mem, .evq, .frames, .egr, .brg, .mgt, .out])
  | .ingClrCnt .. | .playStart .. | .playStop .. =>
    ([0x00, 0x14, 0x44], [.mem, .evq, .egr, .brg, .mgt, .out])
  | .queueWmWrite .. =>
    ([0x00, 0x01, 0x14, 0x18, 0x44], [.mem, .evq, .egr, .brg, .mgt, .sec, .out])
  | .chApply .. =>
    ([0x00, 0x01, 0x14, 0x44], [.mem, .evq, .egr, .brg, .mgt, .sec, .out])
  | .playRecordRead .. =>
    ([0x00, 0x05, 0x14, 0x28, 0x30, 0x34, 0x41, 0x43, 0x48, 0x50], [.evq, .frames, .pipe, .blankets, .ref, .egr, .job,
      .fab, .out])
  | .playPace .. =>
    ([], [.frames])
  | .encoderCount .. =>
    ([0x00, 0x18], [.evq, .out])
  | .encoderZ .. | .slewDone =>
    ([0x18], [])
  | .encPreset .. =>
    ([0x00, 0x01, 0x18, 0x44], [.mem, .evq, .egr, .brg, .mgt, .sec, .out])
  | .speedSample | .triggerResume =>
    ([0x02, 0x18], [])
  | .markEdge .. =>
    ([0x00, 0x01, 0x02, 0x05, 0x14, 0x18, 0x28, 0x34, 0x38, 0x43, 0x50], [.evq, .ref, .job, .sec, .out])
  | .triggerFire .. =>
    ([0x00, 0x01, 0x18], [.evq, .syn, .sec, .out, .fresh])
  | .trigPulseEnd .. =>
    ([0x18], [.out])
  | .pitchCommit .. | .trigEnable .. | .trigDisable .. | .tbSlew .. =>
    ([0x00, 0x18, 0x44], [.mem, .evq, .egr, .brg, .mgt, .out])
  | .tbStep .. =>
    ([0x00, 0x02, 0x18, 0x44], [.mem, .evq, .egr, .brg, .mgt, .out])
  | .ptpTxtsPop .. =>
    ([0x00, 0x44], [.mem, .evq, .syn, .egr, .brg, .mgt, .out])
  | .stripeDispatch .. =>
    ([0x00, 0x14, 0x18, 0x20, 0x28, 0x50], [.mem, .evq, .frames, .pipe, .out, .bad])
  | .stripeComplete .. | .frameModeLine .. =>
    ([0x00, 0x14, 0x18, 0x20, 0x28, 0x41, 0x43, 0x50], [.mem, .evq, .frames, .pipe, .blankets, .ref, .egr, .out, .bad])
  | .exposureLineStored .. | .inputLineRelease .. =>
    ([0x00, 0x14, 0x18, 0x50], [.mem, .evq, .frames, .out, .bad])
  | .holdCopy .. =>
    ([0x00, 0x05, 0x14, 0x18, 0x28, 0x30, 0x41, 0x43], [.evq, .frames, .pipe, .blankets, .ref, .egr, .out])
  | .holdCopyDone .. | .spillCopyDone .. =>
    ([0x00, 0x14, 0x18, 0x50], [.mem, .evq, .frames, .pipe, .out, .bad])
  | .ctxWindowWrite .. | .layoutWindowWrite .. | .cmpWindowWrite .. | .egrDropPop .. | .brgClrCnt .. | .jobQuery .. |
    .libList .. | .recQuery .. | .portBind .. | .portUnbind .. | .evtForward .. | .evqPop .. | .bistResult .. |
    .bistLog .. | .pwrQuery .. =>
    ([0x00, 0x44], [.mem, .evq, .egr, .brg, .mgt, .out])
  | .ctxGo .. =>
    ([0x00, 0x01, 0x14, 0x28, 0x44], [.mem, .evq, .egr, .brg, .mgt, .sec, .out])
  | .ctxCancel .. =>
    ([0x00, 0x01, 0x28, 0x44], [.mem, .evq, .egr, .brg, .mgt, .sec, .out])
  | .rollStart .. =>
    ([0x00, 0x03, 0x05, 0x28, 0x44], [.mem, .evq, .egr, .brg, .mgt, .out])
  | .rollStop .. =>
    ([0x00, 0x02, 0x03, 0x14, 0x18, 0x20, 0x28, 0x41, 0x43, 0x44, 0x50], [.mem, .evq, .frames, .pipe, .blankets, .ref,
      .egr, .brg, .memq, .bist, .mgt, .out, .fresh, .bad])
  | .rollWithdrawn =>
    ([0x20, 0x28], [])
  | .rollInterval =>
    ([0x03, 0x28], [])
  | .pipeFence .. | .pipeUnfence .. =>
    ([0x00, 0x01, 0x20, 0x44], [.mem, .evq, .egr, .brg, .mgt, .sec, .out])
  | .pipeFenceDone .. =>
    ([0x00, 0x20, 0x28], [.evq, .out])
  | .pipeReset .. =>
    ([0x00, 0x01, 0x02, 0x14, 0x18, 0x20, 0x28, 0x41, 0x43, 0x44, 0x50], [.mem, .evq, .frames, .pipe, .blankets, .ref,
      .egr, .brg, .memq, .mgt, .sec, .out, .bad])
  | .pipeClrCnt .. =>
    ([0x00, 0x20, 0x44], [.mem, .evq, .egr, .brg, .mgt, .out])
  | .memberRowArrival =>
    ([0x00, 0x30, 0x34], [.evq, .frames, .pipe, .blankets, .ref, .out])
  | .tileLineEmit .. | .seamPacketReceived .. | .seamWaitExpiry .. =>
    ([0x00, 0x30, 0x34], [.evq, .frames, .blankets, .ref, .out])
  | .joinWindowClose .. =>
    ([0x00, 0x30], [.evq, .frames, .blankets, .ref, .out])
  | .seamPacketSend .. =>
    ([0x00, 0x30, 0x34, 0x48], [.evq, .frames, .blankets, .ref, .fab, .out])
  | .mrgGo .. | .mrgCancel .. =>
    ([0x00, 0x01, 0x30, 0x44], [.mem, .evq, .egr, .brg, .mgt, .sec, .out])
  | .mrgClrCnt .. | .holdMaxRead .. | .loReadLatch .. =>
    ([0x00, 0x30, 0x44], [.mem, .evq, .egr, .brg, .mgt, .out])
  | .alignmentTile .. =>
    ([0x00, 0x34, 0x38, 0x50, 0x54], [.evq, .frames, .ref, .products, .egr, .sto, .out])
  | .slotLoad .. | .refClrCnt .. =>
    ([0x00, 0x34, 0x44], [.mem, .evq, .egr, .brg, .mgt, .out])
  | .slotDone .. | .slotCheckDone .. | .slotClear .. =>
    ([0x00, 0x34, 0x44], [.mem, .evq, .ref, .egr, .brg, .mgt, .out])
  | .refGo .. | .refCancel .. | .refFence .. =>
    ([0x00, 0x01, 0x34, 0x44], [.mem, .evq, .egr, .brg, .mgt, .sec, .out])
  | .refFenceDone =>
    ([0x34], [])
  | .refReset .. =>
    ([0x00, 0x01, 0x02, 0x34, 0x38, 0x44], [.mem, .evq, .frames, .blankets, .ref, .products, .egr, .brg, .memq, .mgt,
      .sec, .out])
  | .productDone .. =>
    ([0x00, 0x38, 0x50, 0x54], [.mem, .evq, .products, .egr, .sto, .out, .bad])
  | .profCommit .. | .tslFence .. =>
    ([0x00, 0x01, 0x38, 0x44], [.mem, .evq, .egr, .brg, .mgt, .sec, .out])
  | .tslFenceDone =>
    ([0x38], [])
  | .tslReset .. =>
    ([0x00, 0x01, 0x02, 0x05, 0x38, 0x41, 0x43, 0x44], [.mem, .evq, .frames, .products, .egr, .brg, .memq, .mgt, .sec,
      .out])
  | .tslClrCnt .. =>
    ([0x00, 0x38, 0x44], [.mem, .evq, .egr, .brg, .mgt, .out])
  | .deliveryStart .. =>
    ([0x00, 0x05, 0x41, 0x43, 0x50], [.mem, .evq, .frames, .pipe, .egr, .out, .bad])
  | .classBBudgetExpiry .. =>
    ([0x00, 0x05, 0x41, 0x43], [.evq, .frames, .egr, .out])
  | .portSend .. =>
    ([0x00, 0x05, 0x18, 0x40, 0x41, 0x42, 0x43, 0x50], [.mem, .evq, .frames, .syn, .egr, .out, .fresh, .bad])
  | .ackReceived .. =>
    ([0x40, 0x41, 0x42], [.egr])
  | .nakReceived .. =>
    ([0x00, 0x05, 0x40, 0x41, 0x42, 0x43, 0x44], [.evq, .frames, .egr, .brg, .out])
  | .qpRetryTimeout .. =>
    ([0x00, 0x05, 0x41, 0x42, 0x43, 0x44], [.evq, .frames, .egr, .brg, .out])
  | .rnrTimer .. =>
    ([0x42], [.egr])
  | .cnpReceived .. =>
    ([0x40, 0x42], [])
  | .cnpRateInc .. =>
    ([0x42], [])
  | .qpEnable .. =>
    ([0x00, 0x01, 0x42, 0x44], [.mem, .evq, .egr, .brg, .mgt, .sec, .out])
  | .qpReset .. | .egrFence .. =>
    ([0x00, 0x01, 0x05, 0x41, 0x42, 0x43, 0x44], [.mem, .evq, .frames, .egr, .brg, .mgt, .sec, .out])
  | .egressLinkDown .. =>
    ([0x00, 0x40, 0x43], [.evq, .out])
  | .egressLinkUp .. =>
    ([0x40], [.egr])
  | .pauseFrameReceived .. | .rxFrameDiscard .. =>
    ([0x40], [])
  | .creditBlock .. =>
    ([0x00, 0x40, 0x41, 0x44], [.evq, .egr, .out])
  | .strConsWrite .. =>
    ([0x00, 0x41, 0x44], [.mem, .evq, .egr, .brg, .mgt, .out])
  | .egrLatePop .. =>
    ([0x00, 0x43, 0x44], [.mem, .evq, .egr, .brg, .mgt, .out])
  | .classDelaySet .. =>
    ([0x00, 0x01, 0x40, 0x44], [.mem, .evq, .egr, .brg, .mgt, .sec, .out])
  | .egrFenceDone =>
    ([0x43], [])
  | .egrReset .. =>
    ([0x00, 0x01, 0x02, 0x05, 0x41, 0x42, 0x43, 0x44], [.mem, .evq, .frames, .egr, .brg, .memq, .mgt, .sec, .out])
  | .egrClrCnt .. =>
    ([0x00, 0x40, 0x41, 0x42, 0x44], [.mem, .evq, .egr, .brg, .mgt, .out])
  | .badMessage .. =>
    ([0x00, 0x40, 0x44], [.evq, .egr, .out])
  | .accessRequest .. | .commandMessage .. =>
    ([0x00, 0x14, 0x40, 0x44], [.evq, .egr, .brg, .sec, .out])
  | .pieceComplete .. | .firmwareStart | .auditRecordDurable | .decommission .. | .indirectComplete .. |
    .targetResetPattern | .powerOn .. | .resetPin .. | .vaonLoss | .railLoss | .sleepEntered .. | .pwrReset .. |
    .thermalTrip | .registerWrite .. | .stickyClear .. | .hiWriteApply .. =>
    (everyPage, everyPart)
  | .pieceTimeout .. =>
    ([0x00, 0x44], [.evq, .egr, .brg, .out])
  | .readaheadExpiry .. =>
    ([0x00, 0x44], [.evq, .brg, .out])
  | .winCommit .. | .recKeep .. | .recRelease .. =>
    ([0x00, 0x01, 0x44], [.mem, .evq, .egr, .brg, .sto, .mgt, .sec, .out])
  | .winCommitApply .. =>
    ([0x00, 0x44], [.evq, .brg, .sto, .out])
  | .brgFence .. | .logout .. | .auditRelease .. | .fuseProgram .. | .testUnlock .. =>
    ([0x00, 0x01, 0x44], [.mem, .evq, .egr, .brg, .mgt, .sec, .out])
  | .brgFenceDone =>
    ([0x44], [])
  | .brgReset .. =>
    ([0x00, 0x01, 0x02, 0x44], [.mem, .evq, .egr, .brg, .memq, .mgt, .sec, .out])
  | .jobStb .. | .jobSelect .. | .jobArm .. | .jobStop .. | .drainDone | .startEntrySelect =>
    ([0x00, 0x01, 0x05, 0x14, 0x18, 0x28, 0x30, 0x34, 0x38, 0x43, 0x44, 0x48, 0x50], [.mem, .evq, .egr, .brg, .job,
      .fab, .mgt, .sec, .out])
  | .jobLoad .. =>
    ([0x00, 0x01, 0x05, 0x44, 0x48], [.mem, .evq, .egr, .brg, .job, .fab, .mgt, .sec, .out])
  | .jobLoadDone .. =>
    ([0x00, 0x01, 0x05, 0x14, 0x18, 0x28, 0x30, 0x34, 0x38, 0x43, 0x44, 0x48, 0x50, 0x54], [.mem, .evq, .egr, .brg,
      .sto, .job, .fab, .mgt, .sec, .out, .bad])
  | .jobCancel .. =>
    ([0x00, 0x01, 0x05, 0x28, 0x30, 0x34, 0x38, 0x43, 0x44, 0x48, 0x50], [.mem, .evq, .egr, .brg, .job, .fab, .mgt,
      .sec, .out])
  | .jobCtrlArm .. =>
    ([0x00, 0x01, 0x05, 0x14, 0x18, 0x28, 0x30, 0x34, 0x38, 0x43, 0x44, 0x50], [.mem, .evq, .egr, .brg, .job, .mgt,
      .sec, .out])
  | .jobCtrlCancel .. =>
    ([0x00, 0x05, 0x28, 0x30, 0x34, 0x38, 0x43, 0x44, 0x48, 0x50], [.mem, .evq, .egr, .brg, .job, .fab, .mgt, .out])
  | .setNext .. =>
    ([0x00, 0x05, 0x44], [.mem, .evq, .egr, .brg, .mgt, .out])
  | .jobMsgPrepare .. | .jobMsgArm .. | .jobMsgCancel .. | .prepareTimeout | .prepareResend | .armDeadline |
    .fabNak .. | .linkReset .. | .fabReplayTimeout .. | .neighbourLost .. | .idAssign | .ctrlTimeout .. |
    .bulkCommit .. =>
    ([0x00, 0x01, 0x05, 0x14, 0x18, 0x20, 0x28, 0x30, 0x34, 0x38, 0x43, 0x44, 0x48, 0x50], [.mem, .evq, .egr, .brg,
      .job, .fab, .mgt, .sec, .out])
  | .nandMount .. =>
    (everyPage, [.mem, .evq, .lane, .frames, .ing, .egr, .brg, .sto, .job, .fab, .mgt, .sec, .out])
  | .patrolScrub .. | .catchupScrub .. | .wearLevel .. | .programFail .. | .eraseFail .. | .recorderProgram =>
    ([0x00, 0x54], [.evq, .sto, .out])
  | .blockOverdue .. =>
    ([0x00, 0x54], [.evq, .out])
  | .libPut .. =>
    ([0x00, 0x01, 0x44, 0x50, 0x54], [.mem, .evq, .egr, .brg, .sto, .mgt, .sec, .out])
  | .libDelete .. | .recGibWrite .. =>
    ([0x00, 0x01, 0x44, 0x54], [.mem, .evq, .egr, .brg, .sto, .mgt, .sec, .out])
  | .libGet .. | .recGet .. =>
    ([0x00, 0x44, 0x50, 0x54], [.mem, .evq, .egr, .brg, .sto, .mgt, .out, .bad])
  | .libVerify .. =>
    ([0x00, 0x44, 0x54], [.mem, .evq, .egr, .brg, .sto, .mgt, .out])
  | .stoFence .. =>
    ([0x00, 0x01, 0x44, 0x54], [.mem, .evq, .egr, .brg, .mgt, .sec, .out])
  | .stoFenceDone =>
    ([0x54], [])
  | .stoReset .. =>
    ([0x00, 0x01, 0x02, 0x44, 0x54], [.mem, .evq, .egr, .brg, .memq, .sto, .mgt, .sec, .out])
  | .stoClrCnt .. =>
    ([0x00, 0x44, 0x54], [.mem, .evq, .egr, .brg, .mgt, .out])
  | .memoryTransaction .. =>
    ([0x00, 0x02, 0x44, 0x50], [.mem, .evq, .egr, .brg, .memq, .mgt, .out, .bad])
  | .priorityPromote .. =>
    ([], [.memq])
  | .mr4Poll .. =>
    ([0x00, 0x50], [.evq, .out])
  | .refresh .. | .writeLinkPoll .. | .memFenceDone =>
    ([0x50], [])
  | .memFence .. =>
    ([0x00, 0x01, 0x44, 0x50], [.mem, .evq, .egr, .brg, .mgt, .sec, .out])
  | .memReset .. =>
    ([0x00, 0x01, 0x02, 0x44, 0x50], [.mem, .evq, .egr, .brg, .memq, .mgt, .sec, .out])
  | .memResetDone =>
    ([0x02, 0x50], [])
  | .memClrCnt .. =>
    ([0x00, 0x44, 0x50], [.mem, .evq, .egr, .brg, .mgt, .out])
  | .fabPacketReceived .. | .waymarkReceived .. | .linkStateReceived .. | .idTableReceived .. |
    .ctrlRequestReceived .. | .ctrlReplyReceived .. | .timeRequestReceived .. | .timeResponseReceived .. |
    .bulkPacketReceived .. | .lateErrorReceived .. =>
    ([0x00, 0x01, 0x02, 0x05, 0x10, 0x14, 0x18, 0x20, 0x28, 0x30, 0x34, 0x38, 0x43, 0x44, 0x48, 0x50], [.mem, .evq,
      .frames, .blankets, .ref, .egr, .brg, .job, .fab, .mgt, .sec, .out, .bad])
  | .fabAck .. | .linkStateSend | .timeRequestSend =>
    ([0x48], [.fab])
  | .fabCredit .. | .fabFenceDone =>
    ([0x48], [])
  | .fabAlign .. =>
    ([0x00, 0x48], [.fab])
  | .waymarkSend .. =>
    ([], [.fab])
  | .rootUpdate =>
    ([0x00, 0x48], [.evq, .out])
  | .linkStateExpiry .. =>
    ([0x00, 0x48], [.evq, .fab, .out])
  | .routeCommit .. | .fabClrCnt .. =>
    ([0x00, 0x44, 0x48], [.mem, .evq, .egr, .brg, .mgt, .out])
  | .timeRateCorrect =>
    ([0x18, 0x48], [.fresh])
  | .fabLatePop .. =>
    ([0x00, 0x44], [.mem, .evq, .egr, .brg, .fab, .mgt, .out])
  | .fabPortWake .. =>
    ([0x00, 0x01, 0x10, 0x44, 0x48], [.mem, .evq, .lane, .egr, .brg, .fab, .mgt, .sec, .out])
  | .fabFence .. =>
    ([0x00, 0x01, 0x44, 0x48], [.mem, .evq, .egr, .brg, .mgt, .sec, .out])
  | .fabReset .. =>
    ([0x00, 0x01, 0x02, 0x05, 0x14, 0x18, 0x20, 0x28, 0x30, 0x34, 0x38, 0x43, 0x44, 0x48, 0x50], [.mem, .evq, .egr,
      .brg, .memq, .job, .fab, .mgt, .sec, .out])
  | .bootRead .. | .updateProgramDone .. =>
    ([0x00, 0x04], [.evq, .boot, .out])
  | .fwUpdate .. =>
    ([0x00, 0x01, 0x04, 0x44], [.mem, .evq, .egr, .brg, .boot, .mgt, .sec, .out])
  | .updateVerifyDone .. | .fwConfirm .. =>
    ([0x00, 0x04, 0x44], [.mem, .evq, .egr, .brg, .boot, .mgt, .out])
  | .updateReadbackDone .. =>
    ([0x00, 0x01, 0x04], [.evq, .boot, .sec, .out])
  | .fwActivate .. | .mgtRestart .. =>
    ([0x00, 0x01, 0x02, 0x04, 0x05, 0x28, 0x30, 0x34, 0x38, 0x43, 0x44, 0x48, 0x50], [.mem, .evq, .egr, .brg, .memq,
      .job, .fab, .boot, .mgt, .sec, .out])
  | .confirmTimeout | .lockstepMismatch | .watchdogTimeout =>
    ([0x00, 0x02, 0x04, 0x05, 0x28, 0x30, 0x34, 0x38, 0x43, 0x44, 0x48, 0x50], [.mem, .evq, .egr, .brg, .memq, .job,
      .fab, .boot, .mgt, .sec, .out])
  | .loginBegin .. =>
    ([0x00, 0x44], [.mem, .evq, .egr, .brg, .mgt, .sec, .out, .fresh])
  | .loginFinish .. =>
    ([0x00, 0x01, 0x44], [.mem, .evq, .egr, .brg, .mgt, .sec, .out, .fresh])
  | .sessionIdleTimeout .. =>
    ([0x00, 0x01, 0x44], [.evq, .brg, .mgt, .sec, .out])
  | .lockoutExpiry .. =>
    ([], [.sec])
  | .attest .. | .auditSign .. =>
    ([0x00, 0x44], [.mem, .evq, .egr, .brg, .mgt, .out, .fresh])
  | .attestKeysReady .. =>
    ([0x01], [])
  | .headSignDone =>
    ([0x00, 0x01], [.evq, .sec, .out, .fresh])
  | .auditRead .. =>
    ([0x00, 0x44, 0x50], [.mem, .evq, .egr, .brg, .mgt, .out, .bad])
  | .rngFail =>
    ([0x00, 0x01], [.evq, .out])
  | .pageWrite .. | .cmdSubmit =>
    ([0x00, 0x44], [.mem, .evq, .mgt, .sec, .out])
  | .pageRead .. | .entdaa .. | .setdasa .. | .rstdaa | .enec .. | .disec .. | .getpid | .getbcr | .getdcr |
    .getstatus | .getmxds | .rstact .. | .cccUnsupported .. | .sclTimeout | .sdaTimeout | .busAbort =>
    ([0x00], [.evq, .out])
  | .indirectTimeout | .cmdAck | .ibiRetry .. =>
    ([0x00], [.out])
  | .sdaRelease =>
    ([0x00], [])
  | .bistRun .. =>
    ([0x00, 0x01, 0x02, 0x03, 0x04, 0x05, 0x28, 0x30, 0x34, 0x38, 0x43, 0x44, 0x48, 0x50], [.mem, .evq, .egr, .brg,
      .memq, .job, .fab, .boot, .mgt, .sec, .out])
  | .bistStop .. =>
    ([0x00, 0x01, 0x03, 0x44], [.mem, .evq, .egr, .brg, .mgt, .sec, .out])
  | .bistTestEnd .. | .bistTimeout .. =>
    ([0x00, 0x01, 0x02, 0x03, 0x05, 0x14, 0x18, 0x20, 0x28, 0x30, 0x34, 0x38, 0x41, 0x42, 0x43, 0x44, 0x48, 0x50,
      0x54], [.mem, .evq, .frames, .ing, .syn, .pipe, .blankets, .ref, .products, .egr, .brg, .memq, .sto, .job, .fab,
      .bist, .mgt, .sec, .out, .bad])
  | .crystalStop | .sleepDrainDone =>
    ([0x02], [])
  | .mgtRestartDone .. =>
    ([0x00, 0x01, 0x02, 0x04, 0x05, 0x14, 0x18, 0x28, 0x30, 0x34, 0x38, 0x43, 0x44, 0x48, 0x50], [.mem, .evq, .egr,
      .brg, .memq, .job, .fab, .boot, .mgt, .sec, .out])
  | .pwrSleep .. | .pwrCtrlSleep .. =>
    ([0x00, 0x02, 0x05, 0x28, 0x30, 0x34, 0x38, 0x43, 0x44, 0x48, 0x50], [.mem, .evq, .egr, .brg, .job, .fab, .mgt,
      .out])
  | .sleepDrainLimit =>
    ([0x00, 0x02, 0x05, 0x28, 0x30, 0x41, 0x43], [.evq, .frames, .pipe, .blankets, .ref, .egr, .out])
  | .wakePin .. | .addressMatchWake .. | .botexWake .. | .rtcAlarm .. =>
    ([0x02, 0x10], [.lane, .out])
  | .wakeDone .. =>
    ([0x00, 0x01, 0x02, 0x04, 0x05, 0x14, 0x18, 0x28, 0x30, 0x34, 0x38, 0x43, 0x44, 0x48, 0x50, 0x54], [.mem, .evq,
      .egr, .brg, .sto, .job, .fab, .boot, .mgt, .sec, .out])
  | .pwrRtcSet .. =>
    ([0x00, 0x01, 0x02, 0x44], [.mem, .evq, .egr, .brg, .mgt, .sec, .out])
  | .pipeGate .. =>
    ([0x00, 0x01, 0x02, 0x44], [.mem, .evq, .pipe, .egr, .brg, .memq, .mgt, .sec, .out])
  | .pwrClrCnt .. =>
    ([0x00, 0x02, 0x44], [.mem, .evq, .egr, .brg, .mgt, .out])
  | .tempSample .. =>
    ([0x00, 0x02], [.evq, .out])
  | .outputPortServe .. =>
    ([0x48], [.fab, .out])
  | .blockResetDone .. =>
    ([0x02, 0x20], [])

/-! ### Completion -/

/-- The command answers a next state, which meets `P`. -/
def Completes (c : Sys2Proof.Instr) (s : State) (P : State → Prop) : Prop := ∃ t, exec c s = .next t ∧ P t

/-- A recorded command (17_roles_security_audit.md R429, R432) that passes its checks. The management processor makes
the change at once, and the state after it meets `P`; from a session the command waits in the audit queue under record `r`;
and it completes with STATE, changing nothing else but the count, where no record can be made. -/
structure Recorded (c : Sys2Proof.Instr) (s : State) (src : Src) (cmd : Nat) (r : AuditRec) (P : State → Prop) : Prop where
  atOnce : src.ini = .mgt → Completes c s P
  queued : s.roleOf src ≠ .device → s.auditClosed = false →
    exec c s = .next { s with sec := { s.sec with queue := s.sec.queue ++ [⟨r, src, some c, false⟩] } }
  closed : s.roleOf src ≠ .device → s.auditClosed = true →
    exec c s = .next ((s.inc .SEC_CNT_AUDIT_REFUSED).answer src cmd .state)

/-- The command answers a next state: one that meets `P`, in which the access of `src` then completes with status `st`
under code `cmd`. -/
def Answers (c : Sys2Proof.Instr) (s : State) (src : Src) (cmd : Nat) (st : Status) (P : State → Prop) : Prop :=
  ∃ u, exec c s = .next (u.answer src cmd st) ∧ P u

end Sys2Proof.Machine
end

