-- ==== Sys2Proof/Certificates/Slice0/Obligations.lean ====
section
/-! DEFINITION. The statements for the provers, one `def Obligations.<Name> : Prop` each. -/

open Sys2Proof Sys2Proof.Machine


/-- A step takes the command at the front of the queue and answers what it does on the state with the queue's rest. The queue is
the model's own form (log 1): the manual names no queue of commands. -/
def Obligations.StepRunsTheFrontCommand : Prop :=
  ∀ c rest (s : State), s.pending = c :: rest → step s = exec c { s with pending := rest }

/-- With an empty queue a step is one clock of CLK_PIX: only clocks and the time may change. That this is what an idle step does is the
model's choice (log 2). -/
def Obligations.EmptyQueueTicks : Prop :=
  ∀ (s : State), s.pending = [] → ∃ t, step s = .next t ∧ Touches [0x02, 0x18] [] s t

/-- After device reset every field of every instance holds the reset value of its table, except `EN` of window 0, which is 1 (R284); the
event queue, the memory and the frames in flight are empty. Reset values the manual does not give are the model's (logs of INVENTORY.md). -/
def Obligations.ResetLeavesResetValues : Prop :=
  (∀ f i, ¬(f.id = Fld.BRG_WIN_CFG_EN.id ∧ i = 0) → State.reset.get f i = f.reset) ∧ State.reset.get .BRG_WIN_CFG_EN = 1 ∧
    State.reset.evq = [] ∧ State.reset.mem = [] ∧ State.reset.frames = [] ∧ State.reset.sec.sessions = [] ∧ State.reset.pending = []

/-- The state after device reset meets the invariant that every step keeps. -/
def Obligations.ResetMeetsTheInvariant : Prop :=
  Machine.Inv State.reset

/-- From any state that meets the invariant, whatever command is at the front of the queue, a step leads to a state that meets it: at most 1,024
events (R17), 16 transmit stamps (R111), 64 rejected commands (R451), 4 nonces (R423) and 256 records that wait (R432), and memory in
canonical form (the model's form, log 5). -/
def Obligations.EveryStepKeepsTheInvariant : Prop :=
  ∀ s t, Machine.Inv s → step s = .next t → Machine.Inv t

/-- Whatever the state and the operands, a command answers a next state (no fault, no refusal); it leaves the queue of commands alone, and every
register outside the pages of its footprint, and every part of the state (memory, frames, queues) outside it, is as before. -/
def Obligations.EveryCommandCompletesWithinItsFootprint : Prop :=
  ∀ c (s : State), ∃ t, exec c s = .next t ∧ Touches (footprint c).1 (footprint c).2 s t

/-- Rule R18 of 01_frame_journey.md, on the operation by which every block raises an event. -/
def Obligations.EventQueueFollowsItsRule : Prop :=
  (∀ b i c a (s : State), (s.event b i c a).get .MGT_EVQ_NEXT_SEQ = (s.get .MGT_EVQ_NEXT_SEQ + 1) % 2 ^ 16 ∧
     (s.evq.length < 1024 → (s.event b i c a).evq = s.evq ++ [⟨s.now, b, i, c, s.get .MGT_EVQ_NEXT_SEQ, a⟩]) ∧
     (1024 ≤ s.evq.length → (s.event b i c a).evq = s.evq ∧ (s.event b i c a).get .MGT_EVQ_STATUS_OVF = 1 ∧
       (s.event b i c a).get .MGT_EVQ_LOST = min (s.get .MGT_EVQ_LOST + 1) (2 ^ Fld.MGT_EVQ_LOST.width - 1))) ∧
  (∀ (l : List (Nat × Nat × Nat × Nat)) (s : State), 1024 ≤ s.evq.length → s.get .MGT_EVQ_NEXT_SEQ < 2 ^ 16 → (l.foldl (fun s e => s.event e.1 e.2.1 e.2.2.1 e.2.2.2) s).evq = s.evq ∧
     (l.foldl (fun s e => s.event e.1 e.2.1 e.2.2.1 e.2.2.2) s).get .MGT_EVQ_NEXT_SEQ = (s.get .MGT_EVQ_NEXT_SEQ + l.length) % 2 ^ 16) ∧
  (∀ (s : State) (ev : Fld) i k en ei ek b n c a, k < ev.width → (∀ g ∈ [Fld.MGT_EVQ_NEXT_SEQ, .MGT_EVQ_LOST, .MGT_EVQ_STATUS_OVF, .I3C_H_CAUSE, .I3C_H_IBI, .MGT_H_IRQ], g.id ≠ ev.id) →
     (s.sticky ev i k en ei ek b n c a).bit ev i k = true)

/-- Rule R172 of 06_pixel_stages.md: the value a plane leaves the pipe with, and its error. -/
def Obligations.PlaneOutputRounds : Prop :=
  ∀ v, v < 2 ^ 20 → outValue v = min ((v + 8) >>> 4) 65535 ∧ (v < 1048568 → 16 * outValue v ≤ v + 8 ∧ v ≤ 16 * outValue v + 8) ∧
    (1048568 ≤ v → outValue v = 65535 ∧ v < 16 * outValue v + 16 ∧ 16 * outValue v < v + 16)

/-- Rule R431 of 17_roles_security_audit.md. -/
def Obligations.AuditChainHeads : Prop :=
  (∀ r (s : State), ∃ b, (s.appendRecord r).sec.ring.getLast? = some (s.get .SEC_AUDIT_SEQ + 1, b) ∧ (s.appendRecord r).sec.head = Config.sha256 (s.sec.head ++ b) ∧ b.length = 64) ∧
  (∀ (s : State) k, State.reset.sec.head = List.replicate 32 0 ∧ (s.deviceReset k).sec.head = s.sec.head ∧ (s.deviceReset k).get .SEC_AUDIT_SEQ = s.get .SEC_AUDIT_SEQ)

/-- Rule R302 of 12_jobs_and_autonomy.md, at the event that the boot image has been read, on a device that selects jobs itself. -/
def Obligations.StartEntryIsSelectedOnce : Prop :=
  ∀ (s : State), s.isFollower = false → s.mgtAbsent = false →
    (∀ i, i < 256 → (s.jobEntry i).start = true → (∀ j, j < i → (s.jobEntry j).start = false) →
      exec .startEntrySelect s = .next (s.selectJob 1 i true).1) ∧
    ((∀ j, j < 256 → (s.jobEntry j).start = false) → exec .startEntrySelect s = .next s)

/-- Signal, CDR and offset events of a lane complete, form by form. -/
def Obligations.LaneSignalsComplete : Prop :=
  (∀ lane (s : State), (s.get .LANE_ID_ROLE lane ≠ 3 ∨ s.portState (lanePort lane) ≠ portAsleep) → s.laneState lane ≠ laneDetect →
     s.on .LANE_STATUS_RX_NAP lane = false → s.on .LANE_H_RETURN lane = false →
     exec (.signalDetect lane) s = .next ((s.set .LANE_STATUS_SIG lane 1).set .LANE_STATUS_RX_NAP lane 0)) ∧
  (∀ lane (s : State), s.get .LANE_ID_ROLE lane = 2 → s.laneState lane = laneDetect → s.get .LANE_STATUS_CDR_LOCK lane = 1 →
     s.on .LANE_STATUS_RX_NAP lane = false → s.get .LANE_STATUS_RUNG lane = 3 →
     Completes (.signalDetect lane) s fun t =>
       t.laneState lane = laneActive ∧ t.get .LANE_STATUS_RUNG lane = 3 ∧ t.get .LANE_STATUS_SIG lane = 1) ∧
  (∀ lane (s : State), s.get .LANE_ID_ROLE lane ≠ 3 → s.laneState lane = laneActive → s.on .LANE_STATUS_RX_NAP lane = true →
     s.on .LANE_H_RETURN lane = false → s.on .LANE_H_TRIM lane = false → 600000 ≤ s.get .LANE_IDLE_IDLE_MS lane →
     Completes (.signalDetect lane) s fun t => t.get .LANE_STATUS_RX_NAP lane = 0 ∧ t.get .LANE_H_TRIM lane = 1) ∧
  (∀ lane (s : State), (s.on .LANE_STATUS_RX_NAP lane = true → exec (.lossOfSignal lane) s = .next s) ∧
     (s.on .LANE_STATUS_RX_NAP lane = false → s.laneState lane = laneDisabled ∨ s.laneState lane = laneDetect ∨ s.laneState lane = laneBackoff →
       exec (.lossOfSignal lane) s = .next ((((s.set .LANE_STATUS_SIG lane 0).set .LANE_STATUS_CDR_LOCK lane 0).set .LANE_H_LTS_RUN lane
         0).set .LANE_H_OFFS_DONE lane 0))) ∧
  (∀ lane (s : State), s.on .LANE_STATUS_RX_NAP lane = false → s.get .LANE_ID_ROLE lane ≠ 2 →
     s.laneState lane = laneNegotiate ∨ s.laneState lane = laneStep ∨ s.laneState lane = laneVerify →
     Completes (.lossOfSignal lane) s fun t =>
       t.laneState lane = laneDetect ∧ t.get .LANE_REASON_LAST lane = 1 ∧ t.get .LANE_STATUS_SIG lane = 0 ∧
       t.get .LANE_STATUS_CDR_LOCK lane = 0 ∧ t.get .LANE_STATUS_RUNG lane = 0) ∧
  (∀ lane (s : State), s.on .LANE_STATUS_RX_NAP lane = false → s.laneState lane = laneActive →
     Completes (.lossOfSignal lane) s fun t => t.laneState lane = laneDetect ∧
       (s.get .LANE_ID_ROLE lane ≠ 2 → t.get .LANE_STATUS_RUNG lane = 0)) ∧
  (∀ lane (s : State), (s.laneState lane ≠ laneDetect → s.laneState lane ≠ laneStep → s.on .LANE_H_RETURN lane = false →
       exec (.cdrLock lane) s = .next (s.set .LANE_STATUS_CDR_LOCK lane 1)) ∧
     (s.get .LANE_ID_ROLE lane ≠ 2 → (s.laneState lane = laneDetect ∨ s.on .LANE_H_RETURN lane = true) →
       exec (.cdrLock lane) s = .next ((s.set .LANE_STATUS_CDR_LOCK lane 1).set .LANE_H_OFFS_DONE lane 0))) ∧
  (∀ lane (s : State), s.get .LANE_ID_ROLE lane = 2 → s.laneState lane = laneDetect → s.on .LANE_STATUS_SIG lane = true →
     Completes (.cdrLock lane) s fun t => t.laneState lane = laneActive ∧ t.get .LANE_STATUS_CDR_LOCK lane = 1) ∧
  (∀ lane (s : State), s.get .LANE_ID_ROLE lane ≠ 2 → s.laneState lane = laneStep → s.on .LANE_H_RETURN lane = false →
     s.get .LANE_H_BLOCK lane = 1 →
     Completes (.cdrLock lane) s fun t => t.laneState lane = laneVerify ∧ t.get .LANE_STATUS_CDR_LOCK lane = 1) ∧
  (∀ lane (s : State), (s.on .LANE_STATUS_RX_NAP lane = true → exec (.cdrUnlock lane) s = .next s) ∧
     (s.on .LANE_STATUS_RX_NAP lane = false → s.laneState lane ≠ laneActive →
       exec (.cdrUnlock lane) s = .next ((s.set .LANE_STATUS_CDR_LOCK lane 0).set .LANE_H_OFFS_DONE lane 0))) ∧
  (∀ lane (s : State), s.on .LANE_STATUS_RX_NAP lane = false → s.laneState lane = laneActive →
     Completes (.cdrUnlock lane) s fun t => t.laneState lane = laneDetect ∧
       (s.get .LANE_ID_ROLE lane ≠ 2 → t.get .LANE_STATUS_RUNG lane = 0)) ∧
  (∀ lane ppm (s : State), ((s.on .LANE_STATUS_CDR_LOCK lane = false ∨ s.get .LANE_ID_ROLE lane = 2) → exec (.offsetMeasureDone lane ppm) s = .next s) ∧
     (s.on .LANE_STATUS_CDR_LOCK lane = true → s.get .LANE_ID_ROLE lane ≠ 2 → s.laneState lane ≠ laneDetect →
       s.laneState lane ≠ laneNegotiate → s.on .LANE_H_RETURN lane = false → exec (.offsetMeasureDone lane ppm) s =
       .next ((s.set .LANE_H_OFFS_DONE lane 1).set .LANE_H_OFFS_BAD lane (if ppm < -200 ∨ 200 < ppm then 1 else 0)))) ∧
  (∀ lane ppm (s : State), s.on .LANE_STATUS_CDR_LOCK lane = true → s.laneState lane = laneDetect → s.on .LANE_STATUS_SIG lane = true →
     4 ≤ s.get .LANE_H_LTS_RUN lane → -200 ≤ ppm → ppm ≤ 200 → s.get .LANE_ID_ROLE lane ≠ 2 → s.on .LANE_STATUS_LEADER lane = false →
     Completes (.offsetMeasureDone lane ppm) s fun t => t.laneState lane = laneNegotiate) ∧
  (∀ lane ppm (s : State), s.on .LANE_STATUS_CDR_LOCK lane = true → (s.laneState lane = laneDetect ∧ s.on .LANE_STATUS_SIG lane = true ∧
     4 ≤ s.get .LANE_H_LTS_RUN lane ∨ s.laneState lane = laneNegotiate) → (ppm < -200 ∨ 200 < ppm) → s.get .LANE_ID_ROLE lane ≠ 2 →
     Completes (.offsetMeasureDone lane ppm) s fun t =>
       t.laneState lane = laneBackoff ∧ t.get .LANE_REASON_LAST lane = 0x0E)

/-- What LTS_RECEIVED does on a lane with a role of its own training (no egress lane), by the lane's state, the sequence's type and the side the
lane takes in the negotiation. -/
def Obligations.TrainingSequencesComplete : Prop :=
  (∀ lane l (s : State), s.laneState lane = laneDisabled ∨ s.laneState lane = laneBackoff ∨ s.get .LANE_ID_ROLE lane = 2 →
     exec (.ltsReceived lane l) s = .next s) ∧
  (∀ lane l (s : State), s.laneState lane ≠ laneDisabled → s.laneState lane ≠ laneBackoff → s.get .LANE_ID_ROLE lane ≠ 2 → ltsValid l = false →
     Completes (.ltsReceived lane l) s fun t => t.get .LANE_H_LTS_RUN lane = 0 ∧ t.get .LANE_H_ACK_RUN lane = 0 ∧ t.laneState lane = s.laneState lane) ∧
  (∀ lane l (s : State), s.laneState lane = laneDetect → s.get .LANE_ID_ROLE lane ≠ 2 → ltsValid l = true → l.chars.getD 2 0 = s.protocol lane →
     s.get .LANE_H_LTS_RUN lane < 3 → s.on .LANE_H_RETURN lane = false →
     Completes (.ltsReceived lane l) s fun t => t.get .LANE_H_LTS_RUN lane = s.get .LANE_H_LTS_RUN lane + 1 ∧
       t.get .LANE_STATUS_PARTNER_MASK lane = l.chars.getD 3 0 % 2 ^ Fld.LANE_STATUS_PARTNER_MASK.width ∧
       t.get .LANE_STATUS_LEADER lane = (if leAt l.chars 8 6 < s.tiebreak then 1 else 0) ∧ t.laneState lane = laneDetect) ∧
  (∀ lane l (s : State), s.laneState lane = laneDetect → s.get .LANE_ID_ROLE lane ≠ 2 → ltsValid l = true → l.chars.getD 2 0 = s.protocol lane →
     s.get .LANE_H_LTS_RUN lane = 3 → s.on .LANE_STATUS_SIG lane = true → s.on .LANE_STATUS_CDR_LOCK lane = true →
     s.on .LANE_H_OFFS_DONE lane = true → s.on .LANE_H_OFFS_BAD lane = false → s.tiebreak ≤ leAt l.chars 8 6 →
     Completes (.ltsReceived lane l) s fun t => t.laneState lane = laneNegotiate) ∧
  (∀ lane l (s : State), s.laneState lane = laneDetect → s.get .LANE_ID_ROLE lane ≠ 2 → ltsValid l = true → l.chars.getD 2 0 ≠ s.protocol lane →
     Completes (.ltsReceived lane l) s fun t => t.laneState lane = laneBackoff ∧ t.get .LANE_REASON_LAST lane = 0x05) ∧
  (∀ lane l (s : State), s.laneState lane = laneNegotiate → s.get .LANE_ID_ROLE lane ≠ 2 → ltsValid l = true → ∃ u : State,
     exec (.ltsReceived lane l) s = .next (u.negotiate lane (l.chars.getD 1 0) (l.chars.getD 4 0) (leAt l.chars 8 6) ((l.chars.getD 5 0).testBit 2)) ∧
     OnlyCells [(.LANE_STATUS_PARTNER_MASK, lane), (.LANE_STATUS_LEADER, lane), (.LANE_H_LTS_RUN, lane)] s u ∧
     u.get .LANE_STATUS_PARTNER_MASK lane = l.chars.getD 3 0 % 2 ^ Fld.LANE_STATUS_PARTNER_MASK.width ∧
     u.get .LANE_STATUS_LEADER lane = (if leAt l.chars 8 6 < s.tiebreak then 1 else 0)) ∧
  (∀ (u : State) lane typ req resume, (u.negotiate lane typ req u.tiebreak resume).laneState lane = laneBackoff ∧
     (u.negotiate lane typ req u.tiebreak resume).get .LANE_REASON_LAST lane = 0x07) ∧
  (∀ (u : State) lane peer resume, peer ≠ u.tiebreak → u.on .LANE_STATUS_LEADER lane = true → u.on .LANE_H_STEP_SENT lane = false →
     (u.get .LANE_H_RUNG_AGREED lane < 5 → u.get .LANE_H_ACK_RUN lane < 7 →
       u.negotiate lane 0x41 (u.get .LANE_H_RUNG_AGREED lane) peer resume = u.add .LANE_H_ACK_RUN lane 1) ∧
     (u.get .LANE_H_ACK_RUN lane = 7 → u.negotiate lane 0x41 (u.get .LANE_H_RUNG_AGREED lane) peer resume =
       (((u.add .LANE_H_ACK_RUN lane 1).set .LANE_H_STEP_SENT lane 1).sendLts lane 0x53 (u.get .LANE_H_RUNG_AGREED lane) (u.on .LANE_H_RESUME lane))) ∧
     (u.get .LANE_H_RUNG_AGREED lane ≠ 0xFF → u.on .LANE_H_RESUME lane = false → u.negotiate lane 0x41 0xFF peer resume =
       (match u.bestRung lane (u.get .LANE_H_RUNG_AGREED lane) with
        | 0 => u.backoff lane 0x06
        | r => ((u.set .LANE_H_RUNG_AGREED lane r).set .LANE_H_ACK_RUN lane 0).sendLts lane 0x4C r false))) ∧
  (∀ (u : State) lane req peer, peer ≠ u.tiebreak → u.on .LANE_STATUS_LEADER lane = false →
     (1 ≤ req → req ≤ 4 → req ≤ u.rungLimit lane → u.negotiate lane 0x4C req peer false =
       ((u.set .LANE_H_RESUME lane 0).set .LANE_H_RUNG_AGREED lane req).sendLts lane 0x41 req false) ∧
     (req = 0 ∨ 4 < req ∨ u.rungLimit lane < req → u.negotiate lane 0x4C req peer false =
       ((u.set .LANE_H_RESUME lane 0).set .LANE_H_RUNG_AGREED lane 0).sendLts lane 0x41 0xFF false) ∧
     (u.get .LANE_H_RUNG_AGREED lane ≠ 0 → u.get .LANE_H_STEP_RUN lane = 1 → u.negotiate lane 0x53 req peer false =
       ((u.add .LANE_H_STEP_RUN lane 1).set .LANE_H_STEP_SENT lane 1).sendLts lane 0x53 (u.get .LANE_H_RUNG_AGREED lane) false))

/-- Rate change, block lock, verification and the timers of training complete, form by form. -/
def Obligations.StepAndVerifyComplete : Prop :=
  (∀ lane (s : State), (s.laneState lane = laneNegotiate → s.on .LANE_H_STEP_SENT lane = true →
     Completes (.rateChange lane) s fun t => t.laneState lane = laneStep ∧ t.get .LANE_STATUS_CDR_LOCK lane = 0 ∧
       t.get .LANE_STATUS_RUNG lane = s.get .LANE_H_RUNG_AGREED lane % 8 ∧ t.get .LANE_H_VERD_L lane = 0 ∧ t.get .LANE_H_VERD_P lane = 0 ∧
       tabGet t.lane.eqLoaded lane (EqEntry.default 0) = s.eqInEffect lane (s.get .LANE_H_RUNG_AGREED lane)) ∧
     (s.laneState lane ≠ laneNegotiate ∨ s.on .LANE_H_STEP_SENT lane = false → exec (.rateChange lane) s = .next s)) ∧
  (∀ lane (s : State), (s.on .LANE_H_RETURN lane = true → exec (.blockLock lane) s = .next s) ∧
     (s.on .LANE_H_RETURN lane = false → s.laneState lane ≠ laneStep ∨ s.on .LANE_STATUS_CDR_LOCK lane = false →
       exec (.blockLock lane) s = .next (s.set .LANE_H_BLOCK lane 1)) ∧
     (s.on .LANE_H_RETURN lane = false → s.laneState lane = laneStep → s.on .LANE_STATUS_CDR_LOCK lane = true →
       exec (.blockLock lane) s = .next ((s.set .LANE_H_BLOCK lane 1).set .LANE_STATUS_STATE lane laneVerify))) ∧
  (∀ lane hdr uncorr corr (s : State), s.laneState lane = laneVerify → s.on .LANE_H_RETURN lane = false →
       windowPass (s.get .LANE_STATUS_RUNG lane) hdr uncorr corr = true → exec (.verifyWindowEnd lane hdr uncorr corr) s =
         .next (let u := (((s.add .LANE_CNT_CORR lane corr).add .LANE_CNT_UNCORR lane uncorr).set .LANE_H_VERD_L lane 1).emit (.laneCtl lane 0x564F4B 1)
           if s.get .LANE_H_VERD_P lane = 1 then u.laneUp lane else if s.get .LANE_H_VERD_P lane = 2 then u.stepFail lane else u)) ∧
  (∀ lane hdr uncorr corr (s : State), (s.laneState lane = laneVerify → s.on .LANE_H_RETURN lane = false →
       windowPass (s.get .LANE_STATUS_RUNG lane) hdr uncorr corr = false → exec (.verifyWindowEnd lane hdr uncorr corr) s =
       .next ((((s.add .LANE_CNT_CORR lane corr).add .LANE_CNT_UNCORR lane uncorr).emit (.laneCtl lane 0x564E4B 1)).stepFail lane)) ∧
     (s.laneState lane ≠ laneVerify ∨ s.on .LANE_H_RETURN lane = true → exec (.verifyWindowEnd lane hdr uncorr corr) s = .next s)) ∧
  (∀ lane (s : State), s.get .LANE_ID_ROLE lane = 1 → (s.laneUp lane).laneState lane = laneActive) ∧
  (∀ lane (s : State), s.on .LANE_H_RESUME lane = false →
     ((s.set .LANE_H_RESUME lane 0).bestRung lane (s.get .LANE_STATUS_RUNG lane) = 0 →
       (s.stepFail lane).laneState lane = laneBackoff ∧ (s.stepFail lane).get .LANE_REASON_LAST lane = 0x09) ∧
     ((s.set .LANE_H_RESUME lane 0).bestRung lane (s.get .LANE_STATUS_RUNG lane) ≠ 0 → s.get .LANE_STATUS_RUNG lane < 5 →
       (s.stepFail lane).get .LANE_STATUS_RUNG lane = 0 ∧ (s.stepFail lane).get .LANE_H_RETURN lane = 1)) ∧
  (∀ lane (s : State), s.on .LANE_H_RETURN lane = false →
     (s.laneState lane = laneStep ∨ s.laneState lane = laneVerify ∧ s.get .LANE_H_VERD_L lane ≠ 1 →
       exec (.verdictReceived lane true) s = .next (s.set .LANE_H_VERD_P lane 1)) ∧
     (s.laneState lane = laneVerify → s.get .LANE_H_VERD_L lane = 1 → exec (.verdictReceived lane true) s = .next (s.laneUp lane)) ∧
     (s.laneState lane = laneStep ∨ s.laneState lane = laneVerify → exec (.verdictReceived lane false) s = .next (s.stepFail lane))) ∧
  (∀ lane pass (s : State), s.on .LANE_H_RETURN lane = true ∨ (s.laneState lane ≠ laneStep ∧ s.laneState lane ≠ laneVerify) →
     exec (.verdictReceived lane pass) s = .next s) ∧
  (∀ lane (s : State), (s.laneState lane = laneVerify → s.on .LANE_H_RETURN lane = false → s.get .LANE_H_VERD_L lane ≠ 0 → s.get .LANE_H_VERD_P lane = 0 →
       exec (.verdictTimeout lane) s = .next (s.stepFail lane)) ∧
     (s.laneState lane ≠ laneVerify ∨ s.on .LANE_H_RETURN lane = true ∨ s.get .LANE_H_VERD_L lane = 0 ∨ s.get .LANE_H_VERD_P lane ≠ 0 →
       exec (.verdictTimeout lane) s = .next s)) ∧
  (∀ lane (s : State), (s.laneState lane = laneNegotiate → Completes (.negotiateTimeout lane) s fun t =>
       t.laneState lane = laneBackoff ∧ t.get .LANE_REASON_LAST lane = 0x08) ∧
     (s.laneState lane ≠ laneNegotiate → exec (.negotiateTimeout lane) s = .next s)) ∧
  (∀ lane (s : State), (s.laneState lane = laneDetect → s.on .LANE_STATUS_SIG lane = true → s.get .LANE_ID_ROLE lane ≠ 2 →
     Completes (.noLts lane) s fun t => t.laneState lane = laneBackoff ∧ t.get .LANE_REASON_LAST lane = 0x04) ∧
     (s.laneState lane ≠ laneDetect ∨ s.on .LANE_STATUS_SIG lane = false ∨ s.get .LANE_ID_ROLE lane = 2 → exec (.noLts lane) s = .next s)) ∧
  (∀ lane (s : State), (s.laneState lane = laneStep ∨ s.laneState lane = laneVerify → s.on .LANE_H_RETURN lane = false →
       exec (.stepTimeout lane) s = .next (s.stepFail lane)) ∧
     (s.on .LANE_H_RETURN lane = true ∨ s.laneState lane ≠ laneStep ∧ s.laneState lane ≠ laneVerify → exec (.stepTimeout lane) s = .next s)) ∧
  (∀ lane (s : State), (s.laneState lane = laneBackoff → Completes (.backoffExpiry lane) s fun t =>
       t.laneState lane = laneDetect ∧ (s.get .LANE_ID_ROLE lane ≠ 2 → t.get .LANE_STATUS_RUNG lane = 0)) ∧
     (s.laneState lane ≠ laneBackoff → exec (.backoffExpiry lane) s = .next s))

/-- Loss of alignment, stability, idle, trim, nap and eye scan events of a lane complete. -/
def Obligations.LaneServiceCompletes : Prop :=
  (∀ lane (s : State), (s.laneState lane = laneActive → s.get .LANE_ID_ROLE lane ≠ 2 → s.on .LANE_STATUS_RX_NAP lane = false → Completes (.alignLoss lane) s fun t =>
       t.laneState lane = laneDetect ∧ t.get .LANE_STATUS_RUNG lane = 0) ∧
     (s.laneState lane ≠ laneActive ∨ s.get .LANE_ID_ROLE lane = 2 ∨ s.on .LANE_STATUS_RX_NAP lane = true → exec (.alignLoss lane) s = .next s)) ∧
  (∀ lane (s : State), (s.laneState lane = laneActive → s.on .LANE_STATUS_RX_NAP lane = true → Completes (.napTimeout lane) s fun t =>
       t.laneState lane = laneDetect ∧ t.get .LANE_REASON_LAST lane = 0x0A) ∧
     (s.laneState lane ≠ laneActive ∨ s.on .LANE_STATUS_RX_NAP lane = false → exec (.napTimeout lane) s = .next s)) ∧
  (∀ lane (s : State), (s.laneState lane = laneActive → exec (.activeStable lane) s =
       .next ((s.set .LANE_H_STABLE lane 1).set .LANE_STATUS_FAIL_COUNT lane 0)) ∧
     (s.laneState lane ≠ laneActive → exec (.activeStable lane) s = .next s)) ∧
  (∀ lane ms (d : Int) (s : State), -128 ≤ d → d ≤ 127 →
     (s.laneState lane ≠ laneActive ∨ (ms < 600000 ∧ -15 < d ∧ d < 15) → exec (.idleTrim lane ms d) s =
       .next (((s.set .LANE_IDLE_IDLE_MS lane (min ms 0xFFFFFF)).set .LANE_IDLE_DTJ lane (ofSigned 8 d)).set .LANE_H_IDLE lane 1)) ∧
     (s.laneState lane = laneActive → s.on .LANE_STATUS_RX_NAP lane = false → 600000 ≤ ms ∨ 15 ≤ d ∨ d ≤ -15 → Completes (.idleTrim lane ms d) s fun t =>
       t.on .LANE_H_TRIM lane = true)) ∧
  (∀ lane (s : State), (s.on .LANE_H_TRIM lane = true → exec (.trimPassEnd lane) s =
       .next (((s.set .LANE_H_TRIM lane 0).set .LANE_IDLE_IDLE_MS lane 0).set .LANE_IDLE_DTJ lane 0)) ∧
     (s.on .LANE_H_TRIM lane = false → exec (.trimPassEnd lane) s = .next s)) ∧
  (∀ lane (s : State), (s.laneState lane = laneActive → s.on .LANE_H_IDLE lane = false → s.on .LANE_STATUS_RX_NAP lane = false →
       s.on .LANE_EYE_STATUS_BUSY lane = false → s.on .LANE_H_TRIM lane = false → exec (.serviceTrim lane) s =
       .next (((s.bump .LANE_H_SLICER lane 1).set .LANE_IDLE_IDLE_MS lane 0).set .LANE_IDLE_DTJ lane 0)) ∧
     (s.laneState lane ≠ laneActive ∨ s.on .LANE_H_IDLE lane = true ∨ s.on .LANE_STATUS_RX_NAP lane = true ∨
       s.on .LANE_EYE_STATUS_BUSY lane = true ∨ s.on .LANE_H_TRIM lane = true → exec (.serviceTrim lane) s = .next s)) ∧
  (∀ lane (s : State), (s.laneState lane = laneActive → s.get .LANE_ID_ROLE lane = 3 → s.on .LANE_CTRL_TX_NAP_EN lane = true →
       s.on .LANE_STATUS_TX_NAP lane = false → exec (.txNap lane) s = .next ((s.set .LANE_STATUS_TX_NAP lane 1).emit (.laneCtl lane 0x4E4150 16))) ∧
     (s.laneState lane ≠ laneActive ∨ s.get .LANE_ID_ROLE lane ≠ 3 ∨ s.on .LANE_CTRL_TX_NAP_EN lane = false ∨ s.on .LANE_STATUS_TX_NAP lane = true →
       exec (.txNap lane) s = .next s) ∧
     (s.on .LANE_STATUS_TX_NAP lane = true → exec (.txWake lane) s =
       .next ((s.set .LANE_STATUS_TX_NAP lane 0).emit (.laneCtl lane 0x57414B 64))) ∧
     (s.on .LANE_STATUS_TX_NAP lane = false → exec (.txWake lane) s = .next s)) ∧
  (∀ lane (s : State), (s.laneState lane = laneActive → s.get .LANE_ID_ROLE lane ≠ 2 →
     exec (.rxNap lane) s = .next (s.set .LANE_STATUS_RX_NAP lane 1)) ∧
     (s.laneState lane ≠ laneActive ∨ s.get .LANE_ID_ROLE lane = 2 → exec (.rxNap lane) s = .next s)) ∧
  (∀ lane n (s : State), (s.on .LANE_EYE_STATUS_BUSY lane = true → s.on .LANE_H_TRIM lane = false → exec (.eyeScanDone lane n) s =
     .next (((s.set .LANE_EYE_STATUS_BUSY lane 0).set .LANE_EYE_STATUS_DONE lane 1).set .LANE_EYE_ERR lane (min n 0xFFFFFFFF))) ∧
     (s.on .LANE_EYE_STATUS_BUSY lane = false ∨ s.on .LANE_H_TRIM lane = true → exec (.eyeScanDone lane n) s = .next s))

/-- Lane control commands take effect at once for the management processor and queue for a session. -/
def Obligations.LaneControlCompletes : Prop :=
  (∀ lane src (s : State), s.gate src .installer (20 + lane / 4) = .ok →
     Recorded (.laneEnable lane src) s src 0
       (s.auditRec src 1 1 (0x100004 + 0x1000 * lane) (valueDigest (s.get .LANE_CTRL_ENABLE lane)) (valueDigest 1)) fun t =>
       t.get .LANE_CTRL_ENABLE lane = 1 ∧ (s.laneState lane = laneDisabled → s.get .LANE_ID_ROLE lane ≠ 0 → s.get .LANE_ID_ROLE lane ≠ 2 →
         t.laneState lane = laneDetect ∧ t.get .LANE_STATUS_FAIL_COUNT lane = 0 ∧ t.get .LANE_STATUS_EXCLUDED lane = 0)) ∧
  (∀ lane src (s : State), s.gate src .installer (20 + lane / 4) = .ok →
     Recorded (.laneDisable lane src) s src 0
       (s.auditRec src 1 1 (0x100004 + 0x1000 * lane) (valueDigest (s.get .LANE_CTRL_ENABLE lane)) (valueDigest 0)) fun t =>
       t.laneState lane = laneDisabled ∧ t.get .LANE_REASON_LAST lane = 0x0C) ∧
  (∀ lane src (s : State), s.gate src .installer (20 + lane / 4) = .ok →
     Recorded (.laneRetrain lane src) s src 0
       (s.auditRec src 1 1 (0x100004 + 0x1000 * lane) (valueDigest 0) (valueDigest 2)) fun t =>
       s.laneState lane ≠ laneDisabled → s.laneState lane ≠ laneBackoff → s.get .LANE_ID_ROLE lane ≠ 2 →
         t.laneState lane = laneDetect ∧ t.get .LANE_REASON_LAST lane = 0x0B ∧ t.get .LANE_STATUS_FAIL_COUNT lane = 0) ∧
  (∀ lane src (s : State), s.gate src .operator (20 + lane / 4) = .ok → exec (.laneClrCnt lane src) s =
     .next (((((s.set .LANE_CNT_CORR lane 0).set .LANE_CNT_UNCORR lane 0).set .LANE_CNT_LOS lane 0).set .LANE_CNT_FAIL lane
       0).answer src 0 .ok)) ∧
  (∀ lane src (s : State), s.gate src .installer (20 + lane / 4) = .ok → s.settingsBusy src = false → eqValid (s.eqStaged lane) = true →
     s.get .LANE_EQ_SEL_RUNG lane ≤ 4 →
     Recorded (.laneEqCommit lane src) s src 0 (s.auditRec src 2 1 (0x100028 + 0x1000 * lane) noValue noValue) fun t =>
       t.eqEntry lane (s.get .LANE_EQ_SEL_RUNG lane) = s.eqStaged lane ∧
       tabGet t.lane.eqKept (5 * lane + s.get .LANE_EQ_SEL_RUNG lane) (EqEntry.default 1) = s.eqStaged lane) ∧
  (∀ lane src (s : State), s.gate src .installer (20 + lane / 4) = .ok →
     Recorded (.eyeScanStart lane src) s src 0 (s.auditRec src 1 1 (0x100050 + 0x1000 * lane) noValue noValue) fun t =>
       s.on .LANE_EYE_STATUS_BUSY lane = false →
       (s.laneState lane = laneActive → s.get .LANE_STATUS_RUNG lane ≠ 0 → 10 ≤ s.get .LANE_EYE_CTRL_LOG2_SAMPLES lane →
         s.get .LANE_EYE_CTRL_LOG2_SAMPLES lane ≤ 30 → s.get .LANE_EYE_CTRL_EYE lane ≠ 3 →
         t.get .LANE_EYE_STATUS_BUSY lane = 1 ∧ t.get .LANE_EYE_STATUS_RESTARTS lane = 0) ∧
       (s.laneState lane ≠ laneActive → t.get .LANE_EYE_STATUS_ABORTED lane = 1 ∧ t.get .LANE_EYE_STATUS_ABORT_REASON lane = 1))

/-- Segments and control symbols of a camera lane complete, form by form. -/
def Obligations.SegmentsAndSymbolsComplete : Prop :=
  (∀ lane g (s : State), (segBad g = true → exec (.segmentReceived lane g) s = .next (s.inc .ING_LANE_CNT_SEGERR lane)) ∧
     (segBad g = false → s.get .ING_LANE_STATUS_USMAS_STATE lane ≠ 2 →
       exec (.segmentReceived lane g) s = .next (s.inc .ING_LANE_CNT_DISCARD lane))) ∧
  (∀ lane g (s : State), segBad g = false → s.get .ING_LANE_STATUS_USMAS_STATE lane = 2 → exec (.segmentReceived lane g) s =
     .next ((((s.lanePayload lane).segSequence lane (g.hdr.getD 3 0)).reassemble lane g).flushAfter lane (leAt g.hdr 1 2)).noteEligible) ∧
  (∀ lane g (s : State), segBad g = false → s.get .ING_LANE_STATUS_USMAS_STATE lane = 2 → s.get .ING_LANE_STATUS_VER lane ≠ 3 →
     (g.hdr.getD 0 0).testBit 4 = true → (g.hdr.getD 0 0).testBit 5 = false → (g.payload.take (leAt g.hdr 1 2)).length < 4 →
     s.packet lane = none → s.on .ING_QUEUE_LEVEL_FLUSHING lane = false →
     Completes (.segmentReceived lane g) s fun t => t.packet lane =
       some ⟨g.hdr.getD 0 0 % 4, g.hdr.getD 0 0 / 4 % 4, g.payload.take (leAt g.hdr 1 2), none, 0, false⟩) ∧
  (∀ lane h (s : State), h.getD 4 0 = 0 →
     (s.get .ING_LANE_STATUS_USMAS_STATE lane = 1 → 1 ≤ h.getD 1 0 → h.getD 0 0 ≤ min (h.getD 1 0) 3 →
       Completes (.helloReceived lane h) s fun t => t.get .ING_LANE_STATUS_USMAS_STATE lane = 2 ∧
         t.get .ING_LANE_STATUS_VER lane = min (h.getD 1 0) 3 ∧ tabGet t.ing.hello lane [] = helloArg h) ∧
     (s.get .ING_LANE_STATUS_USMAS_STATE lane = 1 → min (h.getD 1 0) 3 < h.getD 0 0 →
       Completes (.helloReceived lane h) s fun t => t.get .ING_LANE_STATUS_USMAS_STATE lane = 3 ∧
         t.get .ING_LANE_STATUS_VER lane = 0 ∧ t.get .ING_LANE_STATUS_MINOR lane = 0) ∧
     (s.get .ING_LANE_STATUS_USMAS_STATE lane = 0 ∨
       (s.get .ING_LANE_STATUS_USMAS_STATE lane = 2 ∧ tabGet s.ing.hello lane [] = helloArg h) → exec (.helloReceived lane h) s = .next s)) ∧
  (∀ lane h (s : State), (h.getD 4 0 ≠ 0 → exec (.helloReceived lane h) s = .next (s.inc .ING_LANE_CNT_SEGERR lane)) ∧
     (h.getD 4 0 = 0 → s.get .ING_LANE_STATUS_USMAS_STATE lane = 2 → tabGet s.ing.hello lane [] ≠ helloArg h →
       exec (.helloReceived lane h) s = .next (((s.usmasCut lane).set .ING_LANE_STATUS_USMAS_STATE lane 1).helloEval lane (helloArg h))) ∧
     (h.getD 4 0 = 0 → s.get .ING_LANE_STATUS_USMAS_STATE lane = 3 → exec (.helloReceived lane h) s = .next (s.helloEval lane (helloArg h)))) ∧
  (∀ lane arg (s : State), (arg.getD 3 0 = 0 → arg.getD 4 0 = 0 → exec (.trigAckReceived lane arg) s = .next s) ∧
     (arg.getD 3 0 ≠ 0 ∨ arg.getD 4 0 ≠ 0 → exec (.trigAckReceived lane arg) s = .next (s.inc .ING_LANE_CNT_SEGERR lane))) ∧
  (∀ lane arg (s : State), (s.get .ING_LANE_STATUS_USMAS_STATE lane = 2 → s.bit .ING_LANE_STATUS_MINOR lane 1 = true →
       exec (.statusReceived lane arg) s =
         .next ((((s.set .ING_LANE_HEAD_TEMP lane (arg.getD 0 0)).set .ING_LANE_HEAD_FILL lane (arg.getD 1 0)).set
           .ING_LANE_HEAD_FAULT lane (arg.getD 2 0 % 2)).set .ING_LANE_HEAD_VALID lane 1)) ∧
     (s.get .ING_LANE_STATUS_USMAS_STATE lane ≠ 2 ∨ s.bit .ING_LANE_STATUS_MINOR lane 1 = false → exec (.statusReceived lane arg) s = .next s)) ∧
  (∀ lane code arg (s : State), (code ≠ 0x53 → ¬(code = 0x48 ∧ arg.getD 4 0 = 0) → ¬(code = 0x41 ∧ arg.getD 3 0 = 0 ∧ arg.getD 4 0 = 0) →
     exec (.usmasSymbolBad lane code arg) s = .next (s.inc .ING_LANE_CNT_SEGERR lane)) ∧
     (code = 0x53 ∨ (code = 0x48 ∧ arg.getD 4 0 = 0) ∨ (code = 0x41 ∧ arg.getD 3 0 = 0 ∧ arg.getD 4 0 = 0) →
       exec (.usmasSymbolBad lane code arg) s = .next s)) ∧
  (∀ lane (s : State), s.get .LANE_STATUS_STATE lane = 5 → s.get .LANE_ID_ROLE lane = 1 → ∃ mask, exec (.helloSend lane) s =
     .next (s.emit (.usmas lane 0x48 [1, 3, 3, mask, 0]))) ∧
  (∀ lane (s : State), (s.on .ING_QUEUE_CTRL_PAUSE_EN lane = true → s.get .LANE_STATUS_STATE lane = 5 → exec (.pauseRepeat lane) s =
       .next ((s.set .ING_LANE_STATUS_PAUSED lane (s.get .ING_QUEUE_LEVEL_ABOVE lane)).emit
         (.usmas lane 0x50 [s.get .ING_QUEUE_LEVEL_ABOVE lane, 0, 0, 0, 0]))) ∧
     (s.on .ING_QUEUE_CTRL_PAUSE_EN lane = false ∨ s.get .LANE_STATUS_STATE lane ≠ 5 → exec (.pauseRepeat lane) s = .next s))

/-- Flush, pointer, timeout, counter, watermark and apply commands of camera ingress complete. -/
def Obligations.IngressQueueCommandsComplete : Prop :=
  (∀ lane (s : State), (s.on .ING_QUEUE_LEVEL_FLUSHING lane = true → Completes (.flushLimit lane) s fun t =>
       t.get .ING_QUEUE_LEVEL_FLUSHING lane = 0) ∧
     (s.on .ING_QUEUE_LEVEL_FLUSHING lane = false → exec (.flushLimit lane) s = .next s)) ∧
  (∀ lane src (s : State), s.gate src .operator 8 = .ok → s.on .ING_QUEUE_LEVEL_FLUSHING lane = false →
     (s.packet lane = none → Answers (.queueFlush lane src) s src 0 .ok fun u => u.get .ING_QUEUE_LEVEL_FLUSHING lane = 0) ∧
     (s.packet lane ≠ none → exec (.queueFlush lane src) s =
       .next (((s.set .ING_QUEUE_LEVEL_FLUSHING lane 1).set .ING_H_FLUSH_BYTES lane 0).answer src 0 .ok))) ∧
  (∀ lane (s : State), Completes (.pointerMismatch lane) s fun t => t.get .ING_H_WPTR_A lane = 0 ∧ t.get .ING_H_WPTR_B lane = 0 ∧
     t.get .ING_H_RPTR_A lane = 0 ∧ t.get .ING_H_RPTR_B lane = 0) ∧
  (∀ c (s : State), (s.get .ING_CH_H_TIMEOUT c ≠ 0 → s.packet (c / 4) = none → c < 128 → s.openFrame c ≠ none →
       Completes (.frameTimeout c) s fun t => t.get .ING_CH_STATUS_OPEN c = 0 ∧
         t.get .ING_CH_CNT_FRAMES c = min (s.get .ING_CH_CNT_FRAMES c + 1) (2 ^ 32 - 1)) ∧
     (s.get .ING_CH_H_TIMEOUT c = 0 → exec (.frameTimeout c) s = .next s)) ∧
  (∀ lane src (s : State), s.gate src .operator 8 = .ok → Answers (.ingClrCnt lane src) s src 0 .ok fun u =>
     (∀ f ∈ [Fld.ING_QUEUE_CROSS_COUNT, .ING_QUEUE_CROSS_RESETS, .ING_LANE_CNT_SEGERR, .ING_LANE_CNT_SEGLOST,
       .ING_LANE_CNT_ECC_CORR, .ING_LANE_CNT_ECC_UNCORR, .ING_LANE_CNT_DISCARD, .ING_LANE_CNT_OVF], u.get f lane = 0) ∧
     ∀ v ∈ [0, 1, 2, 3], ∀ f ∈ [Fld.ING_CH_CNT_FRAMES, .ING_CH_CNT_CRC, .ING_CH_CNT_BAD, .ING_CH_CNT_FNGAP],
       u.get f (4 * lane + v) = 0) ∧
  (∀ lane v src (s : State), s.gate src .installer 8 = .ok → s.get .ING_QUEUE_LWM lane < v → v ≤ 64512 →
     Recorded (.queueWmWrite lane true v src) s src 0 (s.auditRec src 1 1 (Fld.ING_QUEUE_HWM.id / 32 + 0x100 * lane)
       (valueDigest (s.get .ING_QUEUE_HWM lane)) (valueDigest v)) fun t => t.get .ING_QUEUE_HWM lane = v) ∧
  (∀ lane v src (s : State), s.gate src .installer 8 = .ok → v < s.get .ING_QUEUE_HWM lane → s.get .ING_QUEUE_HWM lane ≤ 64512 →
     Recorded (.queueWmWrite lane false v src) s src 0 (s.auditRec src 1 1 (Fld.ING_QUEUE_LWM.id / 32 + 0x100 * lane)
       (valueDigest (s.get .ING_QUEUE_LWM lane)) (valueDigest v)) fun t => t.get .ING_QUEUE_LWM lane = v) ∧
  (∀ c src (s : State), s.gate src .operator 8 = .ok → s.applyBad c = false →
     Recorded (.chApply c src) s src 0 (s.auditRec src 2 1 (0x144000 + 0x40 * c) noValue noValue) fun t =>
       t = (s.set .ING_CH_STATUS_SHADOW_PENDING c 1).emit (.status src 0 .ok))

/-- Encoder, timebase, PTP and mark commands complete with the values the rules give. -/
def Obligations.EncoderAndTimeCommandsComplete : Prop :=
  (∀ n a b held (s : State), (held ≤ s.get .SYN_ENC_CFG_FILTER n → exec (.encoderCount n (a, b) held) s = .next s) ∧
     (s.get .SYN_ENC_CFG_FILTER n < held → s.get .SYN_ENC_CFG_MODE n = 3 ∨ (s.on .SYN_ENC_H_A n = a ∨ s.on .SYN_ENC_H_B n = b) →
     exec (.encoderCount n (a, b) held) s = .next (((s.set .SYN_ENC_H_A n (if a then 1 else 0)).set .SYN_ENC_H_B n (if b then 1 else 0)).set
       .SYN_ENC_POS n (ofSigned 48 ((s.get .SYN_ENC_POS n : Int) +
         (if s.on .SYN_ENC_CFG_REVERSE n then -1 else 1) *
           encoderStep (s.get .SYN_ENC_CFG_MODE n) (s.on .SYN_ENC_H_A n) (s.on .SYN_ENC_H_B n) a b))))) ∧
  (∀ n a b held (s : State), s.get .SYN_ENC_CFG_FILTER n < held → s.get .SYN_ENC_CFG_MODE n < 3 → s.on .SYN_ENC_H_A n ≠ a → s.on .SYN_ENC_H_B n ≠ b →
     Completes (.encoderCount n (a, b) held) s fun t => t.get .SYN_ENC_POS n = s.get .SYN_ENC_POS n ∧
       t.get .SYN_ENC_CNT_ERR n = min (s.get .SYN_ENC_CNT_ERR n + 1) (2 ^ Fld.SYN_ENC_CNT_ERR.width - 1)) ∧
  (∀ n held (s : State), (s.get .SYN_ENC_CFG_FILTER n < held →
       exec (.encoderZ ⟨n, held⟩) s = .next (s.set .SYN_ENC_ZPOS n (s.get .SYN_ENC_POS n))) ∧
     (held ≤ s.get .SYN_ENC_CFG_FILTER n → exec (.encoderZ ⟨n, held⟩) s = .next s)) ∧
  (∀ n v src (s : State), s.gate src .installer 9 = .ok →
     (s.encoderUsed n = false → Recorded (.encPreset n v src) s src 0 (s.auditRec src 1 1 (0x180010 + 0x40 * n)
       (valueDigest (s.get .SYN_ENC_POS n)) (valueDigest v)) fun t =>
         t = ((s.set .SYN_ENC_PRESET n v).set .SYN_ENC_POS n v).emit (.status src 0 .ok)) ∧
     (s.encoderUsed n = true → exec (.encPreset n v src) s = .next (s.answer src 0 .state))) ∧
  (∀ (s : State), Completes .speedSample s fun t => ∀ n < 4, t.get .SYN_ENC_STATUS_SPEED n =
       ofSigned 24 (toSigned 48 (s.get .SYN_ENC_POS n + 2 ^ 48 - s.get .SYN_ENC_H_MSPOS n)) ∧
     t.get .SYN_ENC_H_MSPOS n = s.get .SYN_ENC_POS n % 2 ^ 48) ∧
  (∀ v src (s : State), (s.gate src .operator 9 = .ok → s.get .SYN_TB_CTRL_SRC ≠ 2 → exec (.tbSlew v src) s =
       .next (((s.set .SYN_TB_SLEW 0 v).set .SYN_TB_H_SLEWFRAC 0 0).answer src 0 .ok)) ∧
     (s.get .SYN_TB_SLEW = 0 → exec .slewDone s = .next (s.set .SYN_TB_H_SLEWFRAC 0 0)) ∧
     (s.get .SYN_TB_SLEW ≠ 0 → exec .slewDone s = .next s)) ∧
  (∀ v src (s : State), s.gate src .operator 9 = .ok →
     (s.get .SYN_TB_CTRL_SRC ≠ 2 → 0 ≤ (s.now : Int) + toSigned 64 v → (s.now : Int) + toSigned 64 v ≤ 2 ^ 64 - 1 →
       (0 ≤ toSigned 64 v ∨ (List.range 128).any (fun c => s.genOn c) = false) → exec (.tbStep v src) s =
         .next (((s.set .SYN_TB_TIME 0 ((s.now : Int) + toSigned 64 v).toNat).set .PWR_H_STEPPED 0 1).answer src 0 .ok)) ∧
     (s.get .SYN_TB_CTRL_SRC = 2 → exec (.tbStep v src) s = .next (s.answer src 0 .state)) ∧
     (s.get .SYN_TB_CTRL_SRC ≠ 2 → (s.now : Int) + toSigned 64 v < 0 ∨ 2 ^ 64 - 1 < (s.now : Int) + toSigned 64 v →
       exec (.tbStep v src) s = .next (s.answer src 0 .range)) ∧
     (s.get .SYN_TB_CTRL_SRC ≠ 2 → 0 ≤ (s.now : Int) + toSigned 64 v → toSigned 64 v < 0 → s.now < 2 ^ 64 →
       (List.range 128).any (fun c => s.genOn c) = true → exec (.tbStep v src) s = .next (s.answer src 0 .state))) ∧
  (∀ tr dom ty seq st (s : State), (ty < 4 → s.on .SYN_PTP_CFG_EN = true → s.get .SYN_PTP_CFG_TRANSPORT = tr → s.get .SYN_PTP_CFG_DOMAIN = dom →
       exec (.ptpRxStamp tr dom ty seq st) s = .next (s.emit (.ptpRx ty seq st))) ∧
     (4 ≤ ty ∨ s.on .SYN_PTP_CFG_EN = false ∨ s.get .SYN_PTP_CFG_TRANSPORT ≠ tr ∨ s.get .SYN_PTP_CFG_DOMAIN ≠ dom →
       exec (.ptpRxStamp tr dom ty seq st) s = .next s)) ∧
  (∀ src (s : State), s.gate src .operator 9 = .ok → exec (.ptpTxtsPop src) s =
     .next (({ s with syn := { s.syn with stamps := s.syn.stamps.drop 1 } } : State).answer src 0 .ok)) ∧
  (∀ m rising t (s : State), (t ≤ s.get .SYN_MARK_CFG_FILTER (m % 4) ∨ s.markOn (m % 4) = false ∨ s.edgeTaken (m % 4) rising = false ∨ s.get .PWR_H_STATE = 1 ∨ s.get .PWR_H_STATE = 2 ∨ s.get .BOOT_STATUS_STATE = 2) →
     exec (.markEdge m rising t) s = .next s) ∧
  (∀ m rising t (s : State), s.get .SYN_MARK_CFG_FILTER (m % 4) < t → s.markOn (m % 4) = true → s.edgeTaken (m % 4) rising = true → s.get .PWR_H_STATE ≠ 1 → s.get .PWR_H_STATE ≠ 2 →
     s.get .BOOT_STATUS_STATE ≠ 2 → s.lockedOut (m % 4) = true → Completes (.markEdge m rising t) s fun u =>
       u.get .SYN_MARK_CNT_LOCKOUT_LOCKOUT (m % 4) = 1 ∧
       u.get .SYN_MARK_CNT_LOCKOUT_CNT (m % 4) = min (s.get .SYN_MARK_CNT_LOCKOUT_CNT (m % 4) + 1) (2 ^ Fld.SYN_MARK_CNT_LOCKOUT_CNT.width - 1) ∧ u.get .SYN_MARK_SEQ (m % 4) = s.get .SYN_MARK_SEQ (m % 4) ∧
       u.get .SYN_MARK_POS (m % 4) = s.get .SYN_MARK_POS (m % 4)) ∧
  (∀ m rising t (s : State), s.get .SYN_MARK_CFG_FILTER (m % 4) < t → s.markOn (m % 4) = true → s.edgeTaken (m % 4) rising = true → s.get .PWR_H_STATE ≠ 1 → s.get .PWR_H_STATE ≠ 2 →
     s.get .BOOT_STATUS_STATE ≠ 2 → s.lockedOut (m % 4) = false →
     Completes (.markEdge m rising t) s fun u => u = s.markAccept (m % 4) (s.ballTime (m % 4)) ∧
       (s.switchEdge (m % 4) (s.ballTime (m % 4)) = false → u.get .SYN_MARK_SEQ (m % 4) = (s.get .SYN_MARK_SEQ (m % 4) + 1) % 2 ^ Fld.SYN_MARK_SEQ.width ∧
       u.get .SYN_MARK_POS (m % 4) = s.get .SYN_ENC_POS (s.get .SYN_MARK_CFG_ENC (m % 4)) % 2 ^ 48 ∧
       u.get .SYN_MARK_TIME (m % 4) = s.ballTime (m % 4) % 2 ^ 64))

/-- Trigger generator commands complete: fires, pulses, pitch, enable and disable. -/
def Obligations.TriggerCommandsComplete : Prop :=
  (∀ c (s : State), s.fireDue c = false → exec (.triggerFire c) s = .next s) ∧
  (∀ c (s : State), s.fireDue c = true → Completes (.triggerFire c) s fun t =>
     t.get .SYN_CH_STATUS_TRIG_SEQ c = (s.get .SYN_CH_STATUS_TRIG_SEQ c + 1) % 65536) ∧
  (∀ c (s : State), s.fireDue c = true → s.get .SYN_CH_TRIG_CFG_DEST c ≠ 1 → s.get .ING_LANE_STATUS_USMAS_STATE (c / 4) ≠ 2 →
     Completes (.triggerFire c) s fun t => t.get .SYN_CH_CNT_NOTSENT_NOT_RUN c =
       min (s.get .SYN_CH_CNT_NOTSENT_NOT_RUN c + 1) (2 ^ Fld.SYN_CH_CNT_NOTSENT_NOT_RUN.width - 1)) ∧
  (∀ c (s : State), s.fireDue c = true → s.get .SYN_CH_TRIG_CFG_DEST c = 0 → s.get .ING_LANE_STATUS_USMAS_STATE (c / 4) = 2 →
     s.on .SYN_CH_TRIG_CFG_INHIBIT c = false → s.firesOf c = [] → s.now < 2 ^ 63 →
     Completes (.triggerFire c) s fun t => (∃ arg, (.usmas (c / 4) 0x54 arg) ∈ t.out) ∧
       (departureBounds (s.get .LANE_STATUS_RUNG (c / 4))).1 ≤ t.get .SYN_CH_LAST_DEP c - s.now ∧
       t.get .SYN_CH_LAST_DEP c - s.now < (departureBounds (s.get .LANE_STATUS_RUNG (c / 4))).1 +
         (departureBounds (s.get .LANE_STATUS_RUNG (c / 4))).2 ∧ (t.firesOf c).length = 1) ∧
  (∀ p (s : State), (s.on .SYN_H_PULSE p = true → s.get .SYN_H_PEND p ≤ s.get .SYN_H_CLK →
       exec (.trigPulseEnd p) s = .next ((s.set .SYN_H_PULSE p 0).emit (.pin "TRIG_OUT" p 0))) ∧
     (s.on .SYN_H_PULSE p = false ∨ s.get .SYN_H_CLK < s.get .SYN_H_PEND p → exec (.trigPulseEnd p) s = .next s)) ∧
  (∀ c v src (s : State), s.gate src .operator 9 = .ok →
     (s.pitchAllowed c v = true → Answers (.pitchCommit c v src) s src 0 .ok fun u =>
       u.get .SYN_CH_PITCH_INT c = v % 2 ^ 32 ∧ u.get .SYN_CH_H_HASPITCH c = 1 ∧
       u.get .SYN_CH_H_PITCH c = v % 2 ^ 32 * 65536 + s.get .SYN_CH_PITCH_FRAC c % 65536 ∨ 65536 ≤ s.get .SYN_CH_PITCH_FRAC c) ∧
     (s.pitchAllowed c v = false → exec (.pitchCommit c v src) s = .next (s.answer src 0 .range))) ∧
  (∀ c src (s : State), s.gate src .operator 9 = .ok →
     (Answers (.trigEnable c src) s src 0 .ok fun u => u.get .SYN_CH_TRIG_CFG_EN c = 1 ∧
       (s.on .SYN_CH_TRIG_CFG_EN c = false → s.on .SYN_CH_TRIG_CFG_ARM c = false → s.on .SYN_CH_H_HASPITCH c = true →
         u.get .SYN_CH_STATUS_ARMED c = 1)) ∧
     exec (.trigDisable c src) s =
       .next (((s.set .SYN_CH_TRIG_CFG_EN c 0).set .SYN_CH_STATUS_ARMED c 0).answer src 0 .ok))

/-- Stripe dispatch, completion, frame mode and line release complete with what the rules give. -/
def Obligations.StripeCommandsComplete : Prop :=
  (∀ p (s : State), (s.noteEligible.takesWork p = false ∨ s.noteEligible.choose p = none → exec (.stripeDispatch p) s = .next s.noteEligible) ∧
     ∀ a b r, s.noteEligible.takesWork p = true → s.noteEligible.choose p = some (a, b, r) →
     (∀ q, s.noteEligible.get .PIPE_H_STATE p = 0 → s.noteEligible.pickPipe r = some q → s.noteEligible.frame? r.ch r.seq ≠ none →
       Completes (.stripeDispatch p) s fun t => t = s.noteEligible.startStripe q r ∧ t.get .PIPE_H_STATE q = 1 ∧ t.get .PIPE_STATUS_CTX q = r.ch % 256 ∧
         t.get .PIPE_STATUS_STRIPE q = r.k % 256 ∧ t.get .PIPE_STATUS_BANK q = r.bank % 2 ∧ tabGet t.pipe.running q r = r) ∧
     (s.noteEligible.get .PIPE_H_STATE p ≠ 0 → (s.noteEligible.pipe.next.any fun q => q.1 == p) = false →
       Completes (.stripeDispatch p) s fun t => (∀ d, tabGet t.pipe.next p d = r) ∧
         ∀ d, tabGet t.pipe.slot (2 * p + (1 - s.get .PIPE_H_SLOT p)) d = (r.ch, r.bank)) ∧
     (s.noteEligible.get .PIPE_H_STATE p ≠ 0 → (s.noteEligible.pipe.next.any fun q => q.1 == p) = true →
       exec (.stripeDispatch p) s = .next s.noteEligible)) ∧
  (∀ p r (s : State), (s.pipe.running.find? (fun q => q.1 == p) = some (p, r) →
       (s.frame? r.ch r.seq ≠ none → Completes (.stripeComplete p) s fun t =>
         t.get .PIPE_CNT_STRIPES p = min (s.get .PIPE_CNT_STRIPES p + 1) (2 ^ 32 - 1)) ∧
       (s.frame? r.ch r.seq = none → exec (.stripeComplete p) s = .next (s.pipeAdvance p))) ∧
     (s.pipe.running.find? (fun q => q.1 == p) = none → exec (.stripeComplete p) s = .next s)) ∧
  (∀ p y r f (s : State), s.pipe.running.find? (fun q => q.1 == p) = some (p, r) → s.frame? r.ch r.seq = some f →
     (s.stripeFrees f r.bank r.k).contains y = true → r.ch < 128 → Completes (.inputLineRelease (.pipe p) y) s fun t =>
       ∀ g ∈ t.frames, g.ch = r.ch → g.tag.seq = r.seq → ∀ l ∈ g.lines, l.no = y → l.exp + 1 = g.exps → l.home ≠ .queue) ∧
  (∀ lane y c f (s : State), s.pipe.copies.find? (fun q => q.1 == lane) = some (lane, c) → s.frame? c.stripe.ch c.stripe.seq = some f →
     (s.stripeFrees f c.stripe.bank c.stripe.k).contains y = true → c.stripe.ch < 128 →
     exec (.inputLineRelease (.copy lane) y) s = .next ((s.copyLine c.stripe c.spill y).relevel (c.stripe.ch / 4))) ∧
  (∀ n y (s : State), (s.pipe.running.find? (fun q => q.1 == n) = none → exec (.inputLineRelease (.pipe n) y) s = .next s) ∧
     (s.pipe.copies.find? (fun q => q.1 == n) = none → exec (.inputLineRelease (.copy n) y) s = .next s) ∧
     ∀ st, (s.frame? st.ch st.seq = none ∨ (∀ f, s.frame? st.ch st.seq = some f → (s.stripeFrees f st.bank st.k).contains y = false ∨ 128 ≤ st.ch)) →
       (s.pipe.running.find? (fun q => q.1 == n) = some (n, st) → exec (.inputLineRelease (.pipe n) y) s = .next s) ∧
       ∀ c, s.pipe.copies.find? (fun q => q.1 == n) = some (n, c) → c.stripe = st → exec (.inputLineRelease (.copy n) y) s = .next s) ∧
  (∀ c e y g (s : State), (s.frames.find? (fun f => f.ch == c && f.work.bank.isSome && !f.work.classic && decide (e + 1 < f.exps) &&
         f.lines.any fun l => l.exp == e && l.no == y && l.home == .queue) = some g →
       Completes (.exposureLineStored c e y) s fun t => ∀ f ∈ t.frames, f.ch = c → f.tag.seq = g.tag.seq →
         ∀ l ∈ f.lines, l.exp = e → l.no = y → l.home = .store) ∧
     (s.frames.find? (fun f => f.ch == c && f.work.bank.isSome && !f.work.classic && decide (e + 1 < f.exps) &&
         f.lines.any fun l => l.exp == e && l.no == y && l.home == .queue) = none → exec (.exposureLineStored c e y) s = .next s)) ∧
  (∀ lane a b r (s : State),
     (s.noteEligible.get .ING_QUEUE_LEVEL_LEVEL lane < s.noteEligible.get .PIPE_SCH_CFG_HOLD_WM ∨
         (s.noteEligible.pipe.copies.any fun c => c.1 == lane) = true ∨ firstStripe (s.noteEligible.holdable lane) = none →
       exec (.holdCopy lane) s = .next s.noteEligible) ∧
     (s.noteEligible.get .PIPE_SCH_CFG_HOLD_WM ≤ s.noteEligible.get .ING_QUEUE_LEVEL_LEVEL lane →
       (s.noteEligible.pipe.copies.any fun c => c.1 == lane) = false → firstStripe (s.noteEligible.holdable lane) = some (a, b, r) →
       (s.noteEligible.storeBytesUsed false + s.noteEligible.stripeBytes r ≤ 12 * 2 ^ 20 →
         Completes (.holdCopy lane) s fun t => (∀ d, tabGet t.pipe.copies lane d = ⟨r, false, s.elapsed⟩) ∧
           t.get .PIPE_CNT_HELD = min (s.get .PIPE_CNT_HELD + 1) (2 ^ 32 - 1)) ∧
       (12 * 2 ^ 20 < s.noteEligible.storeBytesUsed false + s.noteEligible.stripeBytes r →
         let roomy := s.noteEligible.bankSpill r.ch r.bank && decide (s.noteEligible.storeBytesUsed true + s.noteEligible.stripeBytes r ≤
           s.noteEligible.get .PIPE_SPILL_SIZE_SIZE_MIB * 2 ^ 20)
         (roomy = true → exec (.holdCopy lane) s =
           .next ((((s.noteEligible.beginCopy lane r true).inc .PIPE_CNT_SPILL).schEvent 0 r.seq r.ch r.k).delayFrame r)) ∧
         (roomy = false → s.noteEligible.victim lane = none → exec (.holdCopy lane) s = .next s.noteEligible) ∧
         (∀ f, roomy = false → s.noteEligible.victim lane = some f → exec (.holdCopy lane) s =
           .next ((((s.noteEligible.inc .PIPE_CNT_REFUSED).schEvent 2 f.tag.seq f.ch 0).refuseFrame f 1 (s.noteEligible.frameStreams f)).relevel lane))))) ∧
  (∀ lane c (s : State), (s.pipe.copies.find? (fun c => c.1 == lane && c.2.spill == false) = some (lane, c) →
       Completes (.holdCopyDone lane) s fun t => t.pipe.copies = tabErase s.pipe.copies lane ∧
         t = ({ s with pipe := { s.pipe with copies := tabErase s.pipe.copies lane } } : State).moveLines c.stripe 65536 false) ∧
     (s.pipe.copies.find? (fun c => c.1 == lane && c.2.spill == true) = some (lane, c) →
       Completes (.spillCopyDone lane) s fun t => t.pipe.copies = tabErase s.pipe.copies lane ∧
         t = ({ s with pipe := { s.pipe with copies := tabErase s.pipe.copies lane } } : State).moveLines c.stripe 65536 true) ∧
     (s.pipe.copies.find? (fun c => c.1 == lane && c.2.spill == false) = none → exec (.holdCopyDone lane) s = .next s) ∧
     (s.pipe.copies.find? (fun c => c.1 == lane && c.2.spill == true) = none → exec (.spillCopyDone lane) s = .next s))

/-- Frame-mode lines and the context store: what they leave when they complete. -/
def Obligations.FrameModeAndContextCommandsComplete : Prop :=
  (∀ p (s : State), (s.holder p = none → exec (.frameModeLine p) s = .next s) ∧ ∀ x, s.holder p = some x →
     (s.heldFrame p x = none → exec (.frameModeLine p) s = .next s) ∧ ∀ f, s.heldFrame p x = some f →
     (s.windowReady x f = false ∨ s.get .PIPE_H_STATE p ≠ 0 → exec (.frameModeLine p) s = .next s) ∧
     (s.windowReady x f = true → s.get .PIPE_H_STATE p = 0 → Completes (.frameModeLine p) s fun t => ∃ g u,
       u = s.frameModeIn p x f ∧ g = (u.frame? x f.tag.seq).getD f ∧
       t.get .PIPE_H_BUSY p = (s.get .PIPE_H_BUSY p + g.exps * ceilDiv g.width 16) % 1024)) ∧
  ((∀ addr data src s, s.gate src .installer 99 = .ok → addr < 0x10000000 ∨ 0x20000000 < addr + data.length ∨
       0x8000 < (addr - 0x10000000) % 0x8000 + data.length → exec (.ctxWindowWrite addr data src) s = .next (s.answer src 0 .range)) ∧
   ∀ addr data src s, s.gate src .installer 99 = .ok → 0x10000000 ≤ addr → addr + data.length ≤ 0x20000000 →
     addr % 0x8000 + data.length ≤ 0x8000 → 
     ((addr - 0x10000000) / 0x10000 < 132 →
       (s.bankState ((addr - 0x10000000) / 0x10000) ((addr - 0x10000000) / 0x8000 % 2) = 0 →
         exec (.ctxWindowWrite addr data src) s = .next ((s.putBytes addr data).answer src 0 .ok)) ∧
       (s.bankState ((addr - 0x10000000) / 0x10000) ((addr - 0x10000000) / 0x8000 % 2) ≠ 0 →
         exec (.ctxWindowWrite addr data src) s = .next (s.answer src 0 .state))) ∧
     (132 ≤ (addr - 0x10000000) / 0x10000 → exec (.ctxWindowWrite addr data src) s = .next (s.answer src 0 .ok))) ∧
  (∀ x mode ing src (s : State), s.mayAs src .installer = true → s.ctxGoCheck x ing = .ok → Recorded (.ctxGo x mode ing src) s src 0
       (s.auditRec src 2 2 (bankBase x (s.commitBank x)) (digest16 (s.bankBytes x (1 - s.commitBank x))) (digest16 (s.bankBytes x (s.commitBank x))))
       fun t => t.bankState x (s.commitBank x) = 1 ∧ t.get .PIPE_H_MODE (2 * x + s.commitBank x) = mode % 2 ∧
         (ing = true → t.get .ING_CH_STATUS_SHADOW_PENDING x = 1)) ∧
  (∀ x src (s : State), s.mayAs src .installer = true → s.ctxCancelCheck x = .ok → Recorded (.ctxCancel x src) s src 0
       (s.auditRec src 1 2 (bankBase x (s.commitBank x)) noValue noValue) fun t => t.bankState x (s.commitBank x) = 0)

/-- Fences, resets, rolling tests and replays of the pipes: what they leave when they complete. -/
def Obligations.PipeControlAndReplayCommandsComplete : Prop :=
  (∀ (s : State), ((s.get .PIPE_ROLL_STATUS_STATE ≠ 1 ∨ s.get .PIPE_H_STATE (s.get .PIPE_ROLL_STATUS_PIPE) ≠ 0 ∨
       (s.pipe.next.any fun q => q.1 == s.get .PIPE_ROLL_STATUS_PIPE) = true) → exec .rollWithdrawn s = .next s) ∧ (s.get .PIPE_ROLL_STATUS_STATE = 1 → s.get .PIPE_H_STATE (s.get .PIPE_ROLL_STATUS_PIPE) = 0 →
     (s.pipe.next.any fun q => q.1 == s.get .PIPE_ROLL_STATUS_PIPE) = false → Completes .rollWithdrawn s fun t =>
       t.get .PIPE_ROLL_STATUS_STATE = 2 ∧ t.get .PIPE_H_STATE (s.get .PIPE_ROLL_STATUS_PIPE) = 3)) ∧
  (∀ q (s : State), ((s.get .PIPE_ROLL_STATUS_STATE ≠ 3 ∨ s.on .PIPE_ROLL_CTRL_AUTO = false ∨ s.elapsed < s.get .BIST_H_ROLLT0 + s.rollGap ∨
       (((List.range 8).map fun i => (s.get .PIPE_ROLL_STATUS_PIPE + 1 + i) % 8).find? s.rollable) = none) → exec .rollInterval s = .next s) ∧ ( s.get .PIPE_ROLL_STATUS_STATE = 3 → s.on .PIPE_ROLL_CTRL_AUTO = true → s.get .BIST_H_ROLLT0 + s.rollGap ≤ s.elapsed →
     (((List.range 8).map fun i => (s.get .PIPE_ROLL_STATUS_PIPE + 1 + i) % 8).find? s.rollable) = some q →
     Completes .rollInterval s fun t => t.get .PIPE_ROLL_STATUS_STATE = 1 ∧ t.get .PIPE_ROLL_STATUS_PIPE = q)) ∧
  (∀ p src (s : State), s.gate src .installer p = .ok →
     (s.holder p = none → Recorded (.pipeFence p src) s src 0 (s.pipeCtrlRec p src 1) fun t => t.get .PIPE_CTRL_FENCE p = 1) ∧
     Recorded (.pipeUnfence p src) s src 0 (s.pipeCtrlRec p src 0) fun t =>
       t.get .PIPE_CTRL_FENCE p = 0 ∧ (s.get .PIPE_H_STATE p = 2 → t.get .PIPE_H_STATE p = 0)) ∧
  (∀ p (s : State), ((s.on .PIPE_CTRL_FENCE p = false ∨ s.get .PIPE_H_STATE p ≠ 0 ∨ (s.pipe.next.any fun q => q.1 == p) = true) →
       exec (.pipeFenceDone p) s = .next s) ∧ (s.on .PIPE_CTRL_FENCE p = true → s.get .PIPE_H_STATE p = 0 → (s.pipe.next.any fun q => q.1 == p) = false →
     Completes (.pipeFenceDone p) s fun t => t.get .PIPE_H_STATE p = 2 ∧ t.bit .PIPE_EVENTS_EV p 1 = true)) ∧
  (∀ p src (s : State), (s.gate src .installer p = .ok → Recorded (.pipeReset p src) s src 0 (s.pipeCtrlRec p src 2) fun t =>
       t.get .PIPE_H_STATE p = 4) ∧
     (s.gate src .operator p = .ok → exec (.pipeClrCnt p src) s = .next ((s.pipeClrCnt p).answer src 0 .ok) ∧
       (s.pipeClrCnt p).get .PIPE_CNT_STRIPES p = 0 ∧ (s.pipeClrCnt p).get .PIPE_CNT_LOST p = 0)) ∧
  (∀ k src (s : State), s.gate src .operator 8 = .ok → (s.playStartCheck k = .ok →
       exec (.playStart k src) s = .next ((s.playBegin k).answer src 0 .ok) ∧
       (s.playBegin k).get .ING_PLAY_STATUS_STATE k = 1 ∧ (s.playBegin k).get .ING_PLAY_STATUS_FRAMES_DONE k = 0 ∧
       (s.playBegin k).get .ING_CH_H_SEQ (128 + k) = 0) ∧
     exec (.playStop k src) s = .next ((s.playHalt k).answer src 0 .ok) ∧
       (s.get .ING_PLAY_STATUS_STATE k = 0 → s.playHalt k = s) ∧
       (s.playBusy k = true → s.get .ING_PLAY_STATUS_STATE k ≠ 0 → (s.playHalt k).get .ING_PLAY_STATUS_STATE k = 2) ∧
       (s.playBusy k = false → s.get .ING_PLAY_STATUS_STATE k ≠ 0 → (s.playHalt k).get .ING_PLAY_STATUS_STATE k = 0)) ∧
  (∀ k (s : State), (s.get .ING_PLAY_STATUS_STATE k = 0 ∨ s.playBusy k = true → exec (.playRecordRead k) s = .next s) ∧
     (s.get .ING_PLAY_STATUS_STATE k ≠ 0 → s.playBusy k = false → ∀ a u r, a = s.recAddr k (s.get .ING_PLAY_H_INDEX k) → s.dramRead a 64 = (u, r) →
     (inDram a 64 = true → r.isSome = true → s.recOk a = true → Completes (.playRecordRead k) s fun t =>
       t.get .ING_PLAY_H_REC k = a % 2 ^ Fld.ING_PLAY_H_REC.width ∧ t.get .ING_PLAY_H_FN k = u.recField a 38 2 % 2 ^ Fld.ING_PLAY_H_FN.width ∧
         t.get .ING_CH_H_SEQ (128 + k) = (s.get .ING_CH_H_SEQ (128 + k) + 1) % 2 ^ Fld.ING_CH_H_SEQ.width) ∧
     (inDram a 64 = false → exec (.playRecordRead k) s = .next (s.playSkip k)) ∧
     (inDram a 64 = true → r.isNone = true ∨ s.recOk a = false → exec (.playRecordRead k) s = .next (u.playSkip k)))) ∧
  (∀ k n (s : State), Completes (.playPace k n) s fun t => ∀ f ∈ s.frames, f.ch = 128 + k → f.closed = false →
     ∃ g ∈ t.frames, g.ch = f.ch ∧ g.tag = f.tag ∧ g.work.paced = max f.work.paced (min n f.height))

/-- Register writes, pair reads and sticky clears: what they do when their checks pass. -/
def Obligations.RegisterCommandsComplete : Prop :=
  (∀ a v src s c w, ((c = .registerWrite a v src ∧ w = v % 2 ^ 32) ∨ (c = .hiWriteApply a v src ∧ w = v % 2 ^ 32) ∨
       (c = .stickyClear a v src ∧ w = s.rwBits a + (v % 2 ^ 32 &&& stickyBits a))) →
     (s.regWriteCheck a w src ≠ .ok → ¬(a = 0x30000 ∧ w.testBit 16 = true) → exec c s = .next (s.answer src (regCode a) (s.regWriteCheck a w src))) ∧
     (s.regWriteCheck a w src ≠ .ok → a = 0x30000 → w.testBit 16 = true → exec c s =
       .next ((s.set .BIST_STATUS_LAST 0 (statusCode (s.regWriteCheck a w src))).answer src (regCode a) (s.regWriteCheck a w src))) ∧
     (s.regWriteCheck a w src = .ok → 0x310000 ≤ a → a < 0x330000 →
       exec c s = .next ((s.layStore a (leBytes 4 w) src).1.answer src (regCode a) (s.layStore a (leBytes 4 w) src).2)) ∧
     (s.regWriteCheck a w src = .ok → 0x350000 ≤ a → a < 0x358000 →
       exec c s = .next ((s.cmpStore a (leBytes 4 w) src).1.answer src (regCode a) (s.cmpStore a (leBytes 4 w) src).2))) ∧
  (∀ a v src s c w, ((c = .registerWrite a v src ∧ w = v % 2 ^ 32) ∨ (c = .hiWriteApply a v src ∧ w = v % 2 ^ 32) ∨
       (c = .stickyClear a v src ∧ w = s.rwBits a + (v % 2 ^ 32 &&& stickyBits a))) →
     s.regWriteCheck a w src = .ok → ¬(0x310000 ≤ a ∧ a < 0x330000) → ¬(0x350000 ≤ a ∧ a < 0x358000) → loStages a = false →
     ¬(0x440000 ≤ a ∧ a < 0x440100 ∧ a % 0x10 = 0) →
     (s.regRecorded a w src = false → exec c s = .next (s.completed src (regCode a) (effRegisterWrite a w src))) ∧
     (s.regRecorded a w src = true → exec c s =
       .next (s.recorded src (regCode a) (.registerWrite a w src) (s.regRec a w src) (effRegisterWrite a w src)))) ∧
  (∀ a v src (s : State), s.regWriteCheck a (v % 2 ^ 32) src = .ok → ¬(0x310000 ≤ a ∧ a < 0x330000) → ¬(0x350000 ≤ a ∧ a < 0x358000) → loStages a = false →
     ¬(0x440000 ≤ a ∧ a < 0x440100 ∧ a % 0x10 = 0) → s.regRecorded a (v % 2 ^ 32) src = true →
     (s.roleOf src ≠ .device → s.auditClosed = false → exec (.registerWrite a v src) s = .next { s with sec := { s.sec with queue :=
       s.sec.queue ++ [⟨s.regRec a (v % 2 ^ 32) src, src, some (.registerWrite a (v % 2 ^ 32) src), false⟩] } }) ∧
     (s.roleOf src ≠ .device → s.auditClosed = true → exec (.registerWrite a v src) s = .next ((s.inc .SEC_CNT_AUDIT_REFUSED).answer src (regCode a) .state)) ∧
     (s.roleOf src = .device → exec (.registerWrite a v src) s = .next (s.completed src (regCode a) (effRegisterWrite a (v % 2 ^ 32) src)))) ∧
  ((∀ a v src s, s.regWriteCheck a (v % 2 ^ 32) src = .ok → 0x440000 ≤ a → a < 0x440100 → a % 0x10 = 0 → let w := (a - 0x440000) / 0x10
     exec (.registerWrite a v src) s = .next ((s.winStage w ((s.winStaged w).1 / 2 ^ 32 * 2 ^ 32 + v % 2 ^ 32) (s.winStaged w).2).answer src (regCode a) .ok)) ∧
   ∀ a v src s, s.regWriteCheck a (v % 2 ^ 32) src = .ok → loStages a = true → ¬(0x310000 ≤ a ∧ a < 0x330000) → ¬(0x350000 ≤ a ∧ a < 0x358000) →
     ¬(0x440000 ≤ a ∧ a < 0x440100) → Answers (.registerWrite a v src) s src (regCode a) .ok fun t =>
       (⟨src.ini, a + 4, v % 2 ^ 32⟩ : Latch) ∈ t.mgt.staged) ∧
  (∀ a v src (s : State), (s.regReach a false ≠ .ok → exec (.loReadLatch a src) s = .next (s.answer src (regCode a) (s.regReach a false))) ∧
     (s.regReach a false = .ok → s.roleOf src = .none → openRead a = false → exec (.loReadLatch a src) s = .next (s.answer src (regCode a) .rights)) ∧
     (s.regReach a false = .ok → s.roleOf src ≠ .none ∨ openRead a = true → s.upperHalf a = none → Answers (.loReadLatch a src) s src (regCode a) .ok fun t =>
       t.out = s.out ++ [.reply src (regCode a) (leBytes 4 (s.regFetch a src.ini).2)]) ∧
     (s.regReach a false = .ok → s.roleOf src ≠ .none ∨ openRead a = true → s.upperHalf a = some v → Answers (.loReadLatch a src) s src (regCode a) .ok fun t =>
       (⟨src.ini, a + 4, v⟩ : Latch) ∈ t.mgt.latches ∧ t.out = s.out ++ [.reply src (regCode a) (leBytes 4 (s.regFetch a src.ini).2)])) ∧
  (∀ u (s : State), (u < 8 → s.get .PIPE_H_STATE u = 4 → Completes (.blockResetDone u) s fun t => t.get .PIPE_H_STATE u = 0) ∧
     (u < 8 → s.get .PIPE_H_STATE u ≠ 4 → exec (.blockResetDone u) s = .next s) ∧ (8 ≤ u → u ≠ 16 → Completes (.blockResetDone u) s fun t => t.get .PWR_H_RESETTING u = 0) ∧ (u = 16 → exec (.blockResetDone u) s = .next s))

/-- Windows, fence, reset and counters of the host window bridge: what they leave when they complete. -/
def Obligations.BridgeWindowCommandsComplete : Prop :=
  (∀ w src (s : State), s.gate src .installer 14 = .ok → w < 16 → s.settingsBusy src = false → winOk (s.winStaged w).1 (s.winStaged w).2 = true →
     Recorded (.winCommit w src) s src (winCfg w) (s.winRec w src) fun t => (s.winFree w = true →
       t.get .BRG_WIN_BASE w = (s.winStaged w).1 % 2 ^ Fld.BRG_WIN_BASE.width ∧ t.get .BRG_WIN_STATUS_PENDING w = 0 ∧ t.get .BRG_WIN_S_HAVE w = 0) ∧
     (s.winFree w = false → t.get .BRG_WIN_P_BASE w = (s.winStaged w).1 % 2 ^ Fld.BRG_WIN_P_BASE.width ∧
       t.get .BRG_WIN_P_CFG w = (s.winStaged w).2 % 2 ^ Fld.BRG_WIN_P_CFG.width ∧ t.get .BRG_WIN_STATUS_PENDING w = 1 ∧ t.get .BRG_WIN_S_HAVE w = 0)) ∧
  (∀ w (s : State), (s.get .BRG_WIN_STATUS_PENDING w = 1 → s.winFree w = true → Completes (.winCommitApply w) s fun t =>
       t.get .BRG_WIN_BASE w = s.get .BRG_WIN_P_BASE w % 2 ^ Fld.BRG_WIN_BASE.width ∧ t.get .BRG_WIN_STATUS_PENDING w = 0) ∧
     (s.winFree w = false ∨ s.on .BRG_WIN_STATUS_PENDING w = false → exec (.winCommitApply w) s = .next s)) ∧
  (∀ src (s : State), (s.gate src .installer 14 = .ok → Recorded (.brgFence src) s src brgCtrl (s.writeRec src brgCtrl 1) fun t => t.get .BRG_CTRL_FENCE = 1) ∧
     (s.on .BRG_CTRL_FENCE = true → s.brg.slots = [] → s.brg.wait = [] → exec .brgFenceDone s = .next (s.set .BRG_CTRL_FENCED 0 1)) ∧
     (s.on .BRG_CTRL_FENCE = false ∨ s.brg.slots ≠ [] ∨ s.brg.wait ≠ [] → exec .brgFenceDone s = .next s)) ∧
  (∀ src (s : State), (s.gate src .installer 14 = .ok → Recorded (.brgReset src) s src brgCtrl (s.writeRec src brgCtrl (2 + s.get .BRG_CTRL_FENCE)) fun t =>
       t.get .PWR_H_RESETTING 14 = 1) ∧
     (s.gate src .operator 14 = .ok → exec (.brgClrCnt src) s = .next (s.brgClrCnt.answer src brgCtrl .ok) ∧
       s.brgClrCnt.get .BRG_CNT_REQ = 0 ∧ s.brgClrCnt.get .BRG_CNT_LATE = 0))

/-- Messages, pieces and read-ahead of the host window bridge: what they do. -/
def Obligations.BridgeMessageCommandsComplete : Prop :=
  (∀ q pos data ce s c mine act, (c = .creditBlock q ⟨pos, ce, data⟩ ∧ mine = (fun m : List Nat => m.getD 0 0 == 0x01) ∧ act = State.creditIn q) ∨
       (c = .badMessage q ⟨pos, ce, data⟩ ∧ mine = (fun m => !messageFormed m) ∧ act = (fun s _ => s.badMessage q)) ∨
       (c = .accessRequest q ⟨pos, ce, data⟩ ∧ mine = (fun m => m.getD 0 0 == 0x10) ∧ act = State.accessIn q) ∨
       (c = .commandMessage q ⟨pos, ce, data⟩ ∧ mine = (fun m => m.getD 0 0 == 0x20) ∧ act = State.commandIn q) →
     (s.ctlReady q = false → exec c s = .next s) ∧ ∀ u, s.ctlReady q = true → u = s.countCe q ce →
     (9216 < u.sendFrame q data.length → exec c s = .next (u.inc .EGR_PORT_CNT_RXBAD (u.get .EGR_QP_CFG_PORT q))) ∧
     (u.sendFrame q data.length ≤ 9216 → u.qpMtu q < data.length → exec c s =
       .next (({ u with egr := { u.egr with parts := tabErase u.egr.parts q } } : State).badMessage q)) ∧
     (u.sendFrame q data.length ≤ 9216 → data.length ≤ u.qpMtu q →
       (pos = .only → mine data = true → exec c s = .next (act (u.completeMsg q) data)) ∧
       (pos = .first → mine data = true → exec c s = .next { u with egr := { u.egr with parts := tabPut u.egr.parts q data } }) ∧
       (pos = .only ∨ pos = .first → mine data = false → exec c s = .next u) ∧
       (∀ l, u.partsOf q = some l → pos = .middle → exec c s = .next { u with egr := { u.egr with parts := tabPut u.egr.parts q (l ++ data) } }) ∧
       (∀ l, u.partsOf q = some l → pos = .last → exec c s = .next (if mine (l ++ data) = true then act (u.completeMsg q) (l ++ data) else u)) ∧
       (u.partsOf q = none → pos = .middle ∨ pos = .last → exec c s = .next u))) ∧
  (∀ q data ce (s : State), s.ctlReady q = true → (s.countCe q ce).sendFrame q data.length ≤ 9216 → data.length ≤ (s.countCe q ce).qpMtu q →
     (data.getD 0 0 = 1 → messageFormed data = true → exec (.creditBlock q ⟨.only, ce, data⟩) s =
       .next ((List.range (data.getD 1 0)).foldl (fun s i => s.credit (data.drop (8 + 8 * i))) ((s.countCe q ce).completeMsg q))) ∧
     (data.getD 0 0 = 1 → messageFormed data = false → exec (.creditBlock q ⟨.only, ce, data⟩) s = .next (((s.countCe q ce).completeMsg q).badMessage q)) ∧
     (messageFormed data = false → Completes (.badMessage q ⟨.only, ce, data⟩) s fun t => t.get .BRG_CNT_BAD = min (s.get .BRG_CNT_BAD + 1) (2 ^ 32 - 1))) ∧
  (∀ q data ce s v, s.ctlReady q = true → (s.countCe q ce).sendFrame q data.length ≤ 9216 → data.length ≤ (s.countCe q ce).qpMtu q →
     data.getD 0 0 = 0x10 → v = (s.countCe q ce).completeMsg q →
     (messageFormed data = false → exec (.accessRequest q ⟨.only, ce, data⟩) s = .next (v.badMessage q)) ∧ (messageFormed data = true →
       (v.authCheck data = .discard → exec (.accessRequest q ⟨.only, ce, data⟩) s = .next (v.authFail q data)) ∧
       (∀ st, v.authCheck data = .refuse st → exec (.accessRequest q ⟨.only, ce, data⟩) s = .next ((v.acceptCounter data).brgReply (v.requestOf q data) st 0 0 0 [])) ∧
       (v.authCheck data = .accept → exec (.accessRequest q ⟨.only, ce, data⟩) s = .next (let u := v.acceptCounter data
         if v.admitAccess (v.requestOf q data) (leAt data 20 8) = .ok then
           ({ u with brg := { u.brg with wait := u.brg.wait ++ [v.requestOf q data] } } : State).brgStart
         else u.brgReply (v.requestOf q data) (v.admitAccess (v.requestOf q data) (leAt data 20 8)) 0 0 0 [])))) ∧
  (∀ q data ce s v, s.ctlReady q = true → (s.countCe q ce).sendFrame q data.length ≤ 9216 → data.length ≤ (s.countCe q ce).qpMtu q →
     data.getD 0 0 = 0x20 → v = (s.countCe q ce).completeMsg q →
     (messageFormed data = false → exec (.commandMessage q ⟨.only, ce, data⟩) s = .next (v.badMessage q)) ∧ (messageFormed data = true →
       (v.authCheck data = .discard → exec (.commandMessage q ⟨.only, ce, data⟩) s = .next (v.authFail q data)) ∧
       (∀ st, v.authCheck data = .refuse st → exec (.commandMessage q ⟨.only, ce, data⟩) s = .next ((v.acceptCounter data).cmdRefuse q data st)) ∧
       (v.authCheck data = .accept → v.unitDown 14 = true → exec (.commandMessage q ⟨.only, ce, data⟩) s = .next ((v.acceptCounter data).cmdRefuse q data .targetReset)) ∧
       (v.authCheck data = .accept → v.unitDown 14 = false → v.commandCheck data ≠ .ok → exec (.commandMessage q ⟨.only, ce, data⟩) s =
         .next ((v.acceptCounter data).cmdRefuse q data (v.commandCheck data))) ∧
       (v.authCheck data = .accept → v.unitDown 14 = false → v.commandCheck data = .ok → Completes (.commandMessage q ⟨.only, ce, data⟩) s fun t =>
         t.brg.cmds = s.brg.cmds ++ [⟨q, v.get .BRG_H_ORDER, data.getD 1 0, leAt data 2 2, leAt data 4 8, leAt data 12 4, data.getD 16 0⟩]))) ∧
  (∀ k addr err r p (s : State), s.openPiece k addr = some (r, p) → exec (.pieceComplete k addr err) s = .next (s.pieceAt k r p err) ∧
     (p.issued.getD 0 + s.get .BRG_TIMEOUT_BRG_TIMEOUT_US * 1000 ≤ s.elapsed → exec (.pieceTimeout k addr) s =
       .next ((({ s with brg := { s.brg with late := s.brg.late ++ [lateOf k r p false] } } : State).brgEvent 1 r.qp r.session r.tag
         (statusCode .timeout)).pieceDone k addr .timeout [])) ∧
     (s.elapsed < p.issued.getD 0 + s.get .BRG_TIMEOUT_BRG_TIMEOUT_US * 1000 → exec (.pieceTimeout k addr) s = .next s)) ∧
  (∀ k addr err (s : State), s.openPiece k addr = none →
     (∀ e, s.brg.late.find? (fun e => e.slot == k && e.addr == addr) = some e → exec (.pieceComplete k addr err) s = .next (s.lateAt e)) ∧
     (s.brg.late.find? (fun e => e.slot == k && e.addr == addr) = none → exec (.pieceComplete k addr err) s = .next s) ∧
     exec (.pieceTimeout k addr) s = .next s) ∧
  (∀ q (s : State), (s.brg.ahead.find? (fun e => e.1 == q) = none → exec (.readaheadExpiry q) s = .next s) ∧
     ∀ w h, s.brg.ahead.find? (fun e => e.1 == q) = some (w, h) → (s.elapsed < h.time + 100000 → exec (.readaheadExpiry q) s = .next s) ∧
     (h.time + 100000 ≤ s.elapsed → Completes (.readaheadExpiry q) s fun t => t = s.dropAhead q ∧ t.brg.ahead = tabErase s.brg.ahead q))

/-- Durable records, self-test commands and the entry to sleep: what they leave when they complete. -/
def Obligations.AuditAndTestCommandsComplete : Prop :=
  (∀ s q rest, (s.canRecord = true → s.sec.queue = q :: rest → Completes .auditRecordDurable s fun t => ∃ u : State, u.sec.queue = rest ∧
       (∃ b, u.sec.ring.getLast? = some (s.get .SEC_AUDIT_SEQ + 1, b)) ∧ u.get .SEC_AUDIT_SEQ = (s.get .SEC_AUDIT_SEQ + 1) % 2 ^ Fld.SEC_AUDIT_SEQ.width ∧
       (q.effect = none → t = u) ∧ ∀ i, q.effect = some i → t = u.applyRecorded i) ∧
     (s.canRecord = false ∨ s.sec.queue = [] → exec .auditRecordDurable s = .next s)) ∧
  (∀ u kinds level src (s : State), s.fwGate src .operator noUnit = .ok → s.bistCheck u kinds = .ok → level < 4 →
     Recorded (.bistRun u kinds level src) s src 0x70 (s.auditRec src 3 0 0 noValue noValue) fun t =>
       t.get .BIST_STATUS_STATE = 1 ∧ t.get .BIST_STATUS_UNIT = u % 64 ∧ t.get .BIST_H_FRUN = (s.get .BIST_H_RUN + 1) % 2 ^ Fld.BIST_H_RUN.width % 2 ^ Fld.BIST_H_FRUN.width ∧
       (u = 18 → t.get .PWR_STATUS_MGT_RESTARTS = min (s.get .PWR_STATUS_MGT_RESTARTS + 1) (2 ^ Fld.PWR_STATUS_MGT_RESTARTS.width - 1))) ∧
  (∀ src (s : State), s.fwGate src .operator noUnit = .ok → s.get .BIST_STATUS_STATE ≠ 0 →
     Recorded (.bistStop src) s src 0x71 (s.auditRec src 3 0 0 noValue noValue) fun t => t.get .BIST_H_STOPPED = 1 ∧ t.get .BIST_STATUS_STATE = 2) ∧
  (∀ u n src (s : State), s.fwGate src .operator noUnit = .ok →
     (u < 33 → exec (.bistResult u src) s = .next ((s.emit (.reply src 0x72 (s.bistRecord u))).answer src 0x72 .ok)) ∧
     (1 ≤ n → n ≤ 64 → exec (.bistLog n src) s = .next ((s.emit (.reply src 0x73 ((List.range n).flatMap s.bistEntry))).answer src 0x73 .ok))) ∧
  (∀ d (s : State), (d.rolling = true →
       (s.get .PIPE_ROLL_STATUS_STATE = 2 → exec (.bistTestEnd d) s = .next (s.rollEnd 0 d) ∧
         (s.get .BIST_H_ROLLT0 + 4600000000 ≤ s.elapsed → exec (.bistTimeout d) s = .next (s.rollEnd 16 d)) ∧
         (s.elapsed < s.get .BIST_H_ROLLT0 + 4600000000 → exec (.bistTimeout d) s = .next s)) ∧
       (s.get .PIPE_ROLL_STATUS_STATE ≠ 2 → exec (.bistTestEnd d) s = .next s ∧ exec (.bistTimeout d) s = .next s)) ∧
     (d.rolling = false →
       (s.get .BIST_H_UNIT ≠ 63 → exec (.bistTestEnd d) s = .next (s.fieldEnd 0 d) ∧
         (s.get .BIST_H_T0 + 4600000000 ≤ s.elapsed → exec (.bistTimeout d) s = .next (s.fieldEnd 16 d)) ∧
         (s.elapsed < s.get .BIST_H_T0 + 4600000000 → exec (.bistTimeout d) s = .next s)) ∧
       (s.get .BIST_H_UNIT = 63 → exec (.bistTestEnd d) s = .next s ∧ exec (.bistTimeout d) s = .next s))) ∧
  (∀ src (s : State), s.gate src .operator noUnit = .ok → exec (.rollStop src) s = .next ((effRollStop s).answer src 0 .ok) ∧
     (s.get .PIPE_ROLL_STATUS_STATE = 2 → effRollStop s = (s.set .PIPE_ROLL_CTRL_AUTO 0 0).drawn.drawn.rollEnd 4 (s.set .PIPE_ROLL_CTRL_AUTO 0 0).stoppedData) ∧
     (s.get .PIPE_ROLL_STATUS_STATE = 1 → effRollStop s = (s.set .PIPE_ROLL_CTRL_AUTO 0 0).rollCancel 4) ∧
     (s.get .PIPE_ROLL_STATUS_STATE ≠ 1 → s.get .PIPE_ROLL_STATUS_STATE ≠ 2 → (effRollStop s).get .PIPE_ROLL_STATUS_STATE = 0 ∧ (effRollStop s).get .PIPE_ROLL_CTRL_AUTO = 0)) ∧
  (∀ f r (s : State), (s.get .PWR_H_STATE ≠ 1 ∨ s.on .PWR_H_DRAINED = false ∨ s.pipe.running ≠ [] → exec (.sleepEntered f r) s = .next s) ∧
     (s.get .PWR_H_STATE = 1 → s.on .PWR_H_DRAINED = true → s.pipe.running = [] →
       ((s.resetQps.sleepStore f r).get .PWR_H_STATE = 1 → Completes (.sleepEntered f r) s fun t => t.frames = [] ∧ t.products = [] ∧ t.blankets = []) ∧
       ((s.resetQps.sleepStore f r).get .PWR_H_STATE ≠ 1 → exec (.sleepEntered f r) s = .next (s.resetQps.sleepStore f r))))

/-- A memory transaction stores or reads exactly its bytes, or waits for its channel. -/
def Obligations.MemoryTransactionsComplete : Prop :=
  (∀ blk src cls addr len d err busy s r,
     r = (⟨if blk < 24 then blk else 255, s.get .MGT_H_GEN blk, src, min cls 3, addr, len, d, s.elapsed, false⟩ : MemReq) →
     (s.memCheck blk src addr len d.isSome ≠ .ok → exec (.memoryTransaction blk src cls addr len d err busy) s =
       .next ((s.memDenied addr len d.isSome (s.memCheck blk src addr len d.isSome)).memDone r (s.memCheck blk src addr len d.isSome) [])) ∧
     (s.memCheck blk src addr len d.isSome = .ok →
       (busy = true → exec (.memoryTransaction blk src cls addr len d err busy) s = .next { s with memq := s.memq ++ [r] }) ∧
       (busy = false → exec (.memoryTransaction blk src cls addr len d err busy) s =
         .next (({ s with memq := s.memq ++ [r] } : State).memServe (memChannel addr) err (s.memq.length + 1))) ∧
       (busy = false → s.memq = [] → exec (.memoryTransaction blk src cls addr len d err busy) s =
         .next ((s.memPerform addr len d err).1.memDone r (s.memPerform addr len d err).2.1 (s.memPerform addr len d err).2.2)))) ∧
  (∀ blk src cls addr len d err (s : State), s.memCheck blk src addr len true = .ok → s.memq = [] → d.length = len →
     Completes (.memoryTransaction blk src cls addr len (some d) err false) s fun t =>
       ∀ b, t.memByte b = if addr ≤ b ∧ b < addr + len then d.getD (b - addr) 0 % 256 else s.memByte b) ∧
  (∀ src cls addr len d err (s : State), (s.memCheck 255 src addr len false = .ok → s.memq = [] → s.badIn addr len = [] →
       Completes (.memoryTransaction 255 src cls addr len none .none false) s fun t => t.mem = s.mem ∧
         ∃ u : State, u.out = s.out ∧ t = (u.emit (.reply src addr (s.memBytes addr len))).answer src addr .ok) ∧
     (s.memCheck 255 src addr len d.isSome ≠ .ok → 256 ≤ addr → Completes (.memoryTransaction 255 src cls addr len d err false) s fun t => t.mem = s.mem))

/-- Polls, refresh, fence, reset and counters of the memory controller: what they leave. -/
def Obligations.MemoryControlCommandsComplete : Prop :=
  (∀ n (s : State), Completes (.priorityPromote n) s fun t => (∀ r, s.memq[n]? = some r → r.born + 20000 ≤ s.elapsed → t.memq[n]? = some { r with promoted := true }) ∧
     (∀ r, s.memq[n]? = some r → s.elapsed < r.born + 20000 → t.memq[n]? = some r) ∧ (∀ k, k ≠ n → t.memq[k]? = s.memq[k]?) ∧
     t.memq.length = s.memq.length) ∧
  (∀ ch level (s : State), (16 ≤ ch ∨ 4 ≤ level ∨ s.on .MEM_H_SELF = true → exec (.mr4Poll ch level) s = .next s) ∧ (ch < 16 → level < 4 → s.on .MEM_H_SELF = false → Completes (.mr4Poll ch level) s fun t =>
     bits (t.get .MEM_TEMP_LEVELS) (2 * ch) 2 = level)) ∧
  (∀ ch n (s : State), (16 ≤ ch ∨ s.on .MEM_H_SELF = true → exec (.refresh ch) s = .next s ∧ exec (.writeLinkPoll ch n) s = .next s) ∧ (ch < 16 → s.on .MEM_H_SELF = false →
     (Completes (.refresh ch) s fun t => t.get .MEM_H_REFRESHED ch = min (s.get .MEM_H_REFRESHED ch + 1) (2 ^ Fld.MEM_H_REFRESHED.width - 1)) ∧
     (Completes (.writeLinkPoll ch n) s fun t => t.get .MEM_CNT_LINK = min (s.get .MEM_CNT_LINK + n) (2 ^ 32 - 1)))) ∧
  (∀ src (s : State), (s.gate src .installer 16 = .ok → s.memNeeded = false → Recorded (.memFence src) s src 0 (s.writeRec src 0x500008 1) fun t =>
       t.get .MEM_CTRL_FENCE = 1) ∧
     (s.on .MEM_CTRL_FENCE = true → (∀ r ∈ s.memq, isMgt r.blk r.src = true) → exec .memFenceDone s = .next (s.set .MEM_CTRL_FENCED 0 1)) ∧
     (s.on .MEM_CTRL_FENCE = false ∨ (∃ r ∈ s.memq, isMgt r.blk r.src = false) → exec .memFenceDone s = .next s)) ∧
  (∀ src (s : State), (s.gate src .installer 16 = .ok → s.get .MEM_CTRL_FENCED = 1 →
       Recorded (.memReset src) s src 0 (s.writeRec src 0x500008 (2 + s.get .MEM_CTRL_FENCE)) fun t => t.get .PWR_H_RESETTING 16 = 1 ∧ t.get .MEM_STATUS_TRAINED = 0) ∧
     (s.on .PWR_H_RESETTING 16 = false → exec .memResetDone s = .next s) ∧ (s.on .PWR_H_RESETTING 16 = true → Completes .memResetDone s fun t => t.get .PWR_H_RESETTING 16 = 0 ∧ t.get .MEM_H_SELF = 0 ∧ t.get .MEM_STATUS_TRAINED = 1) ∧
     (s.gate src .operator 16 = .ok → exec (.memClrCnt src) s = .next (s.memClrCnt.answer src 0 .ok) ∧ s.memClrCnt.get .MEM_CNT_CE = 0 ∧ s.memClrCnt.get .MEM_CNT_LINK = 0))

/-- Codec commands: a committed profile, a coded product, the fence and the reset. -/
def Obligations.CodecCommandsComplete : Prop :=
  (∀ k src (s : State), k < 16 → s.gate src .installer 12 = .ok → s.profOk k = true →
     Recorded (.profCommit k src) s src 0 (s.auditRec src 2 1 (0x38000C + 0x20 * k) noValue noValue) fun t =>
       t.get .TSL_PROF_STATUS_PENDING k = 1 ∧ t.get .TSL_PROF_P_NEAR k = s.get .TSL_PROF_NEAR k % 2 ^ Fld.TSL_PROF_P_NEAR.width ∧
       t.get .TSL_PROF_P_THR k = (s.get .TSL_PROF_THR_LO_THR k + 2 ^ 32 * s.get .TSL_PROF_THR_HI_THR k) % 2 ^ Fld.TSL_PROF_P_THR.width ∧
       t.get .TSL_PROF_P_CTRL k = (s.get .TSL_PROF_CTRL_CLASS k + 4 * s.get .TSL_PROF_CTRL_ESC_EN k + 65536 * s.get .TSL_PROF_CTRL_HOLD_TILES k) % 2 ^ Fld.TSL_PROF_P_CTRL.width) ∧
  (∀ k src (s : State), k < 16 → s.gate src .installer 12 = .ok → s.profOk k = false → exec (.profCommit k src) s = .next (s.answer src 0 .range)) ∧
  (∀ i q (s : State), s.products[i]? = some q → q.whole = true → (s.products.take i).any (fun e => e.whole && e.stream == q.stream && e.copy == q.copy) = false →
     Completes (.productDone i) s fun t => t.products = s.products.eraseIdx i ∧
       (q.bypass = false → t.get .TSL_CNT_ENC = min (s.get .TSL_CNT_ENC + q.planes.length) (2 ^ Fld.TSL_CNT_ENC.width - 1)) ∧ (q.bypass = true → t.get .TSL_CNT_ENC = s.get .TSL_CNT_ENC)) ∧
  (∀ i (s : State), (∀ q, s.products[i]? = some q → q.whole = true → (s.products.take i).any (fun e => e.whole && e.stream == q.stream && e.copy == q.copy) = true) →
     exec (.productDone i) s = .next s) ∧
  (∀ src (s : State), (s.gate src .installer 12 = .ok → Recorded (.tslFence src) s src 0 (s.writeRec src 0x380400 1) fun t => t.get .TSL_CTRL_FENCE = 1) ∧
     (s.on .TSL_CTRL_FENCE = true → (∀ q ∈ s.products, q.bypass = true) → Completes .tslFenceDone s fun t => t.get .TSL_CTRL_FENCED = 1) ∧
     (s.on .TSL_CTRL_FENCE = false ∨ (∃ q ∈ s.products, q.bypass = false) → exec .tslFenceDone s = .next s)) ∧
  (∀ src (s : State), (s.gate src .installer 12 = .ok → Recorded (.tslReset src) s src 0 (s.writeRec src 0x380400 2) fun t =>
       t.get .PWR_H_RESETTING 12 = 1 ∧ t.products = s.products.filter (·.bypass) ∧ ∀ k < 16, t.get .TSL_PROF_STATUS_STEP k = 0) ∧
     (s.gate src .operator 12 = .ok → Answers (.tslClrCnt src) s src 0 .ok fun t => t.get .TSL_CNT_ENC = 0 ∧ t.get .TSL_CNT_RAW = 0 ∧
       t.get .TSL_CNT_BYPASS = 0 ∧ t.get .TSL_CNT_DEC = 0 ∧ t.get .TSL_CNT_DEC_ERR = 0 ∧ t.get .TSL_CNT_LOST = 0))

/-- The read at start, firmware start, and every step of a firmware update and of its trial. -/
def Obligations.BootAndUpdateCommandsComplete : Prop :=
  (∀ nor (s : State), s.get .BOOT_STATUS_STATE = 0 → s.get .BOOT_H_PASSED = 0 → s.get .PWR_H_HELD = 0 → nor.found = true →
     Completes (.bootRead nor) s fun t => t.boot.size = nor.size ∧ (t.on .BOOT_H_PASSED = true ∨ t.get .BOOT_STATUS_STATE = 2)) ∧
  (∀ nor (s : State), (s.get .BOOT_STATUS_STATE = 0 → s.get .BOOT_H_PASSED = 0 → s.get .PWR_H_HELD = 0 → nor.found = false → Completes (.bootRead nor) s fun t =>
       t.get .BOOT_STATUS_STATE = 2 ∧ t.get .BOOT_RESULT_STATUS 0 = statusCode .timeout ∧ t.get .BOOT_RESULT_STATUS 1 = statusCode .timeout ∧
       t.get .BOOT_RESULT_STEP 0 = 0 ∧ t.get .BOOT_RESULT_STEP 1 = 0) ∧
     (s.get .BOOT_STATUS_STATE ≠ 0 ∨ s.on .BOOT_H_PASSED = true ∨ s.on .PWR_H_HELD = true → exec (.bootRead nor) s = .next s)) ∧
  (∀ (s : State), s.get .BOOT_STATUS_STATE = 0 → s.on .BOOT_H_PASSED = true → s.on .SEC_STATUS_WIPE_PENDING = false → Completes .firmwareStart s fun t =>
     t.get .BOOT_STATUS_STATE = 1 ∧ t.get .BOOT_STATUS_FW_SRC = 0 ∧ t.get .BOOT_H_AWAY = 0) ∧
  (∀ (s : State), (s.get .BOOT_STATUS_STATE = 0 → s.on .BOOT_H_PASSED = true → s.on .SEC_STATUS_WIPE_PENDING = true →
       exec .firmwareStart s = .next s.wipe ∧ s.wipe.get .PWR_STATUS_RESET_CAUSE = 4) ∧
     (s.get .BOOT_STATUS_STATE ≠ 0 ∨ s.on .BOOT_H_PASSED = false → exec .firmwareStart s = .next s)) ∧
  (∀ a n src (s : State), s.fwGate src .maker 18 = .ok → s.inStaging a n = true → s.updateOk = true →
     Recorded (.fwUpdate a n src) s src 0x50 (s.auditRec src 3 5 s.idleSlot noValue noValue) fun t =>
       t.get .BOOT_UPD_STATUS_UPD_STATE = 1 ∧ t.boot.staged = s.memBytes a n) ∧
  (∀ v (s : State), s.updState = 1 → Completes (.updateVerifyDone v) s fun t =>
     match s.imageCheck s.boot.staged s.boot.size v with
     | some e => t.updState = 0 ∧ t.get .BOOT_UPD_STATUS_LAST_STATUS = statusCode e.2 % 2 ^ Fld.BOOT_UPD_STATUS_LAST_STATUS.width
     | none => if leAt s.boot.staged 8 4 ≤ (s.bootSlot s.activeSlot).seq then t.updState = 0 else
       t.updState = 2) ∧
  (∀ (s : State), s.updState = 2 → (Completes (.updateProgramDone true) s fun t => t.updState = 3 ∧ t.bootSlot s.idleSlot = ⟨s.boot.staged, 0xFFFFFFFF⟩) ∧
     Completes (.updateProgramDone false) s fun t => t.updState = 0) ∧
  (∀ v (s : State), s.updState = 3 → Completes (.updateReadbackDone v) s fun t => t.boot.staged = [] ∧
     match s.imageCheck (imageIn (s.bootSlot s.idleSlot) s.boot.size) s.boot.size v with
     | some _ => t.updState = 0
     | none => t.updState = 4) ∧
  (∀ v ok (s : State), (s.updState ≠ 1 → exec (.updateVerifyDone v) s = .next s) ∧ (s.updState ≠ 2 → exec (.updateProgramDone ok) s = .next s) ∧
     (s.updState ≠ 3 → exec (.updateReadbackDone v) s = .next s)) ∧
  (∀ src (s : State), s.fwGate src .maker 18 = .ok → s.updState = 4 → Recorded (.fwActivate src) s src 0x51 (s.auditRec src 3 5 s.idleSlot noValue noValue) fun t =>
     t.get .BOOT_H_FROMNOR = 1 ∧ t.get .BOOT_H_RESTARTING = 1 ∧ t.get .BOOT_STATUS_TRIAL = 1 ∧ t.updState = 5)

/-- Confirmation and rollback of a trial, and the return of the management complex. -/
def Obligations.TrialAndManagementRestartComplete : Prop :=
  (∀ src (s : State), s.fwGate src .device 18 = .ok → s.confirmOk = true → Answers (.fwConfirm src) s src 0x40064 .ok fun t =>
     t.get .BOOT_STATUS_TRIAL = 0 ∧ t.updState = 0 ∧ t.get .BOOT_H_TRIALBIT s.activeSlot = 0 ∧ (t.bootSlot s.activeSlot).status = (s.bootSlot s.activeSlot).status &&& 0x5A5A5A5A) ∧
  (∀ (s : State), let due := s.updState = 5 ∧ s.on .BOOT_H_AWAY = false ∧ s.get .BOOT_H_STARTED + s.get .BOOT_CTRL_CONFIRM_S * 1000000000 ≤ s.elapsed
     (due → exec .confirmTimeout s = .next s.rollBack ∧ s.rollBack.get .BOOT_H_FROMNOR = 1 ∧ s.rollBack.get .BOOT_STATUS_ACTIVE = s.get .BOOT_H_FORMER % 2 ^ Fld.BOOT_STATUS_ACTIVE.width ∧
       s.rollBack.get .BOOT_STATUS_TRIAL = 0) ∧
     (¬ due → exec .confirmTimeout s = .next s)) ∧
  (∀ fw (s : State), s.on .BOOT_H_RESTARTING = true → s.inTest 18 = false → s.get .PWR_H_STATE = 0 → s.on .BOOT_H_FROMNOR = false →
     (Completes (.mgtRestartDone true fw) s fun t => t.get .BOOT_STATUS_FW_SRC = 1 ∧ t.get .BOOT_H_AWAY = 0 ∧ t.get .BOOT_H_RESTARTING = 0) ∧
     match (s.bootEvent 6 s.activeSlot 0 0xF (s.bootSlot s.activeSlot).seq).reload fw with
     | some _ => Completes (.mgtRestartDone false fw) s fun t => t.get .BOOT_STATUS_FW_SRC = 3 ∧ t.get .BOOT_H_AWAY = 0 ∧ t.get .BOOT_H_RESTARTING = 0
     | none => exec (.mgtRestartDone false fw) s = .next (s.bootEvent 6 s.activeSlot 0 0xF (s.bootSlot s.activeSlot).seq)) ∧
  (∀ ok fw (s : State), s.on .BOOT_H_RESTARTING = true → s.inTest 18 = false → s.get .PWR_H_STATE = 0 → s.on .BOOT_H_FROMNOR = true → match s.reload fw with
     | some _ => Completes (.mgtRestartDone ok fw) s fun t => t.get .BOOT_STATUS_FW_SRC = 0 ∧ t.get .BOOT_H_AWAY = 0 ∧ t.get .BOOT_H_FROMNOR = 0
     | none => exec (.mgtRestartDone ok fw) s = .next (if s.updState = 5 then s.rollBack else s)) ∧
  (∀ ok fw (s : State), s.on .BOOT_H_RESTARTING = false ∨ s.inTest 18 = true ∨ s.get .PWR_H_STATE = 1 ∨ s.get .PWR_H_STATE = 2 → exec (.mgtRestartDone ok fw) s = .next s)

/-- Selecting, loading and ending a job: how NEXT begins to load, loads, fails, and draining ends. -/
def Obligations.JobSelectionCommandsComplete : Prop :=
  (∀ i (s : State), s.get .PWR_H_STATE = 0 → s.get .BOOT_STATUS_STATE ≠ 2 → s.isFollower = false → s.mgtAbsent = false → s.selHeld = false → i < 256 →
     exec (.jobStb i) s = .next (s.selectJob 0 i false).1 ∧ ∀ h, s.hamper? (s.jobEntry i).hamper = some h → s.nextState = 0 → s.jobRuns = false →
       s.on .JOB_STATUS_DRAINING = false → hamperJob h.image ≠ 0 → (s.selectJob 0 i false).1.nextState = 1) ∧
  (∀ i (s : State), s.get .PWR_H_STATE = 0 → s.get .BOOT_STATUS_STATE ≠ 2 → s.isFollower = false → s.mgtAbsent = false → s.selHeld = false → i < 256 →
     let u := (s.set .JOB_SEL_LATCH_INDEX 0 i).set .JOB_SEL_LATCH_SOURCE 0 0
     let empty := if u.nextState = 0 then u else if u.isLeader then u.leaderCancel else u.cancelNext
     match s.hamper? (s.jobEntry i).hamper with
     | none => exec (.jobStb i) s = .next (u.loadFail .range)
     | some h =>
       let mine := u.get .JOB_H_ENTRY = i ∧ u.nextState ≠ 0
       let running := u.jobRuns = true ∧ hamperJob h.image = u.get .JOB_IDS_CUR_ID
       (running → exec (.jobStb i) s = .next empty) ∧
       (¬ running → mine → u.nextState = 3 → exec (.jobStb i) s = .next (u.inc .JOB_CNT_REPEAT)) ∧
       (¬ running → mine → u.nextState ≠ 3 → exec (.jobStb i) s = .next (u.set .JOB_H_WANT 0 1).tryArm) ∧
       (¬ running → ¬ mine → empty.on .JOB_STATUS_DRAINING = true → exec (.jobStb i) s = .next (empty.latchSel 0 i ⟨1, 0, 0, (s.jobEntry i).mark, 0⟩)) ∧
       (¬ running → ¬ mine → empty.on .JOB_STATUS_DRAINING = false → hamperJob h.image = 0 → exec (.jobStb i) s = .next (empty.loadFail .range)) ∧
       (¬ running → ¬ mine → empty.on .JOB_STATUS_DRAINING = false → hamperJob h.image ≠ 0 →
         exec (.jobStb i) s = .next (empty.startLoad h i (s.jobEntry i).mark (s.jobEntry i).arm false))) ∧
  (∀ i (s : State), (s.get .PWR_H_STATE = 1 ∨ s.get .PWR_H_STATE = 2 ∨ s.get .BOOT_STATUS_STATE = 2 → exec (.jobStb i) s = .next s) ∧
     (s.get .PWR_H_STATE = 0 → s.get .BOOT_STATUS_STATE ≠ 2 → s.isFollower = true →
       exec (.jobStb i) s = .next ((s.inc .JOB_CNT_REPEAT).jobEvent 6 (s.get .JOB_IDS_NEXT_ID) (s.get .JOB_OUT_ID) 0 0 0xFF)) ∧
     (s.get .PWR_H_STATE = 0 → s.get .BOOT_STATUS_STATE ≠ 2 → s.isFollower = false → s.mgtAbsent = true ∨ s.selHeld = true → i < 256 →
       Completes (.jobStb i) s fun t => t.get .JOB_SEL_LATCH_VALID = 1 ∧ t.get .JOB_SEL_LATCH_INDEX = i)) ∧
  (∀ (s : State), let u := ((s.set .JOB_STATUS_DRAINING 0 0).set .JOB_OUT_ID 0 0).jobEvent 4 (s.get .JOB_IDS_CUR_ID) (s.get .JOB_OUT_ID) 0 0 0xFF
     (s.on .JOB_STATUS_DRAINING = true → s.draining = false → exec .drainDone s = .next u.serveLatch ∧ u.get .JOB_STATUS_DRAINING = 0 ∧ u.get .JOB_OUT_ID = 0 ∧
       (s.on .JOB_SEL_LATCH_VALID = false → u.serveLatch = u)) ∧
     (s.on .JOB_STATUS_DRAINING = false ∨ s.draining = true → exec .drainDone s = .next s)) ∧
  (∀ i (s : State), (s.isFollower = false → s.mgtAbsent = false → ((List.range 256).find? fun j => (s.jobEntry j).start) = some i →
       exec .startEntrySelect s = .next (s.selectJob 1 i true).1) ∧
     (s.isFollower = true ∨ s.mgtAbsent = true ∨ ((List.range 256).find? fun j => (s.jobEntry j).start) = none → exec .startEntrySelect s = .next s)) ∧
  (∀ i h src (s : State), s.jobGate src true = .ok → s.isFollower = false → i < 256 → s.hamper? (s.jobEntry i).hamper = some h → s.nextState = 0 → s.jobRuns = false →
     s.on .JOB_STATUS_DRAINING = false → hamperJob h.image ≠ 0 →
     Recorded (.jobSelect i src) s src 0x10 (s.jobRec src (hamperJob h.image)) fun t => t.nextState = 1) ∧
  (∀ n h src (s : State), n < 4096 → s.jobGate src true = .ok → s.loadCheck n = .ok → s.hamper? n = some h →
     Recorded (.jobLoad n src) s src 0x11 (s.jobRec src (hamperJob h.image)) fun t => t.nextState = 1 ∧ t.job.waiting = some src) ∧
  (∀ g r h (s : State), s.nextState = 1 → s.hamper? (s.get .JOB_HAMPERS_NEXT_HAMPER) = some h → r.uncorrectable = false → h.damaged = false →
     Completes (.jobLoadDone g r) s fun t =>
       let u := s.readCount r
       let v := u.libResult (u.storedCheck h g) (s.get .JOB_HAMPERS_NEXT_HAMPER)
       match u.storedCheck h g with
       | some e => t = v.loadFails e.2
       | none => ∀ x st, v.loadBanks h.image (((v.refObj? h.digest).map (·.bytes)).getD []) = (x, st) →
         (st ≠ .ok → t = x.loadFails st) ∧
         (st = .ok → x.admission false = none → t = ((x.showDemand.set .JOB_STATUS_NEXT_STATE 0 2).loadEnded .ok false).tryArm) ∧
         (st = .ok → ∀ q, x.admission false = some q → t = (let z := (((x.cancelBanks (x.get .JOB_IDS_NEXT_ID)).clearStaged).refused q 0).loadEnded .range true
           if x.isLeader && !x.job.peers.isEmpty then z.leaderCancel else z.nextClear))) ∧
  (∀ g r (s : State), (s.nextState ≠ 1 → exec (.jobLoadDone g r) s = .next s) ∧ (s.nextState = 1 → match s.hamper? (s.get .JOB_HAMPERS_NEXT_HAMPER) with
     | none => exec (.jobLoadDone g r) s = .next (s.loadFails .range)
     | some h => (r.uncorrectable = true → exec (.jobLoadDone g r) s = .next (((s.readCount r).damage fun x => x.num == s.get .JOB_HAMPERS_NEXT_HAMPER).loadFails .integrity)) ∧
       (r.uncorrectable = false → h.damaged = true → exec (.jobLoadDone g r) s = .next ((s.readCount r).loadFails .integrity))))

/-- Arming, cancelling and stopping, the job registers' commands and the start of a rolling test. -/
def Obligations.JobArmingCommandsComplete : Prop :=
  (∀ m src (s : State), m < 4 → s.jobGate src false = .ok → s.isFollower = false → s.isLeader = false → (s.armNext m false s.now).2 = .ok →
     Recorded (.jobArm m false src) s src 0x12 (s.jobRec src (s.get .JOB_IDS_NEXT_ID)) fun t =>
       t.nextState = 3 ∧ t.get .JOB_STATUS_SW_MARK = m ∧ t.get .JOB_ARM_TIME = s.now % 2 ^ Fld.JOB_ARM_TIME.width) ∧
  (∀ m im src u (s : State), s.jobGate src false = .ok → s.isFollower = false →
     ((s.armNext (m % 4) im s.now).2 = .ok → s.armCommand (m % 4) im = (u, .ok) → effJobArm m im src s = u ∧
       exec (.jobArm m im src) s = .next (s.recorded src 0x12 (.jobArm m im src) (s.jobRec src (s.get .JOB_IDS_NEXT_ID)) (effJobArm m im src))) ∧
     (s.stopArm (m % 4) im = (u, .ok) → effJobStop m im src s = u ∧
       exec (.jobStop m im src) s = .next (s.recorded src 0x14 (.jobStop m im src) (s.jobRec src 0) (effJobStop m im src)))) ∧
  (∀ src (s : State), (s.jobGate src false = .ok → s.isFollower = false → s.nextState ≠ 0 →
       Recorded (.jobCancel src) s src 0x13 (s.jobRec src (s.get .JOB_IDS_NEXT_ID)) fun t => t.nextState = 0) ∧
     (s.roleOf src = .device → Answers (.jobCtrlCancel src) s src 0x050044 .ok fun t => t.nextState = 0)) ∧
  (∀ m src (s : State), m < 4 → s.jobGate src false = .ok → s.isFollower = false → s.isLeader = false → s.jobRuns = true → s.nextState = 0 →
     (s.loadStop.armNext m false s.now).2 = .ok → Recorded (.jobStop m false src) s src 0x14 (s.jobRec src 0) fun t => t.nextState = 3) ∧
  (∀ src (s : State), s.jobGate src false = .ok → exec (.jobQuery src) s = .next ((s.emit (.reply src 0x15 (s.jobWords ++ s.refuseRecord))).answer src 0x15 .ok)) ∧
  (∀ m v src (s : State), s.roleOf src = .device → (m < 4 → s.nextState = 2 → (s.armNext m false (s.get .JOB_ARM_TIME)).2 = .ok →
       Answers (.jobCtrlArm m false false src) s src 0x050044 .ok fun t => t.nextState = 3 ∧ t.get .JOB_STATUS_SW_MARK = m) ∧
     (0 < v → v < 4 → s.nextState ≠ 3 → Answers (.setNext v src) s src 0x050044 .ok fun t => t.nextState = v - 1)) ∧
  (∀ p a src (s : State), s.mayAs src .operator = true → p < 8 → s.rollPipe = none → s.rollable p = true → s.inTest p = false → s.rollAdmit p = none →
     Completes (.rollStart p a src) s fun t => t.get .PIPE_ROLL_STATUS_STATE = 1 ∧ t.get .PIPE_ROLL_STATUS_PIPE = p ∧ t.get .PIPE_ROLL_CTRL_AUTO = a.toNat) ∧
  (∀ p a src (s : State), (s.mayAs src .operator = false → exec (.rollStart p a src) s = .next (s.answer src 0 .rights)) ∧
     (s.mayAs src .operator = true → 8 ≤ p → exec (.rollStart p a src) s = .next (s.answer src 0 .range)) ∧
     (s.mayAs src .operator = true → p < 8 → s.rollPipe.isSome = true ∨ s.rollable p = false ∨ s.inTest p = true →
       exec (.rollStart p a src) s = .next (s.completed src 0 (effRollStart p a src)) ∧ effRollStart p a src s = s.answer src 0 .state) ∧
     ∀ r n, s.mayAs src .operator = true → p < 8 → s.rollPipe = none → s.rollable p = true → s.inTest p = false → s.rollAdmit p = some (r, n) →
       exec (.rollStart p a src) s = .next (s.completed src 0 (effRollStart p a src)) ∧ effRollStart p a src s = (((s.rollRefused r n).emit (.reply src 0 (s.rollRefused r n).refuseRecord)).answer src 0 .range))

/-- The messages of a leader: what a follower does at PREPARE, ARM and CANCEL, and the leader's waits. -/
def Obligations.JobMessagesComplete : Prop :=
  (∀ node tag m job num tarm (s : State), s.msgGate node = .ok → m < 4 →
     (s.selHeld = false → ∀ u, s.prepareJob m job num = (u, .ok) → exec (.jobMsgPrepare node tag m job num) s = .next
       (if u.nextState = 2 then u.ctrlReply node tag 1 .ok [] else { u with job := { u.job with prepare := some (node, tag) } }).jobAnswers) ∧
     (s.now + 100000 ≤ tarm → job ≠ 0 → s.get .JOB_IDS_NEXT_ID = job → ∀ u, s.armNext m false tarm = (u, .ok) →
       exec (.jobMsgArm node tag m job tarm) s = .next (u.ctrlReply node tag 1 .ok []).jobAnswers) ∧
     (s.now + 100000 ≤ tarm → job = 0 → s.jobRuns = true → s.nextState = 0 → ∀ u, s.loadStop.armNext m false tarm = (u, .ok) →
       exec (.jobMsgArm node tag m job tarm) s = .next (u.ctrlReply node tag 1 .ok []).jobAnswers) ∧
     (s.nextState ≠ 0 → exec (.jobMsgCancel node tag job) s = .next (s.cancelNext.ctrlReply node tag 1 .ok []).jobAnswers)) ∧
  (∀ node tag m job num tarm (s : State), s.msgGate node = .ok → m < 4 →
     (s.selHeld = false → ∀ u st, s.prepareJob m job num = (u, st) → st ≠ .ok → exec (.jobMsgPrepare node tag m job num) s = .next (u.ctrlReply node tag 1 st []).jobAnswers) ∧
     (tarm < s.now + 100000 → exec (.jobMsgArm node tag m job tarm) s = .next (s.ctrlReply node tag 1 .timeout []).jobAnswers) ∧
     (s.now + 100000 ≤ tarm → (job ≠ 0 ∧ s.get .JOB_IDS_NEXT_ID ≠ job) ∨ (job = 0 ∧ (s.jobRuns = false ∨ s.nextState ≠ 0)) →
       exec (.jobMsgArm node tag m job tarm) s = .next (s.ctrlReply node tag 1 .state []).jobAnswers) ∧
     (s.nextState = 0 → exec (.jobMsgCancel node tag job) s = .next
       (s.ctrlReply node tag 1 (if s.jobRuns && s.get .JOB_IDS_CUR_ID == job && job != 0 then .state else .ok) []).jobAnswers)) ∧
  (∀ node tag m job num tarm (s : State), m < 4 →
     (s.msgGate node = .ok → s.selHeld = true → exec (.jobMsgPrepare node tag m job num) s = .next
       { s.latchSel 2 0 ⟨1, job, num, m, 0⟩ with job := { (s.latchSel 2 0 ⟨1, job, num, m, 0⟩).job with prepare := some (node, tag) } }.jobAnswers) ∧
     (s.msgGate node = .busy → s.msgLatches node = true →
       exec (.jobMsgPrepare node tag m job num) s = .next ((s.latchSel 2 0 ⟨1, job, num, m, 0⟩).ctrlReply node tag 1 .busy []).jobAnswers ∧
       exec (.jobMsgArm node tag m job tarm) s = .next ((s.latchSel 2 0 ⟨2, job, 0, m, tarm⟩).ctrlReply node tag 1 .busy []).jobAnswers ∧
       exec (.jobMsgCancel node tag job) s = .next ((s.latchSel 2 0 ⟨3, job, 0, 0, 0⟩).ctrlReply node tag 1 .busy []).jobAnswers) ∧
     ∀ st, s.msgGate node = st → st ≠ .ok → s.msgLatches node = false → ∀ i ∈ [Instr.jobMsgPrepare node tag m job num, .jobMsgArm node tag m job tarm, .jobMsgCancel node tag job],
       exec i s = .next (s.ctrlReply node tag 1 st []).jobAnswers) ∧
  (∀ (s : State), s.isLeader = true → (s.nextState ≠ 3 → (s.job.peers.any fun p => p.op == 1 && p.answer != some .ok) = true → exec .prepareTimeout s = .next s.leaderCancel.jobAnswers) ∧
     (s.nextState = 3 → s.get .JOB_ARM_TIME < s.now + 1000000 → (s.job.peers.any fun p => p.op == 2 && p.answer != some .ok) = true →
       exec .armDeadline s = .next s.leaderCancel.jobAnswers) ∧
     exec .prepareResend s = .next ((s.job.peers.filter fun p => p.op == 1 && p.answer == some .busy).foldl (fun s p =>
       s.peerSend p.uid 1 (jobMessage 1 (s.get .JOB_H_MARK) (s.get .JOB_IDS_NEXT_ID) (s.get .JOB_HAMPERS_NEXT_HAMPER) 0)) s).jobAnswers) ∧
  (∀ (s : State), (s.isLeader = false → ∀ i ∈ [Instr.prepareTimeout, .armDeadline, .prepareResend], exec i s = .next s) ∧
     (s.nextState = 3 ∨ (s.job.peers.any fun p => p.op == 1 && p.answer != some .ok) = false → exec .prepareTimeout s = .next s) ∧
     (s.nextState ≠ 3 ∨ s.now + 1000000 ≤ s.get .JOB_ARM_TIME ∨ (s.job.peers.any fun p => p.op == 2 && p.answer != some .ok) = false → exec .armDeadline s = .next s))

/-- Power, reset, restart of the management complex and temperature: what each command leaves. -/
def Obligations.ResetAndPowerCommandsComplete : Prop :=
  (∀ bad mx v (s : State), s.get .PWR_H_TRIP = 0 → (Completes (.powerOn bad mx v) s fun t => t.get .PWR_STATUS_RESET_CAUSE = 0 ∧
       t.mem = s.mem.filter fun c => dramBase ≤ c.1 && c.1 < 2 * dramBase) ∧
     (s.get .PWR_H_OFF = 0 → Completes (.resetPin bad) s fun t => t.get .PWR_STATUS_RESET_CAUSE = (if s.bootFailed then 5 else 1) ∧
       t.mem = s.mem.filter fun c => dramBase ≤ c.1 && c.1 < 2 * dramBase)) ∧
  (∀ bad mx v (s : State), s.on .PWR_H_TRIP = true →
     (95 < toSigned 8 (mx % 2 ^ Fld.PWR_THERM_STATUS_MAX.width) → Completes (.powerOn bad mx v) s fun t => t.get .PWR_H_HELD = 1 ∧ t.get .PWR_H_OFF = 0) ∧
     (¬ 95 < toSigned 8 (mx % 2 ^ Fld.PWR_THERM_STATUS_MAX.width) → Completes (.powerOn bad mx v) s fun t => t.get .PWR_STATUS_RESET_CAUSE = 6 ∧ t.get .PWR_H_TRIP = 0) ∧
     (s.on .PWR_H_OFF = false → ¬ 95 < s.maxTemp → Completes (.resetPin bad) s fun t => t.get .PWR_STATUS_RESET_CAUSE = 6 ∧ t.get .PWR_H_TRIP = 0) ∧
     (s.on .PWR_H_OFF = true ∨ 95 < s.maxTemp → exec (.resetPin bad) s = .next s)) ∧
  (∀ s f, f ∈ thermosFields → (Completes .vaonLoss s fun t => ∀ c ∈ t.cells, c.1.1 ≠ f.id) ∧
     (Completes .railLoss s fun t => t.mem = [] ∧ t.get .PWR_H_OFF = 1) ∧ Completes .crystalStop s fun t => t.get .PWR_RTC_HI_RTC_VALID = 0) ∧
  (∀ src s n, n = min (s.get .PWR_STATUS_MGT_RESTARTS + 1) (2 ^ Fld.PWR_STATUS_MGT_RESTARTS.width - 1) →
     (s.mgtRuns = true → (Completes .lockstepMismatch s fun t => t.get .PWR_STATUS_MGT_RESTARTS = n) ∧ Completes .watchdogTimeout s fun t => t.get .PWR_STATUS_MGT_RESTARTS = n) ∧
     (s.gate src .maker noUnit = .ok → Recorded (.mgtRestart src) s src 0x20004 (s.writeRec src 0x20004 2) fun t => t.get .PWR_STATUS_MGT_RESTARTS = n)) ∧
  (∀ (s : State), (s.mgtRuns = false → exec .lockstepMismatch s = .next s ∧ exec .watchdogTimeout s = .next s) ∧
     (s.on .PWR_H_HELD = true ∨ s.on .PWR_H_OFF = true ∨ s.tripDue = false → exec .thermalTrip s = .next s)) ∧
  (∀ x src (s : State), (s.fwGate src .operator noUnit = .ok → exec (.pwrQuery src) s = .next ((s.emit (.reply src 0x79 ((List.range 10).flatMap fun i =>
       leBytes 4 (s.plainWord (0x20000 + 4 * i))))).answer src 0x79 .ok)) ∧
     (s.fwGate src .installer noUnit = .ok → Recorded (.pwrRtcSet x src) s src 0x7A (s.auditRec src 3 0 0 noValue noValue) fun t =>
       t.get .PWR_RTC_SEC = x % 2 ^ Fld.PWR_RTC_SEC.width ∧ t.get .PWR_RTC_HI_RTC_VALID = 1) ∧
     (s.fwGate src .maker noUnit = .ok → x = s.get .SEC_FUSE_UID → Recorded (.pwrReset x src) s src 0x7B (s.auditRec src 3 0 0 noValue noValue) fun t => t.get .PWR_STATUS_RESET_CAUSE = 2) ∧
     (s.gate src .operator noUnit = .ok → ∀ b, b < 24 → Answers (.pwrClrCnt src) s src 0x20004 .ok fun t => t.get .PWR_CNT_STALE b = 0)) ∧
  (∀ l (s : State), (Completes (.tempSample l) s fun t => t.get .PWR_THERM_STATUS_SENSOR = (hottest l).1 % 2 ^ Fld.PWR_THERM_STATUS_SENSOR.width ∧ t.get .PWR_THERM_STATUS_MAX = ofSigned 8 (hottest l).2 % 2 ^ Fld.PWR_THERM_STATUS_MAX.width) ∧
     (s.get .PWR_H_HELD = 0 → s.get .PWR_H_OFF = 0 → s.tripDue = true → Completes .thermalTrip s fun t => t.get .PWR_H_TRIP = 1 ∧ t.get .PWR_H_HELD = 1))

/-- Entry to SLEEP, its drain, the wake sources, the end of wake, resume of triggers and gating of pipes. -/
def Obligations.SleepAndWakeCommandsComplete : Prop :=
  (∀ m a src (s : State), s.sleepBarred = false → (s.fwGate src .installer noUnit = .ok → ¬(m.testBit 3 = true ∧ a ≠ 0 ∧ a ≤ s.get .PWR_RTC_SEC) →
       Answers (.pwrSleep m a src) s src 0x78 .ok fun t => t.get .PWR_H_STATE = 1 ∧ t.get .PWR_H_SUSPEND = 1) ∧
     (s.gate src .device noUnit = .ok → Answers (.pwrCtrlSleep src) s src 0x20004 .ok fun t => t.get .PWR_H_STATE = 1 ∧ t.get .PWR_H_SUSPEND = 1 ∧
       (s.nextState ≠ 0 → t.get .JOB_STATUS_NEXT_STATE = 0))) ∧
  (∀ (s : State), s.get .PWR_H_STATE = 1 → s.on .PWR_H_DRAINED = false → (s.planeEmpty = true → Completes .sleepDrainDone s fun t => t.get .PWR_H_DRAINED = 1) ∧
     (s.get .PWR_H_ENTERT + s.get .PWR_CFG_DRAIN_MS * 1000000 ≤ s.elapsed → Completes .sleepDrainLimit s fun t => t.get .PWR_H_DRAINED = 1 ∧ t.bit .PWR_EVENTS_EV 0 2 = true)) ∧
  (∀ (s : State), (s.get .PWR_H_STATE ≠ 1 ∨ s.on .PWR_H_DRAINED = true ∨ s.planeEmpty = false → exec .sleepDrainDone s = .next s) ∧
     (s.get .PWR_H_STATE ≠ 1 ∨ s.on .PWR_H_DRAINED = true ∨ s.elapsed < s.get .PWR_H_ENTERT + s.get .PWR_CFG_DRAIN_MS * 1000000 → exec .sleepDrainLimit s = .next s)) ∧
  (∀ n ln (s : State), s.get .PWR_H_STATE = 2 →
     (s.bit .PWR_CFG_WAKE_EN 0 0 = true → Completes (.wakePin n) s fun t => t.get .PWR_H_STATE = 3 ∧ t.get .PWR_STATUS_WAKE_SRC = 0) ∧
     (s.bit .PWR_CFG_WAKE_EN 0 1 = true → Completes (.addressMatchWake n) s fun t => t.get .PWR_H_STATE = 3 ∧ t.get .PWR_STATUS_WAKE_SRC = 1) ∧
     (s.bit .PWR_CFG_WAKE_EN 0 2 = true → s.get .LANE_ID_ROLE ln = 3 → s.get .FAB_PORT_STATUS_VER (lanePort ln) ≠ 1 →
       Completes (.botexWake ln n) s fun t => t.get .PWR_H_STATE = 3 ∧ t.get .PWR_STATUS_WAKE_SRC = 2) ∧
     (s.bit .PWR_CFG_WAKE_EN 0 3 = true → s.get .PWR_ALARM ≠ 0 → s.get .PWR_ALARM ≤ (s.rtcAdvance n).get .PWR_RTC_SEC →
       Completes (.rtcAlarm n) s fun t => t.get .PWR_H_STATE = 3 ∧ t.get .PWR_STATUS_WAKE_SRC = 3)) ∧
  (∀ n ln (s : State), s.get .PWR_H_STATE = 1 → s.get .PWR_H_LATCHED = 16 →
     (s.bit .PWR_CFG_WAKE_EN 0 0 = true → Completes (.wakePin n) s fun t => t.get .PWR_H_LATCHED = 0 ∧ t.get .PWR_H_STATE = 1) ∧
     (s.bit .PWR_CFG_WAKE_EN 0 2 = true → s.get .LANE_ID_ROLE ln = 3 → s.get .FAB_PORT_STATUS_VER (lanePort ln) ≠ 1 →
       Completes (.botexWake ln n) s fun t => t.get .PWR_H_LATCHED = 2 ∧ t.get .PWR_H_STATE = 1) ∧
     (s.bit .PWR_CFG_WAKE_EN 0 3 = true → s.get .PWR_ALARM ≠ 0 → s.get .PWR_ALARM ≤ (s.rtcAdvance n).get .PWR_RTC_SEC →
       Completes (.rtcAlarm n) s fun t => t.get .PWR_H_LATCHED = 3 ∧ t.get .PWR_H_STATE = 1)) ∧
  (∀ n ln (s : State), (s.get .PWR_H_STATE = 0 ∨ s.get .PWR_H_STATE = 3 ∨ s.get .PWR_CFG_WAKE_EN = 0 →
       exec (.wakePin n) s = .next (s.rtcAdvance n) ∧ exec (.botexWake ln n) s = .next (s.rtcAdvance n) ∧ exec (.rtcAlarm n) s = .next (s.rtcAdvance n)) ∧
     (s.get .PWR_H_STATE ≠ 2 → exec (.addressMatchWake n) s = .next (s.rtcAdvance n)) ∧
     (s.get .PWR_H_STATE = 2 → s.bit .PWR_CFG_WAKE_EN 0 1 = false → exec (.addressMatchWake n) s = .next ((s.rtcAdvance n).emit (.i3c false []))) ∧
     (s.get .LANE_ID_ROLE ln ≠ 3 ∨ s.get .FAB_PORT_STATUS_VER (lanePort ln) = 1 → exec (.botexWake ln n) s = .next (s.rtcAdvance n)) ∧
     (s.get .PWR_ALARM = 0 ∨ (s.rtcAdvance n).get .PWR_RTC_SEC < s.get .PWR_ALARM → exec (.rtcAlarm n) s = .next (s.rtcAdvance n))) ∧
  (∀ ok fw full (s : State), (s.get .PWR_H_STATE = 3 → s.wakeLanesOver = true → ∃ u : State, exec (.wakeDone ok fw full) s = .next (u.wakeFirmware ok fw) ∧
       u.get .MEM_H_SELF = 0 ∧ u.get .MEM_STATUS_TRAINED = 1 ∧ (u.wakeFirmware ok fw).get .PWR_H_STATE = 0 ∧ (u.wakeFirmware ok fw).get .PWR_STATUS_STATE = 0 ∧
       (ok = true → (u.wakeFirmware ok fw).get .BOOT_STATUS_FW_SRC = 2 ∧ (u.wakeFirmware ok fw).get .BOOT_H_AWAY = 0)) ∧
     (s.get .PWR_H_STATE ≠ 3 ∨ s.wakeLanesOver = false → exec (.wakeDone ok fw full) s = .next s)) ∧
  (∀ (s : State), s.on .PWR_H_SUSPEND = true → s.get .PWR_H_STATE = 0 → s.resumeDue = true → Completes .triggerResume s fun t =>
     t.get .PWR_H_SUSPEND = 0 ∧ t.get .PWR_H_ADOPT = 15) ∧
  (∀ (s : State), s.on .PWR_H_SUSPEND = false ∨ s.get .PWR_H_STATE ≠ 0 ∨ s.resumeDue = false → exec .triggerResume s = .next s) ∧
  (∀ v src (s : State), s.gate src .installer noUnit = .ok → ((s.newlyGated v).all fun p => s.get .PIPE_H_STATE p == 2) = true →
     Recorded (.pipeGate v src) s src 0x20040 (s.writeRec src 0x20040 (v % 256)) fun t => t.get .PWR_GATE = v % 2 ^ Fld.PWR_GATE.width)

/-- Login, lockout and the end of sessions: nonces, sessions and failures after each command. -/
def Obligations.SessionCommandsComplete : Prop :=
  (∀ r k m src (s : State), s.loginGate src = .ok → s.lockedKey (roleOfCode r) k = false → Answers (.loginBegin r k m src) s src 0x01 .ok fun t =>
     t.sec.nonces.getLast? = some ⟨s.free % 2 ^ 256, roleOfCode r, k, m, s.elapsed⟩ ∧ t.fresh = s.fresh + 1 ∧ (s.sec.nonces.length ≤ 4 → t.sec.nonces.length ≤ 4)) ∧
  (∀ l g src s u, s.loginGate src = .ok → loginFormed l = true → s.loginCheck l g = .ok → u = { s with sec := { s.sec with nonces := s.sec.nonces.filter fun n => n.value != loginNonce l } } →
     exec (.loginFinish l g src) s = .next (u.recorded src 0x02 (.loginFinish l g src) (loginRec 4 u.newSession (roleOfCode (l.getD 44 0)) (l.getD 44 0) (l.getD 45 0)) (effLoginFinish l src)) ∧
     (src.ini = .mgt → s.on .SEC_STATUS_TEST_UNLOCKED = false → s.sec.sessions.length < 16 → Completes (.loginFinish l g src) s fun t =>
       ∃ x, t.sec.sessions = s.sec.sessions ++ [x] ∧ x.num = u.newSession ∧ x.role = roleOfCode (l.getD 44 0) ∧ t.sec.nonces = u.sec.nonces)) ∧
  (∀ l g src (s u : State), s.loginGate src = .ok → loginFormed l = true → s.loginCheck l g ≠ .ok → u = { s with sec := { s.sec with nonces := s.sec.nonces.filter fun n => n.value != loginNonce l } } →
     exec (.loginFinish l g src) s = .next ((u.loginFails l).answer src 0x02 (s.loginCheck l g)) ∧
     (u.loginFails l).sec.failures = s.sec.failures ++ [(roleOfCode (l.getD 44 0), l.getD 45 0, (u.note ⟨.mgt, 0⟩ (loginRec 5 0 .none (l.getD 44 0) (l.getD 45 0))).elapsed)]) ∧
  (∀ n x src (s : State), (src.session = n → s.fwGate src .operator 19 = .ok → s.session n = some x →
       exec (.logout src) s = .next (s.recorded src 0x03 (.logout src) (sessionEndRec x) (effLogout src)) ∧ ∀ y ∈ (effLogout src s).sec.sessions, y.num ≠ n) ∧
     (s.session n = some x → x.seen + s.get .SEC_CFG_SESSION_IDLE_S * secNs ≤ s.elapsed → s.sessionBusy n = false →
       Completes (.sessionIdleTimeout n) s fun t => ∀ y ∈ t.sec.sessions, y.num ≠ n) ∧
     (s.session n = some x → s.elapsed < x.seen + s.get .SEC_CFG_SESSION_IDLE_S * secNs ∨ s.sessionBusy n = true → exec (.sessionIdleTimeout n) s = .next s) ∧
     (s.session n = none → exec (.sessionIdleTimeout n) s = .next s)) ∧
  (∀ r k (s : State), (s.lockedKey (roleOfCode r) k = false → Completes (.lockoutExpiry r k) s fun t => ∀ f, f ∈ t.sec.failures ↔
       f ∈ s.sec.failures ∧ ¬(f.1 = roleOfCode r ∧ f.2.1 = k ∧ f.2.2 + 60 * secNs ≤ s.elapsed)) ∧
     (s.lockedKey (roleOfCode r) k = true → exec (.lockoutExpiry r k) s = .next s))

/-- Attestation, the audit log's commands, fuses, test unlock and decommission: what each does when it completes. -/
def Obligations.AttestationAndFuseCommandsComplete : Prop :=
  (∀ ms (s : State), (s.on .SEC_STATUS_TEST_UNLOCKED = true → exec (.attestKeysReady ms) s = .next s) ∧
     (s.on .SEC_STATUS_TEST_UNLOCKED = false → Completes (.attestKeysReady ms) s fun t => t.get .SEC_STATUS_ATTEST_READY = 1) ∧
     Completes .rngFail s fun t => t.get .SEC_H_RNG_BAD = 1) ∧
  (∀ n kf a c st ad src (s : State), (s.signGate src .none = .ok → n.length = 32 → exec (.attest n kf src) s =
       .next ((s.signBlock.1.emit (.reply src 0x04 (s.report n ++ s.signBlock.2 ++ if kf then attestKeys else []))).answer src 0x04 .ok)) ∧
     (s.signGate src .operator = .ok → exec (.auditSign src) s =
       .next ((s.signBlock.1.emit (.reply src 0x41 (s.headBody (s.get .SEC_AUDIT_SEQ) s.sec.head ++ s.signBlock.2))).answer src 0x41 .ok)) ∧
     (s.fwGate src .operator 19 = .ok → (s.sec.ring.any fun e => decide (a ≤ e.1) && decide (e.1 < a + c)) = true → exec (.auditRead a c st ad src) s =
       .next (s.exportTo src 0x40 st ad ((List.range c).flatMap fun i => (s.auditEntry (a + i)).getD (absentEntry (a + i)))))) ∧
  (∀ (s : State), let can := s.on .SEC_STATUS_ATTEST_READY = true ∧ s.on .SEC_STATUS_TEST_UNLOCKED = false ∧ s.on .SEC_H_RNG_BAD = false
     (∀ d rest, s.sec.headsDue = d :: rest → can → Completes .headSignDone s fun t => t.sec.headsDue = rest ∧
       t.sec.signed = s.sec.signed ++ [(d.1, s.headBody d.1 d.2 ++ s.signBlock.2)] ∧ t.get .SEC_AUDIT_SIGNED = d.1 % 2 ^ Fld.SEC_AUDIT_SIGNED.width) ∧
     (s.sec.headsDue = [] ∨ ¬ can → exec .headSignDone s = .next s)) ∧
  (∀ a n src (s : State), s.fwGate src .maker 19 = .ok → s.releaseCheck a n = .ok → s.ringHeld = false →
     Recorded (.auditRelease a n src) s src 0x42 (s.auditRec src 3 0 (a % 2 ^ 32) noValue noValue) fun t =>
       t.get .SEC_AUDIT_OLDEST = (s.get .SEC_AUDIT_OLDEST + 4096 * n) % 2 ^ Fld.SEC_AUDIT_OLDEST.width ∧ ∀ e ∈ t.sec.ring, e ∈ s.sec.ring ∧ t.get .SEC_AUDIT_OLDEST ≤ e.1) ∧
  (∀ a n src (s : State), s.fwGate src .maker 19 = .ok → s.releaseCheck a n = .ok → s.ringHeld = true →
     exec (.auditRelease a n src) s = .next ((s.completed src 0x42 (effAuditRelease a n src)).note src (s.auditRec src 3 0 (a % 2 ^ 32) noValue noValue))) ∧
  (∀ f v src (s : State), s.fwGate src .maker 19 = .ok → s.fuseCheck f v = .ok → Recorded (.fuseProgram f v src) s src 0x60
     (s.auditRec src 8 6 f (fuseDigest (s.fuse f)) (fuseDigest (v, (s.fuse f).2))) fun t => if f < 4 then t.sec.makerHash = s.sec.makerHash.set f v else (t.fuse f).1 = v) ∧
  (∀ src (s : State), s.fwGate src .maker 19 = .ok → s.jobsIdle = true → (s.on .SEC_FUSE_STATE_SCAN_OFF = false →
       Recorded (.testUnlock src) s src 0x61 (s.auditRec src 9 0 0 noValue noValue) fun t => t.get .SEC_STATUS_TEST_UNLOCKED = 1 ∧ t.sec.keys = []) ∧
     Recorded (.decommission (s.get .SEC_FUSE_UID) src) s src 0x62 (s.auditRec src 10 0 0 noValue noValue) fun t => t.get .PWR_STATUS_RESET_CAUSE = 4)

/-- The store: mount, scrubs, wear, failures, fence, reset and counters. -/
def Obligations.NandCommandsComplete : Prop :=
  (∀ m (s : State), (s.get .BOOT_STATUS_STATE = 1 → s.on .BOOT_H_SETTLED = true → Completes (.nandMount m) s fun t => t.get .STO_H_MOUNTED = 1) ∧
     (s.get .BOOT_STATUS_STATE = 1 → s.on .BOOT_H_SETTLED = false → Completes (.nandMount m) s fun t => t.get .BOOT_H_SETTLED = 1) ∧
     (s.get .BOOT_STATUS_STATE ≠ 1 → exec (.nandMount m) s = .next s)) ∧
  (∀ b r (s : State), let first (p : NandBlk → Bool) := p (s.blk b) = true ∧ (s.sto.blocks.any fun y => p y && decide (y.stamp < (s.blk b).stamp)) = false
     (first s.dueBlk → exec (.patrolScrub b r) s = .next (s.scrub b r)) ∧ (¬ first s.dueBlk → exec (.patrolScrub b r) s = .next s) ∧
     (first s.overdue → exec (.catchupScrub b r) s = .next (s.scrub b r)) ∧ (¬ first s.overdue → exec (.catchupScrub b r) s = .next s) ∧
     (s.overdue (s.blk b) = true → Completes (.blockOverdue b) s fun t => t.bit .STO_EVENTS_EV 0 6 = true) ∧
     (s.overdue (s.blk b) = false → exec (.blockOverdue b) s = .next s)) ∧
  (∀ b r (s : State), let step := max (s.blk b).step r.step
     let u := ((s.readCount { r with step := step }).inc .STO_CNT_SCRUB).putBlk { s.blk b with step := step }
     (r.uncorrectable = false → step ≤ 3 → r.bits ≤ 110 → s.scrub b r = u.putBlk { s.blk b with step := step, stamp := u.rtc }) ∧
     (r.uncorrectable = false → (3 < step ∨ 110 < r.bits) → s.scrub b r = u.relocate b) ∧
     (r.uncorrectable = true → s.scrub b r = match (u.segLost (s.blk b).region (s.blk b).seg).takeBlk (s.blk b).region (s.blk b).seg with
       | some v => (v.inc .STO_CNT_RELOC).retire b r.ch r.lun
       | none => (u.segLost (s.blk b).region (s.blk b).seg).retire b r.ch r.lun)) ∧
  (∀ b bs r c ln (s : State), ((s.sto.blocks.filter fun x => x.region != 0 && !x.retired) = b :: bs → s.get .STO_CFG2_WL_DELTA < s.eraseRange.2 - s.eraseRange.1 →
       exec (.wearLevel r) s = .next ((s.readCount r).relocate (bs.foldl (fun m x => if x.erases < m.erases then x else m) b).id)) ∧
     ((s.blk b.id).region = 0 → exec (.programFail b.id c ln) s = .next ((s.inc .STO_CH_CNT_PFAIL c).retire b.id c ln) ∧ exec (.eraseFail b.id c ln) s = .next ((s.inc .STO_CH_CNT_EFAIL c).retire b.id c ln)) ∧
     ((s.blk b.id).region ≠ 0 → ∀ u, (s.inc .STO_CH_CNT_PFAIL c).takeBlk (s.blk b.id).region (s.blk b.id).seg = some u →
       exec (.programFail b.id c ln) s = .next ((u.inc .STO_CNT_RELOC).retire b.id c ln))) ∧
  (∀ b r c ln (s : State), (s.eraseRange.2 - s.eraseRange.1 ≤ s.get .STO_CFG2_WL_DELTA ∨ (s.sto.blocks.filter fun x => x.region != 0 && !x.retired) = [] → exec (.wearLevel r) s = .next s) ∧
     ((s.blk b).region ≠ 0 → (s.inc .STO_CH_CNT_PFAIL c).takeBlk (s.blk b).region (s.blk b).seg = none → exec (.programFail b c ln) s = .next ((s.inc .STO_CH_CNT_PFAIL c).retire b c ln)) ∧
     ((s.blk b).region ≠ 0 → exec (.eraseFail b c ln) s = .next (s.inc .STO_CH_CNT_EFAIL c))) ∧
  (∀ src (s : State), (s.gate src .installer 17 = .ok → Recorded (.stoFence src) s src 0 (s.writeRec src 0x540474 1) (fun t => t.get .STO_CTRL_FENCE = 1) ∧
       Recorded (.stoReset src) s src 0 (s.writeRec src 0x540474 2) fun t => t.get .PWR_H_RESETTING 17 = 1 ∧ t.get .STO_H_MOUNTED = 0) ∧
     (s.on .STO_CTRL_FENCE = true → Completes .stoFenceDone s fun t => t.get .STO_CTRL_FENCED = 1) ∧ (s.on .STO_CTRL_FENCE = false → exec .stoFenceDone s = .next s) ∧
     (s.gate src .operator 17 = .ok → Answers (.stoClrCnt src) s src 0 .ok fun t => t.get .STO_CNT_RELOC = 0 ∧ t.get .STO_CNT_RETIRED = 0 ∧ t.get .STO_CNT_REC_MISSED = 0 ∧ t.get .STO_CNT_SCRUB = 0))

/-- The job library and the evidence recorder: what each command stores, removes, answers, keeps or programs. -/
def Obligations.LibraryAndRecorderCommandsComplete : Prop :=
  (∀ addr len g src (s u : State), (s.stoGate src = .ok → s.inStaging addr len = true → (s.dramRead addr len = (u, none) → exec (.libPut addr len g src) s = .next (u.answer src 0x20 .integrity)) ∧
       ∀ h, s.dramRead addr len = (u, some h) → exec (.libPut addr len g src) s = .next (if (u.libPutCheck h g src).2 = .ok then
         (u.libPutCheck h g src).1.recorded src 0x20 (.libPut addr len g src) ((u.libPutCheck h g src).1.hamperRec src (hamperNum h) (tableDigest h)) (effLibPut addr len g src)
         else (u.libPutCheck h g src).1.answer src 0x20 (u.libPutCheck h g src).2)) ∧
     ∀ h, s.storeHamper h = some u → ∃ x, x.num = hamperNum h ∧ x.length = h.length ∧ x.damaged = false ∧
       u.sto.hampers = (s.sto.hampers.filter fun y => y.num != hamperNum h) ++ [x]) ∧
  (∀ num first count stream addr r src (s : State), s.stoGate src = .ok →
     (s.libDeleteCheck num src = .ok → Recorded (.libDelete num src) s src 0x21 (s.hamperRec src num noValue) fun t => t.hamper? num = none) ∧
     (count ≤ 64 → exec (.libList first count src) s = .next ((s.emit (.reply src 0x22 ((List.range count).flatMap fun i => s.dirEntry (first + i)))).answer src 0x22 .ok)) ∧
     (s.hamper? num = none → s.dirEntry num = List.replicate 64 0) ∧
     ∀ h, s.hamper? num = some h → exec (.libGet num stream addr r src) s = .next (if r.uncorrectable then ((s.readCount r).damage fun x => x.num == num).answer src 0x23 .integrity
       else (s.readCount r).exportTo src 0x23 stream addr ((s.readCount r).fullImage h))) ∧
  (∀ num g r src s h c, s.stoGate src = .ok → s.hamper? num = some h → c = (if r.uncorrectable then some (7, Status.integrity) else (s.readCount r).storedCheck h g) →
     exec (.libVerify num g r src) s = .next (((((s.readCount r).libResult c num).setDamaged num c.isSome).emit (.reply src 0x24 [(c.getD (0, .ok)).1, 0, 0, 0])).answer src 0x24 (c.getD (0, .ok)).2) ∧
     ((s.readCount r).libResult c num).get .STO_LIB_RESULT_NUMBER = num % 2 ^ Fld.STO_LIB_RESULT_NUMBER.width ∧
     ((s.readCount r).libResult c num).get .STO_LIB_RESULT_STEP = (c.getD (0, .ok)).1 % 2 ^ Fld.STO_LIB_RESULT_STEP.width) ∧
  (∀ (s : State), s.unitDown 17 = false → s.on .STO_H_READONLY = false → s.on .STO_H_MOUNTED = true →
     (s.sto.staged = [] → exec .recorderProgram s = .next s) ∧
     ∀ e l, s.sto.staged = e :: l → let fits := s.sto.ring ≠ [] ∧ s.get .STO_H_SEGFILL + e.len ≤ segBytes ∧ s.on .STO_H_SEGLIVE = true
       (fits → exec .recorderProgram s = .next ((({ s with sto := { s.sto with staged := l } } : State).putEntry e).programStaged l.length)) ∧
       (¬ fits → exec .recorderProgram s = .next (match s.openSeg with
         | none => s
         | some t => ((({ t with sto := { t.sto with staged := l } } : State).set .STO_H_SEGLIVE 0 1).putEntry e).programStaged l.length))) ∧
  (∀ (s : State), s.unitDown 17 = true ∨ s.on .STO_H_READONLY = true ∨ s.on .STO_H_MOUNTED = false → exec .recorderProgram s = .next s) ∧
  (∀ first count stream addr r lost src (s u : State), s.stoGate src = .ok → u = (s.readCount r).entriesLost first count lost →
     exec (.recQuery src) s = .next ((s.emit (.reply src 0x30 (leBytes 8 s.recOldest ++ leBytes 8 s.recNewest ++ leBytes 4 s.keptSegs ++ leBytes 4 (s.get .STO_CNT_REC_MISSED)))).answer src 0x30 .ok) ∧
     (u.anyEntry first count = true → exec (.recGet first count (stream, addr) ⟨r, lost⟩ src) s = .next (u.exportTo src 0x31 stream addr
       ((List.range count).flatMap fun i => match u.entry? (first + i) with
         | some e => e.bytes
         | none => absentEntry (first + i)))) ∧
     (u.anyEntry first count = false → exec (.recGet first count (stream, addr) ⟨r, lost⟩ src) s = .next (u.answer src 0x31 .range)) ∧
     ∀ q, first ≤ q → q < first + count → q ∈ lost → u.entry? q = none) ∧
  (∀ first count src (s : State), s.stoGate src = .ok →
     (s.recKeepCheck first count = .ok → Recorded (.recKeep first count src) s src 0x32 (s.auditRec src 3 4 (first % 2 ^ 32) noValue noValue) fun t =>
       ∀ e ∈ t.sto.entries, first ≤ e.seq → e.seq < first + count → e.flags.testBit 0 = true) ∧
     (s.anyEntry first count = true → Recorded (.recRelease first count src) s src 0x33 (s.auditRec src 3 4 (first % 2 ^ 32) noValue noValue) fun t =>
       ∀ e ∈ t.sto.entries, first ≤ e.seq → e.seq < first + count → e.flags.testBit 0 = false)) ∧
  (∀ v src (s : State), v < 65536 → s.gate src .installer 17 = .ok → s.settingsBusy src = false → s.recGibOk v = true →
     Recorded (.recGibWrite v src) s src 0x540424 (s.writeRec src 0x540424 (v + 2 ^ 16 * s.get .STO_CFG1_KEEP_MAX_PCT))
       fun t => t.get .STO_CFG1_REC_GIB = v ∧ t.get .STO_SPACE_REC_GIB_NOW = v % 2 ^ Fld.STO_SPACE_REC_GIB_NOW.width)

/-- Page transfers, the indirect window and the command buffer of the management port. -/
def Obligations.PortTransfersComplete : Prop :=
  (∀ s m, s.unreachable = false → m = s.memBytes cmdBuf (min (64 + s.memLe (cmdBuf + 28) 4) 32769) →
     (s.get .I3C_H_CMD = 1 → exec .cmdSubmit s = .next s) ∧
     (s.get .I3C_H_CMD ≠ 1 → m.getD 0 0 = 0x20 → 64 + s.memLe (cmdBuf + 28) 4 ≤ 32768 → exec .cmdSubmit s = .next (match s.authCheck m with
       | .discard => (((s.authFail 0xFFFF m).set .I3C_H_REPLY 0 0).set .I3C_H_CMD 0 3).notify
       | .refuse st => (s.acceptCounter m).bufReply (leAt m 2 2) (m.getD 16 0) st []
       | .accept => if (if (s.acceptCounter m).unitDown 14 then Status.targetReset else (s.acceptCounter m).commandCheck m) = .ok then
           ((s.acceptCounter m).set .I3C_H_CMD 0 1).notify
         else (s.acceptCounter m).bufReply (leAt m 2 2) (m.getD 16 0) (if (s.acceptCounter m).unitDown 14 then .targetReset else (s.acceptCounter m).commandCheck m) [])) ∧
     (s.get .I3C_H_CMD ≠ 1 → (m.getD 0 0 ≠ 0x20 ∨ 32768 < 64 + s.memLe (cmdBuf + 28) 4) → Completes .cmdSubmit s fun t => t.get .I3C_H_CMD = 3 ∧ t.get .I3C_H_REPLY = 0)) ∧
  (∀ s p v, s.unreachable = false → p < 256 → v < 256 → (2 ≤ s.get .I3C_H_CMD → Completes .cmdAck s fun t => t.get .I3C_H_CMD = 0) ∧
     exec (.pageWrite [p]) s = .next ((s.transfer.set .I3C_H_PTR 0 p).i3cSend true []) ∧
     exec (.pageWrite [p, v]) s = .next ((((s.transfer.set .I3C_H_PTR 0 p).pageStore p v).ptrNext).i3cSend true []) ∧
     (p ≤ 0x0C → s.pageStore p v = s) ∧ (s.pageStore 0x10 v).get .I3C_H_NOTIFY = v % 8 ∧
     (0x80 ≤ p → p ≤ 0xDF → s.get .I3C_H_CMD ≠ 1 → s.get .I3C_H_BUF_OFF + (p - 0x80) < 32768 → s.pageStore p v = s.putByte (cmdBuf + s.get .I3C_H_BUF_OFF + (p - 0x80)) v)) ∧
  (∀ s : State, s.unreachable = false → (s.transfer.get .I3C_H_PTR < 0xF7 → exec (.pageRead 1) s = .next (s.transfer.ptrNext.i3cSend true [s.transfer.pageByte (s.transfer.get .I3C_H_PTR)])) ∧
     (s.pageByte 0 = 0x80 ∧ s.pageByte 1 = 0 ∧ s.pageByte 2 = 1 ∧ s.pageByte 3 = 0x21) ∧
     (s.on .I3C_H_BUSY = false → s.on .I3C_H_HELD = false → s.reach 0xF7 = s.indirectRead ∧ s.reach 0xF8 = s.indirectRead)) ∧
  (∀ s n p rest, s.unreachable = false → (s.get .I3C_H_CMD < 2 → exec .cmdAck s = .next s) ∧ exec (.pageWrite []) s = .next (s.transfer.i3cSend true []) ∧
     exec (.pageWrite (p :: rest)) s = .next ((rest.foldl (fun t v => (t.pageStore (t.get .I3C_H_PTR) (v % 256)).ptrNext) (s.transfer.set .I3C_H_PTR 0 p)).i3cSend true []) ∧
     exec (.pageRead n) s = .next (if (s.transfer.reach (s.transfer.get .I3C_H_PTR)).on .I3C_H_MODE = true ∧ 0xF8 ≤ s.transfer.get .I3C_H_PTR ∧ s.transfer.get .I3C_H_PTR ≤ 0xFB ∧
         (s.transfer.reach (s.transfer.get .I3C_H_PTR)).readPending = true then (s.transfer.reach (s.transfer.get .I3C_H_PTR)).i3cSend false []
       else (s.transfer.pageBytes n []).1.i3cSend true (s.transfer.pageBytes n []).2)) ∧
  (∀ s e n, (s.on .I3C_H_BUSY = true → s.get .I3C_H_PMADE = 0 → s.on .I3C_H_PWRITE = false → exec (.indirectComplete false e) s =
       .next (((s.targetRead (s.get .I3C_H_PADDR) 4 s.portSrc e).1.indirectDone (s.targetRead (s.get .I3C_H_PADDR) 4 s.portSrc e).2.1 (leNat (s.targetRead (s.get .I3C_H_PADDR) 4 s.portSrc e).2.2)).goOn)) ∧
     (s.get .I3C_H_PLATE ≠ 0 → Completes (.indirectComplete true e) s fun t => t.get .I3C_H_PLATE = (s.get .I3C_H_PLATE - 1) % 256 ∧ t.bit .MGT_I3C_EVENTS_EV 0 5 = true ∧ t.get .MGT_I3C_CNT_TIMEOUT = min (s.get .MGT_I3C_CNT_TIMEOUT + 1) (2 ^ 32 - 1)) ∧
     (s.get .I3C_H_RLEFT = n + 1 → s.readPending = true → s.get .I3C_H_PTR + (n + 1) ≤ 0xFC → ∃ u : State, exec .indirectTimeout s = .next (u.i3cSend true (List.replicate (n + 1) 0xFF)) ∧
       u.get .I3C_H_BUSY = 0 ∧ u.get .I3C_H_LAST = statusCode .timeout ∧ u.get .I3C_H_PTR = s.get .I3C_H_PTR + (n + 1) ∧ u.get .I3C_H_IADDR = s.get .I3C_H_IADDR)) ∧
  (∀ s e w, (s.on .I3C_H_BUSY = false → exec (.indirectComplete false e) s = .next s) ∧
     (s.on .I3C_H_BUSY = true → s.get .I3C_H_PMADE ≠ 0 → exec (.indirectComplete false e) s =
       .next (match s.madeStatus (s.get .I3C_H_PMADE - 1) (s.get .I3C_H_PADDR) s.portSrc with | some st => s.indirectDone st 0 | none => s)) ∧
     (s.on .I3C_H_BUSY = true → s.get .I3C_H_PMADE = 0 → s.on .I3C_H_PWRITE = true → w = (s.set .I3C_H_PMADE 0 (s.out.length + 1)).targetWrite (s.get .I3C_H_PADDR) (leBytes 4 (s.get .I3C_H_PDATA)) s.portSrc →
       exec (.indirectComplete false e) s = .next (match w.2, w.1.madeStatus s.out.length (s.get .I3C_H_PADDR) s.portSrc with
         | some st, _ => w.1.indirectDone st 0 | none, some st => w.1.indirectDone st 0 | none, none => w.1)) ∧
     (s.get .I3C_H_PLATE = 0 → exec (.indirectComplete true e) s = .next (if s.get .I3C_H_PSTALE = 0 then s else (s.set .I3C_H_PSTALE 0 (s.get .I3C_H_PSTALE - 1)).staleDrop 0)) ∧
     (s.get .I3C_H_RLEFT = 0 ∨ s.readPending = false → exec .indirectTimeout s = .next s)) ∧
  (∀ s : State, s.get .I3C_H_RLEFT ≠ 0 → s.readPending = true → ∀ k u, k = min (s.get .I3C_H_RLEFT) (0xFC - s.get .I3C_H_PTR) →
     u = (((((((s.set .I3C_H_BUSY 0 0).set .I3C_H_PDROP 0 0).inc .I3C_H_PLATE).set .I3C_H_LAST 0 (statusCode .timeout)).set .I3C_H_RLEFT 0 0).bump .I3C_H_PTR 0 k).pageBytes (s.get .I3C_H_RLEFT - k) (List.replicate k 0xFF)) →
     exec .indirectTimeout s = .next (u.1.i3cSend true u.2))

/-- Commands, common command codes and bus conditions of the management port. -/
def Obligations.PortCommandsComplete : Prop :=
  (∀ q b src (s : State), (s.fwGate src .operator 18 = .ok → src.ini = .i3c → Answers (.portBind src) s src 0x05 .ok (fun t => t.get .MGT_I3C_STATUS_BOUND_SESSION = src.session % 65536) ∧
       Answers (.portUnbind src) s src 0x06 .ok fun t => t.get .MGT_I3C_STATUS_BOUND_SESSION = 0) ∧
     (s.fwGate src .operator 18 = .ok → src.ini ≠ .i3c → q < 256 → s.on .EGR_QP_CFG_CTRL q = true → Answers (.evtForward q b src) s src 0x07 .ok fun t =>
       ∃ f, t.mgt.forward = (s.mgt.forward.filter fun g => g.session != src.session) ++ [f] ∧ f.qp = q ∧ f.session = src.session ∧ f.on = b) ∧
     (s.regReach 0x404 true = .ok → s.roleOf src = .device → ∀ e l, s.evq = e :: l → s.mgt.forward = [] → exec (.evqPop src) s = .next (({ s with evq := l } : State).notify.answer src 0x404 .ok))) ∧
  (∀ data n a k d v (s : State), s.unreachable = true → (∀ i ∈ [Instr.pageWrite data, .pageRead n], exec i s = .next (s.i3cSend false [])) ∧
     ∀ i ∈ [Instr.cmdSubmit, .cmdAck, .entdaa a, .setdasa k a, .rstdaa, .enec v d, .disec v d, .getpid, .getbcr, .getdcr, .getstatus, .getmxds, .rstact v, .cccUnsupported d, .ibiRetry k d, .sclTimeout, .sdaTimeout,
       .busAbort, .sdaRelease, .targetResetPattern], exec i s = .next s) ∧
  (∀ s a, s.unreachable = false → (s.busStart.on .MGT_I3C_STATUS_DA_VALID = false → exec (.entdaa a) s = .next ((s.busStart.takeAddr a).i3cSend true (s.busStart.pidBytes ++ [0x2F, 0])) ∧
       exec (.setdasa s.busStart.staticAddr a) s = .next ((s.busStart.takeAddr a).i3cSend true [])) ∧
     ((s.takeAddr a).get .MGT_I3C_STATUS_DYN_ADDR = a % 128 ∧ (s.takeAddr a).get .MGT_I3C_STATUS_DA_VALID = 1 ∧ (s.takeAddr a).get .I3C_H_MODE = 1) ∧
     Completes .rstdaa s fun t => t.get .MGT_I3C_STATUS_DA_VALID = 0 ∧ t.get .I3C_H_MODE = 0 ∧ t.get .MGT_I3C_STATUS_BOUND_SESSION = s.get .MGT_I3C_STATUS_BOUND_SESSION) ∧
  (∀ s a b e v, s.unreachable = false → (s.busStart.on .MGT_I3C_STATUS_DA_VALID = true → exec (.entdaa a) s = .next s.busStart) ∧
     (s.busStart.on .MGT_I3C_STATUS_DA_VALID = true ∨ b ≠ s.busStart.staticAddr → exec (.setdasa b a) s = .next (s.busStart.i3cSend false [])) ∧
     (s.busStart.on .MGT_I3C_STATUS_DA_VALID = false → ∀ i ∈ [Instr.enec e true, .disec e true, .getpid, .getbcr, .getdcr, .getmxds, .getstatus], exec i s = .next (s.busStart.i3cSend false [])) ∧
     (e.testBit 0 = false → exec (.enec e false) s = .next s.busStart ∧ exec (.disec e false) s = .next s.busStart) ∧
     (s.busStart.on .MGT_I3C_STATUS_DA_VALID = true → exec (.enec e true) s = .next ((if e.testBit 0 then s.busStart.set .MGT_I3C_STATUS_IBI_EN 0 1 else s.busStart).i3cSend true []) ∧
       exec (.disec e true) s = .next ((if e.testBit 0 then s.busStart.set .MGT_I3C_STATUS_IBI_EN 0 0 else s.busStart).i3cSend true [])) ∧
     (2 < v → exec (.rstact v) s = .next (s.busStart.i3cSend false []))) ∧
  (∀ s e, s.unreachable = false → (e.testBit 0 = true → Completes (.enec e false) s (fun t => t.get .MGT_I3C_STATUS_IBI_EN = 1) ∧ Completes (.disec e false) s fun t => t.get .MGT_I3C_STATUS_IBI_EN = 0) ∧
     (s.busStart.on .MGT_I3C_STATUS_DA_VALID = true → exec .getpid s = .next (s.busStart.i3cSend true s.busStart.pidBytes) ∧ exec .getbcr s = .next (s.busStart.i3cSend true [0x2F]) ∧
       exec .getdcr s = .next (s.busStart.i3cSend true [0]) ∧ exec .getmxds s = .next (s.busStart.i3cSend true [0, 0]) ∧
       exec .getstatus s = .next ((s.busStart.set .I3C_H_PROTERR 0 0).i3cSend true [s.busStart.stateByte, bitsSet s.busStart.notifyCauses 3 + 32 * s.busStart.get .I3C_H_PROTERR]))) ∧
  (∀ s v k b, s.unreachable = false → (v ≤ 2 → exec (.rstact v) s = .next ((s.busStart.set .I3C_H_RSTACT 0 v).i3cSend true [])) ∧
     exec (.cccUnsupported true) s = .next (s.busStart.i3cSend false []) ∧ exec (.cccUnsupported false) s = .next s.busStart ∧
     (s.on .MGT_I3C_STATUS_DA_VALID = true → s.on .MGT_I3C_STATUS_IBI_EN = true → s.bit .I3C_H_IBI 0 k = true → exec (.ibiRetry k b) s =
       .next (if b then ((s.inc .MGT_I3C_CNT_IBI_NACK).emit (.ibi (0xA1 + k))).clearBit .I3C_H_IBI 0 k else (s.inc .MGT_I3C_CNT_IBI_NACK).emit (.ibi (0xA1 + k)))) ∧
     (s.on .MGT_I3C_STATUS_DA_VALID = false ∨ s.on .MGT_I3C_STATUS_IBI_EN = false ∨ s.bit .I3C_H_IBI 0 k = false → exec (.ibiRetry k b) s = .next s)) ∧
  (∀ s : State, s.unreachable = false → Completes .sclTimeout s (fun t => t.bit .MGT_I3C_EVENTS_EV 0 0 = true ∧ t.get .I3C_H_RLEFT = 0 ∧ t.get .MGT_I3C_CNT_ABORT = min (s.get .MGT_I3C_CNT_ABORT + 1) (2 ^ 32 - 1)) ∧
     Completes .sdaTimeout s (fun t => t.bit .MGT_I3C_EVENTS_EV 0 1 = true ∧ t.get .I3C_H_RLEFT = 0 ∧ t.get .MGT_I3C_CNT_ABORT = min (s.get .MGT_I3C_CNT_ABORT + 1) (2 ^ 32 - 1)) ∧
     Completes .busAbort s (fun t => t.bit .MGT_I3C_EVENTS_EV 0 2 = true ∧ t.get .I3C_H_RLEFT = 0 ∧ t.get .MGT_I3C_CNT_ABORT = min (s.get .MGT_I3C_CNT_ABORT + 1) (2 ^ 32 - 1) ∧
       (s.on .I3C_H_MODE = true → t.get .I3C_H_PROTERR = 1)) ∧ Completes .sdaRelease s fun t => t.get .I3C_H_SDA = 1) ∧
  (∀ s : State, s.unreachable = false → exec .targetResetPattern s = .next (if s.get .I3C_H_RSTACT = 0 then s.set .I3C_H_RSTACT 0 1
       else if s.get .I3C_H_RSTACT = 2 ∧ s.on .MGT_I3C_CFG_RST_DEV_EN = true then (s.set .I3C_H_RSTACT 0 1).deviceReset 3 else (s.set .I3C_H_RSTACT 0 1).portReset) ∧
     s.portReset.get .MGT_I3C_STATUS_BOUND_SESSION = 0 ∧ s.portReset.bit .MGT_I3C_EVENTS_EV 0 4 = true)

/-- Reference comparison: slots, comparison banks, an alignment tile, fence, reset and counters. -/
def Obligations.ReferenceCommandsComplete : Prop :=
  (∀ sl src (s : State), sl < 2 → s.slotGate sl src = .ok → (s.slotUsed sl = false → s.get .REF_SLOT_CTRL_STATE sl ≠ 1 → Answers (.slotLoad sl src) s src (slotCtrl sl) .ok fun t => t.get .REF_SLOT_CTRL_STATE sl = 1) ∧
     (s.get .REF_SLOT_CTRL_STATE sl = 1 → s.get .REF_SLOT_CTRL_CHECKING sl = 0 → Completes (.slotDone sl src) s fun t => t.get .REF_SLOT_CTRL_CHECKING sl = 1 ∧ t.ref.checks = tabPut s.ref.checks sl src) ∧
     (s.get .REF_SLOT_CTRL_CHECKING sl = 1 → Answers (.slotCheckDone sl) s (tabGet s.ref.checks sl ⟨.mgt, 0⟩) (slotCtrl sl) (if s.slotOk sl then .ok else .integrity) fun t =>
       t.get .REF_SLOT_CTRL_STATE sl = (if s.slotOk sl then 2 else 0) ∧ t.get .REF_SLOT_CTRL_CHECKING sl = 0) ∧
     (s.slotUsed sl = false → Answers (.slotClear sl src) s src (slotCtrl sl) .ok fun t => t.get .REF_SLOT_CTRL_STATE sl = 0 ∧ t.get .REF_SLOT_CTRL_CHECKING sl = 0)) ∧
  (∀ k b o data src (s : State), k < 8 → b < 2 → o + data.length ≤ 0x800 → o < 0x800 → s.gate src .installer 11 = .ok → s.cmpState k b = 0 →
     exec (.cmpWindowWrite (cmpBase k b + o) data src) s = .next ((s.putBytes (cmpBase k b + o) data).answer src 0 .ok)) ∧
  (∀ k mode src (s : State), k < 8 → s.gate src .installer 11 = .ok → (s.refGoCheck k = .ok → Recorded (.refGo k mode src) s src 0 (s.auditRec src 2 2 (cmpBase k (s.cmpCommitBank k))
         (digest16 (s.memBytes (cmpBase k (1 - s.cmpCommitBank k)) 0x800)) (digest16 (s.memBytes (cmpBase k (s.cmpCommitBank k)) 0x800))) fun t =>
       t.cmpState k (s.cmpCommitBank k) = 1 ∧ t.get .REF_H_MODE (2 * k + s.cmpCommitBank k) = mode % 2 ^ Fld.REF_H_MODE.width) ∧
     (s.refCancelCheck k = .ok → Recorded (.refCancel k src) s src 0 (s.auditRec src 1 2 (cmpBase k (s.cmpCommitBank k)) noValue noValue) fun t => t.cmpState k (s.cmpCommitBank k) = 0)) ∧
  (∀ sl src addr data (s : State), (s.slotGate sl src ≠ .ok → ∀ i ∈ [Instr.slotLoad sl src, .slotDone sl src, .slotClear sl src], exec i s = .next (s.answer src (slotCtrl sl) (s.slotGate sl src))) ∧
     (s.slotGate sl src = .ok → (s.slotUsed sl = true ∨ s.get .REF_SLOT_CTRL_STATE sl = 1 → exec (.slotLoad sl src) s = .next (s.answer src (slotCtrl sl) .state)) ∧
       (s.get .REF_SLOT_CTRL_STATE sl ≠ 1 ∨ s.on .REF_SLOT_CTRL_CHECKING sl = true → exec (.slotDone sl src) s = .next (s.answer src (slotCtrl sl) .state)) ∧
       (s.slotUsed sl = true → exec (.slotClear sl src) s = .next (s.answer src (slotCtrl sl) .state))) ∧
     (s.on .REF_SLOT_CTRL_CHECKING sl = false → exec (.slotCheckDone sl) s = .next s) ∧
     ((addr < 0x350000 ∨ 8 ≤ (addr - 0x350000) / 0x1000 ∨ 0x800 < (addr - 0x350000) % 0x800 + data.length) → exec (.cmpWindowWrite addr data src) s = .next (s.answer src 0 .range)) ∧
     (0x350000 ≤ addr → (addr - 0x350000) / 0x1000 < 8 → (addr - 0x350000) % 0x800 + data.length ≤ 0x800 →
       (s.gate src .installer 11 ≠ .ok → exec (.cmpWindowWrite addr data src) s = .next (s.answer src 0 (s.gate src .installer 11))) ∧
       (s.gate src .installer 11 = .ok → s.cmpState ((addr - 0x350000) / 0x1000) ((addr - 0x350000) / 0x800 % 2) ≠ 0 → exec (.cmpWindowWrite addr data src) s = .next (s.answer src 0 .state)))) ∧
  (∀ k seq a t e s u f b, (s.ref.tiles.find? fun u => u.k == k && u.seq == seq && u.row == t / 4 && u.col == a / 4) = some u → (u.parts.any fun p => p.i == 4 * (t % 4) + a % 4) = false →
     (s.refBegin k seq).refFrame? k seq = some f → f.bank = some b → ∃ (p : RefPart) (z : Bool), p.i = 4 * (t % 4) + a % 4 ∧ (t % 4 < u.cut → p.cause = 7) ∧ (u.cut ≤ t % 4 → e = true → p.cause = 5) ∧
       Completes (.alignmentTile k seq a t e) s fun t => t.ref.tiles = if u.parts.length = 15 then s.ref.tiles.filter fun v => !(v.k == u.k && v.seq == u.seq && v.row == u.row && v.col == u.col)
         else s.ref.tiles.map fun v => if v.k == u.k && v.seq == u.seq && v.row == u.row && v.col == u.col then { u with parts := u.parts ++ [p], sent := z } else v) ∧
  (∀ k seq a t e (s : State), ((s.ref.tiles.find? fun u => u.k == k && u.seq == seq && u.row == t / 4 && u.col == a / 4) = none → exec (.alignmentTile k seq a t e) s = .next s) ∧
     ∀ u, (s.ref.tiles.find? fun u => u.k == k && u.seq == seq && u.row == t / 4 && u.col == a / 4) = some u → ((u.parts.any fun p => p.i == 4 * (t % 4) + a % 4) = true → exec (.alignmentTile k seq a t e) s = .next s) ∧
       ((u.parts.any fun p => p.i == 4 * (t % 4) + a % 4) = false → ((s.refBegin k seq).refFrame? k seq = none ∨ ∃ f, (s.refBegin k seq).refFrame? k seq = some f ∧ f.bank = none) → exec (.alignmentTile k seq a t e) s = .next (s.refBegin k seq))) ∧
  (∀ src (s : State), (s.gate src .installer 11 = .ok → Recorded (.refFence src) s src 0 (s.writeRec src 0x340880 1) (fun t => t.get .REF_CTRL_FENCE = 1) ∧
       Recorded (.refReset src) s src 0 (s.writeRec src 0x340880 2) fun t => t.get .PWR_H_RESETTING 11 = 1) ∧
     (s.get .REF_CTRL_FENCE = 1 → (s.ref.frames.any fun f => f.bank.isSome) = false → Completes .refFenceDone s fun t => t.get .REF_CTRL_FENCED = 1) ∧
     (s.get .REF_CTRL_FENCE = 0 ∨ (s.ref.frames.any fun f => f.bank.isSome) = true → exec .refFenceDone s = .next s) ∧
     (s.gate src .operator 11 = .ok → Answers (.refClrCnt src) s src 0 .ok fun t => ∀ k < 8, ∀ f ∈ [Fld.REF_CNT_TILES, .REF_CNT_ALIGN_FAIL, .REF_CNT_REFERR, .REF_CNT_CAND, .REF_CNT_CAND_SKIP, .REF_CNT_PATCH_SKIP, .REF_CNT_NOREF, .REF_CNT_MARK_STRAY, .REF_CNT_CCLIP], t.get f k = 0))

/-- The blanket merger: rows, tile lines, join windows, layout banks and counters. -/
def Obligations.MergerCommandsComplete : Prop :=
  (∀ r rest (s : State), (s.pipe.toMerger = [] → exec .memberRowArrival s = .next s) ∧ (s.pipe.toMerger = r :: rest → Completes .memberRowArrival s (fun t => t.pipe.toMerger = rest) ∧
     ((∀ b ∈ s.blankets, (b.members.find? fun q => q.ch == r.ch && q.seq == r.seq && !q.absent) = none) → exec .memberRowArrival s = .next { s with pipe := { s.pipe with toMerger := rest } }) ∧
     ∀ b q u, s.blankets = [b] → (b.members.find? fun q => q.ch == r.ch && q.seq == r.seq && !q.absent) = some q → u = (({ s with pipe := { s.pipe with toMerger := rest } } : State).onBlanket b.k b.seq fun f =>
         { f with rows := f.rows ++ [⟨q.m, r.y, ((r.planes.take (s.layPlanes (layBase b.k b.bank))).zip (List.range (s.layPlanes (layBase b.k b.bank)))).map fun x => x.1.map (s.toned (layBase b.k b.bank) x.2), r.filled⟩] }) →
       exec .memberRowArrival s = .next (((u.seams (layBase b.k b.bank)).foldl (fun t e => t.seamCheck b.k b.seq e 4) u).trimRows b.k b.seq))) ∧
  (∀ k seq c f u gone (s : State), s.blanket? k seq = some f → (f.cols.find? fun t => t.col == c) = some u → u.next < s.layBh (layBase k f.bank) → s.lineReady (layBase k f.bank) f c u.next = true →
     gone = ([0, 1].filter fun d => s.ownsExt (layBase k f.bank) d && seamCol (s.seamExt (layBase k f.bank) d) == c && !(f.remote.any fun r => r.side == d && r.v == u.next)) →
     (gone = [] → u.lines.length ≠ 255 → Completes (.tileLineEmit k seq c) s fun t => ∃ g x, t.blanket? k seq = some g ∧ g.cols.find? (fun y => y.col == c) = some x ∧ x.next = u.next + 1 ∧
       x.lines = u.lines ++ [(((List.range 256).map fun n => s.pixel (layBase k f.bank) f [] (256 * c + n) u.next).map fun q => q.1.getD (List.replicate (s.layPlanes (layBase k f.bank)) (s.layFill (layBase k f.bank))),
         ((List.range 256).map fun n => s.pixel (layBase k f.bank) f [] (256 * c + n) u.next).map fun q => q.1.isSome)]) ∧
     (gone = [] → u.lines.length = 255 → Completes (.tileLineEmit k seq c) s fun t => t.get .MRG_CNT_TILES k = min (s.get .MRG_CNT_TILES k + 1) (2 ^ 32 - 1)) ∧
     (gone ≠ [] → exec (.tileLineEmit k seq c) s = .next (((s.emitLine k seq c (gone.map Side.remote) true).inc .MRG_CNT_SEAM_MISS k).mrgEvent k 2 seq 0xFF))) ∧
  (∀ k seq c f u (s : State), (s.blanket? k seq = none → exec (.tileLineEmit k seq c) s = .next s) ∧ (s.blanket? k seq = some f → ((f.cols.find? fun t => t.col == c) = none → exec (.tileLineEmit k seq c) s = .next s) ∧
     ((f.cols.find? fun t => t.col == c) = some u → s.layBh (layBase k f.bank) ≤ u.next ∨ s.lineReady (layBase k f.bank) f c u.next = false → exec (.tileLineEmit k seq c) s = .next s))) ∧
  (∀ k seq f (s : State), (s.blanket? k seq = none → exec (.joinWindowClose k seq) s = .next s) ∧ (s.blanket? k seq = some f → (f.window = false → exec (.joinWindowClose k seq) s = .next s) ∧
     (f.window = true → Completes (.joinWindowClose k seq) s fun t => ∃ g, t.blanket? k seq = some g ∧ g.window = false ∧ ∀ m < s.layMembers (layBase k f.bank), (f.members.any fun q => q.m == m) = false → g.absent.testBit m = true))) ∧
  (∀ k b o data mode src addr (s : State), (s.gate src .installer 10 ≠ .ok → exec (.layoutWindowWrite addr data src) s = .next (s.answer src 0 (s.gate src .installer 10))) ∧
     (k < 8 → b < 2 → s.gate src .installer 10 = .ok → (o + data.length ≤ 0x2000 → o < 0x2000 → s.layState k b = 0 →
       exec (.layoutWindowWrite (layBase k b + o) data src) s = .next ((s.putBytes (layBase k b + o) data).answer src 0 .ok)) ∧
     ((addr < 0x310000 ∨ 8 ≤ (addr - 0x310000) / 0x4000 ∨ 0x2000 < (addr - 0x310000) % 0x2000 + data.length) → exec (.layoutWindowWrite addr data src) s = .next (s.answer src 0 .range)) ∧
     (o + data.length ≤ 0x2000 → o < 0x2000 → s.layState k b ≠ 0 → exec (.layoutWindowWrite (layBase k b + o) data src) s = .next (s.answer src 0 .state)) ∧
     (s.mrgGoCheck k = .ok → Recorded (.mrgGo k mode src) s src 0 (s.auditRec src 2 2 (layBase k (s.layCommitBank k)) (digest16 (s.memBytes (layBase k (1 - s.layCommitBank k)) 0x2000)) (digest16 (s.memBytes (layBase k (s.layCommitBank k)) 0x2000)))
       fun t => t.layState k (s.layCommitBank k) = 1 ∧ t.get .MRG_H_MODE (2 * k + s.layCommitBank k) = mode % 2 ^ Fld.MRG_H_MODE.width) ∧
     (s.mrgCancelCheck k = .ok → Recorded (.mrgCancel k src) s src 0 (s.auditRec src 1 2 (layBase k (s.layCommitBank k)) noValue noValue) fun t => t.layState k (s.layCommitBank k) = 0))) ∧
  (∀ k src (s : State), (s.gate src .operator 10 = .ok → Answers (.mrgClrCnt src) s src 0 .ok fun t => ∀ k < 8, ∀ f ∈ [Fld.MRG_CNT_ABSENT, .MRG_CNT_SEAM_MISS, .MRG_CNT_SEAM_LATE, .MRG_CNT_LATE, .MRG_CNT_NOLAYOUT, .MRG_CNT_TILES], t.get f k = 0) ∧
     Answers (.holdMaxRead k src) s src 0 .ok fun t => t.out.getLast? = some (.reply src 0 (leBytes 4 (s.mrgStatusWord k))) ∧ t.get .MRG_BL_STATUS_HOLD_MAX k = 0)

/-- The seams between devices: sending, receiving and waiting. -/
def Obligations.MergerSeamsComplete : Prop :=
  (∀ k seq side f v0 n sp rows (s : State), (s.blanket? k seq = none → exec (.seamPacketSend k seq side) s = .next s) ∧
     (s.blanket? k seq = some f → v0 = (if side = 0 then f.sentL else f.sentR) → sp = s.seamSpan (layBase k f.bank) side → n = ((List.range 16).takeWhile fun i => decide (v0 + i < s.layBh (layBase k f.bank)) &&
         ((List.range (s.layMembers (layBase k f.bank))).filter fun m => decide ((s.owned (layBase k f.bank) m).1 < sp.1 + sp.2) && decide (sp.1 < (s.owned (layBase k f.bank) m).2)).all fun m =>
           s.memberReady (layBase k f.bank) f m (seamCol (s.seamExt (layBase k f.bank) side)) (v0 + i)).length →
       rows = (List.range n).map (fun i => s.seamRow (layBase k f.bank) f sp.1 sp.2 (v0 + i)) →
       (s.layExt (layBase k f.bank) side = false ∨ s.ownsExt (layBase k f.bank) side = true ∨ n = 0 → exec (.seamPacketSend k seq side) s = .next s) ∧
       (s.layExt (layBase k f.bank) side = true → s.ownsExt (layBase k f.bank) side = false → n ≠ 0 → exec (.seamPacketSend k seq side) s = .next (((((s.bump .MRG_H_SEAM_TAG (2 * k + side) 1).onBlanket k seq fun g =>
           if side = 0 then { g with sentL := v0 + n } else { g with sentR := v0 + n }).sendSeam (((s.bump .MRG_H_SEAM_TAG (2 * k + side) 1).onBlanket k seq fun g =>
           if side = 0 then { g with sentL := v0 + n } else { g with sentR := v0 + n }).par (layBase k f.bank) (30 + side) 1) (leBytes 4 (s.get .MRG_H_SEAM_TAG (2 * k + side)) ++
         [s.par (layBase k f.bank) (32 + side) 1, s.layPlanes (layBase k f.bank), n, 0] ++ leBytes 8 f.t0 ++ leBytes 2 f.job ++ leBytes 2 v0 ++ leBytes 4 sp.1 ++ leBytes 2 sp.2 ++ List.replicate 6 0 ++
         rows.flatMap (fun r => r.1.flatten) ++ rows.flatMap fun r => packBits (ceilDiv sp.2 8) r.2)).trimRows k seq).blanketEnd k seq)))) ∧
  (∀ b f c base next (s : State), c = leAt b 20 4 / 256 → base = layBase (b.getD 4 0 % 8) f.bank → next = (match f.cols.find? fun t => t.col == c with | some t => t.next | none => 0) →
     ((s.blankets.find? fun f => f.k == b.getD 4 0 % 8 && f.job == leAt b 16 2 && decide (absDiff (leAt b 8 8) f.t0 ≤ s.layJoinNs (layBase (b.getD 4 0 % 8) f.bank)) && [0, 1].any fun d => s.ownsExt (layBase (b.getD 4 0 % 8) f.bank) d &&
         seamCol (s.seamExt (layBase (b.getD 4 0 % 8) f.bank) d) == c) = none → exec (.seamPacketReceived b) s = .next (s.inc .MRG_CNT_SEAM_LATE (b.getD 4 0 % 8))) ∧
     ((s.blankets.find? fun f => f.k == b.getD 4 0 % 8 && f.job == leAt b 16 2 && decide (absDiff (leAt b 8 8) f.t0 ≤ s.layJoinNs (layBase (b.getD 4 0 % 8) f.bank)) && [0, 1].any fun d => s.ownsExt (layBase (b.getD 4 0 % 8) f.bank) d &&
         seamCol (s.seamExt (layBase (b.getD 4 0 % 8) f.bank) d) == c) = some f →
       (min (s.layBh base) ((leAt b 18 2 + b.getD 6 0 - 1) / 16 * 16 + 16) ≤ next → exec (.seamPacketReceived b) s = .next (s.inc .MRG_CNT_SEAM_LATE (b.getD 4 0 % 8))) ∧
       (next < min (s.layBh base) ((leAt b 18 2 + b.getD 6 0 - 1) / 16 * 16 + 16) → ∀ u : State, u = s.onBlanket (b.getD 4 0 % 8) f.seq (fun f => { f with remote := f.remote ++ (seamRows (if s.ownsExt base 0 && seamCol (s.seamL base) == c then 0 else 1) b).filter (fun r => decide (next ≤ r.v)) }) →
         exec (.seamPacketReceived b) s = .next ((u.seams base).foldl (fun t q => t.seamCheck (b.getD 4 0 % 8) f.seq q 32) u)))) ∧
  (∀ k seq side f c u vs (s : State), (s.blanket? k seq = none → exec (.seamWaitExpiry k seq side) s = .next s) ∧ (s.blanket? k seq = some f → c = seamCol (s.seamExt (layBase k f.bank) side) →
     ((f.cols.find? fun t => t.col == c) = none → exec (.seamWaitExpiry k seq side) s = .next s) ∧
     ((f.cols.find? fun t => t.col == c) = some u → vs = (List.range (min (s.layBh (layBase k f.bank)) (u.next / 16 * 16 + 16) - u.next)).map (u.next + ·) →
       (s.ownsExt (layBase k f.bank) side = true ∧ (vs.all fun v => f.remote.any fun r => r.side == side && r.v == v) = false ∧
           (vs.all fun v => ((s.colSides (layBase k f.bank) c).filter (· != Side.remote side)).all (s.sideReady (layBase k f.bank) f c v)) = true →
         Completes (.seamWaitExpiry k seq side) s fun t => t.bit .MRG_BL_EVENTS_EV k 2 = true) ∧
       (s.ownsExt (layBase k f.bank) side = false ∨ (vs.all fun v => f.remote.any fun r => r.side == side && r.v == v) = true ∨
           (vs.all fun v => ((s.colSides (layBase k f.bank) c).filter (· != Side.remote side)).all (s.sideReady (layBase k f.bank) f c v)) = false → exec (.seamWaitExpiry k seq side) s = .next s))))

/-- Egress: a delivery begins, waits or is refused, and a class B budget ends. -/
def Obligations.EgressDeliveryCommandsComplete : Prop :=
  (∀ i o u (s : State), s.egr.offers[i]? = some o → (s.egr.offers.take i).any (fun e => e.stream == o.stream) = false → (s.classCWaits o = false ∨ (s.refusal o).isSome = true) →
     u = ({ s with egr := { s.egr with offers := s.egr.offers.take i ++ s.egr.offers.drop (i + 1) } } : State).bump .EGR_STR_H_SEQ o.stream 1 →
     (u.refusal o = none → Completes (.deliveryStart i) s fun t => ∃ d : Delivery, t.egr.queue.map (fun d => { d with rows := [] }) = (s.egr.queue ++ [d]).map (fun d => { d with rows := [] }) ∧ d.o = { o with payload := [] } ∧
       d.dseq = s.get .EGR_STR_H_SEQ o.stream ∧ d.cls = kindClass o.kind ∧ d.port = u.strPort o.stream ∧ d.qp = u.strQp o.stream ∧ d.sent = 0 ∧ d.started = false ∧ d.finished = false ∧ d.queuedAt = u.elapsed) ∧
     ∀ c, u.refusal o = some c → (o.kind = 7 → exec (.deliveryStart i) s = .next (u.inc .EGR_STR_CNT_DROP o.stream)) ∧
       (o.kind ≠ 7 → exec (.deliveryStart i) s = .next ((if kindClass o.kind = 0 then u.onStrFrame o.stream o.source o.fseq fun f => { f with refused := f.refused + 1 } else u).drop
         o.stream o.source o.fseq (s.get .EGR_STR_H_SEQ o.stream) c o.row o.col (if o.open' && kindClass o.kind = 0 then 0 else o.size) (kindClass o.kind = 1)))) ∧
  (∀ i o (s : State), (s.egr.offers[i]? = none → exec (.deliveryStart i) s = .next s) ∧ (s.egr.offers[i]? = some o → ((s.egr.offers.take i).any (fun e => e.stream == o.stream) = true ∨ (s.classCWaits o = true ∧ s.refusal o = none)) →
     exec (.deliveryStart i) s = .next s)) ∧
  (∀ st dseq d (s : State), (s.egr.queue.find? (fun d => d.o.stream == st && d.dseq == dseq) = none → exec (.classBBudgetExpiry st dseq) s = .next s) ∧
     (s.egr.queue.find? (fun d => d.o.stream == st && d.dseq == dseq) = some d → (d.cls = 1 ∧ d.started = false ∧ d.queuedAt + 1000000 * s.get .EGR_STR_RATE_BUDGET_MS st ≤ s.elapsed → exec (.classBBudgetExpiry st dseq) s = .next ((s.refuseQueued d 8).nextHead st)) ∧
       (d.cls ≠ 1 ∨ d.started = true ∨ s.elapsed < d.queuedAt + 1000000 * s.get .EGR_STR_RATE_BUDGET_MS st → exec (.classBBudgetExpiry st dseq) s = .next s)))

/-- Egress: what a port sends next, and its stops. -/
def Obligations.EgressSendingComplete : Prop :=
  (∀ p q (s : State), s.portCount ≤ p ∨ s.on .EGR_PORT_STATUS_LINK p = false ∨ s.elapsed < s.get .EGR_PORT_H_PAUSE p → exec (.portSend p q) s = .next s) ∧
  (∀ p q u v (s : State), p < s.portCount → s.on .EGR_PORT_STATUS_LINK p = true → s.get .EGR_PORT_H_PAUSE p ≤ s.elapsed → u = s.markRingFull p → v = u.gainCredit p →
     (∀ t n w, q = some (t, n) → p = 0 → u.ctlRoom p 98 = true → w = (((u.emit (.ptpTx p t n u.now)).inc .EGR_PORT_CNT_TX p).ctlUse p 98) →
       exec (.portSend p q) s = .next (if w.on .SYN_PTP_CFG_EN && ptpEventMsg t then w.ptpTxStamp ⟨n, t, w.now⟩ else w)) ∧
     (q = none ∨ p ≠ 0 ∨ u.ctlRoom p 98 = false → ∀ g, g = ((u.resendNext p 3).filter fun k => u.ctlRoom p (u.wireBytes p k.qp k.op k.data.length)) →
       (∀ k, g = some k → exec (.portSend p q) s = .next ((u.sendAgain p k).ctlUse p (u.wireBytes p k.qp k.op k.data.length))) ∧
       (g = none → (∀ i c, u.ctlNext p = some (i, c) → exec (.portSend p q) s = .next (u.sendCtlPacket p i c)) ∧
         (u.ctlNext p = none → (v.pickClass p = none → exec (.portSend p q) s = .next v) ∧ ∀ c, v.pickClass p = some c →
           (∀ k, v.resendNext p c = some k → exec (.portSend p q) s = .next ((v.sendAgain p k).set .EGR_PORT_H_CREDIT (4 * p + c) (v.get .EGR_PORT_H_CREDIT (4 * p + c) - (k.data.length + k.n)))) ∧
           (v.resendNext p c = none → (∀ d, v.classNext p c = some d → exec (.portSend p q) s = .next (v.sendData p d)) ∧ (v.classNext p c = none → exec (.portSend p q) s = .next v))))))

/-- Egress: acknowledgements, NAKs, their timers and the current rate. -/
def Obligations.EgressAcknowledgementsComplete : Prop :=
  (∀ q psn ce u l (s : State), u = s.countCe q ce → (s.get .EGR_QP_STATUS_STATE q ≠ 1 ∨ ((s.egr.pkts.filter fun k => k.qp == q).any fun k => k.psn == psn) = false → exec (.ackReceived q psn ce) s = .next u) ∧
     (s.get .EGR_QP_STATUS_STATE q = 1 → ((s.egr.pkts.filter fun k => k.qp == q).any fun k => k.psn == psn) = true →
     l = ((s.egr.pkts.filter fun k => k.qp == q).drop (((s.egr.pkts.filter fun k => k.qp == q).map (·.psn)).idxOf psn + 1)).map (·.psn) →
     Completes (.ackReceived q psn ce) s fun t => t.egr.pkts = (s.egr.pkts.filter fun k => !(k.qp == q && !l.contains k.psn)) ∧ t.get .EGR_QP_H_RETRY q = 0 ∧ t.get .EGR_QP_H_RNR q = 0 ∧
       t.egr.queue = (((s.egr.pkts.filter fun k => k.qp == q).take (((s.egr.pkts.filter fun k => k.qp == q).map (·.psn)).idxOf psn + 1)).foldl (fun (s : State) k => s.ackPacket k) u).egr.queue) ∧
     ∀ k, (k.stream = 0 → s.ackPacket k = s) ∧ (k.stream ≠ 0 → k.op = .writeImm → (s.ackPacket k).egr.queue = s.egr.queue.filter fun e => !(e.o.stream == k.stream && e.dseq == k.dseq)) ∧
       (k.stream ≠ 0 → k.op ≠ .writeImm → s.ackPacket k = s.onDelivery k.stream k.dseq fun d => d.release k.n)) ∧
  (∀ q psn syn ce u v (s : State), u = s.countCe q ce → v = u.set .EGR_QP_STATUS_SYNDROME q syn → (∀ k, s.get .EGR_QP_STATUS_STATE q ≠ 1 ∨ s.on .EGR_QP_CFG_MODE q = true → exec (.nakReceived q psn ⟨k, syn⟩ ce) s = .next u) ∧
     (s.get .EGR_QP_STATUS_STATE q = 1 → s.on .EGR_QP_CFG_MODE q = false →
       ((s.egr.pkts.any fun k => k.qp == q && k.psn == psn) = true → exec (.nakReceived q psn ⟨.sequence, syn⟩ ce) s = .next (v.qpRetry q psn)) ∧
       ((s.egr.pkts.any fun k => k.qp == q && k.psn == psn) = false → exec (.nakReceived q psn ⟨.sequence, syn⟩ ce) s = .next v ∧ exec (.nakReceived q psn ⟨.rnr, syn⟩ ce) s = .next v) ∧
       ((s.egr.pkts.any fun k => k.qp == q && k.psn == psn) = true → s.get .EGR_QP_CFG_RNR_RETRY q = 7 ∨ s.get .EGR_QP_H_RNR q < s.get .EGR_QP_CFG_RNR_RETRY q → exec (.nakReceived q psn ⟨.rnr, syn⟩ ce) s =
         .next (((v.inc .EGR_QP_H_RNR q).set .EGR_QP_H_RNRWAIT q 1).set .EGR_QP_H_RNRPSN q psn)) ∧
       ((s.egr.pkts.any fun k => k.qp == q && k.psn == psn) = true → s.get .EGR_QP_CFG_RNR_RETRY q ≠ 7 → s.get .EGR_QP_CFG_RNR_RETRY q ≤ s.get .EGR_QP_H_RNR q → exec (.nakReceived q psn ⟨.rnr, syn⟩ ce) s = .next (v.qpError q 2)) ∧
       exec (.nakReceived q psn ⟨.access, syn⟩ ce) s = .next (v.qpError q 3) ∧ exec (.nakReceived q psn ⟨.operational, syn⟩ ce) s = .next (v.qpError q 4) ∧ exec (.nakReceived q psn ⟨.invalid, syn⟩ ce) s = .next (v.qpError q 5)) ∧
     ∀ c, (s.qpError q c).get .EGR_QP_STATUS_STATE q = 2) ∧
  (∀ q psn (s : State), (s.oldest q = none → exec (.qpRetryTimeout q) s = .next s) ∧
     (s.oldest q = some psn → (s.get .EGR_QP_STATUS_STATE q = 1 ∧ s.on .EGR_PORT_STATUS_LINK (s.get .EGR_QP_CFG_PORT q) = true ∧ s.on .EGR_QP_H_RNRWAIT q = false → exec (.qpRetryTimeout q) s = .next (s.qpRetry q psn)) ∧
       (s.get .EGR_QP_STATUS_STATE q ≠ 1 ∨ s.on .EGR_PORT_STATUS_LINK (s.get .EGR_QP_CFG_PORT q) = false ∨ s.on .EGR_QP_H_RNRWAIT q = true → exec (.qpRetryTimeout q) s = .next s)) ∧
     (s.get .EGR_QP_STATUS_STATE q = 1 ∧ s.on .EGR_QP_H_RNRWAIT q = true ∧ s.on .EGR_PORT_STATUS_LINK (s.get .EGR_QP_CFG_PORT q) = true → exec (.rnrTimer q) s =
       .next (if s.egr.pkts.any fun k => k.qp == q && k.psn == s.get .EGR_QP_H_RNRPSN q then ((s.set .EGR_QP_H_RNRWAIT q 0).inc .EGR_QP_CNT_RETX q).qpResend q (s.get .EGR_QP_H_RNRPSN q) else s.set .EGR_QP_H_RNRWAIT q 0)) ∧
     (s.get .EGR_QP_STATUS_STATE q ≠ 1 ∨ s.on .EGR_QP_H_RNRWAIT q = false ∨ s.on .EGR_PORT_STATUS_LINK (s.get .EGR_QP_CFG_PORT q) = false → exec (.rnrTimer q) s = .next s)) ∧
  (∀ q ce u (s : State), u = s.countCe q ce → (s.get .EGR_QP_STATUS_STATE q = 1 ∧ s.on .EGR_QP_CFG_MODE q = false ∧ (s.on .EGR_QP_H_CNPV q = false ∨ 50000 ≤ s.elapsed - s.get .EGR_QP_H_CNPT q) → Completes (.cnpReceived ⟨q, ce⟩) s fun t =>
       t.get .EGR_QP_RATE_RC_MBPS q = (max (s.get .EGR_QP_RATE_RC_MBPS q * (256 - s.get .EGR_CNP_CFG_DEC) / 256) (s.get .EGR_CNP_RMIN)) % 2 ^ Fld.EGR_QP_RATE_RC_MBPS.width ∧ t.get .EGR_QP_H_CNPV q = 1 ∧ t.get .EGR_QP_CNT_CNP q = min (s.get .EGR_QP_CNT_CNP q + 1) (2 ^ 32 - 1)) ∧
     (s.get .EGR_QP_STATUS_STATE q ≠ 1 ∨ s.on .EGR_QP_CFG_MODE q = true ∨ (s.on .EGR_QP_H_CNPV q = true ∧ s.elapsed - s.get .EGR_QP_H_CNPT q < 50000) → exec (.cnpReceived ⟨q, ce⟩) s = .next u) ∧
     (s.get .EGR_QP_STATUS_STATE q = 1 ∧ s.on .EGR_PORT_STATUS_LINK (s.get .EGR_QP_CFG_PORT q) = true ∧ (s.on .EGR_QP_H_CNPV q = false ∨ 1000 * s.get .EGR_CNP_CFG_INC_US ≤ s.elapsed - s.get .EGR_QP_H_CNPT q) → exec (.cnpRateInc q) s =
       .next (s.set .EGR_QP_RATE_RC_MBPS q (min (s.get .EGR_QP_RATE_RC_MBPS q + s.get .EGR_CNP_CFG_INC) s.portRate))) ∧
     (s.get .EGR_QP_STATUS_STATE q ≠ 1 ∨ s.on .EGR_PORT_STATUS_LINK (s.get .EGR_QP_CFG_PORT q) = false ∨ (s.on .EGR_QP_H_CNPV q = true ∧ s.elapsed - s.get .EGR_QP_H_CNPT q < 1000 * s.get .EGR_CNP_CFG_INC_US) → exec (.cnpRateInc q) s = .next s))

/-- Egress: queue pairs, links, pauses, rings, logs, the fence, the reset and the counters. -/
def Obligations.EgressPortCommandsComplete : Prop :=
  (∀ q src (s : State), q < 256 → s.gate src .installer 13 = .ok → (s.qpEnableCheck q = .ok → Recorded (.qpEnable q src) s src 0 (s.writeRec src (0x420000 + 0x80 * q) 1) fun t =>
       t.get .EGR_QP_STATUS_STATE q = 1 ∧ t.get .EGR_QP_H_PSN q = s.get .EGR_QP_PSN_PSN_INIT q % 2 ^ Fld.EGR_QP_H_PSN.width ∧ t.get .EGR_QP_RATE_RC_MBPS q = s.portRate % 2 ^ Fld.EGR_QP_RATE_RC_MBPS.width) ∧
     Recorded (.qpReset q src) s src 0 (s.writeRec src (0x420000 + 0x80 * q) 2) fun t => t.get .EGR_QP_STATUS_STATE q = 0) ∧
  (∀ p pfc prio ns (s : State), (s.on .EGR_PORT_STATUS_LINK p = true → Completes (.egressLinkDown p) s fun t => t.get .EGR_PORT_STATUS_LINK p = 0 ∧ t.get .EGR_PORT_STATUS_ALIGN p = 0 ∧ t.bit .EGR_PORT_STATUS_LINK_DOWN p 0 = true) ∧
     (s.on .EGR_PORT_STATUS_LINK p = false → exec (.egressLinkDown p) s = .next s) ∧ (s.portCount ≤ p → exec (.egressLinkUp p) s = .next s) ∧
     (p < s.portCount → Completes (.egressLinkUp p) s fun t => t.get .EGR_PORT_STATUS_LINK p = 1 ∧ t.get .EGR_PORT_STATUS_ALIGN p = 1 ∧ t.egr.pkts = s.egr.pkts) ∧
     ((if pfc then s.on .EGR_PORT_CFG_PFC_EN p && prio == s.get .EGR_PORT_CFG_PFC_PRIO p else s.on .EGR_PORT_CFG_PAUSE_EN p) = true → Completes (.pauseFrameReceived p pfc prio ns) s fun t =>
       t.get .EGR_PORT_H_PAUSE p = (s.elapsed + ns) % 2 ^ Fld.EGR_PORT_H_PAUSE.width ∧ t.get .EGR_PORT_CNT_PAUSE p = min (s.get .EGR_PORT_CNT_PAUSE p + 1) (2 ^ 32 - 1)) ∧
     ((if pfc then s.on .EGR_PORT_CFG_PFC_EN p && prio == s.get .EGR_PORT_CFG_PFC_PRIO p else s.on .EGR_PORT_CFG_PAUSE_EN p) = false → exec (.pauseFrameReceived p pfc prio ns) s = .next s) ∧
     Completes (.rxFrameDiscard p) s fun t => t.get .EGR_PORT_CNT_RXBAD p = min (s.get .EGR_PORT_CNT_RXBAD p + 1) (2 ^ 32 - 1)) ∧
  (∀ st c src (s : State), s.gate src .operator 13 = .ok → (0 < st → st < 256 → Answers (.strConsWrite st c src) s src 0 .ok fun t =>
       if (s.get .EGR_STR_PROD_P st + 2 ^ 32 - c % 2 ^ 32) % 2 ^ 32 ≤ s.get .EGR_STR_SLOTS st then t.get .EGR_STR_CONS_C st = c % 2 ^ 32 else t.bit .EGR_STR_STATUS_EV st 2 = true ∧ t.get .EGR_STR_CONS_C st = s.get .EGR_STR_CONS_C st) ∧
     Answers (.egrDropPop src) s src 0 .ok (fun t => t.egr.drops = s.egr.drops.drop 1) ∧
     Answers (.egrLatePop src) s src 0 .ok fun t => t.egr.late = s.egr.late.drop 1 ∧ (t.egr.late = [] → t.get .EGR_H_LATE_ERR = 0)) ∧
  (∀ p sel v src (s : State), p < s.portCount → s.gate src .installer 13 = .ok → Recorded (.classDelaySet p sel v src) s src 0 (s.writeRec src (0x40003C + 0x400 * p) (v % 2 ^ 24 + 2 ^ 30 + sel % 2 * 2 ^ 31)) fun t =>
     (sel = 1 → t.get .EGR_CLASS_H_DELAY_A p = v % 2 ^ Fld.EGR_CLASS_H_DELAY_A.width) ∧ (sel ≠ 1 → t.get .EGR_CLASS_H_DELAY_B p = v % 2 ^ Fld.EGR_CLASS_H_DELAY_B.width)) ∧
  (∀ src (s : State), (s.gate src .installer 13 = .ok → Recorded (.egrFence src) s src 0 (s.writeRec src 0x430000 1) (fun t => t.get .EGR_CTRL_FENCE = 1 ∧ ∀ q < 256, s.on .EGR_QP_CFG_CTRL q = true → t.get .EGR_QP_STATUS_STATE q ≠ 1) ∧
       Recorded (.egrReset src) s src 0 (s.writeRec src 0x430000 2) fun t => t.get .PWR_H_RESETTING 13 = 1) ∧
     (s.on .EGR_CTRL_FENCE = true → s.egr.queue = [] → Completes .egrFenceDone s fun t => t.get .EGR_CTRL_FENCED = 1) ∧ (s.on .EGR_CTRL_FENCE = false ∨ s.egr.queue ≠ [] → exec .egrFenceDone s = .next s) ∧
     (s.gate src .operator 13 = .ok → Answers (.egrClrCnt src) s src 0 .ok fun t => (∀ p < 8, ∀ f ∈ [Fld.EGR_PORT_CNT_TX, .EGR_PORT_CNT_RXBAD, .EGR_PORT_CNT_PAUSE, .EGR_PORT_CNT_CE], t.get f p = 0) ∧
       ∀ i < 256, ∀ f ∈ [Fld.EGR_STR_CNT_DELIV, .EGR_STR_CNT_DROP, .EGR_QP_CNT_RETX, .EGR_QP_CNT_CNP], t.get f i = 0))

/-- What a fabric port does with a packet it has received, and with a symbol whose bytes are wrong. -/
def Obligations.FabricReceiveComplete : Prop :=
  (∀ p hdr data bad poison cut n l exp s v back, p < 8 → v = s.portPayload p → exp = v.get .FAB_H_RXSEQ p → l = hdr.getD 3 0 % 256 → back = v.sendCredit p (hdr.getD 0 0) (pktCredits data) →
     (v.portState p = portDown ∨ v.portState p = portAsleep → exec (.fabPacketReceived p hdr data bad poison cut n) s = .next v) ∧
     (v.portState p ≠ portDown → v.portState p ≠ portAsleep → (linkHeaderOk hdr data = false → exec (.fabPacketReceived p hdr data bad poison cut n) s = .next (v.linkBad p exp)) ∧
       (linkHeaderOk hdr data = true → v.on .FAB_H_NAKKED p = true → l ≠ exp → exec (.fabPacketReceived p hdr data bad poison cut n) s = .next back) ∧
       (linkHeaderOk hdr data = true → v.on .FAB_H_NAKKED p = false → 128 ≤ (l + 256 - exp) % 256 → exec (.fabPacketReceived p hdr data bad poison cut n) s =
         .next (if bad then back.inc .FAB_PORT_CNT_CRC p else back.emit (.symbol p 0x41 [(exp + 255) % 256, 0, 0, 0, 0]))))) ∧
  (∀ p hdr data n l exp s v back u w, p < 8 → v = s.portPayload p → exp = v.get .FAB_H_RXSEQ p → l = hdr.getD 3 0 % 256 → back = v.sendCredit p (hdr.getD 0 0) (pktCredits data) → v.portState p ≠ portDown → v.portState p ≠ portAsleep →
     linkHeaderOk hdr data = true → (v.on .FAB_H_NAKKED p = false ∨ l = exp) → (l + 256 - exp) % 256 < 128 →
     u = ((((v.set .FAB_H_RXSEQ p (l + 1)).set .FAB_H_NAKKED p 0).emit (.symbol p 0x41 [l, 0, 0, 0, 0])).inc .FAB_PORT_CNT_RX p) →
     w = ((((back.set .FAB_H_RXSEQ p (l + 1)).set .FAB_H_NAKKED p 0).emit (.symbol p 0x41 [l, 0, 0, 0, 0])).inc .FAB_PORT_CNT_RX p) →
     (∀ cut, exec (.fabPacketReceived p hdr data false false cut n) s = .next (u.netReceive p (hdr.getD 0 0) data n).jobAnswers ∧ exec (.fabPacketReceived p hdr data false true cut n) s = .next (w.inc .FAB_PORT_CNT_POISON p)) ∧
     (∀ poison cut, exec (.fabPacketReceived p hdr data true poison cut n) s = .next ((if cut = true ∧ data.getD 2 0 < 64 ∧ data.getD 2 0 ≠ v.node ∧ v.fabUp p = true then v.fabForward p (hdr.getD 0 0) data true else back).linkBad p l).jobAnswers) ∧
     ∀ x : State, (x.linkBad p l).get .FAB_PORT_CNT_CRC p = min (x.get .FAB_PORT_CNT_CRC p + 1) (2 ^ 32 - 1)) ∧
  (∀ p arg (s : State), p < 8 → (argZero arg 1 = false → exec (.fabAck p arg) s = .next (s.symbolBad p) ∧ exec (.fabNak p arg) s = .next (s.symbolBad p)) ∧
     (4 ≤ arg.getD 0 0 ∨ argZero arg 3 = false → exec (.fabCredit p arg) s = .next (s.symbolBad p)) ∧ (2 ≤ arg.getD 0 0 ∨ argZero arg 2 = false → exec (.fabAlign p arg) s = .next (s.symbolBad p)) ∧
     (argZero arg 0 = false → exec (.linkReset p arg) s = .next (s.symbolBad p)) ∧ (argZero arg 0 = false ∨ s.get .FAB_PORT_STATUS_VER p ≠ 2 → exec (.fabSleepSymbol p arg) s = .next (s.symbolBad p)) ∧
     (s.symbolBad p).get .FAB_PORT_CNT_CRC p = min (s.get .FAB_PORT_CNT_CRC p + 1) (2 ^ 32 - 1))

/-- The fabric's link layer: ACK, NAK, timeout, credits, alignment, reset, sleep, wake and the service of an output port. -/
def Obligations.FabricLinkCommandsComplete : Prop :=
  (∀ p arg l (s : State), p < 8 → argZero arg 1 = true → l = arg.getD 0 0 % 256 →
     (exec (.fabAck p arg) s = .next ((s.set .FAB_H_ACKT p s.elapsed).setPort p { s.fabPort p with sent := (s.fabPort p).sent.filter fun e => decide (128 ≤ (l + 256 - e.lseq) % 256) })) ∧
     ((s.fabPort p).sent.find? (fun e => e.lseq == l) = none → exec (.fabNak p arg) s = .next s) ∧
     ∀ e, (s.fabPort p).sent.find? (fun e => e.lseq == l) = some e → (e.due = true → exec (.fabNak p arg) s = .next s) ∧ (e.due = false → e.resent = true → exec (.fabNak p arg) s = .next (s.hopRetry p l).jobAnswers) ∧
       (e.due = false → e.resent = false → exec (.fabNak p arg) s = .next (s.setPort p { s.fabPort p with sent := (s.fabPort p).sent.map fun q => if (q.lseq + 256 - l) % 256 < 128 && !q.resent then { q with resent := true, due := true } else q }))) ∧
  (∀ p (s : State), p < 8 → ((s.fabPort p).sent = [] → exec (.fabReplayTimeout p) s = .next s) ∧
     (∀ e r, (s.fabPort p).sent = e :: r → (e.due = true ∨ s.ackOverdue p = false → exec (.fabReplayTimeout p) s = .next s) ∧
       (e.due = false → s.ackOverdue p = true → e.resent = true → exec (.fabReplayTimeout p) s = .next (s.hopRetry p e.lseq).jobAnswers) ∧
       (e.due = false → s.ackOverdue p = true → e.resent = false → exec (.fabReplayTimeout p) s = .next (s.setPort p { s.fabPort p with sent := { e with resent := true, due := true } :: r }))) ∧
     (s.ackOverdue p = true ↔ s.get .FAB_H_ACKT p + 20000 ≤ s.elapsed)) ∧
  (∀ p arg c (s : State), p < 8 → c = arg.getD 0 0 → c < 4 → argZero arg 3 = true → exec (.fabCredit p arg) s = .next (s.add .FAB_H_CREDIT (4 * p + c) (arg.getD 1 0 % 256 + 256 * (arg.getD 2 0 % 256)))) ∧
  (∀ p arg (s u : State), p < 8 → arg.getD 0 0 < 2 → argZero arg 2 = true → u = s.set .FAB_H_ALIGN p (arg.getD 1 0) →
     (s.portState p = portUpOne → s.get .FAB_PORT_STATUS_VER p = 2 → s.portPaired p = true → exec (.fabAlign p arg) s = .next ((u.set .FAB_PORT_STATUS_STATE p portUpTwo).set .FAB_PORT_STATUS_LANES p 3).portChanged ∧
       ((u.set .FAB_PORT_STATUS_STATE p portUpTwo).set .FAB_PORT_STATUS_LANES p 3).portChanged.portState p = portUpTwo) ∧
     (s.portState p ≠ portUpOne ∨ s.get .FAB_PORT_STATUS_VER p ≠ 2 ∨ s.portPaired p = false → exec (.fabAlign p arg) s = .next u)) ∧
  (∀ p arg (s : State), p < 8 → argZero arg 0 = true → (s.fabUp p = true → exec (.linkReset p arg) s = .next ((s.fabPort p).sent.foldl (fun s e => s.fabDiscard e.pkt 6 p) ((s.setPort p { s.fabPort p with sent := [] }).linkRestart p)).jobAnswers) ∧
     (s.fabUp p = false → exec (.linkReset p arg) s = .next s) ∧ (∀ c, c < 4 → (s.linkRestart p).get .FAB_H_CREDIT (4 * p + c) = 0) ∧ (s.linkRestart p).get .FAB_H_TXSEQ p = 0 ∧ (s.linkRestart p).get .FAB_H_RXSEQ p = 0) ∧
  (∀ p src arg (s : State), p < 8 → (argZero arg 0 = true → s.get .FAB_PORT_STATUS_VER p = 2 → (s.fabUp p = true → exec (.fabSleepSymbol p arg) s = .next ((s.neighbourLost p portAsleep).portLanesHold p).jobAnswers) ∧
       (s.fabUp p = false → exec (.fabSleepSymbol p arg) s = .next s)) ∧
     (s.gate src .installer 15 = .ok → Recorded (.fabPortWake p src) s src (0x480010 + 0x100 * p) (s.writeRec src (0x480010 + 0x100 * p) 1) fun t => t.portState p = if s.portState p = portAsleep then portDown else s.portState p)) ∧
  (∀ p (s : State), p < 8 → (s.portState p = portDown ∨ s.portState p = portAsleep → exec (.outputPortServe p) s = .next s) ∧ (s.portState p ≠ portDown → s.portState p ≠ portAsleep →
     (∀ e, (s.fabPort p).sent.find? (fun e => e.due) = some e → (s.fabSendable p e.pkt = false → exec (.outputPortServe p) s = .next s) ∧
       (s.fabSendable p e.pkt = true → exec (.outputPortServe p) s = .next ((((((s.set .FAB_H_ACKT p s.elapsed).setPort p { s.fabPort p with sent := (s.fabPort p).sent.map fun q => if q.lseq = e.lseq then { q with due := false } else q }).useCredits p e.pkt).countShare p e.pkt).inc .FAB_PORT_CNT_TX p).emit
         (.fabPacket p e.pkt.cls e.lseq e.pkt.data e.pkt.poison)))) ∧
     ((s.fabPort p).sent.find? (fun e => e.due) = none → (((s.classOrder p).findSome? fun c => (s.fabPort p).queue.find? fun k => k.cls == c && s.fabSendable p k) = none → exec (.outputPortServe p) s = .next s) ∧
       ∀ k, ((s.classOrder p).findSome? fun c => (s.fabPort p).queue.find? fun k => k.cls == c && s.fabSendable p k) = some k → exec (.outputPortServe p) s =
         .next (if (s.fabPort p).sent.length < 128 ∧ (s.fabPort p).sent.foldl (fun a e => a + e.pkt.data.length) 0 + k.data.length ≤ 262144 then s.fabSendNew p k else s))))

/-- The commands that name one packet type: what a packet must be, waymarks, link state, ID tables and packets for other nodes. -/
def Obligations.FabricPacketCommandsComplete : Prop :=
  (∀ p d n (s : State), p < 8 → ∀ q ∈ [(Instr.waymarkReceived p d, 0x01, 1, 0), (.linkStateReceived p d, 0x02, 1, 0), (.idTableReceived p d, 0x03, 1, 0), (.timeRequestReceived p d n, 0x10, 0, n), (.timeResponseReceived p d n, 0x11, 0, n),
       (.ctrlRequestReceived p d, 0x20, 1, 0), (.ctrlReplyReceived p d, 0x21, 1, 0), (.bulkPacketReceived p d, 0x40, 3, 0), (.lateErrorReceived p d, 0x50, 1, 0)],
     exec q.1 s = .next (if d.getD 1 0 = q.2.1 ∧ s.portState p ≠ portDown ∧ s.portState p ≠ portAsleep then ((s.portPayload p).netReceive p q.2.2.1 d q.2.2.2).jobAnswers else s)) ∧
  (∀ p cls d n (s t : State), t = s.sendCredit p cls (pktCredits d) →
     (d.getD 0 0 ≠ 1 ∨ typeClass (d.getD 1 0) ≠ some cls ∨ d.length ≠ 16 + leAt d 6 2 → s.netReceive p cls d n = t.inc .FAB_PORT_CNT_CRC p) ∧
     (d.getD 0 0 = 1 → typeClass (d.getD 1 0) = some cls → d.length = 16 + leAt d 6 2 → (s.fabUp p = false → d.getD 1 0 ≠ 0x01 → s.netReceive p cls d n = t) ∧
       (s.fabUp p = true → (d.getD 2 0 = 254 → d.getD 1 0 ∉ [0x01, 0x10, 0x11] → s.netReceive p cls d n = t.inc .FAB_PORT_CNT_CRC p) ∧ (d.getD 2 0 = 255 → d.getD 1 0 ∉ [0x02, 0x03] → s.netReceive p cls d n = t.inc .FAB_PORT_CNT_CRC p) ∧
         (d.getD 2 0 ≠ 254 → d.getD 2 0 ≠ 255 → d.getD 2 0 = s.node → s.node < 64 → s.netReceive p cls d n = t.fabServed p d) ∧
         (d.getD 2 0 ≠ 254 → d.getD 2 0 ≠ 255 → (d.getD 2 0 ≠ s.node ∨ 64 ≤ d.getD 2 0) → s.netReceive p cls d n = s.fabForward p cls d false)))) ∧
  (∀ p cls d x (s : State), (d.getD 4 0 ≤ 1 → s.fabForward p cls d x = s.fabDiscard ⟨cls, hopped d, some p, x, false⟩ 3 p) ∧
     (2 ≤ d.getD 4 0 → s.fabForward p cls d x = (match s.routeTo (d.getD 2 0) with | some q => s.fabQueue q ⟨cls, hopped d, some p, x, false⟩ | none => s.fabDiscard ⟨cls, hopped d, some p, x, false⟩ 2 p))) ∧
  (∀ p d (s t u : State) b, p < 8 → s.portState p ≠ portDown → s.portState p ≠ portAsleep → d.getD 0 0 = 1 → d.getD 1 0 = 0x01 → d.getD 2 0 = 254 → d.length = 48 → leAt d 6 2 = 32 → b = pktBody d → t = (s.portPayload p).sendCredit p 1 (pktCredits d) →
     u = t.waymarkIn p b → exec (.waymarkReceived p d) s = .next u.jobAnswers ∧ u.get .FAB_PORT_NEIGH p = leAt b 0 8 % 2 ^ 64 ∧ u.get .FAB_PORT_STATUS_NEIGH_ID p = b.getD 12 0 % 256 ∧
       u.get .FAB_PORT_STATUS_VER p = agreedMajor (b.getD 8 0) (b.getD 9 0) ∧ u.portState p = (if leAt b 0 8 = t.uid then portLoop
         else if agreedMajor (b.getD 8 0) (b.getD 9 0) = 0 ∨ (t.fab.admitted.isEmpty = false ∧ t.fab.admitted.contains (leAt b 0 8) = false) then portNoVersion
         else if t.fabUp p = true then (if agreedMajor (b.getD 8 0) (b.getD 9 0) = 2 then t.portState p else portUpOne) else if agreedMajor (b.getD 8 0) (b.getD 9 0) = 2 ∧ t.portPaired p = true then portUpTwo else portUpOne) % 8) ∧
  (∀ p d (s t : State) ty, p < 8 → s.fabUp p = true → d.getD 0 0 = 1 → d.getD 1 0 = ty → d.getD 2 0 = 255 → d.length = 16 + leAt d 6 2 → t = (s.portPayload p).sendCredit p 1 (pktCredits d) →
     (ty = 0x02 → exec (.linkStateReceived p d) s = .next (t.linkStateIn p d).jobAnswers) ∧ (ty = 0x03 → exec (.idTableReceived p d) s = .next (t.idTableIn p d).jobAnswers) ∧
     (∀ (u : State) o, o = leAt (pktBody d) 0 8 → (o = u.uid → u.linkStateIn p d = u) ∧ (∀ r, u.lsRecord o = some r → (r.seq + 2 ^ 32 - leAt (pktBody d) 8 4) % 2 ^ 32 < 2 ^ 31 → u.linkStateIn p d = u) ∧
       (o ≠ u.uid → (∀ r, u.lsRecord o = some r → 2 ^ 31 ≤ (r.seq + 2 ^ 32 - leAt (pktBody d) 8 4) % 2 ^ 32) → (u.linkStateIn p d).lsRecord o = some ⟨o, leAt (pktBody d) 8 4, pktBody d, u.elapsed⟩)) ∧
     ∀ u v : State, v = u.fanOut (u.upPorts.filter fun q => (u.get .FAB_ROUTE_COMMIT_BCAST_MASK).testBit q && q != p) d → u.idTableIn p d = if v.on .BOOT_H_AWAY = true ∨ (tableEntries (pktBody d)).any (fun e => e.uid == v.get .FAB_ROOT && e.id == d.getD 3 253) = false ∨
       v.on .FAB_NODE_ROOT = true ∨ leAt (pktBody d) 0 4 ≤ v.get .FAB_H_TABEPOCH ∨ (pktBody d).length < 8 + 16 * (tableEntries (pktBody d)).length then v else v.adoptTable (leAt (pktBody d) 0 4) (tableEntries (pktBody d)))

/-- Packets of one hop and for this node: time exchanges, control requests and replies, bulk data, late errors. -/
def Obligations.FabricNodePacketsComplete : Prop :=
  (∀ p d n (s t : State) ty, p < 8 → s.fabUp p = true → d.getD 0 0 = 1 → d.getD 1 0 = ty → d.getD 2 0 = 254 → d.length = 16 + leAt d 6 2 → t = (s.portPayload p).sendCredit p 0 (pktCredits d) →
     (ty = 0x10 → exec (.timeRequestReceived p d n) s = .next (t.timeRequestIn p d n).jobAnswers ∧ t.timeRequestIn p d n = t.fabQueue p ⟨0, t.ownPacket 0x11 254 0 (leAt d 8 4) ((d.drop 8).take 4 ++ [0, 0, 0, 0] ++ leBytes 8 (min n t.now16 / 16) ++ leBytes 8 0 ++
       [if t.get .FAB_PORT_STATUS_VER p = 2 then min n t.now16 % 16 else 0] ++ List.replicate 7 0), none, false, true⟩) ∧
     (ty = 0x11 → exec (.timeResponseReceived p d n) s = .next (t.timeResponseIn p d n).jobAnswers) ∧
     ∀ (u x : State) b f r, b = pktBody d → f = (if u.get .FAB_PORT_STATUS_VER p = 2 then b.getD 24 0 else 0) → r = exchange (u.get .FAB_H_T1) (leAt b 8 8 * 16 + f % 16 : Nat) (leAt b 16 8 * 16 + f / 16 : Nat) (min (n : Int) u.now16) (u.asym p) →
       x = ((u.set .FAB_H_T1OK 0 0).set .FAB_TIME_OFFSET 0 (ofSigned 32 r.1)).set .FAB_TIME_DELAY 0 (ofSigned 32 r.2) →
       (u.on .FAB_H_T1OK = true → u.get .FAB_H_PARENT = p → u.get .FAB_H_XCHG = leAt b 0 4 → u.timeResponseIn p d n = if u.get .SYN_TB_CTRL_SRC = 2 ∧ u.on .FAB_NODE_ROOT = false then x.useOffset r.1 else x) ∧
       (u.on .FAB_H_T1OK = false ∨ u.get .FAB_H_PARENT ≠ p ∨ u.get .FAB_H_XCHG ≠ leAt b 0 4 → u.timeResponseIn p d n = u)) ∧
  (∀ p d (s t : State) ty, p < 8 → s.fabUp p = true → d.getD 0 0 = 1 → d.getD 1 0 = ty → d.getD 2 0 = s.node → s.node < 64 → d.length = 16 + leAt d 6 2 → t = (s.portPayload p).sendCredit p 1 (pktCredits d) →
     (ty = 0x20 → exec (.ctrlRequestReceived p d) s = .next (t.ctrlRequestIn d).jobAnswers) ∧ (ty = 0x21 → exec (.ctrlReplyReceived p d) s = .next (t.ctrlReplyIn d).jobAnswers) ∧
     (ty = 0x50 → exec (.lateErrorReceived p d) s = .next (t.lateEnter ((pktBody d).take 32)).jobAnswers) ∧
     (ty = 0x40 → exec (.bulkPacketReceived p d) s = .next (((s.portPayload p).sendCredit p 3 (pktCredits d)).bulkIn p d).jobAnswers) ∧
     (∀ (u : State), (∀ r, (u.fab.reqs.find? fun r => r.tag == leAt d 8 4) = some r → (u.ctrlReplyIn d).fab.answers = u.fab.answers ++ [⟨r, statusOf ((pktBody d).getD 1 0), (pktBody d).drop 4⟩]) ∧
       ((u.fab.reqs.any fun r => r.tag == leAt d 8 4) = false → u.ctrlReplyIn d = u.inc .FAB_CNT_LATE_REPLY)) ∧
     ∀ (u : State) e, (u.fab.late.length < 256 → (u.lateEnter e).fab.late = u.fab.late ++ [e]) ∧ (256 ≤ u.fab.late.length → (u.lateEnter e).fab.late = u.fab.late ∧ (u.lateEnter e).get .FAB_CNT_LATE_LOST = min (u.get .FAB_CNT_LATE_LOST + 1) (2 ^ 32 - 1))) ∧
  (∀ d (s : State) b v node tag, b = pktBody d → v = b.drop 4 → node = d.getD 3 0 → tag = leAt d 8 4 →
     (b.getD 0 0 = 1 → s.ctrlRequestIn d = if v.getD 0 0 = 1 then s.msgPrepare node tag (v.getD 1 0 % 4) (leAt v 2 2) (leAt v 4 2) else if v.getD 0 0 = 2 then s.msgArm node tag (v.getD 1 0 % 4) (leAt v 2 2) (leAt v 8 8)
       else if v.getD 0 0 = 3 then s.msgCancel node tag (leAt v 2 2) else s.ctrlReply node tag 1 .range []) ∧
     (b.getD 0 0 = 2 → s.ctrlRequestIn d = if s.inTest 15 = true then s.ctrlReply node tag 2 .selftest [] else if s.on .FAB_CTRL_FENCE = true ∨ s.on .BOOT_H_AWAY = true then s.ctrlReply node tag 2 .busy [] else s.emit (.fabMessage node tag v)) ∧
     (b.getD 0 0 = 3 → s.ctrlRequestIn d = s.bulkCommit node tag (leAt v 0 2) (leAt v 4 4) (leAt v 8 8)) ∧
     (b.getD 0 0 ∉ [1, 2, 3] → s.ctrlRequestIn d = s.ctrlReply node tag (b.getD 0 0) (if s.inTest 15 = true then .selftest else if s.on .FAB_CTRL_FENCE = true then .busy else .range) [])) ∧
  (∀ p d (s : State) b x node off data t, b = pktBody d → node = d.getD 3 0 → off = leAt b 8 8 → data = b.drop 16 → (t = s.fab.bulk.find? fun t => t.node == node && t.id == leAt b 0 2) →
     (s.on .FAB_CTRL_FENCE = true → s.bulkIn p d = s.fabDiscard ⟨3, d, none, false, false⟩ 5 p) ∧ (s.on .FAB_CTRL_FENCE = false → ∀ win, win = s.get .FAB_RX_WIN_SIZE_SIZE_MIB * 2 ^ 20 →
     (win = 0 ∨ win < off + data.length → s.bulkIn p d = s.fabDiscard ⟨3, d, none, false, false⟩ 7 p) ∧ (win ≠ 0 → off + data.length ≤ win →
     (t = none → 16 ≤ (s.fab.bulk.filter fun t => t.node == node).length → s.bulkIn p d = s.fabDiscard ⟨3, d, none, false, false⟩ 8 p) ∧
     (t.isSome = true ∨ (s.fab.bulk.filter fun t => t.node == node).length < 16 → x = t.getD ⟨node, leAt b 0 2, [], 0⟩ → ∀ w, w = s.bulkStore (s.get .FAB_RX_WIN_BASE + off) data →
       s.bulkIn p d = { w.1 with fab := { w.1.fab with bulk := (s.fab.bulk.filter fun t => !(t.node == node && t.id == leAt b 0 2)) ++
         [if w.2 = false ∨ x.idx.contains (leAt b 4 4) = true then x else { x with idx := x.idx ++ [leAt b 4 4], bytes := x.bytes + data.length }] } }))))

/-- The fabric node's own commands: waymarks, root, link state, IDs, routes, time, late log, fence and reset. -/
def Obligations.FabricNodeCommandsComplete : Prop :=
  (∀ p (s u : State), p < 8 → (s.portState p ≠ portDown → s.portState p ≠ portAsleep → exec (.waymarkSend p) s = .next (s.fabQueue p ⟨1, s.ownPacket 0x01 254 0 0 (s.waymarkBody p), none, false, true⟩)) ∧
     (s.portState p = portDown ∨ s.portState p = portAsleep → exec (.waymarkSend p) s = .next s) ∧
     (s.on .FAB_NODE_ROOT = false → s.get .FAB_H_PARENT = p → s.fabUp p = true → u = (s.bump .FAB_H_XCHG 0 1).set .FAB_H_T1OK 0 0 →
       exec .timeRequestSend s = .next (u.fabQueue p ⟨0, u.ownPacket 0x10 254 0 (u.get .FAB_H_XCHG) [], none, false, true⟩)) ∧
     (s.on .FAB_NODE_ROOT = true ∨ 8 ≤ s.get .FAB_H_PARENT ∨ s.fabUp (s.get .FAB_H_PARENT) = false → exec .timeRequestSend s = .next s) ∧
     exec .linkStateSend s = .next s.lsSend ∧ s.lsSend.get .FAB_H_LSSEQ = (s.get .FAB_H_LSSEQ + 1) % 2 ^ 32) ∧
  (∀ p (s : State), p < 8 → (s.portState p = portDown ∨ s.portState p = portAsleep → exec (.neighbourLost p) s = .next s) ∧ (s.portState p ≠ portDown → s.portState p ≠ portAsleep → (s.portOn p = 0 → exec (.neighbourLost p) s = .next (s.neighbourLost p portDown).jobAnswers) ∧
     (s.portOn p ≠ 0 → ((s.fab.marks.find? fun e => e.1 == p) = none → exec (.neighbourLost p) s = .next s) ∧
       ∀ q w, (s.fab.marks.find? fun e => e.1 == p) = some (q, w) → exec (.neighbourLost p) s = .next (if w.seen + 3500000 ≤ s.elapsed then (s.neighbourLost p portNoVersion).jobAnswers else s))) ∧
     ∀ st, st < 8 → (s.neighbourLost p st).portState p = st) ∧
  (∀ s r, r = s.rootReckoned → Completes .rootUpdate s fun t => t.get .FAB_ROOT = r.1 % 2 ^ 64 ∧ t.get .FAB_H_EPOCH = r.2.1 % 2 ^ 32 ∧ t.get .FAB_NODE_DEPTH = r.2.2.1 % 64 ∧ t.get .FAB_H_PARENT = r.2.2.2 % 16 ∧
     t.get .FAB_NODE_ROOT = (r.1 == s.uid).toNat) ∧
  (∀ o tag (s : State), (s.lsRecord o = none → exec (.linkStateExpiry o) s = .next s) ∧ (∀ r, s.lsRecord o = some r → (s.elapsed < r.seen + 350000000 → exec (.linkStateExpiry o) s = .next s) ∧
       (r.seen + 350000000 ≤ s.elapsed → Completes (.linkStateExpiry o) s fun t => t.lsRecord o = none ∧ ∀ o', o' ≠ o → t.lsRecord o' = s.lsRecord o')) ∧
     (s.on .FAB_NODE_ROOT = true → s.on .BOOT_H_AWAY = false → exec .idAssign s = .next (((s.adoptTable ((s.get .FAB_H_TABEPOCH + 1) % 2 ^ 32) s.assignIds).fabBroadcast 0x03 ((s.get .FAB_H_TABEPOCH + 1) % 2 ^ 32)
       (tableBody ((s.get .FAB_H_TABEPOCH + 1) % 2 ^ 32) s.assignIds)).jobAnswers)) ∧ (s.on .FAB_NODE_ROOT = false ∨ s.on .BOOT_H_AWAY = true → exec .idAssign s = .next s) ∧
     ((s.fab.reqs.find? fun r => r.tag == tag) = none → exec (.ctrlTimeout tag) s = .next s) ∧ ∀ q, (s.fab.reqs.find? fun r => r.tag == tag) = some q →
       (s.elapsed < q.born + s.get .FAB_CFG_CTRL_TIMEOUT_MS * 1000000 ∨ s.isPrepare tag = true → exec (.ctrlTimeout tag) s = .next s) ∧
       (q.born + s.get .FAB_CFG_CTRL_TIMEOUT_MS * 1000000 ≤ s.elapsed → s.isPrepare tag = false → exec (.ctrlTimeout tag) s = .next (s.reqDone tag .timeout []).jobAnswers) ∧
       (s.reqDone tag .timeout []).fab.answers = s.fab.answers ++ [⟨q, .timeout, []⟩] ∧ ∀ x ∈ (s.reqDone tag .timeout []).fab.reqs, x.tag ≠ tag) ∧
  (∀ n tag i k b (s f : State), (f = { s with fab := { s.fab with bulk := s.fab.bulk.filter fun t => !(t.node == n && t.id == i) } }) → (s.inTest 15 = true → exec (.bulkCommit n tag i k b) s = .next (s.ctrlReply n tag 3 .selftest []).jobAnswers) ∧
     (s.inTest 15 = false → (s.on .FAB_CTRL_FENCE = true → exec (.bulkCommit n tag i k b) s = .next (s.ctrlReply n tag 3 .busy []).jobAnswers) ∧ (s.on .FAB_CTRL_FENCE = false →
     (∀ x, (s.fab.bulk.find? fun t => t.node == n && t.id == i) = some x → exec (.bulkCommit n tag i k b) s = .next (f.ctrlReply n tag 3 (if x.idx.length = k ∧ x.bytes = b then .ok else .farError) []).jobAnswers) ∧
     ((s.fab.bulk.find? fun t => t.node == n && t.id == i) = none → exec (.bulkCommit n tag i k b) s = .next (f.ctrlReply n tag 3 (if k = 0 ∧ b = 0 then .ok else .farError) []).jobAnswers)))) ∧
  (∀ m src (s : State), (s.gate src .device 15 = .ok → exec (.routeCommit m src) s = .next ((s.routeCommit m).answer src 0x482100 .ok)) ∧
     (∀ d, d < 64 → (s.routeCommit m).get .FAB_ROUTE_PORT d = s.get .FAB_H_SPORT d % 16 ∧ (s.routeCommit m).get .FAB_ROUTE_HOPS d = s.get .FAB_H_SHOPS d % 64) ∧ (s.routeCommit m).get .FAB_ROUTE_COMMIT_BCAST_MASK = m % 256 ∧
     (s.routeCommit m).get .FAB_ROUTE_COMMIT_EPOCH = min (s.get .FAB_ROUTE_COMMIT_EPOCH + 1) (2 ^ 16 - 1) ∧ (s.get .SYN_TB_CTRL_SRC ≠ 2 ∨ s.on .FAB_NODE_ROOT = true ∨ s.get .FAB_H_CNT < 64 → exec .timeRateCorrect s = .next s) ∧
     (s.get .SYN_TB_CTRL_SRC = 2 → s.on .FAB_NODE_ROOT = false → 64 ≤ s.get .FAB_H_CNT → Completes .timeRateCorrect s fun t => t.get .SYN_TB_RATE = s.free % 2 ^ Fld.SYN_TB_RATE.width ∧ t.fresh = s.fresh + 1 ∧ t.get .FAB_H_SUM = 0 ∧ t.get .FAB_H_CNT = 0)) ∧
  (∀ src (s : State), (s.gate src .operator 15 = .ok → exec (.fabLatePop src) s = .next (({ s with fab := { s.fab with late := s.fab.late.drop 1 } } : State).answer src 0x483004 .ok)) ∧
     (s.gate src .installer 15 = .ok → Recorded (.fabFence src) s src 0x481028 (s.writeRec src 0x481028 1) fun t => t.get .FAB_CTRL_FENCE = 1) ∧
     (s.on .FAB_CTRL_FENCE = true → s.fab.reqs = [] → exec .fabFenceDone s = .next (s.set .FAB_CTRL_FENCED 0 1)) ∧ (s.on .FAB_CTRL_FENCE = false ∨ s.fab.reqs ≠ [] → exec .fabFenceDone s = .next s) ∧
     (s.gate src .installer 15 = .ok → Recorded (.fabReset src) s src 0x481028 (s.writeRec src 0x481028 (2 + s.get .FAB_CTRL_FENCE)) fun t => t.get .PWR_H_RESETTING 15 = 1) ∧
     (s.gate src .operator 15 = .ok → exec (.fabClrCnt src) s = .next (s.fabClrCnt.answer src 0x481028 .ok)) ∧
     (∀ p, p < 8 → s.fabClrCnt.get .FAB_PORT_CNT_TX p = 0 ∧ s.fabClrCnt.get .FAB_PORT_CNT_RX p = 0 ∧ s.fabClrCnt.get .FAB_PORT_CNT_RETRY p = 0 ∧ s.fabClrCnt.get .FAB_PORT_CNT_POISON p = 0 ∧ s.fabClrCnt.get .FAB_PORT_CNT_CRC p = 0) ∧
     s.fabClrCnt.get .FAB_CNT_LATE_REPLY = 0 ∧ s.fabClrCnt.get .FAB_CNT_LATE_LOST = 0)

/-- A command that a check refuses answers that check's status and changes nothing else. -/
def Obligations.RefusedCommandsAnswer : Prop :=
  (∀ src (s : State), (∀ ans, ans = (if (s.fwGate src .operator noUnit) ≠ .ok then s.fwGate src .operator noUnit else if s.get .BIST_STATUS_STATE = 0 then .state else .ok) → ans ≠ .ok → exec (.bistStop src) s = .next (s.answer src 0x71 ans)) ∧
     (∀ unit ans, ans = (if (s.fwGate src .operator noUnit) ≠ .ok then s.fwGate src .operator noUnit else if 33 ≤ unit then .range else .ok) → ans ≠ .ok → exec (.bistResult unit src) s = .next (s.answer src 0x72 ans)) ∧
     (∀ count ans, ans = (if (s.fwGate src .operator noUnit) ≠ .ok then s.fwGate src .operator noUnit else if count = 0 || 64 < count then .range else .ok) → ans ≠ .ok → exec (.bistLog count src) s = .next (s.answer src 0x73 ans)) ∧
     ((s.gate src .operator noUnit) ≠ .ok → exec (.rollStop src) s = .next (s.answer src 0 (s.gate src .operator noUnit))) ∧
     (∀ addr len ans, ans = (if (s.fwGate src .maker 18) ≠ .ok then s.fwGate src .maker 18 else if !s.inStaging addr len then .range else if !s.updateOk then .state else .ok) → ans ≠ .ok → exec (.fwUpdate addr len src) s = .next (s.answer src 0x50 ans)) ∧
     (∀ ans, ans = (if (s.fwGate src .maker 18) ≠ .ok then s.fwGate src .maker 18 else if s.updState ≠ updReady then .state else .ok) → ans ≠ .ok → exec (.fwActivate src) s = .next (s.answer src 0x51 ans)) ∧
     (∀ ans, ans = (if s.fwGate src .device 18 ≠ .ok then (s.fwGate src .device 18) else if !s.confirmOk then .state else .ok) → ans ≠ .ok → exec (.fwConfirm src) s = .next (s.answer src bootCtrl ans)) ∧
     ((s.gate src .maker noUnit) ≠ .ok → exec (.mgtRestart src) s = .next (s.answer src pwrCtrl (s.gate src .maker noUnit))) ∧
     ((s.fwGate src .operator noUnit) ≠ .ok → exec (.pwrQuery src) s = .next (s.answer src 0x79 (s.fwGate src .operator noUnit))) ∧
     (∀ sec, (s.fwGate src .installer noUnit) ≠ .ok → exec (.pwrRtcSet sec src) s = .next (s.answer src 0x7A (s.fwGate src .installer noUnit))) ∧
     (∀ uid ans, ans = (if (s.fwGate src .maker noUnit) ≠ .ok then s.fwGate src .maker noUnit else if uid ≠ s.get .SEC_FUSE_UID then .range else .ok) → ans ≠ .ok → exec (.pwrReset uid src) s = .next (s.answer src 0x7B ans)) ∧
     (∀ v ans, ans = (if (s.gate src .installer noUnit) ≠ .ok then s.gate src .installer noUnit else if !(s.newlyGated v).all fun p => s.get .PIPE_H_STATE p == 2 then .state else .ok) → ans ≠ .ok → exec (.pipeGate v src) s = .next (s.answer src pwrGate ans)) ∧
     ((s.gate src .operator noUnit) ≠ .ok → exec (.pwrClrCnt src) s = .next (s.answer src pwrCtrl (s.gate src .operator noUnit)))) ∧
  (∀ src (s : State), (∀ w ans, ans = (if (s.gate src .installer 14) ≠ .ok then s.gate src .installer 14 else if 16 ≤ w then .range else if s.settingsBusy src then .busy else if !winOk (s.winStaged w).1 (s.winStaged w).2 then .range else .ok) → ans ≠ .ok → exec (.winCommit w src) s = .next (s.answer src (winCfg w) ans)) ∧
     ((s.gate src .installer 14) ≠ .ok → exec (.brgFence src) s = .next (s.answer src brgCtrl (s.gate src .installer 14))) ∧
     ((s.gate src .installer 14) ≠ .ok → exec (.brgReset src) s = .next (s.answer src brgCtrl (s.gate src .installer 14))) ∧
     ((s.gate src .operator 14) ≠ .ok → exec (.brgClrCnt src) s = .next (s.answer src brgCtrl (s.gate src .operator 14))) ∧
     (∀ q ans, ans = (if s.gate src .installer 13 ≠ .ok then (s.gate src .installer 13) else if s.qpEnableCheck q ≠ .ok then (s.qpEnableCheck q) else .ok) → ans ≠ .ok → exec (.qpEnable q src) s = .next (s.answer src 0 ans)) ∧
     (∀ q ans, ans = (if s.gate src .installer 13 ≠ .ok then (s.gate src .installer 13) else if 256 ≤ q then .range else .ok) → ans ≠ .ok → exec (.qpReset q src) s = .next (s.answer src 0 ans)) ∧
     (∀ st c ans, ans = (if st = 0 || 256 ≤ st then .range else if s.gate src .operator 13 ≠ .ok then (s.gate src .operator 13) else .ok) → ans ≠ .ok → exec (.strConsWrite st c src) s = .next (s.answer src 0 ans)) ∧
     (s.gate src .operator 13 ≠ .ok → exec (.egrDropPop src) s = .next (s.answer src 0 (s.gate src .operator 13))) ∧
     (s.gate src .operator 13 ≠ .ok → exec (.egrLatePop src) s = .next (s.answer src 0 (s.gate src .operator 13))) ∧
     (∀ p sel v ans, ans = (if s.gate src .installer 13 ≠ .ok then (s.gate src .installer 13) else if s.portCount ≤ p then .range else .ok) → ans ≠ .ok → exec (.classDelaySet p sel v src) s = .next (s.answer src 0 ans)) ∧
     (s.gate src .installer 13 ≠ .ok → exec (.egrFence src) s = .next (s.answer src 0 (s.gate src .installer 13))) ∧
     (s.gate src .installer 13 ≠ .ok → exec (.egrReset src) s = .next (s.answer src 0 (s.gate src .installer 13))) ∧
     (s.gate src .operator 13 ≠ .ok → exec (.egrClrCnt src) s = .next (s.answer src 0 (s.gate src .operator 13))) ∧
     (∀ mask, (s.gate src .device 15) ≠ .ok → exec (.routeCommit mask src) s = .next (s.answer src 0x482100 (s.gate src .device 15))) ∧
     ((s.gate src .operator 15) ≠ .ok → exec (.fabLatePop src) s = .next (s.answer src 0x483004 (s.gate src .operator 15))) ∧
     (∀ p, (s.gate src .installer 15) ≠ .ok → exec (.fabPortWake p src) s = .next (s.answer src (0x480010 + 0x100 * (p % 8)) (s.gate src .installer 15))) ∧
     ((s.gate src .installer 15) ≠ .ok → exec (.fabFence src) s = .next (s.answer src fabCtrl (s.gate src .installer 15))) ∧
     ((s.gate src .installer 15) ≠ .ok → exec (.fabReset src) s = .next (s.answer src fabCtrl (s.gate src .installer 15))) ∧
     ((s.gate src .operator 15) ≠ .ok → exec (.fabClrCnt src) s = .next (s.answer src fabCtrl (s.gate src .operator 15)))) ∧
  (∀ src (s : State), (∀ ans, ans = (if (s.fwGate src .operator 18) ≠ .ok then s.fwGate src .operator 18 else if src.ini ≠ .i3c then .state else .ok) → ans ≠ .ok → exec (.portBind src) s = .next (s.answer src 0x05 ans)) ∧
     (∀ ans, ans = (if (s.fwGate src .operator 18) ≠ .ok then s.fwGate src .operator 18 else if src.ini ≠ .i3c then .state else .ok) → ans ≠ .ok → exec (.portUnbind src) s = .next (s.answer src 0x06 ans)) ∧
     (∀ q enable ans, ans = (if (s.fwGate src .operator 18) ≠ .ok then s.fwGate src .operator 18 else if src.ini = .i3c then .state else if 256 ≤ q || !s.on .EGR_QP_CFG_CTRL q then .range else .ok) → ans ≠ .ok → exec (.evtForward q enable src) s = .next (s.answer src 0x07 ans)) ∧
     (∀ ans, ans = (if s.regReach 0x404 true ≠ .ok then (s.regReach 0x404 true) else if s.roleOf src ≠ .device then .rights else .ok) → ans ≠ .ok → exec (.evqPop src) s = .next (s.answer src 0x404 ans)) ∧
     (∀ lane, s.gate src .operator 8 ≠ .ok → exec (.queueFlush lane src) s = .next (s.answer src 0 (s.gate src .operator 8))) ∧
     (∀ lane, s.gate src .operator 8 ≠ .ok → exec (.ingClrCnt lane src) s = .next (s.answer src 0 (s.gate src .operator 8))) ∧
     (∀ lane high v ans, ans = (if s.gate src .installer 8 ≠ .ok then (s.gate src .installer 8) else if s.wmBad lane high v then .range else .ok) → ans ≠ .ok → exec (.queueWmWrite lane high v src) s = .next (s.answer src 0 ans)) ∧
     (∀ c ans, ans = (if s.gate src .operator 8 ≠ .ok then (s.gate src .operator 8) else if s.applyBad c then .range else .ok) → ans ≠ .ok → exec (.chApply c src) s = .next (s.answer src 0 ans)) ∧
     (∀ n v ans, ans = (if s.gate src .installer 9 ≠ .ok then (s.gate src .installer 9) else if s.encoderUsed n then .state else .ok) → ans ≠ .ok → exec (.encPreset n v src) s = .next (s.answer src 0 ans)) ∧
     (∀ c v ans, ans = (if s.gate src .operator 9 ≠ .ok then (s.gate src .operator 9) else if !s.pitchAllowed c v then .range else .ok) → ans ≠ .ok → exec (.pitchCommit c v src) s = .next (s.answer src 0 ans)) ∧
     (∀ c, s.gate src .operator 9 ≠ .ok → exec (.trigEnable c src) s = .next (s.answer src 0 (s.gate src .operator 9))) ∧
     (∀ c, s.gate src .operator 9 ≠ .ok → exec (.trigDisable c src) s = .next (s.answer src 0 (s.gate src .operator 9))) ∧
     (∀ v, s.gate src .operator 9 ≠ .ok → exec (.tbStep v src) s = .next (s.answer src 0 (s.gate src .operator 9))) ∧
     (∀ v ans, ans = (if s.gate src .operator 9 ≠ .ok then (s.gate src .operator 9) else if s.get .SYN_TB_CTRL_SRC = 2 then .state else .ok) → ans ≠ .ok → exec (.tbSlew v src) s = .next (s.answer src 0 ans)) ∧
     (s.gate src .operator 9 ≠ .ok → exec (.ptpTxtsPop src) s = .next (s.answer src 0 (s.gate src .operator 9)))) ∧
  (∀ src (s : State), (∀ lane, s.gate src .installer (20 + lane / 4) ≠ .ok → exec (.laneEnable lane src) s = .next (s.answer src 0 (s.gate src .installer (20 + lane / 4)))) ∧
     (∀ lane, s.gate src .installer (20 + lane / 4) ≠ .ok → exec (.laneDisable lane src) s = .next (s.answer src 0 (s.gate src .installer (20 + lane / 4)))) ∧
     (∀ lane, s.gate src .installer (20 + lane / 4) ≠ .ok → exec (.laneRetrain lane src) s = .next (s.answer src 0 (s.gate src .installer (20 + lane / 4)))) ∧
     (∀ lane, s.gate src .operator (20 + lane / 4) ≠ .ok → exec (.laneClrCnt lane src) s = .next (s.answer src 0 (s.gate src .operator (20 + lane / 4)))) ∧
     (∀ lane ans, ans = (if s.gate src .installer (20 + lane / 4) ≠ .ok then (s.gate src .installer (20 + lane / 4)) else if s.settingsBusy src then .busy else if !eqValid (s.eqStaged lane) || decide (4 < s.get .LANE_EQ_SEL_RUNG lane) then .range else .ok) → ans ≠ .ok → exec (.laneEqCommit lane src) s = .next (s.answer src 0 ans)) ∧
     (∀ lane, s.gate src .installer (20 + lane / 4) ≠ .ok → exec (.eyeScanStart lane src) s = .next (s.answer src 0 (s.gate src .installer (20 + lane / 4)))) ∧
     (∀ ans, ans = (if s.gate src .installer 16 ≠ .ok then (s.gate src .installer 16) else if s.memNeeded then .state else .ok) → ans ≠ .ok → exec (.memFence src) s = .next (s.answer src 0 ans)) ∧
     (∀ ans, ans = (if s.gate src .installer 16 ≠ .ok then (s.gate src .installer 16) else if !s.on .MEM_CTRL_FENCED then .state else .ok) → ans ≠ .ok → exec (.memReset src) s = .next (s.answer src 0 ans)) ∧
     (s.gate src .operator 16 ≠ .ok → exec (.memClrCnt src) s = .next (s.answer src 0 (s.gate src .operator 16))) ∧
     (∀ x mode withIng ans, ans = (if !s.mayAs src .installer then .rights else if s.ctxGoCheck x withIng ≠ .ok then (s.ctxGoCheck x withIng) else .ok) → ans ≠ .ok → exec (.ctxGo x mode withIng src) s = .next (s.answer src 0 ans)) ∧
     (∀ x ans, ans = (if !s.mayAs src .installer then .rights else if s.ctxCancelCheck x ≠ .ok then (s.ctxCancelCheck x) else .ok) → ans ≠ .ok → exec (.ctxCancel x src) s = .next (s.answer src 0 ans)) ∧
     (∀ p ans, ans = (if s.gate src .installer p ≠ .ok then (s.gate src .installer p) else if (s.holder p).isSome then .state else .ok) → ans ≠ .ok → exec (.pipeFence p src) s = .next (s.answer src 0 ans)) ∧
     (∀ p, s.gate src .installer p ≠ .ok → exec (.pipeUnfence p src) s = .next (s.answer src 0 (s.gate src .installer p))) ∧
     (∀ p, s.gate src .installer p ≠ .ok → exec (.pipeReset p src) s = .next (s.answer src 0 (s.gate src .installer p))) ∧
     (∀ p, s.gate src .operator p ≠ .ok → exec (.pipeClrCnt p src) s = .next (s.answer src 0 (s.gate src .operator p))) ∧
     (∀ k ans, ans = (if s.gate src .operator 8 ≠ .ok then (s.gate src .operator 8) else if s.playStartCheck k ≠ .ok then (s.playStartCheck k) else .ok) → ans ≠ .ok → exec (.playStart k src) s = .next (s.answer src 0 ans)) ∧
     (∀ k, s.gate src .operator 8 ≠ .ok → exec (.playStop k src) s = .next (s.answer src 0 (s.gate src .operator 8))))

/-- A refused job, merger, reference, security, store or library command answers its status and changes nothing else. -/
def Obligations.RefusedJobsAndRecordsAnswer : Prop :=
  (∀ src (s : State), (∀ i ans, ans = (if (s.jobGate src true) ≠ .ok then s.jobGate src true else if s.isFollower then .state else .ok) → ans ≠ .ok → exec (.jobSelect i src) s = .next (s.answer src 0x10 ans)) ∧
     (∀ num ans, ans = (if (s.jobGate src true) ≠ .ok then s.jobGate src true else if s.loadCheck (num % 4096) ≠ .ok then (s.loadCheck (num % 4096)) else .ok) → ans ≠ .ok → exec (.jobLoad num src) s = .next (s.answer src 0x11 ans)) ∧
     (∀ m immediate ans, ans = (if (s.jobGate src false) ≠ .ok then s.jobGate src false else if s.isFollower then .state else .ok) → ans ≠ .ok → exec (.jobArm m immediate src) s = .next (s.answer src 0x12 ans)) ∧
     (∀ ans, ans = (if (s.jobGate src false) ≠ .ok then s.jobGate src false else if s.isFollower || s.nextState = nextEmpty then .state else .ok) → ans ≠ .ok → exec (.jobCancel src) s = .next (s.answer src 0x13 ans)) ∧
     (∀ m immediate ans, ans = (if (s.jobGate src false) ≠ .ok then s.jobGate src false else if s.isFollower || (s.stopArm (m % 4) immediate).2 ≠ .ok then .state else .ok) → ans ≠ .ok → exec (.jobStop m immediate src) s = .next (s.answer src 0x14 ans)) ∧
     ((s.jobGate src false) ≠ .ok → exec (.jobQuery src) s = .next (s.answer src 0x15 (s.jobGate src false))) ∧
     (∀ m immediate stop, s.roleOf src ≠ .device → exec (.jobCtrlArm m immediate stop src) s = .next (s.answer src jobCtrl .rights)) ∧
     (s.roleOf src ≠ .device → exec (.jobCtrlCancel src) s = .next (s.answer src jobCtrl .rights)) ∧
     (∀ v, s.roleOf src ≠ .device → exec (.setNext v src) s = .next (s.answer src jobCtrl .rights)) ∧
     (∀ p auto ans, ans = (if !s.mayAs src .operator then .rights else if 8 ≤ p then .range else .ok) → ans ≠ .ok → exec (.rollStart p auto src) s = .next (s.answer src 0 ans))) ∧
  (∀ src (s : State), (∀ k mode ans, ans = (if s.gate src .installer 10 ≠ .ok then (s.gate src .installer 10) else if s.mrgGoCheck k ≠ .ok then (s.mrgGoCheck k) else .ok) → ans ≠ .ok → exec (.mrgGo k mode src) s = .next (s.answer src 0 ans)) ∧
     (∀ k ans, ans = (if s.gate src .installer 10 ≠ .ok then (s.gate src .installer 10) else if s.mrgCancelCheck k ≠ .ok then (s.mrgCancelCheck k) else .ok) → ans ≠ .ok → exec (.mrgCancel k src) s = .next (s.answer src 0 ans)) ∧
     (s.gate src .operator 10 ≠ .ok → exec (.mrgClrCnt src) s = .next (s.answer src 0 (s.gate src .operator 10))) ∧
     (∀ sl, s.slotGate sl src ≠ .ok → exec (.slotLoad sl src) s = .next (s.answer src (slotCtrl sl) (s.slotGate sl src))) ∧
     (∀ sl, s.slotGate sl src ≠ .ok → exec (.slotDone sl src) s = .next (s.answer src (slotCtrl sl) (s.slotGate sl src))) ∧
     (∀ sl, s.slotGate sl src ≠ .ok → exec (.slotClear sl src) s = .next (s.answer src (slotCtrl sl) (s.slotGate sl src))) ∧
     (∀ k mode ans, ans = (if s.gate src .installer 11 ≠ .ok then (s.gate src .installer 11) else if s.refGoCheck k ≠ .ok then (s.refGoCheck k) else .ok) → ans ≠ .ok → exec (.refGo k mode src) s = .next (s.answer src 0 ans)) ∧
     (∀ k ans, ans = (if s.gate src .installer 11 ≠ .ok then (s.gate src .installer 11) else if s.refCancelCheck k ≠ .ok then (s.refCancelCheck k) else .ok) → ans ≠ .ok → exec (.refCancel k src) s = .next (s.answer src 0 ans)) ∧
     (s.gate src .installer 11 ≠ .ok → exec (.refFence src) s = .next (s.answer src 0 (s.gate src .installer 11))) ∧
     (s.gate src .installer 11 ≠ .ok → exec (.refReset src) s = .next (s.answer src 0 (s.gate src .installer 11))) ∧
     (s.gate src .operator 11 ≠ .ok → exec (.refClrCnt src) s = .next (s.answer src 0 (s.gate src .operator 11))) ∧
     (∀ k ans, ans = (if 16 ≤ k then .range else if s.gate src .installer 12 ≠ .ok then (s.gate src .installer 12) else if !s.profOk k then .range else .ok) → ans ≠ .ok → exec (.profCommit k src) s = .next (s.answer src 0 ans)) ∧
     (s.gate src .installer 12 ≠ .ok → exec (.tslFence src) s = .next (s.answer src 0 (s.gate src .installer 12))) ∧
     (s.gate src .installer 12 ≠ .ok → exec (.tslReset src) s = .next (s.answer src 0 (s.gate src .installer 12))) ∧
     (s.gate src .operator 12 ≠ .ok → exec (.tslClrCnt src) s = .next (s.answer src 0 (s.gate src .operator 12)))) ∧
  (∀ src (s : State), (∀ role key major ans, ans = (if (s.loginGate src) ≠ .ok then s.loginGate src else if s.lockedKey (roleOfCode role) key then .busy else .ok) → ans ≠ .ok → exec (.loginBegin role key major src) s = .next (s.answer src 0x01 ans)) ∧
     (∀ msg sigs ans, ans = (if (s.loginGate src) ≠ .ok then s.loginGate src else if !loginFormed msg then .range else .ok) → ans ≠ .ok → exec (.loginFinish msg sigs src) s = .next (s.answer src 0x02 ans)) ∧
     ((s.fwGate src .operator 19) ≠ .ok → exec (.logout src) s = .next (s.answer src 0x03 (s.fwGate src .operator 19))) ∧
     (∀ nonce keys ans, ans = (if (s.signGate src .none) ≠ .ok then s.signGate src .none else if nonce.length ≠ 32 then .range else .ok) → ans ≠ .ok → exec (.attest nonce keys src) s = .next (s.answer src 0x04 ans)) ∧
     (∀ first count stream addr ans, ans = (if (s.fwGate src .operator 19) ≠ .ok then s.fwGate src .operator 19 else if !(s.sec.ring.any fun e => decide (first ≤ e.1) && decide (e.1 < first + count)) then .range else .ok) → ans ≠ .ok → exec (.auditRead first count stream addr src) s = .next (s.answer src 0x40 ans)) ∧
     ((s.signGate src .operator) ≠ .ok → exec (.auditSign src) s = .next (s.answer src 0x41 (s.signGate src .operator))) ∧
     (∀ first groups ans, ans = (if (s.fwGate src .maker 19) ≠ .ok then s.fwGate src .maker 19 else if s.releaseCheck first groups ≠ .ok then (s.releaseCheck first groups) else .ok) → ans ≠ .ok → exec (.auditRelease first groups src) s = .next (s.answer src 0x42 ans)) ∧
     (∀ field value ans, ans = (if (s.fwGate src .maker 19) ≠ .ok then s.fwGate src .maker 19 else if s.fuseCheck field value ≠ .ok then (s.fuseCheck field value) else .ok) → ans ≠ .ok → exec (.fuseProgram field value src) s = .next (s.answer src 0x60 ans)) ∧
     (∀ ans, ans = (if (s.fwGate src .maker 19) ≠ .ok then s.fwGate src .maker 19 else if s.on .SEC_FUSE_STATE_SCAN_OFF then .rights else if !s.jobsIdle then .state else .ok) → ans ≠ .ok → exec (.testUnlock src) s = .next (s.answer src 0x61 ans)) ∧
     (∀ uid ans, ans = (if (s.fwGate src .maker 19) ≠ .ok then s.fwGate src .maker 19 else if uid ≠ s.get .SEC_FUSE_UID then .range else if !s.jobsIdle then .state else .ok) → ans ≠ .ok → exec (.decommission uid src) s = .next (s.answer src 0x62 ans))) ∧
  (∀ src (s : State), (∀ addr len sigs ans, ans = (if (s.stoGate src) ≠ .ok then s.stoGate src else if !s.inStaging addr len then .range else .ok) → ans ≠ .ok → exec (.libPut addr len sigs src) s = .next (s.answer src 0x20 ans)) ∧
     (∀ num, (if (s.stoGate src) ≠ .ok then (s.stoGate src) else s.libDeleteCheck num src) ≠ .ok → exec (.libDelete num src) s = .next (s.answer src 0x21 (if (s.stoGate src) ≠ .ok then (s.stoGate src) else s.libDeleteCheck num src))) ∧
     (∀ first count ans, ans = (if (s.stoGate src) ≠ .ok then s.stoGate src else if 64 < count then .range else .ok) → ans ≠ .ok → exec (.libList first count src) s = .next (s.answer src 0x22 ans)) ∧
     (∀ num stream addr r, (s.stoGate src) ≠ .ok → exec (.libGet num stream addr r src) s = .next (s.answer src 0x23 (s.stoGate src))) ∧
     (∀ num sigs r, (s.stoGate src) ≠ .ok → exec (.libVerify num sigs r src) s = .next (s.answer src 0x24 (s.stoGate src))) ∧
     ((s.stoGate src) ≠ .ok → exec (.recQuery src) s = .next (s.answer src 0x30 (s.stoGate src))) ∧
     (∀ first count stream addr r lost, (s.stoGate src) ≠ .ok → exec (.recGet first count (stream, addr) ⟨r, lost⟩ src) s = .next (s.answer src 0x31 (s.stoGate src))) ∧
     (∀ first count, (if (s.stoGate src) ≠ .ok then (s.stoGate src) else s.recKeepCheck first count) ≠ .ok → exec (.recKeep first count src) s = .next (s.answer src 0x32 (if (s.stoGate src) ≠ .ok then (s.stoGate src) else s.recKeepCheck first count))) ∧
     (∀ first count ans, ans = (if (s.stoGate src) ≠ .ok then s.stoGate src else if !s.anyEntry first count then .range else .ok) → ans ≠ .ok → exec (.recRelease first count src) s = .next (s.answer src 0x33 ans)) ∧
     (∀ v ans, ans = (if (s.gate src .installer 17) ≠ .ok then s.gate src .installer 17 else if s.settingsBusy src then .busy else if !s.recGibOk (v % 65536) then .nospace else .ok) → ans ≠ .ok → exec (.recGibWrite v src) s = .next (s.answer src 0x540424 ans)) ∧
     (s.gate src .installer 17 ≠ .ok → exec (.stoFence src) s = .next (s.answer src 0 (s.gate src .installer 17))) ∧
     (s.gate src .installer 17 ≠ .ok → exec (.stoReset src) s = .next (s.answer src 0 (s.gate src .installer 17))) ∧
     (s.gate src .operator 17 ≠ .ok → exec (.stoClrCnt src) s = .next (s.answer src 0 (s.gate src .operator 17))))

/-- Refusals that leave a trace: a sleep that is refused, a job that cannot be loaded or armed, and the strobes of JOB_CTRL. -/
def Obligations.RefusalsWithAnEffectComplete : Prop :=
  (∀ src s, (∀ mask alarm ans, ans = (if s.fwGate src .installer noUnit ≠ .ok then s.fwGate src .installer noUnit else if mask.testBit 3 && alarm ≠ 0 && alarm ≤ s.get .PWR_RTC_SEC then .range else if s.sleepBarred then .state else .ok) → ans ≠ .ok →
       exec (.pwrSleep mask alarm src) s = .next (s.sleepRefused src 0x78 ans)) ∧
     (∀ ans, ans = (if s.gate src .device noUnit ≠ .ok then s.gate src .device noUnit else if s.sleepBarred then .state else .ok) → ans ≠ .ok → exec (.pwrCtrlSleep src) s = .next (if ans = .rights then s.answer src pwrCtrl ans else s.sleepRefused src pwrCtrl ans)) ∧
     ∀ cmd st, s.sleepRefused src cmd st = (if st = .targetReset then s else s.pwrEvent 1 0xFFFF (statusCode st) 0).answer src cmd st) ∧
  (∀ src (s : State), (∀ i, s.jobGate src true = .ok → s.isFollower = false → s.hamper? (s.jobEntry (i % 256)).hamper = none → exec (.jobSelect i src) s = .next ((s.loadFail .range).answer src 0x10 .range)) ∧
     (∀ m im, s.jobGate src false = .ok → s.isFollower = false → (s.armNext (m % 4) im s.now).2 ≠ .ok → exec (.jobArm m im src) s = .next (effJobArm m im src s)) ∧
     (s.roleOf src = .device → (∀ m im st, exec (.jobCtrlArm m im st src) s = .next ((s.ctrlArm m im st).1.answer src jobCtrl (s.ctrlArm m im st).2)) ∧ exec (.jobCtrlCancel src) s = .next (s.ctrlCancel.answer src jobCtrl .ok) ∧
       ∀ v, exec (.setNext v src) s = .next ((s.ctrlSetNext v).1.answer src jobCtrl (s.ctrlSetNext v).2)) ∧
     (s.fwGate src .operator 19 = .ok → s.session src.session = none → exec (.logout src) s = .next (s.answer src 0x03 .rights)))
end

