-- ==== Sys2Proof/Laws/Exec.lean ====
section
/-! SUPPORT. One equation for each command: what `exec` calls for it. -/

namespace Sys2Proof.Machine

@[simp] theorem exec_signalDetect {lane s} : exec (.signalDetect lane) s = execSignalDetect lane s := rfl
@[simp] theorem exec_lossOfSignal {lane s} : exec (.lossOfSignal lane) s = execLossOfSignal lane s := rfl
@[simp] theorem exec_cdrLock {lane s} : exec (.cdrLock lane) s = execCdrLock lane s := rfl
@[simp] theorem exec_cdrUnlock {lane s} : exec (.cdrUnlock lane) s = execCdrUnlock lane s := rfl
@[simp] theorem exec_offsetMeasureDone {lane ppm s} : exec (.offsetMeasureDone lane ppm) s = execOffsetMeasureDone lane ppm s := rfl
@[simp] theorem exec_ltsReceived {lane l s} : exec (.ltsReceived lane l) s = execLtsReceived lane l s := rfl
@[simp] theorem exec_rateChange {lane s} : exec (.rateChange lane) s = execRateChange lane s := rfl
@[simp] theorem exec_blockLock {lane s} : exec (.blockLock lane) s = execBlockLock lane s := rfl
@[simp] theorem exec_verifyWindowEnd {lane hdrErrs uncorr corr s} : exec (.verifyWindowEnd lane hdrErrs uncorr corr) s = execVerifyWindowEnd lane hdrErrs uncorr corr s := rfl
@[simp] theorem exec_verdictReceived {lane pass s} : exec (.verdictReceived lane pass) s = execVerdictReceived lane pass s := rfl
@[simp] theorem exec_verdictTimeout {lane s} : exec (.verdictTimeout lane) s = execVerdictTimeout lane s := rfl
@[simp] theorem exec_negotiateTimeout {lane s} : exec (.negotiateTimeout lane) s = execNegotiateTimeout lane s := rfl
@[simp] theorem exec_noLts {lane s} : exec (.noLts lane) s = execNoLts lane s := rfl
@[simp] theorem exec_stepTimeout {lane s} : exec (.stepTimeout lane) s = execStepTimeout lane s := rfl
@[simp] theorem exec_alignLoss {lane s} : exec (.alignLoss lane) s = execAlignLoss lane s := rfl
@[simp] theorem exec_napTimeout {lane s} : exec (.napTimeout lane) s = execNapTimeout lane s := rfl
@[simp] theorem exec_backoffExpiry {lane s} : exec (.backoffExpiry lane) s = execBackoffExpiry lane s := rfl
@[simp] theorem exec_activeStable {lane s} : exec (.activeStable lane) s = execActiveStable lane s := rfl
@[simp] theorem exec_laneEnable {lane src s} : exec (.laneEnable lane src) s = execLaneEnable lane src s := rfl
@[simp] theorem exec_laneDisable {lane src s} : exec (.laneDisable lane src) s = execLaneDisable lane src s := rfl
@[simp] theorem exec_laneRetrain {lane src s} : exec (.laneRetrain lane src) s = execLaneRetrain lane src s := rfl
@[simp] theorem exec_laneClrCnt {lane src s} : exec (.laneClrCnt lane src) s = execLaneClrCnt lane src s := rfl
@[simp] theorem exec_laneEqCommit {lane src s} : exec (.laneEqCommit lane src) s = execLaneEqCommit lane src s := rfl
@[simp] theorem exec_idleTrim {lane idleMs dTj s} : exec (.idleTrim lane idleMs dTj) s = execIdleTrim lane idleMs dTj s := rfl
@[simp] theorem exec_trimPassEnd {lane s} : exec (.trimPassEnd lane) s = execTrimPassEnd lane s := rfl
@[simp] theorem exec_serviceTrim {lane s} : exec (.serviceTrim lane) s = execServiceTrim lane s := rfl
@[simp] theorem exec_txNap {lane s} : exec (.txNap lane) s = execTxNap lane s := rfl
@[simp] theorem exec_txWake {lane s} : exec (.txWake lane) s = execTxWake lane s := rfl
@[simp] theorem exec_rxNap {lane s} : exec (.rxNap lane) s = execRxNap lane s := rfl
@[simp] theorem exec_eyeScanStart {lane src s} : exec (.eyeScanStart lane src) s = execEyeScanStart lane src s := rfl
@[simp] theorem exec_eyeScanDone {lane mismatches s} : exec (.eyeScanDone lane mismatches) s = execEyeScanDone lane mismatches s := rfl
@[simp] theorem exec_segmentReceived {lane seg s} : exec (.segmentReceived lane seg) s = execSegmentReceived lane seg s := rfl
@[simp] theorem exec_helloReceived {lane arg s} : exec (.helloReceived lane arg) s = execHelloReceived lane arg s := rfl
@[simp] theorem exec_trigAckReceived {lane arg s} : exec (.trigAckReceived lane arg) s = execTrigAckReceived lane arg s := rfl
@[simp] theorem exec_statusReceived {lane arg s} : exec (.statusReceived lane arg) s = execStatusReceived lane arg s := rfl
@[simp] theorem exec_usmasSymbolBad {lane code arg s} : exec (.usmasSymbolBad lane code arg) s = execUsmasSymbolBad lane code arg s := rfl
@[simp] theorem exec_helloSend {lane s} : exec (.helloSend lane) s = execHelloSend lane s := rfl
@[simp] theorem exec_pauseRepeat {lane s} : exec (.pauseRepeat lane) s = execPauseRepeat lane s := rfl
@[simp] theorem exec_frameTimeout {c s} : exec (.frameTimeout c) s = execFrameTimeout c s := rfl
@[simp] theorem exec_pointerMismatch {lane s} : exec (.pointerMismatch lane) s = execPointerMismatch lane s := rfl
@[simp] theorem exec_queueFlush {lane src s} : exec (.queueFlush lane src) s = execQueueFlush lane src s := rfl
@[simp] theorem exec_flushLimit {lane s} : exec (.flushLimit lane) s = execFlushLimit lane s := rfl
@[simp] theorem exec_ingClrCnt {lane src s} : exec (.ingClrCnt lane src) s = execIngClrCnt lane src s := rfl
@[simp] theorem exec_queueWmWrite {lane high v src s} : exec (.queueWmWrite lane high v src) s = execQueueWmWrite lane high v src s := rfl
@[simp] theorem exec_chApply {c src s} : exec (.chApply c src) s = execChApply c src s := rfl
@[simp] theorem exec_playStart {k src s} : exec (.playStart k src) s = execPlayStart k src s := rfl
@[simp] theorem exec_playStop {k src s} : exec (.playStop k src) s = execPlayStop k src s := rfl
@[simp] theorem exec_playRecordRead {k s} : exec (.playRecordRead k) s = execPlayRecordRead k s := rfl
@[simp] theorem exec_playPace {k lines s} : exec (.playPace k lines) s = execPlayPace k lines s := rfl
@[simp] theorem exec_encoderCount {n levels held s} : exec (.encoderCount n levels held) s = execEncoderCount n levels held s := rfl
@[simp] theorem exec_encoderZ {e s} : exec (.encoderZ e) s = execEncoderZ e s := rfl
@[simp] theorem exec_encPreset {n v src s} : exec (.encPreset n v src) s = execEncPreset n v src s := rfl
@[simp] theorem exec_speedSample {s} : exec .speedSample s = execSpeedSample s := rfl
@[simp] theorem exec_markEdge {m rising held s} : exec (.markEdge m rising held) s = execMarkEdge m rising held s := rfl
@[simp] theorem exec_triggerFire {c s} : exec (.triggerFire c) s = execTriggerFire c s := rfl
@[simp] theorem exec_trigPulseEnd {pin s} : exec (.trigPulseEnd pin) s = execTrigPulseEnd pin s := rfl
@[simp] theorem exec_pitchCommit {c v src s} : exec (.pitchCommit c v src) s = execPitchCommit c v src s := rfl
@[simp] theorem exec_trigEnable {c src s} : exec (.trigEnable c src) s = execTrigEnable c src s := rfl
@[simp] theorem exec_trigDisable {c src s} : exec (.trigDisable c src) s = execTrigDisable c src s := rfl
@[simp] theorem exec_tbStep {v src s} : exec (.tbStep v src) s = execTbStep v src s := rfl
@[simp] theorem exec_tbSlew {v src s} : exec (.tbSlew v src) s = execTbSlew v src s := rfl
@[simp] theorem exec_slewDone {s} : exec .slewDone s = execSlewDone s := rfl
@[simp] theorem exec_ptpRxStamp {transport domain msgType seqId stamp s} : exec (.ptpRxStamp transport domain msgType seqId stamp) s = execPtpRxStamp transport domain msgType seqId stamp s := rfl
@[simp] theorem exec_ptpTxtsPop {src s} : exec (.ptpTxtsPop src) s = execPtpTxtsPop src s := rfl
@[simp] theorem exec_stripeDispatch {p s} : exec (.stripeDispatch p) s = execStripeDispatch p s := rfl
@[simp] theorem exec_stripeComplete {p s} : exec (.stripeComplete p) s = execStripeComplete p s := rfl
@[simp] theorem exec_frameModeLine {p s} : exec (.frameModeLine p) s = execFrameModeLine p s := rfl
@[simp] theorem exec_exposureLineStored {c e y s} : exec (.exposureLineStored c e y) s = execExposureLineStored c e y s := rfl
@[simp] theorem exec_holdCopy {lane s} : exec (.holdCopy lane) s = execHoldCopy lane s := rfl
@[simp] theorem exec_holdCopyDone {lane s} : exec (.holdCopyDone lane) s = execHoldCopyDone lane s := rfl
@[simp] theorem exec_spillCopyDone {lane s} : exec (.spillCopyDone lane) s = execSpillCopyDone lane s := rfl
@[simp] theorem exec_ctxWindowWrite {addr data src s} : exec (.ctxWindowWrite addr data src) s = execCtxWindowWrite addr data src s := rfl
@[simp] theorem exec_ctxGo {x mode withIng src s} : exec (.ctxGo x mode withIng src) s = execCtxGo x mode withIng src s := rfl
@[simp] theorem exec_ctxCancel {x src s} : exec (.ctxCancel x src) s = execCtxCancel x src s := rfl
@[simp] theorem exec_rollStart {p auto src s} : exec (.rollStart p auto src) s = execRollStart p auto src s := rfl
@[simp] theorem exec_rollStop {src s} : exec (.rollStop src) s = execRollStop src s := rfl
@[simp] theorem exec_rollWithdrawn {s} : exec .rollWithdrawn s = execRollWithdrawn s := rfl
@[simp] theorem exec_rollInterval {s} : exec .rollInterval s = execRollInterval s := rfl
@[simp] theorem exec_pipeFence {p src s} : exec (.pipeFence p src) s = execPipeFence p src s := rfl
@[simp] theorem exec_pipeFenceDone {p s} : exec (.pipeFenceDone p) s = execPipeFenceDone p s := rfl
@[simp] theorem exec_pipeUnfence {p src s} : exec (.pipeUnfence p src) s = execPipeUnfence p src s := rfl
@[simp] theorem exec_pipeReset {p src s} : exec (.pipeReset p src) s = execPipeReset p src s := rfl
@[simp] theorem exec_pipeClrCnt {p src s} : exec (.pipeClrCnt p src) s = execPipeClrCnt p src s := rfl
@[simp] theorem exec_memberRowArrival {s} : exec .memberRowArrival s = execMemberRowArrival s := rfl
@[simp] theorem exec_tileLineEmit {k seq c s} : exec (.tileLineEmit k seq c) s = execTileLineEmit k seq c s := rfl
@[simp] theorem exec_joinWindowClose {k seq s} : exec (.joinWindowClose k seq) s = execJoinWindowClose k seq s := rfl
@[simp] theorem exec_seamPacketSend {k seq side s} : exec (.seamPacketSend k seq side) s = execSeamPacketSend k seq side s := rfl
@[simp] theorem exec_seamPacketReceived {data s} : exec (.seamPacketReceived data) s = execSeamPacketReceived data s := rfl
@[simp] theorem exec_seamWaitExpiry {k seq side s} : exec (.seamWaitExpiry k seq side) s = execSeamWaitExpiry k seq side s := rfl
@[simp] theorem exec_layoutWindowWrite {addr data src s} : exec (.layoutWindowWrite addr data src) s = execLayoutWindowWrite addr data src s := rfl
@[simp] theorem exec_mrgGo {k mode src s} : exec (.mrgGo k mode src) s = execMrgGo k mode src s := rfl
@[simp] theorem exec_mrgCancel {k src s} : exec (.mrgCancel k src) s = execMrgCancel k src s := rfl
@[simp] theorem exec_mrgClrCnt {src s} : exec (.mrgClrCnt src) s = execMrgClrCnt src s := rfl
@[simp] theorem exec_holdMaxRead {k src s} : exec (.holdMaxRead k src) s = execHoldMaxRead k src s := rfl
@[simp] theorem exec_alignmentTile {k seq a t memErr s} : exec (.alignmentTile k seq a t memErr) s = execAlignmentTile k seq a t memErr s := rfl
@[simp] theorem exec_slotLoad {sl src s} : exec (.slotLoad sl src) s = execSlotLoad sl src s := rfl
@[simp] theorem exec_slotDone {sl src s} : exec (.slotDone sl src) s = execSlotDone sl src s := rfl
@[simp] theorem exec_slotCheckDone {sl s} : exec (.slotCheckDone sl) s = execSlotCheckDone sl s := rfl
@[simp] theorem exec_slotClear {sl src s} : exec (.slotClear sl src) s = execSlotClear sl src s := rfl
@[simp] theorem exec_cmpWindowWrite {addr data src s} : exec (.cmpWindowWrite addr data src) s = execCmpWindowWrite addr data src s := rfl
@[simp] theorem exec_refGo {k mode src s} : exec (.refGo k mode src) s = execRefGo k mode src s := rfl
@[simp] theorem exec_refCancel {k src s} : exec (.refCancel k src) s = execRefCancel k src s := rfl
@[simp] theorem exec_refFence {src s} : exec (.refFence src) s = execRefFence src s := rfl
@[simp] theorem exec_refFenceDone {s} : exec .refFenceDone s = execRefFenceDone s := rfl
@[simp] theorem exec_refReset {src s} : exec (.refReset src) s = execRefReset src s := rfl
@[simp] theorem exec_refClrCnt {src s} : exec (.refClrCnt src) s = execRefClrCnt src s := rfl
@[simp] theorem exec_productDone {ix s} : exec (.productDone ix) s = execProductDone ix s := rfl
@[simp] theorem exec_profCommit {k src s} : exec (.profCommit k src) s = execProfCommit k src s := rfl
@[simp] theorem exec_tslFence {src s} : exec (.tslFence src) s = execTslFence src s := rfl
@[simp] theorem exec_tslFenceDone {s} : exec .tslFenceDone s = execTslFenceDone s := rfl
@[simp] theorem exec_tslReset {src s} : exec (.tslReset src) s = execTslReset src s := rfl
@[simp] theorem exec_tslClrCnt {src s} : exec (.tslClrCnt src) s = execTslClrCnt src s := rfl
@[simp] theorem exec_deliveryStart {ix s} : exec (.deliveryStart ix) s = execDeliveryStart ix s := rfl
@[simp] theorem exec_classBBudgetExpiry {st dseq s} : exec (.classBBudgetExpiry st dseq) s = execClassBBudgetExpiry st dseq s := rfl
@[simp] theorem exec_portSend {p ptp s} : exec (.portSend p ptp) s = execPortSend p ptp s := rfl
@[simp] theorem exec_ackReceived {q psn ce s} : exec (.ackReceived q psn ce) s = execAckReceived q psn ce s := rfl
@[simp] theorem exec_nakReceived {q psn nak ce s} : exec (.nakReceived q psn nak ce) s = execNakReceived q psn nak ce s := rfl
@[simp] theorem exec_qpRetryTimeout {q s} : exec (.qpRetryTimeout q) s = execQpRetryTimeout q s := rfl
@[simp] theorem exec_rnrTimer {q s} : exec (.rnrTimer q) s = execRnrTimer q s := rfl
@[simp] theorem exec_cnpReceived {cnp s} : exec (.cnpReceived cnp) s = execCnpReceived cnp s := rfl
@[simp] theorem exec_cnpRateInc {q s} : exec (.cnpRateInc q) s = execCnpRateInc q s := rfl
@[simp] theorem exec_qpEnable {q src s} : exec (.qpEnable q src) s = execQpEnable q src s := rfl
@[simp] theorem exec_qpReset {q src s} : exec (.qpReset q src) s = execQpReset q src s := rfl
@[simp] theorem exec_egressLinkDown {p s} : exec (.egressLinkDown p) s = execEgressLinkDown p s := rfl
@[simp] theorem exec_egressLinkUp {p s} : exec (.egressLinkUp p) s = execEgressLinkUp p s := rfl
@[simp] theorem exec_pauseFrameReceived {p pfc prio ns s} : exec (.pauseFrameReceived p pfc prio ns) s = execPauseFrameReceived p pfc prio ns s := rfl
@[simp] theorem exec_rxFrameDiscard {p s} : exec (.rxFrameDiscard p) s = execRxFrameDiscard p s := rfl
@[simp] theorem exec_creditBlock {q snd s} : exec (.creditBlock q snd) s = execCreditBlock q snd s := rfl
@[simp] theorem exec_strConsWrite {st c src s} : exec (.strConsWrite st c src) s = execStrConsWrite st c src s := rfl
@[simp] theorem exec_egrDropPop {src s} : exec (.egrDropPop src) s = execEgrDropPop src s := rfl
@[simp] theorem exec_egrLatePop {src s} : exec (.egrLatePop src) s = execEgrLatePop src s := rfl
@[simp] theorem exec_classDelaySet {p sel v src s} : exec (.classDelaySet p sel v src) s = execClassDelaySet p sel v src s := rfl
@[simp] theorem exec_egrFence {src s} : exec (.egrFence src) s = execEgrFence src s := rfl
@[simp] theorem exec_egrFenceDone {s} : exec .egrFenceDone s = execEgrFenceDone s := rfl
@[simp] theorem exec_egrReset {src s} : exec (.egrReset src) s = execEgrReset src s := rfl
@[simp] theorem exec_egrClrCnt {src s} : exec (.egrClrCnt src) s = execEgrClrCnt src s := rfl
@[simp] theorem exec_badMessage {q snd s} : exec (.badMessage q snd) s = execBadMessage q snd s := rfl
@[simp] theorem exec_accessRequest {q snd s} : exec (.accessRequest q snd) s = execAccessRequest q snd s := rfl
@[simp] theorem exec_pieceComplete {k addr err s} : exec (.pieceComplete k addr err) s = execPieceComplete k addr err s := rfl
@[simp] theorem exec_pieceTimeout {k addr s} : exec (.pieceTimeout k addr) s = execPieceTimeout k addr s := rfl
@[simp] theorem exec_readaheadExpiry {q s} : exec (.readaheadExpiry q) s = execReadaheadExpiry q s := rfl
@[simp] theorem exec_commandMessage {q snd s} : exec (.commandMessage q snd) s = execCommandMessage q snd s := rfl
@[simp] theorem exec_winCommit {w src s} : exec (.winCommit w src) s = execWinCommit w src s := rfl
@[simp] theorem exec_winCommitApply {w s} : exec (.winCommitApply w) s = execWinCommitApply w s := rfl
@[simp] theorem exec_brgFence {src s} : exec (.brgFence src) s = execBrgFence src s := rfl
@[simp] theorem exec_brgFenceDone {s} : exec .brgFenceDone s = execBrgFenceDone s := rfl
@[simp] theorem exec_brgReset {src s} : exec (.brgReset src) s = execBrgReset src s := rfl
@[simp] theorem exec_brgClrCnt {src s} : exec (.brgClrCnt src) s = execBrgClrCnt src s := rfl
@[simp] theorem exec_jobStb {ix s} : exec (.jobStb ix) s = execJobStb ix s := rfl
@[simp] theorem exec_jobSelect {ix src s} : exec (.jobSelect ix src) s = execJobSelect ix src s := rfl
@[simp] theorem exec_jobLoad {num src s} : exec (.jobLoad num src) s = execJobLoad num src s := rfl
@[simp] theorem exec_jobLoadDone {sigs r s} : exec (.jobLoadDone sigs r) s = execJobLoadDone sigs r s := rfl
@[simp] theorem exec_jobArm {m immediate src s} : exec (.jobArm m immediate src) s = execJobArm m immediate src s := rfl
@[simp] theorem exec_jobCancel {src s} : exec (.jobCancel src) s = execJobCancel src s := rfl
@[simp] theorem exec_jobStop {m immediate src s} : exec (.jobStop m immediate src) s = execJobStop m immediate src s := rfl
@[simp] theorem exec_jobQuery {src s} : exec (.jobQuery src) s = execJobQuery src s := rfl
@[simp] theorem exec_jobCtrlArm {m immediate stop src s} : exec (.jobCtrlArm m immediate stop src) s = execJobCtrlArm m immediate stop src s := rfl
@[simp] theorem exec_jobCtrlCancel {src s} : exec (.jobCtrlCancel src) s = execJobCtrlCancel src s := rfl
@[simp] theorem exec_setNext {v src s} : exec (.setNext v src) s = execSetNext v src s := rfl
@[simp] theorem exec_drainDone {s} : exec .drainDone s = execDrainDone s := rfl
@[simp] theorem exec_startEntrySelect {s} : exec .startEntrySelect s = execStartEntrySelect s := rfl
@[simp] theorem exec_jobMsgPrepare {node tag m job num s} : exec (.jobMsgPrepare node tag m job num) s = execJobMsgPrepare node tag m job num s := rfl
@[simp] theorem exec_jobMsgArm {node tag m job tarm s} : exec (.jobMsgArm node tag m job tarm) s = execJobMsgArm node tag m job tarm s := rfl
@[simp] theorem exec_jobMsgCancel {node tag job s} : exec (.jobMsgCancel node tag job) s = execJobMsgCancel node tag job s := rfl
@[simp] theorem exec_prepareTimeout {s} : exec .prepareTimeout s = execPrepareTimeout s := rfl
@[simp] theorem exec_prepareResend {s} : exec .prepareResend s = execPrepareResend s := rfl
@[simp] theorem exec_armDeadline {s} : exec .armDeadline s = execArmDeadline s := rfl
@[simp] theorem exec_nandMount {m s} : exec (.nandMount m) s = execNandMount m s := rfl
@[simp] theorem exec_patrolScrub {b r s} : exec (.patrolScrub b r) s = execPatrolScrub b r s := rfl
@[simp] theorem exec_blockOverdue {b s} : exec (.blockOverdue b) s = execBlockOverdue b s := rfl
@[simp] theorem exec_catchupScrub {b r s} : exec (.catchupScrub b r) s = execCatchupScrub b r s := rfl
@[simp] theorem exec_wearLevel {r s} : exec (.wearLevel r) s = execWearLevel r s := rfl
@[simp] theorem exec_programFail {b ch lun s} : exec (.programFail b ch lun) s = execProgramFail b ch lun s := rfl
@[simp] theorem exec_eraseFail {b ch lun s} : exec (.eraseFail b ch lun) s = execEraseFail b ch lun s := rfl
@[simp] theorem exec_libPut {addr len sigs src s} : exec (.libPut addr len sigs src) s = execLibPut addr len sigs src s := rfl
@[simp] theorem exec_libDelete {num src s} : exec (.libDelete num src) s = execLibDelete num src s := rfl
@[simp] theorem exec_libList {first count src s} : exec (.libList first count src) s = execLibList first count src s := rfl
@[simp] theorem exec_libGet {num stream addr r src s} : exec (.libGet num stream addr r src) s = execLibGet num stream addr r src s := rfl
@[simp] theorem exec_libVerify {num sigs r src s} : exec (.libVerify num sigs r src) s = execLibVerify num sigs r src s := rfl
@[simp] theorem exec_recorderProgram {s} : exec .recorderProgram s = execRecorderProgram s := rfl
@[simp] theorem exec_recQuery {src s} : exec (.recQuery src) s = execRecQuery src s := rfl
@[simp] theorem exec_recGet {first count dest r src s} : exec (.recGet first count dest r src) s = execRecGet first count dest r src s := rfl
@[simp] theorem exec_recKeep {first count src s} : exec (.recKeep first count src) s = execRecKeep first count src s := rfl
@[simp] theorem exec_recRelease {first count src s} : exec (.recRelease first count src) s = execRecRelease first count src s := rfl
@[simp] theorem exec_recGibWrite {v src s} : exec (.recGibWrite v src) s = execRecGibWrite v src s := rfl
@[simp] theorem exec_stoFence {src s} : exec (.stoFence src) s = execStoFence src s := rfl
@[simp] theorem exec_stoFenceDone {s} : exec .stoFenceDone s = execStoFenceDone s := rfl
@[simp] theorem exec_stoReset {src s} : exec (.stoReset src) s = execStoReset src s := rfl
@[simp] theorem exec_stoClrCnt {src s} : exec (.stoClrCnt src) s = execStoClrCnt src s := rfl
@[simp] theorem exec_memoryTransaction {blk src cls addr len data err busy s} : exec (.memoryTransaction blk src cls addr len data err busy) s = execMemoryTransaction blk src cls addr len data err busy s := rfl
@[simp] theorem exec_priorityPromote {ix s} : exec (.priorityPromote ix) s = execPriorityPromote ix s := rfl
@[simp] theorem exec_mr4Poll {ch level s} : exec (.mr4Poll ch level) s = execMr4Poll ch level s := rfl
@[simp] theorem exec_refresh {ch s} : exec (.refresh ch) s = execRefresh ch s := rfl
@[simp] theorem exec_writeLinkPoll {ch n s} : exec (.writeLinkPoll ch n) s = execWriteLinkPoll ch n s := rfl
@[simp] theorem exec_memFence {src s} : exec (.memFence src) s = execMemFence src s := rfl
@[simp] theorem exec_memFenceDone {s} : exec .memFenceDone s = execMemFenceDone s := rfl
@[simp] theorem exec_memReset {src s} : exec (.memReset src) s = execMemReset src s := rfl
@[simp] theorem exec_memResetDone {s} : exec .memResetDone s = execMemResetDone s := rfl
@[simp] theorem exec_memClrCnt {src s} : exec (.memClrCnt src) s = execMemClrCnt src s := rfl
@[simp] theorem exec_fabPacketReceived {p hdr data crcBad poison cut stamp s} : exec (.fabPacketReceived p hdr data crcBad poison cut stamp) s = execFabPacketReceived p hdr data crcBad poison cut stamp s := rfl
@[simp] theorem exec_fabAck {p arg s} : exec (.fabAck p arg) s = execFabAck p arg s := rfl
@[simp] theorem exec_fabNak {p arg s} : exec (.fabNak p arg) s = execFabNak p arg s := rfl
@[simp] theorem exec_fabCredit {p arg s} : exec (.fabCredit p arg) s = execFabCredit p arg s := rfl
@[simp] theorem exec_fabAlign {p arg s} : exec (.fabAlign p arg) s = execFabAlign p arg s := rfl
@[simp] theorem exec_linkReset {p arg s} : exec (.linkReset p arg) s = execLinkReset p arg s := rfl
@[simp] theorem exec_fabSleepSymbol {p arg s} : exec (.fabSleepSymbol p arg) s = execFabSleepSymbol p arg s := rfl
@[simp] theorem exec_fabReplayTimeout {p s} : exec (.fabReplayTimeout p) s = execFabReplayTimeout p s := rfl
@[simp] theorem exec_waymarkSend {p s} : exec (.waymarkSend p) s = execWaymarkSend p s := rfl
@[simp] theorem exec_waymarkReceived {p data s} : exec (.waymarkReceived p data) s = execWaymarkReceived p data s := rfl
@[simp] theorem exec_neighbourLost {p s} : exec (.neighbourLost p) s = execNeighbourLost p s := rfl
@[simp] theorem exec_rootUpdate {s} : exec .rootUpdate s = execRootUpdate s := rfl
@[simp] theorem exec_linkStateSend {s} : exec .linkStateSend s = execLinkStateSend s := rfl
@[simp] theorem exec_linkStateReceived {p data s} : exec (.linkStateReceived p data) s = execLinkStateReceived p data s := rfl
@[simp] theorem exec_linkStateExpiry {origin s} : exec (.linkStateExpiry origin) s = execLinkStateExpiry origin s := rfl
@[simp] theorem exec_idAssign {s} : exec .idAssign s = execIdAssign s := rfl
@[simp] theorem exec_idTableReceived {p data s} : exec (.idTableReceived p data) s = execIdTableReceived p data s := rfl
@[simp] theorem exec_routeCommit {mask src s} : exec (.routeCommit mask src) s = execRouteCommit mask src s := rfl
@[simp] theorem exec_ctrlRequestReceived {p data s} : exec (.ctrlRequestReceived p data) s = execCtrlRequestReceived p data s := rfl
@[simp] theorem exec_ctrlReplyReceived {p data s} : exec (.ctrlReplyReceived p data) s = execCtrlReplyReceived p data s := rfl
@[simp] theorem exec_ctrlTimeout {tag s} : exec (.ctrlTimeout tag) s = execCtrlTimeout tag s := rfl
@[simp] theorem exec_timeRequestSend {s} : exec .timeRequestSend s = execTimeRequestSend s := rfl
@[simp] theorem exec_timeRequestReceived {p data stamp s} : exec (.timeRequestReceived p data stamp) s = execTimeRequestReceived p data stamp s := rfl
@[simp] theorem exec_timeResponseReceived {p data stamp s} : exec (.timeResponseReceived p data stamp) s = execTimeResponseReceived p data stamp s := rfl
@[simp] theorem exec_timeRateCorrect {s} : exec .timeRateCorrect s = execTimeRateCorrect s := rfl
@[simp] theorem exec_bulkPacketReceived {p data s} : exec (.bulkPacketReceived p data) s = execBulkPacketReceived p data s := rfl
@[simp] theorem exec_bulkCommit {node tag id packets bytes s} : exec (.bulkCommit node tag id packets bytes) s = execBulkCommit node tag id packets bytes s := rfl
@[simp] theorem exec_lateErrorReceived {p data s} : exec (.lateErrorReceived p data) s = execLateErrorReceived p data s := rfl
@[simp] theorem exec_fabLatePop {src s} : exec (.fabLatePop src) s = execFabLatePop src s := rfl
@[simp] theorem exec_fabPortWake {p src s} : exec (.fabPortWake p src) s = execFabPortWake p src s := rfl
@[simp] theorem exec_fabFence {src s} : exec (.fabFence src) s = execFabFence src s := rfl
@[simp] theorem exec_fabFenceDone {s} : exec .fabFenceDone s = execFabFenceDone s := rfl
@[simp] theorem exec_fabReset {src s} : exec (.fabReset src) s = execFabReset src s := rfl
@[simp] theorem exec_fabClrCnt {src s} : exec (.fabClrCnt src) s = execFabClrCnt src s := rfl
@[simp] theorem exec_bootRead {nor s} : exec (.bootRead nor) s = execBootRead nor s := rfl
@[simp] theorem exec_firmwareStart {s} : exec .firmwareStart s = execFirmwareStart s := rfl
@[simp] theorem exec_fwUpdate {addr len src s} : exec (.fwUpdate addr len src) s = execFwUpdate addr len src s := rfl
@[simp] theorem exec_updateVerifyDone {v s} : exec (.updateVerifyDone v) s = execUpdateVerifyDone v s := rfl
@[simp] theorem exec_updateProgramDone {ok s} : exec (.updateProgramDone ok) s = execUpdateProgramDone ok s := rfl
@[simp] theorem exec_updateReadbackDone {v s} : exec (.updateReadbackDone v) s = execUpdateReadbackDone v s := rfl
@[simp] theorem exec_fwActivate {src s} : exec (.fwActivate src) s = execFwActivate src s := rfl
@[simp] theorem exec_fwConfirm {src s} : exec (.fwConfirm src) s = execFwConfirm src s := rfl
@[simp] theorem exec_confirmTimeout {s} : exec .confirmTimeout s = execConfirmTimeout s := rfl
@[simp] theorem exec_loginBegin {role key major src s} : exec (.loginBegin role key major src) s = execLoginBegin role key major src s := rfl
@[simp] theorem exec_loginFinish {msg sigs src s} : exec (.loginFinish msg sigs src) s = execLoginFinish msg sigs src s := rfl
@[simp] theorem exec_logout {src s} : exec (.logout src) s = execLogout src s := rfl
@[simp] theorem exec_sessionIdleTimeout {n s} : exec (.sessionIdleTimeout n) s = execSessionIdleTimeout n s := rfl
@[simp] theorem exec_lockoutExpiry {role key s} : exec (.lockoutExpiry role key) s = execLockoutExpiry role key s := rfl
@[simp] theorem exec_attest {nonce keys src s} : exec (.attest nonce keys src) s = execAttest nonce keys src s := rfl
@[simp] theorem exec_attestKeysReady {ms s} : exec (.attestKeysReady ms) s = execAttestKeysReady ms s := rfl
@[simp] theorem exec_auditRecordDurable {s} : exec .auditRecordDurable s = execAuditRecordDurable s := rfl
@[simp] theorem exec_headSignDone {s} : exec .headSignDone s = execHeadSignDone s := rfl
@[simp] theorem exec_auditRead {first count stream addr src s} : exec (.auditRead first count stream addr src) s = execAuditRead first count stream addr src s := rfl
@[simp] theorem exec_auditSign {src s} : exec (.auditSign src) s = execAuditSign src s := rfl
@[simp] theorem exec_auditRelease {first groups src s} : exec (.auditRelease first groups src) s = execAuditRelease first groups src s := rfl
@[simp] theorem exec_fuseProgram {field value src s} : exec (.fuseProgram field value src) s = execFuseProgram field value src s := rfl
@[simp] theorem exec_testUnlock {src s} : exec (.testUnlock src) s = execTestUnlock src s := rfl
@[simp] theorem exec_decommission {uid src s} : exec (.decommission uid src) s = execDecommission uid src s := rfl
@[simp] theorem exec_rngFail {s} : exec .rngFail s = execRngFail s := rfl
@[simp] theorem exec_pageWrite {data s} : exec (.pageWrite data) s = execPageWrite data s := rfl
@[simp] theorem exec_pageRead {n s} : exec (.pageRead n) s = execPageRead n s := rfl
@[simp] theorem exec_indirectComplete {late err s} : exec (.indirectComplete late err) s = execIndirectComplete late err s := rfl
@[simp] theorem exec_indirectTimeout {s} : exec .indirectTimeout s = execIndirectTimeout s := rfl
@[simp] theorem exec_cmdSubmit {s} : exec .cmdSubmit s = execCmdSubmit s := rfl
@[simp] theorem exec_cmdAck {s} : exec .cmdAck s = execCmdAck s := rfl
@[simp] theorem exec_portBind {src s} : exec (.portBind src) s = execPortBind src s := rfl
@[simp] theorem exec_portUnbind {src s} : exec (.portUnbind src) s = execPortUnbind src s := rfl
@[simp] theorem exec_evtForward {q enable src s} : exec (.evtForward q enable src) s = execEvtForward q enable src s := rfl
@[simp] theorem exec_entdaa {addr s} : exec (.entdaa addr) s = execEntdaa addr s := rfl
@[simp] theorem exec_setdasa {static addr s} : exec (.setdasa static addr) s = execSetdasa static addr s := rfl
@[simp] theorem exec_rstdaa {s} : exec .rstdaa s = execRstdaa s := rfl
@[simp] theorem exec_enec {ev direct s} : exec (.enec ev direct) s = execEnec ev direct s := rfl
@[simp] theorem exec_disec {ev direct s} : exec (.disec ev direct) s = execDisec ev direct s := rfl
@[simp] theorem exec_getpid {s} : exec .getpid s = execGetpid s := rfl
@[simp] theorem exec_getbcr {s} : exec .getbcr s = execGetbcr s := rfl
@[simp] theorem exec_getdcr {s} : exec .getdcr s = execGetdcr s := rfl
@[simp] theorem exec_getstatus {s} : exec .getstatus s = execGetstatus s := rfl
@[simp] theorem exec_getmxds {s} : exec .getmxds s = execGetmxds s := rfl
@[simp] theorem exec_rstact {v s} : exec (.rstact v) s = execRstact v s := rfl
@[simp] theorem exec_cccUnsupported {direct s} : exec (.cccUnsupported direct) s = execCccUnsupported direct s := rfl
@[simp] theorem exec_ibiRetry {k acked s} : exec (.ibiRetry k acked) s = execIbiRetry k acked s := rfl
@[simp] theorem exec_sclTimeout {s} : exec .sclTimeout s = execSclTimeout s := rfl
@[simp] theorem exec_sdaTimeout {s} : exec .sdaTimeout s = execSdaTimeout s := rfl
@[simp] theorem exec_busAbort {s} : exec .busAbort s = execBusAbort s := rfl
@[simp] theorem exec_sdaRelease {s} : exec .sdaRelease s = execSdaRelease s := rfl
@[simp] theorem exec_targetResetPattern {s} : exec .targetResetPattern s = execTargetResetPattern s := rfl
@[simp] theorem exec_evqPop {src s} : exec (.evqPop src) s = execEvqPop src s := rfl
@[simp] theorem exec_bistRun {unit kinds level src s} : exec (.bistRun unit kinds level src) s = execBistRun unit kinds level src s := rfl
@[simp] theorem exec_bistStop {src s} : exec (.bistStop src) s = execBistStop src s := rfl
@[simp] theorem exec_bistResult {unit src s} : exec (.bistResult unit src) s = execBistResult unit src s := rfl
@[simp] theorem exec_bistLog {count src s} : exec (.bistLog count src) s = execBistLog count src s := rfl
@[simp] theorem exec_bistTestEnd {d s} : exec (.bistTestEnd d) s = execBistTestEnd d s := rfl
@[simp] theorem exec_bistTimeout {d s} : exec (.bistTimeout d) s = execBistTimeout d s := rfl
@[simp] theorem exec_powerOn {bad max avs s} : exec (.powerOn bad max avs) s = execPowerOn bad max avs s := rfl
@[simp] theorem exec_resetPin {bad s} : exec (.resetPin bad) s = execResetPin bad s := rfl
@[simp] theorem exec_vaonLoss {s} : exec .vaonLoss s = execVaonLoss s := rfl
@[simp] theorem exec_railLoss {s} : exec .railLoss s = execRailLoss s := rfl
@[simp] theorem exec_crystalStop {s} : exec .crystalStop s = execCrystalStop s := rfl
@[simp] theorem exec_lockstepMismatch {s} : exec .lockstepMismatch s = execLockstepMismatch s := rfl
@[simp] theorem exec_watchdogTimeout {s} : exec .watchdogTimeout s = execWatchdogTimeout s := rfl
@[simp] theorem exec_mgtRestart {src s} : exec (.mgtRestart src) s = execMgtRestart src s := rfl
@[simp] theorem exec_mgtRestartDone {sramOk fw s} : exec (.mgtRestartDone sramOk fw) s = execMgtRestartDone sramOk fw s := rfl
@[simp] theorem exec_pwrSleep {mask alarm src s} : exec (.pwrSleep mask alarm src) s = execPwrSleep mask alarm src s := rfl
@[simp] theorem exec_pwrCtrlSleep {src s} : exec (.pwrCtrlSleep src) s = execPwrCtrlSleep src s := rfl
@[simp] theorem exec_sleepDrainDone {s} : exec .sleepDrainDone s = execSleepDrainDone s := rfl
@[simp] theorem exec_sleepDrainLimit {s} : exec .sleepDrainLimit s = execSleepDrainLimit s := rfl
@[simp] theorem exec_sleepEntered {field rolling s} : exec (.sleepEntered field rolling) s = execSleepEntered field rolling s := rfl
@[simp] theorem exec_wakePin {ticks s} : exec (.wakePin ticks) s = execWakePin ticks s := rfl
@[simp] theorem exec_addressMatchWake {ticks s} : exec (.addressMatchWake ticks) s = execAddressMatchWake ticks s := rfl
@[simp] theorem exec_botexWake {lane ticks s} : exec (.botexWake lane ticks) s = execBotexWake lane ticks s := rfl
@[simp] theorem exec_rtcAlarm {ticks s} : exec (.rtcAlarm ticks) s = execRtcAlarm ticks s := rfl
@[simp] theorem exec_wakeDone {copyOk fw full s} : exec (.wakeDone copyOk fw full) s = execWakeDone copyOk fw full s := rfl
@[simp] theorem exec_triggerResume {s} : exec .triggerResume s = execTriggerResume s := rfl
@[simp] theorem exec_pwrQuery {src s} : exec (.pwrQuery src) s = execPwrQuery src s := rfl
@[simp] theorem exec_pwrRtcSet {sec src s} : exec (.pwrRtcSet sec src) s = execPwrRtcSet sec src s := rfl
@[simp] theorem exec_pwrReset {uid src s} : exec (.pwrReset uid src) s = execPwrReset uid src s := rfl
@[simp] theorem exec_pipeGate {v src s} : exec (.pipeGate v src) s = execPipeGate v src s := rfl
@[simp] theorem exec_pwrClrCnt {src s} : exec (.pwrClrCnt src) s = execPwrClrCnt src s := rfl
@[simp] theorem exec_tempSample {temps s} : exec (.tempSample temps) s = execTempSample temps s := rfl
@[simp] theorem exec_thermalTrip {s} : exec .thermalTrip s = execThermalTrip s := rfl
@[simp] theorem exec_registerWrite {a v src s} : exec (.registerWrite a v src) s = execRegisterWrite a v src s := rfl
@[simp] theorem exec_stickyClear {a mask src s} : exec (.stickyClear a mask src) s = execStickyClear a mask src s := rfl
@[simp] theorem exec_loReadLatch {a src s} : exec (.loReadLatch a src) s = execLoReadLatch a src s := rfl
@[simp] theorem exec_hiWriteApply {a v src s} : exec (.hiWriteApply a v src) s = execHiWriteApply a v src s := rfl
@[simp] theorem exec_inputLineRelease {r y s} : exec (.inputLineRelease r y) s = execInputLineRelease r y s := rfl
@[simp] theorem exec_outputPortServe {p s} : exec (.outputPortServe p) s = execOutputPortServe p s := rfl
@[simp] theorem exec_blockResetDone {u s} : exec (.blockResetDone u) s = execBlockResetDone u s := rfl

end Sys2Proof.Machine
end

