-- ==== Sys2Proof/Laws/State.lean ====
section
/-! SUPPORT. What the plain updates of the state leave unchanged, one lemma for each field and update, and the value of a cell
after a write. -/

namespace Sys2Proof.Machine

@[simp] theorem State.set_mem (s : State) (f : Fld) (i v : Nat) : (s.set f i v).mem = s.mem := rfl
@[simp] theorem State.set_bad (s : State) (f : Fld) (i v : Nat) : (s.set f i v).bad = s.bad := rfl
@[simp] theorem State.set_evq (s : State) (f : Fld) (i v : Nat) : (s.set f i v).evq = s.evq := rfl
@[simp] theorem State.set_lane (s : State) (f : Fld) (i v : Nat) : (s.set f i v).lane = s.lane := rfl
@[simp] theorem State.set_frames (s : State) (f : Fld) (i v : Nat) : (s.set f i v).frames = s.frames := rfl
@[simp] theorem State.set_ing (s : State) (f : Fld) (i v : Nat) : (s.set f i v).ing = s.ing := rfl
@[simp] theorem State.set_syn (s : State) (f : Fld) (i v : Nat) : (s.set f i v).syn = s.syn := rfl
@[simp] theorem State.set_pipe (s : State) (f : Fld) (i v : Nat) : (s.set f i v).pipe = s.pipe := rfl
@[simp] theorem State.set_blankets (s : State) (f : Fld) (i v : Nat) : (s.set f i v).blankets = s.blankets := rfl
@[simp] theorem State.set_ref (s : State) (f : Fld) (i v : Nat) : (s.set f i v).ref = s.ref := rfl
@[simp] theorem State.set_products (s : State) (f : Fld) (i v : Nat) : (s.set f i v).products = s.products := rfl
@[simp] theorem State.set_egr (s : State) (f : Fld) (i v : Nat) : (s.set f i v).egr = s.egr := rfl
@[simp] theorem State.set_brg (s : State) (f : Fld) (i v : Nat) : (s.set f i v).brg = s.brg := rfl
@[simp] theorem State.set_memq (s : State) (f : Fld) (i v : Nat) : (s.set f i v).memq = s.memq := rfl
@[simp] theorem State.set_sto (s : State) (f : Fld) (i v : Nat) : (s.set f i v).sto = s.sto := rfl
@[simp] theorem State.set_job (s : State) (f : Fld) (i v : Nat) : (s.set f i v).job = s.job := rfl
@[simp] theorem State.set_fab (s : State) (f : Fld) (i v : Nat) : (s.set f i v).fab = s.fab := rfl
@[simp] theorem State.set_boot (s : State) (f : Fld) (i v : Nat) : (s.set f i v).boot = s.boot := rfl
@[simp] theorem State.set_bist (s : State) (f : Fld) (i v : Nat) : (s.set f i v).bist = s.bist := rfl
@[simp] theorem State.set_mgt (s : State) (f : Fld) (i v : Nat) : (s.set f i v).mgt = s.mgt := rfl
@[simp] theorem State.set_sec (s : State) (f : Fld) (i v : Nat) : (s.set f i v).sec = s.sec := rfl
@[simp] theorem State.set_out (s : State) (f : Fld) (i v : Nat) : (s.set f i v).out = s.out := rfl
@[simp] theorem State.set_fresh (s : State) (f : Fld) (i v : Nat) : (s.set f i v).fresh = s.fresh := rfl
@[simp] theorem State.set_pending (s : State) (f : Fld) (i v : Nat) : (s.set f i v).pending = s.pending := rfl

@[simp] theorem State.emit_cells (s : State) (o : Out) : (s.emit o).cells = s.cells := rfl
@[simp] theorem State.emit_mem (s : State) (o : Out) : (s.emit o).mem = s.mem := rfl
@[simp] theorem State.emit_bad (s : State) (o : Out) : (s.emit o).bad = s.bad := rfl
@[simp] theorem State.emit_evq (s : State) (o : Out) : (s.emit o).evq = s.evq := rfl
@[simp] theorem State.emit_lane (s : State) (o : Out) : (s.emit o).lane = s.lane := rfl
@[simp] theorem State.emit_frames (s : State) (o : Out) : (s.emit o).frames = s.frames := rfl
@[simp] theorem State.emit_ing (s : State) (o : Out) : (s.emit o).ing = s.ing := rfl
@[simp] theorem State.emit_syn (s : State) (o : Out) : (s.emit o).syn = s.syn := rfl
@[simp] theorem State.emit_pipe (s : State) (o : Out) : (s.emit o).pipe = s.pipe := rfl
@[simp] theorem State.emit_blankets (s : State) (o : Out) : (s.emit o).blankets = s.blankets := rfl
@[simp] theorem State.emit_ref (s : State) (o : Out) : (s.emit o).ref = s.ref := rfl
@[simp] theorem State.emit_products (s : State) (o : Out) : (s.emit o).products = s.products := rfl
@[simp] theorem State.emit_egr (s : State) (o : Out) : (s.emit o).egr = s.egr := rfl
@[simp] theorem State.emit_brg (s : State) (o : Out) : (s.emit o).brg = s.brg := rfl
@[simp] theorem State.emit_memq (s : State) (o : Out) : (s.emit o).memq = s.memq := rfl
@[simp] theorem State.emit_sto (s : State) (o : Out) : (s.emit o).sto = s.sto := rfl
@[simp] theorem State.emit_job (s : State) (o : Out) : (s.emit o).job = s.job := rfl
@[simp] theorem State.emit_fab (s : State) (o : Out) : (s.emit o).fab = s.fab := rfl
@[simp] theorem State.emit_boot (s : State) (o : Out) : (s.emit o).boot = s.boot := rfl
@[simp] theorem State.emit_bist (s : State) (o : Out) : (s.emit o).bist = s.bist := rfl
@[simp] theorem State.emit_mgt (s : State) (o : Out) : (s.emit o).mgt = s.mgt := rfl
@[simp] theorem State.emit_sec (s : State) (o : Out) : (s.emit o).sec = s.sec := rfl
@[simp] theorem State.emit_fresh (s : State) (o : Out) : (s.emit o).fresh = s.fresh := rfl
@[simp] theorem State.emit_pending (s : State) (o : Out) : (s.emit o).pending = s.pending := rfl

@[simp] theorem State.drawn_cells (s : State) : (s.drawn).cells = s.cells := rfl
@[simp] theorem State.drawn_mem (s : State) : (s.drawn).mem = s.mem := rfl
@[simp] theorem State.drawn_bad (s : State) : (s.drawn).bad = s.bad := rfl
@[simp] theorem State.drawn_evq (s : State) : (s.drawn).evq = s.evq := rfl
@[simp] theorem State.drawn_lane (s : State) : (s.drawn).lane = s.lane := rfl
@[simp] theorem State.drawn_frames (s : State) : (s.drawn).frames = s.frames := rfl
@[simp] theorem State.drawn_ing (s : State) : (s.drawn).ing = s.ing := rfl
@[simp] theorem State.drawn_syn (s : State) : (s.drawn).syn = s.syn := rfl
@[simp] theorem State.drawn_pipe (s : State) : (s.drawn).pipe = s.pipe := rfl
@[simp] theorem State.drawn_blankets (s : State) : (s.drawn).blankets = s.blankets := rfl
@[simp] theorem State.drawn_ref (s : State) : (s.drawn).ref = s.ref := rfl
@[simp] theorem State.drawn_products (s : State) : (s.drawn).products = s.products := rfl
@[simp] theorem State.drawn_egr (s : State) : (s.drawn).egr = s.egr := rfl
@[simp] theorem State.drawn_brg (s : State) : (s.drawn).brg = s.brg := rfl
@[simp] theorem State.drawn_memq (s : State) : (s.drawn).memq = s.memq := rfl
@[simp] theorem State.drawn_sto (s : State) : (s.drawn).sto = s.sto := rfl
@[simp] theorem State.drawn_job (s : State) : (s.drawn).job = s.job := rfl
@[simp] theorem State.drawn_fab (s : State) : (s.drawn).fab = s.fab := rfl
@[simp] theorem State.drawn_boot (s : State) : (s.drawn).boot = s.boot := rfl
@[simp] theorem State.drawn_bist (s : State) : (s.drawn).bist = s.bist := rfl
@[simp] theorem State.drawn_mgt (s : State) : (s.drawn).mgt = s.mgt := rfl
@[simp] theorem State.drawn_sec (s : State) : (s.drawn).sec = s.sec := rfl
@[simp] theorem State.drawn_out (s : State) : (s.drawn).out = s.out := rfl
@[simp] theorem State.drawn_pending (s : State) : (s.drawn).pending = s.pending := rfl

@[simp] theorem State.putByte_cells (s : State) (a v : Nat) : (s.putByte a v).cells = s.cells := rfl
@[simp] theorem State.putByte_bad (s : State) (a v : Nat) : (s.putByte a v).bad = s.bad := rfl
@[simp] theorem State.putByte_evq (s : State) (a v : Nat) : (s.putByte a v).evq = s.evq := rfl
@[simp] theorem State.putByte_lane (s : State) (a v : Nat) : (s.putByte a v).lane = s.lane := rfl
@[simp] theorem State.putByte_frames (s : State) (a v : Nat) : (s.putByte a v).frames = s.frames := rfl
@[simp] theorem State.putByte_ing (s : State) (a v : Nat) : (s.putByte a v).ing = s.ing := rfl
@[simp] theorem State.putByte_syn (s : State) (a v : Nat) : (s.putByte a v).syn = s.syn := rfl
@[simp] theorem State.putByte_pipe (s : State) (a v : Nat) : (s.putByte a v).pipe = s.pipe := rfl
@[simp] theorem State.putByte_blankets (s : State) (a v : Nat) : (s.putByte a v).blankets = s.blankets := rfl
@[simp] theorem State.putByte_ref (s : State) (a v : Nat) : (s.putByte a v).ref = s.ref := rfl
@[simp] theorem State.putByte_products (s : State) (a v : Nat) : (s.putByte a v).products = s.products := rfl
@[simp] theorem State.putByte_egr (s : State) (a v : Nat) : (s.putByte a v).egr = s.egr := rfl
@[simp] theorem State.putByte_brg (s : State) (a v : Nat) : (s.putByte a v).brg = s.brg := rfl
@[simp] theorem State.putByte_memq (s : State) (a v : Nat) : (s.putByte a v).memq = s.memq := rfl
@[simp] theorem State.putByte_sto (s : State) (a v : Nat) : (s.putByte a v).sto = s.sto := rfl
@[simp] theorem State.putByte_job (s : State) (a v : Nat) : (s.putByte a v).job = s.job := rfl
@[simp] theorem State.putByte_fab (s : State) (a v : Nat) : (s.putByte a v).fab = s.fab := rfl
@[simp] theorem State.putByte_boot (s : State) (a v : Nat) : (s.putByte a v).boot = s.boot := rfl
@[simp] theorem State.putByte_bist (s : State) (a v : Nat) : (s.putByte a v).bist = s.bist := rfl
@[simp] theorem State.putByte_mgt (s : State) (a v : Nat) : (s.putByte a v).mgt = s.mgt := rfl
@[simp] theorem State.putByte_sec (s : State) (a v : Nat) : (s.putByte a v).sec = s.sec := rfl
@[simp] theorem State.putByte_out (s : State) (a v : Nat) : (s.putByte a v).out = s.out := rfl
@[simp] theorem State.putByte_fresh (s : State) (a v : Nat) : (s.putByte a v).fresh = s.fresh := rfl
@[simp] theorem State.putByte_pending (s : State) (a v : Nat) : (s.putByte a v).pending = s.pending := rfl

@[simp] theorem State.emit_out (s : State) (o : Out) : (s.emit o).out = s.out ++ [o] := rfl
@[simp] theorem State.emit_get (s : State) (o : Out) (f : Fld) (i : Nat) : (s.emit o).get f i = s.get f i := rfl
@[simp] theorem State.drawn_get (s : State) (f : Fld) (i : Nat) : s.drawn.get f i = s.get f i := rfl
@[simp] theorem State.putByte_get (s : State) (a v : Nat) (f : Fld) (i : Nat) : (s.putByte a v).get f i = s.get f i := rfl

/-! ### Cells -/

theorem cellGet_insert_same (t : List ((Nat × Nat) × Nat)) (k : Nat × Nat) (d v : Nat)
    (h : ∀ e ∈ t, e.1 ≠ k) : cellGet (cellInsert t k v) k d = v := by
  induction t with
  | nil => simp [cellInsert, cellGet]
  | cons e r ih =>
    obtain ⟨k', v'⟩ := e
    have h1 : k' ≠ k := h (k', v') (by simp)
    have h2 : ∀ e ∈ r, e.1 ≠ k := fun e he => h e (by simp [he])
    unfold cellInsert
    split
    · simp [cellGet]
    · simp [cellGet, h1, ih h2]

theorem cellGet_insert_other (t : List ((Nat × Nat) × Nat)) (k j : Nat × Nat) (d v : Nat) (h : k ≠ j) :
    cellGet (cellInsert t k v) j d = cellGet t j d := by
  induction t with
  | nil => simp [cellInsert, cellGet, h]
  | cons e r ih =>
    obtain ⟨k', v'⟩ := e
    unfold cellInsert
    split
    · simp [cellGet, h]
    · simp only [cellGet, ih]

theorem cellGet_filter_other (t : List ((Nat × Nat) × Nat)) (k j : Nat × Nat) (d : Nat) (h : k ≠ j) :
    cellGet (t.filter fun e => decide (e.1 ≠ k)) j d = cellGet t j d := by
  induction t with
  | nil => rfl
  | cons e r ih =>
    obtain ⟨k', v'⟩ := e
    simp only [ne_eq, decide_not] at ih
    by_cases hk : k' = k
    · subst hk; simp [cellGet, h, ih]
    · simp [hk, cellGet, ih]

theorem cellGet_filter_same (t : List ((Nat × Nat) × Nat)) (k : Nat × Nat) (d : Nat) :
    cellGet (t.filter fun e => decide (e.1 ≠ k)) k d = d := by
  induction t with
  | nil => rfl
  | cons e r ih =>
    obtain ⟨k', v'⟩ := e
    simp only [ne_eq, decide_not] at ih
    by_cases hk : k' = k
    · simp [hk, ih]
    · simp [hk, cellGet, ih]

/-- A field reads what has been written to it, cut to its width. -/
theorem State.get_set_same (s : State) (f : Fld) (i v : Nat) : (s.set f i v).get f i = v % 2 ^ f.width := by
  unfold State.get State.set cellPut
  dsimp only
  split
  · next h => rw [cellGet_filter_same, h]
  · exact cellGet_insert_same _ _ _ _ (by simp)

/-- A write of one cell leaves every other cell. -/
theorem State.get_set_other (s : State) (f g : Fld) (i j v : Nat) (h : f.id ≠ g.id ∨ i ≠ j) :
    (s.set f i v).get g j = s.get g j := by
  have h' : (f.id, i) ≠ (g.id, j) := by
    intro e; cases h with
    | inl h => exact h (congrArg Prod.fst e)
    | inr h => exact h (congrArg Prod.snd e)
  unfold State.get State.set cellPut
  dsimp only
  split
  · exact cellGet_filter_other _ _ _ _ h'
  · rw [cellGet_insert_other _ _ _ _ _ h', cellGet_filter_other _ _ _ _ h']

/-- A write of one field leaves every other field. -/
theorem State.get_set_ne (s : State) (f g : Fld) (i j v : Nat) (h : f.id ≠ g.id) : (s.set f i v).get g j = s.get g j :=
  State.get_set_other s f g i j v (Or.inl h)

/-- A write of one instance leaves the other instances. -/
theorem State.get_set_inst (s : State) (f g : Fld) (i j v : Nat) (h : i ≠ j) : (s.set f i v).get g j = s.get g j :=
  State.get_set_other s f g i j v (Or.inr h)

/-- The value of a cell after a write of a cell, in one form for rewriting. -/
theorem State.get_set (s : State) (f g : Fld) (i j v : Nat) (hf : f.id = g.id → f = g) :
    (s.set f i v).get g j = if f.id = g.id ∧ i = j then v % 2 ^ f.width else s.get g j := by
  split
  · next h => obtain ⟨h1, rfl⟩ := h; rw [← hf h1]; exact State.get_set_same s f i v
  · next h =>
    exact State.get_set_other s f g i j v (by
      by_cases e : f.id = g.id
      · exact Or.inr fun e' => h ⟨e, e'⟩
      · exact Or.inl e)

end Sys2Proof.Machine
end

