-- ==== Sys2Proof/Laws/Ops.lean ====
section
/-! SUPPORT. Laws of tables, of memory and its canonical form, and of the operations that report. -/

namespace Sys2Proof.Machine

/-! ### Tables -/

theorem tabGet_insert_same {α : Type} (t : List (Nat × α)) (k : Nat) (v d : α) (h : ∀ e ∈ t, e.1 ≠ k) :
    tabGet (tabInsert t k v) k d = v := by
  induction t with
  | nil => simp [tabInsert, tabGet]
  | cons e r ih =>
    obtain ⟨k', v'⟩ := e
    have h1 : k' ≠ k := h (k', v') (by simp)
    have h2 : ∀ e ∈ r, e.1 ≠ k := fun e he => h e (by simp [he])
    unfold tabInsert
    split
    · simp [tabGet]
    · simp [tabGet, h1, ih h2]

/-- What has been put at a key is found there. -/
theorem tabGet_put_same {α : Type} (t : List (Nat × α)) (k : Nat) (v d : α) : tabGet (tabPut t k v) k d = v :=
  tabGet_insert_same _ _ _ _ (by simp [tabErase])

theorem tabGet_insert_other {α : Type} (t : List (Nat × α)) (k j : Nat) (v d : α) (h : k ≠ j) :
    tabGet (tabInsert t k v) j d = tabGet t j d := by
  induction t with
  | nil => simp [tabInsert, tabGet, h]
  | cons e r ih =>
    obtain ⟨k', v'⟩ := e
    unfold tabInsert
    split
    · simp [tabGet, h]
    · simp only [tabGet, ih]

theorem tabGet_erase_other {α : Type} (t : List (Nat × α)) (k j : Nat) (d : α) (h : k ≠ j) :
    tabGet (tabErase t k) j d = tabGet t j d := by
  unfold tabErase
  induction t with
  | nil => rfl
  | cons e r ih =>
    obtain ⟨k', v'⟩ := e
    simp only [ne_eq, decide_not] at ih
    by_cases hk : k' = k
    · subst hk; simp [tabGet, h, ih]
    · simp [hk, tabGet, ih]

/-- What stands at another key stays. -/
theorem tabGet_put_other {α : Type} (t : List (Nat × α)) (k j : Nat) (v d : α) (h : k ≠ j) :
    tabGet (tabPut t k v) j d = tabGet t j d := by
  unfold tabPut
  rw [tabGet_insert_other _ _ _ _ _ h, tabGet_erase_other _ _ _ _ h]

/-! ### Memory -/

/-- The canonical form as a proposition: addresses strictly rising, no listed byte 0. -/
theorem Memory.wf_iff (m : List Host.Cell) :
    Memory.wf m = true ↔ m.Pairwise (fun a b => a.1 < b.1) ∧ ∀ e ∈ m, e.2 ≠ 0 := by
  induction m with
  | nil => simp [Memory.wf]
  | cons e r ih =>
    obtain ⟨a, b⟩ := e
    cases r with
    | nil => simp [Memory.wf]
    | cons e' r' =>
      obtain ⟨a', b'⟩ := e'
      simp only [Memory.wf, Bool.and_eq_true, ih, bne_iff_ne, decide_eq_true_eq]
      constructor
      · rintro ⟨⟨hb, ha⟩, hp, hz⟩
        refine ⟨List.pairwise_cons.mpr ⟨?_, hp⟩, ?_⟩
        · intro x hx
          rcases List.mem_cons.mp hx with h | h
          · subst h; exact ha
          · exact Nat.lt_trans ha ((List.pairwise_cons.mp hp).1 x h)
        · intro x hx
          rcases List.mem_cons.mp hx with h | h
          · subst h; exact hb
          · exact hz x h
      · rintro ⟨hp, hz⟩
        have hp' := List.pairwise_cons.mp hp
        exact ⟨⟨hz (a, b) (by simp), hp'.1 (a', b') (by simp)⟩, hp'.2, fun x hx => hz x (List.mem_cons_of_mem _ hx)⟩

/-- Filtering keeps the canonical form. -/
theorem Memory.wf_filter (m : List Host.Cell) (p : Host.Cell → Bool) (h : Memory.wf m = true) :
    Memory.wf (m.filter p) = true := by
  rw [Memory.wf_iff] at h ⊢
  exact ⟨h.1.filter p, fun e he => h.2 e (List.mem_filter.mp he).1⟩

theorem memInsert_mem (m : List Host.Cell) (a : Nat) (b : BitVec 8) (e : Host.Cell) (h : e ∈ memInsert m a b) :
    e = (a, b) ∨ e ∈ m := by
  induction m with
  | nil => simpa [memInsert] using h
  | cons x r ih =>
    obtain ⟨a', b'⟩ := x
    unfold memInsert at h
    split at h
    · rcases List.mem_cons.mp h with h | h
      · exact Or.inl h
      · exact Or.inr h
    · rcases List.mem_cons.mp h with h | h
      · exact Or.inr (by simp [h])
      · rcases ih h with h | h
        · exact Or.inl h
        · exact Or.inr (by simp [h])

theorem memInsert_pairwise (m : List Host.Cell) (a : Nat) (b : BitVec 8) (h : m.Pairwise fun x y => x.1 < y.1)
    (hn : ∀ e ∈ m, e.1 ≠ a) : (memInsert m a b).Pairwise fun x y => x.1 < y.1 := by
  induction m with
  | nil => simp [memInsert]
  | cons x r ih =>
    obtain ⟨a', b'⟩ := x
    have hp := List.pairwise_cons.mp h
    unfold memInsert
    split
    · next hlt =>
      refine List.pairwise_cons.mpr ⟨?_, h⟩
      intro y hy
      rcases List.mem_cons.mp hy with hy | hy
      · subst hy; exact hlt
      · exact Nat.lt_trans hlt (hp.1 y hy)
    · next hge =>
      have hne : a' ≠ a := hn (a', b') (by simp)
      refine List.pairwise_cons.mpr ⟨?_, ih hp.2 fun e he => hn e (by simp [he])⟩
      intro y hy
      rcases memInsert_mem r a b y hy with hy | hy
      · subst hy; show a' < a; omega
      · exact hp.1 y hy

/-- A stored byte keeps the canonical form. -/
theorem memPut_wf (m : List Host.Cell) (a : Nat) (b : BitVec 8) (h : Memory.wf m = true) :
    Memory.wf (memPut m a b) = true := by
  unfold memPut
  dsimp only
  split
  · exact Memory.wf_filter _ _ h
  · next hb =>
    have hf := (Memory.wf_iff _).mp (Memory.wf_filter m (fun e => decide (e.1 ≠ a)) h)
    refine (Memory.wf_iff _).mpr ⟨memInsert_pairwise _ _ _ hf.1 ?_, ?_⟩
    · intro e he; simpa using (List.mem_filter.mp he).2
    · intro e he
      rcases memInsert_mem _ _ _ _ he with he | he
      · subst he; exact hb
      · exact hf.2 e he

/-- Storing bytes keeps the canonical form. -/
theorem State.putBytes_wf (s : State) (a : Nat) (l : List Nat) (h : Memory.wf s.mem = true) :
    Memory.wf (s.putBytes a l).mem = true := by
  induction l generalizing s a with
  | nil => exact h
  | cons b r ih => exact ih (s.putByte a b) (a + 1) (memPut_wf _ _ _ h)

theorem memGet_insert_same (m : List Host.Cell) (a : Nat) (b : BitVec 8) (h : ∀ e ∈ m, e.1 ≠ a) :
    memGet (memInsert m a b) a = b := by
  induction m with
  | nil => simp [memInsert, memGet]
  | cons x r ih =>
    obtain ⟨a', b'⟩ := x
    have h1 : a' ≠ a := h (a', b') (by simp)
    unfold memInsert
    split
    · simp [memGet]
    · simp [memGet, h1, ih fun e he => h e (by simp [he])]

theorem memGet_insert_other (m : List Host.Cell) (a c : Nat) (b : BitVec 8) (h : a ≠ c) :
    memGet (memInsert m a b) c = memGet m c := by
  induction m with
  | nil => simp [memInsert, memGet, h]
  | cons x r ih =>
    obtain ⟨a', b'⟩ := x
    unfold memInsert
    split
    · simp [memGet, h]
    · simp only [memGet, ih]

theorem memGet_filter_same (m : List Host.Cell) (a : Nat) :
    memGet (m.filter fun e => decide (e.1 ≠ a)) a = 0 := by
  induction m with
  | nil => rfl
  | cons x r ih =>
    obtain ⟨a', b'⟩ := x
    simp only [ne_eq, decide_not] at ih
    by_cases hk : a' = a
    · simp [hk, ih]
    · simp [hk, memGet, ih]

theorem memGet_filter_other (m : List Host.Cell) (a c : Nat) (h : a ≠ c) :
    memGet (m.filter fun e => decide (e.1 ≠ a)) c = memGet m c := by
  induction m with
  | nil => rfl
  | cons x r ih =>
    obtain ⟨a', b'⟩ := x
    simp only [ne_eq, decide_not] at ih
    by_cases hk : a' = a
    · subst hk; simp [memGet, h, ih]
    · simp [hk, memGet, ih]

/-- A byte reads what has been stored. -/
theorem memGet_put_same (m : List Host.Cell) (a : Nat) (b : BitVec 8) : memGet (memPut m a b) a = b := by
  unfold memPut
  dsimp only
  split
  · next h => rw [memGet_filter_same, h]
  · exact memGet_insert_same _ _ _ (by simp)

/-- Every other byte stays. -/
theorem memGet_put_other (m : List Host.Cell) (a c : Nat) (b : BitVec 8) (h : a ≠ c) :
    memGet (memPut m a b) c = memGet m c := by
  unfold memPut
  dsimp only
  split
  · exact memGet_filter_other _ _ _ h
  · rw [memGet_insert_other _ _ _ _ h, memGet_filter_other _ _ _ h]

/-- Storing bytes leaves every byte outside them. -/
theorem State.putBytes_other (s : State) (a c : Nat) (l : List Nat) (h : c < a ∨ a + l.length ≤ c) :
    (s.putBytes a l).memByte c = s.memByte c := by
  induction l generalizing s a with
  | nil => rfl
  | cons b r ih =>
    have h' : c < a + 1 ∨ a + 1 + r.length ≤ c := by simp only [List.length_cons] at h; omega
    have hne : a ≠ c := by simp only [List.length_cons] at h; omega
    show ((s.putByte a b).putBytes (a + 1) r).memByte c = _
    rw [ih _ _ h']
    exact congrArg BitVec.toNat (memGet_put_other _ _ _ _ hne)

/-- Storing bytes leaves every cell. -/
@[simp] theorem State.putBytes_get (s : State) (a : Nat) (l : List Nat) (f : Fld) (i : Nat) :
    (s.putBytes a l).get f i = s.get f i := by
  induction l generalizing s a with
  | nil => rfl
  | cons b r ih => exact (ih (s.putByte a b) (a + 1)).trans rfl

end Sys2Proof.Machine
end

