-- ==== Sys2Proof/Laws/Upd.lean ====
section
/-! SUPPORT. What a sequence of plain updates can do: which register pages and which parts of the state it may change, and
what every one of them keeps. `Upd w p r t` reads: going from `r` to `t`, only cells of the pages in the mask `w` and parts
in the mask `p` may have changed, the queue of commands stands, memory stays canonical, and the queues of fixed
depth keep within it. -/

namespace Sys2Proof.Machine

/-- The parts of the state beside the cells, numbered. -/
structure SameParts (p : Nat) (r t : State) : Prop where
  mem : p.testBit 0 = false → t.mem = r.mem
  evq : p.testBit 1 = false → t.evq = r.evq
  lane : p.testBit 2 = false → t.lane = r.lane
  frames : p.testBit 3 = false → t.frames = r.frames
  ing : p.testBit 4 = false → t.ing = r.ing
  syn : p.testBit 5 = false → t.syn = r.syn
  pipe : p.testBit 6 = false → t.pipe = r.pipe
  blankets : p.testBit 7 = false → t.blankets = r.blankets
  ref : p.testBit 8 = false → t.ref = r.ref
  products : p.testBit 9 = false → t.products = r.products
  egr : p.testBit 10 = false → t.egr = r.egr
  brg : p.testBit 11 = false → t.brg = r.brg
  memq : p.testBit 12 = false → t.memq = r.memq
  sto : p.testBit 13 = false → t.sto = r.sto
  job : p.testBit 14 = false → t.job = r.job
  fab : p.testBit 15 = false → t.fab = r.fab
  boot : p.testBit 16 = false → t.boot = r.boot
  bist : p.testBit 17 = false → t.bist = r.bist
  mgt : p.testBit 18 = false → t.mgt = r.mgt
  sec : p.testBit 19 = false → t.sec = r.sec
  out : p.testBit 20 = false → t.out = r.out
  fresh : p.testBit 21 = false → t.fresh = r.fresh
  bad : p.testBit 22 = false → t.bad = r.bad

structure Upd (w p : Nat) (r t : State) : Prop where
  cells : ∀ f i, w.testBit f.page = false → t.get f i = r.get f i
  parts : SameParts p r t
  wf : Memory.wf r.mem = true → Memory.wf t.mem = true
  bounds : Bounded r → Bounded t
  pending : t.pending = r.pending

/-! ### Base -/

theorem SameParts.refl (p : Nat) (s : State) : SameParts p s s :=
  ⟨fun _ => rfl, fun _ => rfl, fun _ => rfl, fun _ => rfl, fun _ => rfl, fun _ => rfl, fun _ => rfl, fun _ => rfl, fun _ => rfl, fun _ => rfl, fun _ => rfl, fun _ => rfl, fun _ => rfl, fun _ => rfl, fun _ => rfl, fun _ => rfl, fun _ => rfl, fun _ => rfl, fun _ => rfl, fun _ => rfl, fun _ => rfl, fun _ => rfl, fun _ => rfl⟩

theorem SameParts.trans {p : Nat} {a b c : State} (h : SameParts p a b) (k : SameParts p b c) : SameParts p a c :=
  ⟨fun e => (k.mem e).trans (h.mem e),
   fun e => (k.evq e).trans (h.evq e),
   fun e => (k.lane e).trans (h.lane e),
   fun e => (k.frames e).trans (h.frames e),
   fun e => (k.ing e).trans (h.ing e),
   fun e => (k.syn e).trans (h.syn e),
   fun e => (k.pipe e).trans (h.pipe e),
   fun e => (k.blankets e).trans (h.blankets e),
   fun e => (k.ref e).trans (h.ref e),
   fun e => (k.products e).trans (h.products e),
   fun e => (k.egr e).trans (h.egr e),
   fun e => (k.brg e).trans (h.brg e),
   fun e => (k.memq e).trans (h.memq e),
   fun e => (k.sto e).trans (h.sto e),
   fun e => (k.job e).trans (h.job e),
   fun e => (k.fab e).trans (h.fab e),
   fun e => (k.boot e).trans (h.boot e),
   fun e => (k.bist e).trans (h.bist e),
   fun e => (k.mgt e).trans (h.mgt e),
   fun e => (k.sec e).trans (h.sec e),
   fun e => (k.out e).trans (h.out e),
   fun e => (k.fresh e).trans (h.fresh e),
   fun e => (k.bad e).trans (h.bad e)⟩

theorem SameParts.mono {p q : Nat} {a b : State} (h : SameParts p a b) (hs : ∀ k, q.testBit k = false → p.testBit k = false) :
    SameParts q a b :=
  ⟨fun e => h.mem (hs _ e),
   fun e => h.evq (hs _ e),
   fun e => h.lane (hs _ e),
   fun e => h.frames (hs _ e),
   fun e => h.ing (hs _ e),
   fun e => h.syn (hs _ e),
   fun e => h.pipe (hs _ e),
   fun e => h.blankets (hs _ e),
   fun e => h.ref (hs _ e),
   fun e => h.products (hs _ e),
   fun e => h.egr (hs _ e),
   fun e => h.brg (hs _ e),
   fun e => h.memq (hs _ e),
   fun e => h.sto (hs _ e),
   fun e => h.job (hs _ e),
   fun e => h.fab (hs _ e),
   fun e => h.boot (hs _ e),
   fun e => h.bist (hs _ e),
   fun e => h.mgt (hs _ e),
   fun e => h.sec (hs _ e),
   fun e => h.out (hs _ e),
   fun e => h.fresh (hs _ e),
   fun e => h.bad (hs _ e)⟩

theorem Upd.refl {w p : Nat} (s : State) : Upd w p s s :=
  ⟨fun _ _ _ => rfl, SameParts.refl p s, id, id, rfl⟩

theorem Upd.trans {w p : Nat} {a b c : State} (h : Upd w p a b) (k : Upd w p b c) : Upd w p a c :=
  ⟨fun f i e => (k.cells f i e).trans (h.cells f i e), h.parts.trans k.parts, fun e => k.wf (h.wf e),
   fun e => k.bounds (h.bounds e), k.pending.trans h.pending⟩

/-- Every bit of the first mask is in the second. -/
def subMask (a b : Nat) : Bool := (a &&& b) == a

theorem subMask_testBit {a b : Nat} (h : subMask a b = true) (k : Nat) (hb : b.testBit k = false) : a.testBit k = false := by
  have h' : a &&& b = a := by simpa [subMask] using h
  rw [← h', Nat.testBit_and, hb, Bool.and_false]

theorem subMask_or_left (a b : Nat) : subMask a (a ||| b) = true := by
  simp only [subMask, beq_iff_eq]; apply Nat.eq_of_testBit_eq; intro i; simp; cases a.testBit i <;> simp

theorem subMask_or_right (a b : Nat) : subMask b (a ||| b) = true := by
  simp only [subMask, beq_iff_eq]; apply Nat.eq_of_testBit_eq; intro i; simp; cases b.testBit i <;> simp

theorem testBit_of_subMask {a b : Nat} (h : subMask a b = true) {k : Nat} (ha : a.testBit k = true) : b.testBit k = true := by
  cases hb : b.testBit k with
  | true => rfl
  | false => exact absurd ((subMask_testBit h k hb).symm.trans ha) (by decide)

theorem subMask_trans {a b c : Nat} (h : subMask a b = true) (k : subMask b c = true) : subMask a c = true := by
  have h' : a &&& b = a := by simpa [subMask] using h
  have k' : b &&& c = b := by simpa [subMask] using k
  have : a &&& c = a := by rw [← h', Nat.and_assoc, k']
  simpa [subMask] using this

/-- A wider claim of the same. -/
theorem Upd.mono {w p w' p' : Nat} {a b : State} (h : Upd w p a b) (hw : subMask w w' = true) (hp : subMask p p' = true) :
    Upd w' p' a b :=
  ⟨fun f i e => h.cells f i (subMask_testBit hw _ e), h.parts.mono fun k e => subMask_testBit hp k e, h.wf, h.bounds,
   h.pending⟩

/-- One more operation after what has been done. -/
theorem Upd.via {w p W P : Nat} {r s t : State} (h : Upd w p s t) (hm : (subMask w W && subMask p P) = true)
    (k : Upd W P r s) : Upd W P r t := by
  have hm' := Bool.and_eq_true_iff.mp hm
  exact k.trans (h.mono hm'.1 hm'.2)

/-- One more write of a cell. -/
theorem Upd.set {w p : Nat} {r s : State} {f : Fld} {i v : Nat} (hm : w.testBit f.page = true) (k : Upd w p r s) :
    Upd w p r (s.set f i v) :=
  k.trans ⟨fun g j e => State.get_set_ne s f g i j v (fun h => by
    have : f.page = g.page := by simp only [Fld.page, h]
    rw [this, e] at hm; exact absurd hm (by decide)), ⟨fun _ => rfl, fun _ => rfl, fun _ => rfl, fun _ => rfl, fun _ => rfl, fun _ => rfl, fun _ => rfl, fun _ => rfl, fun _ => rfl, fun _ => rfl, fun _ => rfl, fun _ => rfl, fun _ => rfl, fun _ => rfl, fun _ => rfl, fun _ => rfl, fun _ => rfl, fun _ => rfl, fun _ => rfl, fun _ => rfl, fun _ => rfl, fun _ => rfl, fun _ => rfl⟩, id, fun b => ⟨b.1, b.2, b.3, b.4, b.5⟩, rfl⟩

theorem Upd.cutU {w p : Nat} {r z t : State} (h : Upd w p r z) (k : Upd w p r z → Upd w p r t) : Upd w p r t := k h

theorem Upd.ite {w p : Nat} {r s t : State} {c : Prop} [Decidable c] (h : Upd w p r s) (k : Upd w p r t) :
    Upd w p r (if c then s else t) := by split <;> assumption

theorem Upd.iteFst {β : Type} {w p : Nat} {r : State} {s t : State × β} {c : Prop} [Decidable c] (h : Upd w p r s.1)
    (k : Upd w p r t.1) : Upd w p r (if c then s else t).1 := by split <;> assumption

theorem Upd.setAny {p : Nat} {r s : State} {f : Fld} {i v : Nat} (k : Upd (2 ^ 128 - 1) p r s) :
    Upd (2 ^ 128 - 1) p r (s.set f i v) :=
  Upd.set (by
    have h : f.page < 128 := Nat.mod_lt _ (by decide)
    rw [Nat.testBit_two_pow_sub_one]; simpa using h) k

theorem Upd.foldl {α : Type} {w p : Nat} {r s : State} {l : List α} {f : State → α → State}
    (hf : ∀ s x, Upd w p s (f s x)) (h : Upd w p r s) : Upd w p r (l.foldl f s) := by
  induction l generalizing s with
  | nil => exact h
  | cons x l ih => exact ih (h.trans (hf s x))

theorem Upd.foldlSet {w p : Nat} {r s : State} {l : List Fld} {i v : Nat} (hm : (l.all fun f => w.testBit f.page) = true)
    (h : Upd w p r s) : Upd w p r (l.foldl (fun s f => s.set f i v) s) := by
  induction l generalizing s with
  | nil => exact h
  | cons x l ih =>
    have hm' := Bool.and_eq_true_iff.mp (List.all_cons ▸ hm)
    exact ih hm'.2 (Upd.set hm'.1 h)

theorem Upd.foldlPair {w p : Nat} {r s : State} {l : List (Fld × Nat)} {i : Nat}
    (hm : (l.all fun q => w.testBit q.1.page) = true) (h : Upd w p r s) :
    Upd w p r (l.foldl (fun s q => s.set q.1 i q.2) s) := by
  induction l generalizing s with
  | nil => exact h
  | cons x l ih =>
    have hm' := Bool.and_eq_true_iff.mp (List.all_cons ▸ hm)
    exact ih hm'.2 (Upd.set hm'.1 h)

theorem Upd.foldlCopy {w p : Nat} {r s : State} {l : List (Fld × Fld)} {i : Nat}
    (hm : (l.all fun q => w.testBit q.1.page) = true) (h : Upd w p r s) :
    Upd w p r (l.foldl (fun s q => s.set q.1 i (s.get q.2)) s) := by
  induction l generalizing s with
  | nil => exact h
  | cons x l ih =>
    have hm' := Bool.and_eq_true_iff.mp (List.all_cons ▸ hm)
    exact ih hm'.2 (Upd.set hm'.1 h)

theorem Upd.foldlFst {α β : Type} {w p : Nat} {r : State} {l : List α} {f : State × β → α → State × β} {s : State × β}
    (hf : ∀ s x, Upd w p s.1 (f s x).1) (h : Upd w p r s.1) : Upd w p r (l.foldl f s).1 := by
  induction l generalizing s with
  | nil => exact h
  | cons x l ih => exact ih (h.trans (hf s x))

theorem Upd.foldlOpt {α : Type} {w p : Nat} {r : State} {l : List α} {f : Option State → α → Option State} {o : Option State}
    (hf : ∀ o x, (∀ s, o = some s → Upd w p r s) → ∀ t, f o x = some t → Upd w p r t)
    (h : ∀ s, o = some s → Upd w p r s) : ∀ t, l.foldl f o = some t → Upd w p r t := by
  induction l generalizing o with
  | nil => exact h
  | cons x l ih => exact ih (hf o x h)

theorem Upd.fst {β : Type} {w p : Nat} {r a : State} {b : β} {x : State × β} (hx : x = (a, b)) (h : Upd w p r x.1) :
    Upd w p r a := by rw [hx] at h; exact h

theorem Upd.mk1_iff {β : Type} {w p : Nat} {r a : State} {b : β} : Upd w p r (a, b).1 ↔ Upd w p r a := Iff.rfl

theorem Upd.lane_ {w p : Nat} {r s : State} {x : _} (hm : p.testBit 2 = true) (k : Upd w p r s) :
    Upd w p r { s with lane := x } :=
  k.trans ⟨fun _ _ _ => rfl, ⟨fun _ => rfl, fun _ => rfl, fun e => absurd (hm.symm.trans e) (by decide), fun _ => rfl, fun _ => rfl, fun _ => rfl, fun _ => rfl, fun _ => rfl, fun _ => rfl, fun _ => rfl, fun _ => rfl, fun _ => rfl, fun _ => rfl, fun _ => rfl, fun _ => rfl, fun _ => rfl, fun _ => rfl, fun _ => rfl, fun _ => rfl, fun _ => rfl, fun _ => rfl, fun _ => rfl, fun _ => rfl⟩, id, fun b => ⟨b.1, b.2, b.3, b.4, b.5⟩, rfl⟩

theorem Upd.lane_iff {w p : Nat} {r s : State} {x : _} (hm : p.testBit 2 = true) :
    Upd w p r { s with lane := x } ↔ Upd w p r s :=
  ⟨fun k => k.trans ⟨fun _ _ _ => rfl, ⟨fun _ => rfl, fun _ => rfl, fun e => absurd (hm.symm.trans e) (by decide), fun _ => rfl, fun _ => rfl, fun _ => rfl, fun _ => rfl, fun _ => rfl, fun _ => rfl, fun _ => rfl, fun _ => rfl, fun _ => rfl, fun _ => rfl, fun _ => rfl, fun _ => rfl, fun _ => rfl, fun _ => rfl, fun _ => rfl, fun _ => rfl, fun _ => rfl, fun _ => rfl, fun _ => rfl, fun _ => rfl⟩, id, fun b => ⟨b.1, b.2, b.3, b.4, b.5⟩, rfl⟩, fun k => k.trans ⟨fun _ _ _ => rfl, ⟨fun _ => rfl, fun _ => rfl, fun e => absurd (hm.symm.trans e) (by decide), fun _ => rfl, fun _ => rfl, fun _ => rfl, fun _ => rfl, fun _ => rfl, fun _ => rfl, fun _ => rfl, fun _ => rfl, fun _ => rfl, fun _ => rfl, fun _ => rfl, fun _ => rfl, fun _ => rfl, fun _ => rfl, fun _ => rfl, fun _ => rfl, fun _ => rfl, fun _ => rfl, fun _ => rfl, fun _ => rfl⟩, id, fun b => ⟨b.1, b.2, b.3, b.4, b.5⟩, rfl⟩⟩

theorem Upd.frames_ {w p : Nat} {r s : State} {x : _} (hm : p.testBit 3 = true) (k : Upd w p r s) :
    Upd w p r { s with frames := x } :=
  k.trans ⟨fun _ _ _ => rfl, ⟨fun _ => rfl, fun _ => rfl, fun _ => rfl, fun e => absurd (hm.symm.trans e) (by decide), fun _ => rfl, fun _ => rfl, fun _ => rfl, fun _ => rfl, fun _ => rfl, fun _ => rfl, fun _ => rfl, fun _ => rfl, fun _ => rfl, fun _ => rfl, fun _ => rfl, fun _ => rfl, fun _ => rfl, fun _ => rfl, fun _ => rfl, fun _ => rfl, fun _ => rfl, fun _ => rfl, fun _ => rfl⟩, id, fun b => ⟨b.1, b.2, b.3, b.4, b.5⟩, rfl⟩

theorem Upd.frames_iff {w p : Nat} {r s : State} {x : _} (hm : p.testBit 3 = true) :
    Upd w p r { s with frames := x } ↔ Upd w p r s :=
  ⟨fun k => k.trans ⟨fun _ _ _ => rfl, ⟨fun _ => rfl, fun _ => rfl, fun _ => rfl, fun e => absurd (hm.symm.trans e) (by decide), fun _ => rfl, fun _ => rfl, fun _ => rfl, fun _ => rfl, fun _ => rfl, fun _ => rfl, fun _ => rfl, fun _ => rfl, fun _ => rfl, fun _ => rfl, fun _ => rfl, fun _ => rfl, fun _ => rfl, fun _ => rfl, fun _ => rfl, fun _ => rfl, fun _ => rfl, fun _ => rfl, fun _ => rfl⟩, id, fun b => ⟨b.1, b.2, b.3, b.4, b.5⟩, rfl⟩, fun k => k.trans ⟨fun _ _ _ => rfl, ⟨fun _ => rfl, fun _ => rfl, fun _ => rfl, fun e => absurd (hm.symm.trans e) (by decide), fun _ => rfl, fun _ => rfl, fun _ => rfl, fun _ => rfl, fun _ => rfl, fun _ => rfl, fun _ => rfl, fun _ => rfl, fun _ => rfl, fun _ => rfl, fun _ => rfl, fun _ => rfl, fun _ => rfl, fun _ => rfl, fun _ => rfl, fun _ => rfl, fun _ => rfl, fun _ => rfl, fun _ => rfl⟩, id, fun b => ⟨b.1, b.2, b.3, b.4, b.5⟩, rfl⟩⟩

theorem Upd.ing_ {w p : Nat} {r s : State} {x : _} (hm : p.testBit 4 = true) (k : Upd w p r s) :
    Upd w p r { s with ing := x } :=
  k.trans ⟨fun _ _ _ => rfl, ⟨fun _ => rfl, fun _ => rfl, fun _ => rfl, fun _ => rfl, fun e => absurd (hm.symm.trans e) (by decide), fun _ => rfl, fun _ => rfl, fun _ => rfl, fun _ => rfl, fun _ => rfl, fun _ => rfl, fun _ => rfl, fun _ => rfl, fun _ => rfl, fun _ => rfl, fun _ => rfl, fun _ => rfl, fun _ => rfl, fun _ => rfl, fun _ => rfl, fun _ => rfl, fun _ => rfl, fun _ => rfl⟩, id, fun b => ⟨b.1, b.2, b.3, b.4, b.5⟩, rfl⟩

theorem Upd.ing_iff {w p : Nat} {r s : State} {x : _} (hm : p.testBit 4 = true) :
    Upd w p r { s with ing := x } ↔ Upd w p r s :=
  ⟨fun k => k.trans ⟨fun _ _ _ => rfl, ⟨fun _ => rfl, fun _ => rfl, fun _ => rfl, fun _ => rfl, fun e => absurd (hm.symm.trans e) (by decide), fun _ => rfl, fun _ => rfl, fun _ => rfl, fun _ => rfl, fun _ => rfl, fun _ => rfl, fun _ => rfl, fun _ => rfl, fun _ => rfl, fun _ => rfl, fun _ => rfl, fun _ => rfl, fun _ => rfl, fun _ => rfl, fun _ => rfl, fun _ => rfl, fun _ => rfl, fun _ => rfl⟩, id, fun b => ⟨b.1, b.2, b.3, b.4, b.5⟩, rfl⟩, fun k => k.trans ⟨fun _ _ _ => rfl, ⟨fun _ => rfl, fun _ => rfl, fun _ => rfl, fun _ => rfl, fun e => absurd (hm.symm.trans e) (by decide), fun _ => rfl, fun _ => rfl, fun _ => rfl, fun _ => rfl, fun _ => rfl, fun _ => rfl, fun _ => rfl, fun _ => rfl, fun _ => rfl, fun _ => rfl, fun _ => rfl, fun _ => rfl, fun _ => rfl, fun _ => rfl, fun _ => rfl, fun _ => rfl, fun _ => rfl, fun _ => rfl⟩, id, fun b => ⟨b.1, b.2, b.3, b.4, b.5⟩, rfl⟩⟩

theorem Upd.syn_ {w p : Nat} {r s : State} {x : SynS} (hm : p.testBit 5 = true) (hb : s.syn.stamps.length ≤ 16 → x.stamps.length ≤ 16) (k : Upd w p r s) :
    Upd w p r { s with syn := x } :=
  k.trans ⟨fun _ _ _ => rfl, ⟨fun _ => rfl, fun _ => rfl, fun _ => rfl, fun _ => rfl, fun _ => rfl, fun e => absurd (hm.symm.trans e) (by decide), fun _ => rfl, fun _ => rfl, fun _ => rfl, fun _ => rfl, fun _ => rfl, fun _ => rfl, fun _ => rfl, fun _ => rfl, fun _ => rfl, fun _ => rfl, fun _ => rfl, fun _ => rfl, fun _ => rfl, fun _ => rfl, fun _ => rfl, fun _ => rfl, fun _ => rfl⟩, id, fun b => ⟨b.1, hb b.2, b.3, b.4, b.5⟩, rfl⟩

theorem Upd.syn_iff {w p : Nat} {r s : State} {x : SynS} (hm : p.testBit 5 = true ∧ x.stamps = s.syn.stamps) :
    Upd w p r { s with syn := x } ↔ Upd w p r s :=
  ⟨fun k => k.trans ⟨fun _ _ _ => rfl, ⟨fun _ => rfl, fun _ => rfl, fun _ => rfl, fun _ => rfl, fun _ => rfl, fun e => absurd (hm.1.symm.trans e) (by decide), fun _ => rfl, fun _ => rfl, fun _ => rfl, fun _ => rfl, fun _ => rfl, fun _ => rfl, fun _ => rfl, fun _ => rfl, fun _ => rfl, fun _ => rfl, fun _ => rfl, fun _ => rfl, fun _ => rfl, fun _ => rfl, fun _ => rfl, fun _ => rfl, fun _ => rfl⟩, id, fun b => ⟨b.1, (by rw [← hm.2]; exact b.2), b.3, b.4, b.5⟩, rfl⟩, fun k => k.trans ⟨fun _ _ _ => rfl, ⟨fun _ => rfl, fun _ => rfl, fun _ => rfl, fun _ => rfl, fun _ => rfl, fun e => absurd (hm.1.symm.trans e) (by decide), fun _ => rfl, fun _ => rfl, fun _ => rfl, fun _ => rfl, fun _ => rfl, fun _ => rfl, fun _ => rfl, fun _ => rfl, fun _ => rfl, fun _ => rfl, fun _ => rfl, fun _ => rfl, fun _ => rfl, fun _ => rfl, fun _ => rfl, fun _ => rfl, fun _ => rfl⟩, id, fun b => ⟨b.1, (by rw [hm.2]; exact b.2), b.3, b.4, b.5⟩, rfl⟩⟩

theorem Upd.pipe_ {w p : Nat} {r s : State} {x : _} (hm : p.testBit 6 = true) (k : Upd w p r s) :
    Upd w p r { s with pipe := x } :=
  k.trans ⟨fun _ _ _ => rfl, ⟨fun _ => rfl, fun _ => rfl, fun _ => rfl, fun _ => rfl, fun _ => rfl, fun _ => rfl, fun e => absurd (hm.symm.trans e) (by decide), fun _ => rfl, fun _ => rfl, fun _ => rfl, fun _ => rfl, fun _ => rfl, fun _ => rfl, fun _ => rfl, fun _ => rfl, fun _ => rfl, fun _ => rfl, fun _ => rfl, fun _ => rfl, fun _ => rfl, fun _ => rfl, fun _ => rfl, fun _ => rfl⟩, id, fun b => ⟨b.1, b.2, b.3, b.4, b.5⟩, rfl⟩

theorem Upd.pipe_iff {w p : Nat} {r s : State} {x : _} (hm : p.testBit 6 = true) :
    Upd w p r { s with pipe := x } ↔ Upd w p r s :=
  ⟨fun k => k.trans ⟨fun _ _ _ => rfl, ⟨fun _ => rfl, fun _ => rfl, fun _ => rfl, fun _ => rfl, fun _ => rfl, fun _ => rfl, fun e => absurd (hm.symm.trans e) (by decide), fun _ => rfl, fun _ => rfl, fun _ => rfl, fun _ => rfl, fun _ => rfl, fun _ => rfl, fun _ => rfl, fun _ => rfl, fun _ => rfl, fun _ => rfl, fun _ => rfl, fun _ => rfl, fun _ => rfl, fun _ => rfl, fun _ => rfl, fun _ => rfl⟩, id, fun b => ⟨b.1, b.2, b.3, b.4, b.5⟩, rfl⟩, fun k => k.trans ⟨fun _ _ _ => rfl, ⟨fun _ => rfl, fun _ => rfl, fun _ => rfl, fun _ => rfl, fun _ => rfl, fun _ => rfl, fun e => absurd (hm.symm.trans e) (by decide), fun _ => rfl, fun _ => rfl, fun _ => rfl, fun _ => rfl, fun _ => rfl, fun _ => rfl, fun _ => rfl, fun _ => rfl, fun _ => rfl, fun _ => rfl, fun _ => rfl, fun _ => rfl, fun _ => rfl, fun _ => rfl, fun _ => rfl, fun _ => rfl⟩, id, fun b => ⟨b.1, b.2, b.3, b.4, b.5⟩, rfl⟩⟩

theorem Upd.blankets_ {w p : Nat} {r s : State} {x : _} (hm : p.testBit 7 = true) (k : Upd w p r s) :
    Upd w p r { s with blankets := x } :=
  k.trans ⟨fun _ _ _ => rfl, ⟨fun _ => rfl, fun _ => rfl, fun _ => rfl, fun _ => rfl, fun _ => rfl, fun _ => rfl, fun _ => rfl, fun e => absurd (hm.symm.trans e) (by decide), fun _ => rfl, fun _ => rfl, fun _ => rfl, fun _ => rfl, fun _ => rfl, fun _ => rfl, fun _ => rfl, fun _ => rfl, fun _ => rfl, fun _ => rfl, fun _ => rfl, fun _ => rfl, fun _ => rfl, fun _ => rfl, fun _ => rfl⟩, id, fun b => ⟨b.1, b.2, b.3, b.4, b.5⟩, rfl⟩

theorem Upd.blankets_iff {w p : Nat} {r s : State} {x : _} (hm : p.testBit 7 = true) :
    Upd w p r { s with blankets := x } ↔ Upd w p r s :=
  ⟨fun k => k.trans ⟨fun _ _ _ => rfl, ⟨fun _ => rfl, fun _ => rfl, fun _ => rfl, fun _ => rfl, fun _ => rfl, fun _ => rfl, fun _ => rfl, fun e => absurd (hm.symm.trans e) (by decide), fun _ => rfl, fun _ => rfl, fun _ => rfl, fun _ => rfl, fun _ => rfl, fun _ => rfl, fun _ => rfl, fun _ => rfl, fun _ => rfl, fun _ => rfl, fun _ => rfl, fun _ => rfl, fun _ => rfl, fun _ => rfl, fun _ => rfl⟩, id, fun b => ⟨b.1, b.2, b.3, b.4, b.5⟩, rfl⟩, fun k => k.trans ⟨fun _ _ _ => rfl, ⟨fun _ => rfl, fun _ => rfl, fun _ => rfl, fun _ => rfl, fun _ => rfl, fun _ => rfl, fun _ => rfl, fun e => absurd (hm.symm.trans e) (by decide), fun _ => rfl, fun _ => rfl, fun _ => rfl, fun _ => rfl, fun _ => rfl, fun _ => rfl, fun _ => rfl, fun _ => rfl, fun _ => rfl, fun _ => rfl, fun _ => rfl, fun _ => rfl, fun _ => rfl, fun _ => rfl, fun _ => rfl⟩, id, fun b => ⟨b.1, b.2, b.3, b.4, b.5⟩, rfl⟩⟩

theorem Upd.ref_ {w p : Nat} {r s : State} {x : _} (hm : p.testBit 8 = true) (k : Upd w p r s) :
    Upd w p r { s with ref := x } :=
  k.trans ⟨fun _ _ _ => rfl, ⟨fun _ => rfl, fun _ => rfl, fun _ => rfl, fun _ => rfl, fun _ => rfl, fun _ => rfl, fun _ => rfl, fun _ => rfl, fun e => absurd (hm.symm.trans e) (by decide), fun _ => rfl, fun _ => rfl, fun _ => rfl, fun _ => rfl, fun _ => rfl, fun _ => rfl, fun _ => rfl, fun _ => rfl, fun _ => rfl, fun _ => rfl, fun _ => rfl, fun _ => rfl, fun _ => rfl, fun _ => rfl⟩, id, fun b => ⟨b.1, b.2, b.3, b.4, b.5⟩, rfl⟩

theorem Upd.ref_iff {w p : Nat} {r s : State} {x : _} (hm : p.testBit 8 = true) :
    Upd w p r { s with ref := x } ↔ Upd w p r s :=
  ⟨fun k => k.trans ⟨fun _ _ _ => rfl, ⟨fun _ => rfl, fun _ => rfl, fun _ => rfl, fun _ => rfl, fun _ => rfl, fun _ => rfl, fun _ => rfl, fun _ => rfl, fun e => absurd (hm.symm.trans e) (by decide), fun _ => rfl, fun _ => rfl, fun _ => rfl, fun _ => rfl, fun _ => rfl, fun _ => rfl, fun _ => rfl, fun _ => rfl, fun _ => rfl, fun _ => rfl, fun _ => rfl, fun _ => rfl, fun _ => rfl, fun _ => rfl⟩, id, fun b => ⟨b.1, b.2, b.3, b.4, b.5⟩, rfl⟩, fun k => k.trans ⟨fun _ _ _ => rfl, ⟨fun _ => rfl, fun _ => rfl, fun _ => rfl, fun _ => rfl, fun _ => rfl, fun _ => rfl, fun _ => rfl, fun _ => rfl, fun e => absurd (hm.symm.trans e) (by decide), fun _ => rfl, fun _ => rfl, fun _ => rfl, fun _ => rfl, fun _ => rfl, fun _ => rfl, fun _ => rfl, fun _ => rfl, fun _ => rfl, fun _ => rfl, fun _ => rfl, fun _ => rfl, fun _ => rfl, fun _ => rfl⟩, id, fun b => ⟨b.1, b.2, b.3, b.4, b.5⟩, rfl⟩⟩

theorem Upd.products_ {w p : Nat} {r s : State} {x : _} (hm : p.testBit 9 = true) (k : Upd w p r s) :
    Upd w p r { s with products := x } :=
  k.trans ⟨fun _ _ _ => rfl, ⟨fun _ => rfl, fun _ => rfl, fun _ => rfl, fun _ => rfl, fun _ => rfl, fun _ => rfl, fun _ => rfl, fun _ => rfl, fun _ => rfl, fun e => absurd (hm.symm.trans e) (by decide), fun _ => rfl, fun _ => rfl, fun _ => rfl, fun _ => rfl, fun _ => rfl, fun _ => rfl, fun _ => rfl, fun _ => rfl, fun _ => rfl, fun _ => rfl, fun _ => rfl, fun _ => rfl, fun _ => rfl⟩, id, fun b => ⟨b.1, b.2, b.3, b.4, b.5⟩, rfl⟩

theorem Upd.products_iff {w p : Nat} {r s : State} {x : _} (hm : p.testBit 9 = true) :
    Upd w p r { s with products := x } ↔ Upd w p r s :=
  ⟨fun k => k.trans ⟨fun _ _ _ => rfl, ⟨fun _ => rfl, fun _ => rfl, fun _ => rfl, fun _ => rfl, fun _ => rfl, fun _ => rfl, fun _ => rfl, fun _ => rfl, fun _ => rfl, fun e => absurd (hm.symm.trans e) (by decide), fun _ => rfl, fun _ => rfl, fun _ => rfl, fun _ => rfl, fun _ => rfl, fun _ => rfl, fun _ => rfl, fun _ => rfl, fun _ => rfl, fun _ => rfl, fun _ => rfl, fun _ => rfl, fun _ => rfl⟩, id, fun b => ⟨b.1, b.2, b.3, b.4, b.5⟩, rfl⟩, fun k => k.trans ⟨fun _ _ _ => rfl, ⟨fun _ => rfl, fun _ => rfl, fun _ => rfl, fun _ => rfl, fun _ => rfl, fun _ => rfl, fun _ => rfl, fun _ => rfl, fun _ => rfl, fun e => absurd (hm.symm.trans e) (by decide), fun _ => rfl, fun _ => rfl, fun _ => rfl, fun _ => rfl, fun _ => rfl, fun _ => rfl, fun _ => rfl, fun _ => rfl, fun _ => rfl, fun _ => rfl, fun _ => rfl, fun _ => rfl, fun _ => rfl⟩, id, fun b => ⟨b.1, b.2, b.3, b.4, b.5⟩, rfl⟩⟩

theorem Upd.egr_ {w p : Nat} {r s : State} {x : _} (hm : p.testBit 10 = true) (k : Upd w p r s) :
    Upd w p r { s with egr := x } :=
  k.trans ⟨fun _ _ _ => rfl, ⟨fun _ => rfl, fun _ => rfl, fun _ => rfl, fun _ => rfl, fun _ => rfl, fun _ => rfl, fun _ => rfl, fun _ => rfl, fun _ => rfl, fun _ => rfl, fun e => absurd (hm.symm.trans e) (by decide), fun _ => rfl, fun _ => rfl, fun _ => rfl, fun _ => rfl, fun _ => rfl, fun _ => rfl, fun _ => rfl, fun _ => rfl, fun _ => rfl, fun _ => rfl, fun _ => rfl, fun _ => rfl⟩, id, fun b => ⟨b.1, b.2, b.3, b.4, b.5⟩, rfl⟩

theorem Upd.egr_iff {w p : Nat} {r s : State} {x : _} (hm : p.testBit 10 = true) :
    Upd w p r { s with egr := x } ↔ Upd w p r s :=
  ⟨fun k => k.trans ⟨fun _ _ _ => rfl, ⟨fun _ => rfl, fun _ => rfl, fun _ => rfl, fun _ => rfl, fun _ => rfl, fun _ => rfl, fun _ => rfl, fun _ => rfl, fun _ => rfl, fun _ => rfl, fun e => absurd (hm.symm.trans e) (by decide), fun _ => rfl, fun _ => rfl, fun _ => rfl, fun _ => rfl, fun _ => rfl, fun _ => rfl, fun _ => rfl, fun _ => rfl, fun _ => rfl, fun _ => rfl, fun _ => rfl, fun _ => rfl⟩, id, fun b => ⟨b.1, b.2, b.3, b.4, b.5⟩, rfl⟩, fun k => k.trans ⟨fun _ _ _ => rfl, ⟨fun _ => rfl, fun _ => rfl, fun _ => rfl, fun _ => rfl, fun _ => rfl, fun _ => rfl, fun _ => rfl, fun _ => rfl, fun _ => rfl, fun _ => rfl, fun e => absurd (hm.symm.trans e) (by decide), fun _ => rfl, fun _ => rfl, fun _ => rfl, fun _ => rfl, fun _ => rfl, fun _ => rfl, fun _ => rfl, fun _ => rfl, fun _ => rfl, fun _ => rfl, fun _ => rfl, fun _ => rfl⟩, id, fun b => ⟨b.1, b.2, b.3, b.4, b.5⟩, rfl⟩⟩

theorem Upd.brg_ {w p : Nat} {r s : State} {x : _} (hm : p.testBit 11 = true) (k : Upd w p r s) :
    Upd w p r { s with brg := x } :=
  k.trans ⟨fun _ _ _ => rfl, ⟨fun _ => rfl, fun _ => rfl, fun _ => rfl, fun _ => rfl, fun _ => rfl, fun _ => rfl, fun _ => rfl, fun _ => rfl, fun _ => rfl, fun _ => rfl, fun _ => rfl, fun e => absurd (hm.symm.trans e) (by decide), fun _ => rfl, fun _ => rfl, fun _ => rfl, fun _ => rfl, fun _ => rfl, fun _ => rfl, fun _ => rfl, fun _ => rfl, fun _ => rfl, fun _ => rfl, fun _ => rfl⟩, id, fun b => ⟨b.1, b.2, b.3, b.4, b.5⟩, rfl⟩

theorem Upd.brg_iff {w p : Nat} {r s : State} {x : _} (hm : p.testBit 11 = true) :
    Upd w p r { s with brg := x } ↔ Upd w p r s :=
  ⟨fun k => k.trans ⟨fun _ _ _ => rfl, ⟨fun _ => rfl, fun _ => rfl, fun _ => rfl, fun _ => rfl, fun _ => rfl, fun _ => rfl, fun _ => rfl, fun _ => rfl, fun _ => rfl, fun _ => rfl, fun _ => rfl, fun e => absurd (hm.symm.trans e) (by decide), fun _ => rfl, fun _ => rfl, fun _ => rfl, fun _ => rfl, fun _ => rfl, fun _ => rfl, fun _ => rfl, fun _ => rfl, fun _ => rfl, fun _ => rfl, fun _ => rfl⟩, id, fun b => ⟨b.1, b.2, b.3, b.4, b.5⟩, rfl⟩, fun k => k.trans ⟨fun _ _ _ => rfl, ⟨fun _ => rfl, fun _ => rfl, fun _ => rfl, fun _ => rfl, fun _ => rfl, fun _ => rfl, fun _ => rfl, fun _ => rfl, fun _ => rfl, fun _ => rfl, fun _ => rfl, fun e => absurd (hm.symm.trans e) (by decide), fun _ => rfl, fun _ => rfl, fun _ => rfl, fun _ => rfl, fun _ => rfl, fun _ => rfl, fun _ => rfl, fun _ => rfl, fun _ => rfl, fun _ => rfl, fun _ => rfl⟩, id, fun b => ⟨b.1, b.2, b.3, b.4, b.5⟩, rfl⟩⟩

theorem Upd.memq_ {w p : Nat} {r s : State} {x : _} (hm : p.testBit 12 = true) (k : Upd w p r s) :
    Upd w p r { s with memq := x } :=
  k.trans ⟨fun _ _ _ => rfl, ⟨fun _ => rfl, fun _ => rfl, fun _ => rfl, fun _ => rfl, fun _ => rfl, fun _ => rfl, fun _ => rfl, fun _ => rfl, fun _ => rfl, fun _ => rfl, fun _ => rfl, fun _ => rfl, fun e => absurd (hm.symm.trans e) (by decide), fun _ => rfl, fun _ => rfl, fun _ => rfl, fun _ => rfl, fun _ => rfl, fun _ => rfl, fun _ => rfl, fun _ => rfl, fun _ => rfl, fun _ => rfl⟩, id, fun b => ⟨b.1, b.2, b.3, b.4, b.5⟩, rfl⟩

theorem Upd.memq_iff {w p : Nat} {r s : State} {x : _} (hm : p.testBit 12 = true) :
    Upd w p r { s with memq := x } ↔ Upd w p r s :=
  ⟨fun k => k.trans ⟨fun _ _ _ => rfl, ⟨fun _ => rfl, fun _ => rfl, fun _ => rfl, fun _ => rfl, fun _ => rfl, fun _ => rfl, fun _ => rfl, fun _ => rfl, fun _ => rfl, fun _ => rfl, fun _ => rfl, fun _ => rfl, fun e => absurd (hm.symm.trans e) (by decide), fun _ => rfl, fun _ => rfl, fun _ => rfl, fun _ => rfl, fun _ => rfl, fun _ => rfl, fun _ => rfl, fun _ => rfl, fun _ => rfl, fun _ => rfl⟩, id, fun b => ⟨b.1, b.2, b.3, b.4, b.5⟩, rfl⟩, fun k => k.trans ⟨fun _ _ _ => rfl, ⟨fun _ => rfl, fun _ => rfl, fun _ => rfl, fun _ => rfl, fun _ => rfl, fun _ => rfl, fun _ => rfl, fun _ => rfl, fun _ => rfl, fun _ => rfl, fun _ => rfl, fun _ => rfl, fun e => absurd (hm.symm.trans e) (by decide), fun _ => rfl, fun _ => rfl, fun _ => rfl, fun _ => rfl, fun _ => rfl, fun _ => rfl, fun _ => rfl, fun _ => rfl, fun _ => rfl, fun _ => rfl⟩, id, fun b => ⟨b.1, b.2, b.3, b.4, b.5⟩, rfl⟩⟩

theorem Upd.sto_ {w p : Nat} {r s : State} {x : _} (hm : p.testBit 13 = true) (k : Upd w p r s) :
    Upd w p r { s with sto := x } :=
  k.trans ⟨fun _ _ _ => rfl, ⟨fun _ => rfl, fun _ => rfl, fun _ => rfl, fun _ => rfl, fun _ => rfl, fun _ => rfl, fun _ => rfl, fun _ => rfl, fun _ => rfl, fun _ => rfl, fun _ => rfl, fun _ => rfl, fun _ => rfl, fun e => absurd (hm.symm.trans e) (by decide), fun _ => rfl, fun _ => rfl, fun _ => rfl, fun _ => rfl, fun _ => rfl, fun _ => rfl, fun _ => rfl, fun _ => rfl, fun _ => rfl⟩, id, fun b => ⟨b.1, b.2, b.3, b.4, b.5⟩, rfl⟩

theorem Upd.sto_iff {w p : Nat} {r s : State} {x : _} (hm : p.testBit 13 = true) :
    Upd w p r { s with sto := x } ↔ Upd w p r s :=
  ⟨fun k => k.trans ⟨fun _ _ _ => rfl, ⟨fun _ => rfl, fun _ => rfl, fun _ => rfl, fun _ => rfl, fun _ => rfl, fun _ => rfl, fun _ => rfl, fun _ => rfl, fun _ => rfl, fun _ => rfl, fun _ => rfl, fun _ => rfl, fun _ => rfl, fun e => absurd (hm.symm.trans e) (by decide), fun _ => rfl, fun _ => rfl, fun _ => rfl, fun _ => rfl, fun _ => rfl, fun _ => rfl, fun _ => rfl, fun _ => rfl, fun _ => rfl⟩, id, fun b => ⟨b.1, b.2, b.3, b.4, b.5⟩, rfl⟩, fun k => k.trans ⟨fun _ _ _ => rfl, ⟨fun _ => rfl, fun _ => rfl, fun _ => rfl, fun _ => rfl, fun _ => rfl, fun _ => rfl, fun _ => rfl, fun _ => rfl, fun _ => rfl, fun _ => rfl, fun _ => rfl, fun _ => rfl, fun _ => rfl, fun e => absurd (hm.symm.trans e) (by decide), fun _ => rfl, fun _ => rfl, fun _ => rfl, fun _ => rfl, fun _ => rfl, fun _ => rfl, fun _ => rfl, fun _ => rfl, fun _ => rfl⟩, id, fun b => ⟨b.1, b.2, b.3, b.4, b.5⟩, rfl⟩⟩

theorem Upd.job_ {w p : Nat} {r s : State} {x : _} (hm : p.testBit 14 = true) (k : Upd w p r s) :
    Upd w p r { s with job := x } :=
  k.trans ⟨fun _ _ _ => rfl, ⟨fun _ => rfl, fun _ => rfl, fun _ => rfl, fun _ => rfl, fun _ => rfl, fun _ => rfl, fun _ => rfl, fun _ => rfl, fun _ => rfl, fun _ => rfl, fun _ => rfl, fun _ => rfl, fun _ => rfl, fun _ => rfl, fun e => absurd (hm.symm.trans e) (by decide), fun _ => rfl, fun _ => rfl, fun _ => rfl, fun _ => rfl, fun _ => rfl, fun _ => rfl, fun _ => rfl, fun _ => rfl⟩, id, fun b => ⟨b.1, b.2, b.3, b.4, b.5⟩, rfl⟩

theorem Upd.job_iff {w p : Nat} {r s : State} {x : _} (hm : p.testBit 14 = true) :
    Upd w p r { s with job := x } ↔ Upd w p r s :=
  ⟨fun k => k.trans ⟨fun _ _ _ => rfl, ⟨fun _ => rfl, fun _ => rfl, fun _ => rfl, fun _ => rfl, fun _ => rfl, fun _ => rfl, fun _ => rfl, fun _ => rfl, fun _ => rfl, fun _ => rfl, fun _ => rfl, fun _ => rfl, fun _ => rfl, fun _ => rfl, fun e => absurd (hm.symm.trans e) (by decide), fun _ => rfl, fun _ => rfl, fun _ => rfl, fun _ => rfl, fun _ => rfl, fun _ => rfl, fun _ => rfl, fun _ => rfl⟩, id, fun b => ⟨b.1, b.2, b.3, b.4, b.5⟩, rfl⟩, fun k => k.trans ⟨fun _ _ _ => rfl, ⟨fun _ => rfl, fun _ => rfl, fun _ => rfl, fun _ => rfl, fun _ => rfl, fun _ => rfl, fun _ => rfl, fun _ => rfl, fun _ => rfl, fun _ => rfl, fun _ => rfl, fun _ => rfl, fun _ => rfl, fun _ => rfl, fun e => absurd (hm.symm.trans e) (by decide), fun _ => rfl, fun _ => rfl, fun _ => rfl, fun _ => rfl, fun _ => rfl, fun _ => rfl, fun _ => rfl, fun _ => rfl⟩, id, fun b => ⟨b.1, b.2, b.3, b.4, b.5⟩, rfl⟩⟩

theorem Upd.fab_ {w p : Nat} {r s : State} {x : _} (hm : p.testBit 15 = true) (k : Upd w p r s) :
    Upd w p r { s with fab := x } :=
  k.trans ⟨fun _ _ _ => rfl, ⟨fun _ => rfl, fun _ => rfl, fun _ => rfl, fun _ => rfl, fun _ => rfl, fun _ => rfl, fun _ => rfl, fun _ => rfl, fun _ => rfl, fun _ => rfl, fun _ => rfl, fun _ => rfl, fun _ => rfl, fun _ => rfl, fun _ => rfl, fun e => absurd (hm.symm.trans e) (by decide), fun _ => rfl, fun _ => rfl, fun _ => rfl, fun _ => rfl, fun _ => rfl, fun _ => rfl, fun _ => rfl⟩, id, fun b => ⟨b.1, b.2, b.3, b.4, b.5⟩, rfl⟩

theorem Upd.fab_iff {w p : Nat} {r s : State} {x : _} (hm : p.testBit 15 = true) :
    Upd w p r { s with fab := x } ↔ Upd w p r s :=
  ⟨fun k => k.trans ⟨fun _ _ _ => rfl, ⟨fun _ => rfl, fun _ => rfl, fun _ => rfl, fun _ => rfl, fun _ => rfl, fun _ => rfl, fun _ => rfl, fun _ => rfl, fun _ => rfl, fun _ => rfl, fun _ => rfl, fun _ => rfl, fun _ => rfl, fun _ => rfl, fun _ => rfl, fun e => absurd (hm.symm.trans e) (by decide), fun _ => rfl, fun _ => rfl, fun _ => rfl, fun _ => rfl, fun _ => rfl, fun _ => rfl, fun _ => rfl⟩, id, fun b => ⟨b.1, b.2, b.3, b.4, b.5⟩, rfl⟩, fun k => k.trans ⟨fun _ _ _ => rfl, ⟨fun _ => rfl, fun _ => rfl, fun _ => rfl, fun _ => rfl, fun _ => rfl, fun _ => rfl, fun _ => rfl, fun _ => rfl, fun _ => rfl, fun _ => rfl, fun _ => rfl, fun _ => rfl, fun _ => rfl, fun _ => rfl, fun _ => rfl, fun e => absurd (hm.symm.trans e) (by decide), fun _ => rfl, fun _ => rfl, fun _ => rfl, fun _ => rfl, fun _ => rfl, fun _ => rfl, fun _ => rfl⟩, id, fun b => ⟨b.1, b.2, b.3, b.4, b.5⟩, rfl⟩⟩

theorem Upd.boot_ {w p : Nat} {r s : State} {x : _} (hm : p.testBit 16 = true) (k : Upd w p r s) :
    Upd w p r { s with boot := x } :=
  k.trans ⟨fun _ _ _ => rfl, ⟨fun _ => rfl, fun _ => rfl, fun _ => rfl, fun _ => rfl, fun _ => rfl, fun _ => rfl, fun _ => rfl, fun _ => rfl, fun _ => rfl, fun _ => rfl, fun _ => rfl, fun _ => rfl, fun _ => rfl, fun _ => rfl, fun _ => rfl, fun _ => rfl, fun e => absurd (hm.symm.trans e) (by decide), fun _ => rfl, fun _ => rfl, fun _ => rfl, fun _ => rfl, fun _ => rfl, fun _ => rfl⟩, id, fun b => ⟨b.1, b.2, b.3, b.4, b.5⟩, rfl⟩

theorem Upd.boot_iff {w p : Nat} {r s : State} {x : _} (hm : p.testBit 16 = true) :
    Upd w p r { s with boot := x } ↔ Upd w p r s :=
  ⟨fun k => k.trans ⟨fun _ _ _ => rfl, ⟨fun _ => rfl, fun _ => rfl, fun _ => rfl, fun _ => rfl, fun _ => rfl, fun _ => rfl, fun _ => rfl, fun _ => rfl, fun _ => rfl, fun _ => rfl, fun _ => rfl, fun _ => rfl, fun _ => rfl, fun _ => rfl, fun _ => rfl, fun _ => rfl, fun e => absurd (hm.symm.trans e) (by decide), fun _ => rfl, fun _ => rfl, fun _ => rfl, fun _ => rfl, fun _ => rfl, fun _ => rfl⟩, id, fun b => ⟨b.1, b.2, b.3, b.4, b.5⟩, rfl⟩, fun k => k.trans ⟨fun _ _ _ => rfl, ⟨fun _ => rfl, fun _ => rfl, fun _ => rfl, fun _ => rfl, fun _ => rfl, fun _ => rfl, fun _ => rfl, fun _ => rfl, fun _ => rfl, fun _ => rfl, fun _ => rfl, fun _ => rfl, fun _ => rfl, fun _ => rfl, fun _ => rfl, fun _ => rfl, fun e => absurd (hm.symm.trans e) (by decide), fun _ => rfl, fun _ => rfl, fun _ => rfl, fun _ => rfl, fun _ => rfl, fun _ => rfl⟩, id, fun b => ⟨b.1, b.2, b.3, b.4, b.5⟩, rfl⟩⟩

theorem Upd.bist_ {w p : Nat} {r s : State} {x : _} (hm : p.testBit 17 = true) (k : Upd w p r s) :
    Upd w p r { s with bist := x } :=
  k.trans ⟨fun _ _ _ => rfl, ⟨fun _ => rfl, fun _ => rfl, fun _ => rfl, fun _ => rfl, fun _ => rfl, fun _ => rfl, fun _ => rfl, fun _ => rfl, fun _ => rfl, fun _ => rfl, fun _ => rfl, fun _ => rfl, fun _ => rfl, fun _ => rfl, fun _ => rfl, fun _ => rfl, fun _ => rfl, fun e => absurd (hm.symm.trans e) (by decide), fun _ => rfl, fun _ => rfl, fun _ => rfl, fun _ => rfl, fun _ => rfl⟩, id, fun b => ⟨b.1, b.2, b.3, b.4, b.5⟩, rfl⟩

theorem Upd.bist_iff {w p : Nat} {r s : State} {x : _} (hm : p.testBit 17 = true) :
    Upd w p r { s with bist := x } ↔ Upd w p r s :=
  ⟨fun k => k.trans ⟨fun _ _ _ => rfl, ⟨fun _ => rfl, fun _ => rfl, fun _ => rfl, fun _ => rfl, fun _ => rfl, fun _ => rfl, fun _ => rfl, fun _ => rfl, fun _ => rfl, fun _ => rfl, fun _ => rfl, fun _ => rfl, fun _ => rfl, fun _ => rfl, fun _ => rfl, fun _ => rfl, fun _ => rfl, fun e => absurd (hm.symm.trans e) (by decide), fun _ => rfl, fun _ => rfl, fun _ => rfl, fun _ => rfl, fun _ => rfl⟩, id, fun b => ⟨b.1, b.2, b.3, b.4, b.5⟩, rfl⟩, fun k => k.trans ⟨fun _ _ _ => rfl, ⟨fun _ => rfl, fun _ => rfl, fun _ => rfl, fun _ => rfl, fun _ => rfl, fun _ => rfl, fun _ => rfl, fun _ => rfl, fun _ => rfl, fun _ => rfl, fun _ => rfl, fun _ => rfl, fun _ => rfl, fun _ => rfl, fun _ => rfl, fun _ => rfl, fun _ => rfl, fun e => absurd (hm.symm.trans e) (by decide), fun _ => rfl, fun _ => rfl, fun _ => rfl, fun _ => rfl, fun _ => rfl⟩, id, fun b => ⟨b.1, b.2, b.3, b.4, b.5⟩, rfl⟩⟩

theorem Upd.mgt_ {w p : Nat} {r s : State} {x : MgtS} (hm : p.testBit 18 = true) (hb : s.mgt.rejected.length ≤ 64 → x.rejected.length ≤ 64) (k : Upd w p r s) :
    Upd w p r { s with mgt := x } :=
  k.trans ⟨fun _ _ _ => rfl, ⟨fun _ => rfl, fun _ => rfl, fun _ => rfl, fun _ => rfl, fun _ => rfl, fun _ => rfl, fun _ => rfl, fun _ => rfl, fun _ => rfl, fun _ => rfl, fun _ => rfl, fun _ => rfl, fun _ => rfl, fun _ => rfl, fun _ => rfl, fun _ => rfl, fun _ => rfl, fun _ => rfl, fun e => absurd (hm.symm.trans e) (by decide), fun _ => rfl, fun _ => rfl, fun _ => rfl, fun _ => rfl⟩, id, fun b => ⟨b.1, b.2, hb b.3, b.4, b.5⟩, rfl⟩

theorem Upd.mgt_iff {w p : Nat} {r s : State} {x : MgtS} (hm : p.testBit 18 = true ∧ x.rejected = s.mgt.rejected) :
    Upd w p r { s with mgt := x } ↔ Upd w p r s :=
  ⟨fun k => k.trans ⟨fun _ _ _ => rfl, ⟨fun _ => rfl, fun _ => rfl, fun _ => rfl, fun _ => rfl, fun _ => rfl, fun _ => rfl, fun _ => rfl, fun _ => rfl, fun _ => rfl, fun _ => rfl, fun _ => rfl, fun _ => rfl, fun _ => rfl, fun _ => rfl, fun _ => rfl, fun _ => rfl, fun _ => rfl, fun _ => rfl, fun e => absurd (hm.1.symm.trans e) (by decide), fun _ => rfl, fun _ => rfl, fun _ => rfl, fun _ => rfl⟩, id, fun b => ⟨b.1, b.2, (by rw [← hm.2]; exact b.3), b.4, b.5⟩, rfl⟩, fun k => k.trans ⟨fun _ _ _ => rfl, ⟨fun _ => rfl, fun _ => rfl, fun _ => rfl, fun _ => rfl, fun _ => rfl, fun _ => rfl, fun _ => rfl, fun _ => rfl, fun _ => rfl, fun _ => rfl, fun _ => rfl, fun _ => rfl, fun _ => rfl, fun _ => rfl, fun _ => rfl, fun _ => rfl, fun _ => rfl, fun _ => rfl, fun e => absurd (hm.1.symm.trans e) (by decide), fun _ => rfl, fun _ => rfl, fun _ => rfl, fun _ => rfl⟩, id, fun b => ⟨b.1, b.2, (by rw [hm.2]; exact b.3), b.4, b.5⟩, rfl⟩⟩

theorem Upd.sec_ {w p : Nat} {r s : State} {x : SecS} (hm : p.testBit 19 = true) (hn : s.sec.nonces.length ≤ 4 → x.nonces.length ≤ 4)
    (hq : (s.sec.queue.filter fun q => !q.isSwitch).length ≤ 256 → (x.queue.filter fun q => !q.isSwitch).length ≤ 256) (k : Upd w p r s) :
    Upd w p r { s with sec := x } :=
  k.trans ⟨fun _ _ _ => rfl, ⟨fun _ => rfl, fun _ => rfl, fun _ => rfl, fun _ => rfl, fun _ => rfl, fun _ => rfl, fun _ => rfl, fun _ => rfl, fun _ => rfl, fun _ => rfl, fun _ => rfl, fun _ => rfl, fun _ => rfl, fun _ => rfl, fun _ => rfl, fun _ => rfl, fun _ => rfl, fun _ => rfl, fun _ => rfl, fun e => absurd (hm.symm.trans e) (by decide), fun _ => rfl, fun _ => rfl, fun _ => rfl⟩, id, fun b => ⟨b.1, b.2, b.3, hn b.4, hq b.5⟩, rfl⟩

theorem Upd.sec_iff {w p : Nat} {r s : State} {x : SecS} (hm : p.testBit 19 = true ∧ x.nonces = s.sec.nonces ∧ x.queue = s.sec.queue) :
    Upd w p r { s with sec := x } ↔ Upd w p r s :=
  ⟨fun k => k.trans ⟨fun _ _ _ => rfl, ⟨fun _ => rfl, fun _ => rfl, fun _ => rfl, fun _ => rfl, fun _ => rfl, fun _ => rfl, fun _ => rfl, fun _ => rfl, fun _ => rfl, fun _ => rfl, fun _ => rfl, fun _ => rfl, fun _ => rfl, fun _ => rfl, fun _ => rfl, fun _ => rfl, fun _ => rfl, fun _ => rfl, fun _ => rfl, fun e => absurd (hm.1.symm.trans e) (by decide), fun _ => rfl, fun _ => rfl, fun _ => rfl⟩, id, fun b => ⟨b.1, b.2, b.3, (by rw [← hm.2.1]; exact b.4), (by rw [← hm.2.2]; exact b.5)⟩, rfl⟩, fun k => k.trans ⟨fun _ _ _ => rfl, ⟨fun _ => rfl, fun _ => rfl, fun _ => rfl, fun _ => rfl, fun _ => rfl, fun _ => rfl, fun _ => rfl, fun _ => rfl, fun _ => rfl, fun _ => rfl, fun _ => rfl, fun _ => rfl, fun _ => rfl, fun _ => rfl, fun _ => rfl, fun _ => rfl, fun _ => rfl, fun _ => rfl, fun _ => rfl, fun e => absurd (hm.1.symm.trans e) (by decide), fun _ => rfl, fun _ => rfl, fun _ => rfl⟩, id, fun b => ⟨b.1, b.2, b.3, (by rw [hm.2.1]; exact b.4), (by rw [hm.2.2]; exact b.5)⟩, rfl⟩⟩

theorem Upd.out_ {w p : Nat} {r s : State} {x : _} (hm : p.testBit 20 = true) (k : Upd w p r s) :
    Upd w p r { s with out := x } :=
  k.trans ⟨fun _ _ _ => rfl, ⟨fun _ => rfl, fun _ => rfl, fun _ => rfl, fun _ => rfl, fun _ => rfl, fun _ => rfl, fun _ => rfl, fun _ => rfl, fun _ => rfl, fun _ => rfl, fun _ => rfl, fun _ => rfl, fun _ => rfl, fun _ => rfl, fun _ => rfl, fun _ => rfl, fun _ => rfl, fun _ => rfl, fun _ => rfl, fun _ => rfl, fun e => absurd (hm.symm.trans e) (by decide), fun _ => rfl, fun _ => rfl⟩, id, fun b => ⟨b.1, b.2, b.3, b.4, b.5⟩, rfl⟩

theorem Upd.out_iff {w p : Nat} {r s : State} {x : _} (hm : p.testBit 20 = true) :
    Upd w p r { s with out := x } ↔ Upd w p r s :=
  ⟨fun k => k.trans ⟨fun _ _ _ => rfl, ⟨fun _ => rfl, fun _ => rfl, fun _ => rfl, fun _ => rfl, fun _ => rfl, fun _ => rfl, fun _ => rfl, fun _ => rfl, fun _ => rfl, fun _ => rfl, fun _ => rfl, fun _ => rfl, fun _ => rfl, fun _ => rfl, fun _ => rfl, fun _ => rfl, fun _ => rfl, fun _ => rfl, fun _ => rfl, fun _ => rfl, fun e => absurd (hm.symm.trans e) (by decide), fun _ => rfl, fun _ => rfl⟩, id, fun b => ⟨b.1, b.2, b.3, b.4, b.5⟩, rfl⟩, fun k => k.trans ⟨fun _ _ _ => rfl, ⟨fun _ => rfl, fun _ => rfl, fun _ => rfl, fun _ => rfl, fun _ => rfl, fun _ => rfl, fun _ => rfl, fun _ => rfl, fun _ => rfl, fun _ => rfl, fun _ => rfl, fun _ => rfl, fun _ => rfl, fun _ => rfl, fun _ => rfl, fun _ => rfl, fun _ => rfl, fun _ => rfl, fun _ => rfl, fun _ => rfl, fun e => absurd (hm.symm.trans e) (by decide), fun _ => rfl, fun _ => rfl⟩, id, fun b => ⟨b.1, b.2, b.3, b.4, b.5⟩, rfl⟩⟩

theorem Upd.fresh_ {w p : Nat} {r s : State} {x : _} (hm : p.testBit 21 = true) (k : Upd w p r s) :
    Upd w p r { s with fresh := x } :=
  k.trans ⟨fun _ _ _ => rfl, ⟨fun _ => rfl, fun _ => rfl, fun _ => rfl, fun _ => rfl, fun _ => rfl, fun _ => rfl, fun _ => rfl, fun _ => rfl, fun _ => rfl, fun _ => rfl, fun _ => rfl, fun _ => rfl, fun _ => rfl, fun _ => rfl, fun _ => rfl, fun _ => rfl, fun _ => rfl, fun _ => rfl, fun _ => rfl, fun _ => rfl, fun _ => rfl, fun e => absurd (hm.symm.trans e) (by decide), fun _ => rfl⟩, id, fun b => ⟨b.1, b.2, b.3, b.4, b.5⟩, rfl⟩

theorem Upd.fresh_iff {w p : Nat} {r s : State} {x : _} (hm : p.testBit 21 = true) :
    Upd w p r { s with fresh := x } ↔ Upd w p r s :=
  ⟨fun k => k.trans ⟨fun _ _ _ => rfl, ⟨fun _ => rfl, fun _ => rfl, fun _ => rfl, fun _ => rfl, fun _ => rfl, fun _ => rfl, fun _ => rfl, fun _ => rfl, fun _ => rfl, fun _ => rfl, fun _ => rfl, fun _ => rfl, fun _ => rfl, fun _ => rfl, fun _ => rfl, fun _ => rfl, fun _ => rfl, fun _ => rfl, fun _ => rfl, fun _ => rfl, fun _ => rfl, fun e => absurd (hm.symm.trans e) (by decide), fun _ => rfl⟩, id, fun b => ⟨b.1, b.2, b.3, b.4, b.5⟩, rfl⟩, fun k => k.trans ⟨fun _ _ _ => rfl, ⟨fun _ => rfl, fun _ => rfl, fun _ => rfl, fun _ => rfl, fun _ => rfl, fun _ => rfl, fun _ => rfl, fun _ => rfl, fun _ => rfl, fun _ => rfl, fun _ => rfl, fun _ => rfl, fun _ => rfl, fun _ => rfl, fun _ => rfl, fun _ => rfl, fun _ => rfl, fun _ => rfl, fun _ => rfl, fun _ => rfl, fun _ => rfl, fun e => absurd (hm.symm.trans e) (by decide), fun _ => rfl⟩, id, fun b => ⟨b.1, b.2, b.3, b.4, b.5⟩, rfl⟩⟩

theorem Upd.bad_ {w p : Nat} {r s : State} {x : _} (hm : p.testBit 22 = true) (k : Upd w p r s) :
    Upd w p r { s with bad := x } :=
  k.trans ⟨fun _ _ _ => rfl, ⟨fun _ => rfl, fun _ => rfl, fun _ => rfl, fun _ => rfl, fun _ => rfl, fun _ => rfl, fun _ => rfl, fun _ => rfl, fun _ => rfl, fun _ => rfl, fun _ => rfl, fun _ => rfl, fun _ => rfl, fun _ => rfl, fun _ => rfl, fun _ => rfl, fun _ => rfl, fun _ => rfl, fun _ => rfl, fun _ => rfl, fun _ => rfl, fun _ => rfl, fun e => absurd (hm.symm.trans e) (by decide)⟩, id, fun b => ⟨b.1, b.2, b.3, b.4, b.5⟩, rfl⟩

theorem Upd.bad_iff {w p : Nat} {r s : State} {x : _} (hm : p.testBit 22 = true) :
    Upd w p r { s with bad := x } ↔ Upd w p r s :=
  ⟨fun k => k.trans ⟨fun _ _ _ => rfl, ⟨fun _ => rfl, fun _ => rfl, fun _ => rfl, fun _ => rfl, fun _ => rfl, fun _ => rfl, fun _ => rfl, fun _ => rfl, fun _ => rfl, fun _ => rfl, fun _ => rfl, fun _ => rfl, fun _ => rfl, fun _ => rfl, fun _ => rfl, fun _ => rfl, fun _ => rfl, fun _ => rfl, fun _ => rfl, fun _ => rfl, fun _ => rfl, fun _ => rfl, fun e => absurd (hm.symm.trans e) (by decide)⟩, id, fun b => ⟨b.1, b.2, b.3, b.4, b.5⟩, rfl⟩, fun k => k.trans ⟨fun _ _ _ => rfl, ⟨fun _ => rfl, fun _ => rfl, fun _ => rfl, fun _ => rfl, fun _ => rfl, fun _ => rfl, fun _ => rfl, fun _ => rfl, fun _ => rfl, fun _ => rfl, fun _ => rfl, fun _ => rfl, fun _ => rfl, fun _ => rfl, fun _ => rfl, fun _ => rfl, fun _ => rfl, fun _ => rfl, fun _ => rfl, fun _ => rfl, fun _ => rfl, fun _ => rfl, fun e => absurd (hm.symm.trans e) (by decide)⟩, id, fun b => ⟨b.1, b.2, b.3, b.4, b.5⟩, rfl⟩⟩

theorem Upd.mgt_sec_iff {w p : Nat} {r s : State} {xmgt : MgtS} {xsec : SecS}
    (hmmgt : p.testBit 18 = true) (hemgt0 : xmgt.rejected = s.mgt.rejected) (hmsec : p.testBit 19 = true) (hesec0 : xsec.nonces = s.sec.nonces) (hesec1 : xsec.queue = s.sec.queue) :
    Upd w p r { s with mgt := xmgt, sec := xsec } ↔ Upd w p r s :=
  ⟨fun k => k.trans ⟨fun _ _ _ => rfl, ⟨fun _ => rfl, fun _ => rfl, fun _ => rfl, fun _ => rfl, fun _ => rfl, fun _ => rfl, fun _ => rfl, fun _ => rfl, fun _ => rfl, fun _ => rfl, fun _ => rfl, fun _ => rfl, fun _ => rfl, fun _ => rfl, fun _ => rfl, fun _ => rfl, fun _ => rfl, fun _ => rfl, fun e => absurd (hmmgt.symm.trans e) (by decide), fun e => absurd (hmsec.symm.trans e) (by decide), fun _ => rfl, fun _ => rfl, fun _ => rfl⟩, id, fun b => ⟨b.1, b.2, (by rw [← hemgt0]; exact b.3), (by rw [← hesec0]; exact b.4), (by rw [← hesec1]; exact b.5)⟩, rfl⟩,
   fun k => k.trans ⟨fun _ _ _ => rfl, ⟨fun _ => rfl, fun _ => rfl, fun _ => rfl, fun _ => rfl, fun _ => rfl, fun _ => rfl, fun _ => rfl, fun _ => rfl, fun _ => rfl, fun _ => rfl, fun _ => rfl, fun _ => rfl, fun _ => rfl, fun _ => rfl, fun _ => rfl, fun _ => rfl, fun _ => rfl, fun _ => rfl, fun e => absurd (hmmgt.symm.trans e) (by decide), fun e => absurd (hmsec.symm.trans e) (by decide), fun _ => rfl, fun _ => rfl, fun _ => rfl⟩, id, fun b => ⟨b.1, b.2, (by rw [hemgt0]; exact b.3), (by rw [hesec0]; exact b.4), (by rw [hesec1]; exact b.5)⟩, rfl⟩⟩

theorem Upd.frames_ing_iff {w p : Nat} {r s : State} {xframes : _} {xing : _}
    (hmframes : p.testBit 3 = true) (hming : p.testBit 4 = true) :
    Upd w p r { s with frames := xframes, ing := xing } ↔ Upd w p r s :=
  ⟨fun k => k.trans ⟨fun _ _ _ => rfl, ⟨fun _ => rfl, fun _ => rfl, fun _ => rfl, fun e => absurd (hmframes.symm.trans e) (by decide), fun e => absurd (hming.symm.trans e) (by decide), fun _ => rfl, fun _ => rfl, fun _ => rfl, fun _ => rfl, fun _ => rfl, fun _ => rfl, fun _ => rfl, fun _ => rfl, fun _ => rfl, fun _ => rfl, fun _ => rfl, fun _ => rfl, fun _ => rfl, fun _ => rfl, fun _ => rfl, fun _ => rfl, fun _ => rfl, fun _ => rfl⟩, id, fun b => ⟨b.1, b.2, b.3, b.4, b.5⟩, rfl⟩,
   fun k => k.trans ⟨fun _ _ _ => rfl, ⟨fun _ => rfl, fun _ => rfl, fun _ => rfl, fun e => absurd (hmframes.symm.trans e) (by decide), fun e => absurd (hming.symm.trans e) (by decide), fun _ => rfl, fun _ => rfl, fun _ => rfl, fun _ => rfl, fun _ => rfl, fun _ => rfl, fun _ => rfl, fun _ => rfl, fun _ => rfl, fun _ => rfl, fun _ => rfl, fun _ => rfl, fun _ => rfl, fun _ => rfl, fun _ => rfl, fun _ => rfl, fun _ => rfl, fun _ => rfl⟩, id, fun b => ⟨b.1, b.2, b.3, b.4, b.5⟩, rfl⟩⟩

theorem Upd.pipe_blankets_iff {w p : Nat} {r s : State} {xpipe : _} {xblankets : _}
    (hmpipe : p.testBit 6 = true) (hmblankets : p.testBit 7 = true) :
    Upd w p r { s with pipe := xpipe, blankets := xblankets } ↔ Upd w p r s :=
  ⟨fun k => k.trans ⟨fun _ _ _ => rfl, ⟨fun _ => rfl, fun _ => rfl, fun _ => rfl, fun _ => rfl, fun _ => rfl, fun _ => rfl, fun e => absurd (hmpipe.symm.trans e) (by decide), fun e => absurd (hmblankets.symm.trans e) (by decide), fun _ => rfl, fun _ => rfl, fun _ => rfl, fun _ => rfl, fun _ => rfl, fun _ => rfl, fun _ => rfl, fun _ => rfl, fun _ => rfl, fun _ => rfl, fun _ => rfl, fun _ => rfl, fun _ => rfl, fun _ => rfl, fun _ => rfl⟩, id, fun b => ⟨b.1, b.2, b.3, b.4, b.5⟩, rfl⟩,
   fun k => k.trans ⟨fun _ _ _ => rfl, ⟨fun _ => rfl, fun _ => rfl, fun _ => rfl, fun _ => rfl, fun _ => rfl, fun _ => rfl, fun e => absurd (hmpipe.symm.trans e) (by decide), fun e => absurd (hmblankets.symm.trans e) (by decide), fun _ => rfl, fun _ => rfl, fun _ => rfl, fun _ => rfl, fun _ => rfl, fun _ => rfl, fun _ => rfl, fun _ => rfl, fun _ => rfl, fun _ => rfl, fun _ => rfl, fun _ => rfl, fun _ => rfl, fun _ => rfl, fun _ => rfl⟩, id, fun b => ⟨b.1, b.2, b.3, b.4, b.5⟩, rfl⟩⟩

theorem Upd.lane_sto_iff {w p : Nat} {r s : State} {xlane : _} {xsto : _}
    (hmlane : p.testBit 2 = true) (hmsto : p.testBit 13 = true) :
    Upd w p r { s with lane := xlane, sto := xsto } ↔ Upd w p r s :=
  ⟨fun k => k.trans ⟨fun _ _ _ => rfl, ⟨fun _ => rfl, fun _ => rfl, fun e => absurd (hmlane.symm.trans e) (by decide), fun _ => rfl, fun _ => rfl, fun _ => rfl, fun _ => rfl, fun _ => rfl, fun _ => rfl, fun _ => rfl, fun _ => rfl, fun _ => rfl, fun _ => rfl, fun e => absurd (hmsto.symm.trans e) (by decide), fun _ => rfl, fun _ => rfl, fun _ => rfl, fun _ => rfl, fun _ => rfl, fun _ => rfl, fun _ => rfl, fun _ => rfl, fun _ => rfl⟩, id, fun b => ⟨b.1, b.2, b.3, b.4, b.5⟩, rfl⟩,
   fun k => k.trans ⟨fun _ _ _ => rfl, ⟨fun _ => rfl, fun _ => rfl, fun e => absurd (hmlane.symm.trans e) (by decide), fun _ => rfl, fun _ => rfl, fun _ => rfl, fun _ => rfl, fun _ => rfl, fun _ => rfl, fun _ => rfl, fun _ => rfl, fun _ => rfl, fun _ => rfl, fun e => absurd (hmsto.symm.trans e) (by decide), fun _ => rfl, fun _ => rfl, fun _ => rfl, fun _ => rfl, fun _ => rfl, fun _ => rfl, fun _ => rfl, fun _ => rfl, fun _ => rfl⟩, id, fun b => ⟨b.1, b.2, b.3, b.4, b.5⟩, rfl⟩⟩

theorem Upd.job_fab_iff {w p : Nat} {r s : State} {xjob : _} {xfab : _}
    (hmjob : p.testBit 14 = true) (hmfab : p.testBit 15 = true) :
    Upd w p r { s with job := xjob, fab := xfab } ↔ Upd w p r s :=
  ⟨fun k => k.trans ⟨fun _ _ _ => rfl, ⟨fun _ => rfl, fun _ => rfl, fun _ => rfl, fun _ => rfl, fun _ => rfl, fun _ => rfl, fun _ => rfl, fun _ => rfl, fun _ => rfl, fun _ => rfl, fun _ => rfl, fun _ => rfl, fun _ => rfl, fun _ => rfl, fun e => absurd (hmjob.symm.trans e) (by decide), fun e => absurd (hmfab.symm.trans e) (by decide), fun _ => rfl, fun _ => rfl, fun _ => rfl, fun _ => rfl, fun _ => rfl, fun _ => rfl, fun _ => rfl⟩, id, fun b => ⟨b.1, b.2, b.3, b.4, b.5⟩, rfl⟩,
   fun k => k.trans ⟨fun _ _ _ => rfl, ⟨fun _ => rfl, fun _ => rfl, fun _ => rfl, fun _ => rfl, fun _ => rfl, fun _ => rfl, fun _ => rfl, fun _ => rfl, fun _ => rfl, fun _ => rfl, fun _ => rfl, fun _ => rfl, fun _ => rfl, fun _ => rfl, fun e => absurd (hmjob.symm.trans e) (by decide), fun e => absurd (hmfab.symm.trans e) (by decide), fun _ => rfl, fun _ => rfl, fun _ => rfl, fun _ => rfl, fun _ => rfl, fun _ => rfl, fun _ => rfl⟩, id, fun b => ⟨b.1, b.2, b.3, b.4, b.5⟩, rfl⟩⟩

theorem Upd.job_boot_sec_iff {w p : Nat} {r s : State} {xjob : _} {xboot : _} {xsec : SecS}
    (hmjob : p.testBit 14 = true) (hmboot : p.testBit 16 = true) (hmsec : p.testBit 19 = true) (hesec0 : xsec.nonces = s.sec.nonces) (hesec1 : xsec.queue = s.sec.queue) :
    Upd w p r { s with job := xjob, boot := xboot, sec := xsec } ↔ Upd w p r s :=
  ⟨fun k => k.trans ⟨fun _ _ _ => rfl, ⟨fun _ => rfl, fun _ => rfl, fun _ => rfl, fun _ => rfl, fun _ => rfl, fun _ => rfl, fun _ => rfl, fun _ => rfl, fun _ => rfl, fun _ => rfl, fun _ => rfl, fun _ => rfl, fun _ => rfl, fun _ => rfl, fun e => absurd (hmjob.symm.trans e) (by decide), fun _ => rfl, fun e => absurd (hmboot.symm.trans e) (by decide), fun _ => rfl, fun _ => rfl, fun e => absurd (hmsec.symm.trans e) (by decide), fun _ => rfl, fun _ => rfl, fun _ => rfl⟩, id, fun b => ⟨b.1, b.2, b.3, (by rw [← hesec0]; exact b.4), (by rw [← hesec1]; exact b.5)⟩, rfl⟩,
   fun k => k.trans ⟨fun _ _ _ => rfl, ⟨fun _ => rfl, fun _ => rfl, fun _ => rfl, fun _ => rfl, fun _ => rfl, fun _ => rfl, fun _ => rfl, fun _ => rfl, fun _ => rfl, fun _ => rfl, fun _ => rfl, fun _ => rfl, fun _ => rfl, fun _ => rfl, fun e => absurd (hmjob.symm.trans e) (by decide), fun _ => rfl, fun e => absurd (hmboot.symm.trans e) (by decide), fun _ => rfl, fun _ => rfl, fun e => absurd (hmsec.symm.trans e) (by decide), fun _ => rfl, fun _ => rfl, fun _ => rfl⟩, id, fun b => ⟨b.1, b.2, b.3, (by rw [hesec0]; exact b.4), (by rw [hesec1]; exact b.5)⟩, rfl⟩⟩

theorem Upd.pipe_egr_iff {w p : Nat} {r s : State} {xpipe : _} {xegr : _}
    (hmpipe : p.testBit 6 = true) (hmegr : p.testBit 10 = true) :
    Upd w p r { s with pipe := xpipe, egr := xegr } ↔ Upd w p r s :=
  ⟨fun k => k.trans ⟨fun _ _ _ => rfl, ⟨fun _ => rfl, fun _ => rfl, fun _ => rfl, fun _ => rfl, fun _ => rfl, fun _ => rfl, fun e => absurd (hmpipe.symm.trans e) (by decide), fun _ => rfl, fun _ => rfl, fun _ => rfl, fun e => absurd (hmegr.symm.trans e) (by decide), fun _ => rfl, fun _ => rfl, fun _ => rfl, fun _ => rfl, fun _ => rfl, fun _ => rfl, fun _ => rfl, fun _ => rfl, fun _ => rfl, fun _ => rfl, fun _ => rfl, fun _ => rfl⟩, id, fun b => ⟨b.1, b.2, b.3, b.4, b.5⟩, rfl⟩,
   fun k => k.trans ⟨fun _ _ _ => rfl, ⟨fun _ => rfl, fun _ => rfl, fun _ => rfl, fun _ => rfl, fun _ => rfl, fun _ => rfl, fun e => absurd (hmpipe.symm.trans e) (by decide), fun _ => rfl, fun _ => rfl, fun _ => rfl, fun e => absurd (hmegr.symm.trans e) (by decide), fun _ => rfl, fun _ => rfl, fun _ => rfl, fun _ => rfl, fun _ => rfl, fun _ => rfl, fun _ => rfl, fun _ => rfl, fun _ => rfl, fun _ => rfl, fun _ => rfl, fun _ => rfl⟩, id, fun b => ⟨b.1, b.2, b.3, b.4, b.5⟩, rfl⟩⟩

theorem Upd.lane_sto_sec_iff {w p : Nat} {r s : State} {xlane : _} {xsto : _} {xsec : SecS}
    (hmlane : p.testBit 2 = true) (hmsto : p.testBit 13 = true) (hmsec : p.testBit 19 = true) (hesec0 : xsec.nonces = s.sec.nonces) (hesec1 : xsec.queue = s.sec.queue) :
    Upd w p r { s with lane := xlane, sto := xsto, sec := xsec } ↔ Upd w p r s :=
  ⟨fun k => k.trans ⟨fun _ _ _ => rfl, ⟨fun _ => rfl, fun _ => rfl, fun e => absurd (hmlane.symm.trans e) (by decide), fun _ => rfl, fun _ => rfl, fun _ => rfl, fun _ => rfl, fun _ => rfl, fun _ => rfl, fun _ => rfl, fun _ => rfl, fun _ => rfl, fun _ => rfl, fun e => absurd (hmsto.symm.trans e) (by decide), fun _ => rfl, fun _ => rfl, fun _ => rfl, fun _ => rfl, fun _ => rfl, fun e => absurd (hmsec.symm.trans e) (by decide), fun _ => rfl, fun _ => rfl, fun _ => rfl⟩, id, fun b => ⟨b.1, b.2, b.3, (by rw [← hesec0]; exact b.4), (by rw [← hesec1]; exact b.5)⟩, rfl⟩,
   fun k => k.trans ⟨fun _ _ _ => rfl, ⟨fun _ => rfl, fun _ => rfl, fun e => absurd (hmlane.symm.trans e) (by decide), fun _ => rfl, fun _ => rfl, fun _ => rfl, fun _ => rfl, fun _ => rfl, fun _ => rfl, fun _ => rfl, fun _ => rfl, fun _ => rfl, fun _ => rfl, fun e => absurd (hmsto.symm.trans e) (by decide), fun _ => rfl, fun _ => rfl, fun _ => rfl, fun _ => rfl, fun _ => rfl, fun e => absurd (hmsec.symm.trans e) (by decide), fun _ => rfl, fun _ => rfl, fun _ => rfl⟩, id, fun b => ⟨b.1, b.2, b.3, (by rw [hesec0]; exact b.4), (by rw [hesec1]; exact b.5)⟩, rfl⟩⟩

theorem Upd.egr_brg_iff {w p : Nat} {r s : State} {xegr : _} {xbrg : _}
    (hmegr : p.testBit 10 = true) (hmbrg : p.testBit 11 = true) :
    Upd w p r { s with egr := xegr, brg := xbrg } ↔ Upd w p r s :=
  ⟨fun k => k.trans ⟨fun _ _ _ => rfl, ⟨fun _ => rfl, fun _ => rfl, fun _ => rfl, fun _ => rfl, fun _ => rfl, fun _ => rfl, fun _ => rfl, fun _ => rfl, fun _ => rfl, fun _ => rfl, fun e => absurd (hmegr.symm.trans e) (by decide), fun e => absurd (hmbrg.symm.trans e) (by decide), fun _ => rfl, fun _ => rfl, fun _ => rfl, fun _ => rfl, fun _ => rfl, fun _ => rfl, fun _ => rfl, fun _ => rfl, fun _ => rfl, fun _ => rfl, fun _ => rfl⟩, id, fun b => ⟨b.1, b.2, b.3, b.4, b.5⟩, rfl⟩,
   fun k => k.trans ⟨fun _ _ _ => rfl, ⟨fun _ => rfl, fun _ => rfl, fun _ => rfl, fun _ => rfl, fun _ => rfl, fun _ => rfl, fun _ => rfl, fun _ => rfl, fun _ => rfl, fun _ => rfl, fun e => absurd (hmegr.symm.trans e) (by decide), fun e => absurd (hmbrg.symm.trans e) (by decide), fun _ => rfl, fun _ => rfl, fun _ => rfl, fun _ => rfl, fun _ => rfl, fun _ => rfl, fun _ => rfl, fun _ => rfl, fun _ => rfl, fun _ => rfl, fun _ => rfl⟩, id, fun b => ⟨b.1, b.2, b.3, b.4, b.5⟩, rfl⟩⟩

theorem Upd.evq_ {w p : Nat} {r s : State} {x : List Ev} (hm : p.testBit 1 = true) (hl : s.evq.length ≤ 1024 → x.length ≤ 1024)
    (k : Upd w p r s) : Upd w p r { s with evq := x } :=
  k.trans ⟨fun _ _ _ => rfl, ⟨fun _ => rfl, fun e => absurd (hm.symm.trans e) (by decide), fun _ => rfl, fun _ => rfl, fun _ => rfl, fun _ => rfl, fun _ => rfl, fun _ => rfl, fun _ => rfl, fun _ => rfl, fun _ => rfl, fun _ => rfl, fun _ => rfl, fun _ => rfl, fun _ => rfl, fun _ => rfl, fun _ => rfl, fun _ => rfl, fun _ => rfl, fun _ => rfl, fun _ => rfl, fun _ => rfl, fun _ => rfl⟩, id, fun b => ⟨hl b.1, b.2, b.3, b.4, b.5⟩, rfl⟩

theorem Upd.mem_ {w p : Nat} {r s : State} {x : List Host.Cell} (hm : p.testBit 0 = true)
    (hl : Memory.wf s.mem = true → Memory.wf x = true) (k : Upd w p r s) : Upd w p r { s with mem := x } :=
  k.trans ⟨fun _ _ _ => rfl, ⟨fun e => absurd (hm.symm.trans e) (by decide), fun _ => rfl, fun _ => rfl, fun _ => rfl, fun _ => rfl, fun _ => rfl, fun _ => rfl, fun _ => rfl, fun _ => rfl, fun _ => rfl, fun _ => rfl, fun _ => rfl, fun _ => rfl, fun _ => rfl, fun _ => rfl, fun _ => rfl, fun _ => rfl, fun _ => rfl, fun _ => rfl, fun _ => rfl, fun _ => rfl, fun _ => rfl, fun _ => rfl⟩, hl, fun b => ⟨b.1, b.2, b.3, b.4, b.5⟩, rfl⟩

theorem Upd.putByte {w p : Nat} {r s : State} {a v : Nat} (hm : p.testBit 0 = true) (k : Upd w p r s) :
    Upd w p r (s.putByte a v) := Upd.mem_ hm (memPut_wf _ _ _) k

/-- A new event queue that is no longer than the depth if the first was. -/
theorem Upd.evqOf {w p : Nat} {r s : State} {x : List Ev} (hm : p.testBit 1 = true)
    (hl : r.evq.length ≤ 1024 → x.length ≤ 1024) (k : Upd w p r s) : Upd w p r { s with evq := x } :=
  ⟨k.cells, { k.parts with evq := fun e => absurd (hm.symm.trans e) (by decide) }, k.wf, fun b =>
    have c := k.bounds b
    ⟨hl b.1, c.2, c.3, c.4, c.5⟩, k.pending⟩

/-- A step that may change everything but the queue of commands. -/
theorem Upd.full {s t : State} (wf : Memory.wf s.mem = true → Memory.wf t.mem = true)
    (bounds : Bounded s → Bounded t) (pending : t.pending = s.pending) :
    Upd (2 ^ 128 - 1) (2 ^ 23 - 1) s t := by
  refine ⟨fun f i e => ?_, ⟨fun e => absurd e (by decide), fun e => absurd e (by decide), fun e => absurd e (by decide), fun e => absurd e (by decide), fun e => absurd e (by decide), fun e => absurd e (by decide), fun e => absurd e (by decide), fun e => absurd e (by decide), fun e => absurd e (by decide), fun e => absurd e (by decide), fun e => absurd e (by decide), fun e => absurd e (by decide), fun e => absurd e (by decide), fun e => absurd e (by decide), fun e => absurd e (by decide), fun e => absurd e (by decide), fun e => absurd e (by decide), fun e => absurd e (by decide), fun e => absurd e (by decide), fun e => absurd e (by decide), fun e => absurd e (by decide), fun e => absurd e (by decide), fun e => absurd e (by decide)⟩, wf, bounds, pending⟩
  have h : f.page < 128 := Nat.mod_lt _ (by decide)
  rw [Nat.testBit_two_pow_sub_one] at e
  simp [h] at e

/-- A meaning that answers a next state, and what it may change. -/
def NextUpd (w p : Nat) (s : State) (r : Res) : Prop := ∃ t, r = .next t ∧ Upd w p s t

/-- Parts may have changed where the mask says so. -/
theorem Upd.partsOf {w p : Nat} {r t : State} (hc : t.cells = r.cells) (hp : SameParts p r t) (hm : t.mem = r.mem)
    (hb : Bounded r → Bounded t) (hq : t.pending = r.pending) : Upd w p r t :=
  ⟨fun f i _ => by unfold State.get; rw [hc], hp, fun h => by rw [hm]; exact h, hb, hq⟩

theorem NextUpd.next {w p : Nat} {s t : State} (h : Upd w p s t) : NextUpd w p s (.next t) := ⟨t, rfl, h⟩

theorem NextUpd.cutU {w p : Nat} {s z : State} {t : Res} (h : Upd w p s z) (k : Upd w p s z → NextUpd w p s t) :
    NextUpd w p s t := k h

theorem NextUpd.ite {w p : Nat} {s : State} {a b : Res} {c : Prop} [Decidable c] (h : NextUpd w p s a) (k : NextUpd w p s b) :
    NextUpd w p s (if c then a else b) := by split <;> assumption

theorem NextUpd.mono {w p w' p' : Nat} {s : State} {r : Res} (h : NextUpd w p s r)
    (hm : (subMask w w' && subMask p p') = true) : NextUpd w' p' s r := by
  obtain ⟨t, e, k⟩ := h
  have hm' := Bool.and_eq_true_iff.mp hm
  exact ⟨t, e, k.mono hm'.1 hm'.2⟩

theorem Upd.clear {w p : Nat} {r s : State} {f : Fld} {i : Nat} (hm : w.testBit f.page = true) (k : Upd w p r s) :
    Upd w p r (s.clear f i) := Upd.set hm k

theorem Upd.add {w p : Nat} {r s : State} {f : Fld} {i n : Nat} (hm : w.testBit f.page = true) (k : Upd w p r s) :
    Upd w p r (s.add f i n) := Upd.set hm k

theorem Upd.inc {w p : Nat} {r s : State} {f : Fld} {i : Nat} (hm : w.testBit f.page = true) (k : Upd w p r s) :
    Upd w p r (s.inc f i) := Upd.set hm k

theorem Upd.foldlAdd {w p : Nat} {r s : State} {l : List (Fld × Nat)} {i : Nat}
    (hm : ∀ q ∈ l, w.testBit q.1.page = true) (h : Upd w p r s) : Upd w p r (l.foldl (fun s q => s.add q.1 i q.2) s) := by
  induction l generalizing s with
  | nil => exact h
  | cons x l ih =>
    exact ih (fun q hq => hm q (List.mem_cons_of_mem _ hq)) (Upd.add (hm x (List.mem_cons_self ..)) h)

theorem Upd.bump {w p : Nat} {r s : State} {f : Fld} {i n : Nat} (hm : w.testBit f.page = true) (k : Upd w p r s) :
    Upd w p r (s.bump f i n) := Upd.set hm k

theorem Upd.setBit {w p : Nat} {r s : State} {f : Fld} {i n : Nat} (hm : w.testBit f.page = true) (k : Upd w p r s) :
    Upd w p r (s.setBit f i n) := Upd.set hm k

theorem Upd.clearBit {w p : Nat} {r s : State} {f : Fld} {i n : Nat} (hm : w.testBit f.page = true) (k : Upd w p r s) :
    Upd w p r (s.clearBit f i n) := Upd.set hm k

end Sys2Proof.Machine
end

