-- ==== Sys2Proof/Laws/UpdOps.lean ====
section
/-! SUPPORT. What each operation of Machine/Ops.lean may change (see Laws/Upd.lean). -/

set_option linter.unusedSimpArgs false
set_option linter.tactic.unusedName false

namespace Sys2Proof.Machine

theorem State.putBytes_upd (s : State) (a : Nat) (l : List Nat) {W P : Nat} {r_ : State} (hm : (subMask 0x0 W && subMask 0x1 P) = true) (k_ : Upd W P r_ s) :
    Upd W P r_ (State.putBytes s a l) := by
  refine Upd.via (w := 0x0) (p := 0x1) ?_ hm k_
  clear hm k_
  induction l generalizing s a with
  | nil => exact Upd.refl s
  | cons b r ih => exact (Upd.putByte (by decide) (Upd.refl s)).trans (ih (s.putByte a b) (a + 1))

theorem State.emit_upd (s : State) (o : Out) {W P : Nat} {r_ : State} (hm : (subMask 0x0 W && subMask 0x100000 P) = true) (k_ : Upd W P r_ s) :
    Upd W P r_ (State.emit s o) := by
  refine Upd.via (w := 0x0) (p := 0x100000) ?_ hm k_
  clear hm k_
  unfold State.emit
  repeat' first
    | (with_reducible exact Upd.refl _)
    | with_reducible assumption
    | (extract_lets +onlyGivenNames z; refine Upd.cutU (z := z) ?_ (fun hz => ?_); subst z; rotate_left; clear_value z; all_goals have z := trivial)
    | (extract_lets +onlyGivenNames z; refine Upd.cutU (z := z.1) ?_ (fun hz => ?_); subst z; rotate_left; clear_value z; all_goals have z := trivial)
    | (extract_lets +onlyGivenNames z; clear_value z; have z := trivial)
    | (with_reducible apply Upd.ite)
    | (with_reducible apply Upd.fst; assumption)
    | simp (disch := decide) only [Upd.mk1_iff, Upd.out_iff]
    | split

theorem State.drawn_upd (s : State) {W P : Nat} {r_ : State} (hm : (subMask 0x0 W && subMask 0x200000 P) = true) (k_ : Upd W P r_ s) :
    Upd W P r_ (State.drawn s) := by
  refine Upd.via (w := 0x0) (p := 0x200000) ?_ hm k_
  clear hm k_
  unfold State.drawn
  repeat' first
    | (with_reducible exact Upd.refl _)
    | with_reducible assumption
    | (extract_lets +onlyGivenNames z; refine Upd.cutU (z := z) ?_ (fun hz => ?_); subst z; rotate_left; clear_value z; all_goals have z := trivial)
    | (extract_lets +onlyGivenNames z; refine Upd.cutU (z := z.1) ?_ (fun hz => ?_); subst z; rotate_left; clear_value z; all_goals have z := trivial)
    | (extract_lets +onlyGivenNames z; clear_value z; have z := trivial)
    | (with_reducible apply Upd.ite)
    | (with_reducible apply Upd.fst; assumption)
    | simp (disch := decide) only [Upd.mk1_iff, Upd.fresh_iff]
    | split

theorem State.lanePayload_upd (s : State) (n : Nat) {W P : Nat} {r_ : State} (hm : (subMask 0x10000 W && subMask 0x0 P) = true) (k_ : Upd W P r_ s) :
    Upd W P r_ (State.lanePayload s n) := by
  refine Upd.via (w := 0x10000) (p := 0x0) ?_ hm k_
  clear hm k_
  unfold State.lanePayload
  repeat' first
    | (with_reducible exact Upd.refl _)
    | with_reducible assumption
    | (extract_lets +onlyGivenNames z; refine Upd.cutU (z := z) ?_ (fun hz => ?_); subst z; rotate_left; clear_value z; all_goals have z := trivial)
    | (extract_lets +onlyGivenNames z; refine Upd.cutU (z := z.1) ?_ (fun hz => ?_); subst z; rotate_left; clear_value z; all_goals have z := trivial)
    | (extract_lets +onlyGivenNames z; clear_value z; have z := trivial)
    | (with_reducible apply Upd.ite)
    | (with_reducible apply Upd.set; decide)
    | (with_reducible apply Upd.fst; assumption)
    | simp (disch := decide) only [Upd.mk1_iff]
    | split

theorem State.notify_upd (s : State) {W P : Nat} {r_ : State} (hm : (subMask 0x1 W && subMask 0x100000 P) = true) (k_ : Upd W P r_ s) :
    Upd W P r_ (State.notify s) := by
  refine Upd.via (w := 0x1) (p := 0x100000) ?_ hm k_
  clear hm k_
  unfold State.notify
  repeat' first
    | (with_reducible apply Upd.foldl; intro _ _)
    | (with_reducible apply Upd.foldlFst; intro _ _)
    | (with_reducible exact Upd.refl _)
    | with_reducible assumption
    | (extract_lets +onlyGivenNames z; refine Upd.cutU (z := z) ?_ (fun hz => ?_); subst z; rotate_left; clear_value z; all_goals have z := trivial)
    | (extract_lets +onlyGivenNames z; refine Upd.cutU (z := z.1) ?_ (fun hz => ?_); subst z; rotate_left; clear_value z; all_goals have z := trivial)
    | (extract_lets +onlyGivenNames z; clear_value z; have z := trivial)
    | (with_reducible apply Upd.ite)
    | (with_reducible apply State.emit_upd; decide)
    | (with_reducible apply Upd.set; decide)
    | (with_reducible apply Upd.setBit; decide)
    | (with_reducible apply Upd.fst; assumption)
    | simp (disch := decide) only [Upd.mk1_iff, Upd.out_iff]
    | split

theorem State.event_upd (s : State) (block inst code arg : Nat) {W P : Nat} {r_ : State}
    (hm : (subMask 0x1 W && subMask 0x100002 P) = true) (k_ : Upd W P r_ s) :
    Upd W P r_ (s.event block inst code arg) := by
  refine Upd.via (w := 0x1) (p := 0x100002) ?_ hm k_
  unfold State.event
  dsimp only
  split
  · next h =>
    refine State.notify_upd _ (by decide) (Upd.evq_ (by decide) (fun _ => ?_) (Upd.bump (by decide) (Upd.refl s)))
    rw [List.length_append]; exact h
  · exact Upd.set (by decide) (Upd.inc (by decide) (Upd.bump (by decide) (Upd.refl s)))

theorem Upd.sticky {w p : Nat} {r s : State} {ev : Fld} {i k : Nat} {en : Fld} {ei ek block inst code arg : Nat}
    (hm : w.testBit ev.page = true) (h0 : subMask 1 w = true) (hp : subMask 0x100002 p = true) (h : Upd w p r s) :
    Upd w p r (s.sticky ev i k en ei ek block inst code arg) := by
  unfold State.sticky
  dsimp only
  split
  · exact State.event_upd _ _ _ _ _ (by rw [h0, hp]; rfl) (Upd.setBit hm h)
  · exact Upd.setBit hm h

end Sys2Proof.Machine
end

