-- ==== Sys2Proof/Laws/UpdDram.lean ====
section
/-! SUPPORT. What each operation of Machine/Dram.lean may change (see Laws/Upd.lean). -/

set_option linter.unusedSimpArgs false
set_option linter.tactic.unusedName false

namespace Sys2Proof.Machine

theorem State.memEvent_upd (s : State) (k : Nat) (inst : Nat) (addr : Nat) (level : Nat) {W P : Nat} {r_ : State} (hm : (subMask 0x100000000000000000001 W && subMask 0x100002 P) = true) (k_ : Upd W P r_ s) :
    Upd W P r_ (State.memEvent s k inst addr level) := by
  refine Upd.via (w := 0x100000000000000000001) (p := 0x100002) ?_ hm k_
  clear hm k_
  unfold State.memEvent
  repeat' first
    | (with_reducible exact Upd.refl _)
    | with_reducible assumption
    | (extract_lets +onlyGivenNames z; refine Upd.cutU (z := z) ?_ (fun hz => ?_); subst z; rotate_left; clear_value z; all_goals have z := trivial)
    | (extract_lets +onlyGivenNames z; refine Upd.cutU (z := z.1) ?_ (fun hz => ?_); subst z; rotate_left; clear_value z; all_goals have z := trivial)
    | (extract_lets +onlyGivenNames z; clear_value z; have z := trivial)
    | (with_reducible apply Upd.ite)
    | (with_reducible apply Upd.sticky; decide; decide; decide)
    | (with_reducible apply Upd.fst; assumption)
    | simp (disch := decide) only [Upd.mk1_iff, Upd.out_iff]
    | split

theorem State.memMonRoll_upd (s : State) {W P : Nat} {r_ : State} (hm : (subMask 0x100000000000000000000 W && subMask 0x0 P) = true) (k_ : Upd W P r_ s) :
    Upd W P r_ (State.memMonRoll s) := by
  refine Upd.via (w := 0x100000000000000000000) (p := 0x0) ?_ hm k_
  clear hm k_
  have hp : ∀ c, (0x100000000000000000000 : Nat).testBit (memMonReg c).page = true := by
    intro c; unfold memMonReg; split <;> decide
  unfold State.memMonRoll
  repeat' first
    | (apply Upd.set; exact hp _)
    | (with_reducible apply Upd.foldl; intro _ _)
    | (with_reducible apply Upd.foldlFst; intro _ _)
    | (with_reducible exact Upd.refl _)
    | with_reducible assumption
    | (extract_lets +onlyGivenNames z; refine Upd.cutU (z := z) ?_ (fun hz => ?_); subst z; rotate_left; clear_value z; all_goals have z := trivial)
    | (extract_lets +onlyGivenNames z; refine Upd.cutU (z := z.1) ?_ (fun hz => ?_); subst z; rotate_left; clear_value z; all_goals have z := trivial)
    | (extract_lets +onlyGivenNames z; clear_value z; have z := trivial)
    | (with_reducible apply Upd.ite)
    | (with_reducible apply Upd.set; decide)
    | (with_reducible apply Upd.fst; assumption)
    | simp (disch := decide) only [Upd.mk1_iff]
    | split

theorem State.memCount_upd (s : State) (addr : Nat) (len : Nat) {W P : Nat} {r_ : State} (hm : (subMask 0x100000000000000000000 W && subMask 0x0 P) = true) (k_ : Upd W P r_ s) :
    Upd W P r_ (State.memCount s addr len) := by
  refine Upd.via (w := 0x100000000000000000000) (p := 0x0) ?_ hm k_
  clear hm k_
  unfold State.memCount
  repeat' first
    | (with_reducible exact Upd.refl _)
    | with_reducible assumption
    | (extract_lets +onlyGivenNames z; refine Upd.cutU (z := z) ?_ (fun hz => ?_); subst z; rotate_left; clear_value z; all_goals have z := trivial)
    | (extract_lets +onlyGivenNames z; refine Upd.cutU (z := z.1) ?_ (fun hz => ?_); subst z; rotate_left; clear_value z; all_goals have z := trivial)
    | (extract_lets +onlyGivenNames z; clear_value z; have z := trivial)
    | (with_reducible apply Upd.ite)
    | (with_reducible apply Upd.add; decide)
    | (with_reducible apply State.memMonRoll_upd; decide)
    | (with_reducible apply Upd.fst; assumption)
    | simp (disch := decide) only [Upd.mk1_iff]
    | split

theorem State.memDenied_upd (s : State) (addr : Nat) (len : Nat) (write : Bool) (st : Status) {W P : Nat} {r_ : State} (hm : (subMask 0x100000000000000000001 W && subMask 0x100002 P) = true) (k_ : Upd W P r_ s) :
    Upd W P r_ (State.memDenied s addr len write st) := by
  refine Upd.via (w := 0x100000000000000000001) (p := 0x100002) ?_ hm k_
  clear hm k_
  unfold State.memDenied
  repeat' first
    | (with_reducible exact Upd.refl _)
    | with_reducible assumption
    | (extract_lets +onlyGivenNames z; refine Upd.cutU (z := z) ?_ (fun hz => ?_); subst z; rotate_left; clear_value z; all_goals have z := trivial)
    | (extract_lets +onlyGivenNames z; refine Upd.cutU (z := z.1) ?_ (fun hz => ?_); subst z; rotate_left; clear_value z; all_goals have z := trivial)
    | (extract_lets +onlyGivenNames z; clear_value z; have z := trivial)
    | (with_reducible apply Upd.ite)
    | (with_reducible apply Upd.inc; decide)
    | (with_reducible apply State.memEvent_upd; decide)
    | (with_reducible apply Upd.fst; assumption)
    | simp (disch := decide) only [Upd.mk1_iff, Upd.out_iff]
    | split

theorem State.dramWrite_upd (s : State) (a : Nat) (l : List Nat) {W P : Nat} {r_ : State} (hm : (subMask 0x100000000000000000000 W && subMask 0x400001 P) = true) (k_ : Upd W P r_ s) :
    Upd W P r_ (State.dramWrite s a l) := by
  refine Upd.via (w := 0x100000000000000000000) (p := 0x400001) ?_ hm k_
  clear hm k_
  unfold State.dramWrite
  repeat' first
    | (with_reducible exact Upd.refl _)
    | with_reducible assumption
    | (extract_lets +onlyGivenNames z; refine Upd.cutU (z := z) ?_ (fun hz => ?_); subst z; rotate_left; clear_value z; all_goals have z := trivial)
    | (extract_lets +onlyGivenNames z; refine Upd.cutU (z := z.1) ?_ (fun hz => ?_); subst z; rotate_left; clear_value z; all_goals have z := trivial)
    | (extract_lets +onlyGivenNames z; clear_value z; have z := trivial)
    | (with_reducible apply Upd.ite)
    | (with_reducible apply State.memCount_upd; decide)
    | (with_reducible apply State.putBytes_upd; decide)
    | (with_reducible apply Upd.fst; assumption)
    | simp (disch := decide) only [Upd.mk1_iff, Upd.bad_iff]
    | split

theorem State.blockWrite_upd (s : State) (a : Nat) (l : List Nat) {W P : Nat} {r_ : State} (hm : (subMask 0x100000000000000000001 W && subMask 0x500003 P) = true) (k_ : Upd W P r_ s) :
    Upd W P r_ (State.blockWrite s a l) := by
  refine Upd.via (w := 0x100000000000000000001) (p := 0x500003) ?_ hm k_
  clear hm k_
  unfold State.blockWrite
  repeat' first
    | (with_reducible exact Upd.refl _)
    | with_reducible assumption
    | (extract_lets +onlyGivenNames z; refine Upd.cutU (z := z) ?_ (fun hz => ?_); subst z; rotate_left; clear_value z; all_goals have z := trivial)
    | (extract_lets +onlyGivenNames z; refine Upd.cutU (z := z.1) ?_ (fun hz => ?_); subst z; rotate_left; clear_value z; all_goals have z := trivial)
    | (extract_lets +onlyGivenNames z; clear_value z; have z := trivial)
    | (with_reducible apply Upd.ite)
    | (with_reducible apply State.dramWrite_upd; decide)
    | (with_reducible apply State.memDenied_upd; decide)
    | (with_reducible apply Upd.fst; assumption)
    | simp (disch := decide) only [Upd.mk1_iff, Upd.out_iff, Upd.bad_iff]
    | split

theorem State.readBad_upd (s : State) (a : Nat) {W P : Nat} {r_ : State} (hm : (subMask 0x100000000000000000001 W && subMask 0x100002 P) = true) (k_ : Upd W P r_ s) :
    Upd W P r_ (State.readBad s a) := by
  refine Upd.via (w := 0x100000000000000000001) (p := 0x100002) ?_ hm k_
  clear hm k_
  unfold State.readBad
  repeat' first
    | (with_reducible exact Upd.refl _)
    | with_reducible assumption
    | (extract_lets +onlyGivenNames z; refine Upd.cutU (z := z) ?_ (fun hz => ?_); subst z; rotate_left; clear_value z; all_goals have z := trivial)
    | (extract_lets +onlyGivenNames z; refine Upd.cutU (z := z.1) ?_ (fun hz => ?_); subst z; rotate_left; clear_value z; all_goals have z := trivial)
    | (extract_lets +onlyGivenNames z; clear_value z; have z := trivial)
    | (with_reducible apply Upd.ite)
    | (with_reducible apply Upd.inc; decide)
    | (with_reducible apply State.memEvent_upd; decide)
    | (with_reducible apply Upd.set; decide)
    | (with_reducible apply Upd.fst; assumption)
    | simp (disch := decide) only [Upd.mk1_iff, Upd.out_iff]
    | split

theorem State.dramRead_upd (s : State) (a : Nat) (n : Nat) {W P : Nat} {r_ : State} (hm : (subMask 0x100000000000000000001 W && subMask 0x100002 P) = true) (k_ : Upd W P r_ s) :
    Upd W P r_ (State.dramRead s a n).1 := by
  refine Upd.via (w := 0x100000000000000000001) (p := 0x100002) ?_ hm k_
  clear hm k_
  unfold State.dramRead
  repeat' first
    | (with_reducible apply Upd.foldl; intro _ _)
    | (with_reducible apply Upd.foldlFst; intro _ _)
    | (with_reducible exact Upd.refl _)
    | with_reducible assumption
    | (extract_lets +onlyGivenNames z; refine Upd.cutU (z := z) ?_ (fun hz => ?_); subst z; rotate_left; clear_value z; all_goals have z := trivial)
    | (extract_lets +onlyGivenNames z; refine Upd.cutU (z := z.1) ?_ (fun hz => ?_); subst z; rotate_left; clear_value z; all_goals have z := trivial)
    | (extract_lets +onlyGivenNames z; clear_value z; have z := trivial)
    | (with_reducible apply Upd.ite)
    | (with_reducible apply Upd.iteFst)
    | (with_reducible apply State.memCount_upd; decide)
    | (with_reducible apply State.readBad_upd; decide)
    | (with_reducible apply Upd.fst; assumption)
    | simp (disch := decide) only [Upd.mk1_iff, Upd.out_iff]
    | split

theorem State.extWrite_upd (s : State) (l : List Nat) (x0 : List (Nat × Nat)) {W P : Nat} {r_ : State} (hm : (subMask 0x100000000000000000001 W && subMask 0x500003 P) = true) (k_ : Upd W P r_ s) :
    Upd W P r_ (State.extWrite s l x0) := by
  refine Upd.via (w := 0x100000000000000000001) (p := 0x500003) ?_ hm k_
  clear hm k_
  induction x0 generalizing s l with
  | nil => exact Upd.refl s
  | cons e r ih =>
    unfold State.extWrite
    exact (State.blockWrite_upd _ _ _ (by decide) (Upd.refl s)).trans (ih _ _)

theorem State.extRead_upd (s : State) (x0 : List (Nat × Nat)) {W P : Nat} {r_ : State} (hm : (subMask 0x100000000000000000001 W && subMask 0x100002 P) = true) (k_ : Upd W P r_ s) :
    Upd W P r_ (State.extRead s x0).1 := by
  refine Upd.via (w := 0x100000000000000000001) (p := 0x100002) ?_ hm k_
  clear hm k_
  induction x0 generalizing s with
  | nil => exact Upd.refl s
  | cons e r ih =>
    unfold State.extRead
    exact (State.dramRead_upd _ _ _ (by decide) (Upd.refl s)).trans (ih _)

end Sys2Proof.Machine
end

