-- ==== Sys2Proof/Laws/UpdBrgOps.lean ====
section
/-! SUPPORT. What each operation of Machine/BrgOps.lean may change (see Laws/Upd.lean). -/

set_option linter.unusedSimpArgs false
set_option linter.tactic.unusedName false

namespace Sys2Proof.Machine

theorem State.sendCtl_upd (s : State) (q : Nat) (data : List Nat) {W P : Nat} {r_ : State} (hm : (subMask 0x0 W && subMask 0x400 P) = true) (k_ : Upd W P r_ s) :
    Upd W P r_ (State.sendCtl s q data) := by
  refine Upd.via (w := 0x0) (p := 0x400) ?_ hm k_
  clear hm k_
  unfold State.sendCtl
  repeat' first
    | (with_reducible exact Upd.refl _)
    | with_reducible assumption
    | (extract_lets +onlyGivenNames z; refine Upd.cutU (z := z) ?_ (fun hz => ?_); subst z; rotate_left; clear_value z; all_goals have z := trivial)
    | (extract_lets +onlyGivenNames z; refine Upd.cutU (z := z.1) ?_ (fun hz => ?_); subst z; rotate_left; clear_value z; all_goals have z := trivial)
    | (extract_lets +onlyGivenNames z; clear_value z; have z := trivial)
    | (with_reducible apply Upd.ite)
    | (with_reducible apply Upd.fst; assumption)
    | simp (disch := decide) only [Upd.mk1_iff, Upd.egr_iff]
    | split

theorem State.sendAck_upd (s : State) (q : Nat) {W P : Nat} {r_ : State} (hm : (subMask 0x0 W && subMask 0x400 P) = true) (k_ : Upd W P r_ s) :
    Upd W P r_ (State.sendAck s q) := by
  refine Upd.via (w := 0x0) (p := 0x400) ?_ hm k_
  clear hm k_
  unfold State.sendAck
  repeat' first
    | (with_reducible exact Upd.refl _)
    | with_reducible assumption
    | (extract_lets +onlyGivenNames z; refine Upd.cutU (z := z) ?_ (fun hz => ?_); subst z; rotate_left; clear_value z; all_goals have z := trivial)
    | (extract_lets +onlyGivenNames z; refine Upd.cutU (z := z.1) ?_ (fun hz => ?_); subst z; rotate_left; clear_value z; all_goals have z := trivial)
    | (extract_lets +onlyGivenNames z; clear_value z; have z := trivial)
    | (with_reducible apply Upd.ite)
    | (with_reducible apply Upd.fst; assumption)
    | simp (disch := decide) only [Upd.mk1_iff, Upd.egr_iff]
    | split

theorem State.brgEvent_upd (s : State) (bit : Nat) (qp : Nat) (session : Nat) (tag : Nat) (st : Nat) {W P : Nat} {r_ : State} (hm : (subMask 0x100000000000000001 W && subMask 0x100002 P) = true) (k_ : Upd W P r_ s) :
    Upd W P r_ (State.brgEvent s bit qp session tag st) := by
  refine Upd.via (w := 0x100000000000000001) (p := 0x100002) ?_ hm k_
  clear hm k_
  unfold State.brgEvent
  repeat' first
    | (with_reducible exact Upd.refl _)
    | with_reducible assumption
    | (extract_lets +onlyGivenNames z; refine Upd.cutU (z := z) ?_ (fun hz => ?_); subst z; rotate_left; clear_value z; all_goals have z := trivial)
    | (extract_lets +onlyGivenNames z; refine Upd.cutU (z := z.1) ?_ (fun hz => ?_); subst z; rotate_left; clear_value z; all_goals have z := trivial)
    | (extract_lets +onlyGivenNames z; clear_value z; have z := trivial)
    | (with_reducible apply Upd.ite)
    | (with_reducible apply Upd.sticky; decide; decide; decide)
    | (with_reducible apply Upd.fst; assumption)
    | simp (disch := decide) only [Upd.mk1_iff, Upd.out_iff]
    | split

theorem State.countDiscard_upd (s : State) (q : Nat) (session : Nat) (l : List (Nat × Nat)) {W P : Nat} {r_ : State} (hm : (subMask 0x100000000000000001 W && subMask 0x100002 P) = true) (k_ : Upd W P r_ s) :
    Upd W P r_ (State.countDiscard s q session l) := by
  refine Upd.via (w := 0x100000000000000001) (p := 0x100002) ?_ hm k_
  clear hm k_
  unfold State.countDiscard
  repeat' first
    | (with_reducible exact Upd.refl _)
    | with_reducible assumption
    | (extract_lets +onlyGivenNames z; refine Upd.cutU (z := z) ?_ (fun hz => ?_); subst z; rotate_left; clear_value z; all_goals have z := trivial)
    | (extract_lets +onlyGivenNames z; refine Upd.cutU (z := z.1) ?_ (fun hz => ?_); subst z; rotate_left; clear_value z; all_goals have z := trivial)
    | (extract_lets +onlyGivenNames z; clear_value z; have z := trivial)
    | (with_reducible apply Upd.ite)
    | (with_reducible apply Upd.add; decide)
    | (with_reducible apply State.brgEvent_upd; decide)
    | (with_reducible apply Upd.fst; assumption)
    | simp (disch := decide) only [Upd.mk1_iff, Upd.out_iff]
    | split

theorem State.dropAhead_upd (s : State) (q : Nat) {W P : Nat} {r_ : State} (hm : (subMask 0x100000000000000001 W && subMask 0x100802 P) = true) (k_ : Upd W P r_ s) :
    Upd W P r_ (State.dropAhead s q) := by
  refine Upd.via (w := 0x100000000000000001) (p := 0x100802) ?_ hm k_
  clear hm k_
  unfold State.dropAhead
  repeat' first
    | (with_reducible exact Upd.refl _)
    | with_reducible assumption
    | (extract_lets +onlyGivenNames z; refine Upd.cutU (z := z) ?_ (fun hz => ?_); subst z; rotate_left; clear_value z; all_goals have z := trivial)
    | (extract_lets +onlyGivenNames z; refine Upd.cutU (z := z.1) ?_ (fun hz => ?_); subst z; rotate_left; clear_value z; all_goals have z := trivial)
    | (extract_lets +onlyGivenNames z; clear_value z; have z := trivial)
    | (with_reducible apply Upd.ite)
    | (with_reducible apply State.countDiscard_upd; decide)
    | (with_reducible apply Upd.fst; assumption)
    | simp (disch := decide) only [Upd.mk1_iff, Upd.brg_iff, Upd.out_iff]
    | split

theorem State.dropAheadIf_upd (s : State) (p : Nat → ReadAhead → Bool) {W P : Nat} {r_ : State} (hm : (subMask 0x100000000000000001 W && subMask 0x100802 P) = true) (k_ : Upd W P r_ s) :
    Upd W P r_ (State.dropAheadIf s p) := by
  refine Upd.via (w := 0x100000000000000001) (p := 0x100802) ?_ hm k_
  clear hm k_
  unfold State.dropAheadIf
  repeat' first
    | (with_reducible apply Upd.foldl; intro _ _)
    | (with_reducible apply Upd.foldlFst; intro _ _)
    | (with_reducible exact Upd.refl _)
    | with_reducible assumption
    | (extract_lets +onlyGivenNames z; refine Upd.cutU (z := z) ?_ (fun hz => ?_); subst z; rotate_left; clear_value z; all_goals have z := trivial)
    | (extract_lets +onlyGivenNames z; refine Upd.cutU (z := z.1) ?_ (fun hz => ?_); subst z; rotate_left; clear_value z; all_goals have z := trivial)
    | (extract_lets +onlyGivenNames z; clear_value z; have z := trivial)
    | (with_reducible apply Upd.ite)
    | (with_reducible apply State.dropAhead_upd; decide)
    | (with_reducible apply Upd.fst; assumption)
    | simp (disch := decide) only [Upd.mk1_iff, Upd.brg_iff, Upd.out_iff]
    | split

theorem State.replyLost_upd (s : State) (r : BrgReq) {W P : Nat} {r_ : State} (hm : (subMask 0x100000000000000001 W && subMask 0x100002 P) = true) (k_ : Upd W P r_ s) :
    Upd W P r_ (State.replyLost s r) := by
  refine Upd.via (w := 0x100000000000000001) (p := 0x100002) ?_ hm k_
  clear hm k_
  unfold State.replyLost
  repeat' first
    | (with_reducible exact Upd.refl _)
    | with_reducible assumption
    | (extract_lets +onlyGivenNames z; refine Upd.cutU (z := z) ?_ (fun hz => ?_); subst z; rotate_left; clear_value z; all_goals have z := trivial)
    | (extract_lets +onlyGivenNames z; refine Upd.cutU (z := z.1) ?_ (fun hz => ?_); subst z; rotate_left; clear_value z; all_goals have z := trivial)
    | (extract_lets +onlyGivenNames z; clear_value z; have z := trivial)
    | (with_reducible apply Upd.ite)
    | (with_reducible apply State.brgEvent_upd; decide)
    | (with_reducible apply Upd.inc; decide)
    | (with_reducible apply Upd.fst; assumption)
    | simp (disch := decide) only [Upd.mk1_iff, Upd.out_iff]
    | split

theorem State.brgReply_upd (s : State) (r : BrgReq) (st : Status) (flags : Nat) (done : Nat) (fail : Nat) (data : List Nat) {W P : Nat} {r_ : State} (hm : (subMask 0x100000000000000001 W && subMask 0x100402 P) = true) (k_ : Upd W P r_ s) :
    Upd W P r_ (State.brgReply s r st flags done fail data) := by
  refine Upd.via (w := 0x100000000000000001) (p := 0x100402) ?_ hm k_
  clear hm k_
  unfold State.brgReply
  repeat' first
    | (with_reducible exact Upd.refl _)
    | with_reducible assumption
    | (extract_lets +onlyGivenNames z; refine Upd.cutU (z := z) ?_ (fun hz => ?_); subst z; rotate_left; clear_value z; all_goals have z := trivial)
    | (extract_lets +onlyGivenNames z; refine Upd.cutU (z := z.1) ?_ (fun hz => ?_); subst z; rotate_left; clear_value z; all_goals have z := trivial)
    | (extract_lets +onlyGivenNames z; clear_value z; have z := trivial)
    | (with_reducible apply Upd.ite)
    | (with_reducible apply Upd.inc; decide)
    | (with_reducible apply State.replyLost_upd; decide)
    | (with_reducible apply State.sendCtl_upd; decide)
    | (with_reducible apply Upd.fst; assumption)
    | simp (disch := decide) only [Upd.mk1_iff, Upd.egr_iff, Upd.out_iff]
    | split

theorem State.brgAnswer_upd (s : State) (r : BrgReq) {W P : Nat} {r_ : State} (hm : (subMask 0x100000000000000001 W && subMask 0x100402 P) = true) (k_ : Upd W P r_ s) :
    Upd W P r_ (State.brgAnswer s r) := by
  refine Upd.via (w := 0x100000000000000001) (p := 0x100402) ?_ hm k_
  clear hm k_
  unfold State.brgAnswer
  repeat' first
    | (with_reducible exact Upd.refl _)
    | with_reducible assumption
    | (extract_lets +onlyGivenNames z; refine Upd.cutU (z := z) ?_ (fun hz => ?_); subst z; rotate_left; clear_value z; all_goals have z := trivial)
    | (extract_lets +onlyGivenNames z; refine Upd.cutU (z := z.1) ?_ (fun hz => ?_); subst z; rotate_left; clear_value z; all_goals have z := trivial)
    | (extract_lets +onlyGivenNames z; clear_value z; have z := trivial)
    | (with_reducible apply Upd.ite)
    | (with_reducible apply State.brgReply_upd; decide)
    | (with_reducible apply Upd.fst; assumption)
    | simp (disch := decide) only [Upd.mk1_iff, Upd.egr_iff, Upd.out_iff]
    | split

theorem State.holdAhead_upd (s : State) (r : BrgReq) {W P : Nat} {r_ : State} (hm : (subMask 0x0 W && subMask 0x800 P) = true) (k_ : Upd W P r_ s) :
    Upd W P r_ (State.holdAhead s r) := by
  refine Upd.via (w := 0x0) (p := 0x800) ?_ hm k_
  clear hm k_
  unfold State.holdAhead
  repeat' first
    | (with_reducible exact Upd.refl _)
    | with_reducible assumption
    | (extract_lets +onlyGivenNames z; refine Upd.cutU (z := z) ?_ (fun hz => ?_); subst z; rotate_left; clear_value z; all_goals have z := trivial)
    | (extract_lets +onlyGivenNames z; refine Upd.cutU (z := z.1) ?_ (fun hz => ?_); subst z; rotate_left; clear_value z; all_goals have z := trivial)
    | (extract_lets +onlyGivenNames z; clear_value z; have z := trivial)
    | (with_reducible apply Upd.ite)
    | (with_reducible apply Upd.fst; assumption)
    | simp (disch := decide) only [Upd.mk1_iff, Upd.brg_iff]
    | split

theorem State.brgBegin_upd (s : State) (r : BrgReq) (k : Nat) {W P : Nat} {r_ : State} (hm : (subMask 0x100000000000000001 W && subMask 0x100c02 P) = true) (k_ : Upd W P r_ s) :
    Upd W P r_ (State.brgBegin s r k) := by
  refine Upd.via (w := 0x100000000000000001) (p := 0x100c02) ?_ hm k_
  clear hm k_
  unfold State.brgBegin
  repeat' first
    | (with_reducible exact Upd.refl _)
    | with_reducible assumption
    | (extract_lets +onlyGivenNames z; refine Upd.cutU (z := z) ?_ (fun hz => ?_); subst z; rotate_left; clear_value z; all_goals have z := trivial)
    | (extract_lets +onlyGivenNames z; refine Upd.cutU (z := z.1) ?_ (fun hz => ?_); subst z; rotate_left; clear_value z; all_goals have z := trivial)
    | (extract_lets +onlyGivenNames z; have _t : State → _ := z; clear _t; subst z; have z := trivial)
    | (extract_lets +onlyGivenNames z; have _t : _ → State := z; clear _t; subst z; have z := trivial)
    | (extract_lets +onlyGivenNames z; have _t : _ → _ → State := z; clear _t; subst z; have z := trivial)
    | (extract_lets +onlyGivenNames z; clear_value z; have z := trivial)
    | (with_reducible apply Upd.ite)
    | (with_reducible apply State.brgReply_upd; decide)
    | (with_reducible apply State.dropAhead_upd; decide)
    | (with_reducible apply Upd.inc; decide)
    | (with_reducible apply Upd.fst; assumption)
    | simp (disch := decide) only [Upd.mk1_iff, Upd.egr_iff, Upd.brg_iff, Upd.out_iff]
    | split

theorem State.brgStartN_upd (s : State) (x0 : Nat) {W P : Nat} {r_ : State} (hm : (subMask 0x100000000000000001 W && subMask 0x100c02 P) = true) (k_ : Upd W P r_ s) :
    Upd W P r_ (State.brgStartN s x0) := by
  refine Upd.via (w := 0x100000000000000001) (p := 0x100c02) ?_ hm k_
  clear hm k_
  induction x0 generalizing s with
  | zero =>
    unfold State.brgStartN
    repeat' first
      | (with_reducible exact Upd.refl _)
      | with_reducible assumption
      | (extract_lets +onlyGivenNames z; refine Upd.cutU (z := z) ?_ (fun hz => ?_); subst z; rotate_left; clear_value z; all_goals have z := trivial)
      | (extract_lets +onlyGivenNames z; refine Upd.cutU (z := z.1) ?_ (fun hz => ?_); subst z; rotate_left; clear_value z; all_goals have z := trivial)
      | (extract_lets +onlyGivenNames z; clear_value z; have z := trivial)
      | (with_reducible apply Upd.ite)
      | (with_reducible apply State.brgBegin_upd; decide)
      | (with_reducible apply Upd.fst; assumption)
      | simp (disch := decide) only [Upd.mk1_iff, Upd.egr_iff, Upd.brg_iff, Upd.out_iff]
      | split
  | succ n ih =>
    unfold State.brgStartN
    repeat' first
      | (with_reducible exact Upd.refl _)
      | with_reducible assumption
      | (extract_lets +onlyGivenNames z; refine Upd.cutU (z := z) ?_ (fun hz => ?_); subst z; rotate_left; clear_value z; all_goals have z := trivial)
      | (extract_lets +onlyGivenNames z; refine Upd.cutU (z := z.1) ?_ (fun hz => ?_); subst z; rotate_left; clear_value z; all_goals have z := trivial)
      | (extract_lets +onlyGivenNames z; clear_value z; have z := trivial)
      | (with_reducible refine Upd.trans ?_ (ih ..))
      | (with_reducible apply Upd.ite)
      | (with_reducible apply State.brgBegin_upd; decide)
      | (with_reducible apply Upd.fst; assumption)
      | simp (disch := decide) only [Upd.mk1_iff, Upd.egr_iff, Upd.brg_iff, Upd.out_iff]
      | split

theorem State.brgStart_upd (s : State) {W P : Nat} {r_ : State} (hm : (subMask 0x100000000000000001 W && subMask 0x100c02 P) = true) (k_ : Upd W P r_ s) :
    Upd W P r_ (State.brgStart s) := by
  refine Upd.via (w := 0x100000000000000001) (p := 0x100c02) ?_ hm k_
  clear hm k_
  unfold State.brgStart
  repeat' first
    | (with_reducible exact Upd.refl _)
    | with_reducible assumption
    | (extract_lets +onlyGivenNames z; refine Upd.cutU (z := z) ?_ (fun hz => ?_); subst z; rotate_left; clear_value z; all_goals have z := trivial)
    | (extract_lets +onlyGivenNames z; refine Upd.cutU (z := z.1) ?_ (fun hz => ?_); subst z; rotate_left; clear_value z; all_goals have z := trivial)
    | (extract_lets +onlyGivenNames z; clear_value z; have z := trivial)
    | (with_reducible apply Upd.ite)
    | (with_reducible apply State.brgStartN_upd; decide)
    | (with_reducible apply Upd.fst; assumption)
    | simp (disch := decide) only [Upd.mk1_iff, Upd.egr_iff, Upd.brg_iff, Upd.out_iff]
    | split

theorem State.brgAdvance_upd (s : State) (k : Nat) {W P : Nat} {r_ : State} (hm : (subMask 0x100000000000000001 W && subMask 0x100c02 P) = true) (k_ : Upd W P r_ s) :
    Upd W P r_ (State.brgAdvance s k) := by
  refine Upd.via (w := 0x100000000000000001) (p := 0x100c02) ?_ hm k_
  clear hm k_
  unfold State.brgAdvance
  repeat' first
    | (with_reducible exact Upd.refl _)
    | with_reducible assumption
    | (extract_lets +onlyGivenNames z; refine Upd.cutU (z := z) ?_ (fun hz => ?_); subst z; rotate_left; clear_value z; all_goals have z := trivial)
    | (extract_lets +onlyGivenNames z; refine Upd.cutU (z := z.1) ?_ (fun hz => ?_); subst z; rotate_left; clear_value z; all_goals have z := trivial)
    | (extract_lets +onlyGivenNames z; clear_value z; have z := trivial)
    | (with_reducible apply Upd.ite)
    | (with_reducible apply State.brgAnswer_upd; decide)
    | (with_reducible apply State.brgStart_upd; decide)
    | (with_reducible apply State.holdAhead_upd; decide)
    | (with_reducible apply Upd.fst; assumption)
    | simp (disch := decide) only [Upd.mk1_iff, Upd.egr_iff, Upd.brg_iff, Upd.out_iff]
    | split

theorem State.pieceDone_upd (s : State) (k : Nat) (addr : Nat) (st : Status) (data : List Nat) {W P : Nat} {r_ : State} (hm : (subMask 0x100000000000000001 W && subMask 0x100c02 P) = true) (k_ : Upd W P r_ s) :
    Upd W P r_ (State.pieceDone s k addr st data) := by
  refine Upd.via (w := 0x100000000000000001) (p := 0x100c02) ?_ hm k_
  clear hm k_
  unfold State.pieceDone
  repeat' first
    | (with_reducible exact Upd.refl _)
    | with_reducible assumption
    | (extract_lets +onlyGivenNames z; refine Upd.cutU (z := z) ?_ (fun hz => ?_); subst z; rotate_left; clear_value z; all_goals have z := trivial)
    | (extract_lets +onlyGivenNames z; refine Upd.cutU (z := z.1) ?_ (fun hz => ?_); subst z; rotate_left; clear_value z; all_goals have z := trivial)
    | (extract_lets +onlyGivenNames z; have _t : State → _ := z; clear _t; subst z; have z := trivial)
    | (extract_lets +onlyGivenNames z; have _t : _ → State := z; clear _t; subst z; have z := trivial)
    | (extract_lets +onlyGivenNames z; have _t : _ → _ → State := z; clear _t; subst z; have z := trivial)
    | (extract_lets +onlyGivenNames z; clear_value z; have z := trivial)
    | (with_reducible apply Upd.ite)
    | (with_reducible apply State.brgAdvance_upd; decide)
    | (with_reducible apply Upd.fst; assumption)
    | simp (disch := decide) only [Upd.mk1_iff, Upd.egr_iff, Upd.brg_iff, Upd.out_iff]
    | split

theorem State.loseRequests_upd (s : State) (p : BrgReq → Bool) {W P : Nat} {r_ : State} (hm : (subMask 0x100000000000000001 W && subMask 0x100802 P) = true) (k_ : Upd W P r_ s) :
    Upd W P r_ (State.loseRequests s p) := by
  refine Upd.via (w := 0x100000000000000001) (p := 0x100802) ?_ hm k_
  clear hm k_
  unfold State.loseRequests
  repeat' first
    | (with_reducible apply Upd.foldl; intro _ _)
    | (with_reducible apply Upd.foldlFst; intro _ _)
    | (with_reducible exact Upd.refl _)
    | with_reducible assumption
    | (extract_lets +onlyGivenNames z; refine Upd.cutU (z := z) ?_ (fun hz => ?_); subst z; rotate_left; clear_value z; all_goals have z := trivial)
    | (extract_lets +onlyGivenNames z; refine Upd.cutU (z := z.1) ?_ (fun hz => ?_); subst z; rotate_left; clear_value z; all_goals have z := trivial)
    | (extract_lets +onlyGivenNames z; clear_value z; have z := trivial)
    | (with_reducible apply Upd.ite)
    | (with_reducible apply State.replyLost_upd; decide)
    | (with_reducible apply Upd.fst; assumption)
    | simp (disch := decide) only [Upd.mk1_iff, Upd.brg_iff, Upd.out_iff]
    | split

theorem State.loseCmds_upd (s : State) (p : HostCmd → Bool) {W P : Nat} {r_ : State} (hm : (subMask 0x100000000000000001 W && subMask 0x100802 P) = true) (k_ : Upd W P r_ s) :
    Upd W P r_ (State.loseCmds s p) := by
  refine Upd.via (w := 0x100000000000000001) (p := 0x100802) ?_ hm k_
  clear hm k_
  unfold State.loseCmds
  repeat' first
    | (with_reducible apply Upd.foldl; intro _ _)
    | (with_reducible apply Upd.foldlFst; intro _ _)
    | (with_reducible exact Upd.refl _)
    | with_reducible assumption
    | (extract_lets +onlyGivenNames z; refine Upd.cutU (z := z) ?_ (fun hz => ?_); subst z; rotate_left; clear_value z; all_goals have z := trivial)
    | (extract_lets +onlyGivenNames z; refine Upd.cutU (z := z.1) ?_ (fun hz => ?_); subst z; rotate_left; clear_value z; all_goals have z := trivial)
    | (extract_lets +onlyGivenNames z; clear_value z; have z := trivial)
    | (with_reducible apply Upd.ite)
    | (with_reducible apply State.brgEvent_upd; decide)
    | (with_reducible apply Upd.inc; decide)
    | (with_reducible apply Upd.fst; assumption)
    | simp (disch := decide) only [Upd.mk1_iff, Upd.brg_iff, Upd.out_iff]
    | split

theorem State.brgQpGone_upd (s : State) (q : Nat) {W P : Nat} {r_ : State} (hm : (subMask 0x100000000000000001 W && subMask 0x100802 P) = true) (k_ : Upd W P r_ s) :
    Upd W P r_ (State.brgQpGone s q) := by
  refine Upd.via (w := 0x100000000000000001) (p := 0x100802) ?_ hm k_
  clear hm k_
  unfold State.brgQpGone
  repeat' first
    | (with_reducible exact Upd.refl _)
    | with_reducible assumption
    | (extract_lets +onlyGivenNames z; refine Upd.cutU (z := z) ?_ (fun hz => ?_); subst z; rotate_left; clear_value z; all_goals have z := trivial)
    | (extract_lets +onlyGivenNames z; refine Upd.cutU (z := z.1) ?_ (fun hz => ?_); subst z; rotate_left; clear_value z; all_goals have z := trivial)
    | (extract_lets +onlyGivenNames z; clear_value z; have z := trivial)
    | (with_reducible apply Upd.ite)
    | (with_reducible apply State.dropAhead_upd; decide)
    | (with_reducible apply State.loseCmds_upd; decide)
    | (with_reducible apply State.loseRequests_upd; decide)
    | (with_reducible apply Upd.fst; assumption)
    | simp (disch := decide) only [Upd.mk1_iff, Upd.brg_iff, Upd.out_iff]
    | split

theorem State.brgQpReset_upd (s : State) (q : Nat) {W P : Nat} {r_ : State} (hm : (subMask 0x0 W && subMask 0x800 P) = true) (k_ : Upd W P r_ s) :
    Upd W P r_ (State.brgQpReset s q) := by
  refine Upd.via (w := 0x0) (p := 0x800) ?_ hm k_
  clear hm k_
  unfold State.brgQpReset
  repeat' first
    | (with_reducible exact Upd.refl _)
    | with_reducible assumption
    | (extract_lets +onlyGivenNames z; refine Upd.cutU (z := z) ?_ (fun hz => ?_); subst z; rotate_left; clear_value z; all_goals have z := trivial)
    | (extract_lets +onlyGivenNames z; refine Upd.cutU (z := z.1) ?_ (fun hz => ?_); subst z; rotate_left; clear_value z; all_goals have z := trivial)
    | (extract_lets +onlyGivenNames z; clear_value z; have z := trivial)
    | (with_reducible apply Upd.ite)
    | (with_reducible apply Upd.fst; assumption)
    | simp (disch := decide) only [Upd.mk1_iff, Upd.brg_iff]
    | split

theorem State.brgSessionEnd_upd (s : State) (n : Nat) {W P : Nat} {r_ : State} (hm : (subMask 0x100000000000000001 W && subMask 0x100802 P) = true) (k_ : Upd W P r_ s) :
    Upd W P r_ (State.brgSessionEnd s n) := by
  refine Upd.via (w := 0x100000000000000001) (p := 0x100802) ?_ hm k_
  clear hm k_
  unfold State.brgSessionEnd
  repeat' first
    | (with_reducible exact Upd.refl _)
    | with_reducible assumption
    | (extract_lets +onlyGivenNames z; refine Upd.cutU (z := z) ?_ (fun hz => ?_); subst z; rotate_left; clear_value z; all_goals have z := trivial)
    | (extract_lets +onlyGivenNames z; refine Upd.cutU (z := z.1) ?_ (fun hz => ?_); subst z; rotate_left; clear_value z; all_goals have z := trivial)
    | (extract_lets +onlyGivenNames z; clear_value z; have z := trivial)
    | (with_reducible apply Upd.ite)
    | (with_reducible apply State.dropAheadIf_upd; decide)
    | (with_reducible apply State.loseCmds_upd; decide)
    | (with_reducible apply State.loseRequests_upd; decide)
    | (with_reducible apply Upd.fst; assumption)
    | simp (disch := decide) only [Upd.mk1_iff, Upd.brg_iff, Upd.out_iff]
    | split

end Sys2Proof.Machine
end

