-- ==== Sys2Proof/Laws/UpdOperands.lean ====
section
/-! SUPPORT. What each operation of Machine/Operands.lean may change (see Laws/Upd.lean). -/

set_option linter.unusedSimpArgs false
set_option linter.tactic.unusedName false

namespace Sys2Proof.Machine

theorem State.portFlag_upd (s : State) (k : Nat) {W P : Nat} {r_ : State} (hm : (subMask 0x1 W && subMask 0x100002 P) = true) (k_ : Upd W P r_ s) :
    Upd W P r_ (State.portFlag s k) := by
  refine Upd.via (w := 0x1) (p := 0x100002) ?_ hm k_
  clear hm k_
  unfold State.portFlag
  repeat' first
    | (with_reducible exact Upd.refl _)
    | with_reducible assumption
    | (extract_lets +onlyGivenNames z; refine Upd.cutU (z := z) ?_ (fun hz => ?_); subst z; rotate_left; clear_value z; all_goals have z := trivial)
    | (extract_lets +onlyGivenNames z; refine Upd.cutU (z := z.1) ?_ (fun hz => ?_); subst z; rotate_left; clear_value z; all_goals have z := trivial)
    | (extract_lets +onlyGivenNames z; clear_value z; have z := trivial)
    | (with_reducible apply Upd.ite)
    | (with_reducible apply State.notify_upd; decide)
    | (with_reducible apply Upd.sticky; decide; decide; decide)
    | (with_reducible apply Upd.fst; assumption)
    | simp (disch := decide) only [Upd.mk1_iff, Upd.out_iff]
    | split

theorem State.rejected_upd (s : State) (session : Nat) (role : Nat) (transport : Nat) (code : Nat) (tag : Nat) (ctr : Nat) {W P : Nat} {r_ : State} (hm : (subMask 0x1 W && subMask 0x140002 P) = true) (k_ : Upd W P r_ s) :
    Upd W P r_ (State.rejected s session role transport code tag ctr) := by
  refine Upd.via (w := 0x1) (p := 0x140002) ?_ hm k_
  clear hm k_
  unfold State.rejected
  extract_lets e x s1 s2 was s3
  have h1 : Upd 0x1 0x140002 s s1 := Upd.mgt_ (by decide) (fun _ => List.length_take_le ..) (Upd.refl s)
  have h3 : Upd 0x1 0x140002 s s3 := Upd.set (by decide) (Upd.inc (by decide) h1)
  clear_value s3
  split
  · exact State.event_upd _ _ _ _ _ (by decide) h3
  · exact h3

theorem State.hostReply_upd (s : State) (q : Nat) (session : Nat) (cmd : Nat) (st : Status) {W P : Nat} {r_ : State} (hm : (subMask 0x100000000000000001 W && subMask 0x140c02 P) = true) (k_ : Upd W P r_ s) :
    Upd W P r_ (State.hostReply s q session cmd st) := by
  refine Upd.via (w := 0x100000000000000001) (p := 0x140c02) ?_ hm k_
  clear hm k_
  unfold State.hostReply
  repeat' first
    | (with_reducible exact Upd.refl _)
    | with_reducible assumption
    | (extract_lets +onlyGivenNames z; refine Upd.cutU (z := z) ?_ (fun hz => ?_); subst z; rotate_left; clear_value z; all_goals have z := trivial)
    | (extract_lets +onlyGivenNames z; refine Upd.cutU (z := z.1) ?_ (fun hz => ?_); subst z; rotate_left; clear_value z; all_goals have z := trivial)
    | (extract_lets +onlyGivenNames z; clear_value z; have z := trivial)
    | (with_reducible apply Upd.ite)
    | (with_reducible apply State.brgStart_upd; decide)
    | (with_reducible apply State.rejected_upd; decide)
    | (with_reducible apply Upd.fst; assumption)
    | simp (disch := first | decide | rfl | (apply And.intro <;> first | decide | rfl | (apply And.intro <;> rfl))) only [Upd.mk1_iff, Upd.egr_iff, Upd.brg_iff, Upd.mgt_iff, Upd.out_iff, Upd.egr_brg_iff]
    | split

theorem State.bufReply_upd (s : State) (session : Nat) (cmd : Nat) (st : Status) (data : List Nat) {W P : Nat} {r_ : State} (hm : (subMask 0x1 W && subMask 0x140003 P) = true) (k_ : Upd W P r_ s) :
    Upd W P r_ (State.bufReply s session cmd st data) := by
  refine Upd.via (w := 0x1) (p := 0x140003) ?_ hm k_
  clear hm k_
  unfold State.bufReply
  repeat' first
    | (with_reducible exact Upd.refl _)
    | with_reducible assumption
    | (extract_lets +onlyGivenNames z; refine Upd.cutU (z := z) ?_ (fun hz => ?_); subst z; rotate_left; clear_value z; all_goals have z := trivial)
    | (extract_lets +onlyGivenNames z; refine Upd.cutU (z := z.1) ?_ (fun hz => ?_); subst z; rotate_left; clear_value z; all_goals have z := trivial)
    | (extract_lets +onlyGivenNames z; clear_value z; have z := trivial)
    | (with_reducible apply Upd.ite)
    | (with_reducible apply State.notify_upd; decide)
    | (with_reducible apply State.putBytes_upd; decide)
    | (with_reducible apply State.rejected_upd; decide)
    | (with_reducible apply Upd.set; decide)
    | (with_reducible apply Upd.fst; assumption)
    | simp (disch := first | decide | rfl | (apply And.intro <;> first | decide | rfl | (apply And.intro <;> rfl))) only [Upd.mk1_iff, Upd.mgt_iff, Upd.out_iff]
    | split

theorem State.i3cReply_upd (s : State) (session : Nat) (cmd : Nat) (st : Status) {W P : Nat} {r_ : State} (hm : (subMask 0x1 W && subMask 0x140003 P) = true) (k_ : Upd W P r_ s) :
    Upd W P r_ (State.i3cReply s session cmd st) := by
  refine Upd.via (w := 0x1) (p := 0x140003) ?_ hm k_
  clear hm k_
  unfold State.i3cReply
  repeat' first
    | (with_reducible exact Upd.refl _)
    | with_reducible assumption
    | (extract_lets +onlyGivenNames z; refine Upd.cutU (z := z) ?_ (fun hz => ?_); subst z; rotate_left; clear_value z; all_goals have z := trivial)
    | (extract_lets +onlyGivenNames z; refine Upd.cutU (z := z.1) ?_ (fun hz => ?_); subst z; rotate_left; clear_value z; all_goals have z := trivial)
    | (extract_lets +onlyGivenNames z; clear_value z; have z := trivial)
    | (with_reducible apply Upd.ite)
    | (with_reducible apply State.bufReply_upd; decide)
    | (with_reducible apply Upd.fst; assumption)
    | simp (disch := first | decide | rfl | (apply And.intro <;> first | decide | rfl | (apply And.intro <;> rfl))) only [Upd.mk1_iff, Upd.mgt_iff, Upd.out_iff]
    | split

theorem State.answer_upd (s : State) (src : Src) (cmd : Nat) (st : Status) {W P : Nat} {r_ : State} (hm : (subMask 0x100000000000000001 W && subMask 0x140c03 P) = true) (k_ : Upd W P r_ s) :
    Upd W P r_ (State.answer s src cmd st) := by
  refine Upd.via (w := 0x100000000000000001) (p := 0x140c03) ?_ hm k_
  clear hm k_
  unfold State.answer
  repeat' first
    | (with_reducible exact Upd.refl _)
    | with_reducible assumption
    | (extract_lets +onlyGivenNames z; refine Upd.cutU (z := z) ?_ (fun hz => ?_); subst z; rotate_left; clear_value z; all_goals have z := trivial)
    | (extract_lets +onlyGivenNames z; refine Upd.cutU (z := z.1) ?_ (fun hz => ?_); subst z; rotate_left; clear_value z; all_goals have z := trivial)
    | (extract_lets +onlyGivenNames z; clear_value z; have z := trivial)
    | (with_reducible apply Upd.ite)
    | (with_reducible apply State.emit_upd; decide)
    | (with_reducible apply State.hostReply_upd; decide)
    | (with_reducible apply State.i3cReply_upd; decide)
    | (with_reducible apply Upd.fst; assumption)
    | simp (disch := first | decide | rfl | (apply And.intro <;> first | decide | rfl | (apply And.intro <;> rfl))) only [Upd.mk1_iff, Upd.egr_iff, Upd.brg_iff, Upd.mgt_iff, Upd.out_iff]
    | split

theorem State.completed_upd {w p : Nat} {r s : State} {src : Src} {cmd : Nat} {eff : State → State}
    (hm : (subMask 0x100000000000000001 w && subMask 0x140c03 p) = true) (heff : ∀ s, Upd w p s (eff s)) (h : Upd w p r s) :
    Upd w p r (s.completed src cmd eff) := by
  unfold State.completed
  dsimp only
  split
  · exact h.trans (heff s)
  · exact State.answer_upd _ _ _ _ hm (h.trans (heff s))

theorem State.recorded_upd {w p : Nat} {r s : State} {src : Src} {cmd : Nat} {i : Instr} {rec : AuditRec} {eff : State → State}
    (hm : (subMask 0x100000000000000003 w && subMask 0x1c0c03 p) = true) (heff : ∀ s, Upd w p s (eff s)) (h : Upd w p r s) :
    Upd w p r (s.recorded src cmd i rec eff) := by
  have hm' := Bool.and_eq_true_iff.mp hm
  have hw : subMask 0x100000000000000001 w = true := subMask_trans (by decide) hm'.1
  have hp : subMask 0x140c03 p = true := subMask_trans (by decide) hm'.2
  have h1 : w.testBit Fld.SEC_CNT_AUDIT_REFUSED.page = true := testBit_of_subMask hm'.1 (by decide)
  have h19 : p.testBit 19 = true := testBit_of_subMask hm'.2 (by decide)
  unfold State.recorded
  split
  · exact State.completed_upd (by rw [hw, hp]; rfl) heff h
  · split
    · exact State.answer_upd _ _ _ _ (by rw [hw, hp]; rfl) (Upd.inc h1 h)
    · next hc =>
      refine Upd.sec_ h19 id (fun _ => ?_) h
      have hc' : ¬ 256 ≤ s.auditWaiting := by
        intro hge; apply hc; simp [State.auditClosed, hge]
      rw [List.filter_append, List.length_append]
      exact Nat.lt_of_not_le hc'

theorem State.note_upd (s : State) (src : Src) (r : AuditRec) {W P : Nat} {r_ : State} (hm : (subMask 0x2 W && subMask 0x80000 P) = true) (k_ : Upd W P r_ s) :
    Upd W P r_ (State.note s src r) := by
  refine Upd.via (w := 0x2) (p := 0x80000) ?_ hm k_
  clear hm k_
  unfold State.note
  split
  · exact Upd.inc (by decide) (Upd.refl s)
  · next hc =>
    refine Upd.sec_ (by decide) id (fun _ => ?_) (Upd.refl s)
    have hc' : ¬ 256 ≤ s.auditWaiting := by
      intro hge; apply hc; simp [State.auditClosed, hge]
    rw [List.filter_append, List.length_append]
    exact Nat.lt_of_not_le hc'

end Sys2Proof.Machine
end

