-- ==== Sys2Proof/Laws/Get.lean ====
section
/-! SUPPORT. What a field reads after the shared operations. -/

namespace Sys2Proof.Machine

@[simp] theorem State.get_with_mem (s : State) (x : List Host.Cell) (f : Fld) (i : Nat) : State.get { s with mem := x } f i = s.get f i := rfl
@[simp] theorem State.get_with_evq (s : State) (x : List Ev) (f : Fld) (i : Nat) : State.get { s with evq := x } f i = s.get f i := rfl
@[simp] theorem State.get_with_lane (s : State) (x : LaneS) (f : Fld) (i : Nat) : State.get { s with lane := x } f i = s.get f i := rfl
@[simp] theorem State.get_with_frames (s : State) (x : List Frame) (f : Fld) (i : Nat) : State.get { s with frames := x } f i = s.get f i := rfl
@[simp] theorem State.get_with_ing (s : State) (x : IngS) (f : Fld) (i : Nat) : State.get { s with ing := x } f i = s.get f i := rfl
@[simp] theorem State.get_with_syn (s : State) (x : SynS) (f : Fld) (i : Nat) : State.get { s with syn := x } f i = s.get f i := rfl
@[simp] theorem State.get_with_pipe (s : State) (x : PipeS) (f : Fld) (i : Nat) : State.get { s with pipe := x } f i = s.get f i := rfl
@[simp] theorem State.get_with_blankets (s : State) (x : List BFrame) (f : Fld) (i : Nat) : State.get { s with blankets := x } f i = s.get f i := rfl
@[simp] theorem State.get_with_ref (s : State) (x : RefS) (f : Fld) (i : Nat) : State.get { s with ref := x } f i = s.get f i := rfl
@[simp] theorem State.get_with_products (s : State) (x : List Product) (f : Fld) (i : Nat) : State.get { s with products := x } f i = s.get f i := rfl
@[simp] theorem State.get_with_egr (s : State) (x : EgrS) (f : Fld) (i : Nat) : State.get { s with egr := x } f i = s.get f i := rfl
@[simp] theorem State.get_with_brg (s : State) (x : BrgS) (f : Fld) (i : Nat) : State.get { s with brg := x } f i = s.get f i := rfl
@[simp] theorem State.get_with_memq (s : State) (x : List MemReq) (f : Fld) (i : Nat) : State.get { s with memq := x } f i = s.get f i := rfl
@[simp] theorem State.get_with_sto (s : State) (x : StoS) (f : Fld) (i : Nat) : State.get { s with sto := x } f i = s.get f i := rfl
@[simp] theorem State.get_with_job (s : State) (x : JobS) (f : Fld) (i : Nat) : State.get { s with job := x } f i = s.get f i := rfl
@[simp] theorem State.get_with_fab (s : State) (x : FabS) (f : Fld) (i : Nat) : State.get { s with fab := x } f i = s.get f i := rfl
@[simp] theorem State.get_with_boot (s : State) (x : BootS) (f : Fld) (i : Nat) : State.get { s with boot := x } f i = s.get f i := rfl
@[simp] theorem State.get_with_bist (s : State) (x : BistS) (f : Fld) (i : Nat) : State.get { s with bist := x } f i = s.get f i := rfl
@[simp] theorem State.get_with_mgt (s : State) (x : MgtS) (f : Fld) (i : Nat) : State.get { s with mgt := x } f i = s.get f i := rfl
@[simp] theorem State.get_with_sec (s : State) (x : SecS) (f : Fld) (i : Nat) : State.get { s with sec := x } f i = s.get f i := rfl
@[simp] theorem State.get_with_out (s : State) (x : List Out) (f : Fld) (i : Nat) : State.get { s with out := x } f i = s.get f i := rfl
@[simp] theorem State.get_with_fresh (s : State) (x : Nat) (f : Fld) (i : Nat) : State.get { s with fresh := x } f i = s.get f i := rfl
@[simp] theorem State.get_with_bad (s : State) (x : List Nat) (f : Fld) (i : Nat) : State.get { s with bad := x } f i = s.get f i := rfl
@[simp] theorem State.get_with_pending (s : State) (x : List Instr) (f : Fld) (i : Nat) : State.get { s with pending := x } f i = s.get f i := rfl

theorem testBit_one_page (f : Fld) (h : f.page ≠ 0) : (1 : Nat).testBit f.page = false := by
  rw [Bool.eq_false_iff]
  intro hb
  have hp : f.page < 128 := Nat.mod_lt _ (by decide)
  have : ∀ p < 128, (1 : Nat).testBit p = true → p = 0 := by decide
  exact h (this _ hp hb)

theorem State.notify_get (s : State) (f : Fld) (i : Nat) (h : f.page ≠ 0) : s.notify.get f i = s.get f i :=
  (State.notify_upd s (W := 1) (P := 2 ^ 23 - 1) (by decide) (Upd.refl s)).cells f i (testBit_one_page f h)

theorem State.event_get (s : State) (b n c a : Nat) (f : Fld) (i : Nat) (h : f.page ≠ 0) :
    (s.event b n c a).get f i = s.get f i :=
  (State.event_upd s b n c a (W := 1) (P := 2 ^ 23 - 1) (by decide) (Upd.refl s)).cells f i (testBit_one_page f h)

/-- An occurrence of a sticky bit changes its own field and the management page alone. -/
theorem State.sticky_get (s : State) (ev : Fld) (n k : Nat) (en : Fld) (ei ek b m c a : Nat) (f : Fld) (i : Nat)
    (h : f.page ≠ 0) (he : ev.id ≠ f.id) : (s.sticky ev n k en ei ek b m c a).get f i = s.get f i := by
  unfold State.sticky State.setBit
  dsimp only
  split
  · rw [State.event_get _ _ _ _ _ _ _ h, State.get_set_ne _ _ _ _ _ _ he]
  · rw [State.get_set_ne _ _ _ _ _ _ he]

/-- A completion towards the management processor or another block only records its status. -/
theorem State.answer_mgt (s : State) (src : Src) (c : Nat) (st : Status) (h : src.ini = .mgt) :
    s.answer src c st = s.emit (.status src c st) := by
  unfold State.answer; rw [h]

/-- A completion changes the management page and the bridge's alone. -/
theorem State.answer_get (s : State) (src : Src) (c : Nat) (st : Status) (f : Fld) (i : Nat) (h : f.page ≠ 0)
    (h' : f.page ≠ 68) : (s.answer src c st).get f i = s.get f i :=
  (State.answer_upd s src c st (W := 2 ^ 68 + 1) (P := 2 ^ 23 - 1) (by decide) (Upd.refl s)).cells f i (by
    rw [Bool.eq_false_iff]
    intro hb
    have hp : f.page < 128 := Nat.mod_lt _ (by decide)
    have : ∀ p < 128, (2 ^ 68 + 1 : Nat).testBit p = true → p = 0 ∨ p = 68 := by decide
    rcases this _ hp hb with e | e
    · exact h e
    · exact h' e)

end Sys2Proof.Machine
end

