-- ==== Sys2Proof/Laws/UpdFlags.lean ====
section
/-! SUPPORT. What each operation of Machine/Flags.lean may change (see Laws/Upd.lean). -/

set_option linter.unusedSimpArgs false
set_option linter.tactic.unusedName false

namespace Sys2Proof.Machine

theorem State.mapFrames_upd {w p : Nat} {r s : State} {q : Frame → Bool} {g : Frame → Frame} (hm : p.testBit 3 = true)
    (h : Upd w p r s) : Upd w p r (s.mapFrames q g) := Upd.frames_ hm h

theorem State.onOpen_upd {w p : Nat} {r s : State} {c : Nat} {g : Frame → Frame} (hm : p.testBit 3 = true)
    (h : Upd w p r s) : Upd w p r (s.onOpen c g) := Upd.frames_ hm h

theorem State.chFlag_upd (s : State) (c : Nat) (k : Nat) (seq : Nat) (n : Nat) {W P : Nat} {r_ : State} (hm : (subMask 0x100001 W && subMask 0x100002 P) = true) (k_ : Upd W P r_ s) :
    Upd W P r_ (State.chFlag s c k seq n) := by
  refine Upd.via (w := 0x100001) (p := 0x100002) ?_ hm k_
  clear hm k_
  unfold State.chFlag
  repeat' first
    | (with_reducible exact Upd.refl _)
    | with_reducible assumption
    | (extract_lets +onlyGivenNames z; refine Upd.cutU (z := z) ?_ (fun hz => ?_); subst z; rotate_left; clear_value z; all_goals have z := trivial)
    | (extract_lets +onlyGivenNames z; refine Upd.cutU (z := z.1) ?_ (fun hz => ?_); subst z; rotate_left; clear_value z; all_goals have z := trivial)
    | (extract_lets +onlyGivenNames z; clear_value z; have z := trivial)
    | (with_reducible apply Upd.ite)
    | (with_reducible apply Upd.sticky; decide; decide; decide)
    | (with_reducible apply Upd.fst; assumption)
    | simp (disch := decide) only [Upd.mk1_iff, Upd.out_iff]
    | split

theorem State.flagOpen_upd (s : State) (c : Nat) (k : Nat) (n : Nat) {W P : Nat} {r_ : State} (hm : (subMask 0x100001 W && subMask 0x10000a P) = true) (k_ : Upd W P r_ s) :
    Upd W P r_ (State.flagOpen s c k n) := by
  refine Upd.via (w := 0x100001) (p := 0x10000a) ?_ hm k_
  clear hm k_
  unfold State.flagOpen
  repeat' first
    | (with_reducible exact Upd.refl _)
    | with_reducible assumption
    | (extract_lets +onlyGivenNames z; refine Upd.cutU (z := z) ?_ (fun hz => ?_); subst z; rotate_left; clear_value z; all_goals have z := trivial)
    | (extract_lets +onlyGivenNames z; refine Upd.cutU (z := z.1) ?_ (fun hz => ?_); subst z; rotate_left; clear_value z; all_goals have z := trivial)
    | (extract_lets +onlyGivenNames z; clear_value z; have z := trivial)
    | (with_reducible apply Upd.ite)
    | (with_reducible apply State.chFlag_upd; decide)
    | (with_reducible apply State.onOpen_upd; decide)
    | (with_reducible apply Upd.fst; assumption)
    | simp (disch := decide) only [Upd.mk1_iff, Upd.frames_iff, Upd.out_iff]
    | split

theorem State.queueEvent_upd (s : State) (n : Nat) (k : Nat) (lines : Nat) {W P : Nat} {r_ : State} (hm : (subMask 0x100001 W && subMask 0x100002 P) = true) (k_ : Upd W P r_ s) :
    Upd W P r_ (State.queueEvent s n k lines) := by
  refine Upd.via (w := 0x100001) (p := 0x100002) ?_ hm k_
  clear hm k_
  unfold State.queueEvent
  repeat' first
    | (with_reducible exact Upd.refl _)
    | with_reducible assumption
    | (extract_lets +onlyGivenNames z; refine Upd.cutU (z := z) ?_ (fun hz => ?_); subst z; rotate_left; clear_value z; all_goals have z := trivial)
    | (extract_lets +onlyGivenNames z; refine Upd.cutU (z := z.1) ?_ (fun hz => ?_); subst z; rotate_left; clear_value z; all_goals have z := trivial)
    | (extract_lets +onlyGivenNames z; clear_value z; have z := trivial)
    | (with_reducible apply Upd.ite)
    | (with_reducible apply Upd.setBit; decide)
    | (with_reducible apply Upd.sticky; decide; decide; decide)
    | (with_reducible apply Upd.fst; assumption)
    | simp (disch := decide) only [Upd.mk1_iff, Upd.out_iff]
    | split

end Sys2Proof.Machine
end

