-- ==== Sys2Proof/Laws/UpdNetOps.lean ====
section
/-! SUPPORT. What each operation of Machine/NetOps.lean may change (see Laws/Upd.lean). -/

set_option linter.unusedSimpArgs false
set_option linter.tactic.unusedName false

namespace Sys2Proof.Machine

theorem State.pwrEvent_upd (s : State) (k : Nat) (inst : Nat) (src16 : Nat) (secs : Nat) {W P : Nat} {r_ : State} (hm : (subMask 0x5 W && subMask 0x100002 P) = true) (k_ : Upd W P r_ s) :
    Upd W P r_ (State.pwrEvent s k inst src16 secs) := by
  refine Upd.via (w := 0x5) (p := 0x100002) ?_ hm k_
  clear hm k_
  unfold State.pwrEvent
  repeat' first
    | (with_reducible exact Upd.refl _)
    | with_reducible assumption
    | (extract_lets +onlyGivenNames z; refine Upd.cutU (z := z) ?_ (fun hz => ?_); subst z; rotate_left; clear_value z; all_goals have z := trivial)
    | (extract_lets +onlyGivenNames z; refine Upd.cutU (z := z.1) ?_ (fun hz => ?_); subst z; rotate_left; clear_value z; all_goals have z := trivial)
    | (extract_lets +onlyGivenNames z; clear_value z; have z := trivial)
    | (with_reducible apply Upd.ite)
    | (with_reducible apply Upd.sticky; decide; decide; decide)
    | (with_reducible apply Upd.fst; assumption)
    | simp (disch := decide) only [Upd.mk1_iff, Upd.out_iff]
    | split

theorem State.secEvent_upd (s : State) (k : Nat) (session : Nat) (role : Nat) (key : Nat) {W P : Nat} {r_ : State} (hm : (subMask 0x3 W && subMask 0x100002 P) = true) (k_ : Upd W P r_ s) :
    Upd W P r_ (State.secEvent s k session role key) := by
  refine Upd.via (w := 0x3) (p := 0x100002) ?_ hm k_
  clear hm k_
  unfold State.secEvent
  repeat' first
    | (with_reducible exact Upd.refl _)
    | with_reducible assumption
    | (extract_lets +onlyGivenNames z; refine Upd.cutU (z := z) ?_ (fun hz => ?_); subst z; rotate_left; clear_value z; all_goals have z := trivial)
    | (extract_lets +onlyGivenNames z; refine Upd.cutU (z := z.1) ?_ (fun hz => ?_); subst z; rotate_left; clear_value z; all_goals have z := trivial)
    | (extract_lets +onlyGivenNames z; clear_value z; have z := trivial)
    | (with_reducible apply Upd.ite)
    | (with_reducible apply Upd.sticky; decide; decide; decide)
    | (with_reducible apply Upd.fst; assumption)
    | simp (disch := decide) only [Upd.mk1_iff, Upd.out_iff]
    | split

theorem State.staleDrop_upd (s : State) (b : Nat) {W P : Nat} {r_ : State} (hm : (subMask 0x5 W && subMask 0x100002 P) = true) (k_ : Upd W P r_ s) :
    Upd W P r_ (State.staleDrop s b) := by
  refine Upd.via (w := 0x5) (p := 0x100002) ?_ hm k_
  clear hm k_
  unfold State.staleDrop
  repeat' first
    | (with_reducible exact Upd.refl _)
    | with_reducible assumption
    | (extract_lets +onlyGivenNames z; refine Upd.cutU (z := z) ?_ (fun hz => ?_); subst z; rotate_left; clear_value z; all_goals have z := trivial)
    | (extract_lets +onlyGivenNames z; refine Upd.cutU (z := z.1) ?_ (fun hz => ?_); subst z; rotate_left; clear_value z; all_goals have z := trivial)
    | (extract_lets +onlyGivenNames z; clear_value z; have z := trivial)
    | (with_reducible apply Upd.ite)
    | (with_reducible apply Upd.inc; decide)
    | (with_reducible apply State.pwrEvent_upd; decide)
    | (with_reducible apply Upd.fst; assumption)
    | simp (disch := decide) only [Upd.mk1_iff, Upd.out_iff]
    | split

theorem State.indirectDone_upd (s : State) (st : Status) (data : Nat) {W P : Nat} {r_ : State} (hm : (subMask 0x1 W && subMask 0x0 P) = true) (k_ : Upd W P r_ s) :
    Upd W P r_ (State.indirectDone s st data) := by
  refine Upd.via (w := 0x1) (p := 0x0) ?_ hm k_
  clear hm k_
  unfold State.indirectDone
  repeat' first
    | (with_reducible exact Upd.refl _)
    | with_reducible assumption
    | (extract_lets +onlyGivenNames z; refine Upd.cutU (z := z) ?_ (fun hz => ?_); subst z; rotate_left; clear_value z; all_goals have z := trivial)
    | (extract_lets +onlyGivenNames z; refine Upd.cutU (z := z.1) ?_ (fun hz => ?_); subst z; rotate_left; clear_value z; all_goals have z := trivial)
    | (extract_lets +onlyGivenNames z; clear_value z; have z := trivial)
    | (with_reducible apply Upd.ite)
    | (with_reducible apply Upd.bump; decide)
    | (with_reducible apply Upd.set; decide)
    | (with_reducible apply Upd.fst; assumption)
    | simp (disch := decide) only [Upd.mk1_iff]
    | split

theorem State.memDone_upd (s : State) (r : MemReq) (st : Status) (data : List Nat) {W P : Nat} {r_ : State} (hm : (subMask 0x100000000000000005 W && subMask 0x140c03 P) = true) (k_ : Upd W P r_ s) :
    Upd W P r_ (State.memDone s r st data) := by
  refine Upd.via (w := 0x100000000000000005) (p := 0x140c03) ?_ hm k_
  clear hm k_
  unfold State.memDone
  repeat' first
    | (with_reducible exact Upd.refl _)
    | with_reducible assumption
    | (extract_lets +onlyGivenNames z; refine Upd.cutU (z := z) ?_ (fun hz => ?_); subst z; rotate_left; clear_value z; all_goals have z := trivial)
    | (extract_lets +onlyGivenNames z; refine Upd.cutU (z := z.1) ?_ (fun hz => ?_); subst z; rotate_left; clear_value z; all_goals have z := trivial)
    | (extract_lets +onlyGivenNames z; clear_value z; have z := trivial)
    | (with_reducible apply Upd.ite)
    | (with_reducible apply State.answer_upd; decide)
    | (with_reducible apply State.emit_upd; decide)
    | (with_reducible apply State.staleDrop_upd; decide)
    | (with_reducible apply Upd.fst; assumption)
    | simp (disch := first | decide | rfl | (apply And.intro <;> first | decide | rfl | (apply And.intro <;> rfl))) only [Upd.mk1_iff, Upd.egr_iff, Upd.brg_iff, Upd.mgt_iff, Upd.out_iff]
    | split

theorem State.newGeneration_upd (s : State) (b : Nat) {W P : Nat} {r_ : State} (hm : (subMask 0x100000000000000005 W && subMask 0x141c03 P) = true) (k_ : Upd W P r_ s) :
    Upd W P r_ (State.newGeneration s b) := by
  refine Upd.via (w := 0x100000000000000005) (p := 0x141c03) ?_ hm k_
  clear hm k_
  unfold State.newGeneration
  repeat' first
    | (with_reducible apply Upd.foldl; intro _ _)
    | (with_reducible apply Upd.foldlFst; intro _ _)
    | (with_reducible exact Upd.refl _)
    | with_reducible assumption
    | (extract_lets +onlyGivenNames z; refine Upd.cutU (z := z) ?_ (fun hz => ?_); subst z; rotate_left; clear_value z; all_goals have z := trivial)
    | (extract_lets +onlyGivenNames z; refine Upd.cutU (z := z.1) ?_ (fun hz => ?_); subst z; rotate_left; clear_value z; all_goals have z := trivial)
    | (extract_lets +onlyGivenNames z; clear_value z; have z := trivial)
    | (with_reducible apply Upd.ite)
    | (with_reducible apply Upd.bump; decide)
    | (with_reducible apply Upd.inc; decide)
    | (with_reducible apply State.indirectDone_upd; decide)
    | (with_reducible apply State.memDone_upd; decide)
    | (with_reducible apply State.pieceDone_upd; decide)
    | (with_reducible apply Upd.fst; assumption)
    | simp (disch := first | decide | rfl | (apply And.intro <;> first | decide | rfl | (apply And.intro <;> rfl))) only [Upd.mk1_iff, Upd.egr_iff, Upd.brg_iff, Upd.memq_iff, Upd.mgt_iff, Upd.out_iff]
    | split

theorem State.blockReset_upd (s : State) (u : Nat) {W P : Nat} {r_ : State} (hm : (subMask 0x100000000000000005 W && subMask 0x141c03 P) = true) (k_ : Upd W P r_ s) :
    Upd W P r_ (State.blockReset s u) := by
  refine Upd.via (w := 0x100000000000000005) (p := 0x141c03) ?_ hm k_
  clear hm k_
  unfold State.blockReset
  repeat' first
    | (with_reducible exact Upd.refl _)
    | with_reducible assumption
    | (extract_lets +onlyGivenNames z; refine Upd.cutU (z := z) ?_ (fun hz => ?_); subst z; rotate_left; clear_value z; all_goals have z := trivial)
    | (extract_lets +onlyGivenNames z; refine Upd.cutU (z := z.1) ?_ (fun hz => ?_); subst z; rotate_left; clear_value z; all_goals have z := trivial)
    | (extract_lets +onlyGivenNames z; clear_value z; have z := trivial)
    | (with_reducible apply Upd.ite)
    | (with_reducible apply State.newGeneration_upd; decide)
    | (with_reducible apply Upd.set; decide)
    | (with_reducible apply Upd.fst; assumption)
    | simp (disch := first | decide | rfl | (apply And.intro <;> first | decide | rfl | (apply And.intro <;> rfl))) only [Upd.mk1_iff, Upd.egr_iff, Upd.brg_iff, Upd.memq_iff, Upd.mgt_iff, Upd.out_iff]
    | split

theorem State.brgCutOff_upd (s : State) (k : Nat) (r : BrgReq) {W P : Nat} {r_ : State} (hm : (subMask 0x100000000000000001 W && subMask 0x100c02 P) = true) (k_ : Upd W P r_ s) :
    Upd W P r_ (State.brgCutOff s k r) := by
  refine Upd.via (w := 0x100000000000000001) (p := 0x100c02) ?_ hm k_
  clear hm k_
  unfold State.brgCutOff
  repeat' first
    | (with_reducible exact Upd.refl _)
    | with_reducible assumption
    | (extract_lets +onlyGivenNames z; refine Upd.cutU (z := z) ?_ (fun hz => ?_); subst z; rotate_left; clear_value z; all_goals have z := trivial)
    | (extract_lets +onlyGivenNames z; refine Upd.cutU (z := z.1) ?_ (fun hz => ?_); subst z; rotate_left; clear_value z; all_goals have z := trivial)
    | (extract_lets +onlyGivenNames z; clear_value z; have z := trivial)
    | (with_reducible apply Upd.ite)
    | (with_reducible apply State.brgReply_upd; decide)
    | (with_reducible apply Upd.fst; assumption)
    | simp (disch := decide) only [Upd.mk1_iff, Upd.egr_iff, Upd.brg_iff, Upd.out_iff]
    | split

theorem effBrgReset_upd (s : State) {W P : Nat} {r_ : State} (hm : (subMask 0x100000000000000005 W && subMask 0x141c03 P) = true) (k_ : Upd W P r_ s) :
    Upd W P r_ (effBrgReset s) := by
  refine Upd.via (w := 0x100000000000000005) (p := 0x141c03) ?_ hm k_
  clear hm k_
  unfold effBrgReset
  repeat' first
    | (with_reducible apply Upd.foldl; intro _ _)
    | (with_reducible apply Upd.foldlFst; intro _ _)
    | (with_reducible exact Upd.refl _)
    | with_reducible assumption
    | (extract_lets +onlyGivenNames z; refine Upd.cutU (z := z) ?_ (fun hz => ?_); subst z; rotate_left; clear_value z; all_goals have z := trivial)
    | (extract_lets +onlyGivenNames z; refine Upd.cutU (z := z.1) ?_ (fun hz => ?_); subst z; rotate_left; clear_value z; all_goals have z := trivial)
    | (extract_lets +onlyGivenNames z; clear_value z; have z := trivial)
    | (with_reducible apply Upd.ite)
    | (with_reducible apply State.blockReset_upd; decide)
    | (with_reducible apply State.brgCutOff_upd; decide)
    | (with_reducible apply State.brgReply_upd; decide)
    | (with_reducible apply State.dropAheadIf_upd; decide)
    | (with_reducible apply Upd.fst; assumption)
    | simp (disch := first | decide | rfl | (apply And.intro <;> first | decide | rfl | (apply And.intro <;> rfl))) only [Upd.mk1_iff, Upd.egr_iff, Upd.brg_iff, Upd.memq_iff, Upd.mgt_iff, Upd.out_iff]
    | split

end Sys2Proof.Machine
end

