-- ==== Sys2Proof/Laws/UpdSync.lean ====
section
/-! SUPPORT. What each operation of Machine/Sync.lean may change (see Laws/Upd.lean). -/

set_option linter.unusedSimpArgs false
set_option linter.tactic.unusedName false

namespace Sys2Proof.Machine

theorem execEncoderCount_upd (n : Nat) (levels : Bool × Bool) (held : Nat) (s : State) {W P : Nat} (hm : (subMask 0x1000001 W && subMask 0x100002 P) = true) :
    NextUpd W P s (execEncoderCount n levels held s) := by
  refine NextUpd.mono (w := 0x1000001) (p := 0x100002) ?_ hm
  unfold execEncoderCount
  repeat' first
    | (with_reducible exact Upd.refl _)
    | with_reducible assumption
    | (extract_lets +onlyGivenNames z; refine Upd.cutU (z := z) ?_ (fun hz => ?_); subst z; rotate_left; clear_value z; all_goals have z := trivial)
    | (extract_lets +onlyGivenNames z; refine Upd.cutU (z := z.1) ?_ (fun hz => ?_); subst z; rotate_left; clear_value z; all_goals have z := trivial)
    | (extract_lets +onlyGivenNames z; refine NextUpd.cutU (z := z) ?_ (fun hz => ?_); subst z; rotate_left; clear_value z; all_goals have z := trivial)
    | (extract_lets +onlyGivenNames z; refine NextUpd.cutU (z := z.1) ?_ (fun hz => ?_); subst z; rotate_left; clear_value z; all_goals have z := trivial)
    | (extract_lets +onlyGivenNames z; clear_value z; have z := trivial)
    | (with_reducible apply NextUpd.next)
    | (with_reducible apply NextUpd.ite)
    | (with_reducible apply Upd.ite)
    | (with_reducible apply Upd.inc; decide)
    | (with_reducible apply Upd.set; decide)
    | (with_reducible apply Upd.sticky; decide; decide; decide)
    | (with_reducible apply Upd.fst; assumption)
    | simp (disch := decide) only [Upd.mk1_iff, Upd.out_iff]
    | split

theorem execEncoderZ_upd (e : ZEdge) (s : State) {W P : Nat} (hm : (subMask 0x1000000 W && subMask 0x0 P) = true) :
    NextUpd W P s (execEncoderZ e s) := by
  refine NextUpd.mono (w := 0x1000000) (p := 0x0) ?_ hm
  unfold execEncoderZ
  repeat' first
    | (with_reducible exact Upd.refl _)
    | with_reducible assumption
    | (extract_lets +onlyGivenNames z; refine Upd.cutU (z := z) ?_ (fun hz => ?_); subst z; rotate_left; clear_value z; all_goals have z := trivial)
    | (extract_lets +onlyGivenNames z; refine Upd.cutU (z := z.1) ?_ (fun hz => ?_); subst z; rotate_left; clear_value z; all_goals have z := trivial)
    | (extract_lets +onlyGivenNames z; refine NextUpd.cutU (z := z) ?_ (fun hz => ?_); subst z; rotate_left; clear_value z; all_goals have z := trivial)
    | (extract_lets +onlyGivenNames z; refine NextUpd.cutU (z := z.1) ?_ (fun hz => ?_); subst z; rotate_left; clear_value z; all_goals have z := trivial)
    | (extract_lets +onlyGivenNames z; clear_value z; have z := trivial)
    | (with_reducible apply NextUpd.next)
    | (with_reducible apply NextUpd.ite)
    | (with_reducible apply Upd.ite)
    | (with_reducible apply Upd.set; decide)
    | (with_reducible apply Upd.fst; assumption)
    | simp (disch := decide) only [Upd.mk1_iff]
    | split

theorem effEncPreset_upd (n : Nat) (v : Nat) (src : Src) (s : State) {W P : Nat} {r_ : State} (hm : (subMask 0x100000000001000001 W && subMask 0x140c03 P) = true) (k_ : Upd W P r_ s) :
    Upd W P r_ (effEncPreset n v src s) := by
  refine Upd.via (w := 0x100000000001000001) (p := 0x140c03) ?_ hm k_
  clear hm k_
  unfold effEncPreset
  repeat' first
    | (with_reducible exact Upd.refl _)
    | with_reducible assumption
    | (extract_lets +onlyGivenNames z; refine Upd.cutU (z := z) ?_ (fun hz => ?_); subst z; rotate_left; clear_value z; all_goals have z := trivial)
    | (extract_lets +onlyGivenNames z; refine Upd.cutU (z := z.1) ?_ (fun hz => ?_); subst z; rotate_left; clear_value z; all_goals have z := trivial)
    | (extract_lets +onlyGivenNames z; clear_value z; have z := trivial)
    | (with_reducible apply Upd.ite)
    | (with_reducible apply State.answer_upd; decide)
    | (with_reducible apply Upd.set; decide)
    | (with_reducible apply Upd.fst; assumption)
    | simp (disch := first | decide | rfl | (apply And.intro <;> first | decide | rfl | (apply And.intro <;> rfl))) only [Upd.mk1_iff, Upd.egr_iff, Upd.brg_iff, Upd.mgt_iff, Upd.out_iff]
    | split

theorem execEncPreset_upd (n : Nat) (v : Nat) (src : Src) (s : State) {W P : Nat} (hm : (subMask 0x100000000001000003 W && subMask 0x1c0c03 P) = true) :
    NextUpd W P s (execEncPreset n v src s) := by
  refine NextUpd.mono (w := 0x100000000001000003) (p := 0x1c0c03) ?_ hm
  unfold execEncPreset
  repeat' first
    | (with_reducible exact Upd.refl _)
    | with_reducible assumption
    | (extract_lets +onlyGivenNames z; refine Upd.cutU (z := z) ?_ (fun hz => ?_); subst z; rotate_left; clear_value z; all_goals have z := trivial)
    | (extract_lets +onlyGivenNames z; refine Upd.cutU (z := z.1) ?_ (fun hz => ?_); subst z; rotate_left; clear_value z; all_goals have z := trivial)
    | (extract_lets +onlyGivenNames z; refine NextUpd.cutU (z := z) ?_ (fun hz => ?_); subst z; rotate_left; clear_value z; all_goals have z := trivial)
    | (extract_lets +onlyGivenNames z; refine NextUpd.cutU (z := z.1) ?_ (fun hz => ?_); subst z; rotate_left; clear_value z; all_goals have z := trivial)
    | (extract_lets +onlyGivenNames z; clear_value z; have z := trivial)
    | (with_reducible apply NextUpd.next)
    | (with_reducible apply NextUpd.ite)
    | (with_reducible apply Upd.ite)
    | (with_reducible apply State.answer_upd; decide)
    | (with_reducible apply State.recorded_upd; decide; intro _)
    | (with_reducible apply effEncPreset_upd; decide)
    | (with_reducible apply Upd.fst; assumption)
    | simp (disch := first | decide | rfl | (apply And.intro <;> first | decide | rfl | (apply And.intro <;> rfl))) only [Upd.mk1_iff, Upd.egr_iff, Upd.brg_iff, Upd.mgt_iff, Upd.sec_iff, Upd.out_iff]
    | split

theorem State.speedSample_upd (s : State) (n : Nat) {W P : Nat} {r_ : State} (hm : (subMask 0x1000004 W && subMask 0x0 P) = true) (k_ : Upd W P r_ s) :
    Upd W P r_ (State.speedSample s n) := by
  refine Upd.via (w := 0x1000004) (p := 0x0) ?_ hm k_
  clear hm k_
  unfold State.speedSample
  repeat' first
    | (with_reducible exact Upd.refl _)
    | with_reducible assumption
    | (extract_lets +onlyGivenNames z; refine Upd.cutU (z := z) ?_ (fun hz => ?_); subst z; rotate_left; clear_value z; all_goals have z := trivial)
    | (extract_lets +onlyGivenNames z; refine Upd.cutU (z := z.1) ?_ (fun hz => ?_); subst z; rotate_left; clear_value z; all_goals have z := trivial)
    | (extract_lets +onlyGivenNames z; clear_value z; have z := trivial)
    | (with_reducible apply Upd.ite)
    | (with_reducible apply Upd.set; decide)
    | (with_reducible apply Upd.fst; assumption)
    | simp (disch := decide) only [Upd.mk1_iff]
    | split

theorem execSpeedSample_upd (s : State) {W P : Nat} (hm : (subMask 0x1000004 W && subMask 0x0 P) = true) :
    NextUpd W P s (execSpeedSample s) := by
  refine NextUpd.mono (w := 0x1000004) (p := 0x0) ?_ hm
  unfold execSpeedSample
  repeat' first
    | (with_reducible apply Upd.foldl; intro _ _)
    | (with_reducible apply Upd.foldlFst; intro _ _)
    | (with_reducible exact Upd.refl _)
    | with_reducible assumption
    | (extract_lets +onlyGivenNames z; refine Upd.cutU (z := z) ?_ (fun hz => ?_); subst z; rotate_left; clear_value z; all_goals have z := trivial)
    | (extract_lets +onlyGivenNames z; refine Upd.cutU (z := z.1) ?_ (fun hz => ?_); subst z; rotate_left; clear_value z; all_goals have z := trivial)
    | (extract_lets +onlyGivenNames z; refine NextUpd.cutU (z := z) ?_ (fun hz => ?_); subst z; rotate_left; clear_value z; all_goals have z := trivial)
    | (extract_lets +onlyGivenNames z; refine NextUpd.cutU (z := z.1) ?_ (fun hz => ?_); subst z; rotate_left; clear_value z; all_goals have z := trivial)
    | (extract_lets +onlyGivenNames z; clear_value z; have z := trivial)
    | (with_reducible apply NextUpd.next)
    | (with_reducible apply NextUpd.ite)
    | (with_reducible apply Upd.ite)
    | (with_reducible apply State.speedSample_upd; decide)
    | (with_reducible apply Upd.fst; assumption)
    | simp (disch := decide) only [Upd.mk1_iff]
    | split

theorem State.armAt_upd (s : State) (c : Nat) (pos : Nat) (time : Nat) {W P : Nat} {r_ : State} (hm : (subMask 0x1000000 W && subMask 0x0 P) = true) (k_ : Upd W P r_ s) :
    Upd W P r_ (State.armAt s c pos time) := by
  refine Upd.via (w := 0x1000000) (p := 0x0) ?_ hm k_
  clear hm k_
  unfold State.armAt
  repeat' first
    | (with_reducible exact Upd.refl _)
    | with_reducible assumption
    | (extract_lets +onlyGivenNames z; refine Upd.cutU (z := z) ?_ (fun hz => ?_); subst z; rotate_left; clear_value z; all_goals have z := trivial)
    | (extract_lets +onlyGivenNames z; refine Upd.cutU (z := z.1) ?_ (fun hz => ?_); subst z; rotate_left; clear_value z; all_goals have z := trivial)
    | (extract_lets +onlyGivenNames z; clear_value z; have z := trivial)
    | (with_reducible apply Upd.ite)
    | (with_reducible apply Upd.set; decide)
    | (with_reducible apply Upd.fst; assumption)
    | simp (disch := decide) only [Upd.mk1_iff]
    | split

theorem State.armNow_upd (s : State) (c : Nat) {W P : Nat} {r_ : State} (hm : (subMask 0x1000000 W && subMask 0x0 P) = true) (k_ : Upd W P r_ s) :
    Upd W P r_ (State.armNow s c) := by
  refine Upd.via (w := 0x1000000) (p := 0x0) ?_ hm k_
  clear hm k_
  unfold State.armNow
  repeat' first
    | (with_reducible exact Upd.refl _)
    | with_reducible assumption
    | (extract_lets +onlyGivenNames z; refine Upd.cutU (z := z) ?_ (fun hz => ?_); subst z; rotate_left; clear_value z; all_goals have z := trivial)
    | (extract_lets +onlyGivenNames z; refine Upd.cutU (z := z.1) ?_ (fun hz => ?_); subst z; rotate_left; clear_value z; all_goals have z := trivial)
    | (extract_lets +onlyGivenNames z; clear_value z; have z := trivial)
    | (with_reducible apply Upd.ite)
    | (with_reducible apply State.armAt_upd; decide)
    | (with_reducible apply Upd.fst; assumption)
    | simp (disch := decide) only [Upd.mk1_iff]
    | split

theorem State.armByMark_upd (s : State) (m : Nat) (c : Nat) {W P : Nat} {r_ : State} (hm : (subMask 0x1000000 W && subMask 0x0 P) = true) (k_ : Upd W P r_ s) :
    Upd W P r_ (State.armByMark s m c) := by
  refine Upd.via (w := 0x1000000) (p := 0x0) ?_ hm k_
  clear hm k_
  unfold State.armByMark
  repeat' first
    | (with_reducible exact Upd.refl _)
    | with_reducible assumption
    | (extract_lets +onlyGivenNames z; refine Upd.cutU (z := z) ?_ (fun hz => ?_); subst z; rotate_left; clear_value z; all_goals have z := trivial)
    | (extract_lets +onlyGivenNames z; refine Upd.cutU (z := z.1) ?_ (fun hz => ?_); subst z; rotate_left; clear_value z; all_goals have z := trivial)
    | (extract_lets +onlyGivenNames z; clear_value z; have z := trivial)
    | (with_reducible apply Upd.ite)
    | (with_reducible apply State.armAt_upd; decide)
    | (with_reducible apply Upd.fst; assumption)
    | simp (disch := decide) only [Upd.mk1_iff]
    | split

theorem State.armAllByMark_upd (s : State) (m : Nat) {W P : Nat} {r_ : State} (hm : (subMask 0x1000000 W && subMask 0x0 P) = true) (k_ : Upd W P r_ s) :
    Upd W P r_ (State.armAllByMark s m) := by
  refine Upd.via (w := 0x1000000) (p := 0x0) ?_ hm k_
  clear hm k_
  unfold State.armAllByMark
  repeat' first
    | (with_reducible apply Upd.foldl; intro _ _)
    | (with_reducible apply Upd.foldlFst; intro _ _)
    | (with_reducible exact Upd.refl _)
    | with_reducible assumption
    | (extract_lets +onlyGivenNames z; refine Upd.cutU (z := z) ?_ (fun hz => ?_); subst z; rotate_left; clear_value z; all_goals have z := trivial)
    | (extract_lets +onlyGivenNames z; refine Upd.cutU (z := z.1) ?_ (fun hz => ?_); subst z; rotate_left; clear_value z; all_goals have z := trivial)
    | (extract_lets +onlyGivenNames z; clear_value z; have z := trivial)
    | (with_reducible apply Upd.ite)
    | (with_reducible apply State.armByMark_upd; decide)
    | (with_reducible apply Upd.fst; assumption)
    | simp (disch := decide) only [Upd.mk1_iff]
    | split

theorem State.orphan_upd (s : State) (c : Nat) (seq : Nat) {W P : Nat} {r_ : State} (hm : (subMask 0x1000001 W && subMask 0x100002 P) = true) (k_ : Upd W P r_ s) :
    Upd W P r_ (State.orphan s c seq) := by
  refine Upd.via (w := 0x1000001) (p := 0x100002) ?_ hm k_
  clear hm k_
  unfold State.orphan
  repeat' first
    | (with_reducible exact Upd.refl _)
    | with_reducible assumption
    | (extract_lets +onlyGivenNames z; refine Upd.cutU (z := z) ?_ (fun hz => ?_); subst z; rotate_left; clear_value z; all_goals have z := trivial)
    | (extract_lets +onlyGivenNames z; refine Upd.cutU (z := z.1) ?_ (fun hz => ?_); subst z; rotate_left; clear_value z; all_goals have z := trivial)
    | (extract_lets +onlyGivenNames z; clear_value z; have z := trivial)
    | (with_reducible apply Upd.ite)
    | (with_reducible apply Upd.inc; decide)
    | (with_reducible apply Upd.sticky; decide; decide; decide)
    | (with_reducible apply Upd.fst; assumption)
    | simp (disch := decide) only [Upd.mk1_iff, Upd.out_iff]
    | split

theorem State.setFires_upd (s : State) (c : Nat) (l : List Fire) {W P : Nat} {r_ : State} (hm : (subMask 0x0 W && subMask 0x20 P) = true) (k_ : Upd W P r_ s) :
    Upd W P r_ (State.setFires s c l) := by
  refine Upd.via (w := 0x0) (p := 0x20) ?_ hm k_
  clear hm k_
  unfold State.setFires
  repeat' first
    | (with_reducible exact Upd.refl _)
    | with_reducible assumption
    | (extract_lets +onlyGivenNames z; refine Upd.cutU (z := z) ?_ (fun hz => ?_); subst z; rotate_left; clear_value z; all_goals have z := trivial)
    | (extract_lets +onlyGivenNames z; refine Upd.cutU (z := z.1) ?_ (fun hz => ?_); subst z; rotate_left; clear_value z; all_goals have z := trivial)
    | (extract_lets +onlyGivenNames z; have _t : SynS := z; clear _t; subst z; have z := trivial)
    | (extract_lets +onlyGivenNames z; clear_value z; have z := trivial)
    | (with_reducible apply Upd.ite)
    | (with_reducible apply Upd.fst; assumption)
    | simp (disch := first | decide | rfl | (apply And.intro <;> first | decide | rfl | (apply And.intro <;> rfl))) only [Upd.mk1_iff, Upd.syn_iff]
    | split

theorem State.addFire_upd (s : State) (c : Nat) (f : Fire) {W P : Nat} {r_ : State} (hm : (subMask 0x1000001 W && subMask 0x100022 P) = true) (k_ : Upd W P r_ s) :
    Upd W P r_ (State.addFire s c f) := by
  refine Upd.via (w := 0x1000001) (p := 0x100022) ?_ hm k_
  clear hm k_
  unfold State.addFire
  repeat' first
    | (with_reducible exact Upd.refl _)
    | with_reducible assumption
    | (extract_lets +onlyGivenNames z; refine Upd.cutU (z := z) ?_ (fun hz => ?_); subst z; rotate_left; clear_value z; all_goals have z := trivial)
    | (extract_lets +onlyGivenNames z; refine Upd.cutU (z := z.1) ?_ (fun hz => ?_); subst z; rotate_left; clear_value z; all_goals have z := trivial)
    | (extract_lets +onlyGivenNames z; clear_value z; have z := trivial)
    | (with_reducible apply Upd.ite)
    | (with_reducible apply State.orphan_upd; decide)
    | (with_reducible apply State.setFires_upd; decide)
    | (with_reducible apply Upd.fst; assumption)
    | simp (disch := first | decide | rfl | (apply And.intro <;> first | decide | rfl | (apply And.intro <;> rfl))) only [Upd.mk1_iff, Upd.syn_iff, Upd.out_iff]
    | split

theorem State.startPulse_upd (s : State) (j : Nat) {W P : Nat} {r_ : State} (hm : (subMask 0x1000000 W && subMask 0x100000 P) = true) (k_ : Upd W P r_ s) :
    Upd W P r_ (State.startPulse s j) := by
  refine Upd.via (w := 0x1000000) (p := 0x100000) ?_ hm k_
  clear hm k_
  unfold State.startPulse
  repeat' first
    | (with_reducible exact Upd.refl _)
    | with_reducible assumption
    | (extract_lets +onlyGivenNames z; refine Upd.cutU (z := z) ?_ (fun hz => ?_); subst z; rotate_left; clear_value z; all_goals have z := trivial)
    | (extract_lets +onlyGivenNames z; refine Upd.cutU (z := z.1) ?_ (fun hz => ?_); subst z; rotate_left; clear_value z; all_goals have z := trivial)
    | (extract_lets +onlyGivenNames z; clear_value z; have z := trivial)
    | (with_reducible apply Upd.ite)
    | (with_reducible apply State.emit_upd; decide)
    | (with_reducible apply Upd.set; decide)
    | (with_reducible apply Upd.fst; assumption)
    | simp (disch := decide) only [Upd.mk1_iff, Upd.out_iff]
    | split

theorem State.pinLow_upd (s : State) (j : Nat) {W P : Nat} {r_ : State} (hm : (subMask 0x1000000 W && subMask 0x100000 P) = true) (k_ : Upd W P r_ s) :
    Upd W P r_ (State.pinLow s j) := by
  refine Upd.via (w := 0x1000000) (p := 0x100000) ?_ hm k_
  clear hm k_
  unfold State.pinLow
  repeat' first
    | (with_reducible exact Upd.refl _)
    | with_reducible assumption
    | (extract_lets +onlyGivenNames z; refine Upd.cutU (z := z) ?_ (fun hz => ?_); subst z; rotate_left; clear_value z; all_goals have z := trivial)
    | (extract_lets +onlyGivenNames z; refine Upd.cutU (z := z.1) ?_ (fun hz => ?_); subst z; rotate_left; clear_value z; all_goals have z := trivial)
    | (extract_lets +onlyGivenNames z; clear_value z; have z := trivial)
    | (with_reducible apply Upd.ite)
    | (with_reducible apply State.emit_upd; decide)
    | (with_reducible apply Upd.set; decide)
    | (with_reducible apply Upd.fst; assumption)
    | simp (disch := decide) only [Upd.mk1_iff, Upd.out_iff]
    | split

theorem State.sendTrigger_upd (s : State) (c : Nat) (seq : Nat) {W P : Nat} {r_ : State} (hm : (subMask 0x1000000 W && subMask 0x100000 P) = true) (k_ : Upd W P r_ s) :
    Upd W P r_ (State.sendTrigger s c seq) := by
  refine Upd.via (w := 0x1000000) (p := 0x100000) ?_ hm k_
  clear hm k_
  unfold State.sendTrigger
  repeat' first
    | (with_reducible apply Upd.foldl; intro _ _)
    | (with_reducible apply Upd.foldlFst; intro _ _)
    | (with_reducible exact Upd.refl _)
    | with_reducible assumption
    | (extract_lets +onlyGivenNames z; refine Upd.cutU (z := z) ?_ (fun hz => ?_); subst z; rotate_left; clear_value z; all_goals have z := trivial)
    | (extract_lets +onlyGivenNames z; refine Upd.cutU (z := z.1) ?_ (fun hz => ?_); subst z; rotate_left; clear_value z; all_goals have z := trivial)
    | (extract_lets +onlyGivenNames z; clear_value z; have z := trivial)
    | (with_reducible apply Upd.ite)
    | (with_reducible apply State.emit_upd; decide)
    | (with_reducible apply State.startPulse_upd; decide)
    | (with_reducible apply Upd.fst; assumption)
    | simp (disch := decide) only [Upd.mk1_iff, Upd.out_iff]
    | split

theorem State.fireSent_upd (s : State) (c : Nat) (seq : Nat) {W P : Nat} {r_ : State} (hm : (subMask 0x1000001 W && subMask 0x300022 P) = true) (k_ : Upd W P r_ s) :
    Upd W P r_ (State.fireSent s c seq) := by
  refine Upd.via (w := 0x1000001) (p := 0x300022) ?_ hm k_
  clear hm k_
  unfold State.fireSent
  repeat' first
    | (with_reducible exact Upd.refl _)
    | with_reducible assumption
    | (extract_lets +onlyGivenNames z; refine Upd.cutU (z := z) ?_ (fun hz => ?_); subst z; rotate_left; clear_value z; all_goals have z := trivial)
    | (extract_lets +onlyGivenNames z; refine Upd.cutU (z := z.1) ?_ (fun hz => ?_); subst z; rotate_left; clear_value z; all_goals have z := trivial)
    | (extract_lets +onlyGivenNames z; clear_value z; have z := trivial)
    | (with_reducible apply Upd.ite)
    | (with_reducible apply State.addFire_upd; decide)
    | (with_reducible apply State.drawn_upd; decide)
    | (with_reducible apply Upd.inc; decide)
    | (with_reducible apply State.sendTrigger_upd; decide)
    | (with_reducible apply Upd.set; decide)
    | (with_reducible apply Upd.fst; assumption)
    | simp (disch := first | decide | rfl | (apply And.intro <;> first | decide | rfl | (apply And.intro <;> rfl))) only [Upd.mk1_iff, Upd.syn_iff, Upd.out_iff, Upd.fresh_iff]
    | split

theorem State.unmapPins_upd (s : State) {W P : Nat} {r_ : State} (hm : (subMask 0x1000000 W && subMask 0x100000 P) = true) (k_ : Upd W P r_ s) :
    Upd W P r_ (State.unmapPins s) := by
  refine Upd.via (w := 0x1000000) (p := 0x100000) ?_ hm k_
  clear hm k_
  unfold State.unmapPins
  repeat' first
    | (with_reducible apply Upd.foldl; intro _ _)
    | (with_reducible apply Upd.foldlFst; intro _ _)
    | (with_reducible exact Upd.refl _)
    | with_reducible assumption
    | (extract_lets +onlyGivenNames z; refine Upd.cutU (z := z) ?_ (fun hz => ?_); subst z; rotate_left; clear_value z; all_goals have z := trivial)
    | (extract_lets +onlyGivenNames z; refine Upd.cutU (z := z.1) ?_ (fun hz => ?_); subst z; rotate_left; clear_value z; all_goals have z := trivial)
    | (extract_lets +onlyGivenNames z; clear_value z; have z := trivial)
    | (with_reducible apply Upd.ite)
    | (with_reducible apply State.pinLow_upd; decide)
    | (with_reducible apply Upd.fst; assumption)
    | simp (disch := decide) only [Upd.mk1_iff, Upd.out_iff]
    | split

theorem State.fireOutcome_upd (s : State) (c : Nat) (seq : Nat) {W P : Nat} {r_ : State} (hm : (subMask 0x1000003 W && subMask 0x380022 P) = true) (k_ : Upd W P r_ s) :
    Upd W P r_ (State.fireOutcome s c seq) := by
  refine Upd.via (w := 0x1000003) (p := 0x380022) ?_ hm k_
  clear hm k_
  unfold State.fireOutcome
  dsimp only
  repeat' first
    | (with_reducible exact Upd.refl _)
    | with_reducible assumption
    | (extract_lets +onlyGivenNames z; refine Upd.cutU (z := z) ?_ (fun hz => ?_); subst z; rotate_left; clear_value z; all_goals have z := trivial)
    | (extract_lets +onlyGivenNames z; refine Upd.cutU (z := z.1) ?_ (fun hz => ?_); subst z; rotate_left; clear_value z; all_goals have z := trivial)
    | (extract_lets +onlyGivenNames z; have _t : State → _ := z; clear _t; subst z; have z := trivial)
    | (extract_lets +onlyGivenNames z; have _t : _ → State := z; clear _t; subst z; have z := trivial)
    | (extract_lets +onlyGivenNames z; have _t : _ → _ → State := z; clear _t; subst z; have z := trivial)
    | (extract_lets +onlyGivenNames z; clear_value z; have z := trivial)
    | (with_reducible apply Upd.ite)
    | (with_reducible apply State.fireSent_upd; decide)
    | (with_reducible apply Upd.inc; decide)
    | (with_reducible apply State.note_upd; decide)
    | (with_reducible apply Upd.sticky; decide; decide; decide)
    | (with_reducible apply Upd.fst; assumption)
    | simp (disch := first | decide | rfl | (apply And.intro <;> first | decide | rfl | (apply And.intro <;> rfl))) only [Upd.mk1_iff, Upd.syn_iff, Upd.sec_iff, Upd.out_iff, Upd.fresh_iff]
    | split

theorem execTriggerFire_upd (c : Nat) (s : State) {W P : Nat} (hm : (subMask 0x1000003 W && subMask 0x380022 P) = true) :
    NextUpd W P s (execTriggerFire c s) := by
  refine NextUpd.mono (w := 0x1000003) (p := 0x380022) ?_ hm
  unfold execTriggerFire
  repeat' first
    | (with_reducible exact Upd.refl _)
    | with_reducible assumption
    | (extract_lets +onlyGivenNames z; refine Upd.cutU (z := z) ?_ (fun hz => ?_); subst z; rotate_left; clear_value z; all_goals have z := trivial)
    | (extract_lets +onlyGivenNames z; refine Upd.cutU (z := z.1) ?_ (fun hz => ?_); subst z; rotate_left; clear_value z; all_goals have z := trivial)
    | (extract_lets +onlyGivenNames z; refine NextUpd.cutU (z := z) ?_ (fun hz => ?_); subst z; rotate_left; clear_value z; all_goals have z := trivial)
    | (extract_lets +onlyGivenNames z; refine NextUpd.cutU (z := z.1) ?_ (fun hz => ?_); subst z; rotate_left; clear_value z; all_goals have z := trivial)
    | (extract_lets +onlyGivenNames z; clear_value z; have z := trivial)
    | (with_reducible apply NextUpd.next)
    | (with_reducible apply NextUpd.ite)
    | (with_reducible apply Upd.ite)
    | (with_reducible apply State.fireOutcome_upd; decide)
    | (with_reducible apply Upd.set; decide)
    | (with_reducible apply Upd.fst; assumption)
    | simp (disch := first | decide | rfl | (apply And.intro <;> first | decide | rfl | (apply And.intro <;> rfl))) only [Upd.mk1_iff, Upd.syn_iff, Upd.sec_iff, Upd.out_iff, Upd.fresh_iff]
    | split

theorem execTrigPulseEnd_upd (pin : Nat) (s : State) {W P : Nat} (hm : (subMask 0x1000000 W && subMask 0x100000 P) = true) :
    NextUpd W P s (execTrigPulseEnd pin s) := by
  refine NextUpd.mono (w := 0x1000000) (p := 0x100000) ?_ hm
  unfold execTrigPulseEnd
  repeat' first
    | (with_reducible exact Upd.refl _)
    | with_reducible assumption
    | (extract_lets +onlyGivenNames z; refine Upd.cutU (z := z) ?_ (fun hz => ?_); subst z; rotate_left; clear_value z; all_goals have z := trivial)
    | (extract_lets +onlyGivenNames z; refine Upd.cutU (z := z.1) ?_ (fun hz => ?_); subst z; rotate_left; clear_value z; all_goals have z := trivial)
    | (extract_lets +onlyGivenNames z; refine NextUpd.cutU (z := z) ?_ (fun hz => ?_); subst z; rotate_left; clear_value z; all_goals have z := trivial)
    | (extract_lets +onlyGivenNames z; refine NextUpd.cutU (z := z.1) ?_ (fun hz => ?_); subst z; rotate_left; clear_value z; all_goals have z := trivial)
    | (extract_lets +onlyGivenNames z; clear_value z; have z := trivial)
    | (with_reducible apply NextUpd.next)
    | (with_reducible apply NextUpd.ite)
    | (with_reducible apply Upd.ite)
    | (with_reducible apply State.pinLow_upd; decide)
    | (with_reducible apply Upd.fst; assumption)
    | simp (disch := decide) only [Upd.mk1_iff, Upd.out_iff]
    | split

theorem State.pitchCommit_upd (s : State) (c : Nat) (v : Nat) {W P : Nat} {r_ : State} (hm : (subMask 0x1000000 W && subMask 0x0 P) = true) (k_ : Upd W P r_ s) :
    Upd W P r_ (State.pitchCommit s c v) := by
  refine Upd.via (w := 0x1000000) (p := 0x0) ?_ hm k_
  clear hm k_
  unfold State.pitchCommit
  repeat' first
    | (with_reducible exact Upd.refl _)
    | with_reducible assumption
    | (extract_lets +onlyGivenNames z; refine Upd.cutU (z := z) ?_ (fun hz => ?_); subst z; rotate_left; clear_value z; all_goals have z := trivial)
    | (extract_lets +onlyGivenNames z; refine Upd.cutU (z := z.1) ?_ (fun hz => ?_); subst z; rotate_left; clear_value z; all_goals have z := trivial)
    | (extract_lets +onlyGivenNames z; clear_value z; have z := trivial)
    | (with_reducible apply Upd.ite)
    | (with_reducible apply State.armNow_upd; decide)
    | (with_reducible apply Upd.set; decide)
    | (with_reducible apply Upd.fst; assumption)
    | simp (disch := decide) only [Upd.mk1_iff]
    | split

theorem execPitchCommit_upd (c : Nat) (v : Nat) (src : Src) (s : State) {W P : Nat} (hm : (subMask 0x100000000001000001 W && subMask 0x140c03 P) = true) :
    NextUpd W P s (execPitchCommit c v src s) := by
  refine NextUpd.mono (w := 0x100000000001000001) (p := 0x140c03) ?_ hm
  unfold execPitchCommit
  repeat' first
    | (with_reducible exact Upd.refl _)
    | with_reducible assumption
    | (extract_lets +onlyGivenNames z; refine Upd.cutU (z := z) ?_ (fun hz => ?_); subst z; rotate_left; clear_value z; all_goals have z := trivial)
    | (extract_lets +onlyGivenNames z; refine Upd.cutU (z := z.1) ?_ (fun hz => ?_); subst z; rotate_left; clear_value z; all_goals have z := trivial)
    | (extract_lets +onlyGivenNames z; refine NextUpd.cutU (z := z) ?_ (fun hz => ?_); subst z; rotate_left; clear_value z; all_goals have z := trivial)
    | (extract_lets +onlyGivenNames z; refine NextUpd.cutU (z := z.1) ?_ (fun hz => ?_); subst z; rotate_left; clear_value z; all_goals have z := trivial)
    | (extract_lets +onlyGivenNames z; clear_value z; have z := trivial)
    | (with_reducible apply NextUpd.next)
    | (with_reducible apply NextUpd.ite)
    | (with_reducible apply Upd.ite)
    | (with_reducible apply State.answer_upd; decide)
    | (with_reducible apply State.pitchCommit_upd; decide)
    | (with_reducible apply Upd.fst; assumption)
    | simp (disch := first | decide | rfl | (apply And.intro <;> first | decide | rfl | (apply And.intro <;> rfl))) only [Upd.mk1_iff, Upd.egr_iff, Upd.brg_iff, Upd.mgt_iff, Upd.out_iff]
    | split

theorem State.trigEnable_upd (s : State) (c : Nat) {W P : Nat} {r_ : State} (hm : (subMask 0x1000000 W && subMask 0x0 P) = true) (k_ : Upd W P r_ s) :
    Upd W P r_ (State.trigEnable s c) := by
  refine Upd.via (w := 0x1000000) (p := 0x0) ?_ hm k_
  clear hm k_
  unfold State.trigEnable
  repeat' first
    | (with_reducible exact Upd.refl _)
    | with_reducible assumption
    | (extract_lets +onlyGivenNames z; refine Upd.cutU (z := z) ?_ (fun hz => ?_); subst z; rotate_left; clear_value z; all_goals have z := trivial)
    | (extract_lets +onlyGivenNames z; refine Upd.cutU (z := z.1) ?_ (fun hz => ?_); subst z; rotate_left; clear_value z; all_goals have z := trivial)
    | (extract_lets +onlyGivenNames z; clear_value z; have z := trivial)
    | (with_reducible apply Upd.ite)
    | (with_reducible apply State.armNow_upd; decide)
    | (with_reducible apply Upd.set; decide)
    | (with_reducible apply Upd.fst; assumption)
    | simp (disch := decide) only [Upd.mk1_iff]
    | split

theorem State.trigDisable_upd (s : State) (c : Nat) {W P : Nat} {r_ : State} (hm : (subMask 0x1000000 W && subMask 0x0 P) = true) (k_ : Upd W P r_ s) :
    Upd W P r_ (State.trigDisable s c) := by
  refine Upd.via (w := 0x1000000) (p := 0x0) ?_ hm k_
  clear hm k_
  unfold State.trigDisable
  repeat' first
    | (with_reducible exact Upd.refl _)
    | with_reducible assumption
    | (extract_lets +onlyGivenNames z; refine Upd.cutU (z := z) ?_ (fun hz => ?_); subst z; rotate_left; clear_value z; all_goals have z := trivial)
    | (extract_lets +onlyGivenNames z; refine Upd.cutU (z := z.1) ?_ (fun hz => ?_); subst z; rotate_left; clear_value z; all_goals have z := trivial)
    | (extract_lets +onlyGivenNames z; clear_value z; have z := trivial)
    | (with_reducible apply Upd.ite)
    | (with_reducible apply Upd.set; decide)
    | (with_reducible apply Upd.fst; assumption)
    | simp (disch := decide) only [Upd.mk1_iff]
    | split

theorem execTrigEnable_upd (c : Nat) (src : Src) (s : State) {W P : Nat} (hm : (subMask 0x100000000001000001 W && subMask 0x140c03 P) = true) :
    NextUpd W P s (execTrigEnable c src s) := by
  refine NextUpd.mono (w := 0x100000000001000001) (p := 0x140c03) ?_ hm
  unfold execTrigEnable
  repeat' first
    | (with_reducible exact Upd.refl _)
    | with_reducible assumption
    | (extract_lets +onlyGivenNames z; refine Upd.cutU (z := z) ?_ (fun hz => ?_); subst z; rotate_left; clear_value z; all_goals have z := trivial)
    | (extract_lets +onlyGivenNames z; refine Upd.cutU (z := z.1) ?_ (fun hz => ?_); subst z; rotate_left; clear_value z; all_goals have z := trivial)
    | (extract_lets +onlyGivenNames z; refine NextUpd.cutU (z := z) ?_ (fun hz => ?_); subst z; rotate_left; clear_value z; all_goals have z := trivial)
    | (extract_lets +onlyGivenNames z; refine NextUpd.cutU (z := z.1) ?_ (fun hz => ?_); subst z; rotate_left; clear_value z; all_goals have z := trivial)
    | (extract_lets +onlyGivenNames z; clear_value z; have z := trivial)
    | (with_reducible apply NextUpd.next)
    | (with_reducible apply NextUpd.ite)
    | (with_reducible apply Upd.ite)
    | (with_reducible apply State.answer_upd; decide)
    | (with_reducible apply State.trigEnable_upd; decide)
    | (with_reducible apply Upd.fst; assumption)
    | simp (disch := first | decide | rfl | (apply And.intro <;> first | decide | rfl | (apply And.intro <;> rfl))) only [Upd.mk1_iff, Upd.egr_iff, Upd.brg_iff, Upd.mgt_iff, Upd.out_iff]
    | split

theorem execTrigDisable_upd (c : Nat) (src : Src) (s : State) {W P : Nat} (hm : (subMask 0x100000000001000001 W && subMask 0x140c03 P) = true) :
    NextUpd W P s (execTrigDisable c src s) := by
  refine NextUpd.mono (w := 0x100000000001000001) (p := 0x140c03) ?_ hm
  unfold execTrigDisable
  repeat' first
    | (with_reducible exact Upd.refl _)
    | with_reducible assumption
    | (extract_lets +onlyGivenNames z; refine Upd.cutU (z := z) ?_ (fun hz => ?_); subst z; rotate_left; clear_value z; all_goals have z := trivial)
    | (extract_lets +onlyGivenNames z; refine Upd.cutU (z := z.1) ?_ (fun hz => ?_); subst z; rotate_left; clear_value z; all_goals have z := trivial)
    | (extract_lets +onlyGivenNames z; refine NextUpd.cutU (z := z) ?_ (fun hz => ?_); subst z; rotate_left; clear_value z; all_goals have z := trivial)
    | (extract_lets +onlyGivenNames z; refine NextUpd.cutU (z := z.1) ?_ (fun hz => ?_); subst z; rotate_left; clear_value z; all_goals have z := trivial)
    | (extract_lets +onlyGivenNames z; clear_value z; have z := trivial)
    | (with_reducible apply NextUpd.next)
    | (with_reducible apply NextUpd.ite)
    | (with_reducible apply Upd.ite)
    | (with_reducible apply State.answer_upd; decide)
    | (with_reducible apply State.trigDisable_upd; decide)
    | (with_reducible apply Upd.fst; assumption)
    | simp (disch := first | decide | rfl | (apply And.intro <;> first | decide | rfl | (apply And.intro <;> rfl))) only [Upd.mk1_iff, Upd.egr_iff, Upd.brg_iff, Upd.mgt_iff, Upd.out_iff]
    | split

theorem State.addTime_upd (s : State) (d : Int) {W P : Nat} {r_ : State} (hm : (subMask 0x1000000 W && subMask 0x0 P) = true) (k_ : Upd W P r_ s) :
    Upd W P r_ (State.addTime s d) := by
  refine Upd.via (w := 0x1000000) (p := 0x0) ?_ hm k_
  clear hm k_
  unfold State.addTime
  repeat' first
    | (with_reducible exact Upd.refl _)
    | with_reducible assumption
    | (extract_lets +onlyGivenNames z; refine Upd.cutU (z := z) ?_ (fun hz => ?_); subst z; rotate_left; clear_value z; all_goals have z := trivial)
    | (extract_lets +onlyGivenNames z; refine Upd.cutU (z := z.1) ?_ (fun hz => ?_); subst z; rotate_left; clear_value z; all_goals have z := trivial)
    | (extract_lets +onlyGivenNames z; clear_value z; have z := trivial)
    | (with_reducible apply Upd.ite)
    | (with_reducible apply Upd.set; decide)
    | (with_reducible apply Upd.fst; assumption)
    | simp (disch := decide) only [Upd.mk1_iff]
    | split

theorem State.stepTime_upd (s : State) (d : Int) {W P : Nat} {r_ : State} (hm : (subMask 0x1000004 W && subMask 0x0 P) = true) (k_ : Upd W P r_ s) :
    Upd W P r_ (State.stepTime s d) := by
  refine Upd.via (w := 0x1000004) (p := 0x0) ?_ hm k_
  clear hm k_
  unfold State.stepTime
  repeat' first
    | (with_reducible exact Upd.refl _)
    | with_reducible assumption
    | (extract_lets +onlyGivenNames z; refine Upd.cutU (z := z) ?_ (fun hz => ?_); subst z; rotate_left; clear_value z; all_goals have z := trivial)
    | (extract_lets +onlyGivenNames z; refine Upd.cutU (z := z.1) ?_ (fun hz => ?_); subst z; rotate_left; clear_value z; all_goals have z := trivial)
    | (extract_lets +onlyGivenNames z; clear_value z; have z := trivial)
    | (with_reducible apply Upd.ite)
    | (with_reducible apply State.addTime_upd; decide)
    | (with_reducible apply Upd.set; decide)
    | (with_reducible apply Upd.fst; assumption)
    | simp (disch := decide) only [Upd.mk1_iff]
    | split

theorem execTbStep_upd (v : Nat) (src : Src) (s : State) {W P : Nat} (hm : (subMask 0x100000000001000005 W && subMask 0x140c03 P) = true) :
    NextUpd W P s (execTbStep v src s) := by
  refine NextUpd.mono (w := 0x100000000001000005) (p := 0x140c03) ?_ hm
  unfold execTbStep
  repeat' first
    | (with_reducible exact Upd.refl _)
    | with_reducible assumption
    | (extract_lets +onlyGivenNames z; refine Upd.cutU (z := z) ?_ (fun hz => ?_); subst z; rotate_left; clear_value z; all_goals have z := trivial)
    | (extract_lets +onlyGivenNames z; refine Upd.cutU (z := z.1) ?_ (fun hz => ?_); subst z; rotate_left; clear_value z; all_goals have z := trivial)
    | (extract_lets +onlyGivenNames z; refine NextUpd.cutU (z := z) ?_ (fun hz => ?_); subst z; rotate_left; clear_value z; all_goals have z := trivial)
    | (extract_lets +onlyGivenNames z; refine NextUpd.cutU (z := z.1) ?_ (fun hz => ?_); subst z; rotate_left; clear_value z; all_goals have z := trivial)
    | (extract_lets +onlyGivenNames z; clear_value z; have z := trivial)
    | (with_reducible apply NextUpd.next)
    | (with_reducible apply NextUpd.ite)
    | (with_reducible apply Upd.ite)
    | (with_reducible apply State.answer_upd; decide)
    | (with_reducible apply State.stepTime_upd; decide)
    | (with_reducible apply Upd.fst; assumption)
    | simp (disch := first | decide | rfl | (apply And.intro <;> first | decide | rfl | (apply And.intro <;> rfl))) only [Upd.mk1_iff, Upd.egr_iff, Upd.brg_iff, Upd.mgt_iff, Upd.out_iff]
    | split

theorem State.slewTo_upd (s : State) (v : Nat) {W P : Nat} {r_ : State} (hm : (subMask 0x1000000 W && subMask 0x0 P) = true) (k_ : Upd W P r_ s) :
    Upd W P r_ (State.slewTo s v) := by
  refine Upd.via (w := 0x1000000) (p := 0x0) ?_ hm k_
  clear hm k_
  unfold State.slewTo
  repeat' first
    | (with_reducible exact Upd.refl _)
    | with_reducible assumption
    | (extract_lets +onlyGivenNames z; refine Upd.cutU (z := z) ?_ (fun hz => ?_); subst z; rotate_left; clear_value z; all_goals have z := trivial)
    | (extract_lets +onlyGivenNames z; refine Upd.cutU (z := z.1) ?_ (fun hz => ?_); subst z; rotate_left; clear_value z; all_goals have z := trivial)
    | (extract_lets +onlyGivenNames z; clear_value z; have z := trivial)
    | (with_reducible apply Upd.ite)
    | (with_reducible apply Upd.set; decide)
    | (with_reducible apply Upd.fst; assumption)
    | simp (disch := decide) only [Upd.mk1_iff]
    | split

theorem State.slewBy_upd (s : State) (d : Int) {W P : Nat} {r_ : State} (hm : (subMask 0x1000000 W && subMask 0x0 P) = true) (k_ : Upd W P r_ s) :
    Upd W P r_ (State.slewBy s d) := by
  refine Upd.via (w := 0x1000000) (p := 0x0) ?_ hm k_
  clear hm k_
  unfold State.slewBy
  repeat' first
    | (with_reducible exact Upd.refl _)
    | with_reducible assumption
    | (extract_lets +onlyGivenNames z; refine Upd.cutU (z := z) ?_ (fun hz => ?_); subst z; rotate_left; clear_value z; all_goals have z := trivial)
    | (extract_lets +onlyGivenNames z; refine Upd.cutU (z := z.1) ?_ (fun hz => ?_); subst z; rotate_left; clear_value z; all_goals have z := trivial)
    | (extract_lets +onlyGivenNames z; clear_value z; have z := trivial)
    | (with_reducible apply Upd.ite)
    | (with_reducible apply Upd.set; decide)
    | (with_reducible apply Upd.fst; assumption)
    | simp (disch := decide) only [Upd.mk1_iff]
    | split

theorem execTbSlew_upd (v : Nat) (src : Src) (s : State) {W P : Nat} (hm : (subMask 0x100000000001000001 W && subMask 0x140c03 P) = true) :
    NextUpd W P s (execTbSlew v src s) := by
  refine NextUpd.mono (w := 0x100000000001000001) (p := 0x140c03) ?_ hm
  unfold execTbSlew
  repeat' first
    | (with_reducible exact Upd.refl _)
    | with_reducible assumption
    | (extract_lets +onlyGivenNames z; refine Upd.cutU (z := z) ?_ (fun hz => ?_); subst z; rotate_left; clear_value z; all_goals have z := trivial)
    | (extract_lets +onlyGivenNames z; refine Upd.cutU (z := z.1) ?_ (fun hz => ?_); subst z; rotate_left; clear_value z; all_goals have z := trivial)
    | (extract_lets +onlyGivenNames z; refine NextUpd.cutU (z := z) ?_ (fun hz => ?_); subst z; rotate_left; clear_value z; all_goals have z := trivial)
    | (extract_lets +onlyGivenNames z; refine NextUpd.cutU (z := z.1) ?_ (fun hz => ?_); subst z; rotate_left; clear_value z; all_goals have z := trivial)
    | (extract_lets +onlyGivenNames z; clear_value z; have z := trivial)
    | (with_reducible apply NextUpd.next)
    | (with_reducible apply NextUpd.ite)
    | (with_reducible apply Upd.ite)
    | (with_reducible apply State.answer_upd; decide)
    | (with_reducible apply State.slewTo_upd; decide)
    | (with_reducible apply Upd.fst; assumption)
    | simp (disch := first | decide | rfl | (apply And.intro <;> first | decide | rfl | (apply And.intro <;> rfl))) only [Upd.mk1_iff, Upd.egr_iff, Upd.brg_iff, Upd.mgt_iff, Upd.out_iff]
    | split

theorem execSlewDone_upd (s : State) {W P : Nat} (hm : (subMask 0x1000000 W && subMask 0x0 P) = true) :
    NextUpd W P s (execSlewDone s) := by
  refine NextUpd.mono (w := 0x1000000) (p := 0x0) ?_ hm
  unfold execSlewDone
  repeat' first
    | (with_reducible exact Upd.refl _)
    | with_reducible assumption
    | (extract_lets +onlyGivenNames z; refine Upd.cutU (z := z) ?_ (fun hz => ?_); subst z; rotate_left; clear_value z; all_goals have z := trivial)
    | (extract_lets +onlyGivenNames z; refine Upd.cutU (z := z.1) ?_ (fun hz => ?_); subst z; rotate_left; clear_value z; all_goals have z := trivial)
    | (extract_lets +onlyGivenNames z; refine NextUpd.cutU (z := z) ?_ (fun hz => ?_); subst z; rotate_left; clear_value z; all_goals have z := trivial)
    | (extract_lets +onlyGivenNames z; refine NextUpd.cutU (z := z.1) ?_ (fun hz => ?_); subst z; rotate_left; clear_value z; all_goals have z := trivial)
    | (extract_lets +onlyGivenNames z; clear_value z; have z := trivial)
    | (with_reducible apply NextUpd.next)
    | (with_reducible apply NextUpd.ite)
    | (with_reducible apply Upd.ite)
    | (with_reducible apply Upd.set; decide)
    | (with_reducible apply Upd.fst; assumption)
    | simp (disch := decide) only [Upd.mk1_iff]
    | split

theorem State.rtcTick_upd (s : State) {W P : Nat} {r_ : State} (hm : (subMask 0x4 W && subMask 0x0 P) = true) (k_ : Upd W P r_ s) :
    Upd W P r_ (State.rtcTick s) := by
  refine Upd.via (w := 0x4) (p := 0x0) ?_ hm k_
  clear hm k_
  unfold State.rtcTick
  repeat' first
    | (with_reducible exact Upd.refl _)
    | with_reducible assumption
    | (extract_lets +onlyGivenNames z; refine Upd.cutU (z := z) ?_ (fun hz => ?_); subst z; rotate_left; clear_value z; all_goals have z := trivial)
    | (extract_lets +onlyGivenNames z; refine Upd.cutU (z := z.1) ?_ (fun hz => ?_); subst z; rotate_left; clear_value z; all_goals have z := trivial)
    | (extract_lets +onlyGivenNames z; clear_value z; have z := trivial)
    | (with_reducible apply Upd.ite)
    | (with_reducible apply Upd.bump; decide)
    | (with_reducible apply Upd.set; decide)
    | (with_reducible apply Upd.fst; assumption)
    | simp (disch := decide) only [Upd.mk1_iff]
    | split

theorem State.timeTick_upd (s : State) {W P : Nat} {r_ : State} (hm : (subMask 0x1000000 W && subMask 0x0 P) = true) (k_ : Upd W P r_ s) :
    Upd W P r_ (State.timeTick s) := by
  refine Upd.via (w := 0x1000000) (p := 0x0) ?_ hm k_
  clear hm k_
  unfold State.timeTick
  repeat' first
    | (with_reducible exact Upd.refl _)
    | with_reducible assumption
    | (extract_lets +onlyGivenNames z; refine Upd.cutU (z := z) ?_ (fun hz => ?_); subst z; rotate_left; clear_value z; all_goals have z := trivial)
    | (extract_lets +onlyGivenNames z; refine Upd.cutU (z := z.1) ?_ (fun hz => ?_); subst z; rotate_left; clear_value z; all_goals have z := trivial)
    | (extract_lets +onlyGivenNames z; clear_value z; have z := trivial)
    | (with_reducible apply Upd.ite)
    | (with_reducible apply Upd.inc; decide)
    | (with_reducible apply Upd.set; decide)
    | (with_reducible apply Upd.fst; assumption)
    | simp (disch := decide) only [Upd.mk1_iff]
    | split

theorem State.tick_upd (s : State) {W P : Nat} {r_ : State} (hm : (subMask 0x1000004 W && subMask 0x0 P) = true) (k_ : Upd W P r_ s) :
    Upd W P r_ (State.tick s) := by
  refine Upd.via (w := 0x1000004) (p := 0x0) ?_ hm k_
  clear hm k_
  unfold State.tick
  repeat' first
    | (with_reducible exact Upd.refl _)
    | with_reducible assumption
    | (extract_lets +onlyGivenNames z; refine Upd.cutU (z := z) ?_ (fun hz => ?_); subst z; rotate_left; clear_value z; all_goals have z := trivial)
    | (extract_lets +onlyGivenNames z; refine Upd.cutU (z := z.1) ?_ (fun hz => ?_); subst z; rotate_left; clear_value z; all_goals have z := trivial)
    | (extract_lets +onlyGivenNames z; clear_value z; have z := trivial)
    | (with_reducible apply Upd.ite)
    | (with_reducible apply Upd.bump; decide)
    | (with_reducible apply State.rtcTick_upd; decide)
    | (with_reducible apply State.timeTick_upd; decide)
    | (with_reducible apply Upd.fst; assumption)
    | simp (disch := decide) only [Upd.mk1_iff]
    | split

theorem execPtpRxStamp_upd (transport : Nat) (domain : Nat) (msgType : Nat) (seqId : Nat) (stamp : Nat) (s : State) {W P : Nat} (hm : (subMask 0x0 W && subMask 0x100000 P) = true) :
    NextUpd W P s (execPtpRxStamp transport domain msgType seqId stamp s) := by
  refine NextUpd.mono (w := 0x0) (p := 0x100000) ?_ hm
  unfold execPtpRxStamp
  repeat' first
    | (with_reducible exact Upd.refl _)
    | with_reducible assumption
    | (extract_lets +onlyGivenNames z; refine Upd.cutU (z := z) ?_ (fun hz => ?_); subst z; rotate_left; clear_value z; all_goals have z := trivial)
    | (extract_lets +onlyGivenNames z; refine Upd.cutU (z := z.1) ?_ (fun hz => ?_); subst z; rotate_left; clear_value z; all_goals have z := trivial)
    | (extract_lets +onlyGivenNames z; refine NextUpd.cutU (z := z) ?_ (fun hz => ?_); subst z; rotate_left; clear_value z; all_goals have z := trivial)
    | (extract_lets +onlyGivenNames z; refine NextUpd.cutU (z := z.1) ?_ (fun hz => ?_); subst z; rotate_left; clear_value z; all_goals have z := trivial)
    | (extract_lets +onlyGivenNames z; clear_value z; have z := trivial)
    | (with_reducible apply NextUpd.next)
    | (with_reducible apply NextUpd.ite)
    | (with_reducible apply Upd.ite)
    | (with_reducible apply State.emit_upd; decide)
    | (with_reducible apply Upd.fst; assumption)
    | simp (disch := decide) only [Upd.mk1_iff, Upd.out_iff]
    | split

theorem State.ptpTxStamp_upd (s : State) (st : PtpStamp) {W P : Nat} {r_ : State} (hm : (subMask 0x1000001 W && subMask 0x100022 P) = true) (k_ : Upd W P r_ s) :
    Upd W P r_ (State.ptpTxStamp s st) := by
  refine Upd.via (w := 0x1000001) (p := 0x100022) ?_ hm k_
  clear hm k_
  unfold State.ptpTxStamp
  split
  · next h =>
    refine Upd.syn_ (by decide) (fun _ => ?_) (Upd.refl s)
    rw [List.length_append]; exact h
  · exact Upd.sticky (by decide) (by decide) (by decide) (Upd.inc (by decide) (Upd.refl s))

theorem State.ptpPop_upd (s : State) {W P : Nat} {r_ : State} (hm : (subMask 0x0 W && subMask 0x20 P) = true) (k_ : Upd W P r_ s) :
    Upd W P r_ (State.ptpPop s) := by
  refine Upd.via (w := 0x0) (p := 0x20) ?_ hm k_
  clear hm k_
  unfold State.ptpPop
  refine Upd.syn_ (by decide) (fun h => ?_) (Upd.refl s)
  rw [List.length_drop]; exact Nat.le_trans (Nat.sub_le _ _) h

theorem execPtpTxtsPop_upd (src : Src) (s : State) {W P : Nat} (hm : (subMask 0x100000000000000001 W && subMask 0x140c23 P) = true) :
    NextUpd W P s (execPtpTxtsPop src s) := by
  refine NextUpd.mono (w := 0x100000000000000001) (p := 0x140c23) ?_ hm
  unfold execPtpTxtsPop
  repeat' first
    | (with_reducible exact Upd.refl _)
    | with_reducible assumption
    | (extract_lets +onlyGivenNames z; refine Upd.cutU (z := z) ?_ (fun hz => ?_); subst z; rotate_left; clear_value z; all_goals have z := trivial)
    | (extract_lets +onlyGivenNames z; refine Upd.cutU (z := z.1) ?_ (fun hz => ?_); subst z; rotate_left; clear_value z; all_goals have z := trivial)
    | (extract_lets +onlyGivenNames z; refine NextUpd.cutU (z := z) ?_ (fun hz => ?_); subst z; rotate_left; clear_value z; all_goals have z := trivial)
    | (extract_lets +onlyGivenNames z; refine NextUpd.cutU (z := z.1) ?_ (fun hz => ?_); subst z; rotate_left; clear_value z; all_goals have z := trivial)
    | (extract_lets +onlyGivenNames z; clear_value z; have z := trivial)
    | (with_reducible apply NextUpd.next)
    | (with_reducible apply NextUpd.ite)
    | (with_reducible apply Upd.ite)
    | (with_reducible apply State.answer_upd; decide)
    | (with_reducible apply State.ptpPop_upd; decide)
    | (with_reducible apply Upd.fst; assumption)
    | simp (disch := first | decide | rfl | (apply And.intro <;> first | decide | rfl | (apply And.intro <;> rfl))) only [Upd.mk1_iff, Upd.syn_iff, Upd.egr_iff, Upd.brg_iff, Upd.mgt_iff, Upd.out_iff]
    | split

theorem State.dropOldFires_upd (s : State) (c : Nat) (x0 : List Fire) {W P : Nat} {r_ : State} (hm : (subMask 0x1000001 W && subMask 0x100022 P) = true) (k_ : Upd W P r_ s) :
    Upd W P r_ (State.dropOldFires s c x0) := by
  refine Upd.via (w := 0x1000001) (p := 0x100022) ?_ hm k_
  clear hm k_
  induction x0 generalizing s c with
  | nil =>
    unfold State.dropOldFires
    repeat' first
      | (with_reducible exact Upd.refl _)
      | with_reducible assumption
      | (extract_lets +onlyGivenNames z; refine Upd.cutU (z := z) ?_ (fun hz => ?_); subst z; rotate_left; clear_value z; all_goals have z := trivial)
      | (extract_lets +onlyGivenNames z; refine Upd.cutU (z := z.1) ?_ (fun hz => ?_); subst z; rotate_left; clear_value z; all_goals have z := trivial)
      | (extract_lets +onlyGivenNames z; clear_value z; have z := trivial)
      | (with_reducible apply Upd.ite)
      | (with_reducible apply State.orphan_upd; decide)
      | (with_reducible apply State.setFires_upd; decide)
      | (with_reducible apply Upd.fst; assumption)
      | simp (disch := first | decide | rfl | (apply And.intro <;> first | decide | rfl | (apply And.intro <;> rfl))) only [Upd.mk1_iff, Upd.syn_iff, Upd.out_iff]
      | split
  | cons x l ih =>
    unfold State.dropOldFires
    repeat' first
      | (with_reducible exact Upd.refl _)
      | with_reducible assumption
      | (extract_lets +onlyGivenNames z; refine Upd.cutU (z := z) ?_ (fun hz => ?_); subst z; rotate_left; clear_value z; all_goals have z := trivial)
      | (extract_lets +onlyGivenNames z; refine Upd.cutU (z := z.1) ?_ (fun hz => ?_); subst z; rotate_left; clear_value z; all_goals have z := trivial)
      | (extract_lets +onlyGivenNames z; clear_value z; have z := trivial)
      | (with_reducible refine Upd.trans ?_ (ih ..))
      | (with_reducible apply Upd.ite)
      | (with_reducible apply State.orphan_upd; decide)
      | (with_reducible apply State.setFires_upd; decide)
      | (with_reducible apply Upd.fst; assumption)
      | simp (disch := first | decide | rfl | (apply And.intro <;> first | decide | rfl | (apply And.intro <;> rfl))) only [Upd.mk1_iff, Upd.syn_iff, Upd.out_iff]
      | split

theorem State.fsMatch_upd (s : State) (c : Nat) {W P : Nat} {r_ : State} (hm : (subMask 0x1000001 W && subMask 0x100022 P) = true) (k_ : Upd W P r_ s) :
    Upd W P r_ (State.fsMatch s c).1 := by
  refine Upd.via (w := 0x1000001) (p := 0x100022) ?_ hm k_
  clear hm k_
  unfold State.fsMatch
  repeat' first
    | (with_reducible exact Upd.refl _)
    | with_reducible assumption
    | (extract_lets +onlyGivenNames z; refine Upd.cutU (z := z) ?_ (fun hz => ?_); subst z; rotate_left; clear_value z; all_goals have z := trivial)
    | (extract_lets +onlyGivenNames z; refine Upd.cutU (z := z.1) ?_ (fun hz => ?_); subst z; rotate_left; clear_value z; all_goals have z := trivial)
    | (extract_lets +onlyGivenNames z; clear_value z; have z := trivial)
    | (with_reducible apply Upd.ite)
    | (with_reducible apply Upd.iteFst)
    | (with_reducible apply State.dropOldFires_upd; decide)
    | (with_reducible apply Upd.inc; decide)
    | (with_reducible apply State.setFires_upd; decide)
    | (with_reducible apply Upd.sticky; decide; decide; decide)
    | (with_reducible apply Upd.fst; assumption)
    | simp (disch := first | decide | rfl | (apply And.intro <;> first | decide | rfl | (apply And.intro <;> rfl))) only [Upd.mk1_iff, Upd.syn_iff, Upd.out_iff]
    | split

end Sys2Proof.Machine
end

