-- ==== Sys2Proof/Laws/UpdEgrOps.lean ====
section
/-! SUPPORT. What each operation of Machine/EgrOps.lean may change (see Laws/Upd.lean). -/

set_option linter.unusedSimpArgs false
set_option linter.tactic.unusedName false

namespace Sys2Proof.Machine

theorem State.strEvent_upd (s : State) (st : Nat) (bit : Nat) (dseq : Nat) (cause : Nat) {W P : Nat} {r_ : State} (hm : (subMask 0x20000000000000001 W && subMask 0x100002 P) = true) (k_ : Upd W P r_ s) :
    Upd W P r_ (State.strEvent s st bit dseq cause) := by
  refine Upd.via (w := 0x20000000000000001) (p := 0x100002) ?_ hm k_
  clear hm k_
  unfold State.strEvent
  repeat' first
    | (with_reducible exact Upd.refl _)
    | with_reducible assumption
    | (extract_lets +onlyGivenNames z; refine Upd.cutU (z := z) ?_ (fun hz => ?_); subst z; rotate_left; clear_value z; all_goals have z := trivial)
    | (extract_lets +onlyGivenNames z; refine Upd.cutU (z := z.1) ?_ (fun hz => ?_); subst z; rotate_left; clear_value z; all_goals have z := trivial)
    | (extract_lets +onlyGivenNames z; clear_value z; have z := trivial)
    | (with_reducible apply Upd.ite)
    | (with_reducible apply Upd.sticky; decide; decide; decide)
    | (with_reducible apply Upd.fst; assumption)
    | simp (disch := decide) only [Upd.mk1_iff, Upd.out_iff]
    | split

theorem State.frameAccepted_upd (s : State) (source : Nat) (seq : Nat) {W P : Nat} {r_ : State} (hm : (subMask 0x0 W && subMask 0x400 P) = true) (k_ : Upd W P r_ s) :
    Upd W P r_ (State.frameAccepted s source seq) := by
  refine Upd.via (w := 0x0) (p := 0x400) ?_ hm k_
  clear hm k_
  unfold State.frameAccepted
  repeat' first
    | (with_reducible exact Upd.refl _)
    | with_reducible assumption
    | (extract_lets +onlyGivenNames z; refine Upd.cutU (z := z) ?_ (fun hz => ?_); subst z; rotate_left; clear_value z; all_goals have z := trivial)
    | (extract_lets +onlyGivenNames z; refine Upd.cutU (z := z.1) ?_ (fun hz => ?_); subst z; rotate_left; clear_value z; all_goals have z := trivial)
    | (extract_lets +onlyGivenNames z; clear_value z; have z := trivial)
    | (with_reducible apply Upd.ite)
    | (with_reducible apply Upd.fst; assumption)
    | simp (disch := decide) only [Upd.mk1_iff, Upd.egr_iff]
    | split

theorem State.onStrFrame_upd (s : State) (st : Nat) (source : Nat) (fseq : Nat) (g : StrFrame → StrFrame) {W P : Nat} {r_ : State} (hm : (subMask 0x0 W && subMask 0x408 P) = true) (k_ : Upd W P r_ s) :
    Upd W P r_ (State.onStrFrame s st source fseq g) := by
  refine Upd.via (w := 0x0) (p := 0x408) ?_ hm k_
  clear hm k_
  unfold State.onStrFrame
  repeat' first
    | (with_reducible exact Upd.refl _)
    | with_reducible assumption
    | (extract_lets +onlyGivenNames z; refine Upd.cutU (z := z) ?_ (fun hz => ?_); subst z; rotate_left; clear_value z; all_goals have z := trivial)
    | (extract_lets +onlyGivenNames z; refine Upd.cutU (z := z.1) ?_ (fun hz => ?_); subst z; rotate_left; clear_value z; all_goals have z := trivial)
    | (extract_lets +onlyGivenNames z; clear_value z; have z := trivial)
    | (with_reducible apply Upd.ite)
    | (with_reducible apply Upd.fst; assumption)
    | simp (disch := decide) only [Upd.mk1_iff, Upd.frames_iff, Upd.egr_iff]
    | split

theorem State.countDropped_upd (s : State) (st : Nat) (source : Nat) (fseq : Nat) (n : Nat) {W P : Nat} {r_ : State} (hm : (subMask 0x20000000000000000 W && subMask 0x408 P) = true) (k_ : Upd W P r_ s) :
    Upd W P r_ (State.countDropped s st source fseq n) := by
  refine Upd.via (w := 0x20000000000000000) (p := 0x408) ?_ hm k_
  clear hm k_
  unfold State.countDropped
  repeat' first
    | (with_reducible exact Upd.refl _)
    | with_reducible assumption
    | (extract_lets +onlyGivenNames z; refine Upd.cutU (z := z) ?_ (fun hz => ?_); subst z; rotate_left; clear_value z; all_goals have z := trivial)
    | (extract_lets +onlyGivenNames z; refine Upd.cutU (z := z.1) ?_ (fun hz => ?_); subst z; rotate_left; clear_value z; all_goals have z := trivial)
    | (extract_lets +onlyGivenNames z; have _t : State → _ := z; clear _t; subst z; have z := trivial)
    | (extract_lets +onlyGivenNames z; have _t : _ → State := z; clear _t; subst z; have z := trivial)
    | (extract_lets +onlyGivenNames z; have _t : _ → _ → State := z; clear _t; subst z; have z := trivial)
    | (extract_lets +onlyGivenNames z; clear_value z; have z := trivial)
    | (with_reducible apply Upd.ite)
    | (with_reducible apply Upd.add; decide)
    | (with_reducible apply State.onStrFrame_upd; decide)
    | (with_reducible apply Upd.fst; assumption)
    | simp (disch := decide) only [Upd.mk1_iff, Upd.frames_iff, Upd.egr_iff]
    | split

theorem State.logDrop_upd (s : State) (r : List Nat) (dseq : Nat) (cause : Nat) {W P : Nat} {r_ : State} (hm : (subMask 0x80000000000000001 W && subMask 0x100402 P) = true) (k_ : Upd W P r_ s) :
    Upd W P r_ (State.logDrop s r dseq cause) := by
  refine Upd.via (w := 0x80000000000000001) (p := 0x100402) ?_ hm k_
  clear hm k_
  unfold State.logDrop
  repeat' first
    | (with_reducible exact Upd.refl _)
    | with_reducible assumption
    | (extract_lets +onlyGivenNames z; refine Upd.cutU (z := z) ?_ (fun hz => ?_); subst z; rotate_left; clear_value z; all_goals have z := trivial)
    | (extract_lets +onlyGivenNames z; refine Upd.cutU (z := z.1) ?_ (fun hz => ?_); subst z; rotate_left; clear_value z; all_goals have z := trivial)
    | (extract_lets +onlyGivenNames z; clear_value z; have z := trivial)
    | (with_reducible apply Upd.ite)
    | (with_reducible apply Upd.inc; decide)
    | (with_reducible apply Upd.sticky; decide; decide; decide)
    | (with_reducible apply Upd.fst; assumption)
    | simp (disch := decide) only [Upd.mk1_iff, Upd.egr_iff, Upd.out_iff]
    | split

theorem State.drop_upd (s : State) (st : Nat) (source : Nat) (seq : Nat) (dseq : Nat) (cause : Nat) (row : Nat) (col : Nat) (bytes : Nat) (whole : Bool) {W P : Nat} {r_ : State} (hm : (subMask 0xa0000000000000001 W && subMask 0x10040a P) = true) (k_ : Upd W P r_ s) :
    Upd W P r_ (State.drop s st source seq dseq cause row col bytes whole) := by
  refine Upd.via (w := 0xa0000000000000001) (p := 0x10040a) ?_ hm k_
  clear hm k_
  unfold State.drop
  repeat' first
    | (with_reducible exact Upd.refl _)
    | with_reducible assumption
    | (extract_lets +onlyGivenNames z; refine Upd.cutU (z := z) ?_ (fun hz => ?_); subst z; rotate_left; clear_value z; all_goals have z := trivial)
    | (extract_lets +onlyGivenNames z; refine Upd.cutU (z := z.1) ?_ (fun hz => ?_); subst z; rotate_left; clear_value z; all_goals have z := trivial)
    | (extract_lets +onlyGivenNames z; clear_value z; have z := trivial)
    | (with_reducible apply Upd.ite)
    | (with_reducible apply State.countDropped_upd; decide)
    | (with_reducible apply Upd.inc; decide)
    | (with_reducible apply State.logDrop_upd; decide)
    | (with_reducible apply State.strEvent_upd; decide)
    | (with_reducible apply Upd.fst; assumption)
    | simp (disch := decide) only [Upd.mk1_iff, Upd.frames_iff, Upd.egr_iff, Upd.out_iff]
    | split

theorem State.offer_upd (s : State) (o : Offer) {W P : Nat} {r_ : State} (hm : (subMask 0x0 W && subMask 0x400 P) = true) (k_ : Upd W P r_ s) :
    Upd W P r_ (State.offer s o) := by
  refine Upd.via (w := 0x0) (p := 0x400) ?_ hm k_
  clear hm k_
  unfold State.offer
  repeat' first
    | (with_reducible exact Upd.refl _)
    | with_reducible assumption
    | (extract_lets +onlyGivenNames z; refine Upd.cutU (z := z) ?_ (fun hz => ?_); subst z; rotate_left; clear_value z; all_goals have z := trivial)
    | (extract_lets +onlyGivenNames z; refine Upd.cutU (z := z.1) ?_ (fun hz => ?_); subst z; rotate_left; clear_value z; all_goals have z := trivial)
    | (extract_lets +onlyGivenNames z; clear_value z; have z := trivial)
    | (with_reducible apply Upd.ite)
    | (with_reducible apply Upd.fst; assumption)
    | simp (disch := decide) only [Upd.mk1_iff, Upd.egr_iff]
    | split

theorem State.imageWrite_upd (s : State) (d : Delivery) (off : Nat) (l : List Nat) {W P : Nat} {r_ : State} (hm : (subMask 0x100000000000000000001 W && subMask 0x500003 P) = true) (k_ : Upd W P r_ s) :
    Upd W P r_ (State.imageWrite s d off l) := by
  refine Upd.via (w := 0x100000000000000000001) (p := 0x500003) ?_ hm k_
  clear hm k_
  unfold State.imageWrite
  repeat' first
    | (with_reducible exact Upd.refl _)
    | with_reducible assumption
    | (extract_lets +onlyGivenNames z; refine Upd.cutU (z := z) ?_ (fun hz => ?_); subst z; rotate_left; clear_value z; all_goals have z := trivial)
    | (extract_lets +onlyGivenNames z; refine Upd.cutU (z := z.1) ?_ (fun hz => ?_); subst z; rotate_left; clear_value z; all_goals have z := trivial)
    | (extract_lets +onlyGivenNames z; clear_value z; have z := trivial)
    | (with_reducible apply Upd.ite)
    | (with_reducible apply State.extWrite_upd; decide)
    | (with_reducible apply Upd.fst; assumption)
    | simp (disch := decide) only [Upd.mk1_iff, Upd.out_iff, Upd.bad_iff]
    | split

theorem State.onDelivery_upd (s : State) (st : Nat) (dseq : Nat) (g : Delivery → Delivery) {W P : Nat} {r_ : State} (hm : (subMask 0x0 W && subMask 0x400 P) = true) (k_ : Upd W P r_ s) :
    Upd W P r_ (State.onDelivery s st dseq g) := by
  refine Upd.via (w := 0x0) (p := 0x400) ?_ hm k_
  clear hm k_
  unfold State.onDelivery
  repeat' first
    | (with_reducible exact Upd.refl _)
    | with_reducible assumption
    | (extract_lets +onlyGivenNames z; refine Upd.cutU (z := z) ?_ (fun hz => ?_); subst z; rotate_left; clear_value z; all_goals have z := trivial)
    | (extract_lets +onlyGivenNames z; refine Upd.cutU (z := z.1) ?_ (fun hz => ?_); subst z; rotate_left; clear_value z; all_goals have z := trivial)
    | (extract_lets +onlyGivenNames z; clear_value z; have z := trivial)
    | (with_reducible apply Upd.ite)
    | (with_reducible apply Upd.fst; assumption)
    | simp (disch := decide) only [Upd.mk1_iff, Upd.egr_iff]
    | split

theorem State.roiFlow_upd (s : State) (base : Nat) (f : Frame) (i : Nat) {W P : Nat} {r_ : State} (hm : (subMask 0x100000000000000000001 W && subMask 0x500443 P) = true) (k_ : Upd W P r_ s) :
    Upd W P r_ (State.roiFlow s base f i) := by
  refine Upd.via (w := 0x100000000000000000001) (p := 0x500443) ?_ hm k_
  clear hm k_
  unfold State.roiFlow
  repeat' first
    | (with_reducible apply Upd.foldl; intro _ _)
    | (with_reducible apply Upd.foldlFst; intro _ _)
    | (with_reducible exact Upd.refl _)
    | with_reducible assumption
    | (extract_lets +onlyGivenNames z; refine Upd.cutU (z := z) ?_ (fun hz => ?_); subst z; rotate_left; clear_value z; all_goals have z := trivial)
    | (extract_lets +onlyGivenNames z; refine Upd.cutU (z := z.1) ?_ (fun hz => ?_); subst z; rotate_left; clear_value z; all_goals have z := trivial)
    | (extract_lets +onlyGivenNames z; have _t : State → _ := z; clear _t; subst z; have z := trivial)
    | (extract_lets +onlyGivenNames z; have _t : _ → State := z; clear _t; subst z; have z := trivial)
    | (extract_lets +onlyGivenNames z; have _t : _ → _ → State := z; clear _t; subst z; have z := trivial)
    | (extract_lets +onlyGivenNames z; clear_value z; have z := trivial)
    | (with_reducible apply Upd.ite)
    | (with_reducible apply State.imageWrite_upd; decide)
    | (with_reducible apply State.onDelivery_upd; decide)
    | (with_reducible apply Upd.fst; assumption)
    | simp (disch := decide) only [Upd.mk1_iff, Upd.pipe_iff, Upd.egr_iff, Upd.out_iff, Upd.bad_iff, Upd.pipe_egr_iff]
    | split

theorem State.roiFlows_upd (s : State) (base : Nat) (f : Frame) {W P : Nat} {r_ : State} (hm : (subMask 0x100000000000000000001 W && subMask 0x500443 P) = true) (k_ : Upd W P r_ s) :
    Upd W P r_ (State.roiFlows s base f) := by
  refine Upd.via (w := 0x100000000000000000001) (p := 0x500443) ?_ hm k_
  clear hm k_
  unfold State.roiFlows
  repeat' first
    | (with_reducible apply Upd.foldl; intro _ _)
    | (with_reducible apply Upd.foldlFst; intro _ _)
    | (with_reducible exact Upd.refl _)
    | with_reducible assumption
    | (extract_lets +onlyGivenNames z; refine Upd.cutU (z := z) ?_ (fun hz => ?_); subst z; rotate_left; clear_value z; all_goals have z := trivial)
    | (extract_lets +onlyGivenNames z; refine Upd.cutU (z := z.1) ?_ (fun hz => ?_); subst z; rotate_left; clear_value z; all_goals have z := trivial)
    | (extract_lets +onlyGivenNames z; clear_value z; have z := trivial)
    | (with_reducible apply Upd.ite)
    | (with_reducible apply State.roiFlow_upd; decide)
    | (with_reducible apply Upd.fst; assumption)
    | simp (disch := decide) only [Upd.mk1_iff, Upd.pipe_iff, Upd.egr_iff, Upd.out_iff, Upd.bad_iff]
    | split

theorem State.roiClose_upd (s : State) (base : Nat) (f : Frame) (i : Nat) {W P : Nat} {r_ : State} (hm : (subMask 0x0 W && subMask 0x440 P) = true) (k_ : Upd W P r_ s) :
    Upd W P r_ (State.roiClose s base f i) := by
  refine Upd.via (w := 0x0) (p := 0x440) ?_ hm k_
  clear hm k_
  unfold State.roiClose
  repeat' first
    | (with_reducible exact Upd.refl _)
    | with_reducible assumption
    | (extract_lets +onlyGivenNames z; refine Upd.cutU (z := z) ?_ (fun hz => ?_); subst z; rotate_left; clear_value z; all_goals have z := trivial)
    | (extract_lets +onlyGivenNames z; refine Upd.cutU (z := z.1) ?_ (fun hz => ?_); subst z; rotate_left; clear_value z; all_goals have z := trivial)
    | (extract_lets +onlyGivenNames z; clear_value z; have z := trivial)
    | (with_reducible apply Upd.ite)
    | (with_reducible apply Upd.fst; assumption)
    | simp (disch := decide) only [Upd.mk1_iff, Upd.pipe_iff, Upd.egr_iff, Upd.pipe_egr_iff]
    | split

theorem State.roiOffers_upd (s : State) (f : Frame) {W P : Nat} {r_ : State} (hm : (subMask 0x0 W && subMask 0x440 P) = true) (k_ : Upd W P r_ s) :
    Upd W P r_ (State.roiOffers s f) := by
  refine Upd.via (w := 0x0) (p := 0x440) ?_ hm k_
  clear hm k_
  unfold State.roiOffers
  repeat' first
    | (with_reducible apply Upd.foldl; intro _ _)
    | (with_reducible apply Upd.foldlFst; intro _ _)
    | (with_reducible exact Upd.refl _)
    | with_reducible assumption
    | (extract_lets +onlyGivenNames z; refine Upd.cutU (z := z) ?_ (fun hz => ?_); subst z; rotate_left; clear_value z; all_goals have z := trivial)
    | (extract_lets +onlyGivenNames z; refine Upd.cutU (z := z.1) ?_ (fun hz => ?_); subst z; rotate_left; clear_value z; all_goals have z := trivial)
    | (extract_lets +onlyGivenNames z; clear_value z; have z := trivial)
    | (with_reducible apply Upd.ite)
    | (with_reducible apply State.roiClose_upd; decide)
    | (with_reducible apply Upd.fst; assumption)
    | simp (disch := decide) only [Upd.mk1_iff, Upd.pipe_iff, Upd.egr_iff, Upd.pipe_egr_iff]
    | split

theorem State.lateError_upd (s : State) (q : Nat) (st : Nat) (dseq : Nat) (psn : Nat) (cause : Nat) {W P : Nat} {r_ : State} (hm : (subMask 0x80000000000000001 W && subMask 0x100402 P) = true) (k_ : Upd W P r_ s) :
    Upd W P r_ (State.lateError s q st dseq psn cause) := by
  refine Upd.via (w := 0x80000000000000001) (p := 0x100402) ?_ hm k_
  clear hm k_
  unfold State.lateError
  repeat' first
    | (with_reducible exact Upd.refl _)
    | with_reducible assumption
    | (extract_lets +onlyGivenNames z; refine Upd.cutU (z := z) ?_ (fun hz => ?_); subst z; rotate_left; clear_value z; all_goals have z := trivial)
    | (extract_lets +onlyGivenNames z; refine Upd.cutU (z := z.1) ?_ (fun hz => ?_); subst z; rotate_left; clear_value z; all_goals have z := trivial)
    | (extract_lets +onlyGivenNames z; clear_value z; have z := trivial)
    | (with_reducible apply Upd.ite)
    | (with_reducible apply Upd.inc; decide)
    | (with_reducible apply Upd.set; decide)
    | (with_reducible apply Upd.sticky; decide; decide; decide)
    | (with_reducible apply Upd.fst; assumption)
    | simp (disch := decide) only [Upd.mk1_iff, Upd.egr_iff, Upd.out_iff]
    | split

theorem State.countLost_upd (s : State) (d : Delivery) {W P : Nat} {r_ : State} (hm : (subMask 0x20000000000000000 W && subMask 0x408 P) = true) (k_ : Upd W P r_ s) :
    Upd W P r_ (State.countLost s d) := by
  refine Upd.via (w := 0x20000000000000000) (p := 0x408) ?_ hm k_
  clear hm k_
  unfold State.countLost
  repeat' first
    | (with_reducible exact Upd.refl _)
    | with_reducible assumption
    | (extract_lets +onlyGivenNames z; refine Upd.cutU (z := z) ?_ (fun hz => ?_); subst z; rotate_left; clear_value z; all_goals have z := trivial)
    | (extract_lets +onlyGivenNames z; refine Upd.cutU (z := z.1) ?_ (fun hz => ?_); subst z; rotate_left; clear_value z; all_goals have z := trivial)
    | (extract_lets +onlyGivenNames z; clear_value z; have z := trivial)
    | (with_reducible apply Upd.ite)
    | (with_reducible apply State.countDropped_upd; decide)
    | (with_reducible apply State.onStrFrame_upd; decide)
    | (with_reducible apply Upd.fst; assumption)
    | simp (disch := decide) only [Upd.mk1_iff, Upd.frames_iff, Upd.egr_iff]
    | split

theorem State.unqueue_upd (s : State) (d : Delivery) {W P : Nat} {r_ : State} (hm : (subMask 0x0 W && subMask 0x400 P) = true) (k_ : Upd W P r_ s) :
    Upd W P r_ (State.unqueue s d) := by
  refine Upd.via (w := 0x0) (p := 0x400) ?_ hm k_
  clear hm k_
  unfold State.unqueue
  repeat' first
    | (with_reducible exact Upd.refl _)
    | with_reducible assumption
    | (extract_lets +onlyGivenNames z; refine Upd.cutU (z := z) ?_ (fun hz => ?_); subst z; rotate_left; clear_value z; all_goals have z := trivial)
    | (extract_lets +onlyGivenNames z; refine Upd.cutU (z := z.1) ?_ (fun hz => ?_); subst z; rotate_left; clear_value z; all_goals have z := trivial)
    | (extract_lets +onlyGivenNames z; clear_value z; have z := trivial)
    | (with_reducible apply Upd.ite)
    | (with_reducible apply Upd.fst; assumption)
    | simp (disch := decide) only [Upd.mk1_iff, Upd.egr_iff]
    | split

theorem State.cutDelivery_upd (s : State) (d : Delivery) (psn : Nat) (cause : Nat) {W P : Nat} {r_ : State} (hm : (subMask 0xa0000000000000021 W && subMask 0x10040a P) = true) (k_ : Upd W P r_ s) :
    Upd W P r_ (State.cutDelivery s d psn cause) := by
  refine Upd.via (w := 0xa0000000000000021) (p := 0x10040a) ?_ hm k_
  clear hm k_
  unfold State.cutDelivery
  repeat' first
    | (with_reducible exact Upd.refl _)
    | with_reducible assumption
    | (extract_lets +onlyGivenNames z; refine Upd.cutU (z := z) ?_ (fun hz => ?_); subst z; rotate_left; clear_value z; all_goals have z := trivial)
    | (extract_lets +onlyGivenNames z; refine Upd.cutU (z := z.1) ?_ (fun hz => ?_); subst z; rotate_left; clear_value z; all_goals have z := trivial)
    | (extract_lets +onlyGivenNames z; clear_value z; have z := trivial)
    | (with_reducible apply Upd.ite)
    | (with_reducible apply State.countLost_upd; decide)
    | (with_reducible apply State.lateError_upd; decide)
    | (with_reducible apply State.onStrFrame_upd; decide)
    | (with_reducible apply State.unqueue_upd; decide)
    | (with_reducible apply Upd.fst; assumption)
    | simp (disch := decide) only [Upd.mk1_iff, Upd.frames_iff, Upd.egr_iff, Upd.out_iff]
    | split

theorem State.refuseQueued_upd (s : State) (d : Delivery) (cause : Nat) {W P : Nat} {r_ : State} (hm : (subMask 0xa0000000000000021 W && subMask 0x10040a P) = true) (k_ : Upd W P r_ s) :
    Upd W P r_ (State.refuseQueued s d cause) := by
  refine Upd.via (w := 0xa0000000000000021) (p := 0x10040a) ?_ hm k_
  clear hm k_
  unfold State.refuseQueued
  repeat' first
    | (with_reducible exact Upd.refl _)
    | with_reducible assumption
    | (extract_lets +onlyGivenNames z; refine Upd.cutU (z := z) ?_ (fun hz => ?_); subst z; rotate_left; clear_value z; all_goals have z := trivial)
    | (extract_lets +onlyGivenNames z; refine Upd.cutU (z := z.1) ?_ (fun hz => ?_); subst z; rotate_left; clear_value z; all_goals have z := trivial)
    | (extract_lets +onlyGivenNames z; clear_value z; have z := trivial)
    | (with_reducible apply Upd.ite)
    | (with_reducible apply State.countLost_upd; decide)
    | (with_reducible apply State.drop_upd; decide)
    | (with_reducible apply Upd.inc; decide)
    | (with_reducible apply State.onStrFrame_upd; decide)
    | (with_reducible apply State.unqueue_upd; decide)
    | (with_reducible apply Upd.fst; assumption)
    | simp (disch := decide) only [Upd.mk1_iff, Upd.frames_iff, Upd.egr_iff, Upd.out_iff]
    | split

theorem State.refuseHeads_upd (s : State) (st : Nat) (x0 : Nat) {W P : Nat} {r_ : State} (hm : (subMask 0xa0000000000000021 W && subMask 0x10040a P) = true) (k_ : Upd W P r_ s) :
    Upd W P r_ (State.refuseHeads s st x0) := by
  refine Upd.via (w := 0xa0000000000000021) (p := 0x10040a) ?_ hm k_
  clear hm k_
  induction x0 generalizing s with
  | zero => exact Upd.refl s
  | succ n ih =>
    unfold State.refuseHeads
    split
    · split
      · exact (State.refuseQueued_upd _ _ _ (by decide) (Upd.refl s)).trans (ih _)
      · exact Upd.refl s
    · exact Upd.refl s

theorem State.nextHead_upd (s : State) (st : Nat) {W P : Nat} {r_ : State} (hm : (subMask 0xa0000000000000021 W && subMask 0x10040a P) = true) (k_ : Upd W P r_ s) :
    Upd W P r_ (State.nextHead s st) := by
  refine Upd.via (w := 0xa0000000000000021) (p := 0x10040a) ?_ hm k_
  clear hm k_
  unfold State.nextHead
  repeat' first
    | (with_reducible exact Upd.refl _)
    | with_reducible assumption
    | (extract_lets +onlyGivenNames z; refine Upd.cutU (z := z) ?_ (fun hz => ?_); subst z; rotate_left; clear_value z; all_goals have z := trivial)
    | (extract_lets +onlyGivenNames z; refine Upd.cutU (z := z.1) ?_ (fun hz => ?_); subst z; rotate_left; clear_value z; all_goals have z := trivial)
    | (extract_lets +onlyGivenNames z; clear_value z; have z := trivial)
    | (with_reducible apply Upd.ite)
    | (with_reducible apply State.refuseHeads_upd; decide)
    | (with_reducible apply Upd.fst; assumption)
    | simp (disch := decide) only [Upd.mk1_iff, Upd.frames_iff, Upd.egr_iff, Upd.out_iff]
    | split

theorem State.qpStop_upd (s : State) (q : Nat) (cause : Nat) {W P : Nat} {r_ : State} (hm : (subMask 0x1a0000000000000021 W && subMask 0x100c0a P) = true) (k_ : Upd W P r_ s) :
    Upd W P r_ (State.qpStop s q cause) := by
  refine Upd.via (w := 0x1a0000000000000021) (p := 0x100c0a) ?_ hm k_
  clear hm k_
  unfold State.qpStop
  repeat' first
    | (with_reducible apply Upd.foldl; intro _ _)
    | (with_reducible apply Upd.foldlFst; intro _ _)
    | (with_reducible exact Upd.refl _)
    | with_reducible assumption
    | (extract_lets +onlyGivenNames z; refine Upd.cutU (z := z) ?_ (fun hz => ?_); subst z; rotate_left; clear_value z; all_goals have z := trivial)
    | (extract_lets +onlyGivenNames z; refine Upd.cutU (z := z.1) ?_ (fun hz => ?_); subst z; rotate_left; clear_value z; all_goals have z := trivial)
    | (extract_lets +onlyGivenNames z; have _t : State → _ := z; clear _t; subst z; have z := trivial)
    | (extract_lets +onlyGivenNames z; have _t : _ → State := z; clear _t; subst z; have z := trivial)
    | (extract_lets +onlyGivenNames z; have _t : _ → _ → State := z; clear _t; subst z; have z := trivial)
    | (extract_lets +onlyGivenNames z; clear_value z; have z := trivial)
    | (with_reducible apply Upd.ite)
    | (with_reducible apply State.brgQpGone_upd; decide)
    | (with_reducible apply State.cutDelivery_upd; decide)
    | (with_reducible apply State.nextHead_upd; decide)
    | (with_reducible apply State.refuseQueued_upd; decide)
    | (with_reducible apply Upd.fst; assumption)
    | simp (disch := decide) only [Upd.mk1_iff, Upd.frames_iff, Upd.egr_iff, Upd.brg_iff, Upd.out_iff]
    | split

theorem State.qpError_upd (s : State) (q : Nat) (cause : Nat) {W P : Nat} {r_ : State} (hm : (subMask 0x1e0000000000000021 W && subMask 0x100c0a P) = true) (k_ : Upd W P r_ s) :
    Upd W P r_ (State.qpError s q cause) := by
  refine Upd.via (w := 0x1e0000000000000021) (p := 0x100c0a) ?_ hm k_
  clear hm k_
  unfold State.qpError
  repeat' first
    | (with_reducible exact Upd.refl _)
    | with_reducible assumption
    | (extract_lets +onlyGivenNames z; refine Upd.cutU (z := z) ?_ (fun hz => ?_); subst z; rotate_left; clear_value z; all_goals have z := trivial)
    | (extract_lets +onlyGivenNames z; refine Upd.cutU (z := z.1) ?_ (fun hz => ?_); subst z; rotate_left; clear_value z; all_goals have z := trivial)
    | (extract_lets +onlyGivenNames z; clear_value z; have z := trivial)
    | (with_reducible apply Upd.ite)
    | (with_reducible apply State.event_upd; decide)
    | (with_reducible apply State.qpStop_upd; decide)
    | (with_reducible apply Upd.set; decide)
    | (with_reducible apply Upd.fst; assumption)
    | simp (disch := decide) only [Upd.mk1_iff, Upd.frames_iff, Upd.egr_iff, Upd.brg_iff, Upd.out_iff]
    | split

theorem State.qpResend_upd (s : State) (q : Nat) (psn : Nat) {W P : Nat} {r_ : State} (hm : (subMask 0x0 W && subMask 0x400 P) = true) (k_ : Upd W P r_ s) :
    Upd W P r_ (State.qpResend s q psn) := by
  refine Upd.via (w := 0x0) (p := 0x400) ?_ hm k_
  clear hm k_
  unfold State.qpResend
  repeat' first
    | (with_reducible exact Upd.refl _)
    | with_reducible assumption
    | (extract_lets +onlyGivenNames z; refine Upd.cutU (z := z) ?_ (fun hz => ?_); subst z; rotate_left; clear_value z; all_goals have z := trivial)
    | (extract_lets +onlyGivenNames z; refine Upd.cutU (z := z.1) ?_ (fun hz => ?_); subst z; rotate_left; clear_value z; all_goals have z := trivial)
    | (extract_lets +onlyGivenNames z; clear_value z; have z := trivial)
    | (with_reducible apply Upd.ite)
    | (with_reducible apply Upd.fst; assumption)
    | simp (disch := decide) only [Upd.mk1_iff, Upd.egr_iff]
    | split

theorem State.qpRetry_upd (s : State) (q : Nat) (psn : Nat) {W P : Nat} {r_ : State} (hm : (subMask 0x1e0000000000000021 W && subMask 0x100c0a P) = true) (k_ : Upd W P r_ s) :
    Upd W P r_ (State.qpRetry s q psn) := by
  refine Upd.via (w := 0x1e0000000000000021) (p := 0x100c0a) ?_ hm k_
  clear hm k_
  unfold State.qpRetry
  repeat' first
    | (with_reducible exact Upd.refl _)
    | with_reducible assumption
    | (extract_lets +onlyGivenNames z; refine Upd.cutU (z := z) ?_ (fun hz => ?_); subst z; rotate_left; clear_value z; all_goals have z := trivial)
    | (extract_lets +onlyGivenNames z; refine Upd.cutU (z := z.1) ?_ (fun hz => ?_); subst z; rotate_left; clear_value z; all_goals have z := trivial)
    | (extract_lets +onlyGivenNames z; clear_value z; have z := trivial)
    | (with_reducible apply Upd.ite)
    | (with_reducible apply Upd.inc; decide)
    | (with_reducible apply State.qpError_upd; decide)
    | (with_reducible apply State.qpResend_upd; decide)
    | (with_reducible apply Upd.fst; assumption)
    | simp (disch := decide) only [Upd.mk1_iff, Upd.frames_iff, Upd.egr_iff, Upd.brg_iff, Upd.out_iff]
    | split

theorem State.eofCheck_upd (s : State) {W P : Nat} {r_ : State} (hm : (subMask 0x0 W && subMask 0x400 P) = true) (k_ : Upd W P r_ s) :
    Upd W P r_ (State.eofCheck s) := by
  refine Upd.via (w := 0x0) (p := 0x400) ?_ hm k_
  clear hm k_
  unfold State.eofCheck
  repeat' first
    | (with_reducible exact Upd.refl _)
    | with_reducible assumption
    | (extract_lets +onlyGivenNames z; refine Upd.cutU (z := z) ?_ (fun hz => ?_); subst z; rotate_left; clear_value z; all_goals have z := trivial)
    | (extract_lets +onlyGivenNames z; refine Upd.cutU (z := z.1) ?_ (fun hz => ?_); subst z; rotate_left; clear_value z; all_goals have z := trivial)
    | (extract_lets +onlyGivenNames z; have _t : State → _ := z; clear _t; subst z; have z := trivial)
    | (extract_lets +onlyGivenNames z; have _t : _ → State := z; clear _t; subst z; have z := trivial)
    | (extract_lets +onlyGivenNames z; have _t : _ → _ → State := z; clear _t; subst z; have z := trivial)
    | (extract_lets +onlyGivenNames z; clear_value z; have z := trivial)
    | (with_reducible apply Upd.ite)
    | (with_reducible apply Upd.fst; assumption)
    | simp (disch := decide) only [Upd.mk1_iff, Upd.egr_iff]
    | split

end Sys2Proof.Machine
end

