-- ==== Sys2Proof/Laws/UpdRefOps.lean ====
section
/-! SUPPORT. What each operation of Machine/RefOps.lean may change (see Laws/Upd.lean). -/

set_option linter.unusedSimpArgs false
set_option linter.tactic.unusedName false

namespace Sys2Proof.Machine

theorem State.cmpSettle_upd (s : State) (k : Nat) {W P : Nat} {r_ : State} (hm : (subMask 0x10000000000000 W && subMask 0x0 P) = true) (k_ : Upd W P r_ s) :
    Upd W P r_ (State.cmpSettle s k) := by
  refine Upd.via (w := 0x10000000000000) (p := 0x0) ?_ hm k_
  clear hm k_
  unfold State.cmpSettle
  repeat' first
    | (with_reducible apply Upd.foldl; intro _ _)
    | (with_reducible apply Upd.foldlFst; intro _ _)
    | (with_reducible exact Upd.refl _)
    | with_reducible assumption
    | (extract_lets +onlyGivenNames z; refine Upd.cutU (z := z) ?_ (fun hz => ?_); subst z; rotate_left; clear_value z; all_goals have z := trivial)
    | (extract_lets +onlyGivenNames z; refine Upd.cutU (z := z.1) ?_ (fun hz => ?_); subst z; rotate_left; clear_value z; all_goals have z := trivial)
    | (extract_lets +onlyGivenNames z; clear_value z; have z := trivial)
    | (with_reducible apply Upd.ite)
    | (with_reducible apply Upd.set; decide)
    | (with_reducible apply Upd.fst; assumption)
    | simp (disch := decide) only [Upd.mk1_iff]
    | split

theorem State.cmpLand_upd (s : State) (k : Nat) (b : Nat) (pos : Nat) {W P : Nat} {r_ : State} (hm : (subMask 0x10000000000000 W && subMask 0x100 P) = true) (k_ : Upd W P r_ s) :
    Upd W P r_ (State.cmpLand s k b pos) := by
  refine Upd.via (w := 0x10000000000000) (p := 0x100) ?_ hm k_
  clear hm k_
  unfold State.cmpLand
  repeat' first
    | (with_reducible exact Upd.refl _)
    | with_reducible assumption
    | (extract_lets +onlyGivenNames z; refine Upd.cutU (z := z) ?_ (fun hz => ?_); subst z; rotate_left; clear_value z; all_goals have z := trivial)
    | (extract_lets +onlyGivenNames z; refine Upd.cutU (z := z.1) ?_ (fun hz => ?_); subst z; rotate_left; clear_value z; all_goals have z := trivial)
    | (extract_lets +onlyGivenNames z; clear_value z; have z := trivial)
    | (with_reducible apply Upd.ite)
    | (with_reducible apply State.cmpSettle_upd; decide)
    | (with_reducible apply Upd.set; decide)
    | (with_reducible apply Upd.fst; assumption)
    | simp (disch := decide) only [Upd.mk1_iff, Upd.ref_iff]
    | split

theorem State.refEvent_upd (s : State) (k : Nat) (bit : Nat) (seq : Nat) (a : Nat) (t : Nat) {W P : Nat} {r_ : State} (hm : (subMask 0x10000000000001 W && subMask 0x100002 P) = true) (k_ : Upd W P r_ s) :
    Upd W P r_ (State.refEvent s k bit seq a t) := by
  refine Upd.via (w := 0x10000000000001) (p := 0x100002) ?_ hm k_
  clear hm k_
  unfold State.refEvent
  repeat' first
    | (with_reducible exact Upd.refl _)
    | with_reducible assumption
    | (extract_lets +onlyGivenNames z; refine Upd.cutU (z := z) ?_ (fun hz => ?_); subst z; rotate_left; clear_value z; all_goals have z := trivial)
    | (extract_lets +onlyGivenNames z; refine Upd.cutU (z := z.1) ?_ (fun hz => ?_); subst z; rotate_left; clear_value z; all_goals have z := trivial)
    | (extract_lets +onlyGivenNames z; clear_value z; have z := trivial)
    | (with_reducible apply Upd.ite)
    | (with_reducible apply Upd.sticky; decide; decide; decide)
    | (with_reducible apply Upd.fst; assumption)
    | simp (disch := decide) only [Upd.mk1_iff, Upd.out_iff]
    | split

theorem State.refOpen_upd (s : State) (k : Nat) (seq : Nat) (job : Nat) (tag : Tag) {W P : Nat} {r_ : State} (hm : (subMask 0xa0010000000000001 W && subMask 0x10050a P) = true) (k_ : Upd W P r_ s) :
    Upd W P r_ (State.refOpen s k seq job tag) := by
  refine Upd.via (w := 0xa0010000000000001) (p := 0x10050a) ?_ hm k_
  clear hm k_
  unfold State.refOpen
  repeat' first
    | (with_reducible apply Upd.foldl; intro _ _)
    | (with_reducible apply Upd.foldlFst; intro _ _)
    | (with_reducible exact Upd.refl _)
    | with_reducible assumption
    | (extract_lets +onlyGivenNames z; refine Upd.cutU (z := z) ?_ (fun hz => ?_); subst z; rotate_left; clear_value z; all_goals have z := trivial)
    | (extract_lets +onlyGivenNames z; refine Upd.cutU (z := z.1) ?_ (fun hz => ?_); subst z; rotate_left; clear_value z; all_goals have z := trivial)
    | (extract_lets +onlyGivenNames z; clear_value z; have z := trivial)
    | (with_reducible apply Upd.ite)
    | (with_reducible apply State.cmpLand_upd; decide)
    | (with_reducible apply State.drop_upd; decide)
    | (with_reducible apply Upd.inc; decide)
    | (with_reducible apply State.refEvent_upd; decide)
    | (with_reducible apply Upd.fst; assumption)
    | simp (disch := decide) only [Upd.mk1_iff, Upd.frames_iff, Upd.ref_iff, Upd.egr_iff, Upd.out_iff]
    | split

theorem State.onRefFrame_upd (s : State) (k : Nat) (seq : Nat) (g : RefFrame → RefFrame) {W P : Nat} {r_ : State} (hm : (subMask 0x0 W && subMask 0x108 P) = true) (k_ : Upd W P r_ s) :
    Upd W P r_ (State.onRefFrame s k seq g) := by
  refine Upd.via (w := 0x0) (p := 0x108) ?_ hm k_
  clear hm k_
  unfold State.onRefFrame
  repeat' first
    | (with_reducible exact Upd.refl _)
    | with_reducible assumption
    | (extract_lets +onlyGivenNames z; refine Upd.cutU (z := z) ?_ (fun hz => ?_); subst z; rotate_left; clear_value z; all_goals have z := trivial)
    | (extract_lets +onlyGivenNames z; refine Upd.cutU (z := z.1) ?_ (fun hz => ?_); subst z; rotate_left; clear_value z; all_goals have z := trivial)
    | (extract_lets +onlyGivenNames z; clear_value z; have z := trivial)
    | (with_reducible apply Upd.ite)
    | (with_reducible apply Upd.fst; assumption)
    | simp (disch := decide) only [Upd.mk1_iff, Upd.frames_iff, Upd.ref_iff]
    | split

theorem State.refTag_upd (s : State) (k : Nat) (seq : Nat) (tag : Tag) {W P : Nat} {r_ : State} (hm : (subMask 0x0 W && subMask 0x108 P) = true) (k_ : Upd W P r_ s) :
    Upd W P r_ (State.refTag s k seq tag) := by
  refine Upd.via (w := 0x0) (p := 0x108) ?_ hm k_
  clear hm k_
  unfold State.refTag
  repeat' first
    | (with_reducible exact Upd.refl _)
    | with_reducible assumption
    | (extract_lets +onlyGivenNames z; refine Upd.cutU (z := z) ?_ (fun hz => ?_); subst z; rotate_left; clear_value z; all_goals have z := trivial)
    | (extract_lets +onlyGivenNames z; refine Upd.cutU (z := z.1) ?_ (fun hz => ?_); subst z; rotate_left; clear_value z; all_goals have z := trivial)
    | (extract_lets +onlyGivenNames z; clear_value z; have z := trivial)
    | (with_reducible apply Upd.ite)
    | (with_reducible apply State.onRefFrame_upd; decide)
    | (with_reducible apply Upd.fst; assumption)
    | simp (disch := decide) only [Upd.mk1_iff, Upd.frames_iff, Upd.ref_iff]
    | split

theorem State.refEnd_upd (s : State) (k : Nat) (seq : Nat) {W P : Nat} {r_ : State} (hm : (subMask 0x10000000000000 W && subMask 0x108 P) = true) (k_ : Upd W P r_ s) :
    Upd W P r_ (State.refEnd s k seq) := by
  refine Upd.via (w := 0x10000000000000) (p := 0x108) ?_ hm k_
  clear hm k_
  unfold State.refEnd
  repeat' first
    | (with_reducible exact Upd.refl _)
    | with_reducible assumption
    | (extract_lets +onlyGivenNames z; refine Upd.cutU (z := z) ?_ (fun hz => ?_); subst z; rotate_left; clear_value z; all_goals have z := trivial)
    | (extract_lets +onlyGivenNames z; refine Upd.cutU (z := z.1) ?_ (fun hz => ?_); subst z; rotate_left; clear_value z; all_goals have z := trivial)
    | (extract_lets +onlyGivenNames z; clear_value z; have z := trivial)
    | (with_reducible apply Upd.ite)
    | (with_reducible apply State.cmpSettle_upd; decide)
    | (with_reducible apply Upd.fst; assumption)
    | simp (disch := decide) only [Upd.mk1_iff, Upd.frames_iff, Upd.ref_iff]
    | split

theorem State.refTile_upd (s : State) (t : RefTile) {W P : Nat} {r_ : State} (hm : (subMask 0x0 W && subMask 0x108 P) = true) (k_ : Upd W P r_ s) :
    Upd W P r_ (State.refTile s t) := by
  refine Upd.via (w := 0x0) (p := 0x108) ?_ hm k_
  clear hm k_
  unfold State.refTile
  repeat' first
    | (with_reducible exact Upd.refl _)
    | with_reducible assumption
    | (extract_lets +onlyGivenNames z; refine Upd.cutU (z := z) ?_ (fun hz => ?_); subst z; rotate_left; clear_value z; all_goals have z := trivial)
    | (extract_lets +onlyGivenNames z; refine Upd.cutU (z := z.1) ?_ (fun hz => ?_); subst z; rotate_left; clear_value z; all_goals have z := trivial)
    | (extract_lets +onlyGivenNames z; clear_value z; have z := trivial)
    | (with_reducible apply Upd.ite)
    | (with_reducible apply State.onRefFrame_upd; decide)
    | (with_reducible apply Upd.fst; assumption)
    | simp (disch := decide) only [Upd.mk1_iff, Upd.frames_iff, Upd.ref_iff]
    | split

theorem State.markAdopt_upd (s : State) (m : Nat) (p : Nat) {W P : Nat} {r_ : State} (hm : (subMask 0x10000000000001 W && subMask 0x100102 P) = true) (k_ : Upd W P r_ s) :
    Upd W P r_ (State.markAdopt s m p) := by
  refine Upd.via (w := 0x10000000000001) (p := 0x100102) ?_ hm k_
  clear hm k_
  unfold State.markAdopt
  repeat' first
    | (with_reducible apply Upd.foldl; intro _ _)
    | (with_reducible apply Upd.foldlFst; intro _ _)
    | (with_reducible exact Upd.refl _)
    | with_reducible assumption
    | (extract_lets +onlyGivenNames z; refine Upd.cutU (z := z) ?_ (fun hz => ?_); subst z; rotate_left; clear_value z; all_goals have z := trivial)
    | (extract_lets +onlyGivenNames z; refine Upd.cutU (z := z.1) ?_ (fun hz => ?_); subst z; rotate_left; clear_value z; all_goals have z := trivial)
    | (extract_lets +onlyGivenNames z; have _t : State → _ := z; clear _t; subst z; have z := trivial)
    | (extract_lets +onlyGivenNames z; have _t : _ → State := z; clear _t; subst z; have z := trivial)
    | (extract_lets +onlyGivenNames z; have _t : _ → _ → State := z; clear _t; subst z; have z := trivial)
    | (extract_lets +onlyGivenNames z; clear_value z; have z := trivial)
    | (with_reducible apply Upd.ite)
    | (with_reducible apply Upd.inc; decide)
    | (with_reducible apply State.refEvent_upd; decide)
    | (with_reducible apply Upd.set; decide)
    | (with_reducible apply Upd.fst; assumption)
    | simp (disch := decide) only [Upd.mk1_iff, Upd.ref_iff, Upd.out_iff]
    | split

end Sys2Proof.Machine
end

