-- ==== Sys2Proof/Laws/UpdAlign.lean ====
section
/-! SUPPORT. What each operation of Machine/Align.lean may change (see Laws/Upd.lean). -/

set_option linter.unusedSimpArgs false
set_option linter.tactic.unusedName false

namespace Sys2Proof.Machine

theorem State.refRead_upd (s : State) (slot : Nat) (bx : Nat) (by' : Nat) {W P : Nat} {r_ : State} (hm : (subMask 0x100000000000000000001 W && subMask 0x100002 P) = true) (k_ : Upd W P r_ s) :
    Upd W P r_ (State.refRead s slot bx by').1 := by
  refine Upd.via (w := 0x100000000000000000001) (p := 0x100002) ?_ hm k_
  clear hm k_
  unfold State.refRead
  repeat' first
    | (with_reducible exact Upd.refl _)
    | with_reducible assumption
    | (extract_lets +onlyGivenNames z; refine Upd.cutU (z := z) ?_ (fun hz => ?_); subst z; rotate_left; clear_value z; all_goals have z := trivial)
    | (extract_lets +onlyGivenNames z; refine Upd.cutU (z := z.1) ?_ (fun hz => ?_); subst z; rotate_left; clear_value z; all_goals have z := trivial)
    | (extract_lets +onlyGivenNames z; clear_value z; have z := trivial)
    | (with_reducible apply Upd.ite)
    | (with_reducible apply Upd.iteFst)
    | (with_reducible apply State.dramRead_upd; decide)
    | (with_reducible apply Upd.fst; assumption)
    | simp (disch := decide) only [Upd.mk1_iff, Upd.out_iff]
    | split

end Sys2Proof.Machine
end

