-- ==== Sys2Proof/Laws/UpdFabOps.lean ====
section
/-! SUPPORT. What each operation of Machine/FabOps.lean may change (see Laws/Upd.lean). -/

set_option linter.unusedSimpArgs false
set_option linter.tactic.unusedName false

namespace Sys2Proof.Machine

theorem State.portPayload_upd (s : State) (p : Nat) {W P : Nat} {r_ : State} (hm : (subMask 0x10000 W && subMask 0x0 P) = true) (k_ : Upd W P r_ s) :
    Upd W P r_ (State.portPayload s p) := by
  refine Upd.via (w := 0x10000) (p := 0x0) ?_ hm k_
  clear hm k_
  unfold State.portPayload
  repeat' first
    | (with_reducible exact Upd.refl _)
    | with_reducible assumption
    | (extract_lets +onlyGivenNames z; refine Upd.cutU (z := z) ?_ (fun hz => ?_); subst z; rotate_left; clear_value z; all_goals have z := trivial)
    | (extract_lets +onlyGivenNames z; refine Upd.cutU (z := z.1) ?_ (fun hz => ?_); subst z; rotate_left; clear_value z; all_goals have z := trivial)
    | (extract_lets +onlyGivenNames z; clear_value z; have z := trivial)
    | (with_reducible apply Upd.ite)
    | (with_reducible apply State.lanePayload_upd; decide)
    | (with_reducible apply Upd.fst; assumption)
    | simp (disch := decide) only [Upd.mk1_iff]
    | split

theorem State.setPort_upd (s : State) (p : Nat) (x : FabPort) {W P : Nat} {r_ : State} (hm : (subMask 0x0 W && subMask 0x8000 P) = true) (k_ : Upd W P r_ s) :
    Upd W P r_ (State.setPort s p x) := by
  refine Upd.via (w := 0x0) (p := 0x8000) ?_ hm k_
  clear hm k_
  unfold State.setPort
  repeat' first
    | (with_reducible exact Upd.refl _)
    | with_reducible assumption
    | (extract_lets +onlyGivenNames z; refine Upd.cutU (z := z) ?_ (fun hz => ?_); subst z; rotate_left; clear_value z; all_goals have z := trivial)
    | (extract_lets +onlyGivenNames z; refine Upd.cutU (z := z.1) ?_ (fun hz => ?_); subst z; rotate_left; clear_value z; all_goals have z := trivial)
    | (extract_lets +onlyGivenNames z; clear_value z; have z := trivial)
    | (with_reducible apply Upd.ite)
    | (with_reducible apply Upd.fst; assumption)
    | simp (disch := decide) only [Upd.mk1_iff, Upd.fab_iff]
    | split

theorem State.fabEvent_upd (s : State) (k : Nat) (inst : Nat) (uid : Nat) (node : Nat) (cause : Nat) {W P : Nat} {r_ : State} (hm : (subMask 0x1000000000000000001 W && subMask 0x100002 P) = true) (k_ : Upd W P r_ s) :
    Upd W P r_ (State.fabEvent s k inst uid node cause) := by
  refine Upd.via (w := 0x1000000000000000001) (p := 0x100002) ?_ hm k_
  clear hm k_
  unfold State.fabEvent
  repeat' first
    | (with_reducible exact Upd.refl _)
    | with_reducible assumption
    | (extract_lets +onlyGivenNames z; refine Upd.cutU (z := z) ?_ (fun hz => ?_); subst z; rotate_left; clear_value z; all_goals have z := trivial)
    | (extract_lets +onlyGivenNames z; refine Upd.cutU (z := z.1) ?_ (fun hz => ?_); subst z; rotate_left; clear_value z; all_goals have z := trivial)
    | (extract_lets +onlyGivenNames z; clear_value z; have z := trivial)
    | (with_reducible apply Upd.ite)
    | (with_reducible apply Upd.sticky; decide; decide; decide)
    | (with_reducible apply Upd.fst; assumption)
    | simp (disch := decide) only [Upd.mk1_iff, Upd.out_iff]
    | split

theorem State.sendCredit_upd (s : State) (p : Nat) (cls : Nat) (n : Nat) {W P : Nat} {r_ : State} (hm : (subMask 0x0 W && subMask 0x100000 P) = true) (k_ : Upd W P r_ s) :
    Upd W P r_ (State.sendCredit s p cls n) := by
  refine Upd.via (w := 0x0) (p := 0x100000) ?_ hm k_
  clear hm k_
  unfold State.sendCredit
  repeat' first
    | (with_reducible exact Upd.refl _)
    | with_reducible assumption
    | (extract_lets +onlyGivenNames z; refine Upd.cutU (z := z) ?_ (fun hz => ?_); subst z; rotate_left; clear_value z; all_goals have z := trivial)
    | (extract_lets +onlyGivenNames z; refine Upd.cutU (z := z.1) ?_ (fun hz => ?_); subst z; rotate_left; clear_value z; all_goals have z := trivial)
    | (extract_lets +onlyGivenNames z; clear_value z; have z := trivial)
    | (with_reducible apply Upd.ite)
    | (with_reducible apply State.emit_upd; decide)
    | (with_reducible apply Upd.fst; assumption)
    | simp (disch := decide) only [Upd.mk1_iff, Upd.out_iff]
    | split

theorem State.releasePkt_upd (s : State) (k : FabPkt) {W P : Nat} {r_ : State} (hm : (subMask 0x0 W && subMask 0x100000 P) = true) (k_ : Upd W P r_ s) :
    Upd W P r_ (State.releasePkt s k) := by
  refine Upd.via (w := 0x0) (p := 0x100000) ?_ hm k_
  clear hm k_
  unfold State.releasePkt
  repeat' first
    | (with_reducible exact Upd.refl _)
    | with_reducible assumption
    | (extract_lets +onlyGivenNames z; refine Upd.cutU (z := z) ?_ (fun hz => ?_); subst z; rotate_left; clear_value z; all_goals have z := trivial)
    | (extract_lets +onlyGivenNames z; refine Upd.cutU (z := z.1) ?_ (fun hz => ?_); subst z; rotate_left; clear_value z; all_goals have z := trivial)
    | (extract_lets +onlyGivenNames z; clear_value z; have z := trivial)
    | (with_reducible apply Upd.ite)
    | (with_reducible apply State.sendCredit_upd; decide)
    | (with_reducible apply Upd.fst; assumption)
    | simp (disch := decide) only [Upd.mk1_iff, Upd.out_iff]
    | split

theorem State.advertise_upd (s : State) (p : Nat) {W P : Nat} {r_ : State} (hm : (subMask 0x0 W && subMask 0x100000 P) = true) (k_ : Upd W P r_ s) :
    Upd W P r_ (State.advertise s p) := by
  refine Upd.via (w := 0x0) (p := 0x100000) ?_ hm k_
  clear hm k_
  unfold State.advertise
  repeat' first
    | (with_reducible apply Upd.foldl; intro _ _)
    | (with_reducible apply Upd.foldlFst; intro _ _)
    | (with_reducible exact Upd.refl _)
    | with_reducible assumption
    | (extract_lets +onlyGivenNames z; refine Upd.cutU (z := z) ?_ (fun hz => ?_); subst z; rotate_left; clear_value z; all_goals have z := trivial)
    | (extract_lets +onlyGivenNames z; refine Upd.cutU (z := z.1) ?_ (fun hz => ?_); subst z; rotate_left; clear_value z; all_goals have z := trivial)
    | (extract_lets +onlyGivenNames z; clear_value z; have z := trivial)
    | (with_reducible apply Upd.ite)
    | (with_reducible apply State.sendCredit_upd; decide)
    | (with_reducible apply Upd.fst; assumption)
    | simp (disch := decide) only [Upd.mk1_iff, Upd.out_iff]
    | split

theorem State.fabQueue_upd (s : State) (p : Nat) (k : FabPkt) {W P : Nat} {r_ : State} (hm : (subMask 0x0 W && subMask 0x8000 P) = true) (k_ : Upd W P r_ s) :
    Upd W P r_ (State.fabQueue s p k) := by
  refine Upd.via (w := 0x0) (p := 0x8000) ?_ hm k_
  clear hm k_
  unfold State.fabQueue
  repeat' first
    | (with_reducible exact Upd.refl _)
    | with_reducible assumption
    | (extract_lets +onlyGivenNames z; refine Upd.cutU (z := z) ?_ (fun hz => ?_); subst z; rotate_left; clear_value z; all_goals have z := trivial)
    | (extract_lets +onlyGivenNames z; refine Upd.cutU (z := z.1) ?_ (fun hz => ?_); subst z; rotate_left; clear_value z; all_goals have z := trivial)
    | (extract_lets +onlyGivenNames z; clear_value z; have z := trivial)
    | (with_reducible apply Upd.ite)
    | (with_reducible apply State.setPort_upd; decide)
    | (with_reducible apply Upd.fst; assumption)
    | simp (disch := decide) only [Upd.mk1_iff, Upd.fab_iff]
    | split

theorem State.reqDone_upd (s : State) (tag : Nat) (st : Status) (data : List Nat) {W P : Nat} {r_ : State} (hm : (subMask 0x0 W && subMask 0x8000 P) = true) (k_ : Upd W P r_ s) :
    Upd W P r_ (State.reqDone s tag st data) := by
  refine Upd.via (w := 0x0) (p := 0x8000) ?_ hm k_
  clear hm k_
  unfold State.reqDone
  repeat' first
    | (with_reducible exact Upd.refl _)
    | with_reducible assumption
    | (extract_lets +onlyGivenNames z; refine Upd.cutU (z := z) ?_ (fun hz => ?_); subst z; rotate_left; clear_value z; all_goals have z := trivial)
    | (extract_lets +onlyGivenNames z; refine Upd.cutU (z := z.1) ?_ (fun hz => ?_); subst z; rotate_left; clear_value z; all_goals have z := trivial)
    | (extract_lets +onlyGivenNames z; clear_value z; have z := trivial)
    | (with_reducible apply Upd.ite)
    | (with_reducible apply Upd.fst; assumption)
    | simp (disch := decide) only [Upd.mk1_iff, Upd.fab_iff]
    | split

theorem State.lateEnter_upd (s : State) (e : List Nat) {W P : Nat} {r_ : State} (hm : (subMask 0x1000000000000000001 W && subMask 0x108002 P) = true) (k_ : Upd W P r_ s) :
    Upd W P r_ (State.lateEnter s e) := by
  refine Upd.via (w := 0x1000000000000000001) (p := 0x108002) ?_ hm k_
  clear hm k_
  unfold State.lateEnter
  repeat' first
    | (with_reducible exact Upd.refl _)
    | with_reducible assumption
    | (extract_lets +onlyGivenNames z; refine Upd.cutU (z := z) ?_ (fun hz => ?_); subst z; rotate_left; clear_value z; all_goals have z := trivial)
    | (extract_lets +onlyGivenNames z; refine Upd.cutU (z := z.1) ?_ (fun hz => ?_); subst z; rotate_left; clear_value z; all_goals have z := trivial)
    | (extract_lets +onlyGivenNames z; clear_value z; have z := trivial)
    | (with_reducible apply Upd.ite)
    | (with_reducible apply State.fabEvent_upd; decide)
    | (with_reducible apply Upd.inc; decide)
    | (with_reducible apply State.reqDone_upd; decide)
    | (with_reducible apply Upd.set; decide)
    | (with_reducible apply Upd.fst; assumption)
    | simp (disch := decide) only [Upd.mk1_iff, Upd.fab_iff, Upd.out_iff]
    | split

theorem State.fabDiscard_upd (s : State) (k : FabPkt) (cause : Nat) (port : Nat) {W P : Nat} {r_ : State} (hm : (subMask 0x1000000000000000001 W && subMask 0x108002 P) = true) (k_ : Upd W P r_ s) :
    Upd W P r_ (State.fabDiscard s k cause port) := by
  refine Upd.via (w := 0x1000000000000000001) (p := 0x108002) ?_ hm k_
  clear hm k_
  unfold State.fabDiscard
  repeat' first
    | (with_reducible exact Upd.refl _)
    | with_reducible assumption
    | (extract_lets +onlyGivenNames z; refine Upd.cutU (z := z) ?_ (fun hz => ?_); subst z; rotate_left; clear_value z; all_goals have z := trivial)
    | (extract_lets +onlyGivenNames z; refine Upd.cutU (z := z.1) ?_ (fun hz => ?_); subst z; rotate_left; clear_value z; all_goals have z := trivial)
    | (extract_lets +onlyGivenNames z; clear_value z; have z := trivial)
    | (with_reducible apply Upd.ite)
    | (with_reducible apply State.fabQueue_upd; decide)
    | (with_reducible apply Upd.inc; decide)
    | (with_reducible apply State.lateEnter_upd; decide)
    | (with_reducible apply State.releasePkt_upd; decide)
    | (with_reducible apply Upd.fst; assumption)
    | simp (disch := decide) only [Upd.mk1_iff, Upd.fab_iff, Upd.out_iff]
    | split

theorem State.fabSend_upd (s : State) (type : Nat) (cls : Nat) (dst : Nat) (flags : Nat) (tag : Nat) (body : List Nat) {W P : Nat} {r_ : State} (hm : (subMask 0x1000000000000000001 W && subMask 0x108002 P) = true) (k_ : Upd W P r_ s) :
    Upd W P r_ (State.fabSend s type cls dst flags tag body) := by
  refine Upd.via (w := 0x1000000000000000001) (p := 0x108002) ?_ hm k_
  clear hm k_
  unfold State.fabSend
  repeat' first
    | (with_reducible exact Upd.refl _)
    | with_reducible assumption
    | (extract_lets +onlyGivenNames z; refine Upd.cutU (z := z) ?_ (fun hz => ?_); subst z; rotate_left; clear_value z; all_goals have z := trivial)
    | (extract_lets +onlyGivenNames z; refine Upd.cutU (z := z.1) ?_ (fun hz => ?_); subst z; rotate_left; clear_value z; all_goals have z := trivial)
    | (extract_lets +onlyGivenNames z; clear_value z; have z := trivial)
    | (with_reducible apply Upd.ite)
    | (with_reducible apply State.fabDiscard_upd; decide)
    | (with_reducible apply State.fabQueue_upd; decide)
    | (with_reducible apply Upd.fst; assumption)
    | simp (disch := decide) only [Upd.mk1_iff, Upd.fab_iff, Upd.out_iff]
    | split

theorem State.fabBroadcast_upd (s : State) (type : Nat) (tag : Nat) (body : List Nat) {W P : Nat} {r_ : State} (hm : (subMask 0x0 W && subMask 0x8000 P) = true) (k_ : Upd W P r_ s) :
    Upd W P r_ (State.fabBroadcast s type tag body) := by
  refine Upd.via (w := 0x0) (p := 0x8000) ?_ hm k_
  clear hm k_
  unfold State.fabBroadcast
  repeat' first
    | (with_reducible apply Upd.foldl; intro _ _)
    | (with_reducible apply Upd.foldlFst; intro _ _)
    | (with_reducible exact Upd.refl _)
    | with_reducible assumption
    | (extract_lets +onlyGivenNames z; refine Upd.cutU (z := z) ?_ (fun hz => ?_); subst z; rotate_left; clear_value z; all_goals have z := trivial)
    | (extract_lets +onlyGivenNames z; refine Upd.cutU (z := z.1) ?_ (fun hz => ?_); subst z; rotate_left; clear_value z; all_goals have z := trivial)
    | (extract_lets +onlyGivenNames z; clear_value z; have z := trivial)
    | (with_reducible apply Upd.ite)
    | (with_reducible apply State.fabQueue_upd; decide)
    | (with_reducible apply Upd.fst; assumption)
    | simp (disch := decide) only [Upd.mk1_iff, Upd.fab_iff]
    | split

theorem State.ctrlSend_upd (s : State) (node : Nat) (service : Nat) (data : List Nat) {W P : Nat} {r_ : State} (hm : (subMask 0x1000000000000000001 W && subMask 0x108002 P) = true) (k_ : Upd W P r_ s) :
    Upd W P r_ (State.ctrlSend s node service data).1 := by
  refine Upd.via (w := 0x1000000000000000001) (p := 0x108002) ?_ hm k_
  clear hm k_
  unfold State.ctrlSend
  repeat' first
    | (with_reducible exact Upd.refl _)
    | with_reducible assumption
    | (extract_lets +onlyGivenNames z; refine Upd.cutU (z := z) ?_ (fun hz => ?_); subst z; rotate_left; clear_value z; all_goals have z := trivial)
    | (extract_lets +onlyGivenNames z; refine Upd.cutU (z := z.1) ?_ (fun hz => ?_); subst z; rotate_left; clear_value z; all_goals have z := trivial)
    | (extract_lets +onlyGivenNames z; clear_value z; have z := trivial)
    | (with_reducible apply Upd.ite)
    | (with_reducible apply Upd.iteFst)
    | (with_reducible apply Upd.bump; decide)
    | (with_reducible apply State.fabDiscard_upd; decide)
    | (with_reducible apply State.fabSend_upd; decide)
    | (with_reducible apply Upd.fst; assumption)
    | simp (disch := decide) only [Upd.mk1_iff, Upd.fab_iff, Upd.out_iff]
    | split

theorem State.ctrlReply_upd (s : State) (node : Nat) (tag : Nat) (service : Nat) (st : Status) (data : List Nat) {W P : Nat} {r_ : State} (hm : (subMask 0x1000000000000000001 W && subMask 0x108002 P) = true) (k_ : Upd W P r_ s) :
    Upd W P r_ (State.ctrlReply s node tag service st data) := by
  refine Upd.via (w := 0x1000000000000000001) (p := 0x108002) ?_ hm k_
  clear hm k_
  unfold State.ctrlReply
  repeat' first
    | (with_reducible exact Upd.refl _)
    | with_reducible assumption
    | (extract_lets +onlyGivenNames z; refine Upd.cutU (z := z) ?_ (fun hz => ?_); subst z; rotate_left; clear_value z; all_goals have z := trivial)
    | (extract_lets +onlyGivenNames z; refine Upd.cutU (z := z.1) ?_ (fun hz => ?_); subst z; rotate_left; clear_value z; all_goals have z := trivial)
    | (extract_lets +onlyGivenNames z; clear_value z; have z := trivial)
    | (with_reducible apply Upd.ite)
    | (with_reducible apply State.fabSend_upd; decide)
    | (with_reducible apply Upd.fst; assumption)
    | simp (disch := decide) only [Upd.mk1_iff, Upd.fab_iff, Upd.out_iff]
    | split

theorem State.stageRoutes_upd (s : State) {W P : Nat} {r_ : State} (hm : (subMask 0x1000000000000000001 W && subMask 0x0 P) = true) (k_ : Upd W P r_ s) :
    Upd W P r_ (State.stageRoutes s) := by
  refine Upd.via (w := 0x1000000000000000001) (p := 0x0) ?_ hm k_
  clear hm k_
  unfold State.stageRoutes
  repeat' first
    | (with_reducible apply Upd.foldl; intro _ _)
    | (with_reducible apply Upd.foldlFst; intro _ _)
    | (with_reducible exact Upd.refl _)
    | with_reducible assumption
    | (extract_lets +onlyGivenNames z; refine Upd.cutU (z := z) ?_ (fun hz => ?_); subst z; rotate_left; clear_value z; all_goals have z := trivial)
    | (extract_lets +onlyGivenNames z; refine Upd.cutU (z := z.1) ?_ (fun hz => ?_); subst z; rotate_left; clear_value z; all_goals have z := trivial)
    | (extract_lets +onlyGivenNames z; clear_value z; have z := trivial)
    | (with_reducible apply Upd.ite)
    | (with_reducible apply Upd.set; decide)
    | (with_reducible apply Upd.fst; assumption)
    | simp (disch := decide) only [Upd.mk1_iff]
    | split

theorem State.lsSend_upd (s : State) {W P : Nat} {r_ : State} (hm : (subMask 0x1000000000000000000 W && subMask 0x8000 P) = true) (k_ : Upd W P r_ s) :
    Upd W P r_ (State.lsSend s) := by
  refine Upd.via (w := 0x1000000000000000000) (p := 0x8000) ?_ hm k_
  clear hm k_
  unfold State.lsSend
  repeat' first
    | (with_reducible apply Upd.foldl; intro _ _)
    | (with_reducible apply Upd.foldlFst; intro _ _)
    | (with_reducible exact Upd.refl _)
    | with_reducible assumption
    | (extract_lets +onlyGivenNames z; refine Upd.cutU (z := z) ?_ (fun hz => ?_); subst z; rotate_left; clear_value z; all_goals have z := trivial)
    | (extract_lets +onlyGivenNames z; refine Upd.cutU (z := z.1) ?_ (fun hz => ?_); subst z; rotate_left; clear_value z; all_goals have z := trivial)
    | (extract_lets +onlyGivenNames z; clear_value z; have z := trivial)
    | (with_reducible apply Upd.ite)
    | (with_reducible apply Upd.bump; decide)
    | (with_reducible apply State.fabQueue_upd; decide)
    | (with_reducible apply Upd.fst; assumption)
    | simp (disch := decide) only [Upd.mk1_iff, Upd.fab_iff]
    | split

theorem State.portChanged_upd (s : State) {W P : Nat} {r_ : State} (hm : (subMask 0x1000000000000000001 W && subMask 0x8000 P) = true) (k_ : Upd W P r_ s) :
    Upd W P r_ (State.portChanged s) := by
  refine Upd.via (w := 0x1000000000000000001) (p := 0x8000) ?_ hm k_
  clear hm k_
  unfold State.portChanged
  repeat' first
    | (with_reducible exact Upd.refl _)
    | with_reducible assumption
    | (extract_lets +onlyGivenNames z; refine Upd.cutU (z := z) ?_ (fun hz => ?_); subst z; rotate_left; clear_value z; all_goals have z := trivial)
    | (extract_lets +onlyGivenNames z; refine Upd.cutU (z := z.1) ?_ (fun hz => ?_); subst z; rotate_left; clear_value z; all_goals have z := trivial)
    | (extract_lets +onlyGivenNames z; clear_value z; have z := trivial)
    | (with_reducible apply Upd.ite)
    | (with_reducible apply State.lsSend_upd; decide)
    | (with_reducible apply State.stageRoutes_upd; decide)
    | (with_reducible apply Upd.fst; assumption)
    | simp (disch := decide) only [Upd.mk1_iff, Upd.fab_iff]
    | split

theorem State.neighbourLost_upd (s : State) (p : Nat) (st : Nat) {W P : Nat} {r_ : State} (hm : (subMask 0x1000000000000000001 W && subMask 0x108002 P) = true) (k_ : Upd W P r_ s) :
    Upd W P r_ (State.neighbourLost s p st) := by
  refine Upd.via (w := 0x1000000000000000001) (p := 0x108002) ?_ hm k_
  clear hm k_
  unfold State.neighbourLost
  repeat' first
    | (with_reducible apply Upd.foldlSet; decide)
    | ((with_reducible apply Upd.foldlPair); simp only [List.all_cons, List.all_nil]; decide)
    | (with_reducible apply Upd.foldl; intro _ _)
    | (with_reducible apply Upd.foldlFst; intro _ _)
    | (with_reducible exact Upd.refl _)
    | with_reducible assumption
    | (extract_lets +onlyGivenNames z; refine Upd.cutU (z := z) ?_ (fun hz => ?_); subst z; rotate_left; clear_value z; all_goals have z := trivial)
    | (extract_lets +onlyGivenNames z; refine Upd.cutU (z := z.1) ?_ (fun hz => ?_); subst z; rotate_left; clear_value z; all_goals have z := trivial)
    | (extract_lets +onlyGivenNames z; clear_value z; have z := trivial)
    | (with_reducible apply Upd.ite)
    | (with_reducible apply State.fabDiscard_upd; decide)
    | (with_reducible apply State.fabEvent_upd; decide)
    | (with_reducible apply State.portChanged_upd; decide)
    | (with_reducible apply Upd.set; decide)
    | (with_reducible apply Upd.fst; assumption)
    | simp (disch := decide) only [Upd.mk1_iff, Upd.fab_iff, Upd.out_iff]
    | split

theorem State.fabLaneUp_upd (s : State) (n : Nat) {W P : Nat} {r_ : State} (hm : (subMask 0x1000000000000000001 W && subMask 0x8000 P) = true) (k_ : Upd W P r_ s) :
    Upd W P r_ (State.fabLaneUp s n) := by
  refine Upd.via (w := 0x1000000000000000001) (p := 0x8000) ?_ hm k_
  clear hm k_
  unfold State.fabLaneUp
  repeat' first
    | (with_reducible exact Upd.refl _)
    | with_reducible assumption
    | (extract_lets +onlyGivenNames z; refine Upd.cutU (z := z) ?_ (fun hz => ?_); subst z; rotate_left; clear_value z; all_goals have z := trivial)
    | (extract_lets +onlyGivenNames z; refine Upd.cutU (z := z.1) ?_ (fun hz => ?_); subst z; rotate_left; clear_value z; all_goals have z := trivial)
    | (extract_lets +onlyGivenNames z; clear_value z; have z := trivial)
    | (with_reducible apply Upd.ite)
    | (with_reducible apply State.portChanged_upd; decide)
    | (with_reducible apply Upd.set; decide)
    | (with_reducible apply Upd.fst; assumption)
    | simp (disch := decide) only [Upd.mk1_iff, Upd.fab_iff]
    | split

theorem State.fabLaneDown_upd (s : State) (n : Nat) {W P : Nat} {r_ : State} (hm : (subMask 0x1000000000000000001 W && subMask 0x108002 P) = true) (k_ : Upd W P r_ s) :
    Upd W P r_ (State.fabLaneDown s n) := by
  refine Upd.via (w := 0x1000000000000000001) (p := 0x108002) ?_ hm k_
  clear hm k_
  unfold State.fabLaneDown
  repeat' first
    | (with_reducible exact Upd.refl _)
    | with_reducible assumption
    | (extract_lets +onlyGivenNames z; refine Upd.cutU (z := z) ?_ (fun hz => ?_); subst z; rotate_left; clear_value z; all_goals have z := trivial)
    | (extract_lets +onlyGivenNames z; refine Upd.cutU (z := z.1) ?_ (fun hz => ?_); subst z; rotate_left; clear_value z; all_goals have z := trivial)
    | (extract_lets +onlyGivenNames z; clear_value z; have z := trivial)
    | (with_reducible apply Upd.ite)
    | (with_reducible apply State.neighbourLost_upd; decide)
    | (with_reducible apply State.portChanged_upd; decide)
    | (with_reducible apply Upd.set; decide)
    | (with_reducible apply State.setPort_upd; decide)
    | (with_reducible apply Upd.fst; assumption)
    | simp (disch := decide) only [Upd.mk1_iff, Upd.fab_iff, Upd.out_iff]
    | split

theorem State.sendSeam_upd (s : State) (node : Nat) (data : List Nat) {W P : Nat} {r_ : State} (hm : (subMask 0x1000000000000000001 W && subMask 0x108002 P) = true) (k_ : Upd W P r_ s) :
    Upd W P r_ (State.sendSeam s node data) := by
  refine Upd.via (w := 0x1000000000000000001) (p := 0x108002) ?_ hm k_
  clear hm k_
  unfold State.sendSeam
  repeat' first
    | (with_reducible exact Upd.refl _)
    | with_reducible assumption
    | (extract_lets +onlyGivenNames z; refine Upd.cutU (z := z) ?_ (fun hz => ?_); subst z; rotate_left; clear_value z; all_goals have z := trivial)
    | (extract_lets +onlyGivenNames z; refine Upd.cutU (z := z.1) ?_ (fun hz => ?_); subst z; rotate_left; clear_value z; all_goals have z := trivial)
    | (extract_lets +onlyGivenNames z; clear_value z; have z := trivial)
    | (with_reducible apply Upd.ite)
    | (with_reducible apply State.fabDiscard_upd; decide)
    | (with_reducible apply State.fabSend_upd; decide)
    | (with_reducible apply Upd.fst; assumption)
    | simp (disch := decide) only [Upd.mk1_iff, Upd.fab_iff, Upd.out_iff]
    | split

end Sys2Proof.Machine
end

