-- ==== Sys2Proof/Laws/UpdMrgOps.lean ====
section
/-! SUPPORT. What each operation of Machine/MrgOps.lean may change (see Laws/Upd.lean). -/

set_option linter.unusedSimpArgs false
set_option linter.tactic.unusedName false

namespace Sys2Proof.Machine

theorem State.laySettle_upd (s : State) (k : Nat) {W P : Nat} {r_ : State} (hm : (subMask 0x1000000000000 W && subMask 0x0 P) = true) (k_ : Upd W P r_ s) :
    Upd W P r_ (State.laySettle s k) := by
  refine Upd.via (w := 0x1000000000000) (p := 0x0) ?_ hm k_
  clear hm k_
  unfold State.laySettle
  repeat' first
    | (with_reducible apply Upd.foldl; intro _ _)
    | (with_reducible apply Upd.foldlFst; intro _ _)
    | (with_reducible exact Upd.refl _)
    | with_reducible assumption
    | (extract_lets +onlyGivenNames z; refine Upd.cutU (z := z) ?_ (fun hz => ?_); subst z; rotate_left; clear_value z; all_goals have z := trivial)
    | (extract_lets +onlyGivenNames z; refine Upd.cutU (z := z.1) ?_ (fun hz => ?_); subst z; rotate_left; clear_value z; all_goals have z := trivial)
    | (extract_lets +onlyGivenNames z; clear_value z; have z := trivial)
    | (with_reducible apply Upd.ite)
    | (with_reducible apply Upd.set; decide)
    | (with_reducible apply Upd.fst; assumption)
    | simp (disch := decide) only [Upd.mk1_iff]
    | split

theorem State.layLand_upd (s : State) (k : Nat) (b : Nat) {W P : Nat} {r_ : State} (hm : (subMask 0x1000000000000 W && subMask 0x0 P) = true) (k_ : Upd W P r_ s) :
    Upd W P r_ (State.layLand s k b) := by
  refine Upd.via (w := 0x1000000000000) (p := 0x0) ?_ hm k_
  clear hm k_
  unfold State.layLand
  repeat' first
    | (with_reducible exact Upd.refl _)
    | with_reducible assumption
    | (extract_lets +onlyGivenNames z; refine Upd.cutU (z := z) ?_ (fun hz => ?_); subst z; rotate_left; clear_value z; all_goals have z := trivial)
    | (extract_lets +onlyGivenNames z; refine Upd.cutU (z := z.1) ?_ (fun hz => ?_); subst z; rotate_left; clear_value z; all_goals have z := trivial)
    | (extract_lets +onlyGivenNames z; clear_value z; have z := trivial)
    | (with_reducible apply Upd.ite)
    | (with_reducible apply State.laySettle_upd; decide)
    | (with_reducible apply Upd.set; decide)
    | (with_reducible apply Upd.fst; assumption)
    | simp (disch := decide) only [Upd.mk1_iff]
    | split

theorem State.onBlanket_upd (s : State) (k : Nat) (seq : Nat) (g : BFrame → BFrame) {W P : Nat} {r_ : State} (hm : (subMask 0x0 W && subMask 0x188 P) = true) (k_ : Upd W P r_ s) :
    Upd W P r_ (State.onBlanket s k seq g) := by
  refine Upd.via (w := 0x0) (p := 0x188) ?_ hm k_
  clear hm k_
  unfold State.onBlanket
  repeat' first
    | (with_reducible exact Upd.refl _)
    | with_reducible assumption
    | (extract_lets +onlyGivenNames z; refine Upd.cutU (z := z) ?_ (fun hz => ?_); subst z; rotate_left; clear_value z; all_goals have z := trivial)
    | (extract_lets +onlyGivenNames z; refine Upd.cutU (z := z.1) ?_ (fun hz => ?_); subst z; rotate_left; clear_value z; all_goals have z := trivial)
    | (extract_lets +onlyGivenNames z; clear_value z; have z := trivial)
    | (with_reducible apply Upd.ite)
    | (with_reducible apply State.refTag_upd; decide)
    | (with_reducible apply Upd.fst; assumption)
    | simp (disch := decide) only [Upd.mk1_iff, Upd.frames_iff, Upd.blankets_iff, Upd.ref_iff]
    | split

theorem State.mrgEvent_upd (s : State) (k : Nat) (bit : Nat) (seq : Nat) (m : Nat) {W P : Nat} {r_ : State} (hm : (subMask 0x1000000000001 W && subMask 0x100002 P) = true) (k_ : Upd W P r_ s) :
    Upd W P r_ (State.mrgEvent s k bit seq m) := by
  refine Upd.via (w := 0x1000000000001) (p := 0x100002) ?_ hm k_
  clear hm k_
  unfold State.mrgEvent
  repeat' first
    | (with_reducible exact Upd.refl _)
    | with_reducible assumption
    | (extract_lets +onlyGivenNames z; refine Upd.cutU (z := z) ?_ (fun hz => ?_); subst z; rotate_left; clear_value z; all_goals have z := trivial)
    | (extract_lets +onlyGivenNames z; refine Upd.cutU (z := z.1) ?_ (fun hz => ?_); subst z; rotate_left; clear_value z; all_goals have z := trivial)
    | (extract_lets +onlyGivenNames z; clear_value z; have z := trivial)
    | (with_reducible apply Upd.ite)
    | (with_reducible apply Upd.sticky; decide; decide; decide)
    | (with_reducible apply Upd.fst; assumption)
    | simp (disch := decide) only [Upd.mk1_iff, Upd.out_iff]
    | split

theorem State.memberAbsent_upd (s : State) (k : Nat) (seq : Nat) (m : Nat) {W P : Nat} {r_ : State} (hm : (subMask 0x1000000000001 W && subMask 0x10018a P) = true) (k_ : Upd W P r_ s) :
    Upd W P r_ (State.memberAbsent s k seq m) := by
  refine Upd.via (w := 0x1000000000001) (p := 0x10018a) ?_ hm k_
  clear hm k_
  unfold State.memberAbsent
  repeat' first
    | (with_reducible exact Upd.refl _)
    | with_reducible assumption
    | (extract_lets +onlyGivenNames z; refine Upd.cutU (z := z) ?_ (fun hz => ?_); subst z; rotate_left; clear_value z; all_goals have z := trivial)
    | (extract_lets +onlyGivenNames z; refine Upd.cutU (z := z.1) ?_ (fun hz => ?_); subst z; rotate_left; clear_value z; all_goals have z := trivial)
    | (extract_lets +onlyGivenNames z; clear_value z; have z := trivial)
    | (with_reducible apply Upd.ite)
    | (with_reducible apply Upd.inc; decide)
    | (with_reducible apply State.mrgEvent_upd; decide)
    | (with_reducible apply State.onBlanket_upd; decide)
    | (with_reducible apply Upd.fst; assumption)
    | simp (disch := decide) only [Upd.mk1_iff, Upd.frames_iff, Upd.blankets_iff, Upd.ref_iff, Upd.out_iff]
    | split

theorem State.blanketEnd_upd (s : State) (k : Nat) (seq : Nat) {W P : Nat} {r_ : State} (hm : (subMask 0x11000000000000 W && subMask 0x188 P) = true) (k_ : Upd W P r_ s) :
    Upd W P r_ (State.blanketEnd s k seq) := by
  refine Upd.via (w := 0x11000000000000) (p := 0x188) ?_ hm k_
  clear hm k_
  unfold State.blanketEnd
  repeat' first
    | (with_reducible exact Upd.refl _)
    | with_reducible assumption
    | (extract_lets +onlyGivenNames z; refine Upd.cutU (z := z) ?_ (fun hz => ?_); subst z; rotate_left; clear_value z; all_goals have z := trivial)
    | (extract_lets +onlyGivenNames z; refine Upd.cutU (z := z.1) ?_ (fun hz => ?_); subst z; rotate_left; clear_value z; all_goals have z := trivial)
    | (extract_lets +onlyGivenNames z; clear_value z; have z := trivial)
    | (with_reducible apply Upd.ite)
    | (with_reducible apply State.laySettle_upd; decide)
    | (with_reducible apply State.onRefFrame_upd; decide)
    | (with_reducible apply State.refEnd_upd; decide)
    | (with_reducible apply Upd.fst; assumption)
    | simp (disch := decide) only [Upd.mk1_iff, Upd.frames_iff, Upd.blankets_iff, Upd.ref_iff]
    | split

theorem State.trimRows_upd (s : State) (k : Nat) (seq : Nat) {W P : Nat} {r_ : State} (hm : (subMask 0x0 W && subMask 0x80 P) = true) (k_ : Upd W P r_ s) :
    Upd W P r_ (State.trimRows s k seq) := by
  refine Upd.via (w := 0x0) (p := 0x80) ?_ hm k_
  clear hm k_
  unfold State.trimRows
  repeat' first
    | (with_reducible exact Upd.refl _)
    | with_reducible assumption
    | (extract_lets +onlyGivenNames z; refine Upd.cutU (z := z) ?_ (fun hz => ?_); subst z; rotate_left; clear_value z; all_goals have z := trivial)
    | (extract_lets +onlyGivenNames z; refine Upd.cutU (z := z.1) ?_ (fun hz => ?_); subst z; rotate_left; clear_value z; all_goals have z := trivial)
    | (extract_lets +onlyGivenNames z; have _t : State → _ := z; clear _t; subst z; have z := trivial)
    | (extract_lets +onlyGivenNames z; have _t : _ → State := z; clear _t; subst z; have z := trivial)
    | (extract_lets +onlyGivenNames z; have _t : _ → _ → State := z; clear _t; subst z; have z := trivial)
    | (extract_lets +onlyGivenNames z; clear_value z; have z := trivial)
    | (with_reducible apply Upd.ite)
    | (with_reducible apply Upd.fst; assumption)
    | simp (disch := decide) only [Upd.mk1_iff, Upd.blankets_iff]
    | split

theorem State.emitLine_upd (s : State) (k : Nat) (seq : Nat) (c : Nat) (off : List Side) (miss : Bool) {W P : Nat} {r_ : State} (hm : (subMask 0x11000000000000 W && subMask 0x188 P) = true) (k_ : Upd W P r_ s) :
    Upd W P r_ (State.emitLine s k seq c off miss) := by
  refine Upd.via (w := 0x11000000000000) (p := 0x188) ?_ hm k_
  clear hm k_
  unfold State.emitLine
  repeat' first
    | (with_reducible apply Upd.foldl; intro _ _)
    | (with_reducible apply Upd.foldlFst; intro _ _)
    | (with_reducible exact Upd.refl _)
    | with_reducible assumption
    | (extract_lets +onlyGivenNames z; refine Upd.cutU (z := z) ?_ (fun hz => ?_); subst z; rotate_left; clear_value z; all_goals have z := trivial)
    | (extract_lets +onlyGivenNames z; refine Upd.cutU (z := z.1) ?_ (fun hz => ?_); subst z; rotate_left; clear_value z; all_goals have z := trivial)
    | (extract_lets +onlyGivenNames z; have _t : State → _ := z; clear _t; subst z; have z := trivial)
    | (extract_lets +onlyGivenNames z; have _t : _ → State := z; clear _t; subst z; have z := trivial)
    | (extract_lets +onlyGivenNames z; have _t : _ → _ → State := z; clear _t; subst z; have z := trivial)
    | (extract_lets +onlyGivenNames z; clear_value z; have z := trivial)
    | (with_reducible apply Upd.ite)
    | (with_reducible apply State.blanketEnd_upd; decide)
    | (with_reducible apply Upd.inc; decide)
    | (with_reducible apply State.onBlanket_upd; decide)
    | (with_reducible apply State.refTile_upd; decide)
    | (with_reducible apply State.trimRows_upd; decide)
    | (with_reducible apply Upd.fst; assumption)
    | simp (disch := decide) only [Upd.mk1_iff, Upd.frames_iff, Upd.blankets_iff, Upd.ref_iff]
    | split

theorem State.emitWhile_upd (s : State) (k : Nat) (seq : Nat) (c : Nat) (cond : State → BFrame → Nat → Bool) (off : List Side) (miss : Bool) (x0 : Nat) {W P : Nat} {r_ : State} (hm : (subMask 0x11000000000000 W && subMask 0x188 P) = true) (k_ : Upd W P r_ s) :
    Upd W P r_ (State.emitWhile s k seq c cond off miss x0) := by
  refine Upd.via (w := 0x11000000000000) (p := 0x188) ?_ hm k_
  clear hm k_
  induction x0 generalizing s k seq c cond off miss with
  | zero =>
    unfold State.emitWhile
    repeat' first
      | (with_reducible exact Upd.refl _)
      | with_reducible assumption
      | (extract_lets +onlyGivenNames z; refine Upd.cutU (z := z) ?_ (fun hz => ?_); subst z; rotate_left; clear_value z; all_goals have z := trivial)
      | (extract_lets +onlyGivenNames z; refine Upd.cutU (z := z.1) ?_ (fun hz => ?_); subst z; rotate_left; clear_value z; all_goals have z := trivial)
      | (extract_lets +onlyGivenNames z; clear_value z; have z := trivial)
      | (with_reducible apply Upd.ite)
      | (with_reducible apply State.emitLine_upd; decide)
      | (with_reducible apply Upd.fst; assumption)
      | simp (disch := decide) only [Upd.mk1_iff, Upd.frames_iff, Upd.blankets_iff, Upd.ref_iff]
      | split
  | succ n ih =>
    unfold State.emitWhile
    repeat' first
      | (with_reducible exact Upd.refl _)
      | with_reducible assumption
      | (extract_lets +onlyGivenNames z; refine Upd.cutU (z := z) ?_ (fun hz => ?_); subst z; rotate_left; clear_value z; all_goals have z := trivial)
      | (extract_lets +onlyGivenNames z; refine Upd.cutU (z := z.1) ?_ (fun hz => ?_); subst z; rotate_left; clear_value z; all_goals have z := trivial)
      | (extract_lets +onlyGivenNames z; clear_value z; have z := trivial)
      | (with_reducible refine Upd.trans ?_ (ih ..))
      | (with_reducible apply Upd.ite)
      | (with_reducible apply State.emitLine_upd; decide)
      | (with_reducible apply Upd.fst; assumption)
      | simp (disch := decide) only [Upd.mk1_iff, Upd.frames_iff, Upd.blankets_iff, Upd.ref_iff]
      | split

theorem State.memberAbsentEarly_upd (s : State) (k : Nat) (seq : Nat) (m : Nat) {W P : Nat} {r_ : State} (hm : (subMask 0x1000000000001 W && subMask 0x10018a P) = true) (k_ : Upd W P r_ s) :
    Upd W P r_ (State.memberAbsentEarly s k seq m) := by
  refine Upd.via (w := 0x1000000000001) (p := 0x10018a) ?_ hm k_
  clear hm k_
  unfold State.memberAbsentEarly
  repeat' first
    | (with_reducible exact Upd.refl _)
    | with_reducible assumption
    | (extract_lets +onlyGivenNames z; refine Upd.cutU (z := z) ?_ (fun hz => ?_); subst z; rotate_left; clear_value z; all_goals have z := trivial)
    | (extract_lets +onlyGivenNames z; refine Upd.cutU (z := z.1) ?_ (fun hz => ?_); subst z; rotate_left; clear_value z; all_goals have z := trivial)
    | (extract_lets +onlyGivenNames z; clear_value z; have z := trivial)
    | (with_reducible apply Upd.ite)
    | (with_reducible apply Upd.inc; decide)
    | (with_reducible apply State.mrgEvent_upd; decide)
    | (with_reducible apply State.onBlanket_upd; decide)
    | (with_reducible apply Upd.fst; assumption)
    | simp (disch := decide) only [Upd.mk1_iff, Upd.frames_iff, Upd.blankets_iff, Upd.ref_iff, Upd.out_iff]
    | split

theorem State.seamSend_upd (s : State) (k : Nat) (seq : Nat) (side : Nat) (all : Bool) {W P : Nat} {r_ : State} (hm : (subMask 0x1000011000000000001 W && subMask 0x10818a P) = true) (k_ : Upd W P r_ s) :
    Upd W P r_ (State.seamSend s k seq side all) := by
  refine Upd.via (w := 0x1000011000000000001) (p := 0x10818a) ?_ hm k_
  clear hm k_
  unfold State.seamSend
  repeat' first
    | (with_reducible exact Upd.refl _)
    | with_reducible assumption
    | (extract_lets +onlyGivenNames z; refine Upd.cutU (z := z) ?_ (fun hz => ?_); subst z; rotate_left; clear_value z; all_goals have z := trivial)
    | (extract_lets +onlyGivenNames z; refine Upd.cutU (z := z.1) ?_ (fun hz => ?_); subst z; rotate_left; clear_value z; all_goals have z := trivial)
    | (extract_lets +onlyGivenNames z; clear_value z; have z := trivial)
    | (with_reducible apply Upd.ite)
    | (with_reducible apply State.blanketEnd_upd; decide)
    | (with_reducible apply Upd.bump; decide)
    | (with_reducible apply State.onBlanket_upd; decide)
    | (with_reducible apply State.sendSeam_upd; decide)
    | (with_reducible apply State.trimRows_upd; decide)
    | (with_reducible apply Upd.fst; assumption)
    | simp (disch := decide) only [Upd.mk1_iff, Upd.frames_iff, Upd.blankets_iff, Upd.ref_iff, Upd.fab_iff, Upd.out_iff]
    | split

theorem State.closeEarly_upd (s : State) (k : Nat) (seq : Nat) {W P : Nat} {r_ : State} (hm : (subMask 0x1000011000000000001 W && subMask 0x10818a P) = true) (k_ : Upd W P r_ s) :
    Upd W P r_ (State.closeEarly s k seq) := by
  refine Upd.via (w := 0x1000011000000000001) (p := 0x10818a) ?_ hm k_
  clear hm k_
  unfold State.closeEarly
  repeat' first
    | (with_reducible apply Upd.foldl; intro _ _)
    | (with_reducible apply Upd.foldlFst; intro _ _)
    | (with_reducible exact Upd.refl _)
    | with_reducible assumption
    | (extract_lets +onlyGivenNames z; refine Upd.cutU (z := z) ?_ (fun hz => ?_); subst z; rotate_left; clear_value z; all_goals have z := trivial)
    | (extract_lets +onlyGivenNames z; refine Upd.cutU (z := z.1) ?_ (fun hz => ?_); subst z; rotate_left; clear_value z; all_goals have z := trivial)
    | (extract_lets +onlyGivenNames z; clear_value z; have z := trivial)
    | (with_reducible apply Upd.ite)
    | (with_reducible apply State.emitWhile_upd; decide)
    | (with_reducible apply State.memberAbsentEarly_upd; decide)
    | (with_reducible apply State.onBlanket_upd; decide)
    | (with_reducible apply State.seamSend_upd; decide)
    | (with_reducible apply Upd.fst; assumption)
    | simp (disch := decide) only [Upd.mk1_iff, Upd.frames_iff, Upd.blankets_iff, Upd.ref_iff, Upd.fab_iff, Upd.out_iff]
    | split

theorem State.blanketOpen_upd (s : State) (k : Nat) (bank : Nat) (m : Nat) (f : Frame) {W P : Nat} {r_ : State} (hm : (subMask 0x10a0011000000000001 W && subMask 0x10858a P) = true) (k_ : Upd W P r_ s) :
    Upd W P r_ (State.blanketOpen s k bank m f) := by
  refine Upd.via (w := 0x10a0011000000000001) (p := 0x10858a) ?_ hm k_
  clear hm k_
  unfold State.blanketOpen
  repeat' first
    | (with_reducible exact Upd.refl _)
    | with_reducible assumption
    | (extract_lets +onlyGivenNames z; refine Upd.cutU (z := z) ?_ (fun hz => ?_); subst z; rotate_left; clear_value z; all_goals have z := trivial)
    | (extract_lets +onlyGivenNames z; refine Upd.cutU (z := z.1) ?_ (fun hz => ?_); subst z; rotate_left; clear_value z; all_goals have z := trivial)
    | (extract_lets +onlyGivenNames z; clear_value z; have z := trivial)
    | (with_reducible apply Upd.ite)
    | (with_reducible apply State.closeEarly_upd; decide)
    | (with_reducible apply State.frameAccepted_upd; decide)
    | (with_reducible apply State.refOpen_upd; decide)
    | (with_reducible apply Upd.set; decide)
    | (with_reducible apply Upd.fst; assumption)
    | simp (disch := decide) only [Upd.mk1_iff, Upd.frames_iff, Upd.blankets_iff, Upd.ref_iff, Upd.egr_iff, Upd.fab_iff, Upd.out_iff]
    | split

theorem State.blanketAdd_upd (s : State) (k : Nat) (seq : Nat) (m : Nat) (f : Frame) {W P : Nat} {r_ : State} (hm : (subMask 0x0 W && subMask 0x188 P) = true) (k_ : Upd W P r_ s) :
    Upd W P r_ (State.blanketAdd s k seq m f) := by
  refine Upd.via (w := 0x0) (p := 0x188) ?_ hm k_
  clear hm k_
  unfold State.blanketAdd
  repeat' first
    | (with_reducible exact Upd.refl _)
    | with_reducible assumption
    | (extract_lets +onlyGivenNames z; refine Upd.cutU (z := z) ?_ (fun hz => ?_); subst z; rotate_left; clear_value z; all_goals have z := trivial)
    | (extract_lets +onlyGivenNames z; refine Upd.cutU (z := z.1) ?_ (fun hz => ?_); subst z; rotate_left; clear_value z; all_goals have z := trivial)
    | (extract_lets +onlyGivenNames z; clear_value z; have z := trivial)
    | (with_reducible apply Upd.ite)
    | (with_reducible apply State.onBlanket_upd; decide)
    | (with_reducible apply Upd.fst; assumption)
    | simp (disch := decide) only [Upd.mk1_iff, Upd.frames_iff, Upd.blankets_iff, Upd.ref_iff]
    | split

theorem State.noteAbsent_upd (s : State) (k : Nat) (m : Nat) {W P : Nat} {r_ : State} (hm : (subMask 0x1000000000001 W && subMask 0x100002 P) = true) (k_ : Upd W P r_ s) :
    Upd W P r_ (State.noteAbsent s k m) := by
  refine Upd.via (w := 0x1000000000001) (p := 0x100002) ?_ hm k_
  clear hm k_
  unfold State.noteAbsent
  repeat' first
    | (with_reducible exact Upd.refl _)
    | with_reducible assumption
    | (extract_lets +onlyGivenNames z; refine Upd.cutU (z := z) ?_ (fun hz => ?_); subst z; rotate_left; clear_value z; all_goals have z := trivial)
    | (extract_lets +onlyGivenNames z; refine Upd.cutU (z := z.1) ?_ (fun hz => ?_); subst z; rotate_left; clear_value z; all_goals have z := trivial)
    | (extract_lets +onlyGivenNames z; clear_value z; have z := trivial)
    | (with_reducible apply Upd.ite)
    | (with_reducible apply Upd.inc; decide)
    | (with_reducible apply State.mrgEvent_upd; decide)
    | (with_reducible apply Upd.fst; assumption)
    | simp (disch := decide) only [Upd.mk1_iff, Upd.out_iff]
    | split

theorem State.joinOne_upd (s : State) (f : Frame) (k : Nat) {W P : Nat} {r_ : State} (hm : (subMask 0x10a0011000000000001 W && subMask 0x10858a P) = true) (k_ : Upd W P r_ s) :
    Upd W P r_ (State.joinOne s f k) := by
  refine Upd.via (w := 0x10a0011000000000001) (p := 0x10858a) ?_ hm k_
  clear hm k_
  unfold State.joinOne
  repeat' first
    | (with_reducible exact Upd.refl _)
    | with_reducible assumption
    | (extract_lets +onlyGivenNames z; refine Upd.cutU (z := z) ?_ (fun hz => ?_); subst z; rotate_left; clear_value z; all_goals have z := trivial)
    | (extract_lets +onlyGivenNames z; refine Upd.cutU (z := z.1) ?_ (fun hz => ?_); subst z; rotate_left; clear_value z; all_goals have z := trivial)
    | (extract_lets +onlyGivenNames z; have _t : State → _ := z; clear _t; subst z; have z := trivial)
    | (extract_lets +onlyGivenNames z; have _t : _ → State := z; clear _t; subst z; have z := trivial)
    | (extract_lets +onlyGivenNames z; have _t : _ → _ → State := z; clear _t; subst z; have z := trivial)
    | (extract_lets +onlyGivenNames z; clear_value z; have z := trivial)
    | (with_reducible apply Upd.ite)
    | (with_reducible apply State.blanketAdd_upd; decide)
    | (with_reducible apply State.blanketOpen_upd; decide)
    | (with_reducible apply Upd.inc; decide)
    | (with_reducible apply State.layLand_upd; decide)
    | (with_reducible apply State.mrgEvent_upd; decide)
    | (with_reducible apply State.noteAbsent_upd; decide)
    | (with_reducible apply Upd.fst; assumption)
    | simp (disch := decide) only [Upd.mk1_iff, Upd.frames_iff, Upd.blankets_iff, Upd.ref_iff, Upd.egr_iff, Upd.fab_iff, Upd.out_iff]
    | split

theorem State.blanketJoin_upd (s : State) (f : Frame) {W P : Nat} {r_ : State} (hm : (subMask 0x10a0011000000000001 W && subMask 0x10858a P) = true) (k_ : Upd W P r_ s) :
    Upd W P r_ (State.blanketJoin s f) := by
  refine Upd.via (w := 0x10a0011000000000001) (p := 0x10858a) ?_ hm k_
  clear hm k_
  unfold State.blanketJoin
  repeat' first
    | (with_reducible apply Upd.foldl; intro _ _)
    | (with_reducible apply Upd.foldlFst; intro _ _)
    | (with_reducible exact Upd.refl _)
    | with_reducible assumption
    | (extract_lets +onlyGivenNames z; refine Upd.cutU (z := z) ?_ (fun hz => ?_); subst z; rotate_left; clear_value z; all_goals have z := trivial)
    | (extract_lets +onlyGivenNames z; refine Upd.cutU (z := z.1) ?_ (fun hz => ?_); subst z; rotate_left; clear_value z; all_goals have z := trivial)
    | (extract_lets +onlyGivenNames z; clear_value z; have z := trivial)
    | (with_reducible apply Upd.ite)
    | (with_reducible apply State.joinOne_upd; decide)
    | (with_reducible apply Upd.fst; assumption)
    | simp (disch := decide) only [Upd.mk1_iff, Upd.frames_iff, Upd.blankets_iff, Upd.ref_iff, Upd.egr_iff, Upd.fab_iff, Upd.out_iff]
    | split

theorem State.blanketAbsent_upd (s : State) (f : Frame) {W P : Nat} {r_ : State} (hm : (subMask 0x1000000000001 W && subMask 0x10018a P) = true) (k_ : Upd W P r_ s) :
    Upd W P r_ (State.blanketAbsent s f) := by
  refine Upd.via (w := 0x1000000000001) (p := 0x10018a) ?_ hm k_
  clear hm k_
  unfold State.blanketAbsent
  repeat' first
    | (with_reducible apply Upd.foldl; intro _ _)
    | (with_reducible apply Upd.foldlFst; intro _ _)
    | (with_reducible exact Upd.refl _)
    | with_reducible assumption
    | (extract_lets +onlyGivenNames z; refine Upd.cutU (z := z) ?_ (fun hz => ?_); subst z; rotate_left; clear_value z; all_goals have z := trivial)
    | (extract_lets +onlyGivenNames z; refine Upd.cutU (z := z.1) ?_ (fun hz => ?_); subst z; rotate_left; clear_value z; all_goals have z := trivial)
    | (extract_lets +onlyGivenNames z; clear_value z; have z := trivial)
    | (with_reducible apply Upd.ite)
    | (with_reducible apply State.memberAbsent_upd; decide)
    | (with_reducible apply Upd.fst; assumption)
    | simp (disch := decide) only [Upd.mk1_iff, Upd.frames_iff, Upd.blankets_iff, Upd.ref_iff, Upd.out_iff]
    | split

theorem State.blanketPiped_upd (s : State) (f : Frame) {W P : Nat} {r_ : State} (hm : (subMask 0x0 W && subMask 0x188 P) = true) (k_ : Upd W P r_ s) :
    Upd W P r_ (State.blanketPiped s f) := by
  refine Upd.via (w := 0x0) (p := 0x188) ?_ hm k_
  clear hm k_
  unfold State.blanketPiped
  repeat' first
    | (with_reducible apply Upd.foldl; intro _ _)
    | (with_reducible apply Upd.foldlFst; intro _ _)
    | (with_reducible exact Upd.refl _)
    | with_reducible assumption
    | (extract_lets +onlyGivenNames z; refine Upd.cutU (z := z) ?_ (fun hz => ?_); subst z; rotate_left; clear_value z; all_goals have z := trivial)
    | (extract_lets +onlyGivenNames z; refine Upd.cutU (z := z.1) ?_ (fun hz => ?_); subst z; rotate_left; clear_value z; all_goals have z := trivial)
    | (extract_lets +onlyGivenNames z; clear_value z; have z := trivial)
    | (with_reducible apply Upd.ite)
    | (with_reducible apply State.onBlanket_upd; decide)
    | (with_reducible apply Upd.fst; assumption)
    | simp (disch := decide) only [Upd.mk1_iff, Upd.frames_iff, Upd.blankets_iff, Upd.ref_iff]
    | split

end Sys2Proof.Machine
end

