-- ==== Sys2Proof/Laws/UpdPipeOps.lean ====
section
/-! SUPPORT. What each operation of Machine/PipeOps.lean may change (see Laws/Upd.lean). -/

set_option linter.unusedSimpArgs false
set_option linter.tactic.unusedName false

namespace Sys2Proof.Machine

theorem State.landBank_upd (s : State) (x : Nat) (b : Nat) {W P : Nat} {r_ : State} (hm : (subMask 0x10000000000 W && subMask 0x40 P) = true) (k_ : Upd W P r_ s) :
    Upd W P r_ (State.landBank s x b) := by
  refine Upd.via (w := 0x10000000000) (p := 0x40) ?_ hm k_
  clear hm k_
  unfold State.landBank
  repeat' first
    | (with_reducible exact Upd.refl _)
    | with_reducible assumption
    | (extract_lets +onlyGivenNames z; refine Upd.cutU (z := z) ?_ (fun hz => ?_); subst z; rotate_left; clear_value z; all_goals have z := trivial)
    | (extract_lets +onlyGivenNames z; refine Upd.cutU (z := z.1) ?_ (fun hz => ?_); subst z; rotate_left; clear_value z; all_goals have z := trivial)
    | (extract_lets +onlyGivenNames z; clear_value z; have z := trivial)
    | (with_reducible apply Upd.ite)
    | (with_reducible apply Upd.set; decide)
    | (with_reducible apply Upd.fst; assumption)
    | simp (disch := decide) only [Upd.mk1_iff, Upd.pipe_iff]
    | split

theorem State.unbind_upd (s : State) (x : Nat) (b : Nat) {W P : Nat} {r_ : State} (hm : (subMask 0x10000000000 W && subMask 0x0 P) = true) (k_ : Upd W P r_ s) :
    Upd W P r_ (State.unbind s x b) := by
  refine Upd.via (w := 0x10000000000) (p := 0x0) ?_ hm k_
  clear hm k_
  unfold State.unbind
  repeat' first
    | (with_reducible exact Upd.refl _)
    | with_reducible assumption
    | (extract_lets +onlyGivenNames z; refine Upd.cutU (z := z) ?_ (fun hz => ?_); subst z; rotate_left; clear_value z; all_goals have z := trivial)
    | (extract_lets +onlyGivenNames z; refine Upd.cutU (z := z.1) ?_ (fun hz => ?_); subst z; rotate_left; clear_value z; all_goals have z := trivial)
    | (extract_lets +onlyGivenNames z; clear_value z; have z := trivial)
    | (with_reducible apply Upd.ite)
    | (with_reducible apply Upd.set; decide)
    | (with_reducible apply Upd.fst; assumption)
    | simp (disch := decide) only [Upd.mk1_iff]
    | split

theorem State.onFrame_upd (s : State) (c : Nat) (seq : Nat) (g : Frame → Frame) {W P : Nat} {r_ : State} (hm : (subMask 0x0 W && subMask 0x8 P) = true) (k_ : Upd W P r_ s) :
    Upd W P r_ (State.onFrame s c seq g) := by
  refine Upd.via (w := 0x0) (p := 0x8) ?_ hm k_
  clear hm k_
  unfold State.onFrame
  repeat' first
    | (with_reducible exact Upd.refl _)
    | with_reducible assumption
    | (extract_lets +onlyGivenNames z; refine Upd.cutU (z := z) ?_ (fun hz => ?_); subst z; rotate_left; clear_value z; all_goals have z := trivial)
    | (extract_lets +onlyGivenNames z; refine Upd.cutU (z := z.1) ?_ (fun hz => ?_); subst z; rotate_left; clear_value z; all_goals have z := trivial)
    | (extract_lets +onlyGivenNames z; clear_value z; have z := trivial)
    | (with_reducible apply Upd.ite)
    | (with_reducible apply State.mapFrames_upd; decide)
    | (with_reducible apply Upd.fst; assumption)
    | simp (disch := decide) only [Upd.mk1_iff, Upd.frames_iff]
    | split

theorem State.lineToMem_upd (s : State) (f : Frame) (l : Line) (home : Home) (ext : List (Nat × Nat)) {W P : Nat} {r_ : State} (hm : (subMask 0x100000000000000000001 W && subMask 0x50000b P) = true) (k_ : Upd W P r_ s) :
    Upd W P r_ (State.lineToMem s f l home ext) := by
  refine Upd.via (w := 0x100000000000000000001) (p := 0x50000b) ?_ hm k_
  clear hm k_
  unfold State.lineToMem
  repeat' first
    | (with_reducible exact Upd.refl _)
    | with_reducible assumption
    | (extract_lets +onlyGivenNames z; refine Upd.cutU (z := z) ?_ (fun hz => ?_); subst z; rotate_left; clear_value z; all_goals have z := trivial)
    | (extract_lets +onlyGivenNames z; refine Upd.cutU (z := z.1) ?_ (fun hz => ?_); subst z; rotate_left; clear_value z; all_goals have z := trivial)
    | (extract_lets +onlyGivenNames z; clear_value z; have z := trivial)
    | (with_reducible apply Upd.ite)
    | (with_reducible apply State.extWrite_upd; decide)
    | (with_reducible apply State.onFrame_upd; decide)
    | (with_reducible apply Upd.fst; assumption)
    | simp (disch := decide) only [Upd.mk1_iff, Upd.frames_iff, Upd.out_iff, Upd.bad_iff]
    | split

theorem State.lineFromMem_upd (s : State) (f : Frame) (l : Line) {W P : Nat} {r_ : State} (hm : (subMask 0x100000000000000000001 W && subMask 0x100002 P) = true) (k_ : Upd W P r_ s) :
    Upd W P r_ (State.lineFromMem s f l).1 := by
  refine Upd.via (w := 0x100000000000000000001) (p := 0x100002) ?_ hm k_
  clear hm k_
  unfold State.lineFromMem
  repeat' first
    | (with_reducible exact Upd.refl _)
    | with_reducible assumption
    | (extract_lets +onlyGivenNames z; refine Upd.cutU (z := z) ?_ (fun hz => ?_); subst z; rotate_left; clear_value z; all_goals have z := trivial)
    | (extract_lets +onlyGivenNames z; refine Upd.cutU (z := z.1) ?_ (fun hz => ?_); subst z; rotate_left; clear_value z; all_goals have z := trivial)
    | (extract_lets +onlyGivenNames z; clear_value z; have z := trivial)
    | (with_reducible apply Upd.ite)
    | (with_reducible apply Upd.iteFst)
    | (with_reducible apply State.extRead_upd; decide)
    | (with_reducible apply Upd.fst; assumption)
    | simp (disch := decide) only [Upd.mk1_iff, Upd.out_iff]
    | split

theorem State.loadLines_upd (s : State) (c : Nat) (seq : Nat) (lo : Nat) (hi : Nat) {W P : Nat} {r_ : State} (hm : (subMask 0x100000000000000000001 W && subMask 0x10000a P) = true) (k_ : Upd W P r_ s) :
    Upd W P r_ (State.loadLines s c seq lo hi) := by
  refine Upd.via (w := 0x100000000000000000001) (p := 0x10000a) ?_ hm k_
  clear hm k_
  unfold State.loadLines
  repeat' first
    | (with_reducible apply Upd.foldl; intro _ _)
    | (with_reducible apply Upd.foldlFst; intro _ _)
    | (with_reducible exact Upd.refl _)
    | with_reducible assumption
    | (extract_lets +onlyGivenNames z; refine Upd.cutU (z := z) ?_ (fun hz => ?_); subst z; rotate_left; clear_value z; all_goals have z := trivial)
    | (extract_lets +onlyGivenNames z; refine Upd.cutU (z := z.1) ?_ (fun hz => ?_); subst z; rotate_left; clear_value z; all_goals have z := trivial)
    | (extract_lets +onlyGivenNames z; clear_value z; have z := trivial)
    | (with_reducible apply Upd.ite)
    | (with_reducible apply Upd.iteFst)
    | (with_reducible apply State.lineFromMem_upd; decide)
    | (with_reducible apply State.onFrame_upd; decide)
    | (with_reducible apply Upd.fst; assumption)
    | simp (disch := decide) only [Upd.mk1_iff, Upd.frames_iff, Upd.out_iff]
    | split

theorem State.noteEligible_upd (s : State) {W P : Nat} {r_ : State} (hm : (subMask 0x0 W && subMask 0x8 P) = true) (k_ : Upd W P r_ s) :
    Upd W P r_ (State.noteEligible s) := by
  refine Upd.via (w := 0x0) (p := 0x8) ?_ hm k_
  clear hm k_
  unfold State.noteEligible
  repeat' first
    | (with_reducible exact Upd.refl _)
    | with_reducible assumption
    | (extract_lets +onlyGivenNames z; refine Upd.cutU (z := z) ?_ (fun hz => ?_); subst z; rotate_left; clear_value z; all_goals have z := trivial)
    | (extract_lets +onlyGivenNames z; refine Upd.cutU (z := z.1) ?_ (fun hz => ?_); subst z; rotate_left; clear_value z; all_goals have z := trivial)
    | (extract_lets +onlyGivenNames z; clear_value z; have z := trivial)
    | (with_reducible apply Upd.ite)
    | (with_reducible apply Upd.fst; assumption)
    | simp (disch := decide) only [Upd.mk1_iff, Upd.frames_iff]
    | split

theorem State.framePiped_upd (s : State) (f : Frame) {W P : Nat} {r_ : State} (hm : (subMask 0x0 W && subMask 0x5c8 P) = true) (k_ : Upd W P r_ s) :
    Upd W P r_ (State.framePiped s f) := by
  refine Upd.via (w := 0x0) (p := 0x5c8) ?_ hm k_
  clear hm k_
  unfold State.framePiped
  repeat' first
    | (with_reducible exact Upd.refl _)
    | with_reducible assumption
    | (extract_lets +onlyGivenNames z; refine Upd.cutU (z := z) ?_ (fun hz => ?_); subst z; rotate_left; clear_value z; all_goals have z := trivial)
    | (extract_lets +onlyGivenNames z; refine Upd.cutU (z := z.1) ?_ (fun hz => ?_); subst z; rotate_left; clear_value z; all_goals have z := trivial)
    | (extract_lets +onlyGivenNames z; clear_value z; have z := trivial)
    | (with_reducible apply Upd.ite)
    | (with_reducible apply State.blanketPiped_upd; decide)
    | (with_reducible apply State.roiOffers_upd; decide)
    | (with_reducible apply Upd.fst; assumption)
    | simp (disch := decide) only [Upd.mk1_iff, Upd.frames_iff, Upd.pipe_iff, Upd.blankets_iff, Upd.ref_iff, Upd.egr_iff]
    | split

theorem State.schEvent_upd (s : State) (k : Nat) (seq : Nat) (x : Nat) (stripe : Nat) {W P : Nat} {r_ : State} (hm : (subMask 0x10000000001 W && subMask 0x100002 P) = true) (k_ : Upd W P r_ s) :
    Upd W P r_ (State.schEvent s k seq x stripe) := by
  refine Upd.via (w := 0x10000000001) (p := 0x100002) ?_ hm k_
  clear hm k_
  unfold State.schEvent
  repeat' first
    | (with_reducible exact Upd.refl _)
    | with_reducible assumption
    | (extract_lets +onlyGivenNames z; refine Upd.cutU (z := z) ?_ (fun hz => ?_); subst z; rotate_left; clear_value z; all_goals have z := trivial)
    | (extract_lets +onlyGivenNames z; refine Upd.cutU (z := z.1) ?_ (fun hz => ?_); subst z; rotate_left; clear_value z; all_goals have z := trivial)
    | (extract_lets +onlyGivenNames z; clear_value z; have z := trivial)
    | (with_reducible apply Upd.ite)
    | (with_reducible apply Upd.sticky; decide; decide; decide)
    | (with_reducible apply Upd.fst; assumption)
    | simp (disch := decide) only [Upd.mk1_iff, Upd.out_iff]
    | split

theorem State.dropFrame_upd (s : State) (f : Frame) (streams : List Nat) (cause : Nat) {W P : Nat} {r_ : State} (hm : (subMask 0xa0000000000000001 W && subMask 0x10040a P) = true) (k_ : Upd W P r_ s) :
    Upd W P r_ (State.dropFrame s f streams cause) := by
  refine Upd.via (w := 0xa0000000000000001) (p := 0x10040a) ?_ hm k_
  clear hm k_
  unfold State.dropFrame
  repeat' first
    | (with_reducible apply Upd.foldl; intro _ _)
    | (with_reducible apply Upd.foldlFst; intro _ _)
    | (with_reducible exact Upd.refl _)
    | with_reducible assumption
    | (extract_lets +onlyGivenNames z; refine Upd.cutU (z := z) ?_ (fun hz => ?_); subst z; rotate_left; clear_value z; all_goals have z := trivial)
    | (extract_lets +onlyGivenNames z; refine Upd.cutU (z := z.1) ?_ (fun hz => ?_); subst z; rotate_left; clear_value z; all_goals have z := trivial)
    | (extract_lets +onlyGivenNames z; clear_value z; have z := trivial)
    | (with_reducible apply Upd.ite)
    | (with_reducible apply State.drop_upd; decide)
    | (with_reducible apply Upd.fst; assumption)
    | simp (disch := decide) only [Upd.mk1_iff, Upd.frames_iff, Upd.egr_iff, Upd.out_iff]
    | split

theorem State.freeHolds_upd (s : State) (p : StripeRef → Bool) {W P : Nat} {r_ : State} (hm : (subMask 0x0 W && subMask 0x40 P) = true) (k_ : Upd W P r_ s) :
    Upd W P r_ (State.freeHolds s p) := by
  refine Upd.via (w := 0x0) (p := 0x40) ?_ hm k_
  clear hm k_
  unfold State.freeHolds
  repeat' first
    | (with_reducible exact Upd.refl _)
    | with_reducible assumption
    | (extract_lets +onlyGivenNames z; refine Upd.cutU (z := z) ?_ (fun hz => ?_); subst z; rotate_left; clear_value z; all_goals have z := trivial)
    | (extract_lets +onlyGivenNames z; refine Upd.cutU (z := z.1) ?_ (fun hz => ?_); subst z; rotate_left; clear_value z; all_goals have z := trivial)
    | (extract_lets +onlyGivenNames z; clear_value z; have z := trivial)
    | (with_reducible apply Upd.ite)
    | (with_reducible apply Upd.fst; assumption)
    | simp (disch := decide) only [Upd.mk1_iff, Upd.pipe_iff]
    | split

theorem State.refuseFrame_upd (s : State) (f : Frame) (cause : Nat) (streams : List Nat) {W P : Nat} {r_ : State} (hm : (subMask 0xa0001010000000021 W && subMask 0x1005ca P) = true) (k_ : Upd W P r_ s) :
    Upd W P r_ (State.refuseFrame s f cause streams) := by
  refine Upd.via (w := 0xa0001010000000021) (p := 0x1005ca) ?_ hm k_
  clear hm k_
  unfold State.refuseFrame
  repeat' first
    | (with_reducible exact Upd.refl _)
    | with_reducible assumption
    | (extract_lets +onlyGivenNames z; refine Upd.cutU (z := z) ?_ (fun hz => ?_); subst z; rotate_left; clear_value z; all_goals have z := trivial)
    | (extract_lets +onlyGivenNames z; refine Upd.cutU (z := z.1) ?_ (fun hz => ?_); subst z; rotate_left; clear_value z; all_goals have z := trivial)
    | (extract_lets +onlyGivenNames z; clear_value z; have z := trivial)
    | (with_reducible apply Upd.ite)
    | (with_reducible apply State.blanketAbsent_upd; decide)
    | (with_reducible apply State.dropFrame_upd; decide)
    | (with_reducible apply State.freeHolds_upd; decide)
    | (with_reducible apply State.onFrame_upd; decide)
    | (with_reducible apply State.unbind_upd; decide)
    | (with_reducible apply Upd.fst; assumption)
    | simp (disch := decide) only [Upd.mk1_iff, Upd.frames_iff, Upd.pipe_iff, Upd.blankets_iff, Upd.ref_iff, Upd.egr_iff, Upd.out_iff]
    | split

theorem State.bindFrame_upd (s : State) (f : Frame) (blocks : Option (List (Nat × Nat))) {W P : Nat} {r_ : State} (hm : (subMask 0x10a0011010000000021 W && subMask 0x10c5ca P) = true) (k_ : Upd W P r_ s) :
    Upd W P r_ (State.bindFrame s f blocks) := by
  refine Upd.via (w := 0x10a0011010000000021) (p := 0x10c5ca) ?_ hm k_
  clear hm k_
  unfold State.bindFrame
  repeat' first
    | (with_reducible exact Upd.refl _)
    | with_reducible assumption
    | (extract_lets +onlyGivenNames z; refine Upd.cutU (z := z) ?_ (fun hz => ?_); subst z; rotate_left; clear_value z; all_goals have z := trivial)
    | (extract_lets +onlyGivenNames z; refine Upd.cutU (z := z.1) ?_ (fun hz => ?_); subst z; rotate_left; clear_value z; all_goals have z := trivial)
    | (extract_lets +onlyGivenNames z; clear_value z; have z := trivial)
    | (with_reducible apply Upd.ite)
    | (with_reducible apply State.blanketJoin_upd; decide)
    | (with_reducible apply Upd.inc; decide)
    | (with_reducible apply State.landBank_upd; decide)
    | (with_reducible apply State.onFrame_upd; decide)
    | (with_reducible apply State.refuseFrame_upd; decide)
    | (with_reducible apply State.schEvent_upd; decide)
    | (with_reducible apply Upd.set; decide)
    | (with_reducible apply Upd.fst; assumption)
    | simp (disch := decide) only [Upd.mk1_iff, Upd.frames_iff, Upd.pipe_iff, Upd.blankets_iff, Upd.ref_iff, Upd.egr_iff, Upd.job_iff, Upd.fab_iff, Upd.out_iff]
    | split

theorem State.storeFull_upd (s : State) {W P : Nat} {r_ : State} (hm : (subMask 0x100000000000000000001 W && subMask 0x100002 P) = true) (k_ : Upd W P r_ s) :
    Upd W P r_ (State.storeFull s) := by
  refine Upd.via (w := 0x100000000000000000001) (p := 0x100002) ?_ hm k_
  clear hm k_
  unfold State.storeFull
  repeat' first
    | (with_reducible exact Upd.refl _)
    | with_reducible assumption
    | (extract_lets +onlyGivenNames z; refine Upd.cutU (z := z) ?_ (fun hz => ?_); subst z; rotate_left; clear_value z; all_goals have z := trivial)
    | (extract_lets +onlyGivenNames z; refine Upd.cutU (z := z.1) ?_ (fun hz => ?_); subst z; rotate_left; clear_value z; all_goals have z := trivial)
    | (extract_lets +onlyGivenNames z; clear_value z; have z := trivial)
    | (with_reducible apply Upd.ite)
    | (with_reducible apply Upd.inc; decide)
    | (with_reducible apply Upd.sticky; decide; decide; decide)
    | (with_reducible apply Upd.fst; assumption)
    | simp (disch := decide) only [Upd.mk1_iff, Upd.out_iff]
    | split

theorem State.frameOpened_upd (s : State) (c : Nat) {W P : Nat} {r_ : State} (hm : (subMask 0x1010a0011010000000021 W && subMask 0x10c5ca P) = true) (k_ : Upd W P r_ s) :
    Upd W P r_ (State.frameOpened s c) := by
  refine Upd.via (w := 0x1010a0011010000000021) (p := 0x10c5ca) ?_ hm k_
  clear hm k_
  unfold State.frameOpened
  repeat' first
    | (with_reducible exact Upd.refl _)
    | with_reducible assumption
    | (extract_lets +onlyGivenNames z; refine Upd.cutU (z := z) ?_ (fun hz => ?_); subst z; rotate_left; clear_value z; all_goals have z := trivial)
    | (extract_lets +onlyGivenNames z; refine Upd.cutU (z := z.1) ?_ (fun hz => ?_); subst z; rotate_left; clear_value z; all_goals have z := trivial)
    | (extract_lets +onlyGivenNames z; clear_value z; have z := trivial)
    | (with_reducible apply Upd.ite)
    | (with_reducible apply State.bindFrame_upd; decide)
    | (with_reducible apply State.frameAccepted_upd; decide)
    | (with_reducible apply State.storeFull_upd; decide)
    | (with_reducible apply Upd.fst; assumption)
    | simp (disch := decide) only [Upd.mk1_iff, Upd.frames_iff, Upd.pipe_iff, Upd.blankets_iff, Upd.ref_iff, Upd.egr_iff, Upd.job_iff, Upd.fab_iff, Upd.out_iff]
    | split

theorem State.frameClosed_upd (s : State) (c : Nat) {W P : Nat} {r_ : State} (hm : (subMask 0x0 W && subMask 0x8 P) = true) (k_ : Upd W P r_ s) :
    Upd W P r_ (State.frameClosed s c) := by
  refine Upd.via (w := 0x0) (p := 0x8) ?_ hm k_
  clear hm k_
  unfold State.frameClosed
  repeat' first
    | (with_reducible exact Upd.refl _)
    | with_reducible assumption
    | (extract_lets +onlyGivenNames z; refine Upd.cutU (z := z) ?_ (fun hz => ?_); subst z; rotate_left; clear_value z; all_goals have z := trivial)
    | (extract_lets +onlyGivenNames z; refine Upd.cutU (z := z.1) ?_ (fun hz => ?_); subst z; rotate_left; clear_value z; all_goals have z := trivial)
    | (extract_lets +onlyGivenNames z; clear_value z; have z := trivial)
    | (with_reducible apply Upd.ite)
    | (with_reducible apply State.noteEligible_upd; decide)
    | (with_reducible apply Upd.fst; assumption)
    | simp (disch := decide) only [Upd.mk1_iff, Upd.frames_iff]
    | split

end Sys2Proof.Machine
end

