-- ==== Sys2Proof/Laws/UpdIngOps.lean ====
section
/-! SUPPORT. What each operation of Machine/IngOps.lean may change (see Laws/Upd.lean). -/

set_option linter.unusedSimpArgs false
set_option linter.tactic.unusedName false

namespace Sys2Proof.Machine

theorem State.fcPin_upd (s : State) (j : Nat) {W P : Nat} {r_ : State} (hm : (subMask 0x1000000 W && subMask 0x100000 P) = true) (k_ : Upd W P r_ s) :
    Upd W P r_ (State.fcPin s j) := by
  refine Upd.via (w := 0x1000000) (p := 0x100000) ?_ hm k_
  clear hm k_
  unfold State.fcPin
  repeat' first
    | (with_reducible exact Upd.refl _)
    | with_reducible assumption
    | (extract_lets +onlyGivenNames z; refine Upd.cutU (z := z) ?_ (fun hz => ?_); subst z; rotate_left; clear_value z; all_goals have z := trivial)
    | (extract_lets +onlyGivenNames z; refine Upd.cutU (z := z.1) ?_ (fun hz => ?_); subst z; rotate_left; clear_value z; all_goals have z := trivial)
    | (extract_lets +onlyGivenNames z; clear_value z; have z := trivial)
    | (with_reducible apply Upd.ite)
    | (with_reducible apply State.emit_upd; decide)
    | (with_reducible apply Upd.set; decide)
    | (with_reducible apply Upd.fst; assumption)
    | simp (disch := decide) only [Upd.mk1_iff, Upd.out_iff]
    | split

theorem State.fcPins_upd (s : State) {W P : Nat} {r_ : State} (hm : (subMask 0x1000000 W && subMask 0x100000 P) = true) (k_ : Upd W P r_ s) :
    Upd W P r_ (State.fcPins s) := by
  refine Upd.via (w := 0x1000000) (p := 0x100000) ?_ hm k_
  clear hm k_
  unfold State.fcPins
  repeat' first
    | (with_reducible apply Upd.foldl; intro _ _)
    | (with_reducible apply Upd.foldlFst; intro _ _)
    | (with_reducible exact Upd.refl _)
    | with_reducible assumption
    | (extract_lets +onlyGivenNames z; refine Upd.cutU (z := z) ?_ (fun hz => ?_); subst z; rotate_left; clear_value z; all_goals have z := trivial)
    | (extract_lets +onlyGivenNames z; refine Upd.cutU (z := z.1) ?_ (fun hz => ?_); subst z; rotate_left; clear_value z; all_goals have z := trivial)
    | (extract_lets +onlyGivenNames z; clear_value z; have z := trivial)
    | (with_reducible apply Upd.ite)
    | (with_reducible apply State.fcPin_upd; decide)
    | (with_reducible apply Upd.fst; assumption)
    | simp (disch := decide) only [Upd.mk1_iff, Upd.out_iff]
    | split

theorem State.sendPause_upd (s : State) (n : Nat) (p : Nat) {W P : Nat} {r_ : State} (hm : (subMask 0x100000 W && subMask 0x100000 P) = true) (k_ : Upd W P r_ s) :
    Upd W P r_ (State.sendPause s n p) := by
  refine Upd.via (w := 0x100000) (p := 0x100000) ?_ hm k_
  clear hm k_
  unfold State.sendPause
  repeat' first
    | (with_reducible exact Upd.refl _)
    | with_reducible assumption
    | (extract_lets +onlyGivenNames z; refine Upd.cutU (z := z) ?_ (fun hz => ?_); subst z; rotate_left; clear_value z; all_goals have z := trivial)
    | (extract_lets +onlyGivenNames z; refine Upd.cutU (z := z.1) ?_ (fun hz => ?_); subst z; rotate_left; clear_value z; all_goals have z := trivial)
    | (extract_lets +onlyGivenNames z; clear_value z; have z := trivial)
    | (with_reducible apply Upd.ite)
    | (with_reducible apply State.emit_upd; decide)
    | (with_reducible apply Upd.set; decide)
    | (with_reducible apply Upd.fst; assumption)
    | simp (disch := decide) only [Upd.mk1_iff, Upd.out_iff]
    | split

theorem State.evalWatermark_upd (s : State) (n : Nat) {W P : Nat} {r_ : State} (hm : (subMask 0x1100001 W && subMask 0x100002 P) = true) (k_ : Upd W P r_ s) :
    Upd W P r_ (State.evalWatermark s n) := by
  refine Upd.via (w := 0x1100001) (p := 0x100002) ?_ hm k_
  clear hm k_
  unfold State.evalWatermark
  repeat' first
    | (with_reducible exact Upd.refl _)
    | with_reducible assumption
    | (extract_lets +onlyGivenNames z; refine Upd.cutU (z := z) ?_ (fun hz => ?_); subst z; rotate_left; clear_value z; all_goals have z := trivial)
    | (extract_lets +onlyGivenNames z; refine Upd.cutU (z := z.1) ?_ (fun hz => ?_); subst z; rotate_left; clear_value z; all_goals have z := trivial)
    | (extract_lets +onlyGivenNames z; clear_value z; have z := trivial)
    | (with_reducible apply Upd.ite)
    | (with_reducible apply State.fcPins_upd; decide)
    | (with_reducible apply Upd.inc; decide)
    | (with_reducible apply State.queueEvent_upd; decide)
    | (with_reducible apply State.sendPause_upd; decide)
    | (with_reducible apply Upd.set; decide)
    | (with_reducible apply Upd.fst; assumption)
    | simp (disch := decide) only [Upd.mk1_iff, Upd.out_iff]
    | split

theorem State.relevel_upd (s : State) (n : Nat) {W P : Nat} {r_ : State} (hm : (subMask 0x1100001 W && subMask 0x100002 P) = true) (k_ : Upd W P r_ s) :
    Upd W P r_ (State.relevel s n) := by
  refine Upd.via (w := 0x1100001) (p := 0x100002) ?_ hm k_
  clear hm k_
  unfold State.relevel
  repeat' first
    | (with_reducible exact Upd.refl _)
    | with_reducible assumption
    | (extract_lets +onlyGivenNames z; refine Upd.cutU (z := z) ?_ (fun hz => ?_); subst z; rotate_left; clear_value z; all_goals have z := trivial)
    | (extract_lets +onlyGivenNames z; refine Upd.cutU (z := z.1) ?_ (fun hz => ?_); subst z; rotate_left; clear_value z; all_goals have z := trivial)
    | (extract_lets +onlyGivenNames z; clear_value z; have z := trivial)
    | (with_reducible apply Upd.ite)
    | (with_reducible apply Upd.bump; decide)
    | (with_reducible apply State.evalWatermark_upd; decide)
    | (with_reducible apply Upd.set; decide)
    | (with_reducible apply Upd.fst; assumption)
    | simp (disch := decide) only [Upd.mk1_iff, Upd.out_iff]
    | split

theorem State.closeFrame_upd (s : State) (c : Nat) (implied : Bool) {W P : Nat} {r_ : State} (hm : (subMask 0x100001 W && subMask 0x10000a P) = true) (k_ : Upd W P r_ s) :
    Upd W P r_ (State.closeFrame s c implied) := by
  refine Upd.via (w := 0x100001) (p := 0x10000a) ?_ hm k_
  clear hm k_
  unfold State.closeFrame
  repeat' first
    | (with_reducible apply Upd.foldl; intro _ _)
    | (with_reducible apply Upd.foldlFst; intro _ _)
    | (with_reducible exact Upd.refl _)
    | with_reducible assumption
    | (extract_lets +onlyGivenNames z; refine Upd.cutU (z := z) ?_ (fun hz => ?_); subst z; rotate_left; clear_value z; all_goals have z := trivial)
    | (extract_lets +onlyGivenNames z; refine Upd.cutU (z := z.1) ?_ (fun hz => ?_); subst z; rotate_left; clear_value z; all_goals have z := trivial)
    | (extract_lets +onlyGivenNames z; clear_value z; have z := trivial)
    | (with_reducible apply Upd.ite)
    | (with_reducible apply State.flagOpen_upd; decide)
    | (with_reducible apply State.frameClosed_upd; decide)
    | (with_reducible apply Upd.inc; decide)
    | (with_reducible apply State.onOpen_upd; decide)
    | (with_reducible apply Upd.set; decide)
    | (with_reducible apply Upd.fst; assumption)
    | simp (disch := decide) only [Upd.mk1_iff, Upd.frames_iff, Upd.out_iff]
    | split

theorem State.applyShadow_upd (s : State) (c : Nat) {W P : Nat} {r_ : State} (hm : (subMask 0x100000 W && subMask 0x0 P) = true) (k_ : Upd W P r_ s) :
    Upd W P r_ (State.applyShadow s c) := by
  refine Upd.via (w := 0x100000) (p := 0x0) ?_ hm k_
  clear hm k_
  unfold State.applyShadow
  dsimp only [List.foldl]
  repeat' first
    | (with_reducible apply Upd.foldlSet; decide)
    | ((with_reducible apply Upd.foldlPair); simp only [List.all_cons, List.all_nil]; decide)
    | (with_reducible apply Upd.foldl; intro _ _)
    | (with_reducible apply Upd.foldlFst; intro _ _)
    | (with_reducible exact Upd.refl _)
    | with_reducible assumption
    | (extract_lets +onlyGivenNames z; refine Upd.cutU (z := z) ?_ (fun hz => ?_); subst z; rotate_left; clear_value z; all_goals have z := trivial)
    | (extract_lets +onlyGivenNames z; refine Upd.cutU (z := z.1) ?_ (fun hz => ?_); subst z; rotate_left; clear_value z; all_goals have z := trivial)
    | (extract_lets +onlyGivenNames z; have _t : State → _ := z; clear _t; subst z; have z := trivial)
    | (extract_lets +onlyGivenNames z; have _t : _ → State := z; clear _t; subst z; have z := trivial)
    | (extract_lets +onlyGivenNames z; have _t : _ → _ → State := z; clear _t; subst z; have z := trivial)
    | (extract_lets +onlyGivenNames z; clear_value z; have z := trivial)
    | (with_reducible apply Upd.ite)
    | (with_reducible apply Upd.set; decide)
    | (with_reducible apply Upd.fst; assumption)
    | simp (disch := decide) only [Upd.mk1_iff]
    | split

theorem State.openAt_upd (s : State) (c : Nat) (fn : Nat) {W P : Nat} {r_ : State} (hm : (subMask 0x1010a0011010001100021 W && subMask 0x10c5ea P) = true) (k_ : Upd W P r_ s) :
    Upd W P r_ (State.openAt s c fn) := by
  refine Upd.via (w := 0x1010a0011010001100021) (p := 0x10c5ea) ?_ hm k_
  clear hm k_
  unfold State.openAt
  repeat' first
    | (with_reducible exact Upd.refl _)
    | with_reducible assumption
    | (extract_lets +onlyGivenNames z; refine Upd.cutU (z := z) ?_ (fun hz => ?_); subst z; rotate_left; clear_value z; all_goals have z := trivial)
    | (extract_lets +onlyGivenNames z; refine Upd.cutU (z := z.1) ?_ (fun hz => ?_); subst z; rotate_left; clear_value z; all_goals have z := trivial)
    | (extract_lets +onlyGivenNames z; clear_value z; have z := trivial)
    | (with_reducible apply Upd.ite)
    | (with_reducible apply Upd.bump; decide)
    | (with_reducible apply State.chFlag_upd; decide)
    | (with_reducible apply State.frameOpened_upd; decide)
    | (with_reducible apply State.fsMatch_upd; decide)
    | (with_reducible apply Upd.inc; decide)
    | (with_reducible apply Upd.set; decide)
    | (with_reducible apply Upd.fst; assumption)
    | simp (disch := first | decide | rfl | (apply And.intro <;> first | decide | rfl | (apply And.intro <;> rfl))) only [Upd.mk1_iff, Upd.frames_iff, Upd.syn_iff, Upd.pipe_iff, Upd.blankets_iff, Upd.ref_iff, Upd.egr_iff, Upd.job_iff, Upd.fab_iff, Upd.out_iff]
    | split

end Sys2Proof.Machine
end

