-- ==== Sys2Proof/Laws/UpdIngress.lean ====
section
/-! SUPPORT. What each operation of Machine/Ingress.lean may change (see Laws/Upd.lean). -/

set_option linter.unusedSimpArgs false
set_option linter.tactic.unusedName false

namespace Sys2Proof.Machine

theorem State.setPacket_upd (s : State) (n : Nat) (p : Packet) {W P : Nat} {r_ : State} (hm : (subMask 0x0 W && subMask 0x10 P) = true) (k_ : Upd W P r_ s) :
    Upd W P r_ (State.setPacket s n p) := by
  refine Upd.via (w := 0x0) (p := 0x10) ?_ hm k_
  clear hm k_
  unfold State.setPacket
  repeat' first
    | (with_reducible exact Upd.refl _)
    | with_reducible assumption
    | (extract_lets +onlyGivenNames z; refine Upd.cutU (z := z) ?_ (fun hz => ?_); subst z; rotate_left; clear_value z; all_goals have z := trivial)
    | (extract_lets +onlyGivenNames z; refine Upd.cutU (z := z.1) ?_ (fun hz => ?_); subst z; rotate_left; clear_value z; all_goals have z := trivial)
    | (extract_lets +onlyGivenNames z; clear_value z; have z := trivial)
    | (with_reducible apply Upd.ite)
    | (with_reducible apply Upd.fst; assumption)
    | simp (disch := decide) only [Upd.mk1_iff, Upd.ing_iff]
    | split

theorem State.noPacket_upd (s : State) (n : Nat) {W P : Nat} {r_ : State} (hm : (subMask 0x0 W && subMask 0x10 P) = true) (k_ : Upd W P r_ s) :
    Upd W P r_ (State.noPacket s n) := by
  refine Upd.via (w := 0x0) (p := 0x10) ?_ hm k_
  clear hm k_
  unfold State.noPacket
  repeat' first
    | (with_reducible exact Upd.refl _)
    | with_reducible assumption
    | (extract_lets +onlyGivenNames z; refine Upd.cutU (z := z) ?_ (fun hz => ?_); subst z; rotate_left; clear_value z; all_goals have z := trivial)
    | (extract_lets +onlyGivenNames z; refine Upd.cutU (z := z.1) ?_ (fun hz => ?_); subst z; rotate_left; clear_value z; all_goals have z := trivial)
    | (extract_lets +onlyGivenNames z; clear_value z; have z := trivial)
    | (with_reducible apply Upd.ite)
    | (with_reducible apply Upd.fst; assumption)
    | simp (disch := decide) only [Upd.mk1_iff, Upd.ing_iff]
    | split

theorem State.discard_upd (s : State) (n : Nat) {W P : Nat} {r_ : State} (hm : (subMask 0x100000 W && subMask 0x0 P) = true) (k_ : Upd W P r_ s) :
    Upd W P r_ (State.discard s n) := by
  refine Upd.via (w := 0x100000) (p := 0x0) ?_ hm k_
  clear hm k_
  unfold State.discard
  repeat' first
    | (with_reducible exact Upd.refl _)
    | with_reducible assumption
    | (extract_lets +onlyGivenNames z; refine Upd.cutU (z := z) ?_ (fun hz => ?_); subst z; rotate_left; clear_value z; all_goals have z := trivial)
    | (extract_lets +onlyGivenNames z; refine Upd.cutU (z := z.1) ?_ (fun hz => ?_); subst z; rotate_left; clear_value z; all_goals have z := trivial)
    | (extract_lets +onlyGivenNames z; clear_value z; have z := trivial)
    | (with_reducible apply Upd.ite)
    | (with_reducible apply Upd.inc; decide)
    | (with_reducible apply Upd.fst; assumption)
    | simp (disch := decide) only [Upd.mk1_iff]
    | split

theorem State.switchPoint_upd (s : State) (c : Nat) {W P : Nat} {r_ : State} (hm : (subMask 0x10000100020 W && subMask 0x40 P) = true) (k_ : Upd W P r_ s) :
    Upd W P r_ (State.switchPoint s c) := by
  refine Upd.via (w := 0x10000100020) (p := 0x40) ?_ hm k_
  clear hm k_
  unfold State.switchPoint
  repeat' first
    | (with_reducible exact Upd.refl _)
    | with_reducible assumption
    | (extract_lets +onlyGivenNames z; refine Upd.cutU (z := z) ?_ (fun hz => ?_); subst z; rotate_left; clear_value z; all_goals have z := trivial)
    | (extract_lets +onlyGivenNames z; refine Upd.cutU (z := z.1) ?_ (fun hz => ?_); subst z; rotate_left; clear_value z; all_goals have z := trivial)
    | (extract_lets +onlyGivenNames z; clear_value z; have z := trivial)
    | (with_reducible apply Upd.ite)
    | (with_reducible apply State.applyShadow_upd; decide)
    | (with_reducible apply State.landBank_upd; decide)
    | (with_reducible apply Upd.set; decide)
    | (with_reducible apply Upd.fst; assumption)
    | simp (disch := decide) only [Upd.mk1_iff, Upd.pipe_iff]
    | split

theorem State.fsStep4_upd (s : State) (c : Nat) {W P : Nat} {r_ : State} (hm : (subMask 0x10000100021 W && subMask 0x10004a P) = true) (k_ : Upd W P r_ s) :
    Upd W P r_ (State.fsStep4 s c) := by
  refine Upd.via (w := 0x10000100021) (p := 0x10004a) ?_ hm k_
  clear hm k_
  unfold State.fsStep4
  repeat' first
    | (with_reducible exact Upd.refl _)
    | with_reducible assumption
    | (extract_lets +onlyGivenNames z; refine Upd.cutU (z := z) ?_ (fun hz => ?_); subst z; rotate_left; clear_value z; all_goals have z := trivial)
    | (extract_lets +onlyGivenNames z; refine Upd.cutU (z := z.1) ?_ (fun hz => ?_); subst z; rotate_left; clear_value z; all_goals have z := trivial)
    | (extract_lets +onlyGivenNames z; clear_value z; have z := trivial)
    | (with_reducible apply Upd.ite)
    | (with_reducible apply State.applyShadow_upd; decide)
    | (with_reducible apply State.closeFrame_upd; decide)
    | (with_reducible apply State.switchPoint_upd; decide)
    | (with_reducible apply Upd.fst; assumption)
    | simp (disch := decide) only [Upd.mk1_iff, Upd.frames_iff, Upd.pipe_iff, Upd.out_iff]
    | split

theorem State.fsRule_upd (s : State) (c : Nat) (e : Nat) (fn : Nat) {W P : Nat} {r_ : State} (hm : (subMask 0x1010a0011010001100021 W && subMask 0x10c5ea P) = true) (k_ : Upd W P r_ s) :
    Upd W P r_ (State.fsRule s c e fn) := by
  refine Upd.via (w := 0x1010a0011010001100021) (p := 0x10c5ea) ?_ hm k_
  clear hm k_
  unfold State.fsRule
  repeat' first
    | (with_reducible exact Upd.refl _)
    | with_reducible assumption
    | (extract_lets +onlyGivenNames z; refine Upd.cutU (z := z) ?_ (fun hz => ?_); subst z; rotate_left; clear_value z; all_goals have z := trivial)
    | (extract_lets +onlyGivenNames z; refine Upd.cutU (z := z.1) ?_ (fun hz => ?_); subst z; rotate_left; clear_value z; all_goals have z := trivial)
    | (extract_lets +onlyGivenNames z; clear_value z; have z := trivial)
    | (with_reducible apply Upd.ite)
    | (with_reducible apply State.discard_upd; decide)
    | (with_reducible apply State.onOpen_upd; decide)
    | (with_reducible apply State.openAt_upd; decide)
    | (with_reducible apply Upd.set; decide)
    | (with_reducible apply Upd.fst; assumption)
    | simp (disch := first | decide | rfl | (apply And.intro <;> first | decide | rfl | (apply And.intro <;> rfl))) only [Upd.mk1_iff, Upd.frames_iff, Upd.syn_iff, Upd.pipe_iff, Upd.blankets_iff, Upd.ref_iff, Upd.egr_iff, Upd.job_iff, Upd.fab_iff, Upd.out_iff]
    | split

theorem State.feRule_upd (s : State) (c : Nat) (e : Nat) {W P : Nat} {r_ : State} (hm : (subMask 0x100001 W && subMask 0x10000a P) = true) (k_ : Upd W P r_ s) :
    Upd W P r_ (State.feRule s c e) := by
  refine Upd.via (w := 0x100001) (p := 0x10000a) ?_ hm k_
  clear hm k_
  unfold State.feRule
  repeat' first
    | (with_reducible exact Upd.refl _)
    | with_reducible assumption
    | (extract_lets +onlyGivenNames z; refine Upd.cutU (z := z) ?_ (fun hz => ?_); subst z; rotate_left; clear_value z; all_goals have z := trivial)
    | (extract_lets +onlyGivenNames z; refine Upd.cutU (z := z.1) ?_ (fun hz => ?_); subst z; rotate_left; clear_value z; all_goals have z := trivial)
    | (extract_lets +onlyGivenNames z; clear_value z; have z := trivial)
    | (with_reducible apply Upd.ite)
    | (with_reducible apply State.closeFrame_upd; decide)
    | (with_reducible apply State.discard_upd; decide)
    | (with_reducible apply State.onOpen_upd; decide)
    | (with_reducible apply Upd.fst; assumption)
    | simp (disch := decide) only [Upd.mk1_iff, Upd.frames_iff, Upd.out_iff]
    | split

theorem State.lsRule_upd (s : State) (c : Nat) (e : Nat) (num : Nat) {W P : Nat} {r_ : State} (hm : (subMask 0x100001 W && subMask 0x10000a P) = true) (k_ : Upd W P r_ s) :
    Upd W P r_ (State.lsRule s c e num) := by
  refine Upd.via (w := 0x100001) (p := 0x10000a) ?_ hm k_
  clear hm k_
  unfold State.lsRule
  repeat' first
    | (with_reducible exact Upd.refl _)
    | with_reducible assumption
    | (extract_lets +onlyGivenNames z; refine Upd.cutU (z := z) ?_ (fun hz => ?_); subst z; rotate_left; clear_value z; all_goals have z := trivial)
    | (extract_lets +onlyGivenNames z; refine Upd.cutU (z := z.1) ?_ (fun hz => ?_); subst z; rotate_left; clear_value z; all_goals have z := trivial)
    | (extract_lets +onlyGivenNames z; clear_value z; have z := trivial)
    | (with_reducible apply Upd.ite)
    | (with_reducible apply State.flagOpen_upd; decide)
    | (with_reducible apply State.onOpen_upd; decide)
    | (with_reducible apply Upd.fst; assumption)
    | simp (disch := decide) only [Upd.mk1_iff, Upd.frames_iff, Upd.out_iff]
    | split

theorem State.passLine_upd (s : State) (c : Nat) (e : Nat) (no : Nat) {W P : Nat} {r_ : State} (hm : (subMask 0x0 W && subMask 0x8 P) = true) (k_ : Upd W P r_ s) :
    Upd W P r_ (State.passLine s c e no) := by
  refine Upd.via (w := 0x0) (p := 0x8) ?_ hm k_
  clear hm k_
  unfold State.passLine
  repeat' first
    | (with_reducible exact Upd.refl _)
    | with_reducible assumption
    | (extract_lets +onlyGivenNames z; refine Upd.cutU (z := z) ?_ (fun hz => ?_); subst z; rotate_left; clear_value z; all_goals have z := trivial)
    | (extract_lets +onlyGivenNames z; refine Upd.cutU (z := z.1) ?_ (fun hz => ?_); subst z; rotate_left; clear_value z; all_goals have z := trivial)
    | (extract_lets +onlyGivenNames z; clear_value z; have z := trivial)
    | (with_reducible apply Upd.ite)
    | (with_reducible apply State.onOpen_upd; decide)
    | (with_reducible apply Upd.fst; assumption)
    | simp (disch := decide) only [Upd.mk1_iff, Upd.frames_iff]
    | split

theorem State.missLine_upd (s : State) (c : Nat) (e : Nat) (no : Nat) {W P : Nat} {r_ : State} (hm : (subMask 0x100001 W && subMask 0x10000a P) = true) (k_ : Upd W P r_ s) :
    Upd W P r_ (State.missLine s c e no) := by
  refine Upd.via (w := 0x100001) (p := 0x10000a) ?_ hm k_
  clear hm k_
  unfold State.missLine
  repeat' first
    | (with_reducible exact Upd.refl _)
    | with_reducible assumption
    | (extract_lets +onlyGivenNames z; refine Upd.cutU (z := z) ?_ (fun hz => ?_); subst z; rotate_left; clear_value z; all_goals have z := trivial)
    | (extract_lets +onlyGivenNames z; refine Upd.cutU (z := z.1) ?_ (fun hz => ?_); subst z; rotate_left; clear_value z; all_goals have z := trivial)
    | (extract_lets +onlyGivenNames z; clear_value z; have z := trivial)
    | (with_reducible apply Upd.ite)
    | (with_reducible apply State.flagOpen_upd; decide)
    | (with_reducible apply State.passLine_upd; decide)
    | (with_reducible apply Upd.fst; assumption)
    | simp (disch := decide) only [Upd.mk1_iff, Upd.frames_iff, Upd.out_iff]
    | split

theorem State.lineRule_upd (s : State) (c : Nat) (e : Nat) (dt : Nat) {W P : Nat} {r_ : State} (hm : (subMask 0x100001 W && subMask 0x10000a P) = true) (k_ : Upd W P r_ s) :
    Upd W P r_ (State.lineRule s c e dt).1 := by
  refine Upd.via (w := 0x100001) (p := 0x10000a) ?_ hm k_
  clear hm k_
  unfold State.lineRule
  repeat' first
    | (with_reducible exact Upd.refl _)
    | with_reducible assumption
    | (extract_lets +onlyGivenNames z; refine Upd.cutU (z := z) ?_ (fun hz => ?_); subst z; rotate_left; clear_value z; all_goals have z := trivial)
    | (extract_lets +onlyGivenNames z; refine Upd.cutU (z := z.1) ?_ (fun hz => ?_); subst z; rotate_left; clear_value z; all_goals have z := trivial)
    | (extract_lets +onlyGivenNames z; clear_value z; have z := trivial)
    | (with_reducible apply Upd.ite)
    | (with_reducible apply Upd.iteFst)
    | (with_reducible apply State.discard_upd; decide)
    | (with_reducible apply State.flagOpen_upd; decide)
    | (with_reducible apply State.missLine_upd; decide)
    | (with_reducible apply State.onOpen_upd; decide)
    | (with_reducible apply State.passLine_upd; decide)
    | (with_reducible apply State.queueEvent_upd; decide)
    | (with_reducible apply Upd.set; decide)
    | (with_reducible apply Upd.fst; assumption)
    | simp (disch := decide) only [Upd.mk1_iff, Upd.frames_iff, Upd.out_iff]
    | split

theorem State.headerChecks_upd (s : State) (n : Nat) (p : Packet) (ecc : Nat) {W P : Nat} {r_ : State} (hm : (subMask 0x1010a0011010001100021 W && subMask 0x10c5ea P) = true) (k_ : Upd W P r_ s) :
    Upd W P r_ (State.headerChecks s n p ecc).1 := by
  refine Upd.via (w := 0x1010a0011010001100021) (p := 0x10c5ea) ?_ hm k_
  clear hm k_
  unfold State.headerChecks
  repeat' first
    | (with_reducible exact Upd.refl _)
    | with_reducible assumption
    | (extract_lets +onlyGivenNames z; refine Upd.cutU (z := z) ?_ (fun hz => ?_); subst z; rotate_left; clear_value z; all_goals have z := trivial)
    | (extract_lets +onlyGivenNames z; refine Upd.cutU (z := z.1) ?_ (fun hz => ?_); subst z; rotate_left; clear_value z; all_goals have z := trivial)
    | (extract_lets +onlyGivenNames z; clear_value z; have z := trivial)
    | (with_reducible apply Upd.ite)
    | (with_reducible apply Upd.iteFst)
    | (with_reducible apply State.discard_upd; decide)
    | (with_reducible apply State.feRule_upd; decide)
    | (with_reducible apply State.flagOpen_upd; decide)
    | (with_reducible apply State.fsRule_upd; decide)
    | (with_reducible apply State.fsStep4_upd; decide)
    | (with_reducible apply Upd.inc; decide)
    | (with_reducible apply State.lineRule_upd; decide)
    | (with_reducible apply State.lsRule_upd; decide)
    | (with_reducible apply Upd.fst; assumption)
    | simp (disch := first | decide | rfl | (apply And.intro <;> first | decide | rfl | (apply And.intro <;> rfl))) only [Upd.mk1_iff, Upd.frames_iff, Upd.syn_iff, Upd.pipe_iff, Upd.blankets_iff, Upd.ref_iff, Upd.egr_iff, Upd.job_iff, Upd.fab_iff, Upd.out_iff]
    | split

theorem State.storeBytes_upd (s : State) (n : Nat) (p : Packet) {W P : Nat} {r_ : State} (hm : (subMask 0x1100001 W && subMask 0x10000a P) = true) (k_ : Upd W P r_ s) :
    Upd W P r_ (State.storeBytes s n p).1 := by
  refine Upd.via (w := 0x1100001) (p := 0x10000a) ?_ hm k_
  clear hm k_
  unfold State.storeBytes
  repeat' first
    | (with_reducible exact Upd.refl _)
    | with_reducible assumption
    | (extract_lets +onlyGivenNames z; refine Upd.cutU (z := z) ?_ (fun hz => ?_); subst z; rotate_left; clear_value z; all_goals have z := trivial)
    | (extract_lets +onlyGivenNames z; refine Upd.cutU (z := z.1) ?_ (fun hz => ?_); subst z; rotate_left; clear_value z; all_goals have z := trivial)
    | (extract_lets +onlyGivenNames z; have _t : State → _ := z; clear _t; subst z; have z := trivial)
    | (extract_lets +onlyGivenNames z; have _t : _ → State := z; clear _t; subst z; have z := trivial)
    | (extract_lets +onlyGivenNames z; have _t : _ → _ → State := z; clear _t; subst z; have z := trivial)
    | (extract_lets +onlyGivenNames z; clear_value z; have z := trivial)
    | (with_reducible apply Upd.ite)
    | (with_reducible apply Upd.iteFst)
    | (with_reducible apply State.onOpen_upd; decide)
    | (with_reducible apply State.queueEvent_upd; decide)
    | (with_reducible apply State.relevel_upd; decide)
    | (with_reducible apply Upd.set; decide)
    | (with_reducible apply Upd.fst; assumption)
    | simp (disch := decide) only [Upd.mk1_iff, Upd.frames_iff, Upd.out_iff]
    | split

theorem State.crcError_upd (s : State) (c : Nat) {W P : Nat} {r_ : State} (hm : (subMask 0x100001 W && subMask 0x10000a P) = true) (k_ : Upd W P r_ s) :
    Upd W P r_ (State.crcError s c) := by
  refine Upd.via (w := 0x100001) (p := 0x10000a) ?_ hm k_
  clear hm k_
  unfold State.crcError
  repeat' first
    | (with_reducible exact Upd.refl _)
    | with_reducible assumption
    | (extract_lets +onlyGivenNames z; refine Upd.cutU (z := z) ?_ (fun hz => ?_); subst z; rotate_left; clear_value z; all_goals have z := trivial)
    | (extract_lets +onlyGivenNames z; refine Upd.cutU (z := z.1) ?_ (fun hz => ?_); subst z; rotate_left; clear_value z; all_goals have z := trivial)
    | (extract_lets +onlyGivenNames z; clear_value z; have z := trivial)
    | (with_reducible apply Upd.ite)
    | (with_reducible apply State.flagOpen_upd; decide)
    | (with_reducible apply Upd.inc; decide)
    | (with_reducible apply Upd.fst; assumption)
    | simp (disch := decide) only [Upd.mk1_iff, Upd.frames_iff, Upd.out_iff]
    | split

theorem State.endLine_upd (s : State) (n : Nat) (p : Packet) (no : Nat) (keep : Nat) (crc : Bool) {W P : Nat} {r_ : State} (hm : (subMask 0x1100001 W && subMask 0x10000a P) = true) (k_ : Upd W P r_ s) :
    Upd W P r_ (State.endLine s n p no keep crc) := by
  refine Upd.via (w := 0x1100001) (p := 0x10000a) ?_ hm k_
  clear hm k_
  unfold State.endLine
  repeat' first
    | (with_reducible exact Upd.refl _)
    | with_reducible assumption
    | (extract_lets +onlyGivenNames z; refine Upd.cutU (z := z) ?_ (fun hz => ?_); subst z; rotate_left; clear_value z; all_goals have z := trivial)
    | (extract_lets +onlyGivenNames z; refine Upd.cutU (z := z.1) ?_ (fun hz => ?_); subst z; rotate_left; clear_value z; all_goals have z := trivial)
    | (extract_lets +onlyGivenNames z; clear_value z; have z := trivial)
    | (with_reducible apply Upd.ite)
    | (with_reducible apply State.crcError_upd; decide)
    | (with_reducible apply State.flagOpen_upd; decide)
    | (with_reducible apply State.onOpen_upd; decide)
    | (with_reducible apply State.relevel_upd; decide)
    | (with_reducible apply Upd.fst; assumption)
    | simp (disch := decide) only [Upd.mk1_iff, Upd.frames_iff, Upd.out_iff]
    | split

theorem State.endPacket_upd (s : State) (n : Nat) (p : Packet) (cut : Bool) (crcBad : Bool) {W P : Nat} {r_ : State} (hm : (subMask 0x1100001 W && subMask 0x10001a P) = true) (k_ : Upd W P r_ s) :
    Upd W P r_ (State.endPacket s n p cut crcBad) := by
  refine Upd.via (w := 0x1100001) (p := 0x10001a) ?_ hm k_
  clear hm k_
  unfold State.endPacket
  repeat' first
    | (with_reducible exact Upd.refl _)
    | with_reducible assumption
    | (extract_lets +onlyGivenNames z; refine Upd.cutU (z := z) ?_ (fun hz => ?_); subst z; rotate_left; clear_value z; all_goals have z := trivial)
    | (extract_lets +onlyGivenNames z; refine Upd.cutU (z := z.1) ?_ (fun hz => ?_); subst z; rotate_left; clear_value z; all_goals have z := trivial)
    | (extract_lets +onlyGivenNames z; clear_value z; have z := trivial)
    | (with_reducible apply Upd.ite)
    | (with_reducible apply Upd.add; decide)
    | (with_reducible apply State.crcError_upd; decide)
    | (with_reducible apply State.discard_upd; decide)
    | (with_reducible apply State.endLine_upd; decide)
    | (with_reducible apply State.noPacket_upd; decide)
    | (with_reducible apply State.onOpen_upd; decide)
    | (with_reducible apply Upd.fst; assumption)
    | simp (disch := decide) only [Upd.mk1_iff, Upd.frames_iff, Upd.ing_iff, Upd.out_iff]
    | split

theorem State.cutPacket_upd (s : State) (n : Nat) {W P : Nat} {r_ : State} (hm : (subMask 0x1100001 W && subMask 0x10001a P) = true) (k_ : Upd W P r_ s) :
    Upd W P r_ (State.cutPacket s n) := by
  refine Upd.via (w := 0x1100001) (p := 0x10001a) ?_ hm k_
  clear hm k_
  unfold State.cutPacket
  repeat' first
    | (with_reducible exact Upd.refl _)
    | with_reducible assumption
    | (extract_lets +onlyGivenNames z; refine Upd.cutU (z := z) ?_ (fun hz => ?_); subst z; rotate_left; clear_value z; all_goals have z := trivial)
    | (extract_lets +onlyGivenNames z; refine Upd.cutU (z := z.1) ?_ (fun hz => ?_); subst z; rotate_left; clear_value z; all_goals have z := trivial)
    | (extract_lets +onlyGivenNames z; clear_value z; have z := trivial)
    | (with_reducible apply Upd.ite)
    | (with_reducible apply State.endPacket_upd; decide)
    | (with_reducible apply Upd.fst; assumption)
    | simp (disch := decide) only [Upd.mk1_iff, Upd.frames_iff, Upd.ing_iff, Upd.out_iff]
    | split

theorem State.loseQueue_upd (s : State) (n : Nat) (flags : List Nat) (openToo : Bool) {W P : Nat} {r_ : State} (hm : (subMask 0x100001 W && subMask 0x10000a P) = true) (k_ : Upd W P r_ s) :
    Upd W P r_ (State.loseQueue s n flags openToo) := by
  refine Upd.via (w := 0x100001) (p := 0x10000a) ?_ hm k_
  clear hm k_
  unfold State.loseQueue
  repeat' first
    | (with_reducible apply Upd.foldl; intro _ _)
    | (with_reducible apply Upd.foldlFst; intro _ _)
    | (with_reducible exact Upd.refl _)
    | with_reducible assumption
    | (extract_lets +onlyGivenNames z; refine Upd.cutU (z := z) ?_ (fun hz => ?_); subst z; rotate_left; clear_value z; all_goals have z := trivial)
    | (extract_lets +onlyGivenNames z; refine Upd.cutU (z := z.1) ?_ (fun hz => ?_); subst z; rotate_left; clear_value z; all_goals have z := trivial)
    | (extract_lets +onlyGivenNames z; have _t : State → _ := z; clear _t; subst z; have z := trivial)
    | (extract_lets +onlyGivenNames z; have _t : _ → State := z; clear _t; subst z; have z := trivial)
    | (extract_lets +onlyGivenNames z; have _t : _ → _ → State := z; clear _t; subst z; have z := trivial)
    | (extract_lets +onlyGivenNames z; clear_value z; have z := trivial)
    | (with_reducible apply Upd.ite)
    | (with_reducible apply State.chFlag_upd; decide)
    | (with_reducible apply State.mapFrames_upd; decide)
    | (with_reducible apply Upd.fst; assumption)
    | simp (disch := decide) only [Upd.mk1_iff, Upd.frames_iff, Upd.out_iff]
    | split

theorem State.closeLane_upd (s : State) (n : Nat) {W P : Nat} {r_ : State} (hm : (subMask 0x100001 W && subMask 0x10000a P) = true) (k_ : Upd W P r_ s) :
    Upd W P r_ (State.closeLane s n) := by
  refine Upd.via (w := 0x100001) (p := 0x10000a) ?_ hm k_
  clear hm k_
  unfold State.closeLane
  repeat' first
    | (with_reducible apply Upd.foldl; intro _ _)
    | (with_reducible apply Upd.foldlFst; intro _ _)
    | (with_reducible exact Upd.refl _)
    | with_reducible assumption
    | (extract_lets +onlyGivenNames z; refine Upd.cutU (z := z) ?_ (fun hz => ?_); subst z; rotate_left; clear_value z; all_goals have z := trivial)
    | (extract_lets +onlyGivenNames z; refine Upd.cutU (z := z.1) ?_ (fun hz => ?_); subst z; rotate_left; clear_value z; all_goals have z := trivial)
    | (extract_lets +onlyGivenNames z; clear_value z; have z := trivial)
    | (with_reducible apply Upd.ite)
    | (with_reducible apply State.closeFrame_upd; decide)
    | (with_reducible apply Upd.fst; assumption)
    | simp (disch := decide) only [Upd.mk1_iff, Upd.frames_iff, Upd.out_iff]
    | split

theorem State.flushEffect_upd (s : State) (n : Nat) {W P : Nat} {r_ : State} (hm : (subMask 0x1100001 W && subMask 0x10000a P) = true) (k_ : Upd W P r_ s) :
    Upd W P r_ (State.flushEffect s n) := by
  refine Upd.via (w := 0x1100001) (p := 0x10000a) ?_ hm k_
  clear hm k_
  unfold State.flushEffect
  repeat' first
    | (with_reducible exact Upd.refl _)
    | with_reducible assumption
    | (extract_lets +onlyGivenNames z; refine Upd.cutU (z := z) ?_ (fun hz => ?_); subst z; rotate_left; clear_value z; all_goals have z := trivial)
    | (extract_lets +onlyGivenNames z; refine Upd.cutU (z := z.1) ?_ (fun hz => ?_); subst z; rotate_left; clear_value z; all_goals have z := trivial)
    | (extract_lets +onlyGivenNames z; clear_value z; have z := trivial)
    | (with_reducible apply Upd.ite)
    | (with_reducible apply State.closeLane_upd; decide)
    | (with_reducible apply State.loseQueue_upd; decide)
    | (with_reducible apply State.queueEvent_upd; decide)
    | (with_reducible apply State.relevel_upd; decide)
    | (with_reducible apply Upd.set; decide)
    | (with_reducible apply Upd.fst; assumption)
    | simp (disch := decide) only [Upd.mk1_iff, Upd.frames_iff, Upd.out_iff]
    | split

theorem State.cutAwaited_upd (s : State) (n : Nat) {W P : Nat} {r_ : State} (hm : (subMask 0x1100001 W && subMask 0x10001a P) = true) (k_ : Upd W P r_ s) :
    Upd W P r_ (State.cutAwaited s n) := by
  refine Upd.via (w := 0x1100001) (p := 0x10001a) ?_ hm k_
  clear hm k_
  unfold State.cutAwaited
  repeat' first
    | (with_reducible exact Upd.refl _)
    | with_reducible assumption
    | (extract_lets +onlyGivenNames z; refine Upd.cutU (z := z) ?_ (fun hz => ?_); subst z; rotate_left; clear_value z; all_goals have z := trivial)
    | (extract_lets +onlyGivenNames z; refine Upd.cutU (z := z.1) ?_ (fun hz => ?_); subst z; rotate_left; clear_value z; all_goals have z := trivial)
    | (extract_lets +onlyGivenNames z; clear_value z; have z := trivial)
    | (with_reducible apply Upd.ite)
    | (with_reducible apply State.cutPacket_upd; decide)
    | (with_reducible apply State.flushEffect_upd; decide)
    | (with_reducible apply Upd.fst; assumption)
    | simp (disch := decide) only [Upd.mk1_iff, Upd.frames_iff, Upd.ing_iff, Upd.out_iff]
    | split

theorem State.appendBytes_upd (s : State) (n : Nat) (p : Packet) (pl : List Nat) (ecc : Nat) {W P : Nat} {r_ : State} (hm : (subMask 0x1010a0011010001100021 W && subMask 0x10c5ea P) = true) (k_ : Upd W P r_ s) :
    Upd W P r_ (State.appendBytes s n p pl ecc).1 := by
  refine Upd.via (w := 0x1010a0011010001100021) (p := 0x10c5ea) ?_ hm k_
  clear hm k_
  unfold State.appendBytes
  repeat' first
    | (with_reducible exact Upd.refl _)
    | with_reducible assumption
    | (extract_lets +onlyGivenNames z; refine Upd.cutU (z := z) ?_ (fun hz => ?_); subst z; rotate_left; clear_value z; all_goals have z := trivial)
    | (extract_lets +onlyGivenNames z; refine Upd.cutU (z := z.1) ?_ (fun hz => ?_); subst z; rotate_left; clear_value z; all_goals have z := trivial)
    | (extract_lets +onlyGivenNames z; clear_value z; have z := trivial)
    | (with_reducible apply Upd.ite)
    | (with_reducible apply Upd.iteFst)
    | (with_reducible apply State.discard_upd; decide)
    | (with_reducible apply State.headerChecks_upd; decide)
    | (with_reducible apply Upd.fst; assumption)
    | simp (disch := first | decide | rfl | (apply And.intro <;> first | decide | rfl | (apply And.intro <;> rfl))) only [Upd.mk1_iff, Upd.frames_iff, Upd.syn_iff, Upd.pipe_iff, Upd.blankets_iff, Upd.ref_iff, Upd.egr_iff, Upd.job_iff, Upd.fab_iff, Upd.out_iff]
    | split

theorem State.reassemble_upd (s : State) (n : Nat) (seg : Segment) {W P : Nat} {r_ : State} (hm : (subMask 0x1010a0011010001100021 W && subMask 0x10c5fa P) = true) (k_ : Upd W P r_ s) :
    Upd W P r_ (State.reassemble s n seg) := by
  refine Upd.via (w := 0x1010a0011010001100021) (p := 0x10c5fa) ?_ hm k_
  clear hm k_
  unfold State.reassemble
  repeat' first
    | (with_reducible exact Upd.refl _)
    | with_reducible assumption
    | (extract_lets +onlyGivenNames z; refine Upd.cutU (z := z) ?_ (fun hz => ?_); subst z; rotate_left; clear_value z; all_goals have z := trivial)
    | (extract_lets +onlyGivenNames z; refine Upd.cutU (z := z.1) ?_ (fun hz => ?_); subst z; rotate_left; clear_value z; all_goals have z := trivial)
    | (extract_lets +onlyGivenNames z; have _t : State → _ := z; clear _t; subst z; have z := trivial)
    | (extract_lets +onlyGivenNames z; have _t : _ → State := z; clear _t; subst z; have z := trivial)
    | (extract_lets +onlyGivenNames z; have _t : _ → _ → State := z; clear _t; subst z; have z := trivial)
    | (extract_lets +onlyGivenNames z; clear_value z; have z := trivial)
    | (with_reducible apply Upd.ite)
    | (with_reducible apply State.appendBytes_upd; decide)
    | (with_reducible apply State.cutAwaited_upd; decide)
    | (with_reducible apply State.cutPacket_upd; decide)
    | (with_reducible apply State.discard_upd; decide)
    | (with_reducible apply State.endPacket_upd; decide)
    | (with_reducible apply State.setPacket_upd; decide)
    | (with_reducible apply State.storeBytes_upd; decide)
    | (with_reducible apply Upd.fst; assumption)
    | simp (disch := first | decide | rfl | (apply And.intro <;> first | decide | rfl | (apply And.intro <;> rfl))) only [Upd.mk1_iff, Upd.frames_iff, Upd.ing_iff, Upd.syn_iff, Upd.pipe_iff, Upd.blankets_iff, Upd.ref_iff, Upd.egr_iff, Upd.job_iff, Upd.fab_iff, Upd.out_iff]
    | split

theorem State.segSequence_upd (s : State) (n : Nat) (seq : Nat) {W P : Nat} {r_ : State} (hm : (subMask 0x1100001 W && subMask 0x10001a P) = true) (k_ : Upd W P r_ s) :
    Upd W P r_ (State.segSequence s n seq) := by
  refine Upd.via (w := 0x1100001) (p := 0x10001a) ?_ hm k_
  clear hm k_
  unfold State.segSequence
  repeat' first
    | (with_reducible exact Upd.refl _)
    | with_reducible assumption
    | (extract_lets +onlyGivenNames z; refine Upd.cutU (z := z) ?_ (fun hz => ?_); subst z; rotate_left; clear_value z; all_goals have z := trivial)
    | (extract_lets +onlyGivenNames z; refine Upd.cutU (z := z.1) ?_ (fun hz => ?_); subst z; rotate_left; clear_value z; all_goals have z := trivial)
    | (extract_lets +onlyGivenNames z; clear_value z; have z := trivial)
    | (with_reducible apply Upd.ite)
    | (with_reducible apply Upd.add; decide)
    | (with_reducible apply State.cutAwaited_upd; decide)
    | (with_reducible apply Upd.set; decide)
    | (with_reducible apply Upd.fst; assumption)
    | simp (disch := decide) only [Upd.mk1_iff, Upd.frames_iff, Upd.ing_iff, Upd.out_iff]
    | split

theorem State.flushAfter_upd (s : State) (n : Nat) (bytes : Nat) {W P : Nat} {r_ : State} (hm : (subMask 0x1100001 W && subMask 0x10001a P) = true) (k_ : Upd W P r_ s) :
    Upd W P r_ (State.flushAfter s n bytes) := by
  refine Upd.via (w := 0x1100001) (p := 0x10001a) ?_ hm k_
  clear hm k_
  unfold State.flushAfter
  repeat' first
    | (with_reducible exact Upd.refl _)
    | with_reducible assumption
    | (extract_lets +onlyGivenNames z; refine Upd.cutU (z := z) ?_ (fun hz => ?_); subst z; rotate_left; clear_value z; all_goals have z := trivial)
    | (extract_lets +onlyGivenNames z; refine Upd.cutU (z := z.1) ?_ (fun hz => ?_); subst z; rotate_left; clear_value z; all_goals have z := trivial)
    | (extract_lets +onlyGivenNames z; clear_value z; have z := trivial)
    | (with_reducible apply Upd.ite)
    | (with_reducible apply Upd.add; decide)
    | (with_reducible apply State.cutPacket_upd; decide)
    | (with_reducible apply State.flushEffect_upd; decide)
    | (with_reducible apply State.queueEvent_upd; decide)
    | (with_reducible apply Upd.fst; assumption)
    | simp (disch := decide) only [Upd.mk1_iff, Upd.frames_iff, Upd.ing_iff, Upd.out_iff]
    | split

theorem execSegmentReceived_upd (lane : Nat) (seg : Segment) (s : State) {W P : Nat} (hm : (subMask 0x1010a0011010001110021 W && subMask 0x10c5fa P) = true) :
    NextUpd W P s (execSegmentReceived lane seg s) := by
  refine NextUpd.mono (w := 0x1010a0011010001110021) (p := 0x10c5fa) ?_ hm
  unfold execSegmentReceived
  repeat' first
    | (with_reducible exact Upd.refl _)
    | with_reducible assumption
    | (extract_lets +onlyGivenNames z; refine Upd.cutU (z := z) ?_ (fun hz => ?_); subst z; rotate_left; clear_value z; all_goals have z := trivial)
    | (extract_lets +onlyGivenNames z; refine Upd.cutU (z := z.1) ?_ (fun hz => ?_); subst z; rotate_left; clear_value z; all_goals have z := trivial)
    | (extract_lets +onlyGivenNames z; refine NextUpd.cutU (z := z) ?_ (fun hz => ?_); subst z; rotate_left; clear_value z; all_goals have z := trivial)
    | (extract_lets +onlyGivenNames z; refine NextUpd.cutU (z := z.1) ?_ (fun hz => ?_); subst z; rotate_left; clear_value z; all_goals have z := trivial)
    | (extract_lets +onlyGivenNames z; clear_value z; have z := trivial)
    | (with_reducible apply NextUpd.next)
    | (with_reducible apply NextUpd.ite)
    | (with_reducible apply Upd.ite)
    | (with_reducible apply State.discard_upd; decide)
    | (with_reducible apply State.flushAfter_upd; decide)
    | (with_reducible apply Upd.inc; decide)
    | (with_reducible apply State.lanePayload_upd; decide)
    | (with_reducible apply State.noteEligible_upd; decide)
    | (with_reducible apply State.reassemble_upd; decide)
    | (with_reducible apply State.segSequence_upd; decide)
    | (with_reducible apply Upd.fst; assumption)
    | simp (disch := first | decide | rfl | (apply And.intro <;> first | decide | rfl | (apply And.intro <;> rfl))) only [Upd.mk1_iff, Upd.frames_iff, Upd.ing_iff, Upd.syn_iff, Upd.pipe_iff, Upd.blankets_iff, Upd.ref_iff, Upd.egr_iff, Upd.job_iff, Upd.fab_iff, Upd.out_iff]
    | split

theorem execFlushLimit_upd (lane : Nat) (s : State) {W P : Nat} (hm : (subMask 0x1100001 W && subMask 0x10001a P) = true) :
    NextUpd W P s (execFlushLimit lane s) := by
  refine NextUpd.mono (w := 0x1100001) (p := 0x10001a) ?_ hm
  unfold execFlushLimit
  repeat' first
    | (with_reducible exact Upd.refl _)
    | with_reducible assumption
    | (extract_lets +onlyGivenNames z; refine Upd.cutU (z := z) ?_ (fun hz => ?_); subst z; rotate_left; clear_value z; all_goals have z := trivial)
    | (extract_lets +onlyGivenNames z; refine Upd.cutU (z := z.1) ?_ (fun hz => ?_); subst z; rotate_left; clear_value z; all_goals have z := trivial)
    | (extract_lets +onlyGivenNames z; refine NextUpd.cutU (z := z) ?_ (fun hz => ?_); subst z; rotate_left; clear_value z; all_goals have z := trivial)
    | (extract_lets +onlyGivenNames z; refine NextUpd.cutU (z := z.1) ?_ (fun hz => ?_); subst z; rotate_left; clear_value z; all_goals have z := trivial)
    | (extract_lets +onlyGivenNames z; clear_value z; have z := trivial)
    | (with_reducible apply NextUpd.next)
    | (with_reducible apply NextUpd.ite)
    | (with_reducible apply Upd.ite)
    | (with_reducible apply State.cutPacket_upd; decide)
    | (with_reducible apply State.flushEffect_upd; decide)
    | (with_reducible apply State.queueEvent_upd; decide)
    | (with_reducible apply Upd.fst; assumption)
    | simp (disch := decide) only [Upd.mk1_iff, Upd.frames_iff, Upd.ing_iff, Upd.out_iff]
    | split

theorem effQueueFlush_upd (lane : Nat) (s : State) {W P : Nat} {r_ : State} (hm : (subMask 0x1100001 W && subMask 0x10000a P) = true) (k_ : Upd W P r_ s) :
    Upd W P r_ (effQueueFlush lane s) := by
  refine Upd.via (w := 0x1100001) (p := 0x10000a) ?_ hm k_
  clear hm k_
  unfold effQueueFlush
  repeat' first
    | (with_reducible exact Upd.refl _)
    | with_reducible assumption
    | (extract_lets +onlyGivenNames z; refine Upd.cutU (z := z) ?_ (fun hz => ?_); subst z; rotate_left; clear_value z; all_goals have z := trivial)
    | (extract_lets +onlyGivenNames z; refine Upd.cutU (z := z.1) ?_ (fun hz => ?_); subst z; rotate_left; clear_value z; all_goals have z := trivial)
    | (extract_lets +onlyGivenNames z; clear_value z; have z := trivial)
    | (with_reducible apply Upd.ite)
    | (with_reducible apply State.flushEffect_upd; decide)
    | (with_reducible apply Upd.set; decide)
    | (with_reducible apply Upd.fst; assumption)
    | simp (disch := decide) only [Upd.mk1_iff, Upd.frames_iff, Upd.out_iff]
    | split

theorem execQueueFlush_upd (lane : Nat) (src : Src) (s : State) {W P : Nat} (hm : (subMask 0x100000000001100001 W && subMask 0x140c0b P) = true) :
    NextUpd W P s (execQueueFlush lane src s) := by
  refine NextUpd.mono (w := 0x100000000001100001) (p := 0x140c0b) ?_ hm
  unfold execQueueFlush
  repeat' first
    | (with_reducible exact Upd.refl _)
    | with_reducible assumption
    | (extract_lets +onlyGivenNames z; refine Upd.cutU (z := z) ?_ (fun hz => ?_); subst z; rotate_left; clear_value z; all_goals have z := trivial)
    | (extract_lets +onlyGivenNames z; refine Upd.cutU (z := z.1) ?_ (fun hz => ?_); subst z; rotate_left; clear_value z; all_goals have z := trivial)
    | (extract_lets +onlyGivenNames z; refine NextUpd.cutU (z := z) ?_ (fun hz => ?_); subst z; rotate_left; clear_value z; all_goals have z := trivial)
    | (extract_lets +onlyGivenNames z; refine NextUpd.cutU (z := z.1) ?_ (fun hz => ?_); subst z; rotate_left; clear_value z; all_goals have z := trivial)
    | (extract_lets +onlyGivenNames z; clear_value z; have z := trivial)
    | (with_reducible apply NextUpd.next)
    | (with_reducible apply NextUpd.ite)
    | (with_reducible apply Upd.ite)
    | (with_reducible apply State.answer_upd; decide)
    | (with_reducible apply effQueueFlush_upd; decide)
    | (with_reducible apply Upd.fst; assumption)
    | simp (disch := first | decide | rfl | (apply And.intro <;> first | decide | rfl | (apply And.intro <;> rfl))) only [Upd.mk1_iff, Upd.frames_iff, Upd.egr_iff, Upd.brg_iff, Upd.mgt_iff, Upd.out_iff]
    | split

theorem execPointerMismatch_upd (lane : Nat) (s : State) {W P : Nat} (hm : (subMask 0x1100001 W && subMask 0x10001a P) = true) :
    NextUpd W P s (execPointerMismatch lane s) := by
  refine NextUpd.mono (w := 0x1100001) (p := 0x10001a) ?_ hm
  unfold execPointerMismatch
  repeat' first
    | (with_reducible apply Upd.foldlSet; decide)
    | ((with_reducible apply Upd.foldlPair); simp only [List.all_cons, List.all_nil]; decide)
    | (with_reducible apply Upd.foldl; intro _ _)
    | (with_reducible apply Upd.foldlFst; intro _ _)
    | (with_reducible exact Upd.refl _)
    | with_reducible assumption
    | (extract_lets +onlyGivenNames z; refine Upd.cutU (z := z) ?_ (fun hz => ?_); subst z; rotate_left; clear_value z; all_goals have z := trivial)
    | (extract_lets +onlyGivenNames z; refine Upd.cutU (z := z.1) ?_ (fun hz => ?_); subst z; rotate_left; clear_value z; all_goals have z := trivial)
    | (extract_lets +onlyGivenNames z; refine NextUpd.cutU (z := z) ?_ (fun hz => ?_); subst z; rotate_left; clear_value z; all_goals have z := trivial)
    | (extract_lets +onlyGivenNames z; refine NextUpd.cutU (z := z.1) ?_ (fun hz => ?_); subst z; rotate_left; clear_value z; all_goals have z := trivial)
    | (extract_lets +onlyGivenNames z; clear_value z; have z := trivial)
    | (with_reducible apply NextUpd.next)
    | (with_reducible apply NextUpd.ite)
    | (with_reducible apply Upd.ite)
    | (with_reducible apply State.closeLane_upd; decide)
    | (with_reducible apply Upd.inc; decide)
    | (with_reducible apply State.loseQueue_upd; decide)
    | (with_reducible apply State.noPacket_upd; decide)
    | (with_reducible apply State.queueEvent_upd; decide)
    | (with_reducible apply State.relevel_upd; decide)
    | (with_reducible apply Upd.set; decide)
    | (with_reducible apply Upd.fst; assumption)
    | simp (disch := decide) only [Upd.mk1_iff, Upd.frames_iff, Upd.ing_iff, Upd.out_iff]
    | split

theorem State.usmasCut_upd (s : State) (n : Nat) {W P : Nat} {r_ : State} (hm : (subMask 0x1100001 W && subMask 0x10001a P) = true) (k_ : Upd W P r_ s) :
    Upd W P r_ (State.usmasCut s n) := by
  refine Upd.via (w := 0x1100001) (p := 0x10001a) ?_ hm k_
  clear hm k_
  unfold State.usmasCut
  repeat' first
    | (with_reducible exact Upd.refl _)
    | with_reducible assumption
    | (extract_lets +onlyGivenNames z; refine Upd.cutU (z := z) ?_ (fun hz => ?_); subst z; rotate_left; clear_value z; all_goals have z := trivial)
    | (extract_lets +onlyGivenNames z; refine Upd.cutU (z := z.1) ?_ (fun hz => ?_); subst z; rotate_left; clear_value z; all_goals have z := trivial)
    | (extract_lets +onlyGivenNames z; clear_value z; have z := trivial)
    | (with_reducible apply Upd.ite)
    | (with_reducible apply State.closeLane_upd; decide)
    | (with_reducible apply State.cutPacket_upd; decide)
    | (with_reducible apply State.flushEffect_upd; decide)
    | (with_reducible apply Upd.set; decide)
    | (with_reducible apply Upd.fst; assumption)
    | simp (disch := decide) only [Upd.mk1_iff, Upd.frames_iff, Upd.ing_iff, Upd.out_iff]
    | split

theorem State.helloEval_upd (s : State) (n : Nat) (arg : List Nat) {W P : Nat} {r_ : State} (hm : (subMask 0x100001 W && subMask 0x100012 P) = true) (k_ : Upd W P r_ s) :
    Upd W P r_ (State.helloEval s n arg) := by
  refine Upd.via (w := 0x100001) (p := 0x100012) ?_ hm k_
  clear hm k_
  unfold State.helloEval
  repeat' first
    | (with_reducible exact Upd.refl _)
    | with_reducible assumption
    | (extract_lets +onlyGivenNames z; refine Upd.cutU (z := z) ?_ (fun hz => ?_); subst z; rotate_left; clear_value z; all_goals have z := trivial)
    | (extract_lets +onlyGivenNames z; refine Upd.cutU (z := z.1) ?_ (fun hz => ?_); subst z; rotate_left; clear_value z; all_goals have z := trivial)
    | (extract_lets +onlyGivenNames z; clear_value z; have z := trivial)
    | (with_reducible apply Upd.ite)
    | (with_reducible apply State.queueEvent_upd; decide)
    | (with_reducible apply Upd.set; decide)
    | (with_reducible apply Upd.fst; assumption)
    | simp (disch := decide) only [Upd.mk1_iff, Upd.ing_iff, Upd.out_iff]
    | split

theorem execHelloReceived_upd (lane : Nat) (hello : List Nat) (s : State) {W P : Nat} (hm : (subMask 0x1100001 W && subMask 0x10001a P) = true) :
    NextUpd W P s (execHelloReceived lane hello s) := by
  refine NextUpd.mono (w := 0x1100001) (p := 0x10001a) ?_ hm
  unfold execHelloReceived
  repeat' first
    | (with_reducible exact Upd.refl _)
    | with_reducible assumption
    | (extract_lets +onlyGivenNames z; refine Upd.cutU (z := z) ?_ (fun hz => ?_); subst z; rotate_left; clear_value z; all_goals have z := trivial)
    | (extract_lets +onlyGivenNames z; refine Upd.cutU (z := z.1) ?_ (fun hz => ?_); subst z; rotate_left; clear_value z; all_goals have z := trivial)
    | (extract_lets +onlyGivenNames z; refine NextUpd.cutU (z := z) ?_ (fun hz => ?_); subst z; rotate_left; clear_value z; all_goals have z := trivial)
    | (extract_lets +onlyGivenNames z; refine NextUpd.cutU (z := z.1) ?_ (fun hz => ?_); subst z; rotate_left; clear_value z; all_goals have z := trivial)
    | (extract_lets +onlyGivenNames z; clear_value z; have z := trivial)
    | (with_reducible apply NextUpd.next)
    | (with_reducible apply NextUpd.ite)
    | (with_reducible apply Upd.ite)
    | (with_reducible apply State.helloEval_upd; decide)
    | (with_reducible apply Upd.inc; decide)
    | (with_reducible apply Upd.set; decide)
    | (with_reducible apply State.usmasCut_upd; decide)
    | (with_reducible apply Upd.fst; assumption)
    | simp (disch := decide) only [Upd.mk1_iff, Upd.frames_iff, Upd.ing_iff, Upd.out_iff]
    | split

theorem execTrigAckReceived_upd (lane : Nat) (arg : List Nat) (s : State) {W P : Nat} (hm : (subMask 0x100000 W && subMask 0x0 P) = true) :
    NextUpd W P s (execTrigAckReceived lane arg s) := by
  refine NextUpd.mono (w := 0x100000) (p := 0x0) ?_ hm
  unfold execTrigAckReceived
  repeat' first
    | (with_reducible exact Upd.refl _)
    | with_reducible assumption
    | (extract_lets +onlyGivenNames z; refine Upd.cutU (z := z) ?_ (fun hz => ?_); subst z; rotate_left; clear_value z; all_goals have z := trivial)
    | (extract_lets +onlyGivenNames z; refine Upd.cutU (z := z.1) ?_ (fun hz => ?_); subst z; rotate_left; clear_value z; all_goals have z := trivial)
    | (extract_lets +onlyGivenNames z; refine NextUpd.cutU (z := z) ?_ (fun hz => ?_); subst z; rotate_left; clear_value z; all_goals have z := trivial)
    | (extract_lets +onlyGivenNames z; refine NextUpd.cutU (z := z.1) ?_ (fun hz => ?_); subst z; rotate_left; clear_value z; all_goals have z := trivial)
    | (extract_lets +onlyGivenNames z; clear_value z; have z := trivial)
    | (with_reducible apply NextUpd.next)
    | (with_reducible apply NextUpd.ite)
    | (with_reducible apply Upd.ite)
    | (with_reducible apply Upd.inc; decide)
    | (with_reducible apply Upd.fst; assumption)
    | simp (disch := decide) only [Upd.mk1_iff]
    | split

theorem execStatusReceived_upd (lane : Nat) (arg : List Nat) (s : State) {W P : Nat} (hm : (subMask 0x100000 W && subMask 0x0 P) = true) :
    NextUpd W P s (execStatusReceived lane arg s) := by
  refine NextUpd.mono (w := 0x100000) (p := 0x0) ?_ hm
  unfold execStatusReceived
  repeat' first
    | (with_reducible exact Upd.refl _)
    | with_reducible assumption
    | (extract_lets +onlyGivenNames z; refine Upd.cutU (z := z) ?_ (fun hz => ?_); subst z; rotate_left; clear_value z; all_goals have z := trivial)
    | (extract_lets +onlyGivenNames z; refine Upd.cutU (z := z.1) ?_ (fun hz => ?_); subst z; rotate_left; clear_value z; all_goals have z := trivial)
    | (extract_lets +onlyGivenNames z; refine NextUpd.cutU (z := z) ?_ (fun hz => ?_); subst z; rotate_left; clear_value z; all_goals have z := trivial)
    | (extract_lets +onlyGivenNames z; refine NextUpd.cutU (z := z.1) ?_ (fun hz => ?_); subst z; rotate_left; clear_value z; all_goals have z := trivial)
    | (extract_lets +onlyGivenNames z; clear_value z; have z := trivial)
    | (with_reducible apply NextUpd.next)
    | (with_reducible apply NextUpd.ite)
    | (with_reducible apply Upd.ite)
    | (with_reducible apply Upd.set; decide)
    | (with_reducible apply Upd.fst; assumption)
    | simp (disch := decide) only [Upd.mk1_iff]
    | split

theorem execUsmasSymbolBad_upd (lane : Nat) (code : Nat) (arg : List Nat) (s : State) {W P : Nat} (hm : (subMask 0x100000 W && subMask 0x0 P) = true) :
    NextUpd W P s (execUsmasSymbolBad lane code arg s) := by
  refine NextUpd.mono (w := 0x100000) (p := 0x0) ?_ hm
  unfold execUsmasSymbolBad
  repeat' first
    | (with_reducible exact Upd.refl _)
    | with_reducible assumption
    | (extract_lets +onlyGivenNames z; refine Upd.cutU (z := z) ?_ (fun hz => ?_); subst z; rotate_left; clear_value z; all_goals have z := trivial)
    | (extract_lets +onlyGivenNames z; refine Upd.cutU (z := z.1) ?_ (fun hz => ?_); subst z; rotate_left; clear_value z; all_goals have z := trivial)
    | (extract_lets +onlyGivenNames z; refine NextUpd.cutU (z := z) ?_ (fun hz => ?_); subst z; rotate_left; clear_value z; all_goals have z := trivial)
    | (extract_lets +onlyGivenNames z; refine NextUpd.cutU (z := z.1) ?_ (fun hz => ?_); subst z; rotate_left; clear_value z; all_goals have z := trivial)
    | (extract_lets +onlyGivenNames z; clear_value z; have z := trivial)
    | (with_reducible apply NextUpd.next)
    | (with_reducible apply NextUpd.ite)
    | (with_reducible apply Upd.ite)
    | (with_reducible apply Upd.inc; decide)
    | (with_reducible apply Upd.fst; assumption)
    | simp (disch := decide) only [Upd.mk1_iff]
    | split

theorem execHelloSend_upd (lane : Nat) (s : State) {W P : Nat} (hm : (subMask 0x0 W && subMask 0x100000 P) = true) :
    NextUpd W P s (execHelloSend lane s) := by
  refine NextUpd.mono (w := 0x0) (p := 0x100000) ?_ hm
  unfold execHelloSend
  repeat' first
    | (with_reducible exact Upd.refl _)
    | with_reducible assumption
    | (extract_lets +onlyGivenNames z; refine Upd.cutU (z := z) ?_ (fun hz => ?_); subst z; rotate_left; clear_value z; all_goals have z := trivial)
    | (extract_lets +onlyGivenNames z; refine Upd.cutU (z := z.1) ?_ (fun hz => ?_); subst z; rotate_left; clear_value z; all_goals have z := trivial)
    | (extract_lets +onlyGivenNames z; refine NextUpd.cutU (z := z) ?_ (fun hz => ?_); subst z; rotate_left; clear_value z; all_goals have z := trivial)
    | (extract_lets +onlyGivenNames z; refine NextUpd.cutU (z := z.1) ?_ (fun hz => ?_); subst z; rotate_left; clear_value z; all_goals have z := trivial)
    | (extract_lets +onlyGivenNames z; clear_value z; have z := trivial)
    | (with_reducible apply NextUpd.next)
    | (with_reducible apply NextUpd.ite)
    | (with_reducible apply Upd.ite)
    | (with_reducible apply State.emit_upd; decide)
    | (with_reducible apply Upd.fst; assumption)
    | simp (disch := decide) only [Upd.mk1_iff, Upd.out_iff]
    | split

theorem execPauseRepeat_upd (lane : Nat) (s : State) {W P : Nat} (hm : (subMask 0x100000 W && subMask 0x100000 P) = true) :
    NextUpd W P s (execPauseRepeat lane s) := by
  refine NextUpd.mono (w := 0x100000) (p := 0x100000) ?_ hm
  unfold execPauseRepeat
  repeat' first
    | (with_reducible exact Upd.refl _)
    | with_reducible assumption
    | (extract_lets +onlyGivenNames z; refine Upd.cutU (z := z) ?_ (fun hz => ?_); subst z; rotate_left; clear_value z; all_goals have z := trivial)
    | (extract_lets +onlyGivenNames z; refine Upd.cutU (z := z.1) ?_ (fun hz => ?_); subst z; rotate_left; clear_value z; all_goals have z := trivial)
    | (extract_lets +onlyGivenNames z; refine NextUpd.cutU (z := z) ?_ (fun hz => ?_); subst z; rotate_left; clear_value z; all_goals have z := trivial)
    | (extract_lets +onlyGivenNames z; refine NextUpd.cutU (z := z.1) ?_ (fun hz => ?_); subst z; rotate_left; clear_value z; all_goals have z := trivial)
    | (extract_lets +onlyGivenNames z; clear_value z; have z := trivial)
    | (with_reducible apply NextUpd.next)
    | (with_reducible apply NextUpd.ite)
    | (with_reducible apply Upd.ite)
    | (with_reducible apply State.sendPause_upd; decide)
    | (with_reducible apply Upd.fst; assumption)
    | simp (disch := decide) only [Upd.mk1_iff, Upd.out_iff]
    | split

theorem State.pauseEnWrite_upd (s : State) (n : Nat) (v : Nat) {W P : Nat} {r_ : State} (hm : (subMask 0x100000 W && subMask 0x100000 P) = true) (k_ : Upd W P r_ s) :
    Upd W P r_ (State.pauseEnWrite s n v) := by
  refine Upd.via (w := 0x100000) (p := 0x100000) ?_ hm k_
  clear hm k_
  unfold State.pauseEnWrite
  repeat' first
    | (with_reducible exact Upd.refl _)
    | with_reducible assumption
    | (extract_lets +onlyGivenNames z; refine Upd.cutU (z := z) ?_ (fun hz => ?_); subst z; rotate_left; clear_value z; all_goals have z := trivial)
    | (extract_lets +onlyGivenNames z; refine Upd.cutU (z := z.1) ?_ (fun hz => ?_); subst z; rotate_left; clear_value z; all_goals have z := trivial)
    | (extract_lets +onlyGivenNames z; clear_value z; have z := trivial)
    | (with_reducible apply Upd.ite)
    | (with_reducible apply State.sendPause_upd; decide)
    | (with_reducible apply Upd.set; decide)
    | (with_reducible apply Upd.fst; assumption)
    | simp (disch := decide) only [Upd.mk1_iff, Upd.out_iff]
    | split

theorem State.ingLaneUp_upd (s : State) (n : Nat) {W P : Nat} {r_ : State} (hm : (subMask 0x100000 W && subMask 0x100000 P) = true) (k_ : Upd W P r_ s) :
    Upd W P r_ (State.ingLaneUp s n) := by
  refine Upd.via (w := 0x100000) (p := 0x100000) ?_ hm k_
  clear hm k_
  unfold State.ingLaneUp
  repeat' first
    | (with_reducible exact Upd.refl _)
    | with_reducible assumption
    | (extract_lets +onlyGivenNames z; refine Upd.cutU (z := z) ?_ (fun hz => ?_); subst z; rotate_left; clear_value z; all_goals have z := trivial)
    | (extract_lets +onlyGivenNames z; refine Upd.cutU (z := z.1) ?_ (fun hz => ?_); subst z; rotate_left; clear_value z; all_goals have z := trivial)
    | (extract_lets +onlyGivenNames z; clear_value z; have z := trivial)
    | (with_reducible apply Upd.ite)
    | (with_reducible apply State.emit_upd; decide)
    | (with_reducible apply Upd.set; decide)
    | (with_reducible apply Upd.fst; assumption)
    | simp (disch := decide) only [Upd.mk1_iff, Upd.out_iff]
    | split

theorem State.ingLaneDown_upd (s : State) (n : Nat) {W P : Nat} {r_ : State} (hm : (subMask 0x1100001 W && subMask 0x10001a P) = true) (k_ : Upd W P r_ s) :
    Upd W P r_ (State.ingLaneDown s n) := by
  refine Upd.via (w := 0x1100001) (p := 0x10001a) ?_ hm k_
  clear hm k_
  unfold State.ingLaneDown
  repeat' first
    | (with_reducible exact Upd.refl _)
    | with_reducible assumption
    | (extract_lets +onlyGivenNames z; refine Upd.cutU (z := z) ?_ (fun hz => ?_); subst z; rotate_left; clear_value z; all_goals have z := trivial)
    | (extract_lets +onlyGivenNames z; refine Upd.cutU (z := z.1) ?_ (fun hz => ?_); subst z; rotate_left; clear_value z; all_goals have z := trivial)
    | (extract_lets +onlyGivenNames z; clear_value z; have z := trivial)
    | (with_reducible apply Upd.ite)
    | (with_reducible apply Upd.set; decide)
    | (with_reducible apply State.usmasCut_upd; decide)
    | (with_reducible apply Upd.fst; assumption)
    | simp (disch := decide) only [Upd.mk1_iff, Upd.frames_iff, Upd.ing_iff, Upd.out_iff]
    | split

theorem execFrameTimeout_upd (c : Nat) (s : State) {W P : Nat} (hm : (subMask 0x100001 W && subMask 0x10000a P) = true) :
    NextUpd W P s (execFrameTimeout c s) := by
  refine NextUpd.mono (w := 0x100001) (p := 0x10000a) ?_ hm
  unfold execFrameTimeout
  repeat' first
    | (with_reducible exact Upd.refl _)
    | with_reducible assumption
    | (extract_lets +onlyGivenNames z; refine Upd.cutU (z := z) ?_ (fun hz => ?_); subst z; rotate_left; clear_value z; all_goals have z := trivial)
    | (extract_lets +onlyGivenNames z; refine Upd.cutU (z := z.1) ?_ (fun hz => ?_); subst z; rotate_left; clear_value z; all_goals have z := trivial)
    | (extract_lets +onlyGivenNames z; refine NextUpd.cutU (z := z) ?_ (fun hz => ?_); subst z; rotate_left; clear_value z; all_goals have z := trivial)
    | (extract_lets +onlyGivenNames z; refine NextUpd.cutU (z := z.1) ?_ (fun hz => ?_); subst z; rotate_left; clear_value z; all_goals have z := trivial)
    | (extract_lets +onlyGivenNames z; clear_value z; have z := trivial)
    | (with_reducible apply NextUpd.next)
    | (with_reducible apply NextUpd.ite)
    | (with_reducible apply Upd.ite)
    | (with_reducible apply State.closeFrame_upd; decide)
    | (with_reducible apply Upd.fst; assumption)
    | simp (disch := decide) only [Upd.mk1_iff, Upd.frames_iff, Upd.out_iff]
    | split

theorem State.ingClrCnt_upd (s : State) (n : Nat) {W P : Nat} {r_ : State} (hm : (subMask 0x100000 W && subMask 0x0 P) = true) (k_ : Upd W P r_ s) :
    Upd W P r_ (State.ingClrCnt s n) := by
  refine Upd.via (w := 0x100000) (p := 0x0) ?_ hm k_
  clear hm k_
  unfold State.ingClrCnt
  repeat' first
    | (with_reducible apply Upd.foldlSet; decide)
    | ((with_reducible apply Upd.foldlPair); simp only [List.all_cons, List.all_nil]; decide)
    | (with_reducible apply Upd.foldl; intro _ _)
    | (with_reducible apply Upd.foldlFst; intro _ _)
    | (with_reducible exact Upd.refl _)
    | with_reducible assumption
    | (extract_lets +onlyGivenNames z; refine Upd.cutU (z := z) ?_ (fun hz => ?_); subst z; rotate_left; clear_value z; all_goals have z := trivial)
    | (extract_lets +onlyGivenNames z; refine Upd.cutU (z := z.1) ?_ (fun hz => ?_); subst z; rotate_left; clear_value z; all_goals have z := trivial)
    | (extract_lets +onlyGivenNames z; clear_value z; have z := trivial)
    | (with_reducible apply Upd.ite)
    | (with_reducible apply Upd.set; decide)
    | (with_reducible apply Upd.fst; assumption)
    | simp (disch := decide) only [Upd.mk1_iff]
    | split

theorem execIngClrCnt_upd (lane : Nat) (src : Src) (s : State) {W P : Nat} (hm : (subMask 0x100000000000100001 W && subMask 0x140c03 P) = true) :
    NextUpd W P s (execIngClrCnt lane src s) := by
  refine NextUpd.mono (w := 0x100000000000100001) (p := 0x140c03) ?_ hm
  unfold execIngClrCnt
  repeat' first
    | (with_reducible exact Upd.refl _)
    | with_reducible assumption
    | (extract_lets +onlyGivenNames z; refine Upd.cutU (z := z) ?_ (fun hz => ?_); subst z; rotate_left; clear_value z; all_goals have z := trivial)
    | (extract_lets +onlyGivenNames z; refine Upd.cutU (z := z.1) ?_ (fun hz => ?_); subst z; rotate_left; clear_value z; all_goals have z := trivial)
    | (extract_lets +onlyGivenNames z; refine NextUpd.cutU (z := z) ?_ (fun hz => ?_); subst z; rotate_left; clear_value z; all_goals have z := trivial)
    | (extract_lets +onlyGivenNames z; refine NextUpd.cutU (z := z.1) ?_ (fun hz => ?_); subst z; rotate_left; clear_value z; all_goals have z := trivial)
    | (extract_lets +onlyGivenNames z; clear_value z; have z := trivial)
    | (with_reducible apply NextUpd.next)
    | (with_reducible apply NextUpd.ite)
    | (with_reducible apply Upd.ite)
    | (with_reducible apply State.answer_upd; decide)
    | (with_reducible apply State.ingClrCnt_upd; decide)
    | (with_reducible apply Upd.fst; assumption)
    | simp (disch := first | decide | rfl | (apply And.intro <;> first | decide | rfl | (apply And.intro <;> rfl))) only [Upd.mk1_iff, Upd.egr_iff, Upd.brg_iff, Upd.mgt_iff, Upd.out_iff]
    | split

theorem effQueueWmWrite_upd (lane : Nat) (high : Bool) (v : Nat) (src : Src) (s : State) {W P : Nat} {r_ : State} (hm : (subMask 0x100000000001100001 W && subMask 0x140c03 P) = true) (k_ : Upd W P r_ s) :
    Upd W P r_ (effQueueWmWrite lane high v src s) := by
  refine Upd.via (w := 0x100000000001100001) (p := 0x140c03) ?_ hm k_
  clear hm k_
  unfold effQueueWmWrite
  repeat' first
    | (with_reducible exact Upd.refl _)
    | with_reducible assumption
    | (extract_lets +onlyGivenNames z; refine Upd.cutU (z := z) ?_ (fun hz => ?_); subst z; rotate_left; clear_value z; all_goals have z := trivial)
    | (extract_lets +onlyGivenNames z; refine Upd.cutU (z := z.1) ?_ (fun hz => ?_); subst z; rotate_left; clear_value z; all_goals have z := trivial)
    | (extract_lets +onlyGivenNames z; clear_value z; have z := trivial)
    | (with_reducible apply Upd.ite)
    | (with_reducible apply State.answer_upd; decide)
    | (with_reducible apply State.evalWatermark_upd; decide)
    | (with_reducible apply Upd.set; decide)
    | (with_reducible apply Upd.fst; assumption)
    | simp (disch := first | decide | rfl | (apply And.intro <;> first | decide | rfl | (apply And.intro <;> rfl))) only [Upd.mk1_iff, Upd.egr_iff, Upd.brg_iff, Upd.mgt_iff, Upd.out_iff]
    | split

theorem execQueueWmWrite_upd (lane : Nat) (high : Bool) (v : Nat) (src : Src) (s : State) {W P : Nat} (hm : (subMask 0x100000000001100003 W && subMask 0x1c0c03 P) = true) :
    NextUpd W P s (execQueueWmWrite lane high v src s) := by
  refine NextUpd.mono (w := 0x100000000001100003) (p := 0x1c0c03) ?_ hm
  unfold execQueueWmWrite
  repeat' first
    | (with_reducible exact Upd.refl _)
    | with_reducible assumption
    | (extract_lets +onlyGivenNames z; refine Upd.cutU (z := z) ?_ (fun hz => ?_); subst z; rotate_left; clear_value z; all_goals have z := trivial)
    | (extract_lets +onlyGivenNames z; refine Upd.cutU (z := z.1) ?_ (fun hz => ?_); subst z; rotate_left; clear_value z; all_goals have z := trivial)
    | (extract_lets +onlyGivenNames z; refine NextUpd.cutU (z := z) ?_ (fun hz => ?_); subst z; rotate_left; clear_value z; all_goals have z := trivial)
    | (extract_lets +onlyGivenNames z; refine NextUpd.cutU (z := z.1) ?_ (fun hz => ?_); subst z; rotate_left; clear_value z; all_goals have z := trivial)
    | (extract_lets +onlyGivenNames z; clear_value z; have z := trivial)
    | (with_reducible apply NextUpd.next)
    | (with_reducible apply NextUpd.ite)
    | (with_reducible apply Upd.ite)
    | (with_reducible apply State.answer_upd; decide)
    | (with_reducible apply State.recorded_upd; decide; intro _)
    | (with_reducible apply effQueueWmWrite_upd; decide)
    | (with_reducible apply Upd.fst; assumption)
    | simp (disch := first | decide | rfl | (apply And.intro <;> first | decide | rfl | (apply And.intro <;> rfl))) only [Upd.mk1_iff, Upd.egr_iff, Upd.brg_iff, Upd.mgt_iff, Upd.sec_iff, Upd.out_iff]
    | split

theorem effChApply_upd (c : Nat) (src : Src) (s : State) {W P : Nat} {r_ : State} (hm : (subMask 0x100000000000100001 W && subMask 0x140c03 P) = true) (k_ : Upd W P r_ s) :
    Upd W P r_ (effChApply c src s) := by
  refine Upd.via (w := 0x100000000000100001) (p := 0x140c03) ?_ hm k_
  clear hm k_
  unfold effChApply
  repeat' first
    | (with_reducible exact Upd.refl _)
    | with_reducible assumption
    | (extract_lets +onlyGivenNames z; refine Upd.cutU (z := z) ?_ (fun hz => ?_); subst z; rotate_left; clear_value z; all_goals have z := trivial)
    | (extract_lets +onlyGivenNames z; refine Upd.cutU (z := z.1) ?_ (fun hz => ?_); subst z; rotate_left; clear_value z; all_goals have z := trivial)
    | (extract_lets +onlyGivenNames z; clear_value z; have z := trivial)
    | (with_reducible apply Upd.ite)
    | (with_reducible apply State.answer_upd; decide)
    | (with_reducible apply Upd.set; decide)
    | (with_reducible apply Upd.fst; assumption)
    | simp (disch := first | decide | rfl | (apply And.intro <;> first | decide | rfl | (apply And.intro <;> rfl))) only [Upd.mk1_iff, Upd.egr_iff, Upd.brg_iff, Upd.mgt_iff, Upd.out_iff]
    | split

theorem execChApply_upd (c : Nat) (src : Src) (s : State) {W P : Nat} (hm : (subMask 0x100000000000100003 W && subMask 0x1c0c03 P) = true) :
    NextUpd W P s (execChApply c src s) := by
  refine NextUpd.mono (w := 0x100000000000100003) (p := 0x1c0c03) ?_ hm
  unfold execChApply
  repeat' first
    | (with_reducible exact Upd.refl _)
    | with_reducible assumption
    | (extract_lets +onlyGivenNames z; refine Upd.cutU (z := z) ?_ (fun hz => ?_); subst z; rotate_left; clear_value z; all_goals have z := trivial)
    | (extract_lets +onlyGivenNames z; refine Upd.cutU (z := z.1) ?_ (fun hz => ?_); subst z; rotate_left; clear_value z; all_goals have z := trivial)
    | (extract_lets +onlyGivenNames z; refine NextUpd.cutU (z := z) ?_ (fun hz => ?_); subst z; rotate_left; clear_value z; all_goals have z := trivial)
    | (extract_lets +onlyGivenNames z; refine NextUpd.cutU (z := z.1) ?_ (fun hz => ?_); subst z; rotate_left; clear_value z; all_goals have z := trivial)
    | (extract_lets +onlyGivenNames z; clear_value z; have z := trivial)
    | (with_reducible apply NextUpd.next)
    | (with_reducible apply NextUpd.ite)
    | (with_reducible apply Upd.ite)
    | (with_reducible apply State.answer_upd; decide)
    | (with_reducible apply State.recorded_upd; decide; intro _)
    | (with_reducible apply effChApply_upd; decide)
    | (with_reducible apply Upd.fst; assumption)
    | simp (disch := first | decide | rfl | (apply And.intro <;> first | decide | rfl | (apply And.intro <;> rfl))) only [Upd.mk1_iff, Upd.egr_iff, Upd.brg_iff, Upd.mgt_iff, Upd.sec_iff, Upd.out_iff]
    | split

end Sys2Proof.Machine
end

