-- ==== Sys2Proof/Laws/UpdPipe.lean ====
section
/-! SUPPORT. What each operation of Machine/Pipe.lean may change (see Laws/Upd.lean). -/

set_option linter.unusedSimpArgs false
set_option linter.tactic.unusedName false

namespace Sys2Proof.Machine

theorem State.tapBegin_upd (s : State) (base : Nat) (f : Frame) {W P : Nat} {r_ : State} (hm : (subMask 0x100000000000000000001 W && subMask 0x50004b P) = true) (k_ : Upd W P r_ s) :
    Upd W P r_ (State.tapBegin s base f) := by
  refine Upd.via (w := 0x100000000000000000001) (p := 0x50004b) ?_ hm k_
  clear hm k_
  unfold State.tapBegin
  repeat' first
    | (with_reducible apply Upd.foldl; intro _ _)
    | (with_reducible apply Upd.foldlFst; intro _ _)
    | (with_reducible exact Upd.refl _)
    | with_reducible assumption
    | (extract_lets +onlyGivenNames z; refine Upd.cutU (z := z) ?_ (fun hz => ?_); subst z; rotate_left; clear_value z; all_goals have z := trivial)
    | (extract_lets +onlyGivenNames z; refine Upd.cutU (z := z.1) ?_ (fun hz => ?_); subst z; rotate_left; clear_value z; all_goals have z := trivial)
    | (extract_lets +onlyGivenNames z; clear_value z; have z := trivial)
    | (with_reducible apply Upd.ite)
    | (with_reducible apply State.blockWrite_upd; decide)
    | (with_reducible apply State.onFrame_upd; decide)
    | (with_reducible apply Upd.fst; assumption)
    | simp (disch := decide) only [Upd.mk1_iff, Upd.frames_iff, Upd.pipe_iff, Upd.out_iff, Upd.bad_iff]
    | split

theorem State.tapAbandon_upd (s : State) (base : Nat) (p : Nat) (f : Frame) {W P : Nat} {r_ : State} (hm : (subMask 0xa0000000100000001 W && subMask 0x10044a P) = true) (k_ : Upd W P r_ s) :
    Upd W P r_ (State.tapAbandon s base p f) := by
  refine Upd.via (w := 0xa0000000100000001) (p := 0x10044a) ?_ hm k_
  clear hm k_
  unfold State.tapAbandon
  repeat' first
    | (with_reducible exact Upd.refl _)
    | with_reducible assumption
    | (extract_lets +onlyGivenNames z; refine Upd.cutU (z := z) ?_ (fun hz => ?_); subst z; rotate_left; clear_value z; all_goals have z := trivial)
    | (extract_lets +onlyGivenNames z; refine Upd.cutU (z := z.1) ?_ (fun hz => ?_); subst z; rotate_left; clear_value z; all_goals have z := trivial)
    | (extract_lets +onlyGivenNames z; clear_value z; have z := trivial)
    | (with_reducible apply Upd.ite)
    | (with_reducible apply State.drop_upd; decide)
    | (with_reducible apply Upd.inc; decide)
    | (with_reducible apply State.onFrame_upd; decide)
    | (with_reducible apply Upd.fst; assumption)
    | simp (disch := decide) only [Upd.mk1_iff, Upd.frames_iff, Upd.pipe_iff, Upd.egr_iff, Upd.out_iff]
    | split

theorem State.tapRowsOut_upd (s : State) (base : Nat) (p : Nat) (f : Frame) (ys : List Nat) {W P : Nat} {r_ : State} (hm : (subMask 0x1000a0000000100000001 W && subMask 0x50044b P) = true) (k_ : Upd W P r_ s) :
    Upd W P r_ (State.tapRowsOut s base p f ys) := by
  refine Upd.via (w := 0x1000a0000000100000001) (p := 0x50044b) ?_ hm k_
  clear hm k_
  unfold State.tapRowsOut
  repeat' first
    | (with_reducible apply Upd.foldl; intro _ _)
    | (with_reducible apply Upd.foldlFst; intro _ _)
    | (with_reducible exact Upd.refl _)
    | with_reducible assumption
    | (extract_lets +onlyGivenNames z; refine Upd.cutU (z := z) ?_ (fun hz => ?_); subst z; rotate_left; clear_value z; all_goals have z := trivial)
    | (extract_lets +onlyGivenNames z; refine Upd.cutU (z := z.1) ?_ (fun hz => ?_); subst z; rotate_left; clear_value z; all_goals have z := trivial)
    | (extract_lets +onlyGivenNames z; clear_value z; have z := trivial)
    | (with_reducible apply Upd.ite)
    | (with_reducible apply State.blockWrite_upd; decide)
    | (with_reducible apply State.tapAbandon_upd; decide)
    | (with_reducible apply Upd.fst; assumption)
    | simp (disch := decide) only [Upd.mk1_iff, Upd.frames_iff, Upd.pipe_iff, Upd.egr_iff, Upd.out_iff, Upd.bad_iff]
    | split

theorem State.tapEnd_upd (s : State) (base : Nat) (p : Nat) (f : Frame) {W P : Nat} {r_ : State} (hm : (subMask 0x100000000000100000001 W && subMask 0x500043 P) = true) (k_ : Upd W P r_ s) :
    Upd W P r_ (State.tapEnd s base p f) := by
  refine Upd.via (w := 0x100000000000100000001) (p := 0x500043) ?_ hm k_
  clear hm k_
  unfold State.tapEnd
  repeat' first
    | (with_reducible apply Upd.foldl; intro _ _)
    | (with_reducible apply Upd.foldlFst; intro _ _)
    | (with_reducible exact Upd.refl _)
    | with_reducible assumption
    | (extract_lets +onlyGivenNames z; refine Upd.cutU (z := z) ?_ (fun hz => ?_); subst z; rotate_left; clear_value z; all_goals have z := trivial)
    | (extract_lets +onlyGivenNames z; refine Upd.cutU (z := z.1) ?_ (fun hz => ?_); subst z; rotate_left; clear_value z; all_goals have z := trivial)
    | (extract_lets +onlyGivenNames z; have _t : State → _ := z; clear _t; subst z; have z := trivial)
    | (extract_lets +onlyGivenNames z; have _t : _ → State := z; clear _t; subst z; have z := trivial)
    | (extract_lets +onlyGivenNames z; have _t : _ → _ → State := z; clear _t; subst z; have z := trivial)
    | (extract_lets +onlyGivenNames z; clear_value z; have z := trivial)
    | (with_reducible apply Upd.ite)
    | (with_reducible apply Upd.add; decide)
    | (with_reducible apply State.blockWrite_upd; decide)
    | (with_reducible apply Upd.fst; assumption)
    | simp (disch := decide) only [Upd.mk1_iff, Upd.pipe_iff, Upd.out_iff, Upd.bad_iff]
    | split

theorem State.rowsOut_upd (s : State) (base : Nat) (f : Frame) (ys : List Nat) (lost : Bool) {W P : Nat} {r_ : State} (hm : (subMask 0x100000000000000000001 W && subMask 0x500443 P) = true) (k_ : Upd W P r_ s) :
    Upd W P r_ (State.rowsOut s base f ys lost) := by
  refine Upd.via (w := 0x100000000000000000001) (p := 0x500443) ?_ hm k_
  clear hm k_
  unfold State.rowsOut
  repeat' first
    | (with_reducible exact Upd.refl _)
    | with_reducible assumption
    | (extract_lets +onlyGivenNames z; refine Upd.cutU (z := z) ?_ (fun hz => ?_); subst z; rotate_left; clear_value z; all_goals have z := trivial)
    | (extract_lets +onlyGivenNames z; refine Upd.cutU (z := z.1) ?_ (fun hz => ?_); subst z; rotate_left; clear_value z; all_goals have z := trivial)
    | (extract_lets +onlyGivenNames z; clear_value z; have z := trivial)
    | (with_reducible apply Upd.ite)
    | (with_reducible apply State.roiFlows_upd; decide)
    | (with_reducible apply Upd.fst; assumption)
    | simp (disch := decide) only [Upd.mk1_iff, Upd.pipe_iff, Upd.egr_iff, Upd.out_iff, Upd.bad_iff]
    | split

theorem State.countRows_upd (s : State) (base : Nat) (p : Nat) (f : Frame) (ys : List Nat) {W P : Nat} {r_ : State} (hm : (subMask 0x100000000 W && subMask 0x0 P) = true) (k_ : Upd W P r_ s) :
    Upd W P r_ (State.countRows s base p f ys) := by
  refine Upd.via (w := 0x100000000) (p := 0x0) ?_ hm k_
  clear hm k_
  unfold State.countRows
  apply Upd.foldl _ (Upd.refl _)
  intro t y
  apply Upd.foldlAdd _ (Upd.refl _)
  intro q hq
  have h := (List.of_mem_zip (a := q.1) (b := q.2) hq).1
  revert h
  generalize q.1 = x
  intro h
  simp only [List.mem_cons, List.not_mem_nil, or_false] at h
  rcases h with h | h | h | h | h | h | h | h <;> subst h <;> decide

theorem State.busy_upd (s : State) (p : Nat) (n : Nat) {W P : Nat} {r_ : State} (hm : (subMask 0x100000000 W && subMask 0x0 P) = true) (k_ : Upd W P r_ s) :
    Upd W P r_ (State.busy s p n) := by
  refine Upd.via (w := 0x100000000) (p := 0x0) ?_ hm k_
  clear hm k_
  unfold State.busy
  repeat' first
    | (with_reducible exact Upd.refl _)
    | with_reducible assumption
    | (extract_lets +onlyGivenNames z; refine Upd.cutU (z := z) ?_ (fun hz => ?_); subst z; rotate_left; clear_value z; all_goals have z := trivial)
    | (extract_lets +onlyGivenNames z; refine Upd.cutU (z := z.1) ?_ (fun hz => ?_); subst z; rotate_left; clear_value z; all_goals have z := trivial)
    | (extract_lets +onlyGivenNames z; clear_value z; have z := trivial)
    | (with_reducible apply Upd.ite)
    | (with_reducible apply Upd.add; decide)
    | (with_reducible apply Upd.set; decide)
    | (with_reducible apply Upd.fst; assumption)
    | simp (disch := decide) only [Upd.mk1_iff]
    | split

theorem State.playEvent_upd (s : State) (k : Nat) (bit : Nat) {W P : Nat} {r_ : State} (hm : (subMask 0x100001 W && subMask 0x100002 P) = true) (k_ : Upd W P r_ s) :
    Upd W P r_ (State.playEvent s k bit) := by
  refine Upd.via (w := 0x100001) (p := 0x100002) ?_ hm k_
  clear hm k_
  unfold State.playEvent
  repeat' first
    | (with_reducible exact Upd.refl _)
    | with_reducible assumption
    | (extract_lets +onlyGivenNames z; refine Upd.cutU (z := z) ?_ (fun hz => ?_); subst z; rotate_left; clear_value z; all_goals have z := trivial)
    | (extract_lets +onlyGivenNames z; refine Upd.cutU (z := z.1) ?_ (fun hz => ?_); subst z; rotate_left; clear_value z; all_goals have z := trivial)
    | (extract_lets +onlyGivenNames z; clear_value z; have z := trivial)
    | (with_reducible apply Upd.ite)
    | (with_reducible apply Upd.sticky; decide; decide; decide)
    | (with_reducible apply Upd.fst; assumption)
    | simp (disch := decide) only [Upd.mk1_iff, Upd.out_iff]
    | split

theorem State.playEnd_upd (s : State) (k : Nat) {W P : Nat} {r_ : State} (hm : (subMask 0x100001 W && subMask 0x100002 P) = true) (k_ : Upd W P r_ s) :
    Upd W P r_ (State.playEnd s k) := by
  refine Upd.via (w := 0x100001) (p := 0x100002) ?_ hm k_
  clear hm k_
  unfold State.playEnd
  repeat' first
    | (with_reducible exact Upd.refl _)
    | with_reducible assumption
    | (extract_lets +onlyGivenNames z; refine Upd.cutU (z := z) ?_ (fun hz => ?_); subst z; rotate_left; clear_value z; all_goals have z := trivial)
    | (extract_lets +onlyGivenNames z; refine Upd.cutU (z := z.1) ?_ (fun hz => ?_); subst z; rotate_left; clear_value z; all_goals have z := trivial)
    | (extract_lets +onlyGivenNames z; clear_value z; have z := trivial)
    | (with_reducible apply Upd.ite)
    | (with_reducible apply State.playEvent_upd; decide)
    | (with_reducible apply Upd.set; decide)
    | (with_reducible apply Upd.fst; assumption)
    | simp (disch := decide) only [Upd.mk1_iff, Upd.out_iff]
    | split

theorem State.playNext_upd (s : State) (k : Nat) {W P : Nat} {r_ : State} (hm : (subMask 0x100001 W && subMask 0x100002 P) = true) (k_ : Upd W P r_ s) :
    Upd W P r_ (State.playNext s k) := by
  refine Upd.via (w := 0x100001) (p := 0x100002) ?_ hm k_
  clear hm k_
  unfold State.playNext
  repeat' first
    | (with_reducible exact Upd.refl _)
    | with_reducible assumption
    | (extract_lets +onlyGivenNames z; refine Upd.cutU (z := z) ?_ (fun hz => ?_); subst z; rotate_left; clear_value z; all_goals have z := trivial)
    | (extract_lets +onlyGivenNames z; refine Upd.cutU (z := z.1) ?_ (fun hz => ?_); subst z; rotate_left; clear_value z; all_goals have z := trivial)
    | (extract_lets +onlyGivenNames z; clear_value z; have z := trivial)
    | (with_reducible apply Upd.ite)
    | (with_reducible apply State.playEnd_upd; decide)
    | (with_reducible apply Upd.set; decide)
    | (with_reducible apply Upd.fst; assumption)
    | simp (disch := decide) only [Upd.mk1_iff, Upd.out_iff]
    | split

theorem State.playFrameDone_upd (s : State) (k : Nat) {W P : Nat} {r_ : State} (hm : (subMask 0x100001 W && subMask 0x10000a P) = true) (k_ : Upd W P r_ s) :
    Upd W P r_ (State.playFrameDone s k) := by
  refine Upd.via (w := 0x100001) (p := 0x10000a) ?_ hm k_
  clear hm k_
  unfold State.playFrameDone
  repeat' first
    | (with_reducible exact Upd.refl _)
    | with_reducible assumption
    | (extract_lets +onlyGivenNames z; refine Upd.cutU (z := z) ?_ (fun hz => ?_); subst z; rotate_left; clear_value z; all_goals have z := trivial)
    | (extract_lets +onlyGivenNames z; refine Upd.cutU (z := z.1) ?_ (fun hz => ?_); subst z; rotate_left; clear_value z; all_goals have z := trivial)
    | (extract_lets +onlyGivenNames z; clear_value z; have z := trivial)
    | (with_reducible apply Upd.ite)
    | (with_reducible apply Upd.inc; decide)
    | (with_reducible apply State.playNext_upd; decide)
    | (with_reducible apply Upd.fst; assumption)
    | simp (disch := decide) only [Upd.mk1_iff, Upd.frames_iff, Upd.out_iff]
    | split

theorem State.finishFrame_upd (s : State) (c : Nat) (seq : Nat) (p : Nat) {W P : Nat} {r_ : State} (hm : (subMask 0x100000000010101100001 W && subMask 0x5005cb P) = true) (k_ : Upd W P r_ s) :
    Upd W P r_ (State.finishFrame s c seq p) := by
  refine Upd.via (w := 0x100000000010101100001) (p := 0x5005cb) ?_ hm k_
  clear hm k_
  unfold State.finishFrame
  repeat' first
    | (with_reducible exact Upd.refl _)
    | with_reducible assumption
    | (extract_lets +onlyGivenNames z; refine Upd.cutU (z := z) ?_ (fun hz => ?_); subst z; rotate_left; clear_value z; all_goals have z := trivial)
    | (extract_lets +onlyGivenNames z; refine Upd.cutU (z := z.1) ?_ (fun hz => ?_); subst z; rotate_left; clear_value z; all_goals have z := trivial)
    | (extract_lets +onlyGivenNames z; clear_value z; have z := trivial)
    | (with_reducible apply Upd.ite)
    | (with_reducible apply State.framePiped_upd; decide)
    | (with_reducible apply State.freeHolds_upd; decide)
    | (with_reducible apply State.onFrame_upd; decide)
    | (with_reducible apply State.playFrameDone_upd; decide)
    | (with_reducible apply State.relevel_upd; decide)
    | (with_reducible apply State.tapEnd_upd; decide)
    | (with_reducible apply State.unbind_upd; decide)
    | (with_reducible apply Upd.fst; assumption)
    | simp (disch := decide) only [Upd.mk1_iff, Upd.frames_iff, Upd.pipe_iff, Upd.blankets_iff, Upd.ref_iff, Upd.egr_iff, Upd.out_iff, Upd.bad_iff]
    | split

theorem State.releaseLines_upd (s : State) (c : Nat) (seq : Nat) (ys : List Nat) {W P : Nat} {r_ : State} (hm : (subMask 0x1100001 W && subMask 0x10000a P) = true) (k_ : Upd W P r_ s) :
    Upd W P r_ (State.releaseLines s c seq ys) := by
  refine Upd.via (w := 0x1100001) (p := 0x10000a) ?_ hm k_
  clear hm k_
  unfold State.releaseLines
  repeat' first
    | (with_reducible exact Upd.refl _)
    | with_reducible assumption
    | (extract_lets +onlyGivenNames z; refine Upd.cutU (z := z) ?_ (fun hz => ?_); subst z; rotate_left; clear_value z; all_goals have z := trivial)
    | (extract_lets +onlyGivenNames z; refine Upd.cutU (z := z.1) ?_ (fun hz => ?_); subst z; rotate_left; clear_value z; all_goals have z := trivial)
    | (extract_lets +onlyGivenNames z; clear_value z; have z := trivial)
    | (with_reducible apply Upd.ite)
    | (with_reducible apply State.onFrame_upd; decide)
    | (with_reducible apply State.relevel_upd; decide)
    | (with_reducible apply Upd.fst; assumption)
    | simp (disch := decide) only [Upd.mk1_iff, Upd.frames_iff, Upd.out_iff]
    | split

theorem State.fetchLine_upd (s : State) (f : Frame) (addr : Nat) (stride : Nat) (y : Nat) {W P : Nat} {r_ : State} (hm : (subMask 0x100000000000000000001 W && subMask 0x100002 P) = true) (k_ : Upd W P r_ s) :
    Upd W P r_ (State.fetchLine s f addr stride y).1 := by
  refine Upd.via (w := 0x100000000000000000001) (p := 0x100002) ?_ hm k_
  clear hm k_
  unfold State.fetchLine
  repeat' first
    | (with_reducible exact Upd.refl _)
    | with_reducible assumption
    | (extract_lets +onlyGivenNames z; refine Upd.cutU (z := z) ?_ (fun hz => ?_); subst z; rotate_left; clear_value z; all_goals have z := trivial)
    | (extract_lets +onlyGivenNames z; refine Upd.cutU (z := z.1) ?_ (fun hz => ?_); subst z; rotate_left; clear_value z; all_goals have z := trivial)
    | (extract_lets +onlyGivenNames z; clear_value z; have z := trivial)
    | (with_reducible apply Upd.ite)
    | (with_reducible apply Upd.iteFst)
    | (with_reducible apply State.dramRead_upd; decide)
    | (with_reducible apply Upd.fst; assumption)
    | simp (disch := decide) only [Upd.mk1_iff, Upd.out_iff]
    | split

theorem State.fetchLines_upd (s : State) (c : Nat) (seq : Nat) (lo : Nat) (hi : Nat) {W P : Nat} {r_ : State} (hm : (subMask 0x100000000000000000001 W && subMask 0x10000a P) = true) (k_ : Upd W P r_ s) :
    Upd W P r_ (State.fetchLines s c seq lo hi) := by
  refine Upd.via (w := 0x100000000000000000001) (p := 0x10000a) ?_ hm k_
  clear hm k_
  unfold State.fetchLines
  repeat' first
    | (with_reducible apply Upd.foldl; intro _ _)
    | (with_reducible apply Upd.foldlFst; intro _ _)
    | (with_reducible exact Upd.refl _)
    | with_reducible assumption
    | (extract_lets +onlyGivenNames z; refine Upd.cutU (z := z) ?_ (fun hz => ?_); subst z; rotate_left; clear_value z; all_goals have z := trivial)
    | (extract_lets +onlyGivenNames z; refine Upd.cutU (z := z.1) ?_ (fun hz => ?_); subst z; rotate_left; clear_value z; all_goals have z := trivial)
    | (extract_lets +onlyGivenNames z; clear_value z; have z := trivial)
    | (with_reducible apply Upd.ite)
    | (with_reducible apply Upd.iteFst)
    | (with_reducible apply State.fetchLine_upd; decide)
    | (with_reducible apply State.loadLines_upd; decide)
    | (with_reducible apply State.onFrame_upd; decide)
    | (with_reducible apply Upd.fst; assumption)
    | simp (disch := decide) only [Upd.mk1_iff, Upd.frames_iff, Upd.out_iff]
    | split

theorem State.delayFrame_upd (s : State) (r : StripeRef) {W P : Nat} {r_ : State} (hm : (subMask 0x10000000001 W && subMask 0x10000a P) = true) (k_ : Upd W P r_ s) :
    Upd W P r_ (State.delayFrame s r) := by
  refine Upd.via (w := 0x10000000001) (p := 0x10000a) ?_ hm k_
  clear hm k_
  unfold State.delayFrame
  repeat' first
    | (with_reducible exact Upd.refl _)
    | with_reducible assumption
    | (extract_lets +onlyGivenNames z; refine Upd.cutU (z := z) ?_ (fun hz => ?_); subst z; rotate_left; clear_value z; all_goals have z := trivial)
    | (extract_lets +onlyGivenNames z; refine Upd.cutU (z := z.1) ?_ (fun hz => ?_); subst z; rotate_left; clear_value z; all_goals have z := trivial)
    | (extract_lets +onlyGivenNames z; clear_value z; have z := trivial)
    | (with_reducible apply Upd.ite)
    | (with_reducible apply Upd.inc; decide)
    | (with_reducible apply State.onFrame_upd; decide)
    | (with_reducible apply State.schEvent_upd; decide)
    | (with_reducible apply Upd.fst; assumption)
    | simp (disch := decide) only [Upd.mk1_iff, Upd.frames_iff, Upd.out_iff]
    | split

theorem State.copyLine_upd (s : State) (r : StripeRef) (spill : Bool) (y : Nat) {W P : Nat} {r_ : State} (hm : (subMask 0x100000000000000000001 W && subMask 0x50000b P) = true) (k_ : Upd W P r_ s) :
    Upd W P r_ (State.copyLine s r spill y) := by
  refine Upd.via (w := 0x100000000000000000001) (p := 0x50000b) ?_ hm k_
  clear hm k_
  unfold State.copyLine
  repeat' first
    | (with_reducible exact Upd.refl _)
    | with_reducible assumption
    | (extract_lets +onlyGivenNames z; refine Upd.cutU (z := z) ?_ (fun hz => ?_); subst z; rotate_left; clear_value z; all_goals have z := trivial)
    | (extract_lets +onlyGivenNames z; refine Upd.cutU (z := z.1) ?_ (fun hz => ?_); subst z; rotate_left; clear_value z; all_goals have z := trivial)
    | (extract_lets +onlyGivenNames z; clear_value z; have z := trivial)
    | (with_reducible apply Upd.ite)
    | (with_reducible apply State.lineToMem_upd; decide)
    | (with_reducible apply State.onFrame_upd; decide)
    | (with_reducible apply Upd.fst; assumption)
    | simp (disch := decide) only [Upd.mk1_iff, Upd.frames_iff, Upd.out_iff, Upd.bad_iff]
    | split

theorem State.moveLines_upd (s : State) (r : StripeRef) (n : Nat) (spill : Bool) {W P : Nat} {r_ : State} (hm : (subMask 0x100000000000001100001 W && subMask 0x50000b P) = true) (k_ : Upd W P r_ s) :
    Upd W P r_ (State.moveLines s r n spill) := by
  refine Upd.via (w := 0x100000000000001100001) (p := 0x50000b) ?_ hm k_
  clear hm k_
  unfold State.moveLines
  repeat' first
    | (with_reducible apply Upd.foldl; intro _ _)
    | (with_reducible apply Upd.foldlFst; intro _ _)
    | (with_reducible exact Upd.refl _)
    | with_reducible assumption
    | (extract_lets +onlyGivenNames z; refine Upd.cutU (z := z) ?_ (fun hz => ?_); subst z; rotate_left; clear_value z; all_goals have z := trivial)
    | (extract_lets +onlyGivenNames z; refine Upd.cutU (z := z.1) ?_ (fun hz => ?_); subst z; rotate_left; clear_value z; all_goals have z := trivial)
    | (extract_lets +onlyGivenNames z; clear_value z; have z := trivial)
    | (with_reducible apply Upd.ite)
    | (with_reducible apply State.copyLine_upd; decide)
    | (with_reducible apply State.relevel_upd; decide)
    | (with_reducible apply Upd.fst; assumption)
    | simp (disch := decide) only [Upd.mk1_iff, Upd.frames_iff, Upd.out_iff, Upd.bad_iff]
    | split

theorem State.stopCopy_upd (s : State) (r : StripeRef) {W P : Nat} {r_ : State} (hm : (subMask 0x100000000000001100001 W && subMask 0x50004b P) = true) (k_ : Upd W P r_ s) :
    Upd W P r_ (State.stopCopy s r) := by
  refine Upd.via (w := 0x100000000000001100001) (p := 0x50004b) ?_ hm k_
  clear hm k_
  unfold State.stopCopy
  repeat' first
    | (with_reducible exact Upd.refl _)
    | with_reducible assumption
    | (extract_lets +onlyGivenNames z; refine Upd.cutU (z := z) ?_ (fun hz => ?_); subst z; rotate_left; clear_value z; all_goals have z := trivial)
    | (extract_lets +onlyGivenNames z; refine Upd.cutU (z := z.1) ?_ (fun hz => ?_); subst z; rotate_left; clear_value z; all_goals have z := trivial)
    | (extract_lets +onlyGivenNames z; clear_value z; have z := trivial)
    | (with_reducible apply Upd.ite)
    | (with_reducible apply State.moveLines_upd; decide)
    | (with_reducible apply Upd.fst; assumption)
    | simp (disch := decide) only [Upd.mk1_iff, Upd.frames_iff, Upd.pipe_iff, Upd.out_iff, Upd.bad_iff]
    | split

theorem State.loadSlot_upd (s : State) (p : Nat) (x : Nat) (b : Nat) {W P : Nat} {r_ : State} (hm : (subMask 0x0 W && subMask 0x40 P) = true) (k_ : Upd W P r_ s) :
    Upd W P r_ (State.loadSlot s p x b) := by
  refine Upd.via (w := 0x0) (p := 0x40) ?_ hm k_
  clear hm k_
  unfold State.loadSlot
  repeat' first
    | (with_reducible exact Upd.refl _)
    | with_reducible assumption
    | (extract_lets +onlyGivenNames z; refine Upd.cutU (z := z) ?_ (fun hz => ?_); subst z; rotate_left; clear_value z; all_goals have z := trivial)
    | (extract_lets +onlyGivenNames z; refine Upd.cutU (z := z.1) ?_ (fun hz => ?_); subst z; rotate_left; clear_value z; all_goals have z := trivial)
    | (extract_lets +onlyGivenNames z; clear_value z; have z := trivial)
    | (with_reducible apply Upd.ite)
    | (with_reducible apply Upd.fst; assumption)
    | simp (disch := decide) only [Upd.mk1_iff, Upd.pipe_iff]
    | split

theorem State.turnSlot_upd (s : State) (p : Nat) (x : Nat) (b : Nat) {W P : Nat} {r_ : State} (hm : (subMask 0x100000000 W && subMask 0x40 P) = true) (k_ : Upd W P r_ s) :
    Upd W P r_ (State.turnSlot s p x b) := by
  refine Upd.via (w := 0x100000000) (p := 0x40) ?_ hm k_
  clear hm k_
  unfold State.turnSlot
  repeat' first
    | (with_reducible exact Upd.refl _)
    | with_reducible assumption
    | (extract_lets +onlyGivenNames z; refine Upd.cutU (z := z) ?_ (fun hz => ?_); subst z; rotate_left; clear_value z; all_goals have z := trivial)
    | (extract_lets +onlyGivenNames z; refine Upd.cutU (z := z.1) ?_ (fun hz => ?_); subst z; rotate_left; clear_value z; all_goals have z := trivial)
    | (extract_lets +onlyGivenNames z; clear_value z; have z := trivial)
    | (with_reducible apply Upd.ite)
    | (with_reducible apply State.loadSlot_upd; decide)
    | (with_reducible apply Upd.set; decide)
    | (with_reducible apply Upd.fst; assumption)
    | simp (disch := decide) only [Upd.mk1_iff, Upd.pipe_iff]
    | split

theorem State.startStripe_upd (s : State) (p : Nat) (r : StripeRef) {W P : Nat} {r_ : State} (hm : (subMask 0x100000000010101100001 W && subMask 0x50004b P) = true) (k_ : Upd W P r_ s) :
    Upd W P r_ (State.startStripe s p r) := by
  refine Upd.via (w := 0x100000000010101100001) (p := 0x50004b) ?_ hm k_
  clear hm k_
  unfold State.startStripe
  repeat' first
    | (with_reducible exact Upd.refl _)
    | with_reducible assumption
    | (extract_lets +onlyGivenNames z; refine Upd.cutU (z := z) ?_ (fun hz => ?_); subst z; rotate_left; clear_value z; all_goals have z := trivial)
    | (extract_lets +onlyGivenNames z; refine Upd.cutU (z := z.1) ?_ (fun hz => ?_); subst z; rotate_left; clear_value z; all_goals have z := trivial)
    | (extract_lets +onlyGivenNames z; clear_value z; have z := trivial)
    | (with_reducible apply Upd.ite)
    | (with_reducible apply State.delayFrame_upd; decide)
    | (with_reducible apply State.fetchLines_upd; decide)
    | (with_reducible apply Upd.inc; decide)
    | (with_reducible apply State.onFrame_upd; decide)
    | (with_reducible apply Upd.set; decide)
    | (with_reducible apply State.stopCopy_upd; decide)
    | (with_reducible apply State.tapBegin_upd; decide)
    | (with_reducible apply State.turnSlot_upd; decide)
    | (with_reducible apply Upd.fst; assumption)
    | simp (disch := decide) only [Upd.mk1_iff, Upd.frames_iff, Upd.pipe_iff, Upd.out_iff, Upd.bad_iff]
    | split

theorem execStripeDispatch_upd (p : Nat) (s : State) {W P : Nat} (hm : (subMask 0x100000000010101100001 W && subMask 0x50004b P) = true) :
    NextUpd W P s (execStripeDispatch p s) := by
  refine NextUpd.mono (w := 0x100000000010101100001) (p := 0x50004b) ?_ hm
  unfold execStripeDispatch
  repeat' first
    | (with_reducible exact Upd.refl _)
    | with_reducible assumption
    | (extract_lets +onlyGivenNames z; refine Upd.cutU (z := z) ?_ (fun hz => ?_); subst z; rotate_left; clear_value z; all_goals have z := trivial)
    | (extract_lets +onlyGivenNames z; refine Upd.cutU (z := z.1) ?_ (fun hz => ?_); subst z; rotate_left; clear_value z; all_goals have z := trivial)
    | (extract_lets +onlyGivenNames z; refine NextUpd.cutU (z := z) ?_ (fun hz => ?_); subst z; rotate_left; clear_value z; all_goals have z := trivial)
    | (extract_lets +onlyGivenNames z; refine NextUpd.cutU (z := z.1) ?_ (fun hz => ?_); subst z; rotate_left; clear_value z; all_goals have z := trivial)
    | (extract_lets +onlyGivenNames z; clear_value z; have z := trivial)
    | (with_reducible apply NextUpd.next)
    | (with_reducible apply NextUpd.ite)
    | (with_reducible apply Upd.ite)
    | (with_reducible apply State.loadSlot_upd; decide)
    | (with_reducible apply State.noteEligible_upd; decide)
    | (with_reducible apply State.startStripe_upd; decide)
    | (with_reducible apply Upd.fst; assumption)
    | simp (disch := decide) only [Upd.mk1_iff, Upd.frames_iff, Upd.pipe_iff, Upd.out_iff, Upd.bad_iff]
    | split

theorem State.pipeAdvance_upd (s : State) (p : Nat) {W P : Nat} {r_ : State} (hm : (subMask 0x100000000010101100001 W && subMask 0x50004b P) = true) (k_ : Upd W P r_ s) :
    Upd W P r_ (State.pipeAdvance s p) := by
  refine Upd.via (w := 0x100000000010101100001) (p := 0x50004b) ?_ hm k_
  clear hm k_
  unfold State.pipeAdvance
  repeat' first
    | (with_reducible exact Upd.refl _)
    | with_reducible assumption
    | (extract_lets +onlyGivenNames z; refine Upd.cutU (z := z) ?_ (fun hz => ?_); subst z; rotate_left; clear_value z; all_goals have z := trivial)
    | (extract_lets +onlyGivenNames z; refine Upd.cutU (z := z.1) ?_ (fun hz => ?_); subst z; rotate_left; clear_value z; all_goals have z := trivial)
    | (extract_lets +onlyGivenNames z; clear_value z; have z := trivial)
    | (with_reducible apply Upd.ite)
    | (with_reducible apply Upd.set; decide)
    | (with_reducible apply State.startStripe_upd; decide)
    | (with_reducible apply Upd.fst; assumption)
    | simp (disch := decide) only [Upd.mk1_iff, Upd.frames_iff, Upd.pipe_iff, Upd.out_iff, Upd.bad_iff]
    | split

theorem execStripeComplete_upd (p : Nat) (s : State) {W P : Nat} (hm : (subMask 0x1000a0000010101100001 W && subMask 0x5005cb P) = true) :
    NextUpd W P s (execStripeComplete p s) := by
  refine NextUpd.mono (w := 0x1000a0000010101100001) (p := 0x5005cb) ?_ hm
  unfold execStripeComplete
  repeat' first
    | (with_reducible exact Upd.refl _)
    | with_reducible assumption
    | (extract_lets +onlyGivenNames z; refine Upd.cutU (z := z) ?_ (fun hz => ?_); subst z; rotate_left; clear_value z; all_goals have z := trivial)
    | (extract_lets +onlyGivenNames z; refine Upd.cutU (z := z.1) ?_ (fun hz => ?_); subst z; rotate_left; clear_value z; all_goals have z := trivial)
    | (extract_lets +onlyGivenNames z; refine NextUpd.cutU (z := z) ?_ (fun hz => ?_); subst z; rotate_left; clear_value z; all_goals have z := trivial)
    | (extract_lets +onlyGivenNames z; refine NextUpd.cutU (z := z.1) ?_ (fun hz => ?_); subst z; rotate_left; clear_value z; all_goals have z := trivial)
    | (extract_lets +onlyGivenNames z; clear_value z; have z := trivial)
    | (with_reducible apply NextUpd.next)
    | (with_reducible apply NextUpd.ite)
    | (with_reducible apply Upd.ite)
    | (with_reducible apply State.busy_upd; decide)
    | (with_reducible apply State.countRows_upd; decide)
    | (with_reducible apply State.finishFrame_upd; decide)
    | (with_reducible apply State.freeHolds_upd; decide)
    | (with_reducible apply Upd.inc; decide)
    | (with_reducible apply State.onFrame_upd; decide)
    | (with_reducible apply State.pipeAdvance_upd; decide)
    | (with_reducible apply State.releaseLines_upd; decide)
    | (with_reducible apply State.rowsOut_upd; decide)
    | (with_reducible apply State.tapRowsOut_upd; decide)
    | (with_reducible apply Upd.fst; assumption)
    | simp (disch := decide) only [Upd.mk1_iff, Upd.frames_iff, Upd.pipe_iff, Upd.blankets_iff, Upd.ref_iff, Upd.egr_iff, Upd.out_iff, Upd.bad_iff]
    | split

theorem State.frameModeIn_upd (s : State) (p : Nat) (x : Nat) (f : Frame) {W P : Nat} {r_ : State} (hm : (subMask 0x100000000000100000001 W && subMask 0x50004b P) = true) (k_ : Upd W P r_ s) :
    Upd W P r_ (State.frameModeIn s p x f) := by
  refine Upd.via (w := 0x100000000000100000001) (p := 0x50004b) ?_ hm k_
  clear hm k_
  unfold State.frameModeIn
  repeat' first
    | (with_reducible exact Upd.refl _)
    | with_reducible assumption
    | (extract_lets +onlyGivenNames z; refine Upd.cutU (z := z) ?_ (fun hz => ?_); subst z; rotate_left; clear_value z; all_goals have z := trivial)
    | (extract_lets +onlyGivenNames z; refine Upd.cutU (z := z.1) ?_ (fun hz => ?_); subst z; rotate_left; clear_value z; all_goals have z := trivial)
    | (extract_lets +onlyGivenNames z; clear_value z; have z := trivial)
    | (with_reducible apply Upd.ite)
    | (with_reducible apply State.fetchLines_upd; decide)
    | (with_reducible apply Upd.inc; decide)
    | (with_reducible apply State.tapBegin_upd; decide)
    | (with_reducible apply State.turnSlot_upd; decide)
    | (with_reducible apply Upd.fst; assumption)
    | simp (disch := decide) only [Upd.mk1_iff, Upd.frames_iff, Upd.pipe_iff, Upd.out_iff, Upd.bad_iff]
    | split

theorem execFrameModeLine_upd (p : Nat) (s : State) {W P : Nat} (hm : (subMask 0x1000a0000010101100001 W && subMask 0x5005cb P) = true) :
    NextUpd W P s (execFrameModeLine p s) := by
  refine NextUpd.mono (w := 0x1000a0000010101100001) (p := 0x5005cb) ?_ hm
  unfold execFrameModeLine
  repeat' first
    | (with_reducible exact Upd.refl _)
    | with_reducible assumption
    | (extract_lets +onlyGivenNames z; refine Upd.cutU (z := z) ?_ (fun hz => ?_); subst z; rotate_left; clear_value z; all_goals have z := trivial)
    | (extract_lets +onlyGivenNames z; refine Upd.cutU (z := z.1) ?_ (fun hz => ?_); subst z; rotate_left; clear_value z; all_goals have z := trivial)
    | (extract_lets +onlyGivenNames z; refine NextUpd.cutU (z := z) ?_ (fun hz => ?_); subst z; rotate_left; clear_value z; all_goals have z := trivial)
    | (extract_lets +onlyGivenNames z; refine NextUpd.cutU (z := z.1) ?_ (fun hz => ?_); subst z; rotate_left; clear_value z; all_goals have z := trivial)
    | (extract_lets +onlyGivenNames z; clear_value z; have z := trivial)
    | (with_reducible apply NextUpd.next)
    | (with_reducible apply NextUpd.ite)
    | (with_reducible apply Upd.ite)
    | (with_reducible apply State.busy_upd; decide)
    | (with_reducible apply State.countRows_upd; decide)
    | (with_reducible apply State.finishFrame_upd; decide)
    | (with_reducible apply State.frameModeIn_upd; decide)
    | (with_reducible apply State.onFrame_upd; decide)
    | (with_reducible apply State.releaseLines_upd; decide)
    | (with_reducible apply State.rowsOut_upd; decide)
    | (with_reducible apply State.tapRowsOut_upd; decide)
    | (with_reducible apply Upd.fst; assumption)
    | simp (disch := decide) only [Upd.mk1_iff, Upd.frames_iff, Upd.pipe_iff, Upd.blankets_iff, Upd.ref_iff, Upd.egr_iff, Upd.out_iff, Upd.bad_iff]
    | split

theorem execExposureLineStored_upd (c : Nat) (e : Nat) (y : Nat) (s : State) {W P : Nat} (hm : (subMask 0x100000000000001100001 W && subMask 0x50000b P) = true) :
    NextUpd W P s (execExposureLineStored c e y s) := by
  refine NextUpd.mono (w := 0x100000000000001100001) (p := 0x50000b) ?_ hm
  unfold execExposureLineStored
  repeat' first
    | (with_reducible exact Upd.refl _)
    | with_reducible assumption
    | (extract_lets +onlyGivenNames z; refine Upd.cutU (z := z) ?_ (fun hz => ?_); subst z; rotate_left; clear_value z; all_goals have z := trivial)
    | (extract_lets +onlyGivenNames z; refine Upd.cutU (z := z.1) ?_ (fun hz => ?_); subst z; rotate_left; clear_value z; all_goals have z := trivial)
    | (extract_lets +onlyGivenNames z; refine NextUpd.cutU (z := z) ?_ (fun hz => ?_); subst z; rotate_left; clear_value z; all_goals have z := trivial)
    | (extract_lets +onlyGivenNames z; refine NextUpd.cutU (z := z.1) ?_ (fun hz => ?_); subst z; rotate_left; clear_value z; all_goals have z := trivial)
    | (extract_lets +onlyGivenNames z; have _t : State → _ := z; clear _t; subst z; have z := trivial)
    | (extract_lets +onlyGivenNames z; have _t : _ → State := z; clear _t; subst z; have z := trivial)
    | (extract_lets +onlyGivenNames z; have _t : _ → _ → State := z; clear _t; subst z; have z := trivial)
    | (extract_lets +onlyGivenNames z; clear_value z; have z := trivial)
    | (with_reducible apply NextUpd.next)
    | (with_reducible apply NextUpd.ite)
    | (with_reducible apply Upd.ite)
    | (with_reducible apply State.lineToMem_upd; decide)
    | (with_reducible apply State.noteEligible_upd; decide)
    | (with_reducible apply State.relevel_upd; decide)
    | (with_reducible apply Upd.fst; assumption)
    | simp (disch := decide) only [Upd.mk1_iff, Upd.frames_iff, Upd.out_iff, Upd.bad_iff]
    | split

theorem execInputLineRelease_upd (r : Reader) (y : Nat) (s : State) {W P : Nat} (hm : (subMask 0x100000000000001100001 W && subMask 0x50000b P) = true) :
    NextUpd W P s (execInputLineRelease r y s) := by
  refine NextUpd.mono (w := 0x100000000000001100001) (p := 0x50000b) ?_ hm
  unfold execInputLineRelease
  repeat' first
    | (with_reducible exact Upd.refl _)
    | with_reducible assumption
    | (extract_lets +onlyGivenNames z; refine Upd.cutU (z := z) ?_ (fun hz => ?_); subst z; rotate_left; clear_value z; all_goals have z := trivial)
    | (extract_lets +onlyGivenNames z; refine Upd.cutU (z := z.1) ?_ (fun hz => ?_); subst z; rotate_left; clear_value z; all_goals have z := trivial)
    | (extract_lets +onlyGivenNames z; refine NextUpd.cutU (z := z) ?_ (fun hz => ?_); subst z; rotate_left; clear_value z; all_goals have z := trivial)
    | (extract_lets +onlyGivenNames z; refine NextUpd.cutU (z := z.1) ?_ (fun hz => ?_); subst z; rotate_left; clear_value z; all_goals have z := trivial)
    | (extract_lets +onlyGivenNames z; have _t : State → _ := z; clear _t; subst z; have z := trivial)
    | (extract_lets +onlyGivenNames z; have _t : _ → State := z; clear _t; subst z; have z := trivial)
    | (extract_lets +onlyGivenNames z; have _t : _ → _ → State := z; clear _t; subst z; have z := trivial)
    | (extract_lets +onlyGivenNames z; clear_value z; have z := trivial)
    | (with_reducible apply NextUpd.next)
    | (with_reducible apply NextUpd.ite)
    | (with_reducible apply Upd.ite)
    | (with_reducible apply State.copyLine_upd; decide)
    | (with_reducible apply State.onFrame_upd; decide)
    | (with_reducible apply State.relevel_upd; decide)
    | (with_reducible apply Upd.fst; assumption)
    | simp (disch := decide) only [Upd.mk1_iff, Upd.frames_iff, Upd.out_iff, Upd.bad_iff]
    | split

theorem State.beginCopy_upd (s : State) (lane : Nat) (r : StripeRef) (spill : Bool) {W P : Nat} {r_ : State} (hm : (subMask 0x0 W && subMask 0x40 P) = true) (k_ : Upd W P r_ s) :
    Upd W P r_ (State.beginCopy s lane r spill) := by
  refine Upd.via (w := 0x0) (p := 0x40) ?_ hm k_
  clear hm k_
  unfold State.beginCopy
  repeat' first
    | (with_reducible exact Upd.refl _)
    | with_reducible assumption
    | (extract_lets +onlyGivenNames z; refine Upd.cutU (z := z) ?_ (fun hz => ?_); subst z; rotate_left; clear_value z; all_goals have z := trivial)
    | (extract_lets +onlyGivenNames z; refine Upd.cutU (z := z.1) ?_ (fun hz => ?_); subst z; rotate_left; clear_value z; all_goals have z := trivial)
    | (extract_lets +onlyGivenNames z; clear_value z; have z := trivial)
    | (with_reducible apply Upd.ite)
    | (with_reducible apply Upd.fst; assumption)
    | simp (disch := decide) only [Upd.mk1_iff, Upd.pipe_iff]
    | split

theorem execHoldCopy_upd (lane : Nat) (s : State) {W P : Nat} (hm : (subMask 0xa0001010001100021 W && subMask 0x1005ca P) = true) :
    NextUpd W P s (execHoldCopy lane s) := by
  refine NextUpd.mono (w := 0xa0001010001100021) (p := 0x1005ca) ?_ hm
  unfold execHoldCopy
  repeat' first
    | (with_reducible exact Upd.refl _)
    | with_reducible assumption
    | (extract_lets +onlyGivenNames z; refine Upd.cutU (z := z) ?_ (fun hz => ?_); subst z; rotate_left; clear_value z; all_goals have z := trivial)
    | (extract_lets +onlyGivenNames z; refine Upd.cutU (z := z.1) ?_ (fun hz => ?_); subst z; rotate_left; clear_value z; all_goals have z := trivial)
    | (extract_lets +onlyGivenNames z; refine NextUpd.cutU (z := z) ?_ (fun hz => ?_); subst z; rotate_left; clear_value z; all_goals have z := trivial)
    | (extract_lets +onlyGivenNames z; refine NextUpd.cutU (z := z.1) ?_ (fun hz => ?_); subst z; rotate_left; clear_value z; all_goals have z := trivial)
    | (extract_lets +onlyGivenNames z; clear_value z; have z := trivial)
    | (with_reducible apply NextUpd.next)
    | (with_reducible apply NextUpd.ite)
    | (with_reducible apply Upd.ite)
    | (with_reducible apply State.beginCopy_upd; decide)
    | (with_reducible apply State.delayFrame_upd; decide)
    | (with_reducible apply Upd.inc; decide)
    | (with_reducible apply State.noteEligible_upd; decide)
    | (with_reducible apply State.refuseFrame_upd; decide)
    | (with_reducible apply State.relevel_upd; decide)
    | (with_reducible apply State.schEvent_upd; decide)
    | (with_reducible apply Upd.fst; assumption)
    | simp (disch := decide) only [Upd.mk1_iff, Upd.frames_iff, Upd.pipe_iff, Upd.blankets_iff, Upd.ref_iff, Upd.egr_iff, Upd.out_iff]
    | split

theorem State.copyDone_upd (s : State) (lane : Nat) (spill : Bool) {W P : Nat} {r_ : State} (hm : (subMask 0x100000000000001100001 W && subMask 0x50004b P) = true) (k_ : Upd W P r_ s) :
    Upd W P r_ (State.copyDone s lane spill) := by
  refine Upd.via (w := 0x100000000000001100001) (p := 0x50004b) ?_ hm k_
  clear hm k_
  unfold State.copyDone
  repeat' first
    | (with_reducible exact Upd.refl _)
    | with_reducible assumption
    | (extract_lets +onlyGivenNames z; refine Upd.cutU (z := z) ?_ (fun hz => ?_); subst z; rotate_left; clear_value z; all_goals have z := trivial)
    | (extract_lets +onlyGivenNames z; refine Upd.cutU (z := z.1) ?_ (fun hz => ?_); subst z; rotate_left; clear_value z; all_goals have z := trivial)
    | (extract_lets +onlyGivenNames z; clear_value z; have z := trivial)
    | (with_reducible apply Upd.ite)
    | (with_reducible apply State.moveLines_upd; decide)
    | (with_reducible apply Upd.fst; assumption)
    | simp (disch := decide) only [Upd.mk1_iff, Upd.frames_iff, Upd.pipe_iff, Upd.out_iff, Upd.bad_iff]
    | split

theorem execHoldCopyDone_upd (lane : Nat) (s : State) {W P : Nat} (hm : (subMask 0x100000000000001100001 W && subMask 0x50004b P) = true) :
    NextUpd W P s (execHoldCopyDone lane s) := by
  refine NextUpd.mono (w := 0x100000000000001100001) (p := 0x50004b) ?_ hm
  unfold execHoldCopyDone
  repeat' first
    | (with_reducible exact Upd.refl _)
    | with_reducible assumption
    | (extract_lets +onlyGivenNames z; refine Upd.cutU (z := z) ?_ (fun hz => ?_); subst z; rotate_left; clear_value z; all_goals have z := trivial)
    | (extract_lets +onlyGivenNames z; refine Upd.cutU (z := z.1) ?_ (fun hz => ?_); subst z; rotate_left; clear_value z; all_goals have z := trivial)
    | (extract_lets +onlyGivenNames z; refine NextUpd.cutU (z := z) ?_ (fun hz => ?_); subst z; rotate_left; clear_value z; all_goals have z := trivial)
    | (extract_lets +onlyGivenNames z; refine NextUpd.cutU (z := z.1) ?_ (fun hz => ?_); subst z; rotate_left; clear_value z; all_goals have z := trivial)
    | (extract_lets +onlyGivenNames z; clear_value z; have z := trivial)
    | (with_reducible apply NextUpd.next)
    | (with_reducible apply NextUpd.ite)
    | (with_reducible apply Upd.ite)
    | (with_reducible apply State.copyDone_upd; decide)
    | (with_reducible apply Upd.fst; assumption)
    | simp (disch := decide) only [Upd.mk1_iff, Upd.frames_iff, Upd.pipe_iff, Upd.out_iff, Upd.bad_iff]
    | split

theorem execSpillCopyDone_upd (lane : Nat) (s : State) {W P : Nat} (hm : (subMask 0x100000000000001100001 W && subMask 0x50004b P) = true) :
    NextUpd W P s (execSpillCopyDone lane s) := by
  refine NextUpd.mono (w := 0x100000000000001100001) (p := 0x50004b) ?_ hm
  unfold execSpillCopyDone
  repeat' first
    | (with_reducible exact Upd.refl _)
    | with_reducible assumption
    | (extract_lets +onlyGivenNames z; refine Upd.cutU (z := z) ?_ (fun hz => ?_); subst z; rotate_left; clear_value z; all_goals have z := trivial)
    | (extract_lets +onlyGivenNames z; refine Upd.cutU (z := z.1) ?_ (fun hz => ?_); subst z; rotate_left; clear_value z; all_goals have z := trivial)
    | (extract_lets +onlyGivenNames z; refine NextUpd.cutU (z := z) ?_ (fun hz => ?_); subst z; rotate_left; clear_value z; all_goals have z := trivial)
    | (extract_lets +onlyGivenNames z; refine NextUpd.cutU (z := z.1) ?_ (fun hz => ?_); subst z; rotate_left; clear_value z; all_goals have z := trivial)
    | (extract_lets +onlyGivenNames z; clear_value z; have z := trivial)
    | (with_reducible apply NextUpd.next)
    | (with_reducible apply NextUpd.ite)
    | (with_reducible apply Upd.ite)
    | (with_reducible apply State.copyDone_upd; decide)
    | (with_reducible apply Upd.fst; assumption)
    | simp (disch := decide) only [Upd.mk1_iff, Upd.frames_iff, Upd.pipe_iff, Upd.out_iff, Upd.bad_iff]
    | split

theorem State.ctxStore_upd (s : State) (addr : Nat) (data : List Nat) (src : Src) {W P : Nat} {r_ : State} (hm : (subMask 0x0 W && subMask 0x1 P) = true) (k_ : Upd W P r_ s) :
    Upd W P r_ (State.ctxStore s addr data src).1 := by
  refine Upd.via (w := 0x0) (p := 0x1) ?_ hm k_
  clear hm k_
  unfold State.ctxStore
  repeat' first
    | (with_reducible exact Upd.refl _)
    | with_reducible assumption
    | (extract_lets +onlyGivenNames z; refine Upd.cutU (z := z) ?_ (fun hz => ?_); subst z; rotate_left; clear_value z; all_goals have z := trivial)
    | (extract_lets +onlyGivenNames z; refine Upd.cutU (z := z.1) ?_ (fun hz => ?_); subst z; rotate_left; clear_value z; all_goals have z := trivial)
    | (extract_lets +onlyGivenNames z; clear_value z; have z := trivial)
    | (with_reducible apply Upd.ite)
    | (with_reducible apply Upd.iteFst)
    | (with_reducible apply State.putBytes_upd; decide)
    | (with_reducible apply Upd.fst; assumption)
    | simp (disch := decide) only [Upd.mk1_iff]
    | split

theorem execCtxWindowWrite_upd (addr : Nat) (data : List Nat) (src : Src) (s : State) {W P : Nat} (hm : (subMask 0x100000000000000001 W && subMask 0x140c03 P) = true) :
    NextUpd W P s (execCtxWindowWrite addr data src s) := by
  refine NextUpd.mono (w := 0x100000000000000001) (p := 0x140c03) ?_ hm
  unfold execCtxWindowWrite
  repeat' first
    | (with_reducible exact Upd.refl _)
    | with_reducible assumption
    | (extract_lets +onlyGivenNames z; refine Upd.cutU (z := z) ?_ (fun hz => ?_); subst z; rotate_left; clear_value z; all_goals have z := trivial)
    | (extract_lets +onlyGivenNames z; refine Upd.cutU (z := z.1) ?_ (fun hz => ?_); subst z; rotate_left; clear_value z; all_goals have z := trivial)
    | (extract_lets +onlyGivenNames z; refine NextUpd.cutU (z := z) ?_ (fun hz => ?_); subst z; rotate_left; clear_value z; all_goals have z := trivial)
    | (extract_lets +onlyGivenNames z; refine NextUpd.cutU (z := z.1) ?_ (fun hz => ?_); subst z; rotate_left; clear_value z; all_goals have z := trivial)
    | (extract_lets +onlyGivenNames z; clear_value z; have z := trivial)
    | (with_reducible apply NextUpd.next)
    | (with_reducible apply NextUpd.ite)
    | (with_reducible apply Upd.ite)
    | (with_reducible apply State.answer_upd; decide)
    | (with_reducible apply State.ctxStore_upd; decide)
    | (with_reducible apply Upd.fst; assumption)
    | simp (disch := first | decide | rfl | (apply And.intro <;> first | decide | rfl | (apply And.intro <;> rfl))) only [Upd.mk1_iff, Upd.egr_iff, Upd.brg_iff, Upd.mgt_iff, Upd.out_iff]
    | split

theorem effCtxGo_upd (x : Nat) (mode : Nat) (withIng : Bool) (src : Src) (s : State) {W P : Nat} {r_ : State} (hm : (subMask 0x100000010000100001 W && subMask 0x140c03 P) = true) (k_ : Upd W P r_ s) :
    Upd W P r_ (effCtxGo x mode withIng src s) := by
  refine Upd.via (w := 0x100000010000100001) (p := 0x140c03) ?_ hm k_
  clear hm k_
  unfold effCtxGo
  repeat' first
    | (with_reducible exact Upd.refl _)
    | with_reducible assumption
    | (extract_lets +onlyGivenNames z; refine Upd.cutU (z := z) ?_ (fun hz => ?_); subst z; rotate_left; clear_value z; all_goals have z := trivial)
    | (extract_lets +onlyGivenNames z; refine Upd.cutU (z := z.1) ?_ (fun hz => ?_); subst z; rotate_left; clear_value z; all_goals have z := trivial)
    | (extract_lets +onlyGivenNames z; clear_value z; have z := trivial)
    | (with_reducible apply Upd.ite)
    | (with_reducible apply State.answer_upd; decide)
    | (with_reducible apply Upd.set; decide)
    | (with_reducible apply Upd.fst; assumption)
    | simp (disch := first | decide | rfl | (apply And.intro <;> first | decide | rfl | (apply And.intro <;> rfl))) only [Upd.mk1_iff, Upd.egr_iff, Upd.brg_iff, Upd.mgt_iff, Upd.out_iff]
    | split

theorem execCtxGo_upd (x : Nat) (mode : Nat) (withIng : Bool) (src : Src) (s : State) {W P : Nat} (hm : (subMask 0x100000010000100003 W && subMask 0x1c0c03 P) = true) :
    NextUpd W P s (execCtxGo x mode withIng src s) := by
  refine NextUpd.mono (w := 0x100000010000100003) (p := 0x1c0c03) ?_ hm
  unfold execCtxGo
  repeat' first
    | (with_reducible exact Upd.refl _)
    | with_reducible assumption
    | (extract_lets +onlyGivenNames z; refine Upd.cutU (z := z) ?_ (fun hz => ?_); subst z; rotate_left; clear_value z; all_goals have z := trivial)
    | (extract_lets +onlyGivenNames z; refine Upd.cutU (z := z.1) ?_ (fun hz => ?_); subst z; rotate_left; clear_value z; all_goals have z := trivial)
    | (extract_lets +onlyGivenNames z; refine NextUpd.cutU (z := z) ?_ (fun hz => ?_); subst z; rotate_left; clear_value z; all_goals have z := trivial)
    | (extract_lets +onlyGivenNames z; refine NextUpd.cutU (z := z.1) ?_ (fun hz => ?_); subst z; rotate_left; clear_value z; all_goals have z := trivial)
    | (extract_lets +onlyGivenNames z; clear_value z; have z := trivial)
    | (with_reducible apply NextUpd.next)
    | (with_reducible apply NextUpd.ite)
    | (with_reducible apply Upd.ite)
    | (with_reducible apply State.answer_upd; decide)
    | (with_reducible apply State.recorded_upd; decide; intro _)
    | (with_reducible apply effCtxGo_upd; decide)
    | (with_reducible apply Upd.fst; assumption)
    | simp (disch := first | decide | rfl | (apply And.intro <;> first | decide | rfl | (apply And.intro <;> rfl))) only [Upd.mk1_iff, Upd.egr_iff, Upd.brg_iff, Upd.mgt_iff, Upd.sec_iff, Upd.out_iff]
    | split

theorem effCtxCancel_upd (x : Nat) (src : Src) (s : State) {W P : Nat} {r_ : State} (hm : (subMask 0x100000010000000001 W && subMask 0x140c03 P) = true) (k_ : Upd W P r_ s) :
    Upd W P r_ (effCtxCancel x src s) := by
  refine Upd.via (w := 0x100000010000000001) (p := 0x140c03) ?_ hm k_
  clear hm k_
  unfold effCtxCancel
  repeat' first
    | (with_reducible exact Upd.refl _)
    | with_reducible assumption
    | (extract_lets +onlyGivenNames z; refine Upd.cutU (z := z) ?_ (fun hz => ?_); subst z; rotate_left; clear_value z; all_goals have z := trivial)
    | (extract_lets +onlyGivenNames z; refine Upd.cutU (z := z.1) ?_ (fun hz => ?_); subst z; rotate_left; clear_value z; all_goals have z := trivial)
    | (extract_lets +onlyGivenNames z; clear_value z; have z := trivial)
    | (with_reducible apply Upd.ite)
    | (with_reducible apply State.answer_upd; decide)
    | (with_reducible apply Upd.set; decide)
    | (with_reducible apply Upd.fst; assumption)
    | simp (disch := first | decide | rfl | (apply And.intro <;> first | decide | rfl | (apply And.intro <;> rfl))) only [Upd.mk1_iff, Upd.egr_iff, Upd.brg_iff, Upd.mgt_iff, Upd.out_iff]
    | split

theorem execCtxCancel_upd (x : Nat) (src : Src) (s : State) {W P : Nat} (hm : (subMask 0x100000010000000003 W && subMask 0x1c0c03 P) = true) :
    NextUpd W P s (execCtxCancel x src s) := by
  refine NextUpd.mono (w := 0x100000010000000003) (p := 0x1c0c03) ?_ hm
  unfold execCtxCancel
  repeat' first
    | (with_reducible exact Upd.refl _)
    | with_reducible assumption
    | (extract_lets +onlyGivenNames z; refine Upd.cutU (z := z) ?_ (fun hz => ?_); subst z; rotate_left; clear_value z; all_goals have z := trivial)
    | (extract_lets +onlyGivenNames z; refine Upd.cutU (z := z.1) ?_ (fun hz => ?_); subst z; rotate_left; clear_value z; all_goals have z := trivial)
    | (extract_lets +onlyGivenNames z; refine NextUpd.cutU (z := z) ?_ (fun hz => ?_); subst z; rotate_left; clear_value z; all_goals have z := trivial)
    | (extract_lets +onlyGivenNames z; refine NextUpd.cutU (z := z.1) ?_ (fun hz => ?_); subst z; rotate_left; clear_value z; all_goals have z := trivial)
    | (extract_lets +onlyGivenNames z; clear_value z; have z := trivial)
    | (with_reducible apply NextUpd.next)
    | (with_reducible apply NextUpd.ite)
    | (with_reducible apply Upd.ite)
    | (with_reducible apply State.answer_upd; decide)
    | (with_reducible apply State.recorded_upd; decide; intro _)
    | (with_reducible apply effCtxCancel_upd; decide)
    | (with_reducible apply Upd.fst; assumption)
    | simp (disch := first | decide | rfl | (apply And.intro <;> first | decide | rfl | (apply And.intro <;> rfl))) only [Upd.mk1_iff, Upd.egr_iff, Upd.brg_iff, Upd.mgt_iff, Upd.sec_iff, Upd.out_iff]
    | split

theorem State.rollBegin_upd (s : State) (p : Nat) {W P : Nat} {r_ : State} (hm : (subMask 0x10000000008 W && subMask 0x0 P) = true) (k_ : Upd W P r_ s) :
    Upd W P r_ (State.rollBegin s p) := by
  refine Upd.via (w := 0x10000000008) (p := 0x0) ?_ hm k_
  clear hm k_
  unfold State.rollBegin
  dsimp only [List.foldl]
  repeat' first
    | ((with_reducible apply Upd.foldlPair); simp only [List.all_cons, List.all_nil]; decide)
    | ((with_reducible apply Upd.foldlCopy); simp only [List.all_cons, List.all_nil]; decide)
    | (extract_lets +onlyGivenNames z; have _t : List (Fld × Fld) := z; clear _t; subst z; have z := trivial)
    | (extract_lets +onlyGivenNames z; have _t : List (Fld × Nat) := z; clear _t; subst z; have z := trivial)
    | (with_reducible apply Upd.foldl; intro _ _)
    | (with_reducible apply Upd.foldlFst; intro _ _)
    | (with_reducible exact Upd.refl _)
    | with_reducible assumption
    | (extract_lets +onlyGivenNames z; refine Upd.cutU (z := z) ?_ (fun hz => ?_); subst z; rotate_left; clear_value z; all_goals have z := trivial)
    | (extract_lets +onlyGivenNames z; refine Upd.cutU (z := z.1) ?_ (fun hz => ?_); subst z; rotate_left; clear_value z; all_goals have z := trivial)
    | (extract_lets +onlyGivenNames z; clear_value z; have z := trivial)
    | (with_reducible apply Upd.ite)
    | (with_reducible apply Upd.bump; decide)
    | (with_reducible apply Upd.set; decide)
    | (with_reducible apply Upd.fst; assumption)
    | simp (disch := decide) only [Upd.mk1_iff]
    | split

theorem execRollWithdrawn_upd (s : State) {W P : Nat} (hm : (subMask 0x10100000000 W && subMask 0x0 P) = true) :
    NextUpd W P s (execRollWithdrawn s) := by
  refine NextUpd.mono (w := 0x10100000000) (p := 0x0) ?_ hm
  unfold execRollWithdrawn
  repeat' first
    | (with_reducible exact Upd.refl _)
    | with_reducible assumption
    | (extract_lets +onlyGivenNames z; refine Upd.cutU (z := z) ?_ (fun hz => ?_); subst z; rotate_left; clear_value z; all_goals have z := trivial)
    | (extract_lets +onlyGivenNames z; refine Upd.cutU (z := z.1) ?_ (fun hz => ?_); subst z; rotate_left; clear_value z; all_goals have z := trivial)
    | (extract_lets +onlyGivenNames z; refine NextUpd.cutU (z := z) ?_ (fun hz => ?_); subst z; rotate_left; clear_value z; all_goals have z := trivial)
    | (extract_lets +onlyGivenNames z; refine NextUpd.cutU (z := z.1) ?_ (fun hz => ?_); subst z; rotate_left; clear_value z; all_goals have z := trivial)
    | (extract_lets +onlyGivenNames z; clear_value z; have z := trivial)
    | (with_reducible apply NextUpd.next)
    | (with_reducible apply NextUpd.ite)
    | (with_reducible apply Upd.ite)
    | (with_reducible apply Upd.set; decide)
    | (with_reducible apply Upd.fst; assumption)
    | simp (disch := decide) only [Upd.mk1_iff]
    | split

theorem execRollInterval_upd (s : State) {W P : Nat} (hm : (subMask 0x10000000008 W && subMask 0x0 P) = true) :
    NextUpd W P s (execRollInterval s) := by
  refine NextUpd.mono (w := 0x10000000008) (p := 0x0) ?_ hm
  unfold execRollInterval
  repeat' first
    | (with_reducible exact Upd.refl _)
    | with_reducible assumption
    | (extract_lets +onlyGivenNames z; refine Upd.cutU (z := z) ?_ (fun hz => ?_); subst z; rotate_left; clear_value z; all_goals have z := trivial)
    | (extract_lets +onlyGivenNames z; refine Upd.cutU (z := z.1) ?_ (fun hz => ?_); subst z; rotate_left; clear_value z; all_goals have z := trivial)
    | (extract_lets +onlyGivenNames z; refine NextUpd.cutU (z := z) ?_ (fun hz => ?_); subst z; rotate_left; clear_value z; all_goals have z := trivial)
    | (extract_lets +onlyGivenNames z; refine NextUpd.cutU (z := z.1) ?_ (fun hz => ?_); subst z; rotate_left; clear_value z; all_goals have z := trivial)
    | (extract_lets +onlyGivenNames z; clear_value z; have z := trivial)
    | (with_reducible apply NextUpd.next)
    | (with_reducible apply NextUpd.ite)
    | (with_reducible apply Upd.ite)
    | (with_reducible apply State.rollBegin_upd; decide)
    | (with_reducible apply Upd.fst; assumption)
    | simp (disch := decide) only [Upd.mk1_iff]
    | split

theorem effPipeFence_upd (p : Nat) (src : Src) (s : State) {W P : Nat} {r_ : State} (hm : (subMask 0x100000000100000001 W && subMask 0x140c03 P) = true) (k_ : Upd W P r_ s) :
    Upd W P r_ (effPipeFence p src s) := by
  refine Upd.via (w := 0x100000000100000001) (p := 0x140c03) ?_ hm k_
  clear hm k_
  unfold effPipeFence
  repeat' first
    | (with_reducible exact Upd.refl _)
    | with_reducible assumption
    | (extract_lets +onlyGivenNames z; refine Upd.cutU (z := z) ?_ (fun hz => ?_); subst z; rotate_left; clear_value z; all_goals have z := trivial)
    | (extract_lets +onlyGivenNames z; refine Upd.cutU (z := z.1) ?_ (fun hz => ?_); subst z; rotate_left; clear_value z; all_goals have z := trivial)
    | (extract_lets +onlyGivenNames z; clear_value z; have z := trivial)
    | (with_reducible apply Upd.ite)
    | (with_reducible apply State.answer_upd; decide)
    | (with_reducible apply Upd.set; decide)
    | (with_reducible apply Upd.fst; assumption)
    | simp (disch := first | decide | rfl | (apply And.intro <;> first | decide | rfl | (apply And.intro <;> rfl))) only [Upd.mk1_iff, Upd.egr_iff, Upd.brg_iff, Upd.mgt_iff, Upd.out_iff]
    | split

theorem execPipeFence_upd (p : Nat) (src : Src) (s : State) {W P : Nat} (hm : (subMask 0x100000000100000003 W && subMask 0x1c0c03 P) = true) :
    NextUpd W P s (execPipeFence p src s) := by
  refine NextUpd.mono (w := 0x100000000100000003) (p := 0x1c0c03) ?_ hm
  unfold execPipeFence
  repeat' first
    | (with_reducible exact Upd.refl _)
    | with_reducible assumption
    | (extract_lets +onlyGivenNames z; refine Upd.cutU (z := z) ?_ (fun hz => ?_); subst z; rotate_left; clear_value z; all_goals have z := trivial)
    | (extract_lets +onlyGivenNames z; refine Upd.cutU (z := z.1) ?_ (fun hz => ?_); subst z; rotate_left; clear_value z; all_goals have z := trivial)
    | (extract_lets +onlyGivenNames z; refine NextUpd.cutU (z := z) ?_ (fun hz => ?_); subst z; rotate_left; clear_value z; all_goals have z := trivial)
    | (extract_lets +onlyGivenNames z; refine NextUpd.cutU (z := z.1) ?_ (fun hz => ?_); subst z; rotate_left; clear_value z; all_goals have z := trivial)
    | (extract_lets +onlyGivenNames z; clear_value z; have z := trivial)
    | (with_reducible apply NextUpd.next)
    | (with_reducible apply NextUpd.ite)
    | (with_reducible apply Upd.ite)
    | (with_reducible apply State.answer_upd; decide)
    | (with_reducible apply State.recorded_upd; decide; intro _)
    | (with_reducible apply effPipeFence_upd; decide)
    | (with_reducible apply Upd.fst; assumption)
    | simp (disch := first | decide | rfl | (apply And.intro <;> first | decide | rfl | (apply And.intro <;> rfl))) only [Upd.mk1_iff, Upd.egr_iff, Upd.brg_iff, Upd.mgt_iff, Upd.sec_iff, Upd.out_iff]
    | split

theorem execPipeFenceDone_upd (p : Nat) (s : State) {W P : Nat} (hm : (subMask 0x10100000001 W && subMask 0x100002 P) = true) :
    NextUpd W P s (execPipeFenceDone p s) := by
  refine NextUpd.mono (w := 0x10100000001) (p := 0x100002) ?_ hm
  unfold execPipeFenceDone
  repeat' first
    | (with_reducible exact Upd.refl _)
    | with_reducible assumption
    | (extract_lets +onlyGivenNames z; refine Upd.cutU (z := z) ?_ (fun hz => ?_); subst z; rotate_left; clear_value z; all_goals have z := trivial)
    | (extract_lets +onlyGivenNames z; refine Upd.cutU (z := z.1) ?_ (fun hz => ?_); subst z; rotate_left; clear_value z; all_goals have z := trivial)
    | (extract_lets +onlyGivenNames z; refine NextUpd.cutU (z := z) ?_ (fun hz => ?_); subst z; rotate_left; clear_value z; all_goals have z := trivial)
    | (extract_lets +onlyGivenNames z; refine NextUpd.cutU (z := z.1) ?_ (fun hz => ?_); subst z; rotate_left; clear_value z; all_goals have z := trivial)
    | (extract_lets +onlyGivenNames z; clear_value z; have z := trivial)
    | (with_reducible apply NextUpd.next)
    | (with_reducible apply NextUpd.ite)
    | (with_reducible apply Upd.ite)
    | (with_reducible apply Upd.set; decide)
    | (with_reducible apply Upd.sticky; decide; decide; decide)
    | (with_reducible apply Upd.fst; assumption)
    | simp (disch := decide) only [Upd.mk1_iff, Upd.out_iff]
    | split

theorem effPipeUnfence_upd (p : Nat) (s : State) {W P : Nat} {r_ : State} (hm : (subMask 0x100000000 W && subMask 0x0 P) = true) (k_ : Upd W P r_ s) :
    Upd W P r_ (effPipeUnfence p s) := by
  refine Upd.via (w := 0x100000000) (p := 0x0) ?_ hm k_
  clear hm k_
  unfold effPipeUnfence
  repeat' first
    | (with_reducible exact Upd.refl _)
    | with_reducible assumption
    | (extract_lets +onlyGivenNames z; refine Upd.cutU (z := z) ?_ (fun hz => ?_); subst z; rotate_left; clear_value z; all_goals have z := trivial)
    | (extract_lets +onlyGivenNames z; refine Upd.cutU (z := z.1) ?_ (fun hz => ?_); subst z; rotate_left; clear_value z; all_goals have z := trivial)
    | (extract_lets +onlyGivenNames z; clear_value z; have z := trivial)
    | (with_reducible apply Upd.ite)
    | (with_reducible apply Upd.set; decide)
    | (with_reducible apply Upd.fst; assumption)
    | simp (disch := decide) only [Upd.mk1_iff]
    | split

theorem execPipeUnfence_upd (p : Nat) (src : Src) (s : State) {W P : Nat} (hm : (subMask 0x100000000100000003 W && subMask 0x1c0c03 P) = true) :
    NextUpd W P s (execPipeUnfence p src s) := by
  refine NextUpd.mono (w := 0x100000000100000003) (p := 0x1c0c03) ?_ hm
  unfold execPipeUnfence
  repeat' first
    | (with_reducible exact Upd.refl _)
    | with_reducible assumption
    | (extract_lets +onlyGivenNames z; refine Upd.cutU (z := z) ?_ (fun hz => ?_); subst z; rotate_left; clear_value z; all_goals have z := trivial)
    | (extract_lets +onlyGivenNames z; refine Upd.cutU (z := z.1) ?_ (fun hz => ?_); subst z; rotate_left; clear_value z; all_goals have z := trivial)
    | (extract_lets +onlyGivenNames z; refine NextUpd.cutU (z := z) ?_ (fun hz => ?_); subst z; rotate_left; clear_value z; all_goals have z := trivial)
    | (extract_lets +onlyGivenNames z; refine NextUpd.cutU (z := z.1) ?_ (fun hz => ?_); subst z; rotate_left; clear_value z; all_goals have z := trivial)
    | (extract_lets +onlyGivenNames z; clear_value z; have z := trivial)
    | (with_reducible apply NextUpd.next)
    | (with_reducible apply NextUpd.ite)
    | (with_reducible apply Upd.ite)
    | (with_reducible apply State.answer_upd; decide)
    | (with_reducible apply State.recorded_upd; decide; intro _)
    | (with_reducible apply effPipeUnfence_upd; decide)
    | (with_reducible apply Upd.fst; assumption)
    | simp (disch := first | decide | rfl | (apply And.intro <;> first | decide | rfl | (apply And.intro <;> rfl))) only [Upd.mk1_iff, Upd.egr_iff, Upd.brg_iff, Upd.mgt_iff, Upd.sec_iff, Upd.out_iff]
    | split

theorem State.maskNear_upd (s : State) (c : Nat) (seq : Nat) (o : Nat × Nat) {W P : Nat} {r_ : State} (hm : (subMask 0x0 W && subMask 0xc0 P) = true) (k_ : Upd W P r_ s) :
    Upd W P r_ (State.maskNear s c seq o) := by
  refine Upd.via (w := 0x0) (p := 0xc0) ?_ hm k_
  clear hm k_
  unfold State.maskNear
  repeat' first
    | (with_reducible exact Upd.refl _)
    | with_reducible assumption
    | (extract_lets +onlyGivenNames z; refine Upd.cutU (z := z) ?_ (fun hz => ?_); subst z; rotate_left; clear_value z; all_goals have z := trivial)
    | (extract_lets +onlyGivenNames z; refine Upd.cutU (z := z.1) ?_ (fun hz => ?_); subst z; rotate_left; clear_value z; all_goals have z := trivial)
    | (extract_lets +onlyGivenNames z; have _t : State → _ := z; clear _t; subst z; have z := trivial)
    | (extract_lets +onlyGivenNames z; have _t : _ → State := z; clear _t; subst z; have z := trivial)
    | (extract_lets +onlyGivenNames z; have _t : _ → _ → State := z; clear _t; subst z; have z := trivial)
    | (extract_lets +onlyGivenNames z; clear_value z; have z := trivial)
    | (with_reducible apply Upd.ite)
    | (with_reducible apply Upd.fst; assumption)
    | simp (disch := decide) only [Upd.mk1_iff, Upd.pipe_iff, Upd.blankets_iff, Upd.pipe_blankets_iff]
    | split

theorem State.loseStripe_upd (s : State) (p : Nat) (r : StripeRef) {W P : Nat} {r_ : State} (hm : (subMask 0x1000a0000010101100001 W && subMask 0x5005cb P) = true) (k_ : Upd W P r_ s) :
    Upd W P r_ (State.loseStripe s p r) := by
  refine Upd.via (w := 0x1000a0000010101100001) (p := 0x5005cb) ?_ hm k_
  clear hm k_
  unfold State.loseStripe
  repeat' first
    | (with_reducible exact Upd.refl _)
    | with_reducible assumption
    | (extract_lets +onlyGivenNames z; refine Upd.cutU (z := z) ?_ (fun hz => ?_); subst z; rotate_left; clear_value z; all_goals have z := trivial)
    | (extract_lets +onlyGivenNames z; refine Upd.cutU (z := z.1) ?_ (fun hz => ?_); subst z; rotate_left; clear_value z; all_goals have z := trivial)
    | (extract_lets +onlyGivenNames z; clear_value z; have z := trivial)
    | (with_reducible apply Upd.ite)
    | (with_reducible apply State.chFlag_upd; decide)
    | (with_reducible apply State.finishFrame_upd; decide)
    | (with_reducible apply State.freeHolds_upd; decide)
    | (with_reducible apply Upd.inc; decide)
    | (with_reducible apply State.maskNear_upd; decide)
    | (with_reducible apply State.onFrame_upd; decide)
    | (with_reducible apply State.releaseLines_upd; decide)
    | (with_reducible apply State.rowsOut_upd; decide)
    | (with_reducible apply Upd.sticky; decide; decide; decide)
    | (with_reducible apply State.tapAbandon_upd; decide)
    | (with_reducible apply Upd.fst; assumption)
    | simp (disch := decide) only [Upd.mk1_iff, Upd.frames_iff, Upd.pipe_iff, Upd.blankets_iff, Upd.ref_iff, Upd.egr_iff, Upd.out_iff, Upd.bad_iff]
    | split

theorem effPipeReset_upd (p : Nat) (s : State) {W P : Nat} {r_ : State} (hm : (subMask 0x1001a0000010101100005 W && subMask 0x541dcb P) = true) (k_ : Upd W P r_ s) :
    Upd W P r_ (effPipeReset p s) := by
  refine Upd.via (w := 0x1001a0000010101100005) (p := 0x541dcb) ?_ hm k_
  clear hm k_
  unfold effPipeReset
  repeat' first
    | (with_reducible exact Upd.refl _)
    | with_reducible assumption
    | (extract_lets +onlyGivenNames z; refine Upd.cutU (z := z) ?_ (fun hz => ?_); subst z; rotate_left; clear_value z; all_goals have z := trivial)
    | (extract_lets +onlyGivenNames z; refine Upd.cutU (z := z.1) ?_ (fun hz => ?_); subst z; rotate_left; clear_value z; all_goals have z := trivial)
    | (extract_lets +onlyGivenNames z; clear_value z; have z := trivial)
    | (with_reducible apply Upd.ite)
    | (with_reducible apply State.loseStripe_upd; decide)
    | (with_reducible apply State.newGeneration_upd; decide)
    | (with_reducible apply Upd.set; decide)
    | (with_reducible apply Upd.fst; assumption)
    | simp (disch := first | decide | rfl | (apply And.intro <;> first | decide | rfl | (apply And.intro <;> rfl))) only [Upd.mk1_iff, Upd.frames_iff, Upd.pipe_iff, Upd.blankets_iff, Upd.ref_iff, Upd.egr_iff, Upd.brg_iff, Upd.memq_iff, Upd.mgt_iff, Upd.out_iff, Upd.bad_iff]
    | split

theorem execPipeReset_upd (p : Nat) (src : Src) (s : State) {W P : Nat} (hm : (subMask 0x1001a0000010101100007 W && subMask 0x5c1dcb P) = true) :
    NextUpd W P s (execPipeReset p src s) := by
  refine NextUpd.mono (w := 0x1001a0000010101100007) (p := 0x5c1dcb) ?_ hm
  unfold execPipeReset
  repeat' first
    | (with_reducible exact Upd.refl _)
    | with_reducible assumption
    | (extract_lets +onlyGivenNames z; refine Upd.cutU (z := z) ?_ (fun hz => ?_); subst z; rotate_left; clear_value z; all_goals have z := trivial)
    | (extract_lets +onlyGivenNames z; refine Upd.cutU (z := z.1) ?_ (fun hz => ?_); subst z; rotate_left; clear_value z; all_goals have z := trivial)
    | (extract_lets +onlyGivenNames z; refine NextUpd.cutU (z := z) ?_ (fun hz => ?_); subst z; rotate_left; clear_value z; all_goals have z := trivial)
    | (extract_lets +onlyGivenNames z; refine NextUpd.cutU (z := z.1) ?_ (fun hz => ?_); subst z; rotate_left; clear_value z; all_goals have z := trivial)
    | (extract_lets +onlyGivenNames z; clear_value z; have z := trivial)
    | (with_reducible apply NextUpd.next)
    | (with_reducible apply NextUpd.ite)
    | (with_reducible apply Upd.ite)
    | (with_reducible apply State.answer_upd; decide)
    | (with_reducible apply State.recorded_upd; decide; intro _)
    | (with_reducible apply effPipeReset_upd; decide)
    | (with_reducible apply Upd.fst; assumption)
    | simp (disch := first | decide | rfl | (apply And.intro <;> first | decide | rfl | (apply And.intro <;> rfl))) only [Upd.mk1_iff, Upd.frames_iff, Upd.pipe_iff, Upd.blankets_iff, Upd.ref_iff, Upd.egr_iff, Upd.brg_iff, Upd.memq_iff, Upd.mgt_iff, Upd.sec_iff, Upd.out_iff, Upd.bad_iff]
    | split

theorem State.pipeResetDone_upd (s : State) (p : Nat) {W P : Nat} {r_ : State} (hm : (subMask 0x100000000 W && subMask 0x0 P) = true) (k_ : Upd W P r_ s) :
    Upd W P r_ (State.pipeResetDone s p) := by
  refine Upd.via (w := 0x100000000) (p := 0x0) ?_ hm k_
  clear hm k_
  unfold State.pipeResetDone
  repeat' first
    | (with_reducible exact Upd.refl _)
    | with_reducible assumption
    | (extract_lets +onlyGivenNames z; refine Upd.cutU (z := z) ?_ (fun hz => ?_); subst z; rotate_left; clear_value z; all_goals have z := trivial)
    | (extract_lets +onlyGivenNames z; refine Upd.cutU (z := z.1) ?_ (fun hz => ?_); subst z; rotate_left; clear_value z; all_goals have z := trivial)
    | (extract_lets +onlyGivenNames z; clear_value z; have z := trivial)
    | (with_reducible apply Upd.ite)
    | (with_reducible apply Upd.set; decide)
    | (with_reducible apply Upd.fst; assumption)
    | simp (disch := decide) only [Upd.mk1_iff]
    | split

theorem State.pipeClrCnt_upd (s : State) (p : Nat) {W P : Nat} {r_ : State} (hm : (subMask 0x100000000 W && subMask 0x0 P) = true) (k_ : Upd W P r_ s) :
    Upd W P r_ (State.pipeClrCnt s p) := by
  refine Upd.via (w := 0x100000000) (p := 0x0) ?_ hm k_
  clear hm k_
  unfold State.pipeClrCnt
  repeat' first
    | (with_reducible apply Upd.foldlSet; decide)
    | ((with_reducible apply Upd.foldlPair); simp only [List.all_cons, List.all_nil]; decide)
    | (with_reducible apply Upd.foldl; intro _ _)
    | (with_reducible apply Upd.foldlFst; intro _ _)
    | (with_reducible exact Upd.refl _)
    | with_reducible assumption
    | (extract_lets +onlyGivenNames z; refine Upd.cutU (z := z) ?_ (fun hz => ?_); subst z; rotate_left; clear_value z; all_goals have z := trivial)
    | (extract_lets +onlyGivenNames z; refine Upd.cutU (z := z.1) ?_ (fun hz => ?_); subst z; rotate_left; clear_value z; all_goals have z := trivial)
    | (extract_lets +onlyGivenNames z; clear_value z; have z := trivial)
    | (with_reducible apply Upd.ite)
    | (with_reducible apply Upd.set; decide)
    | (with_reducible apply Upd.fst; assumption)
    | simp (disch := decide) only [Upd.mk1_iff]
    | split

theorem execPipeClrCnt_upd (p : Nat) (src : Src) (s : State) {W P : Nat} (hm : (subMask 0x100000000100000001 W && subMask 0x140c03 P) = true) :
    NextUpd W P s (execPipeClrCnt p src s) := by
  refine NextUpd.mono (w := 0x100000000100000001) (p := 0x140c03) ?_ hm
  unfold execPipeClrCnt
  repeat' first
    | (with_reducible exact Upd.refl _)
    | with_reducible assumption
    | (extract_lets +onlyGivenNames z; refine Upd.cutU (z := z) ?_ (fun hz => ?_); subst z; rotate_left; clear_value z; all_goals have z := trivial)
    | (extract_lets +onlyGivenNames z; refine Upd.cutU (z := z.1) ?_ (fun hz => ?_); subst z; rotate_left; clear_value z; all_goals have z := trivial)
    | (extract_lets +onlyGivenNames z; refine NextUpd.cutU (z := z) ?_ (fun hz => ?_); subst z; rotate_left; clear_value z; all_goals have z := trivial)
    | (extract_lets +onlyGivenNames z; refine NextUpd.cutU (z := z.1) ?_ (fun hz => ?_); subst z; rotate_left; clear_value z; all_goals have z := trivial)
    | (extract_lets +onlyGivenNames z; clear_value z; have z := trivial)
    | (with_reducible apply NextUpd.next)
    | (with_reducible apply NextUpd.ite)
    | (with_reducible apply Upd.ite)
    | (with_reducible apply State.answer_upd; decide)
    | (with_reducible apply State.pipeClrCnt_upd; decide)
    | (with_reducible apply Upd.fst; assumption)
    | simp (disch := first | decide | rfl | (apply And.intro <;> first | decide | rfl | (apply And.intro <;> rfl))) only [Upd.mk1_iff, Upd.egr_iff, Upd.brg_iff, Upd.mgt_iff, Upd.out_iff]
    | split

theorem State.playBegin_upd (s : State) (k : Nat) {W P : Nat} {r_ : State} (hm : (subMask 0x100000 W && subMask 0x0 P) = true) (k_ : Upd W P r_ s) :
    Upd W P r_ (State.playBegin s k) := by
  refine Upd.via (w := 0x100000) (p := 0x0) ?_ hm k_
  clear hm k_
  unfold State.playBegin
  repeat' first
    | (with_reducible exact Upd.refl _)
    | with_reducible assumption
    | (extract_lets +onlyGivenNames z; refine Upd.cutU (z := z) ?_ (fun hz => ?_); subst z; rotate_left; clear_value z; all_goals have z := trivial)
    | (extract_lets +onlyGivenNames z; refine Upd.cutU (z := z.1) ?_ (fun hz => ?_); subst z; rotate_left; clear_value z; all_goals have z := trivial)
    | (extract_lets +onlyGivenNames z; clear_value z; have z := trivial)
    | (with_reducible apply Upd.ite)
    | (with_reducible apply Upd.set; decide)
    | (with_reducible apply Upd.fst; assumption)
    | simp (disch := decide) only [Upd.mk1_iff]
    | split

theorem execPlayStart_upd (k : Nat) (src : Src) (s : State) {W P : Nat} (hm : (subMask 0x100000000000100001 W && subMask 0x140c03 P) = true) :
    NextUpd W P s (execPlayStart k src s) := by
  refine NextUpd.mono (w := 0x100000000000100001) (p := 0x140c03) ?_ hm
  unfold execPlayStart
  repeat' first
    | (with_reducible exact Upd.refl _)
    | with_reducible assumption
    | (extract_lets +onlyGivenNames z; refine Upd.cutU (z := z) ?_ (fun hz => ?_); subst z; rotate_left; clear_value z; all_goals have z := trivial)
    | (extract_lets +onlyGivenNames z; refine Upd.cutU (z := z.1) ?_ (fun hz => ?_); subst z; rotate_left; clear_value z; all_goals have z := trivial)
    | (extract_lets +onlyGivenNames z; refine NextUpd.cutU (z := z) ?_ (fun hz => ?_); subst z; rotate_left; clear_value z; all_goals have z := trivial)
    | (extract_lets +onlyGivenNames z; refine NextUpd.cutU (z := z.1) ?_ (fun hz => ?_); subst z; rotate_left; clear_value z; all_goals have z := trivial)
    | (extract_lets +onlyGivenNames z; clear_value z; have z := trivial)
    | (with_reducible apply NextUpd.next)
    | (with_reducible apply NextUpd.ite)
    | (with_reducible apply Upd.ite)
    | (with_reducible apply State.answer_upd; decide)
    | (with_reducible apply State.playBegin_upd; decide)
    | (with_reducible apply Upd.fst; assumption)
    | simp (disch := first | decide | rfl | (apply And.intro <;> first | decide | rfl | (apply And.intro <;> rfl))) only [Upd.mk1_iff, Upd.egr_iff, Upd.brg_iff, Upd.mgt_iff, Upd.out_iff]
    | split

theorem State.playHalt_upd (s : State) (k : Nat) {W P : Nat} {r_ : State} (hm : (subMask 0x100001 W && subMask 0x100002 P) = true) (k_ : Upd W P r_ s) :
    Upd W P r_ (State.playHalt s k) := by
  refine Upd.via (w := 0x100001) (p := 0x100002) ?_ hm k_
  clear hm k_
  unfold State.playHalt
  repeat' first
    | (with_reducible exact Upd.refl _)
    | with_reducible assumption
    | (extract_lets +onlyGivenNames z; refine Upd.cutU (z := z) ?_ (fun hz => ?_); subst z; rotate_left; clear_value z; all_goals have z := trivial)
    | (extract_lets +onlyGivenNames z; refine Upd.cutU (z := z.1) ?_ (fun hz => ?_); subst z; rotate_left; clear_value z; all_goals have z := trivial)
    | (extract_lets +onlyGivenNames z; clear_value z; have z := trivial)
    | (with_reducible apply Upd.ite)
    | (with_reducible apply State.playEnd_upd; decide)
    | (with_reducible apply Upd.set; decide)
    | (with_reducible apply Upd.fst; assumption)
    | simp (disch := decide) only [Upd.mk1_iff, Upd.out_iff]
    | split

theorem execPlayStop_upd (k : Nat) (src : Src) (s : State) {W P : Nat} (hm : (subMask 0x100000000000100001 W && subMask 0x140c03 P) = true) :
    NextUpd W P s (execPlayStop k src s) := by
  refine NextUpd.mono (w := 0x100000000000100001) (p := 0x140c03) ?_ hm
  unfold execPlayStop
  repeat' first
    | (with_reducible exact Upd.refl _)
    | with_reducible assumption
    | (extract_lets +onlyGivenNames z; refine Upd.cutU (z := z) ?_ (fun hz => ?_); subst z; rotate_left; clear_value z; all_goals have z := trivial)
    | (extract_lets +onlyGivenNames z; refine Upd.cutU (z := z.1) ?_ (fun hz => ?_); subst z; rotate_left; clear_value z; all_goals have z := trivial)
    | (extract_lets +onlyGivenNames z; refine NextUpd.cutU (z := z) ?_ (fun hz => ?_); subst z; rotate_left; clear_value z; all_goals have z := trivial)
    | (extract_lets +onlyGivenNames z; refine NextUpd.cutU (z := z.1) ?_ (fun hz => ?_); subst z; rotate_left; clear_value z; all_goals have z := trivial)
    | (extract_lets +onlyGivenNames z; clear_value z; have z := trivial)
    | (with_reducible apply NextUpd.next)
    | (with_reducible apply NextUpd.ite)
    | (with_reducible apply Upd.ite)
    | (with_reducible apply State.answer_upd; decide)
    | (with_reducible apply State.playHalt_upd; decide)
    | (with_reducible apply Upd.fst; assumption)
    | simp (disch := first | decide | rfl | (apply And.intro <;> first | decide | rfl | (apply And.intro <;> rfl))) only [Upd.mk1_iff, Upd.egr_iff, Upd.brg_iff, Upd.mgt_iff, Upd.out_iff]
    | split

theorem State.playSkip_upd (s : State) (k : Nat) {W P : Nat} {r_ : State} (hm : (subMask 0x100001 W && subMask 0x100002 P) = true) (k_ : Upd W P r_ s) :
    Upd W P r_ (State.playSkip s k) := by
  refine Upd.via (w := 0x100001) (p := 0x100002) ?_ hm k_
  clear hm k_
  unfold State.playSkip
  repeat' first
    | (with_reducible exact Upd.refl _)
    | with_reducible assumption
    | (extract_lets +onlyGivenNames z; refine Upd.cutU (z := z) ?_ (fun hz => ?_); subst z; rotate_left; clear_value z; all_goals have z := trivial)
    | (extract_lets +onlyGivenNames z; refine Upd.cutU (z := z.1) ?_ (fun hz => ?_); subst z; rotate_left; clear_value z; all_goals have z := trivial)
    | (extract_lets +onlyGivenNames z; clear_value z; have z := trivial)
    | (with_reducible apply Upd.ite)
    | (with_reducible apply Upd.inc; decide)
    | (with_reducible apply State.playEvent_upd; decide)
    | (with_reducible apply State.playNext_upd; decide)
    | (with_reducible apply Upd.fst; assumption)
    | simp (disch := decide) only [Upd.mk1_iff, Upd.out_iff]
    | split

theorem execPlayRecordRead_upd (k : Nat) (s : State) {W P : Nat} (hm : (subMask 0x1010a0011010000100021 W && subMask 0x10c5ca P) = true) :
    NextUpd W P s (execPlayRecordRead k s) := by
  refine NextUpd.mono (w := 0x1010a0011010000100021) (p := 0x10c5ca) ?_ hm
  unfold execPlayRecordRead
  repeat' first
    | (with_reducible exact Upd.refl _)
    | with_reducible assumption
    | (extract_lets +onlyGivenNames z; refine Upd.cutU (z := z) ?_ (fun hz => ?_); subst z; rotate_left; clear_value z; all_goals have z := trivial)
    | (extract_lets +onlyGivenNames z; refine Upd.cutU (z := z.1) ?_ (fun hz => ?_); subst z; rotate_left; clear_value z; all_goals have z := trivial)
    | (extract_lets +onlyGivenNames z; refine NextUpd.cutU (z := z) ?_ (fun hz => ?_); subst z; rotate_left; clear_value z; all_goals have z := trivial)
    | (extract_lets +onlyGivenNames z; refine NextUpd.cutU (z := z.1) ?_ (fun hz => ?_); subst z; rotate_left; clear_value z; all_goals have z := trivial)
    | (extract_lets +onlyGivenNames z; clear_value z; have z := trivial)
    | (with_reducible apply NextUpd.next)
    | (with_reducible apply NextUpd.ite)
    | (with_reducible apply Upd.ite)
    | (with_reducible apply Upd.bump; decide)
    | (with_reducible apply State.dramRead_upd; decide)
    | (with_reducible apply State.frameOpened_upd; decide)
    | (with_reducible apply State.noteEligible_upd; decide)
    | (with_reducible apply State.playFrameDone_upd; decide)
    | (with_reducible apply State.playSkip_upd; decide)
    | (with_reducible apply Upd.set; decide)
    | (with_reducible apply Upd.fst; assumption)
    | simp (disch := decide) only [Upd.mk1_iff, Upd.frames_iff, Upd.pipe_iff, Upd.blankets_iff, Upd.ref_iff, Upd.egr_iff, Upd.job_iff, Upd.fab_iff, Upd.out_iff]
    | split

theorem execPlayPace_upd (k : Nat) (lines : Nat) (s : State) {W P : Nat} (hm : (subMask 0x0 W && subMask 0x8 P) = true) :
    NextUpd W P s (execPlayPace k lines s) := by
  refine NextUpd.mono (w := 0x0) (p := 0x8) ?_ hm
  unfold execPlayPace
  repeat' first
    | (with_reducible exact Upd.refl _)
    | with_reducible assumption
    | (extract_lets +onlyGivenNames z; refine Upd.cutU (z := z) ?_ (fun hz => ?_); subst z; rotate_left; clear_value z; all_goals have z := trivial)
    | (extract_lets +onlyGivenNames z; refine Upd.cutU (z := z.1) ?_ (fun hz => ?_); subst z; rotate_left; clear_value z; all_goals have z := trivial)
    | (extract_lets +onlyGivenNames z; refine NextUpd.cutU (z := z) ?_ (fun hz => ?_); subst z; rotate_left; clear_value z; all_goals have z := trivial)
    | (extract_lets +onlyGivenNames z; refine NextUpd.cutU (z := z.1) ?_ (fun hz => ?_); subst z; rotate_left; clear_value z; all_goals have z := trivial)
    | (extract_lets +onlyGivenNames z; clear_value z; have z := trivial)
    | (with_reducible apply NextUpd.next)
    | (with_reducible apply NextUpd.ite)
    | (with_reducible apply Upd.ite)
    | (with_reducible apply State.noteEligible_upd; decide)
    | (with_reducible apply State.onOpen_upd; decide)
    | (with_reducible apply Upd.fst; assumption)
    | simp (disch := decide) only [Upd.mk1_iff, Upd.frames_iff]
    | split

end Sys2Proof.Machine
end

