-- ==== Sys2Proof/Laws/UpdMrg.lean ====
section
/-! SUPPORT. What each operation of Machine/Mrg.lean may change (see Laws/Upd.lean). -/

set_option linter.unusedSimpArgs false
set_option linter.tactic.unusedName false

namespace Sys2Proof.Machine

theorem State.seamCheck_upd (s : State) (k : Nat) (seq : Nat) (q : Nat × Side × Side) (x0 : Nat) {W P : Nat} {r_ : State} (hm : (subMask 0x11000000000001 W && subMask 0x10018a P) = true) (k_ : Upd W P r_ s) :
    Upd W P r_ (State.seamCheck s k seq q x0) := by
  refine Upd.via (w := 0x11000000000001) (p := 0x10018a) ?_ hm k_
  clear hm k_
  induction x0 generalizing s k seq q with
  | zero =>
    unfold State.seamCheck
    repeat' first
      | (with_reducible exact Upd.refl _)
      | with_reducible assumption
      | (extract_lets +onlyGivenNames z; refine Upd.cutU (z := z) ?_ (fun hz => ?_); subst z; rotate_left; clear_value z; all_goals have z := trivial)
      | (extract_lets +onlyGivenNames z; refine Upd.cutU (z := z.1) ?_ (fun hz => ?_); subst z; rotate_left; clear_value z; all_goals have z := trivial)
      | (extract_lets +onlyGivenNames z; have _t : State → _ := z; clear _t; subst z; have z := trivial)
      | (extract_lets +onlyGivenNames z; have _t : _ → State := z; clear _t; subst z; have z := trivial)
      | (extract_lets +onlyGivenNames z; have _t : _ → _ → State := z; clear _t; subst z; have z := trivial)
      | (extract_lets +onlyGivenNames z; clear_value z; have z := trivial)
      | (with_reducible apply Upd.ite)
      | (with_reducible apply State.emitLine_upd; decide)
      | (with_reducible apply Upd.inc; decide)
      | (with_reducible apply State.mrgEvent_upd; decide)
      | (with_reducible apply Upd.set; decide)
      | (with_reducible apply Upd.fst; assumption)
      | simp (disch := decide) only [Upd.mk1_iff, Upd.frames_iff, Upd.blankets_iff, Upd.ref_iff, Upd.out_iff]
      | split
  | succ n ih =>
    unfold State.seamCheck
    repeat' first
      | (with_reducible exact Upd.refl _)
      | with_reducible assumption
      | (extract_lets +onlyGivenNames z; refine Upd.cutU (z := z) ?_ (fun hz => ?_); subst z; rotate_left; clear_value z; all_goals have z := trivial)
      | (extract_lets +onlyGivenNames z; refine Upd.cutU (z := z.1) ?_ (fun hz => ?_); subst z; rotate_left; clear_value z; all_goals have z := trivial)
      | (extract_lets +onlyGivenNames z; have _t : State → _ := z; clear _t; subst z; have z := trivial)
      | (extract_lets +onlyGivenNames z; have _t : _ → State := z; clear _t; subst z; have z := trivial)
      | (extract_lets +onlyGivenNames z; have _t : _ → _ → State := z; clear _t; subst z; have z := trivial)
      | (extract_lets +onlyGivenNames z; clear_value z; have z := trivial)
      | (with_reducible refine Upd.trans ?_ (ih ..))
      | (with_reducible apply Upd.ite)
      | (with_reducible apply State.emitLine_upd; decide)
      | (with_reducible apply Upd.inc; decide)
      | (with_reducible apply State.mrgEvent_upd; decide)
      | (with_reducible apply Upd.set; decide)
      | (with_reducible apply Upd.fst; assumption)
      | simp (disch := decide) only [Upd.mk1_iff, Upd.frames_iff, Upd.blankets_iff, Upd.ref_iff, Upd.out_iff]
      | split

theorem execMemberRowArrival_upd (s : State) {W P : Nat} (hm : (subMask 0x11000000000001 W && subMask 0x1001ca P) = true) :
    NextUpd W P s (execMemberRowArrival s) := by
  refine NextUpd.mono (w := 0x11000000000001) (p := 0x1001ca) ?_ hm
  unfold execMemberRowArrival
  repeat' first
    | (with_reducible apply Upd.foldl; intro _ _)
    | (with_reducible apply Upd.foldlFst; intro _ _)
    | (with_reducible exact Upd.refl _)
    | with_reducible assumption
    | (extract_lets +onlyGivenNames z; refine Upd.cutU (z := z) ?_ (fun hz => ?_); subst z; rotate_left; clear_value z; all_goals have z := trivial)
    | (extract_lets +onlyGivenNames z; refine Upd.cutU (z := z.1) ?_ (fun hz => ?_); subst z; rotate_left; clear_value z; all_goals have z := trivial)
    | (extract_lets +onlyGivenNames z; refine NextUpd.cutU (z := z) ?_ (fun hz => ?_); subst z; rotate_left; clear_value z; all_goals have z := trivial)
    | (extract_lets +onlyGivenNames z; refine NextUpd.cutU (z := z.1) ?_ (fun hz => ?_); subst z; rotate_left; clear_value z; all_goals have z := trivial)
    | (extract_lets +onlyGivenNames z; clear_value z; have z := trivial)
    | (with_reducible apply NextUpd.next)
    | (with_reducible apply NextUpd.ite)
    | (with_reducible apply Upd.ite)
    | (with_reducible apply State.onBlanket_upd; decide)
    | (with_reducible apply State.seamCheck_upd; decide)
    | (with_reducible apply State.trimRows_upd; decide)
    | (with_reducible apply Upd.fst; assumption)
    | simp (disch := decide) only [Upd.mk1_iff, Upd.frames_iff, Upd.pipe_iff, Upd.blankets_iff, Upd.ref_iff, Upd.out_iff]
    | split

theorem execTileLineEmit_upd (k : Nat) (seq : Nat) (c : Nat) (s : State) {W P : Nat} (hm : (subMask 0x11000000000001 W && subMask 0x10018a P) = true) :
    NextUpd W P s (execTileLineEmit k seq c s) := by
  refine NextUpd.mono (w := 0x11000000000001) (p := 0x10018a) ?_ hm
  unfold execTileLineEmit
  repeat' first
    | (with_reducible exact Upd.refl _)
    | with_reducible assumption
    | (extract_lets +onlyGivenNames z; refine Upd.cutU (z := z) ?_ (fun hz => ?_); subst z; rotate_left; clear_value z; all_goals have z := trivial)
    | (extract_lets +onlyGivenNames z; refine Upd.cutU (z := z.1) ?_ (fun hz => ?_); subst z; rotate_left; clear_value z; all_goals have z := trivial)
    | (extract_lets +onlyGivenNames z; refine NextUpd.cutU (z := z) ?_ (fun hz => ?_); subst z; rotate_left; clear_value z; all_goals have z := trivial)
    | (extract_lets +onlyGivenNames z; refine NextUpd.cutU (z := z.1) ?_ (fun hz => ?_); subst z; rotate_left; clear_value z; all_goals have z := trivial)
    | (extract_lets +onlyGivenNames z; clear_value z; have z := trivial)
    | (with_reducible apply NextUpd.next)
    | (with_reducible apply NextUpd.ite)
    | (with_reducible apply Upd.ite)
    | (with_reducible apply State.emitLine_upd; decide)
    | (with_reducible apply Upd.inc; decide)
    | (with_reducible apply State.mrgEvent_upd; decide)
    | (with_reducible apply Upd.fst; assumption)
    | simp (disch := decide) only [Upd.mk1_iff, Upd.frames_iff, Upd.blankets_iff, Upd.ref_iff, Upd.out_iff]
    | split

theorem execJoinWindowClose_upd (k : Nat) (seq : Nat) (s : State) {W P : Nat} (hm : (subMask 0x1000000000001 W && subMask 0x10018a P) = true) :
    NextUpd W P s (execJoinWindowClose k seq s) := by
  refine NextUpd.mono (w := 0x1000000000001) (p := 0x10018a) ?_ hm
  unfold execJoinWindowClose
  repeat' first
    | (with_reducible apply Upd.foldl; intro _ _)
    | (with_reducible apply Upd.foldlFst; intro _ _)
    | (with_reducible exact Upd.refl _)
    | with_reducible assumption
    | (extract_lets +onlyGivenNames z; refine Upd.cutU (z := z) ?_ (fun hz => ?_); subst z; rotate_left; clear_value z; all_goals have z := trivial)
    | (extract_lets +onlyGivenNames z; refine Upd.cutU (z := z.1) ?_ (fun hz => ?_); subst z; rotate_left; clear_value z; all_goals have z := trivial)
    | (extract_lets +onlyGivenNames z; refine NextUpd.cutU (z := z) ?_ (fun hz => ?_); subst z; rotate_left; clear_value z; all_goals have z := trivial)
    | (extract_lets +onlyGivenNames z; refine NextUpd.cutU (z := z.1) ?_ (fun hz => ?_); subst z; rotate_left; clear_value z; all_goals have z := trivial)
    | (extract_lets +onlyGivenNames z; clear_value z; have z := trivial)
    | (with_reducible apply NextUpd.next)
    | (with_reducible apply NextUpd.ite)
    | (with_reducible apply Upd.ite)
    | (with_reducible apply State.memberAbsent_upd; decide)
    | (with_reducible apply State.onBlanket_upd; decide)
    | (with_reducible apply Upd.fst; assumption)
    | simp (disch := decide) only [Upd.mk1_iff, Upd.frames_iff, Upd.blankets_iff, Upd.ref_iff, Upd.out_iff]
    | split

theorem execSeamPacketSend_upd (k : Nat) (seq : Nat) (side : Nat) (s : State) {W P : Nat} (hm : (subMask 0x1000011000000000001 W && subMask 0x10818a P) = true) :
    NextUpd W P s (execSeamPacketSend k seq side s) := by
  refine NextUpd.mono (w := 0x1000011000000000001) (p := 0x10818a) ?_ hm
  unfold execSeamPacketSend
  repeat' first
    | (with_reducible exact Upd.refl _)
    | with_reducible assumption
    | (extract_lets +onlyGivenNames z; refine Upd.cutU (z := z) ?_ (fun hz => ?_); subst z; rotate_left; clear_value z; all_goals have z := trivial)
    | (extract_lets +onlyGivenNames z; refine Upd.cutU (z := z.1) ?_ (fun hz => ?_); subst z; rotate_left; clear_value z; all_goals have z := trivial)
    | (extract_lets +onlyGivenNames z; refine NextUpd.cutU (z := z) ?_ (fun hz => ?_); subst z; rotate_left; clear_value z; all_goals have z := trivial)
    | (extract_lets +onlyGivenNames z; refine NextUpd.cutU (z := z.1) ?_ (fun hz => ?_); subst z; rotate_left; clear_value z; all_goals have z := trivial)
    | (extract_lets +onlyGivenNames z; clear_value z; have z := trivial)
    | (with_reducible apply NextUpd.next)
    | (with_reducible apply NextUpd.ite)
    | (with_reducible apply Upd.ite)
    | (with_reducible apply State.seamSend_upd; decide)
    | (with_reducible apply Upd.fst; assumption)
    | simp (disch := decide) only [Upd.mk1_iff, Upd.frames_iff, Upd.blankets_iff, Upd.ref_iff, Upd.fab_iff, Upd.out_iff]
    | split

theorem State.seamReceived_upd (s : State) (b : List Nat) {W P : Nat} {r_ : State} (hm : (subMask 0x11000000000001 W && subMask 0x10018a P) = true) (k_ : Upd W P r_ s) :
    Upd W P r_ (State.seamReceived s b) := by
  refine Upd.via (w := 0x11000000000001) (p := 0x10018a) ?_ hm k_
  clear hm k_
  unfold State.seamReceived
  repeat' first
    | (with_reducible apply Upd.foldl; intro _ _)
    | (with_reducible apply Upd.foldlFst; intro _ _)
    | (with_reducible exact Upd.refl _)
    | with_reducible assumption
    | (extract_lets +onlyGivenNames z; refine Upd.cutU (z := z) ?_ (fun hz => ?_); subst z; rotate_left; clear_value z; all_goals have z := trivial)
    | (extract_lets +onlyGivenNames z; refine Upd.cutU (z := z.1) ?_ (fun hz => ?_); subst z; rotate_left; clear_value z; all_goals have z := trivial)
    | (extract_lets +onlyGivenNames z; clear_value z; have z := trivial)
    | (with_reducible apply Upd.ite)
    | (with_reducible apply Upd.inc; decide)
    | (with_reducible apply State.onBlanket_upd; decide)
    | (with_reducible apply State.seamCheck_upd; decide)
    | (with_reducible apply Upd.fst; assumption)
    | simp (disch := decide) only [Upd.mk1_iff, Upd.frames_iff, Upd.blankets_iff, Upd.ref_iff, Upd.out_iff]
    | split

theorem execSeamPacketReceived_upd (data : List Nat) (s : State) {W P : Nat} (hm : (subMask 0x11000000000001 W && subMask 0x10018a P) = true) :
    NextUpd W P s (execSeamPacketReceived data s) := by
  refine NextUpd.mono (w := 0x11000000000001) (p := 0x10018a) ?_ hm
  unfold execSeamPacketReceived
  repeat' first
    | (with_reducible exact Upd.refl _)
    | with_reducible assumption
    | (extract_lets +onlyGivenNames z; refine Upd.cutU (z := z) ?_ (fun hz => ?_); subst z; rotate_left; clear_value z; all_goals have z := trivial)
    | (extract_lets +onlyGivenNames z; refine Upd.cutU (z := z.1) ?_ (fun hz => ?_); subst z; rotate_left; clear_value z; all_goals have z := trivial)
    | (extract_lets +onlyGivenNames z; refine NextUpd.cutU (z := z) ?_ (fun hz => ?_); subst z; rotate_left; clear_value z; all_goals have z := trivial)
    | (extract_lets +onlyGivenNames z; refine NextUpd.cutU (z := z.1) ?_ (fun hz => ?_); subst z; rotate_left; clear_value z; all_goals have z := trivial)
    | (extract_lets +onlyGivenNames z; clear_value z; have z := trivial)
    | (with_reducible apply NextUpd.next)
    | (with_reducible apply NextUpd.ite)
    | (with_reducible apply Upd.ite)
    | (with_reducible apply State.seamReceived_upd; decide)
    | (with_reducible apply Upd.fst; assumption)
    | simp (disch := decide) only [Upd.mk1_iff, Upd.frames_iff, Upd.blankets_iff, Upd.ref_iff, Upd.out_iff]
    | split

theorem execSeamWaitExpiry_upd (k : Nat) (seq : Nat) (side : Nat) (s : State) {W P : Nat} (hm : (subMask 0x11000000000001 W && subMask 0x10018a P) = true) :
    NextUpd W P s (execSeamWaitExpiry k seq side s) := by
  refine NextUpd.mono (w := 0x11000000000001) (p := 0x10018a) ?_ hm
  unfold execSeamWaitExpiry
  repeat' first
    | (with_reducible apply Upd.foldl; intro _ _)
    | (with_reducible apply Upd.foldlFst; intro _ _)
    | (with_reducible exact Upd.refl _)
    | with_reducible assumption
    | (extract_lets +onlyGivenNames z; refine Upd.cutU (z := z) ?_ (fun hz => ?_); subst z; rotate_left; clear_value z; all_goals have z := trivial)
    | (extract_lets +onlyGivenNames z; refine Upd.cutU (z := z.1) ?_ (fun hz => ?_); subst z; rotate_left; clear_value z; all_goals have z := trivial)
    | (extract_lets +onlyGivenNames z; refine NextUpd.cutU (z := z) ?_ (fun hz => ?_); subst z; rotate_left; clear_value z; all_goals have z := trivial)
    | (extract_lets +onlyGivenNames z; refine NextUpd.cutU (z := z.1) ?_ (fun hz => ?_); subst z; rotate_left; clear_value z; all_goals have z := trivial)
    | (extract_lets +onlyGivenNames z; have _t : State → _ := z; clear _t; subst z; have z := trivial)
    | (extract_lets +onlyGivenNames z; have _t : _ → State := z; clear _t; subst z; have z := trivial)
    | (extract_lets +onlyGivenNames z; have _t : _ → _ → State := z; clear _t; subst z; have z := trivial)
    | (extract_lets +onlyGivenNames z; clear_value z; have z := trivial)
    | (with_reducible apply NextUpd.next)
    | (with_reducible apply NextUpd.ite)
    | (with_reducible apply Upd.ite)
    | (with_reducible apply State.emitLine_upd; decide)
    | (with_reducible apply Upd.inc; decide)
    | (with_reducible apply State.mrgEvent_upd; decide)
    | (with_reducible apply Upd.fst; assumption)
    | simp (disch := decide) only [Upd.mk1_iff, Upd.frames_iff, Upd.blankets_iff, Upd.ref_iff, Upd.out_iff]
    | split

theorem State.layStore_upd (s : State) (addr : Nat) (data : List Nat) (src : Src) {W P : Nat} {r_ : State} (hm : (subMask 0x0 W && subMask 0x1 P) = true) (k_ : Upd W P r_ s) :
    Upd W P r_ (State.layStore s addr data src).1 := by
  refine Upd.via (w := 0x0) (p := 0x1) ?_ hm k_
  clear hm k_
  unfold State.layStore
  repeat' first
    | (with_reducible exact Upd.refl _)
    | with_reducible assumption
    | (extract_lets +onlyGivenNames z; refine Upd.cutU (z := z) ?_ (fun hz => ?_); subst z; rotate_left; clear_value z; all_goals have z := trivial)
    | (extract_lets +onlyGivenNames z; refine Upd.cutU (z := z.1) ?_ (fun hz => ?_); subst z; rotate_left; clear_value z; all_goals have z := trivial)
    | (extract_lets +onlyGivenNames z; clear_value z; have z := trivial)
    | (with_reducible apply Upd.ite)
    | (with_reducible apply Upd.iteFst)
    | (with_reducible apply State.putBytes_upd; decide)
    | (with_reducible apply Upd.fst; assumption)
    | simp (disch := decide) only [Upd.mk1_iff]
    | split

theorem execLayoutWindowWrite_upd (addr : Nat) (data : List Nat) (src : Src) (s : State) {W P : Nat} (hm : (subMask 0x100000000000000001 W && subMask 0x140c03 P) = true) :
    NextUpd W P s (execLayoutWindowWrite addr data src s) := by
  refine NextUpd.mono (w := 0x100000000000000001) (p := 0x140c03) ?_ hm
  unfold execLayoutWindowWrite
  repeat' first
    | (with_reducible exact Upd.refl _)
    | with_reducible assumption
    | (extract_lets +onlyGivenNames z; refine Upd.cutU (z := z) ?_ (fun hz => ?_); subst z; rotate_left; clear_value z; all_goals have z := trivial)
    | (extract_lets +onlyGivenNames z; refine Upd.cutU (z := z.1) ?_ (fun hz => ?_); subst z; rotate_left; clear_value z; all_goals have z := trivial)
    | (extract_lets +onlyGivenNames z; refine NextUpd.cutU (z := z) ?_ (fun hz => ?_); subst z; rotate_left; clear_value z; all_goals have z := trivial)
    | (extract_lets +onlyGivenNames z; refine NextUpd.cutU (z := z.1) ?_ (fun hz => ?_); subst z; rotate_left; clear_value z; all_goals have z := trivial)
    | (extract_lets +onlyGivenNames z; clear_value z; have z := trivial)
    | (with_reducible apply NextUpd.next)
    | (with_reducible apply NextUpd.ite)
    | (with_reducible apply Upd.ite)
    | (with_reducible apply State.answer_upd; decide)
    | (with_reducible apply State.layStore_upd; decide)
    | (with_reducible apply Upd.fst; assumption)
    | simp (disch := first | decide | rfl | (apply And.intro <;> first | decide | rfl | (apply And.intro <;> rfl))) only [Upd.mk1_iff, Upd.egr_iff, Upd.brg_iff, Upd.mgt_iff, Upd.out_iff]
    | split

theorem effMrgGo_upd (k : Nat) (mode : Nat) (src : Src) (s : State) {W P : Nat} {r_ : State} (hm : (subMask 0x100001000000000001 W && subMask 0x140c03 P) = true) (k_ : Upd W P r_ s) :
    Upd W P r_ (effMrgGo k mode src s) := by
  refine Upd.via (w := 0x100001000000000001) (p := 0x140c03) ?_ hm k_
  clear hm k_
  unfold effMrgGo
  repeat' first
    | (with_reducible exact Upd.refl _)
    | with_reducible assumption
    | (extract_lets +onlyGivenNames z; refine Upd.cutU (z := z) ?_ (fun hz => ?_); subst z; rotate_left; clear_value z; all_goals have z := trivial)
    | (extract_lets +onlyGivenNames z; refine Upd.cutU (z := z.1) ?_ (fun hz => ?_); subst z; rotate_left; clear_value z; all_goals have z := trivial)
    | (extract_lets +onlyGivenNames z; clear_value z; have z := trivial)
    | (with_reducible apply Upd.ite)
    | (with_reducible apply State.answer_upd; decide)
    | (with_reducible apply Upd.set; decide)
    | (with_reducible apply Upd.fst; assumption)
    | simp (disch := first | decide | rfl | (apply And.intro <;> first | decide | rfl | (apply And.intro <;> rfl))) only [Upd.mk1_iff, Upd.egr_iff, Upd.brg_iff, Upd.mgt_iff, Upd.out_iff]
    | split

theorem execMrgGo_upd (k : Nat) (mode : Nat) (src : Src) (s : State) {W P : Nat} (hm : (subMask 0x100001000000000003 W && subMask 0x1c0c03 P) = true) :
    NextUpd W P s (execMrgGo k mode src s) := by
  refine NextUpd.mono (w := 0x100001000000000003) (p := 0x1c0c03) ?_ hm
  unfold execMrgGo
  repeat' first
    | (with_reducible exact Upd.refl _)
    | with_reducible assumption
    | (extract_lets +onlyGivenNames z; refine Upd.cutU (z := z) ?_ (fun hz => ?_); subst z; rotate_left; clear_value z; all_goals have z := trivial)
    | (extract_lets +onlyGivenNames z; refine Upd.cutU (z := z.1) ?_ (fun hz => ?_); subst z; rotate_left; clear_value z; all_goals have z := trivial)
    | (extract_lets +onlyGivenNames z; refine NextUpd.cutU (z := z) ?_ (fun hz => ?_); subst z; rotate_left; clear_value z; all_goals have z := trivial)
    | (extract_lets +onlyGivenNames z; refine NextUpd.cutU (z := z.1) ?_ (fun hz => ?_); subst z; rotate_left; clear_value z; all_goals have z := trivial)
    | (extract_lets +onlyGivenNames z; clear_value z; have z := trivial)
    | (with_reducible apply NextUpd.next)
    | (with_reducible apply NextUpd.ite)
    | (with_reducible apply Upd.ite)
    | (with_reducible apply State.answer_upd; decide)
    | (with_reducible apply State.recorded_upd; decide; intro _)
    | (with_reducible apply effMrgGo_upd; decide)
    | (with_reducible apply Upd.fst; assumption)
    | simp (disch := first | decide | rfl | (apply And.intro <;> first | decide | rfl | (apply And.intro <;> rfl))) only [Upd.mk1_iff, Upd.egr_iff, Upd.brg_iff, Upd.mgt_iff, Upd.sec_iff, Upd.out_iff]
    | split

theorem effMrgCancel_upd (k : Nat) (src : Src) (s : State) {W P : Nat} {r_ : State} (hm : (subMask 0x100001000000000001 W && subMask 0x140c03 P) = true) (k_ : Upd W P r_ s) :
    Upd W P r_ (effMrgCancel k src s) := by
  refine Upd.via (w := 0x100001000000000001) (p := 0x140c03) ?_ hm k_
  clear hm k_
  unfold effMrgCancel
  repeat' first
    | (with_reducible exact Upd.refl _)
    | with_reducible assumption
    | (extract_lets +onlyGivenNames z; refine Upd.cutU (z := z) ?_ (fun hz => ?_); subst z; rotate_left; clear_value z; all_goals have z := trivial)
    | (extract_lets +onlyGivenNames z; refine Upd.cutU (z := z.1) ?_ (fun hz => ?_); subst z; rotate_left; clear_value z; all_goals have z := trivial)
    | (extract_lets +onlyGivenNames z; clear_value z; have z := trivial)
    | (with_reducible apply Upd.ite)
    | (with_reducible apply State.answer_upd; decide)
    | (with_reducible apply Upd.set; decide)
    | (with_reducible apply Upd.fst; assumption)
    | simp (disch := first | decide | rfl | (apply And.intro <;> first | decide | rfl | (apply And.intro <;> rfl))) only [Upd.mk1_iff, Upd.egr_iff, Upd.brg_iff, Upd.mgt_iff, Upd.out_iff]
    | split

theorem execMrgCancel_upd (k : Nat) (src : Src) (s : State) {W P : Nat} (hm : (subMask 0x100001000000000003 W && subMask 0x1c0c03 P) = true) :
    NextUpd W P s (execMrgCancel k src s) := by
  refine NextUpd.mono (w := 0x100001000000000003) (p := 0x1c0c03) ?_ hm
  unfold execMrgCancel
  repeat' first
    | (with_reducible exact Upd.refl _)
    | with_reducible assumption
    | (extract_lets +onlyGivenNames z; refine Upd.cutU (z := z) ?_ (fun hz => ?_); subst z; rotate_left; clear_value z; all_goals have z := trivial)
    | (extract_lets +onlyGivenNames z; refine Upd.cutU (z := z.1) ?_ (fun hz => ?_); subst z; rotate_left; clear_value z; all_goals have z := trivial)
    | (extract_lets +onlyGivenNames z; refine NextUpd.cutU (z := z) ?_ (fun hz => ?_); subst z; rotate_left; clear_value z; all_goals have z := trivial)
    | (extract_lets +onlyGivenNames z; refine NextUpd.cutU (z := z.1) ?_ (fun hz => ?_); subst z; rotate_left; clear_value z; all_goals have z := trivial)
    | (extract_lets +onlyGivenNames z; clear_value z; have z := trivial)
    | (with_reducible apply NextUpd.next)
    | (with_reducible apply NextUpd.ite)
    | (with_reducible apply Upd.ite)
    | (with_reducible apply State.answer_upd; decide)
    | (with_reducible apply State.recorded_upd; decide; intro _)
    | (with_reducible apply effMrgCancel_upd; decide)
    | (with_reducible apply Upd.fst; assumption)
    | simp (disch := first | decide | rfl | (apply And.intro <;> first | decide | rfl | (apply And.intro <;> rfl))) only [Upd.mk1_iff, Upd.egr_iff, Upd.brg_iff, Upd.mgt_iff, Upd.sec_iff, Upd.out_iff]
    | split

theorem State.mrgClrCnt_upd (s : State) {W P : Nat} {r_ : State} (hm : (subMask 0x1000000000000 W && subMask 0x0 P) = true) (k_ : Upd W P r_ s) :
    Upd W P r_ (State.mrgClrCnt s) := by
  refine Upd.via (w := 0x1000000000000) (p := 0x0) ?_ hm k_
  clear hm k_
  unfold State.mrgClrCnt
  repeat' first
    | (with_reducible apply Upd.foldlSet; decide)
    | ((with_reducible apply Upd.foldlPair); simp only [List.all_cons, List.all_nil]; decide)
    | (with_reducible apply Upd.foldl; intro _ _)
    | (with_reducible apply Upd.foldlFst; intro _ _)
    | (with_reducible exact Upd.refl _)
    | with_reducible assumption
    | (extract_lets +onlyGivenNames z; refine Upd.cutU (z := z) ?_ (fun hz => ?_); subst z; rotate_left; clear_value z; all_goals have z := trivial)
    | (extract_lets +onlyGivenNames z; refine Upd.cutU (z := z.1) ?_ (fun hz => ?_); subst z; rotate_left; clear_value z; all_goals have z := trivial)
    | (extract_lets +onlyGivenNames z; clear_value z; have z := trivial)
    | (with_reducible apply Upd.ite)
    | (with_reducible apply Upd.set; decide)
    | (with_reducible apply Upd.fst; assumption)
    | simp (disch := decide) only [Upd.mk1_iff]
    | split

theorem execMrgClrCnt_upd (src : Src) (s : State) {W P : Nat} (hm : (subMask 0x100001000000000001 W && subMask 0x140c03 P) = true) :
    NextUpd W P s (execMrgClrCnt src s) := by
  refine NextUpd.mono (w := 0x100001000000000001) (p := 0x140c03) ?_ hm
  unfold execMrgClrCnt
  repeat' first
    | (with_reducible exact Upd.refl _)
    | with_reducible assumption
    | (extract_lets +onlyGivenNames z; refine Upd.cutU (z := z) ?_ (fun hz => ?_); subst z; rotate_left; clear_value z; all_goals have z := trivial)
    | (extract_lets +onlyGivenNames z; refine Upd.cutU (z := z.1) ?_ (fun hz => ?_); subst z; rotate_left; clear_value z; all_goals have z := trivial)
    | (extract_lets +onlyGivenNames z; refine NextUpd.cutU (z := z) ?_ (fun hz => ?_); subst z; rotate_left; clear_value z; all_goals have z := trivial)
    | (extract_lets +onlyGivenNames z; refine NextUpd.cutU (z := z.1) ?_ (fun hz => ?_); subst z; rotate_left; clear_value z; all_goals have z := trivial)
    | (extract_lets +onlyGivenNames z; clear_value z; have z := trivial)
    | (with_reducible apply NextUpd.next)
    | (with_reducible apply NextUpd.ite)
    | (with_reducible apply Upd.ite)
    | (with_reducible apply State.answer_upd; decide)
    | (with_reducible apply State.mrgClrCnt_upd; decide)
    | (with_reducible apply Upd.fst; assumption)
    | simp (disch := first | decide | rfl | (apply And.intro <;> first | decide | rfl | (apply And.intro <;> rfl))) only [Upd.mk1_iff, Upd.egr_iff, Upd.brg_iff, Upd.mgt_iff, Upd.out_iff]
    | split

theorem execHoldMaxRead_upd (k : Nat) (src : Src) (s : State) {W P : Nat} (hm : (subMask 0x100001000000000001 W && subMask 0x140c03 P) = true) :
    NextUpd W P s (execHoldMaxRead k src s) := by
  refine NextUpd.mono (w := 0x100001000000000001) (p := 0x140c03) ?_ hm
  unfold execHoldMaxRead
  repeat' first
    | (with_reducible exact Upd.refl _)
    | with_reducible assumption
    | (extract_lets +onlyGivenNames z; refine Upd.cutU (z := z) ?_ (fun hz => ?_); subst z; rotate_left; clear_value z; all_goals have z := trivial)
    | (extract_lets +onlyGivenNames z; refine Upd.cutU (z := z.1) ?_ (fun hz => ?_); subst z; rotate_left; clear_value z; all_goals have z := trivial)
    | (extract_lets +onlyGivenNames z; refine NextUpd.cutU (z := z) ?_ (fun hz => ?_); subst z; rotate_left; clear_value z; all_goals have z := trivial)
    | (extract_lets +onlyGivenNames z; refine NextUpd.cutU (z := z.1) ?_ (fun hz => ?_); subst z; rotate_left; clear_value z; all_goals have z := trivial)
    | (extract_lets +onlyGivenNames z; clear_value z; have z := trivial)
    | (with_reducible apply NextUpd.next)
    | (with_reducible apply NextUpd.ite)
    | (with_reducible apply Upd.ite)
    | (with_reducible apply State.answer_upd; decide)
    | (with_reducible apply State.emit_upd; decide)
    | (with_reducible apply Upd.set; decide)
    | (with_reducible apply Upd.fst; assumption)
    | simp (disch := first | decide | rfl | (apply And.intro <;> first | decide | rfl | (apply And.intro <;> rfl))) only [Upd.mk1_iff, Upd.egr_iff, Upd.brg_iff, Upd.mgt_iff, Upd.out_iff]
    | split

end Sys2Proof.Machine
end

