-- ==== Sys2Proof/Laws/UpdEgr.lean ====
section
/-! SUPPORT. What each operation of Machine/Egr.lean may change (see Laws/Upd.lean). -/

set_option linter.unusedSimpArgs false
set_option linter.tactic.unusedName false

namespace Sys2Proof.Machine

theorem State.takeCarry_upd (s : State) (o : Offer) {W P : Nat} {r_ : State} (hm : (subMask 0x20000000000000000 W && subMask 0x408 P) = true) (k_ : Upd W P r_ s) :
    Upd W P r_ (State.takeCarry s o) := by
  refine Upd.via (w := 0x20000000000000000) (p := 0x408) ?_ hm k_
  clear hm k_
  unfold State.takeCarry
  repeat' first
    | (with_reducible exact Upd.refl _)
    | with_reducible assumption
    | (extract_lets +onlyGivenNames z; refine Upd.cutU (z := z) ?_ (fun hz => ?_); subst z; rotate_left; clear_value z; all_goals have z := trivial)
    | (extract_lets +onlyGivenNames z; refine Upd.cutU (z := z.1) ?_ (fun hz => ?_); subst z; rotate_left; clear_value z; all_goals have z := trivial)
    | (extract_lets +onlyGivenNames z; clear_value z; have z := trivial)
    | (with_reducible apply Upd.ite)
    | (with_reducible apply State.onStrFrame_upd; decide)
    | (with_reducible apply Upd.set; decide)
    | (with_reducible apply Upd.fst; assumption)
    | simp (disch := decide) only [Upd.mk1_iff, Upd.frames_iff, Upd.egr_iff]
    | split

theorem State.takeOn_upd (s : State) (o : Offer) (dseq : Nat) {W P : Nat} {r_ : State} (hm : (subMask 0x100020000000000000001 W && subMask 0x50044b P) = true) (k_ : Upd W P r_ s) :
    Upd W P r_ (State.takeOn s o dseq) := by
  refine Upd.via (w := 0x100020000000000000001) (p := 0x50044b) ?_ hm k_
  clear hm k_
  unfold State.takeOn
  repeat' first
    | (with_reducible exact Upd.refl _)
    | with_reducible assumption
    | (extract_lets +onlyGivenNames z; refine Upd.cutU (z := z) ?_ (fun hz => ?_); subst z; rotate_left; clear_value z; all_goals have z := trivial)
    | (extract_lets +onlyGivenNames z; refine Upd.cutU (z := z.1) ?_ (fun hz => ?_); subst z; rotate_left; clear_value z; all_goals have z := trivial)
    | (extract_lets +onlyGivenNames z; clear_value z; have z := trivial)
    | (with_reducible apply Upd.ite)
    | (with_reducible apply State.imageWrite_upd; decide)
    | (with_reducible apply State.roiFlow_upd; decide)
    | (with_reducible apply State.takeCarry_upd; decide)
    | (with_reducible apply Upd.fst; assumption)
    | simp (disch := decide) only [Upd.mk1_iff, Upd.frames_iff, Upd.pipe_iff, Upd.egr_iff, Upd.out_iff, Upd.bad_iff]
    | split

theorem execDeliveryStart_upd (i : Nat) (s : State) {W P : Nat} (hm : (subMask 0x1000a0000000000000021 W && subMask 0x50044b P) = true) :
    NextUpd W P s (execDeliveryStart i s) := by
  refine NextUpd.mono (w := 0x1000a0000000000000021) (p := 0x50044b) ?_ hm
  unfold execDeliveryStart
  repeat' first
    | (with_reducible exact Upd.refl _)
    | with_reducible assumption
    | (extract_lets +onlyGivenNames z; refine Upd.cutU (z := z) ?_ (fun hz => ?_); subst z; rotate_left; clear_value z; all_goals have z := trivial)
    | (extract_lets +onlyGivenNames z; refine Upd.cutU (z := z.1) ?_ (fun hz => ?_); subst z; rotate_left; clear_value z; all_goals have z := trivial)
    | (extract_lets +onlyGivenNames z; refine NextUpd.cutU (z := z) ?_ (fun hz => ?_); subst z; rotate_left; clear_value z; all_goals have z := trivial)
    | (extract_lets +onlyGivenNames z; refine NextUpd.cutU (z := z.1) ?_ (fun hz => ?_); subst z; rotate_left; clear_value z; all_goals have z := trivial)
    | (extract_lets +onlyGivenNames z; clear_value z; have z := trivial)
    | (with_reducible apply NextUpd.next)
    | (with_reducible apply NextUpd.ite)
    | (with_reducible apply Upd.ite)
    | (with_reducible apply Upd.bump; decide)
    | (with_reducible apply State.drop_upd; decide)
    | (with_reducible apply Upd.inc; decide)
    | (with_reducible apply State.onStrFrame_upd; decide)
    | (with_reducible apply State.takeOn_upd; decide)
    | (with_reducible apply Upd.fst; assumption)
    | simp (disch := decide) only [Upd.mk1_iff, Upd.frames_iff, Upd.pipe_iff, Upd.egr_iff, Upd.out_iff, Upd.bad_iff]
    | split

theorem execClassBBudgetExpiry_upd (st : Nat) (dseq : Nat) (s : State) {W P : Nat} (hm : (subMask 0xa0000000000000021 W && subMask 0x10040a P) = true) :
    NextUpd W P s (execClassBBudgetExpiry st dseq s) := by
  refine NextUpd.mono (w := 0xa0000000000000021) (p := 0x10040a) ?_ hm
  unfold execClassBBudgetExpiry
  repeat' first
    | (with_reducible exact Upd.refl _)
    | with_reducible assumption
    | (extract_lets +onlyGivenNames z; refine Upd.cutU (z := z) ?_ (fun hz => ?_); subst z; rotate_left; clear_value z; all_goals have z := trivial)
    | (extract_lets +onlyGivenNames z; refine Upd.cutU (z := z.1) ?_ (fun hz => ?_); subst z; rotate_left; clear_value z; all_goals have z := trivial)
    | (extract_lets +onlyGivenNames z; refine NextUpd.cutU (z := z) ?_ (fun hz => ?_); subst z; rotate_left; clear_value z; all_goals have z := trivial)
    | (extract_lets +onlyGivenNames z; refine NextUpd.cutU (z := z.1) ?_ (fun hz => ?_); subst z; rotate_left; clear_value z; all_goals have z := trivial)
    | (extract_lets +onlyGivenNames z; clear_value z; have z := trivial)
    | (with_reducible apply NextUpd.next)
    | (with_reducible apply NextUpd.ite)
    | (with_reducible apply Upd.ite)
    | (with_reducible apply State.nextHead_upd; decide)
    | (with_reducible apply State.refuseQueued_upd; decide)
    | (with_reducible apply Upd.fst; assumption)
    | simp (disch := decide) only [Upd.mk1_iff, Upd.frames_iff, Upd.egr_iff, Upd.out_iff]
    | split

theorem State.imageRead_upd (s : State) (d : Delivery) (off : Nat) (n : Nat) {W P : Nat} {r_ : State} (hm : (subMask 0x100000000000000000001 W && subMask 0x300002 P) = true) (k_ : Upd W P r_ s) :
    Upd W P r_ (State.imageRead s d off n).1 := by
  refine Upd.via (w := 0x100000000000000000001) (p := 0x300002) ?_ hm k_
  clear hm k_
  unfold State.imageRead
  repeat' first
    | (with_reducible exact Upd.refl _)
    | with_reducible assumption
    | (extract_lets +onlyGivenNames z; refine Upd.cutU (z := z) ?_ (fun hz => ?_); subst z; rotate_left; clear_value z; all_goals have z := trivial)
    | (extract_lets +onlyGivenNames z; refine Upd.cutU (z := z.1) ?_ (fun hz => ?_); subst z; rotate_left; clear_value z; all_goals have z := trivial)
    | (extract_lets +onlyGivenNames z; clear_value z; have z := trivial)
    | (with_reducible apply Upd.ite)
    | (with_reducible apply Upd.iteFst)
    | (with_reducible apply State.drawn_upd; decide)
    | (with_reducible apply State.extRead_upd; decide)
    | (with_reducible apply Upd.fst; assumption)
    | simp (disch := decide) only [Upd.mk1_iff, Upd.out_iff, Upd.fresh_iff]
    | split

theorem State.rateUse_upd (s : State) (q : Nat) (n : Nat) {W P : Nat} {r_ : State} (hm : (subMask 0x0 W && subMask 0x400 P) = true) (k_ : Upd W P r_ s) :
    Upd W P r_ (State.rateUse s q n) := by
  refine Upd.via (w := 0x0) (p := 0x400) ?_ hm k_
  clear hm k_
  unfold State.rateUse
  repeat' first
    | (with_reducible exact Upd.refl _)
    | with_reducible assumption
    | (extract_lets +onlyGivenNames z; refine Upd.cutU (z := z) ?_ (fun hz => ?_); subst z; rotate_left; clear_value z; all_goals have z := trivial)
    | (extract_lets +onlyGivenNames z; refine Upd.cutU (z := z.1) ?_ (fun hz => ?_); subst z; rotate_left; clear_value z; all_goals have z := trivial)
    | (extract_lets +onlyGivenNames z; clear_value z; have z := trivial)
    | (with_reducible apply Upd.ite)
    | (with_reducible apply Upd.fst; assumption)
    | simp (disch := decide) only [Upd.mk1_iff, Upd.egr_iff]
    | split

theorem State.sendNew_upd (s : State) (p : Nat) (q : Nat) (op : PktOp) (st : Nat) (dseq : Nat) (va : Nat) (pre : List Nat) (off : Nat) (n : Nat) (bytes : List Nat) {W P : Nat} {r_ : State} (hm : (subMask 0x50000000000000000 W && subMask 0x100400 P) = true) (k_ : Upd W P r_ s) :
    Upd W P r_ (State.sendNew s p q op st dseq va pre off n bytes) := by
  refine Upd.via (w := 0x50000000000000000) (p := 0x100400) ?_ hm k_
  clear hm k_
  unfold State.sendNew
  repeat' first
    | (with_reducible exact Upd.refl _)
    | with_reducible assumption
    | (extract_lets +onlyGivenNames z; refine Upd.cutU (z := z) ?_ (fun hz => ?_); subst z; rotate_left; clear_value z; all_goals have z := trivial)
    | (extract_lets +onlyGivenNames z; refine Upd.cutU (z := z.1) ?_ (fun hz => ?_); subst z; rotate_left; clear_value z; all_goals have z := trivial)
    | (extract_lets +onlyGivenNames z; clear_value z; have z := trivial)
    | (with_reducible apply Upd.ite)
    | (with_reducible apply Upd.bump; decide)
    | (with_reducible apply State.emit_upd; decide)
    | (with_reducible apply Upd.inc; decide)
    | (with_reducible apply State.rateUse_upd; decide)
    | (with_reducible apply Upd.fst; assumption)
    | simp (disch := decide) only [Upd.mk1_iff, Upd.egr_iff, Upd.out_iff]
    | split

theorem State.gainCredit_upd (s : State) (p : Nat) {W P : Nat} {r_ : State} (hm : (subMask 0x10000000000000000 W && subMask 0x0 P) = true) (k_ : Upd W P r_ s) :
    Upd W P r_ (State.gainCredit s p) := by
  refine Upd.via (w := 0x10000000000000000) (p := 0x0) ?_ hm k_
  clear hm k_
  unfold State.gainCredit
  repeat' first
    | (with_reducible apply Upd.foldl; intro _ _)
    | (with_reducible apply Upd.foldlFst; intro _ _)
    | (with_reducible exact Upd.refl _)
    | with_reducible assumption
    | (extract_lets +onlyGivenNames z; refine Upd.cutU (z := z) ?_ (fun hz => ?_); subst z; rotate_left; clear_value z; all_goals have z := trivial)
    | (extract_lets +onlyGivenNames z; refine Upd.cutU (z := z.1) ?_ (fun hz => ?_); subst z; rotate_left; clear_value z; all_goals have z := trivial)
    | (extract_lets +onlyGivenNames z; clear_value z; have z := trivial)
    | (with_reducible apply Upd.ite)
    | (with_reducible apply Upd.set; decide)
    | (with_reducible apply Upd.fst; assumption)
    | simp (disch := decide) only [Upd.mk1_iff]
    | split

theorem State.startDelivery_upd (s : State) (d : Delivery) {W P : Nat} {r_ : State} (hm : (subMask 0x0 W && subMask 0x408 P) = true) (k_ : Upd W P r_ s) :
    Upd W P r_ (State.startDelivery s d) := by
  refine Upd.via (w := 0x0) (p := 0x408) ?_ hm k_
  clear hm k_
  unfold State.startDelivery
  repeat' first
    | (with_reducible exact Upd.refl _)
    | with_reducible assumption
    | (extract_lets +onlyGivenNames z; refine Upd.cutU (z := z) ?_ (fun hz => ?_); subst z; rotate_left; clear_value z; all_goals have z := trivial)
    | (extract_lets +onlyGivenNames z; refine Upd.cutU (z := z.1) ?_ (fun hz => ?_); subst z; rotate_left; clear_value z; all_goals have z := trivial)
    | (extract_lets +onlyGivenNames z; clear_value z; have z := trivial)
    | (with_reducible apply Upd.ite)
    | (with_reducible apply State.onDelivery_upd; decide)
    | (with_reducible apply State.onStrFrame_upd; decide)
    | (with_reducible apply Upd.fst; assumption)
    | simp (disch := decide) only [Upd.mk1_iff, Upd.frames_iff, Upd.egr_iff]
    | split

theorem State.deliverySent_upd (s : State) (d : Delivery) {W P : Nat} {r_ : State} (hm : (subMask 0xa0000000000000021 W && subMask 0x10040a P) = true) (k_ : Upd W P r_ s) :
    Upd W P r_ (State.deliverySent s d) := by
  refine Upd.via (w := 0xa0000000000000021) (p := 0x10040a) ?_ hm k_
  clear hm k_
  unfold State.deliverySent
  repeat' first
    | (with_reducible exact Upd.refl _)
    | with_reducible assumption
    | (extract_lets +onlyGivenNames z; refine Upd.cutU (z := z) ?_ (fun hz => ?_); subst z; rotate_left; clear_value z; all_goals have z := trivial)
    | (extract_lets +onlyGivenNames z; refine Upd.cutU (z := z.1) ?_ (fun hz => ?_); subst z; rotate_left; clear_value z; all_goals have z := trivial)
    | (extract_lets +onlyGivenNames z; clear_value z; have z := trivial)
    | (with_reducible apply Upd.ite)
    | (with_reducible apply Upd.bump; decide)
    | (with_reducible apply Upd.inc; decide)
    | (with_reducible apply State.nextHead_upd; decide)
    | (with_reducible apply State.onDelivery_upd; decide)
    | (with_reducible apply State.onStrFrame_upd; decide)
    | (with_reducible apply State.unqueue_upd; decide)
    | (with_reducible apply Upd.fst; assumption)
    | simp (disch := decide) only [Upd.mk1_iff, Upd.frames_iff, Upd.egr_iff, Upd.out_iff]
    | split

theorem State.sendData_upd (s : State) (p : Nat) (d : Delivery) {W P : Nat} {r_ : State} (hm : (subMask 0x1000f0000000000000021 W && subMask 0x70040b P) = true) (k_ : Upd W P r_ s) :
    Upd W P r_ (State.sendData s p d) := by
  refine Upd.via (w := 0x1000f0000000000000021) (p := 0x70040b) ?_ hm k_
  clear hm k_
  unfold State.sendData
  repeat' first
    | (with_reducible exact Upd.refl _)
    | with_reducible assumption
    | (extract_lets +onlyGivenNames z; refine Upd.cutU (z := z) ?_ (fun hz => ?_); subst z; rotate_left; clear_value z; all_goals have z := trivial)
    | (extract_lets +onlyGivenNames z; refine Upd.cutU (z := z.1) ?_ (fun hz => ?_); subst z; rotate_left; clear_value z; all_goals have z := trivial)
    | (extract_lets +onlyGivenNames z; clear_value z; have z := trivial)
    | (with_reducible apply Upd.ite)
    | (with_reducible apply State.deliverySent_upd; decide)
    | (with_reducible apply State.imageRead_upd; decide)
    | (with_reducible apply State.imageWrite_upd; decide)
    | (with_reducible apply State.onDelivery_upd; decide)
    | (with_reducible apply State.sendNew_upd; decide)
    | (with_reducible apply Upd.set; decide)
    | (with_reducible apply State.startDelivery_upd; decide)
    | (with_reducible apply Upd.fst; assumption)
    | simp (disch := decide) only [Upd.mk1_iff, Upd.frames_iff, Upd.egr_iff, Upd.out_iff, Upd.fresh_iff, Upd.bad_iff]
    | split

theorem State.ctlUse_upd (s : State) (p : Nat) (n : Nat) {W P : Nat} {r_ : State} (hm : (subMask 0x0 W && subMask 0x400 P) = true) (k_ : Upd W P r_ s) :
    Upd W P r_ (State.ctlUse s p n) := by
  refine Upd.via (w := 0x0) (p := 0x400) ?_ hm k_
  clear hm k_
  unfold State.ctlUse
  repeat' first
    | (with_reducible exact Upd.refl _)
    | with_reducible assumption
    | (extract_lets +onlyGivenNames z; refine Upd.cutU (z := z) ?_ (fun hz => ?_); subst z; rotate_left; clear_value z; all_goals have z := trivial)
    | (extract_lets +onlyGivenNames z; refine Upd.cutU (z := z.1) ?_ (fun hz => ?_); subst z; rotate_left; clear_value z; all_goals have z := trivial)
    | (extract_lets +onlyGivenNames z; clear_value z; have z := trivial)
    | (with_reducible apply Upd.ite)
    | (with_reducible apply Upd.fst; assumption)
    | simp (disch := decide) only [Upd.mk1_iff, Upd.egr_iff]
    | split

theorem State.sendCtlPacket_upd (s : State) (p : Nat) (i : Nat) (c : CtlMsg) {W P : Nat} {r_ : State} (hm : (subMask 0x50000000000000000 W && subMask 0x100400 P) = true) (k_ : Upd W P r_ s) :
    Upd W P r_ (State.sendCtlPacket s p i c) := by
  refine Upd.via (w := 0x50000000000000000) (p := 0x100400) ?_ hm k_
  clear hm k_
  unfold State.sendCtlPacket
  repeat' first
    | (with_reducible exact Upd.refl _)
    | with_reducible assumption
    | (extract_lets +onlyGivenNames z; refine Upd.cutU (z := z) ?_ (fun hz => ?_); subst z; rotate_left; clear_value z; all_goals have z := trivial)
    | (extract_lets +onlyGivenNames z; refine Upd.cutU (z := z.1) ?_ (fun hz => ?_); subst z; rotate_left; clear_value z; all_goals have z := trivial)
    | (extract_lets +onlyGivenNames z; clear_value z; have z := trivial)
    | (with_reducible apply Upd.ite)
    | (with_reducible apply State.ctlUse_upd; decide)
    | (with_reducible apply State.sendNew_upd; decide)
    | (with_reducible apply Upd.fst; assumption)
    | simp (disch := decide) only [Upd.mk1_iff, Upd.egr_iff, Upd.out_iff]
    | split

theorem State.sendAgain_upd (s : State) (p : Nat) (k : Pkt) {W P : Nat} {r_ : State} (hm : (subMask 0x100010000000000000001 W && subMask 0x300402 P) = true) (k_ : Upd W P r_ s) :
    Upd W P r_ (State.sendAgain s p k) := by
  refine Upd.via (w := 0x100010000000000000001) (p := 0x300402) ?_ hm k_
  clear hm k_
  unfold State.sendAgain
  repeat' first
    | (with_reducible exact Upd.refl _)
    | with_reducible assumption
    | (extract_lets +onlyGivenNames z; refine Upd.cutU (z := z) ?_ (fun hz => ?_); subst z; rotate_left; clear_value z; all_goals have z := trivial)
    | (extract_lets +onlyGivenNames z; refine Upd.cutU (z := z.1) ?_ (fun hz => ?_); subst z; rotate_left; clear_value z; all_goals have z := trivial)
    | (extract_lets +onlyGivenNames z; clear_value z; have z := trivial)
    | (with_reducible apply Upd.ite)
    | (with_reducible apply State.emit_upd; decide)
    | (with_reducible apply State.imageRead_upd; decide)
    | (with_reducible apply Upd.inc; decide)
    | (with_reducible apply State.rateUse_upd; decide)
    | (with_reducible apply Upd.fst; assumption)
    | simp (disch := decide) only [Upd.mk1_iff, Upd.egr_iff, Upd.out_iff, Upd.fresh_iff]
    | split

theorem State.markRingFull_upd (s : State) (p : Nat) {W P : Nat} {r_ : State} (hm : (subMask 0x20000000000000001 W && subMask 0x100002 P) = true) (k_ : Upd W P r_ s) :
    Upd W P r_ (State.markRingFull s p) := by
  refine Upd.via (w := 0x20000000000000001) (p := 0x100002) ?_ hm k_
  clear hm k_
  unfold State.markRingFull
  repeat' first
    | (with_reducible apply Upd.foldl; intro _ _)
    | (with_reducible apply Upd.foldlFst; intro _ _)
    | (with_reducible exact Upd.refl _)
    | with_reducible assumption
    | (extract_lets +onlyGivenNames z; refine Upd.cutU (z := z) ?_ (fun hz => ?_); subst z; rotate_left; clear_value z; all_goals have z := trivial)
    | (extract_lets +onlyGivenNames z; refine Upd.cutU (z := z.1) ?_ (fun hz => ?_); subst z; rotate_left; clear_value z; all_goals have z := trivial)
    | (extract_lets +onlyGivenNames z; clear_value z; have z := trivial)
    | (with_reducible apply Upd.ite)
    | (with_reducible apply State.strEvent_upd; decide)
    | (with_reducible apply Upd.fst; assumption)
    | simp (disch := decide) only [Upd.mk1_iff, Upd.out_iff]
    | split

theorem State.sendClass_upd (s : State) (p : Nat) (c : Nat) {W P : Nat} {r_ : State} (hm : (subMask 0x1000f0000000000000021 W && subMask 0x70040b P) = true) (k_ : Upd W P r_ s) :
    Upd W P r_ (State.sendClass s p c) := by
  refine Upd.via (w := 0x1000f0000000000000021) (p := 0x70040b) ?_ hm k_
  clear hm k_
  unfold State.sendClass
  repeat' first
    | (with_reducible exact Upd.refl _)
    | with_reducible assumption
    | (extract_lets +onlyGivenNames z; refine Upd.cutU (z := z) ?_ (fun hz => ?_); subst z; rotate_left; clear_value z; all_goals have z := trivial)
    | (extract_lets +onlyGivenNames z; refine Upd.cutU (z := z.1) ?_ (fun hz => ?_); subst z; rotate_left; clear_value z; all_goals have z := trivial)
    | (extract_lets +onlyGivenNames z; clear_value z; have z := trivial)
    | (with_reducible apply Upd.ite)
    | (with_reducible apply State.sendAgain_upd; decide)
    | (with_reducible apply State.sendData_upd; decide)
    | (with_reducible apply Upd.set; decide)
    | (with_reducible apply Upd.fst; assumption)
    | simp (disch := decide) only [Upd.mk1_iff, Upd.frames_iff, Upd.egr_iff, Upd.out_iff, Upd.fresh_iff, Upd.bad_iff]
    | split

theorem execPortSend_upd (p : Nat) (ptp : Option (Nat × Nat)) (s : State) {W P : Nat} (hm : (subMask 0x1000f0000000001000021 W && subMask 0x70042b P) = true) :
    NextUpd W P s (execPortSend p ptp s) := by
  refine NextUpd.mono (w := 0x1000f0000000001000021) (p := 0x70042b) ?_ hm
  unfold execPortSend
  repeat' first
    | (with_reducible exact Upd.refl _)
    | with_reducible assumption
    | (extract_lets +onlyGivenNames z; refine Upd.cutU (z := z) ?_ (fun hz => ?_); subst z; rotate_left; clear_value z; all_goals have z := trivial)
    | (extract_lets +onlyGivenNames z; refine Upd.cutU (z := z.1) ?_ (fun hz => ?_); subst z; rotate_left; clear_value z; all_goals have z := trivial)
    | (extract_lets +onlyGivenNames z; refine NextUpd.cutU (z := z) ?_ (fun hz => ?_); subst z; rotate_left; clear_value z; all_goals have z := trivial)
    | (extract_lets +onlyGivenNames z; refine NextUpd.cutU (z := z.1) ?_ (fun hz => ?_); subst z; rotate_left; clear_value z; all_goals have z := trivial)
    | (extract_lets +onlyGivenNames z; clear_value z; have z := trivial)
    | (with_reducible apply NextUpd.next)
    | (with_reducible apply NextUpd.ite)
    | (with_reducible apply Upd.ite)
    | (with_reducible apply State.ctlUse_upd; decide)
    | (with_reducible apply State.emit_upd; decide)
    | (with_reducible apply State.gainCredit_upd; decide)
    | (with_reducible apply Upd.inc; decide)
    | (with_reducible apply State.markRingFull_upd; decide)
    | (with_reducible apply State.ptpTxStamp_upd; decide)
    | (with_reducible apply State.sendAgain_upd; decide)
    | (with_reducible apply State.sendClass_upd; decide)
    | (with_reducible apply State.sendCtlPacket_upd; decide)
    | (with_reducible apply Upd.fst; assumption)
    | simp (disch := first | decide | rfl | (apply And.intro <;> first | decide | rfl | (apply And.intro <;> rfl))) only [Upd.mk1_iff, Upd.frames_iff, Upd.syn_iff, Upd.egr_iff, Upd.out_iff, Upd.fresh_iff, Upd.bad_iff]
    | split

theorem State.ackPacket_upd (s : State) (k : Pkt) {W P : Nat} {r_ : State} (hm : (subMask 0x20000000000000000 W && subMask 0x400 P) = true) (k_ : Upd W P r_ s) :
    Upd W P r_ (State.ackPacket s k) := by
  refine Upd.via (w := 0x20000000000000000) (p := 0x400) ?_ hm k_
  clear hm k_
  unfold State.ackPacket
  repeat' first
    | (with_reducible exact Upd.refl _)
    | with_reducible assumption
    | (extract_lets +onlyGivenNames z; refine Upd.cutU (z := z) ?_ (fun hz => ?_); subst z; rotate_left; clear_value z; all_goals have z := trivial)
    | (extract_lets +onlyGivenNames z; refine Upd.cutU (z := z.1) ?_ (fun hz => ?_); subst z; rotate_left; clear_value z; all_goals have z := trivial)
    | (extract_lets +onlyGivenNames z; clear_value z; have z := trivial)
    | (with_reducible apply Upd.ite)
    | (with_reducible apply Upd.inc; decide)
    | (with_reducible apply State.onDelivery_upd; decide)
    | (with_reducible apply Upd.fst; assumption)
    | simp (disch := decide) only [Upd.mk1_iff, Upd.egr_iff]
    | split

theorem State.countCe_upd (s : State) (q : Nat) (ce : Bool) {W P : Nat} {r_ : State} (hm : (subMask 0x10000000000000000 W && subMask 0x0 P) = true) (k_ : Upd W P r_ s) :
    Upd W P r_ (State.countCe s q ce) := by
  refine Upd.via (w := 0x10000000000000000) (p := 0x0) ?_ hm k_
  clear hm k_
  unfold State.countCe
  repeat' first
    | (with_reducible exact Upd.refl _)
    | with_reducible assumption
    | (extract_lets +onlyGivenNames z; refine Upd.cutU (z := z) ?_ (fun hz => ?_); subst z; rotate_left; clear_value z; all_goals have z := trivial)
    | (extract_lets +onlyGivenNames z; refine Upd.cutU (z := z.1) ?_ (fun hz => ?_); subst z; rotate_left; clear_value z; all_goals have z := trivial)
    | (extract_lets +onlyGivenNames z; clear_value z; have z := trivial)
    | (with_reducible apply Upd.ite)
    | (with_reducible apply Upd.inc; decide)
    | (with_reducible apply Upd.fst; assumption)
    | simp (disch := decide) only [Upd.mk1_iff]
    | split

theorem execAckReceived_upd (q : Nat) (psn : Nat) (ce : Bool) (s : State) {W P : Nat} (hm : (subMask 0x70000000000000000 W && subMask 0x400 P) = true) :
    NextUpd W P s (execAckReceived q psn ce s) := by
  refine NextUpd.mono (w := 0x70000000000000000) (p := 0x400) ?_ hm
  unfold execAckReceived
  repeat' first
    | (with_reducible apply Upd.foldl; intro _ _)
    | (with_reducible apply Upd.foldlFst; intro _ _)
    | (with_reducible exact Upd.refl _)
    | with_reducible assumption
    | (extract_lets +onlyGivenNames z; refine Upd.cutU (z := z) ?_ (fun hz => ?_); subst z; rotate_left; clear_value z; all_goals have z := trivial)
    | (extract_lets +onlyGivenNames z; refine Upd.cutU (z := z.1) ?_ (fun hz => ?_); subst z; rotate_left; clear_value z; all_goals have z := trivial)
    | (extract_lets +onlyGivenNames z; refine NextUpd.cutU (z := z) ?_ (fun hz => ?_); subst z; rotate_left; clear_value z; all_goals have z := trivial)
    | (extract_lets +onlyGivenNames z; refine NextUpd.cutU (z := z.1) ?_ (fun hz => ?_); subst z; rotate_left; clear_value z; all_goals have z := trivial)
    | (extract_lets +onlyGivenNames z; clear_value z; have z := trivial)
    | (with_reducible apply NextUpd.next)
    | (with_reducible apply NextUpd.ite)
    | (with_reducible apply Upd.ite)
    | (with_reducible apply State.ackPacket_upd; decide)
    | (with_reducible apply State.countCe_upd; decide)
    | (with_reducible apply Upd.set; decide)
    | (with_reducible apply Upd.fst; assumption)
    | simp (disch := decide) only [Upd.mk1_iff, Upd.egr_iff]
    | split

theorem execNakReceived_upd (q : Nat) (psn : Nat) (nak : NakSyn) (ce : Bool) (s : State) {W P : Nat} (hm : (subMask 0x1f0000000000000021 W && subMask 0x100c0a P) = true) :
    NextUpd W P s (execNakReceived q psn nak ce s) := by
  refine NextUpd.mono (w := 0x1f0000000000000021) (p := 0x100c0a) ?_ hm
  unfold execNakReceived
  repeat' first
    | (with_reducible exact Upd.refl _)
    | with_reducible assumption
    | (extract_lets +onlyGivenNames z; refine Upd.cutU (z := z) ?_ (fun hz => ?_); subst z; rotate_left; clear_value z; all_goals have z := trivial)
    | (extract_lets +onlyGivenNames z; refine Upd.cutU (z := z.1) ?_ (fun hz => ?_); subst z; rotate_left; clear_value z; all_goals have z := trivial)
    | (extract_lets +onlyGivenNames z; refine NextUpd.cutU (z := z) ?_ (fun hz => ?_); subst z; rotate_left; clear_value z; all_goals have z := trivial)
    | (extract_lets +onlyGivenNames z; refine NextUpd.cutU (z := z.1) ?_ (fun hz => ?_); subst z; rotate_left; clear_value z; all_goals have z := trivial)
    | (extract_lets +onlyGivenNames z; clear_value z; have z := trivial)
    | (with_reducible apply NextUpd.next)
    | (with_reducible apply NextUpd.ite)
    | (with_reducible apply Upd.ite)
    | (with_reducible apply State.countCe_upd; decide)
    | (with_reducible apply Upd.inc; decide)
    | (with_reducible apply State.qpError_upd; decide)
    | (with_reducible apply State.qpRetry_upd; decide)
    | (with_reducible apply Upd.set; decide)
    | (with_reducible apply Upd.fst; assumption)
    | simp (disch := decide) only [Upd.mk1_iff, Upd.frames_iff, Upd.egr_iff, Upd.brg_iff, Upd.out_iff]
    | split

theorem execQpRetryTimeout_upd (q : Nat) (s : State) {W P : Nat} (hm : (subMask 0x1e0000000000000021 W && subMask 0x100c0a P) = true) :
    NextUpd W P s (execQpRetryTimeout q s) := by
  refine NextUpd.mono (w := 0x1e0000000000000021) (p := 0x100c0a) ?_ hm
  unfold execQpRetryTimeout
  repeat' first
    | (with_reducible exact Upd.refl _)
    | with_reducible assumption
    | (extract_lets +onlyGivenNames z; refine Upd.cutU (z := z) ?_ (fun hz => ?_); subst z; rotate_left; clear_value z; all_goals have z := trivial)
    | (extract_lets +onlyGivenNames z; refine Upd.cutU (z := z.1) ?_ (fun hz => ?_); subst z; rotate_left; clear_value z; all_goals have z := trivial)
    | (extract_lets +onlyGivenNames z; refine NextUpd.cutU (z := z) ?_ (fun hz => ?_); subst z; rotate_left; clear_value z; all_goals have z := trivial)
    | (extract_lets +onlyGivenNames z; refine NextUpd.cutU (z := z.1) ?_ (fun hz => ?_); subst z; rotate_left; clear_value z; all_goals have z := trivial)
    | (extract_lets +onlyGivenNames z; clear_value z; have z := trivial)
    | (with_reducible apply NextUpd.next)
    | (with_reducible apply NextUpd.ite)
    | (with_reducible apply Upd.ite)
    | (with_reducible apply State.qpRetry_upd; decide)
    | (with_reducible apply Upd.fst; assumption)
    | simp (disch := decide) only [Upd.mk1_iff, Upd.frames_iff, Upd.egr_iff, Upd.brg_iff, Upd.out_iff]
    | split

theorem execRnrTimer_upd (q : Nat) (s : State) {W P : Nat} (hm : (subMask 0x40000000000000000 W && subMask 0x400 P) = true) :
    NextUpd W P s (execRnrTimer q s) := by
  refine NextUpd.mono (w := 0x40000000000000000) (p := 0x400) ?_ hm
  unfold execRnrTimer
  repeat' first
    | (with_reducible exact Upd.refl _)
    | with_reducible assumption
    | (extract_lets +onlyGivenNames z; refine Upd.cutU (z := z) ?_ (fun hz => ?_); subst z; rotate_left; clear_value z; all_goals have z := trivial)
    | (extract_lets +onlyGivenNames z; refine Upd.cutU (z := z.1) ?_ (fun hz => ?_); subst z; rotate_left; clear_value z; all_goals have z := trivial)
    | (extract_lets +onlyGivenNames z; refine NextUpd.cutU (z := z) ?_ (fun hz => ?_); subst z; rotate_left; clear_value z; all_goals have z := trivial)
    | (extract_lets +onlyGivenNames z; refine NextUpd.cutU (z := z.1) ?_ (fun hz => ?_); subst z; rotate_left; clear_value z; all_goals have z := trivial)
    | (extract_lets +onlyGivenNames z; clear_value z; have z := trivial)
    | (with_reducible apply NextUpd.next)
    | (with_reducible apply NextUpd.ite)
    | (with_reducible apply Upd.ite)
    | (with_reducible apply Upd.inc; decide)
    | (with_reducible apply State.qpResend_upd; decide)
    | (with_reducible apply Upd.set; decide)
    | (with_reducible apply Upd.fst; assumption)
    | simp (disch := decide) only [Upd.mk1_iff, Upd.egr_iff]
    | split

theorem execCnpReceived_upd (cnp : CnpIn) (s : State) {W P : Nat} (hm : (subMask 0x50000000000000000 W && subMask 0x0 P) = true) :
    NextUpd W P s (execCnpReceived cnp s) := by
  refine NextUpd.mono (w := 0x50000000000000000) (p := 0x0) ?_ hm
  unfold execCnpReceived
  repeat' first
    | (with_reducible exact Upd.refl _)
    | with_reducible assumption
    | (extract_lets +onlyGivenNames z; refine Upd.cutU (z := z) ?_ (fun hz => ?_); subst z; rotate_left; clear_value z; all_goals have z := trivial)
    | (extract_lets +onlyGivenNames z; refine Upd.cutU (z := z.1) ?_ (fun hz => ?_); subst z; rotate_left; clear_value z; all_goals have z := trivial)
    | (extract_lets +onlyGivenNames z; refine NextUpd.cutU (z := z) ?_ (fun hz => ?_); subst z; rotate_left; clear_value z; all_goals have z := trivial)
    | (extract_lets +onlyGivenNames z; refine NextUpd.cutU (z := z.1) ?_ (fun hz => ?_); subst z; rotate_left; clear_value z; all_goals have z := trivial)
    | (extract_lets +onlyGivenNames z; clear_value z; have z := trivial)
    | (with_reducible apply NextUpd.next)
    | (with_reducible apply NextUpd.ite)
    | (with_reducible apply Upd.ite)
    | (with_reducible apply State.countCe_upd; decide)
    | (with_reducible apply Upd.inc; decide)
    | (with_reducible apply Upd.set; decide)
    | (with_reducible apply Upd.fst; assumption)
    | simp (disch := decide) only [Upd.mk1_iff]
    | split

theorem execCnpRateInc_upd (q : Nat) (s : State) {W P : Nat} (hm : (subMask 0x40000000000000000 W && subMask 0x0 P) = true) :
    NextUpd W P s (execCnpRateInc q s) := by
  refine NextUpd.mono (w := 0x40000000000000000) (p := 0x0) ?_ hm
  unfold execCnpRateInc
  repeat' first
    | (with_reducible exact Upd.refl _)
    | with_reducible assumption
    | (extract_lets +onlyGivenNames z; refine Upd.cutU (z := z) ?_ (fun hz => ?_); subst z; rotate_left; clear_value z; all_goals have z := trivial)
    | (extract_lets +onlyGivenNames z; refine Upd.cutU (z := z.1) ?_ (fun hz => ?_); subst z; rotate_left; clear_value z; all_goals have z := trivial)
    | (extract_lets +onlyGivenNames z; refine NextUpd.cutU (z := z) ?_ (fun hz => ?_); subst z; rotate_left; clear_value z; all_goals have z := trivial)
    | (extract_lets +onlyGivenNames z; refine NextUpd.cutU (z := z.1) ?_ (fun hz => ?_); subst z; rotate_left; clear_value z; all_goals have z := trivial)
    | (extract_lets +onlyGivenNames z; clear_value z; have z := trivial)
    | (with_reducible apply NextUpd.next)
    | (with_reducible apply NextUpd.ite)
    | (with_reducible apply Upd.ite)
    | (with_reducible apply Upd.set; decide)
    | (with_reducible apply Upd.fst; assumption)
    | simp (disch := decide) only [Upd.mk1_iff]
    | split

theorem effQpEnable_upd (q : Nat) (src : Src) (s : State) {W P : Nat} {r_ : State} (hm : (subMask 0x140000000000000001 W && subMask 0x140c03 P) = true) (k_ : Upd W P r_ s) :
    Upd W P r_ (effQpEnable q src s) := by
  refine Upd.via (w := 0x140000000000000001) (p := 0x140c03) ?_ hm k_
  clear hm k_
  unfold effQpEnable
  repeat' first
    | (with_reducible apply Upd.foldlSet; decide)
    | ((with_reducible apply Upd.foldlPair); simp only [List.all_cons, List.all_nil]; decide)
    | (with_reducible apply Upd.foldl; intro _ _)
    | (with_reducible apply Upd.foldlFst; intro _ _)
    | (with_reducible exact Upd.refl _)
    | with_reducible assumption
    | (extract_lets +onlyGivenNames z; refine Upd.cutU (z := z) ?_ (fun hz => ?_); subst z; rotate_left; clear_value z; all_goals have z := trivial)
    | (extract_lets +onlyGivenNames z; refine Upd.cutU (z := z.1) ?_ (fun hz => ?_); subst z; rotate_left; clear_value z; all_goals have z := trivial)
    | (extract_lets +onlyGivenNames z; clear_value z; have z := trivial)
    | (with_reducible apply Upd.ite)
    | (with_reducible apply State.answer_upd; decide)
    | (with_reducible apply Upd.set; decide)
    | (with_reducible apply Upd.fst; assumption)
    | simp (disch := first | decide | rfl | (apply And.intro <;> first | decide | rfl | (apply And.intro <;> rfl))) only [Upd.mk1_iff, Upd.egr_iff, Upd.brg_iff, Upd.mgt_iff, Upd.out_iff]
    | split

theorem execQpEnable_upd (q : Nat) (src : Src) (s : State) {W P : Nat} (hm : (subMask 0x140000000000000003 W && subMask 0x1c0c03 P) = true) :
    NextUpd W P s (execQpEnable q src s) := by
  refine NextUpd.mono (w := 0x140000000000000003) (p := 0x1c0c03) ?_ hm
  unfold execQpEnable
  repeat' first
    | (with_reducible exact Upd.refl _)
    | with_reducible assumption
    | (extract_lets +onlyGivenNames z; refine Upd.cutU (z := z) ?_ (fun hz => ?_); subst z; rotate_left; clear_value z; all_goals have z := trivial)
    | (extract_lets +onlyGivenNames z; refine Upd.cutU (z := z.1) ?_ (fun hz => ?_); subst z; rotate_left; clear_value z; all_goals have z := trivial)
    | (extract_lets +onlyGivenNames z; refine NextUpd.cutU (z := z) ?_ (fun hz => ?_); subst z; rotate_left; clear_value z; all_goals have z := trivial)
    | (extract_lets +onlyGivenNames z; refine NextUpd.cutU (z := z.1) ?_ (fun hz => ?_); subst z; rotate_left; clear_value z; all_goals have z := trivial)
    | (extract_lets +onlyGivenNames z; clear_value z; have z := trivial)
    | (with_reducible apply NextUpd.next)
    | (with_reducible apply NextUpd.ite)
    | (with_reducible apply Upd.ite)
    | (with_reducible apply State.answer_upd; decide)
    | (with_reducible apply State.recorded_upd; decide; intro _)
    | (with_reducible apply effQpEnable_upd; decide)
    | (with_reducible apply Upd.fst; assumption)
    | simp (disch := first | decide | rfl | (apply And.intro <;> first | decide | rfl | (apply And.intro <;> rfl))) only [Upd.mk1_iff, Upd.egr_iff, Upd.brg_iff, Upd.mgt_iff, Upd.sec_iff, Upd.out_iff]
    | split

theorem effQpReset_upd (q : Nat) (s : State) {W P : Nat} {r_ : State} (hm : (subMask 0x1e0000000000000021 W && subMask 0x100c0a P) = true) (k_ : Upd W P r_ s) :
    Upd W P r_ (effQpReset q s) := by
  refine Upd.via (w := 0x1e0000000000000021) (p := 0x100c0a) ?_ hm k_
  clear hm k_
  unfold effQpReset
  repeat' first
    | (with_reducible exact Upd.refl _)
    | with_reducible assumption
    | (extract_lets +onlyGivenNames z; refine Upd.cutU (z := z) ?_ (fun hz => ?_); subst z; rotate_left; clear_value z; all_goals have z := trivial)
    | (extract_lets +onlyGivenNames z; refine Upd.cutU (z := z.1) ?_ (fun hz => ?_); subst z; rotate_left; clear_value z; all_goals have z := trivial)
    | (extract_lets +onlyGivenNames z; clear_value z; have z := trivial)
    | (with_reducible apply Upd.ite)
    | (with_reducible apply State.brgQpReset_upd; decide)
    | (with_reducible apply State.qpStop_upd; decide)
    | (with_reducible apply Upd.set; decide)
    | (with_reducible apply Upd.fst; assumption)
    | simp (disch := decide) only [Upd.mk1_iff, Upd.frames_iff, Upd.egr_iff, Upd.brg_iff, Upd.out_iff]
    | split

theorem execQpReset_upd (q : Nat) (src : Src) (s : State) {W P : Nat} (hm : (subMask 0x1e0000000000000023 W && subMask 0x1c0c0b P) = true) :
    NextUpd W P s (execQpReset q src s) := by
  refine NextUpd.mono (w := 0x1e0000000000000023) (p := 0x1c0c0b) ?_ hm
  unfold execQpReset
  repeat' first
    | (with_reducible exact Upd.refl _)
    | with_reducible assumption
    | (extract_lets +onlyGivenNames z; refine Upd.cutU (z := z) ?_ (fun hz => ?_); subst z; rotate_left; clear_value z; all_goals have z := trivial)
    | (extract_lets +onlyGivenNames z; refine Upd.cutU (z := z.1) ?_ (fun hz => ?_); subst z; rotate_left; clear_value z; all_goals have z := trivial)
    | (extract_lets +onlyGivenNames z; refine NextUpd.cutU (z := z) ?_ (fun hz => ?_); subst z; rotate_left; clear_value z; all_goals have z := trivial)
    | (extract_lets +onlyGivenNames z; refine NextUpd.cutU (z := z.1) ?_ (fun hz => ?_); subst z; rotate_left; clear_value z; all_goals have z := trivial)
    | (extract_lets +onlyGivenNames z; clear_value z; have z := trivial)
    | (with_reducible apply NextUpd.next)
    | (with_reducible apply NextUpd.ite)
    | (with_reducible apply Upd.ite)
    | (with_reducible apply State.answer_upd; decide)
    | (with_reducible apply State.recorded_upd; decide; intro _)
    | (with_reducible apply effQpReset_upd; decide)
    | (with_reducible apply Upd.fst; assumption)
    | simp (disch := first | decide | rfl | (apply And.intro <;> first | decide | rfl | (apply And.intro <;> rfl))) only [Upd.mk1_iff, Upd.frames_iff, Upd.egr_iff, Upd.brg_iff, Upd.mgt_iff, Upd.sec_iff, Upd.out_iff]
    | split

theorem execEgressLinkDown_upd (p : Nat) (s : State) {W P : Nat} (hm : (subMask 0x90000000000000001 W && subMask 0x100002 P) = true) :
    NextUpd W P s (execEgressLinkDown p s) := by
  refine NextUpd.mono (w := 0x90000000000000001) (p := 0x100002) ?_ hm
  unfold execEgressLinkDown
  repeat' first
    | (with_reducible exact Upd.refl _)
    | with_reducible assumption
    | (extract_lets +onlyGivenNames z; refine Upd.cutU (z := z) ?_ (fun hz => ?_); subst z; rotate_left; clear_value z; all_goals have z := trivial)
    | (extract_lets +onlyGivenNames z; refine Upd.cutU (z := z.1) ?_ (fun hz => ?_); subst z; rotate_left; clear_value z; all_goals have z := trivial)
    | (extract_lets +onlyGivenNames z; refine NextUpd.cutU (z := z) ?_ (fun hz => ?_); subst z; rotate_left; clear_value z; all_goals have z := trivial)
    | (extract_lets +onlyGivenNames z; refine NextUpd.cutU (z := z.1) ?_ (fun hz => ?_); subst z; rotate_left; clear_value z; all_goals have z := trivial)
    | (extract_lets +onlyGivenNames z; clear_value z; have z := trivial)
    | (with_reducible apply NextUpd.next)
    | (with_reducible apply NextUpd.ite)
    | (with_reducible apply Upd.ite)
    | (with_reducible apply Upd.set; decide)
    | (with_reducible apply Upd.sticky; decide; decide; decide)
    | (with_reducible apply Upd.fst; assumption)
    | simp (disch := decide) only [Upd.mk1_iff, Upd.out_iff]
    | split

theorem execEgressLinkUp_upd (p : Nat) (s : State) {W P : Nat} (hm : (subMask 0x10000000000000000 W && subMask 0x400 P) = true) :
    NextUpd W P s (execEgressLinkUp p s) := by
  refine NextUpd.mono (w := 0x10000000000000000) (p := 0x400) ?_ hm
  unfold execEgressLinkUp
  repeat' first
    | (with_reducible apply Upd.foldl; intro _ _)
    | (with_reducible apply Upd.foldlFst; intro _ _)
    | (with_reducible exact Upd.refl _)
    | with_reducible assumption
    | (extract_lets +onlyGivenNames z; refine Upd.cutU (z := z) ?_ (fun hz => ?_); subst z; rotate_left; clear_value z; all_goals have z := trivial)
    | (extract_lets +onlyGivenNames z; refine Upd.cutU (z := z.1) ?_ (fun hz => ?_); subst z; rotate_left; clear_value z; all_goals have z := trivial)
    | (extract_lets +onlyGivenNames z; refine NextUpd.cutU (z := z) ?_ (fun hz => ?_); subst z; rotate_left; clear_value z; all_goals have z := trivial)
    | (extract_lets +onlyGivenNames z; refine NextUpd.cutU (z := z.1) ?_ (fun hz => ?_); subst z; rotate_left; clear_value z; all_goals have z := trivial)
    | (extract_lets +onlyGivenNames z; clear_value z; have z := trivial)
    | (with_reducible apply NextUpd.next)
    | (with_reducible apply NextUpd.ite)
    | (with_reducible apply Upd.ite)
    | (with_reducible apply State.qpResend_upd; decide)
    | (with_reducible apply Upd.set; decide)
    | (with_reducible apply Upd.fst; assumption)
    | simp (disch := decide) only [Upd.mk1_iff, Upd.egr_iff]
    | split

theorem execPauseFrameReceived_upd (p : Nat) (pfc : Bool) (prio : Nat) (ns : Nat) (s : State) {W P : Nat} (hm : (subMask 0x10000000000000000 W && subMask 0x0 P) = true) :
    NextUpd W P s (execPauseFrameReceived p pfc prio ns s) := by
  refine NextUpd.mono (w := 0x10000000000000000) (p := 0x0) ?_ hm
  unfold execPauseFrameReceived
  repeat' first
    | (with_reducible exact Upd.refl _)
    | with_reducible assumption
    | (extract_lets +onlyGivenNames z; refine Upd.cutU (z := z) ?_ (fun hz => ?_); subst z; rotate_left; clear_value z; all_goals have z := trivial)
    | (extract_lets +onlyGivenNames z; refine Upd.cutU (z := z.1) ?_ (fun hz => ?_); subst z; rotate_left; clear_value z; all_goals have z := trivial)
    | (extract_lets +onlyGivenNames z; refine NextUpd.cutU (z := z) ?_ (fun hz => ?_); subst z; rotate_left; clear_value z; all_goals have z := trivial)
    | (extract_lets +onlyGivenNames z; refine NextUpd.cutU (z := z.1) ?_ (fun hz => ?_); subst z; rotate_left; clear_value z; all_goals have z := trivial)
    | (extract_lets +onlyGivenNames z; clear_value z; have z := trivial)
    | (with_reducible apply NextUpd.next)
    | (with_reducible apply NextUpd.ite)
    | (with_reducible apply Upd.ite)
    | (with_reducible apply Upd.inc; decide)
    | (with_reducible apply Upd.set; decide)
    | (with_reducible apply Upd.fst; assumption)
    | simp (disch := decide) only [Upd.mk1_iff]
    | split

theorem execRxFrameDiscard_upd (p : Nat) (s : State) {W P : Nat} (hm : (subMask 0x10000000000000000 W && subMask 0x0 P) = true) :
    NextUpd W P s (execRxFrameDiscard p s) := by
  refine NextUpd.mono (w := 0x10000000000000000) (p := 0x0) ?_ hm
  unfold execRxFrameDiscard
  repeat' first
    | (with_reducible exact Upd.refl _)
    | with_reducible assumption
    | (extract_lets +onlyGivenNames z; refine Upd.cutU (z := z) ?_ (fun hz => ?_); subst z; rotate_left; clear_value z; all_goals have z := trivial)
    | (extract_lets +onlyGivenNames z; refine Upd.cutU (z := z.1) ?_ (fun hz => ?_); subst z; rotate_left; clear_value z; all_goals have z := trivial)
    | (extract_lets +onlyGivenNames z; refine NextUpd.cutU (z := z) ?_ (fun hz => ?_); subst z; rotate_left; clear_value z; all_goals have z := trivial)
    | (extract_lets +onlyGivenNames z; refine NextUpd.cutU (z := z.1) ?_ (fun hz => ?_); subst z; rotate_left; clear_value z; all_goals have z := trivial)
    | (extract_lets +onlyGivenNames z; clear_value z; have z := trivial)
    | (with_reducible apply NextUpd.next)
    | (with_reducible apply NextUpd.ite)
    | (with_reducible apply Upd.ite)
    | (with_reducible apply Upd.inc; decide)
    | (with_reducible apply Upd.fst; assumption)
    | simp (disch := decide) only [Upd.mk1_iff]
    | split

theorem State.consReturn_upd (s : State) (st : Nat) (c : Nat) {W P : Nat} {r_ : State} (hm : (subMask 0x20000000000000001 W && subMask 0x100002 P) = true) (k_ : Upd W P r_ s) :
    Upd W P r_ (State.consReturn s st c) := by
  refine Upd.via (w := 0x20000000000000001) (p := 0x100002) ?_ hm k_
  clear hm k_
  unfold State.consReturn
  repeat' first
    | (with_reducible exact Upd.refl _)
    | with_reducible assumption
    | (extract_lets +onlyGivenNames z; refine Upd.cutU (z := z) ?_ (fun hz => ?_); subst z; rotate_left; clear_value z; all_goals have z := trivial)
    | (extract_lets +onlyGivenNames z; refine Upd.cutU (z := z.1) ?_ (fun hz => ?_); subst z; rotate_left; clear_value z; all_goals have z := trivial)
    | (extract_lets +onlyGivenNames z; clear_value z; have z := trivial)
    | (with_reducible apply Upd.ite)
    | (with_reducible apply Upd.set; decide)
    | (with_reducible apply State.strEvent_upd; decide)
    | (with_reducible apply Upd.fst; assumption)
    | simp (disch := decide) only [Upd.mk1_iff, Upd.out_iff]
    | split

theorem execStrConsWrite_upd (st : Nat) (c : Nat) (src : Src) (s : State) {W P : Nat} (hm : (subMask 0x120000000000000001 W && subMask 0x140c03 P) = true) :
    NextUpd W P s (execStrConsWrite st c src s) := by
  refine NextUpd.mono (w := 0x120000000000000001) (p := 0x140c03) ?_ hm
  unfold execStrConsWrite
  repeat' first
    | (with_reducible exact Upd.refl _)
    | with_reducible assumption
    | (extract_lets +onlyGivenNames z; refine Upd.cutU (z := z) ?_ (fun hz => ?_); subst z; rotate_left; clear_value z; all_goals have z := trivial)
    | (extract_lets +onlyGivenNames z; refine Upd.cutU (z := z.1) ?_ (fun hz => ?_); subst z; rotate_left; clear_value z; all_goals have z := trivial)
    | (extract_lets +onlyGivenNames z; refine NextUpd.cutU (z := z) ?_ (fun hz => ?_); subst z; rotate_left; clear_value z; all_goals have z := trivial)
    | (extract_lets +onlyGivenNames z; refine NextUpd.cutU (z := z.1) ?_ (fun hz => ?_); subst z; rotate_left; clear_value z; all_goals have z := trivial)
    | (extract_lets +onlyGivenNames z; clear_value z; have z := trivial)
    | (with_reducible apply NextUpd.next)
    | (with_reducible apply NextUpd.ite)
    | (with_reducible apply Upd.ite)
    | (with_reducible apply State.answer_upd; decide)
    | (with_reducible apply State.consReturn_upd; decide)
    | (with_reducible apply Upd.fst; assumption)
    | simp (disch := first | decide | rfl | (apply And.intro <;> first | decide | rfl | (apply And.intro <;> rfl))) only [Upd.mk1_iff, Upd.egr_iff, Upd.brg_iff, Upd.mgt_iff, Upd.out_iff]
    | split

theorem execEgrDropPop_upd (src : Src) (s : State) {W P : Nat} (hm : (subMask 0x100000000000000001 W && subMask 0x140c03 P) = true) :
    NextUpd W P s (execEgrDropPop src s) := by
  refine NextUpd.mono (w := 0x100000000000000001) (p := 0x140c03) ?_ hm
  unfold execEgrDropPop
  repeat' first
    | (with_reducible exact Upd.refl _)
    | with_reducible assumption
    | (extract_lets +onlyGivenNames z; refine Upd.cutU (z := z) ?_ (fun hz => ?_); subst z; rotate_left; clear_value z; all_goals have z := trivial)
    | (extract_lets +onlyGivenNames z; refine Upd.cutU (z := z.1) ?_ (fun hz => ?_); subst z; rotate_left; clear_value z; all_goals have z := trivial)
    | (extract_lets +onlyGivenNames z; refine NextUpd.cutU (z := z) ?_ (fun hz => ?_); subst z; rotate_left; clear_value z; all_goals have z := trivial)
    | (extract_lets +onlyGivenNames z; refine NextUpd.cutU (z := z.1) ?_ (fun hz => ?_); subst z; rotate_left; clear_value z; all_goals have z := trivial)
    | (extract_lets +onlyGivenNames z; clear_value z; have z := trivial)
    | (with_reducible apply NextUpd.next)
    | (with_reducible apply NextUpd.ite)
    | (with_reducible apply Upd.ite)
    | (with_reducible apply State.answer_upd; decide)
    | (with_reducible apply Upd.fst; assumption)
    | simp (disch := first | decide | rfl | (apply And.intro <;> first | decide | rfl | (apply And.intro <;> rfl))) only [Upd.mk1_iff, Upd.egr_iff, Upd.brg_iff, Upd.mgt_iff, Upd.out_iff]
    | split

theorem execEgrLatePop_upd (src : Src) (s : State) {W P : Nat} (hm : (subMask 0x180000000000000001 W && subMask 0x140c03 P) = true) :
    NextUpd W P s (execEgrLatePop src s) := by
  refine NextUpd.mono (w := 0x180000000000000001) (p := 0x140c03) ?_ hm
  unfold execEgrLatePop
  repeat' first
    | (with_reducible exact Upd.refl _)
    | with_reducible assumption
    | (extract_lets +onlyGivenNames z; refine Upd.cutU (z := z) ?_ (fun hz => ?_); subst z; rotate_left; clear_value z; all_goals have z := trivial)
    | (extract_lets +onlyGivenNames z; refine Upd.cutU (z := z.1) ?_ (fun hz => ?_); subst z; rotate_left; clear_value z; all_goals have z := trivial)
    | (extract_lets +onlyGivenNames z; refine NextUpd.cutU (z := z) ?_ (fun hz => ?_); subst z; rotate_left; clear_value z; all_goals have z := trivial)
    | (extract_lets +onlyGivenNames z; refine NextUpd.cutU (z := z.1) ?_ (fun hz => ?_); subst z; rotate_left; clear_value z; all_goals have z := trivial)
    | (extract_lets +onlyGivenNames z; clear_value z; have z := trivial)
    | (with_reducible apply NextUpd.next)
    | (with_reducible apply NextUpd.ite)
    | (with_reducible apply Upd.ite)
    | (with_reducible apply State.answer_upd; decide)
    | (with_reducible apply Upd.set; decide)
    | (with_reducible apply Upd.fst; assumption)
    | simp (disch := first | decide | rfl | (apply And.intro <;> first | decide | rfl | (apply And.intro <;> rfl))) only [Upd.mk1_iff, Upd.egr_iff, Upd.brg_iff, Upd.mgt_iff, Upd.out_iff]
    | split

theorem effClassDelaySet_upd (p : Nat) (sel : Nat) (v : Nat) (s : State) {W P : Nat} {r_ : State} (hm : (subMask 0x10000000000000000 W && subMask 0x0 P) = true) (k_ : Upd W P r_ s) :
    Upd W P r_ (effClassDelaySet p sel v s) := by
  refine Upd.via (w := 0x10000000000000000) (p := 0x0) ?_ hm k_
  clear hm k_
  unfold effClassDelaySet
  repeat' first
    | (with_reducible exact Upd.refl _)
    | with_reducible assumption
    | (extract_lets +onlyGivenNames z; refine Upd.cutU (z := z) ?_ (fun hz => ?_); subst z; rotate_left; clear_value z; all_goals have z := trivial)
    | (extract_lets +onlyGivenNames z; refine Upd.cutU (z := z.1) ?_ (fun hz => ?_); subst z; rotate_left; clear_value z; all_goals have z := trivial)
    | (extract_lets +onlyGivenNames z; clear_value z; have z := trivial)
    | (with_reducible apply Upd.ite)
    | (with_reducible apply Upd.set; decide)
    | (with_reducible apply Upd.fst; assumption)
    | simp (disch := decide) only [Upd.mk1_iff]
    | split

theorem execClassDelaySet_upd (p : Nat) (sel : Nat) (v : Nat) (src : Src) (s : State) {W P : Nat} (hm : (subMask 0x110000000000000003 W && subMask 0x1c0c03 P) = true) :
    NextUpd W P s (execClassDelaySet p sel v src s) := by
  refine NextUpd.mono (w := 0x110000000000000003) (p := 0x1c0c03) ?_ hm
  unfold execClassDelaySet
  repeat' first
    | (with_reducible exact Upd.refl _)
    | with_reducible assumption
    | (extract_lets +onlyGivenNames z; refine Upd.cutU (z := z) ?_ (fun hz => ?_); subst z; rotate_left; clear_value z; all_goals have z := trivial)
    | (extract_lets +onlyGivenNames z; refine Upd.cutU (z := z.1) ?_ (fun hz => ?_); subst z; rotate_left; clear_value z; all_goals have z := trivial)
    | (extract_lets +onlyGivenNames z; refine NextUpd.cutU (z := z) ?_ (fun hz => ?_); subst z; rotate_left; clear_value z; all_goals have z := trivial)
    | (extract_lets +onlyGivenNames z; refine NextUpd.cutU (z := z.1) ?_ (fun hz => ?_); subst z; rotate_left; clear_value z; all_goals have z := trivial)
    | (extract_lets +onlyGivenNames z; clear_value z; have z := trivial)
    | (with_reducible apply NextUpd.next)
    | (with_reducible apply NextUpd.ite)
    | (with_reducible apply Upd.ite)
    | (with_reducible apply State.answer_upd; decide)
    | (with_reducible apply State.recorded_upd; decide; intro _)
    | (with_reducible apply effClassDelaySet_upd; decide)
    | (with_reducible apply Upd.fst; assumption)
    | simp (disch := first | decide | rfl | (apply And.intro <;> first | decide | rfl | (apply And.intro <;> rfl))) only [Upd.mk1_iff, Upd.egr_iff, Upd.brg_iff, Upd.mgt_iff, Upd.sec_iff, Upd.out_iff]
    | split

theorem effEgrFence_upd (s : State) {W P : Nat} {r_ : State} (hm : (subMask 0x1e0000000000000021 W && subMask 0x100c0a P) = true) (k_ : Upd W P r_ s) :
    Upd W P r_ (effEgrFence s) := by
  refine Upd.via (w := 0x1e0000000000000021) (p := 0x100c0a) ?_ hm k_
  clear hm k_
  unfold effEgrFence
  repeat' first
    | (with_reducible apply Upd.foldl; intro _ _)
    | (with_reducible apply Upd.foldlFst; intro _ _)
    | (with_reducible exact Upd.refl _)
    | with_reducible assumption
    | (extract_lets +onlyGivenNames z; refine Upd.cutU (z := z) ?_ (fun hz => ?_); subst z; rotate_left; clear_value z; all_goals have z := trivial)
    | (extract_lets +onlyGivenNames z; refine Upd.cutU (z := z.1) ?_ (fun hz => ?_); subst z; rotate_left; clear_value z; all_goals have z := trivial)
    | (extract_lets +onlyGivenNames z; clear_value z; have z := trivial)
    | (with_reducible apply Upd.ite)
    | (with_reducible apply Upd.set; decide)
    | (with_reducible apply effQpReset_upd; decide)
    | (with_reducible apply Upd.fst; assumption)
    | simp (disch := decide) only [Upd.mk1_iff, Upd.frames_iff, Upd.egr_iff, Upd.brg_iff, Upd.out_iff]
    | split

theorem execEgrFence_upd (src : Src) (s : State) {W P : Nat} (hm : (subMask 0x1e0000000000000023 W && subMask 0x1c0c0b P) = true) :
    NextUpd W P s (execEgrFence src s) := by
  refine NextUpd.mono (w := 0x1e0000000000000023) (p := 0x1c0c0b) ?_ hm
  unfold execEgrFence
  repeat' first
    | (with_reducible exact Upd.refl _)
    | with_reducible assumption
    | (extract_lets +onlyGivenNames z; refine Upd.cutU (z := z) ?_ (fun hz => ?_); subst z; rotate_left; clear_value z; all_goals have z := trivial)
    | (extract_lets +onlyGivenNames z; refine Upd.cutU (z := z.1) ?_ (fun hz => ?_); subst z; rotate_left; clear_value z; all_goals have z := trivial)
    | (extract_lets +onlyGivenNames z; refine NextUpd.cutU (z := z) ?_ (fun hz => ?_); subst z; rotate_left; clear_value z; all_goals have z := trivial)
    | (extract_lets +onlyGivenNames z; refine NextUpd.cutU (z := z.1) ?_ (fun hz => ?_); subst z; rotate_left; clear_value z; all_goals have z := trivial)
    | (extract_lets +onlyGivenNames z; clear_value z; have z := trivial)
    | (with_reducible apply NextUpd.next)
    | (with_reducible apply NextUpd.ite)
    | (with_reducible apply Upd.ite)
    | (with_reducible apply State.answer_upd; decide)
    | (with_reducible apply State.recorded_upd; decide; intro _)
    | (with_reducible apply effEgrFence_upd; decide)
    | (with_reducible apply Upd.fst; assumption)
    | simp (disch := first | decide | rfl | (apply And.intro <;> first | decide | rfl | (apply And.intro <;> rfl))) only [Upd.mk1_iff, Upd.frames_iff, Upd.egr_iff, Upd.brg_iff, Upd.mgt_iff, Upd.sec_iff, Upd.out_iff]
    | split

theorem execEgrFenceDone_upd (s : State) {W P : Nat} (hm : (subMask 0x80000000000000000 W && subMask 0x0 P) = true) :
    NextUpd W P s (execEgrFenceDone s) := by
  refine NextUpd.mono (w := 0x80000000000000000) (p := 0x0) ?_ hm
  unfold execEgrFenceDone
  repeat' first
    | (with_reducible exact Upd.refl _)
    | with_reducible assumption
    | (extract_lets +onlyGivenNames z; refine Upd.cutU (z := z) ?_ (fun hz => ?_); subst z; rotate_left; clear_value z; all_goals have z := trivial)
    | (extract_lets +onlyGivenNames z; refine Upd.cutU (z := z.1) ?_ (fun hz => ?_); subst z; rotate_left; clear_value z; all_goals have z := trivial)
    | (extract_lets +onlyGivenNames z; refine NextUpd.cutU (z := z) ?_ (fun hz => ?_); subst z; rotate_left; clear_value z; all_goals have z := trivial)
    | (extract_lets +onlyGivenNames z; refine NextUpd.cutU (z := z.1) ?_ (fun hz => ?_); subst z; rotate_left; clear_value z; all_goals have z := trivial)
    | (extract_lets +onlyGivenNames z; clear_value z; have z := trivial)
    | (with_reducible apply NextUpd.next)
    | (with_reducible apply NextUpd.ite)
    | (with_reducible apply Upd.ite)
    | (with_reducible apply Upd.set; decide)
    | (with_reducible apply Upd.fst; assumption)
    | simp (disch := decide) only [Upd.mk1_iff]
    | split

theorem effEgrReset_upd (s : State) {W P : Nat} {r_ : State} (hm : (subMask 0x1e0000000000000025 W && subMask 0x141c0b P) = true) (k_ : Upd W P r_ s) :
    Upd W P r_ (effEgrReset s) := by
  refine Upd.via (w := 0x1e0000000000000025) (p := 0x141c0b) ?_ hm k_
  clear hm k_
  unfold effEgrReset
  repeat' first
    | (with_reducible apply Upd.foldl; intro _ _)
    | (with_reducible apply Upd.foldlFst; intro _ _)
    | (with_reducible exact Upd.refl _)
    | with_reducible assumption
    | (extract_lets +onlyGivenNames z; refine Upd.cutU (z := z) ?_ (fun hz => ?_); subst z; rotate_left; clear_value z; all_goals have z := trivial)
    | (extract_lets +onlyGivenNames z; refine Upd.cutU (z := z.1) ?_ (fun hz => ?_); subst z; rotate_left; clear_value z; all_goals have z := trivial)
    | (extract_lets +onlyGivenNames z; clear_value z; have z := trivial)
    | (with_reducible apply Upd.ite)
    | (with_reducible apply State.blockReset_upd; decide)
    | (with_reducible apply State.brgQpReset_upd; decide)
    | (with_reducible apply State.qpStop_upd; decide)
    | (with_reducible apply Upd.set; decide)
    | (with_reducible apply Upd.fst; assumption)
    | simp (disch := first | decide | rfl | (apply And.intro <;> first | decide | rfl | (apply And.intro <;> rfl))) only [Upd.mk1_iff, Upd.frames_iff, Upd.egr_iff, Upd.brg_iff, Upd.memq_iff, Upd.mgt_iff, Upd.out_iff]
    | split

theorem execEgrReset_upd (src : Src) (s : State) {W P : Nat} (hm : (subMask 0x1e0000000000000027 W && subMask 0x1c1c0b P) = true) :
    NextUpd W P s (execEgrReset src s) := by
  refine NextUpd.mono (w := 0x1e0000000000000027) (p := 0x1c1c0b) ?_ hm
  unfold execEgrReset
  repeat' first
    | (with_reducible exact Upd.refl _)
    | with_reducible assumption
    | (extract_lets +onlyGivenNames z; refine Upd.cutU (z := z) ?_ (fun hz => ?_); subst z; rotate_left; clear_value z; all_goals have z := trivial)
    | (extract_lets +onlyGivenNames z; refine Upd.cutU (z := z.1) ?_ (fun hz => ?_); subst z; rotate_left; clear_value z; all_goals have z := trivial)
    | (extract_lets +onlyGivenNames z; refine NextUpd.cutU (z := z) ?_ (fun hz => ?_); subst z; rotate_left; clear_value z; all_goals have z := trivial)
    | (extract_lets +onlyGivenNames z; refine NextUpd.cutU (z := z.1) ?_ (fun hz => ?_); subst z; rotate_left; clear_value z; all_goals have z := trivial)
    | (extract_lets +onlyGivenNames z; clear_value z; have z := trivial)
    | (with_reducible apply NextUpd.next)
    | (with_reducible apply NextUpd.ite)
    | (with_reducible apply Upd.ite)
    | (with_reducible apply State.answer_upd; decide)
    | (with_reducible apply State.recorded_upd; decide; intro _)
    | (with_reducible apply effEgrReset_upd; decide)
    | (with_reducible apply Upd.fst; assumption)
    | simp (disch := first | decide | rfl | (apply And.intro <;> first | decide | rfl | (apply And.intro <;> rfl))) only [Upd.mk1_iff, Upd.frames_iff, Upd.egr_iff, Upd.brg_iff, Upd.memq_iff, Upd.mgt_iff, Upd.sec_iff, Upd.out_iff]
    | split

theorem State.egrClrCnt_upd (s : State) {W P : Nat} {r_ : State} (hm : (subMask 0x70000000000000000 W && subMask 0x0 P) = true) (k_ : Upd W P r_ s) :
    Upd W P r_ (State.egrClrCnt s) := by
  refine Upd.via (w := 0x70000000000000000) (p := 0x0) ?_ hm k_
  clear hm k_
  unfold State.egrClrCnt
  repeat' first
    | (with_reducible apply Upd.foldlSet; decide)
    | ((with_reducible apply Upd.foldlPair); simp only [List.all_cons, List.all_nil]; decide)
    | (with_reducible apply Upd.foldl; intro _ _)
    | (with_reducible apply Upd.foldlFst; intro _ _)
    | (with_reducible exact Upd.refl _)
    | with_reducible assumption
    | (extract_lets +onlyGivenNames z; refine Upd.cutU (z := z) ?_ (fun hz => ?_); subst z; rotate_left; clear_value z; all_goals have z := trivial)
    | (extract_lets +onlyGivenNames z; refine Upd.cutU (z := z.1) ?_ (fun hz => ?_); subst z; rotate_left; clear_value z; all_goals have z := trivial)
    | (extract_lets +onlyGivenNames z; clear_value z; have z := trivial)
    | (with_reducible apply Upd.ite)
    | (with_reducible apply Upd.set; decide)
    | (with_reducible apply Upd.fst; assumption)
    | simp (disch := decide) only [Upd.mk1_iff]
    | split

theorem execEgrClrCnt_upd (src : Src) (s : State) {W P : Nat} (hm : (subMask 0x170000000000000001 W && subMask 0x140c03 P) = true) :
    NextUpd W P s (execEgrClrCnt src s) := by
  refine NextUpd.mono (w := 0x170000000000000001) (p := 0x140c03) ?_ hm
  unfold execEgrClrCnt
  repeat' first
    | (with_reducible exact Upd.refl _)
    | with_reducible assumption
    | (extract_lets +onlyGivenNames z; refine Upd.cutU (z := z) ?_ (fun hz => ?_); subst z; rotate_left; clear_value z; all_goals have z := trivial)
    | (extract_lets +onlyGivenNames z; refine Upd.cutU (z := z.1) ?_ (fun hz => ?_); subst z; rotate_left; clear_value z; all_goals have z := trivial)
    | (extract_lets +onlyGivenNames z; refine NextUpd.cutU (z := z) ?_ (fun hz => ?_); subst z; rotate_left; clear_value z; all_goals have z := trivial)
    | (extract_lets +onlyGivenNames z; refine NextUpd.cutU (z := z.1) ?_ (fun hz => ?_); subst z; rotate_left; clear_value z; all_goals have z := trivial)
    | (extract_lets +onlyGivenNames z; clear_value z; have z := trivial)
    | (with_reducible apply NextUpd.next)
    | (with_reducible apply NextUpd.ite)
    | (with_reducible apply Upd.ite)
    | (with_reducible apply State.answer_upd; decide)
    | (with_reducible apply State.egrClrCnt_upd; decide)
    | (with_reducible apply Upd.fst; assumption)
    | simp (disch := first | decide | rfl | (apply And.intro <;> first | decide | rfl | (apply And.intro <;> rfl))) only [Upd.mk1_iff, Upd.egr_iff, Upd.brg_iff, Upd.mgt_iff, Upd.out_iff]
    | split

end Sys2Proof.Machine
end

