-- ==== Sys2Proof/Laws/UpdStoOps.lean ====
section
/-! SUPPORT. What each operation of Machine/StoOps.lean may change (see Laws/Upd.lean). -/

set_option linter.unusedSimpArgs false
set_option linter.tactic.unusedName false

namespace Sys2Proof.Machine

theorem State.stoEvent_upd (s : State) (k : Nat) (inst : Nat) (arg : Nat) (lun : Nat) {W P : Nat} {r_ : State} (hm : (subMask 0x1000000000000000000001 W && subMask 0x100002 P) = true) (k_ : Upd W P r_ s) :
    Upd W P r_ (State.stoEvent s k inst arg lun) := by
  refine Upd.via (w := 0x1000000000000000000001) (p := 0x100002) ?_ hm k_
  clear hm k_
  unfold State.stoEvent
  repeat' first
    | (with_reducible exact Upd.refl _)
    | with_reducible assumption
    | (extract_lets +onlyGivenNames z; refine Upd.cutU (z := z) ?_ (fun hz => ?_); subst z; rotate_left; clear_value z; all_goals have z := trivial)
    | (extract_lets +onlyGivenNames z; refine Upd.cutU (z := z.1) ?_ (fun hz => ?_); subst z; rotate_left; clear_value z; all_goals have z := trivial)
    | (extract_lets +onlyGivenNames z; clear_value z; have z := trivial)
    | (with_reducible apply Upd.ite)
    | (with_reducible apply Upd.sticky; decide; decide; decide)
    | (with_reducible apply Upd.fst; assumption)
    | simp (disch := decide) only [Upd.mk1_iff, Upd.out_iff]
    | split

theorem State.putBlk_upd (s : State) (b : NandBlk) {W P : Nat} {r_ : State} (hm : (subMask 0x0 W && subMask 0x2000 P) = true) (k_ : Upd W P r_ s) :
    Upd W P r_ (State.putBlk s b) := by
  refine Upd.via (w := 0x0) (p := 0x2000) ?_ hm k_
  clear hm k_
  unfold State.putBlk
  repeat' first
    | (with_reducible exact Upd.refl _)
    | with_reducible assumption
    | (extract_lets +onlyGivenNames z; refine Upd.cutU (z := z) ?_ (fun hz => ?_); subst z; rotate_left; clear_value z; all_goals have z := trivial)
    | (extract_lets +onlyGivenNames z; refine Upd.cutU (z := z.1) ?_ (fun hz => ?_); subst z; rotate_left; clear_value z; all_goals have z := trivial)
    | (extract_lets +onlyGivenNames z; clear_value z; have z := trivial)
    | (with_reducible apply Upd.ite)
    | (with_reducible apply Upd.fst; assumption)
    | simp (disch := decide) only [Upd.mk1_iff, Upd.sto_iff]
    | split

theorem State.wearCheck_upd (s : State) {W P : Nat} {r_ : State} (hm : (subMask 0x1000000000000000000001 W && subMask 0x100002 P) = true) (k_ : Upd W P r_ s) :
    Upd W P r_ (State.wearCheck s) := by
  refine Upd.via (w := 0x1000000000000000000001) (p := 0x100002) ?_ hm k_
  clear hm k_
  unfold State.wearCheck
  repeat' first
    | (with_reducible exact Upd.refl _)
    | with_reducible assumption
    | (extract_lets +onlyGivenNames z; refine Upd.cutU (z := z) ?_ (fun hz => ?_); subst z; rotate_left; clear_value z; all_goals have z := trivial)
    | (extract_lets +onlyGivenNames z; refine Upd.cutU (z := z.1) ?_ (fun hz => ?_); subst z; rotate_left; clear_value z; all_goals have z := trivial)
    | (extract_lets +onlyGivenNames z; clear_value z; have z := trivial)
    | (with_reducible apply Upd.ite)
    | (with_reducible apply Upd.setBit; decide)
    | (with_reducible apply State.stoEvent_upd; decide)
    | (with_reducible apply Upd.fst; assumption)
    | simp (disch := decide) only [Upd.mk1_iff, Upd.out_iff]
    | split

theorem State.takeBlk_upd (s : State) (region : Nat) (seg : Nat) {W P : Nat} {r_ : State} {t : _} (h : State.takeBlk s region seg = some t) (hm : (subMask 0x0 W && subMask 0x2000 P) = true) (k_ : Upd W P r_ s) :
    Upd W P r_ t := by
  refine Upd.via (w := 0x0) (p := 0x2000) ?_ hm k_
  clear hm k_
  unfold State.takeBlk at h
  obtain ⟨b, -, rfl⟩ := Option.map_eq_some_iff.mp h
  repeat' first
    | (with_reducible exact Upd.refl _)
    | with_reducible assumption
    | (extract_lets +onlyGivenNames z; refine Upd.cutU (z := z) ?_ (fun hz => ?_); subst z; rotate_left; clear_value z; all_goals have z := trivial)
    | (extract_lets +onlyGivenNames z; refine Upd.cutU (z := z.1) ?_ (fun hz => ?_); subst z; rotate_left; clear_value z; all_goals have z := trivial)
    | (extract_lets +onlyGivenNames z; clear_value z; have z := trivial)
    | (with_reducible apply Upd.ite)
    | (with_reducible apply State.putBlk_upd; decide)
    | (with_reducible apply Upd.fst; assumption)
    | simp (disch := decide) only [Upd.mk1_iff, Upd.sto_iff]
    | split

theorem State.freeBlkId_upd (s : State) (i : Nat) {W P : Nat} {r_ : State} (hm : (subMask 0x1000000000000000000001 W && subMask 0x102002 P) = true) (k_ : Upd W P r_ s) :
    Upd W P r_ (State.freeBlkId s i) := by
  refine Upd.via (w := 0x1000000000000000000001) (p := 0x102002) ?_ hm k_
  clear hm k_
  unfold State.freeBlkId
  repeat' first
    | (with_reducible exact Upd.refl _)
    | with_reducible assumption
    | (extract_lets +onlyGivenNames z; refine Upd.cutU (z := z) ?_ (fun hz => ?_); subst z; rotate_left; clear_value z; all_goals have z := trivial)
    | (extract_lets +onlyGivenNames z; refine Upd.cutU (z := z.1) ?_ (fun hz => ?_); subst z; rotate_left; clear_value z; all_goals have z := trivial)
    | (extract_lets +onlyGivenNames z; clear_value z; have z := trivial)
    | (with_reducible apply Upd.ite)
    | (with_reducible apply State.putBlk_upd; decide)
    | (with_reducible apply State.wearCheck_upd; decide)
    | (with_reducible apply Upd.fst; assumption)
    | simp (disch := decide) only [Upd.mk1_iff, Upd.sto_iff, Upd.out_iff]
    | split

theorem State.freeSeg_upd (s : State) (region : Nat) (seg : Nat) {W P : Nat} {r_ : State} (hm : (subMask 0x1000000000000000000001 W && subMask 0x102002 P) = true) (k_ : Upd W P r_ s) :
    Upd W P r_ (State.freeSeg s region seg) := by
  refine Upd.via (w := 0x1000000000000000000001) (p := 0x102002) ?_ hm k_
  clear hm k_
  unfold State.freeSeg
  repeat' first
    | (with_reducible exact Upd.refl _)
    | with_reducible assumption
    | (extract_lets +onlyGivenNames z; refine Upd.cutU (z := z) ?_ (fun hz => ?_); subst z; rotate_left; clear_value z; all_goals have z := trivial)
    | (extract_lets +onlyGivenNames z; refine Upd.cutU (z := z.1) ?_ (fun hz => ?_); subst z; rotate_left; clear_value z; all_goals have z := trivial)
    | (extract_lets +onlyGivenNames z; clear_value z; have z := trivial)
    | (with_reducible apply Upd.ite)
    | (with_reducible apply State.freeBlkId_upd; decide)
    | (with_reducible apply Upd.fst; assumption)
    | simp (disch := decide) only [Upd.mk1_iff, Upd.sto_iff, Upd.out_iff]
    | split

theorem State.retire_upd (s : State) (i : Nat) (ch : Nat) (lun : Nat) {W P : Nat} {r_ : State} (hm : (subMask 0x1000000000000000000001 W && subMask 0x102002 P) = true) (k_ : Upd W P r_ s) :
    Upd W P r_ (State.retire s i ch lun) := by
  refine Upd.via (w := 0x1000000000000000000001) (p := 0x102002) ?_ hm k_
  clear hm k_
  unfold State.retire
  repeat' first
    | (with_reducible exact Upd.refl _)
    | with_reducible assumption
    | (extract_lets +onlyGivenNames z; refine Upd.cutU (z := z) ?_ (fun hz => ?_); subst z; rotate_left; clear_value z; all_goals have z := trivial)
    | (extract_lets +onlyGivenNames z; refine Upd.cutU (z := z.1) ?_ (fun hz => ?_); subst z; rotate_left; clear_value z; all_goals have z := trivial)
    | (extract_lets +onlyGivenNames z; clear_value z; have z := trivial)
    | (with_reducible apply Upd.ite)
    | (with_reducible apply Upd.inc; decide)
    | (with_reducible apply State.putBlk_upd; decide)
    | (with_reducible apply Upd.set; decide)
    | (with_reducible apply State.stoEvent_upd; decide)
    | (with_reducible apply Upd.fst; assumption)
    | simp (disch := decide) only [Upd.mk1_iff, Upd.sto_iff, Upd.out_iff]
    | split

theorem State.relocate_upd (s : State) (i : Nat) {W P : Nat} {r_ : State} (hm : (subMask 0x1000000000000000000001 W && subMask 0x102002 P) = true) (k_ : Upd W P r_ s) :
    Upd W P r_ (State.relocate s i) := by
  refine Upd.via (w := 0x1000000000000000000001) (p := 0x102002) ?_ hm k_
  clear hm k_
  unfold State.relocate
  repeat' first
    | (with_reducible exact Upd.refl _)
    | with_reducible assumption
    | (extract_lets +onlyGivenNames z; refine Upd.cutU (z := z) ?_ (fun hz => ?_); subst z; rotate_left; clear_value z; all_goals have z := trivial)
    | (extract_lets +onlyGivenNames z; refine Upd.cutU (z := z.1) ?_ (fun hz => ?_); subst z; rotate_left; clear_value z; all_goals have z := trivial)
    | (extract_lets +onlyGivenNames z; clear_value z; have z := trivial)
    | (with_reducible apply Upd.ite)
    | (with_reducible apply State.freeBlkId_upd; decide)
    | (with_reducible apply Upd.inc; decide)
    | (with_reducible apply State.takeBlk_upd; assumption; decide)
    | (with_reducible apply Upd.fst; assumption)
    | simp (disch := decide) only [Upd.mk1_iff, Upd.sto_iff, Upd.out_iff]
    | split

theorem State.readCount_upd (s : State) (r : NandRead) {W P : Nat} {r_ : State} (hm : (subMask 0x1000000000000000000001 W && subMask 0x100002 P) = true) (k_ : Upd W P r_ s) :
    Upd W P r_ (State.readCount s r) := by
  refine Upd.via (w := 0x1000000000000000000001) (p := 0x100002) ?_ hm k_
  clear hm k_
  unfold State.readCount
  repeat' first
    | (with_reducible exact Upd.refl _)
    | with_reducible assumption
    | (extract_lets +onlyGivenNames z; refine Upd.cutU (z := z) ?_ (fun hz => ?_); subst z; rotate_left; clear_value z; all_goals have z := trivial)
    | (extract_lets +onlyGivenNames z; refine Upd.cutU (z := z.1) ?_ (fun hz => ?_); subst z; rotate_left; clear_value z; all_goals have z := trivial)
    | (extract_lets +onlyGivenNames z; clear_value z; have z := trivial)
    | (with_reducible apply Upd.ite)
    | (with_reducible apply Upd.add; decide)
    | (with_reducible apply Upd.inc; decide)
    | (with_reducible apply State.stoEvent_upd; decide)
    | (with_reducible apply Upd.fst; assumption)
    | simp (disch := decide) only [Upd.mk1_iff, Upd.out_iff]
    | split

theorem State.damage_upd (s : State) (p : Hamper → Bool) {W P : Nat} {r_ : State} (hm : (subMask 0x1000000000000000000001 W && subMask 0x102002 P) = true) (k_ : Upd W P r_ s) :
    Upd W P r_ (State.damage s p) := by
  refine Upd.via (w := 0x1000000000000000000001) (p := 0x102002) ?_ hm k_
  clear hm k_
  unfold State.damage
  repeat' first
    | (with_reducible apply Upd.foldl; intro _ _)
    | (with_reducible apply Upd.foldlFst; intro _ _)
    | (with_reducible exact Upd.refl _)
    | with_reducible assumption
    | (extract_lets +onlyGivenNames z; refine Upd.cutU (z := z) ?_ (fun hz => ?_); subst z; rotate_left; clear_value z; all_goals have z := trivial)
    | (extract_lets +onlyGivenNames z; refine Upd.cutU (z := z.1) ?_ (fun hz => ?_); subst z; rotate_left; clear_value z; all_goals have z := trivial)
    | (extract_lets +onlyGivenNames z; have _t : State → _ := z; clear _t; subst z; have z := trivial)
    | (extract_lets +onlyGivenNames z; have _t : _ → State := z; clear _t; subst z; have z := trivial)
    | (extract_lets +onlyGivenNames z; have _t : _ → _ → State := z; clear _t; subst z; have z := trivial)
    | (extract_lets +onlyGivenNames z; clear_value z; have z := trivial)
    | (with_reducible apply Upd.ite)
    | (with_reducible apply State.stoEvent_upd; decide)
    | (with_reducible apply Upd.fst; assumption)
    | simp (disch := decide) only [Upd.mk1_iff, Upd.sto_iff, Upd.out_iff]
    | split

theorem State.segLost_upd (s : State) (region : Nat) (seg : Nat) {W P : Nat} {r_ : State} (hm : (subMask 0x1000000000000000000001 W && subMask 0x102002 P) = true) (k_ : Upd W P r_ s) :
    Upd W P r_ (State.segLost s region seg) := by
  refine Upd.via (w := 0x1000000000000000000001) (p := 0x102002) ?_ hm k_
  clear hm k_
  unfold State.segLost
  repeat' first
    | (with_reducible exact Upd.refl _)
    | with_reducible assumption
    | (extract_lets +onlyGivenNames z; refine Upd.cutU (z := z) ?_ (fun hz => ?_); subst z; rotate_left; clear_value z; all_goals have z := trivial)
    | (extract_lets +onlyGivenNames z; refine Upd.cutU (z := z.1) ?_ (fun hz => ?_); subst z; rotate_left; clear_value z; all_goals have z := trivial)
    | (extract_lets +onlyGivenNames z; clear_value z; have z := trivial)
    | (with_reducible apply Upd.ite)
    | (with_reducible apply State.damage_upd; decide)
    | (with_reducible apply Upd.fst; assumption)
    | simp (disch := decide) only [Upd.mk1_iff, Upd.sto_iff, Upd.out_iff]
    | split

theorem State.takeLib_upd (s : State) (x0 : Nat) {W P : Nat} {r_ : State} {t : _} (h : State.takeLib s x0 = some t) (hm : (subMask 0x1000000000000000000000 W && subMask 0x2000 P) = true) (k_ : Upd W P r_ s) :
    Upd W P r_ t.1 := by
  refine Upd.via (w := 0x1000000000000000000000) (p := 0x2000) ?_ hm k_
  clear hm k_
  induction x0 generalizing t with
  | zero => unfold State.takeLib at h; cases h; exact Upd.refl s
  | succ n ih =>
    unfold State.takeLib at h
    revert h
    split
    · intro h; cases h
    · next heq =>
      dsimp only
      split
      · intro h; cases h
      · next heq' => intro h; cases h; exact State.takeBlk_upd _ _ _ heq' (by decide) (Upd.bump (by decide) (ih heq))

theorem State.libResult_upd (s : State) (r : Option (Nat × Status)) (num : Nat) {W P : Nat} {r_ : State} (hm : (subMask 0x1000000000000000000000 W && subMask 0x0 P) = true) (k_ : Upd W P r_ s) :
    Upd W P r_ (State.libResult s r num) := by
  refine Upd.via (w := 0x1000000000000000000000) (p := 0x0) ?_ hm k_
  clear hm k_
  unfold State.libResult
  repeat' first
    | (with_reducible exact Upd.refl _)
    | with_reducible assumption
    | (extract_lets +onlyGivenNames z; refine Upd.cutU (z := z) ?_ (fun hz => ?_); subst z; rotate_left; clear_value z; all_goals have z := trivial)
    | (extract_lets +onlyGivenNames z; refine Upd.cutU (z := z.1) ?_ (fun hz => ?_); subst z; rotate_left; clear_value z; all_goals have z := trivial)
    | (extract_lets +onlyGivenNames z; clear_value z; have z := trivial)
    | (with_reducible apply Upd.ite)
    | (with_reducible apply Upd.set; decide)
    | (with_reducible apply Upd.fst; assumption)
    | simp (disch := decide) only [Upd.mk1_iff]
    | split

theorem State.stage_upd (s : State) (e : RecEntry) {W P : Nat} {r_ : State} (hm : (subMask 0x1000000000000000000000 W && subMask 0x2000 P) = true) (k_ : Upd W P r_ s) :
    Upd W P r_ (State.stage s e) := by
  refine Upd.via (w := 0x1000000000000000000000) (p := 0x2000) ?_ hm k_
  clear hm k_
  unfold State.stage
  repeat' first
    | (with_reducible exact Upd.refl _)
    | with_reducible assumption
    | (extract_lets +onlyGivenNames z; refine Upd.cutU (z := z) ?_ (fun hz => ?_); subst z; rotate_left; clear_value z; all_goals have z := trivial)
    | (extract_lets +onlyGivenNames z; refine Upd.cutU (z := z.1) ?_ (fun hz => ?_); subst z; rotate_left; clear_value z; all_goals have z := trivial)
    | (extract_lets +onlyGivenNames z; clear_value z; have z := trivial)
    | (with_reducible apply Upd.ite)
    | (with_reducible apply Upd.bump; decide)
    | (with_reducible apply Upd.fst; assumption)
    | simp (disch := decide) only [Upd.mk1_iff, Upd.sto_iff]
    | split

theorem State.closeRun_upd (s : State) {W P : Nat} {r_ : State} (hm : (subMask 0x1000000000000000000000 W && subMask 0x2000 P) = true) (k_ : Upd W P r_ s) :
    Upd W P r_ (State.closeRun s) := by
  refine Upd.via (w := 0x1000000000000000000000) (p := 0x2000) ?_ hm k_
  clear hm k_
  unfold State.closeRun
  repeat' first
    | (with_reducible exact Upd.refl _)
    | with_reducible assumption
    | (extract_lets +onlyGivenNames z; refine Upd.cutU (z := z) ?_ (fun hz => ?_); subst z; rotate_left; clear_value z; all_goals have z := trivial)
    | (extract_lets +onlyGivenNames z; refine Upd.cutU (z := z.1) ?_ (fun hz => ?_); subst z; rotate_left; clear_value z; all_goals have z := trivial)
    | (extract_lets +onlyGivenNames z; clear_value z; have z := trivial)
    | (with_reducible apply Upd.ite)
    | (with_reducible apply Upd.set; decide)
    | (with_reducible apply State.stage_upd; decide)
    | (with_reducible apply Upd.fst; assumption)
    | simp (disch := decide) only [Upd.mk1_iff, Upd.sto_iff]
    | split

theorem State.missCopies_upd (s : State) (n : Nat) {W P : Nat} {r_ : State} (hm : (subMask 0x1000000000000000000001 W && subMask 0x100002 P) = true) (k_ : Upd W P r_ s) :
    Upd W P r_ (State.missCopies s n) := by
  refine Upd.via (w := 0x1000000000000000000001) (p := 0x100002) ?_ hm k_
  clear hm k_
  unfold State.missCopies
  repeat' first
    | (with_reducible exact Upd.refl _)
    | with_reducible assumption
    | (extract_lets +onlyGivenNames z; refine Upd.cutU (z := z) ?_ (fun hz => ?_); subst z; rotate_left; clear_value z; all_goals have z := trivial)
    | (extract_lets +onlyGivenNames z; refine Upd.cutU (z := z.1) ?_ (fun hz => ?_); subst z; rotate_left; clear_value z; all_goals have z := trivial)
    | (extract_lets +onlyGivenNames z; clear_value z; have z := trivial)
    | (with_reducible apply Upd.ite)
    | (with_reducible apply Upd.add; decide)
    | (with_reducible apply State.stoEvent_upd; decide)
    | (with_reducible apply Upd.fst; assumption)
    | simp (disch := decide) only [Upd.mk1_iff, Upd.out_iff]
    | split

theorem State.recorderCopy_upd (s : State) (k : Nat) (job : Nat) (tag : List Nat) (cand : List Nat) (patch : List Nat) {W P : Nat} {r_ : State} (hm : (subMask 0x1000000000000000000001 W && subMask 0x102002 P) = true) (k_ : Upd W P r_ s) :
    Upd W P r_ (State.recorderCopy s k job tag cand patch) := by
  refine Upd.via (w := 0x1000000000000000000001) (p := 0x102002) ?_ hm k_
  clear hm k_
  unfold State.recorderCopy
  repeat' first
    | (with_reducible exact Upd.refl _)
    | with_reducible assumption
    | (extract_lets +onlyGivenNames z; refine Upd.cutU (z := z) ?_ (fun hz => ?_); subst z; rotate_left; clear_value z; all_goals have z := trivial)
    | (extract_lets +onlyGivenNames z; refine Upd.cutU (z := z.1) ?_ (fun hz => ?_); subst z; rotate_left; clear_value z; all_goals have z := trivial)
    | (extract_lets +onlyGivenNames z; clear_value z; have z := trivial)
    | (with_reducible apply Upd.ite)
    | (with_reducible apply State.closeRun_upd; decide)
    | (with_reducible apply State.missCopies_upd; decide)
    | (with_reducible apply State.stage_upd; decide)
    | (with_reducible apply Upd.fst; assumption)
    | simp (disch := decide) only [Upd.mk1_iff, Upd.sto_iff, Upd.out_iff]
    | split

theorem State.dropSeg_upd (s : State) (seg : Nat) {W P : Nat} {r_ : State} (hm : (subMask 0x1000000000000000000001 W && subMask 0x102002 P) = true) (k_ : Upd W P r_ s) :
    Upd W P r_ (State.dropSeg s seg) := by
  refine Upd.via (w := 0x1000000000000000000001) (p := 0x102002) ?_ hm k_
  clear hm k_
  unfold State.dropSeg
  repeat' first
    | (with_reducible exact Upd.refl _)
    | with_reducible assumption
    | (extract_lets +onlyGivenNames z; refine Upd.cutU (z := z) ?_ (fun hz => ?_); subst z; rotate_left; clear_value z; all_goals have z := trivial)
    | (extract_lets +onlyGivenNames z; refine Upd.cutU (z := z.1) ?_ (fun hz => ?_); subst z; rotate_left; clear_value z; all_goals have z := trivial)
    | (extract_lets +onlyGivenNames z; clear_value z; have z := trivial)
    | (with_reducible apply Upd.ite)
    | (with_reducible apply State.freeSeg_upd; decide)
    | (with_reducible apply Upd.fst; assumption)
    | simp (disch := decide) only [Upd.mk1_iff, Upd.sto_iff, Upd.out_iff]
    | split

theorem State.takeLib_upd' (s : State) (x0 : Nat) {W P : Nat} {r_ : State} {t : State} {l : List Nat}
    (h : State.takeLib s x0 = some (t, l)) (hm : (subMask 0x1000000000000000000000 W && subMask 0x2000 P) = true)
    (k_ : Upd W P r_ s) : Upd W P r_ t := State.takeLib_upd s x0 h hm k_

theorem State.openSeg_upd (s : State) {W P : Nat} {r_ : State} {t : _} (h : State.openSeg s = some t) (hm : (subMask 0x1000000000000000000001 W && subMask 0x102002 P) = true) (k_ : Upd W P r_ s) :
    Upd W P r_ t := by
  refine Upd.via (w := 0x1000000000000000000001) (p := 0x102002) ?_ hm k_
  clear hm k_
  unfold State.openSeg at h
  dsimp only at h
  revert h
  split
  · intro h; cases h
  · next u heq =>
    have hu : Upd 0x1000000000000000000001 0x102002 s u := by
      split at heq
      · cases heq; exact Upd.refl s
      · split at heq
        · cases heq; exact State.dropSeg_upd _ _ (by decide) (Upd.refl s)
        · cases heq
    split
    · intro h; cases h
    · intro h
      obtain ⟨v, hv, rfl⟩ := Option.map_eq_some_iff.mp h
      exact Upd.sto_ (by decide) (State.takeBlk_upd _ _ _ hv (by decide) (Upd.set (by decide) (Upd.set (by decide) hu)))

theorem State.putEntry_upd (s : State) (e : RecEntry) {W P : Nat} {r_ : State} (hm : (subMask 0x1000000000000000000001 W && subMask 0x102002 P) = true) (k_ : Upd W P r_ s) :
    Upd W P r_ (State.putEntry s e) := by
  refine Upd.via (w := 0x1000000000000000000001) (p := 0x102002) ?_ hm k_
  clear hm k_
  unfold State.putEntry
  repeat' first
    | (with_reducible exact Upd.refl _)
    | with_reducible assumption
    | (extract_lets +onlyGivenNames z; refine Upd.cutU (z := z) ?_ (fun hz => ?_); subst z; rotate_left; clear_value z; all_goals have z := trivial)
    | (extract_lets +onlyGivenNames z; refine Upd.cutU (z := z.1) ?_ (fun hz => ?_); subst z; rotate_left; clear_value z; all_goals have z := trivial)
    | (extract_lets +onlyGivenNames z; clear_value z; have z := trivial)
    | (with_reducible apply Upd.ite)
    | (with_reducible apply Upd.add; decide)
    | (with_reducible apply Upd.inc; decide)
    | (with_reducible apply State.stoEvent_upd; decide)
    | (with_reducible apply Upd.fst; assumption)
    | simp (disch := decide) only [Upd.mk1_iff, Upd.sto_iff, Upd.out_iff]
    | split

theorem State.programStaged_upd (s : State) (x0 : Nat) {W P : Nat} {r_ : State} (hm : (subMask 0x1000000000000000000001 W && subMask 0x102002 P) = true) (k_ : Upd W P r_ s) :
    Upd W P r_ (State.programStaged s x0) := by
  refine Upd.via (w := 0x1000000000000000000001) (p := 0x102002) ?_ hm k_
  clear hm k_
  induction x0 generalizing s with
  | zero =>
    unfold State.programStaged
    repeat' first
      | (with_reducible exact Upd.refl _)
      | with_reducible assumption
      | (extract_lets +onlyGivenNames z; refine Upd.cutU (z := z) ?_ (fun hz => ?_); subst z; rotate_left; clear_value z; all_goals have z := trivial)
      | (extract_lets +onlyGivenNames z; refine Upd.cutU (z := z.1) ?_ (fun hz => ?_); subst z; rotate_left; clear_value z; all_goals have z := trivial)
      | (extract_lets +onlyGivenNames z; clear_value z; have z := trivial)
      | (with_reducible apply Upd.ite)
      | (with_reducible apply State.openSeg_upd; assumption; decide)
      | (with_reducible apply State.putEntry_upd; decide)
      | (with_reducible apply Upd.set; decide)
      | (with_reducible apply Upd.fst; assumption)
      | simp (disch := decide) only [Upd.mk1_iff, Upd.sto_iff, Upd.out_iff]
      | split
  | succ n ih =>
    unfold State.programStaged
    repeat' first
      | (with_reducible exact Upd.refl _)
      | with_reducible assumption
      | (extract_lets +onlyGivenNames z; refine Upd.cutU (z := z) ?_ (fun hz => ?_); subst z; rotate_left; clear_value z; all_goals have z := trivial)
      | (extract_lets +onlyGivenNames z; refine Upd.cutU (z := z.1) ?_ (fun hz => ?_); subst z; rotate_left; clear_value z; all_goals have z := trivial)
      | (extract_lets +onlyGivenNames z; clear_value z; have z := trivial)
      | (with_reducible refine Upd.trans ?_ (ih ..))
      | (with_reducible apply Upd.ite)
      | (with_reducible apply State.openSeg_upd; assumption; decide)
      | (with_reducible apply State.putEntry_upd; decide)
      | (with_reducible apply Upd.set; decide)
      | (with_reducible apply Upd.fst; assumption)
      | simp (disch := decide) only [Upd.mk1_iff, Upd.sto_iff, Upd.out_iff]
      | split

theorem State.closeSeg_upd (s : State) {W P : Nat} {r_ : State} (hm : (subMask 0x1000000000000000000000 W && subMask 0x0 P) = true) (k_ : Upd W P r_ s) :
    Upd W P r_ (State.closeSeg s) := by
  refine Upd.via (w := 0x1000000000000000000000) (p := 0x0) ?_ hm k_
  clear hm k_
  unfold State.closeSeg
  repeat' first
    | (with_reducible exact Upd.refl _)
    | with_reducible assumption
    | (extract_lets +onlyGivenNames z; refine Upd.cutU (z := z) ?_ (fun hz => ?_); subst z; rotate_left; clear_value z; all_goals have z := trivial)
    | (extract_lets +onlyGivenNames z; refine Upd.cutU (z := z.1) ?_ (fun hz => ?_); subst z; rotate_left; clear_value z; all_goals have z := trivial)
    | (extract_lets +onlyGivenNames z; clear_value z; have z := trivial)
    | (with_reducible apply Upd.ite)
    | (with_reducible apply Upd.set; decide)
    | (with_reducible apply Upd.fst; assumption)
    | simp (disch := decide) only [Upd.mk1_iff]
    | split

theorem State.keepSetting_upd (s : State) (addr : Nat) (v : Nat) {W P : Nat} {r_ : State} (hm : (subMask 0x0 W && subMask 0x2000 P) = true) (k_ : Upd W P r_ s) :
    Upd W P r_ (State.keepSetting s addr v) := by
  refine Upd.via (w := 0x0) (p := 0x2000) ?_ hm k_
  clear hm k_
  unfold State.keepSetting
  repeat' first
    | (with_reducible exact Upd.refl _)
    | with_reducible assumption
    | (extract_lets +onlyGivenNames z; refine Upd.cutU (z := z) ?_ (fun hz => ?_); subst z; rotate_left; clear_value z; all_goals have z := trivial)
    | (extract_lets +onlyGivenNames z; refine Upd.cutU (z := z.1) ?_ (fun hz => ?_); subst z; rotate_left; clear_value z; all_goals have z := trivial)
    | (extract_lets +onlyGivenNames z; clear_value z; have z := trivial)
    | (with_reducible apply Upd.ite)
    | (with_reducible apply Upd.fst; assumption)
    | simp (disch := decide) only [Upd.mk1_iff, Upd.sto_iff]
    | split

end Sys2Proof.Machine
end

