-- ==== Sys2Proof/Laws/UpdRef.lean ====
section
/-! SUPPORT. What each operation of Machine/Ref.lean may change (see Laws/Upd.lean). -/

set_option linter.unusedSimpArgs false
set_option linter.tactic.unusedName false

namespace Sys2Proof.Machine

theorem State.slotLoad_upd (s : State) (sl : Nat) {W P : Nat} {r_ : State} (hm : (subMask 0x10000000000000 W && subMask 0x0 P) = true) (k_ : Upd W P r_ s) :
    Upd W P r_ (State.slotLoad s sl).1 := by
  refine Upd.via (w := 0x10000000000000) (p := 0x0) ?_ hm k_
  clear hm k_
  unfold State.slotLoad
  repeat' first
    | (with_reducible exact Upd.refl _)
    | with_reducible assumption
    | (extract_lets +onlyGivenNames z; refine Upd.cutU (z := z) ?_ (fun hz => ?_); subst z; rotate_left; clear_value z; all_goals have z := trivial)
    | (extract_lets +onlyGivenNames z; refine Upd.cutU (z := z.1) ?_ (fun hz => ?_); subst z; rotate_left; clear_value z; all_goals have z := trivial)
    | (extract_lets +onlyGivenNames z; clear_value z; have z := trivial)
    | (with_reducible apply Upd.ite)
    | (with_reducible apply Upd.iteFst)
    | (with_reducible apply Upd.set; decide)
    | (with_reducible apply Upd.fst; assumption)
    | simp (disch := decide) only [Upd.mk1_iff]
    | split

theorem execSlotLoad_upd (sl : Nat) (src : Src) (s : State) {W P : Nat} (hm : (subMask 0x100010000000000001 W && subMask 0x140c03 P) = true) :
    NextUpd W P s (execSlotLoad sl src s) := by
  refine NextUpd.mono (w := 0x100010000000000001) (p := 0x140c03) ?_ hm
  unfold execSlotLoad
  repeat' first
    | (with_reducible exact Upd.refl _)
    | with_reducible assumption
    | (extract_lets +onlyGivenNames z; refine Upd.cutU (z := z) ?_ (fun hz => ?_); subst z; rotate_left; clear_value z; all_goals have z := trivial)
    | (extract_lets +onlyGivenNames z; refine Upd.cutU (z := z.1) ?_ (fun hz => ?_); subst z; rotate_left; clear_value z; all_goals have z := trivial)
    | (extract_lets +onlyGivenNames z; refine NextUpd.cutU (z := z) ?_ (fun hz => ?_); subst z; rotate_left; clear_value z; all_goals have z := trivial)
    | (extract_lets +onlyGivenNames z; refine NextUpd.cutU (z := z.1) ?_ (fun hz => ?_); subst z; rotate_left; clear_value z; all_goals have z := trivial)
    | (extract_lets +onlyGivenNames z; clear_value z; have z := trivial)
    | (with_reducible apply NextUpd.next)
    | (with_reducible apply NextUpd.ite)
    | (with_reducible apply Upd.ite)
    | (with_reducible apply State.answer_upd; decide)
    | (with_reducible apply State.slotLoad_upd; decide)
    | (with_reducible apply Upd.fst; assumption)
    | simp (disch := first | decide | rfl | (apply And.intro <;> first | decide | rfl | (apply And.intro <;> rfl))) only [Upd.mk1_iff, Upd.egr_iff, Upd.brg_iff, Upd.mgt_iff, Upd.out_iff]
    | split

theorem State.slotDone_upd (s : State) (sl : Nat) (src : Src) {W P : Nat} {r_ : State} (hm : (subMask 0x10000000000000 W && subMask 0x100 P) = true) (k_ : Upd W P r_ s) :
    Upd W P r_ (State.slotDone s sl src).1 := by
  refine Upd.via (w := 0x10000000000000) (p := 0x100) ?_ hm k_
  clear hm k_
  unfold State.slotDone
  repeat' first
    | (with_reducible exact Upd.refl _)
    | with_reducible assumption
    | (extract_lets +onlyGivenNames z; refine Upd.cutU (z := z) ?_ (fun hz => ?_); subst z; rotate_left; clear_value z; all_goals have z := trivial)
    | (extract_lets +onlyGivenNames z; refine Upd.cutU (z := z.1) ?_ (fun hz => ?_); subst z; rotate_left; clear_value z; all_goals have z := trivial)
    | (extract_lets +onlyGivenNames z; clear_value z; have z := trivial)
    | (with_reducible apply Upd.ite)
    | (with_reducible apply Upd.iteFst)
    | (with_reducible apply Upd.set; decide)
    | (with_reducible apply Upd.fst; assumption)
    | simp (disch := decide) only [Upd.mk1_iff, Upd.ref_iff]
    | split

theorem execSlotDone_upd (sl : Nat) (src : Src) (s : State) {W P : Nat} (hm : (subMask 0x100010000000000001 W && subMask 0x140d03 P) = true) :
    NextUpd W P s (execSlotDone sl src s) := by
  refine NextUpd.mono (w := 0x100010000000000001) (p := 0x140d03) ?_ hm
  unfold execSlotDone
  repeat' first
    | (with_reducible exact Upd.refl _)
    | with_reducible assumption
    | (extract_lets +onlyGivenNames z; refine Upd.cutU (z := z) ?_ (fun hz => ?_); subst z; rotate_left; clear_value z; all_goals have z := trivial)
    | (extract_lets +onlyGivenNames z; refine Upd.cutU (z := z.1) ?_ (fun hz => ?_); subst z; rotate_left; clear_value z; all_goals have z := trivial)
    | (extract_lets +onlyGivenNames z; refine NextUpd.cutU (z := z) ?_ (fun hz => ?_); subst z; rotate_left; clear_value z; all_goals have z := trivial)
    | (extract_lets +onlyGivenNames z; refine NextUpd.cutU (z := z.1) ?_ (fun hz => ?_); subst z; rotate_left; clear_value z; all_goals have z := trivial)
    | (extract_lets +onlyGivenNames z; clear_value z; have z := trivial)
    | (with_reducible apply NextUpd.next)
    | (with_reducible apply NextUpd.ite)
    | (with_reducible apply Upd.ite)
    | (with_reducible apply State.answer_upd; decide)
    | (with_reducible apply State.slotDone_upd; decide)
    | (with_reducible apply Upd.fst; assumption)
    | simp (disch := first | decide | rfl | (apply And.intro <;> first | decide | rfl | (apply And.intro <;> rfl))) only [Upd.mk1_iff, Upd.ref_iff, Upd.egr_iff, Upd.brg_iff, Upd.mgt_iff, Upd.out_iff]
    | split

theorem execSlotCheckDone_upd (sl : Nat) (s : State) {W P : Nat} (hm : (subMask 0x100010000000000001 W && subMask 0x140d03 P) = true) :
    NextUpd W P s (execSlotCheckDone sl s) := by
  refine NextUpd.mono (w := 0x100010000000000001) (p := 0x140d03) ?_ hm
  unfold execSlotCheckDone
  repeat' first
    | (with_reducible exact Upd.refl _)
    | with_reducible assumption
    | (extract_lets +onlyGivenNames z; refine Upd.cutU (z := z) ?_ (fun hz => ?_); subst z; rotate_left; clear_value z; all_goals have z := trivial)
    | (extract_lets +onlyGivenNames z; refine Upd.cutU (z := z.1) ?_ (fun hz => ?_); subst z; rotate_left; clear_value z; all_goals have z := trivial)
    | (extract_lets +onlyGivenNames z; refine NextUpd.cutU (z := z) ?_ (fun hz => ?_); subst z; rotate_left; clear_value z; all_goals have z := trivial)
    | (extract_lets +onlyGivenNames z; refine NextUpd.cutU (z := z.1) ?_ (fun hz => ?_); subst z; rotate_left; clear_value z; all_goals have z := trivial)
    | (extract_lets +onlyGivenNames z; clear_value z; have z := trivial)
    | (with_reducible apply NextUpd.next)
    | (with_reducible apply NextUpd.ite)
    | (with_reducible apply Upd.ite)
    | (with_reducible apply State.answer_upd; decide)
    | (with_reducible apply Upd.set; decide)
    | (with_reducible apply Upd.fst; assumption)
    | simp (disch := first | decide | rfl | (apply And.intro <;> first | decide | rfl | (apply And.intro <;> rfl))) only [Upd.mk1_iff, Upd.ref_iff, Upd.egr_iff, Upd.brg_iff, Upd.mgt_iff, Upd.out_iff]
    | split

theorem State.slotClear_upd (s : State) (sl : Nat) (src : Src) {W P : Nat} {r_ : State} (hm : (subMask 0x100010000000000001 W && subMask 0x140d03 P) = true) (k_ : Upd W P r_ s) :
    Upd W P r_ (State.slotClear s sl src).1 := by
  refine Upd.via (w := 0x100010000000000001) (p := 0x140d03) ?_ hm k_
  clear hm k_
  unfold State.slotClear
  repeat' first
    | (with_reducible exact Upd.refl _)
    | with_reducible assumption
    | (extract_lets +onlyGivenNames z; refine Upd.cutU (z := z) ?_ (fun hz => ?_); subst z; rotate_left; clear_value z; all_goals have z := trivial)
    | (extract_lets +onlyGivenNames z; refine Upd.cutU (z := z.1) ?_ (fun hz => ?_); subst z; rotate_left; clear_value z; all_goals have z := trivial)
    | (extract_lets +onlyGivenNames z; clear_value z; have z := trivial)
    | (with_reducible apply Upd.ite)
    | (with_reducible apply Upd.iteFst)
    | (with_reducible apply State.answer_upd; decide)
    | (with_reducible apply Upd.set; decide)
    | (with_reducible apply Upd.fst; assumption)
    | simp (disch := first | decide | rfl | (apply And.intro <;> first | decide | rfl | (apply And.intro <;> rfl))) only [Upd.mk1_iff, Upd.ref_iff, Upd.egr_iff, Upd.brg_iff, Upd.mgt_iff, Upd.out_iff]
    | split

theorem execSlotClear_upd (sl : Nat) (src : Src) (s : State) {W P : Nat} (hm : (subMask 0x100010000000000001 W && subMask 0x140d03 P) = true) :
    NextUpd W P s (execSlotClear sl src s) := by
  refine NextUpd.mono (w := 0x100010000000000001) (p := 0x140d03) ?_ hm
  unfold execSlotClear
  repeat' first
    | (with_reducible exact Upd.refl _)
    | with_reducible assumption
    | (extract_lets +onlyGivenNames z; refine Upd.cutU (z := z) ?_ (fun hz => ?_); subst z; rotate_left; clear_value z; all_goals have z := trivial)
    | (extract_lets +onlyGivenNames z; refine Upd.cutU (z := z.1) ?_ (fun hz => ?_); subst z; rotate_left; clear_value z; all_goals have z := trivial)
    | (extract_lets +onlyGivenNames z; refine NextUpd.cutU (z := z) ?_ (fun hz => ?_); subst z; rotate_left; clear_value z; all_goals have z := trivial)
    | (extract_lets +onlyGivenNames z; refine NextUpd.cutU (z := z.1) ?_ (fun hz => ?_); subst z; rotate_left; clear_value z; all_goals have z := trivial)
    | (extract_lets +onlyGivenNames z; clear_value z; have z := trivial)
    | (with_reducible apply NextUpd.next)
    | (with_reducible apply NextUpd.ite)
    | (with_reducible apply Upd.ite)
    | (with_reducible apply State.answer_upd; decide)
    | (with_reducible apply State.slotClear_upd; decide)
    | (with_reducible apply Upd.fst; assumption)
    | simp (disch := first | decide | rfl | (apply And.intro <;> first | decide | rfl | (apply And.intro <;> rfl))) only [Upd.mk1_iff, Upd.ref_iff, Upd.egr_iff, Upd.brg_iff, Upd.mgt_iff, Upd.out_iff]
    | split

theorem State.cmpStore_upd (s : State) (addr : Nat) (data : List Nat) (src : Src) {W P : Nat} {r_ : State} (hm : (subMask 0x0 W && subMask 0x1 P) = true) (k_ : Upd W P r_ s) :
    Upd W P r_ (State.cmpStore s addr data src).1 := by
  refine Upd.via (w := 0x0) (p := 0x1) ?_ hm k_
  clear hm k_
  unfold State.cmpStore
  repeat' first
    | (with_reducible exact Upd.refl _)
    | with_reducible assumption
    | (extract_lets +onlyGivenNames z; refine Upd.cutU (z := z) ?_ (fun hz => ?_); subst z; rotate_left; clear_value z; all_goals have z := trivial)
    | (extract_lets +onlyGivenNames z; refine Upd.cutU (z := z.1) ?_ (fun hz => ?_); subst z; rotate_left; clear_value z; all_goals have z := trivial)
    | (extract_lets +onlyGivenNames z; clear_value z; have z := trivial)
    | (with_reducible apply Upd.ite)
    | (with_reducible apply Upd.iteFst)
    | (with_reducible apply State.putBytes_upd; decide)
    | (with_reducible apply Upd.fst; assumption)
    | simp (disch := decide) only [Upd.mk1_iff]
    | split

theorem execCmpWindowWrite_upd (addr : Nat) (data : List Nat) (src : Src) (s : State) {W P : Nat} (hm : (subMask 0x100000000000000001 W && subMask 0x140c03 P) = true) :
    NextUpd W P s (execCmpWindowWrite addr data src s) := by
  refine NextUpd.mono (w := 0x100000000000000001) (p := 0x140c03) ?_ hm
  unfold execCmpWindowWrite
  repeat' first
    | (with_reducible exact Upd.refl _)
    | with_reducible assumption
    | (extract_lets +onlyGivenNames z; refine Upd.cutU (z := z) ?_ (fun hz => ?_); subst z; rotate_left; clear_value z; all_goals have z := trivial)
    | (extract_lets +onlyGivenNames z; refine Upd.cutU (z := z.1) ?_ (fun hz => ?_); subst z; rotate_left; clear_value z; all_goals have z := trivial)
    | (extract_lets +onlyGivenNames z; refine NextUpd.cutU (z := z) ?_ (fun hz => ?_); subst z; rotate_left; clear_value z; all_goals have z := trivial)
    | (extract_lets +onlyGivenNames z; refine NextUpd.cutU (z := z.1) ?_ (fun hz => ?_); subst z; rotate_left; clear_value z; all_goals have z := trivial)
    | (extract_lets +onlyGivenNames z; clear_value z; have z := trivial)
    | (with_reducible apply NextUpd.next)
    | (with_reducible apply NextUpd.ite)
    | (with_reducible apply Upd.ite)
    | (with_reducible apply State.answer_upd; decide)
    | (with_reducible apply State.cmpStore_upd; decide)
    | (with_reducible apply Upd.fst; assumption)
    | simp (disch := first | decide | rfl | (apply And.intro <;> first | decide | rfl | (apply And.intro <;> rfl))) only [Upd.mk1_iff, Upd.egr_iff, Upd.brg_iff, Upd.mgt_iff, Upd.out_iff]
    | split

theorem effRefGo_upd (k : Nat) (mode : Nat) (src : Src) (s : State) {W P : Nat} {r_ : State} (hm : (subMask 0x100010000000000001 W && subMask 0x140c03 P) = true) (k_ : Upd W P r_ s) :
    Upd W P r_ (effRefGo k mode src s) := by
  refine Upd.via (w := 0x100010000000000001) (p := 0x140c03) ?_ hm k_
  clear hm k_
  unfold effRefGo
  repeat' first
    | (with_reducible exact Upd.refl _)
    | with_reducible assumption
    | (extract_lets +onlyGivenNames z; refine Upd.cutU (z := z) ?_ (fun hz => ?_); subst z; rotate_left; clear_value z; all_goals have z := trivial)
    | (extract_lets +onlyGivenNames z; refine Upd.cutU (z := z.1) ?_ (fun hz => ?_); subst z; rotate_left; clear_value z; all_goals have z := trivial)
    | (extract_lets +onlyGivenNames z; clear_value z; have z := trivial)
    | (with_reducible apply Upd.ite)
    | (with_reducible apply State.answer_upd; decide)
    | (with_reducible apply Upd.set; decide)
    | (with_reducible apply Upd.fst; assumption)
    | simp (disch := first | decide | rfl | (apply And.intro <;> first | decide | rfl | (apply And.intro <;> rfl))) only [Upd.mk1_iff, Upd.egr_iff, Upd.brg_iff, Upd.mgt_iff, Upd.out_iff]
    | split

theorem execRefGo_upd (k : Nat) (mode : Nat) (src : Src) (s : State) {W P : Nat} (hm : (subMask 0x100010000000000003 W && subMask 0x1c0c03 P) = true) :
    NextUpd W P s (execRefGo k mode src s) := by
  refine NextUpd.mono (w := 0x100010000000000003) (p := 0x1c0c03) ?_ hm
  unfold execRefGo
  repeat' first
    | (with_reducible exact Upd.refl _)
    | with_reducible assumption
    | (extract_lets +onlyGivenNames z; refine Upd.cutU (z := z) ?_ (fun hz => ?_); subst z; rotate_left; clear_value z; all_goals have z := trivial)
    | (extract_lets +onlyGivenNames z; refine Upd.cutU (z := z.1) ?_ (fun hz => ?_); subst z; rotate_left; clear_value z; all_goals have z := trivial)
    | (extract_lets +onlyGivenNames z; refine NextUpd.cutU (z := z) ?_ (fun hz => ?_); subst z; rotate_left; clear_value z; all_goals have z := trivial)
    | (extract_lets +onlyGivenNames z; refine NextUpd.cutU (z := z.1) ?_ (fun hz => ?_); subst z; rotate_left; clear_value z; all_goals have z := trivial)
    | (extract_lets +onlyGivenNames z; clear_value z; have z := trivial)
    | (with_reducible apply NextUpd.next)
    | (with_reducible apply NextUpd.ite)
    | (with_reducible apply Upd.ite)
    | (with_reducible apply State.answer_upd; decide)
    | (with_reducible apply State.recorded_upd; decide; intro _)
    | (with_reducible apply effRefGo_upd; decide)
    | (with_reducible apply Upd.fst; assumption)
    | simp (disch := first | decide | rfl | (apply And.intro <;> first | decide | rfl | (apply And.intro <;> rfl))) only [Upd.mk1_iff, Upd.egr_iff, Upd.brg_iff, Upd.mgt_iff, Upd.sec_iff, Upd.out_iff]
    | split

theorem effRefCancel_upd (k : Nat) (src : Src) (s : State) {W P : Nat} {r_ : State} (hm : (subMask 0x100010000000000001 W && subMask 0x140c03 P) = true) (k_ : Upd W P r_ s) :
    Upd W P r_ (effRefCancel k src s) := by
  refine Upd.via (w := 0x100010000000000001) (p := 0x140c03) ?_ hm k_
  clear hm k_
  unfold effRefCancel
  repeat' first
    | (with_reducible exact Upd.refl _)
    | with_reducible assumption
    | (extract_lets +onlyGivenNames z; refine Upd.cutU (z := z) ?_ (fun hz => ?_); subst z; rotate_left; clear_value z; all_goals have z := trivial)
    | (extract_lets +onlyGivenNames z; refine Upd.cutU (z := z.1) ?_ (fun hz => ?_); subst z; rotate_left; clear_value z; all_goals have z := trivial)
    | (extract_lets +onlyGivenNames z; clear_value z; have z := trivial)
    | (with_reducible apply Upd.ite)
    | (with_reducible apply State.answer_upd; decide)
    | (with_reducible apply Upd.set; decide)
    | (with_reducible apply Upd.fst; assumption)
    | simp (disch := first | decide | rfl | (apply And.intro <;> first | decide | rfl | (apply And.intro <;> rfl))) only [Upd.mk1_iff, Upd.egr_iff, Upd.brg_iff, Upd.mgt_iff, Upd.out_iff]
    | split

theorem execRefCancel_upd (k : Nat) (src : Src) (s : State) {W P : Nat} (hm : (subMask 0x100010000000000003 W && subMask 0x1c0c03 P) = true) :
    NextUpd W P s (execRefCancel k src s) := by
  refine NextUpd.mono (w := 0x100010000000000003) (p := 0x1c0c03) ?_ hm
  unfold execRefCancel
  repeat' first
    | (with_reducible exact Upd.refl _)
    | with_reducible assumption
    | (extract_lets +onlyGivenNames z; refine Upd.cutU (z := z) ?_ (fun hz => ?_); subst z; rotate_left; clear_value z; all_goals have z := trivial)
    | (extract_lets +onlyGivenNames z; refine Upd.cutU (z := z.1) ?_ (fun hz => ?_); subst z; rotate_left; clear_value z; all_goals have z := trivial)
    | (extract_lets +onlyGivenNames z; refine NextUpd.cutU (z := z) ?_ (fun hz => ?_); subst z; rotate_left; clear_value z; all_goals have z := trivial)
    | (extract_lets +onlyGivenNames z; refine NextUpd.cutU (z := z.1) ?_ (fun hz => ?_); subst z; rotate_left; clear_value z; all_goals have z := trivial)
    | (extract_lets +onlyGivenNames z; clear_value z; have z := trivial)
    | (with_reducible apply NextUpd.next)
    | (with_reducible apply NextUpd.ite)
    | (with_reducible apply Upd.ite)
    | (with_reducible apply State.answer_upd; decide)
    | (with_reducible apply State.recorded_upd; decide; intro _)
    | (with_reducible apply effRefCancel_upd; decide)
    | (with_reducible apply Upd.fst; assumption)
    | simp (disch := first | decide | rfl | (apply And.intro <;> first | decide | rfl | (apply And.intro <;> rfl))) only [Upd.mk1_iff, Upd.egr_iff, Upd.brg_iff, Upd.mgt_iff, Upd.sec_iff, Upd.out_iff]
    | split

theorem State.refBegin_upd (s : State) (k : Nat) (seq : Nat) {W P : Nat} {r_ : State} (hm : (subMask 0x0 W && subMask 0x108 P) = true) (k_ : Upd W P r_ s) :
    Upd W P r_ (State.refBegin s k seq) := by
  refine Upd.via (w := 0x0) (p := 0x108) ?_ hm k_
  clear hm k_
  unfold State.refBegin
  repeat' first
    | (with_reducible exact Upd.refl _)
    | with_reducible assumption
    | (extract_lets +onlyGivenNames z; refine Upd.cutU (z := z) ?_ (fun hz => ?_); subst z; rotate_left; clear_value z; all_goals have z := trivial)
    | (extract_lets +onlyGivenNames z; refine Upd.cutU (z := z.1) ?_ (fun hz => ?_); subst z; rotate_left; clear_value z; all_goals have z := trivial)
    | (extract_lets +onlyGivenNames z; clear_value z; have z := trivial)
    | (with_reducible apply Upd.ite)
    | (with_reducible apply State.onRefFrame_upd; decide)
    | (with_reducible apply Upd.fst; assumption)
    | simp (disch := decide) only [Upd.mk1_iff, Upd.frames_iff, Upd.ref_iff]
    | split

theorem State.offerPlain_upd (s : State) (f : RefFrame) (st : Nat) (kind : Nat) (row : Nat) (col : Nat) (data : List Nat) {W P : Nat} {r_ : State} (hm : (subMask 0x0 W && subMask 0x400 P) = true) (k_ : Upd W P r_ s) :
    Upd W P r_ (State.offerPlain s f st kind row col data) := by
  refine Upd.via (w := 0x0) (p := 0x400) ?_ hm k_
  clear hm k_
  unfold State.offerPlain
  repeat' first
    | (with_reducible exact Upd.refl _)
    | with_reducible assumption
    | (extract_lets +onlyGivenNames z; refine Upd.cutU (z := z) ?_ (fun hz => ?_); subst z; rotate_left; clear_value z; all_goals have z := trivial)
    | (extract_lets +onlyGivenNames z; refine Upd.cutU (z := z.1) ?_ (fun hz => ?_); subst z; rotate_left; clear_value z; all_goals have z := trivial)
    | (extract_lets +onlyGivenNames z; clear_value z; have z := trivial)
    | (with_reducible apply Upd.ite)
    | (with_reducible apply State.offer_upd; decide)
    | (with_reducible apply Upd.fst; assumption)
    | simp (disch := decide) only [Upd.mk1_iff, Upd.egr_iff]
    | split

theorem State.emitCand_upd (s : State) (f : RefFrame) (b : Nat) (a : Nat) (t : Nat) (tile : RefTile) (px : List (List (List Nat))) (ok : List (List Bool)) (c : Compared) {W P : Nat} {r_ : State} (hm : (subMask 0x1000000110000000000001 W && subMask 0x10270a P) = true) (k_ : Upd W P r_ s) :
    Upd W P r_ (State.emitCand s f b a t tile px ok c).1 := by
  refine Upd.via (w := 0x1000000110000000000001) (p := 0x10270a) ?_ hm k_
  clear hm k_
  unfold State.emitCand
  repeat' first
    | (with_reducible exact Upd.refl _)
    | with_reducible assumption
    | (extract_lets +onlyGivenNames z; refine Upd.cutU (z := z) ?_ (fun hz => ?_); subst z; rotate_left; clear_value z; all_goals have z := trivial)
    | (extract_lets +onlyGivenNames z; refine Upd.cutU (z := z.1) ?_ (fun hz => ?_); subst z; rotate_left; clear_value z; all_goals have z := trivial)
    | (extract_lets +onlyGivenNames z; clear_value z; have z := trivial)
    | (with_reducible apply Upd.ite)
    | (with_reducible apply Upd.iteFst)
    | (with_reducible apply Upd.inc; decide)
    | (with_reducible apply State.offerPlain_upd; decide)
    | (with_reducible apply State.onRefFrame_upd; decide)
    | (with_reducible apply State.recorderCopy_upd; decide)
    | (with_reducible apply State.refEvent_upd; decide)
    | (with_reducible apply State.startProduct_upd; decide)
    | (with_reducible apply Upd.fst; assumption)
    | simp (disch := decide) only [Upd.mk1_iff, Upd.frames_iff, Upd.ref_iff, Upd.products_iff, Upd.egr_iff, Upd.sto_iff, Upd.out_iff]
    | split

theorem State.feedTile_upd (s : State) (f : RefFrame) (b : Nat) (t : RefTile) {W P : Nat} {r_ : State} (hm : (subMask 0x100000000000001 W && subMask 0x100602 P) = true) (k_ : Upd W P r_ s) :
    Upd W P r_ (State.feedTile s f b t).1 := by
  refine Upd.via (w := 0x100000000000001) (p := 0x100602) ?_ hm k_
  clear hm k_
  unfold State.feedTile
  repeat' first
    | (with_reducible exact Upd.refl _)
    | with_reducible assumption
    | (extract_lets +onlyGivenNames z; refine Upd.cutU (z := z) ?_ (fun hz => ?_); subst z; rotate_left; clear_value z; all_goals have z := trivial)
    | (extract_lets +onlyGivenNames z; refine Upd.cutU (z := z.1) ?_ (fun hz => ?_); subst z; rotate_left; clear_value z; all_goals have z := trivial)
    | (extract_lets +onlyGivenNames z; have _t : State → _ := z; clear _t; subst z; have z := trivial)
    | (extract_lets +onlyGivenNames z; have _t : _ → State := z; clear _t; subst z; have z := trivial)
    | (extract_lets +onlyGivenNames z; have _t : _ → _ → State := z; clear _t; subst z; have z := trivial)
    | (extract_lets +onlyGivenNames z; clear_value z; have z := trivial)
    | (with_reducible apply Upd.ite)
    | (with_reducible apply Upd.iteFst)
    | (with_reducible apply State.feedProduct_upd; decide)
    | (with_reducible apply State.startProduct_upd; decide)
    | (with_reducible apply Upd.fst; assumption)
    | simp (disch := decide) only [Upd.mk1_iff, Upd.products_iff, Upd.egr_iff, Upd.out_iff]
    | split

theorem State.tileDone_upd (s : State) (f : RefFrame) (b : Nat) (t : RefTile) {W P : Nat} {r_ : State} (hm : (subMask 0x0 W && subMask 0x500 P) = true) (k_ : Upd W P r_ s) :
    Upd W P r_ (State.tileDone s f b t) := by
  refine Upd.via (w := 0x0) (p := 0x500) ?_ hm k_
  clear hm k_
  unfold State.tileDone
  repeat' first
    | (with_reducible exact Upd.refl _)
    | with_reducible assumption
    | (extract_lets +onlyGivenNames z; refine Upd.cutU (z := z) ?_ (fun hz => ?_); subst z; rotate_left; clear_value z; all_goals have z := trivial)
    | (extract_lets +onlyGivenNames z; refine Upd.cutU (z := z.1) ?_ (fun hz => ?_); subst z; rotate_left; clear_value z; all_goals have z := trivial)
    | (extract_lets +onlyGivenNames z; clear_value z; have z := trivial)
    | (with_reducible apply Upd.ite)
    | (with_reducible apply State.offerPlain_upd; decide)
    | (with_reducible apply Upd.fst; assumption)
    | simp (disch := decide) only [Upd.mk1_iff, Upd.ref_iff, Upd.egr_iff]
    | split

theorem State.refFinish_upd (s : State) (k : Nat) (seq : Nat) {W P : Nat} {r_ : State} (hm : (subMask 0x10000000000000 W && subMask 0x508 P) = true) (k_ : Upd W P r_ s) :
    Upd W P r_ (State.refFinish s k seq) := by
  refine Upd.via (w := 0x10000000000000) (p := 0x508) ?_ hm k_
  clear hm k_
  unfold State.refFinish
  repeat' first
    | (with_reducible exact Upd.refl _)
    | with_reducible assumption
    | (extract_lets +onlyGivenNames z; refine Upd.cutU (z := z) ?_ (fun hz => ?_); subst z; rotate_left; clear_value z; all_goals have z := trivial)
    | (extract_lets +onlyGivenNames z; refine Upd.cutU (z := z.1) ?_ (fun hz => ?_); subst z; rotate_left; clear_value z; all_goals have z := trivial)
    | (extract_lets +onlyGivenNames z; have _t : State → _ := z; clear _t; subst z; have z := trivial)
    | (extract_lets +onlyGivenNames z; have _t : _ → State := z; clear _t; subst z; have z := trivial)
    | (extract_lets +onlyGivenNames z; have _t : _ → _ → State := z; clear _t; subst z; have z := trivial)
    | (extract_lets +onlyGivenNames z; clear_value z; have z := trivial)
    | (with_reducible apply Upd.ite)
    | (with_reducible apply State.eofCheck_upd; decide)
    | (with_reducible apply State.refEnd_upd; decide)
    | (with_reducible apply Upd.set; decide)
    | (with_reducible apply Upd.fst; assumption)
    | simp (disch := decide) only [Upd.mk1_iff, Upd.frames_iff, Upd.ref_iff, Upd.egr_iff]
    | split

theorem State.partDone_upd (s : State) (f : RefFrame) (b : Nat) (t : RefTile) (p : RefPart) {W P : Nat} {r_ : State} (hm : (subMask 0x110000000000001 W && subMask 0x10070a P) = true) (k_ : Upd W P r_ s) :
    Upd W P r_ (State.partDone s f b t p) := by
  refine Upd.via (w := 0x110000000000001) (p := 0x10070a) ?_ hm k_
  clear hm k_
  unfold State.partDone
  repeat' first
    | (with_reducible exact Upd.refl _)
    | with_reducible assumption
    | (extract_lets +onlyGivenNames z; refine Upd.cutU (z := z) ?_ (fun hz => ?_); subst z; rotate_left; clear_value z; all_goals have z := trivial)
    | (extract_lets +onlyGivenNames z; refine Upd.cutU (z := z.1) ?_ (fun hz => ?_); subst z; rotate_left; clear_value z; all_goals have z := trivial)
    | (extract_lets +onlyGivenNames z; clear_value z; have z := trivial)
    | (with_reducible apply Upd.ite)
    | (with_reducible apply State.feedTile_upd; decide)
    | (with_reducible apply State.onRefFrame_upd; decide)
    | (with_reducible apply State.refFinish_upd; decide)
    | (with_reducible apply State.tileDone_upd; decide)
    | (with_reducible apply Upd.fst; assumption)
    | simp (disch := decide) only [Upd.mk1_iff, Upd.frames_iff, Upd.ref_iff, Upd.products_iff, Upd.egr_iff, Upd.out_iff]
    | split

theorem State.lostPart_upd (s : State) (f : RefFrame) (b : Nat) (u : RefTile) (i : Nat) {W P : Nat} {r_ : State} (hm : (subMask 0x110000000000001 W && subMask 0x10070a P) = true) (k_ : Upd W P r_ s) :
    Upd W P r_ (State.lostPart s f b u i) := by
  refine Upd.via (w := 0x110000000000001) (p := 0x10070a) ?_ hm k_
  clear hm k_
  unfold State.lostPart
  repeat' first
    | (with_reducible exact Upd.refl _)
    | with_reducible assumption
    | (extract_lets +onlyGivenNames z; refine Upd.cutU (z := z) ?_ (fun hz => ?_); subst z; rotate_left; clear_value z; all_goals have z := trivial)
    | (extract_lets +onlyGivenNames z; refine Upd.cutU (z := z.1) ?_ (fun hz => ?_); subst z; rotate_left; clear_value z; all_goals have z := trivial)
    | (extract_lets +onlyGivenNames z; clear_value z; have z := trivial)
    | (with_reducible apply Upd.ite)
    | (with_reducible apply State.partDone_upd; decide)
    | (with_reducible apply Upd.fst; assumption)
    | simp (disch := decide) only [Upd.mk1_iff, Upd.frames_iff, Upd.ref_iff, Upd.products_iff, Upd.egr_iff, Upd.out_iff]
    | split

theorem State.fetchBlock_upd (k slot : Nat) (a : State × Option RefView) (p : Nat × Nat) :
    Upd 0x100000100000000000001 0x100002 a.1 (State.fetchBlock k slot a p).1 := by
  unfold State.fetchBlock
  split
  · split
    · exact Upd.refl _
    · extract_lets q chroma
      have hq : Upd 0x100000100000000000001 0x100002 a.1 q.1 := State.refRead_upd _ _ _ _ (by decide) (Upd.refl _)
      clear_value q
      split
      · exact hq
      · split
        · exact Upd.add (by decide) hq
        · exact State.decodeError_upd _ _ _ _ _ (by decide) hq
  · exact Upd.refl _

theorem State.fetchRef_upd (s : State) (k : Nat) (base : Nat) (slot : Nat) (rx : Int) (ry : Int) (y : Grid) (memErr : Bool) {W P : Nat} {r_ : State} (hm : (subMask 0x100000100000000000001 W && subMask 0x100002 P) = true) (k_ : Upd W P r_ s) :
    Upd W P r_ (State.fetchRef s k base slot rx ry y memErr).1 := by
  refine Upd.via (w := 0x100000100000000000001) (p := 0x100002) ?_ hm k_
  clear hm k_
  unfold State.fetchRef
  split
  · exact Upd.refl s
  · extract_lets w h skip q
    have hq : Upd 0x100000100000000000001 0x100002 s q.1 := Upd.foldlFst (fun r x => State.fetchBlock_upd ..) (Upd.refl s)
    clear_value q
    split
    · exact hq
    · exact Upd.foldlFst (fun r x => State.fetchBlock_upd ..) hq

theorem State.countFound_upd (s : State) (k : Nat) (seq : Nat) (a : Nat) (t : Nat) (c : Found) {W P : Nat} {r_ : State} (hm : (subMask 0x10000000000001 W && subMask 0x10010a P) = true) (k_ : Upd W P r_ s) :
    Upd W P r_ (State.countFound s k seq a t c) := by
  refine Upd.via (w := 0x10000000000001) (p := 0x10010a) ?_ hm k_
  clear hm k_
  unfold State.countFound
  repeat' first
    | (with_reducible exact Upd.refl _)
    | with_reducible assumption
    | (extract_lets +onlyGivenNames z; refine Upd.cutU (z := z) ?_ (fun hz => ?_); subst z; rotate_left; clear_value z; all_goals have z := trivial)
    | (extract_lets +onlyGivenNames z; refine Upd.cutU (z := z.1) ?_ (fun hz => ?_); subst z; rotate_left; clear_value z; all_goals have z := trivial)
    | (extract_lets +onlyGivenNames z; clear_value z; have z := trivial)
    | (with_reducible apply Upd.ite)
    | (with_reducible apply Upd.inc; decide)
    | (with_reducible apply State.onRefFrame_upd; decide)
    | (with_reducible apply State.refEvent_upd; decide)
    | (with_reducible apply Upd.fst; assumption)
    | simp (disch := decide) only [Upd.mk1_iff, Upd.frames_iff, Upd.ref_iff, Upd.out_iff]
    | split

theorem execAlignmentTile_upd (k : Nat) (seq : Nat) (a : Nat) (t : Nat) (memErr : Bool) (s : State) {W P : Nat} (hm : (subMask 0x1100000110000000000001 W && subMask 0x10270a P) = true) :
    NextUpd W P s (execAlignmentTile k seq a t memErr s) := by
  refine NextUpd.mono (w := 0x1100000110000000000001) (p := 0x10270a) ?_ hm
  unfold execAlignmentTile
  repeat' first
    | (with_reducible exact Upd.refl _)
    | with_reducible assumption
    | (extract_lets +onlyGivenNames z; refine Upd.cutU (z := z) ?_ (fun hz => ?_); subst z; rotate_left; clear_value z; all_goals have z := trivial)
    | (extract_lets +onlyGivenNames z; refine Upd.cutU (z := z.1) ?_ (fun hz => ?_); subst z; rotate_left; clear_value z; all_goals have z := trivial)
    | (extract_lets +onlyGivenNames z; refine NextUpd.cutU (z := z) ?_ (fun hz => ?_); subst z; rotate_left; clear_value z; all_goals have z := trivial)
    | (extract_lets +onlyGivenNames z; refine NextUpd.cutU (z := z.1) ?_ (fun hz => ?_); subst z; rotate_left; clear_value z; all_goals have z := trivial)
    | (extract_lets +onlyGivenNames z; clear_value z; have z := trivial)
    | (with_reducible apply NextUpd.next)
    | (with_reducible apply NextUpd.ite)
    | (with_reducible apply Upd.ite)
    | (with_reducible apply Upd.add; decide)
    | (with_reducible apply State.countFound_upd; decide)
    | (with_reducible apply State.emitCand_upd; decide)
    | (with_reducible apply State.fetchRef_upd; decide)
    | (with_reducible apply Upd.inc; decide)
    | (with_reducible apply State.lostPart_upd; decide)
    | (with_reducible apply State.partDone_upd; decide)
    | (with_reducible apply State.refBegin_upd; decide)
    | (with_reducible apply Upd.fst; assumption)
    | simp (disch := decide) only [Upd.mk1_iff, Upd.frames_iff, Upd.ref_iff, Upd.products_iff, Upd.egr_iff, Upd.sto_iff, Upd.out_iff]
    | split

theorem effRefFence_upd (s : State) {W P : Nat} {r_ : State} (hm : (subMask 0x10000000000000 W && subMask 0x0 P) = true) (k_ : Upd W P r_ s) :
    Upd W P r_ (effRefFence s) := by
  refine Upd.via (w := 0x10000000000000) (p := 0x0) ?_ hm k_
  clear hm k_
  unfold effRefFence
  repeat' first
    | (with_reducible exact Upd.refl _)
    | with_reducible assumption
    | (extract_lets +onlyGivenNames z; refine Upd.cutU (z := z) ?_ (fun hz => ?_); subst z; rotate_left; clear_value z; all_goals have z := trivial)
    | (extract_lets +onlyGivenNames z; refine Upd.cutU (z := z.1) ?_ (fun hz => ?_); subst z; rotate_left; clear_value z; all_goals have z := trivial)
    | (extract_lets +onlyGivenNames z; clear_value z; have z := trivial)
    | (with_reducible apply Upd.ite)
    | (with_reducible apply Upd.set; decide)
    | (with_reducible apply Upd.fst; assumption)
    | simp (disch := decide) only [Upd.mk1_iff]
    | split

theorem execRefFence_upd (src : Src) (s : State) {W P : Nat} (hm : (subMask 0x100010000000000003 W && subMask 0x1c0c03 P) = true) :
    NextUpd W P s (execRefFence src s) := by
  refine NextUpd.mono (w := 0x100010000000000003) (p := 0x1c0c03) ?_ hm
  unfold execRefFence
  repeat' first
    | (with_reducible exact Upd.refl _)
    | with_reducible assumption
    | (extract_lets +onlyGivenNames z; refine Upd.cutU (z := z) ?_ (fun hz => ?_); subst z; rotate_left; clear_value z; all_goals have z := trivial)
    | (extract_lets +onlyGivenNames z; refine Upd.cutU (z := z.1) ?_ (fun hz => ?_); subst z; rotate_left; clear_value z; all_goals have z := trivial)
    | (extract_lets +onlyGivenNames z; refine NextUpd.cutU (z := z) ?_ (fun hz => ?_); subst z; rotate_left; clear_value z; all_goals have z := trivial)
    | (extract_lets +onlyGivenNames z; refine NextUpd.cutU (z := z.1) ?_ (fun hz => ?_); subst z; rotate_left; clear_value z; all_goals have z := trivial)
    | (extract_lets +onlyGivenNames z; clear_value z; have z := trivial)
    | (with_reducible apply NextUpd.next)
    | (with_reducible apply NextUpd.ite)
    | (with_reducible apply Upd.ite)
    | (with_reducible apply State.answer_upd; decide)
    | (with_reducible apply State.recorded_upd; decide; intro _)
    | (with_reducible apply effRefFence_upd; decide)
    | (with_reducible apply Upd.fst; assumption)
    | simp (disch := first | decide | rfl | (apply And.intro <;> first | decide | rfl | (apply And.intro <;> rfl))) only [Upd.mk1_iff, Upd.egr_iff, Upd.brg_iff, Upd.mgt_iff, Upd.sec_iff, Upd.out_iff]
    | split

theorem execRefFenceDone_upd (s : State) {W P : Nat} (hm : (subMask 0x10000000000000 W && subMask 0x0 P) = true) :
    NextUpd W P s (execRefFenceDone s) := by
  refine NextUpd.mono (w := 0x10000000000000) (p := 0x0) ?_ hm
  unfold execRefFenceDone
  repeat' first
    | (with_reducible exact Upd.refl _)
    | with_reducible assumption
    | (extract_lets +onlyGivenNames z; refine Upd.cutU (z := z) ?_ (fun hz => ?_); subst z; rotate_left; clear_value z; all_goals have z := trivial)
    | (extract_lets +onlyGivenNames z; refine Upd.cutU (z := z.1) ?_ (fun hz => ?_); subst z; rotate_left; clear_value z; all_goals have z := trivial)
    | (extract_lets +onlyGivenNames z; refine NextUpd.cutU (z := z) ?_ (fun hz => ?_); subst z; rotate_left; clear_value z; all_goals have z := trivial)
    | (extract_lets +onlyGivenNames z; refine NextUpd.cutU (z := z.1) ?_ (fun hz => ?_); subst z; rotate_left; clear_value z; all_goals have z := trivial)
    | (extract_lets +onlyGivenNames z; clear_value z; have z := trivial)
    | (with_reducible apply NextUpd.next)
    | (with_reducible apply NextUpd.ite)
    | (with_reducible apply Upd.ite)
    | (with_reducible apply Upd.set; decide)
    | (with_reducible apply Upd.fst; assumption)
    | simp (disch := decide) only [Upd.mk1_iff]
    | split

theorem State.loseTile_upd (s : State) (t : RefTile) {W P : Nat} {r_ : State} (hm : (subMask 0x110000000000001 W && subMask 0x10070a P) = true) (k_ : Upd W P r_ s) :
    Upd W P r_ (State.loseTile s t) := by
  refine Upd.via (w := 0x110000000000001) (p := 0x10070a) ?_ hm k_
  clear hm k_
  unfold State.loseTile
  repeat' first
    | (with_reducible apply Upd.foldl; intro _ _)
    | (with_reducible apply Upd.foldlFst; intro _ _)
    | (with_reducible exact Upd.refl _)
    | with_reducible assumption
    | (extract_lets +onlyGivenNames z; refine Upd.cutU (z := z) ?_ (fun hz => ?_); subst z; rotate_left; clear_value z; all_goals have z := trivial)
    | (extract_lets +onlyGivenNames z; refine Upd.cutU (z := z.1) ?_ (fun hz => ?_); subst z; rotate_left; clear_value z; all_goals have z := trivial)
    | (extract_lets +onlyGivenNames z; clear_value z; have z := trivial)
    | (with_reducible apply Upd.ite)
    | (with_reducible apply State.lostPart_upd; decide)
    | (with_reducible apply State.refBegin_upd; decide)
    | (with_reducible apply Upd.fst; assumption)
    | simp (disch := decide) only [Upd.mk1_iff, Upd.frames_iff, Upd.ref_iff, Upd.products_iff, Upd.egr_iff, Upd.out_iff]
    | split

theorem effRefReset_upd (s : State) {W P : Nat} {r_ : State} (hm : (subMask 0x100110000000000005 W && subMask 0x141f8b P) = true) (k_ : Upd W P r_ s) :
    Upd W P r_ (effRefReset s) := by
  refine Upd.via (w := 0x100110000000000005) (p := 0x141f8b) ?_ hm k_
  clear hm k_
  unfold effRefReset
  repeat' first
    | (with_reducible apply Upd.foldl; intro _ _)
    | (with_reducible apply Upd.foldlFst; intro _ _)
    | (with_reducible exact Upd.refl _)
    | with_reducible assumption
    | (extract_lets +onlyGivenNames z; refine Upd.cutU (z := z) ?_ (fun hz => ?_); subst z; rotate_left; clear_value z; all_goals have z := trivial)
    | (extract_lets +onlyGivenNames z; refine Upd.cutU (z := z.1) ?_ (fun hz => ?_); subst z; rotate_left; clear_value z; all_goals have z := trivial)
    | (extract_lets +onlyGivenNames z; clear_value z; have z := trivial)
    | (with_reducible apply Upd.ite)
    | (with_reducible apply State.answer_upd; decide)
    | (with_reducible apply State.blockReset_upd; decide)
    | (with_reducible apply State.loseTile_upd; decide)
    | (with_reducible apply State.refEvent_upd; decide)
    | (with_reducible apply Upd.set; decide)
    | (with_reducible apply Upd.fst; assumption)
    | simp (disch := first | decide | rfl | (apply And.intro <;> first | decide | rfl | (apply And.intro <;> rfl))) only [Upd.mk1_iff, Upd.frames_iff, Upd.blankets_iff, Upd.ref_iff, Upd.products_iff, Upd.egr_iff, Upd.brg_iff, Upd.memq_iff, Upd.mgt_iff, Upd.out_iff]
    | split

theorem execRefReset_upd (src : Src) (s : State) {W P : Nat} (hm : (subMask 0x100110000000000007 W && subMask 0x1c1f8b P) = true) :
    NextUpd W P s (execRefReset src s) := by
  refine NextUpd.mono (w := 0x100110000000000007) (p := 0x1c1f8b) ?_ hm
  unfold execRefReset
  repeat' first
    | (with_reducible exact Upd.refl _)
    | with_reducible assumption
    | (extract_lets +onlyGivenNames z; refine Upd.cutU (z := z) ?_ (fun hz => ?_); subst z; rotate_left; clear_value z; all_goals have z := trivial)
    | (extract_lets +onlyGivenNames z; refine Upd.cutU (z := z.1) ?_ (fun hz => ?_); subst z; rotate_left; clear_value z; all_goals have z := trivial)
    | (extract_lets +onlyGivenNames z; refine NextUpd.cutU (z := z) ?_ (fun hz => ?_); subst z; rotate_left; clear_value z; all_goals have z := trivial)
    | (extract_lets +onlyGivenNames z; refine NextUpd.cutU (z := z.1) ?_ (fun hz => ?_); subst z; rotate_left; clear_value z; all_goals have z := trivial)
    | (extract_lets +onlyGivenNames z; clear_value z; have z := trivial)
    | (with_reducible apply NextUpd.next)
    | (with_reducible apply NextUpd.ite)
    | (with_reducible apply Upd.ite)
    | (with_reducible apply State.answer_upd; decide)
    | (with_reducible apply State.recorded_upd; decide; intro _)
    | (with_reducible apply effRefReset_upd; decide)
    | (with_reducible apply Upd.fst; assumption)
    | simp (disch := first | decide | rfl | (apply And.intro <;> first | decide | rfl | (apply And.intro <;> rfl))) only [Upd.mk1_iff, Upd.frames_iff, Upd.blankets_iff, Upd.ref_iff, Upd.products_iff, Upd.egr_iff, Upd.brg_iff, Upd.memq_iff, Upd.mgt_iff, Upd.sec_iff, Upd.out_iff]
    | split

theorem State.refClrCnt_upd (s : State) {W P : Nat} {r_ : State} (hm : (subMask 0x10000000000000 W && subMask 0x0 P) = true) (k_ : Upd W P r_ s) :
    Upd W P r_ (State.refClrCnt s) := by
  refine Upd.via (w := 0x10000000000000) (p := 0x0) ?_ hm k_
  clear hm k_
  unfold State.refClrCnt
  repeat' first
    | (with_reducible apply Upd.foldlSet; decide)
    | ((with_reducible apply Upd.foldlPair); simp only [List.all_cons, List.all_nil]; decide)
    | (with_reducible apply Upd.foldl; intro _ _)
    | (with_reducible apply Upd.foldlFst; intro _ _)
    | (with_reducible exact Upd.refl _)
    | with_reducible assumption
    | (extract_lets +onlyGivenNames z; refine Upd.cutU (z := z) ?_ (fun hz => ?_); subst z; rotate_left; clear_value z; all_goals have z := trivial)
    | (extract_lets +onlyGivenNames z; refine Upd.cutU (z := z.1) ?_ (fun hz => ?_); subst z; rotate_left; clear_value z; all_goals have z := trivial)
    | (extract_lets +onlyGivenNames z; clear_value z; have z := trivial)
    | (with_reducible apply Upd.ite)
    | (with_reducible apply Upd.set; decide)
    | (with_reducible apply Upd.fst; assumption)
    | simp (disch := decide) only [Upd.mk1_iff]
    | split

theorem execRefClrCnt_upd (src : Src) (s : State) {W P : Nat} (hm : (subMask 0x100010000000000001 W && subMask 0x140c03 P) = true) :
    NextUpd W P s (execRefClrCnt src s) := by
  refine NextUpd.mono (w := 0x100010000000000001) (p := 0x140c03) ?_ hm
  unfold execRefClrCnt
  repeat' first
    | (with_reducible exact Upd.refl _)
    | with_reducible assumption
    | (extract_lets +onlyGivenNames z; refine Upd.cutU (z := z) ?_ (fun hz => ?_); subst z; rotate_left; clear_value z; all_goals have z := trivial)
    | (extract_lets +onlyGivenNames z; refine Upd.cutU (z := z.1) ?_ (fun hz => ?_); subst z; rotate_left; clear_value z; all_goals have z := trivial)
    | (extract_lets +onlyGivenNames z; refine NextUpd.cutU (z := z) ?_ (fun hz => ?_); subst z; rotate_left; clear_value z; all_goals have z := trivial)
    | (extract_lets +onlyGivenNames z; refine NextUpd.cutU (z := z.1) ?_ (fun hz => ?_); subst z; rotate_left; clear_value z; all_goals have z := trivial)
    | (extract_lets +onlyGivenNames z; clear_value z; have z := trivial)
    | (with_reducible apply NextUpd.next)
    | (with_reducible apply NextUpd.ite)
    | (with_reducible apply Upd.ite)
    | (with_reducible apply State.answer_upd; decide)
    | (with_reducible apply State.refClrCnt_upd; decide)
    | (with_reducible apply Upd.fst; assumption)
    | simp (disch := first | decide | rfl | (apply And.intro <;> first | decide | rfl | (apply And.intro <;> rfl))) only [Upd.mk1_iff, Upd.egr_iff, Upd.brg_iff, Upd.mgt_iff, Upd.out_iff]
    | split

end Sys2Proof.Machine
end

