-- ==== Sys2Proof/Laws/UpdJobOps.lean ====
section
/-! SUPPORT. What each operation of Machine/JobOps.lean may change (see Laws/Upd.lean). -/

set_option linter.unusedSimpArgs false
set_option linter.tactic.unusedName false

namespace Sys2Proof.Machine

theorem State.jobEvent_upd (s : State) (k : Nat) (job : Nat) (out : Nat) (st : Nat) (res : Nat) (node : Nat) {W P : Nat} {r_ : State} (hm : (subMask 0x21 W && subMask 0x100002 P) = true) (k_ : Upd W P r_ s) :
    Upd W P r_ (State.jobEvent s k job out st res node) := by
  refine Upd.via (w := 0x21) (p := 0x100002) ?_ hm k_
  clear hm k_
  unfold State.jobEvent
  repeat' first
    | (with_reducible exact Upd.refl _)
    | with_reducible assumption
    | (extract_lets +onlyGivenNames z; refine Upd.cutU (z := z) ?_ (fun hz => ?_); subst z; rotate_left; clear_value z; all_goals have z := trivial)
    | (extract_lets +onlyGivenNames z; refine Upd.cutU (z := z.1) ?_ (fun hz => ?_); subst z; rotate_left; clear_value z; all_goals have z := trivial)
    | (extract_lets +onlyGivenNames z; clear_value z; have z := trivial)
    | (with_reducible apply Upd.ite)
    | (with_reducible apply Upd.sticky; decide; decide; decide)
    | (with_reducible apply Upd.fst; assumption)
    | simp (disch := decide) only [Upd.mk1_iff, Upd.out_iff]
    | split

theorem State.cancelBanks_upd (s : State) (job : Nat) {W P : Nat} {r_ : State} (hm : (subMask 0x11010000000000 W && subMask 0x0 P) = true) (k_ : Upd W P r_ s) :
    Upd W P r_ (State.cancelBanks s job) := by
  refine Upd.via (w := 0x11010000000000) (p := 0x0) ?_ hm k_
  clear hm k_
  unfold State.cancelBanks
  repeat' first
    | (with_reducible apply Upd.foldl; intro _ _)
    | (with_reducible apply Upd.foldlFst; intro _ _)
    | (with_reducible exact Upd.refl _)
    | with_reducible assumption
    | (extract_lets +onlyGivenNames z; refine Upd.cutU (z := z) ?_ (fun hz => ?_); subst z; rotate_left; clear_value z; all_goals have z := trivial)
    | (extract_lets +onlyGivenNames z; refine Upd.cutU (z := z.1) ?_ (fun hz => ?_); subst z; rotate_left; clear_value z; all_goals have z := trivial)
    | (extract_lets +onlyGivenNames z; have _t : State → _ := z; clear _t; subst z; have z := trivial)
    | (extract_lets +onlyGivenNames z; have _t : _ → State := z; clear _t; subst z; have z := trivial)
    | (extract_lets +onlyGivenNames z; have _t : _ → _ → State := z; clear _t; subst z; have z := trivial)
    | (extract_lets +onlyGivenNames z; clear_value z; have z := trivial)
    | (with_reducible apply Upd.ite)
    | (with_reducible apply Upd.set; decide)
    | (with_reducible apply Upd.fst; assumption)
    | simp (disch := decide) only [Upd.mk1_iff]
    | split

theorem State.clearStaged_upd (s : State) {W P : Nat} {r_ : State} (hm : (subMask 0x20 W && subMask 0x0 P) = true) (k_ : Upd W P r_ s) :
    Upd W P r_ (State.clearStaged s) := by
  refine Upd.via (w := 0x20) (p := 0x0) ?_ hm k_
  clear hm k_
  unfold State.clearStaged
  repeat' first
    | (with_reducible apply Upd.foldlSet; decide)
    | ((with_reducible apply Upd.foldlPair); simp only [List.all_cons, List.all_nil]; decide)
    | (with_reducible apply Upd.foldl; intro _ _)
    | (with_reducible apply Upd.foldlFst; intro _ _)
    | (with_reducible exact Upd.refl _)
    | with_reducible assumption
    | (extract_lets +onlyGivenNames z; refine Upd.cutU (z := z) ?_ (fun hz => ?_); subst z; rotate_left; clear_value z; all_goals have z := trivial)
    | (extract_lets +onlyGivenNames z; refine Upd.cutU (z := z.1) ?_ (fun hz => ?_); subst z; rotate_left; clear_value z; all_goals have z := trivial)
    | (extract_lets +onlyGivenNames z; clear_value z; have z := trivial)
    | (with_reducible apply Upd.ite)
    | (with_reducible apply Upd.set; decide)
    | (with_reducible apply Upd.fst; assumption)
    | simp (disch := decide) only [Upd.mk1_iff]
    | split

theorem State.nextClear_upd (s : State) {W P : Nat} {r_ : State} (hm : (subMask 0x100080110010000000020 W && subMask 0x4000 P) = true) (k_ : Upd W P r_ s) :
    Upd W P r_ (State.nextClear s) := by
  refine Upd.via (w := 0x100080110010000000020) (p := 0x4000) ?_ hm k_
  clear hm k_
  unfold State.nextClear
  repeat' first
    | (with_reducible apply Upd.foldlSet; decide)
    | ((with_reducible apply Upd.foldlPair); simp only [List.all_cons, List.all_nil]; decide)
    | (with_reducible apply Upd.foldl; intro _ _)
    | (with_reducible apply Upd.foldlFst; intro _ _)
    | (with_reducible exact Upd.refl _)
    | with_reducible assumption
    | (extract_lets +onlyGivenNames z; refine Upd.cutU (z := z) ?_ (fun hz => ?_); subst z; rotate_left; clear_value z; all_goals have z := trivial)
    | (extract_lets +onlyGivenNames z; refine Upd.cutU (z := z.1) ?_ (fun hz => ?_); subst z; rotate_left; clear_value z; all_goals have z := trivial)
    | (extract_lets +onlyGivenNames z; clear_value z; have z := trivial)
    | (with_reducible apply Upd.ite)
    | (with_reducible apply Upd.set; decide)
    | (with_reducible apply Upd.fst; assumption)
    | simp (disch := decide) only [Upd.mk1_iff, Upd.job_iff]
    | split

theorem State.setRefuse_upd (s : State) (r : List Nat) {W P : Nat} {r_ : State} (hm : (subMask 0x20 W && subMask 0x0 P) = true) (k_ : Upd W P r_ s) :
    Upd W P r_ (State.setRefuse s r) := by
  refine Upd.via (w := 0x20) (p := 0x0) ?_ hm k_
  clear hm k_
  unfold State.setRefuse
  repeat' first
    | (with_reducible apply Upd.foldl; intro _ _)
    | (with_reducible apply Upd.foldlFst; intro _ _)
    | (with_reducible exact Upd.refl _)
    | with_reducible assumption
    | (extract_lets +onlyGivenNames z; refine Upd.cutU (z := z) ?_ (fun hz => ?_); subst z; rotate_left; clear_value z; all_goals have z := trivial)
    | (extract_lets +onlyGivenNames z; refine Upd.cutU (z := z.1) ?_ (fun hz => ?_); subst z; rotate_left; clear_value z; all_goals have z := trivial)
    | (extract_lets +onlyGivenNames z; clear_value z; have z := trivial)
    | (with_reducible apply Upd.ite)
    | (with_reducible apply Upd.set; decide)
    | (with_reducible apply Upd.fst; assumption)
    | simp (disch := decide) only [Upd.mk1_iff]
    | split

theorem State.loadEnded_upd (s : State) (st : Status) (record : Bool) {W P : Nat} {r_ : State} (hm : (subMask 0x1100000000000000001 W && subMask 0x14cc03 P) = true) (k_ : Upd W P r_ s) :
    Upd W P r_ (State.loadEnded s st record) := by
  refine Upd.via (w := 0x1100000000000000001) (p := 0x14cc03) ?_ hm k_
  clear hm k_
  unfold State.loadEnded
  repeat' first
    | (with_reducible exact Upd.refl _)
    | with_reducible assumption
    | (extract_lets +onlyGivenNames z; refine Upd.cutU (z := z) ?_ (fun hz => ?_); subst z; rotate_left; clear_value z; all_goals have z := trivial)
    | (extract_lets +onlyGivenNames z; refine Upd.cutU (z := z.1) ?_ (fun hz => ?_); subst z; rotate_left; clear_value z; all_goals have z := trivial)
    | (extract_lets +onlyGivenNames z; clear_value z; have z := trivial)
    | (with_reducible apply Upd.ite)
    | (with_reducible apply State.answer_upd; decide)
    | (with_reducible apply State.ctrlReply_upd; decide)
    | (with_reducible apply State.emit_upd; decide)
    | (with_reducible apply Upd.fst; assumption)
    | simp (disch := first | decide | rfl | (apply And.intro <;> first | decide | rfl | (apply And.intro <;> rfl))) only [Upd.mk1_iff, Upd.egr_iff, Upd.brg_iff, Upd.job_iff, Upd.fab_iff, Upd.mgt_iff, Upd.out_iff]
    | split

theorem State.cancelNext_upd (s : State) {W P : Nat} {r_ : State} (hm : (subMask 0x101180111010000000021 W && subMask 0x14cc03 P) = true) (k_ : Upd W P r_ s) :
    Upd W P r_ (State.cancelNext s) := by
  refine Upd.via (w := 0x101180111010000000021) (p := 0x14cc03) ?_ hm k_
  clear hm k_
  unfold State.cancelNext
  repeat' first
    | (with_reducible exact Upd.refl _)
    | with_reducible assumption
    | (extract_lets +onlyGivenNames z; refine Upd.cutU (z := z) ?_ (fun hz => ?_); subst z; rotate_left; clear_value z; all_goals have z := trivial)
    | (extract_lets +onlyGivenNames z; refine Upd.cutU (z := z.1) ?_ (fun hz => ?_); subst z; rotate_left; clear_value z; all_goals have z := trivial)
    | (extract_lets +onlyGivenNames z; clear_value z; have z := trivial)
    | (with_reducible apply Upd.ite)
    | (with_reducible apply State.cancelBanks_upd; decide)
    | (with_reducible apply State.clearStaged_upd; decide)
    | (with_reducible apply State.loadEnded_upd; decide)
    | (with_reducible apply State.nextClear_upd; decide)
    | (with_reducible apply Upd.fst; assumption)
    | simp (disch := first | decide | rfl | (apply And.intro <;> first | decide | rfl | (apply And.intro <;> rfl))) only [Upd.mk1_iff, Upd.egr_iff, Upd.brg_iff, Upd.job_iff, Upd.fab_iff, Upd.mgt_iff, Upd.out_iff]
    | split

theorem State.refused_upd (s : State) (r : Refuse) (occasion : Nat) {W P : Nat} {r_ : State} (hm : (subMask 0x21 W && subMask 0x100002 P) = true) (k_ : Upd W P r_ s) :
    Upd W P r_ (State.refused s r occasion) := by
  refine Upd.via (w := 0x21) (p := 0x100002) ?_ hm k_
  clear hm k_
  unfold State.refused
  repeat' first
    | (with_reducible exact Upd.refl _)
    | with_reducible assumption
    | (extract_lets +onlyGivenNames z; refine Upd.cutU (z := z) ?_ (fun hz => ?_); subst z; rotate_left; clear_value z; all_goals have z := trivial)
    | (extract_lets +onlyGivenNames z; refine Upd.cutU (z := z.1) ?_ (fun hz => ?_); subst z; rotate_left; clear_value z; all_goals have z := trivial)
    | (extract_lets +onlyGivenNames z; clear_value z; have z := trivial)
    | (with_reducible apply Upd.ite)
    | (with_reducible apply Upd.inc; decide)
    | (with_reducible apply State.jobEvent_upd; decide)
    | (with_reducible apply State.setRefuse_upd; decide)
    | (with_reducible apply Upd.fst; assumption)
    | simp (disch := decide) only [Upd.mk1_iff, Upd.out_iff]
    | split

theorem State.showDemand_upd (s : State) {W P : Nat} {r_ : State} (hm : (subMask 0x100080111010000000000 W && subMask 0x0 P) = true) (k_ : Upd W P r_ s) :
    Upd W P r_ (State.showDemand s) := by
  refine Upd.via (w := 0x100080111010000000000) (p := 0x0) ?_ hm k_
  clear hm k_
  unfold State.showDemand
  repeat' first
    | ((with_reducible apply Upd.foldlPair); simp only [List.all_cons, List.all_nil]; decide)
    | ((with_reducible apply Upd.foldlCopy); simp only [List.all_cons, List.all_nil]; decide)
    | (extract_lets +onlyGivenNames z; have _t : List (Fld × Fld) := z; clear _t; subst z; have z := trivial)
    | (extract_lets +onlyGivenNames z; have _t : List (Fld × Nat) := z; clear _t; subst z; have z := trivial)
    | (with_reducible apply Upd.foldl; intro _ _)
    | (with_reducible apply Upd.foldlFst; intro _ _)
    | (with_reducible exact Upd.refl _)
    | with_reducible assumption
    | (extract_lets +onlyGivenNames z; refine Upd.cutU (z := z) ?_ (fun hz => ?_); subst z; rotate_left; clear_value z; all_goals have z := trivial)
    | (extract_lets +onlyGivenNames z; refine Upd.cutU (z := z.1) ?_ (fun hz => ?_); subst z; rotate_left; clear_value z; all_goals have z := trivial)
    | (extract_lets +onlyGivenNames z; clear_value z; have z := trivial)
    | (with_reducible apply Upd.ite)
    | (with_reducible apply Upd.set; decide)
    | (with_reducible apply Upd.fst; assumption)
    | simp (disch := decide) only [Upd.mk1_iff]
    | split

theorem State.loadTrig_upd (s : State) (pos : Nat) (time : Nat) (c : Nat) {W P : Nat} {r_ : State} (hm : (subMask 0x1000000 W && subMask 0x0 P) = true) (k_ : Upd W P r_ s) :
    Upd W P r_ (State.loadTrig s pos time c) := by
  refine Upd.via (w := 0x1000000) (p := 0x0) ?_ hm k_
  clear hm k_
  unfold State.loadTrig
  repeat' first
    | ((with_reducible apply Upd.foldlPair); simp only [List.all_cons, List.all_nil]; decide)
    | ((with_reducible apply Upd.foldlCopy); simp only [List.all_cons, List.all_nil]; decide)
    | (extract_lets +onlyGivenNames z; have _t : List (Fld × Fld) := z; clear _t; subst z; have z := trivial)
    | (extract_lets +onlyGivenNames z; have _t : List (Fld × Nat) := z; clear _t; subst z; have z := trivial)
    | (with_reducible apply Upd.foldl; intro _ _)
    | (with_reducible apply Upd.foldlFst; intro _ _)
    | (with_reducible exact Upd.refl _)
    | with_reducible assumption
    | (extract_lets +onlyGivenNames z; refine Upd.cutU (z := z) ?_ (fun hz => ?_); subst z; rotate_left; clear_value z; all_goals have z := trivial)
    | (extract_lets +onlyGivenNames z; refine Upd.cutU (z := z.1) ?_ (fun hz => ?_); subst z; rotate_left; clear_value z; all_goals have z := trivial)
    | (extract_lets +onlyGivenNames z; have _t : State → _ := z; clear _t; subst z; have z := trivial)
    | (extract_lets +onlyGivenNames z; have _t : _ → State := z; clear _t; subst z; have z := trivial)
    | (extract_lets +onlyGivenNames z; have _t : _ → _ → State := z; clear _t; subst z; have z := trivial)
    | (extract_lets +onlyGivenNames z; clear_value z; have z := trivial)
    | (with_reducible apply Upd.ite)
    | (with_reducible apply Upd.set; decide)
    | (with_reducible apply State.trigDisable_upd; decide)
    | (with_reducible apply Upd.fst; assumption)
    | simp (disch := decide) only [Upd.mk1_iff]
    | split

theorem State.switchRecord_upd (s : State) (job : Nat) (out : Nat) (seq : Nat) (time : Nat) {W P : Nat} {r_ : State} (hm : (subMask 0x3 W && subMask 0x180002 P) = true) (k_ : Upd W P r_ s) :
    Upd W P r_ (State.switchRecord s job out seq time) := by
  refine Upd.via (w := 0x3) (p := 0x180002) ?_ hm k_
  clear hm k_
  unfold State.switchRecord
  extract_lets n rec
  split
  · exact State.secEvent_upd _ _ _ _ _ (by decide) (Upd.inc (by decide) (Upd.refl s))
  · refine Upd.sec_ (by decide) id (fun h => ?_) (Upd.refl s)
    rw [List.filter_append, List.filter_cons_of_neg (by simp), List.filter_nil, List.append_nil]; exact h

theorem State.jobSwitch_upd (s : State) (m : Nat) (pos : Nat) (time : Nat) {W P : Nat} {r_ : State} (hm : (subMask 0x100080110010001100023 W && subMask 0x184002 P) = true) (k_ : Upd W P r_ s) :
    Upd W P r_ (State.jobSwitch s m pos time) := by
  refine Upd.via (w := 0x100080110010001100023) (p := 0x184002) ?_ hm k_
  clear hm k_
  unfold State.jobSwitch
  repeat' first
    | ((with_reducible apply Upd.foldlPair); simp only [List.all_cons, List.all_nil]; decide)
    | ((with_reducible apply Upd.foldlCopy); simp only [List.all_cons, List.all_nil]; decide)
    | (extract_lets +onlyGivenNames z; have _t : List (Fld × Fld) := z; clear _t; subst z; have z := trivial)
    | (extract_lets +onlyGivenNames z; have _t : List (Fld × Nat) := z; clear _t; subst z; have z := trivial)
    | (with_reducible apply Upd.foldl; intro _ _)
    | (with_reducible apply Upd.foldlFst; intro _ _)
    | (with_reducible exact Upd.refl _)
    | with_reducible assumption
    | (extract_lets +onlyGivenNames z; refine Upd.cutU (z := z) ?_ (fun hz => ?_); subst z; rotate_left; clear_value z; all_goals have z := trivial)
    | (extract_lets +onlyGivenNames z; refine Upd.cutU (z := z.1) ?_ (fun hz => ?_); subst z; rotate_left; clear_value z; all_goals have z := trivial)
    | (extract_lets +onlyGivenNames z; have _t : State → _ := z; clear _t; subst z; have z := trivial)
    | (extract_lets +onlyGivenNames z; have _t : _ → State := z; clear _t; subst z; have z := trivial)
    | (extract_lets +onlyGivenNames z; have _t : _ → _ → State := z; clear _t; subst z; have z := trivial)
    | (extract_lets +onlyGivenNames z; clear_value z; have z := trivial)
    | (with_reducible apply Upd.ite)
    | (with_reducible apply State.jobEvent_upd; decide)
    | (with_reducible apply State.loadTrig_upd; decide)
    | (with_reducible apply State.nextClear_upd; decide)
    | (with_reducible apply Upd.set; decide)
    | (with_reducible apply State.switchRecord_upd; decide)
    | (with_reducible apply State.trigDisable_upd; decide)
    | (with_reducible apply Upd.fst; assumption)
    | simp (disch := first | decide | rfl | (apply And.intro <;> first | decide | rfl | (apply And.intro <;> rfl))) only [Upd.mk1_iff, Upd.job_iff, Upd.sec_iff, Upd.out_iff]
    | split

theorem State.armNext_upd (s : State) (m : Nat) (immediate : Bool) (tarm : Nat) {W P : Nat} {r_ : State} (hm : (subMask 0x100080111010001100023 W && subMask 0x184002 P) = true) (k_ : Upd W P r_ s) :
    Upd W P r_ (State.armNext s m immediate tarm).1 := by
  refine Upd.via (w := 0x100080111010001100023) (p := 0x184002) ?_ hm k_
  clear hm k_
  unfold State.armNext
  repeat' first
    | (with_reducible exact Upd.refl _)
    | with_reducible assumption
    | (extract_lets +onlyGivenNames z; refine Upd.cutU (z := z) ?_ (fun hz => ?_); subst z; rotate_left; clear_value z; all_goals have z := trivial)
    | (extract_lets +onlyGivenNames z; refine Upd.cutU (z := z.1) ?_ (fun hz => ?_); subst z; rotate_left; clear_value z; all_goals have z := trivial)
    | (extract_lets +onlyGivenNames z; clear_value z; have z := trivial)
    | (with_reducible apply Upd.ite)
    | (with_reducible apply Upd.iteFst)
    | (with_reducible apply State.jobSwitch_upd; decide)
    | (with_reducible apply State.refused_upd; decide)
    | (with_reducible apply Upd.set; decide)
    | (with_reducible apply State.showDemand_upd; decide)
    | (with_reducible apply Upd.fst; assumption)
    | simp (disch := first | decide | rfl | (apply And.intro <;> first | decide | rfl | (apply And.intro <;> rfl))) only [Upd.mk1_iff, Upd.job_iff, Upd.sec_iff, Upd.out_iff]
    | split

theorem State.loadStop_upd (s : State) {W P : Nat} {r_ : State} (hm : (subMask 0x100080110010000000020 W && subMask 0x4000 P) = true) (k_ : Upd W P r_ s) :
    Upd W P r_ (State.loadStop s) := by
  refine Upd.via (w := 0x100080110010000000020) (p := 0x4000) ?_ hm k_
  clear hm k_
  unfold State.loadStop
  repeat' first
    | (with_reducible exact Upd.refl _)
    | with_reducible assumption
    | (extract_lets +onlyGivenNames z; refine Upd.cutU (z := z) ?_ (fun hz => ?_); subst z; rotate_left; clear_value z; all_goals have z := trivial)
    | (extract_lets +onlyGivenNames z; refine Upd.cutU (z := z.1) ?_ (fun hz => ?_); subst z; rotate_left; clear_value z; all_goals have z := trivial)
    | (extract_lets +onlyGivenNames z; clear_value z; have z := trivial)
    | (with_reducible apply Upd.ite)
    | (with_reducible apply State.nextClear_upd; decide)
    | (with_reducible apply Upd.set; decide)
    | (with_reducible apply Upd.fst; assumption)
    | simp (disch := decide) only [Upd.mk1_iff, Upd.job_iff]
    | split

theorem State.peerSend_upd (s : State) (uid : Nat) (op : Nat) (data : List Nat) {W P : Nat} {r_ : State} (hm : (subMask 0x1000000000000000001 W && subMask 0x10c002 P) = true) (k_ : Upd W P r_ s) :
    Upd W P r_ (State.peerSend s uid op data) := by
  refine Upd.via (w := 0x1000000000000000001) (p := 0x10c002) ?_ hm k_
  clear hm k_
  unfold State.peerSend
  repeat' first
    | (with_reducible exact Upd.refl _)
    | with_reducible assumption
    | (extract_lets +onlyGivenNames z; refine Upd.cutU (z := z) ?_ (fun hz => ?_); subst z; rotate_left; clear_value z; all_goals have z := trivial)
    | (extract_lets +onlyGivenNames z; refine Upd.cutU (z := z.1) ?_ (fun hz => ?_); subst z; rotate_left; clear_value z; all_goals have z := trivial)
    | (extract_lets +onlyGivenNames z; clear_value z; have z := trivial)
    | (with_reducible apply Upd.ite)
    | (with_reducible apply State.ctrlSend_upd; decide)
    | (with_reducible apply Upd.fst; assumption)
    | simp (disch := decide) only [Upd.mk1_iff, Upd.job_iff, Upd.fab_iff, Upd.out_iff]
    | split

theorem State.leaderSend_upd (s : State) (op : Nat) (data : List Nat) {W P : Nat} {r_ : State} (hm : (subMask 0x1000000000000000001 W && subMask 0x10c002 P) = true) (k_ : Upd W P r_ s) :
    Upd W P r_ (State.leaderSend s op data) := by
  refine Upd.via (w := 0x1000000000000000001) (p := 0x10c002) ?_ hm k_
  clear hm k_
  unfold State.leaderSend
  repeat' first
    | (with_reducible apply Upd.foldl; intro _ _)
    | (with_reducible apply Upd.foldlFst; intro _ _)
    | (with_reducible exact Upd.refl _)
    | with_reducible assumption
    | (extract_lets +onlyGivenNames z; refine Upd.cutU (z := z) ?_ (fun hz => ?_); subst z; rotate_left; clear_value z; all_goals have z := trivial)
    | (extract_lets +onlyGivenNames z; refine Upd.cutU (z := z.1) ?_ (fun hz => ?_); subst z; rotate_left; clear_value z; all_goals have z := trivial)
    | (extract_lets +onlyGivenNames z; clear_value z; have z := trivial)
    | (with_reducible apply Upd.ite)
    | (with_reducible apply State.peerSend_upd; decide)
    | (with_reducible apply Upd.fst; assumption)
    | simp (disch := decide) only [Upd.mk1_iff, Upd.job_iff, Upd.fab_iff, Upd.out_iff]
    | split

theorem State.leaderCancel_upd (s : State) {W P : Nat} {r_ : State} (hm : (subMask 0x101180111010000000021 W && subMask 0x14cc03 P) = true) (k_ : Upd W P r_ s) :
    Upd W P r_ (State.leaderCancel s) := by
  refine Upd.via (w := 0x101180111010000000021) (p := 0x14cc03) ?_ hm k_
  clear hm k_
  unfold State.leaderCancel
  repeat' first
    | (with_reducible exact Upd.refl _)
    | with_reducible assumption
    | (extract_lets +onlyGivenNames z; refine Upd.cutU (z := z) ?_ (fun hz => ?_); subst z; rotate_left; clear_value z; all_goals have z := trivial)
    | (extract_lets +onlyGivenNames z; refine Upd.cutU (z := z.1) ?_ (fun hz => ?_); subst z; rotate_left; clear_value z; all_goals have z := trivial)
    | (extract_lets +onlyGivenNames z; clear_value z; have z := trivial)
    | (with_reducible apply Upd.ite)
    | (with_reducible apply State.cancelNext_upd; decide)
    | (with_reducible apply State.leaderSend_upd; decide)
    | (with_reducible apply Upd.fst; assumption)
    | simp (disch := first | decide | rfl | (apply And.intro <;> first | decide | rfl | (apply And.intro <;> rfl))) only [Upd.mk1_iff, Upd.egr_iff, Upd.brg_iff, Upd.job_iff, Upd.fab_iff, Upd.mgt_iff, Upd.out_iff]
    | split

theorem State.tryArm_upd (s : State) {W P : Nat} {r_ : State} (hm : (subMask 0x101180111010001100023 W && subMask 0x1ccc03 P) = true) (k_ : Upd W P r_ s) :
    Upd W P r_ (State.tryArm s) := by
  refine Upd.via (w := 0x101180111010001100023) (p := 0x1ccc03) ?_ hm k_
  clear hm k_
  unfold State.tryArm
  repeat' first
    | (with_reducible exact Upd.refl _)
    | with_reducible assumption
    | (extract_lets +onlyGivenNames z; refine Upd.cutU (z := z) ?_ (fun hz => ?_); subst z; rotate_left; clear_value z; all_goals have z := trivial)
    | (extract_lets +onlyGivenNames z; refine Upd.cutU (z := z.1) ?_ (fun hz => ?_); subst z; rotate_left; clear_value z; all_goals have z := trivial)
    | (extract_lets +onlyGivenNames z; clear_value z; have z := trivial)
    | (with_reducible apply Upd.ite)
    | (with_reducible apply State.answer_upd; decide)
    | (with_reducible apply State.armNext_upd; decide)
    | (with_reducible apply State.leaderCancel_upd; decide)
    | (with_reducible apply State.leaderSend_upd; decide)
    | (with_reducible apply Upd.fst; assumption)
    | simp (disch := first | decide | rfl | (apply And.intro <;> first | decide | rfl | (apply And.intro <;> rfl))) only [Upd.mk1_iff, Upd.egr_iff, Upd.brg_iff, Upd.job_iff, Upd.fab_iff, Upd.mgt_iff, Upd.sec_iff, Upd.out_iff]
    | split

theorem State.latchSel_upd (s : State) (source : Nat) (i : Nat) (m : FabSel) {W P : Nat} {r_ : State} (hm : (subMask 0x21 W && subMask 0x100002 P) = true) (k_ : Upd W P r_ s) :
    Upd W P r_ (State.latchSel s source i m) := by
  refine Upd.via (w := 0x21) (p := 0x100002) ?_ hm k_
  clear hm k_
  unfold State.latchSel
  repeat' first
    | ((with_reducible apply Upd.foldlPair); simp only [List.all_cons, List.all_nil]; decide)
    | ((with_reducible apply Upd.foldlCopy); simp only [List.all_cons, List.all_nil]; decide)
    | (extract_lets +onlyGivenNames z; have _t : List (Fld × Fld) := z; clear _t; subst z; have z := trivial)
    | (extract_lets +onlyGivenNames z; have _t : List (Fld × Nat) := z; clear _t; subst z; have z := trivial)
    | (with_reducible apply Upd.foldl; intro _ _)
    | (with_reducible apply Upd.foldlFst; intro _ _)
    | (with_reducible exact Upd.refl _)
    | with_reducible assumption
    | (extract_lets +onlyGivenNames z; refine Upd.cutU (z := z) ?_ (fun hz => ?_); subst z; rotate_left; clear_value z; all_goals have z := trivial)
    | (extract_lets +onlyGivenNames z; refine Upd.cutU (z := z.1) ?_ (fun hz => ?_); subst z; rotate_left; clear_value z; all_goals have z := trivial)
    | (extract_lets +onlyGivenNames z; clear_value z; have z := trivial)
    | (with_reducible apply Upd.ite)
    | (with_reducible apply Upd.inc; decide)
    | (with_reducible apply State.jobEvent_upd; decide)
    | (with_reducible apply Upd.set; decide)
    | (with_reducible apply Upd.fst; assumption)
    | simp (disch := decide) only [Upd.mk1_iff, Upd.out_iff]
    | split

theorem State.startLoad_upd (s : State) (h : Hamper) (entry : Nat) (m : Nat) (want : Bool) (immed : Bool) {W P : Nat} {r_ : State} (hm : (subMask 0x1000000000000000021 W && subMask 0x10c002 P) = true) (k_ : Upd W P r_ s) :
    Upd W P r_ (State.startLoad s h entry m want immed) := by
  refine Upd.via (w := 0x1000000000000000021) (p := 0x10c002) ?_ hm k_
  clear hm k_
  unfold State.startLoad
  repeat' first
    | ((with_reducible apply Upd.foldlPair); simp only [List.all_cons, List.all_nil]; decide)
    | ((with_reducible apply Upd.foldlCopy); simp only [List.all_cons, List.all_nil]; decide)
    | (extract_lets +onlyGivenNames z; have _t : List (Fld × Fld) := z; clear _t; subst z; have z := trivial)
    | (extract_lets +onlyGivenNames z; have _t : List (Fld × Nat) := z; clear _t; subst z; have z := trivial)
    | (with_reducible apply Upd.foldl; intro _ _)
    | (with_reducible apply Upd.foldlFst; intro _ _)
    | (with_reducible exact Upd.refl _)
    | with_reducible assumption
    | (extract_lets +onlyGivenNames z; refine Upd.cutU (z := z) ?_ (fun hz => ?_); subst z; rotate_left; clear_value z; all_goals have z := trivial)
    | (extract_lets +onlyGivenNames z; refine Upd.cutU (z := z.1) ?_ (fun hz => ?_); subst z; rotate_left; clear_value z; all_goals have z := trivial)
    | (extract_lets +onlyGivenNames z; clear_value z; have z := trivial)
    | (with_reducible apply Upd.ite)
    | (with_reducible apply State.leaderSend_upd; decide)
    | (with_reducible apply Upd.set; decide)
    | (with_reducible apply Upd.fst; assumption)
    | simp (disch := decide) only [Upd.mk1_iff, Upd.job_iff, Upd.fab_iff, Upd.out_iff]
    | split

theorem State.loadFail_upd (s : State) (st : Status) {W P : Nat} {r_ : State} (hm : (subMask 0x21 W && subMask 0x100002 P) = true) (k_ : Upd W P r_ s) :
    Upd W P r_ (State.loadFail s st) := by
  refine Upd.via (w := 0x21) (p := 0x100002) ?_ hm k_
  clear hm k_
  unfold State.loadFail
  repeat' first
    | (with_reducible exact Upd.refl _)
    | with_reducible assumption
    | (extract_lets +onlyGivenNames z; refine Upd.cutU (z := z) ?_ (fun hz => ?_); subst z; rotate_left; clear_value z; all_goals have z := trivial)
    | (extract_lets +onlyGivenNames z; refine Upd.cutU (z := z.1) ?_ (fun hz => ?_); subst z; rotate_left; clear_value z; all_goals have z := trivial)
    | (extract_lets +onlyGivenNames z; clear_value z; have z := trivial)
    | (with_reducible apply Upd.ite)
    | (with_reducible apply Upd.inc; decide)
    | (with_reducible apply State.jobEvent_upd; decide)
    | (with_reducible apply Upd.fst; assumption)
    | simp (disch := decide) only [Upd.mk1_iff, Upd.out_iff]
    | split

theorem State.selectJob_upd (s : State) (source : Nat) (i : Nat) (immed : Bool) {W P : Nat} {r_ : State} (hm : (subMask 0x101180111010001100023 W && subMask 0x1ccc03 P) = true) (k_ : Upd W P r_ s) :
    Upd W P r_ (State.selectJob s source i immed).1 := by
  refine Upd.via (w := 0x101180111010001100023) (p := 0x1ccc03) ?_ hm k_
  clear hm k_
  unfold State.selectJob
  repeat' first
    | (with_reducible exact Upd.refl _)
    | with_reducible assumption
    | (extract_lets +onlyGivenNames z; refine Upd.cutU (z := z) ?_ (fun hz => ?_); subst z; rotate_left; clear_value z; all_goals have z := trivial)
    | (extract_lets +onlyGivenNames z; refine Upd.cutU (z := z.1) ?_ (fun hz => ?_); subst z; rotate_left; clear_value z; all_goals have z := trivial)
    | (extract_lets +onlyGivenNames z; clear_value z; have z := trivial)
    | (with_reducible apply Upd.ite)
    | (with_reducible apply Upd.iteFst)
    | (with_reducible apply State.cancelNext_upd; decide)
    | (with_reducible apply Upd.inc; decide)
    | (with_reducible apply State.latchSel_upd; decide)
    | (with_reducible apply State.leaderCancel_upd; decide)
    | (with_reducible apply State.loadFail_upd; decide)
    | (with_reducible apply Upd.set; decide)
    | (with_reducible apply State.startLoad_upd; decide)
    | (with_reducible apply State.tryArm_upd; decide)
    | (with_reducible apply Upd.fst; assumption)
    | simp (disch := first | decide | rfl | (apply And.intro <;> first | decide | rfl | (apply And.intro <;> rfl))) only [Upd.mk1_iff, Upd.egr_iff, Upd.brg_iff, Upd.job_iff, Upd.fab_iff, Upd.mgt_iff, Upd.sec_iff, Upd.out_iff]
    | split

theorem State.prepareJob_upd (s : State) (m : Nat) (job : Nat) (num : Nat) {W P : Nat} {r_ : State} (hm : (subMask 0x101180111010000000021 W && subMask 0x14cc03 P) = true) (k_ : Upd W P r_ s) :
    Upd W P r_ (State.prepareJob s m job num).1 := by
  refine Upd.via (w := 0x101180111010000000021) (p := 0x14cc03) ?_ hm k_
  clear hm k_
  unfold State.prepareJob
  repeat' first
    | (with_reducible exact Upd.refl _)
    | with_reducible assumption
    | (extract_lets +onlyGivenNames z; refine Upd.cutU (z := z) ?_ (fun hz => ?_); subst z; rotate_left; clear_value z; all_goals have z := trivial)
    | (extract_lets +onlyGivenNames z; refine Upd.cutU (z := z.1) ?_ (fun hz => ?_); subst z; rotate_left; clear_value z; all_goals have z := trivial)
    | (extract_lets +onlyGivenNames z; clear_value z; have z := trivial)
    | (with_reducible apply Upd.ite)
    | (with_reducible apply Upd.iteFst)
    | (with_reducible apply State.cancelNext_upd; decide)
    | (with_reducible apply State.latchSel_upd; decide)
    | (with_reducible apply State.loadFail_upd; decide)
    | (with_reducible apply State.startLoad_upd; decide)
    | (with_reducible apply Upd.fst; assumption)
    | simp (disch := first | decide | rfl | (apply And.intro <;> first | decide | rfl | (apply And.intro <;> rfl))) only [Upd.mk1_iff, Upd.egr_iff, Upd.brg_iff, Upd.job_iff, Upd.fab_iff, Upd.mgt_iff, Upd.out_iff]
    | split

theorem State.armMessage_upd (s : State) (m : Nat) (job : Nat) (tarm : Nat) {W P : Nat} {r_ : State} (hm : (subMask 0x100080111010001100023 W && subMask 0x184002 P) = true) (k_ : Upd W P r_ s) :
    Upd W P r_ (State.armMessage s m job tarm).1 := by
  refine Upd.via (w := 0x100080111010001100023) (p := 0x184002) ?_ hm k_
  clear hm k_
  unfold State.armMessage
  repeat' first
    | (with_reducible exact Upd.refl _)
    | with_reducible assumption
    | (extract_lets +onlyGivenNames z; refine Upd.cutU (z := z) ?_ (fun hz => ?_); subst z; rotate_left; clear_value z; all_goals have z := trivial)
    | (extract_lets +onlyGivenNames z; refine Upd.cutU (z := z.1) ?_ (fun hz => ?_); subst z; rotate_left; clear_value z; all_goals have z := trivial)
    | (extract_lets +onlyGivenNames z; clear_value z; have z := trivial)
    | (with_reducible apply Upd.ite)
    | (with_reducible apply Upd.iteFst)
    | (with_reducible apply State.armNext_upd; decide)
    | (with_reducible apply State.loadStop_upd; decide)
    | (with_reducible apply Upd.fst; assumption)
    | simp (disch := first | decide | rfl | (apply And.intro <;> first | decide | rfl | (apply And.intro <;> rfl))) only [Upd.mk1_iff, Upd.job_iff, Upd.sec_iff, Upd.out_iff]
    | split

theorem State.cancelMessage_upd (s : State) (job : Nat) {W P : Nat} {r_ : State} (hm : (subMask 0x101180111010000000021 W && subMask 0x14cc03 P) = true) (k_ : Upd W P r_ s) :
    Upd W P r_ (State.cancelMessage s job).1 := by
  refine Upd.via (w := 0x101180111010000000021) (p := 0x14cc03) ?_ hm k_
  clear hm k_
  unfold State.cancelMessage
  repeat' first
    | (with_reducible exact Upd.refl _)
    | with_reducible assumption
    | (extract_lets +onlyGivenNames z; refine Upd.cutU (z := z) ?_ (fun hz => ?_); subst z; rotate_left; clear_value z; all_goals have z := trivial)
    | (extract_lets +onlyGivenNames z; refine Upd.cutU (z := z.1) ?_ (fun hz => ?_); subst z; rotate_left; clear_value z; all_goals have z := trivial)
    | (extract_lets +onlyGivenNames z; clear_value z; have z := trivial)
    | (with_reducible apply Upd.ite)
    | (with_reducible apply Upd.iteFst)
    | (with_reducible apply State.cancelNext_upd; decide)
    | (with_reducible apply Upd.fst; assumption)
    | simp (disch := first | decide | rfl | (apply And.intro <;> first | decide | rfl | (apply And.intro <;> rfl))) only [Upd.mk1_iff, Upd.egr_iff, Upd.brg_iff, Upd.job_iff, Upd.fab_iff, Upd.mgt_iff, Upd.out_iff]
    | split

theorem State.serveLatch_upd (s : State) {W P : Nat} {r_ : State} (hm : (subMask 0x101180111010001100023 W && subMask 0x1ccc03 P) = true) (k_ : Upd W P r_ s) :
    Upd W P r_ (State.serveLatch s) := by
  refine Upd.via (w := 0x101180111010001100023) (p := 0x1ccc03) ?_ hm k_
  clear hm k_
  unfold State.serveLatch
  repeat' first
    | (with_reducible exact Upd.refl _)
    | with_reducible assumption
    | (extract_lets +onlyGivenNames z; refine Upd.cutU (z := z) ?_ (fun hz => ?_); subst z; rotate_left; clear_value z; all_goals have z := trivial)
    | (extract_lets +onlyGivenNames z; refine Upd.cutU (z := z.1) ?_ (fun hz => ?_); subst z; rotate_left; clear_value z; all_goals have z := trivial)
    | (extract_lets +onlyGivenNames z; clear_value z; have z := trivial)
    | (with_reducible apply Upd.ite)
    | (with_reducible apply State.armMessage_upd; decide)
    | (with_reducible apply State.cancelMessage_upd; decide)
    | (with_reducible apply State.loadEnded_upd; decide)
    | (with_reducible apply State.prepareJob_upd; decide)
    | (with_reducible apply State.selectJob_upd; decide)
    | (with_reducible apply Upd.set; decide)
    | (with_reducible apply Upd.fst; assumption)
    | simp (disch := first | decide | rfl | (apply And.intro <;> first | decide | rfl | (apply And.intro <;> rfl))) only [Upd.mk1_iff, Upd.egr_iff, Upd.brg_iff, Upd.job_iff, Upd.fab_iff, Upd.mgt_iff, Upd.sec_iff, Upd.out_iff, Upd.job_fab_iff]
    | split

theorem State.putShadow_upd (s : State) (c : Nat) (w : List Nat) {W P : Nat} {r_ : State} (hm : (subMask 0x100000 W && subMask 0x0 P) = true) (k_ : Upd W P r_ s) :
    Upd W P r_ (State.putShadow s c w) := by
  refine Upd.via (w := 0x100000) (p := 0x0) ?_ hm k_
  clear hm k_
  unfold State.putShadow
  repeat' first
    | ((with_reducible apply Upd.foldlPair); simp only [List.all_cons, List.all_nil]; decide)
    | ((with_reducible apply Upd.foldlCopy); simp only [List.all_cons, List.all_nil]; decide)
    | (extract_lets +onlyGivenNames z; have _t : List (Fld × Fld) := z; clear _t; subst z; have z := trivial)
    | (extract_lets +onlyGivenNames z; have _t : List (Fld × Nat) := z; clear _t; subst z; have z := trivial)
    | (with_reducible apply Upd.foldl; intro _ _)
    | (with_reducible apply Upd.foldlFst; intro _ _)
    | (with_reducible exact Upd.refl _)
    | with_reducible assumption
    | (extract_lets +onlyGivenNames z; refine Upd.cutU (z := z) ?_ (fun hz => ?_); subst z; rotate_left; clear_value z; all_goals have z := trivial)
    | (extract_lets +onlyGivenNames z; refine Upd.cutU (z := z.1) ?_ (fun hz => ?_); subst z; rotate_left; clear_value z; all_goals have z := trivial)
    | (extract_lets +onlyGivenNames z; have _t : State → _ := z; clear _t; subst z; have z := trivial)
    | (extract_lets +onlyGivenNames z; have _t : _ → State := z; clear _t; subst z; have z := trivial)
    | (extract_lets +onlyGivenNames z; have _t : _ → _ → State := z; clear _t; subst z; have z := trivial)
    | (extract_lets +onlyGivenNames z; clear_value z; have z := trivial)
    | (with_reducible apply Upd.ite)
    | (with_reducible apply Upd.set; decide)
    | (with_reducible apply Upd.fst; assumption)
    | simp (disch := decide) only [Upd.mk1_iff]
    | split

theorem State.putTrig_upd (s : State) (c : Nat) (w : List Nat) {W P : Nat} {r_ : State} (hm : (subMask 0x20 W && subMask 0x0 P) = true) (k_ : Upd W P r_ s) :
    Upd W P r_ (State.putTrig s c w) := by
  refine Upd.via (w := 0x20) (p := 0x0) ?_ hm k_
  clear hm k_
  unfold State.putTrig
  repeat' first
    | ((with_reducible apply Upd.foldlPair); simp only [List.all_cons, List.all_nil]; decide)
    | ((with_reducible apply Upd.foldlCopy); simp only [List.all_cons, List.all_nil]; decide)
    | (extract_lets +onlyGivenNames z; have _t : List (Fld × Fld) := z; clear _t; subst z; have z := trivial)
    | (extract_lets +onlyGivenNames z; have _t : List (Fld × Nat) := z; clear _t; subst z; have z := trivial)
    | (with_reducible apply Upd.foldl; intro _ _)
    | (with_reducible apply Upd.foldlFst; intro _ _)
    | (with_reducible exact Upd.refl _)
    | with_reducible assumption
    | (extract_lets +onlyGivenNames z; refine Upd.cutU (z := z) ?_ (fun hz => ?_); subst z; rotate_left; clear_value z; all_goals have z := trivial)
    | (extract_lets +onlyGivenNames z; refine Upd.cutU (z := z.1) ?_ (fun hz => ?_); subst z; rotate_left; clear_value z; all_goals have z := trivial)
    | (extract_lets +onlyGivenNames z; have _t : State → _ := z; clear _t; subst z; have z := trivial)
    | (extract_lets +onlyGivenNames z; have _t : _ → State := z; clear _t; subst z; have z := trivial)
    | (extract_lets +onlyGivenNames z; have _t : _ → _ → State := z; clear _t; subst z; have z := trivial)
    | (extract_lets +onlyGivenNames z; clear_value z; have z := trivial)
    | (with_reducible apply Upd.ite)
    | (with_reducible apply Upd.set; decide)
    | (with_reducible apply Upd.fst; assumption)
    | simp (disch := decide) only [Upd.mk1_iff]
    | split

theorem State.loadCtx_upd (s : State) (c : Nat) (data : List Nat) {W P : Nat} {r_ : State} (hm : (subMask 0x100000010000100001 W && subMask 0x140c03 P) = true) (k_ : Upd W P r_ s) :
    Upd W P r_ (State.loadCtx s c data).1 := by
  refine Upd.via (w := 0x100000010000100001) (p := 0x140c03) ?_ hm k_
  clear hm k_
  unfold State.loadCtx
  repeat' first
    | (with_reducible exact Upd.refl _)
    | with_reducible assumption
    | (extract_lets +onlyGivenNames z; refine Upd.cutU (z := z) ?_ (fun hz => ?_); subst z; rotate_left; clear_value z; all_goals have z := trivial)
    | (extract_lets +onlyGivenNames z; refine Upd.cutU (z := z.1) ?_ (fun hz => ?_); subst z; rotate_left; clear_value z; all_goals have z := trivial)
    | (extract_lets +onlyGivenNames z; clear_value z; have z := trivial)
    | (with_reducible apply Upd.ite)
    | (with_reducible apply Upd.iteFst)
    | (with_reducible apply State.putBytes_upd; decide)
    | (with_reducible apply Upd.set; decide)
    | (with_reducible apply effCtxGo_upd; decide)
    | (with_reducible apply Upd.fst; assumption)
    | simp (disch := first | decide | rfl | (apply And.intro <;> first | decide | rfl | (apply And.intro <;> rfl))) only [Upd.mk1_iff, Upd.egr_iff, Upd.brg_iff, Upd.mgt_iff, Upd.out_iff]
    | split

theorem State.loadChannel_upd (s : State) (h : List Nat) (c : Nat) {W P : Nat} {r_ : State} (hm : (subMask 0x100020 W && subMask 0x0 P) = true) (k_ : Upd W P r_ s) :
    Upd W P r_ (State.loadChannel s h c).1 := by
  refine Upd.via (w := 0x100020) (p := 0x0) ?_ hm k_
  clear hm k_
  unfold State.loadChannel
  repeat' first
    | (with_reducible exact Upd.refl _)
    | with_reducible assumption
    | (extract_lets +onlyGivenNames z; refine Upd.cutU (z := z) ?_ (fun hz => ?_); subst z; rotate_left; clear_value z; all_goals have z := trivial)
    | (extract_lets +onlyGivenNames z; refine Upd.cutU (z := z.1) ?_ (fun hz => ?_); subst z; rotate_left; clear_value z; all_goals have z := trivial)
    | (extract_lets +onlyGivenNames z; clear_value z; have z := trivial)
    | (with_reducible apply Upd.ite)
    | (with_reducible apply Upd.iteFst)
    | (with_reducible apply State.putShadow_upd; decide)
    | (with_reducible apply State.putTrig_upd; decide)
    | (with_reducible apply Upd.set; decide)
    | (with_reducible apply Upd.fst; assumption)
    | simp (disch := decide) only [Upd.mk1_iff]
    | split

theorem State.loadLayout_upd (s : State) (k : Nat) (data : List Nat) {W P : Nat} {r_ : State} (hm : (subMask 0x100001000000000001 W && subMask 0x140c03 P) = true) (k_ : Upd W P r_ s) :
    Upd W P r_ (State.loadLayout s k data).1 := by
  refine Upd.via (w := 0x100001000000000001) (p := 0x140c03) ?_ hm k_
  clear hm k_
  unfold State.loadLayout
  repeat' first
    | (with_reducible exact Upd.refl _)
    | with_reducible assumption
    | (extract_lets +onlyGivenNames z; refine Upd.cutU (z := z) ?_ (fun hz => ?_); subst z; rotate_left; clear_value z; all_goals have z := trivial)
    | (extract_lets +onlyGivenNames z; refine Upd.cutU (z := z.1) ?_ (fun hz => ?_); subst z; rotate_left; clear_value z; all_goals have z := trivial)
    | (extract_lets +onlyGivenNames z; clear_value z; have z := trivial)
    | (with_reducible apply Upd.ite)
    | (with_reducible apply Upd.iteFst)
    | (with_reducible apply State.putBytes_upd; decide)
    | (with_reducible apply Upd.set; decide)
    | (with_reducible apply effMrgGo_upd; decide)
    | (with_reducible apply Upd.fst; assumption)
    | simp (disch := first | decide | rfl | (apply And.intro <;> first | decide | rfl | (apply And.intro <;> rfl))) only [Upd.mk1_iff, Upd.egr_iff, Upd.brg_iff, Upd.mgt_iff, Upd.out_iff]
    | split

theorem State.loadCmp_upd (s : State) (k : Nat) (sl : Nat) (data : List Nat) {W P : Nat} {r_ : State} (hm : (subMask 0x100010000000000001 W && subMask 0x140c03 P) = true) (k_ : Upd W P r_ s) :
    Upd W P r_ (State.loadCmp s k sl data).1 := by
  refine Upd.via (w := 0x100010000000000001) (p := 0x140c03) ?_ hm k_
  clear hm k_
  unfold State.loadCmp
  repeat' first
    | (with_reducible exact Upd.refl _)
    | with_reducible assumption
    | (extract_lets +onlyGivenNames z; refine Upd.cutU (z := z) ?_ (fun hz => ?_); subst z; rotate_left; clear_value z; all_goals have z := trivial)
    | (extract_lets +onlyGivenNames z; refine Upd.cutU (z := z.1) ?_ (fun hz => ?_); subst z; rotate_left; clear_value z; all_goals have z := trivial)
    | (extract_lets +onlyGivenNames z; clear_value z; have z := trivial)
    | (with_reducible apply Upd.ite)
    | (with_reducible apply Upd.iteFst)
    | (with_reducible apply State.putBytes_upd; decide)
    | (with_reducible apply Upd.set; decide)
    | (with_reducible apply effRefGo_upd; decide)
    | (with_reducible apply Upd.fst; assumption)
    | simp (disch := first | decide | rfl | (apply And.intro <;> first | decide | rfl | (apply And.intro <;> rfl))) only [Upd.mk1_iff, Upd.egr_iff, Upd.brg_iff, Upd.mgt_iff, Upd.out_iff]
    | split

theorem State.loadRef_upd (s : State) (sl : Nat) (data : List Nat) (digest : List Nat) {W P : Nat} {r_ : State} (hm : (subMask 0x100000010000000000001 W && subMask 0x500003 P) = true) (k_ : Upd W P r_ s) :
    Upd W P r_ (State.loadRef s sl data digest).1 := by
  refine Upd.via (w := 0x100000010000000000001) (p := 0x500003) ?_ hm k_
  clear hm k_
  unfold State.loadRef
  repeat' first
    | (with_reducible exact Upd.refl _)
    | with_reducible assumption
    | (extract_lets +onlyGivenNames z; refine Upd.cutU (z := z) ?_ (fun hz => ?_); subst z; rotate_left; clear_value z; all_goals have z := trivial)
    | (extract_lets +onlyGivenNames z; refine Upd.cutU (z := z.1) ?_ (fun hz => ?_); subst z; rotate_left; clear_value z; all_goals have z := trivial)
    | (extract_lets +onlyGivenNames z; clear_value z; have z := trivial)
    | (with_reducible apply Upd.ite)
    | (with_reducible apply Upd.iteFst)
    | (with_reducible apply State.blockWrite_upd; decide)
    | (with_reducible apply Upd.set; decide)
    | (with_reducible apply Upd.fst; assumption)
    | simp (disch := decide) only [Upd.mk1_iff, Upd.out_iff, Upd.bad_iff]
    | split

theorem Try.andThen_upd {w p : Nat} {r : State} {t : Try} {g : State → Try} (h : Upd w p r t.1)
    (hg : ∀ s, Upd w p s (g s).1) : Upd w p r (t.andThen g).1 := by
  unfold Try.andThen
  split
  · exact h.trans (hg t.1)
  · exact h

theorem State.loadBanks_upd (s : State) (h : List Nat) (ref : List Nat) {W P : Nat} {r_ : State} (hm : (subMask 0x100100011010000100021 W && subMask 0x540c03 P) = true) (k_ : Upd W P r_ s) :
    Upd W P r_ (State.loadBanks s h ref).1 := by
  refine Upd.via (w := 0x100100011010000100021) (p := 0x540c03) ?_ hm k_
  clear hm k_
  unfold State.loadBanks
  extract_lets digest sl each t1 t2 t3 t4 fits
  have each_upd : ∀ (t : Nat) (g : State → Section → Try), (∀ s q, Upd 0x100100011010000100021 0x540c03 s (g s q).1) →
      ∀ s, Upd 0x100100011010000100021 0x540c03 s (each t g s).1 := by
    intro t g hg s
    apply Upd.foldlFst (fun r q => ?_) (Upd.refl s)
    exact Try.andThen_upd (Upd.refl _) fun s => hg s q
  have h1 : Upd 0x100100011010000100021 0x540c03 s t1.1 := each_upd _ _ (fun s q => State.loadCtx_upd _ _ _ (by decide) (Upd.refl s)) s
  have h2 : Upd 0x100100011010000100021 0x540c03 s t2.1 := Try.andThen_upd h1 fun s => Upd.foldlFst (fun r c =>
    Try.andThen_upd (Upd.refl _) fun s => State.loadChannel_upd _ _ _ (by decide) (Upd.refl s)) (Upd.refl s)
  have h3 : Upd 0x100100011010000100021 0x540c03 s t3.1 := Try.andThen_upd h2 fun s =>
    each_upd _ _ (fun s q => State.loadLayout_upd _ _ _ (by decide) (Upd.refl s)) s
  have h4 : Upd 0x100100011010000100021 0x540c03 s t4.1 := Try.andThen_upd h3 fun s => State.loadRef_upd _ _ _ _ (by decide) (Upd.refl s)
  exact Try.andThen_upd h4 fun s => each_upd _ _ (fun s q => by
    split
    · exact State.loadCmp_upd _ _ _ _ (by decide) (Upd.refl s)
    · exact Upd.refl s) s

theorem State.peerAnswer_upd (s : State) (a : FabAnswer) {W P : Nat} {r_ : State} (hm : (subMask 0x101180111010101100023 W && subMask 0x1ccc03 P) = true) (k_ : Upd W P r_ s) :
    Upd W P r_ (State.peerAnswer s a) := by
  refine Upd.via (w := 0x101180111010101100023) (p := 0x1ccc03) ?_ hm k_
  clear hm k_
  unfold State.peerAnswer
  repeat' first
    | (with_reducible exact Upd.refl _)
    | with_reducible assumption
    | (extract_lets +onlyGivenNames z; refine Upd.cutU (z := z) ?_ (fun hz => ?_); subst z; rotate_left; clear_value z; all_goals have z := trivial)
    | (extract_lets +onlyGivenNames z; refine Upd.cutU (z := z.1) ?_ (fun hz => ?_); subst z; rotate_left; clear_value z; all_goals have z := trivial)
    | (extract_lets +onlyGivenNames z; clear_value z; have z := trivial)
    | (with_reducible apply Upd.ite)
    | (with_reducible apply State.answer_upd; decide)
    | (with_reducible apply State.busy_upd; decide)
    | (with_reducible apply Upd.inc; decide)
    | (with_reducible apply State.jobEvent_upd; decide)
    | (with_reducible apply State.leaderCancel_upd; decide)
    | (with_reducible apply State.peerSend_upd; decide)
    | (with_reducible apply Upd.set; decide)
    | (with_reducible apply State.setRefuse_upd; decide)
    | (with_reducible apply State.tryArm_upd; decide)
    | (with_reducible apply Upd.fst; assumption)
    | simp (disch := first | decide | rfl | (apply And.intro <;> first | decide | rfl | (apply And.intro <;> rfl))) only [Upd.mk1_iff, Upd.egr_iff, Upd.brg_iff, Upd.job_iff, Upd.fab_iff, Upd.mgt_iff, Upd.sec_iff, Upd.out_iff]
    | split

theorem State.jobAnswers_upd (s : State) {W P : Nat} {r_ : State} (hm : (subMask 0x101180111010101100023 W && subMask 0x1ccc03 P) = true) (k_ : Upd W P r_ s) :
    Upd W P r_ (State.jobAnswers s) := by
  refine Upd.via (w := 0x101180111010101100023) (p := 0x1ccc03) ?_ hm k_
  clear hm k_
  unfold State.jobAnswers
  repeat' first
    | (with_reducible apply Upd.foldl; intro _ _)
    | (with_reducible apply Upd.foldlFst; intro _ _)
    | (with_reducible exact Upd.refl _)
    | with_reducible assumption
    | (extract_lets +onlyGivenNames z; refine Upd.cutU (z := z) ?_ (fun hz => ?_); subst z; rotate_left; clear_value z; all_goals have z := trivial)
    | (extract_lets +onlyGivenNames z; refine Upd.cutU (z := z.1) ?_ (fun hz => ?_); subst z; rotate_left; clear_value z; all_goals have z := trivial)
    | (extract_lets +onlyGivenNames z; clear_value z; have z := trivial)
    | (with_reducible apply Upd.ite)
    | (with_reducible apply State.peerAnswer_upd; decide)
    | (with_reducible apply Upd.fst; assumption)
    | simp (disch := first | decide | rfl | (apply And.intro <;> first | decide | rfl | (apply And.intro <;> rfl))) only [Upd.mk1_iff, Upd.egr_iff, Upd.brg_iff, Upd.job_iff, Upd.fab_iff, Upd.mgt_iff, Upd.sec_iff, Upd.out_iff]
    | split

end Sys2Proof.Machine
end

