-- ==== Sys2Proof/Laws/UpdJob.lean ====
section
/-! SUPPORT. What each operation of Machine/Job.lean may change (see Laws/Upd.lean). -/

set_option linter.unusedSimpArgs false
set_option linter.tactic.unusedName false

namespace Sys2Proof.Machine

theorem execJobStb_upd (i : Nat) (s : State) {W P : Nat} (hm : (subMask 0x101180111010001100023 W && subMask 0x1ccc03 P) = true) :
    NextUpd W P s (execJobStb i s) := by
  refine NextUpd.mono (w := 0x101180111010001100023) (p := 0x1ccc03) ?_ hm
  unfold execJobStb
  repeat' first
    | (with_reducible exact Upd.refl _)
    | with_reducible assumption
    | (extract_lets +onlyGivenNames z; refine Upd.cutU (z := z) ?_ (fun hz => ?_); subst z; rotate_left; clear_value z; all_goals have z := trivial)
    | (extract_lets +onlyGivenNames z; refine Upd.cutU (z := z.1) ?_ (fun hz => ?_); subst z; rotate_left; clear_value z; all_goals have z := trivial)
    | (extract_lets +onlyGivenNames z; refine NextUpd.cutU (z := z) ?_ (fun hz => ?_); subst z; rotate_left; clear_value z; all_goals have z := trivial)
    | (extract_lets +onlyGivenNames z; refine NextUpd.cutU (z := z.1) ?_ (fun hz => ?_); subst z; rotate_left; clear_value z; all_goals have z := trivial)
    | (extract_lets +onlyGivenNames z; clear_value z; have z := trivial)
    | (with_reducible apply NextUpd.next)
    | (with_reducible apply NextUpd.ite)
    | (with_reducible apply Upd.ite)
    | (with_reducible apply Upd.inc; decide)
    | (with_reducible apply State.jobEvent_upd; decide)
    | (with_reducible apply State.latchSel_upd; decide)
    | (with_reducible apply State.selectJob_upd; decide)
    | (with_reducible apply Upd.fst; assumption)
    | simp (disch := first | decide | rfl | (apply And.intro <;> first | decide | rfl | (apply And.intro <;> rfl))) only [Upd.mk1_iff, Upd.egr_iff, Upd.brg_iff, Upd.job_iff, Upd.fab_iff, Upd.mgt_iff, Upd.sec_iff, Upd.out_iff]
    | split

theorem execDrainDone_upd (s : State) {W P : Nat} (hm : (subMask 0x101180111010001100023 W && subMask 0x1ccc03 P) = true) :
    NextUpd W P s (execDrainDone s) := by
  refine NextUpd.mono (w := 0x101180111010001100023) (p := 0x1ccc03) ?_ hm
  unfold execDrainDone
  repeat' first
    | (with_reducible exact Upd.refl _)
    | with_reducible assumption
    | (extract_lets +onlyGivenNames z; refine Upd.cutU (z := z) ?_ (fun hz => ?_); subst z; rotate_left; clear_value z; all_goals have z := trivial)
    | (extract_lets +onlyGivenNames z; refine Upd.cutU (z := z.1) ?_ (fun hz => ?_); subst z; rotate_left; clear_value z; all_goals have z := trivial)
    | (extract_lets +onlyGivenNames z; refine NextUpd.cutU (z := z) ?_ (fun hz => ?_); subst z; rotate_left; clear_value z; all_goals have z := trivial)
    | (extract_lets +onlyGivenNames z; refine NextUpd.cutU (z := z.1) ?_ (fun hz => ?_); subst z; rotate_left; clear_value z; all_goals have z := trivial)
    | (extract_lets +onlyGivenNames z; clear_value z; have z := trivial)
    | (with_reducible apply NextUpd.next)
    | (with_reducible apply NextUpd.ite)
    | (with_reducible apply Upd.ite)
    | (with_reducible apply State.jobEvent_upd; decide)
    | (with_reducible apply State.serveLatch_upd; decide)
    | (with_reducible apply Upd.set; decide)
    | (with_reducible apply Upd.fst; assumption)
    | simp (disch := first | decide | rfl | (apply And.intro <;> first | decide | rfl | (apply And.intro <;> rfl))) only [Upd.mk1_iff, Upd.egr_iff, Upd.brg_iff, Upd.job_iff, Upd.fab_iff, Upd.mgt_iff, Upd.sec_iff, Upd.out_iff]
    | split

theorem execStartEntrySelect_upd (s : State) {W P : Nat} (hm : (subMask 0x101180111010001100023 W && subMask 0x1ccc03 P) = true) :
    NextUpd W P s (execStartEntrySelect s) := by
  refine NextUpd.mono (w := 0x101180111010001100023) (p := 0x1ccc03) ?_ hm
  unfold execStartEntrySelect
  repeat' first
    | (with_reducible exact Upd.refl _)
    | with_reducible assumption
    | (extract_lets +onlyGivenNames z; refine Upd.cutU (z := z) ?_ (fun hz => ?_); subst z; rotate_left; clear_value z; all_goals have z := trivial)
    | (extract_lets +onlyGivenNames z; refine Upd.cutU (z := z.1) ?_ (fun hz => ?_); subst z; rotate_left; clear_value z; all_goals have z := trivial)
    | (extract_lets +onlyGivenNames z; refine NextUpd.cutU (z := z) ?_ (fun hz => ?_); subst z; rotate_left; clear_value z; all_goals have z := trivial)
    | (extract_lets +onlyGivenNames z; refine NextUpd.cutU (z := z.1) ?_ (fun hz => ?_); subst z; rotate_left; clear_value z; all_goals have z := trivial)
    | (extract_lets +onlyGivenNames z; clear_value z; have z := trivial)
    | (with_reducible apply NextUpd.next)
    | (with_reducible apply NextUpd.ite)
    | (with_reducible apply Upd.ite)
    | (with_reducible apply State.selectJob_upd; decide)
    | (with_reducible apply Upd.fst; assumption)
    | simp (disch := first | decide | rfl | (apply And.intro <;> first | decide | rfl | (apply And.intro <;> rfl))) only [Upd.mk1_iff, Upd.egr_iff, Upd.brg_iff, Upd.job_iff, Upd.fab_iff, Upd.mgt_iff, Upd.sec_iff, Upd.out_iff]
    | split

theorem effJobSelect_upd (i : Nat) (src : Src) (s : State) {W P : Nat} {r_ : State} (hm : (subMask 0x101180111010001100023 W && subMask 0x1ccc03 P) = true) (k_ : Upd W P r_ s) :
    Upd W P r_ (effJobSelect i src s) := by
  refine Upd.via (w := 0x101180111010001100023) (p := 0x1ccc03) ?_ hm k_
  clear hm k_
  unfold effJobSelect
  repeat' first
    | (with_reducible exact Upd.refl _)
    | with_reducible assumption
    | (extract_lets +onlyGivenNames z; refine Upd.cutU (z := z) ?_ (fun hz => ?_); subst z; rotate_left; clear_value z; all_goals have z := trivial)
    | (extract_lets +onlyGivenNames z; refine Upd.cutU (z := z.1) ?_ (fun hz => ?_); subst z; rotate_left; clear_value z; all_goals have z := trivial)
    | (extract_lets +onlyGivenNames z; clear_value z; have z := trivial)
    | (with_reducible apply Upd.ite)
    | (with_reducible apply State.answer_upd; decide)
    | (with_reducible apply State.selectJob_upd; decide)
    | (with_reducible apply Upd.fst; assumption)
    | simp (disch := first | decide | rfl | (apply And.intro <;> first | decide | rfl | (apply And.intro <;> rfl))) only [Upd.mk1_iff, Upd.egr_iff, Upd.brg_iff, Upd.job_iff, Upd.fab_iff, Upd.mgt_iff, Upd.sec_iff, Upd.out_iff]
    | split

theorem execJobSelect_upd (i : Nat) (src : Src) (s : State) {W P : Nat} (hm : (subMask 0x101180111010001100023 W && subMask 0x1ccc03 P) = true) :
    NextUpd W P s (execJobSelect i src s) := by
  refine NextUpd.mono (w := 0x101180111010001100023) (p := 0x1ccc03) ?_ hm
  unfold execJobSelect
  repeat' first
    | (with_reducible exact Upd.refl _)
    | with_reducible assumption
    | (extract_lets +onlyGivenNames z; refine Upd.cutU (z := z) ?_ (fun hz => ?_); subst z; rotate_left; clear_value z; all_goals have z := trivial)
    | (extract_lets +onlyGivenNames z; refine Upd.cutU (z := z.1) ?_ (fun hz => ?_); subst z; rotate_left; clear_value z; all_goals have z := trivial)
    | (extract_lets +onlyGivenNames z; refine NextUpd.cutU (z := z) ?_ (fun hz => ?_); subst z; rotate_left; clear_value z; all_goals have z := trivial)
    | (extract_lets +onlyGivenNames z; refine NextUpd.cutU (z := z.1) ?_ (fun hz => ?_); subst z; rotate_left; clear_value z; all_goals have z := trivial)
    | (extract_lets +onlyGivenNames z; clear_value z; have z := trivial)
    | (with_reducible apply NextUpd.next)
    | (with_reducible apply NextUpd.ite)
    | (with_reducible apply Upd.ite)
    | (with_reducible apply State.answer_upd; decide)
    | (with_reducible apply State.loadFail_upd; decide)
    | (with_reducible apply State.recorded_upd; decide; intro _)
    | (with_reducible apply effJobSelect_upd; decide)
    | (with_reducible apply Upd.fst; assumption)
    | simp (disch := first | decide | rfl | (apply And.intro <;> first | decide | rfl | (apply And.intro <;> rfl))) only [Upd.mk1_iff, Upd.egr_iff, Upd.brg_iff, Upd.job_iff, Upd.fab_iff, Upd.mgt_iff, Upd.sec_iff, Upd.out_iff]
    | split

theorem effJobLoad_upd (num : Nat) (src : Src) (s : State) {W P : Nat} {r_ : State} (hm : (subMask 0x1100000000000000021 W && subMask 0x14cc03 P) = true) (k_ : Upd W P r_ s) :
    Upd W P r_ (effJobLoad num src s) := by
  refine Upd.via (w := 0x1100000000000000021) (p := 0x14cc03) ?_ hm k_
  clear hm k_
  unfold effJobLoad
  repeat' first
    | (with_reducible exact Upd.refl _)
    | with_reducible assumption
    | (extract_lets +onlyGivenNames z; refine Upd.cutU (z := z) ?_ (fun hz => ?_); subst z; rotate_left; clear_value z; all_goals have z := trivial)
    | (extract_lets +onlyGivenNames z; refine Upd.cutU (z := z.1) ?_ (fun hz => ?_); subst z; rotate_left; clear_value z; all_goals have z := trivial)
    | (extract_lets +onlyGivenNames z; clear_value z; have z := trivial)
    | (with_reducible apply Upd.ite)
    | (with_reducible apply State.answer_upd; decide)
    | (with_reducible apply State.startLoad_upd; decide)
    | (with_reducible apply Upd.fst; assumption)
    | simp (disch := first | decide | rfl | (apply And.intro <;> first | decide | rfl | (apply And.intro <;> rfl))) only [Upd.mk1_iff, Upd.egr_iff, Upd.brg_iff, Upd.job_iff, Upd.fab_iff, Upd.mgt_iff, Upd.out_iff]
    | split

theorem execJobLoad_upd (num : Nat) (src : Src) (s : State) {W P : Nat} (hm : (subMask 0x1100000000000000023 W && subMask 0x1ccc03 P) = true) :
    NextUpd W P s (execJobLoad num src s) := by
  refine NextUpd.mono (w := 0x1100000000000000023) (p := 0x1ccc03) ?_ hm
  unfold execJobLoad
  repeat' first
    | (with_reducible exact Upd.refl _)
    | with_reducible assumption
    | (extract_lets +onlyGivenNames z; refine Upd.cutU (z := z) ?_ (fun hz => ?_); subst z; rotate_left; clear_value z; all_goals have z := trivial)
    | (extract_lets +onlyGivenNames z; refine Upd.cutU (z := z.1) ?_ (fun hz => ?_); subst z; rotate_left; clear_value z; all_goals have z := trivial)
    | (extract_lets +onlyGivenNames z; refine NextUpd.cutU (z := z) ?_ (fun hz => ?_); subst z; rotate_left; clear_value z; all_goals have z := trivial)
    | (extract_lets +onlyGivenNames z; refine NextUpd.cutU (z := z.1) ?_ (fun hz => ?_); subst z; rotate_left; clear_value z; all_goals have z := trivial)
    | (extract_lets +onlyGivenNames z; clear_value z; have z := trivial)
    | (with_reducible apply NextUpd.next)
    | (with_reducible apply NextUpd.ite)
    | (with_reducible apply Upd.ite)
    | (with_reducible apply State.answer_upd; decide)
    | (with_reducible apply State.recorded_upd; decide; intro _)
    | (with_reducible apply effJobLoad_upd; decide)
    | (with_reducible apply Upd.fst; assumption)
    | simp (disch := first | decide | rfl | (apply And.intro <;> first | decide | rfl | (apply And.intro <;> rfl))) only [Upd.mk1_iff, Upd.egr_iff, Upd.brg_iff, Upd.job_iff, Upd.fab_iff, Upd.mgt_iff, Upd.sec_iff, Upd.out_iff]
    | split

theorem State.armCommand_upd (s : State) (m : Nat) (immediate : Bool) {W P : Nat} {r_ : State} (hm : (subMask 0x101180111010001100023 W && subMask 0x1ccc03 P) = true) (k_ : Upd W P r_ s) :
    Upd W P r_ (State.armCommand s m immediate).1 := by
  refine Upd.via (w := 0x101180111010001100023) (p := 0x1ccc03) ?_ hm k_
  clear hm k_
  unfold State.armCommand
  repeat' first
    | (with_reducible exact Upd.refl _)
    | with_reducible assumption
    | (extract_lets +onlyGivenNames z; refine Upd.cutU (z := z) ?_ (fun hz => ?_); subst z; rotate_left; clear_value z; all_goals have z := trivial)
    | (extract_lets +onlyGivenNames z; refine Upd.cutU (z := z.1) ?_ (fun hz => ?_); subst z; rotate_left; clear_value z; all_goals have z := trivial)
    | (extract_lets +onlyGivenNames z; clear_value z; have z := trivial)
    | (with_reducible apply Upd.ite)
    | (with_reducible apply Upd.iteFst)
    | (with_reducible apply State.armNext_upd; decide)
    | (with_reducible apply Upd.set; decide)
    | (with_reducible apply State.tryArm_upd; decide)
    | (with_reducible apply Upd.fst; assumption)
    | simp (disch := first | decide | rfl | (apply And.intro <;> first | decide | rfl | (apply And.intro <;> rfl))) only [Upd.mk1_iff, Upd.egr_iff, Upd.brg_iff, Upd.job_iff, Upd.fab_iff, Upd.mgt_iff, Upd.sec_iff, Upd.out_iff]
    | split

theorem effJobArm_upd (m : Nat) (immediate : Bool) (src : Src) (s : State) {W P : Nat} {r_ : State} (hm : (subMask 0x101180111010001100023 W && subMask 0x1ccc03 P) = true) (k_ : Upd W P r_ s) :
    Upd W P r_ (effJobArm m immediate src s) := by
  refine Upd.via (w := 0x101180111010001100023) (p := 0x1ccc03) ?_ hm k_
  clear hm k_
  unfold effJobArm
  repeat' first
    | (with_reducible exact Upd.refl _)
    | with_reducible assumption
    | (extract_lets +onlyGivenNames z; refine Upd.cutU (z := z) ?_ (fun hz => ?_); subst z; rotate_left; clear_value z; all_goals have z := trivial)
    | (extract_lets +onlyGivenNames z; refine Upd.cutU (z := z.1) ?_ (fun hz => ?_); subst z; rotate_left; clear_value z; all_goals have z := trivial)
    | (extract_lets +onlyGivenNames z; clear_value z; have z := trivial)
    | (with_reducible apply Upd.ite)
    | (with_reducible apply State.answer_upd; decide)
    | (with_reducible apply State.armCommand_upd; decide)
    | (with_reducible apply State.emit_upd; decide)
    | (with_reducible apply Upd.fst; assumption)
    | simp (disch := first | decide | rfl | (apply And.intro <;> first | decide | rfl | (apply And.intro <;> rfl))) only [Upd.mk1_iff, Upd.egr_iff, Upd.brg_iff, Upd.job_iff, Upd.fab_iff, Upd.mgt_iff, Upd.sec_iff, Upd.out_iff]
    | split

theorem execJobArm_upd (m : Nat) (immediate : Bool) (src : Src) (s : State) {W P : Nat} (hm : (subMask 0x101180111010001100023 W && subMask 0x1ccc03 P) = true) :
    NextUpd W P s (execJobArm m immediate src s) := by
  refine NextUpd.mono (w := 0x101180111010001100023) (p := 0x1ccc03) ?_ hm
  unfold execJobArm
  repeat' first
    | (with_reducible exact Upd.refl _)
    | with_reducible assumption
    | (extract_lets +onlyGivenNames z; refine Upd.cutU (z := z) ?_ (fun hz => ?_); subst z; rotate_left; clear_value z; all_goals have z := trivial)
    | (extract_lets +onlyGivenNames z; refine Upd.cutU (z := z.1) ?_ (fun hz => ?_); subst z; rotate_left; clear_value z; all_goals have z := trivial)
    | (extract_lets +onlyGivenNames z; refine NextUpd.cutU (z := z) ?_ (fun hz => ?_); subst z; rotate_left; clear_value z; all_goals have z := trivial)
    | (extract_lets +onlyGivenNames z; refine NextUpd.cutU (z := z.1) ?_ (fun hz => ?_); subst z; rotate_left; clear_value z; all_goals have z := trivial)
    | (extract_lets +onlyGivenNames z; clear_value z; have z := trivial)
    | (with_reducible apply NextUpd.next)
    | (with_reducible apply NextUpd.ite)
    | (with_reducible apply Upd.ite)
    | (with_reducible apply State.answer_upd; decide)
    | (with_reducible apply State.armNext_upd; decide)
    | (with_reducible apply State.recorded_upd; decide; intro _)
    | (with_reducible apply effJobArm_upd; decide)
    | (with_reducible apply Upd.fst; assumption)
    | simp (disch := first | decide | rfl | (apply And.intro <;> first | decide | rfl | (apply And.intro <;> rfl))) only [Upd.mk1_iff, Upd.egr_iff, Upd.brg_iff, Upd.job_iff, Upd.fab_iff, Upd.mgt_iff, Upd.sec_iff, Upd.out_iff]
    | split

theorem effJobCancel_upd (src : Src) (s : State) {W P : Nat} {r_ : State} (hm : (subMask 0x101180111010000000021 W && subMask 0x14cc03 P) = true) (k_ : Upd W P r_ s) :
    Upd W P r_ (effJobCancel src s) := by
  refine Upd.via (w := 0x101180111010000000021) (p := 0x14cc03) ?_ hm k_
  clear hm k_
  unfold effJobCancel
  repeat' first
    | (with_reducible exact Upd.refl _)
    | with_reducible assumption
    | (extract_lets +onlyGivenNames z; refine Upd.cutU (z := z) ?_ (fun hz => ?_); subst z; rotate_left; clear_value z; all_goals have z := trivial)
    | (extract_lets +onlyGivenNames z; refine Upd.cutU (z := z.1) ?_ (fun hz => ?_); subst z; rotate_left; clear_value z; all_goals have z := trivial)
    | (extract_lets +onlyGivenNames z; clear_value z; have z := trivial)
    | (with_reducible apply Upd.ite)
    | (with_reducible apply State.answer_upd; decide)
    | (with_reducible apply State.cancelNext_upd; decide)
    | (with_reducible apply State.leaderCancel_upd; decide)
    | (with_reducible apply Upd.fst; assumption)
    | simp (disch := first | decide | rfl | (apply And.intro <;> first | decide | rfl | (apply And.intro <;> rfl))) only [Upd.mk1_iff, Upd.egr_iff, Upd.brg_iff, Upd.job_iff, Upd.fab_iff, Upd.mgt_iff, Upd.out_iff]
    | split

theorem execJobCancel_upd (src : Src) (s : State) {W P : Nat} (hm : (subMask 0x101180111010000000023 W && subMask 0x1ccc03 P) = true) :
    NextUpd W P s (execJobCancel src s) := by
  refine NextUpd.mono (w := 0x101180111010000000023) (p := 0x1ccc03) ?_ hm
  unfold execJobCancel
  repeat' first
    | (with_reducible exact Upd.refl _)
    | with_reducible assumption
    | (extract_lets +onlyGivenNames z; refine Upd.cutU (z := z) ?_ (fun hz => ?_); subst z; rotate_left; clear_value z; all_goals have z := trivial)
    | (extract_lets +onlyGivenNames z; refine Upd.cutU (z := z.1) ?_ (fun hz => ?_); subst z; rotate_left; clear_value z; all_goals have z := trivial)
    | (extract_lets +onlyGivenNames z; refine NextUpd.cutU (z := z) ?_ (fun hz => ?_); subst z; rotate_left; clear_value z; all_goals have z := trivial)
    | (extract_lets +onlyGivenNames z; refine NextUpd.cutU (z := z.1) ?_ (fun hz => ?_); subst z; rotate_left; clear_value z; all_goals have z := trivial)
    | (extract_lets +onlyGivenNames z; clear_value z; have z := trivial)
    | (with_reducible apply NextUpd.next)
    | (with_reducible apply NextUpd.ite)
    | (with_reducible apply Upd.ite)
    | (with_reducible apply State.answer_upd; decide)
    | (with_reducible apply State.recorded_upd; decide; intro _)
    | (with_reducible apply effJobCancel_upd; decide)
    | (with_reducible apply Upd.fst; assumption)
    | simp (disch := first | decide | rfl | (apply And.intro <;> first | decide | rfl | (apply And.intro <;> rfl))) only [Upd.mk1_iff, Upd.egr_iff, Upd.brg_iff, Upd.job_iff, Upd.fab_iff, Upd.mgt_iff, Upd.sec_iff, Upd.out_iff]
    | split

theorem State.stopArm_upd (s : State) (m : Nat) (immediate : Bool) {W P : Nat} {r_ : State} (hm : (subMask 0x101080111010001100023 W && subMask 0x18c002 P) = true) (k_ : Upd W P r_ s) :
    Upd W P r_ (State.stopArm s m immediate).1 := by
  refine Upd.via (w := 0x101080111010001100023) (p := 0x18c002) ?_ hm k_
  clear hm k_
  unfold State.stopArm
  repeat' first
    | (with_reducible exact Upd.refl _)
    | with_reducible assumption
    | (extract_lets +onlyGivenNames z; refine Upd.cutU (z := z) ?_ (fun hz => ?_); subst z; rotate_left; clear_value z; all_goals have z := trivial)
    | (extract_lets +onlyGivenNames z; refine Upd.cutU (z := z.1) ?_ (fun hz => ?_); subst z; rotate_left; clear_value z; all_goals have z := trivial)
    | (extract_lets +onlyGivenNames z; clear_value z; have z := trivial)
    | (with_reducible apply Upd.ite)
    | (with_reducible apply Upd.iteFst)
    | (with_reducible apply State.armNext_upd; decide)
    | (with_reducible apply State.leaderSend_upd; decide)
    | (with_reducible apply State.loadStop_upd; decide)
    | (with_reducible apply Upd.fst; assumption)
    | simp (disch := first | decide | rfl | (apply And.intro <;> first | decide | rfl | (apply And.intro <;> rfl))) only [Upd.mk1_iff, Upd.job_iff, Upd.fab_iff, Upd.sec_iff, Upd.out_iff]
    | split

theorem effJobStop_upd (m : Nat) (immediate : Bool) (src : Src) (s : State) {W P : Nat} {r_ : State} (hm : (subMask 0x101180111010001100023 W && subMask 0x1ccc03 P) = true) (k_ : Upd W P r_ s) :
    Upd W P r_ (effJobStop m immediate src s) := by
  refine Upd.via (w := 0x101180111010001100023) (p := 0x1ccc03) ?_ hm k_
  clear hm k_
  unfold effJobStop
  repeat' first
    | (with_reducible exact Upd.refl _)
    | with_reducible assumption
    | (extract_lets +onlyGivenNames z; refine Upd.cutU (z := z) ?_ (fun hz => ?_); subst z; rotate_left; clear_value z; all_goals have z := trivial)
    | (extract_lets +onlyGivenNames z; refine Upd.cutU (z := z.1) ?_ (fun hz => ?_); subst z; rotate_left; clear_value z; all_goals have z := trivial)
    | (extract_lets +onlyGivenNames z; clear_value z; have z := trivial)
    | (with_reducible apply Upd.ite)
    | (with_reducible apply State.answer_upd; decide)
    | (with_reducible apply State.stopArm_upd; decide)
    | (with_reducible apply Upd.fst; assumption)
    | simp (disch := first | decide | rfl | (apply And.intro <;> first | decide | rfl | (apply And.intro <;> rfl))) only [Upd.mk1_iff, Upd.egr_iff, Upd.brg_iff, Upd.job_iff, Upd.fab_iff, Upd.mgt_iff, Upd.sec_iff, Upd.out_iff]
    | split

theorem execJobStop_upd (m : Nat) (immediate : Bool) (src : Src) (s : State) {W P : Nat} (hm : (subMask 0x101180111010001100023 W && subMask 0x1ccc03 P) = true) :
    NextUpd W P s (execJobStop m immediate src s) := by
  refine NextUpd.mono (w := 0x101180111010001100023) (p := 0x1ccc03) ?_ hm
  unfold execJobStop
  repeat' first
    | (with_reducible exact Upd.refl _)
    | with_reducible assumption
    | (extract_lets +onlyGivenNames z; refine Upd.cutU (z := z) ?_ (fun hz => ?_); subst z; rotate_left; clear_value z; all_goals have z := trivial)
    | (extract_lets +onlyGivenNames z; refine Upd.cutU (z := z.1) ?_ (fun hz => ?_); subst z; rotate_left; clear_value z; all_goals have z := trivial)
    | (extract_lets +onlyGivenNames z; refine NextUpd.cutU (z := z) ?_ (fun hz => ?_); subst z; rotate_left; clear_value z; all_goals have z := trivial)
    | (extract_lets +onlyGivenNames z; refine NextUpd.cutU (z := z.1) ?_ (fun hz => ?_); subst z; rotate_left; clear_value z; all_goals have z := trivial)
    | (extract_lets +onlyGivenNames z; clear_value z; have z := trivial)
    | (with_reducible apply NextUpd.next)
    | (with_reducible apply NextUpd.ite)
    | (with_reducible apply Upd.ite)
    | (with_reducible apply State.answer_upd; decide)
    | (with_reducible apply State.recorded_upd; decide; intro _)
    | (with_reducible apply State.stopArm_upd; decide)
    | (with_reducible apply effJobStop_upd; decide)
    | (with_reducible apply Upd.fst; assumption)
    | simp (disch := first | decide | rfl | (apply And.intro <;> first | decide | rfl | (apply And.intro <;> rfl))) only [Upd.mk1_iff, Upd.egr_iff, Upd.brg_iff, Upd.job_iff, Upd.fab_iff, Upd.mgt_iff, Upd.sec_iff, Upd.out_iff]
    | split

theorem execJobQuery_upd (src : Src) (s : State) {W P : Nat} (hm : (subMask 0x100000000000000001 W && subMask 0x140c03 P) = true) :
    NextUpd W P s (execJobQuery src s) := by
  refine NextUpd.mono (w := 0x100000000000000001) (p := 0x140c03) ?_ hm
  unfold execJobQuery
  repeat' first
    | (with_reducible exact Upd.refl _)
    | with_reducible assumption
    | (extract_lets +onlyGivenNames z; refine Upd.cutU (z := z) ?_ (fun hz => ?_); subst z; rotate_left; clear_value z; all_goals have z := trivial)
    | (extract_lets +onlyGivenNames z; refine Upd.cutU (z := z.1) ?_ (fun hz => ?_); subst z; rotate_left; clear_value z; all_goals have z := trivial)
    | (extract_lets +onlyGivenNames z; refine NextUpd.cutU (z := z) ?_ (fun hz => ?_); subst z; rotate_left; clear_value z; all_goals have z := trivial)
    | (extract_lets +onlyGivenNames z; refine NextUpd.cutU (z := z.1) ?_ (fun hz => ?_); subst z; rotate_left; clear_value z; all_goals have z := trivial)
    | (extract_lets +onlyGivenNames z; clear_value z; have z := trivial)
    | (with_reducible apply NextUpd.next)
    | (with_reducible apply NextUpd.ite)
    | (with_reducible apply Upd.ite)
    | (with_reducible apply State.answer_upd; decide)
    | (with_reducible apply State.emit_upd; decide)
    | (with_reducible apply Upd.fst; assumption)
    | simp (disch := first | decide | rfl | (apply And.intro <;> first | decide | rfl | (apply And.intro <;> rfl))) only [Upd.mk1_iff, Upd.egr_iff, Upd.brg_iff, Upd.mgt_iff, Upd.out_iff]
    | split

theorem State.ctrlArm_upd (s : State) (m : Nat) (immediate : Bool) (stop : Bool) {W P : Nat} {r_ : State} (hm : (subMask 0x100080111010001100023 W && subMask 0x184002 P) = true) (k_ : Upd W P r_ s) :
    Upd W P r_ (State.ctrlArm s m immediate stop).1 := by
  refine Upd.via (w := 0x100080111010001100023) (p := 0x184002) ?_ hm k_
  clear hm k_
  unfold State.ctrlArm
  repeat' first
    | (with_reducible exact Upd.refl _)
    | with_reducible assumption
    | (extract_lets +onlyGivenNames z; refine Upd.cutU (z := z) ?_ (fun hz => ?_); subst z; rotate_left; clear_value z; all_goals have z := trivial)
    | (extract_lets +onlyGivenNames z; refine Upd.cutU (z := z.1) ?_ (fun hz => ?_); subst z; rotate_left; clear_value z; all_goals have z := trivial)
    | (extract_lets +onlyGivenNames z; clear_value z; have z := trivial)
    | (with_reducible apply Upd.ite)
    | (with_reducible apply Upd.iteFst)
    | (with_reducible apply State.armNext_upd; decide)
    | (with_reducible apply State.loadStop_upd; decide)
    | (with_reducible apply Upd.fst; assumption)
    | simp (disch := first | decide | rfl | (apply And.intro <;> first | decide | rfl | (apply And.intro <;> rfl))) only [Upd.mk1_iff, Upd.job_iff, Upd.sec_iff, Upd.out_iff]
    | split

theorem execJobCtrlArm_upd (m : Nat) (immediate : Bool) (stop : Bool) (src : Src) (s : State) {W P : Nat} (hm : (subMask 0x100180111010001100023 W && subMask 0x1c4c03 P) = true) :
    NextUpd W P s (execJobCtrlArm m immediate stop src s) := by
  refine NextUpd.mono (w := 0x100180111010001100023) (p := 0x1c4c03) ?_ hm
  unfold execJobCtrlArm
  repeat' first
    | (with_reducible exact Upd.refl _)
    | with_reducible assumption
    | (extract_lets +onlyGivenNames z; refine Upd.cutU (z := z) ?_ (fun hz => ?_); subst z; rotate_left; clear_value z; all_goals have z := trivial)
    | (extract_lets +onlyGivenNames z; refine Upd.cutU (z := z.1) ?_ (fun hz => ?_); subst z; rotate_left; clear_value z; all_goals have z := trivial)
    | (extract_lets +onlyGivenNames z; refine NextUpd.cutU (z := z) ?_ (fun hz => ?_); subst z; rotate_left; clear_value z; all_goals have z := trivial)
    | (extract_lets +onlyGivenNames z; refine NextUpd.cutU (z := z.1) ?_ (fun hz => ?_); subst z; rotate_left; clear_value z; all_goals have z := trivial)
    | (extract_lets +onlyGivenNames z; clear_value z; have z := trivial)
    | (with_reducible apply NextUpd.next)
    | (with_reducible apply NextUpd.ite)
    | (with_reducible apply Upd.ite)
    | (with_reducible apply State.answer_upd; decide)
    | (with_reducible apply State.ctrlArm_upd; decide)
    | (with_reducible apply Upd.fst; assumption)
    | simp (disch := first | decide | rfl | (apply And.intro <;> first | decide | rfl | (apply And.intro <;> rfl))) only [Upd.mk1_iff, Upd.egr_iff, Upd.brg_iff, Upd.job_iff, Upd.mgt_iff, Upd.sec_iff, Upd.out_iff]
    | split

theorem State.ctrlCancel_upd (s : State) {W P : Nat} {r_ : State} (hm : (subMask 0x101180111010000000021 W && subMask 0x14cc03 P) = true) (k_ : Upd W P r_ s) :
    Upd W P r_ (State.ctrlCancel s) := by
  refine Upd.via (w := 0x101180111010000000021) (p := 0x14cc03) ?_ hm k_
  clear hm k_
  unfold State.ctrlCancel
  repeat' first
    | (with_reducible exact Upd.refl _)
    | with_reducible assumption
    | (extract_lets +onlyGivenNames z; refine Upd.cutU (z := z) ?_ (fun hz => ?_); subst z; rotate_left; clear_value z; all_goals have z := trivial)
    | (extract_lets +onlyGivenNames z; refine Upd.cutU (z := z.1) ?_ (fun hz => ?_); subst z; rotate_left; clear_value z; all_goals have z := trivial)
    | (extract_lets +onlyGivenNames z; clear_value z; have z := trivial)
    | (with_reducible apply Upd.ite)
    | (with_reducible apply State.cancelNext_upd; decide)
    | (with_reducible apply Upd.fst; assumption)
    | simp (disch := first | decide | rfl | (apply And.intro <;> first | decide | rfl | (apply And.intro <;> rfl))) only [Upd.mk1_iff, Upd.egr_iff, Upd.brg_iff, Upd.job_iff, Upd.fab_iff, Upd.mgt_iff, Upd.out_iff]
    | split

theorem execJobCtrlCancel_upd (src : Src) (s : State) {W P : Nat} (hm : (subMask 0x101180111010000000021 W && subMask 0x14cc03 P) = true) :
    NextUpd W P s (execJobCtrlCancel src s) := by
  refine NextUpd.mono (w := 0x101180111010000000021) (p := 0x14cc03) ?_ hm
  unfold execJobCtrlCancel
  repeat' first
    | (with_reducible exact Upd.refl _)
    | with_reducible assumption
    | (extract_lets +onlyGivenNames z; refine Upd.cutU (z := z) ?_ (fun hz => ?_); subst z; rotate_left; clear_value z; all_goals have z := trivial)
    | (extract_lets +onlyGivenNames z; refine Upd.cutU (z := z.1) ?_ (fun hz => ?_); subst z; rotate_left; clear_value z; all_goals have z := trivial)
    | (extract_lets +onlyGivenNames z; refine NextUpd.cutU (z := z) ?_ (fun hz => ?_); subst z; rotate_left; clear_value z; all_goals have z := trivial)
    | (extract_lets +onlyGivenNames z; refine NextUpd.cutU (z := z.1) ?_ (fun hz => ?_); subst z; rotate_left; clear_value z; all_goals have z := trivial)
    | (extract_lets +onlyGivenNames z; clear_value z; have z := trivial)
    | (with_reducible apply NextUpd.next)
    | (with_reducible apply NextUpd.ite)
    | (with_reducible apply Upd.ite)
    | (with_reducible apply State.answer_upd; decide)
    | (with_reducible apply State.ctrlCancel_upd; decide)
    | (with_reducible apply Upd.fst; assumption)
    | simp (disch := first | decide | rfl | (apply And.intro <;> first | decide | rfl | (apply And.intro <;> rfl))) only [Upd.mk1_iff, Upd.egr_iff, Upd.brg_iff, Upd.job_iff, Upd.fab_iff, Upd.mgt_iff, Upd.out_iff]
    | split

theorem State.ctrlSetNext_upd (s : State) (v : Nat) {W P : Nat} {r_ : State} (hm : (subMask 0x20 W && subMask 0x0 P) = true) (k_ : Upd W P r_ s) :
    Upd W P r_ (State.ctrlSetNext s v).1 := by
  refine Upd.via (w := 0x20) (p := 0x0) ?_ hm k_
  clear hm k_
  unfold State.ctrlSetNext
  repeat' first
    | (with_reducible exact Upd.refl _)
    | with_reducible assumption
    | (extract_lets +onlyGivenNames z; refine Upd.cutU (z := z) ?_ (fun hz => ?_); subst z; rotate_left; clear_value z; all_goals have z := trivial)
    | (extract_lets +onlyGivenNames z; refine Upd.cutU (z := z.1) ?_ (fun hz => ?_); subst z; rotate_left; clear_value z; all_goals have z := trivial)
    | (extract_lets +onlyGivenNames z; clear_value z; have z := trivial)
    | (with_reducible apply Upd.ite)
    | (with_reducible apply Upd.iteFst)
    | (with_reducible apply Upd.set; decide)
    | (with_reducible apply Upd.fst; assumption)
    | simp (disch := decide) only [Upd.mk1_iff]
    | split

theorem execSetNext_upd (v : Nat) (src : Src) (s : State) {W P : Nat} (hm : (subMask 0x100000000000000021 W && subMask 0x140c03 P) = true) :
    NextUpd W P s (execSetNext v src s) := by
  refine NextUpd.mono (w := 0x100000000000000021) (p := 0x140c03) ?_ hm
  unfold execSetNext
  repeat' first
    | (with_reducible exact Upd.refl _)
    | with_reducible assumption
    | (extract_lets +onlyGivenNames z; refine Upd.cutU (z := z) ?_ (fun hz => ?_); subst z; rotate_left; clear_value z; all_goals have z := trivial)
    | (extract_lets +onlyGivenNames z; refine Upd.cutU (z := z.1) ?_ (fun hz => ?_); subst z; rotate_left; clear_value z; all_goals have z := trivial)
    | (extract_lets +onlyGivenNames z; refine NextUpd.cutU (z := z) ?_ (fun hz => ?_); subst z; rotate_left; clear_value z; all_goals have z := trivial)
    | (extract_lets +onlyGivenNames z; refine NextUpd.cutU (z := z.1) ?_ (fun hz => ?_); subst z; rotate_left; clear_value z; all_goals have z := trivial)
    | (extract_lets +onlyGivenNames z; clear_value z; have z := trivial)
    | (with_reducible apply NextUpd.next)
    | (with_reducible apply NextUpd.ite)
    | (with_reducible apply Upd.ite)
    | (with_reducible apply State.answer_upd; decide)
    | (with_reducible apply State.ctrlSetNext_upd; decide)
    | (with_reducible apply Upd.fst; assumption)
    | simp (disch := first | decide | rfl | (apply And.intro <;> first | decide | rfl | (apply And.intro <;> rfl))) only [Upd.mk1_iff, Upd.egr_iff, Upd.brg_iff, Upd.mgt_iff, Upd.out_iff]
    | split

theorem State.loadFails_upd (s : State) (st : Status) {W P : Nat} {r_ : State} (hm : (subMask 0x101180111010000000021 W && subMask 0x14cc03 P) = true) (k_ : Upd W P r_ s) :
    Upd W P r_ (State.loadFails s st) := by
  refine Upd.via (w := 0x101180111010000000021) (p := 0x14cc03) ?_ hm k_
  clear hm k_
  unfold State.loadFails
  repeat' first
    | (with_reducible exact Upd.refl _)
    | with_reducible assumption
    | (extract_lets +onlyGivenNames z; refine Upd.cutU (z := z) ?_ (fun hz => ?_); subst z; rotate_left; clear_value z; all_goals have z := trivial)
    | (extract_lets +onlyGivenNames z; refine Upd.cutU (z := z.1) ?_ (fun hz => ?_); subst z; rotate_left; clear_value z; all_goals have z := trivial)
    | (extract_lets +onlyGivenNames z; clear_value z; have z := trivial)
    | (with_reducible apply Upd.ite)
    | (with_reducible apply State.cancelBanks_upd; decide)
    | (with_reducible apply State.clearStaged_upd; decide)
    | (with_reducible apply State.leaderCancel_upd; decide)
    | (with_reducible apply State.loadEnded_upd; decide)
    | (with_reducible apply State.loadFail_upd; decide)
    | (with_reducible apply State.nextClear_upd; decide)
    | (with_reducible apply Upd.fst; assumption)
    | simp (disch := first | decide | rfl | (apply And.intro <;> first | decide | rfl | (apply And.intro <;> rfl))) only [Upd.mk1_iff, Upd.egr_iff, Upd.brg_iff, Upd.job_iff, Upd.fab_iff, Upd.mgt_iff, Upd.out_iff]
    | split

theorem execJobLoadDone_upd (sigs : Sigs) (r : NandRead) (s : State) {W P : Nat} (hm : (subMask 0x1101180111010001100023 W && subMask 0x5cec03 P) = true) :
    NextUpd W P s (execJobLoadDone sigs r s) := by
  refine NextUpd.mono (w := 0x1101180111010001100023) (p := 0x5cec03) ?_ hm
  unfold execJobLoadDone
  repeat' first
    | (with_reducible exact Upd.refl _)
    | with_reducible assumption
    | (extract_lets +onlyGivenNames z; refine Upd.cutU (z := z) ?_ (fun hz => ?_); subst z; rotate_left; clear_value z; all_goals have z := trivial)
    | (extract_lets +onlyGivenNames z; refine Upd.cutU (z := z.1) ?_ (fun hz => ?_); subst z; rotate_left; clear_value z; all_goals have z := trivial)
    | (extract_lets +onlyGivenNames z; refine NextUpd.cutU (z := z) ?_ (fun hz => ?_); subst z; rotate_left; clear_value z; all_goals have z := trivial)
    | (extract_lets +onlyGivenNames z; refine NextUpd.cutU (z := z.1) ?_ (fun hz => ?_); subst z; rotate_left; clear_value z; all_goals have z := trivial)
    | (extract_lets +onlyGivenNames z; clear_value z; have z := trivial)
    | (with_reducible apply NextUpd.next)
    | (with_reducible apply NextUpd.ite)
    | (with_reducible apply Upd.ite)
    | (with_reducible apply State.cancelBanks_upd; decide)
    | (with_reducible apply State.clearStaged_upd; decide)
    | (with_reducible apply State.damage_upd; decide)
    | (with_reducible apply State.leaderCancel_upd; decide)
    | (with_reducible apply State.libResult_upd; decide)
    | (with_reducible apply State.loadBanks_upd; decide)
    | (with_reducible apply State.loadEnded_upd; decide)
    | (with_reducible apply State.loadFails_upd; decide)
    | (with_reducible apply State.nextClear_upd; decide)
    | (with_reducible apply State.readCount_upd; decide)
    | (with_reducible apply State.refused_upd; decide)
    | (with_reducible apply Upd.set; decide)
    | (with_reducible apply State.showDemand_upd; decide)
    | (with_reducible apply State.tryArm_upd; decide)
    | (with_reducible apply Upd.fst; assumption)
    | simp (disch := first | decide | rfl | (apply And.intro <;> first | decide | rfl | (apply And.intro <;> rfl))) only [Upd.mk1_iff, Upd.egr_iff, Upd.brg_iff, Upd.sto_iff, Upd.job_iff, Upd.fab_iff, Upd.mgt_iff, Upd.sec_iff, Upd.out_iff, Upd.bad_iff]
    | split

theorem State.msgPrepare_upd (s : State) (node : Nat) (tag : Nat) (m : Nat) (job : Nat) (num : Nat) {W P : Nat} {r_ : State} (hm : (subMask 0x101180111010000000021 W && subMask 0x14cc03 P) = true) (k_ : Upd W P r_ s) :
    Upd W P r_ (State.msgPrepare s node tag m job num) := by
  refine Upd.via (w := 0x101180111010000000021) (p := 0x14cc03) ?_ hm k_
  clear hm k_
  unfold State.msgPrepare
  repeat' first
    | (with_reducible exact Upd.refl _)
    | with_reducible assumption
    | (extract_lets +onlyGivenNames z; refine Upd.cutU (z := z) ?_ (fun hz => ?_); subst z; rotate_left; clear_value z; all_goals have z := trivial)
    | (extract_lets +onlyGivenNames z; refine Upd.cutU (z := z.1) ?_ (fun hz => ?_); subst z; rotate_left; clear_value z; all_goals have z := trivial)
    | (extract_lets +onlyGivenNames z; clear_value z; have z := trivial)
    | (with_reducible apply Upd.ite)
    | (with_reducible apply State.ctrlReply_upd; decide)
    | (with_reducible apply State.latchSel_upd; decide)
    | (with_reducible apply State.prepareJob_upd; decide)
    | (with_reducible apply Upd.fst; assumption)
    | simp (disch := first | decide | rfl | (apply And.intro <;> first | decide | rfl | (apply And.intro <;> rfl))) only [Upd.mk1_iff, Upd.egr_iff, Upd.brg_iff, Upd.job_iff, Upd.fab_iff, Upd.mgt_iff, Upd.out_iff]
    | split

theorem State.msgArm_upd (s : State) (node : Nat) (tag : Nat) (m : Nat) (job : Nat) (tarm : Nat) {W P : Nat} {r_ : State} (hm : (subMask 0x101080111010001100023 W && subMask 0x18c002 P) = true) (k_ : Upd W P r_ s) :
    Upd W P r_ (State.msgArm s node tag m job tarm) := by
  refine Upd.via (w := 0x101080111010001100023) (p := 0x18c002) ?_ hm k_
  clear hm k_
  unfold State.msgArm
  repeat' first
    | (with_reducible exact Upd.refl _)
    | with_reducible assumption
    | (extract_lets +onlyGivenNames z; refine Upd.cutU (z := z) ?_ (fun hz => ?_); subst z; rotate_left; clear_value z; all_goals have z := trivial)
    | (extract_lets +onlyGivenNames z; refine Upd.cutU (z := z.1) ?_ (fun hz => ?_); subst z; rotate_left; clear_value z; all_goals have z := trivial)
    | (extract_lets +onlyGivenNames z; clear_value z; have z := trivial)
    | (with_reducible apply Upd.ite)
    | (with_reducible apply State.armMessage_upd; decide)
    | (with_reducible apply State.ctrlReply_upd; decide)
    | (with_reducible apply State.latchSel_upd; decide)
    | (with_reducible apply Upd.fst; assumption)
    | simp (disch := first | decide | rfl | (apply And.intro <;> first | decide | rfl | (apply And.intro <;> rfl))) only [Upd.mk1_iff, Upd.job_iff, Upd.fab_iff, Upd.sec_iff, Upd.out_iff]
    | split

theorem State.msgCancel_upd (s : State) (node : Nat) (tag : Nat) (job : Nat) {W P : Nat} {r_ : State} (hm : (subMask 0x101180111010000000021 W && subMask 0x14cc03 P) = true) (k_ : Upd W P r_ s) :
    Upd W P r_ (State.msgCancel s node tag job) := by
  refine Upd.via (w := 0x101180111010000000021) (p := 0x14cc03) ?_ hm k_
  clear hm k_
  unfold State.msgCancel
  repeat' first
    | (with_reducible exact Upd.refl _)
    | with_reducible assumption
    | (extract_lets +onlyGivenNames z; refine Upd.cutU (z := z) ?_ (fun hz => ?_); subst z; rotate_left; clear_value z; all_goals have z := trivial)
    | (extract_lets +onlyGivenNames z; refine Upd.cutU (z := z.1) ?_ (fun hz => ?_); subst z; rotate_left; clear_value z; all_goals have z := trivial)
    | (extract_lets +onlyGivenNames z; clear_value z; have z := trivial)
    | (with_reducible apply Upd.ite)
    | (with_reducible apply State.cancelMessage_upd; decide)
    | (with_reducible apply State.ctrlReply_upd; decide)
    | (with_reducible apply State.latchSel_upd; decide)
    | (with_reducible apply Upd.fst; assumption)
    | simp (disch := first | decide | rfl | (apply And.intro <;> first | decide | rfl | (apply And.intro <;> rfl))) only [Upd.mk1_iff, Upd.egr_iff, Upd.brg_iff, Upd.job_iff, Upd.fab_iff, Upd.mgt_iff, Upd.out_iff]
    | split

theorem execJobMsgPrepare_upd (node : Nat) (tag : Nat) (m : Nat) (job : Nat) (num : Nat) (s : State) {W P : Nat} (hm : (subMask 0x101180111010101100023 W && subMask 0x1ccc03 P) = true) :
    NextUpd W P s (execJobMsgPrepare node tag m job num s) := by
  refine NextUpd.mono (w := 0x101180111010101100023) (p := 0x1ccc03) ?_ hm
  unfold execJobMsgPrepare
  repeat' first
    | (with_reducible exact Upd.refl _)
    | with_reducible assumption
    | (extract_lets +onlyGivenNames z; refine Upd.cutU (z := z) ?_ (fun hz => ?_); subst z; rotate_left; clear_value z; all_goals have z := trivial)
    | (extract_lets +onlyGivenNames z; refine Upd.cutU (z := z.1) ?_ (fun hz => ?_); subst z; rotate_left; clear_value z; all_goals have z := trivial)
    | (extract_lets +onlyGivenNames z; refine NextUpd.cutU (z := z) ?_ (fun hz => ?_); subst z; rotate_left; clear_value z; all_goals have z := trivial)
    | (extract_lets +onlyGivenNames z; refine NextUpd.cutU (z := z.1) ?_ (fun hz => ?_); subst z; rotate_left; clear_value z; all_goals have z := trivial)
    | (extract_lets +onlyGivenNames z; clear_value z; have z := trivial)
    | (with_reducible apply NextUpd.next)
    | (with_reducible apply NextUpd.ite)
    | (with_reducible apply Upd.ite)
    | (with_reducible apply State.jobAnswers_upd; decide)
    | (with_reducible apply State.msgPrepare_upd; decide)
    | (with_reducible apply Upd.fst; assumption)
    | simp (disch := first | decide | rfl | (apply And.intro <;> first | decide | rfl | (apply And.intro <;> rfl))) only [Upd.mk1_iff, Upd.egr_iff, Upd.brg_iff, Upd.job_iff, Upd.fab_iff, Upd.mgt_iff, Upd.sec_iff, Upd.out_iff]
    | split

theorem execJobMsgArm_upd (node : Nat) (tag : Nat) (m : Nat) (job : Nat) (tarm : Nat) (s : State) {W P : Nat} (hm : (subMask 0x101180111010101100023 W && subMask 0x1ccc03 P) = true) :
    NextUpd W P s (execJobMsgArm node tag m job tarm s) := by
  refine NextUpd.mono (w := 0x101180111010101100023) (p := 0x1ccc03) ?_ hm
  unfold execJobMsgArm
  repeat' first
    | (with_reducible exact Upd.refl _)
    | with_reducible assumption
    | (extract_lets +onlyGivenNames z; refine Upd.cutU (z := z) ?_ (fun hz => ?_); subst z; rotate_left; clear_value z; all_goals have z := trivial)
    | (extract_lets +onlyGivenNames z; refine Upd.cutU (z := z.1) ?_ (fun hz => ?_); subst z; rotate_left; clear_value z; all_goals have z := trivial)
    | (extract_lets +onlyGivenNames z; refine NextUpd.cutU (z := z) ?_ (fun hz => ?_); subst z; rotate_left; clear_value z; all_goals have z := trivial)
    | (extract_lets +onlyGivenNames z; refine NextUpd.cutU (z := z.1) ?_ (fun hz => ?_); subst z; rotate_left; clear_value z; all_goals have z := trivial)
    | (extract_lets +onlyGivenNames z; clear_value z; have z := trivial)
    | (with_reducible apply NextUpd.next)
    | (with_reducible apply NextUpd.ite)
    | (with_reducible apply Upd.ite)
    | (with_reducible apply State.jobAnswers_upd; decide)
    | (with_reducible apply State.msgArm_upd; decide)
    | (with_reducible apply Upd.fst; assumption)
    | simp (disch := first | decide | rfl | (apply And.intro <;> first | decide | rfl | (apply And.intro <;> rfl))) only [Upd.mk1_iff, Upd.egr_iff, Upd.brg_iff, Upd.job_iff, Upd.fab_iff, Upd.mgt_iff, Upd.sec_iff, Upd.out_iff]
    | split

theorem execJobMsgCancel_upd (node : Nat) (tag : Nat) (job : Nat) (s : State) {W P : Nat} (hm : (subMask 0x101180111010101100023 W && subMask 0x1ccc03 P) = true) :
    NextUpd W P s (execJobMsgCancel node tag job s) := by
  refine NextUpd.mono (w := 0x101180111010101100023) (p := 0x1ccc03) ?_ hm
  unfold execJobMsgCancel
  repeat' first
    | (with_reducible exact Upd.refl _)
    | with_reducible assumption
    | (extract_lets +onlyGivenNames z; refine Upd.cutU (z := z) ?_ (fun hz => ?_); subst z; rotate_left; clear_value z; all_goals have z := trivial)
    | (extract_lets +onlyGivenNames z; refine Upd.cutU (z := z.1) ?_ (fun hz => ?_); subst z; rotate_left; clear_value z; all_goals have z := trivial)
    | (extract_lets +onlyGivenNames z; refine NextUpd.cutU (z := z) ?_ (fun hz => ?_); subst z; rotate_left; clear_value z; all_goals have z := trivial)
    | (extract_lets +onlyGivenNames z; refine NextUpd.cutU (z := z.1) ?_ (fun hz => ?_); subst z; rotate_left; clear_value z; all_goals have z := trivial)
    | (extract_lets +onlyGivenNames z; clear_value z; have z := trivial)
    | (with_reducible apply NextUpd.next)
    | (with_reducible apply NextUpd.ite)
    | (with_reducible apply Upd.ite)
    | (with_reducible apply State.jobAnswers_upd; decide)
    | (with_reducible apply State.msgCancel_upd; decide)
    | (with_reducible apply Upd.fst; assumption)
    | simp (disch := first | decide | rfl | (apply And.intro <;> first | decide | rfl | (apply And.intro <;> rfl))) only [Upd.mk1_iff, Upd.egr_iff, Upd.brg_iff, Upd.job_iff, Upd.fab_iff, Upd.mgt_iff, Upd.sec_iff, Upd.out_iff]
    | split

theorem execPrepareTimeout_upd (s : State) {W P : Nat} (hm : (subMask 0x101180111010101100023 W && subMask 0x1ccc03 P) = true) :
    NextUpd W P s (execPrepareTimeout s) := by
  refine NextUpd.mono (w := 0x101180111010101100023) (p := 0x1ccc03) ?_ hm
  unfold execPrepareTimeout
  repeat' first
    | (with_reducible exact Upd.refl _)
    | with_reducible assumption
    | (extract_lets +onlyGivenNames z; refine Upd.cutU (z := z) ?_ (fun hz => ?_); subst z; rotate_left; clear_value z; all_goals have z := trivial)
    | (extract_lets +onlyGivenNames z; refine Upd.cutU (z := z.1) ?_ (fun hz => ?_); subst z; rotate_left; clear_value z; all_goals have z := trivial)
    | (extract_lets +onlyGivenNames z; refine NextUpd.cutU (z := z) ?_ (fun hz => ?_); subst z; rotate_left; clear_value z; all_goals have z := trivial)
    | (extract_lets +onlyGivenNames z; refine NextUpd.cutU (z := z.1) ?_ (fun hz => ?_); subst z; rotate_left; clear_value z; all_goals have z := trivial)
    | (extract_lets +onlyGivenNames z; clear_value z; have z := trivial)
    | (with_reducible apply NextUpd.next)
    | (with_reducible apply NextUpd.ite)
    | (with_reducible apply Upd.ite)
    | (with_reducible apply State.answer_upd; decide)
    | (with_reducible apply State.jobAnswers_upd; decide)
    | (with_reducible apply State.leaderCancel_upd; decide)
    | (with_reducible apply Upd.fst; assumption)
    | simp (disch := first | decide | rfl | (apply And.intro <;> first | decide | rfl | (apply And.intro <;> rfl))) only [Upd.mk1_iff, Upd.egr_iff, Upd.brg_iff, Upd.job_iff, Upd.fab_iff, Upd.mgt_iff, Upd.sec_iff, Upd.out_iff]
    | split

theorem execPrepareResend_upd (s : State) {W P : Nat} (hm : (subMask 0x101180111010101100023 W && subMask 0x1ccc03 P) = true) :
    NextUpd W P s (execPrepareResend s) := by
  refine NextUpd.mono (w := 0x101180111010101100023) (p := 0x1ccc03) ?_ hm
  unfold execPrepareResend
  repeat' first
    | (with_reducible apply Upd.foldl; intro _ _)
    | (with_reducible apply Upd.foldlFst; intro _ _)
    | (with_reducible exact Upd.refl _)
    | with_reducible assumption
    | (extract_lets +onlyGivenNames z; refine Upd.cutU (z := z) ?_ (fun hz => ?_); subst z; rotate_left; clear_value z; all_goals have z := trivial)
    | (extract_lets +onlyGivenNames z; refine Upd.cutU (z := z.1) ?_ (fun hz => ?_); subst z; rotate_left; clear_value z; all_goals have z := trivial)
    | (extract_lets +onlyGivenNames z; refine NextUpd.cutU (z := z) ?_ (fun hz => ?_); subst z; rotate_left; clear_value z; all_goals have z := trivial)
    | (extract_lets +onlyGivenNames z; refine NextUpd.cutU (z := z.1) ?_ (fun hz => ?_); subst z; rotate_left; clear_value z; all_goals have z := trivial)
    | (extract_lets +onlyGivenNames z; clear_value z; have z := trivial)
    | (with_reducible apply NextUpd.next)
    | (with_reducible apply NextUpd.ite)
    | (with_reducible apply Upd.ite)
    | (with_reducible apply State.answer_upd; decide)
    | (with_reducible apply State.jobAnswers_upd; decide)
    | (with_reducible apply State.peerSend_upd; decide)
    | (with_reducible apply Upd.fst; assumption)
    | simp (disch := first | decide | rfl | (apply And.intro <;> first | decide | rfl | (apply And.intro <;> rfl))) only [Upd.mk1_iff, Upd.egr_iff, Upd.brg_iff, Upd.job_iff, Upd.fab_iff, Upd.mgt_iff, Upd.sec_iff, Upd.out_iff]
    | split

theorem execArmDeadline_upd (s : State) {W P : Nat} (hm : (subMask 0x101180111010101100023 W && subMask 0x1ccc03 P) = true) :
    NextUpd W P s (execArmDeadline s) := by
  refine NextUpd.mono (w := 0x101180111010101100023) (p := 0x1ccc03) ?_ hm
  unfold execArmDeadline
  repeat' first
    | (with_reducible exact Upd.refl _)
    | with_reducible assumption
    | (extract_lets +onlyGivenNames z; refine Upd.cutU (z := z) ?_ (fun hz => ?_); subst z; rotate_left; clear_value z; all_goals have z := trivial)
    | (extract_lets +onlyGivenNames z; refine Upd.cutU (z := z.1) ?_ (fun hz => ?_); subst z; rotate_left; clear_value z; all_goals have z := trivial)
    | (extract_lets +onlyGivenNames z; refine NextUpd.cutU (z := z) ?_ (fun hz => ?_); subst z; rotate_left; clear_value z; all_goals have z := trivial)
    | (extract_lets +onlyGivenNames z; refine NextUpd.cutU (z := z.1) ?_ (fun hz => ?_); subst z; rotate_left; clear_value z; all_goals have z := trivial)
    | (extract_lets +onlyGivenNames z; clear_value z; have z := trivial)
    | (with_reducible apply NextUpd.next)
    | (with_reducible apply NextUpd.ite)
    | (with_reducible apply Upd.ite)
    | (with_reducible apply State.answer_upd; decide)
    | (with_reducible apply State.jobAnswers_upd; decide)
    | (with_reducible apply State.leaderCancel_upd; decide)
    | (with_reducible apply Upd.fst; assumption)
    | simp (disch := first | decide | rfl | (apply And.intro <;> first | decide | rfl | (apply And.intro <;> rfl))) only [Upd.mk1_iff, Upd.egr_iff, Upd.brg_iff, Upd.job_iff, Upd.fab_iff, Upd.mgt_iff, Upd.sec_iff, Upd.out_iff]
    | split

theorem State.rollRefused_upd (s : State) (r : Refuse) (next : Bool) {W P : Nat} {r_ : State} (hm : (subMask 0x21 W && subMask 0x100002 P) = true) (k_ : Upd W P r_ s) :
    Upd W P r_ (State.rollRefused s r next) := by
  refine Upd.via (w := 0x21) (p := 0x100002) ?_ hm k_
  clear hm k_
  unfold State.rollRefused
  repeat' first
    | (with_reducible exact Upd.refl _)
    | with_reducible assumption
    | (extract_lets +onlyGivenNames z; refine Upd.cutU (z := z) ?_ (fun hz => ?_); subst z; rotate_left; clear_value z; all_goals have z := trivial)
    | (extract_lets +onlyGivenNames z; refine Upd.cutU (z := z.1) ?_ (fun hz => ?_); subst z; rotate_left; clear_value z; all_goals have z := trivial)
    | (extract_lets +onlyGivenNames z; clear_value z; have z := trivial)
    | (with_reducible apply Upd.ite)
    | (with_reducible apply Upd.inc; decide)
    | (with_reducible apply State.jobEvent_upd; decide)
    | (with_reducible apply State.setRefuse_upd; decide)
    | (with_reducible apply Upd.fst; assumption)
    | simp (disch := decide) only [Upd.mk1_iff, Upd.out_iff]
    | split

theorem effRollStart_upd (p : Nat) (auto : Bool) (src : Src) (s : State) {W P : Nat} {r_ : State} (hm : (subMask 0x100000010000000029 W && subMask 0x140c03 P) = true) (k_ : Upd W P r_ s) :
    Upd W P r_ (effRollStart p auto src s) := by
  refine Upd.via (w := 0x100000010000000029) (p := 0x140c03) ?_ hm k_
  clear hm k_
  unfold effRollStart
  repeat' first
    | (with_reducible exact Upd.refl _)
    | with_reducible assumption
    | (extract_lets +onlyGivenNames z; refine Upd.cutU (z := z) ?_ (fun hz => ?_); subst z; rotate_left; clear_value z; all_goals have z := trivial)
    | (extract_lets +onlyGivenNames z; refine Upd.cutU (z := z.1) ?_ (fun hz => ?_); subst z; rotate_left; clear_value z; all_goals have z := trivial)
    | (extract_lets +onlyGivenNames z; clear_value z; have z := trivial)
    | (with_reducible apply Upd.ite)
    | (with_reducible apply State.answer_upd; decide)
    | (with_reducible apply State.emit_upd; decide)
    | (with_reducible apply State.rollBegin_upd; decide)
    | (with_reducible apply State.rollRefused_upd; decide)
    | (with_reducible apply Upd.set; decide)
    | (with_reducible apply Upd.fst; assumption)
    | simp (disch := first | decide | rfl | (apply And.intro <;> first | decide | rfl | (apply And.intro <;> rfl))) only [Upd.mk1_iff, Upd.egr_iff, Upd.brg_iff, Upd.mgt_iff, Upd.out_iff]
    | split

theorem execRollStart_upd (p : Nat) (auto : Bool) (src : Src) (s : State) {W P : Nat} (hm : (subMask 0x100000010000000029 W && subMask 0x140c03 P) = true) :
    NextUpd W P s (execRollStart p auto src s) := by
  refine NextUpd.mono (w := 0x100000010000000029) (p := 0x140c03) ?_ hm
  unfold execRollStart
  repeat' first
    | (with_reducible exact Upd.refl _)
    | with_reducible assumption
    | (extract_lets +onlyGivenNames z; refine Upd.cutU (z := z) ?_ (fun hz => ?_); subst z; rotate_left; clear_value z; all_goals have z := trivial)
    | (extract_lets +onlyGivenNames z; refine Upd.cutU (z := z.1) ?_ (fun hz => ?_); subst z; rotate_left; clear_value z; all_goals have z := trivial)
    | (extract_lets +onlyGivenNames z; refine NextUpd.cutU (z := z) ?_ (fun hz => ?_); subst z; rotate_left; clear_value z; all_goals have z := trivial)
    | (extract_lets +onlyGivenNames z; refine NextUpd.cutU (z := z.1) ?_ (fun hz => ?_); subst z; rotate_left; clear_value z; all_goals have z := trivial)
    | (extract_lets +onlyGivenNames z; clear_value z; have z := trivial)
    | (with_reducible apply NextUpd.next)
    | (with_reducible apply NextUpd.ite)
    | (with_reducible apply Upd.ite)
    | (with_reducible apply State.answer_upd; decide)
    | (with_reducible apply State.completed_upd; decide; intro _)
    | (with_reducible apply effRollStart_upd; decide)
    | (with_reducible apply Upd.fst; assumption)
    | simp (disch := first | decide | rfl | (apply And.intro <;> first | decide | rfl | (apply And.intro <;> rfl))) only [Upd.mk1_iff, Upd.egr_iff, Upd.brg_iff, Upd.mgt_iff, Upd.out_iff]
    | split

end Sys2Proof.Machine
end

