-- ==== Sys2Proof/Laws/UpdLaneOps.lean ====
section
/-! SUPPORT. What each operation of Machine/LaneOps.lean may change (see Laws/Upd.lean). -/

set_option linter.unusedSimpArgs false
set_option linter.tactic.unusedName false

namespace Sys2Proof.Machine

theorem State.laneEvent_upd (s : State) (n : Nat) (k : Nat) {W P : Nat} {r_ : State} (hm : (subMask 0x10001 W && subMask 0x100002 P) = true) (k_ : Upd W P r_ s) :
    Upd W P r_ (State.laneEvent s n k) := by
  refine Upd.via (w := 0x10001) (p := 0x100002) ?_ hm k_
  clear hm k_
  unfold State.laneEvent
  repeat' first
    | (with_reducible exact Upd.refl _)
    | with_reducible assumption
    | (extract_lets +onlyGivenNames z; refine Upd.cutU (z := z) ?_ (fun hz => ?_); subst z; rotate_left; clear_value z; all_goals have z := trivial)
    | (extract_lets +onlyGivenNames z; refine Upd.cutU (z := z.1) ?_ (fun hz => ?_); subst z; rotate_left; clear_value z; all_goals have z := trivial)
    | (extract_lets +onlyGivenNames z; clear_value z; have z := trivial)
    | (with_reducible apply Upd.ite)
    | (with_reducible apply Upd.sticky; decide; decide; decide)
    | (with_reducible apply Upd.fst; assumption)
    | simp (disch := decide) only [Upd.mk1_iff, Upd.out_iff]
    | split

theorem State.reason_upd (s : State) (n : Nat) (r : Nat) {W P : Nat} {r_ : State} (hm : (subMask 0x10000 W && subMask 0x0 P) = true) (k_ : Upd W P r_ s) :
    Upd W P r_ (State.reason s n r) := by
  refine Upd.via (w := 0x10000) (p := 0x0) ?_ hm k_
  clear hm k_
  unfold State.reason
  repeat' first
    | (with_reducible exact Upd.refl _)
    | with_reducible assumption
    | (extract_lets +onlyGivenNames z; refine Upd.cutU (z := z) ?_ (fun hz => ?_); subst z; rotate_left; clear_value z; all_goals have z := trivial)
    | (extract_lets +onlyGivenNames z; refine Upd.cutU (z := z.1) ?_ (fun hz => ?_); subst z; rotate_left; clear_value z; all_goals have z := trivial)
    | (extract_lets +onlyGivenNames z; clear_value z; have z := trivial)
    | (with_reducible apply Upd.ite)
    | (with_reducible apply Upd.set; decide)
    | (with_reducible apply Upd.fst; assumption)
    | simp (disch := decide) only [Upd.mk1_iff]
    | split

theorem State.loadEq_upd (s : State) (n : Nat) (r : Nat) {W P : Nat} {r_ : State} (hm : (subMask 0x0 W && subMask 0x4 P) = true) (k_ : Upd W P r_ s) :
    Upd W P r_ (State.loadEq s n r) := by
  refine Upd.via (w := 0x0) (p := 0x4) ?_ hm k_
  clear hm k_
  unfold State.loadEq
  repeat' first
    | (with_reducible exact Upd.refl _)
    | with_reducible assumption
    | (extract_lets +onlyGivenNames z; refine Upd.cutU (z := z) ?_ (fun hz => ?_); subst z; rotate_left; clear_value z; all_goals have z := trivial)
    | (extract_lets +onlyGivenNames z; refine Upd.cutU (z := z.1) ?_ (fun hz => ?_); subst z; rotate_left; clear_value z; all_goals have z := trivial)
    | (extract_lets +onlyGivenNames z; clear_value z; have z := trivial)
    | (with_reducible apply Upd.ite)
    | (with_reducible apply Upd.fst; assumption)
    | simp (disch := decide) only [Upd.mk1_iff, Upd.lane_iff]
    | split

theorem State.showEq_upd (s : State) (n : Nat) {W P : Nat} {r_ : State} (hm : (subMask 0x10000 W && subMask 0x0 P) = true) (k_ : Upd W P r_ s) :
    Upd W P r_ (State.showEq s n) := by
  refine Upd.via (w := 0x10000) (p := 0x0) ?_ hm k_
  clear hm k_
  unfold State.showEq
  repeat' first
    | (with_reducible apply Upd.foldlSet; decide)
    | ((with_reducible apply Upd.foldlPair); simp only [List.all_cons, List.all_nil]; decide)
    | (with_reducible apply Upd.foldl; intro _ _)
    | (with_reducible apply Upd.foldlFst; intro _ _)
    | (with_reducible exact Upd.refl _)
    | with_reducible assumption
    | (extract_lets +onlyGivenNames z; refine Upd.cutU (z := z) ?_ (fun hz => ?_); subst z; rotate_left; clear_value z; all_goals have z := trivial)
    | (extract_lets +onlyGivenNames z; refine Upd.cutU (z := z.1) ?_ (fun hz => ?_); subst z; rotate_left; clear_value z; all_goals have z := trivial)
    | (extract_lets +onlyGivenNames z; clear_value z; have z := trivial)
    | (with_reducible apply Upd.ite)
    | (with_reducible apply Upd.set; decide)
    | (with_reducible apply Upd.fst; assumption)
    | simp (disch := decide) only [Upd.mk1_iff]
    | split

theorem State.sendLts_upd (s : State) (n : Nat) (typ : Nat) (req : Nat) (resume : Bool) {W P : Nat} {r_ : State} (hm : (subMask 0x0 W && subMask 0x100000 P) = true) (k_ : Upd W P r_ s) :
    Upd W P r_ (State.sendLts s n typ req resume) := by
  refine Upd.via (w := 0x0) (p := 0x100000) ?_ hm k_
  clear hm k_
  unfold State.sendLts
  repeat' first
    | (with_reducible exact Upd.refl _)
    | with_reducible assumption
    | (extract_lets +onlyGivenNames z; refine Upd.cutU (z := z) ?_ (fun hz => ?_); subst z; rotate_left; clear_value z; all_goals have z := trivial)
    | (extract_lets +onlyGivenNames z; refine Upd.cutU (z := z.1) ?_ (fun hz => ?_); subst z; rotate_left; clear_value z; all_goals have z := trivial)
    | (extract_lets +onlyGivenNames z; clear_value z; have z := trivial)
    | (with_reducible apply Upd.ite)
    | (with_reducible apply State.emit_upd; decide)
    | (with_reducible apply Upd.fst; assumption)
    | simp (disch := decide) only [Upd.mk1_iff, Upd.out_iff]
    | split

theorem State.sayDetect_upd (s : State) (n : Nat) {W P : Nat} {r_ : State} (hm : (subMask 0x0 W && subMask 0x100000 P) = true) (k_ : Upd W P r_ s) :
    Upd W P r_ (State.sayDetect s n) := by
  refine Upd.via (w := 0x0) (p := 0x100000) ?_ hm k_
  clear hm k_
  unfold State.sayDetect
  repeat' first
    | (with_reducible exact Upd.refl _)
    | with_reducible assumption
    | (extract_lets +onlyGivenNames z; refine Upd.cutU (z := z) ?_ (fun hz => ?_); subst z; rotate_left; clear_value z; all_goals have z := trivial)
    | (extract_lets +onlyGivenNames z; refine Upd.cutU (z := z.1) ?_ (fun hz => ?_); subst z; rotate_left; clear_value z; all_goals have z := trivial)
    | (extract_lets +onlyGivenNames z; clear_value z; have z := trivial)
    | (with_reducible apply Upd.ite)
    | (with_reducible apply State.sendLts_upd; decide)
    | (with_reducible apply Upd.fst; assumption)
    | simp (disch := decide) only [Upd.mk1_iff, Upd.out_iff]
    | split

theorem State.toRung0_upd (s : State) (n : Nat) {W P : Nat} {r_ : State} (hm : (subMask 0x10000 W && subMask 0x4 P) = true) (k_ : Upd W P r_ s) :
    Upd W P r_ (State.toRung0 s n) := by
  refine Upd.via (w := 0x10000) (p := 0x4) ?_ hm k_
  clear hm k_
  unfold State.toRung0
  repeat' first
    | (with_reducible exact Upd.refl _)
    | with_reducible assumption
    | (extract_lets +onlyGivenNames z; refine Upd.cutU (z := z) ?_ (fun hz => ?_); subst z; rotate_left; clear_value z; all_goals have z := trivial)
    | (extract_lets +onlyGivenNames z; refine Upd.cutU (z := z.1) ?_ (fun hz => ?_); subst z; rotate_left; clear_value z; all_goals have z := trivial)
    | (extract_lets +onlyGivenNames z; clear_value z; have z := trivial)
    | (with_reducible apply Upd.ite)
    | (with_reducible apply State.loadEq_upd; decide)
    | (with_reducible apply Upd.set; decide)
    | (with_reducible apply Upd.fst; assumption)
    | simp (disch := decide) only [Upd.mk1_iff, Upd.lane_iff]
    | split

theorem State.enterDetect_upd (s : State) (n : Nat) {W P : Nat} {r_ : State} (hm : (subMask 0x10000 W && subMask 0x100004 P) = true) (k_ : Upd W P r_ s) :
    Upd W P r_ (State.enterDetect s n) := by
  refine Upd.via (w := 0x10000) (p := 0x100004) ?_ hm k_
  clear hm k_
  unfold State.enterDetect
  repeat' first
    | (with_reducible apply Upd.foldlSet; decide)
    | ((with_reducible apply Upd.foldlPair); simp only [List.all_cons, List.all_nil]; decide)
    | (with_reducible apply Upd.foldl; intro _ _)
    | (with_reducible apply Upd.foldlFst; intro _ _)
    | (with_reducible exact Upd.refl _)
    | with_reducible assumption
    | (extract_lets +onlyGivenNames z; refine Upd.cutU (z := z) ?_ (fun hz => ?_); subst z; rotate_left; clear_value z; all_goals have z := trivial)
    | (extract_lets +onlyGivenNames z; refine Upd.cutU (z := z.1) ?_ (fun hz => ?_); subst z; rotate_left; clear_value z; all_goals have z := trivial)
    | (extract_lets +onlyGivenNames z; clear_value z; have z := trivial)
    | (with_reducible apply Upd.ite)
    | (with_reducible apply State.loadEq_upd; decide)
    | (with_reducible apply State.sayDetect_upd; decide)
    | (with_reducible apply Upd.set; decide)
    | (with_reducible apply State.toRung0_upd; decide)
    | (with_reducible apply Upd.fst; assumption)
    | simp (disch := decide) only [Upd.mk1_iff, Upd.lane_iff, Upd.out_iff]
    | split

theorem State.ltsBroken_upd (s : State) (n : Nat) {W P : Nat} {r_ : State} (hm : (subMask 0x10000 W && subMask 0x0 P) = true) (k_ : Upd W P r_ s) :
    Upd W P r_ (State.ltsBroken s n) := by
  refine Upd.via (w := 0x10000) (p := 0x0) ?_ hm k_
  clear hm k_
  unfold State.ltsBroken
  repeat' first
    | (with_reducible exact Upd.refl _)
    | with_reducible assumption
    | (extract_lets +onlyGivenNames z; refine Upd.cutU (z := z) ?_ (fun hz => ?_); subst z; rotate_left; clear_value z; all_goals have z := trivial)
    | (extract_lets +onlyGivenNames z; refine Upd.cutU (z := z.1) ?_ (fun hz => ?_); subst z; rotate_left; clear_value z; all_goals have z := trivial)
    | (extract_lets +onlyGivenNames z; clear_value z; have z := trivial)
    | (with_reducible apply Upd.ite)
    | (with_reducible apply Upd.set; decide)
    | (with_reducible apply Upd.fst; assumption)
    | simp (disch := decide) only [Upd.mk1_iff]
    | split

theorem State.backoff_upd (s : State) (n : Nat) (r : Nat) {W P : Nat} {r_ : State} (hm : (subMask 0x10001 W && subMask 0x100006 P) = true) (k_ : Upd W P r_ s) :
    Upd W P r_ (State.backoff s n r) := by
  refine Upd.via (w := 0x10001) (p := 0x100006) ?_ hm k_
  clear hm k_
  unfold State.backoff
  repeat' first
    | (with_reducible exact Upd.refl _)
    | with_reducible assumption
    | (extract_lets +onlyGivenNames z; refine Upd.cutU (z := z) ?_ (fun hz => ?_); subst z; rotate_left; clear_value z; all_goals have z := trivial)
    | (extract_lets +onlyGivenNames z; refine Upd.cutU (z := z.1) ?_ (fun hz => ?_); subst z; rotate_left; clear_value z; all_goals have z := trivial)
    | (extract_lets +onlyGivenNames z; clear_value z; have z := trivial)
    | (with_reducible apply Upd.ite)
    | (with_reducible apply Upd.inc; decide)
    | (with_reducible apply State.laneEvent_upd; decide)
    | (with_reducible apply State.reason_upd; decide)
    | (with_reducible apply Upd.set; decide)
    | (with_reducible apply State.toRung0_upd; decide)
    | (with_reducible apply Upd.fst; assumption)
    | simp (disch := decide) only [Upd.mk1_iff, Upd.lane_iff, Upd.out_iff]
    | split

theorem State.exclude_upd (s : State) (n : Nat) (r : Nat) {W P : Nat} {r_ : State} (hm : (subMask 0x10001 W && subMask 0x100002 P) = true) (k_ : Upd W P r_ s) :
    Upd W P r_ (State.exclude s n r) := by
  refine Upd.via (w := 0x10001) (p := 0x100002) ?_ hm k_
  clear hm k_
  unfold State.exclude
  repeat' first
    | (with_reducible exact Upd.refl _)
    | with_reducible assumption
    | (extract_lets +onlyGivenNames z; refine Upd.cutU (z := z) ?_ (fun hz => ?_); subst z; rotate_left; clear_value z; all_goals have z := trivial)
    | (extract_lets +onlyGivenNames z; refine Upd.cutU (z := z.1) ?_ (fun hz => ?_); subst z; rotate_left; clear_value z; all_goals have z := trivial)
    | (extract_lets +onlyGivenNames z; clear_value z; have z := trivial)
    | (with_reducible apply Upd.ite)
    | (with_reducible apply State.laneEvent_upd; decide)
    | (with_reducible apply Upd.setBit; decide)
    | (with_reducible apply Upd.fst; assumption)
    | simp (disch := decide) only [Upd.mk1_iff, Upd.out_iff]
    | split

theorem State.stepFail_upd (s : State) (n : Nat) {W P : Nat} {r_ : State} (hm : (subMask 0x10001 W && subMask 0x100006 P) = true) (k_ : Upd W P r_ s) :
    Upd W P r_ (State.stepFail s n) := by
  refine Upd.via (w := 0x10001) (p := 0x100006) ?_ hm k_
  clear hm k_
  unfold State.stepFail
  repeat' first
    | (with_reducible apply Upd.foldlSet; decide)
    | ((with_reducible apply Upd.foldlPair); simp only [List.all_cons, List.all_nil]; decide)
    | (with_reducible apply Upd.foldl; intro _ _)
    | (with_reducible apply Upd.foldlFst; intro _ _)
    | (with_reducible exact Upd.refl _)
    | with_reducible assumption
    | (extract_lets +onlyGivenNames z; refine Upd.cutU (z := z) ?_ (fun hz => ?_); subst z; rotate_left; clear_value z; all_goals have z := trivial)
    | (extract_lets +onlyGivenNames z; refine Upd.cutU (z := z.1) ?_ (fun hz => ?_); subst z; rotate_left; clear_value z; all_goals have z := trivial)
    | (extract_lets +onlyGivenNames z; clear_value z; have z := trivial)
    | (with_reducible apply Upd.ite)
    | (with_reducible apply State.backoff_upd; decide)
    | (with_reducible apply State.exclude_upd; decide)
    | (with_reducible apply State.reason_upd; decide)
    | (with_reducible apply State.sayDetect_upd; decide)
    | (with_reducible apply Upd.set; decide)
    | (with_reducible apply State.toRung0_upd; decide)
    | (with_reducible apply Upd.fst; assumption)
    | simp (disch := decide) only [Upd.mk1_iff, Upd.lane_iff, Upd.out_iff]
    | split

theorem State.eyeAbort_upd (s : State) (n : Nat) {W P : Nat} {r_ : State} (hm : (subMask 0x10000 W && subMask 0x0 P) = true) (k_ : Upd W P r_ s) :
    Upd W P r_ (State.eyeAbort s n) := by
  refine Upd.via (w := 0x10000) (p := 0x0) ?_ hm k_
  clear hm k_
  unfold State.eyeAbort
  repeat' first
    | (with_reducible exact Upd.refl _)
    | with_reducible assumption
    | (extract_lets +onlyGivenNames z; refine Upd.cutU (z := z) ?_ (fun hz => ?_); subst z; rotate_left; clear_value z; all_goals have z := trivial)
    | (extract_lets +onlyGivenNames z; refine Upd.cutU (z := z.1) ?_ (fun hz => ?_); subst z; rotate_left; clear_value z; all_goals have z := trivial)
    | (extract_lets +onlyGivenNames z; clear_value z; have z := trivial)
    | (with_reducible apply Upd.ite)
    | (with_reducible apply Upd.set; decide)
    | (with_reducible apply Upd.fst; assumption)
    | simp (disch := decide) only [Upd.mk1_iff]
    | split

theorem State.rclkPin_upd (s : State) (n : Nat) (v : Nat) {W P : Nat} {r_ : State} (hm : (subMask 0x0 W && subMask 0x100000 P) = true) (k_ : Upd W P r_ s) :
    Upd W P r_ (State.rclkPin s n v) := by
  refine Upd.via (w := 0x0) (p := 0x100000) ?_ hm k_
  clear hm k_
  unfold State.rclkPin
  repeat' first
    | (with_reducible exact Upd.refl _)
    | with_reducible assumption
    | (extract_lets +onlyGivenNames z; refine Upd.cutU (z := z) ?_ (fun hz => ?_); subst z; rotate_left; clear_value z; all_goals have z := trivial)
    | (extract_lets +onlyGivenNames z; refine Upd.cutU (z := z.1) ?_ (fun hz => ?_); subst z; rotate_left; clear_value z; all_goals have z := trivial)
    | (extract_lets +onlyGivenNames z; clear_value z; have z := trivial)
    | (with_reducible apply Upd.ite)
    | (with_reducible apply State.emit_upd; decide)
    | (with_reducible apply Upd.fst; assumption)
    | simp (disch := decide) only [Upd.mk1_iff, Upd.out_iff]
    | split

theorem State.laneDown_upd (s : State) (n : Nat) {W P : Nat} {r_ : State} (hm : (subMask 0x101180111010101110023 W && subMask 0x1ccc1b P) = true) (k_ : Upd W P r_ s) :
    Upd W P r_ (State.laneDown s n) := by
  refine Upd.via (w := 0x101180111010101110023) (p := 0x1ccc1b) ?_ hm k_
  clear hm k_
  unfold State.laneDown
  repeat' first
    | (with_reducible apply Upd.foldlSet; decide)
    | ((with_reducible apply Upd.foldlPair); simp only [List.all_cons, List.all_nil]; decide)
    | (with_reducible apply Upd.foldl; intro _ _)
    | (with_reducible apply Upd.foldlFst; intro _ _)
    | (with_reducible exact Upd.refl _)
    | with_reducible assumption
    | (extract_lets +onlyGivenNames z; refine Upd.cutU (z := z) ?_ (fun hz => ?_); subst z; rotate_left; clear_value z; all_goals have z := trivial)
    | (extract_lets +onlyGivenNames z; refine Upd.cutU (z := z.1) ?_ (fun hz => ?_); subst z; rotate_left; clear_value z; all_goals have z := trivial)
    | (extract_lets +onlyGivenNames z; clear_value z; have z := trivial)
    | (with_reducible apply Upd.ite)
    | (with_reducible apply State.eyeAbort_upd; decide)
    | (with_reducible apply State.fabLaneDown_upd; decide)
    | (with_reducible apply Upd.inc; decide)
    | (with_reducible apply State.ingLaneDown_upd; decide)
    | (with_reducible apply State.jobAnswers_upd; decide)
    | (with_reducible apply State.laneEvent_upd; decide)
    | (with_reducible apply State.rclkPin_upd; decide)
    | (with_reducible apply Upd.set; decide)
    | (with_reducible apply Upd.fst; assumption)
    | simp (disch := first | decide | rfl | (apply And.intro <;> first | decide | rfl | (apply And.intro <;> rfl))) only [Upd.mk1_iff, Upd.frames_iff, Upd.ing_iff, Upd.egr_iff, Upd.brg_iff, Upd.job_iff, Upd.fab_iff, Upd.mgt_iff, Upd.sec_iff, Upd.out_iff]
    | split

theorem State.matchRungs_upd (s : State) (n : Nat) {W P : Nat} {r_ : State} (hm : (subMask 0x101180111010101110023 W && subMask 0x1ccc1f P) = true) (k_ : Upd W P r_ s) :
    Upd W P r_ (State.matchRungs s n) := by
  refine Upd.via (w := 0x101180111010101110023) (p := 0x1ccc1f) ?_ hm k_
  clear hm k_
  unfold State.matchRungs
  repeat' first
    | (with_reducible exact Upd.refl _)
    | with_reducible assumption
    | (extract_lets +onlyGivenNames z; refine Upd.cutU (z := z) ?_ (fun hz => ?_); subst z; rotate_left; clear_value z; all_goals have z := trivial)
    | (extract_lets +onlyGivenNames z; refine Upd.cutU (z := z.1) ?_ (fun hz => ?_); subst z; rotate_left; clear_value z; all_goals have z := trivial)
    | (extract_lets +onlyGivenNames z; clear_value z; have z := trivial)
    | (with_reducible apply Upd.ite)
    | (with_reducible apply State.enterDetect_upd; decide)
    | (with_reducible apply State.laneDown_upd; decide)
    | (with_reducible apply State.reason_upd; decide)
    | (with_reducible apply Upd.set; decide)
    | (with_reducible apply Upd.fst; assumption)
    | simp (disch := first | decide | rfl | (apply And.intro <;> first | decide | rfl | (apply And.intro <;> rfl))) only [Upd.mk1_iff, Upd.lane_iff, Upd.frames_iff, Upd.ing_iff, Upd.egr_iff, Upd.brg_iff, Upd.job_iff, Upd.fab_iff, Upd.mgt_iff, Upd.sec_iff, Upd.out_iff]
    | split

theorem State.laneUp_upd (s : State) (n : Nat) {W P : Nat} {r_ : State} (hm : (subMask 0x101180111010101110023 W && subMask 0x1ccc1f P) = true) (k_ : Upd W P r_ s) :
    Upd W P r_ (State.laneUp s n) := by
  refine Upd.via (w := 0x101180111010101110023) (p := 0x1ccc1f) ?_ hm k_
  clear hm k_
  unfold State.laneUp
  repeat' first
    | (with_reducible apply Upd.foldlSet; decide)
    | ((with_reducible apply Upd.foldlPair); simp only [List.all_cons, List.all_nil]; decide)
    | (with_reducible apply Upd.foldl; intro _ _)
    | (with_reducible apply Upd.foldlFst; intro _ _)
    | (with_reducible exact Upd.refl _)
    | with_reducible assumption
    | (extract_lets +onlyGivenNames z; refine Upd.cutU (z := z) ?_ (fun hz => ?_); subst z; rotate_left; clear_value z; all_goals have z := trivial)
    | (extract_lets +onlyGivenNames z; refine Upd.cutU (z := z.1) ?_ (fun hz => ?_); subst z; rotate_left; clear_value z; all_goals have z := trivial)
    | (extract_lets +onlyGivenNames z; clear_value z; have z := trivial)
    | (with_reducible apply Upd.ite)
    | (with_reducible apply State.fabLaneUp_upd; decide)
    | (with_reducible apply State.ingLaneUp_upd; decide)
    | (with_reducible apply State.jobAnswers_upd; decide)
    | (with_reducible apply State.laneEvent_upd; decide)
    | (with_reducible apply State.matchRungs_upd; decide)
    | (with_reducible apply State.rclkPin_upd; decide)
    | (with_reducible apply Upd.set; decide)
    | (with_reducible apply Upd.fst; assumption)
    | simp (disch := first | decide | rfl | (apply And.intro <;> first | decide | rfl | (apply And.intro <;> rfl))) only [Upd.mk1_iff, Upd.lane_iff, Upd.frames_iff, Upd.ing_iff, Upd.egr_iff, Upd.brg_iff, Upd.job_iff, Upd.fab_iff, Upd.mgt_iff, Upd.sec_iff, Upd.out_iff]
    | split

theorem State.laneHold_upd (s : State) (n : Nat) {W P : Nat} {r_ : State} (hm : (subMask 0x101180111010101110023 W && subMask 0x1ccc1b P) = true) (k_ : Upd W P r_ s) :
    Upd W P r_ (State.laneHold s n) := by
  refine Upd.via (w := 0x101180111010101110023) (p := 0x1ccc1b) ?_ hm k_
  clear hm k_
  unfold State.laneHold
  repeat' first
    | (with_reducible exact Upd.refl _)
    | with_reducible assumption
    | (extract_lets +onlyGivenNames z; refine Upd.cutU (z := z) ?_ (fun hz => ?_); subst z; rotate_left; clear_value z; all_goals have z := trivial)
    | (extract_lets +onlyGivenNames z; refine Upd.cutU (z := z.1) ?_ (fun hz => ?_); subst z; rotate_left; clear_value z; all_goals have z := trivial)
    | (extract_lets +onlyGivenNames z; clear_value z; have z := trivial)
    | (with_reducible apply Upd.ite)
    | (with_reducible apply State.laneDown_upd; decide)
    | (with_reducible apply State.reason_upd; decide)
    | (with_reducible apply Upd.set; decide)
    | (with_reducible apply Upd.fst; assumption)
    | simp (disch := first | decide | rfl | (apply And.intro <;> first | decide | rfl | (apply And.intro <;> rfl))) only [Upd.mk1_iff, Upd.frames_iff, Upd.ing_iff, Upd.egr_iff, Upd.brg_iff, Upd.job_iff, Upd.fab_iff, Upd.mgt_iff, Upd.sec_iff, Upd.out_iff]
    | split

theorem State.portLanesHold_upd (s : State) (p : Nat) {W P : Nat} {r_ : State} (hm : (subMask 0x101180111010101110023 W && subMask 0x1ccc1b P) = true) (k_ : Upd W P r_ s) :
    Upd W P r_ (State.portLanesHold s p) := by
  refine Upd.via (w := 0x101180111010101110023) (p := 0x1ccc1b) ?_ hm k_
  clear hm k_
  unfold State.portLanesHold
  repeat' first
    | (with_reducible apply Upd.foldl; intro _ _)
    | (with_reducible apply Upd.foldlFst; intro _ _)
    | (with_reducible exact Upd.refl _)
    | with_reducible assumption
    | (extract_lets +onlyGivenNames z; refine Upd.cutU (z := z) ?_ (fun hz => ?_); subst z; rotate_left; clear_value z; all_goals have z := trivial)
    | (extract_lets +onlyGivenNames z; refine Upd.cutU (z := z.1) ?_ (fun hz => ?_); subst z; rotate_left; clear_value z; all_goals have z := trivial)
    | (extract_lets +onlyGivenNames z; clear_value z; have z := trivial)
    | (with_reducible apply Upd.ite)
    | (with_reducible apply State.laneHold_upd; decide)
    | (with_reducible apply Upd.fst; assumption)
    | simp (disch := first | decide | rfl | (apply And.intro <;> first | decide | rfl | (apply And.intro <;> rfl))) only [Upd.mk1_iff, Upd.frames_iff, Upd.ing_iff, Upd.egr_iff, Upd.brg_iff, Upd.job_iff, Upd.fab_iff, Upd.mgt_iff, Upd.sec_iff, Upd.out_iff]
    | split

theorem State.fabUnhold_upd (s : State) (p : Nat) {W P : Nat} {r_ : State} (hm : (subMask 0x1000000000000010001 W && subMask 0x108004 P) = true) (k_ : Upd W P r_ s) :
    Upd W P r_ (State.fabUnhold s p) := by
  refine Upd.via (w := 0x1000000000000010001) (p := 0x108004) ?_ hm k_
  clear hm k_
  unfold State.fabUnhold
  repeat' first
    | (with_reducible apply Upd.foldl; intro _ _)
    | (with_reducible apply Upd.foldlFst; intro _ _)
    | (with_reducible exact Upd.refl _)
    | with_reducible assumption
    | (extract_lets +onlyGivenNames z; refine Upd.cutU (z := z) ?_ (fun hz => ?_); subst z; rotate_left; clear_value z; all_goals have z := trivial)
    | (extract_lets +onlyGivenNames z; refine Upd.cutU (z := z.1) ?_ (fun hz => ?_); subst z; rotate_left; clear_value z; all_goals have z := trivial)
    | (extract_lets +onlyGivenNames z; clear_value z; have z := trivial)
    | (with_reducible apply Upd.ite)
    | (with_reducible apply State.enterDetect_upd; decide)
    | (with_reducible apply State.portChanged_upd; decide)
    | (with_reducible apply Upd.set; decide)
    | (with_reducible apply Upd.fst; assumption)
    | simp (disch := decide) only [Upd.mk1_iff, Upd.lane_iff, Upd.fab_iff, Upd.out_iff]
    | split

theorem State.leaveActive_upd (s : State) (n : Nat) (r : Nat) {W P : Nat} {r_ : State} (hm : (subMask 0x101180111010101110023 W && subMask 0x1ccc1f P) = true) (k_ : Upd W P r_ s) :
    Upd W P r_ (State.leaveActive s n r) := by
  refine Upd.via (w := 0x101180111010101110023) (p := 0x1ccc1f) ?_ hm k_
  clear hm k_
  unfold State.leaveActive
  repeat' first
    | (with_reducible exact Upd.refl _)
    | with_reducible assumption
    | (extract_lets +onlyGivenNames z; refine Upd.cutU (z := z) ?_ (fun hz => ?_); subst z; rotate_left; clear_value z; all_goals have z := trivial)
    | (extract_lets +onlyGivenNames z; refine Upd.cutU (z := z.1) ?_ (fun hz => ?_); subst z; rotate_left; clear_value z; all_goals have z := trivial)
    | (extract_lets +onlyGivenNames z; clear_value z; have z := trivial)
    | (with_reducible apply Upd.ite)
    | (with_reducible apply State.enterDetect_upd; decide)
    | (with_reducible apply State.exclude_upd; decide)
    | (with_reducible apply State.laneDown_upd; decide)
    | (with_reducible apply State.reason_upd; decide)
    | (with_reducible apply Upd.set; decide)
    | (with_reducible apply Upd.fst; assumption)
    | simp (disch := first | decide | rfl | (apply And.intro <;> first | decide | rfl | (apply And.intro <;> rfl))) only [Upd.mk1_iff, Upd.lane_iff, Upd.frames_iff, Upd.ing_iff, Upd.egr_iff, Upd.brg_iff, Upd.job_iff, Upd.fab_iff, Upd.mgt_iff, Upd.sec_iff, Upd.out_iff]
    | split

theorem State.leaveActiveNap_upd (s : State) (n : Nat) {W P : Nat} {r_ : State} (hm : (subMask 0x101180111010101110023 W && subMask 0x1ccc1f P) = true) (k_ : Upd W P r_ s) :
    Upd W P r_ (State.leaveActiveNap s n) := by
  refine Upd.via (w := 0x101180111010101110023) (p := 0x1ccc1f) ?_ hm k_
  clear hm k_
  unfold State.leaveActiveNap
  repeat' first
    | (with_reducible exact Upd.refl _)
    | with_reducible assumption
    | (extract_lets +onlyGivenNames z; refine Upd.cutU (z := z) ?_ (fun hz => ?_); subst z; rotate_left; clear_value z; all_goals have z := trivial)
    | (extract_lets +onlyGivenNames z; refine Upd.cutU (z := z.1) ?_ (fun hz => ?_); subst z; rotate_left; clear_value z; all_goals have z := trivial)
    | (extract_lets +onlyGivenNames z; clear_value z; have z := trivial)
    | (with_reducible apply Upd.ite)
    | (with_reducible apply State.enterDetect_upd; decide)
    | (with_reducible apply State.laneDown_upd; decide)
    | (with_reducible apply State.laneEvent_upd; decide)
    | (with_reducible apply State.reason_upd; decide)
    | (with_reducible apply Upd.fst; assumption)
    | simp (disch := first | decide | rfl | (apply And.intro <;> first | decide | rfl | (apply And.intro <;> rfl))) only [Upd.mk1_iff, Upd.lane_iff, Upd.frames_iff, Upd.ing_iff, Upd.egr_iff, Upd.brg_iff, Upd.job_iff, Upd.fab_iff, Upd.mgt_iff, Upd.sec_iff, Upd.out_iff]
    | split

end Sys2Proof.Machine
end

