-- ==== Sys2Proof/Laws/UpdFabNet.lean ====
section
/-! SUPPORT. What each operation of Machine/FabNet.lean may change (see Laws/Upd.lean). -/

set_option linter.unusedSimpArgs false
set_option linter.tactic.unusedName false

namespace Sys2Proof.Machine

theorem State.waymarkIn_upd (s : State) (p : Nat) (b : List Nat) {W P : Nat} {r_ : State} (hm : (subMask 0x1000000000000000001 W && subMask 0x108002 P) = true) (k_ : Upd W P r_ s) :
    Upd W P r_ (State.waymarkIn s p b) := by
  refine Upd.via (w := 0x1000000000000000001) (p := 0x108002) ?_ hm k_
  clear hm k_
  unfold State.waymarkIn
  repeat' first
    | ((with_reducible apply Upd.foldlPair); simp only [List.all_cons, List.all_nil]; decide)
    | ((with_reducible apply Upd.foldlCopy); simp only [List.all_cons, List.all_nil]; decide)
    | (extract_lets +onlyGivenNames z; have _t : List (Fld × Fld) := z; clear _t; subst z; have z := trivial)
    | (extract_lets +onlyGivenNames z; have _t : List (Fld × Nat) := z; clear _t; subst z; have z := trivial)
    | (with_reducible apply Upd.foldl; intro _ _)
    | (with_reducible apply Upd.foldlFst; intro _ _)
    | (with_reducible exact Upd.refl _)
    | with_reducible assumption
    | (extract_lets +onlyGivenNames z; refine Upd.cutU (z := z) ?_ (fun hz => ?_); subst z; rotate_left; clear_value z; all_goals have z := trivial)
    | (extract_lets +onlyGivenNames z; refine Upd.cutU (z := z.1) ?_ (fun hz => ?_); subst z; rotate_left; clear_value z; all_goals have z := trivial)
    | (extract_lets +onlyGivenNames z; clear_value z; have z := trivial)
    | (with_reducible apply Upd.ite)
    | (with_reducible apply State.advertise_upd; decide)
    | (with_reducible apply State.fabEvent_upd; decide)
    | (with_reducible apply State.portChanged_upd; decide)
    | (with_reducible apply Upd.set; decide)
    | (with_reducible apply Upd.fst; assumption)
    | simp (disch := decide) only [Upd.mk1_iff, Upd.fab_iff, Upd.out_iff]
    | split

theorem State.fanOut_upd (s : State) (ports : List Nat) (d : List Nat) {W P : Nat} {r_ : State} (hm : (subMask 0x0 W && subMask 0x8000 P) = true) (k_ : Upd W P r_ s) :
    Upd W P r_ (State.fanOut s ports d) := by
  refine Upd.via (w := 0x0) (p := 0x8000) ?_ hm k_
  clear hm k_
  unfold State.fanOut
  repeat' first
    | (with_reducible apply Upd.foldl; intro _ _)
    | (with_reducible apply Upd.foldlFst; intro _ _)
    | (with_reducible exact Upd.refl _)
    | with_reducible assumption
    | (extract_lets +onlyGivenNames z; refine Upd.cutU (z := z) ?_ (fun hz => ?_); subst z; rotate_left; clear_value z; all_goals have z := trivial)
    | (extract_lets +onlyGivenNames z; refine Upd.cutU (z := z.1) ?_ (fun hz => ?_); subst z; rotate_left; clear_value z; all_goals have z := trivial)
    | (extract_lets +onlyGivenNames z; clear_value z; have z := trivial)
    | (with_reducible apply Upd.ite)
    | (with_reducible apply State.fabQueue_upd; decide)
    | (with_reducible apply Upd.fst; assumption)
    | simp (disch := decide) only [Upd.mk1_iff, Upd.fab_iff]
    | split

theorem State.linkStateIn_upd (s : State) (p : Nat) (d : List Nat) {W P : Nat} {r_ : State} (hm : (subMask 0x1000000000000000001 W && subMask 0x108002 P) = true) (k_ : Upd W P r_ s) :
    Upd W P r_ (State.linkStateIn s p d) := by
  refine Upd.via (w := 0x1000000000000000001) (p := 0x108002) ?_ hm k_
  clear hm k_
  unfold State.linkStateIn
  repeat' first
    | (with_reducible exact Upd.refl _)
    | with_reducible assumption
    | (extract_lets +onlyGivenNames z; refine Upd.cutU (z := z) ?_ (fun hz => ?_); subst z; rotate_left; clear_value z; all_goals have z := trivial)
    | (extract_lets +onlyGivenNames z; refine Upd.cutU (z := z.1) ?_ (fun hz => ?_); subst z; rotate_left; clear_value z; all_goals have z := trivial)
    | (extract_lets +onlyGivenNames z; clear_value z; have z := trivial)
    | (with_reducible apply Upd.ite)
    | (with_reducible apply State.fabEvent_upd; decide)
    | (with_reducible apply State.fanOut_upd; decide)
    | (with_reducible apply State.stageRoutes_upd; decide)
    | (with_reducible apply Upd.fst; assumption)
    | simp (disch := decide) only [Upd.mk1_iff, Upd.fab_iff, Upd.out_iff]
    | split

theorem State.adoptTable_upd (s : State) (epoch : Nat) (l : List IdEntry) {W P : Nat} {r_ : State} (hm : (subMask 0x1000000000000000001 W && subMask 0x10c002 P) = true) (k_ : Upd W P r_ s) :
    Upd W P r_ (State.adoptTable s epoch l) := by
  refine Upd.via (w := 0x1000000000000000001) (p := 0x10c002) ?_ hm k_
  clear hm k_
  unfold State.adoptTable
  repeat' first
    | (with_reducible apply Upd.foldl; intro _ _)
    | (with_reducible apply Upd.foldlFst; intro _ _)
    | (with_reducible exact Upd.refl _)
    | with_reducible assumption
    | (extract_lets +onlyGivenNames z; refine Upd.cutU (z := z) ?_ (fun hz => ?_); subst z; rotate_left; clear_value z; all_goals have z := trivial)
    | (extract_lets +onlyGivenNames z; refine Upd.cutU (z := z.1) ?_ (fun hz => ?_); subst z; rotate_left; clear_value z; all_goals have z := trivial)
    | (extract_lets +onlyGivenNames z; have _t : State → _ := z; clear _t; subst z; have z := trivial)
    | (extract_lets +onlyGivenNames z; have _t : _ → State := z; clear _t; subst z; have z := trivial)
    | (extract_lets +onlyGivenNames z; have _t : _ → _ → State := z; clear _t; subst z; have z := trivial)
    | (extract_lets +onlyGivenNames z; clear_value z; have z := trivial)
    | (with_reducible apply Upd.ite)
    | (with_reducible apply State.fabEvent_upd; decide)
    | (with_reducible apply State.peerSend_upd; decide)
    | (with_reducible apply Upd.set; decide)
    | (with_reducible apply State.stageRoutes_upd; decide)
    | (with_reducible apply Upd.fst; assumption)
    | simp (disch := decide) only [Upd.mk1_iff, Upd.job_iff, Upd.fab_iff, Upd.out_iff]
    | split

theorem State.idTableIn_upd (s : State) (p : Nat) (d : List Nat) {W P : Nat} {r_ : State} (hm : (subMask 0x1000000000000000001 W && subMask 0x10c002 P) = true) (k_ : Upd W P r_ s) :
    Upd W P r_ (State.idTableIn s p d) := by
  refine Upd.via (w := 0x1000000000000000001) (p := 0x10c002) ?_ hm k_
  clear hm k_
  unfold State.idTableIn
  repeat' first
    | (with_reducible exact Upd.refl _)
    | with_reducible assumption
    | (extract_lets +onlyGivenNames z; refine Upd.cutU (z := z) ?_ (fun hz => ?_); subst z; rotate_left; clear_value z; all_goals have z := trivial)
    | (extract_lets +onlyGivenNames z; refine Upd.cutU (z := z.1) ?_ (fun hz => ?_); subst z; rotate_left; clear_value z; all_goals have z := trivial)
    | (extract_lets +onlyGivenNames z; clear_value z; have z := trivial)
    | (with_reducible apply Upd.ite)
    | (with_reducible apply State.adoptTable_upd; decide)
    | (with_reducible apply State.fanOut_upd; decide)
    | (with_reducible apply Upd.fst; assumption)
    | simp (disch := decide) only [Upd.mk1_iff, Upd.job_iff, Upd.fab_iff, Upd.out_iff]
    | split

theorem State.timeRequestIn_upd (s : State) (p : Nat) (d : List Nat) (stamp : Nat) {W P : Nat} {r_ : State} (hm : (subMask 0x0 W && subMask 0x8000 P) = true) (k_ : Upd W P r_ s) :
    Upd W P r_ (State.timeRequestIn s p d stamp) := by
  refine Upd.via (w := 0x0) (p := 0x8000) ?_ hm k_
  clear hm k_
  unfold State.timeRequestIn
  repeat' first
    | (with_reducible exact Upd.refl _)
    | with_reducible assumption
    | (extract_lets +onlyGivenNames z; refine Upd.cutU (z := z) ?_ (fun hz => ?_); subst z; rotate_left; clear_value z; all_goals have z := trivial)
    | (extract_lets +onlyGivenNames z; refine Upd.cutU (z := z.1) ?_ (fun hz => ?_); subst z; rotate_left; clear_value z; all_goals have z := trivial)
    | (extract_lets +onlyGivenNames z; clear_value z; have z := trivial)
    | (with_reducible apply Upd.ite)
    | (with_reducible apply State.fabQueue_upd; decide)
    | (with_reducible apply Upd.fst; assumption)
    | simp (disch := decide) only [Upd.mk1_iff, Upd.fab_iff]
    | split

theorem State.removeOffset_upd (s : State) (off : Int) {W P : Nat} {r_ : State} (hm : (subMask 0x1000000 W && subMask 0x0 P) = true) (k_ : Upd W P r_ s) :
    Upd W P r_ (State.removeOffset s off) := by
  refine Upd.via (w := 0x1000000) (p := 0x0) ?_ hm k_
  clear hm k_
  unfold State.removeOffset
  repeat' first
    | (with_reducible exact Upd.refl _)
    | with_reducible assumption
    | (extract_lets +onlyGivenNames z; refine Upd.cutU (z := z) ?_ (fun hz => ?_); subst z; rotate_left; clear_value z; all_goals have z := trivial)
    | (extract_lets +onlyGivenNames z; refine Upd.cutU (z := z.1) ?_ (fun hz => ?_); subst z; rotate_left; clear_value z; all_goals have z := trivial)
    | (extract_lets +onlyGivenNames z; clear_value z; have z := trivial)
    | (with_reducible apply Upd.ite)
    | (with_reducible apply Upd.set; decide)
    | (with_reducible apply State.slewBy_upd; decide)
    | (with_reducible apply Upd.fst; assumption)
    | simp (disch := decide) only [Upd.mk1_iff]
    | split

theorem State.timeUnlock_upd (s : State) {W P : Nat} {r_ : State} (hm : (subMask 0x1000000000000000001 W && subMask 0x100002 P) = true) (k_ : Upd W P r_ s) :
    Upd W P r_ (State.timeUnlock s) := by
  refine Upd.via (w := 0x1000000000000000001) (p := 0x100002) ?_ hm k_
  clear hm k_
  unfold State.timeUnlock
  repeat' first
    | (with_reducible exact Upd.refl _)
    | with_reducible assumption
    | (extract_lets +onlyGivenNames z; refine Upd.cutU (z := z) ?_ (fun hz => ?_); subst z; rotate_left; clear_value z; all_goals have z := trivial)
    | (extract_lets +onlyGivenNames z; refine Upd.cutU (z := z.1) ?_ (fun hz => ?_); subst z; rotate_left; clear_value z; all_goals have z := trivial)
    | (extract_lets +onlyGivenNames z; clear_value z; have z := trivial)
    | (with_reducible apply Upd.ite)
    | (with_reducible apply State.fabEvent_upd; decide)
    | (with_reducible apply Upd.set; decide)
    | (with_reducible apply Upd.fst; assumption)
    | simp (disch := decide) only [Upd.mk1_iff, Upd.out_iff]
    | split

theorem State.useOffset_upd (s : State) (off : Int) {W P : Nat} {r_ : State} (hm : (subMask 0x1000000000001000005 W && subMask 0x100002 P) = true) (k_ : Upd W P r_ s) :
    Upd W P r_ (State.useOffset s off) := by
  refine Upd.via (w := 0x1000000000001000005) (p := 0x100002) ?_ hm k_
  clear hm k_
  unfold State.useOffset
  repeat' first
    | (with_reducible exact Upd.refl _)
    | with_reducible assumption
    | (extract_lets +onlyGivenNames z; refine Upd.cutU (z := z) ?_ (fun hz => ?_); subst z; rotate_left; clear_value z; all_goals have z := trivial)
    | (extract_lets +onlyGivenNames z; refine Upd.cutU (z := z.1) ?_ (fun hz => ?_); subst z; rotate_left; clear_value z; all_goals have z := trivial)
    | (extract_lets +onlyGivenNames z; clear_value z; have z := trivial)
    | (with_reducible apply Upd.ite)
    | (with_reducible apply State.removeOffset_upd; decide)
    | (with_reducible apply Upd.set; decide)
    | (with_reducible apply State.timeUnlock_upd; decide)
    | (with_reducible apply Upd.fst; assumption)
    | simp (disch := decide) only [Upd.mk1_iff, Upd.out_iff]
    | split

theorem State.timeResponseIn_upd (s : State) (p : Nat) (d : List Nat) (stamp : Nat) {W P : Nat} {r_ : State} (hm : (subMask 0x1000000000001000005 W && subMask 0x100002 P) = true) (k_ : Upd W P r_ s) :
    Upd W P r_ (State.timeResponseIn s p d stamp) := by
  refine Upd.via (w := 0x1000000000001000005) (p := 0x100002) ?_ hm k_
  clear hm k_
  unfold State.timeResponseIn
  repeat' first
    | (with_reducible exact Upd.refl _)
    | with_reducible assumption
    | (extract_lets +onlyGivenNames z; refine Upd.cutU (z := z) ?_ (fun hz => ?_); subst z; rotate_left; clear_value z; all_goals have z := trivial)
    | (extract_lets +onlyGivenNames z; refine Upd.cutU (z := z.1) ?_ (fun hz => ?_); subst z; rotate_left; clear_value z; all_goals have z := trivial)
    | (extract_lets +onlyGivenNames z; clear_value z; have z := trivial)
    | (with_reducible apply Upd.ite)
    | (with_reducible apply Upd.set; decide)
    | (with_reducible apply State.useOffset_upd; decide)
    | (with_reducible apply Upd.fst; assumption)
    | simp (disch := decide) only [Upd.mk1_iff, Upd.out_iff]
    | split

theorem State.bulkCommit_upd (s : State) (node : Nat) (tag : Nat) (id : Nat) (packets : Nat) (bytes : Nat) {W P : Nat} {r_ : State} (hm : (subMask 0x1000000000000000001 W && subMask 0x108002 P) = true) (k_ : Upd W P r_ s) :
    Upd W P r_ (State.bulkCommit s node tag id packets bytes) := by
  refine Upd.via (w := 0x1000000000000000001) (p := 0x108002) ?_ hm k_
  clear hm k_
  unfold State.bulkCommit
  repeat' first
    | (with_reducible exact Upd.refl _)
    | with_reducible assumption
    | (extract_lets +onlyGivenNames z; refine Upd.cutU (z := z) ?_ (fun hz => ?_); subst z; rotate_left; clear_value z; all_goals have z := trivial)
    | (extract_lets +onlyGivenNames z; refine Upd.cutU (z := z.1) ?_ (fun hz => ?_); subst z; rotate_left; clear_value z; all_goals have z := trivial)
    | (extract_lets +onlyGivenNames z; clear_value z; have z := trivial)
    | (with_reducible apply Upd.ite)
    | (with_reducible apply State.ctrlReply_upd; decide)
    | (with_reducible apply Upd.fst; assumption)
    | simp (disch := decide) only [Upd.mk1_iff, Upd.fab_iff, Upd.out_iff]
    | split

theorem State.ctrlRequestIn_upd (s : State) (d : List Nat) {W P : Nat} {r_ : State} (hm : (subMask 0x101180111010101100023 W && subMask 0x1ccc03 P) = true) (k_ : Upd W P r_ s) :
    Upd W P r_ (State.ctrlRequestIn s d) := by
  refine Upd.via (w := 0x101180111010101100023) (p := 0x1ccc03) ?_ hm k_
  clear hm k_
  unfold State.ctrlRequestIn
  repeat' first
    | (with_reducible exact Upd.refl _)
    | with_reducible assumption
    | (extract_lets +onlyGivenNames z; refine Upd.cutU (z := z) ?_ (fun hz => ?_); subst z; rotate_left; clear_value z; all_goals have z := trivial)
    | (extract_lets +onlyGivenNames z; refine Upd.cutU (z := z.1) ?_ (fun hz => ?_); subst z; rotate_left; clear_value z; all_goals have z := trivial)
    | (extract_lets +onlyGivenNames z; clear_value z; have z := trivial)
    | (with_reducible apply Upd.ite)
    | (with_reducible apply State.bulkCommit_upd; decide)
    | (with_reducible apply State.busy_upd; decide)
    | (with_reducible apply State.ctrlReply_upd; decide)
    | (with_reducible apply State.emit_upd; decide)
    | (with_reducible apply State.msgArm_upd; decide)
    | (with_reducible apply State.msgCancel_upd; decide)
    | (with_reducible apply State.msgPrepare_upd; decide)
    | (with_reducible apply Upd.fst; assumption)
    | simp (disch := first | decide | rfl | (apply And.intro <;> first | decide | rfl | (apply And.intro <;> rfl))) only [Upd.mk1_iff, Upd.egr_iff, Upd.brg_iff, Upd.job_iff, Upd.fab_iff, Upd.mgt_iff, Upd.sec_iff, Upd.out_iff]
    | split

theorem State.ctrlReplyIn_upd (s : State) (d : List Nat) {W P : Nat} {r_ : State} (hm : (subMask 0x1000000000000000000 W && subMask 0x8000 P) = true) (k_ : Upd W P r_ s) :
    Upd W P r_ (State.ctrlReplyIn s d) := by
  refine Upd.via (w := 0x1000000000000000000) (p := 0x8000) ?_ hm k_
  clear hm k_
  unfold State.ctrlReplyIn
  repeat' first
    | (with_reducible exact Upd.refl _)
    | with_reducible assumption
    | (extract_lets +onlyGivenNames z; refine Upd.cutU (z := z) ?_ (fun hz => ?_); subst z; rotate_left; clear_value z; all_goals have z := trivial)
    | (extract_lets +onlyGivenNames z; refine Upd.cutU (z := z.1) ?_ (fun hz => ?_); subst z; rotate_left; clear_value z; all_goals have z := trivial)
    | (extract_lets +onlyGivenNames z; clear_value z; have z := trivial)
    | (with_reducible apply Upd.ite)
    | (with_reducible apply Upd.inc; decide)
    | (with_reducible apply State.reqDone_upd; decide)
    | (with_reducible apply Upd.fst; assumption)
    | simp (disch := decide) only [Upd.mk1_iff, Upd.fab_iff]
    | split

theorem State.bulkStore_upd (s : State) (addr : Nat) (data : List Nat) {W P : Nat} {r_ : State} (hm : (subMask 0x100000000000000000001 W && subMask 0x500003 P) = true) (k_ : Upd W P r_ s) :
    Upd W P r_ (State.bulkStore s addr data).1 := by
  refine Upd.via (w := 0x100000000000000000001) (p := 0x500003) ?_ hm k_
  clear hm k_
  unfold State.bulkStore
  repeat' first
    | (with_reducible exact Upd.refl _)
    | with_reducible assumption
    | (extract_lets +onlyGivenNames z; refine Upd.cutU (z := z) ?_ (fun hz => ?_); subst z; rotate_left; clear_value z; all_goals have z := trivial)
    | (extract_lets +onlyGivenNames z; refine Upd.cutU (z := z.1) ?_ (fun hz => ?_); subst z; rotate_left; clear_value z; all_goals have z := trivial)
    | (extract_lets +onlyGivenNames z; clear_value z; have z := trivial)
    | (with_reducible apply Upd.ite)
    | (with_reducible apply Upd.iteFst)
    | (with_reducible apply State.blockWrite_upd; decide)
    | (with_reducible apply Upd.fst; assumption)
    | simp (disch := decide) only [Upd.mk1_iff, Upd.out_iff, Upd.bad_iff]
    | split

theorem State.bulkIn_upd (s : State) (p : Nat) (d : List Nat) {W P : Nat} {r_ : State} (hm : (subMask 0x101000000000000000001 W && subMask 0x508003 P) = true) (k_ : Upd W P r_ s) :
    Upd W P r_ (State.bulkIn s p d) := by
  refine Upd.via (w := 0x101000000000000000001) (p := 0x508003) ?_ hm k_
  clear hm k_
  unfold State.bulkIn
  repeat' first
    | (with_reducible exact Upd.refl _)
    | with_reducible assumption
    | (extract_lets +onlyGivenNames z; refine Upd.cutU (z := z) ?_ (fun hz => ?_); subst z; rotate_left; clear_value z; all_goals have z := trivial)
    | (extract_lets +onlyGivenNames z; refine Upd.cutU (z := z.1) ?_ (fun hz => ?_); subst z; rotate_left; clear_value z; all_goals have z := trivial)
    | (extract_lets +onlyGivenNames z; clear_value z; have z := trivial)
    | (with_reducible apply Upd.ite)
    | (with_reducible apply State.bulkStore_upd; decide)
    | (with_reducible apply State.fabDiscard_upd; decide)
    | (with_reducible apply Upd.fst; assumption)
    | simp (disch := decide) only [Upd.mk1_iff, Upd.fab_iff, Upd.out_iff, Upd.bad_iff]
    | split

theorem State.fabUnknown_upd (s : State) (p : Nat) {W P : Nat} {r_ : State} (hm : (subMask 0x1000000000000000000 W && subMask 0x0 P) = true) (k_ : Upd W P r_ s) :
    Upd W P r_ (State.fabUnknown s p) := by
  refine Upd.via (w := 0x1000000000000000000) (p := 0x0) ?_ hm k_
  clear hm k_
  unfold State.fabUnknown
  repeat' first
    | (with_reducible exact Upd.refl _)
    | with_reducible assumption
    | (extract_lets +onlyGivenNames z; refine Upd.cutU (z := z) ?_ (fun hz => ?_); subst z; rotate_left; clear_value z; all_goals have z := trivial)
    | (extract_lets +onlyGivenNames z; refine Upd.cutU (z := z.1) ?_ (fun hz => ?_); subst z; rotate_left; clear_value z; all_goals have z := trivial)
    | (extract_lets +onlyGivenNames z; clear_value z; have z := trivial)
    | (with_reducible apply Upd.ite)
    | (with_reducible apply Upd.inc; decide)
    | (with_reducible apply Upd.fst; assumption)
    | simp (disch := decide) only [Upd.mk1_iff]
    | split

theorem State.fabServed_upd (s : State) (p : Nat) (d : List Nat) {W P : Nat} {r_ : State} (hm : (subMask 0x101180111010101100023 W && subMask 0x5ccd8b P) = true) (k_ : Upd W P r_ s) :
    Upd W P r_ (State.fabServed s p d) := by
  refine Upd.via (w := 0x101180111010101100023) (p := 0x5ccd8b) ?_ hm k_
  clear hm k_
  unfold State.fabServed
  repeat' first
    | (with_reducible exact Upd.refl _)
    | with_reducible assumption
    | (extract_lets +onlyGivenNames z; refine Upd.cutU (z := z) ?_ (fun hz => ?_); subst z; rotate_left; clear_value z; all_goals have z := trivial)
    | (extract_lets +onlyGivenNames z; refine Upd.cutU (z := z.1) ?_ (fun hz => ?_); subst z; rotate_left; clear_value z; all_goals have z := trivial)
    | (extract_lets +onlyGivenNames z; clear_value z; have z := trivial)
    | (with_reducible apply Upd.ite)
    | (with_reducible apply State.bulkIn_upd; decide)
    | (with_reducible apply State.ctrlReplyIn_upd; decide)
    | (with_reducible apply State.ctrlRequestIn_upd; decide)
    | (with_reducible apply State.fabDiscard_upd; decide)
    | (with_reducible apply State.fabUnknown_upd; decide)
    | (with_reducible apply State.lateEnter_upd; decide)
    | (with_reducible apply State.seamReceived_upd; decide)
    | (with_reducible apply Upd.fst; assumption)
    | simp (disch := first | decide | rfl | (apply And.intro <;> first | decide | rfl | (apply And.intro <;> rfl))) only [Upd.mk1_iff, Upd.frames_iff, Upd.blankets_iff, Upd.ref_iff, Upd.egr_iff, Upd.brg_iff, Upd.job_iff, Upd.fab_iff, Upd.mgt_iff, Upd.sec_iff, Upd.out_iff, Upd.bad_iff]
    | split

theorem State.fabForward_upd (s : State) (p : Nat) (cls : Nat) (d : List Nat) (poison : Bool) {W P : Nat} {r_ : State} (hm : (subMask 0x1000000000000000001 W && subMask 0x108002 P) = true) (k_ : Upd W P r_ s) :
    Upd W P r_ (State.fabForward s p cls d poison) := by
  refine Upd.via (w := 0x1000000000000000001) (p := 0x108002) ?_ hm k_
  clear hm k_
  unfold State.fabForward
  repeat' first
    | (with_reducible exact Upd.refl _)
    | with_reducible assumption
    | (extract_lets +onlyGivenNames z; refine Upd.cutU (z := z) ?_ (fun hz => ?_); subst z; rotate_left; clear_value z; all_goals have z := trivial)
    | (extract_lets +onlyGivenNames z; refine Upd.cutU (z := z.1) ?_ (fun hz => ?_); subst z; rotate_left; clear_value z; all_goals have z := trivial)
    | (extract_lets +onlyGivenNames z; clear_value z; have z := trivial)
    | (with_reducible apply Upd.ite)
    | (with_reducible apply State.fabDiscard_upd; decide)
    | (with_reducible apply State.fabQueue_upd; decide)
    | (with_reducible apply Upd.fst; assumption)
    | simp (disch := decide) only [Upd.mk1_iff, Upd.fab_iff, Upd.out_iff]
    | split

theorem State.netReceive_upd (s : State) (p : Nat) (cls : Nat) (d : List Nat) (stamp : Nat) {W P : Nat} {r_ : State} (hm : (subMask 0x101180111010101100027 W && subMask 0x5ccd8b P) = true) (k_ : Upd W P r_ s) :
    Upd W P r_ (State.netReceive s p cls d stamp) := by
  refine Upd.via (w := 0x101180111010101100027) (p := 0x5ccd8b) ?_ hm k_
  clear hm k_
  unfold State.netReceive
  repeat' first
    | (with_reducible exact Upd.refl _)
    | with_reducible assumption
    | (extract_lets +onlyGivenNames z; refine Upd.cutU (z := z) ?_ (fun hz => ?_); subst z; rotate_left; clear_value z; all_goals have z := trivial)
    | (extract_lets +onlyGivenNames z; refine Upd.cutU (z := z.1) ?_ (fun hz => ?_); subst z; rotate_left; clear_value z; all_goals have z := trivial)
    | (extract_lets +onlyGivenNames z; clear_value z; have z := trivial)
    | (with_reducible apply Upd.ite)
    | (with_reducible apply State.fabForward_upd; decide)
    | (with_reducible apply State.fabServed_upd; decide)
    | (with_reducible apply State.fabUnknown_upd; decide)
    | (with_reducible apply State.idTableIn_upd; decide)
    | (with_reducible apply State.linkStateIn_upd; decide)
    | (with_reducible apply State.sendCredit_upd; decide)
    | (with_reducible apply State.timeRequestIn_upd; decide)
    | (with_reducible apply State.timeResponseIn_upd; decide)
    | (with_reducible apply State.waymarkIn_upd; decide)
    | (with_reducible apply Upd.fst; assumption)
    | simp (disch := first | decide | rfl | (apply And.intro <;> first | decide | rfl | (apply And.intro <;> rfl))) only [Upd.mk1_iff, Upd.frames_iff, Upd.blankets_iff, Upd.ref_iff, Upd.egr_iff, Upd.brg_iff, Upd.job_iff, Upd.fab_iff, Upd.mgt_iff, Upd.sec_iff, Upd.out_iff, Upd.bad_iff]
    | split

theorem State.netTyped_upd (s : State) (p : Nat) (ty : Nat) (d : List Nat) (stamp : Nat) {W P : Nat} {r_ : State} (hm : (subMask 0x101180111010101110027 W && subMask 0x5ccd8b P) = true) (k_ : Upd W P r_ s) :
    Upd W P r_ (State.netTyped s p ty d stamp) := by
  refine Upd.via (w := 0x101180111010101110027) (p := 0x5ccd8b) ?_ hm k_
  clear hm k_
  unfold State.netTyped
  repeat' first
    | (with_reducible exact Upd.refl _)
    | with_reducible assumption
    | (extract_lets +onlyGivenNames z; refine Upd.cutU (z := z) ?_ (fun hz => ?_); subst z; rotate_left; clear_value z; all_goals have z := trivial)
    | (extract_lets +onlyGivenNames z; refine Upd.cutU (z := z.1) ?_ (fun hz => ?_); subst z; rotate_left; clear_value z; all_goals have z := trivial)
    | (extract_lets +onlyGivenNames z; clear_value z; have z := trivial)
    | (with_reducible apply Upd.ite)
    | (with_reducible apply State.jobAnswers_upd; decide)
    | (with_reducible apply State.netReceive_upd; decide)
    | (with_reducible apply State.portPayload_upd; decide)
    | (with_reducible apply Upd.fst; assumption)
    | simp (disch := first | decide | rfl | (apply And.intro <;> first | decide | rfl | (apply And.intro <;> rfl))) only [Upd.mk1_iff, Upd.frames_iff, Upd.blankets_iff, Upd.ref_iff, Upd.egr_iff, Upd.brg_iff, Upd.job_iff, Upd.fab_iff, Upd.mgt_iff, Upd.sec_iff, Upd.out_iff, Upd.bad_iff]
    | split

end Sys2Proof.Machine
end

