-- ==== Sys2Proof/Laws/UpdSecOps.lean ====
section
/-! SUPPORT. What each operation of Machine/SecOps.lean may change (see Laws/Upd.lean). -/

set_option linter.unusedSimpArgs false
set_option linter.tactic.unusedName false

namespace Sys2Proof.Machine

theorem State.dropGroup_upd (s : State) {W P : Nat} {r_ : State} (hm : (subMask 0x2 W && subMask 0x80000 P) = true) (k_ : Upd W P r_ s) :
    Upd W P r_ (State.dropGroup s) := by
  refine Upd.via (w := 0x2) (p := 0x80000) ?_ hm k_
  clear hm k_
  unfold State.dropGroup
  repeat' first
    | (with_reducible exact Upd.refl _)
    | with_reducible assumption
    | (extract_lets +onlyGivenNames z; refine Upd.cutU (z := z) ?_ (fun hz => ?_); subst z; rotate_left; clear_value z; all_goals have z := trivial)
    | (extract_lets +onlyGivenNames z; refine Upd.cutU (z := z.1) ?_ (fun hz => ?_); subst z; rotate_left; clear_value z; all_goals have z := trivial)
    | (extract_lets +onlyGivenNames z; have _t : SecS := z; clear _t; subst z; have z := trivial)
    | (extract_lets +onlyGivenNames z; clear_value z; have z := trivial)
    | (with_reducible apply Upd.ite)
    | (with_reducible apply Upd.set; decide)
    | (with_reducible apply Upd.fst; assumption)
    | simp (disch := first | decide | rfl | (apply And.intro <;> first | decide | rfl | (apply And.intro <;> rfl))) only [Upd.mk1_iff, Upd.sec_iff]
    | split

theorem State.appendRecord_upd (s : State) (r : AuditRec) {W P : Nat} {r_ : State} (hm : (subMask 0x3 W && subMask 0x180002 P) = true) (k_ : Upd W P r_ s) :
    Upd W P r_ (State.appendRecord s r) := by
  refine Upd.via (w := 0x3) (p := 0x180002) ?_ hm k_
  clear hm k_
  unfold State.appendRecord
  repeat' first
    | (with_reducible exact Upd.refl _)
    | with_reducible assumption
    | (extract_lets +onlyGivenNames z; refine Upd.cutU (z := z) ?_ (fun hz => ?_); subst z; rotate_left; clear_value z; all_goals have z := trivial)
    | (extract_lets +onlyGivenNames z; refine Upd.cutU (z := z.1) ?_ (fun hz => ?_); subst z; rotate_left; clear_value z; all_goals have z := trivial)
    | (extract_lets +onlyGivenNames z; have _t : SecS := z; clear _t; subst z; have z := trivial)
    | (extract_lets +onlyGivenNames z; clear_value z; have z := trivial)
    | (with_reducible apply Upd.ite)
    | (with_reducible apply State.dropGroup_upd; decide)
    | (with_reducible apply State.secEvent_upd; decide)
    | (with_reducible apply Upd.set; decide)
    | (with_reducible apply Upd.fst; assumption)
    | simp (disch := first | decide | rfl | (apply And.intro <;> first | decide | rfl | (apply And.intro <;> rfl))) only [Upd.mk1_iff, Upd.sec_iff, Upd.out_iff]
    | split

theorem State.endSession_upd (s : State) (n : Nat) {W P : Nat} {r_ : State} (hm : (subMask 0x100000000000000001 W && subMask 0x1c0802 P) = true) (k_ : Upd W P r_ s) :
    Upd W P r_ (State.endSession s n) := by
  refine Upd.via (w := 0x100000000000000001) (p := 0x1c0802) ?_ hm k_
  clear hm k_
  unfold State.endSession
  repeat' first
    | (with_reducible exact Upd.refl _)
    | with_reducible assumption
    | (extract_lets +onlyGivenNames z; refine Upd.cutU (z := z) ?_ (fun hz => ?_); subst z; rotate_left; clear_value z; all_goals have z := trivial)
    | (extract_lets +onlyGivenNames z; refine Upd.cutU (z := z.1) ?_ (fun hz => ?_); subst z; rotate_left; clear_value z; all_goals have z := trivial)
    | (extract_lets +onlyGivenNames z; have _t : MgtS := z; clear _t; subst z; have z := trivial)
    | (extract_lets +onlyGivenNames z; have _t : SecS := z; clear _t; subst z; have z := trivial)
    | (extract_lets +onlyGivenNames z; clear_value z; have z := trivial)
    | (with_reducible apply Upd.ite)
    | (with_reducible apply State.brgSessionEnd_upd; decide)
    | (with_reducible apply Upd.set; decide)
    | (with_reducible apply Upd.fst; assumption)
    | simp (disch := first | decide | rfl | (apply And.intro <;> first | decide | rfl | (apply And.intro <;> rfl))) only [Upd.mk1_iff, Upd.brg_iff, Upd.mgt_iff, Upd.sec_iff, Upd.out_iff, Upd.mgt_sec_iff]
    | split

theorem State.endAllSessions_upd (s : State) {W P : Nat} {r_ : State} (hm : (subMask 0x100000000000000003 W && subMask 0x1c0802 P) = true) (k_ : Upd W P r_ s) :
    Upd W P r_ (State.endAllSessions s) := by
  refine Upd.via (w := 0x100000000000000003) (p := 0x1c0802) ?_ hm k_
  clear hm k_
  unfold State.endAllSessions
  repeat' first
    | (with_reducible apply Upd.foldl; intro _ _)
    | (with_reducible apply Upd.foldlFst; intro _ _)
    | (with_reducible exact Upd.refl _)
    | with_reducible assumption
    | (extract_lets +onlyGivenNames z; refine Upd.cutU (z := z) ?_ (fun hz => ?_); subst z; rotate_left; clear_value z; all_goals have z := trivial)
    | (extract_lets +onlyGivenNames z; refine Upd.cutU (z := z.1) ?_ (fun hz => ?_); subst z; rotate_left; clear_value z; all_goals have z := trivial)
    | (extract_lets +onlyGivenNames z; clear_value z; have z := trivial)
    | (with_reducible apply Upd.ite)
    | (with_reducible apply State.endSession_upd; decide)
    | (with_reducible apply State.note_upd; decide)
    | (with_reducible apply Upd.fst; assumption)
    | simp (disch := first | decide | rfl | (apply And.intro <;> first | decide | rfl | (apply And.intro <;> rfl))) only [Upd.mk1_iff, Upd.brg_iff, Upd.mgt_iff, Upd.sec_iff, Upd.out_iff]
    | split

end Sys2Proof.Machine
end

