-- ==== Sys2Proof/Laws/UpdBistOps.lean ====
section
/-! SUPPORT. What each operation of Machine/BistOps.lean may change (see Laws/Upd.lean). -/

set_option linter.unusedSimpArgs false
set_option linter.tactic.unusedName false

namespace Sys2Proof.Machine

theorem State.failLog_upd (s : State) (e : List Nat) {W P : Nat} {r_ : State} (hm : (subMask 0x8 W && subMask 0x20000 P) = true) (k_ : Upd W P r_ s) :
    Upd W P r_ (State.failLog s e) := by
  refine Upd.via (w := 0x8) (p := 0x20000) ?_ hm k_
  clear hm k_
  unfold State.failLog
  repeat' first
    | (with_reducible exact Upd.refl _)
    | with_reducible assumption
    | (extract_lets +onlyGivenNames z; refine Upd.cutU (z := z) ?_ (fun hz => ?_); subst z; rotate_left; clear_value z; all_goals have z := trivial)
    | (extract_lets +onlyGivenNames z; refine Upd.cutU (z := z.1) ?_ (fun hz => ?_); subst z; rotate_left; clear_value z; all_goals have z := trivial)
    | (extract_lets +onlyGivenNames z; clear_value z; have z := trivial)
    | (with_reducible apply Upd.ite)
    | (with_reducible apply Upd.inc; decide)
    | (with_reducible apply Upd.fst; assumption)
    | simp (disch := decide) only [Upd.mk1_iff, Upd.bist_iff]
    | split

theorem State.putRecord_upd (s : State) (u : Nat) (rec : List Nat) (overall : Nat) {W P : Nat} {r_ : State} (hm : (subMask 0x8 W && subMask 0x20000 P) = true) (k_ : Upd W P r_ s) :
    Upd W P r_ (State.putRecord s u rec overall) := by
  refine Upd.via (w := 0x8) (p := 0x20000) ?_ hm k_
  clear hm k_
  unfold State.putRecord
  repeat' first
    | (with_reducible exact Upd.refl _)
    | with_reducible assumption
    | (extract_lets +onlyGivenNames z; refine Upd.cutU (z := z) ?_ (fun hz => ?_); subst z; rotate_left; clear_value z; all_goals have z := trivial)
    | (extract_lets +onlyGivenNames z; refine Upd.cutU (z := z.1) ?_ (fun hz => ?_); subst z; rotate_left; clear_value z; all_goals have z := trivial)
    | (extract_lets +onlyGivenNames z; clear_value z; have z := trivial)
    | (with_reducible apply Upd.ite)
    | (with_reducible apply Upd.set; decide)
    | (with_reducible apply Upd.fst; assumption)
    | simp (disch := decide) only [Upd.mk1_iff, Upd.bist_iff]
    | split

theorem State.nextRun_upd (s : State) {W P : Nat} {r_ : State} (hm : (subMask 0x8 W && subMask 0x0 P) = true) (k_ : Upd W P r_ s) :
    Upd W P r_ (State.nextRun s) := by
  refine Upd.via (w := 0x8) (p := 0x0) ?_ hm k_
  clear hm k_
  unfold State.nextRun
  repeat' first
    | (with_reducible exact Upd.refl _)
    | with_reducible assumption
    | (extract_lets +onlyGivenNames z; refine Upd.cutU (z := z) ?_ (fun hz => ?_); subst z; rotate_left; clear_value z; all_goals have z := trivial)
    | (extract_lets +onlyGivenNames z; refine Upd.cutU (z := z.1) ?_ (fun hz => ?_); subst z; rotate_left; clear_value z; all_goals have z := trivial)
    | (extract_lets +onlyGivenNames z; clear_value z; have z := trivial)
    | (with_reducible apply Upd.ite)
    | (with_reducible apply Upd.bump; decide)
    | (with_reducible apply Upd.fst; assumption)
    | simp (disch := decide) only [Upd.mk1_iff]
    | split

theorem Repaired.fixMacro_upd (q : Repaired) (u run : Nat) (bad : List BadBit) (m : Nat) :
    Upd 0x8 0x20000 q.s (q.fixMacro u run bad m).s := by
  unfold Repaired.fixMacro
  dsimp only
  split
  · exact State.failLog_upd _ _ (by decide) (Upd.refl _)
  · apply Upd.add (by decide)
    apply Upd.add (by decide)
    apply Upd.bist_ (by decide)
    apply Upd.foldl (fun s f => State.failLog_upd _ _ (by decide) (Upd.refl _))
    exact State.failLog_upd _ _ (by decide) (Upd.refl _)

theorem State.repairUnit_upd (s : State) (u run : Nat) (bad : List BadBit) {W P : Nat}
    (hm : (subMask 0x8 W && subMask 0x20000 P) = true) : Upd W P s (s.repairUnit u run bad).s := by
  refine Upd.via (w := 0x8) (p := 0x20000) ?_ hm (Upd.refl s)
  unfold State.repairUnit
  dsimp only
  have key : ∀ (l : List Nat) (q : Repaired), Upd 0x8 0x20000 s q.s → ∀ mine,
      Upd 0x8 0x20000 s (l.foldl (fun q m => q.fixMacro u run mine m) q).s := by
    intro l
    induction l with
    | nil => intro q h _; exact h
    | cons x l ih => intro q h mine; exact ih _ (h.trans (Repaired.fixMacro_upd ..)) mine
  exact key _ _ (Upd.refl s) _

theorem State.powerOnUnit_upd (s : State) (u : Nat) {W P : Nat} {r_ : State} (hm : (subMask 0x100000018 W && subMask 0x20000 P) = true) (k_ : Upd W P r_ s) :
    Upd W P r_ (State.powerOnUnit s u) := by
  refine Upd.via (w := 0x100000018) (p := 0x20000) ?_ hm k_
  clear hm k_
  unfold State.powerOnUnit
  extract_lets run q
  have hq : Upd 0x100000018 0x20000 s q.s := State.repairUnit_upd s u run s.bist.faults (by decide)
  clear_value q
  repeat' first
    | (with_reducible exact Upd.refl _)
    | with_reducible assumption
    | (extract_lets +onlyGivenNames z; refine Upd.cutU (z := z) ?_ (fun hz => ?_); subst z; rotate_left; clear_value z; all_goals have z := trivial)
    | (extract_lets +onlyGivenNames z; refine Upd.cutU (z := z.1) ?_ (fun hz => ?_); subst z; rotate_left; clear_value z; all_goals have z := trivial)
    | (extract_lets +onlyGivenNames z; refine Upd.cutU (z := z.s) ?_ (fun hz => ?_); subst z; rotate_left; clear_value z; all_goals have z := trivial)
    | (extract_lets +onlyGivenNames z; clear_value z; have z := trivial)
    | (apply State.repairUnit_upd; decide)
    | (with_reducible apply Upd.ite)
    | (with_reducible apply State.putRecord_upd; decide)
    | (with_reducible apply Upd.set; decide)
    | (with_reducible apply Upd.fst; assumption)
    | simp (disch := decide) only [Upd.mk1_iff, Upd.bist_iff]
    | split

theorem State.powerOnTest_upd (s : State) {W P : Nat} {r_ : State} (hm : (subMask 0x100000019 W && subMask 0x120000 P) = true) (k_ : Upd W P r_ s) :
    Upd W P r_ (State.powerOnTest s) := by
  refine Upd.via (w := 0x100000019) (p := 0x120000) ?_ hm k_
  clear hm k_
  unfold State.powerOnTest
  repeat' first
    | (with_reducible apply Upd.foldl; intro _ _)
    | (with_reducible apply Upd.foldlFst; intro _ _)
    | (with_reducible exact Upd.refl _)
    | with_reducible assumption
    | (extract_lets +onlyGivenNames z; refine Upd.cutU (z := z) ?_ (fun hz => ?_); subst z; rotate_left; clear_value z; all_goals have z := trivial)
    | (extract_lets +onlyGivenNames z; refine Upd.cutU (z := z.1) ?_ (fun hz => ?_); subst z; rotate_left; clear_value z; all_goals have z := trivial)
    | (extract_lets +onlyGivenNames z; clear_value z; have z := trivial)
    | (with_reducible apply Upd.ite)
    | (with_reducible apply State.nextRun_upd; decide)
    | (with_reducible apply State.notify_upd; decide)
    | (with_reducible apply State.powerOnUnit_upd; decide)
    | (with_reducible apply Upd.set; decide)
    | (with_reducible apply Upd.fst; assumption)
    | simp (disch := decide) only [Upd.mk1_iff, Upd.bist_iff, Upd.out_iff]
    | split

theorem State.ingData_upd (s : State) {W P : Nat} {r_ : State} (hm : (subMask 0x100000 W && subMask 0x18 P) = true) (k_ : Upd W P r_ s) :
    Upd W P r_ (State.ingData s) := by
  refine Upd.via (w := 0x100000) (p := 0x18) ?_ hm k_
  clear hm k_
  unfold State.ingData
  repeat' first
    | (with_reducible apply Upd.foldlSet; decide)
    | ((with_reducible apply Upd.foldlPair); simp only [List.all_cons, List.all_nil]; decide)
    | (with_reducible apply Upd.foldl; intro _ _)
    | (with_reducible apply Upd.foldlFst; intro _ _)
    | (with_reducible exact Upd.refl _)
    | with_reducible assumption
    | (extract_lets +onlyGivenNames z; refine Upd.cutU (z := z) ?_ (fun hz => ?_); subst z; rotate_left; clear_value z; all_goals have z := trivial)
    | (extract_lets +onlyGivenNames z; refine Upd.cutU (z := z.1) ?_ (fun hz => ?_); subst z; rotate_left; clear_value z; all_goals have z := trivial)
    | (extract_lets +onlyGivenNames z; clear_value z; have z := trivial)
    | (with_reducible apply Upd.ite)
    | (with_reducible apply Upd.set; decide)
    | (with_reducible apply Upd.fst; assumption)
    | simp (disch := decide) only [Upd.mk1_iff, Upd.frames_iff, Upd.ing_iff, Upd.frames_ing_iff]
    | split

theorem State.synData_upd (s : State) {W P : Nat} {r_ : State} (hm : (subMask 0x0 W && subMask 0x20 P) = true) (k_ : Upd W P r_ s) :
    Upd W P r_ (State.synData s) := by
  refine Upd.via (w := 0x0) (p := 0x20) ?_ hm k_
  clear hm k_
  unfold State.synData
  repeat' first
    | (with_reducible exact Upd.refl _)
    | with_reducible assumption
    | (extract_lets +onlyGivenNames z; refine Upd.cutU (z := z) ?_ (fun hz => ?_); subst z; rotate_left; clear_value z; all_goals have z := trivial)
    | (extract_lets +onlyGivenNames z; refine Upd.cutU (z := z.1) ?_ (fun hz => ?_); subst z; rotate_left; clear_value z; all_goals have z := trivial)
    | (extract_lets +onlyGivenNames z; have _t : SynS := z; clear _t; subst z; have z := trivial)
    | (extract_lets +onlyGivenNames z; clear_value z; have z := trivial)
    | (with_reducible apply Upd.ite)
    | (with_reducible apply Upd.fst; assumption)
    | simp (disch := first | decide | rfl | (apply And.intro <;> first | decide | rfl | (apply And.intro <;> rfl))) only [Upd.mk1_iff, Upd.syn_iff]
    | split

theorem State.mrgData_upd (s : State) {W P : Nat} {r_ : State} (hm : (subMask 0x0 W && subMask 0xc0 P) = true) (k_ : Upd W P r_ s) :
    Upd W P r_ (State.mrgData s) := by
  refine Upd.via (w := 0x0) (p := 0xc0) ?_ hm k_
  clear hm k_
  unfold State.mrgData
  repeat' first
    | (with_reducible exact Upd.refl _)
    | with_reducible assumption
    | (extract_lets +onlyGivenNames z; refine Upd.cutU (z := z) ?_ (fun hz => ?_); subst z; rotate_left; clear_value z; all_goals have z := trivial)
    | (extract_lets +onlyGivenNames z; refine Upd.cutU (z := z.1) ?_ (fun hz => ?_); subst z; rotate_left; clear_value z; all_goals have z := trivial)
    | (extract_lets +onlyGivenNames z; clear_value z; have z := trivial)
    | (with_reducible apply Upd.ite)
    | (with_reducible apply Upd.fst; assumption)
    | simp (disch := decide) only [Upd.mk1_iff, Upd.pipe_iff, Upd.blankets_iff, Upd.pipe_blankets_iff]
    | split

end Sys2Proof.Machine
end

