-- ==== Sys2Proof/Laws/UpdPwrOps.lean ====
section
/-! SUPPORT. What each operation of Machine/PwrOps.lean may change (see Laws/Upd.lean). -/

set_option linter.unusedSimpArgs false
set_option linter.tactic.unusedName false

namespace Sys2Proof.Machine

theorem State.clearDevice_upd (s : State) {W P : Nat} {r_ : State} (hm : (subMask 0xffffffffffffffffffffffffffffffff W && subMask 0x7fffff P) = true) (k_ : Upd W P r_ s) :
    Upd W P r_ (State.clearDevice s) := by
  refine Upd.via (w := 0xffffffffffffffffffffffffffffffff) (p := 0x7fffff) ?_ hm k_
  clear hm k_
  refine Upd.mono (w := 2 ^ 128 - 1) (p := 2 ^ 23 - 1) ?_ (by decide) (by decide)
  unfold State.clearDevice
  dsimp only
  split
  · apply State.emit_upd _ _ (by decide)
    apply Upd.setAny; apply Upd.setAny; apply Upd.setAny
    exact Upd.full (Memory.wf_filter _ _) (fun _ => ⟨Nat.zero_le _, Nat.zero_le _, Nat.zero_le _, Nat.zero_le _, Nat.zero_le _⟩) rfl
  · apply Upd.setAny; apply Upd.setAny; apply Upd.setAny
    exact Upd.full (Memory.wf_filter _ _) (fun _ => ⟨Nat.zero_le _, Nat.zero_le _, Nat.zero_le _, Nat.zero_le _, Nat.zero_le _⟩) rfl

theorem State.deviceReset_upd (s : State) (cause : Nat) {W P : Nat} {r_ : State} (hm : (subMask 0xffffffffffffffffffffffffffffffff W && subMask 0x7fffff P) = true) (k_ : Upd W P r_ s) :
    Upd W P r_ (State.deviceReset s cause) := by
  refine Upd.via (w := 0xffffffffffffffffffffffffffffffff) (p := 0x7fffff) ?_ hm k_
  clear hm k_
  unfold State.deviceReset
  repeat' first
    | (with_reducible exact Upd.refl _)
    | with_reducible assumption
    | (extract_lets +onlyGivenNames z; refine Upd.cutU (z := z) ?_ (fun hz => ?_); subst z; rotate_left; clear_value z; all_goals have z := trivial)
    | (extract_lets +onlyGivenNames z; refine Upd.cutU (z := z.1) ?_ (fun hz => ?_); subst z; rotate_left; clear_value z; all_goals have z := trivial)
    | (extract_lets +onlyGivenNames z; clear_value z; have z := trivial)
    | (with_reducible apply Upd.ite)
    | (with_reducible apply State.clearDevice_upd; decide)
    | (with_reducible apply State.powerOnTest_upd; decide)
    | (with_reducible apply Upd.set; decide)
    | (with_reducible apply Upd.fst; assumption)
    | simp (disch := first | decide | rfl | (apply And.intro <;> first | decide | rfl | (apply And.intro <;> rfl))) only [Upd.mk1_iff, Upd.lane_iff, Upd.frames_iff, Upd.ing_iff, Upd.syn_iff, Upd.pipe_iff, Upd.blankets_iff, Upd.ref_iff, Upd.products_iff, Upd.egr_iff, Upd.brg_iff, Upd.memq_iff, Upd.sto_iff, Upd.job_iff, Upd.fab_iff, Upd.boot_iff, Upd.bist_iff, Upd.mgt_iff, Upd.sec_iff, Upd.out_iff, Upd.fresh_iff, Upd.bad_iff]
    | split

theorem State.putSlot_upd (s : State) (n : Nat) (b : BootSlot) {W P : Nat} {r_ : State} (hm : (subMask 0x10 W && subMask 0x10000 P) = true) (k_ : Upd W P r_ s) :
    Upd W P r_ (State.putSlot s n b) := by
  refine Upd.via (w := 0x10) (p := 0x10000) ?_ hm k_
  clear hm k_
  unfold State.putSlot
  repeat' first
    | (with_reducible exact Upd.refl _)
    | with_reducible assumption
    | (extract_lets +onlyGivenNames z; refine Upd.cutU (z := z) ?_ (fun hz => ?_); subst z; rotate_left; clear_value z; all_goals have z := trivial)
    | (extract_lets +onlyGivenNames z; refine Upd.cutU (z := z.1) ?_ (fun hz => ?_); subst z; rotate_left; clear_value z; all_goals have z := trivial)
    | (extract_lets +onlyGivenNames z; clear_value z; have z := trivial)
    | (with_reducible apply Upd.ite)
    | (with_reducible apply Upd.set; decide)
    | (with_reducible apply Upd.fst; assumption)
    | simp (disch := decide) only [Upd.mk1_iff, Upd.boot_iff]
    | split

theorem State.slotStatus_upd (s : State) (n : Nat) (v : Nat) {W P : Nat} {r_ : State} (hm : (subMask 0x10 W && subMask 0x10000 P) = true) (k_ : Upd W P r_ s) :
    Upd W P r_ (State.slotStatus s n v) := by
  refine Upd.via (w := 0x10) (p := 0x10000) ?_ hm k_
  clear hm k_
  unfold State.slotStatus
  repeat' first
    | (with_reducible exact Upd.refl _)
    | with_reducible assumption
    | (extract_lets +onlyGivenNames z; refine Upd.cutU (z := z) ?_ (fun hz => ?_); subst z; rotate_left; clear_value z; all_goals have z := trivial)
    | (extract_lets +onlyGivenNames z; refine Upd.cutU (z := z.1) ?_ (fun hz => ?_); subst z; rotate_left; clear_value z; all_goals have z := trivial)
    | (extract_lets +onlyGivenNames z; clear_value z; have z := trivial)
    | (with_reducible apply Upd.ite)
    | (with_reducible apply State.putSlot_upd; decide)
    | (with_reducible apply Upd.fst; assumption)
    | simp (disch := decide) only [Upd.mk1_iff, Upd.boot_iff]
    | split

theorem State.bootEvent_upd (s : State) (k : Nat) (inst : Nat) (status : Nat) (step : Nat) (seq : Nat) {W P : Nat} {r_ : State} (hm : (subMask 0x11 W && subMask 0x100002 P) = true) (k_ : Upd W P r_ s) :
    Upd W P r_ (State.bootEvent s k inst status step seq) := by
  refine Upd.via (w := 0x11) (p := 0x100002) ?_ hm k_
  clear hm k_
  unfold State.bootEvent
  repeat' first
    | (with_reducible exact Upd.refl _)
    | with_reducible assumption
    | (extract_lets +onlyGivenNames z; refine Upd.cutU (z := z) ?_ (fun hz => ?_); subst z; rotate_left; clear_value z; all_goals have z := trivial)
    | (extract_lets +onlyGivenNames z; refine Upd.cutU (z := z.1) ?_ (fun hz => ?_); subst z; rotate_left; clear_value z; all_goals have z := trivial)
    | (extract_lets +onlyGivenNames z; clear_value z; have z := trivial)
    | (with_reducible apply Upd.ite)
    | (with_reducible apply Upd.sticky; decide; decide; decide)
    | (with_reducible apply Upd.fst; assumption)
    | simp (disch := decide) only [Upd.mk1_iff, Upd.out_iff]
    | split

theorem State.updateFail_upd (s : State) (st : Status) (step : Nat) (touched : Bool) {W P : Nat} {r_ : State} (hm : (subMask 0x11 W && subMask 0x110002 P) = true) (k_ : Upd W P r_ s) :
    Upd W P r_ (State.updateFail s st step touched) := by
  refine Upd.via (w := 0x11) (p := 0x110002) ?_ hm k_
  clear hm k_
  unfold State.updateFail
  repeat' first
    | (with_reducible exact Upd.refl _)
    | with_reducible assumption
    | (extract_lets +onlyGivenNames z; refine Upd.cutU (z := z) ?_ (fun hz => ?_); subst z; rotate_left; clear_value z; all_goals have z := trivial)
    | (extract_lets +onlyGivenNames z; refine Upd.cutU (z := z.1) ?_ (fun hz => ?_); subst z; rotate_left; clear_value z; all_goals have z := trivial)
    | (extract_lets +onlyGivenNames z; clear_value z; have z := trivial)
    | (with_reducible apply Upd.ite)
    | (with_reducible apply State.bootEvent_upd; decide)
    | (with_reducible apply Upd.set; decide)
    | (with_reducible apply State.slotStatus_upd; decide)
    | (with_reducible apply Upd.fst; assumption)
    | simp (disch := decide) only [Upd.mk1_iff, Upd.boot_iff, Upd.out_iff]
    | split

theorem State.dropCommands_upd (s : State) {W P : Nat} {r_ : State} (hm : (subMask 0x1100000000000000001 W && subMask 0x1ccc03 P) = true) (k_ : Upd W P r_ s) :
    Upd W P r_ (State.dropCommands s) := by
  refine Upd.via (w := 0x1100000000000000001) (p := 0x1ccc03) ?_ hm k_
  clear hm k_
  have hf : ∀ l : List AuditItem, ((l.map fun q => if q.isCommand then { q with effect := none } else q).filter
      fun q => !q.isSwitch).length = (l.filter fun q => !q.isSwitch).length := by
    intro l
    induction l with
    | nil => rfl
    | cons q l ih =>
      rw [List.map_cons, List.filter_cons, List.filter_cons]
      have : (if q.isCommand then { q with effect := none } else q).isSwitch = q.isSwitch := by split <;> rfl
      rw [this]; split <;> simp [ih]
  unfold State.dropCommands
  extract_lets x1 s1 s2 s3
  have h1 : Upd 0x1100000000000000001 0x1ccc03 s s1 := Upd.sec_ (by decide) (by exact id) (fun h => (hf s.sec.queue).symm ▸ h) (Upd.refl s)
  clear_value s1
  repeat' first
    | (with_reducible apply Upd.foldl; intro _ _)
    | (with_reducible apply Upd.foldlFst; intro _ _)
    | (with_reducible exact Upd.refl _)
    | with_reducible assumption
    | (extract_lets +onlyGivenNames z; refine Upd.cutU (z := z) ?_ (fun hz => ?_); subst z; rotate_left; clear_value z; all_goals have z := trivial)
    | (extract_lets +onlyGivenNames z; refine Upd.cutU (z := z.1) ?_ (fun hz => ?_); subst z; rotate_left; clear_value z; all_goals have z := trivial)
    | (extract_lets +onlyGivenNames z; have _t : SecS := z; clear _t; subst z; have z := trivial)
    | (extract_lets +onlyGivenNames z; clear_value z; have z := trivial)
    | (with_reducible apply Upd.ite)
    | (with_reducible apply State.answer_upd; decide)
    | (with_reducible apply State.ctrlReply_upd; decide)
    | (with_reducible apply Upd.fst; assumption)
    | simp (disch := first | decide | rfl | (apply And.intro <;> first | decide | rfl | (apply And.intro <;> rfl))) only [Upd.mk1_iff, Upd.egr_iff, Upd.brg_iff, Upd.job_iff, Upd.fab_iff, Upd.mgt_iff, Upd.sec_iff, Upd.out_iff]
    | split

theorem State.dropLoad_upd (s : State) {W P : Nat} {r_ : State} (hm : (subMask 0x100080111010000000020 W && subMask 0x4000 P) = true) (k_ : Upd W P r_ s) :
    Upd W P r_ (State.dropLoad s) := by
  refine Upd.via (w := 0x100080111010000000020) (p := 0x4000) ?_ hm k_
  clear hm k_
  unfold State.dropLoad
  repeat' first
    | ((with_reducible apply Upd.foldlPair); simp only [List.all_cons, List.all_nil]; decide)
    | ((with_reducible apply Upd.foldlCopy); simp only [List.all_cons, List.all_nil]; decide)
    | (extract_lets +onlyGivenNames z; have _t : List (Fld × Fld) := z; clear _t; subst z; have z := trivial)
    | (extract_lets +onlyGivenNames z; have _t : List (Fld × Nat) := z; clear _t; subst z; have z := trivial)
    | (with_reducible apply Upd.foldl; intro _ _)
    | (with_reducible apply Upd.foldlFst; intro _ _)
    | (with_reducible exact Upd.refl _)
    | with_reducible assumption
    | (extract_lets +onlyGivenNames z; refine Upd.cutU (z := z) ?_ (fun hz => ?_); subst z; rotate_left; clear_value z; all_goals have z := trivial)
    | (extract_lets +onlyGivenNames z; refine Upd.cutU (z := z.1) ?_ (fun hz => ?_); subst z; rotate_left; clear_value z; all_goals have z := trivial)
    | (extract_lets +onlyGivenNames z; clear_value z; have z := trivial)
    | (with_reducible apply Upd.ite)
    | (with_reducible apply State.cancelBanks_upd; decide)
    | (with_reducible apply State.clearStaged_upd; decide)
    | (with_reducible apply State.nextClear_upd; decide)
    | (with_reducible apply Upd.set; decide)
    | (with_reducible apply Upd.fst; assumption)
    | simp (disch := decide) only [Upd.mk1_iff, Upd.job_iff]
    | split

theorem State.mgtRestart_upd (s : State) (fromNor : Bool) {W P : Nat} {r_ : State} (hm : (subMask 0x101180111010000000035 W && subMask 0x1ddc03 P) = true) (k_ : Upd W P r_ s) :
    Upd W P r_ (State.mgtRestart s fromNor) := by
  refine Upd.via (w := 0x101180111010000000035) (p := 0x1ddc03) ?_ hm k_
  clear hm k_
  unfold State.mgtRestart
  repeat' first
    | (with_reducible exact Upd.refl _)
    | with_reducible assumption
    | (extract_lets +onlyGivenNames z; refine Upd.cutU (z := z) ?_ (fun hz => ?_); subst z; rotate_left; clear_value z; all_goals have z := trivial)
    | (extract_lets +onlyGivenNames z; refine Upd.cutU (z := z.1) ?_ (fun hz => ?_); subst z; rotate_left; clear_value z; all_goals have z := trivial)
    | (extract_lets +onlyGivenNames z; clear_value z; have z := trivial)
    | (with_reducible apply Upd.ite)
    | (with_reducible apply State.dropCommands_upd; decide)
    | (with_reducible apply State.dropLoad_upd; decide)
    | (with_reducible apply Upd.inc; decide)
    | (with_reducible apply State.newGeneration_upd; decide)
    | (with_reducible apply State.pwrEvent_upd; decide)
    | (with_reducible apply Upd.set; decide)
    | (with_reducible apply State.updateFail_upd; decide)
    | (with_reducible apply Upd.fst; assumption)
    | simp (disch := first | decide | rfl | (apply And.intro <;> first | decide | rfl | (apply And.intro <;> rfl))) only [Upd.mk1_iff, Upd.egr_iff, Upd.brg_iff, Upd.memq_iff, Upd.job_iff, Upd.fab_iff, Upd.boot_iff, Upd.mgt_iff, Upd.sec_iff, Upd.out_iff]
    | split

theorem State.wipeNand_upd (s : State) {W P : Nat} {r_ : State} (hm : (subMask 0x0 W && subMask 0x82004 P) = true) (k_ : Upd W P r_ s) :
    Upd W P r_ (State.wipeNand s) := by
  refine Upd.via (w := 0x0) (p := 0x82004) ?_ hm k_
  clear hm k_
  unfold State.wipeNand
  repeat' first
    | (with_reducible exact Upd.refl _)
    | with_reducible assumption
    | (extract_lets +onlyGivenNames z; refine Upd.cutU (z := z) ?_ (fun hz => ?_); subst z; rotate_left; clear_value z; all_goals have z := trivial)
    | (extract_lets +onlyGivenNames z; refine Upd.cutU (z := z.1) ?_ (fun hz => ?_); subst z; rotate_left; clear_value z; all_goals have z := trivial)
    | (extract_lets +onlyGivenNames z; have _t : SecS := z; clear _t; subst z; have z := trivial)
    | (extract_lets +onlyGivenNames z; clear_value z; have z := trivial)
    | (with_reducible apply Upd.ite)
    | (with_reducible apply Upd.fst; assumption)
    | simp (disch := first | decide | rfl | (apply And.intro <;> first | decide | rfl | (apply And.intro <;> rfl))) only [Upd.mk1_iff, Upd.lane_iff, Upd.sto_iff, Upd.sec_iff, Upd.lane_sto_iff, Upd.lane_sto_sec_iff]
    | split

theorem State.wipe_upd (s : State) {W P : Nat} {r_ : State} (hm : (subMask 0xffffffffffffffffffffffffffffffff W && subMask 0x7fffff P) = true) (k_ : Upd W P r_ s) :
    Upd W P r_ (State.wipe s) := by
  refine Upd.via (w := 0xffffffffffffffffffffffffffffffff) (p := 0x7fffff) ?_ hm k_
  clear hm k_
  unfold State.wipe
  extract_lets seq final s1 x1 s2 s3 s4 s5
  have h1 : Upd 0xffffffffffffffffffffffffffffffff 0x7fffff s s1 := State.wipeNand_upd _ (by decide) (Upd.refl _)
  have h2 : Upd 0xffffffffffffffffffffffffffffffff 0x7fffff s s2 := Upd.sec_ (by decide) (by exact id) (by exact id) (Upd.bad_ (by decide) (Upd.mem_ (by decide) (Memory.wf_filter _ _) h1))
  have h3 : Upd 0xffffffffffffffffffffffffffffffff 0x7fffff s s3 := Upd.setBit (by decide) h2
  have h4 : Upd 0xffffffffffffffffffffffffffffffff 0x7fffff s s4 := Upd.set (by decide) (Upd.set (by decide) (Upd.set (by decide) h3))
  have h5 : Upd 0xffffffffffffffffffffffffffffffff 0x7fffff s s5 := State.appendRecord_upd _ _ (by decide) h4
  exact State.deviceReset_upd _ _ (by decide) (Upd.set (by decide) h5)

end Sys2Proof.Machine
end

