-- ==== Sys2Proof/Laws/UpdRegPlain.lean ====
section
/-! SUPPORT. What each operation of Machine/RegPlain.lean may change (see Laws/Upd.lean). -/

set_option linter.unusedSimpArgs false
set_option linter.tactic.unusedName false

namespace Sys2Proof.Machine

theorem State.putField_upd (s : State) (i : Nat) (f : RegField) (v : Nat) {W P : Nat} {r_ : State} (hm : (subMask 0xffffffffffffffffffffffffffffffff W && subMask 0x0 P) = true) (k_ : Upd W P r_ s) :
    Upd W P r_ (State.putField s i f v) := by
  refine Upd.via (w := 0xffffffffffffffffffffffffffffffff) (p := 0x0) ?_ hm k_
  clear hm k_
  exact Upd.setAny (Upd.refl s)

theorem State.rawWrite_upd (s : State) (a : Nat) (v : Nat) {W P : Nat} {r_ : State} (hm : (subMask 0xffffffffffffffffffffffffffffffff W && subMask 0x0 P) = true) (k_ : Upd W P r_ s) :
    Upd W P r_ (State.rawWrite s a v) := by
  refine Upd.via (w := 0xffffffffffffffffffffffffffffffff) (p := 0x0) ?_ hm k_
  clear hm k_
  unfold State.rawWrite
  repeat' first
    | (with_reducible apply Upd.foldl; intro _ _)
    | (with_reducible apply Upd.foldlFst; intro _ _)
    | (with_reducible exact Upd.refl _)
    | with_reducible assumption
    | (extract_lets +onlyGivenNames z; refine Upd.cutU (z := z) ?_ (fun hz => ?_); subst z; rotate_left; clear_value z; all_goals have z := trivial)
    | (extract_lets +onlyGivenNames z; refine Upd.cutU (z := z.1) ?_ (fun hz => ?_); subst z; rotate_left; clear_value z; all_goals have z := trivial)
    | (extract_lets +onlyGivenNames z; clear_value z; have z := trivial)
    | (with_reducible apply Upd.ite)
    | (with_reducible apply State.putField_upd; decide)
    | (with_reducible apply Upd.fst; assumption)
    | simp (disch := decide) only [Upd.mk1_iff]
    | split

end Sys2Proof.Machine
end

