-- ==== Sys2Proof/Laws/UpdBootOps.lean ====
section
/-! SUPPORT. What each operation of Machine/BootOps.lean may change (see Laws/Upd.lean). -/

set_option linter.unusedSimpArgs false
set_option linter.tactic.unusedName false

namespace Sys2Proof.Machine

theorem State.applyDevice_upd (s : State) (d : List Nat) {W P : Nat} {r_ : State} (hm : (subMask 0x1100080000000000010000 W && subMask 0x0 P) = true) (k_ : Upd W P r_ s) :
    Upd W P r_ (State.applyDevice s d) := by
  refine Upd.via (w := 0x1100080000000000010000) (p := 0x0) ?_ hm k_
  clear hm k_
  unfold State.applyDevice
  repeat' first
    | ((with_reducible apply Upd.foldlPair); simp only [List.all_cons, List.all_nil]; decide)
    | ((with_reducible apply Upd.foldlCopy); simp only [List.all_cons, List.all_nil]; decide)
    | (extract_lets +onlyGivenNames z; have _t : List (Fld × Fld) := z; clear _t; subst z; have z := trivial)
    | (extract_lets +onlyGivenNames z; have _t : List (Fld × Nat) := z; clear _t; subst z; have z := trivial)
    | (with_reducible apply Upd.foldl; intro _ _)
    | (with_reducible apply Upd.foldlFst; intro _ _)
    | (with_reducible exact Upd.refl _)
    | with_reducible assumption
    | (extract_lets +onlyGivenNames z; refine Upd.cutU (z := z) ?_ (fun hz => ?_); subst z; rotate_left; clear_value z; all_goals have z := trivial)
    | (extract_lets +onlyGivenNames z; refine Upd.cutU (z := z.1) ?_ (fun hz => ?_); subst z; rotate_left; clear_value z; all_goals have z := trivial)
    | (extract_lets +onlyGivenNames z; clear_value z; have z := trivial)
    | (with_reducible apply Upd.ite)
    | (with_reducible apply Upd.set; decide)
    | (with_reducible apply Upd.fst; assumption)
    | simp (disch := decide) only [Upd.mk1_iff]
    | split

theorem State.applyEq_upd (s : State) (seen : List Nat) (e : List Nat) {W P : Nat} {r_ : State} (hm : (subMask 0x10001 W && subMask 0x100006 P) = true) (k_ : Upd W P r_ s) :
    Upd W P r_ (State.applyEq s seen e).1 := by
  refine Upd.via (w := 0x10001) (p := 0x100006) ?_ hm k_
  clear hm k_
  unfold State.applyEq
  repeat' first
    | (with_reducible exact Upd.refl _)
    | with_reducible assumption
    | (extract_lets +onlyGivenNames z; refine Upd.cutU (z := z) ?_ (fun hz => ?_); subst z; rotate_left; clear_value z; all_goals have z := trivial)
    | (extract_lets +onlyGivenNames z; refine Upd.cutU (z := z.1) ?_ (fun hz => ?_); subst z; rotate_left; clear_value z; all_goals have z := trivial)
    | (extract_lets +onlyGivenNames z; have _t : State → _ := z; clear _t; subst z; have z := trivial)
    | (extract_lets +onlyGivenNames z; have _t : _ → State := z; clear _t; subst z; have z := trivial)
    | (extract_lets +onlyGivenNames z; have _t : _ → _ → State := z; clear _t; subst z; have z := trivial)
    | (extract_lets +onlyGivenNames z; clear_value z; have z := trivial)
    | (with_reducible apply Upd.ite)
    | (with_reducible apply Upd.iteFst)
    | (with_reducible apply State.laneEvent_upd; decide)
    | (with_reducible apply Upd.fst; assumption)
    | simp (disch := decide) only [Upd.mk1_iff, Upd.lane_iff, Upd.out_iff]
    | split

theorem State.applyEqTable_upd (s : State) (t : List Nat) {W P : Nat} {r_ : State} (hm : (subMask 0x10001 W && subMask 0x100006 P) = true) (k_ : Upd W P r_ s) :
    Upd W P r_ (State.applyEqTable s t) := by
  refine Upd.via (w := 0x10001) (p := 0x100006) ?_ hm k_
  clear hm k_
  unfold State.applyEqTable
  repeat' first
    | (with_reducible apply Upd.foldl; intro _ _)
    | (with_reducible apply Upd.foldlFst; intro _ _)
    | (with_reducible exact Upd.refl _)
    | with_reducible assumption
    | (extract_lets +onlyGivenNames z; refine Upd.cutU (z := z) ?_ (fun hz => ?_); subst z; rotate_left; clear_value z; all_goals have z := trivial)
    | (extract_lets +onlyGivenNames z; refine Upd.cutU (z := z.1) ?_ (fun hz => ?_); subst z; rotate_left; clear_value z; all_goals have z := trivial)
    | (extract_lets +onlyGivenNames z; clear_value z; have z := trivial)
    | (with_reducible apply Upd.ite)
    | (with_reducible apply State.applyEq_upd; decide)
    | (with_reducible apply State.showEq_upd; decide)
    | (with_reducible apply Upd.fst; assumption)
    | simp (disch := decide) only [Upd.mk1_iff, Upd.lane_iff, Upd.out_iff]
    | split

theorem State.applyFabric_upd (s : State) (f : List Nat) {W P : Nat} {r_ : State} (hm : (subMask 0x1000000000000000030 W && subMask 0xc000 P) = true) (k_ : Upd W P r_ s) :
    Upd W P r_ (State.applyFabric s f) := by
  refine Upd.via (w := 0x1000000000000000030) (p := 0xc000) ?_ hm k_
  clear hm k_
  unfold State.applyFabric
  repeat' first
    | (with_reducible exact Upd.refl _)
    | with_reducible assumption
    | (extract_lets +onlyGivenNames z; refine Upd.cutU (z := z) ?_ (fun hz => ?_); subst z; rotate_left; clear_value z; all_goals have z := trivial)
    | (extract_lets +onlyGivenNames z; refine Upd.cutU (z := z.1) ?_ (fun hz => ?_); subst z; rotate_left; clear_value z; all_goals have z := trivial)
    | (extract_lets +onlyGivenNames z; have _t : State → _ := z; clear _t; subst z; have z := trivial)
    | (extract_lets +onlyGivenNames z; have _t : _ → State := z; clear _t; subst z; have z := trivial)
    | (extract_lets +onlyGivenNames z; have _t : _ → _ → State := z; clear _t; subst z; have z := trivial)
    | (extract_lets +onlyGivenNames z; clear_value z; have z := trivial)
    | (with_reducible apply Upd.ite)
    | (with_reducible apply Upd.set; decide)
    | (with_reducible apply Upd.fst; assumption)
    | simp (disch := decide) only [Upd.mk1_iff, Upd.job_iff, Upd.fab_iff, Upd.job_fab_iff]
    | split

theorem State.applyMap_upd (s : State) (m : List Nat) {W P : Nat} {r_ : State} (hm : (subMask 0xffffffffffffffffffffffffffffffff W && subMask 0x0 P) = true) (k_ : Upd W P r_ s) :
    Upd W P r_ (State.applyMap s m) := by
  refine Upd.via (w := 0xffffffffffffffffffffffffffffffff) (p := 0x0) ?_ hm k_
  clear hm k_
  unfold State.applyMap
  repeat' first
    | (with_reducible apply Upd.foldl; intro _ _)
    | (with_reducible apply Upd.foldlFst; intro _ _)
    | (with_reducible exact Upd.refl _)
    | with_reducible assumption
    | (extract_lets +onlyGivenNames z; refine Upd.cutU (z := z) ?_ (fun hz => ?_); subst z; rotate_left; clear_value z; all_goals have z := trivial)
    | (extract_lets +onlyGivenNames z; refine Upd.cutU (z := z.1) ?_ (fun hz => ?_); subst z; rotate_left; clear_value z; all_goals have z := trivial)
    | (extract_lets +onlyGivenNames z; clear_value z; have z := trivial)
    | (with_reducible apply Upd.ite)
    | (with_reducible apply State.rawWrite_upd; decide)
    | (with_reducible apply Upd.set; decide)
    | (with_reducible apply Upd.fst; assumption)
    | simp (disch := decide) only [Upd.mk1_iff]
    | split

theorem State.putDigest_upd {w p : Nat} {r s : State} {f : Fld} {d : List Nat} (hm : w.testBit f.page = true)
    (h : Upd w p r s) : Upd w p r (s.putDigest f d) := by
  unfold State.putDigest
  exact Upd.foldl (fun _ _ => Upd.set hm (Upd.refl _)) h

theorem State.loadFirmware_upd (s : State) (f : List Nat) {W P : Nat} {r_ : State} (hm : (subMask 0x10 W && subMask 0x10000 P) = true) (k_ : Upd W P r_ s) :
    Upd W P r_ (State.loadFirmware s f) := by
  refine Upd.via (w := 0x10) (p := 0x10000) ?_ hm k_
  clear hm k_
  unfold State.loadFirmware
  repeat' first
    | (with_reducible exact Upd.refl _)
    | with_reducible assumption
    | (extract_lets +onlyGivenNames z; refine Upd.cutU (z := z) ?_ (fun hz => ?_); subst z; rotate_left; clear_value z; all_goals have z := trivial)
    | (extract_lets +onlyGivenNames z; refine Upd.cutU (z := z.1) ?_ (fun hz => ?_); subst z; rotate_left; clear_value z; all_goals have z := trivial)
    | (extract_lets +onlyGivenNames z; clear_value z; have z := trivial)
    | (with_reducible apply Upd.ite)
    | (with_reducible apply State.putDigest_upd; decide)
    | (with_reducible apply Upd.set; decide)
    | (with_reducible apply Upd.fst; assumption)
    | simp (disch := decide) only [Upd.mk1_iff, Upd.boot_iff]
    | split

theorem State.applyImage_upd (s : State) (h : List Nat) {W P : Nat} {r_ : State} (hm : (subMask 0xffffffffffffffffffffffffffffffff W && subMask 0x19c006 P) = true) (k_ : Upd W P r_ s) :
    Upd W P r_ (State.applyImage s h) := by
  refine Upd.via (w := 0xffffffffffffffffffffffffffffffff) (p := 0x19c006) ?_ hm k_
  clear hm k_
  unfold State.applyImage
  repeat' first
    | (with_reducible exact Upd.refl _)
    | with_reducible assumption
    | (extract_lets +onlyGivenNames z; refine Upd.cutU (z := z) ?_ (fun hz => ?_); subst z; rotate_left; clear_value z; all_goals have z := trivial)
    | (extract_lets +onlyGivenNames z; refine Upd.cutU (z := z.1) ?_ (fun hz => ?_); subst z; rotate_left; clear_value z; all_goals have z := trivial)
    | (extract_lets +onlyGivenNames z; have _t : SecS := z; clear _t; subst z; have z := trivial)
    | (extract_lets +onlyGivenNames z; clear_value z; have z := trivial)
    | (with_reducible apply Upd.ite)
    | (with_reducible apply State.applyDevice_upd; decide)
    | (with_reducible apply State.applyEqTable_upd; decide)
    | (with_reducible apply State.applyFabric_upd; decide)
    | (with_reducible apply State.applyMap_upd; decide)
    | (with_reducible apply State.loadFirmware_upd; decide)
    | (with_reducible apply State.putDigest_upd; decide)
    | (with_reducible apply Upd.set; decide)
    | (with_reducible apply Upd.fst; assumption)
    | simp (disch := first | decide | rfl | (apply And.intro <;> first | decide | rfl | (apply And.intro <;> rfl))) only [Upd.mk1_iff, Upd.lane_iff, Upd.job_iff, Upd.fab_iff, Upd.boot_iff, Upd.sec_iff, Upd.out_iff, Upd.job_boot_sec_iff]
    | split

end Sys2Proof.Machine
end

