-- ==== Sys2Proof/Laws/UpdBoot.lean ====
section
/-! SUPPORT. What each operation of Machine/Boot.lean may change (see Laws/Upd.lean). -/

set_option linter.unusedSimpArgs false
set_option linter.tactic.unusedName false

namespace Sys2Proof.Machine

theorem State.slotResult_upd (s : State) (n : Nat) (r : Option (Nat × Status)) {W P : Nat} {r_ : State} (hm : (subMask 0x10 W && subMask 0x0 P) = true) (k_ : Upd W P r_ s) :
    Upd W P r_ (State.slotResult s n r) := by
  refine Upd.via (w := 0x10) (p := 0x0) ?_ hm k_
  clear hm k_
  unfold State.slotResult
  repeat' first
    | (with_reducible exact Upd.refl _)
    | with_reducible assumption
    | (extract_lets +onlyGivenNames z; refine Upd.cutU (z := z) ?_ (fun hz => ?_); subst z; rotate_left; clear_value z; all_goals have z := trivial)
    | (extract_lets +onlyGivenNames z; refine Upd.cutU (z := z.1) ?_ (fun hz => ?_); subst z; rotate_left; clear_value z; all_goals have z := trivial)
    | (extract_lets +onlyGivenNames z; clear_value z; have z := trivial)
    | (with_reducible apply Upd.ite)
    | (with_reducible apply Upd.set; decide)
    | (with_reducible apply Upd.fst; assumption)
    | simp (disch := decide) only [Upd.mk1_iff]
    | split

theorem State.trySlot_upd (s : State) (nor : Nor) (failed : Option Nat) (n : Nat) {W P : Nat} {r_ : State} (hm : (subMask 0x11 W && subMask 0x110002 P) = true) (k_ : Upd W P r_ s) :
    Upd W P r_ (State.trySlot s nor failed n).1 := by
  refine Upd.via (w := 0x11) (p := 0x110002) ?_ hm k_
  clear hm k_
  unfold State.trySlot
  repeat' first
    | (with_reducible exact Upd.refl _)
    | with_reducible assumption
    | (extract_lets +onlyGivenNames z; refine Upd.cutU (z := z) ?_ (fun hz => ?_); subst z; rotate_left; clear_value z; all_goals have z := trivial)
    | (extract_lets +onlyGivenNames z; refine Upd.cutU (z := z.1) ?_ (fun hz => ?_); subst z; rotate_left; clear_value z; all_goals have z := trivial)
    | (extract_lets +onlyGivenNames z; clear_value z; have z := trivial)
    | (with_reducible apply Upd.ite)
    | (with_reducible apply Upd.iteFst)
    | (with_reducible apply State.bootEvent_upd; decide)
    | (with_reducible apply Upd.set; decide)
    | (with_reducible apply State.slotResult_upd; decide)
    | (with_reducible apply State.slotStatus_upd; decide)
    | (with_reducible apply Upd.fst; assumption)
    | simp (disch := decide) only [Upd.mk1_iff, Upd.boot_iff, Upd.out_iff]
    | split

theorem State.trySlots_upd (s : State) (nor : Nor) (failed : Option Nat) (x0 : List Nat) {W P : Nat} {r_ : State} (hm : (subMask 0x11 W && subMask 0x110002 P) = true) (k_ : Upd W P r_ s) :
    Upd W P r_ (State.trySlots s nor failed x0) := by
  refine Upd.via (w := 0x11) (p := 0x110002) ?_ hm k_
  clear hm k_
  induction x0 generalizing s failed with
  | nil => unfold State.trySlots; exact Upd.refl s
  | cons n rest ih =>
    have h : Upd 0x11 0x110002 s (s.trySlot nor failed n).1 := State.trySlot_upd _ _ _ _ (by decide) (Upd.refl s)
    unfold State.trySlots
    dsimp only
    split
    · exact h
    · exact h.trans (ih _ _)

theorem State.bootFail_upd (s : State) {W P : Nat} {r_ : State} (hm : (subMask 0x11 W && subMask 0x100000 P) = true) (k_ : Upd W P r_ s) :
    Upd W P r_ (State.bootFail s) := by
  refine Upd.via (w := 0x11) (p := 0x100000) ?_ hm k_
  clear hm k_
  unfold State.bootFail
  repeat' first
    | (with_reducible exact Upd.refl _)
    | with_reducible assumption
    | (extract_lets +onlyGivenNames z; refine Upd.cutU (z := z) ?_ (fun hz => ?_); subst z; rotate_left; clear_value z; all_goals have z := trivial)
    | (extract_lets +onlyGivenNames z; refine Upd.cutU (z := z.1) ?_ (fun hz => ?_); subst z; rotate_left; clear_value z; all_goals have z := trivial)
    | (extract_lets +onlyGivenNames z; clear_value z; have z := trivial)
    | (with_reducible apply Upd.ite)
    | (with_reducible apply State.notify_upd; decide)
    | (with_reducible apply Upd.set; decide)
    | (with_reducible apply Upd.fst; assumption)
    | simp (disch := decide) only [Upd.mk1_iff, Upd.out_iff]
    | split

theorem execBootRead_upd (nor : Nor) (s : State) {W P : Nat} (hm : (subMask 0x11 W && subMask 0x110002 P) = true) :
    NextUpd W P s (execBootRead nor s) := by
  refine NextUpd.mono (w := 0x11) (p := 0x110002) ?_ hm
  unfold execBootRead
  repeat' first
    | (with_reducible apply Upd.foldl; intro _ _)
    | (with_reducible apply Upd.foldlFst; intro _ _)
    | (with_reducible exact Upd.refl _)
    | with_reducible assumption
    | (extract_lets +onlyGivenNames z; refine Upd.cutU (z := z) ?_ (fun hz => ?_); subst z; rotate_left; clear_value z; all_goals have z := trivial)
    | (extract_lets +onlyGivenNames z; refine Upd.cutU (z := z.1) ?_ (fun hz => ?_); subst z; rotate_left; clear_value z; all_goals have z := trivial)
    | (extract_lets +onlyGivenNames z; refine NextUpd.cutU (z := z) ?_ (fun hz => ?_); subst z; rotate_left; clear_value z; all_goals have z := trivial)
    | (extract_lets +onlyGivenNames z; refine NextUpd.cutU (z := z.1) ?_ (fun hz => ?_); subst z; rotate_left; clear_value z; all_goals have z := trivial)
    | (extract_lets +onlyGivenNames z; clear_value z; have z := trivial)
    | (with_reducible apply NextUpd.next)
    | (with_reducible apply NextUpd.ite)
    | (with_reducible apply Upd.ite)
    | (with_reducible apply State.bootEvent_upd; decide)
    | (with_reducible apply State.bootFail_upd; decide)
    | (with_reducible apply State.putSlot_upd; decide)
    | (with_reducible apply Upd.set; decide)
    | (with_reducible apply State.slotResult_upd; decide)
    | (with_reducible apply State.trySlots_upd; decide)
    | (with_reducible apply Upd.fst; assumption)
    | simp (disch := decide) only [Upd.mk1_iff, Upd.boot_iff, Upd.out_iff]
    | split

theorem execFirmwareStart_upd (s : State) {W P : Nat} (hm : (subMask 0xffffffffffffffffffffffffffffffff W && subMask 0x7fffff P) = true) :
    NextUpd W P s (execFirmwareStart s) := by
  refine NextUpd.mono (w := 0xffffffffffffffffffffffffffffffff) (p := 0x7fffff) ?_ hm
  unfold execFirmwareStart
  repeat' first
    | ((with_reducible apply Upd.foldlPair); simp only [List.all_cons, List.all_nil]; decide)
    | ((with_reducible apply Upd.foldlCopy); simp only [List.all_cons, List.all_nil]; decide)
    | (extract_lets +onlyGivenNames z; have _t : List (Fld × Fld) := z; clear _t; subst z; have z := trivial)
    | (extract_lets +onlyGivenNames z; have _t : List (Fld × Nat) := z; clear _t; subst z; have z := trivial)
    | (with_reducible apply Upd.foldl; intro _ _)
    | (with_reducible apply Upd.foldlFst; intro _ _)
    | (with_reducible exact Upd.refl _)
    | with_reducible assumption
    | (extract_lets +onlyGivenNames z; refine Upd.cutU (z := z) ?_ (fun hz => ?_); subst z; rotate_left; clear_value z; all_goals have z := trivial)
    | (extract_lets +onlyGivenNames z; refine Upd.cutU (z := z.1) ?_ (fun hz => ?_); subst z; rotate_left; clear_value z; all_goals have z := trivial)
    | (extract_lets +onlyGivenNames z; refine NextUpd.cutU (z := z) ?_ (fun hz => ?_); subst z; rotate_left; clear_value z; all_goals have z := trivial)
    | (extract_lets +onlyGivenNames z; refine NextUpd.cutU (z := z.1) ?_ (fun hz => ?_); subst z; rotate_left; clear_value z; all_goals have z := trivial)
    | (extract_lets +onlyGivenNames z; clear_value z; have z := trivial)
    | (with_reducible apply NextUpd.next)
    | (with_reducible apply NextUpd.ite)
    | (with_reducible apply Upd.ite)
    | (with_reducible apply State.applyImage_upd; decide)
    | (with_reducible apply Upd.set; decide)
    | (with_reducible apply State.wipe_upd; decide)
    | (with_reducible apply effLaneEnable_upd; decide)
    | (with_reducible apply Upd.fst; assumption)
    | simp (disch := first | decide | rfl | (apply And.intro <;> first | decide | rfl | (apply And.intro <;> rfl))) only [Upd.mk1_iff, Upd.lane_iff, Upd.frames_iff, Upd.ing_iff, Upd.syn_iff, Upd.pipe_iff, Upd.blankets_iff, Upd.ref_iff, Upd.products_iff, Upd.egr_iff, Upd.brg_iff, Upd.memq_iff, Upd.sto_iff, Upd.job_iff, Upd.fab_iff, Upd.boot_iff, Upd.bist_iff, Upd.mgt_iff, Upd.sec_iff, Upd.out_iff, Upd.fresh_iff, Upd.bad_iff]
    | split

theorem effFwUpdate_upd (addr : Nat) (len : Nat) (src : Src) (s : State) {W P : Nat} {r_ : State} (hm : (subMask 0x100000000000000011 W && subMask 0x150c03 P) = true) (k_ : Upd W P r_ s) :
    Upd W P r_ (effFwUpdate addr len src s) := by
  refine Upd.via (w := 0x100000000000000011) (p := 0x150c03) ?_ hm k_
  clear hm k_
  unfold effFwUpdate
  repeat' first
    | (with_reducible exact Upd.refl _)
    | with_reducible assumption
    | (extract_lets +onlyGivenNames z; refine Upd.cutU (z := z) ?_ (fun hz => ?_); subst z; rotate_left; clear_value z; all_goals have z := trivial)
    | (extract_lets +onlyGivenNames z; refine Upd.cutU (z := z.1) ?_ (fun hz => ?_); subst z; rotate_left; clear_value z; all_goals have z := trivial)
    | (extract_lets +onlyGivenNames z; clear_value z; have z := trivial)
    | (with_reducible apply Upd.ite)
    | (with_reducible apply State.answer_upd; decide)
    | (with_reducible apply Upd.set; decide)
    | (with_reducible apply Upd.fst; assumption)
    | simp (disch := first | decide | rfl | (apply And.intro <;> first | decide | rfl | (apply And.intro <;> rfl))) only [Upd.mk1_iff, Upd.egr_iff, Upd.brg_iff, Upd.boot_iff, Upd.mgt_iff, Upd.out_iff]
    | split

theorem execFwUpdate_upd (addr : Nat) (len : Nat) (src : Src) (s : State) {W P : Nat} (hm : (subMask 0x100000000000000013 W && subMask 0x1d0c03 P) = true) :
    NextUpd W P s (execFwUpdate addr len src s) := by
  refine NextUpd.mono (w := 0x100000000000000013) (p := 0x1d0c03) ?_ hm
  unfold execFwUpdate
  repeat' first
    | (with_reducible exact Upd.refl _)
    | with_reducible assumption
    | (extract_lets +onlyGivenNames z; refine Upd.cutU (z := z) ?_ (fun hz => ?_); subst z; rotate_left; clear_value z; all_goals have z := trivial)
    | (extract_lets +onlyGivenNames z; refine Upd.cutU (z := z.1) ?_ (fun hz => ?_); subst z; rotate_left; clear_value z; all_goals have z := trivial)
    | (extract_lets +onlyGivenNames z; refine NextUpd.cutU (z := z) ?_ (fun hz => ?_); subst z; rotate_left; clear_value z; all_goals have z := trivial)
    | (extract_lets +onlyGivenNames z; refine NextUpd.cutU (z := z.1) ?_ (fun hz => ?_); subst z; rotate_left; clear_value z; all_goals have z := trivial)
    | (extract_lets +onlyGivenNames z; clear_value z; have z := trivial)
    | (with_reducible apply NextUpd.next)
    | (with_reducible apply NextUpd.ite)
    | (with_reducible apply Upd.ite)
    | (with_reducible apply State.answer_upd; decide)
    | (with_reducible apply State.recorded_upd; decide; intro _)
    | (with_reducible apply effFwUpdate_upd; decide)
    | (with_reducible apply Upd.fst; assumption)
    | simp (disch := first | decide | rfl | (apply And.intro <;> first | decide | rfl | (apply And.intro <;> rfl))) only [Upd.mk1_iff, Upd.egr_iff, Upd.brg_iff, Upd.boot_iff, Upd.mgt_iff, Upd.sec_iff, Upd.out_iff]
    | split

theorem State.updateReply_upd (s : State) (st : Status) {W P : Nat} {r_ : State} (hm : (subMask 0x100000000000000001 W && subMask 0x150c03 P) = true) (k_ : Upd W P r_ s) :
    Upd W P r_ (State.updateReply s st) := by
  refine Upd.via (w := 0x100000000000000001) (p := 0x150c03) ?_ hm k_
  clear hm k_
  unfold State.updateReply
  repeat' first
    | (with_reducible exact Upd.refl _)
    | with_reducible assumption
    | (extract_lets +onlyGivenNames z; refine Upd.cutU (z := z) ?_ (fun hz => ?_); subst z; rotate_left; clear_value z; all_goals have z := trivial)
    | (extract_lets +onlyGivenNames z; refine Upd.cutU (z := z.1) ?_ (fun hz => ?_); subst z; rotate_left; clear_value z; all_goals have z := trivial)
    | (extract_lets +onlyGivenNames z; clear_value z; have z := trivial)
    | (with_reducible apply Upd.ite)
    | (with_reducible apply State.answer_upd; decide)
    | (with_reducible apply Upd.fst; assumption)
    | simp (disch := first | decide | rfl | (apply And.intro <;> first | decide | rfl | (apply And.intro <;> rfl))) only [Upd.mk1_iff, Upd.egr_iff, Upd.brg_iff, Upd.boot_iff, Upd.mgt_iff, Upd.out_iff]
    | split

theorem execUpdateVerifyDone_upd (v : Verdicts) (s : State) {W P : Nat} (hm : (subMask 0x100000000000000011 W && subMask 0x150c03 P) = true) :
    NextUpd W P s (execUpdateVerifyDone v s) := by
  refine NextUpd.mono (w := 0x100000000000000011) (p := 0x150c03) ?_ hm
  unfold execUpdateVerifyDone
  repeat' first
    | (with_reducible exact Upd.refl _)
    | with_reducible assumption
    | (extract_lets +onlyGivenNames z; refine Upd.cutU (z := z) ?_ (fun hz => ?_); subst z; rotate_left; clear_value z; all_goals have z := trivial)
    | (extract_lets +onlyGivenNames z; refine Upd.cutU (z := z.1) ?_ (fun hz => ?_); subst z; rotate_left; clear_value z; all_goals have z := trivial)
    | (extract_lets +onlyGivenNames z; refine NextUpd.cutU (z := z) ?_ (fun hz => ?_); subst z; rotate_left; clear_value z; all_goals have z := trivial)
    | (extract_lets +onlyGivenNames z; refine NextUpd.cutU (z := z.1) ?_ (fun hz => ?_); subst z; rotate_left; clear_value z; all_goals have z := trivial)
    | (extract_lets +onlyGivenNames z; clear_value z; have z := trivial)
    | (with_reducible apply NextUpd.next)
    | (with_reducible apply NextUpd.ite)
    | (with_reducible apply Upd.ite)
    | (with_reducible apply State.putSlot_upd; decide)
    | (with_reducible apply Upd.set; decide)
    | (with_reducible apply State.updateFail_upd; decide)
    | (with_reducible apply State.updateReply_upd; decide)
    | (with_reducible apply Upd.fst; assumption)
    | simp (disch := first | decide | rfl | (apply And.intro <;> first | decide | rfl | (apply And.intro <;> rfl))) only [Upd.mk1_iff, Upd.egr_iff, Upd.brg_iff, Upd.boot_iff, Upd.mgt_iff, Upd.out_iff]
    | split

theorem execUpdateProgramDone_upd (ok : Bool) (s : State) {W P : Nat} (hm : (subMask 0x11 W && subMask 0x110002 P) = true) :
    NextUpd W P s (execUpdateProgramDone ok s) := by
  refine NextUpd.mono (w := 0x11) (p := 0x110002) ?_ hm
  unfold execUpdateProgramDone
  repeat' first
    | (with_reducible exact Upd.refl _)
    | with_reducible assumption
    | (extract_lets +onlyGivenNames z; refine Upd.cutU (z := z) ?_ (fun hz => ?_); subst z; rotate_left; clear_value z; all_goals have z := trivial)
    | (extract_lets +onlyGivenNames z; refine Upd.cutU (z := z.1) ?_ (fun hz => ?_); subst z; rotate_left; clear_value z; all_goals have z := trivial)
    | (extract_lets +onlyGivenNames z; refine NextUpd.cutU (z := z) ?_ (fun hz => ?_); subst z; rotate_left; clear_value z; all_goals have z := trivial)
    | (extract_lets +onlyGivenNames z; refine NextUpd.cutU (z := z.1) ?_ (fun hz => ?_); subst z; rotate_left; clear_value z; all_goals have z := trivial)
    | (extract_lets +onlyGivenNames z; clear_value z; have z := trivial)
    | (with_reducible apply NextUpd.next)
    | (with_reducible apply NextUpd.ite)
    | (with_reducible apply Upd.ite)
    | (with_reducible apply State.putSlot_upd; decide)
    | (with_reducible apply Upd.set; decide)
    | (with_reducible apply State.updateFail_upd; decide)
    | (with_reducible apply Upd.fst; assumption)
    | simp (disch := decide) only [Upd.mk1_iff, Upd.boot_iff, Upd.out_iff]
    | split

theorem execUpdateReadbackDone_upd (v : Verdicts) (s : State) {W P : Nat} (hm : (subMask 0x13 W && subMask 0x190002 P) = true) :
    NextUpd W P s (execUpdateReadbackDone v s) := by
  refine NextUpd.mono (w := 0x13) (p := 0x190002) ?_ hm
  unfold execUpdateReadbackDone
  repeat' first
    | (with_reducible exact Upd.refl _)
    | with_reducible assumption
    | (extract_lets +onlyGivenNames z; refine Upd.cutU (z := z) ?_ (fun hz => ?_); subst z; rotate_left; clear_value z; all_goals have z := trivial)
    | (extract_lets +onlyGivenNames z; refine Upd.cutU (z := z.1) ?_ (fun hz => ?_); subst z; rotate_left; clear_value z; all_goals have z := trivial)
    | (extract_lets +onlyGivenNames z; refine NextUpd.cutU (z := z) ?_ (fun hz => ?_); subst z; rotate_left; clear_value z; all_goals have z := trivial)
    | (extract_lets +onlyGivenNames z; refine NextUpd.cutU (z := z.1) ?_ (fun hz => ?_); subst z; rotate_left; clear_value z; all_goals have z := trivial)
    | (extract_lets +onlyGivenNames z; clear_value z; have z := trivial)
    | (with_reducible apply NextUpd.next)
    | (with_reducible apply NextUpd.ite)
    | (with_reducible apply Upd.ite)
    | (with_reducible apply State.bootEvent_upd; decide)
    | (with_reducible apply State.note_upd; decide)
    | (with_reducible apply Upd.set; decide)
    | (with_reducible apply State.updateFail_upd; decide)
    | (with_reducible apply Upd.fst; assumption)
    | simp (disch := first | decide | rfl | (apply And.intro <;> first | decide | rfl | (apply And.intro <;> rfl))) only [Upd.mk1_iff, Upd.boot_iff, Upd.sec_iff, Upd.out_iff]
    | split

theorem effFwActivate_upd (src : Src) (s : State) {W P : Nat} {r_ : State} (hm : (subMask 0x101180111010000000035 W && subMask 0x1ddc03 P) = true) (k_ : Upd W P r_ s) :
    Upd W P r_ (effFwActivate src s) := by
  refine Upd.via (w := 0x101180111010000000035) (p := 0x1ddc03) ?_ hm k_
  clear hm k_
  unfold effFwActivate
  repeat' first
    | (with_reducible exact Upd.refl _)
    | with_reducible assumption
    | (extract_lets +onlyGivenNames z; refine Upd.cutU (z := z) ?_ (fun hz => ?_); subst z; rotate_left; clear_value z; all_goals have z := trivial)
    | (extract_lets +onlyGivenNames z; refine Upd.cutU (z := z.1) ?_ (fun hz => ?_); subst z; rotate_left; clear_value z; all_goals have z := trivial)
    | (extract_lets +onlyGivenNames z; clear_value z; have z := trivial)
    | (with_reducible apply Upd.ite)
    | (with_reducible apply State.answer_upd; decide)
    | (with_reducible apply State.bootEvent_upd; decide)
    | (with_reducible apply State.mgtRestart_upd; decide)
    | (with_reducible apply Upd.set; decide)
    | (with_reducible apply Upd.fst; assumption)
    | simp (disch := first | decide | rfl | (apply And.intro <;> first | decide | rfl | (apply And.intro <;> rfl))) only [Upd.mk1_iff, Upd.egr_iff, Upd.brg_iff, Upd.memq_iff, Upd.job_iff, Upd.fab_iff, Upd.boot_iff, Upd.mgt_iff, Upd.sec_iff, Upd.out_iff]
    | split

theorem execFwActivate_upd (src : Src) (s : State) {W P : Nat} (hm : (subMask 0x101180111010000000037 W && subMask 0x1ddc03 P) = true) :
    NextUpd W P s (execFwActivate src s) := by
  refine NextUpd.mono (w := 0x101180111010000000037) (p := 0x1ddc03) ?_ hm
  unfold execFwActivate
  repeat' first
    | (with_reducible exact Upd.refl _)
    | with_reducible assumption
    | (extract_lets +onlyGivenNames z; refine Upd.cutU (z := z) ?_ (fun hz => ?_); subst z; rotate_left; clear_value z; all_goals have z := trivial)
    | (extract_lets +onlyGivenNames z; refine Upd.cutU (z := z.1) ?_ (fun hz => ?_); subst z; rotate_left; clear_value z; all_goals have z := trivial)
    | (extract_lets +onlyGivenNames z; refine NextUpd.cutU (z := z) ?_ (fun hz => ?_); subst z; rotate_left; clear_value z; all_goals have z := trivial)
    | (extract_lets +onlyGivenNames z; refine NextUpd.cutU (z := z.1) ?_ (fun hz => ?_); subst z; rotate_left; clear_value z; all_goals have z := trivial)
    | (extract_lets +onlyGivenNames z; clear_value z; have z := trivial)
    | (with_reducible apply NextUpd.next)
    | (with_reducible apply NextUpd.ite)
    | (with_reducible apply Upd.ite)
    | (with_reducible apply State.answer_upd; decide)
    | (with_reducible apply State.recorded_upd; decide; intro _)
    | (with_reducible apply effFwActivate_upd; decide)
    | (with_reducible apply Upd.fst; assumption)
    | simp (disch := first | decide | rfl | (apply And.intro <;> first | decide | rfl | (apply And.intro <;> rfl))) only [Upd.mk1_iff, Upd.egr_iff, Upd.brg_iff, Upd.memq_iff, Upd.job_iff, Upd.fab_iff, Upd.boot_iff, Upd.mgt_iff, Upd.sec_iff, Upd.out_iff]
    | split

theorem State.confirm_upd (s : State) {W P : Nat} {r_ : State} (hm : (subMask 0x10 W && subMask 0x10000 P) = true) (k_ : Upd W P r_ s) :
    Upd W P r_ (State.confirm s) := by
  refine Upd.via (w := 0x10) (p := 0x10000) ?_ hm k_
  clear hm k_
  unfold State.confirm
  repeat' first
    | (with_reducible exact Upd.refl _)
    | with_reducible assumption
    | (extract_lets +onlyGivenNames z; refine Upd.cutU (z := z) ?_ (fun hz => ?_); subst z; rotate_left; clear_value z; all_goals have z := trivial)
    | (extract_lets +onlyGivenNames z; refine Upd.cutU (z := z.1) ?_ (fun hz => ?_); subst z; rotate_left; clear_value z; all_goals have z := trivial)
    | (extract_lets +onlyGivenNames z; clear_value z; have z := trivial)
    | (with_reducible apply Upd.ite)
    | (with_reducible apply Upd.set; decide)
    | (with_reducible apply State.slotStatus_upd; decide)
    | (with_reducible apply Upd.fst; assumption)
    | simp (disch := decide) only [Upd.mk1_iff, Upd.boot_iff]
    | split

theorem execFwConfirm_upd (src : Src) (s : State) {W P : Nat} (hm : (subMask 0x100000000000000011 W && subMask 0x150c03 P) = true) :
    NextUpd W P s (execFwConfirm src s) := by
  refine NextUpd.mono (w := 0x100000000000000011) (p := 0x150c03) ?_ hm
  unfold execFwConfirm
  repeat' first
    | (with_reducible exact Upd.refl _)
    | with_reducible assumption
    | (extract_lets +onlyGivenNames z; refine Upd.cutU (z := z) ?_ (fun hz => ?_); subst z; rotate_left; clear_value z; all_goals have z := trivial)
    | (extract_lets +onlyGivenNames z; refine Upd.cutU (z := z.1) ?_ (fun hz => ?_); subst z; rotate_left; clear_value z; all_goals have z := trivial)
    | (extract_lets +onlyGivenNames z; refine NextUpd.cutU (z := z) ?_ (fun hz => ?_); subst z; rotate_left; clear_value z; all_goals have z := trivial)
    | (extract_lets +onlyGivenNames z; refine NextUpd.cutU (z := z.1) ?_ (fun hz => ?_); subst z; rotate_left; clear_value z; all_goals have z := trivial)
    | (extract_lets +onlyGivenNames z; clear_value z; have z := trivial)
    | (with_reducible apply NextUpd.next)
    | (with_reducible apply NextUpd.ite)
    | (with_reducible apply Upd.ite)
    | (with_reducible apply State.answer_upd; decide)
    | (with_reducible apply State.confirm_upd; decide)
    | (with_reducible apply Upd.fst; assumption)
    | simp (disch := first | decide | rfl | (apply And.intro <;> first | decide | rfl | (apply And.intro <;> rfl))) only [Upd.mk1_iff, Upd.egr_iff, Upd.brg_iff, Upd.boot_iff, Upd.mgt_iff, Upd.out_iff]
    | split

theorem State.rollBack_upd (s : State) {W P : Nat} {r_ : State} (hm : (subMask 0x101180111010000000035 W && subMask 0x1ddc03 P) = true) (k_ : Upd W P r_ s) :
    Upd W P r_ (State.rollBack s) := by
  refine Upd.via (w := 0x101180111010000000035) (p := 0x1ddc03) ?_ hm k_
  clear hm k_
  unfold State.rollBack
  repeat' first
    | (with_reducible exact Upd.refl _)
    | with_reducible assumption
    | (extract_lets +onlyGivenNames z; refine Upd.cutU (z := z) ?_ (fun hz => ?_); subst z; rotate_left; clear_value z; all_goals have z := trivial)
    | (extract_lets +onlyGivenNames z; refine Upd.cutU (z := z.1) ?_ (fun hz => ?_); subst z; rotate_left; clear_value z; all_goals have z := trivial)
    | (extract_lets +onlyGivenNames z; clear_value z; have z := trivial)
    | (with_reducible apply Upd.ite)
    | (with_reducible apply State.bootEvent_upd; decide)
    | (with_reducible apply State.mgtRestart_upd; decide)
    | (with_reducible apply Upd.set; decide)
    | (with_reducible apply State.slotStatus_upd; decide)
    | (with_reducible apply Upd.fst; assumption)
    | simp (disch := first | decide | rfl | (apply And.intro <;> first | decide | rfl | (apply And.intro <;> rfl))) only [Upd.mk1_iff, Upd.egr_iff, Upd.brg_iff, Upd.memq_iff, Upd.job_iff, Upd.fab_iff, Upd.boot_iff, Upd.mgt_iff, Upd.sec_iff, Upd.out_iff]
    | split

theorem execConfirmTimeout_upd (s : State) {W P : Nat} (hm : (subMask 0x101180111010000000035 W && subMask 0x1ddc03 P) = true) :
    NextUpd W P s (execConfirmTimeout s) := by
  refine NextUpd.mono (w := 0x101180111010000000035) (p := 0x1ddc03) ?_ hm
  unfold execConfirmTimeout
  repeat' first
    | (with_reducible exact Upd.refl _)
    | with_reducible assumption
    | (extract_lets +onlyGivenNames z; refine Upd.cutU (z := z) ?_ (fun hz => ?_); subst z; rotate_left; clear_value z; all_goals have z := trivial)
    | (extract_lets +onlyGivenNames z; refine Upd.cutU (z := z.1) ?_ (fun hz => ?_); subst z; rotate_left; clear_value z; all_goals have z := trivial)
    | (extract_lets +onlyGivenNames z; refine NextUpd.cutU (z := z) ?_ (fun hz => ?_); subst z; rotate_left; clear_value z; all_goals have z := trivial)
    | (extract_lets +onlyGivenNames z; refine NextUpd.cutU (z := z.1) ?_ (fun hz => ?_); subst z; rotate_left; clear_value z; all_goals have z := trivial)
    | (extract_lets +onlyGivenNames z; clear_value z; have z := trivial)
    | (with_reducible apply NextUpd.next)
    | (with_reducible apply NextUpd.ite)
    | (with_reducible apply Upd.ite)
    | (with_reducible apply State.rollBack_upd; decide)
    | (with_reducible apply Upd.fst; assumption)
    | simp (disch := first | decide | rfl | (apply And.intro <;> first | decide | rfl | (apply And.intro <;> rfl))) only [Upd.mk1_iff, Upd.egr_iff, Upd.brg_iff, Upd.memq_iff, Upd.job_iff, Upd.fab_iff, Upd.boot_iff, Upd.mgt_iff, Upd.sec_iff, Upd.out_iff]
    | split

theorem State.reload_upd (s : State) (fw : Sigs) {W P : Nat} {r_ : State} {t : _} (h : State.reload s fw = some t) (hm : (subMask 0x10 W && subMask 0x10000 P) = true) (k_ : Upd W P r_ s) :
    Upd W P r_ t := by
  refine Upd.via (w := 0x10) (p := 0x10000) ?_ hm k_
  clear hm k_
  unfold State.reload at h
  revert h
  repeat' first
    | (with_reducible intro h; cases h)
    | (with_reducible exact Upd.refl _)
    | with_reducible assumption
    | (extract_lets +onlyGivenNames z; refine Upd.cutU (z := z) ?_ (fun hz => ?_); subst z; rotate_left; clear_value z; all_goals have z := trivial)
    | (extract_lets +onlyGivenNames z; refine Upd.cutU (z := z.1) ?_ (fun hz => ?_); subst z; rotate_left; clear_value z; all_goals have z := trivial)
    | (extract_lets +onlyGivenNames z; clear_value z; have z := trivial)
    | (with_reducible apply Upd.ite)
    | (with_reducible apply State.loadFirmware_upd; decide)
    | (with_reducible apply Upd.fst; assumption)
    | simp (disch := decide) only [Upd.mk1_iff, Upd.boot_iff]
    | split

theorem State.mgtBack_upd (s : State) (source : Nat) {W P : Nat} {r_ : State} (hm : (subMask 0x101180111010001100033 W && subMask 0x1ccc03 P) = true) (k_ : Upd W P r_ s) :
    Upd W P r_ (State.mgtBack s source) := by
  refine Upd.via (w := 0x101180111010001100033) (p := 0x1ccc03) ?_ hm k_
  clear hm k_
  unfold State.mgtBack
  repeat' first
    | ((with_reducible apply Upd.foldlPair); simp only [List.all_cons, List.all_nil]; decide)
    | ((with_reducible apply Upd.foldlCopy); simp only [List.all_cons, List.all_nil]; decide)
    | (extract_lets +onlyGivenNames z; have _t : List (Fld × Fld) := z; clear _t; subst z; have z := trivial)
    | (extract_lets +onlyGivenNames z; have _t : List (Fld × Nat) := z; clear _t; subst z; have z := trivial)
    | (with_reducible apply Upd.foldl; intro _ _)
    | (with_reducible apply Upd.foldlFst; intro _ _)
    | (with_reducible exact Upd.refl _)
    | with_reducible assumption
    | (extract_lets +onlyGivenNames z; refine Upd.cutU (z := z) ?_ (fun hz => ?_); subst z; rotate_left; clear_value z; all_goals have z := trivial)
    | (extract_lets +onlyGivenNames z; refine Upd.cutU (z := z.1) ?_ (fun hz => ?_); subst z; rotate_left; clear_value z; all_goals have z := trivial)
    | (extract_lets +onlyGivenNames z; clear_value z; have z := trivial)
    | (with_reducible apply Upd.ite)
    | (with_reducible apply State.serveLatch_upd; decide)
    | (with_reducible apply Upd.set; decide)
    | (with_reducible apply State.stageRoutes_upd; decide)
    | (with_reducible apply Upd.fst; assumption)
    | simp (disch := first | decide | rfl | (apply And.intro <;> first | decide | rfl | (apply And.intro <;> rfl))) only [Upd.mk1_iff, Upd.egr_iff, Upd.brg_iff, Upd.job_iff, Upd.fab_iff, Upd.mgt_iff, Upd.sec_iff, Upd.out_iff]
    | split

theorem execMgtRestartDone_upd (sramOk : Bool) (fw : Sigs) (s : State) {W P : Nat} (hm : (subMask 0x101180111010001100037 W && subMask 0x1ddc03 P) = true) :
    NextUpd W P s (execMgtRestartDone sramOk fw s) := by
  refine NextUpd.mono (w := 0x101180111010001100037) (p := 0x1ddc03) ?_ hm
  unfold execMgtRestartDone
  repeat' first
    | (with_reducible exact Upd.refl _)
    | with_reducible assumption
    | (extract_lets +onlyGivenNames z; refine Upd.cutU (z := z) ?_ (fun hz => ?_); subst z; rotate_left; clear_value z; all_goals have z := trivial)
    | (extract_lets +onlyGivenNames z; refine Upd.cutU (z := z.1) ?_ (fun hz => ?_); subst z; rotate_left; clear_value z; all_goals have z := trivial)
    | (extract_lets +onlyGivenNames z; refine NextUpd.cutU (z := z) ?_ (fun hz => ?_); subst z; rotate_left; clear_value z; all_goals have z := trivial)
    | (extract_lets +onlyGivenNames z; refine NextUpd.cutU (z := z.1) ?_ (fun hz => ?_); subst z; rotate_left; clear_value z; all_goals have z := trivial)
    | (extract_lets +onlyGivenNames z; clear_value z; have z := trivial)
    | (with_reducible apply NextUpd.next)
    | (with_reducible apply NextUpd.ite)
    | (with_reducible apply Upd.ite)
    | (with_reducible apply State.bootEvent_upd; decide)
    | (with_reducible apply State.mgtBack_upd; decide)
    | (with_reducible apply State.reload_upd; assumption; decide)
    | (with_reducible apply State.rollBack_upd; decide)
    | (with_reducible apply Upd.set; decide)
    | (with_reducible apply Upd.fst; assumption)
    | simp (disch := first | decide | rfl | (apply And.intro <;> first | decide | rfl | (apply And.intro <;> rfl))) only [Upd.mk1_iff, Upd.egr_iff, Upd.brg_iff, Upd.memq_iff, Upd.job_iff, Upd.fab_iff, Upd.boot_iff, Upd.mgt_iff, Upd.sec_iff, Upd.out_iff]
    | split

end Sys2Proof.Machine
end

