-- ==== Sys2Proof/Laws/UpdRegView.lean ====
section
/-! SUPPORT. What each operation of Machine/RegView.lean may change (see Laws/Upd.lean). -/

set_option linter.unusedSimpArgs false
set_option linter.tactic.unusedName false

namespace Sys2Proof.Machine

theorem State.regFetch_upd (s : State) (a : Nat) (ini : Ini) {W P : Nat} {r_ : State} (hm : (subMask 0x1000000000000 W && subMask 0x40000 P) = true) (k_ : Upd W P r_ s) :
    Upd W P r_ (State.regFetch s a ini).1 := by
  refine Upd.via (w := 0x1000000000000) (p := 0x40000) ?_ hm k_
  clear hm k_
  unfold State.regFetch
  repeat' first
    | (with_reducible exact Upd.refl _)
    | with_reducible assumption
    | (extract_lets +onlyGivenNames z; refine Upd.cutU (z := z) ?_ (fun hz => ?_); subst z; rotate_left; clear_value z; all_goals have z := trivial)
    | (extract_lets +onlyGivenNames z; refine Upd.cutU (z := z.1) ?_ (fun hz => ?_); subst z; rotate_left; clear_value z; all_goals have z := trivial)
    | (extract_lets +onlyGivenNames z; have _t : MgtS := z; clear _t; subst z; have z := trivial)
    | (extract_lets +onlyGivenNames z; clear_value z; have z := trivial)
    | (with_reducible apply Upd.ite)
    | (with_reducible apply Upd.iteFst)
    | (with_reducible apply Upd.set; decide)
    | (with_reducible apply Upd.fst; assumption)
    | simp (disch := first | decide | rfl | (apply And.intro <;> first | decide | rfl | (apply And.intro <;> rfl))) only [Upd.mk1_iff, Upd.mgt_iff]
    | split

theorem State.regRead_upd (s : State) (a : Nat) (src : Src) {W P : Nat} {r_ : State} (hm : (subMask 0x1000000000000 W && subMask 0x40000 P) = true) (k_ : Upd W P r_ s) :
    Upd W P r_ (State.regRead s a src).1 := by
  refine Upd.via (w := 0x1000000000000) (p := 0x40000) ?_ hm k_
  clear hm k_
  unfold State.regRead
  repeat' first
    | (with_reducible exact Upd.refl _)
    | with_reducible assumption
    | (extract_lets +onlyGivenNames z; refine Upd.cutU (z := z) ?_ (fun hz => ?_); subst z; rotate_left; clear_value z; all_goals have z := trivial)
    | (extract_lets +onlyGivenNames z; refine Upd.cutU (z := z.1) ?_ (fun hz => ?_); subst z; rotate_left; clear_value z; all_goals have z := trivial)
    | (extract_lets +onlyGivenNames z; clear_value z; have z := trivial)
    | (with_reducible apply Upd.ite)
    | (with_reducible apply Upd.iteFst)
    | (with_reducible apply State.regFetch_upd; decide)
    | (with_reducible apply Upd.fst; assumption)
    | simp (disch := first | decide | rfl | (apply And.intro <;> first | decide | rfl | (apply And.intro <;> rfl))) only [Upd.mk1_iff, Upd.mgt_iff]
    | split

end Sys2Proof.Machine
end

