-- ==== Sys2Proof/Laws/UpdRegWrite.lean ====
section
/-! SUPPORT. What each operation of Machine/RegWrite.lean may change (see Laws/Upd.lean). -/

set_option linter.unusedSimpArgs false
set_option linter.tactic.unusedName false

namespace Sys2Proof.Machine

theorem State.putFields_upd (s : State) (l : List (Nat × RegField)) (v : Nat) {W P : Nat} {r_ : State} (hm : (subMask 0xffffffffffffffffffffffffffffffff W && subMask 0x0 P) = true) (k_ : Upd W P r_ s) :
    Upd W P r_ (State.putFields s l v) := by
  refine Upd.via (w := 0xffffffffffffffffffffffffffffffff) (p := 0x0) ?_ hm k_
  clear hm k_
  unfold State.putFields
  repeat' first
    | (with_reducible apply Upd.foldl; intro _ _)
    | (with_reducible apply Upd.foldlFst; intro _ _)
    | (with_reducible exact Upd.refl _)
    | with_reducible assumption
    | (extract_lets +onlyGivenNames z; refine Upd.cutU (z := z) ?_ (fun hz => ?_); subst z; rotate_left; clear_value z; all_goals have z := trivial)
    | (extract_lets +onlyGivenNames z; refine Upd.cutU (z := z.1) ?_ (fun hz => ?_); subst z; rotate_left; clear_value z; all_goals have z := trivial)
    | (extract_lets +onlyGivenNames z; clear_value z; have z := trivial)
    | (with_reducible apply Upd.ite)
    | (with_reducible apply State.putField_upd; decide)
    | (with_reducible apply Upd.fst; assumption)
    | simp (disch := decide) only [Upd.mk1_iff]
    | split

theorem State.ifBit_upd {w p : Nat} {r s : State} {v k : Nat} {g : State → State} (hg : ∀ s, Upd w p s (g s))
    (h : Upd w p r s) : Upd w p r (s.ifBit v k g) := Upd.ite (h.trans (hg s)) h

theorem State.fenceTo_upd {w p : Nat} {r s : State} {fence fenced : Fld} {v : Nat} {g : State → State}
    (h1 : w.testBit fence.page = true) (h2 : w.testBit fenced.page = true) (hg : ∀ s, Upd w p s (g s))
    (h : Upd w p r s) : Upd w p r (s.fenceTo fence fenced v g) :=
  Upd.ite (Upd.ite h (h.trans (hg s))) (Upd.set h2 (Upd.set h1 h))

theorem State.frontWrite_upd (s : State) (r : RegRow) (i : Nat) (v : Nat) (whole : Nat) (src : Src) {W P : Nat} {r_ : State} (hm : (subMask 0x101180111010101110027 W && subMask 0x1ccc3f P) = true) (k_ : Upd W P r_ s) :
    Upd W P r_ (State.frontWrite s r i v whole src) := by
  refine Upd.via (w := 0x101180111010101110027) (p := 0x1ccc3f) ?_ hm k_
  clear hm k_
  unfold State.frontWrite
  repeat' first
    | (with_reducible exact Upd.refl _)
    | with_reducible assumption
    | (extract_lets +onlyGivenNames z; refine Upd.cutU (z := z) ?_ (fun hz => ?_); subst z; rotate_left; clear_value z; all_goals have z := trivial)
    | (extract_lets +onlyGivenNames z; refine Upd.cutU (z := z.1) ?_ (fun hz => ?_); subst z; rotate_left; clear_value z; all_goals have z := trivial)
    | (extract_lets +onlyGivenNames z; clear_value z; have z := trivial)
    | (with_reducible apply Upd.ite)
    | (with_reducible apply State.evalWatermark_upd; decide)
    | (with_reducible apply State.fcPins_upd; decide)
    | (with_reducible apply State.ifBit_upd; intro _)
    | (with_reducible apply State.ingClrCnt_upd; decide)
    | (with_reducible apply State.laneClrCnt_upd; decide)
    | (with_reducible apply State.pauseEnWrite_upd; decide)
    | (with_reducible apply State.pitchCommit_upd; decide)
    | (with_reducible apply State.playBegin_upd; decide)
    | (with_reducible apply State.playHalt_upd; decide)
    | (with_reducible apply State.ptpPop_upd; decide)
    | (with_reducible apply Upd.set; decide)
    | (with_reducible apply State.showEq_upd; decide)
    | (with_reducible apply State.slewTo_upd; decide)
    | (with_reducible apply State.stepTime_upd; decide)
    | (with_reducible apply State.trigDisable_upd; decide)
    | (with_reducible apply State.trigEnable_upd; decide)
    | (with_reducible apply State.unmapPins_upd; decide)
    | (with_reducible apply effChApply_upd; decide)
    | (with_reducible apply effEncPreset_upd; decide)
    | (with_reducible apply effEyeScanStart_upd; decide)
    | (with_reducible apply effLaneDisable_upd; decide)
    | (with_reducible apply effLaneEnable_upd; decide)
    | (with_reducible apply effLaneEqCommit_upd; decide)
    | (with_reducible apply effLaneRetrain_upd; decide)
    | (with_reducible apply effQueueFlush_upd; decide)
    | (with_reducible apply Upd.fst; assumption)
    | simp (disch := first | decide | rfl | (apply And.intro <;> first | decide | rfl | (apply And.intro <;> rfl))) only [Upd.mk1_iff, Upd.lane_iff, Upd.frames_iff, Upd.ing_iff, Upd.syn_iff, Upd.egr_iff, Upd.brg_iff, Upd.job_iff, Upd.fab_iff, Upd.mgt_iff, Upd.sec_iff, Upd.out_iff]
    | split

theorem State.forwardEvent_upd (s : State) (e : Ev) (f : Forward) {W P : Nat} {r_ : State} (hm : (subMask 0x0 W && subMask 0x40400 P) = true) (k_ : Upd W P r_ s) :
    Upd W P r_ (State.forwardEvent s e f) := by
  refine Upd.via (w := 0x0) (p := 0x40400) ?_ hm k_
  clear hm k_
  unfold State.forwardEvent
  repeat' first
    | (with_reducible exact Upd.refl _)
    | with_reducible assumption
    | (extract_lets +onlyGivenNames z; refine Upd.cutU (z := z) ?_ (fun hz => ?_); subst z; rotate_left; clear_value z; all_goals have z := trivial)
    | (extract_lets +onlyGivenNames z; refine Upd.cutU (z := z.1) ?_ (fun hz => ?_); subst z; rotate_left; clear_value z; all_goals have z := trivial)
    | (extract_lets +onlyGivenNames z; have _t : State → _ := z; clear _t; subst z; have z := trivial)
    | (extract_lets +onlyGivenNames z; have _t : _ → State := z; clear _t; subst z; have z := trivial)
    | (extract_lets +onlyGivenNames z; have _t : _ → _ → State := z; clear _t; subst z; have z := trivial)
    | (extract_lets +onlyGivenNames z; have _t : MgtS := z; clear _t; subst z; have z := trivial)
    | (extract_lets +onlyGivenNames z; clear_value z; have z := trivial)
    | (with_reducible apply Upd.ite)
    | (with_reducible apply State.sendCtl_upd; decide)
    | (with_reducible apply Upd.fst; assumption)
    | simp (disch := first | decide | rfl | (apply And.intro <;> first | decide | rfl | (apply And.intro <;> rfl))) only [Upd.mk1_iff, Upd.egr_iff, Upd.mgt_iff]
    | split

theorem State.evqPop_upd (s : State) {W P : Nat} {r_ : State} (hm : (subMask 0x1 W && subMask 0x140402 P) = true) (k_ : Upd W P r_ s) :
    Upd W P r_ (State.evqPop s) := by
  refine Upd.via (w := 0x1) (p := 0x140402) ?_ hm k_
  clear hm k_
  unfold State.evqPop
  split
  · exact Upd.refl s
  · next e rest heq =>
    refine State.notify_upd _ (by decide) (Upd.evqOf (by decide) (fun h => ?_) ?_)
    · rw [heq] at h; exact Nat.le_trans (Nat.le_succ _) h
    · exact Upd.foldl (fun _ _ => State.forwardEvent_upd _ _ _ (by decide) (Upd.refl _)) (Upd.refl s)

theorem State.ctrlWrite_upd (s : State) (r : RegRow) (v : Nat) (src : Src) {W P : Nat} {r_ : State} (hm : (subMask 0x10118011101000110003f W && subMask 0x1ddc43 P) = true) (k_ : Upd W P r_ s) :
    Upd W P r_ (State.ctrlWrite s r v src).1 := by
  refine Upd.via (w := 0x10118011101000110003f) (p := 0x1ddc43) ?_ hm k_
  clear hm k_
  unfold State.ctrlWrite
  repeat' first
    | (with_reducible exact Upd.refl _)
    | with_reducible assumption
    | (extract_lets +onlyGivenNames z; refine Upd.cutU (z := z) ?_ (fun hz => ?_); subst z; rotate_left; clear_value z; all_goals have z := trivial)
    | (extract_lets +onlyGivenNames z; refine Upd.cutU (z := z.1) ?_ (fun hz => ?_); subst z; rotate_left; clear_value z; all_goals have z := trivial)
    | (extract_lets +onlyGivenNames z; have _t : State → _ := z; clear _t; subst z; have z := trivial)
    | (extract_lets +onlyGivenNames z; have _t : _ → State := z; clear _t; subst z; have z := trivial)
    | (extract_lets +onlyGivenNames z; have _t : _ → _ → State := z; clear _t; subst z; have z := trivial)
    | (extract_lets +onlyGivenNames z; clear_value z; have z := trivial)
    | (with_reducible apply Upd.ite)
    | (with_reducible apply Upd.iteFst)
    | (with_reducible apply State.bistBegin_upd; decide)
    | (with_reducible apply State.confirm_upd; decide)
    | (with_reducible apply State.ctrlArm_upd; decide)
    | (with_reducible apply State.ctrlCancel_upd; decide)
    | (with_reducible apply State.ctrlSetNext_upd; decide)
    | (with_reducible apply State.evqPop_upd; decide)
    | (with_reducible apply State.ifBit_upd; intro _)
    | (with_reducible apply State.mgtRestart_upd; decide)
    | (with_reducible apply State.notify_upd; decide)
    | (with_reducible apply State.pwrClrCnt_upd; decide)
    | (with_reducible apply Upd.set; decide)
    | (with_reducible apply State.sleepBegin_upd; decide)
    | (with_reducible apply effPipeGate_upd; decide)
    | (with_reducible apply Upd.fst; assumption)
    | simp (disch := first | decide | rfl | (apply And.intro <;> first | decide | rfl | (apply And.intro <;> rfl))) only [Upd.mk1_iff, Upd.pipe_iff, Upd.egr_iff, Upd.brg_iff, Upd.memq_iff, Upd.job_iff, Upd.fab_iff, Upd.boot_iff, Upd.mgt_iff, Upd.sec_iff, Upd.out_iff]
    | split

theorem State.pixelWrite_upd (s : State) (r : RegRow) (i : Nat) (v : Nat) (src : Src) {W P : Nat} {r_ : State} (hm : (subMask 0x1001a011101010110002d W && subMask 0x761fcb P) = true) (k_ : Upd W P r_ s) :
    Upd W P r_ (State.pixelWrite s r i v src).1 := by
  refine Upd.via (w := 0x1001a011101010110002d) (p := 0x761fcb) ?_ hm k_
  clear hm k_
  unfold State.pixelWrite
  repeat' first
    | (with_reducible exact Upd.refl _)
    | with_reducible assumption
    | (extract_lets +onlyGivenNames z; refine Upd.cutU (z := z) ?_ (fun hz => ?_); subst z; rotate_left; clear_value z; all_goals have z := trivial)
    | (extract_lets +onlyGivenNames z; refine Upd.cutU (z := z.1) ?_ (fun hz => ?_); subst z; rotate_left; clear_value z; all_goals have z := trivial)
    | (extract_lets +onlyGivenNames z; have _t : State → _ := z; clear _t; subst z; have z := trivial)
    | (extract_lets +onlyGivenNames z; have _t : _ → State := z; clear _t; subst z; have z := trivial)
    | (extract_lets +onlyGivenNames z; have _t : _ → _ → State := z; clear _t; subst z; have z := trivial)
    | (extract_lets +onlyGivenNames z; clear_value z; have z := trivial)
    | (with_reducible apply Upd.ite)
    | (with_reducible apply Upd.iteFst)
    | (with_reducible apply State.fenceTo_upd; decide; decide; intro _)
    | (with_reducible apply State.ifBit_upd; intro _)
    | (with_reducible apply State.mrgClrCnt_upd; decide)
    | (with_reducible apply State.pipeClrCnt_upd; decide)
    | (with_reducible apply State.refClrCnt_upd; decide)
    | (with_reducible apply State.rollRefused_upd; decide)
    | (with_reducible apply State.slotClear_upd; decide)
    | (with_reducible apply State.slotDone_upd; decide)
    | (with_reducible apply State.slotLoad_upd; decide)
    | (with_reducible apply State.tslClrCnt_upd; decide)
    | (with_reducible apply effCtxCancel_upd; decide)
    | (with_reducible apply effCtxGo_upd; decide)
    | (with_reducible apply effMrgCancel_upd; decide)
    | (with_reducible apply effMrgGo_upd; decide)
    | (with_reducible apply effPipeFence_upd; decide)
    | (with_reducible apply effPipeReset_upd; decide)
    | (with_reducible apply effPipeUnfence_upd; decide)
    | (with_reducible apply effProfCommit_upd; decide)
    | (with_reducible apply effRefCancel_upd; decide)
    | (with_reducible apply effRefFence_upd; decide)
    | (with_reducible apply effRefGo_upd; decide)
    | (with_reducible apply effRefReset_upd; decide)
    | (with_reducible apply effRollStart_upd; decide)
    | (with_reducible apply effRollStop_upd; decide)
    | (with_reducible apply effTslFence_upd; decide)
    | (with_reducible apply effTslReset_upd; decide)
    | (with_reducible apply Upd.fst; assumption)
    | simp (disch := first | decide | rfl | (apply And.intro <;> first | decide | rfl | (apply And.intro <;> rfl))) only [Upd.mk1_iff, Upd.frames_iff, Upd.pipe_iff, Upd.blankets_iff, Upd.ref_iff, Upd.products_iff, Upd.egr_iff, Upd.brg_iff, Upd.memq_iff, Upd.bist_iff, Upd.mgt_iff, Upd.out_iff, Upd.fresh_iff, Upd.bad_iff]
    | split

theorem State.hostWrite_upd (s : State) (r : RegRow) (i : Nat) (v : Nat) (whole : Nat) (src : Src) {W P : Nat} {r_ : State} (hm : (subMask 0x11011f0111010101110027 W && subMask 0x1cfc0f P) = true) (k_ : Upd W P r_ s) :
    Upd W P r_ (State.hostWrite s r i v whole src) := by
  refine Upd.via (w := 0x11011f0111010101110027) (p := 0x1cfc0f) ?_ hm k_
  clear hm k_
  unfold State.hostWrite
  repeat' first
    | (with_reducible exact Upd.refl _)
    | with_reducible assumption
    | (extract_lets +onlyGivenNames z; refine Upd.cutU (z := z) ?_ (fun hz => ?_); subst z; rotate_left; clear_value z; all_goals have z := trivial)
    | (extract_lets +onlyGivenNames z; refine Upd.cutU (z := z.1) ?_ (fun hz => ?_); subst z; rotate_left; clear_value z; all_goals have z := trivial)
    | (extract_lets +onlyGivenNames z; clear_value z; have z := trivial)
    | (with_reducible apply Upd.ite)
    | (with_reducible apply State.brgClrCnt_upd; decide)
    | (with_reducible apply State.consReturn_upd; decide)
    | (with_reducible apply State.egrClrCnt_upd; decide)
    | (with_reducible apply State.fabClrCnt_upd; decide)
    | (with_reducible apply State.fenceTo_upd; decide; decide; intro _)
    | (with_reducible apply State.ifBit_upd; intro _)
    | (with_reducible apply State.keepSetting_upd; decide)
    | (with_reducible apply State.memClrCnt_upd; decide)
    | (with_reducible apply State.routeCommit_upd; decide)
    | (with_reducible apply Upd.set; decide)
    | (with_reducible apply State.stoClrCnt_upd; decide)
    | (with_reducible apply State.winCommit_upd; decide)
    | (with_reducible apply State.winStage_upd; decide)
    | (with_reducible apply effBrgFence_upd; decide)
    | (with_reducible apply effBrgReset_upd; decide)
    | (with_reducible apply effClassDelaySet_upd; decide)
    | (with_reducible apply effEgrFence_upd; decide)
    | (with_reducible apply effEgrReset_upd; decide)
    | (with_reducible apply effFabFence_upd; decide)
    | (with_reducible apply effFabPortWake_upd; decide)
    | (with_reducible apply effFabReset_upd; decide)
    | (with_reducible apply effMemFence_upd; decide)
    | (with_reducible apply effMemReset_upd; decide)
    | (with_reducible apply effQpEnable_upd; decide)
    | (with_reducible apply effQpReset_upd; decide)
    | (with_reducible apply effRecGibWrite_upd; decide)
    | (with_reducible apply effStoFence_upd; decide)
    | (with_reducible apply effStoReset_upd; decide)
    | (with_reducible apply Upd.fst; assumption)
    | simp (disch := first | decide | rfl | (apply And.intro <;> first | decide | rfl | (apply And.intro <;> rfl))) only [Upd.mk1_iff, Upd.lane_iff, Upd.frames_iff, Upd.egr_iff, Upd.brg_iff, Upd.memq_iff, Upd.sto_iff, Upd.job_iff, Upd.fab_iff, Upd.mgt_iff, Upd.sec_iff, Upd.out_iff]
    | split

theorem State.regApply_upd (s : State) (a : Nat) (v : Nat) (src : Src) {W P : Nat} {r_ : State} (hm : (subMask 0xffffffffffffffffffffffffffffffff W && subMask 0x7fffff P) = true) (k_ : Upd W P r_ s) :
    Upd W P r_ (State.regApply s a v src).1 := by
  refine Upd.via (w := 0xffffffffffffffffffffffffffffffff) (p := 0x7fffff) ?_ hm k_
  clear hm k_
  unfold State.regApply
  repeat' first
    | (with_reducible exact Upd.refl _)
    | with_reducible assumption
    | (extract_lets +onlyGivenNames z; refine Upd.cutU (z := z) ?_ (fun hz => ?_); subst z; rotate_left; clear_value z; all_goals have z := trivial)
    | (extract_lets +onlyGivenNames z; refine Upd.cutU (z := z.1) ?_ (fun hz => ?_); subst z; rotate_left; clear_value z; all_goals have z := trivial)
    | (extract_lets +onlyGivenNames z; have _t : MgtS := z; clear _t; subst z; have z := trivial)
    | (extract_lets +onlyGivenNames z; clear_value z; have z := trivial)
    | (with_reducible apply Upd.ite)
    | (with_reducible apply Upd.iteFst)
    | (with_reducible apply State.ctrlWrite_upd; decide)
    | (with_reducible apply State.frontWrite_upd; decide)
    | (with_reducible apply State.hostWrite_upd; decide)
    | (with_reducible apply State.pixelWrite_upd; decide)
    | (with_reducible apply State.putFields_upd; decide)
    | (with_reducible apply Upd.fst; assumption)
    | simp (disch := first | decide | rfl | (apply And.intro <;> first | decide | rfl | (apply And.intro <;> rfl))) only [Upd.mk1_iff, Upd.lane_iff, Upd.frames_iff, Upd.ing_iff, Upd.syn_iff, Upd.pipe_iff, Upd.blankets_iff, Upd.ref_iff, Upd.products_iff, Upd.egr_iff, Upd.brg_iff, Upd.memq_iff, Upd.sto_iff, Upd.job_iff, Upd.fab_iff, Upd.boot_iff, Upd.bist_iff, Upd.mgt_iff, Upd.sec_iff, Upd.out_iff, Upd.fresh_iff, Upd.bad_iff]
    | split

theorem State.regStage_upd (s : State) (a : Nat) (v : Nat) (ini : Ini) {W P : Nat} {r_ : State} (hm : (subMask 0x100000000000000000 W && subMask 0x40000 P) = true) (k_ : Upd W P r_ s) :
    Upd W P r_ (State.regStage s a v ini) := by
  refine Upd.via (w := 0x100000000000000000) (p := 0x40000) ?_ hm k_
  clear hm k_
  unfold State.regStage
  repeat' first
    | (with_reducible exact Upd.refl _)
    | with_reducible assumption
    | (extract_lets +onlyGivenNames z; refine Upd.cutU (z := z) ?_ (fun hz => ?_); subst z; rotate_left; clear_value z; all_goals have z := trivial)
    | (extract_lets +onlyGivenNames z; refine Upd.cutU (z := z.1) ?_ (fun hz => ?_); subst z; rotate_left; clear_value z; all_goals have z := trivial)
    | (extract_lets +onlyGivenNames z; have _t : MgtS := z; clear _t; subst z; have z := trivial)
    | (extract_lets +onlyGivenNames z; clear_value z; have z := trivial)
    | (with_reducible apply Upd.ite)
    | (with_reducible apply State.winStage_upd; decide)
    | (with_reducible apply Upd.fst; assumption)
    | simp (disch := first | decide | rfl | (apply And.intro <;> first | decide | rfl | (apply And.intro <;> rfl))) only [Upd.mk1_iff, Upd.mgt_iff]
    | split

theorem effRegisterWrite_upd (a : Nat) (v : Nat) (src : Src) (s : State) {W P : Nat} {r_ : State} (hm : (subMask 0xffffffffffffffffffffffffffffffff W && subMask 0x7fffff P) = true) (k_ : Upd W P r_ s) :
    Upd W P r_ (effRegisterWrite a v src s) := by
  refine Upd.via (w := 0xffffffffffffffffffffffffffffffff) (p := 0x7fffff) ?_ hm k_
  clear hm k_
  unfold effRegisterWrite
  repeat' first
    | (with_reducible exact Upd.refl _)
    | with_reducible assumption
    | (extract_lets +onlyGivenNames z; refine Upd.cutU (z := z) ?_ (fun hz => ?_); subst z; rotate_left; clear_value z; all_goals have z := trivial)
    | (extract_lets +onlyGivenNames z; refine Upd.cutU (z := z.1) ?_ (fun hz => ?_); subst z; rotate_left; clear_value z; all_goals have z := trivial)
    | (extract_lets +onlyGivenNames z; clear_value z; have z := trivial)
    | (with_reducible apply Upd.ite)
    | (with_reducible apply State.answer_upd; decide)
    | (with_reducible apply State.regApply_upd; decide)
    | (with_reducible apply Upd.fst; assumption)
    | simp (disch := first | decide | rfl | (apply And.intro <;> first | decide | rfl | (apply And.intro <;> rfl))) only [Upd.mk1_iff, Upd.lane_iff, Upd.frames_iff, Upd.ing_iff, Upd.syn_iff, Upd.pipe_iff, Upd.blankets_iff, Upd.ref_iff, Upd.products_iff, Upd.egr_iff, Upd.brg_iff, Upd.memq_iff, Upd.sto_iff, Upd.job_iff, Upd.fab_iff, Upd.boot_iff, Upd.bist_iff, Upd.mgt_iff, Upd.sec_iff, Upd.out_iff, Upd.fresh_iff, Upd.bad_iff]
    | split

theorem State.registerWrite_upd (s : State) (a : Nat) (v : Nat) (src : Src) {W P : Nat} {r_ : State} (hm : (subMask 0xffffffffffffffffffffffffffffffff W && subMask 0x7fffff P) = true) (k_ : Upd W P r_ s) :
    Upd W P r_ (State.registerWrite s a v src) := by
  refine Upd.via (w := 0xffffffffffffffffffffffffffffffff) (p := 0x7fffff) ?_ hm k_
  clear hm k_
  unfold State.registerWrite
  repeat' first
    | (with_reducible exact Upd.refl _)
    | with_reducible assumption
    | (extract_lets +onlyGivenNames z; refine Upd.cutU (z := z) ?_ (fun hz => ?_); subst z; rotate_left; clear_value z; all_goals have z := trivial)
    | (extract_lets +onlyGivenNames z; refine Upd.cutU (z := z.1) ?_ (fun hz => ?_); subst z; rotate_left; clear_value z; all_goals have z := trivial)
    | (extract_lets +onlyGivenNames z; clear_value z; have z := trivial)
    | (with_reducible apply Upd.ite)
    | (with_reducible apply State.answer_upd; decide)
    | (with_reducible apply State.cmpStore_upd; decide)
    | (with_reducible apply State.completed_upd; decide; intro _)
    | (with_reducible apply State.layStore_upd; decide)
    | (with_reducible apply State.recorded_upd; decide; intro _)
    | (with_reducible apply State.regStage_upd; decide)
    | (with_reducible apply Upd.set; decide)
    | (with_reducible apply effRegisterWrite_upd; decide)
    | (with_reducible apply Upd.fst; assumption)
    | simp (disch := first | decide | rfl | (apply And.intro <;> first | decide | rfl | (apply And.intro <;> rfl))) only [Upd.mk1_iff, Upd.lane_iff, Upd.frames_iff, Upd.ing_iff, Upd.syn_iff, Upd.pipe_iff, Upd.blankets_iff, Upd.ref_iff, Upd.products_iff, Upd.egr_iff, Upd.brg_iff, Upd.memq_iff, Upd.sto_iff, Upd.job_iff, Upd.fab_iff, Upd.boot_iff, Upd.bist_iff, Upd.mgt_iff, Upd.sec_iff, Upd.out_iff, Upd.fresh_iff, Upd.bad_iff]
    | split

theorem execRegisterWrite_upd (a : Nat) (v : Nat) (src : Src) (s : State) {W P : Nat} (hm : (subMask 0xffffffffffffffffffffffffffffffff W && subMask 0x7fffff P) = true) :
    NextUpd W P s (execRegisterWrite a v src s) := by
  refine NextUpd.mono (w := 0xffffffffffffffffffffffffffffffff) (p := 0x7fffff) ?_ hm
  unfold execRegisterWrite
  repeat' first
    | (with_reducible exact Upd.refl _)
    | with_reducible assumption
    | (extract_lets +onlyGivenNames z; refine Upd.cutU (z := z) ?_ (fun hz => ?_); subst z; rotate_left; clear_value z; all_goals have z := trivial)
    | (extract_lets +onlyGivenNames z; refine Upd.cutU (z := z.1) ?_ (fun hz => ?_); subst z; rotate_left; clear_value z; all_goals have z := trivial)
    | (extract_lets +onlyGivenNames z; refine NextUpd.cutU (z := z) ?_ (fun hz => ?_); subst z; rotate_left; clear_value z; all_goals have z := trivial)
    | (extract_lets +onlyGivenNames z; refine NextUpd.cutU (z := z.1) ?_ (fun hz => ?_); subst z; rotate_left; clear_value z; all_goals have z := trivial)
    | (extract_lets +onlyGivenNames z; clear_value z; have z := trivial)
    | (with_reducible apply NextUpd.next)
    | (with_reducible apply NextUpd.ite)
    | (with_reducible apply Upd.ite)
    | (with_reducible apply State.registerWrite_upd; decide)
    | (with_reducible apply Upd.fst; assumption)
    | simp (disch := first | decide | rfl | (apply And.intro <;> first | decide | rfl | (apply And.intro <;> rfl))) only [Upd.mk1_iff, Upd.lane_iff, Upd.frames_iff, Upd.ing_iff, Upd.syn_iff, Upd.pipe_iff, Upd.blankets_iff, Upd.ref_iff, Upd.products_iff, Upd.egr_iff, Upd.brg_iff, Upd.memq_iff, Upd.sto_iff, Upd.job_iff, Upd.fab_iff, Upd.boot_iff, Upd.bist_iff, Upd.mgt_iff, Upd.sec_iff, Upd.out_iff, Upd.fresh_iff, Upd.bad_iff]
    | split

theorem execStickyClear_upd (a : Nat) (mask : Nat) (src : Src) (s : State) {W P : Nat} (hm : (subMask 0xffffffffffffffffffffffffffffffff W && subMask 0x7fffff P) = true) :
    NextUpd W P s (execStickyClear a mask src s) := by
  refine NextUpd.mono (w := 0xffffffffffffffffffffffffffffffff) (p := 0x7fffff) ?_ hm
  unfold execStickyClear
  repeat' first
    | (with_reducible exact Upd.refl _)
    | with_reducible assumption
    | (extract_lets +onlyGivenNames z; refine Upd.cutU (z := z) ?_ (fun hz => ?_); subst z; rotate_left; clear_value z; all_goals have z := trivial)
    | (extract_lets +onlyGivenNames z; refine Upd.cutU (z := z.1) ?_ (fun hz => ?_); subst z; rotate_left; clear_value z; all_goals have z := trivial)
    | (extract_lets +onlyGivenNames z; refine NextUpd.cutU (z := z) ?_ (fun hz => ?_); subst z; rotate_left; clear_value z; all_goals have z := trivial)
    | (extract_lets +onlyGivenNames z; refine NextUpd.cutU (z := z.1) ?_ (fun hz => ?_); subst z; rotate_left; clear_value z; all_goals have z := trivial)
    | (extract_lets +onlyGivenNames z; clear_value z; have z := trivial)
    | (with_reducible apply NextUpd.next)
    | (with_reducible apply NextUpd.ite)
    | (with_reducible apply Upd.ite)
    | (with_reducible apply State.registerWrite_upd; decide)
    | (with_reducible apply Upd.fst; assumption)
    | simp (disch := first | decide | rfl | (apply And.intro <;> first | decide | rfl | (apply And.intro <;> rfl))) only [Upd.mk1_iff, Upd.lane_iff, Upd.frames_iff, Upd.ing_iff, Upd.syn_iff, Upd.pipe_iff, Upd.blankets_iff, Upd.ref_iff, Upd.products_iff, Upd.egr_iff, Upd.brg_iff, Upd.memq_iff, Upd.sto_iff, Upd.job_iff, Upd.fab_iff, Upd.boot_iff, Upd.bist_iff, Upd.mgt_iff, Upd.sec_iff, Upd.out_iff, Upd.fresh_iff, Upd.bad_iff]
    | split

theorem execLoReadLatch_upd (a : Nat) (src : Src) (s : State) {W P : Nat} (hm : (subMask 0x100001000000000001 W && subMask 0x140c03 P) = true) :
    NextUpd W P s (execLoReadLatch a src s) := by
  refine NextUpd.mono (w := 0x100001000000000001) (p := 0x140c03) ?_ hm
  unfold execLoReadLatch
  repeat' first
    | (with_reducible exact Upd.refl _)
    | with_reducible assumption
    | (extract_lets +onlyGivenNames z; refine Upd.cutU (z := z) ?_ (fun hz => ?_); subst z; rotate_left; clear_value z; all_goals have z := trivial)
    | (extract_lets +onlyGivenNames z; refine Upd.cutU (z := z.1) ?_ (fun hz => ?_); subst z; rotate_left; clear_value z; all_goals have z := trivial)
    | (extract_lets +onlyGivenNames z; refine NextUpd.cutU (z := z) ?_ (fun hz => ?_); subst z; rotate_left; clear_value z; all_goals have z := trivial)
    | (extract_lets +onlyGivenNames z; refine NextUpd.cutU (z := z.1) ?_ (fun hz => ?_); subst z; rotate_left; clear_value z; all_goals have z := trivial)
    | (extract_lets +onlyGivenNames z; clear_value z; have z := trivial)
    | (with_reducible apply NextUpd.next)
    | (with_reducible apply NextUpd.ite)
    | (with_reducible apply Upd.ite)
    | (with_reducible apply State.answer_upd; decide)
    | (with_reducible apply State.emit_upd; decide)
    | (with_reducible apply State.regRead_upd; decide)
    | (with_reducible apply Upd.fst; assumption)
    | simp (disch := first | decide | rfl | (apply And.intro <;> first | decide | rfl | (apply And.intro <;> rfl))) only [Upd.mk1_iff, Upd.egr_iff, Upd.brg_iff, Upd.mgt_iff, Upd.out_iff]
    | split

theorem execHiWriteApply_upd (a : Nat) (v : Nat) (src : Src) (s : State) {W P : Nat} (hm : (subMask 0xffffffffffffffffffffffffffffffff W && subMask 0x7fffff P) = true) :
    NextUpd W P s (execHiWriteApply a v src s) := by
  refine NextUpd.mono (w := 0xffffffffffffffffffffffffffffffff) (p := 0x7fffff) ?_ hm
  unfold execHiWriteApply
  repeat' first
    | (with_reducible exact Upd.refl _)
    | with_reducible assumption
    | (extract_lets +onlyGivenNames z; refine Upd.cutU (z := z) ?_ (fun hz => ?_); subst z; rotate_left; clear_value z; all_goals have z := trivial)
    | (extract_lets +onlyGivenNames z; refine Upd.cutU (z := z.1) ?_ (fun hz => ?_); subst z; rotate_left; clear_value z; all_goals have z := trivial)
    | (extract_lets +onlyGivenNames z; refine NextUpd.cutU (z := z) ?_ (fun hz => ?_); subst z; rotate_left; clear_value z; all_goals have z := trivial)
    | (extract_lets +onlyGivenNames z; refine NextUpd.cutU (z := z.1) ?_ (fun hz => ?_); subst z; rotate_left; clear_value z; all_goals have z := trivial)
    | (extract_lets +onlyGivenNames z; clear_value z; have z := trivial)
    | (with_reducible apply NextUpd.next)
    | (with_reducible apply NextUpd.ite)
    | (with_reducible apply Upd.ite)
    | (with_reducible apply State.registerWrite_upd; decide)
    | (with_reducible apply Upd.fst; assumption)
    | simp (disch := first | decide | rfl | (apply And.intro <;> first | decide | rfl | (apply And.intro <;> rfl))) only [Upd.mk1_iff, Upd.lane_iff, Upd.frames_iff, Upd.ing_iff, Upd.syn_iff, Upd.pipe_iff, Upd.blankets_iff, Upd.ref_iff, Upd.products_iff, Upd.egr_iff, Upd.brg_iff, Upd.memq_iff, Upd.sto_iff, Upd.job_iff, Upd.fab_iff, Upd.boot_iff, Upd.bist_iff, Upd.mgt_iff, Upd.sec_iff, Upd.out_iff, Upd.fresh_iff, Upd.bad_iff]
    | split

theorem execBlockResetDone_upd (u : Nat) (s : State) {W P : Nat} (hm : (subMask 0x100000004 W && subMask 0x0 P) = true) :
    NextUpd W P s (execBlockResetDone u s) := by
  refine NextUpd.mono (w := 0x100000004) (p := 0x0) ?_ hm
  unfold execBlockResetDone
  repeat' first
    | (with_reducible exact Upd.refl _)
    | with_reducible assumption
    | (extract_lets +onlyGivenNames z; refine Upd.cutU (z := z) ?_ (fun hz => ?_); subst z; rotate_left; clear_value z; all_goals have z := trivial)
    | (extract_lets +onlyGivenNames z; refine Upd.cutU (z := z.1) ?_ (fun hz => ?_); subst z; rotate_left; clear_value z; all_goals have z := trivial)
    | (extract_lets +onlyGivenNames z; refine NextUpd.cutU (z := z) ?_ (fun hz => ?_); subst z; rotate_left; clear_value z; all_goals have z := trivial)
    | (extract_lets +onlyGivenNames z; refine NextUpd.cutU (z := z.1) ?_ (fun hz => ?_); subst z; rotate_left; clear_value z; all_goals have z := trivial)
    | (extract_lets +onlyGivenNames z; clear_value z; have z := trivial)
    | (with_reducible apply NextUpd.next)
    | (with_reducible apply NextUpd.ite)
    | (with_reducible apply Upd.ite)
    | (with_reducible apply State.pipeResetDone_upd; decide)
    | (with_reducible apply Upd.set; decide)
    | (with_reducible apply Upd.fst; assumption)
    | simp (disch := decide) only [Upd.mk1_iff]
    | split

end Sys2Proof.Machine
end

