-- ==== Sys2Proof/Laws/UpdBridge.lean ====
section
/-! SUPPORT. What each operation of Machine/Bridge.lean may change (see Laws/Upd.lean). -/

set_option linter.unusedSimpArgs false
set_option linter.tactic.unusedName false

namespace Sys2Proof.Machine

theorem State.received_upd (s : State) (q : Nat) {W P : Nat} {r_ : State} (hm : (subMask 0x100000000000000000 W && subMask 0x400 P) = true) (k_ : Upd W P r_ s) :
    Upd W P r_ (State.received s q) := by
  refine Upd.via (w := 0x100000000000000000) (p := 0x400) ?_ hm k_
  clear hm k_
  unfold State.received
  repeat' first
    | (with_reducible exact Upd.refl _)
    | with_reducible assumption
    | (extract_lets +onlyGivenNames z; refine Upd.cutU (z := z) ?_ (fun hz => ?_); subst z; rotate_left; clear_value z; all_goals have z := trivial)
    | (extract_lets +onlyGivenNames z; refine Upd.cutU (z := z.1) ?_ (fun hz => ?_); subst z; rotate_left; clear_value z; all_goals have z := trivial)
    | (extract_lets +onlyGivenNames z; clear_value z; have z := trivial)
    | (with_reducible apply Upd.ite)
    | (with_reducible apply Upd.bump; decide)
    | (with_reducible apply State.sendAck_upd; decide)
    | (with_reducible apply Upd.fst; assumption)
    | simp (disch := decide) only [Upd.mk1_iff, Upd.egr_iff]
    | split

theorem State.badMessage_upd (s : State) (q : Nat) {W P : Nat} {r_ : State} (hm : (subMask 0x100000000000000001 W && subMask 0x100002 P) = true) (k_ : Upd W P r_ s) :
    Upd W P r_ (State.badMessage s q) := by
  refine Upd.via (w := 0x100000000000000001) (p := 0x100002) ?_ hm k_
  clear hm k_
  unfold State.badMessage
  repeat' first
    | (with_reducible exact Upd.refl _)
    | with_reducible assumption
    | (extract_lets +onlyGivenNames z; refine Upd.cutU (z := z) ?_ (fun hz => ?_); subst z; rotate_left; clear_value z; all_goals have z := trivial)
    | (extract_lets +onlyGivenNames z; refine Upd.cutU (z := z.1) ?_ (fun hz => ?_); subst z; rotate_left; clear_value z; all_goals have z := trivial)
    | (extract_lets +onlyGivenNames z; clear_value z; have z := trivial)
    | (with_reducible apply Upd.ite)
    | (with_reducible apply State.brgEvent_upd; decide)
    | (with_reducible apply Upd.inc; decide)
    | (with_reducible apply Upd.fst; assumption)
    | simp (disch := decide) only [Upd.mk1_iff, Upd.out_iff]
    | split

theorem State.completeMsg_upd (s : State) (q : Nat) {W P : Nat} {r_ : State} (hm : (subMask 0x100000000000000000 W && subMask 0x400 P) = true) (k_ : Upd W P r_ s) :
    Upd W P r_ (State.completeMsg s q) := by
  refine Upd.via (w := 0x100000000000000000) (p := 0x400) ?_ hm k_
  clear hm k_
  unfold State.completeMsg
  repeat' first
    | (with_reducible exact Upd.refl _)
    | with_reducible assumption
    | (extract_lets +onlyGivenNames z; refine Upd.cutU (z := z) ?_ (fun hz => ?_); subst z; rotate_left; clear_value z; all_goals have z := trivial)
    | (extract_lets +onlyGivenNames z; refine Upd.cutU (z := z.1) ?_ (fun hz => ?_); subst z; rotate_left; clear_value z; all_goals have z := trivial)
    | (extract_lets +onlyGivenNames z; clear_value z; have z := trivial)
    | (with_reducible apply Upd.ite)
    | (with_reducible apply State.received_upd; decide)
    | (with_reducible apply Upd.fst; assumption)
    | simp (disch := decide) only [Upd.mk1_iff, Upd.egr_iff]
    | split

theorem State.sendPacket_upd {w p : Nat} {r s : State} {q : Nat} {pos : SendPos} {data : List Nat} {ce : Bool}
    {mine : List Nat → Bool} {act : State → List Nat → State}
    (hm : (subMask 0x110000000000000001 w && subMask 0x100402 p) = true) (ha : ∀ s x, Upd w p s (act s x)) (h : Upd w p r s) :
    Upd w p r (s.sendPacket q pos data ce mine act) := by
  have hm' := Bool.and_eq_true_iff.mp hm
  have hw : ∀ k, (0x110000000000000001 : Nat).testBit k = true → w.testBit k = true := fun _ e => testBit_of_subMask hm'.1 e
  have hp : p.testBit 10 = true := testBit_of_subMask hm'.2 (by decide)
  have hc : Upd w p r (s.countCe q ce) :=
    State.countCe_upd _ _ _ (by rw [subMask_trans (by decide) hm'.1, subMask_trans (by decide) hm'.2]; rfl) h
  have hb : ∀ t, Upd w p r t → Upd w p r (t.badMessage q) := fun t ht =>
    State.badMessage_upd _ _ (by rw [subMask_trans (by decide) hm'.1, subMask_trans (by decide) hm'.2]; rfl) ht
  have hr : ∀ t, Upd w p r t → Upd w p r (t.received q) := fun t ht =>
    State.received_upd _ _ (by rw [subMask_trans (by decide) hm'.1, subMask_trans (by decide) hm'.2]; rfl) ht
  unfold State.sendPacket
  have hd : ∀ t, Upd w p r t → Upd w p r ({ t with egr := { t.egr with parts := tabErase t.egr.parts q } } : State) := fun t ht => Upd.egr_ hp ht
  have hk : ∀ t l, Upd w p r t → Upd w p r ({ t with egr := { t.egr with parts := tabPut t.egr.parts q l } } : State) := fun t l ht => Upd.egr_ hp ht
  have hq : ∀ t, Upd w p r t → Upd w p r (t.completeMsg q) := fun t ht => by
    unfold State.completeMsg; exact hr _ (hd _ ht)
  split
  · exact h
  · extract_lets keep sofar s1
    have h1 : Upd w p r s1 := hc
    have hk' : ∀ t l, Upd w p r t → Upd w p r (keep t l) := hk
    have hd1 := hd _ h1
    clear_value s1 keep sofar
    split
    · exact Upd.inc (hw _ (by decide)) h1
    · split
      · exact hb _ (hd _ h1)
      · cases pos <;> cases sofar <;> dsimp only <;> try split
        all_goals first
          | exact h1
          | exact hk' _ _ h1
          | exact (hq _ h1).trans (ha _ _)

theorem State.credit_upd (s : State) (m : List Nat) {W P : Nat} {r_ : State} (hm : (subMask 0x20000000000000001 W && subMask 0x100002 P) = true) (k_ : Upd W P r_ s) :
    Upd W P r_ (State.credit s m) := by
  refine Upd.via (w := 0x20000000000000001) (p := 0x100002) ?_ hm k_
  clear hm k_
  unfold State.credit
  repeat' first
    | (with_reducible exact Upd.refl _)
    | with_reducible assumption
    | (extract_lets +onlyGivenNames z; refine Upd.cutU (z := z) ?_ (fun hz => ?_); subst z; rotate_left; clear_value z; all_goals have z := trivial)
    | (extract_lets +onlyGivenNames z; refine Upd.cutU (z := z.1) ?_ (fun hz => ?_); subst z; rotate_left; clear_value z; all_goals have z := trivial)
    | (extract_lets +onlyGivenNames z; clear_value z; have z := trivial)
    | (with_reducible apply Upd.ite)
    | (with_reducible apply State.consReturn_upd; decide)
    | (with_reducible apply Upd.fst; assumption)
    | simp (disch := decide) only [Upd.mk1_iff, Upd.out_iff]
    | split

theorem State.creditIn_upd (q : Nat) (s : State) (data : List Nat) {W P : Nat} {r_ : State} (hm : (subMask 0x120000000000000001 W && subMask 0x100002 P) = true) (k_ : Upd W P r_ s) :
    Upd W P r_ (State.creditIn q s data) := by
  refine Upd.via (w := 0x120000000000000001) (p := 0x100002) ?_ hm k_
  clear hm k_
  unfold State.creditIn
  repeat' first
    | (with_reducible apply Upd.foldl; intro _ _)
    | (with_reducible apply Upd.foldlFst; intro _ _)
    | (with_reducible exact Upd.refl _)
    | with_reducible assumption
    | (extract_lets +onlyGivenNames z; refine Upd.cutU (z := z) ?_ (fun hz => ?_); subst z; rotate_left; clear_value z; all_goals have z := trivial)
    | (extract_lets +onlyGivenNames z; refine Upd.cutU (z := z.1) ?_ (fun hz => ?_); subst z; rotate_left; clear_value z; all_goals have z := trivial)
    | (extract_lets +onlyGivenNames z; clear_value z; have z := trivial)
    | (with_reducible apply Upd.ite)
    | (with_reducible apply State.badMessage_upd; decide)
    | (with_reducible apply State.credit_upd; decide)
    | (with_reducible apply Upd.fst; assumption)
    | simp (disch := decide) only [Upd.mk1_iff, Upd.out_iff]
    | split

theorem execCreditBlock_upd (q : Nat) (snd : SendIn) (s : State) {W P : Nat} (hm : (subMask 0x130000000000000001 W && subMask 0x100402 P) = true) :
    NextUpd W P s (execCreditBlock q snd s) := by
  refine NextUpd.mono (w := 0x130000000000000001) (p := 0x100402) ?_ hm
  unfold execCreditBlock
  repeat' first
    | (with_reducible exact Upd.refl _)
    | with_reducible assumption
    | (extract_lets +onlyGivenNames z; refine Upd.cutU (z := z) ?_ (fun hz => ?_); subst z; rotate_left; clear_value z; all_goals have z := trivial)
    | (extract_lets +onlyGivenNames z; refine Upd.cutU (z := z.1) ?_ (fun hz => ?_); subst z; rotate_left; clear_value z; all_goals have z := trivial)
    | (extract_lets +onlyGivenNames z; refine NextUpd.cutU (z := z) ?_ (fun hz => ?_); subst z; rotate_left; clear_value z; all_goals have z := trivial)
    | (extract_lets +onlyGivenNames z; refine NextUpd.cutU (z := z.1) ?_ (fun hz => ?_); subst z; rotate_left; clear_value z; all_goals have z := trivial)
    | (extract_lets +onlyGivenNames z; clear_value z; have z := trivial)
    | (with_reducible apply NextUpd.next)
    | (with_reducible apply NextUpd.ite)
    | (with_reducible apply Upd.ite)
    | (with_reducible apply State.creditIn_upd; decide)
    | (with_reducible apply State.sendPacket_upd; decide; intro _ _)
    | (with_reducible apply Upd.fst; assumption)
    | simp (disch := decide) only [Upd.mk1_iff, Upd.egr_iff, Upd.out_iff]
    | split

theorem execBadMessage_upd (q : Nat) (snd : SendIn) (s : State) {W P : Nat} (hm : (subMask 0x110000000000000001 W && subMask 0x100402 P) = true) :
    NextUpd W P s (execBadMessage q snd s) := by
  refine NextUpd.mono (w := 0x110000000000000001) (p := 0x100402) ?_ hm
  unfold execBadMessage
  repeat' first
    | (with_reducible exact Upd.refl _)
    | with_reducible assumption
    | (extract_lets +onlyGivenNames z; refine Upd.cutU (z := z) ?_ (fun hz => ?_); subst z; rotate_left; clear_value z; all_goals have z := trivial)
    | (extract_lets +onlyGivenNames z; refine Upd.cutU (z := z.1) ?_ (fun hz => ?_); subst z; rotate_left; clear_value z; all_goals have z := trivial)
    | (extract_lets +onlyGivenNames z; refine NextUpd.cutU (z := z) ?_ (fun hz => ?_); subst z; rotate_left; clear_value z; all_goals have z := trivial)
    | (extract_lets +onlyGivenNames z; refine NextUpd.cutU (z := z.1) ?_ (fun hz => ?_); subst z; rotate_left; clear_value z; all_goals have z := trivial)
    | (extract_lets +onlyGivenNames z; clear_value z; have z := trivial)
    | (with_reducible apply NextUpd.next)
    | (with_reducible apply NextUpd.ite)
    | (with_reducible apply Upd.ite)
    | (with_reducible apply State.badMessage_upd; decide)
    | (with_reducible apply State.sendPacket_upd; decide; intro _ _)
    | (with_reducible apply Upd.fst; assumption)
    | simp (disch := decide) only [Upd.mk1_iff, Upd.egr_iff, Upd.out_iff]
    | split

theorem State.acceptCounter_upd (s : State) (m : List Nat) {W P : Nat} {r_ : State} (hm : (subMask 0x0 W && subMask 0x80000 P) = true) (k_ : Upd W P r_ s) :
    Upd W P r_ (State.acceptCounter s m) := by
  refine Upd.via (w := 0x0) (p := 0x80000) ?_ hm k_
  clear hm k_
  unfold State.acceptCounter
  repeat' first
    | (with_reducible exact Upd.refl _)
    | with_reducible assumption
    | (extract_lets +onlyGivenNames z; refine Upd.cutU (z := z) ?_ (fun hz => ?_); subst z; rotate_left; clear_value z; all_goals have z := trivial)
    | (extract_lets +onlyGivenNames z; refine Upd.cutU (z := z.1) ?_ (fun hz => ?_); subst z; rotate_left; clear_value z; all_goals have z := trivial)
    | (extract_lets +onlyGivenNames z; have _t : State → _ := z; clear _t; subst z; have z := trivial)
    | (extract_lets +onlyGivenNames z; have _t : _ → State := z; clear _t; subst z; have z := trivial)
    | (extract_lets +onlyGivenNames z; have _t : _ → _ → State := z; clear _t; subst z; have z := trivial)
    | (extract_lets +onlyGivenNames z; have _t : SecS := z; clear _t; subst z; have z := trivial)
    | (extract_lets +onlyGivenNames z; clear_value z; have z := trivial)
    | (with_reducible apply Upd.ite)
    | (with_reducible apply Upd.fst; assumption)
    | simp (disch := first | decide | rfl | (apply And.intro <;> first | decide | rfl | (apply And.intro <;> rfl))) only [Upd.mk1_iff, Upd.sec_iff]
    | split

theorem State.authFail_upd (s : State) (q : Nat) (m : List Nat) {W P : Nat} {r_ : State} (hm : (subMask 0x100000000000000001 W && subMask 0x100002 P) = true) (k_ : Upd W P r_ s) :
    Upd W P r_ (State.authFail s q m) := by
  refine Upd.via (w := 0x100000000000000001) (p := 0x100002) ?_ hm k_
  clear hm k_
  unfold State.authFail
  repeat' first
    | (with_reducible exact Upd.refl _)
    | with_reducible assumption
    | (extract_lets +onlyGivenNames z; refine Upd.cutU (z := z) ?_ (fun hz => ?_); subst z; rotate_left; clear_value z; all_goals have z := trivial)
    | (extract_lets +onlyGivenNames z; refine Upd.cutU (z := z.1) ?_ (fun hz => ?_); subst z; rotate_left; clear_value z; all_goals have z := trivial)
    | (extract_lets +onlyGivenNames z; clear_value z; have z := trivial)
    | (with_reducible apply Upd.ite)
    | (with_reducible apply State.brgEvent_upd; decide)
    | (with_reducible apply Upd.inc; decide)
    | (with_reducible apply Upd.fst; assumption)
    | simp (disch := decide) only [Upd.mk1_iff, Upd.out_iff]
    | split

theorem State.accessIn_upd (q : Nat) (s : State) (data : List Nat) {W P : Nat} {r_ : State} (hm : (subMask 0x100000000000100001 W && subMask 0x180c02 P) = true) (k_ : Upd W P r_ s) :
    Upd W P r_ (State.accessIn q s data) := by
  refine Upd.via (w := 0x100000000000100001) (p := 0x180c02) ?_ hm k_
  clear hm k_
  unfold State.accessIn
  repeat' first
    | (with_reducible exact Upd.refl _)
    | with_reducible assumption
    | (extract_lets +onlyGivenNames z; refine Upd.cutU (z := z) ?_ (fun hz => ?_); subst z; rotate_left; clear_value z; all_goals have z := trivial)
    | (extract_lets +onlyGivenNames z; refine Upd.cutU (z := z.1) ?_ (fun hz => ?_); subst z; rotate_left; clear_value z; all_goals have z := trivial)
    | (extract_lets +onlyGivenNames z; clear_value z; have z := trivial)
    | (with_reducible apply Upd.ite)
    | (with_reducible apply State.acceptCounter_upd; decide)
    | (with_reducible apply State.authFail_upd; decide)
    | (with_reducible apply State.badMessage_upd; decide)
    | (with_reducible apply State.brgReply_upd; decide)
    | (with_reducible apply State.brgStart_upd; decide)
    | (with_reducible apply State.discard_upd; decide)
    | (with_reducible apply Upd.fst; assumption)
    | simp (disch := first | decide | rfl | (apply And.intro <;> first | decide | rfl | (apply And.intro <;> rfl))) only [Upd.mk1_iff, Upd.egr_iff, Upd.brg_iff, Upd.sec_iff, Upd.out_iff]
    | split

theorem execAccessRequest_upd (q : Nat) (snd : SendIn) (s : State) {W P : Nat} (hm : (subMask 0x110000000000100001 W && subMask 0x180c02 P) = true) :
    NextUpd W P s (execAccessRequest q snd s) := by
  refine NextUpd.mono (w := 0x110000000000100001) (p := 0x180c02) ?_ hm
  unfold execAccessRequest
  repeat' first
    | (with_reducible exact Upd.refl _)
    | with_reducible assumption
    | (extract_lets +onlyGivenNames z; refine Upd.cutU (z := z) ?_ (fun hz => ?_); subst z; rotate_left; clear_value z; all_goals have z := trivial)
    | (extract_lets +onlyGivenNames z; refine Upd.cutU (z := z.1) ?_ (fun hz => ?_); subst z; rotate_left; clear_value z; all_goals have z := trivial)
    | (extract_lets +onlyGivenNames z; refine NextUpd.cutU (z := z) ?_ (fun hz => ?_); subst z; rotate_left; clear_value z; all_goals have z := trivial)
    | (extract_lets +onlyGivenNames z; refine NextUpd.cutU (z := z.1) ?_ (fun hz => ?_); subst z; rotate_left; clear_value z; all_goals have z := trivial)
    | (extract_lets +onlyGivenNames z; clear_value z; have z := trivial)
    | (with_reducible apply NextUpd.next)
    | (with_reducible apply NextUpd.ite)
    | (with_reducible apply Upd.ite)
    | (with_reducible apply State.accessIn_upd; decide)
    | (with_reducible apply State.sendPacket_upd; decide; intro _ _)
    | (with_reducible apply Upd.fst; assumption)
    | simp (disch := first | decide | rfl | (apply And.intro <;> first | decide | rfl | (apply And.intro <;> rfl))) only [Upd.mk1_iff, Upd.egr_iff, Upd.brg_iff, Upd.sec_iff, Upd.out_iff]
    | split

theorem State.cmdRefuse_upd (s : State) (q : Nat) (m : List Nat) (st : Status) {W P : Nat} {r_ : State} (hm : (subMask 0x0 W && subMask 0x400 P) = true) (k_ : Upd W P r_ s) :
    Upd W P r_ (State.cmdRefuse s q m st) := by
  refine Upd.via (w := 0x0) (p := 0x400) ?_ hm k_
  clear hm k_
  unfold State.cmdRefuse
  repeat' first
    | (with_reducible exact Upd.refl _)
    | with_reducible assumption
    | (extract_lets +onlyGivenNames z; refine Upd.cutU (z := z) ?_ (fun hz => ?_); subst z; rotate_left; clear_value z; all_goals have z := trivial)
    | (extract_lets +onlyGivenNames z; refine Upd.cutU (z := z.1) ?_ (fun hz => ?_); subst z; rotate_left; clear_value z; all_goals have z := trivial)
    | (extract_lets +onlyGivenNames z; clear_value z; have z := trivial)
    | (with_reducible apply Upd.ite)
    | (with_reducible apply State.sendCtl_upd; decide)
    | (with_reducible apply Upd.fst; assumption)
    | simp (disch := decide) only [Upd.mk1_iff, Upd.egr_iff]
    | split

theorem State.commandIn_upd (q : Nat) (s : State) (data : List Nat) {W P : Nat} {r_ : State} (hm : (subMask 0x100000000000100001 W && subMask 0x180c02 P) = true) (k_ : Upd W P r_ s) :
    Upd W P r_ (State.commandIn q s data) := by
  refine Upd.via (w := 0x100000000000100001) (p := 0x180c02) ?_ hm k_
  clear hm k_
  unfold State.commandIn
  repeat' first
    | (with_reducible exact Upd.refl _)
    | with_reducible assumption
    | (extract_lets +onlyGivenNames z; refine Upd.cutU (z := z) ?_ (fun hz => ?_); subst z; rotate_left; clear_value z; all_goals have z := trivial)
    | (extract_lets +onlyGivenNames z; refine Upd.cutU (z := z.1) ?_ (fun hz => ?_); subst z; rotate_left; clear_value z; all_goals have z := trivial)
    | (extract_lets +onlyGivenNames z; clear_value z; have z := trivial)
    | (with_reducible apply Upd.ite)
    | (with_reducible apply State.acceptCounter_upd; decide)
    | (with_reducible apply State.authFail_upd; decide)
    | (with_reducible apply State.badMessage_upd; decide)
    | (with_reducible apply State.cmdRefuse_upd; decide)
    | (with_reducible apply State.discard_upd; decide)
    | (with_reducible apply Upd.fst; assumption)
    | simp (disch := first | decide | rfl | (apply And.intro <;> first | decide | rfl | (apply And.intro <;> rfl))) only [Upd.mk1_iff, Upd.egr_iff, Upd.brg_iff, Upd.sec_iff, Upd.out_iff]
    | split

theorem execCommandMessage_upd (q : Nat) (snd : SendIn) (s : State) {W P : Nat} (hm : (subMask 0x110000000000100001 W && subMask 0x180c02 P) = true) :
    NextUpd W P s (execCommandMessage q snd s) := by
  refine NextUpd.mono (w := 0x110000000000100001) (p := 0x180c02) ?_ hm
  unfold execCommandMessage
  repeat' first
    | (with_reducible exact Upd.refl _)
    | with_reducible assumption
    | (extract_lets +onlyGivenNames z; refine Upd.cutU (z := z) ?_ (fun hz => ?_); subst z; rotate_left; clear_value z; all_goals have z := trivial)
    | (extract_lets +onlyGivenNames z; refine Upd.cutU (z := z.1) ?_ (fun hz => ?_); subst z; rotate_left; clear_value z; all_goals have z := trivial)
    | (extract_lets +onlyGivenNames z; refine NextUpd.cutU (z := z) ?_ (fun hz => ?_); subst z; rotate_left; clear_value z; all_goals have z := trivial)
    | (extract_lets +onlyGivenNames z; refine NextUpd.cutU (z := z.1) ?_ (fun hz => ?_); subst z; rotate_left; clear_value z; all_goals have z := trivial)
    | (extract_lets +onlyGivenNames z; clear_value z; have z := trivial)
    | (with_reducible apply NextUpd.next)
    | (with_reducible apply NextUpd.ite)
    | (with_reducible apply Upd.ite)
    | (with_reducible apply State.commandIn_upd; decide)
    | (with_reducible apply State.sendPacket_upd; decide; intro _ _)
    | (with_reducible apply Upd.fst; assumption)
    | simp (disch := first | decide | rfl | (apply And.intro <;> first | decide | rfl | (apply And.intro <;> rfl))) only [Upd.mk1_iff, Upd.egr_iff, Upd.brg_iff, Upd.sec_iff, Upd.out_iff]
    | split

theorem State.writtenOver_upd (s : State) (addr : Nat) (len : Nat) {W P : Nat} {r_ : State} (hm : (subMask 0x100000000000000001 W && subMask 0x100802 P) = true) (k_ : Upd W P r_ s) :
    Upd W P r_ (State.writtenOver s addr len) := by
  refine Upd.via (w := 0x100000000000000001) (p := 0x100802) ?_ hm k_
  clear hm k_
  unfold State.writtenOver
  repeat' first
    | (with_reducible exact Upd.refl _)
    | with_reducible assumption
    | (extract_lets +onlyGivenNames z; refine Upd.cutU (z := z) ?_ (fun hz => ?_); subst z; rotate_left; clear_value z; all_goals have z := trivial)
    | (extract_lets +onlyGivenNames z; refine Upd.cutU (z := z.1) ?_ (fun hz => ?_); subst z; rotate_left; clear_value z; all_goals have z := trivial)
    | (extract_lets +onlyGivenNames z; clear_value z; have z := trivial)
    | (with_reducible apply Upd.ite)
    | (with_reducible apply State.dropAheadIf_upd; decide)
    | (with_reducible apply Upd.fst; assumption)
    | simp (disch := decide) only [Upd.mk1_iff, Upd.brg_iff, Upd.out_iff]
    | split

theorem State.targetWrite_upd (s : State) (addr : Nat) (data : List Nat) (src : Src) {W P : Nat} {r_ : State} (hm : (subMask 0xffffffffffffffffffffffffffffffff W && subMask 0x7fffff P) = true) (k_ : Upd W P r_ s) :
    Upd W P r_ (State.targetWrite s addr data src).1 := by
  refine Upd.via (w := 0xffffffffffffffffffffffffffffffff) (p := 0x7fffff) ?_ hm k_
  clear hm k_
  unfold State.targetWrite
  repeat' first
    | (with_reducible exact Upd.refl _)
    | with_reducible assumption
    | (extract_lets +onlyGivenNames z; refine Upd.cutU (z := z) ?_ (fun hz => ?_); subst z; rotate_left; clear_value z; all_goals have z := trivial)
    | (extract_lets +onlyGivenNames z; refine Upd.cutU (z := z.1) ?_ (fun hz => ?_); subst z; rotate_left; clear_value z; all_goals have z := trivial)
    | (extract_lets +onlyGivenNames z; clear_value z; have z := trivial)
    | (with_reducible apply Upd.ite)
    | (with_reducible apply Upd.iteFst)
    | (with_reducible apply State.ctxStore_upd; decide)
    | (with_reducible apply State.memAccess_upd; decide)
    | (with_reducible apply State.registerWrite_upd; decide)
    | (with_reducible apply Upd.fst; assumption)
    | simp (disch := first | decide | rfl | (apply And.intro <;> first | decide | rfl | (apply And.intro <;> rfl))) only [Upd.mk1_iff, Upd.lane_iff, Upd.frames_iff, Upd.ing_iff, Upd.syn_iff, Upd.pipe_iff, Upd.blankets_iff, Upd.ref_iff, Upd.products_iff, Upd.egr_iff, Upd.brg_iff, Upd.memq_iff, Upd.sto_iff, Upd.job_iff, Upd.fab_iff, Upd.boot_iff, Upd.bist_iff, Upd.mgt_iff, Upd.sec_iff, Upd.out_iff, Upd.fresh_iff, Upd.bad_iff]
    | split

theorem State.targetRead_upd (s : State) (addr : Nat) (n : Nat) (src : Src) (err : MemErr) {W P : Nat} {r_ : State} (hm : (subMask 0x100000001000000000001 W && subMask 0x540003 P) = true) (k_ : Upd W P r_ s) :
    Upd W P r_ (State.targetRead s addr n src err).1 := by
  refine Upd.via (w := 0x100000001000000000001) (p := 0x540003) ?_ hm k_
  clear hm k_
  unfold State.targetRead
  repeat' first
    | (with_reducible exact Upd.refl _)
    | with_reducible assumption
    | (extract_lets +onlyGivenNames z; refine Upd.cutU (z := z) ?_ (fun hz => ?_); subst z; rotate_left; clear_value z; all_goals have z := trivial)
    | (extract_lets +onlyGivenNames z; refine Upd.cutU (z := z.1) ?_ (fun hz => ?_); subst z; rotate_left; clear_value z; all_goals have z := trivial)
    | (extract_lets +onlyGivenNames z; clear_value z; have z := trivial)
    | (with_reducible apply Upd.ite)
    | (with_reducible apply Upd.iteFst)
    | (with_reducible apply State.memAccess_upd; decide)
    | (with_reducible apply State.regRead_upd; decide)
    | (with_reducible apply Upd.fst; assumption)
    | simp (disch := first | decide | rfl | (apply And.intro <;> first | decide | rfl | (apply And.intro <;> rfl))) only [Upd.mk1_iff, Upd.mgt_iff, Upd.out_iff, Upd.bad_iff]
    | split

theorem State.markMade_upd (s : State) (k : Nat) (addr : Nat) {W P : Nat} {r_ : State} (hm : (subMask 0x0 W && subMask 0x800 P) = true) (k_ : Upd W P r_ s) :
    Upd W P r_ (State.markMade s k addr) := by
  refine Upd.via (w := 0x0) (p := 0x800) ?_ hm k_
  clear hm k_
  unfold State.markMade
  repeat' first
    | (with_reducible exact Upd.refl _)
    | with_reducible assumption
    | (extract_lets +onlyGivenNames z; refine Upd.cutU (z := z) ?_ (fun hz => ?_); subst z; rotate_left; clear_value z; all_goals have z := trivial)
    | (extract_lets +onlyGivenNames z; refine Upd.cutU (z := z.1) ?_ (fun hz => ?_); subst z; rotate_left; clear_value z; all_goals have z := trivial)
    | (extract_lets +onlyGivenNames z; have _t : State → _ := z; clear _t; subst z; have z := trivial)
    | (extract_lets +onlyGivenNames z; have _t : _ → State := z; clear _t; subst z; have z := trivial)
    | (extract_lets +onlyGivenNames z; have _t : _ → _ → State := z; clear _t; subst z; have z := trivial)
    | (extract_lets +onlyGivenNames z; clear_value z; have z := trivial)
    | (with_reducible apply Upd.ite)
    | (with_reducible apply Upd.fst; assumption)
    | simp (disch := decide) only [Upd.mk1_iff, Upd.brg_iff]
    | split

theorem State.pieceAt_upd (s : State) (k : Nat) (r : BrgReq) (p : Piece) (err : MemErr) {W P : Nat} {r_ : State} (hm : (subMask 0xffffffffffffffffffffffffffffffff W && subMask 0x7fffff P) = true) (k_ : Upd W P r_ s) :
    Upd W P r_ (State.pieceAt s k r p err) := by
  refine Upd.via (w := 0xffffffffffffffffffffffffffffffff) (p := 0x7fffff) ?_ hm k_
  clear hm k_
  unfold State.pieceAt
  repeat' first
    | (with_reducible exact Upd.refl _)
    | with_reducible assumption
    | (extract_lets +onlyGivenNames z; refine Upd.cutU (z := z) ?_ (fun hz => ?_); subst z; rotate_left; clear_value z; all_goals have z := trivial)
    | (extract_lets +onlyGivenNames z; refine Upd.cutU (z := z.1) ?_ (fun hz => ?_); subst z; rotate_left; clear_value z; all_goals have z := trivial)
    | (extract_lets +onlyGivenNames z; clear_value z; have z := trivial)
    | (with_reducible apply Upd.ite)
    | (with_reducible apply State.markMade_upd; decide)
    | (with_reducible apply State.pieceDone_upd; decide)
    | (with_reducible apply State.targetRead_upd; decide)
    | (with_reducible apply State.targetWrite_upd; decide)
    | (with_reducible apply State.writtenOver_upd; decide)
    | (with_reducible apply Upd.fst; assumption)
    | simp (disch := first | decide | rfl | (apply And.intro <;> first | decide | rfl | (apply And.intro <;> rfl))) only [Upd.mk1_iff, Upd.lane_iff, Upd.frames_iff, Upd.ing_iff, Upd.syn_iff, Upd.pipe_iff, Upd.blankets_iff, Upd.ref_iff, Upd.products_iff, Upd.egr_iff, Upd.brg_iff, Upd.memq_iff, Upd.sto_iff, Upd.job_iff, Upd.fab_iff, Upd.boot_iff, Upd.bist_iff, Upd.mgt_iff, Upd.sec_iff, Upd.out_iff, Upd.fresh_iff, Upd.bad_iff]
    | split

theorem State.lateAt_upd (s : State) (e : LatePiece) {W P : Nat} {r_ : State} (hm : (subMask 0xffffffffffffffffffffffffffffffff W && subMask 0x7fffff P) = true) (k_ : Upd W P r_ s) :
    Upd W P r_ (State.lateAt s e) := by
  refine Upd.via (w := 0xffffffffffffffffffffffffffffffff) (p := 0x7fffff) ?_ hm k_
  clear hm k_
  unfold State.lateAt
  repeat' first
    | (with_reducible exact Upd.refl _)
    | with_reducible assumption
    | (extract_lets +onlyGivenNames z; refine Upd.cutU (z := z) ?_ (fun hz => ?_); subst z; rotate_left; clear_value z; all_goals have z := trivial)
    | (extract_lets +onlyGivenNames z; refine Upd.cutU (z := z.1) ?_ (fun hz => ?_); subst z; rotate_left; clear_value z; all_goals have z := trivial)
    | (extract_lets +onlyGivenNames z; clear_value z; have z := trivial)
    | (with_reducible apply Upd.ite)
    | (with_reducible apply State.brgEvent_upd; decide)
    | (with_reducible apply Upd.inc; decide)
    | (with_reducible apply State.staleDrop_upd; decide)
    | (with_reducible apply State.targetWrite_upd; decide)
    | (with_reducible apply State.writtenOver_upd; decide)
    | (with_reducible apply Upd.fst; assumption)
    | simp (disch := first | decide | rfl | (apply And.intro <;> first | decide | rfl | (apply And.intro <;> rfl))) only [Upd.mk1_iff, Upd.lane_iff, Upd.frames_iff, Upd.ing_iff, Upd.syn_iff, Upd.pipe_iff, Upd.blankets_iff, Upd.ref_iff, Upd.products_iff, Upd.egr_iff, Upd.brg_iff, Upd.memq_iff, Upd.sto_iff, Upd.job_iff, Upd.fab_iff, Upd.boot_iff, Upd.bist_iff, Upd.mgt_iff, Upd.sec_iff, Upd.out_iff, Upd.fresh_iff, Upd.bad_iff]
    | split

theorem execPieceComplete_upd (k : Nat) (addr : Nat) (err : MemErr) (s : State) {W P : Nat} (hm : (subMask 0xffffffffffffffffffffffffffffffff W && subMask 0x7fffff P) = true) :
    NextUpd W P s (execPieceComplete k addr err s) := by
  refine NextUpd.mono (w := 0xffffffffffffffffffffffffffffffff) (p := 0x7fffff) ?_ hm
  unfold execPieceComplete
  repeat' first
    | (with_reducible exact Upd.refl _)
    | with_reducible assumption
    | (extract_lets +onlyGivenNames z; refine Upd.cutU (z := z) ?_ (fun hz => ?_); subst z; rotate_left; clear_value z; all_goals have z := trivial)
    | (extract_lets +onlyGivenNames z; refine Upd.cutU (z := z.1) ?_ (fun hz => ?_); subst z; rotate_left; clear_value z; all_goals have z := trivial)
    | (extract_lets +onlyGivenNames z; refine NextUpd.cutU (z := z) ?_ (fun hz => ?_); subst z; rotate_left; clear_value z; all_goals have z := trivial)
    | (extract_lets +onlyGivenNames z; refine NextUpd.cutU (z := z.1) ?_ (fun hz => ?_); subst z; rotate_left; clear_value z; all_goals have z := trivial)
    | (extract_lets +onlyGivenNames z; clear_value z; have z := trivial)
    | (with_reducible apply NextUpd.next)
    | (with_reducible apply NextUpd.ite)
    | (with_reducible apply Upd.ite)
    | (with_reducible apply State.lateAt_upd; decide)
    | (with_reducible apply State.pieceAt_upd; decide)
    | (with_reducible apply Upd.fst; assumption)
    | simp (disch := first | decide | rfl | (apply And.intro <;> first | decide | rfl | (apply And.intro <;> rfl))) only [Upd.mk1_iff, Upd.lane_iff, Upd.frames_iff, Upd.ing_iff, Upd.syn_iff, Upd.pipe_iff, Upd.blankets_iff, Upd.ref_iff, Upd.products_iff, Upd.egr_iff, Upd.brg_iff, Upd.memq_iff, Upd.sto_iff, Upd.job_iff, Upd.fab_iff, Upd.boot_iff, Upd.bist_iff, Upd.mgt_iff, Upd.sec_iff, Upd.out_iff, Upd.fresh_iff, Upd.bad_iff]
    | split

theorem execPieceTimeout_upd (k : Nat) (addr : Nat) (s : State) {W P : Nat} (hm : (subMask 0x100000000000000001 W && subMask 0x100c02 P) = true) :
    NextUpd W P s (execPieceTimeout k addr s) := by
  refine NextUpd.mono (w := 0x100000000000000001) (p := 0x100c02) ?_ hm
  unfold execPieceTimeout
  repeat' first
    | (with_reducible exact Upd.refl _)
    | with_reducible assumption
    | (extract_lets +onlyGivenNames z; refine Upd.cutU (z := z) ?_ (fun hz => ?_); subst z; rotate_left; clear_value z; all_goals have z := trivial)
    | (extract_lets +onlyGivenNames z; refine Upd.cutU (z := z.1) ?_ (fun hz => ?_); subst z; rotate_left; clear_value z; all_goals have z := trivial)
    | (extract_lets +onlyGivenNames z; refine NextUpd.cutU (z := z) ?_ (fun hz => ?_); subst z; rotate_left; clear_value z; all_goals have z := trivial)
    | (extract_lets +onlyGivenNames z; refine NextUpd.cutU (z := z.1) ?_ (fun hz => ?_); subst z; rotate_left; clear_value z; all_goals have z := trivial)
    | (extract_lets +onlyGivenNames z; clear_value z; have z := trivial)
    | (with_reducible apply NextUpd.next)
    | (with_reducible apply NextUpd.ite)
    | (with_reducible apply Upd.ite)
    | (with_reducible apply State.brgEvent_upd; decide)
    | (with_reducible apply State.pieceDone_upd; decide)
    | (with_reducible apply Upd.fst; assumption)
    | simp (disch := decide) only [Upd.mk1_iff, Upd.egr_iff, Upd.brg_iff, Upd.out_iff]
    | split

theorem execReadaheadExpiry_upd (q : Nat) (s : State) {W P : Nat} (hm : (subMask 0x100000000000000001 W && subMask 0x100802 P) = true) :
    NextUpd W P s (execReadaheadExpiry q s) := by
  refine NextUpd.mono (w := 0x100000000000000001) (p := 0x100802) ?_ hm
  unfold execReadaheadExpiry
  repeat' first
    | (with_reducible exact Upd.refl _)
    | with_reducible assumption
    | (extract_lets +onlyGivenNames z; refine Upd.cutU (z := z) ?_ (fun hz => ?_); subst z; rotate_left; clear_value z; all_goals have z := trivial)
    | (extract_lets +onlyGivenNames z; refine Upd.cutU (z := z.1) ?_ (fun hz => ?_); subst z; rotate_left; clear_value z; all_goals have z := trivial)
    | (extract_lets +onlyGivenNames z; refine NextUpd.cutU (z := z) ?_ (fun hz => ?_); subst z; rotate_left; clear_value z; all_goals have z := trivial)
    | (extract_lets +onlyGivenNames z; refine NextUpd.cutU (z := z.1) ?_ (fun hz => ?_); subst z; rotate_left; clear_value z; all_goals have z := trivial)
    | (extract_lets +onlyGivenNames z; clear_value z; have z := trivial)
    | (with_reducible apply NextUpd.next)
    | (with_reducible apply NextUpd.ite)
    | (with_reducible apply Upd.ite)
    | (with_reducible apply State.dropAhead_upd; decide)
    | (with_reducible apply Upd.fst; assumption)
    | simp (disch := decide) only [Upd.mk1_iff, Upd.brg_iff, Upd.out_iff]
    | split

end Sys2Proof.Machine
end

