-- ==== Sys2Proof/Laws/UpdAudit.lean ====
section
/-! SUPPORT. What each operation of Machine/Audit.lean may change (see Laws/Upd.lean). -/

set_option linter.unusedSimpArgs false
set_option linter.tactic.unusedName false

namespace Sys2Proof.Machine

theorem State.applyRecorded_upd (i : Instr) (s : State) {W P : Nat} {r_ : State} (hm : (subMask 0xffffffffffffffffffffffffffffffff W && subMask 0x7fffff P) = true) (k_ : Upd W P r_ s) :
    Upd W P r_ (State.applyRecorded i s) := by
  refine Upd.via (w := 0xffffffffffffffffffffffffffffffff) (p := 0x7fffff) ?_ hm k_
  clear hm k_
  unfold State.applyRecorded
  repeat' first
    | (with_reducible exact Upd.refl _)
    | with_reducible assumption
    | (extract_lets +onlyGivenNames z; refine Upd.cutU (z := z) ?_ (fun hz => ?_); subst z; rotate_left; clear_value z; all_goals have z := trivial)
    | (extract_lets +onlyGivenNames z; refine Upd.cutU (z := z.1) ?_ (fun hz => ?_); subst z; rotate_left; clear_value z; all_goals have z := trivial)
    | (extract_lets +onlyGivenNames z; clear_value z; have z := trivial)
    | (with_reducible apply Upd.ite)
    | (with_reducible apply State.bistStop_upd; decide)
    | (with_reducible apply State.completed_upd; decide; intro _)
    | (with_reducible apply State.mgtRestart_upd; decide)
    | (with_reducible apply State.registerWrite_upd; decide)
    | (with_reducible apply State.winCommit_upd; decide)
    | (with_reducible apply effAuditRelease_upd; decide)
    | (with_reducible apply effBistRun_upd; decide)
    | (with_reducible apply effBistStop_upd; decide)
    | (with_reducible apply effBrgFence_upd; decide)
    | (with_reducible apply effBrgReset_upd; decide)
    | (with_reducible apply effChApply_upd; decide)
    | (with_reducible apply effClassDelaySet_upd; decide)
    | (with_reducible apply effCtxCancel_upd; decide)
    | (with_reducible apply effCtxGo_upd; decide)
    | (with_reducible apply effDecommission_upd; decide)
    | (with_reducible apply effEgrFence_upd; decide)
    | (with_reducible apply effEgrReset_upd; decide)
    | (with_reducible apply effEncPreset_upd; decide)
    | (with_reducible apply effEyeScanStart_upd; decide)
    | (with_reducible apply effFabFence_upd; decide)
    | (with_reducible apply effFabPortWake_upd; decide)
    | (with_reducible apply effFabReset_upd; decide)
    | (with_reducible apply effFuseProgram_upd; decide)
    | (with_reducible apply effFwActivate_upd; decide)
    | (with_reducible apply effFwUpdate_upd; decide)
    | (with_reducible apply effJobArm_upd; decide)
    | (with_reducible apply effJobCancel_upd; decide)
    | (with_reducible apply effJobLoad_upd; decide)
    | (with_reducible apply effJobSelect_upd; decide)
    | (with_reducible apply effJobStop_upd; decide)
    | (with_reducible apply effLaneDisable_upd; decide)
    | (with_reducible apply effLaneEnable_upd; decide)
    | (with_reducible apply effLaneEqCommit_upd; decide)
    | (with_reducible apply effLaneRetrain_upd; decide)
    | (with_reducible apply effLibDelete_upd; decide)
    | (with_reducible apply effLibPut_upd; decide)
    | (with_reducible apply effLoginFinish_upd; decide)
    | (with_reducible apply effLogout_upd; decide)
    | (with_reducible apply effMemFence_upd; decide)
    | (with_reducible apply effMemReset_upd; decide)
    | (with_reducible apply effMgtRestart_upd; decide)
    | (with_reducible apply effMrgCancel_upd; decide)
    | (with_reducible apply effMrgGo_upd; decide)
    | (with_reducible apply effPipeFence_upd; decide)
    | (with_reducible apply effPipeGate_upd; decide)
    | (with_reducible apply effPipeReset_upd; decide)
    | (with_reducible apply effPipeUnfence_upd; decide)
    | (with_reducible apply effProfCommit_upd; decide)
    | (with_reducible apply effPwrReset_upd; decide)
    | (with_reducible apply effPwrRtcSet_upd; decide)
    | (with_reducible apply effQpEnable_upd; decide)
    | (with_reducible apply effQpReset_upd; decide)
    | (with_reducible apply effQueueWmWrite_upd; decide)
    | (with_reducible apply effRecGibWrite_upd; decide)
    | (with_reducible apply effRecKeep_upd; decide)
    | (with_reducible apply effRecRelease_upd; decide)
    | (with_reducible apply effRefCancel_upd; decide)
    | (with_reducible apply effRefFence_upd; decide)
    | (with_reducible apply effRefGo_upd; decide)
    | (with_reducible apply effRefReset_upd; decide)
    | (with_reducible apply effRegisterWrite_upd; decide)
    | (with_reducible apply effStoFence_upd; decide)
    | (with_reducible apply effStoReset_upd; decide)
    | (with_reducible apply effTestUnlock_upd; decide)
    | (with_reducible apply effTslFence_upd; decide)
    | (with_reducible apply effTslReset_upd; decide)
    | (with_reducible apply effWinCommit_upd; decide)
    | (with_reducible apply Upd.fst; assumption)
    | simp (disch := first | decide | rfl | (apply And.intro <;> first | decide | rfl | (apply And.intro <;> rfl))) only [Upd.mk1_iff, Upd.lane_iff, Upd.frames_iff, Upd.ing_iff, Upd.syn_iff, Upd.pipe_iff, Upd.blankets_iff, Upd.ref_iff, Upd.products_iff, Upd.egr_iff, Upd.brg_iff, Upd.memq_iff, Upd.sto_iff, Upd.job_iff, Upd.fab_iff, Upd.boot_iff, Upd.bist_iff, Upd.mgt_iff, Upd.sec_iff, Upd.out_iff, Upd.fresh_iff, Upd.bad_iff]
    | split

theorem State.recordNext_upd (s : State) {W P : Nat} {r_ : State} (hm : (subMask 0xffffffffffffffffffffffffffffffff W && subMask 0x7fffff P) = true) (k_ : Upd W P r_ s) :
    Upd W P r_ (State.recordNext s) := by
  refine Upd.via (w := 0xffffffffffffffffffffffffffffffff) (p := 0x7fffff) ?_ hm k_
  clear hm k_
  unfold State.recordNext
  split
  · exact Upd.refl s
  · next q rest heq =>
    extract_lets x1 s1
    have h1 : Upd 0xffffffffffffffffffffffffffffffff 0x7fffff s s1 := State.appendRecord_upd _ _ (by decide) (Upd.sec_ (by decide) (by exact id) (by
      intro h
      rw [heq, List.filter_cons] at h
      show (rest.filter fun q => !q.isSwitch).length ≤ 256
      split at h
      · exact Nat.le_of_succ_le h
      · exact h) (Upd.refl s))
    clear_value s1
    split
    · exact State.applyRecorded_upd _ _ (by decide) h1
    · exact h1

theorem execAuditRecordDurable_upd (s : State) {W P : Nat} (hm : (subMask 0xffffffffffffffffffffffffffffffff W && subMask 0x7fffff P) = true) :
    NextUpd W P s (execAuditRecordDurable s) := by
  refine NextUpd.mono (w := 0xffffffffffffffffffffffffffffffff) (p := 0x7fffff) ?_ hm
  unfold execAuditRecordDurable
  repeat' first
    | (with_reducible exact Upd.refl _)
    | with_reducible assumption
    | (extract_lets +onlyGivenNames z; refine Upd.cutU (z := z) ?_ (fun hz => ?_); subst z; rotate_left; clear_value z; all_goals have z := trivial)
    | (extract_lets +onlyGivenNames z; refine Upd.cutU (z := z.1) ?_ (fun hz => ?_); subst z; rotate_left; clear_value z; all_goals have z := trivial)
    | (extract_lets +onlyGivenNames z; refine NextUpd.cutU (z := z) ?_ (fun hz => ?_); subst z; rotate_left; clear_value z; all_goals have z := trivial)
    | (extract_lets +onlyGivenNames z; refine NextUpd.cutU (z := z.1) ?_ (fun hz => ?_); subst z; rotate_left; clear_value z; all_goals have z := trivial)
    | (extract_lets +onlyGivenNames z; clear_value z; have z := trivial)
    | (with_reducible apply NextUpd.next)
    | (with_reducible apply NextUpd.ite)
    | (with_reducible apply Upd.ite)
    | (with_reducible apply State.recordNext_upd; decide)
    | (with_reducible apply Upd.fst; assumption)
    | simp (disch := first | decide | rfl | (apply And.intro <;> first | decide | rfl | (apply And.intro <;> rfl))) only [Upd.mk1_iff, Upd.lane_iff, Upd.frames_iff, Upd.ing_iff, Upd.syn_iff, Upd.pipe_iff, Upd.blankets_iff, Upd.ref_iff, Upd.products_iff, Upd.egr_iff, Upd.brg_iff, Upd.memq_iff, Upd.sto_iff, Upd.job_iff, Upd.fab_iff, Upd.boot_iff, Upd.bist_iff, Upd.mgt_iff, Upd.sec_iff, Upd.out_iff, Upd.fresh_iff, Upd.bad_iff]
    | split

end Sys2Proof.Machine
end

