-- ==== Sys2Proof/Laws/UpdMark.lean ====
section
/-! SUPPORT. What each operation of Machine/Mark.lean may change (see Laws/Upd.lean). -/

set_option linter.unusedSimpArgs false
set_option linter.tactic.unusedName false

namespace Sys2Proof.Machine

theorem State.markAccept_upd (s : State) (m : Nat) (time : Nat) {W P : Nat} {r_ : State} (hm : (subMask 0x100080110010001100027 W && subMask 0x184102 P) = true) (k_ : Upd W P r_ s) :
    Upd W P r_ (State.markAccept s m time) := by
  refine Upd.via (w := 0x100080110010001100027) (p := 0x184102) ?_ hm k_
  clear hm k_
  unfold State.markAccept
  repeat' first
    | (with_reducible exact Upd.refl _)
    | with_reducible assumption
    | (extract_lets +onlyGivenNames z; refine Upd.cutU (z := z) ?_ (fun hz => ?_); subst z; rotate_left; clear_value z; all_goals have z := trivial)
    | (extract_lets +onlyGivenNames z; refine Upd.cutU (z := z.1) ?_ (fun hz => ?_); subst z; rotate_left; clear_value z; all_goals have z := trivial)
    | (extract_lets +onlyGivenNames z; clear_value z; have z := trivial)
    | (with_reducible apply Upd.ite)
    | (with_reducible apply State.armAllByMark_upd; decide)
    | (with_reducible apply Upd.bump; decide)
    | (with_reducible apply Upd.clearBit; decide)
    | (with_reducible apply State.jobSwitch_upd; decide)
    | (with_reducible apply State.markAdopt_upd; decide)
    | (with_reducible apply Upd.set; decide)
    | (with_reducible apply Upd.fst; assumption)
    | simp (disch := first | decide | rfl | (apply And.intro <;> first | decide | rfl | (apply And.intro <;> rfl))) only [Upd.mk1_iff, Upd.ref_iff, Upd.job_iff, Upd.sec_iff, Upd.out_iff]
    | split

theorem execMarkEdge_upd (m : Nat) (rising : Bool) (held : Nat) (s : State) {W P : Nat} (hm : (subMask 0x100080110010001100027 W && subMask 0x184102 P) = true) :
    NextUpd W P s (execMarkEdge m rising held s) := by
  refine NextUpd.mono (w := 0x100080110010001100027) (p := 0x184102) ?_ hm
  unfold execMarkEdge
  repeat' first
    | (with_reducible exact Upd.refl _)
    | with_reducible assumption
    | (extract_lets +onlyGivenNames z; refine Upd.cutU (z := z) ?_ (fun hz => ?_); subst z; rotate_left; clear_value z; all_goals have z := trivial)
    | (extract_lets +onlyGivenNames z; refine Upd.cutU (z := z.1) ?_ (fun hz => ?_); subst z; rotate_left; clear_value z; all_goals have z := trivial)
    | (extract_lets +onlyGivenNames z; refine NextUpd.cutU (z := z) ?_ (fun hz => ?_); subst z; rotate_left; clear_value z; all_goals have z := trivial)
    | (extract_lets +onlyGivenNames z; refine NextUpd.cutU (z := z.1) ?_ (fun hz => ?_); subst z; rotate_left; clear_value z; all_goals have z := trivial)
    | (extract_lets +onlyGivenNames z; clear_value z; have z := trivial)
    | (with_reducible apply NextUpd.next)
    | (with_reducible apply NextUpd.ite)
    | (with_reducible apply Upd.ite)
    | (with_reducible apply State.event_upd; decide)
    | (with_reducible apply Upd.inc; decide)
    | (with_reducible apply State.markAccept_upd; decide)
    | (with_reducible apply Upd.set; decide)
    | (with_reducible apply Upd.fst; assumption)
    | simp (disch := first | decide | rfl | (apply And.intro <;> first | decide | rfl | (apply And.intro <;> rfl))) only [Upd.mk1_iff, Upd.ref_iff, Upd.job_iff, Upd.sec_iff, Upd.out_iff]
    | split

end Sys2Proof.Machine
end

