-- ==== Sys2Proof/Machine/Pins.lean ====
section
/-! DEFINITION. What the balls show (22_electrical_package.md R523, R526) and the JTAG port (R533): functions of the state that
no command changes by itself. -/

namespace Sys2Proof.Machine

/-! ### The JTAG port (R533, 19_self_test.md R472) -/

/-- Codes of the instruction register: the instructions of R533. -/
abbrev jtagBypass : Nat := 0
abbrev jtagIdcode : Nat := 1
abbrev jtagSample : Nat := 2
abbrev jtagExtest : Nat := 3
abbrev jtagClamp : Nat := 4
abbrev jtagHighz : Nat := 5

/-- IDCODE: version 1, part 0x0080, manufacturer 0x2D5, bit 0 set (R533). -/
def idcode : Nat := 0x100805AB

/-- Balls of the boundary-scan register: every CMOS ball of R520, bank by bank in its order (xSPI 0, `VDDIO_MGT` 12,
`VDDIO_PRESS` 18, `VDDIO_JTAG` 67, `VAON` 72, NAND 80). -/
abbrev cmosBalls : Nat := 272

/-- What the data register that the instruction selects captures, least significant bit first: the ID code, one 0 of the
bypass register, or the levels `levels` at the balls. -/
def State.jtagCapture (s : State) (levels : List Nat) : List Nat :=
  let ir := s.get .JTAG_H_IR
  if ir = jtagIdcode then (List.range 32).map fun i => idcode / 2 ^ i % 2
  else if ir = jtagSample || ir = jtagExtest then (List.range cmosBalls).map fun b => levels.getD b 0 % 2
  else [0]

/-- The private BIST instruction is obeyed only while a test is unlocked (19_self_test.md R472). -/
def State.jtagBist (s : State) : Bool := s.on .SEC_STATUS_TEST_UNLOCKED

/-! ### Balls (R523) -/

/-- What a ball shows. -/
inductive Drive where
  | highZ
  | pullDown
  | pullUp
  | low
  | high
  /-- an open-drain ball that does not pull -/
  | released
  /-- driven by the protocol of its port -/
  | driven
  deriving DecidableEq, Repr

/-- A level as a drive. -/
def driveOf (v : Nat) : Drive := if v = 0 then .low else .high

/-- The columns of R523. -/
inductive Phase where
  | inReset
  | running
  | bootFailed
  | asleep
  deriving DecidableEq, Repr

/-- The column that the state is in. -/
def State.phase (s : State) : Phase :=
  if s.on .PWR_H_OFF || s.on .PWR_H_HELD then .inReset
  else if s.get .PWR_H_STATE = 2 then .asleep
  else if s.bootFailed then .bootFailed
  else .running

/-- A ball of the boundary-scan register under the JTAG instruction: HIGHZ takes it, CLAMP and EXTEST drive its cell. -/
def State.throughJtag (s : State) (ball : Nat) (d : Drive) : Drive :=
  let ir := s.get .JTAG_H_IR
  if ir = jtagHighz then .highZ
  else if ir = jtagClamp || ir = jtagExtest then driveOf (s.get .JTAG_H_BSR ball)
  else d

/-- `TRIG_OUT[j]`. -/
def State.trigOut (s : State) (j : Nat) : Drive :=
  s.throughJtag (43 + j) (match s.phase with
    | .inReset => .pullDown
    | .running => driveOf (s.get .SYN_H_PULSE j)
    | .bootFailed => .low
    | .asleep => .low)

/-- `FC_OUT[j]`. -/
def State.fcOut (s : State) (j : Nat) : Drive :=
  s.throughJtag (59 + j) (match s.phase with
    | .inReset => .pullDown
    | .running => driveOf (s.get .SYN_H_FCPIN j)
    | .bootFailed => .low
    | .asleep => driveOf (s.get .SYN_H_FCPIN j))

/-- `IRQ_N`: low while it interrupts, always after a failed boot, and while a trip holds the device (20_power_sleep_reset.md
R501). -/
def State.irqN (s : State) : Drive :=
  s.throughJtag 14 (match s.phase with
    | .inReset => if s.on .PWR_H_TRIP && s.on .PWR_H_HELD then .low else .released
    | .running => if s.on .MGT_H_IRQ then .low else .released
    | .bootFailed => .low
    | .asleep => .released)

/-- The inputs of `VDDIO_PRESS` are sampled. -/
def State.pressSampled (s : State) : Bool := s.phase == .running

/-- `XSPI_RESET_N`, after the 10 µs of R394. -/
def State.xspiResetN (s : State) : Drive :=
  s.throughJtag 11 (match s.phase with
    | .inReset => .low
    | .running => .high
    | .bootFailed => .highZ
    | .asleep => .high)

/-- `XSPI_CS_N`. -/
def State.xspiCsN (s : State) : Drive :=
  s.throughJtag 1 (match s.phase with
    | .inReset => .pullUp
    | .running => .driven
    | .bootFailed => .highZ
    | .asleep => .pullUp)

/-- NAND `CE_N` and `WP_N`. -/
def State.nandCeN (s : State) : Drive := if s.phase = .running then .driven else .high
def State.nandWpN (s : State) : Drive := if s.phase = .running then .driven else .low

/-- `DDR_RESET_N`: high once the memory has been trained, and through self-refresh. -/
def State.ddrResetN (s : State) : Drive :=
  match s.phase with
  | .inReset => .low
  | .running => if s.on .MEM_STATUS_TRAINED then .high else .low
  | .bootFailed => .low
  | .asleep => .high

/-- A lane's transmitter is squelched or powered down: in every column but the running one, and while DISABLED
(02_lane_complex.md R43). -/
def State.laneSquelched (s : State) (n : Nat) : Bool := s.phase != .running || s.get .LANE_STATUS_STATE n == 0

/-- `RCLKOUT_P/N` carries a recovered clock only while the lane that the boot image names is ACTIVE (R526); otherwise both
legs are held at common mode. -/
def State.rclkOut (s : State) : Option Nat :=
  let n := s.get .BOOT_H_RCLK
  if s.phase = .running && n < 48 && s.get .LANE_STATUS_STATE n = 5 then some n else none

end Sys2Proof.Machine
end

