-- ==== Sys2Proof/Tests/Slice0.lean ====
section
/-! SUPPORT. Tests of the model: states that meet the hypotheses of the statements, ill-formed operands that WellFormed
refuses, and worked examples of the manual. -/

set_option Elab.async false

open Sys2Proof Sys2Proof.Machine

namespace Sys2Proof.Tests

/-- A device that runs: booted from slot A, its management complex up, its store mounted, one maker session open. -/
def live : State :=
  let s := (((State.reset.set .BOOT_STATUS_STATE 0 1).set .BOOT_H_AWAY 0 0).set .BOOT_H_SETTLED 0 1).set .STO_H_MOUNTED 0 1
  { s with sec := { s.sec with sessions := [⟨1, .maker, 0, 1, 0, 0, 7⟩] } }

/-- The same with a read-only store: no record can be made. -/
def shut : State := live.set .STO_H_READONLY 0 1

/-- A valid training sequence of protocol 1. -/
def usmasLts : Lts :=
  let c := [0xBC, 0x4C, 1, 0x1F, 0xFF, 0, 0, 0, 1, 0, 0, 0, 0, 0]
  ⟨c ++ leBytes 2 (crc16 (c.drop 1)), true, false⟩

/-- The management processor, and the session. -/
def dev : Src := ⟨.mgt, 0⟩
def ses : Src := ⟨.i3c, 1⟩

/-- The only segment of a virtual channel 0 with flags `fl` and payload `p`. -/
def startSeg (fl : Nat) (p : List Nat) : Segment :=
  let h := [fl, p.length % 256, p.length / 256, 0, 0]
  ⟨h ++ leBytes 2 (crc16 h), p, false, 0, false⟩

/-- A frame of channel 0, bound to bank 0, whose stripe 0 waits since time 0. -/
def waitFrame : Frame :=
  ⟨0, ⟨0, 0, 0, 0, 0, 0, 0, 0, 0, 0⟩, 1, 1, 0x2A, 16, 4, 0, 0, 1, 1, 1, 1, [4, 0, 0, 0], 0, [], [], [], 0, true,
   ⟨some 0, false, false, [(0, 0)], [], [], [], 0, 0, false, false, false, 0, []⟩⟩


/-- Bank 0 of context 0 holds a context that passes the checks of GO: 16 lines a stripe, pipe 0, identity curves. -/
def ctxReady : State :=
  ((live.putBytes (bankBase 0 0) [0, 0, 0, 16, 1]).putBytes (bankBase 0 0 + 0x105A) [0, 1, 0, 1, 0, 1]).putBytes
    (bankBase 0 0 + 0x1060) ((List.range 8).flatMap fun j => [j, 0, 0, 0, j, 0, 0, 0])

/-- Memory that lists nothing between two addresses reads 0 there. -/
theorem memGet_gap (m : List Host.Cell) (lo hi a : Nat) (h : (m.all fun c => decide (c.1 < lo) || decide (hi ≤ c.1)) = true)
    (h1 : lo ≤ a) (h2 : a < hi) : memGet m a = 0 := by
  induction m with
  | nil => rfl
  | cons c m ih =>
    rw [List.all_cons, Bool.and_eq_true] at h
    have hc := h.1
    simp only [Bool.or_eq_true, decide_eq_true_eq] at hc
    obtain ⟨x, y⟩ := c
    unfold memGet
    simp only at hc
    rw [if_neg (by omega)]
    exact ih h.2

/-- The same for bytes. -/
theorem memBytes_gap (s : State) (lo hi n a : Nat) (h : (s.mem.all fun c => decide (c.1 < lo) || decide (hi ≤ c.1)) = true)
    (h1 : lo ≤ a) (h2 : a + n ≤ hi) : s.memBytes a n = List.replicate n 0 := by
  induction n generalizing a with
  | zero => rfl
  | succ n ih =>
    unfold State.memBytes State.memByte
    rw [memGet_gap s.mem lo hi a h h1 (by omega), ih (a + 1) (by omega) (by omega)]; rfl

/-- `ctxReady` holds zeros wherever a range of its bank lists nothing. -/
theorem ctxReady_par (lo hi : Nat) (h : (ctxReady.mem.all fun c => decide (c.1 < bankBase 0 0 + lo) || decide (bankBase 0 0 + hi ≤ c.1)) = true)
    (off n : Nat) (h1 : lo ≤ off) (h2 : off + n ≤ hi) : ctxReady.par (bankBase 0 0) off n = 0 := by
  unfold State.par State.memLe
  rw [memBytes_gap ctxReady _ _ n _ h (by omega) (by omega)]
  have : ∀ n, leNat (List.replicate n 0) = 0 := by
    intro n; induction n with
    | zero => rfl
    | succ n ih => rw [List.replicate_succ]; unfold leNat; rw [ih]
  exact this n

/-- Nothing between the header and the exposure ratios. -/
theorem ctxReady_low : ∀ off n, 5 ≤ off → off + n ≤ 0x105A → ctxReady.par (bankBase 0 0) off n = 0 :=
  ctxReady_par _ _ (by decide +kernel)
/-- Nothing after the compander. -/
theorem ctxReady_high : ∀ off n, 0x10A0 ≤ off → off + n ≤ 0x8000 → ctxReady.par (bankBase 0 0) off n = 0 :=
  ctxReady_par _ _ (by decide +kernel)
/-- The reserved bytes there are zero. -/
theorem ctxReady_zeros (a n : Nat) (h1 : 0x10A0 ≤ a) (h2 : a + n ≤ 0x8000) : ctxReady.zeros (bankBase 0 0) a n = true := by
  unfold State.zeros
  rw [memBytes_gap ctxReady (bankBase 0 0 + 0x10A0) (bankBase 0 0 + 0x8000) n _ (by decide +kernel) (by omega) (by omega)]
  simp [List.all_replicate]

/-- `ctxReady` passes the stage checks. -/
theorem ctxReady_stages : ctxReady.stageOk (bankBase 0 0) = true := by
  have h1 : (List.range 1028).all (fun i => decide (ctxReady.par (bankBase 0 0) (0x40 + 4 * i) 4 < 2 ^ 20)) = true := by
    rw [List.all_eq_true]; intro i hi; rw [List.mem_range] at hi
    rw [ctxReady_low _ _ (by omega) (by omega)]; rfl
  have h2 : (List.range 4356).all (fun i => decide (ctxReady.par (bankBase 0 0) (0x2000 + 2 * i) 2 ≤ 4095)) = true := by
    rw [List.all_eq_true]; intro i hi; rw [List.mem_range] at hi
    rw [ctxReady_high _ _ (by omega) (by omega)]; rfl
  unfold State.stageOk
  simp only [Bool.and_eq_true, List.all_cons, List.all_nil, and_true]
  and_intros
  all_goals first
    | with_reducible exact h1
    | with_reducible exact h2
    | with_reducible exact ctxReady_zeros _ _ (by omega) (by omega)
    | decide +kernel

/-- `ctxReady` passes the checks of GO. -/
theorem ctxReady_go : ctxReady.ctxGoCheck 0 false = .ok := by
  have h1 : ctxReady.commitBank 0 = 0 := by decide +kernel
  have h2 : ctxReady.bankState 0 0 = 0 := by decide +kernel
  have h3 : ctxReady.ctxHeaderOk 0 0 = true := by decide +kernel
  have h4 : ctxReady.onlyRolling (ctxReady.bankMask 0 0) = false := by decide +kernel
  unfold State.ctxGoCheck
  simp [h1, h2, h3, h4, ctxReady_stages]

/-- Queue pair 0 is a control queue pair in RTS. -/
def accessSt : State := (live.set .EGR_QP_CFG_CTRL 0 1).set .EGR_QP_STATUS_STATE 0 1

/-- The first 32 bytes of a read of register 0x408 through window 0, from session 1, counter 1. -/
def accessBody : List Nat := [0x10, 0x10, 1, 0, 1, 0, 0, 0, 0, 0, 0, 0, 0, 0, 0, 0, 1, 0, 0, 0, 8, 4, 0, 0, 0, 0, 0, 0, 4, 0, 0, 0]

/-- The request with its HMAC. -/
def accessMsg : List Nat := accessBody ++ macOf 7 accessBody

/-- The request authenticates and passes its checks. -/
theorem accessMsg_ok : (accessSt.ctlReady 0 = true ∧ accessMsg.getD 0 0 = 0x10) ∧ messageFormed accessMsg = true ∧
    (accessSt.received 0).authCheck accessMsg = .accept ∧
    (accessSt.received 0).admitAccess ((accessSt.received 0).requestOf 0 accessMsg) (leAt accessMsg 20 8) = .ok := by
  have hl : accessMsg.length = 64 := by simp [accessMsg, accessBody, macOf]
  have h1 : leAt accessMsg 2 2 = 1 := by decide +kernel
  have h2 : leAt accessMsg 4 8 = 1 := by decide +kernel
  have h3 : accessMsg.getD 1 0 = 0x10 := by decide +kernel
  have h4 : accessMsg.take (accessMsg.length - 32) = accessBody := by rw [hl]; simp [accessMsg, accessBody]
  have h5 : accessMsg.drop (accessMsg.length - 32) = macOf 7 accessBody := by rw [hl]; simp [accessMsg, accessBody]
  have h6 : (accessSt.received 0).session 1 = some ⟨1, .maker, 0, 1, 0, 0, 7⟩ := by decide +kernel
  refine ⟨by decide +kernel, ?_, ?_, by decide +kernel⟩
  · have : accessMsg.getD 0 0 = 0x10 := by decide +kernel
    have hd : headerData accessMsg = 0 := by decide +kernel
    unfold messageFormed
    rw [this]
    simp only [hd, hl]
    rfl
  · unfold State.authCheck
    simp only [h1, h2, h3, h4, h5, h6]
    simp

/-- A request in slot 0 has an access to 0x380404 outstanding since time 0; it is 1 ms later. -/
def pieceSt : State :=
  { live.set .SYN_H_CLK 0 2000000000 with brg := { live.brg with slots := [(0, ⟨3, 0, .maker, 16, 1, 1, 0, 1, 0, 0x380404, 4, [], 1,
    false, 0x380408, [⟨0x380404, 4, some 0, none, none, []⟩], false, false, false⟩)] } }

/-- A hamper of job 9, its header only, and a device whose job table's entry 3 names it and starts it. -/
def jobHamper : Hamper := ⟨7, [0, 0, 0, 0, 0, 0, 0, 0, 9, 0], 0, [], 10, false, 0, []⟩
def withHamper : State :=
  { live with sto := { live.sto with hampers := [jobHamper] }, job := { live.job with
    table := List.replicate 3 ⟨0xFFFF, 0⟩ ++ [⟨7, 2⟩] } }

/-- NEXT is a stop that is LOADED, and mark input 1 is enabled. -/
def loadedStop : State := live.loadStop.set .SYN_MARK_CFG_EN 1 1

/-- A residual product of channel 0, come whole, on stream 1. -/
def aProduct : Product := ⟨1, 0, 0, 0, 0, 0, [], [], true, 0, false, false, ⟨0, 0, 0, 0, 0, 0, 0, 0, 0, 0⟩, 1⟩

/-! ### Each hypothesis of a statement is met -/

theorem witness_StepRunsTheFrontCommand_front :
    ({ live with pending := [.crystalStop, .rngFail] } : State).pending = [.crystalStop, .rngFail] := by decide +kernel

theorem witness_EmptyQueueTicks_tick :
    live.pending = [] := by decide +kernel

theorem witness_ResetLeavesResetValues_fields :
    ¬(Fld.BRG_WIN_CFG_EN.id = Fld.BRG_WIN_CFG_EN.id ∧ 1 = 0) := by decide +kernel

theorem witness_EveryStepKeepsTheInvariant_step :
    Machine.Inv State.reset ∧ step State.reset = .next State.reset.tick := ⟨⟨by decide, ⟨by decide, by decide, by decide, by decide, by decide⟩⟩, rfl⟩

theorem witness_EventQueueFollowsItsRule_stored :
    State.reset.evq.length < 1024 ∧ 1024 ≤ ({ State.reset with evq := List.replicate 1024 ⟨0, 0, 0, 0, 0, 0⟩ } : State).evq.length := by decide +kernel

theorem witness_EventQueueFollowsItsRule_sticky :
    3 < Fld.LANE_EVENTS_EV.width ∧ ∀ g ∈ [Fld.MGT_EVQ_NEXT_SEQ, .MGT_EVQ_LOST, .MGT_EVQ_STATUS_OVF, .I3C_H_CAUSE, .I3C_H_IBI, .MGT_H_IRQ], g.id ≠ Fld.LANE_EVENTS_EV.id := by decide +kernel

theorem witness_PlaneOutputRounds_round :
    (1048567 : Nat) < 2 ^ 20 ∧ 1048567 < 1048568 ∧ 1048568 ≤ 1048568 ∧ (1048568 : Nat) < 2 ^ 20 := by decide +kernel

theorem witness_StartEntryIsSelectedOnce_lowest :
    withHamper.isFollower = false ∧ withHamper.mgtAbsent = false ∧ (withHamper.jobEntry 3).start = true ∧ (∀ j ∈ List.range 3, (withHamper.jobEntry j).start = false) ∧ ∀ j ∈ List.range 256, (live.jobEntry j).start = false := by decide +kernel

theorem witness_LaneSignalsComplete_sig :
    (live.get .LANE_ID_ROLE 4 ≠ 3 ∨ live.portState (lanePort 4) ≠ portAsleep) ∧ live.laneState 4 ≠ laneDetect ∧ live.on .LANE_STATUS_RX_NAP 4 = false ∧ live.on .LANE_H_RETURN 4 = false := by decide +kernel

theorem witness_LaneSignalsComplete_sigEgress :
    let s := (((live.set .LANE_ID_ROLE 0 2).set .LANE_STATUS_STATE 0 1).set .LANE_STATUS_CDR_LOCK 0 1).set .LANE_STATUS_RUNG 0 3
    s.get .LANE_ID_ROLE 0 = 2 ∧ s.laneState 0 = laneDetect ∧ s.get .LANE_STATUS_CDR_LOCK 0 = 1 ∧ s.on .LANE_STATUS_RX_NAP 0 = false ∧ s.get .LANE_STATUS_RUNG 0 = 3 := by decide +kernel

theorem witness_LaneSignalsComplete_sigWake :
    let s := ((live.set .LANE_STATUS_STATE 4 5).set .LANE_STATUS_RX_NAP 4 1).set .LANE_IDLE_IDLE_MS 4 600000
    s.get .LANE_ID_ROLE 4 ≠ 3 ∧ s.laneState 4 = laneActive ∧ s.on .LANE_STATUS_RX_NAP 4 = true ∧ s.on .LANE_H_RETURN 4 = false ∧ s.on .LANE_H_TRIM 4 = false ∧ 600000 ≤ s.get .LANE_IDLE_IDLE_MS 4 := by decide +kernel

theorem witness_LaneSignalsComplete_los :
    (live.set .LANE_STATUS_RX_NAP 0 1).on .LANE_STATUS_RX_NAP 0 = true ∧ live.on .LANE_STATUS_RX_NAP 0 = false ∧
      (live.laneState 0 = laneDisabled ∨ live.laneState 0 = laneDetect ∨ live.laneState 0 = laneBackoff) := by decide +kernel

theorem witness_LaneSignalsComplete_losTrain :
    let s := live.set .LANE_STATUS_STATE 0 3
    s.on .LANE_STATUS_RX_NAP 0 = false ∧ s.get .LANE_ID_ROLE 0 ≠ 2 ∧ (s.laneState 0 = laneNegotiate ∨ s.laneState 0 = laneStep ∨ s.laneState 0 = laneVerify) := by decide +kernel

theorem witness_LaneSignalsComplete_losActive :
    let s := live.set .LANE_STATUS_STATE 0 5
    s.on .LANE_STATUS_RX_NAP 0 = false ∧ s.laneState 0 = laneActive ∧ s.get .LANE_ID_ROLE 0 ≠ 2 := by decide +kernel

theorem witness_LaneSignalsComplete_cdr :
    (live.laneState 0 ≠ laneDetect ∧ live.laneState 0 ≠ laneStep ∧ live.on .LANE_H_RETURN 0 = false) ∧ live.get .LANE_ID_ROLE 0 ≠ 2 ∧
      ((live.set .LANE_STATUS_STATE 0 1).laneState 0 = laneDetect ∨ live.on .LANE_H_RETURN 0 = true) := by decide +kernel

theorem witness_LaneSignalsComplete_cdrEgress :
    let s := ((live.set .LANE_ID_ROLE 0 2).set .LANE_STATUS_STATE 0 1).set .LANE_STATUS_SIG 0 1
    s.get .LANE_ID_ROLE 0 = 2 ∧ s.laneState 0 = laneDetect ∧ s.on .LANE_STATUS_SIG 0 = true := by decide +kernel

theorem witness_LaneSignalsComplete_cdrStep :
    let s := (live.set .LANE_STATUS_STATE 0 3).set .LANE_H_BLOCK 0 1
    s.get .LANE_ID_ROLE 0 ≠ 2 ∧ s.laneState 0 = laneStep ∧ s.on .LANE_H_RETURN 0 = false ∧ s.get .LANE_H_BLOCK 0 = 1 := by decide +kernel

theorem witness_LaneSignalsComplete_unlock :
    (live.set .LANE_STATUS_RX_NAP 0 1).on .LANE_STATUS_RX_NAP 0 = true ∧ live.on .LANE_STATUS_RX_NAP 0 = false ∧ live.laneState 0 ≠ laneActive := by decide +kernel

theorem witness_LaneSignalsComplete_unlockActive :
    let s := live.set .LANE_STATUS_STATE 0 5
    s.on .LANE_STATUS_RX_NAP 0 = false ∧ s.laneState 0 = laneActive ∧ s.get .LANE_ID_ROLE 0 ≠ 2 := by decide +kernel

theorem witness_LaneSignalsComplete_offset :
    (live.on .LANE_STATUS_CDR_LOCK 0 = false ∨ live.get .LANE_ID_ROLE 0 = 2) ∧ (let s := live.set .LANE_STATUS_CDR_LOCK 0 1
      s.on .LANE_STATUS_CDR_LOCK 0 = true ∧ s.get .LANE_ID_ROLE 0 ≠ 2 ∧ s.laneState 0 ≠ laneDetect ∧ s.laneState 0 ≠ laneNegotiate ∧ s.on .LANE_H_RETURN 0 = false) := by decide +kernel

theorem witness_LaneSignalsComplete_offsetGood :
    let s := (((live.set .LANE_STATUS_CDR_LOCK 0 1).set .LANE_STATUS_STATE 0 1).set .LANE_STATUS_SIG 0 1).set .LANE_H_LTS_RUN 0 4
    s.on .LANE_STATUS_CDR_LOCK 0 = true ∧ s.laneState 0 = laneDetect ∧ s.on .LANE_STATUS_SIG 0 = true ∧
      4 ≤ s.get .LANE_H_LTS_RUN 0 ∧ (-200 : Int) ≤ -200 ∧ (200 : Int) ≤ 200 ∧ s.get .LANE_ID_ROLE 0 ≠ 2 ∧ s.on .LANE_STATUS_LEADER 0 = false := by decide +kernel

theorem witness_LaneSignalsComplete_offsetBad :
    let s := (((live.set .LANE_STATUS_CDR_LOCK 0 1).set .LANE_STATUS_STATE 0 1).set .LANE_STATUS_SIG 0 1).set .LANE_H_LTS_RUN 0 4
    let t := (live.set .LANE_STATUS_CDR_LOCK 0 1).set .LANE_STATUS_STATE 0 2
    s.on .LANE_STATUS_CDR_LOCK 0 = true ∧ (s.laneState 0 = laneDetect ∧ s.on .LANE_STATUS_SIG 0 = true ∧
      4 ≤ s.get .LANE_H_LTS_RUN 0 ∨ s.laneState 0 = laneNegotiate) ∧ ((201 : Int) < -200 ∨ (200 : Int) < 201) ∧ s.get .LANE_ID_ROLE 0 ≠ 2 ∧
      t.on .LANE_STATUS_CDR_LOCK 0 = true ∧ t.laneState 0 = laneNegotiate ∧ t.get .LANE_ID_ROLE 0 ≠ 2 := by decide +kernel

theorem witness_TrainingSequencesComplete_ignored :
    live.laneState 0 = laneDisabled ∨ live.laneState 0 = laneBackoff ∨ live.get .LANE_ID_ROLE 0 = 2 := by decide +kernel

theorem witness_TrainingSequencesComplete_invalid :
    let s := live.set .LANE_STATUS_STATE 0 1
    s.laneState 0 ≠ laneDisabled ∧ s.laneState 0 ≠ laneBackoff ∧ s.get .LANE_ID_ROLE 0 ≠ 2 ∧ ltsValid ⟨[], false, false⟩ = false := by decide +kernel

theorem witness_TrainingSequencesComplete_detect :
    let s := live.set .LANE_STATUS_STATE 0 1
    s.laneState 0 = laneDetect ∧ s.get .LANE_ID_ROLE 0 ≠ 2 ∧ ltsValid usmasLts = true ∧ usmasLts.chars.getD 2 0 = s.protocol 0 ∧
      s.get .LANE_H_LTS_RUN 0 < 3 ∧ s.on .LANE_H_RETURN 0 = false := by decide +kernel

theorem witness_TrainingSequencesComplete_fourth :
    let s := ((((live.set .LANE_STATUS_STATE 0 1).set .LANE_H_LTS_RUN 0 3).set .LANE_STATUS_SIG 0 1).set .LANE_STATUS_CDR_LOCK 0 1).set .LANE_H_OFFS_DONE 0 1
    s.laneState 0 = laneDetect ∧ s.get .LANE_ID_ROLE 0 ≠ 2 ∧ ltsValid usmasLts = true ∧ usmasLts.chars.getD 2 0 = s.protocol 0 ∧
      s.get .LANE_H_LTS_RUN 0 = 3 ∧ s.on .LANE_STATUS_SIG 0 = true ∧ s.on .LANE_STATUS_CDR_LOCK 0 = true ∧
      s.on .LANE_H_OFFS_DONE 0 = true ∧ s.on .LANE_H_OFFS_BAD 0 = false ∧ s.tiebreak ≤ leAt usmasLts.chars 8 6 := by decide +kernel

theorem witness_TrainingSequencesComplete_protocol :
    let s := (live.set .LANE_STATUS_STATE 0 1).set .LANE_ID_ROLE 0 3
    s.laneState 0 = laneDetect ∧ s.get .LANE_ID_ROLE 0 ≠ 2 ∧ ltsValid usmasLts = true ∧ usmasLts.chars.getD 2 0 ≠ s.protocol 0 := by decide +kernel

theorem witness_TrainingSequencesComplete_negotiate :
    let s := live.set .LANE_STATUS_STATE 0 2
    s.laneState 0 = laneNegotiate ∧ s.get .LANE_ID_ROLE 0 ≠ 2 ∧ ltsValid usmasLts = true := by decide +kernel

theorem witness_TrainingSequencesComplete_ack :
    let s := live.set .LANE_STATUS_LEADER 0 1
    (1 : Nat) ≠ s.tiebreak ∧ s.on .LANE_STATUS_LEADER 0 = true ∧ s.on .LANE_H_STEP_SENT 0 = false ∧ s.get .LANE_H_RUNG_AGREED 0 < 5 ∧ s.get .LANE_H_ACK_RUN 0 < 7 ∧
      (s.set .LANE_H_ACK_RUN 0 7).get .LANE_H_ACK_RUN 0 = 7 ∧ s.get .LANE_H_RUNG_AGREED 0 ≠ 0xFF ∧ s.on .LANE_H_RESUME 0 = false := by decide +kernel

theorem witness_TrainingSequencesComplete_follow :
    let s := ((live.set .LANE_H_RUNG_AGREED 0 4).set .LANE_H_STEP_RUN 0 1).set .LANE_CTRL_MAX_RUNG 0 4
    (1 : Nat) ≠ s.tiebreak ∧ s.on .LANE_STATUS_LEADER 0 = false ∧ 1 ≤ s.rungLimit 0 ∧ s.get .LANE_H_RUNG_AGREED 0 ≠ 0 ∧ s.get .LANE_H_STEP_RUN 0 = 1 := by decide +kernel

theorem witness_StepAndVerifyComplete_rate :
    let s := (live.set .LANE_STATUS_STATE 0 2).set .LANE_H_STEP_SENT 0 1
    s.laneState 0 = laneNegotiate ∧ s.on .LANE_H_STEP_SENT 0 = true ∧ (live.laneState 0 ≠ laneNegotiate ∨ live.on .LANE_H_STEP_SENT 0 = false) := by decide +kernel

theorem witness_StepAndVerifyComplete_block :
    (live.set .LANE_H_RETURN 0 1).on .LANE_H_RETURN 0 = true ∧ live.on .LANE_H_RETURN 0 = false ∧
      (live.laneState 0 ≠ laneStep ∨ live.on .LANE_STATUS_CDR_LOCK 0 = false) ∧ (let s := (live.set .LANE_STATUS_STATE 0 3).set .LANE_STATUS_CDR_LOCK 0 1
      s.on .LANE_H_RETURN 0 = false ∧ s.laneState 0 = laneStep ∧ s.on .LANE_STATUS_CDR_LOCK 0 = true) := by decide +kernel

theorem witness_StepAndVerifyComplete_window :
    let s := (live.set .LANE_STATUS_STATE 0 4).set .LANE_STATUS_RUNG 0 1
    s.laneState 0 = laneVerify ∧ s.on .LANE_H_RETURN 0 = false ∧ windowPass (s.get .LANE_STATUS_RUNG 0) 0 0 0 = true := by decide +kernel

theorem witness_StepAndVerifyComplete_windowFail :
    let s := (live.set .LANE_STATUS_STATE 0 4).set .LANE_STATUS_RUNG 0 1
    s.laneState 0 = laneVerify ∧ s.on .LANE_H_RETURN 0 = false ∧ windowPass (s.get .LANE_STATUS_RUNG 0) 1 0 0 = false ∧
      (live.laneState 0 ≠ laneVerify ∨ live.on .LANE_H_RETURN 0 = true) := by decide +kernel

theorem witness_StepAndVerifyComplete_up :
    (live.set .LANE_ID_ROLE 0 1).get .LANE_ID_ROLE 0 = 1 := by decide +kernel

theorem witness_StepAndVerifyComplete_fail :
    let s := (live.set .LANE_STATUS_RUNG 0 4).set .LANE_STATUS_PARTNER_MASK 0 31 |>.set .LANE_CTRL_MAX_RUNG 0 4
    live.on .LANE_H_RESUME 0 = false ∧ (live.set .LANE_H_RESUME 0 0).bestRung 0 (live.get .LANE_STATUS_RUNG 0) = 0 ∧
      s.on .LANE_H_RESUME 0 = false ∧ (s.set .LANE_H_RESUME 0 0).bestRung 0 (s.get .LANE_STATUS_RUNG 0) ≠ 0 ∧ s.get .LANE_STATUS_RUNG 0 < 5 := by decide +kernel

theorem witness_StepAndVerifyComplete_verdict :
    let s := live.set .LANE_STATUS_STATE 0 4
    s.on .LANE_H_RETURN 0 = false ∧ (s.laneState 0 = laneStep ∨ s.laneState 0 = laneVerify ∧ s.get .LANE_H_VERD_L 0 ≠ 1) ∧
      s.laneState 0 = laneVerify ∧ (s.set .LANE_H_VERD_L 0 1).get .LANE_H_VERD_L 0 = 1 := by decide +kernel

theorem witness_StepAndVerifyComplete_verdictElse :
    live.on .LANE_H_RETURN 0 = true ∨ (live.laneState 0 ≠ laneStep ∧ live.laneState 0 ≠ laneVerify) := by decide +kernel

theorem witness_StepAndVerifyComplete_verdictTimeout :
    let s := (live.set .LANE_STATUS_STATE 0 4).set .LANE_H_VERD_L 0 1
    s.laneState 0 = laneVerify ∧ s.on .LANE_H_RETURN 0 = false ∧ s.get .LANE_H_VERD_L 0 ≠ 0 ∧ s.get .LANE_H_VERD_P 0 = 0 ∧
      (live.laneState 0 ≠ laneVerify ∨ live.on .LANE_H_RETURN 0 = true ∨ live.get .LANE_H_VERD_L 0 = 0 ∨ live.get .LANE_H_VERD_P 0 ≠ 0) := by decide +kernel

theorem witness_StepAndVerifyComplete_negTimeout :
    (live.set .LANE_STATUS_STATE 0 2).laneState 0 = laneNegotiate ∧ live.laneState 0 ≠ laneNegotiate := by decide +kernel

theorem witness_StepAndVerifyComplete_noLts :
    (let s := (live.set .LANE_STATUS_STATE 0 1).set .LANE_STATUS_SIG 0 1
    s.laneState 0 = laneDetect ∧ s.on .LANE_STATUS_SIG 0 = true ∧ s.get .LANE_ID_ROLE 0 ≠ 2) ∧ live.laneState 0 ≠ laneDetect := by decide +kernel

theorem witness_StepAndVerifyComplete_stepTimeout :
    (let s := live.set .LANE_STATUS_STATE 0 3
     (s.laneState 0 = laneStep ∨ s.laneState 0 = laneVerify) ∧ s.on .LANE_H_RETURN 0 = false) ∧
     (live.on .LANE_H_RETURN 0 = true ∨ live.laneState 0 ≠ laneStep ∧ live.laneState 0 ≠ laneVerify) := by decide +kernel

theorem witness_StepAndVerifyComplete_backoff :
    (live.set .LANE_STATUS_STATE 0 6).laneState 0 = laneBackoff ∧ live.laneState 0 ≠ laneBackoff ∧ live.get .LANE_ID_ROLE 0 ≠ 2 := by decide +kernel

theorem witness_LaneServiceCompletes_align :
    (live.set .LANE_STATUS_STATE 0 5).laneState 0 = laneActive ∧ live.get .LANE_ID_ROLE 0 ≠ 2 ∧ live.on .LANE_STATUS_RX_NAP 0 = false ∧
      live.laneState 0 ≠ laneActive := by decide +kernel

theorem witness_LaneServiceCompletes_nap :
    (let s := (live.set .LANE_STATUS_STATE 0 5).set .LANE_STATUS_RX_NAP 0 1
     s.laneState 0 = laneActive ∧ s.on .LANE_STATUS_RX_NAP 0 = true) ∧ (live.laneState 0 ≠ laneActive ∨ live.on .LANE_STATUS_RX_NAP 0 = false) := by decide +kernel

theorem witness_LaneServiceCompletes_stable :
    (live.set .LANE_STATUS_STATE 0 5).laneState 0 = laneActive ∧ live.laneState 0 ≠ laneActive := by decide +kernel

theorem witness_LaneServiceCompletes_idleTrim :
    (-128 : Int) ≤ 0 ∧ (0 : Int) ≤ 127 ∧ (live.laneState 0 ≠ laneActive ∨ ((0 : Nat) < 600000 ∧ (-15 : Int) < 0 ∧ (0 : Int) < 15)) ∧
      (live.set .LANE_STATUS_STATE 0 5).laneState 0 = laneActive ∧ live.on .LANE_STATUS_RX_NAP 0 = false ∧ ((600000 : Nat) ≤ 600000 ∨ (15 : Int) ≤ 15 ∨ (15 : Int) ≤ -15) := by decide +kernel

theorem witness_LaneServiceCompletes_trimEnd :
    (live.set .LANE_H_TRIM 0 1).on .LANE_H_TRIM 0 = true ∧ live.on .LANE_H_TRIM 0 = false := by decide +kernel

theorem witness_LaneServiceCompletes_service :
    let s := live.set .LANE_STATUS_STATE 0 5
    s.laneState 0 = laneActive ∧ s.on .LANE_H_IDLE 0 = false ∧ s.on .LANE_STATUS_RX_NAP 0 = false ∧ s.on .LANE_EYE_STATUS_BUSY 0 = false ∧ s.on .LANE_H_TRIM 0 = false ∧
      live.laneState 0 ≠ laneActive := by decide +kernel

theorem witness_LaneServiceCompletes_txNap :
    (let s := ((live.set .LANE_STATUS_STATE 0 5).set .LANE_ID_ROLE 0 3).set .LANE_CTRL_TX_NAP_EN 0 1
     s.laneState 0 = laneActive ∧ s.get .LANE_ID_ROLE 0 = 3 ∧ s.on .LANE_CTRL_TX_NAP_EN 0 = true ∧ s.on .LANE_STATUS_TX_NAP 0 = false) ∧
     live.laneState 0 ≠ laneActive ∧ (live.set .LANE_STATUS_TX_NAP 0 1).on .LANE_STATUS_TX_NAP 0 = true ∧ live.on .LANE_STATUS_TX_NAP 0 = false := by decide +kernel

theorem witness_LaneServiceCompletes_rxNap :
    let s := live.set .LANE_STATUS_STATE 0 5
    s.laneState 0 = laneActive ∧ s.get .LANE_ID_ROLE 0 ≠ 2 ∧ live.laneState 0 ≠ laneActive := by decide +kernel

theorem witness_LaneServiceCompletes_eyeDone :
    let s := live.set .LANE_EYE_STATUS_BUSY 0 1
    s.on .LANE_EYE_STATUS_BUSY 0 = true ∧ s.on .LANE_H_TRIM 0 = false ∧ live.on .LANE_EYE_STATUS_BUSY 0 = false := by decide +kernel

theorem witness_LaneControlCompletes_enable :
    live.gate dev .installer (20 + 0 / 4) = .ok ∧ live.gate ses .installer (20 + 0 / 4) = .ok ∧ shut.gate ses .installer (20 + 0 / 4) = .ok := by decide +kernel

theorem witness_LaneControlCompletes_disable :
    live.gate dev .installer 20 = .ok ∧ live.gate ses .installer 20 = .ok ∧ shut.gate ses .installer 20 = .ok := by decide +kernel

theorem witness_LaneControlCompletes_retrain :
    let s := live.set .LANE_STATUS_STATE 0 1
    s.gate dev .installer 20 = .ok ∧ s.gate ses .installer 20 = .ok ∧ shut.gate ses .installer 20 = .ok ∧
      s.laneState 0 ≠ laneDisabled ∧ s.laneState 0 ≠ laneBackoff ∧ s.get .LANE_ID_ROLE 0 ≠ 2 := by decide +kernel

theorem witness_LaneControlCompletes_clr :
    live.gate dev .operator 20 = .ok ∧ live.gate ses .operator 20 = .ok := by decide +kernel

theorem witness_LaneControlCompletes_commit :
    (let s := (live.set .LANE_EQ_TX_MAIN 0 48).set .LANE_EQ_RX_VGA 0 32
     ∀ src ∈ [dev, ses], s.gate src .installer 20 = .ok ∧ s.settingsBusy src = false ∧ eqValid (s.eqStaged 0) = true ∧
      s.get .LANE_EQ_SEL_RUNG 0 ≤ 4) := by decide +kernel

theorem witness_LaneControlCompletes_eye :
    (let s := ((live.set .LANE_STATUS_STATE 0 5).set .LANE_STATUS_RUNG 0 1).set .LANE_EYE_CTRL_LOG2_SAMPLES 0 10
     s.gate dev .installer 20 = .ok ∧ s.gate ses .installer 20 = .ok ∧ s.on .LANE_EYE_STATUS_BUSY 0 = false ∧
      s.laneState 0 = laneActive ∧ s.get .LANE_STATUS_RUNG 0 ≠ 0 ∧ 10 ≤ s.get .LANE_EYE_CTRL_LOG2_SAMPLES 0 ∧
      s.get .LANE_EYE_CTRL_LOG2_SAMPLES 0 ≤ 30 ∧ s.get .LANE_EYE_CTRL_EYE 0 ≠ 3) ∧ live.laneState 0 ≠ laneActive := by decide +kernel

theorem witness_SegmentsAndSymbolsComplete_seg :
    segBad ⟨[], [], false, 0, false⟩ = true ∧ segBad (startSeg 0x10 [0, 0]) = false ∧ live.get .ING_LANE_STATUS_USMAS_STATE 0 ≠ 2 := by decide +kernel

theorem witness_SegmentsAndSymbolsComplete_segRun :
    let s := live.set .ING_LANE_STATUS_USMAS_STATE 0 2
    segBad (startSeg 0x10 [0, 0]) = false ∧ s.get .ING_LANE_STATUS_USMAS_STATE 0 = 2 := by decide +kernel

theorem witness_SegmentsAndSymbolsComplete_segOpen :
    let s := (live.set .ING_LANE_STATUS_USMAS_STATE 0 2).set .ING_LANE_STATUS_VER 0 1
    let g := startSeg 0x10 [0, 0]
    segBad g = false ∧ s.get .ING_LANE_STATUS_USMAS_STATE 0 = 2 ∧ s.get .ING_LANE_STATUS_VER 0 ≠ 3 ∧ (g.hdr.getD 0 0).testBit 4 = true ∧
      (g.hdr.getD 0 0).testBit 5 = false ∧ (g.payload.take (leAt g.hdr 1 2)).length < 4 ∧ s.packet 0 = none ∧
      s.on .ING_QUEUE_LEVEL_FLUSHING 0 = false := by decide +kernel

theorem witness_SegmentsAndSymbolsComplete_hello :
    let s := live.set .ING_LANE_STATUS_USMAS_STATE 0 1
    [1, 3, 3, 15, 0].getD 4 0 = 0 ∧ s.get .ING_LANE_STATUS_USMAS_STATE 0 = 1 ∧ 1 ≤ [1, 3, 3, 15, 0].getD 1 0 ∧ [1, 3, 3, 15, 0].getD 0 0 ≤ min ([1, 3, 3, 15, 0].getD 1 0) 3 ∧
      min ([4, 4, 3, 15, 0].getD 1 0) 3 < [4, 4, 3, 15, 0].getD 0 0 ∧ live.get .ING_LANE_STATUS_USMAS_STATE 0 = 0 := by decide +kernel

theorem witness_SegmentsAndSymbolsComplete_helloAgain :
    [1, 3, 3, 15, 1].getD 4 0 ≠ 0 ∧ [1, 3, 3, 15, 0].getD 4 0 = 0 ∧ (live.set .ING_LANE_STATUS_USMAS_STATE 0 2).get .ING_LANE_STATUS_USMAS_STATE 0 = 2 ∧
      tabGet live.ing.hello 0 [] ≠ helloArg [1, 3, 3, 15, 0] ∧ (live.set .ING_LANE_STATUS_USMAS_STATE 0 3).get .ING_LANE_STATUS_USMAS_STATE 0 = 3 := by decide +kernel

theorem witness_SegmentsAndSymbolsComplete_ack :
    [1, 2, 3, 0, 0].getD 3 0 = 0 ∧ [1, 2, 3, 0, 0].getD 4 0 = 0 ∧ ([1, 2, 3, 0, 1].getD 3 0 ≠ 0 ∨ [1, 2, 3, 0, 1].getD 4 0 ≠ 0) := by decide +kernel

theorem witness_SegmentsAndSymbolsComplete_status :
    let s := (live.set .ING_LANE_STATUS_USMAS_STATE 0 2).set .ING_LANE_STATUS_MINOR 0 3
    s.get .ING_LANE_STATUS_USMAS_STATE 0 = 2 ∧ s.bit .ING_LANE_STATUS_MINOR 0 1 = true ∧ live.get .ING_LANE_STATUS_USMAS_STATE 0 ≠ 2 := by decide +kernel

theorem witness_SegmentsAndSymbolsComplete_bad :
    (0x48 : Nat) ≠ 0x53 ∧ ¬((0x48 : Nat) = 0x48 ∧ [1, 3, 3, 15, 1].getD 4 0 = 0) ∧ ¬((0x48 : Nat) = 0x41 ∧ [1, 3, 3, 15, 1].getD 3 0 = 0 ∧ [1, 3, 3, 15, 1].getD 4 0 = 0) ∧
      ((0x53 : Nat) = 0x53) := by decide +kernel

theorem witness_SegmentsAndSymbolsComplete_helloSend :
    let s := (live.set .LANE_STATUS_STATE 0 5).set .LANE_ID_ROLE 0 1
    s.get .LANE_STATUS_STATE 0 = 5 ∧ s.get .LANE_ID_ROLE 0 = 1 := by decide +kernel

theorem witness_SegmentsAndSymbolsComplete_pause :
    live.on .ING_QUEUE_CTRL_PAUSE_EN 0 = true ∧ (live.set .LANE_STATUS_STATE 0 5).get .LANE_STATUS_STATE 0 = 5 ∧ (live.set .ING_QUEUE_CTRL_PAUSE_EN 0 0).on .ING_QUEUE_CTRL_PAUSE_EN 0 = false := by decide +kernel

theorem witness_IngressQueueCommandsComplete_flushLimit :
    (live.set .ING_QUEUE_LEVEL_FLUSHING 0 1).on .ING_QUEUE_LEVEL_FLUSHING 0 = true ∧ live.on .ING_QUEUE_LEVEL_FLUSHING 0 = false := by decide +kernel

theorem witness_IngressQueueCommandsComplete_flush :
    live.gate dev .operator 8 = .ok ∧ live.gate ses .operator 8 = .ok ∧ live.on .ING_QUEUE_LEVEL_FLUSHING 0 = false ∧
      live.packet 0 = none ∧ (live.setPacket 0 ⟨0, 0, [], none, 0, false⟩).packet 0 ≠ none := by decide +kernel

theorem witness_IngressQueueCommandsComplete_timeout :
    let s := (live.set .ING_CH_H_TIMEOUT 0 5).openAt 0 1
    s.get .ING_CH_H_TIMEOUT 0 ≠ 0 ∧ s.packet 0 = none ∧ s.openFrame 0 ≠ none ∧ (live.set .ING_CH_H_TIMEOUT 0 0).get .ING_CH_H_TIMEOUT 0 = 0 := by decide +kernel

theorem witness_IngressQueueCommandsComplete_clr :
    live.gate dev .operator 8 = .ok ∧ live.gate ses .operator 8 = .ok := by decide +kernel

theorem witness_IngressQueueCommandsComplete_wm :
    live.gate dev .installer 8 = .ok ∧ live.gate ses .installer 8 = .ok ∧ shut.gate ses .installer 8 = .ok ∧
      live.get .ING_QUEUE_LWM 0 < 64512 ∧ (64512 : Nat) ≤ 64512 := by decide +kernel

theorem witness_IngressQueueCommandsComplete_wmLow :
    live.gate dev .installer 8 = .ok ∧ live.gate ses .installer 8 = .ok ∧ shut.gate ses .installer 8 = .ok ∧
      0 < live.get .ING_QUEUE_HWM 0 ∧ live.get .ING_QUEUE_HWM 0 ≤ 64512 := by decide +kernel

theorem witness_IngressQueueCommandsComplete_apply :
    let s := ((live.set .ING_CH_SIZE_WIDTH 0 64).set .ING_CH_SIZE_HEIGHT 0 4).set .ING_CH_CFG_DT 0 0x2A
    s.gate dev .operator 8 = .ok ∧ s.gate ses .operator 8 = .ok ∧ (s.set .STO_H_READONLY 0 1).gate ses .operator 8 = .ok ∧ s.applyBad 0 = false := by decide +kernel

theorem witness_EncoderAndTimeCommandsComplete_count :
    (live.set .SYN_ENC_CFG_MODE 0 3).get .SYN_ENC_CFG_MODE 0 = 3 ∧ live.get .SYN_ENC_CFG_FILTER 0 < 200 ∧ live.on .SYN_ENC_H_A 0 = false := by decide +kernel

theorem witness_EncoderAndTimeCommandsComplete_quad :
    live.get .SYN_ENC_CFG_FILTER 0 < 200 ∧ live.get .SYN_ENC_CFG_MODE 0 < 3 ∧ live.on .SYN_ENC_H_A 0 ≠ true ∧ live.on .SYN_ENC_H_B 0 ≠ true := by decide +kernel

theorem witness_EncoderAndTimeCommandsComplete_z :
    live.get .SYN_ENC_CFG_FILTER 0 < 200 ∧ 0 ≤ live.get .SYN_ENC_CFG_FILTER 0 := by decide +kernel

theorem witness_EncoderAndTimeCommandsComplete_preset :
    live.gate dev .installer 9 = .ok ∧ live.gate ses .installer 9 = .ok ∧ shut.gate ses .installer 9 = .ok ∧ live.encoderUsed 0 = false ∧
      (live.set .SYN_CH_TRIG_CFG_EN 5 1).encoderUsed 0 = true := by decide +kernel

theorem witness_EncoderAndTimeCommandsComplete_slew :
    live.gate dev .operator 9 = .ok ∧ live.gate ses .operator 9 = .ok ∧ live.get .SYN_TB_CTRL_SRC ≠ 2 ∧ live.get .SYN_TB_SLEW = 0 ∧ (live.set .SYN_TB_SLEW 0 1).get .SYN_TB_SLEW ≠ 0 := by decide +kernel

theorem witness_EncoderAndTimeCommandsComplete_step :
    live.gate dev .operator 9 = .ok ∧ live.gate ses .operator 9 = .ok ∧ live.get .SYN_TB_CTRL_SRC ≠ 2 ∧ (0 : Int) ≤ (live.now : Int) + toSigned 64 5 ∧
      (live.now : Int) + toSigned 64 5 ≤ 2 ^ 64 - 1 ∧ (0 : Int) ≤ toSigned 64 5 ∧ (live.set .SYN_TB_CTRL_SRC 0 2).get .SYN_TB_CTRL_SRC = 2 ∧
      (live.now : Int) + toSigned 64 (2 ^ 63) < 0 ∧ (let s := (live.set .SYN_CH_TRIG_CFG_EN 5 1).set .SYN_TB_TIME 0 10
       s.get .SYN_TB_CTRL_SRC ≠ 2 ∧ (0 : Int) ≤ (s.now : Int) + toSigned 64 (2 ^ 64 - 1) ∧ toSigned 64 (2 ^ 64 - 1) < 0 ∧ s.now < 2 ^ 64 ∧
       (List.range 128).any (fun c => s.genOn c) = true) := by decide +kernel

theorem witness_EncoderAndTimeCommandsComplete_ptpRx :
    (live.set .SYN_PTP_CFG_EN 0 1).on .SYN_PTP_CFG_EN = true ∧ (live.set .SYN_PTP_CFG_EN 0 1).get .SYN_PTP_CFG_TRANSPORT = 1 ∧ (live.set .SYN_PTP_CFG_EN 0 1).get .SYN_PTP_CFG_DOMAIN = 0 ∧
      live.get .SYN_PTP_CFG_DOMAIN ≠ 5 := by decide +kernel

theorem witness_EncoderAndTimeCommandsComplete_pop :
    live.gate dev .operator 9 = .ok ∧ live.gate ses .operator 9 = .ok := by decide +kernel

theorem witness_EncoderAndTimeCommandsComplete_markOff :
    live.markOn 0 = false ∧ 0 ≤ live.get .SYN_MARK_CFG_FILTER 0 := by decide +kernel

theorem witness_EncoderAndTimeCommandsComplete_markLock :
    let s := (((live.set .SYN_MARK_CFG_EN 0 1).set .SYN_MARK_CFG_EDGE 0 1).set .SYN_MARK_CFG_LOCKOUT 0 10).set .SYN_MARK_H_PREV 0 1
    s.markOn 0 = true ∧ s.edgeTaken 0 true = true ∧ s.get .PWR_H_STATE = 0 ∧ s.get .SYN_MARK_CFG_FILTER 0 < 300 ∧ s.get .BOOT_STATUS_STATE ≠ 2 ∧ s.lockedOut 0 = true := by decide +kernel

theorem witness_EncoderAndTimeCommandsComplete_mark :
    let s := (live.set .SYN_MARK_CFG_EN 0 1).set .SYN_MARK_CFG_EDGE 0 1
    s.markOn 0 = true ∧ s.edgeTaken 0 true = true ∧ s.get .PWR_H_STATE = 0 ∧ s.get .SYN_MARK_CFG_FILTER 0 < 300 ∧ s.get .BOOT_STATUS_STATE ≠ 2 ∧ s.lockedOut 0 = false ∧
      s.switchEdge 0 (s.ballTime 0) = false := by decide +kernel

theorem witness_TriggerCommandsComplete_idle :
    live.fireDue 0 = false := by decide +kernel

theorem witness_TriggerCommandsComplete_seq :
    let s := (((live.set .SYN_CH_TRIG_CFG_EN 0 1).set .SYN_CH_STATUS_ARMED 0 1).set .SYN_CH_TRIG_CFG_DEST 0 1).set .SYN_CH_H_AMODE 0 1
    s.fireDue 0 = true := by decide +kernel

theorem witness_TriggerCommandsComplete_notRun :
    let s := ((live.set .SYN_CH_TRIG_CFG_EN 0 1).set .SYN_CH_STATUS_ARMED 0 1).set .SYN_CH_H_AMODE 0 1
    s.fireDue 0 = true ∧ s.get .SYN_CH_TRIG_CFG_DEST 0 ≠ 1 ∧ s.get .ING_LANE_STATUS_USMAS_STATE (0 / 4) ≠ 2 := by decide +kernel

theorem witness_TriggerCommandsComplete_sent :
    let s := (((live.set .SYN_CH_TRIG_CFG_EN 0 1).set .SYN_CH_STATUS_ARMED 0 1).set .SYN_CH_H_AMODE 0 1).set .ING_LANE_STATUS_USMAS_STATE 0 2
    s.fireDue 0 = true ∧ s.get .SYN_CH_TRIG_CFG_DEST 0 = 0 ∧ s.get .ING_LANE_STATUS_USMAS_STATE (0 / 4) = 2 ∧
      s.on .SYN_CH_TRIG_CFG_INHIBIT 0 = false ∧ s.firesOf 0 = [] ∧ s.now < 2 ^ 63 := by decide +kernel

theorem witness_TriggerCommandsComplete_pulse :
    let s := live.set .SYN_H_PULSE 3 1
    s.on .SYN_H_PULSE 3 = true ∧ s.get .SYN_H_PEND 3 ≤ s.get .SYN_H_CLK ∧ live.on .SYN_H_PULSE 3 = false := by decide +kernel

theorem witness_TriggerCommandsComplete_pitch :
    live.gate dev .operator 9 = .ok ∧ live.gate ses .operator 9 = .ok ∧ live.pitchAllowed 0 1 = true ∧ live.pitchAllowed 0 0 = false := by decide +kernel

theorem witness_TriggerCommandsComplete_enable :
    live.gate dev .operator 9 = .ok ∧ live.gate ses .operator 9 = .ok ∧ live.on .SYN_CH_TRIG_CFG_EN 0 = false ∧
      (live.set .SYN_CH_TRIG_CFG_ARM 0 0).on .SYN_CH_TRIG_CFG_ARM 0 = false ∧ (live.set .SYN_CH_H_HASPITCH 0 1).on .SYN_CH_H_HASPITCH 0 = true := by decide +kernel

theorem witness_StripeCommandsComplete_dispatch :
    let s : State := { live with frames := [waitFrame], mem := [(bankBase 0 0 + 4, 1)] }
    let r : StripeRef := ⟨0, 0, 0, 0⟩
    let n : State := { s with pipe := { s.pipe with next := [(0, ⟨1, 0, 0, 0⟩)] } }
    s.noteEligible.takesWork 0 = true ∧ s.noteEligible.choose 0 = some (0, 0, r) ∧ s.noteEligible.get .PIPE_H_STATE 0 = 0 ∧
      s.noteEligible.pickPipe r = some 0 ∧ s.noteEligible.frame? r.ch r.seq ≠ none ∧
      (let u := s.set .PIPE_H_STATE 0 1
       u.noteEligible.takesWork 0 = true ∧ u.noteEligible.choose 0 = some (0, 0, r) ∧ u.noteEligible.get .PIPE_H_STATE 0 ≠ 0 ∧
       (u.noteEligible.pipe.next.any fun q => q.1 == 0) = false) ∧ live.noteEligible.choose 0 = none ∧
      (let u := n.set .PIPE_H_STATE 0 1
       u.noteEligible.takesWork 0 = true ∧ u.noteEligible.choose 0 = some (0, 0, r) ∧ u.noteEligible.get .PIPE_H_STATE 0 ≠ 0 ∧
       (u.noteEligible.pipe.next.any fun q => q.1 == 0) = true) := by decide +kernel

theorem witness_StripeCommandsComplete_complete :
    let s : State := { live with frames := [waitFrame], mem := [(bankBase 0 0 + 4, 1)], pipe := { live.pipe with running := [(0, ⟨0, 0, 0, 0⟩)] } }
    let r : StripeRef := ⟨0, 0, 0, 0⟩
    let g : State := { s with frames := [] }
    s.pipe.running.find? (fun q => q.1 == 0) = some (0, r) ∧ s.frame? r.ch r.seq ≠ none ∧ live.pipe.running.find? (fun q => q.1 == 0) = none ∧
      g.pipe.running.find? (fun q => q.1 == 0) = some (0, r) ∧ g.frame? r.ch r.seq = none := by decide +kernel

theorem witness_StripeCommandsComplete_release :
    let s : State := { live with frames := [{ waitFrame with lines := [⟨0, 0, 0, 1, 1, [5], .queue, true, []⟩] }], mem := [(bankBase 0 0 + 3, 16)], pipe := { live.pipe with running := [(0, ⟨0, 0, 0, 0⟩)] } }
    let r : StripeRef := ⟨0, 0, 0, 0⟩
    s.pipe.running.find? (fun q => q.1 == 0) = some (0, r) ∧ (match s.frame? r.ch r.seq with | some f => (s.stripeFrees f r.bank r.k).contains 0 | none => false) = true ∧ r.ch < 128 := by decide +kernel

theorem witness_StripeCommandsComplete_releaseCopy :
    let s : State := { live with frames := [{ waitFrame with lines := [⟨0, 0, 0, 1, 1, [5], .queue, true, []⟩] }], mem := [(bankBase 0 0 + 3, 16)], pipe := { live.pipe with copies := [(0, ⟨⟨0, 0, 0, 0⟩, true, 0⟩)] } }
    s.pipe.copies.find? (fun q => q.1 == 0) = some (0, ⟨⟨0, 0, 0, 0⟩, true, 0⟩) ∧ (match s.frame? 0 0 with | some f => (s.stripeFrees f 0 0).contains 0 | none => false) = true := by decide +kernel

theorem witness_StripeCommandsComplete_releaseIdle :
    live.pipe.running.find? (fun q => q.1 == 0) = none ∧ live.pipe.copies.find? (fun q => q.1 == 0) = none ∧ live.frame? 0 0 = none ∧
      ({ live with pipe := { live.pipe with running := [(0, ⟨0, 0, 0, 0⟩)], copies := [(0, ⟨⟨0, 0, 0, 0⟩, true, 0⟩)] } } : State).frame? 0 0 = none := by decide +kernel

theorem witness_StripeCommandsComplete_stored :
    let s : State := { live with frames := [{ waitFrame with exps := 2, lines := [⟨0, 0, 0, 1, 1, [5], .queue, false, []⟩] }] }
    (s.frames.find? (fun f => f.ch == 0 && f.work.bank.isSome && !f.work.classic && decide (0 + 1 < f.exps) &&
          f.lines.any fun l => l.exp == 0 && l.no == 0 && l.home == .queue)).isSome = true ∧
      live.frames.find? (fun f => f.ch == 0 && f.work.bank.isSome && !f.work.classic && decide (0 + 1 < f.exps) &&
          f.lines.any fun l => l.exp == 0 && l.no == 0 && l.home == .queue) = none := by decide +kernel

theorem witness_StripeCommandsComplete_hold :
    let s : State := ({ live with frames := [waitFrame] } : State).set .PIPE_SCH_CFG_HOLD_WM 0 0
    let f : State := { s with pipe := { s.pipe with holds := [⟨⟨1, 0, 0, 0⟩, false, 12 * 2 ^ 20 + 1, []⟩] } }
    let sp : State := ({ f with mem := [(bankBase 0 0 + 2, 8)] } : State).set .PIPE_SPILL_SIZE_SIZE_MIB 0 1
    let b : State := { f with frames := [{ waitFrame with work := { waitFrame.work with started := [7] } }] }
    s.noteEligible.get .PIPE_SCH_CFG_HOLD_WM ≤ s.noteEligible.get .ING_QUEUE_LEVEL_LEVEL 0 ∧
      (s.noteEligible.pipe.copies.any fun c => c.1 == 0) = false ∧ firstStripe (s.noteEligible.holdable 0) = some (0, 0, ⟨0, 0, 0, 0⟩) ∧
      s.noteEligible.storeBytesUsed false + s.noteEligible.stripeBytes ⟨0, 0, 0, 0⟩ ≤ 12 * 2 ^ 20 ∧
      live.noteEligible.get .ING_QUEUE_LEVEL_LEVEL 0 < live.noteEligible.get .PIPE_SCH_CFG_HOLD_WM ∧
      (∀ u ∈ [f, b], 12 * 2 ^ 20 < u.noteEligible.storeBytesUsed false + u.noteEligible.stripeBytes ⟨0, 0, 0, 0⟩ ∧ firstStripe (u.noteEligible.holdable 0) = some (0, 0, ⟨0, 0, 0, 0⟩)) ∧
      f.noteEligible.bankSpill 0 0 = false ∧ (f.noteEligible.victim 0).isSome = true ∧ b.noteEligible.victim 0 = none ∧ b.noteEligible.bankSpill 0 0 = false ∧
      sp.noteEligible.bankSpill 0 0 = true ∧ sp.noteEligible.storeBytesUsed true + sp.noteEligible.stripeBytes ⟨0, 0, 0, 0⟩ ≤ sp.noteEligible.get .PIPE_SPILL_SIZE_SIZE_MIB * 2 ^ 20 := by decide +kernel

theorem witness_StripeCommandsComplete_copyDone :
    let s (b : Bool) : State := { live with pipe := { live.pipe with copies := [(0, ⟨⟨0, 0, 0, 0⟩, b, 0⟩)] } }
    (s false).pipe.copies.find? (fun c => c.1 == 0 && c.2.spill == false) = some (0, ⟨⟨0, 0, 0, 0⟩, false, 0⟩) ∧
      (s true).pipe.copies.find? (fun c => c.1 == 0 && c.2.spill == true) = some (0, ⟨⟨0, 0, 0, 0⟩, true, 0⟩) ∧
      live.pipe.copies.find? (fun c => c.1 == 0 && c.2.spill == false) = none ∧ live.pipe.copies.find? (fun c => c.1 == 0 && c.2.spill == true) = none := by decide +kernel

theorem witness_FrameModeAndContextCommandsComplete_line :
    let s0 := (live.putBytes (bankBase 0 0 + 2) [1, 16, 1]).set .PIPE_H_BANK_STATE 0 2
    let f := { waitFrame with work := { waitFrame.work with bank := some 0 } }
    let s : State := { s0 with frames := [f] }
    s.holder 0 = some 0 ∧ s.heldFrame 0 0 = some f ∧ s.windowReady 0 f = true ∧ s.get .PIPE_H_STATE 0 = 0 ∧
      live.holder 0 = none ∧ s0.holder 0 = some 0 ∧ s0.heldFrame 0 0 = none ∧ (s.set .PIPE_H_STATE 0 1).get .PIPE_H_STATE 0 ≠ 0 := by decide +kernel

theorem witness_FrameModeAndContextCommandsComplete_write :
    live.gate dev .installer 99 = .ok ∧ live.gate ses .installer 99 = .ok ∧ live.bankState 0 1 = 0 ∧ (live.set .PIPE_H_BANK_STATE 0 1).bankState 0 0 ≠ 0 := by decide +kernel

theorem witness_FrameModeAndContextCommandsComplete_go :
    (∀ src ∈ [dev, ses], ctxReady.mayAs src .installer = true) ∧ ctxReady.ctxGoCheck 0 false = .ok := ⟨by decide +kernel, ctxReady_go⟩

theorem witness_FrameModeAndContextCommandsComplete_cancel :
    let s := live.set .PIPE_H_BANK_STATE (2 * 0 + live.commitBank 0) 1
    (∀ src ∈ [dev, ses], s.mayAs src .installer = true) ∧ s.ctxCancelCheck 0 = .ok := by decide +kernel

theorem witness_PipeControlAndReplayCommandsComplete_withdrawn :
    let s := live.set .PIPE_ROLL_STATUS_STATE 0 1
    s.get .PIPE_ROLL_STATUS_STATE = 1 ∧ s.get .PIPE_H_STATE (s.get .PIPE_ROLL_STATUS_PIPE) = 0 ∧
      (s.pipe.next.any fun q => q.1 == s.get .PIPE_ROLL_STATUS_PIPE) = false ∧ live.get .PIPE_ROLL_STATUS_STATE ≠ 1 := by decide +kernel

theorem witness_PipeControlAndReplayCommandsComplete_interval :
    let s := ((live.set .PIPE_ROLL_STATUS_STATE 0 3).set .PIPE_ROLL_CTRL_AUTO 0 1).set .SYN_H_CLK 0 (2 ^ 50)
    s.get .PIPE_ROLL_STATUS_STATE = 3 ∧ s.on .PIPE_ROLL_CTRL_AUTO = true ∧ s.get .BIST_H_ROLLT0 + s.rollGap ≤ s.elapsed ∧ live.get .PIPE_ROLL_STATUS_STATE ≠ 3 ∧
      (((List.range 8).map fun i => (s.get .PIPE_ROLL_STATUS_PIPE + 1 + i) % 8).find? s.rollable) = some 1 := by decide +kernel

theorem witness_PipeControlAndReplayCommandsComplete_fence :
    let s := live.set .PIPE_H_STATE 0 2
    (∀ src ∈ [dev, ses], s.gate src .installer 0 = .ok) ∧ shut.gate ses .installer 0 = .ok ∧ s.holder 0 = none ∧ s.get .PIPE_H_STATE 0 = 2 := by decide +kernel

theorem witness_PipeControlAndReplayCommandsComplete_done :
    let s := live.set .PIPE_CTRL_FENCE 0 1
    live.on .PIPE_CTRL_FENCE 0 = false ∧ s.on .PIPE_CTRL_FENCE 0 = true ∧ s.get .PIPE_H_STATE 0 = 0 ∧ (s.pipe.next.any fun q => q.1 == 0) = false := by decide +kernel

theorem witness_PipeControlAndReplayCommandsComplete_reset :
    (∀ src ∈ [dev, ses], live.gate src .installer 0 = .ok ∧ live.gate src .operator 0 = .ok) ∧ shut.gate ses .installer 0 = .ok := by decide +kernel

theorem witness_PipeControlAndReplayCommandsComplete_start :
    let s := (live.set .ING_PLAY_ADDR 0 0x1000000000)
    let u := s.set .ING_PLAY_STATUS_STATE 0 1
    s.gate ses .operator 8 = .ok ∧ s.playStartCheck 0 = .ok ∧ s.get .ING_PLAY_STATUS_STATE 0 = 0 ∧ u.get .ING_PLAY_STATUS_STATE 0 ≠ 0 ∧ u.playBusy 0 = false ∧
      ({ u with frames := [{ waitFrame with ch := 128, closed := false }] } : State).playBusy 0 = true := by decide +kernel

theorem witness_PipeControlAndReplayCommandsComplete_record :
    let u := (live.set .ING_PLAY_STATUS_STATE 0 1).set .MEM_STATUS_USABLE_GIB 0 64
    let s := u.set .ING_PLAY_ADDR 0 0x1000000000
    let v := s.putBytes 0x1000000020 [16, 0, 1, 0, 0x2A, 0, 0, 0, 16, 0, 0, 0]
    let w : State := u.set .ING_PLAY_ADDR 0 0
    s.get .ING_PLAY_STATUS_STATE 0 ≠ 0 ∧ v.playBusy 0 = false ∧ s.recAddr 0 0 = 0x1000000000 ∧ inDram 0x1000000000 64 = true ∧
      v.recOk 0x1000000000 = true ∧ (v.dramRead 0x1000000000 64).2.isSome = true ∧ s.recOk 0x1000000000 = false ∧ live.get .ING_PLAY_STATUS_STATE 0 = 0 ∧ inDram (w.recAddr 0 0) 64 = false := by decide +kernel

theorem witness_PipeControlAndReplayCommandsComplete_pace :
    let f := { waitFrame with ch := 128, closed := false }
    let s : State := { live with frames := [f] }
    f ∈ s.frames ∧ f.ch = 128 + 0 ∧ f.closed = false := by decide +kernel

theorem witness_RegisterCommandsComplete_refused :
    live.regWriteCheck 0x404 (1 % 2 ^ 32) ses ≠ .ok ∧ (live.set .BOOT_H_AWAY 0 1).regWriteCheck 0x30000 (2 ^ 16 % 2 ^ 32) dev ≠ .ok ∧ (2 ^ 16 % 2 ^ 32).testBit 16 = true ∧
      live.regWriteCheck 0x310000 0 dev = .ok ∧ live.regWriteCheck 0x350000 0 dev = .ok := by decide +kernel

theorem witness_RegisterCommandsComplete_write :
    let s := live.set .TSL_EVENTS_EV 0 5
    live.regWriteCheck 0x380448 (7 % 2 ^ 32) ses = .ok ∧ loStages 0x380448 = false ∧ live.regRecorded 0x380448 (7 % 2 ^ 32) ses = false ∧
      live.regWriteCheck 0x380404 (0x203 % 2 ^ 32) ses = .ok ∧ loStages 0x380404 = false ∧ live.regRecorded 0x380404 (0x203 % 2 ^ 32) ses = true ∧
      s.rwBits 0x380444 + (4 % 2 ^ 32 &&& stickyBits 0x380444) = 4 ∧ s.regWriteCheck 0x380444 4 ses = .ok ∧ loStages 0x380444 = false ∧
      s.regRecorded 0x380444 4 ses = false := by decide +kernel

theorem witness_RegisterCommandsComplete_queued :
    live.regWriteCheck 0x380404 (0x203 % 2 ^ 32) ses = .ok ∧ loStages 0x380404 = false ∧ live.regRecorded 0x380404 (0x203 % 2 ^ 32) ses = true ∧
      live.roleOf ses ≠ .device ∧ live.auditClosed = false ∧ shut.auditClosed = true ∧ shut.roleOf ses ≠ .device ∧
      shut.regWriteCheck 0x380404 (0x203 % 2 ^ 32) ses = .ok ∧ shut.regRecorded 0x380404 (0x203 % 2 ^ 32) ses = true ∧
      live.roleOf dev = .device ∧ live.regWriteCheck 0x380404 (0x203 % 2 ^ 32) dev = .ok ∧ live.regRecorded 0x380404 (0x203 % 2 ^ 32) dev = true := by decide +kernel

theorem witness_RegisterCommandsComplete_stage :
    live.regWriteCheck 0x148000 (64 % 2 ^ 32) ses = .ok ∧ loStages 0x148000 = true ∧ live.regWriteCheck 0x440010 (5 % 2 ^ 32) ses = .ok := by decide +kernel

theorem witness_RegisterCommandsComplete_latch :
    live.regReach 0x180014 false = .ok ∧ live.roleOf ses ≠ .none ∧ live.upperHalf 0x180014 = some 0 ∧
      (live.set .BOOT_H_AWAY 0 1).regReach 0x404 false ≠ .ok ∧ live.roleOf ⟨.i3c, 9⟩ = .none ∧ openRead 0x180014 = false ∧ live.upperHalf 0x380448 = none ∧ live.regReach 0x380448 false = .ok := by decide +kernel

theorem witness_RegisterCommandsComplete_resetDone :
    (live.set .PIPE_H_STATE 0 4).get .PIPE_H_STATE 0 = 4 ∧ live.get .PIPE_H_STATE 1 ≠ 4 := by decide +kernel

theorem witness_BridgeWindowCommandsComplete_commit :
    let s := live.winStage 0 0x1000000000 (1 + 20 * 2 ^ 14)
    (∀ src ∈ [dev, ses], s.gate src .installer 14 = .ok ∧ s.settingsBusy src = false) ∧ winOk (s.winStaged 0).1 (s.winStaged 0).2 = true ∧ s.winFree 0 = true ∧
      (let u : State := { s with brg := { s.brg with slots := pieceSt.brg.slots } }; u.winFree 0 = false ∧ winOk (u.winStaged 0).1 (u.winStaged 0).2 = true ∧ u.gate dev .installer 14 = .ok ∧ u.settingsBusy dev = false) := by decide +kernel

theorem witness_BridgeWindowCommandsComplete_apply :
    let s := live.set .BRG_WIN_STATUS_PENDING 0 1
    s.get .BRG_WIN_STATUS_PENDING 0 = 1 ∧ s.winFree 0 = true ∧ live.on .BRG_WIN_STATUS_PENDING 0 = false := by decide +kernel

theorem witness_BridgeWindowCommandsComplete_fence :
    let s := live.set .BRG_CTRL_FENCE 0 1
    live.gate dev .installer 14 = .ok ∧ live.gate ses .installer 14 = .ok ∧ shut.gate ses .installer 14 = .ok ∧ s.on .BRG_CTRL_FENCE = true ∧ s.brg.slots = [] ∧ s.brg.wait = [] ∧ live.on .BRG_CTRL_FENCE = false := by decide +kernel

theorem witness_BridgeWindowCommandsComplete_reset :
    live.gate dev .installer 14 = .ok ∧ live.gate ses .installer 14 = .ok ∧ shut.gate ses .installer 14 = .ok := by decide +kernel

theorem witness_BridgeMessageCommandsComplete_packets :
    let s := (live.set .EGR_QP_CFG_CTRL 0 1).set .EGR_QP_STATUS_STATE 0 1
    let m := [1, 1, 0, 0, 0, 0, 0, 0, 1, 0, 0, 0, 5, 0, 0, 0]
    let u : State := { s with egr := { s.egr with parts := [(0, [1, 1, 0, 0])] } }
    s.ctlReady 0 = true ∧ (s.countCe 0 false).sendFrame 0 m.length ≤ 9216 ∧ m.length ≤ (s.countCe 0 false).qpMtu 0 ∧ m.getD 0 0 = 1 ∧ live.ctlReady 0 = false ∧
      9216 < (s.countCe 0 false).sendFrame 0 9200 ∧ (s.countCe 0 false).qpMtu 0 < 9000 ∧ (s.countCe 0 false).sendFrame 0 9000 ≤ 9216 ∧
      (u.countCe 0 false).partsOf 0 = some [1, 1, 0, 0] ∧ (s.countCe 0 false).partsOf 0 = none := by decide +kernel

theorem witness_BridgeMessageCommandsComplete_credit :
    let s := (live.set .EGR_QP_CFG_CTRL 0 1).set .EGR_QP_STATUS_STATE 0 1
    let m := [1, 1, 0, 0, 0, 0, 0, 0, 1, 0, 0, 0, 5, 0, 0, 0]
    s.ctlReady 0 = true ∧ (s.countCe 0 false).sendFrame 0 m.length ≤ 9216 ∧ m.length ≤ (s.countCe 0 false).qpMtu 0 ∧ m.getD 0 0 = 1 ∧ messageFormed m = true ∧
      messageFormed (m.take 12) = false ∧ (m.take 12).getD 0 0 = 1 := by decide +kernel

theorem witness_BridgeMessageCommandsComplete_access :
    (let m := [0x10] ++ List.replicate 7 0; let n := [0x10] ++ List.replicate 63 0; let v := (accessSt.countCe 0 false).completeMsg 0
     accessSt.ctlReady 0 = true ∧ (accessSt.countCe 0 false).sendFrame 0 8 ≤ 9216 ∧ 8 ≤ (accessSt.countCe 0 false).qpMtu 0 ∧ m.getD 0 0 = 0x10 ∧ messageFormed m = false ∧
     n.getD 0 0 = 0x10 ∧ messageFormed n = true ∧ v.authCheck n = .discard) ∧
      (accessSt.ctlReady 0 = true ∧ accessMsg.getD 0 0 = 0x10) ∧ messageFormed accessMsg = true ∧ (accessSt.received 0).authCheck accessMsg = .accept ∧
      (accessSt.received 0).admitAccess ((accessSt.received 0).requestOf 0 accessMsg) (leAt accessMsg 20 8) = .ok := ⟨by decide +kernel, accessMsg_ok⟩

theorem witness_BridgeMessageCommandsComplete_command :
    let s := (live.set .EGR_QP_CFG_CTRL 0 1).set .EGR_QP_STATUS_STATE 0 1
    let m := [0x20, 0x20, 0, 0] ++ List.replicate 12 0 ++ [1] ++ List.replicate 11 0 ++ [4, 0, 0, 0] ++ [0, 0, 0, 0] ++ List.replicate 32 0
    let n := [0x20, 0x20, 0, 0] ++ List.replicate 12 0 ++ [1] ++ List.replicate 11 0 ++ [8, 0, 0, 0] ++ [0, 0, 0, 0, 0, 0, 0, 0] ++ List.replicate 32 0
    let d := [0x20, 0x20, 5, 0] ++ m.drop 4
    let v := (s.countCe 0 false).completeMsg 0
    let r := ((s.set .PWR_H_RESETTING 14 1).countCe 0 false).completeMsg 0
    s.ctlReady 0 = true ∧ (s.countCe 0 false).sendFrame 0 m.length ≤ 9216 ∧ m.length ≤ (s.countCe 0 false).qpMtu 0 ∧ m.getD 0 0 = 0x20 ∧ messageFormed m = true ∧
      v.authCheck m = .accept ∧ v.unitDown 14 = false ∧ v.commandCheck m = .ok ∧ messageFormed (m.take 20) = false ∧ v.authCheck d = .discard ∧ messageFormed d = true ∧
      v.authCheck n = .accept ∧ v.commandCheck n ≠ .ok ∧ messageFormed n = true ∧ r.unitDown 14 = true ∧ r.authCheck m = .accept := by decide +kernel

theorem witness_BridgeMessageCommandsComplete_piece :
    (pieceSt.openPiece 0 0x380404).isSome = true ∧ pieceSt.get .BRG_TIMEOUT_BRG_TIMEOUT_US * 1000 ≤ pieceSt.elapsed ∧
      (match (pieceSt.set .SYN_H_CLK 0 0).openPiece 0 0x380404 with | some (_, p) => decide ((pieceSt.set .SYN_H_CLK 0 0).elapsed < p.issued.getD 0 + pieceSt.get .BRG_TIMEOUT_BRG_TIMEOUT_US * 1000) | none => false) = true := by decide +kernel

theorem witness_BridgeMessageCommandsComplete_late :
    live.openPiece 0 0 = none ∧ live.brg.late.find? (fun e => e.slot == 0 && e.addr == 0) = none ∧
      (let u : State := { live with brg := { live.brg with late := (match pieceSt.openPiece 0 0x380404 with | some (r, p) => [lateOf 0 r p false] | none => []) } }
       u.openPiece 0 0x380404 = none ∧ (u.brg.late.find? (fun e => e.slot == 0 && e.addr == 0x380404)).isSome = true) := by decide +kernel

theorem witness_BridgeMessageCommandsComplete_expiry :
    let s : State := { live.set .SYN_H_CLK 0 200000000 with brg := { live.brg with ahead := [(3, ⟨0, 1, 0, []⟩)] } }
    s.brg.ahead.find? (fun e => e.1 == 3) = some (3, ⟨0, 1, 0, []⟩) ∧ 0 + 100000 ≤ s.elapsed ∧ live.brg.ahead.find? (fun e => e.1 == 3) = none ∧ live.elapsed < 0 + 100000 := by decide +kernel

theorem witness_AuditAndTestCommandsComplete_durable :
    let q : AuditItem := ⟨live.auditRec ses 1 1 0 noValue noValue, ses, none, false⟩
    let s : State := { live with sec := { live.sec with queue := [q] } }
    s.canRecord = true ∧ s.sec.queue = [q] ∧ shut.canRecord = false := by decide +kernel

theorem witness_AuditAndTestCommandsComplete_run :
    let s := live.set .PIPE_H_STATE 0 2
    (∀ src ∈ [dev, ses], s.fwGate src .operator noUnit = .ok) ∧ shut.fwGate ses .operator noUnit = .ok ∧ s.bistCheck 0 1 = .ok ∧ (0 : Nat) < 4 ∧ live.bistCheck 18 1 = .ok := by decide +kernel

theorem witness_AuditAndTestCommandsComplete_stop :
    let s := live.set .BIST_STATUS_STATE 0 1
    (∀ src ∈ [dev, ses], s.fwGate src .operator noUnit = .ok) ∧ s.get .BIST_STATUS_STATE ≠ 0 := by decide +kernel

theorem witness_AuditAndTestCommandsComplete_result :
    live.fwGate ses .operator noUnit = .ok := by decide +kernel

theorem witness_AuditAndTestCommandsComplete_testEnd :
    let u := (live.set .PIPE_ROLL_STATUS_STATE 0 2).set .BIST_H_UNIT 0 3
    let s := u.set .SYN_H_CLK 0 6000000000
    s.get .PIPE_ROLL_STATUS_STATE = 2 ∧ s.get .BIST_H_ROLLT0 + 4600000000 ≤ s.elapsed ∧ s.get .BIST_H_UNIT ≠ 63 ∧ s.get .BIST_H_T0 + 4600000000 ≤ s.elapsed ∧
      u.get .PIPE_ROLL_STATUS_STATE = 2 ∧ u.elapsed < u.get .BIST_H_ROLLT0 + 4600000000 ∧ u.elapsed < u.get .BIST_H_T0 + 4600000000 ∧
      live.get .PIPE_ROLL_STATUS_STATE ≠ 2 ∧ live.get .BIST_H_UNIT = 63 := by decide +kernel

theorem witness_AuditAndTestCommandsComplete_rollStop :
    live.gate ses .operator noUnit = .ok ∧ (live.set .PIPE_ROLL_STATUS_STATE 0 2).gate ses .operator noUnit = .ok ∧ (live.set .PIPE_ROLL_STATUS_STATE 0 2).get .PIPE_ROLL_STATUS_STATE = 2 ∧
      (live.set .PIPE_ROLL_STATUS_STATE 0 1).gate ses .operator noUnit = .ok ∧ (live.set .PIPE_ROLL_STATUS_STATE 0 1).get .PIPE_ROLL_STATUS_STATE = 1 ∧ live.get .PIPE_ROLL_STATUS_STATE ≠ 1 ∧ live.get .PIPE_ROLL_STATUS_STATE ≠ 2 := by decide +kernel

theorem witness_AuditAndTestCommandsComplete_sleep :
    let s := (live.set .PWR_H_STATE 0 1).set .PWR_H_DRAINED 0 1
    s.get .PWR_H_STATE = 1 ∧ s.on .PWR_H_DRAINED = true ∧ s.pipe.running = [] ∧ (s.resetQps.sleepStore (noData false) (noData true)).get .PWR_H_STATE = 1 ∧ live.get .PWR_H_STATE ≠ 1 := by decide +kernel

theorem witness_MemoryTransactionsComplete_arrive :
    let s := live.set .MEM_STATUS_USABLE_GIB 0 16
    s.memCheck 22 dev 0x1040000000 32 true = .ok ∧ s.memq = [] ∧ s.memCheck 255 dev 4096 32 true ≠ .ok := by decide +kernel

theorem witness_MemoryTransactionsComplete_write :
    let s := live.set .MEM_STATUS_USABLE_GIB 0 16
    s.memCheck 22 dev 0x1040000000 32 true = .ok ∧ s.memq = [] ∧ (List.replicate 32 7).length = 32 := by decide +kernel

theorem witness_MemoryTransactionsComplete_read :
    let s := live.set .MEM_STATUS_USABLE_GIB 0 16
    s.memCheck 255 dev 0x1040000000 32 false = .ok ∧ s.memq = [] ∧ s.badIn 0x1040000000 32 = [] ∧ s.memCheck 255 dev 4096 32 true ≠ .ok := by decide +kernel

theorem witness_MemoryControlCommandsComplete_promote :
    let r : MemReq := ⟨22, 0, dev, 2, 0x1040000000, 32, none, 0, false⟩
    let s : State := { live.set .SYN_H_CLK 0 30000 with memq := [r] }
    s.memq[0]? = some r ∧ r.born + 20000 ≤ s.elapsed ∧ ({ live with memq := [r] } : State).elapsed < r.born + 20000 := by decide +kernel

theorem witness_MemoryControlCommandsComplete_poll :
    live.on .MEM_H_SELF = false ∧ (0 : Nat) < 16 ∧ (live.set .MEM_H_SELF 0 1).on .MEM_H_SELF = true := by decide +kernel

theorem witness_MemoryControlCommandsComplete_refresh :
    live.on .MEM_H_SELF = false ∧ (live.set .MEM_H_SELF 0 1).on .MEM_H_SELF = true := by decide +kernel

theorem witness_MemoryControlCommandsComplete_fence :
    (∀ src ∈ [dev, ses], live.gate src .installer 16 = .ok) ∧ shut.gate ses .installer 16 = .ok ∧ live.memNeeded = false ∧ (live.set .MEM_CTRL_FENCE 0 1).on .MEM_CTRL_FENCE = true ∧
      (∀ r ∈ (live.set .MEM_CTRL_FENCE 0 1).memq, isMgt r.blk r.src = true) ∧ live.on .MEM_CTRL_FENCE = false := by decide +kernel

theorem witness_MemoryControlCommandsComplete_reset :
    let s := (live.set .MEM_CTRL_FENCED 0 1)
    (∀ src ∈ [dev, ses], s.gate src .installer 16 = .ok ∧ s.gate src .operator 16 = .ok) ∧ s.get .MEM_CTRL_FENCED = 1 ∧ (live.set .PWR_H_RESETTING 16 1).on .PWR_H_RESETTING 16 = true ∧ live.on .PWR_H_RESETTING 16 = false := by decide +kernel

theorem witness_CodecCommandsComplete_commit :
    let s := (live.set .TSL_LIMITS_NEAR_CAP 0 15).set .TSL_PROF_THR_LO_THR 3 0x40404040
    let s := s.set .TSL_PROF_THR_HI_THR 3 0x404040
    (∀ src ∈ [dev, ses], s.gate src .installer 12 = .ok) ∧ s.profOk 3 = true := by decide +kernel

theorem witness_CodecCommandsComplete_refuse :
    let s := live.set .TSL_PROF_CTRL_CLASS 3 3
    s.gate ses .installer 12 = .ok ∧ s.profOk 3 = false := by decide +kernel

theorem witness_CodecCommandsComplete_done :
    let q : Product := aProduct
    let s : State := { live with products := [q, { q with bypass := true, stream := 2 }] }
    s.products[0]? = some q ∧ q.whole = true ∧ q.bypass = false ∧ ∃ r, s.products[1]? = some r ∧ r.bypass = true := by decide +kernel

theorem witness_CodecCommandsComplete_notDone :
    let s : State := { live with products := [aProduct, aProduct] }
    (s.products.take 1).any (fun e => e.whole && e.stream == aProduct.stream && e.copy == aProduct.copy) = true ∧ s.products[1]? = some aProduct := by decide +kernel

theorem witness_CodecCommandsComplete_fence :
    (∀ src ∈ [dev, ses], live.gate src .installer 12 = .ok) ∧ (live.set .TSL_CTRL_FENCE 0 1).on .TSL_CTRL_FENCE = true ∧ live.products = [] ∧ live.on .TSL_CTRL_FENCE = false := by decide +kernel

theorem witness_CodecCommandsComplete_reset :
    (∀ src ∈ [dev, ses], live.gate src .installer 12 = .ok ∧ live.gate src .operator 12 = .ok) := by decide +kernel

theorem witness_BootAndUpdateCommandsComplete_read :
    let s := State.reset
    s.get .BOOT_STATUS_STATE = 0 ∧ s.get .BOOT_H_PASSED = 0 ∧ s.get .PWR_H_HELD = 0 := by decide +kernel

theorem witness_BootAndUpdateCommandsComplete_noNor :
    let s := State.reset
    s.get .BOOT_STATUS_STATE = 0 ∧ s.get .BOOT_H_PASSED = 0 ∧ s.get .PWR_H_HELD = 0 ∧ live.get .BOOT_STATUS_STATE ≠ 0 := by decide +kernel

theorem witness_BootAndUpdateCommandsComplete_start :
    let s := State.reset.set .BOOT_H_PASSED 0 1
    s.get .BOOT_STATUS_STATE = 0 ∧ s.on .BOOT_H_PASSED = true ∧ s.on .SEC_STATUS_WIPE_PENDING = false := by decide +kernel

theorem witness_BootAndUpdateCommandsComplete_resume :
    let s := (State.reset.set .BOOT_H_PASSED 0 1).set .SEC_STATUS_WIPE_PENDING 0 1
    s.get .BOOT_STATUS_STATE = 0 ∧ s.on .BOOT_H_PASSED = true ∧ s.on .SEC_STATUS_WIPE_PENDING = true ∧ live.get .BOOT_STATUS_STATE ≠ 0 := by decide +kernel

theorem witness_BootAndUpdateCommandsComplete_update :
    let s := live.set .MEM_STAGE_SIZE_SIZE_MIB 0 64
    (∀ src ∈ [dev, ses], s.fwGate src .maker 18 = .ok) ∧ s.inStaging (s.get .MEM_STAGE_BASE) 65536 = true ∧ s.updateOk = true := by decide +kernel

theorem witness_BootAndUpdateCommandsComplete_verified :
    (live.set .BOOT_UPD_STATUS_UPD_STATE 0 1).updState = 1 := by decide +kernel

theorem witness_BootAndUpdateCommandsComplete_programmed :
    (live.set .BOOT_UPD_STATUS_UPD_STATE 0 2).updState = 2 := by decide +kernel

theorem witness_BootAndUpdateCommandsComplete_readback :
    (live.set .BOOT_UPD_STATUS_UPD_STATE 0 3).updState = 3 := by decide +kernel

theorem witness_BootAndUpdateCommandsComplete_idle :
    live.updState = 0 := by decide +kernel

theorem witness_BootAndUpdateCommandsComplete_activate :
    let s := live.set .BOOT_UPD_STATUS_UPD_STATE 0 4
    (∀ src ∈ [dev, ses], s.fwGate src .maker 18 = .ok) ∧ s.updState = 4 := by decide +kernel

theorem witness_TrialAndManagementRestartComplete_confirm :
    let s := live.set .BOOT_STATUS_TRIAL 0 1
    s.fwGate dev .device 18 = .ok ∧ s.confirmOk = true := by decide +kernel

theorem witness_TrialAndManagementRestartComplete_timeout :
    let s := ((live.set .BOOT_UPD_STATUS_UPD_STATE 0 5).set .BOOT_CTRL_CONFIRM_S 0 1).set .SYN_H_CLK 0 2000000000
    s.updState = 5 ∧ s.on .BOOT_H_AWAY = false ∧ s.get .BOOT_H_STARTED + s.get .BOOT_CTRL_CONFIRM_S * 1000000000 ≤ s.elapsed := by decide +kernel

theorem witness_TrialAndManagementRestartComplete_back :
    let s := (live.set .BOOT_H_AWAY 0 1).set .BOOT_H_RESTARTING 0 1
    s.on .BOOT_H_RESTARTING = true ∧ s.inTest 18 = false ∧ s.get .PWR_H_STATE = 0 ∧ s.on .BOOT_H_FROMNOR = false := by decide +kernel

theorem witness_TrialAndManagementRestartComplete_backNor :
    let s := ((live.set .BOOT_H_AWAY 0 1).set .BOOT_H_RESTARTING 0 1).set .BOOT_H_FROMNOR 0 1
    s.on .BOOT_H_RESTARTING = true ∧ s.inTest 18 = false ∧ s.get .PWR_H_STATE = 0 ∧ s.on .BOOT_H_FROMNOR = true := by decide +kernel

theorem witness_TrialAndManagementRestartComplete_notBack :
    live.on .BOOT_H_RESTARTING = false := by decide +kernel

theorem witness_JobSelectionCommandsComplete_strobe :
    let s := withHamper
    s.get .PWR_H_STATE = 0 ∧ s.get .BOOT_STATUS_STATE ≠ 2 ∧ s.isFollower = false ∧ s.mgtAbsent = false ∧ s.selHeld = false ∧ s.hamper? (s.jobEntry 3).hamper = some jobHamper ∧ s.nextState = 0 ∧ s.jobRuns = false ∧ s.on .JOB_STATUS_DRAINING = false ∧ hamperJob jobHamper.image ≠ 0 := by decide +kernel

theorem witness_JobSelectionCommandsComplete_outcomes :
    let s := withHamper
    let t := (s.set .JOB_STATUS_CUR_STATE 0 1).set .JOB_IDS_CUR_ID 0 (hamperJob jobHamper.image)
    s.hamper? (s.jobEntry 3).hamper = some jobHamper ∧ s.hamper? (s.jobEntry 5).hamper = none ∧ t.jobRuns = true ∧ hamperJob jobHamper.image = t.get .JOB_IDS_CUR_ID := by decide +kernel

theorem witness_JobSelectionCommandsComplete_unserved :
    let s := withHamper.set .JOB_STATUS_ROLE 0 2
    s.isFollower = true ∧ (live.set .PWR_H_STATE 0 1).get .PWR_H_STATE = 1 ∧ live.isFollower = false ∧ (live.set .BOOT_H_AWAY 0 1).mgtAbsent = true := by decide +kernel

theorem witness_JobSelectionCommandsComplete_drain :
    let s := live.set .JOB_STATUS_DRAINING 0 1
    s.on .JOB_STATUS_DRAINING = true ∧ s.draining = false ∧ s.on .JOB_SEL_LATCH_VALID = false ∧ live.on .JOB_STATUS_DRAINING = false := by decide +kernel

theorem witness_JobSelectionCommandsComplete_start :
    let s := withHamper
    s.isFollower = false ∧ s.mgtAbsent = false ∧ ((List.range 256).find? fun j => (s.jobEntry j).start) = some 3 ∧ ((List.range 256).find? fun j => (live.jobEntry j).start) = none := by decide +kernel

theorem witness_JobSelectionCommandsComplete_select :
    let s := withHamper
    (∀ src ∈ [dev, ses], s.jobGate src true = .ok) ∧ s.hamper? (s.jobEntry 3).hamper = some jobHamper ∧ hamperJob jobHamper.image ≠ 0 := by decide +kernel

theorem witness_JobSelectionCommandsComplete_load :
    let s := withHamper
    (∀ src ∈ [dev, ses], s.jobGate src true = .ok) ∧ s.loadCheck 7 = .ok ∧ s.hamper? 7 = some jobHamper := by decide +kernel

theorem witness_JobSelectionCommandsComplete_loaded :
    let s := (withHamper.set .JOB_STATUS_NEXT_STATE 0 1).set .JOB_HAMPERS_NEXT_HAMPER 0 7
    s.nextState = 1 ∧ s.hamper? (s.get .JOB_HAMPERS_NEXT_HAMPER) = some jobHamper ∧ jobHamper.damaged = false := by decide +kernel

theorem witness_JobSelectionCommandsComplete_unreadable :
    let s := (withHamper.set .JOB_STATUS_NEXT_STATE 0 1).set .JOB_HAMPERS_NEXT_HAMPER 0 7
    s.nextState = 1 ∧ s.hamper? (s.get .JOB_HAMPERS_NEXT_HAMPER) = some jobHamper ∧ live.nextState ≠ 1 := by decide +kernel

theorem witness_JobArmingCommandsComplete_arm :
    let s := loadedStop
    (∀ src ∈ [dev, ses], s.jobGate src false = .ok) ∧ s.isFollower = false ∧ s.isLeader = false ∧ (s.armNext 1 false s.now).2 = .ok := by decide +kernel

theorem witness_JobArmingCommandsComplete_forms :
    let s := loadedStop.set .SYN_MARK_CFG_EN 1 1
    let r := live.set .JOB_STATUS_CUR_STATE 0 1
    (∀ src ∈ [dev, ses], s.jobGate src false = .ok) ∧ s.isFollower = false ∧ (s.armNext 1 false s.now).2 = .ok ∧ (s.armCommand 1 false).2 = .ok ∧ (s.armNext 0 true s.now).2 = .ok ∧ ((r.set .SYN_MARK_CFG_EN 1 1).stopArm 1 false).2 = .ok := by decide +kernel

theorem witness_JobArmingCommandsComplete_cancel :
    let s := loadedStop
    (∀ src ∈ [dev, ses], s.jobGate src false = .ok) ∧ s.isFollower = false ∧ s.isLeader = false ∧ s.nextState ≠ 0 ∧ s.roleOf dev = .device := by decide +kernel

theorem witness_JobArmingCommandsComplete_stop :
    let s := (live.set .JOB_STATUS_CUR_STATE 0 1).set .SYN_MARK_CFG_EN 1 1
    (∀ src ∈ [dev, ses], s.jobGate src false = .ok) ∧ s.isFollower = false ∧ s.isLeader = false ∧ s.jobRuns = true ∧ s.nextState = 0 ∧ (s.loadStop.armNext 1 false s.now).2 = .ok := by decide +kernel

theorem witness_JobArmingCommandsComplete_query :
    live.jobGate ses false = .ok := by decide +kernel

theorem witness_JobArmingCommandsComplete_ctrl :
    let s := loadedStop
    s.roleOf dev = .device ∧ s.nextState = 2 ∧ (s.armNext 1 false (s.get .JOB_ARM_TIME)).2 = .ok ∧ s.nextState ≠ 3 := by decide +kernel

theorem witness_JobArmingCommandsComplete_roll :
    live.mayAs ses .operator = true ∧ live.rollPipe = none ∧ live.rollable 2 = true ∧ live.inTest 2 = false ∧ live.rollAdmit 2 = none := by decide +kernel

theorem witness_JobArmingCommandsComplete_rollNot :
    live.mayAs ⟨.i3c, 9⟩ .operator = false ∧ live.mayAs ses .operator = true ∧ (live.set .PIPE_ROLL_STATUS_STATE 0 1).rollPipe.isSome = true ∧ live.rollPipe = none := by decide +kernel

theorem witness_JobMessagesComplete_messages :
    let s := withHamper.set .JOB_STATUS_ROLE 0 2
    let l := loadedStop.set .JOB_STATUS_ROLE 0 2
    s.msgGate 5 = .ok ∧ s.selHeld = false ∧ (s.prepareJob 1 9 7).2 = .ok ∧ l.msgGate 5 = .ok ∧ l.nextState ≠ 0 ∧ (l.armNext 1 false 100000).2 = .ok := by decide +kernel

theorem witness_JobMessagesComplete_unable :
    let s := withHamper.set .JOB_STATUS_ROLE 0 2
    s.msgGate 5 = .ok ∧ s.selHeld = false ∧ (s.prepareJob 1 9 8).2 = .range ∧ s.now = 0 ∧ s.get .JOB_IDS_NEXT_ID ≠ 3 ∧ s.jobRuns = false ∧ s.nextState = 0 := by decide +kernel

theorem witness_JobMessagesComplete_held :
    let s := (withHamper.set .JOB_STATUS_ROLE 0 2).set .BOOT_H_AWAY 0 1
    s.msgGate 5 = .busy ∧ s.msgLatches 5 = true ∧ live.msgGate 5 = .rights ∧ live.msgLatches 5 = false := by decide +kernel

theorem witness_JobMessagesComplete_leader :
    let s := { live.set .JOB_STATUS_ROLE 0 1 with job := { live.job with peers := [⟨5, 1, 0, 0, true, none⟩, ⟨6, 2, 0, 0, true, none⟩] } }
    let t := s.set .JOB_STATUS_NEXT_STATE 0 3
    s.isLeader = true ∧ s.nextState ≠ 3 ∧ (s.job.peers.any fun p => p.op == 1 && p.answer != some .ok) = true ∧ t.nextState = 3 ∧ t.get .JOB_ARM_TIME < t.now + 1000000 ∧ (t.job.peers.any fun p => p.op == 2 && p.answer != some .ok) = true := by decide +kernel

theorem witness_JobMessagesComplete_quiet :
    live.isLeader = false ∧ live.nextState ≠ 3 := by decide +kernel

theorem witness_ResetAndPowerCommandsComplete_on :
    live.get .PWR_H_TRIP = 0 ∧ live.get .PWR_H_OFF = 0 := by decide +kernel

theorem witness_ResetAndPowerCommandsComplete_tripped :
    let s := live.set .PWR_H_TRIP 0 1
    let f := s.set .PWR_THERM_STATUS_MAX 0 100
    s.on .PWR_H_TRIP = true ∧ 95 < toSigned 8 (100 % 2 ^ Fld.PWR_THERM_STATUS_MAX.width) ∧ ¬ 95 < toSigned 8 (60 % 2 ^ Fld.PWR_THERM_STATUS_MAX.width) ∧ s.on .PWR_H_OFF = false ∧ ¬ 95 < s.maxTemp ∧ 95 < f.maxTemp := by decide +kernel

theorem witness_ResetAndPowerCommandsComplete_loss :
    Fld.PWR_ALARM ∈ thermosFields := by decide +kernel

theorem witness_ResetAndPowerCommandsComplete_restart :
    live.mgtRuns = true ∧ (∀ src ∈ [dev, ses], live.gate src .maker noUnit = .ok) := by decide +kernel

theorem witness_ResetAndPowerCommandsComplete_still :
    State.reset.mgtRuns = false ∧ live.tripDue = false := by decide +kernel

theorem witness_ResetAndPowerCommandsComplete_commands :
    live.get .SEC_FUSE_UID = 0 ∧ ∀ src ∈ [dev, ses], live.fwGate src .operator noUnit = .ok ∧ live.fwGate src .installer noUnit = .ok ∧ live.fwGate src .maker noUnit = .ok ∧ live.gate src .operator noUnit = .ok := by decide +kernel

theorem witness_ResetAndPowerCommandsComplete_temperature :
    let s := live.set .PWR_THERM_STATUS_MAX 0 115
    s.get .PWR_H_HELD = 0 ∧ s.get .PWR_H_OFF = 0 ∧ s.tripDue = true := by decide +kernel

theorem witness_SleepAndWakeCommandsComplete_sleep :
    live.sleepBarred = false ∧ live.fwGate ses .installer noUnit = .ok ∧ live.gate dev .device noUnit = .ok := by decide +kernel

theorem witness_SleepAndWakeCommandsComplete_drain :
    let s := (live.set .PWR_H_STATE 0 1).set .SYN_H_CLK 0 2000000000
    s.get .PWR_H_STATE = 1 ∧ s.on .PWR_H_DRAINED = false ∧ s.planeEmpty = true ∧ s.get .PWR_H_ENTERT + s.get .PWR_CFG_DRAIN_MS * 1000000 ≤ s.elapsed := by decide +kernel

theorem witness_SleepAndWakeCommandsComplete_noDrain :
    live.get .PWR_H_STATE ≠ 1 := by decide +kernel

theorem witness_SleepAndWakeCommandsComplete_wake :
    let s := (((live.set .PWR_H_STATE 0 2).set .PWR_CFG_WAKE_EN 0 15).set .PWR_ALARM 0 1).set .LANE_ID_ROLE 44 3
    s.get .PWR_H_STATE = 2 ∧ (∀ k ∈ [0, 1, 2, 3], s.bit .PWR_CFG_WAKE_EN 0 k = true) ∧ s.get .LANE_ID_ROLE 44 = 3 ∧ s.get .FAB_PORT_STATUS_VER (lanePort 44) ≠ 1 ∧ s.get .PWR_ALARM ≠ 0 ∧ s.get .PWR_ALARM ≤ (s.rtcAdvance 40000).get .PWR_RTC_SEC := by decide +kernel

theorem witness_SleepAndWakeCommandsComplete_latch :
    let s := ((((live.set .PWR_H_STATE 0 1).set .PWR_CFG_WAKE_EN 0 15).set .PWR_ALARM 0 1).set .LANE_ID_ROLE 44 3).set .PWR_H_LATCHED 0 16
    s.get .PWR_H_STATE = 1 ∧ s.get .PWR_H_LATCHED = 16 ∧ (∀ k ∈ [0, 1, 2, 3], s.bit .PWR_CFG_WAKE_EN 0 k = true) ∧ s.get .LANE_ID_ROLE 44 = 3 ∧ s.get .FAB_PORT_STATUS_VER (lanePort 44) ≠ 1 ∧ s.get .PWR_ALARM ≠ 0 ∧ s.get .PWR_ALARM ≤ (s.rtcAdvance 40000).get .PWR_RTC_SEC := by decide +kernel

theorem witness_SleepAndWakeCommandsComplete_awake :
    live.get .PWR_H_STATE = 0 ∧ (live.set .PWR_H_STATE 0 2).bit .PWR_CFG_WAKE_EN 0 1 = true ∧ ((live.set .PWR_H_STATE 0 2).set .PWR_CFG_WAKE_EN 0 1).bit .PWR_CFG_WAKE_EN 0 1 = false ∧ live.get .LANE_ID_ROLE 44 ≠ 3 ∧ live.get .PWR_ALARM = 0 := by decide +kernel

theorem witness_SleepAndWakeCommandsComplete_done :
    let s := (live.set .PWR_H_STATE 0 3).set .SYN_H_CLK 0 2000000000
    s.get .PWR_H_STATE = 3 ∧ s.wakeLanesOver = true ∧ live.get .PWR_H_STATE ≠ 3 := by decide +kernel

theorem witness_SleepAndWakeCommandsComplete_resume :
    let s := live.set .PWR_H_SUSPEND 0 1
    s.on .PWR_H_SUSPEND = true ∧ s.get .PWR_H_STATE = 0 ∧ s.resumeDue = true := by decide +kernel

theorem witness_SleepAndWakeCommandsComplete_wait :
    live.on .PWR_H_SUSPEND = false := by decide +kernel

theorem witness_SleepAndWakeCommandsComplete_gate :
    let s := live.set .PIPE_H_STATE 3 2
    (∀ src ∈ [dev, ses], s.gate src .installer noUnit = .ok) ∧ ((s.newlyGated 8).all fun p => s.get .PIPE_H_STATE p == 2) = true := by decide +kernel

theorem witness_SessionCommandsComplete_begin :
    live.loginGate ses = .ok ∧ live.lockedKey (roleOfCode 0) 0 = false := by decide +kernel

theorem witness_SessionCommandsComplete_finish :
    let s := { live with sec := { live.sec with keys := [(.installer, 2)], nonces := [⟨5, .installer, 2, 1, 0⟩] } }
    let l := [0x46, 0x5A, 0x4C, 0x47] ++ List.replicate 8 0 ++ leBytes 32 5 ++ [1, 2, 1, 0] ++ List.replicate 16 0
    s.loginGate dev = .ok ∧ loginFormed l = true ∧ s.loginCheck l ⟨true, true⟩ = .ok ∧ s.on .SEC_STATUS_TEST_UNLOCKED = false ∧ s.sec.sessions.length < 16 := by decide +kernel

theorem witness_SessionCommandsComplete_failed :
    let s := { live with sec := { live.sec with keys := [(.installer, 2)] } }
    let l := [0x46, 0x5A, 0x4C, 0x47] ++ List.replicate 8 0 ++ leBytes 32 5 ++ [1, 2, 1, 0] ++ List.replicate 16 0
    s.loginGate dev = .ok ∧ loginFormed l = true ∧ s.loginCheck l ⟨true, true⟩ ≠ .ok := by decide +kernel

theorem witness_SessionCommandsComplete_end :
    let s := live.set .SYN_H_CLK 0 200000000000000
    let x : Session := ⟨1, .maker, 0, 1, 0, 0, 7⟩
    s.fwGate ses .operator 19 = .ok ∧ s.session 1 = some x ∧ x.seen + s.get .SEC_CFG_SESSION_IDLE_S * secNs ≤ s.elapsed ∧ s.sessionBusy 1 = false ∧ live.session 1 = some x ∧ live.elapsed < x.seen + live.get .SEC_CFG_SESSION_IDLE_S * secNs ∧ live.session 2 = none := by decide +kernel

theorem witness_SessionCommandsComplete_lockout :
    let s := { live with sec := { live.sec with failures := List.replicate 8 (.maker, 0, 0) } }
    live.lockedKey (roleOfCode 2) 0 = false ∧ s.lockedKey .maker 0 = true ∧ roleOfCode (roleCode .maker) = .maker := by decide +kernel

theorem witness_AttestationAndFuseCommandsComplete_keys :
    live.on .SEC_STATUS_TEST_UNLOCKED = false ∧ (live.set .SEC_STATUS_TEST_UNLOCKED 0 1).on .SEC_STATUS_TEST_UNLOCKED = true := by decide +kernel

theorem witness_AttestationAndFuseCommandsComplete_sign :
    let s := { live.set .SEC_STATUS_ATTEST_READY 0 1 with sec := { live.sec with ring := [(1, [])] } }
    s.signGate ses .none = .ok ∧ s.signGate ses .operator = .ok ∧ s.fwGate ses .operator 19 = .ok ∧ (s.sec.ring.any fun e => decide (1 ≤ e.1) && decide (e.1 < 1 + 2)) = true := by decide +kernel

theorem witness_AttestationAndFuseCommandsComplete_head :
    let s := { live.set .SEC_STATUS_ATTEST_READY 0 1 with sec := { live.sec with headsDue := [(4096, [])] } }
    s.sec.headsDue = [(4096, [])] ∧ s.on .SEC_STATUS_ATTEST_READY = true ∧ s.on .SEC_STATUS_TEST_UNLOCKED = false ∧ s.on .SEC_H_RNG_BAD = false ∧ live.sec.headsDue = [] := by decide +kernel

theorem witness_AttestationAndFuseCommandsComplete_release :
    let s := (live.set .SEC_CFG_AUDIT_POLICY 0 1).set .SEC_AUDIT_OLDEST 0 1
    let s := s.set .SEC_AUDIT_SEQ 0 5000
    (∀ src ∈ [dev, ses], s.fwGate src .maker 19 = .ok) ∧ s.releaseCheck 1 1 = .ok ∧ s.ringHeld = false := by decide +kernel

theorem witness_AttestationAndFuseCommandsComplete_releaseHeld :
    let s := (live.set .SEC_CFG_AUDIT_POLICY 0 1).set .SEC_AUDIT_OLDEST 0 1
    let s := s.set .SEC_AUDIT_SEQ 0 7438336
    (∀ src ∈ [dev, ses], s.fwGate src .maker 19 = .ok) ∧ s.releaseCheck 1 1 = .ok ∧ s.ringHeld = true := by decide +kernel

theorem witness_AttestationAndFuseCommandsComplete_fuse :
    (∀ src ∈ [dev, ses], live.fwGate src .maker 19 = .ok) ∧ live.fuseCheck 14 1 = .ok ∧ live.fuseCheck 13 0 = .ok := by decide +kernel

theorem witness_AttestationAndFuseCommandsComplete_unlock :
    (∀ src ∈ [dev, ses], live.fwGate src .maker 19 = .ok) ∧ live.jobsIdle = true ∧ live.on .SEC_FUSE_STATE_SCAN_OFF = false := by decide +kernel

theorem witness_NandCommandsComplete_mount :
    live.get .BOOT_STATUS_STATE = 1 ∧ live.on .BOOT_H_SETTLED = true ∧ (live.set .BOOT_H_SETTLED 0 0).on .BOOT_H_SETTLED = false ∧ State.reset.get .BOOT_STATUS_STATE ≠ 1 := by decide +kernel

theorem witness_NandCommandsComplete_scrub :
    let s : State := { live.set .PWR_RTC_SEC 0 100000000 with sto := { live.sto with blocks := [⟨0, 4, 0, 0, 0, 0, false⟩] } }
    s.dueBlk (s.blk 0) = true ∧ s.overdue (s.blk 0) = true ∧ (s.sto.blocks.any fun y => s.overdue y && decide (y.stamp < (s.blk 0).stamp)) = false ∧
      (s.sto.blocks.any fun y => s.dueBlk y && decide (y.stamp < (s.blk 0).stamp)) = false ∧ s.overdue (s.blk 1) = false := by decide +kernel

theorem witness_NandCommandsComplete_read :
    let r : NandRead := ⟨0, 0, 2, 100, 5, false⟩
    r.uncorrectable = false ∧ r.bits ≤ 110 ∧ max (live.blk 0).step r.step ≤ 3 := by decide +kernel

theorem witness_NandCommandsComplete_wear :
    let b : NandBlk := ⟨0, 4, 0, 0, 0, 0, false⟩
    let c : NandBlk := ⟨1, 0, 0, 5000, 0, 0, true⟩
    let s : State := { (((live.set .STO_GEOM_LUNS 0 1).set .STO_GEOM_PLANES 0 1).set .STO_CFG2_WL_DELTA 0 1).set .STO_GEOM_RAW_GIB 0 64 with sto := { live.sto with blocks := [b, c] } }
    (s.sto.blocks.filter fun x => x.region != 0 && !x.retired) = [b] ∧ s.get .STO_CFG2_WL_DELTA < s.eraseRange.2 - s.eraseRange.1 ∧ (s.blk 1).region = 0 ∧ (s.blk 0).region ≠ 0 ∧ ((s.inc .STO_CH_CNT_PFAIL 2).takeBlk 4 0).isSome = true := by decide +kernel

theorem witness_NandCommandsComplete_spread :
    let s : State := { live with sto := { live.sto with blocks := [⟨0, 4, 0, 0, 0, 0, false⟩] } }
    live.eraseRange.2 - live.eraseRange.1 ≤ live.get .STO_CFG2_WL_DELTA ∧ (s.blk 0).region ≠ 0 ∧ ((s.inc .STO_CH_CNT_PFAIL 2).takeBlk 4 0).isNone = true := by decide +kernel

theorem witness_NandCommandsComplete_fence :
    (∀ src ∈ [dev, ses], live.gate src .installer 17 = .ok ∧ live.gate src .operator 17 = .ok) ∧ (live.set .STO_CTRL_FENCE 0 1).on .STO_CTRL_FENCE = true ∧ live.on .STO_CTRL_FENCE = false := by decide +kernel

theorem witness_LibraryAndRecorderCommandsComplete_put :
    let q : List Nat := leBytes 2 7 ++ leBytes 2 0 ++ leBytes 4 0 ++ leBytes 8 192 ++ leBytes 8 4 ++ List.replicate 40 0
    let h : List Nat := List.replicate 14 0 ++ [1, 0] ++ List.replicate 112 0 ++ q ++ [1, 2, 3, 4]
    let s := live.set .STO_GEOM_RAW_GIB 0 64
    let m := (s.set .MEM_STATUS_USABLE_GIB 0 32).set .MEM_STAGE_BASE 0 0x1000000000
    m.stoGate ses = .ok ∧ m.inStaging (m.get .MEM_STAGE_BASE) 0 = true ∧ (m.dramRead (m.get .MEM_STAGE_BASE) 0).2 = some [] ∧ (s.storeHamper h).isSome = true ∧
      (({ m with bad := [m.get .MEM_STAGE_BASE / 8] }.set .MEM_STAGE_SIZE_SIZE_MIB 0 1).dramRead (m.get .MEM_STAGE_BASE) 8).2 = none := by decide +kernel

theorem witness_LibraryAndRecorderCommandsComplete_delete :
    let h : Hamper := ⟨7, [], 0, [], 0, false, 0, []⟩
    let s := { live with sto := { live.sto with hampers := [h] } }
    s.stoGate ses = .ok ∧ s.libDeleteCheck 7 ses = .ok ∧ s.hamper? 8 = none ∧ s.hamper? 7 = some h := by decide +kernel

theorem witness_LibraryAndRecorderCommandsComplete_verify :
    let h : Hamper := ⟨7, [], 0, [], 0, false, 0, []⟩
    let s := { live with sto := { live.sto with hampers := [h] } }
    s.stoGate ses = .ok ∧ s.hamper? 7 = some h := by decide +kernel

theorem witness_LibraryAndRecorderCommandsComplete_program :
    let e : RecEntry := ⟨0, 0, 0, 0, 0, [], [], [], 0, 0⟩
    let s : State := { live.set .STO_H_SEGLIVE 0 1 with sto := { live.sto with staged := [e], ring := [1] } }
    s.unitDown 17 = false ∧ s.on .STO_H_READONLY = false ∧ s.on .STO_H_MOUNTED = true ∧ s.sto.staged = [e] ∧ s.sto.ring ≠ [] ∧ s.get .STO_H_SEGFILL + e.len ≤ segBytes ∧ s.on .STO_H_SEGLIVE = true ∧ live.sto.staged = [] := by decide +kernel

theorem witness_LibraryAndRecorderCommandsComplete_idle :
    shut.on .STO_H_READONLY = true := by decide +kernel

theorem witness_LibraryAndRecorderCommandsComplete_query :
    let s : State := { live with sto := { live.sto with entries := [⟨5, 0, 0, 0, 0, [], [], [], 0, 1⟩] } }
    let r : NandRead := ⟨0, 0, 0, 0, 0, false⟩
    s.stoGate ses = .ok ∧ ((s.readCount r).entriesLost 5 1 []).anyEntry 5 1 = true ∧ ((s.readCount r).entriesLost 5 1 [5]).anyEntry 5 1 = false := by decide +kernel

theorem witness_LibraryAndRecorderCommandsComplete_keep :
    let s : State := { ((live.set .STO_CFG1_KEEP_MAX_PCT 0 50).set .STO_SPACE_REC_GIB_NOW 0 16) with sto := { live.sto with ring := [1], entries := [⟨5, 0, 0, 0, 0, [], [], [], 0, 1⟩] } }
    s.stoGate ses = .ok ∧ s.recKeepCheck 5 1 = .ok ∧ s.anyEntry 5 1 = true := by decide +kernel

theorem witness_LibraryAndRecorderCommandsComplete_gib :
    let s := live.set .STO_SPACE_USABLE_GIB 0 100
    s.gate ses .installer 17 = .ok ∧ s.settingsBusy ses = false ∧ s.recGibOk 10 = true := by decide +kernel

theorem witness_PortTransfersComplete_submit :
    let u := live.putByte cmdBuf 0x20
    live.unreachable = false ∧ (live.set .I3C_H_CMD 0 1).get .I3C_H_CMD = 1 ∧ live.get .I3C_H_CMD ≠ 1 ∧ u.unreachable = false ∧ u.get .I3C_H_CMD ≠ 1 ∧ (u.memBytes cmdBuf (min (64 + u.memLe (cmdBuf + 28) 4) 32769)).getD 0 0 = 0x20 ∧ 64 + u.memLe (cmdBuf + 28) 4 ≤ 32768 ∧ ((live.memBytes cmdBuf 64).getD 0 0 ≠ 0x20 ∨ 32768 < 64 + live.memLe (cmdBuf + 28) 4) := by decide +kernel

theorem witness_PortTransfersComplete_ack :
    live.unreachable = false ∧ 2 ≤ (live.set .I3C_H_CMD 0 2).get .I3C_H_CMD ∧ live.get .I3C_H_CMD ≠ 1 ∧ live.get .I3C_H_BUF_OFF + (0xDF - 0x80) < 32768 := by decide +kernel

theorem witness_PortTransfersComplete_read :
    live.unreachable = false ∧ live.transfer.get .I3C_H_PTR < 0xF7 ∧ live.on .I3C_H_BUSY = false ∧ live.on .I3C_H_HELD = false := by decide +kernel

theorem witness_PortTransfersComplete_forms :
    live.unreachable = false ∧ live.get .I3C_H_CMD < 2 := by decide +kernel

theorem witness_PortTransfersComplete_indirect :
    let s := (live.set .I3C_H_BUSY 0 1).set .I3C_H_RLEFT 0 5
    s.on .I3C_H_BUSY = true ∧ s.get .I3C_H_PMADE = 0 ∧ s.on .I3C_H_PWRITE = false ∧ (live.set .I3C_H_PLATE 0 1).get .I3C_H_PLATE ≠ 0 ∧ (s.set .I3C_H_PTR 0 0xF7).get .I3C_H_RLEFT = 5 ∧ (s.set .I3C_H_PTR 0 0xF7).readPending = true ∧ (s.set .I3C_H_PTR 0 0xF7).get .I3C_H_PTR + 5 ≤ 0xFC := by decide +kernel

theorem witness_PortTransfersComplete_others :
    let s := live.set .I3C_H_BUSY 0 1
    live.on .I3C_H_BUSY = false ∧ s.on .I3C_H_BUSY = true ∧ (s.set .I3C_H_PMADE 0 1).get .I3C_H_PMADE ≠ 0 ∧ s.get .I3C_H_PMADE = 0 ∧ (s.set .I3C_H_PWRITE 0 1).on .I3C_H_PWRITE = true ∧ live.get .I3C_H_PLATE = 0 ∧ live.get .I3C_H_RLEFT = 0 ∧ live.readPending = false := by decide +kernel

theorem witness_PortTransfersComplete_past :
    let s := ((live.set .I3C_H_BUSY 0 1).set .I3C_H_RLEFT 0 7).set .I3C_H_PTR 0 0xF7
    s.get .I3C_H_RLEFT ≠ 0 ∧ s.readPending = true := by decide +kernel

theorem witness_PortCommandsComplete_bind :
    live.fwGate ses .operator 18 = .ok ∧ ses.ini = .i3c ∧ (live.set .EGR_QP_CFG_CTRL 3 1).fwGate ⟨.host 3, 1⟩ .operator 18 = .ok ∧ (live.set .EGR_QP_CFG_CTRL 255 1).on .EGR_QP_CFG_CTRL 255 = true ∧ live.regReach 0x404 true = .ok ∧ live.roleOf dev = .device ∧ live.mgt.forward = [] := by decide +kernel

theorem witness_PortCommandsComplete_unreach :
    (live.set .PWR_H_HELD 0 1).unreachable = true := by decide +kernel

theorem witness_PortCommandsComplete_address :
    live.unreachable = false ∧ live.busStart.on .MGT_I3C_STATUS_DA_VALID = false := by decide +kernel

theorem witness_PortCommandsComplete_held :
    let s := live.set .MGT_I3C_STATUS_DA_VALID 0 1
    live.unreachable = false ∧ s.unreachable = false ∧ s.busStart.on .MGT_I3C_STATUS_DA_VALID = true ∧ live.busStart.on .MGT_I3C_STATUS_DA_VALID = false ∧ (2 : Nat).testBit 0 = false ∧ 0 ≠ live.busStart.staticAddr := by decide +kernel

theorem witness_PortCommandsComplete_enint :
    live.unreachable = false ∧ (1 : Nat).testBit 0 = true ∧ (live.set .MGT_I3C_STATUS_DA_VALID 0 1).busStart.on .MGT_I3C_STATUS_DA_VALID = true := by decide +kernel

theorem witness_PortCommandsComplete_rstact :
    let s := ((live.set .MGT_I3C_STATUS_DA_VALID 0 1).set .MGT_I3C_STATUS_IBI_EN 0 1).set .I3C_H_IBI 0 4
    s.unreachable = false ∧ s.on .MGT_I3C_STATUS_DA_VALID = true ∧ s.on .MGT_I3C_STATUS_IBI_EN = true ∧ s.bit .I3C_H_IBI 0 2 = true ∧ live.on .MGT_I3C_STATUS_DA_VALID = false ∧ (live.set .MGT_I3C_STATUS_DA_VALID 0 1).on .MGT_I3C_STATUS_IBI_EN = false ∧ s.bit .I3C_H_IBI 0 0 = false := by decide +kernel

theorem witness_PortCommandsComplete_bus :
    live.unreachable = false := by decide +kernel

theorem witness_PortCommandsComplete_pattern :
    live.unreachable = false := by decide +kernel

theorem witness_ReferenceCommandsComplete_load :
    (∀ src ∈ [dev, ses], live.slotGate 1 src = .ok) ∧ live.slotUsed 1 = false ∧ live.get .REF_SLOT_CTRL_STATE 1 ≠ 1 ∧ (live.set .REF_SLOT_CTRL_STATE 1 1).get .REF_SLOT_CTRL_STATE 1 = 1 ∧ (live.set .REF_SLOT_CTRL_CHECKING 1 1).get .REF_SLOT_CTRL_CHECKING 1 = 1 := by decide +kernel

theorem witness_ReferenceCommandsComplete_window :
    (∀ src ∈ [dev, ses], live.gate src .installer 11 = .ok) ∧ live.cmpState 7 1 = 0 := by decide +kernel

theorem witness_ReferenceCommandsComplete_go :
    let b := cmpBase 7 0
    let thr := (List.range 16).flatMap fun _ => [1, 1, 1, 0, 1, 0, 0, 0, 0, 0, 0, 0, 0, 0, 0, 0]
    let s := (((live.putBytes b ([1, 0, 0, 0, 1] ++ List.replicate 19 0 ++ [1, 0])).putBytes (b + 64) (leBytes 2 16384)).putBytes (b + 128) thr).set .REF_SLOT_CTRL_STATE 0 2
    let s := (List.range 16).foldl (fun s n => ((s.set .REF_LIMIT_THR_Y_POS_MAX n 9).set .REF_LIMIT_THR_Y_NEG_MAX n 9).set .REF_LIMIT_THR_C_MAX n 9) s
    s.gate ses .installer 11 = .ok ∧ s.refGoCheck 7 = .ok ∧ (live.set .REF_H_BANK_STATE 14 1).refCancelCheck 7 = .ok := by decide +kernel

theorem witness_ReferenceCommandsComplete_forms :
    live.slotGate 2 ses ≠ .ok ∧ live.slotGate 1 ses = .ok ∧ (live.set .REF_SLOT_CTRL_STATE 1 1).slotGate 1 ses = .ok ∧ (live.set .REF_SLOT_CTRL_STATE 1 1).get .REF_SLOT_CTRL_STATE 1 = 1 ∧ live.get .REF_SLOT_CTRL_STATE 1 ≠ 1 ∧
      (live.set .REF_H_BANK_STATE 0 1).slotGate 0 ses = .ok ∧ (live.set .REF_H_BANK_STATE 0 1).slotUsed 0 = true ∧ live.on .REF_SLOT_CTRL_CHECKING 0 = false ∧ live.gate ⟨.i3c, 9⟩ .installer 11 ≠ .ok ∧ (live.set .REF_H_BANK_STATE 15 1).gate ses .installer 11 = .ok ∧
      (live.set .REF_H_BANK_STATE 15 1).cmpState 7 1 ≠ 0 := by decide +kernel

theorem witness_ReferenceCommandsComplete_tile :
    let f : RefFrame := ⟨0, 1, 1, some 0, 0, 0, 0, ⟨0, 0, 0, 0, 0, 0, 0, 0, 0, 0⟩, 0, 0, 0, [], false, false, none⟩
    let u : RefTile := ⟨0, 1, 1, 1, 0, 0, [], 0, 0, 0, 0, false, []⟩
    let s : State := { live with ref := { live.ref with frames := [f], tiles := [u] } }
    (s.ref.tiles.find? fun u => u.k == 0 && u.seq == 1 && u.row == 0 && u.col == 0) = some u ∧ (u.parts.any fun p => p.i == 0) = false ∧ ((s.refBegin 0 1).refFrame? 0 1).isSome = true := by decide +kernel

theorem witness_ReferenceCommandsComplete_none :
    let u : RefTile := ⟨0, 1, 1, 1, 0, 0, [], 0, 0, 0, 0, false, []⟩
    let s : State := { live with ref := { live.ref with tiles := [u] } }
    (live.ref.tiles.find? fun u => u.k == 0 && u.seq == 1 && u.row == 0 && u.col == 0) = none ∧ (s.ref.tiles.find? fun u => u.k == 0 && u.seq == 1 && u.row == 0 && u.col == 0) = some u ∧ (u.parts.any fun p => p.i == 0) = false ∧
      (({ u with parts := [⟨0, [], 0, [], []⟩] } : RefTile).parts.any fun p => p.i == 0) = true ∧ (s.refBegin 0 1).refFrame? 0 1 = none := by decide +kernel

theorem witness_ReferenceCommandsComplete_fence :
    (∀ src ∈ [dev, ses], live.gate src .installer 11 = .ok ∧ live.gate src .operator 11 = .ok) ∧ (live.set .REF_CTRL_FENCE 0 1).get .REF_CTRL_FENCE = 1 ∧ live.ref.frames = [] ∧ live.get .REF_CTRL_FENCE = 0 := by decide +kernel

theorem witness_MergerCommandsComplete_row :
    let r : RoiRow := ⟨0, 1, 0, 0, [[1]], false, ⟨0, 0, 0, 0, 0, 0, 0, 0, 0, 0⟩⟩
    let q : Member := ⟨0, 0, 1, ⟨0, 0, 0, 0, 0, 0, 0, 0, 0, 0⟩, 0, 0, 1, 1, false, false⟩
    let b : BFrame := ⟨0, 0, 1, 0, 1, true, [q], [], [], [], 0, false, 0, 0⟩
    let s : State := { live with pipe := { live.pipe with toMerger := [r] } }
    live.pipe.toMerger = [] ∧ s.pipe.toMerger = [r] ∧ s.blankets = [] ∧ ({ s with blankets := [b] } : State).blankets = [b] ∧ (b.members.find? fun q => q.ch == r.ch && q.seq == r.seq && !q.absent) = some q := by decide +kernel

theorem witness_MergerCommandsComplete_line :
    let f : BFrame := ⟨0, 0, 1, 0, 1, false, [], [], [], [⟨0, 0, [], 0, 0, 0⟩], 0, false, 0, 0⟩
    let s := { live.putBytes (layBase 0 0 + 8) [0, 1] with blankets := [f] }
    let g : BFrame := { f with cols := [⟨0, 0, List.replicate 255 ([], []), 0, 0, 0⟩] }
    let u : State := { live.putBytes (layBase 0 0 + 8) [0, 1] with blankets := [g] }
    let w : State := { ((live.putBytes (layBase 0 0 + 8) [0, 1]).putBytes (layBase 0 0 + 28) [5]) with blankets := [f] }
    s.blanket? 0 1 = some f ∧ (f.cols.find? fun t => t.col == 0) = some ⟨0, 0, [], 0, 0, 0⟩ ∧ 0 < s.layBh (layBase 0 0) ∧ s.lineReady (layBase 0 0) f 0 0 = true ∧
      ([0, 1].filter fun d => s.ownsExt (layBase 0 0) d && seamCol (s.seamExt (layBase 0 0) d) == 0 && !(f.remote.any fun r => r.side == d && r.v == 0)) = [] ∧
      u.blanket? 0 1 = some g ∧ (g.cols.find? fun t => t.col == 0) = some ⟨0, 0, List.replicate 255 ([], []), 0, 0, 0⟩ ∧ (List.replicate 255 (([] : List (List Nat)), ([] : List Bool))).length = 255 ∧ u.lineReady (layBase 0 0) g 0 0 = true ∧
      w.lineReady (layBase 0 0) f (seamCol (w.seamExt (layBase 0 0) 0)) 0 = true ∧ seamCol (w.seamExt (layBase 0 0) 0) = 0 ∧
      ([0, 1].filter fun d => w.ownsExt (layBase 0 0) d && seamCol (w.seamExt (layBase 0 0) d) == 0 && !(f.remote.any fun r => r.side == d && r.v == 0)) = [0] := by decide +kernel

theorem witness_MergerCommandsComplete_idle :
    let f : BFrame := ⟨0, 0, 1, 0, 1, false, [], [], [], [⟨0, 0, [], 0, 0, 0⟩], 0, false, 0, 0⟩
    let s : State := { live with blankets := [f] }
    let g : BFrame := { f with window := true, members := [] }
    let w : State := { ((live.putBytes (layBase 0 0 + 2) [1]).putBytes (layBase 0 0 + 8) [0, 1]).putBytes (layBase 0 0 + 24) [0, 1] with blankets := [g] }
    live.blanket? 0 1 = none ∧ s.blanket? 0 1 = some f ∧ (f.cols.find? fun t => t.col == 5) = none ∧ (f.cols.find? fun t => t.col == 0) = some ⟨0, 0, [], 0, 0, 0⟩ ∧ s.layBh (layBase 0 0) ≤ 0 ∧ w.blanket? 0 1 = some g := by decide +kernel

theorem witness_MergerCommandsComplete_window :
    let f : BFrame := ⟨0, 0, 1, 0, 1, true, [], [], [], [], 0, false, 0, 0⟩
    ({ live with blankets := [f] } : State).blanket? 0 1 = some f ∧ f.window = true ∧ live.blanket? 0 1 = none ∧ ({ live with blankets := [{ f with window := false }] } : State).blanket? 0 1 = some { f with window := false } := by decide +kernel

theorem witness_MergerCommandsComplete_layout :
    let b := layBase 7 0
    let s := (live.putBytes b ([1, 0, 1, 1] ++ leBytes 4 256 ++ [0, 1, 16, 0, 0, 0, 0, 0, 0, 1])).putBytes (b + 0x44) ([0, 0, 1, 0] ++ List.replicate 8 0 ++ [0, 0, 1, 0])
    let c := bankBase 0 0
    let s := (((s.putBytes c [1]).putBytes (c + 18) [1]).putBytes (c + 0x1198) [1, 1]).set .PIPE_H_BANK_STATE 0 2
    s.gate ses .installer 10 = .ok ∧ live.gate ⟨.i3c, 9⟩ .installer 10 ≠ .ok ∧ (live.set .MRG_H_BANK_STATE 15 1).layState 7 1 ≠ 0 ∧ live.layState 7 1 = 0 ∧ s.mrgGoCheck 7 = .ok ∧ (live.set .MRG_H_BANK_STATE 14 1).mrgCancelCheck 7 = .ok := by decide +kernel

theorem witness_MergerCommandsComplete_counters :
    ∀ src ∈ [dev, ses], live.gate src .operator 10 = .ok := by decide +kernel

theorem witness_MergerSeamsComplete_send :
    let f : BFrame := ⟨0, 0, 1, 0, 1, false, [], [], [], [⟨0, 0, [], 0, 0, 0⟩], 0, false, 0, 0⟩
    let s (e : Nat) : State := { (live.putBytes (layBase 0 0 + 8) [0, 1]).putBytes (layBase 0 0 + 28) [e] with blankets := [f] }
    let n (t : State) := ((List.range 16).takeWhile fun i => decide (0 + i < t.layBh (layBase 0 0)) && ((List.range (t.layMembers (layBase 0 0))).filter fun m => decide ((t.owned (layBase 0 0) m).1 < (t.seamSpan (layBase 0 0) 0).1 + (t.seamSpan (layBase 0 0) 0).2) &&
      decide ((t.seamSpan (layBase 0 0) 0).1 < (t.owned (layBase 0 0) m).2)).all fun m => t.memberReady (layBase 0 0) f m (seamCol (t.seamExt (layBase 0 0) 0)) (0 + i)).length
    live.blanket? 0 1 = none ∧ (s 1).blanket? 0 1 = some f ∧ (s 1).layExt (layBase 0 0) 0 = true ∧ (s 1).ownsExt (layBase 0 0) 0 = false ∧ n (s 1) ≠ 0 ∧ (s 0).blanket? 0 1 = some f ∧ (s 0).layExt (layBase 0 0) 0 = false := by decide +kernel

theorem witness_MergerSeamsComplete_receive :
    let f : BFrame := ⟨0, 0, 1, 0, 1, false, [], [], [], [⟨0, 0, [], 0, 0, 0⟩], 0, false, 0, 0⟩
    let s (f : BFrame) : State := { (live.putBytes (layBase 0 0 + 8) [0, 1]).putBytes (layBase 0 0 + 28) [5] with blankets := [f] }
    let g : BFrame := { f with cols := [⟨0, 16, [], 0, 0, 0⟩] }
    let b := [0, 0, 0, 0, 0, 1, 1, 0, 0, 0, 0, 0, 0, 0, 0, 0, 1, 0]
    let c (s : State) (f : BFrame) := (s.blankets.find? fun f => f.k == b.getD 4 0 % 8 && f.job == leAt b 16 2 && decide (absDiff (leAt b 8 8) f.t0 ≤ s.layJoinNs (layBase (b.getD 4 0 % 8) f.bank)) && [0, 1].any fun d => s.ownsExt (layBase (b.getD 4 0 % 8) f.bank) d &&
          seamCol (s.seamExt (layBase (b.getD 4 0 % 8) f.bank) d) == leAt b 20 4 / 256) = some f
    live.blankets = [] ∧ c (s f) f ∧ 0 < min ((s f).layBh (layBase 0 0)) ((leAt b 18 2 + b.getD 6 0 - 1) / 16 * 16 + 16) ∧ c (s g) g ∧ min ((s g).layBh (layBase 0 0)) ((leAt b 18 2 + b.getD 6 0 - 1) / 16 * 16 + 16) ≤ 16 := by decide +kernel

theorem witness_MergerSeamsComplete_wait :
    let f : BFrame := ⟨0, 0, 1, 0, 1, false, [], [], [], [⟨0, 0, [], 0, 0, 0⟩], 0, false, 0, 0⟩
    let s (e : Nat) : State := { (live.putBytes (layBase 0 0 + 8) [0, 1]).putBytes (layBase 0 0 + 28) [e] with blankets := [f] }
    let vs (s : State) := (List.range (min (s.layBh (layBase 0 0)) (0 / 16 * 16 + 16) - 0)).map (0 + ·)
    live.blanket? 0 1 = none ∧ (s 5).blanket? 0 1 = some f ∧ seamCol ((s 5).seamExt (layBase 0 0) 0) = 0 ∧ (f.cols.find? fun t => t.col == 9) = none ∧ (f.cols.find? fun t => t.col == 0) = some ⟨0, 0, [], 0, 0, 0⟩ ∧ (s 5).ownsExt (layBase 0 0) 0 = true ∧
      ((vs (s 5)).all fun v => f.remote.any fun r => r.side == 0 && r.v == v) = false ∧ ((vs (s 5)).all fun v => (((s 5).colSides (layBase 0 0) 0).filter (· != Side.remote 0)).all ((s 5).sideReady (layBase 0 0) f 0 v)) = true ∧ (s 0).ownsExt (layBase 0 0) 0 = false := by decide +kernel

theorem witness_EgressDeliveryCommandsComplete_start :
    let o : Offer := ⟨1, 0, 0, 1, ⟨1, 0, 1, 0, 0, 0, 0, 0, 0, 0⟩, [1, 2], false, 0, 0, 0, 0, 0, 0, 2, false, 0⟩
    let s : State := { live with egr := { live.egr with offers := [o] } }
    let z : State := { s with egr := { s.egr with offers := [{ o with kind := 7 }] } }
    let u (s : State) := ({ s with egr := { s.egr with offers := [] } } : State).bump .EGR_STR_H_SEQ 1 1
    let r := ((((s.set .EGR_STR_CFG_EN 1 1).set .EGR_QP_STATUS_STATE 0 1).set .EGR_STR_SLOT_BYTES 1 4096).set .EGR_CLASS_SIZE_SIZE_A 0 1).set .EGR_RETRY_SIZE_SIZE_MIB 0 1
    r.egr.offers[0]? = some o ∧ r.classCWaits o = false ∧ (u r).refusal o = none ∧ s.egr.offers[0]? = some o ∧ s.classCWaits o = false ∧ (u s).refusal o = some 11 ∧ o.kind ≠ 7 ∧ z.egr.offers[0]? = some { o with kind := 7 } ∧ z.classCWaits { o with kind := 7 } = false ∧ (u z).refusal { o with kind := 7 } = some 11 := by decide +kernel

theorem witness_EgressDeliveryCommandsComplete_waits :
    let o : Offer := ⟨1, 0, 0, 1, ⟨1, 0, 1, 0, 0, 0, 0, 0, 0, 0⟩, [1, 2], false, 0, 0, 0, 0, 0, 0, 2, false, 0⟩
    let s : State := { live with egr := { live.egr with offers := [o, o] } }
    s.egr.offers[2]? = none ∧ s.egr.offers[1]? = some o ∧ (s.egr.offers.take 1).any (fun e => e.stream == o.stream) = true := by decide +kernel

theorem witness_EgressDeliveryCommandsComplete_budget :
    let d : Delivery := ⟨⟨1, 4, 0, 1, ⟨1, 0, 1, 0, 0, 0, 0, 0, 0, 0⟩, [], false, 0, 0, 0, 0, 0, 0, 2, false, 0⟩, 1, 0, 0, 0, 0, 0, false, 0, 0, false, false, 2, [], 0, 1, []⟩
    let s : State := { live.set .SYN_H_CLK 0 2000000000 with egr := { live.egr with queue := [d] } }
    live.egr.queue.find? (fun d => d.o.stream == 1 && d.dseq == 0) = none ∧ s.egr.queue.find? (fun d => d.o.stream == 1 && d.dseq == 0) = some d ∧ d.queuedAt + 1000000 * s.get .EGR_STR_RATE_BUDGET_MS 1 ≤ s.elapsed ∧
      ({ s with egr := { s.egr with queue := [{ d with started := true }] } } : State).egr.queue.find? (fun d => d.o.stream == 1 && d.dseq == 0) = some { d with started := true } := by decide +kernel

theorem witness_EgressSendingComplete_stops :
    live.portCount ≤ 7 ∧ live.on .EGR_PORT_STATUS_LINK 7 = false ∧ (live.set .EGR_PORT_H_PAUSE 0 5).elapsed < (live.set .EGR_PORT_H_PAUSE 0 5).get .EGR_PORT_H_PAUSE 0 := by decide +kernel

theorem witness_EgressSendingComplete_order :
    let o : Offer := ⟨1, 4, 0, 1, ⟨1, 0, 1, 0, 0, 0, 0, 0, 0, 0⟩, [], false, 0, 0, 0, 0, 0, 0, 2, false, 0⟩
    let d : Delivery := ⟨o, 1, 0, 0, 0, 0, 0, false, 0, 0, false, false, 2, [(0x1000000000, 66)], 0, 1, []⟩
    let b : State := (((live.set .EGR_PORT_STATUS_LINK 0 1).set .EGR_QP_STATUS_STATE 0 1).set .EGR_STR_SLOTS 1 4).set .SYN_H_CLK 0 2000000000
    let s : State := { b with egr := { b.egr with queue := [d] } }
    let c : State := { b with egr := { b.egr with ctl := [⟨0, false, [1], false⟩] } }
    let r (st : Nat) : State := { b with egr := { b.egr with pkts := [⟨0, 5, .sendOnly, st, 0, 0, [1], 0, 0⟩], resend := [(0, [5])] } }
    let g (s : State) := (((s.markRingFull 0).resendNext 0 3).filter fun k => (s.markRingFull 0).ctlRoom 0 ((s.markRingFull 0).wireBytes 0 k.qp k.op k.data.length))
    let v (s : State) := (s.markRingFull 0).gainCredit 0
    (∀ x ∈ [s, c, r 0, r 1, b], 0 < x.portCount ∧ x.on .EGR_PORT_STATUS_LINK 0 = true ∧ x.get .EGR_PORT_H_PAUSE 0 ≤ x.elapsed) ∧ (b.markRingFull 0).ctlRoom 0 98 = true ∧ (g (r 0)).isSome = true ∧ g c = none ∧ (c.markRingFull 0).ctlNext 0 = some (0, ⟨0, false, [1], false⟩) ∧
      g b = none ∧ (b.markRingFull 0).ctlNext 0 = none ∧ (v b).pickClass 0 = none ∧ g (r 1) = none ∧ ((r 1).markRingFull 0).ctlNext 0 = none ∧ (v (r 1)).pickClass 0 = some 0 ∧ ((v (r 1)).resendNext 0 0).isSome = true ∧
      g s = none ∧ (s.markRingFull 0).ctlNext 0 = none ∧ (v s).pickClass 0 = some 1 ∧ (v s).resendNext 0 1 = none ∧ (v s).classNext 0 1 = some d := by decide +kernel

theorem witness_EgressAcknowledgementsComplete_ack :
    let s : State := { live.set .EGR_QP_STATUS_STATE 255 1 with egr := { live.egr with pkts := [⟨255, 5, .sendOnly, 0, 0, 0, [1], 0, 0⟩] } }
    live.get .EGR_QP_STATUS_STATE 255 ≠ 1 ∧ s.get .EGR_QP_STATUS_STATE 255 = 1 ∧ ((s.egr.pkts.filter fun k => k.qp == 255).any fun k => k.psn == 5) = true := by decide +kernel

theorem witness_EgressAcknowledgementsComplete_nak :
    let s : State := { (live.set .EGR_QP_STATUS_STATE 255 1).set .EGR_QP_CFG_RNR_RETRY 255 7 with egr := { live.egr with pkts := [⟨255, 5, .sendOnly, 0, 0, 0, [1], 0, 0⟩] } }
    live.get .EGR_QP_STATUS_STATE 255 ≠ 1 ∧ s.get .EGR_QP_STATUS_STATE 255 = 1 ∧ s.on .EGR_QP_CFG_MODE 255 = false ∧ (s.egr.pkts.any fun k => k.qp == 255 && k.psn == 5) = true ∧ (s.egr.pkts.any fun k => k.qp == 255 && k.psn == 6) = false ∧ s.get .EGR_QP_CFG_RNR_RETRY 255 = 7 ∧
      (s.set .EGR_QP_CFG_RNR_RETRY 255 0).get .EGR_QP_CFG_RNR_RETRY 255 ≠ 7 ∧ (s.set .EGR_QP_CFG_RNR_RETRY 255 0).get .EGR_QP_CFG_RNR_RETRY 255 ≤ (s.set .EGR_QP_CFG_RNR_RETRY 255 0).get .EGR_QP_H_RNR 255 := by decide +kernel

theorem witness_EgressAcknowledgementsComplete_timers :
    let s : State := { ((live.set .EGR_QP_STATUS_STATE 255 1).set .EGR_PORT_STATUS_LINK 0 1) with egr := { live.egr with pkts := [⟨255, 5, .sendOnly, 0, 0, 0, [1], 0, 0⟩] } }
    let w := s.set .EGR_QP_H_RNRWAIT 255 1
    live.oldest 255 = none ∧ s.get .EGR_QP_STATUS_STATE 255 = 1 ∧ s.oldest 255 = some 5 ∧ s.on .EGR_PORT_STATUS_LINK (s.get .EGR_QP_CFG_PORT 255) = true ∧ s.on .EGR_QP_H_RNRWAIT 255 = false ∧ w.on .EGR_QP_H_RNRWAIT 255 = true ∧ w.oldest 255 = some 5 ∧ w.get .EGR_QP_STATUS_STATE 255 = 1 ∧
      w.on .EGR_PORT_STATUS_LINK (w.get .EGR_QP_CFG_PORT 255) = true := by decide +kernel

theorem witness_EgressAcknowledgementsComplete_rate :
    let s := (live.set .EGR_QP_STATUS_STATE 255 1).set .EGR_PORT_STATUS_LINK 0 1
    let v := s.set .EGR_QP_H_CNPV 255 1
    live.get .EGR_QP_STATUS_STATE 255 ≠ 1 ∧ s.get .EGR_QP_STATUS_STATE 255 = 1 ∧ s.on .EGR_QP_CFG_MODE 255 = false ∧ s.on .EGR_QP_H_CNPV 255 = false ∧ s.on .EGR_PORT_STATUS_LINK (s.get .EGR_QP_CFG_PORT 255) = true ∧ v.on .EGR_QP_H_CNPV 255 = true ∧ v.elapsed - v.get .EGR_QP_H_CNPT 255 < 50000 := by decide +kernel

theorem witness_EgressPortCommandsComplete_qp :
    let s := ((((live.set .EGR_QP_MAC 255 2).set .EGR_QP_IP3_IP 255 1).set .EGR_QP_DEST_QPN_DEST 255 2)).set .EGR_QP_CFG_PORT 255 0
    live.gate dev .installer 13 = .ok ∧ s.gate ses .installer 13 = .ok ∧ s.qpEnableCheck 255 = .ok := by decide +kernel

theorem witness_EgressPortCommandsComplete_link :
    (live.set .EGR_PORT_STATUS_LINK 7 1).on .EGR_PORT_STATUS_LINK 7 = true ∧ live.on .EGR_PORT_STATUS_LINK 7 = false ∧ 0 < live.portCount ∧ live.portCount ≤ 7 ∧ (live.set .EGR_PORT_CFG_PAUSE_EN 7 1).on .EGR_PORT_CFG_PAUSE_EN 7 = true ∧
      (let s := live.set .EGR_PORT_CFG_PFC_EN 7 1; (s.on .EGR_PORT_CFG_PFC_EN 7 && s.get .EGR_PORT_CFG_PFC_PRIO 7 == s.get .EGR_PORT_CFG_PFC_PRIO 7) = true) ∧ live.on .EGR_PORT_CFG_PAUSE_EN 7 = false := by decide +kernel

theorem witness_EgressPortCommandsComplete_ring :
    ∀ src ∈ [dev, ses], live.gate src .operator 13 = .ok := by decide +kernel

theorem witness_EgressPortCommandsComplete_delay :
    0 < live.portCount ∧ (∀ src ∈ [dev, ses], live.gate src .installer 13 = .ok) := by decide +kernel

theorem witness_EgressPortCommandsComplete_fence :
    (∀ src ∈ [dev, ses], live.gate src .installer 13 = .ok ∧ live.gate src .operator 13 = .ok) ∧ (live.set .EGR_CTRL_FENCE 0 1).on .EGR_CTRL_FENCE = true ∧ live.egr.queue = [] ∧ (live.set .EGR_QP_CFG_CTRL 255 1).on .EGR_QP_CFG_CTRL 255 = true ∧ live.on .EGR_CTRL_FENCE = false := by decide +kernel

theorem witness_FabricReceiveComplete_turned :
    let d : List Nat := List.replicate 16 0
    let h (l : Nat) : List Nat := let h := [1, 16, 0, l, 0]; h ++ leBytes 2 (crc16 h)
    let s := live.set .FAB_PORT_STATUS_STATE 7 portUpOne
    let n := s.set .FAB_H_NAKKED 7 1
    (live.portPayload 7).portState 7 = portDown ∧ (∀ q ∈ [s, n], (q.portPayload 7).portState 7 ≠ portDown ∧ (q.portPayload 7).portState 7 ≠ portAsleep) ∧ linkHeaderOk [] d = false ∧ linkHeaderOk (h 5) d = true ∧ linkHeaderOk (h 255) d = true ∧
      (n.portPayload 7).on .FAB_H_NAKKED 7 = true ∧ 5 ≠ (n.portPayload 7).get .FAB_H_RXSEQ 7 ∧ (s.portPayload 7).on .FAB_H_NAKKED 7 = false ∧ 128 ≤ ((h 255).getD 3 0 % 256 + 256 - (s.portPayload 7).get .FAB_H_RXSEQ 7) % 256 := by decide +kernel

theorem witness_FabricReceiveComplete_taken :
    let d : List Nat := List.replicate 16 0
    let h : List Nat := [1, 16, 0, 0, 0]
    let h := h ++ leBytes 2 (crc16 h)
    let s := live.set .FAB_PORT_STATUS_STATE 7 portUpOne
    let v := s.portPayload 7
    v.portState 7 ≠ portDown ∧ v.portState 7 ≠ portAsleep ∧ linkHeaderOk h d = true ∧ v.on .FAB_H_NAKKED 7 = false ∧ (h.getD 3 0 % 256 + 256 - v.get .FAB_H_RXSEQ 7) % 256 < 128 := by decide +kernel

theorem witness_FabricReceiveComplete_badSymbol :
    argZero [0, 1] 1 = false ∧ 4 ≤ [4].getD 0 0 ∧ argZero [3, 0, 0, 1] 3 = false ∧ 2 ≤ [2].getD 0 0 ∧ argZero [1, 0, 1] 2 = false ∧ argZero [1] 0 = false ∧ live.get .FAB_PORT_STATUS_VER 7 ≠ 2 := by decide +kernel

theorem witness_FabricLinkCommandsComplete_ack :
    let k : FabPkt := ⟨1, [], none, false, true⟩
    let e (b d : Bool) : FabSent := ⟨255, k, b, d⟩
    let s (b d : Bool) : State := live.setPort 7 ⟨[], [e b d], []⟩
    argZero [255] 1 = true ∧ (live.fabPort 7).sent.find? (fun e => e.lseq == [255].getD 0 0 % 256) = none ∧ ∀ b ∈ [true, false], ∀ d ∈ [true, false], ((s b d).fabPort 7).sent.find? (fun e => e.lseq == [255].getD 0 0 % 256) = some (e b d) := by decide +kernel

theorem witness_FabricLinkCommandsComplete_timeout :
    let k : FabPkt := ⟨1, [], none, false, true⟩
    let e (b d : Bool) : FabSent := ⟨255, k, b, d⟩
    let s (b d : Bool) : State := (live.set .SYN_H_CLK 0 2000000000).setPort 7 ⟨[], [e b d], []⟩
    (live.fabPort 7).sent = [] ∧ ∀ b ∈ [true, false], ∀ d ∈ [true, false], ((s b d).fabPort 7).sent = [e b d] ∧ (s b d).ackOverdue 7 = true := by decide +kernel

theorem witness_FabricLinkCommandsComplete_credit :
    let a := [3, 255, 255]
    a.getD 0 0 < 4 ∧ argZero a 3 = true := by decide +kernel

theorem witness_FabricLinkCommandsComplete_align :
    let s := [(Fld.FAB_PORT_STATUS_STATE, 7, portUpOne), (.FAB_PORT_STATUS_VER, 7, 2), (.LANE_STATUS_STATE, 30, 5), (.LANE_STATUS_STATE, 31, 5)].foldl (fun (s : State) q => s.set q.1 q.2.1 q.2.2) live
    [1, 255].getD 0 0 < 2 ∧ argZero [1, 255] 2 = true ∧ live.portState 7 ≠ portUpOne ∧ s.portState 7 = portUpOne ∧ s.get .FAB_PORT_STATUS_VER 7 = 2 ∧ s.portPaired 7 = true := by decide +kernel

theorem witness_FabricLinkCommandsComplete_reset :
    argZero [0, 0] 0 = true ∧ (live.set .FAB_PORT_STATUS_STATE 7 portUpOne).fabUp 7 = true ∧ live.fabUp 7 = false := by decide +kernel

theorem witness_FabricLinkCommandsComplete_sleep :
    let s := (live.set .FAB_PORT_STATUS_STATE 7 portUpOne).set .FAB_PORT_STATUS_VER 7 2
    argZero [0] 0 = true ∧ s.fabUp 7 = true ∧ s.get .FAB_PORT_STATUS_VER 7 = 2 ∧ (live.set .FAB_PORT_STATUS_VER 7 2).fabUp 7 = false ∧ live.gate ses .installer 15 = .ok := by decide +kernel

theorem witness_FabricLinkCommandsComplete_serve :
    let k (ty : Nat) : FabPkt := ⟨1, [1, ty], none, false, true⟩
    let e (ty : Nat) : FabSent := ⟨255, k ty, true, true⟩
    let u := live.set .FAB_PORT_STATUS_STATE 7 portNoVersion
    let s (ty : Nat) : State := u.setPort 7 ⟨[], [e ty], []⟩
    let v : State := u.setPort 7 ⟨[k 1], [], []⟩
    live.portState 7 = portDown ∧ u.portState 7 ≠ portDown ∧ u.portState 7 ≠ portAsleep ∧ (∀ ty ∈ [0, 1], ((s ty).fabPort 7).sent.find? (fun e => e.due) = some (e ty)) ∧ (s 1).fabSendable 7 (e 1).pkt = true ∧ (s 0).fabSendable 7 (e 0).pkt = false ∧
      (v.fabPort 7).sent = [] ∧ ((v.classOrder 7).findSome? fun c => (v.fabPort 7).queue.find? fun k => k.cls == c && v.fabSendable 7 k) = some (k 1) ∧ ((u.classOrder 7).findSome? fun c => (u.fabPort 7).queue.find? fun k => k.cls == c && u.fabSendable 7 k) = none := by decide +kernel

theorem witness_FabricPacketCommandsComplete_typed :
    live.gate dev .device 15 = .ok := by decide +kernel

theorem witness_FabricPacketCommandsComplete_checked :
    let d (v ty dst : Nat) := [v] ++ (netHeader ty dst 9 16 0 0 0).drop 1
    let s := (live.set .FAB_PORT_STATUS_STATE 7 portUpTwo).set .FAB_NODE_NODE_ID 0 5
    (d 2 1 254).getD 0 0 ≠ 1 ∧ typeClass ((d 1 0x77 254).getD 1 0) ≠ some 1 ∧ (d 1 1 254).length ≠ 16 + leAt ((d 1 1 254).set 6 1) 6 2 ∧ (∀ dst ∈ [254, 255, 5, 6, 253], (d 1 0x20 dst).getD 0 0 = 1 ∧ typeClass ((d 1 0x20 dst).getD 1 0) = some 1 ∧ (d 1 0x20 dst).length = 16 + leAt (d 1 0x20 dst) 6 2 ∧ (d 1 0x20 dst).getD 2 0 = dst) ∧
      live.fabUp 7 = false ∧ s.fabUp 7 = true ∧ s.node = 5 := by decide +kernel

theorem witness_FabricPacketCommandsComplete_forwarded :
    let d := netHeader 0x20 5 9 1 0 0 0
    d.getD 4 0 ≤ 1 ∧ 2 ≤ (d.set 4 2).getD 4 0 := by decide +kernel

theorem witness_FabricPacketCommandsComplete_waymark :
    let d := netHeader 1 254 9 16 0 32 0 ++ List.replicate 32 0
    let s := live.set .FAB_PORT_STATUS_STATE 7 portUpTwo
    s.portState 7 ≠ portDown ∧ s.portState 7 ≠ portAsleep ∧ d.getD 0 0 = 1 ∧ d.getD 1 0 = 0x01 ∧ d.getD 2 0 = 254 ∧ d.length = 48 ∧ leAt d 6 2 = 32 := by decide +kernel

theorem witness_FabricPacketCommandsComplete_flooded :
    let d (ty : Nat) := netHeader ty 255 9 16 0 16 0 ++ List.replicate 16 7
    let s := live.set .FAB_PORT_STATUS_STATE 7 portUpTwo
    let v (q : Nat) : State := { s with fab := { s.fab with db := [⟨leAt (pktBody (d 2)) 0 8, q, [], 0⟩] } }
    s.fabUp 7 = true ∧ (∀ ty ∈ [2, 3], (d ty).getD 0 0 = 1 ∧ (d ty).getD 1 0 = ty ∧ (d ty).getD 2 0 = 255 ∧ (d ty).length = 16 + leAt (d ty) 6 2) ∧ leAt (pktBody (d 2)) 0 8 ≠ s.uid ∧ leAt (pktBody (d 2)) 0 8 = (s.set .SEC_FUSE_UID 0 (leAt (pktBody (d 2)) 0 8)).uid ∧
      (v 0x07070708).lsRecord (leAt (pktBody (d 2)) 0 8) = some ⟨leAt (pktBody (d 2)) 0 8, 0x07070708, [], 0⟩ ∧ (0x07070708 + 2 ^ 32 - leAt (pktBody (d 2)) 8 4) % 2 ^ 32 < 2 ^ 31 ∧ (v 0).lsRecord (leAt (pktBody (d 2)) 0 8) = some ⟨leAt (pktBody (d 2)) 0 8, 0, [], 0⟩ ∧ 2 ^ 31 ≤ (0 + 2 ^ 32 - leAt (pktBody (d 2)) 8 4) % 2 ^ 32 := by decide +kernel

theorem witness_FabricNodePacketsComplete_time :
    let d (ty : Nat) := netHeader ty 254 9 16 0 32 0 ++ List.replicate 32 0
    let s := [(Fld.FAB_PORT_STATUS_STATE, 7, portUpTwo), (.FAB_H_T1OK, 0, 1), (.FAB_H_PARENT, 0, 7), (.FAB_H_XCHG, 0, 0)].foldl (fun (s : State) q => s.set q.1 q.2.1 q.2.2) live
    s.fabUp 7 = true ∧ (∀ ty ∈ [0x10, 0x11], (d ty).getD 0 0 = 1 ∧ (d ty).getD 1 0 = ty ∧ (d ty).getD 2 0 = 254 ∧ (d ty).length = 16 + leAt (d ty) 6 2) ∧ s.on .FAB_H_T1OK = true ∧ s.get .FAB_H_PARENT = 7 ∧ s.get .FAB_H_XCHG = leAt (pktBody (d 0x11)) 0 4 ∧ live.on .FAB_H_T1OK = false := by decide +kernel

theorem witness_FabricNodePacketsComplete_served :
    let d (ty : Nat) := netHeader ty 5 9 16 0 32 8 ++ List.replicate 32 0
    let r : FabReq := ⟨8, 9, 2, 0⟩
    let s := (live.set .FAB_PORT_STATUS_STATE 7 portUpTwo).set .FAB_NODE_NODE_ID 0 5
    let v : State := { s with fab := { s.fab with reqs := [r] } }
    let f : State := { s with fab := { s.fab with late := List.replicate 256 [] } }
    s.fabUp 7 = true ∧ s.node < 64 ∧ (∀ ty ∈ [0x20, 0x21, 0x40, 0x50], (d ty).getD 0 0 = 1 ∧ (d ty).getD 1 0 = ty ∧ (d ty).getD 2 0 = s.node ∧ (d ty).length = 16 + leAt (d ty) 6 2) ∧ (v.fab.reqs.find? fun r => r.tag == leAt (d 0x21) 8 4) = some r ∧ (s.fab.reqs.any fun r => r.tag == leAt (d 0x21) 8 4) = false ∧ s.fab.late.length < 256 ∧ 256 ≤ f.fab.late.length := by decide +kernel

theorem witness_FabricNodePacketsComplete_services :
    let d (n : Nat) := netHeader 0x20 5 9 16 0 1 8 ++ [n]
    ∀ n ∈ [1, 2, 3, 9], (pktBody (d n)).getD 0 0 = n := by decide +kernel

theorem witness_FabricNodePacketsComplete_bulkData :
    let x (i : Nat) : Bulk := ⟨9, i, [], 0⟩
    let d := netHeader 0x40 5 9 16 0 20 8 ++ List.replicate 20 0
    let s := live.set .FAB_RX_WIN_SIZE_SIZE_MIB 0 1
    let f : State := { s with fab := { s.fab with bulk := (List.range 16).map fun i => x (i + 1) } }
    (live.set .FAB_CTRL_FENCE 0 1).on .FAB_CTRL_FENCE = true ∧ live.on .FAB_CTRL_FENCE = false ∧ live.get .FAB_RX_WIN_SIZE_SIZE_MIB * 2 ^ 20 = 0 ∧ f.on .FAB_CTRL_FENCE = false ∧ f.get .FAB_RX_WIN_SIZE_SIZE_MIB * 2 ^ 20 ≠ 0 ∧ leAt (pktBody d) 8 8 + ((pktBody d).drop 16).length ≤ f.get .FAB_RX_WIN_SIZE_SIZE_MIB * 2 ^ 20 ∧
      (f.fab.bulk.find? fun t => t.node == d.getD 3 0 && t.id == leAt (pktBody d) 0 2) = none ∧ 16 ≤ (f.fab.bulk.filter fun t => t.node == d.getD 3 0).length ∧ (s.fab.bulk.filter fun t => t.node == d.getD 3 0).length < 16 := by decide +kernel

theorem witness_FabricNodeCommandsComplete_send :
    let s := [(Fld.FAB_PORT_STATUS_STATE, 7, portUpTwo), (.FAB_H_PARENT, 0, 7)].foldl (fun (s : State) q => s.set q.1 q.2.1 q.2.2) live
    s.portState 7 ≠ portDown ∧ s.portState 7 ≠ portAsleep ∧ live.portState 7 = portDown ∧ s.on .FAB_NODE_ROOT = false ∧ s.get .FAB_H_PARENT = 7 ∧ s.fabUp 7 = true ∧ (s.set .FAB_NODE_ROOT 0 1).on .FAB_NODE_ROOT = true := by decide +kernel

theorem witness_FabricNodeCommandsComplete_lost :
    let w : Waymark := ⟨0, 0, 0, 0, 0, 0, 0, 0, 0⟩
    let s := live.set .FAB_PORT_STATUS_STATE 7 portUpTwo
    let u := [(Fld.LANE_STATUS_STATE, 30, 5), (.SYN_H_CLK, 0, 2000000000)].foldl (fun (s : State) q => s.set q.1 q.2.1 q.2.2) s
    let v : State := { u with fab := { u.fab with marks := [(7, w)] } }
    live.portState 7 = portDown ∧ s.portState 7 ≠ portDown ∧ s.portState 7 ≠ portAsleep ∧ s.portOn 7 = 0 ∧ u.portOn 7 ≠ 0 ∧ (u.fab.marks.find? fun e => e.1 == 7) = none ∧ v.portState 7 = portUpTwo ∧ v.portOn 7 ≠ 0 ∧ (v.fab.marks.find? fun e => e.1 == 7) = some (7, w) ∧ w.seen + 3500000 ≤ v.elapsed := by decide +kernel

theorem witness_FabricNodeCommandsComplete_root :
    live.rootReckoned = (live.uid, 1, 0, 15) := by decide +kernel

theorem witness_FabricNodeCommandsComplete_records :
    let r : LsRecord := ⟨5, 0, [], 0⟩
    let q : FabReq := ⟨8, 9, 2, 0⟩
    let s := [(Fld.SYN_H_CLK, 0, 2000000000), (.FAB_NODE_ROOT, 0, 1)].foldl (fun (s : State) q => s.set q.1 q.2.1 q.2.2) live
    let v : State := { s with fab := { s.fab with reqs := [q], db := [r] } }
    let e : State := v.set .SYN_H_CLK 0 0
    live.lsRecord 5 = none ∧ v.lsRecord 5 = some r ∧ r.seen + 350000000 ≤ v.elapsed ∧ e.lsRecord 5 = some r ∧ e.elapsed < r.seen + 350000000 ∧ v.on .FAB_NODE_ROOT = true ∧ v.on .BOOT_H_AWAY = false ∧ live.on .FAB_NODE_ROOT = false ∧
      (live.fab.reqs.find? fun r => r.tag == 8) = none ∧ (v.fab.reqs.find? fun r => r.tag == 8) = some q ∧ q.born + v.get .FAB_CFG_CTRL_TIMEOUT_MS * 1000000 ≤ v.elapsed ∧ v.isPrepare 8 = false ∧ (e.fab.reqs.find? fun r => r.tag == 8) = some q ∧ e.elapsed < q.born + e.get .FAB_CFG_CTRL_TIMEOUT_MS * 1000000 := by decide +kernel

theorem witness_FabricNodeCommandsComplete_bulk :
    let x : Bulk := ⟨9, 3, [0, 1], 700⟩
    let s : State := { live with fab := { live.fab with bulk := [x] } }
    s.inTest 15 = false ∧ s.on .FAB_CTRL_FENCE = false ∧ (s.fab.bulk.find? fun t => t.node == 9 && t.id == 3) = some x ∧ (s.fab.bulk.find? fun t => t.node == 9 && t.id == 4) = none ∧ (live.set .BIST_H_UNIT 0 15).inTest 15 = true ∧ (live.set .FAB_CTRL_FENCE 0 1).on .FAB_CTRL_FENCE = true := by decide +kernel

theorem witness_FabricNodeCommandsComplete_route :
    let s := [(Fld.SYN_TB_CTRL_SRC, 0, 2), (.FAB_H_CNT, 0, 64)].foldl (fun (s : State) q => s.set q.1 q.2.1 q.2.2) live
    live.gate dev .device 15 = .ok ∧ s.get .SYN_TB_CTRL_SRC = 2 ∧ s.on .FAB_NODE_ROOT = false ∧ 64 ≤ s.get .FAB_H_CNT ∧ live.get .SYN_TB_CTRL_SRC ≠ 2 := by decide +kernel

theorem witness_FabricNodeCommandsComplete_control :
    (∀ src ∈ [dev, ses], live.gate src .installer 15 = .ok ∧ live.gate src .operator 15 = .ok) ∧ (live.set .FAB_CTRL_FENCE 0 1).on .FAB_CTRL_FENCE = true ∧ live.fab.reqs = [] ∧ live.on .FAB_CTRL_FENCE = false := by decide +kernel

theorem witness_RefusedCommandsAnswer_boot :
    let v := live.set .BOOT_H_AWAY 0 1
    let nob : Src := ⟨.host 9, 0x99⟩
    (v.fwGate nob .installer noUnit) ≠ .ok ∧ (v.fwGate nob .maker 18) ≠ .ok ∧ (v.fwGate nob .maker noUnit) ≠ .ok ∧ (v.fwGate nob .operator noUnit) ≠ .ok ∧ (v.gate nob .installer noUnit) ≠ .ok ∧ (v.gate nob .maker noUnit) ≠ .ok ∧ (v.gate nob .operator noUnit) ≠ .ok ∧ v.fwGate nob .device 18 ≠ .ok := by decide +kernel

theorem witness_RefusedCommandsAnswer_bridge :
    let v := live.set .BOOT_H_AWAY 0 1
    let nob : Src := ⟨.host 9, 0x99⟩
    (v.gate nob .device 15) ≠ .ok ∧ (v.gate nob .installer 14) ≠ .ok ∧ (v.gate nob .installer 15) ≠ .ok ∧ (v.gate nob .operator 14) ≠ .ok ∧ (v.gate nob .operator 15) ≠ .ok ∧ v.gate nob .installer 13 ≠ .ok ∧ v.gate nob .operator 13 ≠ .ok := by decide +kernel

theorem witness_RefusedCommandsAnswer_ingress :
    let v := live.set .BOOT_H_AWAY 0 1
    let nob : Src := ⟨.host 9, 0x99⟩
    (v.fwGate nob .operator 18) ≠ .ok ∧ v.gate nob .installer 8 ≠ .ok ∧ v.gate nob .installer 9 ≠ .ok ∧ v.gate nob .operator 8 ≠ .ok ∧ v.gate nob .operator 9 ≠ .ok ∧ v.roleOf nob ≠ .device := by decide +kernel

theorem witness_RefusedCommandsAnswer_lane :
    let v := live.set .BOOT_H_AWAY 0 1
    let nob : Src := ⟨.host 9, 0x99⟩
    !v.mayAs nob .installer ∧ v.gate nob .installer (20 + 47 / 4) ≠ .ok ∧ v.gate nob .installer 16 ≠ .ok ∧ v.gate nob .installer 7 ≠ .ok ∧ v.gate nob .operator (20 + 47 / 4) ≠ .ok ∧ v.gate nob .operator 16 ≠ .ok ∧ v.gate nob .operator 7 ≠ .ok ∧ v.gate nob .operator 8 ≠ .ok := by decide +kernel

theorem witness_RefusedJobsAndRecordsAnswer_job :
    let v := live.set .BOOT_H_AWAY 0 1
    let nob : Src := ⟨.host 9, 0x99⟩
    !v.mayAs nob .operator ∧ (v.jobGate nob false) ≠ .ok ∧ (v.jobGate nob true) ≠ .ok ∧ v.roleOf nob ≠ .device := by decide +kernel

theorem witness_RefusedJobsAndRecordsAnswer_merger :
    let v := live.set .BOOT_H_AWAY 0 1
    let nob : Src := ⟨.host 9, 0x99⟩
    v.gate nob .installer 10 ≠ .ok ∧ v.gate nob .installer 11 ≠ .ok ∧ v.gate nob .installer 12 ≠ .ok ∧ v.gate nob .operator 10 ≠ .ok ∧ v.gate nob .operator 11 ≠ .ok ∧ v.gate nob .operator 12 ≠ .ok ∧ v.slotGate 63 nob ≠ .ok := by decide +kernel

theorem witness_RefusedJobsAndRecordsAnswer_sec :
    let v := live.set .BOOT_H_AWAY 0 1
    let nob : Src := ⟨.host 9, 0x99⟩
    (v.fwGate nob .maker 19) ≠ .ok ∧ (v.fwGate nob .operator 19) ≠ .ok ∧ (v.loginGate nob) ≠ .ok ∧ (v.signGate nob .none) ≠ .ok ∧ (v.signGate nob .operator) ≠ .ok := by decide +kernel

theorem witness_RefusedJobsAndRecordsAnswer_sto :
    let v := live.set .BOOT_H_AWAY 0 1
    let nob : Src := ⟨.host 9, 0x99⟩
    ((if (v.stoGate nob) ≠ .ok then (v.stoGate nob) else v.libDeleteCheck 1 nob) ≠ .ok) ∧ ((if (v.stoGate nob) ≠ .ok then (v.stoGate nob) else v.recKeepCheck 1 1) ≠ .ok) ∧ (v.gate nob .installer 17) ≠ .ok ∧ (v.stoGate nob) ≠ .ok ∧ v.gate nob .installer 17 ≠ .ok ∧ v.gate nob .operator 17 ≠ .ok := by decide +kernel

theorem witness_RefusalsWithAnEffectComplete_sleep :
    let v := live.set .BOOT_H_AWAY 0 1
    let nob : Src := ⟨.host 9, 0x99⟩
    v.fwGate nob .installer noUnit ≠ .ok ∧ v.gate nob .device noUnit ≠ .ok := by decide +kernel

theorem witness_RefusalsWithAnEffectComplete_job :
    live.jobGate ses true = .ok ∧ live.jobGate ses false = .ok ∧ live.isFollower = false ∧ live.hamper? (live.jobEntry 0).hamper = none ∧ (live.armNext 0 false live.now).2 ≠ .ok ∧ live.roleOf dev = .device ∧ live.fwGate dev .operator 19 = .ok ∧ live.session dev.session = none := by decide +kernel

/-! ### WellFormed takes a term at each bound and refuses one beyond it -/

theorem test_wf_bounds_1 (z : Int) (xLts : Lts) (n : Nat) (b : Bool) (src : Src) :
    (Instr.signalDetect 47).wf = true ∧
    (Instr.signalDetect 48).wf = false ∧
    (Instr.lossOfSignal 47).wf = true ∧
    (Instr.lossOfSignal 48).wf = false ∧
    (Instr.cdrLock 47).wf = true ∧
    (Instr.cdrLock 48).wf = false ∧
    (Instr.cdrUnlock 47).wf = true ∧
    (Instr.cdrUnlock 48).wf = false ∧
    (Instr.offsetMeasureDone 47 z).wf = true ∧
    (Instr.offsetMeasureDone 48 z).wf = false ∧
    (Instr.ltsReceived 47 xLts).wf = true ∧
    (Instr.ltsReceived 48 xLts).wf = false ∧
    (Instr.rateChange 47).wf = true ∧
    (Instr.rateChange 48).wf = false ∧
    (Instr.blockLock 47).wf = true ∧
    (Instr.blockLock 48).wf = false ∧
    (Instr.verifyWindowEnd 47 n n n).wf = true ∧
    (Instr.verifyWindowEnd 48 n n n).wf = false ∧
    (Instr.verdictReceived 47 b).wf = true ∧
    (Instr.verdictReceived 48 b).wf = false ∧
    (Instr.verdictTimeout 47).wf = true ∧
    (Instr.verdictTimeout 48).wf = false ∧
    (Instr.negotiateTimeout 47).wf = true ∧
    (Instr.negotiateTimeout 48).wf = false ∧
    (Instr.noLts 47).wf = true ∧
    (Instr.noLts 48).wf = false ∧
    (Instr.stepTimeout 47).wf = true ∧
    (Instr.stepTimeout 48).wf = false ∧
    (Instr.alignLoss 47).wf = true ∧
    (Instr.alignLoss 48).wf = false ∧
    (Instr.napTimeout 47).wf = true ∧
    (Instr.napTimeout 48).wf = false ∧
    (Instr.backoffExpiry 47).wf = true ∧
    (Instr.backoffExpiry 48).wf = false ∧
    (Instr.activeStable 47).wf = true ∧
    (Instr.activeStable 48).wf = false ∧
    (Instr.laneEnable 47 src).wf = true ∧
    (Instr.laneEnable 48 src).wf = false ∧
    (Instr.laneDisable 47 src).wf = true ∧
    (Instr.laneDisable 48 src).wf = false := by
  and_intros <;> rfl

theorem test_wf_bounds_2 (z : Int) (n : Nat) (b : Bool) (src : Src) :
    (Instr.laneRetrain 47 src).wf = true ∧
    (Instr.laneRetrain 48 src).wf = false ∧
    (Instr.laneClrCnt 47 src).wf = true ∧
    (Instr.laneClrCnt 48 src).wf = false ∧
    (Instr.laneEqCommit 47 src).wf = true ∧
    (Instr.laneEqCommit 48 src).wf = false ∧
    (Instr.idleTrim 47 n z).wf = true ∧
    (Instr.idleTrim 48 n z).wf = false ∧
    (Instr.trimPassEnd 47).wf = true ∧
    (Instr.trimPassEnd 48).wf = false ∧
    (Instr.serviceTrim 47).wf = true ∧
    (Instr.serviceTrim 48).wf = false ∧
    (Instr.txNap 47).wf = true ∧
    (Instr.txNap 48).wf = false ∧
    (Instr.txWake 47).wf = true ∧
    (Instr.txWake 48).wf = false ∧
    (Instr.rxNap 47).wf = true ∧
    (Instr.rxNap 48).wf = false ∧
    (Instr.eyeScanStart 47 src).wf = true ∧
    (Instr.eyeScanStart 48 src).wf = false ∧
    (Instr.eyeScanDone 47 n).wf = true ∧
    (Instr.eyeScanDone 48 n).wf = false ∧
    (Instr.segmentReceived 31 ⟨[0, 0, 0, 0, 0, 0, 255], [255], b, 2, b⟩).wf = true ∧
    (Instr.segmentReceived 32 ⟨[0, 0, 0, 0, 0, 0, 255], [255], b, 2, b⟩).wf = false ∧
    (Instr.segmentReceived 31 ⟨[0, 0, 0, 0, 0, 0, 256], [], b, 2, b⟩).wf = false ∧
    (Instr.segmentReceived 31 ⟨[0, 0, 0, 0, 0, 0, 0], [256], b, 2, b⟩).wf = false ∧
    (Instr.segmentReceived 31 ⟨[0, 0, 0, 0, 0, 0], [], b, 2, b⟩).wf = false ∧
    (Instr.segmentReceived 31 ⟨[0, 0, 0, 0, 0, 0, 0], [], b, 3, b⟩).wf = false ∧
    (Instr.helloReceived 31 [255]).wf = true ∧
    (Instr.helloReceived 32 [255]).wf = false ∧
    (Instr.helloReceived 31 [255, 256]).wf = false ∧
    (Instr.trigAckReceived 31 [255]).wf = true ∧
    (Instr.trigAckReceived 32 [255]).wf = false ∧
    (Instr.trigAckReceived 31 [255, 256]).wf = false ∧
    (Instr.statusReceived 31 [255]).wf = true ∧
    (Instr.statusReceived 32 [255]).wf = false ∧
    (Instr.statusReceived 31 [255, 256]).wf = false ∧
    (Instr.usmasSymbolBad 31 n [255]).wf = true ∧
    (Instr.usmasSymbolBad 32 n [255]).wf = false ∧
    (Instr.usmasSymbolBad 31 n [255, 256]).wf = false := by
  and_intros <;> rfl

theorem test_wf_bounds_3 (n : Nat) (b : Bool) (src : Src) :
    (Instr.helloSend 31).wf = true ∧
    (Instr.helloSend 32).wf = false ∧
    (Instr.pauseRepeat 31).wf = true ∧
    (Instr.pauseRepeat 32).wf = false ∧
    (Instr.frameTimeout 127).wf = true ∧
    (Instr.frameTimeout 128).wf = false ∧
    (Instr.pointerMismatch 31).wf = true ∧
    (Instr.pointerMismatch 32).wf = false ∧
    (Instr.queueFlush 31 src).wf = true ∧
    (Instr.queueFlush 32 src).wf = false ∧
    (Instr.flushLimit 31).wf = true ∧
    (Instr.flushLimit 32).wf = false ∧
    (Instr.ingClrCnt 31 src).wf = true ∧
    (Instr.ingClrCnt 32 src).wf = false ∧
    (Instr.queueWmWrite 31 b n src).wf = true ∧
    (Instr.queueWmWrite 32 b n src).wf = false ∧
    (Instr.chApply 127 src).wf = true ∧
    (Instr.chApply 128 src).wf = false ∧
    (Instr.playStart 3 src).wf = true ∧
    (Instr.playStart 4 src).wf = false ∧
    (Instr.playStop 3 src).wf = true ∧
    (Instr.playStop 4 src).wf = false ∧
    (Instr.playRecordRead 3).wf = true ∧
    (Instr.playRecordRead 4).wf = false ∧
    (Instr.playPace 3 n).wf = true ∧
    (Instr.playPace 4 n).wf = false ∧
    (Instr.encoderCount 3 (b, b) n).wf = true ∧
    (Instr.encoderCount 4 (b, b) n).wf = false ∧
    (Instr.encoderZ ⟨3, n⟩).wf = true ∧
    (Instr.encoderZ ⟨4, n⟩).wf = false ∧
    (Instr.encPreset 3 n src).wf = true ∧
    (Instr.encPreset 4 n src).wf = false ∧
    (Instr.markEdge 3 b n).wf = true ∧
    (Instr.markEdge 4 b n).wf = false ∧
    (Instr.triggerFire 127).wf = true ∧
    (Instr.triggerFire 128).wf = false ∧
    (Instr.pitchCommit 127 n src).wf = true ∧
    (Instr.pitchCommit 128 n src).wf = false ∧
    (Instr.trigEnable 127 src).wf = true ∧
    (Instr.trigEnable 128 src).wf = false := by
  and_intros <;> rfl

theorem test_wf_bounds_4 (n : Nat) (b : Bool) (src : Src) :
    (Instr.trigDisable 127 src).wf = true ∧
    (Instr.trigDisable 128 src).wf = false ∧
    (Instr.stripeDispatch 7).wf = true ∧
    (Instr.stripeDispatch 8).wf = false ∧
    (Instr.stripeComplete 7).wf = true ∧
    (Instr.stripeComplete 8).wf = false ∧
    (Instr.frameModeLine 7).wf = true ∧
    (Instr.frameModeLine 8).wf = false ∧
    (Instr.exposureLineStored 131 n n).wf = true ∧
    (Instr.exposureLineStored 132 n n).wf = false ∧
    (Instr.holdCopy 31).wf = true ∧
    (Instr.holdCopy 32).wf = false ∧
    (Instr.holdCopyDone 31).wf = true ∧
    (Instr.holdCopyDone 32).wf = false ∧
    (Instr.spillCopyDone 31).wf = true ∧
    (Instr.spillCopyDone 32).wf = false ∧
    (Instr.ctxWindowWrite n [255] src).wf = true ∧
    (Instr.ctxWindowWrite n [255, 256] src).wf = false ∧
    (Instr.ctxGo 131 n b src).wf = true ∧
    (Instr.ctxGo 132 n b src).wf = false ∧
    (Instr.ctxCancel 131 src).wf = true ∧
    (Instr.ctxCancel 132 src).wf = false ∧
    (Instr.rollStart 7 b src).wf = true ∧
    (Instr.rollStart 8 b src).wf = false ∧
    (Instr.pipeFence 7 src).wf = true ∧
    (Instr.pipeFence 8 src).wf = false ∧
    (Instr.pipeFenceDone 7).wf = true ∧
    (Instr.pipeFenceDone 8).wf = false ∧
    (Instr.pipeUnfence 7 src).wf = true ∧
    (Instr.pipeUnfence 8 src).wf = false ∧
    (Instr.pipeReset 7 src).wf = true ∧
    (Instr.pipeReset 8 src).wf = false ∧
    (Instr.pipeClrCnt 7 src).wf = true ∧
    (Instr.pipeClrCnt 8 src).wf = false ∧
    (Instr.tileLineEmit 7 n n).wf = true ∧
    (Instr.tileLineEmit 8 n n).wf = false ∧
    (Instr.joinWindowClose 7 n).wf = true ∧
    (Instr.joinWindowClose 8 n).wf = false ∧
    (Instr.seamPacketSend 7 n n).wf = true ∧
    (Instr.seamPacketSend 8 n n).wf = false := by
  and_intros <;> rfl

theorem test_wf_bounds_5 (n : Nat) (b : Bool) (src : Src) (xOptionNatNat : Option (Nat × Nat)) (xNak : Nak) :
    (Instr.seamPacketReceived [255]).wf = true ∧
    (Instr.seamPacketReceived [255, 256]).wf = false ∧
    (Instr.seamWaitExpiry 7 n n).wf = true ∧
    (Instr.seamWaitExpiry 8 n n).wf = false ∧
    (Instr.layoutWindowWrite n [255] src).wf = true ∧
    (Instr.layoutWindowWrite n [255, 256] src).wf = false ∧
    (Instr.mrgGo 7 n src).wf = true ∧
    (Instr.mrgGo 8 n src).wf = false ∧
    (Instr.mrgCancel 7 src).wf = true ∧
    (Instr.mrgCancel 8 src).wf = false ∧
    (Instr.holdMaxRead 7 src).wf = true ∧
    (Instr.holdMaxRead 8 src).wf = false ∧
    (Instr.alignmentTile 7 n n n b).wf = true ∧
    (Instr.alignmentTile 8 n n n b).wf = false ∧
    (Instr.slotLoad 1 src).wf = true ∧
    (Instr.slotLoad 2 src).wf = false ∧
    (Instr.slotDone 1 src).wf = true ∧
    (Instr.slotDone 2 src).wf = false ∧
    (Instr.slotCheckDone 1).wf = true ∧
    (Instr.slotCheckDone 2).wf = false ∧
    (Instr.slotClear 1 src).wf = true ∧
    (Instr.slotClear 2 src).wf = false ∧
    (Instr.cmpWindowWrite n [255] src).wf = true ∧
    (Instr.cmpWindowWrite n [255, 256] src).wf = false ∧
    (Instr.refGo 7 n src).wf = true ∧
    (Instr.refGo 8 n src).wf = false ∧
    (Instr.refCancel 7 src).wf = true ∧
    (Instr.refCancel 8 src).wf = false ∧
    (Instr.profCommit 15 src).wf = true ∧
    (Instr.profCommit 16 src).wf = false ∧
    (Instr.classBBudgetExpiry 255 n).wf = true ∧
    (Instr.classBBudgetExpiry 256 n).wf = false ∧
    (Instr.portSend 7 xOptionNatNat).wf = true ∧
    (Instr.portSend 8 xOptionNatNat).wf = false ∧
    (Instr.ackReceived 255 n b).wf = true ∧
    (Instr.ackReceived 256 n b).wf = false ∧
    (Instr.nakReceived 255 n ⟨xNak, n⟩ b).wf = true ∧
    (Instr.nakReceived 256 n ⟨xNak, n⟩ b).wf = false ∧
    (Instr.qpRetryTimeout 255).wf = true ∧
    (Instr.qpRetryTimeout 256).wf = false := by
  and_intros <;> rfl

theorem test_wf_bounds_6 (n : Nat) (b : Bool) (src : Src) (xMemErr : MemErr) :
    (Instr.rnrTimer 255).wf = true ∧
    (Instr.rnrTimer 256).wf = false ∧
    (Instr.cnpReceived ⟨255, b⟩).wf = true ∧
    (Instr.cnpReceived ⟨256, b⟩).wf = false ∧
    (Instr.cnpRateInc 255).wf = true ∧
    (Instr.cnpRateInc 256).wf = false ∧
    (Instr.qpEnable 255 src).wf = true ∧
    (Instr.qpEnable 256 src).wf = false ∧
    (Instr.qpReset 255 src).wf = true ∧
    (Instr.qpReset 256 src).wf = false ∧
    (Instr.egressLinkDown 7).wf = true ∧
    (Instr.egressLinkDown 8).wf = false ∧
    (Instr.egressLinkUp 7).wf = true ∧
    (Instr.egressLinkUp 8).wf = false ∧
    (Instr.pauseFrameReceived 7 b n n).wf = true ∧
    (Instr.pauseFrameReceived 8 b n n).wf = false ∧
    (Instr.rxFrameDiscard 7).wf = true ∧
    (Instr.rxFrameDiscard 8).wf = false ∧
    (Instr.creditBlock 255 ⟨.only, b, [255]⟩).wf = true ∧
    (Instr.creditBlock 256 ⟨.only, b, [255]⟩).wf = false ∧
    (Instr.creditBlock 255 ⟨.only, b, [255, 256]⟩).wf = false ∧
    (Instr.strConsWrite 255 4294967295 src).wf = true ∧
    (Instr.strConsWrite 256 4294967295 src).wf = false ∧
    (Instr.strConsWrite 255 4294967296 src).wf = false ∧
    (Instr.classDelaySet 7 n n src).wf = true ∧
    (Instr.classDelaySet 8 n n src).wf = false ∧
    (Instr.badMessage 255 ⟨.only, b, [255]⟩).wf = true ∧
    (Instr.badMessage 256 ⟨.only, b, [255]⟩).wf = false ∧
    (Instr.badMessage 255 ⟨.only, b, [255, 256]⟩).wf = false ∧
    (Instr.accessRequest 255 ⟨.only, b, [255]⟩).wf = true ∧
    (Instr.accessRequest 256 ⟨.only, b, [255]⟩).wf = false ∧
    (Instr.accessRequest 255 ⟨.only, b, [255, 256]⟩).wf = false ∧
    (Instr.pieceComplete 15 n xMemErr).wf = true ∧
    (Instr.pieceComplete 16 n xMemErr).wf = false ∧
    (Instr.pieceTimeout 15 n).wf = true ∧
    (Instr.pieceTimeout 16 n).wf = false ∧
    (Instr.readaheadExpiry 255).wf = true ∧
    (Instr.readaheadExpiry 256).wf = false ∧
    (Instr.commandMessage 255 ⟨.only, b, [255]⟩).wf = true ∧
    (Instr.commandMessage 256 ⟨.only, b, [255]⟩).wf = false := by
  and_intros <;> rfl

theorem test_wf_bounds_7 (n : Nat) (b : Bool) (src : Src) (xMemErr : MemErr) :
    (Instr.commandMessage 255 ⟨.only, b, [255, 256]⟩).wf = false ∧
    (Instr.winCommit 15 src).wf = true ∧
    (Instr.winCommit 16 src).wf = false ∧
    (Instr.winCommitApply 15).wf = true ∧
    (Instr.winCommitApply 16).wf = false ∧
    (Instr.jobArm 3 b src).wf = true ∧
    (Instr.jobArm 4 b src).wf = false ∧
    (Instr.jobStop 3 b src).wf = true ∧
    (Instr.jobStop 4 b src).wf = false ∧
    (Instr.jobCtrlArm 3 b b src).wf = true ∧
    (Instr.jobCtrlArm 4 b b src).wf = false ∧
    (Instr.jobMsgPrepare n n 3 n n).wf = true ∧
    (Instr.jobMsgPrepare n n 4 n n).wf = false ∧
    (Instr.jobMsgArm n n 3 n n).wf = true ∧
    (Instr.jobMsgArm n n 4 n n).wf = false ∧
    (Instr.memoryTransaction n src n n n (some [255]) xMemErr b).wf = true ∧
    (Instr.memoryTransaction n src n n n (some [256]) xMemErr b).wf = false ∧
    (Instr.mr4Poll 15 n).wf = true ∧
    (Instr.mr4Poll 16 n).wf = false ∧
    (Instr.refresh 15).wf = true ∧
    (Instr.refresh 16).wf = false ∧
    (Instr.writeLinkPoll 15 n).wf = true ∧
    (Instr.writeLinkPoll 16 n).wf = false ∧
    (Instr.fabPacketReceived 7 [255] [255] b b b n).wf = true ∧
    (Instr.fabPacketReceived 8 [255] [255] b b b n).wf = false ∧
    (Instr.fabPacketReceived 7 [255, 256] [255] b b b n).wf = false ∧
    (Instr.fabPacketReceived 7 [255] [255, 256] b b b n).wf = false ∧
    (Instr.fabAck 7 [255]).wf = true ∧
    (Instr.fabAck 8 [255]).wf = false ∧
    (Instr.fabAck 7 [255, 256]).wf = false ∧
    (Instr.fabNak 7 [255]).wf = true ∧
    (Instr.fabNak 8 [255]).wf = false ∧
    (Instr.fabNak 7 [255, 256]).wf = false ∧
    (Instr.fabCredit 7 [255]).wf = true ∧
    (Instr.fabCredit 8 [255]).wf = false ∧
    (Instr.fabCredit 7 [255, 256]).wf = false ∧
    (Instr.fabAlign 7 [255]).wf = true ∧
    (Instr.fabAlign 8 [255]).wf = false ∧
    (Instr.fabAlign 7 [255, 256]).wf = false ∧
    (Instr.linkReset 7 [255]).wf = true := by
  and_intros <;> rfl

theorem test_wf_bounds_8 (n : Nat) (src : Src) :
    (Instr.linkReset 8 [255]).wf = false ∧
    (Instr.linkReset 7 [255, 256]).wf = false ∧
    (Instr.fabSleepSymbol 7 [255]).wf = true ∧
    (Instr.fabSleepSymbol 8 [255]).wf = false ∧
    (Instr.fabSleepSymbol 7 [255, 256]).wf = false ∧
    (Instr.fabReplayTimeout 7).wf = true ∧
    (Instr.fabReplayTimeout 8).wf = false ∧
    (Instr.waymarkSend 7).wf = true ∧
    (Instr.waymarkSend 8).wf = false ∧
    (Instr.waymarkReceived 7 [255]).wf = true ∧
    (Instr.waymarkReceived 8 [255]).wf = false ∧
    (Instr.waymarkReceived 7 [255, 256]).wf = false ∧
    (Instr.neighbourLost 7).wf = true ∧
    (Instr.neighbourLost 8).wf = false ∧
    (Instr.linkStateReceived 7 [255]).wf = true ∧
    (Instr.linkStateReceived 8 [255]).wf = false ∧
    (Instr.linkStateReceived 7 [255, 256]).wf = false ∧
    (Instr.idTableReceived 7 [255]).wf = true ∧
    (Instr.idTableReceived 8 [255]).wf = false ∧
    (Instr.idTableReceived 7 [255, 256]).wf = false ∧
    (Instr.ctrlRequestReceived 7 [255]).wf = true ∧
    (Instr.ctrlRequestReceived 8 [255]).wf = false ∧
    (Instr.ctrlRequestReceived 7 [255, 256]).wf = false ∧
    (Instr.ctrlReplyReceived 7 [255]).wf = true ∧
    (Instr.ctrlReplyReceived 8 [255]).wf = false ∧
    (Instr.ctrlReplyReceived 7 [255, 256]).wf = false ∧
    (Instr.timeRequestReceived 7 [255] n).wf = true ∧
    (Instr.timeRequestReceived 8 [255] n).wf = false ∧
    (Instr.timeRequestReceived 7 [255, 256] n).wf = false ∧
    (Instr.timeResponseReceived 7 [255] n).wf = true ∧
    (Instr.timeResponseReceived 8 [255] n).wf = false ∧
    (Instr.timeResponseReceived 7 [255, 256] n).wf = false ∧
    (Instr.bulkPacketReceived 7 [255]).wf = true ∧
    (Instr.bulkPacketReceived 8 [255]).wf = false ∧
    (Instr.bulkPacketReceived 7 [255, 256]).wf = false ∧
    (Instr.lateErrorReceived 7 [255]).wf = true ∧
    (Instr.lateErrorReceived 8 [255]).wf = false ∧
    (Instr.lateErrorReceived 7 [255, 256]).wf = false ∧
    (Instr.fabPortWake 7 src).wf = true ∧
    (Instr.fabPortWake 8 src).wf = false := by
  and_intros <;> rfl

theorem test_wf_bounds_9 (n : Nat) (b : Bool) (src : Src) (xSigs : Sigs) :
    (Instr.loginFinish [255] xSigs src).wf = true ∧
    (Instr.loginFinish [255, 256] xSigs src).wf = false ∧
    (Instr.attest [255] b src).wf = true ∧
    (Instr.attest [255, 256] b src).wf = false ∧
    (Instr.pageWrite [255]).wf = true ∧
    (Instr.pageWrite [255, 256]).wf = false ∧
    (Instr.evtForward 255 b src).wf = true ∧
    (Instr.evtForward 256 b src).wf = false ∧
    (Instr.ibiRetry 2 b).wf = true ∧
    (Instr.ibiRetry 3 b).wf = false ∧
    (Instr.bistRun 32 n n src).wf = true ∧
    (Instr.bistRun 33 n n src).wf = false ∧
    (Instr.bistResult 32 src).wf = true ∧
    (Instr.bistResult 33 src).wf = false ∧
    (Instr.botexWake 47 n).wf = true ∧
    (Instr.botexWake 48 n).wf = false ∧
    (Instr.tempSample [255]).wf = true ∧
    (Instr.tempSample [255, 256]).wf = false ∧
    (Instr.registerWrite 1099511627775 4294967295 src).wf = true ∧
    (Instr.registerWrite 1099511627776 4294967295 src).wf = false ∧
    (Instr.registerWrite 1099511627775 4294967296 src).wf = false ∧
    (Instr.stickyClear 1099511627775 4294967295 src).wf = true ∧
    (Instr.stickyClear 1099511627776 4294967295 src).wf = false ∧
    (Instr.stickyClear 1099511627775 4294967296 src).wf = false ∧
    (Instr.loReadLatch 1099511627775 src).wf = true ∧
    (Instr.loReadLatch 1099511627776 src).wf = false ∧
    (Instr.hiWriteApply 1099511627775 4294967295 src).wf = true ∧
    (Instr.hiWriteApply 1099511627776 4294967295 src).wf = false ∧
    (Instr.hiWriteApply 1099511627775 4294967296 src).wf = false ∧
    (Instr.outputPortServe 7).wf = true ∧
    (Instr.outputPortServe 8).wf = false ∧
    (Instr.blockResetDone 32).wf = true ∧
    (Instr.blockResetDone 33).wf = false := by
  and_intros <;> rfl

/-! ### Worked examples of the manual -/

/-- 14_memory_subsystem.md, R349: internal address 0x10_4000_1234. -/
theorem test_interleave : memChannel 0x1040001234 = 3 ∧ memOffset 0x1040001234 = 0x4000134 := by decide

/-- 15_botex_fabric.md, the first exchange after a partition: offset 35 ns, delay 182 ns. -/
theorem test_exchange :
    exchange (1000000000 * 16) (1000000147 * 16) (1000000300 * 16) (1000000517 * 16) 0 = (35 * 16, 182 * 16) := by decide

/-- 05_pipeline_contexts.md, R136: a stripe of 132 lines of 5,120 columns and one exposure costs 42,304 clocks. -/
theorem test_stripe_cost : stripeCost 1 132 5120 = 42304 := by decide

/-- 09_teasel_codec.md, R234: an s9 sample of −40 predicted −31 at NEAR 2. -/
theorem test_quantise : quantErr 1 2 (-9) = -2 ∧ reconstruct 1 2 (-31) 1 (-2) = -41 ∧ foldErr (-2) = 3 ∧ unfoldErr 3 = -2 := by
  decide

/-- 06_pixel_corrections.md, R155: the knots of the carton-line pixel. -/
theorem test_linearise : linearise 381500 385700 3072 = 384650 := by decide

/-- 06_pixel_corrections.md, R165 and R166: grid position, gain and shading of the carton-line pixel. -/
theorem test_shading : gridPos 2000 5120 = (12, 32) ∧ gridPos 1000 4096 = (7, 52) ∧ lscGain 1300 1296 1310 1306 32 52 = 1306 ∧
    lscApply 368266 1306 = 469683 := by decide

/-- 06_pixel_corrections.md, R171 and R172: the carton-line matrix. -/
theorem test_matrix : matrixRow 6000 (-1500) (-404) 0 469683 672100 377800 0 = 404618 ∧ outValue 404618 = 25289 ∧
    matrixRow (-900) 5400 (-404) 0 469683 672100 377800 0 = 745604 ∧ outValue 745604 = 46600 ∧
    matrixRow (-200) (-1300) 5596 0 469683 672100 377800 0 = 279908 ∧ outValue 279908 = 17494 := by decide

/-- 11_host_window_bridge.md, R285: the pieces of 0x00C0 to 0x05BF of the example. -/
theorem test_pieces : (cutPieces 1280 0x10400000C0 1280).map (fun p => (p.addr % 65536, p.len)) =
    [(0x00C0, 64), (0x0100, 256), (0x0200, 256), (0x0300, 256), (0x0400, 256), (0x0500, 192)] := by decide

/-- 11_host_window_bridge.md, R288: a register through a window with SWAP 2. -/
theorem test_swap : swapBytes 4 [0x00, 0xFA, 0x02, 0x00] = [0x00, 0x02, 0xFA, 0x00] := by decide

/-- 20_power_sleep_reset.md, R497: 50,400 s are 1,651,507,200 ticks. -/
theorem test_ticks : ticksNs 1651507200 = 50400000000000 := by decide

/-- 04_sync_and_tagging.md, R94: in quadrature by four, A leading B counts up and the reverse counts down. -/
theorem test_quadrature : encoderStep 0 false false true false = 1 ∧ encoderStep 0 false false false true = -1 := by decide

end Sys2Proof.Tests
end

section
/-! PROOFS. What every command and every step keeps: each command's footprint (O6), and the invariant (O5, O4). -/

namespace Sys2Proof.Machine

/-- The mask that holds the bit of every listed page or part. -/
def bitMask (l : List Nat) : Nat := l.foldr (fun k m => 2 ^ k ||| m) 0

theorem bitMask_testBit (l : List Nat) (k : Nat) : (bitMask l).testBit k = decide (k ∈ l) := by
  induction l with
  | nil => simp [bitMask]
  | cons x l ih =>
    have hx : bitMask (x :: l) = 2 ^ x ||| bitMask l := rfl
    rw [hx, Nat.testBit_or, ih, Nat.testBit_two_pow, ← Bool.decide_or]
    simp only [List.mem_cons, eq_comm]

theorem bitMask_range (n : Nat) : bitMask (List.range n) = 2 ^ n - 1 :=
  Nat.eq_of_testBit_eq fun k => by rw [bitMask_testBit, Nat.testBit_two_pow_sub_one]; simp only [List.mem_range]

/-- The number of a part, which is its bit in the masks of `SameParts`, names it. -/
theorem Part.ctorIdx_injective : Function.Injective Part.ctorIdx :=
  Function.LeftInverse.injective Part.ofNat_ctorIdx

/-- A part whose bit the mask lacks is the same. -/
theorem SameParts.same {m : Nat} {s t : State} (h : SameParts m s t) (p : Part) (hp : m.testBit p.ctorIdx = false) :
    p.same s t := by
  cases p with
  | mem => exact h.mem hp
  | evq => exact h.evq hp
  | lane => exact h.lane hp
  | frames => exact h.frames hp
  | ing => exact h.ing hp
  | syn => exact h.syn hp
  | pipe => exact h.pipe hp
  | blankets => exact h.blankets hp
  | ref => exact h.ref hp
  | products => exact h.products hp
  | egr => exact h.egr hp
  | brg => exact h.brg hp
  | memq => exact h.memq hp
  | sto => exact h.sto hp
  | job => exact h.job hp
  | fab => exact h.fab hp
  | boot => exact h.boot hp
  | bist => exact h.bist hp
  | mgt => exact h.mgt hp
  | sec => exact h.sec hp
  | out => exact h.out hp
  | fresh => exact h.fresh hp
  | bad => exact h.bad hp

/-- What an update within the masks of some pages and parts may change, in the words of the statements. -/
theorem Upd.touches {pages : List Nat} {parts : List Part} {s t : State}
    (h : Upd (bitMask pages) (bitMask (parts.map Part.ctorIdx)) s t) : Touches pages parts s t where
  cells f i hf := h.cells f i (by rw [bitMask_testBit]; exact decide_eq_false hf)
  others p hp := h.parts.same p (by
    rw [bitMask_testBit]
    refine decide_eq_false fun hm => ?_
    obtain ⟨q, hq, e⟩ := List.mem_map.mp hm
    exact hp (Part.ctorIdx_injective e ▸ hq))
  pending := h.pending

/-- A command's footprint, given by name, in place of `footprint`. -/
theorem NextUpd.ofFootprint {c : Instr} {pages : List Nat} {parts : List Part} {s : State} {r : Res}
    (hf : footprint c = (pages, parts)) (h : NextUpd (bitMask pages) (bitMask (parts.map Part.ctorIdx)) s r) :
    NextUpd (bitMask (footprint c).1) (bitMask ((footprint c).2.map Part.ctorIdx)) s r := by
  rw [hf]; exact h

/-- The same for a command that may change every page. -/
theorem NextUpd.ofEveryPage {c : Instr} {parts : List Part} {s : State} {r : Res}
    (hf : footprint c = (everyPage, parts)) (h : NextUpd (2 ^ 128 - 1) (bitMask (parts.map Part.ctorIdx)) s r) :
    NextUpd (bitMask (footprint c).1) (bitMask ((footprint c).2.map Part.ctorIdx)) s r :=
  .ofFootprint hf (by rw [everyPage, bitMask_range]; exact h)

/-- Every command answers a next state and keeps to its footprint: one law of Laws/Upd for each arm of `exec`. -/
theorem exec_upd (c : Instr) (s : State) :
    NextUpd (bitMask (footprint c).1) (bitMask ((footprint c).2.map Part.ctorIdx)) s (exec c s) := by
  cases c with
  | signalDetect lane => exact .ofFootprint rfl (execSignalDetect_upd lane s (by decide))
  | lossOfSignal lane => exact .ofFootprint rfl (execLossOfSignal_upd lane s (by decide))
  | cdrLock lane => exact .ofFootprint rfl (execCdrLock_upd lane s (by decide))
  | cdrUnlock lane => exact .ofFootprint rfl (execCdrUnlock_upd lane s (by decide))
  | offsetMeasureDone lane ppm => exact .ofFootprint rfl (execOffsetMeasureDone_upd lane ppm s (by decide))
  | ltsReceived lane l => exact .ofFootprint rfl (execLtsReceived_upd lane l s (by decide))
  | rateChange lane => exact .ofFootprint rfl (execRateChange_upd lane s (by decide))
  | blockLock lane => exact .ofFootprint rfl (execBlockLock_upd lane s (by decide))
  | verifyWindowEnd lane hdrErrs uncorr corr => exact .ofFootprint rfl (execVerifyWindowEnd_upd lane hdrErrs uncorr corr s (by decide))
  | verdictReceived lane pass => exact .ofFootprint rfl (execVerdictReceived_upd lane pass s (by decide))
  | verdictTimeout lane => exact .ofFootprint rfl (execVerdictTimeout_upd lane s (by decide))
  | negotiateTimeout lane => exact .ofFootprint rfl (execNegotiateTimeout_upd lane s (by decide))
  | noLts lane => exact .ofFootprint rfl (execNoLts_upd lane s (by decide))
  | stepTimeout lane => exact .ofFootprint rfl (execStepTimeout_upd lane s (by decide))
  | alignLoss lane => exact .ofFootprint rfl (execAlignLoss_upd lane s (by decide))
  | napTimeout lane => exact .ofFootprint rfl (execNapTimeout_upd lane s (by decide))
  | backoffExpiry lane => exact .ofFootprint rfl (execBackoffExpiry_upd lane s (by decide))
  | activeStable lane => exact .ofFootprint rfl (execActiveStable_upd lane s (by decide))
  | laneEnable lane src => exact .ofFootprint rfl (execLaneEnable_upd lane src s (by decide))
  | laneDisable lane src => exact .ofFootprint rfl (execLaneDisable_upd lane src s (by decide))
  | laneRetrain lane src => exact .ofFootprint rfl (execLaneRetrain_upd lane src s (by decide))
  | laneClrCnt lane src => exact .ofFootprint rfl (execLaneClrCnt_upd lane src s (by decide))
  | laneEqCommit lane src => exact .ofFootprint rfl (execLaneEqCommit_upd lane src s (by decide))
  | idleTrim lane idleMs dTj => exact .ofFootprint rfl (execIdleTrim_upd lane idleMs dTj s (by decide))
  | trimPassEnd lane => exact .ofFootprint rfl (execTrimPassEnd_upd lane s (by decide))
  | serviceTrim lane => exact .ofFootprint rfl (execServiceTrim_upd lane s (by decide))
  | txNap lane => exact .ofFootprint rfl (execTxNap_upd lane s (by decide))
  | txWake lane => exact .ofFootprint rfl (execTxWake_upd lane s (by decide))
  | rxNap lane => exact .ofFootprint rfl (execRxNap_upd lane s (by decide))
  | eyeScanStart lane src => exact .ofFootprint rfl (execEyeScanStart_upd lane src s (by decide))
  | eyeScanDone lane mismatches => exact .ofFootprint rfl (execEyeScanDone_upd lane mismatches s (by decide))
  | segmentReceived lane seg => exact .ofFootprint rfl (execSegmentReceived_upd lane seg s (by decide))
  | helloReceived lane arg => exact .ofFootprint rfl (execHelloReceived_upd lane arg s (by decide))
  | trigAckReceived lane arg => exact .ofFootprint rfl (execTrigAckReceived_upd lane arg s (by decide))
  | statusReceived lane arg => exact .ofFootprint rfl (execStatusReceived_upd lane arg s (by decide))
  | usmasSymbolBad lane code arg => exact .ofFootprint rfl (execUsmasSymbolBad_upd lane code arg s (by decide))
  | helloSend lane => exact .ofFootprint rfl (execHelloSend_upd lane s (by decide))
  | pauseRepeat lane => exact .ofFootprint rfl (execPauseRepeat_upd lane s (by decide))
  | frameTimeout c => exact .ofFootprint rfl (execFrameTimeout_upd c s (by decide))
  | pointerMismatch lane => exact .ofFootprint rfl (execPointerMismatch_upd lane s (by decide))
  | queueFlush lane src => exact .ofFootprint rfl (execQueueFlush_upd lane src s (by decide))
  | flushLimit lane => exact .ofFootprint rfl (execFlushLimit_upd lane s (by decide))
  | ingClrCnt lane src => exact .ofFootprint rfl (execIngClrCnt_upd lane src s (by decide))
  | queueWmWrite lane high v src => exact .ofFootprint rfl (execQueueWmWrite_upd lane high v src s (by decide))
  | chApply c src => exact .ofFootprint rfl (execChApply_upd c src s (by decide))
  | playStart k src => exact .ofFootprint rfl (execPlayStart_upd k src s (by decide))
  | playStop k src => exact .ofFootprint rfl (execPlayStop_upd k src s (by decide))
  | playRecordRead k => exact .ofFootprint rfl (execPlayRecordRead_upd k s (by decide))
  | playPace k lines => exact .ofFootprint rfl (execPlayPace_upd k lines s (by decide))
  | encoderCount n levels held => exact .ofFootprint rfl (execEncoderCount_upd n levels held s (by decide))
  | encoderZ e => exact .ofFootprint rfl (execEncoderZ_upd e s (by decide))
  | encPreset n v src => exact .ofFootprint rfl (execEncPreset_upd n v src s (by decide))
  | speedSample => exact .ofFootprint rfl (execSpeedSample_upd s (by decide))
  | markEdge m rising held => exact .ofFootprint rfl (execMarkEdge_upd m rising held s (by decide))
  | triggerFire c => exact .ofFootprint rfl (execTriggerFire_upd c s (by decide))
  | trigPulseEnd pin => exact .ofFootprint rfl (execTrigPulseEnd_upd pin s (by decide))
  | pitchCommit c v src => exact .ofFootprint rfl (execPitchCommit_upd c v src s (by decide))
  | trigEnable c src => exact .ofFootprint rfl (execTrigEnable_upd c src s (by decide))
  | trigDisable c src => exact .ofFootprint rfl (execTrigDisable_upd c src s (by decide))
  | tbStep v src => exact .ofFootprint rfl (execTbStep_upd v src s (by decide))
  | tbSlew v src => exact .ofFootprint rfl (execTbSlew_upd v src s (by decide))
  | slewDone => exact .ofFootprint rfl (execSlewDone_upd s (by decide))
  | ptpRxStamp transport domain msgType seqId stamp => exact .ofFootprint rfl (execPtpRxStamp_upd transport domain msgType seqId stamp s (by decide))
  | ptpTxtsPop src => exact .ofFootprint rfl (execPtpTxtsPop_upd src s (by decide))
  | stripeDispatch p => exact .ofFootprint rfl (execStripeDispatch_upd p s (by decide))
  | stripeComplete p => exact .ofFootprint rfl (execStripeComplete_upd p s (by decide))
  | frameModeLine p => exact .ofFootprint rfl (execFrameModeLine_upd p s (by decide))
  | exposureLineStored c e y => exact .ofFootprint rfl (execExposureLineStored_upd c e y s (by decide))
  | holdCopy lane => exact .ofFootprint rfl (execHoldCopy_upd lane s (by decide))
  | holdCopyDone lane => exact .ofFootprint rfl (execHoldCopyDone_upd lane s (by decide))
  | spillCopyDone lane => exact .ofFootprint rfl (execSpillCopyDone_upd lane s (by decide))
  | ctxWindowWrite addr data src => exact .ofFootprint rfl (execCtxWindowWrite_upd addr data src s (by decide))
  | ctxGo x mode withIng src => exact .ofFootprint rfl (execCtxGo_upd x mode withIng src s (by decide))
  | ctxCancel x src => exact .ofFootprint rfl (execCtxCancel_upd x src s (by decide))
  | rollStart p auto src => exact .ofFootprint rfl (execRollStart_upd p auto src s (by decide))
  | rollStop src => exact .ofFootprint rfl (execRollStop_upd src s (by decide))
  | rollWithdrawn => exact .ofFootprint rfl (execRollWithdrawn_upd s (by decide))
  | rollInterval => exact .ofFootprint rfl (execRollInterval_upd s (by decide))
  | pipeFence p src => exact .ofFootprint rfl (execPipeFence_upd p src s (by decide))
  | pipeFenceDone p => exact .ofFootprint rfl (execPipeFenceDone_upd p s (by decide))
  | pipeUnfence p src => exact .ofFootprint rfl (execPipeUnfence_upd p src s (by decide))
  | pipeReset p src => exact .ofFootprint rfl (execPipeReset_upd p src s (by decide))
  | pipeClrCnt p src => exact .ofFootprint rfl (execPipeClrCnt_upd p src s (by decide))
  | memberRowArrival => exact .ofFootprint rfl (execMemberRowArrival_upd s (by decide))
  | tileLineEmit k seq c => exact .ofFootprint rfl (execTileLineEmit_upd k seq c s (by decide))
  | joinWindowClose k seq => exact .ofFootprint rfl (execJoinWindowClose_upd k seq s (by decide))
  | seamPacketSend k seq side => exact .ofFootprint rfl (execSeamPacketSend_upd k seq side s (by decide))
  | seamPacketReceived data => exact .ofFootprint rfl (execSeamPacketReceived_upd data s (by decide))
  | seamWaitExpiry k seq side => exact .ofFootprint rfl (execSeamWaitExpiry_upd k seq side s (by decide))
  | layoutWindowWrite addr data src => exact .ofFootprint rfl (execLayoutWindowWrite_upd addr data src s (by decide))
  | mrgGo k mode src => exact .ofFootprint rfl (execMrgGo_upd k mode src s (by decide))
  | mrgCancel k src => exact .ofFootprint rfl (execMrgCancel_upd k src s (by decide))
  | mrgClrCnt src => exact .ofFootprint rfl (execMrgClrCnt_upd src s (by decide))
  | holdMaxRead k src => exact .ofFootprint rfl (execHoldMaxRead_upd k src s (by decide))
  | alignmentTile k seq a t memErr => exact .ofFootprint rfl (execAlignmentTile_upd k seq a t memErr s (by decide))
  | slotLoad sl src => exact .ofFootprint rfl (execSlotLoad_upd sl src s (by decide))
  | slotDone sl src => exact .ofFootprint rfl (execSlotDone_upd sl src s (by decide))
  | slotCheckDone sl => exact .ofFootprint rfl (execSlotCheckDone_upd sl s (by decide))
  | slotClear sl src => exact .ofFootprint rfl (execSlotClear_upd sl src s (by decide))
  | cmpWindowWrite addr data src => exact .ofFootprint rfl (execCmpWindowWrite_upd addr data src s (by decide))
  | refGo k mode src => exact .ofFootprint rfl (execRefGo_upd k mode src s (by decide))
  | refCancel k src => exact .ofFootprint rfl (execRefCancel_upd k src s (by decide))
  | refFence src => exact .ofFootprint rfl (execRefFence_upd src s (by decide))
  | refFenceDone => exact .ofFootprint rfl (execRefFenceDone_upd s (by decide))
  | refReset src => exact .ofFootprint rfl (execRefReset_upd src s (by decide))
  | refClrCnt src => exact .ofFootprint rfl (execRefClrCnt_upd src s (by decide))
  | productDone ix => exact .ofFootprint rfl (execProductDone_upd ix s (by decide))
  | profCommit k src => exact .ofFootprint rfl (execProfCommit_upd k src s (by decide))
  | tslFence src => exact .ofFootprint rfl (execTslFence_upd src s (by decide))
  | tslFenceDone => exact .ofFootprint rfl (execTslFenceDone_upd s (by decide))
  | tslReset src => exact .ofFootprint rfl (execTslReset_upd src s (by decide))
  | tslClrCnt src => exact .ofFootprint rfl (execTslClrCnt_upd src s (by decide))
  | deliveryStart ix => exact .ofFootprint rfl (execDeliveryStart_upd ix s (by decide))
  | classBBudgetExpiry st dseq => exact .ofFootprint rfl (execClassBBudgetExpiry_upd st dseq s (by decide))
  | portSend p ptp => exact .ofFootprint rfl (execPortSend_upd p ptp s (by decide))
  | ackReceived q psn ce => exact .ofFootprint rfl (execAckReceived_upd q psn ce s (by decide))
  | nakReceived q psn nak ce => exact .ofFootprint rfl (execNakReceived_upd q psn nak ce s (by decide))
  | qpRetryTimeout q => exact .ofFootprint rfl (execQpRetryTimeout_upd q s (by decide))
  | rnrTimer q => exact .ofFootprint rfl (execRnrTimer_upd q s (by decide))
  | cnpReceived cnp => exact .ofFootprint rfl (execCnpReceived_upd cnp s (by decide))
  | cnpRateInc q => exact .ofFootprint rfl (execCnpRateInc_upd q s (by decide))
  | qpEnable q src => exact .ofFootprint rfl (execQpEnable_upd q src s (by decide))
  | qpReset q src => exact .ofFootprint rfl (execQpReset_upd q src s (by decide))
  | egressLinkDown p => exact .ofFootprint rfl (execEgressLinkDown_upd p s (by decide))
  | egressLinkUp p => exact .ofFootprint rfl (execEgressLinkUp_upd p s (by decide))
  | pauseFrameReceived p pfc prio ns => exact .ofFootprint rfl (execPauseFrameReceived_upd p pfc prio ns s (by decide))
  | rxFrameDiscard p => exact .ofFootprint rfl (execRxFrameDiscard_upd p s (by decide))
  | creditBlock q snd => exact .ofFootprint rfl (execCreditBlock_upd q snd s (by decide))
  | strConsWrite st c src => exact .ofFootprint rfl (execStrConsWrite_upd st c src s (by decide))
  | egrDropPop src => exact .ofFootprint rfl (execEgrDropPop_upd src s (by decide))
  | egrLatePop src => exact .ofFootprint rfl (execEgrLatePop_upd src s (by decide))
  | classDelaySet p sel v src => exact .ofFootprint rfl (execClassDelaySet_upd p sel v src s (by decide))
  | egrFence src => exact .ofFootprint rfl (execEgrFence_upd src s (by decide))
  | egrFenceDone => exact .ofFootprint rfl (execEgrFenceDone_upd s (by decide))
  | egrReset src => exact .ofFootprint rfl (execEgrReset_upd src s (by decide))
  | egrClrCnt src => exact .ofFootprint rfl (execEgrClrCnt_upd src s (by decide))
  | badMessage q snd => exact .ofFootprint rfl (execBadMessage_upd q snd s (by decide))
  | accessRequest q snd => exact .ofFootprint rfl (execAccessRequest_upd q snd s (by decide))
  | pieceComplete k addr err => exact .ofEveryPage rfl (execPieceComplete_upd k addr err s (by decide))
  | pieceTimeout k addr => exact .ofFootprint rfl (execPieceTimeout_upd k addr s (by decide))
  | readaheadExpiry q => exact .ofFootprint rfl (execReadaheadExpiry_upd q s (by decide))
  | commandMessage q snd => exact .ofFootprint rfl (execCommandMessage_upd q snd s (by decide))
  | winCommit w src => exact .ofFootprint rfl (execWinCommit_upd w src s (by decide))
  | winCommitApply w => exact .ofFootprint rfl (execWinCommitApply_upd w s (by decide))
  | brgFence src => exact .ofFootprint rfl (execBrgFence_upd src s (by decide))
  | brgFenceDone => exact .ofFootprint rfl (execBrgFenceDone_upd s (by decide))
  | brgReset src => exact .ofFootprint rfl (execBrgReset_upd src s (by decide))
  | brgClrCnt src => exact .ofFootprint rfl (execBrgClrCnt_upd src s (by decide))
  | jobStb ix => exact .ofFootprint rfl (execJobStb_upd ix s (by decide))
  | jobSelect ix src => exact .ofFootprint rfl (execJobSelect_upd ix src s (by decide))
  | jobLoad num src => exact .ofFootprint rfl (execJobLoad_upd num src s (by decide))
  | jobLoadDone sigs r => exact .ofFootprint rfl (execJobLoadDone_upd sigs r s (by decide))
  | jobArm m immediate src => exact .ofFootprint rfl (execJobArm_upd m immediate src s (by decide))
  | jobCancel src => exact .ofFootprint rfl (execJobCancel_upd src s (by decide))
  | jobStop m immediate src => exact .ofFootprint rfl (execJobStop_upd m immediate src s (by decide))
  | jobQuery src => exact .ofFootprint rfl (execJobQuery_upd src s (by decide))
  | jobCtrlArm m immediate stop src => exact .ofFootprint rfl (execJobCtrlArm_upd m immediate stop src s (by decide))
  | jobCtrlCancel src => exact .ofFootprint rfl (execJobCtrlCancel_upd src s (by decide))
  | setNext v src => exact .ofFootprint rfl (execSetNext_upd v src s (by decide))
  | drainDone => exact .ofFootprint rfl (execDrainDone_upd s (by decide))
  | startEntrySelect => exact .ofFootprint rfl (execStartEntrySelect_upd s (by decide))
  | jobMsgPrepare node tag m job num => exact .ofFootprint rfl (execJobMsgPrepare_upd node tag m job num s (by decide))
  | jobMsgArm node tag m job tarm => exact .ofFootprint rfl (execJobMsgArm_upd node tag m job tarm s (by decide))
  | jobMsgCancel node tag job => exact .ofFootprint rfl (execJobMsgCancel_upd node tag job s (by decide))
  | prepareTimeout => exact .ofFootprint rfl (execPrepareTimeout_upd s (by decide))
  | prepareResend => exact .ofFootprint rfl (execPrepareResend_upd s (by decide))
  | armDeadline => exact .ofFootprint rfl (execArmDeadline_upd s (by decide))
  | nandMount m => exact .ofEveryPage rfl (execNandMount_upd m s (by decide))
  | patrolScrub b r => exact .ofFootprint rfl (execPatrolScrub_upd b r s (by decide))
  | blockOverdue b => exact .ofFootprint rfl (execBlockOverdue_upd b s (by decide))
  | catchupScrub b r => exact .ofFootprint rfl (execCatchupScrub_upd b r s (by decide))
  | wearLevel r => exact .ofFootprint rfl (execWearLevel_upd r s (by decide))
  | programFail b ch lun => exact .ofFootprint rfl (execProgramFail_upd b ch lun s (by decide))
  | eraseFail b ch lun => exact .ofFootprint rfl (execEraseFail_upd b ch lun s (by decide))
  | libPut addr len sigs src => exact .ofFootprint rfl (execLibPut_upd addr len sigs src s (by decide))
  | libDelete num src => exact .ofFootprint rfl (execLibDelete_upd num src s (by decide))
  | libList first count src => exact .ofFootprint rfl (execLibList_upd first count src s (by decide))
  | libGet num stream addr r src => exact .ofFootprint rfl (execLibGet_upd num stream addr r src s (by decide))
  | libVerify num sigs r src => exact .ofFootprint rfl (execLibVerify_upd num sigs r src s (by decide))
  | recorderProgram => exact .ofFootprint rfl (execRecorderProgram_upd s (by decide))
  | recQuery src => exact .ofFootprint rfl (execRecQuery_upd src s (by decide))
  | recGet first count dest r src => exact .ofFootprint rfl (execRecGet_upd first count dest r src s (by decide))
  | recKeep first count src => exact .ofFootprint rfl (execRecKeep_upd first count src s (by decide))
  | recRelease first count src => exact .ofFootprint rfl (execRecRelease_upd first count src s (by decide))
  | recGibWrite v src => exact .ofFootprint rfl (execRecGibWrite_upd v src s (by decide))
  | stoFence src => exact .ofFootprint rfl (execStoFence_upd src s (by decide))
  | stoFenceDone => exact .ofFootprint rfl (execStoFenceDone_upd s (by decide))
  | stoReset src => exact .ofFootprint rfl (execStoReset_upd src s (by decide))
  | stoClrCnt src => exact .ofFootprint rfl (execStoClrCnt_upd src s (by decide))
  | memoryTransaction blk src cls addr len data err busy => exact .ofFootprint rfl (execMemoryTransaction_upd blk src cls addr len data err busy s (by decide))
  | priorityPromote ix => exact .ofFootprint rfl (execPriorityPromote_upd ix s (by decide))
  | mr4Poll ch level => exact .ofFootprint rfl (execMr4Poll_upd ch level s (by decide))
  | refresh ch => exact .ofFootprint rfl (execRefresh_upd ch s (by decide))
  | writeLinkPoll ch n => exact .ofFootprint rfl (execWriteLinkPoll_upd ch n s (by decide))
  | memFence src => exact .ofFootprint rfl (execMemFence_upd src s (by decide))
  | memFenceDone => exact .ofFootprint rfl (execMemFenceDone_upd s (by decide))
  | memReset src => exact .ofFootprint rfl (execMemReset_upd src s (by decide))
  | memResetDone => exact .ofFootprint rfl (execMemResetDone_upd s (by decide))
  | memClrCnt src => exact .ofFootprint rfl (execMemClrCnt_upd src s (by decide))
  | fabPacketReceived p hdr data crcBad poison cut stamp => exact .ofFootprint rfl (execFabPacketReceived_upd p hdr data crcBad poison cut stamp s (by decide))
  | fabAck p arg => exact .ofFootprint rfl (execFabAck_upd p arg s (by decide))
  | fabNak p arg => exact .ofFootprint rfl (execFabNak_upd p arg s (by decide))
  | fabCredit p arg => exact .ofFootprint rfl (execFabCredit_upd p arg s (by decide))
  | fabAlign p arg => exact .ofFootprint rfl (execFabAlign_upd p arg s (by decide))
  | linkReset p arg => exact .ofFootprint rfl (execLinkReset_upd p arg s (by decide))
  | fabSleepSymbol p arg => exact .ofFootprint rfl (execFabSleepSymbol_upd p arg s (by decide))
  | fabReplayTimeout p => exact .ofFootprint rfl (execFabReplayTimeout_upd p s (by decide))
  | waymarkSend p => exact .ofFootprint rfl (execWaymarkSend_upd p s (by decide))
  | waymarkReceived p data => exact .ofFootprint rfl (execWaymarkReceived_upd p data s (by decide))
  | neighbourLost p => exact .ofFootprint rfl (execNeighbourLost_upd p s (by decide))
  | rootUpdate => exact .ofFootprint rfl (execRootUpdate_upd s (by decide))
  | linkStateSend => exact .ofFootprint rfl (execLinkStateSend_upd s (by decide))
  | linkStateReceived p data => exact .ofFootprint rfl (execLinkStateReceived_upd p data s (by decide))
  | linkStateExpiry origin => exact .ofFootprint rfl (execLinkStateExpiry_upd origin s (by decide))
  | idAssign => exact .ofFootprint rfl (execIdAssign_upd s (by decide))
  | idTableReceived p data => exact .ofFootprint rfl (execIdTableReceived_upd p data s (by decide))
  | routeCommit mask src => exact .ofFootprint rfl (execRouteCommit_upd mask src s (by decide))
  | ctrlRequestReceived p data => exact .ofFootprint rfl (execCtrlRequestReceived_upd p data s (by decide))
  | ctrlReplyReceived p data => exact .ofFootprint rfl (execCtrlReplyReceived_upd p data s (by decide))
  | ctrlTimeout tag => exact .ofFootprint rfl (execCtrlTimeout_upd tag s (by decide))
  | timeRequestSend => exact .ofFootprint rfl (execTimeRequestSend_upd s (by decide))
  | timeRequestReceived p data stamp => exact .ofFootprint rfl (execTimeRequestReceived_upd p data stamp s (by decide))
  | timeResponseReceived p data stamp => exact .ofFootprint rfl (execTimeResponseReceived_upd p data stamp s (by decide))
  | timeRateCorrect => exact .ofFootprint rfl (execTimeRateCorrect_upd s (by decide))
  | bulkPacketReceived p data => exact .ofFootprint rfl (execBulkPacketReceived_upd p data s (by decide))
  | bulkCommit node tag id packets bytes => exact .ofFootprint rfl (execBulkCommit_upd node tag id packets bytes s (by decide))
  | lateErrorReceived p data => exact .ofFootprint rfl (execLateErrorReceived_upd p data s (by decide))
  | fabLatePop src => exact .ofFootprint rfl (execFabLatePop_upd src s (by decide))
  | fabPortWake p src => exact .ofFootprint rfl (execFabPortWake_upd p src s (by decide))
  | fabFence src => exact .ofFootprint rfl (execFabFence_upd src s (by decide))
  | fabFenceDone => exact .ofFootprint rfl (execFabFenceDone_upd s (by decide))
  | fabReset src => exact .ofFootprint rfl (execFabReset_upd src s (by decide))
  | fabClrCnt src => exact .ofFootprint rfl (execFabClrCnt_upd src s (by decide))
  | bootRead nor => exact .ofFootprint rfl (execBootRead_upd nor s (by decide))
  | firmwareStart => exact .ofEveryPage rfl (execFirmwareStart_upd s (by decide))
  | fwUpdate addr len src => exact .ofFootprint rfl (execFwUpdate_upd addr len src s (by decide))
  | updateVerifyDone v => exact .ofFootprint rfl (execUpdateVerifyDone_upd v s (by decide))
  | updateProgramDone ok => exact .ofFootprint rfl (execUpdateProgramDone_upd ok s (by decide))
  | updateReadbackDone v => exact .ofFootprint rfl (execUpdateReadbackDone_upd v s (by decide))
  | fwActivate src => exact .ofFootprint rfl (execFwActivate_upd src s (by decide))
  | fwConfirm src => exact .ofFootprint rfl (execFwConfirm_upd src s (by decide))
  | confirmTimeout => exact .ofFootprint rfl (execConfirmTimeout_upd s (by decide))
  | loginBegin role key major src => exact .ofFootprint rfl (execLoginBegin_upd role key major src s (by decide))
  | loginFinish msg sigs src => exact .ofFootprint rfl (execLoginFinish_upd msg sigs src s (by decide))
  | logout src => exact .ofFootprint rfl (execLogout_upd src s (by decide))
  | sessionIdleTimeout n => exact .ofFootprint rfl (execSessionIdleTimeout_upd n s (by decide))
  | lockoutExpiry role key => exact .ofFootprint rfl (execLockoutExpiry_upd role key s (by decide))
  | attest nonce keys src => exact .ofFootprint rfl (execAttest_upd nonce keys src s (by decide))
  | attestKeysReady ms => exact .ofFootprint rfl (execAttestKeysReady_upd ms s (by decide))
  | auditRecordDurable => exact .ofEveryPage rfl (execAuditRecordDurable_upd s (by decide))
  | headSignDone => exact .ofFootprint rfl (execHeadSignDone_upd s (by decide))
  | auditRead first count stream addr src => exact .ofFootprint rfl (execAuditRead_upd first count stream addr src s (by decide))
  | auditSign src => exact .ofFootprint rfl (execAuditSign_upd src s (by decide))
  | auditRelease first groups src => exact .ofFootprint rfl (execAuditRelease_upd first groups src s (by decide))
  | fuseProgram field value src => exact .ofFootprint rfl (execFuseProgram_upd field value src s (by decide))
  | testUnlock src => exact .ofFootprint rfl (execTestUnlock_upd src s (by decide))
  | decommission uid src => exact .ofEveryPage rfl (execDecommission_upd uid src s (by decide))
  | rngFail => exact .ofFootprint rfl (execRngFail_upd s (by decide))
  | pageWrite data => exact .ofFootprint rfl (execPageWrite_upd data s (by decide))
  | pageRead n => exact .ofFootprint rfl (execPageRead_upd n s (by decide))
  | indirectComplete late err => exact .ofEveryPage rfl (execIndirectComplete_upd late err s (by decide))
  | indirectTimeout => exact .ofFootprint rfl (execIndirectTimeout_upd s (by decide))
  | cmdSubmit => exact .ofFootprint rfl (execCmdSubmit_upd s (by decide))
  | cmdAck => exact .ofFootprint rfl (execCmdAck_upd s (by decide))
  | portBind src => exact .ofFootprint rfl (execPortBind_upd src s (by decide))
  | portUnbind src => exact .ofFootprint rfl (execPortUnbind_upd src s (by decide))
  | evtForward q enable src => exact .ofFootprint rfl (execEvtForward_upd q enable src s (by decide))
  | entdaa addr => exact .ofFootprint rfl (execEntdaa_upd addr s (by decide))
  | setdasa static addr => exact .ofFootprint rfl (execSetdasa_upd static addr s (by decide))
  | rstdaa => exact .ofFootprint rfl (execRstdaa_upd s (by decide))
  | enec ev direct => exact .ofFootprint rfl (execEnec_upd ev direct s (by decide))
  | disec ev direct => exact .ofFootprint rfl (execDisec_upd ev direct s (by decide))
  | getpid => exact .ofFootprint rfl (execGetpid_upd s (by decide))
  | getbcr => exact .ofFootprint rfl (execGetbcr_upd s (by decide))
  | getdcr => exact .ofFootprint rfl (execGetdcr_upd s (by decide))
  | getstatus => exact .ofFootprint rfl (execGetstatus_upd s (by decide))
  | getmxds => exact .ofFootprint rfl (execGetmxds_upd s (by decide))
  | rstact v => exact .ofFootprint rfl (execRstact_upd v s (by decide))
  | cccUnsupported direct => exact .ofFootprint rfl (execCccUnsupported_upd direct s (by decide))
  | ibiRetry k acked => exact .ofFootprint rfl (execIbiRetry_upd k acked s (by decide))
  | sclTimeout => exact .ofFootprint rfl (execSclTimeout_upd s (by decide))
  | sdaTimeout => exact .ofFootprint rfl (execSdaTimeout_upd s (by decide))
  | busAbort => exact .ofFootprint rfl (execBusAbort_upd s (by decide))
  | sdaRelease => exact .ofFootprint rfl (execSdaRelease_upd s (by decide))
  | targetResetPattern => exact .ofEveryPage rfl (execTargetResetPattern_upd s (by decide))
  | evqPop src => exact .ofFootprint rfl (execEvqPop_upd src s (by decide))
  | bistRun unit kinds level src => exact .ofFootprint rfl (execBistRun_upd unit kinds level src s (by decide))
  | bistStop src => exact .ofFootprint rfl (execBistStop_upd src s (by decide))
  | bistResult unit src => exact .ofFootprint rfl (execBistResult_upd unit src s (by decide))
  | bistLog count src => exact .ofFootprint rfl (execBistLog_upd count src s (by decide))
  | bistTestEnd d => exact .ofFootprint rfl (execBistTestEnd_upd d s (by decide))
  | bistTimeout d => exact .ofFootprint rfl (execBistTimeout_upd d s (by decide))
  | powerOn bad max avs => exact .ofEveryPage rfl (execPowerOn_upd bad max avs s (by decide))
  | resetPin bad => exact .ofEveryPage rfl (execResetPin_upd bad s (by decide))
  | vaonLoss => exact .ofEveryPage rfl (execVaonLoss_upd s (by decide))
  | railLoss => exact .ofEveryPage rfl (execRailLoss_upd s (by decide))
  | crystalStop => exact .ofFootprint rfl (execCrystalStop_upd s (by decide))
  | lockstepMismatch => exact .ofFootprint rfl (execLockstepMismatch_upd s (by decide))
  | watchdogTimeout => exact .ofFootprint rfl (execWatchdogTimeout_upd s (by decide))
  | mgtRestart src => exact .ofFootprint rfl (execMgtRestart_upd src s (by decide))
  | mgtRestartDone sramOk fw => exact .ofFootprint rfl (execMgtRestartDone_upd sramOk fw s (by decide))
  | pwrSleep mask alarm src => exact .ofFootprint rfl (execPwrSleep_upd mask alarm src s (by decide))
  | pwrCtrlSleep src => exact .ofFootprint rfl (execPwrCtrlSleep_upd src s (by decide))
  | sleepDrainDone => exact .ofFootprint rfl (execSleepDrainDone_upd s (by decide))
  | sleepDrainLimit => exact .ofFootprint rfl (execSleepDrainLimit_upd s (by decide))
  | sleepEntered field rolling => exact .ofEveryPage rfl (execSleepEntered_upd field rolling s (by decide))
  | wakePin ticks => exact .ofFootprint rfl (execWakePin_upd ticks s (by decide))
  | addressMatchWake ticks => exact .ofFootprint rfl (execAddressMatchWake_upd ticks s (by decide))
  | botexWake lane ticks => exact .ofFootprint rfl (execBotexWake_upd lane ticks s (by decide))
  | rtcAlarm ticks => exact .ofFootprint rfl (execRtcAlarm_upd ticks s (by decide))
  | wakeDone copyOk fw full => exact .ofFootprint rfl (execWakeDone_upd copyOk fw full s (by decide))
  | triggerResume => exact .ofFootprint rfl (execTriggerResume_upd s (by decide))
  | pwrQuery src => exact .ofFootprint rfl (execPwrQuery_upd src s (by decide))
  | pwrRtcSet sec src => exact .ofFootprint rfl (execPwrRtcSet_upd sec src s (by decide))
  | pwrReset uid src => exact .ofEveryPage rfl (execPwrReset_upd uid src s (by decide))
  | pipeGate v src => exact .ofFootprint rfl (execPipeGate_upd v src s (by decide))
  | pwrClrCnt src => exact .ofFootprint rfl (execPwrClrCnt_upd src s (by decide))
  | tempSample temps => exact .ofFootprint rfl (execTempSample_upd temps s (by decide))
  | thermalTrip => exact .ofEveryPage rfl (execThermalTrip_upd s (by decide))
  | registerWrite a v src => exact .ofEveryPage rfl (execRegisterWrite_upd a v src s (by decide))
  | stickyClear a mask src => exact .ofEveryPage rfl (execStickyClear_upd a mask src s (by decide))
  | loReadLatch a src => exact .ofFootprint rfl (execLoReadLatch_upd a src s (by decide))
  | hiWriteApply a v src => exact .ofEveryPage rfl (execHiWriteApply_upd a v src s (by decide))
  | inputLineRelease r y => exact .ofFootprint rfl (execInputLineRelease_upd r y s (by decide))
  | outputPortServe p => exact .ofFootprint rfl (execOutputPortServe_upd p s (by decide))
  | blockResetDone u => exact .ofFootprint rfl (execBlockResetDone_upd u s (by decide))

/-! ### The invariant -/

/-- What `Upd` says of memory and of the queues carries the invariant over. -/
theorem Upd.inv {w p : Nat} {s t : State} (h : Upd w p s t) (hs : Inv s) : Inv t :=
  ⟨h.wf hs.memory, h.bounds hs.bounded⟩

/-- The invariant does not speak of the queue of commands. -/
theorem Inv.withPending {s : State} (h : Inv s) (q : List Instr) : Inv { s with pending := q } :=
  ⟨h.memory, ⟨h.bounded.events, h.bounded.stamps, h.bounded.rejected, h.bounded.nonces, h.bounded.records⟩⟩

theorem exec_keeps_inv {c : Instr} {s t : State} (h : exec c s = .next t) (hs : Inv s) : Inv t := by
  obtain ⟨u, hu, k⟩ := exec_upd c s
  obtain rfl : u = t := Host.Outcome.next.inj (hu.symm.trans h)
  exact k.inv hs

theorem tick_keeps_inv {s : State} (hs : Inv s) : Inv s.tick :=
  (State.tick_upd s (W := 0x1000004) (P := 0) (by decide) (Upd.refl s)).inv hs

end Sys2Proof.Machine

open Sys2Proof Sys2Proof.Machine

/-- Settles O6: the laws of Laws/Upd give each command's next state and its masks; the masks lie within the footprint. -/
theorem everyCommandCompletesWithinItsFootprint : Obligations.EveryCommandCompletesWithinItsFootprint := by
  intro c s
  obtain ⟨t, ht, hu⟩ := exec_upd c s
  exact ⟨t, ht, hu.touches⟩

/-- Settles O5: a step is a clock or the front command, and what either may do keeps the invariant. -/
theorem everyStepKeepsTheInvariant : Obligations.EveryStepKeepsTheInvariant := by
  intro s t hs ht
  unfold step at ht
  split at ht
  · exact Host.Outcome.next.inj ht ▸ tick_keeps_inv hs
  · exact exec_keeps_inv ht (hs.withPending _)

/-- Settles O4: memory and the five queues are empty. -/
theorem resetMeetsTheInvariant : Obligations.ResetMeetsTheInvariant :=
  ⟨rfl, by constructor <;> exact Nat.zero_le _⟩

end

section
/-! PROOFS. What a cell reads after the shared operations that change the management page, and the event queue's rule (O7). -/

namespace Sys2Proof.Machine

/-! ### Counters and bits -/

theorem State.get_add_same (s : State) (f : Fld) (i n : Nat) :
    (s.add f i n).get f i = min (s.get f i + n) (2 ^ f.width - 1) := by
  have hpos : 0 < 2 ^ f.width := Nat.two_pow_pos _
  exact (State.get_set_same ..).trans (Nat.mod_eq_of_lt (by omega))

theorem State.get_inc_same (s : State) (f : Fld) (i : Nat) :
    (s.inc f i).get f i = min (s.get f i + 1) (2 ^ f.width - 1) := State.get_add_same s f i 1

theorem State.get_bump_same (s : State) (f : Fld) (i n : Nat) :
    (s.bump f i n).get f i = (s.get f i + n) % 2 ^ f.width := State.get_set_same ..

theorem State.get_inc_ne (s : State) (f g : Fld) (i j : Nat) (h : f.id ≠ g.id) :
    (s.inc f i).get g j = s.get g j := State.get_set_ne _ _ _ _ _ _ h

theorem State.get_bump_ne (s : State) (f g : Fld) (i j n : Nat) (h : f.id ≠ g.id) :
    (s.bump f i n).get g j = s.get g j := State.get_set_ne _ _ _ _ _ _ h

theorem State.get_setBit_ne (s : State) (f g : Fld) (i j k : Nat) (h : f.id ≠ g.id) :
    (s.setBit f i k).get g j = s.get g j := State.get_set_ne _ _ _ _ _ _ h

/-- A bit within the field's width reads 1 after it has been set. -/
theorem State.bit_setBit_same (s : State) (f : Fld) (i k : Nat) (h : k < f.width) : (s.setBit f i k).bit f i k = true := by
  simp [State.bit, State.setBit, State.get_set_same, Nat.testBit_mod_two_pow, h]

theorem State.foldl_get {α : Type} (l : List α) (g : State → α → State) (s : State) (f : Fld) (i : Nat)
    (hg : ∀ s x, (g s x).get f i = s.get f i) : (l.foldl g s).get f i = s.get f i :=
  List.foldlRecOn (motive := fun t => t.get f i = s.get f i) l g rfl fun t ht x _ => (hg t x).trans ht

/-! ### The event queue -/

/-- The cells that a notification may change (18_i3c_management_port.md R452). -/
def notifyCells : List Fld := [.I3C_H_CAUSE, .I3C_H_IBI, .MGT_H_IRQ]

/-- The cells that an event may change: those of R18, and those of the notification it gives. -/
def eventCells : List Fld := [.MGT_EVQ_NEXT_SEQ, .MGT_EVQ_LOST, .MGT_EVQ_STATUS_OVF] ++ notifyCells

theorem mem_eventCells_of_notify {g : Fld} (h : g ∈ notifyCells) : g ∈ eventCells := List.mem_append_right _ h

theorem State.notify_get_ne (s : State) (f : Fld) (i : Nat)
    (h : ∀ g ∈ notifyCells, g.id ≠ f.id) : s.notify.get f i = s.get f i := by
  have hcause : Fld.I3C_H_CAUSE.id ≠ f.id := h _ (by decide)
  have hibi : Fld.I3C_H_IBI.id ≠ f.id := h _ (by decide)
  have hirq : Fld.MGT_H_IRQ.id ≠ f.id := h _ (by decide)
  unfold State.notify
  extract_lets now fresh irq s1 s2 s3
  have h1 : s1.get f i = s.get f i := State.get_set_ne _ _ _ _ _ _ hcause
  have h2 : s2.get f i = s1.get f i := by
    unfold s2
    split
    · refine State.foldl_get _ _ _ _ _ fun t k => ?_
      split
      · exact State.get_setBit_ne _ _ _ _ _ _ hibi
      · rfl
    · rfl
  have h3 : s3.get f i = s.get f i := (State.get_set_ne _ _ _ _ _ _ hibi).trans (h2.trans h1)
  split
  · exact (State.get_set_ne _ _ _ _ _ _ hirq).trans h3
  · exact h3

@[simp] theorem State.notify_evq (s : State) : s.notify.evq = s.evq :=
  (State.notify_upd s (W := 1) (P := 0x100000) (by decide) (Upd.refl s)).parts.evq (by decide)

/-- While the queue has room an event is appended with the next sequence number. -/
theorem State.event_of_room {s : State} (b n c a : Nat) (h : s.evq.length < 1024) :
    s.event b n c a = State.notify { s.bump .MGT_EVQ_NEXT_SEQ 0 1 with
      evq := s.evq ++ [⟨s.now, b, n, c, s.get .MGT_EVQ_NEXT_SEQ, a⟩] } := by
  have hnow : (s.bump .MGT_EVQ_NEXT_SEQ 0 1).now = s.now := State.get_bump_ne _ _ _ _ _ _ (by decide)
  unfold State.event
  dsimp only
  rw [hnow, if_pos (show (s.bump .MGT_EVQ_NEXT_SEQ 0 1).evq.length < Config.evqDepth from h)]
  rfl

/-- A full queue refuses the event and counts it. -/
theorem State.event_of_full {s : State} (b n c a : Nat) (h : 1024 ≤ s.evq.length) :
    s.event b n c a = ((s.bump .MGT_EVQ_NEXT_SEQ 0 1).inc .MGT_EVQ_LOST).set .MGT_EVQ_STATUS_OVF 0 1 :=
  if_neg (Nat.not_lt.mpr h)

theorem State.event_get_ne (s : State) (b n c a : Nat) (f : Fld) (i : Nat) (h : ∀ g ∈ eventCells, g.id ≠ f.id) :
    (s.event b n c a).get f i = s.get f i := by
  have hseq : Fld.MGT_EVQ_NEXT_SEQ.id ≠ f.id := h _ (by decide)
  rcases Nat.lt_or_ge s.evq.length 1024 with hr | hf
  · rw [State.event_of_room b n c a hr, State.notify_get_ne _ _ _ fun g hg => h g (mem_eventCells_of_notify hg)]
    exact State.get_bump_ne _ _ _ _ _ _ hseq
  · rw [State.event_of_full b n c a hf, State.get_set_ne _ _ _ _ _ _ (h _ (by decide)),
      State.get_inc_ne _ _ _ _ _ (h _ (by decide)), State.get_bump_ne _ _ _ _ _ _ hseq]

theorem State.event_nextSeq (s : State) (b n c a : Nat) :
    (s.event b n c a).get .MGT_EVQ_NEXT_SEQ = (s.get .MGT_EVQ_NEXT_SEQ + 1) % 2 ^ 16 := by
  rcases Nat.lt_or_ge s.evq.length 1024 with hr | hf
  · rw [State.event_of_room b n c a hr, State.notify_get_ne _ _ _ (by decide), State.get_with_evq]
    exact State.get_bump_same ..
  · rw [State.event_of_full b n c a hf, State.get_set_ne _ _ _ _ _ _ (by decide), State.get_inc_ne _ _ _ _ _ (by decide)]
    exact State.get_bump_same ..

theorem State.event_evq_of_room {s : State} (b n c a : Nat) (h : s.evq.length < 1024) :
    (s.event b n c a).evq = s.evq ++ [⟨s.now, b, n, c, s.get .MGT_EVQ_NEXT_SEQ, a⟩] := by
  rw [State.event_of_room b n c a h, State.notify_evq]

theorem State.event_evq_of_full {s : State} (b n c a : Nat) (h : 1024 ≤ s.evq.length) : (s.event b n c a).evq = s.evq := by
  rw [State.event_of_full b n c a h]; rfl

theorem State.event_ovf_of_full {s : State} (b n c a : Nat) (h : 1024 ≤ s.evq.length) :
    (s.event b n c a).get .MGT_EVQ_STATUS_OVF = 1 := by
  rw [State.event_of_full b n c a h, State.get_set_same]; rfl

theorem State.event_lost_of_full {s : State} (b n c a : Nat) (h : 1024 ≤ s.evq.length) :
    (s.event b n c a).get .MGT_EVQ_LOST = min (s.get .MGT_EVQ_LOST + 1) (2 ^ Fld.MGT_EVQ_LOST.width - 1) := by
  rw [State.event_of_full b n c a h, State.get_set_ne _ _ _ _ _ _ (by decide), State.get_inc_same,
    State.get_bump_ne _ _ _ _ _ _ (by decide)]

/-- Events lost one after another leave the entries and move the sequence on by their number. -/
theorem State.events_lost (l : List (Nat × Nat × Nat × Nat)) (s : State) (h : 1024 ≤ s.evq.length)
    (hseq : s.get .MGT_EVQ_NEXT_SEQ < 2 ^ 16) :
    (l.foldl (fun s e => s.event e.1 e.2.1 e.2.2.1 e.2.2.2) s).evq = s.evq ∧
      (l.foldl (fun s e => s.event e.1 e.2.1 e.2.2.1 e.2.2.2) s).get .MGT_EVQ_NEXT_SEQ =
        (s.get .MGT_EVQ_NEXT_SEQ + l.length) % 2 ^ 16 := by
  induction l generalizing s with
  | nil => exact ⟨rfl, (Nat.mod_eq_of_lt hseq).symm⟩
  | cons e l ih =>
    obtain ⟨b, n, c, a⟩ := e
    have hq := State.event_evq_of_full b n c a h
    have hn := State.event_nextSeq s b n c a
    obtain ⟨ihq, ihn⟩ := ih (s.event b n c a) (by rw [hq]; exact h) (by rw [hn]; exact Nat.mod_lt _ (by decide))
    refine ⟨ihq.trans hq, ihn.trans ?_⟩
    rw [hn, List.length_cons]
    omega

/-- The sticky bit stands whether its event is stored, lost or not enabled. -/
theorem State.sticky_bit (s : State) (ev : Fld) (i k : Nat) (en : Fld) (ei ek b n c a : Nat) (hk : k < ev.width)
    (hev : ∀ g ∈ eventCells, g.id ≠ ev.id) : (s.sticky ev i k en ei ek b n c a).bit ev i k = true := by
  have hset := State.bit_setBit_same s ev i k hk
  unfold State.sticky
  dsimp only
  split
  · exact (congrArg (Nat.testBit · k) (State.event_get_ne _ _ _ _ _ ev i hev)).trans hset
  · exact hset

end Sys2Proof.Machine

open Sys2Proof Sys2Proof.Machine

/-- Settles O7: an event in a queue with room, in a full one, several lost ones, and the sticky bit behind an event. -/
theorem eventQueueFollowsItsRule : Obligations.EventQueueFollowsItsRule :=
  ⟨fun b i c a s => ⟨State.event_nextSeq s b i c a, State.event_evq_of_room b i c a,
      fun h => ⟨State.event_evq_of_full b i c a h, State.event_ovf_of_full b i c a h, State.event_lost_of_full b i c a h⟩⟩,
    State.events_lost,
    fun s ev i k en ei ek b n c a => State.sticky_bit s ev i k en ei ek b n c a⟩

end

section
/-! PROOFS. The messages of a leader to its followers, and the leader's waits (O34). -/

namespace Sys2Proof.Machine

/-! ### A message at the gate -/

section Gate
variable {s : State} {node tag m job : Nat}

theorem State.msgPrepare_refused {num : Nat} {st : Status} (hg : s.msgGate node = st) (hst : st ≠ .ok)
    (hl : s.msgLatches node = false) : s.msgPrepare node tag m job num = s.ctrlReply node tag 1 st [] := by
  subst hg; simp [State.msgPrepare, hl, hst]

theorem State.msgArm_refused {tarm : Nat} {st : Status} (hg : s.msgGate node = st) (hst : st ≠ .ok)
    (hl : s.msgLatches node = false) : s.msgArm node tag m job tarm = s.ctrlReply node tag 1 st [] := by
  subst hg; simp [State.msgArm, hl, hst]

theorem State.msgCancel_refused {st : Status} (hg : s.msgGate node = st) (hst : st ≠ .ok)
    (hl : s.msgLatches node = false) : s.msgCancel node tag job = s.ctrlReply node tag 1 st [] := by
  subst hg; simp [State.msgCancel, hl, hst]

theorem State.msgPrepare_latched {num : Nat} (hg : s.msgGate node = .busy) (hl : s.msgLatches node = true) :
    s.msgPrepare node tag m job num = (s.latchSel 2 0 ⟨1, job, num, m, 0⟩).ctrlReply node tag 1 .busy [] := by
  simp [State.msgPrepare, hg, hl]

theorem State.msgArm_latched {tarm : Nat} (hg : s.msgGate node = .busy) (hl : s.msgLatches node = true) :
    s.msgArm node tag m job tarm = (s.latchSel 2 0 ⟨2, job, 0, m, tarm⟩).ctrlReply node tag 1 .busy [] := by
  simp [State.msgArm, hg, hl]

theorem State.msgCancel_latched (hg : s.msgGate node = .busy) (hl : s.msgLatches node = true) :
    s.msgCancel node tag job = (s.latchSel 2 0 ⟨3, job, 0, 0, 0⟩).ctrlReply node tag 1 .busy [] := by
  simp [State.msgCancel, hg, hl]

/-! ### A message that is served -/

/-- While a test holds selections a PREPARE is latched, and its sender waits (19_self_test.md R465). -/
theorem State.msgPrepare_held {num : Nat} (hg : s.msgGate node = .ok) (hh : s.selHeld = true) :
    s.msgPrepare node tag m job num = { s.latchSel 2 0 ⟨1, job, num, m, 0⟩ with
      job := { (s.latchSel 2 0 ⟨1, job, num, m, 0⟩).job with prepare := some (node, tag) } } := by
  simp [State.msgPrepare, hg, hh]

theorem State.msgPrepare_prepared {num : Nat} {u : State} (hg : s.msgGate node = .ok) (hh : s.selHeld = false)
    (hp : s.prepareJob m job num = (u, .ok)) : s.msgPrepare node tag m job num =
      if u.nextState = 2 then u.ctrlReply node tag 1 .ok []
      else { u with job := { u.job with prepare := some (node, tag) } } := by
  simp [State.msgPrepare, hg, hh, hp, nextLoaded]

theorem State.msgPrepare_failed {num : Nat} {u : State} {st : Status} (hg : s.msgGate node = .ok)
    (hh : s.selHeld = false) (hp : s.prepareJob m job num = (u, st)) (hst : st ≠ .ok) :
    s.msgPrepare node tag m job num = u.ctrlReply node tag 1 st [] := by
  simp [State.msgPrepare, hg, hh, hp]

theorem State.msgArm_served {tarm : Nat} {u : State} {st : Status} (hg : s.msgGate node = .ok)
    (ha : s.armMessage m job tarm = (u, st, false)) : s.msgArm node tag m job tarm = u.ctrlReply node tag 1 st [] := by
  simp [State.msgArm, hg, ha]

theorem State.msgCancel_served {u : State} {st : Status} (hg : s.msgGate node = .ok)
    (hc : s.cancelMessage job = (u, st)) : s.msgCancel node tag job = u.ctrlReply node tag 1 st [] := by
  simp [State.msgCancel, hg, hc]

end Gate

/-! ### What an ARM and a CANCEL do (R310) -/

section Served
variable {s u : State} {m job tarm : Nat}

theorem State.armMessage_late (h : tarm < s.now + 100000) : s.armMessage m job tarm = (s, .timeout, false) := by
  simp [State.armMessage, h]

theorem State.armMessage_job (h : s.now + 100000 ≤ tarm) (hj : job ≠ 0) (hn : s.get .JOB_IDS_NEXT_ID = job)
    (ha : s.armNext m false tarm = (u, .ok)) : s.armMessage m job tarm = (u, .ok, false) := by
  simp [State.armMessage, Nat.not_lt.mpr h, hj, hn, ha]

theorem State.armMessage_stop (h : s.now + 100000 ≤ tarm) (hr : s.jobRuns = true) (hn : s.nextState = 0)
    (ha : s.loadStop.armNext m false tarm = (u, .ok)) : s.armMessage m 0 tarm = (u, .ok, false) := by
  simp [State.armMessage, Nat.not_lt.mpr h, hr, hn, ha, nextEmpty]

theorem State.armMessage_otherJob (h : s.now + 100000 ≤ tarm) (hj : job ≠ 0) (hn : s.get .JOB_IDS_NEXT_ID ≠ job) :
    s.armMessage m job tarm = (s, .state, false) := by
  simp [State.armMessage, Nat.not_lt.mpr h, hj, hn]

theorem State.armMessage_noStop (h : s.now + 100000 ≤ tarm) (hn : s.jobRuns = false ∨ s.nextState ≠ 0) :
    s.armMessage m 0 tarm = (s, .state, false) := by
  simp [State.armMessage, Nat.not_lt.mpr h, nextEmpty, hn]

theorem State.cancelMessage_next (h : s.nextState ≠ 0) : s.cancelMessage job = (s.cancelNext, .ok) := by
  simp [State.cancelMessage, nextEmpty, h]

theorem State.cancelMessage_empty (h : s.nextState = 0) : s.cancelMessage job =
    (s, if s.jobRuns && s.get .JOB_IDS_CUR_ID == job && job != 0 then .state else .ok) := by
  simp only [State.cancelMessage, nextEmpty, h, ne_eq, not_true_eq_false, if_false]
  split <;> rfl

end Served

/-! ### The three commands of a follower, and the leader's waits -/

section Exec
variable {s u : State} {node tag m job num tarm : Nat}

theorem exec_jobMsgPrepare_of (hm : m < 4) (h : s.msgPrepare node tag m job num = u) :
    exec (.jobMsgPrepare node tag m job num) s = .next u.jobAnswers := by
  rw [exec_jobMsgPrepare, execJobMsgPrepare, Nat.mod_eq_of_lt hm, h]

theorem exec_jobMsgArm_of (hm : m < 4) (h : s.msgArm node tag m job tarm = u) :
    exec (.jobMsgArm node tag m job tarm) s = .next u.jobAnswers := by
  rw [exec_jobMsgArm, execJobMsgArm, Nat.mod_eq_of_lt hm, h]

theorem exec_jobMsgCancel_of (h : s.msgCancel node tag job = u) :
    exec (.jobMsgCancel node tag job) s = .next u.jobAnswers := by
  rw [exec_jobMsgCancel, execJobMsgCancel, h]

end Exec

/-- On a device that leads none the leader's waits change nothing. -/
theorem leaderWaits_of_not_leader {s : State} (hl : s.isLeader = false) :
    ∀ i ∈ [Instr.prepareTimeout, .armDeadline, .prepareResend], exec i s = .next s := by
  simp [execPrepareTimeout, execArmDeadline, execPrepareResend, hl]

end Sys2Proof.Machine

open Sys2Proof Sys2Proof.Machine

/-- Settles O34: a message by its gate and by what serving it answers, then the leader's three waits. -/
theorem jobMessagesComplete : Obligations.JobMessagesComplete := by
  refine ⟨fun node tag m job num tarm s hg hm => ⟨?_, ?_, ?_, ?_⟩, fun node tag m job num tarm s hg hm => ⟨?_, ?_, ?_, ?_⟩,
    fun node tag m job num tarm s hm => ⟨?_, ?_, ?_⟩, fun s hl => ⟨?_, ?_, ?_⟩, fun s => ⟨?_, ?_, ?_⟩⟩
  -- served with OK
  · exact fun hh u hp => exec_jobMsgPrepare_of hm (State.msgPrepare_prepared hg hh hp)
  · exact fun ht hj hn u ha => exec_jobMsgArm_of hm (State.msgArm_served hg (State.armMessage_job ht hj hn ha))
  · rintro ht rfl hr hn u ha
    exact exec_jobMsgArm_of hm (State.msgArm_served hg (State.armMessage_stop ht hr hn ha))
  · exact fun hn => exec_jobMsgCancel_of (State.msgCancel_served hg (State.cancelMessage_next hn))
  -- not followed: its own status
  · exact fun hh u st hp hst => exec_jobMsgPrepare_of hm (State.msgPrepare_failed hg hh hp hst)
  · exact fun ht => exec_jobMsgArm_of hm (State.msgArm_served hg (State.armMessage_late ht))
  · rintro ht (⟨hj, hn⟩ | ⟨rfl, hn⟩)
    · exact exec_jobMsgArm_of hm (State.msgArm_served hg (State.armMessage_otherJob ht hj hn))
    · exact exec_jobMsgArm_of hm (State.msgArm_served hg (State.armMessage_noStop ht hn))
  · exact fun hn => exec_jobMsgCancel_of (State.msgCancel_served hg (State.cancelMessage_empty hn))
  -- held, latched or refused at the gate
  · exact fun hg hh => exec_jobMsgPrepare_of hm (State.msgPrepare_held hg hh)
  · exact fun hg hl => ⟨exec_jobMsgPrepare_of hm (State.msgPrepare_latched hg hl),
      exec_jobMsgArm_of hm (State.msgArm_latched hg hl), exec_jobMsgCancel_of (State.msgCancel_latched hg hl)⟩
  · intro st hg hst hl i hi
    simp only [List.mem_cons, List.not_mem_nil, or_false] at hi
    obtain rfl | rfl | rfl := hi
    · exact exec_jobMsgPrepare_of hm (State.msgPrepare_refused hg hst hl)
    · exact exec_jobMsgArm_of hm (State.msgArm_refused hg hst hl)
    · exact exec_jobMsgCancel_of (State.msgCancel_refused hg hst hl)
  -- the waits of a leader
  · intro hn hp
    simp [execPrepareTimeout, hl, hn, hp, nextArmed]
  · intro hn ht hp
    simp [execArmDeadline, hl, hn, ht, hp, nextArmed]
  · simp [execPrepareResend, hl]
  -- where they change nothing
  · exact leaderWaits_of_not_leader
  · rintro (hn | hp)
    · simp [execPrepareTimeout, hn, nextArmed]
    · simp [execPrepareTimeout, hp]
  · rintro (hn | ht | hp)
    · simp [execArmDeadline, hn, nextArmed]
    · simp [execArmDeadline, Nat.not_lt.mpr ht]
    · simp [execArmDeadline, hp]

end

section
/-! PROOFS. Commands, common command codes and bus conditions of the management port (O42). -/

namespace Sys2Proof.Machine

/-! ### Cells behind a port flag -/

section Cells
variable (s : State) {f : Fld} (i : Nat)

theorem State.sticky_get_ne {ev : Fld} (n k : Nat) (en : Fld) (ei ek b m c a : Nat) (he : ev.id ≠ f.id)
    (h : ∀ g ∈ eventCells, g.id ≠ f.id) : (s.sticky ev n k en ei ek b m c a).get f i = s.get f i := by
  unfold State.sticky
  dsimp only
  split
  · rw [State.event_get_ne _ _ _ _ _ _ _ h, State.get_setBit_ne _ _ _ _ _ _ he]
  · rw [State.get_setBit_ne _ _ _ _ _ _ he]

/-- The cells that a port flag may change. -/
def flagCells : List Fld := .MGT_I3C_EVENTS_EV :: eventCells

theorem State.portFlag_get_ne (k : Nat) (h : ∀ g ∈ flagCells, g.id ≠ f.id) : (s.portFlag k).get f i = s.get f i := by
  have he : ∀ g ∈ eventCells, g.id ≠ f.id := fun g hg => h g (List.mem_cons_of_mem _ hg)
  rw [State.portFlag, State.notify_get_ne _ _ _ fun g hg => he g (mem_eventCells_of_notify hg)]
  exact State.sticky_get_ne _ _ _ _ _ _ _ _ _ _ _ (h _ (List.mem_cons_self ..)) he

end Cells

theorem State.portFlag_bit (s : State) (k : Nat) (hk : k < 7) : (s.portFlag k).bit .MGT_I3C_EVENTS_EV 0 k = true :=
  (congrArg (Nat.testBit · k) (State.notify_get_ne _ _ _ (by decide))).trans
    (State.sticky_bit _ _ _ _ _ _ _ _ _ _ _ hk (by decide))

/-- A START leaves every cell but the flags', the count of bytes left and the mark of an unfinished transfer. -/
theorem State.busStart_get_ne (s : State) {f : Fld} (i : Nat) (hf : ∀ g ∈ flagCells, g.id ≠ f.id)
    (hr : Fld.I3C_H_RLEFT.id ≠ f.id) (hs : Fld.I3C_H_SDA.id ≠ f.id) : s.busStart.get f i = s.get f i := by
  unfold State.busStart
  dsimp only
  split
  · rw [State.portFlag_get_ne _ _ _ hf, State.get_set_ne _ _ _ _ _ _ hs, State.get_set_ne _ _ _ _ _ _ hr]
  · rw [State.get_set_ne _ _ _ _ _ _ hr]

/-! ### Commands -/

section Commands
variable {s : State} {src : Src}

theorem exec_portBind_answers (hg : s.fwGate src .operator 18 = .ok) (hi : src.ini = .i3c) :
    Answers (.portBind src) s src 0x05 .ok fun t => t.get .MGT_I3C_STATUS_BOUND_SESSION = src.session % 65536 :=
  ⟨s.set .MGT_I3C_STATUS_BOUND_SESSION 0 src.session, by simp [execPortBind, hg, hi], State.get_set_same ..⟩

theorem exec_portUnbind_answers (hg : s.fwGate src .operator 18 = .ok) (hi : src.ini = .i3c) :
    Answers (.portUnbind src) s src 0x06 .ok fun t => t.get .MGT_I3C_STATUS_BOUND_SESSION = 0 :=
  ⟨s.set .MGT_I3C_STATUS_BOUND_SESSION 0 0, by simp [execPortUnbind, hg, hi], State.get_set_same ..⟩

theorem exec_evtForward_answers {q : Nat} {b : Bool} (hg : s.fwGate src .operator 18 = .ok) (hi : src.ini ≠ .i3c)
    (hq : q < 256) (hc : s.on .EGR_QP_CFG_CTRL q = true) : Answers (.evtForward q b src) s src 0x07 .ok fun t =>
      ∃ f, t.mgt.forward = (s.mgt.forward.filter fun g => g.session != src.session) ++ [f] ∧ f.qp = q ∧
        f.session = src.session ∧ f.on = b := by
  let ctr := ((s.mgt.forward.find? fun f => f.session == src.session).map (·.ctr)).getD 0
  let kept := s.mgt.forward.filter fun g => g.session != src.session
  refine ⟨{ s with mgt := { s.mgt with forward := kept ++ [⟨q, src.session, ctr, b⟩] } }, ?_, _, rfl, rfl, rfl, rfl⟩
  simp [execEvtForward, hg, hi, hc, Nat.not_le.mpr hq, ctr, kept]

/-- Without sessions that have events forwarded, a pop only takes the oldest entry away. -/
theorem State.evqPop_cons {e : Ev} {l : List Ev} (he : s.evq = e :: l) (hf : s.mgt.forward = []) :
    s.evqPop = ({ s with evq := l } : State).notify := by
  rw [State.evqPop, he, hf]; rfl

theorem exec_evqPop_of_ok (hr : s.regReach 0x404 true = .ok) (hd : s.roleOf src = .device) :
    exec (.evqPop src) s = .next (s.evqPop.answer src 0x404 .ok) := by
  simp [execEvqPop, hr, hd]

end Commands

/-! ### Common command codes -/

section Ccc
variable {s : State}

theorem State.ccc_unreachable (g : State → State) (h : s.unreachable = true) : s.ccc g = .next s := by
  rw [State.ccc, if_pos h]

theorem State.ccc_reachable (g : State → State) (h : s.unreachable = false) : s.ccc g = .next (g s.busStart) := by
  rw [State.ccc, h]; rfl

theorem State.direct_unreachable (g : State → State) (h : s.unreachable = true) : s.direct g = .next s :=
  State.ccc_unreachable _ h

/-- A directed code with a dynamic address. -/
theorem State.direct_addressed (g : State → State) (h : s.unreachable = false)
    (hd : s.busStart.on .MGT_I3C_STATUS_DA_VALID = true) : s.direct g = .next (g s.busStart) := by
  rw [State.direct, State.ccc_reachable _ h, if_pos hd]

/-- A directed code without a dynamic address is not acknowledged. -/
theorem State.direct_unaddressed (g : State → State) (h : s.unreachable = false)
    (hd : s.busStart.on .MGT_I3C_STATUS_DA_VALID = false) : s.direct g = .next (s.busStart.i3cSend false []) := by
  rw [State.direct, State.ccc_reachable _ h, hd]; rfl

theorem State.takeAddr_spec (a : Nat) : (s.takeAddr a).get .MGT_I3C_STATUS_DYN_ADDR = a % 128 ∧
    (s.takeAddr a).get .MGT_I3C_STATUS_DA_VALID = 1 ∧ (s.takeAddr a).get .I3C_H_MODE = 1 := by
  refine ⟨?_, ?_, State.get_set_same ..⟩
  · rw [State.takeAddr, State.get_set_ne _ _ _ _ _ _ (by decide), State.get_set_ne _ _ _ _ _ _ (by decide)]
    exact State.get_set_same ..
  · rw [State.takeAddr, State.get_set_ne _ _ _ _ _ _ (by decide)]
    exact State.get_set_same ..

theorem exec_rstdaa_completes (h : s.unreachable = false) : Completes .rstdaa s fun t =>
    t.get .MGT_I3C_STATUS_DA_VALID = 0 ∧ t.get .I3C_H_MODE = 0 ∧
      t.get .MGT_I3C_STATUS_BOUND_SESSION = s.get .MGT_I3C_STATUS_BOUND_SESSION := by
  refine ⟨_, show execRstdaa s = _ from State.ccc_reachable _ h, ?_, State.get_set_same .., ?_⟩
  · rw [State.get_set_ne _ _ _ _ _ _ (by decide)]
    exact State.get_set_same ..
  · rw [State.get_set_ne _ _ _ _ _ _ (by decide), State.get_set_ne _ _ _ _ _ _ (by decide),
      State.get_set_ne _ _ _ _ _ _ (by decide)]
    exact State.busStart_get_ne _ _ (by decide) (by decide) (by decide)

theorem State.enint_off {ev v : Nat} (h : ev.testBit 0 = false) : s.enint ev v false = s := by
  simp [State.enint, h]

theorem State.enint_on {ev v : Nat} (h : ev.testBit 0 = true) : s.enint ev v false = s.set .MGT_I3C_STATUS_IBI_EN 0 v := by
  simp [State.enint, h]

theorem State.enint_unaddressed {ev v : Nat} (hd : s.on .MGT_I3C_STATUS_DA_VALID = false) :
    s.enint ev v true = s.i3cSend false [] := by
  simp [State.enint, hd]

theorem State.enint_addressed {ev v : Nat} (hd : s.on .MGT_I3C_STATUS_DA_VALID = true) :
    s.enint ev v true = (if ev.testBit 0 then s.set .MGT_I3C_STATUS_IBI_EN 0 v else s).i3cSend true [] := by
  simp [State.enint, hd]

end Ccc

/-! ### Bus conditions -/

section Bus
variable {s : State}

theorem State.abandon_bit (k : Nat) (hk : k < 7) : (s.abandon k).bit .MGT_I3C_EVENTS_EV 0 k = true :=
  State.portFlag_bit _ k hk

theorem State.abandon_left (k : Nat) : (s.abandon k).get .I3C_H_RLEFT = 0 := by
  rw [State.abandon, State.portFlag_get_ne _ _ _ (by decide), State.get_inc_ne _ _ _ _ _ (by decide),
    State.get_set_ne _ _ _ _ _ _ (by decide)]
  exact State.get_set_same ..

theorem State.abandon_count (k : Nat) :
    (s.abandon k).get .MGT_I3C_CNT_ABORT = min (s.get .MGT_I3C_CNT_ABORT + 1) (2 ^ 32 - 1) := by
  rw [State.abandon, State.portFlag_get_ne _ _ _ (by decide), State.get_inc_same,
    State.get_set_ne _ _ _ _ _ _ (by decide), State.get_set_ne _ _ _ _ _ _ (by decide)]
  rfl

/-- What a transfer that is abandoned under flag `k` leaves. -/
theorem State.abandon_spec (k : Nat) (hk : k < 7) : (s.abandon k).bit .MGT_I3C_EVENTS_EV 0 k = true ∧
    (s.abandon k).get .I3C_H_RLEFT = 0 ∧
    (s.abandon k).get .MGT_I3C_CNT_ABORT = min (s.get .MGT_I3C_CNT_ABORT + 1) (2 ^ 32 - 1) :=
  ⟨State.abandon_bit k hk, State.abandon_left k, State.abandon_count k⟩

theorem exec_sclTimeout_completes (h : s.unreachable = false) : Completes .sclTimeout s fun t =>
    t.bit .MGT_I3C_EVENTS_EV 0 0 = true ∧ t.get .I3C_H_RLEFT = 0 ∧
      t.get .MGT_I3C_CNT_ABORT = min (s.get .MGT_I3C_CNT_ABORT + 1) (2 ^ 32 - 1) :=
  ⟨s.abandon 0, by simp [execSclTimeout, h], State.abandon_spec 0 (by decide)⟩

theorem exec_sdaTimeout_completes (h : s.unreachable = false) : Completes .sdaTimeout s fun t =>
    t.bit .MGT_I3C_EVENTS_EV 0 1 = true ∧ t.get .I3C_H_RLEFT = 0 ∧
      t.get .MGT_I3C_CNT_ABORT = min (s.get .MGT_I3C_CNT_ABORT + 1) (2 ^ 32 - 1) :=
  ⟨s.abandon 1, by simp [execSdaTimeout, h], State.abandon_spec 1 (by decide)⟩

/-- In I3C mode an abort is a protocol error besides. -/
theorem exec_busAbort_completes (h : s.unreachable = false) : Completes .busAbort s fun t =>
    t.bit .MGT_I3C_EVENTS_EV 0 2 = true ∧ t.get .I3C_H_RLEFT = 0 ∧
      t.get .MGT_I3C_CNT_ABORT = min (s.get .MGT_I3C_CNT_ABORT + 1) (2 ^ 32 - 1) ∧
      (s.on .I3C_H_MODE = true → t.get .I3C_H_PROTERR = 1) := by
  obtain ⟨hbit, hleft, hcount⟩ := State.abandon_spec (s := s) 2 (by decide)
  cases hm : s.on .I3C_H_MODE with
  | true =>
    refine ⟨(s.abandon 2).set .I3C_H_PROTERR 0 1, by simp [execBusAbort, h, hm], ?_, ?_, ?_, fun _ => State.get_set_same ..⟩
    · exact (congrArg (Nat.testBit · 2) (State.get_set_ne _ _ _ _ _ _ (by decide))).trans hbit
    · rw [State.get_set_ne _ _ _ _ _ _ (by decide), hleft]
    · rw [State.get_set_ne _ _ _ _ _ _ (by decide), hcount]
  | false => exact ⟨s.abandon 2, by simp [execBusAbort, h, hm], hbit, hleft, hcount, fun hon => absurd hon (by decide)⟩

theorem State.portReset_unbound : s.portReset.get .MGT_I3C_STATUS_BOUND_SESSION = 0 := by
  rw [State.portReset, State.portFlag_get_ne _ _ _ (by decide)]
  exact State.get_set_same ..

theorem State.portReset_flag : s.portReset.bit .MGT_I3C_EVENTS_EV 0 4 = true := State.portFlag_bit _ 4 (by decide)

end Bus

/-- A device that cannot be reached takes part in nothing on the bus. -/
theorem bus_unreachable {s : State} (h : s.unreachable = true) (a k v : Nat) (b : Bool) (n : Nat) :
    ∀ i ∈ [Instr.cmdSubmit, .cmdAck, .entdaa a, .setdasa k a, .rstdaa, .enec v b, .disec v b, .getpid, .getbcr, .getdcr,
      .getstatus, .getmxds, .rstact v, .cccUnsupported b, .ibiRetry n b, .sclTimeout, .sdaTimeout, .busAbort, .sdaRelease,
      .targetResetPattern], exec i s = .next s := by
  simp [execCmdSubmit, execCmdAck, execEntdaa, execSetdasa, execRstdaa, execEnec, execDisec, execGetpid, execGetbcr,
    execGetdcr, execGetstatus, execGetmxds, execRstact, execCccUnsupported, execIbiRetry, execSclTimeout, execSdaTimeout,
    execBusAbort, execSdaRelease, execTargetResetPattern, State.ccc_unreachable, State.direct_unreachable, h]

/-- Directed codes that need a dynamic address are not acknowledged without one. -/
theorem directed_unaddressed {s : State} (h : s.unreachable = false) (hd : s.busStart.on .MGT_I3C_STATUS_DA_VALID = false)
    (e : Nat) : ∀ i ∈ [Instr.enec e true, .disec e true, .getpid, .getbcr, .getdcr, .getmxds, .getstatus],
      exec i s = .next (s.busStart.i3cSend false []) := by
  simp [execEnec, execDisec, execGetpid, execGetbcr, execGetdcr, execGetmxds, execGetstatus, State.ccc_reachable,
    State.direct_unaddressed, State.enint_unaddressed, h, hd]

end Sys2Proof.Machine

open Sys2Proof Sys2Proof.Machine

/-- Settles O42: commands, a device out of reach, the common command codes, and the bus conditions. -/
theorem portCommandsComplete : Obligations.PortCommandsComplete := by
  refine ⟨fun q b src s => ⟨?_, ?_, ?_⟩, fun data n a k d v s h => ⟨?_, bus_unreachable h a k v d k⟩,
    fun s a h => ⟨fun hd => ⟨?_, ?_⟩, State.takeAddr_spec a, exec_rstdaa_completes h⟩,
    fun s a b e v h => ⟨?_, ?_, fun hd => directed_unaddressed h hd e, fun he => ⟨?_, ?_⟩, fun hd => ⟨?_, ?_⟩, ?_⟩,
    fun s e h => ⟨fun he => ⟨?_, ?_⟩, fun hd => ⟨?_, ?_, ?_, ?_, ?_⟩⟩,
    fun s v k b h => ⟨?_, ?_, ?_, ?_, ?_⟩,
    fun s h => ⟨exec_sclTimeout_completes h, exec_sdaTimeout_completes h, exec_busAbort_completes h, ?_⟩,
    fun s h => ⟨?_, State.portReset_unbound, State.portReset_flag⟩⟩
  -- commands of a session, and the pop
  · exact fun hg hi => ⟨exec_portBind_answers hg hi, exec_portUnbind_answers hg hi⟩
  · exact exec_evtForward_answers
  · exact fun hr hd e l he hf => by rw [exec_evqPop_of_ok hr hd, State.evqPop_cons he hf]
  -- out of reach
  · simp [execPageWrite, execPageRead, h]
  -- a dynamic address is taken
  · simp [execEntdaa, State.ccc_reachable, h, hd]
  · simp [execSetdasa, State.ccc_reachable, h, hd]
  -- none is taken
  · intro hd
    simp [execEntdaa, State.ccc_reachable, h, hd]
  · rintro (hd | hb)
    · simp [execSetdasa, State.ccc_reachable, h, hd]
    · simp [execSetdasa, State.ccc_reachable, h, hb]
  -- ENEC and DISEC: without bit 0, and directed
  · simp [execEnec, State.ccc_reachable, State.enint_off he, h]
  · simp [execDisec, State.ccc_reachable, State.enint_off he, h]
  · simp [execEnec, State.ccc_reachable, State.enint_addressed hd, h]
  · simp [execDisec, State.ccc_reachable, State.enint_addressed hd, h]
  -- RSTACT of another action
  · intro hv
    simp [execRstact, State.ccc_reachable, Nat.not_le.mpr hv, h]
  -- ENEC and DISEC with bit 0, broadcast
  · exact ⟨s.busStart.set .MGT_I3C_STATUS_IBI_EN 0 1, by simp [execEnec, State.ccc_reachable, State.enint_on he, h],
      State.get_set_same ..⟩
  · exact ⟨s.busStart.set .MGT_I3C_STATUS_IBI_EN 0 0, by simp [execDisec, State.ccc_reachable, State.enint_on he, h],
      State.get_set_same ..⟩
  -- the bytes that are sent
  · simp [execGetpid, State.direct_addressed, h, hd]
  · simp [execGetbcr, State.direct_addressed, h, hd]
  · simp [execGetdcr, State.direct_addressed, h, hd]
  · simp [execGetmxds, State.direct_addressed, h, hd]
  · simp [execGetstatus, State.direct_addressed, h, hd]
  -- RSTACT and unsupported codes
  · intro hv
    simp [execRstact, State.ccc_reachable, hv, h]
  · simp [execCccUnsupported, State.ccc_reachable, h]
  · simp [execCccUnsupported, State.ccc_reachable, h]
  -- a lost interrupt
  · intro hd hi hk
    simp [execIbiRetry, h, hd, hi, hk]
  · rintro (hd | hi | hk)
    · simp [execIbiRetry, hd]
    · simp [execIbiRetry, hi]
    · simp [execIbiRetry, hk]
  -- SDA released, and the target reset pattern
  · exact ⟨s.set .I3C_H_SDA 0 1, by simp [execSdaRelease, h], State.get_set_same ..⟩
  · have hcfg : (s.set .I3C_H_RSTACT 0 1).on .MGT_I3C_CFG_RST_DEV_EN = s.on .MGT_I3C_CFG_RST_DEV_EN :=
      congrArg (· != 0) (State.get_set_ne _ _ _ _ _ _ (by decide))
    simp [execTargetResetPattern, h, hcfg]

end

section
/-! PROOFS. A command that a check refuses answers that check's status and changes nothing else (O55, O56). -/

namespace Sys2Proof.Machine

/-- With `st` the status that the checks of a command give, `r` is what the command then answers: under code `code` a
completion with `st` alone, unless `st` is OK. -/
def Refuses (src : Src) (code : Nat) (s : State) (st : Status) (r : Res) : Prop :=
  st ≠ .ok → r = .next (s.answer src code st)

namespace Refuses
variable {src : Src} {code : Nat} {s : State} {st : Status} {r : Res}

/-- All checks have passed. -/
theorem ok : Refuses src code s .ok r := fun h => absurd rfl h

/-- A check comes before the checks that follow it. -/
theorem check {c : Prop} [Decidable c] {rest : Status} (h : Refuses src code s rest r) :
    Refuses src code s (if c then st else rest) (if c then .next (s.answer src code st) else r) := by
  by_cases hc : c
  · rw [if_pos hc, if_pos hc]; exact fun _ => rfl
  · rw [if_neg hc, if_neg hc]; exact h

/-- The only check is a gate that gives a status. -/
theorem gate : Refuses src code s st (if st ≠ .ok then .next (s.answer src code st) else r) := fun h => if_pos h

/-- The checks' status by a name of its own, as the statements give it. -/
theorem answered {ans : Status} (h : Refuses src code s st r) (ha : ans = st) :
    ans ≠ .ok → r = .next (s.answer src code ans) := by
  subst ha; exact h

end Refuses

end Sys2Proof.Machine

open Sys2Proof Sys2Proof.Machine

/-- Settles O55: each command makes its checks in the order of the statement, one `check` for each. -/
theorem refusedCommandsAnswer : Obligations.RefusedCommandsAnswer := ⟨
  fun _ _ => ⟨
    fun _ => Refuses.answered (.check (.check .ok)), -- bistStop
    fun _ _ => Refuses.answered (.check (.check .ok)), -- bistResult
    fun _ _ => Refuses.answered (.check (.check .ok)), -- bistLog
    Refuses.gate, -- rollStop
    fun _ _ _ => Refuses.answered (.check (.check (.check .ok))), -- fwUpdate
    fun _ => Refuses.answered (.check (.check .ok)), -- fwActivate
    fun _ => Refuses.answered (.check (.check .ok)), -- fwConfirm
    Refuses.gate, -- mgtRestart
    Refuses.gate, -- pwrQuery
    fun _ => Refuses.gate, -- pwrRtcSet
    fun _ _ => Refuses.answered (.check (.check .ok)), -- pwrReset
    fun _ _ => Refuses.answered (.check (.check .ok)), -- pipeGate
    Refuses.gate⟩, -- pwrClrCnt
  fun _ _ => ⟨
    fun _ _ => Refuses.answered (.check (.check (.check (.check .ok)))), -- winCommit
    Refuses.gate, -- brgFence
    Refuses.gate, -- brgReset
    Refuses.gate, -- brgClrCnt
    fun _ _ => Refuses.answered (.check (.check .ok)), -- qpEnable
    fun _ _ => Refuses.answered (.check (.check .ok)), -- qpReset
    fun _ _ _ => Refuses.answered (.check (.check .ok)), -- strConsWrite
    Refuses.gate, -- egrDropPop
    Refuses.gate, -- egrLatePop
    fun _ _ _ _ => Refuses.answered (.check (.check .ok)), -- classDelaySet
    Refuses.gate, -- egrFence
    Refuses.gate, -- egrReset
    Refuses.gate, -- egrClrCnt
    fun _ => Refuses.gate, -- routeCommit
    Refuses.gate, -- fabLatePop
    fun _ => Refuses.gate, -- fabPortWake
    Refuses.gate, -- fabFence
    Refuses.gate, -- fabReset
    Refuses.gate⟩, -- fabClrCnt
  fun _ _ => ⟨
    fun _ => Refuses.answered (.check (.check .ok)), -- portBind
    fun _ => Refuses.answered (.check (.check .ok)), -- portUnbind
    fun _ _ _ => Refuses.answered (.check (.check (.check .ok))), -- evtForward
    fun _ => Refuses.answered (.check (.check .ok)), -- evqPop
    fun _ => Refuses.gate, -- queueFlush
    fun _ => Refuses.gate, -- ingClrCnt
    fun _ _ _ _ => Refuses.answered (.check (.check .ok)), -- queueWmWrite
    fun _ _ => Refuses.answered (.check (.check .ok)), -- chApply
    fun _ _ _ => Refuses.answered (.check (.check .ok)), -- encPreset
    fun _ _ _ => Refuses.answered (.check (.check .ok)), -- pitchCommit
    fun _ => Refuses.gate, -- trigEnable
    fun _ => Refuses.gate, -- trigDisable
    fun _ => Refuses.gate, -- tbStep
    fun _ _ => Refuses.answered (.check (.check .ok)), -- tbSlew
    Refuses.gate⟩, -- ptpTxtsPop
  fun _ _ => ⟨
    fun _ => Refuses.gate, -- laneEnable
    fun _ => Refuses.gate, -- laneDisable
    fun _ => Refuses.gate, -- laneRetrain
    fun _ => Refuses.gate, -- laneClrCnt
    fun _ _ => Refuses.answered (.check (.check (.check .ok))), -- laneEqCommit
    fun _ => Refuses.gate, -- eyeScanStart
    fun _ => Refuses.answered (.check (.check .ok)), -- memFence
    fun _ => Refuses.answered (.check (.check .ok)), -- memReset
    Refuses.gate, -- memClrCnt
    fun _ _ _ _ => Refuses.answered (.check (.check .ok)), -- ctxGo
    fun _ _ => Refuses.answered (.check (.check .ok)), -- ctxCancel
    fun _ _ => Refuses.answered (.check (.check .ok)), -- pipeFence
    fun _ => Refuses.gate, -- pipeUnfence
    fun _ => Refuses.gate, -- pipeReset
    fun _ => Refuses.gate, -- pipeClrCnt
    fun _ _ => Refuses.answered (.check (.check .ok)), -- playStart
    fun _ => Refuses.gate⟩⟩ -- playStop

/-- Settles O56: each command makes its checks in the order of the statement, one `check` for each. -/
theorem refusedJobsAndRecordsAnswer : Obligations.RefusedJobsAndRecordsAnswer := ⟨
  fun _ _ => ⟨
    fun _ _ => Refuses.answered (.check (.check .ok)), -- jobSelect
    fun _ _ => Refuses.answered (.check (.check .ok)), -- jobLoad
    fun _ _ _ => Refuses.answered (.check (.check .ok)), -- jobArm
    fun _ => Refuses.answered (.check (.check .ok)), -- jobCancel
    fun _ _ _ => Refuses.answered (.check (.check .ok)), -- jobStop
    Refuses.gate, -- jobQuery
    fun _ _ _ h => if_pos h, -- jobCtrlArm
    fun h => if_pos h, -- jobCtrlCancel
    fun _ h => if_pos h, -- setNext
    fun _ _ _ => Refuses.answered (.check (.check .ok))⟩, -- rollStart
  fun _ _ => ⟨
    fun _ _ _ => Refuses.answered (.check (.check .ok)), -- mrgGo
    fun _ _ => Refuses.answered (.check (.check .ok)), -- mrgCancel
    Refuses.gate, -- mrgClrCnt
    fun _ => Refuses.gate, -- slotLoad
    fun _ => Refuses.gate, -- slotDone
    fun _ => Refuses.gate, -- slotClear
    fun _ _ _ => Refuses.answered (.check (.check .ok)), -- refGo
    fun _ _ => Refuses.answered (.check (.check .ok)), -- refCancel
    Refuses.gate, -- refFence
    Refuses.gate, -- refReset
    Refuses.gate, -- refClrCnt
    fun _ _ => Refuses.answered (.check (.check (.check .ok))), -- profCommit
    Refuses.gate, -- tslFence
    Refuses.gate, -- tslReset
    Refuses.gate⟩, -- tslClrCnt
  fun _ _ => ⟨
    fun _ _ _ _ => Refuses.answered (.check (.check .ok)), -- loginBegin
    fun _ _ _ => Refuses.answered (.check (.check .ok)), -- loginFinish
    Refuses.gate, -- logout
    fun _ _ _ => Refuses.answered (.check (.check .ok)), -- attest
    fun _ _ _ _ _ => Refuses.answered (.check (.check .ok)), -- auditRead
    Refuses.gate, -- auditSign
    fun _ _ _ => Refuses.answered (.check (.check .ok)), -- auditRelease
    fun _ _ _ => Refuses.answered (.check (.check .ok)), -- fuseProgram
    fun _ => Refuses.answered (.check (.check (.check .ok))), -- testUnlock
    fun _ _ => Refuses.answered (.check (.check (.check .ok)))⟩, -- decommission
  fun _ _ => ⟨
    fun _ _ _ _ => Refuses.answered (.check (.check .ok)), -- libPut
    fun _ => Refuses.gate, -- libDelete
    fun _ _ _ => Refuses.answered (.check (.check .ok)), -- libList
    fun _ _ _ _ => Refuses.gate, -- libGet
    fun _ _ _ => Refuses.gate, -- libVerify
    Refuses.gate, -- recQuery
    fun _ _ _ _ _ _ => Refuses.gate, -- recGet
    fun _ _ => Refuses.gate, -- recKeep
    fun _ _ _ => Refuses.answered (.check (.check .ok)), -- recRelease
    fun _ _ => Refuses.answered (.check (.check (.check .ok))), -- recGibWrite
    Refuses.gate, -- stoFence
    Refuses.gate, -- stoReset
    Refuses.gate⟩⟩ -- stoClrCnt

end

section
/-! PROOFS. What a recorded command leaves, and what stands after a list of updates. -/

namespace Sys2Proof.Machine

/-! ### Recorded commands (17_roles_security_audit.md R429, R432) -/

section Recorded
variable {s : State} {src : Src} {cmd : Nat} {eff : State → State}

theorem State.roleOf_mgt (h : src.ini = .mgt) : s.roleOf src = .device := by
  rw [State.roleOf, h]

/-- No reply under code 0 comes later. -/
theorem State.deferred_zero (s : State) (src : Src) : s.deferred src 0 = false := by
  have hslot : ∀ sl, (0 == slotCtrl sl) = false := fun sl => beq_eq_false_iff_ne.mpr (by unfold slotCtrl; omega)
  simp [State.deferred, hslot]

/-- An effect that sends nothing is answered OK. -/
theorem State.completed_of_silent (h : (eff s).out = s.out) : s.completed src 0 eff = (eff s).answer src 0 .ok := by
  simp [State.completed, h, State.deferred_zero]

/-- The answer changes no cell outside the management page and the bridge's. -/
theorem State.completed_get (f : Fld) (i : Nat) (h : f.page ≠ 0) (h' : f.page ≠ 68) :
    (s.completed src cmd eff).get f i = (eff s).get f i := by
  unfold State.completed
  dsimp only
  split
  · rfl
  · exact State.answer_get _ _ _ _ _ _ h h'

/-- A command that comes to `State.recorded` needs only be followed where it acts at once. -/
theorem Recorded.of_exec {c : Instr} {r : AuditRec} {P : State → Prop}
    (he : exec c s = .next (s.recorded src cmd c r eff)) (hp : src.ini = .mgt → P (s.completed src cmd eff)) :
    Recorded c s src cmd r P where
  atOnce hm := ⟨_, he.trans (by rw [State.recorded, if_pos (State.roleOf_mgt hm)]), hp hm⟩
  queued hr hc := by rw [he, State.recorded, if_neg hr, hc]; rfl
  closed hr hc := by rw [he, State.recorded, if_neg hr, if_pos hc]

end Recorded

/-! ### Lists of updates -/

/-- What one update of a list brings about, and the others keep, holds in the end. -/
theorem foldl_of_mem {α : Type} {P : State → Prop} {g : State → α → State} {l : List α} {x : α} (hx : x ∈ l)
    (hmake : ∀ s, P (g s x)) (hkeep : ∀ s, ∀ y ∈ l, P s → P (g s y)) (s : State) : P (l.foldl g s) := by
  obtain ⟨a, b, rfl⟩ := List.append_of_mem hx
  rw [List.foldl_append, List.foldl_cons]
  exact List.foldlRecOn b g (hmake _) fun t ht y hy => hkeep t y (by simp [hy]) ht

/-- A cell that reads 0 still does when a cell is cleared. -/
theorem State.get_clear_zero {s : State} {f g : Fld} {i j : Nat} (hg : g.id = f.id → g = f) (h : s.get f i = 0) :
    (s.set g j 0).get f i = 0 := by
  rw [State.get_set _ _ _ _ _ _ hg, h, Nat.zero_mod, ite_self]

/-- Each field of a list reads 0 after all of them have been cleared. -/
theorem State.foldl_clear_get {l : List Fld} {f : Fld} (hf : f ∈ l) (hinj : ∀ g ∈ l, g.id = f.id → g = f) (i : Nat)
    (s : State) : (l.foldl (fun s g => s.set g i 0) s).get f i = 0 :=
  foldl_of_mem (P := fun t : State => t.get f i = 0) hf (fun s => (State.get_set_same s f i 0).trans (Nat.zero_mod _))
    (fun _ g hg => State.get_clear_zero (hinj g hg)) s

/-- A cell that reads 0 still does after a list of fields has been cleared. -/
theorem State.foldl_clear_zero {s : State} {l : List Fld} {f : Fld} {i j : Nat} (hinj : ∀ g ∈ l, g.id = f.id → g = f)
    (h : s.get f i = 0) : (l.foldl (fun s g => s.set g j 0) s).get f i = 0 :=
  List.foldlRecOn (motive := fun t : State => t.get f i = 0) l _ h fun _ ht g hg => State.get_clear_zero (hinj g hg) ht

end Sys2Proof.Machine
end

section
/-! PROOFS. Flush, pointers, timeout, counters, watermarks and apply of camera ingress (O17). -/

namespace Sys2Proof.Machine

/-! ### Cells behind the operations of a queue -/

section Cells
variable (s : State) {f : Fld} (n i : Nat)

theorem State.queueEvent_get (k m : Nat) (h : f.page ≠ 0) (he : Fld.ING_QUEUE_EVENTS_EV.id ≠ f.id) :
    (s.queueEvent n k m).get f i = s.get f i := by
  unfold State.queueEvent
  split
  · exact State.sticky_get _ _ _ _ _ _ _ _ _ _ _ _ _ h he
  · exact State.get_setBit_ne _ _ _ _ _ _ he

theorem State.fcPins_get (h : (0x1000000 : Nat).testBit f.page = false) : s.fcPins.get f i = s.get f i :=
  (State.fcPins_upd s (W := 0x1000000) (P := 0x100000) (by decide) (Upd.refl s)).cells f i h

theorem State.sendPause_get_ne (p : Nat) (h : Fld.ING_LANE_STATUS_PAUSED.id ≠ f.id) :
    (s.sendPause n p).get f i = s.get f i := by
  unfold State.sendPause
  split
  · rw [State.emit_get, State.get_set_ne _ _ _ _ _ _ h]
  · rfl

/-- The cells of camera ingress that the watermark state may change (R83). -/
def watermarkCells : List Fld :=
  [.ING_QUEUE_LEVEL_ABOVE, .ING_QUEUE_CROSS_COUNT, .ING_QUEUE_EVENTS_EV, .ING_LANE_STATUS_PAUSED]

/-- Of the page of camera ingress, the watermark state changes its own cells alone. -/
theorem State.evalWatermark_get (hp : f.page = 20) (h : ∀ g ∈ watermarkCells, g.id ≠ f.id) :
    (s.evalWatermark n).get f i = s.get f i := by
  have hpage : f.page ≠ 0 := by omega
  have hpins : (0x1000000 : Nat).testBit f.page = false := by rw [hp]; rfl
  have habove : Fld.ING_QUEUE_LEVEL_ABOVE.id ≠ f.id := h _ (by decide)
  have hpaused : Fld.ING_LANE_STATUS_PAUSED.id ≠ f.id := h _ (by decide)
  unfold State.evalWatermark
  extract_lets level s1 s2
  have h1 : s1.get f i = s.get f i := by
    unfold s1
    rw [State.fcPins_get _ _ hpins, State.queueEvent_get _ _ _ _ _ hpage (h _ (by decide)),
      State.get_inc_ne _ _ _ _ _ (h _ (by decide)), State.get_set_ne _ _ _ _ _ _ habove]
  have h2 : s2.get f i = s.get f i := (State.fcPins_get _ _ hpins).trans (State.get_set_ne _ _ _ _ _ _ habove)
  split
  · split
    · exact (State.sendPause_get_ne _ _ _ _ hpaused).trans h1
    · exact h1
  · split
    · split
      · exact (State.sendPause_get_ne _ _ _ _ hpaused).trans h2
      · exact h2
    · rfl

/-- The cells of camera ingress that may change with the lines of a queue (R81 to R83, R86). -/
def levelCells : List Fld :=
  [.ING_QUEUE_LEVEL_LEVEL, .ING_QUEUE_LEVEL_DESC, .ING_H_WPTR_A, .ING_H_WPTR_B, .ING_H_RPTR_A, .ING_H_RPTR_B,
    .ING_H_FULL] ++ watermarkCells

theorem State.relevel_get (hp : f.page = 20) (h : ∀ g ∈ levelCells, g.id ≠ f.id) :
    (s.relevel n).get f i = s.get f i := by
  unfold State.relevel
  extract_lets old new s1 s2 s3
  have h1 : s1.get f i = s.get f i := by
    unfold s1
    rw [State.get_set_ne _ _ _ _ _ _ (h _ (by decide)), State.get_set_ne _ _ _ _ _ _ (h _ (by decide))]
  have h2 : s2.get f i = s1.get f i := by
    unfold s2
    rw [State.get_bump_ne _ _ _ _ _ _ (h _ (by decide)), State.get_bump_ne _ _ _ _ _ _ (h _ (by decide))]
  have h3 : s3.get f i = s2.get f i := by
    unfold s3
    rw [State.get_bump_ne _ _ _ _ _ _ (h _ (by decide)), State.get_bump_ne _ _ _ _ _ _ (h _ (by decide))]
  rw [State.evalWatermark_get _ _ _ hp fun g hg => h g (List.mem_append_right _ hg)]
  split
  · rw [State.get_set_ne _ _ _ _ _ _ (h _ (by decide)), h3, h2, h1]
  · rw [h3, h2, h1]

/-- A flag of an open frame changes the channel's sticky bits and the management page alone. -/
theorem State.flagOpen_get (c k m : Nat) (h : f.page ≠ 0) (he : Fld.ING_CH_FLAGS_EV.id ≠ f.id) :
    (s.flagOpen c k m).get f i = s.get f i := by
  unfold State.flagOpen State.chFlag
  split
  · split
    · exact State.sticky_get _ _ _ _ _ _ _ _ _ _ _ _ _ h he
    · rfl
  · rfl

end Cells

/-! ### Flush and pointers -/

theorem State.flushEffect_flushing (s : State) (n : Nat) : (s.flushEffect n).get .ING_QUEUE_LEVEL_FLUSHING n = 0 := by
  rw [State.flushEffect, State.queueEvent_get _ _ _ _ _ (by decide) (by decide),
    State.relevel_get _ _ _ (by decide) (by decide)]
  exact State.get_set_same ..

/-- The four copies of a queue's pointers. -/
def pointerCells : List Fld := [.ING_H_WPTR_A, .ING_H_WPTR_B, .ING_H_RPTR_A, .ING_H_RPTR_B]

/-- The queue reset leaves every copy of a pointer at 0 (R86). -/
theorem exec_pointerMismatch_completes (lane : Nat) (s : State) :
    Completes (.pointerMismatch lane) s fun t => ∀ f ∈ pointerCells, t.get f lane = 0 := by
  refine ⟨_, rfl, fun f hf => ?_⟩
  obtain ⟨hpage, hev, hcnt, hfl⟩ := (by decide : ∀ f ∈ pointerCells, f.page ≠ 0 ∧ Fld.ING_QUEUE_EVENTS_EV.id ≠ f.id ∧
    Fld.ING_QUEUE_CROSS_RESETS.id ≠ f.id ∧ Fld.ING_QUEUE_LEVEL_FLUSHING.id ≠ f.id) f hf
  have hinj : ∀ g ∈ pointerCells, g.id = f.id → g = f :=
    fun g hg => (by decide : ∀ f ∈ pointerCells, ∀ g ∈ pointerCells, g.id = f.id → g = f) f hf g hg
  have hreset : ∀ (u : State) m, (((pointerCells.foldl (fun s f => s.set f lane 0) u).inc
      .ING_QUEUE_CROSS_RESETS lane).queueEvent lane 1 m).get f lane = 0 := fun u m => by
    rw [State.queueEvent_get _ _ _ _ _ hpage hev, State.get_inc_ne _ _ _ _ _ hcnt]
    exact State.foldl_clear_get hf hinj lane u
  split
  · rw [State.queueEvent_get _ _ _ _ _ hpage hev, State.get_set_ne _ _ _ _ _ _ hfl]
    exact hreset _ _
  · exact hreset _ _

/-! ### Closing a frame -/

/-- The close of a channel's open frame (R79): first it is flagged, then it is counted and the channel no longer open, and
last it is counted where it is bad. -/
theorem State.closeFrame_get {s : State} {c : Nat} (b : Bool) (hc : c < 128) (ho : s.openFrame c ≠ none) :
    ∃ u : State, (∀ g : Fld, g.page ≠ 0 → Fld.ING_CH_FLAGS_EV.id ≠ g.id → u.get g c = s.get g c) ∧
      ∀ g : Fld, Fld.ING_CH_CNT_BAD.id ≠ g.id →
        (s.closeFrame c b).get g c = ((u.inc .ING_CH_CNT_FRAMES c).set .ING_CH_STATUS_OPEN c 0).get g c := by
  unfold State.closeFrame
  split
  · next hn => exact absurd hn ho
  · extract_lets f1 s1 s2 s3 flags s4 s5
    refine ⟨s3, fun g hp hg => ?_, fun g hg => ?_⟩
    · have h2 : s2.get g c = s.get g c := by
        unfold s2
        split
        · exact State.flagOpen_get _ _ _ _ _ hp hg
        · rfl
      unfold s3
      split
      · exact (State.flagOpen_get _ _ _ _ _ hp hg).trans h2
      · exact h2
    · have h4 : s4 = (s3.inc .ING_CH_CNT_FRAMES c).set .ING_CH_STATUS_OPEN c 0 := if_pos hc
      have h5 : s5.get g c = s4.get g c := by
        unfold s5
        split
        · exact State.get_inc_ne _ _ _ _ _ hg
        · rfl
      rw [← h4, ← h5]
      rfl

theorem exec_frameTimeout_completes {s : State} {c : Nat} (ht : s.get .ING_CH_H_TIMEOUT c ≠ 0)
    (hp : s.packet (c / 4) = none) (hc : c < 128) (ho : s.openFrame c ≠ none) :
    Completes (.frameTimeout c) s fun t => t.get .ING_CH_STATUS_OPEN c = 0 ∧
      t.get .ING_CH_CNT_FRAMES c = min (s.get .ING_CH_CNT_FRAMES c + 1) (2 ^ 32 - 1) := by
  obtain ⟨u, hu, hclose⟩ := State.closeFrame_get true hc ho
  refine ⟨s.closeFrame c true, by simp [execFrameTimeout, ht, hp], ?_, ?_⟩
  · rw [hclose _ (by decide)]
    exact State.get_set_same ..
  · rw [hclose _ (by decide), State.get_set_ne _ _ _ _ _ _ (by decide), State.get_inc_same, hu _ (by decide) (by decide)]
    rfl

/-! ### Counters -/

/-- The counters of a lane that `CLR_CNT` clears (R515). -/
def laneCounters : List Fld := [.ING_QUEUE_CROSS_COUNT, .ING_QUEUE_CROSS_RESETS, .ING_LANE_CNT_SEGERR,
  .ING_LANE_CNT_SEGLOST, .ING_LANE_CNT_ECC_CORR, .ING_LANE_CNT_ECC_UNCORR, .ING_LANE_CNT_DISCARD, .ING_LANE_CNT_OVF]

/-- The counters that it clears of each of the lane's channels. -/
def channelCounters : List Fld := [.ING_CH_CNT_FRAMES, .ING_CH_CNT_CRC, .ING_CH_CNT_BAD, .ING_CH_CNT_FNGAP]

theorem State.ingClrCnt_lane (s : State) (n : Nat) : ∀ f ∈ laneCounters, (s.ingClrCnt n).get f n = 0 := by
  intro f hf
  have hlane : ∀ g ∈ laneCounters, g.id = f.id → g = f :=
    fun g hg => (by decide : ∀ f ∈ laneCounters, ∀ g ∈ laneCounters, g.id = f.id → g = f) f hf g hg
  have hch : ∀ g ∈ channelCounters, g.id = f.id → g = f :=
    fun g hg => (by decide : ∀ f ∈ laneCounters, ∀ g ∈ channelCounters, g.id = f.id → g = f) f hf g hg
  exact List.foldlRecOn (motive := fun t : State => t.get f n = 0) _ _ (State.foldl_clear_get hf hlane n s)
    fun _ ht _ _ => State.foldl_clear_zero hch ht

theorem State.ingClrCnt_channel (s : State) (n : Nat) :
    ∀ v ∈ [0, 1, 2, 3], ∀ f ∈ channelCounters, (s.ingClrCnt n).get f (4 * n + v) = 0 := by
  intro v hv f hf
  have hch : ∀ g ∈ channelCounters, g.id = f.id → g = f :=
    fun g hg => (by decide : ∀ f ∈ channelCounters, ∀ g ∈ channelCounters, g.id = f.id → g = f) f hf g hg
  rw [State.ingClrCnt]
  refine foldl_of_mem (P := fun t => t.get f (4 * n + v) = 0) hv (fun t => ?_) (fun t w _ ht => ?_) _
  · exact State.foldl_clear_get hf hch (4 * n + v) t
  · exact State.foldl_clear_zero hch ht

/-! ### Watermarks and apply -/

section Settings
variable {s : State} {src : Src} {lane v c : Nat} {high : Bool}

/-- Which watermark a write names. -/
def wmFld (high : Bool) : Fld := if high then .ING_QUEUE_HWM else .ING_QUEUE_LWM

/-- A watermark that is written reads as written, once its state has been evaluated anew (R83). -/
theorem effQueueWmWrite_get (hok : s.wmBad lane high v = false) (hv : v < 2 ^ 17) :
    (effQueueWmWrite lane high v src s).get (wmFld high) lane = v := by
  have hset (t : State) : (t.evalWatermark lane).get (wmFld high) lane = t.get (wmFld high) lane := by
    cases high <;> exact State.evalWatermark_get _ _ _ (by decide) (by decide)
  rw [effQueueWmWrite, hok]
  refine (hset _).trans ((State.get_set_same ..).trans (Nat.mod_eq_of_lt ?_))
  cases high <;> exact hv

theorem exec_queueWmWrite_recorded (hg : s.gate src .installer 8 = .ok) (hok : s.wmBad lane high v = false)
    (hv : v < 2 ^ 17) : Recorded (.queueWmWrite lane high v src) s src 0
      (s.auditRec src 1 1 ((wmFld high).id / 32 + 0x100 * lane) (valueDigest (s.get (wmFld high) lane)) (valueDigest v))
      fun t => t.get (wmFld high) lane = v := by
  refine .of_exec (eff := effQueueWmWrite lane high v src) (by simp [execQueueWmWrite, hg, hok, wmFld]) fun _ => ?_
  rw [State.completed_get _ _ (by cases high <;> decide) (by cases high <;> decide)]
  exact effQueueWmWrite_get hok hv

theorem exec_chApply_recorded (hg : s.gate src .operator 8 = .ok) (hok : s.applyBad c = false) :
    Recorded (.chApply c src) s src 0 (s.auditRec src 2 1 (0x144000 + 0x40 * c) noValue noValue) fun t =>
      t = (s.set .ING_CH_STATUS_SHADOW_PENDING c 1).emit (.status src 0 .ok) := by
  have heff : effChApply c src s = s.set .ING_CH_STATUS_SHADOW_PENDING c 1 := by simp [effChApply, hok]
  refine .of_exec (eff := effChApply c src) (by simp [execChApply, hg, hok]) fun hm => ?_
  rw [State.completed_of_silent (by rw [heff, State.set_out]), heff, State.answer_mgt _ _ _ _ hm]

end Settings

end Sys2Proof.Machine

open Sys2Proof Sys2Proof.Machine

/-- Settles O17: flush, pointers, timeout, counters, watermarks and apply, each by its law above. -/
theorem ingressQueueCommandsComplete : Obligations.IngressQueueCommandsComplete := by
  refine ⟨fun lane s => ⟨?_, ?_⟩, fun lane src s hg hf => ⟨?_, ?_⟩, fun lane s => ?_,
    fun c s => ⟨exec_frameTimeout_completes, ?_⟩, fun lane src s hg => ?_, fun lane v src s hg hl hv => ?_,
    fun lane v src s hg hl hv => ?_, fun c src s => exec_chApply_recorded⟩
  -- the limit of a flush
  · exact fun hf => ⟨_, if_pos hf, State.flushEffect_flushing _ _⟩
  · exact fun hf => by simp [execFlushLimit, hf]
  -- a flush without and with a packet open
  · intro hp
    have hp' : ((s.set .ING_QUEUE_LEVEL_FLUSHING lane 1).set .ING_H_FLUSH_BYTES lane 0).packet lane = none := hp
    exact ⟨((s.set .ING_QUEUE_LEVEL_FLUSHING lane 1).set .ING_H_FLUSH_BYTES lane 0).flushEffect lane,
      by simp [execQueueFlush, effQueueFlush, hg, hf, hp'], State.flushEffect_flushing _ _⟩
  · intro hp
    have hp' : ((s.set .ING_QUEUE_LEVEL_FLUSHING lane 1).set .ING_H_FLUSH_BYTES lane 0).packet lane ≠ none := hp
    simp [execQueueFlush, effQueueFlush, hg, hf, hp']
  -- pointers
  · obtain ⟨t, ht, hz⟩ := exec_pointerMismatch_completes lane s
    exact ⟨t, ht, hz _ (by decide), hz _ (by decide), hz _ (by decide), hz _ (by decide)⟩
  -- a timeout of 0
  · exact fun ht => by simp [execFrameTimeout, ht]
  -- counters
  · exact ⟨s.ingClrCnt lane, by simp [execIngClrCnt, hg], s.ingClrCnt_lane lane, s.ingClrCnt_channel lane⟩
  -- watermarks
  · exact exec_queueWmWrite_recorded (high := true) hg (by simp [State.wmBad, hl, hv]) (by omega)
  · exact exec_queueWmWrite_recorded (high := false) hg (by simp [State.wmBad, hl, hv]) (by omega)

end

section
/-! PROOFS. Rolling tests, fences and resets of the pipes, and replay (O22). -/

namespace Sys2Proof.Machine

/-! ### Rolling tests (05_pipeline_contexts.md R144) -/

section Roll
variable {s : State}

/-- A withdrawn pipe without work goes under test. -/
theorem exec_rollWithdrawn_completes (hr : s.get .PIPE_ROLL_STATUS_STATE = 1)
    (hi : s.get .PIPE_H_STATE (s.get .PIPE_ROLL_STATUS_PIPE) = 0)
    (hn : (s.pipe.next.any fun q => q.1 == s.get .PIPE_ROLL_STATUS_PIPE) = false) :
    Completes .rollWithdrawn s fun t =>
      t.get .PIPE_ROLL_STATUS_STATE = 2 ∧ t.get .PIPE_H_STATE (s.get .PIPE_ROLL_STATUS_PIPE) = 3 := by
  refine ⟨(s.set .PIPE_ROLL_STATUS_STATE 0 2).set .PIPE_H_STATE (s.get .PIPE_ROLL_STATUS_PIPE) 3, ?_, ?_, ?_⟩
  · rw [exec_rollWithdrawn, execRollWithdrawn]
    exact if_pos (by simp [hr, hi, hn])
  · rw [State.get_set_ne _ _ _ _ _ _ (by decide)]
    exact State.get_set_same ..
  · exact State.get_set_same ..

theorem exec_rollWithdrawn_idle (h : s.get .PIPE_ROLL_STATUS_STATE ≠ 1 ∨
    s.get .PIPE_H_STATE (s.get .PIPE_ROLL_STATUS_PIPE) ≠ 0 ∨
    (s.pipe.next.any fun q => q.1 == s.get .PIPE_ROLL_STATUS_PIPE) = true) : exec .rollWithdrawn s = .next s := by
  rw [exec_rollWithdrawn, execRollWithdrawn]
  exact if_neg (by rcases h with h | h | h <;> simp [h])

/-- The withdrawal of one of the eight pipes is written to the status. -/
theorem State.rollBegin_status {q : Nat} (hq : q < 8) :
    (s.rollBegin q).get .PIPE_ROLL_STATUS_STATE = 1 ∧ (s.rollBegin q).get .PIPE_ROLL_STATUS_PIPE = q := by
  unfold State.rollBegin
  simp only [List.foldl_cons, List.foldl_nil]
  constructor
  · rw [State.get_set_ne _ _ _ _ _ _ (by decide)]
    exact State.get_set_same ..
  · exact (State.get_set_same ..).trans (Nat.mod_eq_of_lt hq)

/-- The pipes in turn after the last one withdrawn. -/
def State.rollTurn (s : State) : List Nat := (List.range 8).map fun i => (s.get .PIPE_ROLL_STATUS_PIPE + 1 + i) % 8

theorem exec_rollInterval_completes {q : Nat} (hr : s.get .PIPE_ROLL_STATUS_STATE = 3)
    (ha : s.on .PIPE_ROLL_CTRL_AUTO = true) (ht : s.get .BIST_H_ROLLT0 + s.rollGap ≤ s.elapsed)
    (hq : s.rollTurn.find? s.rollable = some q) : Completes .rollInterval s fun t =>
      t.get .PIPE_ROLL_STATUS_STATE = 1 ∧ t.get .PIPE_ROLL_STATUS_PIPE = q := by
  have hlt : q < 8 := by
    obtain ⟨i, -, rfl⟩ := List.mem_map.mp (List.mem_of_find?_eq_some hq)
    exact Nat.mod_lt _ (by decide)
  unfold State.rollTurn at hq
  exact ⟨s.rollBegin q, by simp only [exec_rollInterval, execRollInterval, hr, ha, ht, hq]; rfl, State.rollBegin_status hlt⟩

theorem exec_rollInterval_idle (h : s.get .PIPE_ROLL_STATUS_STATE ≠ 3 ∨ s.on .PIPE_ROLL_CTRL_AUTO = false ∨
    s.elapsed < s.get .BIST_H_ROLLT0 + s.rollGap ∨ s.rollTurn.find? s.rollable = none) :
    exec .rollInterval s = .next s := by
  rw [exec_rollInterval, execRollInterval]
  rcases h with h | h | h | h
  · exact if_neg (by simp [h])
  · exact if_neg (by simp [h])
  · exact if_neg (by simp [Nat.not_le.mpr h])
  · unfold State.rollTurn at h
    simp only [h, ite_self]

end Roll

/-! ### Fence, reset and counters of a pipe (R147, R148, R515) -/

section Fence
variable {s : State} {src : Src} {p : Nat}

theorem exec_pipeFence_recorded (hg : s.gate src .installer p = .ok) (hh : s.holder p = none) :
    Recorded (.pipeFence p src) s src 0 (s.pipeCtrlRec p src 1) fun t => t.get .PIPE_CTRL_FENCE p = 1 := by
  refine .of_exec (eff := effPipeFence p src) (by simp [execPipeFence, hg, hh]) fun _ => ?_
  rw [State.completed_get _ _ (by decide) (by decide), effPipeFence, hh]
  exact State.get_set_same ..

theorem exec_pipeUnfence_recorded (hg : s.gate src .installer p = .ok) :
    Recorded (.pipeUnfence p src) s src 0 (s.pipeCtrlRec p src 0) fun t =>
      t.get .PIPE_CTRL_FENCE p = 0 ∧ (s.get .PIPE_H_STATE p = 2 → t.get .PIPE_H_STATE p = 0) := by
  have hstate : (s.set .PIPE_CTRL_FENCE p 0).get .PIPE_H_STATE p = s.get .PIPE_H_STATE p :=
    State.get_set_ne _ _ _ _ _ _ (by decide)
  refine .of_exec (eff := effPipeUnfence p) (by simp [execPipeUnfence, hg]) fun _ => ⟨?_, fun h2 => ?_⟩
  · rw [State.completed_get _ _ (by decide) (by decide), effPipeUnfence]
    split
    · rw [State.get_set_ne _ _ _ _ _ _ (by decide)]
      exact State.get_set_same ..
    · exact State.get_set_same ..
  · rw [State.completed_get _ _ (by decide) (by decide), effPipeUnfence, if_pos (hstate.trans h2)]
    exact State.get_set_same ..

theorem exec_pipeFenceDone_completes (hf : s.on .PIPE_CTRL_FENCE p = true) (hi : s.get .PIPE_H_STATE p = 0)
    (hn : (s.pipe.next.any fun q => q.1 == p) = false) : Completes (.pipeFenceDone p) s fun t =>
      t.get .PIPE_H_STATE p = 2 ∧ t.bit .PIPE_EVENTS_EV p 1 = true := by
  refine ⟨_, ?_, ?_, State.sticky_bit (s.set .PIPE_H_STATE p 2) .PIPE_EVENTS_EV p 1 .PIPE_EVENT_EN_PIPE 0 1 0x0020 p
    0x0002 0 (by decide) (by decide)⟩
  · rw [exec_pipeFenceDone, execPipeFenceDone]
    exact if_pos (by simp [hf, hi, hn])
  · rw [State.sticky_get _ _ _ _ _ _ _ _ _ _ _ _ _ (by decide) (by decide)]
    exact State.get_set_same ..

theorem exec_pipeFenceDone_idle (h : s.on .PIPE_CTRL_FENCE p = false ∨ s.get .PIPE_H_STATE p ≠ 0 ∨
    (s.pipe.next.any fun q => q.1 == p) = true) : exec (.pipeFenceDone p) s = .next s := by
  rw [exec_pipeFenceDone, execPipeFenceDone]
  exact if_neg (by rcases h with h | h | h <;> simp [h])

/-- The new generation of the block leaves the pipe's state, which the reset has written. -/
theorem exec_pipeReset_recorded (hg : s.gate src .installer p = .ok) :
    Recorded (.pipeReset p src) s src 0 (s.pipeCtrlRec p src 2) fun t => t.get .PIPE_H_STATE p = 4 := by
  refine .of_exec (eff := effPipeReset p) (by simp [execPipeReset, hg]) fun _ => ?_
  rw [State.completed_get _ _ (by decide) (by decide), effPipeReset,
    (State.newGeneration_upd _ (8 + p) (W := 0x100000000000000005) (P := 0x141c03) (by decide) (Upd.refl _)).cells
      .PIPE_H_STATE p (by decide)]
  exact State.get_set_same ..

/-- The counters of a pipe and its stages that `CLR_CNT` clears. -/
def pipeCounters : List Fld := [.PIPE_CNT_STRIPES, .PIPE_CNT_BUSY, .PIPE_CNT_LOST, .PIPE_STG_CNT_DPC_STATIC,
  .PIPE_STG_CNT_DPC_DYN, .PIPE_STG_CNT_MERGE_MISS, .PIPE_STG_CNT_FALLBACK, .PIPE_STG_CNT_COMP_CLIP,
  .PIPE_STG_CNT_LSC_CLIP, .PIPE_STG_CNT_DM_CLIP, .PIPE_STG_CNT_IRS_CLIP, .PIPE_STG_CNT_CCM_CLIP, .PIPE_STG_CNT_TAP,
  .PIPE_STG_CNT_TAP_DROP]

theorem State.pipeClrCnt_get (s : State) (p : Nat) : ∀ f ∈ pipeCounters, (s.pipeClrCnt p).get f p = 0 := fun f hf =>
  State.foldl_clear_get hf (fun g hg =>
    (by decide : ∀ f ∈ pipeCounters, ∀ g ∈ pipeCounters, g.id = f.id → g = f) f hf g hg) p s

end Fence

/-! ### Replay (03_camera_ingress.md R90, R91) -/

section Replay
variable {s : State} {k : Nat}

theorem State.playBegin_spec (s : State) (k : Nat) : (s.playBegin k).get .ING_PLAY_STATUS_STATE k = 1 ∧
    (s.playBegin k).get .ING_PLAY_STATUS_FRAMES_DONE k = 0 ∧ (s.playBegin k).get .ING_CH_H_SEQ (128 + k) = 0 := by
  refine ⟨?_, ?_, State.get_set_same ..⟩
  · rw [State.playBegin, State.get_set_ne _ _ _ _ _ _ (by decide), State.get_set_ne _ _ _ _ _ _ (by decide),
      State.get_set_ne _ _ _ _ _ _ (by decide)]
    exact State.get_set_same ..
  · rw [State.playBegin, State.get_set_ne _ _ _ _ _ _ (by decide), State.get_set_ne _ _ _ _ _ _ (by decide)]
    exact State.get_set_same ..

theorem State.playEvent_get (s : State) (k b : Nat) (f : Fld) (i : Nat) (h : f.page ≠ 0)
    (he : Fld.ING_PLAY_STATUS_EV.id ≠ f.id) : (s.playEvent k b).get f i = s.get f i :=
  State.sticky_get _ _ _ _ _ _ _ _ _ _ _ _ _ h he

theorem State.playHalt_idle (h : s.get .ING_PLAY_STATUS_STATE k = 0) : s.playHalt k = s := if_pos h

theorem State.playHalt_busy (hb : s.playBusy k = true) (h : s.get .ING_PLAY_STATUS_STATE k ≠ 0) :
    (s.playHalt k).get .ING_PLAY_STATUS_STATE k = 2 := by
  rw [State.playHalt, if_neg h, if_pos hb]
  exact State.get_set_same ..

theorem State.playHalt_done (hb : s.playBusy k = false) (h : s.get .ING_PLAY_STATUS_STATE k ≠ 0) :
    (s.playHalt k).get .ING_PLAY_STATUS_STATE k = 0 := by
  rw [State.playHalt, if_neg h, hb, if_neg Bool.false_ne_true, State.playEnd,
    State.playEvent_get _ _ _ _ _ (by decide) (by decide)]
  exact State.get_set_same ..

/-- The cells of camera ingress that the end of a replay frame may change. -/
def replayCells : List Fld :=
  [.ING_PLAY_STATUS_EV, .ING_PLAY_STATUS_STATE, .ING_PLAY_H_INDEX, .ING_PLAY_STATUS_FRAMES_DONE]

theorem State.playEnd_get (s : State) (k : Nat) (f : Fld) (i : Nat) (hp : f.page ≠ 0)
    (h : ∀ g ∈ replayCells, g.id ≠ f.id) : (s.playEnd k).get f i = s.get f i :=
  (State.playEvent_get _ _ _ _ _ hp (h _ (by decide))).trans (State.get_set_ne _ _ _ _ _ _ (h _ (by decide)))

theorem State.playNext_get (s : State) (k : Nat) (f : Fld) (i : Nat) (hp : f.page ≠ 0)
    (h : ∀ g ∈ replayCells, g.id ≠ f.id) : (s.playNext k).get f i = s.get f i := by
  have hend := State.playEnd_get s k f i hp h
  have hindex (v : Nat) : (s.set .ING_PLAY_H_INDEX k v).get f i = s.get f i :=
    State.get_set_ne _ _ _ _ _ _ (h _ (by decide))
  simp only [State.playNext, apply_ite (fun t : State => t.get f i), hend, hindex, ite_self]

theorem State.playFrameDone_get (s : State) (k : Nat) (f : Fld) (i : Nat) (hp : f.page ≠ 0)
    (h : ∀ g ∈ replayCells, g.id ≠ f.id) : (s.playFrameDone k).get f i = s.get f i := by
  unfold State.playFrameDone
  split
  · split
    · exact (State.playNext_get _ _ _ _ hp h).trans (State.get_inc_ne _ _ _ _ _ (h _ (by decide)))
    · rfl
  · rfl

/-- A replay frame that opens, binds and perhaps ends at once changes of camera ingress only `replayCells`. -/
theorem State.replayOpened_get (s : State) (c k : Nat) (f : Fld) (i : Nat) (hp : f.page = 20)
    (h : ∀ g ∈ replayCells, g.id ≠ f.id) :
    ((s.frameOpened c).noteEligible.playFrameDone k).get f i = s.get f i := by
  have hopen : (s.frameOpened c).get f i = s.get f i :=
    (State.frameOpened_upd s c (W := 0x1010a0011010000000021) (P := 0x10c5ca) (by decide) (Upd.refl s)).cells f i
      (by rw [hp]; rfl)
  exact (State.playFrameDone_get _ _ _ _ (by omega) h).trans hopen

theorem State.dramRead_get (s : State) (a n : Nat) (f : Fld) (i : Nat) (hp : f.page = 20) :
    (s.dramRead a n).1.get f i = s.get f i :=
  (State.dramRead_upd s a n (W := 0x100000000000000000001) (P := 0x100002) (by decide) (Upd.refl s)).cells f i
    (by rw [hp]; rfl)

/-- The cells in which a source notes the record at `a`, under its next frame sequence. -/
def State.noteRecord (s : State) (k a : Nat) : State :=
  ((s.bump .ING_CH_H_SEQ (128 + k) 1).set .ING_PLAY_H_REC k a).set .ING_PLAY_H_FN k (s.recField a 38 2)

section Record
variable {a : Nat} {u : State} {r : Option (List Nat)}

/-- A good record is noted, and its frame opens. -/
theorem exec_playRecordRead_opens (hs : s.get .ING_PLAY_STATUS_STATE k ≠ 0) (hb : s.playBusy k = false)
    (ha : a = s.recAddr k (s.get .ING_PLAY_H_INDEX k)) (hu : s.dramRead a 64 = (u, r)) (hd : inDram a 64 = true)
    (hr : r.isSome = true) (hok : s.recOk a = true) : ∃ l, exec (.playRecordRead k) s =
      .next ((State.frameOpened { u.noteRecord k a with frames := l } (128 + k)).noteEligible.playFrameDone k) := by
  subst ha
  have hrun : ¬(decide (s.get .ING_PLAY_STATUS_STATE k = 0) || s.playBusy k) = true := by simp [hs, hb]
  have hin : ¬(!inDram (s.recAddr k (s.get .ING_PLAY_H_INDEX k)) 64) = true := by simp [hd]
  have hgood : ¬(r.isNone || !s.recOk (s.recAddr k (s.get .ING_PLAY_H_INDEX k))) = true := by
    simp [hok, Option.isSome_iff_ne_none.mp hr]
  rw [exec_playRecordRead, execPlayRecordRead, hu]
  exact ⟨_, (if_neg hrun).trans ((if_neg hin).trans (if_neg hgood))⟩

theorem exec_playRecordRead_completes (hs : s.get .ING_PLAY_STATUS_STATE k ≠ 0) (hb : s.playBusy k = false)
    (ha : a = s.recAddr k (s.get .ING_PLAY_H_INDEX k)) (hu : s.dramRead a 64 = (u, r)) (hd : inDram a 64 = true)
    (hr : r.isSome = true) (hok : s.recOk a = true) : Completes (.playRecordRead k) s fun t =>
      t.get .ING_PLAY_H_REC k = a % 2 ^ Fld.ING_PLAY_H_REC.width ∧
        t.get .ING_PLAY_H_FN k = u.recField a 38 2 % 2 ^ Fld.ING_PLAY_H_FN.width ∧
        t.get .ING_CH_H_SEQ (128 + k) = (s.get .ING_CH_H_SEQ (128 + k) + 1) % 2 ^ Fld.ING_CH_H_SEQ.width := by
  obtain ⟨l, hl⟩ := exec_playRecordRead_opens hs hb ha hu hd hr hok
  have hseq : u.get .ING_CH_H_SEQ (128 + k) = s.get .ING_CH_H_SEQ (128 + k) := by
    have hread := State.dramRead_get s a 64 .ING_CH_H_SEQ (128 + k) (by decide)
    rwa [hu] at hread
  refine ⟨_, hl, ?_, ?_, ?_⟩
  · rw [State.replayOpened_get _ _ _ _ _ (by decide) (by decide), State.get_with_frames, State.noteRecord,
      State.get_set_ne _ _ _ _ _ _ (by decide)]
    exact State.get_set_same ..
  · rw [State.replayOpened_get _ _ _ _ _ (by decide) (by decide), State.get_with_frames, State.noteRecord]
    exact State.get_set_same ..
  · rw [State.replayOpened_get _ _ _ _ _ (by decide) (by decide), State.get_with_frames, State.noteRecord,
      State.get_set_ne _ _ _ _ _ _ (by decide), State.get_set_ne _ _ _ _ _ _ (by decide), State.get_bump_same, hseq]

end Record

theorem exec_playRecordRead_idle (h : s.get .ING_PLAY_STATUS_STATE k = 0 ∨ s.playBusy k = true) :
    exec (.playRecordRead k) s = .next s := by
  rw [exec_playRecordRead, execPlayRecordRead]
  exact if_pos (by rcases h with h | h <;> simp [h])

theorem exec_playRecordRead_outside (hs : s.get .ING_PLAY_STATUS_STATE k ≠ 0) (hb : s.playBusy k = false)
    (hd : inDram (s.recAddr k (s.get .ING_PLAY_H_INDEX k)) 64 = false) :
    exec (.playRecordRead k) s = .next (s.playSkip k) := by
  simp [execPlayRecordRead, hs, hb, hd]

theorem exec_playRecordRead_bad {u : State} {r : Option (List Nat)} (hs : s.get .ING_PLAY_STATUS_STATE k ≠ 0)
    (hb : s.playBusy k = false) (hu : s.dramRead (s.recAddr k (s.get .ING_PLAY_H_INDEX k)) 64 = (u, r))
    (hd : inDram (s.recAddr k (s.get .ING_PLAY_H_INDEX k)) 64 = true)
    (h : r.isNone = true ∨ s.recOk (s.recAddr k (s.get .ING_PLAY_H_INDEX k)) = false) :
    exec (.playRecordRead k) s = .next (u.playSkip k) := by
  have hbad : (r.isNone || !s.recOk (s.recAddr k (s.get .ING_PLAY_H_INDEX k))) = true := by
    rcases h with h | h <;> simp [h]
  simp [execPlayRecordRead, hs, hb, hd, hu, hbad]

/-- Noting eligible stripes leaves a frame's source, tag and pacing. -/
theorem State.noteFrame_spec (s : State) (f : Frame) :
    (s.noteFrame f).ch = f.ch ∧ (s.noteFrame f).tag = f.tag ∧ (s.noteFrame f).work.paced = f.work.paced := by
  unfold State.noteFrame
  split
  · exact ⟨rfl, rfl, rfl⟩
  · split <;> exact ⟨rfl, rfl, rfl⟩

theorem exec_playPace_completes (k n : Nat) (s : State) : Completes (.playPace k n) s fun t =>
    ∀ f ∈ s.frames, f.ch = 128 + k → f.closed = false →
      ∃ g ∈ t.frames, g.ch = f.ch ∧ g.tag = f.tag ∧ g.work.paced = max f.work.paced (min n f.height) := by
  refine ⟨_, rfl, fun f hf hc ho => ⟨_, List.mem_map_of_mem (List.mem_map_of_mem hf), ?_⟩⟩
  rw [if_pos (by simp [hc, ho])]
  exact State.noteFrame_spec _ _

end Replay

end Sys2Proof.Machine

open Sys2Proof Sys2Proof.Machine

/-- Settles O22: rolling tests, fences, resets, counters, and a replay from its start to its pacing. -/
theorem pipeControlAndReplayCommandsComplete : Obligations.PipeControlAndReplayCommandsComplete := by
  refine ⟨fun s => ⟨exec_rollWithdrawn_idle, exec_rollWithdrawn_completes⟩,
    fun q s => ⟨exec_rollInterval_idle, exec_rollInterval_completes⟩,
    fun p src s hg => ⟨exec_pipeFence_recorded hg, exec_pipeUnfence_recorded hg⟩,
    fun p s => ⟨exec_pipeFenceDone_idle, exec_pipeFenceDone_completes⟩,
    fun p src s => ⟨exec_pipeReset_recorded, fun hg => ⟨?_, ?_, ?_⟩⟩,
    fun k src s hg => ⟨fun hc => ⟨?_, s.playBegin_spec k⟩, ?_, State.playHalt_idle, State.playHalt_busy,
      State.playHalt_done⟩,
    fun k s => ⟨exec_playRecordRead_idle, fun hs hb a u r ha hu => ⟨exec_playRecordRead_completes hs hb ha hu, ?_, ?_⟩⟩,
    exec_playPace_completes⟩
  -- counters
  · simp [execPipeClrCnt, hg]
  · exact s.pipeClrCnt_get p _ (by decide)
  · exact s.pipeClrCnt_get p _ (by decide)
  -- start and stop of a replay
  · simp [execPlayStart, hg, hc]
  · simp [execPlayStop, hg]
  -- records that are skipped
  · subst ha
    exact exec_playRecordRead_outside hs hb
  · subst ha
    exact exec_playRecordRead_bad hs hb hu

end

section
/-! PROOFS. Encoders, timebase, PTP stamps and mark edges (O18). -/

namespace Sys2Proof.Machine

/-! ### Encoders (04_sync_and_tagging.md R93 to R97) -/

section Encoder
variable {s : State} {n held v : Nat} {a b : Bool} {src : Src}

theorem State.encFiltered_of_lt (h : s.get .SYN_ENC_CFG_FILTER n < held) : s.encFiltered n held = true :=
  decide_eq_true h

theorem State.encFiltered_of_le (h : held ≤ s.get .SYN_ENC_CFG_FILTER n) : s.encFiltered n held = false :=
  decide_eq_false (Nat.not_lt.mpr h)

/-- A sign that is taken of a count is a factor of it. -/
theorem ite_neg_eq_mul (c : Bool) (d : Int) : (if c then -d else d) = (if c then -1 else 1) * d := by
  cases c
  · exact (Int.one_mul d).symm
  · exact Int.neg_eq_neg_one_mul d

theorem exec_encoderCount_counts (hf : s.get .SYN_ENC_CFG_FILTER n < held)
    (h : s.get .SYN_ENC_CFG_MODE n = 3 ∨ (s.on .SYN_ENC_H_A n = a ∨ s.on .SYN_ENC_H_B n = b)) :
    exec (.encoderCount n (a, b) held) s = .next (((s.set .SYN_ENC_H_A n (if a then 1 else 0)).set .SYN_ENC_H_B n
      (if b then 1 else 0)).set .SYN_ENC_POS n (ofSigned 48 ((s.get .SYN_ENC_POS n : Int) +
        (if s.on .SYN_ENC_CFG_REVERSE n then -1 else 1) *
          encoderStep (s.get .SYN_ENC_CFG_MODE n) (s.on .SYN_ENC_H_A n) (s.on .SYN_ENC_H_B n) a b))) := by
  have hone : ¬(decide (s.get .SYN_ENC_CFG_MODE n < 3) && (s.on .SYN_ENC_H_A n != a) && (s.on .SYN_ENC_H_B n != b)) = true := by
    rcases h with h | h | h <;> simp [h]
  rw [exec_encoderCount, execEncoderCount, State.encFiltered_of_lt hf, ← ite_neg_eq_mul, ← Bool.cond_eq_ite a 1 0,
    ← Bool.cond_eq_ite b 1 0]
  exact (if_neg Bool.false_ne_true).trans (if_neg hone)

/-- Both inputs of a quadrature encoder at once: an error that leaves the position (R95). -/
theorem exec_encoderCount_both (hf : s.get .SYN_ENC_CFG_FILTER n < held) (hm : s.get .SYN_ENC_CFG_MODE n < 3)
    (ha : s.on .SYN_ENC_H_A n ≠ a) (hb : s.on .SYN_ENC_H_B n ≠ b) : Completes (.encoderCount n (a, b) held) s fun t =>
      t.get .SYN_ENC_POS n = s.get .SYN_ENC_POS n ∧
        t.get .SYN_ENC_CNT_ERR n = min (s.get .SYN_ENC_CNT_ERR n + 1) (2 ^ Fld.SYN_ENC_CNT_ERR.width - 1) := by
  have hboth : (decide (s.get .SYN_ENC_CFG_MODE n < 3) && (s.on .SYN_ENC_H_A n != a) && (s.on .SYN_ENC_H_B n != b)) = true := by
    simp [hm, ha, hb]
  rw [Completes, exec_encoderCount, execEncoderCount, State.encFiltered_of_lt hf]
  refine ⟨_, (if_neg Bool.false_ne_true).trans (if_pos hboth), ?_, ?_⟩
  · rw [State.sticky_get _ _ _ _ _ _ _ _ _ _ _ _ _ (by decide) (by decide), State.get_inc_ne _ _ _ _ _ (by decide),
      State.get_set_ne _ _ _ _ _ _ (by decide), State.get_set_ne _ _ _ _ _ _ (by decide)]
  · rw [State.sticky_get _ _ _ _ _ _ _ _ _ _ _ _ _ (by decide) (by decide), State.get_inc_same,
      State.get_set_ne _ _ _ _ _ _ (by decide), State.get_set_ne _ _ _ _ _ _ (by decide)]

theorem exec_encPreset_recorded (hg : s.gate src .installer 9 = .ok) (hu : s.encoderUsed n = false) :
    Recorded (.encPreset n v src) s src 0 (s.auditRec src 1 1 (0x180010 + 0x40 * n)
      (valueDigest (s.get .SYN_ENC_POS n)) (valueDigest v)) fun t =>
        t = ((s.set .SYN_ENC_PRESET n v).set .SYN_ENC_POS n v).emit (.status src 0 .ok) := by
  have heff : effEncPreset n v src s = (s.set .SYN_ENC_PRESET n v).set .SYN_ENC_POS n v := by simp [effEncPreset, hu]
  refine .of_exec (eff := effEncPreset n v src) (by simp [execEncPreset, hg, hu]) fun hm => ?_
  rw [State.completed_of_silent (by rw [heff]; rfl), heff, State.answer_mgt _ _ _ _ hm]

end Encoder

/-! ### Speed (R97) -/

section Speed
variable (s : State) (n : Nat)

theorem ofSigned_lt (w : Nat) (x : Int) : ofSigned w x < 2 ^ w := by
  have hw : (0 : Int) < ((2 ^ w : Nat) : Int) := Int.natCast_pos.mpr (Nat.two_pow_pos w)
  exact (Int.toNat_lt (Int.emod_nonneg x (Int.ne_of_gt hw))).mpr (Int.emod_lt_of_pos x hw)

/-- The signed 24-bit change of an encoder's position since the last sample. -/
def State.speedOf : Nat := ofSigned 24 (toSigned 48 (s.get .SYN_ENC_POS n + 2 ^ 48 - s.get .SYN_ENC_H_MSPOS n))

/-- The note that an encoder has moved is no cell of the encoder's. -/
theorem State.speedSample_get_stored (f : Fld) (i : Nat) (h : f.page ≠ 2) : (s.speedSample n).get f i =
    ((s.set .SYN_ENC_STATUS_SPEED n (s.speedOf n)).set .SYN_ENC_H_MSPOS n (s.get .SYN_ENC_POS n)).get f i := by
  have hne (g : Fld) (hg : g.page = 2) : g.id ≠ f.id := fun e => h (by rw [← hg, Fld.page, Fld.page, e])
  unfold State.speedSample
  extract_lets w t
  split
  · rfl
  · rw [State.get_set_ne _ _ _ _ _ _ (hne _ (by decide)), State.get_set_ne _ _ _ _ _ _ (hne _ (by decide))]
    rfl

theorem State.speedSample_speed : (s.speedSample n).get .SYN_ENC_STATUS_SPEED n = s.speedOf n := by
  rw [State.speedSample_get_stored _ _ _ _ (by decide), State.get_set_ne _ _ _ _ _ _ (by decide), State.get_set_same]
  exact Nat.mod_eq_of_lt (ofSigned_lt 24 _)

theorem State.speedSample_last : (s.speedSample n).get .SYN_ENC_H_MSPOS n = s.get .SYN_ENC_POS n % 2 ^ 48 := by
  rw [State.speedSample_get_stored _ _ _ _ (by decide)]
  exact State.get_set_same ..

/-- A sample of one encoder leaves every cell of the others. -/
theorem State.speedSample_get_inst (f : Fld) (i : Nat) (h : n ≠ i) : (s.speedSample n).get f i = s.get f i := by
  unfold State.speedSample
  dsimp only
  split
  · rw [State.get_set_inst _ _ _ _ _ _ h, State.get_set_inst _ _ _ _ _ _ h]
  · rw [State.get_set_inst _ _ _ _ _ _ h, State.get_set_inst _ _ _ _ _ _ h, State.get_set_inst _ _ _ _ _ _ h,
      State.get_set_inst _ _ _ _ _ _ h]

theorem State.speedSamples_get_inst {l : List Nat} {i : Nat} (h : i ∉ l) (f : Fld) :
    (l.foldl State.speedSample s).get f i = s.get f i :=
  List.foldlRecOn (motive := fun t : State => t.get f i = s.get f i) l _ rfl fun t ht x hx =>
    (State.speedSample_get_inst t x f i fun e => h (e ▸ hx)).trans ht

/-- Samples of several encoders, each once: the cells of one of them read as after its own sample. -/
theorem State.speedSamples_spec {l : List Nat} (hl : l.Nodup) (hn : n ∈ l) :
    (l.foldl State.speedSample s).get .SYN_ENC_STATUS_SPEED n = s.speedOf n ∧
      (l.foldl State.speedSample s).get .SYN_ENC_H_MSPOS n = s.get .SYN_ENC_POS n % 2 ^ 48 := by
  obtain ⟨before, after, rfl⟩ := List.append_of_mem hn
  obtain ⟨-, hafter, hdisj⟩ := List.nodup_append.mp hl
  have hb : n ∉ before := fun h => hdisj n h n (List.mem_cons_self ..) rfl
  have ha : n ∉ after := (List.nodup_cons.mp hafter).1
  have hkept (f : Fld) : (before.foldl State.speedSample s).get f n = s.get f n := State.speedSamples_get_inst s hb f
  rw [List.foldl_append, List.foldl_cons, State.speedSamples_get_inst _ ha, State.speedSamples_get_inst _ ha,
    State.speedSample_speed, State.speedSample_last, State.speedOf, hkept, hkept]
  exact ⟨rfl, rfl⟩

theorem exec_speedSample_completes : Completes .speedSample s fun t => ∀ n < 4,
    t.get .SYN_ENC_STATUS_SPEED n = s.speedOf n ∧ t.get .SYN_ENC_H_MSPOS n = s.get .SYN_ENC_POS n % 2 ^ 48 :=
  ⟨_, rfl, fun n hn => State.speedSamples_spec s n List.nodup_range (List.mem_range.mpr hn)⟩

end Speed

/-! ### Timebase (R109) -/

section Timebase
variable {s : State} {v : Nat} {src : Src} {d : Int}

theorem State.stepStatus_slaved (h : s.get .SYN_TB_CTRL_SRC = 2) : s.stepStatus d = .state := if_pos h

theorem State.stepStatus_outside (hs : s.get .SYN_TB_CTRL_SRC ≠ 2)
    (h : (s.now : Int) + d < 0 ∨ 2 ^ 64 - 1 < (s.now : Int) + d) : s.stepStatus d = .range := by
  rw [State.stepStatus, if_neg hs]
  exact if_pos (by simpa using h)

/-- Within the range a step completes with OK, unless it goes back while a generator runs. -/
theorem State.stepStatus_inside (hs : s.get .SYN_TB_CTRL_SRC ≠ 2) (h0 : 0 ≤ (s.now : Int) + d)
    (h1 : (s.now : Int) + d ≤ 2 ^ 64 - 1) :
    s.stepStatus d = if d < 0 && (List.range 128).any (fun c => s.genOn c) then .state else .ok := by
  rw [State.stepStatus, if_neg hs]
  exact if_neg (by simp only [Bool.or_eq_true, decide_eq_true_eq]; omega)

theorem State.stepStatus_allowed (hs : s.get .SYN_TB_CTRL_SRC ≠ 2) (h0 : 0 ≤ (s.now : Int) + d)
    (h1 : (s.now : Int) + d ≤ 2 ^ 64 - 1) (h : 0 ≤ d ∨ (List.range 128).any (fun c => s.genOn c) = false) :
    s.stepStatus d = .ok := by
  rw [State.stepStatus_inside hs h0 h1]
  refine if_neg ?_
  rcases h with h | h
  · simp [Int.not_lt.mpr h]
  · rw [h, Bool.and_false]
    exact Bool.false_ne_true

theorem State.stepStatus_running (hs : s.get .SYN_TB_CTRL_SRC ≠ 2) (h0 : 0 ≤ (s.now : Int) + d) (hd : d < 0)
    (hn : s.now < 2 ^ 64) (hr : (List.range 128).any (fun c => s.genOn c) = true) : s.stepStatus d = .state := by
  rw [State.stepStatus_inside hs h0 (by omega), hr, decide_eq_true hd]
  rfl

theorem exec_tbStep_steps (hg : s.gate src .operator 9 = .ok) (h : s.stepStatus (toSigned 64 v) = .ok) :
    exec (.tbStep v src) s = .next (((s.set .SYN_TB_TIME 0 ((s.now : Int) + toSigned 64 v).toNat).set .PWR_H_STEPPED 0
      1).answer src 0 .ok) := by
  rw [exec_tbStep, execTbStep, if_neg (not_not_intro hg), h]
  rfl

theorem exec_tbStep_refused {st : Status} (hg : s.gate src .operator 9 = .ok) (h : s.stepStatus (toSigned 64 v) = st)
    (hst : st ≠ .ok) : exec (.tbStep v src) s = .next (s.answer src 0 st) := by
  rw [exec_tbStep, execTbStep, if_neg (not_not_intro hg)]
  split
  · next ho => exact absurd (h.symm.trans ho) hst
  · rw [h]

end Timebase

/-! ### Mark edges (R98, R99) -/

section Mark
variable {s : State} {m held time : Nat} {rising : Bool}

/-- What the lockout makes of an edge it rejects: a count, a flag and perhaps an event. -/
def State.markLockout (s : State) (m : Nat) : State :=
  let t := (s.inc .SYN_MARK_CNT_LOCKOUT_CNT m).set .SYN_MARK_CNT_LOCKOUT_LOCKOUT m 1
  if !s.on .SYN_MARK_CNT_LOCKOUT_LOCKOUT m && t.bit .SYN_EVENT_EN_ENC_MARK 0 1 then
    t.event 0x0018 m 0x0002 (argAt 16 (t.get .SYN_ENC_POS (t.get .SYN_MARK_CFG_ENC m) % 2 ^ 32)) else t

theorem exec_markEdge_ignored (h : held ≤ s.get .SYN_MARK_CFG_FILTER (m % 4) ∨ s.markOn (m % 4) = false ∨
    s.edgeTaken (m % 4) rising = false ∨ s.get .PWR_H_STATE = 1 ∨ s.get .PWR_H_STATE = 2 ∨
    s.get .BOOT_STATUS_STATE = 2) : exec (.markEdge m rising held) s = .next s := by
  rw [exec_markEdge, execMarkEdge]
  refine if_pos ?_
  rcases h with h | h | h | h | h | h
  · have hfilt : s.markFiltered (m % 4) held = false := decide_eq_false (Nat.not_lt.mpr h)
    simp [hfilt]
  all_goals simp [h]

/-- An edge that is not ignored comes to the lockout. -/
theorem exec_markEdge_heard (hf : s.get .SYN_MARK_CFG_FILTER (m % 4) < held) (hon : s.markOn (m % 4) = true)
    (he : s.edgeTaken (m % 4) rising = true) (h1 : s.get .PWR_H_STATE ≠ 1) (h2 : s.get .PWR_H_STATE ≠ 2)
    (hb : s.get .BOOT_STATUS_STATE ≠ 2) : exec (.markEdge m rising held) s =
      .next (if s.lockedOut (m % 4) then s.markLockout (m % 4) else s.markAccept (m % 4) (s.ballTime (m % 4))) := by
  have hfilt : s.markFiltered (m % 4) held = true := decide_eq_true hf
  have hheard : ¬(!s.markFiltered (m % 4) held || !s.markOn (m % 4) || !s.edgeTaken (m % 4) rising ||
      s.get .PWR_H_STATE = 1 || s.get .PWR_H_STATE = 2 || s.get .BOOT_STATUS_STATE = 2) = true := by
    simp [hfilt, hon, he, h1, h2, hb]
  rw [exec_markEdge, execMarkEdge]
  refine (if_neg hheard).trans ?_
  split <;> rfl

theorem State.markLockout_get (f : Fld) (i : Nat) (h : f.page ≠ 0) : (s.markLockout m).get f i =
    ((s.inc .SYN_MARK_CNT_LOCKOUT_CNT m).set .SYN_MARK_CNT_LOCKOUT_LOCKOUT m 1).get f i := by
  unfold State.markLockout
  dsimp only
  split
  · exact State.event_get _ _ _ _ _ _ _ h
  · rfl

theorem State.markLockout_get_ne (f : Fld) (i : Nat) (h : f.page ≠ 0) (hc : Fld.SYN_MARK_CNT_LOCKOUT_CNT.id ≠ f.id)
    (hl : Fld.SYN_MARK_CNT_LOCKOUT_LOCKOUT.id ≠ f.id) : (s.markLockout m).get f i = s.get f i := by
  rw [State.markLockout_get _ _ h, State.get_set_ne _ _ _ _ _ _ hl, State.get_inc_ne _ _ _ _ _ hc]

theorem State.markLockout_flag : (s.markLockout m).get .SYN_MARK_CNT_LOCKOUT_LOCKOUT m = 1 := by
  rw [State.markLockout_get _ _ (by decide)]
  exact State.get_set_same ..

theorem State.markLockout_count : (s.markLockout m).get .SYN_MARK_CNT_LOCKOUT_CNT m =
    min (s.get .SYN_MARK_CNT_LOCKOUT_CNT m + 1) (2 ^ Fld.SYN_MARK_CNT_LOCKOUT_CNT.width - 1) := by
  rw [State.markLockout_get _ _ (by decide), State.get_set_ne _ _ _ _ _ _ (by decide), State.get_inc_same]

/-- The cells in which a generator arms (R102). -/
def armCells : List Fld := [.SYN_CH_H_AMODE, .SYN_CH_H_AENC, .SYN_CH_H_NEXT, .SYN_CH_STATUS_ARMED]

theorem State.armByMark_get (s : State) (m c : Nat) (f : Fld) (i : Nat) (h : ∀ g ∈ armCells, g.id ≠ f.id) :
    (s.armByMark m c).get f i = s.get f i := by
  unfold State.armByMark
  split
  · rw [State.armAt, State.get_set_ne _ _ _ _ _ _ (h _ (by decide)), State.get_set_ne _ _ _ _ _ _ (h _ (by decide)),
      State.get_set_ne _ _ _ _ _ _ (h _ (by decide)), State.get_set_ne _ _ _ _ _ _ (h _ (by decide))]
  · rfl

theorem State.armAllByMark_get (s : State) (m : Nat) (f : Fld) (i : Nat) (h : ∀ g ∈ armCells, g.id ≠ f.id) :
    (s.armAllByMark m).get f i = s.get f i :=
  State.foldl_get _ _ _ _ _ fun t c => State.armByMark_get t m c f i h

theorem State.markAdopt_get (s : State) (m pos : Nat) (f : Fld) (i : Nat) (h : (0x10000000000001 : Nat).testBit f.page = false) :
    (s.markAdopt m pos).get f i = s.get f i :=
  (State.markAdopt_upd s m pos (W := 0x10000000000001) (P := 0x100102) (by decide) (Upd.refl s)).cells f i h

/-- The record of an accepted edge (R99): its sequence, the time, and the position of the tied encoder. -/
def State.markRecord (s : State) (m time : Nat) : State :=
  ((s.bump .SYN_MARK_SEQ m 1).set .SYN_MARK_TIME m time).set .SYN_MARK_POS m (s.get .SYN_ENC_POS (s.get .SYN_MARK_CFG_ENC m))

/-- The cells of a mark's record. -/
def markRecordCells : List Fld := [.SYN_MARK_SEQ, .SYN_MARK_TIME, .SYN_MARK_POS]

/-- What else follows from an accepted edge that is no switch edge leaves the mark's record. -/
theorem State.markAccept_get (hsw : s.switchEdge m time = false) {f : Fld} (hf : f ∈ markRecordCells) :
    (s.markAccept m time).get f m = (s.markRecord m time).get f m := by
  obtain ⟨harm, hpage, hadopt, hprev, hint, htime⟩ := (by decide : ∀ f ∈ markRecordCells, (∀ g ∈ armCells, g.id ≠ f.id) ∧
    (0x10000000000001 : Nat).testBit f.page = false ∧ Fld.PWR_H_ADOPT.id ≠ f.id ∧ Fld.SYN_MARK_H_PREV.id ≠ f.id ∧
    Fld.JOB_H_INTERVAL.id ≠ f.id ∧ Fld.JOB_H_MARKTIME.id ≠ f.id) f hf
  unfold State.markAccept
  extract_lets pos seen last sw s1 s2 s3 s4
  have h1 : s1.get f m = (s.markRecord m time).get f m := State.get_set_ne _ _ _ _ _ _ hprev
  have h2 : s2.get f m = s1.get f m := by
    unfold s2
    rw [State.get_set_ne _ _ _ _ _ _ htime]
    split
    · exact State.get_set_ne _ _ _ _ _ _ hint
    · rfl
  have h3 : s3.get f m = s2.get f m :=
    (State.get_set_ne _ _ _ _ _ _ hadopt).trans (State.markAdopt_get _ _ _ _ _ hpage)
  have h4 : s4 = s3 := if_neg (ne_true_of_eq_false hsw)
  rw [State.armAllByMark_get _ _ _ _ harm, h4, h3, h2, h1]

theorem State.markAccept_spec (hsw : s.switchEdge m time = false) :
    (s.markAccept m time).get .SYN_MARK_SEQ m = (s.get .SYN_MARK_SEQ m + 1) % 2 ^ Fld.SYN_MARK_SEQ.width ∧
      (s.markAccept m time).get .SYN_MARK_POS m = s.get .SYN_ENC_POS (s.get .SYN_MARK_CFG_ENC m) % 2 ^ 48 ∧
      (s.markAccept m time).get .SYN_MARK_TIME m = time % 2 ^ 64 := by
  refine ⟨?_, ?_, ?_⟩
  · rw [State.markAccept_get hsw (by decide), State.markRecord, State.get_set_ne _ _ _ _ _ _ (by decide),
      State.get_set_ne _ _ _ _ _ _ (by decide), State.get_bump_same]
  · rw [State.markAccept_get hsw (by decide)]
    exact State.get_set_same ..
  · rw [State.markAccept_get hsw (by decide), State.markRecord, State.get_set_ne _ _ _ _ _ _ (by decide)]
    exact State.get_set_same ..

end Mark

end Sys2Proof.Machine

open Sys2Proof Sys2Proof.Machine

/-- Settles O18: encoders, speed, slew and step of the time, PTP stamps, and a mark edge ignored, locked out or accepted. -/
theorem encoderAndTimeCommandsComplete : Obligations.EncoderAndTimeCommandsComplete := by
  refine ⟨fun n a b held s => ⟨?_, exec_encoderCount_counts⟩, fun n a b held s => exec_encoderCount_both,
    fun n held s => ⟨?_, ?_⟩, fun n v src s hg => ⟨exec_encPreset_recorded hg, ?_⟩, exec_speedSample_completes,
    fun v src s => ⟨?_, ?_, ?_⟩, fun v src s hg => ⟨?_, ?_, ?_, ?_⟩, fun tr dom ty seq st s => ⟨?_, ?_⟩,
    fun src s hg => ?_, fun m rising t s => exec_markEdge_ignored,
    fun m rising t s hf hon he h1 h2 hb hl => ?_, fun m rising t s hf hon he h1 h2 hb hl => ?_⟩
  -- levels of A, B and Z
  · exact fun hf => by simp [execEncoderCount, State.encFiltered_of_le hf]
  · exact fun hf => by simp [execEncoderZ, State.encFiltered_of_lt hf]
  · exact fun hf => by simp [execEncoderZ, State.encFiltered_of_le hf]
  -- the preset of an encoder in use
  · exact fun hu => by simp [execEncPreset, hg, hu]
  -- a slew, and its end
  · exact fun hg hs => by simp [execTbSlew, State.slewTo, hg, hs]
  · exact fun hz => if_pos hz
  · exact fun hz => if_neg hz
  -- a step of the time
  · exact fun hs h0 h1 h => exec_tbStep_steps hg (State.stepStatus_allowed hs h0 h1 h)
  · exact fun hs => exec_tbStep_refused hg (State.stepStatus_slaved hs) (by decide)
  · exact fun hs h => exec_tbStep_refused hg (State.stepStatus_outside hs h) (by decide)
  · exact fun hs h0 hd hn hr => exec_tbStep_refused hg (State.stepStatus_running hs h0 hd hn hr) (by decide)
  -- PTP stamps
  · exact fun hty hen htr hdom => by simp [execPtpRxStamp, ptpEventMsg, hty, hen, htr, hdom]
  · rintro (h | h | h | h)
    · simp [execPtpRxStamp, ptpEventMsg, Nat.not_lt.mpr h]
    · simp [execPtpRxStamp, h]
    · simp [execPtpRxStamp, h]
    · simp [execPtpRxStamp, h]
  · simp [execPtpTxtsPop, State.ptpPop, hg]
  -- an edge that is locked out
  · refine ⟨_, (exec_markEdge_heard hf hon he h1 h2 hb).trans (by rw [if_pos hl]), State.markLockout_flag,
      State.markLockout_count, ?_, ?_⟩
    · exact State.markLockout_get_ne _ _ (by decide) (by decide) (by decide)
    · exact State.markLockout_get_ne _ _ (by decide) (by decide) (by decide)
  -- an edge that is accepted
  · exact ⟨_, (exec_markEdge_heard hf hon he h1 h2 hb).trans (by rw [hl]; rfl), rfl, State.markAccept_spec⟩

end

section
/-! PROOFS. What a port sends next (O47). -/

namespace Sys2Proof.Machine

section PortSend
variable {s u : State} {p : Nat} {q : Option (Nat × Nat)}

/-! ### Stops (10_egress_delivery.md R266, R270) -/

theorem exec_portSend_stopped (h : s.portCount ≤ p ∨ s.on .EGR_PORT_STATUS_LINK p = false ∨
    s.elapsed < s.get .EGR_PORT_H_PAUSE p) : exec (.portSend p q) s = .next s := by
  rw [exec_portSend, execPortSend]
  rcases h with h | h | h
  · exact if_pos (by simp [h])
  · exact if_pos (by simp [h])
  · rw [if_pos h, ite_self]

/-! ### The order of what is sent (R270) -/

/-- The control packet that is due again, where the share of control packets has room for it. -/
def State.controlAgain (s : State) (p : Nat) : Option Pkt :=
  (s.resendNext p 3).filter fun k => s.ctlRoom p (s.wireBytes p k.qp k.op k.data.length)

/-- What a port sends besides time packets: control packets, then the class whose turn it is. -/
def State.sendNext (s : State) (p : Nat) : State :=
  match s.controlAgain p with
  | some k => (s.sendAgain p k).ctlUse p (s.wireBytes p k.qp k.op k.data.length)
  | none =>
    match s.ctlNext p with
    | some (i, c) => s.sendCtlPacket p i c
    | none =>
      match (s.gainCredit p).pickClass p with
      | some c => (s.gainCredit p).sendClass p c
      | none => s.gainCredit p

/-- A time packet leaves, and where it is an event message its stamp is kept (R111). -/
def State.sendPtp (s : State) (p t n : Nat) : State :=
  let w := ((s.emit (.ptpTx p t n s.now)).inc .EGR_PORT_CNT_TX p).ctlUse p 98
  if w.on .SYN_PTP_CFG_EN && ptpEventMsg t then w.ptpTxStamp ⟨n, t, w.now⟩ else w

/-- The port exists and its link is up. -/
theorem portUp (hp : p < s.portCount) (hl : s.on .EGR_PORT_STATUS_LINK p = true) :
    ¬(decide (s.portCount ≤ p) || !s.on .EGR_PORT_STATUS_LINK p) = true := by simp [hl, hp]

section Open
variable (hp : p < s.portCount) (hl : s.on .EGR_PORT_STATUS_LINK p = true) (hs : s.get .EGR_PORT_H_PAUSE p ≤ s.elapsed)
  (hu : u = s.markRingFull p)
include hp hl hs hu

theorem exec_portSend_ptp {t n : Nat} (hq : q = some (t, n)) (h0 : p = 0) (hroom : u.ctlRoom p 98 = true) :
    exec (.portSend p q) s = .next (u.sendPtp p t n) := by
  have hfirst : (decide (p = 0) && u.ctlRoom p 98) = true := by rw [hroom, decide_eq_true h0]; rfl
  subst hq
  rw [exec_portSend, execPortSend, if_neg (portUp hp hl), if_neg (Nat.not_lt.mpr hs), ← hu]
  exact if_pos hfirst

theorem exec_portSend_next (h : q = none ∨ p ≠ 0 ∨ u.ctlRoom p 98 = false) :
    exec (.portSend p q) s = .next (u.sendNext p) := by
  rw [exec_portSend, execPortSend, if_neg (portUp hp hl), if_neg (Nat.not_lt.mpr hs), ← hu]
  cases q with
  | none => rfl
  | some m =>
    have hlater : ¬(decide (p = 0) && u.ctlRoom p 98) = true := by
      rcases h with h | h | h
      · cases h
      · simp [h]
      · simp [h]
    exact if_neg hlater

end Open

theorem State.sendNext_again {k : Pkt} (h : u.controlAgain p = some k) :
    u.sendNext p = (u.sendAgain p k).ctlUse p (u.wireBytes p k.qp k.op k.data.length) := by
  rw [State.sendNext, h]

theorem State.sendNext_control {i : Nat} {c : CtlMsg} (h : u.controlAgain p = none) (hc : u.ctlNext p = some (i, c)) :
    u.sendNext p = u.sendCtlPacket p i c := by
  rw [State.sendNext, h, hc]

theorem State.sendNext_idle (h : u.controlAgain p = none) (hc : u.ctlNext p = none)
    (hn : (u.gainCredit p).pickClass p = none) : u.sendNext p = u.gainCredit p := by
  rw [State.sendNext, h, hc, hn]

theorem State.sendNext_class {c : Nat} (h : u.controlAgain p = none) (hc : u.ctlNext p = none)
    (hn : (u.gainCredit p).pickClass p = some c) : u.sendNext p = (u.gainCredit p).sendClass p c := by
  rw [State.sendNext, h, hc, hn]

/-! ### The packet of a class: one due again before the next of a delivery (R262) -/

theorem State.sendClass_again {c : Nat} {k : Pkt} (h : s.resendNext p c = some k) : s.sendClass p c =
    (s.sendAgain p k).set .EGR_PORT_H_CREDIT (4 * p + c) (s.get .EGR_PORT_H_CREDIT (4 * p + c) - (k.data.length + k.n)) := by
  rw [State.sendClass, h]

theorem State.sendClass_new {c : Nat} {d : Delivery} (h : s.resendNext p c = none) (hd : s.classNext p c = some d) :
    s.sendClass p c = s.sendData p d := by
  rw [State.sendClass, h, hd]

theorem State.sendClass_none {c : Nat} (h : s.resendNext p c = none) (hd : s.classNext p c = none) :
    s.sendClass p c = s := by
  rw [State.sendClass, h, hd]

end PortSend

end Sys2Proof.Machine

open Sys2Proof Sys2Proof.Machine

/-- Settles O47: a port that is stopped, a time packet, and then what is sent in its order. -/
theorem egressSendingComplete : Obligations.EgressSendingComplete := by
  refine ⟨fun p q s => exec_portSend_stopped, fun p q u v s hp hl hs hu hv => ⟨?_, ?_⟩⟩
  · rintro t n w hq h0 hroom rfl
    exact exec_portSend_ptp hp hl hs hu hq h0 hroom
  · rintro h g rfl
    subst hv
    have hnext := exec_portSend_next hp hl hs hu h
    refine ⟨fun k hk => ?_, fun hg => ⟨fun i c hc => ?_, fun hc => ⟨fun hn => ?_, fun c hn => ⟨fun k hk => ?_,
      fun hk => ⟨fun d hd => ?_, fun hd => ?_⟩⟩⟩⟩⟩
    -- control packets
    · rw [hnext, State.sendNext_again hk]
    · rw [hnext, State.sendNext_control hg hc]
    -- no class, or the class whose turn it is
    · rw [hnext, State.sendNext_idle hg hc hn]
    · rw [hnext, State.sendNext_class hg hc hn, State.sendClass_again hk]
    · rw [hnext, State.sendNext_class hg hc hn, State.sendClass_new hk hd]
    · rw [hnext, State.sendNext_class hg hc hn, State.sendClass_none hk hd]

end

section
/-! PROOFS. Arming, cancelling and stopping a job, `JOB_CTRL`, and the start of a rolling test (O33). -/

namespace Sys2Proof.Machine

section JobArming
variable {s u : State} {src : Src} {m v tarm : Nat} {im : Bool}

theorem eq_pair_of_ok {q : State × Status} (h : q.2 = .ok) : q = (q.1, .ok) := Prod.ext rfl h

/-! ### What arming leaves (12_jobs_and_autonomy.md R299, R305) -/

/-- An arm with a mark that succeeds leaves NEXT ARMED, with that mark and the arming time. -/
theorem State.armNext_armed (h : (s.armNext m false tarm).2 = .ok) :
    (s.armNext m false tarm).1.nextState = 3 ∧
      (s.armNext m false tarm).1.get .JOB_STATUS_SW_MARK = m % 2 ^ Fld.JOB_STATUS_SW_MARK.width ∧
      (s.armNext m false tarm).1.get .JOB_ARM_TIME = tarm % 2 ^ Fld.JOB_ARM_TIME.width := by
  revert h
  unfold State.armNext
  split
  · exact nofun
  split
  · exact nofun
  split
  · exact nofun
  intro _
  rw [if_neg Bool.false_ne_true]
  refine ⟨?_, ?_, State.get_set_same ..⟩
  · rw [State.nextState, State.get_set_ne _ _ _ _ _ _ (by decide), State.get_set_ne _ _ _ _ _ _ (by decide),
      State.get_set_ne _ _ _ _ _ _ (by decide)]
    exact State.get_set_same ..
  · rw [State.get_set_ne _ _ _ _ _ _ (by decide), State.get_set_ne _ _ _ _ _ _ (by decide)]
    exact State.get_set_same ..

theorem State.armCommand_alone (hl : s.isLeader = false) : s.armCommand m im = s.armNext m im s.now := by
  simp [State.armCommand, hl]

theorem State.stopArm_alone (hl : s.isLeader = false) (hr : s.jobRuns = true) (hn : s.nextState = 0)
    (ha : (s.loadStop.armNext m im s.now).2 = .ok) :
    s.stopArm m im = ((s.loadStop.armNext m im s.now).1, .ok) := by
  have hbar : ¬(!s.jobRuns || decide (s.nextState ≠ nextEmpty)) = true := by simp [hr, hn]
  simp only [State.stopArm, if_neg hbar, hl, Bool.false_and, if_neg Bool.false_ne_true]
  rw [eq_pair_of_ok ha]

theorem State.ctrlArm_loaded (hm : m < 4) (hn : s.nextState = 2)
    (ha : (s.armNext m im (s.get .JOB_ARM_TIME)).2 = .ok) :
    s.ctrlArm m im false = ((s.armNext m im (s.get .JOB_ARM_TIME)).1, .ok) := by
  simp only [State.ctrlArm, if_neg (not_not_intro hn), Nat.mod_eq_of_lt hm, if_neg Bool.false_ne_true]
  rw [eq_pair_of_ok ha]

/-! ### Arm and stop by command (R298, R311) -/

theorem effJobArm_of_armed (h : s.armCommand (m % 4) im = (u, .ok)) : effJobArm m im src s = u := by
  rw [effJobArm, h]

theorem effJobStop_of_armed (h : s.stopArm (m % 4) im = (u, .ok)) : effJobStop m im src s = u := by
  rw [effJobStop, h]

theorem exec_jobArm_of_armed (hg : s.jobGate src false = .ok) (hf : s.isFollower = false)
    (ha : (s.armNext (m % 4) im s.now).2 = .ok) : exec (.jobArm m im src) s =
      .next (s.recorded src 0x12 (.jobArm m im src) (s.jobRec src (s.get .JOB_IDS_NEXT_ID)) (effJobArm m im src)) := by
  simp [execJobArm, hg, hf, ha]

theorem exec_jobStop_of_armed (hg : s.jobGate src false = .ok) (hf : s.isFollower = false)
    (h : s.stopArm (m % 4) im = (u, .ok)) : exec (.jobStop m im src) s =
      .next (s.recorded src 0x14 (.jobStop m im src) (s.jobRec src 0) (effJobStop m im src)) := by
  simp [execJobStop, hg, hf, h]

theorem exec_jobArm_recorded (hm : m < 4) (hg : s.jobGate src false = .ok) (hf : s.isFollower = false)
    (hl : s.isLeader = false) (ha : (s.armNext m false s.now).2 = .ok) : Recorded (.jobArm m false src) s src 0x12
      (s.jobRec src (s.get .JOB_IDS_NEXT_ID)) fun t => t.nextState = 3 ∧ t.get .JOB_STATUS_SW_MARK = m ∧
        t.get .JOB_ARM_TIME = s.now % 2 ^ Fld.JOB_ARM_TIME.width := by
  have hmod : m % 4 = m := Nat.mod_eq_of_lt hm
  have heff : effJobArm m false src s = (s.armNext m false s.now).1 :=
    effJobArm_of_armed (by rw [hmod, State.armCommand_alone hl]; exact eq_pair_of_ok ha)
  obtain ⟨hstate, hmark, htime⟩ := State.armNext_armed ha
  refine .of_exec (exec_jobArm_of_armed hg hf (by rw [hmod]; exact ha)) fun _ => ⟨?_, ?_, ?_⟩
  · rw [State.nextState, State.completed_get _ _ (by decide) (by decide), heff]
    exact hstate
  · rw [State.completed_get _ _ (by decide) (by decide), heff, hmark]
    exact hmod
  · rw [State.completed_get _ _ (by decide) (by decide), heff, htime]

theorem exec_jobStop_recorded (hm : m < 4) (hg : s.jobGate src false = .ok) (hf : s.isFollower = false)
    (hl : s.isLeader = false) (hr : s.jobRuns = true) (hn : s.nextState = 0)
    (ha : (s.loadStop.armNext m false s.now).2 = .ok) :
    Recorded (.jobStop m false src) s src 0x14 (s.jobRec src 0) fun t => t.nextState = 3 := by
  have hstop : s.stopArm (m % 4) false = ((s.loadStop.armNext m false s.now).1, .ok) := by
    rw [Nat.mod_eq_of_lt hm]; exact State.stopArm_alone hl hr hn ha
  refine .of_exec (exec_jobStop_of_armed hg hf hstop) fun _ => ?_
  rw [State.nextState, State.completed_get _ _ (by decide) (by decide), effJobStop_of_armed hstop]
  exact (State.armNext_armed ha).1

/-! ### Cancel (R299, R309) -/

theorem State.nextClear_nextState (s : State) : s.nextClear.nextState = 0 := by
  rw [State.nextState, State.nextClear, State.get_with_job, State.get_set_ne _ _ _ _ _ _ (by decide)]
  exact State.foldl_clear_get (by decide) (by decide) 0 s

theorem State.loadEnded_nextState (s : State) (st : Status) (b : Bool) : (s.loadEnded st b).nextState = s.nextState :=
  (State.loadEnded_upd s st b (W := 0x1100000000000000001) (P := 0x14cc03) (by decide) (Upd.refl s)).cells
    .JOB_STATUS_NEXT_STATE 0 (by decide)

theorem State.leaderSend_nextState (s : State) (op : Nat) (d : List Nat) : (s.leaderSend op d).nextState = s.nextState :=
  (State.leaderSend_upd s op d (W := 0x1000000000000000001) (P := 0x10c002) (by decide) (Upd.refl s)).cells
    .JOB_STATUS_NEXT_STATE 0 (by decide)

theorem State.cancelNext_nextState (s : State) : s.cancelNext.nextState = 0 := by
  rw [State.cancelNext, State.loadEnded_nextState, State.nextClear_nextState]

theorem State.leaderCancel_nextState (s : State) : s.leaderCancel.nextState = 0 := by
  rw [State.leaderCancel, State.leaderSend_nextState]
  split
  · assumption
  · exact s.cancelNext_nextState

theorem State.ctrlCancel_nextState (s : State) : s.ctrlCancel.nextState = 0 := by
  rw [State.ctrlCancel]
  split
  · assumption
  · exact s.cancelNext_nextState

theorem effJobCancel_nextState (hn : s.nextState ≠ 0) : (effJobCancel src s).nextState = 0 := by
  rw [effJobCancel, if_neg hn]
  split
  · exact s.leaderCancel_nextState
  · exact s.cancelNext_nextState

theorem exec_jobCancel_recorded (hg : s.jobGate src false = .ok) (hf : s.isFollower = false) (hn : s.nextState ≠ 0) :
    Recorded (.jobCancel src) s src 0x13 (s.jobRec src (s.get .JOB_IDS_NEXT_ID)) fun t => t.nextState = 0 := by
  refine .of_exec (eff := effJobCancel src) (by simp [execJobCancel, hg, hf, nextEmpty, hn]) fun _ => ?_
  rw [State.nextState, State.completed_get _ _ (by decide) (by decide)]
  exact effJobCancel_nextState hn

/-! ### `JOB_CTRL` (R299, R304) -/

theorem exec_jobCtrlArm_answers (hd : s.roleOf src = .device) (hm : m < 4) (hn : s.nextState = 2)
    (ha : (s.armNext m false (s.get .JOB_ARM_TIME)).2 = .ok) : Answers (.jobCtrlArm m false false src) s src 0x050044 .ok
      fun t => t.nextState = 3 ∧ t.get .JOB_STATUS_SW_MARK = m := by
  obtain ⟨hstate, hmark, -⟩ := State.armNext_armed ha
  refine ⟨_, ?_, hstate, hmark.trans (Nat.mod_eq_of_lt hm)⟩
  rw [exec_jobCtrlArm, execJobCtrlArm, if_neg (not_not_intro hd), State.ctrlArm_loaded hm hn ha]

theorem exec_setNext_answers (hd : s.roleOf src = .device) (h0 : 0 < v) (hv : v < 4) (hn : s.nextState ≠ 3) :
    Answers (.setNext v src) s src 0x050044 .ok fun t => t.nextState = v - 1 := by
  have hmod : v % 4 = v := Nat.mod_eq_of_lt hv
  have hset : s.ctrlSetNext v = (s.set .JOB_STATUS_NEXT_STATE 0 (v - 1), .ok) := by
    rw [State.ctrlSetNext, hmod, if_neg (Nat.ne_of_gt h0), if_neg hn]
  refine ⟨s.set .JOB_STATUS_NEXT_STATE 0 (v - 1), ?_, (State.get_set_same ..).trans (Nat.mod_eq_of_lt ?_)⟩
  · rw [exec_setNext, execSetNext, if_neg (not_not_intro hd), hset]
  · exact Nat.lt_of_le_of_lt (Nat.sub_le v 1) hv

end JobArming

/-! ### The start of a rolling test (05_pipeline_contexts.md R144, R145) -/

section RollStart
variable {s : State} {src : Src} {p : Nat} {a : Bool}

theorem effRollStart_barred (h : s.rollPipe.isSome = true ∨ s.rollable p = false ∨ s.inTest p = true) :
    effRollStart p a src s = s.answer src 0 .state := by
  rw [effRollStart]
  exact if_pos (by rcases h with h | h | h <;> simp [h])

section Free
variable (hp : s.rollPipe = none) (hr : s.rollable p = true) (ht : s.inTest p = false)
include hp hr ht

theorem effRollStart_admitted (ha : s.rollAdmit p = none) : effRollStart p a src s =
    ((s.set .PIPE_ROLL_CTRL_AUTO 0 a.toNat).set .PIPE_ROLL_CTRL_PIPE 0 p).rollBegin p := by
  simp [effRollStart, hp, hr, ht, ha]

theorem effRollStart_notAdmitted {r : Refuse} {n : Bool} (ha : s.rollAdmit p = some (r, n)) : effRollStart p a src s =
    ((s.rollRefused r n).emit (.reply src 0 (s.rollRefused r n).refuseRecord)).answer src 0 .range := by
  simp [effRollStart, hp, hr, ht, ha]

end Free

theorem State.rollBegin_auto (s : State) (p : Nat) :
    (s.rollBegin p).get .PIPE_ROLL_CTRL_AUTO = s.get .PIPE_ROLL_CTRL_AUTO := by
  unfold State.rollBegin
  simp only [List.foldl_cons, List.foldl_nil]
  rw [State.get_set_ne _ _ _ _ _ _ (by decide), State.get_set_ne _ _ _ _ _ _ (by decide),
    State.get_set_ne _ _ _ _ _ _ (by decide), State.get_set_ne _ _ _ _ _ _ (by decide),
    State.get_bump_ne _ _ _ _ _ _ (by decide)]

/-- A source that has the rights, and names a pipe, comes to the effect at once. -/
theorem exec_rollStart_runs (hm : s.mayAs src .operator = true) (hp : p < 8) :
    exec (.rollStart p a src) s = .next (s.completed src 0 (effRollStart p a src)) := by
  have hrights : ¬(!s.mayAs src .operator) = true := by rw [hm]; exact nofun
  rw [exec_rollStart, execRollStart, if_neg hrights, if_neg (Nat.not_le.mpr hp)]

theorem exec_rollStart_completes (hm : s.mayAs src .operator = true) (hp : p < 8) (hn : s.rollPipe = none)
    (hr : s.rollable p = true) (ht : s.inTest p = false) (ha : s.rollAdmit p = none) :
    Completes (.rollStart p a src) s fun t => t.get .PIPE_ROLL_STATUS_STATE = 1 ∧ t.get .PIPE_ROLL_STATUS_PIPE = p ∧
      t.get .PIPE_ROLL_CTRL_AUTO = a.toNat := by
  have heff := effRollStart_admitted (a := a) (src := src) hn hr ht ha
  refine ⟨_, exec_rollStart_runs hm hp, ?_, ?_, ?_⟩
  · rw [State.completed_get _ _ (by decide) (by decide), heff]
    exact (State.rollBegin_status hp).1
  · rw [State.completed_get _ _ (by decide) (by decide), heff]
    exact (State.rollBegin_status hp).2
  · rw [State.completed_get _ _ (by decide) (by decide), heff, State.rollBegin_auto,
      State.get_set_ne _ _ _ _ _ _ (by decide), State.get_set_same]
    exact Nat.mod_eq_of_lt (Bool.toNat_lt a)

end RollStart

end Sys2Proof.Machine

open Sys2Proof Sys2Proof.Machine

/-- Settles O33: arm, cancel and stop by what they leave of NEXT, the job registers, `JOB_CTRL`, and a rolling test that
begins or is refused. -/
theorem jobArmingCommandsComplete : Obligations.JobArmingCommandsComplete := by
  refine ⟨fun m src s => exec_jobArm_recorded,
    fun m im src u s hg hf => ⟨fun ha hu => ⟨effJobArm_of_armed hu, exec_jobArm_of_armed hg hf ha⟩,
      fun hu => ⟨effJobStop_of_armed hu, exec_jobStop_of_armed hg hf hu⟩⟩,
    fun src s => ⟨exec_jobCancel_recorded, fun hd => ⟨s.ctrlCancel, ?_, s.ctrlCancel_nextState⟩⟩,
    fun m src s => exec_jobStop_recorded, fun src s hg => ?_,
    fun m v src s hd => ⟨exec_jobCtrlArm_answers hd, exec_setNext_answers hd⟩,
    fun p a src s => exec_rollStart_completes,
    fun p a src s => ⟨fun hm => ?_, fun hm hp => ?_,
      fun hm hp h => ⟨exec_rollStart_runs hm hp, effRollStart_barred h⟩,
      fun r n hm hp hn hr ht ha => ⟨exec_rollStart_runs hm hp, effRollStart_notAdmitted hn hr ht ha⟩⟩⟩
  -- `JOB_CTRL.CANCEL`
  · exact if_neg (not_not_intro hd)
  -- the job registers
  · exact if_neg (not_not_intro hg)
  -- refusals of a rolling test
  · simp [execRollStart, hm]
  · simp [execRollStart, hm, hp]

end

section
/-! PROOFS. Dispatch and completion of stripes, the release of lines, and the copies to the stores (O20). -/

namespace Sys2Proof.Machine

/-! ### Cells of a pipe's page (05_pipeline_contexts.md R119, R120; 06_pixel_corrections.md R177, R178) -/

/-- The counters of a pipe's stages that its output rows add to (R540). -/
def rowCounters : List Fld := [.PIPE_STG_CNT_DPC_STATIC, .PIPE_STG_CNT_DPC_DYN, .PIPE_STG_CNT_MERGE_MISS,
  .PIPE_STG_CNT_COMP_CLIP, .PIPE_STG_CNT_LSC_CLIP, .PIPE_STG_CNT_DM_CLIP, .PIPE_STG_CNT_IRS_CLIP,
  .PIPE_STG_CNT_CCM_CLIP]

/-- The cells of a pipe's page that a stripe changes from its start to its end, beside the count of stripes. -/
def stripeCells : List Fld := rowCounters ++ [.PIPE_STG_CNT_TAP, .PIPE_STG_CNT_TAP_DROP, .PIPE_STG_CNT_FALLBACK,
  .PIPE_H_BUSY, .PIPE_CNT_BUSY, .PIPE_H_SLOT, .PIPE_H_STATE, .PIPE_STATUS_CTX, .PIPE_STATUS_STRIPE, .PIPE_STATUS_BANK]

/-- Every page but that of the pipes. -/
abbrev offPipePage : Nat := 2 ^ 128 - 1 - 2 ^ 32

/-- What stays off the pipes' page changes no cell there. -/
theorem Upd.get_pipePage {s t : State} {f : Fld} (h : Upd offPipePage (2 ^ 23 - 1) s t) (hp : f.page = 32) (i : Nat) :
    t.get f i = s.get f i := h.cells f i (by rw [hp]; decide)

section PipePage
variable (s : State) {f : Fld} (i p base : Nat) (fr : Frame) (ys : List Nat)
variable (hp : f.page = 32) (h : ∀ g ∈ stripeCells, g.id ≠ f.id)

theorem State.get_add_ne (g : Fld) (j n : Nat) (hg : g.id ≠ f.id) : (s.add g j n).get f i = s.get f i :=
  State.get_set_ne _ _ _ _ _ _ hg

include h in
theorem State.countRows_get : (s.countRows base p fr ys).get f i = s.get f i := by
  refine State.foldl_get _ _ _ _ _ fun t y => ?_
  refine List.foldlRecOn (motive := fun u : State => u.get f i = t.get f i) _ _ rfl fun u hu q hq => ?_
  have hmem : q.1 ∈ stripeCells := List.mem_append_left _ (List.of_mem_zip (a := q.1) (b := q.2) hq).1
  exact (State.get_add_ne _ _ _ _ _ (h _ hmem)).trans hu

include h in
theorem State.busy_get (n : Nat) : (s.busy p n).get f i = s.get f i := by
  rw [State.busy, State.get_add_ne _ _ _ _ _ (h _ (by decide)), State.get_set_ne _ _ _ _ _ _ (h _ (by decide))]

include hp in
theorem State.blockWrite_get_pipePage (a : Nat) (l : List Nat) : (s.blockWrite a l).get f i = s.get f i :=
  (State.blockWrite_upd s a l (by decide) (Upd.refl s)).get_pipePage hp i

include hp h in
theorem State.tapAbandon_get : (s.tapAbandon base p fr).get f i = s.get f i := by
  unfold State.tapAbandon
  split
  · extract_lets s1 pipe s2
    have h2 : s2.get f i = s.get f i := State.get_inc_ne _ _ _ _ _ (h _ (by decide))
    split
    · exact ((State.drop_upd s2 _ _ _ _ _ _ _ _ _ (by decide) (Upd.refl s2)).get_pipePage hp i).trans h2
    · exact h2
  · rfl

include hp h in
theorem State.tapRowsOut_get : (s.tapRowsOut base p fr ys).get f i = s.get f i := by
  unfold State.tapRowsOut
  split
  · extract_lets
    split
    · exact State.tapAbandon_get _ _ _ _ _ hp h
    · split
      · exact State.foldl_get _ _ _ _ _ fun t l => State.blockWrite_get_pipePage _ _ hp _ _
      · rfl
  · rfl

include hp h in
theorem State.tapEnd_get : (s.tapEnd base p fr).get f i = s.get f i := by
  unfold State.tapEnd
  split
  · extract_lets es s1
    have h1 : s1.get f i = s.get f i := State.get_add_ne _ _ _ _ _ (h _ (by decide))
    split
    · exact (State.foldl_get _ _ _ _ _ fun t e => State.blockWrite_get_pipePage _ _ hp _ _).trans h1
    · exact (State.get_with_pipe s1 _ f i).trans h1
  · rfl

include hp h in
/-- The end of a frame in the pipes completes its tap record, and leaves the rest of the pipe's page. -/
theorem State.finishFrame_get (c seq : Nat) : (s.finishFrame c seq p).get f i = s.get f i := by
  unfold State.finishFrame
  split
  · rfl
  split
  · rfl
  extract_lets s1 s2 s3 s4 s5
  have h1 : s1.get f i = s.get f i := State.tapEnd_get _ _ _ _ _ hp h
  have h3 : s3.get f i = s2.get f i := (State.unbind_upd _ _ _ (by decide) (Upd.refl _)).get_pipePage hp i
  have h4 : s4.get f i = s3.get f i := (State.framePiped_upd s3 _ (by decide) (Upd.refl s3)).get_pipePage hp i
  have h5 : s5.get f i = s.get f i := h4.trans (h3.trans h1)
  split
  · exact ((State.relevel_upd s5 _ (by decide) (Upd.refl s5)).get_pipePage hp i).trans h5
  · exact ((State.playFrameDone_upd s5 _ (by decide) (Upd.refl s5)).get_pipePage hp i).trans h5

include h in
theorem State.turnSlot_get (x b : Nat) : (s.turnSlot p x b).get f i = s.get f i := by
  unfold State.turnSlot
  extract_lets s1
  rw [State.get_set_ne _ _ _ _ _ _ (h _ (by decide))]
  unfold s1
  split <;> rfl

end PipePage

/-! ### The start of a stripe (R119, R120, R139) -/

section Start
variable {s : State} {p : Nat} {r : StripeRef} {f : Frame}

/-- Pipe `p` runs a stripe, and its status shows it. -/
def State.runStripe (s : State) (p : Nat) (r : StripeRef) : State :=
  (((({ s with pipe := { s.pipe with running := tabPut s.pipe.running p r } } : State).set .PIPE_H_STATE p 1).set
    .PIPE_STATUS_CTX p r.ch).set .PIPE_STATUS_STRIPE p r.k).set .PIPE_STATUS_BANK p r.bank

/-- What comes before leaves the count of stripes, and all of the pipe's page that a stripe does not change. -/
theorem State.startStripe_runs (hf : s.frame? r.ch r.seq = some f) : ∃ u : State, s.startStripe p r = u.runStripe p r ∧
    ∀ g i, g.page = 32 → (∀ c ∈ stripeCells, c.id ≠ g.id) → u.get g i = s.get g i := by
  unfold State.startStripe
  split
  · next hn => exact absurd (hn.symm.trans hf) nofun
  extract_lets base late s1 q s2 s3 s4 s5 pipe s6
  refine ⟨s5, rfl, fun g i hp h => ?_⟩
  have h1 : s1.get g i = s.get g i := by
    unfold s1
    split
    · exact (State.tapBegin_upd s _ _ (by decide) (Upd.refl s)).get_pipePage hp i
    · rfl
  have hcopy : (s1.stopCopy r).get g i = s1.get g i := (State.stopCopy_upd s1 r (by decide) (Upd.refl s1)).get_pipePage hp i
  have h2 : s2.get g i = s1.get g i := by
    unfold s2
    rw [State.turnSlot_get _ _ _ h, (State.fetchLines_upd _ _ _ _ _ (by decide) (Upd.refl _)).get_pipePage hp i, hcopy]
  have h3 : s3.get g i = s2.get g i := State.get_with_frames s2 _ g i
  have h4 : s4.get g i = s3.get g i := by
    unfold s4
    split
    · exact (State.delayFrame_upd s3 r (by decide) (Upd.refl s3)).get_pipePage hp i
    · rfl
  have h5 : s5.get g i = s4.get g i := by
    unfold s5
    split
    · exact State.get_inc_ne _ _ _ _ _ (h _ (by decide))
    · rfl
  rw [h5, h4, h3, h2, h1]

theorem State.runStripe_status (s : State) (p : Nat) (r : StripeRef) : (s.runStripe p r).get .PIPE_H_STATE p = 1 ∧
    (s.runStripe p r).get .PIPE_STATUS_CTX p = r.ch % 256 ∧ (s.runStripe p r).get .PIPE_STATUS_STRIPE p = r.k % 256 ∧
      (s.runStripe p r).get .PIPE_STATUS_BANK p = r.bank % 2 := by
  unfold State.runStripe
  refine ⟨?_, ?_, ?_, State.get_set_same ..⟩
  · rw [State.get_set_ne _ _ _ _ _ _ (by decide), State.get_set_ne _ _ _ _ _ _ (by decide),
      State.get_set_ne _ _ _ _ _ _ (by decide)]
    exact State.get_set_same ..
  · rw [State.get_set_ne _ _ _ _ _ _ (by decide), State.get_set_ne _ _ _ _ _ _ (by decide)]
    exact State.get_set_same ..
  · rw [State.get_set_ne _ _ _ _ _ _ (by decide)]
    exact State.get_set_same ..

theorem State.runStripe_get {g : Fld} (i : Nat) (h : ∀ c ∈ stripeCells, c.id ≠ g.id) :
    (s.runStripe p r).get g i = s.get g i := by
  rw [State.runStripe, State.get_set_ne _ _ _ _ _ _ (h _ (by decide)), State.get_set_ne _ _ _ _ _ _ (h _ (by decide)),
    State.get_set_ne _ _ _ _ _ _ (h _ (by decide)), State.get_set_ne _ _ _ _ _ _ (h _ (by decide)), State.get_with_pipe]

theorem State.startStripe_get {g : Fld} (i : Nat) (hp : g.page = 32) (h : ∀ c ∈ stripeCells, c.id ≠ g.id) :
    (s.startStripe p r).get g i = s.get g i := by
  cases hf : s.frame? r.ch r.seq with
  | none => rw [State.startStripe, hf]
  | some f =>
    obtain ⟨u, hu, hkeep⟩ := State.startStripe_runs (p := p) hf
    rw [hu, State.runStripe_get i h, hkeep g i hp h]

theorem State.pipeAdvance_get {g : Fld} (i : Nat) (hp : g.page = 32) (h : ∀ c ∈ stripeCells, c.id ≠ g.id) :
    (s.pipeAdvance p).get g i = s.get g i := by
  unfold State.pipeAdvance
  extract_lets s1
  split
  · exact State.startStripe_get i hp h
  · exact State.get_set_ne _ _ _ _ _ _ (h _ (by decide))

end Start

/-! ### Dispatch (R134, R135) -/

section Dispatch
variable {s : State} {p a b : Nat} {r : StripeRef}

theorem exec_stripeDispatch_idle (h : s.noteEligible.takesWork p = false ∨ s.noteEligible.choose p = none) :
    exec (.stripeDispatch p) s = .next s.noteEligible := by
  rcases h with h | h <;> simp [execStripeDispatch, h]

section Chosen
variable (ht : s.noteEligible.takesWork p = true) (hc : s.noteEligible.choose p = some (a, b, r))
include ht hc

/-- The choice of an idle pipe starts at once on the pipe of R135. -/
theorem exec_stripeDispatch_starts {q : Nat} (h0 : s.noteEligible.get .PIPE_H_STATE p = 0)
    (hq : s.noteEligible.pickPipe r = some q) (hf : s.noteEligible.frame? r.ch r.seq ≠ none) :
    Completes (.stripeDispatch p) s fun t => t = s.noteEligible.startStripe q r ∧ t.get .PIPE_H_STATE q = 1 ∧
      t.get .PIPE_STATUS_CTX q = r.ch % 256 ∧ t.get .PIPE_STATUS_STRIPE q = r.k % 256 ∧
      t.get .PIPE_STATUS_BANK q = r.bank % 2 ∧ tabGet t.pipe.running q r = r := by
  obtain ⟨f, hf⟩ := Option.ne_none_iff_exists'.mp hf
  obtain ⟨u, hu, -⟩ := State.startStripe_runs (p := q) hf
  obtain ⟨hstate, hctx, hstripe, hbank⟩ := u.runStripe_status q r
  refine ⟨_, by simp only [exec_stripeDispatch, execStripeDispatch, ht, hc, h0, hq]; rfl, rfl, ?_⟩
  rw [hu]
  exact ⟨hstate, hctx, hstripe, hbank, tabGet_put_same ..⟩

/-- That of a running pipe goes to its other slot. -/
theorem exec_stripeDispatch_assigns (h0 : s.noteEligible.get .PIPE_H_STATE p ≠ 0)
    (hn : (s.noteEligible.pipe.next.any fun q => q.1 == p) = false) :
    Completes (.stripeDispatch p) s fun t => (∀ d, tabGet t.pipe.next p d = r) ∧
      ∀ d, tabGet t.pipe.slot (2 * p + (1 - s.get .PIPE_H_SLOT p)) d = (r.ch, r.bank) :=
  ⟨_, by simp only [exec_stripeDispatch, execStripeDispatch, ht, hc, h0, hn]; rfl,
    fun _ => tabGet_put_same .., fun _ => tabGet_put_same ..⟩

theorem exec_stripeDispatch_full (h0 : s.noteEligible.get .PIPE_H_STATE p ≠ 0)
    (hn : (s.noteEligible.pipe.next.any fun q => q.1 == p) = true) :
    exec (.stripeDispatch p) s = .next s.noteEligible := by
  simp [execStripeDispatch, ht, hc, h0, hn]

end Chosen
end Dispatch

/-! ### Completion of a stripe (R125, R140, R540) -/

section Complete
variable {s : State} {p : Nat} {r : StripeRef} {f : Frame}

/-- The rows of stripe `r` leave the pipe, and it is counted. -/
def State.stripeLeaves (s : State) (p : Nat) (r : StripeRef) (f : Frame) : State :=
  let base := bankBase r.ch r.bank
  let sl := s.bankLines r.ch r.bank
  let o := stripeOut f.height sl (s.radius r.ch r.bank) (stripeCount f.height sl) r.k
  let i := stripeIn f.height sl (s.radius r.ch r.bank) r.k
  let ys := (List.range (o.2 - o.1)).map (o.1 + ·)
  ((((s.countRows base p f ys).rowsOut base f ys false).tapRowsOut base p f ys).inc .PIPE_CNT_STRIPES p).busy p
    (stripeCost f.exps (i.2 - i.1) f.width)

/-- What was held for it is given up: its place in a store, and the lines `frees`. -/
def State.stripeGivesUp (s : State) (r : StripeRef) (frees : List Nat) : State :=
  ((s.onFrame r.ch r.seq fun f => { f with work := { f.work with done := f.work.done ++ [r.k] } }).freeHolds
    fun q => q == r).releaseLines r.ch r.seq frees

/-- The last stripe of a frame ends the frame in the pipes. -/
def State.endsFrame (s : State) (p : Nat) (r : StripeRef) : State :=
  match s.frame? r.ch r.seq with
  | some g => if s.allDone g r.bank then s.finishFrame r.ch r.seq p else s
  | none => s

theorem exec_stripeComplete_of_frame (hr : s.pipe.running.find? (fun q => q.1 == p) = some (p, r))
    (hf : s.frame? r.ch r.seq = some f) : exec (.stripeComplete p) s =
      .next ((((s.stripeLeaves p r f).stripeGivesUp r (s.stripeFrees f r.bank r.k)).endsFrame p r).pipeAdvance p) := by
  rw [exec_stripeComplete, execStripeComplete, hr]
  dsimp only
  rw [hf]
  rfl

theorem State.stripeLeaves_count (s : State) (p : Nat) (r : StripeRef) (f : Frame) :
    (s.stripeLeaves p r f).get .PIPE_CNT_STRIPES p = min (s.get .PIPE_CNT_STRIPES p + 1) (2 ^ 32 - 1) := by
  unfold State.stripeLeaves
  extract_lets base sl o i ys
  rw [State.busy_get _ _ _ (by decide), State.get_inc_same, State.tapRowsOut_get _ _ _ _ _ _ (by decide) (by decide),
    (State.rowsOut_upd _ _ _ _ _ (by decide) (Upd.refl _)).get_pipePage (by decide),
    State.countRows_get _ _ _ _ _ _ (by decide)]
  rfl

theorem State.stripeGivesUp_get (s : State) (r : StripeRef) (l : List Nat) {g : Fld} (i : Nat) (hp : g.page = 32) :
    (s.stripeGivesUp r l).get g i = s.get g i :=
  (State.releaseLines_upd _ _ _ _ (by decide) (Upd.refl _)).get_pipePage hp i

theorem State.endsFrame_get {g : Fld} (i : Nat) (hp : g.page = 32) (h : ∀ c ∈ stripeCells, c.id ≠ g.id) :
    (s.endsFrame p r).get g i = s.get g i := by
  unfold State.endsFrame
  split
  · split
    · exact State.finishFrame_get _ _ _ hp h _ _
    · rfl
  · rfl

theorem exec_stripeComplete_counts (hr : s.pipe.running.find? (fun q => q.1 == p) = some (p, r))
    (hf : s.frame? r.ch r.seq ≠ none) : Completes (.stripeComplete p) s fun t =>
      t.get .PIPE_CNT_STRIPES p = min (s.get .PIPE_CNT_STRIPES p + 1) (2 ^ 32 - 1) := by
  obtain ⟨f, hf⟩ := Option.ne_none_iff_exists'.mp hf
  refine ⟨_, exec_stripeComplete_of_frame hr hf, ?_⟩
  dsimp only
  rw [State.pipeAdvance_get _ (by decide) (by decide), State.endsFrame_get _ (by decide) (by decide),
    State.stripeGivesUp_get _ _ _ _ (by decide), State.stripeLeaves_count]

end Complete

/-! ### Frames and lines -/

section Lines
variable {s : State} {c seq : Nat} {g : Frame → Frame}

/-- A frame named by source and sequence has been changed by `onFrame`. -/
theorem State.mem_onFrame {f : Frame} (hf : f ∈ (s.onFrame c seq g).frames) (hg : ∀ x, (g x).ch = x.ch ∧ (g x).tag = x.tag)
    (hc : f.ch = c) (hs : f.tag.seq = seq) : ∃ x, f = g x := by
  obtain ⟨x, -, hx⟩ := List.mem_map.mp hf
  obtain ⟨hch, htag⟩ := hg x
  by_cases hm : (x.ch == c && x.tag.seq == seq) = true
  · exact ⟨x, ((if_pos hm).symm.trans hx).symm⟩
  · have hx' : x = f := (if_neg hm).symm.trans hx
    subst hx'
    exact absurd (by simp [hc, hs]) hm

theorem State.relevel_frames (s : State) (n : Nat) : (s.relevel n).frames = s.frames :=
  (State.relevel_upd s n (W := 0x1100001) (P := 0x100002) (by decide) (Upd.refl s)).parts.frames (by decide)

theorem State.noteFrame_lines (s : State) (f : Frame) : (s.noteFrame f).lines = f.lines := by
  unfold State.noteFrame
  split
  · rfl
  · split <;> rfl

end Lines

/-! ### Release of an input line (R125) -/

section Release
variable {s : State} {n y : Nat} {r : StripeRef} {f : Frame}

/-- Line `y` of the last exposure leaves the queue. -/
def Frame.unqueue (f : Frame) (y : Nat) : Frame :=
  { f with lines := f.lines.map fun l =>
    if l.no == y && l.exp + 1 == f.exps && l.home == .queue then { l with home := .released, words := 0 } else l }

theorem Frame.unqueue_home {l : Line} (hl : l ∈ (f.unqueue y).lines) (hy : l.no = y) (he : l.exp + 1 = f.exps) :
    l.home ≠ .queue := by
  obtain ⟨x, -, hx⟩ := List.mem_map.mp hl
  by_cases hm : (x.no == y && x.exp + 1 == f.exps && x.home == .queue) = true
  · rw [if_pos hm] at hx
    subst hx
    exact nofun
  · rw [if_neg hm] at hx
    subst hx
    exact fun hq => hm (by simp [hy, he, hq])

/-- A reader of stripe `r` releases line `y`, by `g`: nothing happens where the frame is gone or a replay's, or where the
line stays. -/
def State.releaseBy (s : State) (r : StripeRef) (y : Nat) (g : State → State) : State :=
  match s.frame? r.ch r.seq with
  | none => s
  | some f => if (s.stripeFrees f r.bank r.k).contains y && decide (r.ch < 128) then (g s).relevel (r.ch / 4) else s

theorem exec_inputLineRelease_pipe (hr : s.pipe.running.find? (fun q => q.1 == n) = some (n, r)) :
    exec (.inputLineRelease (.pipe n) y) s =
      .next (s.releaseBy r y fun s => s.onFrame r.ch r.seq fun f => f.unqueue y) := by
  rw [exec_inputLineRelease, execInputLineRelease]
  dsimp only
  rw [hr]
  rfl

theorem exec_inputLineRelease_copy {c : CopyJob} (hc : s.pipe.copies.find? (fun q => q.1 == n) = some (n, c)) :
    exec (.inputLineRelease (.copy n) y) s =
      .next (s.releaseBy c.stripe y fun s => s.copyLine c.stripe c.spill y) := by
  rw [exec_inputLineRelease, execInputLineRelease]
  dsimp only
  rw [hc]
  rfl

theorem State.releaseBy_frees {g : State → State} (hf : s.frame? r.ch r.seq = some f)
    (hy : (s.stripeFrees f r.bank r.k).contains y = true) (hc : r.ch < 128) :
    s.releaseBy r y g = (g s).relevel (r.ch / 4) := by
  rw [State.releaseBy, hf]
  exact if_pos (by rw [hy, decide_eq_true hc]; rfl)

theorem State.releaseBy_keeps {g : State → State} (h : s.frame? r.ch r.seq = none ∨
    ∀ f, s.frame? r.ch r.seq = some f → (s.stripeFrees f r.bank r.k).contains y = false ∨ 128 ≤ r.ch) :
    s.releaseBy r y g = s := by
  unfold State.releaseBy
  split
  · rfl
  · next f hf =>
    refine if_neg ?_
    rcases h with h | h
    · exact absurd (h.symm.trans hf) nofun
    · rcases h f hf with hy | hc
      · rw [hy]; exact nofun
      · rw [decide_eq_false (Nat.not_lt.mpr hc), Bool.and_false]; exact nofun

theorem exec_inputLineRelease_releases (hr : s.pipe.running.find? (fun q => q.1 == n) = some (n, r))
    (hf : s.frame? r.ch r.seq = some f) (hy : (s.stripeFrees f r.bank r.k).contains y = true) (hc : r.ch < 128) :
    Completes (.inputLineRelease (.pipe n) y) s fun t => ∀ g ∈ t.frames, g.ch = r.ch → g.tag.seq = r.seq →
      ∀ l ∈ g.lines, l.no = y → l.exp + 1 = g.exps → l.home ≠ .queue := by
  refine ⟨_, exec_inputLineRelease_pipe hr, fun g hg hch hseq l hl hno hexp => ?_⟩
  rw [State.releaseBy_frees hf hy hc, State.relevel_frames] at hg
  obtain ⟨x, rfl⟩ := State.mem_onFrame hg (fun _ => ⟨rfl, rfl⟩) hch hseq
  exact Frame.unqueue_home hl hno hexp

end Release

/-! ### Lines of an earlier exposure (R129) -/

section Stored
variable {s : State} {c e y : Nat} {g : Frame}

/-- A frame whose line `y` of exposure `e` is to be stored. -/
def Frame.storeDue (f : Frame) (c e y : Nat) : Bool :=
  f.ch == c && f.work.bank.isSome && !f.work.classic && decide (e + 1 < f.exps) &&
    f.lines.any fun l => l.exp == e && l.no == y && l.home == .queue

/-- Line `l` of a frame lies at `home`, in the stretches `ext`. -/
def Frame.settle (f : Frame) (l : Line) (home : Home) (ext : List (Nat × Nat)) : Frame :=
  { f with lines := f.lines.map fun x =>
    if x.exp == l.exp && x.no == l.no then { x with home := home, words := 0, data := [], addr := ext } else x }

theorem Frame.settle_home {f : Frame} {l x : Line} {home : Home} {ext : List (Nat × Nat)}
    (hx : x ∈ (f.settle l home ext).lines) (he : x.exp = l.exp) (hn : x.no = l.no) : x.home = home := by
  obtain ⟨z, -, hz⟩ := List.mem_map.mp hx
  by_cases hm : (z.exp == l.exp && z.no == l.no) = true
  · rw [if_pos hm] at hz
    subst hz
    rfl
  · rw [if_neg hm] at hz
    subst hz
    exact absurd (by simp [he, hn]) hm

/-- A frame after a line of it has gone to memory has that line settled there. -/
theorem State.mem_lineToMem {f h : Frame} {l : Line} {home : Home} {ext : List (Nat × Nat)}
    (hh : h ∈ (s.lineToMem f l home ext).frames) (hc : h.ch = f.ch) (hs : h.tag.seq = f.tag.seq) :
    ∃ (x : Frame) (a : List (Nat × Nat)), h = x.settle l home a := by
  obtain ⟨x, hx⟩ := State.mem_onFrame hh (fun _ => ⟨rfl, rfl⟩) hc hs
  exact ⟨x, _, hx⟩

theorem Frame.storeDue_ch (h : g.storeDue c e y = true) : g.ch = c := by
  simp only [Frame.storeDue, Bool.and_eq_true, beq_iff_eq] at h
  obtain ⟨⟨⟨⟨hc, -⟩, -⟩, -⟩, -⟩ := h
  exact hc

/-- The line to be stored is the frame's line of that exposure and number. -/
theorem Frame.line?_of_storeDue (h : g.storeDue c e y = true) : ∃ l, g.line? e y = some l ∧ l.exp = e ∧ l.no = y := by
  obtain ⟨x, hx, hm⟩ := List.any_eq_true.mp (Bool.and_eq_true_iff.mp h).2
  cases hl : g.line? e y with
  | none => exact absurd (Bool.and_eq_true_iff.mp hm).1 (List.find?_eq_none.mp hl x hx)
  | some l =>
    have hlm : (l.exp == e && l.no == y) = true :=
      List.find?_some (p := fun l : Line => l.exp == e && l.no == y) hl
    rw [Bool.and_eq_true, beq_iff_eq, beq_iff_eq] at hlm
    exact ⟨l, rfl, hlm⟩

theorem exec_exposureLineStored_of_due {l : Line} (hg : s.frames.find? (fun f => f.storeDue c e y) = some g)
    (hl : g.line? e y = some l) : exec (.exposureLineStored c e y) s =
      .next (((s.lineToMem g l .store (subExt ((e * g.height + y) * g.lineStride) g.lineStride g.work.blocks)).relevel
        (c / 4)).noteEligible) := by
  unfold Frame.storeDue at hg
  rw [exec_exposureLineStored, execExposureLineStored]
  dsimp only
  rw [hg]
  dsimp only
  rw [hl]

theorem exec_exposureLineStored_stores (hg : s.frames.find? (fun f => f.storeDue c e y) = some g) :
    Completes (.exposureLineStored c e y) s fun t => ∀ f ∈ t.frames, f.ch = c → f.tag.seq = g.tag.seq →
      ∀ l ∈ f.lines, l.exp = e → l.no = y → l.home = .store := by
  have hdue : g.storeDue c e y = true := List.find?_some (p := fun f : Frame => f.storeDue c e y) hg
  obtain ⟨l, hl, he, hn⟩ := Frame.line?_of_storeDue hdue
  refine ⟨_, exec_exposureLineStored_of_due hg hl, fun f hf hc hs k hk hke hkn => ?_⟩
  obtain ⟨h, hh, rfl⟩ := List.mem_map.mp hf
  obtain ⟨hnch, hntag, -⟩ := State.noteFrame_spec (State.relevel _ (c / 4)) h
  rw [State.relevel_frames] at hh
  obtain ⟨x, a, rfl⟩ := State.mem_lineToMem hh ((hnch.symm.trans hc).trans (Frame.storeDue_ch hdue).symm)
    ((congrArg Tag.seq hntag).symm.trans hs)
  rw [State.noteFrame_lines] at hk
  exact Frame.settle_home hk (hke.trans he.symm) (hkn.trans hn.symm)

theorem exec_exposureLineStored_none (hg : s.frames.find? (fun f => f.storeDue c e y) = none) :
    exec (.exposureLineStored c e y) s = .next s := by
  unfold Frame.storeDue at hg
  rw [exec_exposureLineStored, execExposureLineStored]
  dsimp only
  rw [hg]

end Stored

/-! ### Copies to the holding store and the spill region (R137, R138, R141) -/

section Hold
variable {s : State} {lane a b : Nat} {r : StripeRef}

theorem exec_holdCopy_idle (h : s.noteEligible.get .ING_QUEUE_LEVEL_LEVEL lane < s.noteEligible.get .PIPE_SCH_CFG_HOLD_WM ∨
    (s.noteEligible.pipe.copies.any fun c => c.1 == lane) = true ∨ firstStripe (s.noteEligible.holdable lane) = none) :
    exec (.holdCopy lane) s = .next s.noteEligible := by
  rcases h with h | h | h <;> simp [execHoldCopy, h]

/-- A frame of the lane is refused for want of room. -/
def State.refuseForRoom (s : State) (lane : Nat) (f : Frame) : State :=
  (((s.inc .PIPE_CNT_REFUSED).schEvent 2 f.tag.seq f.ch 0).refuseFrame f 1 (s.frameStreams f)).relevel lane

/-- What becomes of the first stripe of a lane that must copy one. -/
def State.holdStripe (s : State) (lane : Nat) (r : StripeRef) : State :=
  if s.storeBytesUsed false + s.stripeBytes r ≤ 12 * 2 ^ 20 then (s.beginCopy lane r false).inc .PIPE_CNT_HELD
  else if s.bankSpill r.ch r.bank &&
      decide (s.storeBytesUsed true + s.stripeBytes r ≤ s.get .PIPE_SPILL_SIZE_SIZE_MIB * 2 ^ 20) then
    (((s.beginCopy lane r true).inc .PIPE_CNT_SPILL).schEvent 0 r.seq r.ch r.k).delayFrame r
  else match s.victim lane with
    | none => s
    | some f => s.refuseForRoom lane f

theorem exec_holdCopy_due (hw : s.noteEligible.get .PIPE_SCH_CFG_HOLD_WM ≤ s.noteEligible.get .ING_QUEUE_LEVEL_LEVEL lane)
    (hc : (s.noteEligible.pipe.copies.any fun c => c.1 == lane) = false)
    (hr : firstStripe (s.noteEligible.holdable lane) = some (a, b, r)) :
    exec (.holdCopy lane) s = .next (s.noteEligible.holdStripe lane r) := by
  have hdue : ¬(decide (s.noteEligible.get .ING_QUEUE_LEVEL_LEVEL lane < s.noteEligible.get .PIPE_SCH_CFG_HOLD_WM) ||
      s.noteEligible.pipe.copies.any fun c => c.1 == lane) = true := by simp [hc, hw]
  rw [exec_holdCopy, execHoldCopy]
  refine (if_neg hdue).trans ?_
  rw [hr]
  unfold State.holdStripe
  dsimp only
  split
  · rfl
  · split
    · rfl
    · cases s.noteEligible.victim lane <;> rfl

theorem State.holdStripe_room {s : State} (h : s.storeBytesUsed false + s.stripeBytes r ≤ 12 * 2 ^ 20) :
    s.holdStripe lane r = (s.beginCopy lane r false).inc .PIPE_CNT_HELD := if_pos h

section Full
variable {s : State} (h : 12 * 2 ^ 20 < s.storeBytesUsed false + s.stripeBytes r)
include h

theorem State.holdStripe_spill (hs : (s.bankSpill r.ch r.bank &&
    decide (s.storeBytesUsed true + s.stripeBytes r ≤ s.get .PIPE_SPILL_SIZE_SIZE_MIB * 2 ^ 20)) = true) :
    s.holdStripe lane r = (((s.beginCopy lane r true).inc .PIPE_CNT_SPILL).schEvent 0 r.seq r.ch r.k).delayFrame r :=
  (if_neg (Nat.not_le.mpr h)).trans (if_pos hs)

section NoRoom
variable (hs : (s.bankSpill r.ch r.bank &&
  decide (s.storeBytesUsed true + s.stripeBytes r ≤ s.get .PIPE_SPILL_SIZE_SIZE_MIB * 2 ^ 20)) = false)
include hs

theorem State.holdStripe_keeps (hv : s.victim lane = none) : s.holdStripe lane r = s := by
  rw [State.holdStripe, if_neg (Nat.not_le.mpr h), if_neg (ne_true_of_eq_false hs), hv]

theorem State.holdStripe_refuses {f : Frame} (hv : s.victim lane = some f) :
    s.holdStripe lane r = s.refuseForRoom lane f := by
  rw [State.holdStripe, if_neg (Nat.not_le.mpr h), if_neg (ne_true_of_eq_false hs), hv]

end NoRoom

end Full

theorem State.beginCopy_copies (s : State) (lane : Nat) (r : StripeRef) (spill : Bool) (d : CopyJob) :
    tabGet (s.beginCopy lane r spill).pipe.copies lane d = ⟨r, spill, s.elapsed⟩ := tabGet_put_same ..

/-! ### The end of a copy -/

theorem State.moveLines_pipe (s : State) (r : StripeRef) (n : Nat) (spill : Bool) :
    (s.moveLines r n spill).pipe = s.pipe :=
  (State.moveLines_upd s r n spill (W := 0x100000000000001100001) (P := 0x50000b) (by decide) (Upd.refl s)).parts.pipe
    (by decide)

/-- The copy on a lane has ended. -/
def State.endCopy (s : State) (lane : Nat) : State := { s with pipe := { s.pipe with copies := tabErase s.pipe.copies lane } }

theorem State.copyDone_of_copy {spill : Bool} {c : CopyJob}
    (h : s.pipe.copies.find? (fun c => c.1 == lane && c.2.spill == spill) = some (lane, c)) :
    s.copyDone lane spill = (s.endCopy lane).moveLines c.stripe 65536 spill := by
  rw [State.copyDone, h]; rfl

theorem State.copyDone_of_none {spill : Bool}
    (h : s.pipe.copies.find? (fun c => c.1 == lane && c.2.spill == spill) = none) : s.copyDone lane spill = s := by
  rw [State.copyDone, h]

theorem State.copyDone_copies {spill : Bool} {c : CopyJob}
    (h : s.pipe.copies.find? (fun c => c.1 == lane && c.2.spill == spill) = some (lane, c)) :
    (s.copyDone lane spill).pipe.copies = tabErase s.pipe.copies lane := by
  rw [State.copyDone_of_copy h, State.moveLines_pipe]; rfl

end Hold

end Sys2Proof.Machine

open Sys2Proof Sys2Proof.Machine

/-- Settles O20: dispatch by the state of the pipe, the end of a stripe, the two readers that release lines, the lines of
earlier exposures, and copies from their start to their end. -/
theorem stripeCommandsComplete : Obligations.StripeCommandsComplete := by
  refine ⟨fun p s => ⟨exec_stripeDispatch_idle, fun a b r ht hc => ⟨fun q => exec_stripeDispatch_starts ht hc,
      exec_stripeDispatch_assigns ht hc, exec_stripeDispatch_full ht hc⟩⟩,
    fun p r s => ⟨fun hr => ⟨exec_stripeComplete_counts hr, fun hf => ?_⟩, fun hr => ?_⟩,
    fun p y r f s => exec_inputLineRelease_releases,
    fun lane y c f s hr hf hy hc => ?_,
    fun n y s => ⟨fun hr => ?_, fun hc => ?_, fun st h => ⟨fun hr => ?_, ?_⟩⟩,
    fun c e y g s => ⟨exec_exposureLineStored_stores, exec_exposureLineStored_none⟩,
    fun lane a b r s => ⟨exec_holdCopy_idle, fun hw hc hr => ⟨fun hroom => ⟨_, exec_holdCopy_due hw hc hr, ?_, ?_⟩,
      fun hfull => ⟨fun hs => ?_, fun hs hv => ?_, fun f hs hv => ?_⟩⟩⟩,
    fun lane c s => ⟨fun h => ⟨_, rfl, State.copyDone_copies h, State.copyDone_of_copy h⟩,
      fun h => ⟨_, rfl, State.copyDone_copies h, State.copyDone_of_copy h⟩,
      fun h => congrArg _ (State.copyDone_of_none h), fun h => congrArg _ (State.copyDone_of_none h)⟩⟩
  -- a stripe whose frame is gone, and no stripe
  · simp [execStripeComplete, hr, hf]
  · simp [execStripeComplete, hr]
  -- a line that a copy gives up
  · rw [exec_inputLineRelease_copy hr, State.releaseBy_frees hf hy hc]
  -- nothing to read, and lines that stay
  · simp [execInputLineRelease, hr]
  · simp [execInputLineRelease, hc]
  · rw [exec_inputLineRelease_pipe hr, State.releaseBy_keeps h]
  · rintro c hr rfl
    rw [exec_inputLineRelease_copy hr, State.releaseBy_keeps h]
  -- a copy to the holding store
  · rw [State.holdStripe_room hroom]
    exact State.beginCopy_copies _ _ _ _
  · rw [State.holdStripe_room hroom]
    exact State.get_inc_same ..
  -- one to the spill region, and no room for either
  · rw [exec_holdCopy_due hw hc hr, State.holdStripe_spill hfull hs]
  · rw [exec_holdCopy_due hw hc hr, State.holdStripe_keeps hfull hs hv]
  · rw [exec_holdCopy_due hw hc hr, State.holdStripe_refuses hfull hs hv, State.refuseForRoom]

end

section
/-! PROOFS. The rounding of a plane as it leaves the pipe (O8). -/

namespace Sys2Proof.Machine

theorem outValue_eq_shiftRight (v : Nat) : outValue v = min ((v + 8) >>> 4) 65535 := by
  rw [outValue, Nat.shiftRight_eq_div_pow]

/-- Below 1,048,568 the rounded quotient is at most 65,535, so the clamp does nothing. -/
theorem outValue_of_lt {v : Nat} (h : v < 1048568) : outValue v = (v + 8) / 16 :=
  Nat.min_eq_left (by omega)

/-- From 1,048,568 on the rounded quotient is at least 65,536, so the clamp acts. -/
theorem outValue_of_le {v : Nat} (h : 1048568 ≤ v) : outValue v = 65535 :=
  Nat.min_eq_right (by omega)

end Sys2Proof.Machine

open Sys2Proof Sys2Proof.Machine

/-- Settles O8: the shift is the division by 16; below the clamp the error is that of rounding to the nearest, and from
1,048,568 on it is the distance of a 20-bit value from 16 · 65,535. -/
theorem planeOutputRounds : Obligations.PlaneOutputRounds := by
  refine fun v hv => ⟨outValue_eq_shiftRight v, fun hlow => ?_, fun htop => ?_⟩
  · rw [outValue_of_lt hlow]
    omega
  · rw [outValue_of_le htop]
    omega

end

section
/-! PROOFS. The seams between devices: a packet sent, a packet received, and the end of a wait (O45). -/

namespace Sys2Proof.Machine

/-! ### What a tile line leaves of the merger's page (07_blanket_merger.md R192, R197) -/

section Line
variable (s : State) {f : Fld} (i k seq : Nat)

/-- The cells of the merger's page that the emission of a tile line may change. -/
def lineCells : List Fld := [.MRG_H_BANK_STATE, .MRG_CNT_SEAM_MISS, .MRG_CNT_TILES]

theorem State.laySettle_get (h : Fld.MRG_H_BANK_STATE.id ≠ f.id) : (s.laySettle k).get f i = s.get f i := by
  refine State.foldl_get _ _ _ _ _ fun t b => ?_
  split
  · exact State.get_set_ne _ _ _ _ _ _ h
  · rfl

theorem State.blanketEnd_get (hp : f.page = 48) (h : Fld.MRG_H_BANK_STATE.id ≠ f.id) :
    (s.blanketEnd k seq).get f i = s.get f i := by
  unfold State.blanketEnd
  split
  · rfl
  split
  · extract_lets s1
    have hend (t : State) : (t.refEnd k seq).get f i = t.get f i :=
      (State.refEnd_upd t k seq (W := 2 ^ 52) (P := 0x108) (by decide) (Upd.refl t)).cells f i (by rw [hp]; decide)
    exact (hend _).trans (State.laySettle_get s1 i k h)
  · rfl

theorem State.onBlanket_get (g : BFrame → BFrame) : (s.onBlanket k seq g).get f i = s.get f i :=
  (State.onBlanket_upd s k seq g (W := 0) (P := 0x188) (by decide) (Upd.refl s)).cells f i (Nat.zero_testBit _)

theorem State.refTile_get (t : RefTile) : (s.refTile t).get f i = s.get f i :=
  (State.refTile_upd s t (W := 0) (P := 0x108) (by decide) (Upd.refl s)).cells f i (Nat.zero_testBit _)

theorem State.trimRows_get : (s.trimRows k seq).get f i = s.get f i :=
  (State.trimRows_upd s k seq (W := 0) (P := 0x80) (by decide) (Upd.refl s)).cells f i (Nat.zero_testBit _)

/-- A tile line counts a seam beside an absent member and a tile that is full, and may free a layout bank. -/
theorem State.emitLine_get (c : Nat) (off : List Side) (miss : Bool) (hp : f.page = 48)
    (h : ∀ g ∈ lineCells, g.id ≠ f.id) : (s.emitLine k seq c off miss).get f i = s.get f i := by
  unfold State.emitLine
  split
  · rfl
  split
  · rfl
  extract_lets base v px fill line used gone lost miss' s1 flags t' full put valid s2
  have h1 : s1.get f i = s.get f i := by
    unfold s1
    split
    · exact State.get_inc_ne _ _ _ _ _ (h _ (by decide))
    · rfl
  have hput (x : TileCol) : (put x).get f i = s.get f i := (State.onBlanket_get s1 i k seq _).trans h1
  split
  · rw [State.blanketEnd_get _ _ _ _ hp (h _ (by decide)), State.refTile_get]
    exact (State.get_inc_ne _ _ _ _ _ (h _ (by decide))).trans (hput _)
  · exact (State.trimRows_get _ _ _ _).trans (hput _)

end Line

/-! ### A packet sent (R195) -/

section Send
variable {s : State} {k seq side v0 n : Nat} {f : BFrame}

/-- Rows of a seam from `v0` on, 16 at most, for which every member that owns columns of its span is ready. -/
def State.seamReady (s : State) (base : Nat) (f : BFrame) (side v0 : Nat) : Nat :=
  let sp := s.seamSpan base side
  let ms := (List.range (s.layMembers base)).filter fun m =>
    decide ((s.owned base m).1 < sp.1 + sp.2) && decide (sp.1 < (s.owned base m).2)
  ((List.range 16).takeWhile fun i => decide (v0 + i < s.layBh base) &&
    ms.all fun m => s.memberReady base f m (seamCol (s.seamExt base side)) (v0 + i)).length

/-- A posted packet: its head, the samples of `n` rows from `v0` on, and their validity. -/
def State.seamData (s : State) (k side : Nat) (f : BFrame) (v0 n : Nat) : List Nat :=
  let base := layBase k f.bank
  let sp := s.seamSpan base side
  let rows := (List.range n).map fun i => s.seamRow base f sp.1 sp.2 (v0 + i)
  leBytes 4 (s.get .MRG_H_SEAM_TAG (2 * k + side)) ++ [s.par base (32 + side) 1, s.layPlanes base, n, 0] ++
    leBytes 8 f.t0 ++ leBytes 2 f.job ++ leBytes 2 v0 ++ leBytes 4 sp.1 ++ leBytes 2 sp.2 ++ List.replicate 6 0 ++
    rows.flatMap (fun r => r.1.flatten) ++ rows.flatMap fun r => packBits (ceilDiv sp.2 8) r.2

/-- `n` rows go out under the next tag: what nothing needs any more leaves the store, and the frame ends if it is done. -/
def State.seamPost (s : State) (k seq side : Nat) (f : BFrame) (v0 n : Nat) : State :=
  let t := (s.bump .MRG_H_SEAM_TAG (2 * k + side) 1).onBlanket k seq fun g =>
    if side = 0 then { g with sentL := v0 + n } else { g with sentR := v0 + n }
  ((t.sendSeam (t.par (layBase k f.bank) (30 + side) 1) (s.seamData k side f v0 n)).trimRows k seq).blanketEnd k seq

theorem exec_seamPacketSend_of_none (h : s.blanket? k seq = none) : exec (.seamPacketSend k seq side) s = .next s := by
  rw [exec_seamPacketSend, execSeamPacketSend, State.seamSend, h]

theorem exec_seamPacketSend_of_frame (hf : s.blanket? k seq = some f)
    (hv : v0 = if side = 0 then f.sentL else f.sentR) (hn : n = s.seamReady (layBase k f.bank) f side v0) : exec (.seamPacketSend k seq side) s =
      .next (if !s.layExt (layBase k f.bank) side || s.ownsExt (layBase k f.bank) side || n = 0 then s
        else s.seamPost k seq side f v0 n) := by
  subst hv hn
  rw [exec_seamPacketSend, execSeamPacketSend, State.seamSend, hf]
  rfl

end Send

/-! ### A packet received (R196, R382) -/

section Receive
variable {s : State} {b : List Nat} {f : BFrame}

/-- The open blanket frame that a packet matches: its blanket and job, a time within the join window, and a seam that this
device owns in the packet's tile column. -/
def State.seamMatch (s : State) (b : List Nat) : Option BFrame :=
  s.blankets.find? fun f => f.k == b.getD 4 0 % 8 && f.job == leAt b 16 2 &&
    decide (absDiff (leAt b 8 8) f.t0 ≤ s.layJoinNs (layBase (b.getD 4 0 % 8) f.bank)) &&
    [0, 1].any fun d => s.ownsExt (layBase (b.getD 4 0 % 8) f.bank) d &&
      seamCol (s.seamExt (layBase (b.getD 4 0 % 8) f.bank) d) == leAt b 20 4 / 256

/-- The next tile line of a tile column of a blanket frame. -/
def BFrame.nextLine (f : BFrame) (c : Nat) : Nat :=
  match f.cols.find? fun t => t.col == c with
  | some t => t.next
  | none => 0

/-- The row after the last group that a packet brings rows of. -/
def State.seamStop (s : State) (base : Nat) (b : List Nat) : Nat :=
  min (s.layBh base) ((leAt b 18 2 + b.getD 6 0 - 1) / 16 * 16 + 16)

/-- The frame keeps a packet's rows from its next tile line on. -/
def State.seamKeep (s : State) (b : List Nat) (f : BFrame) : State :=
  let c := leAt b 20 4 / 256
  let base := layBase (b.getD 4 0 % 8) f.bank
  let side := if s.ownsExt base 0 && seamCol (s.seamL base) == c then 0 else 1
  s.onBlanket (b.getD 4 0 % 8) f.seq fun g =>
    { g with remote := g.remote ++ (seamRows side b).filter fun r => decide (f.nextLine c ≤ r.v) }

theorem exec_seamPacketReceived_of_none (h : s.seamMatch b = none) :
    exec (.seamPacketReceived b) s = .next (s.inc .MRG_CNT_SEAM_LATE (b.getD 4 0 % 8)) := by
  rw [State.seamMatch] at h
  rw [exec_seamPacketReceived, execSeamPacketReceived, State.seamReceived]
  dsimp only
  rw [h]

theorem exec_seamPacketReceived_of_match (h : s.seamMatch b = some f) : exec (.seamPacketReceived b) s =
    .next (if s.seamStop (layBase (b.getD 4 0 % 8) f.bank) b ≤ f.nextLine (leAt b 20 4 / 256) then
      s.inc .MRG_CNT_SEAM_LATE (b.getD 4 0 % 8)
    else ((s.seamKeep b f).seams (layBase (b.getD 4 0 % 8) f.bank)).foldl
      (fun t q => t.seamCheck (b.getD 4 0 % 8) f.seq q 32) (s.seamKeep b f)) := by
  rw [State.seamMatch] at h
  rw [exec_seamPacketReceived, execSeamPacketReceived, State.seamReceived]
  dsimp only
  rw [h]
  rfl

end Receive

/-! ### The end of a wait (R194, R196) -/

section Wait
variable {s : State} {k seq side c : Nat} {f : BFrame} {u : TileCol} {vs : List Nat}

/-- The neighbour's row `v` of a seam has come. -/
def BFrame.seamHere (f : BFrame) (side v : Nat) : Bool := f.remote.any fun r => r.side == side && r.v == v

/-- The sides of a seam's tile column on this device are ready for row `v`. -/
def State.ownReady (s : State) (base : Nat) (f : BFrame) (c side v : Nat) : Bool :=
  ((s.colSides base c).filter (· != Side.remote side)).all (s.sideReady base f c v)

/-- The next tile line leaves, one-sided and with `SEAM_MISS` unless the neighbour's row is `here`. -/
def State.waitedLine (s : State) (k seq side c : Nat) (here : Bool) : State :=
  if here then s.emitLine k seq c [] false
  else ((s.emitLine k seq c [.remote side] true).inc .MRG_CNT_SEAM_MISS k).mrgEvent k 2 seq 0xFF

/-- A one-sided line sets the sticky bit SEAM_MISS of its blanket. -/
theorem State.waitedLine_miss (s : State) (k seq side c : Nat) :
    (s.waitedLine k seq side c false).bit .MRG_BL_EVENTS_EV k 2 = true :=
  State.sticky_bit _ _ _ _ _ _ _ _ _ _ _ (by decide) (by decide)

/-- No line clears it. -/
theorem State.waitedLine_keeps_miss (here : Bool) (h : s.bit .MRG_BL_EVENTS_EV k 2 = true) :
    (s.waitedLine k seq side c here).bit .MRG_BL_EVENTS_EV k 2 = true := by
  cases here with
  | false => exact State.waitedLine_miss s k seq side c
  | true => exact (congrArg (Nat.testBit · 2) (State.emitLine_get s k k seq c [] false (by decide) (by decide))).trans h

theorem exec_seamWaitExpiry_of_none (h : s.blanket? k seq = none) : exec (.seamWaitExpiry k seq side) s = .next s := by
  rw [exec_seamWaitExpiry, execSeamWaitExpiry, h]

theorem exec_seamWaitExpiry_of_no_column (hf : s.blanket? k seq = some f)
    (hu : (f.cols.find? fun t => t.col == seamCol (s.seamExt (layBase k f.bank) side)) = none) :
    exec (.seamWaitExpiry k seq side) s = .next s := by
  rw [exec_seamWaitExpiry, execSeamWaitExpiry, hf]
  dsimp only
  rw [hu]

theorem exec_seamWaitExpiry_of_column (hf : s.blanket? k seq = some f)
    (hc : c = seamCol (s.seamExt (layBase k f.bank) side)) (hu : (f.cols.find? fun t => t.col == c) = some u)
    (hvs : vs = (List.range (min (s.layBh (layBase k f.bank)) (u.next / 16 * 16 + 16) - u.next)).map (u.next + ·)) :
    exec (.seamWaitExpiry k seq side) s =
      if !s.ownsExt (layBase k f.bank) side || vs.isEmpty || vs.all (f.seamHere side) ||
        !vs.all (s.ownReady (layBase k f.bank) f c side) then .next s
      else .next (vs.foldl (fun t v => t.waitedLine k seq side c (f.seamHere side v)) s) := by
  subst hc hvs
  rw [exec_seamWaitExpiry, execSeamWaitExpiry, hf]
  dsimp only
  rw [hu]
  rfl

/-- The rest of a group in which a row is missing is completed, and the blanket's SEAM_MISS is set. -/
theorem seamWait_completes_one_sided (hf : s.blanket? k seq = some f)
    (hc : c = seamCol (s.seamExt (layBase k f.bank) side)) (hu : (f.cols.find? fun t => t.col == c) = some u)
    (hvs : vs = (List.range (min (s.layBh (layBase k f.bank)) (u.next / 16 * 16 + 16) - u.next)).map (u.next + ·))
    (hown : s.ownsExt (layBase k f.bank) side = true) (hhere : vs.all (f.seamHere side) = false)
    (hready : vs.all (s.ownReady (layBase k f.bank) f c side) = true) :
    Completes (.seamWaitExpiry k seq side) s fun t => t.bit .MRG_BL_EVENTS_EV k 2 = true := by
  obtain ⟨v, hv, hmiss⟩ := List.all_eq_false.mp hhere
  have hne : vs.isEmpty = false := List.isEmpty_eq_false_iff.mpr (List.ne_nil_of_mem hv)
  refine ⟨_, (exec_seamWaitExpiry_of_column hf hc hu hvs).trans (if_neg (by simp [hown, hne, hhere, hready])), ?_⟩
  refine foldl_of_mem (P := fun t => t.bit .MRG_BL_EVENTS_EV k 2 = true) hv (fun t => ?_)
    (fun t w _ h => State.waitedLine_keeps_miss _ h) s
  rw [Bool.eq_false_iff.mpr hmiss]
  exact State.waitedLine_miss t k seq side c

end Wait

end Sys2Proof.Machine

open Sys2Proof Sys2Proof.Machine

/-- Settles O45: each command by the blanket frame it finds; a wait sets SEAM_MISS at the row that has not come, and no
later line clears it. -/
theorem mergerSeamsComplete : Obligations.MergerSeamsComplete := by
  refine ⟨fun k seq side f v0 n sp rows s => ⟨exec_seamPacketSend_of_none, ?_⟩,
    fun b f c base next s hc hbase hnext => ⟨?_, ?_⟩,
    fun k seq side f c u vs s => ⟨exec_seamWaitExpiry_of_none, fun hf hc => ⟨?_, fun hu hvs => ⟨?_, ?_⟩⟩⟩⟩
  · rintro hf hv rfl hn rfl
    have hsend := exec_seamPacketSend_of_frame hf hv hn
    refine ⟨fun h => hsend.trans ?_, fun hext hown hne => hsend.trans ?_⟩
    · rw [if_pos (by simpa [or_assoc] using h)]
    · rw [if_neg (by simp [hext, hown, hne])]
      rfl
  · subst hc
    exact exec_seamPacketReceived_of_none
  · subst hc hbase hnext
    intro hf
    have hrec := exec_seamPacketReceived_of_match hf
    exact ⟨fun hlate => hrec.trans (congrArg Host.Outcome.next (if_pos hlate)),
      fun hopen u hu => hu ▸ hrec.trans (congrArg Host.Outcome.next (if_neg (Nat.not_le.mpr hopen)))⟩
  · exact fun hu => exec_seamWaitExpiry_of_no_column hf (hc ▸ hu)
  · exact fun ⟨hown, hhere, hready⟩ => seamWait_completes_one_sided hf hc hu hvs hown hhere hready
  · intro h
    refine (exec_seamWaitExpiry_of_column hf hc hu hvs).trans (if_pos ?_)
    obtain hown | hhere | hready := h
    · simp [hown]
    · rw [show vs.all (f.seamHere side) = true from hhere, Bool.or_true, Bool.true_or]
    · rw [show vs.all (s.ownReady (layBase k f.bank) f c side) = false from hready, Bool.not_false, Bool.or_true]

end

section
/-! PROOFS. Reference comparison: slots, comparison banks, an alignment tile, fence, reset and counters (O43). -/

namespace Sys2Proof.Machine

/-! ### Slots (08_reference_comparison.md R202) -/

section Slots
variable {s : State} {sl : Nat} {src : Src}

theorem exec_slotLoad_opens (hg : s.slotGate sl src = .ok) (hu : s.slotUsed sl = false)
    (hl : s.get .REF_SLOT_CTRL_STATE sl ≠ 1) :
    exec (.slotLoad sl src) s = .next ((s.set .REF_SLOT_CTRL_STATE sl 1).answer src (slotCtrl sl) .ok) := by
  simp [execSlotLoad, State.slotLoad, hg, hu, hl]

theorem exec_slotLoad_refused (hg : s.slotGate sl src = .ok)
    (h : s.slotUsed sl = true ∨ s.get .REF_SLOT_CTRL_STATE sl = 1) :
    exec (.slotLoad sl src) s = .next (s.answer src (slotCtrl sl) .state) := by
  simp [execSlotLoad, State.slotLoad, hg, h]

theorem exec_slotDone_checks (hg : s.slotGate sl src = .ok) (hl : s.get .REF_SLOT_CTRL_STATE sl = 1)
    (hc : s.get .REF_SLOT_CTRL_CHECKING sl = 0) : exec (.slotDone sl src) s =
      .next { s.set .REF_SLOT_CTRL_CHECKING sl 1 with ref := { s.ref with checks := tabPut s.ref.checks sl src } } := by
  simp [execSlotDone, State.slotDone, State.on, hg, hl, hc]

theorem exec_slotDone_refused (hg : s.slotGate sl src = .ok)
    (h : s.get .REF_SLOT_CTRL_STATE sl ≠ 1 ∨ s.on .REF_SLOT_CTRL_CHECKING sl = true) :
    exec (.slotDone sl src) s = .next (s.answer src (slotCtrl sl) .state) := by
  simp [execSlotDone, State.slotDone, hg, h]

/-- The end of a check answers the write of `DONE` that has waited for it. -/
theorem exec_slotCheckDone_answers (hc : s.get .REF_SLOT_CTRL_CHECKING sl = 1) :
    Answers (.slotCheckDone sl) s (tabGet s.ref.checks sl ⟨.mgt, 0⟩) (slotCtrl sl)
      (if s.slotOk sl then .ok else .integrity) fun t =>
      t.get .REF_SLOT_CTRL_STATE sl = (if s.slotOk sl then 2 else 0) ∧ t.get .REF_SLOT_CTRL_CHECKING sl = 0 := by
  refine ⟨_, if_pos (by simp [State.on, hc]), ?_, ?_⟩
  · rw [State.get_with_ref, State.get_set_same]
    split <;> rfl
  · rw [State.get_with_ref, State.get_set_ne _ _ _ _ _ _ (by decide)]
    exact State.get_set_same ..

theorem exec_slotCheckDone_idle (hc : s.on .REF_SLOT_CTRL_CHECKING sl = false) : exec (.slotCheckDone sl) s = .next s :=
  if_neg (by simp [hc])

theorem exec_slotClear_answers (hg : s.slotGate sl src = .ok) (hu : s.slotUsed sl = false) :
    Answers (.slotClear sl src) s src (slotCtrl sl) .ok fun t =>
      t.get .REF_SLOT_CTRL_STATE sl = 0 ∧ t.get .REF_SLOT_CTRL_CHECKING sl = 0 := by
  have hclear (v : State) : ((v.set .REF_SLOT_CTRL_STATE sl 0).set .REF_SLOT_CTRL_CHECKING sl 0).get
      .REF_SLOT_CTRL_STATE sl = 0 := (State.get_set_ne _ _ _ _ _ _ (by decide)).trans (State.get_set_same ..)
  refine ⟨(s.slotClear sl src).1, by simp [execSlotClear, State.slotClear, hg, hu], ?_⟩
  rw [State.slotClear, if_neg (by simp [hu])]
  extract_lets v w
  exact ⟨hclear v, State.get_set_same (v.set .REF_SLOT_CTRL_STATE sl 0) .REF_SLOT_CTRL_CHECKING sl 0⟩

theorem exec_slotClear_refused (hg : s.slotGate sl src = .ok) (hu : s.slotUsed sl = true) :
    exec (.slotClear sl src) s = .next (s.answer src (slotCtrl sl) .state) := by
  simp [execSlotClear, State.slotClear, hg, hu]

theorem exec_slot_of_gate (hg : s.slotGate sl src ≠ .ok) : ∀ i ∈ [Instr.slotLoad sl src, .slotDone sl src, .slotClear sl src],
    exec i s = .next (s.answer src (slotCtrl sl) (s.slotGate sl src)) := by
  simp only [List.forall_mem_cons, List.not_mem_nil, false_implies, implies_true, and_true]
  exact ⟨if_pos hg, if_pos hg, if_pos hg⟩

end Slots

/-! ### Comparison banks (08_reference_comparison.md R203, R204) -/

section Banks
variable {s : State} {src : Src} {k b o addr mode : Nat} {data : List Nat}

/-- An address within the window of a comparison bank, taken apart. -/
theorem cmpBase_add_split (hb : b < 2) (ho : o < 0x800) : 0x350000 ≤ cmpBase k b + o ∧
    (cmpBase k b + o - 0x350000) / 0x1000 = k ∧ (cmpBase k b + o - 0x350000) / 0x800 % 2 = b ∧
    (cmpBase k b + o - 0x350000) % 0x800 = o := by
  unfold cmpBase
  omega

/-- What a write within one comparison bank answers. -/
theorem exec_cmpWindowWrite_inside (ha : 0x350000 ≤ addr) (hk : (addr - 0x350000) / 0x1000 < 8)
    (hlen : (addr - 0x350000) % 0x800 + data.length ≤ 0x800) : exec (.cmpWindowWrite addr data src) s =
      if s.gate src .installer 11 ≠ .ok then .next (s.answer src 0 (s.gate src .installer 11))
      else if s.cmpState ((addr - 0x350000) / 0x1000) ((addr - 0x350000) / 0x800 % 2) ≠ 0 then
        .next (s.answer src 0 .state)
      else .next ((s.putBytes addr data).answer src 0 .ok) := by
  have hin : ¬ (decide (addr < 0x350000) || decide (8 ≤ (addr - 0x350000) / 0x1000) ||
      decide (0x800 < (addr - 0x350000) % 0x800 + data.length)) = true := by
    simp only [Bool.or_eq_true, decide_eq_true_eq]
    omega
  rw [exec_cmpWindowWrite, execCmpWindowWrite, State.cmpStore, if_neg hin]
  split
  · rfl
  · split <;> rfl

theorem exec_cmpWindowWrite_outside (h : addr < 0x350000 ∨ 8 ≤ (addr - 0x350000) / 0x1000 ∨
    0x800 < (addr - 0x350000) % 0x800 + data.length) :
    exec (.cmpWindowWrite addr data src) s = .next (s.answer src 0 .range) := by
  rw [exec_cmpWindowWrite, execCmpWindowWrite, State.cmpStore, if_pos (by simpa [or_assoc] using h)]

theorem exec_cmpWindowWrite_stores (hk : k < 8) (hb : b < 2) (hlen : o + data.length ≤ 0x800) (ho : o < 0x800)
    (hg : s.gate src .installer 11 = .ok) (hs : s.cmpState k b = 0) : exec (.cmpWindowWrite (cmpBase k b + o) data src) s =
      .next ((s.putBytes (cmpBase k b + o) data).answer src 0 .ok) := by
  obtain ⟨hlo, hblanket, hbank, hoff⟩ := cmpBase_add_split (k := k) hb ho
  rw [exec_cmpWindowWrite_inside hlo (by rwa [hblanket]) (by rwa [hoff]), hblanket, hbank, if_neg (not_not_intro hg),
    if_neg (not_not_intro hs)]

/-- The bank committed is the one that was chosen before: the effect writes its state and its mode. -/
theorem exec_refGo_recorded (hg : s.gate src .installer 11 = .ok) (hok : s.refGoCheck k = .ok) :
    Recorded (.refGo k mode src) s src 0 (s.auditRec src 2 2 (cmpBase k (s.cmpCommitBank k))
        (digest16 (s.memBytes (cmpBase k (1 - s.cmpCommitBank k)) 0x800))
        (digest16 (s.memBytes (cmpBase k (s.cmpCommitBank k)) 0x800))) fun t =>
      t.cmpState k (s.cmpCommitBank k) = 1 ∧
        t.get .REF_H_MODE (2 * k + s.cmpCommitBank k) = mode % 2 ^ Fld.REF_H_MODE.width := by
  refine .of_exec (eff := effRefGo k mode src) (by simp [execRefGo, hg, hok]) fun _ => ⟨?_, ?_⟩
  · rw [State.cmpState, State.completed_get _ _ (by decide) (by decide), effRefGo, if_pos hok,
      State.get_set_ne _ _ _ _ _ _ (by decide)]
    exact State.get_set_same ..
  · rw [State.completed_get _ _ (by decide) (by decide), effRefGo, if_pos hok]
    exact State.get_set_same ..

theorem exec_refCancel_recorded (hg : s.gate src .installer 11 = .ok) (hok : s.refCancelCheck k = .ok) :
    Recorded (.refCancel k src) s src 0 (s.auditRec src 1 2 (cmpBase k (s.cmpCommitBank k)) noValue noValue) fun t =>
      t.cmpState k (s.cmpCommitBank k) = 0 := by
  refine .of_exec (eff := effRefCancel k src) (by simp [execRefCancel, hg, hok]) fun _ => ?_
  rw [State.cmpState, State.completed_get _ _ (by decide) (by decide), effRefCancel, if_pos hok]
  exact State.get_set_same ..

end Banks

/-! ### What the comparison of a part leaves of the blanket tiles

Only the entry of a part (R216, R224) changes them; what is counted, read, decoded and emitted does not. -/

section Tiles
variable (s : State)

theorem Upd.tiles {w p : Nat} {r t : State} (h : Upd w p r t) (hp : p.testBit 8 = false) : t.ref.tiles = r.ref.tiles :=
  congrArg RefS.tiles (h.parts.ref hp)

@[simp] theorem State.inc_tiles (f : Fld) (i : Nat) : (s.inc f i).ref.tiles = s.ref.tiles := rfl
@[simp] theorem State.add_tiles (f : Fld) (i n : Nat) : (s.add f i n).ref.tiles = s.ref.tiles := rfl

@[simp] theorem State.onRefFrame_tiles (k seq : Nat) (g : RefFrame → RefFrame) :
    (s.onRefFrame k seq g).ref.tiles = s.ref.tiles := rfl

@[simp] theorem State.refEvent_tiles (k bit seq a t : Nat) : (s.refEvent k bit seq a t).ref.tiles = s.ref.tiles :=
  (State.refEvent_upd s k bit seq a t (W := 0x10000000000001) (P := 0x100002) (by decide) (Upd.refl s)).tiles (by decide)

@[simp] theorem State.offerPlain_tiles (f : RefFrame) (st kind row col : Nat) (data : List Nat) :
    (s.offerPlain f st kind row col data).ref.tiles = s.ref.tiles :=
  (State.offerPlain_upd s f st kind row col data (W := 0) (P := 0x400) (by decide) (Upd.refl s)).tiles (by decide)

@[simp] theorem State.startProduct_tiles (q : Product) : (s.startProduct q).ref.tiles = s.ref.tiles :=
  (State.startProduct_upd s q (W := 0x100000000000001) (P := 0x100602) (by decide) (Upd.refl s)).tiles (by decide)

@[simp] theorem State.recorderCopy_tiles (k job : Nat) (tag cand patch : List Nat) :
    (s.recorderCopy k job tag cand patch).ref.tiles = s.ref.tiles :=
  (State.recorderCopy_upd s k job tag cand patch (W := 0x1000000000000000000001) (P := 0x102002) (by decide)
    (Upd.refl s)).tiles (by decide)

@[simp] theorem State.fetchRef_tiles (k base slot : Nat) (rx ry : Int) (y : Grid) (e : Bool) :
    (s.fetchRef k base slot rx ry y e).1.ref.tiles = s.ref.tiles :=
  (State.fetchRef_upd s k base slot rx ry y e (W := 0x100000100000000000001) (P := 0x100002) (by decide)
    (Upd.refl s)).tiles (by decide)

@[simp] theorem State.eofCheck_tiles : s.eofCheck.ref.tiles = s.ref.tiles := rfl

@[simp] theorem State.cmpSettle_tiles (k : Nat) : (s.cmpSettle k).ref.tiles = s.ref.tiles :=
  (State.cmpSettle_upd s k (W := 0x10000000000000) (P := 0) (by decide) (Upd.refl s)).tiles (by decide)

@[simp] theorem State.refEnd_tiles (k seq : Nat) : (s.refEnd k seq).ref.tiles = s.ref.tiles :=
  State.cmpSettle_tiles _ _

@[simp] theorem State.refBegin_tiles (k seq : Nat) : (s.refBegin k seq).ref.tiles = s.ref.tiles := by
  unfold State.refBegin
  split
  · split
    · split <;> rfl
    · rfl
  · rfl

@[simp] theorem State.countFound_tiles (k seq a t : Nat) (c : Found) :
    (s.countFound k seq a t c).ref.tiles = s.ref.tiles := by
  unfold State.countFound
  extract_lets u
  have hu : u.ref.tiles = s.ref.tiles := by
    unfold u
    split
    · simp
    · split <;> simp
  split
  · exact hu
  · exact hu

@[simp] theorem State.emitCand_tiles (f : RefFrame) (b a t : Nat) (tile : RefTile) (px : List (List (List Nat)))
    (ok : List (List Bool)) (c : Compared) : (s.emitCand f b a t tile px ok c).1.ref.tiles = s.ref.tiles := by
  unfold State.emitCand
  extract_lets base n found cand patch counted flags record v emitted
  have hcounted : counted.ref.tiles = s.ref.tiles := rfl
  have hemitted : emitted.ref.tiles = s.ref.tiles := State.offerPlain_tiles ..
  split
  · simp [hcounted]
  · split
    · dsimp only
      split <;> simp [hemitted]
    · simp [hemitted]

@[simp] theorem State.refFinish_tiles (k seq : Nat) : (s.refFinish k seq).ref.tiles = s.ref.tiles := by
  unfold State.refFinish
  split
  · rfl
  · split
    · rfl
    · split
      · rfl
      · simp only [State.eofCheck_tiles, State.refEnd_tiles, State.set_ref]
        split <;> rfl

end Tiles

/-! ### A part is entered in its blanket tile (08_reference_comparison.md R215, R216) -/

/-- Two entries are of the same blanket tile. -/
def RefTile.sameTile (u v : RefTile) : Bool := v.k == u.k && v.seq == u.seq && v.row == u.row && v.col == u.col

/-- The blanket tiles after part `p` of tile `u` is done: the 16th part ends the tile; before, it is entered, and `z` tells
whether the tile's residual product has been started. -/
def enterPart (tiles : List RefTile) (u : RefTile) (p : RefPart) (z : Bool) : List RefTile :=
  if u.parts.length = 15 then tiles.filter fun v => !u.sameTile v
  else tiles.map fun v => if u.sameTile v then { u with parts := u.parts ++ [p], sent := z } else v

/-- Feeding the codec touches of a tile its mark of a started product alone. -/
theorem State.feedTile_tile (s : State) (f : RefFrame) (b : Nat) (t : RefTile) :
    ∃ z, (s.feedTile f b t).2 = { t with sent := z } := by
  unfold State.feedTile
  extract_lets bands st plane planes q
  split
  · exact ⟨t.sent, rfl⟩
  · split
    · exact ⟨t.sent, rfl⟩
    · split
      · exact ⟨true, rfl⟩
      · exact ⟨t.sent, rfl⟩

@[simp] theorem State.feedTile_tiles (s : State) (f : RefFrame) (b : Nat) (t : RefTile) :
    (s.feedTile f b t).1.ref.tiles = s.ref.tiles :=
  (State.feedTile_upd s f b t (W := 0x100000000000001) (P := 0x100602) (by decide) (Upd.refl s)).tiles (by decide)

theorem State.tileDone_tiles (s : State) (f : RefFrame) (b : Nat) (t : RefTile) :
    (s.tileDone f b t).ref.tiles = s.ref.tiles.filter fun v => !t.sameTile v :=
  congrArg (List.filter fun v => !t.sameTile v) (State.offerPlain_tiles ..)

/-- Replacing a tile and then removing it is removing it. -/
theorem RefTile.filter_map_sameTile {u t : RefTile} (ht : ∀ v, t.sameTile v = u.sameTile v) (tiles : List RefTile) :
    (tiles.map fun v => if u.sameTile v then t else v).filter (fun v => !t.sameTile v) =
      tiles.filter fun v => !u.sameTile v := by
  have hself : u.sameTile t = true := (ht t).symm.trans (by simp [RefTile.sameTile])
  simp only [ht]
  induction tiles with
  | nil => rfl
  | cons v l ih => cases hv : u.sameTile v <;> simp [hv, hself, ih]

theorem State.partDone_tiles (s : State) (f : RefFrame) (b : Nat) (u : RefTile) (p : RefPart) :
    ∃ z, (s.partDone f b u p).ref.tiles = enterPart s.ref.tiles u p z := by
  have htiles := State.feedTile_tiles s f b { u with parts := u.parts ++ [p] }
  obtain ⟨z, hz⟩ := State.feedTile_tile s f b { u with parts := u.parts ++ [p] }
  refine ⟨z, ?_⟩
  unfold State.partDone enterPart
  generalize s.feedTile f b { u with parts := u.parts ++ [p] } = q at htiles hz
  obtain ⟨v, t⟩ := q
  subst hz
  simp only [List.length_append, List.length_singleton, Nat.reduceEqDiff]
  split
  · rw [State.refFinish_tiles, State.tileDone_tiles, ← htiles]
    exact RefTile.filter_map_sameTile (fun _ => rfl) _
  · rw [← htiles]
    rfl

/-- A lost part is entered with cause 7. -/
theorem State.lostPart_eq (s : State) (f : RefFrame) (b : Nat) (u : RefTile) (i : Nat) :
    ∃ p : RefPart, p.i = i ∧ p.cause = 7 ∧ s.lostPart f b u i = s.partDone f b u p :=
  ⟨_, rfl, rfl, rfl⟩

theorem State.fetchRef_of_memErr (s : State) (k base slot : Nat) (rx ry : Int) (y : Grid) :
    s.fetchRef k base slot rx ry y true = (s, none) := rfl

/-! ### An alignment tile (08_reference_comparison.md R206 to R220, R224) -/

section Align
variable {s : State} {k seq a t : Nat} {e : Bool} {u : RefTile}

/-- The blanket tile that alignment tile (a, t) of a frame is part of. -/
def State.tileOf? (s : State) (k seq a t : Nat) : Option RefTile :=
  s.ref.tiles.find? fun u => u.k == k && u.seq == seq && u.row == t / 4 && u.col == a / 4

/-- The alignment tile is done: its part of the blanket tile is there. -/
def RefTile.isDone (u : RefTile) (a t : Nat) : Bool := u.parts.any fun p => p.i == 4 * (t % 4) + a % 4

theorem exec_alignmentTile_of_none (hu : s.tileOf? k seq a t = none) : exec (.alignmentTile k seq a t e) s = .next s := by
  rw [State.tileOf?] at hu
  rw [exec_alignmentTile, execAlignmentTile, hu]

theorem exec_alignmentTile_of_done (hu : s.tileOf? k seq a t = some u) (hd : u.isDone a t = true) :
    exec (.alignmentTile k seq a t e) s = .next s := by
  rw [State.tileOf?] at hu
  rw [exec_alignmentTile, execAlignmentTile, hu]
  exact if_pos hd

theorem exec_alignmentTile_unbound (hu : s.tileOf? k seq a t = some u) (hd : u.isDone a t = false)
    (h : (s.refBegin k seq).refFrame? k seq = none ∨ ∃ f, (s.refBegin k seq).refFrame? k seq = some f ∧ f.bank = none) :
    exec (.alignmentTile k seq a t e) s = .next (s.refBegin k seq) := by
  rw [State.tileOf?] at hu
  rw [exec_alignmentTile, execAlignmentTile, hu]
  refine (if_neg (ne_true_of_eq_false hd)).trans ?_
  obtain hf | ⟨f, hf, hb⟩ := h
  · simp only [hf]
  · simp only [hf, hb]

/-- The outcome `r` of alignment tile (a, t): its part is entered in blanket tile `u`, after operations that leave the
blanket tiles as they are in `s`; with cause 7 in a band that a reset has cut off (R224), with cause 5 where a read of its
reference failed (R210). -/
def EntersPart (s : State) (f : RefFrame) (b : Nat) (u : RefTile) (a t : Nat) (e : Bool) (r : Res) : Prop :=
  ∃ (v : State) (p : RefPart), v.ref.tiles = s.ref.tiles ∧ p.i = 4 * (t % 4) + a % 4 ∧ (t % 4 < u.cut → p.cause = 7) ∧
    (u.cut ≤ t % 4 → e = true → p.cause = 5) ∧ r = .next (v.partDone f b u p)

theorem exec_alignmentTile_enters {f : RefFrame} {b : Nat} (hu : s.tileOf? k seq a t = some u) (hd : u.isDone a t = false)
    (hf : (s.refBegin k seq).refFrame? k seq = some f) (hb : f.bank = some b) :
    EntersPart s f b u a t e (exec (.alignmentTile k seq a t e) s) := by
  rw [exec_alignmentTile]
  unfold execAlignmentTile
  extract_lets i begun counted
  have hbegun : begun.ref.tiles = s.ref.tiles := State.refBegin_tiles ..
  split
  · next hn => cases hu.symm.trans hn
  rename_i u' hu'
  cases hu.symm.trans hu'
  split
  · next h => cases hd.symm.trans h
  split
  · next hn => cases hf.symm.trans hn
  rename_i f' hf'
  cases hf.symm.trans hf'
  split
  · next hn => cases hb.symm.trans hn
  rename_i b' hb'
  cases hb.symm.trans hb'
  extract_lets base slot cs
  split
  · next hcut =>
    obtain ⟨p, hi, hcause, hp⟩ := State.lostPart_eq begun f b u i
    exact ⟨begun, p, hbegun, hi, fun _ => hcause, fun h => absurd hcut (Nat.not_lt.mpr h), congrArg _ hp⟩
  · next hcut =>
    split
    next px ok _ =>
    split
    next rx ry _ =>
    extract_lets clipped y
    have hclipped : clipped.ref.tiles = s.ref.tiles := by
      unfold clipped
      split <;> exact hbegun
    split
    next fetched view hfetch =>
    have hfetched : fetched.ref.tiles = s.ref.tiles := by
      rw [← hclipped, ← State.fetchRef_tiles clipped k base slot rx ry y e, hfetch]
    extract_lets c cause found
    have hfound : found.ref.tiles = s.ref.tiles := (State.countFound_tiles ..).trans hfetched
    split
    next v n hemit =>
    refine ⟨v, _, ?_, rfl, fun h => absurd h hcut, fun _ he => ?_, rfl⟩
    · split at hemit
      · rw [← hfound, ← State.emitCand_tiles found f b a t u px ok c, hemit]
      · cases hemit
        exact hfound
    · -- a read that failed gives no view, so the tile is masked
      rw [he, State.fetchRef_of_memErr] at hfetch
      cases hfetch
      rfl

end Align

/-! ### Fence, reset and counters (08_reference_comparison.md R224, R515) -/

section Resetting
variable (s : State) (i : Nat)

theorem State.staleDrop_resetting (b : Nat) : (s.staleDrop b).get .PWR_H_RESETTING i = s.get .PWR_H_RESETTING i := by
  rw [State.staleDrop, State.pwrEvent, State.sticky_get _ _ _ _ _ _ _ _ _ _ _ _ _ (by decide) (by decide)]
  exact State.get_inc_ne _ _ _ _ _ (by decide)

theorem State.memDone_resetting (r : MemReq) (st : Status) (data : List Nat) :
    (s.memDone r st data).get .PWR_H_RESETTING i = s.get .PWR_H_RESETTING i := by
  unfold State.memDone
  split
  · split
    · rfl
    · exact State.staleDrop_resetting _ _ _
  · rw [State.answer_get _ _ _ _ _ _ (by decide) (by decide)]
    split <;> rfl

/-- A new generation completes the requests that are open, and puts no unit in reset and none out of it. -/
theorem State.newGeneration_resetting (b : Nat) :
    (s.newGeneration b).get .PWR_H_RESETTING i = s.get .PWR_H_RESETTING i := by
  unfold State.newGeneration
  extract_lets bumped hit brg late pieces port
  have hlate : late.get .PWR_H_RESETTING i = s.get .PWR_H_RESETTING i := State.get_bump_ne _ _ _ _ _ _ (by decide)
  have hpieces : pieces.get .PWR_H_RESETTING i = s.get .PWR_H_RESETTING i :=
    (State.foldl_get _ _ _ _ _ fun t h => (State.pieceDone_upd t _ _ _ _ (W := 0x100000000000000001) (P := 0x100c02)
      (by decide) (Upd.refl t)).cells .PWR_H_RESETTING i (by decide)).trans hlate
  have hport : port.get .PWR_H_RESETTING i = s.get .PWR_H_RESETTING i := by
    unfold port
    split
    · rw [State.get_inc_ne _ _ _ _ _ (by decide), ← hpieces]
      exact (State.indirectDone_upd pieces _ _ (W := 1) (P := 0) (by decide) (Upd.refl pieces)).cells
        .PWR_H_RESETTING i (by decide)
    · exact hpieces
  split
  · exact (State.foldl_get _ _ _ _ _ fun t r => State.memDone_resetting t i r _ _).trans hport
  · exact hport

theorem State.blockReset_resetting (u : Nat) : (s.blockReset u).get .PWR_H_RESETTING u = 1 :=
  (State.newGeneration_resetting ..).trans (State.get_set_same ..)

end Resetting

section Control
variable {s : State} {src : Src}

theorem exec_refFence_recorded (hg : s.gate src .installer 11 = .ok) :
    Recorded (.refFence src) s src 0 (s.writeRec src 0x340880 1) fun t => t.get .REF_CTRL_FENCE = 1 := by
  refine .of_exec (eff := effRefFence) (if_neg (not_not_intro hg)) fun _ => ?_
  rw [State.completed_get _ _ (by decide) (by decide)]
  exact State.get_set_same ..

theorem exec_refReset_recorded (hg : s.gate src .installer 11 = .ok) :
    Recorded (.refReset src) s src 0 (s.writeRec src 0x340880 2) fun t => t.get .PWR_H_RESETTING 11 = 1 := by
  refine .of_exec (eff := effRefReset) (if_neg (not_not_intro hg)) fun _ => ?_
  rw [State.completed_get _ _ (by decide) (by decide)]
  exact State.blockReset_resetting _ 11

theorem exec_refFenceDone_completes (hc : s.get .REF_CTRL_FENCE = 1)
    (hf : (s.ref.frames.any fun f => f.bank.isSome) = false) :
    Completes .refFenceDone s fun t => t.get .REF_CTRL_FENCED = 1 :=
  ⟨_, if_pos (by simp [State.on, hc, hf]), State.get_set_same ..⟩

theorem exec_refFenceDone_idle (h : s.get .REF_CTRL_FENCE = 0 ∨ (s.ref.frames.any fun f => f.bank.isSome) = true) :
    exec .refFenceDone s = .next s := by
  refine if_neg ?_
  rcases h with h | h
  · simp [State.on, h]
  · rw [h, Bool.not_true, Bool.and_false]
    exact Bool.false_ne_true

/-- The counters of a blanket in comparison that `CLR_CNT` clears. -/
def refCounters : List Fld := [.REF_CNT_TILES, .REF_CNT_ALIGN_FAIL, .REF_CNT_REFERR, .REF_CNT_CAND, .REF_CNT_CAND_SKIP,
  .REF_CNT_PATCH_SKIP, .REF_CNT_NOREF, .REF_CNT_MARK_STRAY, .REF_CNT_CCLIP]

theorem State.refClrCnt_get (s : State) : ∀ k < 8, ∀ f ∈ refCounters, s.refClrCnt.get f k = 0 := by
  intro k hk f hf
  have hinj : ∀ g ∈ refCounters, g.id = f.id → g = f :=
    fun g hg => (by decide : ∀ f ∈ refCounters, ∀ g ∈ refCounters, g.id = f.id → g = f) f hf g hg
  exact foldl_of_mem (P := fun t : State => t.get f k = 0) (List.mem_range.mpr hk) (State.foldl_clear_get hf hinj k)
    (fun _ _ _ => State.foldl_clear_zero hinj) s

theorem exec_refClrCnt_answers (hg : s.gate src .operator 11 = .ok) :
    Answers (.refClrCnt src) s src 0 .ok fun t => ∀ k < 8, ∀ f ∈ refCounters, t.get f k = 0 :=
  ⟨_, if_neg (not_not_intro hg), State.refClrCnt_get s⟩

end Control

end Sys2Proof.Machine

open Sys2Proof Sys2Proof.Machine

/-- Settles O43: slots, comparison banks, fence, reset and counters each by the law of their command above; of an alignment
tile, that what runs before its part is entered leaves the blanket tiles. -/
theorem referenceCommandsComplete : Obligations.ReferenceCommandsComplete := by
  refine ⟨fun sl src s _ hg => ⟨?_, ?_, exec_slotCheckDone_answers, exec_slotClear_answers hg⟩,
    fun k b o data src s => exec_cmpWindowWrite_stores,
    fun k mode src s _ hg => ⟨exec_refGo_recorded hg, exec_refCancel_recorded hg⟩,
    fun sl src addr data s => ⟨exec_slot_of_gate, fun hg => ⟨exec_slotLoad_refused hg, exec_slotDone_refused hg,
      exec_slotClear_refused hg⟩, exec_slotCheckDone_idle, exec_cmpWindowWrite_outside, fun ha hk hlen => ⟨?_, ?_⟩⟩,
    fun k seq a t e s u f b hu hd hf hb => ?_,
    fun k seq a t e s => ⟨exec_alignmentTile_of_none, fun u hu => ⟨exec_alignmentTile_of_done hu,
      exec_alignmentTile_unbound hu⟩⟩,
    fun src s => ⟨fun hg => ⟨exec_refFence_recorded hg, exec_refReset_recorded hg⟩, exec_refFenceDone_completes,
      exec_refFenceDone_idle, exec_refClrCnt_answers⟩⟩
  -- a slot is opened, and its check begins
  · exact fun hu hl => ⟨_, exec_slotLoad_opens hg hu hl, State.get_set_same ..⟩
  · exact fun hl hc => ⟨_, exec_slotDone_checks hg hl hc, State.get_set_same s .REF_SLOT_CTRL_CHECKING sl 1, rfl⟩
  -- a write into a comparison bank is refused
  · exact fun hg => (exec_cmpWindowWrite_inside ha hk hlen).trans (if_pos hg)
  · exact fun hg hs => (exec_cmpWindowWrite_inside ha hk hlen).trans ((if_neg (not_not_intro hg)).trans (if_pos hs))
  -- the part of an alignment tile
  · obtain ⟨v, p, htiles, hi, hcut, herr, hexec⟩ := exec_alignmentTile_enters (e := e) hu hd hf hb
    obtain ⟨z, hz⟩ := State.partDone_tiles v f b u p
    exact ⟨p, z, hi, hcut, herr, _, hexec, hz.trans (by rw [htiles]; rfl)⟩

end

section
/-! PROOFS. Profiles, products, fence, reset and counters of the Teasel codec (O29). -/

namespace Sys2Proof.Machine

/-! ### A committed profile (09_teasel_codec.md R245) -/

section Profile
variable {s : State} {src : Src} {k : Nat}

/-- In `t` the values that `s` has staged for profile `k` are pending. -/
def StagedPending (s : State) (k : Nat) (t : State) : Prop :=
  t.get .TSL_PROF_STATUS_PENDING k = 1 ∧
  t.get .TSL_PROF_P_NEAR k = s.get .TSL_PROF_NEAR k % 2 ^ Fld.TSL_PROF_P_NEAR.width ∧
  t.get .TSL_PROF_P_THR k =
    (s.get .TSL_PROF_THR_LO_THR k + 2 ^ 32 * s.get .TSL_PROF_THR_HI_THR k) % 2 ^ Fld.TSL_PROF_P_THR.width ∧
  t.get .TSL_PROF_P_CTRL k =
    (s.get .TSL_PROF_CTRL_CLASS k + 4 * s.get .TSL_PROF_CTRL_ESC_EN k + 65536 * s.get .TSL_PROF_CTRL_HOLD_TILES k) %
      2 ^ Fld.TSL_PROF_P_CTRL.width

theorem effProfCommit_pending (src : Src) (hok : s.profOk k = true) : StagedPending s k (effProfCommit k src s) := by
  rw [effProfCommit, hok, Bool.not_true, if_neg Bool.false_ne_true]
  refine ⟨State.get_set_same .., ?_, ?_, ?_⟩
  · rw [State.get_set_ne _ _ _ _ _ _ (by decide), State.get_set_ne _ _ _ _ _ _ (by decide),
      State.get_set_ne _ _ _ _ _ _ (by decide)]
    exact State.get_set_same ..
  · rw [State.get_set_ne _ _ _ _ _ _ (by decide), State.get_set_ne _ _ _ _ _ _ (by decide)]
    exact State.get_set_same ..
  · rw [State.get_set_ne _ _ _ _ _ _ (by decide)]
    exact State.get_set_same ..

theorem exec_profCommit_recorded (hk : k < 16) (hg : s.gate src .installer 12 = .ok) (hok : s.profOk k = true) :
    Recorded (.profCommit k src) s src 0 (s.auditRec src 2 1 (0x38000C + 0x20 * k) noValue noValue)
      (StagedPending s k) := by
  refine .of_exec (eff := effProfCommit k src) (by simp [execProfCommit, Nat.not_le.mpr hk, hg, hok]) fun _ => ?_
  obtain ⟨hpending, hnear, hthr, hctrl⟩ := effProfCommit_pending src hok
  exact ⟨(State.completed_get _ _ (by decide) (by decide)).trans hpending,
    (State.completed_get _ _ (by decide) (by decide)).trans hnear,
    (State.completed_get _ _ (by decide) (by decide)).trans hthr,
    (State.completed_get _ _ (by decide) (by decide)).trans hctrl⟩

theorem exec_profCommit_refused (hk : k < 16) (hg : s.gate src .installer 12 = .ok) (hok : s.profOk k = false) :
    exec (.profCommit k src) s = .next (s.answer src 0 .range) := by
  simp [execProfCommit, Nat.not_le.mpr hk, hg, hok]

end Profile

/-! ### The end of a product (R226, R240, R271, R337) -/

section Products
variable {s : State} {i : Nat} {q : Product}

/-- An open product before the `i`-th has come whole, of the stream and kind of `q`. -/
def State.wholeBefore (s : State) (i : Nat) (q : Product) : Bool :=
  (s.products.take i).any fun e => e.whole && e.stream == q.stream && e.copy == q.copy

/-- Product `i`, which is `q`, leaves the open ones, and the tiles of a coded one are counted. -/
def State.takeProduct (s : State) (i : Nat) (q : Product) : State :=
  let u : State := { s with products := s.products.eraseIdx i }
  if q.bypass then u
  else (u.add .TSL_CNT_ENC 0 q.planes.length).add .TSL_CNT_RAW 0 (q.coded.filter (·.raw)).length

/-- The coded product goes on: a copy to the recorder, any other into its delivery. -/
def State.handProduct (s : State) (q : Product) : State :=
  let body := q.coded.flatMap (·.bytes)
  if q.copy then s.recorderCopy q.k q.tag.job q.tag.bytes q.head body
  else (s.productClose q (q.coded.foldl (fun a t => max a t.near) 0) (q.head ++ body)).eofCheck

theorem Product.coded_length (q : Product) : q.coded.length = q.planes.length := List.length_map ..

theorem exec_productDone_of_whole (hq : s.products[i]? = some q) (hw : q.whole = true)
    (hb : s.wholeBefore i q = false) : exec (.productDone i) s = .next ((s.takeProduct i q).handProduct q) := by
  rw [State.wholeBefore] at hb
  rw [exec_productDone, execProductDone, hq]
  simp only [hw, hb, Bool.not_true, Bool.or_false, Bool.false_eq_true, if_false, State.takeProduct, State.handProduct,
    Product.coded_length, List.eraseIdx_eq_take_drop_succ]
  split <;> rfl

theorem exec_productDone_idle (h : ∀ q, s.products[i]? = some q → q.whole = true → s.wholeBefore i q = true) :
    exec (.productDone i) s = .next s := by
  rw [exec_productDone, execProductDone]
  split
  · rfl
  · next q hq =>
    refine if_pos (Bool.or_eq_true_iff.mpr ?_)
    cases hw : q.whole with
    | false => exact .inl rfl
    | true => exact .inr (h q hq hw)

theorem State.takeProduct_products : (s.takeProduct i q).products = s.products.eraseIdx i := by
  rw [State.takeProduct]
  split <;> rfl

theorem State.takeProduct_coded (hb : q.bypass = false) : (s.takeProduct i q).get .TSL_CNT_ENC =
    min (s.get .TSL_CNT_ENC + q.planes.length) (2 ^ Fld.TSL_CNT_ENC.width - 1) := by
  rw [State.takeProduct, hb, if_neg Bool.false_ne_true, State.get_add_ne _ _ _ _ _ (by decide)]
  exact State.get_add_same ..

theorem State.takeProduct_raw (hb : q.bypass = true) (f : Fld) (j : Nat) :
    (s.takeProduct i q).get f j = s.get f j := by
  rw [State.takeProduct, hb]
  rfl

/-- Handing a product on reports, writes egress and the recorder, and leaves the codec alone. -/
theorem State.handProduct_upd (s : State) (q : Product) : Upd 0x1100000000000000000001 0x502403 s (s.handProduct q) := by
  rw [State.handProduct]
  split
  · exact State.recorderCopy_upd _ _ _ _ _ _ (by decide) (.refl s)
  · exact State.eofCheck_upd _ (by decide) (State.productClose_upd _ _ _ _ (by decide) (.refl s))

theorem exec_productDone_completes (hq : s.products[i]? = some q) (hw : q.whole = true)
    (hb : s.wholeBefore i q = false) : Completes (.productDone i) s fun t => t.products = s.products.eraseIdx i ∧
      (q.bypass = false → t.get .TSL_CNT_ENC =
        min (s.get .TSL_CNT_ENC + q.planes.length) (2 ^ Fld.TSL_CNT_ENC.width - 1)) ∧
      (q.bypass = true → t.get .TSL_CNT_ENC = s.get .TSL_CNT_ENC) := by
  have hhand := State.handProduct_upd (s.takeProduct i q) q
  have henc : ((s.takeProduct i q).handProduct q).get .TSL_CNT_ENC = (s.takeProduct i q).get .TSL_CNT_ENC :=
    hhand.cells _ _ (by decide)
  exact ⟨_, exec_productDone_of_whole hq hw hb, (hhand.parts.products (by decide)).trans State.takeProduct_products,
    fun hy => henc.trans (State.takeProduct_coded hy), fun hy => henc.trans (State.takeProduct_raw hy _ _)⟩

end Products

/-! ### Fence, reset and counters (R249, R515) -/

section Control
variable {s : State} {src : Src}

theorem exec_tslFence_recorded (hg : s.gate src .installer 12 = .ok) :
    Recorded (.tslFence src) s src 0 (s.writeRec src 0x380400 1) fun t => t.get .TSL_CTRL_FENCE = 1 := by
  refine .of_exec (eff := effTslFence) (if_neg (not_not_intro hg)) fun _ => ?_
  rw [State.completed_get _ _ (by decide) (by decide)]
  exact State.get_set_same ..

theorem exec_tslFenceDone_completes (hf : s.on .TSL_CTRL_FENCE = true) (hq : ∀ q ∈ s.products, q.bypass = true) :
    Completes .tslFenceDone s fun t => t.get .TSL_CTRL_FENCED = 1 :=
  ⟨_, if_pos (by simpa [hf] using hq), State.get_set_same ..⟩

theorem exec_tslFenceDone_idle (h : s.on .TSL_CTRL_FENCE = false ∨ ∃ q ∈ s.products, q.bypass = false) :
    exec .tslFenceDone s = .next s := by
  refine if_neg ?_
  rcases h with h | h
  · simp [h]
  · simpa using fun _ => h

/-- A completion leaves the open products. -/
theorem State.completed_products (s : State) (src : Src) (cmd : Nat) (eff : State → State) :
    (s.completed src cmd eff).products = (eff s).products := by
  unfold State.completed
  dsimp only
  split
  · rfl
  · exact (State.answer_upd _ _ _ _ (W := 2 ^ 68 + 1) (P := 0x140c03) (by decide) (.refl (eff s))).parts.products
      (by decide)

theorem State.loseProduct_products (s : State) (q : Product) : (s.loseProduct q).products = s.products :=
  (State.loseProduct_upd s q (W := 0xa0100000000000021) (P := 0x10040a) (by decide) (.refl s)).parts.products
    (by decide)

/-- The open products that are coded are lost, and the loss is reported. -/
def State.loseCoded (s : State) : State :=
  let lost := s.products.filter fun q => !q.bypass
  let t := lost.foldl State.loseProduct { s with products := s.products.filter (·.bypass) }
  if lost.isEmpty then t
  else t.sticky .TSL_EVENTS_EV 0 2 .TSL_EVENT_EN 0 2 0x0038 0xFFFF 0x0003 (argAt 16 (min lost.length 65535))

/-- The ladder of every profile starts anew. -/
def State.ladderReset (s : State) : State :=
  (List.range 16).foldl (fun s p => (s.set .TSL_PROF_STATUS_STEP p 0).set .TSL_PROF_H_QUIET p 0) s

theorem effTslReset_eq (s : State) : effTslReset s = (s.loseCoded.ladderReset.blockReset 12).eofCheck := rfl

theorem State.loseCoded_products (s : State) : s.loseCoded.products = s.products.filter (·.bypass) := by
  unfold State.loseCoded
  extract_lets lost t
  have ht : t.products = s.products.filter (·.bypass) :=
    List.foldlRecOn (motive := fun t : State => t.products = s.products.filter (·.bypass)) _ _ rfl
      fun t h q _ => (t.loseProduct_products q).trans h
  split
  · exact ht
  · exact ((Upd.sticky (w := 2 ^ 56 + 1) (p := 0x100002) (by decide) (by decide) (by decide)
      (.refl t)).parts.products (by decide)).trans ht

theorem State.ladderReset_products (s : State) : s.ladderReset.products = s.products :=
  List.foldlRecOn (motive := fun t : State => t.products = s.products) _ _ rfl fun _ h _ _ => h

theorem State.ladderReset_step (s : State) {k : Nat} (hk : k < 16) :
    s.ladderReset.get .TSL_PROF_STATUS_STEP k = 0 := by
  have hquiet (t : State) (p : Nat) : (t.set .TSL_PROF_H_QUIET p 0).get .TSL_PROF_STATUS_STEP k =
      t.get .TSL_PROF_STATUS_STEP k := State.get_set_ne _ _ _ _ _ _ (by decide)
  rw [State.ladderReset]
  refine foldl_of_mem (P := fun t : State => t.get .TSL_PROF_STATUS_STEP k = 0) (List.mem_range.mpr hk)
    (fun t => ?_) (fun t p _ h => ?_) s
  · exact (hquiet _ _).trans (State.get_set_same ..)
  · exact (hquiet _ _).trans (State.get_clear_zero (fun _ => rfl) h)

/-- The block's reset leaves the open products and the codec's cells. -/
theorem State.blockReset_eofCheck_upd (s : State) (u : Nat) :
    Upd (2 ^ 68 + 5) 0x141c03 s (s.blockReset u).eofCheck :=
  State.eofCheck_upd _ (by decide) (State.blockReset_upd s u (by decide) (.refl s))

theorem effTslReset_products (s : State) : (effTslReset s).products = s.products.filter (·.bypass) :=
  calc (effTslReset s).products
    _ = s.loseCoded.ladderReset.products := (State.blockReset_eofCheck_upd _ 12).parts.products (by decide)
    _ = s.products.filter (·.bypass) := (State.ladderReset_products _).trans s.loseCoded_products

theorem effTslReset_step (s : State) {k : Nat} (hk : k < 16) : (effTslReset s).get .TSL_PROF_STATUS_STEP k = 0 :=
  ((State.blockReset_eofCheck_upd _ 12).cells _ _ (by decide)).trans (s.loseCoded.ladderReset_step hk)

theorem effTslReset_resetting (s : State) : (effTslReset s).get .PWR_H_RESETTING 12 = 1 := by
  rw [effTslReset_eq, ← s.loseCoded.ladderReset.blockReset_resetting 12]
  rfl

theorem exec_tslReset_recorded (hg : s.gate src .installer 12 = .ok) :
    Recorded (.tslReset src) s src 0 (s.writeRec src 0x380400 2) fun t => t.get .PWR_H_RESETTING 12 = 1 ∧
      t.products = s.products.filter (·.bypass) ∧ ∀ k < 16, t.get .TSL_PROF_STATUS_STEP k = 0 := by
  refine .of_exec (eff := effTslReset) (if_neg (not_not_intro hg)) fun _ => ⟨?_, ?_, fun k hk => ?_⟩
  · exact (State.completed_get _ _ (by decide) (by decide)).trans (effTslReset_resetting s)
  · exact (State.completed_products ..).trans (effTslReset_products s)
  · exact (State.completed_get _ _ (by decide) (by decide)).trans (effTslReset_step s hk)

/-- The codec counters that `CLR_CNT` clears. -/
def tslCounters : List Fld := [.TSL_CNT_ENC, .TSL_CNT_RAW, .TSL_CNT_BYPASS, .TSL_CNT_DEC, .TSL_CNT_DEC_ERR,
  .TSL_CNT_LOST]

theorem State.tslClrCnt_get (s : State) : ∀ f ∈ tslCounters, s.tslClrCnt.get f = 0 := fun f hf =>
  State.foldl_clear_get hf (fun g hg =>
    (by decide : ∀ f ∈ tslCounters, ∀ g ∈ tslCounters, g.id = f.id → g = f) f hf g hg) 0 s

theorem exec_tslClrCnt_answers (hg : s.gate src .operator 12 = .ok) :
    Answers (.tslClrCnt src) s src 0 .ok fun t => ∀ f ∈ tslCounters, t.get f = 0 :=
  ⟨_, if_neg (not_not_intro hg), State.tslClrCnt_get s⟩

end Control

end Sys2Proof.Machine

open Sys2Proof Sys2Proof.Machine

/-- Settles O29: profiles, the end of a product, fence, reset and counters, each by its law above. -/
theorem codecCommandsComplete : Obligations.CodecCommandsComplete := by
  refine ⟨fun k src s => exec_profCommit_recorded, fun k src s => exec_profCommit_refused,
    fun i q s => exec_productDone_completes, fun i s => exec_productDone_idle,
    fun src s => ⟨exec_tslFence_recorded, exec_tslFenceDone_completes, exec_tslFenceDone_idle⟩,
    fun src s => ⟨exec_tslReset_recorded, fun hg => ?_⟩⟩
  obtain ⟨u, hexec, hzero⟩ := exec_tslClrCnt_answers hg
  exact ⟨u, hexec, hzero _ (by decide), hzero _ (by decide), hzero _ (by decide), hzero _ (by decide),
    hzero _ (by decide), hzero _ (by decide)⟩

end

section
/-! PROOFS. A delivery begins, waits or is refused, and a class B budget ends (O46). -/

namespace Sys2Proof.Machine

/-! ### What beginning a delivery leaves of the class queues (10_egress_delivery.md R268, R271, R274) -/

section Queue
variable (s : State)

theorem State.onStrFrame_queue (st source fseq : Nat) (g : StrFrame → StrFrame) :
    (s.onStrFrame st source fseq g).egr.queue = s.egr.queue := by
  unfold State.onStrFrame
  split <;> rfl

theorem State.onStrFrame_get (st source fseq : Nat) (g : StrFrame → StrFrame) (f : Fld) (i : Nat) :
    (s.onStrFrame st source fseq g).get f i = s.get f i := by
  unfold State.onStrFrame
  split <;> rfl

theorem State.takeCarry_queue (o : Offer) : (s.takeCarry o).egr.queue = s.egr.queue := by
  unfold State.takeCarry
  extract_lets known n after t
  split
  · exact State.onStrFrame_queue ..
  · exact State.onStrFrame_queue ..

theorem State.takeCarry_get (o : Offer) (f : Fld) (i : Nat) (h : Fld.EGR_STR_STATUS_CARRY.id ≠ f.id) :
    (s.takeCarry o).get f i = s.get f i := by
  unfold State.takeCarry
  extract_lets known n after t
  split
  · rw [State.onStrFrame_get]
    exact State.get_set_ne _ _ _ _ _ _ h
  · exact State.onStrFrame_get ..

theorem State.imageWrite_queue (d : Delivery) (off : Nat) (l : List Nat) :
    (s.imageWrite d off l).egr.queue = s.egr.queue :=
  congrArg EgrS.queue ((State.imageWrite_upd s d off l (W := 0x100000000000000000001) (P := 0x500003) (by decide)
    (.refl s)).parts.egr (by decide))

/-- A delivery without the note of which rows of its region have come. -/
def Delivery.bare (d : Delivery) : Delivery := { d with rows := [] }

/-- Rows that pass on to a region's delivery change nothing of the queues but the note of the rows (R256). -/
theorem State.roiFlow_queue (base : Nat) (f : Frame) (i : Nat) :
    (s.roiFlow base f i).egr.queue.map Delivery.bare = s.egr.queue.map Delivery.bare := by
  unfold State.roiFlow
  extract_lets r key rows pipe egr gone fmt
  split
  · rfl
  split
  · rfl
  split
  · rfl
  split
  · rfl
  · next d _ =>
    extract_lets t
    have ht : t.egr.queue = s.egr.queue :=
      List.foldlRecOn (motive := fun t : State => t.egr.queue = s.egr.queue) _ _ rfl
        fun t h q _ => (t.imageWrite_queue ..).trans h
    have hrows : ∀ e : Delivery, (if e.o.stream == r.stream && e.dseq == d.dseq
        then { e with rows := e.rows ++ rows.map (·.y - r.y0) } else e).bare = e.bare := fun e => by split <;> rfl
    calc (gone (t.onDelivery r.stream d.dseq fun d => { d with rows := d.rows ++ rows.map (·.y - r.y0) })).egr.queue.map
          Delivery.bare
      _ = t.egr.queue.map Delivery.bare := by simp only [gone, State.onDelivery, List.map_map, Function.comp_def, hrows]
      _ = s.egr.queue.map Delivery.bare := by rw [ht]

/-- What the engine enters in a class queue for offer `o` under sequence number `dseq`: nothing of it sent, its bytes in the
retry buffer (R268, R271). -/
structure Delivery.BeginsOn (d : Delivery) (s : State) (o : Offer) (dseq : Nat) : Prop where
  offer : d.o = { o with payload := [] }
  seq : d.dseq = dseq
  cls : d.cls = kindClass o.kind
  port : d.port = s.strPort o.stream
  qp : d.qp = s.strQp o.stream
  sent : d.sent = 0
  started : d.started = false
  finished : d.finished = false
  queuedAt : d.queuedAt = s.elapsed

theorem State.takeOn_queue (o : Offer) (dseq : Nat) : ∃ d : Delivery, d.BeginsOn s o dseq ∧
    (s.takeOn o dseq).egr.queue.map Delivery.bare = (s.egr.queue ++ [d]).map Delivery.bare := by
  have hget (f : Fld) (i : Nat) (h : Fld.EGR_STR_STATUS_CARRY.id ≠ f.id) := s.takeCarry_get o f i h
  have hqp : (s.takeCarry o).strQp o.stream = s.strQp o.stream := hget _ _ (by decide)
  have hport : (s.takeCarry o).strPort o.stream = s.strPort o.stream := by
    rw [State.strPort, State.strPort, hqp]
    exact hget _ _ (by decide)
  have htime : (s.takeCarry o).elapsed = s.elapsed := congrArg (· * 5 / 6) (hget _ _ (by decide))
  unfold State.takeOn
  extract_lets t before p cls len ext rows d egr entered written
  have hw : written.egr.queue = s.egr.queue ++ [d] :=
    (entered.imageWrite_queue ..).trans (congrArg (· ++ [d]) (s.takeCarry_queue o))
  refine ⟨d, ⟨rfl, rfl, rfl, hport, hqp, rfl, rfl, rfl, htime⟩, ?_⟩
  split
  · split
    · split
      · exact (written.roiFlow_queue ..).trans (congrArg _ hw)
      · exact congrArg _ hw
    · exact congrArg _ hw
  · exact congrArg _ hw

end Queue

/-! ### The start of a delivery (R271, R273) -/

section Start
variable {s : State} {i : Nat} {o : Offer}

/-- Another offer of its stream stands before offer `i`. -/
def State.offerBehind (s : State) (i : Nat) (o : Offer) : Bool := (s.egr.offers.take i).any fun e => e.stream == o.stream

/-- Offer `i` leaves those that wait, and its stream's sequence number moves on. -/
def State.takeOffer (s : State) (i : Nat) (o : Offer) : State :=
  ({ s with egr := { s.egr with offers := s.egr.offers.take i ++ s.egr.offers.drop (i + 1) } } : State).bump
    .EGR_STR_H_SEQ o.stream 1

/-- An offer refused at its first byte is dropped; a drop record leaves no other and is only counted. -/
def State.refuseOffer (s : State) (o : Offer) (dseq cause : Nat) : State :=
  if o.kind = 7 then s.inc .EGR_STR_CNT_DROP o.stream
  else (if kindClass o.kind = 0 then s.onStrFrame o.stream o.source o.fseq fun f => { f with refused := f.refused + 1 }
    else s).drop o.stream o.source o.fseq dseq cause o.row o.col (if o.open' && kindClass o.kind = 0 then 0 else o.size)
      (kindClass o.kind = 1)

/-- An offer that is the next of its stream, with room or a cause of refusal, does not wait. -/
theorem State.offer_goes (hb : s.offerBehind i o = false) (hc : s.classCWaits o = false ∨ (s.refusal o).isSome = true) :
    ¬(s.offerBehind i o || s.classCWaits o && (s.refusal o).isNone) = true := by
  rcases hc with h | h
  · simp [hb, h]
  · simp [hb, Option.isNone_eq_false_iff.mpr h]

theorem exec_deliveryStart_of_none (h : s.egr.offers[i]? = none) : exec (.deliveryStart i) s = .next s := by
  rw [exec_deliveryStart, execDeliveryStart, h]

section Offered
variable (ho : s.egr.offers[i]? = some o)
include ho

theorem exec_deliveryStart_waits (h : s.offerBehind i o = true ∨ s.classCWaits o = true ∧ s.refusal o = none) :
    exec (.deliveryStart i) s = .next s := by
  rw [exec_deliveryStart, execDeliveryStart, ho]
  refine if_pos ?_
  rcases h with hb | ⟨hc, hr⟩
  · rw [← State.offerBehind, hb, Bool.true_or]
  · rw [hc, hr, Option.isNone_none, Bool.and_true, Bool.or_true]

variable (hb : s.offerBehind i o = false) (hc : s.classCWaits o = false ∨ (s.refusal o).isSome = true)
include hb hc

theorem exec_deliveryStart_begins (hr : (s.takeOffer i o).refusal o = none) :
    exec (.deliveryStart i) s = .next ((s.takeOffer i o).takeOn o (s.get .EGR_STR_H_SEQ o.stream)) := by
  rw [exec_deliveryStart, execDeliveryStart, ho]
  refine (if_neg (State.offer_goes hb hc)).trans ?_
  dsimp only
  rw [← State.takeOffer, hr]

theorem exec_deliveryStart_refused {c : Nat} (hr : (s.takeOffer i o).refusal o = some c) :
    exec (.deliveryStart i) s = .next ((s.takeOffer i o).refuseOffer o (s.get .EGR_STR_H_SEQ o.stream) c) := by
  rw [exec_deliveryStart, execDeliveryStart, ho]
  refine (if_neg (State.offer_goes hb hc)).trans ?_
  dsimp only
  rw [← State.takeOffer, hr]
  exact (apply_ite Host.Outcome.next _ _ _).symm

end Offered

end Start

/-! ### The budget of a class B delivery (R271) -/

section Budget
variable {s : State} {st dseq : Nat} {d : Delivery}

theorem exec_classBBudgetExpiry_of_none
    (h : s.egr.queue.find? (fun d => d.o.stream == st && d.dseq == dseq) = none) :
    exec (.classBBudgetExpiry st dseq) s = .next s := by
  rw [exec_classBBudgetExpiry, execClassBBudgetExpiry, h]

variable (hd : s.egr.queue.find? (fun d => d.o.stream == st && d.dseq == dseq) = some d)
include hd

theorem exec_classBBudgetExpiry_refuses (h : d.cls = 1 ∧ d.started = false ∧
    d.queuedAt + 1000000 * s.get .EGR_STR_RATE_BUDGET_MS st ≤ s.elapsed) :
    exec (.classBBudgetExpiry st dseq) s = .next ((s.refuseQueued d 8).nextHead st) := by
  obtain ⟨hcls, hstart, hold⟩ := h
  rw [exec_classBBudgetExpiry, execClassBBudgetExpiry, hd]
  exact if_pos (by simp [hcls, hstart, hold])

theorem exec_classBBudgetExpiry_idle (h : d.cls ≠ 1 ∨ d.started = true ∨
    s.elapsed < d.queuedAt + 1000000 * s.get .EGR_STR_RATE_BUDGET_MS st) :
    exec (.classBBudgetExpiry st dseq) s = .next s := by
  rw [exec_classBBudgetExpiry, execClassBBudgetExpiry, hd]
  refine if_neg ?_
  rcases h with hcls | hstart | hyoung
  · simp [hcls]
  · simp [hstart]
  · simp [hyoung]

end Budget

end Sys2Proof.Machine

open Sys2Proof Sys2Proof.Machine

/-- Settles O46: an offer that begins, is refused or waits, and a budget that ends or still runs. -/
theorem egressDeliveryCommandsComplete : Obligations.EgressDeliveryCommandsComplete := by
  refine ⟨?_, fun i o s => ⟨exec_deliveryStart_of_none, fun ho => exec_deliveryStart_waits ho⟩, fun st dseq d s =>
    ⟨exec_classBBudgetExpiry_of_none, fun hd => ⟨exec_classBBudgetExpiry_refuses hd, exec_classBBudgetExpiry_idle hd⟩⟩⟩
  rintro i o u s ho hb hc rfl
  refine ⟨fun hr => ?_, fun c hr => ?_⟩
  -- no cause of refusal
  · obtain ⟨d, hd, hq⟩ := (s.takeOffer i o).takeOn_queue o (s.get .EGR_STR_H_SEQ o.stream)
    exact ⟨_, exec_deliveryStart_begins ho hb hc hr, d, hq, hd.offer, hd.seq, hd.cls, hd.port, hd.qp, hd.sent, hd.started,
      hd.finished, hd.queuedAt⟩
  -- a cause: a drop record, and any other delivery
  · have hexec := exec_deliveryStart_refused ho hb hc hr
    exact ⟨fun hk => hexec.trans (congrArg _ (if_pos hk)), fun hk => hexec.trans (congrArg _ (if_neg hk))⟩

end

section
/-! PROOFS. Acknowledgements, NAKs, their timers and the current rate (O48). -/

namespace Sys2Proof.Machine

/-! ### A CE mark, and what the end of a queue pair leaves (10_egress_delivery.md R261, R264) -/

section Cells
variable (s : State) (q : Nat)

@[simp] theorem State.countCe_egr (ce : Bool) : (s.countCe q ce).egr = s.egr := by
  unfold State.countCe
  split <;> rfl

@[simp] theorem State.countCe_brg (ce : Bool) : (s.countCe q ce).brg = s.brg := by
  unfold State.countCe
  split <;> rfl

theorem State.countCe_get (ce : Bool) (f : Fld) (i : Nat) (h : Fld.EGR_PORT_CNT_CE.id ≠ f.id) :
    (s.countCe q ce).get f i = s.get f i := by
  unfold State.countCe
  split
  · exact State.get_inc_ne _ _ _ _ _ h
  · rfl

theorem State.countCe_on (ce : Bool) (f : Fld) (i : Nat) (h : Fld.EGR_PORT_CNT_CE.id ≠ f.id) :
    (s.countCe q ce).on f i = s.on f i := congrArg (· != 0) (State.countCe_get s q ce f i h)

theorem State.countCe_elapsed (ce : Bool) : (s.countCe q ce).elapsed = s.elapsed :=
  congrArg (· * 5 / 6) (State.countCe_get s q ce _ _ (by decide))

/-- A queue pair that stops leaves the registers of every queue pair. -/
theorem State.qpStop_get (cause : Nat) (f : Fld) (i : Nat) (h : f.page = 66) : (s.qpStop q cause).get f i = s.get f i :=
  (State.qpStop_upd s q cause (W := 0x1a0000000000000021) (P := 0x100c0a) (by decide) (.refl s)).cells f i
    (by rw [h]; decide)

theorem State.qpError_state (cause : Nat) : (s.qpError q cause).get .EGR_QP_STATUS_STATE q = 2 := by
  have hstop : ((s.set .EGR_QP_STATUS_STATE q 2).qpStop q cause).get .EGR_QP_STATUS_STATE q = 2 :=
    (State.qpStop_get _ _ _ _ _ (by decide)).trans (State.get_set_same ..)
  unfold State.qpError
  extract_lets t
  split
  · exact (State.event_get _ _ _ _ _ _ _ (by decide)).trans hstop
  · exact hstop

end Cells

/-! ### Acknowledgements (R262) -/

section Ack
variable {s : State} {q psn : Nat} {ce : Bool} {k : Pkt}

/-- The outstanding packets of a queue pair, in the order of their PSNs. -/
def State.pktsOf (s : State) (q : Nat) : List Pkt := s.egr.pkts.filter fun k => k.qp == q

/-- How many packets of the queue pair an acknowledgement of `psn` covers. -/
def State.ackCount (s : State) (q psn : Nat) : Nat := ((s.pktsOf q).map (·.psn)).idxOf psn + 1

/-- The PSNs that an acknowledgement of `psn` leaves outstanding. -/
def State.ackLeft (s : State) (q psn : Nat) : List Nat := ((s.pktsOf q).drop (s.ackCount q psn)).map (·.psn)

/-- The packets that an acknowledgement of `psn` covers are acknowledged, oldest first. -/
def State.ackAll (s u : State) (q psn : Nat) : State :=
  ((s.pktsOf q).take (s.ackCount q psn)).foldl (fun u k => u.ackPacket k) u

theorem State.ackPacket_control (h : k.stream = 0) : s.ackPacket k = s := if_pos h

theorem State.ackPacket_descriptor (h : k.stream ≠ 0) (ho : k.op = .writeImm) : (s.ackPacket k).egr.queue =
    s.egr.queue.filter fun e => !(e.o.stream == k.stream && e.dseq == k.dseq) := by
  rw [State.ackPacket, if_neg h, if_pos ho]
  rfl

theorem State.ackPacket_payload (h : k.stream ≠ 0) (ho : k.op ≠ .writeImm) :
    s.ackPacket k = s.onDelivery k.stream k.dseq fun d => d.release k.n := by
  rw [State.ackPacket, if_neg h, if_neg ho]

theorem State.ackPacket_pkts (s : State) (k : Pkt) : (s.ackPacket k).egr.pkts = s.egr.pkts := by
  unfold State.ackPacket
  split
  · rfl
  split <;> rfl

theorem State.ackAll_pkts (s u : State) (q psn : Nat) : (s.ackAll u q psn).egr.pkts = u.egr.pkts :=
  List.foldlRecOn (motive := fun t : State => t.egr.pkts = u.egr.pkts) _ _ rfl
    fun t h k _ => (t.ackPacket_pkts k).trans h

theorem exec_ackReceived_ignored (h : s.get .EGR_QP_STATUS_STATE q ≠ 1 ∨ ((s.pktsOf q).any fun k => k.psn == psn) = false) :
    exec (.ackReceived q psn ce) s = .next (s.countCe q ce) := by
  rw [exec_ackReceived, execAckReceived]
  refine if_pos ?_
  rw [State.countCe_get _ _ _ _ _ (by decide), State.countCe_egr]
  rcases h with h | h
  · simp [h]
  · rw [← State.pktsOf, h, Bool.not_false, Bool.or_true]

theorem exec_ackReceived_completes (hs : s.get .EGR_QP_STATUS_STATE q = 1)
    (hp : ((s.pktsOf q).any fun k => k.psn == psn) = true) : Completes (.ackReceived q psn ce) s fun t =>
      t.egr.pkts = (s.egr.pkts.filter fun k => !(k.qp == q && !(s.ackLeft q psn).contains k.psn)) ∧
        t.get .EGR_QP_H_RETRY q = 0 ∧ t.get .EGR_QP_H_RNR q = 0 ∧
        t.egr.queue = (s.ackAll (s.countCe q ce) q psn).egr.queue := by
  have hgoes : ¬(decide ((s.countCe q ce).get .EGR_QP_STATUS_STATE q ≠ 1) ||
      !(((s.countCe q ce).pktsOf q).any fun k => k.psn == psn)) = true := by
    rw [State.countCe_get _ _ _ _ _ (by decide), State.pktsOf, State.countCe_egr, ← State.pktsOf, hs, hp]
    decide
  refine ⟨_, (exec_ackReceived ..).trans (if_neg hgoes), ?_, ?_, ?_, ?_⟩
  · have hpkts := s.ackAll_pkts (s.countCe q ce) q psn
    rw [State.countCe_egr] at hpkts
    simp only [State.set_egr, State.countCe_egr]
    rw [← State.pktsOf, ← State.ackCount, ← State.ackAll, hpkts]
    rfl
  · rw [State.get_set_ne _ _ _ _ _ _ (by decide)]
    exact State.get_set_same ..
  · exact State.get_set_same ..
  · simp only [State.set_egr, State.countCe_egr]
    rfl

end Ack

/-! ### NAKs (R262, R267) -/

section Nak
variable {s : State} {q psn syn : Nat} {ce : Bool} {k : Nak}

theorem exec_nakReceived_ignored (h : s.get .EGR_QP_STATUS_STATE q ≠ 1 ∨ s.on .EGR_QP_CFG_MODE q = true) :
    exec (.nakReceived q psn ⟨k, syn⟩ ce) s = .next (s.countCe q ce) := by
  rw [exec_nakReceived, execNakReceived]
  refine if_pos ?_
  rw [State.countCe_get _ _ _ _ _ (by decide), State.countCe_on _ _ _ _ _ (by decide)]
  rcases h with h | h <;> simp [h]

/-- What a NAK of kind `k` for `psn` asks of the queue pair. -/
def State.nakServed (v : State) (q psn : Nat) : Nak → State
  | .sequence => if v.egr.pkts.any fun k => k.qp == q && k.psn == psn then v.qpRetry q psn else v
  | .rnr =>
    if !(v.egr.pkts.any fun k => k.qp == q && k.psn == psn) then v
    else if v.get .EGR_QP_CFG_RNR_RETRY q = 7 || v.get .EGR_QP_H_RNR q < v.get .EGR_QP_CFG_RNR_RETRY q then
      ((v.inc .EGR_QP_H_RNR q).set .EGR_QP_H_RNRWAIT q 1).set .EGR_QP_H_RNRPSN q psn
    else v.qpError q 2
  | .access => v.qpError q 3
  | .operational => v.qpError q 4
  | .invalid => v.qpError q 5

theorem exec_nakReceived_served (hs : s.get .EGR_QP_STATUS_STATE q = 1) (hm : s.on .EGR_QP_CFG_MODE q = false) :
    exec (.nakReceived q psn ⟨k, syn⟩ ce) s =
      .next (((s.countCe q ce).set .EGR_QP_STATUS_SYNDROME q syn).nakServed q psn k) := by
  rw [exec_nakReceived, execNakReceived]
  refine (if_neg ?_).trans ?_
  · rw [State.countCe_get _ _ _ _ _ (by decide), State.countCe_on _ _ _ _ _ (by decide), hs, hm]
    decide
  cases k
  case sequence => exact (apply_ite Host.Outcome.next _ _ _).symm
  case rnr =>
    dsimp only [State.nakServed]
    split
    · rfl
    split <;> rfl
  all_goals rfl

variable {v : State}

section Outstanding
variable (hp : (v.egr.pkts.any fun k => k.qp == q && k.psn == psn) = true)
include hp

theorem State.nakServed_sequence : v.nakServed q psn .sequence = v.qpRetry q psn := if_pos hp

theorem State.nakServed_rnr_waits
    (h : v.get .EGR_QP_CFG_RNR_RETRY q = 7 ∨ v.get .EGR_QP_H_RNR q < v.get .EGR_QP_CFG_RNR_RETRY q) :
    v.nakServed q psn .rnr = ((v.inc .EGR_QP_H_RNR q).set .EGR_QP_H_RNRWAIT q 1).set .EGR_QP_H_RNRPSN q psn := by
  rw [State.nakServed, hp]
  exact (if_neg Bool.false_ne_true).trans (if_pos (by simpa using h))

theorem State.nakServed_rnr_ends (h7 : v.get .EGR_QP_CFG_RNR_RETRY q ≠ 7)
    (h : v.get .EGR_QP_CFG_RNR_RETRY q ≤ v.get .EGR_QP_H_RNR q) : v.nakServed q psn .rnr = v.qpError q 2 := by
  rw [State.nakServed, hp]
  exact (if_neg Bool.false_ne_true).trans (if_neg (by simp [h7, h]))

end Outstanding

theorem State.nakServed_acknowledged (hp : (v.egr.pkts.any fun k => k.qp == q && k.psn == psn) = false) :
    v.nakServed q psn .sequence = v ∧ v.nakServed q psn .rnr = v := by
  rw [State.nakServed, State.nakServed, hp]
  exact ⟨rfl, rfl⟩

end Nak

/-! ### The timers of a queue pair (R262) -/

section Timers
variable {s : State} {q psn : Nat}

theorem exec_qpRetryTimeout_of_none (h : s.oldest q = none) : exec (.qpRetryTimeout q) s = .next s := by
  rw [exec_qpRetryTimeout, execQpRetryTimeout, h]

theorem exec_qpRetryTimeout_retries (ho : s.oldest q = some psn) (h : s.get .EGR_QP_STATUS_STATE q = 1 ∧
    s.on .EGR_PORT_STATUS_LINK (s.get .EGR_QP_CFG_PORT q) = true ∧ s.on .EGR_QP_H_RNRWAIT q = false) :
    exec (.qpRetryTimeout q) s = .next (s.qpRetry q psn) := by
  obtain ⟨hs, hl, hw⟩ := h
  rw [exec_qpRetryTimeout, execQpRetryTimeout, ho]
  exact if_pos (by simp [hs, hl, hw])

theorem exec_qpRetryTimeout_idle (ho : s.oldest q = some psn) (h : s.get .EGR_QP_STATUS_STATE q ≠ 1 ∨
    s.on .EGR_PORT_STATUS_LINK (s.get .EGR_QP_CFG_PORT q) = false ∨ s.on .EGR_QP_H_RNRWAIT q = true) :
    exec (.qpRetryTimeout q) s = .next s := by
  rw [exec_qpRetryTimeout, execQpRetryTimeout, ho]
  refine if_neg ?_
  rcases h with h | h | h <;> simp [h]

/-- The wait is over, and the refused PSN is sent again where it is still outstanding. -/
theorem exec_rnrTimer_sends (h : s.get .EGR_QP_STATUS_STATE q = 1 ∧ s.on .EGR_QP_H_RNRWAIT q = true ∧
    s.on .EGR_PORT_STATUS_LINK (s.get .EGR_QP_CFG_PORT q) = true) : exec (.rnrTimer q) s =
      .next (if s.egr.pkts.any fun k => k.qp == q && k.psn == s.get .EGR_QP_H_RNRPSN q then
        ((s.set .EGR_QP_H_RNRWAIT q 0).inc .EGR_QP_CNT_RETX q).qpResend q (s.get .EGR_QP_H_RNRPSN q)
      else s.set .EGR_QP_H_RNRWAIT q 0) := by
  obtain ⟨hs, hw, hl⟩ := h
  have hpsn : (s.set .EGR_QP_H_RNRWAIT q 0).get .EGR_QP_H_RNRPSN q = s.get .EGR_QP_H_RNRPSN q :=
    State.get_set_ne _ _ _ _ _ _ (by decide)
  rw [exec_rnrTimer, execRnrTimer]
  refine (if_pos (by simp [hs, hw, hl])).trans ?_
  dsimp only [State.set_egr]
  rw [hpsn]
  exact (apply_ite Host.Outcome.next _ _ _).symm

theorem exec_rnrTimer_idle (h : s.get .EGR_QP_STATUS_STATE q ≠ 1 ∨ s.on .EGR_QP_H_RNRWAIT q = false ∨
    s.on .EGR_PORT_STATUS_LINK (s.get .EGR_QP_CFG_PORT q) = false) : exec (.rnrTimer q) s = .next s := by
  rw [exec_rnrTimer, execRnrTimer]
  refine if_neg ?_
  rcases h with h | h | h <;> simp [h]

end Timers

/-! ### The current rate (R266, R267) -/

section Rate
variable {s : State} {q : Nat} {ce : Bool}

/-- A CNP counts: the queue pair is in RTS over RC, and none counted in the last 50 µs. -/
def State.cnpCounts (s : State) (q : Nat) : Prop := s.get .EGR_QP_STATUS_STATE q = 1 ∧ s.on .EGR_QP_CFG_MODE q = false ∧
  (s.on .EGR_QP_H_CNPV q = false ∨ 50000 ≤ s.elapsed - s.get .EGR_QP_H_CNPT q)

theorem State.countCe_cnpCounts : (s.countCe q ce).cnpCounts q ↔ s.cnpCounts q := by
  rw [State.cnpCounts, State.countCe_get _ _ _ _ _ (by decide), State.countCe_on _ _ _ _ _ (by decide),
    State.countCe_on _ _ _ _ _ (by decide), State.countCe_elapsed, State.countCe_get _ _ _ _ _ (by decide)]
  rfl

/-- The rate that a CNP leaves (R266). -/
def State.cnpRate (s : State) (q : Nat) : Nat :=
  max (s.get .EGR_QP_RATE_RC_MBPS q * (256 - s.get .EGR_CNP_CFG_DEC) / 256) (s.get .EGR_CNP_RMIN)

theorem State.countCe_cnpRate : (s.countCe q ce).cnpRate q = s.cnpRate q := by
  rw [State.cnpRate, State.countCe_get _ _ _ _ _ (by decide), State.countCe_get _ _ _ _ _ (by decide),
    State.countCe_get _ _ _ _ _ (by decide)]
  rfl

theorem exec_cnpReceived_completes (h : s.cnpCounts q) : Completes (.cnpReceived ⟨q, ce⟩) s fun t =>
    t.get .EGR_QP_RATE_RC_MBPS q = s.cnpRate q % 2 ^ Fld.EGR_QP_RATE_RC_MBPS.width ∧ t.get .EGR_QP_H_CNPV q = 1 ∧
      t.get .EGR_QP_CNT_CNP q = min (s.get .EGR_QP_CNT_CNP q + 1) (2 ^ 32 - 1) := by
  obtain ⟨hs, hm, hv⟩ := State.countCe_cnpCounts (ce := ce).mpr h
  refine ⟨_, (exec_cnpReceived ..).trans (if_pos (by simpa [hs, hm] using hv)), ?_, ?_, ?_⟩
  · rw [State.get_inc_ne _ _ _ _ _ (by decide), State.get_set_ne _ _ _ _ _ _ (by decide),
      State.get_set_ne _ _ _ _ _ _ (by decide), State.get_set_same]
    exact congrArg (· % _) State.countCe_cnpRate
  · rw [State.get_inc_ne _ _ _ _ _ (by decide)]
    exact State.get_set_same ..
  · rw [State.get_inc_same, State.get_set_ne _ _ _ _ _ _ (by decide), State.get_set_ne _ _ _ _ _ _ (by decide),
      State.get_set_ne _ _ _ _ _ _ (by decide), State.countCe_get _ _ _ _ _ (by decide)]
    rfl

theorem exec_cnpReceived_ignored (h : s.get .EGR_QP_STATUS_STATE q ≠ 1 ∨ s.on .EGR_QP_CFG_MODE q = true ∨
    s.on .EGR_QP_H_CNPV q = true ∧ s.elapsed - s.get .EGR_QP_H_CNPT q < 50000) :
    exec (.cnpReceived ⟨q, ce⟩) s = .next (s.countCe q ce) := by
  have hnot : ¬s.cnpCounts q := by
    rintro ⟨hs, hm, hv⟩
    rcases h with h | h | ⟨hon, hlate⟩
    · exact h hs
    · simp [hm] at h
    · simp [hon, Nat.not_le.mpr hlate] at hv
  refine (exec_cnpReceived ..).trans (if_neg fun hc => hnot (State.countCe_cnpCounts (ce := ce).mp ?_))
  simpa [State.cnpCounts, and_assoc] using hc

theorem exec_cnpRateInc_raises (h : s.get .EGR_QP_STATUS_STATE q = 1 ∧
    s.on .EGR_PORT_STATUS_LINK (s.get .EGR_QP_CFG_PORT q) = true ∧ (s.on .EGR_QP_H_CNPV q = false ∨
      1000 * s.get .EGR_CNP_CFG_INC_US ≤ s.elapsed - s.get .EGR_QP_H_CNPT q)) : exec (.cnpRateInc q) s =
    .next (s.set .EGR_QP_RATE_RC_MBPS q (min (s.get .EGR_QP_RATE_RC_MBPS q + s.get .EGR_CNP_CFG_INC) s.portRate)) := by
  obtain ⟨hs, hl, hv⟩ := h
  rw [exec_cnpRateInc, execCnpRateInc]
  exact if_pos (by simpa [hs, hl] using hv)

theorem exec_cnpRateInc_idle (h : s.get .EGR_QP_STATUS_STATE q ≠ 1 ∨
    s.on .EGR_PORT_STATUS_LINK (s.get .EGR_QP_CFG_PORT q) = false ∨ s.on .EGR_QP_H_CNPV q = true ∧
      s.elapsed - s.get .EGR_QP_H_CNPT q < 1000 * s.get .EGR_CNP_CFG_INC_US) : exec (.cnpRateInc q) s = .next s := by
  rw [exec_cnpRateInc, execCnpRateInc]
  refine if_neg ?_
  rcases h with h | h | ⟨hv, ht⟩
  · simp [h]
  · simp [h]
  · simp [hv, ht]

end Rate

end Sys2Proof.Machine

open Sys2Proof Sys2Proof.Machine

/-- Settles O48: acknowledgements by what they acknowledge, NAKs by their kind, the two timers, and the current rate. -/
theorem egressAcknowledgementsComplete : Obligations.EgressAcknowledgementsComplete := by
  refine ⟨?_, ?_, fun q psn s => ⟨exec_qpRetryTimeout_of_none,
    fun ho => ⟨exec_qpRetryTimeout_retries ho, exec_qpRetryTimeout_idle ho⟩, exec_rnrTimer_sends, exec_rnrTimer_idle⟩, ?_⟩
  -- ACK
  · rintro q psn ce u l s rfl
    refine ⟨exec_ackReceived_ignored, ?_, fun k => ⟨State.ackPacket_control, State.ackPacket_descriptor,
      State.ackPacket_payload⟩⟩
    rintro hs hp rfl
    exact exec_ackReceived_completes hs hp
  -- NAK
  · rintro q psn syn ce u v s rfl rfl
    refine ⟨fun k => exec_nakReceived_ignored, fun hs hm => ?_, State.qpError_state s q⟩
    have hexec (k : Nak) := exec_nakReceived_served (psn := psn) (syn := syn) (ce := ce) (k := k) hs hm
    have hpkts : ((s.countCe q ce).set .EGR_QP_STATUS_SYNDROME q syn).egr.pkts = s.egr.pkts := by
      rw [State.set_egr, State.countCe_egr]
    have hget (f : Fld) (hf : Fld.EGR_QP_STATUS_SYNDROME.id ≠ f.id ∧ Fld.EGR_PORT_CNT_CE.id ≠ f.id) :
        ((s.countCe q ce).set .EGR_QP_STATUS_SYNDROME q syn).get f q = s.get f q :=
      (State.get_set_ne _ _ _ _ _ _ hf.1).trans (State.countCe_get _ _ _ _ _ hf.2)
    rw [← hpkts, ← hget .EGR_QP_CFG_RNR_RETRY (by decide), ← hget .EGR_QP_H_RNR (by decide)]
    refine ⟨fun hp => ?_, fun hp => ?_, fun hp hr => ?_, fun hp h7 hr => ?_, hexec _, hexec _, hexec _⟩
    · rw [hexec, State.nakServed_sequence hp]
    · obtain ⟨hseq, hrnr⟩ := State.nakServed_acknowledged hp
      rw [hexec, hexec, hseq, hrnr]
      exact ⟨rfl, rfl⟩
    · rw [hexec, State.nakServed_rnr_waits hp hr]
    · rw [hexec, State.nakServed_rnr_ends hp h7 hr]
  -- the current rate
  · rintro q ce u s rfl
    exact ⟨exec_cnpReceived_completes, exec_cnpReceived_ignored, exec_cnpRateInc_raises, exec_cnpRateInc_idle⟩

end

section
/-! PROOFS. Queue pairs, links, pauses, rings, logs, the fence, the reset and the counters of egress (O49). -/

namespace Sys2Proof.Machine

/-- A cell that is none of a list's reads on while the list is written. -/
theorem State.foldl_set_get_ne {l : List Fld} {f : Fld} (h : ∀ g ∈ l, g.id ≠ f.id) (s : State) (i j v : Nat) :
    (l.foldl (fun s g => s.set g i v) s).get f j = s.get f j :=
  List.foldlRecOn (motive := fun t : State => t.get f j = s.get f j) l _ rfl
    fun _ ht g hg => (State.get_set_ne _ _ _ _ _ _ (h g hg)).trans ht

/-! ### Queue pairs (10_egress_delivery.md R262, R264) -/

section QueuePair
variable {s : State} {q : Nat} {src : Src}

/-- The cells that a queue pair entering RTS clears. -/
def enableCells : List Fld := [.EGR_QP_H_RETRY, .EGR_QP_H_RNR, .EGR_QP_H_RNRWAIT, .EGR_QP_H_CNPV, .EGR_QP_H_DGRAM]

theorem effQpEnable_get (hok : s.qpEnableCheck q = .ok) (f : Fld) (h : ∀ g ∈ enableCells, g.id ≠ f.id) :
    (effQpEnable q src s).get f q = (((s.set .EGR_QP_STATUS_STATE q 1).set .EGR_QP_H_PSN q
      (s.get .EGR_QP_PSN_PSN_INIT q)).set .EGR_QP_RATE_RC_MBPS q s.portRate).get f q := by
  rw [effQpEnable, if_neg (not_not_intro hok)]
  exact State.foldl_set_get_ne h _ _ _ _

theorem exec_qpEnable_recorded (hg : s.gate src .installer 13 = .ok) (hok : s.qpEnableCheck q = .ok) :
    Recorded (.qpEnable q src) s src 0 (s.writeRec src (0x420000 + 0x80 * q) 1) fun t =>
      t.get .EGR_QP_STATUS_STATE q = 1 ∧ t.get .EGR_QP_H_PSN q = s.get .EGR_QP_PSN_PSN_INIT q % 2 ^ Fld.EGR_QP_H_PSN.width ∧
        t.get .EGR_QP_RATE_RC_MBPS q = s.portRate % 2 ^ Fld.EGR_QP_RATE_RC_MBPS.width := by
  refine .of_exec (eff := effQpEnable q src) (by simp [execQpEnable, hg, hok]) fun _ => ⟨?_, ?_, ?_⟩
  · rw [State.completed_get _ _ (by decide) (by decide), effQpEnable_get hok _ (by decide),
      State.get_set_ne _ _ _ _ _ _ (by decide), State.get_set_ne _ _ _ _ _ _ (by decide)]
    exact State.get_set_same ..
  · rw [State.completed_get _ _ (by decide) (by decide), effQpEnable_get hok _ (by decide),
      State.get_set_ne _ _ _ _ _ _ (by decide)]
    exact State.get_set_same ..
  · rw [State.completed_get _ _ (by decide) (by decide), effQpEnable_get hok _ (by decide)]
    exact State.get_set_same ..

theorem State.brgQpReset_get (s : State) (q : Nat) (f : Fld) (i : Nat) : (s.brgQpReset q).get f i = s.get f i := rfl

/-- Of the queue pairs' registers a reset changes the state alone. -/
theorem effQpReset_get (s : State) (q : Nat) (f : Fld) (i : Nat) (h : f.page = 66) :
    (effQpReset q s).get f i = (s.set .EGR_QP_STATUS_STATE q 0).get f i := by
  rw [effQpReset, State.brgQpReset_get]
  exact State.qpStop_get _ _ _ _ _ h

theorem effQpReset_state (s : State) (q : Nat) : (effQpReset q s).get .EGR_QP_STATUS_STATE q = 0 :=
  (effQpReset_get s q _ _ (by decide)).trans (State.get_set_same ..)

theorem exec_qpReset_recorded (hq : q < 256) (hg : s.gate src .installer 13 = .ok) : Recorded (.qpReset q src) s src 0
    (s.writeRec src (0x420000 + 0x80 * q) 2) fun t => t.get .EGR_QP_STATUS_STATE q = 0 := by
  refine .of_exec (eff := effQpReset q) (by simp [execQpReset, hg, Nat.not_le.mpr hq]) fun _ => ?_
  exact (State.completed_get _ _ (by decide) (by decide)).trans (effQpReset_state s q)

end QueuePair

/-! ### Links and received frames (R253, R261, R262, R278) -/

section Link
variable {s : State} {p prio ns : Nat} {pfc : Bool}

theorem exec_egressLinkDown_completes (h : s.on .EGR_PORT_STATUS_LINK p = true) : Completes (.egressLinkDown p) s fun t =>
    t.get .EGR_PORT_STATUS_LINK p = 0 ∧ t.get .EGR_PORT_STATUS_ALIGN p = 0 ∧
      t.bit .EGR_PORT_STATUS_LINK_DOWN p 0 = true := by
  refine ⟨_, if_pos h, ?_, ?_, State.sticky_bit _ _ _ _ _ _ _ _ _ _ _ (by decide) (by decide)⟩
  · rw [State.sticky_get _ _ _ _ _ _ _ _ _ _ _ _ _ (by decide) (by decide), State.get_set_ne _ _ _ _ _ _ (by decide)]
    exact State.get_set_same ..
  · rw [State.sticky_get _ _ _ _ _ _ _ _ _ _ _ _ _ (by decide) (by decide)]
    exact State.get_set_same ..

theorem exec_egressLinkDown_idle (h : s.on .EGR_PORT_STATUS_LINK p = false) : exec (.egressLinkDown p) s = .next s :=
  if_neg (ne_true_of_eq_false h)

/-- A queue pair sends again what is unacknowledged of it. -/
def State.resumeQp (s : State) (q : Nat) : State :=
  match s.oldest q with
  | some psn => s.qpResend q psn
  | none => s

theorem State.resumeQp_get (s : State) (q : Nat) (f : Fld) (i : Nat) : (s.resumeQp q).get f i = s.get f i := by
  unfold State.resumeQp
  split <;> rfl

theorem State.resumeQp_pkts (s : State) (q : Nat) : (s.resumeQp q).egr.pkts = s.egr.pkts := by
  unfold State.resumeQp
  split <;> rfl

/-- The link of a port is up. -/
def State.raiseLink (s : State) (p : Nat) : State := (s.set .EGR_PORT_STATUS_LINK p 1).set .EGR_PORT_STATUS_ALIGN p 1

theorem exec_egressLinkUp_outside (h : s.portCount ≤ p) : exec (.egressLinkUp p) s = .next s := if_pos h

theorem exec_egressLinkUp_completes (h : p < s.portCount) : Completes (.egressLinkUp p) s fun t =>
    t.get .EGR_PORT_STATUS_LINK p = 1 ∧ t.get .EGR_PORT_STATUS_ALIGN p = 1 ∧ t.egr.pkts = s.egr.pkts := by
  have hget (f : Fld) : (((s.raiseLink p).portQps p).foldl State.resumeQp (s.raiseLink p)).get f p =
      (s.raiseLink p).get f p :=
    State.foldl_get _ _ _ _ _ fun t q => t.resumeQp_get q f p
  refine ⟨((s.raiseLink p).portQps p).foldl State.resumeQp (s.raiseLink p), if_neg (Nat.not_le.mpr h), ?_, ?_, ?_⟩
  · rw [hget, State.raiseLink, State.get_set_ne _ _ _ _ _ _ (by decide)]
    exact State.get_set_same ..
  · rw [hget]
    exact State.get_set_same ..
  · exact List.foldlRecOn (motive := fun t : State => t.egr.pkts = s.egr.pkts) _ _ rfl
      fun t ht q _ => (t.resumeQp_pkts q).trans ht

/-- The port honours a PAUSE frame, or a PFC frame for priority `prio` (R253). -/
def State.honours (s : State) (p : Nat) (pfc : Bool) (prio : Nat) : Bool :=
  if pfc then s.on .EGR_PORT_CFG_PFC_EN p && prio == s.get .EGR_PORT_CFG_PFC_PRIO p else s.on .EGR_PORT_CFG_PAUSE_EN p

theorem exec_pauseFrameReceived_completes (h : s.honours p pfc prio = true) :
    Completes (.pauseFrameReceived p pfc prio ns) s fun t =>
      t.get .EGR_PORT_H_PAUSE p = (s.elapsed + ns) % 2 ^ Fld.EGR_PORT_H_PAUSE.width ∧
        t.get .EGR_PORT_CNT_PAUSE p = min (s.get .EGR_PORT_CNT_PAUSE p + 1) (2 ^ 32 - 1) := by
  refine ⟨_, if_pos h, State.get_set_same .., ?_⟩
  rw [State.get_set_ne _ _ _ _ _ _ (by decide)]
  exact State.get_inc_same ..

theorem exec_pauseFrameReceived_ignored (h : s.honours p pfc prio = false) :
    exec (.pauseFrameReceived p pfc prio ns) s = .next s := if_neg (ne_true_of_eq_false h)

theorem exec_rxFrameDiscard_completes (s : State) (p : Nat) : Completes (.rxFrameDiscard p) s fun t =>
    t.get .EGR_PORT_CNT_RXBAD p = min (s.get .EGR_PORT_CNT_RXBAD p + 1) (2 ^ 32 - 1) := ⟨_, rfl, State.get_inc_same ..⟩

end Link

/-! ### Rings, logs and settings (R258, R265, R272, R273) -/

section Ring
variable {s : State} {st c p sel v : Nat} {src : Src}

theorem State.consReturn_spec (s : State) (st c : Nat) :
    if (s.get .EGR_STR_PROD_P st + 2 ^ 32 - c % 2 ^ 32) % 2 ^ 32 ≤ s.get .EGR_STR_SLOTS st
    then (s.consReturn st c).get .EGR_STR_CONS_C st = c % 2 ^ 32
    else (s.consReturn st c).bit .EGR_STR_STATUS_EV st 2 = true ∧
      (s.consReturn st c).get .EGR_STR_CONS_C st = s.get .EGR_STR_CONS_C st := by
  unfold State.consReturn
  split
  · exact State.get_set_same ..
  · exact ⟨State.sticky_bit _ _ _ _ _ _ _ _ _ _ _ (by decide) (by decide),
      State.sticky_get _ _ _ _ _ _ _ _ _ _ _ _ _ (by decide) (by decide)⟩

theorem exec_strConsWrite_answers (hg : s.gate src .operator 13 = .ok) (h0 : 0 < st) (h1 : st < 256) :
    exec (.strConsWrite st c src) s = .next ((s.consReturn st c).answer src 0 .ok) := by
  have hst : ¬(decide (st = 0) || decide (256 ≤ st)) = true := by simp; omega
  exact (if_neg hst).trans (if_neg (not_not_intro hg))

theorem exec_egrDropPop_answers (hg : s.gate src .operator 13 = .ok) :
    Answers (.egrDropPop src) s src 0 .ok fun t => t.egr.drops = s.egr.drops.drop 1 :=
  ⟨_, if_neg (not_not_intro hg), rfl⟩

theorem exec_egrLatePop_answers (hg : s.gate src .operator 13 = .ok) : Answers (.egrLatePop src) s src 0 .ok fun t =>
    t.egr.late = s.egr.late.drop 1 ∧ (t.egr.late = [] → t.get .EGR_H_LATE_ERR = 0) := by
  refine ⟨_, if_neg (not_not_intro hg), ?_⟩
  split
  · exact ⟨rfl, fun _ => State.get_set_same ..⟩
  · next h => exact ⟨rfl, fun he => absurd (List.isEmpty_iff.mpr he) h⟩

theorem effClassDelaySet_get (s : State) (p sel v : Nat) :
    (sel = 1 → (effClassDelaySet p sel v s).get .EGR_CLASS_H_DELAY_A p = v % 2 ^ Fld.EGR_CLASS_H_DELAY_A.width) ∧
      (sel ≠ 1 → (effClassDelaySet p sel v s).get .EGR_CLASS_H_DELAY_B p = v % 2 ^ Fld.EGR_CLASS_H_DELAY_B.width) := by
  refine ⟨fun h => ?_, fun h => ?_⟩
  · rw [effClassDelaySet, if_pos h]
    exact State.get_set_same ..
  · rw [effClassDelaySet, if_neg h]
    exact State.get_set_same ..

theorem exec_classDelaySet_recorded (hp : p < s.portCount) (hg : s.gate src .installer 13 = .ok) :
    Recorded (.classDelaySet p sel v src) s src 0
      (s.writeRec src (0x40003C + 0x400 * p) (v % 2 ^ 24 + 2 ^ 30 + sel % 2 * 2 ^ 31)) fun t =>
        (sel = 1 → t.get .EGR_CLASS_H_DELAY_A p = v % 2 ^ Fld.EGR_CLASS_H_DELAY_A.width) ∧
          (sel ≠ 1 → t.get .EGR_CLASS_H_DELAY_B p = v % 2 ^ Fld.EGR_CLASS_H_DELAY_B.width) := by
  refine .of_exec (eff := effClassDelaySet p sel v) (by simp [execClassDelaySet, hg, Nat.not_le.mpr hp]) fun _ => ?_
  rw [State.completed_get _ _ (by decide) (by decide), State.completed_get _ _ (by decide) (by decide)]
  exact effClassDelaySet_get s p sel v

end Ring

/-! ### The fence bit behind the refusals of a queue pair that stops (R264, R273, R277) -/

section FenceBit
variable (s : State)

theorem State.lateError_fence (q st dseq psn cause : Nat) :
    (s.lateError q st dseq psn cause).get .EGR_CTRL_FENCE = s.get .EGR_CTRL_FENCE := by
  unfold State.lateError
  extract_lets e t
  have ht : t.get .EGR_CTRL_FENCE = s.get .EGR_CTRL_FENCE :=
    State.sticky_get _ _ _ _ _ _ _ _ _ _ _ _ _ (by decide) (by decide)
  split
  · exact ht
  · rw [State.get_set_ne _ _ _ _ _ _ (by decide), State.get_inc_ne _ _ _ _ _ (by decide), ht]

theorem State.logDrop_fence (r : List Nat) (dseq cause : Nat) :
    (s.logDrop r dseq cause).get .EGR_CTRL_FENCE = s.get .EGR_CTRL_FENCE := by
  unfold State.logDrop
  split
  · rfl
  · rw [State.sticky_get _ _ _ _ _ _ _ _ _ _ _ _ _ (by decide) (by decide), State.get_inc_ne _ _ _ _ _ (by decide)]

theorem State.countDropped_fence (st source fseq n : Nat) :
    (s.countDropped st source fseq n).get .EGR_CTRL_FENCE = s.get .EGR_CTRL_FENCE :=
  (State.countDropped_upd s st source fseq n (W := 0x20000000000000000) (P := 0x408) (by decide) (.refl s)).cells _ _
    (by decide)

theorem State.countLost_fence (d : Delivery) : (s.countLost d).get .EGR_CTRL_FENCE = s.get .EGR_CTRL_FENCE :=
  (State.countLost_upd s d (W := 0x20000000000000000) (P := 0x408) (by decide) (.refl s)).cells _ _ (by decide)

theorem State.drop_fence (st source seq dseq cause row col bytes : Nat) (whole : Bool) :
    (s.drop st source seq dseq cause row col bytes whole).get .EGR_CTRL_FENCE = s.get .EGR_CTRL_FENCE := by
  unfold State.drop
  extract_lets r shown logged flagged counted more egr offered
  have hflag : flagged.get .EGR_CTRL_FENCE = s.get .EGR_CTRL_FENCE := by
    unfold flagged
    split
    · exact s.logDrop_fence ..
    · exact (State.sticky_get _ _ _ _ _ _ _ _ _ _ _ _ _ (by decide) (by decide)).trans (s.logDrop_fence ..)
  have hoffer : offered.get .EGR_CTRL_FENCE = s.get .EGR_CTRL_FENCE := by
    unfold offered counted
    split
    · exact hflag
    · exact (State.get_inc_ne _ _ _ _ _ (by decide)).trans hflag
  split
  · exact (State.countDropped_fence ..).trans hoffer
  · exact hoffer

theorem State.cutDelivery_fence (d : Delivery) (psn cause : Nat) :
    (s.cutDelivery d psn cause).get .EGR_CTRL_FENCE = s.get .EGR_CTRL_FENCE := by
  have hlate := (s.unqueue d).lateError_fence d.qp d.o.stream d.dseq psn cause
  unfold State.cutDelivery
  extract_lets t
  split
  · exact (State.countLost_fence ..).trans hlate
  · exact (State.onStrFrame_get ..).trans hlate

theorem State.refuseQueued_fence (d : Delivery) (cause : Nat) :
    (s.refuseQueued d cause).get .EGR_CTRL_FENCE = s.get .EGR_CTRL_FENCE := by
  unfold State.refuseQueued
  extract_lets left refused dropped
  have hrefused : refused.get .EGR_CTRL_FENCE = s.get .EGR_CTRL_FENCE := by
    unfold refused
    split
    · rfl
    · exact State.onStrFrame_get ..
  have hdropped : dropped.get .EGR_CTRL_FENCE = s.get .EGR_CTRL_FENCE := (State.drop_fence ..).trans hrefused
  split
  · exact State.get_inc_ne _ _ _ _ _ (by decide)
  split
  · exact (State.countLost_fence ..).trans hdropped
  · exact hdropped

theorem State.refuseHeads_fence (st n : Nat) : (s.refuseHeads st n).get .EGR_CTRL_FENCE = s.get .EGR_CTRL_FENCE := by
  induction n generalizing s with
  | zero => rfl
  | succ n ih =>
    unfold State.refuseHeads
    split
    · split
      · exact (ih _).trans (s.refuseQueued_fence ..)
      · rfl
    · rfl

theorem State.qpStop_fence (q cause : Nat) : (s.qpStop q cause).get .EGR_CTRL_FENCE = s.get .EGR_CTRL_FENCE := by
  unfold State.qpStop
  extract_lets first mine psnOf cut refused gone egr
  have hcut : cut.get .EGR_CTRL_FENCE = s.get .EGR_CTRL_FENCE :=
    State.foldl_get _ _ _ _ _ fun t d => t.cutDelivery_fence ..
  have hrefused : refused.get .EGR_CTRL_FENCE = s.get .EGR_CTRL_FENCE := by
    unfold refused
    split
    · exact (State.foldl_get _ _ _ _ _ fun t d => t.refuseQueued_fence ..).trans hcut
    · exact (State.foldl_get _ _ _ _ _ fun t st => t.refuseHeads_fence ..).trans hcut
  have hgone : gone.get .EGR_CTRL_FENCE = refused.get .EGR_CTRL_FENCE := (State.brgQpGone_upd refused q
    (W := 0x100000000000000001) (P := 0x100802) (by decide) (.refl _)).cells .EGR_CTRL_FENCE 0 (by decide)
  rw [State.get_with_egr, hgone, hrefused]

theorem effQpReset_fence (q : Nat) : (effQpReset q s).get .EGR_CTRL_FENCE = s.get .EGR_CTRL_FENCE := by
  rw [effQpReset, State.brgQpReset_get, State.qpStop_fence]
  exact State.get_set_ne _ _ _ _ _ _ (by decide)

end FenceBit

/-! ### Fence, reset and counters (R277, R515) -/

section Control
variable {s : State} {src : Src}

/-- The fence takes control queue pair `q` out of RTS. -/
def State.fenceQp (s : State) (q : Nat) : State :=
  if s.on .EGR_QP_CFG_CTRL q && s.get .EGR_QP_STATUS_STATE q == 1 then effQpReset q s else s

theorem State.fenceQp_fence (s : State) (q : Nat) : (s.fenceQp q).get .EGR_CTRL_FENCE = s.get .EGR_CTRL_FENCE := by
  unfold State.fenceQp
  split
  · exact effQpReset_fence s q
  · rfl

theorem State.fenceQp_ctrl (s : State) (q i : Nat) : (s.fenceQp q).get .EGR_QP_CFG_CTRL i = s.get .EGR_QP_CFG_CTRL i := by
  unfold State.fenceQp
  split
  · exact (effQpReset_get s q _ _ (by decide)).trans (State.get_set_ne _ _ _ _ _ _ (by decide))
  · rfl

/-- A control queue pair is out of RTS once the fence has come to it. -/
theorem State.fenceQp_state (s : State) (q : Nat) (h : (s.fenceQp q).get .EGR_QP_CFG_CTRL q ≠ 0) :
    (s.fenceQp q).get .EGR_QP_STATUS_STATE q ≠ 1 := by
  rw [State.fenceQp_ctrl] at h
  unfold State.fenceQp
  split
  · rw [effQpReset_state]
    decide
  · next hn => simpa [State.on, h] using hn

/-- The fence of another queue pair puts none in RTS. -/
theorem State.fenceQp_state_other (s : State) (q i : Nat) (h : s.get .EGR_QP_STATUS_STATE i ≠ 1) :
    (s.fenceQp q).get .EGR_QP_STATUS_STATE i ≠ 1 := by
  unfold State.fenceQp
  split
  · rw [effQpReset_get _ _ _ _ (by decide)]
    by_cases hq : q = i
    · rw [hq, State.get_set_same]
      decide
    · rwa [State.get_set_inst _ _ _ _ _ _ hq]
  · exact h

theorem effEgrFence_fence (s : State) : (effEgrFence s).get .EGR_CTRL_FENCE = 1 :=
  (State.foldl_get _ State.fenceQp _ _ _ fun t q => t.fenceQp_fence q).trans (State.get_set_same ..)

theorem effEgrFence_ctrl (s : State) (i : Nat) : (effEgrFence s).get .EGR_QP_CFG_CTRL i = s.get .EGR_QP_CFG_CTRL i :=
  (State.foldl_get _ State.fenceQp _ _ _ fun t q => t.fenceQp_ctrl q i).trans (State.get_set_ne _ _ _ _ _ _ (by decide))

theorem effEgrFence_state (s : State) {q : Nat} (hq : q < 256) (hc : s.on .EGR_QP_CFG_CTRL q = true) :
    (effEgrFence s).get .EGR_QP_STATUS_STATE q ≠ 1 := by
  have hout : (effEgrFence s).get .EGR_QP_CFG_CTRL q ≠ 0 → (effEgrFence s).get .EGR_QP_STATUS_STATE q ≠ 1 :=
    foldl_of_mem (P := fun t : State => t.get .EGR_QP_CFG_CTRL q ≠ 0 → t.get .EGR_QP_STATUS_STATE q ≠ 1)
      (List.mem_range.mpr hq) (fun t => t.fenceQp_state q)
      (fun t r _ ht h => t.fenceQp_state_other r q (ht (t.fenceQp_ctrl r q ▸ h))) _
  refine hout ?_
  rw [effEgrFence_ctrl]
  simpa [State.on] using hc

theorem exec_egrFence_recorded (hg : s.gate src .installer 13 = .ok) :
    Recorded (.egrFence src) s src 0 (s.writeRec src 0x430000 1) fun t => t.get .EGR_CTRL_FENCE = 1 ∧
      ∀ q < 256, s.on .EGR_QP_CFG_CTRL q = true → t.get .EGR_QP_STATUS_STATE q ≠ 1 := by
  refine .of_exec (eff := effEgrFence) (if_neg (not_not_intro hg)) fun _ => ⟨?_, fun q hq hc => ?_⟩
  · exact (State.completed_get _ _ (by decide) (by decide)).trans (effEgrFence_fence s)
  · rw [State.completed_get _ _ (by decide) (by decide)]
    exact effEgrFence_state s hq hc

theorem exec_egrReset_recorded (hg : s.gate src .installer 13 = .ok) :
    Recorded (.egrReset src) s src 0 (s.writeRec src 0x430000 2) fun t => t.get .PWR_H_RESETTING 13 = 1 := by
  refine .of_exec (eff := effEgrReset) (if_neg (not_not_intro hg)) fun _ => ?_
  exact (State.completed_get _ _ (by decide) (by decide)).trans (State.blockReset_resetting _ 13)

theorem exec_egrFenceDone_completes (hf : s.on .EGR_CTRL_FENCE = true) (hq : s.egr.queue = []) :
    Completes .egrFenceDone s fun t => t.get .EGR_CTRL_FENCED = 1 :=
  ⟨_, if_pos (by simp [hf, hq]), State.get_set_same ..⟩

theorem exec_egrFenceDone_idle (h : s.on .EGR_CTRL_FENCE = false ∨ s.egr.queue ≠ []) :
    exec .egrFenceDone s = .next s := by
  refine if_neg ?_
  rcases h with h | h <;> simp [h]

/-- The counters of a port that `CLR_CNT` clears. -/
def egrPortCounters : List Fld := [.EGR_PORT_CNT_TX, .EGR_PORT_CNT_RXBAD, .EGR_PORT_CNT_PAUSE, .EGR_PORT_CNT_CE]

/-- The counters of a stream and of a queue pair that it clears. -/
def egrStreamCounters : List Fld := [.EGR_STR_CNT_DELIV, .EGR_STR_CNT_DROP, .EGR_QP_CNT_RETX, .EGR_QP_CNT_CNP]

theorem State.egrClrCnt_port (s : State) : ∀ p < 8, ∀ f ∈ egrPortCounters, s.egrClrCnt.get f p = 0 := by
  intro p hp f hf
  have hport : ∀ g ∈ egrPortCounters, g.id = f.id → g = f :=
    fun g hg => (by decide : ∀ f ∈ egrPortCounters, ∀ g ∈ egrPortCounters, g.id = f.id → g = f) f hf g hg
  have hstr : ∀ g ∈ egrStreamCounters, g.id = f.id → g = f :=
    fun g hg => (by decide : ∀ f ∈ egrPortCounters, ∀ g ∈ egrStreamCounters, g.id = f.id → g = f) f hf g hg
  exact List.foldlRecOn (motive := fun t : State => t.get f p = 0) _ _
    (foldl_of_mem (P := fun t : State => t.get f p = 0) (List.mem_range.mpr hp) (State.foldl_clear_get hf hport p)
      (fun _ _ _ => State.foldl_clear_zero hport) s) fun _ ht _ _ => State.foldl_clear_zero hstr ht

theorem State.egrClrCnt_stream (s : State) : ∀ i < 256, ∀ f ∈ egrStreamCounters, s.egrClrCnt.get f i = 0 := by
  intro i hi f hf
  have hinj : ∀ g ∈ egrStreamCounters, g.id = f.id → g = f :=
    fun g hg => (by decide : ∀ f ∈ egrStreamCounters, ∀ g ∈ egrStreamCounters, g.id = f.id → g = f) f hf g hg
  rw [State.egrClrCnt]
  exact foldl_of_mem (P := fun t : State => t.get f i = 0) (List.mem_range.mpr hi) (State.foldl_clear_get hf hinj i)
    (fun _ _ _ => State.foldl_clear_zero hinj) _

theorem exec_egrClrCnt_answers (hg : s.gate src .operator 13 = .ok) : Answers (.egrClrCnt src) s src 0 .ok fun t =>
    (∀ p < 8, ∀ f ∈ egrPortCounters, t.get f p = 0) ∧ ∀ i < 256, ∀ f ∈ egrStreamCounters, t.get f i = 0 :=
  ⟨_, if_neg (not_not_intro hg), s.egrClrCnt_port, s.egrClrCnt_stream⟩

end Control

end Sys2Proof.Machine

open Sys2Proof Sys2Proof.Machine

/-- Settles O49: queue pairs, links and frames, rings and logs, the delay threshold, and fence, reset and counters, each by
its law above. -/
theorem egressPortCommandsComplete : Obligations.EgressPortCommandsComplete :=
  ⟨fun _ _ _ hq hg => ⟨exec_qpEnable_recorded hg, exec_qpReset_recorded hq hg⟩,
    fun p _ _ _ s => ⟨exec_egressLinkDown_completes, exec_egressLinkDown_idle, exec_egressLinkUp_outside,
      exec_egressLinkUp_completes, exec_pauseFrameReceived_completes, exec_pauseFrameReceived_ignored,
      exec_rxFrameDiscard_completes s p⟩,
    fun st c _ s hg => ⟨fun h0 h1 => ⟨_, exec_strConsWrite_answers hg h0 h1, s.consReturn_spec st c⟩,
      exec_egrDropPop_answers hg, exec_egrLatePop_answers hg⟩,
    fun _ _ _ _ _ => exec_classDelaySet_recorded,
    fun _ _ => ⟨fun hg => ⟨exec_egrFence_recorded hg, exec_egrReset_recorded hg⟩, exec_egrFenceDone_completes,
      exec_egrFenceDone_idle, exec_egrClrCnt_answers⟩⟩

end

section
/-! PROOFS. Messages, pieces and read-ahead of the host window bridge (O25). -/

namespace Sys2Proof.Machine

/-! ### A SEND packet of a message (11_host_window_bridge.md R279; 10_egress_delivery.md R253, R263) -/

section Packet
variable {s u : State} {q : Nat} {pos : SendPos} {data l : List Nat} {ce : Bool} {mine : List Nat → Bool}
  {act : State → List Nat → State}

/-- The message that queue pair `q` has in parts is now `l`. -/
def State.keepParts (u : State) (q : Nat) (l : List Nat) : State :=
  { u with egr := { u.egr with parts := tabPut u.egr.parts q l } }

/-- A packet that fits joins the message that `kept` holds of it. -/
def State.joinPacket (u : State) (q : Nat) (data : List Nat) (mine : List Nat → Bool) (act : State → List Nat → State)
    (pos : SendPos) (kept : Option (List Nat)) : State :=
  match pos, kept with
  | .only, _ => if mine data then act (u.completeMsg q) data else u
  | .first, _ => if mine data then u.keepParts q data else u
  | .middle, some l => u.keepParts q (l ++ data)
  | .last, some l => if mine (l ++ data) then act (u.completeMsg q) (l ++ data) else u
  | _, none => u

theorem State.joinPacket_none (h : pos = .middle ∨ pos = .last) : u.joinPacket q data mine act pos none = u := by
  rcases h with rfl | rfl <;> rfl

theorem State.joinPacket_other (h : pos = .only ∨ pos = .first) (hm : mine data = false) (kept : Option (List Nat)) :
    u.joinPacket q data mine act pos kept = u := by
  rcases h with rfl | rfl <;> exact if_neg (ne_true_of_eq_false hm)

theorem State.sendPacket_unready (h : s.ctlReady q = false) : s.sendPacket q pos data ce mine act = s :=
  if_pos (by rw [h]; rfl)

section Ready
variable (hr : s.ctlReady q = true) (hu : u = s.countCe q ce)
include hr hu

theorem State.sendPacket_tooLong (h : 9216 < u.sendFrame q data.length) :
    s.sendPacket q pos data ce mine act = u.inc .EGR_PORT_CNT_RXBAD (u.get .EGR_QP_CFG_PORT q) := by
  rw [State.sendPacket, hr, ← hu]
  exact if_pos h

theorem State.sendPacket_overMtu (hf : u.sendFrame q data.length ≤ 9216) (h : u.qpMtu q < data.length) :
    s.sendPacket q pos data ce mine act =
      ({ u with egr := { u.egr with parts := tabErase u.egr.parts q } } : State).badMessage q := by
  rw [State.sendPacket, hr, ← hu]
  exact (if_neg (Nat.not_lt.mpr hf)).trans (if_pos h)

variable (hf : u.sendFrame q data.length ≤ 9216) (hm : data.length ≤ u.qpMtu q)
include hf hm

theorem State.sendPacket_joins :
    s.sendPacket q pos data ce mine act = u.joinPacket q data mine act pos (u.partsOf q) := by
  have hparts : u.partsOf q = s.partsOf q := by rw [hu, State.partsOf, State.countCe_egr]; rfl
  rw [State.sendPacket, hr, ← hu, hparts]
  exact (if_neg (Nat.not_lt.mpr hf)).trans (if_neg (Nat.not_lt.mpr hm))

theorem State.sendPacket_only (hd : mine data = true) :
    s.sendPacket q .only data ce mine act = act (u.completeMsg q) data :=
  (State.sendPacket_joins hr hu hf hm).trans (if_pos hd)

end Ready

end Packet

/-! ### Credit blocks and bad messages (R258, R279) -/

section Credit
variable {s v : State} {q : Nat} {data : List Nat} {ce : Bool}

theorem State.creditIn_formed (h : messageFormed data = true) : v.creditIn q data =
    (List.range (data.getD 1 0)).foldl (fun s i => s.credit (data.drop (8 + 8 * i))) v := if_neg (by simp [h])

theorem State.creditIn_malformed (h : messageFormed data = false) : v.creditIn q data = v.badMessage q :=
  if_pos (by simp [h])

/-- Receiving a message counts and reports nothing but its place in arrival order. -/
theorem State.completeMsg_get (s : State) (q : Nat) (f : Fld) (i : Nat) (h : Fld.BRG_H_ORDER.id ≠ f.id) :
    (s.completeMsg q).get f i = s.get f i := State.get_bump_ne _ _ _ _ _ _ h

theorem State.completeMsg_brg (s : State) (q : Nat) : (s.completeMsg q).brg = s.brg := rfl

theorem State.badMessage_count (s : State) (q : Nat) :
    (s.badMessage q).get .BRG_CNT_BAD = min (s.get .BRG_CNT_BAD + 1) (2 ^ 32 - 1) := by
  rw [State.badMessage, State.brgEvent, State.sticky_get _ _ _ _ _ _ _ _ _ _ _ _ _ (by decide) (by decide)]
  exact State.get_inc_same ..

theorem State.badMessage_received_count (s : State) (q : Nat) (ce : Bool) :
    (((s.countCe q ce).completeMsg q).badMessage q).get .BRG_CNT_BAD = min (s.get .BRG_CNT_BAD + 1) (2 ^ 32 - 1) := by
  rw [State.badMessage_count, State.completeMsg_get _ _ _ _ (by decide), State.countCe_get _ _ _ _ _ (by decide)]

end Credit

/-! ### Access requests (R280, R282, R286) -/

section Access
variable {v : State} {q : Nat} {data : List Nat}

theorem State.accessIn_malformed (h : messageFormed data = false) : v.accessIn q data = v.badMessage q :=
  if_pos (by simp [h])

section Formed
variable (hw : messageFormed data = true)
include hw

theorem State.accessIn_unauthentic (ha : v.authCheck data = .discard) : v.accessIn q data = v.authFail q data := by
  rw [State.accessIn, hw, ha]
  exact if_neg Bool.false_ne_true

theorem State.accessIn_refused {st : Status} (ha : v.authCheck data = .refuse st) :
    v.accessIn q data = (v.acceptCounter data).brgReply (v.requestOf q data) st 0 0 0 [] := by
  rw [State.accessIn, hw, ha]
  exact if_neg Bool.false_ne_true

theorem State.accessIn_accepted (ha : v.authCheck data = .accept) : v.accessIn q data =
    (let u := v.acceptCounter data
     if v.admitAccess (v.requestOf q data) (leAt data 20 8) = .ok then
       ({ u with brg := { u.brg with wait := u.brg.wait ++ [v.requestOf q data] } } : State).brgStart
     else u.brgReply (v.requestOf q data) (v.admitAccess (v.requestOf q data) (leAt data 20 8)) 0 0 0 []) := by
  rw [State.accessIn, hw, ha]
  exact (if_neg Bool.false_ne_true).trans (ite_not ..)

end Formed

end Access

/-! ### Commands (R279, R294) -/

section Command
variable {v : State} {q : Nat} {data : List Nat}

theorem State.commandIn_malformed (h : messageFormed data = false) : v.commandIn q data = v.badMessage q :=
  if_pos (by simp [h])

/-- The command of a message that has come as one whole. -/
def State.hostCmdOf (v : State) (q : Nat) (data : List Nat) : HostCmd :=
  ⟨q, v.get .BRG_H_ORDER, data.getD 1 0, leAt data 2 2, leAt data 4 8, leAt data 12 4, data.getD 16 0⟩

section Formed
variable (hw : messageFormed data = true)
include hw

theorem State.commandIn_unauthentic (ha : v.authCheck data = .discard) : v.commandIn q data = v.authFail q data := by
  rw [State.commandIn, hw, ha]
  exact if_neg Bool.false_ne_true

theorem State.commandIn_refused {st : Status} (ha : v.authCheck data = .refuse st) :
    v.commandIn q data = (v.acceptCounter data).cmdRefuse q data st := by
  rw [State.commandIn, hw, ha]
  exact if_neg Bool.false_ne_true

variable (ha : v.authCheck data = .accept)
include ha

/-- What serves a command that authenticates, by the status `st` that the bridge and firmware give it. -/
theorem State.commandIn_accepted {st : Status} (hst : (if v.unitDown 14 then .targetReset else v.commandCheck data) = st) :
    v.commandIn q data = let u := v.acceptCounter data
      if st ≠ .ok then u.cmdRefuse q data st
      else { u with brg := { u.brg with cmds := u.brg.cmds ++ [v.hostCmdOf q data] } } := by
  rw [State.commandIn, hw, ha, ← hst]
  rfl

theorem State.commandIn_down (hd : v.unitDown 14 = true) :
    v.commandIn q data = (v.acceptCounter data).cmdRefuse q data .targetReset :=
  State.commandIn_accepted hw ha (if_pos hd)

section Running
variable (hd : v.unitDown 14 = false)
include hd

theorem State.commandIn_unserved (hc : v.commandCheck data ≠ .ok) :
    v.commandIn q data = (v.acceptCounter data).cmdRefuse q data (v.commandCheck data) :=
  (State.commandIn_accepted hw ha (if_neg (ne_true_of_eq_false hd))).trans (if_pos hc)

theorem State.commandIn_passed (hc : v.commandCheck data = .ok) :
    (v.commandIn q data).brg.cmds = v.brg.cmds ++ [v.hostCmdOf q data] := by
  rw [State.commandIn_accepted hw ha ((if_neg (ne_true_of_eq_false hd)).trans hc)]
  rfl

end Running

end Formed

end Command

/-! ### A whole message comes to its command -/

section Whole
variable {s : State} {q : Nat} {data : List Nat} {ce : Bool} (hr : s.ctlReady q = true)
  (hf : (s.countCe q ce).sendFrame q data.length ≤ 9216) (hm : data.length ≤ (s.countCe q ce).qpMtu q)
include hr hf hm

theorem exec_creditBlock_whole (hd : data.getD 0 0 = 0x01) : exec (.creditBlock q ⟨.only, ce, data⟩) s =
    .next (((s.countCe q ce).completeMsg q).creditIn q data) :=
  congrArg Host.Outcome.next (State.sendPacket_only hr rfl hf hm (beq_iff_eq.mpr hd))

theorem exec_badMessage_whole (hw : messageFormed data = false) : exec (.badMessage q ⟨.only, ce, data⟩) s =
    .next (((s.countCe q ce).completeMsg q).badMessage q) :=
  congrArg Host.Outcome.next (State.sendPacket_only (mine := fun m => !messageFormed m) hr rfl hf hm (by rw [hw]; rfl))

theorem exec_accessRequest_whole (hd : data.getD 0 0 = 0x10) : exec (.accessRequest q ⟨.only, ce, data⟩) s =
    .next (((s.countCe q ce).completeMsg q).accessIn q data) :=
  congrArg Host.Outcome.next (State.sendPacket_only hr rfl hf hm (beq_iff_eq.mpr hd))

theorem exec_commandMessage_whole (hd : data.getD 0 0 = 0x20) : exec (.commandMessage q ⟨.only, ce, data⟩) s =
    .next (((s.countCe q ce).completeMsg q).commandIn q data) :=
  congrArg Host.Outcome.next (State.sendPacket_only hr rfl hf hm (beq_iff_eq.mpr hd))

end Whole

/-! ### Pieces (R286, R287, R292) -/

section Pieces
variable {s : State} {k addr : Nat} {err : MemErr} {r : BrgReq} {p : Piece}

theorem exec_pieceComplete_open (h : s.openPiece k addr = some (r, p)) :
    exec (.pieceComplete k addr err) s = .next (s.pieceAt k r p err) := by
  rw [exec_pieceComplete, execPieceComplete, h]

/-- The limit from a piece's issue to its completion has passed. -/
def State.pieceOverdue (s : State) (p : Piece) : Prop :=
  p.issued.getD 0 + s.get .BRG_TIMEOUT_BRG_TIMEOUT_US * 1000 ≤ s.elapsed

theorem exec_pieceTimeout_overdue (h : s.openPiece k addr = some (r, p)) (ht : s.pieceOverdue p) :
    exec (.pieceTimeout k addr) s =
      .next ((({ s with brg := { s.brg with late := s.brg.late ++ [lateOf k r p false] } } : State).brgEvent 1 r.qp
        r.session r.tag (statusCode .timeout)).pieceDone k addr .timeout []) := by
  rw [exec_pieceTimeout, execPieceTimeout, h]
  exact if_neg (Nat.not_lt.mpr ht)

theorem exec_pieceTimeout_early (h : s.openPiece k addr = some (r, p))
    (ht : s.elapsed < p.issued.getD 0 + s.get .BRG_TIMEOUT_BRG_TIMEOUT_US * 1000) :
    exec (.pieceTimeout k addr) s = .next s := by
  rw [exec_pieceTimeout, execPieceTimeout, h]
  exact if_pos ht

section Closed
variable (h : s.openPiece k addr = none)
include h

theorem exec_pieceTimeout_closed : exec (.pieceTimeout k addr) s = .next s := by
  rw [exec_pieceTimeout, execPieceTimeout, h]

theorem exec_pieceComplete_late {e : LatePiece}
    (hl : s.brg.late.find? (fun e => e.slot == k && e.addr == addr) = some e) :
    exec (.pieceComplete k addr err) s = .next (s.lateAt e) := by
  rw [exec_pieceComplete, execPieceComplete, h, hl]

theorem exec_pieceComplete_unknown (hl : s.brg.late.find? (fun e => e.slot == k && e.addr == addr) = none) :
    exec (.pieceComplete k addr err) s = .next s := by
  rw [exec_pieceComplete, execPieceComplete, h, hl]

end Closed

end Pieces

/-! ### Read-ahead (R290) -/

section ReadAhead
variable {s : State} {q w : Nat} {h : ReadAhead}

theorem exec_readaheadExpiry_of_none (hn : s.brg.ahead.find? (fun e => e.1 == q) = none) :
    exec (.readaheadExpiry q) s = .next s := by
  rw [exec_readaheadExpiry, execReadaheadExpiry, hn]

theorem State.countDiscard_brg (s : State) (q session : Nat) (l : List (Nat × Nat)) :
    (s.countDiscard q session l).brg = s.brg :=
  (State.countDiscard_upd s q session l (W := 0x100000000000000001) (P := 0x100002) (by decide) (.refl s)).parts.brg
    (by decide)

section Held
variable (hh : s.brg.ahead.find? (fun e => e.1 == q) = some (w, h))
include hh

theorem State.dropAhead_ahead : (s.dropAhead q).brg.ahead = tabErase s.brg.ahead q := by
  rw [State.dropAhead, hh]
  exact congrArg BrgS.ahead (State.countDiscard_brg ..)

theorem exec_readaheadExpiry_young (ht : s.elapsed < h.time + 100000) : exec (.readaheadExpiry q) s = .next s := by
  rw [exec_readaheadExpiry, execReadaheadExpiry, hh]
  exact if_neg (Nat.not_le.mpr ht)

theorem exec_readaheadExpiry_discards (ht : h.time + 100000 ≤ s.elapsed) :
    Completes (.readaheadExpiry q) s fun t => t = s.dropAhead q ∧ t.brg.ahead = tabErase s.brg.ahead q := by
  refine ⟨_, ?_, rfl, State.dropAhead_ahead hh⟩
  rw [exec_readaheadExpiry, execReadaheadExpiry, hh]
  exact if_pos ht

end Held

end ReadAhead

end Sys2Proof.Machine

open Sys2Proof Sys2Proof.Machine

/-- Settles O25: the four message commands all come to `State.sendPacket`; a whole message is then served by what its type
says, and pieces and read-ahead follow the laws above. -/
theorem bridgeMessageCommandsComplete : Obligations.BridgeMessageCommandsComplete := by
  refine ⟨?_, ?_, ?_, ?_, ?_, ?_, ?_⟩
  -- a packet of any of the four commands
  · intro q pos data ce s c mine act hc
    have hexec : exec c s = .next (s.sendPacket q pos data ce mine act) := by
      rcases hc with ⟨rfl, rfl, rfl⟩ | ⟨rfl, rfl, rfl⟩ | ⟨rfl, rfl, rfl⟩ | ⟨rfl, rfl, rfl⟩ <;> rfl
    rw [hexec]
    refine ⟨fun h => by rw [State.sendPacket_unready h], fun u hr hu => ⟨fun h => by rw [State.sendPacket_tooLong hr hu h],
      fun hf h => by rw [State.sendPacket_overMtu hr hu hf h], fun hf hm => ?_⟩⟩
    rw [State.sendPacket_joins hr hu hf hm]
    refine ⟨?_, ?_, ?_, ?_, ?_, ?_⟩
    · rintro rfl hd
      exact congrArg _ (if_pos hd)
    · rintro rfl hd
      exact congrArg _ (if_pos hd)
    · intro hp hd
      rw [State.joinPacket_other hp hd]
    · rintro l hl rfl
      rw [hl]
      rfl
    · rintro l hl rfl
      rw [hl]
      rfl
    · intro hl hp
      rw [hl, State.joinPacket_none hp]
  -- a whole credit block, and a whole message that is not well formed
  · intro q data ce s hr hf hm
    refine ⟨fun hd hw => ?_, fun hd hw => ?_, fun hw => ?_⟩
    · rw [exec_creditBlock_whole hr hf hm hd, State.creditIn_formed hw]
    · rw [exec_creditBlock_whole hr hf hm hd, State.creditIn_malformed hw]
    · exact ⟨_, exec_badMessage_whole hr hf hm hw, State.badMessage_received_count s q ce⟩
  -- a whole access request
  · rintro q data ce s v hr hf hm hd rfl
    rw [exec_accessRequest_whole hr hf hm hd]
    exact ⟨fun hw => by rw [State.accessIn_malformed hw], fun hw => ⟨fun ha => by rw [State.accessIn_unauthentic hw ha],
      fun st ha => by rw [State.accessIn_refused hw ha], fun ha => by rw [State.accessIn_accepted hw ha]⟩⟩
  -- a whole command
  · rintro q data ce s v hr hf hm hd rfl
    have hexec := exec_commandMessage_whole hr hf hm hd
    refine ⟨fun hw => by rw [hexec, State.commandIn_malformed hw], fun hw =>
      ⟨fun ha => by rw [hexec, State.commandIn_unauthentic hw ha], fun st ha => by rw [hexec, State.commandIn_refused hw ha],
        fun ha hdown => by rw [hexec, State.commandIn_down hw ha hdown],
        fun ha hup hc => by rw [hexec, State.commandIn_unserved hw ha hup hc], fun ha hup hc =>
          ⟨_, hexec, (State.commandIn_passed hw ha hup hc).trans ?_⟩⟩⟩
    rw [State.completeMsg_brg, State.countCe_brg]
    rfl
  -- pieces
  · exact fun k addr err r p s h => ⟨exec_pieceComplete_open h, exec_pieceTimeout_overdue h, exec_pieceTimeout_early h⟩
  · exact fun k addr err s h => ⟨fun e => exec_pieceComplete_late h, exec_pieceComplete_unknown h, exec_pieceTimeout_closed h⟩
  -- read-ahead
  · exact fun q s => ⟨exec_readaheadExpiry_of_none,
      fun w h hh => ⟨exec_readaheadExpiry_young hh, exec_readaheadExpiry_discards hh⟩⟩

end

section
/-! PROOFS. The state after device reset (O3). -/

namespace Sys2Proof.Machine

/-- Device reset lists one cell, `BRG_WIN_CFG.EN` of window 0 (11_host_window_bridge.md R284); every other cell reads the
reset value of its field. -/
theorem State.reset_get (f : Fld) (i : Nat) :
    State.reset.get f i = if Fld.BRG_WIN_CFG_EN.id = f.id ∧ 0 = i then 1 else f.reset := by
  have hcell : State.reset.get f i = if (Fld.BRG_WIN_CFG_EN.id, 0) = (f.id, i) then 1 else f.reset := rfl
  rw [hcell]
  simp only [Prod.mk.injEq]

end Sys2Proof.Machine

open Sys2Proof Sys2Proof.Machine

/-- Settles O3: the cells by the law above; the queues and tables are those that `State.reset` lists. -/
theorem resetLeavesResetValues : Obligations.ResetLeavesResetValues :=
  ⟨fun f i h => (State.reset_get f i).trans (if_neg fun ⟨hf, hi⟩ => h ⟨hf.symm, hi.symm⟩),
    (State.reset_get _ _).trans (if_pos ⟨rfl, rfl⟩), rfl, rfl, rfl, rfl, rfl⟩

end

section
/-! PROOFS. Windows, fence, reset and counters of the host window bridge (O24). -/

namespace Sys2Proof.Machine

/-! ### Cells that read-ahead and completions leave -/

/-- The cells of the bridge that change when read-ahead is discarded (R290): the count and the event. -/
def discardCells : List Fld := [.BRG_PREFETCH_DISCARD, .BRG_EVENTS_EV]

section Cells
variable (s : State) {f : Fld} (i : Nat) (hp : f.page ≠ 0) (h : ∀ g ∈ discardCells, g.id ≠ f.id)
include hp h

theorem State.countDiscard_get (q session : Nat) (l : List (Nat × Nat)) :
    (s.countDiscard q session l).get f i = s.get f i := by
  unfold State.countDiscard
  split
  · rfl
  · exact (State.sticky_get _ _ _ _ _ _ _ _ _ _ _ _ _ hp (h _ (by decide))).trans
      (State.get_add_ne _ _ _ _ _ (h _ (by decide)))

theorem State.dropAhead_get (q : Nat) : (s.dropAhead q).get f i = s.get f i := by
  unfold State.dropAhead
  split
  · rfl
  · exact State.countDiscard_get _ i hp h ..

theorem State.dropAheadIf_get (p : Nat → ReadAhead → Bool) : (s.dropAheadIf p).get f i = s.get f i :=
  State.foldl_get _ _ _ _ _ fun t e => t.dropAhead_get i hp h e.1

end Cells

/-- Where the management processor acts, the completion changes no cell at all. -/
theorem State.completed_get_mgt {src : Src} (hm : src.ini = .mgt) (s : State) (cmd : Nat) (eff : State → State) (f : Fld)
    (i : Nat) : (s.completed src cmd eff).get f i = (eff s).get f i := by
  unfold State.completed
  dsimp only
  split
  · rfl
  · rw [State.answer_mgt _ _ _ _ hm, State.emit_get]

theorem State.keepSetting_get (s : State) (addr v : Nat) (f : Fld) (i : Nat) :
    (s.keepSetting addr v).get f i = s.get f i := rfl

/-! ### Windows (R284) -/

section Window
variable {s : State} {w : Nat}

/-- The window takes a base and a configuration. -/
def State.winTake (s : State) (w base cfg : Nat) : State :=
  winFields.foldl (fun s f => s.set f.1 w (bits cfg f.2.1 f.2.2)) (s.set .BRG_WIN_BASE w base)

/-- The configuration's fields are all that changes beside the base. -/
theorem State.winTake_get (s : State) (w base cfg : Nat) {f : Fld} (i : Nat) (h : ∀ c ∈ winFields, c.1.id ≠ f.id) :
    (s.winTake w base cfg).get f i = (s.set .BRG_WIN_BASE w base).get f i :=
  List.foldlRecOn (motive := fun t : State => t.get f i = (s.set .BRG_WIN_BASE w base).get f i) _ _ rfl
    fun _ ht c hc => (State.get_set_ne _ _ _ _ _ _ (h c hc)).trans ht

theorem State.winApply_waits (h : s.winFree w = false ∨ s.on .BRG_WIN_STATUS_PENDING w = false) : s.winApply w = s :=
  if_neg (by rcases h with h | h <;> simp [h])

/-- Keeping the settings changes no cell, and discarding read-ahead none of the window's. -/
theorem State.winApply_get (hp : s.get .BRG_WIN_STATUS_PENDING w = 1) (hw : s.winFree w = true) {f : Fld} (i : Nat)
    (hf : f.page ≠ 0) (h : ∀ g ∈ discardCells, g.id ≠ f.id) : (s.winApply w).get f i =
      ((s.winTake w (s.get .BRG_WIN_P_BASE w) (s.get .BRG_WIN_P_CFG w)).set .BRG_WIN_STATUS_PENDING w 0).get f i := by
  rw [State.winApply, if_pos (by simp [State.on, hp, hw])]
  dsimp only
  rw [State.keepSetting_get, State.keepSetting_get, State.keepSetting_get, State.dropAheadIf_get _ i hf h]
  rfl

theorem State.winApply_base (hp : s.get .BRG_WIN_STATUS_PENDING w = 1) (hw : s.winFree w = true) :
    (s.winApply w).get .BRG_WIN_BASE w = s.get .BRG_WIN_P_BASE w % 2 ^ Fld.BRG_WIN_BASE.width := by
  rw [State.winApply_get hp hw _ (by decide) (by decide), State.get_set_ne _ _ _ _ _ _ (by decide),
    State.winTake_get _ _ _ _ _ (by decide), State.get_set_same]

theorem State.winApply_pending (hp : s.get .BRG_WIN_STATUS_PENDING w = 1) (hw : s.winFree w = true) :
    (s.winApply w).get .BRG_WIN_STATUS_PENDING w = 0 := by
  rw [State.winApply_get hp hw _ (by decide) (by decide), State.get_set_same, Nat.zero_mod]

/-- That a window has staged values does not change when pending ones apply. -/
theorem State.winApply_have (hp : s.get .BRG_WIN_STATUS_PENDING w = 1) (hw : s.winFree w = true) :
    (s.winApply w).get .BRG_WIN_S_HAVE w = s.get .BRG_WIN_S_HAVE w := by
  rw [State.winApply_get hp hw _ (by decide) (by decide), State.get_set_ne _ _ _ _ _ _ (by decide),
    State.winTake_get _ _ _ _ _ (by decide), State.get_set_ne _ _ _ _ _ _ (by decide)]

/-- The staged values of a window become pending. -/
def State.winPend (s : State) (w : Nat) : State :=
  (((s.set .BRG_WIN_P_BASE w (s.winStaged w).1).set .BRG_WIN_P_CFG w (s.winStaged w).2).set
    .BRG_WIN_STATUS_PENDING w 1).set .BRG_WIN_S_HAVE w 0

theorem State.winPend_free (s : State) (w : Nat) : (s.winPend w).winFree w = s.winFree w := rfl

theorem State.winPend_have (s : State) (w : Nat) : (s.winPend w).get .BRG_WIN_S_HAVE w = 0 := State.get_set_same ..

theorem State.winPend_pending (s : State) (w : Nat) : (s.winPend w).get .BRG_WIN_STATUS_PENDING w = 1 :=
  (State.get_set_ne _ _ _ _ _ _ (by decide)).trans (State.get_set_same ..)

theorem State.winPend_cfg (s : State) (w : Nat) :
    (s.winPend w).get .BRG_WIN_P_CFG w = (s.winStaged w).2 % 2 ^ Fld.BRG_WIN_P_CFG.width := by
  rw [State.winPend, State.get_set_ne _ _ _ _ _ _ (by decide), State.get_set_ne _ _ _ _ _ _ (by decide),
    State.get_set_same]

theorem State.winPend_base (s : State) (w : Nat) :
    (s.winPend w).get .BRG_WIN_P_BASE w = (s.winStaged w).1 % 2 ^ Fld.BRG_WIN_P_BASE.width := by
  rw [State.winPend, State.get_set_ne _ _ _ _ _ _ (by decide), State.get_set_ne _ _ _ _ _ _ (by decide),
    State.get_set_ne _ _ _ _ _ _ (by decide), State.get_set_same]

/-- Where the management processor commits values that pass R284, they are pending and apply if they can. -/
theorem effWinCommit_get {src : Src} (hm : src.ini = .mgt) (hok : winOk (s.winStaged w).1 (s.winStaged w).2 = true)
    (f : Fld) (i : Nat) : (effWinCommit w src s).get f i = ((s.winPend w).winApply w).get f i := by
  have hc : s.winCommit w = ((s.winPend w).winApply w, .ok) := if_neg (by simp [hok])
  rw [effWinCommit, hc, State.answer_mgt _ _ _ _ hm, State.emit_get]

theorem exec_winCommit_recorded {src : Src} (hg : s.gate src .installer 14 = .ok) (hw : w < 16)
    (hb : s.settingsBusy src = false) (hok : winOk (s.winStaged w).1 (s.winStaged w).2 = true) :
    Recorded (.winCommit w src) s src (winCfg w) (s.winRec w src) fun t =>
      (s.winFree w = true → t.get .BRG_WIN_BASE w = (s.winStaged w).1 % 2 ^ Fld.BRG_WIN_BASE.width ∧
        t.get .BRG_WIN_STATUS_PENDING w = 0 ∧ t.get .BRG_WIN_S_HAVE w = 0) ∧
      (s.winFree w = false → t.get .BRG_WIN_P_BASE w = (s.winStaged w).1 % 2 ^ Fld.BRG_WIN_P_BASE.width ∧
        t.get .BRG_WIN_P_CFG w = (s.winStaged w).2 % 2 ^ Fld.BRG_WIN_P_CFG.width ∧
        t.get .BRG_WIN_STATUS_PENDING w = 1 ∧ t.get .BRG_WIN_S_HAVE w = 0) := by
  refine .of_exec (eff := effWinCommit w src) (by simp [execWinCommit, hg, hb, hok, Nat.not_le.mpr hw]) fun hm => ?_
  have hget (f : Fld) : (s.completed src (winCfg w) (effWinCommit w src)).get f w =
      ((s.winPend w).winApply w).get f w := (State.completed_get_mgt hm ..).trans (effWinCommit_get hm hok f w)
  have hp := s.winPend_pending w
  simp only [hget]
  refine ⟨fun hfree => ⟨?_, State.winApply_pending hp hfree, ?_⟩, fun hfree => ?_⟩
  · rw [State.winApply_base hp hfree, State.winPend_base]
    exact Nat.mod_mod ..
  · rw [State.winApply_have hp hfree, State.winPend_have]
  · rw [State.winApply_waits (.inl ((s.winPend_free w).trans hfree))]
    exact ⟨s.winPend_base w, s.winPend_cfg w, hp, s.winPend_have w⟩

theorem exec_winCommitApply_completes (hp : s.get .BRG_WIN_STATUS_PENDING w = 1) (hw : s.winFree w = true) :
    Completes (.winCommitApply w) s fun t =>
      t.get .BRG_WIN_BASE w = s.get .BRG_WIN_P_BASE w % 2 ^ Fld.BRG_WIN_BASE.width ∧
        t.get .BRG_WIN_STATUS_PENDING w = 0 :=
  ⟨s.winApply w, rfl, State.winApply_base hp hw, State.winApply_pending hp hw⟩

theorem exec_winCommitApply_waits (h : s.winFree w = false ∨ s.on .BRG_WIN_STATUS_PENDING w = false) :
    exec (.winCommitApply w) s = .next s := congrArg Host.Outcome.next (State.winApply_waits h)

end Window

/-! ### Fence, reset and counters (R294, R515) -/

section Control
variable {s : State} {src : Src}

theorem exec_brgFence_recorded (hg : s.gate src .installer 14 = .ok) :
    Recorded (.brgFence src) s src brgCtrl (s.writeRec src brgCtrl 1) fun t => t.get .BRG_CTRL_FENCE = 1 := by
  refine .of_exec (eff := effBrgFence) (if_neg (not_not_intro hg)) fun hm => ?_
  rw [State.completed_get_mgt hm, effBrgFence, State.dropAheadIf_get _ _ (by decide) (by decide)]
  exact State.get_set_same ..

theorem exec_brgFenceDone_fenced (hf : s.on .BRG_CTRL_FENCE = true) (hs : s.brg.slots = []) (hw : s.brg.wait = []) :
    exec .brgFenceDone s = .next (s.set .BRG_CTRL_FENCED 0 1) := if_pos (by simp [hf, hs, hw])

theorem exec_brgFenceDone_idle (h : s.on .BRG_CTRL_FENCE = false ∨ s.brg.slots ≠ [] ∨ s.brg.wait ≠ []) :
    exec .brgFenceDone s = .next s :=
  if_neg (by rcases h with h | h | h <;> simp [h])

theorem exec_brgReset_recorded (hg : s.gate src .installer 14 = .ok) :
    Recorded (.brgReset src) s src brgCtrl (s.writeRec src brgCtrl (2 + s.get .BRG_CTRL_FENCE)) fun t =>
      t.get .PWR_H_RESETTING 14 = 1 := by
  refine .of_exec (eff := effBrgReset) (if_neg (not_not_intro hg)) fun _ => ?_
  exact (State.completed_get _ _ (by decide) (by decide)).trans (State.blockReset_resetting _ 14)

/-- The counters of the bridge that `CLR_CNT` clears. -/
def brgCounters : List Fld := [.BRG_CNT_REQ, .BRG_CNT_ERR, .BRG_CNT_BAD, .BRG_CNT_AUTH_FAIL, .BRG_CNT_LATE,
  .BRG_CNT_REPLY_LOST, .BRG_PREFETCH_HIT, .BRG_PREFETCH_DISCARD]

theorem State.brgClrCnt_get (s : State) : ∀ f ∈ brgCounters, s.brgClrCnt.get f = 0 := fun f hf =>
  State.foldl_clear_get hf (fun g hg =>
    (by decide : ∀ f ∈ brgCounters, ∀ g ∈ brgCounters, g.id = f.id → g = f) f hf g hg) 0 s

theorem exec_brgClrCnt_answers (hg : s.gate src .operator 14 = .ok) :
    exec (.brgClrCnt src) s = .next (s.brgClrCnt.answer src brgCtrl .ok) := if_neg (not_not_intro hg)

end Control

end Sys2Proof.Machine

open Sys2Proof Sys2Proof.Machine

/-- Settles O24: a commit makes the staged values pending and applies them where nothing executes through the window; its
later application, and fence, reset and counters, each by its law above. -/
theorem bridgeWindowCommandsComplete : Obligations.BridgeWindowCommandsComplete :=
  ⟨fun _ _ _ => exec_winCommit_recorded, fun _ _ => ⟨exec_winCommitApply_completes, exec_winCommitApply_waits⟩,
    fun _ _ => ⟨exec_brgFence_recorded, exec_brgFenceDone_fenced, exec_brgFenceDone_idle⟩,
    fun _ s => ⟨exec_brgReset_recorded, fun hg => ⟨exec_brgClrCnt_answers hg, s.brgClrCnt_get _ (by decide),
      s.brgClrCnt_get _ (by decide)⟩⟩⟩

end

section
/-! PROOFS. The step of the front command (O1), the audit chain and what device reset leaves of a cell (O9), and the start
entry (O10). -/

namespace Sys2Proof.Machine

/-! ### What device reset leaves of a cell (20_power_sleep_reset.md R484) -/

theorem cellGet_filter_kept (t : List ((Nat × Nat) × Nat)) (p : Nat → Bool) (k : Nat × Nat) (d : Nat) (h : p k.1 = true) :
    cellGet (t.filter fun c => p c.1.1) k d = cellGet t k d := by
  induction t with
  | nil => rfl
  | cons e r ih =>
    obtain ⟨k', v⟩ := e
    by_cases hk : k' = k
    · subst hk
      simp [h, cellGet]
    · by_cases hp : p k'.1 = true
      · simp [hp, cellGet, hk, ih]
      · simp [hp, cellGet, hk, ih]

/-- The cells that device reset sets anew: `EN` of window 0, the pins as sampled, and the mode of the port. -/
def sampledCells : List Fld := [.BRG_WIN_CFG_EN, .MGT_I3C_STATUS_ADDR_SEL, .I3C_H_MODE]

theorem State.clearDevice_get (s : State) (f : Fld) (i : Nat) (h : ∀ g ∈ sampledCells, g.id ≠ f.id) :
    s.clearDevice.get f i =
      cellGet (s.cells.filter fun c => (keptFields.map Fld.id).contains c.1.1) (f.id, i) f.reset := by
  have hwin : Fld.BRG_WIN_CFG_EN.id ≠ f.id := h _ (by decide)
  have hsel : Fld.MGT_I3C_STATUS_ADDR_SEL.id ≠ f.id := h _ (by decide)
  have hmode : Fld.I3C_H_MODE.id ≠ f.id := h _ (by decide)
  unfold State.clearDevice
  extract_lets ids cells _ _ _ _ _ _ t u v
  have hv : v.get f i = cellGet cells (f.id, i) f.reset := by
    rw [State.get_set_ne _ _ _ _ _ _ hmode, State.get_set_ne _ _ _ _ _ _ hsel, State.get_set_ne _ _ _ _ _ _ hwin]
    rfl
  split
  · rw [State.emit_get, hv]
  · exact hv

/-- A field of the thermos, the fuses or NAND reads what it did. -/
theorem State.clearDevice_get_kept (s : State) (f : Fld) (i : Nat) (hk : (keptFields.map Fld.id).contains f.id = true)
    (h : ∀ g ∈ sampledCells, g.id ≠ f.id) : s.clearDevice.get f i = s.get f i :=
  (s.clearDevice_get f i h).trans (cellGet_filter_kept _ _ _ _ hk)

/-- Any other field reads its reset value. -/
theorem State.clearDevice_head (s : State) : s.clearDevice.sec.head = s.sec.head := by
  unfold State.clearDevice
  dsimp only
  split <;> rfl

/-- The power-on test leaves the cells outside the pages of its units and results. -/
theorem State.powerOnTest_get (s : State) (f : Fld) (i : Nat) (h : (0x100000019 : Nat).testBit f.page = false) :
    s.powerOnTest.get f i = s.get f i :=
  (State.powerOnTest_upd s (W := 0x100000019) (P := 2 ^ 23 - 1) (by decide) (Upd.refl s)).cells f i h

theorem State.powerOnTest_sec (s : State) : s.powerOnTest.sec = s.sec :=
  (State.powerOnTest_upd s (W := 2 ^ 128 - 1) (P := 0x120000) (by decide) (Upd.refl s)).parts.sec (by decide)

theorem State.deviceReset_auditSeq (s : State) (k : Nat) : (s.deviceReset k).get .SEC_AUDIT_SEQ = s.get .SEC_AUDIT_SEQ := by
  rw [State.deviceReset, State.powerOnTest_get _ _ _ (by decide), State.get_set_ne _ _ _ _ _ _ (by decide),
    State.clearDevice_get_kept _ _ _ (by decide) (by decide)]

theorem State.deviceReset_head (s : State) (k : Nat) : (s.deviceReset k).sec.head = s.sec.head := by
  rw [State.deviceReset, State.powerOnTest_sec, State.set_sec, State.clearDevice_head]

/-! ### The audit chain (17_roles_security_audit.md R431) -/

theorem leBytes_length (n v : Nat) : (leBytes n v).length = n := by
  induction n generalizing v with
  | zero => rfl
  | succ n ih => simp [leBytes, ih]

theorem fit_length (n : Nat) (l : List Nat) : (fit n l).length = n := by simp [fit]

theorem AuditRec.bytes_length (r : AuditRec) (seq sec ticks : Nat) (head : List Nat) :
    (r.bytes seq sec ticks head).length = 64 := by
  simp [AuditRec.bytes, leBytes_length, fit_length]

/-- Room for the record is made where the ring is full: the oldest group leaves. -/
def State.auditRoom (s : State) (r : AuditRec) : State :=
  if auditCapacity ≤ s.auditHeld then s.dropGroup.secEvent 2 r.session (roleCode r.role) 0xFF else s

theorem State.secEvent_sec (s : State) (k n r c : Nat) : (s.secEvent k n r c).sec = s.sec :=
  (State.secEvent_upd s k n r c (W := 3) (P := 0x100002) (by decide) (Upd.refl s)).parts.sec (by decide)

theorem State.secEvent_get (s : State) (k n r c : Nat) (f : Fld) (i : Nat) (h : f.page ≠ 0)
    (he : Fld.SEC_EVENTS_EV.id ≠ f.id) : (s.secEvent k n r c).get f i = s.get f i :=
  State.sticky_get _ _ _ _ _ _ _ _ _ _ _ _ _ h he

theorem State.auditRoom_seq (s : State) (r : AuditRec) : (s.auditRoom r).get .SEC_AUDIT_SEQ = s.get .SEC_AUDIT_SEQ := by
  unfold State.auditRoom
  split
  · rw [State.secEvent_get _ _ _ _ _ _ _ (by decide) (by decide), State.dropGroup, State.get_set_ne _ _ _ _ _ _ (by decide)]
    rfl
  · rfl

theorem State.auditRoom_head (s : State) (r : AuditRec) : (s.auditRoom r).sec.head = s.sec.head := by
  unfold State.auditRoom
  split
  · rw [State.secEvent_sec]
    rfl
  · rfl

/-- The bytes that a record has in the chain. -/
def State.recordBytes (s : State) (r : AuditRec) : List Nat :=
  let t := s.auditRoom r
  r.bytes (s.get .SEC_AUDIT_SEQ + 1) t.rtc (t.get .PWR_RTC_HI_TICKS) s.sec.head

/-- An appended record is the last of the ring, under the next sequence number, and its bytes are hashed with the head. -/
theorem State.appendRecord_sec (s : State) (r : AuditRec) :
    (s.appendRecord r).sec.ring = (s.auditRoom r).sec.ring ++ [(s.get .SEC_AUDIT_SEQ + 1, s.recordBytes r)] ∧
      (s.appendRecord r).sec.head = Config.sha256 (s.sec.head ++ s.recordBytes r) := by
  rw [State.recordBytes, ← State.auditRoom_seq s r, ← State.auditRoom_head s r]
  unfold State.appendRecord
  extract_lets u seq b head due _ v w
  have hw : w.sec = v.sec := by
    unfold w
    split <;> rfl
  rw [State.set_sec, hw]
  exact ⟨rfl, rfl⟩

/-! ### The start entry (12_jobs_and_autonomy.md R302) -/

section StartEntry
variable {s : State}

theorem exec_startEntrySelect_selects {i : Nat} (hf : s.isFollower = false) (hm : s.mgtAbsent = false)
    (hi : ((List.range 256).find? fun j => (s.jobEntry j).start) = some i) :
    exec .startEntrySelect s = .next (s.selectJob 1 i true).1 := by
  rw [exec_startEntrySelect, execStartEntrySelect, if_neg (by simp [hf, hm]), hi]

theorem exec_startEntrySelect_idle (h : s.isFollower = true ∨ s.mgtAbsent = true ∨
    ((List.range 256).find? fun j => (s.jobEntry j).start) = none) : exec .startEntrySelect s = .next s := by
  rw [exec_startEntrySelect, execStartEntrySelect]
  rcases h with h | h | h
  · exact if_pos (by simp [h])
  · exact if_pos (by simp [h])
  · rw [h, ite_self]

end StartEntry

end Sys2Proof.Machine

open Sys2Proof Sys2Proof.Machine

/-- Settles O1: a queue that is not empty. -/
theorem stepRunsTheFrontCommand : Obligations.StepRunsTheFrontCommand := by
  intro c rest s h
  rw [step, h]

/-- Settles O9: a record appended to the chain, the chain's beginning, and a device reset. -/
theorem auditChainHeads : Obligations.AuditChainHeads := by
  refine ⟨fun r s => ⟨s.recordBytes r, ?_, (s.appendRecord_sec r).2, AuditRec.bytes_length ..⟩,
    fun s k => ⟨rfl, s.deviceReset_head k, s.deviceReset_auditSeq k⟩⟩
  rw [(s.appendRecord_sec r).1, List.getLast?_concat]

/-- Settles O10: the lowest entry with the flag is the one that the search from entry 0 finds. -/
theorem startEntryIsSelectedOnce : Obligations.StartEntryIsSelectedOnce := by
  refine fun s hf hm => ⟨fun i hi hs hlow => exec_startEntrySelect_selects hf hm ?_, fun hn =>
    exec_startEntrySelect_idle (.inr (.inr ?_))⟩
  · exact List.find?_range_eq_some.mpr ⟨hs, List.mem_range.mpr hi, fun j hj => by simp [hlow j hj]⟩
  · exact List.find?_eq_none.mpr fun j hj => by simp [hn j (List.mem_range.mp hj)]

end

section
/-! PROOFS. Refusals that leave a trace (O57). -/

namespace Sys2Proof.Machine

section RefusedSleep
variable {s : State} {src : Src} {ans : Status}

/-- The checks of a sleep command in their order (20_power_sleep_reset.md R491). -/
theorem exec_pwrSleep_refused {mask alarm : Nat} (h : ans = (if s.fwGate src .installer noUnit ≠ .ok then
      s.fwGate src .installer noUnit else if mask.testBit 3 && alarm ≠ 0 && alarm ≤ s.get .PWR_RTC_SEC then .range
      else if s.sleepBarred then .state else .ok)) (hans : ans ≠ .ok) :
    exec (.pwrSleep mask alarm src) s = .next (s.sleepRefused src 0x78 ans) := by
  rw [exec_pwrSleep, execPwrSleep]
  split at h
  · next hg => rw [if_pos hg, h]
  · next hg =>
    rw [if_neg hg]
    split at h
    · next ha => rw [if_pos ha, h]
    · next ha =>
      rw [if_neg ha]
      split at h
      · next hb => rw [if_pos hb, h]
      · exact absurd h hans

theorem exec_pwrCtrlSleep_refused (h : ans = (if s.gate src .device noUnit ≠ .ok then s.gate src .device noUnit
      else if s.sleepBarred then .state else .ok)) (hans : ans ≠ .ok) : exec (.pwrCtrlSleep src) s =
      .next (if ans = .rights then s.answer src pwrCtrl ans else s.sleepRefused src pwrCtrl ans) := by
  rw [exec_pwrCtrlSleep, execPwrCtrlSleep]
  split at h
  · next hg => rw [if_pos hg, h]
  · next hg =>
    rw [if_neg hg]
    split at h
    · next hb =>
      subst h
      rw [if_pos hb]
      rfl
    · exact absurd h hans

end RefusedSleep

section RefusedJob
variable {s : State} {src : Src}

theorem exec_jobSelect_missing {i : Nat} (hg : s.jobGate src true = .ok) (hf : s.isFollower = false)
    (hh : s.hamper? (s.jobEntry (i % 256)).hamper = none) :
    exec (.jobSelect i src) s = .next ((s.loadFail .range).answer src 0x10 .range) := by
  rw [exec_jobSelect, execJobSelect, hg, hf, hh]
  rfl

theorem exec_jobArm_refused {m : Nat} {im : Bool} (hg : s.jobGate src false = .ok) (hf : s.isFollower = false)
    (ha : (s.armNext (m % 4) im s.now).2 ≠ .ok) : exec (.jobArm m im src) s = .next (effJobArm m im src s) := by
  rw [exec_jobArm, execJobArm, hg, hf]
  exact if_pos ha

section Firmware
variable (hd : s.roleOf src = .device)
include hd

theorem exec_jobCtrlArm_of_device (m : Nat) (im st : Bool) : exec (.jobCtrlArm m im st src) s =
    .next ((s.ctrlArm m im st).1.answer src jobCtrl (s.ctrlArm m im st).2) := if_neg (not_not_intro hd)

theorem exec_jobCtrlCancel_of_device : exec (.jobCtrlCancel src) s = .next (s.ctrlCancel.answer src jobCtrl .ok) :=
  if_neg (not_not_intro hd)

theorem exec_setNext_of_device (v : Nat) : exec (.setNext v src) s =
    .next ((s.ctrlSetNext v).1.answer src jobCtrl (s.ctrlSetNext v).2) := if_neg (not_not_intro hd)

end Firmware

theorem exec_logout_unopened (hg : s.fwGate src .operator 19 = .ok) (hn : s.session src.session = none) :
    exec (.logout src) s = .next (s.answer src 0x03 .rights) := by
  rw [exec_logout, execLogout, hg, hn]
  rfl

end RefusedJob

end Sys2Proof.Machine

open Sys2Proof Sys2Proof.Machine

/-- Settles O57: a sleep by the first check that fails, and each refusal of a job command or of LOGOUT by its law above. -/
theorem refusalsWithAnEffectComplete : Obligations.RefusalsWithAnEffectComplete :=
  ⟨fun _ _ => ⟨fun _ _ _ => exec_pwrSleep_refused, fun _ => exec_pwrCtrlSleep_refused, fun _ _ => rfl⟩,
    fun _ _ => ⟨fun _ => exec_jobSelect_missing, fun _ _ => exec_jobArm_refused,
      fun hd => ⟨exec_jobCtrlArm_of_device hd, exec_jobCtrlCancel_of_device hd, exec_setNext_of_device hd⟩,
      exec_logout_unopened⟩⟩

end

section
/-! PROOFS. Selecting, loading and ending a job (O32). -/

namespace Sys2Proof.Machine

/-! ### A selection (12_jobs_and_autonomy.md R297 to R301) -/

/-- The index and the source of a selection are noted. -/
def State.selNoted (s : State) (source i : Nat) : State :=
  (s.set .JOB_SEL_LATCH_INDEX 0 i).set .JOB_SEL_LATCH_SOURCE 0 source

/-- What NEXT holds is cancelled, with the followers where the device leads. -/
def State.nextEmptied (s : State) : State :=
  if s.nextState = nextEmpty then s else if s.isLeader then s.leaderCancel else s.cancelNext

/-- The cells that a selection notes. -/
def selectionCells : List Fld := [.JOB_SEL_LATCH_INDEX, .JOB_SEL_LATCH_SOURCE]

section Selection
variable {s : State} {source i : Nat} {immed : Bool} {h : Hamper}

theorem State.selNoted_get {f : Fld} (j : Nat) (hf : ∀ g ∈ selectionCells, g.id ≠ f.id) :
    (s.selNoted source i).get f j = s.get f j := by
  rw [State.selNoted, State.get_set_ne _ _ _ _ _ _ (hf _ (by decide)), State.get_set_ne _ _ _ _ _ _ (hf _ (by decide))]

theorem State.selectJob_missing (hh : s.hamper? (s.jobEntry i).hamper = none) :
    s.selectJob source i immed = ((s.selNoted source i).loadFail .range, .range) := by
  have hh' : ((s.set .JOB_SEL_LATCH_INDEX 0 i).set .JOB_SEL_LATCH_SOURCE 0 source).hamper? (s.jobEntry i).hamper = none := hh
  rw [State.selectJob, hh']
  rfl

section Found
variable (hh : s.hamper? (s.jobEntry i).hamper = some h)
include hh

/-- The outcomes of a selection whose hamper is held, in their order. -/
theorem State.selectJob_found : s.selectJob source i immed =
    let u := s.selNoted source i
    let mine := u.get .JOB_H_ENTRY == i && u.nextState != nextEmpty
    if u.jobRuns && hamperJob h.image == u.get .JOB_IDS_CUR_ID then (u.nextEmptied, .ok)
    else if mine && u.nextState == nextArmed then (u.inc .JOB_CNT_REPEAT, .ok)
    else if mine then ((u.set .JOB_H_WANT 0 1).tryArm, .ok)
    else if u.nextEmptied.on .JOB_STATUS_DRAINING then (u.nextEmptied.latchSel source i ⟨1, 0, 0, (s.jobEntry i).mark, 0⟩, .ok)
    else if hamperJob h.image = 0 then (u.nextEmptied.loadFail .range, .range)
    else (u.nextEmptied.startLoad h i (s.jobEntry i).mark ((s.jobEntry i).arm || immed) immed, .ok) := by
  have hh' : ((s.set .JOB_SEL_LATCH_INDEX 0 i).set .JOB_SEL_LATCH_SOURCE 0 source).hamper? (s.jobEntry i).hamper =
    some h := hh
  rw [State.selectJob, hh']
  rfl

theorem State.selectJob_running (hr : (s.selNoted source i).jobRuns = true ∧
    hamperJob h.image = (s.selNoted source i).get .JOB_IDS_CUR_ID) :
    s.selectJob source i immed = ((s.selNoted source i).nextEmptied, .ok) :=
  (State.selectJob_found hh).trans (if_pos (by simp [hr]))

section Another
variable (hr : ¬ ((s.selNoted source i).jobRuns = true ∧ hamperJob h.image = (s.selNoted source i).get .JOB_IDS_CUR_ID))
include hr

theorem State.selectJob_repeated (hm : (s.selNoted source i).get .JOB_H_ENTRY = i ∧ (s.selNoted source i).nextState ≠ 0)
    (ha : (s.selNoted source i).nextState = 3) :
    s.selectJob source i immed = ((s.selNoted source i).inc .JOB_CNT_REPEAT, .ok) := by
  rw [State.selectJob_found hh]
  dsimp only
  rw [if_neg (by simpa using hr), if_pos (by simp [hm.1, ha])]

theorem State.selectJob_mine (hm : (s.selNoted source i).get .JOB_H_ENTRY = i ∧ (s.selNoted source i).nextState ≠ 0)
    (ha : (s.selNoted source i).nextState ≠ 3) :
    s.selectJob source i immed = (((s.selNoted source i).set .JOB_H_WANT 0 1).tryArm, .ok) := by
  rw [State.selectJob_found hh]
  dsimp only
  rw [if_neg (by simpa using hr), if_neg (by simp [ha]), if_pos (by simp [hm])]

section NotMine
variable (hm : ¬ ((s.selNoted source i).get .JOB_H_ENTRY = i ∧ (s.selNoted source i).nextState ≠ 0))
include hm

theorem State.selectJob_other : s.selectJob source i immed =
    let v := (s.selNoted source i).nextEmptied
    if v.on .JOB_STATUS_DRAINING then (v.latchSel source i ⟨1, 0, 0, (s.jobEntry i).mark, 0⟩, .ok)
    else if hamperJob h.image = 0 then (v.loadFail .range, .range)
    else (v.startLoad h i (s.jobEntry i).mark ((s.jobEntry i).arm || immed) immed, .ok) := by
  have hmine : ((s.selNoted source i).get .JOB_H_ENTRY == i && (s.selNoted source i).nextState != nextEmpty) = false := by
    rw [Bool.eq_false_iff]
    simpa using hm
  rw [State.selectJob_found hh]
  dsimp only
  rw [if_neg (by simpa using hr), hmine]
  rfl

theorem State.selectJob_draining (hd : (s.selNoted source i).nextEmptied.on .JOB_STATUS_DRAINING = true) :
    s.selectJob source i immed =
      ((s.selNoted source i).nextEmptied.latchSel source i ⟨1, 0, 0, (s.jobEntry i).mark, 0⟩, .ok) :=
  (State.selectJob_other hh hr hm).trans (if_pos hd)

section Serves
variable (hd : (s.selNoted source i).nextEmptied.on .JOB_STATUS_DRAINING = false)
include hd

theorem State.selectJob_noJob (h0 : hamperJob h.image = 0) :
    s.selectJob source i immed = ((s.selNoted source i).nextEmptied.loadFail .range, .range) :=
  (State.selectJob_other hh hr hm).trans ((if_neg (ne_true_of_eq_false hd)).trans (if_pos h0))

theorem State.selectJob_loads (h0 : hamperJob h.image ≠ 0) : s.selectJob source i immed =
    ((s.selNoted source i).nextEmptied.startLoad h i (s.jobEntry i).mark ((s.jobEntry i).arm || immed) immed, .ok) :=
  (State.selectJob_other hh hr hm).trans ((if_neg (ne_true_of_eq_false hd)).trans (if_neg h0))

end Serves
end NotMine
end Another
end Found

/-- A load that starts is LOADING, whether the followers are told of it or not. -/
theorem State.startLoad_nextState (s : State) (h : Hamper) (entry m : Nat) (want immed : Bool) :
    (s.startLoad h entry m want immed).nextState = 1 := by
  unfold State.startLoad
  extract_lets job sets t _ u
  have hu : u.nextState = 1 := by
    have ht : u.nextState = t.get .JOB_STATUS_NEXT_STATE := rfl
    rw [ht]
    simp (disch := decide) only [t, sets, List.foldl_cons, List.foldl_nil, State.get_set_ne, State.get_set_same]
    rfl
  split
  · rw [State.leaderSend_nextState, hu]
  · exact hu

/-- With nothing running and NEXT empty, a hamper with a job begins to load. -/
theorem State.selectJob_idle (hh : s.hamper? (s.jobEntry i).hamper = some h) (hn : s.nextState = 0) (hr : s.jobRuns = false)
    (hd : s.on .JOB_STATUS_DRAINING = false) (h0 : hamperJob h.image ≠ 0) : s.selectJob source i immed =
      ((s.selNoted source i).startLoad h i (s.jobEntry i).mark ((s.jobEntry i).arm || immed) immed, .ok) := by
  have hn' : (s.selNoted source i).nextState = 0 := (State.selNoted_get 0 (by decide)).trans hn
  have hr' : (s.selNoted source i).jobRuns = false := (congrArg (· != 0) (State.selNoted_get 0 (by decide))).trans hr
  have hd' : (s.selNoted source i).on .JOB_STATUS_DRAINING = false :=
    (congrArg (· != 0) (State.selNoted_get 0 (by decide))).trans hd
  have he : (s.selNoted source i).nextEmptied = s.selNoted source i := if_pos hn'
  rw [State.selectJob_loads hh (by simp [hr']) (by simp [hn']) (by rw [he]; exact hd') h0, he]

end Selection

/-! ### JOB_STB (R297, R298) -/

section Strobe
variable {s : State} {i : Nat}

theorem exec_jobStb_asleep (h : s.get .PWR_H_STATE = 1 ∨ s.get .PWR_H_STATE = 2 ∨ s.get .BOOT_STATUS_STATE = 2) :
    exec (.jobStb i) s = .next s := if_pos (by simpa [or_assoc] using h)

section Awake
variable (hp : s.get .PWR_H_STATE = 0) (hb : s.get .BOOT_STATUS_STATE ≠ 2)
include hp hb

theorem exec_jobStb_awake : exec (.jobStb i) s = if s.isFollower then
      .next ((s.inc .JOB_CNT_REPEAT).jobEvent 6 (s.get .JOB_IDS_NEXT_ID) (s.get .JOB_OUT_ID) 0 0 0xFF)
    else if s.mgtAbsent || s.selHeld then .next (s.latchSel 0 (i % 256) ⟨1, 0, 0, 0, 0⟩)
    else .next (s.selectJob 0 (i % 256) false).1 := if_neg (by simp [hp, hb])

theorem exec_jobStb_follower (hf : s.isFollower = true) : exec (.jobStb i) s =
    .next ((s.inc .JOB_CNT_REPEAT).jobEvent 6 (s.get .JOB_IDS_NEXT_ID) (s.get .JOB_OUT_ID) 0 0 0xFF) :=
  (exec_jobStb_awake hp hb).trans (if_pos hf)

variable (hf : s.isFollower = false) (hi : i < 256)
include hf hi

theorem exec_jobStb_latches (h : s.mgtAbsent = true ∨ s.selHeld = true) :
    exec (.jobStb i) s = .next (s.latchSel 0 i ⟨1, 0, 0, 0, 0⟩) := by
  rw [exec_jobStb_awake hp hb, if_neg (ne_true_of_eq_false hf), Nat.mod_eq_of_lt hi]
  exact if_pos (by simpa using h)

theorem exec_jobStb_selects (hm : s.mgtAbsent = false) (hh : s.selHeld = false) :
    exec (.jobStb i) s = .next (s.selectJob 0 i false).1 := by
  rw [exec_jobStb_awake hp hb, hf, hm, hh, Nat.mod_eq_of_lt hi]
  rfl

end Awake

/-- A held selection is VALID and names its entry; the cells it takes besides do not touch these. -/
theorem State.latchSel_spec (s : State) (source : Nat) (hi : i < 256) (m : FabSel) :
    (s.latchSel source i m).get .JOB_SEL_LATCH_VALID = 1 ∧ (s.latchSel source i m).get .JOB_SEL_LATCH_INDEX = i := by
  unfold State.latchSel
  extract_lets t sets
  simp (disch := decide) only [sets, List.foldl_cons, List.foldl_nil, State.get_set_ne, State.get_set_same]
  exact ⟨rfl, Nat.mod_eq_of_lt hi⟩

end Strobe

/-! ### The end of draining (R311, R314) -/

section Drain
variable {s : State}

/-- Draining has ended: no job goes out any longer, and the event says so. -/
def State.drained (s : State) : State :=
  ((s.set .JOB_STATUS_DRAINING 0 0).set .JOB_OUT_ID 0 0).jobEvent 4 (s.get .JOB_IDS_CUR_ID) (s.get .JOB_OUT_ID) 0 0 0xFF

theorem State.jobEvent_get (s : State) (k job out st res node : Nat) (f : Fld) (i : Nat) (h : f.page ≠ 0)
    (he : Fld.JOB_EVENTS_EV.id ≠ f.id) : (s.jobEvent k job out st res node).get f i = s.get f i :=
  State.sticky_get _ _ _ _ _ _ _ _ _ _ _ _ _ h he

theorem State.drained_draining (s : State) : s.drained.get .JOB_STATUS_DRAINING = 0 := by
  rw [State.drained, State.jobEvent_get _ _ _ _ _ _ _ _ _ (by decide) (by decide), State.get_set_ne _ _ _ _ _ _ (by decide),
    State.get_set_same]
  rfl

theorem State.drained_outgoing (s : State) : s.drained.get .JOB_OUT_ID = 0 := by
  rw [State.drained, State.jobEvent_get _ _ _ _ _ _ _ _ _ (by decide) (by decide), State.get_set_same]
  rfl

theorem State.serveLatch_of_invalid (h : s.on .JOB_SEL_LATCH_VALID = false) : s.serveLatch = s := by
  rw [State.serveLatch, if_pos (by simp [h])]

theorem State.drained_serveLatch (h : s.on .JOB_SEL_LATCH_VALID = false) : s.drained.serveLatch = s.drained := by
  refine State.serveLatch_of_invalid ((congrArg (· != 0) ?_).trans h)
  rw [State.drained, State.jobEvent_get _ _ _ _ _ _ _ _ _ (by decide) (by decide), State.get_set_ne _ _ _ _ _ _ (by decide),
    State.get_set_ne _ _ _ _ _ _ (by decide)]

theorem exec_drainDone_ends (hd : s.on .JOB_STATUS_DRAINING = true) (h : s.draining = false) :
    exec .drainDone s = .next s.drained.serveLatch := by
  have hcur : ((s.set .JOB_STATUS_DRAINING 0 0).set .JOB_OUT_ID 0 0).get .JOB_IDS_CUR_ID = s.get .JOB_IDS_CUR_ID := by
    rw [State.get_set_ne _ _ _ _ _ _ (by decide), State.get_set_ne _ _ _ _ _ _ (by decide)]
  rw [exec_drainDone, execDrainDone, if_pos (by simp [hd, h])]
  dsimp only
  rw [hcur]
  rfl

theorem exec_drainDone_idle (h : s.on .JOB_STATUS_DRAINING = false ∨ s.draining = true) : exec .drainDone s = .next s :=
  if_neg (by rcases h with h | h <;> simp [h])

end Drain

/-! ### JOB_SELECT and JOB_LOAD (R299, R303) -/

section Load
variable {s : State} {src : Src} {h : Hamper}

theorem exec_jobSelect_recorded {i : Nat} (hg : s.jobGate src true = .ok) (hf : s.isFollower = false) (hi : i < 256)
    (hh : s.hamper? (s.jobEntry i).hamper = some h) (hn : s.nextState = 0) (hr : s.jobRuns = false)
    (hd : s.on .JOB_STATUS_DRAINING = false) (h0 : hamperJob h.image ≠ 0) :
    Recorded (.jobSelect i src) s src 0x10 (s.jobRec src (hamperJob h.image)) fun t => t.nextState = 1 := by
  refine .of_exec (eff := effJobSelect i src) ?_ fun _ => ?_
  · rw [exec_jobSelect, execJobSelect, hg, hf, Nat.mod_eq_of_lt hi, hh]
    rfl
  · refine (State.completed_get _ _ (by decide) (by decide)).trans ?_
    rw [effJobSelect, Nat.mod_eq_of_lt hi, State.selectJob_idle hh hn hr hd h0]
    exact State.startLoad_nextState ..

theorem exec_jobLoad_recorded {n : Nat} (hn : n < 4096) (hg : s.jobGate src true = .ok) (hc : s.loadCheck n = .ok)
    (hh : s.hamper? n = some h) : Recorded (.jobLoad n src) s src 0x11 (s.jobRec src (hamperJob h.image)) fun t =>
      t.nextState = 1 ∧ t.job.waiting = some src := by
  have heff : effJobLoad n src s =
      { s.startLoad h 256 0 false false with job := { (s.startLoad h 256 0 false false).job with waiting := some src } } := by
    rw [effJobLoad, if_neg (not_not_intro hc), hh]
  refine .of_exec (eff := effJobLoad n src) ?_ fun _ => ?_
  · rw [exec_jobLoad, execJobLoad, hg, Nat.mod_eq_of_lt hn, hc, hh]
    rfl
  · -- the command waits for the end of the load, so it is not answered yet
    have hwait : s.completed src 0x11 (effJobLoad n src) = effJobLoad n src s := by
      rw [State.completed, heff]
      exact if_pos (by simp [State.deferred])
    rw [hwait, heff]
    exact ⟨State.startLoad_nextState .., rfl⟩

end Load

/-! ### JOB_LOAD_DONE (R303) -/

section LoadDone
variable {s : State} {g : Sigs} {r : NandRead} {h : Hamper}

theorem exec_jobLoadDone_idle (hn : s.nextState ≠ 1) : exec (.jobLoadDone g r) s = .next s := if_pos hn

section Loading
variable (hn : s.nextState = 1)
include hn

theorem exec_jobLoadDone_missing (hh : s.hamper? (s.get .JOB_HAMPERS_NEXT_HAMPER) = none) :
    exec (.jobLoadDone g r) s = .next (s.loadFails .range) := by
  rw [exec_jobLoadDone, execJobLoadDone, if_neg (not_not_intro hn), hh]

variable (hh : s.hamper? (s.get .JOB_HAMPERS_NEXT_HAMPER) = some h)
include hh

theorem exec_jobLoadDone_uncorrectable (hu : r.uncorrectable = true) : exec (.jobLoadDone g r) s =
    .next (((s.readCount r).damage fun x => x.num == s.get .JOB_HAMPERS_NEXT_HAMPER).loadFails .integrity) := by
  rw [exec_jobLoadDone, execJobLoadDone, if_neg (not_not_intro hn), hh]
  exact if_pos hu

theorem exec_jobLoadDone_damaged (hu : r.uncorrectable = false) (hd : h.damaged = true) :
    exec (.jobLoadDone g r) s = .next ((s.readCount r).loadFails .integrity) := by
  rw [exec_jobLoadDone, execJobLoadDone, if_neg (not_not_intro hn), hh]
  exact (if_neg (ne_true_of_eq_false hu)).trans (if_pos hd)

variable (hu : r.uncorrectable = false) (hd : h.damaged = false)
include hu hd

theorem exec_jobLoadDone_unchecked {e : Nat × Status} (hc : (s.readCount r).storedCheck h g = some e) :
    exec (.jobLoadDone g r) s =
      .next (((s.readCount r).libResult (some e) (s.get .JOB_HAMPERS_NEXT_HAMPER)).loadFails e.2) := by
  rw [exec_jobLoadDone, execJobLoadDone, if_neg (not_not_intro hn), hh]
  dsimp only
  rw [if_neg (ne_true_of_eq_false hu), if_neg (ne_true_of_eq_false hd), hc]

variable (hc : (s.readCount r).storedCheck h g = none) {x : State} {st : Status}
  (hl : ((s.readCount r).libResult none (s.get .JOB_HAMPERS_NEXT_HAMPER)).loadBanks h.image
    (((((s.readCount r).libResult none (s.get .JOB_HAMPERS_NEXT_HAMPER)).refObj? h.digest).map (·.bytes)).getD []) = (x, st))
include hc hl

theorem exec_jobLoadDone_bankFails (hst : st ≠ .ok) : exec (.jobLoadDone g r) s = .next (x.loadFails st) := by
  rw [exec_jobLoadDone, execJobLoadDone, if_neg (not_not_intro hn), hh]
  dsimp only
  rw [if_neg (ne_true_of_eq_false hu), if_neg (ne_true_of_eq_false hd), hc]
  dsimp only
  rw [hl]
  cases st with
  | ok => exact absurd rfl hst
  | _ => rfl

/-- The load as its admission leaves it. -/
def State.loadAdmits (x : State) : State :=
  match x.admission false with
  | some q =>
    let z := (((x.cancelBanks (x.get .JOB_IDS_NEXT_ID)).clearStaged).refused q 0).loadEnded .range true
    if x.isLeader && !x.job.peers.isEmpty then z.leaderCancel else z.nextClear
  | none => ((x.showDemand.set .JOB_STATUS_NEXT_STATE 0 2).loadEnded .ok false).tryArm

theorem exec_jobLoadDone_banksWritten (hst : st = .ok) : exec (.jobLoadDone g r) s = .next x.loadAdmits := by
  subst hst
  rw [exec_jobLoadDone, execJobLoadDone, if_neg (not_not_intro hn), hh]
  dsimp only
  rw [if_neg (ne_true_of_eq_false hu), if_neg (ne_true_of_eq_false hd), hc]
  dsimp only
  rw [hl]
  dsimp only
  rw [State.loadAdmits]
  cases x.admission false <;> rfl

end Loading
end LoadDone

end Sys2Proof.Machine

open Sys2Proof Sys2Proof.Machine

/-- Settles O32: a strobe by what its selection comes to, a load by its check, its banks and its admission. -/
theorem jobSelectionCommandsComplete : Obligations.JobSelectionCommandsComplete := by
  refine ⟨?_, ?_, ?_, ?_, ?_, ?_, ?_, ?_, ?_⟩
  -- a selection that is served, and one with nothing running and NEXT empty
  · intro i s hp hb hf hm hh hi
    refine ⟨exec_jobStb_selects hp hb hf hi hm hh, fun h hx hn hr hd h0 => ?_⟩
    rw [State.selectJob_idle hx hn hr hd h0]
    exact State.startLoad_nextState ..
  -- the outcomes of a selection
  · intro i s hp hb hf hm hh hi
    have hexec := exec_jobStb_selects hp hb hf hi hm hh
    dsimp only
    split
    · next hx => rw [hexec, State.selectJob_missing hx]; rfl
    · next h hx =>
      refine ⟨fun hr => ?_, fun hr hm ha => ?_, fun hr hm ha => ?_, fun hr hm hd => ?_, fun hr hm hd h0 => ?_,
        fun hr hm hd h0 => ?_⟩
      · rw [hexec, State.selectJob_running hx hr]; rfl
      · rw [hexec, State.selectJob_repeated hx hr hm ha]; rfl
      · rw [hexec, State.selectJob_mine hx hr hm ha]; rfl
      · rw [hexec, State.selectJob_draining hx hr hm hd]; rfl
      · rw [hexec, State.selectJob_noJob hx hr hm hd h0]; rfl
      · rw [hexec, State.selectJob_loads hx hr hm hd h0, Bool.or_false]; rfl
  -- strobes that are ignored, counted or held
  · exact fun i s => ⟨exec_jobStb_asleep, exec_jobStb_follower, fun hp hb hf h hi =>
      ⟨_, exec_jobStb_latches hp hb hf hi h, s.latchSel_spec 0 hi _⟩⟩
  -- the end of draining
  · exact fun s => ⟨fun hd h => ⟨exec_drainDone_ends hd h, s.drained_draining, s.drained_outgoing,
      State.drained_serveLatch⟩, exec_drainDone_idle⟩
  -- the start entry
  · exact fun i s => ⟨exec_startEntrySelect_selects, exec_startEntrySelect_idle⟩
  -- JOB_SELECT and JOB_LOAD
  · exact fun i h src s => exec_jobSelect_recorded
  · exact fun n h src s => exec_jobLoad_recorded
  -- a load whose data is read
  · intro g r h s hn hh hu hd
    dsimp only
    cases hc : (s.readCount r).storedCheck h g with
    | some e => exact ⟨_, exec_jobLoadDone_unchecked hn hh hu hd hc, rfl⟩
    | none =>
      dsimp only
      generalize hl : State.loadBanks _ h.image _ = q
      obtain ⟨x, st⟩ := q
      by_cases hst : st = .ok
      · refine ⟨_, exec_jobLoadDone_banksWritten hn hh hu hd hc hl hst, ?_⟩
        rintro x st ⟨⟩
        refine ⟨fun h => absurd hst h, fun _ ha => ?_, fun _ q ha => ?_⟩
        · rw [State.loadAdmits, ha]
        · rw [State.loadAdmits, ha]
      · refine ⟨_, exec_jobLoadDone_bankFails hn hh hu hd hc hl hst, ?_⟩
        rintro x st ⟨⟩
        exact ⟨fun _ => rfl, fun h => absurd h hst, fun h => absurd h hst⟩
  -- loads that end at once
  · intro g r s
    refine ⟨exec_jobLoadDone_idle, fun hn => ?_⟩
    split
    · next hh => exact exec_jobLoadDone_missing hn hh
    · next h hh => exact ⟨exec_jobLoadDone_uncorrectable hn hh, exec_jobLoadDone_damaged hn hh⟩

end

section
/-! PROOFS. Mount, scrubs, wear, failures, fence, reset and counters of the store (O39). -/

namespace Sys2Proof.Machine

/-- The masks of a law, taken as they stand. -/
theorem masks_self (w p : Nat) : (subMask w w && subMask p p) = true := by simp [subMask]

/-! ### The mount (13_storage_job_library.md R319) -/

section Mount
variable {m : Mount} {s : State}

/-- What a mount does before the settings are applied. -/
def State.mountStore (s : State) (m : Mount) : State :=
  let l := mountOrder m
  let ref := (l.find? fun e => e.1 < 8 && e.2.ok).map (·.2)
  let dies := l.filter (diesGood ref)
  let s := (List.range 8).foldl (fun s c => s.mountChannel l ref c) s
  ((s.mountGeometry dies ref m.spare).mountLosses m).set .STO_H_MOUNTED 0 1

theorem State.mountStore_settled (s : State) (m : Mount) :
    (s.mountStore m).on .BOOT_H_SETTLED = s.on .BOOT_H_SETTLED := by
  refine congrArg (· != 0) ?_
  unfold State.mountStore
  dsimp only
  rw [State.get_set_ne _ _ _ _ _ _ (by decide),
    (State.mountLosses_upd _ m (masks_self _ _) (.refl _)).cells _ _ (by decide),
    (State.mountGeometry_upd _ _ _ _ (masks_self _ _) (.refl _)).cells _ _
      (by decide)]
  exact State.foldl_get _ _ _ _ _ fun t c =>
    (State.mountChannel_upd t _ _ c (masks_self _ _) (.refl _)).cells _ _ (by decide)

theorem exec_nandMount_booted (hb : s.get .BOOT_STATUS_STATE = 1) :
    ∃ g n : Nat, exec (.nandMount m) s = .next (((s.mountStore m).applySettings.set .STO_SPACE_USABLE_GIB 0 g).set
      .STO_SPACE_REC_GIB_NOW 0 n) :=
  ⟨_, _, if_neg (not_not_intro hb)⟩

theorem exec_nandMount_settled (hb : s.get .BOOT_STATUS_STATE = 1) (h : s.on .BOOT_H_SETTLED = true) :
    Completes (.nandMount m) s fun t => t.get .STO_H_MOUNTED = 1 := by
  obtain ⟨g, n, he⟩ := exec_nandMount_booted (m := m) hb
  have happ : (s.mountStore m).applySettings = s.mountStore m := if_pos ((s.mountStore_settled m).trans h)
  refine ⟨_, he, ?_⟩
  dsimp only
  rw [State.get_set_ne _ _ _ _ _ _ (by decide), State.get_set_ne _ _ _ _ _ _ (by decide), happ]
  exact State.get_set_same ..

theorem State.applySettings_settles (h : s.on .BOOT_H_SETTLED = false) : s.applySettings.get .BOOT_H_SETTLED = 1 := by
  rw [State.applySettings, if_neg (ne_true_of_eq_false h)]
  exact ((State.serveLatch_upd _ (masks_self _ _) (.refl _)).cells _ _ (by decide)).trans (State.get_set_same ..)

theorem exec_nandMount_settles (hb : s.get .BOOT_STATUS_STATE = 1) (h : s.on .BOOT_H_SETTLED = false) :
    Completes (.nandMount m) s fun t => t.get .BOOT_H_SETTLED = 1 := by
  obtain ⟨g, n, he⟩ := exec_nandMount_booted (m := m) hb
  refine ⟨_, he, ?_⟩
  dsimp only
  rw [State.get_set_ne _ _ _ _ _ _ (by decide), State.get_set_ne _ _ _ _ _ _ (by decide)]
  exact State.applySettings_settles ((s.mountStore_settled m).trans h)

theorem exec_nandMount_early (hb : s.get .BOOT_STATUS_STATE ≠ 1) : exec (.nandMount m) s = .next s := if_pos hb

end Mount

/-! ### Scrubs (R322, R323) -/

section Scrub
variable {s : State} {b : Nat} {r : NandRead}

/-- A block is the oldest of those that meet `p`. -/
def State.isOldest (s : State) (b : Nat) (p : NandBlk → Bool) : Prop :=
  p (s.blk b) = true ∧ (s.sto.blocks.any fun y => p y && decide (y.stamp < (s.blk b).stamp)) = false

theorem State.isOldest_iff (s : State) (b : Nat) (p : NandBlk → Bool) : s.isOldest b p ↔
    (p (s.blk b) && !(s.sto.blocks.any fun y => p y && decide (y.stamp < (s.blk b).stamp))) = true := by
  rw [State.isOldest, Bool.and_eq_true, Bool.not_eq_true']

theorem exec_patrolScrub_oldest (h : s.isOldest b s.dueBlk) : exec (.patrolScrub b r) s = .next (s.scrub b r) :=
  if_pos ((s.isOldest_iff b _).mp h)

theorem exec_patrolScrub_other (h : ¬ s.isOldest b s.dueBlk) : exec (.patrolScrub b r) s = .next s :=
  if_neg ((s.isOldest_iff b _).not.mp h)

theorem exec_catchupScrub_oldest (h : s.isOldest b s.overdue) : exec (.catchupScrub b r) s = .next (s.scrub b r) :=
  if_pos ((s.isOldest_iff b _).mp h)

theorem exec_catchupScrub_other (h : ¬ s.isOldest b s.overdue) : exec (.catchupScrub b r) s = .next s :=
  if_neg ((s.isOldest_iff b _).not.mp h)

theorem exec_blockOverdue_catchup (h : s.overdue (s.blk b) = true) :
    Completes (.blockOverdue b) s fun t => t.bit .STO_EVENTS_EV 0 6 = true :=
  ⟨_, if_pos h, State.sticky_bit _ _ _ _ _ _ _ _ _ _ _ (by decide) (by decide)⟩

theorem exec_blockOverdue_idle (h : s.overdue (s.blk b) = false) : exec (.blockOverdue b) s = .next s :=
  if_neg (ne_true_of_eq_false h)

/-- The step at which a scrub reads a block. -/
def State.scrubStep (s : State) (b : Nat) (r : NandRead) : Nat := max (s.blk b).step r.step

/-- A scrub has read the block, counted it and noted its step. -/
def State.scrubRead (s : State) (b : Nat) (r : NandRead) : State :=
  ((s.readCount { r with step := s.scrubStep b r }).inc .STO_CNT_SCRUB).putBlk { s.blk b with step := s.scrubStep b r }

theorem State.scrub_keeps (hu : r.uncorrectable = false) (hs : s.scrubStep b r ≤ 3) (hb : r.bits ≤ 110) : s.scrub b r =
    (s.scrubRead b r).putBlk { s.blk b with step := s.scrubStep b r, stamp := (s.scrubRead b r).rtc } :=
  (if_neg (ne_true_of_eq_false hu)).trans (if_pos (by
    rw [Bool.and_eq_true]
    exact ⟨decide_eq_true hs, decide_eq_true hb⟩))

theorem State.scrub_relocates (hu : r.uncorrectable = false) (h : 3 < s.scrubStep b r ∨ 110 < r.bits) :
    s.scrub b r = (s.scrubRead b r).relocate b :=
  (if_neg (ne_true_of_eq_false hu)).trans (if_neg (by
    rw [Bool.and_eq_true]
    rintro ⟨hs, hb⟩
    rcases h with h | h
    · exact Nat.not_le.mpr h (of_decide_eq_true hs)
    · exact Nat.not_le.mpr h (of_decide_eq_true hb)))

theorem State.scrub_loses (hu : r.uncorrectable = true) : s.scrub b r =
    match ((s.scrubRead b r).segLost (s.blk b).region (s.blk b).seg).takeBlk (s.blk b).region (s.blk b).seg with
    | some v => (v.inc .STO_CNT_RELOC).retire b r.ch r.lun
    | none => ((s.scrubRead b r).segLost (s.blk b).region (s.blk b).seg).retire b r.ch r.lun :=
  (if_pos hu).trans rfl

end Scrub

/-! ### Wear and failures (R324, R326) -/

section Wear
variable {s : State} {r : NandRead} {b c ln : Nat}

/-- The blocks that hold valid data. -/
def State.validBlocks (s : State) : List NandBlk := s.sto.blocks.filter fun x => x.region != 0 && !x.retired

/-- The block of smallest erase count. -/
def leastErased (b : NandBlk) (bs : List NandBlk) : NandBlk := bs.foldl (fun m x => if x.erases < m.erases then x else m) b

theorem exec_wearLevel_relocates {x : NandBlk} {xs : List NandBlk} (hv : s.validBlocks = x :: xs)
    (h : s.get .STO_CFG2_WL_DELTA < s.eraseRange.2 - s.eraseRange.1) :
    exec (.wearLevel r) s = .next ((s.readCount r).relocate (leastErased x xs).id) := by
  have hv' : s.sto.blocks.filter (fun b => b.region != 0 && !b.retired) = x :: xs := hv
  rw [exec_wearLevel, execWearLevel]
  dsimp only
  rw [if_pos h, hv']
  rfl

theorem exec_wearLevel_idle (h : s.eraseRange.2 - s.eraseRange.1 ≤ s.get .STO_CFG2_WL_DELTA ∨ s.validBlocks = []) :
    exec (.wearLevel r) s = .next s := by
  rw [exec_wearLevel, execWearLevel]
  rcases h with h | h
  · exact if_neg (Nat.not_lt.mpr h)
  · have hv : s.sto.blocks.filter (fun b => b.region != 0 && !b.retired) = [] := h
    dsimp only
    rw [hv, ite_self]

theorem exec_programFail_free (h : (s.blk b).region = 0) :
    exec (.programFail b c ln) s = .next ((s.inc .STO_CH_CNT_PFAIL c).retire b c ln) := if_pos h

theorem exec_programFail_moved {u : State} (h : (s.blk b).region ≠ 0)
    (hu : (s.inc .STO_CH_CNT_PFAIL c).takeBlk (s.blk b).region (s.blk b).seg = some u) :
    exec (.programFail b c ln) s = .next ((u.inc .STO_CNT_RELOC).retire b c ln) := by
  rw [exec_programFail, execProgramFail]
  rw [if_neg h, hu]

theorem exec_programFail_full (h : (s.blk b).region ≠ 0)
    (hu : (s.inc .STO_CH_CNT_PFAIL c).takeBlk (s.blk b).region (s.blk b).seg = none) :
    exec (.programFail b c ln) s = .next ((s.inc .STO_CH_CNT_PFAIL c).retire b c ln) := by
  rw [exec_programFail, execProgramFail]
  rw [if_neg h, hu]

theorem exec_eraseFail_free (h : (s.blk b).region = 0) :
    exec (.eraseFail b c ln) s = .next ((s.inc .STO_CH_CNT_EFAIL c).retire b c ln) := if_pos h

theorem exec_eraseFail_used (h : (s.blk b).region ≠ 0) :
    exec (.eraseFail b c ln) s = .next (s.inc .STO_CH_CNT_EFAIL c) := if_neg h

end Wear

/-! ### Fence, reset and counters (R343, R344, R515) -/

section Control
variable {s : State} {src : Src}

theorem exec_stoFence_recorded (hg : s.gate src .installer 17 = .ok) :
    Recorded (.stoFence src) s src 0 (s.writeRec src 0x540474 1) fun t => t.get .STO_CTRL_FENCE = 1 :=
  .of_exec (eff := effStoFence) (if_neg (not_not_intro hg)) fun _ =>
    (State.completed_get _ _ (by decide) (by decide)).trans (State.get_set_same ..)

theorem exec_stoReset_recorded (hg : s.gate src .installer 17 = .ok) :
    Recorded (.stoReset src) s src 0 (s.writeRec src 0x540474 2) fun t =>
      t.get .PWR_H_RESETTING 17 = 1 ∧ t.get .STO_H_MOUNTED = 0 := by
  refine .of_exec (eff := effStoReset) (if_neg (not_not_intro hg)) fun _ => ?_
  rw [State.completed_get _ _ (by decide) (by decide), State.completed_get _ _ (by decide) (by decide)]
  refine ⟨State.blockReset_resetting _ 17, ?_⟩
  exact ((State.blockReset_upd _ 17 (masks_self _ _) (.refl _)).cells _ _ (by decide)).trans (State.get_set_same ..)

theorem exec_stoFenceDone_fenced (h : s.on .STO_CTRL_FENCE = true) :
    Completes .stoFenceDone s fun t => t.get .STO_CTRL_FENCED = 1 := ⟨_, if_pos h, State.get_set_same ..⟩

theorem exec_stoFenceDone_idle (h : s.on .STO_CTRL_FENCE = false) : exec .stoFenceDone s = .next s :=
  if_neg (ne_true_of_eq_false h)

/-- The counters of the whole store that `CLR_CNT` clears. -/
def stoCounters : List Fld := [.STO_CNT_RELOC, .STO_CNT_RETIRED, .STO_CNT_REC_MISSED, .STO_CNT_AUTOKEEP_SKIP, .STO_CNT_SCRUB]

theorem State.stoClrCnt_get (s : State) : ∀ f ∈ stoCounters, s.stoClrCnt.get f = 0 := by
  intro f hf
  unfold State.stoClrCnt
  extract_lets t
  exact State.foldl_clear_get (l := stoCounters) hf (fun g hg =>
    (by decide : ∀ f ∈ stoCounters, ∀ g ∈ stoCounters, g.id = f.id → g = f) f hf g hg) 0 t

theorem exec_stoClrCnt_answers (hg : s.gate src .operator 17 = .ok) : Answers (.stoClrCnt src) s src 0 .ok fun t =>
    t.get .STO_CNT_RELOC = 0 ∧ t.get .STO_CNT_RETIRED = 0 ∧ t.get .STO_CNT_REC_MISSED = 0 ∧ t.get .STO_CNT_SCRUB = 0 :=
  ⟨s.stoClrCnt, if_neg (not_not_intro hg), s.stoClrCnt_get _ (by decide), s.stoClrCnt_get _ (by decide),
    s.stoClrCnt_get _ (by decide), s.stoClrCnt_get _ (by decide)⟩

end Control

end Sys2Proof.Machine

open Sys2Proof Sys2Proof.Machine

/-- Settles O39: the mount by whether settings are still to be applied, a scrub by what its read finds, and the rest each by
its law above. -/
theorem nandCommandsComplete : Obligations.NandCommandsComplete :=
  ⟨fun _ _ => ⟨exec_nandMount_settled, exec_nandMount_settles, exec_nandMount_early⟩,
    fun _ _ _ => ⟨exec_patrolScrub_oldest, exec_patrolScrub_other, exec_catchupScrub_oldest, exec_catchupScrub_other,
      exec_blockOverdue_catchup, exec_blockOverdue_idle⟩,
    fun _ _ _ => ⟨State.scrub_keeps, State.scrub_relocates, State.scrub_loses⟩,
    fun _ _ _ _ _ _ => ⟨exec_wearLevel_relocates, fun h => ⟨exec_programFail_free h, exec_eraseFail_free h⟩,
      fun h _ => exec_programFail_moved h⟩,
    fun _ _ _ _ _ => ⟨exec_wearLevel_idle, exec_programFail_full, exec_eraseFail_used⟩,
    fun _ _ => ⟨fun hg => ⟨exec_stoFence_recorded hg, exec_stoReset_recorded hg⟩, exec_stoFenceDone_fenced,
      exec_stoFenceDone_idle, exec_stoClrCnt_answers⟩⟩

end

section
/-! PROOFS. The job library and the evidence recorder (O40). -/

namespace Sys2Proof.Machine

/-- Where the management processor acts, its command leaves what the effect does, and an output at most. -/
theorem State.completed_mgt {src : Src} (hm : src.ini = .mgt) (s : State) (cmd : Nat) (eff : State → State) :
    ∃ l, s.completed src cmd eff = { eff s with out := l } := by
  unfold State.completed
  dsimp only
  split
  · exact ⟨_, rfl⟩
  · exact ⟨_, State.answer_mgt _ _ _ _ hm⟩

/-! ### Segments that are freed or taken leave the hampers and the settings -/

section Segments
variable (s : State)

theorem State.wearCheck_sto : s.wearCheck.sto = s.sto :=
  (State.wearCheck_upd s (masks_self _ _) (.refl s)).parts.sto (by decide)

theorem State.freeSeg_hampers (region seg : Nat) : (s.freeSeg region seg).sto.hampers = s.sto.hampers := by
  unfold State.freeSeg
  split
  · rw [State.freeBlkId, State.wearCheck_sto]
    rfl
  · rfl

theorem State.freeSegs_hampers (region : Nat) (l : List Nat) :
    (l.foldl (fun s g => s.freeSeg region g) s).sto.hampers = s.sto.hampers :=
  List.foldlRecOn (motive := fun t : State => t.sto.hampers = s.sto.hampers) l _ rfl fun t ht g _ =>
    (t.freeSeg_hampers region g).trans ht

theorem State.freeRefs_hampers : s.freeRefs.sto.hampers = s.sto.hampers := by
  unfold State.freeRefs
  exact List.foldlRecOn (motive := fun t : State => t.sto.hampers = s.sto.hampers) _ _ rfl fun t ht r _ =>
    (t.freeSegs_hampers 4 r.segs).trans ht

theorem State.takeLib_hampers {s t : State} {l : List Nat} (n : Nat) (h : s.takeLib n = some (t, l)) :
    t.sto.hampers = s.sto.hampers := by
  induction n generalizing t l with
  | zero => cases h; rfl
  | succ n ih =>
    rw [State.takeLib] at h
    split at h
    · cases h
    · next u k hu =>
      dsimp only at h
      split at h
      · cases h
      · next v hv =>
        cases h
        obtain ⟨b, _, rfl⟩ := Option.map_eq_some_iff.mp hv
        exact show u.sto.hampers = s.sto.hampers from ih hu

/-- The cells that the check of wear may change beside those of its events. -/
def wearCells : List Fld := [.STO_H_WEARBITS, .STO_EVENTS_EV]

variable {f : Fld} (i : Nat) (hp : f.page ≠ 0) (h : ∀ g ∈ wearCells, g.id ≠ f.id)
include hp h

theorem State.wearCheck_get : s.wearCheck.get f i = s.get f i := by
  have hw : Fld.STO_H_WEARBITS.id ≠ f.id := h _ (by decide)
  have hev : Fld.STO_EVENTS_EV.id ≠ f.id := h _ (by decide)
  have hstep (t : State) (b k : Nat) :
      ((t.setBit .STO_H_WEARBITS 0 b).stoEvent k 0xFFFF 0 0xFF).get f i = t.get f i :=
    (State.sticky_get _ _ _ _ _ _ _ _ _ _ _ _ _ hp hev).trans (State.get_setBit_ne _ _ _ _ _ _ hw)
  unfold State.wearCheck
  extract_lets v t
  have ht : t.get f i = s.get f i := by
    unfold t
    split
    · exact hstep ..
    · rfl
  split
  · rw [hstep, ht]
  · exact ht

theorem State.freeSeg_get (region seg : Nat) : (s.freeSeg region seg).get f i = s.get f i := by
  unfold State.freeSeg
  split
  · exact State.wearCheck_get _ i hp h
  · rfl

theorem State.shrinkRing_get (n : Nat) : (s.shrinkRing n).get f i = s.get f i := by
  induction n generalizing s with
  | zero => rfl
  | succ n ih =>
    rw [State.shrinkRing]
    split
    · rfl
    · split
      · exact (ih _).trans (State.freeSeg_get _ i hp h ..)
      · rfl

end Segments

/-! ### Hampers (13_storage_job_library.md R332 to R335) -/

section Library
variable {s : State} {src : Src}

theorem exec_libPut_unread {addr len : Nat} {g : Sigs} {u : State} (hg : s.stoGate src = .ok)
    (hi : s.inStaging addr len = true) (hr : s.dramRead addr len = (u, none)) :
    exec (.libPut addr len g src) s = .next (u.answer src 0x20 .integrity) := by
  rw [exec_libPut, execLibPut, hg, hi, hr]
  rfl

theorem exec_libPut_read {addr len : Nat} {g : Sigs} {u : State} {h : List Nat} (hg : s.stoGate src = .ok)
    (hi : s.inStaging addr len = true) (hr : s.dramRead addr len = (u, some h)) :
    exec (.libPut addr len g src) s = .next (if (u.libPutCheck h g src).2 = .ok then
      (u.libPutCheck h g src).1.recorded src 0x20 (.libPut addr len g src)
        ((u.libPutCheck h g src).1.hamperRec src (hamperNum h) (tableDigest h)) (effLibPut addr len g src)
      else (u.libPutCheck h g src).1.answer src 0x20 (u.libPutCheck h g src).2) := by
  rw [exec_libPut, execLibPut, hg, hi, hr]
  by_cases hc : (u.libPutCheck h g src).2 = .ok
  · rw [if_pos hc]
    exact if_neg (not_not_intro hc)
  · rw [if_neg hc]
    exact if_pos hc

/-- A stored hamper takes the place of any of its number. -/
theorem State.storeHamper_hampers {u : State} {h : List Nat} (hs : s.storeHamper h = some u) :
    ∃ x : Hamper, x.num = hamperNum h ∧ x.length = h.length ∧ x.damaged = false ∧
      u.sto.hampers = (s.sto.hampers.filter fun y => y.num != hamperNum h) ++ [x] := by
  unfold State.storeHamper at hs
  dsimp only at hs
  split at hs
  · next t body q ht _ =>
    split at hs
    · cases hs
    · next v rsegs hv =>
      cases hs
      refine ⟨⟨hamperNum h, if q.byDigest then h else h.take q.off ++ h.drop (q.off + q.len), q.off, q.digest, h.length,
        false, s.rtc, body⟩, rfl, rfl, rfl, ?_⟩
      rw [State.freeRefs_hampers, State.freeSegs_hampers]
      dsimp only
      rw [State.takeLib_hampers _ hv, State.takeLib_hampers _ ht]
  · cases hs

theorem State.removeHamper_gone (s : State) (num : Nat) : (s.removeHamper num).hamper? num = none := by
  unfold State.removeHamper
  split
  · assumption
  · refine List.find?_eq_none.mpr fun x hx => ?_
    rw [State.freeRefs_hampers, State.freeSegs_hampers] at hx
    have hne : (x.num != num) = true := (List.mem_filter.mp hx).2
    simpa using hne

theorem exec_libDelete_recorded {num : Nat} (hg : s.stoGate src = .ok) (hc : s.libDeleteCheck num src = .ok) :
    Recorded (.libDelete num src) s src 0x21 (s.hamperRec src num noValue) fun t => t.hamper? num = none := by
  refine .of_exec (eff := effLibDelete num src) (by simp [execLibDelete, hg, hc]) fun hm => ?_
  obtain ⟨l, hl⟩ := State.completed_mgt hm s 0x21 (effLibDelete num src)
  rw [hl, effLibDelete, if_neg (not_not_intro hc)]
  exact State.removeHamper_gone s num

theorem exec_libList_answers {first count : Nat} (hg : s.stoGate src = .ok) (hc : count ≤ 64) :
    exec (.libList first count src) s =
      .next ((s.emit (.reply src 0x22 ((List.range count).flatMap fun i => s.dirEntry (first + i)))).answer src 0x22 .ok) := by
  rw [exec_libList, execLibList, hg]
  exact if_neg (Nat.not_lt.mpr hc)

theorem State.dirEntry_of_empty {num : Nat} (h : s.hamper? num = none) : s.dirEntry num = List.replicate 64 0 := by
  rw [State.dirEntry, h]

theorem exec_libGet_found {num stream addr : Nat} {r : NandRead} {h : Hamper} (hg : s.stoGate src = .ok)
    (hh : s.hamper? num = some h) : exec (.libGet num stream addr r src) s = .next (if r.uncorrectable then
      ((s.readCount r).damage fun x => x.num == num).answer src 0x23 .integrity
      else (s.readCount r).exportTo src 0x23 stream addr ((s.readCount r).fullImage h)) := by
  rw [exec_libGet, execLibGet, hg, hh]
  exact (apply_ite Host.Outcome.next ..).symm

theorem exec_libVerify_found {num : Nat} {g : Sigs} {r : NandRead} {h : Hamper} {c : Option (Nat × Status)}
    (hg : s.stoGate src = .ok) (hh : s.hamper? num = some h)
    (hc : c = if r.uncorrectable then some (7, Status.integrity) else (s.readCount r).storedCheck h g) :
    exec (.libVerify num g r src) s = .next (((((s.readCount r).libResult c num).setDamaged num c.isSome).emit
      (.reply src 0x24 [(c.getD (0, .ok)).1, 0, 0, 0])).answer src 0x24 (c.getD (0, .ok)).2) := by
  subst hc
  rw [exec_libVerify, execLibVerify, hg, hh]
  rfl

theorem State.libResult_spec (u : State) (c : Option (Nat × Status)) (num : Nat) :
    (u.libResult c num).get .STO_LIB_RESULT_NUMBER = num % 2 ^ Fld.STO_LIB_RESULT_NUMBER.width ∧
      (u.libResult c num).get .STO_LIB_RESULT_STEP = (c.getD (0, .ok)).1 % 2 ^ Fld.STO_LIB_RESULT_STEP.width := by
  unfold State.libResult
  exact ⟨State.get_set_same .., (State.get_set_ne _ _ _ _ _ _ (by decide)).trans (State.get_set_same ..)⟩

end Library

/-! ### The recorder (R337 to R340) -/

section Recorder
variable {s : State} {src : Src}

theorem exec_recorderProgram_down (h : s.unitDown 17 = true ∨ s.on .STO_H_READONLY = true ∨ s.on .STO_H_MOUNTED = false) :
    exec .recorderProgram s = .next s :=
  if_pos (by rcases h with h | h | h <;> simp [h])

section Programs
variable (hu : s.unitDown 17 = false) (hr : s.on .STO_H_READONLY = false) (hm : s.on .STO_H_MOUNTED = true)
include hu hr hm

theorem exec_recorderProgram_runs : exec .recorderProgram s = .next (s.programStaged s.sto.staged.length) :=
  if_neg (by simp [hu, hr, hm])

theorem exec_recorderProgram_empty (hs : s.sto.staged = []) : exec .recorderProgram s = .next s := by
  rw [exec_recorderProgram_runs hu hr hm, hs]
  rfl

variable {e : RecEntry} {l : List RecEntry} (hs : s.sto.staged = e :: l)
include hs

theorem exec_recorderProgram_fits (hf : s.sto.ring ≠ [] ∧ s.get .STO_H_SEGFILL + e.len ≤ segBytes ∧
    s.on .STO_H_SEGLIVE = true) : exec .recorderProgram s =
      .next ((({ s with sto := { s.sto with staged := l } } : State).putEntry e).programStaged l.length) := by
  rw [exec_recorderProgram_runs hu hr hm, hs, List.length_cons, State.programStaged, hs]
  exact congrArg _ (if_pos (by simp [hf]))

theorem exec_recorderProgram_opens (hf : ¬ (s.sto.ring ≠ [] ∧ s.get .STO_H_SEGFILL + e.len ≤ segBytes ∧
    s.on .STO_H_SEGLIVE = true)) : exec .recorderProgram s = .next (match s.openSeg with
      | none => s
      | some t => ((({ t with sto := { t.sto with staged := l } } : State).set .STO_H_SEGLIVE 0 1).putEntry e).programStaged
        l.length) := by
  rw [exec_recorderProgram_runs hu hr hm, hs, List.length_cons, State.programStaged, hs]
  refine congrArg _ ((if_neg fun h => hf ?_).trans rfl)
  simpa [and_assoc] using h

end Programs

theorem exec_recQuery_answers (hg : s.stoGate src = .ok) : exec (.recQuery src) s =
    .next ((s.emit (.reply src 0x30 (leBytes 8 s.recOldest ++ leBytes 8 s.recNewest ++ leBytes 4 s.keptSegs ++
      leBytes 4 (s.get .STO_CNT_REC_MISSED)))).answer src 0x30 .ok) := by
  rw [exec_recQuery, execRecQuery, hg]
  rfl

section Range
variable {first count : Nat}

section Get
variable {stream addr : Nat} {r : NandRead} {lost : List Nat} {u : State} (hg : s.stoGate src = .ok)
  (hu : u = (s.readCount r).entriesLost first count lost)
include hg hu

theorem exec_recGet_exports (ha : u.anyEntry first count = true) :
    exec (.recGet first count (stream, addr) ⟨r, lost⟩ src) s = .next (u.exportTo src 0x31 stream addr
      ((List.range count).flatMap fun i => match u.entry? (first + i) with
        | some e => e.bytes
        | none => absentEntry (first + i))) := by
  subst hu
  rw [exec_recGet, execRecGet, hg]
  exact (if_neg (not_not_intro rfl)).trans (if_neg (by simp [ha]))

theorem exec_recGet_empty (ha : u.anyEntry first count = false) :
    exec (.recGet first count (stream, addr) ⟨r, lost⟩ src) s = .next (u.answer src 0x31 .range) := by
  subst hu
  rw [exec_recGet, execRecGet, hg]
  exact (if_neg (not_not_intro rfl)).trans (if_pos (by simp [ha]))

end Get

theorem State.entriesLost_gone (v : State) {lost : List Nat} {q : Nat} (h0 : first ≤ q) (h1 : q < first + count)
    (hl : q ∈ lost) : (v.entriesLost first count lost).entry? q = none := by
  refine List.find?_eq_none.mpr fun e he heq => ?_
  have hq : e.seq = q := by simpa using heq
  have hkept := (List.mem_filter.mp he).2
  simp [hq, h0, h1, hl] at hkept

/-- A kept entry has bit 0 of its flags set, a released one clear. -/
theorem State.setKept_flag (v : State) (b : Bool) : ∀ e ∈ (v.setKept first count b).sto.entries, first ≤ e.seq →
    e.seq < first + count → e.flags.testBit 0 = b := by
  intro e he h0 h1
  obtain ⟨x, _, rfl⟩ := List.mem_map.mp he
  by_cases hx : (decide (first ≤ x.seq) && decide (x.seq < first + count)) = true
  · rw [if_pos hx]
    cases b with
    | true => simp
    | false =>
      have heven : (x.flags - x.flags % 2) % 2 = 0 := by omega
      simp [Nat.testBit_zero, heven]
  · rw [if_neg hx] at h0 h1
    exact absurd (by simp [h0, h1]) hx

theorem exec_recKeep_recorded (hg : s.stoGate src = .ok) (hc : s.recKeepCheck first count = .ok) :
    Recorded (.recKeep first count src) s src 0x32 (s.auditRec src 3 4 (first % 2 ^ 32) noValue noValue) fun t =>
      ∀ e ∈ t.sto.entries, first ≤ e.seq → e.seq < first + count → e.flags.testBit 0 = true := by
  refine .of_exec (eff := effRecKeep first count src) (by simp [execRecKeep, hg, hc]) fun hm => ?_
  obtain ⟨l, hl⟩ := State.completed_mgt hm s 0x32 (effRecKeep first count src)
  rw [hl, effRecKeep, if_neg (not_not_intro hc)]
  exact State.setKept_flag s true

theorem exec_recRelease_recorded (hg : s.stoGate src = .ok) (ha : s.anyEntry first count = true) :
    Recorded (.recRelease first count src) s src 0x33 (s.auditRec src 3 4 (first % 2 ^ 32) noValue noValue) fun t =>
      ∀ e ∈ t.sto.entries, first ≤ e.seq → e.seq < first + count → e.flags.testBit 0 = false := by
  refine .of_exec (eff := effRecRelease first count src) (by simp [execRecRelease, hg, ha]) fun hm => ?_
  obtain ⟨l, hl⟩ := State.completed_mgt hm s 0x33 (effRecRelease first count src)
  rw [hl, effRecRelease, if_pos ha]
  exact State.setKept_flag s false

end Range

/-- `REC_GIB` and the size in force, once a size is written that leaves the library its segments. -/
theorem effRecGibWrite_spec {v : Nat} (hv : v < 65536) (hok : s.recGibOk v = true) :
    (effRecGibWrite v src s).get .STO_CFG1_REC_GIB = v ∧
      (effRecGibWrite v src s).get .STO_SPACE_REC_GIB_NOW = v % 2 ^ Fld.STO_SPACE_REC_GIB_NOW.width := by
  rw [effRecGibWrite, if_neg (by simp [hok])]
  extract_lets t u w
  have hw (f : Fld) (hp : f.page ≠ 0) (h : ∀ g ∈ wearCells, g.id ≠ f.id) (hl : Fld.STO_H_SEGLIVE.id ≠ f.id) :
      w.get f = t.get f := by
    refine (State.shrinkRing_get _ _ hp h _).trans ?_
    unfold u
    split
    · rfl
    · exact State.get_set_ne _ _ _ _ _ _ hl
  rw [State.keepSetting_get, State.keepSetting_get, hw _ (by decide) (by decide) (by decide),
    hw _ (by decide) (by decide) (by decide)]
  refine ⟨?_, State.get_set_same ..⟩
  rw [State.get_set_ne _ _ _ _ _ _ (by decide), State.get_set_same]
  exact Nat.mod_eq_of_lt hv

theorem exec_recGibWrite_recorded {v : Nat} (hv : v < 65536) (hg : s.gate src .installer 17 = .ok)
    (hb : s.settingsBusy src = false) (hok : s.recGibOk v = true) : Recorded (.recGibWrite v src) s src 0x540424
      (s.writeRec src 0x540424 (v + 2 ^ 16 * s.get .STO_CFG1_KEEP_MAX_PCT)) fun t =>
        t.get .STO_CFG1_REC_GIB = v ∧ t.get .STO_SPACE_REC_GIB_NOW = v % 2 ^ Fld.STO_SPACE_REC_GIB_NOW.width := by
  refine .of_exec (eff := effRecGibWrite v src) ?_ fun hm => ?_
  · simp [execRecGibWrite, hg, hb, Nat.mod_eq_of_lt hv, hok]
  · rw [State.completed_get_mgt hm, State.completed_get_mgt hm]
    exact effRecGibWrite_spec hv hok

end Recorder

end Sys2Proof.Machine

open Sys2Proof Sys2Proof.Machine

/-- Settles O40: the library's commands by the hamper they name, the recorder's by the entries they find. -/
theorem libraryAndRecorderCommandsComplete : Obligations.LibraryAndRecorderCommandsComplete :=
  ⟨fun _ _ _ _ _ _ => ⟨fun hg hi => ⟨exec_libPut_unread hg hi, fun _ => exec_libPut_read hg hi⟩,
      fun _ => State.storeHamper_hampers⟩,
    fun _ _ _ _ _ _ _ _ hg => ⟨exec_libDelete_recorded hg, exec_libList_answers hg, State.dirEntry_of_empty,
      fun _ => exec_libGet_found hg⟩,
    fun num _ r _ s _ c hg hh hc => ⟨exec_libVerify_found hg hh hc, (s.readCount r).libResult_spec c num⟩,
    fun _ hu hr hm => ⟨exec_recorderProgram_empty hu hr hm, fun _ _ hs => ⟨exec_recorderProgram_fits hu hr hm hs,
      exec_recorderProgram_opens hu hr hm hs⟩⟩,
    fun _ => exec_recorderProgram_down,
    fun _ _ _ _ _ _ _ _ _ hg hu => ⟨exec_recQuery_answers hg, exec_recGet_exports hg hu, exec_recGet_empty hg hu,
      fun _ h0 h1 hl => hu ▸ State.entriesLost_gone _ h0 h1 hl⟩,
    fun _ _ _ _ hg => ⟨exec_recKeep_recorded hg, exec_recRelease_recorded hg⟩,
    fun _ _ _ => exec_recGibWrite_recorded⟩

end

section
/-! PROOFS. Memory transactions (O27). -/

namespace Sys2Proof.Machine

/-! ### Bytes -/

theorem State.memByte_lt (s : State) (a : Nat) : s.memByte a < 256 := (memGet s.mem a).isLt

theorem State.memByte_putByte_same (s : State) (a v : Nat) : (s.putByte a v).memByte a = v % 256 := by
  rw [State.memByte, State.putByte, memGet_put_same]
  exact BitVec.toNat_ofNat ..

/-- A byte of what is stored reads the stored value. -/
theorem State.putBytes_same (s : State) (a : Nat) (l : List Nat) {b : Nat} (h0 : a ≤ b) (h1 : b < a + l.length) :
    (s.putBytes a l).memByte b = l.getD (b - a) 0 % 256 := by
  induction l generalizing s a with
  | nil => exact absurd h1 (by simpa using h0)
  | cons v l ih =>
    rw [State.putBytes]
    rcases Nat.eq_or_lt_of_le h0 with rfl | hlt
    · rw [State.putBytes_other _ _ _ _ (.inl (Nat.lt_succ_self _)), State.memByte_putByte_same, Nat.sub_self]
      rfl
    · rw [ih _ _ hlt (by rw [List.length_cons] at h1; omega), ← List.getD_cons_succ (x := v)]
      congr 2
      omega

/-- Bytes depend on the memory alone. -/
theorem State.memBytes_congr {s t : State} (h : t.mem = s.mem) (a n : Nat) : t.memBytes a n = s.memBytes a n := by
  induction n generalizing a with
  | zero => rfl
  | succ n ih => rw [State.memBytes, State.memBytes, ih, State.memByte, State.memByte, h]

/-! ### What a transaction leaves of the memory -/

/-- No command code is above a byte, so an answer under an address writes nothing into the command buffer. -/
theorem State.answer_mem (s : State) (src : Src) {cmd : Nat} (st : Status) (h : 256 ≤ cmd) :
    (s.answer src cmd st).mem = s.mem := by
  unfold State.answer
  split
  · exact (State.hostReply_upd _ _ _ _ _ (masks_self _ _) (.refl _)).parts.mem (by decide)
  · have hne : (cmd == s.memByte (cmdBuf + 16)) = false :=
      beq_eq_false_iff_ne.mpr fun e => Nat.not_lt.mpr h (e ▸ s.memByte_lt _)
    rw [State.i3cReply, hne, Bool.and_false]
    rfl
  · rfl

theorem State.memDone_mem (s : State) (r : MemReq) (st : Status) (data : List Nat) (h : 256 ≤ r.addr) :
    (s.memDone r st data).mem = s.mem := by
  unfold State.memDone
  split
  · split
    · rfl
    · exact (State.staleDrop_upd _ _ (masks_self _ _) (.refl _)).parts.mem (by decide)
  · dsimp only
    rw [State.answer_mem _ _ _ h]
    split <;> rfl

theorem State.memCount_mem (s : State) (a n : Nat) : (s.memCount a n).mem = s.mem :=
  (State.memCount_upd s a n (masks_self _ _) (.refl _)).parts.mem (by decide)

theorem State.memCount_out (s : State) (a n : Nat) : (s.memCount a n).out = s.out :=
  (State.memCount_upd s a n (masks_self _ _) (.refl _)).parts.out (by decide)

theorem State.memCount_badIn (s : State) (a n : Nat) : (s.memCount a n).badIn = s.badIn := by
  unfold State.badIn
  rw [(State.memCount_upd s a n (masks_self _ _) (.refl _)).parts.bad (by decide)]

theorem State.memDenied_mem (s : State) (a n : Nat) (w : Bool) (st : Status) : (s.memDenied a n w st).mem = s.mem :=
  (State.memDenied_upd s a n w st (masks_self _ _) (.refl _)).parts.mem (by decide)

/-- The bytes of a write, and no others, take its values. -/
theorem State.dramWrite_memByte (s : State) (a : Nat) (l : List Nat) (b : Nat) : (s.dramWrite a l).memByte b =
    if a ≤ b ∧ b < a + l.length then l.getD (b - a) 0 % 256 else s.memByte b := by
  have hw : (s.dramWrite a l).memByte b = ((s.memCount a l.length).putBytes a l).memByte b := rfl
  rw [hw]
  split
  · next h => exact State.putBytes_same _ _ _ h.1 h.2
  · rw [State.putBytes_other _ _ _ _ (by omega), State.memByte, State.memCount_mem]
    rfl

theorem State.memCheck_addr {s : State} {blk : Nat} {src : Src} {addr len : Nat} {w : Bool}
    (h : s.memCheck blk src addr len w = .ok) : memBase ≤ addr := by
  by_contra hlt
  have hr : s.memRange blk src addr len = false := by
    unfold State.memRange
    simp [hlt]
  rw [State.memCheck, hr] at h
  exact absurd h (by simp)

/-! ### The transaction (14_memory_subsystem.md R350, R356, R357) -/

/-- The request that a transaction makes. -/
def State.memReqOf (s : State) (blk : Nat) (src : Src) (cls addr len : Nat) (d : Option (List Nat)) : MemReq :=
  ⟨if blk < 24 then blk else 255, s.get .MGT_H_GEN blk, src, min cls 3, addr, len, d, s.elapsed, false⟩

/-- The only request that waits is the next of its channel, whatever its granule. -/
theorem memNext_single (r : MemReq) (hc : r.class ≤ 4) : memNext [r] (memChannel r.addr) = some 0 := by
  cases hg : r.sameGranule r <;> simp [memNext, hc, hg]

section Transaction
variable {s : State} {blk addr len cls : Nat} {src : Src} {d : Option (List Nat)} {err : MemErr} {busy : Bool}

theorem exec_memoryTransaction_refused (h : s.memCheck blk src addr len d.isSome ≠ .ok) :
    exec (.memoryTransaction blk src cls addr len d err busy) s =
      .next ((s.memDenied addr len d.isSome (s.memCheck blk src addr len d.isSome)).memDone
        (s.memReqOf blk src cls addr len d) (s.memCheck blk src addr len d.isSome) []) := if_pos h

section Allowed
variable (h : s.memCheck blk src addr len d.isSome = .ok)
include h

theorem exec_memoryTransaction_waits : exec (.memoryTransaction blk src cls addr len d err true) s =
    .next { s with memq := s.memq ++ [s.memReqOf blk src cls addr len d] } := if_neg (not_not_intro h)

theorem exec_memoryTransaction_serves : exec (.memoryTransaction blk src cls addr len d err false) s =
    .next (({ s with memq := s.memq ++ [s.memReqOf blk src cls addr len d] } : State).memServe (memChannel addr) err
      (s.memq.length + 1)) := by
  rw [exec_memoryTransaction, execMemoryTransaction]
  refine (if_neg (not_not_intro h)).trans ?_
  dsimp only
  rw [List.length_append]
  rfl

/-- On an empty queue the newcomer is performed and completed alone. -/
theorem exec_memoryTransaction_alone (hq : s.memq = []) :
    exec (.memoryTransaction blk src cls addr len d err false) s = .next ((s.memPerform addr len d err).1.memDone
      (s.memReqOf blk src cls addr len d) (s.memPerform addr len d err).2.1 (s.memPerform addr len d err).2.2) := by
  have hnext : memNext [s.memReqOf blk src cls addr len d] (memChannel addr) = some 0 := memNext_single _ (by
    have hcls : (s.memReqOf blk src cls addr len d).class = min cls 3 := rfl
    omega)
  have hs : ({ s with memq := [] } : State) = s := by
    rw [← hq]
  rw [exec_memoryTransaction_serves h, hq, List.nil_append, State.memServe]
  dsimp only
  rw [hnext]
  dsimp only [List.getElem?_cons_zero, List.drop_succ_cons, List.drop_zero, List.any_nil, List.eraseIdx_cons_zero,
    Bool.not_false]
  rw [hs]
  rfl

end Allowed

theorem exec_memoryTransaction_writes {l : List Nat} (h : s.memCheck blk src addr len true = .ok) (hq : s.memq = [])
    (hl : l.length = len) : Completes (.memoryTransaction blk src cls addr len (some l) err false) s fun t =>
      ∀ b, t.memByte b = if addr ≤ b ∧ b < addr + len then l.getD (b - addr) 0 % 256 else s.memByte b := by
  have haddr : 256 ≤ addr := le_trans (by decide) (State.memCheck_addr h)
  refine ⟨_, exec_memoryTransaction_alone h hq, fun b => ?_⟩
  have hperf : s.memPerform addr len (some l) err = (s.dramWrite addr l, .ok, []) := by
    rw [State.memPerform, List.take_of_length_le (Nat.le_of_eq hl)]
  rw [State.memByte, State.memDone_mem _ _ _ _ haddr, hperf, ← hl]
  exact s.dramWrite_memByte addr l b

theorem exec_memoryTransaction_reads (h : s.memCheck 255 src addr len false = .ok) (hq : s.memq = [])
    (hb : s.badIn addr len = []) : Completes (.memoryTransaction 255 src cls addr len none .none false) s fun t =>
      t.mem = s.mem ∧ ∃ u : State, u.out = s.out ∧
        t = (u.emit (.reply src addr (s.memBytes addr len))).answer src addr .ok := by
  have haddr : 256 ≤ addr := le_trans (by decide) (State.memCheck_addr h)
  have hperf : s.memPerform addr len none .none = (s.memCount addr len, .ok, s.memBytes addr len) := by
    rw [State.memPerform, State.memCount_badIn, hb, State.memBytes_congr (s.memCount_mem addr len)]
    rfl
  refine ⟨_, exec_memoryTransaction_alone (d := none) h hq, ?_, s.memCount addr len, s.memCount_out addr len, ?_⟩
  · rw [State.memDone_mem _ _ _ _ haddr, hperf, State.memCount_mem]
  · rw [hperf]
    rfl

theorem exec_memoryTransaction_denied (h : s.memCheck 255 src addr len d.isSome ≠ .ok) (haddr : 256 ≤ addr) :
    Completes (.memoryTransaction 255 src cls addr len d err false) s fun t => t.mem = s.mem :=
  ⟨_, exec_memoryTransaction_refused h, (State.memDone_mem _ _ _ _ haddr).trans (State.memDenied_mem ..)⟩

end Transaction

end Sys2Proof.Machine

open Sys2Proof Sys2Proof.Machine

/-- Settles O27: a transaction is refused, waits, is served with the others or alone; then what alone it writes and reads. -/
theorem memoryTransactionsComplete : Obligations.MemoryTransactionsComplete := by
  refine ⟨?_, fun _ _ _ _ _ _ _ _ => exec_memoryTransaction_writes, fun _ _ _ _ _ _ _ =>
    ⟨exec_memoryTransaction_reads, exec_memoryTransaction_denied⟩⟩
  rintro blk src cls addr len d err busy s _ rfl
  refine ⟨exec_memoryTransaction_refused, fun h => ⟨?_, ?_, ?_⟩⟩
  · rintro rfl
    exact exec_memoryTransaction_waits h
  · rintro rfl
    exact exec_memoryTransaction_serves h
  · rintro rfl
    exact exec_memoryTransaction_alone h

end

section
/-! PROOFS. Polls, refresh, fence, reset and counters of the memory controller (O28). -/

namespace Sys2Proof.Machine

/-! ### A field of a word that is replaced -/

/-- Two bits at `k` of a word of `w` bits, taken out and put in, read what was put in. -/
theorem bits_replaced (v : Nat) {k w x : Nat} (hk : k + 2 ≤ w) (hx : x < 4) :
    bits ((v - bits v k 2 * 2 ^ k + x * 2 ^ k) % 2 ^ w) k 2 = x := by
  obtain ⟨e, rfl⟩ := Nat.exists_eq_add_of_le hk
  have hpos : 0 < 2 ^ k := Nat.two_pow_pos k
  have hword : 2 ^ (k + 2 + e) = 2 ^ k * (4 * 2 ^ e) := by rw [Nat.pow_add, Nat.pow_add, Nat.mul_assoc]
  have hsub : v - bits v k 2 * 2 ^ k = 2 ^ k * (4 * (v / 2 ^ k / 4)) + v % 2 ^ k := by
    have hv := Nat.div_add_mod v (2 ^ k)
    have hq := Nat.div_add_mod (v / 2 ^ k) 4
    have hb : bits v k 2 = v / 2 ^ k % 4 := rfl
    have hsplit : v = 2 ^ k * (4 * (v / 2 ^ k / 4)) + v / 2 ^ k % 4 * 2 ^ k + v % 2 ^ k := by
      conv_lhs => rw [← hv, ← hq, Nat.mul_add, Nat.mul_comm (2 ^ k) (v / 2 ^ k % 4)]
    rw [hb]
    generalize 2 ^ k * (4 * (v / 2 ^ k / 4)) = high at *
    generalize v / 2 ^ k % 4 * 2 ^ k = field at *
    omega
  have hval : 2 ^ k * (4 * (v / 2 ^ k / 4)) + v % 2 ^ k + x * 2 ^ k = 2 ^ k * (4 * (v / 2 ^ k / 4) + x) + v % 2 ^ k := by
    rw [Nat.mul_add, Nat.mul_comm x]
    omega
  rw [hsub, hval, hword, bits, Nat.mod_mul_right_div_self, Nat.mul_add_div hpos, Nat.div_eq_of_lt (Nat.mod_lt _ hpos),
    Nat.mod_mod_of_dvd _ (by exact Dvd.intro (2 ^ e) rfl)]
  omega

/-! ### Requests that wait, polls and refresh (14_memory_subsystem.md R350, R353, R357) -/

section Polls
variable {s : State} {ch : Nat}

theorem exec_priorityPromote_completes (n : Nat) (s : State) : Completes (.priorityPromote n) s fun t =>
    (∀ r, s.memq[n]? = some r → r.born + 20000 ≤ s.elapsed → t.memq[n]? = some { r with promoted := true }) ∧
      (∀ r, s.memq[n]? = some r → s.elapsed < r.born + 20000 → t.memq[n]? = some r) ∧
      (∀ k, k ≠ n → t.memq[k]? = s.memq[k]?) ∧ t.memq.length = s.memq.length := by
  refine ⟨_, rfl, fun r hr ht => ?_, fun r hr ht => ?_, fun k hk => ?_, List.length_modify ..⟩
  · rw [List.getElem?_modify_eq, hr]
    exact congrArg some (if_pos ht)
  · rw [List.getElem?_modify_eq, hr]
    exact congrArg some (if_neg (Nat.not_le.mpr ht))
  · exact List.getElem?_modify_ne _ _ hk.symm

theorem exec_mr4Poll_idle {level : Nat} (h : 16 ≤ ch ∨ 4 ≤ level ∨ s.on .MEM_H_SELF = true) :
    exec (.mr4Poll ch level) s = .next s := if_pos (by simpa [or_assoc] using h)

theorem State.memEvent_get (s : State) (k inst addr level : Nat) (f : Fld) (i : Nat) (h : f.page ≠ 0)
    (he : Fld.MEM_EVENTS_EV.id ≠ f.id) : (s.memEvent k inst addr level).get f i = s.get f i :=
  State.sticky_get _ _ _ _ _ _ _ _ _ _ _ _ _ h he

theorem exec_mr4Poll_completes {level : Nat} (hc : ch < 16) (hl : level < 4) (hs : s.on .MEM_H_SELF = false) :
    Completes (.mr4Poll ch level) s fun t => bits (t.get .MEM_TEMP_LEVELS) (2 * ch) 2 = level := by
  have hevent : ∀ (p : Prop) [Decidable p] (u : State) (k inst : Nat),
      (if p then u.memEvent k inst 0 level else u).get .MEM_TEMP_LEVELS = u.get .MEM_TEMP_LEVELS := fun p _ u k inst => by
    split
    · exact State.memEvent_get _ _ _ _ _ _ _ (by decide) (by decide)
    · rfl
  have hhot : ∀ (p : Prop) [Decidable p] (u : State) (n : Nat),
      (if p then u.set .MEM_H_HOT ch n else u).get .MEM_TEMP_LEVELS = u.get .MEM_TEMP_LEVELS := fun p _ u n => by
    split
    · exact State.get_set_ne _ _ _ _ _ _ (by decide)
    · rfl
  refine ⟨_, if_neg (by simp [hs, hc, hl]), ?_⟩
  simp only [hevent, hhot, State.get_set_same]
  exact bits_replaced _ (show 2 * ch + 2 ≤ 32 by omega) hl

theorem poll_idle (n : Nat) (h : 16 ≤ ch ∨ s.on .MEM_H_SELF = true) :
    exec (.refresh ch) s = .next s ∧ exec (.writeLinkPoll ch n) s = .next s :=
  ⟨if_pos (by simpa using h), if_pos (by simpa using h)⟩

section InService
variable (hc : ch < 16) (hs : s.on .MEM_H_SELF = false)
include hc hs

theorem exec_refresh_completes : Completes (.refresh ch) s fun t => t.get .MEM_H_REFRESHED ch =
    min (s.get .MEM_H_REFRESHED ch + 1) (2 ^ Fld.MEM_H_REFRESHED.width - 1) :=
  ⟨_, if_neg (by simp [hc, hs]), State.get_inc_same ..⟩

theorem exec_writeLinkPoll_completes (n : Nat) : Completes (.writeLinkPoll ch n) s fun t =>
    t.get .MEM_CNT_LINK = min (s.get .MEM_CNT_LINK + n) (2 ^ 32 - 1) :=
  ⟨_, if_neg (by simp [hc, hs]), State.get_add_same ..⟩

end InService
end Polls

/-! ### Fence, reset and counters (R361, R515) -/

section Control
variable {s : State} {src : Src}

theorem exec_memFence_recorded (hg : s.gate src .installer 16 = .ok) (hn : s.memNeeded = false) :
    Recorded (.memFence src) s src 0 (s.writeRec src 0x500008 1) fun t => t.get .MEM_CTRL_FENCE = 1 := by
  refine .of_exec (eff := effMemFence src) (by simp [execMemFence, hg, hn]) fun _ => ?_
  rw [State.completed_get _ _ (by decide) (by decide), effMemFence, if_neg (by simp [hn])]
  exact State.get_set_same ..

theorem exec_memFenceDone_fenced (hf : s.on .MEM_CTRL_FENCE = true) (hq : ∀ r ∈ s.memq, isMgt r.blk r.src = true) :
    exec .memFenceDone s = .next (s.set .MEM_CTRL_FENCED 0 1) :=
  if_pos (by rw [hf, Bool.true_and]; exact List.all_eq_true.mpr hq)

theorem exec_memFenceDone_idle (h : s.on .MEM_CTRL_FENCE = false ∨ ∃ r ∈ s.memq, isMgt r.blk r.src = false) :
    exec .memFenceDone s = .next s := by
  refine if_neg fun hb => ?_
  obtain ⟨hf, hq⟩ := Bool.and_eq_true_iff.mp hb
  rcases h with h | ⟨r, hr, hm⟩
  · exact absurd (h.symm.trans hf) (by decide)
  · exact absurd (hm.symm.trans (List.all_eq_true.mp hq r hr)) (by decide)

theorem exec_memReset_recorded (hg : s.gate src .installer 16 = .ok) (hf : s.get .MEM_CTRL_FENCED = 1) :
    Recorded (.memReset src) s src 0 (s.writeRec src 0x500008 (2 + s.get .MEM_CTRL_FENCE)) fun t =>
      t.get .PWR_H_RESETTING 16 = 1 ∧ t.get .MEM_STATUS_TRAINED = 0 := by
  have hon : s.on .MEM_CTRL_FENCED = true := by rw [State.on, hf]; rfl
  have heff : effMemReset src s = ((s.set .MEM_H_SELF 0 1).set .MEM_STATUS_TRAINED 0 0).blockReset 16 :=
    if_neg (by simp [hon])
  refine .of_exec (eff := effMemReset src) (by simp [execMemReset, hg, hon]) fun _ => ?_
  rw [State.completed_get _ _ (by decide) (by decide), State.completed_get _ _ (by decide) (by decide), heff]
  refine ⟨State.blockReset_resetting _ 16, ?_⟩
  exact ((State.blockReset_upd _ 16 (masks_self _ _) (.refl _)).cells _ _ (by decide)).trans (State.get_set_same ..)

theorem exec_memResetDone_idle (h : s.on .PWR_H_RESETTING 16 = false) : exec .memResetDone s = .next s :=
  if_neg (ne_true_of_eq_false h)

theorem exec_memResetDone_completes (h : s.on .PWR_H_RESETTING 16 = true) : Completes .memResetDone s fun t =>
    t.get .PWR_H_RESETTING 16 = 0 ∧ t.get .MEM_H_SELF = 0 ∧ t.get .MEM_STATUS_TRAINED = 1 := by
  refine ⟨_, if_pos h, ?_⟩
  simp (disch := decide) only [State.get_set_ne, State.get_set_same]
  decide

/-- The counters of the memory controller that `CLR_CNT` clears. -/
def memCounters : List Fld := [.MEM_CNT_CE, .MEM_CNT_UE, .MEM_CNT_LINK, .MEM_CNT_DENIED, .MEM_CNT_FS_FULL]

theorem State.memClrCnt_get (s : State) : ∀ f ∈ memCounters, s.memClrCnt.get f = 0 := fun f hf =>
  State.foldl_clear_get hf (fun g hg =>
    (by decide : ∀ f ∈ memCounters, ∀ g ∈ memCounters, g.id = f.id → g = f) f hf g hg) 0 s

theorem exec_memClrCnt_answers (hg : s.gate src .operator 16 = .ok) :
    exec (.memClrCnt src) s = .next (s.memClrCnt.answer src 0 .ok) := if_neg (not_not_intro hg)

end Control

end Sys2Proof.Machine

open Sys2Proof Sys2Proof.Machine

/-- Settles O28: each poll by whether its channel is in service, and fence, reset and counters by their laws above. -/
theorem memoryControlCommandsComplete : Obligations.MemoryControlCommandsComplete :=
  ⟨exec_priorityPromote_completes, fun _ _ _ => ⟨exec_mr4Poll_idle, exec_mr4Poll_completes⟩,
    fun _ n _ => ⟨poll_idle n, fun hc hs => ⟨exec_refresh_completes hc hs, exec_writeLinkPoll_completes hc hs n⟩⟩,
    fun _ _ => ⟨exec_memFence_recorded, exec_memFenceDone_fenced, exec_memFenceDone_idle⟩,
    fun _ s => ⟨exec_memReset_recorded, exec_memResetDone_idle, exec_memResetDone_completes, fun hg =>
      ⟨exec_memClrCnt_answers hg, s.memClrCnt_get _ (by decide), s.memClrCnt_get _ (by decide)⟩⟩⟩

end

section
/-! PROOFS. What a fabric port does with a packet it has received, and with a symbol whose bytes are wrong (O50). -/

namespace Sys2Proof.Machine

/-! ### The receipt of a packet, check by check (15_botex_fabric.md R364 to R369) -/

section Packet
variable {s v : State} {p n exp l : Nat} {hdr data : List Nat} {bad poison cut : Bool}

theorem exec_fabPacketReceived_dead (hp : p < 8)
    (hd : (s.portPayload p).portState p = portDown ∨ (s.portPayload p).portState p = portAsleep) :
    exec (.fabPacketReceived p hdr data bad poison cut n) s = .next (s.portPayload p) := by
  rw [exec_fabPacketReceived, execFabPacketReceived, Nat.mod_eq_of_lt hp]
  exact if_pos (by simpa using hd)

section Alive
variable (hp : p < 8) (hv : v = s.portPayload p) (he : exp = v.get .FAB_H_RXSEQ p) (hl : l = hdr.getD 3 0 % 256)
  (hdown : v.portState p ≠ portDown) (hasleep : v.portState p ≠ portAsleep)
include hp hv he hl hdown hasleep

/-- At a port that is neither DOWN nor ASLEEP the checks of the header, the wait for a resend, the CRC and the
sequence number decide, in this order. -/
theorem exec_fabPacketReceived_alive :
    exec (.fabPacketReceived p hdr data bad poison cut n) s =
      if linkHeaderOk hdr data = false then .next (v.linkBad p exp)
      else if v.on .FAB_H_NAKKED p = true ∧ l ≠ exp then .next (v.sendCredit p (hdr.getD 0 0) (pktCredits data))
      else if bad = true then
        if 128 ≤ (l + 256 - exp) % 256 then
          .next ((v.sendCredit p (hdr.getD 0 0) (pktCredits data)).inc .FAB_PORT_CNT_CRC p)
        else .next ((if cut = true ∧ data.getD 2 0 < 64 ∧ data.getD 2 0 ≠ v.node ∧ v.fabUp p = true then
            v.fabForward p (hdr.getD 0 0) data true
          else v.sendCredit p (hdr.getD 0 0) (pktCredits data)).linkBad p l).jobAnswers
      else if 128 ≤ (l + 256 - exp) % 256 then
        .next ((v.sendCredit p (hdr.getD 0 0) (pktCredits data)).emit (.symbol p 0x41 [(exp + 255) % 256, 0, 0, 0, 0]))
      else if poison = true then
        .next ((((((v.sendCredit p (hdr.getD 0 0) (pktCredits data)).set .FAB_H_RXSEQ p (l + 1)).set .FAB_H_NAKKED p 0).emit
          (.symbol p 0x41 [l, 0, 0, 0, 0])).inc .FAB_PORT_CNT_RX p).inc .FAB_PORT_CNT_POISON p)
      else .next (((((v.set .FAB_H_RXSEQ p (l + 1)).set .FAB_H_NAKKED p 0).emit
        (.symbol p 0x41 [l, 0, 0, 0, 0])).inc .FAB_PORT_CNT_RX p).netReceive p (hdr.getD 0 0) data n).jobAnswers := by
  subst hv he hl
  rw [exec_fabPacketReceived, execFabPacketReceived, Nat.mod_eq_of_lt hp]
  refine (if_neg (by simpa using ⟨hdown, hasleep⟩)).trans ?_
  simp only [Bool.not_eq_true', Bool.and_eq_true, bne_iff_ne, ne_eq, decide_eq_true_eq, and_assoc]

theorem exec_fabPacketReceived_badHeader (hh : linkHeaderOk hdr data = false) :
    exec (.fabPacketReceived p hdr data bad poison cut n) s = .next (v.linkBad p exp) :=
  (exec_fabPacketReceived_alive hp hv he hl hdown hasleep).trans (if_pos hh)

section GoodHeader
variable (hh : linkHeaderOk hdr data = true)
include hh

theorem exec_fabPacketReceived_held (hn : v.on .FAB_H_NAKKED p = true) (hx : l ≠ exp) :
    exec (.fabPacketReceived p hdr data bad poison cut n) s =
      .next (v.sendCredit p (hdr.getD 0 0) (pktCredits data)) := by
  rw [exec_fabPacketReceived_alive hp hv he hl hdown hasleep, if_neg (by simp [hh]), if_pos ⟨hn, hx⟩]

theorem exec_fabPacketReceived_old (hn : v.on .FAB_H_NAKKED p = false) (ho : 128 ≤ (l + 256 - exp) % 256) :
    exec (.fabPacketReceived p hdr data bad poison cut n) s =
      .next (if bad then (v.sendCredit p (hdr.getD 0 0) (pktCredits data)).inc .FAB_PORT_CNT_CRC p
        else (v.sendCredit p (hdr.getD 0 0) (pktCredits data)).emit
          (.symbol p 0x41 [(exp + 255) % 256, 0, 0, 0, 0])) := by
  rw [exec_fabPacketReceived_alive hp hv he hl hdown hasleep, if_neg (by simp [hh]), if_neg (by simp [hn]), if_pos ho,
    if_pos ho]
  cases bad <;> rfl

section InSequence
variable (hn : v.on .FAB_H_NAKKED p = false ∨ l = exp) (hseq : (l + 256 - exp) % 256 < 128)
include hn hseq

theorem exec_fabPacketReceived_crcBad : exec (.fabPacketReceived p hdr data true poison cut n) s =
    .next ((if cut = true ∧ data.getD 2 0 < 64 ∧ data.getD 2 0 ≠ v.node ∧ v.fabUp p = true then
        v.fabForward p (hdr.getD 0 0) data true
      else v.sendCredit p (hdr.getD 0 0) (pktCredits data)).linkBad p l).jobAnswers := by
  rw [exec_fabPacketReceived_alive hp hv he hl hdown hasleep, if_neg (by simp [hh]),
    if_neg (by rcases hn with h | h <;> simp [h]), if_pos rfl, if_neg (Nat.not_le.mpr hseq)]

theorem exec_fabPacketReceived_crcGood : exec (.fabPacketReceived p hdr data false poison cut n) s =
    if poison = true then
      .next ((((((v.sendCredit p (hdr.getD 0 0) (pktCredits data)).set .FAB_H_RXSEQ p (l + 1)).set .FAB_H_NAKKED p 0).emit
        (.symbol p 0x41 [l, 0, 0, 0, 0])).inc .FAB_PORT_CNT_RX p).inc .FAB_PORT_CNT_POISON p)
    else .next (((((v.set .FAB_H_RXSEQ p (l + 1)).set .FAB_H_NAKKED p 0).emit
      (.symbol p 0x41 [l, 0, 0, 0, 0])).inc .FAB_PORT_CNT_RX p).netReceive p (hdr.getD 0 0) data n).jobAnswers := by
  rw [exec_fabPacketReceived_alive hp hv he hl hdown hasleep, if_neg (by simp [hh]),
    if_neg (by rcases hn with h | h <;> simp [h]), if_neg (by decide), if_neg (Nat.not_le.mpr hseq)]

end InSequence
end GoodHeader
end Alive

/-- Each bad packet is counted, whether it is asked for again or given up. -/
theorem State.linkBad_crc (x : State) (p l : Nat) :
    (x.linkBad p l).get .FAB_PORT_CNT_CRC p = min (x.get .FAB_PORT_CNT_CRC p + 1) (2 ^ 32 - 1) := by
  have hcnt : ((x.inc .FAB_PORT_CNT_CRC p).emit (.symbol p 0x4E [l, 0, 0, 0, 0])).get .FAB_PORT_CNT_CRC p =
      min (x.get .FAB_PORT_CNT_CRC p + 1) (2 ^ 32 - 1) := State.get_inc_same ..
  rw [State.linkBad]
  split
  all_goals simpa (disch := decide) only [State.get_set_ne] using hcnt

end Packet

/-! ### A symbol whose bytes are wrong (R366, R377) -/

section Symbol
variable {s : State} {p : Nat} {arg : List Nat}

theorem argZero_false {i : Nat} (h : argZero arg i = false) : (!argZero arg i) = true := by rw [h]; rfl

theorem exec_fabAck_bad (hp : p < 8) (h : argZero arg 1 = false) : exec (.fabAck p arg) s = .next (s.symbolBad p) := by
  rw [exec_fabAck, execFabAck, Nat.mod_eq_of_lt hp]
  exact if_pos (argZero_false h)

theorem exec_fabNak_bad (hp : p < 8) (h : argZero arg 1 = false) : exec (.fabNak p arg) s = .next (s.symbolBad p) := by
  rw [exec_fabNak, execFabNak, Nat.mod_eq_of_lt hp]
  exact if_pos (argZero_false h)

theorem exec_fabCredit_bad (hp : p < 8) (h : 4 ≤ arg.getD 0 0 ∨ argZero arg 3 = false) :
    exec (.fabCredit p arg) s = .next (s.symbolBad p) := by
  rw [exec_fabCredit, execFabCredit, Nat.mod_eq_of_lt hp]
  exact if_pos (by simpa using h)

theorem exec_fabAlign_bad (hp : p < 8) (h : 2 ≤ arg.getD 0 0 ∨ argZero arg 2 = false) :
    exec (.fabAlign p arg) s = .next (s.symbolBad p) := by
  rw [exec_fabAlign, execFabAlign, Nat.mod_eq_of_lt hp]
  exact if_pos (by simpa using h)

theorem exec_linkReset_bad (hp : p < 8) (h : argZero arg 0 = false) :
    exec (.linkReset p arg) s = .next (s.symbolBad p) := by
  rw [exec_linkReset, execLinkReset, Nat.mod_eq_of_lt hp]
  exact if_pos (argZero_false h)

theorem exec_fabSleepSymbol_bad (hp : p < 8) (h : argZero arg 0 = false ∨ s.get .FAB_PORT_STATUS_VER p ≠ 2) :
    exec (.fabSleepSymbol p arg) s = .next (s.symbolBad p) := by
  rw [exec_fabSleepSymbol, execFabSleepSymbol, Nat.mod_eq_of_lt hp]
  exact if_pos (by simpa using h)

theorem State.symbolBad_crc (s : State) (p : Nat) :
    (s.symbolBad p).get .FAB_PORT_CNT_CRC p = min (s.get .FAB_PORT_CNT_CRC p + 1) (2 ^ 32 - 1) :=
  State.get_inc_same ..

end Symbol

end Sys2Proof.Machine

open Sys2Proof Sys2Proof.Machine

/-- Settles O50: a packet by the first check of the port that decides on it, a symbol by its bytes. -/
theorem fabricReceiveComplete : Obligations.FabricReceiveComplete := by
  refine ⟨fun p hdr data bad poison cut n l exp s v back hp hv he hl hb => ?_,
    fun p hdr data n l exp s v back u w hp hv he hl hb hd ha hh hn hseq hu hw => ?_,
    fun p arg s hp => ⟨fun h => ⟨exec_fabAck_bad hp h, exec_fabNak_bad hp h⟩, exec_fabCredit_bad hp, exec_fabAlign_bad hp,
      exec_linkReset_bad hp, exec_fabSleepSymbol_bad hp, s.symbolBad_crc p⟩⟩
  · subst hb
    exact ⟨fun hd => hv ▸ exec_fabPacketReceived_dead hp (hv ▸ hd), fun hd ha =>
      ⟨exec_fabPacketReceived_badHeader hp hv he hl hd ha, exec_fabPacketReceived_held hp hv he hl hd ha,
        exec_fabPacketReceived_old hp hv he hl hd ha⟩⟩
  · subst hb hu hw
    exact ⟨fun cut => ⟨exec_fabPacketReceived_crcGood hp hv he hl hd ha hh hn hseq,
        exec_fabPacketReceived_crcGood hp hv he hl hd ha hh hn hseq⟩,
      fun _ _ => exec_fabPacketReceived_crcBad hp hv he hl hd ha hh hn hseq, fun x => x.linkBad_crc p l⟩

end

section
/-! PROOFS. The fabric's link layer: acknowledgement, resend, credits, alignment, sleep and service (O51). -/

namespace Sys2Proof.Machine

/-! ### What the upkeep of a port leaves (15_botex_fabric.md R373, R387) -/

/-- A change of a port stages routes and sends link state; it writes no other cell. -/
theorem State.portChanged_get (s : State) (f : Fld) (i : Nat)
    (h : ∀ g ∈ [Fld.FAB_H_SPORT, .FAB_H_SHOPS, .FAB_H_LSSEQ], g.id ≠ f.id) : s.portChanged.get f i = s.get f i := by
  have hroutes : s.stageRoutes.get f i = s.get f i := by
    rw [State.stageRoutes]
    split
    · rfl
    · refine State.foldl_get _ _ _ _ _ fun t d => ?_
      exact (State.get_set_ne _ _ _ _ _ _ (h _ (by simp))).trans (State.get_set_ne _ _ _ _ _ _ (h _ (by simp)))
  have hsend : ∀ t : State, t.lsSend.get f i = t.get f i := fun t => by
    rw [State.lsSend]
    refine (State.foldl_get _ _ _ _ _ fun u p => ?_).trans (State.get_bump_ne _ _ _ _ _ _ (h _ (by simp)))
    exact (State.fabQueue_upd u p _ (masks_self _ _) (.refl _)).cells _ _ (Nat.zero_testBit _)
  exact (hsend _).trans hroutes

theorem State.fabUnhold_portState (s : State) (p : Nat) :
    (s.fabUnhold p).portState p = if s.portState p = portAsleep then portDown else s.portState p := by
  by_cases h : s.portState p = portAsleep
  · rw [if_pos h, State.fabUnhold, if_neg (not_not_intro h), State.portState, State.portChanged_get _ _ _ (by decide)]
    refine (State.foldl_get _ _ _ _ _ fun t n => ?_).trans (State.get_set_same ..)
    split
    · exact ((State.enterDetect_upd _ _ (masks_self _ _) (.refl _)).cells _ _ (by decide)).trans
        ((State.get_set_ne _ _ _ _ _ _ (by decide)).trans (State.get_set_ne _ _ _ _ _ _ (by decide)))
    · rfl
  · rw [if_neg h, State.fabUnhold, if_pos h]

theorem State.linkRestart_credit (s : State) (p : Nat) {c : Nat} (hc : c < 4) :
    (s.linkRestart p).get .FAB_H_CREDIT (4 * p + c) = 0 := by
  rw [State.linkRestart, (State.advertise_upd _ p (masks_self _ _) (.refl _)).cells _ _ (by decide)]
  have hmem : c ∈ [0, 1, 2, 3] := by
    simp only [List.mem_cons, List.not_mem_nil, or_false]
    omega
  simp (disch := decide) only [State.get_set_ne]
  exact foldl_of_mem (P := fun t : State => t.get .FAB_H_CREDIT (4 * p + c) = 0)
    (g := fun t c => t.set .FAB_H_CREDIT (4 * p + c) 0) hmem
    (fun t => (State.get_set_same ..).trans (Nat.zero_mod _)) (fun t y _ => State.get_clear_zero fun _ => rfl) s

theorem State.linkRestart_seq (s : State) (p : Nat) :
    (s.linkRestart p).get .FAB_H_TXSEQ p = 0 ∧ (s.linkRestart p).get .FAB_H_RXSEQ p = 0 := by
  constructor
  all_goals
    rw [State.linkRestart, (State.advertise_upd _ p (masks_self _ _) (.refl _)).cells _ _ (by decide)]
    simp (disch := decide) only [State.get_set_ne, State.get_set_same]
    exact Nat.zero_mod _

/-! ### Acknowledgement and resend (R364 to R366) -/

section Replay
variable {s : State} {p l : Nat} {arg : List Nat}

theorem exec_fabAck_frees (hp : p < 8) (ha : argZero arg 1 = true) (hl : l = arg.getD 0 0 % 256) :
    exec (.fabAck p arg) s = .next ((s.set .FAB_H_ACKT p s.elapsed).setPort p
      { s.fabPort p with sent := (s.fabPort p).sent.filter fun e => decide (128 ≤ (l + 256 - e.lseq) % 256) }) := by
  rw [exec_fabAck, execFabAck, Nat.mod_eq_of_lt hp, hl]
  exact if_neg (by simp [ha])

section Nak
variable (hp : p < 8) (ha : argZero arg 1 = true) (hl : l = arg.getD 0 0 % 256)
include hp ha hl

theorem exec_fabNak_unheld (hf : (s.fabPort p).sent.find? (fun e => e.lseq == l) = none) :
    exec (.fabNak p arg) s = .next s := by
  subst hl
  rw [exec_fabNak, execFabNak, Nat.mod_eq_of_lt hp]
  refine (if_neg (by simp [ha])).trans ?_
  rw [hf]

section Held
variable {e : FabSent} (hf : (s.fabPort p).sent.find? (fun e => e.lseq == l) = some e)
include hf

/-- A NAK of a packet that the replay buffer holds. -/
theorem exec_fabNak_held : exec (.fabNak p arg) s =
    if e.due then .next s
    else if e.resent then .next (s.hopRetry p l).jobAnswers
    else .next (s.setPort p { s.fabPort p with sent := (s.fabPort p).sent.map fun q =>
      if (q.lseq + 256 - l) % 256 < 128 && !q.resent then { q with resent := true, due := true } else q }) := by
  subst hl
  rw [exec_fabNak, execFabNak, Nat.mod_eq_of_lt hp]
  refine (if_neg (by simp [ha])).trans ?_
  rw [hf]

theorem exec_fabNak_due (hd : e.due = true) : exec (.fabNak p arg) s = .next s :=
  (exec_fabNak_held hp ha hl hf).trans (if_pos hd)

theorem exec_fabNak_resent (hd : e.due = false) (hr : e.resent = true) :
    exec (.fabNak p arg) s = .next (s.hopRetry p l).jobAnswers := by
  rw [exec_fabNak_held hp ha hl hf, if_neg (ne_true_of_eq_false hd), if_pos hr]

theorem exec_fabNak_first (hd : e.due = false) (hr : e.resent = false) : exec (.fabNak p arg) s =
    .next (s.setPort p { s.fabPort p with sent := (s.fabPort p).sent.map fun q =>
      if (q.lseq + 256 - l) % 256 < 128 && !q.resent then { q with resent := true, due := true } else q }) := by
  rw [exec_fabNak_held hp ha hl hf, if_neg (ne_true_of_eq_false hd), if_neg (ne_true_of_eq_false hr)]

end Held
end Nak

section Timeout
variable (hp : p < 8)
include hp

theorem exec_fabReplayTimeout_none (h : (s.fabPort p).sent = []) : exec (.fabReplayTimeout p) s = .next s := by
  rw [exec_fabReplayTimeout, execFabReplayTimeout, Nat.mod_eq_of_lt hp, h]

variable {e : FabSent} {r : List FabSent} (h : (s.fabPort p).sent = e :: r)
include h

/-- The timeout looks at the oldest packet that waits for its ACK. -/
theorem exec_fabReplayTimeout_oldest : exec (.fabReplayTimeout p) s =
    if (e.due || !s.ackOverdue p) = true then .next s
    else if e.resent then .next (s.hopRetry p e.lseq).jobAnswers
    else .next (s.setPort p { s.fabPort p with sent := { e with resent := true, due := true } :: r }) := by
  rw [exec_fabReplayTimeout, execFabReplayTimeout, Nat.mod_eq_of_lt hp]
  dsimp only
  rw [h]

theorem exec_fabReplayTimeout_idle (hd : e.due = true ∨ s.ackOverdue p = false) :
    exec (.fabReplayTimeout p) s = .next s :=
  (exec_fabReplayTimeout_oldest hp h).trans (if_pos (by simpa using hd))

variable (hd : e.due = false) (ho : s.ackOverdue p = true)
include hd ho

theorem exec_fabReplayTimeout_resent (hr : e.resent = true) :
    exec (.fabReplayTimeout p) s = .next (s.hopRetry p e.lseq).jobAnswers := by
  rw [exec_fabReplayTimeout_oldest hp h, if_neg (by simp [hd, ho]), if_pos hr]

theorem exec_fabReplayTimeout_first (hr : e.resent = false) : exec (.fabReplayTimeout p) s =
    .next (s.setPort p { s.fabPort p with sent := { e with resent := true, due := true } :: r }) := by
  rw [exec_fabReplayTimeout_oldest hp h, if_neg (by simp [hd, ho]), if_neg (ne_true_of_eq_false hr)]

end Timeout
end Replay

/-! ### Credits, alignment, link reset, sleep and wake (R367, R369, R370, R387) -/

section Link
variable {s : State} {p : Nat} {arg : List Nat}

theorem exec_fabCredit_adds {c : Nat} (hp : p < 8) (hc : c = arg.getD 0 0) (h4 : c < 4) (ha : argZero arg 3 = true) :
    exec (.fabCredit p arg) s =
      .next (s.add .FAB_H_CREDIT (4 * p + c) (arg.getD 1 0 % 256 + 256 * (arg.getD 2 0 % 256))) := by
  subst hc
  rw [exec_fabCredit, execFabCredit, Nat.mod_eq_of_lt hp]
  exact if_neg (by simpa using ⟨h4, ha⟩)

section Align
variable (hp : p < 8) (h2 : arg.getD 0 0 < 2) (ha : argZero arg 2 = true)
include hp h2 ha

/-- The lane's count is kept; whether the port goes to two lanes does not depend on it. -/
theorem exec_fabAlign_good : exec (.fabAlign p arg) s =
    if s.portState p = portUpOne ∧ s.get .FAB_PORT_STATUS_VER p = 2 ∧ s.portPaired p = true then
      .next ((((s.set .FAB_H_ALIGN p (arg.getD 1 0)).set .FAB_PORT_STATUS_STATE p portUpTwo).set
        .FAB_PORT_STATUS_LANES p 3).portChanged)
    else .next (s.set .FAB_H_ALIGN p (arg.getD 1 0)) := by
  have hne : ∀ (f : Fld) (i : Nat), Fld.FAB_H_ALIGN.id ≠ f.id →
      (s.set .FAB_H_ALIGN p (arg.getD 1 0)).get f i = s.get f i := fun f i h => State.get_set_ne _ _ _ _ _ _ h
  have hpaired : (s.set .FAB_H_ALIGN p (arg.getD 1 0)).portPaired p = s.portPaired p := by
    simp (disch := decide) only [State.portPaired, State.portOn, State.laneOn, hne]
    rfl
  rw [exec_fabAlign, execFabAlign, Nat.mod_eq_of_lt hp]
  refine (if_neg (by rw [ha, decide_eq_false (Nat.not_le.mpr h2)]; decide)).trans ?_
  simp (disch := decide) only [hpaired, State.portState, hne, Bool.and_eq_true, decide_eq_true_eq, and_assoc]
  rfl

theorem exec_fabAlign_pairs (h1 : s.portState p = portUpOne) (hv : s.get .FAB_PORT_STATUS_VER p = 2)
    (hb : s.portPaired p = true) : exec (.fabAlign p arg) s =
      .next ((((s.set .FAB_H_ALIGN p (arg.getD 1 0)).set .FAB_PORT_STATUS_STATE p portUpTwo).set
        .FAB_PORT_STATUS_LANES p 3).portChanged) :=
  (exec_fabAlign_good hp h2 ha).trans (if_pos ⟨h1, hv, hb⟩)

theorem exec_fabAlign_counts (h : s.portState p ≠ portUpOne ∨ s.get .FAB_PORT_STATUS_VER p ≠ 2 ∨ s.portPaired p = false) :
    exec (.fabAlign p arg) s = .next (s.set .FAB_H_ALIGN p (arg.getD 1 0)) :=
  (exec_fabAlign_good hp h2 ha).trans (if_neg fun ⟨h1, hv, hb⟩ =>
    h.elim (· h1) fun h => h.elim (· hv) fun h => absurd (h.symm.trans hb) (by decide))

end Align

theorem State.pairedPort_portState (s : State) (p : Nat) :
    ((s.set .FAB_PORT_STATUS_STATE p portUpTwo).set .FAB_PORT_STATUS_LANES p 3).portChanged.portState p = portUpTwo := by
  rw [State.portState, State.portChanged_get _ _ _ (by decide), State.get_set_ne _ _ _ _ _ _ (by decide)]
  exact State.get_set_same ..

theorem exec_linkReset_up (hp : p < 8) (ha : argZero arg 0 = true) (hu : s.fabUp p = true) : exec (.linkReset p arg) s =
    .next ((s.fabPort p).sent.foldl (fun s e => s.fabDiscard e.pkt 6 p)
      ((s.setPort p { s.fabPort p with sent := [] }).linkRestart p)).jobAnswers := by
  rw [exec_linkReset, execLinkReset, Nat.mod_eq_of_lt hp]
  exact (if_neg (by simp [ha])).trans (if_neg (by simp [hu]))

theorem exec_linkReset_idle (hp : p < 8) (ha : argZero arg 0 = true) (hu : s.fabUp p = false) :
    exec (.linkReset p arg) s = .next s := by
  rw [exec_linkReset, execLinkReset, Nat.mod_eq_of_lt hp]
  exact (if_neg (by simp [ha])).trans (if_pos (by simp [hu]))

theorem exec_fabSleepSymbol_up (hp : p < 8) (ha : argZero arg 0 = true) (hv : s.get .FAB_PORT_STATUS_VER p = 2)
    (hu : s.fabUp p = true) :
    exec (.fabSleepSymbol p arg) s = .next ((s.neighbourLost p portAsleep).portLanesHold p).jobAnswers := by
  rw [exec_fabSleepSymbol, execFabSleepSymbol, Nat.mod_eq_of_lt hp]
  exact (if_neg (by simp [ha, hv])).trans (if_neg (by simp [hu]))

theorem exec_fabSleepSymbol_idle (hp : p < 8) (ha : argZero arg 0 = true) (hv : s.get .FAB_PORT_STATUS_VER p = 2)
    (hu : s.fabUp p = false) : exec (.fabSleepSymbol p arg) s = .next s := by
  rw [exec_fabSleepSymbol, execFabSleepSymbol, Nat.mod_eq_of_lt hp]
  exact (if_neg (by simp [ha, hv])).trans (if_pos (by simp [hu]))

theorem exec_fabPortWake_recorded {src : Src} (hp : p < 8) (hg : s.gate src .installer 15 = .ok) :
    Recorded (.fabPortWake p src) s src (0x480010 + 0x100 * p) (s.writeRec src (0x480010 + 0x100 * p) 1) fun t =>
      t.portState p = if s.portState p = portAsleep then portDown else s.portState p := by
  refine .of_exec (eff := effFabPortWake p) (by simp [execFabPortWake, hg, Nat.mod_eq_of_lt hp]) fun _ => ?_
  rw [State.portState, State.completed_get _ _ (by decide) (by decide), effFabPortWake, Nat.mod_eq_of_lt hp]
  exact s.fabUnhold_portState p

end Link

/-! ### The service of an output port (R365, R367, R368) -/

section Serve
variable {s : State} {p : Nat}

theorem exec_outputPortServe_dead (hp : p < 8) (h : s.portState p = portDown ∨ s.portState p = portAsleep) :
    exec (.outputPortServe p) s = .next s := by
  rw [exec_outputPortServe, execOutputPortServe, Nat.mod_eq_of_lt hp]
  exact if_pos (by simpa using h)

variable (hp : p < 8) (hdown : s.portState p ≠ portDown) (hasleep : s.portState p ≠ portAsleep)
include hp hdown hasleep

section Due
variable {e : FabSent} (hf : (s.fabPort p).sent.find? (fun e => e.due) = some e)
include hf

theorem exec_outputPortServe_waits (hs : s.fabSendable p e.pkt = false) : exec (.outputPortServe p) s = .next s := by
  rw [exec_outputPortServe, execOutputPortServe, Nat.mod_eq_of_lt hp]
  refine (if_neg (by simpa using ⟨hdown, hasleep⟩)).trans ?_
  rw [hf]
  exact if_pos (by simp [hs])

theorem exec_outputPortServe_resends (hs : s.fabSendable p e.pkt = true) : exec (.outputPortServe p) s =
    .next ((((((s.set .FAB_H_ACKT p s.elapsed).setPort p { s.fabPort p with sent := (s.fabPort p).sent.map fun q =>
      if q.lseq = e.lseq then { q with due := false } else q }).useCredits p e.pkt).countShare p e.pkt).inc
        .FAB_PORT_CNT_TX p).emit (.fabPacket p e.pkt.cls e.lseq e.pkt.data e.pkt.poison)) := by
  rw [exec_outputPortServe, execOutputPortServe, Nat.mod_eq_of_lt hp]
  refine (if_neg (by simpa using ⟨hdown, hasleep⟩)).trans ?_
  rw [hf]
  exact if_neg (by simp [hs])

end Due

section First
variable (hf : (s.fabPort p).sent.find? (fun e => e.due) = none)
include hf

theorem exec_outputPortServe_none (hk : ((s.classOrder p).findSome? fun c =>
    (s.fabPort p).queue.find? fun k => k.cls == c && s.fabSendable p k) = none) :
    exec (.outputPortServe p) s = .next s := by
  rw [exec_outputPortServe, execOutputPortServe, Nat.mod_eq_of_lt hp]
  refine (if_neg (by simpa using ⟨hdown, hasleep⟩)).trans ?_
  rw [hf]
  dsimp only
  rw [hk]

theorem exec_outputPortServe_sends {k : FabPkt} (hk : ((s.classOrder p).findSome? fun c =>
    (s.fabPort p).queue.find? fun k => k.cls == c && s.fabSendable p k) = some k) : exec (.outputPortServe p) s =
      .next (if (s.fabPort p).sent.length < 128 ∧
        (s.fabPort p).sent.foldl (fun a e => a + e.pkt.data.length) 0 + k.data.length ≤ 262144
        then s.fabSendNew p k else s) := by
  rw [exec_outputPortServe, execOutputPortServe, Nat.mod_eq_of_lt hp]
  refine (if_neg (by simpa using ⟨hdown, hasleep⟩)).trans ?_
  rw [hf]
  dsimp only
  rw [hk]
  simp only [Bool.and_eq_true, decide_eq_true_eq]
  split <;> rfl

end First
end Serve

end Sys2Proof.Machine

open Sys2Proof Sys2Proof.Machine

/-- Settles O51: each symbol and each service by the case of its port and of its replay buffer. -/
theorem fabricLinkCommandsComplete : Obligations.FabricLinkCommandsComplete :=
  ⟨fun _ _ _ _ hp ha hl => ⟨exec_fabAck_frees hp ha hl, exec_fabNak_unheld hp ha hl, fun _ hf =>
      ⟨exec_fabNak_due hp ha hl hf, exec_fabNak_resent hp ha hl hf, exec_fabNak_first hp ha hl hf⟩⟩,
    fun _ _ hp => ⟨exec_fabReplayTimeout_none hp, fun _ _ h => ⟨exec_fabReplayTimeout_idle hp h,
      exec_fabReplayTimeout_resent hp h, exec_fabReplayTimeout_first hp h⟩, decide_eq_true_iff⟩,
    fun _ _ _ _ => exec_fabCredit_adds,
    fun p _ _ _ hp h2 ha hu => hu ▸ ⟨fun h1 hv hb => ⟨exec_fabAlign_pairs hp h2 ha h1 hv hb,
      State.pairedPort_portState _ p⟩, exec_fabAlign_counts hp h2 ha⟩,
    fun p _ s hp ha => ⟨exec_linkReset_up hp ha, exec_linkReset_idle hp ha, fun _ => s.linkRestart_credit p,
      s.linkRestart_seq p⟩,
    fun _ _ _ _ hp => ⟨fun ha hv => ⟨exec_fabSleepSymbol_up hp ha hv, exec_fabSleepSymbol_idle hp ha hv⟩,
      exec_fabPortWake_recorded hp⟩,
    fun _ _ hp => ⟨exec_outputPortServe_dead hp, fun hd ha => ⟨fun _ hf => ⟨exec_outputPortServe_waits hp hd ha hf,
      exec_outputPortServe_resends hp hd ha hf⟩, fun hf => ⟨exec_outputPortServe_none hp hd ha hf,
        fun _ => exec_outputPortServe_sends hp hd ha hf⟩⟩⟩⟩

end

section
/-! PROOFS. The commands that name one packet type, and the network layer's rules for every packet (O52). -/

namespace Sys2Proof.Machine

/-! ### The type, the version and the destination of a packet (15_botex_fabric.md R364, R371, R372, R377) -/

section Network
variable {s t : State} {p cls n : Nat} {d : List Nat}

/-- A command that names a packet type is the receipt of a packet of that type, at a port that takes packets. -/
theorem netTyped_receives {ty : Nat} (hp : p < 8) (hc : (typeClass ty).getD 1 = cls) (d : List Nat) (n : Nat) (s : State) :
    (Host.Outcome.next (s.netTyped (p % 8) ty d n) : Res) =
      .next (if d.getD 1 0 = ty ∧ s.portState p ≠ portDown ∧ s.portState p ≠ portAsleep then
        ((s.portPayload p).netReceive p cls d n).jobAnswers else s) := by
  subst hc
  rw [Nat.mod_eq_of_lt hp, State.netTyped]
  simp only [Bool.and_eq_true, decide_eq_true_eq, bne_iff_ne, ne_eq]

theorem State.netReceive_malformed (ht : t = s.sendCredit p cls (pktCredits d))
    (h : d.getD 0 0 ≠ 1 ∨ typeClass (d.getD 1 0) ≠ some cls ∨ d.length ≠ 16 + leAt d 6 2) :
    s.netReceive p cls d n = t.inc .FAB_PORT_CNT_CRC p := by
  subst ht
  exact if_pos (by simpa only [Bool.or_eq_true, decide_eq_true_eq, or_assoc] using h)

section Formed
variable (ht : t = s.sendCredit p cls (pktCredits d)) (hv : d.getD 0 0 = 1) (hc : typeClass (d.getD 1 0) = some cls)
  (hl : d.length = 16 + leAt d 6 2)
include ht hv hc hl

theorem State.netReceive_down (hu : s.fabUp p = false) (hw : d.getD 1 0 ≠ 0x01) : s.netReceive p cls d n = t := by
  subst ht
  exact (if_neg (by simp [-List.getD_eq_getElem?_getD, hv, hc, ← hl])).trans (if_pos (by simp [-List.getD_eq_getElem?_getD, hu, hw]))

/-- At a port that is up, and for a waymark at any port, the destination decides. -/
theorem State.netReceive_formed (hu : s.fabUp p = true ∨ d.getD 1 0 = 0x01) : s.netReceive p cls d n =
    if d.getD 2 0 = 254 then
      match d.getD 1 0 with
      | 0x01 => if d.length = 48 then t.waymarkIn p (pktBody d) else t.fabUnknown p
      | 0x10 => t.timeRequestIn p d n
      | 0x11 => t.timeResponseIn p d n
      | _ => t.fabUnknown p
    else if d.getD 2 0 = 255 then
      match d.getD 1 0 with
      | 0x02 => t.linkStateIn p d
      | 0x03 => t.idTableIn p d
      | _ => t.fabUnknown p
    else if d.getD 2 0 = s.node ∧ d.getD 2 0 < 64 then t.fabServed p d
    else s.fabForward p cls d false := by
  subst ht
  rw [State.netReceive]
  refine (if_neg (by simp [-List.getD_eq_getElem?_getD, hv, hc, ← hl])).trans ?_
  refine (if_neg (by rcases hu with h | h <;> simp [-List.getD_eq_getElem?_getD, h])).trans ?_
  simp only [Bool.and_eq_true, decide_eq_true_eq] <;> rfl

theorem State.netReceive_hop (hu : s.fabUp p = true) (hd : d.getD 2 0 = 254) (hn : d.getD 1 0 ∉ [0x01, 0x10, 0x11]) :
    s.netReceive p cls d n = t.inc .FAB_PORT_CNT_CRC p := by
  rw [State.netReceive_formed ht hv hc hl (.inl hu), if_pos hd]
  split
  case h_4 => rfl
  all_goals
    rename_i hty
    rw [hty] at hn
    exact absurd (by decide) hn

theorem State.netReceive_broadcast (hu : s.fabUp p = true) (hd : d.getD 2 0 = 255) (hn : d.getD 1 0 ∉ [0x02, 0x03]) :
    s.netReceive p cls d n = t.inc .FAB_PORT_CNT_CRC p := by
  rw [State.netReceive_formed ht hv hc hl (.inl hu), if_neg (by omega), if_pos hd]
  split
  case h_3 => rfl
  all_goals
    rename_i hty
    rw [hty] at hn
    exact absurd (by decide) hn

variable (hu : s.fabUp p = true) (h254 : d.getD 2 0 ≠ 254) (h255 : d.getD 2 0 ≠ 255)
include hu h254 h255

theorem State.netReceive_own (hd : d.getD 2 0 = s.node) (hn : s.node < 64) :
    s.netReceive p cls d n = t.fabServed p d := by
  rw [State.netReceive_formed ht hv hc hl (.inl hu), if_neg h254, if_neg h255, if_pos ⟨hd, hd ▸ hn⟩]

theorem State.netReceive_transit (hd : d.getD 2 0 ≠ s.node ∨ 64 ≤ d.getD 2 0) :
    s.netReceive p cls d n = s.fabForward p cls d false := by
  rw [State.netReceive_formed ht hv hc hl (.inl hu), if_neg h254, if_neg h255, if_neg fun h => hd.elim (· h.1) (by omega)]

end Formed

theorem State.fabForward_spent (x : Bool) (h : d.getD 4 0 ≤ 1) :
    s.fabForward p cls d x = s.fabDiscard ⟨cls, hopped d, some p, x, false⟩ 3 p := if_pos h

theorem State.fabForward_routed (x : Bool) (h : 2 ≤ d.getD 4 0) :
    s.fabForward p cls d x = (match s.routeTo (d.getD 2 0) with
      | some q => s.fabQueue q ⟨cls, hopped d, some p, x, false⟩
      | none => s.fabDiscard ⟨cls, hopped d, some p, x, false⟩ 2 p) := by
  rw [State.fabForward]
  exact if_neg (by omega)

end Network

/-! ### Waymarks (R371, R373) -/

theorem State.fabEvent_get (s : State) (k inst uid node cause : Nat) (f : Fld) (i : Nat) (h : f.page ≠ 0)
    (he : Fld.FAB_EVENTS_EV.id ≠ f.id) : (s.fabEvent k inst uid node cause).get f i = s.get f i :=
  State.sticky_get _ _ _ _ _ _ _ _ _ _ _ _ _ h he

/-- The state that a waymark `b` gives its port: looped, without a version, up as it was, or newly up. -/
def State.waymarkState (s : State) (p : Nat) (b : List Nat) : Nat :=
  if leAt b 0 8 = s.uid then portLoop
  else if agreedMajor (b.getD 8 0) (b.getD 9 0) = 0 ∨
    (s.fab.admitted.isEmpty = false ∧ s.fab.admitted.contains (leAt b 0 8) = false) then portNoVersion
  else if s.fabUp p = true then (if agreedMajor (b.getD 8 0) (b.getD 9 0) = 2 then s.portState p else portUpOne)
  else if agreedMajor (b.getD 8 0) (b.getD 9 0) = 2 ∧ s.portPaired p = true then portUpTwo
  else portUpOne

/-- A waymark records the neighbour, and the state that follows, in the cells of its port. -/
theorem State.waymarkIn_port (s : State) (p : Nat) (b : List Nat) :
    (s.waymarkIn p b).get .FAB_PORT_NEIGH p = leAt b 0 8 % 2 ^ 64 ∧
      (s.waymarkIn p b).get .FAB_PORT_STATUS_NEIGH_ID p = b.getD 12 0 % 256 ∧
      (s.waymarkIn p b).get .FAB_PORT_STATUS_VER p = agreedMajor (b.getD 8 0) (b.getD 9 0) % 2 ^ Fld.FAB_PORT_STATUS_VER.width ∧
      (s.waymarkIn p b).portState p = s.waymarkState p b % 8 := by
  unfold State.waymarkIn
  extract_lets uid root epoch old adv w was known ver admitted st lanes up wasUp _ s₁ sets s₂ s₃ s₄
  have hst : st = s.waymarkState p b := by
    unfold st admitted State.waymarkState
    simp only [Bool.or_eq_true, Bool.and_eq_true, decide_eq_true_eq, Bool.not_eq_true', Bool.or_eq_false_iff]
    rfl
  have hkept : ∀ f : Fld, f.page ≠ 0 → Fld.FAB_EVENTS_EV.id ≠ f.id →
      (∀ g ∈ [Fld.FAB_H_SPORT, .FAB_H_SHOPS, .FAB_H_LSSEQ], g.id ≠ f.id) →
      (if (st != was || known != uid) = true then (s₄.fabEvent 3 0xFFFF uid w.node 0).portChanged else s₄).get f p =
        s₂.get f p := fun f h0 he hg => by
    have h₃ : s₃.get f p = s₂.get f p := by
      unfold s₃
      split
      · exact State.fabEvent_get _ _ _ _ _ _ _ _ h0 he
      · rfl
    have h₄ : s₄.get f p = s₃.get f p := by
      unfold s₄
      split
      · exact (State.advertise_upd _ p (masks_self _ _) (.refl _)).cells _ _ (Nat.zero_testBit _)
      · rfl
    split
    · rw [State.portChanged_get _ _ _ hg, State.fabEvent_get _ _ _ _ _ _ _ _ h0 he, h₄, h₃]
    · rw [h₄, h₃]
  rw [State.portState, hkept _ (by decide) (by decide) (by decide), hkept _ (by decide) (by decide) (by decide),
    hkept _ (by decide) (by decide) (by decide), hkept _ (by decide) (by decide) (by decide), ← hst]
  simp (disch := decide) only [s₂, sets, List.foldl_cons, List.foldl_nil, State.get_set_ne, State.get_set_same]
  exact ⟨rfl, rfl, rfl, rfl⟩

theorem agreedMajor_lt (lo hi : Nat) : agreedMajor lo hi < 4 := by
  rw [agreedMajor]
  split <;> omega

theorem exec_waymarkReceived_records {p : Nat} {d b : List Nat} {s t u : State} (hp : p < 8) (hd : s.portState p ≠ portDown)
    (ha : s.portState p ≠ portAsleep) (hv : d.getD 0 0 = 1) (hty : d.getD 1 0 = 0x01) (hdst : d.getD 2 0 = 254)
    (hl : d.length = 48) (hb : leAt d 6 2 = 32) (hbody : b = pktBody d)
    (ht : t = (s.portPayload p).sendCredit p 1 (pktCredits d)) (hu : u = t.waymarkIn p b) :
    exec (.waymarkReceived p d) s = .next u.jobAnswers := by
  rw [exec_waymarkReceived, execWaymarkReceived, netTyped_receives (cls := 1) hp rfl, if_pos ⟨hty, hd, ha⟩,
    State.netReceive_formed (cls := 1) (t := t) ht hv (by rw [hty]; rfl) (by omega) (.inr hty), if_pos hdst, hty, hu, hbody]
  exact congrArg (fun x : State => Host.Outcome.next x.jobAnswers) (if_pos hl)

/-! ### Link state (R374, R375) -/

/-- Packets that are queued leave the records of the nodes as they are. -/
theorem State.fanOut_db (s : State) (ports : List Nat) (d : List Nat) : (s.fanOut ports d).fab.db = s.fab.db := by
  rw [State.fanOut]
  split
  · rfl
  · exact List.foldlRecOn (motive := fun t : State => t.fab.db = s.fab.db) ports _ rfl fun _ h _ _ => h

section LinkState
variable {u : State} {o p : Nat} {d : List Nat} (ho : o = leAt (pktBody d) 0 8)
include ho

theorem State.linkStateIn_own (h : o = u.uid) : u.linkStateIn p d = u := by
  rw [State.linkStateIn]
  exact if_pos (by simp [← ho, h])

theorem State.linkStateIn_seen {r : LsRecord} (hr : u.lsRecord o = some r)
    (hs : (r.seq + 2 ^ 32 - leAt (pktBody d) 8 4) % 2 ^ 32 < 2 ^ 31) : u.linkStateIn p d = u := by
  rw [State.linkStateIn]
  refine if_pos (Bool.or_eq_true_iff.mpr (.inr ?_))
  rw [← ho, hr]
  exact decide_eq_true hs

theorem State.linkStateIn_newer (hne : o ≠ u.uid)
    (hs : ∀ r, u.lsRecord o = some r → 2 ^ 31 ≤ (r.seq + 2 ^ 32 - leAt (pktBody d) 8 4) % 2 ^ 32) :
    (u.linkStateIn p d).lsRecord o = some ⟨o, leAt (pktBody d) 8 4, pktBody d, u.elapsed⟩ := by
  subst ho
  unfold State.linkStateIn
  extract_lets b origin seq old seen same _ s₁ s₂
  have hseen : seen = false := by
    cases hr : u.lsRecord origin with
    | none => simp only [seen, old, hr]
    | some r => simpa only [seen, old, hr] using decide_eq_false (Nat.not_lt.mpr (hs r hr))
  have hdb : s₂.fab.db = u.fab.db.filter (fun r => r.origin != origin) ++ [⟨origin, seq, b, u.elapsed⟩] :=
    State.fanOut_db s₁ _ d
  have hfind : s₂.lsRecord origin = some ⟨origin, seq, b, u.elapsed⟩ := by
    rw [State.lsRecord, hdb, List.find?_append, List.find?_eq_none.mpr fun r hr => ?_]
    · exact (Option.none_or).trans (List.find?_cons_of_pos (beq_self_eq_true origin))
    · simpa using (List.mem_filter.mp hr).2
  refine (congrArg (State.lsRecord · origin) (if_neg (by simp [hseen]; exact hne))).trans ?_
  split
  · exact hfind
  · rw [State.lsRecord, (State.stageRoutes_upd _ (masks_self _ _) (.refl _)).parts.fab (by decide),
      (State.fabEvent_upd _ _ _ _ _ _ (masks_self _ _) (.refl _)).parts.fab (by decide)]
    exact hfind

end LinkState

section Broadcast
variable {s t : State} {p : Nat} {d : List Nat} (hp : p < 8) (hu : s.fabUp p = true) (hv : d.getD 0 0 = 1)
  (hdst : d.getD 2 0 = 255) (hl : d.length = 16 + leAt d 6 2)
  (ht : t = (s.portPayload p).sendCredit p 1 (pktCredits d))
include hp hu hv hdst hl ht

omit hp hv hdst hl ht in
/-- A port that is up takes packets. -/
theorem State.fabUp_takes : s.portState p ≠ portDown ∧ s.portState p ≠ portAsleep := by
  rw [State.fabUp] at hu
  constructor
  all_goals
    intro h
    rw [h] at hu
    exact absurd hu (by decide)

omit hp hv hdst hl ht in
/-- The lanes' idle times are no part of the port's state. -/
theorem State.portPayload_fabUp : (s.portPayload p).fabUp p = true := by
  rw [State.fabUp, State.portState, (State.portPayload_upd s p (masks_self _ _) (.refl _)).cells _ _ (by decide)]
  exact hu

theorem exec_linkStateReceived_takes (hty : d.getD 1 0 = 0x02) :
    exec (.linkStateReceived p d) s = .next (t.linkStateIn p d).jobAnswers := by
  rw [exec_linkStateReceived, execLinkStateReceived, netTyped_receives (cls := 1) hp rfl, if_pos ⟨hty, State.fabUp_takes hu⟩,
    State.netReceive_formed (cls := 1) (t := t) ht hv (by rw [hty]; rfl) hl (.inl (State.portPayload_fabUp hu)),
    if_neg (by omega), if_pos hdst, hty]
  rfl

theorem exec_idTableReceived_takes (hty : d.getD 1 0 = 0x03) :
    exec (.idTableReceived p d) s = .next (t.idTableIn p d).jobAnswers := by
  rw [exec_idTableReceived, execIdTableReceived, netTyped_receives (cls := 1) hp rfl, if_pos ⟨hty, State.fabUp_takes hu⟩,
    State.netReceive_formed (cls := 1) (t := t) ht hv (by rw [hty]; rfl) hl (.inl (State.portPayload_fabUp hu)),
    if_neg (by omega), if_pos hdst, hty]
  rfl

end Broadcast

/-! ### ID tables (R376) -/

theorem State.idTableIn_adopts {u v : State} {p : Nat} {d : List Nat}
    (hv : v = u.fanOut (u.upPorts.filter fun q => (u.get .FAB_ROUTE_COMMIT_BCAST_MASK).testBit q && q != p) d) :
    u.idTableIn p d =
      if v.on .BOOT_H_AWAY = true ∨
        (tableEntries (pktBody d)).any (fun e => e.uid == v.get .FAB_ROOT && e.id == d.getD 3 253) = false ∨
        v.on .FAB_NODE_ROOT = true ∨ leAt (pktBody d) 0 4 ≤ v.get .FAB_H_TABEPOCH ∨
        (pktBody d).length < 8 + 16 * (tableEntries (pktBody d)).length
      then v else v.adoptTable (leAt (pktBody d) 0 4) (tableEntries (pktBody d)) := by
  subst hv
  rw [State.idTableIn]
  simp only [Bool.or_eq_true, Bool.not_eq_true', decide_eq_true_eq, or_assoc]

end Sys2Proof.Machine

open Sys2Proof Sys2Proof.Machine

/-- Settles O52: a packet by its type, then by the rules of the network layer for its destination. -/
theorem fabricPacketCommandsComplete : Obligations.FabricPacketCommandsComplete := by
  refine ⟨fun p d n s hp => ?_, fun p cls d n s t ht => ⟨State.netReceive_malformed ht, fun hv hc hl =>
      ⟨State.netReceive_down ht hv hc hl, fun hu => ⟨State.netReceive_hop ht hv hc hl hu,
        State.netReceive_broadcast ht hv hc hl hu, State.netReceive_own ht hv hc hl hu,
        State.netReceive_transit ht hv hc hl hu⟩⟩⟩,
    fun _ _ _ x _ => ⟨State.fabForward_spent x, State.fabForward_routed x⟩,
    fun p d s t u b hp hd ha hv hty hdst hl hb hbody ht hu =>
      ⟨exec_waymarkReceived_records hp hd ha hv hty hdst hl hb hbody ht hu, ?_⟩,
    fun p d s t ty hp hu hv hty hdst hl ht =>
      ⟨fun h => exec_linkStateReceived_takes hp hu hv hdst hl ht (hty.trans h),
        fun h => exec_idTableReceived_takes hp hu hv hdst hl ht (hty.trans h),
        fun _ _ ho => ⟨State.linkStateIn_own ho, fun _ => State.linkStateIn_seen ho, State.linkStateIn_newer ho⟩,
        fun _ _ => State.idTableIn_adopts⟩⟩
  · simp only [List.forall_mem_cons, List.not_mem_nil, false_implies, implies_true, and_true]
    exact ⟨netTyped_receives hp rfl .., netTyped_receives hp rfl .., netTyped_receives hp rfl .., netTyped_receives hp rfl ..,
      netTyped_receives hp rfl .., netTyped_receives hp rfl .., netTyped_receives hp rfl .., netTyped_receives hp rfl ..,
      netTyped_receives hp rfl ..⟩
  · subst hu
    obtain ⟨hneigh, hid, hver, hstate⟩ := t.waymarkIn_port p b
    exact ⟨hneigh, hid, hver.trans (Nat.mod_eq_of_lt (agreedMajor_lt _ _)), hstate⟩

end

section
/-! PROOFS. Packets of one hop and packets for this node: time, control requests, bulk data, late errors (O53). -/

namespace Sys2Proof.Machine

/-! ### The receipt of a typed packet at a port that is up (15_botex_fabric.md R364, R377) -/

section Typed
variable {s t : State} {p cls ty n : Nat} {d : List Nat} (hp : p < 8) (hu : s.fabUp p = true) (hv : d.getD 0 0 = 1)
  (hl : d.length = 16 + leAt d 6 2)
include hp hu hv hl

theorem netTyped_own (hc : typeClass ty = some cls) (hty : d.getD 1 0 = ty) (hdst : d.getD 2 0 = s.node) (hn : s.node < 64)
    (ht : t = (s.portPayload p).sendCredit p cls (pktCredits d)) :
    (Host.Outcome.next (s.netTyped (p % 8) ty d n) : Res) = .next (t.fabServed p d).jobAnswers := by
  have hnode : (s.portPayload p).node = s.node :=
    (State.portPayload_upd s p (masks_self _ _) (.refl _)).cells _ _ (by decide)
  rw [netTyped_receives (cls := cls) hp (by rw [hc]; rfl), if_pos ⟨hty, State.fabUp_takes hu⟩,
    State.netReceive_own ht hv (by rw [hty, hc]) hl (State.portPayload_fabUp hu) (by omega) (by omega)
      (hdst.trans hnode.symm) (by omega)]

theorem exec_ctrlRequestReceived_served (hty : d.getD 1 0 = 0x20) (hdst : d.getD 2 0 = s.node) (hn : s.node < 64)
    (ht : t = (s.portPayload p).sendCredit p 1 (pktCredits d)) :
    exec (.ctrlRequestReceived p d) s = .next (t.ctrlRequestIn d).jobAnswers := by
  rw [exec_ctrlRequestReceived, execCtrlRequestReceived, netTyped_own hp hu hv hl rfl hty hdst hn ht, State.fabServed, hty]
  rfl

theorem exec_ctrlReplyReceived_served (hty : d.getD 1 0 = 0x21) (hdst : d.getD 2 0 = s.node) (hn : s.node < 64)
    (ht : t = (s.portPayload p).sendCredit p 1 (pktCredits d)) :
    exec (.ctrlReplyReceived p d) s = .next (t.ctrlReplyIn d).jobAnswers := by
  rw [exec_ctrlReplyReceived, execCtrlReplyReceived, netTyped_own hp hu hv hl rfl hty hdst hn ht, State.fabServed, hty]
  rfl

theorem exec_lateErrorReceived_served (hty : d.getD 1 0 = 0x50) (hdst : d.getD 2 0 = s.node) (hn : s.node < 64)
    (ht : t = (s.portPayload p).sendCredit p 1 (pktCredits d)) :
    exec (.lateErrorReceived p d) s = .next (t.lateEnter ((pktBody d).take 32)).jobAnswers := by
  rw [exec_lateErrorReceived, execLateErrorReceived, netTyped_own hp hu hv hl rfl hty hdst hn ht, State.fabServed, hty]
  rfl

theorem exec_bulkPacketReceived_served (hty : d.getD 1 0 = 0x40) (hdst : d.getD 2 0 = s.node) (hn : s.node < 64) :
    exec (.bulkPacketReceived p d) s =
      .next (((s.portPayload p).sendCredit p 3 (pktCredits d)).bulkIn p d).jobAnswers := by
  rw [exec_bulkPacketReceived, execBulkPacketReceived, netTyped_own hp hu hv hl rfl hty hdst hn rfl, State.fabServed, hty]
  rfl

section Time
variable (hdst : d.getD 2 0 = 254) (ht : t = (s.portPayload p).sendCredit p 0 (pktCredits d))
include hdst ht

theorem exec_timeRequestReceived_served (hty : d.getD 1 0 = 0x10) :
    exec (.timeRequestReceived p d n) s = .next (t.timeRequestIn p d n).jobAnswers := by
  rw [exec_timeRequestReceived, execTimeRequestReceived, netTyped_receives (cls := 0) hp rfl,
    if_pos ⟨hty, State.fabUp_takes hu⟩,
    State.netReceive_formed (t := t) ht hv (by rw [hty]; rfl) hl (.inl (State.portPayload_fabUp hu)), if_pos hdst, hty]
  rfl

theorem exec_timeResponseReceived_served (hty : d.getD 1 0 = 0x11) :
    exec (.timeResponseReceived p d n) s = .next (t.timeResponseIn p d n).jobAnswers := by
  rw [exec_timeResponseReceived, execTimeResponseReceived, netTyped_receives (cls := 0) hp rfl,
    if_pos ⟨hty, State.fabUp_takes hu⟩,
    State.netReceive_formed (t := t) ht hv (by rw [hty]; rfl) hl (.inl (State.portPayload_fabUp hu)), if_pos hdst, hty]
  rfl

end Time
end Typed

/-! ### The time exchange (R378, R379) -/

section Exchange
variable {u x : State} {p n f : Nat} {d b : List Nat} {r : Int × Int}

theorem State.timeResponseIn_standing (hb : b = pktBody d)
    (hf : f = if u.get .FAB_PORT_STATUS_VER p = 2 then b.getD 24 0 else 0)
    (hr : r = exchange (u.get .FAB_H_T1) (leAt b 8 8 * 16 + f % 16 : Nat) (leAt b 16 8 * 16 + f / 16 : Nat)
      (min (n : Int) u.now16) (u.asym p))
    (hx : x = ((u.set .FAB_H_T1OK 0 0).set .FAB_TIME_OFFSET 0 (ofSigned 32 r.1)).set .FAB_TIME_DELAY 0 (ofSigned 32 r.2))
    (h1 : u.on .FAB_H_T1OK = true) (hp : u.get .FAB_H_PARENT = p) (hi : u.get .FAB_H_XCHG = leAt b 0 4) :
    u.timeResponseIn p d n =
      if u.get .SYN_TB_CTRL_SRC = 2 ∧ u.on .FAB_NODE_ROOT = false then x.useOffset r.1 else x := by
  have hkept : ∀ g : Fld, Fld.FAB_H_T1OK.id ≠ g.id → Fld.FAB_TIME_OFFSET.id ≠ g.id → Fld.FAB_TIME_DELAY.id ≠ g.id →
      x.get g = u.get g := fun g h₁ h₂ h₃ => by
    rw [hx, State.get_set_ne _ _ _ _ _ _ h₃, State.get_set_ne _ _ _ _ _ _ h₂, State.get_set_ne _ _ _ _ _ _ h₁]
  rw [State.timeResponseIn]
  refine (if_neg (by simp [← hb, h1, hp, hi])).trans ?_
  rw [← hb, ← hf]
  dsimp only
  rw [← hr, ← hx, State.on, hkept _ (by decide) (by decide) (by decide), hkept _ (by decide) (by decide) (by decide)]
  simp only [Bool.and_eq_true, decide_eq_true_eq, Bool.not_eq_true', State.on]
  rfl

theorem State.timeResponseIn_other (hb : b = pktBody d)
    (h : u.on .FAB_H_T1OK = false ∨ u.get .FAB_H_PARENT ≠ p ∨ u.get .FAB_H_XCHG ≠ leAt b 0 4) :
    u.timeResponseIn p d n = u := by
  rw [State.timeResponseIn]
  refine if_pos ?_
  rw [← hb]
  simp only [Bool.or_eq_true, Bool.not_eq_true', decide_eq_true_eq, or_assoc]
  exact h.imp id (Or.imp Ne.symm Ne.symm)

end Exchange

/-! ### Control replies and the late log (R380, R391) -/

section Replies
variable {u : State} {d e : List Nat}

theorem State.ctrlReplyIn_answers {r : FabReq} (h : (u.fab.reqs.find? fun r => r.tag == leAt d 8 4) = some r) :
    (u.ctrlReplyIn d).fab.answers = u.fab.answers ++ [⟨r, statusOf ((pktBody d).getD 1 0), (pktBody d).drop 4⟩] := by
  have hany : (u.fab.reqs.any fun r => r.tag == leAt d 8 4) = true :=
    List.any_eq_true.mpr ⟨r, List.mem_of_find?_eq_some h, List.find?_some (p := fun r : FabReq => r.tag == leAt d 8 4) h⟩
  rw [State.ctrlReplyIn]
  refine (congrArg (fun t : State => t.fab.answers) (if_pos hany)).trans ?_
  rw [State.reqDone, h]

theorem State.ctrlReplyIn_late (h : (u.fab.reqs.any fun r => r.tag == leAt d 8 4) = false) :
    u.ctrlReplyIn d = u.inc .FAB_CNT_LATE_REPLY := if_neg (ne_true_of_eq_false h)

/-- An answer to a request keeps the late log. -/
theorem State.reqDone_late (u : State) (tag : Nat) (st : Status) (data : List Nat) :
    (u.reqDone tag st data).fab.late = u.fab.late := by
  rw [State.reqDone]
  split <;> rfl

theorem State.lateEnter_room (h : u.fab.late.length < 256) : (u.lateEnter e).fab.late = u.fab.late ++ [e] := by
  have hevent : ((({ u with fab := { u.fab with late := u.fab.late ++ [e] } } : State).fabEvent 8 0xFFFF 0 (e.getD 15 0)
      (e.getD 14 0)).fab.late) = u.fab.late ++ [e] :=
    congrArg FabS.late ((State.fabEvent_upd _ _ _ _ _ _ (masks_self _ _) (.refl _)).parts.fab (by decide))
  rw [State.lateEnter, if_pos h]
  split
  · rw [State.reqDone_late, hevent]
  · exact hevent

theorem State.lateEnter_full (h : 256 ≤ u.fab.late.length) : (u.lateEnter e).fab.late = u.fab.late ∧
    (u.lateEnter e).get .FAB_CNT_LATE_LOST = min (u.get .FAB_CNT_LATE_LOST + 1) (2 ^ 32 - 1) := by
  have hlate : (((u.inc .FAB_CNT_LATE_LOST).set .FAB_LATE_STATUS_OVF 0 1).fabEvent 9 0xFFFF 0 (e.getD 15 0)
      (e.getD 14 0)).fab.late = u.fab.late :=
    congrArg FabS.late ((State.fabEvent_upd _ _ _ _ _ _ (masks_self _ _) (.refl _)).parts.fab (by decide))
  have hlost : (((u.inc .FAB_CNT_LATE_LOST).set .FAB_LATE_STATUS_OVF 0 1).fabEvent 9 0xFFFF 0 (e.getD 15 0)
      (e.getD 14 0)).get .FAB_CNT_LATE_LOST = min (u.get .FAB_CNT_LATE_LOST + 1) (2 ^ 32 - 1) := by
    rw [State.fabEvent_get _ _ _ _ _ _ _ _ (by decide) (by decide), State.get_set_ne _ _ _ _ _ _ (by decide)]
    exact State.get_inc_same ..
  rw [State.lateEnter, if_neg (Nat.not_lt.mpr h)]
  split
  · rw [State.reqDone_late]
    exact ⟨hlate, ((State.reqDone_upd _ _ _ _ (masks_self _ _) (.refl _)).cells _ _ (Nat.zero_testBit _)).trans hlost⟩
  · exact ⟨hlate, hlost⟩

end Replies

/-! ### Control requests, by their service (R383) -/

section Services
variable {s : State} {d b v : List Nat} {node tag : Nat} (hb : b = pktBody d) (hv : v = b.drop 4)
  (hnode : node = d.getD 3 0) (htag : tag = leAt d 8 4)
include hb hv hnode htag

theorem State.ctrlRequestIn_job (h : b.getD 0 0 = 1) : s.ctrlRequestIn d =
    if v.getD 0 0 = 1 then s.msgPrepare node tag (v.getD 1 0 % 4) (leAt v 2 2) (leAt v 4 2)
    else if v.getD 0 0 = 2 then s.msgArm node tag (v.getD 1 0 % 4) (leAt v 2 2) (leAt v 8 8)
    else if v.getD 0 0 = 3 then s.msgCancel node tag (leAt v 2 2)
    else s.ctrlReply node tag 1 .range [] := by
  rw [State.ctrlRequestIn, ← hb, ← hv, ← hnode, ← htag, h]
  change (match v.getD 0 0 with
    | 1 => s.msgPrepare node tag (v.getD 1 0 % 4) (leAt v 2 2) (leAt v 4 2)
    | 2 => s.msgArm node tag (v.getD 1 0 % 4) (leAt v 2 2) (leAt v 8 8)
    | 3 => s.msgCancel node tag (leAt v 2 2)
    | _ => s.ctrlReply node tag 1 .range []) = _
  split
  case h_1 hop => rw [if_pos hop]
  case h_2 hop => rw [if_neg (by omega), if_pos hop]
  case h_3 hop => rw [if_neg (by omega), if_neg (by omega), if_pos hop]
  case h_4 h1 h2 h3 => rw [if_neg h1, if_neg h2, if_neg h3]

theorem State.ctrlRequestIn_firmware (h : b.getD 0 0 = 2) : s.ctrlRequestIn d =
    if s.inTest 15 = true then s.ctrlReply node tag 2 .selftest []
    else if s.on .FAB_CTRL_FENCE = true ∨ s.on .BOOT_H_AWAY = true then s.ctrlReply node tag 2 .busy []
    else s.emit (.fabMessage node tag v) := by
  rw [State.ctrlRequestIn, ← hb, ← hv, ← hnode, ← htag, h]
  simp only [Bool.or_eq_true]

theorem State.ctrlRequestIn_bulk (h : b.getD 0 0 = 3) :
    s.ctrlRequestIn d = s.bulkCommit node tag (leAt v 0 2) (leAt v 4 4) (leAt v 8 8) := by
  rw [State.ctrlRequestIn, ← hb, ← hv, ← hnode, ← htag, h]
  rfl

theorem State.ctrlRequestIn_unknown (h : b.getD 0 0 ∉ [1, 2, 3]) : s.ctrlRequestIn d = s.ctrlReply node tag (b.getD 0 0)
    (if s.inTest 15 = true then .selftest else if s.on .FAB_CTRL_FENCE = true then .busy else .range) [] := by
  rw [State.ctrlRequestIn, ← hb, ← hv, ← hnode, ← htag]
  split
  case h_4 => rfl
  all_goals
    rename_i hservice
    rw [hservice] at h
    exact absurd (by decide) h

end Services

/-! ### Bulk data (R384) -/

section Bulk
variable {s : State} {p node off : Nat} {d b data : List Nat}

theorem State.bulkIn_fenced (hf : s.on .FAB_CTRL_FENCE = true) :
    s.bulkIn p d = s.fabDiscard ⟨3, d, none, false, false⟩ 5 p := if_pos hf

section Window
variable (hb : b = pktBody d) (hoff : off = leAt b 8 8) (hdata : data = b.drop 16)
  (hf : s.on .FAB_CTRL_FENCE = false)
include hb hoff hdata hf

theorem State.bulkIn_outside {win : Nat} (hw : win = s.get .FAB_RX_WIN_SIZE_SIZE_MIB * 2 ^ 20)
    (h : win = 0 ∨ win < off + data.length) : s.bulkIn p d = s.fabDiscard ⟨3, d, none, false, false⟩ 7 p := by
  rw [State.bulkIn, ← hb, ← hoff, ← hdata, ← hw]
  exact (if_neg (ne_true_of_eq_false hf)).trans (if_pos (by simpa only [Bool.or_eq_true, decide_eq_true_eq] using h))

variable {win : Nat} (hw : win = s.get .FAB_RX_WIN_SIZE_SIZE_MIB * 2 ^ 20) (h0 : win ≠ 0)
  (hin : off + data.length ≤ win) (hnode : node = d.getD 3 0)
include hw h0 hin hnode

theorem State.bulkIn_inside : s.bulkIn p d =
    if (s.fab.bulk.find? fun t => t.node == node && t.id == leAt b 0 2).isNone = true ∧
      16 ≤ (s.fab.bulk.filter fun t => t.node == node).length then s.fabDiscard ⟨3, d, none, false, false⟩ 8 p
    else
      match s.bulkStore (s.get .FAB_RX_WIN_BASE + off) data with
      | (u, stored) =>
        let t := (s.fab.bulk.find? fun t => t.node == node && t.id == leAt b 0 2).getD ⟨node, leAt b 0 2, [], 0⟩
        let t := if stored = false ∨ t.idx.contains (leAt b 4 4) = true then t
          else { t with idx := t.idx ++ [leAt b 4 4], bytes := t.bytes + data.length }
        { u with fab := { u.fab with
          bulk := (s.fab.bulk.filter fun t => !(t.node == node && t.id == leAt b 0 2)) ++ [t] } } := by
  rw [State.bulkIn, ← hb, ← hoff, ← hdata, ← hw, ← hnode]
  refine (if_neg (ne_true_of_eq_false hf)).trans ((if_neg ?_).trans ?_)
  · simpa only [Bool.or_eq_true, decide_eq_true_eq, not_or, not_lt] using ⟨h0, hin⟩
  · simp only [Bool.and_eq_true, decide_eq_true_eq, Bool.or_eq_true, Bool.not_eq_true']

theorem State.bulkIn_tooMany (ht : (s.fab.bulk.find? fun t => t.node == node && t.id == leAt b 0 2) = none)
    (hfull : 16 ≤ (s.fab.bulk.filter fun t => t.node == node).length) :
    s.bulkIn p d = s.fabDiscard ⟨3, d, none, false, false⟩ 8 p := by
  rw [State.bulkIn_inside hb hoff hdata hf hw h0 hin hnode, if_pos ⟨by rw [ht]; rfl, hfull⟩]

theorem State.bulkIn_stores {t : Option Bulk} {x : Bulk} {w : State × Bool}
    (ht : t = s.fab.bulk.find? fun t => t.node == node && t.id == leAt b 0 2)
    (hroom : t.isSome = true ∨ (s.fab.bulk.filter fun t => t.node == node).length < 16)
    (hx : x = t.getD ⟨node, leAt b 0 2, [], 0⟩) (hstore : w = s.bulkStore (s.get .FAB_RX_WIN_BASE + off) data) :
    s.bulkIn p d = { w.1 with fab := { w.1.fab with
      bulk := (s.fab.bulk.filter fun t => !(t.node == node && t.id == leAt b 0 2)) ++
        [if w.2 = false ∨ x.idx.contains (leAt b 4 4) = true then x
          else { x with idx := x.idx ++ [leAt b 4 4], bytes := x.bytes + data.length }] } } := by
  rw [State.bulkIn_inside hb hoff hdata hf hw h0 hin hnode, ← hstore, ← ht, ← hx]
  refine if_neg fun ⟨hnone, hfull⟩ => ?_
  rcases hroom with h | h
  · exact absurd (Option.isNone_iff_eq_none.mp hnone ▸ h) (by decide)
  · exact absurd hfull (Nat.not_le.mpr h)

end Window
end Bulk

end Sys2Proof.Machine

open Sys2Proof Sys2Proof.Machine

/-- Settles O53: the receipt of each type at a port that is up, then what its packet says to this node. -/
theorem fabricNodePacketsComplete : Obligations.FabricNodePacketsComplete :=
  ⟨fun _ _ _ _ _ _ hp hu hv hty hdst hl ht =>
      ⟨fun h => ⟨exec_timeRequestReceived_served hp hu hv hl hdst ht (hty.trans h), rfl⟩,
        fun h => exec_timeResponseReceived_served hp hu hv hl hdst ht (hty.trans h),
        fun _ _ _ _ _ hb hf hr hx => ⟨State.timeResponseIn_standing hb hf hr hx, State.timeResponseIn_other hb⟩⟩,
    fun _ _ _ _ _ hp hu hv hty hdst hn hl ht =>
      ⟨fun h => exec_ctrlRequestReceived_served hp hu hv hl (hty.trans h) hdst hn ht,
        fun h => exec_ctrlReplyReceived_served hp hu hv hl (hty.trans h) hdst hn ht,
        fun h => exec_lateErrorReceived_served hp hu hv hl (hty.trans h) hdst hn ht,
        fun h => exec_bulkPacketReceived_served hp hu hv hl (hty.trans h) hdst hn,
        fun _ => ⟨fun _ => State.ctrlReplyIn_answers, State.ctrlReplyIn_late⟩,
        fun _ _ => ⟨State.lateEnter_room, State.lateEnter_full⟩⟩,
    fun _ _ _ _ _ _ hb hv hnode htag => ⟨State.ctrlRequestIn_job hb hv hnode htag,
      State.ctrlRequestIn_firmware hb hv hnode htag, State.ctrlRequestIn_bulk hb hv hnode htag,
      State.ctrlRequestIn_unknown hb hv hnode htag⟩,
    fun _ _ _ _ _ _ _ _ _ hb hnode hoff hdata ht => ⟨State.bulkIn_fenced, fun hf _ hw =>
      ⟨State.bulkIn_outside hb hoff hdata hf hw, fun h0 hin =>
        ⟨fun hnone => State.bulkIn_tooMany hb hoff hdata hf hw h0 hin hnode (ht.symm.trans hnone),
          fun hroom hx _ => State.bulkIn_stores hb hoff hdata hf hw h0 hin hnode ht hroom hx⟩⟩⟩⟩

end

section
/-! PROOFS. The fabric node's own commands: waymarks, root, link state, IDs, routes, time, late log, reset (O54). -/

namespace Sys2Proof.Machine

/-! ### Discards and the neighbour that is lost (15_botex_fabric.md R373, R391) -/

/-- The cells that a packet which is discarded may change. -/
def lateDiscardCells : List Fld := [.FAB_EVENTS_EV, .FAB_CNT_LATE_LOST, .FAB_LATE_STATUS_OVF]

theorem State.lateEnter_get (s : State) (e : List Nat) (f : Fld) (i : Nat) (h0 : f.page ≠ 0)
    (h : ∀ g ∈ lateDiscardCells, g.id ≠ f.id) : (s.lateEnter e).get f i = s.get f i := by
  unfold State.lateEnter
  extract_lets cause _ t
  have ht : t.get f i = s.get f i := by
    unfold t
    split
    · exact State.fabEvent_get _ _ _ _ _ _ _ _ h0 (h _ (by decide))
    · rw [State.fabEvent_get _ _ _ _ _ _ _ _ h0 (h _ (by decide)), State.get_set_ne _ _ _ _ _ _ (h _ (by decide))]
      exact State.get_inc_ne _ _ _ _ _ (h _ (by decide))
  split
  · exact ((State.reqDone_upd _ _ _ _ (masks_self _ _) (.refl _)).cells _ _ (Nat.zero_testBit _)).trans ht
  · exact ht

theorem State.fabDiscard_get (s : State) (k : FabPkt) (cause port : Nat) (f : Fld) (i : Nat) (h0 : f.page ≠ 0)
    (h : ∀ g ∈ lateDiscardCells, g.id ≠ f.id) : (s.fabDiscard k cause port).get f i = s.get f i := by
  have hrel : (s.releasePkt k).get f i = s.get f i :=
    (State.releasePkt_upd s k (masks_self _ _) (.refl _)).cells _ _ (Nat.zero_testBit _)
  have hlost : ((s.releasePkt k).inc .FAB_CNT_LATE_LOST).get f i = s.get f i :=
    (State.get_inc_ne _ _ _ _ _ (h _ (by decide))).trans hrel
  rw [State.fabDiscard]
  split
  · exact hrel
  · split
    · exact hlost
    · split
      · exact (State.lateEnter_get _ _ _ _ h0 h).trans hrel
      · split
        · exact ((State.fabQueue_upd _ _ _ (masks_self _ _) (.refl _)).cells _ _ (Nat.zero_testBit _)).trans hrel
        · exact hlost

theorem State.neighbourLost_portState (s : State) (p : Nat) {st : Nat} (hst : st < 8) :
    (s.neighbourLost p st).portState p = st := by
  unfold State.neighbourLost
  extract_lets s₁ x uid id had _ s₂ s₃ s₄ s₅ s₆ s₇ s₈ s₉
  have h₃ : s₃.get .FAB_PORT_STATUS_STATE p = st := (State.get_set_same ..).trans (Nat.mod_eq_of_lt hst)
  have h₄ : s₄.get .FAB_PORT_STATUS_STATE p = st :=
    (State.foldl_get _ _ _ _ _ fun t k => State.fabDiscard_get t k 4 p _ _ (by decide) (by decide)).trans h₃
  have h₇ : s₇.get .FAB_PORT_STATUS_STATE p = st := by
    rw [State.get_set_ne _ _ _ _ _ _ (by decide), State.foldl_set_get_ne (by decide),
      State.foldl_get _ _ _ _ _ fun t c => State.get_set_ne _ _ _ _ _ _ (by decide), h₄]
  have h₈ : s₈.get .FAB_PORT_STATUS_STATE p = st := by
    unfold s₈
    split
    · rw [State.fabEvent_get _ _ _ _ _ _ _ _ (by decide) (by decide),
        State.fabEvent_get _ _ _ _ _ _ _ _ (by decide) (by decide), h₇]
    · exact h₇
  have h₉ : s₉.get .FAB_PORT_STATUS_STATE p = st := by
    unfold s₉
    split
    · rw [State.get_set_ne _ _ _ _ _ _ (by decide), State.get_set_ne _ _ _ _ _ _ (by decide), h₈]
    · exact h₈
  exact (State.portChanged_get _ _ _ (by decide)).trans h₉

section Neighbour
variable {s : State} {p : Nat}

theorem exec_waymarkSend_sends (hp : p < 8) (hd : s.portState p ≠ portDown) (ha : s.portState p ≠ portAsleep) :
    exec (.waymarkSend p) s =
      .next (s.fabQueue p ⟨1, s.ownPacket 0x01 254 0 0 (s.waymarkBody p), none, false, true⟩) := by
  rw [exec_waymarkSend, execWaymarkSend, Nat.mod_eq_of_lt hp]
  exact if_neg (by simpa using ⟨hd, ha⟩)

theorem exec_waymarkSend_idle (hp : p < 8) (h : s.portState p = portDown ∨ s.portState p = portAsleep) :
    exec (.waymarkSend p) s = .next s := by
  rw [exec_waymarkSend, execWaymarkSend, Nat.mod_eq_of_lt hp]
  exact if_pos (by simpa using h)

theorem exec_timeRequestSend_sends {u : State} (hp : p < 8) (hr : s.on .FAB_NODE_ROOT = false)
    (hpar : s.get .FAB_H_PARENT = p) (hup : s.fabUp p = true) (hu : u = (s.bump .FAB_H_XCHG 0 1).set .FAB_H_T1OK 0 0) :
    exec .timeRequestSend s =
      .next (u.fabQueue p ⟨0, u.ownPacket 0x10 254 0 (u.get .FAB_H_XCHG) [], none, false, true⟩) := by
  subst hpar hu
  exact if_neg (by simp [hr, hup, hp])

theorem exec_timeRequestSend_idle
    (h : s.on .FAB_NODE_ROOT = true ∨ 8 ≤ s.get .FAB_H_PARENT ∨ s.fabUp (s.get .FAB_H_PARENT) = false) :
    exec .timeRequestSend s = .next s := if_pos (by simpa [or_assoc] using h)

theorem State.lsSend_seq (s : State) : s.lsSend.get .FAB_H_LSSEQ = (s.get .FAB_H_LSSEQ + 1) % 2 ^ 32 := by
  rw [State.lsSend]
  refine (State.foldl_get _ _ _ _ _ fun t p => ?_).trans (State.get_bump_same ..)
  exact (State.fabQueue_upd _ _ _ (masks_self _ _) (.refl _)).cells _ _ (Nat.zero_testBit _)

theorem exec_neighbourLost_dead (hp : p < 8) (h : s.portState p = portDown ∨ s.portState p = portAsleep) :
    exec (.neighbourLost p) s = .next s := by
  rw [exec_neighbourLost, execNeighbourLost, Nat.mod_eq_of_lt hp]
  exact if_pos (by simpa using h)

section Alive
variable (hp : p < 8) (hd : s.portState p ≠ portDown) (ha : s.portState p ≠ portAsleep)
include hp hd ha

theorem exec_neighbourLost_lanesDown (h : s.portOn p = 0) :
    exec (.neighbourLost p) s = .next (s.neighbourLost p portDown).jobAnswers := by
  rw [exec_neighbourLost, execNeighbourLost, Nat.mod_eq_of_lt hp]
  exact (if_neg (by simpa using ⟨hd, ha⟩)).trans (if_pos h)

theorem exec_neighbourLost_unheard (h : s.portOn p ≠ 0) (hm : (s.fab.marks.find? fun e => e.1 == p) = none) :
    exec (.neighbourLost p) s = .next s := by
  rw [exec_neighbourLost, execNeighbourLost, Nat.mod_eq_of_lt hp]
  refine (if_neg (by simpa using ⟨hd, ha⟩)).trans ((if_neg h).trans ?_)
  rw [hm]

theorem exec_neighbourLost_silent (h : s.portOn p ≠ 0) {q : Nat} {w : Waymark}
    (hm : (s.fab.marks.find? fun e => e.1 == p) = some (q, w)) : exec (.neighbourLost p) s =
      .next (if w.seen + 3500000 ≤ s.elapsed then (s.neighbourLost p portNoVersion).jobAnswers else s) := by
  rw [exec_neighbourLost, execNeighbourLost, Nat.mod_eq_of_lt hp]
  refine (if_neg (by simpa using ⟨hd, ha⟩)).trans ((if_neg h).trans ?_)
  rw [hm]
  dsimp only
  split <;> rfl

end Alive
end Neighbour

/-! ### The root of the tree (R374) -/

theorem State.timeUnlock_get (s : State) (f : Fld) (i : Nat) (h0 : f.page ≠ 0)
    (h : ∀ g ∈ [Fld.FAB_NODE_TIME_LOCKED, .FAB_H_GOOD, .FAB_EVENTS_EV], g.id ≠ f.id) :
    s.timeUnlock.get f i = s.get f i := by
  have hset : ((s.set .FAB_NODE_TIME_LOCKED 0 0).set .FAB_H_GOOD 0 0).get f i = s.get f i :=
    (State.get_set_ne _ _ _ _ _ _ (h _ (by simp))).trans (State.get_set_ne _ _ _ _ _ _ (h _ (by simp)))
  rw [State.timeUnlock]
  split
  · exact (State.fabEvent_get _ _ _ _ _ _ _ _ h0 (h _ (by simp))).trans hset
  · exact hset

/-- The cells in which the reckoned root, its epoch, the distance, the parent and being the root are kept. -/
def rootCells : List Fld := [.FAB_ROOT, .FAB_H_EPOCH, .FAB_NODE_DEPTH, .FAB_H_PARENT, .FAB_NODE_ROOT]

/-- The cells of the time exchange and of the ID table that a new root or a new parent begins again. -/
def newRootCells : List Fld := [.FAB_PORT_STATUS_PARENT, .FAB_H_T1OK, .FAB_H_FIRST, .FAB_H_BAD, .FAB_H_SUM, .FAB_H_CNT,
  .FAB_NODE_TIME_LOCKED, .FAB_H_GOOD, .FAB_H_TABEPOCH, .FAB_EVENTS_EV]

theorem exec_rootUpdate_takes {s : State} {r : Nat × Nat × Nat × Nat} (hr : r = s.rootReckoned) :
    Completes .rootUpdate s fun t => t.get .FAB_ROOT = r.1 % 2 ^ 64 ∧ t.get .FAB_H_EPOCH = r.2.1 % 2 ^ 32 ∧
      t.get .FAB_NODE_DEPTH = r.2.2.1 % 64 ∧ t.get .FAB_H_PARENT = r.2.2.2 % 16 ∧
      t.get .FAB_NODE_ROOT = (r.1 == s.uid).toNat := by
  subst hr
  unfold Completes
  rw [exec_rootUpdate]
  unfold execRootUpdate
  extract_lets r newRoot newParent sets s₁ s₂ s₃
  refine ⟨_, rfl, ?_⟩
  beta_reduce
  have hapart : ∀ f ∈ rootCells, f.page ≠ 0 ∧ ∀ g ∈ newRootCells, g.id ≠ f.id := by decide
  have hkept : ∀ f ∈ rootCells,
      (if newRoot = true then (s₃.set .FAB_H_TABEPOCH 0 0).fabEvent 4 0xFFFF r.1 0xFF 0 else s₃).get f = s₁.get f :=
    fun f hf => by
    obtain ⟨h0, hne⟩ := hapart f hf
    have h₂ : s₂.get f = s₁.get f :=
      State.foldl_get _ _ _ _ _ fun t p => State.get_set_ne _ _ _ _ _ _ (hne _ (by decide))
    have h₃ : s₃.get f = s₂.get f := by
      unfold s₃
      split
      · rw [State.timeUnlock_get _ _ _ h0 fun g hg => hne g ((by decide : ∀ g ∈ [Fld.FAB_NODE_TIME_LOCKED, .FAB_H_GOOD,
            .FAB_EVENTS_EV], g ∈ newRootCells) g hg),
          State.get_set_ne _ _ _ _ _ _ (hne _ (by decide)), State.get_set_ne _ _ _ _ _ _ (hne _ (by decide)),
          State.get_set_ne _ _ _ _ _ _ (hne _ (by decide)), State.get_set_ne _ _ _ _ _ _ (hne _ (by decide)),
          State.get_set_ne _ _ _ _ _ _ (hne _ (by decide))]
      · rfl
    split
    · rw [State.fabEvent_get _ _ _ _ _ _ _ _ h0 (hne _ (by decide)), State.get_set_ne _ _ _ _ _ _ (hne _ (by decide)),
        h₃, h₂]
    · rw [h₃, h₂]
  have hbit : ∀ b : Bool, b.toNat % 2 ^ Fld.FAB_NODE_ROOT.width = b.toNat := by decide
  rw [hkept _ (by decide), hkept _ (by decide), hkept _ (by decide), hkept _ (by decide), hkept _ (by decide)]
  simp (disch := decide) only [s₁, sets, List.foldl_cons, List.foldl_nil, State.get_set_ne, State.get_set_same]
  exact ⟨rfl, rfl, rfl, rfl, hbit _⟩

/-! ### Link state, IDs, and requests without a reply (R375, R376, R383) -/

section Database
variable {s : State} {o : Nat}

theorem exec_linkStateExpiry_unknown (h : s.lsRecord o = none) : exec (.linkStateExpiry o) s = .next s := by
  rw [exec_linkStateExpiry, execLinkStateExpiry, h]

theorem exec_linkStateExpiry_fresh {r : LsRecord} (h : s.lsRecord o = some r) (ht : s.elapsed < r.seen + 350000000) :
    exec (.linkStateExpiry o) s = .next s := by
  rw [exec_linkStateExpiry, execLinkStateExpiry, h]
  exact if_pos ht

theorem exec_linkStateExpiry_withdraws {r : LsRecord} (h : s.lsRecord o = some r) (ht : r.seen + 350000000 ≤ s.elapsed) :
    Completes (.linkStateExpiry o) s fun t => t.lsRecord o = none ∧ ∀ o', o' ≠ o → t.lsRecord o' = s.lsRecord o' := by
  have hdb : ∀ u : State, (u.fabEvent 3 0xFFFF o 0xFF 0).stageRoutes.fab = u.fab := fun u => by
    rw [(State.stageRoutes_upd _ (masks_self _ _) (.refl _)).parts.fab (by decide),
      (State.fabEvent_upd _ _ _ _ _ _ (masks_self _ _) (.refl _)).parts.fab (by decide)]
  refine ⟨_, (by rw [exec_linkStateExpiry, execLinkStateExpiry, h]; exact if_neg (Nat.not_lt.mpr ht)), ?_, fun o' ho => ?_⟩
  · rw [State.lsRecord, hdb]
    exact List.find?_eq_none.mpr fun x hx => by simpa using (List.mem_filter.mp hx).2
  · rw [State.lsRecord, hdb, List.find?_filter]
    refine congrArg (List.find? · s.fab.db) (funext fun x => ?_)
    by_cases hx : x.origin = o'
    · simp [hx, ho]
    · simp [hx]

theorem exec_idAssign_assigns (hr : s.on .FAB_NODE_ROOT = true) (ha : s.on .BOOT_H_AWAY = false) : exec .idAssign s =
    .next (((s.adoptTable ((s.get .FAB_H_TABEPOCH + 1) % 2 ^ 32) s.assignIds).fabBroadcast 0x03
      ((s.get .FAB_H_TABEPOCH + 1) % 2 ^ 32) (tableBody ((s.get .FAB_H_TABEPOCH + 1) % 2 ^ 32) s.assignIds)).jobAnswers) :=
  if_neg (by simp [hr, ha])

theorem exec_idAssign_idle (h : s.on .FAB_NODE_ROOT = false ∨ s.on .BOOT_H_AWAY = true) : exec .idAssign s = .next s :=
  if_pos (by simpa using h)

theorem exec_ctrlTimeout_unknown {tag : Nat} (h : (s.fab.reqs.find? fun r => r.tag == tag) = none) :
    exec (.ctrlTimeout tag) s = .next s := by
  rw [exec_ctrlTimeout, execCtrlTimeout, h]

section Request
variable {tag : Nat} {q : FabReq} (h : (s.fab.reqs.find? fun r => r.tag == tag) = some q)
include h

theorem exec_ctrlTimeout_waits
    (hw : s.elapsed < q.born + s.get .FAB_CFG_CTRL_TIMEOUT_MS * 1000000 ∨ s.isPrepare tag = true) :
    exec (.ctrlTimeout tag) s = .next s := by
  rw [exec_ctrlTimeout, execCtrlTimeout, h]
  exact if_pos (by simpa using hw)

theorem exec_ctrlTimeout_ends (ht : q.born + s.get .FAB_CFG_CTRL_TIMEOUT_MS * 1000000 ≤ s.elapsed)
    (hp : s.isPrepare tag = false) : exec (.ctrlTimeout tag) s = .next (s.reqDone tag .timeout []).jobAnswers := by
  rw [exec_ctrlTimeout, execCtrlTimeout, h]
  exact if_neg (by simpa [hp] using ht)

theorem State.reqDone_timeout : (s.reqDone tag .timeout []).fab.answers = s.fab.answers ++ [⟨q, .timeout, []⟩] ∧
    ∀ x ∈ (s.reqDone tag .timeout []).fab.reqs, x.tag ≠ tag := by
  rw [State.reqDone, h]
  exact ⟨rfl, fun x hx => by simpa using (List.mem_filter.mp hx).2⟩

end Request
end Database

/-! ### The commit of a bulk transfer (R384) -/

section BulkCommit
variable {s f : State} {n tag i k b : Nat}

theorem exec_bulkCommit_selftest (ht : s.inTest 15 = true) :
    exec (.bulkCommit n tag i k b) s = .next (s.ctrlReply n tag 3 .selftest []).jobAnswers := by
  rw [exec_bulkCommit, execBulkCommit, State.bulkCommit, if_pos ht]
  rfl

theorem exec_bulkCommit_fenced (ht : s.inTest 15 = false) (hf : s.on .FAB_CTRL_FENCE = true) :
    exec (.bulkCommit n tag i k b) s = .next (s.ctrlReply n tag 3 .busy []).jobAnswers := by
  rw [exec_bulkCommit, execBulkCommit, State.bulkCommit, if_neg (ne_true_of_eq_false ht), if_pos hf]
  rfl

section Open
variable (hs : f = { s with fab := { s.fab with bulk := s.fab.bulk.filter fun t => !(t.node == n && t.id == i) } })
  (ht : s.inTest 15 = false) (hf : s.on .FAB_CTRL_FENCE = false)
include hs ht hf

theorem exec_bulkCommit_known {x : Bulk} (hx : (s.fab.bulk.find? fun t => t.node == n && t.id == i) = some x) :
    exec (.bulkCommit n tag i k b) s =
      .next (f.ctrlReply n tag 3 (if x.idx.length = k ∧ x.bytes = b then .ok else .farError) []).jobAnswers := by
  rw [exec_bulkCommit, execBulkCommit, State.bulkCommit, if_neg (ne_true_of_eq_false ht), if_neg (ne_true_of_eq_false hf),
    hx, hs]
  simp only [Bool.and_eq_true, decide_eq_true_eq]
  by_cases h : x.idx.length = k ∧ x.bytes = b
  · rw [if_pos h]
    rfl
  · rw [if_neg h]
    rfl

theorem exec_bulkCommit_unknown (hx : (s.fab.bulk.find? fun t => t.node == n && t.id == i) = none) :
    exec (.bulkCommit n tag i k b) s =
      .next (f.ctrlReply n tag 3 (if k = 0 ∧ b = 0 then .ok else .farError) []).jobAnswers := by
  rw [exec_bulkCommit, execBulkCommit, State.bulkCommit, if_neg (ne_true_of_eq_false ht), if_neg (ne_true_of_eq_false hf),
    hx, hs]
  simp only [Bool.and_eq_true, decide_eq_true_eq]
  by_cases h : k = 0 ∧ b = 0
  · rw [if_pos h]
    rfl
  · rw [if_neg h]
    rfl

end Open
end BulkCommit

/-! ### Routes and the rate of the clock (R376, R377, R380) -/

/-- A fold that meets `x` makes `P`, under an invariant of its steps, and every step keeps it. -/
theorem foldl_of_mem_inv {α : Type} {I P : State → Prop} {g : State → α → State} {l : List α} {x : α} (hx : x ∈ l)
    (hinv : ∀ s y, I s → I (g s y)) (hmake : ∀ s, I s → P (g s x)) (hkeep : ∀ s y, I s → P s → P (g s y)) {s : State}
    (hs : I s) : P (l.foldl g s) := by
  obtain ⟨a, b, rfl⟩ := List.append_of_mem hx
  rw [List.foldl_append, List.foldl_cons]
  have ha : I (a.foldl g s) := List.foldlRecOn (motive := I) a g hs fun t ht y _ => hinv t y ht
  exact (List.foldlRecOn (motive := fun t => I t ∧ P t) b g ⟨hinv _ x ha, hmake _ ha⟩
    fun t ht y _ => ⟨hinv t y ht.1, hkeep t y ht.1 ht.2⟩).2

section Routes
variable (s : State) (m : Nat)

/-- One row of the staged table, made live. -/
def State.commitRoute (s : State) (d : Nat) : State :=
  (s.set .FAB_ROUTE_PORT d (s.get .FAB_H_SPORT d)).set .FAB_ROUTE_HOPS d (s.get .FAB_H_SHOPS d)

theorem State.routeCommit_rows {d : Nat} (hd : d < 64) :
    (s.routeCommit m).get .FAB_ROUTE_PORT d = s.get .FAB_H_SPORT d % 16 ∧
      (s.routeCommit m).get .FAB_ROUTE_HOPS d = s.get .FAB_H_SHOPS d % 64 := by
  have hstep : ∀ (t : State) (y : Nat), (t.commitRoute y).get .FAB_ROUTE_PORT y = t.get .FAB_H_SPORT y % 16 ∧
      (t.commitRoute y).get .FAB_ROUTE_HOPS y = t.get .FAB_H_SHOPS y % 64 := fun t y =>
    ⟨(State.get_set_ne _ _ _ _ _ _ (by decide)).trans (State.get_set_same ..), State.get_set_same ..⟩
  have hother : ∀ (t : State) (y e : Nat), y ≠ e → (t.commitRoute y).get .FAB_ROUTE_PORT e = t.get .FAB_ROUTE_PORT e ∧
      (t.commitRoute y).get .FAB_ROUTE_HOPS e = t.get .FAB_ROUTE_HOPS e := fun t y e he =>
    ⟨(State.get_set_ne _ _ _ _ _ _ (by decide)).trans (State.get_set_inst _ _ _ _ _ _ he),
      (State.get_set_inst _ _ _ _ _ _ he).trans (State.get_set_ne _ _ _ _ _ _ (by decide))⟩
  have hfold : ∀ t : State, t.get .FAB_H_SPORT d = s.get .FAB_H_SPORT d ∧ t.get .FAB_H_SHOPS d = s.get .FAB_H_SHOPS d →
      ((List.range 64).foldl State.commitRoute t).get .FAB_ROUTE_PORT d = s.get .FAB_H_SPORT d % 16 ∧
        ((List.range 64).foldl State.commitRoute t).get .FAB_ROUTE_HOPS d = s.get .FAB_H_SHOPS d % 64 := fun t ht =>
    foldl_of_mem_inv (P := fun u : State => u.get .FAB_ROUTE_PORT d = s.get .FAB_H_SPORT d % 16 ∧
        u.get .FAB_ROUTE_HOPS d = s.get .FAB_H_SHOPS d % 64)
      (I := fun u : State => u.get .FAB_H_SPORT d = s.get .FAB_H_SPORT d ∧ u.get .FAB_H_SHOPS d = s.get .FAB_H_SHOPS d)
      (List.mem_range.mpr hd)
      (fun u y hu => by
        rw [State.commitRoute]
        simp (disch := decide) only [State.get_set_ne]
        exact hu)
      (fun u hu => by
        rw [(hstep u d).1, (hstep u d).2, hu.1, hu.2]
        exact ⟨rfl, rfl⟩)
      (fun u y hu hp => by
        by_cases hy : y = d
        · rw [hy, (hstep u d).1, (hstep u d).2, hu.1, hu.2]
          exact ⟨rfl, rfl⟩
        · rw [(hother u y d hy).1, (hother u y d hy).2]
          exact hp) ht
  obtain ⟨hport, hhops⟩ := hfold (s.set .FAB_H_SMASK 0 m)
    ⟨State.get_set_ne _ _ _ _ _ _ (by decide), State.get_set_ne _ _ _ _ _ _ (by decide)⟩
  constructor
  · refine (State.get_inc_ne _ _ _ _ _ (by decide)).trans ((State.get_set_ne _ _ _ _ _ _ (by decide)).trans hport)
  · refine (State.get_inc_ne _ _ _ _ _ (by decide)).trans ((State.get_set_ne _ _ _ _ _ _ (by decide)).trans hhops)

theorem State.routeCommit_mask : (s.routeCommit m).get .FAB_ROUTE_COMMIT_BCAST_MASK = m % 256 :=
  (State.get_inc_ne _ _ _ _ _ (by decide)).trans (State.get_set_same ..)

theorem State.routeCommit_epoch : (s.routeCommit m).get .FAB_ROUTE_COMMIT_EPOCH =
    min (s.get .FAB_ROUTE_COMMIT_EPOCH + 1) (2 ^ 16 - 1) := by
  refine (State.get_inc_same ..).trans ?_
  rw [State.get_set_ne _ _ _ _ _ _ (by decide), State.foldl_get _ _ _ _ _ fun t d => ?_,
    State.get_set_ne _ _ _ _ _ _ (by decide)]
  · rfl
  · exact (State.get_set_ne _ _ _ _ _ _ (by decide)).trans (State.get_set_ne _ _ _ _ _ _ (by decide))

theorem exec_routeCommit_answers {src : Src} (hg : s.gate src .device 15 = .ok) :
    exec (.routeCommit m src) s = .next ((s.routeCommit m).answer src 0x482100 .ok) := if_neg (not_not_intro hg)

theorem exec_timeRateCorrect_idle (h : s.get .SYN_TB_CTRL_SRC ≠ 2 ∨ s.on .FAB_NODE_ROOT = true ∨ s.get .FAB_H_CNT < 64) :
    exec .timeRateCorrect s = .next s := if_pos (by simpa [or_assoc] using h)

theorem exec_timeRateCorrect_corrects (hs : s.get .SYN_TB_CTRL_SRC = 2) (hr : s.on .FAB_NODE_ROOT = false)
    (hc : 64 ≤ s.get .FAB_H_CNT) : Completes .timeRateCorrect s fun t =>
      t.get .SYN_TB_RATE = s.free % 2 ^ Fld.SYN_TB_RATE.width ∧ t.fresh = s.fresh + 1 ∧ t.get .FAB_H_SUM = 0 ∧
        t.get .FAB_H_CNT = 0 := by
  refine ⟨_, if_neg (by simpa [hs, hr] using hc), ?_⟩
  have hrate : (s.set .SYN_TB_RATE 0 s.free).drawn.get .SYN_TB_RATE = s.free % 2 ^ Fld.SYN_TB_RATE.width :=
    State.get_set_same ..
  simp (disch := decide) only [State.get_set_ne, State.get_set_same]
  exact ⟨hrate, rfl, Nat.zero_mod _, Nat.zero_mod _⟩

end Routes

/-! ### The late log, fence, reset and counters (R391, R515) -/

section Control
variable {s : State} {src : Src}

theorem exec_fabLatePop_answers (hg : s.gate src .operator 15 = .ok) : exec (.fabLatePop src) s =
    .next (({ s with fab := { s.fab with late := s.fab.late.drop 1 } } : State).answer src 0x483004 .ok) :=
  if_neg (not_not_intro hg)

theorem exec_fabFence_recorded (hg : s.gate src .installer 15 = .ok) : Recorded (.fabFence src) s src 0x481028
    (s.writeRec src 0x481028 1) fun t => t.get .FAB_CTRL_FENCE = 1 := by
  refine .of_exec (eff := effFabFence) (by simp [execFabFence, hg]) fun _ => ?_
  rw [State.completed_get _ _ (by decide) (by decide)]
  exact State.get_set_same ..

theorem exec_fabFenceDone_fenced (hf : s.on .FAB_CTRL_FENCE = true) (hr : s.fab.reqs = []) :
    exec .fabFenceDone s = .next (s.set .FAB_CTRL_FENCED 0 1) := if_pos (by rw [hf, hr]; rfl)

theorem exec_fabFenceDone_idle (h : s.on .FAB_CTRL_FENCE = false ∨ s.fab.reqs ≠ []) : exec .fabFenceDone s = .next s := by
  refine if_neg fun hb => ?_
  obtain ⟨hf, hr⟩ := Bool.and_eq_true_iff.mp hb
  rcases h with h | h
  · exact absurd (h.symm.trans hf) (by decide)
  · exact h (List.isEmpty_iff.mp hr)

theorem exec_fabReset_recorded (hg : s.gate src .installer 15 = .ok) : Recorded (.fabReset src) s src 0x481028
    (s.writeRec src 0x481028 (2 + s.get .FAB_CTRL_FENCE)) fun t => t.get .PWR_H_RESETTING 15 = 1 := by
  refine .of_exec (eff := effFabReset) (by simp [execFabReset, hg]) fun _ => ?_
  rw [State.completed_get _ _ (by decide) (by decide), effFabReset]
  exact ((State.jobAnswers_upd _ (masks_self _ _) (.refl _)).cells _ _ (by decide)).trans (State.blockReset_resetting _ 15)

theorem exec_fabClrCnt_answers (hg : s.gate src .operator 15 = .ok) :
    exec (.fabClrCnt src) s = .next (s.fabClrCnt.answer src 0x481028 .ok) := if_neg (not_not_intro hg)

/-- The counters of one port. -/
def portCounters : List Fld := [.FAB_PORT_CNT_TX, .FAB_PORT_CNT_RX, .FAB_PORT_CNT_RETRY, .FAB_PORT_CNT_POISON,
  .FAB_PORT_CNT_CRC]

theorem State.fabClrCnt_port (s : State) {p : Nat} (hp : p < 8) : ∀ f ∈ portCounters, s.fabClrCnt.get f p = 0 := by
  intro f hf
  have hinj : ∀ g ∈ portCounters, g.id = f.id → g = f :=
    (by decide : ∀ f ∈ portCounters, ∀ g ∈ portCounters, g.id = f.id → g = f) f hf
  have hne := (by decide : ∀ f ∈ portCounters, Fld.FAB_CNT_LATE_REPLY.id ≠ f.id ∧ Fld.FAB_CNT_LATE_LOST.id ≠ f.id) f hf
  refine (State.get_set_ne _ _ _ _ _ _ hne.2).trans ((State.get_set_ne _ _ _ _ _ _ hne.1).trans ?_)
  exact foldl_of_mem (P := fun t : State => t.get f p = 0) (g := fun t p => portCounters.foldl (fun t f => t.set f p 0) t)
    (List.mem_range.mpr hp) (fun t => State.foldl_clear_get hf hinj p t) (fun t y _ => State.foldl_clear_zero hinj) s

theorem State.fabClrCnt_late (s : State) :
    s.fabClrCnt.get .FAB_CNT_LATE_REPLY = 0 ∧ s.fabClrCnt.get .FAB_CNT_LATE_LOST = 0 :=
  ⟨(State.get_set_ne _ _ _ _ _ _ (by decide)).trans ((State.get_set_same ..).trans (Nat.zero_mod _)),
    (State.get_set_same ..).trans (Nat.zero_mod _)⟩

end Control

end Sys2Proof.Machine

open Sys2Proof Sys2Proof.Machine

/-- Settles O54: each of the node's commands by its condition, and what its operation leaves by the laws above. -/
theorem fabricNodeCommandsComplete : Obligations.FabricNodeCommandsComplete :=
  ⟨fun _ s _ hp => ⟨exec_waymarkSend_sends hp, exec_waymarkSend_idle hp, exec_timeRequestSend_sends hp,
      exec_timeRequestSend_idle, exec_linkStateSend, s.lsSend_seq⟩,
    fun p s hp => ⟨exec_neighbourLost_dead hp, fun hd ha => ⟨exec_neighbourLost_lanesDown hp hd ha, fun h =>
      ⟨exec_neighbourLost_unheard hp hd ha h, fun _ _ => exec_neighbourLost_silent hp hd ha h⟩⟩,
      fun _ => s.neighbourLost_portState p⟩,
    fun _ _ => exec_rootUpdate_takes,
    fun _ _ _ => ⟨exec_linkStateExpiry_unknown, fun _ h => ⟨exec_linkStateExpiry_fresh h,
      exec_linkStateExpiry_withdraws h⟩, exec_idAssign_assigns, exec_idAssign_idle, exec_ctrlTimeout_unknown,
      fun _ h => ⟨exec_ctrlTimeout_waits h, exec_ctrlTimeout_ends h, State.reqDone_timeout h⟩⟩,
    fun _ _ _ _ _ _ _ hs => ⟨exec_bulkCommit_selftest, fun ht => ⟨exec_bulkCommit_fenced ht, fun hf =>
      ⟨fun _ => exec_bulkCommit_known hs ht hf, exec_bulkCommit_unknown hs ht hf⟩⟩⟩,
    fun m _ s => ⟨exec_routeCommit_answers s m, fun _ => s.routeCommit_rows m, s.routeCommit_mask m,
      s.routeCommit_epoch m, exec_timeRateCorrect_idle s, exec_timeRateCorrect_corrects s⟩,
    fun _ s => ⟨exec_fabLatePop_answers, exec_fabFence_recorded, exec_fabFenceDone_fenced, exec_fabFenceDone_idle,
      exec_fabReset_recorded, exec_fabClrCnt_answers, fun _ hp => ⟨s.fabClrCnt_port hp _ (by decide),
        s.fabClrCnt_port hp _ (by decide), s.fabClrCnt_port hp _ (by decide), s.fabClrCnt_port hp _ (by decide),
        s.fabClrCnt_port hp _ (by decide)⟩, s.fabClrCnt_late⟩⟩

end

section
/-! PROOFS. The read at start, firmware start, and every step of a firmware update and of its trial (O30). -/

namespace Sys2Proof.Machine

/-! ### Events of the boot block, and a restart of the management complex (16_boot_image.md R411, R414) -/

theorem State.bootEvent_get (s : State) (k inst status step seq : Nat) (f : Fld) (i : Nat) (h : f.page ≠ 0)
    (he : Fld.BOOT_EVENTS_EV.id ≠ f.id) : (s.bootEvent k inst status step seq).get f i = s.get f i :=
  State.sticky_get _ _ _ _ _ _ _ _ _ _ _ _ _ h he

theorem State.bootEvent_boot (s : State) (k inst status step seq : Nat) :
    (s.bootEvent k inst status step seq).boot = s.boot :=
  (State.bootEvent_upd _ _ _ _ _ _ (masks_self _ _) (.refl _)).parts.boot (by decide)

/-- The cells that the end of an update without success may change. -/
def updateFailCells : List Fld := [.BOOT_EVENTS_EV, .BOOT_UPD_STATUS_UPD_STATE, .BOOT_UPD_STATUS_LAST_STATUS,
  .BOOT_UPD_STATUS_LAST_STEP, .BOOT_RESULT_SLOT_STATE, .BOOT_SEQ]

theorem State.updateFail_get (s : State) (st : Status) (step : Nat) (touched : Bool) (f : Fld) (i : Nat) (h0 : f.page ≠ 0)
    (h : ∀ g ∈ updateFailCells, g.id ≠ f.id) : (s.updateFail st step touched).get f i = s.get f i := by
  unfold State.updateFail
  extract_lets n seq u₁ u₂ _ u₃
  have h₁ : u₁.get f i = s.get f i := by
    unfold u₁
    split
    · exact (State.get_set_ne _ _ _ _ _ _ (h _ (by decide))).trans (State.get_set_ne _ _ _ _ _ _ (h _ (by decide)))
    · rfl
  have h₂ : u₂.get f i = u₁.get f i := by
    rw [State.get_set_ne _ _ _ _ _ _ (h _ (by decide)), State.get_set_ne _ _ _ _ _ _ (h _ (by decide)),
      State.get_set_ne _ _ _ _ _ _ (h _ (by decide))]
  exact (State.bootEvent_get _ _ _ _ _ _ _ _ h0 (h _ (by decide))).trans (h₂.trans h₁)

/-- A restart from NOR keeps the cells of the boot block, but for the three that say that it runs, when it meets no
update before its trial. -/
theorem State.mgtRestart_boot (s : State) {f : Fld} (i : Nat) (hp : f.page = 4)
    (hu : s.get .BOOT_UPD_STATUS_UPD_STATE = 0 ∨ s.get .BOOT_UPD_STATUS_UPD_STATE = 5)
    (ha : Fld.BOOT_H_AWAY.id ≠ f.id) (hr : Fld.BOOT_H_RESTARTING.id ≠ f.id) (hn : Fld.BOOT_H_FROMNOR.id ≠ f.id) :
    (s.mgtRestart true).get f i = s.get f i := by
  unfold State.mgtRestart
  extract_lets u₁ u₂ u₃ upd u₄
  have h₃ : ∀ (g : Fld) (j : Nat), g.page = 4 → Fld.BOOT_H_FROMNOR.id ≠ g.id → u₃.get g j = s.get g j := fun g j hg hne => by
    have hrestarts : Fld.PWR_STATUS_MGT_RESTARTS.id ≠ g.id := fun h => by
      rw [Fld.page, ← h] at hg
      exact absurd hg (by decide)
    have h₁ : u₁.get g j = s.get g j :=
      ((State.pwrEvent_upd _ _ _ _ _ (masks_self _ _) (.refl _)).cells _ _ (by rw [hg]; decide)).trans
        (State.get_inc_ne _ _ _ _ _ hrestarts)
    have h₂ : u₂.get g j = u₁.get g j := State.get_set_ne _ _ _ _ _ _ hne
    exact ((State.dropLoad_upd _ (masks_self _ _) (.refl _)).cells _ _ (by rw [hg]; decide)).trans
      (((State.dropCommands_upd _ (masks_self _ _) (.refl _)).cells _ _ (by rw [hg]; decide)).trans (h₂.trans h₁))
  have hupd : upd = s.get .BOOT_UPD_STATUS_UPD_STATE := h₃ _ _ rfl (by decide)
  have h₄ : u₄ = u₃ := if_neg (by rw [hupd]; rcases hu with h | h <;> rw [h] <;> decide)
  rw [(State.newGeneration_upd _ _ (masks_self _ _) (.refl _)).cells _ _ (by rw [hp]; decide),
    State.get_set_ne _ _ _ _ _ _ hr, State.get_set_ne _ _ _ _ _ _ ha, h₄, h₃ _ _ hp hn]

/-- A restart from NOR runs, and is one from NOR. -/
theorem State.mgtRestart_runs (s : State) :
    (s.mgtRestart true).get .BOOT_H_FROMNOR = 1 ∧ (s.mgtRestart true).get .BOOT_H_RESTARTING = 1 := by
  unfold State.mgtRestart
  extract_lets u₁ u₂ u₃ upd u₄
  have h₃ : u₃.get .BOOT_H_FROMNOR = 1 :=
    ((State.dropLoad_upd _ (masks_self _ _) (.refl _)).cells _ _ (by decide)).trans
      (((State.dropCommands_upd _ (masks_self _ _) (.refl _)).cells _ _ (by decide)).trans (State.get_set_same ..))
  have h₄ : u₄.get .BOOT_H_FROMNOR = 1 := by
    unfold u₄
    split
    · exact (State.updateFail_get _ _ _ _ _ _ (by decide) (by decide)).trans h₃
    · exact h₃
  constructor
  · rw [(State.newGeneration_upd _ _ (masks_self _ _) (.refl _)).cells _ _ (by decide),
      State.get_set_ne _ _ _ _ _ _ (by decide), State.get_set_ne _ _ _ _ _ _ (by decide), h₄]
  · rw [(State.newGeneration_upd _ _ (masks_self _ _) (.refl _)).cells _ _ (by decide)]
    exact State.get_set_same ..

/-! ### The read at start (R394, R396) -/

section BootRead
variable {s : State} {nor : Nor}

theorem State.trySlot_size (s : State) (nor : Nor) (failed : Option Nat) (n : Nat) :
    (s.trySlot nor failed n).1.boot.size = s.boot.size := by
  unfold State.trySlot
  extract_lets b u r v w
  have hu : u.boot.size = s.boot.size := by
    unfold u
    split <;> rfl
  have hv : v.boot.size = s.boot.size :=
    (congrArg BootS.size ((State.slotResult_upd _ _ _ (masks_self _ _) (.refl _)).parts.boot (by decide))).trans hu
  have hw : w.boot.size = s.boot.size := hv
  have hevent : ∀ (t : State) (k inst status step seq : Nat), (t.bootEvent k inst status step seq).boot.size = t.boot.size :=
    fun t k inst status step seq => congrArg BootS.size (t.bootEvent_boot k inst status step seq)
  split
  · exact hevent ..
  · clear_value w v r
    cases r with
    | some e => exact hv
    | none => cases failed with
      | some f => exact (hevent ..).trans hw
      | none => exact hw

/-- Whatever slots are tried, the size of the NOR stays as it was found. -/
theorem State.trySlots_size (nor : Nor) : ∀ (l : List Nat) (s : State) (failed : Option Nat),
    (s.trySlots nor failed l).boot.size = s.boot.size
  | [], _, _ => rfl
  | n :: rest, s, failed => by
    rw [State.trySlots]
    split
    · exact s.trySlot_size nor failed n
    · rw [State.trySlots_size nor rest, s.trySlot_size nor failed n]

theorem State.bootFail_state (s : State) : s.bootFail.get .BOOT_STATUS_STATE = 2 :=
  (State.notify_get _ _ _ (by decide)).trans (State.get_set_same ..)

theorem exec_bootRead_finds (h0 : s.get .BOOT_STATUS_STATE = 0) (hp : s.get .BOOT_H_PASSED = 0) (hh : s.get .PWR_H_HELD = 0)
    (hn : nor.found = true) : Completes (.bootRead nor) s fun t =>
      t.boot.size = nor.size ∧ (t.on .BOOT_H_PASSED = true ∨ t.get .BOOT_STATUS_STATE = 2) := by
  unfold Completes
  rw [exec_bootRead]
  unfold execBootRead
  rw [if_neg (by simp [State.on, h0, hp, hh]), if_neg (by simp [hn])]
  extract_lets _ u₁ u₂ u₃ u₄ u₅
  refine ⟨_, rfl, ?_⟩
  beta_reduce
  have h₂ : u₂.boot.size = nor.size :=
    List.foldlRecOn (motive := fun t : State => t.boot.size = nor.size) _ _ rfl fun _ h _ _ => h
  have h₃ : u₃.boot.size = nor.size :=
    List.foldlRecOn (motive := fun t : State => t.boot.size = nor.size) _ _ h₂ fun _ h _ _ => h
  have h₄ : u₄.boot.size = nor.size := by
    unfold u₄
    split
    · exact (congrArg BootS.size (State.bootEvent_boot ..)).trans h₃
    · exact h₃
  have h₅ : u₅.boot.size = nor.size := (State.trySlots_size ..).trans h₄
  split
  case isTrue hpassed => exact ⟨h₅, .inl hpassed⟩
  case isFalse =>
    exact ⟨(congrArg BootS.size ((State.bootFail_upd _ (masks_self _ _) (.refl _)).parts.boot (by decide))).trans h₅,
      .inr (State.bootFail_state _)⟩

theorem exec_bootRead_absent (h0 : s.get .BOOT_STATUS_STATE = 0) (hp : s.get .BOOT_H_PASSED = 0) (hh : s.get .PWR_H_HELD = 0)
    (hn : nor.found = false) : Completes (.bootRead nor) s fun t => t.get .BOOT_STATUS_STATE = 2 ∧
      t.get .BOOT_RESULT_STATUS 0 = statusCode .timeout ∧ t.get .BOOT_RESULT_STATUS 1 = statusCode .timeout ∧
      t.get .BOOT_RESULT_STEP 0 = 0 ∧ t.get .BOOT_RESULT_STEP 1 = 0 := by
  refine ⟨((s.slotResult 0 (some (0, .timeout))).slotResult 1 (some (0, .timeout))).bootFail, ?_, State.bootFail_state _, ?_⟩
  · rw [exec_bootRead, execBootRead, if_neg (by simp [State.on, h0, hp, hh]), if_pos (by simp [hn])]
  · have hfail : ∀ (t : State) (f : Fld) (i : Nat), f.page ≠ 0 → Fld.BOOT_STATUS_STATE.id ≠ f.id →
        t.bootFail.get f i = t.get f i := fun t f i h hne =>
      (State.notify_get _ _ _ h).trans (State.get_set_ne _ _ _ _ _ _ hne)
    rw [hfail _ _ _ (by decide) (by decide), hfail _ _ _ (by decide) (by decide), hfail _ _ _ (by decide) (by decide),
      hfail _ _ _ (by decide) (by decide)]
    simp (disch := decide) only [State.slotResult, State.get_set_ne, State.get_set_same, State.get_set_inst]
    decide

theorem exec_bootRead_idle (h : s.get .BOOT_STATUS_STATE ≠ 0 ∨ s.on .BOOT_H_PASSED = true ∨ s.on .PWR_H_HELD = true) :
    exec (.bootRead nor) s = .next s := if_pos (by simpa [or_assoc] using h)

end BootRead

/-! ### Firmware start (R407, R436) -/

section Start
variable {s : State}

theorem exec_firmwareStart_runs (h0 : s.get .BOOT_STATUS_STATE = 0) (hp : s.on .BOOT_H_PASSED = true)
    (hw : s.on .SEC_STATUS_WIPE_PENDING = false) : Completes .firmwareStart s fun t =>
      t.get .BOOT_STATUS_STATE = 1 ∧ t.get .BOOT_STATUS_FW_SRC = 0 ∧ t.get .BOOT_H_AWAY = 0 := by
  unfold Completes
  rw [exec_firmwareStart]
  unfold execFirmwareStart
  rw [if_neg (by simp [h0, hp]), if_neg (by simp [hw])]
  extract_lets u₁ sets u₂
  refine ⟨_, rfl, ?_⟩
  beta_reduce
  have hlanes : ∀ f : Fld, f.page = 4 → ((List.range 48).foldl (fun s n =>
      if s.on .LANE_CTRL_ENABLE n = true then effLaneEnable n s else s) u₂).get f = u₂.get f := fun f hf =>
    State.foldl_get _ _ _ _ _ fun t n => by
      split
      · exact (effLaneEnable_upd n t (masks_self _ _) (.refl _)).cells _ _ (by rw [hf]; decide)
      · rfl
  rw [hlanes _ rfl, hlanes _ rfl, hlanes _ rfl]
  simp (disch := decide) only [u₂, sets, List.foldl_cons, List.foldl_nil, State.get_set_ne, State.get_set_same]
  decide

theorem State.wipe_cause (s : State) : s.wipe.get .PWR_STATUS_RESET_CAUSE = 4 := by
  rw [State.wipe, State.deviceReset, State.powerOnTest_get _ _ _ (by decide)]
  exact State.get_set_same ..

theorem exec_firmwareStart_wipes (h0 : s.get .BOOT_STATUS_STATE = 0) (hp : s.on .BOOT_H_PASSED = true)
    (hw : s.on .SEC_STATUS_WIPE_PENDING = true) : exec .firmwareStart s = .next s.wipe := by
  rw [exec_firmwareStart, execFirmwareStart, if_neg (by simp [h0, hp]), if_pos hw]

theorem exec_firmwareStart_idle (h : s.get .BOOT_STATUS_STATE ≠ 0 ∨ s.on .BOOT_H_PASSED = false) :
    exec .firmwareStart s = .next s := if_pos (by simpa using h)

end Start

/-! ### The steps of an update (R408, R410) -/

section Update
variable {s : State}

theorem State.bootSlot_putSlot (s : State) (n : Nat) (b : BootSlot) : (s.putSlot n b).bootSlot n = b :=
  tabGet_put_same ..

theorem State.updateFail_updState (s : State) (st : Status) (step : Nat) (touched : Bool) :
    (s.updateFail st step touched).updState = 0 ∧ (s.updateFail st step touched).get .BOOT_UPD_STATUS_LAST_STATUS =
      statusCode st % 2 ^ Fld.BOOT_UPD_STATUS_LAST_STATUS.width := by
  rw [State.updState, State.updateFail]
  constructor
  all_goals
    refine (State.bootEvent_get _ _ _ _ _ _ _ _ (by decide) (by decide)).trans ?_
    refine (State.get_set_ne _ _ _ _ _ _ (by decide)).trans ?_
  · refine (State.get_set_ne _ _ _ _ _ _ (by decide)).trans (State.get_set_same ..)
  · exact State.get_set_same ..

theorem State.updateFail_staged (s : State) (st : Status) (step : Nat) (touched : Bool) :
    (s.updateFail st step touched).boot.staged = [] :=
  congrArg BootS.staged (State.bootEvent_boot ..)

theorem exec_fwUpdate_recorded {a n : Nat} {src : Src} (hg : s.fwGate src .maker 18 = .ok) (hs : s.inStaging a n = true)
    (hu : s.updateOk = true) :
    Recorded (.fwUpdate a n src) s src 0x50 (s.auditRec src 3 5 s.idleSlot noValue noValue) fun t =>
      t.get .BOOT_UPD_STATUS_UPD_STATE = 1 ∧ t.boot.staged = s.memBytes a n := by
  refine .of_exec (eff := effFwUpdate a n src) (by simp [execFwUpdate, hg, hs, hu]) fun hm => ?_
  constructor
  · rw [State.completed_get_mgt hm, effFwUpdate, if_neg (by simp [hu])]
    exact State.get_set_same ..
  · obtain ⟨l, hl⟩ := State.completed_mgt hm s 0x50 (effFwUpdate a n src)
    rw [hl, effFwUpdate, if_neg (by simp [hu])]
    rfl

theorem exec_updateVerifyDone_verifies (v : Verdicts) (hu : s.updState = 1) : Completes (.updateVerifyDone v) s fun t =>
    match s.imageCheck s.boot.staged s.boot.size v with
    | some e => t.updState = 0 ∧
      t.get .BOOT_UPD_STATUS_LAST_STATUS = statusCode e.2 % 2 ^ Fld.BOOT_UPD_STATUS_LAST_STATUS.width
    | none => if leAt s.boot.staged 8 4 ≤ (s.bootSlot s.activeSlot).seq then t.updState = 0 else t.updState = 2 := by
  unfold Completes
  rw [exec_updateVerifyDone, execUpdateVerifyDone, if_neg (not_not_intro hu)]
  cases s.imageCheck s.boot.staged s.boot.size v with
  | some e => exact ⟨_, rfl, State.updateFail_updState ..⟩
  | none =>
    dsimp only
    by_cases hseq : leAt s.boot.staged 8 4 ≤ (s.bootSlot s.activeSlot).seq
    · rw [if_pos hseq]
      exact ⟨_, rfl, by rw [if_pos hseq]; exact (State.updateFail_updState ..).1⟩
    · rw [if_neg hseq]
      exact ⟨_, rfl, by rw [if_neg hseq]; exact State.get_set_same ..⟩

theorem exec_updateProgramDone_programs (hu : s.updState = 2) : Completes (.updateProgramDone true) s fun t =>
    t.updState = 3 ∧ t.bootSlot s.idleSlot = ⟨s.boot.staged, 0xFFFFFFFF⟩ :=
  ⟨_, (if_neg (not_not_intro hu)).trans (if_neg (by decide)), State.get_set_same .., State.bootSlot_putSlot ..⟩

theorem exec_updateProgramDone_fails (hu : s.updState = 2) :
    Completes (.updateProgramDone false) s fun t => t.updState = 0 :=
  ⟨_, (if_neg (not_not_intro hu)).trans (if_pos rfl), (State.updateFail_updState ..).1⟩

theorem exec_updateReadbackDone_reads (v : Verdicts) (hu : s.updState = 3) : Completes (.updateReadbackDone v) s fun t =>
    t.boot.staged = [] ∧ match s.imageCheck (imageIn (s.bootSlot s.idleSlot) s.boot.size) s.boot.size v with
      | some _ => t.updState = 0
      | none => t.updState = 4 := by
  unfold Completes
  rw [exec_updateReadbackDone, execUpdateReadbackDone, if_neg (not_not_intro hu)]
  have hready : ∀ u : State, (((u.set .BOOT_UPD_STATUS_UPD_STATE 0 updReady).set .BOOT_UPD_STATUS_LAST_STATUS 0 0).set
      .BOOT_UPD_STATUS_LAST_STEP 0 0xF).get .BOOT_UPD_STATUS_UPD_STATE = 4 := fun u =>
    (State.get_set_ne _ _ _ _ _ _ (by decide)).trans ((State.get_set_ne _ _ _ _ _ _ (by decide)).trans
      (State.get_set_same ..))
  dsimp only
  cases s.imageCheck (imageIn (s.bootSlot s.idleSlot) s.boot.size) s.boot.size v with
  | some e => exact ⟨_, rfl, State.updateFail_staged .., (State.updateFail_updState ..).1⟩
  | none =>
    refine ⟨_, rfl, congrArg BootS.staged (State.bootEvent_boot ..), ?_⟩
    refine (State.bootEvent_get _ _ _ _ _ _ _ _ (by decide) (by decide)).trans ?_
    exact hready _

theorem exec_update_idle (v : Verdicts) (ok : Bool) (s : State) :
    (s.updState ≠ 1 → exec (.updateVerifyDone v) s = .next s) ∧ (s.updState ≠ 2 → exec (.updateProgramDone ok) s = .next s) ∧
      (s.updState ≠ 3 → exec (.updateReadbackDone v) s = .next s) :=
  ⟨fun h => if_pos h, fun h => if_pos h, fun h => if_pos h⟩

theorem effFwActivate_trial (src : Src) (hu : s.updState = 4) :
    (effFwActivate src s).get .BOOT_H_FROMNOR = 1 ∧ (effFwActivate src s).get .BOOT_H_RESTARTING = 1 ∧
      (effFwActivate src s).get .BOOT_STATUS_TRIAL = 1 ∧ (effFwActivate src s).updState = 5 := by
  unfold effFwActivate
  rw [if_neg (not_not_intro hu)]
  extract_lets n u₁ u₂ b u₃
  have hkept : ∀ f : Fld, f.page ≠ 0 → f.page ≠ 68 → Fld.BOOT_EVENTS_EV.id ≠ f.id →
      Fld.BOOT_STATUS_CONFIG_PENDING.id ≠ f.id → (u₃.answer src 0x51 .ok).get f = u₂.get f := fun f h0 h68 he hc => by
    rw [State.answer_get _ _ _ _ _ _ h0 h68]
    unfold u₃
    split
    · rw [State.bootEvent_get _ _ _ _ _ _ _ _ h0 he, State.get_set_ne _ _ _ _ _ _ hc]
    · rfl
  have hupd : (u₃.answer src 0x51 .ok).get .BOOT_UPD_STATUS_UPD_STATE = 5 :=
    (hkept _ (by decide) (by decide) (by decide) (by decide)).trans (State.get_set_same ..)
  have htrial : (u₃.answer src 0x51 .ok).get .BOOT_STATUS_TRIAL = 1 := by
    rw [hkept _ (by decide) (by decide) (by decide) (by decide), State.get_set_ne _ _ _ _ _ _ (by decide)]
    exact State.get_set_same ..
  obtain ⟨hnor, hrun⟩ := (u₃.answer src 0x51 .ok).mgtRestart_runs
  refine ⟨hnor, hrun, ?_, ?_⟩
  · rw [State.mgtRestart_boot _ _ rfl (.inr hupd) (by decide) (by decide) (by decide), htrial]
  · rw [State.updState, State.mgtRestart_boot _ _ rfl (.inr hupd) (by decide) (by decide) (by decide), hupd]

theorem exec_fwActivate_recorded {src : Src} (hg : s.fwGate src .maker 18 = .ok) (hu : s.updState = 4) :
    Recorded (.fwActivate src) s src 0x51 (s.auditRec src 3 5 s.idleSlot noValue noValue) fun t =>
      t.get .BOOT_H_FROMNOR = 1 ∧ t.get .BOOT_H_RESTARTING = 1 ∧ t.get .BOOT_STATUS_TRIAL = 1 ∧ t.updState = 5 := by
  refine .of_exec (eff := effFwActivate src) (by simp [execFwActivate, hg, hu]) fun hm => ?_
  rw [State.updState, State.completed_get_mgt hm, State.completed_get_mgt hm, State.completed_get_mgt hm,
    State.completed_get_mgt hm]
  exact effFwActivate_trial src hu

end Update

end Sys2Proof.Machine

open Sys2Proof Sys2Proof.Machine

/-- Settles O30: the read at start and firmware start by the slots, an update by the step that it is in. -/
theorem bootAndUpdateCommandsComplete : Obligations.BootAndUpdateCommandsComplete :=
  ⟨fun _ _ => exec_bootRead_finds, fun _ _ => ⟨exec_bootRead_absent, exec_bootRead_idle⟩, fun _ => exec_firmwareStart_runs,
    fun s => ⟨fun h0 hp hw => ⟨exec_firmwareStart_wipes h0 hp hw, s.wipe_cause⟩, exec_firmwareStart_idle⟩,
    fun _ _ _ _ => exec_fwUpdate_recorded, fun v _ => exec_updateVerifyDone_verifies v,
    fun _ hu => ⟨exec_updateProgramDone_programs hu, exec_updateProgramDone_fails hu⟩,
    fun v _ => exec_updateReadbackDone_reads v, exec_update_idle, fun _ _ => exec_fwActivate_recorded⟩

end

section
/-! PROOFS. Confirmation and rollback of a trial, and the return of the management complex (O31). -/

namespace Sys2Proof.Machine

/-! ### Confirmation and rollback (16_boot_image.md R410, R411) -/

section Trial
variable {s : State}

theorem State.slotStatus_slot (s : State) (n v : Nat) :
    ((s.slotStatus n v).bootSlot n).status = (s.bootSlot n).status &&& v :=
  congrArg BootSlot.status (State.bootSlot_putSlot ..)

theorem State.confirm_spec (s : State) : s.confirm.get .BOOT_STATUS_TRIAL = 0 ∧ s.confirm.updState = 0 ∧
    s.confirm.get .BOOT_H_TRIALBIT s.activeSlot = 0 ∧
    (s.confirm.bootSlot s.activeSlot).status = (s.bootSlot s.activeSlot).status &&& 0x5A5A5A5A := by
  refine ⟨?_, State.get_set_same .., ?_, State.slotStatus_slot s s.activeSlot _⟩
  · exact (State.get_set_ne _ _ _ _ _ _ (by decide)).trans (State.get_set_same ..)
  · exact (State.get_set_ne _ _ _ _ _ _ (by decide)).trans
      ((State.get_set_ne _ _ _ _ _ _ (by decide)).trans ((State.get_set_same ..).trans (Nat.zero_mod _)))

theorem exec_fwConfirm_answers {src : Src} (hg : s.fwGate src .device 18 = .ok) (hc : s.confirmOk = true) :
    Answers (.fwConfirm src) s src 0x40064 .ok fun t => t.get .BOOT_STATUS_TRIAL = 0 ∧ t.updState = 0 ∧
      t.get .BOOT_H_TRIALBIT s.activeSlot = 0 ∧
      (t.bootSlot s.activeSlot).status = (s.bootSlot s.activeSlot).status &&& 0x5A5A5A5A := by
  refine ⟨s.confirm, ?_, s.confirm_spec⟩
  rw [exec_fwConfirm, execFwConfirm, if_neg (not_not_intro hg), if_neg (by simp [hc])]

theorem State.rollBack_spec (s : State) : s.rollBack.get .BOOT_H_FROMNOR = 1 ∧
    s.rollBack.get .BOOT_STATUS_ACTIVE = s.get .BOOT_H_FORMER % 2 ^ Fld.BOOT_STATUS_ACTIVE.width ∧
    s.rollBack.get .BOOT_STATUS_TRIAL = 0 := by
  unfold State.rollBack
  extract_lets n f u₁ u₂
  have hupd : (u₂.set .BOOT_UPD_STATUS_UPD_STATE 0 updIdle).get .BOOT_UPD_STATUS_UPD_STATE = 0 := State.get_set_same ..
  refine ⟨(State.mgtRestart_runs _).1, ?_, ?_⟩
  · rw [State.mgtRestart_boot _ _ rfl (.inl hupd) (by decide) (by decide) (by decide),
      State.get_set_ne _ _ _ _ _ _ (by decide), State.get_set_ne _ _ _ _ _ _ (by decide)]
    exact State.get_set_same ..
  · rw [State.mgtRestart_boot _ _ rfl (.inl hupd) (by decide) (by decide) (by decide),
      State.get_set_ne _ _ _ _ _ _ (by decide)]
    exact State.get_set_same ..

theorem exec_confirmTimeout_due (hu : s.updState = 5) (ha : s.on .BOOT_H_AWAY = false)
    (ht : s.get .BOOT_H_STARTED + s.get .BOOT_CTRL_CONFIRM_S * 1000000000 ≤ s.elapsed) :
    exec .confirmTimeout s = .next s.rollBack := if_pos (by simpa [hu, ha] using ht)

theorem exec_confirmTimeout_idle (h : ¬ (s.updState = 5 ∧ s.on .BOOT_H_AWAY = false ∧
    s.get .BOOT_H_STARTED + s.get .BOOT_CTRL_CONFIRM_S * 1000000000 ≤ s.elapsed)) :
    exec .confirmTimeout s = .next s := if_neg (by simpa [and_assoc] using h)

end Trial

/-! ### The return of the management complex (R414, R485) -/

section Return
variable {s : State}

theorem State.mgtBack_spec (s : State) {source : Nat} (h : source < 4) :
    (s.mgtBack source).get .BOOT_STATUS_FW_SRC = source ∧ (s.mgtBack source).get .BOOT_H_AWAY = 0 ∧
      (s.mgtBack source).get .BOOT_H_RESTARTING = 0 ∧ (s.mgtBack source).get .BOOT_H_FROMNOR = 0 := by
  unfold State.mgtBack
  extract_lets sets
  have hkept : ∀ (t : State) (f : Fld), f.page = 4 → t.stageRoutes.serveLatch.get f = t.get f := fun t f hf =>
    ((State.serveLatch_upd _ (masks_self _ _) (.refl _)).cells _ _ (by rw [hf]; decide)).trans
      ((State.stageRoutes_upd _ (masks_self _ _) (.refl _)).cells _ _ (by rw [hf]; decide))
  rw [hkept _ _ rfl, hkept _ _ rfl, hkept _ _ rfl, hkept _ _ rfl]
  simp (disch := decide) only [sets, List.foldl_cons, List.foldl_nil, State.get_set_ne, State.get_set_same]
  exact ⟨Nat.mod_eq_of_lt h, Nat.zero_mod _, Nat.zero_mod _, Nat.zero_mod _⟩

theorem exec_mgtRestartDone_idle (ok : Bool) (fw : Sigs) (h : s.on .BOOT_H_RESTARTING = false ∨ s.inTest 18 = true ∨
    s.get .PWR_H_STATE = 1 ∨ s.get .PWR_H_STATE = 2) : exec (.mgtRestartDone ok fw) s = .next s :=
  if_pos (by simpa [or_assoc] using h)

variable (hr : s.on .BOOT_H_RESTARTING = true) (ht : s.inTest 18 = false) (hp : s.get .PWR_H_STATE = 0)
include hr ht hp

/-- Outside sleep and test a restart that runs may end. -/
theorem State.mgtRestart_ends : ¬ (!s.on .BOOT_H_RESTARTING || s.inTest 18 || s.get .PWR_H_STATE = 1 ||
    s.get .PWR_H_STATE = 2) = true := by simp [hr, ht, hp]

section KeptCode
variable (hn : s.on .BOOT_H_FROMNOR = false) (fw : Sigs)
include hn

theorem exec_mgtRestartDone_intact : Completes (.mgtRestartDone true fw) s fun t =>
    t.get .BOOT_STATUS_FW_SRC = 1 ∧ t.get .BOOT_H_AWAY = 0 ∧ t.get .BOOT_H_RESTARTING = 0 := by
  refine ⟨s.mgtBack 1, ?_, ?_⟩
  · rw [exec_mgtRestartDone, execMgtRestartDone, if_neg (State.mgtRestart_ends hr ht hp), if_neg (ne_true_of_eq_false hn), if_pos rfl]
  · obtain ⟨hsrc, haway, hrun, -⟩ := s.mgtBack_spec (source := 1) (by decide)
    exact ⟨hsrc, haway, hrun⟩

theorem exec_mgtRestartDone_damaged {t : State}
    (hl : (s.bootEvent 6 s.activeSlot 0 0xF (s.bootSlot s.activeSlot).seq).reload fw = some t) :
    Completes (.mgtRestartDone false fw) s fun t =>
      t.get .BOOT_STATUS_FW_SRC = 3 ∧ t.get .BOOT_H_AWAY = 0 ∧ t.get .BOOT_H_RESTARTING = 0 := by
  obtain ⟨hsrc, haway, hrun, -⟩ := t.mgtBack_spec (source := 3) (by decide)
  refine ⟨t.mgtBack 3, ?_, hsrc, haway, hrun⟩
  rw [exec_mgtRestartDone, execMgtRestartDone, if_neg (State.mgtRestart_ends hr ht hp), if_neg (ne_true_of_eq_false hn),
    if_neg (by decide)]
  dsimp only
  rw [hl]

theorem exec_mgtRestartDone_lost
    (hl : (s.bootEvent 6 s.activeSlot 0 0xF (s.bootSlot s.activeSlot).seq).reload fw = none) :
    exec (.mgtRestartDone false fw) s = .next (s.bootEvent 6 s.activeSlot 0 0xF (s.bootSlot s.activeSlot).seq) := by
  rw [exec_mgtRestartDone, execMgtRestartDone, if_neg (State.mgtRestart_ends hr ht hp), if_neg (ne_true_of_eq_false hn),
    if_neg (by decide)]
  dsimp only
  rw [hl]

end KeptCode

section FromNor
variable {ok : Bool} {fw : Sigs} (hn : s.on .BOOT_H_FROMNOR = true)
include hn

theorem exec_mgtRestartDone_fromNor {t : State} (hl : s.reload fw = some t) : Completes (.mgtRestartDone ok fw) s fun t =>
    t.get .BOOT_STATUS_FW_SRC = 0 ∧ t.get .BOOT_H_AWAY = 0 ∧ t.get .BOOT_H_FROMNOR = 0 := by
  obtain ⟨hsrc, haway, -, hnor⟩ :=
    (if t.updState = updTrial then t.set .BOOT_H_STARTED 0 t.elapsed else t).mgtBack_spec (source := 0) (by decide)
  refine ⟨_, ?_, hsrc, haway, hnor⟩
  rw [exec_mgtRestartDone, execMgtRestartDone, if_neg (State.mgtRestart_ends hr ht hp), if_pos hn, hl]

theorem exec_mgtRestartDone_unread (hl : s.reload fw = none) :
    exec (.mgtRestartDone ok fw) s = .next (if s.updState = 5 then s.rollBack else s) := by
  rw [exec_mgtRestartDone, execMgtRestartDone, if_neg (State.mgtRestart_ends hr ht hp), if_pos hn, hl]
  by_cases hu : s.updState = 5
  · rw [if_pos hu, if_pos hu]
  · rw [if_neg hu, if_neg hu]

end FromNor
end Return

end Sys2Proof.Machine

open Sys2Proof Sys2Proof.Machine

/-- Settles O31: a trial by its time, a restart by what it keeps and what it finds. -/
theorem trialAndManagementRestartComplete : Obligations.TrialAndManagementRestartComplete := by
  refine ⟨fun _ _ => exec_fwConfirm_answers, fun s => ⟨fun h => ?_, exec_confirmTimeout_idle⟩,
    fun fw s hr ht hp hn => ⟨exec_mgtRestartDone_intact hr ht hp hn fw, ?_⟩, fun ok fw s hr ht hp hn => ?_,
    fun ok fw _ => exec_mgtRestartDone_idle ok fw⟩
  · obtain ⟨hu, ha, ht⟩ := h
    exact ⟨exec_confirmTimeout_due hu ha ht, s.rollBack_spec⟩
  · split
    case h_1 hl => exact exec_mgtRestartDone_damaged hr ht hp hn fw hl
    case h_2 hl => exact exec_mgtRestartDone_lost hr ht hp hn fw hl
  · split
    case h_1 hl => exact exec_mgtRestartDone_fromNor hr ht hp hn hl
    case h_2 hl => exact exec_mgtRestartDone_unread hr ht hp hn hl

end

section
/-! PROOFS. Durable records, self-test commands and the entry to sleep (O26). -/

namespace Sys2Proof.Machine

/-! ### The durable record (17_roles_security_audit.md R429, R432) -/

section Record
variable {s : State}

theorem State.appendRecord_queue (s : State) (r : AuditRec) : (s.appendRecord r).sec.queue = s.sec.queue := by
  have hroom : (s.auditRoom r).sec.queue = s.sec.queue := by
    unfold State.auditRoom
    split
    · rw [State.secEvent_sec]
      rfl
    · rfl
  refine Eq.trans ?_ hroom
  unfold State.appendRecord State.auditRoom
  extract_lets u seq b head due _ v w
  have hw : w.sec.queue = u.sec.queue := by
    unfold w
    split <;> rfl
  exact hw

theorem State.appendRecord_seq (s : State) (r : AuditRec) : (s.appendRecord r).get .SEC_AUDIT_SEQ =
    (s.get .SEC_AUDIT_SEQ + 1) % 2 ^ Fld.SEC_AUDIT_SEQ.width := by
  refine (State.get_set_same ..).trans ?_
  rw [← State.auditRoom_seq s r]
  rfl

theorem exec_auditRecordDurable_appends {q : AuditItem} {rest : List AuditItem} (hc : s.canRecord = true)
    (hq : s.sec.queue = q :: rest) : Completes .auditRecordDurable s fun t => ∃ u : State, u.sec.queue = rest ∧
      (∃ b, u.sec.ring.getLast? = some (s.get .SEC_AUDIT_SEQ + 1, b)) ∧
      u.get .SEC_AUDIT_SEQ = (s.get .SEC_AUDIT_SEQ + 1) % 2 ^ Fld.SEC_AUDIT_SEQ.width ∧
      (q.effect = none → t = u) ∧ ∀ i, q.effect = some i → t = u.applyRecorded i := by
  obtain ⟨hring, -⟩ := State.appendRecord_sec ({ s with sec := { s.sec with queue := rest } } : State) q.record
  refine ⟨s.recordNext, ?_, ({ s with sec := { s.sec with queue := rest } } : State).appendRecord q.record,
    State.appendRecord_queue .., ⟨_, (congrArg List.getLast? hring).trans List.getLast?_concat⟩,
    State.appendRecord_seq .., fun hi => ?_, fun i hi => ?_⟩
  · rw [exec_auditRecordDurable, execAuditRecordDurable, if_pos hc]
  all_goals
    rw [State.recordNext, hq]
    dsimp only
    rw [hi]

theorem exec_auditRecordDurable_idle (h : s.canRecord = false ∨ s.sec.queue = []) :
    exec .auditRecordDurable s = .next s := by
  rw [exec_auditRecordDurable, execAuditRecordDurable]
  rcases h with h | h
  · rw [if_neg (ne_true_of_eq_false h)]
  · rw [State.recordNext, h, ite_self]

end Record

/-! ### Self-test commands (19_self_test.md R467, R474, R476, R477) -/

/-- A new generation of another block than the memory keeps the cells of power, but for the counts of generations and
of stale accesses. -/
theorem State.newGeneration_power (s : State) {b : Nat} (hb : b ≠ 22) {f : Fld} (i : Nat) (hp : f.page = 2)
    (hgen : Fld.MGT_H_GEN.id ≠ f.id) (hstale : Fld.I3C_H_PSTALE.id ≠ f.id) :
    (s.newGeneration b).get f i = s.get f i := by
  unfold State.newGeneration
  extract_lets bumped hit _ late pieces port
  have hlate : late.get f i = s.get f i := State.get_bump_ne _ _ _ _ _ _ hgen
  have hpieces : pieces.get f i = late.get f i := State.foldl_get _ _ _ _ _ fun t h =>
    (State.pieceDone_upd t _ _ _ _ (masks_self _ _) (.refl t)).cells _ _ (by rw [hp]; decide)
  rw [if_neg hb, ← hlate, ← hpieces]
  unfold port
  split
  · exact (State.get_inc_ne _ _ _ _ _ hstale).trans
      ((State.indirectDone_upd _ _ _ (masks_self _ _) (.refl _)).cells _ _ (by rw [hp]; decide))
  · rfl

/-- A restart counts, whatever it drops. -/
theorem State.mgtRestart_count (s : State) (fromNor : Bool) : (s.mgtRestart fromNor).get .PWR_STATUS_MGT_RESTARTS =
    min (s.get .PWR_STATUS_MGT_RESTARTS + 1) (2 ^ Fld.PWR_STATUS_MGT_RESTARTS.width - 1) := by
  unfold State.mgtRestart
  extract_lets u₁ u₂ u₃ upd u₄
  have h₁ : u₁.get .PWR_STATUS_MGT_RESTARTS =
      min (s.get .PWR_STATUS_MGT_RESTARTS + 1) (2 ^ Fld.PWR_STATUS_MGT_RESTARTS.width - 1) :=
    (State.sticky_get _ _ _ _ _ _ _ _ _ _ _ _ _ (by decide) (by decide)).trans (State.get_inc_same ..)
  have h₂ : u₂.get .PWR_STATUS_MGT_RESTARTS = u₁.get .PWR_STATUS_MGT_RESTARTS := by
    unfold u₂
    split
    · exact State.get_set_ne _ _ _ _ _ _ (by decide)
    · rfl
  have h₃ : u₃.get .PWR_STATUS_MGT_RESTARTS = u₂.get .PWR_STATUS_MGT_RESTARTS :=
    ((State.dropLoad_upd _ (masks_self _ _) (.refl _)).cells _ _ (by decide)).trans
      ((State.dropCommands_upd _ (masks_self _ _) (.refl _)).cells _ _ (by decide))
  have h₄ : u₄.get .PWR_STATUS_MGT_RESTARTS = u₃.get .PWR_STATUS_MGT_RESTARTS := by
    unfold u₄
    split
    · exact State.updateFail_get _ _ _ _ _ _ (by decide) (by decide)
    · rfl
  rw [State.newGeneration_power _ (by decide) _ rfl (by decide) (by decide), State.get_set_ne _ _ _ _ _ _ (by decide),
    State.get_set_ne _ _ _ _ _ _ (by decide), h₄, h₃, h₂, h₁]

section Bist
variable {s : State} {src : Src}

theorem State.bistStart_spec {u kinds level : Nat} (hc : s.bistCheck u kinds = .ok) :
    (s.bistStart u kinds level src 0x70).get .BIST_STATUS_STATE = 1 ∧
      (s.bistStart u kinds level src 0x70).get .BIST_STATUS_UNIT = u % 64 ∧
      (s.bistStart u kinds level src 0x70).get .BIST_H_FRUN =
        (s.get .BIST_H_RUN + 1) % 2 ^ Fld.BIST_H_RUN.width % 2 ^ Fld.BIST_H_FRUN.width ∧
      (u = 18 → (s.bistStart u kinds level src 0x70).get .PWR_STATUS_MGT_RESTARTS =
        min (s.get .PWR_STATUS_MGT_RESTARTS + 1) (2 ^ Fld.PWR_STATUS_MGT_RESTARTS.width - 1)) := by
  unfold State.bistStart
  extract_lets st u₁ u₂ u₃ u₄
  rw [if_neg (not_not_intro hc)]
  have hrun : u₁.nextRun.get .BIST_H_RUN = (s.get .BIST_H_RUN + 1) % 2 ^ Fld.BIST_H_RUN.width :=
    (State.get_bump_same ..).trans (by rw [State.get_set_ne _ _ _ _ _ _ (by decide)])
  have h₄ : ∀ f : Fld, f.page ≠ 0 → f.page ≠ 68 → u₄.get f = u₂.get f := fun f h0 h68 => by
    refine (State.answer_get _ _ _ _ _ _ h0 h68).trans ?_
    unfold u₃
    split
    · exact State.emit_get ..
    · rfl
  have hbist : ∀ f : Fld, f.page = 3 → (if u = 18 then u₄.mgtRestart false else u₄).get f = u₂.get f := fun f hf => by
    split
    · exact ((State.mgtRestart_upd _ _ (masks_self _ _) (.refl _)).cells _ _ (by rw [hf]; decide)).trans
        (h₄ f (by rw [hf]; decide) (by rw [hf]; decide))
    · exact h₄ f (by rw [hf]; decide) (by rw [hf]; decide)
  refine ⟨?_, ?_, ?_, fun hu => ?_⟩
  · rw [hbist _ rfl]
    simp (disch := decide) only [u₂, State.bistBegin, List.foldl_cons, List.foldl_nil, State.get_set_ne, State.get_set_same]
    decide
  · rw [hbist _ rfl]
    exact State.get_set_same ..
  · rw [hbist _ rfl, ← hrun]
    simp (disch := decide) only [u₂, State.bistBegin, List.foldl_cons, List.foldl_nil, State.get_set_ne, State.get_set_same]
  · rw [if_pos hu, State.mgtRestart_count, h₄ _ (by decide) (by decide)]
    simp (disch := decide) only [u₂, u₁, State.bistBegin, State.nextRun, List.foldl_cons, List.foldl_nil, State.get_set_ne,
      State.get_bump_ne]

theorem exec_bistRun_recorded {u kinds level : Nat} (hg : s.fwGate src .operator noUnit = .ok)
    (hc : s.bistCheck u kinds = .ok) (hl : level < 4) :
    Recorded (.bistRun u kinds level src) s src 0x70 (s.auditRec src 3 0 0 noValue noValue) fun t =>
      t.get .BIST_STATUS_STATE = 1 ∧ t.get .BIST_STATUS_UNIT = u % 64 ∧
        t.get .BIST_H_FRUN = (s.get .BIST_H_RUN + 1) % 2 ^ Fld.BIST_H_RUN.width % 2 ^ Fld.BIST_H_FRUN.width ∧
        (u = 18 → t.get .PWR_STATUS_MGT_RESTARTS =
          min (s.get .PWR_STATUS_MGT_RESTARTS + 1) (2 ^ Fld.PWR_STATUS_MGT_RESTARTS.width - 1)) := by
  refine .of_exec (eff := effBistRun u kinds level src) ?_ fun hm => ?_
  · simp [execBistRun, hg, hc, Nat.not_le.mpr hl]
  · rw [State.completed_get_mgt hm, State.completed_get_mgt hm, State.completed_get_mgt hm, State.completed_get_mgt hm]
    exact State.bistStart_spec hc

theorem exec_bistStop_recorded (hg : s.fwGate src .operator noUnit = .ok) (hr : s.get .BIST_STATUS_STATE ≠ 0) :
    Recorded (.bistStop src) s src 0x71 (s.auditRec src 3 0 0 noValue noValue) fun t =>
      t.get .BIST_H_STOPPED = 1 ∧ t.get .BIST_STATUS_STATE = 2 := by
  refine .of_exec (eff := effBistStop src) (by simp [execBistStop, hg, hr]) fun hm => ?_
  rw [State.completed_get_mgt hm, State.completed_get_mgt hm, effBistStop, State.bistStop, if_neg hr,
    State.answer_get _ _ _ _ _ _ (by decide) (by decide), State.answer_get _ _ _ _ _ _ (by decide) (by decide)]
  exact ⟨(State.get_set_ne _ _ _ _ _ _ (by decide)).trans (State.get_set_same ..), State.get_set_same ..⟩

theorem exec_bistResult_answers {u : Nat} (hg : s.fwGate src .operator noUnit = .ok) (hu : u < 33) :
    exec (.bistResult u src) s = .next ((s.emit (.reply src 0x72 (s.bistRecord u))).answer src 0x72 .ok) := by
  rw [exec_bistResult, execBistResult, hg]
  exact (if_neg (not_not_intro rfl)).trans (if_neg (Nat.not_le.mpr hu))

theorem exec_bistLog_answers {n : Nat} (hg : s.fwGate src .operator noUnit = .ok) (h1 : 1 ≤ n) (h64 : n ≤ 64) :
    exec (.bistLog n src) s =
      .next ((s.emit (.reply src 0x73 ((List.range n).flatMap s.bistEntry))).answer src 0x73 .ok) := by
  rw [exec_bistLog, execBistLog, hg]
  refine (if_neg (not_not_intro rfl)).trans (if_neg ?_)
  simp only [Bool.or_eq_true, decide_eq_true_eq]
  omega

section Rolling
variable {d : TestData} (hd : d.rolling = true)
include hd

theorem exec_bistTestEnd_rolling (h : s.get .PIPE_ROLL_STATUS_STATE = 2) : exec (.bistTestEnd d) s = .next (s.rollEnd 0 d) :=
  (if_pos hd).trans (if_pos h)

theorem exec_bistTimeout_rolling (h : s.get .PIPE_ROLL_STATUS_STATE = 2)
    (ht : s.get .BIST_H_ROLLT0 + 4600000000 ≤ s.elapsed) : exec (.bistTimeout d) s = .next (s.rollEnd 16 d) :=
  (if_pos hd).trans (if_pos (by simpa [h] using ht))

theorem exec_bistTimeout_rollingEarly (ht : s.elapsed < s.get .BIST_H_ROLLT0 + 4600000000) :
    exec (.bistTimeout d) s = .next s :=
  (if_pos hd).trans (if_neg (by simp [Nat.not_le.mpr ht]))

theorem exec_bistTest_notRolling (h : s.get .PIPE_ROLL_STATUS_STATE ≠ 2) :
    exec (.bistTestEnd d) s = .next s ∧ exec (.bistTimeout d) s = .next s :=
  ⟨(if_pos hd).trans (if_neg h), (if_pos hd).trans (if_neg (by simp [h]))⟩

end Rolling

section Field
variable {d : TestData} (hd : d.rolling = false)
include hd

theorem exec_bistTestEnd_field (h : s.get .BIST_H_UNIT ≠ 63) : exec (.bistTestEnd d) s = .next (s.fieldEnd 0 d) :=
  (if_neg (ne_true_of_eq_false hd)).trans (if_neg h)

theorem exec_bistTimeout_field (h : s.get .BIST_H_UNIT ≠ 63) (ht : s.get .BIST_H_T0 + 4600000000 ≤ s.elapsed) :
    exec (.bistTimeout d) s = .next (s.fieldEnd 16 d) :=
  (if_neg (ne_true_of_eq_false hd)).trans (if_pos (by simpa [h] using ht))

theorem exec_bistTimeout_fieldEarly (ht : s.elapsed < s.get .BIST_H_T0 + 4600000000) : exec (.bistTimeout d) s = .next s :=
  (if_neg (ne_true_of_eq_false hd)).trans (if_neg (by simp [Nat.not_le.mpr ht]))

theorem exec_bistTest_noField (h : s.get .BIST_H_UNIT = 63) :
    exec (.bistTestEnd d) s = .next s ∧ exec (.bistTimeout d) s = .next s :=
  ⟨(if_neg (ne_true_of_eq_false hd)).trans (if_pos h), (if_neg (ne_true_of_eq_false hd)).trans (if_neg (by simp [h]))⟩

end Field

/-! ### The end of the rolling test (R144, R476) -/

/-- With AUTO clear, the state of the rolling test decides what ends. -/
theorem effRollStop_eq (s : State) : effRollStop s =
    if s.get .PIPE_ROLL_STATUS_STATE = 1 then (s.set .PIPE_ROLL_CTRL_AUTO 0 0).rollCancel 4
    else if s.get .PIPE_ROLL_STATUS_STATE = 2 then
      (s.set .PIPE_ROLL_CTRL_AUTO 0 0).drawn.drawn.rollEnd 4 (s.set .PIPE_ROLL_CTRL_AUTO 0 0).stoppedData
    else (s.set .PIPE_ROLL_CTRL_AUTO 0 0).set .PIPE_ROLL_STATUS_STATE 0 0 := by
  rw [effRollStop, State.get_set_ne _ _ _ _ _ _ (by decide)]

theorem effRollStop_idle (h1 : s.get .PIPE_ROLL_STATUS_STATE ≠ 1) (h2 : s.get .PIPE_ROLL_STATUS_STATE ≠ 2) :
    (effRollStop s).get .PIPE_ROLL_STATUS_STATE = 0 ∧ (effRollStop s).get .PIPE_ROLL_CTRL_AUTO = 0 := by
  rw [effRollStop_eq, if_neg h1, if_neg h2]
  exact ⟨State.get_set_same .., (State.get_set_ne _ _ _ _ _ _ (by decide)).trans (State.get_set_same ..)⟩

theorem exec_rollStop_answers (hg : s.gate src .operator noUnit = .ok) :
    exec (.rollStop src) s = .next ((effRollStop s).answer src 0 .ok) := if_neg (not_not_intro hg)

end Bist

/-! ### The entry to SLEEP (20_power_sleep_reset.md R493, R494) -/

section Sleep
variable {s : State} {f r : TestData}

theorem exec_sleepEntered_idle (h : s.get .PWR_H_STATE ≠ 1 ∨ s.on .PWR_H_DRAINED = false ∨ s.pipe.running ≠ []) :
    exec (.sleepEntered f r) s = .next s := if_pos (by simpa [or_assoc] using h)

/-- What SLEEP does not keep is lost: no frame, product or blanket frame is left. -/
theorem State.sleepLoss_empty (s : State) :
    s.sleepLoss.frames = [] ∧ s.sleepLoss.products = [] ∧ s.sleepLoss.blankets = [] := by
  unfold State.sleepLoss
  extract_lets u _ _ _ _ _ v w
  have hw : w.frames = v.frames ∧ w.products = v.products ∧ w.blankets = v.blankets :=
    List.foldlRecOn (motive := fun t : State => t.frames = v.frames ∧ t.products = v.products ∧ t.blankets = v.blankets) _ _
      ⟨rfl, rfl, rfl⟩ fun t ⟨hf, hp, hb⟩ k _ => by
        have hparts := ((State.cmpSettle_upd _ k (by decide)
          (State.laySettle_upd t k (W := 0x11000000000000) (P := 0) (by decide) (.refl t)))).parts
        exact ⟨(hparts.frames (by decide)).trans hf, (hparts.products (by decide)).trans hp,
          (hparts.blankets (by decide)).trans hb⟩
  clear_value w
  exact hw

section Drained
variable (h1 : s.get .PWR_H_STATE = 1) (hd : s.on .PWR_H_DRAINED = true) (hr : s.pipe.running = [])
include h1 hd hr

theorem exec_sleepEntered_loses (h : (s.resetQps.sleepStore f r).get .PWR_H_STATE = 1) :
    Completes (.sleepEntered f r) s fun t => t.frames = [] ∧ t.products = [] ∧ t.blankets = [] := by
  refine ⟨(s.resetQps.sleepStore f r).dropCommands.sleepMemory.sleepLinks.sleepLoss.sleepNow, ?_, ?_⟩
  · rw [exec_sleepEntered, execSleepEntered, if_neg (by simp [h1, hd, hr])]
    exact if_neg (not_not_intro h)
  · obtain ⟨hf, hp, hb⟩ := (s.resetQps.sleepStore f r).dropCommands.sleepMemory.sleepLinks.sleepLoss_empty
    have hparts := (State.sleepNow_upd (s.resetQps.sleepStore f r).dropCommands.sleepMemory.sleepLinks.sleepLoss
      (masks_self _ _) (.refl _)).parts
    exact ⟨(hparts.frames (by decide)).trans hf, (hparts.products (by decide)).trans hp,
      (hparts.blankets (by decide)).trans hb⟩

theorem exec_sleepEntered_ends (h : (s.resetQps.sleepStore f r).get .PWR_H_STATE ≠ 1) :
    exec (.sleepEntered f r) s = .next (s.resetQps.sleepStore f r) := by
  rw [exec_sleepEntered, execSleepEntered, if_neg (by simp [h1, hd, hr])]
  exact if_pos h

end Drained
end Sleep

end Sys2Proof.Machine

open Sys2Proof Sys2Proof.Machine

/-- Settles O26: a durable record by the queue, a test by its kind and its time, the entry to sleep by what it keeps. -/
theorem auditAndTestCommandsComplete : Obligations.AuditAndTestCommandsComplete :=
  ⟨fun _ _ _ => ⟨exec_auditRecordDurable_appends, exec_auditRecordDurable_idle⟩,
    fun _ _ _ _ _ => exec_bistRun_recorded, fun _ _ => exec_bistStop_recorded,
    fun _ _ _ _ hg => ⟨exec_bistResult_answers hg, exec_bistLog_answers hg⟩,
    fun _ _ => ⟨fun hd => ⟨fun h => ⟨exec_bistTestEnd_rolling hd h, exec_bistTimeout_rolling hd h,
        exec_bistTimeout_rollingEarly hd⟩, exec_bistTest_notRolling hd⟩,
      fun hd => ⟨fun h => ⟨exec_bistTestEnd_field hd h, exec_bistTimeout_field hd h, exec_bistTimeout_fieldEarly hd⟩,
        exec_bistTest_noField hd⟩⟩,
    fun _ s hg => ⟨exec_rollStop_answers hg, fun h => by rw [effRollStop_eq, if_neg (by omega), if_pos h],
      fun h => (effRollStop_eq s).trans (if_pos h), effRollStop_idle⟩,
    fun _ _ _ => ⟨exec_sleepEntered_idle, fun h1 hd hr =>
      ⟨exec_sleepEntered_loses h1 hd hr, exec_sleepEntered_ends h1 hd hr⟩⟩⟩

end

section
/-! PROOFS. Login, lockout and the end of sessions (O37). -/

namespace Sys2Proof.Machine

/-! ### Login (17_roles_security_audit.md R421 to R424) -/

section Login
variable {s u : State} {src : Src} {r k m : Nat} {l : List Nat} {g : Sigs}

theorem exec_loginBegin_answers (hg : s.loginGate src = .ok) (hl : s.lockedKey (roleOfCode r) k = false) :
    Answers (.loginBegin r k m src) s src 0x01 .ok fun t =>
      t.sec.nonces.getLast? = some ⟨s.free % 2 ^ 256, roleOfCode r, k, m, s.elapsed⟩ ∧ t.fresh = s.fresh + 1 ∧
        (s.sec.nonces.length ≤ 4 → t.sec.nonces.length ≤ 4) := by
  refine ⟨_, (if_neg (not_not_intro hg)).trans (if_neg (ne_true_of_eq_false hl)), List.getLast?_concat, rfl, fun h => ?_⟩
  refine (List.length_append ..).trans_le ?_
  split
  · exact Nat.succ_le_of_lt ‹_›
  · rw [List.length_drop, List.length_singleton]
    omega

section Formed
variable (hg : s.loginGate src = .ok) (hf : loginFormed l = true)
  (hu : u = { s with sec := { s.sec with nonces := s.sec.nonces.filter fun n => n.value != loginNonce l } })
include hg hf hu

theorem exec_loginFinish_passed (hc : s.loginCheck l g = .ok) : exec (.loginFinish l g src) s =
    .next (u.recorded src 0x02 (.loginFinish l g src)
      (loginRec 4 u.newSession (roleOfCode (l.getD 44 0)) (l.getD 44 0) (l.getD 45 0)) (effLoginFinish l src)) := by
  subst hu
  rw [exec_loginFinish, execLoginFinish, if_neg (not_not_intro hg), if_neg (by simp [hf])]
  exact if_neg (not_not_intro hc)

theorem exec_loginFinish_opens (hc : s.loginCheck l g = .ok) (hm : src.ini = .mgt)
    (ht : s.on .SEC_STATUS_TEST_UNLOCKED = false) (hn : s.sec.sessions.length < 16) :
    Completes (.loginFinish l g src) s fun t => ∃ x, t.sec.sessions = s.sec.sessions ++ [x] ∧ x.num = u.newSession ∧
      x.role = roleOfCode (l.getD 44 0) ∧ t.sec.nonces = u.sec.nonces := by
  have hsessions : u.sec.sessions = s.sec.sessions := by rw [hu]
  have hlocked : u.on .SEC_STATUS_TEST_UNLOCKED = false := by rw [hu]; exact ht
  obtain ⟨o, ho⟩ := State.completed_mgt hm u 0x02 (effLoginFinish l src)
  refine ⟨_, exec_loginFinish_passed hg hf hu hc, ?_⟩
  rw [State.recorded, if_pos (State.roleOf_mgt hm), ho, effLoginFinish, if_neg (ne_true_of_eq_false hlocked),
    if_neg (by rw [hsessions]; omega), ← hsessions]
  exact ⟨_, rfl, rfl, rfl, rfl⟩

theorem exec_loginFinish_fails (hc : s.loginCheck l g ≠ .ok) : exec (.loginFinish l g src) s =
    .next ((u.loginFails l).answer src 0x02 (s.loginCheck l g)) := by
  subst hu
  rw [exec_loginFinish, execLoginFinish, if_neg (not_not_intro hg), if_neg (by simp [hf])]
  exact if_pos hc

end Formed

/-- A failed login is counted for its role and key, at its time. -/
theorem State.loginFails_failures (u : State) (l : List Nat) : (u.loginFails l).sec.failures = u.sec.failures ++
    [(roleOfCode (l.getD 44 0), l.getD 45 0, (u.note ⟨.mgt, 0⟩ (loginRec 5 0 .none (l.getD 44 0) (l.getD 45 0))).elapsed)] := by
  unfold State.loginFails
  extract_lets role key u₁ _ u₂ u₃
  have hnote : (u.note ⟨.mgt, 0⟩ (loginRec 5 0 .none (l.getD 44 0) key)).sec.failures = u.sec.failures := by
    rw [State.note]
    split <;> rfl
  have htime : u₁.elapsed = (u.note ⟨.mgt, 0⟩ (loginRec 5 0 .none (l.getD 44 0) key)).elapsed := by
    rw [State.elapsed, State.get_inc_ne _ _ _ _ _ (by decide)]
    rfl
  have h₂ : u₂.sec.failures = u.sec.failures ++ [(role, key, u₁.elapsed)] := congrArg (· ++ [(role, key, u₁.elapsed)]) hnote
  have h₃ : u₃.sec.failures = u₂.sec.failures := congrArg SecS.failures (State.secEvent_sec ..)
  rw [← htime, ← h₂, ← h₃]
  split
  · rw [State.secEvent_sec]
  · rfl

end Login

/-! ### The end of a session (R425) -/

section Session
variable {s : State} {src : Src} {n : Nat} {x : Session}

theorem State.endSession_gone (s : State) (n : Nat) : ∀ y ∈ (s.endSession n).sec.sessions, y.num ≠ n := by
  unfold State.endSession
  extract_lets u _ _ v
  have hv : ∀ y ∈ v.sec.sessions, y.num ≠ n := fun y hy => by simpa using (List.mem_filter.mp hy).2
  split
  · exact hv
  · exact hv

theorem exec_logout_ends (hn : src.session = n) (hg : s.fwGate src .operator 19 = .ok) (hs : s.session n = some x) :
    exec (.logout src) s = .next (s.recorded src 0x03 (.logout src) (sessionEndRec x) (effLogout src)) ∧
      ∀ y ∈ (effLogout src s).sec.sessions, y.num ≠ n := by
  subst hn
  refine ⟨?_, State.endSession_gone _ _⟩
  rw [exec_logout, execLogout, if_neg (not_not_intro hg), hs]

theorem exec_sessionIdleTimeout_ends (hs : s.session n = some x)
    (ht : x.seen + s.get .SEC_CFG_SESSION_IDLE_S * secNs ≤ s.elapsed) (hb : s.sessionBusy n = false) :
    Completes (.sessionIdleTimeout n) s fun t => ∀ y ∈ t.sec.sessions, y.num ≠ n := by
  refine ⟨_, ?_, State.endSession_gone (s.note ⟨.mgt, 0⟩ (sessionEndRec x)) n⟩
  rw [exec_sessionIdleTimeout, execSessionIdleTimeout, hs]
  exact if_pos (by simpa [hb] using ht)

theorem exec_sessionIdleTimeout_stays (hs : s.session n = some x)
    (h : s.elapsed < x.seen + s.get .SEC_CFG_SESSION_IDLE_S * secNs ∨ s.sessionBusy n = true) :
    exec (.sessionIdleTimeout n) s = .next s := by
  rw [exec_sessionIdleTimeout, execSessionIdleTimeout, hs]
  refine if_neg fun hb => ?_
  simp only [Bool.and_eq_true, decide_eq_true_eq, Bool.not_eq_true'] at hb
  rcases h with h | h
  · exact absurd hb.1 (Nat.not_le.mpr h)
  · exact absurd (hb.2.symm.trans h) (by decide)

theorem exec_sessionIdleTimeout_unknown (hs : s.session n = none) : exec (.sessionIdleTimeout n) s = .next s := by
  rw [exec_sessionIdleTimeout, execSessionIdleTimeout, hs]

end Session

/-! ### Lockout (R424) -/

section Lockout
variable {s : State} {r k : Nat}

theorem exec_lockoutExpiry_forgets (h : s.lockedKey (roleOfCode r) k = false) : Completes (.lockoutExpiry r k) s fun t =>
    ∀ f, f ∈ t.sec.failures ↔
      f ∈ s.sec.failures ∧ ¬ (f.1 = roleOfCode r ∧ f.2.1 = k ∧ f.2.2 + 60 * secNs ≤ s.elapsed) := by
  refine ⟨_, if_neg (ne_true_of_eq_false h), fun f => List.mem_filter.trans (and_congr_right fun _ => ?_)⟩
  rw [Bool.not_eq_true', ← Bool.not_eq_true]
  simp only [Bool.and_eq_true, beq_iff_eq, decide_eq_true_eq, and_assoc]

theorem exec_lockoutExpiry_locked (h : s.lockedKey (roleOfCode r) k = true) : exec (.lockoutExpiry r k) s = .next s :=
  if_pos h

end Lockout

end Sys2Proof.Machine

open Sys2Proof Sys2Proof.Machine

/-- Settles O37: a login by its checks, a session by its requests, a key by its failures. -/
theorem sessionCommandsComplete : Obligations.SessionCommandsComplete :=
  ⟨fun _ _ _ _ _ => exec_loginBegin_answers,
    fun _ _ _ _ _ hg hf hc hu => ⟨exec_loginFinish_passed hg hf hu hc, exec_loginFinish_opens hg hf hu hc⟩,
    fun l _ _ _ u hg hf hc hu => ⟨exec_loginFinish_fails hg hf hu hc, (u.loginFails_failures l).trans (by rw [hu])⟩,
    fun _ _ _ _ => ⟨exec_logout_ends, exec_sessionIdleTimeout_ends, exec_sessionIdleTimeout_stays,
      exec_sessionIdleTimeout_unknown⟩,
    fun _ _ _ => ⟨exec_lockoutExpiry_forgets, exec_lockoutExpiry_locked⟩⟩

end

section
/-! PROOFS. Attestation, the audit log's commands, fuses, test unlock and decommission (O38). -/

namespace Sys2Proof.Machine

/-! ### Keys, reports and signed heads (17_roles_security_audit.md R426 to R428, R433) -/

section Attest
variable {s : State} {src : Src}

theorem exec_attestKeysReady_locked (ms : Nat) (h : s.on .SEC_STATUS_TEST_UNLOCKED = true) :
    exec (.attestKeysReady ms) s = .next s := if_pos h

theorem exec_attestKeysReady_ready (ms : Nat) (h : s.on .SEC_STATUS_TEST_UNLOCKED = false) :
    Completes (.attestKeysReady ms) s fun t => t.get .SEC_STATUS_ATTEST_READY = 1 := by
  refine ⟨_, if_neg (ne_true_of_eq_false h), ?_⟩
  refine (State.foldl_get _ _ _ _ _ fun t i => State.get_set_ne _ _ _ _ _ _ (by decide)).trans ?_
  exact (State.get_set_ne _ _ _ _ _ _ (by decide)).trans (State.get_set_same ..)

theorem exec_rngFail_marks (s : State) : Completes .rngFail s fun t => t.get .SEC_H_RNG_BAD = 1 :=
  ⟨_, rfl, (State.secEvent_get _ _ _ _ _ _ _ (by decide) (by decide)).trans (State.get_set_same ..)⟩

theorem exec_attest_reports {n : List Nat} {kf : Bool} (hg : s.signGate src .none = .ok) (hn : n.length = 32) :
    exec (.attest n kf src) s = .next ((s.signBlock.1.emit
      (.reply src 0x04 (s.report n ++ s.signBlock.2 ++ if kf then attestKeys else []))).answer src 0x04 .ok) := by
  rw [exec_attest, execAttest, hg]
  exact (if_neg (not_not_intro rfl)).trans (if_neg (not_not_intro hn))

theorem exec_auditSign_answers (hg : s.signGate src .operator = .ok) : exec (.auditSign src) s =
    .next ((s.signBlock.1.emit (.reply src 0x41 (s.headBody (s.get .SEC_AUDIT_SEQ) s.sec.head ++ s.signBlock.2))).answer
      src 0x41 .ok) := if_neg (not_not_intro hg)

theorem exec_auditRead_exports {a c st ad : Nat} (hg : s.fwGate src .operator 19 = .ok)
    (ha : (s.sec.ring.any fun e => decide (a ≤ e.1) && decide (e.1 < a + c)) = true) :
    exec (.auditRead a c st ad src) s = .next (s.exportTo src 0x40 st ad
      ((List.range c).flatMap fun i => (s.auditEntry (a + i)).getD (absentEntry (a + i)))) := by
  rw [exec_auditRead, execAuditRead, hg, ha]
  exact (if_neg (not_not_intro rfl)).trans (if_neg (by decide))

theorem exec_headSignDone_signs {d : Nat × List Nat} {rest : List (Nat × List Nat)} (hd : s.sec.headsDue = d :: rest)
    (hr : s.on .SEC_STATUS_ATTEST_READY = true) (ht : s.on .SEC_STATUS_TEST_UNLOCKED = false)
    (hb : s.on .SEC_H_RNG_BAD = false) : Completes .headSignDone s fun t => t.sec.headsDue = rest ∧
      t.sec.signed = s.sec.signed ++ [(d.1, s.headBody d.1 d.2 ++ s.signBlock.2)] ∧
      t.get .SEC_AUDIT_SIGNED = d.1 % 2 ^ Fld.SEC_AUDIT_SIGNED.width := by
  unfold Completes
  rw [exec_headSignDone, execHeadSignDone, hd]
  dsimp only
  rw [if_neg (by simp [hr, ht, hb])]
  refine ⟨_, rfl, congrArg SecS.headsDue (State.secEvent_sec ..), congrArg SecS.signed (State.secEvent_sec ..), ?_⟩
  exact (State.secEvent_get _ _ _ _ _ _ _ (by decide) (by decide)).trans (State.get_set_same ..)

theorem exec_headSignDone_idle (h : s.sec.headsDue = [] ∨ ¬ (s.on .SEC_STATUS_ATTEST_READY = true ∧
    s.on .SEC_STATUS_TEST_UNLOCKED = false ∧ s.on .SEC_H_RNG_BAD = false)) : exec .headSignDone s = .next s := by
  rw [exec_headSignDone, execHeadSignDone]
  cases hd : s.sec.headsDue with
  | nil => rfl
  | cons d rest =>
    refine if_pos (by_contra fun hn => ?_)
    rcases h with h | h
    · exact absurd (hd.symm.trans h) (List.cons_ne_nil _ _)
    · exact h (by simpa [and_assoc] using hn)

end Attest

/-! ### The release of records (R434) -/

section Release
variable {s : State} {src : Src} {a n : Nat}

/-- The oldest groups, one after another. -/
def State.dropGroups (s : State) (n : Nat) : State := (List.range n).foldl (fun s _ => s.dropGroup) s

theorem State.dropGroups_succ (s : State) (n : Nat) : s.dropGroups (n + 1) = (s.dropGroups n).dropGroup := by
  rw [State.dropGroups, State.dropGroups, List.range_succ, List.foldl_append]
  rfl

theorem State.dropGroup_oldest (s : State) : s.dropGroup.get .SEC_AUDIT_OLDEST =
    (s.get .SEC_AUDIT_OLDEST + 4096) % 2 ^ Fld.SEC_AUDIT_OLDEST.width := State.get_set_same ..

/-- A group that is dropped leaves only records from the new oldest on. -/
theorem State.dropGroup_ring (s : State) : ∀ e ∈ s.dropGroup.sec.ring,
    e ∈ s.sec.ring ∧ s.dropGroup.get .SEC_AUDIT_OLDEST ≤ e.1 := fun e he => by
  obtain ⟨hmem, hle⟩ := List.mem_filter.mp he
  refine ⟨hmem, ?_⟩
  rw [State.dropGroup_oldest]
  exact (Nat.mod_le _ _).trans (of_decide_eq_true hle)

theorem State.dropGroups_subset (s : State) (n : Nat) : ∀ e ∈ (s.dropGroups n).sec.ring, e ∈ s.sec.ring := by
  induction n with
  | zero => exact fun e he => he
  | succ n ih =>
    rw [State.dropGroups_succ]
    exact fun e he => ih e ((s.dropGroups n).dropGroup_ring e he).1

theorem State.dropGroups_oldest (s : State) (n : Nat) : (s.dropGroups (n + 1)).get .SEC_AUDIT_OLDEST =
    (s.get .SEC_AUDIT_OLDEST + 4096 * (n + 1)) % 2 ^ Fld.SEC_AUDIT_OLDEST.width := by
  induction n with
  | zero => exact s.dropGroup_oldest
  | succ n ih => rw [State.dropGroups_succ, State.dropGroup_oldest, ih, Nat.mod_add_mod, Nat.mul_succ 4096 (n + 1), Nat.add_assoc]

/-- Whole groups that are released: the oldest record kept is past them, and none before it is kept. -/
theorem State.dropGroups_spec (s : State) {n : Nat} (hn : n ≠ 0) :
    (s.dropGroups n).get .SEC_AUDIT_OLDEST = (s.get .SEC_AUDIT_OLDEST + 4096 * n) % 2 ^ Fld.SEC_AUDIT_OLDEST.width ∧
      ∀ e ∈ (s.dropGroups n).sec.ring, e ∈ s.sec.ring ∧ (s.dropGroups n).get .SEC_AUDIT_OLDEST ≤ e.1 := by
  obtain ⟨k, rfl⟩ := Nat.exists_eq_succ_of_ne_zero hn
  refine ⟨s.dropGroups_oldest k, fun e he => ⟨s.dropGroups_subset _ e he, ?_⟩⟩
  rw [State.dropGroups_succ] at he ⊢
  exact ((s.dropGroups k).dropGroup_ring e he).2

theorem State.releaseCheck_groups (h : s.releaseCheck a n = .ok) : n ≠ 0 := by
  rintro rfl
  rw [State.releaseCheck] at h
  split at h
  · exact absurd h (by decide)
  · rw [if_pos (by simp)] at h
    exact absurd h (by decide)

theorem effAuditRelease_drops (h : s.releaseCheck a n = .ok) : effAuditRelease a n src s = s.dropGroups n :=
  if_neg (not_not_intro h)

theorem exec_auditRelease_recorded (hg : s.fwGate src .maker 19 = .ok) (hc : s.releaseCheck a n = .ok)
    (hr : s.ringHeld = false) :
    Recorded (.auditRelease a n src) s src 0x42 (s.auditRec src 3 0 (a % 2 ^ 32) noValue noValue) fun t =>
      t.get .SEC_AUDIT_OLDEST = (s.get .SEC_AUDIT_OLDEST + 4096 * n) % 2 ^ Fld.SEC_AUDIT_OLDEST.width ∧
        ∀ e ∈ t.sec.ring, e ∈ s.sec.ring ∧ t.get .SEC_AUDIT_OLDEST ≤ e.1 := by
  refine .of_exec (eff := effAuditRelease a n src) (by simp [execAuditRelease, hg, hc, hr]) fun hm => ?_
  obtain ⟨l, hl⟩ := State.completed_mgt hm s 0x42 (effAuditRelease a n src)
  rw [State.completed_get_mgt hm, hl, effAuditRelease_drops hc]
  exact s.dropGroups_spec (State.releaseCheck_groups hc)

theorem exec_auditRelease_held (hg : s.fwGate src .maker 19 = .ok) (hc : s.releaseCheck a n = .ok)
    (hr : s.ringHeld = true) : exec (.auditRelease a n src) s =
      .next ((s.completed src 0x42 (effAuditRelease a n src)).note src
        (s.auditRec src 3 0 (a % 2 ^ 32) noValue noValue)) := by
  rw [exec_auditRelease, execAuditRelease, if_neg (not_not_intro hg), if_neg (not_not_intro hc), if_pos hr]

end Release

/-! ### Fuses (R419, R420) -/

section Fuse
variable {s : State} {src : Src} {f v : Nat}

theorem State.fuseCheck_bits (h : s.fuseCheck f v = .ok) :
    f < 16 ∧ v < 2 ^ (s.fuse f).2 ∧ (s.fuse f).1 &&& v = (s.fuse f).1 := by
  by_cases hf : 16 ≤ f
  · rw [State.fuseCheck, if_pos hf] at h
    exact absurd h (by decide)
  · rw [State.fuseCheck, if_neg hf] at h
    by_cases hv : (decide (2 ^ (s.fuse f).2 ≤ v) || decide ((s.fuse f).1 &&& v ≠ (s.fuse f).1)) = true
    · exact absurd ((if_pos hv).symm.trans h) (by decide)
    · simp only [Bool.or_eq_true, decide_eq_true_eq, not_or, not_le, not_not] at hv
      exact ⟨not_le.mp hf, hv⟩

/-- A fuse of one bit that is written with a value it may take reads that value. -/
theorem bitFuse_written (g : Fld) {k : Nat} (hk : k < g.width) (hv : v < 2) (hb : (s.bit g 0 k).toNat &&& v = (s.bit g 0 k).toNat) :
    ((if v = 1 then s.setBit g 0 k else s).bit g 0 k).toNat = v := by
  obtain rfl | rfl : v = 0 ∨ v = 1 := by omega
  · rw [if_neg (by decide)]
    exact hb.symm.trans (Nat.and_zero _)
  · rw [if_pos rfl, State.bit_setBit_same _ _ _ _ hk]
    rfl

theorem State.putFuse_maker (s : State) (v : Nat) (hf : f < 4) :
    (s.putFuse f v).sec.makerHash = s.sec.makerHash.set f v := congrArg (fun t : State => t.sec.makerHash) (if_pos hf)

/-- A fuse of a register, written with a value that its checks allow, reads it. -/
theorem State.fuse_putFuse (hf : ¬ f < 4) (hc : s.fuseCheck f v = .ok) : ((s.putFuse f v).fuse f).1 = v := by
  obtain ⟨h16, hv, hb⟩ := State.fuseCheck_bits hc
  by_cases h8 : f < 8
  · rw [State.fuse, if_neg hf, if_pos h8] at hv hb
    rw [State.fuse, if_neg hf, if_pos h8, State.putFuse, if_neg hf, if_pos h8]
    exact bitFuse_written _ (show f - 4 < 4 by omega) hv hb
  by_cases h12 : f < 12
  · rw [State.fuse, if_neg hf, if_neg h8, if_pos h12] at hv hb
    rw [State.fuse, if_neg hf, if_neg h8, if_pos h12, State.putFuse, if_neg hf, if_neg h8, if_pos h12]
    exact bitFuse_written _ (show f - 8 < 4 by omega) hv hb
  obtain rfl | rfl | rfl | rfl : f = 12 ∨ f = 13 ∨ f = 14 ∨ f = 15 := by omega
  all_goals exact (State.get_set_same ..).trans (Nat.mod_eq_of_lt hv)

theorem effFuseProgram_writes (hc : s.fuseCheck f v = .ok) : effFuseProgram f v src s = s.putFuse f v :=
  if_neg (not_not_intro hc)

theorem exec_fuseProgram_recorded (hg : s.fwGate src .maker 19 = .ok) (hc : s.fuseCheck f v = .ok) :
    Recorded (.fuseProgram f v src) s src 0x60
      (s.auditRec src 8 6 f (fuseDigest (s.fuse f)) (fuseDigest (v, (s.fuse f).2))) fun t =>
        if f < 4 then t.sec.makerHash = s.sec.makerHash.set f v else (t.fuse f).1 = v := by
  refine .of_exec (eff := effFuseProgram f v src) (by simp [execFuseProgram, hg, hc]) fun hm => ?_
  obtain ⟨l, hl⟩ := State.completed_mgt hm s 0x60 (effFuseProgram f v src)
  rw [hl, effFuseProgram_writes hc]
  split
  case isTrue hf => exact s.putFuse_maker v hf
  case isFalse hf => exact State.fuse_putFuse hf hc

end Fuse

/-! ### Test unlock and decommission (R435, R436) -/

section Unlock
variable {s : State} {src : Src} (hg : s.fwGate src .maker 19 = .ok) (hj : s.jobsIdle = true)
include hg hj

theorem exec_testUnlock_recorded (hf : s.on .SEC_FUSE_STATE_SCAN_OFF = false) :
    Recorded (.testUnlock src) s src 0x61 (s.auditRec src 9 0 0 noValue noValue) fun t =>
      t.get .SEC_STATUS_TEST_UNLOCKED = 1 ∧ t.sec.keys = [] := by
  refine .of_exec (eff := effTestUnlock src) (by simp [execTestUnlock, hg, hj, hf]) fun hm => ?_
  obtain ⟨l, hl⟩ := State.completed_mgt hm s 0x61 (effTestUnlock src)
  rw [State.completed_get_mgt hm, hl, effTestUnlock, if_neg (ne_true_of_eq_false hf), if_neg (by simp [hj])]
  exact ⟨(State.secEvent_get _ _ _ _ _ _ _ (by decide) (by decide)).trans (State.get_set_same ..),
    congrArg SecS.keys (State.secEvent_sec ..)⟩

theorem exec_decommission_recorded : Recorded (.decommission (s.get .SEC_FUSE_UID) src) s src 0x62
    (s.auditRec src 10 0 0 noValue noValue) fun t => t.get .PWR_STATUS_RESET_CAUSE = 4 := by
  refine .of_exec (eff := effDecommission src) (by simp [execDecommission, hg, hj]) fun hm => ?_
  rw [State.completed_get_mgt hm, effDecommission, if_neg (by simp [hj])]
  exact State.wipe_cause _

end Unlock

end Sys2Proof.Machine

open Sys2Proof Sys2Proof.Machine

/-- Settles O38: what each command leaves, the release of records by induction on the groups. -/
theorem attestationAndFuseCommandsComplete : Obligations.AttestationAndFuseCommandsComplete :=
  ⟨fun ms s => ⟨exec_attestKeysReady_locked ms, exec_attestKeysReady_ready ms, exec_rngFail_marks s⟩,
    fun _ _ _ _ _ _ _ _ => ⟨exec_attest_reports, exec_auditSign_answers, exec_auditRead_exports⟩,
    fun _ => ⟨fun _ _ hd ⟨hr, ht, hb⟩ => exec_headSignDone_signs hd hr ht hb, exec_headSignDone_idle⟩,
    fun _ _ _ _ => exec_auditRelease_recorded, fun _ _ _ _ => exec_auditRelease_held,
    fun _ _ _ _ => exec_fuseProgram_recorded,
    fun _ _ hg hj => ⟨exec_testUnlock_recorded hg hj, exec_decommission_recorded hg hj⟩⟩

end

section
/-! PROOFS. Power, reset, restart of the management complex and temperature (O35). -/

namespace Sys2Proof.Machine

/-! ### What a reset leaves (20_power_sleep_reset.md R481, R482) -/

section Reset
variable (s : State)

theorem State.pwrEvent_get (k inst src16 secs : Nat) (f : Fld) (i : Nat) (h : f.page ≠ 0) (he : Fld.PWR_EVENTS_EV.id ≠ f.id) :
    (s.pwrEvent k inst src16 secs).get f i = s.get f i :=
  State.sticky_get _ _ _ _ _ _ _ _ _ _ _ _ _ h he

/-- LPDDR5X keeps its bytes over a reset, and nothing else in memory is kept. -/
theorem State.clearDevice_mem : s.clearDevice.mem = s.mem.filter fun c => dramBase ≤ c.1 && c.1 < 2 * dramBase := by
  unfold State.clearDevice
  extract_lets ids cells _ _ _ _ _ t u v
  have hv : v.mem = s.mem.filter fun c => dramBase ≤ c.1 && c.1 < 2 * dramBase := rfl
  split
  · exact hv
  · exact hv

theorem State.deviceReset_mem (cause : Nat) :
    (s.deviceReset cause).mem = s.mem.filter fun c => dramBase ≤ c.1 && c.1 < 2 * dramBase := by
  rw [State.deviceReset, (State.powerOnTest_upd _ (W := 2 ^ 128 - 1) (P := 0x120000) (by decide) (.refl _)).parts.mem
    (by decide), State.set_mem, State.clearDevice_mem]

theorem State.deviceReset_cause {cause : Nat} (h : cause < 2 ^ Fld.PWR_STATUS_RESET_CAUSE.width) :
    (s.deviceReset cause).get .PWR_STATUS_RESET_CAUSE = cause := by
  rw [State.deviceReset, State.powerOnTest_get _ _ _ (by decide)]
  exact (State.get_set_same ..).trans (Nat.mod_eq_of_lt h)

variable (bad : List BadBit)

theorem State.resetFrom_mem (cause : Nat) :
    (s.resetFrom cause bad).mem = s.mem.filter fun c => dramBase ≤ c.1 && c.1 < 2 * dramBase := by
  unfold State.resetFrom
  extract_lets trip _ u v
  have hv : v.mem = s.mem.filter fun c => dramBase ≤ c.1 && c.1 < 2 * dramBase := State.deviceReset_mem ..
  split
  · exact ((State.pwrEvent_upd _ _ _ _ _ (masks_self _ _) (.refl _)).parts.mem (by decide)).trans hv
  · exact hv

theorem State.resetFrom_cause {cause : Nat} (ht : s.on .PWR_H_TRIP = false)
    (h : cause < 2 ^ Fld.PWR_STATUS_RESET_CAUSE.width) :
    (s.resetFrom cause bad).get .PWR_STATUS_RESET_CAUSE = cause := by
  rw [State.resetFrom, ht]
  exact State.deviceReset_cause _ h

/-- The reset of a device that had tripped says so, and ends the trip. -/
theorem State.resetFrom_trip (cause : Nat) (ht : s.on .PWR_H_TRIP = true) :
    (s.resetFrom cause bad).get .PWR_STATUS_RESET_CAUSE = 6 ∧ (s.resetFrom cause bad).get .PWR_H_TRIP = 0 := by
  rw [State.resetFrom, ht]
  refine ⟨(State.pwrEvent_get _ _ _ _ _ _ _ (by decide) (by decide)).trans ?_,
    (State.pwrEvent_get _ _ _ _ _ _ _ (by decide) (by decide)).trans (State.get_set_same ..)⟩
  exact (State.get_set_ne _ _ _ _ _ _ (by decide)).trans (State.deviceReset_cause _ (cause := 6) (by decide))

end Reset

/-! ### Power and the reset pin (R481, R484, R500) -/

section Power
variable {s : State} {bad : List BadBit} {mx v : Nat}

/-- The device with power, and the temperature that it measures first. -/
def State.powered (s : State) (mx : Nat) : State :=
  (((s.set .PWR_AVS_CODE 0 16).emit (.pin "AVS_VID" 0 16)).set .PWR_THERM_STATUS_MAX 0 mx).set .PWR_H_OFF 0 0

theorem State.powered_trip (s : State) (mx : Nat) : (s.powered mx).on .PWR_H_TRIP = s.on .PWR_H_TRIP := by
  rw [State.on, State.powered, State.get_set_ne _ _ _ _ _ _ (by decide), State.get_set_ne _ _ _ _ _ _ (by decide),
    State.emit_get, State.get_set_ne _ _ _ _ _ _ (by decide), State.on]

theorem State.powered_maxTemp (s : State) (mx : Nat) :
    (s.powered mx).maxTemp = toSigned 8 (mx % 2 ^ Fld.PWR_THERM_STATUS_MAX.width) :=
  congrArg (toSigned 8 ·) ((State.get_set_ne _ _ _ _ _ _ (by decide)).trans (State.get_set_same ..))

/-- The state in which the reset of a device that gets power begins. -/
def State.coldStart (s : State) (mx : Nat) : State :=
  ((s.powered mx).set .PWR_SLEEP_COUNT 0 0).set .SEC_STATUS_TEST_SINCE_POWER 0 0

theorem State.coldStart_trip (s : State) (mx : Nat) : (s.coldStart mx).on .PWR_H_TRIP = s.on .PWR_H_TRIP := by
  rw [State.on, State.coldStart, State.get_set_ne _ _ _ _ _ _ (by decide), State.get_set_ne _ _ _ _ _ _ (by decide)]
  exact s.powered_trip mx

theorem exec_powerOn_held (ht : s.on .PWR_H_TRIP = true) (h : 95 < toSigned 8 (mx % 2 ^ Fld.PWR_THERM_STATUS_MAX.width)) :
    Completes (.powerOn bad mx v) s fun t => t.get .PWR_H_HELD = 1 ∧ t.get .PWR_H_OFF = 0 := by
  refine ⟨((s.powered mx).set .PWR_H_HELD 0 1).notify, if_pos ?_, ?_, ?_⟩
  · exact Bool.and_eq_true_iff.mpr ⟨(s.powered_trip mx).trans ht, decide_eq_true (s.powered_maxTemp mx ▸ h)⟩
  · exact (State.notify_get _ _ _ (by decide)).trans (State.get_set_same ..)
  · exact (State.notify_get _ _ _ (by decide)).trans ((State.get_set_ne _ _ _ _ _ _ (by decide)).trans
      (State.get_set_same ..))

theorem exec_powerOn_resets (h : ¬ (s.on .PWR_H_TRIP = true ∧ 95 < toSigned 8 (mx % 2 ^ Fld.PWR_THERM_STATUS_MAX.width))) :
    exec (.powerOn bad mx v) s = .next ((((s.coldStart mx).resetFrom 0 bad).set .PWR_AVS_CODE 0 (min v 16)).emit
      (.pin "AVS_VID" 0 (min v 16))) := by
  refine if_neg fun hb => h ?_
  obtain ⟨ht, hmax⟩ := Bool.and_eq_true_iff.mp hb
  exact ⟨(s.powered_trip mx).symm.trans ht, s.powered_maxTemp mx ▸ of_decide_eq_true hmax⟩

theorem exec_powerOn_cold (ht : s.get .PWR_H_TRIP = 0) : Completes (.powerOn bad mx v) s fun t =>
    t.get .PWR_STATUS_RESET_CAUSE = 0 ∧ t.mem = s.mem.filter fun c => dramBase ≤ c.1 && c.1 < 2 * dramBase := by
  have hoff : s.on .PWR_H_TRIP = false := by rw [State.on, ht]; rfl
  refine ⟨_, exec_powerOn_resets fun h => absurd (hoff.symm.trans h.1) (by decide), ?_, ?_⟩
  · rw [State.emit_get, State.get_set_ne _ _ _ _ _ _ (by decide)]
    exact State.resetFrom_cause _ _ ((s.coldStart_trip mx).trans hoff) (by decide)
  · exact State.resetFrom_mem (s.coldStart mx) bad 0

theorem exec_powerOn_cooled (ht : s.on .PWR_H_TRIP = true)
    (h : ¬ 95 < toSigned 8 (mx % 2 ^ Fld.PWR_THERM_STATUS_MAX.width)) :
    Completes (.powerOn bad mx v) s fun t => t.get .PWR_STATUS_RESET_CAUSE = 6 ∧ t.get .PWR_H_TRIP = 0 := by
  refine ⟨_, exec_powerOn_resets fun hb => h hb.2, ?_⟩
  beta_reduce
  rw [State.emit_get, State.emit_get, State.get_set_ne _ _ _ _ _ _ (by decide), State.get_set_ne _ _ _ _ _ _ (by decide)]
  exact State.resetFrom_trip _ _ _ ((s.coldStart_trip mx).trans ht)

theorem exec_resetPin_resets (h0 : s.on .PWR_H_OFF = false) (h : ¬ (s.on .PWR_H_TRIP = true ∧ 95 < s.maxTemp)) :
    exec (.resetPin bad) s = .next (s.resetFrom (if s.bootFailed then 5 else 1) bad) :=
  if_neg (by simpa [h0] using h)

theorem exec_resetPin_cold (ht : s.get .PWR_H_TRIP = 0) (h0 : s.get .PWR_H_OFF = 0) : Completes (.resetPin bad) s fun t =>
    t.get .PWR_STATUS_RESET_CAUSE = (if s.bootFailed then 5 else 1) ∧
      t.mem = s.mem.filter fun c => dramBase ≤ c.1 && c.1 < 2 * dramBase := by
  have htrip : s.on .PWR_H_TRIP = false := by rw [State.on, ht]; rfl
  have hoff : s.on .PWR_H_OFF = false := by rw [State.on, h0]; rfl
  refine ⟨_, exec_resetPin_resets hoff fun h => absurd (htrip.symm.trans h.1) (by decide), ?_, s.resetFrom_mem bad _⟩
  exact s.resetFrom_cause bad htrip (by split <;> decide)

theorem exec_resetPin_cooled (ht : s.on .PWR_H_TRIP = true) (h0 : s.on .PWR_H_OFF = false) (h : ¬ 95 < s.maxTemp) :
    Completes (.resetPin bad) s fun t => t.get .PWR_STATUS_RESET_CAUSE = 6 ∧ t.get .PWR_H_TRIP = 0 :=
  ⟨_, exec_resetPin_resets h0 fun hb => h hb.2, s.resetFrom_trip bad _ ht⟩

theorem exec_resetPin_idle (ht : s.on .PWR_H_TRIP = true) (h : s.on .PWR_H_OFF = true ∨ 95 < s.maxTemp) :
    exec (.resetPin bad) s = .next s := if_pos (by simpa [ht] using h)

/-! ### What the loss of a supply clears (R482, R502) -/

theorem exec_vaonLoss_clears (s : State) {f : Fld} (hf : f ∈ thermosFields) :
    Completes .vaonLoss s fun t => ∀ c ∈ t.cells, c.1.1 ≠ f.id := by
  refine ⟨_, rfl, fun c hc hid => ?_⟩
  have hmem : (thermosFields.map Fld.id).contains c.1.1 = true :=
    List.contains_iff_mem.mpr (hid ▸ List.mem_map_of_mem hf)
  have hout := (List.mem_filter.mp hc).2
  rw [hmem] at hout
  exact absurd hout (by decide)

theorem exec_railLoss_clears (s : State) : Completes .railLoss s fun t => t.mem = [] ∧ t.get .PWR_H_OFF = 1 := by
  refine ⟨_, rfl, ?_, State.get_set_same ..⟩
  rw [State.set_mem, State.clearDevice_mem, List.filter_eq_nil_iff]
  intro c hc hin
  have hout := (List.mem_filter.mp hc).2
  rw [hin] at hout
  exact absurd hout (by decide)

theorem exec_crystalStop_invalid (s : State) : Completes .crystalStop s fun t => t.get .PWR_RTC_HI_RTC_VALID = 0 :=
  ⟨_, rfl, State.get_set_same ..⟩

end Power

/-! ### The restart of the management complex (R485) -/

section Restart
variable {s : State} {src : Src} {n : Nat}
  (hn : n = min (s.get .PWR_STATUS_MGT_RESTARTS + 1) (2 ^ Fld.PWR_STATUS_MGT_RESTARTS.width - 1))
include hn

theorem exec_lockstepMismatch_restarts (h : s.mgtRuns = true) :
    Completes .lockstepMismatch s fun t => t.get .PWR_STATUS_MGT_RESTARTS = n :=
  ⟨_, if_pos h, hn ▸ s.mgtRestart_count false⟩

theorem exec_watchdogTimeout_restarts (h : s.mgtRuns = true) :
    Completes .watchdogTimeout s fun t => t.get .PWR_STATUS_MGT_RESTARTS = n :=
  ⟨_, if_pos h, hn ▸ s.mgtRestart_count false⟩

theorem exec_mgtRestart_recorded (hg : s.gate src .maker noUnit = .ok) : Recorded (.mgtRestart src) s src 0x20004
    (s.writeRec src 0x20004 2) fun t => t.get .PWR_STATUS_MGT_RESTARTS = n := by
  refine .of_exec (eff := effMgtRestart src) (by simp [execMgtRestart, hg]) fun hm => ?_
  rw [State.completed_get_mgt hm, effMgtRestart, State.mgtRestart_count, State.answer_get _ _ _ _ _ _ (by decide) (by decide),
    hn]

end Restart

/-! ### Requests, the clock, a commanded reset and temperature (R490, R491, R501, R503) -/

section Commands
variable {s : State} {src : Src} {x : Nat}

theorem exec_mgtRuns_idle (h : s.mgtRuns = false) : exec .lockstepMismatch s = .next s ∧ exec .watchdogTimeout s = .next s :=
  ⟨if_neg (ne_true_of_eq_false h), if_neg (ne_true_of_eq_false h)⟩

theorem exec_pwrQuery_answers (hg : s.fwGate src .operator noUnit = .ok) : exec (.pwrQuery src) s =
    .next ((s.emit (.reply src 0x79 ((List.range 10).flatMap fun i =>
      leBytes 4 (s.plainWord (0x20000 + 4 * i))))).answer src 0x79 .ok) := if_neg (not_not_intro hg)

theorem exec_pwrRtcSet_recorded (hg : s.fwGate src .installer noUnit = .ok) :
    Recorded (.pwrRtcSet x src) s src 0x7A (s.auditRec src 3 0 0 noValue noValue) fun t =>
      t.get .PWR_RTC_SEC = x % 2 ^ Fld.PWR_RTC_SEC.width ∧ t.get .PWR_RTC_HI_RTC_VALID = 1 := by
  refine .of_exec (eff := effPwrRtcSet x) (by simp [execPwrRtcSet, hg]) fun hm => ?_
  rw [State.completed_get_mgt hm, State.completed_get_mgt hm, effPwrRtcSet]
  refine ⟨?_, State.get_set_same ..⟩
  simp (disch := decide) only [List.foldl_cons, List.foldl_nil, State.get_set_ne, State.get_set_same]

theorem exec_pwrReset_recorded (hg : s.fwGate src .maker noUnit = .ok) (hx : x = s.get .SEC_FUSE_UID) :
    Recorded (.pwrReset x src) s src 0x7B (s.auditRec src 3 0 0 noValue noValue) fun t =>
      t.get .PWR_STATUS_RESET_CAUSE = 2 := by
  refine .of_exec (eff := effPwrReset src) (by simp [execPwrReset, hg, hx]) fun hm => ?_
  rw [State.completed_get_mgt hm]
  exact State.deviceReset_cause _ (by decide)

theorem exec_pwrClrCnt_answers (hg : s.gate src .operator noUnit = .ok) {b : Nat} (hb : b < 24) :
    Answers (.pwrClrCnt src) s src 0x20004 .ok fun t => t.get .PWR_CNT_STALE b = 0 := by
  refine ⟨s.pwrClrCnt, if_neg (not_not_intro hg), ?_⟩
  rw [State.pwrClrCnt]
  exact foldl_of_mem (P := fun t : State => t.get .PWR_CNT_STALE b = 0) (g := fun t b => t.set .PWR_CNT_STALE b 0)
    (List.mem_range.mpr hb) (fun t => (State.get_set_same ..).trans (Nat.zero_mod _))
    (fun t y _ => State.get_clear_zero fun _ => rfl) s

theorem exec_tempSample_shows (l : List Nat) (s : State) : Completes (.tempSample l) s fun t =>
    t.get .PWR_THERM_STATUS_SENSOR = (hottest l).1 % 2 ^ Fld.PWR_THERM_STATUS_SENSOR.width ∧
      t.get .PWR_THERM_STATUS_MAX = ofSigned 8 (hottest l).2 % 2 ^ Fld.PWR_THERM_STATUS_MAX.width := by
  have hevent : ∀ (p : Prop) [Decidable p] (u : State) (k : Nat) (f : Fld), f.page ≠ 0 → Fld.PWR_EVENTS_EV.id ≠ f.id →
      (if p then u.pwrEvent k 0xFFFF 0 0 else u).get f = u.get f := fun p _ u k f h0 he => by
    split
    · exact State.pwrEvent_get _ _ _ _ _ _ _ h0 he
    · rfl
  refine ⟨_, rfl, ?_, ?_⟩
  all_goals simp (disch := decide) only [hevent, State.get_set_ne, State.get_set_same]

theorem exec_thermalTrip_holds (hh : s.get .PWR_H_HELD = 0) (ho : s.get .PWR_H_OFF = 0) (ht : s.tripDue = true) :
    Completes .thermalTrip s fun t => t.get .PWR_H_TRIP = 1 ∧ t.get .PWR_H_HELD = 1 := by
  refine ⟨_, if_neg (by simp [State.on, hh, ho, ht]), ?_⟩
  beta_reduce
  rw [State.notify_get _ _ _ (by decide), State.notify_get _ _ _ (by decide)]
  simp (disch := decide) only [List.foldl_cons, List.foldl_nil, State.get_set_ne, State.get_set_same]
  decide

theorem exec_thermalTrip_idle (h : s.on .PWR_H_HELD = true ∨ s.on .PWR_H_OFF = true ∨ s.tripDue = false) :
    exec .thermalTrip s = .next s := if_pos (by simpa [or_assoc] using h)

end Commands

end Sys2Proof.Machine

open Sys2Proof Sys2Proof.Machine

/-- Settles O35: a reset by its cause and the trip, a supply by what it holds, a restart by its count. -/
theorem resetAndPowerCommandsComplete : Obligations.ResetAndPowerCommandsComplete :=
  ⟨fun _ _ _ _ ht => ⟨exec_powerOn_cold ht, exec_resetPin_cold ht⟩,
    fun _ _ _ _ ht => ⟨exec_powerOn_held ht, exec_powerOn_cooled ht, exec_resetPin_cooled ht, exec_resetPin_idle ht⟩,
    fun s _ hf => ⟨exec_vaonLoss_clears s hf, exec_railLoss_clears s, exec_crystalStop_invalid s⟩,
    fun _ _ _ hn => ⟨fun h => ⟨exec_lockstepMismatch_restarts hn h, exec_watchdogTimeout_restarts hn h⟩,
      exec_mgtRestart_recorded hn⟩,
    fun _ => ⟨exec_mgtRuns_idle, exec_thermalTrip_idle⟩,
    fun _ _ _ => ⟨exec_pwrQuery_answers, exec_pwrRtcSet_recorded, exec_pwrReset_recorded,
      fun hg _ hb => exec_pwrClrCnt_answers hg hb⟩,
    fun l s => ⟨exec_tempSample_shows l s, exec_thermalTrip_holds⟩⟩

end

section
/-! PROOFS. Entry to SLEEP, its drain, the wake sources, the end of wake, resume and gating of pipes (O36). -/

namespace Sys2Proof.Machine

/-! ### The entry (20_power_sleep_reset.md R491, R492) -/

section Enter
variable {s : State} {src : Src}

theorem State.sleepBegin_power (s : State) : s.sleepBegin.get .PWR_H_STATE = 1 ∧ s.sleepBegin.get .PWR_H_SUSPEND = 1 := by
  unfold State.sleepBegin
  extract_lets sets u
  have hu : u.get .PWR_H_STATE = 1 ∧ u.get .PWR_H_SUSPEND = 1 := by
    simp (disch := decide) only [u, sets, State.pwrState, List.foldl_cons, List.foldl_nil, State.get_set_ne,
      State.get_set_same]
    decide
  split
  · exact hu
  · exact ⟨((State.cancelNext_upd u (masks_self _ _) (.refl _)).cells _ _ (by decide)).trans hu.1,
      ((State.cancelNext_upd u (masks_self _ _) (.refl _)).cells _ _ (by decide)).trans hu.2⟩

theorem State.sleepBegin_next (s : State) : s.sleepBegin.get .JOB_STATUS_NEXT_STATE = 0 := by
  unfold State.sleepBegin
  extract_lets sets u
  split
  · assumption
  · exact State.cancelNext_nextState _

theorem exec_pwrSleep_answers {m a : Nat} (hb : s.sleepBarred = false) (hg : s.fwGate src .installer noUnit = .ok)
    (ha : ¬ (m.testBit 3 = true ∧ a ≠ 0 ∧ a ≤ s.get .PWR_RTC_SEC)) :
    Answers (.pwrSleep m a src) s src 0x78 .ok fun t => t.get .PWR_H_STATE = 1 ∧ t.get .PWR_H_SUSPEND = 1 := by
  refine ⟨((s.set .PWR_CFG_WAKE_EN 0 m).set .PWR_ALARM 0 a).sleepBegin, ?_, State.sleepBegin_power _⟩
  rw [exec_pwrSleep, execPwrSleep, if_neg (not_not_intro hg), if_neg (by simpa [and_assoc] using ha),
    if_neg (ne_true_of_eq_false hb)]

theorem exec_pwrCtrlSleep_answers (hb : s.sleepBarred = false) (hg : s.gate src .device noUnit = .ok) :
    Answers (.pwrCtrlSleep src) s src 0x20004 .ok fun t => t.get .PWR_H_STATE = 1 ∧ t.get .PWR_H_SUSPEND = 1 ∧
      (s.nextState ≠ 0 → t.get .JOB_STATUS_NEXT_STATE = 0) := by
  obtain ⟨hstate, hsuspend⟩ := s.sleepBegin_power
  refine ⟨s.sleepBegin, ?_, hstate, hsuspend, fun _ => s.sleepBegin_next⟩
  rw [exec_pwrCtrlSleep, execPwrCtrlSleep, if_neg (not_not_intro hg), if_neg (ne_true_of_eq_false hb)]

theorem exec_sleepDrainDone_drained (h1 : s.get .PWR_H_STATE = 1) (hd : s.on .PWR_H_DRAINED = false)
    (he : s.planeEmpty = true) : Completes .sleepDrainDone s fun t => t.get .PWR_H_DRAINED = 1 :=
  ⟨_, if_pos (by simp [h1, hd, he]), State.get_set_same ..⟩

theorem exec_sleepDrainLimit_cuts (h1 : s.get .PWR_H_STATE = 1) (hd : s.on .PWR_H_DRAINED = false)
    (ht : s.get .PWR_H_ENTERT + s.get .PWR_CFG_DRAIN_MS * 1000000 ≤ s.elapsed) :
    Completes .sleepDrainLimit s fun t => t.get .PWR_H_DRAINED = 1 ∧ t.bit .PWR_EVENTS_EV 0 2 = true := by
  refine ⟨_, if_pos (by simp [h1, hd, ht]), ?_,
    State.sticky_bit _ _ _ _ _ _ _ _ _ _ _ (by decide) (by decide)⟩
  refine (State.pwrEvent_get _ _ _ _ _ _ _ (by decide) (by decide)).trans ?_
  refine (State.foldl_get _ _ _ _ _ fun t d =>
    (State.refuseQueued_upd t d 12 (masks_self _ _) (.refl t)).cells _ _ (by decide)).trans ?_
  exact ((State.refuseUnstarted_upd _ (masks_self _ _) (.refl _)).cells _ _ (by decide)).trans (State.get_set_same ..)

theorem exec_sleepDrainDone_idle (h : s.get .PWR_H_STATE ≠ 1 ∨ s.on .PWR_H_DRAINED = true ∨ s.planeEmpty = false) :
    exec .sleepDrainDone s = .next s := by
  refine if_neg fun hb => ?_
  simp only [Bool.and_eq_true, decide_eq_true_eq, Bool.not_eq_true'] at hb
  obtain ⟨⟨h1, hd⟩, he⟩ := hb
  rcases h with h | h | h
  · exact h h1
  · exact absurd (h.symm.trans hd) (by decide)
  · exact absurd (h.symm.trans he) (by decide)

theorem exec_sleepDrainLimit_idle (h : s.get .PWR_H_STATE ≠ 1 ∨ s.on .PWR_H_DRAINED = true ∨
    s.elapsed < s.get .PWR_H_ENTERT + s.get .PWR_CFG_DRAIN_MS * 1000000) : exec .sleepDrainLimit s = .next s := by
  refine if_neg fun hb => ?_
  simp only [Bool.and_eq_true, decide_eq_true_eq, Bool.not_eq_true'] at hb
  obtain ⟨⟨h1, hd⟩, ht⟩ := hb
  rcases h with h | h | h
  · exact h h1
  · exact absurd (h.symm.trans hd) (by decide)
  · exact absurd ht (Nat.not_le.mpr h)

end Enter

/-! ### The wake sources (R496, R497, R498) -/

/-- The RTC moves on by its ticks, and nothing else changes. -/
theorem State.rtcAdvance_get (s : State) (n : Nat) (f : Fld) (i : Nat) (ht : Fld.PWR_RTC_HI_TICKS.id ≠ f.id)
    (hs : Fld.PWR_RTC_SEC.id ≠ f.id) : (s.rtcAdvance n).get f i = s.get f i :=
  (State.get_bump_ne _ _ _ _ _ _ hs).trans (State.get_set_ne _ _ _ _ _ _ ht)

theorem State.rtcAdvance_bit (s : State) (n k : Nat) :
    (s.rtcAdvance n).bit .PWR_CFG_WAKE_EN 0 k = s.bit .PWR_CFG_WAKE_EN 0 k :=
  congrArg (·.testBit k) (s.rtcAdvance_get n _ _ (by decide) (by decide))

/-- In SLEEP an enabled source wakes the device. -/
theorem State.wakeEvent_wakes {s : State} {source : Nat} (h4 : source < 4) (hb : s.bit .PWR_CFG_WAKE_EN 0 source = true)
    (h2 : s.get .PWR_H_STATE = 2) :
    (s.wakeEvent source).get .PWR_H_STATE = 3 ∧ (s.wakeEvent source).get .PWR_STATUS_WAKE_SRC = source := by
  have hlanes : ∀ (t : State) (f : Fld), f.page = 2 → ((List.range 48).foldl (fun s n => s.wakeLane n) t).get f = t.get f :=
    fun t f hf => State.foldl_get _ _ _ _ _ fun u n =>
      (State.wakeLane_upd u n (masks_self _ _) (.refl u)).cells _ _ (by rw [hf]; decide)
  rw [State.wakeEvent, if_neg (by simp [hb]), if_pos h2, State.wakeBegin, hlanes _ _ rfl, hlanes _ _ rfl]
  simp (disch := decide) only [State.pwrState, State.get_set_ne, State.get_set_same]
  exact ⟨rfl, Nat.mod_eq_of_lt (h4.trans (by decide))⟩

/-- During the entry the first event of an enabled source is latched. -/
theorem State.wakeEvent_latches {s : State} {source : Nat} (h16 : source < 16) (hb : s.bit .PWR_CFG_WAKE_EN 0 source = true)
    (h1 : s.get .PWR_H_STATE = 1) (hl : s.get .PWR_H_LATCHED = 16) :
    (s.wakeEvent source).get .PWR_H_LATCHED = source ∧ (s.wakeEvent source).get .PWR_H_STATE = 1 := by
  rw [State.wakeEvent, if_neg (by simp [hb]), if_neg (by omega), if_pos (by simp [h1, hl])]
  exact ⟨(State.get_set_same ..).trans (Nat.mod_eq_of_lt (h16.trans (by decide))),
    (State.get_set_ne _ _ _ _ _ _ (by decide)).trans h1⟩

/-- Outside SLEEP and its entry, and for a source that is not enabled, nothing wakes. -/
theorem State.wakeEvent_idle {s : State} {source : Nat} (h : s.get .PWR_H_STATE = 0 ∨ s.get .PWR_H_STATE = 3 ∨
    s.bit .PWR_CFG_WAKE_EN 0 source = false) : s.wakeEvent source = s := by
  have hout : s.get .PWR_H_STATE = 0 ∨ s.get .PWR_H_STATE = 3 → (if s.get .PWR_H_STATE = 2 then s.wakeBegin source
      else if s.get .PWR_H_STATE = 1 && s.get .PWR_H_LATCHED = 16 then s.set .PWR_H_LATCHED 0 source else s) = s := fun h => by
    rw [if_neg (by omega)]
    exact if_neg (by rcases h with h | h <;> simp [h])
  rw [State.wakeEvent]
  by_cases hb : s.bit .PWR_CFG_WAKE_EN 0 source = false
  · rw [if_pos (by simp [hb])]
  · rw [if_neg (by simpa using hb)]
    exact hout (h.imp_right (Or.resolve_right · hb))

section Wake
variable {s : State} {n ln : Nat}

theorem exec_botexWake_fabric (hr : s.get .LANE_ID_ROLE ln = 3) (hv : s.get .FAB_PORT_STATUS_VER (lanePort ln) ≠ 1) :
    exec (.botexWake ln n) s = .next ((s.rtcAdvance n).wakeEvent 2) := by
  refine if_pos ?_
  rw [State.rtcAdvance_get _ _ _ _ (by decide) (by decide), State.rtcAdvance_get _ _ _ _ (by decide) (by decide)]
  simp [hr, hv]

theorem exec_rtcAlarm_due (ha : s.get .PWR_ALARM ≠ 0) (ht : s.get .PWR_ALARM ≤ (s.rtcAdvance n).get .PWR_RTC_SEC) :
    exec (.rtcAlarm n) s = .next ((s.rtcAdvance n).wakeEvent 3) := by
  refine if_pos ?_
  rw [State.rtcAdvance_get _ _ .PWR_ALARM _ (by decide) (by decide)]
  simp [ha, ht]

theorem State.rtcAdvance_state (s : State) (n : Nat) : (s.rtcAdvance n).get .PWR_H_STATE = s.get .PWR_H_STATE :=
  s.rtcAdvance_get n _ _ (by decide) (by decide)

section Asleep
variable (h2 : s.get .PWR_H_STATE = 2)
include h2

/-- An enabled source, after the RTC has moved on. -/
theorem State.rtcAdvance_wakes {source : Nat} (h4 : source < 4) (hb : s.bit .PWR_CFG_WAKE_EN 0 source = true) :
    ((s.rtcAdvance n).wakeEvent source).get .PWR_H_STATE = 3 ∧
      ((s.rtcAdvance n).wakeEvent source).get .PWR_STATUS_WAKE_SRC = source :=
  State.wakeEvent_wakes h4 ((s.rtcAdvance_bit n source).trans hb) ((s.rtcAdvance_state n).trans h2)

theorem exec_addressMatchWake_wakes (hb : s.bit .PWR_CFG_WAKE_EN 0 1 = true) :
    Completes (.addressMatchWake n) s fun t => t.get .PWR_H_STATE = 3 ∧ t.get .PWR_STATUS_WAKE_SRC = 1 :=
  ⟨((s.rtcAdvance n).emit (.i3c false [])).wakeEvent 1, if_pos ((s.rtcAdvance_state n).trans h2),
    State.wakeEvent_wakes (by decide) ((s.rtcAdvance_bit n 1).trans hb) ((s.rtcAdvance_state n).trans h2)⟩

theorem exec_wake_wakes :
    (s.bit .PWR_CFG_WAKE_EN 0 0 = true →
      Completes (.wakePin n) s fun t => t.get .PWR_H_STATE = 3 ∧ t.get .PWR_STATUS_WAKE_SRC = 0) ∧
    (s.bit .PWR_CFG_WAKE_EN 0 1 = true →
      Completes (.addressMatchWake n) s fun t => t.get .PWR_H_STATE = 3 ∧ t.get .PWR_STATUS_WAKE_SRC = 1) ∧
    (s.bit .PWR_CFG_WAKE_EN 0 2 = true → s.get .LANE_ID_ROLE ln = 3 → s.get .FAB_PORT_STATUS_VER (lanePort ln) ≠ 1 →
      Completes (.botexWake ln n) s fun t => t.get .PWR_H_STATE = 3 ∧ t.get .PWR_STATUS_WAKE_SRC = 2) ∧
    (s.bit .PWR_CFG_WAKE_EN 0 3 = true → s.get .PWR_ALARM ≠ 0 → s.get .PWR_ALARM ≤ (s.rtcAdvance n).get .PWR_RTC_SEC →
      Completes (.rtcAlarm n) s fun t => t.get .PWR_H_STATE = 3 ∧ t.get .PWR_STATUS_WAKE_SRC = 3) :=
  ⟨fun hb => ⟨_, rfl, State.rtcAdvance_wakes h2 (by decide) hb⟩, exec_addressMatchWake_wakes h2,
    fun hb hr hv => ⟨_, exec_botexWake_fabric hr hv, State.rtcAdvance_wakes h2 (by decide) hb⟩,
    fun hb ha ht => ⟨_, exec_rtcAlarm_due ha ht, State.rtcAdvance_wakes h2 (by decide) hb⟩⟩

theorem exec_addressMatchWake_disabled (hb : s.bit .PWR_CFG_WAKE_EN 0 1 = false) :
    exec (.addressMatchWake n) s = .next ((s.rtcAdvance n).emit (.i3c false [])) := by
  refine (if_pos ((s.rtcAdvance_state n).trans h2)).trans (congrArg Host.Outcome.next (State.wakeEvent_idle ?_))
  exact .inr (.inr ((s.rtcAdvance_bit n 1).trans hb))

end Asleep

section Entering
variable (h1 : s.get .PWR_H_STATE = 1) (hl : s.get .PWR_H_LATCHED = 16)
include h1 hl

theorem State.rtcAdvance_latches {source : Nat} (h16 : source < 16) (hb : s.bit .PWR_CFG_WAKE_EN 0 source = true) :
    ((s.rtcAdvance n).wakeEvent source).get .PWR_H_LATCHED = source ∧
      ((s.rtcAdvance n).wakeEvent source).get .PWR_H_STATE = 1 :=
  State.wakeEvent_latches h16 ((s.rtcAdvance_bit n source).trans hb) ((s.rtcAdvance_state n).trans h1)
    ((s.rtcAdvance_get n _ _ (by decide) (by decide)).trans hl)

theorem exec_wake_latches :
    (s.bit .PWR_CFG_WAKE_EN 0 0 = true →
      Completes (.wakePin n) s fun t => t.get .PWR_H_LATCHED = 0 ∧ t.get .PWR_H_STATE = 1) ∧
    (s.bit .PWR_CFG_WAKE_EN 0 2 = true → s.get .LANE_ID_ROLE ln = 3 → s.get .FAB_PORT_STATUS_VER (lanePort ln) ≠ 1 →
      Completes (.botexWake ln n) s fun t => t.get .PWR_H_LATCHED = 2 ∧ t.get .PWR_H_STATE = 1) ∧
    (s.bit .PWR_CFG_WAKE_EN 0 3 = true → s.get .PWR_ALARM ≠ 0 → s.get .PWR_ALARM ≤ (s.rtcAdvance n).get .PWR_RTC_SEC →
      Completes (.rtcAlarm n) s fun t => t.get .PWR_H_LATCHED = 3 ∧ t.get .PWR_H_STATE = 1) :=
  ⟨fun hb => ⟨_, rfl, State.rtcAdvance_latches h1 hl (by decide) hb⟩,
    fun hb hr hv => ⟨_, exec_botexWake_fabric hr hv, State.rtcAdvance_latches h1 hl (by decide) hb⟩,
    fun hb ha ht => ⟨_, exec_rtcAlarm_due ha ht, State.rtcAdvance_latches h1 hl (by decide) hb⟩⟩

end Entering

theorem exec_wake_idle (h : s.get .PWR_H_STATE = 0 ∨ s.get .PWR_H_STATE = 3 ∨ s.get .PWR_CFG_WAKE_EN = 0) :
    exec (.wakePin n) s = .next (s.rtcAdvance n) ∧ exec (.botexWake ln n) s = .next (s.rtcAdvance n) ∧
      exec (.rtcAlarm n) s = .next (s.rtcAdvance n) := by
  have hidle : ∀ source, (s.rtcAdvance n).wakeEvent source = s.rtcAdvance n := fun source => State.wakeEvent_idle <| by
    rw [State.rtcAdvance_state, State.rtcAdvance_bit, State.bit]
    exact h.imp_right (Or.imp_right fun h0 => by rw [h0, Nat.zero_testBit])
  refine ⟨?_, ?_, ?_⟩
  · rw [exec_wakePin, execWakePin, hidle]
  · rw [exec_botexWake, execBotexWake, hidle, ite_self]
  · rw [exec_rtcAlarm, execRtcAlarm, hidle, ite_self]

theorem exec_addressMatchWake_awake (h : s.get .PWR_H_STATE ≠ 2) : exec (.addressMatchWake n) s = .next (s.rtcAdvance n) :=
  if_neg (by rwa [State.rtcAdvance_state])

theorem exec_botexWake_other (h : s.get .LANE_ID_ROLE ln ≠ 3 ∨ s.get .FAB_PORT_STATUS_VER (lanePort ln) = 1) :
    exec (.botexWake ln n) s = .next (s.rtcAdvance n) := by
  refine if_neg ?_
  rw [State.rtcAdvance_get _ _ _ _ (by decide) (by decide), State.rtcAdvance_get _ _ _ _ (by decide) (by decide)]
  rcases h with h | h <;> simp [h]

theorem exec_rtcAlarm_early (h : s.get .PWR_ALARM = 0 ∨ (s.rtcAdvance n).get .PWR_RTC_SEC < s.get .PWR_ALARM) :
    exec (.rtcAlarm n) s = .next (s.rtcAdvance n) := by
  refine if_neg ?_
  rw [State.rtcAdvance_get _ _ .PWR_ALARM _ (by decide) (by decide)]
  rcases h with h | h
  · simp [h]
  · simp [Nat.not_le.mpr h]

end Wake

/-! ### The end of wake, and what follows (R498, R499, R503) -/

section Done
variable {s : State}

theorem exec_wakeDone_wakes {ok : Bool} {fw : Sigs} {full : Nat} (h3 : s.get .PWR_H_STATE = 3) (hl : s.wakeLanesOver = true) :
    ∃ u : State, exec (.wakeDone ok fw full) s = .next (u.wakeFirmware ok fw) ∧ u.get .MEM_H_SELF = 0 ∧
      u.get .MEM_STATUS_TRAINED = 1 ∧ (u.wakeFirmware ok fw).get .PWR_H_STATE = 0 ∧
      (u.wakeFirmware ok fw).get .PWR_STATUS_STATE = 0 ∧
      (ok = true → (u.wakeFirmware ok fw).get .BOOT_STATUS_FW_SRC = 2 ∧ (u.wakeFirmware ok fw).get .BOOT_H_AWAY = 0) := by
  rw [exec_wakeDone]
  unfold execWakeDone
  rw [if_neg (by simp [h3, hl])]
  extract_lets u₁ u₂ u₃ u₄
  have hfirmware : ∀ f : Fld, f.page = 2 → (u₄.wakeFirmware ok fw).get f = u₄.get f := fun f hf =>
    (State.wakeFirmware_upd _ ok fw (masks_self _ _) (.refl _)).cells _ _ (by rw [hf]; decide)
  have hevent : ∀ f : Fld, f.page ≠ 0 → Fld.PWR_EVENTS_EV.id ≠ f.id → u₄.get f = u₃.get f := fun f h0 he =>
    State.pwrEvent_get _ _ _ _ _ _ _ h0 he
  have hmem : ∀ f : Fld, f.page = 80 → Fld.MEM_EVENTS_EV.id ≠ f.id → u₄.get f = u₁.get f := fun f hf he => by
    have hpower : ∀ g : Fld, g.page = 2 → g.id ≠ f.id := fun g hg hid => by
      rw [Fld.page, hid] at hg
      exact absurd (hf.symm.trans hg) (by decide)
    have h₃ : u₃.get f = u₂.wakeTime.get f := by
      simp only [u₃, State.pwrState]
      rw [State.get_set_ne _ _ _ _ _ _ (hpower _ rfl), State.get_set_ne _ _ _ _ _ _ (hpower _ rfl),
        State.get_set_ne _ _ _ _ _ _ (hpower _ rfl), State.get_set_ne _ _ _ _ _ _ (hpower _ rfl)]
    rw [hevent f (by rw [hf]; decide) (hpower _ rfl), h₃,
      (State.wakeTime_upd _ (masks_self _ _) (.refl _)).cells _ _ (by rw [hf]; decide)]
    exact State.foldl_get _ _ _ _ _ fun t c => State.memEvent_get _ _ _ _ _ _ _ (by rw [hf]; decide) he
  refine ⟨u₄, rfl, ?_, ?_, ?_, ?_, fun hok => ?_⟩
  · rw [hmem _ rfl (by decide), State.get_set_ne _ _ _ _ _ _ (by decide)]
    exact State.get_set_same ..
  · rw [hmem _ rfl (by decide)]
    exact State.get_set_same ..
  · rw [hfirmware _ rfl, hevent _ (by decide) (by decide)]
    simp (disch := decide) only [u₃, State.pwrState, State.get_set_ne, State.get_set_same]
    decide
  · rw [hfirmware _ rfl, hevent _ (by decide) (by decide)]
    simp (disch := decide) only [u₃, State.pwrState, State.get_set_ne, State.get_set_same]
    decide
  · rw [State.wakeFirmware, if_pos hok]
    obtain ⟨hsrc, haway, -⟩ := u₄.mgtBack_spec (source := 2) (by decide)
    exact ⟨hsrc, haway⟩

theorem exec_wakeDone_idle {ok : Bool} {fw : Sigs} {full : Nat} (h : s.get .PWR_H_STATE ≠ 3 ∨ s.wakeLanesOver = false) :
    exec (.wakeDone ok fw full) s = .next s := if_pos (by simpa using h)

theorem exec_triggerResume_resumes (hs : s.on .PWR_H_SUSPEND = true) (h0 : s.get .PWR_H_STATE = 0) (hd : s.resumeDue = true) :
    Completes .triggerResume s fun t => t.get .PWR_H_SUSPEND = 0 ∧ t.get .PWR_H_ADOPT = 15 := by
  refine ⟨_, if_pos (by simp [hs, h0, hd]), ?_⟩
  beta_reduce
  have hkept : ∀ (t : State) (f : Fld), f.page = 2 → ((List.range 128).foldl State.rearm t).get f = t.get f := fun t f hf =>
    State.foldl_get _ _ _ _ _ fun u c => (State.rearm_upd u c (masks_self _ _) (.refl u)).cells _ _ (by rw [hf]; decide)
  rw [hkept _ _ rfl, hkept _ _ rfl]
  exact ⟨(State.get_set_ne _ _ _ _ _ _ (by decide)).trans (State.get_set_same ..), State.get_set_same ..⟩

theorem exec_triggerResume_idle (h : s.on .PWR_H_SUSPEND = false ∨ s.get .PWR_H_STATE ≠ 0 ∨ s.resumeDue = false) :
    exec .triggerResume s = .next s := by
  refine if_neg fun hb => ?_
  simp only [Bool.and_eq_true, beq_iff_eq] at hb
  obtain ⟨⟨hs, h0⟩, hd⟩ := hb
  rcases h with h | h | h
  · exact absurd (h.symm.trans hs) (by decide)
  · exact h h0
  · exact absurd (h.symm.trans hd) (by decide)

theorem effPipeGate_holds {v : Nat} {src : Src} (hf : ((s.newlyGated v).all fun p => s.get .PIPE_H_STATE p == 2) = true) :
    (effPipeGate v src s).get .PWR_GATE = v % 2 ^ Fld.PWR_GATE.width := by
  rw [effPipeGate]
  refine (congrArg (fun t : State => t.get .PWR_GATE) (if_pos hf)).trans ?_
  refine List.foldlRecOn (motive := fun t : State => t.get .PWR_GATE = v % 2 ^ Fld.PWR_GATE.width) _ _
    (State.get_set_same ..) fun t ht p hp => ?_
  have h8 : p < 8 := List.mem_range.mp (List.mem_filter.mp hp).1
  exact (State.newGeneration_power _ (by omega) _ rfl (by decide) (by decide)).trans ht

theorem exec_pipeGate_recorded {v : Nat} {src : Src} (hg : s.gate src .installer noUnit = .ok)
    (hf : ((s.newlyGated v).all fun p => s.get .PIPE_H_STATE p == 2) = true) :
    Recorded (.pipeGate v src) s src 0x20040 (s.writeRec src 0x20040 (v % 256)) fun t =>
      t.get .PWR_GATE = v % 2 ^ Fld.PWR_GATE.width := by
  refine .of_exec (eff := effPipeGate v src) ?_ fun hm => ?_
  · rw [exec_pipeGate, execPipeGate, if_neg (not_not_intro hg), if_neg (by rw [hf]; decide)]
  · rw [State.completed_get_mgt hm]
    exact effPipeGate_holds hf

end Done

end Sys2Proof.Machine

open Sys2Proof Sys2Proof.Machine

/-- Settles O36: each wake source by the state of sleep, after the RTC has moved on. -/
theorem sleepAndWakeCommandsComplete : Obligations.SleepAndWakeCommandsComplete :=
  ⟨fun _ _ _ _ hb => ⟨exec_pwrSleep_answers hb, exec_pwrCtrlSleep_answers hb⟩,
    fun _ h1 hd => ⟨exec_sleepDrainDone_drained h1 hd, exec_sleepDrainLimit_cuts h1 hd⟩,
    fun _ => ⟨exec_sleepDrainDone_idle, exec_sleepDrainLimit_idle⟩, fun _ _ _ h2 => exec_wake_wakes h2,
    fun _ _ _ h1 hl => exec_wake_latches h1 hl,
    fun _ _ _ => ⟨exec_wake_idle, exec_addressMatchWake_awake, exec_addressMatchWake_disabled, exec_botexWake_other,
      exec_rtcAlarm_early⟩,
    fun _ _ _ _ => ⟨exec_wakeDone_wakes, exec_wakeDone_idle⟩, fun _ => exec_triggerResume_resumes,
    fun _ => exec_triggerResume_idle, fun _ _ _ => exec_pipeGate_recorded⟩

end

section
/-! PROOFS. Page transfers, the indirect window and the command buffer of the management port (O41). -/

namespace Sys2Proof.Machine

/-! ### The command buffer (18_i3c_management_port.md R445 to R447) -/

section CommandBuffer
variable {s : State} {m : List Nat}

theorem exec_cmdSubmit_executing (hu : s.unreachable = false) (hc : s.get .I3C_H_CMD = 1) :
    exec .cmdSubmit s = .next s := by
  rw [exec_cmdSubmit, execCmdSubmit, if_neg (ne_true_of_eq_false hu), State.submit, if_pos hc]

theorem State.submit_formed (hc : s.get .I3C_H_CMD ≠ 1)
    (hm : m = s.memBytes cmdBuf (min (64 + s.memLe (cmdBuf + 28) 4) 32769)) (h₀ : m.getD 0 0 = 0x20)
    (hl : 64 + s.memLe (cmdBuf + 28) 4 ≤ 32768) :
    (s.authCheck m = .discard →
      s.submit = (((s.authFail 0xFFFF m).set .I3C_H_REPLY 0 0).set .I3C_H_CMD 0 3).notify) ∧
    (∀ st, s.authCheck m = .refuse st →
      s.submit = (s.acceptCounter m).bufReply (leAt m 2 2) (m.getD 16 0) st []) ∧
    (s.authCheck m = .accept → s.submit =
      if (if (s.acceptCounter m).unitDown 14 then Status.targetReset else (s.acceptCounter m).commandCheck m) = .ok then
        ((s.acceptCounter m).set .I3C_H_CMD 0 1).notify
      else (s.acceptCounter m).bufReply (leAt m 2 2) (m.getD 16 0)
        (if (s.acceptCounter m).unitDown 14 then .targetReset else (s.acceptCounter m).commandCheck m) []) := by
  subst hm
  have hg : ¬((decide ((s.memBytes cmdBuf (min (64 + s.memLe (cmdBuf + 28) 4) 32769)).getD 0 0 ≠ 0x20)
      || decide (32768 < 64 + s.memLe (cmdBuf + 28) 4)) = true) := by
    simp only [Bool.or_eq_true, decide_eq_true_eq, not_or]
    exact ⟨not_not_intro h₀, by omega⟩
  refine ⟨fun ha => ?_, fun st ha => ?_, fun ha => ?_⟩
  all_goals unfold State.submit; rw [if_neg hc]; dsimp only; rw [if_neg hg, ha]
  exact ite_not ..

theorem exec_cmdSubmit_unformed (hu : s.unreachable = false)
    (hc : s.get .I3C_H_CMD ≠ 1) (hm : m = s.memBytes cmdBuf (min (64 + s.memLe (cmdBuf + 28) 4) 32769))
    (hb : m.getD 0 0 ≠ 0x20 ∨ 32768 < 64 + s.memLe (cmdBuf + 28) 4) :
    Completes .cmdSubmit s fun t => t.get .I3C_H_CMD = 3 ∧ t.get .I3C_H_REPLY = 0 := by
  subst hm
  have he : s.submit = (((s.badMessage 0xFFFF).set .I3C_H_REPLY 0 0).set .I3C_H_CMD 0 3).notify := by
    unfold State.submit
    rw [if_neg hc]
    exact if_pos (by simpa only [Bool.or_eq_true, decide_eq_true_eq] using hb)
  refine ⟨_, by rw [exec_cmdSubmit, execCmdSubmit, if_neg (ne_true_of_eq_false hu), he], ?_⟩
  simp (disch := decide) only [State.notify_get_ne, State.get_set_ne, State.get_set_same]
  decide

theorem exec_cmdAck_answered (hu : s.unreachable = false) (hc : 2 ≤ s.get .I3C_H_CMD) :
    Completes .cmdAck s fun t => t.get .I3C_H_CMD = 0 := by
  refine ⟨_, by rw [exec_cmdAck, execCmdAck, if_neg (ne_true_of_eq_false hu), State.ackCmd, if_pos hc], ?_⟩
  simp (disch := decide) only [State.notify_get_ne, State.get_set_same]
  decide

theorem exec_cmdAck_idle (hu : s.unreachable = false) (hc : s.get .I3C_H_CMD < 2) : exec .cmdAck s = .next s := by
  rw [exec_cmdAck, execCmdAck, if_neg (ne_true_of_eq_false hu), State.ackCmd, if_neg (by omega)]

end CommandBuffer

/-! ### Page writes (18_i3c_management_port.md R441, R442) -/

section PageWrite
variable {s : State} {p v : Nat}

theorem exec_pageWrite_nil (hu : s.unreachable = false) :
    exec (.pageWrite []) s = .next (s.transfer.i3cSend true []) := by
  rw [exec_pageWrite, execPageWrite, if_neg (ne_true_of_eq_false hu)]

theorem exec_pageWrite_cons (hu : s.unreachable = false) (rest : List Nat) :
    exec (.pageWrite (p :: rest)) s = .next ((rest.foldl
      (fun t v => (t.pageStore (t.get .I3C_H_PTR) (v % 256)).ptrNext) (s.transfer.set .I3C_H_PTR 0 p)).i3cSend true []) := by
  rw [exec_pageWrite, execPageWrite, if_neg (ne_true_of_eq_false hu)]

theorem exec_pageWrite_pair (hu : s.unreachable = false) (hp : p < 256) (hv : v < 256) :
    exec (.pageWrite [p, v]) s =
      .next ((((s.transfer.set .I3C_H_PTR 0 p).pageStore p v).ptrNext).i3cSend true []) := by
  have hptr : (s.transfer.set .I3C_H_PTR 0 p).get .I3C_H_PTR = p :=
    (State.get_set_same ..).trans (Nat.mod_eq_of_lt hp)
  rw [exec_pageWrite_cons hu, List.foldl_cons, List.foldl_nil, hptr, Nat.mod_eq_of_lt hv]

theorem State.pageStore_readOnly (hp : p ≤ 0x0C) : s.pageStore p v = s := by
  have hr : ∀ a b, 0x0C < a → ¬((decide (a ≤ p) && decide (p ≤ b)) = true) := fun a b ha h => by
    simp only [Bool.and_eq_true, decide_eq_true_eq] at h
    omega
  unfold State.pageStore
  rw [if_neg (by omega), if_neg (by omega), if_neg (by omega), if_neg (by omega), if_neg (by omega),
    if_neg (hr _ _ (by decide)), if_neg (hr _ _ (by decide)), if_neg (hr _ _ (by decide))]

theorem State.pageStore_notify : (s.pageStore 0x10 v).get .I3C_H_NOTIFY = v % 8 := by
  unfold State.pageStore
  rw [if_neg (by decide), if_pos rfl, State.notify_get_ne _ _ _ (by decide), State.get_set_same]
  exact Nat.mod_eq_of_lt (Nat.lt_of_lt_of_le (Nat.mod_lt v (by decide)) (by decide))

theorem State.pageStore_window (hlo : 0x80 ≤ p) (hhi : p ≤ 0xDF) (hc : s.get .I3C_H_CMD ≠ 1)
    (hb : s.get .I3C_H_BUF_OFF + (p - 0x80) < 32768) :
    s.pageStore p v = s.putByte (cmdBuf + s.get .I3C_H_BUF_OFF + (p - 0x80)) v := by
  unfold State.pageStore
  rw [if_neg (by omega), if_neg (by omega), if_neg (by omega), if_neg (by omega), if_neg (by omega),
    if_pos (by simp only [Bool.and_eq_true, decide_eq_true_eq]; omega), State.writeBuf, if_neg hc, if_pos hb]

end PageWrite

/-! ### Page reads (18_i3c_management_port.md R443, R444) -/

section PageRead
variable {s : State}

theorem exec_pageRead_any (n : Nat) (hu : s.unreachable = false) :
    exec (.pageRead n) s = .next (if (s.transfer.reach (s.transfer.get .I3C_H_PTR)).on .I3C_H_MODE = true ∧
        0xF8 ≤ s.transfer.get .I3C_H_PTR ∧ s.transfer.get .I3C_H_PTR ≤ 0xFB ∧
        (s.transfer.reach (s.transfer.get .I3C_H_PTR)).readPending = true then
        (s.transfer.reach (s.transfer.get .I3C_H_PTR)).i3cSend false []
      else (s.transfer.pageBytes n []).1.i3cSend true (s.transfer.pageBytes n []).2) := by
  rw [exec_pageRead, execPageRead, if_neg (ne_true_of_eq_false hu)]
  simp only [Bool.and_eq_true, decide_eq_true_eq, and_assoc]
  exact (apply_ite Host.Outcome.next ..).symm

theorem State.reach_below {p : Nat} (hp : p < 0xF7) : s.reach p = s :=
  if_neg fun h => by
    simp only [Bool.and_eq_true, Bool.or_eq_true, decide_eq_true_eq] at h
    omega

theorem State.reach_issues {p : Nat} (hp : p = 0xF7 ∨ p = 0xF8) (hb : s.on .I3C_H_BUSY = false)
    (hh : s.on .I3C_H_HELD = false) : s.reach p = s.indirectRead :=
  if_pos (by simpa only [hb, hh, Bool.not_false, Bool.and_true, Bool.or_eq_true, decide_eq_true_eq] using hp)

/-- A read of a pointer below the indirect window sends that byte and moves the pointer on. -/
theorem State.pageBytes_one (hp : s.get .I3C_H_PTR < 0xF7) :
    s.pageBytes 1 [] = (s.ptrNext, [s.pageByte (s.get .I3C_H_PTR)]) := by
  have hw : ¬((s.on .I3C_H_MODE && decide (s.get .I3C_H_PTR = 0xF7) && s.on .I3C_H_BUSY) = true) := fun h => by
    simp only [Bool.and_eq_true, decide_eq_true_eq] at h
    omega
  have hs : ¬((!s.on .I3C_H_MODE && s.readPending && !s.on .I3C_H_BUSY) = true) := fun h => by
    simp only [State.readPending, Bool.and_eq_true, Bool.not_eq_true'] at h
    exact ne_true_of_eq_false h.2 h.1.2.1
  unfold State.pageBytes
  dsimp only
  rw [State.reach_below hp, if_neg hw, if_neg hs, if_neg (by omega)]
  rfl

theorem exec_pageRead_one (hu : s.unreachable = false) (hp : s.transfer.get .I3C_H_PTR < 0xF7) :
    exec (.pageRead 1) s =
      .next (s.transfer.ptrNext.i3cSend true [s.transfer.pageByte (s.transfer.get .I3C_H_PTR)]) := by
  rw [exec_pageRead_any 1 hu, if_neg (by omega), State.pageBytes_one hp]

end PageRead

/-! ### The end of an indirect access (18_i3c_management_port.md R457) -/

section Indirect
variable {s : State} {e : MemErr}

theorem exec_indirectComplete_read (hb : s.on .I3C_H_BUSY = true) (hm : s.get .I3C_H_PMADE = 0)
    (hw : s.on .I3C_H_PWRITE = false) : exec (.indirectComplete false e) s =
      .next (((s.targetRead (s.get .I3C_H_PADDR) 4 s.portSrc e).1.indirectDone
        (s.targetRead (s.get .I3C_H_PADDR) 4 s.portSrc e).2.1
        (leNat (s.targetRead (s.get .I3C_H_PADDR) 4 s.portSrc e).2.2)).goOn) := by
  rw [exec_indirectComplete, execIndirectComplete, if_pos (by decide)]
  unfold State.indirectAt
  dsimp only
  rw [if_neg (by simp [hb]), if_neg (not_not_intro hm), if_neg (ne_true_of_eq_false hw)]

theorem exec_indirectComplete_none (hb : s.on .I3C_H_BUSY = false) :
    exec (.indirectComplete false e) s = .next s := by
  rw [exec_indirectComplete, execIndirectComplete, if_pos (by decide)]
  unfold State.indirectAt
  dsimp only
  rw [if_pos (by simp [hb])]

theorem exec_indirectComplete_late (hl : s.get .I3C_H_PLATE ≠ 0) :
    Completes (.indirectComplete true e) s fun t => t.get .I3C_H_PLATE = (s.get .I3C_H_PLATE - 1) % 256 ∧
      t.bit .MGT_I3C_EVENTS_EV 0 5 = true ∧
      t.get .MGT_I3C_CNT_TIMEOUT = min (s.get .MGT_I3C_CNT_TIMEOUT + 1) (2 ^ 32 - 1) := by
  refine ⟨((s.set .I3C_H_PLATE 0 (s.get .I3C_H_PLATE - 1)).inc .MGT_I3C_CNT_TIMEOUT).portFlag 5, ?_, ?_,
    State.portFlag_bit _ _ (by decide), ?_⟩
  · rw [exec_indirectComplete, execIndirectComplete, if_neg (by decide), if_pos hl]
  · rw [State.portFlag_get_ne _ _ _ (by decide), State.get_inc_ne _ _ _ _ _ (by decide), State.get_set_same]
    rfl
  · rw [State.portFlag_get_ne _ _ _ (by decide), State.get_inc_same, State.get_set_ne _ _ _ _ _ _ (by decide)]
    rfl

theorem exec_indirectComplete_stale (hl : s.get .I3C_H_PLATE = 0) :
    exec (.indirectComplete true e) s = .next (if s.get .I3C_H_PSTALE = 0 then s
      else (s.set .I3C_H_PSTALE 0 (s.get .I3C_H_PSTALE - 1)).staleDrop 0) := by
  rw [exec_indirectComplete, execIndirectComplete, if_neg (by decide), if_neg (not_not_intro hl)]
  by_cases hs : s.get .I3C_H_PSTALE = 0
  · rw [if_neg (not_not_intro hs), if_pos hs]
  · rw [if_pos hs, if_neg hs]

theorem exec_indirectTimeout_idle (h : s.get .I3C_H_RLEFT = 0 ∨ s.readPending = false) :
    exec .indirectTimeout s = .next s := by
  rw [exec_indirectTimeout, execIndirectTimeout]
  exact if_pos (by simpa only [Bool.or_eq_true, decide_eq_true_eq, Bool.not_eq_true'] using h)

/-- The state in which a stretched read is given up, with `k` bytes of it filled. -/
def State.readGivenUp (s : State) (k : Nat) : State :=
  (((((s.set .I3C_H_BUSY 0 0).set .I3C_H_PDROP 0 0).inc .I3C_H_PLATE).set .I3C_H_LAST 0 (statusCode .timeout)).set
    .I3C_H_RLEFT 0 0).bump .I3C_H_PTR 0 k

theorem exec_indirectTimeout_stretched (hn : s.get .I3C_H_RLEFT ≠ 0) (hr : s.readPending = true) {k : Nat}
    (hk : k = min (s.get .I3C_H_RLEFT) (0xFC - s.get .I3C_H_PTR)) {u : State × List Nat}
    (hu : u = (s.readGivenUp k).pageBytes (s.get .I3C_H_RLEFT - k) (List.replicate k 0xFF)) :
    exec .indirectTimeout s = .next (u.1.i3cSend true u.2) := by
  subst hu hk
  rw [exec_indirectTimeout, execIndirectTimeout]
  exact if_neg (by simp [hn, hr])

theorem State.readGivenUp_get (s : State) (k : Nat) : (s.readGivenUp k).get .I3C_H_BUSY = 0 ∧
    (s.readGivenUp k).get .I3C_H_LAST = statusCode .timeout ∧
    (s.readGivenUp k).get .I3C_H_PTR = (s.get .I3C_H_PTR + k) % 256 ∧
    (s.readGivenUp k).get .I3C_H_IADDR = s.get .I3C_H_IADDR := by
  unfold State.readGivenUp
  simp (disch := decide) only [State.get_bump_ne, State.get_bump_same, State.get_set_ne, State.get_set_same,
    State.get_inc_ne]
  exact ⟨by decide, by decide, rfl, trivial⟩

/-- A stretched read that ends within byte 0xFB leaves no byte of the page to send. -/
theorem exec_indirectTimeout_within {n : Nat} (hn : s.get .I3C_H_RLEFT = n + 1) (hr : s.readPending = true)
    (hp : s.get .I3C_H_PTR + (n + 1) ≤ 0xFC) : ∃ u : State,
    exec .indirectTimeout s = .next (u.i3cSend true (List.replicate (n + 1) 0xFF)) ∧ u.get .I3C_H_BUSY = 0 ∧
      u.get .I3C_H_LAST = statusCode .timeout ∧ u.get .I3C_H_PTR = s.get .I3C_H_PTR + (n + 1) ∧
      u.get .I3C_H_IADDR = s.get .I3C_H_IADDR := by
  obtain ⟨hbusy, hlast, hptr, haddr⟩ := s.readGivenUp_get (n + 1)
  have hu : (s.readGivenUp (n + 1), List.replicate (n + 1) 0xFF) =
      (s.readGivenUp (n + 1)).pageBytes (s.get .I3C_H_RLEFT - (n + 1)) (List.replicate (n + 1) 0xFF) := by
    rw [hn, Nat.sub_self, State.pageBytes]
  exact ⟨s.readGivenUp (n + 1), exec_indirectTimeout_stretched (by omega) hr (by omega) hu, hbusy, hlast,
    hptr.trans (Nat.mod_eq_of_lt (by omega)), haddr⟩

end Indirect

end Sys2Proof.Machine

open Sys2Proof Sys2Proof.Machine

/-- Settles O41: each command of the port is taken apart once, by its own conditions, and a stretched read that is
given up goes on with the rest of the page from the filled bytes. -/
theorem portTransfersComplete : Obligations.PortTransfersComplete := by
  unfold Obligations.PortTransfersComplete
  refine ⟨fun s m hu hm => ⟨exec_cmdSubmit_executing hu, fun hc h₀ hl => ?_, fun hc hb => exec_cmdSubmit_unformed hu hc hm hb⟩,
    fun s p v hu hp hv => ⟨exec_cmdAck_answered hu, exec_pageWrite_cons hu [], exec_pageWrite_pair hu hp hv,
      State.pageStore_readOnly, State.pageStore_notify, State.pageStore_window⟩,
    fun s hu => ⟨exec_pageRead_one hu, ⟨rfl, rfl, rfl, rfl⟩, fun hb hh =>
      ⟨State.reach_issues (.inl rfl) hb hh, State.reach_issues (.inr rfl) hb hh⟩⟩,
    fun s n p rest hu => ⟨exec_cmdAck_idle hu, exec_pageWrite_nil hu, exec_pageWrite_cons hu rest, exec_pageRead_any n hu⟩,
    fun s e n => ⟨exec_indirectComplete_read, exec_indirectComplete_late, exec_indirectTimeout_within⟩,
    fun s e w => ⟨exec_indirectComplete_none, fun hb hm => ?_, fun hb hm hw hwr => ?_, exec_indirectComplete_stale,
      exec_indirectTimeout_idle⟩,
    fun s hn hr k u hk hu => exec_indirectTimeout_stretched hn hr hk hu⟩
  · obtain ⟨hdiscard, hrefuse, haccept⟩ := State.submit_formed hc hm h₀ hl
    rw [exec_cmdSubmit, execCmdSubmit, if_neg (ne_true_of_eq_false hu)]
    split
    case h_1 ha => rw [hdiscard ha]
    case h_2 st ha => rw [hrefuse st ha]
    case h_3 ha => rw [haccept ha]
  · rw [exec_indirectComplete, execIndirectComplete, if_pos (by decide), State.indirectAt]
    dsimp only
    rw [if_neg (by simp [hb]), if_pos hm]
  · subst hwr
    rw [exec_indirectComplete, execIndirectComplete, if_pos (by decide), State.indirectAt]
    dsimp only
    rw [if_neg (by simp [hb]), if_neg (not_not_intro hm), if_pos hw]
end

section
/-! PROOFS. Register writes, pair reads and sticky clears (O23). -/

namespace Sys2Proof.Machine

/-! ### A register write (21_register_map.md R508, R511) -/

section Write
variable {s : State} {a v : Nat} {src : Src}

/-- The commands that write the word `w` to register `a`. -/
def WritesWord (c : Sys2Proof.Instr) (s : State) (a v w : Nat) (src : Src) : Prop :=
  (c = .registerWrite a v src ∧ w = v % 2 ^ 32) ∨ (c = .hiWriteApply a v src ∧ w = v % 2 ^ 32) ∨
    (c = .stickyClear a v src ∧ w = s.rwBits a + (v % 2 ^ 32 &&& stickyBits a))

theorem WritesWord.exec_eq {c : Sys2Proof.Instr} {w : Nat} (h : WritesWord c s a v w src) :
    exec c s = .next (s.registerWrite a w src) := by
  obtain ⟨rfl, rfl⟩ | ⟨rfl, rfl⟩ | ⟨rfl, rfl⟩ := h
  · rw [exec_registerWrite, execRegisterWrite]
  · rw [exec_hiWriteApply, execHiWriteApply]
  · rw [exec_stickyClear, execStickyClear]

theorem State.registerWrite_refused (h : s.regWriteCheck a v src ≠ .ok) (hb : ¬(a = 0x30000 ∧ v.testBit 16 = true)) :
    s.registerWrite a v src = s.answer src (regCode a) (s.regWriteCheck a v src) := by
  unfold State.registerWrite
  dsimp only
  rw [if_pos h, if_neg (by simpa only [Bool.and_eq_true, decide_eq_true_eq] using hb)]

theorem State.registerWrite_bistRefused (h : s.regWriteCheck a v src ≠ .ok) (ha : a = 0x30000)
    (hb : v.testBit 16 = true) : s.registerWrite a v src =
      (s.set .BIST_STATUS_LAST 0 (statusCode (s.regWriteCheck a v src))).answer src (regCode a)
        (s.regWriteCheck a v src) := by
  unfold State.registerWrite
  dsimp only
  rw [if_pos h, if_pos (by simp [ha, hb])]

theorem State.registerWrite_layout (h : s.regWriteCheck a v src = .ok) (hlo : 0x310000 ≤ a) (hhi : a < 0x330000) :
    s.registerWrite a v src = (s.layStore a (leBytes 4 v) src).1.answer src (regCode a)
      (s.layStore a (leBytes 4 v) src).2 := by
  unfold State.registerWrite
  dsimp only
  rw [if_neg (not_not_intro h), if_pos (by simp [hlo, hhi])]

theorem State.registerWrite_comparison (h : s.regWriteCheck a v src = .ok) (hlo : 0x350000 ≤ a)
    (hhi : a < 0x358000) : s.registerWrite a v src = (s.cmpStore a (leBytes 4 v) src).1.answer src (regCode a)
      (s.cmpStore a (leBytes 4 v) src).2 := by
  unfold State.registerWrite
  dsimp only
  rw [if_neg (not_not_intro h), if_neg (by simp; omega), if_pos (by simp [hlo, hhi])]

section Elsewhere
variable (h : s.regWriteCheck a v src = .ok) (hl : ¬(0x310000 ≤ a ∧ a < 0x330000))
  (hc : ¬(0x350000 ≤ a ∧ a < 0x358000))
include h hl hc

/-- Outside the stored windows a write stages a lower half, is recorded, or is made. -/
theorem State.registerWrite_elsewhere : s.registerWrite a v src =
    if loStages a = true ∨ (0x440000 ≤ a ∧ a < 0x440100 ∧ a % 0x10 = 0) then
      (s.regStage a v src.ini).answer src (regCode a) .ok
    else if s.regRecorded a v src = true then
      s.recorded src (regCode a) (.registerWrite a v src) (s.regRec a v src) (effRegisterWrite a v src)
    else s.completed src (regCode a) (effRegisterWrite a v src) := by
  unfold State.registerWrite
  dsimp only
  rw [if_neg (not_not_intro h), if_neg (by simpa only [Bool.and_eq_true, decide_eq_true_eq] using hl),
    if_neg (by simpa only [Bool.and_eq_true, decide_eq_true_eq] using hc)]
  simp only [Bool.or_eq_true, Bool.and_eq_true, decide_eq_true_eq, and_assoc]

theorem State.registerWrite_staged (hs : loStages a = true ∨ (0x440000 ≤ a ∧ a < 0x440100 ∧ a % 0x10 = 0)) :
    s.registerWrite a v src = (s.regStage a v src.ini).answer src (regCode a) .ok := by
  rw [State.registerWrite_elsewhere h hl hc, if_pos hs]

variable (hs : loStages a = false) (hw : ¬(0x440000 ≤ a ∧ a < 0x440100 ∧ a % 0x10 = 0))
include hs hw

theorem State.registerWrite_made (hr : s.regRecorded a v src = false) :
    s.registerWrite a v src = s.completed src (regCode a) (effRegisterWrite a v src) := by
  rw [State.registerWrite_elsewhere h hl hc, if_neg (not_or_intro (ne_true_of_eq_false hs) hw),
    if_neg (ne_true_of_eq_false hr)]

theorem State.registerWrite_recorded (hr : s.regRecorded a v src = true) : s.registerWrite a v src =
    s.recorded src (regCode a) (.registerWrite a v src) (s.regRec a v src) (effRegisterWrite a v src) := by
  rw [State.registerWrite_elsewhere h hl hc, if_neg (not_or_intro (ne_true_of_eq_false hs) hw), if_pos hr]

end Elsewhere

/-! ### The staged half (R511) -/

theorem State.regStage_window {ini : Ini} (hlo : 0x440000 ≤ a) (hhi : a < 0x440100) : s.regStage a v ini =
    s.winStage ((a - 0x440000) / 0x10) ((s.winStaged ((a - 0x440000) / 0x10)).1 / 2 ^ 32 * 2 ^ 32 + v)
      (s.winStaged ((a - 0x440000) / 0x10)).2 := by
  unfold State.regStage
  rw [if_pos (by simp [hlo, hhi])]

theorem State.mem_regStage {ini : Ini} (hw : ¬(0x440000 ≤ a ∧ a < 0x440100)) :
    (⟨ini, a + 4, v⟩ : Latch) ∈ (s.regStage a v ini).mgt.staged := by
  unfold State.regStage
  rw [if_neg (by simpa only [Bool.and_eq_true, decide_eq_true_eq] using hw)]
  exact List.mem_append_right _ (List.mem_singleton_self _)

/-- A recorded change of a session waits in the queue of the audit log, or is refused when the log is closed; the
management processor's is made at once. -/
theorem State.recorded_cases (s : State) (src : Src) (cmd : Nat) (i : Sys2Proof.Instr) (r : AuditRec)
    (eff : State → State) :
    (s.roleOf src ≠ .device → s.auditClosed = false → s.recorded src cmd i r eff =
      { s with sec := { s.sec with queue := s.sec.queue ++ [⟨r, src, some i, false⟩] } }) ∧
    (s.roleOf src ≠ .device → s.auditClosed = true →
      s.recorded src cmd i r eff = (s.inc .SEC_CNT_AUDIT_REFUSED).answer src cmd .state) ∧
    (s.roleOf src = .device → s.recorded src cmd i r eff = s.completed src cmd eff) := by
  refine ⟨fun hd ho => ?_, fun hd ho => ?_, fun hd => ?_⟩ <;> rw [State.recorded]
  · rw [if_neg hd, if_neg (ne_true_of_eq_false ho)]
  · rw [if_neg hd, if_pos ho]
  · rw [if_pos hd]

end Write

/-! ### The read of a lower half (R512) -/

section PairRead
variable {s : State} {a v : Nat} {src : Src}

theorem State.regRead_unreadable (h : s.regReach a false ≠ .ok) : s.regRead a src = (s, s.regReach a false, 0) :=
  if_pos h

theorem State.regRead_rights (h : s.regReach a false = .ok) (hr : s.roleOf src = .none) (ho : openRead a = false) :
    s.regRead a src = (s, .rights, 0) :=
  (if_neg (not_not_intro h)).trans (if_pos (by simp [hr, ho]))

theorem State.regRead_readable (h : s.regReach a false = .ok) (hr : s.roleOf src ≠ .none ∨ openRead a = true) :
    s.regRead a src = ((s.regFetch a src.ini).1, .ok, (s.regFetch a src.ini).2) := by
  have hn : ¬((decide (s.roleOf src = .none) && !openRead a) = true) := fun hb => by
    simp only [Bool.and_eq_true, decide_eq_true_eq, Bool.not_eq_true'] at hb
    exact hr.elim (· hb.1) (ne_true_of_eq_false hb.2)
  exact (if_neg (not_not_intro h)).trans (if_neg hn)

theorem exec_loReadLatch_unreadable (h : s.regReach a false ≠ .ok) :
    exec (.loReadLatch a src) s = .next (s.answer src (regCode a) (s.regReach a false)) := by
  rw [exec_loReadLatch, execLoReadLatch, State.regRead_unreadable h]
  dsimp only
  rw [if_neg h]

theorem exec_loReadLatch_rights (h : s.regReach a false = .ok) (hr : s.roleOf src = .none)
    (ho : openRead a = false) : exec (.loReadLatch a src) s = .next (s.answer src (regCode a) .rights) := by
  rw [exec_loReadLatch, execLoReadLatch, State.regRead_rights h hr ho]
  dsimp only
  rw [if_neg (by decide)]

theorem exec_loReadLatch_readable (h : s.regReach a false = .ok) (hr : s.roleOf src ≠ .none ∨ openRead a = true) :
    exec (.loReadLatch a src) s = .next (((s.regFetch a src.ini).1.emit
      (.reply src (regCode a) (leBytes 4 (s.regFetch a src.ini).2))).answer src (regCode a) .ok) := by
  rw [exec_loReadLatch, execLoReadLatch, State.regRead_readable h hr]
  dsimp only
  rw [if_pos rfl]

theorem State.regFetch_out (s : State) (a : Nat) (ini : Ini) : (s.regFetch a ini).1.out = s.out :=
  (State.regFetch_upd s a ini (masks_self _ _) (.refl _)).parts.out (by decide)

theorem State.mem_regFetch_latches {ini : Ini} (hu : s.upperHalf a = some v) :
    (⟨ini, a + 4, v⟩ : Latch) ∈ (s.regFetch a ini).1.mgt.latches := by
  unfold State.regFetch
  rw [hu]
  dsimp only
  split
  all_goals exact List.mem_append_right _ (List.mem_singleton_self _)

theorem exec_loReadLatch_plain (h : s.regReach a false = .ok) (hr : s.roleOf src ≠ .none ∨ openRead a = true) :
    Answers (.loReadLatch a src) s src (regCode a) .ok fun t =>
      t.out = s.out ++ [.reply src (regCode a) (leBytes 4 (s.regFetch a src.ini).2)] :=
  ⟨_, exec_loReadLatch_readable h hr, congrArg (· ++ _) (s.regFetch_out a src.ini)⟩

theorem exec_loReadLatch_pair (h : s.regReach a false = .ok) (hr : s.roleOf src ≠ .none ∨ openRead a = true)
    (hu : s.upperHalf a = some v) : Answers (.loReadLatch a src) s src (regCode a) .ok fun t =>
      (⟨src.ini, a + 4, v⟩ : Latch) ∈ t.mgt.latches ∧
      t.out = s.out ++ [.reply src (regCode a) (leBytes 4 (s.regFetch a src.ini).2)] :=
  ⟨_, exec_loReadLatch_readable h hr, State.mem_regFetch_latches hu, congrArg (· ++ _) (s.regFetch_out a src.ini)⟩

end PairRead

/-! ### The end of a block's reset (R514) -/

section BlockReset
variable {s : State} {u : Nat}

theorem exec_blockResetDone_pipe (hu : u < 8) : exec (.blockResetDone u) s = .next (s.pipeResetDone u) := by
  rw [exec_blockResetDone, execBlockResetDone, if_pos hu]

theorem exec_blockResetDone_pipe_reset (hu : u < 8) (hr : s.get .PIPE_H_STATE u = 4) :
    Completes (.blockResetDone u) s fun t => t.get .PIPE_H_STATE u = 0 := by
  refine ⟨_, exec_blockResetDone_pipe hu, ?_⟩
  rw [State.pipeResetDone, if_pos hr]
  exact State.get_set_same ..

theorem exec_blockResetDone_pipe_other (hu : u < 8) (hr : s.get .PIPE_H_STATE u ≠ 4) :
    exec (.blockResetDone u) s = .next s := by
  rw [exec_blockResetDone_pipe hu, State.pipeResetDone, if_neg hr]

theorem exec_blockResetDone_unit (hu : 8 ≤ u) (hm : u ≠ 16) :
    Completes (.blockResetDone u) s fun t => t.get .PWR_H_RESETTING u = 0 := by
  refine ⟨_, by rw [exec_blockResetDone, execBlockResetDone, if_neg (by omega), if_neg hm], State.get_set_same ..⟩

theorem exec_blockResetDone_memory (hu : u = 16) : exec (.blockResetDone u) s = .next s := by
  rw [exec_blockResetDone, execBlockResetDone, if_neg (by omega), if_pos hu]

end BlockReset

end Sys2Proof.Machine

open Sys2Proof Sys2Proof.Machine

/-- Settles O23: the three commands make one register write, whose branches are taken in R508's order. -/
theorem registerCommandsComplete : Obligations.RegisterCommandsComplete := by
  unfold Obligations.RegisterCommandsComplete
  refine ⟨fun a v src s c w hc => ?_, fun a v src s c w hc hok hl hp hs hw => ?_,
    fun a v src s hok hl hp hs hw hr => ?_,
    ⟨fun a v src s hok hlo hhi hm => ?_, fun a v src s hok hs hl hp hw => ?_⟩,
    fun a v src s => ⟨exec_loReadLatch_unreadable, exec_loReadLatch_rights,
      fun hok hr _ => exec_loReadLatch_plain hok hr, exec_loReadLatch_pair⟩,
    fun u s => ⟨exec_blockResetDone_pipe_reset, exec_blockResetDone_pipe_other, exec_blockResetDone_unit,
      exec_blockResetDone_memory⟩⟩
  · rw [WritesWord.exec_eq hc]
    exact ⟨fun h hb => congrArg _ (State.registerWrite_refused h hb),
      fun h ha hb => congrArg _ (State.registerWrite_bistRefused h ha hb),
      fun h hlo hhi => congrArg _ (State.registerWrite_layout h hlo hhi),
      fun h hlo hhi => congrArg _ (State.registerWrite_comparison h hlo hhi)⟩
  · rw [WritesWord.exec_eq hc]
    exact ⟨fun hr => congrArg _ (State.registerWrite_made hok hl hp hs hw hr),
      fun hr => congrArg _ (State.registerWrite_recorded hok hl hp hs hw hr)⟩
  · rw [exec_registerWrite, execRegisterWrite, State.registerWrite_recorded hok hl hp hs hw hr]
    obtain ⟨hqueued, hclosed, hmade⟩ := s.recorded_cases src (regCode a) (.registerWrite a (v % 2 ^ 32) src)
      (s.regRec a (v % 2 ^ 32) src) (effRegisterWrite a (v % 2 ^ 32) src)
    exact ⟨fun hd ho => congrArg _ (hqueued hd ho), fun hd ho => congrArg _ (hclosed hd ho),
      fun hd => congrArg _ (hmade hd)⟩
  · dsimp only
    rw [exec_registerWrite, execRegisterWrite,
      State.registerWrite_staged hok (by omega) (by omega) (.inr ⟨hlo, hhi, hm⟩), State.regStage_window hlo hhi]
  · refine ⟨s.regStage a (v % 2 ^ 32) src.ini, ?_, State.mem_regStage hw⟩
    rw [exec_registerWrite, execRegisterWrite, State.registerWrite_staged hok hl hp (.inl hs)]
end

section
/-! PROOFS. The operations of a lane: what each writes, and what it leaves of the lane's cells (02_lane_complex.md). -/

namespace Sys2Proof.Machine

/-! ### Flags, state and role of a lane -/

section Flags
variable {s : State} {f g : Fld} {n i j v : Nat}

theorem State.on_eq_true_iff : s.on f i = true ↔ s.get f i ≠ 0 := bne_iff_ne

theorem State.on_eq_false_iff : s.on f i = false ↔ s.get f i = 0 := bne_eq_false_iff_eq

theorem State.on_set_ne (h : f.id ≠ g.id) : (s.set f i v).on g j = s.on g j :=
  congrArg (· != 0) (State.get_set_ne _ _ _ _ _ _ h)

theorem State.on_set_same : (s.set f i v).on f i = (v % 2 ^ f.width != 0) :=
  congrArg (· != 0) (State.get_set_same ..)

theorem State.laneState_set_ne (h : f.id ≠ Fld.LANE_STATUS_STATE.id) : (s.set f i v).laneState n = s.laneState n :=
  State.get_set_ne _ _ _ _ _ _ h

theorem State.laneState_set_same (h : v < 8) : (s.set .LANE_STATUS_STATE n v).laneState n = v :=
  (State.get_set_same ..).trans (Nat.mod_eq_of_lt h)

theorem State.isEgress_set_ne (h : f.id ≠ Fld.LANE_ID_ROLE.id) : (s.set f i v).isEgress n = s.isEgress n :=
  congrArg (· == 2) (State.get_set_ne _ _ _ _ _ _ h)

theorem State.isEgress_eq_true (h : s.get .LANE_ID_ROLE n = 2) : s.isEgress n = true := beq_iff_eq.mpr h

theorem State.isEgress_eq_false (h : s.get .LANE_ID_ROLE n ≠ 2) : s.isEgress n = false := beq_eq_false_iff_ne.mpr h

end Flags

/-! ### Events, reasons, rung 0 and DETECT (R34, R43, R47, R57) -/

section Operations
variable (s : State) {f : Fld} (n i : Nat)

theorem State.laneEvent_get (k : Nat) (hp : f.page ≠ 0) (he : Fld.LANE_EVENTS_EV.id ≠ f.id) :
    (s.laneEvent n k).get f i = s.get f i :=
  State.sticky_get _ _ _ _ _ _ _ _ _ _ _ _ _ hp he

theorem State.exclude_get (r : Nat) (hp : f.page ≠ 0) (hx : Fld.LANE_STATUS_EXCLUDED.id ≠ f.id)
    (he : Fld.LANE_EVENTS_EV.id ≠ f.id) : (s.exclude n r).get f i = s.get f i :=
  (State.laneEvent_get _ _ _ _ hp he).trans (State.get_setBit_ne _ _ _ _ _ _ hx)

theorem State.reason_get (r : Nat) (hl : Fld.LANE_REASON_LAST.id ≠ f.id) (hr : Fld.LANE_REASON_RUNG.id ≠ f.id) :
    (s.reason n r).get f i = s.get f i :=
  (State.get_set_ne _ _ _ _ _ _ hr).trans (State.get_set_ne _ _ _ _ _ _ hl)

theorem State.reason_last (r : Nat) : (s.reason n r).get .LANE_REASON_LAST n = r % 2 ^ 8 :=
  (State.get_set_ne _ _ _ _ _ _ (by decide)).trans (State.get_set_same ..)

@[simp] theorem State.loadEq_get (r : Nat) : (s.loadEq n r).get f i = s.get f i := rfl

@[simp] theorem State.sayDetect_get : (s.sayDetect n).get f i = s.get f i := rfl

@[simp] theorem State.rclkPin_get (v : Nat) : (s.rclkPin n v).get f i = s.get f i := by
  unfold State.rclkPin
  split <;> rfl

theorem State.toRung0_get (hr : Fld.LANE_STATUS_RUNG.id ≠ f.id) (hc : Fld.LANE_STATUS_CDR_LOCK.id ≠ f.id) :
    (s.toRung0 n).get f i = s.get f i := by
  rw [State.toRung0, State.loadEq_get, State.get_set_ne _ _ _ _ _ _ hr]
  split
  · rfl
  · exact State.get_set_ne _ _ _ _ _ _ hc

theorem State.toRung0_rung : (s.toRung0 n).get .LANE_STATUS_RUNG n = 0 := by
  rw [State.toRung0, State.loadEq_get, State.get_set_same, Nat.zero_mod]

variable {s n} in
/-- A CDR that is not locked stays so. -/
theorem State.toRung0_unlocked (h : s.get .LANE_STATUS_CDR_LOCK n = 0) :
    (s.toRung0 n).get .LANE_STATUS_CDR_LOCK n = 0 := by
  rw [State.toRung0, State.loadEq_get, State.get_set_ne _ _ _ _ _ _ (by decide)]
  split
  · exact h
  · exact (State.get_set_same ..).trans (Nat.zero_mod _)

/-- The cells that entering DETECT clears, beside rung and CDR lock. -/
def detectCleared : List Fld := [.LANE_H_LTS_RUN, .LANE_H_ACK_RUN, .LANE_H_STEP_RUN, .LANE_H_STEP_SENT,
  .LANE_H_OFFS_DONE, .LANE_H_BLOCK, .LANE_H_RETURN]

/-- A lane whose counting has begun anew and that is in DETECT, before its rung is chosen. -/
def State.detectEntered (s : State) (n : Nat) : State :=
  (detectCleared.foldl (fun s f => s.set f n 0) s).set .LANE_STATUS_STATE n laneDetect

theorem State.detectEntered_get (h : ∀ g ∈ Fld.LANE_STATUS_STATE :: detectCleared, g.id ≠ f.id) :
    (s.detectEntered n).get f i = s.get f i :=
  (State.get_set_ne _ _ _ _ _ _ (h _ List.mem_cons_self)).trans
    (State.foldl_set_get_ne (fun g hg => h g (List.mem_cons_of_mem _ hg)) _ _ _ _)

theorem State.detectEntered_state : (s.detectEntered n).laneState n = laneDetect :=
  State.laneState_set_same (by decide)

theorem State.enterDetect_egress (h : s.get .LANE_ID_ROLE n = 2) :
    s.enterDetect n = ((s.detectEntered n).set .LANE_STATUS_RUNG n 3).loadEq n 3 :=
  if_pos (State.isEgress_eq_true ((State.detectEntered_get s n n (by decide)).trans h))

theorem State.enterDetect_trained (h : s.get .LANE_ID_ROLE n ≠ 2) :
    s.enterDetect n = ((s.detectEntered n).toRung0 n).sayDetect n :=
  have hrole : (s.detectEntered n).get .LANE_ID_ROLE n ≠ 2 := by rwa [State.detectEntered_get s n n (by decide)]
  if_neg (ne_true_of_eq_false (State.isEgress_eq_false hrole))

/-- Entering DETECT changes, beside what it clears, state, rung and CDR lock alone. -/
theorem State.enterDetect_get (hr : Fld.LANE_STATUS_RUNG.id ≠ f.id) (hc : Fld.LANE_STATUS_CDR_LOCK.id ≠ f.id)
    (h : ∀ g ∈ Fld.LANE_STATUS_STATE :: detectCleared, g.id ≠ f.id) : (s.enterDetect n).get f i = s.get f i := by
  by_cases he : s.get .LANE_ID_ROLE n = 2
  · rw [State.enterDetect_egress s n he, State.loadEq_get, State.get_set_ne _ _ _ _ _ _ hr,
      State.detectEntered_get s n i h]
  · rw [State.enterDetect_trained s n he, State.sayDetect_get, State.toRung0_get _ _ _ hr hc,
      State.detectEntered_get s n i h]

theorem State.enterDetect_state : (s.enterDetect n).laneState n = laneDetect := by
  by_cases he : s.get .LANE_ID_ROLE n = 2
  · rw [State.enterDetect_egress s n he]
    rw [State.laneState, State.loadEq_get, State.get_set_ne _ _ _ _ _ _ (by decide)]
    exact s.detectEntered_state n
  · rw [State.enterDetect_trained s n he, State.laneState, State.sayDetect_get,
      State.toRung0_get _ _ _ (by decide) (by decide)]
    exact s.detectEntered_state n

theorem State.enterDetect_rung (he : s.get .LANE_ID_ROLE n ≠ 2) : (s.enterDetect n).get .LANE_STATUS_RUNG n = 0 := by
  rw [State.enterDetect_trained s n he, State.sayDetect_get, State.toRung0_rung]

variable {s n} in
theorem State.enterDetect_unlocked (he : s.get .LANE_ID_ROLE n ≠ 2) (h : s.get .LANE_STATUS_CDR_LOCK n = 0) :
    (s.enterDetect n).get .LANE_STATUS_CDR_LOCK n = 0 := by
  rw [State.enterDetect_trained s n he, State.sayDetect_get,
    State.toRung0_unlocked ((s.detectEntered_get n n (by decide)).trans h)]

/-! ### BACKOFF (R43, R45) -/

theorem State.backoff_state (r : Nat) : (s.backoff n r).laneState n = laneBackoff := by
  rw [State.backoff, State.laneState, State.toRung0_get _ _ _ (by decide) (by decide),
    State.get_set_ne _ _ _ _ _ _ (by decide), State.get_set_ne _ _ _ _ _ _ (by decide)]
  exact State.laneState_set_same (by decide)

theorem State.backoff_last (r : Nat) : (s.backoff n r).get .LANE_REASON_LAST n = r % 2 ^ 8 := by
  unfold State.backoff
  rw [State.toRung0_get _ _ _ (by decide) (by decide), State.get_set_ne _ _ _ _ _ _ (by decide),
    State.get_set_ne _ _ _ _ _ _ (by decide), State.get_set_ne _ _ _ _ _ _ (by decide),
    State.laneEvent_get _ _ _ _ (by decide) (by decide), State.get_inc_ne _ _ _ _ _ (by decide),
    State.get_inc_ne _ _ _ _ _ (by decide), State.reason_last]

/-! ### ACTIVE is left (R43, R44) -/

/-- The cells of the lane complex that change when a lane goes down. -/
def laneDownCells : List Fld := [.LANE_CNT_LOS, .LANE_EVENTS_EV, .LANE_EYE_STATUS_BUSY, .LANE_EYE_STATUS_ABORTED,
  .LANE_EYE_STATUS_ABORT_REASON, .LANE_STATUS_TX_NAP, .LANE_STATUS_RX_NAP, .LANE_H_TRIM]

/-- What the owning block does when its lane goes down leaves the lane complex. -/
theorem State.laneDown_get (hp : f.page = 16) (h : ∀ g ∈ laneDownCells, g.id ≠ f.id) :
    (s.laneDown n).get f i = s.get f i := by
  have hpage : f.page ≠ 0 := by omega
  unfold State.laneDown
  extract_lets s₁ s₂ s₃
  have h₁ : s₁.get f i = s.get f i := by
    unfold s₁
    rw [State.rclkPin_get, State.laneEvent_get _ _ _ _ hpage (h _ (by decide)),
      State.get_inc_ne _ _ _ _ _ (h _ (by decide))]
  have h₂ : s₂.get f i = s₁.get f i := by
    unfold s₂
    split
    · rw [State.eyeAbort, State.get_set_ne _ _ _ _ _ _ (h _ (by decide)),
        State.get_set_ne _ _ _ _ _ _ (h _ (by decide)), State.get_set_ne _ _ _ _ _ _ (h _ (by decide))]
    · rfl
  have h₃ : s₃.get f i = s₂.get f i := State.foldl_set_get_ne (fun g hg => h g (by
    simp only [List.mem_cons, List.not_mem_nil, or_false] at hg
    obtain rfl | rfl | rfl := hg <;> decide)) _ _ _ _
  refine Eq.trans ?_ (h₃.trans (h₂.trans h₁))
  split
  · exact (State.ingLaneDown_upd _ _ (masks_self _ _) (.refl _)).cells _ _ (by rw [hp]; decide)
  · exact ((State.jobAnswers_upd _ (masks_self _ _) (.refl _)).cells _ _ (by rw [hp]; decide)).trans
      ((State.fabLaneDown_upd _ _ (masks_self _ _) (.refl _)).cells _ _ (by rw [hp]; decide))
  · rfl

theorem State.leaveActive_state (r : Nat) : (s.leaveActive n r).laneState n = laneDetect := by
  rw [State.leaveActive, State.enterDetect_state]

theorem State.leaveActive_rung (r : Nat) (h : s.get .LANE_ID_ROLE n ≠ 2) :
    (s.leaveActive n r).get .LANE_STATUS_RUNG n = 0 := by
  rw [State.leaveActive]
  refine State.enterDetect_rung _ _ ?_
  have hrole : (s.reason n r).get .LANE_ID_ROLE n = s.get .LANE_ID_ROLE n :=
    State.reason_get _ _ _ _ (by decide) (by decide)
  rw [State.laneDown_get _ _ _ (by decide) (by decide), if_neg (hrole ▸ h)]
  split
  · rwa [State.get_set_ne _ _ _ _ _ _ (by decide), hrole]
  · rwa [State.exclude_get _ _ _ _ (by decide) (by decide) (by decide), hrole]

/-! ### The lane comes up (R43, R46) -/

/-- The cells that a lane that comes up clears. -/
def upCleared : List Fld := [.LANE_H_STABLE, .LANE_H_RESUME, .LANE_H_VERD_L, .LANE_H_VERD_P, .LANE_IDLE_IDLE_MS,
    .LANE_IDLE_DTJ]

/-- The lane is ACTIVE, and its owning block has not learned of it yet. -/
def State.laneRisen (s : State) (n : Nat) : State :=
  ((((((upCleared.foldl (fun s f => s.set f n 0) s).laneEvent n 3).rclkPin n 1).set .LANE_STATUS_STATE n laneActive).set
    .LANE_H_LIMIT n 4).set .LANE_H_IDLE n 0)

theorem State.laneRisen_state : (s.laneRisen n).laneState n = laneActive := by
  rw [State.laneRisen, State.laneState_set_ne (by decide), State.laneState_set_ne (by decide),
    State.laneState_set_same (by decide)]

theorem State.laneRisen_get (hp : f.page ≠ 0)
    (h : ∀ g ∈ [Fld.LANE_EVENTS_EV, .LANE_STATUS_STATE, .LANE_H_LIMIT, .LANE_H_IDLE] ++ upCleared, g.id ≠ f.id) :
    (s.laneRisen n).get f i = s.get f i := by
  rw [State.laneRisen, State.get_set_ne _ _ _ _ _ _ (h _ (by decide)), State.get_set_ne _ _ _ _ _ _ (h _ (by decide)),
    State.get_set_ne _ _ _ _ _ _ (h _ (by decide)), State.rclkPin_get, State.laneEvent_get _ _ _ _ hp (h _ (by decide))]
  exact State.foldl_set_get_ne (fun g hg => h g (List.mem_append_right _ hg)) _ _ _ _

theorem State.laneRisen_role : (s.laneRisen n).get .LANE_ID_ROLE n = s.get .LANE_ID_ROLE n :=
  s.laneRisen_get n n (by decide) (by decide)

/-- The block that owns a lane learns that the lane is ACTIVE. -/
def State.ownerLearns (s : State) (n role : Nat) : State :=
  match role with
  | 1 => s.ingLaneUp n
  | 3 => ((s.fabLaneUp n).jobAnswers).matchRungs n
  | _ => s

theorem State.laneUp_eq : s.laneUp n = (s.laneRisen n).ownerLearns n (s.get .LANE_ID_ROLE n) :=
  s.laneRisen_role n ▸ rfl

variable {n} in
theorem State.laneUp_egress (h : s.get .LANE_ID_ROLE n = 2) : s.laneUp n = s.laneRisen n := by
  rw [State.laneUp_eq, h]
  rfl

variable {n} in
theorem State.laneUp_ingress (h : s.get .LANE_ID_ROLE n = 1) : s.laneUp n = (s.laneRisen n).ingLaneUp n := by
  rw [State.laneUp_eq, h]
  rfl

end Operations

/-! ### Trim passes (R50, R53, R56) -/

section Trim
variable {s : State} {f : Fld} {n : Nat}

/-- The cells that a trim pass changes as it starts. -/
def trimCells : List Fld := [.LANE_H_TRIM, .LANE_EYE_STATUS_RESTARTS, .LANE_EYE_ERR, .LANE_EVENTS_EV]

theorem State.eyePreempt_get (i : Nat) (hp : f.page ≠ 0)
    (h : ∀ g ∈ [Fld.LANE_EYE_STATUS_RESTARTS, .LANE_EYE_ERR, .LANE_EVENTS_EV], g.id ≠ f.id) :
    (s.eyePreempt n).get f i = s.get f i := by
  unfold State.eyePreempt
  split
  · rw [State.laneEvent_get _ _ _ _ hp (h _ (by decide)), State.get_set_ne _ _ _ _ _ _ (h _ (by decide)),
      State.get_inc_ne _ _ _ _ _ (h _ (by decide))]
  · rfl

theorem State.trimIfDue_get (i : Nat) (hp : f.page ≠ 0) (h : ∀ g ∈ trimCells, g.id ≠ f.id) :
    (s.trimIfDue n).get f i = s.get f i := by
  unfold State.trimIfDue
  split
  · rw [State.laneEvent_get _ _ _ _ hp (h _ (by decide)),
      State.eyePreempt_get _ hp fun g hg => h g (List.mem_cons_of_mem _ hg),
      State.get_set_ne _ _ _ _ _ _ (h _ (by decide))]
  · rfl

theorem State.trimIfDue_not (h : s.trimDue n = false) : s.trimIfDue n = s := if_neg (by simp [h])

theorem State.trimIfDue_starts (h : s.trimDue n = true) (hn : s.on .LANE_STATUS_RX_NAP n = false)
    (ht : s.on .LANE_H_TRIM n = false) : (s.trimIfDue n).get .LANE_H_TRIM n = 1 := by
  rw [State.trimIfDue, if_pos (by simp [h, hn, ht]), State.laneEvent_get _ _ _ _ (by decide) (by decide),
    State.eyePreempt_get _ (by decide) (by decide), State.get_set_same]
  rfl

end Trim

/-! ### The conditions to negotiate, to come up and to verify (R31, R43, R46) -/

section Conditions
variable {s : State} {n : Nat}

theorem State.tryEgress_other (h : s.laneState n ≠ laneDetect) : s.tryEgress n = s := if_neg (by simp [h])

theorem State.tryEgress_trained (h : s.isEgress n = false) : s.tryEgress n = s := if_neg (by simp [h])

theorem State.tryEgress_ready (he : s.isEgress n = true) (hd : s.laneState n = laneDetect)
    (hs : s.on .LANE_STATUS_SIG n = true) (hc : s.on .LANE_STATUS_CDR_LOCK n = true) : s.tryEgress n = s.laneUp n :=
  if_pos (by simp [he, hd, hs, hc])

theorem State.tryNegotiate_other (h : s.laneState n ≠ laneDetect) (hr : s.on .LANE_H_RETURN n = false) :
    s.tryNegotiate n = s := by
  rw [State.tryNegotiate]
  exact (if_neg (by simp [h])).trans (if_neg (by simp [hr]))

theorem State.tryNegotiate_early (h : s.get .LANE_H_LTS_RUN n < 4) (hr : s.on .LANE_H_RETURN n = false) :
    s.tryNegotiate n = s := by
  rw [State.tryNegotiate]
  exact (if_neg (by simp; omega)).trans (if_neg (by simp [hr]))

theorem State.tryNegotiate_ready (hd : s.laneState n = laneDetect) (hs : s.on .LANE_STATUS_SIG n = true)
    (hc : s.on .LANE_STATUS_CDR_LOCK n = true) (ho : s.on .LANE_H_OFFS_DONE n = true)
    (hl : 4 ≤ s.get .LANE_H_LTS_RUN n) :
    s.tryNegotiate n = s.enterNegotiate n :=
  if_pos (by simp [hd, hs, hc, ho, hl])

theorem State.tryVerify_other (h : s.laneState n ≠ laneStep ∨ s.on .LANE_STATUS_CDR_LOCK n = false) :
    s.tryVerify n = s :=
  if_neg (by rcases h with h | h <;> simp [h])

theorem State.tryVerify_ready (hd : s.laneState n = laneStep) (hr : s.on .LANE_H_RETURN n = false)
    (hc : s.on .LANE_STATUS_CDR_LOCK n = true) (hb : s.on .LANE_H_BLOCK n = true) :
    s.tryVerify n = s.set .LANE_STATUS_STATE n laneVerify :=
  if_pos (by simp [hd, hr, hc, hb])

/-- The cells that entering NEGOTIATE clears. -/
def negotiateCleared : List Fld := [.LANE_H_RETURN, .LANE_H_STEP_SENT, .LANE_H_STEP_RUN, .LANE_H_ACK_RUN,
    .LANE_H_RUNG_AGREED]

/-- A lane in NEGOTIATE, before its offset and its side are looked at. -/
def State.negotiateEntered (s : State) (n : Nat) : State :=
  negotiateCleared.foldl (fun s f => s.set f n 0) (s.set .LANE_STATUS_STATE n laneNegotiate)

theorem State.negotiateEntered_state : (s.negotiateEntered n).laneState n = laneNegotiate :=
  (State.foldl_set_get_ne (by decide) _ _ _ _).trans (State.laneState_set_same (by decide))

theorem State.negotiateEntered_on {f : Fld} (h : ∀ g ∈ Fld.LANE_STATUS_STATE :: negotiateCleared, g.id ≠ f.id) :
    (s.negotiateEntered n).on f n = s.on f n :=
  congrArg (· != 0) <| (State.foldl_set_get_ne (fun g hg => h g (List.mem_cons_of_mem _ hg)) _ _ _ _).trans
    (State.get_set_ne _ _ _ _ _ _ (h _ List.mem_cons_self))

theorem State.enterNegotiate_offset (h : s.on .LANE_H_OFFS_BAD n = true) :
    s.enterNegotiate n = (s.negotiateEntered n).backoff n Reason.freqOffset :=
  if_pos ((State.negotiateEntered_on (by decide)).trans h)

theorem State.enterNegotiate_follower (h : s.on .LANE_H_OFFS_BAD n = false) (hl : s.on .LANE_STATUS_LEADER n = false) :
    s.enterNegotiate n = s.negotiateEntered n :=
  (if_neg (ne_true_of_eq_false ((State.negotiateEntered_on (by decide)).trans h))).trans
    (if_neg (ne_true_of_eq_false ((State.negotiateEntered_on (by decide)).trans hl)))

end Conditions

end Sys2Proof.Machine
end

section
/-! PROOFS. Signal, CDR lock and frequency offset of a lane (O11). -/

namespace Sys2Proof.Machine

/-! ### Signal appears (02_lane_complex.md R43, R46, R52, R53) -/

section Signal
variable {s : State} {f : Fld} {n : Nat}

/-- The lane sees a signal and naps no more. -/
def State.signalled (s : State) (n : Nat) : State := (s.set .LANE_STATUS_SIG n 1).set .LANE_STATUS_RX_NAP n 0

theorem State.signalled_get (i : Nat) (hs : Fld.LANE_STATUS_SIG.id ≠ f.id) (hn : Fld.LANE_STATUS_RX_NAP.id ≠ f.id) :
    (s.signalled n).get f i = s.get f i := by
  rw [State.signalled, State.get_set_ne _ _ _ _ _ _ hn, State.get_set_ne _ _ _ _ _ _ hs]

theorem State.signalled_sig : (s.signalled n).get .LANE_STATUS_SIG n = 1 := by
  rw [State.signalled, State.get_set_ne _ _ _ _ _ _ (by decide), State.get_set_same]
  rfl

theorem State.signalled_nap : (s.signalled n).get .LANE_STATUS_RX_NAP n = 0 :=
  (State.get_set_same ..).trans (Nat.zero_mod _)

theorem State.signalled_state : (s.signalled n).laneState n = s.laneState n :=
  State.signalled_get _ (by decide) (by decide)

theorem State.fabUnhold_awake {p : Nat} (h : s.portState p ≠ portAsleep) : s.fabUnhold p = s := if_pos h

/-- Signal on a lane that does not nap and whose port is awake. -/
theorem exec_signalDetect_awake (hp : s.get .LANE_ID_ROLE n ≠ 3 ∨ s.portState (lanePort n) ≠ portAsleep)
    (hn : s.on .LANE_STATUS_RX_NAP n = false) : exec (.signalDetect n) s =
      .next (if s.isEgress n then (s.signalled n).tryEgress n else (s.signalled n).tryNegotiate n) := by
  have hport : (if (s.signalled n).get .LANE_ID_ROLE n = 3 then (s.signalled n).fabUnhold (lanePort n)
      else s.signalled n) = s.signalled n := by
    rw [State.signalled_get _ (by decide) (by decide)]
    split
    · next h3 =>
      refine State.fabUnhold_awake ?_
      rw [State.portState, State.signalled_get _ (by decide) (by decide)]
      exact hp.resolve_left (not_not_intro h3)
    · rfl
  have hrole : (s.signalled n).isEgress n = s.isEgress n := by
    rw [State.isEgress, State.signalled_get _ (by decide) (by decide), State.isEgress]
  rw [exec_signalDetect, execSignalDetect, ← State.signalled, hn, if_neg Bool.false_ne_true, hport, hrole]

theorem exec_signalDetect_other (hp : s.get .LANE_ID_ROLE n ≠ 3 ∨ s.portState (lanePort n) ≠ portAsleep)
    (hs : s.laneState n ≠ laneDetect) (hn : s.on .LANE_STATUS_RX_NAP n = false) (hr : s.on .LANE_H_RETURN n = false) :
    exec (.signalDetect n) s = .next (s.signalled n) := by
  have hstate : (s.signalled n).laneState n ≠ laneDetect := by rwa [State.signalled_state]
  have hreturn : (s.signalled n).on .LANE_H_RETURN n = false :=
    (congrArg (· != 0) (State.signalled_get n (by decide) (by decide))).trans hr
  rw [exec_signalDetect_awake hp hn, State.tryEgress_other hstate, State.tryNegotiate_other hstate hreturn, ite_self]

theorem exec_signalDetect_egress (he : s.get .LANE_ID_ROLE n = 2) (hd : s.laneState n = laneDetect)
    (hc : s.get .LANE_STATUS_CDR_LOCK n = 1) (hn : s.on .LANE_STATUS_RX_NAP n = false) :
    exec (.signalDetect n) s = .next ((s.signalled n).laneRisen n) := by
  have hrole : (s.signalled n).get .LANE_ID_ROLE n = 2 := (State.signalled_get _ (by decide) (by decide)).trans he
  have hsig : (s.signalled n).on .LANE_STATUS_SIG n = true := State.on_eq_true_iff.mpr (by
    rw [State.signalled_sig]; decide)
  have hcdr : (s.signalled n).on .LANE_STATUS_CDR_LOCK n = true := State.on_eq_true_iff.mpr (by
    rw [State.signalled_get _ (by decide) (by decide), hc]; decide)
  rw [exec_signalDetect_awake (.inl (by omega)) hn, if_pos (State.isEgress_eq_true he),
    State.tryEgress_ready (State.isEgress_eq_true hrole) (State.signalled_state.trans hd) hsig hcdr,
    State.laneUp_egress _ hrole]

/-- Signal ends a nap, and a trim pass that fell due in it begins. -/
theorem exec_signalDetect_wakes (hf : s.get .LANE_ID_ROLE n ≠ 3) (ha : s.laneState n = laneActive)
    (hn : s.on .LANE_STATUS_RX_NAP n = true) (hr : s.on .LANE_H_RETURN n = false) :
    exec (.signalDetect n) s = .next ((s.signalled n).trimIfDue n) := by
  have hget : ∀ f, f.page ≠ 0 → (∀ g ∈ trimCells ++ [.LANE_STATUS_SIG, .LANE_STATUS_RX_NAP], g.id ≠ f.id) →
      ((s.signalled n).trimIfDue n).get f n = s.get f n := fun f hp h =>
    (State.trimIfDue_get _ hp fun g hg => h g (List.mem_append_left _ hg)).trans
      (State.signalled_get _ (h _ (by decide)) (h _ (by decide)))
  have hstate : ((s.signalled n).trimIfDue n).laneState n ≠ laneDetect := by
    rw [State.laneState, hget _ (by decide) (by decide), ← State.laneState, ha]; decide
  have hreturn : ((s.signalled n).trimIfDue n).on .LANE_H_RETURN n = false :=
    (congrArg (· != 0) (hget _ (by decide) (by decide))).trans hr
  rw [exec_signalDetect, execSignalDetect, ← State.signalled, hn, if_pos rfl,
    if_neg (c := State.get _ _ _ = 3) (by rwa [hget _ (by decide) (by decide)]),
    State.tryEgress_other hstate, State.tryNegotiate_other hstate hreturn, ite_self]

theorem State.signalled_trimDue (ha : s.laneState n = laneActive) (hi : 600000 ≤ s.get .LANE_IDLE_IDLE_MS n) :
    (s.signalled n).trimDue n = true := by
  rw [State.trimDue, State.signalled_state, State.signalled_get _ (by decide) (by decide), ha]
  simp [hi]

end Signal

/-! ### Signal is lost (R43, R44, R52) -/

section Loss
variable {s : State} {f : Fld} {n : Nat}

/-- Neither signal nor CDR lock, and the runs begin anew. -/
def State.signalLost (s : State) (n : Nat) : State :=
  ((s.set .LANE_STATUS_SIG n 0).set .LANE_STATUS_CDR_LOCK n 0).ltsBroken n

theorem State.signalLost_get (i : Nat) (h : ∀ g ∈ [Fld.LANE_STATUS_SIG, .LANE_STATUS_CDR_LOCK, .LANE_H_LTS_RUN,
    .LANE_H_OFFS_DONE], g.id ≠ f.id) : (s.signalLost n).get f i = s.get f i := by
  rw [State.signalLost, State.ltsBroken, State.get_set_ne _ _ _ _ _ _ (h _ (by decide)),
    State.get_set_ne _ _ _ _ _ _ (h _ (by decide)), State.get_set_ne _ _ _ _ _ _ (h _ (by decide)),
    State.get_set_ne _ _ _ _ _ _ (h _ (by decide))]

theorem State.signalLost_sig : (s.signalLost n).get .LANE_STATUS_SIG n = 0 := by
  rw [State.signalLost, State.ltsBroken, State.get_set_ne _ _ _ _ _ _ (by decide),
    State.get_set_ne _ _ _ _ _ _ (by decide), State.get_set_ne _ _ _ _ _ _ (by decide), State.get_set_same,
    Nat.zero_mod]

theorem State.signalLost_cdr : (s.signalLost n).get .LANE_STATUS_CDR_LOCK n = 0 := by
  rw [State.signalLost, State.ltsBroken, State.get_set_ne _ _ _ _ _ _ (by decide),
    State.get_set_ne _ _ _ _ _ _ (by decide), State.get_set_same, Nat.zero_mod]

theorem exec_lossOfSignal_napping (h : s.on .LANE_STATUS_RX_NAP n = true) : exec (.lossOfSignal n) s = .next s :=
  if_pos h

theorem exec_lossOfSignal_awake (h : s.on .LANE_STATUS_RX_NAP n = false) : exec (.lossOfSignal n) s =
    .next (if s.laneState n = laneActive then (s.signalLost n).leaveActive n Reason.los
      else if s.laneState n = laneNegotiate ∨ s.laneState n = laneStep ∨ s.laneState n = laneVerify then
        ((s.signalLost n).reason n Reason.los).enterDetect n
      else s.signalLost n) := by
  have hstate : (s.signalLost n).laneState n = s.laneState n := State.signalLost_get _ (by decide)
  rw [exec_lossOfSignal, execLossOfSignal, if_neg (ne_true_of_eq_false h), ← State.signalLost]
  dsimp only
  simp only [hstate, Bool.or_eq_true, decide_eq_true_eq, or_assoc]

theorem exec_lossOfSignal_idle (h : s.on .LANE_STATUS_RX_NAP n = false)
    (hs : s.laneState n = laneDisabled ∨ s.laneState n = laneDetect ∨ s.laneState n = laneBackoff) :
    exec (.lossOfSignal n) s = .next (s.signalLost n) := by
  have hnot : s.laneState n ≠ laneActive ∧ s.laneState n ≠ laneNegotiate ∧ s.laneState n ≠ laneStep ∧
      s.laneState n ≠ laneVerify := by
    rcases hs with hs | hs | hs <;> simp [hs]
  rw [exec_lossOfSignal_awake h, if_neg hnot.1, if_neg (by simp [hnot])]

theorem exec_lossOfSignal_training (h : s.on .LANE_STATUS_RX_NAP n = false) (he : s.get .LANE_ID_ROLE n ≠ 2)
    (hs : s.laneState n = laneNegotiate ∨ s.laneState n = laneStep ∨ s.laneState n = laneVerify) :
    Completes (.lossOfSignal n) s fun t =>
      t.laneState n = laneDetect ∧ t.get .LANE_REASON_LAST n = 1 ∧ t.get .LANE_STATUS_SIG n = 0 ∧
      t.get .LANE_STATUS_CDR_LOCK n = 0 ∧ t.get .LANE_STATUS_RUNG n = 0 := by
  have hrole : ((s.signalLost n).reason n Reason.los).get .LANE_ID_ROLE n ≠ 2 := by
    rwa [State.reason_get _ _ _ _ (by decide) (by decide), State.signalLost_get _ (by decide)]
  have hnot : s.laneState n ≠ laneActive := by rcases hs with hs | hs | hs <;> simp [hs]
  refine ⟨_, by rw [exec_lossOfSignal_awake h, if_neg hnot, if_pos hs], State.enterDetect_state .., ?_, ?_,
    State.enterDetect_unlocked hrole ?_, State.enterDetect_rung _ _ hrole⟩
  · rw [State.enterDetect_get _ _ _ (by decide) (by decide) (by decide), State.reason_last]
    rfl
  · rw [State.enterDetect_get _ _ _ (by decide) (by decide) (by decide),
      State.reason_get _ _ _ _ (by decide) (by decide), State.signalLost_sig]
  · rw [State.reason_get _ _ _ _ (by decide) (by decide), State.signalLost_cdr]

theorem exec_lossOfSignal_active (h : s.on .LANE_STATUS_RX_NAP n = false) (hs : s.laneState n = laneActive) :
    Completes (.lossOfSignal n) s fun t => t.laneState n = laneDetect ∧
      (s.get .LANE_ID_ROLE n ≠ 2 → t.get .LANE_STATUS_RUNG n = 0) := by
  refine ⟨_, by rw [exec_lossOfSignal_awake h, if_pos hs], State.leaveActive_state ..,
    fun he => State.leaveActive_rung _ _ _ ?_⟩
  rwa [State.signalLost_get _ (by decide)]

end Loss

/-! ### The CDR locks and unlocks (R31, R43, R46) -/

section Cdr
variable {s : State} {n : Nat}

theorem State.cdrLocked_on : (s.set .LANE_STATUS_CDR_LOCK n 1).on .LANE_STATUS_CDR_LOCK n = true := State.on_set_same

theorem exec_cdrLock_other (hd : s.laneState n ≠ laneDetect) (hs : s.laneState n ≠ laneStep)
    (hr : s.on .LANE_H_RETURN n = false) : exec (.cdrLock n) s = .next (s.set .LANE_STATUS_CDR_LOCK n 1) := by
  have hd' : (s.set .LANE_STATUS_CDR_LOCK n 1).laneState n ≠ laneDetect := by rwa [State.laneState_set_ne (by decide)]
  have hs' : (s.set .LANE_STATUS_CDR_LOCK n 1).laneState n ≠ laneStep := by rwa [State.laneState_set_ne (by decide)]
  rw [exec_cdrLock, execCdrLock, State.tryEgress_other hd', State.tryVerify_other (.inl hs'),
    State.on_set_ne (by decide), hr]
  simp [hd']

theorem exec_cdrLock_measures (he : s.get .LANE_ID_ROLE n ≠ 2)
    (h : s.laneState n = laneDetect ∨ s.on .LANE_H_RETURN n = true) :
    exec (.cdrLock n) s = .next ((s.set .LANE_STATUS_CDR_LOCK n 1).set .LANE_H_OFFS_DONE n 0) := by
  rw [exec_cdrLock, execCdrLock, State.isEgress_set_ne (by decide), State.isEgress_eq_false he,
    State.laneState_set_ne (by decide), State.on_set_ne (by decide), if_neg Bool.false_ne_true,
    if_pos (by simpa using h)]

theorem exec_cdrLock_egress (he : s.get .LANE_ID_ROLE n = 2) (hd : s.laneState n = laneDetect)
    (hs : s.on .LANE_STATUS_SIG n = true) :
    exec (.cdrLock n) s = .next ((s.set .LANE_STATUS_CDR_LOCK n 1).laneRisen n) := by
  have hrole : (s.set .LANE_STATUS_CDR_LOCK n 1).get .LANE_ID_ROLE n = 2 :=
    (State.get_set_ne _ _ _ _ _ _ (by decide)).trans he
  rw [exec_cdrLock, execCdrLock, if_pos (State.isEgress_eq_true hrole),
    State.tryEgress_ready (State.isEgress_eq_true hrole)
    ((State.laneState_set_ne (by decide)).trans hd) ((State.on_set_ne (by decide)).trans hs) State.cdrLocked_on,
    State.laneUp_egress _ hrole]

theorem exec_cdrLock_verifies (he : s.get .LANE_ID_ROLE n ≠ 2) (hs : s.laneState n = laneStep)
    (hr : s.on .LANE_H_RETURN n = false) (hb : s.get .LANE_H_BLOCK n = 1) :
    exec (.cdrLock n) s = .next ((s.set .LANE_STATUS_CDR_LOCK n 1).set .LANE_STATUS_STATE n laneVerify) := by
  have hblock : (s.set .LANE_STATUS_CDR_LOCK n 1).on .LANE_H_BLOCK n = true := by
    rw [State.on_set_ne (by decide), State.on_eq_true_iff, hb]; decide
  have hstep : (s.set .LANE_STATUS_CDR_LOCK n 1).laneState n = laneStep := (State.laneState_set_ne (by decide)).trans hs
  have hreturn : (s.set .LANE_STATUS_CDR_LOCK n 1).on .LANE_H_RETURN n = false := (State.on_set_ne (by decide)).trans hr
  rw [exec_cdrLock, execCdrLock, State.isEgress_set_ne (by decide), State.isEgress_eq_false he,
    if_neg Bool.false_ne_true,
    if_neg (by simp [hstep, hreturn]), State.tryVerify_ready hstep hreturn State.cdrLocked_on hblock]

theorem exec_cdrUnlock_napping (h : s.on .LANE_STATUS_RX_NAP n = true) : exec (.cdrUnlock n) s = .next s := if_pos h

theorem exec_cdrUnlock_awake (h : s.on .LANE_STATUS_RX_NAP n = false) : exec (.cdrUnlock n) s =
    .next (if s.laneState n = laneActive then
        ((s.set .LANE_STATUS_CDR_LOCK n 0).set .LANE_H_OFFS_DONE n 0).leaveActive n Reason.cdrUnlock
      else (s.set .LANE_STATUS_CDR_LOCK n 0).set .LANE_H_OFFS_DONE n 0) := by
  rw [exec_cdrUnlock, execCdrUnlock, if_neg (ne_true_of_eq_false h)]
  dsimp only
  rw [State.laneState_set_ne (by decide), State.laneState_set_ne (by decide)]

theorem exec_cdrUnlock_active (h : s.on .LANE_STATUS_RX_NAP n = false) (hs : s.laneState n = laneActive) :
    Completes (.cdrUnlock n) s fun t => t.laneState n = laneDetect ∧
      (s.get .LANE_ID_ROLE n ≠ 2 → t.get .LANE_STATUS_RUNG n = 0) := by
  refine ⟨_, by rw [exec_cdrUnlock_awake h, if_pos hs], State.leaveActive_state ..,
    fun he => State.leaveActive_rung _ _ _ ?_⟩
  rwa [State.get_set_ne _ _ _ _ _ _ (by decide), State.get_set_ne _ _ _ _ _ _ (by decide)]

end Cdr

/-! ### The offset is measured (R31) -/

section Offset
variable {s : State} {f : Fld} {n : Nat} {ppm : Int}

/-- The offset has been measured, and it is known whether it lies beyond 200 ppm. -/
def State.measured (s : State) (n : Nat) (ppm : Int) : State :=
  (s.set .LANE_H_OFFS_DONE n 1).set .LANE_H_OFFS_BAD n (if ppm < -200 ∨ 200 < ppm then 1 else 0)

theorem State.measured_get (i : Nat) (hd : Fld.LANE_H_OFFS_DONE.id ≠ f.id) (hb : Fld.LANE_H_OFFS_BAD.id ≠ f.id) :
    (s.measured n ppm).get f i = s.get f i := by
  rw [State.measured, State.get_set_ne _ _ _ _ _ _ hb, State.get_set_ne _ _ _ _ _ _ hd]

theorem State.measured_on (hd : Fld.LANE_H_OFFS_DONE.id ≠ f.id) (hb : Fld.LANE_H_OFFS_BAD.id ≠ f.id) :
    (s.measured n ppm).on f n = s.on f n := congrArg (· != 0) (State.measured_get n hd hb)

theorem State.measured_state : (s.measured n ppm).laneState n = s.laneState n :=
  State.measured_get _ (by decide) (by decide)

theorem State.measured_done : (s.measured n ppm).on .LANE_H_OFFS_DONE n = true := by
  rw [State.measured, State.on_set_ne (by decide), State.on_set_same]
  rfl

theorem State.measured_bad : (s.measured n ppm).on .LANE_H_OFFS_BAD n = decide (ppm < -200 ∨ 200 < ppm) := by
  rw [State.measured, State.on_set_same]
  split
  · next h => rw [decide_eq_true h]; rfl
  · next h => rw [decide_eq_false h]; rfl

theorem exec_offsetMeasureDone_ignored (h : s.on .LANE_STATUS_CDR_LOCK n = false ∨ s.get .LANE_ID_ROLE n = 2) :
    exec (.offsetMeasureDone n ppm) s = .next s :=
  if_neg (by rcases h with h | h <;> simp [h, State.isEgress])

theorem exec_offsetMeasureDone_locked (hc : s.on .LANE_STATUS_CDR_LOCK n = true) (he : s.get .LANE_ID_ROLE n ≠ 2) :
    exec (.offsetMeasureDone n ppm) s =
      .next (if s.laneState n = laneNegotiate ∧ (ppm < -200 ∨ 200 < ppm) then
        (s.measured n ppm).backoff n Reason.freqOffset
        else (s.measured n ppm).tryNegotiate n) := by
  have hval : (decide (ppm < -200 ∨ 200 < ppm)).toNat = if ppm < -200 ∨ 200 < ppm then 1 else 0 := Bool.cond_decide ..
  rw [exec_offsetMeasureDone, execOffsetMeasureDone, if_pos (by simp [hc, State.isEgress_eq_false he]), hval,
    ← State.measured]
  dsimp only
  rw [State.measured_state, State.measured_bad]
  simp only [Bool.and_eq_true, decide_eq_true_eq]

theorem exec_offsetMeasureDone_recorded (hc : s.on .LANE_STATUS_CDR_LOCK n = true) (he : s.get .LANE_ID_ROLE n ≠ 2)
    (hd : s.laneState n ≠ laneDetect) (hn : s.laneState n ≠ laneNegotiate) (hr : s.on .LANE_H_RETURN n = false) :
    exec (.offsetMeasureDone n ppm) s = .next (s.measured n ppm) := by
  rw [exec_offsetMeasureDone_locked hc he, if_neg (by simp [hn]),
    State.tryNegotiate_other (by rwa [State.measured_state])
    ((State.measured_on (by decide) (by decide)).trans hr)]

/-- In DETECT, with everything else in place, the measurement is what NEGOTIATE waits for. -/
theorem exec_offsetMeasureDone_detect (hc : s.on .LANE_STATUS_CDR_LOCK n = true) (he : s.get .LANE_ID_ROLE n ≠ 2)
    (hd : s.laneState n = laneDetect) (hs : s.on .LANE_STATUS_SIG n = true) (hl : 4 ≤ s.get .LANE_H_LTS_RUN n) :
    exec (.offsetMeasureDone n ppm) s = .next ((s.measured n ppm).enterNegotiate n) := by
  rw [exec_offsetMeasureDone_locked hc he, if_neg (by simp [hd]),
    State.tryNegotiate_ready (State.measured_state.trans hd)
    ((State.measured_on (by decide) (by decide)).trans hs) ((State.measured_on (by decide) (by decide)).trans hc)
    State.measured_done (by rwa [State.measured_get _ (by decide) (by decide)])]

theorem exec_offsetMeasureDone_good (hc : s.on .LANE_STATUS_CDR_LOCK n = true) (hd : s.laneState n = laneDetect)
    (hs : s.on .LANE_STATUS_SIG n = true) (hl : 4 ≤ s.get .LANE_H_LTS_RUN n) (hlo : -200 ≤ ppm) (hhi : ppm ≤ 200)
    (he : s.get .LANE_ID_ROLE n ≠ 2) (hf : s.on .LANE_STATUS_LEADER n = false) :
    Completes (.offsetMeasureDone n ppm) s fun t => t.laneState n = laneNegotiate := by
  have hgood : (s.measured n ppm).on .LANE_H_OFFS_BAD n = false := by
    rw [State.measured_bad, decide_eq_false_iff_not]
    omega
  refine ⟨_, exec_offsetMeasureDone_detect hc he hd hs hl, ?_⟩
  rw [State.enterNegotiate_follower hgood ((State.measured_on (by decide) (by decide)).trans hf)]
  exact State.negotiateEntered_state

theorem exec_offsetMeasureDone_bad (hc : s.on .LANE_STATUS_CDR_LOCK n = true)
    (h : s.laneState n = laneDetect ∧ s.on .LANE_STATUS_SIG n = true ∧ 4 ≤ s.get .LANE_H_LTS_RUN n ∨
      s.laneState n = laneNegotiate)
    (hb : ppm < -200 ∨ 200 < ppm) (he : s.get .LANE_ID_ROLE n ≠ 2) :
    Completes (.offsetMeasureDone n ppm) s fun t => t.laneState n = laneBackoff ∧ t.get .LANE_REASON_LAST n = 0x0E := by
  obtain ⟨hd, hs, hl⟩ | hn := h
  · have hbad : (s.measured n ppm).on .LANE_H_OFFS_BAD n = true := State.measured_bad.trans (decide_eq_true hb)
    refine ⟨_, exec_offsetMeasureDone_detect hc he hd hs hl, ?_⟩
    rw [State.enterNegotiate_offset hbad]
    exact ⟨State.backoff_state .., State.backoff_last ..⟩
  · exact ⟨_, (exec_offsetMeasureDone_locked hc he).trans (by rw [if_pos ⟨hn, hb⟩]), State.backoff_state ..,
      State.backoff_last ..⟩

end Offset

end Sys2Proof.Machine

open Sys2Proof Sys2Proof.Machine

/-- Settles O11: each event by the lane's state and role; what the owning blocks do when a lane
goes down or comes up leaves the lane's role, reason, rung and flags. -/
theorem laneSignalsComplete : Obligations.LaneSignalsComplete := by
  unfold Obligations.LaneSignalsComplete
  refine ⟨fun n s => exec_signalDetect_other, fun n s he hd hc hn hr => ?_, fun n s hf ha hn hr ht hi => ?_,
    fun n s => ⟨exec_lossOfSignal_napping, exec_lossOfSignal_idle⟩,
    fun n s h he hs => exec_lossOfSignal_training h he hs, fun n s => exec_lossOfSignal_active,
    fun n s => ⟨exec_cdrLock_other, exec_cdrLock_measures⟩, fun n s he hd hs => ?_,
    fun n s he hs hr hb => ⟨_, exec_cdrLock_verifies he hs hr hb, State.laneState_set_same (by decide), ?_⟩,
    fun n s => ⟨exec_cdrUnlock_napping, fun h hs => (exec_cdrUnlock_awake h).trans (by rw [if_neg hs])⟩,
    fun n s => exec_cdrUnlock_active, fun n ppm s => ⟨exec_offsetMeasureDone_ignored, exec_offsetMeasureDone_recorded⟩,
    fun n ppm s => exec_offsetMeasureDone_good, fun n ppm s => exec_offsetMeasureDone_bad⟩
  · refine ⟨_, exec_signalDetect_egress he hd hc hn, State.laneRisen_state .., ?_, ?_⟩
    · rw [State.laneRisen_get _ _ _ (by decide) (by decide), State.signalled_get _ (by decide) (by decide), hr]
    · rw [State.laneRisen_get _ _ _ (by decide) (by decide), State.signalled_sig]
  · have htrim : (s.signalled n).on .LANE_H_TRIM n = false :=
      (congrArg (· != 0) (State.signalled_get n (by decide) (by decide))).trans ht
    refine ⟨_, exec_signalDetect_wakes hf ha hn hr, ?_,
      State.trimIfDue_starts (State.signalled_trimDue ha hi) (State.on_eq_false_iff.mpr State.signalled_nap) htrim⟩
    rw [State.trimIfDue_get _ (by decide) (by decide), State.signalled_nap]
  · refine ⟨_, exec_cdrLock_egress he hd hs, State.laneRisen_state .., ?_⟩
    rw [State.laneRisen_get _ _ _ (by decide) (by decide), State.get_set_same]
    rfl
  · rw [State.get_set_ne _ _ _ _ _ _ (by decide), State.get_set_same]
    rfl
end

section
/-! PROOFS. Training sequences: the run of valid ones, the entry to NEGOTIATE, and the negotiation of a rung (O12). -/

namespace Sys2Proof.Machine

/-! ### Writes of listed cells -/

section Listed
variable {cs : List (Fld × Nat)} {s t : State} {f : Fld} {i : Nat}

theorem OnlyCells.refl : OnlyCells cs s s := ⟨fun _ _ _ => rfl, fun p => by cases p <;> rfl, rfl⟩

theorem OnlyCells.set (h : OnlyCells cs s t) (v : Nat) (hm : (f, i) ∈ cs) : OnlyCells cs s (t.set f i v) where
  cells g j hn := (State.get_set_other _ _ _ _ _ _ (not_and_or.mp (hn _ hm))).trans (h.cells g j hn)
  others p := by
    have hp := h.others p
    cases p <;> exact hp
  pending := h.pending

end Listed

/-! ### A sequence is heard (02_lane_complex.md R38, R39) -/

section Heard
variable {s : State} {f : Fld} {n : Nat} {l : Lts}

/-- The run of valid sequences after one more. -/
def State.ltsCounted (s : State) (n : Nat) (valid : Bool) : State :=
  if valid then s.add .LANE_H_LTS_RUN n 1 else s.set .LANE_H_LTS_RUN n 0

/-- What the lane says of its run changes no cell. -/
theorem State.ltsRun_cells (valid : Bool) (i : Nat) : (s.ltsRun n valid).get f i = (s.ltsCounted n valid).get f i := by
  rw [State.ltsRun, ← State.ltsCounted]
  split <;> rfl

theorem State.ltsRun_get (valid : Bool) (i : Nat) (h : Fld.LANE_H_LTS_RUN.id ≠ f.id) :
    (s.ltsRun n valid).get f i = s.get f i := by
  rw [State.ltsRun_cells]
  cases valid
  · exact State.get_set_ne _ _ _ _ _ _ h
  · exact State.get_add_ne _ _ _ _ _ h

theorem State.ltsRun_broken : (s.ltsRun n false).get .LANE_H_LTS_RUN n = 0 :=
  (State.ltsRun_cells ..).trans ((State.get_set_same s .LANE_H_LTS_RUN n 0).trans (Nat.zero_mod _))

theorem State.ltsRun_grows : (s.ltsRun n true).get .LANE_H_LTS_RUN n = min (s.get .LANE_H_LTS_RUN n + 1) 7 :=
  (State.ltsRun_cells ..).trans (State.get_add_same s .LANE_H_LTS_RUN n 1)

/-- A lane outside DETECT does not say that its run has begun. -/
theorem State.ltsRun_silent (h : s.laneState n ≠ laneDetect) : s.ltsRun n true = s.add .LANE_H_LTS_RUN n 1 :=
  if_neg (by
    have hstate : (s.add .LANE_H_LTS_RUN n 1).laneState n ≠ laneDetect := by
      rwa [State.add, State.laneState_set_ne (by decide)]
    simp [hstate])

/-- The partner's rungs, and whether this end leads. -/
def State.partnerSeen (s : State) (n : Nat) (l : Lts) : State :=
  (s.set .LANE_STATUS_PARTNER_MASK n (l.chars.getD 3 0)).set .LANE_STATUS_LEADER n
    (if leAt l.chars 8 6 < s.tiebreak then 1 else 0)

theorem State.partnerSeen_get (i : Nat) (hm : Fld.LANE_STATUS_PARTNER_MASK.id ≠ f.id)
    (hl : Fld.LANE_STATUS_LEADER.id ≠ f.id) : (s.partnerSeen n l).get f i = s.get f i := by
  rw [State.partnerSeen, State.get_set_ne _ _ _ _ _ _ hl, State.get_set_ne _ _ _ _ _ _ hm]

theorem State.partnerSeen_mask : (s.partnerSeen n l).get .LANE_STATUS_PARTNER_MASK n =
    l.chars.getD 3 0 % 2 ^ Fld.LANE_STATUS_PARTNER_MASK.width := by
  rw [State.partnerSeen, State.get_set_ne _ _ _ _ _ _ (by decide), State.get_set_same]

theorem State.partnerSeen_leader : (s.partnerSeen n l).get .LANE_STATUS_LEADER n =
    if leAt l.chars 8 6 < s.tiebreak then 1 else 0 := by
  rw [State.partnerSeen, State.get_set_same]
  split <;> rfl

theorem State.partnerSeen_state : (s.partnerSeen n l).laneState n = s.laneState n :=
  State.partnerSeen_get _ (by decide) (by decide)

/-- What a valid sequence leaves before its state is looked at. -/
def State.heard (s : State) (n : Nat) (l : Lts) : State := (s.partnerSeen n l).ltsRun n true

theorem State.heard_get (h : ∀ g ∈ [Fld.LANE_STATUS_PARTNER_MASK, .LANE_STATUS_LEADER, .LANE_H_LTS_RUN], g.id ≠ f.id) :
    (s.heard n l).get f n = s.get f n := by
  rw [State.heard, State.ltsRun_get _ _ (h _ (by decide)), State.partnerSeen_get _ (h _ (by decide)) (h _ (by decide))]

theorem State.heard_on (h : ∀ g ∈ [Fld.LANE_STATUS_PARTNER_MASK, .LANE_STATUS_LEADER, .LANE_H_LTS_RUN], g.id ≠ f.id) :
    (s.heard n l).on f n = s.on f n := congrArg (· != 0) (State.heard_get h)

theorem State.heard_state : (s.heard n l).laneState n = s.laneState n := State.heard_get (by decide)

theorem State.heard_run : (s.heard n l).get .LANE_H_LTS_RUN n = min (s.get .LANE_H_LTS_RUN n + 1) 7 := by
  rw [State.heard, State.ltsRun_grows, State.partnerSeen_get _ (by decide) (by decide)]

theorem State.heard_mask : (s.heard n l).get .LANE_STATUS_PARTNER_MASK n =
    l.chars.getD 3 0 % 2 ^ Fld.LANE_STATUS_PARTNER_MASK.width := by
  rw [State.heard, State.ltsRun_get _ _ (by decide), State.partnerSeen_mask]

theorem State.heard_leader : (s.heard n l).get .LANE_STATUS_LEADER n =
    if leAt l.chars 8 6 < s.tiebreak then 1 else 0 := by
  rw [State.heard, State.ltsRun_get _ _ (by decide), State.partnerSeen_leader]

theorem State.heard_onlyCells (h : s.laneState n ≠ laneDetect) :
    OnlyCells [(.LANE_STATUS_PARTNER_MASK, n), (.LANE_STATUS_LEADER, n), (.LANE_H_LTS_RUN, n)] s (s.heard n l) := by
  have hstate : (s.partnerSeen n l).laneState n ≠ laneDetect := by rwa [State.partnerSeen_state]
  rw [State.heard, State.ltsRun_silent hstate]
  exact ((OnlyCells.refl.set _ (by simp)).set _ (by simp)).set _ (by simp)

end Heard

/-! ### What a sequence does, by the lane's state (R39 to R43) -/

section Received
variable {s : State} {n : Nat} {l : Lts}

theorem exec_ltsReceived_ignored (h : s.laneState n = laneDisabled ∨ s.laneState n = laneBackoff ∨
    s.get .LANE_ID_ROLE n = 2) :
    exec (.ltsReceived n l) s = .next s :=
  if_pos (by simpa [State.isEgress, or_assoc] using h)

section Trained
variable (hd : s.laneState n ≠ laneDisabled) (hb : s.laneState n ≠ laneBackoff) (he : s.get .LANE_ID_ROLE n ≠ 2)
include hd hb he

theorem exec_ltsReceived_invalid (hv : ltsValid l = false) :
    exec (.ltsReceived n l) s = .next ((s.ltsRun n false).set .LANE_H_ACK_RUN n 0) := by
  rw [exec_ltsReceived, execLtsReceived]
  dsimp only
  rw [if_neg (by simp [hd, hb, State.isEgress_eq_false he]), if_pos (by simp [hv])]

theorem exec_ltsReceived_valid (hv : ltsValid l = true) : exec (.ltsReceived n l) s =
    .next (if s.laneState n = laneDetect then
        if l.chars.getD 2 0 ≠ (s.heard n l).protocol n then (s.heard n l).backoff n Reason.protocolMismatch
        else (s.heard n l).tryNegotiate n
      else if s.laneState n = laneNegotiate then (s.heard n l).negotiate n (l.chars.getD 1 0) (l.chars.getD 4 0)
        (leAt l.chars 8 6) ((l.chars.getD 5 0).testBit 2)
      else s.heard n l) := by
  have hval : (decide (leAt l.chars 8 6 < s.tiebreak)).toNat = if leAt l.chars 8 6 < s.tiebreak then 1 else 0 :=
    Bool.cond_decide ..
  rw [exec_ltsReceived, execLtsReceived]
  dsimp only
  rw [if_neg (by simp [hd, hb, State.isEgress_eq_false he]), if_neg (by simp [hv]), hval, ← State.partnerSeen,
    ← State.heard]

end Trained

section Detect
variable (hd : s.laneState n = laneDetect) (he : s.get .LANE_ID_ROLE n ≠ 2) (hv : ltsValid l = true)
include hd he hv

theorem exec_ltsReceived_detect : exec (.ltsReceived n l) s =
    .next (if l.chars.getD 2 0 = s.protocol n then (s.heard n l).tryNegotiate n
      else (s.heard n l).backoff n Reason.protocolMismatch) := by
  have hprotocol : (s.heard n l).protocol n = s.protocol n := by
    rw [State.protocol, State.heard_get (by decide), State.protocol]
  rw [exec_ltsReceived_valid (by simp [hd]) (by simp [hd]) he hv, if_pos hd, hprotocol, ite_not]

theorem exec_ltsReceived_counts (hp : l.chars.getD 2 0 = s.protocol n) (hl : s.get .LANE_H_LTS_RUN n < 3)
    (hr : s.on .LANE_H_RETURN n = false) : exec (.ltsReceived n l) s = .next (s.heard n l) := by
  have hrun : (s.heard n l).get .LANE_H_LTS_RUN n < 4 := by rw [State.heard_run]; omega
  rw [exec_ltsReceived_detect hd he hv, if_pos hp,
    State.tryNegotiate_early hrun ((State.heard_on (by decide)).trans hr)]

theorem exec_ltsReceived_fourth (hp : l.chars.getD 2 0 = s.protocol n) (hl : s.get .LANE_H_LTS_RUN n = 3)
    (hs : s.on .LANE_STATUS_SIG n = true) (hc : s.on .LANE_STATUS_CDR_LOCK n = true)
    (ho : s.on .LANE_H_OFFS_DONE n = true) :
    exec (.ltsReceived n l) s = .next ((s.heard n l).enterNegotiate n) := by
  have hrun : 4 ≤ (s.heard n l).get .LANE_H_LTS_RUN n := by rw [State.heard_run, hl]; decide
  rw [exec_ltsReceived_detect hd he hv, if_pos hp, State.tryNegotiate_ready (State.heard_state.trans hd)
    ((State.heard_on (by decide)).trans hs) ((State.heard_on (by decide)).trans hc)
    ((State.heard_on (by decide)).trans ho) hrun]

theorem exec_ltsReceived_mismatch (hp : l.chars.getD 2 0 ≠ s.protocol n) :
    Completes (.ltsReceived n l) s fun t => t.laneState n = laneBackoff ∧ t.get .LANE_REASON_LAST n = 0x05 :=
  ⟨_, (exec_ltsReceived_detect hd he hv).trans (by rw [if_neg hp]), State.backoff_state .., State.backoff_last ..⟩

end Detect

theorem exec_ltsReceived_negotiate (hn : s.laneState n = laneNegotiate) (he : s.get .LANE_ID_ROLE n ≠ 2)
    (hv : ltsValid l = true) : exec (.ltsReceived n l) s = .next ((s.heard n l).negotiate n (l.chars.getD 1 0)
      (l.chars.getD 4 0) (leAt l.chars 8 6) ((l.chars.getD 5 0).testBit 2)) := by
  rw [exec_ltsReceived_valid (by simp [hn]) (by simp [hn]) he hv, if_neg (by simp [hn]), if_pos hn]

end Received

/-! ### The negotiation of a rung (R40, R41) -/

section Negotiation
variable {u : State} {n typ req peer : Nat} {resume : Bool}

theorem State.negotiate_loopback :
    u.negotiate n typ req u.tiebreak resume = u.backoff n Reason.loopback := if_pos rfl

section Leader
variable (hp : peer ≠ u.tiebreak) (hl : u.on .LANE_STATUS_LEADER n = true) (hs : u.on .LANE_H_STEP_SENT n = false)
include hp hl hs

/-- The leader takes an acknowledge of the rung that it has proposed. -/
theorem State.negotiate_acknowledged : u.negotiate n 0x41 (u.get .LANE_H_RUNG_AGREED n) peer resume =
    if 8 ≤ (u.add .LANE_H_ACK_RUN n 1).get .LANE_H_ACK_RUN n then
      ((u.add .LANE_H_ACK_RUN n 1).set .LANE_H_STEP_SENT n 1).sendLts n 0x53 (u.get .LANE_H_RUNG_AGREED n)
        (u.on .LANE_H_RESUME n)
    else u.add .LANE_H_ACK_RUN n 1 := by
  have hresume : (u.add .LANE_H_ACK_RUN n 1).on .LANE_H_RESUME n = u.on .LANE_H_RESUME n := State.on_set_ne (by decide)
  rw [State.negotiate, if_neg hp, if_pos hl, if_pos (by simp [hs]), if_pos rfl]
  dsimp only
  simp only [hresume, decide_eq_true_eq]

theorem State.negotiate_counts (ha : u.get .LANE_H_ACK_RUN n < 7) :
    u.negotiate n 0x41 (u.get .LANE_H_RUNG_AGREED n) peer resume = u.add .LANE_H_ACK_RUN n 1 := by
  rw [State.negotiate_acknowledged hp hl hs, State.get_add_same, if_neg (by omega)]

theorem State.negotiate_eighth (ha : u.get .LANE_H_ACK_RUN n = 7) :
    u.negotiate n 0x41 (u.get .LANE_H_RUNG_AGREED n) peer resume =
      ((u.add .LANE_H_ACK_RUN n 1).set .LANE_H_STEP_SENT n 1).sendLts n 0x53 (u.get .LANE_H_RUNG_AGREED n)
        (u.on .LANE_H_RESUME n) := by
  rw [State.negotiate_acknowledged hp hl hs, State.get_add_same, ha, if_pos (by decide)]

theorem State.negotiate_rejected (ha : u.get .LANE_H_RUNG_AGREED n ≠ 0xFF) (hr : u.on .LANE_H_RESUME n = false) :
    u.negotiate n 0x41 0xFF peer resume = u.proposeBelow n (u.get .LANE_H_RUNG_AGREED n) := by
  rw [State.negotiate, if_neg hp, if_pos hl, if_pos (by simp [hs]), if_neg ha.symm, if_pos rfl, hr]
  rfl

end Leader

section Follower
variable (hp : peer ≠ u.tiebreak) (hl : u.on .LANE_STATUS_LEADER n = false)
include hp hl

theorem State.negotiate_proposed (ok : Bool)
    (hok : (u.ownMask.testBit req && decide (1 ≤ req) && decide (req ≤ u.rungLimit n)) = ok) :
    u.negotiate n 0x4C req peer false = ((u.set .LANE_H_RESUME n 0).set .LANE_H_RUNG_AGREED n
      (if ok then req else 0)).sendLts n 0x41 (if ok then req else 0xFF) false := by
  rw [State.negotiate, if_neg hp, if_neg (ne_true_of_eq_false hl), if_pos rfl, hok]
  rfl

theorem State.negotiate_accepts (hlo : 1 ≤ req) (hhi : req ≤ 4) (hr : req ≤ u.rungLimit n) :
    u.negotiate n 0x4C req peer false =
      ((u.set .LANE_H_RESUME n 0).set .LANE_H_RUNG_AGREED n req).sendLts n 0x41 req false := by
  have hown : u.ownMask.testBit req = true := by rw [State.ownMask]; interval_cases req <;> rfl
  exact State.negotiate_proposed hp hl true (by simp [hown, hlo, hr])

theorem State.negotiate_refuses (h : req = 0 ∨ 4 < req ∨ u.rungLimit n < req) : u.negotiate n 0x4C req peer false =
    ((u.set .LANE_H_RESUME n 0).set .LANE_H_RUNG_AGREED n 0).sendLts n 0x41 0xFF false := by
  refine State.negotiate_proposed hp hl false ?_
  obtain rfl | h | h := h
  · simp
  · have hown : u.ownMask.testBit req = false := Nat.testBit_lt_two_pow
      (Nat.lt_of_lt_of_le (by decide : 0x1F < 2 ^ 5) (Nat.pow_le_pow_right (by decide) h))
    simp [hown]
  · have hlimit : ¬req ≤ u.rungLimit n := by omega
    simp [hlimit]

theorem State.negotiate_secondStep (ha : u.get .LANE_H_RUNG_AGREED n ≠ 0) (hs : u.get .LANE_H_STEP_RUN n = 1) :
    u.negotiate n 0x53 req peer false =
      ((u.add .LANE_H_STEP_RUN n 1).set .LANE_H_STEP_SENT n 1).sendLts n 0x53 (u.get .LANE_H_RUNG_AGREED n) false := by
  have hrun : (u.add .LANE_H_STEP_RUN n 1).get .LANE_H_STEP_RUN n = 2 := by rw [State.get_add_same, hs]; rfl
  have hrung : (u.add .LANE_H_STEP_RUN n 1).get .LANE_H_RUNG_AGREED n = u.get .LANE_H_RUNG_AGREED n :=
    State.get_add_ne _ _ _ _ _ (by decide)
  rw [State.negotiate, if_neg hp, if_neg (ne_true_of_eq_false hl), if_neg (by decide), if_pos (by simp [ha])]
  dsimp only
  rw [if_pos hrun, hrung]

end Follower
end Negotiation

end Sys2Proof.Machine

open Sys2Proof Sys2Proof.Machine

/-- Settles O12: what a sequence leaves by the lane's state, and the negotiation by the side that the lane takes. -/
theorem trainingSequencesComplete : Obligations.TrainingSequencesComplete := by
  unfold Obligations.TrainingSequencesComplete
  refine ⟨fun n l s => exec_ltsReceived_ignored, fun n l s hd hb he hv => ?_, fun n l s hd he hv hp hl hr => ?_,
    fun n l s hd he hv hp hl hs hc ho hb ht => ?_, fun n l s => exec_ltsReceived_mismatch,
    fun n l s hn he hv => ⟨s.heard n l, exec_ltsReceived_negotiate hn he hv, State.heard_onlyCells (by simp [hn]),
      State.heard_mask, State.heard_leader⟩,
    fun u n typ req resume => ?_,
    fun u n peer resume hp hl hs => ⟨fun _ => State.negotiate_counts hp hl hs, State.negotiate_eighth hp hl hs,
      State.negotiate_rejected hp hl hs⟩,
    fun u n req peer hp hl => ⟨State.negotiate_accepts hp hl, State.negotiate_refuses hp hl,
      State.negotiate_secondStep hp hl⟩⟩
  · refine ⟨_, exec_ltsReceived_invalid hd hb he hv, ?_, (State.get_set_same ..).trans (Nat.zero_mod _), ?_⟩
    · rw [State.get_set_ne _ _ _ _ _ _ (by decide), State.ltsRun_broken]
    · rw [State.laneState_set_ne (by decide), State.laneState, State.ltsRun_get _ _ (by decide), State.laneState]
  · refine ⟨_, exec_ltsReceived_counts hd he hv hp hl hr, ?_, State.heard_mask, State.heard_leader,
      State.heard_state.trans hd⟩
    rw [State.heard_run]
    omega
  · have hgood : (s.heard n l).on .LANE_H_OFFS_BAD n = false := (State.heard_on (by decide)).trans hb
    have hfollower : (s.heard n l).on .LANE_STATUS_LEADER n = false := by
      rw [State.on_eq_false_iff, State.heard_leader, if_neg (by omega)]
    refine ⟨_, exec_ltsReceived_fourth hd he hv hp hl hs hc ho, ?_⟩
    rw [State.enterNegotiate_follower hgood hfollower]
    exact State.negotiateEntered_state
  · rw [State.negotiate_loopback]
    exact ⟨State.backoff_state .., State.backoff_last ..⟩
end

section
/-! PROOFS. The change of rate, the verification of a rung and the timers of training (O13). -/

namespace Sys2Proof.Machine

/-! ### The change of rate and block lock (02_lane_complex.md R41, R43) -/

section Rate
variable {s : State} {f : Fld} {n : Nat}

/-- The cells that a change of rate clears. -/
def rateCleared : List Fld := [.LANE_STATUS_CDR_LOCK, .LANE_H_BLOCK, .LANE_H_STEP_SENT, .LANE_H_VERD_L, .LANE_H_VERD_P]

/-- The lane is in STEP at rung `r`, and nothing is known of it there. -/
def State.rated (s : State) (n r : Nat) : State :=
  rateCleared.foldl (fun s f => s.set f n 0) ((s.set .LANE_STATUS_STATE n laneStep).set .LANE_STATUS_RUNG n r)

theorem State.rated_cleared (r : Nat) (hf : f ∈ rateCleared) (hinj : ∀ g ∈ rateCleared, g.id = f.id → g = f) :
    (s.rated n r).get f n = 0 := State.foldl_clear_get hf hinj _ _

theorem State.rated_rung (r : Nat) : (s.rated n r).get .LANE_STATUS_RUNG n = r % 8 :=
  (State.foldl_set_get_ne (by decide) _ _ _ _).trans (State.get_set_same ..)

theorem State.rated_state (r : Nat) : (s.rated n r).laneState n = laneStep :=
  (State.foldl_set_get_ne (by decide) _ _ _ _).trans
    ((State.get_set_ne _ _ _ _ _ _ (by decide)).trans (State.laneState_set_same (by decide)))

/-- What a lane loads depends on its table alone. -/
theorem State.eqInEffect_congr {t : State} (h : t.lane = s.lane) (r : Nat) : t.eqInEffect n r = s.eqInEffect n r := by
  simp only [State.eqInEffect, State.eqEntry, h]

theorem State.rated_lane (r : Nat) : (s.rated n r).lane = s.lane := rfl

theorem exec_rateChange_steps (hs : s.laneState n = laneNegotiate) (hn : s.on .LANE_H_STEP_SENT n = true) :
    exec (.rateChange n) s = .next ((s.rated n (s.get .LANE_H_RUNG_AGREED n)).loadEq n (s.get .LANE_H_RUNG_AGREED n)) :=
  if_pos (by simp [hs, hn])

theorem exec_rateChange_other (h : s.laneState n ≠ laneNegotiate ∨ s.on .LANE_H_STEP_SENT n = false) :
    exec (.rateChange n) s = .next s :=
  if_neg (by rcases h with h | h <;> simp [h])

theorem exec_blockLock_returning (h : s.on .LANE_H_RETURN n = true) : exec (.blockLock n) s = .next s := if_pos h

theorem exec_blockLock_other (hr : s.on .LANE_H_RETURN n = false)
    (h : s.laneState n ≠ laneStep ∨ s.on .LANE_STATUS_CDR_LOCK n = false) :
    exec (.blockLock n) s = .next (s.set .LANE_H_BLOCK n 1) := by
  rw [exec_blockLock, execBlockLock, if_neg (ne_true_of_eq_false hr), State.tryVerify_other]
  rwa [State.laneState_set_ne (by decide), State.on_set_ne (by decide)]

theorem exec_blockLock_verifies (hr : s.on .LANE_H_RETURN n = false) (hs : s.laneState n = laneStep)
    (hc : s.on .LANE_STATUS_CDR_LOCK n = true) :
    exec (.blockLock n) s = .next ((s.set .LANE_H_BLOCK n 1).set .LANE_STATUS_STATE n laneVerify) := by
  rw [exec_blockLock, execBlockLock, if_neg (ne_true_of_eq_false hr), State.tryVerify_ready
    ((State.laneState_set_ne (by decide)).trans hs) ((State.on_set_ne (by decide)).trans hr)
    ((State.on_set_ne (by decide)).trans hc) State.on_set_same]

end Rate

/-! ### The window ends and the verdicts come (R42) -/

section Verify
variable {s : State} {n : Nat}

section Window
variable {hdr uncorr corr : Nat}

/-- The codewords that the window has corrected and could not correct are counted. -/
def State.windowCounted (s : State) (n corr uncorr : Nat) : State :=
  (s.add .LANE_CNT_CORR n corr).add .LANE_CNT_UNCORR n uncorr

theorem State.windowCounted_get {f : Fld} (hc : Fld.LANE_CNT_CORR.id ≠ f.id) (hu : Fld.LANE_CNT_UNCORR.id ≠ f.id) :
    (s.windowCounted n corr uncorr).get f n = s.get f n := by
  rw [State.windowCounted, State.get_add_ne _ _ _ _ _ hu, State.get_add_ne _ _ _ _ _ hc]

theorem exec_verifyWindowEnd_other (h : s.laneState n ≠ laneVerify ∨ s.on .LANE_H_RETURN n = true) :
    exec (.verifyWindowEnd n hdr uncorr corr) s = .next s :=
  if_neg (by rcases h with h | h <;> simp [h])

section Verifying
variable (hs : s.laneState n = laneVerify) (hr : s.on .LANE_H_RETURN n = false)
include hs hr

theorem exec_verifyWindowEnd_passes (hw : windowPass (s.get .LANE_STATUS_RUNG n) hdr uncorr corr = true) :
    exec (.verifyWindowEnd n hdr uncorr corr) s =
      .next (let u := ((s.windowCounted n corr uncorr).set .LANE_H_VERD_L n 1).emit (.laneCtl n 0x564F4B 1)
        if s.get .LANE_H_VERD_P n = 1 then u.laneUp n else if s.get .LANE_H_VERD_P n = 2 then u.stepFail n else u) := by
  have hverdict : (((s.windowCounted n corr uncorr).set .LANE_H_VERD_L n 1).emit (.laneCtl n 0x564F4B 1)).get
      .LANE_H_VERD_P n = s.get .LANE_H_VERD_P n := by
    rw [State.emit_get, State.get_set_ne _ _ _ _ _ _ (by decide), State.windowCounted_get (by decide) (by decide)]
  rw [exec_verifyWindowEnd, execVerifyWindowEnd, if_pos (by simp [hs, hr]), ← State.windowCounted]
  dsimp only
  rw [State.windowCounted_get (by decide) (by decide), if_pos hw, hverdict]

theorem exec_verifyWindowEnd_fails (hw : windowPass (s.get .LANE_STATUS_RUNG n) hdr uncorr corr = false) :
    exec (.verifyWindowEnd n hdr uncorr corr) s =
      .next (((s.windowCounted n corr uncorr).emit (.laneCtl n 0x564E4B 1)).stepFail n) := by
  rw [exec_verifyWindowEnd, execVerifyWindowEnd, if_pos (by simp [hs, hr]), ← State.windowCounted]
  dsimp only
  rw [State.windowCounted_get (by decide) (by decide), if_neg (ne_true_of_eq_false hw)]

end Verifying
end Window

theorem State.laneUp_state (h : s.get .LANE_ID_ROLE n = 1) : (s.laneUp n).laneState n = laneActive := by
  rw [State.laneUp_ingress _ h, State.laneState,
    (State.ingLaneUp_upd _ _ (masks_self _ _) (.refl _)).cells _ _ (by decide)]
  exact State.laneRisen_state ..

section Verdict
variable (hr : s.on .LANE_H_RETURN n = false)
include hr

theorem exec_verdictReceived_kept
    (h : s.laneState n = laneStep ∨ s.laneState n = laneVerify ∧ s.get .LANE_H_VERD_L n ≠ 1) :
    exec (.verdictReceived n true) s = .next (s.set .LANE_H_VERD_P n 1) := by
  rw [exec_verdictReceived, execVerdictReceived, if_neg (ne_true_of_eq_false hr)]
  obtain hs | ⟨hs, hl⟩ := h
  · rw [if_neg (by simp [hs]), if_pos hs, if_pos rfl]
  · rw [if_pos hs, if_pos rfl, if_neg hl]

theorem exec_verdictReceived_up (hs : s.laneState n = laneVerify) (hl : s.get .LANE_H_VERD_L n = 1) :
    exec (.verdictReceived n true) s = .next (s.laneUp n) := by
  rw [exec_verdictReceived, execVerdictReceived, if_neg (ne_true_of_eq_false hr), if_pos hs, if_pos rfl, if_pos hl]

theorem exec_verdictReceived_fails (h : s.laneState n = laneStep ∨ s.laneState n = laneVerify) :
    exec (.verdictReceived n false) s = .next (s.stepFail n) := by
  rw [exec_verdictReceived, execVerdictReceived, if_neg (ne_true_of_eq_false hr)]
  obtain hs | hs := h
  · rw [if_neg (by simp [hs]), if_pos hs, if_neg Bool.false_ne_true]
  · rw [if_pos hs, if_neg Bool.false_ne_true]

end Verdict

theorem exec_verdictReceived_other {pass : Bool}
    (h : s.on .LANE_H_RETURN n = true ∨ (s.laneState n ≠ laneStep ∧ s.laneState n ≠ laneVerify)) :
    exec (.verdictReceived n pass) s = .next s := by
  rw [exec_verdictReceived, execVerdictReceived]
  obtain hr | ⟨hs, hv⟩ := h
  · rw [if_pos hr]
  · rw [if_neg hv, if_neg hs, ite_self]

theorem exec_verdictTimeout_fails (hs : s.laneState n = laneVerify) (hr : s.on .LANE_H_RETURN n = false)
    (hl : s.get .LANE_H_VERD_L n ≠ 0) (hp : s.get .LANE_H_VERD_P n = 0) :
    exec (.verdictTimeout n) s = .next (s.stepFail n) :=
  congrArg _ (if_pos (by simp [hs, hr, hl, hp]))

theorem exec_verdictTimeout_other (h : s.laneState n ≠ laneVerify ∨ s.on .LANE_H_RETURN n = true ∨
    s.get .LANE_H_VERD_L n = 0 ∨ s.get .LANE_H_VERD_P n ≠ 0) : exec (.verdictTimeout n) s = .next s :=
  congrArg _ (if_neg (by rcases h with h | h | h | h <;> simp [h]))

end Verify

/-! ### A step fails (R43) -/

section Fail
variable {s : State} {n : Nat} (hr : s.on .LANE_H_RESUME n = false)
include hr

theorem State.stepFail_last (h : (s.set .LANE_H_RESUME n 0).bestRung n (s.get .LANE_STATUS_RUNG n) = 0) :
    s.stepFail n = (s.set .LANE_H_RESUME n 0).backoff n Reason.verifyFail := by
  rw [State.stepFail, hr]
  exact if_neg (by simp [h])

/-- The cells that a failed step clears on its way back to rung 0. -/
def failCleared : List Fld := [.LANE_H_ACK_RUN, .LANE_H_STEP_RUN, .LANE_H_STEP_SENT, .LANE_H_BLOCK, .LANE_H_VERD_L,
  .LANE_H_VERD_P, .LANE_H_OFFS_DONE]

theorem State.stepFail_lower (h : (s.set .LANE_H_RESUME n 0).bestRung n (s.get .LANE_STATUS_RUNG n) ≠ 0) :
    s.stepFail n = (((failCleared.foldl (fun s f => s.set f n 0) ((s.set .LANE_H_RESUME n 0).exclude n
      (s.get .LANE_STATUS_RUNG n))).set .LANE_H_RETURN n 1).toRung0 n).sayDetect n := by
  rw [State.stepFail, hr]
  exact if_pos (by simp [h])

theorem State.stepFail_returns (h : (s.set .LANE_H_RESUME n 0).bestRung n (s.get .LANE_STATUS_RUNG n) ≠ 0) :
    (s.stepFail n).get .LANE_STATUS_RUNG n = 0 ∧ (s.stepFail n).get .LANE_H_RETURN n = 1 := by
  rw [State.stepFail_lower hr h, State.sayDetect_get, State.sayDetect_get]
  refine ⟨State.toRung0_rung .., ?_⟩
  rw [State.toRung0_get _ _ _ (by decide) (by decide), State.get_set_same]
  rfl

end Fail

/-! ### The timers of training (R43, R45) -/

section Timers
variable {s : State} {n : Nat}

theorem exec_negotiateTimeout_backs (h : s.laneState n = laneNegotiate) :
    exec (.negotiateTimeout n) s = .next (s.backoff n Reason.negotiateTimeout) := congrArg _ (if_pos h)

theorem exec_negotiateTimeout_other (h : s.laneState n ≠ laneNegotiate) :
    exec (.negotiateTimeout n) s = .next s := congrArg _ (if_neg h)

theorem exec_noLts_backs (hd : s.laneState n = laneDetect) (hs : s.on .LANE_STATUS_SIG n = true)
    (he : s.get .LANE_ID_ROLE n ≠ 2) : exec (.noLts n) s = .next (s.backoff n Reason.noLts) :=
  congrArg _ (if_pos (by simp [hd, hs, State.isEgress_eq_false he]))

theorem exec_noLts_other
    (h : s.laneState n ≠ laneDetect ∨ s.on .LANE_STATUS_SIG n = false ∨ s.get .LANE_ID_ROLE n = 2) :
    exec (.noLts n) s = .next s :=
  congrArg _ (if_neg (by rcases h with h | h | h <;> simp [h, State.isEgress]))

theorem exec_stepTimeout_fails (h : s.laneState n = laneStep ∨ s.laneState n = laneVerify)
    (hr : s.on .LANE_H_RETURN n = false) : exec (.stepTimeout n) s = .next (s.stepFail n) :=
  congrArg _ (if_pos (by simp [h, hr]))

theorem exec_stepTimeout_other
    (h : s.on .LANE_H_RETURN n = true ∨ s.laneState n ≠ laneStep ∧ s.laneState n ≠ laneVerify) :
    exec (.stepTimeout n) s = .next s :=
  congrArg _ (if_neg (by rcases h with h | h <;> simp [h]))

theorem exec_backoffExpiry_detects (h : s.laneState n = laneBackoff) :
    exec (.backoffExpiry n) s = .next (s.enterDetect n) := congrArg _ (if_pos h)

theorem exec_backoffExpiry_other (h : s.laneState n ≠ laneBackoff) : exec (.backoffExpiry n) s = .next s :=
  congrArg _ (if_neg h)

end Timers

end Sys2Proof.Machine

open Sys2Proof Sys2Proof.Machine

/-- Settles O13: each event by the lane's state and verdicts; a step that fails goes back to rung 0 or backs off. -/
theorem stepAndVerifyComplete : Obligations.StepAndVerifyComplete := by
  unfold Obligations.StepAndVerifyComplete
  refine ⟨fun n s => ⟨fun hs hn => ⟨_, exec_rateChange_steps hs hn, State.rated_state _, ?_, State.rated_rung _,
        ?_, ?_, ?_⟩,
      exec_rateChange_other⟩,
    fun n s => ⟨exec_blockLock_returning, exec_blockLock_other, exec_blockLock_verifies⟩,
    fun n hdr uncorr corr s => exec_verifyWindowEnd_passes,
    fun n hdr uncorr corr s => ⟨exec_verifyWindowEnd_fails, exec_verifyWindowEnd_other⟩,
    fun n s => State.laneUp_state, fun n s hr => ⟨fun h => ?_, fun h _ => State.stepFail_returns hr h⟩,
    fun n s hr => ⟨exec_verdictReceived_kept hr, exec_verdictReceived_up hr, exec_verdictReceived_fails hr⟩,
    fun n pass s => exec_verdictReceived_other,
    fun n s => ⟨exec_verdictTimeout_fails, exec_verdictTimeout_other⟩,
    fun n s => ⟨fun h => ⟨_, exec_negotiateTimeout_backs h, State.backoff_state .., State.backoff_last ..⟩,
      exec_negotiateTimeout_other⟩,
    fun n s => ⟨fun hd hs he => ⟨_, exec_noLts_backs hd hs he, State.backoff_state .., State.backoff_last ..⟩,
      exec_noLts_other⟩,
    fun n s => ⟨exec_stepTimeout_fails, exec_stepTimeout_other⟩,
    fun n s => ⟨fun h => ⟨_, exec_backoffExpiry_detects h, State.enterDetect_state .., State.enterDetect_rung _ _⟩,
      exec_backoffExpiry_other⟩⟩
  · exact State.rated_cleared _ (by decide) (by decide)
  · exact State.rated_cleared _ (by decide) (by decide)
  · exact State.rated_cleared _ (by decide) (by decide)
  · exact (tabGet_put_same ..).trans (State.eqInEffect_congr (State.rated_lane _) _)
  · rw [State.stepFail_last hr h]
    exact ⟨State.backoff_state .., State.backoff_last ..⟩
end

section
/-! PROOFS. Alignment, stability, idle, trim, nap and eye scan of a lane in service (O14). -/

namespace Sys2Proof.Machine

/-! ### ACTIVE is left, or has lasted (02_lane_complex.md R43, R45, R53) -/

section Active
variable {s : State} {n : Nat}

theorem exec_alignLoss_leaves (hs : s.laneState n = laneActive) (he : s.get .LANE_ID_ROLE n ≠ 2)
    (hn : s.on .LANE_STATUS_RX_NAP n = false) :
    exec (.alignLoss n) s = .next ((s.set .LANE_H_BLOCK n 0).leaveActive n Reason.alignLoss) := by
  rw [exec_alignLoss, execAlignLoss, if_pos (by simp [hs, State.isEgress_eq_false he, hn])]

theorem exec_alignLoss_other
    (h : s.laneState n ≠ laneActive ∨ s.get .LANE_ID_ROLE n = 2 ∨ s.on .LANE_STATUS_RX_NAP n = true) :
    exec (.alignLoss n) s = .next s :=
  congrArg _ (if_neg (by rcases h with h | h | h <;> simp [h, State.isEgress]))

theorem State.leaveActiveNap_state : (s.leaveActiveNap n).laneState n = laneDetect := by
  rw [State.leaveActiveNap, State.enterDetect_state]

theorem State.leaveActiveNap_last : (s.leaveActiveNap n).get .LANE_REASON_LAST n = 0x0A := by
  rw [State.leaveActiveNap, State.enterDetect_get _ _ _ (by decide) (by decide) (by decide),
    State.laneDown_get _ _ _ (by decide) (by decide), State.laneEvent_get _ _ _ _ (by decide) (by decide),
    State.reason_last]
  rfl

theorem exec_napTimeout_leaves (hs : s.laneState n = laneActive) (hn : s.on .LANE_STATUS_RX_NAP n = true) :
    exec (.napTimeout n) s = .next ((s.set .LANE_STATUS_RX_NAP n 0).leaveActiveNap n) := by
  rw [exec_napTimeout, execNapTimeout, if_pos (by simp [hs, hn])]

theorem exec_napTimeout_other (h : s.laneState n ≠ laneActive ∨ s.on .LANE_STATUS_RX_NAP n = false) :
    exec (.napTimeout n) s = .next s :=
  congrArg _ (if_neg (by rcases h with h | h <;> simp [h]))

theorem exec_activeStable_active (h : s.laneState n = laneActive) : exec (.activeStable n) s =
    .next ((s.set .LANE_H_STABLE n 1).set .LANE_STATUS_FAIL_COUNT n 0) := congrArg _ (if_pos h)

theorem exec_activeStable_other (h : s.laneState n ≠ laneActive) : exec (.activeStable n) s = .next s :=
  congrArg _ (if_neg h)

end Active

/-! ### Idle and trim (R49 to R51) -/

section Idle
variable {s : State} {f : Fld} {n ms : Nat} {d : Int}

/-- A change of temperature within the field's range is held as it is. -/
theorem dtjOf_of_range (hlo : -128 ≤ d) (hhi : d ≤ 127) : dtjOf d = ofSigned 8 d := by
  rw [dtjOf, Int.min_eq_right hhi, Int.max_eq_right hlo]

theorem toSigned_ofSigned (hlo : -128 ≤ d) (hhi : d ≤ 127) : toSigned 8 (ofSigned 8 d) = d := by
  unfold toSigned ofSigned
  norm_num
  split <;> omega

/-- A receiver that idles, with its idle time and its change of temperature. -/
def State.idled (s : State) (n ms : Nat) (d : Int) : State :=
  ((s.set .LANE_IDLE_IDLE_MS n (min ms 0xFFFFFF)).set .LANE_IDLE_DTJ n (ofSigned 8 d)).set .LANE_H_IDLE n 1

theorem State.idled_get (h : ∀ g ∈ [Fld.LANE_IDLE_IDLE_MS, .LANE_IDLE_DTJ, .LANE_H_IDLE], g.id ≠ f.id) :
    (s.idled n ms d).get f n = s.get f n := by
  rw [State.idled, State.get_set_ne _ _ _ _ _ _ (h _ (by decide)), State.get_set_ne _ _ _ _ _ _ (h _ (by decide)),
    State.get_set_ne _ _ _ _ _ _ (h _ (by decide))]

theorem State.idled_on (h : ∀ g ∈ [Fld.LANE_IDLE_IDLE_MS, .LANE_IDLE_DTJ, .LANE_H_IDLE], g.id ≠ f.id) :
    (s.idled n ms d).on f n = s.on f n := congrArg (· != 0) (State.idled_get h)

theorem State.idled_ms : (s.idled n ms d).get .LANE_IDLE_IDLE_MS n = min ms 0xFFFFFF := by
  rw [State.idled, State.get_set_ne _ _ _ _ _ _ (by decide), State.get_set_ne _ _ _ _ _ _ (by decide),
    State.get_set_same]
  exact Nat.mod_eq_of_lt (Nat.lt_of_le_of_lt (Nat.min_le_right ..) (by decide))

theorem State.idled_dtj : (s.idled n ms d).get .LANE_IDLE_DTJ n = ofSigned 8 d := by
  rw [State.idled, State.get_set_ne _ _ _ _ _ _ (by decide), State.get_set_same]
  exact Nat.mod_eq_of_lt (ofSigned_lt ..)

section Range
variable (hlo : -128 ≤ d) (hhi : d ≤ 127)
include hlo hhi

/-- A trim pass is due on an ACTIVE lane after 600 s of idle or a change of 15 °C. -/
theorem State.idled_trimDue : (s.idled n ms d).trimDue n = true ↔
    s.laneState n = laneActive ∧ (600000 ≤ ms ∨ 15 ≤ d ∨ d ≤ -15) := by
  have hstate : (s.idled n ms d).laneState n = s.laneState n := State.idled_get (by decide)
  have hms : 600000 ≤ min ms 0xFFFFFF ↔ 600000 ≤ ms := by omega
  rw [State.trimDue, hstate, State.idled_ms, State.idled_dtj, toSigned_ofSigned hlo hhi]
  simp only [Bool.and_eq_true, Bool.or_eq_true, beq_iff_eq, decide_eq_true_eq, hms, or_assoc]

theorem exec_idleTrim_eq : exec (.idleTrim n ms d) s = .next ((s.idled n ms d).trimIfDue n) := by
  rw [exec_idleTrim, execIdleTrim, dtjOf_of_range hlo hhi]
  rfl

theorem exec_idleTrim_held (h : s.laneState n ≠ laneActive ∨ (ms < 600000 ∧ -15 < d ∧ d < 15)) :
    exec (.idleTrim n ms d) s = .next (s.idled n ms d) := by
  have hdue : (s.idled n ms d).trimDue n = false := by
    rw [Bool.eq_false_iff, ne_eq, State.idled_trimDue hlo hhi]
    omega
  rw [exec_idleTrim_eq hlo hhi, State.trimIfDue_not hdue]

theorem exec_idleTrim_due (hs : s.laneState n = laneActive) (hn : s.on .LANE_STATUS_RX_NAP n = false)
    (h : 600000 ≤ ms ∨ 15 ≤ d ∨ d ≤ -15) :
    Completes (.idleTrim n ms d) s fun t => t.on .LANE_H_TRIM n = true := by
  refine ⟨_, exec_idleTrim_eq hlo hhi, ?_⟩
  have hdue : (s.idled n ms d).trimDue n = true := (State.idled_trimDue hlo hhi).mpr ⟨hs, h⟩
  have hnap : (s.idled n ms d).on .LANE_STATUS_RX_NAP n = false := (State.idled_on (by decide)).trans hn
  cases ht : (s.idled n ms d).on .LANE_H_TRIM n with
  | true => rwa [State.trimIfDue, if_neg (by simp [ht])]
  | false => exact State.on_eq_true_iff.mpr (by rw [State.trimIfDue_starts hdue hnap ht]; decide)

end Range

theorem exec_trimPassEnd_ends (h : s.on .LANE_H_TRIM n = true) : exec (.trimPassEnd n) s =
    .next (((s.set .LANE_H_TRIM n 0).set .LANE_IDLE_IDLE_MS n 0).set .LANE_IDLE_DTJ n 0) := if_pos h

theorem exec_trimPassEnd_none (h : s.on .LANE_H_TRIM n = false) : exec (.trimPassEnd n) s = .next s :=
  if_neg (ne_true_of_eq_false h)

theorem exec_serviceTrim_moves (hs : s.laneState n = laneActive) (hi : s.on .LANE_H_IDLE n = false)
    (hn : s.on .LANE_STATUS_RX_NAP n = false) (hb : s.on .LANE_EYE_STATUS_BUSY n = false)
    (ht : s.on .LANE_H_TRIM n = false) : exec (.serviceTrim n) s =
      .next (((s.bump .LANE_H_SLICER n 1).set .LANE_IDLE_IDLE_MS n 0).set .LANE_IDLE_DTJ n 0) :=
  if_pos (by simp [hs, hi, hn, hb, ht])

theorem exec_serviceTrim_held (h : s.laneState n ≠ laneActive ∨ s.on .LANE_H_IDLE n = true ∨
    s.on .LANE_STATUS_RX_NAP n = true ∨ s.on .LANE_EYE_STATUS_BUSY n = true ∨ s.on .LANE_H_TRIM n = true) :
    exec (.serviceTrim n) s = .next s :=
  if_neg (by rcases h with h | h | h | h | h <;> simp [h])

end Idle

/-! ### Nap and the end of a scan point (R52, R55) -/

section Nap
variable {s : State} {n : Nat}

theorem exec_txNap_naps (hs : s.laneState n = laneActive) (hf : s.get .LANE_ID_ROLE n = 3)
    (he : s.on .LANE_CTRL_TX_NAP_EN n = true) (hn : s.on .LANE_STATUS_TX_NAP n = false) :
    exec (.txNap n) s = .next ((s.set .LANE_STATUS_TX_NAP n 1).emit (.laneCtl n 0x4E4150 16)) :=
  if_pos (by simp [hs, hf, he, hn])

theorem exec_txNap_other (h : s.laneState n ≠ laneActive ∨ s.get .LANE_ID_ROLE n ≠ 3 ∨
    s.on .LANE_CTRL_TX_NAP_EN n = false ∨ s.on .LANE_STATUS_TX_NAP n = true) : exec (.txNap n) s = .next s :=
  if_neg (by rcases h with h | h | h | h <;> simp [h])

theorem exec_txWake_wakes (h : s.on .LANE_STATUS_TX_NAP n = true) :
    exec (.txWake n) s = .next ((s.set .LANE_STATUS_TX_NAP n 0).emit (.laneCtl n 0x57414B 64)) := if_pos h

theorem exec_txWake_awake (h : s.on .LANE_STATUS_TX_NAP n = false) : exec (.txWake n) s = .next s :=
  if_neg (ne_true_of_eq_false h)

theorem exec_rxNap_naps (hs : s.laneState n = laneActive) (he : s.get .LANE_ID_ROLE n ≠ 2) :
    exec (.rxNap n) s = .next (s.set .LANE_STATUS_RX_NAP n 1) :=
  if_pos (by simp [hs, State.isEgress_eq_false he])

theorem exec_rxNap_other (h : s.laneState n ≠ laneActive ∨ s.get .LANE_ID_ROLE n = 2) :
    exec (.rxNap n) s = .next s :=
  if_neg (by rcases h with h | h <;> simp [h, State.isEgress])

theorem exec_eyeScanDone_counts {k : Nat} (hb : s.on .LANE_EYE_STATUS_BUSY n = true)
    (ht : s.on .LANE_H_TRIM n = false) :
    exec (.eyeScanDone n k) s = .next (((s.set .LANE_EYE_STATUS_BUSY n 0).set .LANE_EYE_STATUS_DONE n 1).set
      .LANE_EYE_ERR n (min k 0xFFFFFFFF)) :=
  if_pos (by simp [hb, ht])

theorem exec_eyeScanDone_other {k : Nat} (h : s.on .LANE_EYE_STATUS_BUSY n = false ∨ s.on .LANE_H_TRIM n = true) :
    exec (.eyeScanDone n k) s = .next s :=
  if_neg (by rcases h with h | h <;> simp [h])

end Nap

end Sys2Proof.Machine

open Sys2Proof Sys2Proof.Machine

/-- Settles O14: each event in its condition and outside it. -/
theorem laneServiceCompletes : Obligations.LaneServiceCompletes := by
  unfold Obligations.LaneServiceCompletes
  refine ⟨fun n s => ⟨fun hs he hn => ⟨_, exec_alignLoss_leaves hs he hn, State.leaveActive_state ..,
        State.leaveActive_rung _ _ _ (by rwa [State.get_set_ne _ _ _ _ _ _ (by decide)])⟩, exec_alignLoss_other⟩,
    fun n s => ⟨fun hs hn => ⟨_, exec_napTimeout_leaves hs hn, State.leaveActiveNap_state, State.leaveActiveNap_last⟩,
      exec_napTimeout_other⟩,
    fun n s => ⟨exec_activeStable_active, exec_activeStable_other⟩,
    fun n ms d s hlo hhi => ⟨exec_idleTrim_held hlo hhi, exec_idleTrim_due hlo hhi⟩,
    fun n s => ⟨exec_trimPassEnd_ends, exec_trimPassEnd_none⟩,
    fun n s => ⟨exec_serviceTrim_moves, exec_serviceTrim_held⟩,
    fun n s => ⟨exec_txNap_naps, exec_txNap_other, exec_txWake_wakes, exec_txWake_awake⟩,
    fun n s => ⟨exec_rxNap_naps, exec_rxNap_other⟩,
    fun n k s => ⟨exec_eyeScanDone_counts, exec_eyeScanDone_other⟩⟩
end

section
/-! PROOFS. Enabling, disabling and retraining a lane, its counters, overrides and eye scan (O15). -/

namespace Sys2Proof.Machine

section Control
variable {s : State} {f : Fld} {n : Nat} {src : Src}

/-! ### ENABLE and RETRAIN (02_lane_complex.md R43) -/

/-- A lane that is no egress lane is in DETECT, and waits for signal and lock there. -/
theorem State.retry_trained (h : s.get .LANE_ID_ROLE n ≠ 2) : s.retry n = s.enterDetect n := by
  rw [State.retry, State.tryEgress_trained]
  exact State.isEgress_eq_false (by rwa [State.enterDetect_get _ _ _ (by decide) (by decide) (by decide)])

/-- Fail count and exclusions begin anew, and no limit of the port's other lane stands. -/
def State.forgiven (s : State) (n : Nat) : State :=
  ((s.set .LANE_STATUS_FAIL_COUNT n 0).set .LANE_STATUS_EXCLUDED n 0).set .LANE_H_LIMIT n 4

theorem State.forgiven_get (h : ∀ g ∈ [Fld.LANE_STATUS_FAIL_COUNT, .LANE_STATUS_EXCLUDED, .LANE_H_LIMIT], g.id ≠ f.id) :
    (s.forgiven n).get f n = s.get f n := by
  rw [State.forgiven, State.get_set_ne _ _ _ _ _ _ (h _ (by decide)), State.get_set_ne _ _ _ _ _ _ (h _ (by decide)),
    State.get_set_ne _ _ _ _ _ _ (h _ (by decide))]

theorem State.forgiven_fails : (s.forgiven n).get .LANE_STATUS_FAIL_COUNT n = 0 := by
  rw [State.forgiven, State.get_set_ne _ _ _ _ _ _ (by decide), State.get_set_ne _ _ _ _ _ _ (by decide),
    State.get_set_same, Nat.zero_mod]

theorem State.forgiven_excluded : (s.forgiven n).get .LANE_STATUS_EXCLUDED n = 0 := by
  rw [State.forgiven, State.get_set_ne _ _ _ _ _ _ (by decide), State.get_set_same, Nat.zero_mod]

theorem State.retry_enable : (s.retry n).get .LANE_CTRL_ENABLE n = s.get .LANE_CTRL_ENABLE n := by
  have hdetect : (s.enterDetect n).get .LANE_CTRL_ENABLE n = s.get .LANE_CTRL_ENABLE n :=
    State.enterDetect_get _ _ _ (by decide) (by decide) (by decide)
  by_cases he : s.get .LANE_ID_ROLE n = 2
  · have hrole : (s.enterDetect n).get .LANE_ID_ROLE n = 2 :=
      (State.enterDetect_get _ _ _ (by decide) (by decide) (by decide)).trans he
    rw [State.retry, State.tryEgress]
    split
    · rw [State.laneUp_egress _ hrole, State.laneRisen_get _ _ _ (by decide) (by decide), hdetect]
    · exact hdetect
  · rw [State.retry_trained he, hdetect]

theorem effLaneEnable_trains (hd : s.laneState n = laneDisabled) (hr : s.get .LANE_ID_ROLE n ≠ 0) :
    effLaneEnable n s = ((s.set .LANE_CTRL_ENABLE n 1).forgiven n).retry n := by
  have hrole : (s.set .LANE_CTRL_ENABLE n 1).get .LANE_ID_ROLE n ≠ 0 := by
    rwa [State.get_set_ne _ _ _ _ _ _ (by decide)]
  exact if_pos (by simp [State.laneState_set_ne (s := s) (f := .LANE_CTRL_ENABLE) (by decide), hd, hrole])

theorem effLaneEnable_enable : (effLaneEnable n s).get .LANE_CTRL_ENABLE n = 1 := by
  have hset : (s.set .LANE_CTRL_ENABLE n 1).get .LANE_CTRL_ENABLE n = 1 := State.get_set_same ..
  rw [effLaneEnable, ← State.forgiven]
  split
  · rw [State.retry_enable, State.forgiven_get (by decide), hset]
  · exact hset

theorem exec_laneEnable_recorded (hg : s.gate src .installer (20 + n / 4) = .ok) : Recorded (.laneEnable n src) s src 0
    (s.auditRec src 1 1 (0x100004 + 0x1000 * n) (valueDigest (s.get .LANE_CTRL_ENABLE n)) (valueDigest 1)) fun t =>
      t.get .LANE_CTRL_ENABLE n = 1 ∧ (s.laneState n = laneDisabled → s.get .LANE_ID_ROLE n ≠ 0 →
        s.get .LANE_ID_ROLE n ≠ 2 →
        t.laneState n = laneDetect ∧ t.get .LANE_STATUS_FAIL_COUNT n = 0 ∧ t.get .LANE_STATUS_EXCLUDED n = 0) := by
  refine .of_exec (eff := effLaneEnable n) (if_neg (not_not_intro hg)) fun _ => ⟨?_, fun hd hr he => ?_⟩
  · rw [State.completed_get _ _ (by decide) (by decide), effLaneEnable_enable]
  · have hrole : ((s.set .LANE_CTRL_ENABLE n 1).forgiven n).get .LANE_ID_ROLE n ≠ 2 := by
      rwa [State.forgiven_get (by decide), State.get_set_ne _ _ _ _ _ _ (by decide)]
    rw [State.laneState, State.completed_get _ _ (by decide) (by decide),
      State.completed_get _ _ (by decide) (by decide), State.completed_get _ _ (by decide) (by decide),
      effLaneEnable_trains hd hr, State.retry_trained hrole]
    refine ⟨State.enterDetect_state .., ?_, ?_⟩
    · rw [State.enterDetect_get _ _ _ (by decide) (by decide) (by decide), State.forgiven_fails]
    · rw [State.enterDetect_get _ _ _ (by decide) (by decide) (by decide), State.forgiven_excluded]

theorem State.laneHold_state : (s.laneHold n).laneState n = laneDisabled := State.laneState_set_same (by decide)

theorem State.laneHold_last : (s.laneHold n).get .LANE_REASON_LAST n = 0x0C := by
  rw [State.laneHold, State.get_set_ne _ _ _ _ _ _ (by decide), State.get_set_ne _ _ _ _ _ _ (by decide)]
  split
  · rw [State.laneDown_get _ _ _ (by decide) (by decide), State.reason_last]
    rfl
  · exact State.reason_last ..

theorem exec_laneDisable_recorded (hg : s.gate src .installer (20 + n / 4) = .ok) :
    Recorded (.laneDisable n src) s src 0 (s.auditRec src 1 1 (0x100004 + 0x1000 * n)
      (valueDigest (s.get .LANE_CTRL_ENABLE n)) (valueDigest 0)) fun t =>
        t.laneState n = laneDisabled ∧ t.get .LANE_REASON_LAST n = 0x0C := by
  refine .of_exec (eff := effLaneDisable n) (if_neg (not_not_intro hg)) fun _ => ?_
  rw [State.laneState, State.completed_get _ _ (by decide) (by decide), State.completed_get _ _ (by decide) (by decide)]
  exact ⟨State.laneHold_state, State.laneHold_last⟩

/-- A lane that trains or is ACTIVE, as RETRAIN takes it out of its state. -/
def State.retrained (s : State) (n : Nat) : State :=
  if s.laneState n = laneActive then (s.reason n Reason.softwareRetrain).laneDown n
  else s.reason n Reason.softwareRetrain

theorem State.retrained_get (hp : f.page = 16)
    (h : ∀ g ∈ [Fld.LANE_REASON_LAST, .LANE_REASON_RUNG] ++ laneDownCells, g.id ≠ f.id) :
    (s.retrained n).get f n = s.get f n := by
  have hreason : (s.reason n Reason.softwareRetrain).get f n = s.get f n :=
    State.reason_get _ _ _ _ (h _ (by decide)) (h _ (by decide))
  unfold State.retrained
  split
  · rw [State.laneDown_get _ _ _ hp fun g hg => h g (List.mem_append_right _ hg), hreason]
  · exact hreason

theorem State.retrained_last : (s.retrained n).get .LANE_REASON_LAST n = 0x0B := by
  unfold State.retrained
  split
  · rw [State.laneDown_get _ _ _ (by decide) (by decide), State.reason_last]
    rfl
  · exact State.reason_last ..

theorem effLaneRetrain_trains (hd : s.laneState n ≠ laneDisabled) (hb : s.laneState n ≠ laneBackoff) :
    effLaneRetrain n s = ((s.retrained n).forgiven n).retry n :=
  if_neg (by simp [hd, hb])

theorem exec_laneRetrain_recorded (hg : s.gate src .installer (20 + n / 4) = .ok) :
    Recorded (.laneRetrain n src) s src 0
      (s.auditRec src 1 1 (0x100004 + 0x1000 * n) (valueDigest 0) (valueDigest 2)) fun t =>
        s.laneState n ≠ laneDisabled → s.laneState n ≠ laneBackoff → s.get .LANE_ID_ROLE n ≠ 2 →
          t.laneState n = laneDetect ∧ t.get .LANE_REASON_LAST n = 0x0B ∧ t.get .LANE_STATUS_FAIL_COUNT n = 0 := by
  refine .of_exec (eff := effLaneRetrain n) (if_neg (not_not_intro hg)) fun _ hd hb he => ?_
  have hrole : ((s.retrained n).forgiven n).get .LANE_ID_ROLE n ≠ 2 := by
    rwa [State.forgiven_get (by decide), State.retrained_get (by decide) (by decide)]
  rw [State.laneState, State.completed_get _ _ (by decide) (by decide), State.completed_get _ _ (by decide) (by decide),
    State.completed_get _ _ (by decide) (by decide), effLaneRetrain_trains hd hb, State.retry_trained hrole]
  refine ⟨State.enterDetect_state .., ?_, ?_⟩
  · rw [State.enterDetect_get _ _ _ (by decide) (by decide) (by decide), State.forgiven_get (by decide),
      State.retrained_last]
  · rw [State.enterDetect_get _ _ _ (by decide) (by decide) (by decide), State.forgiven_fails]

theorem exec_laneClrCnt_clears (hg : s.gate src .operator (20 + n / 4) = .ok) : exec (.laneClrCnt n src) s =
    .next (((((s.set .LANE_CNT_CORR n 0).set .LANE_CNT_UNCORR n 0).set .LANE_CNT_LOS n 0).set .LANE_CNT_FAIL n
      0).answer src 0 .ok) := if_neg (not_not_intro hg)

/-! ### Overrides (R36, R37) -/

/-- The staged settings are the override of the selected rung, in effect and kept. -/
def State.overridden (s : State) (n : Nat) : State :=
  { s with lane := { s.lane with
      eqTable := tabPut s.lane.eqTable (5 * n + s.get .LANE_EQ_SEL_RUNG n) (s.eqStaged n)
      eqKept := tabPut s.lane.eqKept (5 * n + s.get .LANE_EQ_SEL_RUNG n) (s.eqStaged n) } }

section Commit
variable (hv : eqValid (s.eqStaged n) = true) (hr : s.get .LANE_EQ_SEL_RUNG n ≤ 4)
include hv hr

theorem effLaneEqCommit_stores : effLaneEqCommit n src s = (s.overridden n).set .LANE_EQ_RX2_SRC n 3 :=
  if_neg (by simp [hv, hr])

/-- The commit sends nothing itself, so its completion with OK is all that goes out. -/
theorem State.completed_eqCommit (hm : src.ini = .mgt) : s.completed src 0 (effLaneEqCommit n src) =
    ((s.overridden n).set .LANE_EQ_RX2_SRC n 3).emit (.status src 0 .ok) := by
  rw [State.completed_of_silent (by rw [effLaneEqCommit_stores hv hr]; rfl), effLaneEqCommit_stores hv hr,
    State.answer_mgt _ _ _ _ hm]

theorem exec_laneEqCommit_recorded (hg : s.gate src .installer (20 + n / 4) = .ok) (hb : s.settingsBusy src = false) :
    Recorded (.laneEqCommit n src) s src 0 (s.auditRec src 2 1 (0x100028 + 0x1000 * n) noValue noValue) fun t =>
      t.eqEntry n (s.get .LANE_EQ_SEL_RUNG n) = s.eqStaged n ∧
        tabGet t.lane.eqKept (5 * n + s.get .LANE_EQ_SEL_RUNG n) (EqEntry.default 1) = s.eqStaged n := by
  refine .of_exec (eff := effLaneEqCommit n src) ?_ fun hm => ?_
  · rw [exec_laneEqCommit, execLaneEqCommit, if_neg (not_not_intro hg), if_neg (ne_true_of_eq_false hb),
      if_neg (by simp [hv, hr])]
  · rw [State.completed_eqCommit hv hr hm, State.eqEntry, if_pos hr]
    exact ⟨tabGet_put_same .., tabGet_put_same ..⟩

end Commit

/-! ### The start of an eye scan (R55, R56) -/

/-- Why a start ends at once with ABORTED, or 0. -/
def State.scanRefusal (s : State) (n : Nat) : Nat :=
  if s.laneState n ≠ laneActive || s.get .LANE_STATUS_RUNG n = 0 then 1
  else if s.get .LANE_EYE_CTRL_LOG2_SAMPLES n < 10 || 30 < s.get .LANE_EYE_CTRL_LOG2_SAMPLES n ||
    s.get .LANE_EYE_CTRL_EYE n = 3 then 3 else 0

theorem effEyeScanStart_idle (hb : s.on .LANE_EYE_STATUS_BUSY n = false) : effEyeScanStart n s =
    if s.scanRefusal n ≠ 0 then ((s.set .LANE_EYE_ERR n 0).set .LANE_EYE_STATUS_ABORTED n 1).set
      .LANE_EYE_STATUS_ABORT_REASON n (s.scanRefusal n)
    else ((s.set .LANE_EYE_ERR n 0).set .LANE_EYE_STATUS_BUSY n 1).set .LANE_EYE_STATUS_RESTARTS n 0 := by
  have hrefusal : (s.set .LANE_EYE_ERR n 0).scanRefusal n = s.scanRefusal n := by
    simp (disch := decide) only [State.scanRefusal, State.laneState_set_ne, State.get_set_ne]
  rw [effEyeScanStart, if_neg (ne_true_of_eq_false hb)]
  dsimp only
  rw [← State.scanRefusal, hrefusal]

theorem exec_eyeScanStart_recorded (hg : s.gate src .installer (20 + n / 4) = .ok) :
    Recorded (.eyeScanStart n src) s src 0 (s.auditRec src 1 1 (0x100050 + 0x1000 * n) noValue noValue) fun t =>
      s.on .LANE_EYE_STATUS_BUSY n = false →
      (s.laneState n = laneActive → s.get .LANE_STATUS_RUNG n ≠ 0 → 10 ≤ s.get .LANE_EYE_CTRL_LOG2_SAMPLES n →
        s.get .LANE_EYE_CTRL_LOG2_SAMPLES n ≤ 30 → s.get .LANE_EYE_CTRL_EYE n ≠ 3 →
        t.get .LANE_EYE_STATUS_BUSY n = 1 ∧ t.get .LANE_EYE_STATUS_RESTARTS n = 0) ∧
      (s.laneState n ≠ laneActive → t.get .LANE_EYE_STATUS_ABORTED n = 1 ∧
        t.get .LANE_EYE_STATUS_ABORT_REASON n = 1) := by
  refine .of_exec (eff := effEyeScanStart n) (if_neg (not_not_intro hg)) fun _ hb =>
    ⟨fun ha hr hlo hhi he => ?_, fun ha => ?_⟩
  · have hnone : s.scanRefusal n = 0 := by
      rw [State.scanRefusal, if_neg (by simp [ha, hr]), if_neg (by simp [he]; omega)]
    rw [State.completed_get _ _ (by decide) (by decide), State.completed_get _ _ (by decide) (by decide),
      effEyeScanStart_idle hb, if_neg (not_not_intro hnone)]
    refine ⟨?_, (State.get_set_same ..).trans (Nat.zero_mod _)⟩
    rw [State.get_set_ne _ _ _ _ _ _ (by decide), State.get_set_same]
    rfl
  · have hout : s.scanRefusal n = 1 := by rw [State.scanRefusal, if_pos (by simp [ha])]
    rw [State.completed_get _ _ (by decide) (by decide), State.completed_get _ _ (by decide) (by decide),
      effEyeScanStart_idle hb, hout, if_pos (by decide)]
    refine ⟨?_, State.get_set_same ..⟩
    rw [State.get_set_ne _ _ _ _ _ _ (by decide), State.get_set_same]
    rfl

end Control

end Sys2Proof.Machine

open Sys2Proof Sys2Proof.Machine

/-- Settles O15: each recorded command by what its effect leaves, and the counters that are cleared at once. -/
theorem laneControlCompletes : Obligations.LaneControlCompletes := by
  unfold Obligations.LaneControlCompletes
  exact ⟨fun n src s => exec_laneEnable_recorded, fun n src s => exec_laneDisable_recorded,
    fun n src s => exec_laneRetrain_recorded, fun n src s => exec_laneClrCnt_clears,
    fun n src s hg hb hv hr => exec_laneEqCommit_recorded hv hr hg hb, fun n src s => exec_eyeScanStart_recorded⟩
end
